-- ==== Sys2Proof/Word.lean ====
section
/-! DEFINITION. The word types of the PL-8512 and the plainest arithmetic on them. -/

namespace Sys2Proof

/-- One register word, one table word: 32 bits (R498). -/
abbrev Word := BitVec 32

/-- One byte of a table memory, a stack or the Selvedge store. -/
abbrev Byte := BitVec 8

/-- A 64-bit word of the Selvedge store (R430). -/
abbrev DWord := BitVec 64

/-- The larger of `lo` and the smaller of `hi` and `x`. -/
def clampInt (lo hi x : Int) : Int := max lo (min hi x)

/-- The two's-complement reading of the low `w` bits of `n`. -/
def signedOf (w n : Nat) : Int :=
  let m := n % 2 ^ w
  if m < 2 ^ (w - 1) then (m : Int) else (m : Int) - (2 ^ w : Nat)

/-- The low `w` bits of the two's-complement form of `i`. -/
def unsignedOf (w : Nat) (i : Int) : Nat := (i % (2 ^ w : Nat)).toNat

/-- Bit `n` of `x`. -/
def bitOf (x n : Nat) : Bool := x.testBit n

/-- Bits `hi` down to `lo` of `x`. -/
def bitsOf (x hi lo : Nat) : Nat := (x >>> lo) % 2 ^ (hi + 1 - lo)

/-- The Nat of a flag. -/
def flagNat (b : Bool) : Nat := if b then 1 else 0

/-- `x` with bit `n` set to `b`. -/
def putBit (x n : Nat) (b : Bool) : Nat :=
  if x.testBit n = b then x else if b then x + 2 ^ n else x - 2 ^ n

/-- `a + b`, held at the largest value of `w` bits. -/
def satAdd (w a b : Nat) : Nat := min (a + b) (2 ^ w - 1)

end Sys2Proof
end

