-- ==== Sys2Proof/Syntax.lean ====
section
/-! DEFINITION. The commands of the block (Instr) and the data that come with them from outside. -/

namespace Sys2Proof

/-- Who makes a register access (R31, R444): a Gallery core of a tile, or the SMBus target. -/
inductive Req where
  | core (t : Fin 8) (c : Fin 2)
  | smbus
deriving DecidableEq, Repr

/-- What the twelve lanes of a Riser link carry next to one another (R64, R65): a group of three codewords, or the
alignment markers; the bits of lane 0 lowest. -/
inductive LineItem where
  | group (bits : BitVec 16320)
  | marker (bits : BitVec 1920)
deriving DecidableEq, Repr

/-- What a Riser receiver took in since the command before it: the groups and markers in order; the instants at which the
last markers arrived, one for each lane, in 1/16 ns (R65); and the largest time from the instant of one of its samples
to its arrival, in 1/16 ns (R79). -/
structure LineRx where
  items : List LineItem
  lanes : List Nat
  late : Nat
deriving DecidableEq, Repr

/-- An upstream Riser frame as the block stream gives it (R66 to R75): its frame start block, 0 where an uncorrectable
codeword carried it, and its fixed area; whether a codeword that carries its blocks was uncorrectable, a control block of
no known type stood in it, or a block of the area was missing; its fill blocks, and whether a marker fell in it; and the
largest time from a sample's instant to its arrival, in 1/16 ns (R79). -/
structure UpFrame where
  fsb : BitVec 256
  area : BitVec 58624
  broken : Bool
  fill : Nat
  marker : Bool
  late : Nat
deriving DecidableEq, Repr

/-- A fabric Ethernet frame as received (R362): its IEEE 802.1Q priority and its length in bytes; a priority flow
control frame's priorities, each paused or not; an ECN-marked RoCEv2 packet; a congestion notification packet's queue
pair (controller, queue); the bytes that the engine took out of the two lossless buffers and the lossy one since the
frame before; and an uncorrectable error in the buffer that took it. -/
structure FabricFrame where
  pri : Nat
  len : Nat
  pause : Option (List (Nat × Bool))
  ecn : Bool
  cnp : Option (Nat × Nat)
  taken : List Nat
  bad : Bool
deriving DecidableEq, Repr

/-- An NVMe-oF command capsule: its controller in the port (16 for the discovery controller) and its queue; the
submission queue entry; the data that the host holds for the command; and the staging address, in 4 KiB units of the
port's stack, that the engine gives it. -/
structure Capsule where
  ctrl : Nat
  qid : Nat
  sqe : BitVec 512
  data : List Byte
  stage : Nat
deriving DecidableEq, Repr

/-- An access of a Gallery core (R393, R394): its physical address, its bytes, the value stored, the integer register that
takes what is loaded, and whether that is extended by zeros. -/
structure CoreAccess where
  addr : Nat
  size : Nat
  value : Nat
  rd : Fin 32
  zext : Bool
deriving DecidableEq, Repr

/-- What the instruction that a core fetched last did in the core alone (R392): nothing, a new value of an integer register,
an access to a CSR with the value it writes, a return from a trap, or an exception of its own. -/
inductive CoreOp where
  | none
  | reg (rd : Fin 32) (v : DWord)
  | csr (rd : Fin 32) (n : Fin 4096) (v : Option DWord)
  | mret | sret | ecall | ebreak | illegal
deriving DecidableEq, Repr

/-- The atomic instructions of RV64A (R393). -/
inductive AmoOp where
  | lr | sc | swap | add | xor | and | or | min | max | minu | maxu
deriving DecidableEq, Repr

/-- The moment at which the PLLs of a boot lock (R409, R411): the CORE cycles before it, and the levels of the strap pins
where they have changed since they were last sampled. -/
structure PllLock where
  wait : Nat
  pins : Option Word
deriving DecidableEq, Repr

/-- The reads of a boot candidate (R412, R413): the CORE cycles before its verdict, and whether the flash answered them all
without a status error. -/
structure FlashReads where
  wait : Nat
  ok : Bool
deriving DecidableEq, Repr

/-- A fetch of a core, and what the instruction fetched before it did in the core alone. -/
structure Fetch where
  ran : CoreOp
  access : CoreAccess
deriving DecidableEq, Repr

/-- A Warp flit as a link receives it (R21): its 64 bytes and the CRC-16 that came with them. -/
structure RxFlit where
  flit : BitVec 512
  crc : BitVec 16
deriving DecidableEq, Repr

/-- What a message of the SMBus management interface says before the request of R492 that it carries: whether the PEC of
its packets is right, the bytes of its longest packet, its MCTP message type and vendor ID, the OP byte and the address. -/
structure SmbHead where
  pec : Bool
  unit : Nat
  type : Nat
  vendor : Nat
  op : Nat
  addr : Nat
deriving DecidableEq, Repr

/-- The commands of the block, one for each row of the opcode table. -/
inductive Instr where
  /-- POWER_ON_RESET_RELEASE (R483): Release of the power-on reset, once every rail is in tolerance and RST_N and PWRFAIL_N are high, starts a cold boot. -/
  | powerOnResetRelease (wait : Nat) (straps : Word)
  /-- RAIL_UNDERVOLTAGE (R483): A rail that stays below 94 % of nominal for 2 µs causes a cold reset. -/
  | railUndervoltage (wait : Nat) (low : Nat)
  /-- RST_N (R484): RST_N held low for 1 µs without a break begins a warm reset of the package. -/
  | rstN (wait : Nat) (low : Nat)
  /-- RST_N_RISE (R484): The rise of RST_N after a warm reset starts the warm boot. -/
  | rstNRise (wait : Nat)
  /-- WARM_RST (R501): An accepted RESET_CMD write with WARM_RST set makes the Atrium carry out a warm reset. -/
  | warmRst (req : Req) (v : Word)
  /-- TILE_RST (R501): An accepted RESET_CMD write starts a tile reset of each enabled tile whose TILE_RST bit is 1. -/
  | tileRst (req : Req) (v : Word)
  /-- HEAD_RESET (R94): The HEAD_RESET bit resets one head's link, Landing, loops, drives, channels and Weft unit, and the head returns to OFF. -/
  | headReset (req : Req) (h : Fin 32) (v : Word)
  /-- PORT_RESET (R364): The PORT_RESET bit resets one fabric port with its queues and RDMA state, and PRDY_N is held low until the port is ready again. -/
  | portReset (req : Req) (p : Fin 16) (v : Word)
  /-- PWRFAIL (R471): PWRFAIL_N recognised low for 40 ns orders SAFE to every head, begins a power-failure episode and logs PWRFAIL. -/
  | pwrfail (wait : Nat) (low : Nat)
  /-- SELVEDGE_WRITE_REFUSAL (R432): 10 µs after the falling edge that began the episode, the Selvedge stores begin refusing writes. -/
  | selvedgeWriteRefusal (wait : Nat)
  /-- PWRFAIL_EPISODE_END (R472): PWRFAIL_N high for 1 ms without a break ends the episode; the stores accept writes and deferred records are written. -/
  | pwrfailEpisodeEnd (wait : Nat)
  /-- SYSCLK_STOP (R496): Loss of SYSCLK stops the Riser frames and the CORE PLLs, and holds the package in reset until a cold boot. -/
  | sysclkStop (wait : Nat)
  /-- REFCLK_STOP (R496): Loss of REFCLK makes every lane lose lock, so the Riser links are lost and the fabric links fall. -/
  | refclkStop (wait : Nat)
  /-- BOOT_PLL_LOCK (R411): The CORE PLLs of tiles 0 and 4 lock, ending boot step 1. -/
  | bootPllLock (lock : PllLock)
  /-- TILES_POWERED (R411): The strapped tiles are powered and their PLLs have locked, ending boot step 3. -/
  | tilesPowered (wait : Nat)
  /-- BOOT_RECORD_SCAN (R426): BOOT_COUNT and both boot record copies have been read; the chain head is chosen and copied over the other copy. -/
  | bootRecordScan (wait : Nat)
  /-- CANDIDATE_VERIFY (R412): A bit-stream candidate has been read and is checked, and it is either used or recorded in BOOT_TRY. -/
  | candidateVerify (reads : FlashReads)
  /-- SECTION_LOAD (R418): The sections are loaded into table memories and checked, and tiles above TILE_COUNT are gated off. -/
  | sectionLoad (wait : Nat)
  /-- SPARING_APPLY (R382): The fuse map and then the soft repair list are applied. -/
  | sparingApply (wait : Nat)
  /-- RECORD_APPEND (R425): The boot record entry is appended to both copies, after BOOT_COUNT is written. -/
  | recordAppend (wait : Nat)
  /-- JOURNAL_REPLAY (R317): The Atrium replays each set's journal, writing COMMIT or VOID records and marking stripes PARITY_PENDING. -/
  | journalReplay (wait : Nat)
  /-- CORE_RELEASE (R419): Each core is released in M mode at the ENTRY of its image. -/
  | coreRelease (wait : Nat)
  /-- TILE_RELOAD (R414): After a tile reset, the tile reloads and checks its sections from the candidate chosen at the last boot. -/
  | tileReload (wait : Nat) (t : Fin 8)
  /-- SYNC_FLIT_SEND (R37): Every 1 µs the time master sends a sync flit on V0 to every enabled tile. -/
  | syncFlitSend (wait : Nat) (w : Fin 2)
  /-- SYNC_FLIT_RECEIVE (R38): On a sync flit the tile computes the offset and does nothing, slews, steps or holds. -/
  | syncFlitReceive (wait : Nat) (t : Fin 8)
  /-- SYNC_LOST (R43): No sync flit for 8 µs sets SYNC_LOST, and the counter runs on. -/
  | syncLost (wait : Nat) (t : Fin 8)
  /-- UPSTREAM_FRAME (R75): An upstream Riser frame is received whole and checked; its servo area, acknowledgements, inputs and telemetry are taken, or it is treated as bad. -/
  | upstreamFrame (wait : Nat) (h : Fin 32) (l : LineRx)
  /-- HOLDOVER (R48): After 8 consecutive missing motor samples the Landing enters holdover and closes write gates. -/
  | holdover (wait : Nat) (h : Fin 32)
  /-- ANGLE_LOST (R48): After HOLD_LIMIT in holdover the angle becomes invalid and both schedule slots stop. -/
  | angleLost (wait : Nat) (h : Fin 32)
  /-- ALIGN (R46): A write of ALIGN arms an alignment at the next index detection, or is refused while slot 1 runs. -/
  | align (req : Req) (h : Fin 32) (v : Word)
  /-- DISC_OFFSET_WRITE (R49): A write of DISC_OFFSET steps P on the real source, or only stores the value on the virtual source. -/
  | discOffsetWrite (req : Req) (h : Fin 32) (v : Word)
  /-- VRATE_WRITE (R50): A write of VRATE takes effect at the next Riser frame boundary while the virtual source is in use. -/
  | vrateWrite (req : Req) (h : Fin 32) (v : Word)
  /-- ASRC_WRITE (R50): A write of ASRC selects the angle source, and a change takes effect at the next frame boundary. -/
  | asrcWrite (req : Req) (h : Fin 32) (v : Word)
  /-- ANGLE_SOURCE_CHANGE (R51): At a Riser frame boundary the angle source changes between real and virtual. -/
  | angleSourceChange (wait : Nat) (h : Fin 32)
  /-- INDEX_CROSSING (R59): P advances past a multiple of 2^24 with W > 0, which restarts slot 0 and serves a pending START or SLOT0_SCHED. -/
  | indexCrossing (wait : Nat) (h : Fin 32)
  /-- START (R52): A write of START requests slot 1 to start at the next index crossing that serves it. -/
  | start (req : Req) (h : Fin 32) (v : Word)
  /-- STOP (R52): A write of STOP stops slot 1 at once and cancels a pending START. -/
  | stop (req : Req) (h : Fin 32) (v : Word)
  /-- SLOT0_SCHED_WRITE (R56): A write of SLOT0_SCHED names a new servo schedule, which is checked at the next index crossing. -/
  | slot0SchedWrite (req : Req) (h : Fin 32) (v : Word)
  /-- SPARE_ARM (R62): A write of SPARE_ARM arms a cover or release at the next SPARE_POINT of SPARE_K, or completes at once. -/
  | spareArm (req : Req) (h : Fin 32) (v : Word)
  /-- NOP (R54): A schedule NOP entry fires and does nothing. -/
  | nop (wait : Nat) (h : Fin 32)
  /-- SECTOR_GATE_OPEN (R134): A sector gate open event starts a frame in the beam channel and Weft unit and claims a retention slot. -/
  | sectorGateOpen (wait : Nat) (h : Fin 32)
  /-- SECTOR_GATE_CLOSE (R134): A sector gate close event ends the frame with a framing code and starts the group's decoders once all four frames end. -/
  | sectorGateClose (wait : Nat) (h : Fin 32)
  /-- WRITE_GATE_OPEN (R169): A write gate open event is checked for speed and strategy and forwarded to the head-end by the write channel, or withheld. -/
  | writeGateOpen (wait : Nat) (h : Fin 32)
  /-- WRITE_GATE_CLOSE (R169): A write gate close event is forwarded, and after the 256th close the write phase ends. -/
  | writeGateClose (wait : Nat) (h : Fin 32)
  /-- WEDGE_WINDOW_OPEN (R221): A wedge window opens in the Landing's demodulator. -/
  | wedgeWindowOpen (wait : Nat) (h : Fin 32)
  /-- WEDGE_WINDOW_CLOSE (R222): A wedge window closes, and the wedge completes when its frames have arrived. -/
  | wedgeWindowClose (wait : Nat) (h : Fin 32)
  /-- RESYNC_EXPECT (R138): A resync expectation event centres an unframed search or records RES_DRIFT. -/
  | resyncExpect (wait : Nat) (h : Fin 32)
  /-- LOOP_SAMPLE (R198): A LOOP_SAMPLE event makes a TRIG = 1 loop fall due, or it is ignored with EVT_BAD. -/
  | loopSample (wait : Nat) (h : Fin 32)
  /-- CAL_WINDOW_OPEN (R286): A calibration window open for the armed job opens its window, queueing a stimulus or a reference step. -/
  | calWindowOpen (wait : Nat) (h : Fin 32)
  /-- CAL_WINDOW_CLOSE (R286): A calibration window close ends the measurement span of the job. -/
  | calWindowClose (wait : Nat) (h : Fin 32)
  /-- SPARE_POINT (R62): A SPARE_POINT entry carries out an armed spare cover or release by sending SPARE_MUX. -/
  | sparePoint (wait : Nat) (h : Fin 32)
  /-- RETAIN (R151): A RETAIN event enables or disables sample retention from the next gate open. -/
  | retain (wait : Nat) (h : Fin 32)
  /-- ZONE_SELECT (R61): A ZONE_SELECT event changes the layer and zone for channel tables, offsets and the loop region. -/
  | zoneSelect (wait : Nat) (h : Fin 32)
  /-- MARK (R54): A MARK event interrupts the Gallery with its tag and crossing time. -/
  | mark (wait : Nat) (h : Fin 32)
  /-- REV_CHECK (R54): A REV_CHECK event compares the revolution count with REV and counts a skip if they disagree. -/
  | revCheck (wait : Nat) (h : Fin 32)
  /-- END (R54): An END event stops slot 1 or arms its restart at the next index crossing. -/
  | endEvent (wait : Nat) (h : Fin 32)
  /-- TRAIN (R79): A write of TRAIN starts training from SILENT, first acting as a link loss if the link is UP. -/
  | train (req : Req) (h : Fin 32) (v : Word)
  /-- AUTO_RETRAIN (R79): 1 ms after a link loss with AUTO_RETRAIN set, training starts. -/
  | autoRetrain (wait : Nat) (h : Fin 32)
  /-- SILENT_ELAPSED (R79): After 10 µs of SILENT, training moves to LOCK. -/
  | silentElapsed (wait : Nat) (h : Fin 32)
  /-- LOCK_ELAPSED (R79): At the end of TRAIN_LOCK_T, training moves to ALIGN, or fails with LOCK_TIMEOUT. -/
  | lockElapsed (wait : Nat) (h : Fin 32) (lanes : Nat)
  /-- TRAINING_BLOCK (R78): A training block is received, giving lock masks, alignment and echo exchange data. -/
  | trainingBlock (wait : Nat) (h : Fin 32) (l : LineRx)
  /-- ALIGN_TIMEOUT (R79): ALIGN not achieved within 1 ms fails training. -/
  | alignTimeout (wait : Nat) (h : Fin 32)
  /-- MEASURE_DONE (R79): After 64 echo exchanges the device sets D, DN_ARRIVE and LAT_DN, or fails with LAT_EXCEEDED or INCOMPATIBLE. -/
  | measureDone (wait : Nat) (h : Fin 32)
  /-- MEASURE_TIMEOUT (R79): MEASURE not completed in 500 µs fails training. -/
  | measureTimeout (wait : Nat) (h : Fin 32)
  /-- FRAMED_LOCK (R79): 64 consecutive good frames each way set LAT_UP, and the link goes UP. -/
  | framedLock (wait : Nat) (h : Fin 32)
  /-- FRAME_TIMEOUT (R79): FRAMED not completed in 1 ms fails training. -/
  | frameTimeout (wait : Nat) (h : Fin 32)
  /-- LINK_LOSS (R80): The device declares a Riser link loss, orders SAFE, reports it to the Landing, delivers erasures and discards queued commands. -/
  | linkLoss (wait : Nat) (h : Fin 32) (lanes : Nat)
  /-- DOWNSTREAM_FRAME (R87): Each 100 ns the device builds and sends a downstream frame with SAFE bit, write bits and up to four queued commands. -/
  | downstreamFrame (wait : Nat) (h : Fin 32)
  /-- CMD_LOST (R85): No acknowledgement within 16 frames counts a command lost. -/
  | cmdLost (wait : Nat) (h : Fin 32)
  /-- BEAM_SAMPLE_DELIVERY (R77): The de-jitter buffer delivers a sample to its beam channel at its delivery time, or an erasure with LATE_DATA. -/
  | beamSampleDelivery (wait : Nat) (h : Fin 32) (i : Fin 33)
  /-- DEFECT_HOLD_RELEASE (R132): DH_EXT ns after the defect count falls, the hold request is withdrawn. -/
  | defectHoldRelease (wait : Nat) (h : Fin 32)
  /-- FW_GO (R94): A write of FW_GO queues the firmware Riser command, or refuses it with FW_CMD_BAD. -/
  | fwGo (req : Req) (h : Fin 32) (v : Word)
  /-- SAFE_CMD (R91): A write of SAFE_CMD sets or withdraws a SAFE cause for the head. -/
  | safeCmd (req : Req) (h : Fin 32) (v : Word)
  /-- SAFE_RELEASE (R93): A write of SAFE_RELEASE sends SAFE_RELEASE, or sets SAFE_HELD while a cause persists. -/
  | safeRelease (req : Req) (h : Fin 32) (v : Word)
  /-- DECODE_COMPLETE (R143): An LDPC decode ends; the header is checked and the result goes to the delivery ring or to verify, and slots are held on failure. -/
  | decodeComplete (wait : Nat) (h : Fin 32) (i : Fin 32)
  /-- CLR_STATS (R160): A write of CLR_STATS clears a beam channel's statistics record. -/
  | clrStats (req : Req) (h : Fin 32) (i : Fin 33) (v : Word)
  /-- RETRY_GO (R153): A write of GO queues a retry order for a held frame position, or sets ORDER_REJ. -/
  | retryGo (req : Req) (h : Fin 32) (v : Word)
  /-- RELEASE (R153): A write of RELEASE frees the named retention slots without replay. -/
  | release (req : Req) (h : Fin 32) (v : Word)
  /-- REPLAY_START (R153): The replay engine takes the next pending order in round robin, or completes it at once with NOT_HELD. -/
  | replayStart (wait : Nat) (t : Fin 8)
  /-- HYPOTHESIS_DONE (R155): A hypothesis replay and decode completes, and newly decoded codewords are written OK_RETRY. -/
  | hypothesisDone (wait : Nat) (t : Fin 8)
  /-- WRITE (R165): The write channel takes a WRITE descriptor and encodes the band. -/
  | write (wait : Nat) (h : Fin 32)
  /-- VERIFY (R184): The write channel takes a VERIFY descriptor that reads a written band against its references. -/
  | verify (wait : Nat) (h : Fin 32)
  /-- OPC (R177): The write channel takes an OPC descriptor that writes and reads back power-calibration units. -/
  | opc (wait : Nat) (h : Fin 32)
  /-- PCA_SCAN (R182): The write channel takes a PCA_SCAN descriptor that maps the used units of a PCA band. -/
  | pcaScan (wait : Nat) (h : Fin 32)
  /-- ARMED (R165): Frame positions 0 and 1 are encoded; STATE shows ARMED and the LASER commands are sent. -/
  | armed (wait : Nat) (h : Fin 32)
  /-- DESCRIPTOR_COMPLETE (R190): The write channel writes a completion record once verify or readback ends and the completion ring has room. -/
  | descriptorComplete (wait : Nat) (h : Fin 32)
  /-- ABORT (R188): A write of ABORT aborts the active descriptor with cause 8. -/
  | abort (req : Req) (h : Fin 32) (v : Word)
  /-- STRAT_GO (R174): A write of STRAT_GO requests loading one strategy entry into the head-end. -/
  | stratGo (req : Req) (h : Fin 32) (v : Word)
  /-- STRAT_LOAD_START (R174): The strategy load runs once no descriptor is busy, sending 16 STRAT_WRITE commands. -/
  | stratLoadStart (wait : Nat) (h : Fin 32)
  /-- LOOP_SAMPLE_DUE (R198): A TRIG = 0 loop sample falls due at its package time, with Landing sweeps and drive profile work at that instant. -/
  | loopSampleDue (wait : Nat) (h : Fin 32) (n : Fin 24)
  /-- LOOP_EVALUATION (R200): The loop engine evaluates a due sample of an ACTIVE loop and delivers its output. -/
  | loopEvaluation (wait : Nat) (h : Fin 32) (n : Fin 24)
  /-- LOOP_CLEAR (R196): A write of CLEAR zeroes a loop's state. -/
  | loopClear (req : Req) (h : Fin 32) (n : Fin 24) (v : Word)
  /-- LOOP_CLR_STATS (R213): A write of the loop's CLR_STATS clears its statistics record. -/
  | loopClrStats (req : Req) (h : Fin 32) (n : Fin 24) (v : Word)
  /-- HCMD_NOP (R219): HCMD NOP completes at once without report. -/
  | hcmdNop (req : Req) (h : Fin 32) (v : Word)
  /-- PARK (R219): HCMD PARK stops slot 1, turns loops and lasers off and requests a spindle stop. -/
  | park (req : Req) (h : Fin 32) (v : Word)
  /-- SPIN (R219): HCMD SPIN requests spin-up or a flying catch. -/
  | spin (req : Req) (h : Fin 32) (v : Word)
  /-- FOCUS_ON (R227): HCMD FOCUS_ON turns the lasers on and starts a focus sweep. -/
  | focusOn (req : Req) (h : Fin 32) (v : Word)
  /-- FOCUS_OFF (R219): HCMD FOCUS_OFF turns focus, loops and lasers off. -/
  | focusOff (req : Req) (h : Fin 32) (v : Word)
  /-- TRACK_ON (R232): HCMD TRACK_ON starts tracking on the band under the spot. -/
  | trackOn (req : Req) (h : Fin 32) (v : Word)
  /-- TRACK_OFF (R219): HCMD TRACK_OFF turns tracking off and returns the head to FOCUS. -/
  | trackOff (req : Req) (h : Fin 32) (v : Word)
  /-- SEEK (R232): HCMD SEEK runs layer jumps and a fine or coarse seek to the target band. -/
  | seek (req : Req) (h : Fin 32) (v : Word)
  /-- CLEAR_FAULT (R219): HCMD CLEAR_FAULT leaves FAULT for SAFE, or fails with FAULT_PRESENT. -/
  | clearFault (req : Req) (h : Fin 32) (v : Word)
  /-- HCMD_RESERVED (R219): A reserved HCMD code is refused with REFUSED_STATE. -/
  | hcmdReserved (req : Req) (h : Fin 32) (v : Word)
  /-- FOCUS_LOCK (R228): FLOCK_N consecutive good focus samples declare focus lock, enable the tilt loops and apply the selection. -/
  | focusLock (wait : Nat) (h : Fin 32)
  /-- FLOCK_TIMEOUT (R228): No focus lock within FLOCK_TO of capture fails the focus. -/
  | flockTimeout (wait : Nat) (h : Fin 32)
  /-- FOCUS_LOST (R228): FLOSS_N consecutive samples below FSUM_LOSS declare FOCUS_LOST. -/
  | focusLost (wait : Nat) (h : Fin 32)
  /-- SA_SETTLED (R229): Three consecutive SA samples in window let a layer jump proceed to its kick. -/
  | saSettled (wait : Nat) (h : Fin 32)
  /-- SA_TIMEOUT (R229): The corrector not settled within SA_TO fails the seek. -/
  | saTimeout (wait : Nat) (h : Fin 32)
  /-- KICK_END (R229): After KICK_T the Landing holds U0 while it waits for the layer crossing. -/
  | kickEnd (wait : Nat) (h : Fin 32)
  /-- BRAKE_END (R229): After BRAKE_T the Landing captures on the new layer. -/
  | brakeEnd (wait : Nat) (h : Fin 32)
  /-- JUMP_TIMEOUT (R229): No crossing within JUMP_TO ends the seek and acts as FOCUS_LOST. -/
  | jumpTimeout (wait : Nat) (h : Fin 32)
  /-- WEDGE_COMPLETE (R222): A wedge completes; it is coded, and a VALID wedge updates RHO, the band, ID words and TE. -/
  | wedgeComplete (wait : Nat) (h : Fin 32)
  /-- TRACKING_LOCK (R233): TLOCK_N consecutive good wedges on the target band declare tracking lock and READY. -/
  | trackingLock (wait : Nat) (h : Fin 32)
  /-- TRACK_LOST (R233): Two large-TE wedges or INV_N invalid wedges declare TRACK_LOST. -/
  | trackLost (wait : Nat) (h : Fin 32)
  /-- SETTLE_END (R232): After SETTLE_T the tracking loops are cleared and enabled for band identification. -/
  | settleEnd (wait : Nat) (h : Fin 32)
  /-- ID_TIMEOUT (R232): No even ID word within ID_TO ends the seek. -/
  | idTimeout (wait : Nat) (h : Fin 32)
  /-- TLOCK_TIMEOUT (R232): No tracking lock within TLOCK_TO ends the seek. -/
  | tlockTimeout (wait : Nat) (h : Fin 32)
  /-- HOLD_TIMEOUT (R234): A hold lasting HOLD_MAX is dropped. -/
  | holdTimeout (wait : Nat) (h : Fin 32)
  /-- ANGLE_FAULT (R240): No motor sample for MHOLD µs raises an angle fault in the spindle drive. -/
  | angleFault (wait : Nat) (h : Fin 32)
  /-- STOPPED_CONFIRM (R240): |W_m| below STOP_W for STOP_CONF ms sets STOPPED. -/
  | stoppedConfirm (wait : Nat) (h : Fin 32)
  /-- AT_SPEED (R246): AT_N consecutive samples within tolerance set AT_SPEED, and the head goes to FOCUS. -/
  | atSpeed (wait : Nat) (h : Fin 32)
  /-- SPIN_TIMEOUT (R246): AT_SPEED not reached within SPIN_TO sets SPIN_TIMEOUT. -/
  | spinTimeout (wait : Nat) (h : Fin 32)
  /-- VOLT_LIMITED (R243): Eight consecutive limited samples set VOLT_LIMITED. -/
  | voltLimited (wait : Nat) (h : Fin 32)
  /-- PROBE_SETTLE_END (R252): The settle ends and BRIDGE 2 shorts the windings, or the catch fails. -/
  | probeSettleEnd (wait : Nat) (h : Fin 32)
  /-- CATCH_TIMEOUT (R248): A catch not done within CATCH_TO fails. -/
  | catchTimeout (wait : Nat) (h : Fin 32)
  /-- ALIGN_RUN (R261): SCMD ALIGN_RUN drives the rotor to a fixed angle, or is refused. -/
  | alignRun (req : Req) (h : Fin 32) (v : Word)
  /-- ALIGN_DONE (R261): After ALIGN_T, ELEC_OFS_MEAS is recorded and the bridge turns off. -/
  | alignDone (wait : Nat) (h : Fin 32)
  /-- SCMD_NOP (R263): SCMD NOP does nothing. -/
  | scmdNop (req : Req) (h : Fin 32) (v : Word)
  /-- SCMD_RESERVED (R263): SCMD codes 2 to 7 are refused with SCMD_REFUSED. -/
  | scmdReserved (req : Req) (h : Fin 32) (v : Word)
  /-- OV_TRIP (R259): OV_N consecutive frames above the limit trip the overvoltage interlock, and the head goes to FAULT. -/
  | ovTrip (wait : Nat) (h : Fin 32)
  /-- OC_TRIP (R260): OC_N consecutive frames above OC_LIM trip the overcurrent interlock, and the head goes to FAULT. -/
  | ocTrip (wait : Nat) (h : Fin 32)
  /-- OV_PERSIST (R259): V_BUS at or above VB_OV for 1 ms after SAFE sets OV_PERSIST. -/
  | ovPersist (wait : Nat) (h : Fin 32)
  /-- CHOP_SILENT_LATCH (R258): 64 frames above VB_REGEN with the chopper silent set the CHOP_SILENT latch. -/
  | chopSilentLatch (wait : Nat) (h : Fin 32)
  /-- CHOP_SILENT (R258): A write of 1 to CHOP_SILENT clears the latch. -/
  | chopSilent (req : Req) (h : Fin 32) (v : Word)
  /-- STEP_TICK (R265): Each 1 µs tick advances each step generator's position, profile and phase outputs. -/
  | stepTick (wait : Nat) (h : Fin 32)
  /-- MOVE (R268): MCMD MOVE plans and runs a trapezoidal move. -/
  | move (req : Req) (h : Fin 32) (g : Fin 2) (v : Word)
  /-- MCMD_STOP (R271): MCMD STOP takes a ramped stop. -/
  | mcmdStop (req : Req) (h : Fin 32) (g : Fin 2) (v : Word)
  /-- HALT (R271): MCMD HALT takes a hard stop. -/
  | halt (req : Req) (h : Fin 32) (g : Fin 2) (v : Word)
  /-- HOME (R279): MCMD HOME starts the homing phases. -/
  | home (req : Req) (h : Fin 32) (g : Fin 2) (v : Word)
  /-- REBASE (R274): MCMD REBASE latches the origin from the next good frame. -/
  | rebase (req : Req) (h : Fin 32) (g : Fin 2) (v : Word)
  /-- MCMD_NOP (R272): MCMD NOP does nothing. -/
  | mcmdNop (req : Req) (h : Fin 32) (g : Fin 2) (v : Word)
  /-- MCMD_RESERVED (R272): Reserved MCMD codes are refused. -/
  | mcmdReserved (req : Req) (h : Fin 32) (g : Fin 2) (v : Word)
  /-- STALL (R276): STALL_N frames beyond STALL_WIN declare a stall, hard-stopping a move with STALL_STOP. -/
  | stall (wait : Nat) (h : Fin 32) (g : Fin 2)
  /-- LOST_STEP (R276): STALL_N frames beyond LOST_WIN declare a lost step. -/
  | lostStep (wait : Nat) (h : Fin 32) (g : Fin 2)
  /-- LIMIT_DEBOUNCE (R278): DB_N frames change a switch's debounced state, blocking motion or ending a homing phase. -/
  | limitDebounce (wait : Nat) (h : Fin 32) (g : Fin 2) (hi : Bool)
  /-- CHATTER (R278): CHAT_MAX raw changes without a debounced change set CHATTER. -/
  | chatter (wait : Nat) (h : Fin 32) (g : Fin 2) (hi : Bool)
  /-- HOLD_CURRENT (R266): HOLD_DELAY µs without motion reduces the phase current to I_HOLD. -/
  | holdCurrent (wait : Nat) (h : Fin 32) (g : Fin 2)
  /-- ARM (R285): A write of ARM arms a calibration job, or refuses it with BAD_JOB. -/
  | arm (req : Req) (h : Fin 32) (v : Word)
  /-- CANCEL (R285): A write of CANCEL ends the job CANCELLED and restores a saved reference. -/
  | cancel (req : Req) (h : Fin 32) (v : Word)
  /-- SPAN_START (R286): SETTLE_NS after a window open, the measurement span begins. -/
  | spanStart (wait : Nat) (h : Fin 32)
  /-- INTERP (R295): A write of INTERP requests an interpolation of the temperature sets. -/
  | interp (req : Req) (h : Fin 32) (v : Word)
  /-- AUTO_INTERP (R295): Each 1 ms with AUTO set, an interpolation starts if the temperature moved by T_STEP. -/
  | autoInterp (wait : Nat) (h : Fin 32)
  /-- INTERP_DONE (R295): An interpolation finishes and applies its values. -/
  | interpDone (wait : Nat) (h : Fin 32)
  /-- COMMIT (R298): A write of COMMIT writes the result buffer into a calibration slot. -/
  | commit (req : Req) (h : Fin 32) (v : Word)
  /-- COMMIT_DONE (R298): The slot's last word is written, and COMMIT_SEQ advances. -/
  | commitDone (wait : Nat) (h : Fin 32)
  /-- ERASE (R298): A write of ERASE marks a calibration slot not valid. -/
  | erase (req : Req) (h : Fin 32) (v : Word)
  /-- LOAD_INTERP (R297): A write of LOAD_INTERP copies the last applied values into the result buffer. -/
  | loadInterp (req : Req) (h : Fin 32) (v : Word)
  /-- LOAD_SLOT (R297): A write of LOAD_SLOT copies a slot into the result buffer. -/
  | loadSlot (req : Req) (h : Fin 32) (v : Word)
  /-- ONLINE (R305): Set command ONLINE leaves ASSEMBLING for good. -/
  | online (req : Req) (n : Fin 8) (v : Word)
  /-- ABSENT (R305): Set command ABSENT makes a member ABSENT, with DROP releasing open stripes. -/
  | absent (req : Req) (n : Fin 8) (v : Word)
  /-- PRESENT (R305): Set command PRESENT makes an ABSENT member PRESENT without rebuild. -/
  | present (req : Req) (n : Fin 8) (v : Word)
  /-- REBUILD_START (R322): Set command REBUILD_START puts an ABSENT member into REPLACING. -/
  | rebuildStart (req : Req) (n : Fin 8) (v : Word)
  /-- REBUILD_END (R305): Set command REBUILD_END makes a REPLACING member PRESENT. -/
  | rebuildEnd (req : Req) (n : Fin 8) (v : Word)
  /-- SUSPEND (R305): Set command SUSPEND sets the SUSPEND cause. -/
  | suspend (req : Req) (n : Fin 8) (v : Word)
  /-- RESUME (R305): Set command RESUME clears the SUSPEND cause. -/
  | resume (req : Req) (n : Fin 8) (v : Word)
  /-- SET_CMD_RESERVED (R305): A reserved set command is refused with BAD_MEMBER. -/
  | setCmdReserved (req : Req) (n : Fin 8) (v : Word)
  /-- COMPUTE (R310): A COMPUTE descriptor computes parity or solves members stripe by stripe. -/
  | compute (wait : Nat) (t : Fin 8)
  /-- PATROL (R325): A PATROL descriptor checks syndromes and reports mismatched stripes. -/
  | patrol (wait : Nat) (t : Fin 8)
  /-- OPEN (R327): An OPEN descriptor assigns a band its WSEQ block and writes the OPEN record. -/
  | openBand (wait : Nat) (t : Fin 8)
  /-- DELTA (R316): A DELTA descriptor journals logical-map deltas of stripes. -/
  | delta (wait : Nat) (t : Fin 8)
  /-- LAND (R327): A LAND descriptor derives a member's landed bits and relocation pairs from a completion record. -/
  | land (wait : Nat) (t : Fin 8)
  /-- VOID (R327): A VOID descriptor voids stripe ranges of an open band. -/
  | void (wait : Nat) (t : Fin 8)
  /-- REMAP (R318): A REMAP descriptor moves a member's codewords of a band to a fresh target band. -/
  | remap (wait : Nat) (t : Fin 8)
  /-- CKPT_SNAP (R321): A CKPT_SNAP descriptor writes the map as of WSEQ_AT into records. -/
  | ckptSnap (wait : Nat) (t : Fin 8)
  /-- CHECKPOINT (R321): A CHECKPOINT descriptor writes the CHECKPOINT record and advances JSTART. -/
  | checkpoint (wait : Nat) (t : Fin 8)
  /-- MAP_REPLAY (R321): A MAP_REPLAY descriptor loads a checkpoint and applies the later committed deltas. -/
  | mapReplay (wait : Nat) (t : Fin 8)
  /-- BOLT_TYPE_RESERVED (R327): A Bolt descriptor with a reserved TYPE is refused with BAD_TYPE. -/
  | boltTypeReserved (wait : Nat) (t : Fin 8)
  /-- STRIPE_COMMIT (R313): A stripe whose members are landed and whose deltas are durable gets map room and a COMMIT record. -/
  | stripeCommit (wait : Nat) (n : Fin 8)
  /-- JOURNAL_RECORD_DURABLE (R314): A journal record's header is written in the copies, which applies its map update and posts events. -/
  | journalRecordDurable (wait : Nat) (n : Fin 8)
  /-- PACE_WINDOW_END (R324): At the end of each PACE_WIN, RATE_NOW is recomputed from host utilisation. -/
  | paceWindowEnd (wait : Nat) (t : Fin 8)
  /-- CREDIT_ACCRUAL (R324): Each µs the background credit gains RATE_NOW bytes up to its cap. -/
  | creditAccrual (wait : Nat) (t : Fin 8)
  /-- FABRIC_FRAME_RECEIVE (R362): A fabric Ethernet frame is received into a lossless or lossy buffer, with PFC and CNP handling. -/
  | fabricFrameReceive (wait : Nat) (p : Fin 16) (f : FabricFrame)
  /-- FABRIC_LINK_UP (R361): A port's Ethernet link comes up. -/
  | fabricLinkUp (wait : Nat) (p : Fin 16)
  /-- FABRIC_LINK_DOWN (R364): A port's Ethernet link falls and LINK_DOWN is set. -/
  | fabricLinkDown (wait : Nat) (p : Fin 16)
  /-- PFC_STORM (R364): A lossless priority paused for 100 ms sets PFC_STORM. -/
  | pfcStorm (wait : Nat) (p : Fin 16)
  /-- RATE_RECOVERY (R362): Every 50 µs a queue pair's send rate recovers by RATE_STEP. -/
  | rateRecovery (wait : Nat) (p : Fin 16)
  /-- CONNECT (R333): A Fabrics Connect creates a controller or is rejected while PRDY_N is low. -/
  | connect (wait : Nat) (p : Fin 16) (q : Capsule)
  /-- PROPERTY_GET (R332): A Fabrics Property Get returns a controller property. -/
  | propertyGet (wait : Nat) (p : Fin 16) (q : Capsule)
  /-- PROPERTY_SET (R332): A Fabrics Property Set sets a controller property. -/
  | propertySet (wait : Nat) (p : Fin 16) (q : Capsule)
  /-- DISCONNECT (R332): A Fabrics Disconnect ends a queue pair. -/
  | disconnect (wait : Nat) (p : Fin 16) (q : Capsule)
  /-- GET_LOG_PAGE (R335): Get Log Page returns a supported log page. -/
  | getLogPage (wait : Nat) (p : Fin 16) (q : Capsule)
  /-- IDENTIFY (R334): Identify returns controller, namespace or ANA data, some built by firmware. -/
  | identify (wait : Nat) (p : Fin 16) (q : Capsule)
  /-- NVME_ABORT (R353): Abort aborts a named command if it has not reached its binding point. -/
  | nvmeAbort (wait : Nat) (p : Fin 16) (q : Capsule)
  /-- SET_FEATURES (R336): Set Features sets a supported feature. -/
  | setFeatures (wait : Nat) (p : Fin 16) (q : Capsule)
  /-- GET_FEATURES (R336): Get Features returns a supported feature. -/
  | getFeatures (wait : Nat) (p : Fin 16) (q : Capsule)
  /-- ASYNCHRONOUS_EVENT_REQUEST (R358): An Asynchronous Event Request waits for an event or takes a held one. -/
  | asynchronousEventRequest (wait : Nat) (p : Fin 16) (q : Capsule)
  /-- FIRMWARE_COMMIT (R334): Firmware Commit is passed to firmware to answer. -/
  | firmwareCommit (wait : Nat) (p : Fin 16) (q : Capsule)
  /-- FIRMWARE_IMAGE_DOWNLOAD (R334): Firmware Image Download is passed to firmware to answer. -/
  | firmwareImageDownload (wait : Nat) (p : Fin 16) (q : Capsule)
  /-- KEEP_ALIVE (R332): Keep Alive restarts the controller's keep-alive timer. -/
  | keepAlive (wait : Nat) (p : Fin 16) (q : Capsule)
  /-- FLUSH (R352): Flush inserts a rangeless lock entry and completes when earlier writes of its namespace have completed. -/
  | flush (wait : Nat) (p : Fin 16) (q : Capsule)
  /-- NVME_WRITE (R344): A Write is fetched, pulls its data into staging and requests a range lock. -/
  | nvmeWrite (wait : Nat) (p : Fin 16) (q : Capsule)
  /-- NVME_READ (R344): A Read is fetched and requests a range lock. -/
  | nvmeRead (wait : Nat) (p : Fin 16) (q : Capsule)
  /-- WRITE_ZEROES (R334): Write Zeroes appends zero blocks as a new version. -/
  | writeZeroes (wait : Nat) (p : Fin 16) (q : Capsule)
  /-- NVME_VERIFY (R339): Verify reads and checks the current version without transfer. -/
  | nvmeVerify (wait : Nat) (p : Fin 16) (q : Capsule)
  /-- READ_VERSION (R340): Read Version returns each block's committed version at or below WSEQ_MAX. -/
  | readVersion (wait : Nat) (p : Fin 16) (q : Capsule)
  /-- INVALID_OPCODE (R334): An unsupported opcode completes with Invalid Command Opcode. -/
  | invalidOpcode (wait : Nat) (p : Fin 16) (q : Capsule)
  /-- LOCK_GRANT (R350): A range lock is granted when no earlier overlapping entry remains. -/
  | lockGrant (wait : Nat) (p : Fin 16)
  /-- WRITE_DATA_STAGED (R344): A granted write's data is all in staging, and a WRITE entry is posted to firmware. -/
  | writeDataStaged (wait : Nat) (p : Fin 16)
  /-- BIND (R346): Firmware BIND binds a WRITE to its WSEQ range. -/
  | bind (req : Req) (t : Fin 8) (v : Word)
  /-- DATA_READY (R346): Firmware DATA_READY supplies the missing blocks of a READ_MISS for checking and transfer. -/
  | dataReady (req : Req) (t : Fin 8) (v : Word)
  /-- FAIL (R346): Firmware FAIL completes a READ_MISS or ADMIN with a status. -/
  | failEntry (req : Req) (t : Fin 8) (v : Word)
  /-- DONE (R346): Firmware DONE completes an ADMIN with success. -/
  | doneEntry (req : Req) (t : Fin 8) (v : Word)
  /-- WRITE_RESOLVED (R349): Every WSEQ of a bound range is resolved, and the write completes with success or Write Fault. -/
  | writeResolved (wait : Nat) (p : Fin 16)
  /-- READ_TRANSFER_DONE (R344): The last transfer of a read ends, or a failure ends it, and the read completes. -/
  | readTransferDone (wait : Nat) (p : Fin 16)
  /-- KATO_EXPIRED (R363): Keep-alive expiry acts as a port reset for that controller's commands. -/
  | katoExpired (wait : Nat) (p : Fin 16)
  /-- APST_TRANSITION (R360): After ITPT ms of idleness the controller moves to ITPS. -/
  | apstTransition (wait : Nat) (p : Fin 16)
  /-- PS_CURRENT_WRITE (R359): Firmware writes PS_CURRENT after carrying out a power-state change. -/
  | psCurrentWrite (req : Req) (v : Word)
  /-- CE_LEAK (R379): Each ms each correctable-error bucket leaks CE_LEAK. -/
  | ceLeak (wait : Nat) (t : Fin 8)
  /-- CE_OVF_CLEAR (R379): A write of 1 to CE_OVF clears that kind's bucket. -/
  | ceOvfClear (req : Req) (t : Fin 8) (v : Word)
  /-- LOG_CLR (R378): A write of LOG_CLR clears correctable-error log entries. -/
  | logClr (req : Req) (t : Fin 8) (v : Word)
  /-- DMA_GO (R387): A write of GO starts a DMA channel's chain from HEAD. -/
  | dmaGo (req : Req) (t : Fin 8) (c : Fin 8) (v : Word)
  /-- DMA_STOP (R391): A write of STOP halts a channel with STOPPED at the next block or line. -/
  | dmaStop (req : Req) (t : Fin 8) (c : Fin 8) (v : Word)
  /-- DMA_TRANSFER (R388): A DMA channel moves one block or line in its turn, or halts at a failure. -/
  | dmaTransfer (wait : Nat) (t : Fin 8)
  /-- REPAIR_ADD (R384): A write of REPAIR_ADD adds an entry to the soft repair list. -/
  | repairAdd (req : Req) (t : Fin 8) (v : Word)
  /-- REPAIR_DEL (R384): A write of REPAIR_DEL removes an entry from the soft repair list. -/
  | repairDel (req : Req) (t : Fin 8) (v : Word)
  /-- INSTRUCTION_FETCH (R394): A core fetches an instruction, with a cache lookup or fault. -/
  | instructionFetch (wait : Nat) (t : Fin 8) (c : Fin 2) (a : Fetch)
  /-- CORE_LOAD (R394): A core load reads memory, with precise faults. -/
  | coreLoad (wait : Nat) (t : Fin 8) (c : Fin 2) (a : CoreAccess)
  /-- CORE_STORE (R399): A core store updates a hit line and enters the write buffer. -/
  | coreStore (wait : Nat) (t : Fin 8) (c : Fin 2) (a : CoreAccess)
  /-- AMO (R393): An LR/SC or AMO instruction runs in an allowed region or faults. -/
  | amo (wait : Nat) (t : Fin 8) (c : Fin 2) (op : AmoOp) (a : CoreAccess)
  /-- FENCE (R399): FENCE drains the write buffer. -/
  | fence (wait : Nat) (t : Fin 8) (c : Fin 2)
  /-- FENCE_I (R403): FENCE.I drains the buffer and invalidates the instruction cache. -/
  | fenceI (wait : Nat) (t : Fin 8) (c : Fin 2)
  /-- CACHE_FILL (R402): A cache miss fill completes and the line is installed. -/
  | cacheFill (wait : Nat) (t : Fin 8) (c : Fin 2) (k : Fin 2)
  /-- PREFETCH_FILL (R401): A prefetch of the next line completes into the side buffer. -/
  | prefetchFill (wait : Nat) (t : Fin 8) (c : Fin 2) (k : Fin 2)
  /-- STORE_DRAIN (R399): A buffered store drains to memory, and a failure sets BUS_ERR. -/
  | storeDrain (wait : Nat) (t : Fin 8) (c : Fin 2)
  /-- TIMER_INTERRUPT (R396): time reaching MTIMECMP raises the core's machine timer interrupt. -/
  | timerInterrupt (wait : Nat) (t : Fin 8) (c : Fin 2)
  /-- DB_SET (R397): A write of DB_SET ORs bits into a core's doorbell. -/
  | dbSet (req : Req) (t : Fin 8) (c : Fin 2) (v : Word)
  /-- INV_GO (R405): A write of INV_GO invalidates every cache line in the range. -/
  | invGo (req : Req) (t : Fin 8) (c : Fin 2) (k : Fin 2) (v : Word)
  /-- LL_GO (R404): A write of LL_GO lock-loads the range into a locked way. -/
  | llGo (req : Req) (t : Fin 8) (c : Fin 2) (k : Fin 2) (v : Word)
  /-- LL_DONE (R404): A lock-load's fetches finish and LL_DONE is set. -/
  | llDone (wait : Nat) (t : Fin 8) (c : Fin 2) (k : Fin 2)
  /-- CACHE_EN_WRITE (R406): A write of CACHE_EN = 0 drains the buffer and invalidates and disables the cache. -/
  | cacheEnWrite (req : Req) (t : Fin 8) (c : Fin 2) (k : Fin 2) (v : Word)
  /-- FLASH_READ (R436): Flash operation READ copies flash bytes into the stack buffer. -/
  | flashRead (req : Req) (f : Fin 2) (v : Word)
  /-- FLASH_PROGRAM (R436): Flash operation PROGRAM programs pages from the buffer. -/
  | flashProgram (req : Req) (f : Fin 2) (v : Word)
  /-- FLASH_ERASE (R436): Flash operation ERASE erases 64 KiB blocks. -/
  | flashErase (req : Req) (f : Fin 2) (v : Word)
  /-- FLASH_VERIFY (R436): Flash operation VERIFY checks a slot without loading it. -/
  | flashVerify (req : Req) (f : Fin 2) (v : Word)
  /-- FLASH_OP_COMPLETE (R436): A flash operation finishes and reports FL_STATUS. -/
  | flashOpComplete (wait : Nat) (f : Fin 2) (ok : Bool)
  /-- FLASH_TIMEOUT (R493): A flash operation not done within 5 s gives FLASH_ERR. -/
  | flashTimeout (wait : Nat) (f : Fin 2)
  /-- ADD (R423): Key update ADD writes a Selvedge key slot record. -/
  | add (req : Req) (v : Word)
  /-- REMOVE (R423): Key update REMOVE clears a Selvedge key slot record. -/
  | remove (req : Req) (v : Word)
  /-- REVOKE_FUSE (R423): Key update REVOKE_FUSE blows a fuse slot's revocation fuse. -/
  | revokeFuse (req : Req) (v : Word)
  /-- BR_ACK_WRITE (R427): A write of BR_ACK acknowledges entries, resuming a held boot, or is refused. -/
  | brAckWrite (req : Req) (v : Word)
  /-- MIN_SEQ_WRITE (R422): A write of MIN_SEQ raises the anti-rollback floor, or is refused. -/
  | minSeqWrite (req : Req) (hi : Bool) (v : Word)
  /-- ACTIVE_SLOT_WRITE (R436): A write of ACTIVE_SLOT selects the slot for the next boot. -/
  | activeSlotWrite (req : Req) (v : Word)
  /-- GET_VERSION (R428): SPDM GET_VERSION is answered. -/
  | getVersion (wait : Nat)
  /-- GET_CAPABILITIES (R428): SPDM GET_CAPABILITIES is answered. -/
  | getCapabilities (wait : Nat)
  /-- NEGOTIATE_ALGORITHMS (R428): SPDM NEGOTIATE_ALGORITHMS offers ECDSA P-384 and SHA-384. -/
  | negotiateAlgorithms (wait : Nat) (p384 : Bool) (sha384 : Bool)
  /-- GET_DIGESTS (R428): SPDM GET_DIGESTS returns slot 0's digest. -/
  | getDigests (wait : Nat)
  /-- GET_CERTIFICATE (R428): SPDM GET_CERTIFICATE returns slot 0's chain. -/
  | getCertificate (wait : Nat) (slot : Nat) (offset : Nat) (length : Nat)
  /-- CHALLENGE (R428): SPDM CHALLENGE is answered with a signed response. -/
  | challenge (wait : Nat) (slot : Nat) (nonce : BitVec 256)
  /-- GET_MEASUREMENTS (R428): SPDM GET_MEASUREMENTS returns the boot's digests. -/
  | getMeasurements (wait : Nat) (index : Nat) (signed : Bool) (nonce : BitVec 256)
  /-- VENDOR_DEFINED_REQUEST (R428): An SPDM vendor request returns a boot record entry or NOT_HELD. -/
  | vendorDefinedRequest (wait : Nat) (registry : Nat) (vendor : Nat) (payload : List Byte)
  /-- SMBUS_READ (R492): An SMBus READ request reads consecutive register words. -/
  | smbusRead (wait : Nat) (m : SmbHead) (n : Nat)
  /-- SMBUS_WRITE (R492): An SMBus WRITE request writes consecutive register words, or is refused. -/
  | smbusWrite (wait : Nat) (m : SmbHead) (v : List Word)
  /-- ALERT_RESPONSE (R491): The device answers the SMBus Alert Response Address with its own address. -/
  | alertResponse (wait : Nat)
  /-- SMBUS_CLOCK_TIMEOUT (R491): SMB_SCL held low for 35 ms makes the device release the bus. -/
  | smbusClockTimeout (wait : Nat) (low : Nat)
  /-- LEASE_RENEWAL (R441): Each ms the holder sends a lease flit on V0. -/
  | leaseRenewal (wait : Nat) (w : Fin 2)
  /-- LEASE_FLIT (R441): A lease flit is accepted and acknowledged, or treated as a claim. -/
  | leaseFlit (wait : Nat) (w : Fin 2)
  /-- RENEW_LATE (R441): A renewal older than 2 ms sets RENEW_LATE. -/
  | renewLate (wait : Nat) (w : Fin 2)
  /-- LEASE_EXPIRY (R442): The standby's lease invalid for 10 ms lets it take the lease if a bridge is up. -/
  | leaseExpiry (wait : Nat) (w : Fin 2)
  /-- HANDOVER (R443): AUTH_CMD HANDOVER passes the lease to the other wing. -/
  | handover (req : Req) (v : Word)
  /-- HANDOVER_FLIT (R443): The receiving copy persists the new EPOCH and becomes holder. -/
  | handoverFlit (wait : Nat) (w : Fin 2)
  /-- CLAIM (R446): AUTH_CMD CLAIM takes the lease in a split wing. -/
  | claim (req : Req) (v : Word)
  /-- UNFREEZE (R450): AUTH_CMD UNFREEZE clears FROZEN. -/
  | unfreeze (req : Req) (v : Word)
  /-- AUTH_NOP (R459): AUTH_CMD NOP does nothing. -/
  | authNop (req : Req) (v : Word)
  /-- AUTH_RESERVED (R459): AUTH_CMD codes 4 to 7 are refused with BAD_CMD. -/
  | authReserved (req : Req) (v : Word)
  /-- WARP_FLIT_RECEIVE (R21): A Warp flit is received and checked, and a bad CRC triggers a replay. -/
  | warpFlitReceive (wait : Nat) (t : Fin 8) (k : Fin 3) (rx : RxFlit)
  /-- WARP_LINK_DOWN (R24): A Warp link is declared down and traffic reroutes. -/
  | warpLinkDown (wait : Nat) (t : Fin 8) (k : Fin 3) (lost : Nat)
  /-- WARP_LINK_UP (R22): A Warp link comes up. -/
  | warpLinkUp (wait : Nat) (t : Fin 8) (k : Fin 3)
  /-- REJOIN_COMPLETE (R447): Mirror copies and reconciliation finish, and SPLIT clears. -/
  | rejoinComplete (wait : Nat)
  /-- SENSOR_SAMPLE (R461): Every 100 µs the junction sensors are sampled and cross-checked. -/
  | sensorSample (wait : Nat) (t : Fin 8) (v : List Int)
  /-- SENSOR_EXCLUDE (R462): XCHK_N samples out of margin exclude a sensor. -/
  | sensorExclude (wait : Nat) (t : Fin 8)
  /-- SENSOR_READMIT (R462): XCHK_N samples within half margin readmit a sensor. -/
  | sensorReadmit (wait : Nat) (t : Fin 8)
  /-- STACK_TEMP_READ (R461): Every 1 ms the stack temperature is read. -/
  | stackTempRead (wait : Nat) (t : Fin 8) (v : Int)
  /-- THERMAL_TRIP (R463): Two samples at 115 °C trip the tile and order SAFE. -/
  | thermalTrip (wait : Nat) (t : Fin 8)
  /-- HEAVY_POWER_OFF (R463): 5 µs after a trip the heavy blocks are powered off. -/
  | heavyPowerOff (wait : Nat) (t : Fin 8)
  /-- THERMAL_RESTART (R464): 1 000 samples below 95 °C restart the tile by a tile reset. -/
  | thermalRestart (wait : Nat) (t : Fin 8)
  /-- TRIP_RESUME (R464): A write of RESUME clears TRIPPED. -/
  | tripResume (req : Req) (t : Fin 8) (v : Word)
  /-- THROTTLE_EVALUATION (R466): Every STEP_T ms the throttle level, thermal cap step and power cap step are updated. -/
  | throttleEvaluation (wait : Nat) (t : Fin 8)
  /-- REGISTER_WRITE (R498): A write to a register with no row of its own stores or clears its fields. -/
  | registerWrite (req : Req) (a : Nat) (v : Word)
  /-- UNMAPPED_ACCESS (R5): An access to an address that holds no register completes without effect. -/
  | unmappedAccess (req : Req) (a : Nat) (v : Option Word)
  /-- RESET_ACCESS (R505): An access to a block held in reset completes at once without effect. -/
  | resetAccess (req : Req) (a : Nat) (v : Option Word)
  /-- TAW_DATA_READ (R510): A read of DATA reads a table or Selvedge word. -/
  | tawDataRead (req : Req) (t : Fin 8)
  /-- TAW_DATA_WRITE (R510): A write of DATA writes a table word, or is refused. -/
  | tawDataWrite (req : Req) (t : Fin 8) (v : Word)
  /-- PWRFAIL_N_RISE (R472): PWRFAIL_N returns high before power is lost, so SAFE cause 3 clears while every head stays in SAFE and the power-failure episode continues. -/
  | pwrfailNRise (wait : Nat)
  /-- SYSCLK_RETURN (R496): SYSCLK returns after a stop, the PLLs lock again and the package, held in reset, starts a cold boot. -/
  | sysclkReturn (wait : Nat)
  /-- SLEW_END (R38): After 16 × |e| CORE cycles of slewing, the tile's time counter returns to adding 10/16 ns per cycle. -/
  | slewEnd (t : Fin 8)
  /-- TIME_HOLD_END (R38): A tile that holds its time counter resumes counting once its offset has come within 1 ns. -/
  | timeHoldEnd (t : Fin 8)
  /-- BOLT_DESCRIPTOR_COMPLETE (R328): The Bolt engine finishes the stripes of a COMPUTE or PATROL descriptor, writes its per-stripe statuses and completion, and takes the next descriptor. -/
  | boltDescriptorComplete (wait : Nat) (t : Fin 8)
  /-- LOWER_WORD_READ (R31): A read of the lower word of a 64-bit register value captures the upper word into a shadow for that requester. -/
  | lowerWordRead (req : Req) (a : Nat)
deriving DecidableEq, Repr

end Sys2Proof
end

