-- ==== Sys2Proof/Decode.lean ====
section
/-! DEFINITION. The command a table word spells. No row of the opcode table gives any bits, so no word spells one:
commands reach the block as events and register accesses, never as encoded words. -/

namespace Sys2Proof

/-- The command that the low `nbits` bits of `w` spell by the opcode table: none, since no row has bits. -/
def decodeTableWord (_nbits _w : Nat) : Option Instr := none

end Sys2Proof
end

