-- ==== Sys2Proof/Machine/Checks.lean ====
section
/-! DEFINITION. The check sums of the spec: CRC-32C (R69), fed with the bits of a number in order of increasing index
or with a list of bytes, and the CRC-16 of a cache line (R374). -/

namespace Sys2Proof.Machine

/-- One bit of CRC-32C: polynomial 0x1EDC_6F41, reflected (R69). -/
def crcStep (c : Nat) (b : Bool) : Nat := if (c % 2 == 1) != b then c / 2 ^^^ 0x82F63B78 else c / 2

/-- The low `n` bits of `w` are fed, the lowest first. -/
def crcFeed : Nat → Nat → Nat → Nat
  | 0, _, c => c
  | n + 1, w, c => crcFeed n (w / 2) (crcStep c (w % 2 == 1))

/-- CRC-32C of the low `n` bits of `w` (R69). -/
def crc32cBits (n w : Nat) : Nat := crcFeed n w 0xFFFFFFFF ^^^ 0xFFFFFFFF

/-- CRC-32C of a list of bytes, each lowest bit first (R69). -/
def crc32c (l : List Byte) : Nat := l.foldl (fun c b => crcFeed 8 b.toNat c) 0xFFFFFFFF ^^^ 0xFFFFFFFF

/-- One bit of the CRC-16 of R374, most significant bit first. -/
def crc16Step (c : Nat) (b : Bool) : Nat :=
  if (decide (0x8000 ≤ c)) != b then (c * 2 % 2 ^ 16) ^^^ 0x1021 else c * 2 % 2 ^ 16

/-- The CRC-16 of a list of bytes (R374). -/
def crc16 (l : List Byte) : Nat :=
  l.foldl (fun c b => [7, 6, 5, 4, 3, 2, 1, 0].foldl (fun c k => crc16Step c (b.toNat.testBit k)) c) 0xFFFF

end Sys2Proof.Machine
end

