-- ==== Sys2Proof/Machine/Damask.lean ====
section
/-! DEFINITION. The geometry of a disc: bands and zones (R96, R97), code strengths (R103), and the Gray code and checks
of the servo ID words (R101). -/

namespace Sys2Proof.Machine

/-- The extended band index of a band value (R96). -/
def extendedOf (v : Nat) : Int := if 7904 ≤ v then (v : Int) - 8192 else v

/-- The band value of an extended band index: e mod 8 192 (R96). -/
def bandValue (e : Int) : Nat := (e % 8192).toNat

/-- A band value of the user area (R96). -/
def isUserBand (v : Nat) : Bool := decide (v < 4948)

/-- A band value of the system bands (R96). -/
def isSystemBand (v : Nat) : Bool := decide (8000 ≤ v ∧ v ≤ 8191)

/-- A band value of the power calibration area (R96). -/
def isPcaBand (v : Nat) : Bool := decide (7904 ≤ v ∧ v ≤ 7991)

/-- First band of zone `z` (R97). -/
def zoneFirst (z : Nat) : Nat := if z ≤ 12 then 309 * z else 3708 + 310 * (z - 12)

/-- The zone of a user band: zones 0 to 11 hold 309 bands, 12 to 15 hold 310 (R97). -/
def zoneOfBand (v : Nat) : Nat := if v < 3708 then v / 309 else min 15 (12 + (v - 3708) / 310)

/-- The zone of a band, 0 outside the user area (R231). -/
def zoneOrZero (v : Nat) : Nat := if isUserBand v then zoneOfBand v else 0

/-- The region of a band in a table of 17 regions: 16 outside the user area (R230). -/
def regionOfBand (v : Nat) : Nat := if isUserBand v then zoneOfBand v else 16

/-- K_z of zone `z` (R97). -/
def zoneK (z : Nat) : Nat :=
  [236, 261, 286, 311, 336, 361, 385, 410, 435, 460, 485, 510, 535, 560, 585, 610].getD z 216

/-- K of a region: K_z of a zone, 216 of the system and PCA bands (R97). -/
def regionK (region : Nat) : Nat := if region < 16 then zoneK region else 216

/-- Parity bytes of a strength (R103). -/
def strengthParity (t : Nat) : Nat := 2048 * (t + 1)

/-- Codeword bytes of a strength (R103). -/
def codewordBytes (t : Nat) : Nat := 32832 + strengthParity t

/-- Words N of a strength: 32-bit words of the codeword (R103). -/
def codewordWords (t : Nat) : Nat := codewordBytes t / 4

/-- Modulated bits M of a strength (R103). -/
def modulatedBits (t : Nat) : Nat := 33 * codewordWords t

/-- Resync marks R of a strength (R103). -/
def resyncs (t : Nat) : Nat := (modulatedBits t - 1) / 8192

/-- Frame length L of a strength (R103). -/
def frameLength (t : Nat) : Nat := 384 + 64 + modulatedBits t + 32 * resyncs t + 32

/-- D_z: bits of a track's data stream (R102). -/
def streamBits (k : Nat) : Nat := 256 * (63 * k - 64)

/-- F: sector frames of a track (R102). -/
def framesPerTrack (k t : Nat) : Nat := streamBits k / frameLength t

/-- Angle of bit `d` of a track's data stream, in 1/K of a count times K: numerator over `k` (R102). -/
def streamAngleNum (k d : Nat) : Nat :=
  let w := d / (63 * k - 64)
  let u := d % (63 * k - 64)
  (w * 65536 + 1024) * k + (64 + u) * 1024

/-- The value whose Gray code is `g`, over 13 bits (R101). -/
def grayDecode (g : Nat) : Nat :=
  let a := g % 8192
  let a := a ^^^ (a >>> 1)
  let a := a ^^^ (a >>> 2)
  let a := a ^^^ (a >>> 4)
  a ^^^ (a >>> 8)

/-- Ones among the low `n` bits. -/
def onesIn (x : Nat) : Nat → Nat
  | 0 => 0
  | n + 1 => onesIn x n + (x >>> n) % 2

/-- The checks of an ID word (R101, R225): even parity, bit 13 zero, and bit 14 one in an even word and zero in an odd
one. -/
def idWordOk (odd : Bool) (v : Nat) : Bool :=
  onesIn v 16 % 2 == 0 && (v >>> 13) % 2 == 0 && (v >>> 14) % 2 == (if odd then 0 else 1)

end Sys2Proof.Machine
end

