-- ==== Sys2Proof/Machine/Codec.lean ====
section
/-! DEFINITION. From a sector's information part to channel bits and back: sector header and PSA (R109 to R112), LDPC
code (R141, R142), scrambler (R106), modulation (R107), twill interleave (R108) and the layout of a track's stream
(R102 to R104). -/

namespace Sys2Proof.Machine

/-! ### Physical sector address and header -/

/-- A physical sector address (R111). -/
def psaOf (layer zone band track sector : Nat) : Nat :=
  sector + track * 2 ^ 6 + band * 2 ^ 11 + zone * 2 ^ 24 + layer * 2 ^ 28

/-- SECTOR of a PSA. -/
def psaSector (p : Nat) : Nat := bitsOf p 5 0
/-- TRACK of a PSA. -/
def psaTrack (p : Nat) : Nat := bitsOf p 10 6
/-- BAND of a PSA. -/
def psaBand (p : Nat) : Nat := bitsOf p 23 11
/-- ZONE of a PSA. -/
def psaZone (p : Nat) : Nat := bitsOf p 27 24
/-- LAYER of a PSA. -/
def psaLayer (p : Nat) : Nat := bitsOf p 31 28

/-- A PSA is valid (R112): `strength` gives the code strength of a user band's layer and zone. -/
def psaValid (layers : Nat) (strength : Nat → Nat → Nat) (p : Nat) : Bool :=
  let b := psaBand p
  let user := isUserBand b
  let t := if user then strength (psaLayer p) (psaZone p) else 3
  decide (p < 2 ^ 32) && (user || isSystemBand b) && decide (psaZone p = zoneOrZero b)
    && decide (psaSector p < framesPerTrack (if user then zoneK (psaZone p) else 216) t)
    && decide (psaLayer p < layers)

/-- `n` bytes of an information part from byte `k`, as a number. -/
def infoField (l : List Byte) (k n : Nat) : Nat := ((l.drop k).take n).foldr (fun b v => b.toNat + 256 * v) 0

/-- Bytes of a list are replaced from place `k` on. -/
def putBytes (l : List Byte) (k : Nat) (v : List Byte) : List Byte := l.take k ++ v ++ l.drop (k + v.length)

/-- The low `n` bytes of a number, lowest first. -/
def bytesOf : Nat → Nat → List Byte
  | 0, _ => []
  | n + 1, v => BitVec.ofNat 8 v :: bytesOf n (v / 256)

/-- A sector header without PSA, STRENGTH and HCRC (R109). -/
def headerBytes (stype valid member setTag wseq : Nat) (lbns : List Nat) : List Byte :=
  bytesOf 1 stype ++ bytesOf 1 1 ++ bytesOf 1 valid ++ bytesOf 6 0 ++ bytesOf 1 member ++ bytesOf 4 setTag
    ++ bytesOf 5 wseq ++ bytesOf 1 0 ++ lbns.flatMap (bytesOf 5) ++ bytesOf 4 0

/-- The eight LBNs of a sector that holds no block. -/
def noLbns : List Nat := List.replicate 8 0xFFFFFFFFFF

/-- The information part of a padding sector (R110, R165). -/
def paddingInfo (member setTag wseq : Nat) : List Byte :=
  headerBytes 4 0 member setTag wseq noLbns ++ List.replicate 32768 0

/-- The information part with PSA, STRENGTH and HCRC written into its header (R165). -/
def sealInfo (psa strength : Nat) (l : List Byte) : List Byte :=
  let b3 := infoField l 3 1
  let l := putBytes l 3 (bytesOf 1 (b3 / 4 * 4 + strength))
  let l := putBytes l 4 (bytesOf 5 psa)
  putBytes l 60 (bytesOf 4 (crc32c (l.take 60)))

/-! ### LDPC code -/

/-- m_b of a strength (R141). -/
def blockRows (t : Nat) : Nat := 32 * (t + 1)

/-- Row of circulant `i` of information column `c` (R141). -/
def circRow (mb c i : Nat) : Nat := (c + i * (1 + (5 * (c / mb) + c) % (mb / 2 - 1))) % mb

/-- Shift of circulant `i` of information column `c` (R141). -/
def circShift (mb c i : Nat) : Nat := (37 * (2 * i + 3) * c + 101 * i + 13 * (c / mb)) % 512

/-- A list of bytes as bits, the lowest bit of each byte first (R105). -/
def bitsOfBytes (l : List Byte) : List Bool :=
  l.flatMap fun b => [0, 1, 2, 3, 4, 5, 6, 7].map fun k => b.toNat.testBit k

/-- A list of bits, the first the lowest of its byte, as bytes. -/
def bytesOfBits : List Bool → List Byte
  | a :: b :: c :: d :: e :: f :: g :: h :: l =>
    BitVec.ofNat 8 (flagNat a + 2 * flagNat b + 4 * flagNat c + 8 * flagNat d + 16 * flagNat e + 32 * flagNat f
      + 64 * flagNat g + 128 * flagNat h) :: bytesOfBits l
  | _ => []

/-- Block column `c` of a word held as a number: codeword bits 512c to 512c + 511. -/
def blockColumn (w c : Nat) : BitVec 512 := BitVec.ofNat 512 (w >>> (512 * c))

/-- λ_r: the sums of block row `r` over the information circulants (R142). -/
def lambda (t w r : Nat) : BitVec 512 :=
  let mb := blockRows t
  (List.range 513).foldl (fun v c => [0, 1, 2].foldl (fun v i =>
    if circRow mb c i = r then v ^^^ (blockColumn w c).rotateRight (circShift mb c i) else v) v) 0

/-- The parity blocks from block `j` on, after block `j - 1` (R142). -/
def parityFrom (t w : Nat) : Nat → Nat → BitVec 512 → List (BitVec 512)
  | 0, _, _ => []
  | n + 1, j, prev => let p := lambda t w j ^^^ prev; p :: parityFrom t w n (j + 1) p

/-- The parity of an information part given as a number: bit i is codeword bit i (R142). -/
def parityOf (t w : Nat) : List (BitVec 512) := parityFrom t w (blockRows t) 0 0

/-- The codeword bits of an information part (R105, R142). -/
def codewordBits (t : Nat) (info : List Byte) : List Bool :=
  let w := infoField info 0 32832
  bitsOfBytes info ++ (parityOf t w).flatMap fun p => (List.range 512).map fun i => p.toNat.testBit i

/-- A word is a codeword: H times it is 0 (R141). -/
def isCodeword (t : Nat) (bits : List Bool) : Bool :=
  bits == codewordBits t (bytesOfBits (bits.take 262656))

/-! ### Scrambling and modulation -/

/-- One step of the scrambler's register (R106): its output bit and the next value. -/
def scrambleStep (s : Nat) : Bool × Nat :=
  let o := s.testBit 22 != s.testBit 17
  (o, (s * 2 + flagNat o) % 2 ^ 23)

/-- `n` output bits of the scrambler from register value `s` (R106). -/
def scrambleOut : Nat → Nat → List Bool
  | 0, _ => []
  | n + 1, s => let (o, s') := scrambleStep s; o :: scrambleOut n s'

/-- The register's start for a seed value: XOR 0x55_5555, and 0 becomes 1 (R106, R178). -/
def scrambleSeed (v : Nat) : Nat :=
  let x := (v % 2 ^ 23) ^^^ 0x555555
  if x = 0 then 1 else x

/-- Codeword bits scrambled or unscrambled under a PSA (R106). -/
def scramble (psa : Nat) (l : List Bool) : List Bool :=
  (l.zip (scrambleOut l.length (scrambleSeed psa))).map fun p => p.1 != p.2

/-- The 33 channel bits of a word of 32 (R107). -/
def modulate (e : List Bool) : List Bool := e.take 16 ++ [!(e.getD 15 false)] ++ e.drop 16

/-- A list of bits in words of 32. -/
def wordsOf : Nat → List Bool → List (List Bool)
  | 0, _ => []
  | n + 1, l => l.take 32 :: wordsOf n (l.drop 32)

/-! ### Interleave and frames -/

/-- Word position `m` of track `q` of a group carries word `i` of codeword `a`: (a, i) (R108). -/
def twillWord (t q m : Nat) : Nat × Nat :=
  let n := codewordWords t
  let a := m % 4
  let k := (m / 4 + n / 4 - q * (n / 16) % (n / 4)) % (n / 4)
  (a, 4 * k + (q + 4 - a) % 4)

/-- Track place and word position of word `i` of codeword `a`: (q, m) (R108). -/
def twillPlace (t a i : Nat) : Nat × Nat :=
  let n := codewordWords t
  let q := (i + a) % 4
  (q, 4 * ((i / 4 + q * (n / 16)) % (n / 4)) + a)

/-- Bit `i` of the preamble pattern 1, 1, 0, 0 (R104). -/
def preambleBit (i : Nat) : Bool := decide (i % 4 < 2)

/-- Bit `i` of the sync mark, most significant first (R104). -/
def syncBit (i : Nat) : Bool := (0xFFFF0000FF0F00F0).testBit (63 - i)

/-- Bit `i` of a resync mark, most significant first (R104). -/
def resyncBit (i : Nat) : Bool := (0xFF000FF0).testBit (31 - i)

/-- What channel bit `x` of a sector frame is (R103). -/
inductive FrameBit where
  | preamble (i : Nat)
  | sync (i : Nat)
  | data (d : Nat)
  | resync (j i : Nat)
  | postamble (i : Nat)
deriving DecidableEq, Repr

/-- The field that bit `x` of a frame of strength `t` belongs to (R103). -/
def frameBitAt (t x : Nat) : FrameBit :=
  if x < 384 then .preamble x
  else if x < 448 then .sync (x - 384)
  else
    let y := x - 448
    let j := y / 8224
    if j < resyncs t ∧ 8192 ≤ y % 8224 then .resync (j + 1) (y % 8224 - 8192)
    else
      let d := y - 32 * min j (resyncs t)
      if d < modulatedBits t then .data d else .postamble (d - modulatedBits t)

/-- The channel bits of each of a codeword's words (R106, R107). -/
def channelWords (t psa : Nat) (info : List Byte) : Array (List Bool) :=
  ((wordsOf (codewordWords t) (scramble psa (codewordBits t info))).map modulate).toArray

end Sys2Proof.Machine
end

