-- ==== Sys2Proof/Machine/Sha.lean ====
section
/-! DEFINITION. The two algorithms that the spec takes from outside (PRESUMED, FIPS 180-4 and FIPS 186-5): SHA-384, and
the check of an ECDSA P-384 signature (R416, R421, R424). -/

namespace Sys2Proof.Machine

/-! ### SHA-384 -/

/-- The round constants of SHA-384. -/
def shaK : List (BitVec 64) :=
  [0x428a2f98d728ae22, 0x7137449123ef65cd, 0xb5c0fbcfec4d3b2f, 0xe9b5dba58189dbbc]
  ++ [0x3956c25bf348b538, 0x59f111f1b605d019, 0x923f82a4af194f9b, 0xab1c5ed5da6d8118]
  ++ [0xd807aa98a3030242, 0x12835b0145706fbe, 0x243185be4ee4b28c, 0x550c7dc3d5ffb4e2]
  ++ [0x72be5d74f27b896f, 0x80deb1fe3b1696b1, 0x9bdc06a725c71235, 0xc19bf174cf692694]
  ++ [0xe49b69c19ef14ad2, 0xefbe4786384f25e3, 0x0fc19dc68b8cd5b5, 0x240ca1cc77ac9c65]
  ++ [0x2de92c6f592b0275, 0x4a7484aa6ea6e483, 0x5cb0a9dcbd41fbd4, 0x76f988da831153b5]
  ++ [0x983e5152ee66dfab, 0xa831c66d2db43210, 0xb00327c898fb213f, 0xbf597fc7beef0ee4]
  ++ [0xc6e00bf33da88fc2, 0xd5a79147930aa725, 0x06ca6351e003826f, 0x142929670a0e6e70]
  ++ [0x27b70a8546d22ffc, 0x2e1b21385c26c926, 0x4d2c6dfc5ac42aed, 0x53380d139d95b3df]
  ++ [0x650a73548baf63de, 0x766a0abb3c77b2a8, 0x81c2c92e47edaee6, 0x92722c851482353b]
  ++ [0xa2bfe8a14cf10364, 0xa81a664bbc423001, 0xc24b8b70d0f89791, 0xc76c51a30654be30]
  ++ [0xd192e819d6ef5218, 0xd69906245565a910, 0xf40e35855771202a, 0x106aa07032bbd1b8]
  ++ [0x19a4c116b8d2d0c8, 0x1e376c085141ab53, 0x2748774cdf8eeb99, 0x34b0bcb5e19b48a8]
  ++ [0x391c0cb3c5c95a63, 0x4ed8aa4ae3418acb, 0x5b9cca4f7763e373, 0x682e6ff3d6b2b8a3]
  ++ [0x748f82ee5defb2fc, 0x78a5636f43172f60, 0x84c87814a1f0ab72, 0x8cc702081a6439ec]
  ++ [0x90befffa23631e28, 0xa4506cebde82bde9, 0xbef9a3f7b2c67915, 0xc67178f2e372532b]
  ++ [0xca273eceea26619c, 0xd186b8c721c0c207, 0xeada7dd6cde0eb1e, 0xf57d4f7fee6ed178]
  ++ [0x06f067aa72176fba, 0x0a637dc5a2c898a6, 0x113f9804bef90dae, 0x1b710b35131c471b]
  ++ [0x28db77f523047d84, 0x32caab7b40c72493, 0x3c9ebe0a15c9bebc, 0x431d67c49c100d4c]
  ++ [0x4cc5d4becb3e42b6, 0x597f299cfc657e2a, 0x5fcb6fab3ad6faec, 0x6c44198c4a475817]

/-- The initial hash value of SHA-384. -/
def shaInit : List (BitVec 64) :=
  [0xcbbb9d5dc1059ed8, 0x629a292a367cd507, 0x9159015a3070dd17, 0x152fecd8f70e5939] ++
  [0x67332667ffc00b31, 0x8eb44a8768581511, 0xdb0c2e0d64f98fa7, 0x47b5481dbefa4fa4]

/-- Rotation to the right. -/
def rotr64 (x : BitVec 64) (n : Nat) : BitVec 64 := x.rotateRight n

/-- The number that eight bytes spell, highest first. -/
def beWord (l : List Byte) : BitVec 64 := BitVec.ofNat 64 (l.foldl (fun a b => a * 256 + b.toNat) 0)

/-- A list of bytes as words of eight; `n` words at most. -/
def beWords : Nat → List Byte → List (BitVec 64)
  | 0, _ => []
  | _ + 1, [] => []
  | n + 1, l => beWord (l.take 8) :: beWords n (l.drop 8)

/-- `n` words of the message schedule more; the newest 16 words stand first. -/
def shaExtend : Nat → List (BitVec 64) → List (BitVec 64)
  | 0, w => w
  | n + 1, w =>
    let a := w.getD 14 0
    let b := w.getD 1 0
    let s0 := rotr64 a 1 ^^^ rotr64 a 8 ^^^ (a >>> 7)
    let s1 := rotr64 b 19 ^^^ rotr64 b 61 ^^^ (b >>> 6)
    shaExtend n ((w.getD 15 0 + s0 + w.getD 6 0 + s1) :: w)

/-- The eight working variables of SHA-384. -/
structure ShaVars where
  a : BitVec 64
  b : BitVec 64
  c : BitVec 64
  d : BitVec 64
  e : BitVec 64
  f : BitVec 64
  g : BitVec 64
  h : BitVec 64
deriving DecidableEq, Repr

/-- One round of SHA-384. -/
def ShaVars.round (v : ShaVars) (kw : BitVec 64 × BitVec 64) : ShaVars :=
  let s1 := rotr64 v.e 14 ^^^ rotr64 v.e 18 ^^^ rotr64 v.e 41
  let ch := (v.e &&& v.f) ^^^ (~~~v.e &&& v.g)
  let t1 := v.h + s1 + ch + kw.1 + kw.2
  let s0 := rotr64 v.a 28 ^^^ rotr64 v.a 34 ^^^ rotr64 v.a 39
  let mj := (v.a &&& v.b) ^^^ (v.a &&& v.c) ^^^ (v.b &&& v.c)
  ⟨t1 + s0 + mj, v.a, v.b, v.c, v.d + t1, v.e, v.f, v.g⟩

/-- One block of 128 bytes. -/
def shaBlock (h : List (BitVec 64)) (l : List Byte) : List (BitVec 64) :=
  let w := (shaExtend 64 (beWords 16 l).reverse).reverse
  let v : ShaVars := ⟨h.getD 0 0, h.getD 1 0, h.getD 2 0, h.getD 3 0, h.getD 4 0, h.getD 5 0, h.getD 6 0, h.getD 7 0⟩
  let v := (shaK.zip w).foldl ShaVars.round v
  List.zipWith (· + ·) h [v.a, v.b, v.c, v.d, v.e, v.f, v.g, v.h]

/-- Every block of a padded message; `n` blocks at most. -/
def shaBlocks : Nat → List (BitVec 64) → List Byte → List (BitVec 64)
  | 0, h, _ => h
  | _ + 1, h, [] => h
  | n + 1, h, l => shaBlocks n (shaBlock h (l.take 128)) (l.drop 128)

/-- `n` bytes of a number, highest first. -/
def beBytes : Nat → Nat → List Byte
  | 0, _ => []
  | n + 1, v => BitVec.ofNat 8 (v / 256 ^ n) :: beBytes n v

/-- SHA-384 of a message: 48 bytes. -/
def sha384 (m : List Byte) : List Byte :=
  let pad := (239 - m.length % 128) % 128
  let l := m ++ 0x80 :: List.replicate pad 0 ++ beBytes 16 (8 * m.length)
  ((shaBlocks (l.length / 128) shaInit l).flatMap fun w => beBytes 8 w.toNat).take 48

/-- The number that a byte string spells, highest byte first. -/
def beNat (l : List Byte) : Nat := l.foldl (fun a b => a * 256 + b.toNat) 0

/-! ### ECDSA P-384 -/

/-- The prime of P-384. -/
def p384 : Nat := 2 ^ 384 - 2 ^ 128 - 2 ^ 96 + 2 ^ 32 - 1
/-- The order of the base point. -/
def p384n : Nat := 0xffffffffffffffffffffffffffffffffffffffffffffffffc7634d81f4372ddf581a0db248b0a77aecec196accc52973
/-- The coefficient b of the curve. -/
def p384b : Nat := 0xb3312fa7e23ee7e4988e056be3f82d19181d9c6efe8141120314088f5013875ac656398d8a2ed19d2a85c8edd3ec2aef
/-- The base point. -/
def p384g : Nat × Nat :=
  (0xaa87ca22be8b05378eb1c71ef320ad746e1d3b628ba79b9859f741e082542a385502f25dbf55296c3a545e3872760ab7,
   0x3617de4a96262c6f5d9e98bf9292dc29f8f41dbd289a147ce9da3113b5f0b8c00a60b1ce1d7e819d7a431d7c90ea0e5f)

/-- b^e modulo m, over the bits of `e` that `fuel` admits. -/
def powMod : Nat → Nat → Nat → Nat → Nat
  | 0, _, _, _ => 1
  | fuel + 1, b, e, m => (if e % 2 = 1 then b else 1) * powMod fuel (b * b % m) (e / 2) m % m

/-- The inverse modulo a prime of at most 384 bits. -/
def invMod (a m : Nat) : Nat := powMod 384 (a % m) (m - 2) m

/-- The sum of two points; none is the point at infinity. -/
def ecAdd : Option (Nat × Nat) → Option (Nat × Nat) → Option (Nat × Nat)
  | none, q => q
  | p, none => p
  | some (x1, y1), some (x2, y2) =>
    if x1 = x2 ∧ (y1 + y2) % p384 = 0 then none
    else
      let l :=
        if x1 = x2 then (3 * x1 * x1 + (p384 - 3)) * invMod (2 * y1) p384 % p384
        else (y2 + p384 - y1) * invMod (x2 + p384 - x1) p384 % p384
      let x := (l * l + 2 * p384 - x1 - x2) % p384
      some (x, (l * (x1 + p384 - x) + p384 - y1) % p384)

/-- k times a point, over the bits of `k` that `fuel` admits. -/
def ecMul : Nat → Nat → Option (Nat × Nat) → Option (Nat × Nat)
  | 0, _, _ => none
  | fuel + 1, k, q =>
    let r := ecMul fuel (k / 2) (ecAdd q q)
    if k % 2 = 1 then ecAdd q r else r

/-- The signature (r, s) of a digest is correct under the public key (x, y). -/
def ecdsaOk (x y : Nat) (digest : List Byte) (r s : Nat) : Bool :=
  let e := beNat digest
  let onCurve := x < p384 && y < p384 && (y * y) % p384 == (x * x * x + (p384 - 3) * x + p384b) % p384
  if onCurve && 0 < r && r < p384n && 0 < s && s < p384n then
    let w := invMod s p384n
    match ecAdd (ecMul 384 (e * w % p384n) (some p384g)) (ecMul 384 (r * w % p384n) (some (x, y))) with
    | some (px, _) => px % p384n == r
    | none => false
  else false

end Sys2Proof.Machine
end

