-- ==== Sys2Proof/Config.lean ====
section
/-! DEFINITION. What one part or one implementation fixes and the spec leaves open: constants without a body, so that
no proof can rest on a value of them. -/

namespace Sys2Proof.Config

/-- The silicon stepping ("Factory" in R500). -/
opaque stepping : BitVec 4

/-- The MCTP vendor ID ("Factory" in R500). -/
opaque mctpVendorId : BitVec 16

/-- The MCTP registry ID ("Factory" in R500). -/
opaque mctpRegistry : BitVec 8

/-- The words of the 128-bit DEVICE_ID ("Factory" in R500). -/
opaque deviceId : Nat → BitVec 32

/-- A byte that a reset or a loss of power left open (R372). Arguments: the number of that loss, and the byte's
address. -/
opaque lostByte : Nat → Nat → BitVec 8

/-- A value that the spec leaves open, one for each count of such values taken. -/
opaque freeValue : Nat → Nat

/-- The physical row of an SRAM array that holds a byte, which the spec does not publish (R378). Arguments: the array ID, and
the byte offset in it. -/
opaque sramRow : Nat → Nat → BitVec 16

/-- Pseudo-channel, stack ID, bank and row of a 64-byte access to a stack, as bits 29 to 3 of R383 have them; the spec gives
no map from the offset (R378). Argument: the byte offset. -/
opaque hbmRow : Nat → BitVec 27

/-- A CSR of a core whose value the spec does not state: its identity registers and its counters other than time (R392).
Arguments: the hart, the number of the CSR, and the count of free values. -/
opaque coreCsr : Nat → Nat → Nat → BitVec 64

/-- LOC of a cache error, of which R378 states nothing. Argument: the address of the line. -/
opaque cacheLoc : Nat → BitVec 32

/-- KE_RATIO before its limit where its divisor is not positive: a probe at standstill or without a shorting time, for
which R253 states no result. Arguments: the current and PROBE_K. -/
opaque probeRatio : Nat → Nat → Nat

/-- The rate derived from two motor samples of one instant, whose dt is 0 (R51, R239), before its limit. Argument: their
difference in counts. -/
opaque stillRate : Int → Int

/-- The quotient of R223 where REF is zero. Argument: DAB. -/
opaque wedgeQuotient : Int → Int

/-- Spare rows that the factory fuse map leaves free in an array of a tile (R382, R383). -/
opaque spareRows : Nat → Nat → Nat

/-- Byte offset of a loop table byte within array 0x30, which the spec does not lay out (R378). Arguments: local head,
memory in the order of the table above R194, and the offset in it. -/
opaque loopArray : Nat → Nat → Nat → Nat

/-- Byte offset, within the array that holds it, of a byte of a table whose place in an array the spec does not lay out:
the strategy entries, the loaded map, the job table, the job result and the result buffer (R378). Arguments: the space of
the table-access window, and the offset in it. -/
opaque tableByte : Nat → Nat → Nat

/-- A reference that falls outside its 32 bits, for which R290 states no value. Argument: the exact sum. -/
opaque wideSum : Int → Int

/-- Fitted field `k` of a TONE job whose samples fix no fit, or whose fitted amplitude is 0 (R289). -/
opaque toneFree : Nat → Nat

/-- GAIN (0) and PHASE (1) of a LOOP_GAIN job whose response Y is 0 (R291). -/
opaque gainFree : Nat → Nat

/-- One value of the interpolator (R124), whose coefficients are not published. Arguments: the phase, 0 to 63, and the
eight w values around the instant, oldest first. -/
opaque interpolate : Nat → List Int → Int

/-- w of an erased sample, which the interpolator of later bits still meets (R127). Argument: its place in the window. -/
opaque erasedSample : Nat → Int

/-- z before the first bit of a frame (R128). Argument: bits before it. -/
opaque priorZ : Nat → Int

/-- INC_NOM where its quotient does not exist, is negative or exceeds an unsigned 8.24 value (R124). Arguments: K and W. -/
opaque openIncrement : Nat → Int → Int

/-- The phase that the zero-phase start adds to the sampling instant, in 2^-24 samples (R125). Arguments: INC_NOM, and of
each sample of bits 32 to 63, oldest first, its instant after the start of bit 32, in 2^-24 samples, and w. -/
opaque zeroPhase : Int → List (Int × Int) → Int

/-- The scale of the timing error, which R124 does not state. Argument: the Mueller-Müller product. -/
opaque timingScale : Int → Int

/-- The scale of an LLR, which R129 does not state: the size before its limit. Arguments: the table entry, and the size of
the difference of the two path metrics in units of (1 / (2 Σ|G|))². -/
opaque llrSize : Nat → Nat → Nat

/-- The expected y under a target whose G are all 0 (R129). Argument: the last four channel bits. -/
opaque noTarget : Nat → Int

/-- Whether an inexact estimate of the statistics record rounds up (R160). Arguments: its word, numerator and
denominator. -/
opaque estimateUp : Nat → Int → Int → Bool

/-- An estimate whose divisor is 0, or that its field cannot hold (R160). Arguments: its word, numerator and
denominator. -/
opaque estimateOpen : Nat → Int → Int → Int

/-- Whether 0.75 of a message's size rounds up where it is inexact (R143). -/
opaque ldpcUp : Nat → Bool

/-- The decision of a codeword bit whose posterior is 0 (R143). Argument: its place. -/
opaque tieDecision : Nat → Bool

/-- BETA of a unit whose Hi and Lo are equal (R179). Argument: their sum. -/
opaque betaQuotient : Int → Int

/-- DEV_TX: the fixed transmit delay of the device, at most 40 ns (R67), in 1/16 ns. -/
opaque devTx : Fin 641

/-- UE_SRC of a reader that R380 does not list. -/
opaque otherSource : Nat

/-- A temperature in 1/256 degree Celsius as whole kelvins, for the SMART log and feature 04h (R335, R336). -/
opaque kelvin : Int → Nat

/-- The over-temperature threshold of feature 04h before it is set, in kelvins (R336). -/
opaque tempThreshold : Nat

/-- The bit of feature 0Bh that enables vendor event 1 or 2 (R336, R358). -/
opaque vendorEventBit : Nat → Nat

/-- CAP.TO of a controller (R332). -/
opaque capTimeout : BitVec 8

/-- Bytes of the SMART / Health Information page that the spec does not fix (R335). Arguments: 0 for the controller's page or
the number of the namespace, and the byte's place. -/
opaque smartByte : Nat → Nat → BitVec 8

/-- Bits 31 to 1 of an entry of the Commands Supported and Effects log (R335). Arguments: whether the command is an I/O
command, and its opcode. -/
opaque commandEffects : Bool → Nat → BitVec 31

/-- Bytes of the Discovery log page that the spec does not fix (R335). Arguments: the port, and the byte of its entry; the
header has port number 16. -/
opaque discoveryByte : Nat → Nat → BitVec 8

/-- Whether firmware's own records mark a block of a version LOST (R323, R341, R343), which no register tells the engine
(log entry 137). Arguments: the set, the LBN, the WSEQ, and the CORE cycle, since firmware may mark a block at any time. -/
opaque lostMark : Nat → Nat → Nat → Nat → Bool

/-- A byte of data that firmware builds for an Identify or a Firmware Slot Information command, for which the spec names
no way to the port engine (R334, R346). Arguments: tile, HANDLE and the byte's place. -/
opaque firmwareByte : Nat → Nat → Nat → BitVec 8

/-- The signature of the device attestation key over a digest (R424): r, then s, highest bytes first. -/
opaque attest : List (BitVec 8) → BitVec 768

/-- Bytes of the certificate chain of slot 0 (R428). -/
opaque certLength : BitVec 16

/-- A byte of the certificate chain of slot 0 (R428). -/
opaque certByte : Nat → BitVec 8

/-- The signature of an SPDM response (R428): r, then s, highest bytes first. What it covers is fixed by DSP0274. Arguments:
1 for CHALLENGE and 2 for GET_MEASUREMENTS, the requester's nonce, and what the response carries. -/
opaque spdmSignature : Nat → BitVec 256 → List (BitVec 8) → BitVec 768

/-- The responder's nonce of an SPDM response, one for each count of free values taken (R428). -/
opaque spdmNonce : Nat → BitVec 256

/-- The CRC-16 of a Warp flit, whose polynomial R21 does not give. Argument: the 64 bytes of the flit. -/
opaque flitCrc : BitVec 512 → BitVec 16

/-- A byte of the 4 096-byte fuse array (R424), whose layout the spec does not give. Arguments: the revocation fuses
blown, and the byte's place. -/
opaque fuseByte : Nat → Nat → BitVec 8

/-- AUTH_STATUS of a CLAIM whose EPOCH the store refuses: no value of the table stands for it (R432, R459; log entry 135). -/
opaque claimStatus : BitVec 3

/-- CORE cycles for which a register request over SMBus runs, by its number (R492 does not say; free). -/
opaque smbTime : Nat → Nat

end Sys2Proof.Config
end

