-- ==== Sys2Proof/Machine/RegTypes.lean ====
section
/-! DEFINITION. What a register field is (R4, R6), the sparse file that holds the fields of a block, and the
sparse byte memory that holds a table, a stack or a tightly coupled RAM. The operations on them are in
Machine/Regs.lean. -/

namespace Sys2Proof.Machine

/-- The access types of R4. -/
inductive Access where
  | rw | ro | wo | w1c | sc | ros | rwp
deriving DecidableEq, Repr

/-- The reset classes of R7, from the broadest to the narrowest; a port reset is independent of a head reset (R8). -/
inductive RClass where
  | cold | warm | tile | head | port
deriving DecidableEq, Repr

/-- One register field: its word's offset in its block's scope, its lowest bit, its width, its access type (R4), the
value and the class that restore it (R6), and whether it persists (R6, R507). -/
structure Fld where
  off : Nat
  lsb : Nat
  width : Nat
  acc : Access
  reset : Nat
  cls : RClass
  persist : Bool
deriving DecidableEq, Repr

/-- The register fields of one scope (a head, a tile, a copy of the package block). A field stands in `cells` under
its key (32 times the offset plus the lowest bit) only while it differs from its reset value; the keys rise strictly. -/
structure RegFile where
  cells : List (Nat × Nat)
deriving DecidableEq, Repr

/-- A byte memory: the bytes that were written and differ from what an unlisted byte reads as, at strictly rising addresses,
and its upsets. Of an SRAM, whose bytes are protected one by one (R375, R377), `flips` gives for a byte the bits of its 13
stored bits that differ from the code word written. Of a stack, `ce` and `ue` give the numbers of the 64-byte lines that
its own code reads as corrected and as uncorrectable (R376, R378). `lost` tells of the last loss of the contents: its
number, and the first address that it left alone (R372). -/
structure Mem where
  cells : List Host.Cell
  flips : List (Nat × BitVec 13)
  ce : List Nat
  ue : List Nat
  lost : Option (Nat × Nat)
deriving DecidableEq, Repr

end Sys2Proof.Machine
end

