-- ==== Sys2Proof/Machine/FieldsHead.lean ====
section
/-! DEFINITION. The fields of a head block (R503), their offsets counted from the head base. Each definition is one row of the spec's register tables. -/

namespace Sys2Proof.Machine

/-! ### AngleReg: R52 (02_angle_and_time.md) -/

namespace AngleReg

/-- Current angle base (R52) -/
def ANGLE : Fld := ⟨0x10000, 0, 24, .ro, 0, .head, false⟩

/-- The angle is valid (R48, R59) (R52) -/
def VALID : Fld := ⟨0x10000, 24, 1, .ro, 0, .head, false⟩

/-- The virtual source is in use (R52) -/
def VIRTUAL : Fld := ⟨0x10000, 25, 1, .ro, 1, .head, false⟩

/-- Holdover is in progress (R52) -/
def HOLDOVER : Fld := ⟨0x10000, 26, 1, .ro, 0, .head, false⟩

/-- Angle source, per R50; the value 3 acts as 0 (R52) -/
def ASRC : Fld := ⟨0x10004, 0, 2, .rw, 0, .head, false⟩

/-- Align at the next index, per R46 (R52) -/
def ALIGN : Fld := ⟨0x10004, 2, 1, .sc, 0, .head, false⟩

/-- Phase shift of the tracker (R52) -/
def GP : Fld := ⟨0x10004, 4, 4, .rw, 2, .head, false⟩

/-- Rate shift of the tracker (R52) -/
def GW : Fld := ⟨0x10004, 8, 4, .rw, 11, .head, false⟩

/-- Holdover limit in µs; 0 acts as 1 (R52) -/
def HOLD_LIMIT : Fld := ⟨0x10004, 12, 8, .rw, 10, .head, false⟩

/-- Lead for head-end events, in ns, 500–4 000; out-of-range values clamp (R52) -/
def LEAD_NS : Fld := ⟨0x10004, 20, 12, .rw, 1000, .head, false⟩

/-- Disc angle minus motor angle; a write is a step under R49 on the real source, and is stored only on the virtual source (R52) -/
def DISC_OFFSET : Fld := ⟨0x10008, 0, 24, .rw, 0, .head, false⟩

/-- Virtual rate, signed 8.24 counts/ns; a write takes effect at the next Riser frame boundary (R50) (R52) -/
def VRATE : Fld := ⟨0x1000c, 0, 32, .rw, 0, .head, false⟩

/-- Current rate, signed 8.24 counts/ns (R52) -/
def W : Fld := ⟨0x10010, 0, 32, .ro, 0, .head, false⟩

/-- Angle at the last index detection, signed (R52) -/
def INDEX_RESID : Fld := ⟨0x10014, 0, 24, .ro, 0, .head, false⟩

/-- Index residual window (R52) -/
def INDEX_WIN : Fld := ⟨0x10018, 0, 24, .rw, 256, .head, false⟩

/-- R47 (R52) -/
def INDEX_SLIP : Fld := ⟨0x1001c, 0, 1, .w1c, 0, .head, false⟩

/-- R48 (R52) -/
def HOLDOVER_ENTERED : Fld := ⟨0x1001c, 1, 1, .w1c, 0, .head, false⟩

/-- R48 (R52) -/
def ANGLE_LOST : Fld := ⟨0x1001c, 2, 1, .w1c, 0, .head, false⟩

/-- SKIP_COUNT has advanced (R52) -/
def SKIP : Fld := ⟨0x1001c, 3, 1, .w1c, 0, .head, false⟩

/-- LATE_COUNT has advanced (R52) -/
def LATE : Fld := ⟨0x1001c, 4, 1, .w1c, 0, .head, false⟩

/-- A schedule start was refused under R56 (R52) -/
def ORDER : Fld := ⟨0x1001c, 5, 1, .w1c, 0, .head, false⟩

/-- R46 (R52) -/
def ALIGN_REFUSED : Fld := ⟨0x1001c, 6, 1, .w1c, 0, .head, false⟩

/-- A spare switch was carried out (R52) -/
def SPARE_DONE : Fld := ⟨0x1001c, 7, 1, .w1c, 0, .head, false⟩

/-- Events not fired; saturates (R52) -/
def SKIP_COUNT : Fld := ⟨0x10020, 0, 16, .ro, 0, .head, false⟩

/-- Events fired late; saturates (R52) -/
def LATE_COUNT : Fld := ⟨0x10020, 16, 16, .ro, 0, .head, false⟩

/-- Largest lateness, in CORE cycles (R52) -/
def LATE_MAX : Fld := ⟨0x10024, 0, 16, .ro, 0, .head, false⟩

/-- Schedule number for slot 1 (R52) -/
def SCHED : Fld := ⟨0x10028, 0, 6, .rw, 0, .head, false⟩

/-- Start slot 1 at the next index crossing that serves it (R59); reads 1 while it waits (R52) -/
def START : Fld := ⟨0x10028, 6, 1, .sc, 0, .head, false⟩

/-- Stop slot 1 at once, and cancel a START that still waits for its index crossing (START clears) (R52) -/
def STOP : Fld := ⟨0x10028, 7, 1, .sc, 0, .head, false⟩

/-- Slot 1 is running (R52) -/
def RUNNING : Fld := ⟨0x10028, 8, 1, .ro, 0, .head, false⟩

/-- Schedule number for slot 0; takes effect at the next index crossing (R52) -/
def SLOT0_SCHED : Fld := ⟨0x10028, 16, 6, .rw, 0, .head, false⟩

/-- Beam position to be covered, 0–31; 32 means release, and the values 33–63 act as 32 (R52) -/
def SPARE_K : Fld := ⟨0x1002c, 0, 6, .rw, 32, .head, false⟩

/-- Carry out at the next spare point of SPARE_K (R52) -/
def SPARE_ARM : Fld := ⟨0x1002c, 6, 1, .sc, 0, .head, false⟩

/-- Every field of the block. -/
def all : List Fld :=
  [ANGLE, VALID, VIRTUAL, HOLDOVER, ASRC, ALIGN, GP, GW, HOLD_LIMIT, LEAD_NS, DISC_OFFSET, VRATE]
  ++ [W, INDEX_RESID, INDEX_WIN, INDEX_SLIP, HOLDOVER_ENTERED, ANGLE_LOST, SKIP, LATE, ORDER, ALIGN_REFUSED, SPARE_DONE, SKIP_COUNT]
  ++ [LATE_COUNT, LATE_MAX, SCHED, START, STOP, RUNNING, SLOT0_SCHED, SPARE_K, SPARE_ARM]

end AngleReg

/-! ### RiserReg: R94 (03_riser_link.md) -/

namespace RiserReg

/-- Start training; while UP it first acts as a link loss, and while training it restarts training (R79) (R94) -/
def TRAIN : Fld := ⟨0x0, 0, 1, .sc, 0, .head, false⟩

/-- Retrain 1 ms after a link loss (R94) -/
def AUTO_RETRAIN : Fld := ⟨0x0, 1, 1, .rw, 0, .head, false⟩

/-- Order SAFE while 1 (R94) -/
def SAFE_CMD : Fld := ⟨0x0, 2, 1, .rw, 0, .head, false⟩

/-- Send SAFE_RELEASE under R93 (R94) -/
def SAFE_RELEASE : Fld := ⟨0x0, 3, 1, .sc, 0, .head, false⟩

/-- Start a head reset of this head (R7); the head block reads 0 while it runs (R505) (R94) -/
def HEAD_RESET : Fld := ⟨0x0, 4, 1, .sc, 0, .head, false⟩

/-- LOCK state duration in units of 0.1 ms; 0 acts as 1 (R94) -/
def TRAIN_LOCK_T : Fld := ⟨0x0, 8, 8, .rw, 20, .head, false⟩

/-- 0 DOWN, 1–6 as in R79, 7 FAILED (R94) -/
def STATE : Fld := ⟨0x4, 0, 3, .ro, 0, .head, false⟩

/-- The head-end reports SAFE (R94) -/
def HE_SAFE : Fld := ⟨0x4, 3, 1, .ro, 0, .head, false⟩

/-- Receive lanes locked (R94) -/
def LANE_LOCK : Fld := ⟨0x4, 4, 12, .ro, 0, .head, false⟩

/-- Last training failure (R79) (R94) -/
def FAIL_CODE : Fld := ⟨0x4, 16, 4, .ro, 0, .head, false⟩

/-- Cause of the last SAFE (R91) (R94) -/
def SAFE_CAUSE : Fld := ⟨0x4, 20, 3, .ro, 0, .head, false⟩

/-- R80 (R94) -/
def LINK_DOWN : Fld := ⟨0x8, 0, 1, .w1c, 0, .head, false⟩

/-- An upstream frame was bad (R94) -/
def BAD_FRAME : Fld := ⟨0x8, 1, 1, .w1c, 0, .head, false⟩

/-- R75 (R94) -/
def FRAME_SLIP : Fld := ⟨0x8, 2, 1, .w1c, 0, .head, false⟩

/-- R67 (R94) -/
def FILL_RANGE : Fld := ⟨0x8, 3, 1, .w1c, 0, .head, false⟩

/-- R85 (R94) -/
def CMD_LOST : Fld := ⟨0x8, 4, 1, .w1c, 0, .head, false⟩

/-- R85 (R94) -/
def CMD_REFUSED : Fld := ⟨0x8, 5, 1, .w1c, 0, .head, false⟩

/-- R77 (R94) -/
def LATE_DATA : Fld := ⟨0x8, 6, 1, .w1c, 0, .head, false⟩

/-- R90 (R94) -/
def SPARE_MISMATCH : Fld := ⟨0x8, 7, 1, .w1c, 0, .head, false⟩

/-- HE_SAFE rose (R94) -/
def HE_SAFE_ENTERED : Fld := ⟨0x8, 8, 1, .w1c, 0, .head, false⟩

/-- WRITE_ABORT was nonzero (R94) -/
def WRITE_ABORTED : Fld := ⟨0x8, 9, 1, .w1c, 0, .head, false⟩

/-- R93 (R94) -/
def SAFE_HELD : Fld := ⟨0x8, 10, 1, .w1c, 0, .head, false⟩

/-- FW_CMD held a timed opcode, ACT or a reserved opcode; not sent (R94) -/
def FW_CMD_BAD : Fld := ⟨0x8, 11, 1, .w1c, 0, .head, false⟩

/-- In 0.1 ns (R94) -/
def LAT_UP : Fld := ⟨0xc, 0, 12, .ro, 0, .head, false⟩

/-- In 0.1 ns (R94) -/
def LAT_DN : Fld := ⟨0xc, 16, 12, .ro, 0, .head, false⟩

/-- D from R79, in 1/16 ns (R94) -/
def RTT_D : Fld := ⟨0x10, 0, 16, .ro, 0, .head, false⟩

/-- Upstream corrected symbols; saturates (R94) -/
def FEC_CORR : Fld := ⟨0x14, 0, 32, .ro, 0, .head, false⟩

/-- Upstream uncorrectable groups; saturates (R94) -/
def FEC_UNCORR : Fld := ⟨0x18, 0, 16, .ro, 0, .head, false⟩

/-- Upstream bad frames; saturates (R94) -/
def BAD_FRAMES : Fld := ⟨0x18, 16, 16, .ro, 0, .head, false⟩

/-- Saturates (R94) -/
def CMD_LOST_COUNT : Fld := ⟨0x1c, 0, 16, .ro, 0, .head, false⟩

/-- Saturates (R94) -/
def CMD_REFUSED_COUNT : Fld := ⟨0x1c, 16, 16, .ro, 0, .head, false⟩

/-- From training (R94) -/
def HE_TYPE : Fld := ⟨0x20, 0, 16, .ro, 0, .head, false⟩

/-- From training (R94) -/
def HE_VERSION : Fld := ⟨0x20, 16, 16, .ro, 0, .head, false⟩

/-- ARG [31:0] of a firmware command (R94) -/
def FW_ARG_LO : Fld := ⟨0x24, 0, 32, .rw, 0, .head, false⟩

/-- ARG [47:32] (R94) -/
def FW_ARG_HI : Fld := ⟨0x28, 0, 16, .rw, 0, .head, false⟩

/-- Opcode (R94) -/
def FW_OPCODE : Fld := ⟨0x28, 16, 8, .rw, 0, .head, false⟩

/-- Queue the command; clears when it is placed in a frame (R94) -/
def FW_GO : Fld := ⟨0x28, 24, 1, .sc, 0, .head, false⟩

/-- Every field of the block. -/
def all : List Fld :=
  [TRAIN, AUTO_RETRAIN, SAFE_CMD, SAFE_RELEASE, HEAD_RESET, TRAIN_LOCK_T, STATE, HE_SAFE, LANE_LOCK, FAIL_CODE, SAFE_CAUSE, LINK_DOWN]
  ++ [BAD_FRAME, FRAME_SLIP, FILL_RANGE, CMD_LOST, CMD_REFUSED, LATE_DATA, SPARE_MISMATCH, HE_SAFE_ENTERED, WRITE_ABORTED, SAFE_HELD, FW_CMD_BAD, LAT_UP]
  ++ [LAT_DN, RTT_D, FEC_CORR, FEC_UNCORR, BAD_FRAMES, CMD_LOST_COUNT, CMD_REFUSED_COUNT, HE_TYPE, HE_VERSION, FW_ARG_LO, FW_ARG_HI, FW_OPCODE]
  ++ [FW_GO]

end RiserReg

/-! ### BeamReg: R158 (05_read_channel.md) -/

namespace BeamReg

/-- Channel powered and active (R158) -/
def ENABLE (s : Nat) : Fld := ⟨0x40000 + 0x800 * s, 0, 1, .rw, 1, .head, false⟩

/-- Erase every bit of this track (R158) -/
def FORCE_ERASE (s : Nat) : Fld := ⟨0x40000 + 0x800 * s, 1, 1, .rw, 0, .head, false⟩

/-- Clear this channel's statistics record (R158) -/
def CLR_STATS (s : Nat) : Fld := ⟨0x40000 + 0x800 * s, 2, 1, .sc, 0, .head, false⟩

/-- Channel 32 only: table position when the spare covers none; reads 0 elsewhere (R158) -/
def SHADOW_POS (s : Nat) : Fld := ⟨0x40000 + 0x800 * s, 8, 6, .rw, 0, .head, false⟩

/-- 0 idle, 1 acquire, 2 sync search, 3 framed, 4 unframed, 5 gap (R158) -/
def STATE (s : Nat) : Fld := ⟨0x40000 + 0x800 * s, 16, 3, .ro, 0, .head, false⟩

/-- Current or last frame position (R158) -/
def SECTOR (s : Nat) : Fld := ⟨0x40000 + 0x800 * s, 24, 6, .ro, 0, .head, false⟩

/-- R134 (R158) -/
def GATE_ORDER (s : Nat) : Fld := ⟨0x40004 + 0x800 * s, 0, 1, .w1c, 0, .head, false⟩

/-- R157 (R158) -/
def EVENT_OVF (s : Nat) : Fld := ⟨0x40004 + 0x800 * s, 1, 1, .w1c, 0, .head, false⟩

/-- R123 (R158) -/
def EQ_SAT (s : Nat) : Fld := ⟨0x40004 + 0x800 * s, 2, 1, .w1c, 0, .head, false⟩

/-- R131 (R158) -/
def DEFECT (s : Nat) : Fld := ⟨0x40004 + 0x800 * s, 3, 1, .w1c, 0, .head, false⟩

/-- R127 (R158) -/
def ERASED_INPUT (s : Nat) : Fld := ⟨0x40004 + 0x800 * s, 4, 1, .w1c, 0, .head, false⟩

/-- R157 (R158) -/
def SPARE_IN_GATE (s : Nat) : Fld := ⟨0x40004 + 0x800 * s, 5, 1, .w1c, 0, .head, false⟩

/-- A frame ended with code NO_FRAME (R158) -/
def NO_FRAME (s : Nat) : Fld := ⟨0x40004 + 0x800 * s, 6, 1, .w1c, 0, .head, false⟩

/-- R124 (R158) -/
def FREQ_LIMIT (s : Nat) : Fld := ⟨0x40004 + 0x800 * s, 7, 1, .w1c, 0, .head, false⟩

/-- Every field of one instance of the block. -/
def one (s : Nat) : List Fld :=
  [ENABLE s, FORCE_ERASE s, CLR_STATS s, SHADOW_POS s, STATE s, SECTOR s, GATE_ORDER s, EVENT_OVF s, EQ_SAT s, DEFECT s, ERASED_INPUT s, SPARE_IN_GATE s]
  ++ [NO_FRAME s, FREQ_LIMIT s]

/-- Every field of every instance of the block. -/
def all : List Fld := (List.range 33).flatMap one

end BeamReg

/-! ### WeftReg: R159 (05_read_channel.md) -/

namespace WeftReg

/-- Retention master enable (R159) -/
def RET_EN : Fld := ⟨0x58000, 0, 1, .rw, 1, .head, false⟩

/-- Write results to the ring (R159) -/
def DELIVER_EN : Fld := ⟨0x58000, 1, 1, .rw, 0, .head, false⟩

/-- R119 (R159) -/
def REGION : Fld := ⟨0x58000, 2, 2, .rw, 0, .head, false⟩

/-- Retention base, in 4 KiB units of the stack (R159) -/
def RET_BASE : Fld := ⟨0x58004, 0, 23, .rw, 0, .head, false⟩

/-- MiB per beam, 2–16; values outside clamp (R159) -/
def RET_STRIDE : Fld := ⟨0x58004, 24, 8, .rw, 4, .head, false⟩

/-- Ring base, in 4 KiB units (R159) -/
def RING_BASE : Fld := ⟨0x58008, 0, 23, .rw, 0, .head, false⟩

/-- Slots; 0 acts as 1 (R159) -/
def RING_SLOTS : Fld := ⟨0x5800c, 0, 16, .rw, 64, .head, false⟩

/-- Pending slots that set RING_THR_REACHED (R159) -/
def RING_THR : Fld := ⟨0x5800c, 16, 16, .rw, 1, .head, false⟩

/-- R146 (R159) -/
def RING_WR : Fld := ⟨0x58010, 0, 16, .ro, 0, .head, false⟩

/-- Firmware's read pointer (R159) -/
def RING_RD : Fld := ⟨0x58010, 16, 16, .rw, 0, .head, false⟩

/-- R135, 0–63 (R159) -/
def SYNC_TOL : Fld := ⟨0x58014, 0, 6, .rw, 32, .head, false⟩

/-- R135 (R159) -/
def SYNC_THR : Fld := ⟨0x58014, 8, 4, .rw, 6, .head, false⟩

/-- R136 (R159) -/
def RESYNC_TOL : Fld := ⟨0x58014, 12, 3, .rw, 4, .head, false⟩

/-- R136; values above 8 act as 8 (R159) -/
def RESYNC_THR : Fld := ⟨0x58014, 16, 4, .rw, 3, .head, false⟩

/-- R137 (R159) -/
def RESYNC_WIDE : Fld := ⟨0x58014, 24, 6, .rw, 16, .head, false⟩

/-- R125 (R159) -/
def ACQ_LEN : Fld := ⟨0x58018, 0, 8, .rw, 128, .head, false⟩

/-- Acquisition phase shift (R159) -/
def KP_A : Fld := ⟨0x58018, 8, 4, .rw, 2, .head, false⟩

/-- Acquisition frequency shift (R159) -/
def KI_A : Fld := ⟨0x58018, 12, 4, .rw, 7, .head, false⟩

/-- Tracking phase shift (R159) -/
def KP_T : Fld := ⟨0x58018, 16, 4, .rw, 5, .head, false⟩

/-- Tracking frequency shift (R159) -/
def KI_T : Fld := ⟨0x58018, 20, 4, .rw, 12, .head, false⟩

/-- R124, in 1/4 096 of INC_NOM (R159) -/
def FREQ_LIM : Fld := ⟨0x58018, 24, 8, .rw, 20, .head, false⟩

/-- R131 (R159) -/
def ENV_LO : Fld := ⟨0x5801c, 0, 4, .rw, 6, .head, false⟩

/-- R131 (R159) -/
def ENV_HI : Fld := ⟨0x5801c, 4, 5, .rw, 24, .head, false⟩

/-- R131 (R159) -/
def TE_THR : Fld := ⟨0x5801c, 16, 8, .rw, 40, .head, false⟩

/-- R131 (R159) -/
def DEF_MIN : Fld := ⟨0x5801c, 24, 8, .rw, 8, .head, false⟩

/-- R131 (R159) -/
def EXT : Fld := ⟨0x58020, 0, 7, .rw, 32, .head, false⟩

/-- R154 (R159) -/
def EXT_ALT : Fld := ⟨0x58020, 8, 7, .rw, 96, .head, false⟩

/-- R132, in bits (R159) -/
def HOLD_MIN : Fld := ⟨0x58020, 16, 8, .rw, 64, .head, false⟩

/-- R132 (R159) -/
def DH_BEAMS : Fld := ⟨0x58020, 24, 3, .rw, 3, .head, false⟩

/-- R132, in ns (R159) -/
def DH_EXT : Fld := ⟨0x58024, 0, 16, .rw, 2000, .head, false⟩

/-- R133 (R159) -/
def BLANK_LVL : Fld := ⟨0x58024, 16, 4, .rw, 4, .head, false⟩

/-- 8 bits per strength, strength t at [8t + 7:8t]; 0 acts as 1 (R159) -/
def ITER_MAX : Fld := ⟨0x58028, 0, 32, .rw, 538449944, .head, false⟩

/-- Band value for PSAs; also written by the Landing at the end of each band seek (R159) -/
def BAND_EXP : Fld := ⟨0x5802c, 0, 13, .rw, 0, .head, false⟩

/-- R145 (R159) -/
def SET_TAG_EXP : Fld := ⟨0x58030, 0, 32, .rw, 0, .head, false⟩

/-- R153 (R159) -/
def GROUP : Fld := ⟨0x58034, 0, 3, .rw, 0, .head, false⟩

/-- R153 (R159) -/
def SECTOR : Fld := ⟨0x58034, 3, 6, .rw, 0, .head, false⟩

/-- Keep the slots held after the order (R159) -/
def KEEP : Fld := ⟨0x58034, 9, 1, .rw, 0, .head, false⟩

/-- Bit f enables family f of R154 (R159) -/
def FAMILIES : Fld := ⟨0x58034, 16, 6, .rw, 62, .head, false⟩

/-- Queue the order (R159) -/
def GO : Fld := ⟨0x58034, 24, 1, .sc, 0, .head, false⟩

/-- Free the named slots (R159) -/
def RELEASE : Fld := ⟨0x58034, 25, 1, .sc, 0, .head, false⟩

/-- An order is pending or running (R159) -/
def BUSY : Fld := ⟨0x58034, 26, 1, .ro, 0, .head, false⟩

/-- 0 done, 1 NOT_HELD, 2 ABORTED (R159) -/
def STATUS : Fld := ⟨0x58038, 0, 4, .ro, 0, .head, false⟩

/-- Hypotheses run (R159) -/
def HYP_RUN : Fld := ⟨0x58038, 4, 8, .ro, 0, .head, false⟩

/-- Bit a: codeword a decoded by this order (R159) -/
def DECODED : Fld := ⟨0x58038, 12, 4, .ro, 0, .head, false⟩

/-- Bit a: codeword a ended UNCORR_FINAL (R159) -/
def FAILED : Fld := ⟨0x58038, 16, 4, .ro, 0, .head, false⟩

/-- R146 (R159) -/
def RING_FULL : Fld := ⟨0x5803c, 0, 1, .w1c, 0, .head, false⟩

/-- R151 (R159) -/
def RET_DROP : Fld := ⟨0x5803c, 1, 1, .w1c, 0, .head, false⟩

/-- R150 (R159) -/
def RET_PARTIAL : Fld := ⟨0x5803c, 2, 1, .w1c, 0, .head, false⟩

/-- A result UNCORR, UNCORR_NO_RET or UNCORR_FINAL was written (R159) -/
def UNCORR : Fld := ⟨0x5803c, 3, 1, .w1c, 0, .head, false⟩

/-- R145 (R159) -/
def HDR_MISMATCH : Fld := ⟨0x5803c, 4, 1, .w1c, 0, .head, false⟩

/-- R156 (R159) -/
def ORDER_DONE : Fld := ⟨0x5803c, 5, 1, .w1c, 0, .head, false⟩

/-- R153 (R159) -/
def ORDER_REJ : Fld := ⟨0x5803c, 6, 1, .w1c, 0, .head, false⟩

/-- At least RING_THR slots pending (R159) -/
def RING_THR_REACHED : Fld := ⟨0x5803c, 7, 1, .w1c, 0, .head, false⟩

/-- A defect hold request rose (R159) -/
def HOLD_REQ : Fld := ⟨0x5803c, 8, 1, .w1c, 0, .head, false⟩

/-- OK results; saturates (R159) -/
def CW_FIRST_OK : Fld := ⟨0x58040, 0, 32, .ro, 0, .head, false⟩

/-- Saturates (R159) -/
def CW_RETRY_OK : Fld := ⟨0x58044, 0, 16, .ro, 0, .head, false⟩

/-- Results 2, 3 and 4; saturates (R159) -/
def CW_UNCORR : Fld := ⟨0x58044, 16, 16, .ro, 0, .head, false⟩

/-- Saturates (R159) -/
def RING_DROP : Fld := ⟨0x58048, 0, 16, .ro, 0, .head, false⟩

/-- Saturates (R159) -/
def RET_DROP_COUNT : Fld := ⟨0x58048, 16, 16, .ro, 0, .head, false⟩

/-- Saturates (R159) -/
def CW_NO_FRAME : Fld := ⟨0x5804c, 0, 16, .ro, 0, .head, false⟩

/-- Saturates (R159) -/
def CW_BLANK : Fld := ⟨0x5804c, 16, 16, .ro, 0, .head, false⟩

/-- R121, one word per layer (R159) -/
def STRENGTH_MAP (i : Nat) : Fld := ⟨0x58050 + 4 * i, 0, 32, .rw, 1431655765, .head, false⟩

/-- Every field of the block. -/
def all : List Fld :=
  [RET_EN, DELIVER_EN, REGION, RET_BASE, RET_STRIDE, RING_BASE, RING_SLOTS, RING_THR, RING_WR, RING_RD, SYNC_TOL, SYNC_THR]
  ++ [RESYNC_TOL, RESYNC_THR, RESYNC_WIDE, ACQ_LEN, KP_A, KI_A, KP_T, KI_T, FREQ_LIM, ENV_LO, ENV_HI, TE_THR]
  ++ [DEF_MIN, EXT, EXT_ALT, HOLD_MIN, DH_BEAMS, DH_EXT, BLANK_LVL, ITER_MAX, BAND_EXP, SET_TAG_EXP, GROUP, SECTOR]
  ++ [KEEP, FAMILIES, GO, RELEASE, BUSY, STATUS, HYP_RUN, DECODED, FAILED, RING_FULL, RET_DROP, RET_PARTIAL]
  ++ [UNCORR, HDR_MISMATCH, ORDER_DONE, ORDER_REJ, RING_THR_REACHED, HOLD_REQ, CW_FIRST_OK, CW_RETRY_OK, CW_UNCORR, RING_DROP, RET_DROP_COUNT, CW_NO_FRAME]
  ++ [CW_BLANK]
  ++ (List.range 16).flatMap (fun i => [STRENGTH_MAP i])

end WeftReg

/-! ### WriteReg: R191 (06_write_channel.md) -/

namespace WriteReg

/-- Take descriptors (R191) -/
def ENABLE : Fld := ⟨0x60000, 0, 1, .rw, 1, .head, false⟩

/-- R186 (R191) -/
def RELOC_EN : Fld := ⟨0x60000, 1, 1, .rw, 1, .head, false⟩

/-- R185, R186 (R191) -/
def RELOC_MARGIN : Fld := ⟨0x60000, 2, 1, .rw, 1, .head, false⟩

/-- R188, cause 8 (R191) -/
def ABORT : Fld := ⟨0x60000, 3, 1, .sc, 0, .head, false⟩

/-- R186 (R191) -/
def RELOC_MAX : Fld := ⟨0x60000, 8, 8, .rw, 3, .head, false⟩

/-- 0 idle, 1 encoding, 2 ARMED, 3 writing, 4 verifying, 5 readback, 6 completing (R191) -/
def STATE : Fld := ⟨0x60004, 0, 3, .ro, 0, .head, false⟩

/-- A descriptor is active (R191) -/
def BUSY : Fld := ⟨0x60004, 3, 1, .ro, 0, .head, false⟩

/-- Queue entries, 0–64 (R191) -/
def RELOC_DEPTH : Fld := ⟨0x60004, 4, 7, .ro, 0, .head, false⟩

/-- A completion was written (R191) -/
def DESC_DONE : Fld := ⟨0x60008, 0, 1, .w1c, 0, .head, false⟩

/-- R188 (R191) -/
def ABORTED : Fld := ⟨0x60008, 1, 1, .w1c, 0, .head, false⟩

/-- A code other than PASS or UNVERIFIED (R191) -/
def VERIFY_FAIL : Fld := ⟨0x60008, 2, 1, .w1c, 0, .head, false⟩

/-- R186 (R191) -/
def RELOC_OVF : Fld := ⟨0x60008, 3, 1, .w1c, 0, .head, false⟩

/-- R186 (R191) -/
def RELOC_EXHAUSTED : Fld := ⟨0x60008, 4, 1, .w1c, 0, .head, false⟩

/-- R166 (R191) -/
def SRC_ERROR : Fld := ⟨0x60008, 5, 1, .w1c, 0, .head, false⟩

/-- R169 (R191) -/
def GATE_EXTRA : Fld := ⟨0x60008, 6, 1, .w1c, 0, .head, false⟩

/-- R170 (R191) -/
def SPEED : Fld := ⟨0x60008, 7, 1, .w1c, 0, .head, false⟩

/-- R174 (R191) -/
def STRAT_INVALID : Fld := ⟨0x60008, 8, 1, .w1c, 0, .head, false⟩

/-- R164 (R191) -/
def DESC_BAD : Fld := ⟨0x60008, 9, 1, .w1c, 0, .head, false⟩

/-- R174 (R191) -/
def STRAT_FAIL : Fld := ⟨0x60008, 10, 1, .w1c, 0, .head, false⟩

/-- R174 (R191) -/
def STRAT_LOST : Fld := ⟨0x60008, 11, 1, .w1c, 0, .head, false⟩

/-- 4 KiB units (R191) -/
def WQ_BASE : Fld := ⟨0x6000c, 0, 23, .rw, 0, .head, false⟩

/-- 0 acts as 1 (R191) -/
def WQ_SLOTS : Fld := ⟨0x60010, 0, 8, .rw, 16, .head, false⟩

/-- Firmware's write pointer (R191) -/
def WQ_WR : Fld := ⟨0x60010, 8, 8, .rw, 0, .head, false⟩

/-- R161 (R191) -/
def WQ_RD : Fld := ⟨0x60010, 16, 8, .ro, 0, .head, false⟩

/-- 4 KiB units (R191) -/
def CQ_BASE : Fld := ⟨0x60014, 0, 23, .rw, 0, .head, false⟩

/-- 0 acts as 1 (R191) -/
def CQ_SLOTS : Fld := ⟨0x60018, 0, 8, .rw, 16, .head, false⟩

/-- R161 (R191) -/
def CQ_WR : Fld := ⟨0x60018, 8, 8, .ro, 0, .head, false⟩

/-- Firmware's read pointer (R191) -/
def CQ_RD : Fld := ⟨0x60018, 16, 8, .rw, 0, .head, false⟩

/-- R184 (R191) -/
def VFY_CORR_MAX : Fld := ⟨0x6001c, 0, 16, .rw, 4096, .head, false⟩

/-- R184 (R191) -/
def VFY_ITER_MAX : Fld := ⟨0x6001c, 16, 8, .rw, 12, .head, false⟩

/-- ppm, R170 (R191) -/
def SPEED_TOL : Fld := ⟨0x60020, 0, 16, .rw, 500, .head, false⟩

/-- Bits, R171; values above 8 192 act as 8 192 (R191) -/
def BUF_HIGH : Fld := ⟨0x60020, 16, 16, .rw, 4096, .head, false⟩

/-- Signed, 1/4 096 (R191) -/
def BETA_TARGET : Fld := ⟨0x60024, 0, 16, .rw, 0, .head, false⟩

/-- Head-end entry (R191) -/
def STRAT_ENTRY : Fld := ⟨0x60028, 0, 12, .rw, 0, .head, false⟩

/-- Table-memory entry (R191) -/
def STRAT_SRC : Fld := ⟨0x60028, 12, 12, .rw, 0, .head, false⟩

/-- R174 (R191) -/
def STRAT_GO : Fld := ⟨0x60028, 24, 1, .sc, 0, .head, false⟩

/-- Saturates (R191) -/
def BANDS_WRITTEN : Fld := ⟨0x6002c, 0, 16, .ro, 0, .head, false⟩

/-- Saturates (R191) -/
def BANDS_ABORTED : Fld := ⟨0x6002c, 16, 16, .ro, 0, .head, false⟩

/-- Codes 1–4; saturates (R191) -/
def CW_VFY_FAIL : Fld := ⟨0x60030, 0, 16, .ro, 0, .head, false⟩

/-- Saturates (R191) -/
def CW_RELOCATED : Fld := ⟨0x60030, 16, 16, .ro, 0, .head, false⟩

/-- One word per position, read power code (R191) -/
def RPOWER (i : Nat) : Fld := ⟨0x60040 + 4 * i, 0, 16, .rw, 0, .head, false⟩

/-- Write power code (R191) -/
def WPOWER (i : Nat) : Fld := ⟨0x60040 + 4 * i, 16, 16, .rw, 0, .head, false⟩

/-- Every field of the block. -/
def all : List Fld :=
  [ENABLE, RELOC_EN, RELOC_MARGIN, ABORT, RELOC_MAX, STATE, BUSY, RELOC_DEPTH, DESC_DONE, ABORTED, VERIFY_FAIL, RELOC_OVF]
  ++ [RELOC_EXHAUSTED, SRC_ERROR, GATE_EXTRA, SPEED, STRAT_INVALID, DESC_BAD, STRAT_FAIL, STRAT_LOST, WQ_BASE, WQ_SLOTS, WQ_WR, WQ_RD]
  ++ [CQ_BASE, CQ_SLOTS, CQ_WR, CQ_RD, VFY_CORR_MAX, VFY_ITER_MAX, SPEED_TOL, BUF_HIGH, BETA_TARGET, STRAT_ENTRY, STRAT_SRC, STRAT_GO]
  ++ [BANDS_WRITTEN, BANDS_ABORTED, CW_VFY_FAIL, CW_RELOCATED]
  ++ (List.range 32).flatMap (fun i => [RPOWER i, WPOWER i])

end WriteReg

/-! ### LoopReg: R215 (07_loop_engine.md) -/

namespace LoopReg

/-- Bank in force (R215) -/
def BANK : Fld := ⟨0x10100, 0, 6, .ro, 0, .head, false⟩

/-- R207 (R215) -/
def SPEED_BAND : Fld := ⟨0x10100, 6, 2, .ro, 0, .head, false⟩

/-- From the Landing (R215) -/
def HEAD_MODE : Fld := ⟨0x10100, 8, 2, .ro, 0, .head, false⟩

/-- Layer in the region (R215) -/
def LAYER : Fld := ⟨0x10100, 10, 4, .ro, 0, .head, false⟩

/-- Zone in the region (R215) -/
def ZONE : Fld := ⟨0x10100, 14, 4, .ro, 0, .head, false⟩

/-- Hold asserted by the Landing (R215) -/
def HOLD_ACTIVE : Fld := ⟨0x10100, 18, 1, .ro, 0, .head, false⟩

/-- Layer used while LZ_OVR = 1 (R215) -/
def OVR_LAYER : Fld := ⟨0x10104, 0, 4, .rw, 0, .head, false⟩

/-- Zone used while LZ_OVR = 1 (R215) -/
def OVR_ZONE : Fld := ⟨0x10104, 4, 4, .rw, 0, .head, false⟩

/-- Override layer and zone (R215) -/
def LZ_OVR : Fld := ⟨0x10104, 8, 1, .rw, 0, .head, false⟩

/-- R199, in 100 ns; 0 acts as 1, values above 40 act as 40 (R215) -/
def IN_AGE : Fld := ⟨0x10104, 16, 6, .rw, 5, .head, false⟩

/-- R203 (R215) -/
def K_V : Fld := ⟨0x10108, 0, 19, .ro, 65536, .head, false⟩

/-- R211 (R215) -/
def LOOP_LATE : Fld := ⟨0x1010c, 0, 1, .w1c, 0, .head, false⟩

/-- STALE_COUNT advanced (R215) -/
def STALE : Fld := ⟨0x1010c, 1, 1, .w1c, 0, .head, false⟩

/-- R200 (R215) -/
def SEC_CLAMP : Fld := ⟨0x1010c, 2, 1, .w1c, 0, .head, false⟩

/-- R200 (R215) -/
def OUT_CLAMP : Fld := ⟨0x1010c, 3, 1, .w1c, 0, .head, false⟩

/-- R193 (R215) -/
def SAT : Fld := ⟨0x1010c, 4, 1, .w1c, 0, .head, false⟩

/-- R198 (R215) -/
def EVT_BAD : Fld := ⟨0x1010c, 5, 1, .w1c, 0, .head, false⟩

/-- R212 (R215) -/
def STATE_ERR : Fld := ⟨0x1010c, 6, 1, .w1c, 0, .head, false⟩

/-- R206 (R215) -/
def BANK_SWITCH : Fld := ⟨0x1010c, 7, 1, .w1c, 0, .head, false⟩

/-- R199 (R215) -/
def AGE_SHORT : Fld := ⟨0x1010c, 8, 1, .w1c, 0, .head, false⟩

/-- R203 (R215) -/
def KV_LIMIT : Fld := ⟨0x1010c, 9, 1, .w1c, 0, .head, false⟩

/-- R196 (R215) -/
def STATE_WR_REFUSED : Fld := ⟨0x1010c, 10, 1, .w1c, 0, .head, false⟩

/-- Saturates (R215) -/
def LATE_COUNT : Fld := ⟨0x10110, 0, 16, .ro, 0, .head, false⟩

/-- Saturates (R215) -/
def STALE_COUNT : Fld := ⟨0x10110, 16, 16, .ro, 0, .head, false⟩

/-- Saturates (R215) -/
def SWITCH_COUNT : Fld := ⟨0x10114, 0, 16, .ro, 0, .head, false⟩

/-- CORE cycles; saturates (R215) -/
def LATE_MAX : Fld := ⟨0x10114, 16, 16, .ro, 0, .head, false⟩

/-- Saturates (R215) -/
def SKIP_ERR_COUNT : Fld := ⟨0x10118, 0, 16, .ro, 0, .head, false⟩

/-- Saturates (R215) -/
def HELD_COUNT : Fld := ⟨0x10118, 16, 16, .ro, 0, .head, false⟩

/-- Loop receiving the stimulus (R215) -/
def INJ_LOOP : Fld := ⟨0x1011c, 0, 5, .rw, 0, .head, false⟩

/-- 0 after the input stage, 1 before the output limits (R215) -/
def INJ_POINT : Fld := ⟨0x1011c, 5, 1, .rw, 0, .head, false⟩

/-- Injection enabled (R215) -/
def INJ_EN : Fld := ⟨0x1011c, 6, 1, .rw, 0, .head, false⟩

/-- R193; saturates (R215) -/
def SAT_COUNT : Fld := ⟨0x1011c, 16, 16, .ro, 0, .head, false⟩

/-- Loop n enabled, n = 0–23 (R215) -/
def ENABLE (i : Nat) : Fld := ⟨0x10140 + 4 * i, 0, 1, .rw, 0, .head, false⟩

/-- R209 (R215) -/
def FREEZE (i : Nat) : Fld := ⟨0x10140 + 4 * i, 1, 1, .rw, 0, .head, false⟩

/-- Zero the state (R215) -/
def CLEAR (i : Nat) : Fld := ⟨0x10140 + 4 * i, 2, 1, .sc, 0, .head, false⟩

/-- R213 (R215) -/
def CLR_STATS (i : Nat) : Fld := ⟨0x10140 + 4 * i, 3, 1, .sc, 0, .head, false⟩

/-- R209 (R215) -/
def ACTIVE (i : Nat) : Fld := ⟨0x10140 + 4 * i, 4, 1, .ro, 0, .head, false⟩

/-- Reference of loop n, signed (R215) -/
def LOOP_REF (i : Nat) : Fld := ⟨0x101a0 + 4 * i, 0, 32, .rw, 0, .head, false⟩

/-- Every field of the block. -/
def all : List Fld :=
  [BANK, SPEED_BAND, HEAD_MODE, LAYER, ZONE, HOLD_ACTIVE, OVR_LAYER, OVR_ZONE, LZ_OVR, IN_AGE, K_V, LOOP_LATE]
  ++ [STALE, SEC_CLAMP, OUT_CLAMP, SAT, EVT_BAD, STATE_ERR, BANK_SWITCH, AGE_SHORT, KV_LIMIT, STATE_WR_REFUSED, LATE_COUNT, STALE_COUNT]
  ++ [SWITCH_COUNT, LATE_MAX, SKIP_ERR_COUNT, HELD_COUNT, INJ_LOOP, INJ_POINT, INJ_EN, SAT_COUNT]
  ++ (List.range 24).flatMap (fun i => [ENABLE i, FREEZE i, CLEAR i, CLR_STATS i, ACTIVE i, LOOP_REF i])

end LoopReg

/-! ### LandReg: R237 (08_focus_tracking.md) -/

namespace LandReg

/-- Command (R219) (R237) -/
def HCMD : Fld := ⟨0x10200, 0, 4, .wo, 0, .head, false⟩

/-- Band value of R96 (R237) -/
def TARGET_BAND : Fld := ⟨0x10204, 0, 13, .rw, 0, .head, false⟩

/-- Layer (R237) -/
def TARGET_LAYER : Fld := ⟨0x10204, 16, 4, .rw, 0, .head, false⟩

/-- R227, 1–16; 0 acts as 1, values above 16 act as 16 (R237) -/
def CAP_N : Fld := ⟨0x10204, 20, 5, .rw, 1, .head, false⟩

/-- 0 read, 1 calibration (R237) -/
def S1_KIND : Fld := ⟨0x10204, 25, 1, .rw, 0, .head, false⟩

/-- R235 (R237) -/
def WI_ON_HOLD : Fld := ⟨0x10204, 26, 1, .rw, 1, .head, false⟩

/-- R216 (R237) -/
def HSTATE : Fld := ⟨0x10208, 0, 4, .ro, 0, .head, false⟩

/-- 0 retracted, 1 sweeping, 2 captured, 3 locked, 4 jumping, 5 moving the corrector (R237) -/
def FSTAT : Fld := ⟨0x10208, 4, 3, .ro, 0, .head, false⟩

/-- 0 off, 1 acquiring, 2 coarse, 3 settling, 4 identifying, 5 fine jump, 6 locked (R237) -/
def TSTAT : Fld := ⟨0x10208, 7, 3, .ro, 0, .head, false⟩

/-- R224 (R237) -/
def BAND_KNOWN : Fld := ⟨0x10208, 10, 1, .ro, 0, .head, false⟩

/-- R235 (R237) -/
def WRITE_INHIBIT : Fld := ⟨0x10208, 11, 1, .ro, 1, .head, false⟩

/-- Layer the Landing is on (R237) -/
def LAYER : Fld := ⟨0x10208, 12, 4, .ro, 0, .head, false⟩

/-- R219 (R237) -/
def LAST_CODE : Fld := ⟨0x10208, 16, 5, .ro, 0, .head, false⟩

/-- A command is running (R237) -/
def CMD_BUSY : Fld := ⟨0x10208, 21, 1, .ro, 0, .head, false⟩

/-- Firmware copy of the label's LAYER_COUNT, 1–16; 0 acts as 1, values above 16 act as 16 (R237) -/
def LAYER_COUNT : Fld := ⟨0x10208, 22, 5, .rw, 1, .head, false⟩

/-- HSTATE changed (R237) -/
def STATE_CHANGE : Fld := ⟨0x1020c, 0, 1, .w1c, 0, .head, false⟩

/-- R219 (R237) -/
def CMD_DONE : Fld := ⟨0x1020c, 1, 1, .w1c, 0, .head, false⟩

/-- R219 (R237) -/
def CMD_FAIL : Fld := ⟨0x1020c, 2, 1, .w1c, 0, .head, false⟩

/-- R219 (R237) -/
def CMD_REFUSED : Fld := ⟨0x1020c, 3, 1, .w1c, 0, .head, false⟩

/-- R228 (R237) -/
def FOCUS_LOST : Fld := ⟨0x1020c, 4, 1, .w1c, 0, .head, false⟩

/-- R233 (R237) -/
def TRACK_LOST : Fld := ⟨0x1020c, 5, 1, .w1c, 0, .head, false⟩

/-- R233 (R237) -/
def OFF_TRACK : Fld := ⟨0x1020c, 6, 1, .w1c, 0, .head, false⟩

/-- R222 (R237) -/
def WEDGE_INVALID : Fld := ⟨0x1020c, 7, 1, .w1c, 0, .head, false⟩

/-- R225 (R237) -/
def BAND_SLIP : Fld := ⟨0x1020c, 8, 1, .w1c, 0, .head, false⟩

/-- R225 (R237) -/
def ID_BAD : Fld := ⟨0x1020c, 9, 1, .w1c, 0, .head, false⟩

/-- R225 (R237) -/
def LAYER_MISMATCH : Fld := ⟨0x1020c, 10, 1, .w1c, 0, .head, false⟩

/-- R234 (R237) -/
def HOLD_TIMEOUT : Fld := ⟨0x1020c, 11, 1, .w1c, 0, .head, false⟩

/-- R235 (R237) -/
def WRITE_INHIBITED : Fld := ⟨0x1020c, 12, 1, .w1c, 0, .head, false⟩

/-- R236 (R237) -/
def START_REFUSED : Fld := ⟨0x1020c, 13, 1, .w1c, 0, .head, false⟩

/-- R236 (R237) -/
def INPUT_FAULT : Fld := ⟨0x1020c, 14, 1, .w1c, 0, .head, false⟩

/-- FAULT was entered (R237) -/
def FAULT_ENTERED : Fld := ⟨0x1020c, 15, 1, .w1c, 0, .head, false⟩

/-- Loop map (R237) -/
def FOCUS_LOOP : Fld := ⟨0x10210, 0, 5, .rw, 0, .head, false⟩

/-- Loop map (R237) -/
def TRACK_LOOP : Fld := ⟨0x10210, 5, 5, .rw, 1, .head, false⟩

/-- Sled-follow loop (R237) -/
def FOLLOW_LOOP : Fld := ⟨0x10210, 10, 5, .rw, 2, .head, false⟩

/-- Loop map (R237) -/
def TILT_R_LOOP : Fld := ⟨0x10210, 15, 5, .rw, 3, .head, false⟩

/-- Loop map (R237) -/
def TILT_T_LOOP : Fld := ⟨0x10210, 20, 5, .rw, 4, .head, false⟩

/-- Loop map (R237) -/
def SA_LOOP : Fld := ⟨0x10210, 25, 5, .rw, 5, .head, false⟩

/-- Sweep start and retract value, signed (R237) -/
def FSW_START : Fld := ⟨0x10214, 0, 32, .rw, 3221225472, .head, false⟩

/-- Sweep end, signed (R237) -/
def FSW_END : Fld := ⟨0x10218, 0, 32, .rw, 1073741823, .head, false⟩

/-- Sweep increment per focus sample, unsigned (R237) -/
def FSW_STEP : Fld := ⟨0x1021c, 0, 32, .rw, 4096, .head, false⟩

/-- FOCUS_SUM units (R237) -/
def FSUM_CAP : Fld := ⟨0x10220, 0, 16, .rw, 8192, .head, false⟩

/-- FOCUS_SUM units (R237) -/
def FSUM_LOCK : Fld := ⟨0x10220, 16, 16, .rw, 12288, .head, false⟩

/-- FOCUS_SUM units (R237) -/
def FSUM_LOSS : Fld := ⟨0x10224, 0, 16, .rw, 4096, .head, false⟩

/-- FOCUS_ERR units (R237) -/
def FE_LOCK : Fld := ⟨0x10224, 16, 16, .rw, 1024, .head, false⟩

/-- Samples; 0 acts as 1 (R237) -/
def FLOCK_N : Fld := ⟨0x10228, 0, 8, .rw, 16, .head, false⟩

/-- Samples; 0 acts as 1 (R237) -/
def FLOSS_N : Fld := ⟨0x10228, 8, 8, .rw, 8, .head, false⟩

/-- µs, 1–65 535; 0 acts as 1 (R237) -/
def FLOCK_TO : Fld := ⟨0x10228, 16, 16, .rw, 5000, .head, false⟩

/-- ACT units, signed (R237) -/
def KICK_AMP : Fld := ⟨0x1022c, 0, 32, .rw, 0, .head, false⟩

/-- ACT units, signed (R237) -/
def BRAKE_AMP : Fld := ⟨0x10230, 0, 32, .rw, 0, .head, false⟩

/-- ns, 100–65 535; rounded up to 100 ns (R237) -/
def KICK_T : Fld := ⟨0x10234, 0, 16, .rw, 20000, .head, false⟩

/-- As KICK_T (R237) -/
def BRAKE_T : Fld := ⟨0x10234, 16, 16, .rw, 20000, .head, false⟩

/-- µs; 0 acts as 1 (R237) -/
def JUMP_TO : Fld := ⟨0x10238, 0, 16, .rw, 2000, .head, false⟩

/-- ms; 0 acts as 1 (R237) -/
def SA_TO : Fld := ⟨0x10238, 16, 16, .rw, 200, .head, false⟩

/-- In units of the SA loop input m (R237) -/
def SA_WIN : Fld := ⟨0x1023c, 0, 32, .rw, 65536, .head, false⟩

/-- 2^−28 band, signed (R237) -/
def TRK_OFS : Fld := ⟨0x10240, 0, 32, .rw, 0, .head, false⟩

/-- 2^−28 band (24.0 nm) (R237) -/
def TLOCK_THR : Fld := ⟨0x10244, 0, 32, .rw, 838861, .head, false⟩

/-- 48.0 nm (R237) -/
def OT_THR : Fld := ⟨0x10248, 0, 32, .rw, 1677722, .head, false⟩

/-- 40.0 nm (R237) -/
def WI_THR : Fld := ⟨0x1024c, 0, 32, .rw, 1398101, .head, false⟩

/-- 0.25 band (R237) -/
def LOSS_THR : Fld := ⟨0x10250, 0, 32, .rw, 67108864, .head, false⟩

/-- Wedges; 0 acts as 1 (R237) -/
def TLOCK_N : Fld := ⟨0x10254, 0, 8, .rw, 8, .head, false⟩

/-- Wedges; 0 acts as 1 (R237) -/
def INV_N : Fld := ⟨0x10254, 8, 8, .rw, 8, .head, false⟩

/-- Wedges; 0 acts as 1 (R237) -/
def WI_INV : Fld := ⟨0x10254, 16, 8, .rw, 2, .head, false⟩

/-- Bands; values above 4 act as 4 (R237) -/
def FINE_MAX : Fld := ⟨0x10254, 24, 3, .rw, 4, .head, false⟩

/-- 0 acts as 1 (R237) -/
def SEEK_TRIES : Fld := ⟨0x10254, 28, 4, .rw, 3, .head, false⟩

/-- µs (R237) -/
def SETTLE_T : Fld := ⟨0x10258, 0, 16, .rw, 2000, .head, false⟩

/-- µs; 0 acts as 1 (R237) -/
def TLOCK_TO : Fld := ⟨0x10258, 16, 16, .rw, 20000, .head, false⟩

/-- µs; 0 acts as 1 (R237) -/
def ID_TO : Fld := ⟨0x1025c, 0, 16, .rw, 5000, .head, false⟩

/-- µs; 0 acts as 1 (R237) -/
def HOLD_MAX : Fld := ⟨0x1025c, 16, 16, .rw, 500, .head, false⟩

/-- Sled encoder count at the inner edge of band 0, signed (R237) -/
def SLED_B0 : Fld := ⟨0x10260, 0, 32, .rw, 0, .head, false⟩

/-- Encoder counts per band, unsigned 16.16 (R237) -/
def SLED_PER_BAND : Fld := ⟨0x10264, 0, 32, .rw, 0, .head, false⟩

/-- Target extended index, signed (R237) -/
def TRACK_E : Fld := ⟨0x10268, 0, 14, .ro, 0, .head, false⟩

/-- R223 (R237) -/
def RHO : Fld := ⟨0x10280, 0, 32, .ro, 0, .head, false⟩

/-- e of R224, signed (R237) -/
def BAND_E : Fld := ⟨0x10284, 0, 14, .ro, 0, .head, false⟩

/-- R226, signed (R237) -/
def TE : Fld := ⟨0x10288, 0, 32, .ro, 0, .head, false⟩

/-- Last good even word (R237) -/
def ID_EVEN : Fld := ⟨0x1028c, 0, 16, .ro, 0, .head, false⟩

/-- Last good odd word (R237) -/
def ID_ODD : Fld := ⟨0x1028c, 16, 16, .ro, 0, .head, false⟩

/-- R222, last complete wedge (R237) -/
def WEDGE_CODE : Fld := ⟨0x10290, 0, 3, .ro, 0, .head, false⟩

/-- Its wedge number (R237) -/
def WEDGE_NUM : Fld := ⟨0x10290, 8, 8, .ro, 0, .head, false⟩

/-- Saturates (R237) -/
def WEDGE_INV_COUNT : Fld := ⟨0x10294, 0, 16, .ro, 0, .head, false⟩

/-- Saturates (R237) -/
def OFF_TRACK_COUNT : Fld := ⟨0x10294, 16, 16, .ro, 0, .head, false⟩

/-- Saturates (R237) -/
def FOCUS_LOST_COUNT : Fld := ⟨0x10298, 0, 16, .ro, 0, .head, false⟩

/-- Saturates (R237) -/
def TRACK_LOST_COUNT : Fld := ⟨0x10298, 16, 16, .ro, 0, .head, false⟩

/-- Saturates (R237) -/
def HOLD_COUNT : Fld := ⟨0x1029c, 0, 16, .ro, 0, .head, false⟩

/-- Saturates (R237) -/
def INHIBIT_COUNT : Fld := ⟨0x1029c, 16, 16, .ro, 0, .head, false⟩

/-- Every field of the block. -/
def all : List Fld :=
  [HCMD, TARGET_BAND, TARGET_LAYER, CAP_N, S1_KIND, WI_ON_HOLD, HSTATE, FSTAT, TSTAT, BAND_KNOWN, WRITE_INHIBIT, LAYER]
  ++ [LAST_CODE, CMD_BUSY, LAYER_COUNT, STATE_CHANGE, CMD_DONE, CMD_FAIL, CMD_REFUSED, FOCUS_LOST, TRACK_LOST, OFF_TRACK, WEDGE_INVALID, BAND_SLIP]
  ++ [ID_BAD, LAYER_MISMATCH, HOLD_TIMEOUT, WRITE_INHIBITED, START_REFUSED, INPUT_FAULT, FAULT_ENTERED, FOCUS_LOOP, TRACK_LOOP, FOLLOW_LOOP, TILT_R_LOOP, TILT_T_LOOP]
  ++ [SA_LOOP, FSW_START, FSW_END, FSW_STEP, FSUM_CAP, FSUM_LOCK, FSUM_LOSS, FE_LOCK, FLOCK_N, FLOSS_N, FLOCK_TO, KICK_AMP]
  ++ [BRAKE_AMP, KICK_T, BRAKE_T, JUMP_TO, SA_TO, SA_WIN, TRK_OFS, TLOCK_THR, OT_THR, WI_THR, LOSS_THR, TLOCK_N]
  ++ [INV_N, WI_INV, FINE_MAX, SEEK_TRIES, SETTLE_T, TLOCK_TO, ID_TO, HOLD_MAX, SLED_B0, SLED_PER_BAND, TRACK_E, RHO]
  ++ [BAND_E, TE, ID_EVEN, ID_ODD, WEDGE_CODE, WEDGE_NUM, WEDGE_INV_COUNT, OFF_TRACK_COUNT, FOCUS_LOST_COUNT, TRACK_LOST_COUNT, HOLD_COUNT, INHIBIT_COUNT]

end LandReg

/-! ### SpinReg: R263 (09_spindle_drive.md) -/

namespace SpinReg

/-- 0 NOP, 1 ALIGN_RUN; 2–7 refused with SCMD_REFUSED (R263) -/
def SCMD : Fld := ⟨0x20000, 0, 3, .wo, 0, .head, false⟩

/-- R256 (R263) -/
def STOP_MODE : Fld := ⟨0x20000, 4, 2, .rw, 0, .head, false⟩

/-- R254 (R263) -/
def KE_CHECK_EN : Fld := ⟨0x20000, 6, 1, .rw, 1, .head, false⟩

/-- R247 (R263) -/
def SSTATE : Fld := ⟨0x20004, 0, 3, .ro, 0, .head, false⟩

/-- R240 (R263) -/
def STOPPED : Fld := ⟨0x20004, 3, 1, .ro, 0, .head, false⟩

/-- R246 (R263) -/
def AT_SPEED : Fld := ⟨0x20004, 4, 1, .ro, 0, .head, false⟩

/-- R239 (R263) -/
def MVALID : Fld := ⟨0x20004, 5, 1, .ro, 0, .head, false⟩

/-- R243 (R263) -/
def VOLT_LIMITED : Fld := ⟨0x20004, 6, 1, .ro, 0, .head, false⟩

/-- R245 (R263) -/
def REGEN_LIMITED : Fld := ⟨0x20004, 7, 1, .ro, 0, .head, false⟩

/-- R258 (R263) -/
def CHOP_BAD : Fld := ⟨0x20004, 8, 1, .ro, 0, .head, false⟩

/-- R247 (R263) -/
def CATCH_RUN : Fld := ⟨0x20004, 9, 1, .ro, 0, .head, false⟩

/-- R253 (R263) -/
def KE_VALID : Fld := ⟨0x20004, 10, 1, .ro, 0, .head, false⟩

/-- R253 (R263) -/
def KE_SIGN_OK : Fld := ⟨0x20004, 11, 1, .ro, 0, .head, false⟩

/-- 0 OK, 1 CATCH_SIGN, 2 CATCH_TIMEOUT, 3 CATCH_ANGLE, 4 PROBE_BAD, 5 ANGLE_LOST, 6 SPIN_TIMEOUT, 7 OVERCURRENT, 8 OVERVOLTAGE, 9 REFUSED, 10 ABORTED; 11–15 reserved (R263) -/
def SCODE : Fld := ⟨0x20004, 12, 4, .ro, 0, .head, false⟩

/-- R248 (R263) -/
def STATE_CHANGE : Fld := ⟨0x20008, 0, 1, .w1c, 0, .head, false⟩

/-- R249 (R263) -/
def CATCH_DONE : Fld := ⟨0x20008, 1, 1, .w1c, 0, .head, false⟩

/-- R249 (R263) -/
def CATCH_FAILED : Fld := ⟨0x20008, 2, 1, .w1c, 0, .head, false⟩

/-- R253 (R263) -/
def KE_DONE : Fld := ⟨0x20008, 3, 1, .w1c, 0, .head, false⟩

/-- R253 (R263) -/
def KE_OUT : Fld := ⟨0x20008, 4, 1, .w1c, 0, .head, false⟩

/-- R253 (R263) -/
def KE_SIGN : Fld := ⟨0x20008, 5, 1, .w1c, 0, .head, false⟩

/-- R243 (R263) -/
def VLIM : Fld := ⟨0x20008, 6, 1, .w1c, 0, .head, false⟩

/-- R245 (R263) -/
def REGEN_LIM : Fld := ⟨0x20008, 7, 1, .w1c, 0, .head, false⟩

/-- R246 (R263) -/
def SPEED_DEV : Fld := ⟨0x20008, 8, 1, .w1c, 0, .head, false⟩

/-- R246 (R263) -/
def SPIN_TIMEOUT : Fld := ⟨0x20008, 9, 1, .w1c, 0, .head, false⟩

/-- R240 (R263) -/
def ANGLE_FAULT : Fld := ⟨0x20008, 10, 1, .w1c, 0, .head, false⟩

/-- R260 (R263) -/
def OC_TRIP : Fld := ⟨0x20008, 11, 1, .w1c, 0, .head, false⟩

/-- R259 (R263) -/
def OV_TRIP : Fld := ⟨0x20008, 12, 1, .w1c, 0, .head, false⟩

/-- R259 (R263) -/
def OV_PERSIST : Fld := ⟨0x20008, 13, 1, .w1c, 0, .head, false⟩

/-- R258 (R263) -/
def CHOP_FAULT : Fld := ⟨0x20008, 14, 1, .w1c, 0, .head, false⟩

/-- R258; writing 1 also clears the latch (R263) -/
def CHOP_SILENT : Fld := ⟨0x20008, 15, 1, .w1c, 0, .head, false⟩

/-- INPUTS[5] rose (R263) -/
def BRIDGE_FAULT : Fld := ⟨0x20008, 16, 1, .w1c, 0, .head, false⟩

/-- R261 (R263) -/
def ALIGN_DONE : Fld := ⟨0x20008, 17, 1, .w1c, 0, .head, false⟩

/-- R261 (R263) -/
def SCMD_REFUSED : Fld := ⟨0x20008, 18, 1, .w1c, 0, .head, false⟩

/-- R253 (R263) -/
def PROBE_BAD : Fld := ⟨0x20008, 19, 1, .w1c, 0, .head, false⟩

/-- Target speed, unsigned 8.24 (R263) -/
def SPD_TARGET : Fld := ⟨0x2000c, 0, 32, .rw, 56294995, .head, false⟩

/-- R245 (R263) -/
def SPD_MAX : Fld := ⟨0x20010, 0, 32, .rw, 56294995, .head, false⟩

/-- Profile step per speed sample (R263) -/
def SPD_STEP : Fld := ⟨0x20014, 0, 32, .rw, 3518, .head, false⟩

/-- R239, signed (R263) -/
def W_M : Fld := ⟨0x20018, 0, 32, .ro, 0, .head, false⟩

/-- ω_cmd (R263) -/
def W_CMD : Fld := ⟨0x2001c, 0, 32, .ro, 0, .head, false⟩

/-- θm at the last update (R263) -/
def MOTOR_ANG : Fld := ⟨0x20020, 0, 24, .ro, 0, .head, false⟩

/-- R239 (R263) -/
def MGP : Fld := ⟨0x20024, 0, 4, .rw, 2, .head, false⟩

/-- R239 (R263) -/
def MGW : Fld := ⟨0x20024, 4, 4, .rw, 11, .head, false⟩

/-- 1–32; 0 acts as 1, above 32 acts as 32 (R263) -/
def POLE_PAIRS : Fld := ⟨0x20024, 8, 6, .rw, 4, .head, false⟩

/-- µs; 0 acts as 1 (R263) -/
def MHOLD : Fld := ⟨0x20024, 16, 8, .rw, 20, .head, false⟩

/-- R242 (R263) -/
def ELEC_OFS : Fld := ⟨0x20028, 0, 24, .rw, 0, .head, false⟩

/-- R261 (R263) -/
def ELEC_OFS_MEAS : Fld := ⟨0x2002c, 0, 24, .ro, 0, .head, false⟩

/-- R243 (R263) -/
def V_LIM : Fld := ⟨0x20030, 0, 32, .rw, 1177857749, .head, false⟩

/-- 4 096 = nominal (R263) -/
def KE_RATIO : Fld := ⟨0x20034, 0, 16, .ro, 0, .head, false⟩

/-- R253 (R263) -/
def KE_LO : Fld := ⟨0x20038, 0, 16, .rw, 3482, .head, false⟩

/-- R253 (R263) -/
def KE_HI : Fld := ⟨0x20038, 16, 16, .rw, 4710, .head, false⟩

/-- R253; 0 gives KE_VALID = 0 (R263) -/
def PROBE_K : Fld := ⟨0x2003c, 0, 32, .rw, 0, .head, false⟩

/-- R255, unsigned 16.16 (R263) -/
def VQ_PER_W : Fld := ⟨0x20040, 0, 32, .rw, 0, .head, false⟩

/-- Frames; 0 acts as 1 (R263) -/
def PROBE_FR : Fld := ⟨0x20044, 0, 8, .rw, 100, .head, false⟩

/-- Frames; 0 acts as 1 (R263) -/
def PROBE_SETTLE : Fld := ⟨0x20044, 8, 8, .rw, 200, .head, false⟩

/-- R253, i_q units (R263) -/
def PROBE_MIN : Fld := ⟨0x20048, 0, 32, .rw, 1048576, .head, false⟩

/-- 10 rpm (R263) -/
def STOP_W : Fld := ⟨0x2004c, 0, 32, .rw, 46912, .head, false⟩

/-- 100 rpm (R263) -/
def CATCH_THR : Fld := ⟨0x20050, 0, 32, .rw, 469125, .head, false⟩

/-- 1 000 rpm (R263) -/
def KE_CHECK_W : Fld := ⟨0x20054, 0, 32, .rw, 4691250, .head, false⟩

/-- ppm (R263) -/
def AT_TOL : Fld := ⟨0x20058, 0, 16, .rw, 1000, .head, false⟩

/-- Speed samples; 0 acts as 1 (R263) -/
def AT_N : Fld := ⟨0x20058, 16, 8, .rw, 40, .head, false⟩

/-- ms; 0 acts as 1 (R263) -/
def STOP_CONF : Fld := ⟨0x20058, 24, 8, .rw, 10, .head, false⟩

/-- ms; 0 acts as 1 (R263) -/
def SPIN_TO : Fld := ⟨0x2005c, 0, 16, .rw, 8000, .head, false⟩

/-- ms; 0 acts as 1 (R263) -/
def CATCH_TO : Fld := ⟨0x2005c, 16, 16, .rw, 60000, .head, false⟩

/-- R241 (R263) -/
def VB_CHOP : Fld := ⟨0x20060, 0, 16, .rw, 27000, .head, false⟩

/-- R245, R259 (R263) -/
def VB_REGEN : Fld := ⟨0x20060, 16, 16, .rw, 28500, .head, false⟩

/-- R259 (R263) -/
def VB_OV : Fld := ⟨0x20064, 0, 16, .rw, 30000, .head, false⟩

/-- Frames; 0 acts as 1 (R263) -/
def OV_N : Fld := ⟨0x20064, 16, 4, .rw, 4, .head, false⟩

/-- Frames; 0 acts as 1 (R263) -/
def OC_N : Fld := ⟨0x20064, 20, 4, .rw, 2, .head, false⟩

/-- Phase current field units (R263) -/
def OC_LIM : Fld := ⟨0x20068, 0, 16, .rw, 16384, .head, false⟩

/-- ms; 0 acts as 1 (R263) -/
def ALIGN_T : Fld := ⟨0x20068, 16, 16, .rw, 500, .head, false⟩

/-- R261, signed (R263) -/
def ALIGN_V : Fld := ⟨0x2006c, 0, 32, .rw, 107374182, .head, false⟩

/-- ns, R244 (R263) -/
def OUT_LEAD : Fld := ⟨0x20070, 0, 16, .rw, 600, .head, false⟩

/-- R241 (R263) -/
def SPD_LOOP : Fld := ⟨0x20074, 0, 5, .rw, 6, .head, false⟩

/-- R241 (R263) -/
def ID_LOOP : Fld := ⟨0x20074, 5, 5, .rw, 7, .head, false⟩

/-- R241 (R263) -/
def IQ_LOOP : Fld := ⟨0x20074, 10, 5, .rw, 8, .head, false⟩

/-- R241 (R263) -/
def CHOP_LOOP : Fld := ⟨0x20074, 15, 5, .rw, 9, .head, false⟩

/-- R242, signed (R263) -/
def I_D : Fld := ⟨0x20078, 0, 32, .ro, 0, .head, false⟩

/-- R242, signed (R263) -/
def I_Q : Fld := ⟨0x2007c, 0, 32, .ro, 0, .head, false⟩

/-- Saturates (R263) -/
def OC_COUNT : Fld := ⟨0x20080, 0, 16, .ro, 0, .head, false⟩

/-- Saturates (R263) -/
def OV_COUNT : Fld := ⟨0x20080, 16, 16, .ro, 0, .head, false⟩

/-- Saturates (R263) -/
def VLIM_COUNT : Fld := ⟨0x20084, 0, 16, .ro, 0, .head, false⟩

/-- Saturates (R263) -/
def CATCH_COUNT : Fld := ⟨0x20084, 16, 16, .ro, 0, .head, false⟩

/-- Every field of the block. -/
def all : List Fld :=
  [SCMD, STOP_MODE, KE_CHECK_EN, SSTATE, STOPPED, AT_SPEED, MVALID, VOLT_LIMITED, REGEN_LIMITED, CHOP_BAD, CATCH_RUN, KE_VALID]
  ++ [KE_SIGN_OK, SCODE, STATE_CHANGE, CATCH_DONE, CATCH_FAILED, KE_DONE, KE_OUT, KE_SIGN, VLIM, REGEN_LIM, SPEED_DEV, SPIN_TIMEOUT]
  ++ [ANGLE_FAULT, OC_TRIP, OV_TRIP, OV_PERSIST, CHOP_FAULT, CHOP_SILENT, BRIDGE_FAULT, ALIGN_DONE, SCMD_REFUSED, PROBE_BAD, SPD_TARGET, SPD_MAX]
  ++ [SPD_STEP, W_M, W_CMD, MOTOR_ANG, MGP, MGW, POLE_PAIRS, MHOLD, ELEC_OFS, ELEC_OFS_MEAS, V_LIM, KE_RATIO]
  ++ [KE_LO, KE_HI, PROBE_K, VQ_PER_W, PROBE_FR, PROBE_SETTLE, PROBE_MIN, STOP_W, CATCH_THR, KE_CHECK_W, AT_TOL, AT_N]
  ++ [STOP_CONF, SPIN_TO, CATCH_TO, VB_CHOP, VB_REGEN, VB_OV, OV_N, OC_N, OC_LIM, ALIGN_T, ALIGN_V, OUT_LEAD]
  ++ [SPD_LOOP, ID_LOOP, IQ_LOOP, CHOP_LOOP, I_D, I_Q, OC_COUNT, OV_COUNT, VLIM_COUNT, CATCH_COUNT]

end SpinReg

/-! ### StepReg: R283 (10_sled_motion.md) -/

namespace StepReg

/-- R272 (R283) -/
def MCMD (g : Nat) : Fld := ⟨0x30000 + 0x100 * g, 0, 4, .wo, 0, .head, false⟩

/-- Microsteps, signed (R283) -/
def MOVE_DIST (g : Nat) : Fld := ⟨0x30004 + 0x100 * g, 0, 32, .rw, 0, .head, false⟩

/-- Unsigned 8.24 microsteps per tick (10.0) (R283) -/
def VMAX (g : Nat) : Fld := ⟨0x30008 + 0x100 * g, 0, 32, .rw, 167772160, .head, false⟩

/-- 2^−32 microsteps per tick² (R283) -/
def AMAX (g : Nat) : Fld := ⟨0x3000c + 0x100 * g, 0, 32, .rw, 4294967, .head, false⟩

/-- 0 IDLE, 1 MOVING, 2 STOPPING, 3 HOMING, 4 HELD (R283) -/
def GSTATE (g : Nat) : Fld := ⟨0x30010 + 0x100 * g, 0, 3, .ro, 0, .head, false⟩

/-- R279; 0 outside homing (R283) -/
def HPHASE (g : Nat) : Fld := ⟨0x30010 + 0x100 * g, 3, 2, .ro, 0, .head, false⟩

/-- 0 firmware, 1 Landing (R283) -/
def OWNER (g : Nat) : Fld := ⟨0x30010 + 0x100 * g, 5, 1, .ro, 0, .head, false⟩

/-- R279 (R283) -/
def HOMED (g : Nat) : Fld := ⟨0x30010 + 0x100 * g, 6, 1, .ro, 0, .head, false⟩

/-- R274 (R283) -/
def ORG_VALID (g : Nat) : Fld := ⟨0x30010 + 0x100 * g, 7, 1, .ro, 0, .head, false⟩

/-- Low switch, debounced (R283) -/
def LIM_LO (g : Nat) : Fld := ⟨0x30010 + 0x100 * g, 8, 1, .ro, 0, .head, false⟩

/-- High switch, debounced (R283) -/
def LIM_HI (g : Nat) : Fld := ⟨0x30010 + 0x100 * g, 9, 1, .ro, 0, .head, false⟩

/-- R277 (R283) -/
def ENC_VALID (g : Nat) : Fld := ⟨0x30010 + 0x100 * g, 10, 1, .ro, 0, .head, false⟩

/-- Nonzero trim applied at the last tick (R283) -/
def TRIM_ACTIVE (g : Nat) : Fld := ⟨0x30010 + 0x100 * g, 11, 1, .ro, 0, .head, false⟩

/-- R273 (R283) -/
def END_CODE (g : Nat) : Fld := ⟨0x30010 + 0x100 * g, 12, 4, .ro, 0, .head, false⟩

/-- A move or homing ended (R283) -/
def MOVE_DONE (g : Nat) : Fld := ⟨0x30014 + 0x100 * g, 0, 1, .w1c, 0, .head, false⟩

/-- R278 (R283) -/
def LIMIT_LO (g : Nat) : Fld := ⟨0x30014 + 0x100 * g, 1, 1, .w1c, 0, .head, false⟩

/-- R278, R280 (R283) -/
def LIMIT_HI (g : Nat) : Fld := ⟨0x30014 + 0x100 * g, 2, 1, .w1c, 0, .head, false⟩

/-- R276 (R283) -/
def STALL (g : Nat) : Fld := ⟨0x30014 + 0x100 * g, 3, 1, .w1c, 0, .head, false⟩

/-- R276 (R283) -/
def LOST_STEP (g : Nat) : Fld := ⟨0x30014 + 0x100 * g, 4, 1, .w1c, 0, .head, false⟩

/-- R278 (R283) -/
def CHATTER (g : Nat) : Fld := ⟨0x30014 + 0x100 * g, 5, 1, .w1c, 0, .head, false⟩

/-- R277 (R283) -/
def ENC_FAULT (g : Nat) : Fld := ⟨0x30014 + 0x100 * g, 6, 1, .w1c, 0, .head, false⟩

/-- R279 (R283) -/
def HOME_DONE (g : Nat) : Fld := ⟨0x30014 + 0x100 * g, 7, 1, .w1c, 0, .head, false⟩

/-- R280 (R283) -/
def HOME_FAIL (g : Nat) : Fld := ⟨0x30014 + 0x100 * g, 8, 1, .w1c, 0, .head, false⟩

/-- R272 (R283) -/
def MCMD_REFUSED (g : Nat) : Fld := ⟨0x30014 + 0x100 * g, 9, 1, .w1c, 0, .head, false⟩

/-- R278 (R283) -/
def TRIM_BLOCKED (g : Nat) : Fld := ⟨0x30014 + 0x100 * g, 10, 1, .w1c, 0, .head, false⟩

/-- R274 (R283) -/
def ORG_LATCHED (g : Nat) : Fld := ⟨0x30014 + 0x100 * g, 11, 1, .w1c, 0, .head, false⟩

/-- 0 hard, 1 ramped (R283) -/
def LIM_MODE (g : Nat) : Fld := ⟨0x30018 + 0x100 * g, 0, 1, .rw, 0, .head, false⟩

/-- R276 (R283) -/
def STALL_STOP (g : Nat) : Fld := ⟨0x30018 + 0x100 * g, 1, 1, .rw, 1, .head, false⟩

/-- 1 active high (R283) -/
def POL_LO (g : Nat) : Fld := ⟨0x30018 + 0x100 * g, 2, 1, .rw, 1, .head, false⟩

/-- 1 active high (R283) -/
def POL_HI (g : Nat) : Fld := ⟨0x30018 + 0x100 * g, 3, 1, .rw, 1, .head, false⟩

/-- R267 (R283) -/
def TRIM_EN (g : Nat) : Fld := ⟨0x30018 + 0x100 * g, 4, 1, .rw, 1, .head, false⟩

/-- Ticks; 0 acts as 1 (R283) -/
def OUT_DIV (g : Nat) : Fld := ⟨0x30018 + 0x100 * g, 8, 8, .rw, 10, .head, false⟩

/-- Ticks, 0–63 (R283) -/
def DEV_LAG (g : Nat) : Fld := ⟨0x30018 + 0x100 * g, 16, 6, .rw, 3, .head, false⟩

/-- Frames; 0 acts as 1 (R283) -/
def DB_N (g : Nat) : Fld := ⟨0x30018 + 0x100 * g, 24, 4, .rw, 8, .head, false⟩

/-- 0 acts as 1 (R283) -/
def CHAT_MAX (g : Nat) : Fld := ⟨0x30018 + 0x100 * g, 28, 4, .rw, 4, .head, false⟩

/-- R266 (R283) -/
def I_RUN (g : Nat) : Fld := ⟨0x3001c + 0x100 * g, 0, 31, .rw, 1073741824, .head, false⟩

/-- R266 (R283) -/
def I_HOLD (g : Nat) : Fld := ⟨0x30020 + 0x100 * g, 0, 31, .rw, 429496730, .head, false⟩

/-- µs; 0 acts as 1 (R283) -/
def HOLD_DELAY (g : Nat) : Fld := ⟨0x30024 + 0x100 * g, 0, 16, .rw, 50000, .head, false⟩

/-- Frames; 0 acts as 1 (R283) -/
def STALL_N (g : Nat) : Fld := ⟨0x30024 + 0x100 * g, 16, 8, .rw, 4, .head, false⟩

/-- Counts per microstep, unsigned 16.16 (R283) -/
def ENC_RATIO (g : Nat) : Fld := ⟨0x30028 + 0x100 * g, 0, 32, .rw, 32000, .head, false⟩

/-- 1/256 count (R283) -/
def LOST_WIN (g : Nat) : Fld := ⟨0x3002c + 0x100 * g, 0, 32, .rw, 16000, .head, false⟩

/-- 1/256 count (R283) -/
def STALL_WIN (g : Nat) : Fld := ⟨0x30030 + 0x100 * g, 0, 32, .rw, 65536, .head, false⟩

/-- Unsigned 8.24 (R283) -/
def HOME_V (g : Nat) : Fld := ⟨0x30034 + 0x100 * g, 0, 32, .rw, 16777216, .head, false⟩

/-- Unsigned 8.24 (R283) -/
def HOME_SLOW (g : Nat) : Fld := ⟨0x30038 + 0x100 * g, 0, 32, .rw, 1677722, .head, false⟩

/-- Microsteps (R283) -/
def HOME_MAX (g : Nat) : Fld := ⟨0x3003c + 0x100 * g, 0, 32, .rw, 2500000, .head, false⟩

/-- Microsteps (R283) -/
def BACKOFF (g : Nat) : Fld := ⟨0x30040 + 0x100 * g, 0, 32, .rw, 51200, .head, false⟩

/-- sat32(⌊(X − X_ORG) / 2^32⌋); ⌊X / 2^32⌋ while ORG_VALID = 0 (R283) -/
def POS (g : Nat) : Fld := ⟨0x30044 + 0x100 * g, 0, 32, .ro, 0, .head, false⟩

/-- R265 (R283) -/
def VEL (g : Nat) : Fld := ⟨0x30048 + 0x100 * g, 0, 32, .ro, 0, .head, false⟩

/-- R275 (R283) -/
def DEV (g : Nat) : Fld := ⟨0x3004c + 0x100 * g, 0, 32, .ro, 0, .head, false⟩

/-- R265 (R283) -/
def A_FF (g : Nat) : Fld := ⟨0x30050 + 0x100 * g, 0, 32, .ro, 0, .head, false⟩

/-- Trim applied at the last tick (R283) -/
def TRIM (g : Nat) : Fld := ⟨0x30054 + 0x100 * g, 0, 32, .ro, 0, .head, false⟩

/-- Saturates (R283) -/
def STALL_COUNT (g : Nat) : Fld := ⟨0x30058 + 0x100 * g, 0, 16, .ro, 0, .head, false⟩

/-- Saturates (R283) -/
def LOST_COUNT (g : Nat) : Fld := ⟨0x30058 + 0x100 * g, 16, 16, .ro, 0, .head, false⟩

/-- Saturates (R283) -/
def LIMIT_COUNT (g : Nat) : Fld := ⟨0x3005c + 0x100 * g, 0, 16, .ro, 0, .head, false⟩

/-- Saturates (R283) -/
def CHATTER_COUNT (g : Nat) : Fld := ⟨0x3005c + 0x100 * g, 16, 16, .ro, 0, .head, false⟩

/-- R268 (R283) -/
def PLAN_N1 (g : Nat) : Fld := ⟨0x30060 + 0x100 * g, 0, 32, .ro, 0, .head, false⟩

/-- R268 (R283) -/
def PLAN_N2 (g : Nat) : Fld := ⟨0x30064 + 0x100 * g, 0, 32, .ro, 0, .head, false⟩

/-- c of R268 (R283) -/
def PLAN_CREEP (g : Nat) : Fld := ⟨0x30068 + 0x100 * g, 0, 1, .ro, 0, .head, false⟩

/-- Every field of one instance of the block. -/
def one (g : Nat) : List Fld :=
  [MCMD g, MOVE_DIST g, VMAX g, AMAX g, GSTATE g, HPHASE g, OWNER g, HOMED g, ORG_VALID g, LIM_LO g, LIM_HI g, ENC_VALID g]
  ++ [TRIM_ACTIVE g, END_CODE g, MOVE_DONE g, LIMIT_LO g, LIMIT_HI g, STALL g, LOST_STEP g, CHATTER g, ENC_FAULT g, HOME_DONE g, HOME_FAIL g, MCMD_REFUSED g]
  ++ [TRIM_BLOCKED g, ORG_LATCHED g, LIM_MODE g, STALL_STOP g, POL_LO g, POL_HI g, TRIM_EN g, OUT_DIV g, DEV_LAG g, DB_N g, CHAT_MAX g, I_RUN g]
  ++ [I_HOLD g, HOLD_DELAY g, STALL_N g, ENC_RATIO g, LOST_WIN g, STALL_WIN g, HOME_V g, HOME_SLOW g, HOME_MAX g, BACKOFF g, POS g, VEL g]
  ++ [DEV g, A_FF g, TRIM g, STALL_COUNT g, LOST_COUNT g, LIMIT_COUNT g, CHATTER_COUNT g, PLAN_N1 g, PLAN_N2 g, PLAN_CREEP g]

/-- Every field of every instance of the block. -/
def all : List Fld := (List.range 2).flatMap one

end StepReg

/-! ### CalReg: R300 (11_calibration.md) -/

namespace CalReg

/-- Job number to arm (R300) -/
def JOB : Fld := ⟨0x70000, 0, 8, .rw, 0, .head, false⟩

/-- R285 (R300) -/
def ARM : Fld := ⟨0x70000, 8, 1, .sc, 0, .head, false⟩

/-- R285 (R300) -/
def CANCEL : Fld := ⟨0x70000, 9, 1, .sc, 0, .head, false⟩

/-- A job is armed or running (R300) -/
def BUSY : Fld := ⟨0x70000, 10, 1, .ro, 0, .head, false⟩

/-- A window of the job has opened (R300) -/
def RUNNING : Fld := ⟨0x70000, 11, 1, .ro, 0, .head, false⟩

/-- R287 (R300) -/
def JSTATUS : Fld := ⟨0x70004, 0, 4, .ro, 0, .head, false⟩

/-- Windows completed (R300) -/
def STEPS_DONE : Fld := ⟨0x70004, 8, 8, .ro, 0, .head, false⟩

/-- R286; saturates (R300) -/
def WIN_IGNORED : Fld := ⟨0x70004, 16, 16, .ro, 0, .head, false⟩

/-- R292 (R300) -/
def JOB_DONE : Fld := ⟨0x70008, 0, 1, .w1c, 0, .head, false⟩

/-- R285, R292 (R300) -/
def JOB_FAIL : Fld := ⟨0x70008, 1, 1, .w1c, 0, .head, false⟩

/-- R295 (R300) -/
def INTERP_DONE : Fld := ⟨0x70008, 2, 1, .w1c, 0, .head, false⟩

/-- R294 (R300) -/
def TEMP_INVALID : Fld := ⟨0x70008, 3, 1, .w1c, 0, .head, false⟩

/-- R293 (R300) -/
def SET_CRC : Fld := ⟨0x70008, 4, 1, .w1c, 0, .head, false⟩

/-- R295 (R300) -/
def SET_DUP : Fld := ⟨0x70008, 5, 1, .w1c, 0, .head, false⟩

/-- R295 (R300) -/
def INTERP_NONE : Fld := ⟨0x70008, 6, 1, .w1c, 0, .head, false⟩

/-- R295 (R300) -/
def CLAMPED : Fld := ⟨0x70008, 7, 1, .w1c, 0, .head, false⟩

/-- R298 (R300) -/
def COMMIT_DONE : Fld := ⟨0x70008, 8, 1, .w1c, 0, .head, false⟩

/-- R295 (R300) -/
def INTERP : Fld := ⟨0x7000c, 0, 1, .sc, 0, .head, false⟩

/-- R295 (R300) -/
def AUTO : Fld := ⟨0x7000c, 1, 1, .rw, 0, .head, false⟩

/-- R296 (R300) -/
def APPLY_PWR : Fld := ⟨0x7000c, 2, 1, .rw, 1, .head, false⟩

/-- R294 (R300) -/
def TSRC : Fld := ⟨0x7000c, 3, 1, .rw, 0, .head, false⟩

/-- R294 (R300) -/
def TEMP_WORD : Fld := ⟨0x7000c, 4, 3, .rw, 0, .head, false⟩

/-- R294 (R300) -/
def TEMP_ITEM : Fld := ⟨0x7000c, 8, 8, .rw, 32, .head, false⟩

/-- 1/256 °C; 0 acts as 1 (R300) -/
def T_STEP : Fld := ⟨0x7000c, 16, 16, .rw, 256, .head, false⟩

/-- 1/256 °C, signed (R300) -/
def TEMP_FW : Fld := ⟨0x70010, 0, 32, .rw, 0, .head, false⟩

/-- R294 (R300) -/
def TEMP : Fld := ⟨0x70014, 0, 32, .ro, 0, .head, false⟩

/-- R295 (R300) -/
def TEMP_LAST : Fld := ⟨0x70018, 0, 32, .ro, 0, .head, false⟩

/-- R297, R298 (R300) -/
def SLOT : Fld := ⟨0x7001c, 0, 3, .rw, 0, .head, false⟩

/-- [3] SAMPLER, [4] POSITION, [5] POWER (R300) -/
def KINDS : Fld := ⟨0x7001c, 3, 3, .rw, 0, .head, false⟩

/-- R298 (R300) -/
def COMMIT : Fld := ⟨0x7001c, 6, 1, .sc, 0, .head, false⟩

/-- R297 (R300) -/
def LOAD_INTERP : Fld := ⟨0x7001c, 7, 1, .sc, 0, .head, false⟩

/-- R297 (R300) -/
def LOAD_SLOT : Fld := ⟨0x7001c, 8, 1, .sc, 0, .head, false⟩

/-- R298 (R300) -/
def ERASE : Fld := ⟨0x7001c, 9, 1, .sc, 0, .head, false⟩

/-- R298 (R300) -/
def RB_TEMP : Fld := ⟨0x70020, 0, 32, .rw, 0, .head, false⟩

/-- Per kind, 8 bits (SAMPLER, POSITION, POWER): [2:0] slot a, [5:3] slot b, [6] clamped, [7] none (R300) -/
def INTERP_USED : Fld := ⟨0x70024, 0, 24, .ro, 0, .head, false⟩

/-- Slots usable for some kind at the last interpolation (R300) -/
def SLOT_VALID : Fld := ⟨0x70028, 0, 8, .ro, 0, .head, false⟩

/-- R293 (R300) -/
def SLOT_CRC_BAD : Fld := ⟨0x70028, 8, 8, .ro, 0, .head, false⟩

/-- R298 (R300) -/
def COMMIT_SEQ : Fld := ⟨0x7002c, 0, 32, .ro, 0, .cold, true⟩

/-- R291 (R300) -/
def INJ_F : Fld := ⟨0x70030, 0, 32, .rw, 0, .head, false⟩

/-- R291 (R300) -/
def INJ_AMP : Fld := ⟨0x70034, 0, 32, .rw, 0, .head, false⟩

/-- Sampler s, 0–32; R296 (R300) -/
def S_GAIN (i : Nat) : Fld := ⟨0x70100 + 8 * i, 0, 16, .rw, 4096, .head, false⟩

/-- R122 (R300) -/
def S_OFF (i : Nat) : Fld := ⟨0x70100 + 8 * i, 16, 12, .rw, 0, .head, false⟩

/-- 1/4 096 sample period, signed (R300) -/
def S_SKEW (i : Nat) : Fld := ⟨0x70104 + 8 * i, 0, 16, .rw, 0, .head, false⟩

/-- Every field of the block. -/
def all : List Fld :=
  [JOB, ARM, CANCEL, BUSY, RUNNING, JSTATUS, STEPS_DONE, WIN_IGNORED, JOB_DONE, JOB_FAIL, INTERP_DONE, TEMP_INVALID]
  ++ [SET_CRC, SET_DUP, INTERP_NONE, CLAMPED, COMMIT_DONE, INTERP, AUTO, APPLY_PWR, TSRC, TEMP_WORD, TEMP_ITEM, T_STEP]
  ++ [TEMP_FW, TEMP, TEMP_LAST, SLOT, KINDS, COMMIT, LOAD_INTERP, LOAD_SLOT, ERASE, RB_TEMP, INTERP_USED, SLOT_VALID]
  ++ [SLOT_CRC_BAD, COMMIT_SEQ, INJ_F, INJ_AMP]
  ++ (List.range 33).flatMap (fun i => [S_GAIN i, S_OFF i, S_SKEW i])

end CalReg

/-- Every field of the scope. -/
def headFields : List Fld :=
  AngleReg.all ++ RiserReg.all ++ BeamReg.all ++ WeftReg.all ++ WriteReg.all ++ LoopReg.all ++ LandReg.all ++ SpinReg.all ++ StepReg.all ++ CalReg.all

end Sys2Proof.Machine
end

