-- ==== Sys2Proof/Machine/FieldsPkg.lean ====
section
/-! DEFINITION. The fields of the package block (R499, R500, R438, R439, R459, R460, R331, R366), their offsets counted from address 0. Each definition is one row of the spec's register tables. -/

namespace Sys2Proof.Machine

/-! ### SetReg: R331 (12_archive_sets.md) -/

namespace SetReg

/-- R305 (R331) -/
def CMD (s : Nat) : Fld := ⟨0x4000 + 0x100 * s, 0, 4, .wo, 0, .warm, false⟩

/-- R305 (R331) -/
def MEMBER (s : Nat) : Fld := ⟨0x4000 + 0x100 * s, 4, 5, .wo, 0, .warm, false⟩

/-- R305 (R331) -/
def DROP (s : Nat) : Fld := ⟨0x4000 + 0x100 * s, 9, 1, .wo, 0, .warm, false⟩

/-- R304 (R331) -/
def SSTATE (s : Nat) : Fld := ⟨0x4004 + 0x100 * s, 0, 3, .ro, 0, .warm, false⟩

/-- R302 (R331) -/
def LOCAL (s : Nat) : Fld := ⟨0x4004 + 0x100 * s, 3, 1, .ro, 0, .warm, false⟩

/-- R301 (R331) -/
def HOME (s : Nat) : Fld := ⟨0x4004 + 0x100 * s, 4, 3, .ro, 0, .warm, false⟩

/-- R301 (R331) -/
def N (s : Nat) : Fld := ⟨0x4004 + 0x100 * s, 7, 6, .ro, 0, .warm, false⟩

/-- R305 (R331) -/
def CMD_STATUS (s : Nat) : Fld := ⟨0x4004 + 0x100 * s, 16, 4, .ro, 0, .warm, false⟩

/-- [20] split, [21] SUSPEND, [22] home tile down, [23] journal (R331) -/
def SUSP_CAUSE (s : Nat) : Fld := ⟨0x4004 + 0x100 * s, 20, 4, .ro, 0, .warm, false⟩

/-- ASSEMBLING has been left (R331) -/
def ONLINE_DONE (s : Nat) : Fld := ⟨0x4004 + 0x100 * s, 24, 1, .ro, 0, .cold, true⟩

/-- R303 (R331) -/
def PRESENT (s : Nat) : Fld := ⟨0x4008 + 0x100 * s, 0, 32, .ro, 4294967295, .cold, true⟩

/-- R303 (R331) -/
def REPLACING (s : Nat) : Fld := ⟨0x400c + 0x100 * s, 0, 32, .ro, 0, .cold, true⟩

/-- Rebuilt by replay (R331) -/
def WSEQ_NEXT_LO (s : Nat) : Fld := ⟨0x4010 + 0x100 * s, 0, 32, .ro, 1, .warm, false⟩

/-- The field WSEQ_NEXT_HI. (R331) -/
def WSEQ_NEXT_HI (s : Nat) : Fld := ⟨0x4014 + 0x100 * s, 0, 8, .ro, 0, .warm, false⟩

/-- Of the last checkpoint (R331) -/
def WSEQ_AT_LO (s : Nat) : Fld := ⟨0x4018 + 0x100 * s, 0, 32, .ro, 0, .cold, true⟩

/-- The field WSEQ_AT_HI. (R331) -/
def WSEQ_AT_HI (s : Nat) : Fld := ⟨0x401c + 0x100 * s, 0, 8, .ro, 0, .cold, true⟩

/-- R315 (R331) -/
def JSTART (s : Nat) : Fld := ⟨0x4020 + 0x100 * s, 0, 32, .ro, 0, .cold, true⟩

/-- Free words (R331) -/
def JFREE (s : Nat) : Fld := ⟨0x4024 + 0x100 * s, 0, 32, .ro, 0, .warm, false⟩

/-- R315 (R331) -/
def JSEQ_NEXT (s : Nat) : Fld := ⟨0x4028 + 0x100 * s, 0, 16, .ro, 0, .warm, false⟩

/-- Stripes PARITY_PENDING (R331) -/
def PENDING (s : Nat) : Fld := ⟨0x4028 + 0x100 * s, 16, 16, .ro, 0, .warm, false⟩

/-- Low word of the last CHECKPOINT_SEQ (R331) -/
def CKPT_SEQ (s : Nat) : Fld := ⟨0x402c + 0x100 * s, 0, 32, .ro, 0, .cold, true⟩

/-- R304 (R331) -/
def STATE_CHANGE (s : Nat) : Fld := ⟨0x4030 + 0x100 * s, 0, 1, .w1c, 0, .warm, false⟩

/-- R305 (R331) -/
def CMD_DONE (s : Nat) : Fld := ⟨0x4030 + 0x100 * s, 1, 1, .w1c, 0, .warm, false⟩

/-- R305 (R331) -/
def CMD_REFUSED (s : Nat) : Fld := ⟨0x4030 + 0x100 * s, 2, 1, .w1c, 0, .warm, false⟩

/-- R317 (R331) -/
def REPLAY_DONE (s : Nat) : Fld := ⟨0x4030 + 0x100 * s, 3, 1, .w1c, 0, .warm, false⟩

/-- R317 (R331) -/
def PARITY_PENDING (s : Nat) : Fld := ⟨0x4030 + 0x100 * s, 4, 1, .w1c, 0, .warm, false⟩

/-- Replay voided stripes (R331) -/
def VOIDED (s : Nat) : Fld := ⟨0x4030 + 0x100 * s, 5, 1, .w1c, 0, .warm, false⟩

/-- R314 (R331) -/
def MIRROR_LAG (s : Nat) : Fld := ⟨0x4030 + 0x100 * s, 6, 1, .w1c, 0, .warm, false⟩

/-- R315 (R331) -/
def JOURNAL_FULL (s : Nat) : Fld := ⟨0x4030 + 0x100 * s, 7, 1, .w1c, 0, .warm, false⟩

/-- R319 (R331) -/
def MAP_FULL (s : Nat) : Fld := ⟨0x4030 + 0x100 * s, 8, 1, .w1c, 0, .warm, false⟩

/-- Every field of one instance of the block. -/
def one (s : Nat) : List Fld :=
  [CMD s, MEMBER s, DROP s, SSTATE s, LOCAL s, HOME s, N s, CMD_STATUS s, SUSP_CAUSE s, ONLINE_DONE s, PRESENT s, REPLACING s]
  ++ [WSEQ_NEXT_LO s, WSEQ_NEXT_HI s, WSEQ_AT_LO s, WSEQ_AT_HI s, JSTART s, JFREE s, JSEQ_NEXT s, PENDING s, CKPT_SEQ s, STATE_CHANGE s, CMD_DONE s, CMD_REFUSED s]
  ++ [REPLAY_DONE s, PARITY_PENDING s, VOIDED s, MIRROR_LAG s, JOURNAL_FULL s, MAP_FULL s]

/-- Every field of every instance of the block. -/
def all : List Fld := (List.range 8).flatMap one

end SetReg

/-! ### HostReg: R366 (13_host_queueing.md) -/

namespace HostReg

/-- R359 (R366) -/
def PS_REQ : Fld := ⟨0x5000, 0, 3, .ro, 0, .warm, false⟩

/-- Written by firmware (R366) -/
def PS_CURRENT : Fld := ⟨0x5000, 4, 3, .rw, 0, .warm, false⟩

/-- An autonomous transition requested PS_REQ (R366) -/
def APST_ACTIVE : Fld := ⟨0x5000, 8, 1, .ro, 0, .warm, false⟩

/-- R359 (R366) -/
def PS_CHANGE : Fld := ⟨0x5004, 0, 1, .w1c, 0, .warm, false⟩

/-- Bit p: port p attention pending (R366) -/
def ALERT_SRC : Fld := ⟨0x5008, 0, 16, .ro, 0, .warm, false⟩

/-- Bit 16 + p enables bit p (R366) -/
def ALERT_MASK : Fld := ⟨0x5008, 16, 16, .rw, 65535, .warm, false⟩

/-- R337, bits [31:0] (R366) -/
def NS_SIZE_L (s : Nat) : Fld := ⟨0x5100 + 0x10 * s, 0, 32, .rw, 0, .warm, false⟩

/-- Bits [39:32] (R366) -/
def NS_SIZE_H (s : Nat) : Fld := ⟨0x5104 + 0x10 * s, 0, 8, .rw, 0, .warm, false⟩

/-- R345, in the home stack (R366) -/
def CI_BASE (s : Nat) : Fld := ⟨0x5108 + 0x10 * s, 0, 23, .rw, 0, .warm, false⟩

/-- R345; 0 acts as 1 (R366) -/
def CI_SLOTS (s : Nat) : Fld := ⟨0x510c + 0x10 * s, 0, 24, .rw, 1, .warm, false⟩

/-- Every field of the block. -/
def all : List Fld :=
  [PS_REQ, PS_CURRENT, APST_ACTIVE, PS_CHANGE, ALERT_SRC, ALERT_MASK]
  ++ (List.range 8).flatMap (fun s => [NS_SIZE_L s, NS_SIZE_H s, CI_BASE s, CI_SLOTS s])

end HostReg

/-! ### BootReg: R438 (16_boot_bitstream_attestation.md) -/

namespace BootReg

/-- R413 (R438) -/
def BOOT_CODE : Fld := ⟨0x200, 0, 4, .ro, 0, .warm, false⟩

/-- R413 (R438) -/
def MGMT_ONLY : Fld := ⟨0x200, 4, 1, .ro, 0, .warm, false⟩

/-- R412 (R438) -/
def FALLBACK : Fld := ⟨0x200, 5, 1, .ro, 0, .warm, false⟩

/-- R412 (R438) -/
def FLASH_MISMATCH : Fld := ⟨0x200, 6, 1, .ro, 0, .warm, false⟩

/-- Last boot was warm (R438) -/
def WARM : Fld := ⟨0x200, 7, 1, .ro, 0, .cold, false⟩

/-- 0 SPI0, 1 SPI1 (R438) -/
def FLASH_USED : Fld := ⟨0x200, 8, 1, .ro, 0, .warm, false⟩

/-- 0 A, 1 B (R438) -/
def SLOT_USED : Fld := ⟨0x200, 9, 1, .ro, 0, .warm, false⟩

/-- R421 (R438) -/
def KEY_SLOT_USED : Fld := ⟨0x200, 10, 4, .ro, 0, .warm, false⟩

/-- R409 (R438) -/
def STRAP_WORD : Fld := ⟨0x204, 0, 10, .ro, 0, .warm, false⟩

/-- Candidate i at [8i + 3:8i]; [8i + 7:8i + 4] 0 (R438) -/
def BOOT_TRY : Fld := ⟨0x208, 0, 32, .ro, 0, .warm, false⟩

/-- SEQUENCE in force (R438) -/
def SEQ_LO : Fld := ⟨0x210, 0, 32, .ro, 0, .warm, false⟩

/-- The field SEQ_HI. (R438) -/
def SEQ_HI : Fld := ⟨0x214, 0, 32, .ro, 0, .warm, false⟩

/-- R422 (R438) -/
def MIN_SEQ_LO : Fld := ⟨0x218, 0, 32, .rwp, 0, .cold, true⟩

/-- The field MIN_SEQ_HI. (R438) -/
def MIN_SEQ_HI : Fld := ⟨0x21c, 0, 32, .rwp, 0, .cold, true⟩

/-- SPI0 active slot (R438) -/
def ACTIVE_SLOT_0 : Fld := ⟨0x220, 0, 1, .rwp, 0, .cold, true⟩

/-- SPI1 active slot (R438) -/
def ACTIVE_SLOT_1 : Fld := ⟨0x220, 1, 1, .rwp, 0, .cold, true⟩

/-- R427 (R438) -/
def RECORD_POLICY : Fld := ⟨0x220, 2, 1, .rwp, 0, .cold, true⟩

/-- R420 (R438) -/
def LIMIT_CLAMP : Fld := ⟨0x224, 0, 1, .w1c, 0, .warm, false⟩

/-- R422, R427 (R438) -/
def PERSIST_REFUSED : Fld := ⟨0x224, 1, 1, .w1c, 0, .warm, false⟩

/-- R423 (R438) -/
def KEY_DONE : Fld := ⟨0x224, 2, 1, .w1c, 0, .warm, false⟩

/-- R423 (R438) -/
def KEY_REFUSED : Fld := ⟨0x224, 3, 1, .w1c, 0, .warm, false⟩

/-- R427 (R438) -/
def RECORD_HELD : Fld := ⟨0x224, 4, 1, .w1c, 0, .warm, false⟩

/-- R427 (R438) -/
def UNACKED_LOST : Fld := ⟨0x224, 5, 1, .w1c, 0, .warm, false⟩

/-- R414 (R438) -/
def TILE_LOAD_FAIL : Fld := ⟨0x224, 6, 1, .w1c, 0, .warm, false⟩

/-- R435 (R438) -/
def SELV_UE : Fld := ⟨0x224, 7, 1, .w1c, 0, .warm, false⟩

/-- R432 (R438) -/
def SELV_REFUSED : Fld := ⟨0x224, 8, 1, .w1c, 0, .warm, false⟩

/-- R434 (R438) -/
def WEAR_WARN : Fld := ⟨0x224, 9, 1, .w1c, 0, .warm, false⟩

/-- R423, 64-byte units (R438) -/
def KEY_ADDR : Fld := ⟨0x228, 0, 29, .rw, 0, .warm, false⟩

/-- 0 stack 0, 1 stack 4 (R438) -/
def KEY_STACK : Fld := ⟨0x228, 29, 1, .rw, 0, .warm, false⟩

/-- R423 (R438) -/
def KEY_GO : Fld := ⟨0x228, 30, 1, .sc, 0, .warm, false⟩

/-- R423 (R438) -/
def KEY_STATUS : Fld := ⟨0x22c, 0, 3, .ro, 0, .warm, false⟩

/-- R423 (R438) -/
def KEY_SEQ : Fld := ⟨0x230, 0, 32, .ro, 0, .cold, true⟩

/-- R425 (R438) -/
def BOOT_COUNT : Fld := ⟨0x280, 0, 32, .ro, 0, .cold, true⟩

/-- R427 (R438) -/
def BR_ACK : Fld := ⟨0x284, 0, 32, .rwp, 0, .cold, true⟩

/-- Lowest BOOT_COUNT held (R438) -/
def BR_OLDEST : Fld := ⟨0x288, 0, 32, .ro, 0, .warm, false⟩

/-- R434 (R438) -/
def WEAR_WARN_EXP : Fld := ⟨0x300, 0, 6, .rw, 46, .warm, false⟩

/-- R434 (R438) -/
def WEAR_TILE : Fld := ⟨0x300, 8, 3, .ro, 0, .warm, false⟩

/-- R434 (R438) -/
def WEAR_MAX_LO : Fld := ⟨0x304, 0, 32, .ro, 0, .warm, false⟩

/-- Bits [47:32] (R438) -/
def WEAR_MAX_HI : Fld := ⟨0x308, 0, 16, .ro, 0, .warm, false⟩

/-- Saturates (R438) -/
def SELV_CE_COUNT : Fld := ⟨0x30c, 0, 32, .ro, 0, .warm, false⟩

/-- Saturates (R438) -/
def SELV_UE_COUNT : Fld := ⟨0x310, 0, 16, .ro, 0, .warm, false⟩

/-- Word index of the last uncorrectable word (R438) -/
def SELV_UE_WORD : Fld := ⟨0x314, 0, 21, .ro, 0, .warm, false⟩

/-- Its tile (R438) -/
def SELV_UE_TILE : Fld := ⟨0x314, 21, 3, .ro, 0, .warm, false⟩

/-- Every field of the block. -/
def all : List Fld :=
  [BOOT_CODE, MGMT_ONLY, FALLBACK, FLASH_MISMATCH, WARM, FLASH_USED, SLOT_USED, KEY_SLOT_USED, STRAP_WORD, BOOT_TRY, SEQ_LO, SEQ_HI]
  ++ [MIN_SEQ_LO, MIN_SEQ_HI, ACTIVE_SLOT_0, ACTIVE_SLOT_1, RECORD_POLICY, LIMIT_CLAMP, PERSIST_REFUSED, KEY_DONE, KEY_REFUSED, RECORD_HELD, UNACKED_LOST, TILE_LOAD_FAIL]
  ++ [SELV_UE, SELV_REFUSED, WEAR_WARN, KEY_ADDR, KEY_STACK, KEY_GO, KEY_STATUS, KEY_SEQ, BOOT_COUNT, BR_ACK, BR_OLDEST, WEAR_WARN_EXP]
  ++ [WEAR_TILE, WEAR_MAX_LO, WEAR_MAX_HI, SELV_CE_COUNT, SELV_UE_COUNT, SELV_UE_WORD, SELV_UE_TILE]

end BootReg

/-! ### FlashReg: R439 (16_boot_bitstream_attestation.md) -/

namespace FlashReg

/-- Flash byte address (R439) -/
def FL_ADDR (f : Nat) : Fld := ⟨0x400 + 0x40 * f, 0, 32, .rw, 0, .warm, false⟩

/-- Bytes (R439) -/
def FL_LEN (f : Nat) : Fld := ⟨0x404 + 0x40 * f, 0, 32, .rw, 0, .warm, false⟩

/-- Buffer, 64-byte units (R439) -/
def FL_BUF (f : Nat) : Fld := ⟨0x408 + 0x40 * f, 0, 29, .rw, 0, .warm, false⟩

/-- R436 (R439) -/
def FL_OP (f : Nat) : Fld := ⟨0x40c + 0x40 * f, 0, 2, .rw, 0, .warm, false⟩

/-- Start the operation (R439) -/
def FL_GO (f : Nat) : Fld := ⟨0x40c + 0x40 * f, 2, 1, .sc, 0, .warm, false⟩

/-- An operation runs (R439) -/
def FL_BUSY (f : Nat) : Fld := ⟨0x40c + 0x40 * f, 3, 1, .ro, 0, .warm, false⟩

/-- 0 OK, 1 FLASH_ERR, 2 BUSY_BOOT, 3 BAD_ARG, 4 ACTIVE_SLOT, 5 NOT_AUTHORITY (R439) -/
def FL_STATUS (f : Nat) : Fld := ⟨0x40c + 0x40 * f, 4, 4, .ro, 0, .warm, false⟩

/-- R413 code of the last VERIFY (R439) -/
def VERIFY_CODE (f : Nat) : Fld := ⟨0x40c + 0x40 * f, 8, 4, .ro, 0, .warm, false⟩

/-- Every field of one instance of the block. -/
def one (f : Nat) : List Fld :=
  [FL_ADDR f, FL_LEN f, FL_BUF f, FL_OP f, FL_GO f, FL_BUSY f, FL_STATUS f, VERIFY_CODE f]

/-- Every field of every instance of the block. -/
def all : List Fld := (List.range 2).flatMap one

end FlashReg

/-! ### AuthReg: R459 (17_authority_and_recovery.md) -/

namespace AuthReg

/-- Wing named as holder in this copy (R459) -/
def HOLDER_WING : Fld := ⟨0x600, 0, 1, .ro, 0, .warm, false⟩

/-- R445 (R459) -/
def SPLIT : Fld := ⟨0x600, 1, 1, .ro, 0, .warm, false⟩

/-- R449, R450 (R459) -/
def FROZEN : Fld := ⟨0x600, 2, 1, .ro, 0, .warm, false⟩

/-- Wing of the requester's copy (R459) -/
def MY_WING : Fld := ⟨0x600, 3, 1, .ro, 0, .warm, false⟩

/-- This copy holds the lease or sees a valid lease (R459) -/
def LEASE_VALID : Fld := ⟨0x600, 4, 1, .ro, 0, .warm, false⟩

/-- Bit i: bridge i to i + 4 is up (R459) -/
def BRIDGES_UP : Fld := ⟨0x600, 8, 4, .ro, 0, .warm, false⟩

/-- R440 (R459) -/
def EPOCH_LO : Fld := ⟨0x604, 0, 32, .ro, 0, .cold, true⟩

/-- The field EPOCH_HI. (R459) -/
def EPOCH_HI : Fld := ⟨0x608, 0, 32, .ro, 0, .cold, true⟩

/-- R449 (R459) -/
def PEER_EPOCH_LO : Fld := ⟨0x60c, 0, 32, .ro, 0, .warm, false⟩

/-- The field PEER_EPOCH_HI. (R459) -/
def PEER_EPOCH_HI : Fld := ⟨0x610, 0, 32, .ro, 0, .warm, false⟩

/-- 0 NOP, 1 HANDOVER, 2 CLAIM, 3 UNFREEZE; 4–7 refused with BAD_CMD (R459) -/
def AUTH_CMD : Fld := ⟨0x614, 0, 3, .wo, 0, .warm, false⟩

/-- 0 DONE, 1 NOT_AUTHORITY, 2 LEASE_VALID, 3 SPLIT, 4 NOT_FROZEN, 5 BAD_CMD, 6 FROZEN (R459) -/
def AUTH_STATUS : Fld := ⟨0x614, 4, 3, .ro, 0, .warm, false⟩

/-- R444: 0 holder, 1 west, 2 east; 3 acts as 0 (R459) -/
def SMB_WING : Fld := ⟨0x614, 8, 2, .rw, 0, .warm, false⟩

/-- R442, R446 (R459) -/
def LEASE_TAKEN : Fld := ⟨0x618, 0, 1, .w1c, 0, .warm, false⟩

/-- R443, R449 (R459) -/
def LEASE_LOST : Fld := ⟨0x618, 1, 1, .w1c, 0, .warm, false⟩

/-- R445 (R459) -/
def SPLIT_BEGAN : Fld := ⟨0x618, 2, 1, .w1c, 0, .warm, false⟩

/-- R447 (R459) -/
def REJOINED : Fld := ⟨0x618, 3, 1, .w1c, 0, .warm, false⟩

/-- R449 (R459) -/
def CONFLICT : Fld := ⟨0x618, 4, 1, .w1c, 0, .warm, false⟩

/-- R448 (R459) -/
def DIVERGED : Fld := ⟨0x618, 5, 1, .w1c, 0, .warm, false⟩

/-- AUTH_CMD carried out (R459) -/
def AUTH_DONE : Fld := ⟨0x618, 6, 1, .w1c, 0, .warm, false⟩

/-- AUTH_CMD refused (R459) -/
def AUTH_REFUSED : Fld := ⟨0x618, 7, 1, .w1c, 0, .warm, false⟩

/-- R441 (R459) -/
def RENEW_LATE : Fld := ⟨0x618, 8, 1, .w1c, 0, .warm, false⟩

/-- µs since the last renewal accepted; 0 at the holder; saturates (R459) -/
def LEASE_AGE : Fld := ⟨0x61c, 0, 16, .ro, 0, .warm, false⟩

/-- Saturates (R459) -/
def SPLIT_COUNT : Fld := ⟨0x61c, 16, 16, .ro, 0, .warm, false⟩

/-- Every field of the block. -/
def all : List Fld :=
  [HOLDER_WING, SPLIT, FROZEN, MY_WING, LEASE_VALID, BRIDGES_UP, EPOCH_LO, EPOCH_HI, PEER_EPOCH_LO, PEER_EPOCH_HI, AUTH_CMD, AUTH_STATUS]
  ++ [SMB_WING, LEASE_TAKEN, LEASE_LOST, SPLIT_BEGAN, REJOINED, CONFLICT, DIVERGED, AUTH_DONE, AUTH_REFUSED, RENEW_LATE, LEASE_AGE, SPLIT_COUNT]

end AuthReg

/-! ### EvReg: R460 (17_authority_and_recovery.md) -/

namespace EvReg

/-- SEQ of the next record (R453) (R460) -/
def EV_SEQ (t : Nat) : Fld := ⟨0x700 + 0x10 * t, 0, 32, .ro, 0, .warm, false⟩

/-- R453; saturates (R460) -/
def EV_DROP (t : Nat) : Fld := ⟨0x704 + 0x10 * t, 0, 16, .ro, 0, .warm, false⟩

/-- A record was written (R460) -/
def EV_NEW (t : Nat) : Fld := ⟨0x708 + 0x10 * t, 0, 1, .w1c, 0, .warm, false⟩

/-- ms, R453; 0 disables merging (R460) -/
def EV_MERGE (t : Nat) : Fld := ⟨0x70c + 0x10 * t, 0, 8, .rw, 1, .warm, false⟩

/-- Every field of one instance of the block. -/
def one (t : Nat) : List Fld :=
  [EV_SEQ t, EV_DROP t, EV_NEW t, EV_MERGE t]

/-- Every field of every instance of the block. -/
def all : List Fld := (List.range 8).flatMap one

end EvReg

/-! ### IdReg: R500 (20_register_map.md) -/

namespace IdReg

/-- Part number (R500) -/
def PART : Fld := ⟨0x0, 0, 16, .ro, 34066, .cold, false⟩

/-- Silicon stepping (R500) -/
def STEPPING : Fld := ⟨0x0, 16, 4, .ro, Config.stepping.toNat, .cold, false⟩

/-- Vendor ID of R428 and R492 (R500) -/
def MCTP_VENDOR_ID : Fld := ⟨0x4, 0, 16, .ro, Config.mctpVendorId.toNat, .cold, false⟩

/-- Registry ID of R428 (R500) -/
def MCTP_REGISTRY : Fld := ⟨0x4, 16, 8, .ro, Config.mctpRegistry.toNat, .cold, false⟩

/-- 128-bit DEVICE_ID, bits [31:0] first (R500) -/
def DEVICE_ID (i : Nat) : Fld := ⟨0x8 + 4 * i, 0, 32, .ro, (Config.deviceId i).toNat, .cold, true⟩

/-- Tiles enabled by the bit-stream (R500) -/
def TILE_EN : Fld := ⟨0x18, 0, 8, .ro, 0, .warm, false⟩

/-- Tiles in the strapped set (R409) (R500) -/
def TILE_STRAPPED : Fld := ⟨0x18, 8, 8, .ro, 0, .warm, false⟩

/-- R5 (R500) -/
def UNMAPPED : Fld := ⟨0x1c, 0, 1, .w1c, 0, .warm, false⟩

/-- R505 (R500) -/
def RESET_ACCESS : Fld := ⟨0x1c, 1, 1, .w1c, 0, .warm, false⟩

/-- A write to RESET_CMD was refused (R501) (R500) -/
def RESET_REFUSED : Fld := ⟨0x1c, 2, 1, .w1c, 0, .warm, false⟩

/-- Address of the last access that set UNMAPPED or RESET_ACCESS (R500) -/
def ACCESS_ADDR : Fld := ⟨0x20, 0, 32, .ro, 0, .warm, false⟩

/-- RESET_CMD: bit t starts a tile reset of tile t (R501) (R500) -/
def TILE_RST : Fld := ⟨0x24, 0, 8, .wo, 0, .warm, false⟩

/-- RESET_CMD: warm reset of the package (R501) (R500) -/
def WARM_RST : Fld := ⟨0x24, 8, 1, .wo, 0, .warm, false⟩

/-- RESET_CMD: must be 0x8512 for the write to act (R501) (R500) -/
def RST_KEY : Fld := ⟨0x24, 16, 16, .wo, 0, .warm, false⟩

/-- Every field of the block. -/
def all : List Fld :=
  [PART, STEPPING, MCTP_VENDOR_ID, MCTP_REGISTRY, TILE_EN, TILE_STRAPPED, UNMAPPED, RESET_ACCESS, RESET_REFUSED, ACCESS_ADDR, TILE_RST, WARM_RST]
  ++ [RST_KEY]
  ++ (List.range 4).flatMap (fun i => [DEVICE_ID i])

end IdReg

/-- Every field of the scope. -/
def pkgFields : List Fld :=
  SetReg.all ++ HostReg.all ++ BootReg.all ++ FlashReg.all ++ AuthReg.all ++ EvReg.all ++ IdReg.all

end Sys2Proof.Machine
end

