-- ==== Sys2Proof/Machine/FieldsTile.lean ====
section
/-! DEFINITION. The fields of a tile block (R502, R504, R508), their offsets counted from the tile base. Each definition is one row of the spec's register tables. -/

namespace Sys2Proof.Machine

/-! ### TimeReg: R43 (02_angle_and_time.md) -/

namespace TimeReg

/-- Package time, bits [31:0], in ns (R43) -/
def NS_LO : Fld := ⟨0x700100, 0, 32, .ro, 0, .warm, false⟩

/-- Package time, bits [63:32], in ns (R43) -/
def NS_HI : Fld := ⟨0x700104, 0, 32, .ro, 0, .warm, false⟩

/-- Last offset e, signed, in 1/16 ns, saturated (R43) -/
def LAST_E : Fld := ⟨0x700108, 0, 16, .ro, 0, .tile, false⟩

/-- 1 once the first sync flit has been applied; at the master, 1 from the start of its counter (R40) (R43) -/
def TIME_VALID : Fld := ⟨0x700108, 16, 1, .ro, 0, .tile, false⟩

/-- A forward step was made (R43) -/
def TIME_STEP : Fld := ⟨0x700108, 17, 1, .w1c, 0, .tile, false⟩

/-- A hold was made (R43) -/
def TIME_HOLD : Fld := ⟨0x700108, 18, 1, .w1c, 0, .tile, false⟩

/-- No sync flit for 8 µs; the counter runs on (R43) -/
def SYNC_LOST : Fld := ⟨0x700108, 19, 1, .w1c, 0, .tile, false⟩

/-- Every field of the block. -/
def all : List Fld :=
  [NS_LO, NS_HI, LAST_E, TIME_VALID, TIME_STEP, TIME_HOLD, SYNC_LOST]

end TimeReg

/-! ### BoltReg: R330 (12_archive_sets.md) -/

namespace BoltReg

/-- Take descriptors (R330) -/
def ENABLE : Fld := ⟨0x200000, 0, 1, .rw, 1, .tile, false⟩

/-- A descriptor is running (R330) -/
def BUSY : Fld := ⟨0x200000, 1, 1, .ro, 0, .tile, false⟩

/-- A background descriptor waits for credit (R330) -/
def BG_WAIT : Fld := ⟨0x200000, 2, 1, .ro, 0, .tile, false⟩

/-- 4 KiB units (R330) -/
def HQ_BASE : Fld := ⟨0x200004, 0, 23, .rw, 0, .tile, false⟩

/-- 0 acts as 1 (R330) -/
def HQ_SLOTS : Fld := ⟨0x200008, 0, 8, .rw, 16, .tile, false⟩

/-- Firmware's write pointer (R330) -/
def HQ_WR : Fld := ⟨0x200008, 8, 8, .rw, 0, .tile, false⟩

/-- R327 (R330) -/
def HQ_RD : Fld := ⟨0x200008, 16, 8, .ro, 0, .tile, false⟩

/-- 4 KiB units (R330) -/
def BGQ_BASE : Fld := ⟨0x20000c, 0, 23, .rw, 0, .tile, false⟩

/-- 0 acts as 1 (R330) -/
def BGQ_SLOTS : Fld := ⟨0x200010, 0, 8, .rw, 16, .tile, false⟩

/-- Firmware's write pointer (R330) -/
def BGQ_WR : Fld := ⟨0x200010, 8, 8, .rw, 0, .tile, false⟩

/-- R327 (R330) -/
def BGQ_RD : Fld := ⟨0x200010, 16, 8, .ro, 0, .tile, false⟩

/-- 4 KiB units (R330) -/
def CQ_BASE : Fld := ⟨0x200014, 0, 23, .rw, 0, .tile, false⟩

/-- 0 acts as 1 (R330) -/
def CQ_SLOTS : Fld := ⟨0x200018, 0, 8, .rw, 64, .tile, false⟩

/-- R161 (R330) -/
def CQ_WR : Fld := ⟨0x200018, 8, 8, .ro, 0, .tile, false⟩

/-- Firmware's read pointer (R330) -/
def CQ_RD : Fld := ⟨0x200018, 16, 8, .rw, 0, .tile, false⟩

/-- MB/s, R324 (R330) -/
def REB_FLOOR : Fld := ⟨0x20001c, 0, 16, .rw, 2000, .tile, false⟩

/-- MB/s (R330) -/
def REB_CEIL : Fld := ⟨0x20001c, 16, 16, .rw, 20000, .tile, false⟩

/-- µs; 0 acts as 1 (R330) -/
def PACE_WIN : Fld := ⟨0x200020, 0, 16, .rw, 1000, .tile, false⟩

/-- MiB; 0 acts as 1 (R330) -/
def CREDIT_MAX : Fld := ⟨0x200020, 16, 16, .rw, 64, .tile, false⟩

/-- 1/65 536 (R330) -/
def U_LAST : Fld := ⟨0x200024, 0, 16, .ro, 0, .tile, false⟩

/-- MB/s (R330) -/
def RATE_NOW : Fld := ⟨0x200024, 16, 16, .ro, 2000, .tile, false⟩

/-- A completion was written (R330) -/
def DESC_DONE : Fld := ⟨0x200028, 0, 1, .w1c, 0, .tile, false⟩

/-- R327 (R330) -/
def DESC_REFUSED : Fld := ⟨0x200028, 1, 1, .w1c, 0, .tile, false⟩

/-- R308, R323 (R330) -/
def UNRECOV : Fld := ⟨0x200028, 2, 1, .w1c, 0, .tile, false⟩

/-- R310 (R330) -/
def SRC_CRC : Fld := ⟨0x200028, 3, 1, .w1c, 0, .tile, false⟩

/-- R325 (R330) -/
def MISMATCH : Fld := ⟨0x200028, 4, 1, .w1c, 0, .tile, false⟩

/-- R313 (R330) -/
def COMMIT_EVT : Fld := ⟨0x200028, 5, 1, .w1c, 0, .tile, false⟩

/-- A completion waited for ring space (R330) -/
def CQ_FULL : Fld := ⟨0x200028, 6, 1, .w1c, 0, .tile, false⟩

/-- Saturates (R330) -/
def STRIPES_COMMITTED : Fld := ⟨0x20002c, 0, 32, .ro, 0, .tile, false⟩

/-- Saturates (R330) -/
def STRIPES_VOIDED : Fld := ⟨0x200030, 0, 16, .ro, 0, .tile, false⟩

/-- Saturates (R330) -/
def MISMATCH_COUNT : Fld := ⟨0x200030, 16, 16, .ro, 0, .tile, false⟩

/-- Saturates (R330) -/
def UNRECOV_COUNT : Fld := ⟨0x200034, 0, 16, .ro, 0, .tile, false⟩

/-- R319; saturates (R330) -/
def HIST_DROP : Fld := ⟨0x200034, 16, 16, .ro, 0, .tile, false⟩

/-- Every field of the block. -/
def all : List Fld :=
  [ENABLE, BUSY, BG_WAIT, HQ_BASE, HQ_SLOTS, HQ_WR, HQ_RD, BGQ_BASE, BGQ_SLOTS, BGQ_WR, BGQ_RD, CQ_BASE]
  ++ [CQ_SLOTS, CQ_WR, CQ_RD, REB_FLOOR, REB_CEIL, PACE_WIN, CREDIT_MAX, U_LAST, RATE_NOW, DESC_DONE, DESC_REFUSED, UNRECOV]
  ++ [SRC_CRC, MISMATCH, COMMIT_EVT, CQ_FULL, STRIPES_COMMITTED, STRIPES_VOIDED, MISMATCH_COUNT, UNRECOV_COUNT, HIST_DROP]

end BoltReg

/-! ### PortReg: R364 (13_host_queueing.md) -/

namespace PortReg

/-- Ethernet link and engine enabled (R364) -/
def ENABLE (l : Nat) : Fld := ⟨0x300000 + 0x10000 * l, 0, 1, .rw, 0, .port, false⟩

/-- Port reset (R7) (R364) -/
def PORT_RESET (l : Nat) : Fld := ⟨0x300000 + 0x10000 * l, 1, 1, .sc, 0, .port, false⟩

/-- Firmware is ready for connections (R361) (R364) -/
def ACCEPT (l : Nat) : Fld := ⟨0x300000 + 0x10000 * l, 2, 1, .rw, 0, .port, false⟩

/-- Ethernet link up (R364) -/
def LINK_UP (l : Nat) : Fld := ⟨0x300004 + 0x10000 * l, 0, 1, .ro, 0, .port, false⟩

/-- Not-ready conditions of R361 all absent (R364) -/
def READY (l : Nat) : Fld := ⟨0x300004 + 0x10000 * l, 1, 1, .ro, 0, .port, false⟩

/-- 1 while PRDY_N is high (R364) -/
def PRDY (l : Nat) : Fld := ⟨0x300004 + 0x10000 * l, 2, 1, .ro, 0, .port, false⟩

/-- I/O controllers connected (R364) -/
def CONTROLLERS (l : Nat) : Fld := ⟨0x300004 + 0x10000 * l, 8, 5, .ro, 0, .port, false⟩

/-- An event is held (R358) (R364) -/
def AEN_HELD (l : Nat) : Fld := ⟨0x300008 + 0x10000 * l, 0, 1, .ro, 0, .port, false⟩

/-- The link fell (R364) -/
def LINK_DOWN (l : Nat) : Fld := ⟨0x300008 + 0x10000 * l, 1, 1, .w1c, 0, .port, false⟩

/-- R363 (R364) -/
def KATO_EXPIRED (l : Nat) : Fld := ⟨0x300008 + 0x10000 * l, 2, 1, .w1c, 0, .port, false⟩

/-- A lossy frame was dropped (R364) -/
def RX_DROP (l : Nat) : Fld := ⟨0x300008 + 0x10000 * l, 3, 1, .w1c, 0, .port, false⟩

/-- A lossless priority was paused by the link partner for 100 ms without a break (R364) -/
def PFC_STORM (l : Nat) : Fld := ⟨0x300008 + 0x10000 * l, 4, 1, .w1c, 0, .port, false⟩

/-- Set by firmware (R364) -/
def FW_ATTN (l : Nat) : Fld := ⟨0x300008 + 0x10000 * l, 5, 1, .rw, 0, .port, false⟩

/-- Bit n enables ATTN bit n (R364) -/
def ATTN_MASK (l : Nat) : Fld := ⟨0x30000c + 0x10000 * l, 0, 6, .rw, 63, .port, false⟩

/-- R362 (R364) -/
def LL_PRI0 (l : Nat) : Fld := ⟨0x300010 + 0x10000 * l, 0, 3, .rw, 3, .port, false⟩

/-- R362 (R364) -/
def LL_PRI1 (l : Nat) : Fld := ⟨0x300010 + 0x10000 * l, 4, 3, .rw, 4, .port, false⟩

/-- Priority flow control enabled (R364) -/
def PFC_EN (l : Nat) : Fld := ⟨0x300010 + 0x10000 * l, 8, 1, .rw, 1, .port, false⟩

/-- KiB of free space (R364) -/
def XOFF_THR (l : Nat) : Fld := ⟨0x300014 + 0x10000 * l, 0, 8, .rw, 80, .port, false⟩

/-- KiB; values at or below XOFF_THR act as XOFF_THR + 1 (R364) -/
def XON_THR (l : Nat) : Fld := ⟨0x300014 + 0x10000 * l, 8, 8, .rw, 96, .port, false⟩

/-- Mbit/s per 50 µs (R364) -/
def RATE_STEP (l : Nat) : Fld := ⟨0x300014 + 0x10000 * l, 16, 16, .rw, 5000, .port, false⟩

/-- Saturates (R364) -/
def XOFF_SENT (l : Nat) : Fld := ⟨0x300018 + 0x10000 * l, 0, 16, .ro, 0, .port, false⟩

/-- Saturates (R364) -/
def XOFF_RCVD (l : Nat) : Fld := ⟨0x300018 + 0x10000 * l, 16, 16, .ro, 0, .port, false⟩

/-- Saturates (R364) -/
def RX_DROP_COUNT (l : Nat) : Fld := ⟨0x30001c + 0x10000 * l, 0, 16, .ro, 0, .port, false⟩

/-- Saturates (R364) -/
def CNP_SENT (l : Nat) : Fld := ⟨0x30001c + 0x10000 * l, 16, 16, .ro, 0, .port, false⟩

/-- Commands fetched; saturates (R364) -/
def CMD_COUNT (l : Nat) : Fld := ⟨0x300020 + 0x10000 * l, 0, 32, .ro, 0, .port, false⟩

/-- Aborts that aborted; saturates (R364) -/
def ABORT_DONE (l : Nat) : Fld := ⟨0x300024 + 0x10000 * l, 0, 16, .ro, 0, .port, false⟩

/-- Aborts that did not; saturates (R364) -/
def ABORT_MISSED (l : Nat) : Fld := ⟨0x300024 + 0x10000 * l, 16, 16, .ro, 0, .port, false⟩

/-- Every field of one instance of the block. -/
def one (l : Nat) : List Fld :=
  [ENABLE l, PORT_RESET l, ACCEPT l, LINK_UP l, READY l, PRDY l, CONTROLLERS l, AEN_HELD l, LINK_DOWN l, KATO_EXPIRED l, RX_DROP l, PFC_STORM l]
  ++ [FW_ATTN l, ATTN_MASK l, LL_PRI0 l, LL_PRI1 l, PFC_EN l, XOFF_THR l, XON_THR l, RATE_STEP l, XOFF_SENT l, XOFF_RCVD l, RX_DROP_COUNT l, CNP_SENT l]
  ++ [CMD_COUNT l, ABORT_DONE l, ABORT_MISSED l]

/-- Every field of every instance of the block. -/
def all : List Fld := (List.range 2).flatMap one

end PortReg

/-! ### LockReg: R365 (13_host_queueing.md) -/

namespace LockReg

/-- Entries in use (R365) -/
def LOCK_USED : Fld := ⟨0x320000, 0, 13, .ro, 0, .tile, false⟩

/-- Largest LOCK_USED (R365) -/
def LOCK_PEAK : Fld := ⟨0x320000, 16, 13, .ro, 0, .tile, false⟩

/-- The unit was full (R350) (R365) -/
def LOCK_FULL : Fld := ⟨0x320004, 0, 1, .w1c, 0, .tile, false⟩

/-- R346 (R365) -/
def FW_RESP_BAD : Fld := ⟨0x320004, 1, 1, .w1c, 0, .tile, false⟩

/-- An entry was posted (R365) -/
def HCR_POSTED : Fld := ⟨0x320004, 2, 1, .w1c, 0, .tile, false⟩

/-- 4 KiB units (R365) -/
def HCR_BASE : Fld := ⟨0x320008, 0, 23, .rw, 0, .tile, false⟩

/-- 0 acts as 1 (R365) -/
def HCR_SLOTS : Fld := ⟨0x32000c, 0, 12, .rw, 256, .tile, false⟩

/-- R346 (R365) -/
def HCR_WR : Fld := ⟨0x32000c, 12, 12, .ro, 0, .tile, false⟩

/-- Firmware's read pointer (R365) -/
def HCR_RD : Fld := ⟨0x320010, 0, 12, .rw, 0, .tile, false⟩

/-- R346 (R365) -/
def RESP_HANDLE : Fld := ⟨0x320014, 0, 32, .rw, 0, .tile, false⟩

/-- BIND, bits [31:0] (R365) -/
def WSEQ_LO_L : Fld := ⟨0x320018, 0, 32, .rw, 0, .tile, false⟩

/-- Bits [39:32] (R365) -/
def WSEQ_LO_H : Fld := ⟨0x32001c, 0, 8, .rw, 0, .tile, false⟩

/-- Bits [39:32] of WSEQ_HI (R365) -/
def WSEQ_HI_H : Fld := ⟨0x32001c, 8, 8, .rw, 0, .tile, false⟩

/-- R346 (R365) -/
def ACTION : Fld := ⟨0x32001c, 16, 3, .rw, 0, .tile, false⟩

/-- Carry out the action (R365) -/
def FW_GO : Fld := ⟨0x32001c, 19, 1, .sc, 0, .tile, false⟩

/-- BIND, bits [31:0] (R365) -/
def WSEQ_HI_L : Fld := ⟨0x320020, 0, 32, .rw, 0, .tile, false⟩

/-- DATA_READY address, 4 KiB units (R365) -/
def RESP_ADDR : Fld := ⟨0x320024, 0, 32, .rw, 0, .tile, false⟩

/-- FAIL: [7:0] SC, [10:8] SCT, [15] DNR (R365) -/
def RESP_STATUS : Fld := ⟨0x320028, 0, 16, .rw, 0, .tile, false⟩

/-- DONE (R365) -/
def FW_DW0 : Fld := ⟨0x32002c, 0, 32, .rw, 0, .tile, false⟩

/-- Every field of the block. -/
def all : List Fld :=
  [LOCK_USED, LOCK_PEAK, LOCK_FULL, FW_RESP_BAD, HCR_POSTED, HCR_BASE, HCR_SLOTS, HCR_WR, HCR_RD, RESP_HANDLE, WSEQ_LO_L, WSEQ_LO_H]
  ++ [WSEQ_HI_H, ACTION, FW_GO, WSEQ_HI_L, RESP_ADDR, RESP_STATUS, FW_DW0]

end LockReg

/-! ### ProtReg: R390 (14_memory_protection.md) -/

namespace ProtReg

/-- R376 (R390) -/
def ECS_EN : Fld := ⟨0x100000, 0, 1, .rw, 1, .tile, false⟩

/-- R379; writing 1 also clears B (R390) -/
def CE_OVF_CACHE : Fld := ⟨0x100004, 0, 1, .w1c, 0, .tile, false⟩

/-- R379 (R390) -/
def CE_OVF_SRAM : Fld := ⟨0x100004, 1, 1, .w1c, 0, .tile, false⟩

/-- R379 (R390) -/
def CE_OVF_HBM : Fld := ⟨0x100004, 2, 1, .w1c, 0, .tile, false⟩

/-- R367 (R390) -/
def MEM_RANGE : Fld := ⟨0x100004, 3, 1, .w1c, 0, .tile, false⟩

/-- R381 (R390) -/
def POISONED : Fld := ⟨0x100004, 4, 1, .w1c, 0, .tile, false⟩

/-- R384 (R390) -/
def REPAIR_REFUSED : Fld := ⟨0x100004, 5, 1, .w1c, 0, .tile, false⟩

/-- R383 (R390) -/
def REPAIR_CONFLICT : Fld := ⟨0x100004, 6, 1, .w1c, 0, .tile, false⟩

/-- k: 0 CACHE, 1 SRAM, 2 HBM (R390) -/
def CE_CAP (i : Nat) : Fld := ⟨0x100008 + 4 * i, 0, 16, .rw, 64, .tile, false⟩

/-- Per ms (R390) -/
def CE_LEAK (i : Nat) : Fld := ⟨0x100008 + 4 * i, 16, 16, .rw, 8, .tile, false⟩

/-- R379 (R390) -/
def B_CACHE : Fld := ⟨0x100014, 0, 16, .ro, 0, .tile, false⟩

/-- R379 (R390) -/
def B_SRAM : Fld := ⟨0x100014, 16, 16, .ro, 0, .tile, false⟩

/-- R379 (R390) -/
def B_HBM : Fld := ⟨0x100018, 0, 16, .ro, 0, .tile, false⟩

/-- Saturates (R390) -/
def CE_COUNT (i : Nat) : Fld := ⟨0x10001c + 4 * i, 0, 32, .ro, 0, .tile, false⟩

/-- Saturates (R390) -/
def UE_COUNT : Fld := ⟨0x100028, 0, 16, .ro, 0, .tile, false⟩

/-- Saturates (R390) -/
def POISON_COUNT : Fld := ⟨0x100028, 16, 16, .ro, 0, .tile, false⟩

/-- R380 (R390) -/
def UE_ADDR_LO : Fld := ⟨0x10002c, 0, 32, .ro, 0, .tile, false⟩

/-- Array ID for SRAM (R390) -/
def UE_ADDR_HI : Fld := ⟨0x100030, 0, 8, .ro, 0, .tile, false⟩

/-- 0 CACHE, 1 SRAM, 2 HBM (R390) -/
def UE_KIND : Fld := ⟨0x100030, 8, 2, .ro, 0, .tile, false⟩

/-- Row of R380, numbered from 0 (R390) -/
def UE_SRC : Fld := ⟨0x100030, 10, 6, .ro, 0, .tile, false⟩

/-- Capture held (R390) -/
def UE_VALID : Fld := ⟨0x100030, 16, 1, .w1c, 0, .tile, false⟩

/-- Bit i: entry i valid (R390) -/
def LOG_VALID : Fld := ⟨0x100034, 0, 16, .ro, 0, .tile, false⟩

/-- Bit 16 + i clears entry i (R390) -/
def LOG_CLR : Fld := ⟨0x100034, 16, 16, .wo, 0, .tile, false⟩

/-- Saturates (R390) -/
def LOG_DROP_COUNT : Fld := ⟨0x100038, 0, 16, .ro, 0, .tile, false⟩

/-- R376; saturates (R390) -/
def ECS_COUNT : Fld := ⟨0x100038, 16, 16, .ro, 0, .tile, false⟩

/-- GB/s; 0 acts as 1 (R390) -/
def DMA_BW : Fld := ⟨0x10003c, 0, 8, .rw, 16, .tile, false⟩

/-- Log entry i (R390) -/
def ADDR_LO (i : Nat) : Fld := ⟨0x100100 + 16 * i, 0, 32, .ro, 0, .tile, false⟩

/-- The field ADDR_HI. (R390) -/
def ADDR_HI (i : Nat) : Fld := ⟨0x100104 + 16 * i, 0, 8, .ro, 0, .tile, false⟩

/-- As UE_KIND (R390) -/
def KIND (i : Nat) : Fld := ⟨0x100104 + 16 * i, 8, 2, .ro, 0, .tile, false⟩

/-- Saturates (R390) -/
def COUNT (i : Nat) : Fld := ⟨0x100104 + 16 * i, 16, 16, .ro, 0, .tile, false⟩

/-- R383 form (R390) -/
def LOC (i : Nat) : Fld := ⟨0x100108 + 16 * i, 0, 32, .ro, 0, .tile, false⟩

/-- Package time of the first error, bits [31:0] (R390) -/
def T_FIRST (i : Nat) : Fld := ⟨0x10010c + 16 * i, 0, 32, .ro, 0, .tile, false⟩

/-- R384 (R390) -/
def REPAIR_LO : Fld := ⟨0x100200, 0, 32, .rw, 0, .tile, false⟩

/-- R384 (R390) -/
def REPAIR_HI : Fld := ⟨0x100204, 0, 32, .rw, 0, .tile, false⟩

/-- Entry 0–63 (R390) -/
def REPAIR_IDX : Fld := ⟨0x100208, 0, 6, .rw, 0, .tile, false⟩

/-- R384 (R390) -/
def REPAIR_ADD : Fld := ⟨0x100208, 6, 1, .sc, 0, .tile, false⟩

/-- R384 (R390) -/
def REPAIR_DEL : Fld := ⟨0x100208, 7, 1, .sc, 0, .tile, false⟩

/-- Entries applied at the last boot (R390) -/
def REPAIR_APPLIED : Fld := ⟨0x100208, 8, 7, .ro, 0, .tile, false⟩

/-- R383 (R390) -/
def REPAIR_SKIPPED : Fld := ⟨0x100208, 15, 7, .ro, 0, .tile, false⟩

/-- Every field of the block. -/
def all : List Fld :=
  [ECS_EN, CE_OVF_CACHE, CE_OVF_SRAM, CE_OVF_HBM, MEM_RANGE, POISONED, REPAIR_REFUSED, REPAIR_CONFLICT, B_CACHE, B_SRAM, B_HBM, UE_COUNT]
  ++ [POISON_COUNT, UE_ADDR_LO, UE_ADDR_HI, UE_KIND, UE_SRC, UE_VALID, LOG_VALID, LOG_CLR, LOG_DROP_COUNT, ECS_COUNT, DMA_BW, REPAIR_LO]
  ++ [REPAIR_HI, REPAIR_IDX, REPAIR_ADD, REPAIR_DEL, REPAIR_APPLIED, REPAIR_SKIPPED]
  ++ (List.range 3).flatMap (fun i => [CE_CAP i, CE_LEAK i, CE_COUNT i])
  ++ (List.range 16).flatMap (fun i => [ADDR_LO i, ADDR_HI i, KIND i, COUNT i, LOC i, T_FIRST i])

end ProtReg

/-! ### DmaReg: R391 (14_memory_protection.md) -/

namespace DmaReg

/-- Chain start, 64-byte units of the tile's stack (R391) -/
def HEAD (c : Nat) : Fld := ⟨0x101000 + 0x40 * c, 0, 29, .rw, 0, .tile, false⟩

/-- Start the chain (R391) -/
def GO (c : Nat) : Fld := ⟨0x101004 + 0x40 * c, 0, 1, .sc, 0, .tile, false⟩

/-- Halt with STOPPED at the next block or line (R391) -/
def STOP (c : Nat) : Fld := ⟨0x101004 + 0x40 * c, 1, 1, .sc, 0, .tile, false⟩

/-- Interrupt on DONE, HALTED and descriptor IRQ (R391) -/
def IRQ_EN (c : Nat) : Fld := ⟨0x101004 + 0x40 * c, 2, 1, .rw, 0, .tile, false⟩

/-- 0 idle, 1 running, 2 halted (R391) -/
def STATE (c : Nat) : Fld := ⟨0x101008 + 0x40 * c, 0, 2, .ro, 0, .tile, false⟩

/-- R387 (R391) -/
def STATUS (c : Nat) : Fld := ⟨0x101008 + 0x40 * c, 4, 4, .ro, 0, .tile, false⟩

/-- Descriptor running or failed (R391) -/
def CUR_DESC (c : Nat) : Fld := ⟨0x10100c + 0x40 * c, 0, 29, .ro, 0, .tile, false⟩

/-- R387 (R391) -/
def FAIL_OFFSET (c : Nat) : Fld := ⟨0x101010 + 0x40 * c, 0, 32, .ro, 0, .tile, false⟩

/-- Chain completed (R391) -/
def DONE (c : Nat) : Fld := ⟨0x101014 + 0x40 * c, 0, 1, .w1c, 0, .tile, false⟩

/-- R387 (R391) -/
def HALTED (c : Nat) : Fld := ⟨0x101014 + 0x40 * c, 1, 1, .w1c, 0, .tile, false⟩

/-- A descriptor with IRQ completed (R391) -/
def DESC_IRQ (c : Nat) : Fld := ⟨0x101014 + 0x40 * c, 2, 1, .w1c, 0, .tile, false⟩

/-- Bytes moved by the current chain (R391) -/
def BYTES_DONE (c : Nat) : Fld := ⟨0x101018 + 0x40 * c, 0, 32, .ro, 0, .tile, false⟩

/-- Every field of one instance of the block. -/
def one (c : Nat) : List Fld :=
  [HEAD c, GO c, STOP c, IRQ_EN c, STATE c, STATUS c, CUR_DESC c, FAIL_OFFSET c, DONE c, HALTED c, DESC_IRQ c, BYTES_DONE c]

/-- Every field of every instance of the block. -/
def all : List Fld := (List.range 8).flatMap one

end DmaReg

/-! ### GalReg: R408 (15_gallery_cores.md) -/

namespace GalReg

/-- Source n asserted (R397) (R408) -/
def IRQ_PEND : Fld := ⟨0x0, 0, 32, .ro, 0, .tile, false⟩

/-- Core c enables (R408) -/
def IRQ_EN (i : Nat) : Fld := ⟨0x4 + 4 * i, 0, 32, .rw, 0, .tile, false⟩

/-- R396 (R408) -/
def MSIP (i : Nat) : Fld := ⟨0xc + 4 * i, 0, 1, .rw, 0, .tile, false⟩

/-- R396 (R408) -/
def MTIMECMP_LO (i : Nat) : Fld := ⟨0x20 + 8 * i, 0, 32, .rw, 4294967295, .tile, false⟩

/-- R396 (R408) -/
def MTIMECMP_HI (i : Nat) : Fld := ⟨0x24 + 8 * i, 0, 32, .rw, 4294967295, .tile, false⟩

/-- Ones are ORed into DB (R408) -/
def DB_SET (i : Nat) : Fld := ⟨0x40 + 8 * i, 0, 32, .wo, 0, .tile, false⟩

/-- R397 (R408) -/
def DB (i : Nat) : Fld := ⟨0x44 + 8 * i, 0, 32, .w1c, 0, .tile, false⟩

/-- Failed store address, bits [31:0] (R408) -/
def BUS_ERR_LO : Fld := ⟨0x60, 0, 32, .ro, 0, .tile, false⟩

/-- Bits [47:32] (R408) -/
def BUS_ERR_HI : Fld := ⟨0x64, 0, 16, .ro, 0, .tile, false⟩

/-- Core of the store (R408) -/
def BUS_ERR_CORE : Fld := ⟨0x64, 16, 1, .ro, 0, .tile, false⟩

/-- R394; capture held until cleared (R408) -/
def BUS_ERR : Fld := ⟨0x68, 0, 1, .w1c, 0, .tile, false⟩

/-- Every field of the block. -/
def all : List Fld :=
  [IRQ_PEND, BUS_ERR_LO, BUS_ERR_HI, BUS_ERR_CORE, BUS_ERR]
  ++ (List.range 2).flatMap (fun i => [IRQ_EN i, MSIP i, MTIMECMP_LO i, MTIMECMP_HI i, DB_SET i, DB i])

end GalReg

/-! ### CacheReg: R408 (15_gallery_cores.md) -/

namespace CacheReg

/-- R406 (R408) -/
def CACHE_EN (j : Nat) : Fld := ⟨0x100 + 0x80 * j, 0, 1, .rw, 0, .tile, false⟩

/-- R406 (R408) -/
def DRAINING (j : Nat) : Fld := ⟨0x100 + 0x80 * j, 1, 1, .ro, 0, .tile, false⟩

/-- R404 (R408) -/
def LOCK_WAYS (j : Nat) : Fld := ⟨0x100 + 0x80 * j, 4, 3, .rw, 0, .tile, false⟩

/-- Physical address, bits [31:0] (R408) -/
def RANGE_LO (j : Nat) : Fld := ⟨0x104 + 0x80 * j, 0, 32, .rw, 0, .tile, false⟩

/-- Bits [47:32] (R408) -/
def RANGE_HI (j : Nat) : Fld := ⟨0x108 + 0x80 * j, 0, 16, .rw, 0, .tile, false⟩

/-- Bytes (R408) -/
def RANGE_LEN (j : Nat) : Fld := ⟨0x10c + 0x80 * j, 0, 32, .rw, 0, .tile, false⟩

/-- R405 (R408) -/
def INV_GO (j : Nat) : Fld := ⟨0x110 + 0x80 * j, 0, 1, .sc, 0, .tile, false⟩

/-- R404 (R408) -/
def LL_GO (j : Nat) : Fld := ⟨0x110 + 0x80 * j, 1, 1, .sc, 0, .tile, false⟩

/-- Way 0–2; the value 3 is refused (R408) -/
def LL_WAY (j : Nat) : Fld := ⟨0x110 + 0x80 * j, 2, 2, .rw, 0, .tile, false⟩

/-- R405 (R408) -/
def INV_DONE (j : Nat) : Fld := ⟨0x114 + 0x80 * j, 0, 1, .w1c, 0, .tile, false⟩

/-- R404 (R408) -/
def LL_DONE (j : Nat) : Fld := ⟨0x114 + 0x80 * j, 1, 1, .w1c, 0, .tile, false⟩

/-- R404 (R408) -/
def LL_CONFLICT (j : Nat) : Fld := ⟨0x114 + 0x80 * j, 2, 1, .w1c, 0, .tile, false⟩

/-- R404, R407 (R408) -/
def LL_REFUSED (j : Nat) : Fld := ⟨0x114 + 0x80 * j, 3, 1, .w1c, 0, .tile, false⟩

/-- A line CRC failed (R408) -/
def CRC_REFETCH (j : Nat) : Fld := ⟨0x114 + 0x80 * j, 4, 1, .w1c, 0, .tile, false⟩

/-- Saturates (R408) -/
def HITS (j : Nat) : Fld := ⟨0x118 + 0x80 * j, 0, 32, .ro, 0, .tile, false⟩

/-- Saturates (R408) -/
def MISSES (j : Nat) : Fld := ⟨0x11c + 0x80 * j, 0, 32, .ro, 0, .tile, false⟩

/-- Saturates (R408) -/
def VICTIM_RECALLS (j : Nat) : Fld := ⟨0x120 + 0x80 * j, 0, 16, .ro, 0, .tile, false⟩

/-- Saturates (R408) -/
def PREFETCH_USED (j : Nat) : Fld := ⟨0x120 + 0x80 * j, 16, 16, .ro, 0, .tile, false⟩

/-- Lines loaded by the last lock-load (R408) -/
def LL_LINES (j : Nat) : Fld := ⟨0x124 + 0x80 * j, 0, 16, .ro, 0, .tile, false⟩

/-- R404 (R408) -/
def LL_FAIL (j : Nat) : Fld := ⟨0x124 + 0x80 * j, 16, 8, .ro, 0, .tile, false⟩

/-- Every field of one instance of the block. -/
def one (j : Nat) : List Fld :=
  [CACHE_EN j, DRAINING j, LOCK_WAYS j, RANGE_LO j, RANGE_HI j, RANGE_LEN j, INV_GO j, LL_GO j, LL_WAY j, INV_DONE j, LL_DONE j, LL_CONFLICT j]
  ++ [LL_REFUSED j, CRC_REFETCH j, HITS j, MISSES j, VICTIM_RECALLS j, PREFETCH_USED j, LL_LINES j, LL_FAIL j]

/-- Every field of every instance of the block. -/
def all : List Fld := (List.range 4).flatMap one

end CacheReg

/-! ### HeatReg: R474 (18_thermal_and_power.md) -/

namespace HeatReg

/-- R466 (R474) -/
def THROT_EN : Fld := ⟨0x600000, 0, 1, .rw, 1, .tile, false⟩

/-- R468 (R474) -/
def CAP_EN : Fld := ⟨0x600000, 1, 1, .rw, 1, .tile, false⟩

/-- R464 (R474) -/
def RESUME : Fld := ⟨0x600000, 2, 1, .sc, 0, .tile, false⟩

/-- 100.00 °C (R474) -/
def THR_ON : Fld := ⟨0x600004, 0, 16, .rw, 25600, .tile, false⟩

/-- 97.00 °C (R474) -/
def THR_OFF : Fld := ⟨0x600004, 16, 16, .rw, 24832, .tile, false⟩

/-- 5.00 °C (R474) -/
def XMARGIN : Fld := ⟨0x600008, 0, 16, .rw, 1280, .tile, false⟩

/-- Samples; 0 acts as 1 (R474) -/
def XCHK_N : Fld := ⟨0x600008, 16, 8, .rw, 16, .tile, false⟩

/-- ms; 0 acts as 1 (R474) -/
def STEP_T : Fld := ⟨0x60000c, 0, 16, .rw, 10, .tile, false⟩

/-- µs (R474) -/
def PAUSE_UNIT : Fld := ⟨0x60000c, 16, 16, .rw, 500, .tile, false⟩

/-- Tile cap, 0.1 W (R474) -/
def CAP_W : Fld := ⟨0x600010, 0, 16, .rw, 500, .tile, false⟩

/-- 95.00 °C (R474) -/
def STACK_THR : Fld := ⟨0x600010, 16, 16, .rw, 24320, .tile, false⟩

/-- R466 (R474) -/
def THROT_LEVEL : Fld := ⟨0x600014, 0, 3, .ro, 0, .tile, false⟩

/-- R468 (R474) -/
def CAP_STEP : Fld := ⟨0x600014, 4, 3, .ro, 0, .tile, false⟩

/-- R463, R464 (R474) -/
def TRIPPED : Fld := ⟨0x600014, 7, 1, .ro, 0, .warm, false⟩

/-- Bit i: sensor i included (R474) -/
def INCLUDED : Fld := ⟨0x600014, 8, 6, .ro, 63, .tile, false⟩

/-- No step meets CAP_W (R474) -/
def CAP_SHORT : Fld := ⟨0x600014, 14, 1, .ro, 0, .tile, false⟩

/-- R466 (R474) -/
def TSTEP : Fld := ⟨0x600014, 15, 3, .ro, 0, .tile, false⟩

/-- R468 (R474) -/
def PSTEP : Fld := ⟨0x600014, 18, 3, .ro, 0, .tile, false⟩

/-- R462 (R474) -/
def T_MAX : Fld := ⟨0x600018, 0, 16, .ro, 0, .tile, false⟩

/-- R462 (R474) -/
def T_MED : Fld := ⟨0x600018, 16, 16, .ro, 0, .tile, false⟩

/-- R461 (R474) -/
def STACK_TEMP : Fld := ⟨0x60001c, 0, 16, .ro, 0, .tile, false⟩

/-- Estimated ceiling at CAP_STEP, 0.1 W (R474) -/
def EST_W : Fld := ⟨0x60001c, 16, 16, .ro, 0, .tile, false⟩

/-- Sensor i, 0–5 (R474) -/
def SENSOR_T (i : Nat) : Fld := ⟨0x600020 + 4 * i, 0, 16, .ro, 0, .tile, false⟩

/-- R462 (R474) -/
def SENSOR_EXCL : Fld := ⟨0x600038, 0, 1, .w1c, 0, .tile, false⟩

/-- R462 (R474) -/
def SENSOR_READMIT : Fld := ⟨0x600038, 1, 1, .w1c, 0, .tile, false⟩

/-- R466 (R474) -/
def THROTTLE_ON : Fld := ⟨0x600038, 2, 1, .w1c, 0, .tile, false⟩

/-- R468 (R474) -/
def CAP_CHANGE : Fld := ⟨0x600038, 3, 1, .w1c, 0, .tile, false⟩

/-- R468 (R474) -/
def CAP_UNMET : Fld := ⟨0x600038, 4, 1, .w1c, 0, .tile, false⟩

/-- STACK_TEMP reached 105.00 °C (R474) -/
def STACK_HOT : Fld := ⟨0x600038, 5, 1, .w1c, 0, .tile, false⟩

/-- R464 (R474) -/
def TRIP_DONE : Fld := ⟨0x600038, 6, 1, .w1c, 0, .warm, false⟩

/-- R462 (R474) -/
def XCHK_SUSP : Fld := ⟨0x600038, 7, 1, .w1c, 0, .tile, false⟩

/-- Saturates (R474) -/
def TRIP_COUNT : Fld := ⟨0x60003c, 0, 16, .ro, 0, .cold, true⟩

/-- Reading at the last trip (R474) -/
def TRIP_TEMP : Fld := ⟨0x600040, 0, 16, .ro, 0, .cold, true⟩

/-- Its sensor (R474) -/
def TRIP_SENSOR : Fld := ⟨0x600040, 16, 3, .ro, 0, .cold, true⟩

/-- Every field of the block. -/
def all : List Fld :=
  [THROT_EN, CAP_EN, RESUME, THR_ON, THR_OFF, XMARGIN, XCHK_N, STEP_T, PAUSE_UNIT, CAP_W, STACK_THR, THROT_LEVEL]
  ++ [CAP_STEP, TRIPPED, INCLUDED, CAP_SHORT, TSTEP, PSTEP, T_MAX, T_MED, STACK_TEMP, EST_W, SENSOR_EXCL, SENSOR_READMIT]
  ++ [THROTTLE_ON, CAP_CHANGE, CAP_UNMET, STACK_HOT, TRIP_DONE, XCHK_SUSP, TRIP_COUNT, TRIP_TEMP, TRIP_SENSOR]
  ++ (List.range 6).flatMap (fun i => [SENSOR_T i])

end HeatReg

/-! ### LinkReg: R504 (20_register_map.md) -/

namespace LinkReg

/-- 0 down, 1 training, 2 up, 3 absent (far tile not enabled) (R504) -/
def LSTATE (k : Nat) : Fld := ⟨0x700000 + 0x10 * k, 0, 2, .ro, 0, .tile, false⟩

/-- Declared down under R24 (R504) -/
def LINK_DOWN (k : Nat) : Fld := ⟨0x700004 + 0x10 * k, 0, 1, .w1c, 0, .tile, false⟩

/-- A flit failed its CRC (R21) (R504) -/
def CRC_ERR (k : Nat) : Fld := ⟨0x700004 + 0x10 * k, 1, 1, .w1c, 0, .tile, false⟩

/-- Flits replayed; saturates (R504) -/
def REPLAYS (k : Nat) : Fld := ⟨0x700008 + 0x10 * k, 0, 16, .ro, 0, .tile, false⟩

/-- Saturates (R504) -/
def CRC_COUNT (k : Nat) : Fld := ⟨0x700008 + 0x10 * k, 16, 16, .ro, 0, .tile, false⟩

/-- Packets sent under R23 step 3 round a link that is down; packets routed round an absent link only are not counted; saturates (R504) -/
def REROUTED (k : Nat) : Fld := ⟨0x70000c + 0x10 * k, 0, 16, .ro, 0, .tile, false⟩

/-- Packets completed with a route failure (R27); saturates (R504) -/
def ROUTE_FAIL (k : Nat) : Fld := ⟨0x70000c + 0x10 * k, 16, 16, .ro, 0, .tile, false⟩

/-- Every field of one instance of the block. -/
def one (k : Nat) : List Fld :=
  [LSTATE k, LINK_DOWN k, CRC_ERR k, REPLAYS k, CRC_COUNT k, REROUTED k, ROUTE_FAIL k]

/-- Every field of every instance of the block. -/
def all : List Fld := (List.range 3).flatMap one

end LinkReg

/-! ### TawReg: R508 (20_register_map.md) -/

namespace TawReg

/-- R509 (R508) -/
def SPACE (i : Nat) : Fld := ⟨0x1000 + 0x20 * i, 0, 8, .rw, 0, .tile, false⟩

/-- Local head, for head spaces (R508) -/
def HEAD (i : Nat) : Fld := ⟨0x1000 + 0x20 * i, 8, 2, .rw, 0, .tile, false⟩

/-- ADDR advances after each DATA access (R508) -/
def AUTOINC (i : Nat) : Fld := ⟨0x1000 + 0x20 * i, 16, 1, .rw, 0, .tile, false⟩

/-- Byte offset in the space, a multiple of 4 (R508) -/
def ADDR (i : Nat) : Fld := ⟨0x1004 + 0x20 * i, 0, 24, .rw, 0, .tile, false⟩

/-- The word at ADDR (R508) -/
def DATA (i : Nat) : Fld := ⟨0x1008 + 0x20 * i, 0, 32, .rw, 0, .tile, false⟩

/-- Bits [63:32] of the 64-bit word last read through DATA, in 64-bit spaces (R508) -/
def DATA_HI (i : Nat) : Fld := ⟨0x100c + 0x20 * i, 0, 32, .ro, 0, .tile, false⟩

/-- Access beyond the space, to a reserved space, or a write to an RO space (R508) -/
def TAW_ERR (i : Nat) : Fld := ⟨0x1010 + 0x20 * i, 0, 1, .w1c, 0, .tile, false⟩

/-- Uncorrectable read (R508) -/
def TAW_UE (i : Nat) : Fld := ⟨0x1010 + 0x20 * i, 1, 1, .w1c, 0, .tile, false⟩

/-- Write refused by its owning rule (R196) (R508) -/
def TAW_REFUSED (i : Nat) : Fld := ⟨0x1010 + 0x20 * i, 2, 1, .w1c, 0, .tile, false⟩

/-- Every field of one instance of the block. -/
def one (i : Nat) : List Fld :=
  [SPACE i, HEAD i, AUTOINC i, ADDR i, DATA i, DATA_HI i, TAW_ERR i, TAW_UE i, TAW_REFUSED i]

/-- Every field of every instance of the block. -/
def all : List Fld := (List.range 3).flatMap one

end TawReg

/-- Every field of the scope. -/
def tileFields : List Fld :=
  TimeReg.all ++ BoltReg.all ++ PortReg.all ++ LockReg.all ++ ProtReg.all ++ DmaReg.all ++ GalReg.all ++ CacheReg.all ++ HeatReg.all ++ LinkReg.all ++ TawReg.all

end Sys2Proof.Machine
end

