-- ==== Sys2Proof/Machine/Regs.lean ====
section
/-! DEFINITION. Reading and writing register fields (R4, R6) and byte memories, over one kind of sparse list: keys
strictly rising, and no entry equal to what an unlisted key reads as. -/

namespace Sys2Proof.Machine

/-- The value listed under key `k`. -/
def lookupKey {α : Type} (k : Nat) : List (Nat × α) → Option α
  | [] => none
  | (a, v) :: l => if a = k then some v else lookupKey k l

/-- The list with `v` under key `k`, the keys still rising. -/
def insertKey {α : Type} (k : Nat) (v : α) : List (Nat × α) → List (Nat × α)
  | [] => [(k, v)]
  | (a, w) :: l =>
    if a = k then (k, v) :: l
    else if k < a then (k, v) :: (a, w) :: l
    else (a, w) :: insertKey k v l

/-- The list without key `k`. -/
def eraseKey {α : Type} (k : Nat) : List (Nat × α) → List (Nat × α)
  | [] => []
  | (a, w) :: l => if a = k then eraseKey k l else (a, w) :: eraseKey k l

/-- The keys of a list rise strictly. -/
def risingKeys {α : Type} : List (Nat × α) → Bool
  | [] => true
  | [_] => true
  | a :: b :: l => decide (a.1 < b.1) && risingKeys (b :: l)

/-- The key of a field: 32 times its word's offset plus its lowest bit, which no two fields of a scope share. -/
def Fld.key (f : Fld) : Nat := f.off * 32 + f.lsb

/-- A register file in which every field has its reset value. -/
def RegFile.empty : RegFile := ⟨[]⟩

/-- The value of a field. -/
def RegFile.rd (rf : RegFile) (f : Fld) : Nat := (lookupKey f.key rf.cells).getD f.reset

/-- The value of a field, read as two's complement. -/
def RegFile.rdS (rf : RegFile) (f : Fld) : Int := signedOf f.width (rf.rd f)

/-- The value of a one-bit field. -/
def RegFile.flag (rf : RegFile) (f : Fld) : Bool := rf.rd f != 0

/-- A field takes the low bits of `v`. -/
def RegFile.wr (rf : RegFile) (f : Fld) (v : Nat) : RegFile :=
  if v % 2 ^ f.width = f.reset then ⟨eraseKey f.key rf.cells⟩
  else ⟨insertKey f.key (v % 2 ^ f.width) rf.cells⟩

/-- A field takes the two's-complement form of `v`. -/
def RegFile.wrS (rf : RegFile) (f : Fld) (v : Int) : RegFile := rf.wr f (unsignedOf f.width v)

/-- A one-bit field takes the value of `b`. -/
def RegFile.put (rf : RegFile) (f : Fld) (b : Bool) : RegFile := rf.wr f (flagNat b)

/-- A flag is set. -/
def RegFile.set (rf : RegFile) (f : Fld) : RegFile := rf.wr f 1

/-- A flag is set where `b` holds, and is otherwise left as it is. -/
def RegFile.setIf (rf : RegFile) (b : Bool) (f : Fld) : RegFile := if b then rf.wr f 1 else rf

/-- A field is cleared. -/
def RegFile.clr (rf : RegFile) (f : Fld) : RegFile := rf.wr f 0

/-- A counter gains `n`, held at its largest value ("saturates"). -/
def RegFile.bump (rf : RegFile) (f : Fld) (n : Nat) : RegFile := rf.wr f (satAdd f.width (rf.rd f) n)

/-- Bits that `v` gives are added to a mask. -/
def RegFile.orIn (rf : RegFile) (f : Fld) (v : Nat) : RegFile := rf.wr f (rf.rd f ||| v)

/-- A field goes back to its reset value. -/
def RegFile.restore (rf : RegFile) (f : Fld) : RegFile := ⟨eraseKey f.key rf.cells⟩

/-- Every field of the list goes back to its reset value. -/
def RegFile.restoreAll (rf : RegFile) (fs : List Fld) : RegFile := fs.foldl RegFile.restore rf

/-- The word at offset `off`: its fields in their places, reserved bits 0 (R5). A WO field reads 0 (R4). -/
def RegFile.word (rf : RegFile) (fs : List Fld) (off : Nat) : Nat :=
  fs.foldl (fun a f => if f.off = off ∧ f.acc ≠ .wo then a + rf.rd f <<< f.lsb else a) 0

/-- The keys of a register file rise strictly. -/
def RegFile.wf (rf : RegFile) : Bool := risingKeys rf.cells

/-- How narrow a reset class is, counted from cold (R6, R8). A port reset is independent of a head reset. -/
def RClass.rank : RClass → Nat
  | .cold => 0 | .warm => 1 | .tile => 2 | .head => 3 | .port => 3

/-- A reset of class `c` restores fields of class `d`: its own and every narrower one (R6, R8). -/
def RClass.restores (c d : RClass) : Bool :=
  match c, d with
  | .head, .port => false
  | .port, .head => false
  | c, d => decide (c.rank ≤ d.rank)

/-- What a reset of class `c` does to one field (R506): a persistent field, a ROS field except under a cold reset,
and a field of a broader class keep their values; every other field is restored. -/
def RegFile.resetField (c : RClass) (rf : RegFile) (f : Fld) : RegFile :=
  if f.persist || (f.acc = .ros && c ≠ .cold) || !(c.restores f.cls) then rf else rf.restore f

/-- A reset of class `c` over the fields of a scope (R506). -/
@[irreducible] def RegFile.resetBy (c : RClass) (fs : List Fld) (rf : RegFile) : RegFile :=
  fs.foldl (RegFile.resetField c) rf

/-- The memory that lists nothing. -/
def Mem.empty : Mem := ⟨[], [], [], [], none⟩

/-- What an unlisted byte reads as: 0 where nothing has been written since power-on (DESIGN CHOICE, log entry 3), and a
free value where a reset or a loss of power left the contents open (R372). -/
def Mem.unlisted (m : Mem) (a : Nat) : Byte :=
  match m.lost with
  | none => 0
  | some (gen, stop) => if a < stop then Config.lostByte gen a else 0

/-- Hamming positions of d0 to d7 (R375). -/
def eccPositions : List Nat := [3, 5, 6, 7, 9, 10, 11, 12]

/-- The Hamming bits of a byte, as a number whose bit k is q_k (R375): the exclusive OR of the positions of the data bits
that are 1, since a position's number has bit k set exactly where the position counts in q_k. -/
def hammingOf (d : Byte) : Nat :=
  eccPositions.zipIdx.foldl (fun h e => if d.getLsbD e.2 then h ^^^ e.1 else h) 0

/-- The exclusive OR of the low `n` bits of `v`. -/
def xorBits (v : Nat) : Nat → Bool
  | 0 => false
  | n + 1 => bitOf v n ^^ xorBits v n

/-- The check bits q[4:0] of a byte (R375): q4 makes the exclusive OR of all 13 bits 0. -/
def checkBits (d : Byte) : BitVec 5 :=
  let h := hammingOf d
  BitVec.ofNat 5 (h + 16 * flagNat (xorBits d.toNat 8 ^^ xorBits h 4))

/-- The 13 bits that a byte is stored as: d[7:0], and q[4:0] above them (R375). -/
def eccWord (d : Byte) : BitVec 13 := checkBits d ++ d

/-- What a read of 13 stored bits finds (R375). -/
inductive EccRead where
  | clean (d : Byte) | corrected (d : Byte) | bad (d : Byte)
deriving DecidableEq, Repr

/-- The byte that a read gives; of an uncorrectable one, its data bits as they are stored. -/
def EccRead.data : EccRead → Byte
  | .clean d => d
  | .corrected d => d
  | .bad d => d

/-- The syndrome s of 13 stored bits (R375). -/
def eccSyndrome (v : BitVec 13) : Nat := hammingOf (v.setWidth 8) ^^^ bitsOf v.toNat 11 8

/-- 13 stored bits are read (R375): an error at a data position is corrected there, one at a check bit leaves the data. -/
def eccRead (v : BitVec 13) : EccRead :=
  let d : Byte := v.setWidth 8
  let s := eccSyndrome v
  let p := xorBits v.toNat 13
  if !p then (if s = 0 then .clean d else .bad d)
  else if s ≤ 12 then
    match eccPositions.idxOf? s with
    | some i => .corrected (d ^^^ BitVec.ofNat 8 (2 ^ i))
    | none => .corrected d
  else .bad d

/-- The byte that was last written at an address. -/
def Mem.written (m : Mem) (a : Nat) : Byte := (lookupKey a m.cells).getD (m.unlisted a)

/-- One byte of a memory, as a read through its code gives it (R375). -/
def Mem.read8 (m : Mem) (a : Nat) : Byte :=
  match lookupKey a m.flips with
  | none => m.written a
  | some x => (eccRead (eccWord (m.written a) ^^^ x)).data

/-- The bytes below `stop` are left open, its upsets as they are (R372). -/
def Mem.lose (gen stop : Nat) (m : Mem) : Mem := { m with cells := [], lost := some (gen, stop) }

/-- The contents of one byte change, upsets left as they are. -/
def Mem.raw8 (m : Mem) (a : Nat) (v : Byte) : Mem :=
  { m with cells := if v = m.unlisted a then eraseKey a m.cells else insertKey a v m.cells }

/-- The upset of byte `a` of an SRAM is gone (R377). -/
def Mem.mend (m : Mem) (a : Nat) : Mem := { m with flips := eraseKey a m.flips }

/-- One byte of an SRAM is written with its check bits (R377). -/
def Mem.put8 (m : Mem) (a : Nat) (v : Byte) : Mem := (m.raw8 a v).mend a

/-- `n` bytes from `a` up, as one little-endian number. -/
def Mem.readLE (m : Mem) (a : Nat) : Nat → Nat
  | 0 => 0
  | n + 1 => (m.read8 a).toNat + 256 * m.readLE (a + 1) n

/-- The low `n` bytes of `v` are written from `a` up, the lowest first. -/
def Mem.writeLE (m : Mem) (a : Nat) : Nat → Nat → Mem
  | 0, _ => m
  | n + 1, v => Mem.writeLE (m.put8 a (BitVec.ofNat 8 v)) (a + 1) n (v / 256)

/-- A list of bytes is written from `a` up. -/
def Mem.writeBytes (m : Mem) (a : Nat) : List Byte → Mem
  | [] => m
  | b :: l => Mem.writeBytes (m.put8 a b) (a + 1) l

/-- `n` bytes from `a` up. -/
def Mem.readBytes (m : Mem) (a : Nat) : Nat → List Byte
  | 0 => []
  | n + 1 => m.read8 a :: m.readBytes (a + 1) n

/-- A signed little-endian number of `n` bytes. -/
def Mem.readS (m : Mem) (a n : Nat) : Int := signedOf (8 * n) (m.readLE a n)

/-- The addresses of a memory rise strictly and none is listed with the byte an unlisted address reads as. -/
def Mem.wf (m : Mem) : Bool := risingKeys m.cells && m.cells.all (fun c => decide (c.2 ≠ m.unlisted c.1))

/-- A 64-bit word of a sparse list of such words; an unlisted word reads 0. -/
def readDW (l : List (Nat × DWord)) (k : Nat) : DWord := (lookupKey k l).getD 0

/-- A 64-bit word is written; a zero is not listed. -/
def writeDW (l : List (Nat × DWord)) (k : Nat) (v : DWord) : List (Nat × DWord) :=
  if v = 0 then eraseKey k l else insertKey k v l

end Sys2Proof.Machine
end

