-- ==== Sys2Proof/Machine/State.lean ====
section
/-! DEFINITION. The state of the PL-8512 as plain data: the register files, table memories, stacks and stores the
spec names, and for each engine the working state its rules need from one event to the next. The value of every
field right after a cold reset, with the power-on reset still held, stands in the reset of its structure; working
state that the spec gives no reset value is zero or empty there (DESIGN CHOICE, log entry 2). -/

namespace Sys2Proof.Machine

/-- Why a step stops with a fault. No command of this block makes the machine stop: every rule of the spec that
meets an error sets a flag, answers a status or discards an access, and the block goes on. The one constructor is
kept for the shape of the interface, and nothing raises it (safe). -/
inductive Fault where
  /-- Raised by nothing (safe). -/
  | never
deriving DecidableEq, Repr

/-- Why a command is refused. -/
inductive Refusal where
  /-- Raised by an arm of exec whose command has no meaning yet; `mnemonic` is its row in the opcode table (safe). -/
  | notModelled (mnemonic : String)
deriving DecidableEq, Repr

/-- The blocks that issue Riser commands (R87). -/
inductive CmdSrc where
  | firmware | endpoint | landing | loop | spindle | step (g : Nat) | write | cal
deriving DecidableEq, Repr

/-- The points a host command passes through in a port engine (R344). -/
inductive CmdStage where
  | fetched | locked | granted | posted | bound | missing | transferring | admin
deriving DecidableEq, Repr

/-- An SPDM response, by what the spec says it carries (R428). -/
inductive SpdmAnswer where
  /-- SPDM 1.2. -/
  | version
  /-- What the responder supports: certificates, challenges and measurements with signatures. -/
  | capabilities
  /-- The algorithms selected. -/
  | algorithms (p384 sha384 : Bool)
  /-- The digest of slot 0's chain. -/
  | digests (slot0 : List Byte)
  /-- A portion of slot 0's chain, and the bytes that remain. -/
  | certificate (portion : List Byte) (left : Nat)
  /-- The digest of slot 0's chain, the responder's nonce, and the signature: r, then s. -/
  | challengeAuth (digest nonce signature : List Byte)
  /-- Measurement blocks by index, how many there are, and the signature where one was asked for. -/
  | measurements (count : Nat) (blocks : List (Nat × List Byte)) (signature : Option (List Byte))
  /-- A vendor response: its status, and the entry where it is held. -/
  | vendor (status : Nat) (entry : List Byte)
  /-- An error. -/
  | error
deriving DecidableEq, Repr

/-- The step of the boot sequence that is to end next (R411). -/
inductive BootPhase where
  | held | pll | tiles | scan | candidate | load | sparing | append | recordHeld | replay | release | running | mgmtOnly
deriving DecidableEq, Repr

/-- A schedule slot of a Landing (02_angle_and_time.md, R53 to R59). -/
structure Slot where
  /-- The slot's schedule is running (slot 1: also RUNNING) (R56). -/
  running : Bool
  /-- Number of the schedule the slot runs, 0 to 63 (R52). -/
  sched : Nat
  /-- The index crossing at which the run started, as a revolution number (R55). -/
  startTurn : Int
  /-- The (entry, beam) pairs of this run that have fired or were skipped (R57). -/
  done : List (Nat × Nat)
  /-- An END of slot 0 has fired: nothing fires until the restart at the next index crossing (R54, R57). -/
  ended : Bool
deriving DecidableEq, Repr

/-- Slot right after reset. -/
def Slot.reset : Slot where
  running := false
  sched := 0
  startTurn := 0
  done := []
  ended := false

/-- An event that fell due under an earlier state of the tracker and has not fired (R57). -/
structure Owed where
  /-- Its schedule slot (R57). -/
  slot : Nat
  /-- Its place in the schedule's table (R57). -/
  index : Nat
  /-- The target it fires for (R55). -/
  target : Nat
  /-- CORE cycle at which it fell due (R57). -/
  due : Nat
deriving DecidableEq, Repr

/-- Owed right after reset. -/
def Owed.reset : Owed where
  slot := 0
  index := 0
  target := 0
  due := 0

/-- An armed spare switch (R62). -/
structure SparePlan where
  /-- The position still to be released (R62). -/
  release : Option Nat
  /-- The position still to be covered (R62). -/
  cover : Option Nat
  /-- Crossing time (1/16 ns) of the release that the cover waits for (R62). -/
  notBefore : Nat
deriving DecidableEq, Repr

/-- SparePlan right after reset. -/
def SparePlan.reset : SparePlan where
  release := none
  cover := none
  notBefore := 0

/-- The angle base and the schedules of one head (02_angle_and_time.md). -/
structure AngleSt where
  /-- Schedule position P in 2^-24 counts, not reduced; P itself is this value mod 2^48 (R44). -/
  pos : Int
  /-- The last multiple of 2^24 counts whose index crossing has been taken (R59). -/
  turn : Int
  /-- T_prev in 1/16 ns of package time (R44). -/
  tPrev : Int
  /-- Motor samples taken since the real source took effect, counted to 2 (R51). -/
  srcSamples : Nat
  /-- Meas of the first of them, in counts (R51). -/
  firstMeas : Nat
  /-- Package time at which the last motor sample arrived, 1/16 ns (R48). -/
  arrived : Nat
  /-- Consecutive missing motor samples (R48). -/
  missing : Nat
  /-- CORE cycle at which holdover was entered (R48). -/
  holdSince : Nat
  /-- The angle was lost, and P and W are not updated (R48). -/
  lost : Bool
  /-- Slot 0, the servo schedule (R56). -/
  slot0 : Slot
  /-- Slot 0 is to be started at the next index crossing that serves it (R56). -/
  slot0Wait : Bool
  /-- Slot 1, the data or calibration schedule (R56). -/
  slot1 : Slot
  /-- Slot 1 is to restart at the next index crossing (END with ARG 1) (R54). -/
  restart1 : Bool
  /-- Slot 1 was stopped by a link loss with frames open, whose gate closes still fire (R157). -/
  tail : Bool
  /-- CORE cycle at which P or W last changed otherwise than by extrapolation (R57). -/
  trackAt : Nat
  /-- Events that fell due before that cycle and have not fired (R57). -/
  owed : List Owed
  /-- Layer of the last ZONE_SELECT, of any target, for the spot offsets (R61). -/
  layer : Nat
  /-- Zone of the last ZONE_SELECT, of any target, for the spot offsets (R61). -/
  zone : Nat
  /-- The armed spare switch (R62). -/
  spare : Option SparePlan
  /-- Spare switches sent, newest first: t_e in 1/16 ns, and the position covered from then on (R62, R90). -/
  covers : List (Nat × Option Nat)
  /-- The CORE cycle in which events last fired (R57). -/
  fireCycle : Nat
  /-- Events fired in that cycle, 8 at most (R57). -/
  fireCount : Nat
  /-- CORE cycle at which the last slot 1 schedule ended (R467). -/
  slot1Ended : Option Nat
  /-- Tag of the last MARK event (R54). -/
  markTag : Nat
  /-- Crossing time of the last MARK event, in 1/16 ns (R54). -/
  markTime : Int
  /-- A MARK event asserts the head's interrupt source (R54, R397). -/
  markPend : Bool
deriving DecidableEq, Repr

/-- AngleSt right after reset. -/
def AngleSt.reset : AngleSt where
  pos := 0
  turn := 0
  tPrev := 0
  srcSamples := 0
  firstMeas := 0
  arrived := 0
  missing := 0
  holdSince := 0
  lost := false
  slot0 := .reset
  slot0Wait := true
  slot1 := .reset
  restart1 := false
  tail := false
  trackAt := 0
  owed := []
  layer := 0
  zone := 0
  spare := none
  covers := []
  fireCycle := 0
  fireCount := 0
  slot1Ended := none
  markTag := 0
  markTime := 0
  markPend := false

/-- A Riser command queued for a downstream frame (03_riser_link.md, R82, R87). -/
structure RCmd where
  /-- OPCODE (R83). -/
  op : Nat
  /-- TIMED (R82). -/
  timed : Bool
  /-- T_e in 1/16 ns (the slot carries it mod 2^36) (R82). -/
  te : Nat
  /-- ARG, 48 bits (R82). -/
  arg : Nat
  /-- The block that issued the command (R87). -/
  src : CmdSrc
  /-- For ACT, the loop sample time in ns (R87). -/
  sampleTime : Nat
  /-- For ACT, the loop number used to order it (R87). -/
  loopNo : Nat
  /-- Package time of issue, in 1/16 ns (R87). -/
  issued : Nat
deriving DecidableEq, Repr

/-- RCmd right after reset. -/
def RCmd.reset : RCmd where
  op := 0
  timed := false
  te := 0
  arg := 0
  src := .firmware
  sampleTime := 0
  loopNo := 0
  issued := 0

/-- The record of a command sent and not yet acknowledged (R85). -/
structure SentCmd where
  /-- SEQ (R82). -/
  seq : Nat
  /-- OPCODE (R83). -/
  op : Nat
  /-- ARG (R82). -/
  arg : Nat
  /-- The block that issued it (R87). -/
  src : CmdSrc
  /-- FRAME_NUM of the frame that carried it (R85). -/
  frame : Nat
  /-- Package time of issue, in 1/16 ns (R87). -/
  issued : Nat
deriving DecidableEq, Repr

/-- SentCmd right after reset. -/
def SentCmd.reset : SentCmd where
  seq := 0
  op := 0
  arg := 0
  src := .firmware
  frame := 0
  issued := 0

/-- A downstream frame as built (R68, R74). -/
structure DownFrame where
  /-- FRAME_NUM (R68). -/
  num : Nat
  /-- The SAFE bit (R68). -/
  safe : Bool
  /-- For each beam position, WCOUNT and WBITS (R74, R88). -/
  writeBits : List (Nat × Nat)
  /-- The commands of slots 0 to 3, each with its SEQ (R74, R82). -/
  slots : List (RCmd × Nat)
deriving DecidableEq, Repr

/-- DownFrame right after reset. -/
def DownFrame.reset : DownFrame where
  num := 0
  safe := false
  writeBits := []
  slots := []

/-- What a receiver holds of the block stream (R64, R66): a descrambled block, bad where its codeword was uncorrectable, or
the place of a marker. -/
inductive RxItem where
  | block (bad : Bool) (bits : BitVec 257)
  | marker
deriving DecidableEq, Repr

/-- The receiver of one Riser link (R64 to R67). -/
structure RxSt where
  /-- The last 58 bits on the line, the newest lowest (R64). -/
  descr : BitVec 58
  /-- Blocks and markers received and not yet taken, in order (R66). -/
  items : List RxItem
  /-- The first block held is in the place of a frame start block (R67). -/
  synced : Bool
deriving DecidableEq, Repr

/-- RxSt right after reset. -/
def RxSt.reset : RxSt where
  descr := 0
  items := []
  synced := false

/-- What a transmitter has sent (R64, R79): a group of 60 scrambled blocks, the markers, or QPRBS13 on every lane. -/
inductive TxItem where
  | group (blocks : List (BitVec 257))
  | marker
  | qprbs
deriving DecidableEq, Repr

/-- The transmitter of one Riser link (R64 to R67). -/
structure TxSt where
  /-- The last 58 bits on the line, the newest lowest (R64). -/
  scr : BitVec 58
  /-- Scrambled blocks that wait for the rest of their group, in order (R64). -/
  blocks : List (BitVec 257)
  /-- Groups sent since the last marker (R64). -/
  groups : Nat
  /-- Line bits sent since the origin (R65). -/
  bits : Nat
  /-- Package time at which the present run of frames began, 1/16 ns (R67). -/
  origin : Nat
  /-- What the last frame or training block put on the lanes (R64). -/
  out : List TxItem
deriving DecidableEq, Repr

/-- TxSt right after reset. -/
def TxSt.reset : TxSt where
  scr := 0
  blocks := []
  groups := 0
  bits := 0
  origin := 0
  out := []

/-- The device end of one Riser link (03_riser_link.md). -/
structure RiserSt where
  /-- CORE cycle at which the present training state began (R79). -/
  stateSince : Nat
  /-- CORE cycle of the link loss that AUTO_RETRAIN counts from (R79). -/
  lossAt : Option Nat
  /-- Markers have been found on every lane (R79). -/
  aligned : Bool
  /-- Markers were found with more than 32 ns of skew (R79). -/
  skewed : Bool
  /-- The training block that the device sends (R78). -/
  train : Option (BitVec 256)
  /-- T1 of the echo request that waits for its response, 1/16 ns (R79). -/
  request : Option Nat
  /-- The transmitter (R64). -/
  tx : TxSt
  /-- The receiver (R64). -/
  rx : RxSt
  /-- Echo exchanges made in MEASURE (R79). -/
  echoes : Nat
  /-- The largest D_i so far, in 1/32 ns (R79). -/
  dMax : Nat
  /-- HE_RX_PROC last received, in 1/16 ns (R78). -/
  heRxProc : Nat
  /-- DN_ARRIVE, in 1/16 ns (R79). -/
  dnArrive : Nat
  /-- Consecutive good upstream frames with DN_LOCK = 1 (R79). -/
  goodRun : Nat
  /-- The largest sample latency measured in FRAMED, in 1/16 ns (R79). -/
  latMax : Nat
  /-- Frames over which it was measured (R79). -/
  latFrames : Nat
  /-- Consecutive bad upstream frames (R80). -/
  badRun : Nat
  /-- Consecutive upstream FSBs with DN_LOCK = 0 (R80). -/
  noLockRun : Nat
  /-- The FRAME_NUM that the next upstream frame should carry (R75). -/
  nextNum : Option Nat
  /-- Commands waiting for a frame, in order of issue (R87). -/
  queue : List RCmd
  /-- SEQ of the next command (R82). -/
  seq : Nat
  /-- Commands without an acknowledgement yet (R85). -/
  sent : List SentCmd
  /-- Package time at which the first of the present causes was recognised, 1/16 ns (R91). -/
  safeSince : Nat
  /-- The SAFE causes that persist (R91). -/
  causes : List Nat
  /-- The last downstream frame sent (R67). -/
  lastDown : Option DownFrame
  /-- The de-jitter buffer: FRAME_NUM and samples, none for a bad frame (R77). -/
  buffer : List (Nat × Option (BitVec 57750))
  /-- For each sampler, the number (250 × FRAME_NUM + n) of its next sample (R77). -/
  delivered : List (Nat × Nat)
  /-- Servo and telemetry area of the last good upstream frame (R72). -/
  servo : BitVec 800
  /-- FRAME_NUM of that frame (R72). -/
  servoFrame : Nat
  /-- A good upstream frame has been received since the head reset (R294). -/
  servoSeen : Bool
deriving DecidableEq, Repr

/-- RiserSt right after reset. -/
def RiserSt.reset : RiserSt where
  stateSince := 0
  lossAt := none
  aligned := false
  skewed := false
  train := none
  request := none
  tx := .reset
  rx := .reset
  echoes := 0
  dMax := 0
  heRxProc := 0
  dnArrive := 0
  goodRun := 0
  latMax := 0
  latFrames := 0
  badRun := 0
  noLockRun := 0
  nextNum := none
  queue := []
  seq := 0
  sent := []
  safeSince := 0
  causes := []
  lastDown := none
  buffer := []
  delivered := []
  servo := 0
  servoFrame := 0
  servoSeen := false

/-- An angle-table event on its way to a beam channel (R54, R60). -/
structure GateEv where
  /-- Event TYPE (R54). -/
  kind : Nat
  /-- ARG (R54). -/
  arg : Nat
  /-- Crossing time in 1/16 ns (R58). -/
  te : Int
  /-- The W that the Landing sent with the event (R124). -/
  w : Int
deriving DecidableEq, Repr

/-- GateEv right after reset. -/
def GateEv.reset : GateEv where
  kind := 0
  arg := 0
  te := 0
  w := 0

/-- One track of a frame position once its frame has ended (R139, R147, R151). -/
structure TrackEnd where
  /-- Beam position (R140). -/
  track : Nat
  /-- Frame position (R134). -/
  sector : Nat
  /-- Framing code (R139). -/
  code : Nat
  /-- The gate ended under R134 or R157 (R148). -/
  aborted : Bool
  /-- The gate ended because the schedule stopped, and its slot is not held (R157). -/
  stopped : Bool
  /-- SYNC_POS (R135). -/
  syncPos : Int
  /-- FRAMED_AT (R137). -/
  framedAt : Nat
  /-- Resync marks that showed a slip (R136). -/
  slips : List Nat
  /-- Resync marks that were missed (R136). -/
  misses : List Nat
  /-- The spare stream was in use (R147). -/
  spare : Bool
  /-- The sampler that fed the track (R147). -/
  sampler : Nat
  /-- The retention slot claimed at gate open (R151). -/
  slot : Option Nat
  /-- A defect run was flagged (R131). -/
  defects : Bool
  /-- Package time of the gate open, in 1/16 ns (R134). -/
  tOpen : Int
  /-- Package time of the gate close, in 1/16 ns (R147). -/
  tClose : Int
  /-- Layer in force (R130). -/
  layer : Nat
  /-- Zone in force (R130). -/
  zone : Nat
  /-- REGION in force (R119). -/
  region : Nat
  /-- BAND_EXP in force (R130). -/
  band : Nat
  /-- SET_TAG_EXP in force (R145). -/
  setTag : Nat
  /-- Code strength (R121). -/
  strength : Nat
  /-- LLRs of the data channel bits (R129). -/
  llrs : List Int
  /-- D0 of each data segment from 0 up (R136, R137). -/
  d0s : List Int
  /-- First and last frame bit of each defect run, not extended (R131). -/
  runs : List (Nat × Nat)
  /-- First and last frame bit of each stretch that a defect run erased, with its extension (R131). -/
  dead : List (Nat × Nat)
  /-- Resync index and frame bit of each RESYNC_EXPECT that took effect (R137). -/
  expects : List (Nat × Nat)
deriving DecidableEq, Repr

/-- TrackEnd right after reset. -/
def TrackEnd.reset : TrackEnd where
  track := 0
  sector := 0
  code := 5
  aborted := false
  stopped := false
  syncPos := 0
  framedAt := 0
  slips := []
  misses := []
  spare := false
  sampler := 0
  slot := none
  defects := false
  tOpen := 0
  tClose := 0
  layer := 0
  zone := 0
  region := 0
  band := 0
  setTag := 0
  strength := 0
  llrs := []
  d0s := []
  runs := []
  dead := []
  expects := []

/-- Framing, timing and defect parameters, as a retry latches them (R153, R159). -/
structure ChanPar where
  /-- SYNC_TOL (R135). -/
  syncTol : Nat
  /-- SYNC_THR (R135). -/
  syncThr : Nat
  /-- RESYNC_TOL (R136). -/
  resyncTol : Nat
  /-- RESYNC_THR (R136). -/
  resyncThr : Nat
  /-- RESYNC_WIDE (R137). -/
  resyncWide : Nat
  /-- ACQ_LEN (R125). -/
  acqLen : Nat
  /-- KP_A (R125). -/
  kpA : Nat
  /-- KI_A (R125). -/
  kiA : Nat
  /-- KP_T (R125). -/
  kpT : Nat
  /-- KI_T (R125). -/
  kiT : Nat
  /-- FREQ_LIM (R124). -/
  freqLim : Nat
  /-- ENV_LO (R131). -/
  envLo : Nat
  /-- ENV_HI (R131). -/
  envHi : Nat
  /-- TE_THR (R131). -/
  teThr : Nat
  /-- DEF_MIN (R131). -/
  defMin : Nat
  /-- EXT (R131). -/
  ext : Nat
  /-- EXT_ALT (R154). -/
  extAlt : Nat
  /-- BLANK_LVL (R133). -/
  blankLvl : Nat
deriving DecidableEq, Repr

/-- ChanPar right after reset. -/
def ChanPar.reset : ChanPar where
  syncTol := 0
  syncThr := 0
  resyncTol := 0
  resyncThr := 0
  resyncWide := 0
  acqLen := 0
  kpA := 0
  kiA := 0
  kpT := 0
  kiT := 0
  freqLim := 0
  envLo := 0
  envHi := 0
  teThr := 0
  defMin := 0
  ext := 0
  extAlt := 0
  blankLvl := 0

/-- A retention slot and its descriptor (R150, R151). -/
structure RetSlot where
  /-- 0 FREE, 1 FILLING, 2 DONE, 3 HELD (R151). -/
  state : Nat
  /-- PARTIAL (R150). -/
  partialSlot : Bool
  /-- Samples stored (R151). -/
  count : Nat
  /-- Gate t_e in 1/16 ns (R151). -/
  te : Int
  /-- W at the gate (R151). -/
  w : Int
  /-- Samples not yet written to the stack, the first lowest (R150). -/
  tail : Nat
  /-- The descriptor is uncorrectable (R380). -/
  ue : Bool
  /-- Identity of the frame and its live framing results (R151). -/
  live : TrackEnd
deriving DecidableEq, Repr

/-- RetSlot right after reset. -/
def RetSlot.reset : RetSlot where
  state := 0
  partialSlot := false
  count := 0
  te := 0
  w := 0
  tail := 0
  ue := false
  live := .reset

/-- What the detector gives for a channel bit (R129): its LLR, and its hard decision, where it has one. -/
structure Soft where
  /-- LLR, positive for a space (R129). -/
  llr : Int
  /-- The decision: true is a mark; none of an erased bit (R129, R135). -/
  hard : Option Bool
deriving DecidableEq, Repr

/-- Soft right after reset. -/
def Soft.reset : Soft where
  llr := 0
  hard := none

/-- A channel bit as the equaliser, the detector and the defect detector leave it (R127 to R131). -/
structure ChanBit where
  /-- Y (R128). -/
  y : Int
  /-- Its interpolation window held an erased sample (R127). -/
  hole : Bool
  /-- The defect detector flagged it (R131). -/
  flagged : Bool
  /-- It lies in a defect run or its extension (R131). -/
  dead : Bool
  /-- It is a frame bit, not a resume bit (R126). -/
  frame : Bool
  /-- Its place in the stretch between two gaps (R126, R129). -/
  place : Nat
  /-- The detector's state metrics before it (R129). -/
  alpha : List Int
  /-- What the detector gave for it, 96 bits later (R129). -/
  soft : Option Soft
deriving DecidableEq, Repr

/-- ChanBit right after reset. -/
def ChanBit.reset : ChanBit where
  y := 0
  hole := false
  flagged := false
  dead := false
  frame := true
  place := 0
  alpha := []
  soft := none

/-- The framing of a track as far as it has come (R135 to R138). -/
structure Framing where
  /-- Framing code so far (R139): 3 until a mark has been found. -/
  code : Nat
  /-- SYNC_POS (R135). -/
  syncPos : Int
  /-- FRAMED_AT (R137). -/
  framedAt : Nat
  /-- D0 of each data segment from 0 up (R136, R137). -/
  d0s : List Int
  /-- Resync marks that showed a slip (R136). -/
  slips : List Nat
  /-- Resync marks that were missed (R136). -/
  misses : List Nat
  /-- Marks found, the last first: 0 is the sync mark (R20, R135, R136). -/
  found : List Nat
  /-- 0 sync search, 1 framed, 2 unframed (R135 to R137). -/
  phase : Nat
  /-- First position not yet examined for the sync mark (R135). -/
  look : Nat
  /-- The resync mark that comes next (R136, R137). -/
  mark : Nat
deriving DecidableEq, Repr

/-- Framing right after reset. -/
def Framing.reset : Framing where
  code := 3
  syncPos := 0
  framedAt := 0
  d0s := []
  slips := []
  misses := []
  found := []
  phase := 0
  look := 0
  mark := 1

/-- How a frame ends: by its gate close, cut off in its channel (R134, R157), or with its schedule (R157). -/
inductive FrameEnd where
  | close | cut | stop
deriving DecidableEq, Repr

/-- The open frame of a beam channel (R124 to R138). -/
structure Gate where
  /-- Frame position (R134). -/
  sector : Nat
  /-- Gate-open t_e in 1/16 ns (R134). -/
  te : Int
  /-- W sent with the gate (R124). -/
  w : Int
  /-- Layer in force (R119). -/
  layer : Nat
  /-- Zone in force (R119). -/
  zone : Nat
  /-- REGION in force (R119). -/
  region : Nat
  /-- Table position (R119). -/
  pos : Nat
  /-- Code strength (R121). -/
  strength : Nat
  /-- BAND_EXP latched at gate open (R157). -/
  band : Nat
  /-- SET_TAG_EXP latched at gate open (R157). -/
  setTag : Nat
  /-- Sampler recorded at gate open (R157). -/
  sampler : Nat
  /-- Retention slot claimed (R151). -/
  slot : Option Nat
  /-- ENABLE = 0 or FORCE_ERASE = 1 at gate open, or its table entry is uncorrectable (R157). -/
  erase : Bool
  /-- INC_NOM, 8.24 (R124). -/
  incNom : Int
  /-- F, 8.24 (R124). -/
  freq : Int
  /-- Sampling instant in 2^-24 samples, from the start of package time (R124). -/
  tau : Int
  /-- Bit periods since gate open, gaps counted (R125). -/
  periods : Nat
  /-- Some input sample was not erased (R139). -/
  anySample : Bool
  /-- E_k has stayed below the blank level so far (R133). -/
  blank : Bool
  /-- Channel bits formed, the last first: frame bits, and the resume bits that the detector takes (R126). -/
  bits : List ChanBit
  /-- Frame bits formed (R126). -/
  formed : Nat
  /-- Frame and resume bits formed from a window that held an erased sample (R127). -/
  erased : Nat
  /-- Frame bits that the detector has decided (R129). -/
  decided : Nat
  /-- Channel bits since the last gap (R129). -/
  place : Nat
  /-- The detector's state metrics after the last bit (R129). -/
  alpha : List Int
  /-- The last eighteen bits of the survivor of each detector state, the last lowest (R124). -/
  paths : List Nat
  /-- The framing as far as it has come (R135 to R137). -/
  framing : Framing
  /-- Samples of bit periods 32 to 63, the last first: instant after the start of period 32 in 2^-24 samples, and w (R125). -/
  acq : List (Int × Int)
  /-- The zero-phase start has been made, or a gap has taken its place (R125, R126). -/
  phased : Bool
  /-- A gap has been passed (R126). -/
  resumed : Bool
  /-- The last fifteen z values, the last first (R128). -/
  zs : List Int
  /-- The last 96 y values, the last first (R129, R131). -/
  ys : List Int
  /-- The last sixteen timing errors, the last first (R131). -/
  es : List Int
  /-- Resync index and frame bit of each RESYNC_EXPECT that took effect, the last first (R137). -/
  expects : List (Nat × Nat)
  /-- Length of the flagged run in progress (R131). -/
  flagRun : Nat
  /-- A run reached DEF_MIN (R131). -/
  defects : Bool
  /-- Bits by which the last run is still extended (R131). -/
  deadFor : Nat
  /-- First and last frame bit of each defect run, the last first (R131). -/
  runs : List (Nat × Nat)
  /-- The sampler whose stream the channel consumes (R157). -/
  source : Nat
  /-- The spare stream was in use (R147). -/
  spareSeen : Bool
  /-- Running sum of INC_NOM + F (R160). -/
  sumInc : Int
  /-- Saturations of the equaliser (R128). -/
  sats : Nat
  /-- Clamps of F (R124). -/
  limits : Nat
  /-- E_k of a PCA unit every 32 bits, the last first (R179). -/
  units : List Int
  /-- Window, and the largest and smallest w in it, the last first (R179). -/
  wins : List (Nat × Int × Int)
deriving DecidableEq, Repr

/-- Gate right after reset. -/
def Gate.reset : Gate where
  sector := 0
  te := 0
  w := 0
  layer := 0
  zone := 0
  region := 0
  pos := 0
  strength := 0
  band := 0
  setTag := 0
  sampler := 0
  slot := none
  erase := false
  incNom := 0
  freq := 0
  tau := 0
  periods := 0
  anySample := false
  blank := true
  bits := []
  formed := 0
  erased := 0
  decided := 0
  place := 0
  alpha := []
  paths := []
  framing := .reset
  acq := []
  phased := false
  resumed := false
  zs := []
  ys := []
  es := []
  expects := []
  flagRun := 0
  defects := false
  deadFor := 0
  runs := []
  source := 0
  spareSeen := false
  sumInc := 0
  sats := 0
  limits := 0
  units := []
  wins := []

/-- One beam channel (05_read_channel.md, R118). -/
structure BeamSt where
  /-- The open frame (R134). -/
  gate : Option Gate
  /-- Pending events, 64 at most, oldest first (R60). -/
  events : List GateEv
  /-- Layer of the last ZONE_SELECT that took effect here (R119). -/
  layer : Nat
  /-- Zone of that ZONE_SELECT (R119). -/
  zone : Nat
  /-- ZONE_SELECT waiting for the gate close (R157). -/
  zonePend : Option (Nat × Nat)
  /-- The last RETAIN that took effect enabled retention (R151). -/
  retain : Bool
  /-- RETAIN waiting for the next gate open (R157). -/
  retainPend : Option Bool
  /-- The last sixteen w values and whether each is erased, the last first (R123, R127). -/
  ws : List (Int × Bool)
  /-- The defect signal is asserted (R132). -/
  holding : Bool
  /-- The two retention slots (R150). -/
  slots : List RetSlot
  /-- The 64-byte statistics record (R160). -/
  stats : Mem
deriving DecidableEq, Repr

/-- BeamSt right after reset. -/
def BeamSt.reset : BeamSt where
  gate := none
  events := []
  layer := 0
  zone := 0
  zonePend := none
  retain := false
  retainPend := none
  ws := []
  holding := false
  slots := [.reset, .reset]
  stats := .empty

/-- The result of one codeword of a twill group (R147, R149). -/
structure CwResult where
  /-- Index in the group, 0 to 3 (R140). -/
  index : Nat
  /-- RESULT (R148). -/
  result : Nat
  /-- ITER (R143). -/
  iter : Nat
  /-- HDR_FLAGS (R145). -/
  hdrFlags : Nat
  /-- ERASED_BITS (R147). -/
  erased : Nat
  /-- CORRECTED_BITS (R147). -/
  corrected : Nat
  /-- The decoded bytes, header and data (R142). -/
  data : List Byte
deriving DecidableEq, Repr

/-- CwResult right after reset. -/
def CwResult.reset : CwResult where
  index := 0
  result := 0
  iter := 0
  hdrFlags := 0
  erased := 0
  corrected := 0
  data := []

/-- A retry order (R153). -/
structure Order where
  /-- GROUP (R153). -/
  group : Nat
  /-- SECTOR (R153). -/
  sector : Nat
  /-- KEEP (R153). -/
  keep : Bool
  /-- FAMILIES (R153). -/
  families : Nat
  /-- The four tracks' live results, once started (R154). -/
  ends : List TrackEnd
  /-- Hypotheses run so far (R154). -/
  hyp : Nat
  /-- Hypotheses left: family, track, shift (R154). -/
  todo : List (Nat × Nat × Int)
  /-- Codewords already decoded, before or by this order (R156). -/
  decoded : Nat
  /-- Codewords decoded by this order (R159). -/
  now : Nat
  /-- Parameters as they stood when the order started (R153). -/
  par : ChanPar
  /-- The replay engine has taken it (R153). -/
  started : Bool
  /-- The last decode of each codeword, the first pass included (R146, R147). -/
  last : List CwResult
deriving DecidableEq, Repr

/-- Order right after reset. -/
def Order.reset : Order where
  group := 0
  sector := 0
  keep := false
  families := 0
  ends := []
  hyp := 0
  todo := []
  decoded := 0
  now := 0
  par := .reset
  started := false
  last := []

/-- A frame position of a twill group between its gate closes and its last result (R140, R149). -/
structure GroupRec where
  /-- Twill group (R140). -/
  group : Nat
  /-- Frame position (R140). -/
  sector : Nat
  /-- Tracks whose frame has ended (R140). -/
  ends : List TrackEnd
  /-- Results so far (R147, R149). -/
  results : List CwResult
deriving DecidableEq, Repr

/-- GroupRec right after reset. -/
def GroupRec.reset : GroupRec where
  group := 0
  sector := 0
  ends := []
  results := []

/-- A frame position whose slots are held (R152). -/
structure HeldPos where
  /-- Twill group (R140). -/
  group : Nat
  /-- Frame position (R134). -/
  sector : Nat
  /-- Codewords already delivered, bit a for codeword a (R156). -/
  sent : Nat
  /-- The first-pass results (R146, R147). -/
  results : List CwResult
deriving DecidableEq, Repr

/-- HeldPos right after reset. -/
def HeldPos.reset : HeldPos where
  group := 0
  sector := 0
  sent := 0
  results := []

/-- The Weft unit of one head (R140 to R156). -/
structure WeftSt where
  /-- Frame positions not yet written (R140). -/
  groups : List GroupRec
  /-- Frame positions held, the last first (R152, R156). -/
  held : List HeldPos
  /-- The pending or running order (R153). -/
  order : Option Order
  /-- The defect hold request to the Landing (R132). -/
  holdReq : Bool
  /-- CORE cycle at which the count fell below DH_BEAMS (R132). -/
  fellAt : Option Nat
  /-- Results reported to the Landing with their PSA, newest first (R148). -/
  status : List (Nat × Nat)
  /-- The last frame of beam channel 32 that its decoder has still to take, at its table position (R118). -/
  shadow : Option TrackEnd
  /-- The last frame position of each twill group whose results have been written (R118, R140). -/
  recent : List GroupRec
  /-- What the decoder of beam channel 32 reports (R118). -/
  own : Option CwResult
deriving DecidableEq, Repr

/-- WeftSt right after reset. -/
def WeftSt.reset : WeftSt where
  groups := []
  held := []
  order := none
  holdReq := false
  fellAt := none
  status := []
  shadow := none
  recent := []
  own := none

/-- The replay engine of one tile (R153). -/
structure ReplayEng where
  /-- Local head served last (R153). -/
  last : Nat
  /-- Local head whose order runs (R153). -/
  running : Option Nat
deriving DecidableEq, Repr

/-- ReplayEng right after reset. -/
def ReplayEng.reset : ReplayEng where
  last := 3
  running := none

/-- A write channel descriptor (R162). -/
structure Desc where
  /-- TYPE (R162). -/
  type : Nat
  /-- VERIFY_MODE, FLAGS bit 0 (R162). -/
  mode : Nat
  /-- TAG (R162). -/
  tag : Nat
  /-- LAYER (R162). -/
  layer : Nat
  /-- BAND (R162). -/
  band : Nat
  /-- W0 (R162). -/
  w0 : Nat
  /-- STEPS (R162). -/
  steps : Nat
  /-- MEMBER (R162). -/
  member : Nat
  /-- SET_TAG (R162). -/
  setTag : Nat
  /-- WSEQ (R162). -/
  wseq : Nat
  /-- SRC_ADDR (R162). -/
  srcAddr : Nat
  /-- VREF_ADDR (R162). -/
  vrefAddr : Nat
  /-- RES_ADDR (R162). -/
  resAddr : Nat
deriving DecidableEq, Repr

/-- Desc right after reset. -/
def Desc.reset : Desc where
  type := 0
  mode := 0
  tag := 0
  layer := 0
  band := 0
  w0 := 0
  steps := 0
  member := 0
  setTag := 0
  wseq := 0
  srcAddr := 0
  vrefAddr := 0
  resAddr := 0

/-- An entry of the relocation queue (R186). -/
structure RelocEntry where
  /-- Source address (R186). -/
  src : Nat
  /-- Stripe PSA (R186). -/
  psa : Nat
  /-- Times it has been relocated (R186). -/
  count : Nat
deriving DecidableEq, Repr

/-- RelocEntry right after reset. -/
def RelocEntry.reset : RelocEntry where
  src := 0
  psa := 0
  count := 0

/-- One codeword of the descriptor's band (R184, R190). -/
structure CwState where
  /-- Verify code (R184). -/
  code : Nat
  /-- KIND of its source entry (R163). -/
  kind : Nat
  /-- LANDED (R185). -/
  landed : Bool
  /-- Relocated into this position (R190). -/
  relocHere : Bool
  /-- Queued for relocation (R190). -/
  queued : Bool
  /-- Not queued (R190). -/
  notQueued : Bool
  /-- ADDR of its source, in bytes (R163). -/
  src : Nat
  /-- Stripe PSA of what it carries (R186). -/
  stripePsa : Nat
  /-- Times it has been relocated (R186). -/
  relocs : Nat
  /-- Its source failed the check (R166). -/
  srcError : Bool
  /-- Its information part as written, once encoded (R165). -/
  data : List Byte
  /-- Its verify result has arrived (R184). -/
  verified : Bool
deriving DecidableEq, Repr

/-- CwState right after reset. -/
def CwState.reset : CwState where
  code := 6
  kind := 0
  landed := false
  relocHere := false
  queued := false
  notQueued := false
  src := 0
  stripePsa := 0
  relocs := 0
  srcError := false
  data := []
  verified := false

/-- What OPC measured on one unit and position (R179). -/
structure OpcStep where
  /-- Beam position (R179). -/
  pos : Nat
  /-- Step (R179). -/
  step : Nat
  /-- Power code (R177). -/
  power : Nat
  /-- AMP (R179). -/
  amp : Nat
  /-- BETA (R179). -/
  beta : Int
  /-- ERRORS (R179). -/
  errors : Nat
  /-- BLANK (R179). -/
  blank : Bool
deriving DecidableEq, Repr

/-- OpcStep right after reset. -/
def OpcStep.reset : OpcStep where
  pos := 0
  step := 0
  power := 0
  amp := 0
  beta := 0
  errors := 0
  blank := false

/-- A write gate whose open has been forwarded (R169, R171). -/
structure WGate where
  /-- T_e of the open, in 1/16 ns (R169). -/
  te : Nat
  /-- PERIOD, 8.24 ns (R169). -/
  period : Nat
  /-- T_e of its close, once forwarded, in 1/16 ns (R169). -/
  closeTe : Option Nat
  /-- Channel bits still to be sent, per position (R169). -/
  left : List (List Bool)
  /-- Bits sent for each position (R171). -/
  sent : Nat
deriving DecidableEq, Repr

/-- WGate right after reset. -/
def WGate.reset : WGate where
  te := 0
  period := 0
  closeTe := none
  left := []
  sent := 0

/-- The write channel of one head (06_write_channel.md). -/
structure WriteSt where
  /-- The active descriptor (R161). -/
  desc : Option Desc
  /-- Its codewords, 32s + t (R184). -/
  cws : List CwState
  /-- OFF_min, counts (R168). -/
  offMin : Int
  /-- OFF_max, counts (R168). -/
  offMax : Int
  /-- The offsets of positions 0 to 31 (R168). -/
  offs : List Int
  /-- K of the descriptor's band (R97). -/
  kz : Nat
  /-- F of the descriptor's band (R102). -/
  frames : Nat
  /-- Its strength (R113). -/
  strength : Nat
  /-- Write gate opens forwarded (R169). -/
  opens : Nat
  /-- Write gate closes forwarded (R169). -/
  closes : Nat
  /-- The gates forwarded that are open or still to open, oldest first (R169). -/
  gates : List WGate
  /-- T_e of each close forwarded, in order, in 1/16 ns (R169). -/
  closeTes : List Nat
  /-- T_e of the close that ends the write phase, or of an abort's close, until the phase is over (R169, R188). -/
  endAt : Option Nat
  /-- Read and write power codes of positions 0 to 31, as the descriptor found them (R176). -/
  powers : List (Nat × Nat)
  /-- PW_SCALE of the strategy entries that the opens named, in order (R177). -/
  stratUsed : List Nat
  /-- Frame positions encoded (R165). -/
  encodedTo : Nat
  /-- The descriptor is aborted (R188). -/
  aborted : Bool
  /-- CAUSE (R188). -/
  cause : Nat
  /-- CORE cycle of the abort (R189). -/
  abortAt : Nat
  /-- The abort ended a write phase (R235). -/
  cutPhase : Bool
  /-- Gates that had closed when the abort cause was recognised (R184). -/
  closedThen : Nat
  /-- The descriptor was refused (R164). -/
  refused : Bool
  /-- The write phase ended complete (R169). -/
  writeDone : Bool
  /-- Package time of the first gate open, ns (R190). -/
  tStart : Nat
  /-- Pairs of stripe PSA and new PSA (R190). -/
  relocOld : List (Nat × Nat)
  /-- The relocation queue, oldest first, 64 at most (R186). -/
  relocQueue : List RelocEntry
  /-- Units of a PCA scan that are not BLANK (R182). -/
  scan : List Nat
  /-- OPC measurements (R181). -/
  opc : List OpcStep
  /-- Frames ended by gate close in the readback, scan or verify revolution (R177, R184). -/
  readGates : Nat
  /-- A strategy load waits for the descriptor to complete (R174). -/
  stratPend : Bool
  /-- STRAT_ENTRY of the running load (R174). -/
  stratEntry : Nat
  /-- PW_SCALE of the entry that the running load carries (R172). -/
  stratScale : Nat
  /-- PW_SCALE of each head-end entry loaded (R172, R177). -/
  stratFrom : List (Nat × Nat)
  /-- STRAT_WRITE commands of the load acknowledged OK (R174). -/
  stratAcks : Nat
  /-- A strategy load runs (R174). -/
  stratBusy : Bool
  /-- Package time at which the newest load queued its commands, in 1/16 ns (R174). -/
  stratSince : Nat
  /-- CORE cycle at which the last completion was written (R467). -/
  doneAt : Option Nat
  /-- The LASER commands before the first gate are queued (R176). -/
  laserDone : Bool
deriving DecidableEq, Repr

/-- WriteSt right after reset. -/
def WriteSt.reset : WriteSt where
  desc := none
  cws := []
  offMin := 0
  offMax := 0
  offs := []
  kz := 0
  frames := 0
  strength := 0
  opens := 0
  closes := 0
  gates := []
  closeTes := []
  endAt := none
  powers := []
  stratUsed := []
  encodedTo := 0
  aborted := false
  cause := 0
  abortAt := 0
  cutPhase := false
  closedThen := 0
  refused := false
  writeDone := false
  tStart := 0
  relocOld := []
  relocQueue := []
  scan := []
  opc := []
  readGates := 0
  stratPend := false
  stratEntry := 0
  stratScale := 0
  stratFrom := []
  stratAcks := 0
  stratBusy := false
  stratSince := 0
  doneAt := none
  laserDone := false

/-- A loop sample that has fallen due and is not evaluated yet (R198, R211). -/
structure LoopDue where
  /-- Loop number (R198). -/
  loop : Nat
  /-- Due instant, ns (R198). -/
  time : Nat
  /-- Due CORE cycle (R198). -/
  cycle : Nat
  /-- Bank in force at the due cycle (R206). -/
  bank : Nat
  /-- M taken at the due cycle (R199). -/
  input : Int
  /-- A_ff in force at the due cycle (R202). -/
  ff : Int
  /-- The point at which the injection was applied to the loop at the due cycle, none while it was not (R209). -/
  inj : Option Nat
deriving DecidableEq, Repr

/-- LoopDue right after reset. -/
def LoopDue.reset : LoopDue where
  loop := 0
  time := 0
  cycle := 0
  bank := 0
  input := 0
  ff := 0
  inj := none

/-- The servo fields of one upstream frame, kept for R199. -/
structure ServoRec where
  /-- FRAME_NUM (R199). -/
  num : Nat
  /-- The frame was good (R199). -/
  good : Bool
  /-- Its servo and telemetry area (R72). -/
  area : BitVec 800
  /-- W_m after the frame's tracker update (R239). -/
  wm : Int
  /-- Sled position deviation formed from the frame (R275). -/
  dev : Int
  /-- Corrector position deviation formed from it (R275). -/
  devSa : Int
deriving DecidableEq, Repr

/-- ServoRec right after reset. -/
def ServoRec.reset : ServoRec where
  num := 0
  good := false
  area := 0
  wm := 0
  dev := 0
  devSa := 0

/-- The loop engine's working state of one head (07_loop_engine.md). -/
structure LoopSt where
  /-- Samples due and not evaluated, in order (R198). -/
  due : List LoopDue
  /-- The input each loop used at its previous sample (R199). -/
  lastIn : List (Nat × Int)
  /-- The last output each loop delivered (R229). -/
  lastOut : List (Nat × Int)
  /-- The upstream frames of the last 4.4 us, newest first (R199). -/
  servo : List ServoRec
  /-- Values of head sinks 0 and 1 (R204). -/
  sinks : List (Nat × Int)
  /-- What loop n delivered to head sink 2 + g, at key 2 n + g: the CORE cycle of package time in which it did, the value,
  and the value it had delivered before (R204, R267). -/
  trims : List (Nat × Nat × Int × Int)
  /-- For each loop on source 4, the number of VALID wedges seen at its last sample (R226). -/
  teUsed : List (Nat × Nat)
  /-- The last due instant of each loop sampled on package time, ns (R198). -/
  lastDue : List (Nat × Nat)
  /-- Layer of the last ZONE_SELECT with TARGET 33 or 34, or of the last selection (R206, R231). -/
  layer : Nat
  /-- Zone of the last ZONE_SELECT with TARGET 33 or 34, or of the last selection (R206, R231). -/
  zone : Nat
  /-- The loop statistics memory (R213). -/
  statMem : Mem
  /-- The loop state memory (R196). -/
  stateMem : Mem
  /-- The topology memory (R194). -/
  topoMem : Mem
  /-- The coefficient sets (R195). -/
  setMem : Mem
  /-- The bank table (R195). -/
  bankMem : Mem
  /-- The region map (R207). -/
  regionMem : Mem
deriving DecidableEq, Repr

/-- LoopSt right after reset. -/
def LoopSt.reset : LoopSt where
  due := []
  lastIn := []
  lastOut := []
  servo := []
  sinks := []
  trims := []
  teUsed := []
  lastDue := []
  layer := 0
  zone := 0
  statMem := .empty
  stateMem := .empty
  topoMem := .empty
  setMem := .empty
  bankMem := .empty
  regionMem := .empty

/-- A rising stripe edge inside the wedge window (R221). -/
structure Edge where
  /-- Its instant, 1/16 ns (R221). -/
  at16 : Int
  /-- Its relative angle, counts (R221). -/
  q : Int
deriving DecidableEq, Repr

/-- Edge right after reset. -/
def Edge.reset : Edge where
  at16 := 0
  q := 0

/-- A wedge window of the demodulator (R221, R222). -/
structure Window where
  /-- T_e of its open, 1/16 ns (R221). -/
  openTe : Int
  /-- T_e of its close, 1/16 ns, once closed (R222). -/
  closeTe : Int
  /-- Wedge number (R221). -/
  num : Nat
  /-- A frame overlapping the window was bad (R222). -/
  bad : Bool
  /-- INPUTS[12] was set in such a frame (R222). -/
  ovf : Bool
deriving DecidableEq, Repr

/-- Window right after reset. -/
def Window.reset : Window where
  openTe := 0
  closeTe := 0
  num := 0
  bad := false
  ovf := false

/-- The Landing's working state of one head (08_focus_tracking.md). -/
structure LandSt where
  /-- The running HCMD command (R219). -/
  cmd : Option Nat
  /-- The mark last found in each beam channel, as the Weft unit reports it: 0 is the sync mark (R20). -/
  found : List (Nat × Nat)
  /-- The state CALIB was entered from (R217). -/
  origin : Nat
  /-- The Landing orders SAFE (FAULT) (R217). -/
  safeOrdered : Bool
  /-- The open wedge window (R221). -/
  winOpen : Option Window
  /-- The closed window that awaits its frames (R222). -/
  winClose : Option Window
  /-- Edges taken in the window, oldest first (R221). -/
  edges : List Edge
  /-- Bits of the ID word being read (R225). -/
  idBits : Nat
  /-- Consecutive VALID wedges of that word (R225). -/
  idCount : Nat
  /-- E at the word's first wedge (R225). -/
  idFirstE : Int
  /-- The word and the revolution that the ID bits belong to (R225). -/
  idOf : Int × Int
  /-- RHO of the last VALID wedge (R224). -/
  rhoOld : Option Nat
  /-- VALID wedges so far (R226). -/
  wedges : Nat
  /-- TE of the latest VALID wedge (R226). -/
  teLast : Int
  /-- Consecutive good wedges on the target (R233). -/
  lockRun : Nat
  /-- Consecutive VALID wedges with large TE (R233). -/
  lossRun : Nat
  /-- Consecutive wedges not VALID, holds left out (R233). -/
  invRun : Nat
  /-- Consecutive wedges not VALID (R235). -/
  wiInvRun : Nat
  /-- The latest VALID wedge had |TE| above WI_THR (R235). -/
  wiTe : Bool
  /-- LASER commands of FOCUS_ON still unacknowledged (R227). -/
  laserAcks : Nat
  /-- Package time at which FOCUS_ON issued its LASER commands, in 1/16 ns (R227). -/
  laserSince : Nat
  /-- TARGET_LAYER as the running FOCUS_ON took it (R219). -/
  sweepLayer : Nat
  /-- CAP_N as the running FOCUS_ON took it (R219). -/
  sweepCap : Nat
  /-- The servo fields that the last focus sample used (R199). -/
  servoLast : BitVec 800
  /-- V of the sweep (R227). -/
  sweepV : Option Int
  /-- The previous FOCUS_SUM of the sweep (R227). -/
  sumPrev : Nat
  /-- N of the sweep (R227). -/
  capCount : Nat
  /-- S0 of the sweep, 0 while not known (R227). -/
  capSign : Int
  /-- CORE cycle of the capture (R228). -/
  captureAt : Nat
  /-- Consecutive samples that meet the lock test (R228). -/
  goodFocus : Nat
  /-- Consecutive samples below FSUM_LOSS (R228). -/
  lossFocus : Nat
  /-- D of the layer jump, 0 when none runs (R229). -/
  jumpDir : Int
  /-- 0 none, 1 moving the corrector, 2 kick, 3 wait for the crossing, 4 brake, 5 lock (R229). -/
  jumpPhase : Nat
  /-- CORE cycle at which the phase began (R229). -/
  jumpAt : Nat
  /-- CORE cycle of the kick (R229). -/
  jumpKick : Nat
  /-- U0 (R229). -/
  jumpU0 : Int
  /-- FOCUS_SUM has fallen below FSUM_CAP (R229). -/
  jumpFell : Bool
  /-- And risen again (R229). -/
  jumpRose : Bool
  /-- Sign of FOCUS_ERR at that rise (R229). -/
  jumpSign : Int
  /-- Consecutive SA samples in window (R229). -/
  saRun : Nat
  /-- A TRACK_ON or SEEK runs (R232). -/
  seekOn : Bool
  /-- It is TRACK_ON (R232). -/
  seekTrackOn : Bool
  /-- TARGET_E of the seek (R232). -/
  seekTarget : Int
  /-- TARGET_LAYER of the seek (R232). -/
  seekLayer : Nat
  /-- CORE cycle at which the present step began (R232). -/
  seekAt : Nat
  /-- Coarse moves made (R232). -/
  seekTries : Nat
  /-- TARGET_E in force (R226). -/
  target : Int
  /-- CORE cycle at which it was asserted (R234). -/
  holdAt : Nat
  /-- A hold timed out and the request has not fallen since (R234). -/
  holdBlocked : Bool
  /-- INPUTS of the last good frame (R236). -/
  lastInputs : Nat
  /-- Values of ACT 0 and ACT 1 that wait for the next sample of an event-driven loop (R220). -/
  acts : List (Nat × Int)
deriving DecidableEq, Repr

/-- LandSt right after reset. -/
def LandSt.reset : LandSt where
  cmd := none
  found := []
  origin := 1
  safeOrdered := false
  winOpen := none
  winClose := none
  edges := []
  idBits := 0
  idCount := 0
  idFirstE := 0
  idOf := (0, 0)
  rhoOld := none
  wedges := 0
  teLast := 0
  lockRun := 0
  lossRun := 0
  invRun := 0
  wiInvRun := 0
  wiTe := false
  laserAcks := 0
  laserSince := 0
  sweepLayer := 0
  sweepCap := 1
  servoLast := 0
  sweepV := none
  sumPrev := 65535
  capCount := 0
  capSign := 0
  captureAt := 0
  goodFocus := 0
  lossFocus := 0
  jumpDir := 0
  jumpPhase := 0
  jumpAt := 0
  jumpKick := 0
  jumpU0 := 0
  jumpFell := false
  jumpRose := false
  jumpSign := 0
  saRun := 0
  seekOn := false
  seekTrackOn := false
  seekTarget := 0
  seekLayer := 0
  seekAt := 0
  seekTries := 0
  target := 0
  holdAt := 0
  holdBlocked := false
  lastInputs := 0
  acts := []

/-- The spindle drive's working state of one head (09_spindle_drive.md). -/
structure SpinSt where
  /-- P_m in 2^-24 counts, 0 to 2^48 - 1 (R239). -/
  theta : Int
  /-- Time of the last tracker update, 1/16 ns (R239). -/
  tPrev : Int
  /-- Samples since the tracker started, counted to 2 (R239). -/
  samples : Nat
  /-- The timeout of R240 runs (R240). -/
  seen : Bool
  /-- Package time at which the last good frame with ANGLE_VALID = 1 arrived, ns (R240). -/
  lastGood : Nat
  /-- An angle fault lasts (R240). -/
  fault : Bool
  /-- CORE cycle since which |W_m| has stayed below STOP_W (R240). -/
  below : Option Nat
  /-- A stop request waits for the end of a check probe (R254). -/
  stopHeld : Bool
  /-- FRAME_NUM of the frame whose overvoltage run tripped last (R262). -/
  ovFrame : Option Nat
  /-- A stop of STOP_MODE 0 is in progress (R248). -/
  stopReq : Bool
  /-- CORE cycle of the catch request (R248). -/
  catchAt : Nat
  /-- The probe's purpose is a catch (R247). -/
  probeCatch : Bool
  /-- Bad probes so far (R253). -/
  probeTries : Nat
  /-- Arrival of the frame with BRIDGE 0, in 0.1 ns (R252). -/
  settleAt : Option Nat
  /-- F_on, ns (R252). -/
  fOn : Option Nat
  /-- F_off, ns (R252). -/
  fOff : Option Nat
  /-- BRIDGE commands of the probe acknowledged OK (R253). -/
  probeAcks : Nat
  /-- The probe sample, once frame F_off has arrived good: i_q,p and W_m (R252). -/
  probeSample : Option (Int × Int)
  /-- The check probe of this start has been made or does not apply (R254). -/
  checkDone : Bool
  /-- CORE cycle of entering DRIVE or of the last change of T (R246). -/
  driveAt : Nat
  /-- T at the last speed sample (R245). -/
  target : Nat
  /-- Consecutive speed samples within tolerance (R246). -/
  atRun : Nat
  /-- AT_SPEED has been set in time, or SPIN_TIMEOUT reported (R246). -/
  atTimeout : Bool
  /-- A_ff of FF_SRC 2 (R245). -/
  aff : Int
  /-- Consecutive limited samples, counted to 8 (R243). -/
  limRun : Nat
  /-- Consecutive samples not limited, counted to 64 (R243). -/
  unlimRun : Nat
  /-- Consecutive good frames at or above the overvoltage level (R259). -/
  ovRun : Nat
  /-- Consecutive good frames above OC_LIM (R260). -/
  ocRun : Nat
  /-- Consecutive good frames at VB_REGEN with the chopper silent (R258). -/
  silentRun : Nat
  /-- The CHOP_SILENT latch (R258). -/
  silentLatch : Bool
  /-- An ACT 7 of at least 2^30 has ever been acknowledged OK (R258). -/
  chopAcked : Bool
  /-- CORE cycle since which V_BUS has been at VB_OV in SAFE (R259). -/
  ovSince : Option Nat
  /-- CORE cycle at which ALIGN began (R261). -/
  alignAt : Nat
  /-- V_BUS of the latest good frame (R245). -/
  lastBus : Nat
deriving DecidableEq, Repr

/-- SpinSt right after reset. -/
def SpinSt.reset : SpinSt where
  theta := 0
  tPrev := 0
  samples := 0
  seen := false
  lastGood := 0
  fault := false
  below := none
  stopHeld := false
  ovFrame := none
  stopReq := false
  catchAt := 0
  probeCatch := false
  probeTries := 0
  settleAt := none
  fOn := none
  fOff := none
  probeAcks := 0
  probeSample := none
  checkDone := true
  driveAt := 0
  target := 0
  atRun := 0
  atTimeout := false
  aff := 0
  limRun := 0
  unlimRun := 0
  ovRun := 0
  ocRun := 0
  silentRun := 0
  silentLatch := false
  chopAcked := false
  ovSince := none
  alignAt := 0
  lastBus := 0

/-- A planned move, stop ramp or jog of a step generator (R268, R270, R271). -/
structure Plan where
  /-- 0 trapezoidal move, 1 jog, 2 stop ramp (R268). -/
  kind : Nat
  /-- Direction (R268). -/
  s : Int
  /-- Acceleration, 2^-32 microsteps per tick squared (R268). -/
  a : Nat
  /-- N1 (stop ramp: k) (R268). -/
  n1 : Nat
  /-- N2 (R268). -/
  n2 : Nat
  /-- R (R268). -/
  r : Nat
  /-- C (R268). -/
  c : Nat
  /-- Jog velocity (R270). -/
  vj : Nat
  /-- Ticks run (R268). -/
  j : Nat
  /-- END_CODE the plan will end with (R271). -/
  endCode : Nat
deriving DecidableEq, Repr

/-- Plan right after reset. -/
def Plan.reset : Plan where
  kind := 0
  s := 0
  a := 0
  n1 := 0
  n2 := 0
  r := 0
  c := 0
  vj := 0
  j := 0
  endCode := 0

/-- The working state of one step generator (10_sled_motion.md). -/
structure StepSt where
  /-- Commanded position X, 2^-32 microsteps, within 64 bits (R265). -/
  x : Int
  /-- The last 64 ticks, newest first: package time in us, and X after the tick (R274). -/
  hist : List (Nat × Int)
  /-- The plan that runs (R268). -/
  plan : Option Plan
  /-- Vp of the last tick (R271). -/
  lastVp : Int
  /-- END_CODE of a ramped stop to be taken at the next tick (R271). -/
  stopReq : Option Nat
  /-- END_CODE of a hard stop to be taken at the next tick (R271). -/
  hardReq : Option Nat
  /-- M after the last tick (R266). -/
  lastM : Nat
  /-- Package time at which m last changed, us (R266). -/
  mChanged : Nat
  /-- X_ORG (R274). -/
  xOrg : Int
  /-- ENC_ORG (R274). -/
  encOrg : Int
  /-- REBASE waits for the next good frame (R274). -/
  rebase : Bool
  /-- Arrival of the first ACT pair after the head reset, 0.1 ns (R274). -/
  firstAct : Option Nat
  /-- Raw state of the low switch in the last good frame (R278). -/
  rawLo : Bool
  /-- A good frame has been judged since the head reset (R278). -/
  rawSeen : Bool
  /-- Raw state of the high switch in that frame (R278). -/
  rawHi : Bool
  /-- Consecutive good frames that differ from the debounced low state (R278). -/
  runLo : Nat
  /-- The same of the high switch (R278). -/
  runHi : Nat
  /-- Position field and X_hist of the first frame of that run with ENC_VALID = 1 (R279). -/
  runLoPos : Option (Int × Int)
  /-- Raw changes of the low switch since its debounced state changed (R278). -/
  chatLo : Nat
  /-- The same of the high switch (R278). -/
  chatHi : Nat
  /-- CHATTER has been declared for the low switch since its debounced state changed (R278). -/
  chatSaidLo : Bool
  /-- The same of the high switch (R278). -/
  chatSaidHi : Bool
  /-- The phase current is reduced to I_HOLD (R266). -/
  reduced : Bool
  /-- The origin latch that follows a head reset has been made (R274). -/
  autoOrg : Bool
  /-- Consecutive frames beyond STALL_WIN (R276). -/
  stallRun : Nat
  /-- Consecutive frames beyond LOST_WIN (R276). -/
  lostRun : Nat
  /-- The stall check is armed (R276). -/
  stallArmed : Bool
  /-- The lost-step check is armed (R276). -/
  lostArmed : Bool
  /-- X at which the homing phase began (R279). -/
  phaseX : Int
  /-- Homing phase to start at the next tick, 0 for none (R279). -/
  phaseNext : Nat
  /-- Travel limit of the homing phase, latched as it starts, 2^-32 microsteps (R269, R279). -/
  phaseLimit : Nat
  /-- Position field and X_hist of the first frame with ENC_VALID = 1 of the run that last released the low switch
  (R279). -/
  released : Option (Int × Int)
deriving DecidableEq, Repr

/-- StepSt right after reset. -/
def StepSt.reset : StepSt where
  x := 0
  hist := []
  plan := none
  lastVp := 0
  stopReq := none
  hardReq := none
  lastM := 0
  mChanged := 0
  xOrg := 0
  encOrg := 0
  rebase := false
  firstAct := none
  rawLo := false
  rawSeen := false
  rawHi := false
  runLo := 0
  runHi := 0
  runLoPos := none
  chatLo := 0
  chatHi := 0
  chatSaidLo := false
  chatSaidHi := false
  reduced := false
  autoOrg := false
  stallRun := 0
  lostRun := 0
  stallArmed := true
  lostArmed := true
  phaseX := 0
  phaseNext := 0
  phaseLimit := 0
  released := none

/-- What one window of a REF_SWEEP gathered (R290). -/
structure CalStep where
  /-- The reference written (R290). -/
  ref : Int
  /-- Sum of the MSE words (R290). -/
  sum : Nat
  /-- Frames counted (R290). -/
  n : Nat
  /-- Start of the window's measurement span, 1/16 ns (R286). -/
  lo : Int
  /-- T_e of the window's close, 1/16 ns, once it has closed (R286). -/
  hi : Option Int
deriving DecidableEq, Repr

/-- CalStep right after reset. -/
def CalStep.reset : CalStep where
  ref := 0
  sum := 0
  n := 0
  lo := 0
  hi := none

/-- The calibration block of one head (11_calibration.md). -/
structure CalSt where
  /-- KIND of the armed job (R284). -/
  kind : Nat
  /-- Number of the armed job (R285). -/
  job : Nat
  /-- A window of the job is open (R286). -/
  window : Bool
  /-- T_e of its open, 1/16 ns (R286). -/
  openTe : Int
  /-- T_e of the last window's close, whose samples or evaluations are still awaited, 1/16 ns (R286). -/
  closeTe : Option Int
  /-- The measurement span runs (R286). -/
  spanOn : Bool
  /-- Package time of the first window open, ns (R292). -/
  tOpen : Nat
  /-- TEMP at the first window open (R292). -/
  tempOpen : Nat
  /-- Samples, frames or evaluations counted (R292). -/
  n : Nat
  /-- Excluded count (R292). -/
  excluded : Nat
  /-- Clipped samples (R288). -/
  clipped : Nat
  /-- TONE: nominal instant (1/16 ns, times 10) and sample, newest first (R288). -/
  samples : List (Int × Int)
  /-- LOOP_GAIN: due instant, x and x + inj, newest first (R291). -/
  evals : List (Int × Int × Int)
  /-- REF_SWEEP: the windows so far (R290). -/
  steps : List CalStep
  /-- The LOOP_REF saved at the open of window 0, until it is restored (R290). -/
  base : Option Int
  /-- BASE: that LOOP_REF, for the fit (R290). -/
  baseRef : Int
  /-- The head has been in a state that the armed job's kind allows (R287). -/
  stateSeen : Bool
  /-- The link has been UP outside SAFE since the job was armed (R287). -/
  linkSeen : Bool
  /-- The job set INJ_EN (R285). -/
  injSet : Bool
  /-- The job's CAL_STIM awaits its acknowledgement (R287). -/
  stimSent : Bool
  /-- Operations waiting: 0 interpolation, 1 COMMIT, 2 ERASE, 3 LOAD_INTERP, 4 LOAD_SLOT (R299). -/
  queue : List Nat
  /-- The operation that runs (R299). -/
  running : Option Nat
  /-- SLOT of the running commit (R298). -/
  commitSlot : Nat
  /-- TEMP at the start of the running interpolation (R295). -/
  interpTemp : Int
  /-- The values it has formed, in the layout of a slot (R295). -/
  interpOut : Mem
  /-- INTERP_USED of the running interpolation (R295). -/
  interpUsed : Nat
  /-- Last millisecond of package time checked for AUTO (R295). -/
  lastAuto : Nat
  /-- TEMP is valid (R295). -/
  tempOk : Bool
  /-- The values last applied by interpolation, in the layout of a slot (R297). -/
  lastApplied : Mem
  /-- Kinds ever applied since the head reset (R297). -/
  appliedKinds : Nat
  /-- SCORR values still in force where a later write waits for a gate open: 64 times the beam channel plus the sampler, value (gain, offset << 16, skew << 32) (R296). -/
  heldScorr : List (Nat × Nat)
  /-- The job table (R284). -/
  jobMem : Mem
  /-- The job result (R292). -/
  resultMem : Mem
  /-- The result buffer (R297). -/
  bufferMem : Mem
  /-- The position table (R230). -/
  posMem : Mem
  /-- The calibration defaults of the position table, as loaded (R295). -/
  posDefault : Mem
deriving DecidableEq, Repr

/-- CalSt right after reset. -/
def CalSt.reset : CalSt where
  kind := 0
  job := 0
  window := false
  openTe := 0
  closeTe := none
  spanOn := false
  tOpen := 0
  tempOpen := 0
  n := 0
  excluded := 0
  clipped := 0
  samples := []
  evals := []
  steps := []
  base := none
  baseRef := 0
  stateSeen := false
  linkSeen := false
  injSet := false
  stimSent := false
  queue := []
  running := none
  commitSlot := 0
  interpTemp := 0
  interpOut := .empty
  interpUsed := 0
  lastAuto := 0
  tempOk := true
  lastApplied := .empty
  appliedKinds := 0
  heldScorr := []
  jobMem := .empty
  resultMem := .empty
  bufferMem := .empty
  posMem := .empty
  posDefault := .empty

/-- An entry of the set section of the bit-stream (R301). -/
structure SetDef where
  /-- N, 0 for an unused entry (R301). -/
  n : Nat
  /-- HOME (R301). -/
  home : Nat
  /-- MODE: gather (R301). -/
  gather : Bool
  /-- VBA (R301). -/
  vba : Bool
  /-- JBASE, in 64-bit words (R301). -/
  jbase : Nat
  /-- JWORDS (R301). -/
  jwords : Nat
  /-- MAP_BASE, in 4 KiB units (R301). -/
  mapBase : Nat
  /-- MAP_SIZE, in 4 KiB units (R301). -/
  mapSize : Nat
  /-- SET_UID (R301). -/
  uid : Nat
  /-- HEAD[m] (R301). -/
  heads : List Nat
deriving DecidableEq, Repr

/-- SetDef right after reset. -/
def SetDef.reset : SetDef where
  n := 0
  home := 0
  gather := false
  vba := false
  jbase := 0
  jwords := 0
  mapBase := 0
  mapSize := 0
  uid := 0
  heads := []

/-- An extent of the logical map (R319, R320). -/
structure Extent where
  /-- First LBN (R320). -/
  lbn : Nat
  /-- Blocks (R320). -/
  count : Nat
  /-- WSEQ of the first block (R320). -/
  wseq : Nat
  /-- Member of the first block (R320). -/
  member : Nat
  /-- Slot of the first block (R320). -/
  slot : Nat
  /-- SUPERSEDED (R320). -/
  superseded : Bool
deriving DecidableEq, Repr

/-- Extent right after reset. -/
def Extent.reset : Extent where
  lbn := 0
  count := 0
  wseq := 0
  member := 0
  slot := 0
  superseded := false

/-- A band record of the map (R320). -/
structure BandRec where
  /-- WSEQ_FIRST (R320). -/
  wseqFirst : Nat
  /-- PSA of stripe 0 (R320). -/
  psa : Nat
  /-- Open mask (R320). -/
  mask : Nat
deriving DecidableEq, Repr

/-- BandRec right after reset. -/
def BandRec.reset : BandRec where
  wseqFirst := 0
  psa := 0
  mask := 0

/-- A relocation record of the map (R320). -/
structure RelocRec where
  /-- Member (R320). -/
  member : Nat
  /-- Old PSA (R320). -/
  old : Nat
  /-- New PSA (R320). -/
  new : Nat
deriving DecidableEq, Repr

/-- RelocRec right after reset. -/
def RelocRec.reset : RelocRec where
  member := 0
  old := 0
  new := 0

/-- A void record of the map (R320). -/
structure VoidRec where
  /-- First WSEQ (R320). -/
  wseq : Nat
  /-- Stripes (R320). -/
  count : Nat
deriving DecidableEq, Repr

/-- VoidRec right after reset. -/
def VoidRec.reset : VoidRec where
  wseq := 0
  count := 0

/-- A remap record of the map (R320). -/
structure RemapRec where
  /-- Member (R320). -/
  member : Nat
  /-- WSEQ_FIRST of the band (R320). -/
  wseqFirst : Nat
  /-- Target band value (R320). -/
  target : Nat
deriving DecidableEq, Repr

/-- RemapRec right after reset. -/
def RemapRec.reset : RemapRec where
  member := 0
  wseqFirst := 0
  target := 0

/-- A pair of a DELTA record (R316). -/
structure DeltaPair where
  /-- First LBN (R316). -/
  lbn : Nat
  /-- Blocks (R316). -/
  count : Nat
  /-- Stripe index (R316). -/
  stripe : Nat
  /-- Data member (R316). -/
  member : Nat
  /-- Slot of the first block (R316). -/
  slot : Nat
deriving DecidableEq, Repr

/-- DeltaPair right after reset. -/
def DeltaPair.reset : DeltaPair where
  lbn := 0
  count := 0
  stripe := 0
  member := 0
  slot := 0

/-- A band opened by the set and its stripes (R312, R313). -/
structure OpenBand where
  /-- WSEQ_FIRST (R306). -/
  wseqFirst : Nat
  /-- 32F (R306). -/
  count : Nat
  /-- PSA of stripe 0 (R316). -/
  psa : Nat
  /-- Open mask (R316). -/
  mask : Nat
  /-- Members that became ABSENT with DROP = 1 (R312). -/
  dropped : Nat
  /-- For each member, the landed bit of each stripe index (R312). -/
  landed : List (Nat × Nat)
  /-- Stripes with a COMMIT (R313). -/
  committed : Nat
  /-- Stripes with a VOID (R313). -/
  voided : Nat
  /-- Stripes left PARITY_PENDING by replay (R317). -/
  pendingParity : Nat
  /-- Durable deltas (R316). -/
  deltas : List DeltaPair
  /-- Target band value of each remapped member (R318). -/
  remaps : List (Nat × Nat)
deriving DecidableEq, Repr

/-- OpenBand right after reset. -/
def OpenBand.reset : OpenBand where
  wseqFirst := 0
  count := 0
  psa := 0
  mask := 0
  dropped := 0
  landed := []
  committed := 0
  voided := 0
  pendingParity := 0
  deltas := []
  remaps := []

/-- A Bolt descriptor (R327). -/
structure BoltDesc where
  /-- TYPE (R327). -/
  type : Nat
  /-- SET (R327). -/
  set : Nat
  /-- TAG (R327). -/
  tag : Nat
  /-- S0 (R327). -/
  s0 : Nat
  /-- NS or record count (R327). -/
  ns : Nat
  /-- WSEQ_FIRST (R327). -/
  wseqFirst : Nat
  /-- MEMBER (R327). -/
  member : Nat
  /-- Target band value (R327). -/
  target : Nat
  /-- ADDR (R327). -/
  addr : Nat
  /-- RES_ADDR (R327). -/
  resAddr : Nat
  /-- LAND completion record address (R327). -/
  landAddr : Nat
  /-- PSA of stripe 0 (R327). -/
  psa : Nat
  /-- CHECKPOINT_SEQ (R327). -/
  ckptSeq : Nat
  /-- WSEQ_AT (R327). -/
  wseqAt : Nat
deriving DecidableEq, Repr

/-- BoltDesc right after reset. -/
def BoltDesc.reset : BoltDesc where
  type := 0
  set := 0
  tag := 0
  s0 := 0
  ns := 0
  wseqFirst := 0
  member := 0
  target := 0
  addr := 0
  resAddr := 0
  landAddr := 0
  psa := 0
  ckptSeq := 0
  wseqAt := 0

/-- A journal record written and not yet durable (R314, R315). -/
structure JRec where
  /-- TYPE (R316). -/
  type : Nat
  /-- Word at which its header lies (R315). -/
  pos : Nat
  /-- JSEQ (R315). -/
  jseq : Nat
  /-- Body words (R316). -/
  body : List DWord
  /-- It stands in the primary copy and waits for the mirror (R314). -/
  half : Bool
  /-- The descriptor that is complete once it is durable (R328). -/
  desc : Option BoltDesc
deriving DecidableEq, Repr

/-- JRec right after reset. -/
def JRec.reset : JRec where
  type := 0
  pos := 0
  jseq := 0
  body := []
  half := false
  desc := none

/-- A change to the map that waits for room (R319). -/
structure MapWait where
  /-- The WSEQ that orders it (R319). -/
  wseq : Nat
  /-- Band records (R319). -/
  bands : List BandRec
  /-- Remap records (R319). -/
  remaps : List RemapRec
  /-- Relocation records (R319). -/
  relocs : List RelocRec
  /-- Void records (R319). -/
  voids : List VoidRec
  /-- Committed stripes whose updates MAP_REPLAY brings (R321). -/
  commits : List Nat
  /-- It belongs to a MAP_REPLAY (R321). -/
  loads : Bool
  /-- The descriptor that completes with it (R319). -/
  desc : Option BoltDesc
  /-- It came from the background ring (R319). -/
  background : Bool
deriving DecidableEq, Repr

/-- MapWait right after reset. -/
def MapWait.reset : MapWait where
  wseq := 0
  bands := []
  remaps := []
  relocs := []
  voids := []
  commits := []
  loads := false
  desc := none
  background := false

/-- One archive set (12_archive_sets.md). -/
structure ASet where
  /-- Its entry (R301). -/
  cfg : SetDef
  /-- Write position (R315). -/
  wpos : Nat
  /-- Records written and not yet durable, oldest first (R314). -/
  queue : List JRec
  /-- Durable records that the mirror still lacks, oldest first (R314). -/
  lag : List JRec
  /-- Records that replay decided and for which there was no room: TYPE and body, in WSEQ order (R317). -/
  owed : List (Nat × List DWord)
  /-- Relocation pairs whose new copies are landed (R312). -/
  pairs : List RelocRec
  /-- Changes to the map that wait for room (R319). -/
  waits : List MapWait
  /-- Open bands, by WSEQ (R313). -/
  bands : List OpenBand
  /-- The band table (R319). -/
  bandRecs : List BandRec
  /-- The remap table (R319). -/
  remapRecs : List RemapRec
  /-- The relocation table (R319). -/
  relocRecs : List RelocRec
  /-- The void table (R319). -/
  voidRecs : List VoidRec
  /-- The extent table (R319). -/
  extents : List Extent
  /-- Extents dropped from the map (R340). -/
  dropped : List Extent
  /-- The MAP_REPLAY descriptors whose changes wait for room, and whether each came from the background ring (R319,
  R321). -/
  loading : List (BoltDesc × Bool)
  /-- MAP_REPLAY has completed since the last boot (R321). -/
  mapReady : Bool
  /-- Journal replay has completed since the last boot (R317). -/
  replayed : Bool
  /-- Live records: position, and the highest WSEQ each names or whose band it names (R321). -/
  recPos : List (Nat × Nat)
deriving DecidableEq, Repr

/-- ASet right after reset. -/
def ASet.reset : ASet where
  cfg := .reset
  wpos := 0
  queue := []
  lag := []
  owed := []
  pairs := []
  waits := []
  bands := []
  bandRecs := []
  remapRecs := []
  relocRecs := []
  voidRecs := []
  extents := []
  dropped := []
  loading := []
  mapReady := false
  replayed := false
  recPos := []

/-- The Bolt engine of one tile (12_archive_sets.md). -/
structure BoltSt where
  /-- The descriptor that runs (R327). -/
  active : Option BoltDesc
  /-- It came from the background ring (R324). -/
  background : Bool
  /-- CORE cycle at which it was taken (R310). -/
  startedAt : Nat
  /-- Data parts that it reads, or those that it writes where they are more (R310). -/
  work : Nat
  /-- The host and the background ring wait behind a descriptor without map room (R319). -/
  parked : List Bool
  /-- Completions that wait for ring space, oldest first (R161). -/
  waiting : List (List Byte)
  /-- The credit C, bytes (R324). -/
  credit : Int
  /-- CORE cycle at which the present PACE_WIN began (R324). -/
  winStart : Nat
  /-- CORE cycle up to which host work has been counted (R324). -/
  hostMark : Nat
  /-- CORE cycles of the window in which host work was pending or running (R324). -/
  hostBusy : Nat
  /-- CORE cycle up to which C has accrued (R324). -/
  lastAccrual : Nat
deriving DecidableEq, Repr

/-- BoltSt right after reset. -/
def BoltSt.reset : BoltSt where
  active := none
  background := false
  startedAt := 0
  work := 0
  parked := [false, false]
  waiting := []
  credit := 67108864
  winStart := 0
  hostMark := 0
  hostBusy := 0
  lastAccrual := 0

/-- A submission queue of a controller (R348). -/
structure Queue where
  /-- Queue identifier (R348). -/
  qid : Nat
  /-- Entries (R332). -/
  size : Nat
  /-- Priority class: 0 urgent to 3 low (R336). -/
  cls : Nat
  /-- Send rate of its queue pair, Mbit/s (R362). -/
  rate : Nat
  /-- Commands not yet fetched, oldest first (R348). -/
  waiting : List Capsule
deriving DecidableEq, Repr

/-- Queue right after reset. -/
def Queue.reset : Queue where
  qid := 0
  size := 0
  cls := 2
  rate := 400000
  waiting := []

/-- An entry of the Error Information log (R335). -/
structure ErrEntry where
  /-- Error count (R335). -/
  number : Nat
  /-- Submission queue (R335). -/
  qid : Nat
  /-- Command identifier (R335). -/
  cid : Nat
  /-- Status field: status code, status code type above bit 8, DNR in bit 14 (R335). -/
  status : Nat
  /-- Namespace (R335). -/
  nsid : Nat
  /-- First LBN (R335). -/
  lbn : Nat
deriving DecidableEq, Repr

/-- ErrEntry right after reset. -/
def ErrEntry.reset : ErrEntry where
  number := 0
  qid := 0
  cid := 0
  status := 0
  nsid := 0
  lbn := 0

/-- A controller of a fabric port (R332 to R336, R357 to R360). -/
structure Ctrl where
  /-- Controller number in the port, 16 for the discovery controller (R332). -/
  idx : Nat
  /-- Property Controller Configuration (R332). -/
  cc : Nat
  /-- Its queue pairs (R332). -/
  queues : List Queue
  /-- Features set: FID and value (R336). -/
  features : List (Nat × Nat)
  /-- Keep Alive Timer, ms (R336). -/
  kato : Nat
  /-- CORE cycle of the last keep-alive (R332). -/
  kaAt : Nat
  /-- Its power state (R359). -/
  ps : Nat
  /-- Its last operational state (R359). -/
  psOper : Nat
  /-- APST table by power state: ITPS and ITPT in ms (R360). -/
  apst : List (Nat × Nat)
  /-- Outstanding Asynchronous Event Requests, by command ID, oldest first (R358). -/
  aers : List Nat
  /-- Held events, oldest first: event (0 SMART, 1 ANA, 2 set state, 3 patrol) and NSID (R358). -/
  held : List (Nat × Nat)
  /-- ANA state of each namespace as last reported, 0 for one not in use (R354). -/
  ana : List Nat
  /-- ANA change count (R356). -/
  anaCount : Nat
  /-- Error log, newest first, 64 at most (R335). -/
  errors : List ErrEntry
  /-- Errors so far (R335). -/
  errCount : Nat
deriving DecidableEq, Repr

/-- Ctrl right after reset. -/
def Ctrl.reset : Ctrl where
  idx := 0
  cc := 0
  queues := []
  features := []
  kato := 0
  kaAt := 0
  ps := 0
  psOper := 0
  apst := []
  aers := []
  held := []
  ana := []
  anaCount := 0
  errors := []
  errCount := 0

/-- A fetched host command in a port engine (R344). -/
structure HostCmd where
  /-- Its number among the commands that the port has fetched (R344). -/
  tag : Nat
  /-- Controller number in the port (R344). -/
  ctrl : Nat
  /-- Queue (R344). -/
  qid : Nat
  /-- Command identifier (R344). -/
  cid : Nat
  /-- Its submission queue entry of 64 bytes (R344). -/
  sqe : Nat
  /-- Opcode (R334). -/
  opcode : Nat
  /-- Namespace (R337). -/
  nsid : Nat
  /-- First LBN (R350). -/
  lbn : Nat
  /-- Blocks (R350). -/
  count : Nat
  /-- Point reached (R344). -/
  stage : CmdStage
  /-- Staging address in the port's stack, 4 KiB units (R344). -/
  addr : Nat
  /-- HANDLE of its entry to firmware (R346). -/
  handle : Nat
  /-- Bound range, first WSEQ (R346). -/
  wseqLo : Nat
  /-- Bound range, last WSEQ (R346). -/
  wseqHi : Nat
  /-- Blocks not found in staging (R344). -/
  missing : List Nat
  /-- Blocks found, empty for a missing one (R344). -/
  got : List (List Byte)
  /-- The failure met: status code type, status code, DNR (R343). -/
  fail : Option (Nat × Nat × Bool)
  /-- Its queue pair is lost and its completion is discarded (R363). -/
  orphan : Bool
deriving DecidableEq, Repr

/-- HostCmd right after reset. -/
def HostCmd.reset : HostCmd where
  tag := 0
  ctrl := 0
  qid := 0
  cid := 0
  sqe := 0
  opcode := 0
  nsid := 0
  lbn := 0
  count := 0
  stage := .fetched
  addr := 0
  handle := 0
  wseqLo := 0
  wseqHi := 0
  missing := []
  got := []
  fail := none
  orphan := false

/-- A completion posted to a host (R344). -/
structure HostCpl where
  /-- Controller number in the port (R344). -/
  ctrl : Nat
  /-- Queue (R344). -/
  qid : Nat
  /-- Command identifier (R344). -/
  cid : Nat
  /-- Status code type (R343). -/
  sct : Nat
  /-- Status code (R343). -/
  sc : Nat
  /-- DNR (R343). -/
  dnr : Bool
  /-- DW0 (R353). -/
  dw0 : Nat
  /-- DW1 (R358). -/
  dw1 : Nat
  /-- Data transferred to the host (R344). -/
  data : List Byte
deriving DecidableEq, Repr

/-- HostCpl right after reset. -/
def HostCpl.reset : HostCpl where
  ctrl := 0
  qid := 0
  cid := 0
  sct := 0
  sc := 0
  dnr := false
  dw0 := 0
  dw1 := 0
  data := []

/-- The engine of one fabric port (13_host_queueing.md). -/
structure PortSt where
  /-- Controllers connected (R332). -/
  ctrls : List Ctrl
  /-- Outstanding commands, in fetch order (R332). -/
  cmds : List HostCmd
  /-- Completions posted, newest first (R344). -/
  cpls : List HostCpl
  /-- Commands fetched so far (R344). -/
  nextTag : Nat
  /-- PRDY_N has risen since the last port reset (R333). -/
  prdyRose : Bool
  /-- Bytes in the two lossless buffers (R362). -/
  rx : List Nat
  /-- Bytes in the lossy buffer (R362). -/
  rxLossy : Nat
  /-- PAUSE sent on the two lossless priorities (R362). -/
  pauseSent : List Bool
  /-- CORE cycle since which the link partner pauses each lossless priority (R364). -/
  paused : List (Option Nat)
  /-- Arbitration of the port: AB (R348). -/
  ab : Nat
  /-- Arbitration of the port: HPW, MPW, LPW (R348). -/
  weights : List Nat
  /-- Commands that the high, medium and low classes may still send in this round (R348). -/
  credits : List Nat
  /-- Per class: the queue last served (controller, queue), and commands of its turn (R348). -/
  turn : List (Nat × Nat × Nat)
  /-- CORE cycle of the last rate recovery (R362). -/
  rateAt : Nat
deriving DecidableEq, Repr

/-- PortSt right after reset. -/
def PortSt.reset : PortSt where
  ctrls := []
  cmds := []
  cpls := []
  nextTag := 0
  prdyRose := false
  rx := [0, 0]
  rxLossy := 0
  pauseSent := [false, false]
  paused := [none, none]
  ab := 7
  weights := [0, 0, 0]
  credits := [0, 0, 0]
  turn := []
  rateAt := 0

/-- An entry of a tile's lock unit (R350). -/
structure LockEntry where
  /-- Fabric port 0 to 15 (R350). -/
  port : Nat
  /-- Its command: number among those that the port has fetched (R350). -/
  tag : Nat
  /-- Namespace (R350). -/
  nsid : Nat
  /-- First LBN (R350). -/
  lbn : Nat
  /-- Blocks, 0 for Flush (R350). -/
  count : Nat
  /-- Granted (R350). -/
  granted : Bool
  /-- Its command is a write (R352). -/
  write : Bool
deriving DecidableEq, Repr

/-- LockEntry right after reset. -/
def LockEntry.reset : LockEntry where
  port := 0
  tag := 0
  nsid := 0
  lbn := 0
  count := 0
  granted := false
  write := false

/-- The working state of one DMA channel (R385 to R388). -/
structure DmaSt where
  /-- Byte offset of the descriptor that runs (R385). -/
  desc : Nat
  /-- The chain runs (R387). -/
  active : Bool
  /-- That descriptor has been read and passed its checks (R385). -/
  taken : Bool
  /-- That descriptor as read (R385). -/
  raw : Nat
  /-- Bytes of the descriptor already moved (R388). -/
  done : Nat
  /-- CORE cycle in which STOP was written (R389, R391). -/
  stop : Option Nat
deriving DecidableEq, Repr

/-- DmaSt right after reset. -/
def DmaSt.reset : DmaSt where
  desc := 0
  active := false
  taken := false
  raw := 0
  done := 0
  stop := none

/-- A cached line (R398 to R401). -/
structure CLine where
  /-- Line address, PA / 64 (R398). -/
  tag : Nat
  /-- Its 64 bytes (R398). -/
  data : List Byte
  /-- Its CRC-16 (R374). -/
  crc : Nat
  /-- When it was last used, for the least recently used choice (R398). -/
  used : Nat
deriving DecidableEq, Repr

/-- CLine right after reset. -/
def CLine.reset : CLine where
  tag := 0
  data := []
  crc := 0xFFFF
  used := 0

/-- One cache with its victim cache and side buffer (R398 to R406). -/
structure CacheSt where
  /-- Valid lines: set, way and line (R398). -/
  ways : List (Nat × Nat × CLine)
  /-- The victim cache, oldest first, 8 at most (R400). -/
  victims : List CLine
  /-- The prefetch side buffer, oldest first, 4 at most (R401). -/
  side : List CLine
  /-- Lookups made (R398). -/
  clock : Nat
  /-- Line of the outstanding miss (R402). -/
  fill : Option Nat
  /-- Locked way that the outstanding miss refetches (R374). -/
  fillWay : Option Nat
  /-- Accesses that wait for fills, oldest first (R402). -/
  waiting : List CoreAccess
  /-- A range invalidation met the outstanding miss (R407). -/
  fillInv : Bool
  /-- Lines of the outstanding prefetches, oldest first (R401). -/
  prefetch : List Nat
  /-- Operations waiting, in order of writing: kind (0 INV_GO, 1 LL_GO, 2 CACHE_EN = 0), address, length, way (R407). -/
  ops : List (Nat × Nat × Nat × Nat)
  /-- The running lock-load: way, first line, last line (R404). -/
  ll : Option (Nat × Nat × Nat)
deriving DecidableEq, Repr

/-- CacheSt right after reset. -/
def CacheSt.reset : CacheSt where
  ways := []
  victims := []
  side := []
  clock := 0
  fill := none
  fillWay := none
  waiting := []
  fillInv := false
  prefetch := []
  ops := []
  ll := none

/-- A store in the write buffer (R399). -/
structure BufStore where
  /-- Physical address (R399). -/
  addr : Nat
  /-- Bytes, 8 at most (R399). -/
  size : Nat
  /-- Value (R399). -/
  value : Nat
deriving DecidableEq, Repr

/-- BufStore right after reset. -/
def BufStore.reset : BufStore where
  addr := 0
  size := 0
  value := 0

/-- The control and status registers of a core, as the privileged architecture that R392 names has them. -/
structure CoreCsr where
  /-- Machine status: interrupt enables, previous modes and MPRV (R392, R397). -/
  mstatus : Nat
  /-- Interrupts enabled, MIE (R397). -/
  mie : Nat
  /-- The interrupts pending by software: SSIP, STIP, SEIP (R392). -/
  sip : Nat
  /-- Exceptions delegated to S mode (R392). -/
  medeleg : Nat
  /-- Interrupts delegated to S mode (R392). -/
  mideleg : Nat
  /-- Trap vector of M mode (R392). -/
  mtvec : Nat
  /-- Pc that the last trap to M mode saved (R392). -/
  mepc : Nat
  /-- Scratch register of M mode (R392). -/
  mscratch : Nat
  /-- Counters that lower modes may read (R392). -/
  mcounteren : Nat
  /-- Trap vector of S mode (R392). -/
  stvec : Nat
  /-- Pc that the last trap to S mode saved (R392). -/
  sepc : Nat
  /-- Cause of the last trap to S mode (R392). -/
  scause : Nat
  /-- Value of the last trap to S mode (R392). -/
  stval : Nat
  /-- Scratch register of S mode (R392). -/
  sscratch : Nat
  /-- Counters that U mode may read (R392). -/
  scounteren : Nat
  /-- Address translation: MODE = Bare alone (R392). -/
  satp : Nat
  /-- Configuration bytes of the 16 entries of physical memory protection (R392). -/
  pmpcfg : Vector Nat 16
  /-- Addresses of those entries, in units of 4 bytes (R392). -/
  pmpaddr : Vector Nat 16
deriving DecidableEq, Repr

/-- CoreCsr right after reset. -/
def CoreCsr.reset : CoreCsr where
  mstatus := 0
  mie := 0
  sip := 0
  medeleg := 0
  mideleg := 0
  mtvec := 0
  mepc := 0
  mscratch := 0
  mcounteren := 0
  stvec := 0
  sepc := 0
  scause := 0
  stval := 0
  sscratch := 0
  scounteren := 0
  satp := 0
  pmpcfg := Vector.replicate 16 0
  pmpaddr := Vector.replicate 16 0

/-- One Gallery core (15_gallery_cores.md). -/
structure CoreSt where
  /-- Released from reset (R419). -/
  running : Bool
  /-- Program counter: ENTRY of its image at the release, then the instruction fetched last, or the vector of a trap (R419). -/
  pc : Nat
  /-- Integer registers x0 to x31; x0 reads 0 (R392). -/
  xregs : Vector DWord 32
  /-- Privilege mode: 0 user, 1 supervisor, 3 machine (R392, R419). -/
  mode : Nat
  /-- Control and status registers (R392). -/
  csr : CoreCsr
  /-- GDETAIL (R395). -/
  gdetail : Nat
  /-- Cause of the last trap to M mode (R395). -/
  mcause : Nat
  /-- Mtval of the last access fault (R395). -/
  mtval : Nat
  /-- Value of the last completed load or AMO (R394). -/
  loaded : Nat
  /-- The last instruction word fetched (R394). -/
  fetched : Nat
  /-- Address of the second half of a fetch that crosses a line, while it is awaited (R394, R402). -/
  half : Option Nat
  /-- The LR reservation: a stack window address / 8, or a place of tightly coupled RAM (R393). -/
  reserved : Option Nat
  /-- The write buffer, oldest first, 8 at most (R399). -/
  buffer : List BufStore
  /-- Instruction cache (R398). -/
  icache : CacheSt
  /-- Data cache (R398). -/
  dcache : CacheSt
  /-- Its tightly coupled RAM, 512 KiB (R394). -/
  tcm : Mem
deriving DecidableEq, Repr

/-- CoreSt right after reset. -/
def CoreSt.reset : CoreSt where
  running := false
  pc := 0
  xregs := Vector.replicate 32 0
  mode := 3
  csr := .reset
  gdetail := 0
  mcause := 0
  mtval := 0
  loaded := 0
  fetched := 0
  half := none
  reserved := none
  buffer := []
  icache := .reset
  dcache := .reset
  tcm := .empty

/-- One SPI NOR flash and its controller (R412, R436). -/
structure FlashSt where
  /-- Its bytes, 128 MiB, each stored inverted: an erased byte, 0xFF, is not listed (R412). -/
  mem : Mem
  /-- CORE cycle at which the running operation started (R493). -/
  started : Option Nat
  /-- The running operation (R436). -/
  op : Nat
  /-- The Atrium copy whose registers started it (R436). -/
  wing : Fin 2
  /-- FL_ADDR of the running operation, as it stood when it started (R436). -/
  addr : Nat
  /-- FL_LEN of the running operation, as it stood when it started (R436). -/
  len : Nat
  /-- FL_BUF of the running operation, as it stood when it started (R436). -/
  buf : Nat
  /-- A boot or tile reload is reading it (R436). -/
  bootRead : Bool
  /-- The flash answers (R412). -/
  present : Bool
deriving DecidableEq, Repr

/-- FlashSt right after reset. -/
def FlashSt.reset : FlashSt where
  mem := .empty
  started := none
  op := 0
  wing := 0
  addr := 0
  len := 0
  buf := 0
  bootRead := false
  present := true

/-- A section table entry of the bit-stream in use (R416). -/
structure Section where
  /-- ID (R416). -/
  id : Nat
  /-- SCOPE (R416). -/
  scope : Nat
  /-- INDEX (R416). -/
  index : Nat
  /-- FLAGS (R416). -/
  flags : Nat
  /-- OFFSET, from byte 0 of the slot (R416). -/
  offset : Nat
  /-- LENGTH (R416). -/
  length : Nat
  /-- SHA-384 of the body (R416). -/
  digest : List Byte
deriving DecidableEq, Repr

/-- Section right after reset. -/
def Section.reset : Section where
  id := 0
  scope := 0
  index := 0
  flags := 0
  offset := 0
  length := 0
  digest := []

/-- A LIMITS entry (R420). -/
structure Limit where
  /-- Address of the field in head 0 of tile 0, or in tile 0 (R420). -/
  addr : Nat
  /-- Least significant bit (R420). -/
  lsb : Nat
  /-- Width (R420). -/
  width : Nat
  /-- MIN (R420). -/
  min : Nat
  /-- MAX (R420). -/
  max : Nat
deriving DecidableEq, Repr

/-- Limit right after reset. -/
def Limit.reset : Limit where
  addr := 0
  lsb := 0
  width := 0
  min := 0
  max := 0

/-- The boot sequencer (16_boot_bitstream_attestation.md). -/
structure BootSt where
  /-- The step that is to end next (R411). -/
  phase : BootPhase
  /-- Strap pins as a strap word (R409). -/
  straps : Nat
  /-- The strap word latched (R409). -/
  strapWord : Nat
  /-- The boot is warm (R414). -/
  warm : Bool
  /-- Codes of the candidates tried, first to last (R413). -/
  tries : List Nat
  /-- Section table of the candidate in use (R416). -/
  sections : List Section
  /-- LIMITS of the candidate in use (R420). -/
  limits : List Limit
  /-- Flash byte at which the slot in use starts (R412). -/
  slotBase : Nat
  /-- Bit-stream digest (R416). -/
  bsDigest : List Byte
  /-- FW_DIGEST[0-7] (R419). -/
  images : List (List Byte)
  /-- SHA-384 of the strap word (R424). -/
  strapDigest : List Byte
  /-- SHA-384 of the fuse array (R411). -/
  fuseDigest : List Byte
  /-- The chain head, the newest valid entry (R426). -/
  prevEntry : List Byte
  /-- KEY_DIGEST of this boot's entry, none before the append (R424). -/
  keyDigest : List Byte
  /-- The new BOOT_COUNT (R426). -/
  nextCount : Nat
  /-- CHAIN_RESTART (R426). -/
  restart : Bool
  /-- Tiles in tile reset that are to reload (R414). -/
  tileLoad : List Nat
deriving DecidableEq, Repr

/-- BootSt right after reset. -/
def BootSt.reset : BootSt where
  phase := .held
  straps := 0
  strapWord := 0
  warm := false
  tries := []
  sections := []
  limits := []
  slotBase := 0
  bsDigest := []
  images := []
  strapDigest := []
  fuseDigest := []
  prevEntry := []
  keyDigest := []
  nextCount := 0
  restart := false
  tileLoad := []

/-- The Selvedge store of one tile (R430 to R435). -/
structure Selvedge where
  /-- 64-bit words that are not zero, by word index (R430). -/
  words : List (Nat × DWord)
  /-- Wear counters that are not zero (R434). -/
  wear : List (Nat × Nat)
  /-- Words with a correctable upset (R435). -/
  ce : List Nat
  /-- Words with an uncorrectable upset (R435). -/
  ue : List Nat
deriving DecidableEq, Repr

/-- Selvedge right after reset. -/
def Selvedge.reset : Selvedge where
  words := []
  wear := []
  ce := []
  ue := []

/-- An event record (R452). -/
structure LogRec where
  /-- CODE (R452). -/
  code : Nat
  /-- TILE of origin (R452). -/
  tile : Nat
  /-- UNIT (R452). -/
  unit : Nat
  /-- ARG0 (R452). -/
  arg0 : Nat
  /-- ARG1 (R452). -/
  arg1 : Nat
  /-- Package time of the first occurrence, ns (R452). -/
  time : Nat
deriving DecidableEq, Repr

/-- LogRec right after reset. -/
def LogRec.reset : LogRec where
  code := 0
  tile := 0
  unit := 0xFF
  arg0 := 0
  arg1 := 0
  time := 0

/-- The event logger of one tile (R452, R453). -/
structure Logger where
  /-- The newest record written (R453). -/
  newest : Option LogRec
  /-- Its REPEAT (R453). -/
  repeats : Nat
  /-- Records held back while a power-failure episode runs, oldest first (R471). -/
  deferred : List LogRec
deriving DecidableEq, Repr

/-- Logger right after reset. -/
def Logger.reset : Logger where
  newest := none
  repeats := 0
  deferred := []

/-- What a lease flit carries (R441). -/
structure LeaseFlit where
  /-- EPOCH (R441). -/
  epoch : Nat
  /-- HOLDER (R441). -/
  holder : Nat
  /-- The renewal number (R441). -/
  number : Nat
  /-- The time of sending, ns (R441). -/
  time : Nat
deriving DecidableEq, Repr

/-- LeaseFlit right after reset. -/
def LeaseFlit.reset : LeaseFlit where
  epoch := 0
  holder := 0
  number := 0
  time := 0

/-- One Atrium copy (R19, R440); copy 0 is tile 0's, copy 1 is tile 4's. -/
structure Atrium where
  /-- This copy's registers of the package block (R499). -/
  regs : RegFile
  /-- Package time of the last renewal accepted, ns (R441). -/
  lastRenewal : Nat
  /-- A renewal has been accepted since this copy last became standby (R441). -/
  leaseSeen : Bool
  /-- Renewal number of the next lease flit (R441). -/
  renewals : Nat
  /-- The highest EPOCH seen (R442). -/
  epochSeen : Nat
  /-- The last lease flit on its way to the other copy on V0 (R441). -/
  sent : Option LeaseFlit
  /-- Package time of the last renewal sent, ms (R441). -/
  sentMs : Option Nat
  /-- The last acknowledgement returned, which carries this copy's view (R441). -/
  ack : Option LeaseFlit
  /-- EPOCH of a handover flit on its way to this copy (R443). -/
  handover : Option Nat
  /-- Package time at which the split began, ns (R445). -/
  splitAt : Nat
  /-- Bridge mask before the split (R454). -/
  bridgesBefore : Nat
  /-- Bridge whose return began the rejoin in progress (R447). -/
  rejoin : Option Nat
  /-- CORE cycle at which it began (R447). -/
  rejoinAt : Nat
  /-- CORE cycle at which this copy's tile last sent sync flits (R37). -/
  lastSync : Option Nat
  /-- This copy is in reset with its tile (R19). -/
  held : Bool
deriving DecidableEq, Repr

/-- Atrium right after reset. -/
def Atrium.reset : Atrium where
  regs := ⟨[]⟩
  lastRenewal := 0
  leaseSeen := false
  renewals := 0
  epochSeen := 0
  sent := none
  sentMs := none
  ack := none
  handover := none
  splitAt := 0
  bridgesBefore := 0
  rejoin := none
  rejoinAt := 0
  lastSync := none
  held := false

/-- The thermal block of one tile (18_thermal_and_power.md). -/
structure HeatSt where
  /-- For each sensor, consecutive samples out of XMARGIN (R462). -/
  outRun : List Nat
  /-- For each sensor, consecutive samples within XMARGIN / 2 (R462). -/
  inRun : List Nat
  /-- Sensors that the cross-check would include, before the rule of three (R462). -/
  checked : Nat
  /-- For each sensor, consecutive samples at 115 °C or more while included (R463). -/
  tripRun : List Nat
  /-- CORE cycle at which the trip was declared, until the restart (R463). -/
  tripAt : Option Nat
  /-- The heavy blocks are powered off (R463). -/
  heavyOff : Bool
  /-- Consecutive samples with every included sensor below 95 °C (R464). -/
  coolRun : Nat
  /-- CORE cycle of the last sensor sample (R461). -/
  lastSample : Option Nat
  /-- CORE cycle of the last reading of the stack's temperature (R461). -/
  lastStack : Option Nat
  /-- CORE cycle of the last throttle evaluation (R466). -/
  lastEval : Nat
  /-- ARG0 and ARG1 of a trip that no log could take, until the restart (R465). -/
  tripOwed : Option LogRec
deriving DecidableEq, Repr

/-- HeatSt right after reset. -/
def HeatSt.reset : HeatSt where
  outRun := [0, 0, 0, 0, 0, 0]
  inRun := [0, 0, 0, 0, 0, 0]
  checked := 63
  tripRun := [0, 0, 0, 0, 0, 0]
  tripAt := none
  heavyOff := false
  coolRun := 0
  lastSample := none
  lastStack := none
  lastEval := 0
  tripOwed := none

/-- The fuse array (R382, R421, R423). -/
structure Fuses where
  /-- Digests of the public keys in the fuse slots (R421). -/
  keyDigests : List (List Byte)
  /-- Revocation fuses blown, bit k for fuse slot k (R423). -/
  revoked : Nat
  /-- Factory fuse map: tile and repair entry (R382). -/
  sparing : List (Nat × Nat)
deriving DecidableEq, Repr

/-- Fuses right after reset. -/
def Fuses.reset : Fuses where
  keyDigests := []
  revoked := 0
  sparing := []

/-- The SMBus target and its SPDM responder (R428, R491, R492). -/
structure SmbSt where
  /-- Bytes of the last register response that the bus has not dropped (R492). -/
  response : List Byte
  /-- CORE cycle until which the last register request of the bus runs (R492). -/
  busyTill : Nat
  /-- The last SPDM response that the bus has not dropped (R428). -/
  spdm : Option SpdmAnswer
  /-- The address byte last answered to the Alert Response Address (R491). -/
  alertByte : Option Nat
  /-- GET_VERSION has been answered since the last SPDM reset (R428). -/
  spdmVersion : Bool
  /-- GET_CAPABILITIES has been answered since then (R428). -/
  spdmCaps : Bool
  /-- NEGOTIATE_ALGORITHMS has settled on P-384 and SHA-384 since then (R428). -/
  spdmAlgs : Bool
deriving DecidableEq, Repr

/-- SmbSt right after reset. -/
def SmbSt.reset : SmbSt where
  response := []
  busyTill := 0
  spdm := none
  alertByte := none
  spdmVersion := false
  spdmCaps := false
  spdmAlgs := false

/-- The states of the test access port of IEEE 1149.1 (R494). -/
inductive TapState where
  | testLogicReset | runTestIdle
  | selectDrScan | captureDr | shiftDr | exit1Dr | pauseDr | exit2Dr | updateDr
  | selectIrScan | captureIr | shiftIr | exit1Ir | pauseIr | exit2Ir | updateIr
deriving DecidableEq, Repr

/-- A write of a persistent package register that firmware or SMBus makes (R432, R437). -/
structure PersistWrite where
  /-- CORE cycle of its arrival (R432). -/
  cycle : Nat
  /-- Who made it (R432). -/
  req : Req
  /-- Offset of the word written (R432). -/
  off : Nat
  /-- The value written (R432). -/
  value : Nat
  /-- The word's value that it found in copy 0 (R437). -/
  old0 : Nat
  /-- The word's value that it found in copy 1 (R437). -/
  old1 : Nat
  /-- The word's wear counter that it found in copy 0 (R434). -/
  wear0 : Nat
  /-- The word's wear counter that it found in copy 1 (R434). -/
  wear1 : Nat
deriving DecidableEq, Repr

/-- The pins and the power-on logic of the package (19_pins_and_electrical.md). -/
structure PkgSt where
  /-- The writes of persistent package registers that arrived in one CORE cycle, in the order in which they were carried
  out (R432). -/
  persistNow : List PersistWrite
  /-- The power-on reset is held (R483). -/
  porHeld : Bool
  /-- Level of RST_N (R484). -/
  rstN : Bool
  /-- Level of PWRFAIL_N (R471). -/
  pwrfailN : Bool
  /-- A warm reset has begun and its boot has not started (R484). -/
  warmHeld : Bool
  /-- SYSCLK runs (R496). -/
  sysclk : Bool
  /-- CORE cycle of the falling edge of the power-failure episode in progress (R472). -/
  failEdge : Option Nat
  /-- CORE cycle since which PWRFAIL_N has been high (R472). -/
  highSince : Option Nat
  /-- The Selvedge stores refuse writes (R432). -/
  refusing : Bool
  /-- Level of SMB_ALERT_N (R361). -/
  alertN : Bool
  /-- CORE cycle since which no I/O command of any controller has been outstanding (R360). -/
  idleSince : Nat
  /-- The JTAG test access port (R494). -/
  tap : TapState
deriving DecidableEq, Repr

/-- PkgSt right after reset. -/
def PkgSt.reset : PkgSt where
  persistNow := []
  porHeld := true
  rstN := true
  pwrfailN := true
  warmHeld := false
  sysclk := true
  failEdge := none
  highSince := none
  refusing := false
  alertN := true
  idleSince := 0
  tap := .testLogicReset

/-- A 64-byte flit on the Warp (R21, R24, R25). What the packet it belongs to does at its ends stands with the command that
sent it; here is what the links need of it. -/
structure Flit where
  /-- Tile that sent it (R24). -/
  src : Fin 8
  /-- Tile it goes to (R24). -/
  dst : Fin 8
  /-- Virtual channel V0 to V3 (R25). -/
  vc : Fin 4
  /-- Its number among the flits that its source has sent (R24). -/
  num : Nat
  /-- The link by which it came to the tile where it stands, whose receiver's buffer it takes up; none at its source
  (R26). -/
  came : Option (Fin 3)
  /-- The tiles that it still goes to, its destination last (R23). -/
  path : List (Fin 8)
deriving DecidableEq, Repr

/-- One Warp link of a tile (R21, R24 to R26). -/
structure WarpLink where
  /-- Consecutive bad receipts of the flit that is due, the first and its replays (R24). -/
  failed : Nat
  /-- Flits received with a good CRC (R21). -/
  rxCount : Nat
  /-- Flits that wait to leave by the link, the oldest first (R25). -/
  queue : List Flit
  /-- The replay buffer: flits sent and not acknowledged, the oldest first (R21). -/
  replay : List Flit
  /-- The channel of V1 to V3 that was served last (R25). -/
  served : Fin 4
deriving DecidableEq, Repr

/-- WarpLink right after reset. -/
def WarpLink.reset : WarpLink where
  failed := 0
  rxCount := 0
  queue := []
  replay := []
  served := 3

/-- One head: its registers, engines and table memories. -/
structure Head where
  /-- The registers of the head block (R503). -/
  regs : RegFile
  /-- The head reset runs (R505). -/
  inReset : Bool
  /-- Angle base and schedules (R44). -/
  angle : AngleSt
  /-- Riser link (R64). -/
  riser : RiserSt
  /-- Beam channels of samplers 0 to 32 (R118). -/
  beams : Vector BeamSt 33
  /-- Weft unit (R140). -/
  weft : WeftSt
  /-- Write channel (R161). -/
  write : WriteSt
  /-- Loops (R193). -/
  loops : LoopSt
  /-- Landing (R217). -/
  land : LandSt
  /-- Spindle drive (R239). -/
  spin : SpinSt
  /-- Step generators 0 (sled) and 1 (corrector) (R264). -/
  gens : Vector StepSt 2
  /-- Calibration block (R284). -/
  cal : CalSt
  /-- Space 0x01, schedule directory and entries (R509). -/
  schedMem : Mem
  /-- Space 0x02, channel tables and spot offsets (R509). -/
  chanMem : Mem
  /-- Space 0x03, strategy table (R509). -/
  stratMem : Mem
  /-- Space 0x04, strategy loaded map (bit e of byte e / 8) (R509). -/
  stratMap : Mem
deriving DecidableEq, Repr

/-- Head right after reset. -/
def Head.reset : Head where
  regs := ⟨[]⟩
  inReset := true
  angle := .reset
  riser := .reset
  beams := Vector.replicate 33 .reset
  weft := .reset
  write := .reset
  loops := .reset
  land := .reset
  spin := .reset
  gens := Vector.replicate 2 .reset
  cal := .reset
  schedMem := .empty
  chanMem := .empty
  stratMem := .empty
  stratMap := .empty

/-- From a CORE cycle on, how a tile's package time runs (R36, R38): from the value it took there, 0 per cycle while held, then
11/16 or 9/16 ns while slewing, then 10/16 ns. -/
structure Pace where
  /-- The CORE cycle (R38). -/
  cycle : Nat
  /-- Package time that the cycle came to without the flit, 1/16 ns (R38). -/
  before : Nat
  /-- Package time that it took, 1/16 ns (R38). -/
  time : Nat
  /-- CORE cycles of slewing, positive when it adds 11 per cycle (R38). -/
  slew : Int
  /-- CORE cycles for which the counter is held (R38). -/
  hold : Nat
deriving DecidableEq, Repr

/-- Pace with nothing in it. -/
def Pace.reset : Pace where
  cycle := 0
  before := 0
  time := 0
  slew := 0
  hold := 0

/-- One tile: its registers, engines and memories. -/
structure Tile where
  /-- The registers of the tile block (R502). -/
  regs : RegFile
  /-- The tile is held in reset (R505). -/
  inReset : Bool
  /-- Package time at this tile, 1/16 ns (R36). -/
  time16 : Nat
  /-- The counter runs (R40). -/
  timeOn : Bool
  /-- CORE cycles of slewing left, positive when it adds 11 per cycle, negative when it adds 9 (R38). -/
  slew : Int
  /-- CORE cycles for which the counter is still held (R38). -/
  holdLeft : Nat
  /-- What sync flits changed in the way its package time runs, the newest first (R38). -/
  paces : List Pace
  /-- Sync flits on their way to this tile, the oldest first: T_sent (1/16 ns), ring hops, bridge hops (R37). -/
  syncIn : List (Nat × Nat × Nat)
  /-- CORE cycle of the last sync flit (R43). -/
  lastSync : Option Nat
  /-- CORE cycle from which 8 us without a sync flit count: the tile came up, or was last the master (R43). -/
  syncFrom : Nat
  /-- Warp links (R504). -/
  links : Vector WarpLink 3
  /-- Flits that the tile has sent (R24). -/
  flitCount : Nat
  /-- Flits that have reached the tile before an earlier one of their source and channel (R24). -/
  flitsHeld : List Flit
  /-- The HBM3 stack, 24 GiB with its CRC shadow (R367). -/
  stack : Mem
  /-- The Selvedge store (R430). -/
  selv : Selvedge
  /-- Bolt engine (R327). -/
  bolt : BoltSt
  /-- The lock unit's entries in order of fetch (R350). -/
  locks : List LockEntry
  /-- HANDLE of the next entry to firmware (R346). -/
  nextHandle : Nat
  /-- Entries that wait for room in the host command ring, oldest first (R346). -/
  hcrWait : List (List Byte)
  /-- The upsets of the lock unit's memory, array 0x32 (R373, R378); what it holds are `locks` and the firmware interface. -/
  lockMem : Mem
  /-- The lock unit has stopped on an uncorrectable error (R350). -/
  lockStop : Bool
  /-- DMA channels (R385). -/
  dma : Vector DmaSt 8
  /-- The channel that moved last, for round robin (R388). -/
  dmaLast : Nat
  /-- Package time of the last bucket leak, ms (R379). -/
  leakMs : Nat
  /-- Gallery cores (R392). -/
  cores : Vector CoreSt 2
  /-- Replay engine (R153). -/
  replay : ReplayEng
  /-- Thermal block (R461). -/
  heat : HeatSt
  /-- Event logger (R452). -/
  logger : Logger
  /-- Soft repair entries applied at the last boot (R383). -/
  repairs : List DWord
  /-- The upsets of the Bolt journal buffers, array 0x31 (R373, R378). -/
  journalBuf : Mem
  /-- A record could not be formed for an uncorrectable error in the journal buffer (R380). -/
  journalUe : Bool
  /-- CORE cycle before which the combined rate of the DMA channels lets none of them move (R388, R467). -/
  dmaFree : Nat
deriving DecidableEq, Repr

/-- Tile right after reset. -/
def Tile.reset : Tile where
  regs := ⟨[]⟩
  inReset := true
  time16 := 0
  timeOn := false
  slew := 0
  holdLeft := 0
  paces := []
  syncIn := []
  lastSync := none
  syncFrom := 0
  links := Vector.replicate 3 .reset
  flitCount := 0
  flitsHeld := []
  stack := .empty
  selv := .reset
  bolt := .reset
  locks := []
  nextHandle := 1
  hcrWait := []
  lockMem := .empty
  lockStop := false
  dma := Vector.replicate 8 .reset
  dmaLast := 7
  leakMs := 0
  cores := Vector.replicate 2 .reset
  replay := .reset
  heat := .reset
  logger := .reset
  repairs := []
  journalBuf := .empty
  journalUe := false
  dmaFree := 0

/-- A shadow of R31: who read which lower word, and the upper word captured. -/
structure Shadow where
  /-- Requester (R31). -/
  req : Nat
  /-- Management address of the upper word (R31). -/
  addr : Nat
  /-- The upper word captured (R31). -/
  value : Word
deriving DecidableEq, Repr

/-- Shadow right after reset. -/
def Shadow.reset : Shadow where
  req := 0
  addr := 0
  value := 0

/-- The machine. -/
structure State where
  /-- CORE cycles since power-on, the model's own clock (R28). -/
  cycle : Nat
  /-- The step of R512 that the last happening of this CORE cycle belongs to, 0 where nothing has happened in it yet. -/
  turn : Nat
  /-- Free values taken so far (the model's own). -/
  freeCount : Nat
  /-- Heads 0 to 31 (R2). -/
  heads : Vector Head 32
  /-- Tiles 0 to 7 (R12). -/
  tiles : Vector Tile 8
  /-- Fabric ports 0 to 15 (R361). -/
  ports : Vector PortSt 16
  /-- Archive sets 0 to 7 (R301). -/
  sets : Vector ASet 8
  /-- The two Atrium copies (R19). -/
  atria : Vector Atrium 2
  /-- The two boot flashes (R412). -/
  flashes : Vector FlashSt 2
  /-- The boot sequencer (R411). -/
  boot : BootSt
  /-- Pins and power-on logic (R483). -/
  pkg : PkgSt
  /-- The fuse array (R421). -/
  fuses : Fuses
  /-- SMBus target (R491). -/
  smb : SmbSt
  /-- Lower words read, the newest first (R31). -/
  shadows : List Shadow
  /-- The commands waiting, first in, first out. -/
  pending : List Instr
deriving DecidableEq, Repr

/-- State right after reset. -/
def State.reset : State where
  cycle := 0
  turn := 0
  freeCount := 0
  heads := Vector.replicate 32 .reset
  tiles := Vector.replicate 8 .reset
  ports := Vector.replicate 16 .reset
  sets := Vector.replicate 8 .reset
  atria := Vector.replicate 2 .reset
  flashes := Vector.replicate 2 .reset
  boot := .reset
  pkg := .reset
  fuses := .reset
  smb := .reset
  shadows := []
  pending := []

end Sys2Proof.Machine
end

