-- ==== Sys2Proof/Machine/Ops.lean ====
section
/-! DEFINITION. The named operations over the state that every family uses: reaching one head, tile, port, set or
Atrium copy; the passing of time (R36, R38); register fields of each scope; the Selvedge store's word writes
(R431 to R435); and the event log (R452, R453). -/

namespace Sys2Proof.Machine

/-- The outcome of a command. -/
abbrev Out := Host.Outcome State Fault Refusal

/-! ### Reaching a part of the state -/

/-- The tile of a head (R2). -/
def tileOf (h : Fin 32) : Fin 8 := ⟨h.val / 4, by omega⟩

/-- The local index of a head in its tile (R2). -/
def localOf (h : Fin 32) : Fin 4 := ⟨h.val % 4, by omega⟩

/-- Local head `l` of tile `t` (R2). -/
def headOf (t : Fin 8) (l : Fin 4) : Fin 32 := ⟨t.val * 4 + l.val, by omega⟩

/-- The tile of a fabric port (R2). -/
def portTile (p : Fin 16) : Fin 8 := ⟨p.val / 2, by omega⟩

/-- The wing of a tile (R2). -/
def wingOf (t : Fin 8) : Fin 2 := ⟨t.val / 4, by omega⟩

/-- The Atrium tile of a wing: tile 0 or tile 4 (R19). -/
def atriumTile (w : Fin 2) : Fin 8 := ⟨w.val * 4, by omega⟩

/-- The other wing. -/
def otherWing (w : Fin 2) : Fin 2 := ⟨1 - w.val, by omega⟩

/-- A number taken as a tile number, modulo 8. -/
def toTile (n : Nat) : Fin 8 := ⟨n % 8, by omega⟩

/-- A number taken as a head number, modulo 32. -/
def toHead (n : Nat) : Fin 32 := ⟨n % 32, by omega⟩

/-- A number taken as a sampler number, modulo 33. -/
def toSampler (n : Nat) : Fin 33 := ⟨n % 33, by omega⟩

/-- All tiles, in order. -/
def allTiles : List (Fin 8) := [0, 1, 2, 3, 4, 5, 6, 7]

/-- The local heads, in order. -/
def localHeads : List (Fin 4) := [0, 1, 2, 3]

/-- All heads, in order. -/
def allHeads : List (Fin 32) := allTiles.flatMap fun t => localHeads.map (headOf t)

/-- All sets, in order. -/
def allSets : List (Fin 8) := allTiles

/-- The samplers of a head, in order (R2). -/
def allSamplers : List (Fin 33) := (List.range 33).map toSampler

/-- One head. -/
def State.head (s : State) (h : Fin 32) : Head := s.heads[h]

/-- A head is replaced. -/
def State.setHead (s : State) (h : Fin 32) (x : Head) : State := { s with heads := s.heads.set h x }

/-- A head is changed. -/
def State.onHead (s : State) (h : Fin 32) (f : Head → Head) : State := s.setHead h (f (s.head h))

/-- One tile. -/
def State.tile (s : State) (t : Fin 8) : Tile := s.tiles[t]

/-- A tile is replaced. -/
def State.setTile (s : State) (t : Fin 8) (x : Tile) : State := { s with tiles := s.tiles.set t x }

/-- A tile is changed. -/
def State.onTile (s : State) (t : Fin 8) (f : Tile → Tile) : State := s.setTile t (f (s.tile t))

/-- One port engine. -/
def State.port (s : State) (p : Fin 16) : PortSt := s.ports[p]

/-- A port engine is changed. -/
def State.onPort (s : State) (p : Fin 16) (f : PortSt → PortSt) : State :=
  { s with ports := s.ports.set p (f (s.port p)) }

/-- One archive set. -/
def State.aset (s : State) (n : Fin 8) : ASet := s.sets[n]

/-- An archive set is changed. -/
def State.onSet (s : State) (n : Fin 8) (f : ASet → ASet) : State :=
  { s with sets := s.sets.set n (f (s.aset n)) }

/-- One Atrium copy. -/
def State.atrium (s : State) (w : Fin 2) : Atrium := s.atria[w]

/-- An Atrium copy is changed. -/
def State.onAtrium (s : State) (w : Fin 2) (f : Atrium → Atrium) : State :=
  { s with atria := s.atria.set w (f (s.atrium w)) }

/-- One boot flash. -/
def State.flash (s : State) (f : Fin 2) : FlashSt := s.flashes[f]

/-- A boot flash is changed. -/
def State.onFlash (s : State) (f : Fin 2) (g : FlashSt → FlashSt) : State :=
  { s with flashes := s.flashes.set f (g (s.flash f)) }

/-- One beam channel of a head. -/
def Head.beam (x : Head) (i : Fin 33) : BeamSt := x.beams[i]

/-- A beam channel of a head is changed. -/
def Head.onBeam (x : Head) (i : Fin 33) (f : BeamSt → BeamSt) : Head :=
  { x with beams := x.beams.set i (f (x.beam i)) }

/-- One step generator of a head. -/
def Head.gen (x : Head) (g : Fin 2) : StepSt := x.gens[g]

/-- A step generator of a head is changed. -/
def Head.onGen (x : Head) (g : Fin 2) (f : StepSt → StepSt) : Head :=
  { x with gens := x.gens.set g (f (x.gen g)) }

/-- A fold over the 32 heads. -/
def State.eachHead (s : State) (f : Fin 32 → State → State) : State := allHeads.foldl (fun s h => f h s) s

/-- A fold over the eight tiles. -/
def State.eachTile (s : State) (f : Fin 8 → State → State) : State := allTiles.foldl (fun s t => f t s) s

/-! ### Register fields of each scope -/

/-- A field of a head, unsigned. -/
def Head.r (x : Head) (f : Fld) : Nat := x.regs.rd f

/-- A field of a head, signed. -/
def Head.ri (x : Head) (f : Fld) : Int := x.regs.rdS f

/-- A one-bit field of a head. -/
def Head.b (x : Head) (f : Fld) : Bool := x.regs.flag f

/-- A field of a head takes a value. -/
def Head.w (x : Head) (f : Fld) (v : Nat) : Head := { x with regs := x.regs.wr f v }

/-- A field of a head takes a signed value. -/
def Head.wi (x : Head) (f : Fld) (v : Int) : Head := { x with regs := x.regs.wrS f v }

/-- A one-bit field of a head takes a value. -/
def Head.put (x : Head) (f : Fld) (v : Bool) : Head := { x with regs := x.regs.put f v }

/-- A flag of a head is set. -/
def Head.flag (x : Head) (f : Fld) : Head := { x with regs := x.regs.set f }

/-- A flag of a head is set where `c` holds. -/
def Head.flagIf (x : Head) (c : Bool) (f : Fld) : Head := { x with regs := x.regs.setIf c f }

/-- A saturating counter of a head gains `n`. -/
def Head.bump (x : Head) (f : Fld) (n : Nat) : Head := { x with regs := x.regs.bump f n }

/-- A field of a tile, unsigned. -/
def Tile.r (x : Tile) (f : Fld) : Nat := x.regs.rd f

/-- A field of a tile, signed. -/
def Tile.ri (x : Tile) (f : Fld) : Int := x.regs.rdS f

/-- A one-bit field of a tile. -/
def Tile.b (x : Tile) (f : Fld) : Bool := x.regs.flag f

/-- A field of a tile takes a value. -/
def Tile.w (x : Tile) (f : Fld) (v : Nat) : Tile := { x with regs := x.regs.wr f v }

/-- A field of a tile takes a signed value. -/
def Tile.wi (x : Tile) (f : Fld) (v : Int) : Tile := { x with regs := x.regs.wrS f v }

/-- A one-bit field of a tile takes a value. -/
def Tile.put (x : Tile) (f : Fld) (v : Bool) : Tile := { x with regs := x.regs.put f v }

/-- A flag of a tile is set. -/
def Tile.flag (x : Tile) (f : Fld) : Tile := { x with regs := x.regs.set f }

/-- A flag of a tile is set where `c` holds. -/
def Tile.flagIf (x : Tile) (c : Bool) (f : Fld) : Tile := { x with regs := x.regs.setIf c f }

/-- A saturating counter of a tile gains `n`. -/
def Tile.bump (x : Tile) (f : Fld) (n : Nat) : Tile := { x with regs := x.regs.bump f n }

/-- A field of an Atrium copy, unsigned. -/
def Atrium.r (x : Atrium) (f : Fld) : Nat := x.regs.rd f

/-- A one-bit field of an Atrium copy. -/
def Atrium.b (x : Atrium) (f : Fld) : Bool := x.regs.flag f

/-- A field of an Atrium copy takes a value. -/
def Atrium.w (x : Atrium) (f : Fld) (v : Nat) : Atrium := { x with regs := x.regs.wr f v }

/-- A one-bit field of an Atrium copy takes a value. -/
def Atrium.put (x : Atrium) (f : Fld) (v : Bool) : Atrium := { x with regs := x.regs.put f v }

/-- A flag of an Atrium copy is set. -/
def Atrium.flag (x : Atrium) (f : Fld) : Atrium := { x with regs := x.regs.set f }

/-- The wings are split: a copy shows SPLIT (R445). -/
def State.split (s : State) : Bool := (s.atrium 0).b AuthReg.SPLIT || (s.atrium 1).b AuthReg.SPLIT

/-- The wing that holds the lease as copy `w` sees it (R440). -/
def State.holderSeen (s : State) (w : Fin 2) : Fin 2 := if (s.atrium w).b AuthReg.HOLDER_WING then 1 else 0

/-- Copy `w` names itself as holder (R440). -/
def State.holds (s : State) (w : Fin 2) : Bool := s.holderSeen w = w

/-- The copy whose registers speak for the package: the holder's, and during a split the lower wing's that holds. -/
def State.mainWing (s : State) : Fin 2 := if s.holds 0 then 0 else if s.holds 1 then 1 else 0

/-- The words of the package block that persist, by management address; EPOCH and WSEQ_AT are each kept whole in one
Selvedge word (R433, R507). -/
def pkgPersist : List Nat :=
  [0x8, 0xC, 0x10, 0x14, 0x218, 0x21C, 0x220, 0x230, 0x280, 0x284, 0x604] ++
    (List.range 8).flatMap fun n => [0x4004, 0x4008, 0x400C, 0x4018, 0x4020, 0x402C].map (· + 0x100 * n)

/-- The words of a tile that persist, by offset from its base: COMMIT_SEQ of its heads and the trip record. -/
def tilePersist : List Nat :=
  [0x400000 + 0x7002C, 0x480000 + 0x7002C, 0x500000 + 0x7002C, 0x580000 + 0x7002C, 0x60003C, 0x600040]

/-- First address of a tile (R497). -/
def tileBase (t : Fin 8) : Nat := 0x10000000 + 0x1000000 * t.val

/-- First address of a head (R497). -/
def headBase (h : Fin 32) : Nat := tileBase (tileOf h) + 0x400000 + 0x80000 * (localOf h).val

/-- Addresses of the words kept in the Selvedge store of tile `t`, in the order of space 0x20 (R507, R509). -/
def keptWords (t : Fin 8) : List Nat :=
  (if t.val % 4 = 0 then pkgPersist else []) ++ tilePersist.map (· + tileBase t)

/-- The address under which the word at address `a` is kept: the upper words of EPOCH and of WSEQ_AT lie with the lower ones
(R433). -/
def keptAddr (a : Nat) : Nat := if a = 0x608 ∨ (0x4000 ≤ a ∧ a < 0x4800 ∧ a % 0x100 = 0x1C) then a - 4 else a

/-- The Selvedge word of tile `t` in which the word at address `a` is kept. -/
def keptAt (t : Fin 8) (a : Nat) : Option Nat := (keptWords t).idxOf? (keptAddr a)

/-- The Selvedge word of tile `t` that keeps the word at address `a` is uncorrectable, so that word reads 0 (R433,
R435). -/
def State.lostWord (s : State) (t : Fin 8) (a : Nat) : Bool :=
  !(s.tile t).selv.ue.isEmpty && (keptAt t a).any fun w => (s.tile t).selv.ue.contains w

/-- A field of the package block, as copy `w` holds it; one whose kept word is uncorrectable reads 0 (R435). -/
def State.pr (s : State) (w : Fin 2) (f : Fld) : Nat :=
  if f.persist && s.lostWord (atriumTile w) f.off then 0 else (s.atrium w).regs.rd f

/-- A change to the package block made for wing `w`: to both copies, and during a split to that wing's copy alone
(R433, R445). -/
def State.onPkg (s : State) (w : Fin 2) (f : RegFile → RegFile) : State :=
  if s.split then s.onAtrium w fun a => { a with regs := f a.regs }
  else (s.onAtrium 0 fun a => { a with regs := f a.regs }).onAtrium 1 fun a => { a with regs := f a.regs }

/-- A flag of the package block is set for wing `w`. -/
def State.pset (s : State) (w : Fin 2) (f : Fld) : State := s.onPkg w (·.set f)

/-- The tiles enabled by the bit-stream in use (R13, R500), and, until a bit-stream is loaded, the strapped tiles, which
are powered for boot (R410). -/
def State.tileEnabled (s : State) (t : Fin 8) : Bool :=
  let en := s.pr (wingOf t) IdReg.TILE_EN
  bitOf (if en = 0 then s.pr (wingOf t) IdReg.TILE_STRAPPED else en) t

/-- Tile `t` is in a tile reset, or was left in reset by a failed load, while the package runs (R7, R414). During a boot
its blocks are held in reset too (R505), but the boot itself works on the tile. -/
def State.asleep (s : State) (t : Fin 8) : Bool := (s.tile t).inReset && s.boot.phase = .running

/-! ### Time -/

/-- CORE cycles of one microsecond: the CORE clock runs at 1.6 GHz (R28). -/
def cyclesPerUs : Nat := 1600

/-- `n` CORE cycles pass at one tile (R36, R38): a held counter adds nothing, a slewing one 11/16 or 9/16 ns, any
other 10/16 ns per cycle. -/
def Tile.advance (n : Nat) (t : Tile) : Tile :=
  if t.timeOn then
    let held := min n t.holdLeft
    let run := n - held
    let sl := min run t.slew.natAbs
    { t with
      time16 := if 0 < t.slew then t.time16 + 10 * run + sl else t.time16 + 10 * run - sl
      holdLeft := t.holdLeft - held
      slew := if 0 < t.slew then t.slew - sl else t.slew + sl }
  else t

/-- `n` CORE cycles pass. -/
def State.advance (n : Nat) (s : State) : State :=
  { s with
    cycle := s.cycle + n
    turn := if n = 0 then s.turn else 0
    tiles := #v[Tile.advance n (s.tile 0), Tile.advance n (s.tile 1), Tile.advance n (s.tile 2),
      Tile.advance n (s.tile 3), Tile.advance n (s.tile 4), Tile.advance n (s.tile 5),
      Tile.advance n (s.tile 6), Tile.advance n (s.tile 7)] }

/-- Package time at a tile, in 1/16 ns (R36). -/
def State.t16 (s : State) (t : Fin 8) : Nat := (s.tile t).time16

/-- Package time at a tile, in ns: the counter's integer part (R36). -/
def State.ns (s : State) (t : Fin 8) : Nat := (s.tile t).time16 / 16

/-- Package time at a head, in 1/16 ns. -/
def State.h16 (s : State) (h : Fin 32) : Nat := s.t16 (tileOf h)

/-- Package time at a head, in ns. -/
def State.hns (s : State) (h : Fin 32) : Nat := s.ns (tileOf h)

/-- A head out of reset whose heavy blocks have power: its Riser lanes, channels, Weft unit, write channel and loop
engine act (R463, R505). -/
def State.live (s : State) (h : Fin 32) : Bool := !(s.head h).inReset && !(s.tile (tileOf h)).heat.heavyOff

/-- At least `n` CORE cycles have passed since cycle `c`. -/
def State.since (s : State) (c n : Nat) : Bool := decide (c + n ≤ s.cycle)

/-- A rejoin is in progress (R447). -/
def State.rejoining (s : State) : Bool := (s.atrium 0).rejoin.isSome

/-- The master of wing `w`'s time: the Atrium tile of the holding wing, and of `w` itself during a split until a bridge
returns (R37, R447). -/
def State.masterOf (s : State) (w : Fin 2) : Fin 8 :=
  if s.split && !s.rejoining then atriumTile w else atriumTile s.mainWing

/-- The field TIME_VALID of a tile (R40). -/
def State.timeValid (s : State) (t : Fin 8) : Bool := (s.tile t).b TimeReg.TIME_VALID

/-! ### The Selvedge store -/

/-- A 64-bit word of a tile's Selvedge store, as stored (R430); an uncorrectable word reads 0 (R435). -/
def Selvedge.read (x : Selvedge) (w : Nat) : DWord := if x.ue.contains w then 0 else readDW x.words w

/-- A 64-bit word of a tile's Selvedge store is written (R431), its wear counter advances and saturates (R434), and
an upset in it is gone. -/
def Selvedge.write (x : Selvedge) (w : Nat) (v : DWord) : Selvedge :=
  { words := writeDW x.words w v
    wear := insertKey w (satAdd 48 ((lookupKey w x.wear).getD 0) 1) x.wear
    ce := x.ce.filter (· ≠ w)
    ue := x.ue.filter (· ≠ w) }

/-- The highest wear counter of the tiles that wing `w` speaks for, all of them or, during a split, its own, and the first
tile that has it (R434; of equal ones the lowest tile, DESIGN CHOICE, log entry 142). -/
def State.topWear (s : State) (w : Fin 2) : Nat × Fin 8 :=
  (allTiles.filter fun t => !s.split || wingOf t == w).foldl (fun m t =>
    let c := (s.tile t).selv.wear.foldl (fun m e => max m e.2) 0
    if m.1 < c then (c, t) else m) (0, atriumTile w)

/-- WEAR_WARN, WEAR_MAX and WEAR_TILE once a counter has reached 2^WEAR_WARN_EXP (R434). -/
def State.refreshWear (w : Fin 2) (s : State) : State :=
  let m := s.topWear w
  if 2 ^ s.pr w BootReg.WEAR_WARN_EXP ≤ m.1 then
    (s.pset w BootReg.WEAR_WARN).onPkg w fun rf =>
      ((rf.wr BootReg.WEAR_MAX_LO m.1).wr BootReg.WEAR_MAX_HI (m.1 / 2 ^ 32)).wr BootReg.WEAR_TILE m.2
  else s

/-- The wear registers after a write of word `w` on tile `t` (R434). -/
def State.noteWear (s : State) (t : Fin 8) (w : Nat) : State :=
  let c := (lookupKey w (s.tile t).selv.wear).getD 0
  if 2 ^ s.pr (wingOf t) BootReg.WEAR_WARN_EXP ≤ c then s.refreshWear (wingOf t) else s

/-- The Selvedge stores refuse writes (R432): a power-failure episode runs and 10 µs have passed since its edge. -/
def State.storeRefuses (s : State) : Bool :=
  s.pkg.refusing || (match s.pkg.failEdge with | none => false | some e => decide (e + 16000 ≤ s.cycle))

/-- A word of a tile's Selvedge store is written, or the write is refused with SELV_REFUSED (R432). -/
def State.selvWrite (s : State) (t : Fin 8) (w : Nat) (v : DWord) : State :=
  if s.storeRefuses then s.pset (wingOf t) BootReg.SELV_REFUSED
  else (s.onTile t fun x => { x with selv := x.selv.write w v }).noteWear t w

/-- Consecutive words of a tile's Selvedge store are written, the first at word `w`. -/
def State.selvWrites (s : State) (t : Fin 8) (w : Nat) : List DWord → State
  | [] => s
  | v :: l => State.selvWrites (s.selvWrite t w v) t (w + 1) l

/-- The Selvedge word that keeps address `a` on tile `t` is written (R433, R434). -/
def State.keep (s : State) (t : Fin 8) (a : Nat) : State :=
  match (keptWords t).idxOf? a with
  | none => s
  | some i =>
    (s.onTile t fun x => { x with selv := { x.selv with
      wear := insertKey i (satAdd 48 ((lookupKey i x.selv.wear).getD 0) 1) x.selv.wear
      ce := x.selv.ce.filter (· ≠ i), ue := x.selv.ue.filter (· ≠ i) } }).noteWear t i

/-- The Selvedge words of a package word are written for wing `w`: in tiles 0 and 4, and during a split in that wing's
tile alone (R433, R445). -/
def State.keepPkg (s : State) (w : Fin 2) (a : Nat) : State :=
  if s.split then s.keep (atriumTile w) a else (s.keep 0 a).keep 4 a

/-- A field of the package block takes a value for wing `w`. A persistent one is written to the Selvedge store, which
may refuse it (R432). -/
def State.pw (s : State) (w : Fin 2) (f : Fld) (v : Nat) : State :=
  if f.persist then
    if s.storeRefuses then s.pset w BootReg.SELV_REFUSED else (s.onPkg w (·.wr f v)).keepPkg w f.off
  else s.onPkg w (·.wr f v)

/-- The registers that an access to a Selvedge word moves: a corrected word is counted, an uncorrectable one sets
SELV_UE, is counted and captured (R435). -/
def State.noteSelvRead (s : State) (t : Fin 8) (w : Nat) : State :=
  let x := (s.tile t).selv
  let wing := wingOf t
  if x.ue.contains w then
    s.onPkg wing fun rf =>
      (((rf.set BootReg.SELV_UE).bump BootReg.SELV_UE_COUNT 1).wr BootReg.SELV_UE_WORD w).wr BootReg.SELV_UE_TILE t
  else if x.ce.contains w then s.onPkg wing (·.bump BootReg.SELV_CE_COUNT 1)
  else s

/-- What reading `n` Selvedge words of tile `t` from word `lo` on moves (R435). -/
def State.noteWords (t : Fin 8) (lo n : Nat) (s : State) : State :=
  let x := (s.tile t).selv
  let inside (w : Nat) : Bool := decide (lo ≤ w ∧ w < lo + n)
  ((x.ue ++ x.ce.filter fun w => !x.ue.contains w).filter inside).foldl (fun s w => s.noteSelvRead t w) s

/-- What reading the word at address `a`, kept on tile `t`, moves (R433, R435). -/
def State.noteKept (t : Fin 8) (a : Nat) (s : State) : State :=
  match keptAt t a with
  | none => s
  | some w => s.noteSelvRead t w

/-! ### The links of the Warp -/

/-- The tile at the far end of link `k` of tile `t`: 0 the next higher of the wing, 1 the next lower, 2 the bridge
(R504). -/
def warpFar (t : Fin 8) (k : Fin 3) : Fin 8 :=
  if k = 0 then ⟨(t.val % 4 + 1) % 4 + 4 * (t.val / 4), by omega⟩
  else if k = 1 then ⟨(t.val % 4 + 3) % 4 + 4 * (t.val / 4), by omega⟩
  else ⟨(t.val + 4) % 8, by omega⟩

/-- The link of the far end that faces link `k`. -/
def warpBack (k : Fin 3) : Fin 3 := if k = 0 then 1 else if k = 1 then 0 else 2

/-- Link `k` of tile `t` works: LSTATE is up at both ends (R504). -/
def State.linkUp (s : State) (t : Fin 8) (k : Fin 3) : Bool :=
  (s.tile t).r (LinkReg.LSTATE k) == 2 && (s.tile (warpFar t k)).r (LinkReg.LSTATE (warpBack k)) == 2

/-- Bridges that are up (R459). -/
def State.bridges (s : State) : Nat :=
  ([0, 1, 2, 3] : List (Fin 8)).foldl (fun m t => m + (if s.linkUp t 2 then 2 ^ t.val else 0)) 0

/-! ### The event log -/

/-- A tile can write its own log: it is neither in a tile reset nor under thermal trip (R452). -/
def State.canLog (s : State) (t : Fin 8) : Bool := !s.asleep t && (s.tile t).heat.tripAt.isNone

/-- The tile that records an event of tile `t`: `t` itself, or, while `t` cannot write its own log, the Atrium tile of
its wing, or, with a bridge up, of the other wing while that one cannot either (R452, R465). -/
def State.logTile (s : State) (t : Fin 8) : Fin 8 :=
  let a := atriumTile (wingOf t)
  let o := atriumTile (otherWing (wingOf t))
  if s.canLog t then t else if s.canLog a then a else if s.bridges != 0 && s.canLog o then o else t

/-- The four words of a record (R452). -/
def LogRec.words (r : LogRec) (rep seq : Nat) : List DWord :=
  [BitVec.ofNat 64 (r.code % 2 ^ 16 + r.tile % 2 ^ 8 * 2 ^ 16 + r.unit % 2 ^ 8 * 2 ^ 24 + rep % 2 ^ 16 * 2 ^ 32),
   BitVec.ofNat 64 r.time, BitVec.ofNat 64 r.arg0, BitVec.ofNat 64 (r.arg1 % 2 ^ 32 + seq % 2 ^ 32 * 2 ^ 32)]

/-- First word of record SEQ in the Selvedge store: byte 0x006_0000 + 32 × (SEQ mod 20 480) (R452). -/
def logWord (seq : Nat) : Nat := 0x60000 / 8 + 4 * (seq % 20480)

/-- A record is written in tile `l`'s log: merged into the newest one, or word 0 as 0, words 1 to 3, then word 0
(R453). A record that the store refuses adds one to EV_DROP. -/
def State.writeRecord (s : State) (l : Fin 8) (r : LogRec) : State :=
  let wing := wingOf l
  let seq := s.pr wing (EvReg.EV_SEQ l)
  let lg := (s.tile l).logger
  let window := s.pr wing (EvReg.EV_MERGE l)
  let merges : Bool := match lg.newest with
    | none => false
    | some n => window ≠ 0 && n.code = r.code && n.tile = r.tile && n.unit = r.unit
        && decide (r.time ≤ n.time + window * 1000000)
  if s.storeRefuses then (s.pset wing BootReg.SELV_REFUSED).onPkg wing (·.bump (EvReg.EV_DROP l) 1)
  else if merges then
    let rep := satAdd 16 lg.repeats 1
    match lg.newest with
    | none => s
    | some n =>
      (s.selvWrite l (logWord ((seq + 2 ^ 32 - 1) % 2 ^ 32)) ((n.words rep 0).headD 0)).onTile l
        fun x => { x with logger := { x.logger with repeats := rep } }
  else
    let w := logWord seq
    let ws := r.words 0 seq
    let s := (s.selvWrite l w 0).selvWrites l (w + 1) (ws.drop 1)
    let s := s.selvWrite l w (ws.headD 0)
    let s := s.onTile l fun x => { x with logger := { x.logger with newest := some r, repeats := 0 } }
    s.onPkg wing fun rf => (rf.wr (EvReg.EV_SEQ l) (seq + 1)).set (EvReg.EV_NEW l)

/-- A record of five word writes, at 720 ns each, would complete before the stores refuse writes, or no episode
runs (R471). -/
def State.recordFits (s : State) : Bool :=
  match s.pkg.failEdge with
  | none => true
  | some e => decide (s.cycle + 5 * 1152 ≤ e + 16000)

/-- A record is written in tile `l`'s log (R453); during a power-failure episode one that could not complete in time is held
back (R471). -/
def State.logIn (s : State) (l : Fin 8) (r : LogRec) : State :=
  if s.recordFits then s.writeRecord l r
  else s.onTile l fun x => { x with logger := { x.logger with deferred := x.logger.deferred ++ [r] } }

/-- An event of tile `t` is recorded (R452). `unit` is the UNIT field. -/
def State.log (s : State) (t : Fin 8) (code unit arg0 arg1 : Nat) : State :=
  s.logIn (s.logTile t) { code := code, tile := t, unit := unit, arg0 := arg0, arg1 := arg1, time := s.ns t }

/-- The next free value of the model, and the count of those taken. -/
def State.takeFree (s : State) : State := { s with freeCount := s.freeCount + 1 }

/-- When an operation of a head takes place: package time at its tile in 1/16 ns, the CORE cycle, and what sync flits have
changed there. -/
structure Ctx where
  now : Nat
  cyc : Nat
  paces : List Pace
deriving DecidableEq, Repr

/-- The instant of a head (R36). -/
def State.ctx (s : State) (h : Fin 32) : Ctx := ⟨s.h16 h, s.cycle, (s.tile (tileOf h)).paces⟩

/-- The first CORE cycle in which package time has gone `d` further than a change left it (R36, R38). -/
def Pace.cycleAfter (p : Pace) (d : Nat) : Nat :=
  let step := if 0 < p.slew then 11 else 9
  let n := p.slew.natAbs
  if d = 0 then p.cycle
  else if d ≤ step * n then p.cycle + p.hold + (d + step - 1) / step
  else p.cycle + p.hold + n + (d - step * n + 9) / 10

/-- The first CORE cycle in which package time was `t` or later, before cycle `cyc`, in which it was `now` (R36, R38). -/
def cycleOfTime (t : Nat) : List Pace → Nat → Nat → Nat
  | [], now, cyc => cyc - (now - t) / 10
  | p :: l, _, _ => if p.before < t then p.cycleAfter (t - p.time) else cycleOfTime t l p.before p.cycle

/-- The first CORE cycle in which package time was `t` (1/16 ns) or later; the present one where it is not yet. -/
def Ctx.cycleAt (c : Ctx) (t : Nat) : Nat := min c.cyc (cycleOfTime t c.paces c.now c.cyc)

/-- A happening of step `k` of R512 has its turn: 1 a reset, 2 a pin event or an interlock's trigger, 3 a write, 4 any
other event. Where a later step of the same CORE cycle has begun, the happening belongs to the next cycle (DESIGN CHOICE,
log entry 121). -/
def State.turnTo (k : Nat) (s : State) : State :=
  if k < s.turn then { s.advance 1 with turn := k } else { s with turn := k }

/-- `wait` CORE cycles pass, and an event of step 4 of R512 has its turn, which no other step comes after. -/
def State.pass (wait : Nat) (s : State) : State := { s.advance wait with turn := 4 }

/-- `wait` CORE cycles pass and then, where `due` holds, an event has its effect; where it does not hold the event has
not come about, and only the time has passed (DESIGN CHOICE, log entry 4). -/
def State.after (s : State) (wait : Nat) (due : State → Bool) (act : State → State) : Out :=
  let s := s.pass wait
  .next (if due s then act s else s)

/-- The same for a happening of step `k` of R512 that the others of its cycle may not come before. -/
def State.afterIn (s : State) (k wait : Nat) (due : State → Bool) (act : State → State) : Out :=
  let s := (s.advance wait).turnTo k
  .next (if due s then act s else s)

/-- An event of a head of which nothing outside the head takes part. -/
def State.headAfter (s : State) (wait : Nat) (h : Fin 32) (due : Ctx → Head → Bool) (act : Ctx → Head → Head) : Out :=
  s.after wait (fun s => !(s.head h).inReset && due (s.ctx h) (s.head h)) fun s => s.onHead h (act (s.ctx h))

/-- The same of a block that loses its power after a thermal trip (R463). -/
def State.liveAfter (s : State) (wait : Nat) (h : Fin 32) (due : Ctx → Head → Bool) (act : Ctx → Head → Head) : Out :=
  s.after wait (fun s => s.live h && due (s.ctx h) (s.head h)) fun s => s.onHead h (act (s.ctx h))

end Sys2Proof.Machine
end

