-- ==== Sys2Proof/Machine/MemOps.lean ====
section
/-! DEFINITION. What a memory error moves in a tile's protection block (R378 to R380), whoever read the word. -/

namespace Sys2Proof.Machine

/-- The consumers of R380, as UE_SRC numbers them, and the readers that R380 does not list: the merge read of a partial
write (R377), and an engine's own tables. -/
inductive UeSrc where
  | fetch | load | sideBuffer | dma | checking | portRead | replay | schedule | channelTable | slotDesc | loop
  | journal | boltDesc | fabricRx | lockUnit | other
deriving DecidableEq, Repr

/-- The row number of a consumer in R380; of a reader that R380 does not list the spec states none. -/
def UeSrc.code : UeSrc → Nat
  | .fetch => 0 | .load => 1 | .sideBuffer => 2 | .dma => 3 | .checking => 4 | .portRead => 5 | .replay => 6
  | .schedule => 7 | .channelTable => 8 | .slotDesc => 9 | .loop => 10 | .journal => 11 | .boltDesc => 12
  | .fabricRx => 13 | .lockUnit => 14 | .other => Config.otherSource

/-- The kinds of memory: CACHE, SRAM, HBM (R378, R379). -/
inductive MemKind where
  | cache | sram | hbm
deriving DecidableEq, Repr

/-- UE_KIND of a kind (R390). -/
def MemKind.code : MemKind → Nat
  | .cache => 0 | .sram => 1 | .hbm => 2

/-- The bucket of a kind (R379). -/
def MemKind.bucket : MemKind → Fld
  | .cache => ProtReg.B_CACHE | .sram => ProtReg.B_SRAM | .hbm => ProtReg.B_HBM

/-- CE_OVF of a kind (R379). -/
def MemKind.ovf : MemKind → Fld
  | .cache => ProtReg.CE_OVF_CACHE | .sram => ProtReg.CE_OVF_SRAM | .hbm => ProtReg.CE_OVF_HBM

/-- The address of a logged SRAM error: the byte offset, and the array ID above bit 32 (R378). -/
def sramAddr (array off : Nat) : Nat := off % 2 ^ 32 + array % 256 * 2 ^ 32

/-- An uncorrectable read at one tile: counted, captured while no capture is held (R380), and logged (R454). -/
def State.noteUe (t : Fin 8) (k : MemKind) (addr : Nat) (src : UeSrc) (s : State) : State :=
  let x := s.tile t
  let s := s.onTile t (·.bump ProtReg.UE_COUNT 1)
  let s := if x.b ProtReg.UE_VALID then s else s.onTile t fun x =>
    ((((x.w ProtReg.UE_ADDR_LO addr).w ProtReg.UE_ADDR_HI (addr / 2 ^ 32)).w ProtReg.UE_KIND k.code).w
      ProtReg.UE_SRC src.code).flag ProtReg.UE_VALID
  s.log t 0x40 0xFF addr (k.code * 2 ^ 8 + src.code * 2 ^ 10)

/-- The bits of an address, and the row, that LOC of a logged error gives, in the form of R383 (R378): of an SRAM error KIND 1,
the array and its row, of an HBM error KIND 2 and the row with its bank. Of a cache error the spec states no LOC. -/
def locOf (k : MemKind) (addr : Nat) : Nat :=
  match k with
  | .sram => 1 + addr / 2 ^ 32 % 256 * 2 ^ 3 + (Config.sramRow (addr / 2 ^ 32) (addr % 2 ^ 32)).toNat * 2 ^ 11
  | .hbm => 2 + (Config.hbmRow addr).toNat * 2 ^ 3
  | .cache => (Config.cacheLoc addr).toNat

/-- The three buckets leak `n` times (R379). -/
def Tile.leak (n : Nat) (x : Tile) : Tile :=
  [MemKind.cache, MemKind.sram, MemKind.hbm].foldl (fun x k =>
    x.w k.bucket (x.r k.bucket - n * x.r (ProtReg.CE_LEAK k.code))) x

/-- Package time at the tile, in multiples of 1 000 000 ns. -/
def Tile.leakNow (x : Tile) : Nat := x.time16 / 16 / 1000000

/-- The leaks that are owed are applied, one for each multiple of 1 000 000 ns that package time has reached (R379). -/
def Tile.settleLeak (x : Tile) : Tile :=
  if x.timeOn then { x.leak (x.leakNow - x.leakMs) with leakMs := x.leakNow } else x

/-- A valid entry of the correctable log with a kind and an address (R378). -/
def Tile.ceMatch (x : Tile) (k : MemKind) (addr : Nat) : Option Nat :=
  (List.range 16).find? fun i => bitOf (x.r ProtReg.LOG_VALID) i && x.r (ProtReg.KIND i) == k.code
    && x.r (ProtReg.ADDR_LO i) + x.r (ProtReg.ADDR_HI i) * 2 ^ 32 == addr

/-- A correctable error at one tile: the bucket rule of R379, a leak of the same cycle first, and the log of R378. -/
def Tile.noteCe (k : MemKind) (addr : Nat) (x : Tile) : Tile :=
  let x := x.settleLeak.bump (ProtReg.CE_COUNT k.code) 1
  let b := x.r k.bucket
  let x := if x.r (ProtReg.CE_CAP k.code) ≤ b then (x.flag k.ovf).w k.bucket 0 else x.w k.bucket (b + 1)
  match x.ceMatch k addr with
  | some i => x.bump (ProtReg.COUNT i) 1
  | none =>
    match (List.range 16).find? fun i => !bitOf (x.r ProtReg.LOG_VALID) i with
    | none => x.bump ProtReg.LOG_DROP_COUNT 1
    | some i =>
      let x := ((x.w (ProtReg.ADDR_LO i) addr).w (ProtReg.ADDR_HI i) (addr / 2 ^ 32)).w (ProtReg.KIND i) k.code
      let x := (x.w (ProtReg.COUNT i) 1).w (ProtReg.LOC i) (locOf k addr)
      (x.w (ProtReg.T_FIRST i) (x.time16 / 16)).w ProtReg.LOG_VALID (putBit (x.r ProtReg.LOG_VALID) i true)

/-- What a read of an SRAM byte finds in its 13 bits (R375). -/
def Mem.ecc (m : Mem) (a : Nat) : EccRead :=
  match lookupKey a m.flips with
  | none => .clean (m.written a)
  | some x => eccRead (eccWord (m.written a) ^^^ x)

/-- A byte reads as uncorrectable. -/
def Mem.badByte (m : Mem) (a : Nat) : Bool := match m.ecc a with | .bad _ => true | _ => false

/-- A byte reads as corrected. -/
def Mem.weakByte (m : Mem) (a : Nat) : Bool := match m.ecc a with | .corrected _ => true | _ => false

/-- The upset bytes among the `n` bytes of a table from `a` up. -/
def Mem.upsets (m : Mem) (a n : Nat) : List Nat := (m.flips.map (·.1)).filter fun w => decide (a ≤ w ∧ w < a + n)

/-- The first uncorrectable byte among the `n` bytes of a table from `a` up. -/
def Mem.badAt (m : Mem) (a n : Nat) : Option Nat := (m.upsets a n).find? m.badByte

/-- An uncorrectable byte stands among them. -/
def Mem.bad (m : Mem) (a n : Nat) : Bool := (m.badAt a n).isSome

/-- The bytes with a correctable error among the `n` bytes of a table from `a` up. -/
def Mem.weak (m : Mem) (a n : Nat) : List Nat := (m.upsets a n).filter m.weakByte

/-- A read of `n` bytes of an SRAM from `a` up, as it moves the error registers (R378 to R380): its first uncorrectable byte
is counted, captured and logged; with none, every correctable error is corrected, counted and logged (R389). `addr` gives
the logged address of a byte. -/
def State.noteSram (t : Fin 8) (m : Mem) (a n : Nat) (addr : Nat → Nat) (src : UeSrc) (s : State) : State :=
  match m.badAt a n with
  | some w => s.noteUe t .sram (addr w) src
  | none => (m.weak a n).foldl (fun s w => s.onTile t (Tile.noteCe .sram (addr w))) s

/-- An engine's own buffer of array `array`, all of it. -/
def State.noteBuffer (t : Fin 8) (m : Mem) (array : Nat) (src : UeSrc) (s : State) : State :=
  s.noteSram t m 0 (2 ^ 32) (sramAddr array) src

/-- Array ID of memory `k` of a local head (R378). -/
def headArray (l : Fin 4) (k : Nat) : Nat := 0x10 + 8 * l.val + k

/-- The logged address of byte `a` of a head space (R378). -/
def spaceAddr (l : Fin 4) (sp a : Nat) : Nat :=
  match sp with
  | 0x01 => sramAddr (headArray l 0) a
  | 0x02 => sramAddr (headArray l 1) a
  | 0x03 => sramAddr (headArray l 6) (Config.tableByte sp a)
  | 0x04 => sramAddr (headArray l 6) (Config.tableByte sp a)
  | 0x05 => sramAddr (headArray l 2) a
  | 0x09 => sramAddr (headArray l 3) a
  | 0x0A => sramAddr 0x30 (Config.loopArray l 0 a)
  | 0x0B => sramAddr 0x30 (Config.loopArray l 1 a)
  | 0x0C => sramAddr 0x30 (Config.loopArray l 2 a)
  | 0x0D => sramAddr 0x30 (Config.loopArray l 3 a)
  | 0x0E => sramAddr 0x30 (Config.loopArray l 4 a)
  | 0x0F => sramAddr 0x30 (Config.loopArray l 5 a)
  | _ => sramAddr (headArray l 5) (Config.tableByte sp a)

end Sys2Proof.Machine
end

