-- ==== Sys2Proof/Machine/Stack.lean ====
section
/-! DEFINITION. Staging: accesses to a tile's HBM3 stack with its CRC shadow, and what each kind of writer and reader
does to them (R367 to R371, R377, R380, R381). An upset of a stack is kept by the number of its 64-byte line. -/

namespace Sys2Proof.Machine

/-- First byte of the CRC shadow, and the end of staging (R367). -/
def shadowBase : Nat := 0x5FD000000

/-- Bytes of a stack: 24 GiB (R367). -/
def stackSize : Nat := 0x600000000

/-- Staging blocks of 4 KiB (R367). -/
def stagingBlocks : Nat := 6279168

/-- An access of `n` bytes at byte `a` lies in staging (R367). -/
def inStaging (a n : Nat) : Bool := decide (a + n ≤ shadowBase)

/-- The shadow entry of a block: CRC, STAMPED, POISON (R368). -/
structure ShadowEntry where
  crc : Nat
  stamped : Bool
  poison : Bool
deriving DecidableEq, Repr

/-- The shadow entry of block `b` (R368). -/
def Mem.shadow (m : Mem) (b : Nat) : ShadowEntry :=
  let v := m.readLE (shadowBase + 8 * b) 8
  { crc := v % 2 ^ 32, stamped := bitOf v 32, poison := bitOf v 33 }

/-- Bytes of a stack change, and nothing else of it. -/
def Mem.rawBytes (m : Mem) (a : Nat) : List Byte → Mem
  | [] => m
  | b :: l => Mem.rawBytes (m.raw8 a b) (a + 1) l

/-- The low `n` bytes of `v` change at `a`, and nothing else of the stack. -/
def Mem.rawLE (m : Mem) (a : Nat) : Nat → Nat → Mem
  | 0, _ => m
  | n + 1, v => Mem.rawLE (m.raw8 a (BitVec.ofNat 8 v)) (a + 1) n (v / 256)

/-- The shadow entry of a block is written (R368). -/
def Mem.setShadow (m : Mem) (b : Nat) (e : ShadowEntry) : Mem :=
  m.rawLE (shadowBase + 8 * b) 8 (e.crc + flagNat e.stamped * 2 ^ 32 + flagNat e.poison * 2 ^ 33)

/-- The lines among the bytes `a` to `a + n - 1` that stand in a list of upsets. -/
def linesIn (l : List Nat) (a n : Nat) : List Nat := l.filter fun w => decide (n ≠ 0 ∧ a < 64 * w + 64 ∧ 64 * w < a + n)

/-- A block is poisoned: counted once (R381, R389). -/
def State.poison (t : Fin 8) (b : Nat) (s : State) : State :=
  let e := (s.tile t).stack.shadow b
  if e.poison ∨ stagingBlocks ≤ b then s
  else s.onTile t fun x =>
    let x : Tile := (x.flag ProtReg.POISONED).bump ProtReg.POISON_COUNT 1
    { x with stack := x.stack.setShadow b { e with poison := true } }

/-- The errors of a read of `n` bytes: corrected ones are counted and logged, and each uncorrectable line is noted and
poisons its block (R376, R378, R380, R381). -/
def State.noteStack (t : Fin 8) (a n : Nat) (src : UeSrc) (s : State) : State :=
  let m := (s.tile t).stack
  let bad := linesIn m.ue a n
  let s := bad.foldl (fun s w => (s.noteUe t .hbm (64 * w) src).poison t (w / 64)) s
  ((linesIn m.ce a n).filter fun w => !bad.contains w).foldl (fun s w => s.onTile t (Tile.noteCe .hbm (64 * w))) s

/-- A read of staging is uncorrectable. -/
def State.stackUe (s : State) (t : Fin 8) (a n : Nat) : Bool := !(linesIn (s.tile t).stack.ue a n).isEmpty

/-- What a read of `n` bytes leaves behind: MEM_RANGE where it would touch the shadow (R367), otherwise what its errors
move. -/
def State.stackTouch (t : Fin 8) (a n : Nat) (src : UeSrc) (s : State) : State :=
  if inStaging a n then s.noteStack t a n src else s.onTile t (·.flag ProtReg.MEM_RANGE)

/-- The bytes a read returns: zeros where it does not take place (R367). -/
def State.stackBytes (s : State) (t : Fin 8) (a n : Nat) : List Byte :=
  if inStaging a n then (s.tile t).stack.readBytes a n else List.replicate n 0

/-- The number a read of `n` bytes returns, little-endian. -/
def State.stackLE (s : State) (t : Fin 8) (a n : Nat) : Nat :=
  if inStaging a n then (s.tile t).stack.readLE a n else 0

/-- Lines of which a write of `n` bytes at `a` covers only a part. -/
def partLines (a n : Nat) : List Nat :=
  if n = 0 then []
  else
    let first := a / 64
    let last := (a + n - 1) / 64
    (if a % 64 ≠ 0 ∨ a + n < 64 * first + 64 then [first] else [])
      ++ (if last ≠ first ∧ (a + n) % 64 ≠ 0 then [last] else [])

/-- The blocks that a write of `n` bytes at `a` touches. -/
def blocksOf (a n : Nat) : List Nat := if n = 0 then [] else (List.range ((a + n - 1) / 4096 - a / 4096 + 1)).map (a / 4096 + ·)

/-- A write covers block `b` whole. -/
def coversBlock (a n b : Nat) : Bool := decide (a ≤ 4096 * b ∧ 4096 * b + 4096 ≤ a + n)

/-- Bytes reach a stack: a line covered in part is merged by the controller, which counts what its read finds and
poisons the block where it is uncorrectable; every line written has good check bits afterwards (R377). -/
def State.stackMerge (t : Fin 8) (a : Nat) (l : List Byte) (s : State) : State :=
  let n := l.length
  let s := (partLines a n).foldl (fun s w => s.noteStack t (64 * w) 64 .other) s
  s.onTile t fun x =>
    let m := x.stack.rawBytes a l
    let keep (w : Nat) : Bool := !(decide (a / 64 ≤ w ∧ w ≤ (a + n - 1) / 64))
    let m : Mem := if n = 0 then m else { m with ce := m.ce.filter keep, ue := m.ue.filter keep }
    { x with stack := m }

/-- The shadow of the blocks a plain writer touched: STAMPED = 0, and POISON = 0 where it covered the block (R369). -/
def State.unstamp (t : Fin 8) (a n : Nat) (s : State) : State :=
  (blocksOf a n).foldl (fun s b => s.onTile t fun x =>
    let e := x.stack.shadow b
    { x with stack := x.stack.setShadow b { e with stamped := false, poison := e.poison && !coversBlock a n b } }) s

/-- A write by every writer but the stamping ones (R367, R369). -/
def State.stackWrite (t : Fin 8) (a : Nat) (l : List Byte) (s : State) : State :=
  if inStaging a l.length then (s.stackMerge t a l).unstamp t a l.length
  else s.onTile t (·.flag ProtReg.MEM_RANGE)

/-- The number that a list of bytes spells, lowest first. -/
def ofBytes : List Byte → Nat
  | [] => 0
  | b :: l => b.toNat + 256 * ofBytes l

/-- A block is stamped with the CRC of its present contents (R368, R369). -/
def State.stamp (t : Fin 8) (b : Nat) (s : State) : State :=
  s.onTile t fun x =>
    let e : ShadowEntry := ⟨crc32c (x.stack.readBytes (4096 * b) 4096), true, false⟩
    { x with stack := x.stack.setShadow b e }

/-- A write by a stamping writer: blocks written whole are stamped, others as by any writer (R369). -/
def State.stackStamp (t : Fin 8) (a : Nat) (l : List Byte) (s : State) : State :=
  if inStaging a l.length then
    let s := (s.stackMerge t a l).unstamp t a l.length
    (blocksOf a l.length).foldl (fun s b => if coversBlock a l.length b then s.stamp t b else s) s
  else s.onTile t (·.flag ProtReg.MEM_RANGE)

/-- The failure a checking reader reports for a block (R369). -/
inductive BlockFail where
  | ue | poison | unstamped | crc
deriving DecidableEq, Repr

/-- A checking reader reads block `b`: the first failure of R369, and what the read leaves behind (R367, R380, R381). -/
def State.checkBlock (t : Fin 8) (b : Nat) (src : UeSrc) (s : State) : Option BlockFail × State :=
  if stagingBlocks ≤ b then (some .unstamped, s.onTile t (·.flag ProtReg.MEM_RANGE))
  else
    let m := (s.tile t).stack
    let e := m.shadow b
    let s' := s.noteStack t (4096 * b) 4096 src
    if s.stackUe t (4096 * b) 4096 then (some .ue, s')
    else if e.poison then (some .poison, s')
    else if !e.stamped then (some .unstamped, s')
    else if crc32c (m.readBytes (4096 * b) 4096) = e.crc then (none, s')
    else (some .crc, s'.poison t b)

/-- A checking reader reads an information part at ADDR (64-byte units): its eight blocks, and its header's line
(R371). -/
def State.checkInfo (t : Fin 8) (addr : Nat) (src : UeSrc) (s : State) : Option BlockFail × State :=
  if addr % 64 ≠ 63 then (some .unstamped, s)
  else
    let bad := s.stackUe t (64 * addr) 64
    let s := s.stackTouch t (64 * addr) 64 src
    (List.range 8).foldl (fun r k =>
      let c := r.2.checkBlock t (addr / 64 + 1 + k) src
      (if r.1.isSome then r.1 else c.1, c.2)) (if bad then some .ue else none, s)

end Sys2Proof.Machine
end

