-- ==== Sys2Proof/Machine/HostOps.lean ====
section
/-! DEFINITION. What every part of the host interface uses (13_host_queueing.md): a port's registers, completions and
events to hosts, readiness, attention and the pins of R361, and the power state of R359. -/

namespace Sys2Proof.Machine

/-- A port of a tile: local port `l`. -/
def portOf (t : Fin 8) (l : Fin 2) : Fin 16 := ⟨t.val * 2 + l.val, by omega⟩

/-- A number taken as a port number, modulo 16. -/
def toPort (n : Nat) : Fin 16 := ⟨n % 16, by omega⟩

/-- All ports, in order. -/
def allPorts : List (Fin 16) := (List.range 16).map toPort

/-- A field of a port's registers (R364). -/
def State.pv (s : State) (p : Fin 16) (f : Nat → Fld) : Nat := (s.tile (portTile p)).r (f (p.val % 2))
/-- A one-bit field of a port's registers. -/
def State.pb (s : State) (p : Fin 16) (f : Nat → Fld) : Bool := s.pv p f != 0
/-- A field of a port's registers takes a value. -/
def State.pput (s : State) (p : Fin 16) (f : Nat → Fld) (v : Nat) : State := s.onTile (portTile p) (·.w (f (p.val % 2)) v)
/-- A flag of a port's registers is set. -/
def State.pflag (s : State) (p : Fin 16) (f : Nat → Fld) : State := s.onTile (portTile p) (·.flag (f (p.val % 2)))
/-- A counter of a port's registers advances. -/
def State.pbump (s : State) (p : Fin 16) (f : Nat → Fld) : State := s.onTile (portTile p) (·.bump (f (p.val % 2)) 1)

/-- A field of the package block takes a value in every copy that keeps one. -/
def State.pkgPut (s : State) (f : Fld) (v : Nat) : State := (s.pw 0 f v).pw 1 f v

/-- A controller of a port. -/
def State.ctrl (s : State) (p : Fin 16) (c : Nat) : Option Ctrl := (s.port p).ctrls.find? (·.idx == c)

/-- A controller of a port is changed. -/
def State.onCtrl (s : State) (p : Fin 16) (c : Nat) (f : Ctrl → Ctrl) : State :=
  s.onPort p fun x => { x with ctrls := x.ctrls.map fun k => if k.idx = c then f k else k }

/-! ### Readiness and the pins -/

/-- A change of the package's power state away from PS4 is in progress (R361). -/
def State.ps4Exit (s : State) : Bool :=
  let w := s.mainWing
  s.pr w HostReg.PS_CURRENT == 4 && s.pr w HostReg.PS_REQ != 4

/-- Near-end PCS loopback (R409; DEDUCED, log entry 102): with PORT = 1 an enabled port hears itself and nothing from its
line. -/
def State.portLooped (s : State) (p : Fin 16) : Bool := bitsOf s.boot.strapWord 9 8 == 1 && s.pb p PortReg.ENABLE

/-- Port `p` is ready (R361, R464, R478). -/
def State.portReady (s : State) (p : Fin 16) : Bool :=
  let t := portTile p
  let x := s.tile t
  s.tileEnabled t && !x.inReset && !x.b HeatReg.TRIPPED && x.heat.tripAt.isNone && !x.heat.heavyOff
    && s.pb p PortReg.LINK_UP && s.pb p PortReg.ACCEPT && !s.ps4Exit

/-- An attention of the port is pending (R361). -/
def State.attention (s : State) (p : Fin 16) : Bool :=
  let x := s.tile (portTile p)
  (x.regs.word PortReg.all (PortReg.AEN_HELD (p.val % 2)).off % 64) &&& s.pv p PortReg.ATTN_MASK != 0

/-- The pins of a port follow its readiness and attention (R361). -/
def State.refreshPort (p : Fin 16) (s : State) : State :=
  let held := (s.port p).ctrls.any fun c => !c.held.isEmpty
  let io := ((s.port p).ctrls.filter fun c => decide (c.idx < 16)).length
  let s := (s.pput p PortReg.AEN_HELD (flagNat held)).pput p PortReg.CONTROLLERS io
  let ready := s.portReady p
  let high := ready && !s.attention p
  let s := (s.pput p PortReg.READY (flagNat ready)).pput p PortReg.PRDY (flagNat high)
  if high then s.onPort p fun x => { x with prdyRose := true } else s

/-- PRDY_N of every port, ALERT_SRC and SMB_ALERT_N follow (R361). -/
def State.refreshPorts (s : State) : State :=
  let s := allPorts.foldl (fun s p => s.refreshPort p) s
  let src := allPorts.foldl (fun m p => m + (if s.attention p then 2 ^ p.val else 0)) 0
  let s := s.pkgPut HostReg.ALERT_SRC src
  let low := src &&& s.pr s.mainWing HostReg.ALERT_MASK ≠ 0
  { s with pkg := { s.pkg with alertN := !low } }

/-! ### Completions and events -/

/-- The value of a feature of a controller (R336). -/
def Ctrl.feature (c : Ctrl) (fid : Nat) : Nat := (lookupKey fid c.features).getD 0

/-- A completion is posted to a host, and one with an error enters the controller's error log (R335, R344). -/
def State.post (s : State) (p : Fin 16) (k : HostCpl) (nsid lbn : Nat) : State :=
  let s := s.onPort p fun x => { x with cpls := k :: x.cpls }
  if k.sct = 0 ∧ k.sc = 0 then s
  else s.onCtrl p k.ctrl fun c =>
    let e : ErrEntry := { number := c.errCount + 1, qid := k.qid, cid := k.cid
                          status := k.sc + k.sct * 2 ^ 8 + flagNat k.dnr * 2 ^ 14, nsid := nsid, lbn := lbn }
    { c with errCount := c.errCount + 1, errors := (e :: c.errors).take 64 }

/-- An event is enabled by feature 0Bh (R336, R358): 0 a SMART warning, 1 the ANA change notice, 2 and 3 the vendor
events. -/
def Ctrl.eventOn (c : Ctrl) (ev : Nat) : Bool :=
  match ev with
  | 0 => bitOf (c.feature 0x0B) 1
  | 1 => bitOf (c.feature 0x0B) 11
  | n => bitOf (c.feature 0x0B) (Config.vendorEventBit (n - 1))

/-- DW0 of the completion that reports an event (R358): event type, information and log page. -/
def eventDword (ev : Nat) : Nat :=
  match ev with
  | 0 => 1 + 1 * 2 ^ 8 + 0x02 * 2 ^ 16
  | 1 => 2 + 3 * 2 ^ 8 + 0x0C * 2 ^ 16
  | n => 7 + (n - 1) * 2 ^ 8 + 0xC2 * 2 ^ 16

/-- An event of a controller is reported on an outstanding request, or held; a repeat of a held one is merged (R358). -/
def State.event (p : Fin 16) (c : Nat) (ev nsid : Nat) (s : State) : State :=
  match s.ctrl p c with
  | none => s
  | some k =>
    if !k.eventOn ev then s
    else
      match k.aers with
      | cid :: l =>
        (s.onCtrl p c fun k => { k with aers := l }).post p
          { HostCpl.reset with ctrl := c, cid := cid, dw0 := eventDword ev, dw1 := nsid } 0 0
      | [] =>
        (s.onCtrl p c fun k =>
          if k.held.any (·.1 == ev) then k else { k with held := k.held ++ [(ev, nsid)] }).refreshPorts

/-- An event of every controller of every port. -/
def State.eventAll (ev nsid : Nat) (s : State) : State :=
  allPorts.foldl (fun s p => (s.port p).ctrls.foldl (fun s c => s.event p c.idx ev nsid) s) s

/-! ### Power states -/

/-- The package power state: the lowest-numbered among the connected I/O controllers; none without one (R359). -/
def State.packageState (s : State) : Option Nat :=
  let l := allPorts.flatMap fun p => ((s.port p).ctrls.filter fun c => decide (c.idx < 16)).map (·.ps)
  match l with
  | [] => none
  | a :: l => some (l.foldl min a)

/-- PS_REQ follows the package state, and PS_CHANGE is set where that differs from PS_CURRENT (R359). `auto` says that
an autonomous transition asked for it (R366). -/
def State.refreshPower (auto : Bool) (s : State) : State :=
  match s.packageState with
  | none => s
  | some v =>
    let w := s.mainWing
    if v = s.pr w HostReg.PS_REQ then s
    else
      let s := (s.pkgPut HostReg.PS_REQ v).pkgPut HostReg.APST_ACTIVE (flagNat auto)
      (if v = s.pr w HostReg.PS_CURRENT then s else s.pkgPut HostReg.PS_CHANGE 1).refreshPorts

/-- PS_CURRENT has been written: PS_REQ and PS_CHANGE follow where the package state differs from it (R359). With no I/O
controller connected the package state holds its value, which PS_REQ shows. -/
def State.powerWritten (s : State) : State :=
  let w := s.mainWing
  let v := s.packageState.getD (s.pr w HostReg.PS_REQ)
  if v = s.pr w HostReg.PS_CURRENT then s else (s.pkgPut HostReg.PS_REQ v).pkgPut HostReg.PS_CHANGE 1

end Sys2Proof.Machine
end

