-- ==== Sys2Proof/Machine/SetMap.lean ====
section
/-! DEFINITION. The logical map of an archive set (R319 to R321): places in allocation order (R311), extents and their
versions, the room of the map area, and the records of R320. -/

namespace Sys2Proof.Machine

/-! ### Allocation order -/

/-- Data members of a set (R302). -/
def SetDef.data (d : SetDef) : Nat := d.n - 2

/-- Block positions of a stripe (R311). -/
def SetDef.perStripe (d : SetDef) : Nat := max 1 (8 * d.data)

/-- The place of an extent's first block in allocation order, over all stripes (R311). -/
def Extent.place (d : SetDef) (e : Extent) : Nat := e.wseq * d.perStripe + e.member * 8 + e.slot

/-- The part of an extent from block `lo` up to but not including block `hi`, counted from its first. -/
def Extent.cut (d : SetDef) (e : Extent) (lo hi : Nat) (sup : Bool) : Extent :=
  let p := e.place d + lo
  { lbn := e.lbn + lo, count := hi - lo, wseq := p / d.perStripe, member := p % d.perStripe / 8
    slot := p % 8, superseded := sup }

/-- The parts of an extent, none for an empty span. -/
def Extent.parts (d : SetDef) (e : Extent) (lo hi : Nat) (sup : Bool) : List Extent :=
  if lo < hi then [e.cut d lo hi sup] else []

/-- A new version `x` meets an extent `c` (R319): what becomes of `c`, and the span of `x` that `c` takes from it, with
whether that part of `x` stays as a superseded version. A place later in allocation order is the later version. -/
def Extent.meet (d : SetDef) (x c : Extent) : List Extent × Option (Nat × Nat × Bool) :=
  let a := max c.lbn x.lbn
  let b := min (c.lbn + c.count) (x.lbn + x.count)
  if c.superseded || decide (b ≤ a) then ([c], none)
  else
    let pc : Int := (c.place d : Int) - c.lbn
    let px : Int := (x.place d : Int) - x.lbn
    if pc < px then
      (c.parts d 0 (a - c.lbn) false ++ c.parts d (a - c.lbn) (b - c.lbn) true
        ++ c.parts d (b - c.lbn) c.count false, none)
    else ([c], some (a - x.lbn, b - x.lbn, decide (px < pc)))

/-- The parts of `x` outside the spans `lost`, which are in increasing order, from block `pos` on. -/
def Extent.rest (d : SetDef) (x : Extent) : Nat → List (Nat × Nat × Bool) → List Extent
  | pos, [] => x.parts d pos x.count false
  | pos, (lo, hi, kept) :: l =>
    x.parts d pos lo false ++ (if kept then x.parts d lo hi true else []) ++ x.rest d hi l

/-- Earlier in the order of a checkpoint: by LBN, then by WSEQ (R320). -/
def Extent.before (a b : Extent) : Bool := decide (a.lbn < b.lbn) || (a.lbn == b.lbn && decide (a.wseq ≤ b.wseq))

/-- An element is put into a sorted list, before the first that it precedes. -/
def insertBy {α : Type} (le : α → α → Bool) (x : α) : List α → List α
  | [] => [x]
  | a :: l => if le x a then x :: a :: l else a :: insertBy le x l

/-- A list sorted by insertion. -/
def sortBy {α : Type} (le : α → α → Bool) : List α → List α
  | [] => []
  | a :: l => insertBy le a (sortBy le l)

/-- An extent comes into the map (R319). -/
def mergeExtent (d : SetDef) (es : List Extent) (x : Extent) : List Extent :=
  let ms := es.map (x.meet d)
  let lost := sortBy (fun (a b : Nat × Nat × Bool) => decide (a.1 ≤ b.1)) (ms.filterMap (·.2))
  sortBy Extent.before (ms.flatMap (·.1) ++ x.rest d 0 lost)

/-- Extents come into the map in order. -/
def mergeAll (d : SetDef) (es xs : List Extent) : List Extent := xs.foldl (mergeExtent d) es

/-! ### Stripes and deltas -/

/-- The place of a delta's first block in its band (R311, R316). -/
def DeltaPair.place (d : SetDef) (p : DeltaPair) : Nat := p.stripe * d.perStripe + p.member * 8 + p.slot

/-- A delta names stripe `i` (R316). -/
def DeltaPair.names (d : SetDef) (p : DeltaPair) (i : Nat) : Bool :=
  decide (p.place d / d.perStripe ≤ i ∧ i ≤ (p.place d + max 1 p.count - 1) / d.perStripe)

/-- The part of a delta that lies in stripe `i` of the band that starts at `wseqFirst`. -/
def DeltaPair.extent (d : SetDef) (wseqFirst i : Nat) (p : DeltaPair) : List Extent :=
  let a := max (p.place d) (i * d.perStripe)
  let b := min (p.place d + p.count) ((i + 1) * d.perStripe)
  if a < b then
    [{ lbn := p.lbn + (a - p.place d), count := b - a, wseq := wseqFirst + i
       member := a % d.perStripe / 8, slot := a % 8, superseded := false }]
  else []

/-- The extents that a commit of stripe `i` brings (R313). -/
def OpenBand.extents (d : SetDef) (b : OpenBand) (i : Nat) : List Extent := b.deltas.flatMap (·.extent d b.wseqFirst i)

/-- A stripe lies in a band (R306). -/
def OpenBand.has (b : OpenBand) (wseq : Nat) : Bool := decide (b.wseqFirst ≤ wseq ∧ wseq < b.wseqFirst + b.count)

/-- The open band of a stripe. -/
def ASet.bandOf (a : ASet) (wseq : Nat) : Option OpenBand := a.bands.find? (·.has wseq)

/-- The extents that a commit of a stripe brings. -/
def ASet.extentsOf (a : ASet) (wseq : Nat) : List Extent :=
  match a.bandOf wseq with
  | none => []
  | some b => b.extents a.cfg (wseq - b.wseqFirst)

/-- The ranges in the body of a COMMIT or VOID record, or of a VOID descriptor (R316). -/
def rangesOf (body : List DWord) : List (Nat × Nat) := body.map fun w => (bitsOf w.toNat 39 0, bitsOf w.toNat 55 40)

/-- The stripes of ranges. -/
def wseqsOf (l : List (Nat × Nat)) : List Nat := l.flatMap fun r => (List.range r.2).map (r.1 + ·)

/-- The runs of increasing WSEQs, each at most 1 056 long (R316). -/
def runsOf : List Nat → List (Nat × Nat)
  | [] => []
  | w :: l =>
    match runsOf l with
    | (a, n) :: r => if a = w + 1 ∧ n < 1056 then (w, n + 1) :: r else (w, 1) :: (a, n) :: r
    | [] => [(w, 1)]

/-- The words of ranges (R316). -/
def rangeWords (l : List (Nat × Nat)) : List DWord := l.map fun r => BitVec.ofNat 64 (r.1 % 2 ^ 40 + r.2 * 2 ^ 40)

/-- A list in pieces of at most `n` elements; `fuel` pieces at most. -/
def piecesOf {α : Type} (n : Nat) : Nat → List α → List (List α)
  | 0, _ => []
  | fuel + 1, l => if l.length ≤ n then [l] else l.take n :: piecesOf n fuel (l.drop n)

/-! ### Room -/

/-- Records of 16 bytes that the map area holds (R301, R320). -/
def SetDef.mapRecords (d : SetDef) : Nat := d.mapSize * 256

/-- Stripes whose COMMIT record is written and not yet durable: their updates are prepared (R313). -/
def ASet.prepared (a : ASet) : List Nat := (a.queue.filter (·.type == 4)).flatMap fun r => wseqsOf (rangesOf r.body)

/-- The extent table once every prepared update is applied (R313). -/
def ASet.planned (a : ASet) : List Extent := mergeAll a.cfg a.extents (a.prepared.flatMap a.extentsOf)

/-- Records of the tables other than the extents. -/
def ASet.tableRecords (a : ASet) : Nat :=
  a.bandRecs.length + a.remapRecs.length + a.relocRecs.length + a.voidRecs.length

/-- Superseded extents go, lowest WSEQ first, `n` of them (R319). -/
def dropSuperseded : Nat → List Extent → List Extent
  | 0, es => es
  | n + 1, es =>
    match sortBy (fun (a b : Extent) => decide (a.wseq ≤ b.wseq)) (es.filter (·.superseded)) with
    | [] => es
    | e :: _ => dropSuperseded n (es.erase e)

/-- Room for a change after which the map would hold `want` records (R319): none where dropping every superseded extent
would not free enough; otherwise the set with as many dropped as it takes. -/
def ASet.makeRoom (a : ASet) (want : Nat) : Option ASet :=
  let excess := want - a.cfg.mapRecords
  if excess = 0 then some a
  else if (a.extents.filter (·.superseded)).length < excess then none
  else
    let es := dropSuperseded excess a.extents
    some { a with extents := es, dropped := a.dropped ++ (a.extents.filter fun e => !es.contains e) }

/-- Records of a change to the tables other than the extents. -/
def MapWait.records (m : MapWait) : Nat := m.bands.length + m.remaps.length + m.relocs.length + m.voids.length

/-- A change to the tables is made, where there is room for the whole of it (R319). -/
def ASet.change (a : ASet) (m : MapWait) : Option ASet :=
  let xs := m.commits.flatMap a.extentsOf
  (a.makeRoom ((mergeAll a.cfg a.planned xs).length + a.tableRecords + m.records)).map fun a => { a with
    bandRecs := a.bandRecs ++ m.bands, remapRecs := a.remapRecs ++ m.remaps
    relocRecs := a.relocRecs ++ m.relocs, voidRecs := a.voidRecs ++ m.voids
    extents := mergeAll a.cfg a.extents xs }

/-- Room is made for the update of a stripe that is to commit (R313, R319). -/
def ASet.prepare (a : ASet) (wseq : Nat) (others : List Nat) : Option ASet :=
  let es := mergeAll a.cfg a.planned ((others ++ [wseq]).flatMap a.extentsOf)
  if (a.extentsOf wseq).isEmpty then some a else a.makeRoom (es.length + a.tableRecords)

/-! ### Records of R320 -/

/-- A map record of 16 bytes, given as a number. -/
def bandRecord (b : BandRec) : Nat := 2 + b.wseqFirst * 2 ^ 8 + b.psa * 2 ^ 48 + b.mask * 2 ^ 88
/-- A REMAP record (R320). -/
def remapRecord (r : RemapRec) : Nat := 5 + r.member * 2 ^ 8 + r.wseqFirst * 2 ^ 16 + r.target * 2 ^ 56
/-- A RELOC record (R320). -/
def relocRecord (r : RelocRec) : Nat := 3 + r.member * 2 ^ 8 + r.old * 2 ^ 16 + r.new * 2 ^ 56
/-- A VOID record (R320). -/
def voidRecord (v : VoidRec) : Nat := 4 + v.wseq * 2 ^ 8 + v.count * 2 ^ 48
/-- An EXTENT record (R320). -/
def extentRecord (e : Extent) : Nat :=
  1 + e.lbn * 2 ^ 8 + e.count * 2 ^ 48 + e.wseq * 2 ^ 72 + e.member * 2 ^ 112 + e.slot * 2 ^ 120
    + flagNat e.superseded * 2 ^ 123

/-- The extents as of a WSEQ: the parts at or below it, with the versions among them (R321). -/
def ASet.extentsAsOf (a : ASet) (wseq : Nat) : List Extent :=
  let per := a.cfg.perStripe
  mergeAll a.cfg [] (a.extents.flatMap fun e =>
    let p := e.place a.cfg
    e.parts a.cfg 0 (min e.count ((wseq + 1) * per - p)) false)

/-- The records of a snapshot as of a WSEQ, in the order of R320 (R321). -/
def ASet.snapshot (a : ASet) (wseq : Nat) : List Nat :=
  let bands := sortBy (fun (x y : BandRec) => decide (x.wseqFirst ≤ y.wseqFirst))
    (a.bandRecs.filter fun b => decide (b.wseqFirst ≤ wseq))
  let later (psa : Nat) : Bool := a.bandRecs.any fun b =>
    decide (wseq < b.wseqFirst) && psaBand b.psa == psaBand psa && psaLayer b.psa == psaLayer psa
  bands.map bandRecord ++ ((a.remapRecs.filter fun r => decide (r.wseqFirst ≤ wseq)).map remapRecord)
    ++ ((a.relocRecs.filter fun r => !later r.old).map relocRecord)
    ++ ((a.voidRecs.filterMap fun v =>
      let n := min v.count (wseq + 1 - v.wseq)
      if n = 0 then none else some (voidRecord { v with count := n })))
    ++ (a.extentsAsOf wseq).map extentRecord

/-- The place of a record in the order of R320: the table, WSEQ_FIRST of a BAND or the first LBN of an EXTENT, and the
WSEQ of an EXTENT. -/
def recordRank (v : Nat) : Nat × Nat × Nat :=
  match v % 256 with
  | 2 => (0, bitsOf v 47 8, 0)
  | 5 => (1, 0, 0)
  | 3 => (2, 0, 0)
  | 4 => (3, 0, 0)
  | _ => (4, bitsOf v 47 8, bitsOf v 111 72)

/-- One rank does not come after another. -/
def rankLe (a b : Nat × Nat × Nat) : Bool :=
  decide (a.1 < b.1) || (a.1 == b.1 && (decide (a.2.1 < b.2.1) || (a.2.1 == b.2.1 && decide (a.2.2 ≤ b.2.2))))

/-- The records before an END record. -/
def beforeEnd (l : List Nat) : List Nat := l.takeWhile fun v => v % 256 != 0

/-- The ranks of records do not fall. -/
def inOrder : List Nat → Bool
  | [] => true
  | [_] => true
  | a :: b :: l => rankLe (recordRank a) (recordRank b) && inOrder (b :: l)

/-- MAP_REPLAY accepts the records (R321). -/
def recordsOk (l : List Nat) : Bool := l.all (fun v => decide (v % 256 ≤ 5)) && inOrder l

/-- The map loaded from records (R320, R321); nothing else of it is left. -/
def ASet.load (a : ASet) (l : List Nat) : ASet :=
  let of (ty : Nat) : List Nat := l.filter fun v => v % 256 == ty
  { a with
    bandRecs := (of 2).map fun v => {
      wseqFirst := bitsOf v 47 8, psa := bitsOf v 87 48, mask := bitsOf v 119 88 }
    remapRecs := (of 5).map fun v => { member := bitsOf v 15 8, wseqFirst := bitsOf v 55 16, target := bitsOf v 71 56 }
    relocRecs := (of 3).map fun v => { member := bitsOf v 15 8, old := bitsOf v 55 16, new := bitsOf v 95 56 }
    voidRecs := (of 4).map fun v => { wseq := bitsOf v 47 8, count := bitsOf v 63 48 }
    extents := (of 1).map fun v => { lbn := bitsOf v 47 8, count := bitsOf v 71 48, wseq := bitsOf v 111 72
                                     member := bitsOf v 119 112, slot := bitsOf v 122 120, superseded := bitOf v 123 }
    dropped := [], waits := a.waits.filter (!·.loads) }

end Sys2Proof.Machine
end

