-- ==== Sys2Proof/Machine/WarpOps.lean ====
section
/-! DEFINITION. The Warp's links, the path of a packet (R22, R23, R27), and its flits in the queues and buffers of the links
(R21, R24 to R26). -/

namespace Sys2Proof.Machine

/-- The link by which tile `a` reaches its neighbour `b`. -/
def warpLinkTo (a b : Fin 8) : Option (Fin 3) := [0, 1, 2].find? fun k => warpFar a k = b

/-- Added latency of a link, ns (R21). -/
def warpCost (k : Fin 3) : Nat := if k = 2 then 12 else 8

/-- The shorter ring direction inside a wing; with both two hops, towards the higher tile number modulo the wing
(R23 step 1). -/
def ringPath (a b : Fin 8) : List (Fin 8) :=
  let d := (b.val % 4 + 4 - a.val % 4) % 4
  if d = 0 then [] else if d = 3 then [warpFar a 1] else if d = 1 then [warpFar a 0]
  else [warpFar a 0, warpFar (warpFar a 0) 0]

/-- The path of R23 steps 1 and 2, whatever the state of its links. -/
def plainPath (a b : Fin 8) : List (Fin 8) :=
  if a.val / 4 = b.val / 4 then ringPath a b else warpFar a 2 :: ringPath (warpFar a 2) b

/-- Every link of a path works. -/
def State.pathUp (s : State) : Fin 8 → List (Fin 8) → Bool
  | _, [] => true
  | a, b :: l => (match warpLinkTo a b with | some k => s.linkUp a k | none => false) && s.pathUp b l

/-- Every simple path over working links from `a` to `b`, by tiles after `a`, with its latency. -/
def State.paths (s : State) (b : Fin 8) : Nat → Fin 8 → List (Fin 8) → List (List (Fin 8) × Nat)
  | 0, _, _ => []
  | n + 1, a, seen =>
    if a = b then [([], 0)]
    else [0, 1, 2].flatMap fun (k : Fin 3) =>
      let c := warpFar a k
      if s.linkUp a k && !seen.contains c then
        (s.paths b n c (c :: seen)).map fun p => (c :: p.1, p.2 + warpCost k)
      else []

/-- Path `p` is taken before `q`: shorter, or at the first tile where they part by the higher-numbered tile (R23 step
3). -/
def pathBefore : List (Fin 8) × Nat → List (Fin 8) × Nat → Bool
  | (p, n), (q, m) => if n ≠ m then decide (n < m) else go p q
where
  /-- The first differing tile decides. -/
  go : List (Fin 8) → List (Fin 8) → Bool
    | x :: p, y :: q => if x = y then go p q else decide (y < x)
    | _, _ => false

/-- The path a packet takes from `a` to `b`, and whether step 3 of R23 chose it; none for a route failure (R27). -/
def State.route (s : State) (a b : Fin 8) : Option (List (Fin 8) × Bool) :=
  let p := plainPath a b
  if s.pathUp a p then some (p, false)
  else
    match s.paths b 8 a [a] with
    | [] => none
    | q :: l => some ((l.foldl (fun x y => if pathBefore y x then y else x) q).1, true)

/-- Some link of a path is down, and not merely absent because one of its ends lies on a tile that is not enabled (R23,
R504). -/
def State.pathDown (s : State) : Fin 8 → List (Fin 8) → Bool
  | _, [] => false
  | a, b :: l =>
    (match warpLinkTo a b with
      | some k => s.tileEnabled a && s.tileEnabled b && !s.linkUp a k
      | none => false) || s.pathDown b l

/-- The hops of a path: ring hops and bridge hops. -/
def hops : Fin 8 → List (Fin 8) → Nat × Nat
  | _, [] => (0, 0)
  | a, b :: l =>
    let (r, g) := hops b l
    if a.val / 4 = b.val / 4 then (r + 1, g) else (r, g + 1)

/-- Tile `a` reaches tile `b`. -/
def State.reaches (s : State) (a b : Fin 8) : Bool := (s.route a b).isSome

/-! ### Flits -/

/-- Time-base and lease flits go on V0, register accesses and command descriptors on V1, data requests on V2, data responses
and posted data writes on V3 (R25). -/
abbrev vcTime : Fin 4 := 0
/-- V1 (R25). -/
abbrev vcCommand : Fin 4 := 1
/-- V2 (R25). -/
abbrev vcRequest : Fin 4 := 2
/-- V3 (R25). -/
abbrev vcData : Fin 4 := 3

/-- A link of a tile is changed. -/
def State.onLink (s : State) (t : Fin 8) (k : Fin 3) (f : WarpLink → WarpLink) : State :=
  s.onTile t fun x => { x with links := x.links.set k (f x.links[k]) }

/-- The flits of channel `v` that take up the receiver's buffer at the far end of link `k` of tile `t`: those that wait in
that tile to go on, and those sent and not acknowledged (R26). -/
def State.creditsUsed (s : State) (t : Fin 8) (k : Fin 3) (v : Fin 4) : Nat :=
  let mine (f : Flit) : Bool := f.vc == v && f.came == some (warpBack k)
  ((s.tile (warpFar t k)).links.toList.map fun l => l.queue.countP mine).sum
    + (s.tile t).links[k].replay.countP (·.vc == v)

/-- A flit of channel `v` may leave by link `k`: one of the channel's own 4 credits is left, or one of the 240 shared
(R26). -/
def State.hasCredit (s : State) (t : Fin 8) (k : Fin 3) (v : Fin 4) : Bool :=
  decide (s.creditsUsed t k v < 4)
    || decide ((([0, 1, 2, 3] : List (Fin 4)).map fun u => s.creditsUsed t k u - 4).sum < 240)

/-- The order in which the channels are served: V0 before all, and V1 to V3 in turn after the one served last (R25). -/
def serveOrder (served : Fin 4) : List (Fin 4) :=
  if served = 1 then [0, 2, 3, 1] else if served = 2 then [0, 3, 1, 2] else [0, 1, 2, 3]

/-- The flit that leaves next by link `k`: the oldest of the first channel in turn that has one and a credit for it
(R25, R26). -/
def State.nextFlit (s : State) (t : Fin 8) (k : Fin 3) : Option Flit :=
  let l := (s.tile t).links[k]
  (serveOrder l.served).findSome? fun v => if s.hasCredit t k v then l.queue.find? (·.vc == v) else none

/-- The next flit leaves by link `k` and stands in the replay buffer until it is acknowledged (R21). -/
def State.launch (t : Fin 8) (k : Fin 3) (s : State) : State :=
  match s.nextFlit t k with
  | none => s
  | some f => s.onLink t k fun l => { l with
      queue := l.queue.erase f, replay := l.replay ++ [f], served := if f.vc = 0 then l.served else f.vc }

/-- The first link of the path that a packet from `a` to `b` would take if every link worked counts its route failure
(R27, R504). -/
def State.routeFails (a b : Fin 8) (s : State) : State :=
  match (plainPath a b).head?.bind (warpLinkTo a) with
  | some k => s.onTile a (·.bump (LinkReg.ROUTE_FAIL k) 1)
  | none => s

/-- The path that a flit takes on from tile `t`: the rest of its own while the next link of it works, and the path of R23 from
there where that link is down. -/
def State.flitPath (s : State) (t : Fin 8) (f : Flit) : Option (List (Fin 8)) :=
  match f.path with
  | a :: _ => if s.pathUp t [a] then some f.path else (s.route t f.dst).map (·.1)
  | [] => (s.route t f.dst).map (·.1)

/-- A flit joins the queue of the link by which its path leaves tile `t`, as the newest or, where `first`, as the oldest;
without a path it completes with a route failure (R23, R24, R27). -/
def State.forward (t : Fin 8) (first : Bool) (f : Flit) (s : State) : State :=
  match s.flitPath t f with
  | some (a :: p) =>
    match warpLinkTo t a with
    | some k => s.onLink t k fun l =>
        let f := { f with path := a :: p }
        { l with queue := if first then f :: l.queue else l.queue ++ [f] }
    | none => s.routeFails f.src f.dst
  | _ => s.routeFails f.src f.dst

/-- A flit of the same source, destination and channel that was sent before `f` has not reached its destination yet
(R24). -/
def State.earlierOut (s : State) (f : Flit) : Bool :=
  allTiles.any fun t => (s.tile t).links.toList.any fun l => (l.queue ++ l.replay).any fun g =>
    g.src == f.src && g.dst == f.dst && g.vc == f.vc && decide (g.num < f.num)

/-- The flits that have reached tile `t` are delivered, but for those that an earlier one must come before (R24). -/
def State.deliverFlits (t : Fin 8) (s : State) : State :=
  s.onTile t fun x => { x with flitsHeld := x.flitsHeld.filter fun f => s.earlierOut f }

/-- A flit received with a good CRC by link `k` of tile `t` is acknowledged, and has reached its tile or goes on (R21,
R24). -/
def State.takeIn (t : Fin 8) (k : Fin 3) (f : Flit) (s : State) : State :=
  let s := s.onLink (warpFar t k) (warpBack k) fun l => { l with replay := l.replay.tail }
  if f.dst = t then (s.onTile t fun x => { x with flitsHeld := x.flitsHeld ++ [f] }).deliverFlits t
  else s.forward t false { f with came := some k, path := f.path.tail }

/-- The flits of a link that has gone down take their new routes: the unacknowledged ones of the replay buffer first, and
the queued ones after them (R24). -/
def State.reroute (t : Fin 8) (l : WarpLink) (s : State) : State :=
  let s := l.queue.foldl (fun s f => s.forward t false f) s
  l.replay.reverse.foldl (fun s f => s.forward t true f) s

/-- The `n` flits of a packet from `a` to `b` by path `p` join the queue of its first link (R23 to R25). -/
def State.queueFlits (a b : Fin 8) (v : Fin 4) (k : Fin 3) (p : List (Fin 8)) (n : Nat) (s : State) : State :=
  let m := (s.tile a).flitCount
  (s.onLink a k fun l => { l with queue := l.queue ++ (List.range n).map fun i =>
    { src := a, dst := b, vc := v, num := m + i, came := none, path := p } }).onTile a fun x => { x with flitCount := m + n }

/-- A packet of `n` flits is sent on channel `v` from `a` to `b`: it is counted in REROUTED of its source's first link when
step 3 of R23 led it round a link that is down, and in ROUTE_FAIL when it fails on its route (R23, R27, R504). What it does
at `b` stands with the command that sends it (DESIGN CHOICE, log entry 122). -/
def State.sendPacket (s : State) (a b : Fin 8) (v : Fin 4) (n : Nat) : State :=
  if a = b then s
  else
    match s.route a b with
    | none => s.routeFails a b
    | some (p, moved) =>
      match p.head?.bind (warpLinkTo a) with
      | none => s
      | some k =>
        let s := if moved && s.pathDown a (plainPath a b) then s.onTile a (·.bump (LinkReg.REROUTED k) 1) else s
        s.queueFlits a b v k p n

/-- `n` flits of data are asked for by `a` and sent by `b` (R25); a request that fails on its route has no answer (R27). -/
def State.askData (s : State) (a b : Fin 8) (n : Nat) : State :=
  let s := s.sendPacket a b vcRequest 1
  if s.reaches a b then s.sendPacket b a vcData n else s

end Sys2Proof.Machine
end

