-- ==== Sys2Proof/Machine/Channel.lean ====
section
/-! DEFINITION. The signal path of a beam channel as a function of its samples (R118 to R139): corrections, timing
recovery, equaliser, detector, defect detector and framing, for the live stream and for a replay alike; and the LDPC
decoder (R143). -/

namespace Sys2Proof.Machine

/-! ### Table entries -/

/-- Z_GAIN of a channel table entry (R120). -/
def entryGain (e : Nat) : Int := bitsOf e 15 0
/-- Z_OFF (R120). -/
def entryOff (e : Nat) : Int := signedOf 12 (bitsOf e 27 16)
/-- Z_ASYM (R120). -/
def entryAsym (e : Nat) : Int := signedOf 8 (bitsOf e 35 28)
/-- TAP[n] (R120). -/
def entryTap (e n : Nat) : Int := signedOf 12 (bitsOf e (36 + 12 * n + 11) (36 + 12 * n))
/-- G[m] (R120). -/
def entryTarget4 (e m : Nat) : Int := signedOf 6 (bitsOf e (216 + 6 * m + 5) (216 + 6 * m))
/-- EREF (R120). -/
def entryEref (e : Nat) : Nat := bitsOf e 251 240

/-- The region index of a channel table (R119): 16 for system bands and for PCA units, whose K is 216 too. -/
def regionIndex (region zone : Nat) : Nat := if region = 1 ∨ region = 2 then 16 else zone

/-! ### Corrections -/

/-- sat12 of R122. -/
def sat12 (v : Int) : Int := clampInt (-2048) 2047 v

/-- The number of values that sat12 changes. -/
def satCount (l : List Int) : Nat := (l.filter fun v => sat12 v != v).length

/-- A raw sample under the sampler correction and the zone correction (R122, R123): w, and the saturations. -/
def correctSample (entry : Nat) (gain off x : Int) : Int × Nat :=
  let u' := ((32 * x - off) * gain) / 4096
  let u := sat12 u'
  let v' := ((u - entryOff entry) * entryGain entry) / 4096
  let v := sat12 v'
  let w' := v + (entryAsym entry * (v * v / 2048)) / 256
  (sat12 w', satCount [u', v', w'])

/-! ### Bit periods -/

/-- What a bit period of a gate is (R126): a frame bit, a period of a servo field, or a resume bit. -/
inductive Period where
  | data (x : Nat)
  | servo
  | resume (i : Nat)
deriving DecidableEq, Repr

/-- K of a gate (R97, R119). -/
def Gate.k (g : Gate) : Nat := if g.region = 1 ∨ g.region = 2 then 216 else zoneK g.zone

/-- Bit period `p` from the gate open of frame `s` (R102, R126). A PCA unit starts with its resume field and has no gap
(R116, R179). -/
def periodAt (region k strength s p : Nat) : Period :=
  if region = 2 then (if p < 64 then .resume p else .data (p - 64))
  else
    let per := 63 * k - 64
    let u := s * frameLength strength % per
    let c := (u + p) % (64 * k)
    if c < per then .data ((u + p) / (64 * k) * per + c - u)
    else if c < per + k then .servo
    else .resume (c - per - k)

/-- The bit period that comes next. -/
def Gate.period (g : Gate) : Period := periodAt g.region g.k g.strength g.sector g.periods

/-! ### The detector -/

/-- The divisor 2 Σ|G| of R129, at least 1. -/
def targetDen (entry : Nat) : Nat :=
  max 1 (2 * (List.range 4).foldl (fun s m => s + (entryTarget4 entry m).natAbs) 0)

/-- The expected y after channel bits `bits` (bit m is a_{k-m}, 1 a mark), in units of 1 / (2 Σ|G|) (R129). -/
def targetY (entry bits : Nat) : Int :=
  if (List.range 4).all fun m => entryTarget4 entry m == 0 then Config.noTarget bits
  else (entryEref entry : Int)
    * (List.range 4).foldl (fun s m => s + (if bits.testBit m then entryTarget4 entry m else - entryTarget4 entry m)) 0

/-- The cost of channel bits `bits` under `y`: the square of its distance from the expected value (R129). -/
def branchCost (entry : Nat) (y : Int) (bits : Nat) : Int :=
  let d := (targetDen entry : Int) * y - targetY entry bits
  d * d

/-- The smaller of two numbers with what belongs to it; the first on a tie. -/
def lesser {α : Type} (a b : Int × α) : Int × α := if a.1 ≤ b.1 then a else b

/-- One forward step of the max-log-MAP recursion over the eight states (R129). State S holds the last three bits, the
newest lowest; metrics are costs, counted from the smallest. With them go the survivors' last eighteen bits. -/
def forwardStep (entry : Nat) (y : Int) (m : List Int × List Nat) : List Int × List Nat :=
  let next := (List.range 8).map fun s =>
    let from' (p : Nat) : Int × Nat :=
      (m.1.getD p 0 + branchCost entry y (s % 2 + 2 * p), (m.2.getD p 0 * 2 + s % 2) % 2 ^ 18)
    lesser (from' (s / 2)) (from' (s / 2 + 4))
  let low := (next.map (·.1)).foldl min ((next.headD (0, 0)).1)
  (next.map fun e => e.1 - low, next.map (·.2))

/-- The backward metrics before the values `ys`, in order, of which the last closes the window (R129). -/
def backward (entry : Nat) (ys : List Int) : List Int :=
  ys.foldr (fun y b => (List.range 8).map fun s =>
    min (branchCost entry y (2 * s) + b.getD (2 * s % 8) 0) (branchCost entry y (1 + 2 * s) + b.getD ((1 + 2 * s) % 8) 0))
    (List.replicate 8 0)

/-- The detector's output for a bit with value `y` between forward metrics and the later values of its window (R129): the
difference of the best paths with a mark and with a space there, and its sign. -/
def detect (entry : Nat) (alpha : List Int) (y : Int) (later : List Int) : Soft :=
  let b := backward entry later
  let best (a : Nat) : Int :=
    let l := (List.range 8).map fun s => alpha.getD s 0 + branchCost entry y (a + 2 * s) + b.getD ((a + 2 * s) % 8) 0
    l.foldl min (l.headD 0)
  let d := best 1 - best 0
  let size := min 31 (Config.llrSize entry d.natAbs)
  { llr := if d = 0 then 0 else if d < 0 then -(size : Int) else size
    hard := if d = 0 then none else some (decide (d < 0)) }

/-- The detector decides the bit that lies `i` places back in the stream (R129): it works in windows of 64 bits and looks
96 bits ahead of a window's start, or to the last bit before a gap. -/
def Gate.emit (entry i : Nat) (g : Gate) : Gate :=
  match g.bits[i]? with
  | none => g
  | some b =>
    if b.soft.isSome then g
    else
      let last := min (64 * (b.place / 64) + 95) (b.place + i)
      let later := (List.range (last - b.place)).filterMap fun k => (g.bits[i - 1 - k]?).map (·.y)
      { g with
        bits := g.bits.set i { b with soft := some (detect entry b.alpha b.y later) }
        decided := g.decided + flagNat b.frame }

/-- A gap or the close is reached: what the detector still holds comes out (R126, R129). -/
def Gate.flush (entry : Nat) (g : Gate) : Gate :=
  ((List.range (min g.place 96)).reverse).foldl (fun g i => g.emit entry i) g

/-- A bit joins the detector's stream (R129), with the decision that falls due. -/
def Gate.join (entry : Nat) (bit : ChanBit) (g : Gate) : Gate :=
  let m := forwardStep entry bit.y (if g.place = 0 then (List.replicate 8 0, List.replicate 8 0) else (g.alpha, g.paths))
  let alpha := if g.place = 0 then List.replicate 8 0 else g.alpha
  let g : Gate := { g with
    bits := { bit with place := g.place, alpha := alpha } :: g.bits
    formed := g.formed + flagNat bit.frame, place := g.place + 1, alpha := m.1, paths := m.2 }
  g.emit entry 96

/-- The tentative decisions of the bits 16 and 17 back, of the best survivor: the newer one first (R124). -/
def Gate.tentative (g : Gate) : Bool × Bool :=
  let best := ((g.alpha.zip g.paths).foldl (fun (b : Option (Int × Nat)) e => match b with
    | none => some e
    | some c => some (lesser c e)) none).getD (0, 0)
  (best.2.testBit 16, best.2.testBit 17)

/-- The decisions on the frame bits formed, in order; an erased bit and one not yet decided have none (R127, R131). -/
def Gate.softs (g : Gate) : Array Soft :=
  ((g.bits.filter (·.frame)).reverse.map fun b => if b.hole ∨ b.dead then .reset else b.soft.getD .reset).toArray

/-! ### Framing -/

/-- The decision on frame bit `x`; a bit that was not formed is erased. -/
def softAt (a : Array Soft) (x : Int) : Soft := if 0 ≤ x then a.getD x.toNat .reset else .reset

/-- Hard decisions that differ from a pattern of `len` bits at frame bit `x` (R135). -/
def patternDistance (a : Array Soft) (x : Int) (len : Nat) (pat : Nat → Bool) : Nat :=
  ((List.range len).filter fun (i : Nat) => (softAt a (x + i)).hard != some (pat i)).length

/-- The choice of a resync mark around frame bit `x` (R136): the smallest distance, then the smallest shift, then the
negative one. -/
def findResync (a : Array Soft) (par : ChanPar) (x : Int) (tol : Nat) : Option Int :=
  let shifts : List Int := 0 :: (List.range tol).flatMap fun k => [-((k : Int) + 1), (k : Int) + 1]
  let hits := (shifts.map fun d => (patternDistance a (x + d) 32 resyncBit, d)).filter
    fun h => decide (h.1 ≤ min 8 par.resyncThr)
  (hits.foldl (fun (b : Option (Nat × Int)) h => match b with
    | none => some h
    | some c => if h.1 < c.1 then some h else b) none).map (·.2)

/-- Place of resync mark `j` for a given D0 (R136). -/
def markPlace (d0 : Int) (j : Nat) : Int := d0 + 8192 * (j : Int) + 32 * ((j : Int) - 1)

/-- D0 as the last mark left it (R136). -/
def Framing.d0 (f : Framing) : Int := f.d0s.getLastD 0

/-- The frame is anchored by the sync mark at frame bit `p` (R135). -/
def Framing.synced (code : Nat) (p : Int) : Framing :=
  { Framing.reset with code := code, syncPos := p - 384, d0s := [p + 64], found := [0], phase := 1 }

/-- The sync search is given up (R137). -/
def Framing.unsynced : Framing := { Framing.reset with phase := 2 }

/-- The sync search examines its next position (R135), once the bits it needs are decided, or at the frame's `final`
end. -/
def Framing.syncStep (a : Array Soft) (decided : Nat) (final : Bool) (par : ChanPar) (f : Framing) : Option Framing :=
  let p := max f.look (384 - par.syncTol)
  if 384 + par.syncTol < p then some .unsynced
  else if final || decide (p + 64 ≤ decided) then
    let d := patternDistance a (p : Nat) 64 syncBit
    some (if d ≤ par.syncThr then .synced (if d = 0 then 0 else 1) p else { f with look := p + 1 })
  else none

/-- A framed track evaluates its next resync mark (R136). -/
def Framing.resyncStep (a : Array Soft) (decided : Nat) (final : Bool) (par : ChanPar) (f : Framing) : Option Framing :=
  let x := markPlace f.d0 f.mark
  if final || decide (x + par.resyncTol + 32 ≤ decided) then
    some (match findResync a par x par.resyncTol with
      | none => { f with d0s := f.d0s ++ [f.d0], misses := f.misses ++ [f.mark], mark := f.mark + 1 }
      | some d => { f with
          d0s := f.d0s ++ [f.d0 + d], slips := if d = 0 then f.slips else f.slips ++ [f.mark]
          found := f.mark :: f.found, mark := f.mark + 1 })
  else none

/-- The centre of an unframed track's search for resync mark `j` (R137). -/
def searchCentre (expects : List (Nat × Nat)) (j : Nat) : Int :=
  match expects.find? (·.1 == j) with
  | some e => (e.2 : Int)
  | none => markPlace 448 j

/-- An unframed track searches for its next resync mark (R137). -/
def Framing.wideStep (a : Array Soft) (decided : Nat) (final : Bool) (par : ChanPar) (expects : List (Nat × Nat))
    (f : Framing) : Option Framing :=
  let c := searchCentre expects f.mark
  if final || decide (c + par.resyncWide + 32 ≤ decided) then
    some (match findResync a par c par.resyncWide with
      | none => { f with mark := f.mark + 1 }
      | some d => { f with
          code := 2, framedAt := f.mark, found := f.mark :: f.found, phase := 1, mark := f.mark + 1
          d0s := List.replicate (f.mark + 1) (c + d - 8192 * (f.mark : Int) - 32 * ((f.mark : Int) - 1)) })
  else none

/-- The next search of the framing, where its bits are there (R135 to R137); none where nothing is due. -/
def Framing.next (a : Array Soft) (decided : Nat) (final : Bool) (par : ChanPar) (strength : Nat)
    (expects : List (Nat × Nat)) (f : Framing) : Option Framing :=
  if f.phase = 0 then f.syncStep a decided final par
  else if resyncs strength < f.mark then none
  else if f.phase = 1 then f.resyncStep a decided final par
  else f.wideStep a decided final par expects

/-- The searches that are due, `fuel` at most: a frame has at most 128 positions of its sync mark and 41 resync marks. -/
def Framing.run (a : Array Soft) (decided : Nat) (final : Bool) (par : ChanPar) (strength : Nat)
    (expects : List (Nat × Nat)) : Nat → Framing → Framing
  | 0, f => f
  | fuel + 1, f =>
    match f.next a decided final par strength expects with
    | none => f
    | some f => Framing.run a decided final par strength expects fuel f

/-- Searches of one frame at most. -/
def searchesMax : Nat := 256

/-- The LLRs of the data channel bits under a framing (R103, R136, R137); a segment in `dropped` is erased. -/
def dataLlrs (a : Array Soft) (strength : Nat) (f : Framing) (dropped : List Nat) : List Int :=
  (List.range (modulatedBits strength)).map fun d =>
    let seg := min (d / 8192) (resyncs strength)
    match f.d0s[seg]? with
    | none => 0
    | some d0 => if seg < f.framedAt ∨ dropped.contains (seg + 1) then 0 else (softAt a (d0 + (d + 32 * seg : Nat))).llr

/-! ### One bit -/

/-- What a bit needs beside the gate: its table entry, the parameters, and whether defect flags are ignored (R154). -/
structure ChanEnv where
  entry : Nat
  par : ChanPar
  skew : Int
  noDefect : Bool
deriving DecidableEq, Repr

/-- The smallest and the largest of a list; 0 and 0 of the empty one. -/
def extremes : List Int → Int × Int
  | [] => (0, 0)
  | a :: l => l.foldl (fun r v => (min r.1 v, max r.2 v)) (a, a)

/-- E_k: the peak-to-peak of the last 32 y values (R131). -/
def envelope (ys : List Int) : Int := let e := extremes (ys.take 32); e.2 - e.1

/-- T_k: the absolute sum of the last 16 timing errors (R131), read as the sum of their absolute values (DESIGN CHOICE,
log entry 40: the rule's words fit the absolute value of the sum too). -/
def timingSum (es : List Int) : Nat := (es.take 16).foldl (fun a e => a + e.natAbs) 0

/-- A bit is flagged (R131). -/
def Gate.flags (env : ChanEnv) (g : Gate) : Bool :=
  let e := 16 * envelope g.ys
  let r := (entryEref env.entry : Int)
  decide (e < env.par.envLo * r) || decide (env.par.envHi * r < e) || decide (env.par.teThr < timingSum g.es)

/-- The defect detector watches a bit (R131): data segments and marks of a frame, or the pattern of a PCA unit. -/
def Gate.watched (g : Gate) (p : Period) : Bool :=
  match p with
  | .data x => if g.region = 2 then true else decide (384 ≤ x ∧ x + 32 < frameLength g.strength)
  | _ => false

/-- y of a bit with z value `z` (R128), and whether it saturated. -/
def Gate.equalise (env : ChanEnv) (z : Int) (g : Gate) : Int × Bool :=
  let zs := z :: g.zs
  let v := ((List.range 15).foldl (fun a n => a + entryTap env.entry n * (zs[n]?).getD (Config.priorZ (n - zs.length))) 0) / 1024
  (sat12 v, sat12 v != v)

/-- How a bit period updates the timing loop (R125 to R127, R131). -/
inductive Timing where
  | fixed
  | held
  | aided
  | directed
deriving DecidableEq, Repr

/-- A defect run or its extension is in progress at the bit just formed (R131). -/
def Gate.inRun (g : Gate) : Bool := g.bits.head?.any (·.dead)

/-- The update of a bit period (R125 to R127, R131): `run` says that a defect run is in progress. After a gap the tracking
is decision-directed, whatever is left of the acquisition (R126). -/
def Gate.timing (env : ChanEnv) (p : Period) (hole run : Bool) (g : Gate) : Timing :=
  match p with
  | .servo => .held
  | .resume i => if i < 16 ∨ hole then .held else .aided
  | .data _ =>
    if hole ∨ run then .held
    else if g.region = 2 ∨ g.resumed then .directed
    else if g.periods < 64 then .fixed
    else if g.periods < 64 + env.par.acqLen then .aided
    else .directed

/-- The bit of the preamble pattern that a period carries (R102, R104), with the one before it. -/
def knownBits (p : Period) : Bool × Bool :=
  let i := match p with | .data x => x | .resume i => i | .servo => 0
  (preambleBit i, preambleBit (i + 3))

/-- A channel bit as the detector counts it: +1 is a mark (R129). -/
def levelOf (b : Bool) : Int := if b then 1 else -1

/-- The timing error of the bit just formed (R124): the Mueller-Müller product of y and known or tentative bits, the latter
16 bits back; none where the values before it lie across a gap. -/
def Gate.timingError (t : Timing) (p : Period) (g : Gate) : Option Int :=
  let at' (i : Nat) : Int := (g.ys[i]?).getD 0
  match t with
  | .aided =>
    let (a, b) := knownBits p
    if g.place < 2 then none else some (Config.timingScale (at' 0 * levelOf b - at' 1 * levelOf a))
  | _ =>
    let (a, b) := g.tentative
    if g.place < 18 then none else some (Config.timingScale (at' 16 * levelOf b - at' 17 * levelOf a))

/-- The timing loop moves on by one bit (R124): F is limited, and τ advances. The limit FL is rounded down, and a
zero-phase start whose bit period 63 is held is made at the first bit after it that is not (DESIGN CHOICE, log entry 40:
neither rule says so). -/
def Gate.advanceTau (env : ChanEnv) (t : Timing) (e : Option Int) (g : Gate) : Gate :=
  let lim := g.incNom * env.par.freqLim / 4096
  let loop (kp ki : Nat) : Gate :=
    let e := e.getD 0
    let f' := g.freq + e / 2 ^ ki
    let f := clampInt (-lim) lim f'
    { g with freq := f, tau := g.tau + g.incNom + f + e / 2 ^ kp, limits := g.limits + flagNat (f != f') }
  if t ≠ .held ∧ 63 ≤ g.periods ∧ ¬ g.phased ∧ g.region ≠ 2 then
    { g with tau := g.tau + g.incNom + Config.zeroPhase g.incNom g.acq.reverse, freq := 0, phased := true }
  else match t with
    | .fixed => { g with tau := g.tau + g.incNom }
    | .held => { g with tau := g.tau + g.incNom + g.freq }
    | .aided => if e.isNone then { g with tau := g.tau + g.incNom + g.freq } else loop env.par.kpA env.par.kiA
    | .directed => if e.isNone then { g with tau := g.tau + g.incNom + g.freq } else loop env.par.kpT env.par.kiT

/-- The frame bits among the `n` last of the stream are erased (R131). -/
def markDead : Nat → List ChanBit → List ChanBit
  | 0, l => l
  | _ + 1, [] => []
  | n + 1, b :: l => if b.frame then { b with dead := true } :: markDead n l else b :: markDead (n + 1) l

/-- The defect detector takes the bit just formed (R131): a run of DEF_MIN flagged bits erases itself and EXT bits before
it, and goes on to EXT bits after its end. -/
def Gate.defect (env : ChanEnv) (flagged : Bool) (g : Gate) : Gate :=
  let n := if flagged then g.flagRun + 1 else 0
  let least := max 1 env.par.defMin
  let g : Gate := { g with flagRun := n, defects := g.defects || decide (least ≤ n) }
  if env.noDefect then g
  else if least ≤ n then
    let new := (g.formed - n, g.formed - 1)
    let runs := match g.runs with
      | r :: l => if r.2 + 2 = g.formed then (r.1, g.formed - 1) :: l else new :: r :: l
      | [] => [new]
    let known := match g.runs with | r :: _ => decide (r.2 + 2 = g.formed) | [] => false
    { g with bits := markDead (if known then 1 else n + env.par.ext) g.bits, deadFor := env.par.ext, runs := runs }
  else if 0 < g.deadFor then { g with bits := markDead 1 g.bits, deadFor := g.deadFor - 1 }
  else g

/-- A track whose every input sample was erased, that is not enabled, or that is blank (R133, R139). -/
def Gate.deadCode (par : ChanPar) (g : Gate) : Option Nat :=
  if g.erase ∨ ¬ g.anySample then some 5
  else if g.blank ∧ 63 + par.acqLen < g.periods then some 4
  else none

/-- The searches that are due in an open frame are made (R135 to R137); a PCA unit has none, nor has a blank or an
erased track. -/
def Gate.search (env : ChanEnv) (final : Bool) (g : Gate) : Gate :=
  if g.region = 2 ∨ (g.deadCode env.par).isSome then g
  else { g with framing := g.framing.run g.softs g.decided final env.par g.strength g.expects.reverse searchesMax }

/-- A bit that the equaliser takes is formed from its z value (R128 to R133): detector, timing error, defect detector and
blank test. -/
def Gate.takeBit (env : ChanEnv) (p : Period) (hole : Bool) (z : Int) (g : Gate) : Gate :=
  let y := g.equalise env z
  let g : Gate := { g with zs := (z :: g.zs).take 15, ys := (y.1 :: g.ys).take 96, sats := g.sats + flagNat y.2 }
  let frame := match p with
    | .data x => decide (g.region = 2 ∨ x < frameLength g.strength)
    | .resume _ => g.region == 2
    | .servo => false
  let g := g.join env.entry { ChanBit.reset with y := y.1, hole := hole, frame := frame }
  let counted := frame || (match p with | .resume _ => true | _ => false)
  let g : Gate := { g with erased := g.erased + flagNat (hole && counted) }
  let e := g.timingError (g.timing env p false false) p
  let g : Gate := match e with
    | some e => { g with es := (e :: g.es).take 16 }
    | none => g
  let flagged := g.watched p && g.flags env
  let g : Gate := if g.watched p then ({ g with bits := g.bits.modify 0 fun b => { b with flagged := flagged } } : Gate).defect env flagged
    else g
  let loud := decide ((env.par.blankLvl : Int) * entryEref env.entry ≤ 16 * envelope g.ys)
  let g : Gate := if 32 ≤ g.periods ∧ g.periods ≤ 63 + env.par.acqLen ∧ loud then { g with blank := false } else g
  let g : Gate := match p with
    | .data x => if g.region = 2 ∧ x % 32 = 31 then { g with units := envelope g.ys :: g.units } else g
    | _ => g
  g.advanceTau env (g.timing env p hole g.inRun) e

/-- One bit period is formed from its window of eight samples, oldest first (R124 to R133). In a gap the detector's stream
ends (R126). -/
def Gate.formBit (env : ChanEnv) (win : List (Int × Bool)) (phase : Nat) (g : Gate) : Gate :=
  let p := g.period
  let hole := win.any (·.2)
  let gap := match p with | .servo => true | .resume i => decide (i < 16) && g.region != 2 | .data _ => false
  let g : Gate := if gap then
      { (g.flush env.entry).advanceTau env .held none with place := 0, resumed := true, phased := true }
    else g.takeBit env p hole (Config.interpolate phase (win.map (·.1)))
  ({ g with periods := g.periods + 1, sumInc := g.sumInc + g.incNom + g.freq } : Gate).search env false

/-- The eight samples around an instant whose integer part is `m`, oldest first, once sample `n` is the newest of
`ws`. -/
def windowAround (ws : List (Int × Bool)) (n m : Int) : List (Int × Bool) :=
  let d := (n - m - 4).toNat
  ((List.range 8).map fun i => (ws[d + i]?).getD (Config.erasedSample i, true)).reverse

/-- The bits whose window sample `n` completes are formed (R124, R126). -/
def Gate.formBits (env : ChanEnv) (ws : List (Int × Bool)) (n : Int) : Nat → Gate → Gate
  | 0, g => g
  | fuel + 1, g =>
    let at' := g.tau - env.skew * 2 ^ 12
    let m := at' / 2 ^ 24
    if m + 4 ≤ n then
      Gate.formBits env ws n fuel (g.formBit env (windowAround ws n m) ((at' % 2 ^ 24) / 2 ^ 18).toNat)
    else g

/-- Sample `n` of the stream has joined `ws` (newest first). -/
def Gate.sample (env : ChanEnv) (ws : List (Int × Bool)) (n : Int) (g : Gate) : Gate :=
  let new := ws.headD (0, true)
  let g : Gate := if new.2 then g else { g with anySample := true }
  let after := n * 2 ^ 24 + env.skew * 2 ^ 12 - (g.te * 10 * 2 ^ 18 + 32 * g.incNom)
  let g : Gate := if ¬ new.2 ∧ 0 ≤ after ∧ after < 32 * g.incNom then { g with acq := (after, new.1) :: g.acq } else g
  let g : Gate := if g.region = 2 ∧ 64 ≤ g.periods ∧ ¬ new.2 then
      let k := (g.periods - 64) / 32
      match g.wins with
      | (j, hi, lo) :: l =>
        if j = k then { g with wins := (k, max hi new.1, min lo new.1) :: l }
        else { g with wins := (k, new.1, new.1) :: g.wins }
      | [] => { g with wins := [(k, new.1, new.1)] }
    else g
  g.formBits env ws n 8

/-- INC_NOM (R124), rounded down; a quotient that does not exist or that unsigned 8.24 cannot hold is free (DESIGN CHOICE,
log entry 40: the rule states neither). -/
def incNomOf (k : Nat) (w : Int) : Int :=
  let q := 2560 * 2 ^ 48 / (k * w)
  if 0 < w ∧ q < 2 ^ 32 then q else Config.openIncrement k w

/-- A frame starts (R124, R134). -/
def Gate.start (sector layer zone region pos strength : Nat) (te w : Int) : Gate :=
  let g : Gate := { Gate.reset with
    sector := sector, te := te, w := w, layer := layer, zone := zone, region := region, pos := pos, strength := strength
    tau := te * 10 * 2 ^ 18 }
  { g with incNom := incNomOf g.k w }

/-- The first sample at or after a gate's t_e, for a stream of the given skew (R60). -/
def firstSample (te skew : Int) : Int := (te * 640 - skew + 4095) / 4096

/-! ### The end of a frame -/

/-- The frame's bits are over: what the detector holds comes out, and every search left is made (R134 to R137). -/
def Gate.finish (env : ChanEnv) (g : Gate) : Gate := (g.flush env.entry).search env true

/-- The framing code of a finished frame (R139). -/
def Gate.code (env : ChanEnv) (g : Gate) : Nat := (g.deadCode env.par).getD g.framing.code

/-- The stretches of frame bits that satisfy a test, as first and last bit, from bit `x` on. -/
def stretches (f : ChanBit → Bool) : Nat → Option Nat → List ChanBit → List (Nat × Nat)
  | x, o, [] => match o with | some a => [(a, x - 1)] | none => []
  | x, o, b :: l =>
    match f b, o with
    | true, none => stretches f (x + 1) (some x) l
    | true, some a => stretches f (x + 1) (some a) l
    | false, some a => (a, x - 1) :: stretches f (x + 1) none l
    | false, none => stretches f (x + 1) none l

/-- A finished frame, as its track keeps it (R139, R147, R151). -/
def Gate.toEnd (env : ChanEnv) (g : Gate) (track : Nat) (how : FrameEnd) (tClose : Int) : TrackEnd :=
  let code := g.code env
  let f := if 3 ≤ code then { Framing.reset with code := code } else g.framing
  { track := track, sector := g.sector, code := code, aborted := how != .close, stopped := how == .stop, syncPos := f.syncPos, framedAt := f.framedAt
    slips := f.slips, misses := f.misses, spare := g.spareSeen, sampler := g.sampler, slot := g.slot
    defects := g.defects, tOpen := g.te, tClose := tClose, layer := g.layer, zone := g.zone, region := g.region, band := g.band
    setTag := g.setTag, strength := g.strength, llrs := dataLlrs g.softs g.strength f []
    d0s := f.d0s, runs := g.runs.reverse, expects := g.expects.reverse
    dead := stretches (·.dead) 0 none (g.bits.filter (·.frame)).reverse }

/-- What a channel is doing (R158): 0 idle, 1 acquire, 2 sync search, 3 framed, 4 unframed, 5 gap. A track that searches
for no marks shows 4 from where its sync search would open, and a PCA unit shows 1 (DESIGN CHOICE, log entry 40). -/
def Gate.stateCode (env : ChanEnv) (g : Gate) : Nat :=
  match g.period with
  | .servo => 5
  | .resume _ => 5
  | .data _ =>
    if g.region = 2 then 1
    else if g.framing.phase = 0 ∧ g.decided < 384 - env.par.syncTol then 1
    else if (g.deadCode env.par).isSome then 4
    else if g.framing.phase = 0 then 2
    else if g.framing.phase = 1 then 3
    else 4

/-! ### Statistics -/

/-- The final decision on a channel bit; an erased one has none (R127, R131). -/
def ChanBit.final (b : ChanBit) : Option Bool := if b.hole ∨ b.dead then none else (b.soft.getD .reset).hard

/-- ŷ of a channel bit from the final decisions on it and on the bits before it in the detector's stream, the newest first,
times 2 Σ|G| (R129, R160). -/
def expectedY (entry : Nat) (b : ChanBit) (before : List ChanBit) : Int :=
  let level (v : Option Bool) : Int := match v with | some true => 1 | some false => -1 | none => 0
  let sign (m : Nat) : Int :=
    if m = 0 then level b.final else if m ≤ b.place then level ((before[m - 1]?).bind ChanBit.final) else 0
  (entryEref entry : Int) * (List.range 4).foldl (fun s m => s + entryTarget4 entry m * sign m) 0

/-- The sums behind the estimates of R160, each over the bits that have a decision: bits, Σ(y − ŷ), that sum on marks,
marks, Σyŷ, Σŷ², Σ(y − ŷ)²; ŷ counts in units of 1 / (2 Σ|G|). -/
structure Sums where
  n : Nat
  res : Int
  resMark : Int
  marks : Nat
  ye : Int
  ee : Int
  sq : Int
deriving DecidableEq, Repr

/-- A bit of a frame joins its sums. -/
def Sums.add (entry : Nat) (b : ChanBit) (before : List ChanBit) (s : Sums) : Sums :=
  match b.final with
  | none => s
  | some mark =>
    let den := targetDen entry
    let h := expectedY entry b before
    let d := den * b.y - h
    { n := s.n + 1, res := s.res + d, resMark := if mark then s.resMark + d else s.resMark
      marks := s.marks + flagNat mark, ye := s.ye + den * b.y * h, ee := s.ee + h * h, sq := s.sq + d * d }

/-- The sums over the frame bits of a stream, the newest first. -/
def sumsOf (entry : Nat) : List ChanBit → Sums
  | [] => ⟨0, 0, 0, 0, 0, 0, 0⟩
  | b :: l => if b.frame then (sumsOf entry l).add entry b l else sumsOf entry l

/-- The sums over a frame. -/
def Gate.sums (entry : Nat) (g : Gate) : Sums := sumsOf entry g.bits

/-- A counter of the statistics record gains `n`, held at its largest value (R160). -/
def statAdd (m : Mem) (a bytes n : Nat) : Mem := m.writeLE a bytes (satAdd (8 * bytes) (m.readLE a bytes) n)

/-- An estimate (R160): a quotient, rounded down or up; free where it does not exist or its field cannot hold it. -/
def estimate (word : Nat) (signed : Bool) (n d : Int) : Int :=
  let q := n / d + flagNat (decide (n % d ≠ 0) && Config.estimateUp word n d)
  if d ≠ 0 ∧ (if signed then -2 ^ 31 ≤ q ∧ q < 2 ^ 31 else 0 ≤ q ∧ q < 2 ^ 32) then q else Config.estimateOpen word n d

/-- The statistics record after a finished frame that ended by gate close (R160). -/
def Gate.stat (env : ChanEnv) (g : Gate) (m : Mem) : Mem :=
  let code := g.code env
  let m := statAdd m 0 4 1
  let m := match code with
    | 0 => statAdd m 4 2 1
    | 1 => statAdd m 6 2 1
    | 2 => statAdd m 8 2 1
    | 3 => statAdd m 10 2 1
    | 4 => statAdd m 54 2 1
    | _ => m
  let f := if code ≤ 2 then g.framing else .reset
  let m := statAdd m 12 4 (f.found.filter (· ≠ 0)).length
  let m := statAdd (statAdd m 16 2 f.slips.length) 18 2 f.misses.length
  let s := g.sums env.entry
  let den := targetDen env.entry
  let spaces := s.n - s.marks
  let put (a : Nat) (signed : Bool) (n d : Int) (m : Mem) : Mem :=
    m.writeLE a 4 (unsignedOf 32 (estimate (a / 4) signed n d))
  put 32 true (256 * s.res) (den * s.n) m
    |> put 36 false (16384 * s.ye) s.ee
    |> put 40 true (256 * (s.resMark * spaces - (s.res - s.resMark) * s.marks)) (den * s.marks * spaces)
    |> put 44 false (256 * s.sq) (den * den * s.n)
    |> put 48 false g.sumInc g.periods

/-! ### Codewords -/

/-- Codeword bits as LLRs (R107, R130): the inserted bit joins its neighbour, and the scrambler's ones negate. `tracks`
are the data LLRs of the four tracks. -/
def codewordLlrs (t a psa : Nat) (tracks : List (Array Int)) : List Int :=
  let raw := (List.range (codewordWords t)).flatMap fun i =>
    let (q, m) := twillPlace t a i
    let tr := tracks.getD q #[]
    let l (k : Nat) : Int := tr.getD (33 * m + k) 0
    (List.range 32).map fun k =>
      if k < 15 then l k else if k = 15 then clampInt (-31) 31 (l 15 - l 16) else l (k + 1)
  (raw.zip (scrambleOut raw.length (scrambleSeed psa))).map fun e => if e.2 then -e.1 else e.1

/-- The edges of a check row's block: block column and shift of each circulant in block row `r` (R141). -/
def rowEdges (t r : Nat) : List (Nat × Nat) :=
  let mb := blockRows t
  ((List.range 513).flatMap fun c => ([0, 1, 2].filter fun i => circRow mb c i == r).map fun i => (c, circShift mb c i))
    ++ [(513 + r, 0)] ++ (if r = 0 then [] else [(512 + r, 0)])

/-- 0.75 of a message's size (R143); whether an inexact one rounds up is free. -/
def scaled (m : Nat) : Nat := 3 * m / 4 + flagNat (decide (3 * m % 4 ≠ 0) && Config.ldpcUp m)

/-- One check of a layer (R143): normalised min-sum over its edges, with messages of 6 bits, -31 to 31 as the LLRs of R129,
and posteriors of 8 bits, -127 to 127. -/
def checkUpdate (edges : List (Nat × Nat)) (x : Nat) (s : Array Int × Array Int) : Array Int × Array Int :=
  let place (e : Nat × Nat) : Nat := 512 * e.1 + (x + e.2) % 512
  let n := edges.length
  let qs := (edges.zip (List.range n)).map fun e => s.1.getD (place e.1) 0 - s.2.getD (512 * e.2 + x) 0
  let ms := qs.map (clampInt (-31) 31)
  (edges.zip (List.range n)).foldl (fun (s : Array Int × Array Int) e =>
    let others := (ms.zip (List.range n)).filter fun m => m.2 != e.2
    let size := others.foldl (fun (b : Nat) m => min b m.1.natAbs) 31
    let neg := (others.filter fun m => decide (m.1 < 0)).length % 2 == 1
    let v : Int := scaled size
    let v := if neg then -v else v
    (s.1.setIfInBounds (place e.1) (clampInt (-127) 127 (qs.getD e.2 0 + v)), s.2.setIfInBounds (512 * e.2 + x) v)) s

/-- One iteration: the block rows in order (R143). -/
def decodeRound (t : Nat) (s : Array Int × List (Array Int)) : Array Int × List (Array Int) :=
  ((List.range (blockRows t)).zip s.2).foldl (fun (a : Array Int × List (Array Int)) r =>
    let edges := rowEdges t r.1
    let u := (List.range 512).foldl (fun u x => checkUpdate edges x u) (a.1, r.2)
    (u.1, a.2 ++ [u.2])) (s.1, [])

/-- The hard decisions of LLRs or posteriors: a negative one is a 1, and a 0 decides either way. -/
def decisionsOf (l : List Int) : List Bool :=
  (l.zip (List.range l.length)).map fun e => if e.1 = 0 then Config.tieDecision e.2 else decide (e.1 < 0)

/-- The iterations up to the first zero syndrome, or `n` of them: how many ran, success, and the decisions. -/
def decodeRounds (t : Nat) : Nat → Nat → Array Int × List (Array Int) → Nat × Bool × List Bool
  | 0, k, s => (k, false, decisionsOf s.1.toList)
  | n + 1, k, s =>
    let s := decodeRound t s
    let bits := decisionsOf s.1.toList
    if isCodeword t bits then (k + 1, true, bits) else decodeRounds t n (k + 1) s

/-- The LDPC decoder (R143): layered normalised min-sum from the input LLRs. -/
def ldpcDecode (t iterMax : Nat) (llrs : List Int) : Nat × Bool × List Bool :=
  decodeRounds t (min 40 (max 1 iterMax)) 0
    (llrs.toArray, (List.range (blockRows t)).map fun r => Array.replicate (512 * (rowEdges t r).length) 0)

/-- The expected PSA of codeword `a` of a track's group (R130). -/
def TrackEnd.psa (e : TrackEnd) (a : Nat) : Nat :=
  psaOf e.layer (if e.region = 1 then 0 else e.zone) e.band (e.track / 4 * 4 + a) e.sector

/-- HDR_FLAGS of a decoded information part (R145). -/
def headerFlags (data : List Byte) (psa setTag : Nat) : Nat :=
  flagNat (crc32c (data.take 60) != infoField data 60 4) + 2 * flagNat (infoField data 1 1 != 1)
    + 4 * flagNat (infoField data 4 5 != psa) + 8 * flagNat (infoField data 10 4 != setTag)

/-- Codeword `a` of four tracks as the decoder meets it, where it is not decoded (R144, R146, R147): its erased bits, and
the hard decisions. -/
def plainResult (code a : Nat) (ends : List TrackEnd) (tracks : List (List Int)) : CwResult :=
  let home := ends.getD a .reset
  let llrs := codewordLlrs home.strength a (home.psa a) (tracks.map (·.toArray))
  { CwResult.reset with
    index := a, result := code, erased := (llrs.filter (· == 0)).length
    data := bytesOfBits ((decisionsOf llrs).take 262656) }

/-- The result of a decode of codeword `a` (R143, R145, R147): RESULT is 0 or 2. -/
def decodeTracks (iterMax a : Nat) (ends : List TrackEnd) (tracks : List (List Int)) : CwResult :=
  let home := ends.getD a .reset
  let t := home.strength
  let psa := home.psa a
  let llrs := codewordLlrs t a psa (tracks.map (·.toArray))
  let (iter, ok, bits) := ldpcDecode t iterMax llrs
  let data := bytesOfBits (bits.take 262656)
  { index := a, result := if ok then 0 else 2, iter := iter
    hdrFlags := if ok then headerFlags data psa home.setTag else 0
    erased := (llrs.filter (· == 0)).length
    corrected := if ok then ((llrs.zip bits).filter fun e => e.1 != 0 && decide (e.1 < 0) != e.2).length else 0
    data := data }

end Sys2Proof.Machine
end

