-- ==== Sys2Proof/Machine/HeadOps.lean ====
section
/-! DEFINITION. The operations of one head that several of its blocks share: queueing a Riser command (R87), the loop
engine's enables and states (R196, R209), the bank in force (R206), the end of a beam channel's frame, the end of a
step generator's motion (R271, R273), the spindle drive's state (R247), the abort of a write descriptor (R188), the
end of a calibration job (R292), and the Landing's state changes (R217). -/

namespace Sys2Proof.Machine

/-- Package time in whole ns. -/
def Ctx.ns (c : Ctx) : Nat := c.now / 16

/-! ### Riser commands -/

/-- The link is UP (R79). -/
def Head.up (x : Head) : Bool := x.r RiserReg.STATE == 6

/-- A command is queued for a frame, or discarded at issue while the link is not UP (R87). -/
def Head.issue (c : Ctx) (m : RCmd) (x : Head) : Head :=
  if x.up then { x with riser := { x.riser with queue := x.riser.queue ++ [{ m with issued := c.now }] } } else x

/-- ARG of an ACT: output and signed 32-bit value (R83). -/
def actArg (out : Nat) (v : Int) : Nat := out % 32 + unsignedOf 32 v * 2 ^ 8

/-- An ACT is queued with its sample time and loop number for the order of R87. -/
def Head.act (c : Ctx) (src : CmdSrc) (out : Nat) (v : Int) (time loopNo : Nat) (x : Head) : Head :=
  x.issue c { op := 6, timed := false, te := 0, arg := actArg out v, src := src, sampleTime := time,
              loopNo := loopNo, issued := 0 }

/-- A BRIDGE command is queued: 0 coast, 1 drive, 2 dynamic brake (R83). -/
def Head.bridge (c : Ctx) (v : Nat) (x : Head) : Head :=
  x.issue c { RCmd.reset with op := 7, arg := v, src := .spindle }

/-- A LASER command is queued for position `b` (R83). -/
def Head.laser (c : Ctx) (src : CmdSrc) (b mode rp wp : Nat) (x : Head) : Head :=
  x.issue c { RCmd.reset with
    op := 8, arg := b % 64 + mode % 4 * 2 ^ 6 + rp % 2 ^ 16 * 2 ^ 8 + wp % 2 ^ 16 * 2 ^ 24, src := src }

/-- LASER mode 0 for all positions: lasers off. -/
def Head.lasersOff (c : Ctx) (x : Head) : Head := x.laser c .landing 33 0 0 0

/-! ### Loops -/

/-- Word 0 of loop `n`'s topology entry (R194). -/
def Head.topo (x : Head) (n : Nat) : Nat := x.loops.topoMem.readLE (16 * n) 4

/-- NSEC of a loop (R194). -/
def Head.nsec (x : Head) (n : Nat) : Nat := bitsOf (x.topo n) 8 5

/-- TRIG of a loop: sampled by events (R194). -/
def Head.trig (x : Head) (n : Nat) : Bool := bitOf (x.topo n) 9

/-- HOLDABLE of a loop (R194). -/
def Head.holdable (x : Head) (n : Nat) : Bool := bitOf (x.topo n) 20

/-- PERIOD of a loop, ns (R194). -/
def Head.period (x : Head) (n : Nat) : Nat := x.loops.topoMem.readLE (16 * n + 4) 4

/-- PHASE of a loop, ns (R194). -/
def Head.phase (x : Head) (n : Nat) : Nat := x.loops.topoMem.readLE (16 * n + 8) 4

/-- A loop map field names a loop: it is below 24 and the loop is used (R220). -/
def Head.namesLoop (x : Head) (n : Nat) : Bool := decide (n < 24) && x.nsec n != 0

/-- ACTIVE: enabled, not frozen, and not suspended by hold (R209). -/
def Head.loopActive (x : Head) (n : Nat) : Bool :=
  x.b (LoopReg.ENABLE n) && !x.b (LoopReg.FREEZE n) && !(x.holdable n && x.b LoopReg.HOLD_ACTIVE)

/-- ENABLE of a loop is written by an engine of the device; a field that names no loop is left alone (R220). -/
def Head.loopEnable (n : Nat) (v : Bool) (x : Head) : Head :=
  if n < 24 && (!v || x.nsec n != 0) then x.put (LoopReg.ENABLE n) v else x

/-- LOOP_REF of a loop is written by an engine of the device. -/
def Head.loopRef (n : Nat) (v : Int) (x : Head) : Head := if n < 24 then x.wi (LoopReg.LOOP_REF n) v else x

/-- The state of a loop is zeroed, as CLEAR does (R196). -/
def Head.loopZero (n : Nat) (x : Head) : Head :=
  { x with loops := { x.loops with stateMem := x.loops.stateMem.writeBytes (128 * n) (List.replicate 128 0) } }

/-- The state of a loop is zeroed but for Y1 and Y2 of its last section, which take `v` (R227, R255). -/
def Head.loopPreload (n : Nat) (v : Int) (x : Head) : Head :=
  let x := x.loopZero n
  let k := 16 * (8 * n + (x.nsec n - 1))
  { x with loops := { x.loops with stateMem :=
      (x.loops.stateMem.writeLE (k + 8) 4 (unsignedOf 32 v)).writeLE (k + 12) 4 (unsignedOf 32 v) } }

/-- The next package time, in ns, at which a TRIG = 0 loop samples, at or after `t` (R41). -/
def Head.nextDue (x : Head) (n t : Nat) : Nat :=
  let p := max 1 (x.period n)
  t + (p - (t + p - x.phase n % p) % p) % p

/-- The last due instant of a loop at or before `t` ns (R41). -/
def Head.lastDueAt (x : Head) (n t : Nat) : Option Nat :=
  if x.phase n ≤ t then some (t - (t - x.phase n) % max 1 (x.period n)) else none

/-- The oldest due instant of a TRIG = 0 loop at or before `t` ns that has not been taken (R41, R198): the first after the
one taken last, and for a loop of which none has been taken the last one reached (DESIGN CHOICE, log entry 126). -/
def Head.dueAt (x : Head) (n t : Nat) : Option Nat :=
  match lookupKey n x.loops.lastDue with
  | none => x.lastDueAt n t
  | some l =>
    let d := x.nextDue n (l + 1)
    if d ≤ t then some d else none

/-- The bank in force: region map entry (LAYER << 8) | (ZONE << 4) | (SPEED_BAND << 2) | HEAD_MODE (R206). -/
def Head.bankNow (x : Head) : Nat :=
  let i := x.r LoopReg.LAYER * 256 + x.r LoopReg.ZONE * 16 + x.r LoopReg.SPEED_BAND * 4 + x.r LoopReg.HEAD_MODE
  (x.loops.regionMem.read8 (20 + i)).toNat % 64

/-- The region's layer and zone follow the last ZONE_SELECT or the override, and a change of the bank in force is
counted (R206). -/
def Head.refreshBank (x : Head) : Head :=
  let ovr := x.b LoopReg.LZ_OVR
  let x := x.w LoopReg.LAYER (if ovr then x.r LoopReg.OVR_LAYER else x.loops.layer)
  let x := x.w LoopReg.ZONE (if ovr then x.r LoopReg.OVR_ZONE else x.loops.zone)
  let b := x.bankNow
  if b = x.r LoopReg.BANK then x
  else ((x.w LoopReg.BANK b).flag LoopReg.BANK_SWITCH).bump LoopReg.SWITCH_COUNT 1

/-- HEAD_MODE of the head's state (R216): 3 during a coarse move, a fine jump or a layer jump. -/
def Head.modeOf (x : Head) : Nat :=
  let h := x.r LandReg.HSTATE
  let t := x.r LandReg.TSTAT
  let f := x.r LandReg.FSTAT
  if t = 2 ∨ t = 5 ∨ f = 4 ∨ f = 5 ∨ x.land.jumpPhase ≠ 0 then 3
  else if h = 8 then 2
  else if h = 5 ∨ h = 6 ∨ h = 7 then 1
  else if h = 9 then (if x.land.origin = 6 then 1 else 0)
  else 0

/-- HEAD_MODE is driven into the region index (R206, R216). -/
def Head.refreshMode (x : Head) : Head := (x.w LoopReg.HEAD_MODE x.modeOf).refreshBank

/-- A sample whose due cycle is this one uses the bank in force after the cycle's changes (R206, R214). -/
def Head.sampleBanks (c : Ctx) (x : Head) : Head :=
  { x with loops := { x.loops with due := x.loops.due.map fun d => if d.cycle = c.cyc then { d with bank := x.bankNow } else d } }

/-! ### Beam channels -/

/-- LAYER_COUNT as it acts (R237). -/
def Head.layerCount (x : Head) : Nat := max 1 (min 16 (x.r LandReg.LAYER_COUNT))

/-- The beam position that the spare covers after the switches sent so far (R62). -/
def Head.coveredNow (x : Head) : Option Nat := (x.angle.covers.head?.map (·.2)).getD none

/-- The beam position that the spare covers at package time `t` (1/16 ns): a switch applies from its t_e (R62). -/
def Head.coveredAt (x : Head) (t : Int) : Option Nat :=
  ((x.angle.covers.find? fun c => decide ((c.1 : Int) ≤ t)).map (·.2)).getD none

/-- The registers of SCORR of a sampler as one number: gain, offset, skew. -/
def Head.scorrReg (x : Head) (s : Nat) : Nat :=
  x.r (CalReg.S_GAIN s) + x.r (CalReg.S_OFF s) * 2 ^ 16 + x.r (CalReg.S_SKEW s) * 2 ^ 32

/-- The SCORR value of sampler `s` that beam channel `k` has in force (R296). -/
def Head.scorr (x : Head) (k s : Nat) : Nat := (lookupKey (64 * k + s) x.cal.heldScorr).getD (x.scorrReg s)

/-- S_GAIN in force (R122). -/
def Head.sGain (x : Head) (k s : Nat) : Int := bitsOf (x.scorr k s) 15 0
/-- S_OFF in force (R122). -/
def Head.sOff (x : Head) (k s : Nat) : Int := signedOf 12 (bitsOf (x.scorr k s) 27 16)
/-- S_SKEW in force (R60). -/
def Head.sSkew (x : Head) (k s : Nat) : Int := signedOf 16 (bitsOf (x.scorr k s) 47 32)

/-- SCORR of a sampler is about to be written (R296): a channel that consumes it in an open gate keeps the value in force,
and every other one takes the new value at once. -/
def Head.scorrHold (s : Nat) (x : Head) : Head :=
  let held := allSamplers.foldl (fun l (k : Fin 33) =>
    let key := 64 * k.val + s
    if (x.beam k).gate.any (·.source == s) then
      (if lookupKey key l = none then insertKey key (x.scorrReg s) l else l)
    else eraseKey key l) x.cal.heldScorr
  { x with cal := { x.cal with heldScorr := held } }

/-- A gate opens on channel `k`, which consumes sampler `s`: the value last written takes effect (R296). -/
def Head.scorrTake (k s : Nat) (x : Head) : Head :=
  { x with cal := { x.cal with heldScorr := eraseKey (64 * k + s) x.cal.heldScorr } }

/-- The parameters of the beam channels as they stand (R159). -/
def Head.chanPar (x : Head) : ChanPar where
  syncTol := x.r WeftReg.SYNC_TOL
  syncThr := x.r WeftReg.SYNC_THR
  resyncTol := x.r WeftReg.RESYNC_TOL
  resyncThr := x.r WeftReg.RESYNC_THR
  resyncWide := x.r WeftReg.RESYNC_WIDE
  acqLen := x.r WeftReg.ACQ_LEN
  kpA := x.r WeftReg.KP_A
  kiA := x.r WeftReg.KI_A
  kpT := x.r WeftReg.KP_T
  kiT := x.r WeftReg.KI_T
  freqLim := x.r WeftReg.FREQ_LIM
  envLo := x.r WeftReg.ENV_LO
  envHi := x.r WeftReg.ENV_HI
  teThr := x.r WeftReg.TE_THR
  defMin := x.r WeftReg.DEF_MIN
  ext := x.r WeftReg.EXT
  extAlt := x.r WeftReg.EXT_ALT
  blankLvl := x.r WeftReg.BLANK_LVL

/-- Byte of the channel table entry of a layer, region index and position (R119). -/
def entryAt (layer region pos : Nat) : Nat := ((layer * 17 + region) * 32 + pos) * 32

/-- A channel table entry (R119, R120). -/
def Head.tableEntry (x : Head) (layer region pos : Nat) : Nat := x.chanMem.readLE (entryAt layer region pos) 32

/-- What the bits of an open frame of channel `k` need (R119, R124). -/
def Head.gateEnv (x : Head) (k : Nat) (g : Gate) : ChanEnv where
  entry := x.tableEntry g.layer (regionIndex g.region g.zone) g.pos
  par := x.chanPar
  skew := x.sSkew k g.sampler
  noDefect := false

/-- A track's end joins the record of its twill group and frame position (R140). -/
def addEnd (e : TrackEnd) : List GroupRec → List GroupRec
  | [] => [{ group := e.track / 4, sector := e.sector, ends := [e], results := [] }]
  | r :: l =>
    if r.group = e.track / 4 ∧ r.sector = e.sector ∧ ¬ (r.ends.any (·.track = e.track))
    then { r with ends := r.ends ++ [e] } :: l
    else r :: addEnd e l

/-- A retention slot of a beam channel is changed. -/
def BeamSt.onSlot (b : BeamSt) (k : Nat) (f : RetSlot → RetSlot) : BeamSt := { b with slots := b.slots.modify k f }

/-- The sync-found and resync-found events of channel `k` reach the Landing (R20): what its framing found since `old`. -/
def Head.tellFound (k : Nat) (old new : Framing) (x : Head) : Head :=
  match new.found with
  | m :: _ =>
    if old.found.length < new.found.length then { x with land := { x.land with found := insertKey k m x.land.found } } else x
  | [] => x

/-- The open frame of channel `i` ends: its slot becomes DONE with the live framing results, a waiting ZONE_SELECT
takes effect (R157), NO_FRAME is set where it found no mark (R137), and the track's end goes to the Weft unit. The frame of channel 32 goes to its own decoder, as the
track of its table position (R118). -/
def Head.endFrame (i : Fin 33) (how : FrameEnd) (tClose : Int) (x : Head) : Head :=
  let b := x.beam i
  match b.gate with
  | none => x
  | some g =>
    let env := x.gateEnv i g
    let old := g.framing
    let g := g.finish env
    let e := g.toEnd env (if i.val < 32 then i.val else g.pos) how tClose
    let b := match g.slot with
      | none => b
      | some k => b.onSlot k fun r => { r with state := 2, live := e }
    let b := { b with gate := none, holding := false }
    let b := match b.zonePend with
      | none => b
      | some (l, z) => { b with layer := l, zone := z, zonePend := none }
    let x := (x.onBeam i fun _ => b).tellFound i old g.framing
    let x := x.flagIf (g.region != 2 && g.code env == 3) (BeamReg.NO_FRAME i)
    if g.region = 2 then x
    else if i.val < 32 then { x with weft := { x.weft with groups := addEnd e x.weft.groups } }
    else { x with weft := { x.weft with shadow := some e } }

/-- Every open frame of the head ends at once with ABORTED (R157); a frame position of which not all four frames were
opened gets no result (DESIGN CHOICE, log entry 39). -/
def Head.abortFrames (c : Ctx) (x : Head) : Head :=
  let x := allSamplers.foldl (fun x i => x.endFrame i .stop c.now) x
  { x with weft := { x.weft with groups := x.weft.groups.filter fun r => r.ends.length == 4 } }

/-! ### Write channel -/

/-- The earliest t_e, in 1/16 ns, at which a timed command issued now can act: just after the arrival of the next frame
that starts at least 20 ns from now (R85, R87). -/
def Head.earliest (c : Ctx) (x : Head) : Nat :=
  let f := (c.now + 320 + 1599) / 1600 * 1600
  f + (x.r RiserReg.LAT_DN * 16 + 9) / 10 + 1

/-- The lasers go back to read if they were armed: LASER mode 1 with the descriptor's RPOWER for every position (R176). -/
def Head.lasersRead (c : Ctx) (x : Head) : Head :=
  if x.write.laserDone then
    let l := x.write.powers
    let x : Head := (List.range 32).foldl (fun x b => x.laser c .write b 1 (l.getD b (0, 0)).1 0) x
    { x with write := { x.write with laserDone := false } }
  else x

/-- The write phase is over: the head leaves WRITE (R217). -/
def Head.leaveWrite (x : Head) : Head :=
  if x.r LandReg.HSTATE = 8 then ((x.w LandReg.HSTATE 7).flag LandReg.STATE_CHANGE).refreshMode else x

/-- The t_e of the close that ends the write phase is reached (R169, R176): the lasers go back to read, and a complete
phase goes on to its verify revolution, its readback or its completion. It shows with the next frame or the next thing
that happens in the Landing (DESIGN CHOICE, log entry 129). -/
def Head.writeSettle (c : Ctx) (x : Head) : Head :=
  match x.write.endAt with
  | none => x
  | some t =>
    if c.now < t then x
    else
      let x : Head := ({ x with write := { x.write with endAt := none, gates := [] } }).lasersRead c
      match x.write.desc with
      | none => x
      | some d =>
        if x.write.aborted then x
        else
          let x : Head := ({ x with write := { x.write with writeDone := true } }).leaveWrite
          x.w WriteReg.STATE (if d.type = 3 then 5 else if bitOf d.mode 0 then 6 else 4)

/-- Frames that end by a gate close in the second half of a descriptor: 32 F of a verify revolution, 32 for each unit of
a readback or a scan (R177, R182, R184). -/
def Head.gatesOwed (x : Head) : Nat :=
  match x.write.desc with
  | none => 0
  | some d => match d.type with
    | 1 => if bitOf d.mode 0 then 0 else 32 * x.write.frames
    | 2 => 32 * x.write.frames
    | 3 => 32 * d.steps
    | _ => 8192

/-- Every gate of the active descriptor has been served, in its write phase and after it. -/
def Head.gatesServed (x : Head) : Bool :=
  match x.write.desc with
  | none => true
  | some d => (x.write.writeDone || d.type == 2 || d.type == 4) && decide (x.gatesOwed ≤ x.write.readGates)

/-- The active descriptor is aborted with a cause (R188): no more bits, later opens withheld, and a gate that is open or
still to open closed at the earliest instant; the first cause stands, and of two in one cycle the lower code (R189). A
verify revolution goes on, anything else goes on to its completion. A stop of slot 1 finds nothing to abort once every
gate has been served (DEDUCED, log entry 30). -/
def Head.writeAbort (c : Ctx) (cause : Nat) (x : Head) : Head :=
  let x := x.writeSettle c
  match x.write.desc with
  | none => x
  | some d =>
    if x.write.aborted && x.write.abortAt == c.cyc && cause < x.write.cause then
      { x with write := { x.write with cause := cause } }
    else if x.write.aborted || x.write.refused || (cause == 9 && x.gatesServed) then x
    else
      let te := x.earliest c
      let open' := x.write.gates.filter fun g => g.closeTe.all fun t => decide (c.now < t)
      let x : Head := if open'.any fun g => g.closeTe.all fun t => decide (te < t) then
          x.issue c { RCmd.reset with op := 5, timed := true, te := te, src := .write }
        else x
      let x : Head := { x with write := { x.write with
        aborted := true, cause := cause, abortAt := c.cyc, cutPhase := x.r WriteReg.STATE == 3
        closedThen := (x.write.closeTes.filter (· ≤ c.now)).length, gates := []
        endAt := if open'.isEmpty then none else some te } }
      let x : Head := (x.flag WriteReg.ABORTED).leaveWrite
      let x : Head := if open'.isEmpty then x.lasersRead c else x
      x.w WriteReg.STATE (if d.type = 1 ∧ ¬ bitOf d.mode 0 ∨ d.type = 2 then 4 else 6)

/-! ### Calibration job -/

/-- A field of `n` bytes at byte `k` of the entry of job `j` (R284). -/
def Head.jobField (x : Head) (j k n : Nat) : Nat := x.cal.jobMem.readLE (32 * j + k) n
/-- LOOP of a job (R284). -/
def Head.jobLoop (x : Head) (j : Nat) : Nat := x.jobField j 2 1
/-- SETTLE_NS of a job (R284). -/
def Head.jobSettle (x : Head) (j : Nat) : Nat := x.jobField j 4 4

/-- The start of the measurement span, 1/16 ns (R286). -/
def Head.calSpan (x : Head) : Int := x.cal.openTe + 16 * (x.jobSettle x.cal.job : Int)

/-- An instant in 1/160 ns lies in the measurement span (R286). -/
def Head.inSpan (x : Head) (t10 : Int) : Bool :=
  decide (10 * x.calSpan ≤ t10) && (match x.cal.closeTe with | none => true | some te => decide (t10 ≤ 10 * te))

/-- The step records of a REF_SWEEP result (R292): byte, size and value. -/
def sweepSteps (l : List CalStep) : List (Nat × Nat × Nat) :=
  ((List.range l.length).zip l).flatMap fun e =>
    [(0x40 + 8 * e.1, 4, unsignedOf 32 e.2.ref),
     (0x44 + 8 * e.1, 2, if e.2.n = 0 then 0 else min 65535 ((2 * e.2.sum + e.2.n) / (2 * e.2.n))),
     (0x46 + 8 * e.1, 2, min e.2.n 65535)]

/-- Bytes of the job result (R292) that hold what was gathered, whatever the status: the counts, and the step records of a
REF_SWEEP. -/
def Head.calRecord (c : Ctx) (status : Nat) (x : Head) : Mem :=
  let k := x.cal
  let m := Mem.empty
  let m := m.writeLE 0 2 (x.cal.job)
  let m := m.writeLE 2 1 k.kind
  let m := m.writeLE 3 1 status
  let m := m.writeLE 4 4 k.n
  let m := m.writeLE 8 8 k.tOpen
  let m := m.writeLE 0x10 8 c.ns
  let m := m.writeLE 0x18 4 k.tempOpen
  let m := m.writeLE 0x1C 4 k.excluded
  if k.kind = 1 then m.writeLE 0x2C 4 k.clipped
  else if k.kind = 2 then (sweepSteps k.steps).foldl (fun m e => m.writeLE e.1 e.2.1 e.2.2) m
  else m

/-- The job ends with a status: the result record is written with the fitted fields given, BUSY and RUNNING clear,
and JOB_DONE or JOB_FAIL is set (R287, R292). -/
def Head.calEnd (c : Ctx) (status : Nat) (fit : List (Nat × Nat × Nat)) (x : Head) : Head :=
  if x.b CalReg.BUSY then
    let m := fit.foldl (fun m e => m.writeLE e.1 e.2.1 e.2.2) (x.calRecord c status)
    let x := if x.cal.injSet then x.put LoopReg.INJ_EN false else x
    let x := { x with cal := { x.cal with
      resultMem := m, window := false, closeTe := none, spanOn := false, injSet := false, stimSent := false, base := none } }
    let x := ((x.put CalReg.BUSY false).put CalReg.RUNNING false).w CalReg.JSTATUS status
    x.flag (if status = 0 then CalReg.JOB_DONE else CalReg.JOB_FAIL)
  else x

/-- The saved reference of a REF_SWEEP is written back (R285, R290). -/
def Head.calRestore (x : Head) : Head :=
  match x.cal.base with
  | none => x
  | some v => x.loopRef ((x.cal.jobMem.read8 (32 * x.cal.job + 2)).toNat) v

/-- A reference written by firmware or by a selection between the open of window 0 and the restore ends a REF_SWEEP
of that loop with REF_CHANGED (R290). -/
def Head.calRefWritten (c : Ctx) (n : Nat) (x : Head) : Head :=
  if x.cal.kind = 2 ∧ x.cal.base.isSome ∧ (x.cal.jobMem.read8 (32 * x.cal.job + 2)).toNat = n
  then x.calEnd c 4 [] else x

/-- The states a job's kind allows (R287). -/
def Head.calStateOk (x : Head) : Bool :=
  let h := x.r LandReg.HSTATE
  match x.cal.kind with
  | 1 => x.up && h != 10 && h != 11
  | 2 => h == 6 || h == 7 || h == 9
  | 3 => h != 8 && h != 10 && h != 11
  | _ => true

/-- The link is UP and the head not in SAFE. -/
def Head.calLinkOk (x : Head) : Bool := x.up && x.r LandReg.HSTATE != 10

/-- A job ends with LINK when the head enters SAFE or the link is lost, and with STATE when the head leaves the states its
kind allows (R287); an armed job, no window of which has opened, only when the head had been there since the arm. -/
def Head.calCheck (c : Ctx) (x : Head) : Head :=
  if x.b CalReg.BUSY then
    let x := { x with cal := { x.cal with
      stateSeen := x.cal.stateSeen || x.calStateOk, linkSeen := x.cal.linkSeen || x.calLinkOk } }
    let left := (x.cal.stateSeen || x.b CalReg.RUNNING) && !x.calStateOk
    let lost := x.cal.linkSeen && !x.calLinkOk
    if left || lost then x.calEnd c (if x.calLinkOk then 5 else 9) [] else x
  else x

/-! ### Step generators -/

/-- A step generator's motion ends with an END_CODE: MOVE_DONE, and for a homing HPHASE 0 and HOME_FAIL or HOME_DONE
(R271, R279, R280). -/
def Head.genEnd (g : Fin 2) (code : Nat) (x : Head) : Head :=
  let homing := x.r (StepReg.GSTATE g) = 3
  let x := (x.w (StepReg.END_CODE g) code).flag (StepReg.MOVE_DONE g)
  let x := if homing then (x.w (StepReg.HPHASE g) 0).flag (if code = 0 then StepReg.HOME_DONE g else StepReg.HOME_FAIL g)
    else x
  (x.w (StepReg.GSTATE g) 0).onGen g fun s =>
    { s with plan := none, stopReq := none, hardReq := none, phaseNext := 0 }

/-- A generator is HELD while the head is OFF, SAFE or FAULT, or its link is not UP (R281). -/
def Head.mustHold (x : Head) : Bool :=
  let h := x.r LandReg.HSTATE
  h == 0 || h == 10 || h == 11 || !x.up

/-- Entry into HELD ends any motion with ABORTED; leaving it returns the generator to IDLE (R281). The Landing has no
seek in progress in any state that holds a generator, so no report is owed. -/
def Head.refreshHeld (x : Head) : Head :=
  [0, 1].foldl (fun x (g : Fin 2) =>
    let st := x.r (StepReg.GSTATE g)
    if x.mustHold then
      if st = 4 then x
      else
        let x := if st = 0 then x else x.genEnd g 5
        (((x.w (StepReg.GSTATE g) 4).w (StepReg.A_FF g) 0).w (StepReg.TRIM g) 0).put (StepReg.TRIM_ACTIVE g) false
    else if st = 4 then x.w (StepReg.GSTATE g) 0 else x) x

/-! ### Spindle drive -/

/-- The drive enters a state (R247): every change sets STATE_CHANGE, and leaving DRIVE clears AT_SPEED (R246). -/
def Head.spinTo (st : Nat) (x : Head) : Head :=
  let old := x.r SpinReg.SSTATE
  let x := if old ≠ st then x.flag SpinReg.STATE_CHANGE else x
  let x := if old = 2 ∧ st ≠ 2 then x.put SpinReg.AT_SPEED false else x
  let x := { x with spin := { x.spin with aff := if st = 2 then x.spin.aff else 0 } }
  x.w SpinReg.SSTATE st

/-- SPD_LOOP, ID_LOOP and IQ_LOOP off (R247). -/
def Head.driveLoopsOff (x : Head) : Head :=
  ((x.loopEnable (x.r SpinReg.SPD_LOOP) false).loopEnable (x.r SpinReg.ID_LOOP) false).loopEnable
    (x.r SpinReg.IQ_LOOP) false

/-- CHOP_LOOP is enabled, VB_CHOP × 2^15 first written to its reference (R241). -/
def Head.chopOn (x : Head) : Head :=
  let n := x.r SpinReg.CHOP_LOOP
  if x.b (LoopReg.ENABLE n) then x
  else (x.loopRef n ((x.r SpinReg.VB_CHOP * 2 ^ 15 : Nat) : Int)).loopEnable n true

/-- A running catch fails with a code: CATCH_FAILED and SCODE (R249). -/
def Head.catchFails (code : Nat) (x : Head) : Head :=
  if x.b SpinReg.CATCH_RUN then
    ((x.put SpinReg.CATCH_RUN false).flag SpinReg.CATCH_FAILED).w SpinReg.SCODE code
  else x

/-- What is still queued of a probe in progress is given up with it (R248, R253). -/
def Head.probeDrop (x : Head) : Head :=
  if x.r SpinReg.SSTATE = 4 then
    { x with riser := { x.riser with queue := x.riser.queue.filter fun m => !(m.op == 7 && m.src == .spindle) } }
  else x

/-- The drive enters SAFE: all four loops off, a running catch fails ABORTED, a probe in progress is discarded (R248);
an ALIGN ends with SCODE 10 (R261). -/
def Head.driveSafe (x : Head) : Head :=
  if x.r SpinReg.SSTATE = 7 then x
  else
    let x := (if x.r SpinReg.SSTATE = 6 then x.w SpinReg.SCODE 10 else x).probeDrop
    let x := (x.driveLoopsOff.loopEnable (x.r SpinReg.CHOP_LOOP) false).catchFails 10
    let x := { x with spin := { x.spin with
      settleAt := none, fOn := none, fOff := none, stopReq := false, stopHeld := false, ovSince := none } }
    x.spinTo 7

/-- The head leaves SAFE: BRAKE, with CHOP_LOOP on (R248). -/
def Head.driveRelease (x : Head) : Head := if x.r SpinReg.SSTATE = 7 then (x.spinTo 5).chopOn else x

/-! ### The Landing -/

/-- A completing command: CMD_DONE with LAST_CODE 0, or CMD_FAIL with its code, and CMD_BUSY clears (R219). -/
def Head.cmdEnd (code : Nat) (x : Head) : Head :=
  if x.b LandReg.CMD_BUSY then
    let x := ((x.put LandReg.CMD_BUSY false).w LandReg.LAST_CODE code).flag
      (if code = 0 then LandReg.CMD_DONE else LandReg.CMD_FAIL)
    { x with land := { x.land with cmd := none, seekOn := false } }
  else x

/-- Slot 1 stops (R52, R157, R188): RUNNING clears, a pending START is cancelled, open frames end ABORTED unless the link
was lost (`keep`), when the gate closes of the schedule still end them, and a descriptor that has not ended is aborted with cause 9. -/
def Head.slot1Off (c : Ctx) (keep : Bool) (x : Head) : Head :=
  let ran := x.b AngleReg.RUNNING
  let open' := ran || x.angle.tail
  let x := (x.put AngleReg.RUNNING false).put AngleReg.START false
  let x := { x with
    angle := { x.angle with
      slot1 := { x.angle.slot1 with running := false }, restart1 := false
      tail := keep && open' && allSamplers.any fun i => (x.beam i).gate.isSome
      slot1Ended := if ran then some c.cyc else x.angle.slot1Ended } }
  let x := if open' && !keep then x.abortFrames c else x
  if ran then x.writeAbort c 9 else x

/-- Slot 1 stops, with every open frame ABORTED. -/
def Head.stopSlot1 (c : Ctx) (x : Head) : Head := x.slot1Off c false

/-- The write inhibit of R235, from the state as it stands. -/
def Head.inhibitNow (x : Head) : Bool :=
  let h := x.r LandReg.HSTATE
  !(h == 7 || h == 8) || x.r LandReg.FSTAT != 3 || x.r LandReg.TSTAT != 6 || x.land.wiTe
    || decide (max 1 (x.r LandReg.WI_INV) ≤ x.land.wiInvRun)
    || (x.b LoopReg.HOLD_ACTIVE && x.b LandReg.WI_ON_HOLD) || x.b AngleReg.HOLDOVER

/-- A write phase runs, or was cut short in this CORE cycle (R189, R235). -/
def Head.inWritePhase (c : Ctx) (x : Head) : Bool :=
  x.r WriteReg.STATE == 3 || (x.write.aborted && x.write.cutPhase && x.write.abortAt == c.cyc)

/-- WRITE_INHIBIT follows R235; a rise during a write phase is counted and aborts the descriptor with cause 5, and
with cause 4 in holdover. -/
def Head.refreshInhibit (c : Ctx) (x : Head) : Head :=
  let was := x.b LandReg.WRITE_INHIBIT
  let now := x.inhibitNow
  let x := x.put LandReg.WRITE_INHIBIT now
  if now && !was && x.inWritePhase c then
    let x := (x.flag LandReg.WRITE_INHIBITED).bump LandReg.INHIBIT_COUNT 1
    x.writeAbort c (if x.b AngleReg.HOLDOVER then 4 else 5)
  else x

/-- The states in which a hold request is obeyed (R234). -/
def Head.holdOk (x : Head) : Bool :=
  let h := x.r LandReg.HSTATE
  (h == 6 || h == 7 || h == 8 || (h == 9 && x.land.origin == 6)) && x.r LandReg.TSTAT == 6

/-- Hold follows the Weft unit's request (R132, R234): asserted and counted, dropped when the request or the state
ends, and blocked after a timeout until the request has fallen. -/
def Head.refreshHold (c : Ctx) (x : Head) : Head :=
  let req := x.weft.holdReq
  let x := if req then x else { x with land := { x.land with holdBlocked := false } }
  let want := req && x.holdOk && !x.land.holdBlocked
  if want && !x.b LoopReg.HOLD_ACTIVE then
    let x := { x with land := { x.land with holdAt := c.cyc } }
    (x.put LoopReg.HOLD_ACTIVE true).bump LandReg.HOLD_COUNT 1
  else if !want && x.b LoopReg.HOLD_ACTIVE then
    x.put LoopReg.HOLD_ACTIVE false
  else x

/-- Values of ACT 0 and ACT 1 that the Landing owes while the map names no loop for them are queued at once (R220). -/
def Head.actsLoose (c : Ctx) (x : Head) : Head :=
  let loop (p : Nat × Int) : Nat := if p.1 = 0 then x.r LandReg.FOCUS_LOOP else x.r LandReg.TRACK_LOOP
  let l := x.land.acts
  (l.filter fun p => !x.namesLoop (loop p)).foldl (fun x p => x.act c .landing p.1 p.2 c.ns (loop p))
    { x with land := { x.land with acts := l.filter fun p => x.namesLoop (loop p) } }

/-- Everything that follows the Landing's state: the end of a write phase, the head mode and bank, hold, write inhibit, HELD
generators, a calibration job's allowed states, and the values that wait for a loop that is no longer named. -/
def Head.refresh (c : Ctx) (x : Head) : Head :=
  ((((((x.actsLoose c).writeSettle c).refreshMode.sampleBanks c).refreshHold c).refreshInhibit c).refreshHeld).calCheck c

/-- The head state takes a value, STATE_CHANGE with a change of it, and the drive enters or leaves SAFE with the head
(R217, R248). -/
def Head.setHstate (st : Nat) (x : Head) : Head :=
  let old := x.r LandReg.HSTATE
  let x := if old = st then x else (x.w LandReg.HSTATE st).flag LandReg.STATE_CHANGE
  if st = 10 ∨ st = 11 then x.driveSafe
  else if old = 10 then x.driveRelease else x

/-- A value of ACT 0 or ACT 1 owed by the Landing (R220): it waits for the due instant of its loop's next sample, and is
queued at once where the map names no loop. -/
def Head.landAct (c : Ctx) (out : Nat) (v : Int) (x : Head) : Head :=
  let n := if out = 0 then x.r LandReg.FOCUS_LOOP else x.r LandReg.TRACK_LOOP
  if x.namesLoop n then { x with land := { x.land with acts := x.land.acts ++ [(out, v)] } }
  else x.act c .landing out v c.ns n

/-- "Managed loops off" (R217). -/
def Head.managedOff (c : Ctx) (x : Head) : Head :=
  let x := [LandReg.FOCUS_LOOP, LandReg.TRACK_LOOP, LandReg.FOLLOW_LOOP, LandReg.TILT_R_LOOP,
    LandReg.TILT_T_LOOP].foldl (fun x f => x.loopEnable (x.r f) false) x
  let x := (x.landAct c 0 (x.ri LandReg.FSW_START)).landAct c 1 0
  let x := ((x.put LandReg.BAND_KNOWN false).w LandReg.FSTAT 0).w LandReg.TSTAT 0
  { x with land := { x.land with seekOn := false, jumpDir := 0, jumpPhase := 0, sweepV := none, laserAcks := 0 } }

/-- The head enters SAFE (R217): slot 1 stops, managed loops off, a running command ends ABORTED. After a link loss
(`lost`) an open frame goes on with erasures, until its close or until R48 stops the schedule (R157). -/
def Head.enterSafe (c : Ctx) (lost : Bool) (x : Head) : Head :=
  let h := x.r LandReg.HSTATE
  if h = 0 ∨ h = 10 ∨ h = 11 then x
  else ((((x.slot1Off c lost).managedOff c).cmdEnd 10).setHstate 10).refresh c

/-- A SAFE cause is kept while it persists (R91). -/
def Head.safeKept (c : Ctx) (cause : Nat) (x : Head) : Head :=
  { x with riser := { x.riser with
      safeSince := if x.riser.causes.isEmpty then c.now else x.riser.safeSince
      causes := if x.riser.causes.contains cause then x.riser.causes else x.riser.causes ++ [cause] } }

/-- A SAFE cause for the head is recognised (R91): it is kept while it persists and shown as SAFE_CAUSE; write gates
close, a descriptor is aborted with cause 3 (R188), and the Landing goes to SAFE (R217). -/
def Head.safeCause (c : Ctx) (cause : Nat) (x : Head) : Head :=
  let x := x.safeKept c cause
  (((x.w RiserReg.SAFE_CAUSE cause).writeAbort c 3).enterSafe c (cause == 4))

/-- A SAFE cause ends. -/
def Head.safeEnds (cause : Nat) (x : Head) : Head :=
  { x with riser := { x.riser with causes := x.riser.causes.filter (· ≠ cause) } }

/-- A SAFE cause with its log record: causes 3 and 5 are not logged per head, nor one that already persists (R217,
R453, R454). A head in reset keeps the cause for its release, and nothing else happens in it (R91, R505). -/
def State.safeHead (h : Fin 32) (cause : Nat) (s : State) : State :=
  let old := (s.head h).riser.causes.contains cause
  if (s.head h).inReset then s.onHead h (Head.safeKept (s.ctx h) cause)
  else
  let s := s.onHead h fun x => x.safeCause (s.ctx h) cause
  if old ∨ cause = 3 ∨ cause = 5 then s else s.log (tileOf h) 0x20 h cause 0

/-- The head enters FAULT (R217): SAFE is ordered with cause 1, slot 1 stops, managed loops off, a running command
ends ABORTED. -/
def Head.enterFault (c : Ctx) (x : Head) : Head :=
  let h := x.r LandReg.HSTATE
  if h = 0 ∨ h = 11 then x
  else
    let x := (((x.stopSlot1 c).managedOff c).cmdEnd 10)
    let x := (x.setHstate 11).flag LandReg.FAULT_ENTERED
    let x := { x with land := { x.land with safeOrdered := true } }
    ((x.safeCause c 1)).refresh c

/-- Entry into FAULT with its log record: what routed it (1 INPUTS[4], 2 OC_TRIP, 3 OV_TRIP, 4 other) and SCODE
(R454). -/
def State.faultHead (h : Fin 32) (what : Nat) (s : State) : State :=
  let st := (s.head h).r LandReg.HSTATE
  if st = 0 ∨ st = 11 then s
  else
    let s := s.onHead h fun x => x.enterFault (s.ctx h)
    s.log (tileOf h) 0x21 h what ((s.head h).r SpinReg.SCODE)

/-- No layer jump runs any more. -/
def Head.jumpOff (x : Head) : Head := { x with land := { x.land with jumpDir := 0, jumpPhase := 0 } }

/-- The head falls back to FOCUS with focus locked (R217): slot 1 stops, tracking and follow loops off, ACT 1 = 0,
BAND_KNOWN = 0, and a running command ends with `code`. A jump that is still moving the corrector is given up; one whose
kick was sent goes on to its lock (DESIGN CHOICE, log entry 20). -/
def Head.toFocus (c : Ctx) (code : Nat) (x : Head) : Head :=
  let x := (x.stopSlot1 c)
  let x := (x.loopEnable (x.r LandReg.TRACK_LOOP) false).loopEnable (x.r LandReg.FOLLOW_LOOP) false
  let x := ((x.landAct c 1 0).put LandReg.BAND_KNOWN false).w LandReg.TSTAT 0
  let x := if x.r LandReg.FSTAT = 5 then (x.w LandReg.FSTAT 3).jumpOff else x
  let x := { x with land := { x.land with seekOn := false } }
  (((x.cmdEnd code).setHstate 4).refresh c)

/-- The head falls back to FOCUS with focus retracted (R217): slot 1 stops, managed loops off, lasers off, and a
running command ends with `code`. -/
def Head.toFocus0 (c : Ctx) (code : Nat) (x : Head) : Head :=
  let x := ((x.stopSlot1 c).managedOff c).lasersOff c
  ((x.cmdEnd code).setHstate 4).refresh c

/-- The states TRACK, READY, READ, WRITE, and CALIB entered from READY. -/
def Head.tracking (x : Head) : Bool :=
  let h := x.r LandReg.HSTATE
  h == 5 || h == 6 || h == 7 || h == 8 || (h == 9 && x.land.origin == 6)

/-- A failed seek (R232): the head stays in FOCUS with focus locked, under the TRACK_LOST row of R217. -/
def Head.seekFail (c : Ctx) (code : Nat) (x : Head) : Head := x.toFocus c code

/-- FOCUS_LOST acts (R217, R228): counted, and the head falls to FOCUS with focus retracted. -/
def Head.focusLost (c : Ctx) (code : Nat) (x : Head) : Head :=
  let x := (x.flag LandReg.FOCUS_LOST).bump LandReg.FOCUS_LOST_COUNT 1
  let h := x.r LandReg.HSTATE
  if h = 4 ∨ x.tracking then x.toFocus0 c code else x

/-- The report of a Landing's sled move (R232, R273): complete starts the settle step, anything else ends the seek
with SLED_FAIL. -/
def Head.sledReport (c : Ctx) (done : Bool) (x : Head) : Head :=
  if x.land.seekOn ∧ x.r LandReg.TSTAT = 2 then
    if done then
      { (x.w LandReg.TSTAT 3) with land := { x.land with seekAt := c.cyc } } |>.refresh c
    else x.seekFail c 13
  else x

/-- A generator's motion ends, with the report to the Landing where it asked for the move (R273). -/
def Head.genDone (c : Ctx) (g : Fin 2) (code : Nat) (x : Head) : Head :=
  let own := x.b (StepReg.OWNER g)
  let x := (x.genEnd g code).put (StepReg.OWNER g) false
  if own then x.sledReport c (code = 0) else x

end Sys2Proof.Machine
end

