-- ==== Sys2Proof/Machine/Operands.lean ====
section
/-! DEFINITION. Where engines take their operands from: the arithmetic primitives of R192, the fields of the servo and
telemetry area (R72), and the bits of a word. -/

namespace Sys2Proof.Machine

/-- clamp of R192: the lower limit is tested first. -/
def clampLow (v lo hi : Int) : Int := if v < lo then lo else if hi < v then hi else v

/-- The limit of a signed 32-bit value: sat32 of R192, saturate32 of R44. -/
def sat32 (i : Int) : Int := clampInt (-2147483648) 2147483647 i

/-- The basic term T(c, x, s) of R192: rounded to nearest, halves upwards. -/
def term (c x : Int) (s : Nat) : Int := (c * x + (if s = 0 then 0 else 2 ^ (s - 1))) / 2 ^ s

/-- The limit of a signed 64-bit value (R213). -/
def sat64 (i : Int) : Int := clampInt (-9223372036854775808) 9223372036854775807 i

/-- The sign of a number: -1, 0 or 1. -/
def signOf (i : Int) : Int := if i < 0 then -1 else if i = 0 then 0 else 1

/-- Bits `hi` down to `lo` of a servo area (R72). -/
def areaBits (a : BitVec 800) (hi lo : Nat) : Nat := (a.toNat >>> lo) % 2 ^ (hi + 1 - lo)

/-- A signed field of a servo area (R72). -/
def areaSigned (a : BitVec 800) (hi lo : Nat) : Int := signedOf (hi + 1 - lo) (areaBits a hi lo)

/-- MOTOR_ANGLE (R72). -/
def srvMotor (a : BitVec 800) : Nat := areaBits a 23 0
/-- ANGLE_STAMP (R72). -/
def srvStamp (a : BitVec 800) : Nat := areaBits a 34 24
/-- ANGLE_VALID (R72). -/
def srvAngleValid (a : BitVec 800) : Bool := areaBits a 35 35 == 1
/-- FOCUS_ERR (R72). -/
def srvFocusErr (a : BitVec 800) : Int := areaSigned a 51 36
/-- FOCUS_SUM (R72). -/
def srvFocusSum (a : BitVec 800) : Nat := areaBits a 67 52
/-- TILT_RAD (R72). -/
def srvTiltRad (a : BitVec 800) : Int := areaSigned a 83 68
/-- TILT_TAN (R72). -/
def srvTiltTan (a : BitVec 800) : Int := areaSigned a 99 84
/-- I_A (R72). -/
def srvIa (a : BitVec 800) : Int := areaSigned a 115 100
/-- I_B (R72). -/
def srvIb (a : BitVec 800) : Int := areaSigned a 131 116
/-- V_BUS (R72). -/
def srvBus (a : BitVec 800) : Nat := areaBits a 147 132
/-- SLED_POS (R72). -/
def srvSled (a : BitVec 800) : Int := areaSigned a 179 148
/-- SA_POS (R72). -/
def srvSa (a : BitVec 800) : Int := areaSigned a 195 180
/-- STRIPE[i] (R72). -/
def srvStripe (a : BitVec 800) (i : Nat) : Nat := areaBits a (196 + 16 * i + 15) (196 + 16 * i)
/-- INPUTS (R72). -/
def srvInputs (a : BitVec 800) : Nat := areaBits a 339 324
/-- ACK[i] (R72). -/
def srvAck (a : BitVec 800) (i : Nat) : Nat := areaBits a (340 + 12 * i + 11) (340 + 12 * i)
/-- SPARE_STATE (R72). -/
def srvSpare (a : BitVec 800) : Nat := areaBits a 393 388
/-- WRITE_ABORT (R72). -/
def srvAbort (a : BitVec 800) : Nat := areaBits a 395 394
/-- WRITE_ACTIVE (R72). -/
def srvActive (a : BitVec 800) : Bool := areaBits a 396 396 == 1
/-- TELEM[i] (R72). -/
def srvTelem (a : BitVec 800) (i : Nat) : Nat := areaBits a (400 + 32 * i + 31) (400 + 32 * i)

/-- A register field in which 0 acts as 1. -/
def atLeast1 (n : Nat) : Nat := max 1 n

/-- CORE cycles of `n` ns, rounded up: 1.6 cycles per ns (R28). -/
def cyclesOfNs (n : Nat) : Nat := (n * 8 + 4) / 5

/-- CORE cycles of `n` µs (R28). -/
def cyclesOfUs (n : Nat) : Nat := n * cyclesPerUs

/-- CORE cycles of `n` ms (R28). -/
def cyclesOfMs (n : Nat) : Nat := n * (1000 * cyclesPerUs)

/-- Division of integers towards zero. -/
def divZero (a b : Int) : Int := if a < 0 then -((-a) / b) else a / b

/-- Division rounded to nearest, halves away from zero (R273). -/
def divNear (a b : Int) : Int := if a < 0 then -((2 * (-a) + b) / (2 * b)) else (2 * a + b) / (2 * b)

end Sys2Proof.Machine
end

