-- ==== Sys2Proof/Machine/Angle.lean ====
section
/-! DEFINITION. The angle base (R44 to R52), the schedules and which event fires next (R53 to R60), and the spare
switch points (R62). -/

namespace Sys2Proof.Machine

/-- One revolution in 2^-24 counts: 2^48 (R44). -/
def rev48 : Int := 2 ^ 48

/-- W, signed 8.24 counts per ns (R44). -/
def Head.omega (x : Head) : Int := x.ri AngleReg.W

/-- The wrap of R44 into -2^47 to 2^47 - 1. -/
def wrap48 (i : Int) : Int := signedOf 48 (unsignedOf 48 i)

/-- The wrap of R49 and R51 into -2^23 to 2^23 - 1 counts. -/
def wrap24 (i : Int) : Int := signedOf 24 (unsignedOf 24 i)




/-- The schedule position at package time `t` (1/16 ns), in 2^-24 counts, not reduced (R44). -/
def Head.posAt (x : Head) (t : Int) : Int := x.angle.pos + x.omega * (t - x.angle.tPrev) / 16

/-- The angle base at package time `t`: the integer part of the position, modulo one revolution (R44). -/
def Head.angleAt (x : Head) (t : Int) : Nat := unsignedOf 24 (x.posAt t / 2 ^ 24)

/-- The index crossing last taken follows a backward motion or a step: a multiple that lies ahead again will be
crossed again (R59). -/
def Head.syncTurn (x : Head) (stepped : Bool) (p : Int) : Head :=
  let t := p / rev48
  if stepped || decide (t < x.angle.turn) then { x with angle := { x.angle with turn := t } } else x

/-! ### Entries of a schedule -/

/-- The directory entry of a schedule: first entry and length (R509). -/
def Head.schedDir (x : Head) (n : Nat) : Nat × Nat :=
  let v := x.schedMem.readLE (8 * n) 8
  (bitsOf v 13 0, bitsOf v 30 16)

/-- Byte offset of entry `i` in the schedule memory (R509). -/
def entryByte (i : Nat) : Nat := 0x200 + 8 * i

/-- Entry `i` of the schedule memory (R53). -/
def Head.entry (x : Head) (i : Nat) : Nat := x.schedMem.readLE (entryByte i) 8

/-- REV × 2^24 + ANGLE of an entry (R53). -/
def entryPos (e : Nat) : Nat := bitsOf e 27 24 * 2 ^ 24 + bitsOf e 23 0

/-- TARGET of an entry (R53). -/
def entryTarget (e : Nat) : Nat := bitsOf e 33 28

/-- TYPE of an entry (R53). -/
def entryType (e : Nat) : Nat := bitsOf e 39 34

/-- ARG of an entry (R53). -/
def entryArg (e : Nat) : Nat := bitsOf e 63 40

/-- The spot offset of a beam position under the last ZONE_SELECT (R55, R61, R509): its zone field picks one of the
offset tables of regions 0 to 15, so the table of region 16 is never in force for a schedule (DEDUCED, log entry 125). -/
def Head.spotOffset (x : Head) (b : Nat) : Int :=
  signedOf 24 (x.chanMem.readLE (0x44000 + 4 * ((x.angle.layer * 17 + x.angle.zone) * 32 + b)) 3)

/-- OFF of an entry for TARGET `g` at package time `t` (R55): the spare's follows the position it covers then. -/
def Head.offset (x : Head) (t : Int) (g : Nat) : Int :=
  if g < 32 then x.spotOffset g
  else if g = 32 then (match x.coveredAt t with | some b => x.spotOffset b | none => 0)
  else 0

/-- The targets an entry acts on: TARGET 33 stands for positions 0 to 31 (R55). -/
def entryTargets (e : Nat) : List Nat := if entryTarget e = 33 then List.range 32 else [entryTarget e]

/-- An event of a running slot that can fire. -/
structure Fire where
  slot : Nat
  index : Nat
  target : Nat
  whole : Bool
  type : Nat
  arg : Nat
  rel : Int
  pos : Int
  due : Nat
  te : Int
  bad : Bool
deriving DecidableEq, Repr

/-- The three types that act at the head-end and fire LEAD_NS ahead (R58). -/
def leadType (t : Nat) : Bool := t == 3 || t == 4 || t == 0x0B

/-- LEAD_NS as it acts: 500 to 4 000 (R52). -/
def Head.lead (x : Head) : Nat := max 500 (min 4000 (x.r AngleReg.LEAD_NS))

/-- The position at which an event of type `ty` fires: its effective position, or for the types that act at the head-end
the one LEAD_NS ahead of it (R58). -/
def Head.firePos (x : Head) (ty : Nat) (pos : Int) : Int := if leadType ty then pos - x.omega * x.lead else pos

/-- Package time at which P equals or passes position `p`, in whole 1/16 ns, the tracker's state being what it is (R44). Only
for W > 0. -/
def Head.reachTime (x : Head) (p : Int) : Int := x.angle.tPrev - (-(16 * (p - x.angle.pos))) / max 1 x.omega

/-- The CORE cycle in which P first equalled or passed position `p`: the one in which package time came to that instant, and
no earlier than the tracker's last change (R44, R57). Only for W > 0. -/
def Head.passedAt (x : Head) (c : Ctx) (p : Int) : Nat := max (c.cycleAt (x.reachTime p).toNat) x.angle.trackAt

/-- The due cycle of an event that fell due under an earlier state of the tracker. -/
def Head.owedAt (x : Head) (slot i g : Nat) : Option Nat :=
  (x.angle.owed.find? fun o => o.slot == slot && o.index == i && o.target == g).map (·.due)

/-- Entry `i` of a slot's run for one target, with its effective position (R55), the CORE cycle at which it falls or
fell due (R57) and its crossing time (R58). Only for W > 0. -/
def Head.fireOf (x : Head) (c : Ctx) (slot : Nat) (s : Slot) (first i g : Nat) : Fire :=
  let e := x.entry (first + i)
  let ty := entryType e
  let rel := (entryPos e : Int) + x.offset c.now g
  let pos := (s.startTurn * 2 ^ 24 + rel) * 2 ^ 24
  { slot := slot, index := i, target := g, whole := entryTarget e = 33, type := ty, arg := entryArg e, rel := rel,
    pos := pos, due := (x.owedAt slot i g).getD (x.passedAt c (x.firePos ty pos)),
    te := (x.angle.tPrev : Int) + (pos - x.angle.pos) * 16 / max 1 x.omega,
    bad := x.schedMem.bad (entryByte (first + i)) 8 }

/-- The event has fallen due: P has reached its position (R57, R58), or had done so before the tracker last changed. -/
def Head.reached (x : Head) (c : Ctx) (f : Fire) : Bool :=
  (x.owedAt f.slot f.index f.target).isSome || decide (x.firePos f.type f.pos ≤ x.posAt c.now)

/-- The state of a slot. -/
def Head.slotOf (x : Head) (n : Nat) : Slot := if n = 0 then x.angle.slot0 else x.angle.slot1

/-- The state of a slot is changed. -/
def Head.onSlotOf (n : Nat) (f : Slot → Slot) (x : Head) : Head :=
  if n = 0 then { x with angle := { x.angle with slot0 := f x.angle.slot0 } }
  else { x with angle := { x.angle with slot1 := f x.angle.slot1 } }

/-- Every event of a slot's schedule that has neither fired nor been skipped in this run, in table order. -/
def Head.unfired (x : Head) (c : Ctx) (n : Nat) : List Fire :=
  let s := x.slotOf n
  let (first, len) := x.schedDir s.sched
  ((List.range len).flatMap fun i =>
    (entryTargets (x.entry (first + i))).map fun g => x.fireOf c n s first i g).filter
      fun f => !s.done.contains (f.index, f.target)

/-- The gate of the beam channel that a gate close names is open. -/
def Head.closes (x : Head) (f : Fire) : Bool :=
  f.type == 2 && (if f.target ≤ 32 then (x.beam (toSampler f.target)).gate.isSome
    else (List.range 32).any fun i => (x.beam (toSampler i)).gate.isSome)

/-- The events of a slot that can still fire: those of a run that has not met its END (R54), and after a link loss the gate
closes of the frames that were open (R157). -/
def Head.waiting (x : Head) (c : Ctx) (n : Nat) : List Fire :=
  let s := x.slotOf n
  if s.running && !s.ended && !(n == 1 && x.angle.restart1) then x.unfired c n
  else if n == 1 && x.angle.tail then (x.unfired c 1).filter x.closes
  else []

/-- P or W is about to change: the events that have fallen due by now stay due as of their cycles (R57), and any other
falls due no earlier than this cycle. -/
def Head.trackChange (c : Ctx) (x : Head) : Head :=
  let l := if 0 < x.omega then (x.waiting c 0 ++ x.waiting c 1).filter fun f => x.reached c f else []
  { x with angle := { x.angle with trackAt := c.cyc, owed := l.map fun f => ⟨f.slot, f.index, f.target, f.due⟩ } }

/-- Event `f` is taken before `g`: earlier due, then slot 0 first, then table order, then beam order (R57). -/
def Fire.before (f g : Fire) : Bool :=
  if f.due ≠ g.due then decide (f.due < g.due)
  else if f.slot ≠ g.slot then decide (f.slot < g.slot)
  else if f.index ≠ g.index then decide (f.index < g.index)
  else decide (f.target < g.target)

/-- An event is done with for this run. -/
def Head.markDone (f : Fire) (x : Head) : Head :=
  x.onSlotOf f.slot fun s => { s with done := (f.index, f.target) :: s.done }

/-- `n` events were not fired: SKIP_COUNT and SKIP (R52). -/
def Head.skip (n : Nat) (x : Head) : Head :=
  if n = 0 then x else (x.bump AngleReg.SKIP_COUNT n).flag AngleReg.SKIP

/-- Events whose effective position is below 0 never fire, nor does a due entry that holds an uncorrectable byte; each
adds one to SKIP_COUNT (R56, R57). -/
def Head.dropBad (c : Ctx) (x : Head) : Head :=
  let l := (x.waiting c 0 ++ x.waiting c 1).filter fun f => decide (f.rel < 0) || (f.bad && x.reached c f)
  (l.foldl (fun x f => x.markDone f) x).skip l.length

/-- The event that fires now: while W > 0, of those P has reached the first in the order of R57; no more than eight in
one CORE cycle. -/
def Head.nextFire (c : Ctx) (x : Head) : Option Fire :=
  if 0 < x.omega ∧ ¬ (x.angle.fireCycle = c.cyc ∧ 8 ≤ x.angle.fireCount) then
    let l := (x.waiting c 0 ++ x.waiting c 1).filter fun f => x.reached c f
    l.foldl (fun b f => match b with
      | none => some f
      | some g => if f.before g then some f else some g) none
  else none

/-- The first due event fires if its type is `ty`: it is done with for this run, and one fired more than two CORE
cycles late is counted (R57). Where the first due event is of another type, none of type `ty` fires now. -/
def Head.takeEvent (c : Ctx) (ty : Nat) (x : Head) : Option (Fire × Head) :=
  let x := x.dropBad c
  match x.nextFire c with
  | none => none
  | some f =>
    if f.type = ty then
      let x := x.markDone f
      let n := if x.angle.fireCycle = c.cyc then x.angle.fireCount + 1 else 1
      let x := { x with angle := { x.angle with fireCycle := c.cyc, fireCount := n } }
      let late := c.cyc - f.due
      let x := if 2 < late then
          ((x.bump AngleReg.LATE_COUNT 1).flag AngleReg.LATE).w AngleReg.LATE_MAX
            (max (x.r AngleReg.LATE_MAX) (min late 65535))
        else x
      some (f, x)
    else none

/-! ### Steps and samples -/

/-- P steps by `d` (R49), whatever W is: entries jumped over, from where P stands now, in a forward step do not fire and
are counted; a step is never an index crossing. -/
def Head.stepPos (c : Ctx) (d : Int) (x : Head) : Head :=
  let x := x.trackChange c
  let p := x.posAt c.now
  let l := (x.waiting c 0 ++ x.waiting c 1).filter fun f =>
    decide (p < f.pos ∧ f.pos ≤ p + d) && (x.owedAt f.slot f.index f.target).isNone
  let x := (l.foldl (fun x f => x.markDone f) x).skip l.length
  let x := { x with angle := { x.angle with pos := x.angle.pos + d } }
  x.syncTurn true (x.posAt c.now)

/-- The rate derived from two motor samples, `d` counts and `dt` ns apart, in signed 8.24 counts/ns (R51). -/
def derivedRate (d dt : Int) : Int := sat32 (if dt = 0 then Config.stillRate d else Int.fdiv (d * 2 ^ 24) dt)

/-- A motor sample on the real source: M in counts, taken at `tk` (1/16 ns, whole ns). The first after the source took
effect gives P, the second W and VALID (R51, R59); every later one is the tracker of R44. It ends holdover (R48). -/
def Head.motorSample (c : Ctx) (m tk : Nat) (x : Head) : Head :=
  if x.b AngleReg.VIRTUAL then x
  else
    let meas : Int := (((m + x.r AngleReg.DISC_OFFSET) % 2 ^ 24 * 2 ^ 24 : Nat) : Int)
    let x := { x with angle := { x.angle with arrived := c.now, missing := 0 } }
    let x := x.put AngleReg.HOLDOVER false
    if x.angle.srcSamples = 0 then
      let x := { x with angle := { x.angle with lost := false, srcSamples := 1, firstMeas := (meas / 2 ^ 24).toNat } }
      let x := { x with angle := { x.angle with pos := x.posAt tk, tPrev := tk } }
      x.stepPos c (wrap48 (meas - x.angle.pos))
    else
      let dt : Int := ((tk : Int) - x.angle.tPrev) / 16
      if x.angle.srcSamples = 1 then
        let x := x.trackChange c
        let d := wrap24 (meas / 2 ^ 24 - (x.angle.firstMeas : Int))
        let x := x.wi AngleReg.W (derivedRate d dt)
        let x := { x with angle := { x.angle with pos := x.angle.pos + d * 2 ^ 24, tPrev := tk, srcSamples := 2 } }
        (x.put AngleReg.VALID true).syncTurn false (x.posAt c.now)
      else
        let x := x.trackChange c
        let pred := x.angle.pos + x.omega * dt
        let e := wrap48 (meas - pred)
        let p := pred + e / 2 ^ x.r AngleReg.GP
        let w := sat32 (x.omega + e / 2 ^ x.r AngleReg.GW)
        let x := (x.wi AngleReg.W w)
        let x := { x with angle := { x.angle with pos := p, tPrev := tk } }
        x.syncTurn false (x.posAt c.now)

/-- A Riser frame without a motor sample (R48, R75). -/
def Head.motorMissing (x : Head) : Head :=
  { x with angle := { x.angle with missing := x.angle.missing + 1 } }

/-- The virtual source is chosen: ASRC 1, or ASRC 0 or 3 while the drive reports stopped (R50, R52). -/
def Head.wantsVirtual (x : Head) : Bool :=
  match x.r AngleReg.ASRC with
  | 1 => true
  | 2 => false
  | _ => x.b SpinReg.STOPPED

/-- The tracker's origin moves to package time now, with P unchanged at that instant. -/
def Head.anchor (c : Ctx) (x : Head) : Head :=
  let x := x.trackChange c
  { x with angle := { x.angle with pos := x.posAt c.now, tPrev := c.now } }

/-- What a Riser frame boundary does to the source (R50, R51): a change of source takes effect; on the virtual source
W takes VRATE and VALID follows TIME_VALID (R59). -/
def Head.frameBoundary (c : Ctx) (timeValid : Bool) (x : Head) : Head :=
  if x.wantsVirtual then
    let x := (x.anchor c).put AngleReg.HOLDOVER false
    let x := { x with angle := { x.angle with srcSamples := 0, missing := 0, lost := false } }
    let x := ((x.put AngleReg.VIRTUAL true).wi AngleReg.W (x.ri AngleReg.VRATE)).put AngleReg.VALID timeValid
    x.syncTurn false (x.posAt c.now)
  else if x.b AngleReg.VIRTUAL then
    let x := { x with angle := { x.angle with srcSamples := 0, missing := 0, arrived := c.now, lost := false } }
    ((x.anchor c).put AngleReg.VIRTUAL false).put AngleReg.VALID false
  else x

/-! ### Starting and stopping a slot -/

/-- A schedule passes the checks of R56: its directory entry lies in the memory, its entries are in order, and no entry
holds a reserved TYPE or TARGET or an uncorrectable byte. -/
def Head.schedOk (x : Head) (n : Nat) : Bool :=
  let (first, len) := x.schedDir n
  let es := (List.range len).map fun i => x.entry (first + i)
  len != 0 && decide (first + len ≤ 16384)
    && (es.zip es.tail).all (fun p => decide (entryPos p.1 ≤ entryPos p.2))
    && es.all (fun e => decide (entryType e ≤ 0x10) && decide (entryTarget e ≤ 34))
    && !x.schedMem.bad (8 * n) 8 && !x.schedMem.bad (entryByte first) (8 * len)

/-- A run of a slot has ended, and none of its events is owed any more. -/
def Head.dropOwed (n : Nat) (x : Head) : Head :=
  { x with angle := { x.angle with owed := x.angle.owed.filter fun o => o.slot != n } }

/-- Slot 0 restarts at an index crossing: what its previous run left unfired is dropped and counted (R57); a new
number is checked first, and one that fails is refused with ORDER (R56). -/
def Head.slot0Restart (c : Ctx) (x : Head) : Head :=
  let x : Head := if x.angle.slot0.running then x.skip (x.unfired c 0).length else x
  let x : Head := x.dropOwed 0
  let n := x.r AngleReg.SLOT0_SCHED
  if x.angle.slot0Wait then
    let x := { x with angle := { x.angle with slot0Wait := false } }
    if x.schedOk n then
      x.onSlotOf 0 fun _ => { running := true, sched := n, startTurn := x.angle.turn, done := [], ended := false }
    else (x.onSlotOf 0 fun s => { s with running := false, done := [] }).flag AngleReg.ORDER
  else x.onSlotOf 0 fun s => { s with startTurn := x.angle.turn, done := [], ended := false }

/-- The states in which a START is not refused (R236). -/
def Head.startOk (x : Head) : Bool :=
  let h := x.r LandReg.HSTATE
  h == 6 || (h == 1 && x.b LandReg.S1_KIND)

/-- A START that is refused clears itself (R236). -/
def Head.startRefused (x : Head) : Head :=
  (x.put AngleReg.START false).flag LandReg.START_REFUSED

/-- Slot 1 starts at the index crossing that serves its START, or is refused with ORDER (R56); the head goes to READ,
or to CALIB with its origin remembered (R217). -/
def Head.slot1Start (c : Ctx) (x : Head) : Head :=
  let n := x.r AngleReg.SCHED
  let x := x.put AngleReg.START false
  if x.schedOk n then
    let x := (x.dropOwed 1).onSlotOf 1 fun _ =>
      { running := true, sched := n, startTurn := x.angle.turn, done := [], ended := false }
    let x := { x.put AngleReg.RUNNING true with angle := { x.angle with tail := false } }
    let h := x.r LandReg.HSTATE
    let x := if x.b LandReg.S1_KIND then
        { x with land := { x.land with origin := h } } |>.setHstate 9
      else x.setHstate 7
    x.refresh c
  else x.flag AngleReg.ORDER

/-- Slot 1 has stopped: READ and WRITE go back to READY, CALIB to its origin (R217). -/
def Head.slot1Stopped (c : Ctx) (x : Head) : Head :=
  let x := x.stopSlot1 c
  let h := x.r LandReg.HSTATE
  let x := if h = 7 ∨ h = 8 then x.setHstate 6 else if h = 9 then x.setHstate x.land.origin else x
  x.refresh c

/-! ### Writes of the angle registers -/

/-- ALIGN is written with 1 (R46): refused only while a slot 1 schedule runs. One armed before slot 1 starts stays armed
and acts at the next index detection, and a refused one leaves an earlier one standing (DEDUCED, log entry 125). -/
def Head.alignWrite (x : Head) : Head :=
  if x.b AngleReg.RUNNING then x.flag AngleReg.ALIGN_REFUSED else x.put AngleReg.ALIGN true

/-- DISC_OFFSET is written (R49): a step of P on the real source, a stored value on the virtual one. -/
def Head.discOffsetWrite (c : Ctx) (v : Nat) (x : Head) : Head :=
  let d := wrap24 ((v : Int) - x.r AngleReg.DISC_OFFSET)
  let x := x.w AngleReg.DISC_OFFSET v
  if x.b AngleReg.VIRTUAL then x else x.stepPos c (d * 2 ^ 24)

/-- START is written with 1 (R52, R236). -/
def Head.startWrite (x : Head) : Head :=
  if x.startOk then x.put AngleReg.START true else x.startRefused

/-- STOP is written with 1 (R52): slot 1 stops at once, and a START that waits is cancelled. -/
def Head.stopWrite (c : Ctx) (x : Head) : Head := x.slot1Stopped c

/-- SLOT0_SCHED is written (R52, R56): a new value is checked at the next index crossing. -/
def Head.slot0Write (v : Nat) (x : Head) : Head :=
  if v % 64 = x.r AngleReg.SLOT0_SCHED then x
  else { (x.w AngleReg.SLOT0_SCHED v) with angle := { x.angle with slot0Wait := true } }

/-! ### The spare -/

/-- The t_e of the last spare switch sent (R62). -/
def Head.switchTe (x : Head) : Nat := (x.angle.covers.head?.map (·.1)).getD 0

/-- SPARE_ARM is written with 1 (R62): the switch is armed, replacing one not yet carried out; naming the position the
spare already covers completes at once, and the one to which a switch is on its way completes with that switch. A cover
after a release waits for the release's t_e. -/
def Head.spareArm (c : Ctx) (x : Head) : Head :=
  let k := x.r AngleReg.SPARE_K
  let want : Option Nat := if k < 32 then some k else none
  let have' := x.coveredNow
  if want = have' && decide (x.switchTe ≤ c.now) then
    let x := { x with angle := { x.angle with spare := none } }
    (x.put AngleReg.SPARE_ARM false).flag AngleReg.SPARE_DONE
  else
    let plan : SparePlan := if want = have' then { release := none, cover := none, notBefore := x.switchTe }
      else { release := have', cover := want, notBefore := x.switchTe }
    { (x.put AngleReg.SPARE_ARM true) with angle := { x.angle with spare := some plan } }

/-- A SPARE_MUX is sent with its t_e, and the stream switches from then on (R62). -/
def Head.spareSend (c : Ctx) (te : Nat) (k : Option Nat) (x : Head) : Head :=
  let x := x.issue c { RCmd.reset with op := 3, timed := true, te := te, arg := k.getD 32, src := .landing }
  { x with angle := { x.angle with covers := (te, k) :: x.angle.covers } }

/-- A SPARE_POINT of beam position `p` fires (R62): it serves the release of the position covered, or the cover that
waits for `p`. A switch whose last command is sent stays armed until its t_e. -/
def Head.sparePoint (c : Ctx) (p : Nat) (te : Nat) (x : Head) : Head :=
  match x.angle.spare with
  | none => x
  | some a =>
    match a.release, a.cover with
    | some j, k =>
      if j = p then
        let x := x.spareSend c te none
        { x with angle := { x.angle with spare := some { release := none, cover := k, notBefore := te } } }
      else x
    | none, some k =>
      if k = p ∧ a.notBefore ≤ c.now then
        let x := x.spareSend c te (some k)
        { x with angle := { x.angle with spare := some { release := none, cover := none, notBefore := te } } }
      else x
    | none, none => x

/-- The sampler whose stream a beam channel takes up with the last switch sent (R62): the spare, or the one released. -/
def Head.switchedTo (x : Head) : Nat :=
  match x.angle.covers with
  | (_, none) :: (_, some j) :: _ => j
  | _ => 32

/-- The first sample at or after the t_e of the last switch, of the stream that is taken up: SPARE_DONE, and SPARE_ARM
clears (R62). -/
def Head.spareReached (i : Nat) (t : Int) (x : Head) : Head :=
  match x.angle.spare with
  | some a =>
    if a.release = none ∧ a.cover = none ∧ i = x.switchedTo ∧ (a.notBefore : Int) ≤ t then
      let x := { x with angle := { x.angle with spare := none } }
      (x.put AngleReg.SPARE_ARM false).flag AngleReg.SPARE_DONE
    else x
  | none => x

end Sys2Proof.Machine
end

