-- ==== Sys2Proof/Machine/Fixed.lean ====
section
/-! DEFINITION. Fixed-point numbers with 128 fraction bits for the fits of R289 and R291: square root, sine, cosine and
arc tangent. A fitted value rounded from these differs from the exact one only where the exact one lies within about
2^-100 of a rounding step (DESIGN CHOICE, log entry 29). -/

namespace Sys2Proof.Machine

/-- 1.0. -/
def fxOne : Int := 2 ^ 128

/-- 2π. -/
def fxTwoPi : Int := 2 * 1069028584064966747859680373161870783301

/-- A product of two fixed-point numbers. -/
def fxMul (a b : Int) : Int := a * b / fxOne

/-- A quotient of two fixed-point numbers, or of two numbers of one unit. -/
def fxDiv (a b : Int) : Int := a * fxOne / b

/-- The bits of a square root, from bit `k - 1` down. -/
def sqrtBits (n : Nat) : Nat → Nat → Nat
  | 0, r => r
  | k + 1, r => if (r + 2 ^ k) * (r + 2 ^ k) ≤ n then sqrtBits n k (r + 2 ^ k) else sqrtBits n k r

/-- The square root of a natural number, rounded down. -/
def isqrt (n : Nat) : Nat := sqrtBits n (n.log2 / 2 + 1) 0

/-- The square root of a fixed-point number. -/
def fxSqrt (a : Int) : Int := (isqrt (a * fxOne).toNat : Int)

/-- A sum of terms t, -t x²/((k+1)(k+2)), and so on. -/
def fxSeries (x2 : Int) : Nat → Int → Int → Int
  | 0, _, _ => 0
  | n + 1, k, t => t + fxSeries x2 n (k + 2) (-(fxMul t x2) / ((k + 1) * (k + 2)))

/-- The sine of an angle in radians, from -2π to 2π. -/
def fxSin (a : Int) : Int := fxSeries (fxMul a a) 48 1 a

/-- The cosine of an angle in radians, from -2π to 2π. -/
def fxCos (a : Int) : Int := fxSeries (fxMul a a) 48 0 fxOne

/-- `num / den` of a turn in radians. -/
def fxTurn (num den : Int) : Int := fxTwoPi * num / den

/-- The series of the arc tangent: t / k - t x² / (k + 2) and so on. -/
def fxAtanSeries (x2 : Int) : Nat → Int → Int → Int
  | 0, _, _ => 0
  | n + 1, k, t => t / k + fxAtanSeries x2 n (k + 2) (-(fxMul t x2))

/-- The tangent of half the angle whose tangent is `t`. -/
def fxHalf (t : Int) : Int := fxDiv t (fxOne + fxSqrt (fxOne + fxMul t t))

/-- The arc tangent of a number from -1 to 1, in radians. -/
def fxAtan (t : Int) : Int :=
  let u := fxHalf (fxHalf t)
  4 * fxAtanSeries (fxMul u u) 64 1 u

/-- The angle of the point (x, y) that is not the origin, in radians from -π to π; the unit of x and y does not
matter. -/
def fxAngle (y x : Int) : Int :=
  let r : Int := (isqrt ((x * x + y * y) * 2 ^ 256).toNat : Int)
  let y' := y * 2 ^ 128
  if 0 ≤ x then 2 * fxAtan (fxDiv y' (r + x * 2 ^ 128))
  else
    let half := fxTwoPi / 2
    if y < 0 then -half - 2 * fxAtan (fxDiv y' (r - x * 2 ^ 128)) else half - 2 * fxAtan (fxDiv y' (r - x * 2 ^ 128))

/-- `n / d` rounded to nearest, halves upwards, for d > 0. -/
def nearest (n d : Int) : Int := (2 * n + d) / (2 * d)

/-- `n / d` rounded to nearest for d of either sign. -/
def nearestOf (n d : Int) : Int := if d < 0 then nearest (-n) (-d) else nearest n d

end Sys2Proof.Machine
end

