-- ==== Sys2Proof/Machine/Spin.lean ====
section
/-! DEFINITION. The spindle drive of one head (09_spindle_drive.md): motor tracker, commutation, speed profile, catch and
probe, stopping, the bus and current interlocks, and rotor alignment. -/

namespace Sys2Proof.Machine

/-! ### Motor tracker -/

/-- W_m, signed 8.24 counts per ns (R239). -/
def Head.wm (x : Head) : Int := x.ri SpinReg.W_M

/-- The motor tracker's position at package time `t` (1/16 ns), in 2^-24 counts (R239). -/
def Head.motorAt (x : Head) (t : Int) : Int := x.spin.theta + x.wm * (t - x.spin.tPrev) / 16

/-- θm at package time `t`, in counts (R239). -/
def Head.thetaM (x : Head) (t : Int) : Nat := unsignedOf 24 (x.motorAt t / 2 ^ 24)

/-- POLE_PAIRS as it acts: 1 to 32 (R263). -/
def Head.polePairs (x : Head) : Nat := max 1 (min 32 (x.r SpinReg.POLE_PAIRS))

/-- θe at package time `t` (R242). -/
def Head.thetaE (x : Head) (t : Int) : Nat := (x.polePairs * x.thetaM t + x.r SpinReg.ELEC_OFS) % 2 ^ 24

/-- A frame with ANGLE_VALID = 1 updates the motor tracker (R239): `m` in counts, taken at `tk` (1/16 ns). MVALID stays 0
while an angle fault lasts (R240). -/
def Head.trackMotor (m tk : Nat) (x : Head) : Head :=
  let meas : Int := ((m * 2 ^ 24 : Nat) : Int)
  let dt : Int := ((tk : Int) - x.spin.tPrev) / 16
  let store (x : Head) (p : Int) (w : Int) (n : Nat) : Head :=
    let x := { x with spin := { x.spin with theta := p, tPrev := tk, samples := n } }
    (x.wi SpinReg.W_M w).w SpinReg.MOTOR_ANG (unsignedOf 24 (p / 2 ^ 24))
  if x.spin.samples = 0 then store x meas 0 1
  else if x.spin.samples = 1 then
    let d := wrap24 (m - x.spin.theta / 2 ^ 24)
    (store x meas (derivedRate d dt) 2).put SpinReg.MVALID (!x.spin.fault)
  else
    let pred := x.spin.theta + x.wm * dt
    let e := wrap48 (meas - pred)
    store x ((pred + e / 2 ^ x.r SpinReg.MGP) % rev48) (sat32 (x.wm + e / 2 ^ x.r SpinReg.MGW)) 2

/-! ### Commutation -/

/-- i_d and i_q from the phase currents at electrical angle `th` (R242). -/
def parkCurrents (ia ib : Int) (th : Nat) : Int × Int :=
  let k := th / 4096
  let s := sine k
  let c := cosine k
  let alpha := ia * 2 ^ 15
  let beta := term 1239850262 ((ia + 2 * ib) * 2 ^ 14) 30
  (sat32 (term c alpha 30 + term s beta 30), sat32 (term c beta 30 - term s alpha 30))

/-- The voltage limit of R243: the limited pair, and whether it changed. -/
def limitVoltage (vLim : Nat) (vd vq : Int) : Int × Int × Bool :=
  let l : Int := min vLim 1239850262
  if l * l < vd * vd + vq * vq then
    let d := clampInt (-l) l vd
    let r : Int := (Nat.sqrt (l * l - d * d).toNat : Nat)
    let q := clampInt (-r) r vq
    (d, q, d ≠ vd || q ≠ vq)
  else (vd, vq, false)

/-- The three duties of R244 for v_d, v_q and an electrical angle. -/
def duties (vd vq : Int) (th : Nat) : Int × Int × Int :=
  let k := th / 4096
  let s := sine k
  let c := cosine k
  let va := sat32 (term c vd 30 - term s vq 30)
  let vb := sat32 (term s vd 30 + term c vq 30)
  let u := va
  let v := sat32 (-(term (2 ^ 29) va 30) + term 929887697 vb 30)
  let w := sat32 (-(term (2 ^ 29) va 30) - term 929887697 vb 30)
  let cm := (max (max u v) w + min (min u v) w) / 2
  let duty (y : Int) : Int := clampLow (2 ^ 30 + y - cm) 0 (2 ^ 31 - 1)
  (duty u, duty v, duty w)

/-- ACT 4, 5 and 6 are queued with their sample time (R244). -/
def Head.sendDuties (c : Ctx) (d : Int × Int × Int) (time : Nat) (x : Head) : Head :=
  let n := x.r SpinReg.IQ_LOOP
  ((x.act c .spindle 4 d.1 time n).act c .spindle 5 d.2.1 time n).act c .spindle 6 d.2.2 time n

/-- The bridge is started (R251): the duties at θe(issue + OUT_LEAD), then BRIDGE 1. -/
def Head.bridgeStart (c : Ctx) (vd vq : Int) (x : Head) : Head :=
  let th := x.thetaE (c.now + 16 * x.r SpinReg.OUT_LEAD)
  (x.sendDuties c (duties vd vq th) c.ns).bridge c 1

/-- v_d of a rotor alignment (R261). -/
def Head.alignVolt (x : Head) : Int := sat32 (term (x.r LoopReg.K_V) (x.ri SpinReg.ALIGN_V) 16)

/-- The three loops are enabled, 0 first written to the reference of ID_LOOP (R241, R250). -/
def Head.driveLoopsOn (x : Head) : Head :=
  (((x.loopRef (x.r SpinReg.ID_LOOP) 0).loopEnable (x.r SpinReg.SPD_LOOP) true).loopEnable
    (x.r SpinReg.ID_LOOP) true).loopEnable (x.r SpinReg.IQ_LOOP) true

/-- DRIVE is entered, with no stop in progress: AT_SPEED has still to be reached, and SPIN_TO runs (R246). -/
def Head.enterDrive (c : Ctx) (x : Head) : Head :=
  let x := x.spinTo 2
  { x.put SpinReg.AT_SPEED false with spin := { x.spin with
    driveAt := c.cyc, atRun := 0, atTimeout := false, stopReq := false
    target := min (x.r SpinReg.SPD_TARGET) (x.r SpinReg.SPD_MAX) } }

/-- A start from rest (R250). -/
def Head.startFromRest (c : Ctx) (x : Head) : Head :=
  let x := ((x.loopZero (x.r SpinReg.SPD_LOOP)).loopZero (x.r SpinReg.ID_LOOP)).loopZero (x.r SpinReg.IQ_LOOP)
  let x := (x.w SpinReg.W_CMD 0).bridgeStart c 0 0
  let x := (x.driveLoopsOn.chopOn).enterDrive c
  { x with spin := { x.spin with stopHeld := false, checkDone := false } }

/-- V_EMF of R255. -/
def Head.emf (x : Head) : Int :=
  let ke := if x.b SpinReg.KE_VALID then x.r SpinReg.KE_RATIO else 4096
  signOf x.wm * ((x.wm.natAbs * x.r SpinReg.VQ_PER_W * ke / 2 ^ 28 : Nat) : Int)

/-- A sync (R255): drive resumes on a turning disc; for a catch the speed loop starts afresh at the present speed. -/
def Head.driveSync (c : Ctx) (forCatch : Bool) (x : Head) : Head :=
  let v := x.emf
  let x := (x.loopZero (x.r SpinReg.ID_LOOP)).loopPreload (x.r SpinReg.IQ_LOOP) (sat32 v)
  let x := if forCatch then (x.loopZero (x.r SpinReg.SPD_LOOP)).wi SpinReg.W_CMD x.wm else x
  let x := x.bridgeStart c 0 (sat32 (term (x.r LoopReg.K_V) v 16))
  (x.driveLoopsOn).enterDrive c

/-! ### Catch and probe -/

/-- The catch succeeds (R249): the Landing goes from CATCH to SPINUP (R217). -/
def Head.catchDone (c : Ctx) (x : Head) : Head :=
  let x := ((x.put SpinReg.CATCH_RUN false).flag SpinReg.CATCH_DONE).bump SpinReg.CATCH_COUNT 1
  if x.r LandReg.HSTATE = 3 then (x.setHstate 2).refresh c else x

/-- The catch fails with a code (R249): the Landing goes from CATCH to PARKED, and SPIN ends with CATCH_FAIL (R217,
R219). -/
def Head.catchEnds (c : Ctx) (code : Nat) (x : Head) : Head :=
  if x.b SpinReg.CATCH_RUN then
    let x := x.catchFails code
    if x.r LandReg.HSTATE = 3 then ((x.setHstate 1).cmdEnd 9).refresh c else x
  else x

/-- SETTLE is entered (R252): BRIDGE 0, and the settle time runs from the arrival of the frame that carries it. -/
def Head.enterSettle (c : Ctx) (forCatch : Bool) (x : Head) : Head :=
  let x := (x.probeDrop.driveLoopsOff.bridge c 0).spinTo 3
  { x with spin := { x.spin with
    probeCatch := forCatch, settleAt := none, fOn := none, fOff := none, probeAcks := 0, probeSample := none } }

/-- T has changed (R246): AT_SPEED falls, and SPIN_TO runs from now. -/
def Head.retarget (c : Ctx) (t : Nat) (x : Head) : Head :=
  if t ≠ x.spin.target then
    { x.put SpinReg.AT_SPEED false with spin := { x.spin with target := t, driveAt := c.cyc, atTimeout := false, atRun := 0 } }
  else x

/-- T of R245. -/
def Head.speedTarget (x : Head) : Nat :=
  if x.spin.stopReq then 0 else min (x.r SpinReg.SPD_TARGET) (x.r SpinReg.SPD_MAX)

/-- A stop of STOP_MODE 0 begins or is cancelled: T becomes 0, or what the registers give, at once (R245, R246). -/
def Head.stopping (c : Ctx) (v : Bool) (x : Head) : Head :=
  let x : Head := { x with spin := { x.spin with stopReq := v } }
  x.retarget c x.speedTarget

/-- A spin-up request (R248). -/
def Head.spinUp (c : Ctx) (x : Head) : Head :=
  let s := x.r SpinReg.SSTATE
  if s = 0 ∨ s = 1 ∨ s = 5 then x.startFromRest c else x

/-- A catch request (R248): in a STOP_MODE 0 stop it is served at once, the stop being cancelled. -/
def Head.catchRequest (c : Ctx) (x : Head) : Head :=
  let s := x.r SpinReg.SSTATE
  if s = 0 ∨ s = 1 ∨ s = 5 then
    let x := (x.put SpinReg.CATCH_RUN true)
    let x := { x with spin := { x.spin with catchAt := c.cyc, probeTries := 0 } }
    x.enterSettle c true
  else if s = 2 ∧ x.spin.stopReq then
    (x.stopping c false).catchDone c
  else x

/-- The drive stops by its STOP_MODE (R256); while CHOP_BAD = 1 a controlled stop is made by dynamic brake. -/
def Head.stopNow (c : Ctx) (x : Head) : Head :=
  let m := x.r SpinReg.STOP_MODE
  if m = 2 then ((x.driveLoopsOff).bridge c 0).spinTo 1
  else if m = 1 ∨ x.b SpinReg.CHOP_BAD then ((x.driveLoopsOff).bridge c 2).spinTo 5
  else x.stopping c true

/-- A stop request of the Landing (R248, R254): obeyed from DRIVE, and held while a check probe runs. -/
def Head.stopRequest (c : Ctx) (x : Head) : Head :=
  let s := x.r SpinReg.SSTATE
  if s = 2 then x.stopNow c
  else if (s = 3 ∨ s = 4) ∧ ¬ x.spin.probeCatch then { x with spin := { x.spin with stopHeld := true } }
  else x

/-- A stop of STOP_MODE 0 is over: ω_cmd = 0 and STOPPED = 1 in DRIVE (R248). -/
def Head.stopOver (c : Ctx) (x : Head) : Head :=
  if x.r SpinReg.SSTATE = 2 ∧ x.spin.stopReq ∧ x.r SpinReg.W_CMD = 0 ∧ x.b SpinReg.STOPPED then
    let x := ((x.driveLoopsOff).bridge c 0).spinTo 0
    { x with spin := { x.spin with stopReq := false } }
  else x

/-- A check probe ends: the drive returns to DRIVE by a sync, and a stop that waited is carried out (R254). -/
def Head.checkEnds (c : Ctx) (x : Head) : Head :=
  let held := x.spin.stopHeld
  let x := x.driveSync c false
  let x := { x with spin := { x.spin with stopHeld := false } }
  if held then x.stopNow c else x

/-- The windings are left open: the drive coasts (R247). -/
def Head.toCoast (c : Ctx) (x : Head) : Head := (x.probeDrop.bridge c 0).spinTo 1

/-- An interlock of the bus or the currents is due to trip (R259, R260). -/
def Head.tripDue (x : Head) : Bool :=
  decide (atLeast1 (x.r SpinReg.OV_N) ≤ x.spin.ovRun) || decide (atLeast1 (x.r SpinReg.OC_N) ≤ x.spin.ocRun)

/-- A probe was bad (R253): it is repeated once. An interlock that is due comes first, and gives the probe up (R262). -/
def Head.probeFails (c : Ctx) (x : Head) : Head :=
  if x.tripDue then x
  else
  let x := x.flag SpinReg.PROBE_BAD
  let n := x.spin.probeTries + 1
  let x := { x with spin := { x.spin with probeTries := n } }
  if n < 2 then x.enterSettle c x.spin.probeCatch
  else if x.spin.probeCatch then (x.toCoast c).catchEnds c 4
  else (x.put SpinReg.KE_VALID false).checkEnds c

/-- A probe that is not bad is evaluated from its sample (R253). -/
def Head.probeEval (c : Ctx) (iq wm : Int) (x : Head) : Head :=
  let tau : Int := (x.spin.fOff.getD 0 : Nat) - (x.spin.fOn.getD 0 : Nat) - (x.r RiserReg.LAT_DN / 10 : Nat)
  let x :=
    if iq.natAbs < x.r SpinReg.PROBE_MIN ∨ x.r SpinReg.PROBE_K = 0 then x.put SpinReg.KE_VALID false
    else
      let den := tau * wm.natAbs
      let q := if 0 < den then iq.natAbs * x.r SpinReg.PROBE_K / den.toNat
        else Config.probeRatio iq.natAbs (x.r SpinReg.PROBE_K)
      let ok := (decide (iq < 0) && decide (0 < wm)) || (decide (0 < iq) && decide (wm < 0))
      ((x.w SpinReg.KE_RATIO (min 65535 q)).put SpinReg.KE_VALID true).put SpinReg.KE_SIGN_OK ok
  let v := x.b SpinReg.KE_VALID
  let k := x.r SpinReg.KE_RATIO
  let x := x.flag SpinReg.KE_DONE
  let x := x.flagIf (v && (k < x.r SpinReg.KE_LO || x.r SpinReg.KE_HI < k)) SpinReg.KE_OUT
  let x := x.flagIf (v && !x.b SpinReg.KE_SIGN_OK) SpinReg.KE_SIGN
  if x.spin.probeCatch then
    if v && !x.b SpinReg.KE_SIGN_OK then (x.toCoast c).catchEnds c 1
    else if 0 < wm then
      let x := x.driveSync c true
      ({ x with spin := { x.spin with checkDone := true } }).catchDone c
    else (x.bridge c 2).spinTo 5
  else x.checkEnds c

/-- The probe is evaluated, unless an interlock is due (R262), once its sample is there and both its BRIDGE commands have been acknowledged OK, since a refused
or lost one makes it bad (R253). -/
def Head.probeReady (c : Ctx) (x : Head) : Head :=
  match x.spin.probeSample with
  | none => x
  | some p => if x.r SpinReg.SSTATE = 4 ∧ 2 ≤ x.spin.probeAcks ∧ ¬ x.tripDue then x.probeEval c p.1 p.2 else x

/-- Upstream frame F_off arrived good: the probe's sample is taken (R252); `f` is F_off in ns. -/
def Head.probeGood (c : Ctx) (a : BitVec 800) (f : Nat) (x : Head) : Head :=
  let iq := (parkCurrents (srvIa a) (srvIb a) (x.thetaE (16 * f))).2
  { x with spin := { x.spin with probeSample := some (iq, x.wm) } }.probeReady c

/-- A BRIDGE command of the drive that rode the frame at `f` ns is acknowledged OK, or refused or lost (R253). -/
def Head.probeAck (c : Ctx) (ok : Bool) (f : Nat) (x : Head) : Head :=
  if x.r SpinReg.SSTATE = 4 ∧ (x.spin.fOn = some f ∨ x.spin.fOff = some f) then
    if ok then { x with spin := { x.spin with probeAcks := x.spin.probeAcks + 1 } }.probeReady c else x.probeFails c
  else x

/-! ### Angle fault and standstill -/

/-- An angle fault arises (R240, R248). Where an interlock is due, the drive's state is left to it, which comes first
(R262). -/
def Head.angleFault (c : Ctx) (x : Head) : Head :=
  if x.spin.fault then x
  else
    let x := { x.flag SpinReg.ANGLE_FAULT with spin := { x.spin with
      fault := true, seen := false, below := none } }
    let x := (x.put SpinReg.MVALID false).put SpinReg.STOPPED false
    let s := x.r SpinReg.SSTATE
    if x.tripDue then x
    else if s = 2 ∨ s = 3 ∨ s = 4 ∨ s = 6 then
      let x := (((x.w SpinReg.SCODE 5).driveLoopsOff).toCoast c).catchEnds c 3
      { x with spin := { x.spin with stopReq := false, stopHeld := false } }
    else if s = 5 then x.catchEnds c 3
    else if s = 0 then x.spinTo 1
    else x

/-- STOPPED falls (R240, R248). -/
def Head.turning (x : Head) : Head :=
  let x := { x.put SpinReg.STOPPED false with spin := { x.spin with below := none } }
  if x.r SpinReg.SSTATE = 0 then x.spinTo 1 else x

/-- STOPPED rises (R240, R248). -/
def Head.standstill (c : Ctx) (x : Head) : Head :=
  let x := x.put SpinReg.STOPPED true
  let s := x.r SpinReg.SSTATE
  if s = 1 then x.spinTo 0
  else if s = 5 ∧ ¬ x.b SpinReg.CATCH_RUN then (x.bridge c 0).spinTo 0
  else x.stopOver c

/-- |W_m| is below STOP_W while MVALID = 1 (R240). -/
def Head.slow (x : Head) : Bool := x.b SpinReg.MVALID && decide (x.wm.natAbs < x.r SpinReg.STOP_W)

/-- What follows each tracker update: the standstill timer, and a braking catch that is slow enough starts from rest
(R240, R248). -/
def Head.afterMotor (c : Ctx) (x : Head) : Head :=
  let x := if x.slow then
      (if x.spin.below.isNone then { x with spin := { x.spin with below := some c.cyc } } else x)
    else x.turning
  if !x.tripDue ∧ x.r SpinReg.SSTATE = 5 ∧ x.b SpinReg.CATCH_RUN ∧ x.b SpinReg.MVALID ∧ x.wm.natAbs < x.r SpinReg.CATCH_THR then
    (x.startFromRest c).catchDone c
  else x

/-! ### Speed profile -/

/-- The profile update of R245. -/
def Head.profile (x : Head) : Head :=
  let t := x.speedTarget
  let old := x.r SpinReg.W_CMD
  let w1 := if old < t ∧ ¬ x.b SpinReg.VOLT_LIMITED then min (old + x.r SpinReg.SPD_STEP) t else old
  let hold := decide (t < w1) && (x.b SpinReg.CHOP_BAD || decide (x.r SpinReg.VB_REGEN ≤ x.spin.lastBus))
  let w2 := if t < w1 ∧ hold = false then max (w1 - x.r SpinReg.SPD_STEP) t else w1
  let x := x.flagIf (hold && !x.b SpinReg.REGEN_LIMITED) SpinReg.REGEN_LIM
  let x := if hold then x.put SpinReg.REGEN_LIMITED true
    else if t < w1 ∨ w2 = t then x.put SpinReg.REGEN_LIMITED false else x
  let x := x.w SpinReg.W_CMD w2
  let x := { x with spin := { x.spin with aff := (w2 : Int) - old } }
  x.loopRef (x.r SpinReg.SPD_LOOP) w2

/-- Half of the check of R246: |W_m - T| against a multiple of the tolerance. -/
def Head.within (x : Head) (t k : Nat) : Bool :=
  decide ((x.wm - t).natAbs ≤ k * (t * x.r SpinReg.AT_TOL / 1000000))

/-- AT_SPEED's conditions on one speed sample (R246). -/
def Head.speedCheck (c : Ctx) (x : Head) : Head :=
  let t := x.speedTarget
  let x := x.retarget c t
  let x := if !x.within t 2 && x.b SpinReg.AT_SPEED then
      { (x.put SpinReg.AT_SPEED false).flag SpinReg.SPEED_DEV with spin := { x.spin with atRun := 0 } }
    else x
  let owed := decide (atLeast1 (x.r SpinReg.AT_N) ≤ x.spin.atRun) && !x.b SpinReg.AT_SPEED
  if decide (0 < t) && x.r SpinReg.W_CMD == t && x.within t 1 then
    { x with spin := { x.spin with atRun := min 255 (x.spin.atRun + 1) } }
  else if owed then x
  else { x with spin := { x.spin with atRun := 0 } }

/-- The check probe of R254 falls due at this speed sample. -/
def Head.checkDue (x : Head) : Bool :=
  !x.spin.checkDone && x.b SpinReg.KE_CHECK_EN && !x.spin.stopReq
    && decide (x.r SpinReg.KE_CHECK_W ≤ x.wm.natAbs)

/-- A speed sample falls due (R245, R246, R254): only in DRIVE. -/
def Head.speedSample (c : Ctx) (x : Head) : Head :=
  if x.r SpinReg.SSTATE = 2 then
    let x := (x.profile.speedCheck c)
    if x.checkDue then
      let x := { x with spin := { x.spin with checkDone := true, probeTries := 0 } }
      x.enterSettle c false
    else x.stopOver c
  else { x with spin := { x.spin with aff := 0 } }

/-- A current sample falls due at `t` ns in state ALIGN: the duties are formed again at the fixed angle (R261). -/
def Head.alignSample (c : Ctx) (t : Nat) (x : Head) : Head :=
  if x.r SpinReg.SSTATE = 6 then x.sendDuties c (duties x.alignVolt 0 0) t else x

/-- Sources 5 and 6 are formed from the currents of frame F_in (R242); `f` is F_in in ns. -/
def Head.formCurrents (a : BitVec 800) (f : Nat) (x : Head) : Head :=
  let i := parkCurrents (srvIa a) (srvIb a) (x.thetaE (16 * f))
  (x.wi SpinReg.I_D i.1).wi SpinReg.I_Q i.2

/-- After IQ_LOOP is evaluated for the due instant `t`: the voltage limit and its count (R243), and in DRIVE the duties
(R244). -/
def Head.commutate (c : Ctx) (t : Nat) (vd vq : Int) (x : Head) : Head :=
  let (d, q, lim) := limitVoltage (x.r SpinReg.V_LIM) vd vq
  let on := x.b SpinReg.VOLT_LIMITED
  let owed := !on && x.spin.limRun == 8
  let x := if lim then { x with spin := { x.spin with limRun := min 8 (x.spin.limRun + 1), unlimRun := 0 } }
    else { x with spin := { x.spin with
      limRun := if owed then 8 else 0, unlimRun := min 64 (x.spin.unlimRun + 1) } }
  let x := if on && x.spin.unlimRun == 64 then x.put SpinReg.VOLT_LIMITED false else x
  if x.r SpinReg.SSTATE = 2 then
    x.sendDuties c (duties d q (x.thetaE (16 * (t + x.r SpinReg.OUT_LEAD)))) t
  else x

/-! ### Bus protection and overcurrent -/

/-- CHOP_BAD follows INPUTS[7] and the latch (R258). -/
def Head.refreshChop (x : Head) : Head :=
  x.put SpinReg.CHOP_BAD (bitOf x.land.lastInputs 7 || x.spin.silentLatch)

/-- The level at which the overvoltage interlock counts (R259). -/
def Head.ovLevel (x : Head) : Nat := if x.b SpinReg.CHOP_BAD then x.r SpinReg.VB_REGEN else x.r SpinReg.VB_OV

/-- A phase current exceeds OC_LIM (R260). -/
def Head.overCurrent (x : Head) (ia ib : Int) : Bool :=
  let l := x.r SpinReg.OC_LIM
  decide (l < ia.natAbs) || decide (l < ib.natAbs) || decide (l < (-ia - ib).natAbs)

/-- A run that has reached `n` stays until its event is taken; otherwise it grows or breaks. -/
def runOn (hit : Bool) (n run : Nat) : Nat := if n ≤ run then run else if hit then run + 1 else 0

/-- One good frame's part in the bus and current interlocks (R257 to R260). -/
def Head.busFrame (a : BitVec 800) (old : Nat) (x : Head) : Head :=
  let inp := srvInputs a
  let v := srvBus a
  let x := x.flagIf (bitOf inp 7 && !bitOf old 7) SpinReg.CHOP_FAULT
  let x := (x.flagIf (bitOf inp 5 && !bitOf old 5) SpinReg.BRIDGE_FAULT).refreshChop
  let s := x.spin
  let silent := decide (x.r SpinReg.VB_REGEN ≤ v) && !bitOf inp 6 && (s.chopAcked || decide (0 < s.silentRun))
  { x with spin := { s with
    lastBus := v
    ovRun := runOn (decide (x.ovLevel ≤ v)) (atLeast1 (x.r SpinReg.OV_N)) s.ovRun
    ocRun := runOn (x.overCurrent (srvIa a) (srvIb a)) (atLeast1 (x.r SpinReg.OC_N)) s.ocRun
    silentRun := runOn silent 64 s.silentRun
    ovSince := if decide (x.r SpinReg.VB_OV ≤ v) then s.ovSince else none } }

/-- A fault that the drive routes to FAULT is present: the last good frame was above a limit (R217). -/
def Head.routedFault (x : Head) : Bool :=
  decide (x.ovLevel ≤ x.spin.lastBus) && decide (0 < x.spin.ovRun) || decide (0 < x.spin.ocRun)

/-! ### Meanings -/

/-- ANGLE_FAULT (R240): no good frame with ANGLE_VALID = 1 for MHOLD µs since the last one. -/
def execAngleFault (wait : Nat) (h : Fin 32) (s : State) : Out :=
  s.headAfter wait h
    (fun c x => x.spin.seen && !x.spin.fault
      && decide (x.spin.lastGood + 1000 * atLeast1 (x.r SpinReg.MHOLD) ≤ c.ns))
    Head.angleFault

/-- STOPPED_CONFIRM (R240): |W_m| has stayed below STOP_W for STOP_CONF ms. -/
def execStoppedConfirm (wait : Nat) (h : Fin 32) (s : State) : Out :=
  s.headAfter wait h
    (fun c x => !x.b SpinReg.STOPPED && x.slow && (match x.spin.below with
      | none => false
      | some t => decide (t + cyclesOfMs (atLeast1 (x.r SpinReg.STOP_CONF)) ≤ c.cyc)))
    Head.standstill

/-- AT_SPEED (R246): AT_N consecutive speed samples within tolerance; the Landing goes from SPINUP to FOCUS and SPIN is
complete (R217, R219). -/
def execAtSpeed (wait : Nat) (h : Fin 32) (s : State) : Out :=
  s.headAfter wait h
    (fun _ x => x.r SpinReg.SSTATE == 2 && !x.b SpinReg.AT_SPEED
      && decide (atLeast1 (x.r SpinReg.AT_N) ≤ x.spin.atRun))
    fun c x =>
      let x := { x.put SpinReg.AT_SPEED true with spin := { x.spin with atTimeout := true } }
      if x.r LandReg.HSTATE = 2 then ((x.setHstate 4).cmdEnd 0).refresh c else x

/-- SPIN_TIMEOUT (R246): AT_SPEED not set within SPIN_TO ms; reported once. -/
def execSpinTimeout (wait : Nat) (h : Fin 32) (s : State) : Out :=
  s.headAfter wait h
    (fun c x => x.r SpinReg.SSTATE == 2 && !x.b SpinReg.AT_SPEED && !x.spin.atTimeout
      && decide (x.spin.driveAt + cyclesOfMs (atLeast1 (x.r SpinReg.SPIN_TO)) ≤ c.cyc))
    fun _ x => { (x.flag SpinReg.SPIN_TIMEOUT).w SpinReg.SCODE 6 with spin := { x.spin with atTimeout := true } }

/-- VOLT_LIMITED (R243): eight consecutive limited samples. -/
def execVoltLimited (wait : Nat) (h : Fin 32) (s : State) : Out :=
  s.headAfter wait h
    (fun _ x => !x.b SpinReg.VOLT_LIMITED && x.spin.limRun == 8)
    fun _ x =>
      let x := ((x.put SpinReg.VOLT_LIMITED true).flag SpinReg.VLIM).bump SpinReg.VLIM_COUNT 1
      { x with spin := { x.spin with limRun := 0, unlimRun := 0 } }

/-- The instant at which the settle of a probe ends, in 0.1 ns (R252). -/
def Head.settleEnd (x : Head) : Option Nat :=
  x.spin.settleAt.map (· + 1000 * atLeast1 (x.r SpinReg.PROBE_SETTLE))

/-- The settle has ended at `t` (0.1 ns) (R248, R252): BRIDGE 2 rides the first frame that starts at or after `t`. -/
def Head.settleOver (c : Ctx) (t : Nat) (x : Head) : Head :=
  let x := { x with spin := { x.spin with settleAt := none } }
  if !x.b SpinReg.MVALID then (x.toCoast c).catchEnds c 3
  else if x.spin.probeCatch ∧ x.b SpinReg.STOPPED then (x.startFromRest c).catchDone c
  else (x.bridge { c with now := (16 * t + 9) / 10 - 320 } 2).spinTo 4

/-- PROBE_SETTLE_END (R252). -/
def execProbeSettleEnd (wait : Nat) (h : Fin 32) (s : State) : Out :=
  s.headAfter wait h
    (fun c x => x.r SpinReg.SSTATE == 3 && (match x.settleEnd with | none => false | some t => decide (16 * t ≤ 10 * c.now)))
    fun c x => x.settleOver c (x.settleEnd.getD 0)

/-- CATCH_TIMEOUT (R248): a braking catch has run for CATCH_TO ms; braking continues. -/
def execCatchTimeout (wait : Nat) (h : Fin 32) (s : State) : Out :=
  s.headAfter wait h
    (fun c x => x.r SpinReg.SSTATE == 5 && x.b SpinReg.CATCH_RUN
      && decide (x.spin.catchAt + cyclesOfMs (atLeast1 (x.r SpinReg.CATCH_TO)) ≤ c.cyc))
    fun c x => x.catchEnds c 2

/-- ALIGN_DONE (R261): after ALIGN_T ms the electrical offset is recorded and the bridge turns off. -/
def execAlignDone (wait : Nat) (h : Fin 32) (s : State) : Out :=
  s.headAfter wait h
    (fun c x => x.r SpinReg.SSTATE == 6
      && decide (x.spin.alignAt + cyclesOfMs (atLeast1 (x.r SpinReg.ALIGN_T)) ≤ c.cyc))
    fun c x =>
      let x := x.w SpinReg.ELEC_OFS_MEAS (unsignedOf 24 (-((x.polePairs * x.thetaM c.now : Nat) : Int)))
      ((x.bridge c 0).flag SpinReg.ALIGN_DONE).spinTo 0

/-- OV_TRIP (R259): OV_N consecutive good frames at or above the level; the head goes to FAULT. -/
def execOvTrip (wait : Nat) (h : Fin 32) (s : State) : Out :=
  s.afterIn 2 wait (fun s => !(s.head h).inReset && decide (atLeast1 ((s.head h).r SpinReg.OV_N) ≤ (s.head h).spin.ovRun))
    fun s =>
      let s := s.onHead h fun x =>
        let x := ((x.flag SpinReg.OV_TRIP).w SpinReg.SCODE 8).bump SpinReg.OV_COUNT 1
        { x with spin := { x.spin with ovRun := 0, ovFrame := some x.riser.servoFrame } }
      s.faultHead h 3

/-- OC_TRIP (R260): OC_N consecutive good frames above OC_LIM; the head goes to FAULT. Beside an overvoltage trip of the
same frame SCODE stays 8 (R262). -/
def execOcTrip (wait : Nat) (h : Fin 32) (s : State) : Out :=
  s.afterIn 2 wait (fun s => !(s.head h).inReset && decide (atLeast1 ((s.head h).r SpinReg.OC_N) ≤ (s.head h).spin.ocRun))
    fun s =>
      let s := s.onHead h fun x =>
        let x := (x.flag SpinReg.OC_TRIP).bump SpinReg.OC_COUNT 1
        let x := if x.spin.ovFrame = some x.riser.servoFrame then x else x.w SpinReg.SCODE 7
        { x with spin := { x.spin with ocRun := 0 } }
      s.faultHead h 2

/-- OV_PERSIST (R259): V_BUS has stayed at or above VB_OV for 1 ms after HE_SAFE rose; logged (R454). -/
def execOvPersist (wait : Nat) (h : Fin 32) (s : State) : Out :=
  s.after wait
    (fun s => !(s.head h).inReset && (match (s.head h).spin.ovSince with
      | none => false
      | some t => s.since t (cyclesOfMs 1)))
    fun s =>
      let s := s.onHead h fun x => { x.flag SpinReg.OV_PERSIST with spin := { x.spin with ovSince := none } }
      s.log (tileOf h) 0x23 h (s.head h).spin.lastBus 0

/-- CHOP_SILENT_LATCH (R258): 64 consecutive good frames at VB_REGEN with the chopper silent. -/
def execChopSilentLatch (wait : Nat) (h : Fin 32) (s : State) : Out :=
  s.headAfter wait h (fun _ x => x.spin.silentRun == 64)
    fun _ x => ({ x.flag SpinReg.CHOP_SILENT with spin := { x.spin with silentRun := 0, silentLatch := true } }).refreshChop

/-! ### Writes -/

/-- SCMD is written (R261, R263): 0 does nothing, 1 asks for a rotor alignment, the rest are refused. -/
def Head.scmd (c : Ctx) (v : Nat) (x : Head) : Head :=
  match v % 8 with
  | 0 => x
  | 1 =>
    if x.r SpinReg.SSTATE = 0 ∧ x.r LandReg.HSTATE = 1 then
      let x := { x with spin := { x.spin with alignAt := c.cyc } }
      let x := x.spinTo 6
      (x.sendDuties c (duties x.alignVolt 0 0) c.ns).bridge c 1
    else (x.flag SpinReg.SCMD_REFUSED).w SpinReg.SCODE 9
  | _ => x.flag SpinReg.SCMD_REFUSED

/-- CHOP_SILENT is written with 1 (R258): the flag and the latch clear. -/
def Head.chopSilentClear (x : Head) : Head :=
  ({ x.put SpinReg.CHOP_SILENT false with spin := { x.spin with silentLatch := false } }).refreshChop

end Sys2Proof.Machine
end

