-- ==== Sys2Proof/Machine/Stepper.lean ====
section
/-! DEFINITION. The two step generators of a head (10_sled_motion.md): position and tick, moves, stops, homing, origin,
deviation and the limit switches. -/

namespace Sys2Proof.Machine

/-! ### Planning -/

/-- The loop whose output trims a generator (R264). -/
def Head.trimLoop (x : Head) (g : Fin 2) : Nat := if g = 0 then x.r LandReg.FOLLOW_LOOP else x.r LandReg.SA_LOOP

/-- Motion in direction `s` is blocked by a debounced switch (R278). -/
def Head.blocked (x : Head) (g : Fin 2) (s : Int) : Bool :=
  (decide (s < 0) && x.b (StepReg.LIM_LO g)) || (decide (0 < s) && x.b (StepReg.LIM_HI g))

/-- The plan of a move of `d` microsteps (R268), or none where AMAX and VMAX do not allow one. -/
def planMove (amax vmax : Nat) (d : Int) : Option Plan :=
  let v := vmax * 2 ^ 8
  let a := amax
  if a = 0 ∨ v < a then none
  else
    let du := d.natAbs * 2 ^ 32
    let n1 := min (v / a) (Nat.sqrt (du / a))
    let n2 := (du - a * n1 * n1) / (a * n1)
    let r := du - a * n1 * (n1 + n2)
    some { kind := 0, s := signOf d, a := a, n1 := n1, n2 := n2, r := r, c := if 0 < r then 1 else 0, vj := 0, j := 0,
           endCode := 0 }

/-- Ticks of a plan: a move's 2 n1 + n2 + c, a stop ramp's k; a jog has no end of its own (R268, R270, R271). -/
def Plan.ticks (p : Plan) : Nat := match p.kind with | 0 => 2 * p.n1 + p.n2 + p.c | 2 => p.n1 | _ => 0

/-- Profile velocity and acceleration of tick `j` of a plan (R268, R270, R271). -/
def Plan.at (p : Plan) (j : Nat) : Int × Int :=
  match p.kind with
  | 0 =>
    if j ≤ p.n1 then (p.s * (j * p.a : Nat), p.s * p.a)
    else if j ≤ p.n1 + p.n2 then (p.s * (p.n1 * p.a : Nat), 0)
    else if j ≤ p.n1 + p.n2 + p.c then (p.s * p.r, 0)
    else (p.s * ((p.n1 - (j - p.n1 - p.n2 - p.c)) * p.a : Nat), -(p.s * p.a))
  | 1 => if j * p.a < p.vj then (p.s * (j * p.a : Nat), p.s * p.a) else (p.s * p.vj, 0)
  | _ => (p.s * ((p.n1 - j) * p.a : Nat), -(p.s * p.a))

/-- A motion ends: genEnd for firmware's moves and the report for the Landing's (R273). -/
def Head.motionEnd (c : Ctx) (g : Fin 2) (code : Nat) (x : Head) : Head := x.genDone c g code

/-- A planned move is accepted (R268, R272), with its owner. -/
def Head.runMove (c : Ctx) (g : Fin 2) (d : Int) (owner : Bool) (x : Head) : Head :=
  if d = 0 then (x.put (StepReg.OWNER g) owner).motionEnd c g 0
  else
    match planMove (x.r (StepReg.AMAX g)) (x.r (StepReg.VMAX g)) d with
    | none =>
      let x := (x.w (StepReg.END_CODE g) 8).flag (StepReg.MCMD_REFUSED g)
      if owner then x.sledReport c false else x
    | some p =>
      let x := ((x.w (StepReg.PLAN_N1 g) p.n1).w (StepReg.PLAN_N2 g) p.n2).w (StepReg.PLAN_CREEP g) p.c
      let x := (x.w (StepReg.GSTATE g) 1).put (StepReg.OWNER g) owner
      x.onGen g fun s => { s with plan := some p, stopReq := none, hardReq := none }

/-- A move that is refused records why (R272). -/
def Head.moveRefused (g : Fin 2) (code : Nat) (x : Head) : Head :=
  (x.w (StepReg.END_CODE g) code).flag (StepReg.MCMD_REFUSED g)

/-- A move of `d` microsteps is asked for (R272): only in IDLE and in a direction that is not blocked. -/
def Head.askMove (c : Ctx) (g : Fin 2) (d : Int) (owner : Bool) (x : Head) : Head :=
  if x.r (StepReg.GSTATE g) ≠ 0 then
    let x := x.moveRefused g 6
    if owner then x.sledReport c false else x
  else if x.blocked g (signOf d) then
    let x := x.moveRefused g 7
    if owner then x.sledReport c false else x
  else x.runMove c g d owner

/-- A Landing move request of `n` encoder counts on the sled (R273). -/
def Head.landMove (c : Ctx) (n : Int) (x : Head) : Head :=
  let ratio := x.r (StepReg.ENC_RATIO 0)
  if ratio = 0 then (x.moveRefused 0 8).sledReport c false
  else
    let d := signOf n * (((2 * n.natAbs * 2 ^ 16 + ratio) / (2 * ratio) : Nat) : Int)
    x.askMove c 0 d true

/-! ### MCMD -/

/-- The place of a stop in the order of R282, by its END_CODE: the limit switches and a homing's own end, a stall, MCMD. -/
def stopRank (code : Nat) : Nat := if code = 4 then 1 else if code = 1 ∨ code = 2 then 2 else 0

/-- A hard stop is asked for (R271): of several in one tick the one that R282 takes first stands, and of two in one place the
earlier. -/
def StepSt.hardAsk (code : Nat) (s : StepSt) : StepSt :=
  { s with hardReq := match s.hardReq with
      | none => some code
      | some k => if stopRank code < stopRank k then some code else some k }

/-- MCMD is written (R272). -/
def Head.mcmd (c : Ctx) (g : Fin 2) (v : Nat) (x : Head) : Head :=
  let st := x.r (StepReg.GSTATE g)
  let refuse := x.flag (StepReg.MCMD_REFUSED g)
  match v % 16 with
  | 0 => x
  | 1 => x.askMove c g (x.ri (StepReg.MOVE_DIST g)) false
  | 2 =>
    if st = 1 then x.onGen g fun s => { s with stopReq := s.stopReq.orElse fun _ => some 1 }
    else if st = 3 then x.onGen g (StepSt.hardAsk 1)
    else refuse
  | 3 =>
    if st = 1 ∨ st = 2 ∨ st = 3 then x.onGen g (StepSt.hardAsk 2)
    else refuse
  | 4 =>
    if st = 0 then
      let x := ((x.put (StepReg.HOMED g) false).w (StepReg.GSTATE g) 3).put (StepReg.OWNER g) false
      let low := x.b (StepReg.LIM_LO g)
      x.onGen g fun s => { s with plan := none, stopReq := none, hardReq := none, phaseNext := if low then 1 else 2 }
    else x.moveRefused g 6
  | 5 =>
    if st = 0 ∧ ¬ x.b (StepReg.TRIM_ACTIVE g) then x.onGen g fun s => { s with rebase := true }
    else refuse
  | _ => refuse

/-! ### The tick -/

/-- The jog of a homing phase (R270, R279). -/
def Head.jog (x : Head) (g : Fin 2) (phase : Nat) : Plan :=
  { kind := 1, s := if phase = 2 then -1 else 1, a := x.r (StepReg.AMAX g), n1 := 0, n2 := 0, r := 0, c := 0,
    vj := (if phase = 3 then x.r (StepReg.HOME_SLOW g) else x.r (StepReg.HOME_V g)) * 2 ^ 8, j := 0, endCode := 0 }

/-- The origin is latched (R274). -/
def Head.latchOrigin (g : Fin 2) (enc xv : Int) (x : Head) : Head :=
  let x := x.onGen g fun s => { s with encOrg := enc, xOrg := xv, rebase := false }
  (x.put (StepReg.ORG_VALID g) true).flag (StepReg.ORG_LATCHED g)

/-- Homing phase 3 finds the low switch released (R279, R282): the origin is latched from the run's first frame with
ENC_VALID = 1 and the homing ends DONE, or HOME_STUCK where the run had none. -/
def Head.homeRelease (g : Fin 2) (x : Head) : Head :=
  match (x.gen g).released with
  | some p => ((x.latchOrigin g p.1 p.2).put (StepReg.HOMED g) true).onGen g (StepSt.hardAsk 0)
  | none => x.onGen g (StepSt.hardAsk 11)

/-- The debounced low switch stands as it ends homing phase `p` (R279): inactive for 1 and 3, active for 2. -/
def Head.phaseOver (x : Head) (g : Fin 2) (p : Nat) : Bool := x.b (StepReg.LIM_LO g) == (p == 2)

/-- Homing phase `p` ends (R279): the next one follows the hard stop, and phase 3 ends the homing. -/
def Head.endPhase (g : Fin 2) (p : Nat) (x : Head) : Head :=
  if p = 3 then x.homeRelease g else x.onGen g fun s => { s with phaseNext := p + 1 }

/-- The homing phase that waits begins (R279): its jog, the position it counts travel from and the limit of that travel,
read here (R269). A phase that finds the low switch as it ends is over with the tick that starts it. -/
def Head.startPhase (g : Fin 2) (x : Head) : Head :=
  let p := (x.gen g).phaseNext
  let x := x.w (StepReg.HPHASE g) p
  if x.phaseOver g p then (x.onGen g fun s => { s with phaseNext := 0 }).endPhase g p
  else
    let plan := x.jog g p
    let lim := x.r (if p = 2 then StepReg.HOME_MAX g else StepReg.BACKOFF g) * 2 ^ 32
    x.onGen g fun s => { s with plan := some plan, phaseNext := 0, phaseX := s.x, phaseLimit := lim }

/-- A ramped stop is taken (R271): in the acceleration or cruise phase the plan becomes a ramp, in the creep or
deceleration phase it goes on to its end; the END_CODE is the stop's. -/
def Head.takeStop (c : Ctx) (g : Fin 2) (code : Nat) (x : Head) : Head :=
  let s := x.gen g
  match s.plan with
  | none => x.onGen g fun s => { s with stopReq := none }
  | some p =>
    if p.kind = 0 ∧ p.j < p.n1 + p.n2 then
      let k := s.lastVp.natAbs / max 1 p.a
      if k = 0 then x.motionEnd c g code
      else
        let ramp : Plan := { p with kind := 2, n1 := k, j := 0, endCode := code }
        (x.w (StepReg.GSTATE g) 2).onGen g fun s => { s with plan := some ramp, stopReq := none }
    else x.onGen g fun s => { s with plan := some { p with endCode := code }, stopReq := none }

/-- The requests that a tick takes before its profile: a hard stop, a new homing phase, a ramped stop (R271, R279). A stall
beside a limit switch's ramped stop ends with LIMIT (R282). -/
def Head.tickRequests (c : Ctx) (g : Fin 2) (x : Head) : Head :=
  let s := x.gen g
  match s.hardReq with
  | some code => x.motionEnd c g (if code = 4 ∧ s.stopReq = some 3 then 3 else code)
  | none =>
    if s.phaseNext ≠ 0 then
      match s.plan with
      | some _ => x.onGen g fun s => { s with plan := none }
      | none => x.startPhase g
    else
      match s.stopReq with
      | some code => x.takeStop c g code
      | none => x

/-- The trim of the tick at `t` µs, signed 8.24, before the block of R278: the last value that the named loop delivered in
a CORE cycle before the tick (R267), which starts cycle 1600 t of package time. -/
def Head.trimOf (x : Head) (g : Fin 2) (t : Nat) : Int :=
  let n := x.trimLoop g
  if x.b (StepReg.TRIM_EN g) && decide (n < 24) && x.nsec n != 0 && x.loopActive n && x.r (StepReg.GSTATE g) != 4 then
    match lookupKey (2 * n + g.val) x.loops.trims with
    | some (cyc, new, old) => if cyc < 1600 * t then new else old
    | none => 0
  else 0

/-- The travel limits of a homing phase (R279): the END_CODE once they are reached. -/
def Head.homeLimit (x : Head) (g : Fin 2) : Option Nat :=
  let s := x.gen g
  let gone := (s.x - s.phaseX).natAbs
  let ph := x.r (StepReg.HPHASE g)
  if s.plan.isSome ∧ s.phaseNext = 0 ∧ ph ≠ 0 ∧ s.phaseLimit ≤ gone then some (if ph = 2 then 9 else 11) else none

/-- The phase values of R266 for a position and a current. -/
def phaseValues (pos : Int) (i : Nat) : Int × Int :=
  let m := unsignedOf 10 (pos / 2 ^ 32)
  (term (sine (4 * m + 1024)) i 30, term (sine (4 * m)) i 30)

/-- The profile part of a tick (R265): the plan's next tick, the trim, and X. -/
def Head.tickMove (g : Fin 2) (t : Nat) (x : Head) : Head × Option Nat :=
  let s := x.gen g
  let held := x.r (StepReg.GSTATE g) = 4
  let j := (match s.plan with | some p => p.j | none => 0) + 1
  let va : Int × Int := match s.plan with | some p => if held then (0, 0) else p.at j | none => (0, 0)
  let past : Option Nat := match s.plan with
    | some p => if p.kind ≠ 1 ∧ p.ticks ≤ j then some p.endCode else none
    | none => none
  let tr0 := x.trimOf g t
  let bad := tr0 ≠ 0 && x.r (StepReg.GSTATE g) != 3 && x.blocked g (signOf tr0)
  let tr := if bad then 0 else tr0
  let x := x.flagIf bad (StepReg.TRIM_BLOCKED g)
  let pos := signedOf 64 (unsignedOf 64 (s.x + va.1 + tr * 2 ^ 8))
  let x := ((x.wi (StepReg.VEL g) (sat32 ((va.1 + tr * 2 ^ 8) / 2 ^ 8))).wi (StepReg.A_FF g) va.2).wi (StepReg.TRIM g) tr
  let x := x.put (StepReg.TRIM_ACTIVE g) (tr ≠ 0)
  let m := unsignedOf 10 (pos / 2 ^ 32)
  let moved := m ≠ s.lastM
  let x := x.onGen g fun s => { s with
    x := pos
    plan := s.plan.map fun p => { p with j := j }
    lastVp := va.1
    hist := ((t, pos) :: s.hist).take 64
    lastM := m
    mChanged := if moved then t else s.mChanged
    reduced := if moved then false else s.reduced }
  (x, past)

/-- A motion is in progress (R266). -/
def Head.genMoving (x : Head) (g : Fin 2) : Bool :=
  let st := x.r (StepReg.GSTATE g)
  st == 1 || st == 2 || st == 3

/-- HOLD_DELAY has passed without motion at tick `t` (R266). -/
def Head.holdTime (x : Head) (g : Fin 2) (t : Nat) : Bool :=
  !x.genMoving g && !x.b (StepReg.TRIM_ACTIVE g)
    && decide ((x.gen g).mChanged + atLeast1 (x.r (StepReg.HOLD_DELAY g)) ≤ t)

/-- The phase commands of a tick (R266, R267). -/
def Head.tickOut (c : Ctx) (g : Fin 2) (t : Nat) (x : Head) : Head :=
  if x.r (StepReg.GSTATE g) = 4 ∨ t % atLeast1 (x.r (StepReg.OUT_DIV g)) ≠ 0 then x
  else
    let i := if (x.gen g).reduced then x.r (StepReg.I_HOLD g) else x.r (StepReg.I_RUN g)
    let v := phaseValues (x.gen g).x i
    let n := 24 + g.val
    (x.act c (.step g) (8 + 2 * g.val) v.1 (1000 * t) n).act c (.step g) (9 + 2 * g.val) v.2 (1000 * t) n

/-- One tick of one generator at `t` µs of package time (R265 to R271, R279). -/
def Head.genTick (c : Ctx) (t : Nat) (x : Head) (g : Fin 2) : Head :=
  let x := x.tickRequests c g
  let (x, past) := x.tickMove g t
  let still := x.holdTime g t
  let x := x.onGen g fun s => { s with reduced := still }
  let x := x.tickOut c g t
  match past with
  | some code => x.motionEnd c g code
  | none =>
    match x.homeLimit g with
    | some code => x.onGen g (StepSt.hardAsk code)
    | none => x

/-! ### Frames -/

/-- X_hist of a frame that starts at `f` ns (R274): X after the tick DEV_LAG ticks before the one at or below it. -/
def Head.xHist (x : Head) (g : Fin 2) (f : Nat) : Int :=
  let k := f / 1000 - x.r (StepReg.DEV_LAG g)
  match (x.gen g).hist.find? fun p => decide (p.1 ≤ k) with
  | some p => p.2
  | none => match (x.gen g).hist.getLast? with
    | some p => p.2
    | none => (x.gen g).x

/-- The position field of a generator (R264). -/
def genPos (g : Fin 2) (a : BitVec 800) : Int := if g = 0 then srvSled a else srvSa a

/-- The origin latches that a good frame at `f` ns serves: REBASE, and once after a head reset (R274). -/
def Head.frameOrigin (g : Fin 2) (a : BitVec 800) (f : Nat) (x : Head) : Head :=
  let s := x.gen g
  let auto := !s.autoOrg && (match s.firstAct with
    | none => false
    | some t => decide (t + 10000 * atLeast1 (x.r (StepReg.HOLD_DELAY g)) ≤ 10 * f))
  if s.rebase || auto then
    let x := x.onGen g fun s => { s with autoOrg := s.autoOrg || auto }
    x.latchOrigin g (genPos g a) (x.xHist g f)
  else x

/-- DEV of a good frame (R275). -/
def Head.deviation (x : Head) (g : Fin 2) (a : BitVec 800) (f : Nat) : Int :=
  let s := x.gen g
  sat32 ((genPos g a - s.encOrg) * 256 - (x.xHist g f - s.xOrg) * x.r (StepReg.ENC_RATIO g) / 2 ^ 40)

/-- The deviation and its two checks for a good frame (R275, R276). -/
def Head.frameDev (g : Fin 2) (a : BitVec 800) (f : Nat) (x : Head) : Head :=
  if x.b (StepReg.ORG_VALID g) && x.b (StepReg.ENC_VALID g) then
    let d := x.deviation g a f
    let m := d.natAbs
    let n := atLeast1 (x.r (StepReg.STALL_N g))
    let lw := x.r (StepReg.LOST_WIN g)
    let sw := x.r (StepReg.STALL_WIN g)
    (x.wi (StepReg.DEV g) d).onGen g fun s => { s with
      lostArmed := s.lostArmed || decide (m ≤ lw / 2)
      stallArmed := s.stallArmed || decide (m ≤ sw / 2)
      lostRun := if s.lostArmed then runOn (decide (lw < m)) n s.lostRun else 0
      stallRun := if s.stallArmed then runOn (decide (sw < m)) n s.stallRun else 0 }
  else x

/-- One switch in one good frame: the run towards a new debounced state, and the chatter count (R278), which needs a good
frame before this one, `seen`. -/
def switchRun (seen raw old deb : Bool) (n max run chat : Nat) : Nat × Nat :=
  (runOn (raw != deb) n run, if seen && raw != old && chat < max then chat + 1 else chat)

/-- The switches of a generator in a good frame (R278); the first frame with ENC_VALID = 1 of a run that releases the
low switch is kept for the origin of a homing (R279). -/
def Head.frameSwitches (g : Fin 2) (a : BitVec 800) (f : Nat) (x : Head) : Head :=
  let inp := srvInputs a
  let lo := bitOf inp (2 * g.val) == x.b (StepReg.POL_LO g)
  let hi := bitOf inp (2 * g.val + 1) == x.b (StepReg.POL_HI g)
  let n := atLeast1 (x.r (StepReg.DB_N g))
  let mx := atLeast1 (x.r (StepReg.CHAT_MAX g))
  let s := x.gen g
  let l := switchRun s.rawSeen lo s.rawLo (x.b (StepReg.LIM_LO g)) n mx s.runLo s.chatLo
  let h := switchRun s.rawSeen hi s.rawHi (x.b (StepReg.LIM_HI g)) n mx s.runHi s.chatHi
  let here := (genPos g a, x.xHist g f)
  let pos := if l.1 = 0 then none
    else if s.runLoPos.isSome then s.runLoPos
    else if x.b (StepReg.ENC_VALID g) then some here else none
  x.onGen g fun s => { s with
    rawSeen := true, rawLo := lo, rawHi := hi, runLo := l.1, chatLo := l.2, runHi := h.1, chatHi := h.2, runLoPos := pos }

/-- ENC_VALID follows INPUTS[11] on the sled and is always 1 on the corrector (R277). -/
def Head.frameEncoder (g : Fin 2) (a : BitVec 800) (old : Nat) (x : Head) : Head :=
  if g = 0 then
    let bad := bitOf (srvInputs a) 11
    (x.flagIf (bad && !bitOf old 11) (StepReg.ENC_FAULT g)).put (StepReg.ENC_VALID g) !bad
  else x.put (StepReg.ENC_VALID g) true

/-- What a good frame at `f` ns does to both generators. -/
def Head.stepFrame (a : BitVec 800) (f old : Nat) (x : Head) : Head :=
  [0, 1].foldl (fun x (g : Fin 2) =>
    ((((x.frameEncoder g a old).frameOrigin g a f).frameDev g a f).frameSwitches g a f)) x

/-! ### Meanings -/

/-- The latest tick of package time at or before now, in µs (R265). -/
def Ctx.tick (c : Ctx) : Nat := c.ns / 1000

/-- The oldest tick that has not been taken, in µs (R265): the one after the last, and for a head that has taken none the
latest one reached (DESIGN CHOICE, log entry 126). -/
def Head.nextTick (c : Ctx) (x : Head) : Nat :=
  match (x.gen 0).hist with | [] => c.tick | p :: _ => p.1 + 1

/-- A tick has been reached and not been taken. -/
def Head.tickDue (c : Ctx) (x : Head) : Bool := decide (x.nextTick c ≤ c.tick)

/-- STEP_TICK (R265): both generators of the head. -/
def execStepTick (wait : Nat) (h : Fin 32) (s : State) : Out :=
  s.headAfter wait h Head.tickDue fun c x => ([0, 1] : List (Fin 2)).foldl (Head.genTick c (x.nextTick c)) x

/-- STALL is declared on a head (R276); with STALL_STOP = 1 a motion stops hard and is logged (R454). -/
def State.declareStall (h : Fin 32) (g : Fin 2) (s : State) : State :=
  let x := s.head h
  let stops := x.b (StepReg.STALL_STOP g) && x.genMoving g
  let s := s.onHead h fun x =>
    let x := (x.flag (StepReg.STALL g)).bump (StepReg.STALL_COUNT g) 1
    x.onGen g fun s =>
      let s : StepSt := { s with stallArmed := false, stallRun := 0 }
      if stops then s.hardAsk 4 else s
  if stops then s.log (tileOf h) 0x24 h g.val 4 else s

/-- STALL (R276). -/
def execStall (wait : Nat) (h : Fin 32) (g : Fin 2) (s : State) : Out :=
  s.afterIn 2 wait (fun s => !(s.head h).inReset && ((s.head h).gen g).stallArmed
      && decide (atLeast1 ((s.head h).r (StepReg.STALL_N g)) ≤ ((s.head h).gen g).stallRun))
    (State.declareStall h g)

/-- LOST_STEP (R276). -/
def execLostStep (wait : Nat) (h : Fin 32) (g : Fin 2) (s : State) : Out :=
  s.headAfter wait h
    (fun _ x => (x.gen g).lostArmed && decide (atLeast1 (x.r (StepReg.STALL_N g)) ≤ (x.gen g).lostRun))
    fun _ x =>
      let x := (x.flag (StepReg.LOST_STEP g)).bump (StepReg.LOST_COUNT g) 1
      x.onGen g fun s => { s with lostArmed := false, lostRun := 0 }

/-- The direction of a move or stop ramp that runs (R278). -/
def Head.motionSign (x : Head) (g : Fin 2) : Int :=
  if x.r (StepReg.GSTATE g) = 1 ∨ x.r (StepReg.GSTATE g) = 2 then
    (match (x.gen g).plan with | some p => p.s | none => 0)
  else 0

/-- A switch becomes active outside homing: a motion towards it stops by LIM_MODE (R278). -/
def Head.limitStop (g : Fin 2) (hi : Bool) (x : Head) : Head :=
  let x := (x.flag (if hi then StepReg.LIMIT_HI g else StepReg.LIMIT_LO g)).bump (StepReg.LIMIT_COUNT g) 1
  if x.b (StepReg.LIM_MODE g) then
    x.onGen g fun s => { s with stopReq := some 3 }
  else x.onGen g (StepSt.hardAsk 3)

/-- The debounced state of a switch changes (R278, R279, R280); a stop of the limit interlock is logged (R454). -/
def State.debounce (h : Fin 32) (g : Fin 2) (hi : Bool) (s : State) : State :=
  let f := if hi then StepReg.LIM_HI g else StepReg.LIM_LO g
  let act := !(s.head h).b f
  let keep := ((s.head h).gen g).runLoPos
  let s := s.onHead h fun x => (x.put f act).onGen g fun s =>
    if hi then { s with runHi := 0, chatHi := 0, chatSaidHi := false }
    else { s with runLo := 0, chatLo := 0, chatSaidLo := false, runLoPos := none,
                  released := if act then s.released else keep }
  let x := s.head h
  let ph := x.r (StepReg.HPHASE g)
  if x.r (StepReg.GSTATE g) = 3 then
    if hi then
      if act then s.onHead h fun x => (x.flag (StepReg.LIMIT_HI g)).onGen g (StepSt.hardAsk 10)
      else s
    else if ph ≠ 0 ∧ (x.gen g).phaseNext = 0 ∧ x.phaseOver g ph then s.onHead h (Head.endPhase g ph)
    else s
  else if act ∧ (if hi then 0 < x.motionSign g else x.motionSign g < 0) then
    (s.onHead h (Head.limitStop g hi)).log (tileOf h) 0x22 h (g.val + 2 * flagNat hi) 3
  else s

/-- LIMIT_DEBOUNCE (R278): DB_N good frames have shown the switch's new state. -/
def execLimitDebounce (wait : Nat) (h : Fin 32) (g : Fin 2) (hi : Bool) (s : State) : Out :=
  s.afterIn 2 wait (fun s => !(s.head h).inReset && decide (atLeast1 ((s.head h).r (StepReg.DB_N g)) ≤
      (if hi then ((s.head h).gen g).runHi else ((s.head h).gen g).runLo)))
    (State.debounce h g hi)

/-- CHATTER (R278): CHAT_MAX raw changes without a debounced change, declared once until there is one. -/
def execChatter (wait : Nat) (h : Fin 32) (g : Fin 2) (hi : Bool) (s : State) : Out :=
  s.headAfter wait h
    (fun _ x =>
      let m := atLeast1 (x.r (StepReg.CHAT_MAX g))
      let t := x.gen g
      if hi then !t.chatSaidHi && decide (m ≤ t.chatHi) else !t.chatSaidLo && decide (m ≤ t.chatLo))
    fun _ x =>
      let x := (x.flag (StepReg.CHATTER g)).bump (StepReg.CHATTER_COUNT g) 1
      x.onGen g fun s => if hi then { s with chatSaidHi := true } else { s with chatSaidLo := true }

/-- HOLD_CURRENT (R266): HOLD_DELAY µs have passed without motion, and the phase current falls to I_HOLD. -/
def execHoldCurrent (wait : Nat) (h : Fin 32) (g : Fin 2) (s : State) : Out :=
  s.headAfter wait h (fun c x => !(x.gen g).reduced && x.holdTime g c.tick)
    fun _ x => x.onGen g fun s => { s with reduced := true }

end Sys2Proof.Machine
end

