-- ==== Sys2Proof/Machine/Landing.lean ====
section
/-! DEFINITION. The Landing of one head (08_focus_tracking.md): head commands, focus acquisition and layer jumps, seeks
and tracking lock, the wedge demodulator, hold and write inhibit. -/

namespace Sys2Proof.Machine

/-! ### References per layer and zone -/

/-- A word of the position table (R230): 0 FOCUS_OFS, 1 TILT_R_REF, 2 TILT_T_REF, 3 SA_REF. -/
def Head.posRef (x : Head) (layer region k : Nat) : Int := x.cal.posMem.readS ((layer * 17 + region) * 16 + 4 * k) 4

/-- The band value of the target in force (R226). -/
def Head.targetBand (x : Head) : Nat := bandValue x.land.target

/-- A ZONE_SELECT takes effect in a beam channel: at once, or at the close of its open frame (R157). -/
def BeamSt.selectZone (l z : Nat) (b : BeamSt) : BeamSt :=
  if b.gate.isSome then { b with zonePend := some (l, z) } else { b with layer := l, zone := z }

/-- A layer and zone are in force as after a ZONE_SELECT with TARGET 34: for beam positions 0 to 31, the angle base and the
loops (R206, R231). -/
def Head.selectZone (l z : Nat) (x : Head) : Head :=
  let x := (List.range 32).foldl (fun x i => x.onBeam (toSampler i) (BeamSt.selectZone l z)) x
  ({ x with angle := { x.angle with layer := l, zone := z }, loops := { x.loops with layer := l, zone := z } }).refreshBank

/-- A reference written by a selection (R231); it ends a REF_SWEEP of that loop (R290). -/
def Head.selectRef (c : Ctx) (n : Nat) (v : Int) (x : Head) : Head := (x.calRefWritten c n).loopRef n v

/-- With APPLY_PWR = 1 the laser powers follow the last interpolation of kind POWER, for the layer the Landing is on
(R296). -/
def Head.applyPower (x : Head) : Head :=
  if x.b CalReg.APPLY_PWR && bitOf x.cal.appliedKinds 2 then
    let at' (b : Nat) : Nat := 0x1300 + 128 * x.r LandReg.LAYER + 4 * b
    (List.range 32).foldl (fun x b =>
      (x.w (WriteReg.RPOWER b) (x.cal.lastApplied.readLE (at' b) 2)).w (WriteReg.WPOWER b)
        (x.cal.lastApplied.readLE (at' b + 2) 2)) x
  else x

/-- The selection of R231 is applied: layer and zone, the four references, and the laser powers
(R296). -/
def Head.applySelection (c : Ctx) (x : Head) : Head :=
  let l := x.r LandReg.LAYER
  let z := zoneOrZero x.targetBand
  let g := regionOfBand x.targetBand
  let x := x.selectZone l z
  let x := x.selectRef c (x.r LandReg.FOCUS_LOOP) (x.posRef l g 0)
  let x := x.selectRef c (x.r LandReg.TILT_R_LOOP) (x.posRef l g 1)
  let x := x.selectRef c (x.r LandReg.TILT_T_LOOP) (x.posRef l g 2)
  (x.selectRef c (x.r LandReg.SA_LOOP) (x.posRef l g 3)).applyPower

/-! ### Seeks -/

/-- The extended index of the band under the spot (R224). -/
def Head.bandE (x : Head) : Int := x.ri LandReg.BAND_E

/-- FINE_MAX as it acts: at most 4 (R237). -/
def Head.fineMax (x : Head) : Nat := min 4 (x.r LandReg.FINE_MAX)

/-- The target of a seek is within a fine jump of the band under the spot (R232). -/
def Head.nearTarget (x : Head) : Bool :=
  x.b LandReg.BAND_KNOWN && decide ((x.land.seekTarget - x.bandE).natAbs ≤ x.fineMax)

/-- A target comes into force (R226, R232). -/
def Head.setTarget (e : Int) (x : Head) : Head :=
  { x.wi LandReg.TRACK_E e with land := { x.land with target := e, lockRun := 0 } }

/-- The fine jump of R232 step 1, which goes on to the wait for lock. -/
def Head.seekFine (c : Ctx) (x : Head) : Head :=
  let x := ((x.w LandReg.TSTAT 5).loopEnable (x.r LandReg.TRACK_LOOP) true).setTarget x.land.seekTarget
  { x with land := { x.land with seekAt := c.cyc } }

/-- The encoder counts of a coarse move (R232 step 2). -/
def Head.coarseCounts (x : Head) : Int :=
  let per : Int := x.r LandReg.SLED_PER_BAND
  divNear ((x.ri LandReg.SLED_B0 - srvSled x.riser.servo) * 2 ^ 17 + (2 * x.land.seekTarget + 1) * per) (2 ^ 17)

/-- The coarse move of R232 step 2. -/
def Head.seekCoarse (c : Ctx) (x : Head) : Head :=
  let x := x.w LandReg.TSTAT 2
  let x := (x.loopEnable (x.r LandReg.TRACK_LOOP) false).loopEnable (x.r LandReg.FOLLOW_LOOP) false
  let x := (x.landAct c 1 0).put LandReg.BAND_KNOWN false
  let x := { x with land := { x.land with seekTries := x.land.seekTries + 1 } }
  x.landMove c x.coarseCounts

/-- The end of step 3 and step 4 of R232: tracking starts afresh, and the band is to be identified. -/
def Head.seekIdentify (c : Ctx) (x : Head) : Head :=
  let x := (x.loopZero (x.r LandReg.TRACK_LOOP)).loopEnable (x.r LandReg.TRACK_LOOP) true
  let x := (x.loopEnable (x.r LandReg.FOLLOW_LOOP) true).w LandReg.TSTAT 4
  { x with land := { x.land with seekAt := c.cyc, lockRun := 0 } }

/-- The seek itself, once the layer is right (R232); TRACK_ON takes the band under the spot. -/
def Head.seekProceed (c : Ctx) (x : Head) : Head :=
  if x.land.seekTrackOn then
    if x.b LandReg.BAND_KNOWN then
      ({ x with land := { x.land with seekTarget := x.bandE } }).seekFine c
    else x.seekIdentify c
  else if x.nearTarget then x.seekFine c
  else x.seekCoarse c

/-- Step 4 of R232 once BAND_KNOWN is 1. -/
def Head.seekIdentified (c : Ctx) (x : Head) : Head :=
  if x.land.seekTrackOn then
    let x := (x.setTarget x.bandE).w LandReg.TSTAT 1
    { x with land := { x.land with seekTarget := x.bandE, seekAt := c.cyc } }
  else if x.nearTarget then x.seekFine c
  else if atLeast1 (x.r LandReg.SEEK_TRIES) ≤ x.land.seekTries then x.seekFail c 8
  else x.seekCoarse c

/-- A single-layer jump begins with the corrector's move (R229). -/
def Head.jumpStart (c : Ctx) (x : Head) : Head :=
  let l := x.r LandReg.LAYER
  let down := x.land.seekLayer < l
  let next := if down then l - 1 else l + 1
  let x := (x.loopEnable (x.r LandReg.TRACK_LOOP) false).loopEnable (x.r LandReg.FOLLOW_LOOP) false
  let x := ((x.landAct c 1 0).put LandReg.BAND_KNOWN false).w LandReg.FSTAT 5
  let x := (x.w LandReg.TSTAT 0).loopRef (x.r LandReg.SA_LOOP) (x.posRef next (regionOfBand (bandValue x.land.seekTarget)) 3)
  { x with land := { x.land with
    jumpDir := if down then 1 else -1, jumpPhase := 1, jumpAt := c.cyc, saRun := 0, jumpFell := false, jumpRose := false } }

/-- TRACK is entered for a TRACK_ON or a SEEK (R217, R232). -/
def Head.seekStart (c : Ctx) (code : Nat) (x : Head) : Head :=
  let on := code = 5
  let x := (x.put LandReg.CMD_BUSY true).setHstate 5
  let x := { x with land := { x.land with
    cmd := some code, seekOn := true, seekTrackOn := on
    seekTarget := if on then x.bandE else extendedOf (x.r LandReg.TARGET_BAND)
    seekLayer := if on then x.r LandReg.LAYER else x.r LandReg.TARGET_LAYER
    seekTries := 0, lockRun := 0 } }
  (if x.land.seekLayer ≠ x.r LandReg.LAYER then x.jumpStart c else x.seekProceed c).refresh c

/-! ### Focus -/

/-- CAP_N as it acts (R237). -/
def Head.capN (x : Head) : Nat := max 1 (min 16 (x.r LandReg.CAP_N))

/-- Capture with V (R227 step 3), on layer `l`. -/
def Head.capture (c : Ctx) (v : Int) (l : Nat) (x : Head) : Head :=
  let n := x.r LandReg.FOCUS_LOOP
  let x := (x.loopPreload n v).loopRef n (x.posRef l (regionOfBand x.targetBand) 0)
  let x := ((x.loopEnable n true).w LandReg.FSTAT 2).w LandReg.LAYER l
  { x with land := { x.land with captureAt := c.cyc, goodFocus := 0, lossFocus := 0, sweepV := none } }

/-- FOCUS_ON or the lock of a jump fails (R227, R228): focus retracts, lasers go off. -/
def Head.focusFails (c : Ctx) (code : Nat) (x : Head) : Head :=
  if x.r LandReg.HSTATE = 4 ∧ x.land.jumpPhase = 0 then
    let x := x.loopEnable (x.r LandReg.FOCUS_LOOP) false
    let x := ((x.landAct c 0 (x.ri LandReg.FSW_START)).lasersOff c).w LandReg.FSTAT 0
    let x := { x with land := { x.land with sweepV := none, laserAcks := 0 } }
    (x.cmdEnd code).refresh c
  else (x.jumpOff).toFocus0 c code

/-- One step of the sweep at a due instant `t` of the focus loop (R227). -/
def Head.sweepStep (c : Ctx) (t : Nat) (a : BitVec 800) (x : Head) : Head :=
  let v := match x.land.sweepV with
    | none => x.ri LandReg.FSW_START
    | some v => min (v + x.r LandReg.FSW_STEP) (x.ri LandReg.FSW_END)
  let n := x.r LandReg.FOCUS_LOOP
  let x := if x.loopActive n then x else x.act c .landing 0 v t n
  let sum := srvFocusSum a
  let fe := srvFocusErr a
  let cap := x.r LandReg.FSUM_CAP
  let rise := decide (cap ≤ sum ∧ x.land.sumPrev < cap)
  let cnt := if rise then x.land.capCount + 1 else x.land.capCount
  let sign := if rise then signOf fe else if x.land.capSign = 0 ∧ 0 < cnt then signOf fe else x.land.capSign
  let x := { x with land := { x.land with sweepV := some v, sumPrev := sum, capCount := cnt, capSign := sign } }
  if cnt = x.land.sweepCap ∧ cap ≤ sum ∧ sign ≠ 0 ∧ (fe = 0 ∨ signOf fe = -sign) then
    (x.capture c v x.land.sweepLayer).refresh c
  else if v = x.ri LandReg.FSW_END then x.focusFails c 2
  else x

/-- One focus sample's part in the lock and loss counts (R228); samples of a layer jump, up to its lock, and of a hold are
not counted as lost. -/
def Head.focusCounts (a : BitVec 800) (x : Head) : Head :=
  let sum := srvFocusSum a
  let f := x.r LandReg.FSTAT
  let good := decide ((srvFocusErr a).natAbs ≤ x.r LandReg.FE_LOCK) && decide (x.r LandReg.FSUM_LOCK ≤ sum)
  let x := if f = 2 then
      { x with land := { x.land with goodFocus := runOn good (atLeast1 (x.r LandReg.FLOCK_N)) x.land.goodFocus } }
    else x
  if (f = 2 ∨ f = 3) ∧ ¬ x.b LoopReg.HOLD_ACTIVE ∧ x.land.jumpPhase = 0 then
    { x with land := { x.land with
      lossFocus := runOn (decide (sum < x.r LandReg.FSUM_LOSS)) (atLeast1 (x.r LandReg.FLOSS_N)) x.land.lossFocus } }
  else x

/-- The braking pulse of a jump begins (R229). -/
def Head.jumpBrake (c : Ctx) (x : Head) : Head :=
  let x := x.landAct c 0 (sat32 (x.land.jumpU0 - x.land.jumpDir * x.ri LandReg.BRAKE_AMP))
  { x with land := { x.land with jumpPhase := 4, jumpAt := c.cyc } }

/-- One focus sample while a jump waits for its crossing (R229). -/
def Head.jumpSample (c : Ctx) (a : BitVec 800) (x : Head) : Head :=
  let sum := srvFocusSum a
  let fe := srvFocusErr a
  let cap := x.r LandReg.FSUM_CAP
  if !x.land.jumpFell then
    if sum < cap then { x with land := { x.land with jumpFell := true } } else x
  else if !x.land.jumpRose then
    if cap ≤ sum then
      let x := { x with land := { x.land with jumpRose := true, jumpSign := signOf fe } }
      if fe = 0 then x.jumpBrake c else x
    else x
  else if fe = 0 ∨ signOf fe = -x.land.jumpSign then x.jumpBrake c
  else x

/-- The Landing's work at a due instant `t` of the focus loop, with the servo fields of R199 (R227 to R229). -/
def Head.focusSample (c : Ctx) (t : Nat) (a : BitVec 800) (x : Head) : Head :=
  if x.r LandReg.FSTAT = 1 then x.sweepStep c t a
  else if x.land.jumpPhase = 3 then x.jumpSample c a
  else x.focusCounts a

/-- The Landing's work at a due sample of the corrector's loop with input `m` (R229). -/
def Head.saSample (m : Int) (x : Head) : Head :=
  if x.land.jumpPhase = 1 then
    let n := x.r LandReg.SA_LOOP
    let near := decide ((m - x.ri (LoopReg.LOOP_REF n)).natAbs ≤ x.r LandReg.SA_WIN)
    { x with land := { x.land with saRun := runOn near 3 x.land.saRun } }
  else x

/-- Every LASER command of the running FOCUS_ON has been acknowledged: the sweep begins (R227). A command issued before it
belongs to an earlier one, and counts nothing. -/
def Head.laserAck (c : Ctx) (ok : Bool) (issued : Nat) (x : Head) : Head :=
  if x.land.laserAcks = 0 ∨ issued < x.land.laserSince then x
  else if ok then
    let k := x.land.laserAcks - 1
    let x := { x with land := { x.land with laserAcks := k } }
    if k = 0 then
      ({ x.w LandReg.FSTAT 1 with land := { x.land with
        sweepV := none, sumPrev := 65535, capCount := 0, capSign := 0 } }).refresh c
    else x
  else x.focusFails c 12

/-! ### Head commands -/

/-- A command ends at once (R219). -/
def Head.report (code : Nat) (x : Head) : Head :=
  (x.w LandReg.LAST_CODE code).flag (if code = 0 then LandReg.CMD_DONE else LandReg.CMD_FAIL)

/-- A command is refused (R219): LAST_CODE = REFUSED_STATE. -/
def Head.cmdRefused (x : Head) : Head := (x.flag LandReg.CMD_REFUSED).w LandReg.LAST_CODE 1

/-- FOCUS to CALIB, except CALIB from PARKED (R219). -/
def Head.focusToCalib (x : Head) : Bool := x.r LandReg.HSTATE == 4 || x.tracking

/-- HCMD PARK (R217, R219). -/
def Head.hcmdPark (c : Ctx) (x : Head) : Head :=
  let h := x.r LandReg.HSTATE
  if 2 ≤ h ∧ h ≤ 9 then
    let x := ((((x.stopSlot1 c).managedOff c).lasersOff c).cmdEnd 10).jumpOff
    ((((x.setHstate 1).stopRequest c).refresh c).report 0)
  else x.cmdRefused

/-- HCMD SPIN (R217, R219). -/
def Head.hcmdSpin (c : Ctx) (x : Head) : Head :=
  if x.r LandReg.HSTATE = 1 ∧ ¬ x.b LandReg.CMD_BUSY then
    let x := { x.put LandReg.CMD_BUSY true with land := { x.land with cmd := some 2 } }
    if x.b SpinReg.STOPPED then ((x.setHstate 2).spinUp c).refresh c
    else ((x.setHstate 3).catchRequest c).refresh c
  else x.cmdRefused

/-- HCMD FOCUS_ON (R219, R220, R227). -/
def Head.hcmdFocusOn (c : Ctx) (x : Head) : Head :=
  if x.r LandReg.HSTATE = 4 ∧ x.r LandReg.FSTAT = 0 ∧ ¬ x.b LandReg.CMD_BUSY ∧ x.namesLoop (x.r LandReg.FOCUS_LOOP) then
    let x := { x.put LandReg.CMD_BUSY true with land := { x.land with
      cmd := some 3, laserAcks := 32, laserSince := c.now, sweepLayer := x.r LandReg.TARGET_LAYER, sweepCap := x.capN } }
    (List.range 32).foldl (fun x b => x.laser c .landing b 1 (x.r (WriteReg.RPOWER b)) 0) x
  else x.cmdRefused

/-- HCMD FOCUS_OFF (R217, R219). -/
def Head.hcmdFocusOff (c : Ctx) (x : Head) : Head :=
  if x.focusToCalib then
    let x := { x with land := { x.land with laserAcks := 0 } }
    ((x.jumpOff).toFocus0 c 10).report 0
  else x.cmdRefused

/-- HCMD TRACK_ON (R219, R220, R232). -/
def Head.hcmdTrackOn (c : Ctx) (x : Head) : Head :=
  if x.r LandReg.HSTATE = 4 ∧ x.r LandReg.FSTAT = 3 ∧ ¬ x.b LandReg.CMD_BUSY ∧ x.namesLoop (x.r LandReg.TRACK_LOOP) then
    x.seekStart c 5
  else x.cmdRefused

/-- HCMD TRACK_OFF (R217, R219). -/
def Head.hcmdTrackOff (c : Ctx) (x : Head) : Head :=
  if x.tracking then (x.toFocus c 10).report 0 else x.cmdRefused

/-- The target of a SEEK is a band of R96 that can be addressed, on a layer the disc has (R219). -/
def Head.targetOk (x : Head) : Bool :=
  let v := x.r LandReg.TARGET_BAND
  (isUserBand v || isSystemBand v || isPcaBand v) && decide (x.r LandReg.TARGET_LAYER < x.layerCount)

/-- HCMD SEEK (R219, R220, R232). -/
def Head.hcmdSeek (c : Ctx) (x : Head) : Head :=
  let h := x.r LandReg.HSTATE
  let jump := x.r LandReg.TARGET_LAYER ≠ x.r LandReg.LAYER
  if ((h = 4 ∧ x.r LandReg.FSTAT = 3) ∨ h = 6) ∧ ¬ x.b LandReg.CMD_BUSY ∧ x.namesLoop (x.r LandReg.TRACK_LOOP)
      ∧ (jump = true → x.namesLoop (x.r LandReg.FOCUS_LOOP)) then
    if x.targetOk then x.seekStart c 7 else x.report 11
  else x.cmdRefused

/-- HCMD CLEAR_FAULT (R217, R219): the Landing's SAFE order is withdrawn, unless a fault is still present. -/
def Head.hcmdClearFault (c : Ctx) (x : Head) : Head :=
  if x.r LandReg.HSTATE = 11 then
    if bitOf x.land.lastInputs 4 || x.routedFault then x.report 14
    else
      let x := { x with land := { x.land with safeOrdered := false } }
      let x := if x.b RiserReg.SAFE_CMD then x else x.safeEnds 1
      ((x.setHstate 10).refresh c).report 0
  else x.cmdRefused

/-- HCMD is written (R219): a NOP, too, is refused while CMD_BUSY = 1. -/
def Head.hcmd (c : Ctx) (v : Nat) (x : Head) : Head :=
  match v % 16 with
  | 0 => if x.b LandReg.CMD_BUSY then x.cmdRefused else x
  | 1 => x.hcmdPark c
  | 2 => x.hcmdSpin c
  | 3 => x.hcmdFocusOn c
  | 4 => x.hcmdFocusOff c
  | 5 => x.hcmdTrackOn c
  | 6 => x.hcmdTrackOff c
  | 7 => x.hcmdSeek c
  | 8 => x.hcmdClearFault c
  | _ => x.cmdRefused

/-! ### Wedge demodulator -/

/-- A window opens (R221). -/
def Head.wedgeOpen (te : Int) (num : Nat) (x : Head) : Head :=
  { x with land := { x.land with winOpen := some { openTe := te, closeTe := 0, num := num, bad := false, ovf := false } } }

/-- The open window closes and awaits its frames (R222). -/
def Head.wedgeClose (te : Int) (x : Head) : Head :=
  match x.land.winOpen with
  | none => x
  | some w => { x with land := { x.land with winOpen := none, winClose := some { w with closeTe := te } } }

/-- Relative angle of an instant to a wedge (R221). -/
def Head.relAngle (x : Head) (at16 : Int) (num : Nat) : Int := wrap24 ((x.angleAt at16 : Int) - num * 65536)

/-- The classes of R221 as one range test: S, I, D, A and B. -/
def isStripe (q : Int) : Bool :=
  decide (-32 ≤ q ∧ q ≤ 63) || decide (80 ≤ q ∧ q ≤ 111) || decide (336 ≤ q ∧ q ≤ 495) || decide (656 ≤ q ∧ q ≤ 815)

/-- The window an instant belongs to (R221). -/
def Head.windowOf (x : Head) (at16 : Int) : Option Window :=
  match x.land.winClose with
  | some w => if w.openTe ≤ at16 ∧ at16 < w.closeTe then some w
    else (match x.land.winOpen with | some v => if v.openTe ≤ at16 then some v else none | none => none)
  | none => match x.land.winOpen with | some v => if v.openTe ≤ at16 then some v else none | none => none

/-- The stripe edges of a good frame (R221): rising edges with VALID = 1 inside a window and in a class. -/
def Head.frameEdges (a : BitVec 800) (num : Nat) (x : Head) : Head :=
  (List.range 8).foldl (fun x i =>
    let s := srvStripe a i
    if bitOf s 11 && bitOf s 12 then
      let t : Int := (num * 1600 + s % 2048 : Nat)
      match x.windowOf t with
      | none => x
      | some w =>
        let q := x.relAngle t w.num
        if isStripe q then { x with land := { x.land with edges := x.land.edges ++ [{ at16 := t, q := q }] } } else x
    else x) x

/-- A frame that overlaps a window marks it bad or overflowed (R222). -/
def Window.frame (num : Nat) (bad ovf : Bool) (w : Window) : Window :=
  let f : Int := (num * 1600 : Nat)
  if w.openTe < f + 1600 ∧ (w.closeTe = 0 ∨ f < w.closeTe) then { w with bad := w.bad || bad, ovf := w.ovf || ovf } else w

/-- A frame, good or bad, passes over the windows (R222). -/
def Head.frameWindows (num : Nat) (bad ovf : Bool) (x : Head) : Head :=
  { x with land := { x.land with
    winOpen := x.land.winOpen.map (Window.frame num bad ovf), winClose := x.land.winClose.map (Window.frame num bad ovf) } }

/-- The edges of a class within a window. -/
def edgesIn (l : List Edge) (lo hi : Int) : List Edge := l.filter fun e => decide (lo ≤ e.q ∧ e.q ≤ hi)

/-- RHO_raw of R223 from the instants of A1, A2, B1 and B2. -/
def rhoRaw (a1 a2 b1 b2 : Int) : Int :=
  let dab := (b1 - a1) + (b2 - a2)
  let ref := (a2 - a1) + (b2 - b1)
  3 * 2 ^ 28 - (if ref = 0 then Config.wedgeQuotient dab else dab * 2 ^ 27 / ref)

/-- The code of a wedge and its RHO_raw (R222, R223). -/
def wedgeCode (w : Window) (l : List Edge) : Nat × Int :=
  let s := edgesIn l (-32) 31
  if w.bad then (6, 0) else if w.ovf then (5, 0) else if s.length ≠ 1 then (1, 0)
  else
    match edgesIn l 336 495, edgesIn l 656 815 with
    | a1 :: a2 :: _, b1 :: b2 :: _ =>
      let r := rhoRaw a1.at16 a2.at16 b1.at16 b2.at16
      if r < -(2 ^ 24) ∨ 2 ^ 28 + 2 ^ 24 < r then (4, r) else (0, r)
    | _ :: _ :: _, _ => (3, 0)
    | _, _ => (2, 0)

/-- An index detection (R45 to R47): the residual, the slip flag, and an armed alignment. The detection is known when its
wedge completes, and the residual is the angle base at the edge's instant by the tracker as it then stands (DEDUCED, log
entry 125). -/
def Head.indexDetected (c : Ctx) (at16 : Int) (x : Head) : Head :=
  let r := wrap24 (x.angleAt at16)
  let x := (x.wi AngleReg.INDEX_RESID r).flagIf (decide (x.r AngleReg.INDEX_WIN < r.natAbs)) AngleReg.INDEX_SLIP
  if x.b AngleReg.ALIGN then
    (x.discOffsetWrite c (unsignedOf 24 ((x.r AngleReg.DISC_OFFSET : Int) - r))).put AngleReg.ALIGN false
  else x

/-- An ID word that passes the checks (R225). -/
def Head.idWord (word v : Nat) (x : Head) : Head :=
  if word % 2 = 0 then
    let e := extendedOf (grayDecode v)
    let x := x.w LandReg.ID_EVEN v
    if !x.b LandReg.BAND_KNOWN then (x.wi LandReg.BAND_E e).put LandReg.BAND_KNOWN true
    else if e ≠ x.land.idFirstE ∧ e ≠ x.bandE then (x.wi LandReg.BAND_E e).flag LandReg.BAND_SLIP
    else x
  else
    let x := x.w LandReg.ID_ODD v
    x.flagIf (v % 16 != x.r LandReg.LAYER) LandReg.LAYER_MISMATCH

/-- The revolution of wedge `num` whose window opened at `t`, counted by the position (R44, R225). -/
def Head.revOf (num : Nat) (t : Int) (x : Head) : Int := (x.posAt t - num * 2 ^ 40 + 2 ^ 47) / 2 ^ 48

/-- The ID bit of a complete wedge (R225): a word is decoded once its 16 wedges, in one
revolution, were all VALID. -/
def Head.idBit (num : Nat) (openTe : Int) (valid d : Bool) (x : Head) : Head :=
  let k := num % 16
  let word : Int × Int := (num / 16, x.revOf num openTe)
  if !valid then { x with land := { x.land with idCount := 0 } }
  else if k = 0 then
    { x with land := { x.land with idBits := flagNat d, idCount := 1, idFirstE := x.bandE, idOf := word } }
  else if x.land.idCount = k ∧ x.land.idOf = word then
    let v := x.land.idBits + flagNat d * 2 ^ k
    let x := { x with land := { x.land with idBits := v, idCount := k + 1 } }
    if k = 15 then
      if idWordOk (num / 16 % 2 == 1) v then x.idWord (num / 16) v else x.flag LandReg.ID_BAD
    else x
  else { x with land := { x.land with idCount := 0 } }

/-- The unwrap of R224 for a new RHO. -/
def Head.unwrap (rho : Nat) (x : Head) : Head :=
  match x.land.rhoOld with
  | none => x
  | some old =>
    let d : Int := (rho : Int) - old
    if d < -(2 ^ 27) then x.wi LandReg.BAND_E (x.bandE + 1)
    else if 2 ^ 27 < d then x.wi LandReg.BAND_E (x.bandE - 1)
    else x

/-- TE of a VALID wedge (R226). -/
def Head.trackError (x : Head) (rho : Nat) : Int :=
  if x.b LandReg.BAND_KNOWN then
    sat32 (x.bandE * 2 ^ 28 + rho - (x.land.target * 2 ^ 28 + 2 ^ 27 + x.ri LandReg.TRK_OFS))
  else sat32 ((rho : Int) - 2 ^ 27 - x.ri LandReg.TRK_OFS)

/-- The checks of R233 and the inhibit's counts of R235 on a complete wedge. -/
def Head.wedgeChecks (valid : Bool) (te : Int) (x : Head) : Head :=
  let m := te.natAbs
  let h := x.r LandReg.HSTATE
  let lock := valid && decide (m ≤ x.r LandReg.TLOCK_THR) && x.b LandReg.BAND_KNOWN && x.bandE == x.land.target
  let tracks := x.namesLoop (x.r LandReg.TRACK_LOOP) && x.b (LoopReg.ENABLE (x.r LandReg.TRACK_LOOP))
  let off := tracks && valid && decide (x.r LandReg.OT_THR < m) && (h == 6 || h == 7 || h == 8 || h == 9)
  let locked := x.r LandReg.TSTAT = 6
  let x := if off then (x.flag LandReg.OFF_TRACK).bump LandReg.OFF_TRACK_COUNT 1 else x
  let l := x.land
  let x := if tracks then
      { x with land := { l with
        lockRun := if h = 5 then runOn lock (atLeast1 (x.r LandReg.TLOCK_N)) l.lockRun else 0
        lossRun := if locked then (if valid then runOn (decide (x.r LandReg.LOSS_THR < m)) 2 l.lossRun else l.lossRun) else 0
        invRun := if !locked then 0
          else if x.b LoopReg.HOLD_ACTIVE && !valid then l.invRun
          else runOn (!valid) (atLeast1 (x.r LandReg.INV_N)) l.invRun } }
    else x
  { x with land := { x.land with
    wiInvRun := if valid then 0 else x.land.wiInvRun + 1
    wiTe := if valid then decide (x.r LandReg.WI_THR < m) else x.land.wiTe } }

/-- A VALID wedge gives a position (R223, R224, R226). -/
def Head.wedgeValid (raw : Int) (x : Head) : Head :=
  let rho := (clampInt 0 (2 ^ 28 - 1) raw).toNat
  let x := x.unwrap rho
  { x.w LandReg.RHO rho with land := { x.land with rhoOld := some rho, wedges := x.land.wedges + 1 } }

/-- The closed window's frames have all arrived: its wedge completes (R222 to R226, R233, R235). -/
def Head.wedgeDone (c : Ctx) (w : Window) (x : Head) : Head :=
  let l := x.land.edges.filter fun e => decide (w.openTe ≤ e.at16 ∧ e.at16 < w.closeTe)
  let x := { x with land := { x.land with
    winClose := none, edges := x.land.edges.filter fun e => decide (w.closeTe ≤ e.at16) } }
  let (code, raw) := wedgeCode w l
  let valid := code == 0
  let x := (x.w LandReg.WEDGE_CODE code).w LandReg.WEDGE_NUM w.num
  let x := match edgesIn l 32 63, edgesIn l (-32) 31 with
    | _ :: _, s :: _ => x.indexDetected c s.at16
    | _, _ => x
  let x := if valid then x.wedgeValid raw else (x.flag LandReg.WEDGE_INVALID).bump LandReg.WEDGE_INV_COUNT 1
  let x := x.idBit w.num w.openTe valid !(edgesIn l 80 111).isEmpty
  let te := x.trackError (x.r LandReg.RHO)
  let x := if valid then { x.wi LandReg.TE te with land := { x.land with teLast := te } } else x
  let x := x.wedgeChecks valid te
  let x : Head := if x.land.seekOn && x.r LandReg.TSTAT == 4 && x.b LandReg.BAND_KNOWN then x.seekIdentified c else x
  x.refresh c

/-- Every upstream frame that starts before the close's t_e has been received or found bad (R222). -/
def Head.framesIn (x : Head) (w : Window) : Bool :=
  match x.loops.servo.head? with
  | none => false
  | some r => decide (w.closeTe ≤ ((r.num + 1) * 1600 : Nat))

/-! ### Meanings -/

/-- Focus lock is declared (R228): the tilt loops are enabled and the selection applied; a layer jump goes on to the
next one or to the seek, and FOCUS_ON is complete. -/
def Head.focusLocked (c : Ctx) (x : Head) : Head :=
  let x : Head := (x.w LandReg.FSTAT 3).loopEnable (x.r LandReg.TILT_R_LOOP) true
  let x : Head := (x.loopEnable (x.r LandReg.TILT_T_LOOP) true).applySelection c
  let x : Head := { x with land := { x.land with goodFocus := 0 } }
  if x.land.jumpPhase = 5 then
    let y : Head := x.jumpOff
    let z : Head := if y.land.seekOn then
        (if y.r LandReg.LAYER = y.land.seekLayer then y.seekProceed c else y.jumpStart c)
      else y
    z.refresh c
  else (x.cmdEnd 0).refresh c

/-- FLOCK_N consecutive good samples have been counted (R228). -/
def Head.focusLockDue (x : Head) : Bool :=
  x.r LandReg.FSTAT == 2 && decide (atLeast1 (x.r LandReg.FLOCK_N) ≤ x.land.goodFocus)

/-- FOCUS_LOCK (R228). -/
def execFocusLock (wait : Nat) (h : Fin 32) (s : State) : Out :=
  s.headAfter wait h (fun _ x => x.focusLockDue) Head.focusLocked

/-- FLOCK_TIMEOUT (R228): no lock within FLOCK_TO of the capture. -/
def execFlockTimeout (wait : Nat) (h : Fin 32) (s : State) : Out :=
  s.headAfter wait h
    (fun c x => x.r LandReg.FSTAT == 2
      && decide (x.land.captureAt + cyclesOfUs (atLeast1 (x.r LandReg.FLOCK_TO)) ≤ c.cyc))
    fun c x => x.focusFails c 3

/-- FOCUS_LOST (R228): FLOSS_N consecutive samples below FSUM_LOSS. -/
def execFocusLost (wait : Nat) (h : Fin 32) (s : State) : Out :=
  s.headAfter wait h
    (fun _ x => (x.r LandReg.FSTAT == 2 || x.r LandReg.FSTAT == 3)
      && decide (atLeast1 (x.r LandReg.FLOSS_N) ≤ x.land.lossFocus))
    fun c x => ({ (x.jumpOff) with land := { x.jumpOff.land with lossFocus := 0 } }).focusLost c 10

/-- SA_SETTLED (R229): three consecutive samples of the corrector in window; the kick is sent. -/
def execSaSettled (wait : Nat) (h : Fin 32) (s : State) : Out :=
  s.headAfter wait h (fun _ x => x.land.jumpPhase == 1 && x.land.saRun == 3)
    fun c x =>
      let n := x.r LandReg.FOCUS_LOOP
      let u0 := (lookupKey n x.loops.lastOut).getD 0
      let x := (x.w LandReg.FSTAT 4).loopEnable n false
      let x := { x with land := { x.land with
        jumpPhase := 2, jumpAt := c.cyc, jumpKick := c.cyc, jumpU0 := u0, jumpFell := false, jumpRose := false } }
      (x.landAct c 0 (sat32 (u0 + x.land.jumpDir * x.ri LandReg.KICK_AMP))).refresh c

/-- SA_TIMEOUT (R229): the corrector has not settled within SA_TO. -/
def execSaTimeout (wait : Nat) (h : Fin 32) (s : State) : Out :=
  s.headAfter wait h
    (fun c x => x.land.jumpPhase == 1
      && decide (x.land.jumpAt + cyclesOfMs (atLeast1 (x.r LandReg.SA_TO)) ≤ c.cyc))
    fun c x => x.seekFail c 5

/-- KICK_T and BRAKE_T as they act: at least 100 ns, rounded up to 100 ns (R237). -/
def pulseCycles (n : Nat) : Nat := cyclesOfNs ((max 100 n + 99) / 100 * 100)

/-- KICK_END (R229): U0 is held while the crossing is awaited. -/
def execKickEnd (wait : Nat) (h : Fin 32) (s : State) : Out :=
  s.headAfter wait h
    (fun c x => x.land.jumpPhase == 2 && decide (x.land.jumpAt + pulseCycles (x.r LandReg.KICK_T) ≤ c.cyc))
    fun c x => ({ x with land := { x.land with jumpPhase := 3 } }).landAct c 0 x.land.jumpU0

/-- BRAKE_END (R229): the Landing captures on the new layer with V = U0. -/
def execBrakeEnd (wait : Nat) (h : Fin 32) (s : State) : Out :=
  s.headAfter wait h
    (fun c x => x.land.jumpPhase == 4 && decide (x.land.jumpAt + pulseCycles (x.r LandReg.BRAKE_T) ≤ c.cyc))
    fun c x =>
      let l := ((x.r LandReg.LAYER : Int) - x.land.jumpDir).toNat
      (({ x with land := { x.land with jumpPhase := 5 } }).capture c x.land.jumpU0 l).refresh c

/-- JUMP_TIMEOUT (R229): no crossing within JUMP_TO of the kick; it acts as FOCUS_LOST. -/
def execJumpTimeout (wait : Nat) (h : Fin 32) (s : State) : Out :=
  s.headAfter wait h
    (fun c x => (x.land.jumpPhase == 2 || x.land.jumpPhase == 3)
      && decide (x.land.jumpKick + cyclesOfUs (atLeast1 (x.r LandReg.JUMP_TO)) ≤ c.cyc))
    fun c x => x.jumpOff.focusLost c 4

/-- WEDGE_COMPLETE (R222). -/
def execWedgeComplete (wait : Nat) (h : Fin 32) (s : State) : Out :=
  s.headAfter wait h (fun _ x => match x.land.winClose with | none => false | some w => x.framesIn w)
    fun c x => match x.land.winClose with | none => x | some w => x.wedgeDone c w

/-- TRACKING_LOCK (R233): the head is READY, the selection is applied and BAND_EXP written (R159, R231, R217). -/
def execTrackingLock (wait : Nat) (h : Fin 32) (s : State) : Out :=
  s.headAfter wait h
    (fun _ x => x.r LandReg.HSTATE == 5 && x.land.seekOn && (x.r LandReg.TSTAT == 1 || x.r LandReg.TSTAT == 5)
      && decide (atLeast1 (x.r LandReg.TLOCK_N) ≤ x.land.lockRun))
    fun c x =>
      let x := { x.w LandReg.TSTAT 6 with land := { x.land with seekOn := false, lockRun := 0, lossRun := 0, invRun := 0 } }
      let x := (x.applySelection c).w WeftReg.BAND_EXP x.targetBand
      ((x.setHstate 6).cmdEnd 0).refresh c

/-- TRACK_LOST (R233): two VALID wedges with large TE, or INV_N wedges not VALID. -/
def execTrackLost (wait : Nat) (h : Fin 32) (s : State) : Out :=
  s.headAfter wait h
    (fun _ x => x.r LandReg.TSTAT == 6
      && (decide (2 ≤ x.land.lossRun) || decide (atLeast1 (x.r LandReg.INV_N) ≤ x.land.invRun)))
    fun c x =>
      let x := (x.flag LandReg.TRACK_LOST).bump LandReg.TRACK_LOST_COUNT 1
      let x := { x with land := { x.land with lossRun := 0, invRun := 0 } }
      if x.tracking then x.toFocus c 10 else x

/-- SETTLE_END (R232): after SETTLE_T the tracking loops start and the band is identified, at once where it is already
known. -/
def execSettleEnd (wait : Nat) (h : Fin 32) (s : State) : Out :=
  s.headAfter wait h
    (fun c x => x.land.seekOn && x.r LandReg.TSTAT == 3
      && decide (x.land.seekAt + cyclesOfUs (x.r LandReg.SETTLE_T) ≤ c.cyc))
    fun c x =>
      let x := x.seekIdentify c
      (if x.b LandReg.BAND_KNOWN then x.seekIdentified c else x).refresh c

/-- ID_TIMEOUT (R232): no even ID word within ID_TO. -/
def execIdTimeout (wait : Nat) (h : Fin 32) (s : State) : Out :=
  s.headAfter wait h
    (fun c x => x.land.seekOn && x.r LandReg.TSTAT == 4 && !x.b LandReg.BAND_KNOWN
      && decide (x.land.seekAt + cyclesOfUs (atLeast1 (x.r LandReg.ID_TO)) ≤ c.cyc))
    fun c x => x.seekFail c 6

/-- TLOCK_TIMEOUT (R232): no tracking lock within TLOCK_TO of the wait for it. -/
def execTlockTimeout (wait : Nat) (h : Fin 32) (s : State) : Out :=
  s.headAfter wait h
    (fun c x => x.land.seekOn && (x.r LandReg.TSTAT == 1 || x.r LandReg.TSTAT == 5)
      && decide (x.land.seekAt + cyclesOfUs (atLeast1 (x.r LandReg.TLOCK_TO)) ≤ c.cyc))
    fun c x => x.seekFail c 7

/-- HOLD_TIMEOUT (R234): a hold that has lasted HOLD_MAX is dropped, and none follows until the request has fallen. -/
def execHoldTimeout (wait : Nat) (h : Fin 32) (s : State) : Out :=
  s.headAfter wait h
    (fun c x => x.b LoopReg.HOLD_ACTIVE
      && decide (x.land.holdAt + cyclesOfUs (atLeast1 (x.r LandReg.HOLD_MAX)) ≤ c.cyc))
    fun c x =>
      let x := { x.flag LandReg.HOLD_TIMEOUT with land := { x.land with holdBlocked := true } }
      x.refresh c

end Sys2Proof.Machine
end

