-- ==== Sys2Proof/Machine/Calib.lean ====
section
/-! DEFINITION. The calibration block (11_calibration.md): jobs and their windows, the three fits, and the temperature
sets with their interpolation and commits. -/

namespace Sys2Proof.Machine

/-! ### The job table -/

/-- A signed field of four bytes of a job's entry. -/
def Head.jobInt (x : Head) (j k : Nat) : Int := x.cal.jobMem.readS (32 * j + k) 4
/-- SAMPLER of a job (R284). -/
def Head.jobSampler (x : Head) (j : Nat) : Nat := x.jobField j 1 1
/-- STEPS of a job (R284). -/
def Head.jobSteps (x : Head) (j : Nat) : Nat := x.jobField j 3 1
/-- STIM of a job (R284). -/
def Head.jobStim (x : Head) (j : Nat) : Nat := x.jobField j 8 5 % 2 ^ 36
/-- FSEL of a TONE job: bits [15:12] of its CAL_STIM (R288). -/
def Head.jobFsel (x : Head) (j : Nat) : Nat := x.jobStim j % 16
/-- A_REF of a TONE job (R284). -/
def Head.jobAref (x : Head) (j : Nat) : Nat := x.jobField j 0x10 4
/-- START of a REF_SWEEP (R284). -/
def Head.jobStart (x : Head) (j : Nat) : Int := x.jobInt j 0x10
/-- STEP of a REF_SWEEP (R284). -/
def Head.jobStep (x : Head) (j : Nat) : Int := x.jobInt j 0x14
/-- MASK of a REF_SWEEP (R284). -/
def Head.jobMask (x : Head) (j : Nat) : Nat := x.jobField j 0x18 4

/-- The entry of a job may be armed (R285): its KIND is defined and its fields lie in their ranges (R284, R288). -/
def Head.jobOk (x : Head) (j : Nat) : Bool :=
  match x.jobField j 0 1 with
  | 1 => decide (x.jobSampler j ≤ 32) && decide (1 ≤ x.jobFsel j ∧ x.jobFsel j ≤ 12)
  | 2 => decide (x.jobLoop j < 24) && decide (3 ≤ x.jobSteps j ∧ x.jobSteps j ≤ 32)
  | 3 => decide (x.jobLoop j < 24)
  | _ => false

/-- ARM is written with 1 (R285). -/
def Head.calArm (x : Head) : Head :=
  if x.b CalReg.BUSY then x
  else
    let j := x.r CalReg.JOB
    if x.jobOk j then
      let x : Head := { x with cal := { x.cal with
        kind := x.jobField j 0 1, job := j, window := false, openTe := 0, closeTe := none, spanOn := false
        tOpen := 0, tempOpen := 0, n := 0, excluded := 0, clipped := 0, samples := [], evals := [], steps := []
        base := none, injSet := false, stimSent := false, baseRef := 0 } }
      let x : Head := { x with cal := { x.cal with stateSeen := x.calStateOk, linkSeen := x.calLinkOk } }
      ((x.put CalReg.BUSY true).put CalReg.RUNNING false).w CalReg.STEPS_DONE 0
    else (x.w CalReg.JSTATUS 7).flag CalReg.JOB_FAIL

/-- CANCEL is written with 1 (R285). -/
def Head.calCancel (c : Ctx) (x : Head) : Head := if x.b CalReg.BUSY then x.calRestore.calEnd c 1 [] else x

/-! ### The fits -/

/-- The sums of a least-squares fit of a sinusoid: over the samples, 1, sin, cos and their products, and the sample
with each. -/
structure TrigSums where
  n : Int
  s : Int
  c : Int
  ss : Int
  sc : Int
  cc : Int
  v : Int
  vs : Int
  vc : Int
deriving DecidableEq, Repr

/-- The sums with one sample more: its value, and the sine and cosine of its phase. -/
def TrigSums.add (t : TrigSums) (v sn cs : Int) : TrigSums :=
  { n := t.n + fxOne, s := t.s + sn, c := t.c + cs, ss := t.ss + fxMul sn sn, sc := t.sc + fxMul sn cs
    cc := t.cc + fxMul cs cs, v := t.v + v * fxOne, vs := t.vs + v * sn, vc := t.vc + v * cs }

/-- The determinant of the 3 × 3 matrix with columns a, b, c. -/
def det3 (a b c : Int × Int × Int) : Int :=
  a.1 * (b.2.1 * c.2.2 - b.2.2 * c.2.1) - a.2.1 * (b.1 * c.2.2 - b.2.2 * c.1) + a.2.2 * (b.1 * c.2.1 - b.2.1 * c.1)

/-- The phase of a TONE sample in turns, over 16 000: FSEL × 10^7 × t with t in 1/160 ns (R288, R289). -/
def tonePhase (fsel : Nat) (t : Int) : Int := (fsel * t) % 16000

/-- A limit of a field of `w` bits, unsigned. -/
def limitU (w : Nat) (i : Int) : Nat := (clampInt 0 (2 ^ w - 1) i).toNat

/-- A limit of a field of `w` bits, signed, as stored. -/
def limitS (w : Nat) (i : Int) : Nat := unsignedOf w (clampInt (-(2 ^ (w - 1))) (2 ^ (w - 1) - 1) i)

/-- The fitted fields of a TONE job (R289): byte, size and value in the result record. -/
def toneFit (fsel aref : Nat) (l : List (Int × Int)) : List (Nat × Nat × Nat) :=
  let ph (t : Int) : Int × Int :=
    let a := fxTurn (tonePhase fsel t) 16000
    (fxSin a, fxCos a)
  let m : TrigSums := l.foldl (fun (m : TrigSums) e => m.add e.2 (ph e.1).1 (ph e.1).2) ⟨0, 0, 0, 0, 0, 0, 0, 0, 0⟩
  let c1 := (m.n, m.s, m.c)
  let c2 := (m.s, m.ss, m.sc)
  let c3 := (m.c, m.sc, m.cc)
  let b := (m.v, m.vs, m.vc)
  let d := det3 c1 c2 c3
  if d < fxOne * fxOne * fxOne / 2 ^ 40 then
    [(0x20, 2, Config.toneFree 0), (0x22, 2, Config.toneFree 1), (0x24, 2, Config.toneFree 2),
     (0x26, 2, Config.toneFree 3), (0x28, 4, Config.toneFree 4)]
  else
    let o := det3 b c2 c3 * fxOne / d
    let p := det3 c1 b c3 * fxOne / d
    let q := det3 c1 c2 b * fxOne / d
    let a : Int := (isqrt (p * p + q * q).toNat : Int)
    let sq := l.foldl (fun z e =>
      let r := e.2 * fxOne - o - fxMul p (ph e.1).1 - fxMul q (ph e.1).2
      z + r * r) 0
    let rms : Int := (isqrt (4 * 256 * 256 * sq / (l.length * (fxOne * fxOne))).toNat + 1 : Int) / 2
    let flat := decide (a < fxOne / 2 ^ 60)
    let gain := if flat then Config.toneFree 0 else limitU 16 (nearest (16 * aref * fxOne) a)
    let skew := if flat then Config.toneFree 2
      else limitS 16 (nearest (fxAngle q p * 1024000) (fxTwoPi * max 1 (fsel : Int)))
    [(0x20, 2, gain), (0x22, 2, unsignedOf 16 (signedOf 12 (limitS 12 (nearest (32 * o) fxOne)))), (0x24, 2, skew),
     (0x26, 2, limitU 16 rms), (0x28, 4, limitU 32 (nearest (256 * a) fxOne))]

/-- The fitted fields of a LOOP_GAIN job (R291) over its evaluations: due instant, x, x + inj. The fitted sinusoid of x is
that of its complex amplitude, and RESID counts in the unit of x (DEDUCED, log entry 29). -/
def gainFit (injF : Nat) (l : List (Int × Int × Int)) : List (Nat × Nat × Nat) :=
  let ph (t : Int) : Int × Int :=
    let a := fxTurn ((t * injF) % 2 ^ 32) (2 ^ 32)
    (fxSin a, fxCos a)
  let sum (f : Int × Int × Int → Int) (g : Int × Int → Int) : Int := l.foldl (fun z e => z + f e * g (ph e.1)) 0
  let xc := sum (·.2.1) (·.2)
  let xs := sum (·.2.1) (·.1)
  let yc := sum (·.2.2) (·.2)
  let ys := sum (·.2.2) (·.1)
  let re := xc * yc + xs * ys
  let im := xc * ys - xs * yc
  let nx := xc * xc + xs * xs
  let ny := yc * yc + ys * ys
  let n : Int := max 1 l.length
  let sq := l.foldl (fun z e =>
    let r := e.2.1 * fxOne - (2 * fxMul xc (ph e.1).2 + 2 * fxMul xs (ph e.1).1) / n
    z + r * r) 0
  let resid := (0x26, 2, limitU 16 ((isqrt (4 * sq / (n * (fxOne * fxOne))).toNat + 1 : Int) / 2))
  if ny < fxOne then [resid, (0x28, 4, Config.gainFree 0), (0x2C, 4, Config.gainFree 1)]
  else
    let g : Int := ((isqrt (4 * 2 ^ 32 * nx / ny).toNat : Nat) + 1 : Int) / 2
    let phase := if re = 0 ∧ im = 0 then Config.gainFree 1
      else limitS 32 (nearest (fxAngle im re * 2 ^ 24) fxTwoPi)
    [resid, (0x28, 4, limitU 32 g), (0x2C, 4, phase)]

/-- A reference BASE plus an offset; a sum outside 32 bits has no stated value (log entry 28). -/
def refSum (v : Int) : Int := if sat32 v = v then v else Config.wideSum v

/-- The sums of i^k and of i^k M(i) over the steps that counted frames (R290). -/
def sweepSum (l : List (Nat × CalStep)) (k : Nat) (m : Bool) : Rat :=
  l.foldl (fun z e => z + ((e.1 : Rat) ^ k) * (if m then (e.2.sum : Rat) / (e.2.n : Rat) else 1)) 0

/-- The determinant of a 3 × 3 matrix of rationals with columns a, b, c. -/
def ratDet (a b c : Rat × Rat × Rat) : Rat :=
  a.1 * (b.2.1 * c.2.2 - b.2.2 * c.2.1) - a.2.1 * (b.1 * c.2.2 - b.2.2 * c.1) + a.2.2 * (b.1 * c.2.1 - b.2.1 * c.1)

/-- A rational rounded to nearest, halves upwards. -/
def ratNear (r : Rat) : Int := (r + 1 / 2).floor

/-- The fitted fields of a REF_SWEEP job (R290): c2, FIT_REF and FIT_STATUS. -/
def sweepFit (base start step : Int) (steps : Nat) (l : List CalStep) : List (Nat × Nat × Nat) :=
  let used := ((List.range l.length).zip l).filter fun e => decide (0 < e.2.n)
  let out (c2 : Rat) (ref : Int) (st : Nat) : List (Nat × Nat × Nat) :=
    [(0x28, 4, limitS 32 (ratNear c2)), (0x2C, 4, unsignedOf 32 ref), (0x30, 1, st)]
  if used.length < 3 then out 0 0 3
  else
    let s (k : Nat) : Rat := sweepSum used k false
    let t (k : Nat) : Rat := sweepSum used k true
    let d := ratDet (s 0, s 1, s 2) (s 1, s 2, s 3) (s 2, s 3, s 4)
    let c1 := ratDet (s 0, s 1, s 2) (t 0, t 1, t 2) (s 2, s 3, s 4) / d
    let c2 := ratDet (s 0, s 1, s 2) (s 1, s 2, s 3) (t 0, t 1, t 2) / d
    if c2 ≤ 0 then out c2 0 1
    else
      let i := -c1 / (2 * c2)
      let ref := refSum (base + start + ratNear (i * step))
      out c2 ref (if 0 ≤ i ∧ i ≤ steps - 1 then 0 else 2)

/-- A job that has gathered everything ends: NO_DATA, or DONE with its fit (R287). -/
def Head.calFinish (c : Ctx) (x : Head) : Head :=
  let j := x.cal.job
  let k := x.cal
  if k.n = 0 then x.calEnd c 6 []
  else if k.kind = 2 then x.calEnd c 0 (sweepFit k.baseRef (x.jobStart j) (x.jobStep j) (x.jobSteps j) k.steps)
  else if k.kind = 1 then x.calEnd c 0 (toneFit (x.jobFsel j) (x.jobAref j) k.samples)
  else x.calEnd c 0 (gainFit (x.r CalReg.INJ_F) k.evals)

/-! ### Windows -/

/-- The stream of sampler `i` has been delivered up to `te` (1/16 ns): every sample whose nominal instant is not after it
(R77, R288), and the sample at which a gate close of that instant takes effect (R60, R290). -/
def Head.deliveredTo (x : Head) (te : Int) (i : Nat) : Bool :=
  match lookupKey i x.riser.delivered with
  | none => true
  | some n => decide (te * 10 < (n : Int) * 64)
      && decide (te * 640 ≤ 4096 * ((n : Int) - 1) + signedOf 16 (bitsOf (x.scorrReg i) 47 32))

/-- The samplers whose samples a window's close at `te` waits for. -/
def Head.calStreams (te : Int) (x : Head) : List Nat :=
  if x.cal.kind = 1 then [x.jobSampler x.cal.job]
  else if x.cal.kind = 2 then
    let m := x.jobMask x.cal.job
    ((List.range 32).filter fun b => bitOf m b).map fun b => if x.coveredAt te = some b then 32 else b
  else []

/-- A sample of a LOOP_GAIN job's loop that fell due by `te` is still to be taken or evaluated (R291). -/
def Head.gainOwed (te : Int) (x : Head) : Bool :=
  let n := x.jobLoop x.cal.job
  x.cal.kind == 3 && (x.loops.due.any (fun d => d.loop == n && decide ((16 * d.time : Nat) ≤ te))
    || (x.nsec n != 0 && !x.trig n && (x.dueAt n (te / 16).toNat).isSome))

/-- The last window is closed: once its samples have all been delivered, or its evaluations made, the job ends (DEDUCED, log
entry 25). -/
def Head.calSettle (c : Ctx) (x : Head) : Head :=
  match x.cal.closeTe with
  | none => x
  | some te => if (x.calStreams te).all (x.deliveredTo te) && !x.gainOwed te then x.calFinish c else x

/-- A calibration window opens that serves the armed job (R286, R288, R290, R291). -/
def Head.calWindow (c : Ctx) (te : Int) (x : Head) : Head :=
  let j := x.cal.job
  let first := !x.b CalReg.RUNNING
  let x : Head := x.put CalReg.RUNNING true
  let x : Head := { x with cal := { x.cal with window := true, openTe := te, closeTe := none, spanOn := false } }
  let x : Head := if first then { x with cal := { x.cal with
      tOpen := (te / 16).toNat, tempOpen := x.r CalReg.TEMP } } else x
  let x : Head :=
    match x.cal.kind with
    | 1 =>
      let k := x.jobSampler j
      let cov := x.coveredAt te
      if (if k < 32 then cov == some k else cov == none) then
        let y := x.issue c { RCmd.reset with op := 0x0A, arg := k + x.jobStim j * 2 ^ 12 + 2 * 2 ^ 8, src := .cal }
        { y with cal := { y.cal with stimSent := y.up } }
      else x.calEnd c 2 []
    | 2 =>
      let n := x.jobLoop j
      let x : Head := if x.cal.base.isSome then x
        else { x with cal := { x.cal with base := some (x.ri (LoopReg.LOOP_REF n)), baseRef := x.ri (LoopReg.LOOP_REF n) } }
      let v := refSum (x.cal.base.getD 0 + x.jobStart j + (x.r CalReg.STEPS_DONE : Int) * x.jobStep j)
      let x : Head := x.loopRef n v
      { x with cal := { x.cal with steps := x.cal.steps ++ [{ CalStep.reset with ref := x.ri (LoopReg.LOOP_REF n), lo := x.calSpan }] } }
    | _ =>
      let x : Head := (x.w CalReg.INJ_F (x.jobField j 0x14 4)).w CalReg.INJ_AMP (x.jobField j 0x18 4)
      let x : Head := ((x.w LoopReg.INJ_LOOP (x.jobLoop j)).w LoopReg.INJ_POINT 0).put LoopReg.INJ_EN true
      { x with cal := { x.cal with injSet := true } }
  x.calCheck c

/-- A CAL_WINDOW_OPEN fires (R286): it opens the armed job's window, or is ignored and counted; so is one after the close of
the job's last window, which only awaits what was measured in it. -/
def Head.calOpen (c : Ctx) (arg : Nat) (te : Int) (x : Head) : Head :=
  if x.b CalReg.BUSY && !x.cal.window && x.cal.closeTe.isNone && arg == x.cal.job then x.calWindow c te
  else x.bump CalReg.WIN_IGNORED 1

/-- The last window of a job closes at `te` (R290, R291): the saved reference is restored, the injection ends, and the job
ends once what was measured has arrived. -/
def Head.calLast (c : Ctx) (te : Int) (x : Head) : Head :=
  let x : Head := x.calRestore
  let x : Head := if x.cal.injSet then x.put LoopReg.INJ_EN false else x
  let x : Head := { x with cal := { x.cal with base := none, injSet := false, closeTe := some te } }
  x.calSettle c

/-- A CAL_WINDOW_CLOSE fires (R286): it closes the open window of its job, which STEPS_DONE counts, or is ignored and
counted. -/
def Head.calClose (c : Ctx) (arg : Nat) (te : Int) (x : Head) : Head :=
  if x.b CalReg.BUSY && x.cal.window && arg == x.cal.job then
    let x : Head := { x with cal := { x.cal with
      window := false, spanOn := false
      steps := x.cal.steps.modify (x.cal.steps.length - 1) fun s => { s with hi := some te } } }
    let x : Head := x.w CalReg.STEPS_DONE (x.r CalReg.STEPS_DONE + 1)
    if x.cal.kind = 2 ∧ x.r CalReg.STEPS_DONE < x.jobSteps x.cal.job then x else x.calLast c te
  else x.bump CalReg.WIN_IGNORED 1

/-- SPAN_START (R286): SETTLE_NS after the open, the measurement span of the window begins. -/
def execSpanStart (wait : Nat) (h : Fin 32) (s : State) : Out :=
  s.headAfter wait h
    (fun c x => x.b CalReg.RUNNING && x.cal.window && !x.cal.spanOn && decide (x.calSpan ≤ (c.now : Int)))
    fun _ x => { x with cal := { x.cal with spanOn := true } }

/-- A sample of the stream of sampler `i`, taken at `t10` (1/160 ns), reaches a TONE job: counted, clipped or excluded;
a switch of the spare inside the span ends the job (R287, R288). -/
def Head.calTone (c : Ctx) (i : Nat) (t10 : Int) (v : Option Int) (x : Head) : Head :=
  if x.cal.kind = 1 && x.b CalReg.RUNNING && (x.cal.spanOn || x.cal.closeTe.isSome) && i == x.jobSampler x.cal.job
      && x.inSpan t10 then
    if x.coveredAt (t10 / 10) ≠ x.coveredAt x.calSpan then x.calEnd c 3 []
    else
      match v with
      | none => { x with cal := { x.cal with excluded := x.cal.excluded + 1 } }
      | some v => { x with cal := { x.cal with
          n := x.cal.n + 1, samples := (t10, v) :: x.cal.samples
          clipped := if v ≤ -64 ∨ 63 ≤ v then x.cal.clipped + 1 else x.cal.clipped } }
  else x

/-- The span of a REF_SWEEP step takes in the instant `te` (R286). -/
def CalStep.holds (te : Int) (e : CalStep) : Bool :=
  decide (e.lo ≤ te) && (match e.hi with | none => true | some t => decide (te ≤ t))

/-- A frame of beam position `b` ends by a gate close at `te` with MSE `v`: the REF_SWEEP step in whose span it ends counts
it, also when its samples come after a later open (R290). -/
def Head.calFrame (b : Nat) (te : Int) (v : Nat) (x : Head) : Head :=
  if x.cal.kind = 2 && x.b CalReg.RUNNING && bitOf (x.jobMask x.cal.job) b then
    match x.cal.steps.findIdx? (CalStep.holds te) with
    | none => x
    | some i => { x with cal := { x.cal with
        n := x.cal.n + 1, steps := x.cal.steps.modify i fun s => { s with sum := s.sum + v, n := s.n + 1 } } }
  else x

/-- SPARE_MISMATCH is set during the span of a TONE job (R287). -/
def Head.calMismatch (c : Ctx) (x : Head) : Head :=
  if x.cal.kind = 1 && x.b CalReg.RUNNING && x.cal.window && x.cal.spanOn then x.calEnd c 3 [] else x

/-- The job's CAL_STIM is acknowledged other than OK, or counted lost (R287). -/
def Head.calStimBad (c : Ctx) (x : Head) : Head :=
  if x.cal.kind = 1 && x.b CalReg.RUNNING && x.cal.stimSent then x.calEnd c 8 [] else x

/-! ### Temperature -/

/-- TEMP follows a good upstream frame, or the firmware's value, as TSRC says (R294). -/
def Head.takeTemp (a : BitVec 800) (x : Head) : Head :=
  if x.b CalReg.TSRC then { (x.w CalReg.TEMP (x.r CalReg.TEMP_FW)) with cal := { x.cal with tempOk := true } }
  else
    let t := srvTelem a (x.r CalReg.TEMP_WORD)
    if bitsOf t 7 0 = x.r CalReg.TEMP_ITEM then
      { (x.wi CalReg.TEMP (signedOf 24 (t / 2 ^ 8))) with cal := { x.cal with tempOk := true } }
    else { x.flag CalReg.TEMP_INVALID with cal := { x.cal with tempOk := false } }

/-! ### Slots -/

/-- First word of slot `n` of local head `l` in its tile's store (R430). -/
def slotWord (l : Fin 4) (n : Nat) : Nat := (0x20000 + 0x10000 * l.val + 0x2000 * n) / 8

/-- The image of a slot as the store reads (R293, R435). -/
def Selvedge.slotImage (v : Selvedge) (base : Nat) : Mem :=
  (List.range 1024).foldl (fun m k => m.writeLE (8 * k) 8 (v.read (base + k)).toNat) .empty

/-- Reading `n` words of a tile's store from word `base` up moves the registers of R435. -/
def State.noteSelvReads (t : Fin 8) (base n : Nat) (s : State) : State :=
  let v := (s.tile t).selv
  ((v.ue ++ v.ce.filter fun w => !v.ue.contains w).filter fun w => decide (base ≤ w ∧ w < base + n)).foldl
    (fun s w => s.noteSelvRead t w) s

/-- CRC-32C of the body of a slot image (R293). -/
def slotCrc (m : Mem) : Nat := crc32c (m.readBytes 0x40 0x1FC0)

/-- VALID of a slot image (R293). -/
def slotValid (m : Mem) : Bool := bitOf (m.readLE 0 8) 0

/-- The CRC of a slot image matches (R293). -/
def slotCrcOk (m : Mem) : Bool := m.readLE 0x0C 4 == slotCrc m

/-- A slot image is usable for a kind: 0 SAMPLER, 1 POSITION, 2 POWER (R293). -/
def slotUsable (m : Mem) (k : Nat) : Bool := slotValid m && slotCrcOk m && bitOf (m.readLE 0 8) (k + 1)

/-- TEMP_SLOT of a slot image (R293). -/
def slotTemp (m : Mem) : Int := m.readS 4 4

/-- A field of a slot: byte, size of its access, lowest bit, width, and whether it is signed (R293). -/
structure SlotField where
  byte : Nat
  lsb : Nat
  width : Nat
  signed : Bool
deriving DecidableEq, Repr

/-- The fields of a kind (R293). -/
def slotFields (k : Nat) : List SlotField :=
  match k with
  | 0 => (List.range 33).flatMap fun s =>
      [⟨0x40 + 8 * s, 0, 16, false⟩, ⟨0x40 + 8 * s, 16, 12, true⟩, ⟨0x44 + 8 * s, 0, 16, true⟩]
  | 1 => (List.range 1088).map fun w => ⟨0x200 + 4 * w, 0, 32, true⟩
  | _ => (List.range 512).flatMap fun w => [⟨0x1300 + 4 * w, 0, 16, false⟩, ⟨0x1300 + 4 * w, 16, 16, false⟩]

/-- The value of a field in a slot image. -/
def SlotField.get (f : SlotField) (m : Mem) : Int :=
  let n := m.readLE f.byte 4 / 2 ^ f.lsb
  if f.signed then signedOf f.width n else ((n % 2 ^ f.width : Nat) : Int)

/-- A field of a slot image takes a value. -/
def SlotField.put (f : SlotField) (v : Int) (m : Mem) : Mem :=
  let old := m.readLE f.byte 4
  m.writeLE f.byte 4 (old - bitsOf old (f.lsb + f.width - 1) f.lsb * 2 ^ f.lsb + unsignedOf f.width v * 2 ^ f.lsb)

/-- A value limited to the range of a field. -/
def SlotField.limit (f : SlotField) (v : Int) : Int :=
  if f.signed then clampInt (-(2 ^ (f.width - 1))) (2 ^ (f.width - 1) - 1) v else clampInt 0 (2 ^ f.width - 1) v

/-- Linear interpolation between two slots (R295). -/
def interpolate (va vb ta tb t : Int) : Int :=
  va + (2 * (vb - va) * (t - ta) + (tb - ta)) / (2 * (tb - ta))

/-- A slot is inserted in the order of TEMP_SLOT; of two with one TEMP_SLOT that with the higher SEQ stays (R295). -/
def insertSlot (e : Nat × Mem) : List (Nat × Mem) → List (Nat × Mem)
  | [] => [e]
  | f :: l =>
    if slotTemp e.2 < slotTemp f.2 then e :: f :: l
    else if slotTemp e.2 = slotTemp f.2 then
      (if f.2.readLE 8 4 < e.2.readLE 8 4 then e else f) :: l
    else f :: insertSlot e l

/-- The slots that a kind interpolates between at temperature `t`, and whether it is clamped (R295). -/
def slotPair (t : Int) : List (Nat × Mem) → Option ((Nat × Mem) × (Nat × Mem) × Bool)
  | [] => none
  | [a] => some (a, a, slotTemp a.2 != t)
  | a :: b :: l =>
    if t ≤ slotTemp a.2 then some (a, a, true)
    else if t < slotTemp b.2 then some (a, b, false)
    else
      match l with
      | [] => some (b, b, true)
      | _ => slotPairIn t b l
where
  /-- The rest of the sorted slots, the one before at or below `t`. -/
  slotPairIn (t : Int) (b : Nat × Mem) : List (Nat × Mem) → Option ((Nat × Mem) × (Nat × Mem) × Bool)
    | [] => some (b, b, true)
    | d :: l => if t < slotTemp d.2 then some (b, d, false) else slotPairIn t d l

/-- INTERP_USED of one kind (R300). -/
def usedBits : Option ((Nat × Mem) × (Nat × Mem) × Bool) → Nat
  | none => 128
  | some (a, b, c) => a.1 + b.1 * 8 + flagNat c * 64

/-- The values of one kind between two slots, written into an image (R295). -/
def applyKind (k : Nat) (t : Int) (p : (Nat × Mem) × (Nat × Mem) × Bool) (m : Mem) : Mem :=
  let (a, b, _) := p
  (slotFields k).foldl (fun m f =>
    let va := f.get a.2
    f.put (if a.1 = b.1 then va
      else f.limit (interpolate va (f.get b.2) (slotTemp a.2) (slotTemp b.2) t)) m) m

/-- An interpolation starts (R295): all slots of the head are read, and its values are formed. -/
def State.interpStart (h : Fin 32) (s : State) : State :=
  let t := tileOf h
  let l := localOf h
  let v := (s.tile t).selv
  let imgs := (List.range 8).map fun n => (n, v.slotImage (slotWord l n))
  let s := s.noteSelvReads t (slotWord l 0) 8192
  let temp := (s.head h).ri CalReg.TEMP
  let usable (k : Nat) : List (Nat × Mem) := imgs.filter fun e => slotUsable e.2 k
  let sorted (k : Nat) : List (Nat × Mem) := (usable k).foldl (fun a e => insertSlot e a) []
  let pair (k : Nat) := slotPair temp (sorted k)
  let mask (p : Mem → Bool) : Nat := imgs.foldl (fun a e => if p e.2 then a + 2 ^ e.1 else a) 0
  let bad := mask fun m => slotValid m && !slotCrcOk m
  let ok := mask fun m => slotUsable m 0 || slotUsable m 1 || slotUsable m 2
  let dup := [0, 1, 2].any fun k => decide ((sorted k).length < (usable k).length)
  let out := [0, 1, 2].foldl (fun m k => match pair k with | none => m | some p => applyKind k temp p m) Mem.empty
  s.onHead h fun x =>
    let x : Head := ((x.flagIf (bad != 0) CalReg.SET_CRC).flagIf dup CalReg.SET_DUP).w CalReg.SLOT_VALID ok
    let x : Head := x.w CalReg.SLOT_CRC_BAD bad
    { x with cal := { x.cal with
      running := some 0, interpTemp := temp, interpOut := out
      interpUsed := usedBits (pair 0) + usedBits (pair 1) * 2 ^ 8 + usedBits (pair 2) * 2 ^ 16 } }

/-- SCORR takes the values of an image (R296). -/
def Head.applyScorr (m : Mem) (x : Head) : Head :=
  (List.range 33).foldl (fun x s =>
    let x : Head := x.scorrHold s
    let a := m.readLE (0x40 + 8 * s) 4
    let b := m.readLE (0x44 + 8 * s) 4
    ((x.w (CalReg.S_GAIN s) a).w (CalReg.S_OFF s) (a / 2 ^ 16)).w (CalReg.S_SKEW s) b) x

/-- `n` bytes from byte `src` of one image are copied to byte `dst` of another. -/
def copyBytes (src : Mem) (a : Nat) (dst : Mem) (b n : Nat) : Mem := dst.writeBytes b (src.readBytes a n)

/-- The values of an interpolation take effect (R295, R296); the powers only where POWER is applied, and TEMP_LAST takes TEMP
as it stands at the finish. -/
def Head.interpApply (x : Head) : Head :=
  let u := x.cal.interpUsed
  let m := x.cal.interpOut
  let none' (k : Nat) : Bool := bitOf u (8 * k + 7)
  let clamped (k : Nat) : Bool := bitOf u (8 * k + 6)
  let last := x.cal.lastApplied
  let last := if none' 0 then last else copyBytes m 0x40 last 0x40 264
  let last := if none' 1 then last else copyBytes m 0x200 last 0x200 4352
  let last := if none' 2 then last else copyBytes m 0x1300 last 0x1300 2048
  let kinds := (List.range 3).foldl (fun a k => if none' k then a else putBit a k true) x.cal.appliedKinds
  let x : Head := if none' 0 then x else x.applyScorr m
  let x : Head := { x with cal := { x.cal with
    posMem := if none' 1 then x.cal.posMem else copyBytes m 0x200 x.cal.posMem 0 4352
    lastApplied := last, appliedKinds := kinds } }
  let x : Head := if none' 2 then x else x.applyPower
  let x : Head := ((x.w CalReg.TEMP_LAST (x.r CalReg.TEMP)).w CalReg.INTERP_USED u).flag CalReg.INTERP_DONE
  (x.flagIf ((List.range 3).any none') CalReg.INTERP_NONE).flagIf ((List.range 3).any clamped) CalReg.CLAMPED

/-! ### The operations of R299, one at a time -/

/-- The image that LOAD_INTERP copies: the values last applied, or the reset and default values (R297). -/
def Head.loadInterp (x : Head) : Mem :=
  let k := x.cal.appliedKinds
  let m := x.cal.lastApplied
  let m := if bitOf k 0 then m else (List.range 33).foldl (fun m s => m.writeLE (0x40 + 8 * s) 8 4096) m
  let m := if bitOf k 1 then m else copyBytes x.cal.posDefault 0 m 0x200 4352
  if bitOf k 2 then m else m.writeBytes 0x1300 (List.replicate 2048 0)

/-- An operation begins (R298, R299): a load and an erase complete at once; a commit writes word 0 with VALID = 0 and
the body, and is not carried out at all while the store refuses writes (R432); an interpolation reads its slots. -/
def State.calOp (h : Fin 32) (op : Nat) (s : State) : State :=
  let t := tileOf h
  let x := s.head h
  let base := slotWord (localOf h) (x.r CalReg.SLOT)
  match op with
  | 0 => s.interpStart h
  | 1 =>
    if s.storeRefuses then s.pset (wingOf t) BootReg.SELV_REFUSED else
    let w0 := (s.tile t).selv.read base
    let s := s.selvWrite t base (w0 - w0 % 2)
    let body := (List.range 1016).map fun k => BitVec.ofNat 64 (x.cal.bufferMem.readLE (8 * (k + 8)) 8)
    let s := s.selvWrites t (base + 8) body
    s.onHead h fun x => { x with cal := { x.cal with running := some 1, commitSlot := x.r CalReg.SLOT } }
  | 2 =>
    let w0 := (s.tile t).selv.read base
    s.selvWrite t base (w0 - w0 % 2)
  | 3 => s.onHead h fun x => { x with cal := { x.cal with bufferMem := x.loadInterp } }
  | _ =>
    let m := (s.tile t).selv.slotImage base
    (s.noteSelvReads t base 1024).onHead h fun x => { x with cal := { x.cal with bufferMem := m } }

/-- Operations that wait begin in the order requested, until one takes time (R299). -/
def State.calRun (h : Fin 32) : Nat → State → State
  | 0, s => s
  | n + 1, s =>
    let k := (s.head h).cal
    match k.running, k.queue with
    | none, op :: l =>
      State.calRun h n ((s.onHead h fun x => { x with cal := { x.cal with queue := l } }).calOp h op)
    | _, _ => s

/-- An operation is requested (R299). An INTERP requested while one waits or runs causes one further run, and only
one. -/
def State.calRequest (h : Fin 32) (op : Nat) (s : State) : State :=
  let k := (s.head h).cal
  if op = 0 ∧ 2 ≤ (k.queue.filter (· == 0)).length + flagNat (k.running == some 0) then s
  else
    let s := s.onHead h fun x => { x with cal := { x.cal with queue := x.cal.queue ++ [op] } }
    s.calRun h (k.queue.length + 1)

/-- The operation that runs is over, and the next begins. -/
def State.calNext (h : Fin 32) (s : State) : State :=
  let n := (s.head h).cal.queue.length
  (s.onHead h fun x => { x with cal := { x.cal with running := none } }).calRun h n

/-- INTERP_DONE (R295): the running interpolation finishes. -/
def execInterpDone (wait : Nat) (h : Fin 32) (s : State) : Out :=
  s.after wait (fun s => !(s.head h).inReset && (s.head h).cal.running == some 0)
    fun s => (s.onHead h Head.interpApply).calNext h

/-- The automatic check of R295 is owed at the last millisecond of package time, and finds an interpolation due. -/
def Head.autoDue (c : Ctx) (x : Head) : Bool :=
  x.b CalReg.AUTO && decide (x.cal.lastAuto < c.ns / 1000000) && x.cal.tempOk
    && decide (max 1 (x.r CalReg.T_STEP) ≤ (x.ri CalReg.TEMP - x.ri CalReg.TEMP_LAST).natAbs)

/-- AUTO_INTERP (R295): the check is made once for each millisecond of package time. -/
def execAutoInterp (wait : Nat) (h : Fin 32) (s : State) : Out :=
  s.after wait (fun s => !(s.head h).inReset && decide ((s.head h).cal.lastAuto < s.hns h / 1000000)) fun s =>
    let due := (s.head h).autoDue (s.ctx h)
    let s := s.onHead h fun x => { x with cal := { x.cal with lastAuto := s.hns h / 1000000 } }
    if due then s.calRequest h 0 else s

/-- The last words of a commit are written (R298): word 1 with SEQ and CRC, then word 0; COMMIT_SEQ advances and
COMMIT_DONE is set. While the store refuses writes none of it is done. -/
def State.commitEnd (h : Fin 32) (s : State) : State :=
  if s.storeRefuses then (s.pset (wingOf (tileOf h)) BootReg.SELV_REFUSED).calNext h
  else
    let t := tileOf h
    let x := s.head h
    let base := slotWord (localOf h) x.cal.commitSlot
    let seq := ((if s.lostWord t (headBase h + 0x7002C) then 0 else x.r CalReg.COMMIT_SEQ) + 1) % 2 ^ 32
    let crc := slotCrc ((s.tile t).selv.slotImage base)
    let s := s.selvWrite t (base + 1) (BitVec.ofNat 64 (seq + crc * 2 ^ 32))
    let s := s.selvWrite t base (BitVec.ofNat 64
      (1 + x.r CalReg.KINDS * 2 + x.r CalReg.RB_TEMP * 2 ^ 32))
    let s := s.keep t (headBase h + 0x7002C)
    (s.onHead h fun x => (x.w CalReg.COMMIT_SEQ seq).flag CalReg.COMMIT_DONE).calNext h

/-- COMMIT_DONE (R298). -/
def execCommitDone (wait : Nat) (h : Fin 32) (s : State) : Out :=
  s.after wait (fun s => !(s.head h).inReset && (s.head h).cal.running == some 1) (State.commitEnd h)

end Sys2Proof.Machine
end

