-- ==== Sys2Proof/Machine/Write.lean ====
section
/-! DEFINITION. The write channel of one head (06_write_channel.md): descriptors and their checks, encoding, write
gates and the bit stream, strategy loads, power calibration, verify codes, relocation and completions. -/

namespace Sys2Proof.Machine

/-! ### Rings -/

/-- Slots of the descriptor ring; 0 acts as 1 (R191). -/
def Head.wqSlots (x : Head) : Nat := atLeast1 (x.r WriteReg.WQ_SLOTS)
/-- Slots of the completion ring; 0 acts as 1 (R191). -/
def Head.cqSlots (x : Head) : Nat := atLeast1 (x.r WriteReg.CQ_SLOTS)
/-- The completion ring is full (R161). -/
def Head.cqFull (x : Head) : Bool := (x.r WriteReg.CQ_WR + 1) % x.cqSlots == x.r WriteReg.CQ_RD
/-- A descriptor waits in the ring (R161). -/
def Head.wqWaits (x : Head) : Bool := x.r WriteReg.WQ_RD != x.r WriteReg.WQ_WR
/-- Byte of the descriptor that is next (R161). -/
def Head.wqByte (x : Head) : Nat := x.r WriteReg.WQ_BASE * 4096 + 64 * x.r WriteReg.WQ_RD

/-- The descriptor in 64 bytes, given as a number (R162). -/
def descOf (v : Nat) : Desc :=
  let f (byte size : Nat) : Nat := bitsOf v (8 * (byte + size) - 1) (8 * byte)
  { type := f 0 1, mode := f 1 1, tag := f 2 2, layer := f 4 1, band := f 6 2, w0 := f 8 1, steps := f 9 1
    member := f 0xA 1, setTag := f 0xC 4, wseq := f 0x10 5, srcAddr := f 0x18 4, vrefAddr := f 0x1C 4
    resAddr := f 0x20 4 }

/-- K of a descriptor's band (R97, R164). -/
def Desc.k (d : Desc) : Nat :=
  if (d.type = 1 ∨ d.type = 2) ∧ isUserBand d.band then zoneK (zoneOfBand d.band) else 216

/-- The code strength of a layer and zone in STRENGTH_MAP (R121). -/
def Head.strengthOf (x : Head) (layer zone : Nat) : Nat :=
  bitsOf (x.r (WeftReg.STRENGTH_MAP (layer % 16))) (2 * zone + 1) (2 * zone)

/-- The code strength of a descriptor's band (R164). -/
def Head.descStrength (x : Head) (d : Desc) : Nat :=
  if isUserBand d.band then x.strengthOf d.layer (zoneOfBand d.band) else 3

/-- PSA of the codeword at frame position `s` and home track `t` of a descriptor's band (R111). -/
def Desc.psa (d : Desc) (s t : Nat) : Nat := psaOf (d.layer % 16) (zoneOrZero d.band) d.band t s

/-- The offsets of positions 0 to 31 in the table in force (R61, R168). -/
def Head.spotOffsets (x : Head) : List Int := (List.range 32).map x.spotOffset

/-- n / d rounded to nearest, halves up, for counts and bits of a gate (R168). -/
def spread (off k : Int) : Int := (off * k + 512) / 1024

/-- SPREAD of the active descriptor (R168). -/
def WriteSt.spreadBits (w : WriteSt) : Nat := (spread (w.offMax - w.offMin) w.kz).toNat

/-- n: bits per gate (R168). -/
def WriteSt.gateBits (w : WriteSt) : Nat := 63 * w.kz + w.spreadBits

/-- Gates of the write phase: 256, or one for each unit of OPC (R169, R177). -/
def Desc.writeGates (d : Desc) : Nat := if d.type = 1 then 256 else if d.type = 3 then d.steps else 0

/-! ### Taking a descriptor -/

/-- A write channel whose tile is throttled pauses before its next descriptor (R467). -/
def State.writePaused (s : State) (h : Fin 32) : Bool :=
  let t := s.tile (tileOf h)
  match (s.head h).write.doneAt with
  | none => false
  | some c => decide (s.cycle < c + cyclesOfUs (t.r HeatReg.THROT_LEVEL * t.r HeatReg.PAUSE_UNIT))

/-- The channel takes a descriptor now (R161): enabled, idle, and one waits; none after a thermal trip (R463). -/
def State.takesDesc (h : Fin 32) (s : State) : Bool :=
  let x := s.head h
  s.live h && x.b WriteReg.ENABLE && x.write.desc.isNone && x.wqWaits && !s.writePaused h
    && (s.tile (tileOf h)).heat.tripAt.isNone

/-- TYPE of the descriptor that is next. -/
def State.nextType (h : Fin 32) (s : State) : Nat := s.stackLE (tileOf h) (s.head h).wqByte 1

/-- A descriptor of TYPE `ty` is next; one of a reserved TYPE, which is refused, serves any of the four (R164). -/
def State.descNext (h : Fin 32) (ty : Nat) (s : State) : Bool :=
  s.takesDesc h && (let v := s.nextType h; v == ty || v == 0 || decide (4 < v))

/-- Entry `i` of a source table (R163). -/
def State.sourceEntry (s : State) (t : Fin 8) (d : Desc) (i : Nat) : Nat := s.stackLE t (d.srcAddr * 4096 + 8 * i) 8

/-- The codewords of a WRITE or VERIFY with KIND and ADDR of their source entries (R163). -/
def State.sourceTable (s : State) (t : Fin 8) (d : Desc) (frames : Nat) : List CwState :=
  (List.range (32 * frames)).map fun i =>
    let e := s.sourceEntry t d i
    { CwState.reset with kind := bitsOf e 30 29, src := 64 * bitsOf e 28 0, stripePsa := d.psa (i / 32) (i % 32) }

/-- A descriptor is refused (R164). -/
def Head.descBad (x : Head) (d : Desc) (cws : List CwState) : Bool :=
  let (lo, hi) := extremes x.spotOffsets
  let bands := d.type == 1 || d.type == 2
  d.type == 0 || decide (4 < d.type)
    || (bands && !(isUserBand d.band || isSystemBand d.band)) || (!bands && decide (87 < d.band))
    || decide (32 < (cws.filter (·.kind == 1)).length)
    || (d.type == 3 && (decide (d.steps < 2 ∨ 32 < d.steps) || decide (256 < d.w0 + d.steps)))
    || decide (960 ≤ hi - lo)

/-- The next descriptor is taken: WQ_RD advances, and its work begins or it is refused (R161, R164, R168). -/
def State.takeDesc (h : Fin 32) (s : State) : State :=
  let t := tileOf h
  let x := s.head h
  let a := x.wqByte
  let d := descOf (s.stackLE t a 64)
  let s := s.stackTouch t a 64 .other
  let st := x.descStrength d
  let f := framesPerTrack d.k st
  let bands := d.type == 1 || d.type == 2
  let cws := if bands then s.sourceTable t d f else []
  let s := if bands then s.stackTouch t (d.srcAddr * 4096) (8 * 32 * f) .other else s
  let (lo, hi) := extremes x.spotOffsets
  let bad := x.descBad d cws
  let w : WriteSt := { x.write with
    desc := some d, cws := cws, offMin := lo, offMax := hi, offs := x.spotOffsets, kz := d.k, frames := f
    strength := st, opens := 0, closes := 0, gates := [], closeTes := [], endAt := none, stratUsed := [], encodedTo := 0
    powers := (List.range 32).map fun b => (x.r (WriteReg.RPOWER b), x.r (WriteReg.WPOWER b))
    aborted := false, cutPhase := false, closedThen := 0, cause := 0, refused := bad, writeDone := false, tStart := 0, relocOld := [], scan := []
    opc := [], readGates := 0, laserDone := false }
  s.onHead h fun x =>
    let x : Head := x.w WriteReg.WQ_RD ((x.r WriteReg.WQ_RD + 1) % x.wqSlots)
    let x : Head := ({ x with write := w }).put WriteReg.BUSY true
    if bad then (x.flag WriteReg.DESC_BAD).w WriteReg.STATE 6
    else x.w WriteReg.STATE (if d.type = 2 then 4 else if d.type = 4 then 5 else 1)

/-- WRITE (R165): a WRITE descriptor is taken. -/
def execWrite (wait : Nat) (h : Fin 32) (s : State) : Out := s.after wait (State.descNext h 1) (State.takeDesc h)
/-- VERIFY (R184): a VERIFY descriptor is taken. -/
def execVerify (wait : Nat) (h : Fin 32) (s : State) : Out := s.after wait (State.descNext h 2) (State.takeDesc h)
/-- OPC (R177): an OPC descriptor is taken. -/
def execOpc (wait : Nat) (h : Fin 32) (s : State) : Out := s.after wait (State.descNext h 3) (State.takeDesc h)
/-- PCA_SCAN (R182): a PCA_SCAN descriptor is taken. -/
def execPcaScan (wait : Nat) (h : Fin 32) (s : State) : Out := s.after wait (State.descNext h 4) (State.takeDesc h)

/-! ### Encoding -/

/-- The write channel's own part of the head state is changed. -/
def Head.onWrite (f : WriteSt → WriteSt) (x : Head) : Head := { x with write := f x.write }

/-- RELOC_DEPTH follows the queue (R191). -/
def Head.showDepth (x : Head) : Head := x.w WriteReg.RELOC_DEPTH x.write.relocQueue.length

/-- The source of a codeword: its staging byte, with the relocation taken from the queue for a RELOC entry (R165,
R187). -/
def Head.takeReloc (c : CwState) (x : Head) : CwState × Head :=
  match c.kind, x.write.relocQueue with
  | 1, e :: l =>
    ({ c with src := e.src, stripePsa := e.psa, relocs := e.count + 1, relocHere := true },
     (x.onWrite fun w => { w with relocQueue := l }).showDepth)
  | _, _ => (c, x)

/-- One codeword is encoded, and its verify reference is written (R165 to R167). -/
def State.encodeOne (h : Fin 32) (d : Desc) (i : Nat) (s : State) : State :=
  let t := tileOf h
  match (s.head h).write.cws[i]? with
  | none => s
  | some c =>
    let (c, x) := (s.head h).takeReloc c
    let s := s.setHead h x
    let pad := paddingInfo d.member d.setTag d.wseq
    let takes := c.kind == 0 || c.relocHere
    let (fail, s) := if takes then s.checkInfo t (c.src / 64) .checking else (none, s)
    let info := if takes ∧ fail.isNone then s.stackBytes t c.src 32832 else pad
    let info := sealInfo (d.psa (i / 32) (i % 32)) (s.head h).write.strength info
    let c := { c with data := info, srcError := fail.isSome, relocHere := c.relocHere && fail.isNone }
    let vref := ((List.range 8).flatMap fun k => bytesOf 4 (crc32c ((info.drop (64 + 4096 * k)).take 4096)))
      ++ (info.drop 60).take 4
    let s := s.onHead h fun x => (x.onWrite fun w => { w with
      cws := w.cws.set i c
      relocOld := if c.relocHere then w.relocOld ++ [(c.stripePsa, d.psa (i / 32) (i % 32))] else w.relocOld }).flagIf
        fail.isSome WriteReg.SRC_ERROR
    s.stackWrite t (d.vrefAddr * 4096 + 36 * i) vref

/-- Frame positions are encoded in order until `goal` of them are (R165). -/
def State.encodeTo (h : Fin 32) (goal : Nat) (s : State) : State :=
  match (s.head h).write.desc with
  | none => s
  | some d =>
    let w := (s.head h).write
    let goal := min goal w.frames
    let s := (List.range (32 * (goal - w.encodedTo))).foldl (fun s k => s.encodeOne h d (32 * w.encodedTo + k)) s
    s.onHead h (Head.onWrite fun w => { w with encodedTo := max w.encodedTo goal })

/-- The LASER commands before the first gate: mode 2 with the power codes that the descriptor found (R176). -/
def Head.lasersArm (c : Ctx) (x : Head) : Head :=
  let l := x.write.powers
  let x : Head := (List.range 32).foldl (fun x b => x.laser c .write b 2 (l.getD b (0, 0)).1 (l.getD b (0, 0)).2) x
  x.onWrite fun w => { w with laserDone := true }

/-- ARMED (R165, R176): frame positions 0 and 1 are encoded; an OPC is ready with its pattern. -/
def execArmed (wait : Nat) (h : Fin 32) (s : State) : Out :=
  s.after wait (fun s => s.live h && (s.head h).r WriteReg.STATE == 1) fun s =>
    (s.encodeTo h 2).onHead h fun x => (x.w WriteReg.STATE 2).lasersArm (s.ctx h)

/-! ### The bit stream of a gate -/

/-- The channel words of the codewords that frame position `s` of group `g` carries, in order of `a`. -/
def WriteSt.groupWords (w : WriteSt) (d : Desc) (s g : Nat) : List (Array (List Bool)) :=
  [0, 1, 2, 3].map fun a =>
    let t := 4 * g + a
    channelWords w.strength (d.psa s t) ((w.cws[32 * s + t]?.map (·.data)).getD [])

/-- A data channel bit of a frame on place `q` of its group (R108). -/
def dataBit (t q : Nat) (words : List (Array (List Bool))) (d : Nat) : Bool :=
  let (a, i) := twillWord t q (d / 33)
  (((words.getD a #[]).getD i []).getD (d % 33) false)

/-- The stream bits of wedge `wd` of track `b` of a band (R102, R103): frames, then fill. -/
def WriteSt.wedgeStream (w : WriteSt) (d : Desc) (b wd : Nat) : List Bool :=
  let per := 63 * w.kz - 64
  let len := frameLength w.strength
  let first := wd * per / len
  let last := (wd * per + per - 1) / len
  (List.range (last + 1 - first)).flatMap fun k =>
    let s := first + k
    let lo := max (wd * per) (s * len)
    let hi := min (wd * per + per) (s * len + len)
    if w.frames ≤ s then (List.range (hi - lo)).map fun i => preambleBit (lo + i - w.frames * len)
    else
      let words := w.groupWords d s (b / 4)
      (List.range (hi - lo)).map fun i =>
        match frameBitAt w.strength (lo + i - s * len) with
        | .preamble j => preambleBit j
        | .sync j => syncBit j
        | .data j => dataBit w.strength (b % 4) words j
        | .resync _ j => resyncBit j
        | .postamble j => preambleBit j

/-- The test pattern of PCA unit (p, w) on track `t` (R178). -/
def testPattern (p w t : Nat) : List Bool :=
  let o := scrambleOut 13120 (scrambleSeed (p * 2 ^ 13 ||| w * 2 ^ 5 ||| t))
  (wordsOf 410 o).flatMap modulate ++ (List.range 14).map preambleBit

/-- The bits of gate `k` for position `b`: lead, resume field, data, tail (R169, R177). -/
def WriteSt.gateBitsOf (w : WriteSt) (d : Desc) (k b : Nat) : List Bool :=
  let lead := (spread (w.offs.getD b 0 - w.offMin) w.kz).toNat
  let body := if d.type = 3 then testPattern d.band (d.w0 + k) b else w.wedgeStream d b k
  List.replicate lead false ++ (List.range 64).map preambleBit ++ body
    ++ List.replicate (w.gateBits - 63 * w.kz - lead) false

/-- The spindle speed passes the check of R170. -/
def Head.speedOk (x : Head) : Bool :=
  let w := x.omega
  decide (16777216 ≤ 2 ^ 58 / (x.write.kz * w))
    && decide (((w - 28147498).natAbs : Int) * 1000000 ≤ 28147498 * (x.r WriteReg.SPEED_TOL : Int))

/-- A strategy entry is marked loaded in the map (R174). -/
def Head.stratLoaded (x : Head) (e : Nat) : Bool := (x.stratMap.read8 (e / 8)).toNat.testBit (e % 8)

/-- The map bit of a strategy entry takes a value (R174). -/
def Head.stratMark (e : Nat) (v : Bool) (x : Head) : Head :=
  let old := (x.stratMap.read8 (e / 8)).toNat
  { x with stratMap := x.stratMap.put8 (e / 8) (BitVec.ofNat 8 (putBit old (e % 8) v)) }

/-- The whole map is cleared, and STRAT_LOST is set, when the link leaves UP (R174). -/
def Head.stratLost (x : Head) : Head := { x with stratMap := .empty }.flag WriteReg.STRAT_LOST

/-- A WRITE or OPC descriptor that expects more opens is active (R169). -/
def Head.writeExpects (x : Head) : Bool :=
  match x.write.desc with
  | none => false
  | some d => !x.write.refused && decide (x.write.opens < d.writeGates) && !x.write.writeDone

/-- A write gate open event (R169, R170, R174): forwarded, or withheld with what withholds it. A write inhibit that stands
as a gate would open aborts the descriptor as its rise does (R188, R235; DEDUCED, log entry 129). -/
def Head.writeOpen (c : Ctx) (arg : Nat) (te : Int) (x : Head) : Head :=
  match x.write.desc with
  | none => x.flag WriteReg.GATE_EXTRA
  | some d =>
    if !x.writeExpects then x.flag WriteReg.GATE_EXTRA
    else if x.write.aborted then x
    else if x.r WriteReg.STATE < 2 then x.flag WriteReg.GATE_EXTRA
    else if x.inhibitNow then x.writeAbort c (if x.b AngleReg.HOLDOVER then 4 else 5)
    else if !x.speedOk then (x.flag WriteReg.SPEED).writeAbort c 6
    else if !x.stratLoaded (arg % 4096) then (x.flag WriteReg.STRAT_INVALID).writeAbort c 7
    else
      let period := (2 ^ 58 / (x.write.kz * x.omega)).toNat % 2 ^ 32
      let k := x.write.opens
      let x : Head := x.issue c { RCmd.reset with
        op := 4, timed := true, te := te.toNat, arg := arg % 4096 + period * 2 ^ 12, src := .write }
      let x : Head := x.onWrite fun w => { w with
        opens := k + 1, tStart := if k = 0 then (te / 16).toNat else w.tStart
        gates := w.gates ++ [{ WGate.reset with
          te := te.toNat, period := period, left := (List.range 32).map (w.gateBitsOf d k) }]
        stratUsed := w.stratUsed ++ [(lookupKey (arg % 4096) w.stratFrom).getD 0] }
      let x : Head := x.w WriteReg.STATE 3
      if x.r LandReg.HSTATE = 7 then ((x.w LandReg.HSTATE 8).flag LandReg.STATE_CHANGE).refresh c else x

/-- The frame positions that must be encoded before gate `k` opens: two ahead of it (R165). -/
def Head.encodeNeed (x : Head) : Nat :=
  let per := 63 * x.write.kz - 64
  (x.write.opens * per + per) / frameLength x.write.strength + 3

/-- A write gate open event with the encoding that it needs. -/
def State.writeGateOpen (h : Fin 32) (arg : Nat) (te : Int) (s : State) : State :=
  let x := s.head h
  let enc := match x.write.desc with
    | some d => d.type == 1 && !x.write.aborted && decide (2 ≤ x.r WriteReg.STATE)
    | none => false
  (if enc then s.encodeTo h x.encodeNeed else s).onHead h (Head.writeOpen (s.ctx h) arg te)

/-- The oldest gate without a close takes one (R169). -/
def closeFirst (te : Nat) : List WGate → List WGate
  | [] => []
  | g :: l => if g.closeTe.isNone then { g with closeTe := some te } :: l else g :: closeFirst te l

/-- A write gate close event (R169): forwarded for the oldest gate that has none; with the last one the write phase ends at
its t_e. -/
def Head.writeClose (c : Ctx) (te : Int) (x : Head) : Head :=
  match x.write.desc with
  | none => x
  | some d =>
    if !x.write.gates.any (·.closeTe.isNone) then x
    else
      let x : Head := x.issue c { RCmd.reset with op := 5, timed := true, te := te.toNat, src := .write }
      x.onWrite fun w => { w with
        gates := closeFirst te.toNat w.gates, closes := w.closes + 1, closeTes := w.closeTes ++ [te.toNat]
        endAt := if d.writeGates ≤ w.closes + 1 then some te.toNat else w.endAt }

/-! ### Power calibration -/

/-- The power of OPC step `i` on a position, from PW_SCALE of the head-end entry its gate named (R177). -/
def WriteSt.stepPower (w : WriteSt) (i b : Nat) : Nat :=
  min 65535 ((w.powers.getD b (0, 0)).2 * w.stratUsed.getD i 0 / 4096)

/-- The best alignment of decisions with a pattern over its first 1 024 bits (R179): the shift and its count of
differences; of equal counts the smaller shift, then the negative one. -/
def bestShift (diff : Int → Nat) : Int × Nat :=
  let shifts : List Int := 0 :: (List.range 32).flatMap fun (k : Nat) => [-((k : Int) + 1), (k : Int) + 1]
  shifts.foldl (fun b s => if diff s < b.2 then (s, diff s) else b) (0, diff 0)

/-- Differences between decisions (none for an erased bit) and a pattern, shifted, over the pattern bits `0` to
`n - 1`. -/
def differences (got : Array (Option Bool)) (pat : Array Bool) (n : Nat) (shift : Int) : Nat :=
  (List.range n).foldl (fun (a : Nat) (i : Nat) =>
    let j := ((64 + i : Nat) : Int) + shift
    let g := if 0 ≤ j then (got.getD j.toNat none) else none
    if g = some (pat.getD i false) then a else a + 1) 0

/-- ERRORS of a unit (R179): `got` holds the decisions from the start of its resume field. -/
def unitErrors (got : Array (Option Bool)) (pat : Array Bool) : Nat :=
  let b := bestShift (differences got pat 1024)
  if 256 < b.2 then 65535 else min 65535 (differences got pat pat.size b.1)

/-- BETA of a unit from the largest and the smallest w of its windows (R179); where Hi = Lo the quotient is free. -/
def unitBeta (ws : List (Int × Int)) : Int :=
  let hi := ws.foldl (fun a e => a + e.1) 0
  let lo := ws.foldl (fun a e => a + e.2) 0
  if hi = lo then Config.betaQuotient (hi + lo) else clampInt (-32768) 32767 (divZero (4096 * (hi + lo)) (hi - lo))

/-- AMP of a unit: the mean of its E samples (R179). -/
def unitAmp (es : List Int) : Nat :=
  if es.isEmpty then 0 else min 65535 ((es.foldl (· + ·) 0) / (es.length : Int)).toNat

/-- The fit of a position (R180): P_fit and FIT_STATUS. -/
def opcFit (target : Int) (l : List OpcStep) : Nat × Nat :=
  let used := l.filter fun e => !e.blank
  match (used.zip used.tail).find? fun p =>
      decide ((p.1.beta - target) * (p.2.beta - target) ≤ 0 ∧ p.1.beta ≠ p.2.beta) with
  | some (i, j) =>
    let d := j.beta - i.beta
    let n := (target - i.beta) * ((j.power : Int) - i.power)
    ((clampInt 0 65535 ((i.power : Int) + nearestOf n d)).toNat, 0)
  | none => (0, if used.isEmpty then 2 else 1)

/-- MIN_ERR_STEP: the lowest step with the fewest errors (R180). -/
def minErrStep (l : List OpcStep) : Nat :=
  ((l.foldl (fun b e => match b with
    | none => some e
    | some f => if e.errors < f.errors then some e else some f) none).map (·.step)).getD 0

/-- The result record of a position (R181). -/
def opcRecord (target : Int) (steps b : Nat) (l : List OpcStep) : List Byte :=
  let mine := l.filter (·.pos == b)
  let at' (i : Nat) : OpcStep := (mine.find? (·.step == i)).getD .reset
  let all := (List.range steps).map at'
  let (p, st) := opcFit target all
  bytesOf 2 p ++ bytesOf 1 st ++ bytesOf 1 (minErrStep all) ++ bytesOf 12 0
    ++ (all.flatMap fun e => bytesOf 2 e.power ++ bytesOf 2 e.amp ++ bytesOf 2 (unsignedOf 16 e.beta) ++ bytesOf 2 e.errors)
    ++ List.replicate (256 - 8 * steps) 0

/-- The map of a scan: bit w set for each unit that is not blank (R182). -/
def scanMap (l : List Nat) : List Byte :=
  bytesOf 32 ((List.range 256).foldl (fun a w => if l.contains w then a + 2 ^ w else a) 0)

/-- A unit read back by position `b` joins the measurements of an OPC or a scan (R177, R179, R182). -/
def Head.unitRead (b : Nat) (es : List Int) (ws : List (Int × Int)) (got : List (Option Bool)) (eref : Nat) (x : Head) : Head :=
  match x.write.desc with
  | none => x
  | some d =>
    if x.r WriteReg.STATE = 5 ∧ b < 32 then
      let seen := if d.type = 3 then (x.write.opc.filter (·.pos == b)).length else x.write.readGates / 32
      let amp := unitAmp es
      let blank := decide (16 * amp < x.r WeftReg.BLANK_LVL * eref)
      let x : Head := x.onWrite fun w => { w with readGates := w.readGates + 1 }
      if d.type = 3 then
        let e : OpcStep := {
          pos := b, step := seen, power := x.write.stepPower seen b, amp := amp, beta := unitBeta ws
          errors := unitErrors got.toArray (testPattern d.band (d.w0 + seen) b).toArray, blank := blank }
        if seen < d.steps then x.onWrite fun w => { w with opc := w.opc ++ [e] } else x
      else if blank then x
      else x.onWrite fun w => { w with scan := seen :: w.scan }
    else x

/-! ### Verify -/

/-- The last wedge that carries bits of frame position `s` (R102). -/
def lastWedge (k t s : Nat) : Nat := ((s + 1) * frameLength t - 1) / (63 * k - 64)

/-- Every write gate that carries the frames of position `s` had closed when the abort cause was recognised (R184). -/
def WriteSt.closedAll (w : WriteSt) (s : Nat) : Bool := decide (lastWedge w.kz w.strength s < w.closedThen)

/-- The verify code of a decoded or failed codeword (R184): `vref` is its reference of 36 bytes. -/
def verifyCode (result iter flags corrected iterMax corrMax : Nat) (data : List Byte) (vref : Nat) : Nat :=
  if result ≠ 0 then 2
  else if flags ≠ 0 then 4
  else if (List.range 8).any (fun k =>
      crc32c ((data.drop (64 + 4096 * k)).take 4096) != bitsOf vref (32 * k + 31) (32 * k))
      || infoField data 60 4 != bitsOf vref 287 256 then 3
  else if iterMax < iter ∨ corrMax < corrected then 1
  else 0

/-- The channel is verifying a band: results go to it, not to the delivery ring (R184). -/
def Head.verifying (x : Head) : Bool :=
  x.r WriteReg.STATE == 4 && (match x.write.desc with | some d => d.type == 1 || d.type == 2 | none => false)

/-- A first-pass result of the codeword at frame position `p` and home track `t` reaches the write channel (R184). -/
def State.verifyResult (h : Fin 32) (p t result iter flags corrected : Nat) (data : List Byte) (s : State) : State :=
  let x := s.head h
  match x.write.desc with
  | none => s
  | some d =>
    let i := 32 * p + t
    let a := d.vrefAddr * 4096 + 36 * i
    let code := verifyCode result iter flags corrected (x.r WriteReg.VFY_ITER_MAX) (x.r WriteReg.VFY_CORR_MAX) data
      (s.stackLE (tileOf h) a 36)
    (s.stackTouch (tileOf h) a 36 .other).onHead h (Head.onWrite fun w => { w with
      cws := w.cws.modify i fun c => if c.verified then c else { c with code := code, verified := true } })

/-- The code of codeword `i` (R184): ABORTED and SRC_ERROR before what verify found. -/
def WriteSt.finalCode (w : WriteSt) (d : Desc) (i : Nat) (c : CwState) : Nat :=
  if d.type = 1 ∧ w.aborted ∧ ¬ w.closedAll (i / 32) then 5
  else if c.srcError then 7
  else if c.verified then c.code
  else 6

/-- A codeword with a code is LANDED (R185). -/
def isLanded (d : Desc) (w : WriteSt) (relocMargin : Bool) (code : Nat) : Bool :=
  code == 0 || (code == 1 && !relocMargin) || (code == 6 && d.type == 1 && bitOf d.mode 0 && w.writeDone)

/-! ### Completion -/

/-- A codeword's code asks for relocation (R186); one whose source failed its check is never queued (R166). -/
def Head.wantsReloc (x : Head) (code : Nat) (c : CwState) : Bool :=
  !c.srcError && x.b WriteReg.RELOC_EN && (code == 2 || code == 3 || code == 4 || code == 5
    || (code == 1 && x.b WriteReg.RELOC_MARGIN)) && (c.kind == 0 || c.kind == 1)
    && (c.kind == 0 || c.relocHere || x.write.desc.any (·.type == 2))

/-- Codeword `i` takes its code, is counted, and is queued for relocation or flagged (R184 to R186). -/
def Head.closeCw (d : Desc) (x : Head) (i : Nat) : Head :=
  match x.write.cws[i]? with
  | none => x
  | some c =>
    let code := x.write.finalCode d i c
    let c : CwState := { c with code := code, landed := isLanded d x.write (x.b WriteReg.RELOC_MARGIN) code }
    let x : Head := x.flagIf (code != 0 && code != 6) WriteReg.VERIFY_FAIL
    let want := x.wantsReloc code c
    let spent := decide (x.r WriteReg.RELOC_MAX ≤ c.relocs)
    let full := decide (64 ≤ x.write.relocQueue.length)
    let x : Head := (x.flagIf (want && spent) WriteReg.RELOC_EXHAUSTED).flagIf (want && !spent && full) WriteReg.RELOC_OVF
    let q := want && !spent && !full
    let c : CwState := { c with queued := q, notQueued := want && !q }
    x.onWrite fun w => { w with
      cws := w.cws.set i c
      relocQueue := if q then w.relocQueue ++ [{ src := c.src, psa := c.stripePsa, count := c.relocs }]
        else w.relocQueue }

/-- The byte of a codeword in a completion record (R190). -/
def CwState.byte (c : CwState) : Nat :=
  c.code + 8 * flagNat c.landed + 16 * flagNat c.relocHere + 32 * flagNat c.queued + 64 * flagNat c.notQueued

/-- The completion record (R190), written at `now` ns. -/
def WriteSt.record (w : WriteSt) (d : Desc) (now : Nat) : List Byte :=
  let result := if w.refused then 2 else if w.aborted then 1 else 0
  let n (p : Nat → Bool) : Nat := (w.cws.filter fun c => p c.code).length
  let bands := d.type == 1 || d.type == 2
  let counts := if w.refused then [0, 0, 0, 0, 0, 0]
    else [n (· == 0), n (· == 1), n (fun c => c == 2 || c == 3 || c == 4), n (· == 5), n (· == 6), n (· == 7)]
  let cw := if w.refused then [] else w.cws.map (·.byte)
  let pairs := (w.relocOld.take 32).flatMap fun p => bytesOf 5 p.1 ++ bytesOf 5 p.2
  bytesOf 2 d.tag ++ bytesOf 1 d.type ++ bytesOf 1 result ++ bytesOf 1 (if w.aborted then w.cause else 0)
    ++ bytesOf 1 d.layer ++ bytesOf 2 d.band ++ bytesOf 8 w.tStart ++ bytesOf 8 now
    ++ counts.flatMap (bytesOf 2) ++ bytesOf 1 (w.cws.filter (·.relocHere)).length
    ++ bytesOf 1 w.relocQueue.length ++ bytesOf 1 (if bands then w.frames else 0) ++ bytesOf 1 (if bands then w.strength else 0)
    ++ List.replicate 24 0
    ++ (cw.flatMap (bytesOf 1) ++ List.replicate (1088 - cw.length) 0)
    ++ (pairs ++ List.replicate (320 - pairs.length) 0) ++ List.replicate 64 0

/-- The active descriptor has nothing more to wait for (R188, R190): it was refused, every codeword of the verify
revolution, which an abort does not keep from running, has its result, the readback or scan is complete, or it is aborted
and the schedule that would serve it has stopped. -/
def Head.descOver (c : Ctx) (x : Head) : Bool :=
  let x := x.writeSettle c
  match x.write.desc with
  | none => false
  | some d =>
    let w := x.write
    w.refused || w.endAt.isNone && (
      (w.aborted && (!x.b AngleReg.RUNNING || x.r WriteReg.STATE == 6))
      || (d.type == 1 && w.writeDone && bitOf d.mode 0)
      || ((d.type == 1 && (w.writeDone || w.aborted) && !bitOf d.mode 0 || d.type == 2)
          && w.cws.all (·.verified))
      || (d.type == 3 && w.writeDone && decide (32 * d.steps ≤ w.readGates))
      || (d.type == 4 && decide (8192 ≤ w.readGates)))

/-- The results of an OPC or a scan are written (R181, R182). -/
def State.writeResults (h : Fin 32) (d : Desc) (s : State) : State :=
  let x := s.head h
  let w := x.write
  let t := tileOf h
  if w.refused ∨ w.aborted then s
  else if d.type = 3 then
    s.stackWrite t (d.resAddr * 4096)
      ((List.range 32).flatMap fun b => opcRecord (x.ri WriteReg.BETA_TARGET) d.steps b w.opc)
  else if d.type = 4 then s.stackWrite t (d.resAddr * 4096) (scanMap w.scan)
  else s

/-- DESCRIPTOR_COMPLETE: the codes are settled, the relocation queue and the counters follow, results and the
completion record are written, and the channel is idle (R161, R186, R190). -/
def State.completeDesc (h : Fin 32) (s : State) : State :=
  let s := s.onHead h (Head.writeSettle (s.ctx h))
  match (s.head h).write.desc with
  | none => s
  | some d =>
    let t := tileOf h
    let s := s.onHead h fun x =>
      if x.write.refused then x
      else ((List.range x.write.cws.length).foldl (Head.closeCw d) x).showDepth
    let s := s.writeResults h d
    let x := s.head h
    let w := x.write
    let s := s.stackWrite t (x.r WriteReg.CQ_BASE * 4096 + 1536 * x.r WriteReg.CQ_WR) (w.record d (s.hns h))
    let n (p : Nat → Bool) : Nat := if w.refused then 0 else (w.cws.filter fun c => p c.code).length
    s.onHead h fun x =>
      let x : Head := x.w WriteReg.CQ_WR ((x.r WriteReg.CQ_WR + 1) % x.cqSlots)
      let x : Head := x.flag WriteReg.DESC_DONE
      let x : Head := if d.type = 1 ∧ ¬ w.refused ∧ ¬ w.aborted then x.bump WriteReg.BANDS_WRITTEN 1 else x
      let x : Head := if d.type = 1 ∧ w.aborted then x.bump WriteReg.BANDS_ABORTED 1 else x
      let x : Head := x.bump WriteReg.CW_VFY_FAIL (n fun c => decide (1 ≤ c ∧ c ≤ 4))
      let x : Head := x.bump WriteReg.CW_RELOCATED (w.cws.filter (·.relocHere)).length
      let x : Head := x.onWrite fun w => { w with desc := none, cws := [], gates := [], doneAt := some s.cycle }
      (x.put WriteReg.BUSY false).w WriteReg.STATE 0

/-- DESCRIPTOR_COMPLETE (R190): the completion ring has room. -/
def execDescriptorComplete (wait : Nat) (h : Fin 32) (s : State) : Out :=
  s.after wait (fun s => s.live h && (s.head h).descOver (s.ctx h) && !(s.head h).cqFull) (State.completeDesc h)

/-! ### Strategy loads -/

/-- STRAT_GO is written with 1 (R174): the load is requested. -/
def Head.stratGo (x : Head) : Head := x.onWrite fun w => { w with stratPend := true }

/-- A running strategy load fails (R174). -/
def Head.stratFails (x : Head) : Head :=
  if x.write.stratBusy then (x.onWrite fun w => { w with stratBusy := false }).flag WriteReg.STRAT_FAIL else x

/-- A strategy load runs (R174): the map bit is cleared and 16 STRAT_WRITE commands are queued. -/
def Head.stratLoad (c : Ctx) (x : Head) : Head :=
  let e := x.r WriteReg.STRAT_ENTRY
  let src := x.r WriteReg.STRAT_SRC
  let x : Head := (x.stratMark e false).onWrite fun w => { w with
    stratPend := false, stratBusy := true, stratSince := c.now, stratAcks := 0, stratEntry := e
    stratScale := x.stratMem.readLE (64 * src + 22) 2 }
  let x : Head := (List.range 16).foldl (fun x i => x.issue c { RCmd.reset with
    op := 0x0B, arg := 16 * e + i + x.stratMem.readLE (64 * src + 4 * i) 4 * 2 ^ 16, src := .write }) x
  if x.up then x else x.stratFails

/-- STRAT_LOAD_START (R174): a requested load begins once no descriptor is busy. -/
def execStratLoadStart (wait : Nat) (h : Fin 32) (s : State) : Out :=
  s.liveAfter wait h (fun _ x => x.write.stratPend && !x.write.stratBusy && !x.b WriteReg.BUSY) Head.stratLoad

/-- A STRAT_WRITE is acknowledged, or lost (R174): it counts for the load that issued it, if that load still runs. -/
def Head.stratAck (ok : Bool) (issued : Nat) (x : Head) : Head :=
  if !x.write.stratBusy || decide (issued < x.write.stratSince) then x
  else if !ok then x.stratFails
  else
    let n := x.write.stratAcks + 1
    if n < 16 then x.onWrite fun w => { w with stratAcks := n }
    else (x.onWrite fun w => { w with
      stratAcks := 16, stratBusy := false, stratFrom := insertKey w.stratEntry w.stratScale w.stratFrom }).stratMark
        x.write.stratEntry true

/-- ABORT is written with 1 (R188, R189). -/
def Head.writeAbortCmd (c : Ctx) (x : Head) : Head := x.writeAbort c 8

end Sys2Proof.Machine
end

