-- ==== Sys2Proof/Machine/Journal.lean ====
section
/-! DEFINITION. An archive set's entry and state (R301 to R304), and its journal: records, room, the two copies, and the
chain that replay follows (R314 to R317, R329). -/

namespace Sys2Proof.Machine

/-! ### The entry of a set -/

/-- The home tile (R301). -/
def SetDef.homeTile (d : SetDef) : Fin 8 := toTile d.home
/-- The tile of the journal's mirror copy: HOME XOR 4 (R302). -/
def SetDef.mirrorTile (d : SetDef) : Fin 8 := toTile (d.home ^^^ 4)
/-- The head of member `m` (R301). -/
def SetDef.headAt (d : SetDef) (m : Nat) : Fin 32 := toHead (d.heads.getD m 0)
/-- The tile whose stack member `m` uses. -/
def SetDef.tileAt (d : SetDef) (m : Nat) : Fin 8 := tileOf (d.headAt m)
/-- Every head of the set lies in one wing (R302). -/
def SetDef.local (d : SetDef) : Bool :=
  d.heads.all (fun h => decide (h < 16)) || d.heads.all (fun h => decide (16 ≤ h))
/-- SET_TAG: the CRC-32C of SET_UID (R301). -/
def SetDef.tag (d : SetDef) : Nat := crc32c (bytesOf 16 d.uid)
/-- The bits of members 0 to N - 1. -/
def SetDef.mask (d : SetDef) : Nat := 2 ^ d.n - 1

/-- The wing of the set's home tile. -/
def ASet.wing (a : ASet) : Fin 2 := wingOf a.cfg.homeTile

/-- A field of a set's registers (R331). -/
def State.sr (s : State) (n : Fin 8) (f : Nat → Fld) : Nat := s.pr (s.aset n).wing (f n)
/-- A field of a set's registers takes a value. -/
def State.sw (s : State) (n : Fin 8) (f : Nat → Fld) (v : Nat) : State := s.pw (s.aset n).wing (f n) v
/-- A flag of a set's registers is set. -/
def State.sset (s : State) (n : Fin 8) (f : Nat → Fld) : State := s.pset (s.aset n).wing (f n)

/-- A tile whose heavy blocks work: out of reset and not powered off (R463, R505). -/
def State.tileUp (s : State) (t : Fin 8) : Bool := !s.asleep t && !(s.tile t).heat.heavyOff

/-- The primary copy of the journal can be written (R314, R432). -/
def State.primaryUp (s : State) (n : Fin 8) : Bool := s.tileUp (s.aset n).cfg.homeTile && !s.storeRefuses
/-- The mirror copy can be written. -/
def State.mirrorUp (s : State) (n : Fin 8) : Bool :=
  let d := (s.aset n).cfg
  s.primaryUp n && !s.asleep d.mirrorTile && s.reaches d.homeTile d.mirrorTile

/-- SUSP_CAUSE (R304, R331): split, SUSPEND, home tile down, and the journal. -/
def State.suspCause (s : State) (n : Fin 8) : Nat :=
  let d := (s.aset n).cfg
  let home := s.tile d.homeTile
  let down := s.asleep d.homeTile || home.heat.tripAt.isSome
  flagNat (!d.local && s.split) + (if bitOf (s.sr n SetReg.SUSP_CAUSE) 1 then 2 else 0) + (if down then 4 else 0)
    + (if home.journalUe || (!down && !s.primaryUp n && !s.mirrorUp n) then 8 else 0)

/-- D: members that are not PRESENT (R303). -/
def State.missingMembers (s : State) (n : Fin 8) : Nat :=
  ((List.range (s.aset n).cfg.n).filter fun m => !bitOf (s.sr n SetReg.PRESENT) m).length

/-- SSTATE (R304): the first row that holds. -/
def State.sstate (s : State) (n : Fin 8) : Nat :=
  let d := s.missingMembers n
  if s.sr n SetReg.ONLINE_DONE = 0 then 0
  else if 3 ≤ d then 6
  else if s.suspCause n ≠ 0 then 5
  else if s.sr n SetReg.REPLACING &&& (s.aset n).cfg.mask ≠ 0 then 4
  else if d = 2 then 3 else if d = 1 then 2 else 1

/-- The home tile of a set is down as hosts see it: in reset, tripped, or with its lock unit stopped (R342, R380). -/
def State.homeDown (s : State) (n : Fin 8) : Bool :=
  let x := s.tile (s.aset n).cfg.homeTile
  x.inReset || x.heat.tripAt.isSome || x.lockStop

/-- The ANA state of a set's namespace at a port (R354), as the log page codes it: 1 Optimized, 2 Non-Optimized,
3 Inaccessible, 15 Change; 0 for a set not in use. -/
def State.anaState (s : State) (p : Fin 16) (n : Fin 8) : Nat :=
  let a := s.aset n
  let atHome := decide (wingOf (portTile p) = a.wing)
  if a.cfg.n = 0 then 0
  else if s.sr n SetReg.ONLINE_DONE = 0 ∨ s.homeDown n then 3
  else if !a.replayed || !a.mapReady then 15
  else if s.split then (if !atHome then 3 else if a.cfg.local then 1 else 2)
  else if atHome then 1 else 2

/-- A controller's ANA state of a namespace follows, and a change is counted and reported (R356). -/
def State.refreshAna (n : Fin 8) (s : State) : State :=
  allPorts.foldl (fun s p => (s.port p).ctrls.foldl (fun s c =>
    let v := s.anaState p n
    if c.ana.getD n 0 = v then s
    else (s.onCtrl p c.idx fun k => { k with ana := k.ana.set n v, anaCount := k.anaCount + 1 }).event p c.idx 1 (n.val + 1)) s) s

/-- The state of a set is evaluated again (R304): each change sets STATE_CHANGE and raises vendor event 1 (R358), and the
journal's cause is logged as it comes (R454). -/
def State.refreshSet (n : Fin 8) (s : State) : State :=
  if (s.aset n).cfg.n = 0 then s
  else
    let v := s.sstate n
    let old := s.sr n SetReg.SSTATE
    let cause := s.suspCause n
    let s := if bitOf cause 3 && !bitOf (s.sr n SetReg.SUSP_CAUSE) 3 then
        s.log (s.aset n).cfg.homeTile 0x41 n.val 0 0 else s
    let s := (s.sw n SetReg.SUSP_CAUSE cause).sw n SetReg.SSTATE v
    (if v = old then s else (s.sset n SetReg.STATE_CHANGE).eventAll 2 (n.val + 1)).refreshAna n

/-- The states of all sets are evaluated again. -/
def State.refreshSets (s : State) : State := allSets.foldl (fun s n => s.refreshSet n) s

/-! ### Records -/

/-- Words of a record (R315). -/
def JRec.words (r : JRec) : Nat := 1 + r.body.length

/-- The header word of a record (R315). -/
def JRec.header (r : JRec) : DWord :=
  let lo := r.type % 256 + r.body.length % 256 * 2 ^ 8 + r.jseq % 2 ^ 16 * 2 ^ 16
  let crc := crc32c (r.body.flatMap (fun w => bytesOf 8 w.toNat) ++ bytesOf 4 lo)
  BitVec.ofNat 64 (lo + crc * 2 ^ 32)

/-- The first word of the journal region (R430). -/
def journalWord : Nat := 0x500000 / 8

/-- The Selvedge word of a journal position (R301, R430). -/
def SetDef.jword (d : SetDef) (p : Nat) : Nat := journalWord + d.jbase + p % max 1 d.jwords

/-- A record is written to the copy of tile `t`, its body first and its header last (R315): to the mirror over Warp channel
V1 (R314). -/
def State.putRecord (d : SetDef) (t : Fin 8) (r : JRec) (s : State) : State :=
  let s := s.sendPacket d.homeTile t vcCommand ((8 * r.words + 63) / 64)
  let s := r.body.zipIdx.foldl (fun s e => s.selvWrite t (d.jword (r.pos + 1 + e.2)) e.1) s
  s.selvWrite t (d.jword r.pos) r.header

/-- Words between JSTART and the write position. -/
def State.journalUsed (s : State) (n : Fin 8) : Nat :=
  let a := s.aset n
  (a.wpos + a.cfg.jwords - s.sr n SetReg.JSTART) % max 1 a.cfg.jwords

/-- Free words (R331). -/
def State.journalFree (s : State) (n : Fin 8) : Nat := (s.aset n).cfg.jwords - s.journalUsed n

/-- Words of a PAD before a record of `size` words at position `p` (R316). -/
def padWords (jwords p size : Nat) : Nat := if jwords - p < size then jwords - p else 0

/-- Words that records of the given sizes take from position `p` on, PAD records included. -/
def recordRoom (jwords : Nat) : Nat → List Nat → Nat
  | _, [] => 0
  | p, z :: l =>
    let w := padWords jwords p z + z
    w + recordRoom jwords ((p + w) % max 1 jwords) l

/-- Room for records of the given sizes (R315, R329): the write position neither reaches nor passes JSTART, and every
record but COMMIT and VOID leaves the reserved room of 64 words. -/
def State.journalFits (s : State) (n : Fin 8) (sizes : List Nat) (reserved : Bool) : Bool :=
  let a := s.aset n
  let need := recordRoom a.cfg.jwords a.wpos sizes
  let free := s.journalFree n
  decide (need < free) && decide (need + (if reserved then 0 else 64) ≤ free)

/-- The highest WSEQ that a record names, or that a band named by it holds; 0 for none (R321). -/
def ASet.topWseq (a : ASet) (type : Nat) (body : List DWord) : Nat :=
  let w0 := (body.headD 0).toNat
  if type = 1 then bitsOf w0 39 0 + bitsOf w0 50 40 - 1
  else if type = 2 ∨ type = 3 ∨ type = 6 then
    match a.bands.find? (·.wseqFirst == bitsOf w0 39 0) with
    | some b => b.wseqFirst + b.count - 1
    | none => bitsOf w0 39 0
  else if type = 4 ∨ type = 5 then (rangesOf body).foldl (fun m r => max m (r.1 + r.2 - 1)) 0
  else 0

/-- The registers that follow the journal (R331). -/
def State.showJournal (n : Fin 8) (s : State) : State := s.sw n SetReg.JFREE (s.journalFree n)

/-- One record takes its place in the queue. -/
def State.queueRecord (n : Fin 8) (type : Nat) (body : List DWord) (desc : Option BoltDesc) (s : State) : State :=
  let a := s.aset n
  let js := s.sr n SetReg.JSEQ_NEXT
  let r : JRec := { JRec.reset with type := type, pos := a.wpos, jseq := js, body := body, desc := desc }
  let s := s.onSet n fun a => { a with
    queue := a.queue ++ [r], wpos := (a.wpos + r.words) % max 1 a.cfg.jwords
    recPos := a.recPos ++ [(r.pos, a.topWseq type body)] }
  (s.sw n SetReg.JSEQ_NEXT (js + 1)).showJournal n

/-- A record for which there is room is written, after a PAD where it would not fit before the end of the array (R316). -/
def State.formRecord (n : Fin 8) (type : Nat) (body : List DWord) (desc : Option BoltDesc) (s : State) : State :=
  let a := s.aset n
  let pad := padWords a.cfg.jwords a.wpos (1 + body.length)
  let s := if pad = 0 then s else s.queueRecord n 0 (List.replicate (pad - 1) 0) none
  s.queueRecord n type body desc

/-- The journal buffer of the set's home tile is read as a record is formed (R373, R380): whether one can be. Its correctable
errors are counted, and the bytes of the record take their place; with an uncorrectable one no record is formed, and every
set homed on the tile is suspended. -/
def State.readBuffer (n : Fin 8) (s : State) : Bool × State :=
  let t := (s.aset n).cfg.homeTile
  let m := (s.tile t).journalBuf
  if (s.tile t).journalUe then (false, s)
  else
    let s := s.noteBuffer t m 0x31 .journal
    if m.bad 0 (2 ^ 32) then (false, (s.onTile t fun x => { x with journalUe := true }).refreshSets)
    else (true, s.onTile t fun x => { x with journalBuf := .empty })

/-- Records that replay decided are written as soon as there is room for them, in order (R317). -/
def State.flushOwed (n : Fin 8) (s : State) : State :=
  (s.aset n).owed.foldl (fun s r =>
    if (s.aset n).owed.head? = some r ∧ s.journalFits n [1 + r.2.length] true then
      let (ok, s) := s.readBuffer n
      if ok then (s.onSet n fun a => { a with owed := a.owed.drop 1 }).formRecord n r.1 r.2 none else s
    else s) s

/-- Records are written one after another if there is room for all of them, and otherwise none is and JOURNAL_FULL is
set; the descriptor completes with the last of them (R315, R316). Whether they were written. None goes before a record
that replay owes (R317), but for a CHECKPOINT, which alone makes room for those (DEDUCED, log entry 134). None is formed
from a buffer with an uncorrectable error (R380). -/
def State.formRecords (n : Fin 8) (rs : List (Nat × List DWord)) (reserved : Bool) (desc : Option BoltDesc)
    (s : State) : Bool × State :=
  let s := s.flushOwed n
  if ((s.aset n).owed.isEmpty || rs.all (·.1 == 7)) && s.journalFits n (rs.map fun r => 1 + r.2.length) reserved then
    let (ok, s) := s.readBuffer n
    if ok then
      (true, rs.zipIdx.foldl (fun s r => s.formRecord n r.1.1 r.1.2 (if r.2 + 1 = rs.length then desc else none)) s)
    else (false, s)
  else (false, s.sset n SetReg.JOURNAL_FULL)

/-! ### The chain of a copy -/

/-- A record found in a copy (R317). -/
structure Found where
  pos : Nat
  type : Nat
  jseq : Nat
  body : List DWord
deriving DecidableEq, Repr

/-- The record at position `p` of the copy of tile `t`, if its CRC holds. -/
def State.recordAt (s : State) (d : SetDef) (t : Fin 8) (p : Nat) : Option Found :=
  let rd (k : Nat) : DWord := (s.tile t).selv.read (d.jword k)
  let h := (rd p).toNat
  let len := bitsOf h 15 8
  let body := (List.range len).map fun k => rd (p + 1 + k)
  let r : JRec := { JRec.reset with type := bitsOf h 7 0, pos := p, jseq := bitsOf h 31 16, body := body }
  if r.header.toNat = h then some ⟨p, bitsOf h 7 0, bitsOf h 31 16, body⟩ else none

/-- The chain of records from position `p` on, `left` words at most, in the copy of tile `t`: while the CRC holds and
JSEQ runs on by 1 (R317). `fuel` records at most. -/
def State.chain (s : State) (d : SetDef) (t : Fin 8) : Nat → Nat → Nat → Option Nat → List Found
  | 0, _, _, _ => []
  | fuel + 1, p, left, prev =>
    match s.recordAt d t p with
    | none => []
    | some r =>
      let z := 1 + r.body.length
      let follows := match prev with | none => true | some q => r.jseq == (q + 1) % 2 ^ 16
      if follows && decide (z ≤ left) then
        r :: s.chain d t fuel ((p + z) % max 1 d.jwords) (left - z) (some r.jseq)
      else []

/-- Words of a chain. -/
def chainWords (l : List Found) : Nat := (l.map fun r => 1 + r.body.length).foldl (· + ·) 0

/-- What reading `n` words of a copy from position `p` on moves in the Selvedge registers (R435), and on the Warp (R25). -/
def State.noteJournalRead (d : SetDef) (t : Fin 8) (p n : Nat) (s : State) : State :=
  let s := s.askData d.homeTile t ((8 * n + 63) / 64)
  let x := (s.tile t).selv
  let inside (w : Nat) : Bool := (List.range n).any fun k => d.jword (p + k) == w
  ((x.ue ++ x.ce.filter fun w => !x.ue.contains w).filter inside).foldl (fun s w => s.noteSelvRead t w) s

end Sys2Proof.Machine
end

