-- ==== Sys2Proof/Machine/Sets.lean ====
section
/-! DEFINITION. Archive sets (12_archive_sets.md): completions of the Bolt engine, set commands, landed and committed
stripes, what a durable journal record does, and replay. -/

namespace Sys2Proof.Machine

/-! ### Completions -/

/-- A completion of 64 bytes (R328). -/
structure BoltCpl where
  tag : Nat
  type : Nat
  status : Nat
  reason : Nat
  wseqFirst : Nat
  done : Nat
  unrecov : Nat
  srcCrc : Nat
  badEntry : Nat
  count : Nat
  evWseq : Nat
  evCount : Nat
deriving DecidableEq, Repr

/-- The bytes of a completion (R328). -/
def BoltCpl.bytes (c : BoltCpl) : List Byte :=
  bytesOf 64 (c.tag % 2 ^ 16 + c.type % 2 ^ 8 * 2 ^ 16 + c.status * 2 ^ 24 + c.reason * 2 ^ 32
    + c.wseqFirst % 2 ^ 40 * 2 ^ 64 + min c.done 65535 * 2 ^ 128 + min c.unrecov 65535 * 2 ^ 144
    + min c.srcCrc 65535 * 2 ^ 160 + min c.badEntry 65535 * 2 ^ 176 + c.count % 2 ^ 32 * 2 ^ 192
    + c.evWseq % 2 ^ 40 * 2 ^ 256 + c.evCount % 2 ^ 16 * 2 ^ 296)

/-- The oldest waiting completion is written where the ring has room, and CQ_FULL is set where it has none (R161,
R327). -/
def State.boltPush (t : Fin 8) (s : State) : State :=
  match (s.tile t).bolt.waiting with
  | [] => s
  | c :: l =>
    let x := s.tile t
    let n := atLeast1 (x.r BoltReg.CQ_SLOTS)
    let wr := x.r BoltReg.CQ_WR % n
    if (wr + 1) % n = x.r BoltReg.CQ_RD % n then s.onTile t (·.flag BoltReg.CQ_FULL)
    else
      let s := s.stackWrite t (x.r BoltReg.CQ_BASE * 4096 + 64 * wr) c
      s.onTile t fun x =>
        let x : Tile := x.w BoltReg.CQ_WR ((wr + 1) % n)
        let x : Tile := x.flag (if (c.getD 2 0) == 0x80 then BoltReg.COMMIT_EVT else BoltReg.DESC_DONE)
        let x : Tile := x.flagIf (c.getD 3 0 == 1) BoltReg.DESC_REFUSED
        { x with bolt := { x.bolt with waiting := l } }

/-- Waiting completions are written while the ring has room. -/
def State.boltFlush (t : Fin 8) (s : State) : State :=
  (s.tile t).bolt.waiting.foldl (fun s _ => s.boltPush t) s

/-- A completion is posted (R328). -/
def State.boltPost (t : Fin 8) (c : BoltCpl) (s : State) : State :=
  (s.onTile t fun x => { x with bolt := { x.bolt with waiting := x.bolt.waiting ++ [c.bytes] } }).boltFlush t

/-- The host ring holds a descriptor not yet completed (R324). -/
def Tile.hostWork (x : Tile) : Bool :=
  x.r BoltReg.HQ_RD != x.r BoltReg.HQ_WR || (x.bolt.active.isSome && !x.bolt.background)
    || x.bolt.parked.getD 0 false

/-- Host work is counted up to this cycle (R324); to be called before anything that may begin or end it. -/
def State.boltCount (t : Fin 8) (s : State) : State :=
  s.onTile t fun x => { x with bolt := { x.bolt with
    hostBusy := x.bolt.hostBusy + (if x.hostWork then s.cycle - x.bolt.hostMark else 0), hostMark := s.cycle } }

/-- A descriptor completes with the counts of `c` (R328): its ring or its place in the engine is free. -/
def State.boltDone (t : Fin 8) (d : BoltDesc) (c : BoltCpl) (s : State) : State :=
  let s := (s.boltCount t).onTile t fun x => { x with bolt := { x.bolt with active := none } }
  s.boltPost t { c with tag := d.tag, type := d.type, wseqFirst := d.wseqFirst }

/-- A completion without counts. -/
def plainCpl (status reason : Nat) : BoltCpl := ⟨0, 0, status, reason, 0, 0, 0, 0, 0, 0, 0, 0⟩

/-- A descriptor is refused with a REASON (R327). -/
def State.boltRefuse (t : Fin 8) (d : BoltDesc) (reason : Nat) (s : State) : State :=
  s.boltDone t d (plainCpl 1 reason)

/-- A descriptor is done. -/
def State.boltOk (t : Fin 8) (d : BoltDesc) (s : State) : State := s.boltDone t d (plainCpl 0 0)

/-! ### Landed and committed stripes -/

/-- A member is required in a band (R312). -/
def OpenBand.required (b : OpenBand) (m : Nat) : Bool := bitOf b.mask m && !bitOf b.dropped m

/-- The PSA at which member `m` holds the codeword of stripe `i` (R111, R306, R318). -/
def OpenBand.psaAt (b : OpenBand) (m i : Nat) : Nat :=
  psaOf (psaLayer b.psa) (psaZone b.psa) ((lookupKey m b.remaps).getD (psaBand b.psa)) (i % 32) (i / 32)

/-- Member `m` of stripe `i` is landed (R312). -/
def ASet.isLanded (a : ASet) (b : OpenBand) (i m : Nat) : Bool :=
  !b.required m || bitOf ((lookupKey m b.landed).getD 0) i
    || a.pairs.any fun r => r.member == m && r.old == b.psaAt m i

/-- Members 0 to `k - 1` of stripe `i` are landed. -/
def ASet.allLanded (a : ASet) (b : OpenBand) (i k : Nat) : Bool := (List.range k).all (a.isLanded b i)

/-- The pairs in the body of a DELTA record (R316). -/
def pairsOf : List DWord → List DeltaPair
  | x :: y :: l =>
    { lbn := bitsOf x.toNat 39 0, count := bitsOf x.toNat 63 40, stripe := bitsOf y.toNat 10 0
      member := bitsOf y.toNat 15 11, slot := bitsOf y.toNat 18 16 } :: pairsOf l
  | _ => []

/-- A DELTA record that names the stripe is not yet durable (R313). -/
def ASet.deltaWaits (a : ASet) (b : OpenBand) (i : Nat) : Bool :=
  a.queue.any fun r => r.type == 2 && bitsOf (r.body.headD 0).toNat 39 0 == b.wseqFirst
    && (pairsOf (r.body.drop 1)).any (·.names a.cfg i)

/-- A COMMIT (4) or VOID (5) record with the stripe is written and not yet durable, or is owed by replay (R317). -/
def ASet.decided (a : ASet) (ty wseq : Nat) : Bool :=
  let inside (body : List DWord) : Bool := (rangesOf body).any fun r => decide (r.1 ≤ wseq ∧ wseq < r.1 + r.2)
  a.queue.any (fun r => r.type == ty && inside r.body) || a.owed.any fun r => r.1 == ty && inside r.2

/-- A stripe meets the condition of R313, map room apart. -/
def ASet.ready (a : ASet) (b : OpenBand) (i : Nat) : Bool :=
  !bitOf b.committed i && !bitOf b.voided i && !a.decided 4 (b.wseqFirst + i) && !a.decided 5 (b.wseqFirst + i)
    && !a.deltaWaits b i && a.allLanded b i a.cfg.n

/-- The stripes that meet the condition, in WSEQ order. -/
def ASet.readyWseqs (a : ASet) : List Nat :=
  a.bands.flatMap fun b => ((List.range b.count).filter (a.ready b)).map (b.wseqFirst + ·)

/-- A stripe is resolved: committed (true), voided (false), or neither (R317). A stripe at or below WSEQ_AT that no
open band holds was resolved before the checkpoint, as a void one where a void record names it (R319, R321). -/
def State.resolution (s : State) (n : Fin 8) (wseq : Nat) : Option Bool :=
  let a := s.aset n
  match a.bandOf wseq with
  | some b =>
    let i := wseq - b.wseqFirst
    if bitOf b.committed i then some true else if bitOf b.voided i then some false else none
  | none =>
    if wseq = 0 ∨ s.sr n SetReg.WSEQ_AT_LO + s.sr n SetReg.WSEQ_AT_HI * 2 ^ 32 < wseq then none
    else some (!a.voidRecs.any fun v => decide (v.wseq ≤ wseq ∧ wseq < v.wseq + v.count))

/-- The mask of stripes as bits of one number. -/
def maskOf (l : List Nat) : Nat := l.foldl (fun m i => m ||| 2 ^ i) 0

/-- A band is changed. -/
def ASet.onBand (a : ASet) (wseqFirst : Nat) (f : OpenBand → OpenBand) : ASet :=
  { a with bands := a.bands.map fun b => if b.wseqFirst = wseqFirst then f b else b }

/-- The stripes of ranges become committed or voided. -/
def ASet.settle (a : ASet) (commit : Bool) (rs : List (Nat × Nat)) : ASet :=
  { a with bands := a.bands.map fun b =>
      let mine := maskOf (((wseqsOf rs).filter b.has).map (· - b.wseqFirst))
      { b with
        committed := if commit then b.committed ||| mine else b.committed
        voided := if commit then b.voided else b.voided ||| mine
        pendingParity := b.pendingParity &&& ((2 ^ b.count - 1) ^^^ mine) } }

/-- PENDING (R331). -/
def State.showPending (n : Fin 8) (s : State) : State :=
  s.sw n SetReg.PENDING (min 65535 (((s.aset n).bands.map fun b => onesIn b.pendingParity b.count).foldl (· + ·) 0))

/-! ### Changes to the map -/

/-- HIST_DROP gains the extents that left the map (R319). -/
def State.countDrops (n : Fin 8) (old : ASet) (s : State) : State :=
  s.onTile old.cfg.homeTile (·.bump BoltReg.HIST_DROP ((s.aset n).dropped.length - old.dropped.length))

/-- A change to the tables is made and its descriptor completes, or it waits and MAP_FULL is set (R319). -/
def State.mapChange (n : Fin 8) (m : MapWait) (s : State) : State :=
  let a := s.aset n
  let t := a.cfg.homeTile
  match a.change m with
  | some a' =>
    let s := (s.onSet n fun _ => a').countDrops n a
    match m.desc with
    | some d => s.boltOk t d
    | none => s
  | none =>
    let s := (s.sset n SetReg.MAP_FULL).boltCount t
    let bg := (s.tile t).bolt.background
    let s := s.onSet n fun a => { a with
      waits := insertBy (fun (x y : MapWait) => decide (x.wseq < y.wseq)) { m with background := bg } a.waits }
    if m.desc.isSome then s.onTile t fun x => { x with bolt := { x.bolt with
      active := none, parked := x.bolt.parked.set (flagNat bg) true } }
    else s

/-- A descriptor that waited for map room completes, and its ring waits no more (R319). -/
def State.unpark (t : Fin 8) (e : BoltDesc × Bool) (s : State) : State :=
  ((s.boltCount t).onTile t fun x => { x with bolt := { x.bolt with
    parked := x.bolt.parked.set (flagNat e.2) false } }).boltPost t
    { plainCpl 0 0 with tag := e.1.tag, type := e.1.type, wseqFirst := e.1.wseqFirst }

/-- Every change of MAP_REPLAY has been made: the map serves host reads, and the descriptors complete (R321). -/
def State.loadDone (n : Fin 8) (s : State) : State :=
  let a := s.aset n
  if a.loading.isEmpty || a.waits.any (·.loads) then s
  else
    let s := s.onSet n fun a => { a with loading := [], mapReady := true }
    (a.loading.foldl (fun s e => s.unpark a.cfg.homeTile e) s).refreshSet n

/-- Waiting changes are tried again, in WSEQ order, when room has been freed (R319). -/
def State.retryWaits (n : Fin 8) (s : State) : State :=
  ((s.aset n).waits.foldl (fun s m =>
    let a := s.aset n
    match a.change m with
    | none => s
    | some a' =>
      let s := (s.onSet n fun _ => { a' with waits := a'.waits.erase m }).countDrops n a
      match m.desc with
      | none => s
      | some d => s.unpark a.cfg.homeTile (d, m.background)) s).loadDone n

/-! ### Durable records -/

/-- WSEQ_FIRST of the open band of a stripe (R306). -/
def ASet.firstOf (a : ASet) (wseq : Nat) : Nat :=
  match a.bandOf wseq with
  | some b => b.wseqFirst
  | none => 0

/-- A COMMIT record is durable (R313): the prepared updates are applied, and one COMMIT event is posted for each run. -/
def State.commitDone (n : Fin 8) (body : List DWord) (s : State) : State :=
  let rs := rangesOf body
  let t := (s.aset n).cfg.homeTile
  let first := (s.aset n).firstOf
  let s := s.onSet n fun a => (({ a with
    extents := mergeAll a.cfg a.extents ((wseqsOf rs).flatMap a.extentsOf) } : ASet)).settle true rs
  let s := rs.foldl (fun s r =>
    (s.onTile t (·.bump BoltReg.STRIPES_COMMITTED r.2)).boltPost t
      { plainCpl 0 0 with type := 0x80, wseqFirst := first r.1, evWseq := r.1, evCount := r.2 }) s
  (s.retryWaits n).showPending n

/-- A VOID record is durable (R316, R319). -/
def State.voidDone (n : Fin 8) (body : List DWord) (desc : Option BoltDesc) (s : State) : State :=
  let rs := rangesOf body
  let s := (s.onSet n (·.settle false rs)).onTile (s.aset n).cfg.homeTile
    (·.bump BoltReg.STRIPES_VOIDED (wseqsOf rs).length)
  (s.showPending n).mapChange n { MapWait.reset with
    wseq := (rs.headD (0, 0)).1, voids := rs.map fun r => ⟨r.1, r.2⟩, desc := desc }

/-- The band that an OPEN record opens (R316). -/
def openOf (body : List DWord) : OpenBand :=
  let w (k : Nat) : Nat := (body.getD k 0).toNat
  { OpenBand.reset with wseqFirst := bitsOf (w 0) 39 0, count := bitsOf (w 0) 50 40, psa := bitsOf (w 1) 39 0
                        mask := bitsOf (w 2) 31 0 }

/-- Landed bits and pairs of a LAND record for a band of `count` stripes (R316). -/
def landOf (count : Nat) (body : List DWord) : Nat × List RelocRec :=
  let words := (count + 63) / 64
  let m := bitsOf (body.headD 0).toNat 44 40
  let bits := (((body.drop 1).take words).zipIdx.map fun e => e.1.toNat * 2 ^ (64 * e.2)).foldl (· + ·) 0
  let rec pairs : List DWord → List RelocRec
    | x :: y :: l => ⟨m, bitsOf x.toNat 39 0, bitsOf y.toNat 39 0⟩ :: pairs l
    | _ => []
  (bits, pairs (body.drop (1 + words)))

/-- Landed bits of a member are added (R312). -/
def OpenBand.land (b : OpenBand) (m bits : Nat) : OpenBand :=
  { b with landed := insertKey m ((lookupKey m b.landed).getD 0 ||| bits) b.landed }

/-- What a record does to the bands of a set, live or replayed: everything but the map, the registers and the
completions (R312, R316 to R318). -/
def ASet.takeRecord (a : ASet) (type : Nat) (body : List DWord) : ASet :=
  let w (k : Nat) : Nat := (body.getD k 0).toNat
  let wf := bitsOf (w 0) 39 0
  let m := bitsOf (w 0) 44 40
  match type with
  | 1 => { a with bands := insertBy (fun (x y : OpenBand) => decide (x.wseqFirst ≤ y.wseqFirst)) (openOf body) a.bands }
  | 2 => a.onBand wf fun b => { b with deltas := b.deltas ++ pairsOf (body.drop 1) }
  | 3 =>
    match a.bands.find? (·.wseqFirst == wf) with
    | none => a
    | some b =>
      let l := landOf b.count body
      let a : ASet := a.onBand wf (·.land m l.1)
      { a with pairs := a.pairs ++ l.2 }
  | 4 => a.settle true (rangesOf body)
  | 5 => a.settle false (rangesOf body)
  | 6 => a.onBand wf fun b => { b with
      remaps := insertKey m (bitsOf (w 0) 57 45) b.remaps, landed := eraseKey m b.landed }
  | 8 =>
    if bitOf (w 2) 5 then
      { a with bands := a.bands.map fun b =>
          if b.wseqFirst < bitsOf (w 1) 39 0 then { b with dropped := b.dropped ||| 2 ^ bitsOf (w 2) 4 0 } else b }
    else a
  | _ => a

/-- A CHECKPOINT record is durable: WSEQ_AT and CKPT_SEQ take its values, and JSTART advances (R321, R331). -/
def State.checkpointTo (n : Fin 8) (body : List DWord) (s : State) : State :=
  let w (k : Nat) : Nat := (body.getD k 0).toNat
  let at_ := bitsOf (w 1) 39 0
  let js := bitsOf (w 2) 31 0
  let s := ((s.sw n SetReg.CKPT_SEQ (w 0)).sw n SetReg.WSEQ_AT_LO at_).sw n SetReg.WSEQ_AT_HI (at_ / 2 ^ 32)
  (s.sw n SetReg.JSTART js).onSet n fun a => { a with recPos := a.recPos.dropWhile fun r => r.1 != js }

/-- A record is durable: it takes effect, and its descriptor completes or waits for map room (R313, R316, R319). -/
def State.recordDone (n : Fin 8) (r : JRec) (s : State) : State :=
  let a := s.aset n
  let t := a.cfg.homeTile
  let w (k : Nat) : Nat := (r.body.getD k 0).toNat
  let wf := bitsOf (w 0) 39 0
  let finish (s : State) : State := match r.desc with | some d => s.boltOk t d | none => s
  let change (m : MapWait) (s : State) : State := s.mapChange n { m with wseq := wf, desc := r.desc }
  match r.type with
  | 1 =>
    let b := openOf r.body
    change { MapWait.reset with bands := [⟨b.wseqFirst, b.psa, b.mask⟩] } (s.onSet n (·.takeRecord 1 r.body))
  | 2 => finish (s.onSet n (·.takeRecord 2 r.body))
  | 3 =>
    let count := match a.bands.find? (·.wseqFirst == wf) with | some b => b.count | none => 0
    change { MapWait.reset with relocs := (landOf count r.body).2 } (s.onSet n (·.takeRecord 3 r.body))
  | 4 => s.commitDone n r.body
  | 5 => s.voidDone n r.body r.desc
  | 6 =>
    change { MapWait.reset with remaps := [⟨bitsOf (w 0) 44 40, wf, bitsOf (w 0) 57 45⟩] }
      (s.onSet n (·.takeRecord 6 r.body))
  | 7 => finish (((s.checkpointTo n r.body).flushOwed n).showJournal n)
  | 8 =>
    let s := (s.sw n SetReg.PRESENT (bitsOf (w 0) 31 0)).sw n SetReg.REPLACING (bitsOf (w 0) 63 32)
    ((((s.onSet n (·.takeRecord 8 r.body)).sw n SetReg.CMD_STATUS 0).sset n SetReg.CMD_DONE).refreshSet n)
  | _ => s

/-- A record begun now would be whole in its copies before the stores refuse writes (R471): 720 ns a word. -/
def State.journalInTime (s : State) (words : Nat) : Bool :=
  match s.pkg.failEdge with
  | none => true
  | some e => decide (s.cycle + words * 1152 ≤ e + cyclesOfUs 10)

/-- Records that the mirror lacks are copied to it, oldest first (R314). -/
def State.copyLag (n : Fin 8) (s : State) : State :=
  let d := (s.aset n).cfg
  let s := (s.aset n).lag.foldl (fun s r => s.putRecord d d.mirrorTile r) s
  s.onSet n fun a => { a with lag := [] }

/-- The oldest record of a set is written in the copies (R314): it is durable in both, or, while the wings are split, in
its own wing's copy; while the mirror lags, MIRROR_LAG is set. -/
def State.writeJournal (n : Fin 8) (s : State) : State :=
  let a := s.aset n
  let d := a.cfg
  match a.queue with
  | [] => s
  | r :: l =>
    let s := if r.half then s else s.putRecord d d.homeTile r
    if s.mirrorUp n then
      (((s.copyLag n).putRecord d d.mirrorTile r).onSet n fun a => { a with queue := l }).recordDone n r
    else if s.split then
      ((s.sset n SetReg.MIRROR_LAG).onSet n fun a => { a with
        queue := l, lag := a.lag ++ [{ r with desc := none }] }).recordDone n r
    else (s.sset n SetReg.MIRROR_LAG).onSet n fun a => { a with queue := { r with half := true } :: l }

/-- JOURNAL_RECORD_DURABLE (R314). -/
def execJournalRecordDurable (wait : Nat) (n : Fin 8) (s : State) : Out :=
  s.after wait (fun s => s.primaryUp n && (match (s.aset n).queue with
    | [] => false
    | r :: _ => s.journalInTime r.words)) (State.writeJournal n)

/-! ### Commits -/

/-- Of stripes in WSEQ order, those whose update has room (R313, R319): the set with the room made, and the stripes. -/
def ASet.pickCommits (a : ASet) : List Nat → List Nat → ASet × List Nat
  | done, [] => (a, done)
  | done, w :: l =>
    match a.prepare w done with
    | some a' => a'.pickCommits (done ++ [w]) l
    | none => a.pickCommits done l

/-- The stripes that meet the condition get a COMMIT record with their ranges in WSEQ order; those without map room
are withheld, and MAP_FULL is set (R313, R319, R329). -/
def State.commitStripes (n : Fin 8) (s : State) : State :=
  let a := s.aset n
  let want := a.readyWseqs
  let (a', got) := a.pickCommits [] want
  let bodies := piecesOf 255 (got.length + 1) (rangeWords (runsOf got))
  let s := if got.length = want.length then s else s.sset n SetReg.MAP_FULL
  if got.isEmpty then s
  else
    let (ok, s') := s.formRecords n (bodies.map fun b => (4, b)) true none
    if ok then (s'.onSet n fun x => { x with extents := a'.extents, dropped := a'.dropped }).countDrops n a else s'

/-- STRIPE_COMMIT (R313). -/
def execStripeCommit (wait : Nat) (n : Fin 8) (s : State) : Out :=
  s.after wait (fun s => (s.aset n).replayed && s.suspCause n &&& 13 == 0 && !(s.aset n).readyWseqs.isEmpty)
    (State.commitStripes n)

/-! ### Set commands -/

/-- The masks as the last MEMBER record, durable or not, leaves them: PRESENT and REPLACING. -/
def State.memberMasks (s : State) (n : Fin 8) : Nat × Nat :=
  match (s.aset n).queue.reverse.find? (·.type == 8) with
  | some r => (bitsOf (r.body.headD 0).toNat 31 0, bitsOf (r.body.headD 0).toNat 63 32)
  | none => (s.sr n SetReg.PRESENT, s.sr n SetReg.REPLACING)

/-- WSEQ_NEXT (R331). -/
def State.wseqNext (s : State) (n : Fin 8) : Nat := s.sr n SetReg.WSEQ_NEXT_LO + s.sr n SetReg.WSEQ_NEXT_HI * 2 ^ 32

/-- WSEQ_NEXT takes a value. -/
def State.setWseqNext (n : Fin 8) (v : Nat) (s : State) : State :=
  (s.sw n SetReg.WSEQ_NEXT_LO v).sw n SetReg.WSEQ_NEXT_HI (v / 2 ^ 32)

/-- A set command is refused with a CMD_STATUS (R305). -/
def State.setRefuse (n : Fin 8) (status : Nat) (s : State) : State :=
  (s.sw n SetReg.CMD_STATUS status).sset n SetReg.CMD_REFUSED

/-- A set command is done (R305). -/
def State.setOk (n : Fin 8) (s : State) : State :=
  ((s.sw n SetReg.CMD_STATUS 0).sset n SetReg.CMD_DONE).refreshSet n

/-- A membership command with the masks it leaves (R305): its MEMBER record is written, and it takes effect when the
record is durable. -/
def State.memberCmd (n : Fin 8) (m : Nat) (drop : Bool) (present replacing : Nat) (s : State) : State :=
  if s.primaryUp n && !(s.tile (s.aset n).cfg.homeTile).journalUe then
    let body : List DWord := [BitVec.ofNat 64 (present + replacing * 2 ^ 32), BitVec.ofNat 64 (s.wseqNext n),
      BitVec.ofNat 64 (m + flagNat drop * 32)]
    let (ok, s) := s.formRecords n [(8, body)] false none
    if ok then s else s.setRefuse n 4
  else s.setRefuse n 4

/-- A write of SET_CMD (R305). `auth` says that the lease-holding wing wrote it. An ONLINE that the store refuses is reported as
not done (R432), under a status that no rule names (log entry 112). -/
def State.setCmd (n : Fin 8) (auth : Bool) (cmd m : Nat) (drop : Bool) (s : State) : State :=
  let d := (s.aset n).cfg
  let (p, r) := s.memberMasks n
  let isP := bitOf p m
  let isR := bitOf r m
  if !auth then s.setRefuse n 2
  else if cmd = 0 ∨ 7 < cmd ∨ d.n = 0 ∨ (2 ≤ cmd ∧ cmd ≤ 5 ∧ d.n ≤ m) then s.setRefuse n 3
  else
    match cmd with
    | 1 =>
      if s.sr n SetReg.ONLINE_DONE ≠ 0 then s.setRefuse n 1
      else if s.storeRefuses then ((s.sw n SetReg.ONLINE_DONE 1).setRefuse n (1 + Config.freeValue s.freeCount % 4)).takeFree
      else (s.sw n SetReg.ONLINE_DONE 1).setOk n
    | 2 => if isP || isR then s.memberCmd n m drop (putBit p m false) (putBit r m false) else s.setRefuse n 1
    | 3 => if isP || isR then s.setRefuse n 1 else s.memberCmd n m false (putBit p m true) r
    | 4 => if isP || isR || r &&& d.mask != 0 then s.setRefuse n 1 else s.memberCmd n m false p (putBit r m true)
    | 5 => if isR then s.memberCmd n m false (putBit p m true) (putBit r m false) else s.setRefuse n 1
    | 6 => (s.sw n SetReg.SUSP_CAUSE (s.sr n SetReg.SUSP_CAUSE ||| 2)).setOk n
    | _ => (s.sw n SetReg.SUSP_CAUSE (s.sr n SetReg.SUSP_CAUSE &&& 13)).setOk n

/-! ### Replay -/

/-- A record that replay decides is written in both copies at once and takes effect; where there is no room it is owed
and JOURNAL_FULL is set (R317), and where the journal buffer is uncorrectable none is formed and it stays owed (R380). -/
def State.replayRecord (n : Fin 8) (type : Nat) (body : List DWord) (s : State) : State :=
  let d := (s.aset n).cfg
  let fits := (s.aset n).owed.isEmpty && s.journalFits n [1 + body.length] true && s.primaryUp n
  let (formed, s) := if fits then s.readBuffer n else (false, s)
  if formed then
    let s := s.formRecord n type body none
    let rs := (s.aset n).queue
    let s := rs.foldl (fun s r =>
      let s := s.putRecord d d.homeTile r
      if s.mirrorUp n then s.putRecord d d.mirrorTile r
      else (s.sset n SetReg.MIRROR_LAG).onSet n fun a => { a with lag := a.lag ++ [r] }) s
    let s := s.onSet n fun a => { a with queue := [] }
    let c := (wseqsOf (rangesOf body)).length
    (s.onSet n (·.settle (type == 4) (rangesOf body))).onTile d.homeTile
      (·.bump (if type = 4 then BoltReg.STRIPES_COMMITTED else BoltReg.STRIPES_VOIDED) c)
  else
    let le (x y : Nat × List DWord) : Bool := decide (((rangesOf x.2).headD (0, 0)).1 ≤ ((rangesOf y.2).headD (0, 0)).1)
    (if fits then s else s.sset n SetReg.JOURNAL_FULL).onSet n fun a => { a with owed := insertBy le (type, body) a.owed }

/-- The classes of the stripes of open bands without COMMIT and VOID (R317 step 3): committed, parity pending, void. -/
def ASet.classify (a : ASet) : List Nat × List Nat × List Nat :=
  let unresolved := a.bands.flatMap fun b =>
    ((List.range b.count).filter fun i => !bitOf b.committed i && !bitOf b.voided i).map fun i => (b, i)
  let name (e : OpenBand × Nat) : Nat := e.1.wseqFirst + e.2
  let all := unresolved.filter fun e => a.allLanded e.1 e.2 a.cfg.n
  let rest := unresolved.filter fun e => !a.allLanded e.1 e.2 a.cfg.n
  (all.map name, (rest.filter fun e => a.allLanded e.1 e.2 a.cfg.data).map name,
    (rest.filter fun e => !a.allLanded e.1 e.2 a.cfg.data).map name)

/-- The command of a MEMBER record took effect, as what came after it shows: the masks of the next MEMBER record, or at the
end the persistent ones, which prevail (R317, R457; DEDUCED, log entry 134). Asked of a record with DROP. -/
def memberTook (body : List DWord) (later : List Found) (present replacing : Nat) : Bool :=
  let m := bitsOf (body.getD 2 0).toNat 4 0
  match later.find? (·.type == 8) with
  | some f =>
    let w := (f.body.headD 0).toNat
    (!bitOf w m && !bitOf w (32 + m)) != (bitsOf (f.body.getD 2 0).toNat 4 0 == m)
  | none => !bitOf present m && !bitOf replacing m

/-- What the records of a chain rebuild (R317 step 2): a MEMBER record whose command took no effect drops no member
(R457). -/
def ASet.takeChain (present replacing : Nat) : List Found → ASet → ASet
  | [], a => a
  | f :: l, a =>
    let a' := if f.type = 8 && !memberTook f.body l present replacing then a else a.takeRecord f.type f.body
    takeChain present replacing l { a' with recPos := a.recPos ++ [(f.pos, a.topWseq f.type f.body)] }

/-- Steps 1 and 2 of R317: the longer chain is copied over the other copy, and the set's bands, WSEQ_NEXT and the write
position are rebuilt from it; of the last CHECKPOINT record the persistent values are taken (R457). A mirror that cannot be
reached lacks the whole chain, as far as the engine knows (R314; DEDUCED, log entry 134). -/
def State.rebuildSet (n : Fin 8) (s : State) : State :=
  let d := (s.aset n).cfg
  let js := s.sr n SetReg.JSTART
  let a1 := s.chain d d.homeTile (d.jwords + 1) js d.jwords none
  let both := !s.asleep d.mirrorTile && s.reaches d.homeTile d.mirrorTile
  let a2 := if both then s.chain d d.mirrorTile (d.jwords + 1) js d.jwords none else []
  let mirror := decide (chainWords a1 < chainWords a2)
  let l := if mirror then a2 else a1
  let s := s.noteJournalRead d d.homeTile js (chainWords a1 + 1)
  let s := if both then s.noteJournalRead d d.mirrorTile js (chainWords a2 + 1) else s
  let rec_ (r : Found) : JRec := { JRec.reset with type := r.type, pos := r.pos, jseq := r.jseq, body := r.body }
  let other := if mirror then d.homeTile else d.mirrorTile
  let s := if both then l.foldl (fun s r => s.putRecord d other (rec_ r)) s else s
  let present := s.sr n SetReg.PRESENT
  let replacing := s.sr n SetReg.REPLACING
  let s := s.onSet n fun a => ASet.takeChain present replacing l { ASet.reset with cfg := a.cfg }
  let s := if both || l.isEmpty then s
    else (s.sset n SetReg.MIRROR_LAG).onSet n fun a => { a with lag := l.map rec_ }
  let last := l.getLast?
  let s := s.onSet n fun a => { a with wpos := match last with
    | none => js
    | some r => (r.pos + 1 + r.body.length) % max 1 d.jwords }
  let s := s.sw n SetReg.JSEQ_NEXT (match last with | none => 0 | some r => r.jseq + 1)
  let s := match l.reverse.find? (·.type == 7) with
    | none => s
    | some r => s.checkpointTo n r.body
  let next := l.foldl (fun m r =>
    let w (k : Nat) : Nat := (r.body.getD k 0).toNat
    if r.type = 1 then max m (bitsOf (w 0) 39 0 + bitsOf (w 0) 50 40)
    else if r.type = 8 then max m (bitsOf (w 1) 39 0) else m)
    (s.sr n SetReg.WSEQ_AT_LO + s.sr n SetReg.WSEQ_AT_HI * 2 ^ 32 + 1)
  (s.setWseqNext n next).showJournal n

/-- Replay of one set (R317). -/
def State.replaySet (n : Fin 8) (s : State) : State :=
  if (s.aset n).cfg.n = 0 then s
  else
    let s := s.rebuildSet n
    let (commit, pending, void) := (s.aset n).classify
    let write (ty : Nat) (l : List Nat) (s : State) : State :=
      (piecesOf 255 (l.length + 1) (rangeWords (runsOf l))).foldl (fun s b =>
        if b.isEmpty then s else s.replayRecord n ty b) s
    let s := write 5 void (write 4 commit s)
    let s := s.onSet n fun a => { a with
      replayed := true
      bands := a.bands.map fun b => { b with
        pendingParity := maskOf ((pending.filter b.has).map (· - b.wseqFirst)) } }
    let s := if pending.isEmpty then s else s.sset n SetReg.PARITY_PENDING
    let s := if void.isEmpty then s else s.sset n SetReg.VOIDED
    let s := s.log (s.aset n).cfg.homeTile 0x50 n.val void.length pending.length
    (((s.sset n SetReg.REPLAY_DONE).showPending n).showJournal n).refreshSet n

end Sys2Proof.Machine
end

