-- ==== Sys2Proof/Machine/Authority.lean ====
section
/-! DEFINITION. The lease of the Atrium role, splits and rejoins (R440 to R450, R458), the requests that only the
lease-holding wing may make (R444), and the Warp links' own events (R21, R22, R24). -/

namespace Sys2Proof.Machine

/-! ### Who may command -/

/-- Both wings. -/
def bothWings : List (Fin 2) := [0, 1]

/-- The Atrium copy that serves a requester (R444, R445, R506): a core's own wing's, the other wing's while that copy is
in reset and the wings are joined; over SMBus the copy that SMB_WING selects. -/
def State.copyOf (s : State) (q : Req) : Fin 2 :=
  match q with
  | .core t _ => if (s.atrium (wingOf t)).held && !s.split then otherWing (wingOf t) else wingOf t
  | .smbus =>
    match s.pr 0 AuthReg.SMB_WING with
    | 1 => 0
    | 2 => 1
    | _ => if s.split then 0 else s.mainWing

/-- The wing that a request speaks for (R444). -/
def State.wingFor (s : State) (q : Req) : Fin 2 :=
  match q with
  | .core t _ => wingOf t
  | .smbus => s.copyOf .smbus

/-- A request of R444 is allowed: the wing holds the lease, and is not frozen (R450). -/
def State.allowed (s : State) (q : Req) : Bool :=
  s.holds (s.wingFor q) && !(s.atrium (s.wingFor q)).b AuthReg.FROZEN

/-- A set command is allowed: during a split only for a set homed in the requester's wing (R445, R446). -/
def State.allowedSet (s : State) (q : Req) (n : Fin 8) : Bool :=
  s.allowed q && (!s.split || (s.aset n).wing = s.wingFor q)

/-! ### The lease -/

/-- EPOCH of a copy (R440). -/
def State.epoch (s : State) (w : Fin 2) : Nat := s.pr w AuthReg.EPOCH_LO + 2 ^ 32 * s.pr w AuthReg.EPOCH_HI

/-- EPOCH of a copy takes a value, written persistently to its own tile (R441, R442). -/
def State.setEpoch (w : Fin 2) (v : Nat) (s : State) : State :=
  if v = s.epoch w then s
  else if s.storeRefuses then s.pset w BootReg.SELV_REFUSED
  else (s.onAtrium w fun a => (a.w AuthReg.EPOCH_LO v).w AuthReg.EPOCH_HI (v / 2 ^ 32)).keep (atriumTile w) 0x604

/-- The view of a copy (R440). -/
def State.view (s : State) (w : Fin 2) : LeaseFlit :=
  { epoch := s.epoch w, holder := (s.holderSeen w).val, number := (s.atrium w).renewals, time := s.ns (atriumTile w) }

/-- Age of a copy's last accepted renewal, ns (R441). -/
def State.leaseAge (s : State) (w : Fin 2) : Nat := s.ns (atriumTile w) - (s.atrium w).lastRenewal

/-- LEASE_VALID: the copy holds the lease, or sees a renewal no more than 10 ms old (R441, R459). -/
def State.leaseValid (s : State) (w : Fin 2) : Bool :=
  s.holds w || ((s.atrium w).leaseSeen && decide (s.leaseAge w ≤ 10000000))

/-- A copy becomes standby with the other wing named as holder. -/
def State.stepDown (w : Fin 2) (s : State) : State :=
  let now := s.ns (atriumTile w)
  s.onAtrium w fun a => { a.put AuthReg.HOLDER_WING (w.val == 0) with lastRenewal := now, leaseSeen := true, sent := none }

/-- A copy takes the lease (R442): its new EPOCH is persistent before it acts as holder. `why` is ARG1 of the event
LEASE_TAKEN (R454); the flag LEASE_TAKEN is set where the lease has expired and at a claim (R442, R446, R459). -/
def State.takeLease (w : Fin 2) (e why : Nat) (s : State) : State :=
  let s := s.setEpoch w e
  if s.epoch w = e % 2 ^ 64 then
    let s := s.onAtrium w fun a => { a.put AuthReg.HOLDER_WING (w.val == 1) with handover := none, sentMs := none }
    let s := if why = 1 ∨ why = 3 then s.onAtrium w (·.flag AuthReg.LEASE_TAKEN) else s
    s.log (atriumTile w) 0x0001 0xFF e why
  else s

/-- The EPOCH with which a standby takes the lease (R442). -/
def State.nextEpoch (s : State) (w : Fin 2) : Nat := max (s.epoch w) (s.atrium w).epochSeen + 1

/-- A package event is recorded by the Atrium of each wing (R452). -/
def State.logPkg (s : State) (code unit arg0 arg1 : Nat) : State :=
  (s.log (atriumTile 0) code unit arg0 arg1).log (atriumTile 1) code unit arg0 arg1

/-- LEASE_RENEWAL (R441): at each millisecond of package time the holder sends a lease flit; it fails on its route while
the wings are split, and is then not counted (R445). -/
def execLeaseRenewal (wait : Nat) (w : Fin 2) (s : State) : Out :=
  let ms (s : State) : Nat := s.ns (atriumTile w) / 1000000
  s.after wait (fun s => s.holds w && !(s.atrium w).held && (s.atrium w).sentMs != some (ms s)) fun s =>
    let go := s.reaches (atriumTile w) (atriumTile (otherWing w))
    let s := if go then s.sendPacket (atriumTile w) (atriumTile (otherWing w)) vcTime 1 else s
    let m := ms s
    let s := s.onAtrium w fun a => { a with renewals := a.renewals + 1, sentMs := some m }
    if go then let f := s.view w; s.onAtrium w fun a => { a with sent := some f } else s

/-- Two claims (R449): the higher EPOCH wins, and with equal ones the lower wing. -/
def State.conflict (s : State) : State :=
  let e0 := s.epoch 0
  let e1 := s.epoch 1
  let win : Fin 2 := if e1 ≤ e0 then 0 else 1
  let lose := otherWing win
  let mark (w : Fin 2) (peer : Nat) (s : State) : State := s.onAtrium w fun a =>
    (((a.flag AuthReg.CONFLICT).put AuthReg.FROZEN true).w AuthReg.PEER_EPOCH_LO peer).w AuthReg.PEER_EPOCH_HI (peer / 2 ^ 32)
  let s := mark 1 e0 (mark 0 e1 s)
  let s := (s.setEpoch lose (max e0 e1)).stepDown lose
  let s := s.onAtrium lose fun a => a.flag AuthReg.LEASE_LOST
  let s := s.log (atriumTile lose) 0x0002 0xFF (max e0 e1) 2
  s.log (atriumTile win) 0x0005 0xFF (max e0 e1) ((min e0 e1) % 2 ^ 32)

/-- A lease flit reaches copy `w` (R441, R449). -/
def State.takeFlit (w : Fin 2) (f : LeaseFlit) (s : State) : State :=
  let o := otherWing w
  let s := s.onAtrium w fun a => { a with epochSeen := max a.epochSeen f.epoch }
  if s.holds w then
    if f.holder = o.val then s.conflict else s
  else if f.epoch < s.epoch w then s
  else
    let now := s.ns (atriumTile w)
    let s := s.setEpoch w f.epoch
    let s := s.onAtrium w fun a => { a.put AuthReg.HOLDER_WING (f.holder != 0) with
      lastRenewal := now, leaseSeen := true }
    let v := s.view w
    s.onAtrium o fun a => { a with ack := some v }

/-- LEASE_FLIT (R441). -/
def execLeaseFlit (wait : Nat) (w : Fin 2) (s : State) : Out :=
  s.after wait (fun s => (s.atrium (otherWing w)).sent.isSome) fun s =>
    match (s.atrium (otherWing w)).sent with
    | none => s
    | some f =>
      let s := s.onAtrium (otherWing w) fun a => { a with sent := none }
      if (s.atrium w).held then s else s.takeFlit w f

/-- RENEW_LATE (R441). -/
def execRenewLate (wait : Nat) (w : Fin 2) (s : State) : Out :=
  s.after wait (fun s => !s.holds w && !(s.atrium w).held && (s.atrium w).leaseSeen && decide (2000000 < s.leaseAge w))
    fun s => s.onAtrium w (·.flag AuthReg.RENEW_LATE)

/-- LEASE_EXPIRY (R442): the lease has been invalid for 10 ms, and a bridge is up. -/
def execLeaseExpiry (wait : Nat) (w : Fin 2) (s : State) : Out :=
  s.after wait (fun s => !s.holds w && !(s.atrium w).held && (s.atrium w).leaseSeen && decide (20000000 ≤ s.leaseAge w)
    && s.bridges != 0) fun s => s.takeLease w (s.nextEpoch w) 1

/-! ### AUTH_CMD -/

/-- An AUTH_CMD is carried out (R459). -/
def State.authDone (w : Fin 2) (s : State) : State :=
  s.onAtrium w fun a => (a.w AuthReg.AUTH_STATUS 0).flag AuthReg.AUTH_DONE

/-- An AUTH_CMD is refused (R459). -/
def State.authRefuse (w : Fin 2) (status : Nat) (s : State) : State :=
  s.onAtrium w fun a => (a.w AuthReg.AUTH_STATUS status).flag AuthReg.AUTH_REFUSED

/-- HANDOVER (R443): the holder sends the flit and becomes standby. -/
def State.authHandover (w : Fin 2) (s : State) : State :=
  if !s.holds w then s.authRefuse w 1
  else if s.split || s.bridges == 0 then s.authRefuse w 3
  else if (s.atrium w).b AuthReg.FROZEN then s.authRefuse w 6
  else
    let e := s.epoch w + 1
    let s := s.onAtrium (otherWing w) fun a => { a with handover := some e }
    let s := (s.stepDown w).onAtrium w fun a => a.flag AuthReg.LEASE_LOST
    let s := s.sendPacket (atriumTile w) (atriumTile (otherWing w)) vcTime 1
    (s.log (atriumTile w) 0x0002 0xFF e 1).authDone w

/-- HANDOVER_FLIT (R443): the receiving copy becomes holder. -/
def execHandoverFlit (wait : Nat) (w : Fin 2) (s : State) : Out :=
  s.after wait (fun s => (s.atrium w).handover.isSome) fun s =>
    match (s.atrium w).handover with
    | none => s
    | some e =>
      let s := s.onAtrium w fun a => { a with handover := none }
      if (s.atrium w).held then s else s.takeLease w e 2

/-- CLAIM (R446). Where the store refuses the new EPOCH the lease is not taken and the command is refused (R432), with a
status that no rule gives (DESIGN CHOICE, log entry 135). -/
def State.authClaim (w : Fin 2) (s : State) : State :=
  if s.holds w || (s.leaseValid w && s.bridges != 0) then s.authRefuse w 2
  else
    let s := s.takeLease w (s.nextEpoch w) 3
    if s.holds w then s.authDone w else s.authRefuse w (1 + Config.claimStatus.toNat % 7)

/-- UNFREEZE (R450): in a split the wing acts on and logs in its own tiles (R445). -/
def State.authUnfreeze (w : Fin 2) (s : State) : State :=
  if !s.holds w then s.authRefuse w 1
  else if !(s.atrium w).b AuthReg.FROZEN then s.authRefuse w 4
  else
    let clear (w : Fin 2) (s : State) : State := s.onAtrium w (·.put AuthReg.FROZEN false)
    let s := if s.split && !s.rejoining then (clear w s).log (atriumTile w) 0x0007 0xFF (s.epoch w) 0
      else (clear 1 (clear 0 s)).logPkg 0x0007 0xFF (s.epoch w) 0
    s.authDone w

/-- A write of AUTH_CMD served by copy `w` (R459). -/
def State.authCmd (w : Fin 2) (cmd : Nat) (s : State) : State :=
  match cmd with
  | 0 => s
  | 1 => s.authHandover w
  | 2 => s.authClaim w
  | 3 => s.authUnfreeze w
  | _ => s.authRefuse w 5

/-! ### Split and rejoin -/

/-- The wings are split (R445). `before` is the bridge mask before the last bridge went down. -/
def State.splitBegins (before : Nat) (s : State) : State :=
  let now := s.cycle
  let begin_ (w : Fin 2) (s : State) : State :=
    let ns := s.ns (atriumTile w)
    s.onAtrium w fun a => { (((a.put AuthReg.SPLIT true).flag AuthReg.SPLIT_BEGAN).w AuthReg.SPLIT_COUNT
      (satAdd 16 (a.r AuthReg.SPLIT_COUNT) 1)) with
        splitAt := ns, bridgesBefore := before, sent := none, handover := none, rejoin := none, rejoinAt := now }
  ((begin_ 1 (begin_ 0 s)).logPkg 0x0003 0xFF before 0).refreshSets

/-- A link of a tile leaves the state up (R24, R504). -/
def State.endDown (t : Fin 8) (k : Fin 3) (s : State) : State :=
  s.onTile t fun x => { x.w (LinkReg.LSTATE k) 0 with links := x.links.set k .reset }

/-- Bridges that are up or, for `k` = 2, the one that ends at tile `t`: the mask before that one went down (R454). -/
def State.bridgesWith (s : State) (t : Fin 8) (k : Fin 3) : Nat :=
  if k = 2 then s.bridges ||| 2 ^ (t.val % 4) else s.bridges

/-- A link is declared down at both its ends (R24), and its flits take other routes; the last bridge splits the wings, and a
bridge that goes down ends a rejoin (R445, R447). -/
def State.linkDown (t : Fin 8) (k : Fin 3) (s : State) : State :=
  let before := s.bridgesWith t k
  let far := warpFar t k
  let l := (s.tile t).links[k]
  let m := (s.tile far).links[warpBack k]
  let mark (t : Fin 8) (k : Fin 3) (s : State) : State :=
    let s := s.endDown t k
    if s.asleep t then s else s.onTile t (·.flag (LinkReg.LINK_DOWN k))
  let s := mark far (warpBack k) (mark t k s)
  let s := (s.reroute t l).reroute far m
  if k = 2 then
    if s.split then
      if (s.atrium 0).rejoin.isSome then
        (s.onAtrium 0 fun a => { a with rejoin := none }).onAtrium 1 fun a => { a with rejoin := none }
      else s
    else if s.bridges = 0 then s.splitBegins before else s.refreshSets
  else s.refreshSets

/-- WARP_LINK_DOWN (R24): lane lock has been lost for 1 µs, or 8 replays of one flit have failed in a row. -/
def execWarpLinkDown (wait : Nat) (t : Fin 8) (k : Fin 3) (lost : Nat) (s : State) : Out :=
  s.after wait (fun s => (s.tile t).r (LinkReg.LSTATE k) == 2
    && (decide (cyclesPerUs ≤ lost) || decide (9 ≤ (s.tile t).links[k].failed))) (State.linkDown t k)

/-- A flit comes in by link `k` of tile `t`: the oldest that the far end has sent and not had acknowledged, or the next that
it sends. One with a bad CRC is replayed from the sender's buffer (R21, R24). -/
def State.flitIn (t : Fin 8) (k : Fin 3) (good : Bool) (s : State) : State :=
  let far := warpFar t k
  let s := if (s.tile far).links[warpBack k].replay.isEmpty then s.launch far (warpBack k) else s
  if good then
    let due := (s.tile far).links[warpBack k].replay.head?
    let s := s.onLink t k fun l => { l with failed := 0, rxCount := l.rxCount + 1 }
    match due with
    | none => s
    | some f => s.takeIn t k f
  else
    let s := s.onTile t fun x => (x.flag (LinkReg.CRC_ERR k)).bump (LinkReg.CRC_COUNT k) 1
    (s.onLink t k fun l => { l with failed := l.failed + 1 }).onTile far (·.bump (LinkReg.REPLAYS (warpBack k)) 1)

/-- WARP_FLIT_RECEIVE (R21, R24): 64 bytes and their CRC-16 are received at the end of link `k` of tile `t`. -/
def execWarpFlitReceive (wait : Nat) (t : Fin 8) (k : Fin 3) (rx : RxFlit) (s : State) : Out :=
  s.after wait (fun s => s.linkUp t k) (State.flitIn t k (rx.crc == Config.flitCrc rx.flit))

/-- Both ends of a link are on tiles that are powered and enabled (R22). -/
def State.linkExists (s : State) (t : Fin 8) (k : Fin 3) : Bool :=
  s.tileEnabled t && s.tileEnabled (warpFar t k) && (s.tile t).r (LinkReg.LSTATE k) != 3

/-- Step 1 of a rejoin (R447): the copies exchange lease flits. -/
def State.rejoinBegins (bridge : Nat) (s : State) : State :=
  let now := s.cycle
  let note (w : Fin 2) (s : State) : State := s.onAtrium w fun a => { a with rejoin := some bridge, rejoinAt := now }
  let s := note 1 (note 0 s)
  if s.holds 0 && s.holds 1 then s.conflict
  else
    let f0 := s.view 0
    let f1 := s.view 1
    if s.holds 0 then s.takeFlit 1 f0 else if s.holds 1 then s.takeFlit 0 f1 else s

/-- WARP_LINK_UP (R22, R447): the link comes up at both its ends; a bridge that comes up during a split begins the
rejoin. -/
def State.linkComesUp (t : Fin 8) (k : Fin 3) (s : State) : State :=
  let up (t : Fin 8) (k : Fin 3) (s : State) : State :=
    (s.onTile t (·.w (LinkReg.LSTATE k) 2)).onLink t k fun l => { l with failed := 0, rxCount := 0 }
  let s := up (warpFar t k) (warpBack k) (up t k s)
  if k = 2 ∧ s.split ∧ !s.rejoining then s.rejoinBegins (t.val % 4) else s.refreshSets

/-- WARP_LINK_UP (R22). -/
def execWarpLinkUp (wait : Nat) (t : Fin 8) (k : Fin 3) (s : State) : Out :=
  s.after wait (fun s => s.linkExists t k && !s.linkUp t k && s.boot.phase != .held && s.boot.phase != .pll)
    (State.linkComesUp t k)

/-! ### Reconciliation (R448) -/

/-- The value kept of a persistent field whose copies differ: `a` is the west copy's, `b` the east copy's. -/
def keptValue (s : State) (f : Fld) (a b : Nat) : Nat :=
  if f.off = 0x280 ∨ f.off = 0x284 ∨ f.off = 0x230 then max a b
  else if 0x4000 ≤ f.off then
    if (s.aset (toTile ((f.off - 0x4000) / 0x100))).wing = 0 then a else b
  else if f.off = 0x220 ∧ f.lsb = 0 then a
  else if f.off = 0x220 ∧ f.lsb = 1 then b
  else if s.mainWing = 0 then a else b

/-- One difference is resolved: the value is written persistently to both tiles, DIVERGED is set and the event
logged. -/
def State.resolve (w : Fin 2) (addr : Nat) (value : Nat) (put : RegFile → RegFile) (s : State) : State :=
  if s.storeRefuses then s.pset w BootReg.SELV_REFUSED
  else
    let fix (w : Fin 2) (s : State) : State :=
      (s.onAtrium w fun a => { (a.flag AuthReg.DIVERGED) with regs := put (a.flag AuthReg.DIVERGED).regs }).keep
        (atriumTile w) addr
    (fix 1 (fix 0 s)).logPkg 0x0006 0xFF addr value

/-- A field of 32 bits or fewer is reconciled. -/
def State.reconcileField (s : State) (f : Fld) : State :=
  let a := s.pr 0 f
  let b := s.pr 1 f
  if a = b then s else let v := keptValue s f a b; s.resolve s.mainWing f.off v (·.wr f v)

/-- A value of two words is reconciled whole (R433). -/
def State.reconcilePair (s : State) (lo hi : Fld) (keep : Nat → Nat → Nat) : State :=
  let val (w : Fin 2) : Nat := s.pr w lo + 2 ^ 32 * s.pr w hi
  if val 0 = val 1 then s
  else
    let v := keep (val 0) (val 1)
    s.resolve s.mainWing lo.off v fun rf => (rf.wr lo v).wr hi (v / 2 ^ 32)

/-- First Selvedge word of the record of key slot `k`, 4 to 11 (R423, R430). -/
def keyWord (k : Nat) : Nat := 0x10000 / 8 + 8 * (k - 4)

/-- The words of a key slot record on a tile. -/
def State.keyRecord (s : State) (t : Fin 8) (k : Nat) : List DWord :=
  (List.range 8).map fun i => (s.tile t).selv.read (keyWord k + i)

/-- The key slot records of a tile are read whole (R435). -/
def State.noteKeys (t : Fin 8) (s : State) : State := s.noteWords t (keyWord 4) 64

/-- KEY_SEQ of a key slot record (R423). -/
def recordSeq (l : List DWord) : Nat := bitsOf (l.getD 1 0).toNat 31 0

/-- The records of a key slot are reconciled: the one with the higher KEY_SEQ is kept (R448). -/
def State.reconcileKey (s : State) (k : Nat) : State :=
  let a := s.keyRecord 0 k
  let b := s.keyRecord 4 k
  if a = b then s
  else if s.storeRefuses then s.pset s.mainWing BootReg.SELV_REFUSED
  else
    let l := if recordSeq b ≤ recordSeq a then a else b
    let s := (s.selvWrites 0 (keyWord k) l).selvWrites 4 (keyWord k) l
    let s := (s.onAtrium 0 (·.flag AuthReg.DIVERGED)).onAtrium 1 (·.flag AuthReg.DIVERGED)
    s.logPkg 0x0006 0xFF (8 * keyWord k) (recordSeq l)

/-- Step 4 of a rejoin: package persistent state is reconciled (R448). -/
def State.reconcile (s : State) : State :=
  let s := s.reconcilePair AuthReg.EPOCH_LO AuthReg.EPOCH_HI max
  let s := s.reconcilePair BootReg.MIN_SEQ_LO BootReg.MIN_SEQ_HI max
  let s := [BootReg.BOOT_COUNT, BootReg.BR_ACK, BootReg.KEY_SEQ, BootReg.ACTIVE_SLOT_0, BootReg.ACTIVE_SLOT_1,
    BootReg.RECORD_POLICY, IdReg.DEVICE_ID 0, IdReg.DEVICE_ID 1, IdReg.DEVICE_ID 2, IdReg.DEVICE_ID 3].foldl
      State.reconcileField s
  let s := ([4, 5, 6, 7, 8, 9, 10, 11] : List Nat).foldl State.reconcileKey s
  allSets.foldl (fun s (n : Fin 8) =>
    let home (s : State) (a b : Nat) : Nat := if (s.aset n).wing = 0 then a else b
    let s := [SetReg.ONLINE_DONE n, SetReg.PRESENT n, SetReg.REPLACING n, SetReg.JSTART n, SetReg.CKPT_SEQ n].foldl
      State.reconcileField s
    s.reconcilePair (SetReg.WSEQ_AT_LO n) (SetReg.WSEQ_AT_HI n) (home s)) s

/-- The wing whose copy of a package field that does not persist is kept when the wings rejoin (DESIGN CHOICE, log entry
88): that of the tile or the set that the field belongs to, of a flash's controller the one whose operation runs, and
otherwise the holder's. -/
def State.ownerWing (s : State) (f : Fld) : Fin 2 :=
  if 0x400 ≤ f.off ∧ f.off < 0x480 then
    let x := s.flash (if f.off < 0x440 then 0 else 1)
    if x.started.isSome then x.wing else s.mainWing
  else if 0x700 ≤ f.off ∧ f.off < 0x780 then wingOf (toTile ((f.off - 0x700) / 0x10))
  else if 0x4000 ≤ f.off ∧ f.off < 0x4800 then (s.aset (toTile ((f.off - 0x4000) / 0x100))).wing
  else s.mainWing

/-- The fields of the package block that are one for both copies: all but the authority registers. -/
def sharedFields : List Fld := SetReg.all ++ HostReg.all ++ BootReg.all ++ FlashReg.all ++ EvReg.all ++ IdReg.all

/-- Both copies show the same package block again. -/
def State.unify (s : State) : State :=
  sharedFields.foldl (fun s f =>
    if f.persist then s
    else
      let v := s.pr (s.ownerWing f) f
      (s.onAtrium 0 (·.w f v)).onAtrium 1 (·.w f v)) s

/-- The rejoin can finish: the other wing's Atrium tile has taken a sync flit of the holder since it began (R447
step 2). -/
def State.rejoinDue (s : State) : Bool :=
  let m := atriumTile s.mainWing
  let o := atriumTile (otherWing s.mainWing)
  s.rejoining && s.bridges != 0 && (s.asleep o || (s.masterOf (wingOf o) = m
    && (match (s.tile o).lastSync with | none => false | some c => decide ((s.atrium 0).rejoinAt ≤ c))))

/-- Steps 3 to 5 of a rejoin (R447). -/
def State.rejoinDone (s : State) : State :=
  let s := allSets.foldl (fun s (n : Fin 8) => if s.mirrorUp n then s.copyLag n else s) s
  let s := s.reconcile
  let bridge := (s.atrium 0).rejoin.getD 0
  let len := (s.ns (atriumTile s.mainWing) - (s.atrium s.mainWing).splitAt) / 1000000
  let end_ (w : Fin 2) (s : State) : State :=
    s.onAtrium w fun a => { (a.put AuthReg.SPLIT false).flag AuthReg.REJOINED with rejoin := none }
  ((end_ 1 (end_ 0 s.unify)).logPkg 0x0004 bridge len 0).refreshSets

/-- REJOIN_COMPLETE (R447). -/
def execRejoinComplete (wait : Nat) (s : State) : Out := s.after wait State.rejoinDue State.rejoinDone

end Sys2Proof.Machine
end

