-- ==== Sys2Proof/Machine/Gf.lean ====
section
/-! DEFINITION. The arithmetic of parity: GF(2^8) of R307, the solutions of R308 and the syndromes of R325, over data
parts given as lists of bytes. -/

namespace Sys2Proof.Machine

/-- g times an element (R307). -/
def gfDouble (a : Nat) : Nat := if a < 128 then 2 * a else (2 * a) % 256 ^^^ 0x1D

/-- The product of two elements of GF(2^8) (R307): the low `n` bits of `b` are taken, the lowest first. -/
def gfMulBits : Nat → Nat → Nat → Nat
  | 0, _, _ => 0
  | n + 1, a, b => (if b % 2 = 1 then a else 0) ^^^ gfMulBits n (gfDouble a) (b / 2)

/-- The product of two elements of GF(2^8) (R307). -/
def gfMul (a b : Nat) : Nat := gfMulBits 8 a b

/-- g^n (R307). -/
def gfPow : Nat → Nat
  | 0 => 1
  | n + 1 => gfDouble (gfPow n)

/-- g^(-n), for `n` up to 255: the order of g is 255. -/
def gfPowNeg (n : Nat) : Nat := gfPow (255 - n)

/-- a^254 by squarings: the inverse of a nonzero element. -/
def gfInv (a : Nat) : Nat :=
  let sq (x : Nat) : Nat := gfMul x x
  let a2 := sq a
  let a4 := sq a2
  let a8 := sq a4
  let a16 := sq a8
  let a32 := sq a16
  let a64 := sq a32
  gfMul (gfMul (gfMul a2 a4) (gfMul a8 a16)) (gfMul (gfMul a32 a64) (sq a64))

/-- The sum of two data parts (R307). -/
def addPart (a b : List Byte) : List Byte := List.zipWith (· ^^^ ·) a b

/-- A data part times an element (R307). -/
def scalePart (c : Nat) (l : List Byte) : List Byte := l.map fun b => BitVec.ofNat 8 (gfMul c b.toNat)

/-- Bytes of a data part (R307). -/
def partBytes : Nat := 32768

/-- The data part of a hole. -/
def zeroPart (n : Nat) : List Byte := List.replicate n 0

/-- The sum of the data parts of known data members, each times 1 (R307). -/
def sumP (size : Nat) (l : List (Nat × List Byte)) : List Byte := l.foldl (fun a m => addPart a m.2) (zeroPart size)

/-- The sum of the data parts of known data members, each times g^i (R307). -/
def sumQ (size : Nat) (l : List (Nat × List Byte)) : List Byte :=
  l.foldl (fun a m => addPart a (scalePart (gfPow m.1) m.2)) (zeroPart size)

/-- The parity members that a solution uses (R308): none, P, Q or both; nothing for an unrecoverable set. `data` are the
data members to solve, `hasP` and `hasQ` say whether a parity member is known. -/
def solvable (data : List Nat) (hasP hasQ : Bool) : Option (Bool × Bool) :=
  match data with
  | [] => some (false, false)
  | [_] => if hasP then some (true, false) else if hasQ then some (false, true) else none
  | [_, _] => if hasP && hasQ then some (true, true) else none
  | _ => none

/-- The solved data members (R308). `known` are the known data members, `partP` and `partQ` the known parities, `x` and `y` the
members to solve in increasing order. -/
def solveData (size : Nat) (known : List (Nat × List Byte)) (partP partQ : List Byte) (data : List Nat) (useP useQ : Bool) :
    List (Nat × List Byte) :=
  let p := addPart partP (sumP size known)
  let q := addPart partQ (sumQ size known)
  match data with
  | [x] => if useP then [(x, p)] else if useQ then [(x, scalePart (gfPowNeg x) q)] else []
  | [x, y] =>
    let num := addPart (scalePart (gfPow (y - x)) p) (scalePart (gfPowNeg x) q)
    let dx := scalePart (gfInv (gfPow (y - x) ^^^ 1)) num
    [(x, dx), (y, addPart p dx)]
  | _ => []

/-- The class of a patrolled stripe (R325): 0 for a clean one, otherwise the class and the suspect data member. A
syndrome that is not formed is none. -/
def patrolClass (dataMembers : Nat) (sp sq : Option (List Byte)) : Nat × Option Nat :=
  let zero (l : Option (List Byte)) : Bool := match l with | none => true | some l => l.all (· == 0)
  if zero sp && zero sq then (0, none)
  else
    match sp, sq with
    | some p, some q =>
      if zero sq then (1, none)
      else if zero sp then (2, none)
      else
        match (List.range dataMembers).find? fun z => q == scalePart (gfPow z) p with
        | some z => (3, some z)
        | none => (4, none)
    | _, _ => (4, none)

/-- The places of the bytes with a nonzero syndrome (R326). -/
def patrolPlaces (size : Nat) (sp sq : Option (List Byte)) : List Nat :=
  let nz (l : Option (List Byte)) : List Bool :=
    match l with | none => List.replicate size false | some l => l.map (· != 0)
  ((List.zipWith (· || ·) (nz sp) (nz sq)).zipIdx.filter (·.1)).map (·.2)

end Sys2Proof.Machine
end

