-- ==== Sys2Proof/Machine/Bolt.lean ====
section
/-! DEFINITION. The Bolt engine of one tile (12_archive_sets.md): descriptors and their checks, COMPUTE and PATROL, the
journal and map descriptors, and the pacing of background work. -/

namespace Sys2Proof.Machine

/-! ### Taking a descriptor -/

/-- The descriptor in 64 bytes, given as a number (R327). -/
def boltDescOf (v : Nat) : BoltDesc :=
  let f (byte size : Nat) : Nat := bitsOf v (8 * (byte + size) - 1) (8 * byte)
  { type := f 0 1, set := f 1 1, tag := f 2 2, s0 := f 4 2, ns := f 6 2, wseqFirst := f 8 5, member := f 0xD 1
    target := f 0xE 2, addr := f 0x10 4, resAddr := f 0x14 4, landAddr := f 0x18 4, psa := f 0x20 5
    ckptSeq := f 0x28 8, wseqAt := f 0x30 5 }

/-- A ring holds a descriptor and does not wait behind one without map room (R161, R319): the host ring, or the
background ring where `bg`. -/
def Tile.ringReady (x : Tile) (bg : Bool) : Bool :=
  (if bg then x.r BoltReg.BGQ_RD != x.r BoltReg.BGQ_WR else x.r BoltReg.HQ_RD != x.r BoltReg.HQ_WR)
    && !x.bolt.parked.getD (flagNat bg) false

/-- Byte of a ring's next descriptor (R161). -/
def Tile.ringByte (x : Tile) (bg : Bool) : Nat :=
  if bg then x.r BoltReg.BGQ_BASE * 4096 + 64 * x.r BoltReg.BGQ_RD else x.r BoltReg.HQ_BASE * 4096 + 64 * x.r BoltReg.HQ_RD

/-- The next descriptor of a ring. -/
def State.ringDesc (s : State) (t : Fin 8) (bg : Bool) : BoltDesc := boltDescOf (s.stackLE t ((s.tile t).ringByte bg) 64)

/-- The next background descriptor is admitted (R324): COMPUTE and PATROL wait for credit. -/
def State.admitted (s : State) (t : Fin 8) : Bool :=
  let d := s.ringDesc t true
  (s.tile t).ringReady true && (!(d.type == 1 || d.type == 2) || decide (0 < (s.tile t).bolt.credit))

/-- BG_WAIT (R330): a background descriptor waits for credit. -/
def State.bgWaits (s : State) (t : Fin 8) : Bool := (s.tile t).ringReady true && !s.admitted t

/-- The ring from which the engine takes its next descriptor now, if it takes one (R324, R327, R463): an admitted
background descriptor runs before the host ring's next. -/
def State.boltRing (s : State) (t : Fin 8) : Option Bool :=
  let x := s.tile t
  if !(s.tileUp t && x.heat.tripAt.isNone && x.b BoltReg.ENABLE && x.bolt.active.isNone && x.bolt.waiting.isEmpty) then none
  else if s.admitted t then some true
  else if x.ringReady false then some false
  else none

/-- A descriptor of TYPE `ty` is taken next; an unreadable one, which is refused, serves any row. -/
def State.boltNext (t : Fin 8) (is : Nat → Bool) (s : State) : Bool :=
  match s.boltRing t with
  | none => false
  | some bg => s.stackUe t ((s.tile t).ringByte bg) 64 || is (s.ringDesc t bg).type

/-- An entry of a member's Bolt table: BKIND and the staging byte of the information part; none where it cannot be
read (R310). -/
def State.boltEntry (s : State) (t : Fin 8) (d : SetDef) (addr m i : Nat) : Option (Nat × Nat) :=
  let a := addr * 4096 + 8 * m
  let u := d.tileAt m
  if s.stackUe t a 8 || !(s.reaches t u) || !s.tileUp u then none
  else
    let b := bitsOf (s.stackLE t a 8) 28 0 * 4096 + 8 * i
    if s.stackUe u b 8 then none
    else
      let e := s.stackLE u b 8
      some (bitsOf e 30 29, 64 * bitsOf e 28 0)

/-- What reading the member table and `ns` entries of each Bolt table from entry `s0` on leaves behind, and its flits (R17,
R25). -/
def State.touchTables (t : Fin 8) (d : SetDef) (addr s0 ns : Nat) (s : State) : State :=
  let s := s.stackTouch t (addr * 4096) 256 .other
  (List.range d.n).foldl (fun s m =>
    if s.reaches t (d.tileAt m) && s.tileUp (d.tileAt m) then
      let b := bitsOf (s.stackLE t (addr * 4096 + 8 * m) 8) 28 0 * 4096
      (s.askData t (d.tileAt m) ((8 * ns + 63) / 64)).stackTouch (d.tileAt m) (b + 8 * s0) (8 * ns) .other
    else s.sendPacket t (d.tileAt m) vcRequest 1) s

/-- The entries of a stripe, by member (R310). -/
def State.stripeEntries (s : State) (t : Fin 8) (d : SetDef) (b : BoltDesc) (i : Nat) : List (Option (Nat × Nat)) :=
  (List.range d.n).map fun m => s.boltEntry t d b.addr m i

/-- DATA entries and SOLVE entries of a descriptor's stripes. -/
def State.boltLoad (s : State) (t : Fin 8) (d : SetDef) (b : BoltDesc) : Nat × Nat :=
  let es := (List.range b.ns).flatMap fun k => s.stripeEntries t d b (b.s0 + k)
  let of (kind : Nat) : Nat := (es.filter fun e => match e with | some (k, _) => k == kind | none => false).length
  (of 0, of 2)

/-! ### COMPUTE and PATROL -/

/-- The checked data part at a staging byte of a member's stack (R310, R369, R371): whether its check failed, and its
32 768 bytes, which come over the Warp (R17). -/
def State.readPart (t u : Fin 8) (a : Nat) (s : State) : (Bool × List Byte) × State :=
  if !(s.reaches t u && s.tileUp u) || a % 4096 ≠ 4032 then ((true, []), s.sendPacket t u vcRequest 1)
  else
    let s := s.askData t u 512
    let r := (List.range 8).foldl (fun (r : Bool × State) k =>
      let c := r.2.checkBlock u (a / 4096 + 1 + k) .checking
      (r.1 || c.1.isSome, c.2)) (false, s)
    ((r.1, s.stackBytes u (a + 64) partBytes), r.2)

/-- The DATA members of a stripe with their parts; whether a check failed (R310). -/
def State.readStripe (t : Fin 8) (d : SetDef) (es : List (Option (Nat × Nat))) (s : State) :
    (Bool × List (Nat × List Byte)) × State :=
  es.zipIdx.foldl (fun (r : (Bool × List (Nat × List Byte)) × State) e =>
    match e.1 with
    | some (0, a) =>
      let p := r.2.readPart t (d.tileAt e.2) a
      ((r.1.1 || p.1.1, r.1.2 ++ [(e.2, p.1.2)]), p.2)
    | _ => r) ((false, []), s)

/-- The members of a stripe with a BKIND. -/
def membersOf (es : List (Option (Nat × Nat))) (kind : Nat) : List (Nat × Nat) :=
  es.zipIdx.filterMap fun e => match e.1 with | some (k, a) => if k = kind then some (e.2, a) else none | none => none

/-- The outputs of a stripe (R307, R308): the solved members with their data parts; none for an unrecoverable one. -/
def solveStripe (n : Nat) (solve : List Nat) (got : List (Nat × List Byte)) : Option (List (Nat × List Byte)) :=
  let p := n - 2
  let q := n - 1
  let data := solve.filter (· < p)
  let known := got.filter fun e => decide (e.1 < p)
  let part (m : Nat) : Option (List Byte) := (got.find? (·.1 == m)).map (·.2)
  match solvable data (part p).isSome (part q).isSome with
  | none => none
  | some (useP, useQ) =>
    let z := zeroPart partBytes
    let solved := solveData partBytes known ((part p).getD z) ((part q).getD z) data useP useQ
    let all := known ++ solved
    some (solved ++ (if solve.contains p then [(p, sumP partBytes all)] else [])
      ++ (if solve.contains q then [(q, sumQ partBytes all)] else []))

/-- An output is written at its place over the Warp (R17): the data part, and of a parity member the header bytes of
R309. -/
def State.writePart (d : SetDef) (m a wseq : Nat) (part : List Byte) (s : State) : State :=
  let u := d.tileAt m
  let s := s.sendPacket d.homeTile u vcData (if m < d.data then 512 else 513)
  let s := s.stackStamp u (a + 64) part
  if m < d.data then s
  else
    let s := s.stackStamp u a [BitVec.ofNat 8 (if m = d.data then 2 else 3), 1, 0]
    s.stackStamp u (a + 9) (bytesOf 1 m ++ bytesOf 4 d.tag ++ bytesOf 5 wseq ++ [0] ++ List.replicate 40 0xFF)

/-- Counts of a COMPUTE or PATROL that runs. -/
structure BoltRun where
  unrecov : Nat
  srcCrc : Nat
  badEntry : Nat
  entries : Nat
deriving DecidableEq, Repr

/-- The status byte of a stripe is written, and counted (R328, R330). -/
def State.stripeStatus (t : Fin 8) (b : BoltDesc) (k status : Nat) (r : BoltRun) (s : State) : BoltRun × State :=
  let s := s.stackWrite t (b.resAddr * 4096 + k) [BitVec.ofNat 8 status]
  match status with
  | 1 => ({ r with unrecov := r.unrecov + 1 }, s.onTile t fun x => (x.flag BoltReg.UNRECOV).bump BoltReg.UNRECOV_COUNT 1)
  | 2 => ({ r with srcCrc := r.srcCrc + 1 }, s.onTile t (·.flag BoltReg.SRC_CRC))
  | 3 => ({ r with badEntry := r.badEntry + 1 }, s)
  | _ => (r, s)

/-- One stripe of a COMPUTE (R308 to R310). -/
def State.computeStripe (t : Fin 8) (d : SetDef) (b : BoltDesc) (k : Nat) (r : BoltRun) (s : State) : BoltRun × State :=
  let i := b.s0 + k
  let es := s.stripeEntries t d b i
  if es.any fun e => match e with | none => true | some (kd, _) => kd == 3 then s.stripeStatus t b k 3 r
  else
    let ((bad, got), s) := s.readStripe t d es
    let solve := membersOf es 2
    match solveStripe d.n (solve.map (·.1)) got with
    | none => s.stripeStatus t b k 1 r
    | some outs =>
      if bad then s.stripeStatus t b k 2 r
      else
        let s := outs.foldl (fun s o =>
          match solve.find? (·.1 == o.1) with
          | some (m, a) => s.writePart d m a (b.wseqFirst + i) o.2
          | none => s) s
        s.stripeStatus t b k 0 r

/-- The syndromes that a stripe forms (R325): S_P and S_Q where the parity member is DATA. -/
def syndromes (n : Nat) (got : List (Nat × List Byte)) : Option (List Byte) × Option (List Byte) :=
  let known := got.filter fun e => decide (e.1 < n - 2)
  let part (m : Nat) : Option (List Byte) := (got.find? (·.1 == m)).map (·.2)
  ((part (n - 2)).map fun p => addPart p (sumP partBytes known), (part (n - 1)).map fun q => addPart q (sumQ partBytes known))

/-- Byte of patrol entry `e`: the entries stand behind the status bytes, on a multiple of 16. -/
def BoltDesc.patrolByte (b : BoltDesc) (e : Nat) : Nat := b.resAddr * 4096 + (b.ns + 15) / 16 * 16 + 16 * e

/-- One stripe of a PATROL (R325, R326). -/
def State.patrolStripe (t : Fin 8) (d : SetDef) (b : BoltDesc) (k : Nat) (r : BoltRun) (s : State) : BoltRun × State :=
  let i := b.s0 + k
  let es := s.stripeEntries t d b i
  if es.any fun e => match e with | none => true | some (kd, _) => kd == 2 || kd == 3 then s.stripeStatus t b k 3 r
  else
    let ((bad, got), s) := s.readStripe t d es
    if bad then s.stripeStatus t b k 2 r
    else
      let (sp, sq) := syndromes d.n got
      let (cls, z) := patrolClass d.data sp sq
      if cls = 0 then s.stripeStatus t b k 0 r
      else
        let places := patrolPlaces partBytes sp sq
        let entry := bytesOf 5 (b.wseqFirst + i) ++ bytesOf 2 i ++ bytesOf 1 cls ++ bytesOf 1 (z.getD 0xFF)
          ++ bytesOf 2 (places.headD 0) ++ bytesOf 2 (min 65535 places.length) ++ [0, 0, 0]
        let s := s.stackWrite t (b.patrolByte r.entries) entry
        let s := (s.onTile t fun x => (x.flag BoltReg.MISMATCH).bump BoltReg.MISMATCH_COUNT 1).eventAll 3 (b.set + 1)
        s.stripeStatus t b k 0 { r with entries := r.entries + 1 }

/-- The stripes of the running descriptor are finished and it completes (R328). -/
def State.finishBolt (t : Fin 8) (s : State) : State :=
  match (s.tile t).bolt.active with
  | none => s
  | some b =>
    let d := (s.aset (toTile b.set)).cfg
    let (r, s) := (List.range b.ns).foldl (fun (r : BoltRun × State) k =>
      if b.type = 1 then r.2.computeStripe t d b k r.1 else r.2.patrolStripe t d b k r.1) (⟨0, 0, 0, 0⟩, s)
    let partial_ := r.unrecov + r.srcCrc + r.badEntry ≠ 0
    s.boltDone t b { plainCpl (if partial_ then 2 else 0) 0 with
      done := b.ns, unrecov := r.unrecov, srcCrc := r.srcCrc, badEntry := r.badEntry, count := r.entries }

/-- The running descriptor has had the time that its data parts take at 64 GB/s, or at the rate of a throttled tile
(R310, R467): 512 ns each. -/
def State.boltTimeUp (s : State) (t : Fin 8) : Bool :=
  let x := s.tile t
  let ns := 512 * x.bolt.work * 8 / (8 - min 7 (x.r HeatReg.THROT_LEVEL))
  decide (x.bolt.startedAt + cyclesOfNs ns ≤ s.cycle)

/-- BOLT_DESCRIPTOR_COMPLETE (R328). -/
def execBoltDescriptorComplete (wait : Nat) (t : Fin 8) (s : State) : Out :=
  s.after wait (fun s => s.tileUp t && (match (s.tile t).bolt.active with
    | some b => b.type == 1 || b.type == 2
    | none => false) && s.boltTimeUp t) (State.finishBolt t)

/-! ### The descriptors of the journal and the map -/

/-- The code strength of a set's band (R113, R121): of member 0's head. -/
def State.setStrength (s : State) (d : SetDef) (layer band : Nat) : Nat :=
  if isUserBand band then (s.head (d.headAt 0)).strengthOf layer (zoneOfBand band) else 3

/-- The (layer, band) pairs that a set has opened, with a record or an OPEN on its way. -/
def ASet.opened (a : ASet) : List (Nat × Nat) :=
  (a.bands.map (·.psa) ++ a.bandRecs.map (·.psa)
    ++ (a.queue.filter (·.type == 1)).map fun r => (openOf r.body).psa).map fun p => (psaLayer p, psaBand p)

/-- The layer of a band by its WSEQ_FIRST. -/
def ASet.layerOf (a : ASet) (wf : Nat) : Nat :=
  match a.bands.find? (·.wseqFirst == wf) with
  | some b => psaLayer b.psa
  | none => match a.bandRecs.find? (·.wseqFirst == wf) with
    | some b => psaLayer b.psa
    | none => 16

/-- The (layer, band) pairs that are targets of a REMAP (R318). -/
def ASet.targets (a : ASet) : List (Nat × Nat) :=
  (a.bands.flatMap fun b => b.remaps.map fun r => (psaLayer b.psa, r.2))
    ++ a.remapRecs.map (fun r => (a.layerOf r.wseqFirst, r.target))
    ++ (a.queue.filter (·.type == 6)).map fun r =>
      let w := (r.body.headD 0).toNat
      (a.layerOf (bitsOf w 39 0), bitsOf w 57 45)

/-- A descriptor whose record was not formed is refused (R327): its set is suspended where the journal buffer is
uncorrectable (R304, R380), and otherwise the journal is full. -/
def State.boltUnformed (t : Fin 8) (d : BoltDesc) (s : State) : State :=
  s.boltRefuse t d (if (s.tile t).journalUe then 2 else 3)

/-- OPEN (R306, R327): the band is assigned its WSEQ block, and its OPEN record is written. The layer count and the code
strength are those of the label of member 0's disc, as its head holds them (R112, R121, R237). -/
def State.boltOpen (t : Fin 8) (n : Fin 8) (d : BoltDesc) (s : State) : State :=
  let a := s.aset n
  let p := d.psa
  let key := (psaLayer p, psaBand p)
  let valid := psaValid (s.head (a.cfg.headAt 0)).layerCount (fun layer _ => s.setStrength a.cfg layer (psaBand p)) p
  if !valid || psaTrack p != 0 || psaSector p != 0 || a.opened.contains key || a.targets.contains key then s.boltRefuse t d 4
  else
    let k := if isUserBand (psaBand p) then zoneK (psaZone p) else 216
    let count := 32 * framesPerTrack k (s.setStrength a.cfg (psaLayer p) (psaBand p))
    let wf := s.wseqNext n
    let mask := (s.sr n SetReg.PRESENT ||| s.sr n SetReg.REPLACING) &&& a.cfg.mask
    let body : List DWord := [BitVec.ofNat 64 (wf + count * 2 ^ 40), BitVec.ofNat 64 p, BitVec.ofNat 64 mask]
    let (ok, s) := s.formRecords n [(1, body)] false (some { d with wseqFirst := wf })
    if ok then s.setWseqNext n (wf + count) else s.boltUnformed t d

/-- The band that a descriptor names, if it is open. -/
def ASet.named (a : ASet) (d : BoltDesc) : Option OpenBand := a.bands.find? (·.wseqFirst == d.wseqFirst)

/-- `n` 64-bit words of a tile's stack from byte `a` on. -/
def State.stackWords (s : State) (t : Fin 8) (a n : Nat) : List DWord :=
  (List.range n).map fun k => BitVec.ofNat 64 (s.stackLE t (a + 8 * k) 8)

/-- DELTA (R316): the pairs are written in records of up to 127. -/
def State.boltDelta (t : Fin 8) (n : Fin 8) (d : BoltDesc) (s : State) : State :=
  match (s.aset n).named d with
  | none => s.boltRefuse t d 5
  | some _ =>
    let ws := s.stackWords t (d.addr * 4096) (2 * d.ns)
    let s := s.stackTouch t (d.addr * 4096) (16 * d.ns) .other
    let rs := (piecesOf 254 (d.ns + 1) ws).map fun l => (2, BitVec.ofNat 64 d.wseqFirst :: l)
    let (ok, s) := s.formRecords n rs false (some d)
    if ok then s else s.boltUnformed t d

/-- The landed bits and pairs that LAND derives (R190, R312): `cw` is the member's completion record. -/
def landedOf (vba : Bool) (count : Nat) (cw : List Byte) (zero : Nat → Bool) : Nat × List (Nat × Nat) :=
  let code (i : Nat) : Nat := (cw.getD (0x40 + i) 0).toNat
  let lands (i : Nat) : Bool := bitOf (code i) 3 && (!vba || decide (bitsOf (code i) 2 0 ≤ 1))
  let bits := maskOf ((List.range count).filter fun i => zero i || bitOf (code i) 4 || lands i)
  let pairs := (List.range 32).filterMap fun k =>
    let old := infoField cw (0x480 + 10 * k) 5
    let new := infoField cw (0x485 + 10 * k) 5
    let i := 32 * psaSector new + psaTrack new
    if (old ≠ 0 ∨ new ≠ 0) ∧ i < count ∧ lands i then some (old, new) else none
  (bits, pairs)

/-- LAND (R312, R327). -/
def State.boltLand (t : Fin 8) (n : Fin 8) (d : BoltDesc) (s : State) : State :=
  let a := s.aset n
  match a.named d with
  | none => s.boltRefuse t d 5
  | some b =>
    let u := a.cfg.tileAt d.member
    let near := s.reaches t u && s.tileUp u
    let cw := if near then s.stackBytes u (64 * d.landAddr) 1536 else List.replicate 1536 0
    let zero (i : Nat) : Bool :=
      match s.boltEntry t a.cfg d.addr d.member i with | some (k, _) => k == 1 | none => false
    let l := landedOf a.cfg.vba b.count cw zero
    let s := s.stackTouch t (d.addr * 4096 + 8 * d.member) 8 .other
    let base := bitsOf (s.stackLE t (d.addr * 4096 + 8 * d.member) 8) 28 0 * 4096
    let s := if near then
        ((s.askData t u ((8 * b.count + 63) / 64 + 24)).stackTouch u base (8 * b.count) .other).stackTouch u
          (64 * d.landAddr) 1536 .other
      else s.sendPacket t u vcRequest 1
    let body := BitVec.ofNat 64 (d.wseqFirst + d.member % 32 * 2 ^ 40)
      :: (List.range ((b.count + 63) / 64)).map (fun k => BitVec.ofNat 64 (l.1 / 2 ^ (64 * k)))
      ++ l.2.flatMap fun p => [BitVec.ofNat 64 p.1, BitVec.ofNat 64 p.2]
    let (ok, s) := s.formRecords n [(3, body)] false (some d)
    if ok then s else s.boltUnformed t d

/-- VOID (R327): the stripes of the ranges that are not yet void get a VOID record. -/
def State.boltVoid (t : Fin 8) (n : Fin 8) (d : BoltDesc) (s : State) : State :=
  let a := s.aset n
  let ws := wseqsOf (rangesOf (s.stackWords t (d.addr * 4096) d.ns))
  let s := s.stackTouch t (d.addr * 4096) (8 * d.ns) .other
  match a.named d with
  | none => s.boltRefuse t d 5
  | some b =>
    if ws.any fun w => !b.has w then s.boltRefuse t d 5
    else if ws.any fun w => bitOf b.committed (w - b.wseqFirst) || a.decided 4 w then s.boltRefuse t d 6
    else
      let fresh := (List.range b.count).filter fun i =>
        ws.contains (b.wseqFirst + i) && !bitOf b.voided i && !a.decided 5 (b.wseqFirst + i)
      let rs := (piecesOf 255 (b.count + 1) (rangeWords (runsOf (fresh.map (b.wseqFirst + ·))))).map fun l => (5, l)
      if fresh.isEmpty then s.boltOk t d
      else
        let (ok, s) := s.formRecords n rs true (some d)
        if ok then s else s.boltUnformed t d

/-- REMAP (R318). -/
def State.boltRemap (t : Fin 8) (n : Fin 8) (d : BoltDesc) (s : State) : State :=
  let a := s.aset n
  match a.named d with
  | none => s.boltRefuse t d 5
  | some b =>
    let layer := psaLayer b.psa
    let from_ := psaBand b.psa
    let ok := (isUserBand d.target || isSystemBand d.target) && isUserBand d.target == isUserBand from_
      && zoneOrZero d.target == psaZone b.psa
      && s.setStrength a.cfg layer d.target == s.setStrength a.cfg layer from_
      && !a.opened.contains (layer, d.target) && !a.targets.contains (layer, d.target)
    if !ok then s.boltRefuse t d 4
    else
      let body : List DWord := [BitVec.ofNat 64 (d.wseqFirst + d.member % 32 * 2 ^ 40 + d.target % 2 ^ 13 * 2 ^ 45)]
      let (ok, s) := s.formRecords n [(6, body)] false (some d)
      if ok then s else s.boltUnformed t d

/-- WSEQ_AT: the highest WSEQ at and below which every stripe is resolved (R321). -/
def State.resolvedTo (s : State) (n : Fin 8) : Nat :=
  let open_ := (s.aset n).bands.flatMap fun b =>
    ((List.range b.count).filter fun i => !bitOf b.committed i && !bitOf b.voided i).map (b.wseqFirst + ·)
  let queued := ((s.aset n).queue.filter (·.type == 1)).map fun r => (openOf r.body).wseqFirst
  (open_ ++ queued).foldl min (s.wseqNext n) - 1

/-- CKPT_SNAP (R321): the map as of WSEQ_AT is written in records. -/
def State.boltSnap (t : Fin 8) (n : Fin 8) (d : BoltDesc) (s : State) : State :=
  let rs := (s.aset n).snapshot (s.resolvedTo n)
  let s := s.stackWrite t (d.resAddr * 4096) (rs.flatMap (bytesOf 16))
  s.boltDone t d { plainCpl 0 0 with count := rs.length }

/-- The new JSTART of a checkpoint (R321 step 4): the first record that names a stripe above WSEQ_AT, or a band with one,
or the CHECKPOINT record itself. -/
def ASet.newStart (a : ASet) (wseqAt : Nat) : Nat :=
  match a.recPos.find? fun r => decide (wseqAt < r.2) with
  | some r => r.1
  | none => if padWords a.cfg.jwords a.wpos 4 = 0 then a.wpos else 0

/-- CHECKPOINT (R321). -/
def State.boltCheckpoint (t : Fin 8) (n : Fin 8) (d : BoltDesc) (s : State) : State :=
  let s := s.flushOwed n
  let body : List DWord := [BitVec.ofNat 64 d.ckptSeq, BitVec.ofNat 64 d.wseqAt,
    BitVec.ofNat 64 ((s.aset n).newStart d.wseqAt)]
  let (ok, s) := s.formRecords n [(7, body)] false (some d)
  if ok then s else s.boltUnformed t d

/-- What the journal still holds of the map and the loaded records lack (R321): bands, remaps, relocations and voids of
open bands, voids above WSEQ_AT only. -/
def ASet.missing (a : ASet) (wseqAt : Nat) : MapWait :=
  let waiting (f : MapWait → Bool) : Bool := a.waits.any f
  let bands := (a.bands.map fun b => (⟨b.wseqFirst, b.psa, b.mask⟩ : BandRec)).filter fun b =>
    !a.bandRecs.any (·.wseqFirst == b.wseqFirst) && !waiting (·.bands.contains b)
  let remaps := (a.bands.flatMap fun b => b.remaps.map fun r => (⟨r.1, b.wseqFirst, r.2⟩ : RemapRec)).filter fun r =>
    !a.remapRecs.contains r && !waiting (·.remaps.contains r)
  let relocs := a.pairs.filter fun r => !a.relocRecs.contains r && !waiting (·.relocs.contains r)
  let voids := ((a.bands.flatMap fun b => (runsOf (((List.range b.count).filter fun i =>
    bitOf b.voided i && decide (wseqAt < b.wseqFirst + i)).map (b.wseqFirst + ·))).map fun r =>
      (⟨r.1, r.2⟩ : VoidRec))).filter fun v => !waiting (·.voids.contains v)
  { MapWait.reset with bands := bands, remaps := remaps, relocs := relocs, voids := voids }

/-- The updates of committed stripes above WSEQ_AT that come into a loaded map, in WSEQ order (R321). -/
def ASet.laterCommits (a : ASet) (wseqAt : Nat) : List Nat :=
  a.bands.flatMap fun b =>
    ((List.range b.count).filter fun i => bitOf b.committed i && decide (wseqAt < b.wseqFirst + i)).map (b.wseqFirst + ·)

/-- MAP_REPLAY (R321): records are checked, loaded, and the later committed deltas are applied. A change of it for which
there is no room waits, and the descriptor completes with the last of them (R319; DEDUCED, log entry 134). -/
def State.boltReplay (t : Fin 8) (n : Fin 8) (d : BoltDesc) (s : State) : State :=
  let all := (List.range d.ns).map fun k => s.stackLE t (d.addr * 4096 + 16 * k) 16
  let s := s.stackTouch t (d.addr * 4096) (16 * d.ns) .other
  let rs := beforeEnd all
  let a := s.aset n
  if !recordsOk rs then s.boltRefuse t d 8
  else if a.cfg.mapRecords < rs.length then (s.sset n SetReg.MAP_FULL).boltRefuse t d 9
  else
    let at_ := s.sr n SetReg.WSEQ_AT_LO + s.sr n SetReg.WSEQ_AT_HI * 2 ^ 32
    let s := s.onSet n (·.load rs)
    let m : MapWait := { (s.aset n).missing at_ with wseq := at_ + 1, loads := true }
    let s := if m.records = 0 then s else s.mapChange n m
    let s := ((s.aset n).laterCommits at_).foldl (fun s w =>
      s.mapChange n { MapWait.reset with wseq := w, commits := [w], loads := true }) s
    if (s.aset n).waits.any (·.loads) then
      let bg := (s.tile t).bolt.background
      let s := s.onSet n fun a => { a with loading := a.loading ++ [(d, bg)] }
      (s.boltCount t).onTile t fun x => { x with bolt := { x.bolt with
        active := none, parked := x.bolt.parked.set (flagNat bg) true } }
    else
      let s := s.onSet n fun a => { a with mapReady := true }
      ((s.boltOk t d).retryWaits n).refreshSet n

/-! ### The checks of R327, and the rows -/

/-- The first check that fails, of TYPE, SET, MEMBER and set state (R327). -/
def State.boltCheck (s : State) (t : Fin 8) (d : BoltDesc) : Option Nat :=
  let n := toTile d.set
  let a := s.aset n
  let st := s.sstate n
  if d.type = 0 ∨ 10 < d.type then some 7
  else if 8 ≤ d.set ∨ a.cfg.n = 0 ∨ a.cfg.homeTile ≠ t then some 1
  else if (d.type = 5 ∨ d.type = 7) ∧ a.cfg.n ≤ d.member then some 10
  else if !a.replayed then some 2
  else if st = 5 ∧ (d.type ∈ [3, 4, 5, 6, 7, 9]) then some 2
  else if d.type = 3 ∧ (st = 0 ∨ st = 6) then some 2
  else none

/-- COMPUTE or PATROL begins (R310, R324): from the background ring it takes its credit. -/
def State.boltBegin (t : Fin 8) (bg : Bool) (d : BoltDesc) (s : State) : State :=
  let c := (s.aset (toTile d.set)).cfg
  let (ins, outs) := s.boltLoad t c d
  let s := s.touchTables t c d.addr d.s0 d.ns
  s.onTile t fun x => { x with bolt := { x.bolt with
    startedAt := s.cycle, work := max ins outs
    credit := if bg then x.bolt.credit - 32768 * ins else x.bolt.credit } }

/-- The next descriptor is taken: its ring advances, it is checked, and it begins or is refused (R161, R327). -/
def State.takeBolt (t : Fin 8) (s : State) : State :=
  match s.boltRing t with
  | none => s
  | some bg =>
    let x := s.tile t
    let a := x.ringByte bg
    let d := s.ringDesc t bg
    let bad := s.stackUe t a 64
    let s := (s.boltCount t).stackTouch t a 64 .boltDesc
    let s := s.onTile t fun x =>
      let x : Tile := if bg then x.w BoltReg.BGQ_RD ((x.r BoltReg.BGQ_RD + 1) % atLeast1 (x.r BoltReg.BGQ_SLOTS))
        else x.w BoltReg.HQ_RD ((x.r BoltReg.HQ_RD + 1) % atLeast1 (x.r BoltReg.HQ_SLOTS))
      { x with bolt := { x.bolt with active := some d, background := bg } }
    let n := toTile d.set
    if bad then s.boltRefuse t { d with tag := 0, type := 0 } 11
    else
      match s.boltCheck t d with
      | some r => s.boltRefuse t d r
      | none =>
        match d.type with
        | 3 => s.boltOpen t n d
        | 4 => s.boltDelta t n d
        | 5 => s.boltLand t n d
        | 6 => s.boltVoid t n d
        | 7 => s.boltRemap t n d
        | 8 => s.boltSnap t n d
        | 9 => s.boltCheckpoint t n d
        | 10 => s.boltReplay t n d
        | _ => s.boltBegin t bg d

/-- A descriptor of one TYPE is taken. -/
def State.boltRow (wait : Nat) (t : Fin 8) (ty : Nat) (s : State) : Out := s.after wait (State.boltNext t (· == ty)) (State.takeBolt t)

/-- COMPUTE (R310). -/
def execCompute (wait : Nat) (t : Fin 8) (s : State) : Out := s.boltRow wait t 1
/-- PATROL (R325). -/
def execPatrol (wait : Nat) (t : Fin 8) (s : State) : Out := s.boltRow wait t 2
/-- OPEN (R327). -/
def execOpenBand (wait : Nat) (t : Fin 8) (s : State) : Out := s.boltRow wait t 3
/-- DELTA (R316). -/
def execDelta (wait : Nat) (t : Fin 8) (s : State) : Out := s.boltRow wait t 4
/-- LAND (R327). -/
def execLand (wait : Nat) (t : Fin 8) (s : State) : Out := s.boltRow wait t 5
/-- VOID (R327). -/
def execVoid (wait : Nat) (t : Fin 8) (s : State) : Out := s.boltRow wait t 6
/-- REMAP (R318). -/
def execRemap (wait : Nat) (t : Fin 8) (s : State) : Out := s.boltRow wait t 7
/-- CKPT_SNAP (R321). -/
def execCkptSnap (wait : Nat) (t : Fin 8) (s : State) : Out := s.boltRow wait t 8
/-- CHECKPOINT (R321). -/
def execCheckpoint (wait : Nat) (t : Fin 8) (s : State) : Out := s.boltRow wait t 9
/-- MAP_REPLAY (R321). -/
def execMapReplay (wait : Nat) (t : Fin 8) (s : State) : Out := s.boltRow wait t 10
/-- BOLT_TYPE_RESERVED (R327). -/
def execBoltTypeReserved (wait : Nat) (t : Fin 8) (s : State) : Out :=
  s.after wait (State.boltNext t fun ty => ty == 0 || decide (10 < ty)) (State.takeBolt t)

/-! ### Pacing -/

/-- The largest credit, in bytes (R324). -/
def Tile.creditCap (x : Tile) : Int := atLeast1 (x.r BoltReg.CREDIT_MAX) * 2 ^ 20

/-- CREDIT_ACCRUAL (R324): RATE_NOW bytes for each microsecond passed, up to the cap. -/
def execCreditAccrual (wait : Nat) (t : Fin 8) (s : State) : Out :=
  s.after wait (fun s => s.tileUp t && s.since (s.tile t).bolt.lastAccrual cyclesPerUs) fun s => s.onTile t fun x =>
    let us := (s.cycle - x.bolt.lastAccrual) / cyclesPerUs
    { x with bolt := { x.bolt with
      credit := min x.creditCap (x.bolt.credit + x.r BoltReg.RATE_NOW * us)
      lastAccrual := x.bolt.lastAccrual + us * cyclesPerUs } }

/-- PACE_WIN in CORE cycles; 0 acts as 1 (R330). -/
def Tile.paceWindow (x : Tile) : Nat := cyclesOfUs (atLeast1 (x.r BoltReg.PACE_WIN))

/-- RATE_NOW at the end of a window of `n` cycles with host work in `c` of them, and U (R324). -/
def paceRate (floor ceil c n : Nat) : Nat × Nat :=
  let u := 65536 * c / n
  (floor + (ceil - floor) * (65536 - u) / 65536, u)

/-- PACE_WINDOW_END (R324). -/
def execPaceWindowEnd (wait : Nat) (t : Fin 8) (s : State) : Out :=
  s.after wait (fun s => s.tileUp t && s.since (s.tile t).bolt.winStart (s.tile t).paceWindow) fun s =>
    (s.boltCount t).onTile t fun x =>
      let (rate, u) := paceRate (x.r BoltReg.REB_FLOOR) (x.r BoltReg.REB_CEIL) x.bolt.hostBusy (s.cycle - x.bolt.winStart)
      let x : Tile := (x.w BoltReg.RATE_NOW rate).w BoltReg.U_LAST (min 65535 u)
      { x with bolt := { x.bolt with hostBusy := 0, winStart := s.cycle } }

end Sys2Proof.Machine
end

