-- ==== Sys2Proof/Machine/Record.lean ====
section
/-! DEFINITION. The boot record as it lies in the Selvedge store of an Atrium tile (R424 to R426), and log page C1h
(R429). -/

namespace Sys2Proof.Machine

/-- Bytes of a Selvedge store: `n` words from word `w` on, lowest byte first. -/
def Selvedge.bytes (x : Selvedge) (w n : Nat) : List Byte :=
  (List.range n).flatMap fun k => bytesOf 8 (x.read (w + k)).toNat

/-- First Selvedge word of a record slot (R425, R430). -/
def recordWord (slot : Nat) : Nat := 0x100000 / 8 + 128 * (slot % 4096)

/-- The record slot of a BOOT_COUNT (R425). -/
def recordSlot (count : Nat) : Nat := (count + 4095) % 4096

/-- The entry in a slot. -/
def Selvedge.entry (x : Selvedge) (slot : Nat) : List Byte := x.bytes (recordWord slot) 128

/-- BOOT_COUNT of an entry (R424). -/
def entryCount (l : List Byte) : Nat := infoField l 8 4

/-- The signature of the first 0x3A0 bytes of an entry by the device attestation key (R424). -/
def entrySignature (l : List Byte) : List Byte := beBytes 96 (Config.attest (sha384 (l.take 0x3A0))).toNat

/-- An entry is valid (R425): MAGIC "PLBR", VERSION and signature. -/
def entryValid (l : List Byte) : Bool :=
  infoField l 0 4 == 0x52424C50 && infoField l 4 2 == 1 && (l.drop 0x3A0).take 96 == entrySignature l

/-- The slots whose first word holds something, in order. -/
def Selvedge.usedSlots (x : Selvedge) : List Nat :=
  x.words.filterMap fun c =>
    if recordWord 0 ≤ c.1 ∧ c.1 < recordWord 0 + 128 * 4096 ∧ c.1 % 128 = 0 then some ((c.1 - recordWord 0) / 128)
    else none

/-- One entry is put among others of rising BOOT_COUNT. -/
def insertEntry (e : List Byte) : List (List Byte) → List (List Byte)
  | [] => [e]
  | a :: l => if entryCount e ≤ entryCount a then e :: a :: l else a :: insertEntry e l

/-- The valid entries of a copy, in increasing BOOT_COUNT. -/
def Selvedge.heldEntries (x : Selvedge) : List (List Byte) :=
  ((x.usedSlots.map x.entry).filter entryValid).foldl (fun l e => insertEntry e l) []

/-- The newest valid entry of a copy (R426). -/
def Selvedge.newestEntry (x : Selvedge) : Option (List Byte) := x.heldEntries.getLast?

/-- The entry of a copy with a BOOT_COUNT (R428). -/
def Selvedge.entryOf (x : Selvedge) (count : Nat) : Option (List Byte) :=
  x.heldEntries.find? fun e => entryCount e == count

/-- What reading the boot record's words moves in the Selvedge registers (R435). -/
def State.noteRecordRead (t : Fin 8) (s : State) : State :=
  let x := (s.tile t).selv
  let inside (w : Nat) : Bool := decide (recordWord 0 ≤ w ∧ w < recordWord 0 + 128 * 4096)
  ((x.ue ++ x.ce.filter fun w => !x.ue.contains w).filter inside).foldl (fun s w => s.noteSelvRead t w) s

/-- Log page C1h (R429), from the copy of the lease-holding wing. -/
def State.recordPage (s : State) : List Byte :=
  let w := s.mainWing
  let l := (s.tile (atriumTile w)).selv.heldEntries
  let count (o : Option (List Byte)) : Nat := (o.map entryCount).getD 0
  let digest := match l.getLast? with | some e => sha384 e | none => List.replicate 48 0
  bytesOf 4 (count l.head?) ++ bytesOf 4 (count l.getLast?) ++ bytesOf 4 (s.pr w BootReg.BR_ACK)
    ++ bytesOf 4 (s.pr w BootReg.RECORD_POLICY) ++ digest ++ l.flatten

end Sys2Proof.Machine
end

