-- ==== Sys2Proof/Machine/Nvme.lean ====
section
/-! DEFINITION. The NVMe over Fabrics target of a port (13_host_queueing.md): capsules, statuses, the tables of commands
and locks, entries to firmware, Connect and properties, log pages, features and Identify. The places of fields inside an
SQE, a log page, a feature and an Identify structure are those of the NVMe Base Specification 2.0, which R332 names. -/

namespace Sys2Proof

/-- Bits of a submission queue entry. -/
def Capsule.bits (q : Capsule) (hi lo : Nat) : Nat := (q.sqe.toNat >>> lo) % 2 ^ (hi + 1 - lo)
/-- Opcode. -/
def Capsule.opcode (q : Capsule) : Nat := q.bits 7 0
/-- Fused operation bits. -/
def Capsule.fuse (q : Capsule) : Nat := q.bits 9 8
/-- Command identifier. -/
def Capsule.cid (q : Capsule) : Nat := q.bits 31 16
/-- Namespace identifier. -/
def Capsule.nsid (q : Capsule) : Nat := q.bits 63 32
/-- Fabrics command type. -/
def Capsule.fctype (q : Capsule) : Nat := q.bits 39 32
/-- Command dword `k`. -/
def Capsule.cdw (q : Capsule) (k : Nat) : Nat := q.bits (32 * k + 31) (32 * k)
/-- First LBN of a Read, Write or like command. -/
def Capsule.slba (q : Capsule) : Nat := q.bits 383 320
/-- Its number of blocks. -/
def Capsule.blocks (q : Capsule) : Nat := q.bits 399 384 + 1
/-- WSEQ_MAX of Read Version (R340). -/
def Capsule.wseqMax (q : Capsule) : Nat := q.bits 487 448

/-- A command moves data between the host and the device (R334). -/
def Capsule.moves (q : Capsule) : Bool :=
  if q.qid ≠ 0 then [0x01, 0x02, 0x86].contains q.opcode
  else [0x02, 0x06, 0x11].contains q.opcode || ((q.opcode == 0x09 || q.opcode == 0x0A) && q.bits 327 320 == 0x0C)

/-- The one SGL descriptor of a command is one that the device takes (R332): a keyed data block, or, of a Write whose data
stands in its capsule, a data block at an offset there of at most 16 KiB. The codes are those of the NVMe Base Specification
(PRESUMED, log entry 136). -/
def Capsule.sglOk (q : Capsule) : Bool :=
  !q.moves || q.bits 319 316 == 4
    || (q.qid != 0 && q.opcode == 0x01 && q.bits 319 312 == 1 && decide (q.bits 287 256 ≤ 16384))

end Sys2Proof

namespace Sys2Proof.Machine

/-- A status: status code type, status code, DNR. -/
abbrev Status := Nat × Nat × Bool

/-- Successful Completion. -/
def stOk : Status := (0, 0x00, false)
/-- Invalid Command Opcode (R334). -/
def stOpcode : Status := (0, 0x01, true)
/-- Invalid Field in Command (R334, R336). -/
def stField : Status := (0, 0x02, true)
/-- SGL Descriptor Type Invalid (R332). -/
def stSgl : Status := (0, 0x11, true)
/-- Command Abort Requested (R353). -/
def stAborted : Status := (0, 0x07, false)
/-- Invalid Namespace or Format (R337). -/
def stNamespace : Status := (0, 0x0B, true)
/-- Namespace is Write Protected (R342). -/
def stProtected : Status := (0, 0x20, true)
/-- LBA Out of Range (R337). -/
def stRange : Status := (0, 0x80, true)
/-- Namespace Not Ready with DNR 0 (R342, R363). -/
def stNotReady : Status := (0, 0x82, false)
/-- Version Not Retained (R340). -/
def stNotRetained : Status := (0, 0xC0, true)
/-- Asynchronous Event Request Limit Exceeded (R332). -/
def stEventLimit : Status := (1, 0x05, true)
/-- Invalid Log Page (R335). -/
def stLogPage : Status := (1, 0x09, true)
/-- Feature Identifier Not Saveable (R336). -/
def stNotSaveable : Status := (1, 0x0D, true)
/-- Feature Not Changeable (R336). -/
def stNotChangeable : Status := (1, 0x0E, true)
/-- Connect Incompatible Format. -/
def stFormat : Status := (1, 0x80, true)
/-- Connect Controller Busy (R333). -/
def stBusy : Status := (1, 0x81, false)
/-- Connect Invalid Parameters. -/
def stConnect : Status := (1, 0x82, true)
/-- Invalid Queue Type. -/
def stQueueType : Status := (1, 0x85, true)
/-- Write Fault (R349). -/
def stWriteFault : Status := (2, 0x80, false)
/-- Unrecovered Read Error (R343). -/
def stUnrecovered : Status := (2, 0x81, true)
/-- Deallocated or Unwritten Logical Block (R343). -/
def stUnwritten : Status := (2, 0x87, false)
/-- Asymmetric Access Inaccessible (R355). -/
def stInaccessible : Status := (3, 0x02, false)
/-- Asymmetric Access Transition (R355). -/
def stTransition : Status := (3, 0x03, false)

/-- A list with zeros behind it, or cut, to `n` bytes. -/
def padTo (n : Nat) (l : List Byte) : List Byte := l.take n ++ List.replicate (n - l.length) 0

/-! ### Ports, controllers, queues -/

/-- The engine of a port serves its line: out of reset and powered, enabled, with its Ethernet link up (R361, R364), and
not in loopback (R409). -/
def State.portRuns (s : State) (p : Fin 16) : Bool :=
  s.tileUp (portTile p) && s.tileEnabled (portTile p) && s.pb p PortReg.ENABLE && s.pb p PortReg.LINK_UP && !s.portLooped p

/-- A queue of a controller. -/
def Ctrl.queue (c : Ctrl) (qid : Nat) : Option Queue := c.queues.find? (·.qid == qid)

/-- A queue of a controller is changed. -/
def State.onQueue (s : State) (p : Fin 16) (c qid : Nat) (f : Queue → Queue) : State :=
  s.onCtrl p c fun k => { k with queues := k.queues.map fun q => if q.qid = qid then f q else q }

/-- Controller ID (R332). -/
def ctrlId (p : Fin 16) (c : Nat) : Nat := if c < 16 then 16 * p.val + c else 256 + p.val

/-- A fetched capsule completes (R344). -/
def State.answer (p : Fin 16) (q : Capsule) (st : Status) (dw0 : Nat) (data : List Byte) (s : State) : State :=
  s.post p { ctrl := q.ctrl, qid := q.qid, cid := q.cid, sct := st.1, sc := st.2.1, dnr := st.2.2, dw0 := dw0, dw1 := 0
             data := data } q.nsid q.slba

/-- A fetched capsule completes with an error. -/
def State.refuse (p : Fin 16) (q : Capsule) (st : Status) (s : State) : State := s.answer p q st 0 []

/-! ### Namespaces -/

/-- The set of a namespace (R337). -/
def nsSet (nsid : Nat) : Fin 8 := toTile (nsid + 7)

/-- A namespace exists: its set is in use (R301, R337). -/
def State.nsValid (s : State) (nsid : Nat) : Bool :=
  decide (1 ≤ nsid ∧ nsid ≤ 8) && (s.aset (nsSet nsid)).cfg.n != 0

/-- NS_SIZE of a set (R337, R366). -/
def State.nsSize (s : State) (n : Fin 8) : Nat :=
  s.sr n (fun k => HostReg.NS_SIZE_L k) + s.sr n (fun k => HostReg.NS_SIZE_H k) * 2 ^ 32

/-- A namespace is protected at a port (R342). -/
def State.protectedAt (s : State) (p : Fin 16) (n : Fin 8) : Bool :=
  let v := s.sstate n
  let cause := s.suspCause n
  v == 6 || (v == 5 && (cause &&& 10 != 0 || (bitOf cause 0 && decide (wingOf (portTile p) = (s.aset n).wing))))

/-! ### Outstanding commands and their locks -/

/-- The tile that a command's entry to firmware goes to, and that holds its lock (R344, R346). -/
def State.cmdTile (s : State) (p : Fin 16) (c : HostCmd) : Fin 8 :=
  if c.qid = 0 then portTile p else (s.aset (nsSet c.nsid)).cfg.homeTile

/-- Commands outstanding at a port (R332). -/
def PortSt.outstanding (x : PortSt) : Nat := x.cmds.length + (x.ctrls.map fun c => c.aers.length).foldl (· + ·) 0

/-- A fetched command of a port. -/
def State.cmd (s : State) (p : Fin 16) (tag : Nat) : Option HostCmd := (s.port p).cmds.find? (·.tag == tag)

/-- A fetched command of a port is changed. -/
def State.onCmd (p : Fin 16) (tag : Nat) (f : HostCmd → HostCmd) (s : State) : State :=
  s.onPort p fun x => { x with cmds := x.cmds.map fun c => if c.tag = tag then f c else c }

/-- LOCK_USED and LOCK_PEAK follow the lock unit (R365). -/
def Tile.showLocks (x : Tile) : Tile :=
  let n := x.locks.length
  (x.w LockReg.LOCK_USED n).w LockReg.LOCK_PEAK (max n (x.r LockReg.LOCK_PEAK))

/-- A command leaves its port, and its lock entry the lock unit (R344 step 6). -/
def State.dropCmd (p : Fin 16) (c : HostCmd) (s : State) : State :=
  let t := s.cmdTile p c
  let s := s.onPort p fun x => { x with cmds := x.cmds.filter fun k => k.tag != c.tag }
  let s := s.onTile t fun x => ({ x with locks := x.locks.filter fun e => !(e.port == p.val && e.tag == c.tag) } : Tile).showLocks
  if c.qid = 0 then s else { s with pkg := { s.pkg with idleSince := s.cycle } }

/-- A command completes and is released (R344); the completion of one whose queue pair is lost is discarded (R363). -/
def State.finish (p : Fin 16) (c : HostCmd) (st : Status) (dw0 : Nat) (data : List Byte) (s : State) : State :=
  let s := s.dropCmd p c
  if c.orphan then s
  else s.post p { ctrl := c.ctrl, qid := c.qid, cid := c.cid, sct := st.1, sc := st.2.1, dnr := st.2.2, dw0 := dw0
                  dw1 := 0, data := data } c.nsid c.lbn

/-- What a port reset does to the commands that meet `sel` (R363): a bound write goes on without its queue pair, and any
other command is aborted. -/
def State.closeCmds (p : Fin 16) (sel : HostCmd → Bool) (s : State) : State :=
  (s.port p).cmds.foldl (fun s c =>
    if !sel c then s
    else if c.stage = .bound then s.onCmd p c.tag fun c => { c with orphan := true }
    else s.dropCmd p c) s

/-! ### Entries to firmware -/

/-- The oldest waiting entry is written into the host command ring where it has room (R161, R346). -/
def State.hcrPush (t : Fin 8) (s : State) : State :=
  let x := s.tile t
  match x.hcrWait with
  | [] => s
  | e :: l =>
    let n := atLeast1 (x.r LockReg.HCR_SLOTS)
    let wr := x.r LockReg.HCR_WR % n
    if (wr + 1) % n = x.r LockReg.HCR_RD % n then s
    else
      (s.stackWrite t (x.r LockReg.HCR_BASE * 4096 + 128 * wr) e).onTile t fun x =>
        let x : Tile := (x.w LockReg.HCR_WR ((wr + 1) % n)).flag LockReg.HCR_POSTED
        { x with hcrWait := l }

/-- Waiting entries are written while the ring has room. -/
def State.hcrFlush (t : Fin 8) (s : State) : State := (s.tile t).hcrWait.foldl (fun s _ => s.hcrPush t) s

/-- An entry of the host command ring (R346). -/
def hcrEntry (p : Fin 16) (c : HostCmd) (handle kind addr count : Nat) : List Byte :=
  bytesOf 64 c.sqe ++ bytesOf 2 p.val ++ bytesOf 2 (ctrlId p c.ctrl) ++ bytesOf 4 handle ++ bytesOf 1 kind ++ bytesOf 3 0
    ++ bytesOf 4 addr ++ bytesOf 4 count ++ List.replicate 44 0

/-- A command is posted to firmware (R346) and stands at `stage`. -/
def State.toFirmware (p : Fin 16) (c : HostCmd) (kind addr count : Nat) (stage : CmdStage) (s : State) : State :=
  let t := s.cmdTile p c
  let h := (s.tile t).nextHandle
  let s := s.onTile t fun x => { x with
    nextHandle := (x.nextHandle + 1) % 2 ^ 32, hcrWait := x.hcrWait ++ [hcrEntry p c h kind addr count] }
  (s.onCmd p c.tag fun c => { c with handle := h, stage := stage }).hcrFlush t

/-- A capsule becomes an outstanding command of its port. -/
def Capsule.toCmd (q : Capsule) (tag lbn count : Nat) : HostCmd :=
  { HostCmd.reset with tag := tag, ctrl := q.ctrl, qid := q.qid, cid := q.cid, sqe := q.sqe.toNat, opcode := q.opcode
                       nsid := q.nsid, lbn := lbn, count := count, addr := q.stage }

/-- A capsule enters the command table of its port. -/
def State.addCmd (p : Fin 16) (q : Capsule) (lbn count : Nat) (s : State) : State :=
  s.onPort p fun x => { x with cmds := x.cmds ++ [Capsule.toCmd q x.nextTag lbn count], nextTag := x.nextTag + 1 }

/-- An admin command marked FW is passed to the firmware of the port's tile (R334, R346). -/
def State.adminToFirmware (p : Fin 16) (q : Capsule) (s : State) : State :=
  let tag := (s.port p).nextTag
  let s := s.addCmd p q 0 0
  match s.cmd p tag with
  | none => s
  | some c => s.toFirmware p c 3 0 0 .admin

/-! ### Connect, Disconnect and properties -/

/-- The discovery service's name. -/
def discoveryNqn : List Byte :=
  [0x6E, 0x71, 0x6E, 0x2E, 0x32, 0x30, 0x31, 0x34, 0x2D, 0x30, 0x38, 0x2E, 0x6F, 0x72, 0x67, 0x2E, 0x6E, 0x76, 0x6D,
   0x65, 0x78, 0x70, 0x72, 0x65, 0x73, 0x73, 0x2E, 0x64, 0x69, 0x73, 0x63, 0x6F, 0x76, 0x65, 0x72, 0x79, 0]

/-- A controller is put among others in increasing number. -/
def insertCtrl (c : Ctrl) (l : List Ctrl) : List Ctrl := (l.filter fun k => decide (k.idx < c.idx)) ++ [c] ++ (l.filter fun k => decide (c.idx < k.idx))

/-- A queue is put among others in increasing number. -/
def insertQueue (q : Queue) (l : List Queue) : List Queue := (l.filter fun k => decide (k.qid < q.qid)) ++ [q] ++ (l.filter fun k => decide (q.qid < k.qid))

/-- A keep-alive time in ms, in units of 100 ms (R332). -/
def katoOf (ms : Nat) : Nat := (ms + 99) / 100 * 100

/-- A Connect is rejected (R333): the queue is connected to no controller, so no controller's error log takes it. -/
def State.rejectConnect (p : Fin 16) (q : Capsule) (st : Status) (s : State) : State :=
  s.onPort p fun x => { x with cpls := { HostCpl.reset with
    ctrl := q.ctrl, qid := q.qid, cid := q.cid, sct := st.1, sc := st.2.1, dnr := st.2.2 } :: x.cpls }

/-- Connect on an admin queue makes a controller (R332): the lowest free I/O controller, or the discovery one. -/
def State.connectAdmin (p : Fin 16) (q : Capsule) (s : State) : State :=
  let used := (s.port p).ctrls.map (·.idx)
  let disc := (q.data.drop 256).take discoveryNqn.length == discoveryNqn
  let free := if disc then (if used.contains 16 then none else some 16)
    else (List.range 16).find? fun i => !used.contains i
  match free with
  | none => s.rejectConnect p q stBusy
  | some i =>
    let c : Ctrl := { Ctrl.reset with
      idx := i, queues := [{ Queue.reset with qid := 0, size := q.bits 367 352 + 1, cls := 0 }]
      kato := katoOf (q.bits 415 384), kaAt := s.cycle, ana := allSets.map (s.anaState p) }
    let s := s.onPort p fun x => { x with ctrls := insertCtrl c x.ctrls }
    (((s.pbump p PortReg.CMD_COUNT).answer p { q with ctrl := i } stOk (ctrlId p i) []).refreshPower false).refreshPorts

/-- Connect on an I/O queue adds a queue to a controller (R332). -/
def State.connectIo (p : Fin 16) (q : Capsule) (s : State) : State :=
  let id := infoField q.data 16 2
  let i := id - 16 * p.val
  match s.ctrl p i with
  | none => s.rejectConnect p q stConnect
  | some c =>
    if id < 16 * p.val ∨ 16 ≤ i ∨ 32 < q.qid ∨ (c.queue q.qid).isSome ∨ q.bits 367 352 = 0 then s.rejectConnect p q stConnect
    else
      let s := s.onCtrl p i fun c => { c with
        queues := insertQueue { Queue.reset with qid := q.qid, size := q.bits 367 352 + 1 } c.queues }
      (s.pbump p PortReg.CMD_COUNT).answer p { q with ctrl := i } stOk id []

/-- Connect (R332, R333). -/
def State.connect (p : Fin 16) (q : Capsule) (s : State) : State :=
  let q : Capsule := { q with qid := q.bits 351 336 }
  if !s.pb p PortReg.PRDY then s.rejectConnect p q stBusy
  else if q.bits 335 320 ≠ 0 then s.rejectConnect p q stFormat
  else if 1023 < q.bits 367 352 then s.rejectConnect p q stConnect
  else if q.qid = 0 then (if infoField q.data 16 2 = 0xFFFF then s.connectAdmin p q else s.rejectConnect p q stConnect)
  else s.connectIo p q

/-- A controller and its queues are gone; its commands end as at a port reset (R363). -/
def State.dropCtrl (p : Fin 16) (c : Nat) (s : State) : State :=
  let s := s.closeCmds p (·.ctrl == c)
  ((s.onPort p fun x => { x with ctrls := x.ctrls.filter fun k => k.idx != c }).refreshPower false).refreshPorts

/-- Disconnect ends an I/O queue's pair; its commands end as at a port reset (R363). -/
def State.disconnect (p : Fin 16) (q : Capsule) (s : State) : State :=
  if q.qid = 0 then s.refuse p q stQueueType
  else
    let s := (s.answer p q stOk 0 []).closeCmds p fun c => c.ctrl == q.ctrl && c.qid == q.qid
    s.onCtrl p q.ctrl fun c => { c with queues := c.queues.filter fun k => k.qid != q.qid }

/-- Property Controller Capabilities: MQES 1 023, contiguous queues, weighted round robin, the time-out, the NVM command
set, and pages of 4 KiB (R332). -/
def propCap : Nat := 1023 + 2 ^ 16 + 2 ^ 17 + Config.capTimeout.toNat * 2 ^ 24 + 2 ^ 37

/-- Property Controller Status: ready while enabled, shutdown complete once asked for. -/
def Ctrl.csts (c : Ctrl) : Nat := c.cc % 2 + (if bitsOf c.cc 15 14 = 0 then 0 else 8)

/-- Property Get: the value of a property, of 4 or 8 bytes. -/
def State.propertyGet (p : Fin 16) (q : Capsule) (c : Ctrl) (s : State) : State :=
  let give (v : Nat) : State := s.post p { HostCpl.reset with
    ctrl := q.ctrl, qid := q.qid, cid := q.cid, dw0 := v % 2 ^ 32, dw1 := v / 2 ^ 32 } 0 0
  if q.qid ≠ 0 then s.refuse p q stQueueType
  else
    match q.cdw 11, q.bits 322 320 with
    | 0x00, 1 => give propCap
    | 0x08, 0 => give 0x00020000
    | 0x14, 0 => give c.cc
    | 0x1C, 0 => give c.csts
    | _, _ => s.refuse p q stField

/-- Property Set: Controller Configuration. -/
def State.propertySet (p : Fin 16) (q : Capsule) (s : State) : State :=
  if q.qid ≠ 0 then s.refuse p q stQueueType
  else if q.cdw 11 = 0x14 ∧ q.bits 322 320 = 0 then
    (s.onCtrl p q.ctrl fun c => { c with cc := q.cdw 12 }).answer p q stOk 0 []
  else s.refuse p q stField

/-! ### Log pages -/

/-- The composite temperature: the hottest enabled tile's median sensor, in kelvins (R335). -/
def State.composite (s : State) : Nat :=
  match (allTiles.filter s.tileEnabled).map fun t => (s.tile t).ri HeatReg.T_MED with
  | [] => Config.kelvin 0
  | a :: l => Config.kelvin (l.foldl max a)

/-- The composite temperature lies at or above the over-temperature threshold, or at or below the other (R336). -/
def State.tempWarning (s : State) (c : Ctrl) : Bool :=
  decide ((lookupKey 0x04 c.features).getD Config.tempThreshold ≤ s.composite)
    || decide (s.composite ≤ (lookupKey 0x104 c.features).getD 0)

/-- Page 01h (R335). -/
def Ctrl.errorPage (c : Ctrl) : List Byte :=
  padTo 4096 (c.errors.flatMap fun e =>
    bytesOf 8 e.number ++ bytesOf 2 e.qid ++ bytesOf 2 e.cid ++ bytesOf 2 (e.status * 2) ++ bytesOf 2 0xFFFF
      ++ bytesOf 8 e.lbn ++ bytesOf 4 e.nsid ++ List.replicate 36 0)

/-- Page 02h (R335), of the controller for `scope` 0 and otherwise of a namespace. -/
def State.smartPage (s : State) (c : Ctrl) (scope : Nat) : List Byte :=
  let warn := putBit (Config.smartByte scope 0).toNat 1 (s.tempWarning c)
  bytesOf 1 warn ++ bytesOf 2 s.composite ++ (List.range 509).map fun k => Config.smartByte scope (k + 3)

/-- Opcodes of the admin commands of R334. -/
def adminOpcodes : List Nat := [0x02, 0x06, 0x08, 0x09, 0x0A, 0x0C, 0x10, 0x11, 0x18, 0x7F]
/-- Opcodes of the I/O commands of R334. -/
def ioOpcodes : List Nat := [0x00, 0x01, 0x02, 0x08, 0x0C, 0x86]

/-- Page 05h (R334). -/
def effectsPage : List Byte :=
  let entry (io : Bool) (ops : List Nat) (k : Nat) : List Byte :=
    bytesOf 4 (if ops.contains k then 1 + 2 * (Config.commandEffects io k).toNat else 0)
  padTo 4096 ((List.range 256).flatMap (entry false adminOpcodes) ++ (List.range 256).flatMap (entry true ioOpcodes))

/-- Page 0Ch (R354, R356). `groups` leaves the namespace lists out. -/
def Ctrl.anaPage (c : Ctrl) (groups : Bool) : List Byte :=
  let gs := (List.range 8).filter fun n => c.ana.getD n 0 != 0
  bytesOf 8 c.anaCount ++ bytesOf 2 gs.length ++ List.replicate 6 0 ++ gs.flatMap fun n =>
    bytesOf 4 (n + 1) ++ bytesOf 4 (if groups then 0 else 1) ++ bytesOf 8 c.anaCount ++ bytesOf 1 (c.ana.getD n 0)
      ++ List.replicate 15 0 ++ (if groups then [] else bytesOf 4 (n + 1))

/-- Page 70h: one entry for each enabled port, subtype NVMe subsystem (R335). -/
def State.discoveryPage (s : State) : List Byte :=
  let ps := allPorts.filter fun p => s.tileEnabled (portTile p) && s.pb p PortReg.ENABLE
  let free (who n : Nat) : List Byte := (List.range n).map (Config.discoveryByte who)
  putBytes (free 16 1024) 8 (bytesOf 8 ps.length ++ bytesOf 2 0) ++ ps.flatMap fun p =>
    putBytes (putBytes (putBytes (free p.val 1024) 0 (bytesOf 1 1)) 2 (bytesOf 1 2)) 6 (bytesOf 2 0xFFFF)

/-- Page C2h (R335). -/
def State.setPage (s : State) (n : Fin 8) : List Byte :=
  padTo 64 (bytesOf 4 (s.sr n SetReg.SSTATE) ++ bytesOf 4 (s.sr n SetReg.SUSP_CAUSE) ++ bytesOf 4 (s.sr n SetReg.PRESENT)
    ++ bytesOf 4 (s.sr n SetReg.REPLACING) ++ bytesOf 4 (s.sr n SetReg.WSEQ_NEXT_LO)
    ++ bytesOf 4 (s.sr n SetReg.WSEQ_NEXT_HI) ++ bytesOf 4 (s.sr n SetReg.CKPT_SEQ) ++ bytesOf 4 (s.sr n SetReg.PENDING))

/-- The version that an extent gives of an LBN: WSEQ, member, slot. -/
def Extent.version (d : SetDef) (e : Extent) (lbn : Nat) : Option (Nat × Nat × Nat) :=
  if e.lbn ≤ lbn ∧ lbn < e.lbn + e.count then
    let c := e.cut d (lbn - e.lbn) (lbn - e.lbn + 1) e.superseded
    some (c.wseq, c.member, c.slot)
  else none

/-- The entries of page C0h from an LBN on, `n` at most, in CORE cycle `now` (R341). -/
def ASet.history (a : ASet) (set : Fin 8) (size now : Nat) : Nat → Nat → List (List Byte)
  | 0, _ => []
  | n + 1, lbn =>
    let starts := a.extents.filterMap fun e => if lbn < e.lbn + e.count then some (max lbn e.lbn) else none
    match starts with
    | [] => []
    | k :: l =>
      let next := l.foldl min k
      if size ≤ next then []
      else
        let vs := a.extents.filterMap fun e => (e.version a.cfg next).map fun v => (v.1, e.superseded)
        let sorted := sortBy (fun (x y : Nat × Bool) => decide (y.1 ≤ x.1)) vs
        (sorted.map fun v => bytesOf 5 next ++ bytesOf 5 v.1
          ++ bytesOf 1 (flagNat (!v.2) + 2 * flagNat (Config.lostMark set.val next v.1 now)) ++ List.replicate 5 0)
          ++ a.history set size now n (next + 1)

/-- Page C0h (R341): the entries that fit in `len` bytes, ended by a zero-filled one where fewer remain. -/
def State.historyPage (s : State) (n : Fin 8) (first len : Nat) : List Byte :=
  let es := ((s.aset n).history n (s.nsSize n) s.cycle (len / 16) first).take (len / 16)
  es.flatten ++ (if es.length < len / 16 then List.replicate 16 0 else [])

/-- Get Log Page (R335), of 2 MiB at most (R332). -/
def State.getLogPage (p : Fin 16) (q : Capsule) (c : Ctrl) (s : State) : State :=
  let len := (q.bits 351 336 + q.bits 367 352 * 2 ^ 16 + 1) * 4
  let off := q.bits 447 384
  let give (page : List Byte) (s : State) : State := s.answer p q stOk 0 ((page.drop off).take len)
  let n := nsSet q.nsid
  let lid := q.bits 327 320
  if 2 ^ 21 < len ∧ lid ∈ [0x01, 0x02, 0x03, 0x05, 0x0C, 0x70, 0xC0, 0xC1, 0xC2] then s.refuse p q stField
  else match lid with
  | 0x01 => give c.errorPage s
  | 0x02 =>
    if q.nsid = 0 ∨ q.nsid = 0xFFFFFFFF then give (s.smartPage c 0) s
    else if s.nsValid q.nsid then give (s.smartPage c q.nsid) s else s.refuse p q stNamespace
  | 0x03 => s.adminToFirmware p q
  | 0x05 => give effectsPage s
  | 0x0C => give (c.anaPage (bitOf (q.cdw 10) 8)) s
  | 0x70 => if c.idx = 16 then give s.discoveryPage s else s.refuse p q stLogPage
  | 0xC0 =>
    if !s.nsValid q.nsid then s.refuse p q stNamespace
    else if !bitOf (q.cdw 14) 23 then s.refuse p q stField
    else s.answer p q stOk 0 (s.historyPage n off len)
  | 0xC1 => give s.recordPage (s.noteRecordRead (atriumTile s.mainWing))
  | 0xC2 => if s.nsValid q.nsid then give (s.setPage n) s else s.refuse p q stNamespace
  | _ => s.refuse p q stLogPage

/-! ### Features -/

/-- A feature of a controller takes a value. -/
def State.putFeature (p : Fin 16) (c fid v : Nat) (s : State) : State :=
  s.onCtrl p c fun k => { k with features := insertKey fid v k.features }

/-- The APST table of feature 0Ch, by power state: ITPS and ITPT (R360). -/
def apstTable (l : List Byte) : List (Nat × Nat) :=
  (List.range 32).map fun k => (infoField l (8 * k) 1 / 8, infoField l (8 * k + 1) 3)

/-- The features of R336. -/
def featureIds : List Nat := [0x01, 0x02, 0x04, 0x05, 0x07, 0x0B, 0x0C, 0x0F, 0x84, 0xC0]

/-- Set Features (R336). -/
def State.setFeatures (p : Fin 16) (q : Capsule) (s : State) : State :=
  let v := q.cdw 11
  let fid := q.bits 327 320
  let done (s : State) : State := s.answer p q stOk 0 []
  let bad : State := s.refuse p q stField
  if bitOf (q.cdw 10) 31 && featureIds.contains fid then s.refuse p q stNotSaveable
  else
    match fid with
    | 0x01 => done (s.onPort p fun x => { x with
        ab := bitsOf v 2 0, weights := [bitsOf v 31 24, bitsOf v 23 16, bitsOf v 15 8] })
    | 0x02 =>
      let ps := bitsOf v 4 0
      if 4 < ps then bad
      else done ((s.onCtrl p q.ctrl fun c => { c with ps := ps, psOper := if ps ≤ 2 then ps else c.psOper }).refreshPower false)
    | 0x04 =>
      if bitsOf v 19 16 ≠ 0 ∨ 1 < bitsOf v 21 20 then bad
      else done (s.putFeature p q.ctrl (0x04 + 0x100 * bitsOf v 21 20) (bitsOf v 15 0))
    | 0x05 => if bitsOf v 15 0 ≠ 0 then bad else done (s.putFeature p q.ctrl 0x05 v)
    | 0x07 => s.refuse p q stNotChangeable
    | 0x0B => done (s.putFeature p q.ctrl 0x0B v)
    | 0x0C =>
      let t := apstTable q.data
      if t.any fun e => e.2 != 0 && !(e.1 == 3 || e.1 == 4) then bad
      else done ((s.putFeature p q.ctrl 0x0C (v % 2)).onCtrl p q.ctrl fun c => { c with apst := t })
    | 0x0F => done (s.onCtrl p q.ctrl fun c => { c with kato := katoOf v, kaAt := s.cycle })
    | 0x84 => s.refuse p q stNotChangeable
    | 0xC0 =>
      let qid := bitsOf v 15 0
      match (s.ctrl p q.ctrl).bind (·.queue qid) with
      | none => bad
      | some _ =>
        if qid = 0 then bad else done (s.onQueue p q.ctrl qid fun k => { k with cls := bitsOf v 17 16 })
    | _ => bad

/-- Get Features (R336). -/
def State.getFeatures (p : Fin 16) (q : Capsule) (c : Ctrl) (s : State) : State :=
  let x := s.port p
  let give (v : Nat) : State := s.answer p q stOk v []
  let bad : State := s.refuse p q stField
  let v := q.cdw 11
  match q.bits 327 320 with
  | 0x01 => give (x.ab + x.weights.getD 2 0 * 2 ^ 8 + x.weights.getD 1 0 * 2 ^ 16 + x.weights.getD 0 0 * 2 ^ 24)
  | 0x02 => give c.ps
  | 0x04 =>
    if bitsOf v 19 16 ≠ 0 ∨ 1 < bitsOf v 21 20 then bad
    else if bitsOf v 21 20 = 0 then give ((lookupKey 0x04 c.features).getD Config.tempThreshold)
    else give (c.feature 0x104)
  | 0x05 => give (c.feature 0x05)
  | 0x07 => give (31 + 31 * 2 ^ 16)
  | 0x0B => give (c.feature 0x0B)
  | 0x0C =>
    s.answer p q stOk (c.feature 0x0C)
      (padTo 256 (c.apst.flatMap fun e => bytesOf 1 (e.1 * 8) ++ bytesOf 3 e.2 ++ bytesOf 4 0))
  | 0x0F => give c.kato
  | 0x84 => if s.nsValid q.nsid then give (flagNat (s.protectedAt p (nsSet q.nsid))) else s.refuse p q stNamespace
  | 0xC0 =>
    match c.queue (bitsOf v 15 0) with
    | none => bad
    | some k => give k.cls
  | _ => bad

/-! ### Identify -/

/-- Bytes of a structure are replaced, one list at each place. -/
def putAll (l : List Byte) (ps : List (Nat × List Byte)) : List Byte := ps.foldl (fun l e => putBytes l e.1 e.2) l

/-- The power states of R357: MP, operational, ENLAT, EXLAT. -/
def powerStates : List (Nat × Bool × Nat × Nat) :=
  [(41000, true, 0, 0), (30000, true, 1000, 1000), (20000, true, 1000, 1000), (15500, false, 4000000, 5000000),
   (8500, false, 5000000, 9000000)]

/-- The fields of Identify Controller that the chapter fixes (R332, R354, R357). -/
def controllerFields (p : Fin 16) (c : Nat) : List (Nat × List Byte) :=
  [(77, [9]), (78, bytesOf 2 (ctrlId p c)), (80, bytesOf 4 0x00020000), (111, [if c = 16 then 2 else 1]), (258, [3, 7]),
   (262, [63, 4]), (320, bytesOf 2 1), (342, [10]), (344, bytesOf 4 8 ++ bytesOf 4 8), (516, bytesOf 4 8),
   (522, bytesOf 2 0), (1792, bytesOf 4 1028 ++ bytesOf 4 1)]
    ++ powerStates.zipIdx.map fun e => (2048 + 32 * e.2, bytesOf 2 e.1.1 ++ bytesOf 1 0
      ++ bytesOf 1 (if e.1.2.1 then 0 else 2) ++ bytesOf 4 e.1.2.2.1 ++ bytesOf 4 e.1.2.2.2)

/-- NAWUPF of a set (R338). -/
def SetDef.nawupf (d : SetDef) : Nat := if d.gather then 0 else 8 * d.data - 1

/-- The fields of Identify Namespace that the chapter fixes (R337, R338, R342, R354). -/
def State.namespaceFields (s : State) (p : Fin 16) (n : Fin 8) : List (Nat × List Byte) :=
  let d := (s.aset n).cfg
  let z := bytesOf 8 (s.nsSize n)
  [(0, z ++ z ++ z), (24, [2, 0, 0]), (36, bytesOf 2 d.nawupf), (92, bytesOf 4 (n.val + 1)),
   (99, [if s.protectedAt p n then 1 else 0]), (128, [0, 0, 12])]

/-- The list of active namespaces above an NSID (CNS 02h). -/
def State.activeList (s : State) (above : Nat) : List Byte :=
  padTo 4096 (((List.range 8).filter fun n => decide (above < n + 1) && s.nsValid (n + 1)).flatMap fun n => bytesOf 4 (n + 1))

/-- Identify (R334): the list of active namespaces is the engine's own, and firmware builds the others. -/
def State.identify (p : Fin 16) (q : Capsule) (s : State) : State :=
  match q.bits 327 320 with
  | 0x00 =>
    if q.nsid = 0 ∨ 8 < q.nsid then s.refuse p q stNamespace
    else if s.nsValid q.nsid then s.adminToFirmware p q
    else s.answer p q stOk 0 (List.replicate 4096 0)
  | 0x01 => s.adminToFirmware p q
  | 0x02 => s.answer p q stOk 0 (s.activeList q.nsid)
  | 0x03 => if s.nsValid q.nsid then s.adminToFirmware p q else s.refuse p q stNamespace
  | 0x1C => s.adminToFirmware p q
  | _ => s.refuse p q stField

/-- The data of an admin command that firmware answers with success: what the chapter fixes stands over firmware's
bytes (R334). -/
def State.firmwareData (s : State) (p : Fin 16) (c : HostCmd) : List Byte :=
  let t := portTile p
  let free (n : Nat) : List Byte := (List.range n).map (Config.firmwareByte t.val c.handle)
  let cns := bitsOf c.sqe 327 320
  if c.opcode = 0x06 then
    putAll (free 4096) (if cns = 0 then s.namespaceFields p (nsSet c.nsid)
      else if cns = 1 then controllerFields p c.ctrl else [])
  else if c.opcode = 0x02 then free 512
  else []

end Sys2Proof.Machine
end

