-- ==== Sys2Proof/Machine/HostIo.lean ====
section
/-! DEFINITION. I/O commands of the hosts (13_host_queueing.md): checks at fetch, range locks, reads, writes, the answers
of firmware, arbitration, Abort, and what happens to commands at resets. -/

namespace Sys2Proof.Machine

/-- A Write or Write Zeroes. -/
def HostCmd.isWrite (c : HostCmd) : Bool := c.opcode == 0x01 || c.opcode == 0x08
/-- A Flush. -/
def HostCmd.isFlush (c : HostCmd) : Bool := c.opcode == 0x00

/-! ### The lock unit -/

/-- Two entries share an LBN of one namespace (R350). -/
def LockEntry.overlaps (a b : LockEntry) : Bool :=
  a.nsid == b.nsid && decide (a.lbn < b.lbn + b.count ∧ b.lbn < a.lbn + a.count)

/-- The entries before a command's own. -/
def locksBefore (l : List LockEntry) (p : Fin 16) (tag : Nat) : List LockEntry :=
  l.takeWhile fun e => !(e.port == p.val && e.tag == tag)

/-- The lock entry of a command. -/
def lockOf (l : List LockEntry) (p : Fin 16) (tag : Nat) : Option LockEntry :=
  l.find? fun e => e.port == p.val && e.tag == tag

/-- The lock unit can grant a command: no earlier entry overlaps its own (R350). -/
def State.canGrant (s : State) (p : Fin 16) (c : HostCmd) : Bool :=
  let l := (s.tile (s.cmdTile p c)).locks
  match lockOf l p c.tag with
  | none => false
  | some e => c.stage == .locked && !c.isFlush && !(locksBefore l p c.tag).any (·.overlaps e)

/-- No earlier write of a Flush's namespace remains (R352). -/
def State.flushReady (s : State) (p : Fin 16) (c : HostCmd) : Bool :=
  c.isFlush && c.stage == .locked
    && !(locksBefore (s.tile (s.cmdTile p c)).locks p c.tag).any fun e => e.write && e.nsid == c.nsid

/-- A Flush that waits for nothing completes (R352). -/
def State.tryFlush (p : Fin 16) (tag : Nat) (s : State) : State :=
  match s.cmd p tag with
  | none => s
  | some c => if s.flushReady p c then s.finish p c stOk 0 [] else s

/-- An older request of a port for the same lock unit is still held (R350). -/
def State.heldBefore (s : State) (p : Fin 16) (c : HostCmd) : Bool :=
  ((s.port p).cmds.takeWhile (·.tag != c.tag)).any fun k =>
    k.stage == .fetched && k.qid != 0 && s.cmdTile p k == s.cmdTile p c

/-- A lock request reaches the lock unit of the set's home tile (R350, R380): inserted, held at its port while the unit
is full or an older one is held, or completed as for a home tile down once the unit has stopped. LOCK_FULL is set where the
unit is full, with its last entry taken or at a further request (R365). -/
def State.lockRequest (p : Fin 16) (tag : Nat) (s : State) : State :=
  match s.cmd p tag with
  | none => s
  | some c =>
    let t := s.cmdTile p c
    let x := s.tile t
    let stops := !x.lockStop && x.lockMem.bad 0 (2 ^ 32)
    let s := if x.lockStop then s else s.noteBuffer t x.lockMem 0x32 .lockUnit
    let s := if stops then
        allSets.foldl (fun s n => s.refreshAna n) ((s.onTile t fun x => { x with lockStop := true }).log t 0x42 0xFF 0 0)
      else s
    let x := s.tile t
    if x.lockStop then s.finish p c stInaccessible 0 []
    else if s.heldBefore p c then s
    else if x.locks.length < 4096 then
      let e : LockEntry := { LockEntry.reset with
        port := p.val, tag := tag, nsid := c.nsid, lbn := c.lbn, count := c.count, write := c.isWrite }
      let s := s.onTile t fun x =>
        (({ x with locks := x.locks ++ [e] } : Tile).showLocks).flagIf (decide (4096 ≤ x.locks.length + 1)) LockReg.LOCK_FULL
      (s.onCmd p tag fun c => { c with stage := .locked }).tryFlush p tag
    else s.onTile t (·.flag LockReg.LOCK_FULL)

/-! ### Fetching an I/O command -/

/-- The first check at fetch that an I/O command fails (R332, R334, R337, R342, R355, R27). The spec gives no order of them
(DESIGN CHOICE, log entry 136). -/
def State.ioCheck (s : State) (p : Fin 16) (q : Capsule) : Option Status :=
  let n := nsSet q.nsid
  let op := q.opcode
  let ana := s.anaState p n
  if !s.nsValid q.nsid then some stNamespace
  else if ana = 3 then some stInaccessible
  else if ana = 15 then some stTransition
  else if q.fuse ≠ 0 ∨ (op = 0x08 ∧ bitOf (q.cdw 12) 25) ∨ (op ∈ [0x01, 0x02, 0x86] ∧ 512 < q.blocks) then some stField
  else if !q.sglOk then some stSgl
  else if op ≠ 0x00 ∧ s.nsSize n < q.slba + q.blocks then some stRange
  else if (op = 0x01 ∨ op = 0x08) ∧ s.protectedAt p n then some stProtected
  else if !s.reaches (portTile p) (s.aset n).cfg.homeTile then some stNotReady
  else none

/-- An I/O command restarts the idle time of every controller, and takes its own out of PS3 and PS4 (R359, R360). -/
def State.ioWakes (p : Fin 16) (c : Nat) (s : State) : State :=
  let s := { s with pkg := { s.pkg with idleSince := s.cycle } }
  match s.ctrl p c with
  | none => s
  | some k => if 3 ≤ k.ps then (s.onCtrl p c fun k => { k with ps := k.psOper }).refreshPower false else s

/-- An I/O command is fetched (R344 step 1): write data is pulled into the port's stack and stamped (R16, R369), and the
lock request is sent. -/
def State.fetchIo (p : Fin 16) (q : Capsule) (s : State) : State :=
  let s := s.ioWakes p q.ctrl
  match s.ioCheck p q with
  | some st => s.refuse p q st
  | none =>
    let n := if q.opcode = 0x00 then 0 else q.blocks
    let s := if q.opcode = 0x01 then s.stackStamp (portTile p) (q.stage * 4096) (padTo (4096 * n) q.data)
      else if q.opcode = 0x08 then s.stackStamp (portTile p) (q.stage * 4096) (List.replicate (4096 * n) 0)
      else s
    let tag := (s.port p).nextTag
    ((s.addCmd p q (if q.opcode = 0x00 then 0 else q.slba) n).sendPacket (portTile p)
      (s.aset (nsSet q.nsid)).cfg.homeTile vcCommand 1).lockRequest p tag

/-! ### Abort -/

/-- A command that Abort may still end (R353): one whose write is not bound and whose read has moved no data. Of a read whose
blocks were all found, `moved` says whether a transfer has begun since its grant (log entry 69). -/
def HostCmd.abortable (c : HostCmd) (moved : Bool) : Bool :=
  match c.stage with
  | .bound => false
  | .missing => false
  | .transferring => c.missing.isEmpty && !moved
  | _ => true

/-- Abort names a command of its controller (R353): the state once it is aborted, or none. -/
def State.abortOne (p : Fin 16) (ctrl sqid cid : Nat) (s : State) : Option State :=
  let gone (nsid lbn : Nat) (s : State) : State := s.post p { HostCpl.reset with
    ctrl := ctrl, qid := sqid, cid := cid, sct := 0, sc := 0x07 } nsid lbn
  match s.ctrl p ctrl with
  | none => none
  | some k =>
    match (k.queue sqid).bind fun x => x.waiting.find? (·.cid == cid) with
    | some w => some (gone w.nsid 0 (s.onQueue p ctrl sqid fun x => { x with waiting := x.waiting.filter (·.cid != cid) }))
    | none =>
      if sqid = 0 ∧ k.aers.contains cid then
        some (gone 0 0 (s.onCtrl p ctrl fun k => { k with aers := k.aers.filter (· != cid) }))
      else
        match (s.port p).cmds.find? fun c => c.ctrl == ctrl && c.qid == sqid && c.cid == cid && !c.orphan with
        | none => none
        | some c => if c.abortable (Config.freeValue s.freeCount % 2 != 0) then some (s.takeFree.finish p c stAborted 0 []) else none

/-- Abort (R353). Each takes a free value: whether a transfer of the named read has begun. -/
def State.abortCmd (p : Fin 16) (q : Capsule) (s : State) : State :=
  match s.abortOne p q.ctrl (q.bits 335 320) (q.bits 351 336) with
  | some s => (s.pbump p PortReg.ABORT_DONE).answer p q stOk 0 []
  | none => (s.takeFree.pbump p PortReg.ABORT_MISSED).answer p q stOk 1 []

/-! ### Taking a capsule -/

/-- An Asynchronous Event Request (R358): it reports the oldest held event, or waits for one. -/
def State.eventRequest (p : Fin 16) (q : Capsule) (c : Ctrl) (s : State) : State :=
  match c.held with
  | (ev, nsid) :: l =>
    ((s.onCtrl p q.ctrl fun k => { k with held := l }).post p
      { HostCpl.reset with ctrl := q.ctrl, cid := q.cid, dw0 := eventDword ev, dw1 := nsid } 0 0).refreshPorts
  | [] =>
    if 8 ≤ c.aers.length then s.refuse p q stEventLimit
    else s.onCtrl p q.ctrl fun k => { k with aers := k.aers ++ [q.cid] }

/-- An admin command is processed (R334). -/
def State.takeAdmin (p : Fin 16) (q : Capsule) (c : Ctrl) (s : State) : State :=
  if !adminOpcodes.contains q.opcode then s.refuse p q stOpcode
  else if q.fuse ≠ 0 then s.refuse p q stField
  else if !q.sglOk then s.refuse p q stSgl
  else
    match q.opcode with
    | 0x02 => s.getLogPage p q c
    | 0x06 => s.identify p q
    | 0x08 => s.abortCmd p q
    | 0x09 => s.setFeatures p q
    | 0x0A => s.getFeatures p q c
    | 0x0C => s.eventRequest p q c
    | 0x10 => s.adminToFirmware p q
    | 0x11 => s.adminToFirmware p q
    | 0x18 => (s.onCtrl p q.ctrl fun k => { k with kaAt := s.cycle }).answer p q stOk 0 []
    | _ => s.refuse p q stOpcode

/-- A fetched capsule is processed (R334, R344). -/
def State.takeCapsule (p : Fin 16) (q : Capsule) (s : State) : State :=
  match s.ctrl p q.ctrl with
  | none => s
  | some c =>
    if q.opcode = 0x7F then
      match q.fctype with
      | 0x00 => s.propertySet p q
      | 0x01 => s.refuse p q stConnect
      | 0x04 => s.propertyGet p q c
      | 0x08 => s.disconnect p q
      | _ => s.refuse p q stOpcode
    else if q.qid = 0 then s.takeAdmin p q c
    else if ioOpcodes.contains q.opcode then s.fetchIo p q
    else s.refuse p q stOpcode

/-! ### Arbitration -/

/-- The queues of a class that hold a command, in order (R348). -/
def PortSt.holding (x : PortSt) (cls : Nat) : List (Nat × Nat) :=
  x.ctrls.flatMap fun c => (c.queues.filter fun k => k.cls == cls && !k.waiting.isEmpty).map fun k => (c.idx, k.qid)

/-- The queue of a class that is served next, with the commands of its turn (R348 step 3). -/
def PortSt.nextIn (x : PortSt) (cls : Nat) : Option (Nat × Nat × Nat) :=
  let l := x.holding cls
  let (c, q, n) := x.turn.getD cls (0, 0, 0)
  if l.contains (c, q) && (x.ab == 7 || decide (n < 2 ^ x.ab)) then some (c, q, n + 1)
  else
    let after := l.filter fun e => decide (c < e.1 ∨ (c = e.1 ∧ q < e.2))
    match after ++ l with
    | [] => none
    | e :: _ => some (e.1, e.2, 1)

/-- The class that is served next, and the credits after it (R348 steps 1 and 2). -/
def PortSt.nextClass (x : PortSt) : Option (Nat × List Nat) :=
  let some_ (cls : Nat) : Bool := !(x.holding cls).isEmpty
  let spend (credits : List Nat) (cls : Nat) : Nat × List Nat := (cls, credits.set (cls - 1) (credits.getD (cls - 1) 0 - 1))
  if some_ 0 then some (0, x.credits)
  else
    match [1, 2, 3].find? fun cls => some_ cls && decide (0 < x.credits.getD (cls - 1) 0) with
    | some cls => some (spend x.credits cls)
    | none => ([1, 2, 3].find? some_).map (spend (x.weights.map (· + 1)))

/-- The next command is fetched, where a queue holds one and the port has a free entry of its 4 096 (R332, R348). -/
def State.fetchOne (p : Fin 16) (s : State) : State :=
  let x := s.port p
  if 4096 ≤ x.outstanding then s
  else
    match x.nextClass with
    | none => s
    | some (cls, credits) =>
      match x.nextIn cls with
      | none => s
      | some (c, qid, n) =>
        match ((s.ctrl p c).bind (·.queue qid)).bind (·.waiting.head?) with
        | none => s
        | some q =>
          let turn := (List.range 4).map fun k => if k = cls then (c, qid, n) else x.turn.getD k (0, 0, 0)
          let s := s.onPort p fun x => { x with credits := credits, turn := turn }
          let s := s.onQueue p c qid fun k => { k with waiting := k.waiting.drop 1 }
          (s.pbump p PortReg.CMD_COUNT).takeCapsule p q

/-- Commands that wait in a port's queues, or for a lock unit's room. -/
def PortSt.held (x : PortSt) : Nat :=
  ((x.ctrls.flatMap (·.queues)).map fun k => k.waiting.length).foldl (· + ·) 0
    + (x.cmds.filter fun c => c.stage == .fetched).length

/-- What a port can do at once: its Flushes that wait for nothing complete, its oldest held lock requests enter their
units while those have room, and it fetches. -/
def State.portPass (p : Fin 16) (s : State) : State :=
  let s := (s.port p).cmds.foldl (fun s c => s.tryFlush p c.tag) s
  let s := ((s.port p).cmds.filter fun c => c.stage == .fetched).foldl (fun s c =>
    if (s.tile (s.cmdTile p c)).locks.length < 4096 || (s.tile (s.cmdTile p c)).lockStop then s.lockRequest p c.tag else s) s
  ((s.port p).ctrls.flatMap (·.queues)).foldl (fun s k => k.waiting.foldl (fun s _ => s.fetchOne p) s) s

/-- Every port does what it can do at once, until nothing that waits can go on (R348, R350, R352). -/
def State.hostSettle (s : State) : State :=
  let n := (allPorts.map fun p => (s.port p).held).foldl (· + ·) 0
  (List.range (n + 1)).foldl (fun s _ => allPorts.foldl (fun s p => s.portPass p) s) s

/-- A capsule arrives at its queue (R348). -/
def State.submit (p : Fin 16) (q : Capsule) (s : State) : State :=
  (s.onQueue p q.ctrl q.qid fun k => { k with waiting := k.waiting ++ [q] }).hostSettle

/-- A port takes a capsule: its engine works, its PRDY_N has risen since its last reset, and the controller and the queue
are connected (R333). -/
def State.accepts (s : State) (p : Fin 16) (q : Capsule) : Bool :=
  s.portRuns p && (s.port p).prdyRose && ((s.ctrl p q.ctrl).bind (·.queue q.qid)).isSome

/-! ### Reads -/

/-- What the map says of a block. -/
inductive BlockLook where
  | at (wseq member slot : Nat)
  | unwritten
  | dropped
deriving DecidableEq, Repr

/-- The later of two versions. -/
def laterVersion (a b : Option (Nat × Nat × Nat)) : Option (Nat × Nat × Nat) :=
  match a, b with
  | none, b => b
  | a, none => a
  | some x, some y => if x.1 < y.1 then some y else some x

/-- The version of an LBN that a read returns (R319, R339, R340): the current one, or with a limit the one with the
highest WSEQ at or below it. -/
def ASet.look (a : ASet) (limit : Option Nat) (lbn : Nat) : BlockLook :=
  let best (es : List Extent) (ok : Nat → Bool) : Option (Nat × Nat × Nat) :=
    ((es.filterMap (·.version a.cfg lbn)).filter fun v => ok v.1).foldl (fun r v => laterVersion r (some v)) none
  match limit with
  | none =>
    match best (a.extents.filter fun e => !e.superseded) fun _ => true with
    | some (w, m, k) => .at w m k
    | none => .unwritten
  | some x =>
    let kept := best a.extents fun w => decide (w ≤ x)
    match best a.dropped (fun w => decide (w ≤ x)), kept with
    | some _, none => .dropped
    | some d, some (w, m, k) => if w < d.1 then .dropped else .at w m k
    | none, some (w, m, k) => .at w m k
    | none, none => .unwritten

/-- The 7-byte key of the cache index (R345). -/
def indexKey (w m k : Nat) : List Byte := bytesOf 5 w ++ bytesOf 1 m ++ bytesOf 1 k

/-- The cache index of a set is probed from a slot (R345): stack and block address, or none. `fuel` slots at most. -/
def State.probe (n : Fin 8) (key : List Byte) (slots : Nat) : Nat → Nat → State → Option (Nat × Nat) × State
  | 0, _, s => (none, s)
  | fuel + 1, k, s =>
    let t := (s.aset n).cfg.homeTile
    let a := s.sr n (fun j => HostReg.CI_BASE j) * 4096 + 16 * k
    let e := s.stackBytes t a 16
    let s := s.stackTouch t a 16 .other
    if e.take 7 == key then (some (infoField e 7 1, infoField e 8 4), s)
    else if (e.take 7).all (· == 0) then (none, s)
    else State.probe n key slots fuel ((k + 1) % slots) s

/-- The staging block that holds a version, by the cache index (R345). -/
def State.indexed (n : Fin 8) (w m k : Nat) (s : State) : Option (Nat × Nat) × State :=
  let slots := atLeast1 (s.sr n (fun j => HostReg.CI_SLOTS j))
  let key := indexKey w m k
  s.probe n key slots slots (crc32c key % slots)

/-- A block is read for a host (R343, R369, R16): its bytes, or the failure, of its route among others (R27). -/
def State.hostBlock (p : Fin 16) (stack addr : Nat) (s : State) : Sum (List Byte) Status × State :=
  let t := toTile stack
  if !s.tileUp t || !s.reaches (portTile p) t then (.inr stNotReady, s.sendPacket (portTile p) t vcRequest 1)
  else
    let (bad, s) := (s.askData (portTile p) t 64).checkBlock t addr .portRead
    match bad with
    | some _ => (.inr stUnrecovered, s)
    | none => (.inl (s.stackBytes t (addr * 4096) 4096), s)

/-- A read so far: its blocks, empty for a missing one, the missing ones, and the first failure. -/
structure ReadRun where
  got : List (List Byte)
  missing : List Nat
  fail : Option Status
deriving DecidableEq, Repr

/-- One block of a granted read (R344 step 3). -/
def State.readBlock (p : Fin 16) (c : HostCmd) (dulbe : Bool) (k : Nat) (r : ReadRun × State) : ReadRun × State :=
  let (x, s) := r
  let n := nsSet c.nsid
  if x.fail.isSome then r
  else
    match (s.aset n).look (if c.opcode = 0x86 then some (bitsOf c.sqe 487 448) else none) (c.lbn + k) with
    | .dropped => ({ x with fail := some stNotRetained }, s)
    | .unwritten =>
      if dulbe then ({ x with fail := some stUnwritten }, s)
      else ({ x with got := x.got ++ [List.replicate 4096 0] }, s)
    | .at w m j =>
      if Config.lostMark n.val (c.lbn + k) w s.cycle then ({ x with fail := some stUnrecovered }, s)
      else match s.indexed n w m j with
      | (none, s) => ({ x with got := x.got ++ [[]], missing := x.missing ++ [k] }, s)
      | (some (stack, addr), s) =>
        match s.hostBlock p stack addr with
        | (.inl l, s) => ({ x with got := x.got ++ [l] }, s)
        | (.inr st, s) => ({ x with fail := some st }, s)

/-- A granted read looks its blocks up (R344 step 3, R345): READ_MISS is posted for those that staging does not hold. -/
def State.startRead (p : Fin 16) (c : HostCmd) (s : State) : State :=
  let dulbe := match s.ctrl p c.ctrl with | some k => bitOf (k.feature 0x05) 16 | none => false
  let e : ReadRun × State := (List.range c.count).foldl (fun r k => State.readBlock p c dulbe k r) (⟨[], [], none⟩, s)
  let r := e.1
  let s := e.2
  let s := s.onCmd p c.tag fun c => { c with got := r.got, missing := r.missing, fail := r.fail }
  if r.fail.isSome ∨ r.missing.isEmpty then s.onCmd p c.tag fun c => { c with stage := .transferring }
  else
    let bits := r.missing.foldl (fun m k => m + 2 ^ k) 0
    let s := s.stackWrite (portTile p) (c.addr * 4096) (bytesOf ((c.count + 7) / 8) bits)
    s.toFirmware p c 2 c.addr c.count .missing

/-! ### Grants, posts, resolutions and transfers -/

/-- The oldest command of a port that meets a condition. -/
def State.firstCmd (s : State) (p : Fin 16) (ok : HostCmd → Bool) : Option HostCmd := (s.port p).cmds.find? ok

/-- A command of a port that meets a condition is acted on, and what that frees goes on. -/
def State.onFirst (p : Fin 16) (ok : State → HostCmd → Bool) (act : HostCmd → State → State) (s : State) : State :=
  match s.firstCmd p (ok s) with
  | none => s
  | some c => (act c s).hostSettle

/-- The event of a port's oldest command that meets a condition. -/
def cmdEvent (wait : Nat) (p : Fin 16) (ok : State → HostCmd → Bool) (act : HostCmd → State → State) (s : State) : Out :=
  s.after wait (fun s => s.tileUp (portTile p) && (s.firstCmd p (ok s)).isSome) (State.onFirst p ok act)

/-- A command's lock is granted (R350), or its path to the home tile has failed (R27). -/
def State.grant (p : Fin 16) (c : HostCmd) (s : State) : State :=
  let t := s.cmdTile p c
  if !s.reaches (portTile p) t then (s.sendPacket t (portTile p) vcCommand 1).finish p c stNotReady 0 []
  else
    let s := (s.sendPacket t (portTile p) vcCommand 1).onTile t fun x => { x with
      locks := x.locks.map fun e => if e.port = p.val ∧ e.tag = c.tag then { e with granted := true } else e }
    let s := s.onCmd p c.tag fun c => { c with stage := .granted }
    if c.isWrite then s else s.startRead p c

/-- LOCK_GRANT (R350). -/
def execLockGrant (wait : Nat) (p : Fin 16) (s : State) : Out := cmdEvent wait p (fun s => s.canGrant p) (State.grant p) s

/-- A granted write whose data is in staging is posted to firmware (R344 step 3). -/
def State.postWrite (p : Fin 16) (c : HostCmd) (s : State) : State :=
  let s' := s.sendPacket (portTile p) (s.cmdTile p c) vcCommand 1
  if !s.reaches (portTile p) (s.cmdTile p c) then s'.finish p c stNotReady 0 []
  else s'.toFirmware p c 1 c.addr c.count .posted

/-- WRITE_DATA_STAGED (R344). -/
def execWriteDataStaged (wait : Nat) (p : Fin 16) (s : State) : Out :=
  cmdEvent wait p (fun _ c => c.isWrite && c.stage == .granted) (State.postWrite p) s

/-- The stripes of a bound range. -/
def HostCmd.range (c : HostCmd) : List Nat := (List.range (c.wseqHi + 1 - c.wseqLo)).map (c.wseqLo + ·)

/-- Every stripe of a bound write is resolved (R349), and its port can learn of it from the home tile (R27; DESIGN CHOICE,
log entry 136). -/
def State.writeResolved (s : State) (p : Fin 16) (c : HostCmd) : Bool :=
  c.stage == .bound && s.reaches (s.cmdTile p c) (portTile p) && c.range.all fun w => (s.resolution (nsSet c.nsid) w).isSome

/-- A bound write completes: with success where every stripe has committed, and otherwise with Write Fault (R349). -/
def State.resolveWrite (p : Fin 16) (c : HostCmd) (s : State) : State :=
  let ok := c.range.all fun w => s.resolution (nsSet c.nsid) w == some true
  (s.sendPacket (s.cmdTile p c) (portTile p) vcCommand 1).finish p c (if ok then stOk else stWriteFault) 0 []

/-- WRITE_RESOLVED (R349). -/
def execWriteResolved (wait : Nat) (p : Fin 16) (s : State) : Out :=
  cmdEvent wait p (fun s => s.writeResolved p) (State.resolveWrite p) s

/-- A read completes with its data or its failure (R344 step 5, R343); Verify transfers nothing (R339). -/
def State.endRead (p : Fin 16) (c : HostCmd) (s : State) : State :=
  match c.fail with
  | some st => s.finish p c st 0 []
  | none => s.finish p c stOk 0 (if c.opcode = 0x0C then [] else c.got.flatten)

/-- READ_TRANSFER_DONE (R344). -/
def execReadTransferDone (wait : Nat) (p : Fin 16) (s : State) : Out :=
  cmdEvent wait p (fun _ c => c.stage == .transferring) (State.endRead p) s

/-! ### Answers of firmware -/

/-- The command that a handle of a tile names: its port and itself. -/
def State.byHandle (s : State) (t : Fin 8) (h : Nat) : Option (Fin 16 × HostCmd) :=
  allPorts.findSome? fun p =>
    ((s.port p).cmds.find? fun c => decide (s.cmdTile p c = t) && c.handle == h
      && (c.stage == .posted || c.stage == .missing || c.stage == .admin)).map fun c => (p, c)

/-- An action that names no waiting handle, or a bad range (R346). -/
def State.respBad (t : Fin 8) (s : State) : State := s.onTile t (·.flag LockReg.FW_RESP_BAD)

/-- BIND (R346): the write is bound to its range of assigned WSEQs. -/
def State.bindWrite (t : Fin 8) (p : Fin 16) (c : HostCmd) (s : State) : State :=
  let x := s.tile t
  let lo := x.r LockReg.WSEQ_LO_L + x.r LockReg.WSEQ_LO_H * 2 ^ 32
  let hi := x.r LockReg.WSEQ_HI_L + x.r LockReg.WSEQ_HI_H * 2 ^ 32
  if c.stage ≠ .posted ∨ hi < lo ∨ lo = 0 ∨ s.wseqNext (nsSet c.nsid) ≤ hi then s.respBad t
  else s.onCmd p c.tag fun c => { c with stage := .bound, wseqLo := lo, wseqHi := hi }

/-- DATA_READY (R346): the missing blocks are checked at the address given and transferred. -/
def State.dataReady (t : Fin 8) (p : Fin 16) (c : HostCmd) (s : State) : State :=
  if c.stage ≠ .missing then s.respBad t
  else
    let addr := (s.tile t).r LockReg.RESP_ADDR
    let (r, s) := c.missing.zipIdx.foldl (fun (r : (List (List Byte) × Option Status) × State) e =>
      if r.1.2.isSome then r
      else
        match r.2.hostBlock p t.val (addr + e.2) with
        | (.inl l, s) => ((r.1.1.set e.1 l, none), s)
        | (.inr st, s) => ((r.1.1, some st), s)) ((c.got, none), s)
    s.onCmd p c.tag fun c => { c with stage := .transferring, got := r.1, fail := r.2 }

/-- FAIL (R346): a READ_MISS or an ADMIN completes with the status given. -/
def State.failCmd (t : Fin 8) (p : Fin 16) (c : HostCmd) (s : State) : State :=
  let v := (s.tile t).r LockReg.RESP_STATUS
  if c.stage = .posted then s.respBad t else s.finish p c (bitsOf v 10 8, bitsOf v 7 0, bitOf v 15) 0 []

/-- DONE (R346): an ADMIN completes with success. -/
def State.doneCmd (t : Fin 8) (p : Fin 16) (c : HostCmd) (s : State) : State :=
  if c.stage ≠ .admin then s.respBad t
  else s.finish p c stOk ((s.tile t).r LockReg.FW_DW0) (s.firmwareData p c)

/-- FW_GO carries out ACTION for RESP_HANDLE (R346); where the command's port cannot be reached the packet fails on its route
(R27) and the action has no effect, which FW_RESP_BAD shows (DESIGN CHOICE, log entry 136). -/
def State.hcrGo (t : Fin 8) (s : State) : State :=
  let x := s.tile t
  match s.byHandle t (x.r LockReg.RESP_HANDLE) with
  | none => s.respBad t
  | some (p, c) =>
    let s := s.sendPacket t (portTile p) vcCommand 1
    if !s.reaches t (portTile p) then s.respBad t
    else (match x.r LockReg.ACTION with
      | 1 => s.bindWrite t p c
      | 2 => s.dataReady t p c
      | 3 => s.failCmd t p c
      | 4 => s.doneCmd t p c
      | _ => s.respBad t).hostSettle

/-! ### Controllers and resets -/

/-- A controller whose keep-alive timer has run out (R363). -/
def State.expiredCtrl (s : State) (p : Fin 16) : Option Ctrl :=
  (s.port p).ctrls.find? fun c => c.kato != 0 && s.since c.kaAt (cyclesOfMs c.kato)

/-- Keep-alive expiry acts as a port reset for that controller's commands (R363). -/
def State.katoExpire (p : Fin 16) (s : State) : State :=
  match s.expiredCtrl p with
  | none => s
  | some c => (((s.pflag p PortReg.KATO_EXPIRED).dropCtrl p c.idx).refreshPorts).hostSettle

/-- KATO_EXPIRED (R363). -/
def execKatoExpired (wait : Nat) (p : Fin 16) (s : State) : Out :=
  s.after wait (fun s => s.tileUp (portTile p) && (s.expiredCtrl p).isSome) (State.katoExpire p)

/-- No I/O command of any controller is outstanding (R360). -/
def State.hostIdle (s : State) : Bool :=
  allPorts.all fun p => (s.port p).cmds.all (·.qid == 0)
    && (s.port p).ctrls.all fun c => c.queues.all fun k => k.qid == 0 || k.waiting.isEmpty

/-- A controller whose table asks for a transition now (R360): the state it goes to. -/
def State.apstDue (s : State) (c : Ctrl) : Option Nat :=
  match c.apst[c.ps]? with
  | none => none
  | some (ps, ms) =>
    if c.feature 0x0C = 1 ∧ c.idx < 16 ∧ ms ≠ 0 ∧ ps ≠ c.ps ∧ s.hostIdle ∧ s.since s.pkg.idleSince (cyclesOfMs ms) then some ps
    else none

/-- Controllers go to their ITPS (R360). -/
def State.apst (p : Fin 16) (s : State) : State :=
  ((s.port p).ctrls.foldl (fun t c => match s.apstDue c with
    | some ps => t.onCtrl p c.idx fun k => { k with ps := ps }
    | none => t) s).refreshPower true

/-- APST_TRANSITION (R360). -/
def execApstTransition (wait : Nat) (p : Fin 16) (s : State) : Out :=
  s.after wait (fun s => s.tileUp (portTile p) && (s.port p).ctrls.any fun c => (s.apstDue c).isSome) (State.apst p)

/-- A port reset (R7, R333, R363): controllers and queue pairs are lost, and its registers are restored. -/
def State.portReset (p : Fin 16) (s : State) : State :=
  let s := s.closeCmds p fun _ => true
  let s := s.onPort p fun x => { PortSt.reset with cmds := x.cmds, cpls := x.cpls, nextTag := x.nextTag, rateAt := s.cycle }
  let s := s.onTile (portTile p) fun x => { x with regs := x.regs.resetBy .port (PortReg.one (p.val % 2)) }
  ((s.refreshPower false).refreshPorts).hostSettle

/-- What the reset of a tile does to host commands (R363, R365): its ports are reset; its lock unit and its interface to
firmware are cleared; commands of other ports that it held and that are not bound complete with Namespace Not Ready. -/
def State.hostTileReset (t : Fin 8) (s : State) : State :=
  let s := (s.portReset (portOf t 0)).portReset (portOf t 1)
  let s := allPorts.foldl (fun s p => (s.port p).cmds.foldl (fun s c =>
    if c.qid ≠ 0 ∧ s.cmdTile p c = t ∧ c.stage ≠ .bound then s.finish p c stNotReady 0 [] else s) s) s
  s.onTile t fun x => { x with locks := [], nextHandle := 1, hcrWait := [], lockStop := false }

end Sys2Proof.Machine
end

