-- ==== Sys2Proof/Machine/RegMap.lean ====
section
/-! DEFINITION. Where a management address lies (R2, R3, R497, R502, R503), and the fields that stand there. -/

namespace Sys2Proof.Machine

/-- What a management address names: a word of the package block, of a tile block or of a head block, by offset, or
nothing. -/
inductive Place where
  | pkg (off : Nat)
  | tile (t : Fin 8) (off : Nat)
  | head (h : Fin 32) (off : Nat)
  | none
deriving DecidableEq, Repr

/-- The place of a management address (R497, R502). -/
def placeOf (a : Nat) : Place :=
  if a < 0x1000000 then .pkg a
  else if 0x10000000 ≤ a ∧ a < 0x18000000 then
    let t := toTile ((a - 0x10000000) / 0x1000000)
    let off := a % 0x1000000
    if 0x400000 ≤ off ∧ off < 0x600000 then
      .head (headOf t ⟨(off - 0x400000) / 0x80000 % 4, by omega⟩) (off % 0x80000)
    else .tile t off
  else .none

/-- The fields of a word. -/
def fieldsIn (fs : List Fld) (off : Nat) : List Fld := fs.filter fun f => f.off == off

/-- The package time words (R43, R499). -/
def isPkgTime (off : Nat) : Bool := off == 0x100 || off == 0x104

/-- The fields at a place. -/
def Place.fields : Place → List Fld
  | .pkg off => fieldsIn pkgFields off
  | .tile _ off => fieldsIn tileFields off
  | .head _ off => fieldsIn headFields off
  | .none => []

/-- The place holds a register word (R497). -/
def Place.isReg : Place → Bool
  | .pkg off => isPkgTime off || !(fieldsIn pkgFields off).isEmpty
  | p => !p.fields.isEmpty

/-- The tile that a place belongs to; none for the package block. -/
def Place.tile? : Place → Option (Fin 8)
  | .tile t _ => some t
  | .head h _ => some (tileOf h)
  | _ => Option.none

/-- A word that holds an RW field (R417). -/
def hasRw (fs : List Fld) : Bool := fs.any (·.acc = .rw)

/-- The fields that a LIMITS entry names, as offset and lowest bit in the head block, with the published largest MAX
(R420). -/
def limitFields : List (Fld × Nat) :=
  [(SpinReg.SPD_MAX, 56294995), (SpinReg.SPD_TARGET, 56294995), (SpinReg.VB_OV, 60000), (SpinReg.OC_LIM, 32767),
   (WriteReg.SPEED_TOL, 2000)] ++ (List.range 32).map (fun i => (WriteReg.WPOWER i, 40000))
    ++ (List.range 32).map fun i => (WriteReg.RPOWER i, 4000)

end Sys2Proof.Machine
end

