-- ==== Sys2Proof/Machine/Bitstream.lean ====
section
/-! DEFINITION. The bit-stream container in a boot flash and every check made on it (R412 to R422). -/

namespace Sys2Proof.Machine

/-! ### The flash -/

/-- One byte of a flash. -/
def FlashSt.read8 (f : FlashSt) (a : Nat) : Byte := f.mem.read8 a ^^^ 0xFF

/-- Bytes of a flash. -/
def FlashSt.bytes (f : FlashSt) (a n : Nat) : List Byte := (f.mem.readBytes a n).map (· ^^^ 0xFF)

/-- A little-endian number in a flash. -/
def FlashSt.le (f : FlashSt) (a n : Nat) : Nat := ofBytes (f.bytes a n)

/-- First byte of a slot: A or B (R412). -/
def slotByte (slot : Nat) : Nat := 0x4000000 * (slot % 2)

/-! ### Header, table and signature -/

/-- SECTION_COUNT of the container at `b` (R415). -/
def FlashSt.sectionCount (f : FlashSt) (b : Nat) : Nat := f.le (b + 0x20) 2
/-- TOTAL_LEN (R415). -/
def FlashSt.totalLen (f : FlashSt) (b : Nat) : Nat := f.le (b + 0x10) 8
/-- SEQUENCE (R415). -/
def FlashSt.sequence (f : FlashSt) (b : Nat) : Nat := f.le (b + 0x18) 8
/-- End of the section table, where the signature block starts (R416). -/
def FlashSt.tableEnd (f : FlashSt) (b : Nat) : Nat := 128 + 80 * f.sectionCount b

/-- MAGIC, FORMAT and the lengths are valid (R413, R415). -/
def FlashSt.headerOk (f : FlashSt) (b : Nat) : Bool :=
  f.le b 8 == 0x313053424E4D4C50 && f.le (b + 8) 2 == 1 && f.le (b + 0x0C) 4 == 128 && f.le (b + 0x24) 4 == 128
    && decide (3 ≤ f.sectionCount b ∧ f.sectionCount b ≤ 1024)
    && decide (f.totalLen b ≤ 0x4000000 ∧ f.tableEnd b + 256 ≤ f.totalLen b)

/-- Entry `i` of the section table (R416). -/
def FlashSt.entry (f : FlashSt) (b i : Nat) : Section :=
  let e := b + 128 + 80 * i
  { id := f.le e 2, scope := f.le (e + 2) 1, index := f.le (e + 3) 1, flags := f.le (e + 4) 4
    offset := f.le (e + 8) 4, length := f.le (e + 0x0C) 4, digest := f.bytes (e + 0x10) 48 }

/-- The section table (R416). -/
def FlashSt.table (f : FlashSt) (b : Nat) : List Section := (List.range (f.sectionCount b)).map (f.entry b)

/-- The bit-stream digest: SHA-384 of the signed region (R416). -/
def FlashSt.signedDigest (f : FlashSt) (b : Nat) : List Byte := sha384 (f.bytes b (f.tableEnd b))

/-- KEY_SLOT of the signature block (R421). -/
def FlashSt.keySlot (f : FlashSt) (b : Nat) : Nat := f.le (b + f.tableEnd b) 1

/-- Public key of the signature block (R421). -/
def FlashSt.pubKey (f : FlashSt) (b : Nat) : List Byte := f.bytes (b + f.tableEnd b + 0x10) 97

/-- An SEC1 uncompressed key verifies a signature over a digest (R421). -/
def keyVerifies (key digest sig : List Byte) : Bool :=
  key.headD 0 == 4 && ecdsaOk (beNat ((key.drop 1).take 48)) (beNat ((key.drop 49).take 48)) digest
    (beNat (sig.take 48)) (beNat ((sig.drop 48).take 48))

/-- The signature of the container verifies (R421). -/
def FlashSt.sigOk (f : FlashSt) (b : Nat) : Bool :=
  f.le (b + f.tableEnd b + 1) 1 == 1
    && keyVerifies (f.pubKey b) (f.signedDigest b) (f.bytes (b + f.tableEnd b + 0x80) 96)

/-- The digest in a usable key slot (R421): fuse slots 0 to 3, Selvedge slots 4 to 11 as the copy of wing `w` holds
them. -/
def State.keyDigest (s : State) (w : Fin 2) (k : Nat) : Option (List Byte) :=
  if k < 4 then
    if bitOf s.fuses.revoked k then none else s.fuses.keyDigests[k]?
  else if k < 12 then
    let l := s.keyRecord (atriumTile w) k
    if bitOf (l.headD 0).toNat 0 then some ((l.drop 2).flatMap fun x => bytesOf 8 x.toNat) else none
  else none

/-- A public key is trusted through a slot (R421). -/
def State.keyTrusted (s : State) (w : Fin 2) (k : Nat) (key : List Byte) : Bool := s.keyDigest w k == some (sha384 key)

/-! ### Sections -/

/-- The tiles of a TILE_COUNT, as a mask (R13). -/
def tileSet (count : Nat) : Nat := if count = 2 then 0x11 else if count = 4 then 0x33 else if count = 6 then 0x77 else 0xFF

/-- The strapped tile count (R409, R410). -/
def strapTiles (strap : Nat) : Nat := 2 + 2 * bitsOf strap 1 0

/-- The scope that an identifier of R417 has; none for an unknown one. -/
def sectionScope (id : Nat) : Option Nat :=
  if id = 1 ∨ id = 2 ∨ id = 3 then some 0
  else if id = 0x10 then some 1
  else if 0x20 ≤ id ∧ id ≤ 0x24 then some 2
  else if id = 0x30 then some 3
  else none

/-- The tile that a section belongs to (R416); none for package and image scope. -/
def Section.tile? (x : Section) : Option Nat :=
  if x.scope = 1 then some x.index else if x.scope = 2 then some (x.index / 4) else none

/-- A section that is ignored (R418): its tile is not enabled, or it is unknown and optional. -/
def Section.ignored (x : Section) (tiles : Nat) : Bool :=
  (match x.tile? with | some t => !bitOf tiles t | none => false) || ((sectionScope x.id).isNone && bitOf x.flags 0)

/-- Places of the bodies (R416): on multiples of 64, after the signature block, within TOTAL_LEN, without overlap. -/
def bodiesOk (start total : Nat) (l : List Section) : Bool :=
  l.all (fun x => x.offset % 64 == 0 && decide (start ≤ x.offset ∧ x.offset + x.length ≤ total))
    && l.zipIdx.all fun a => l.zipIdx.all fun b =>
      a.2 == b.2 || decide (a.1.offset + a.1.length ≤ b.1.offset ∨ b.1.offset + b.1.length ≤ a.1.offset
        ∨ a.1.length = 0 ∨ b.1.length = 0)

/-- The body of a section. -/
def FlashSt.body (f : FlashSt) (b : Nat) (x : Section) : List Byte := f.bytes (b + x.offset) x.length

/-- The body matches its digest (R416). -/
def FlashSt.bodyOk (f : FlashSt) (b : Nat) (x : Section) : Bool := sha384 (f.body b x) == x.digest

/-- The sections with an identifier and an index. -/
def sectionsOf (l : List Section) (id index : Nat) : List Section := l.filter fun x => x.id == id && x.index == index

/-- The entries of a register list (R417). -/
def regList : List Byte → List (Nat × Nat)
  | b0 :: b1 :: b2 :: b3 :: b4 :: b5 :: b6 :: b7 :: l => (ofBytes [b0, b1, b2, b3], ofBytes [b4, b5, b6, b7]) :: regList l
  | _ => []

/-- A register list names RW fields of its scope only (R417, R418): a tile's for PORTS, a head's for CALDEF. -/
def regListOk (scope index : Nat) (l : List Byte) : Bool :=
  l.length % 8 == 0 && (regList l).all fun e =>
    let p := placeOf e.1
    hasRw p.fields && e.1 % 4 == 0 && (match p with
      | .head h _ => if scope = 2 then h.val == index else scope == 1 && h.val / 4 == index
      | .tile t _ => scope == 1 && t.val == index
      | _ => false)

/-- Bytes of the image of a section, where it has one (R417, R509). -/
def imageBytes (id : Nat) : Nat :=
  match id with
  | 0x20 => 131584
  | 0x21 => 313344
  | 0x22 => 262144
  | 0x23 => 384 + 147456 + 3072 + 4116
  | 0x24 => 4352 + 8192
  | _ => 0

/-- The set entry number `n` of a SETS body (R301). -/
def setDefOf (l : List Byte) (n : Nat) : SetDef :=
  let e := (l.drop (96 * n)).take 96
  { n := infoField e 0 1, home := infoField e 1 1, gather := bitOf (infoField e 2 1) 0, vba := bitOf (infoField e 2 1) 1
    jbase := infoField e 4 4, jwords := infoField e 8 4, mapBase := infoField e 12 4, mapSize := infoField e 16 4
    uid := infoField e 32 16, heads := (List.range (infoField e 0 1)).map fun m => infoField e (48 + m) 1 }

/-- Two spans overlap. -/
def overlaps (a n b m : Nat) : Bool := decide (a < b + m ∧ b < a + n)

/-- The set entries are accepted (R301). -/
def setsOk (tiles : Nat) (l : List SetDef) : Bool :=
  let used := l.filter fun d => d.n != 0
  let heads := used.flatMap (·.heads)
  used.all (fun d => decide (4 ≤ d.n ∧ d.n ≤ 32) && decide (d.home < 8) && bitOf tiles d.home
      && decide (d.jbase + d.jwords ≤ 1441792)
      && decide (d.mapBase * 4096 + d.mapSize * 4096 ≤ stackSize)
      && (!d.local || (d.heads.headD 0 < 16) == (decide (d.home < 4))))
    && heads.all (fun h => decide (h < 32) && bitOf tiles (h / 4))
    && heads.all (fun h => heads.count h == 1)
    && used.zipIdx.all fun a => used.zipIdx.all fun b =>
      a.2 == b.2 || !(a.1.home == b.1.home || a.1.home == b.1.home ^^^ 4)
        || !overlaps a.1.jbase a.1.jwords b.1.jbase b.1.jwords

/-- The entries of a LIMITS body (R420). -/
def limitsOf : Nat → List Byte → List Limit
  | 0, _ => []
  | n + 1, l => { addr := infoField l 0 4, lsb := infoField l 4 1, width := infoField l 5 1, min := infoField l 8 4
                  max := infoField l 12 4 } :: limitsOf n (l.drop 16)

/-- The address by which LIMITS names a head field: that of head 0 of tile 0 (R420). -/
def limitAddr (f : Fld) : Nat := 0x10400000 + f.off

/-- An entry names a field. -/
def Limit.names (l : Limit) (f : Fld) : Bool := l.addr == limitAddr f && l.lsb == f.lsb && l.width == f.width

/-- Every field that must have an entry has one, no other field has one, and none has two (R420). -/
def limitsListed (l : List Limit) : Bool :=
  limitFields.all (fun e => (l.filter (·.names e.1)).length == 1) && l.length == limitFields.length

/-- The bounds are in range (R420). -/
def limitsInRange (l : List Limit) : Bool :=
  l.all fun x => decide (x.min ≤ x.max) && limitFields.all fun e => !x.names e.1 || decide (x.max ≤ e.2)

/-- LIMITS is well formed (R418, R420). -/
def limitsBody (l : List Byte) : Bool :=
  l.length % 16 == 0 && (List.range (l.length / 16)).all (fun i => infoField l (16 * i + 6) 2 == 0)
    && limitsListed (limitsOf (l.length / 16) l)

/-! ### Loops (R42, R194, R210) -/

/-- A word of the topology. -/
def topoWord (l : List Byte) (n k : Nat) : Nat := infoField l (16 * n + 4 * k) 4

/-- A reserved source or destination (R194, R197, R204). -/
def topoReserved (n w : Nat) : Bool :=
  let kind := bitsOf w 11 10
  let i := bitsOf w 16 12
  decide (14 ≤ bitsOf w 4 0) || (kind == 0 && !([0, 1, 2, 3, 7].contains i)) || (kind == 1 && (decide (24 ≤ i) || i == n))
    || (kind == 2 && decide (4 ≤ i))

/-- A loop entry is accepted (R42, R194). -/
def topoEntryOk (l : List Byte) (n : Nat) : Bool :=
  let w := topoWord l n 0
  let nsec := bitsOf w 8 5
  nsec == 0 || (decide (nsec ≤ 8) && !topoReserved n w
    && (bitOf w 9 || (topoWord l n 1 != 0 && topoWord l n 1 % 100 == 0 && topoWord l n 2 % 100 == 0)))

/-- Two loops of a head name one ACT output or one head sink (R194). -/
def topoShared (l : List Byte) : Bool :=
  let dests := (List.range 24).filterMap fun n =>
    let w := topoWord l n 0
    if bitsOf w 8 5 = 0 ∨ bitsOf w 10 10 = 1 then none else some (bitsOf w 16 10)
  dests.any fun d => decide (1 < dests.count d)

/-- The schedule that runs in a head's slot 0 once its CALDEF section is loaded: SLOT0_SCHED as the register list leaves it,
or its reset value (DEDUCED, log entry 141). -/
def slot0Of (caldef : List Byte) : Nat :=
  (regList (caldef.drop (imageBytes 0x24))).foldl (fun k e => match placeOf e.1 with
    | .head _ off => if off = 0x10028 then bitsOf e.2 21 16 else k
    | _ => k) 0

/-- LOOP_SAMPLE entries of loop `n` in the slot 0 schedule, number `d` of a SCHEDULES image; one with TARGET 33 counts as
32 (R55, R210). -/
def sampleEntries (sched : List Byte) (d n : Nat) : Nat :=
  let w := infoField sched (8 * d) 8
  ((List.range (bitsOf w 30 16)).map fun i =>
    let e := infoField sched (0x200 + 8 * (bitsOf w 13 0 + i)) 8
    if entryType e = 8 ∧ bitsOf (entryArg e) 4 0 = n then (if entryTarget e = 33 then 32 else 1) else 0).foldl (· + ·) 0

/-- The load of a head's loops in CORE cycles per microsecond, as numerator and denominator (R210); `d` is its slot 0
schedule. -/
def loopLoad (topo sched : List Byte) (d : Nat) : Nat × Nat :=
  (List.range 24).foldl (fun (r : Nat × Nat) n =>
    let w := topoWord topo n 0
    let nsec := bitsOf w 8 5
    if nsec = 0 then r
    else
      let (a, b) := if bitOf w 9 then ((nsec + 3) * sampleEntries sched d n * 2, 10000) else ((nsec + 3) * 1000, topoWord topo n 1)
      (r.1 * b + a * r.2, r.2 * b)) (0, 1)

/-- The sum of two fractions. -/
def addFrac (x y : Nat × Nat) : Nat × Nat := (x.1 * y.2 + y.1 * x.2, x.2 * y.2)

/-! ### All checks -/

/-- The heads of a tile mask. -/
def headsOfTiles (tiles : Nat) : List Nat := (List.range 32).filter fun h => bitOf tiles (h / 4)

/-- The tiles of a mask. -/
def tilesOfMask (tiles : Nat) : List Nat := (List.range 8).filter fun t => bitOf tiles t

/-- A section's own body checks (R417 to R419), sections ignored left out. -/
def FlashSt.sectionOk (f : FlashSt) (b : Nat) (x : Section) : Bool :=
  let l := f.body b x
  match sectionScope x.id with
  | none => false
  | some sc =>
    x.scope == sc && decide (x.index < (if sc = 0 then 1 else if sc = 2 then 32 else 8)) && (match x.id with
      | 1 => l.length == 64
      | 2 => l.length == 768
      | 3 => l.length % 16 == 0
      | 0x10 => regListOk 1 x.index l
      | 0x23 => l.length == imageBytes 0x23 && (List.range 24).all (topoEntryOk l) && !topoShared l
      | 0x24 => decide (imageBytes 0x24 ≤ l.length) && regListOk 2 x.index (l.drop (imageBytes 0x24))
      | 0x30 => decide (infoField l 4 4 + infoField l 0x0C 4 ≤ 524288) && l.length == 64 + infoField l 0x0C 4
      | id => l.length == imageBytes id)

/-- Required sections stand once each (R418). -/
def requiredOk (l : List Section) (tiles : Nat) : Bool :=
  [1, 2, 3].all (fun id => (l.filter fun x => x.id == id).length == 1)
    && (tilesOfMask tiles).all (fun t => (sectionsOf l 0x10 t).length == 1)
    && (headsOfTiles tiles).all fun h => [0x20, 0x21, 0x22, 0x23, 0x24].all fun id => (sectionsOf l id h).length == 1

/-- The one section with an identifier and an index, as a body. -/
def FlashSt.bodyOf (f : FlashSt) (b : Nat) (l : List Section) (id index : Nat) : List Byte :=
  match (sectionsOf l id index).head? with
  | some x => f.body b x
  | none => []

/-- The load limit of every tile (R210). -/
def FlashSt.loadOk (f : FlashSt) (b : Nat) (l : List Section) (tiles : Nat) : Bool :=
  (tilesOfMask tiles).all fun t =>
    let r := (List.range 4).foldl (fun r k =>
      addFrac r (loopLoad (f.bodyOf b l 0x23 (4 * t + k)) (f.bodyOf b l 0x20 (4 * t + k))
        (slot0Of (f.bodyOf b l 0x24 (4 * t + k))))) (0, 1)
    decide (r.1 ≤ 800 * r.2)

/-- Every core of an enabled tile is the target of exactly one image, and no image number stands twice (R419). -/
def FlashSt.imagesOk (f : FlashSt) (b : Nat) (l : List Section) (tiles : Nat) : Bool :=
  let images := l.filter fun x => x.id == 0x30
  (List.range 8).all (fun i => decide ((images.filter fun x => x.index == i).length ≤ 1))
    && (tilesOfMask tiles).all fun t => (List.range 2).all fun c =>
      (images.filter fun x => bitOf (f.le (b + x.offset) 1) t && bitOf (f.le (b + x.offset + 1) 1) c).length == 1

/-- TILE_COUNT (R417). -/
def FlashSt.tileCount (f : FlashSt) (b : Nat) : Nat := (f.bodyOf b (f.table b) 1 0).headD 0 |>.toNat

/-- BOOT_CODE of the sections of a container whose signature holds (R410, R413, R416 to R420). -/
def FlashSt.sectionsCode (f : FlashSt) (b strap : Nat) : Nat :=
  let l := f.table b
  if !bodiesOk (f.tableEnd b + 256) (f.totalLen b) l then 7
  else if (sectionsOf l 1 0).length ≠ 1 then 7
  else if !((sectionsOf l 1 0).all (f.bodyOk b)) then 6
  else
    let count := f.tileCount b
    if !(([2, 4, 6, 8] : List Nat).contains count) then 7
    else if strapTiles strap < count then 8
    else
      let tiles := tileSet count
      let live : List Section := l.filter fun x => !x.ignored tiles
      if !live.all (f.bodyOk b) then 6
      else if !live.all (f.sectionOk b) || !requiredOk live tiles
        || !setsOk tiles ((List.range 8).map (setDefOf (f.bodyOf b live 2 0)))
        || !f.loadOk b live tiles || !f.imagesOk b live tiles || !limitsBody (f.bodyOf b live 3 0) then 7
      else
        let lim := f.bodyOf b live 3 0
        if limitsInRange (limitsOf (lim.length / 16) lim) then 0 else 9

/-- BOOT_CODE of a container (R413, R415 to R422), in the order: flash, header, PART, key, signature, rollback,
sections. -/
def State.checkImage (s : State) (w : Fin 2) (fl : Fin 2) (slot strap : Nat) : Nat :=
  let f := s.flash fl
  let b := slotByte slot
  if !f.present then 12
  else if !f.headerOk b then 1
  else if f.le (b + 0x0A) 2 ≠ 0x8512 then 5
  else if !s.keyTrusted w (f.keySlot b) (f.pubKey b) then 3
  else if !f.sigOk b then 2
  else if f.sequence b < s.pr w BootReg.MIN_SEQ_LO + 2 ^ 32 * s.pr w BootReg.MIN_SEQ_HI then 4
  else f.sectionsCode b strap

/-- What the check of a container reads of the Selvedge store: the record of the key slot that it names (R421, R435). -/
def State.noteCheck (w : Fin 2) (fl : Fin 2) (slot : Nat) (s : State) : State :=
  let f := s.flash fl
  let b := slotByte slot
  let k := f.keySlot b
  if f.present && f.headerOk b && f.le (b + 0x0A) 2 == 0x8512 && decide (4 ≤ k ∧ k < 12) then
    s.noteWords (atriumTile w) (keyWord k) 8
  else s

end Sys2Proof.Machine
end

