-- ==== Sys2Proof/Machine/Keys.lean ====
section
/-! DEFINITION. Key updates (R423), the flash controllers (R436, R493), and the persistent registers that firmware writes
(R422, R427, R438). -/

namespace Sys2Proof.Machine

/-! ### Key updates -/

/-- A stack of an Atrium tile can be read. -/
def State.stackUp (s : State) (t : Fin 8) : Bool := !s.asleep t && !(s.tile t).heat.heavyOff

/-- Tile of the buffer of flash `f`, and of KEY_STACK (R423, R436). -/
def bufferTile (f : Fin 2) : Fin 8 := atriumTile f

/-- The format of a key update is right (R423). -/
def updateFormed (l : List Byte) : Bool :=
  let op := infoField l 4 1
  let slot := infoField l 5 1
  infoField l 0 4 == 0x554B4C50 && decide (1 ≤ op ∧ op ≤ 3)
    && (if op = 3 then decide (slot ≤ 3) else decide (4 ≤ slot ∧ slot ≤ 11)) && decide (infoField l 6 1 ≤ 3)
    && infoField l 7 1 == 0 && infoField l 0x0C 4 == 0 && infoField l 0xB1 15 == 0 && (op == 1 || infoField l 0x20 48 == 0)

/-- KEY_STATUS of a key update that comes from the lease-holding wing `w` (R423). -/
def State.updateStatus (s : State) (w : Fin 2) (l : List Byte) : Nat :=
  let signer := infoField l 6 1
  let key := (l.drop 0x50).take 97
  let device := (List.range 4).flatMap fun i => bytesOf 4 (s.pr w (IdReg.DEVICE_ID i))
  if !updateFormed l then 1
  else if (l.drop 0x10).take 16 ≠ device then 2
  else if infoField l 8 4 ≤ s.pr w BootReg.KEY_SEQ then 3
  else if !s.keyTrusted w signer key || (infoField l 4 1 == 3 && infoField l 5 1 == signer) then 4
  else if !keyVerifies key (sha384 (l.take 0xC0)) ((l.drop 0xC0).take 96) then 5
  else 0

/-- The words of a key slot record (R423). -/
def keyRecordWords (valid slot seq : Nat) (digest : List Byte) : List DWord :=
  let l := bytesOf 8 (valid + slot * 2 ^ 8) ++ bytesOf 8 seq ++ digest
  (List.range 8).map fun i => BitVec.ofNat 64 (infoField l (8 * i) 8)

/-- A key slot record is written in tiles 0 and 4, and during a split in the wing's own tile (R423, R448). -/
def State.putKey (w : Fin 2) (slot : Nat) (ws : List DWord) (s : State) : State :=
  if s.split then s.selvWrites (atriumTile w) (keyWord slot) ws
  else (s.selvWrites 0 (keyWord slot) ws).selvWrites 4 (keyWord slot) ws

/-- An update that passes takes effect, and KEY_SEQ takes its value (R423). -/
def State.applyUpdate (w : Fin 2) (l : List Byte) (s : State) : State :=
  let op := infoField l 4 1
  let slot := infoField l 5 1
  let seq := infoField l 8 4
  let s :=
    if op = 1 then s.putKey w slot (keyRecordWords 1 slot seq ((l.drop 0x20).take 48))
    else if op = 2 then s.putKey w slot (keyRecordWords 0 slot seq (List.replicate 48 0))
    else { s with fuses := { s.fuses with revoked := s.fuses.revoked ||| 2 ^ slot } }
  s.pw w BootReg.KEY_SEQ seq

/-- KEY_GO (R423), written by requester `q`. An update whose records the store refuses is reported as not done (R432), under a
status that no rule names (log entry 112). -/
def State.keyGo (q : Req) (s : State) : State :=
  let w := s.copyOf q
  let refuse (k : Nat) (s : State) : State := (s.pw w BootReg.KEY_STATUS k).pset w BootReg.KEY_REFUSED
  if !s.allowed q then refuse 6 s
  else
    let t := bufferTile (if s.pr w BootReg.KEY_STACK = 1 then 1 else 0)
    let a := 64 * s.pr w BootReg.KEY_ADDR
    if !s.stackUp t || !inStaging a 288 || s.stackUe t a 288 then refuse 1 (s.stackTouch t a 288 .other)
    else
      let l := s.stackBytes t a 288
      let s := s.stackTouch t a 288 .other
      let k := s.updateStatus w l
      if k ≠ 0 then refuse k s
      else if s.storeRefuses then (refuse (1 + Config.freeValue s.freeCount % 6) (s.pset w BootReg.SELV_REFUSED)).takeFree
      else ((s.applyUpdate w l).pw w BootReg.KEY_STATUS 0).pset w BootReg.KEY_DONE

/-! ### The flash controllers -/

/-- Bytes are programmed: a page program of a NOR flash clears bits and sets none (R436, R493; PRESUMED, log entry
90). -/
def FlashSt.program (f : FlashSt) (a : Nat) : List Byte → FlashSt
  | [] => f
  | b :: l => FlashSt.program { f with mem := f.mem.raw8 a (f.mem.read8 a ||| (b ^^^ 0xFF)) } (a + 1) l

/-- Bytes are erased (R436). -/
def FlashSt.erase (f : FlashSt) (a n : Nat) : FlashSt :=
  { f with mem := { f.mem with cells := f.mem.cells.filter fun c => decide (c.1 < a ∨ a + n ≤ c.1) } }

/-- A field of a flash controller. -/
def State.flr (s : State) (w : Fin 2) (f : Fin 2) (g : Nat → Fld) : Nat := s.pr w (g f.val)

/-- Bytes of each boot flash (R412, R493). -/
def flashBytes : Nat := 0x8000000

/-- The active slot of a flash (R438). -/
def State.activeSlot (s : State) (w : Fin 2) (f : Fin 2) : Nat :=
  s.pr w (if f = 0 then BootReg.ACTIVE_SLOT_0 else BootReg.ACTIVE_SLOT_1)

/-- FL_STATUS of an operation that is refused (R436, R439); 0 for one that starts. -/
def State.flashRefusal (s : State) (q : Req) (f : Fin 2) : Nat :=
  let w := s.copyOf q
  let a := s.flr w f FlashReg.FL_ADDR
  let n := s.flr w f FlashReg.FL_LEN
  let op := s.flr w f FlashReg.FL_OP
  let buf := 64 * s.flr w f FlashReg.FL_BUF
  let active := slotByte (s.activeSlot w f)
  if !s.allowed q then 5
  else if (s.flash f).bootRead then 2
  else if op = 3 then (if a = 0 ∨ a = 0x4000000 then 0 else 3)
  else if flashBytes < a + n then 3
  else if op ≠ 2 ∧ !inStaging buf n then 3
  else if op = 1 ∧ (n % 256 ≠ 0 ∨ a % 256 ≠ 0) then 3
  else if op = 2 ∧ (n % 65536 ≠ 0 ∨ a % 65536 ≠ 0) then 3
  else if op ≠ 0 ∧ a < active + 0x4000000 ∧ active < a + n then 4
  else 0

/-- The copies that show an operation of a flash under way (R436, R439). -/
def State.flashShown (s : State) (f : Fin 2) (w : Fin 2) : Bool := s.flr w f FlashReg.FL_BUSY == 1

/-- A field of a flash controller takes a value in every copy that shows the running operation. -/
def State.flShow (f : Fin 2) (g : Nat → Fld) (v : Nat) (s : State) : State :=
  bothWings.foldl (fun (s : State) (w : Fin 2) => if s.flashShown f w then s.onAtrium w (·.w (g f.val) v) else s) s

/-- MEM_RANGE of a buffer that would touch the shadow of its stack (R367). -/
def State.flashRange (w : Fin 2) (f : Fin 2) (s : State) : State :=
  let n := s.flr w f FlashReg.FL_LEN
  let buf := 64 * s.flr w f FlashReg.FL_BUF
  if s.flr w f FlashReg.FL_OP ≤ 1 ∧ !inStaging buf n ∧ s.stackUp (bufferTile f) then
    s.onTile (bufferTile f) (·.flag ProtReg.MEM_RANGE)
  else s

/-- FL_GO (R436): the operation starts, or is refused. While one runs FL_GO has no further effect. -/
def State.flGo (q : Req) (f : Fin 2) (s : State) : State :=
  let w := s.copyOf q
  if (s.flash f).started.isSome then s
  else
    let k := s.flashRefusal q f
    if k ≠ 0 then (if k = 3 then s.flashRange w f else s).pw w (FlashReg.FL_STATUS f.val) k
    else
      let op := s.flr w f FlashReg.FL_OP
      let a := s.flr w f FlashReg.FL_ADDR
      let n := s.flr w f FlashReg.FL_LEN
      let buf := 64 * s.flr w f FlashReg.FL_BUF
      let now := s.cycle
      ((s.pw w (FlashReg.FL_BUSY f.val) 1).pw w (FlashReg.FL_GO f.val) 1).onFlash f
        fun x => { x with started := some now, op := op, wing := w, addr := a, len := n, buf := buf }

/-- A running operation ends with a status (R439), in every copy that shows it. -/
def State.flEnd (f : Fin 2) (status : Nat) (s : State) : State :=
  let s := (s.flShow f FlashReg.FL_STATUS status).flShow f FlashReg.FL_GO 0
  (s.onFlash f fun x => { x with started := none }).flShow f FlashReg.FL_BUSY 0

/-- What a completed operation does (R436). -/
def State.flDone (f : Fin 2) (s : State) : State :=
  let t := bufferTile f
  let a := (s.flash f).addr
  let n := (s.flash f).len
  let buf := (s.flash f).buf
  let bad := (s.flash f).op ≤ 1 && (!s.stackUp t || ((s.flash f).op == 1 && s.stackUe t buf n))
  if bad then (if s.stackUp t then s.stackTouch t buf n .other else s).flEnd f 1
  else
    match (s.flash f).op with
    | 0 => (s.stackWrite t buf ((s.flash f).bytes a n)).flEnd f 0
    | 1 =>
      let l := s.stackBytes t buf n
      ((s.stackTouch t buf n .other).onFlash f fun x => x.program a l).flEnd f 0
    | 2 => (s.onFlash f fun x => x.erase a n).flEnd f 0
    | _ =>
      let w := (s.flash f).wing
      let code := s.checkImage w f (a / 0x4000000) 3
      ((s.noteCheck w f (a / 0x4000000)).flShow f FlashReg.VERIFY_CODE code).flEnd f 0

/-- FLASH_OP_COMPLETE (R436): `ok` says that the flash reported no error. -/
def execFlashOpComplete (wait : Nat) (f : Fin 2) (ok : Bool) (s : State) : Out :=
  s.after wait (fun s => (s.flash f).started.isSome) fun s => if ok then s.flDone f else s.flEnd f 1

/-- FLASH_TIMEOUT (R493): 5 s without completion. -/
def execFlashTimeout (wait : Nat) (f : Fin 2) (s : State) : Out :=
  s.after wait (fun s => match (s.flash f).started with
    | none => false
    | some c => s.since c (5000 * (1000 * cyclesPerUs))) (State.flEnd f 1)

/-! ### Persistent registers that firmware writes -/

/-- A write of a persistent register is refused (R422, R427, R444). -/
def State.persistRefuse (w : Fin 2) (s : State) : State := s.pset w BootReg.PERSIST_REFUSED

/-- The highest BOOT_COUNT held in the copy of wing `w` (R427). -/
def State.highestHeld (s : State) (w : Fin 2) : Nat :=
  match (s.tile (atriumTile w)).selv.newestEntry with
  | some e => entryCount e
  | none => 0

/-- A write of BR_ACK is right (R427). -/
def State.brAckOk (s : State) (q : Req) (v : Nat) : Bool :=
  s.allowed q && decide (s.pr (s.copyOf q) BootReg.BR_ACK ≤ v ∧ v ≤ s.highestHeld (s.copyOf q))

/-- A write of BR_ACK (R427), for which the boot record is read (R435). -/
def State.writeBrAck (q : Req) (v : Nat) (s : State) : State :=
  let w := s.copyOf q
  let ok := s.brAckOk q v
  let s := if s.allowed q then s.noteRecordRead (atriumTile w) else s
  if ok then s.pw w BootReg.BR_ACK v else s.persistRefuse w

/-- A write of one word of MIN_SEQ is right (R422): the 64-bit value neither falls nor passes SEQUENCE of the running
bit-stream. -/
def State.minSeqOk (s : State) (q : Req) (hi : Bool) (v : Nat) : Bool :=
  let w := s.copyOf q
  let lo := s.pr w BootReg.MIN_SEQ_LO
  let up := s.pr w BootReg.MIN_SEQ_HI
  let new := if hi then lo + 2 ^ 32 * v else v + 2 ^ 32 * up
  let seq := s.pr w BootReg.SEQ_LO + 2 ^ 32 * s.pr w BootReg.SEQ_HI
  s.allowed q && decide (lo + 2 ^ 32 * up ≤ new ∧ new ≤ seq)

/-- A write of one word of MIN_SEQ (R422). -/
def State.writeMinSeq (q : Req) (hi : Bool) (v : Nat) (s : State) : State :=
  let w := s.copyOf q
  if s.minSeqOk q hi v then s.pw w (if hi then BootReg.MIN_SEQ_HI else BootReg.MIN_SEQ_LO) v else s.persistRefuse w

/-- A write of ACTIVE_SLOT_0, ACTIVE_SLOT_1 and RECORD_POLICY, which stand in one word (R438, R444). -/
def State.writeSlots (q : Req) (v : Nat) (s : State) : State :=
  let w := s.copyOf q
  if s.allowed q then
    if s.storeRefuses then s.pset w BootReg.SELV_REFUSED
    else (s.onPkg w fun rf => ((rf.wr BootReg.ACTIVE_SLOT_0 v).wr BootReg.ACTIVE_SLOT_1 (v / 2)).wr
      BootReg.RECORD_POLICY (v / 4)).keepPkg w 0x220
  else s.persistRefuse w

end Sys2Proof.Machine
end

