-- ==== Sys2Proof/Machine/Flags.lean ====
section
/-! DEFINITION. The flags of the block as its interrupt sources gather them (R397). Each flag is set by the operation whose
rule names it; a write of 1 clears it (storeField, R4). -/

namespace Sys2Proof.Machine

/-- A W1C flag of a list of fields is 1 (R397). -/
def RegFile.anyFlag (rf : RegFile) (fs : List Fld) : Bool := fs.any fun f => f.acc = .w1c && rf.flag f

/-- Interrupt source `n` of a tile is asserted (R397). -/
def State.irqSource (s : State) (t : Fin 8) (n : Nat) : Bool :=
  let x := s.tile t
  let h (l : Nat) : RegFile := (s.head (headOf t ⟨l % 4, by omega⟩)).regs
  if n < 4 then (h n).anyFlag (RiserReg.all ++ AngleReg.all ++ LandReg.all ++ LoopReg.all)
      || (s.head (headOf t (localHeads.getD n 0))).angle.markPend
  else if n < 8 then (h n).anyFlag (BeamReg.all ++ WeftReg.all ++ WriteReg.all)
  else if n < 12 then (h n).anyFlag (SpinReg.all ++ StepReg.all ++ CalReg.all)
  else if n = 12 then x.regs.anyFlag BoltReg.all
  else if n = 13 then x.regs.anyFlag (PortReg.one 0)
  else if n = 14 then x.regs.anyFlag (PortReg.one 1)
  else if n = 15 then x.regs.anyFlag LockReg.all
  else if n = 16 then x.regs.anyFlag ProtReg.all
  else if n = 17 then (List.range 8).any fun c => x.b (DmaReg.IRQ_EN c) && x.regs.anyFlag (DmaReg.one c)
  else if n = 18 then x.regs.anyFlag HeatReg.all
  else if n = 19 then x.regs.anyFlag (LinkReg.all ++ TimeReg.all)
  else if n = 20 then (s.atrium (wingOf t)).regs.anyFlag (SetReg.all ++ HostReg.all ++ AuthReg.all ++ EvReg.all)
  else if n = 21 then x.b (GalReg.DB 0)
  else if n = 22 then x.b (GalReg.DB 1)
  else if n = 23 then x.b GalReg.BUS_ERR
  else false

/-- IRQ_PEND (R397, R408). -/
def State.irqPend (s : State) (t : Fin 8) : Nat :=
  (List.range 24).foldl (fun m n => m + (if s.irqSource t n then 2 ^ n else 0)) 0

end Sys2Proof.Machine
end

