-- ==== Sys2Proof/Machine/Cache.lean ====
section
/-! DEFINITION. The caches of the Gallery cores (R398 to R407) and the physical map (R394). Cache `k` of core `c` is 0 for
instructions and 1 for data. -/

namespace Sys2Proof.Machine

/-! ### Reaching cores and caches -/

/-- A core. -/
def Tile.core (x : Tile) (c : Fin 2) : CoreSt := x.cores[c]

/-- A core is changed. -/
def State.onCore (s : State) (t : Fin 8) (c : Fin 2) (f : CoreSt → CoreSt) : State :=
  s.onTile t fun x => { x with cores := x.cores.set c (f (x.core c)) }

/-- A cache. -/
def State.cache (s : State) (t : Fin 8) (c k : Fin 2) : CacheSt :=
  let x := (s.tile t).core c
  if k = 0 then x.icache else x.dcache

/-- A cache is changed. -/
def State.onCache (s : State) (t : Fin 8) (c k : Fin 2) (f : CacheSt → CacheSt) : State :=
  s.onCore t c fun x => if k = 0 then { x with icache := f x.icache } else { x with dcache := f x.dcache }

/-- Number of a cache's registers in its tile (R408). -/
def cacheNo (c k : Fin 2) : Nat := 2 * c.val + k.val

/-- A core runs: released, and its tile neither in reset nor powered off. -/
def State.coreRuns (s : State) (t : Fin 8) (c : Fin 2) : Bool :=
  !(s.tile t).inReset && !(s.tile t).heat.heavyOff && ((s.tile t).core c).running

/-! ### The physical map -/

/-- A region of the physical map (R394). -/
inductive Region where
  | tcm (core : Fin 2) (off : Nat)
  | regs (addr : Nat)
  | stack (tile : Fin 8) (off : Nat)
  | hole
deriving DecidableEq, Repr

/-- The region of a physical address, for core `c` (R394). -/
def State.region (s : State) (c : Fin 2) (a : Nat) : Region :=
  if a < 0x80000 then .tcm c a
  else if a < 0x100000 then .tcm (otherWing c) (a - 0x80000)
  else if 0x100000000 ≤ a ∧ a < 0x200000000 then .regs (a - 0x100000000)
  else if 0x4000000000 ≤ a ∧ a < 0x8000000000 then
    let t := toTile ((a - 0x4000000000) / 0x800000000)
    let off := (a - 0x4000000000) % 0x800000000
    if s.tileEnabled t && decide (off < stackSize) then .stack t off else .hole
  else .hole

/-- The stack of a tile is reached from a tile (R27). -/
def State.stackReached (s : State) (t x : Fin 8) : Bool :=
  s.reaches t x && !(s.tile x).inReset && !(s.tile x).heat.heavyOff

/-- Bytes of a stack are read by a core (R380): the bytes, or the detail code of the fault (R395). -/
def State.coreRead (t x : Fin 8) (off n : Nat) (src : UeSrc) (s : State) : Sum (List Byte) Nat × State :=
  if !s.stackReached t x then (.inr 3, s.sendPacket t x vcRequest 1)
  else
    let bad := inStaging off n && s.stackUe x off n
    let l := s.stackBytes x off n
    let s := (s.askData t x 1).stackTouch x off n src
    (if bad then .inr 2 else .inl l, s)

/-- A line, given by its physical address / 64, is fetched from memory (R402). -/
def State.fetchLine (t : Fin 8) (c : Fin 2) (line : Nat) (src : UeSrc) (s : State) : Sum (List Byte) Nat × State :=
  match s.region c (64 * line) with
  | .stack x off => s.coreRead t x off 64 src
  | _ => (.inr 6, s)

/-! ### Lines -/

/-- A line as a fill brings it, with its CRC-16 (R374). -/
def CLine.filled (tag : Nat) (data : List Byte) : CLine := { CLine.reset with tag := tag, data := data, crc := crc16 data }

/-- The check of a line on a hit (R374). -/
def CLine.crcOk (l : CLine) : Bool := crc16 l.data == l.crc

/-- Set index of a line (R398). -/
def lineSet (line : Nat) : Nat :=
  line % 128 ^^^ line / 128 % 128 ^^^ line / 2 ^ 14 % 128 ^^^ line / 2 ^ 21 % 128 ^^^ line / 2 ^ 28 % 128

/-- The entry of a line among the ways. -/
def CacheSt.find (x : CacheSt) (line : Nat) : Option (Nat × Nat × CLine) := x.ways.find? fun e => e.2.2.tag == line

/-- A line leaves the ways. -/
def CacheSt.dropWay (x : CacheSt) (line : Nat) : CacheSt := { x with ways := x.ways.filter fun e => e.2.2.tag != line }

/-- A line is nowhere in the cache, its victim cache and its side buffer. -/
def CacheSt.lacks (x : CacheSt) (line : Nat) : Bool :=
  (x.find line).isNone && !x.victims.any (·.tag == line) && !x.side.any (·.tag == line)

/-- The way that a fill takes at a set (R398): the lowest invalid unlocked one, or the least recently used unlocked one. -/
def CacheSt.fillsWay (x : CacheSt) (locked set : Nat) : Nat :=
  let free := [0, 1, 2, 3].filter fun w => !bitOf locked w
  let at_ (w : Nat) : Option CLine := (x.ways.find? fun e => e.1 == set && e.2.1 == w).map (·.2.2)
  match free.find? fun w => (at_ w).isNone with
  | some w => w
  | none =>
    let age (w : Nat) : Nat := match at_ w with | some l => l.used | none => 0
    free.foldl (fun b w => if age w < age b then w else b) (free.headD 3)

/-- A line is put into a way of its set; what stood there comes back. -/
def CacheSt.place (x : CacheSt) (w : Nat) (l : CLine) : CacheSt × Option CLine :=
  let set := lineSet l.tag
  let old := (x.ways.find? fun e => e.1 == set && e.2.1 == w).map (·.2.2)
  ({ x with ways := (set, w, { l with used := x.clock }) :: x.ways.filter fun e => !(e.1 == set && e.2.1 == w) }, old)

/-- A line evicted by replacement enters the victim cache (R400). -/
def CacheSt.evict (x : CacheSt) (o : Option CLine) : CacheSt :=
  match o with
  | none => x
  | some l => { x with victims := (x.victims ++ [l]).drop ((x.victims.length + 1) - 8) }

/-- A line is installed under R398, and what it displaces enters the victim cache. -/
def CacheSt.install (x : CacheSt) (locked : Nat) (l : CLine) : CacheSt :=
  let r := x.place (x.fillsWay locked (lineSet l.tag)) l
  r.1.evict r.2

/-- A recall (R400): the victim line is installed and the line it displaces takes its entry. -/
def CacheSt.recall (x : CacheSt) (locked : Nat) (l : CLine) : CacheSt :=
  let r := x.place (x.fillsWay locked (lineSet l.tag)) l
  { r.1 with victims := r.1.victims.flatMap fun v => if v.tag = l.tag then r.2.toList else [v] }

/-- The bytes of a line are those of a number. -/
def lineBytes (l : CLine) (a n : Nat) : Nat := infoField l.data (a % 64) n

/-- A store changes a line and its CRC-16 (R374, R399). -/
def CLine.store (l : CLine) (a n v : Nat) : CLine :=
  let d := putBytes l.data (a % 64) (bytesOf n v)
  { l with data := d, crc := crc16 d }

/-- Stores that the core still buffers lie over a line of its data cache that is fetched (R399). -/
def CoreSt.overlay (x : CoreSt) (k : Fin 2) (line : Nat) (data : List Byte) : List Byte :=
  if k = 0 then data
  else x.buffer.foldl (fun d b => if b.addr / 64 = line then putBytes d (b.addr % 64) (bytesOf b.size b.value) else d) data

/-- The cache serves lookups (R406): enabled, or still draining. -/
def Tile.cacheOn (x : Tile) (c k : Fin 2) : Bool :=
  x.b (CacheReg.CACHE_EN (cacheNo c k)) || x.b (CacheReg.DRAINING (cacheNo c k))

/-- What a lookup gives: the bytes as a number, or a miss, which may have to refill a locked way. -/
inductive Lookup where
  | hit (v : Nat)
  | miss (way : Option Nat)
deriving DecidableEq, Repr

/-- A line whose CRC-16 fails (R374): counted as correctable, and CRC_REFETCH set. -/
def State.badLine (t : Fin 8) (c k : Fin 2) (line : Nat) (s : State) : State :=
  s.onTile t fun x => (x.flag (CacheReg.CRC_REFETCH (cacheNo c k))).noteCe .cache (64 * line)

/-- A read looks a line up (R374, R398 to R401). -/
def State.lookup (t : Fin 8) (c k : Fin 2) (a n : Nat) (s : State) : Lookup × State :=
  let j := cacheNo c k
  let line := a / 64
  let locked := (s.tile t).r (CacheReg.LOCK_WAYS j)
  let s := s.onCache t c k fun x => { x with clock := x.clock + 1 }
  let bump (f : Nat → Fld) (s : State) : State := s.onTile t (·.bump (f j) 1)
  let x := s.cache t c k
  match x.find line with
  | some (set, w, l) =>
    if l.crcOk then
      (.hit (lineBytes l a n), bump CacheReg.HITS (s.onCache t c k fun x => { x with
        ways := x.ways.map fun e => if e.1 = set ∧ e.2.1 = w then (set, w, { l with used := x.clock }) else e }))
    else (.miss (if bitOf locked w then some w else none),
      bump CacheReg.MISSES ((s.onCache t c k (·.dropWay line)).badLine t c k line))
  | none =>
    match x.side.find? (·.tag == line) with
    | some l =>
      let s := s.onCache t c k fun x => { x with side := x.side.filter (·.tag != line) }
      if l.crcOk then
        (.hit (lineBytes l a n), bump CacheReg.PREFETCH_USED (bump CacheReg.HITS (s.onCache t c k (·.install locked l))))
      else (.miss none, bump CacheReg.MISSES (s.badLine t c k line))
    | none =>
      match x.victims.find? (·.tag == line) with
      | some l =>
        let s := bump CacheReg.MISSES s
        if l.crcOk then
          (.hit (lineBytes l a n), bump CacheReg.VICTIM_RECALLS (s.onCache t c k (·.recall locked l)))
        else (.miss none, (s.onCache t c k fun x => { x with victims := x.victims.filter (·.tag != line) }).badLine t c k line)
      | none => (.miss none, bump CacheReg.MISSES s)

/-- A line in a locked way that failed its check is refetched into the same way (R374); where it cannot be fetched the entry
stays invalid. -/
def State.refetch (t : Fin 8) (c k : Fin 2) (w line : Nat) (s : State) : State :=
  match s.fetchLine t c line (if k = 0 then .fetch else .load) with
  | (.inl d, s) => s.onCache t c k fun x => (x.place w (.filled line (((s.tile t).core c).overlay k line d))).1
  | (.inr _, s) => s

/-- A store meets the data cache (R374, R399): a hit updates the line, and a line whose CRC fails is invalidated, or
refetched where its way is locked. -/
def State.storeHit (t : Fin 8) (c : Fin 2) (a n v : Nat) (s : State) : State :=
  let line := a / 64
  if !(s.tile t).cacheOn c 1 then s
  else
    let x := s.cache t c 1
    match x.find line with
    | some (_, w, l) =>
      if l.crcOk then
        s.onCache t c 1 fun x => { x with ways := x.ways.map fun e =>
          if e.2.2.tag = line then (e.1, e.2.1, e.2.2.store a n v) else e }
      else
        let s := (s.onCache t c 1 (·.dropWay line)).badLine t c 1 line
        if bitOf ((s.tile t).r (CacheReg.LOCK_WAYS (cacheNo c 1))) w then s.refetch t c 1 w line else s
    | none =>
      let bad := (x.victims ++ x.side).filter fun l => l.tag == line && !l.crcOk
      let up (l : CLine) : List CLine :=
        if l.tag = line then (if l.crcOk then [l.store a n v] else []) else [l]
      let s := s.onCache t c 1 fun x => { x with victims := x.victims.flatMap up, side := x.side.flatMap up }
      bad.foldl (fun s _ => s.badLine t c 1 line) s

/-! ### Operations -/

/-- Lines that meet a range. -/
def rangeLines (a n : Nat) : List Nat := if n = 0 then [] else (List.range ((a + n - 1) / 64 - a / 64 + 1)).map (a / 64 + ·)

/-- A line meets a range. -/
def meets (a n line : Nat) : Bool := decide (n ≠ 0 ∧ a / 64 ≤ line ∧ line ≤ (a + n - 1) / 64)

/-- A range invalidation (R405, R407). -/
def CacheSt.invalidate (x : CacheSt) (a n : Nat) : CacheSt :=
  { x with
    ways := x.ways.filter fun e => !meets a n e.2.2.tag
    victims := x.victims.filter fun l => !meets a n l.tag
    side := x.side.filter fun l => !meets a n l.tag
    prefetch := x.prefetch.filter fun l => !meets a n l
    fillInv := x.fillInv || (match x.fill with | some l => meets a n l | none => false) }

/-- Every entry is invalidated (R406). -/
def CacheSt.clear (x : CacheSt) : CacheSt :=
  { x with ways := [], victims := [], side := [], prefetch := [], fillInv := x.fillInv || x.fill.isSome }

/-- FENCE.I in an instruction cache (R403): lines of unlocked ways, the victim cache and the side buffer go. -/
def CacheSt.fenceI (x : CacheSt) (locked : Nat) : CacheSt :=
  { x with ways := x.ways.filter fun e => bitOf locked e.2.1, victims := [], side := [], prefetch := []
           fillInv := x.fillInv || x.fill.isSome }

/-- The oldest waiting operation of a cache runs where it can (R404 to R407): none while a lock-load runs, and CACHE_EN = 0
once the write buffer is empty. -/
def State.cacheOp (t : Fin 8) (c k : Fin 2) (s : State) : State :=
  let j := cacheNo c k
  let x := s.cache t c k
  if x.ll.isSome then s
  else
    match x.ops with
    | [] => s
    | (kind, a, n, w) :: l =>
      let pop (s : State) : State := s.onCache t c k fun x => { x with ops := l }
      if kind = 0 then ((pop s).onCache t c k (·.invalidate a n)).onTile t (·.flag (CacheReg.INV_DONE j))
      else if kind = 1 then
        (pop s).onCache t c k fun x => { x with ll := some (w, a / 64, (a + n - 1) / 64) }
      else if ((s.tile t).core c).buffer.isEmpty then
        ((pop s).onCache t c k (·.clear)).onTile t (·.w (CacheReg.DRAINING j) 0)
      else s

/-- Waiting operations of a cache run, one at a time, in order of writing (R407). -/
def State.cacheOps (t : Fin 8) (c k : Fin 2) (s : State) : State :=
  (s.cache t c k).ops.foldl (fun s _ => s.cacheOp t c k) s

/-- An operation is written. -/
def State.cacheQueue (t : Fin 8) (c k : Fin 2) (kind way : Nat) (s : State) : State :=
  let j := cacheNo c k
  let x := s.tile t
  let a := x.r (CacheReg.RANGE_LO j) + x.r (CacheReg.RANGE_HI j) * 2 ^ 32
  let s := s.onCache t c k fun y => { y with ops := y.ops ++ [(kind, a, x.r (CacheReg.RANGE_LEN j), way)] }
  (if kind = 2 then s.onTile t (·.flag (CacheReg.DRAINING j)) else s).cacheOps t c k

/-- INV_GO and LL_GO (R404, R405, R407). -/
def State.cacheGo (t : Fin 8) (c k : Fin 2) (inv ll : Bool) (s : State) : State :=
  let j := cacheNo c k
  let x := s.tile t
  let way := x.r (CacheReg.LL_WAY j)
  if inv && ll then s.onTile t (·.flag (CacheReg.LL_REFUSED j))
  else if inv then s.cacheQueue t c k 0 0
  else if ll then
    if way = 3 ∨ !bitOf (x.r (CacheReg.LOCK_WAYS j)) way ∨ x.r (CacheReg.RANGE_LEN j) = 0 then
      s.onTile t (·.flag (CacheReg.LL_REFUSED j))
    else s.cacheQueue t c k 1 way
  else s

/-- A write of CACHE_EN = 0 (R406). -/
def State.cacheOff (t : Fin 8) (c k : Fin 2) (s : State) : State := s.cacheQueue t c k 2 0

/-- A line leaves the cache, its victim cache and its side buffer. -/
def CacheSt.dropLine (x : CacheSt) (line : Nat) : CacheSt :=
  let x := x.dropWay line
  { x with victims := x.victims.filter (·.tag != line), side := x.side.filter (·.tag != line) }

/-- One line of a lock-load is fetched into its way (R404); `seen` holds the sets filled before. A miss to the line that is
outstanding installs it no second time, and a line whose fetch fails stands nowhere in the cache. -/
def State.lockLine (t : Fin 8) (c k : Fin 2) (w line : Nat) (r : List Nat × State) : List Nat × State :=
  let (seen, s) := r
  let j := cacheNo c k
  let set := lineSet line
  let s := if seen.contains set then s.onTile t (·.flag (CacheReg.LL_CONFLICT j)) else s
  match s.fetchLine t c line (if k = 0 then .fetch else .load) with
  | (.inl l, s) =>
    let s := s.onCache t c k fun x =>
      let p := (x.dropLine line).place w (.filled line l)
      let y := p.1.evict p.2
      { y with fillInv := y.fillInv || y.fill == some line }
    (seen ++ [set], s.onTile t (·.bump (CacheReg.LL_LINES j) 1))
  | (.inr _, s) =>
    let s := s.onCache t c k fun x =>
      let y := x.dropLine line
      { y with ways := y.ways.filter (fun e => !(e.1 == set && e.2.1 == w)), fillInv := y.fillInv || y.fill == some line }
    (seen ++ [set], s.onTile t (·.bump (CacheReg.LL_FAIL j) 1))

/-- The running lock-load ends (R404). -/
def State.lockLoad (t : Fin 8) (c k : Fin 2) (s : State) : State :=
  match (s.cache t c k).ll with
  | none => s
  | some (w, first, last) =>
    let j := cacheNo c k
    let s := s.onTile t fun x => (x.w (CacheReg.LL_LINES j) 0).w (CacheReg.LL_FAIL j) 0
    let lines := (List.range (last + 1 - first)).map (first + ·)
    let s := (lines.foldl (fun r l => State.lockLine t c k w l r) (([] : List Nat), s)).2
    ((s.onCache t c k fun x => { x with ll := none }).onTile t (·.flag (CacheReg.LL_DONE j))).cacheOps t c k

/-- LL_DONE (R404): the lock-load's fetches finish, once the write buffer holds no store to its lines. -/
def execLlDone (wait : Nat) (t : Fin 8) (c k : Fin 2) (s : State) : Out :=
  s.after wait (fun s => s.coreRuns t c && (match (s.cache t c k).ll with
    | none => false
    | some (_, first, last) => !((s.tile t).core c).buffer.any fun b =>
        decide (b.addr < 64 * last + 64 ∧ 64 * first < b.addr + b.size))) (State.lockLoad t c k)

/-- PREFETCH_FILL (R401): the oldest prefetch completes into the side buffer, or is discarded. -/
def execPrefetchFill (wait : Nat) (t : Fin 8) (c k : Fin 2) (s : State) : Out :=
  s.after wait (fun s => s.coreRuns t c && !(s.cache t c k).prefetch.isEmpty) fun s =>
    match (s.cache t c k).prefetch with
    | [] => s
    | line :: l =>
      let s := s.onCache t c k fun x => { x with prefetch := l }
      match s.fetchLine t c line .sideBuffer with
      | (.inr _, s) => s
      | (.inl d, s) =>
        if (s.cache t c k).lacks line then
          s.onCache t c k fun x => { x with
            side := (x.side ++ [CLine.filled line (((s.tile t).core c).overlay k line d)]).drop ((x.side.length + 1) - 4) }
        else s

end Sys2Proof.Machine
end

