-- ==== Sys2Proof/Machine/Fabric.lean ====
section
/-! DEFINITION. The Ethernet side of a fabric port (R361, R362, R364): its link, its buffers under priority flow control,
and the send rates of its queue pairs. -/

namespace Sys2Proof.Machine

/-- Lanes of a tile's port `l` at a cap step (R468). -/
def capLanes (step l : Nat) : Nat :=
  if l = 0 then (if step ≤ 3 then 8 else 4) else if step ≤ 2 then 8 else if step ≤ 5 then 4 else 0

/-- Lanes of a port in use (R468). -/
def State.portLanes (s : State) (p : Fin 16) : Nat := capLanes ((s.tile (portTile p)).r HeatReg.CAP_STEP) (p.val % 2)

/-- FABRIC_LINK_UP (R361): the link of an enabled port with lanes comes up. -/
def execFabricLinkUp (wait : Nat) (p : Fin 16) (s : State) : Out :=
  s.after wait (fun s => s.tileUp (portTile p) && s.tileEnabled (portTile p) && s.pb p PortReg.ENABLE
    && !s.pb p PortReg.LINK_UP && s.portLanes p != 0)
    fun s => (s.pput p PortReg.LINK_UP 1).refreshPorts

/-- The link of a port falls (R364). -/
def State.linkFalls (p : Fin 16) (s : State) : State :=
  if s.pb p PortReg.LINK_UP then
    (((s.pput p PortReg.LINK_UP 0).pflag p PortReg.LINK_DOWN).onPort p fun x => { x with paused := [none, none] }).refreshPorts
  else s

/-- FABRIC_LINK_DOWN (R364): the line falls, which a port in loopback does not hear (R409). -/
def execFabricLinkDown (wait : Nat) (p : Fin 16) (s : State) : Out :=
  s.after wait (fun s => s.pb p PortReg.LINK_UP && !s.portLooped p) (State.linkFalls p)

/-! ### Buffers -/

/-- Bytes of a lossless and of the lossy buffer (R362). -/
def losslessSize : Nat := 128 * 1024
/-- Bytes of the lossy buffer (R362). -/
def lossySize : Nat := 64 * 1024

/-- The lossless buffer of a priority, if it has one (R362). -/
def State.lossless (s : State) (p : Fin 16) (pri : Nat) : Option Nat :=
  if pri = s.pv p PortReg.LL_PRI0 then some 0 else if pri = s.pv p PortReg.LL_PRI1 then some 1 else none

/-- PAUSE is sent on a lossless priority whose free space lies below XOFF_THR, and released above XON_THR (R362). -/
def State.flowControl (p : Fin 16) (i : Nat) (s : State) : State :=
  let x := s.port p
  let free := losslessSize - x.rx.getD i 0
  let off := s.pv p PortReg.XOFF_THR
  let on_ := max (s.pv p PortReg.XON_THR) (off + 1)
  let sent := x.pauseSent.getD i false
  if !sent && s.pb p PortReg.PFC_EN && decide (free < off * 1024) then
    (s.onPort p fun x => { x with pauseSent := x.pauseSent.set i true }).pbump p PortReg.XOFF_SENT
  else if sent && decide (on_ * 1024 < free) then s.onPort p fun x => { x with pauseSent := x.pauseSent.set i false }
  else s

/-- The engine has taken bytes out of the buffers: two lossless ones and the lossy one. -/
def State.drain (p : Fin 16) (taken : List Nat) (s : State) : State :=
  let s := s.onPort p fun x => { x with
    rx := [x.rx.getD 0 0 - taken.getD 0 0, x.rx.getD 1 0 - taken.getD 1 0], rxLossy := x.rxLossy - taken.getD 2 0 }
  (s.flowControl p 0).flowControl p 1

/-- The link partner pauses or releases priorities (R362, R364). -/
def State.takePause (p : Fin 16) (l : List (Nat × Bool)) (s : State) : State :=
  l.foldl (fun s e => match s.lossless p e.1 with
    | none => s
    | some i =>
      if e.2 then
        (s.onPort p fun x => { x with paused := x.paused.set i (some (((x.paused.getD i none)).getD s.cycle)) }).pbump p
          PortReg.XOFF_RCVD
      else s.onPort p fun x => { x with paused := x.paused.set i none }) s

/-- A frame is dropped and counted (R362, R380). -/
def State.dropFrame (p : Fin 16) (s : State) : State := s.pbump p PortReg.RX_DROP_COUNT

/-- A frame of `len` bytes fits the buffer of its priority (R362). -/
def State.frameFits (s : State) (p : Fin 16) (pri len : Nat) : Bool :=
  let x := s.port p
  match s.lossless p pri with
  | some i => decide (x.rx.getD i 0 + len ≤ losslessSize)
  | none => decide (x.rxLossy + len ≤ lossySize)

/-- A frame that fits enters the buffer of its priority (R362). -/
def State.bufferFrame (p : Fin 16) (pri len : Nat) (s : State) : State :=
  match s.lossless p pri with
  | some i => (s.onPort p fun x => { x with rx := x.rx.set i (x.rx.getD i 0 + len) }).flowControl p i
  | none => s.onPort p fun x => { x with rxLossy := x.rxLossy + len }

/-- A frame is received (R362): flow control of the partner, congestion notifications both ways, and its buffer; one that
meets an uncorrectable error of the buffer is dropped (R380). -/
def State.receiveFrame (p : Fin 16) (f : FabricFrame) (s : State) : State :=
  let t := portTile p
  let s := s.drain p f.taken
  let s := match f.pause with
    | some l => if s.pb p PortReg.PFC_EN then s.takePause p l else s
    | none =>
      if f.bad then ((s.noteUe t .sram (sramAddr (0x34 + p.val % 2) 0) .fabricRx).dropFrame p)
      else if !s.frameFits p f.pri f.len then
        let s := s.dropFrame p
        if (s.lossless p f.pri).isSome then s else s.pflag p PortReg.RX_DROP
      else
        let s := s.bufferFrame p f.pri f.len
        let s := if f.ecn then s.pbump p PortReg.CNP_SENT else s
        match f.cnp with
        | some (c, q) => s.onQueue p c q fun k => { k with rate := k.rate / 2 }
        | none => s
  s.refreshPorts

/-- FABRIC_FRAME_RECEIVE (R362). -/
def execFabricFrameReceive (wait : Nat) (p : Fin 16) (f : FabricFrame) (s : State) : Out :=
  s.after wait (fun s => s.portRuns p) (State.receiveFrame p f)

/-- PFC_STORM (R364): a lossless priority has been paused for 100 ms without a break. -/
def execPfcStorm (wait : Nat) (p : Fin 16) (s : State) : Out :=
  s.after wait (fun s => s.tileUp (portTile p) && (s.port p).paused.any fun o => match o with
    | some c => s.since c (cyclesOfMs 100)
    | none => false) fun s => (s.pflag p PortReg.PFC_STORM).refreshPorts

/-- Every queue pair of a port recovers by RATE_STEP, up to the rate of its lanes (R362). -/
def State.recoverRates (p : Fin 16) (s : State) : State :=
  let step := s.pv p PortReg.RATE_STEP
  let line := s.portLanes p * 50000
  s.onPort p fun x => { x with
    rateAt := s.cycle
    ctrls := x.ctrls.map fun c => { c with queues := c.queues.map fun k => { k with rate := min line (k.rate + step) } } }

/-- RATE_RECOVERY (R362): every 50 µs. -/
def execRateRecovery (wait : Nat) (p : Fin 16) (s : State) : Out :=
  s.after wait (fun s => s.portRuns p && s.since (s.port p).rateAt (cyclesOfUs 50)) (State.recoverRates p)

/-! ### Capsules -/

/-- A capsule arrives in a queue, where its command is the row's. -/
def capsuleRow (ok : Capsule → Bool) (wait : Nat) (p : Fin 16) (q : Capsule) (s : State) : Out :=
  s.after wait (fun s => ok q && s.accepts p q) (State.submit p q)

/-- A Fabrics command of a type. -/
def Capsule.fabrics (ty : Nat) (q : Capsule) : Bool := q.opcode == 0x7F && q.fctype == ty
/-- An admin command. -/
def Capsule.admin (op : Nat) (q : Capsule) : Bool := q.qid == 0 && q.opcode == op
/-- An I/O command. -/
def Capsule.io (op : Nat) (q : Capsule) : Bool := q.qid != 0 && q.opcode == op

/-- CONNECT (R333). -/
def execConnect (wait : Nat) (p : Fin 16) (q : Capsule) (s : State) : Out :=
  s.after wait (fun s => Capsule.fabrics 0x01 q && s.portRuns p) (State.connect p q)
/-- PROPERTY_GET (R332). -/
def execPropertyGet (wait : Nat) (p : Fin 16) (q : Capsule) (s : State) : Out := capsuleRow (Capsule.fabrics 0x04) wait p q s
/-- PROPERTY_SET (R332). -/
def execPropertySet (wait : Nat) (p : Fin 16) (q : Capsule) (s : State) : Out := capsuleRow (Capsule.fabrics 0x00) wait p q s
/-- DISCONNECT (R332). -/
def execDisconnect (wait : Nat) (p : Fin 16) (q : Capsule) (s : State) : Out := capsuleRow (Capsule.fabrics 0x08) wait p q s
/-- GET_LOG_PAGE (R335). -/
def execGetLogPage (wait : Nat) (p : Fin 16) (q : Capsule) (s : State) : Out := capsuleRow (Capsule.admin 0x02) wait p q s
/-- IDENTIFY (R334). -/
def execIdentify (wait : Nat) (p : Fin 16) (q : Capsule) (s : State) : Out := capsuleRow (Capsule.admin 0x06) wait p q s
/-- NVME_ABORT (R353). -/
def execNvmeAbort (wait : Nat) (p : Fin 16) (q : Capsule) (s : State) : Out := capsuleRow (Capsule.admin 0x08) wait p q s
/-- SET_FEATURES (R336). -/
def execSetFeatures (wait : Nat) (p : Fin 16) (q : Capsule) (s : State) : Out := capsuleRow (Capsule.admin 0x09) wait p q s
/-- GET_FEATURES (R336). -/
def execGetFeatures (wait : Nat) (p : Fin 16) (q : Capsule) (s : State) : Out := capsuleRow (Capsule.admin 0x0A) wait p q s
/-- ASYNCHRONOUS_EVENT_REQUEST (R358). -/
def execAsynchronousEventRequest (wait : Nat) (p : Fin 16) (q : Capsule) (s : State) : Out :=
  capsuleRow (Capsule.admin 0x0C) wait p q s
/-- FIRMWARE_COMMIT (R334). -/
def execFirmwareCommit (wait : Nat) (p : Fin 16) (q : Capsule) (s : State) : Out := capsuleRow (Capsule.admin 0x10) wait p q s
/-- FIRMWARE_IMAGE_DOWNLOAD (R334). -/
def execFirmwareImageDownload (wait : Nat) (p : Fin 16) (q : Capsule) (s : State) : Out :=
  capsuleRow (Capsule.admin 0x11) wait p q s
/-- KEEP_ALIVE (R332). -/
def execKeepAlive (wait : Nat) (p : Fin 16) (q : Capsule) (s : State) : Out := capsuleRow (Capsule.admin 0x18) wait p q s
/-- FLUSH (R352). -/
def execFlush (wait : Nat) (p : Fin 16) (q : Capsule) (s : State) : Out := capsuleRow (Capsule.io 0x00) wait p q s
/-- NVME_WRITE (R344). -/
def execNvmeWrite (wait : Nat) (p : Fin 16) (q : Capsule) (s : State) : Out := capsuleRow (Capsule.io 0x01) wait p q s
/-- NVME_READ (R344). -/
def execNvmeRead (wait : Nat) (p : Fin 16) (q : Capsule) (s : State) : Out := capsuleRow (Capsule.io 0x02) wait p q s
/-- WRITE_ZEROES (R334). -/
def execWriteZeroes (wait : Nat) (p : Fin 16) (q : Capsule) (s : State) : Out := capsuleRow (Capsule.io 0x08) wait p q s
/-- NVME_VERIFY (R339). -/
def execNvmeVerify (wait : Nat) (p : Fin 16) (q : Capsule) (s : State) : Out := capsuleRow (Capsule.io 0x0C) wait p q s
/-- READ_VERSION (R340). -/
def execReadVersion (wait : Nat) (p : Fin 16) (q : Capsule) (s : State) : Out := capsuleRow (Capsule.io 0x86) wait p q s

/-- A command that the device does not support (R334). -/
def Capsule.unsupported (q : Capsule) : Bool :=
  if q.opcode = 0x7F then !(q.fctype == 0 || q.fctype == 1 || q.fctype == 4 || q.fctype == 8)
  else if q.qid = 0 then !adminOpcodes.contains q.opcode
  else !ioOpcodes.contains q.opcode

/-- INVALID_OPCODE (R334). -/
def execInvalidOpcode (wait : Nat) (p : Fin 16) (q : Capsule) (s : State) : Out := capsuleRow Capsule.unsupported wait p q s

end Sys2Proof.Machine
end

