-- ==== Sys2Proof/Machine/Memory.lean ====
section
/-! DEFINITION. Memory protection and DMA of a tile (14_memory_protection.md): the buckets and the log of correctable
errors, the CRC shadow at a boot, the soft repair list, and the eight DMA channels. -/

namespace Sys2Proof.Machine

/-! ### Correctable errors -/

/-- CE_LEAK (R379): at each multiple of 1 000 000 ns of the tile's package time. -/
def execCeLeak (wait : Nat) (t : Fin 8) (s : State) : Out :=
  s.after wait (fun s => !(s.tile t).inReset && (s.tile t).timeOn && decide ((s.tile t).leakMs < (s.tile t).leakNow))
    fun s => s.onTile t Tile.settleLeak

/-- A write of 1 to CE_OVF of the kinds whose bits are set clears their flags and buckets (R379). -/
def Tile.clearOvf (bits : Nat) (x : Tile) : Tile :=
  [MemKind.cache, MemKind.sram, MemKind.hbm].foldl (fun x k =>
    if bitOf bits k.code then (x.w k.ovf 0).w k.bucket 0 else x) x

/-- A write of LOG_CLR clears the entries whose bits are set (R378). -/
def Tile.clearLog (bits : Nat) (x : Tile) : Tile :=
  x.w ProtReg.LOG_VALID ((List.range 16).foldl (fun v i => if bitOf bits i then putBit v i false else v) (x.r ProtReg.LOG_VALID))

/-! ### Boot -/

/-- The whole shadow is written to zero (R372): no block is stamped or poisoned. -/
def Mem.zeroShadow (m : Mem) : Mem := { m with cells := m.cells.filter fun c => decide (c.1 < shadowBase) }

/-- Word of a repair entry in the Selvedge store (R430). -/
def repairWord (i : Nat) : Nat := 0x11000 / 8 + i % 64

/-- KIND of a repair entry (R383). -/
def repairKind (v : DWord) : Nat := bitsOf v.toNat 2 0

/-- The bank that a KIND 2 entry names: pseudo-channel, stack ID and bank (R383). -/
def repairBank (v : DWord) : Nat := bitsOf v.toNat 13 3

/-- The array that a KIND 1 entry names (R383). -/
def repairArray (v : DWord) : Nat := bitsOf v.toNat 10 3

/-- The row of a KIND 1 entry (R383). -/
def repairRow (v : DWord) : Nat := bitsOf v.toNat 26 11

/-- An entry can be applied after earlier ones (R383): a spare row of the array is left, or no row of the bank is repaired by
one of them. -/
def repairFits (t : Fin 8) (applied : List DWord) (v : DWord) : Bool :=
  if repairKind v = 1 then
    decide ((applied.filter fun w => repairKind w == 1 && repairArray w == repairArray v).length
      < Config.spareRows t.val (repairArray v))
  else
    repairKind v == 2 && !(applied.any fun w => repairKind w == 2 && repairBank w == repairBank v)

/-- The byte at a logged SRAM address (R378) stands in the row that a KIND 1 entry repairs. -/
def repairsSram (v : DWord) (addr : Nat) : Bool :=
  repairKind v == 1 && repairArray v == addr / 2 ^ 32 % 256
    && repairRow v == (Config.sramRow (addr / 2 ^ 32) (addr % 2 ^ 32)).toNat

/-- The 64-byte line of a stack stands in the row that a KIND 2 entry repairs. -/
def repairsLine (v : DWord) (line : Nat) : Bool :=
  repairKind v == 2 && bitsOf v.toNat 29 3 == (Config.hbmRow (64 * line)).toNat

/-- The upset bytes of an SRAM that stand in repaired rows are gone; `at_` gives the logged address of a byte. -/
def Mem.spare (l : List DWord) (at_ : Nat → Nat) (m : Mem) : Mem :=
  { m with flips := m.flips.filter fun e => !(l.any fun v => repairsSram v (at_ e.1)) }

/-- The upset lines of a stack that stand in repaired rows are gone. -/
def Mem.spareStack (l : List DWord) (m : Mem) : Mem :=
  let keep (w : Nat) : Bool := !(l.any fun v => repairsLine v w)
  { m with ce := m.ce.filter keep, ue := m.ue.filter keep }

/-- The rows of a head's memories that entries repair no longer err. -/
def Head.spareRows (l : List DWord) (h : Fin 4) (x : Head) : Head :=
  let f (sp : Nat) (m : Mem) : Mem := m.spare l (spaceAddr h sp)
  let x := { x with
    schedMem := f 0x01 x.schedMem, chanMem := f 0x02 x.chanMem, stratMem := f 0x03 x.stratMem, stratMap := f 0x04 x.stratMap
    cal := { x.cal with posMem := f 0x05 x.cal.posMem, jobMem := f 0x06 x.cal.jobMem, resultMem := f 0x07 x.cal.resultMem,
                        bufferMem := f 0x08 x.cal.bufferMem }
    loops := { x.loops with topoMem := f 0x0A x.loops.topoMem, setMem := f 0x0B x.loops.setMem, bankMem := f 0x0C x.loops.bankMem,
                            regionMem := f 0x0D x.loops.regionMem, stateMem := f 0x0E x.loops.stateMem, statMem := f 0x0F x.loops.statMem } }
  (List.range 33).foldl (fun x k => x.onBeam (toSampler k) fun b =>
    { b with stats := b.stats.spare l fun a => spaceAddr h 0x09 (64 * k + a) }) x

/-- Spare rows take the place of the repaired ones in a tile's arrays and stack (R382, R383): what failed there fails no
more. What a repaired row then holds is not the rule's concern: each of these memories is written before use. -/
def State.spareRows (t : Fin 8) (l : List DWord) (s : State) : State :=
  if l.isEmpty then s
  else
    let s := localHeads.foldl (fun s h => s.onHead (headOf t h) (Head.spareRows l h)) s
    s.onTile t fun x => { x with
      stack := x.stack.spareStack l
      lockMem := x.lockMem.spare l (sramAddr 0x32), journalBuf := x.journalBuf.spare l (sramAddr 0x31)
      cores := #v[{ x.cores[0] with tcm := x.cores[0].tcm.spare l (sramAddr 0) },
        { x.cores[1] with tcm := x.cores[1].tcm.spare l (sramAddr 1) }] }

/-- The entries of the factory fuse map for a tile, in the form of R383 (R382). -/
def Fuses.sparingOf (f : Fuses) (t : Fin 8) : List DWord :=
  (f.sparing.filter fun e => e.1 == t.val).map fun e => BitVec.ofNat 64 e.2

/-- The factory fuse map of a tile is applied, and its soft repair list after it (R382, R383). -/
def State.applyRepairs (t : Fin 8) (s : State) : State :=
  let s := (List.range 64).foldl (fun s i => s.noteSelvRead t (repairWord i)) s
  let l := ((List.range 64).map fun i => (s.tile t).selv.read (repairWord i)).filter fun v => repairKind v != 0
  let (ok, skipped) := l.foldl (fun (r : List DWord × Nat) v =>
    if repairFits t r.1 v then (r.1 ++ [v], r.2) else (r.1, r.2 + 1)) ([], 0)
  ((s.spareRows t (s.fuses.sparingOf t)).spareRows t ok).onTile t fun x =>
    let x : Tile := (x.w ProtReg.REPAIR_APPLIED ok.length).w ProtReg.REPAIR_SKIPPED skipped
    { x.flagIf (skipped != 0) ProtReg.REPAIR_CONFLICT with repairs := ok }

/-- A repair entry is well formed (R383, R384). -/
def repairValid (v : Nat) : Bool :=
  match bitsOf v 2 0 with
  | 0 => v == 0
  | 1 => decide (v < 2 ^ 27)
  | 2 => decide (v < 2 ^ 30)
  | _ => false

/-- REPAIR_ADD and REPAIR_DEL (R384, R389). -/
def State.repairGo (t : Fin 8) (add del : Bool) (s : State) : State :=
  let x := s.tile t
  let v := x.r ProtReg.REPAIR_LO + x.r ProtReg.REPAIR_HI * 2 ^ 32
  let w := repairWord (x.r ProtReg.REPAIR_IDX)
  if !add && !del then s
  else if (add && del) || (add && !repairValid v) then s.onTile t (·.flag ProtReg.REPAIR_REFUSED)
  else s.selvWrite t w (if add then BitVec.ofNat 64 v else 0)

/-! ### DMA -/

/-- A channel of a tile is changed. -/
def State.onDma (s : State) (t : Fin 8) (c : Fin 8) (f : DmaSt → DmaSt) : State :=
  s.onTile t fun x => { x with dma := x.dma.set c (f x.dma[c]) }

/-- GO (R387, R389): an idle channel starts its chain from HEAD. -/
def State.dmaGo (t : Fin 8) (c : Fin 8) (s : State) : State :=
  let x := s.tile t
  if x.b (DmaReg.HALTED c) || x.dma[c].active then s
  else
    let head := x.r (DmaReg.HEAD c)
    (s.onTile t fun x => (((x.w (DmaReg.STATE c) 1).w (DmaReg.STATUS c) 0).w (DmaReg.CUR_DESC c) head).w
      (DmaReg.BYTES_DONE c) 0).onDma t c fun _ => { DmaSt.reset with desc := head * 64, active := true }

/-- STOP (R391). -/
def State.dmaStop (t : Fin 8) (c : Fin 8) (s : State) : State :=
  if (s.tile t).dma[c].active then s.onDma t c fun d => { d with stop := some (d.stop.getD s.cycle) } else s

/-- A channel halts (R387). -/
def State.dmaHalt (t : Fin 8) (c : Fin 8) (status offset : Nat) (s : State) : State :=
  (s.onTile t fun x => (((x.w (DmaReg.STATE c) 2).w (DmaReg.STATUS c) status).w (DmaReg.FAIL_OFFSET c) offset).flag
    (DmaReg.HALTED c)).onDma t c fun d => { d with active := false, stop := none }

/-- MODE of a descriptor (R385). -/
def dmaMode (d : Nat) : Nat := bitsOf d 1 0
/-- LENGTH. -/
def dmaLength (d : Nat) : Nat := bitsOf d 63 32
/-- SRC. -/
def dmaSrc (d : Nat) : Nat := bitsOf d 127 64
/-- DST. -/
def dmaDst (d : Nat) : Nat := bitsOf d 191 128
/-- The FILL pattern. -/
def dmaFill (d : Nat) : Nat := bitsOf d 223 192

/-- Space of a memory address (R385). -/
def dmaSpace (a : Nat) : Nat := bitsOf a 47 44
/-- Byte offset of a memory address. -/
def dmaOffset (a : Nat) : Nat := bitsOf a 34 0
/-- Stack number of a memory address. -/
def dmaStack (a : Nat) : Fin 8 := toTile (bitsOf a 43 41)
/-- Core number of a memory address. -/
def dmaCore (a : Nat) : Fin 2 := if bitOf a 41 then 1 else 0

/-- Reserved bits and alignment of a memory address (R385). -/
def dmaAddrFormed (a unit : Nat) : Bool :=
  decide (a < 2 ^ 48) && bitsOf a 40 35 == 0 && (dmaSpace a != 1 || bitsOf a 43 42 == 0)
    && dmaOffset a % (if dmaSpace a = 0 then unit else 64) == 0

/-- A memory address and a length lie in their memory (R385, R367). -/
def dmaAddrIn (a n : Nat) : Bool :=
  match dmaSpace a with
  | 0 => inStaging (dmaOffset a) n
  | 1 => decide (dmaOffset a + n ≤ 524288)
  | _ => false

/-- The first check that a descriptor fails (R385, R387). -/
def dmaCheck (d : Nat) : Option Nat :=
  let m := dmaMode d
  let n := dmaLength d
  let src := m == 3 || dmaAddrFormed (dmaSrc d) (if m = 2 then 4096 else 64)
  let dst := dmaAddrFormed (dmaDst d) (if m = 1 ∨ m = 2 then 4096 else 64)
  if bitsOf d 31 4 ≠ 0 ∨ bitsOf d 255 224 ≠ 0 ∨ !src ∨ !dst then some 6
  else if n = 0 ∨ n % (if m = 1 ∨ m = 2 then 4096 else 64) ≠ 0 ∨ !dmaAddrIn (dmaDst d) n
    ∨ (m ≠ 3 ∧ !dmaAddrIn (dmaSrc d) n) then some 5
  else none

/-- The tile's channels reach a stack (R27). -/
def State.dmaReaches (s : State) (t x : Fin 8) : Bool :=
  s.reaches t x && !(s.tile x).inReset && !(s.tile x).heat.heavyOff

/-- 64 bytes are read for a channel (R380): the bytes, or the STATUS of the failure. -/
def State.dmaLine (t : Fin 8) (a off : Nat) (s : State) : Sum (List Byte) Nat × State :=
  let o := dmaOffset a + off
  if dmaSpace a = 1 then
    let c := dmaCore a
    let m := (s.tile t).cores[c].tcm
    (if m.bad o 64 then .inr 1 else .inl (m.readBytes o 64), s.noteSram t m o 64 (sramAddr c.val) .dma)
  else
    let x := dmaStack a
    if !s.dmaReaches t x then (.inr 7, s.sendPacket t x vcRequest 1)
    else
      let bad := s.stackUe x o 64
      let l := s.stackBytes x o 64
      let s := (s.askData t x 1).stackTouch x o 64 .dma
      (if bad then .inr 1 else .inl l, s)

/-- Lines are read in address order until one fails: the bytes before it, and the failure. -/
def State.dmaLines (t : Fin 8) (a off : Nat) : Nat → State → (List Byte × Option Nat) × State
  | 0, s => (([], none), s)
  | n + 1, s =>
    match s.dmaLine t a off with
    | (.inr e, s) => (([], some e), s)
    | (.inl l, s) =>
      let r := State.dmaLines t a (off + 64) n s
      ((l ++ r.1.1, r.1.2), r.2)

/-- Bytes are written for a channel; `stamp` for the modes that stamp (R369, R386). A STATUS where the stack is not
reached. -/
def State.dmaWrite (t : Fin 8) (a off : Nat) (l : List Byte) (stamp : Bool) (s : State) : Option Nat × State :=
  let o := dmaOffset a + off
  if dmaSpace a = 1 then
    let c := dmaCore a
    (none, s.onTile t fun x => { x with cores := x.cores.set c { x.cores[c] with tcm := x.cores[c].tcm.writeBytes o l } })
  else
    let x := dmaStack a
    if !s.dmaReaches t x then (some 7, s.sendPacket t x vcData 1)
    else
      let s := s.sendPacket t x vcData (l.length / 64)
      (none, if stamp then s.stackStamp x o l else s.stackWrite x o l)

/-- STATUS of a failed block check (R369, R387). -/
def BlockFail.dmaStatus : BlockFail → Nat
  | .ue => 1 | .crc => 2 | .unstamped => 3 | .poison => 4

/-- The unit of one turn: a 4 KiB block in GEN and CHECK, and otherwise a 64-byte line (R388). -/
def dmaUnit (d : Nat) : Nat := if dmaMode d = 1 ∨ dmaMode d = 2 then 4096 else 64

/-- What a unit's source gives: its bytes before the first failure, and that failure (R386, R387); in CHECK none of a block
that fails. -/
def State.dmaSource (t : Fin 8) (d off : Nat) (s : State) : (List Byte × Option Nat) × State :=
  let a := dmaSrc d
  if dmaMode d = 3 then (((List.replicate 16 (bytesOf 4 (dmaFill d))).flatten, none), s)
  else if dmaMode d = 2 ∧ dmaSpace a = 0 then
    let x := dmaStack a
    if !s.dmaReaches t x then (([], some 7), s.sendPacket t x vcRequest 1)
    else
      let (bad, s) := (s.askData t x 64).checkBlock x ((dmaOffset a + off) / 4096) .dma
      match bad with
      | some f => (([], some f.dmaStatus), s)
      | none => ((s.stackBytes x (dmaOffset a + off) 4096, none), s)
  else
    let r := s.dmaLines t a off (dmaUnit d / 64)
    (if dmaMode d = 2 ∧ r.1.2.isSome then ([], r.1.2) else r.1, r.2)

/-- A descriptor is complete (R385, R391): the next one follows, or the chain is done. -/
def State.dmaNext (t : Fin 8) (c : Fin 8) (d : Nat) (s : State) : State :=
  let s := s.onTile t fun x => x.flagIf (bitOf d 2) (DmaReg.DESC_IRQ c)
  if bitOf d 3 then
    (s.onTile t fun x => (x.w (DmaReg.STATE c) 0).flag (DmaReg.DONE c)).onDma t c fun x => { x with
      active := false, stop := none, taken := false }
  else
    let next := (s.tile t).dma[c].desc + 32
    (s.onTile t (·.w (DmaReg.CUR_DESC c) (next / 64))).onDma t c fun x => { x with desc := next, taken := false, done := 0 }

/-- MEM_RANGE of a base and length that would touch the shadow of a stack (R367). -/
def State.dmaRange (t : Fin 8) (a n : Nat) (s : State) : State :=
  if dmaSpace a = 0 ∧ !inStaging (dmaOffset a) n ∧ s.dmaReaches t (dmaStack a) then
    s.onTile (dmaStack a) (·.flag ProtReg.MEM_RANGE)
  else s

/-- The channel's descriptor is read and checked (R367, R385, R387). -/
def State.dmaTake (t : Fin 8) (c : Fin 8) (s : State) : State :=
  let a := (s.tile t).dma[c].desc
  let bad := inStaging a 32 && s.stackUe t a 32
  let d := s.stackLE t a 32
  let s := s.stackTouch t a 32 .dma
  if bad then s.dmaHalt t c 6 0
  else
    match dmaCheck d with
    | some st =>
      let s := if st = 5 then
          (if dmaMode d = 3 then s else s.dmaRange t (dmaSrc d) (dmaLength d)).dmaRange t (dmaDst d) (dmaLength d)
        else s
      s.dmaHalt t c st 0
    | none => s.onDma t c fun x => { x with taken := true, raw := d, done := 0 }

/-- One unit of the running descriptor is moved, or the channel halts (R387, R388). -/
def State.dmaMove (t : Fin 8) (c : Fin 8) (s : State) : State :=
  let x := (s.tile t).dma[c]
  let d := x.raw
  let ((l, fail), s) := s.dmaSource t d x.done
  let (lost, s) := if l.isEmpty then (none, s)
    else s.dmaWrite t (dmaDst d) x.done l ((dmaMode d == 1 || dmaMode d == 2) && fail.isNone)
  match lost, fail with
  | some st, _ => s.dmaHalt t c st x.done
  | none, some st => (s.onTile t (·.bump (DmaReg.BYTES_DONE c) l.length)).dmaHalt t c st (x.done + l.length)
  | none, none =>
    let done := x.done + l.length
    let s := (s.onTile t (·.bump (DmaReg.BYTES_DONE c) l.length)).onDma t c fun y => { y with done := done }
    if dmaLength d ≤ done then s.dmaNext t c d else s

/-- A channel can take its turn: a tripped tile takes no new descriptor (R463). -/
def Tile.dmaDue (x : Tile) (c : Fin 8) : Bool := x.dma[c].active && (x.dma[c].taken || x.dma[c].stop.isSome || x.heat.tripAt.isNone)

/-- The channel whose turn it is (R388). -/
def Tile.dmaTurn (x : Tile) : Option (Fin 8) :=
  ((List.range 8).map fun k => toTile (x.dmaLast + 1 + k)).find? x.dmaDue

/-- CORE cycles that `n` bytes take at the combined rate of the channels (R388, R467): DMA_BW × (8 − L) / 8 GB/s, a DMA_BW of
0 acting as 1. -/
def Tile.dmaCycles (x : Tile) (n : Nat) : Nat :=
  let rate := max 1 (x.r ProtReg.DMA_BW) * (8 - x.r HeatReg.THROT_LEVEL)
  (n * 8 * 16 + 10 * rate - 1) / (10 * rate)

/-- A block or a line is moved, and the next may follow when the combined rate allows it. -/
def State.dmaPaced (t : Fin 8) (c : Fin 8) (s : State) : State :=
  let n := dmaUnit (s.tile t).dma[c].raw
  (s.dmaMove t c).onTile t fun x => { x with dmaFree := s.cycle + x.dmaCycles n }

/-- STOP finds the last block or line of a descriptor in its own cycle (R389). -/
def DmaSt.lastNow (x : DmaSt) (cycle : Nat) : Bool :=
  x.stop == some cycle && x.taken && decide (dmaLength x.raw ≤ x.done + dmaUnit x.raw)

/-- The channel whose turn it is halts, or reads a descriptor where it needs one and moves a block or a line. -/
def State.dmaStep (t : Fin 8) (s : State) : State :=
  match (s.tile t).dmaTurn with
  | none => s
  | some c =>
    let s := s.onTile t fun x => { x with dmaLast := c.val }
    let x := (s.tile t).dma[c]
    if x.lastNow s.cycle then
      let s := s.dmaPaced t c
      if (s.tile t).dma[c].active then s.dmaHalt t c 8 0 else s
    else if x.stop.isSome then s.dmaHalt t c 8 (if x.taken then x.done else 0)
    else
      let s := if x.taken then s else s.dmaTake t c
      if (s.tile t).dma[c].active then s.dmaPaced t c else s

/-- DMA_TRANSFER (R388, R467). The rate is held from one block or line to the next (DESIGN CHOICE, log entry 138). -/
def execDmaTransfer (wait : Nat) (t : Fin 8) (s : State) : Out :=
  s.after wait (fun s => !(s.tile t).inReset && !(s.tile t).heat.heavyOff && (s.tile t).dmaTurn.isSome
    && decide ((s.tile t).dmaFree ≤ s.cycle)) (State.dmaStep t)

end Sys2Proof.Machine
end

