-- ==== Sys2Proof/Machine/Loop.lean ====
section
/-! DEFINITION. The loop engine (07_loop_engine.md): when a sample falls due, its inputs, one evaluation to the bit, and
its statistics. -/

namespace Sys2Proof.Machine

/-! ### Inputs -/

/-- IN_SRC of a loop (R194). -/
def Head.inSrc (x : Head) (n : Nat) : Nat := bitsOf (x.topo n) 4 0
/-- DEST_KIND of a loop (R194). -/
def Head.destKind (x : Head) (n : Nat) : Nat := bitsOf (x.topo n) 11 10
/-- DEST_INDEX of a loop (R194). -/
def Head.destIndex (x : Head) (n : Nat) : Nat := bitsOf (x.topo n) 16 12
/-- FF_SRC of a loop (R194). -/
def Head.ffSrc (x : Head) (n : Nat) : Nat := bitsOf (x.topo n) 18 17
/-- VNORM of a loop (R194). -/
def Head.vnorm (x : Head) (n : Nat) : Bool := bitOf (x.topo n) 19

/-- IN_AGE as it acts: 1 to 40 (R215). -/
def Head.inAge (x : Head) : Nat := max 1 (min 40 (x.r LoopReg.IN_AGE))

/-- FRAME_NUM of F_in of a sample due at `t` ns (R199). -/
def Head.frameIn (x : Head) (t : Nat) : Nat := (t - 100 * x.inAge) / 100

/-- The record kept of an upstream frame (R199). -/
def Head.servoRec (x : Head) (num : Nat) : Option ServoRec := x.loops.servo.find? fun r => decide (r.num = num)

/-- The servo fields that the Landing's sample at a due instant `t` ns of the focus loop uses (R199, R227): those of F_in, or
those of its previous sample. -/
def Head.servoTake (t : Nat) (x : Head) : Head :=
  match x.servoRec (x.frameIn t) with
  | some r => if r.good then { x with land := { x.land with servoLast := r.area } } else x
  | none => x

/-- A source that a frame carries or that is formed from one: all but 4 and 13 (R197, R199). -/
def frameSource (src : Nat) : Bool := decide (src < 13) && src != 4

/-- m of a source, from the record of F_in (R197). -/
def Head.sourceValue (x : Head) (src : Nat) (r : ServoRec) : Int :=
  match src with
  | 0 => srvFocusErr r.area * 2 ^ 16
  | 1 => srvFocusSum r.area * 2 ^ 15
  | 2 => srvTiltRad r.area * 2 ^ 16
  | 3 => srvTiltTan r.area * 2 ^ 16
  | 5 => x.ri SpinReg.I_D
  | 6 => x.ri SpinReg.I_Q
  | 7 => r.wm
  | 8 => srvSled r.area
  | 9 => srvSa r.area * 2 ^ 16
  | 10 => srvBus r.area * 2 ^ 15
  | 11 => r.dev
  | 12 => r.devSa
  | _ => 0

/-- The input of a sample of loop `n` due at `t` ns, and what R199 and R226 count for it: a stale input repeats the
previous one. -/
def Head.takeInput (n t : Nat) (x : Head) : Int × Head :=
  let src := x.inSrc n
  let prev := (lookupKey n x.loops.lastIn).getD 0
  let stale (x : Head) : Head := (x.bump LoopReg.STALE_COUNT 1).flag LoopReg.STALE
  if src = 4 then
    let seen := (lookupKey n x.loops.teUsed).getD 0
    let x' : Head := { x with loops := { x.loops with teUsed := insertKey n x.land.wedges x.loops.teUsed } }
    if x.land.wedges ≤ seen then (prev, stale x) else (x.land.teLast, x')
  else if frameSource src then
    match x.servoRec (x.frameIn t) with
    | none => (prev, (stale x).flag LoopReg.AGE_SHORT)
    | some r => if r.good then (x.sourceValue src r, x) else (prev, stale x)
  else (0, x)

/-- a_ff of a loop (R202). -/
def Head.feedForward (x : Head) (n : Nat) : Int :=
  match x.ffSrc n with
  | 1 => x.ri (StepReg.A_FF 0)
  | 2 => x.spin.aff
  | 3 => x.ri (StepReg.A_FF 1)
  | _ => 0

/-! ### A sample falls due -/

/-- A sample of loop `n` due at `t` ns lies in the span of a LOOP_GAIN job of that loop (R291). -/
def Head.gainLoop (x : Head) (n t : Nat) : Bool :=
  x.cal.kind == 3 && x.b CalReg.RUNNING && (x.cal.window || x.cal.closeTe.isSome) && x.jobLoop x.cal.job == n
    && x.inSpan ((160 * t : Nat) : Int)

/-- The injection applies to loop `n` now, and at which point (R209). -/
def Head.injectsAt (x : Head) (n : Nat) : Option Nat :=
  if x.b LoopReg.INJ_EN ∧ x.r LoopReg.INJ_LOOP = n then some (x.r LoopReg.INJ_POINT) else none

/-- The sample itself: queued for evaluation while the loop is ACTIVE, with the bank, input, feed-forward and injection (log
entry 126) of its due cycle; one missed only through hold or FREEZE is counted (R198, R206, R209). -/
def Head.queueSample (n t cycle : Nat) (x : Head) : Head :=
  if x.loopActive n then
    let bank := x.bankNow
    let ff := x.feedForward n
    let (m, x) := x.takeInput n t
    { x with loops := { x.loops with
      lastIn := insertKey n m x.loops.lastIn
      due := x.loops.due ++ [{ loop := n, time := t, cycle := cycle, bank := bank, input := m, ff := ff, inj := x.injectsAt n }] } }
  else
    let x := if x.gainLoop n t then { x with cal := { x.cal with excluded := x.cal.excluded + 1 } } else x
    if x.b (LoopReg.ENABLE n) then x.bump LoopReg.HELD_COUNT 1 else x

/-- The values of ACT 0 and ACT 1 that wait for a loop's sample are queued at its due instant, unless the loop is ACTIVE then
(R220). -/
def Head.sendWaiting (c : Ctx) (n t : Nat) (x : Head) : Head :=
  let mine (out : Nat) : Bool := (if out = 0 then x.r LandReg.FOCUS_LOOP else x.r LandReg.TRACK_LOOP) == n
  let x' := (x.land.acts.filter fun p => mine p.1).foldl (fun x p =>
    if x.loopActive n then x else x.act c .landing p.1 p.2 t n) x
  { x' with land := { x'.land with acts := x'.land.acts.filter fun p => !mine p.1 } }

/-- Everything that happens at a due instant `t` ns of loop `n`: the Landing's sweep, lock and jump work, the drive's
profile and currents, and the sample (R198, R227 to R229, R242, R245). -/
def Head.loopDue (c : Ctx) (n t cycle : Nat) (x : Head) : Head :=
  let x : Head := x.sendWaiting c n t
  let x : Head := if n = x.r LandReg.FOCUS_LOOP then
      let x : Head := x.servoTake t
      x.focusSample c t x.land.servoLast
    else x
  let x : Head := if n = x.r SpinReg.SPD_LOOP then x.speedSample c else x
  let x : Head := if n = x.r SpinReg.ID_LOOP ∨ n = x.r SpinReg.IQ_LOOP then
      (match x.servoRec (x.frameIn t) with
        | some r => if r.good then x.formCurrents r.area (100 * r.num) else x
        | none => x)
    else x
  let x : Head := if n = x.r SpinReg.IQ_LOOP then x.alignSample c t else x
  let x : Head := x.queueSample n t cycle
  if n = x.r LandReg.SA_LOOP then x.saSample ((lookupKey n x.loops.lastIn).getD 0) else x

/-- A TRIG = 0 loop has a due instant that has not been taken (R198). -/
def Head.loopIsDue (n : Nat) (c : Ctx) (x : Head) : Bool :=
  x.nsec n != 0 && !x.trig n && (x.dueAt n c.ns).isSome

/-- The due instant is taken (R198); its due cycle is the one in which package time reached it. -/
def Head.takeDue (n : Nat) (c : Ctx) (x : Head) : Head :=
  match x.dueAt n c.ns with
  | none => x
  | some t =>
    let x : Head := { x with loops := { x.loops with lastDue := insertKey n t x.loops.lastDue } }
    ((x.loopDue c n t (c.cycleAt (16 * t))).refreshMode.sampleBanks c).calSettle c

/-- LOOP_SAMPLE_DUE (R198). -/
def execLoopSampleDue (wait : Nat) (h : Fin 32) (n : Fin 24) (s : State) : Out :=
  s.liveAfter wait h (Head.loopIsDue n) (Head.takeDue n)

/-- A LOOP_SAMPLE event (R198): the loop falls due at the crossing time, or EVT_BAD is set. -/
def Head.loopEvent (c : Ctx) (n : Nat) (te : Int) (x : Head) : Head :=
  if 24 ≤ n ∨ x.nsec n = 0 ∨ ¬ x.trig n then x.flag LoopReg.EVT_BAD
  else (x.loopDue c n (te / 16).toNat c.cyc).refreshMode.sampleBanks c

/-! ### One evaluation -/

/-- A coefficient set as read at the start of an evaluation (R195). -/
def Head.setWord (x : Head) (set k : Nat) : Nat := x.loops.setMem.readLE (288 * set + 4 * k) 4
/-- A signed word of a coefficient set. -/
def Head.setInt (x : Head) (set k : Nat) : Int := signedOf 32 (x.setWord set k)

/-- What an evaluation counts beside its value: saturations, section clamps, output clamps. -/
structure EvalTally where
  sat : Nat
  sec : Nat
  out : Nat
deriving DecidableEq, Repr

/-- sat32, counted where it changes its argument (R193). -/
def satTally (v : Int) (e : EvalTally) : Int × EvalTally :=
  let w := sat32 v
  (w, if w = v then e else { e with sat := e.sat + 1 })

/-- A section's state: X1, X2, Y1, Y2 (R196). -/
def Head.sectionState (x : Head) (n k : Nat) : Int × Int × Int × Int :=
  let a := 128 * n + 16 * k
  (x.loops.stateMem.readS a 4, x.loops.stateMem.readS (a + 4) 4, x.loops.stateMem.readS (a + 8) 4,
   x.loops.stateMem.readS (a + 12) 4)

/-- One section (R200): its output, its new state, and the tally. -/
def Head.evalSection (h : Head) (set n k : Nat) (x : Int) (e : EvalTally) : Int × (Int × Int × Int × Int) × EvalTally :=
  let w := 8 + 8 * k
  let sh := h.setWord set (w + 5)
  let (x1, x2, y1, y2) := h.sectionState n k
  let acc := term (h.setInt set w) x (bitsOf sh 4 0) + term (h.setInt set (w + 1)) x1 (bitsOf sh 9 5)
    + term (h.setInt set (w + 2)) x2 (bitsOf sh 14 10) - term (h.setInt set (w + 3)) y1 (bitsOf sh 19 15)
    - term (h.setInt set (w + 4)) y2 (bitsOf sh 24 20)
  let (v, e) := satTally acc e
  let y := clampLow v (h.setInt set (w + 6)) (h.setInt set (w + 7))
  (y, (x, x1, y, y1), if y = v then e else { e with sec := e.sec + 1 })

/-- The sections from `k` on (R200): the last output, the new states in order, the tally. -/
def Head.evalSections (h : Head) (set n : Nat) : Nat → Nat → Int → EvalTally →
    Int × List (Int × Int × Int × Int) × EvalTally
  | 0, _, x, e => (x, [], e)
  | m + 1, k, x, e =>
    let (y, st, e) := h.evalSection set n k x e
    let (u, l, e) := h.evalSections set n m (k + 1) y e
    (u, st :: l, e)

/-- The injection of R291 at a due instant. -/
def Head.injection (x : Head) (t : Nat) : Int :=
  term (x.ri CalReg.INJ_AMP) (sine ((t * x.r CalReg.INJ_F) % 2 ^ 32 / 2 ^ 20)) 30

/-- What one evaluation gives (R200). -/
structure EvalOut where
  x0 : Int
  x1 : Int
  u : Int
  states : List (Int × Int × Int × Int)
  tally : EvalTally
deriving DecidableEq, Repr

/-- One loop sample is evaluated (R200). -/
def Head.evalLoop (h : Head) (d : LoopDue) (set : Nat) : EvalOut :=
  let e0 : EvalTally := ⟨0, 0, 0⟩
  let sh := h.setWord set 1
  let (e, t) := satTally (d.input - h.ri (LoopReg.LOOP_REF d.loop)) e0
  let (x0, t) := satTally (term (h.setInt set 0) e (bitsOf sh 4 0)) t
  let inj := h.injection d.time
  let (x1, t) := if d.inj = some 0 then satTally (x0 + inj) t else (x0, t)
  let (y, st, t) := h.evalSections set d.loop (h.nsec d.loop) 0 x1 t
  let acc := if h.ffSrc d.loop = 0 then y else y + term (h.setInt set 2) d.ff (bitsOf sh 9 5)
  let acc := if d.inj = some 1 then acc + inj else acc
  let (u, t) := satTally acc t
  let (u, t) := if h.vnorm d.loop then satTally (term (h.r LoopReg.K_V) u 16) t else (u, t)
  let v := clampLow u (h.setInt set 3) (h.setInt set 4)
  { x0 := x0, x1 := x1, u := v, states := st, tally := if v = u then t else { t with out := t.out + 1 } }

/-- The new states of a loop's sections are stored (R196, R200). -/
def storeSections (n : Nat) : Nat → List (Int × Int × Int × Int) → Mem → Mem
  | _, [], m => m
  | k, (a, b, c, d) :: l, m =>
    let p := 128 * n + 16 * k
    let m := (m.writeLE p 4 (unsignedOf 32 a)).writeLE (p + 4) 4 (unsignedOf 32 b)
    storeSections n (k + 1) l ((m.writeLE (p + 8) 4 (unsignedOf 32 c)).writeLE (p + 12) 4 (unsignedOf 32 d))

/-- The statistics of R213 take one evaluation. -/
def addStats (n : Nat) (x : Int) (t : EvalTally) (m : Mem) : Mem :=
  let p := 32 * n
  let sum := sat64 (m.readS (p + 4) 8 + x)
  let sq := min (m.readLE (p + 12) 8 + (x / 2 ^ 16).natAbs ^ 2) (2 ^ 64 - 1)
  let m := (m.writeLE p 4 (satAdd 32 (m.readLE p 4) 1)).writeLE (p + 4) 8 (unsignedOf 64 sum)
  let m := (m.writeLE (p + 12) 8 sq).writeLE (p + 20) 4 (max (m.readLE (p + 20) 4) (min x.natAbs (2 ^ 31 - 1)))
  (m.writeLE (p + 24) 4 (satAdd 32 (m.readLE (p + 24) 4) t.sec)).writeLE (p + 28) 4
    (satAdd 32 (m.readLE (p + 28) 4) t.out)

/-- The end of an evaluation of loop `n` that starts now: NSEC + 10 cycles later (R210). -/
def Head.evalEnd (x : Head) (c : Ctx) (n : Nat) : Ctx := { c with now := c.now + 10 * (x.nsec n + 10) }

/-- A velocity trim is delivered at `c`, with key 2 n + g of its loop and generator (R267). -/
def Head.keepTrim (c : Ctx) (key : Nat) (u : Int) (x : Head) : Head :=
  let old := match lookupKey key x.loops.trims with | some e => e.2.1 | none => 0
  { x with loops := { x.loops with trims := insertKey key (c.now / 10, u, old) x.loops.trims } }

/-- A loop delivers its output (R204); an ACT is queued when the evaluation completes, NSEC + 10 cycles after its start
(R210). -/
def Head.deliver (c : Ctx) (d : LoopDue) (u : Int) (x : Head) : Head :=
  let n := d.loop
  let k := x.destIndex n
  let x : Head := { x with loops := { x.loops with lastOut := insertKey n u x.loops.lastOut } }
  match x.destKind n with
  | 0 => x.act (x.evalEnd c n) .loop k u d.time n
  | 1 => x.loopRef k u
  | 2 =>
    if k < 2 then { x with loops := { x.loops with sinks := insertKey k u x.loops.sinks } }
    else if k < 4 then x.keepTrim (x.evalEnd c n) (2 * n + (k - 2)) u
    else x
  | _ => x

/-- A LOOP_GAIN job takes an evaluation of its loop, or counts it as excluded once the injection is off (R291, R299). -/
def Head.gainSample (d : LoopDue) (o : EvalOut) (x : Head) : Head :=
  if x.gainLoop d.loop d.time then
    if d.inj.isSome then
      { x with cal := { x.cal with n := x.cal.n + 1, evals := (d.time, o.x0, o.x1) :: x.cal.evals } }
    else { x with cal := { x.cal with excluded := x.cal.excluded + 1 } }
  else x

/-- The set index of a loop under a bank (R195). -/
def Head.setIndex (x : Head) (bank n : Nat) : Nat := x.loops.bankMem.readLE (2 * (24 * bank + n)) 2 % 512

/-- An evaluation is carried out (R200, R211, R213). -/
def Head.evaluate (c : Ctx) (d : LoopDue) (x : Head) : Head :=
  let n := d.loop
  let o := x.evalLoop d (x.setIndex d.bank n)
  let late := c.cyc - d.cycle
  let x : Head := if 64 < late then
      ((x.bump LoopReg.LATE_COUNT 1).flag LoopReg.LOOP_LATE).w LoopReg.LATE_MAX
        (max (x.r LoopReg.LATE_MAX) (min late 65535))
    else x
  let x : Head := (x.flagIf (decide (0 < o.tally.sat)) LoopReg.SAT).bump LoopReg.SAT_COUNT o.tally.sat
  let x : Head := (x.flagIf (decide (0 < o.tally.sec)) LoopReg.SEC_CLAMP).flagIf (decide (0 < o.tally.out)) LoopReg.OUT_CLAMP
  let x : Head := { x with loops := { x.loops with
    stateMem := storeSections n 0 o.states x.loops.stateMem
    statMem := addStats n o.x0 o.tally x.loops.statMem } }
  let x : Head := (x.gainSample d o).deliver c d o.u
  if n = x.r SpinReg.IQ_LOOP then
    x.commutate (x.evalEnd c n) d.time ((lookupKey 0 x.loops.sinks).getD 0) ((lookupKey 1 x.loops.sinks).getD 0)
  else x

/-- Sample `a` of head `h` comes before sample `b` of head `k` in the engine's order (R210). -/
def dueBefore (h : Nat) (a : LoopDue) (k : Nat) (b : LoopDue) : Bool :=
  if a.cycle ≠ b.cycle then decide (a.cycle < b.cycle) else if h ≠ k then decide (h < k) else decide (a.loop < b.loop)

/-- No sample of the tile stands before the first queued sample of loop `n` of head `h` (R210). -/
def State.firstDue (h : Fin 32) (n : Nat) (s : State) : Option LoopDue :=
  match (s.head h).loops.due.find? fun d => decide (d.loop = n) with
  | none => none
  | some d =>
    let t := tileOf h
    if localHeads.all fun l => (s.head (headOf t l)).loops.due.all fun e => !dueBefore (headOf t l) e h d
    then some d else none

/-- One sample leaves the queue. -/
def Head.dropDue (d : LoopDue) (x : Head) : Head := { x with loops := { x.loops with due := x.loops.due.erase d } }

/-- The words an evaluation reads hold an uncorrectable byte (R212): the logged address of the first. -/
def Head.loopUe (x : Head) (d : LoopDue) (l : Fin 4) : Option Nat :=
  match x.loops.stateMem.badAt (128 * d.loop) (16 * x.nsec d.loop) with
  | some w => some (spaceAddr l 0x0E w)
  | none => (x.loops.setMem.badAt (288 * x.setIndex d.bank d.loop) 288).map (spaceAddr l 0x0B)

/-- The first sample of loop `n` is evaluated, or abandoned with STATE_ERR (R212). -/
def State.evaluateFirst (h : Fin 32) (n : Nat) (s : State) : State :=
  match s.firstDue h n with
  | none => s
  | some d =>
    let x := s.head h
    let l := localOf h
    let t := tileOf h
    let s := s.onHead h (Head.dropDue d)
    match x.loopUe d l with
    | some addr =>
      (s.onHead h fun x => ((x.flag LoopReg.STATE_ERR).bump LoopReg.SKIP_ERR_COUNT 1).calSettle (s.ctx h)).noteUe t .sram addr .loop
    | none =>
      let s := s.noteSram t x.loops.stateMem (128 * n) (16 * x.nsec n) (spaceAddr l 0x0E) .loop
      let s := s.noteSram t x.loops.setMem (288 * x.setIndex d.bank n) 288 (spaceAddr l 0x0B) .loop
      s.onHead h fun x => (x.evaluate (s.ctx h) d).calSettle (s.ctx h)

/-- LOOP_EVALUATION (R200): the loop's sample is the first in the engine's order. -/
def execLoopEvaluation (wait : Nat) (h : Fin 32) (n : Fin 24) (s : State) : Out :=
  s.after wait (fun s => s.live h && (s.firstDue h n).isSome) (State.evaluateFirst h n)

/-! ### Frames and writes -/

/-- K_V of a bus voltage, and whether it is limited (R203). -/
def busGain (vref floor v : Nat) : Nat × Bool :=
  let k := vref * 65536 / max 1 (max v floor)
  (min 262144 k, decide (262144 < k))

/-- K_V follows the V_BUS of a good frame (R203). -/
def Head.updateKv (a : BitVec 800) (x : Head) : Head :=
  let m := x.loops.regionMem
  let g := busGain (m.readLE 14 2) (m.readLE 16 2) (srvBus a)
  (x.w LoopReg.K_V g.1).flagIf g.2 LoopReg.KV_LIMIT

/-- The speed band climbs while |W| reaches the next threshold (R207). -/
def bandUp (t : Nat → Nat) (w : Nat) : Nat → Nat → Nat
  | 0, b => b
  | n + 1, b => if b < 3 ∧ t (b + 1) ≤ w then bandUp t w n (b + 1) else b

/-- The speed band falls while |W| is below its threshold by the hysteresis (R207). -/
def bandDown (t : Nat → Nat) (hyst w : Nat) : Nat → Nat → Nat
  | 0, b => b
  | n + 1, b => if 0 < b ∧ w + hyst < t b then bandDown t hyst w n (b - 1) else b

/-- The speed band is updated once per Riser frame while VALID = 1 (R207). -/
def Head.updateBand (x : Head) : Head :=
  if x.b AngleReg.VALID then
    let m := x.loops.regionMem
    let t (k : Nat) : Nat := m.readLE (4 * (k - 1)) 4
    let w := x.omega.natAbs
    let b := bandDown t (m.readLE 12 2 * 2 ^ 8) w 3 (bandUp t w 3 (x.r LoopReg.SPEED_BAND))
    (x.w LoopReg.SPEED_BAND b).refreshBank
  else x

/-- CLR_STATS of a loop is written with 1 (R213). -/
def Head.loopClrStats (n : Nat) (x : Head) : Head :=
  { x with loops := { x.loops with statMem := x.loops.statMem.writeBytes (32 * n) (List.replicate 32 0) } }

end Sys2Proof.Machine
end

