-- ==== Sys2Proof/Machine/Pcs.lean ====
section
/-! DEFINITION. The line code of a Riser link (R64 to R67): 257-bit blocks, the scrambler, RS(544,514), the lanes and the
alignment markers, and the device's transmitter and receiver over them. -/

namespace Sys2Proof.Machine

/-! ### Blocks and the scrambler -/

/-- A data block: header 1 in bit 0, then the block bits (R64). -/
def dataBlock (v : Nat) : BitVec 257 := BitVec.ofNat 257 (1 + 2 * (v % 2 ^ 256))

/-- A control block: header 0 in bit 0, then the block bits (R64). -/
def controlBlock (v : Nat) : BitVec 257 := BitVec.ofNat 257 (2 * (v % 2 ^ 256))

/-- The header of a block: a data block (R64). -/
def isData (b : BitVec 257) : Bool := b.toNat % 2 == 1

/-- Block bits [255:0] of a block (R64). -/
def blockBits (b : BitVec 257) : Nat := b.toNat / 2

/-- BTYPE of a control block (R66); none for a data block. -/
def blockType (b : BitVec 257) : Option Nat := if isData b then none else some (blockBits b % 256)

/-- The frame start block's type (R66). -/
def typeFsb : Nat := 0xD2
/-- The fill block's type (R66). -/
def typeFill : Nat := 0x1E
/-- The training block's type (R66). -/
def typeTraining : Nat := 0x87

/-- A fill block (R66). -/
def fillBlock : BitVec 257 := controlBlock typeFill

/-- The self-synchronising scrambler 1 + x^39 + x^58 over the low `n` bits of `w`, the lowest first, and the descrambler
with `rx` (R64): the state holds the last 58 bits on the line, the newest lowest. -/
def scrambleBits (rx : Bool) : Nat → Nat → Nat → Nat × Nat
  | 0, _, st => (0, st)
  | n + 1, w, st =>
    let i := w % 2
    let o := i ^^^ st / 2 ^ 38 % 2 ^^^ st / 2 ^ 57 % 2
    let r := scrambleBits rx n (w / 2) ((2 * st + if rx then i else o) % 2 ^ 58)
    (o + 2 * r.1, r.2)

/-- A block passes the scrambler, or with `rx` the descrambler; its header does not (R64). -/
def scrambleBlock (rx : Bool) (b : BitVec 257) (st : BitVec 58) : BitVec 257 × BitVec 58 :=
  let r := scrambleBits rx 256 (blockBits b) st.toNat
  (BitVec.ofNat 257 (b.toNat % 2 + 2 * r.1), BitVec.ofNat 58 r.2)

/-! ### RS(544,514) over GF(2^10), as in the RS-FEC of IEEE 802.3 Clause 119 (PRESUMED, log entry 127) -/

/-- α times an element: the field polynomial is x^10 + x^3 + 1. -/
def rsDouble (a : Nat) : Nat := if a < 512 then 2 * a else (2 * a) % 1024 ^^^ 9

/-- The low `n` bits of `b` times `a`. -/
def rsMulBits : Nat → Nat → Nat → Nat
  | 0, _, _ => 0
  | n + 1, a, b => (if b % 2 = 1 then a else 0) ^^^ rsMulBits n (rsDouble a) (b / 2)

/-- The product of two elements. -/
def rsMul (a b : Nat) : Nat := rsMulBits 10 a b

/-- α^n. -/
def rsPow : Nat → Nat
  | 0 => 1
  | n + 1 => rsDouble (rsPow n)

/-- a^n by squaring, for exponents of `k` bits. -/
def rsExp (a n : Nat) : Nat → Nat
  | 0 => 1
  | k + 1 => let r := rsExp (rsMul a a) (n / 2) k; if n % 2 = 1 then rsMul a r else r

/-- The inverse of a nonzero element: a^1022. -/
def rsInv (a : Nat) : Nat := rsExp a 1022 10

/-- A polynomial, highest power first, times x + α^j. -/
def timesRoot (p : List Nat) (j : Nat) : List Nat :=
  List.zipWith (· ^^^ ·) (p ++ [0]) (0 :: p.map (rsMul (rsPow j)))

/-- The generator polynomial, highest power first: the product of x + α^j for j = 0 to 29. -/
def rsGenerator : List Nat := (List.range 30).foldl timesRoot [1]

/-- The 30 parity symbols of a message, first symbol first. -/
def rsParity (msg : List Nat) : List Nat :=
  let g := rsGenerator.drop 1
  msg.foldl (fun p m =>
    let fb := m ^^^ p.headD 0
    List.zipWith (· ^^^ ·) (p.drop 1 ++ [0]) (g.map (rsMul fb))) (List.replicate 30 0)

/-- The codeword of a message (R64). -/
def rsEncode (msg : List Nat) : List Nat := msg ++ rsParity msg

/-- The value of a polynomial, highest power first. -/
def rsEval (p : List Nat) (x : Nat) : Nat := p.foldl (fun a c => rsMul a x ^^^ c) 0

/-- The 30 syndromes of a received codeword. -/
def rsSyndromes (r : List Nat) : List Nat := (List.range 30).map fun j => rsEval r (rsPow j)

/-- Polynomials here have the lowest power first. -/
def polyAdd : List Nat → List Nat → List Nat
  | [], l => l
  | l, [] => l
  | a :: l, b :: m => (a ^^^ b) :: polyAdd l m

/-- The state of the Berlekamp-Massey iteration: the locator, its last other value, its length, the shift of that value
and its discrepancy. -/
structure Massey where
  sigma : List Nat
  last : List Nat
  len : Nat
  gap : Nat
  disc : Nat
deriving DecidableEq, Repr

/-- One step of the Berlekamp-Massey iteration for syndrome `n`. -/
def masseyStep (syn : List Nat) (m : Massey) (n : Nat) : Massey :=
  let d := (List.range (m.len + 1)).foldl (fun a i => a ^^^ rsMul (m.sigma.getD i 0) (syn.getD (n - i) 0)) 0
  if d = 0 then { m with gap := m.gap + 1 }
  else
    let k := rsMul d (rsInv m.disc)
    let s := polyAdd m.sigma (List.replicate m.gap 0 ++ m.last.map (rsMul k))
    if 2 * m.len ≤ n then ⟨s, m.sigma, n + 1 - m.len, 1, d⟩ else { m with sigma := s, gap := m.gap + 1 }

/-- The value of a polynomial, lowest power first. -/
def polyEval (p : List Nat) (x : Nat) : Nat := p.foldr (fun c a => c ^^^ rsMul a x) 0

/-- The odd part of a polynomial divided by x: its formal derivative. -/
def polyDeriv (p : List Nat) : List Nat := ((p.drop 1).zipIdx).map fun e => if e.2 % 2 = 0 then e.1 else 0

/-- A received codeword as corrected, and how many symbols were; none where more than 15 are wrong (R64, R75). -/
def rsDecode (r : List Nat) : Option (List Nat × Nat) :=
  let syn := rsSyndromes r
  if syn.all (· == 0) then some (r, 0)
  else
    let m := (List.range 30).foldl (masseyStep syn) ⟨[1], [1], 0, 1, 1⟩
    let omega := ((List.range 30).map fun k =>
      (List.range (k + 1)).foldl (fun a i => a ^^^ rsMul (m.sigma.getD i 0) (syn.getD (k - i) 0)) 0)
    let fix := r.zipIdx.map fun e =>
      let xi := rsPow ((1023 - (543 - e.2)) % 1023)
      if polyEval m.sigma xi = 0 then
        (e.1 ^^^ rsMul (rsInv xi) (rsMul (polyEval omega xi) (rsInv (polyEval (polyDeriv m.sigma) xi))), 1)
      else (e.1, 0)
    let c := fix.map (·.1)
    if m.len ≤ 15 ∧ (fix.map (·.2)).sum = m.len ∧ (rsSyndromes c).all (· == 0) then some (c, m.len) else none

/-! ### Messages, groups and markers -/

/-- `n` pieces of `w` bits of a number, the lowest first. -/
def pieces (w : Nat) : Nat → Nat → List Nat
  | 0, _ => []
  | n + 1, v => v % 2 ^ w :: pieces w n (v / 2 ^ w)

/-- The number that pieces of `w` bits make, the lowest first. -/
def join (w : Nat) : List Nat → Nat
  | [] => 0
  | a :: l => a % 2 ^ w + 2 ^ w * join w l

/-- The 514 message symbols of 20 blocks (R64). -/
def messageOf (l : List (BitVec 257)) : List Nat := pieces 10 514 (join 257 (l.map (·.toNat)))

/-- The 20 blocks of a message (R64). -/
def messageBlocks (msg : List Nat) : List (BitVec 257) := (pieces 257 20 (join 10 msg)).map (BitVec.ofNat 257)

/-- Three codewords as the symbols of a group: A0 B0 C0 A1 B1 C1 and so on (R64). -/
def interleave (a b c : List Nat) : List Nat := ((a.zip b).zip c).flatMap fun e => [e.1.1, e.1.2, e.2]

/-- Codeword `k` of a group's symbols (R64). -/
def codewordOf (k : Nat) (l : List Nat) : List Nat := (l.zipIdx.filter fun e => e.2 % 3 == k).map (·.1)

/-- The line bits of a group, lane by lane: symbol i goes to lane i mod 12, each lane's symbols lowest bit first (R64). -/
def groupBits (l : List Nat) : BitVec 16320 :=
  BitVec.ofNat 16320 (join 1360 ((List.range 12).map fun lane =>
    join 10 ((l.zipIdx.filter fun e => e.2 % 12 == lane).map (·.1))))

/-- The symbols of a group from its line bits (R64). -/
def groupSymbols (v : BitVec 16320) : List Nat :=
  let lanes := (pieces 1360 12 v.toNat).map (pieces 10 136)
  (List.range 136).flatMap fun j => lanes.map fun l => l.getD j 0

/-- A group of 60 scrambled blocks on the line (R64). -/
def encodeGroup (l : List (BitVec 257)) : BitVec 16320 :=
  let cw (k : Nat) : List Nat := rsEncode (messageOf ((l.drop (20 * k)).take 20))
  groupBits (interleave (cw 0) (cw 1) (cw 2))

/-- The sixteen symbols of the alignment marker of a lane (R65). -/
def markerSymbols (lane : Nat) : List Nat :=
  let s := lane + 0x2A * 2 ^ 4
  [0x3A5, 0x0C3, 0x25A, 0x1E6, s, 1023 - s] ++ List.replicate 10 0x155

/-- The markers of all lanes on the line, lane by lane (R65). -/
def markerBits : BitVec 1920 := BitVec.ofNat 1920 (join 160 ((List.range 12).map fun l => join 10 (markerSymbols l)))

/-- The lane number of a received marker, where it is one (R65). -/
def markerLane (v : Nat) : Option Nat :=
  let s := pieces 10 6 v
  let k := s.getD 4 0
  if s.take 4 = [0x3A5, 0x0C3, 0x25A, 0x1E6] ∧ k / 16 = 0x2A ∧ s.getD 5 0 = 1023 - k then some (k % 16) else none

/-- The lane numbers of the markers on lanes 0 to 11 (R65). -/
def markerLanes (v : BitVec 1920) : List (Option Nat) := (pieces 160 12 v.toNat).map markerLane

/-! ### The transmitter -/

/-- Line bits of a block: a codeword of 5 440 bits carries 20 (R64, R65). -/
def blockLineBits : Nat := 272

/-- The instant at which the next block position starts is before `t`, in 1/16 ns: the lanes carry 675 Gbit/s together
(R63, R67). -/
def TxSt.before (x : TxSt) (t : Nat) : Bool := decide (x.origin * 675 + 16 * x.bits < t * 675)

/-- A block is sent: scrambled, and with it its group where it is the sixtieth, followed by a marker after `every` groups
(R64). -/
def TxSt.push (every : Nat) (x : TxSt) (b : BitVec 257) : TxSt :=
  let r := scrambleBlock false b x.scr
  let l := x.blocks ++ [r.1]
  let x := { x with scr := r.2, bits := x.bits + blockLineBits }
  if l.length < 60 then { x with blocks := l }
  else
    let x := { x with blocks := [], out := x.out ++ [.group l], groups := x.groups + 1 }
    if x.groups < every then x else { x with out := x.out ++ [.marker], groups := 0, bits := x.bits + 1920 }

/-- Fill blocks up to the first block position that starts at or after `t` (R67), no more than `n`. -/
def TxSt.fill (every t : Nat) : Nat → TxSt → TxSt
  | 0, x => x
  | n + 1, x => if x.before t then TxSt.fill every t n (x.push every fillBlock) else x

/-- Groups between markers in frames (R64). -/
def frameMarkers : Nat := 1024
/-- Groups between markers in training (R79). -/
def trainMarkers : Nat := 32

/-- Blocks are sent one after another. -/
def TxSt.pushAll (every : Nat) (l : List (BitVec 257)) (x : TxSt) : TxSt := l.foldl (TxSt.push every) x

/-- A frame is sent whose first block position starts at or after `t` (R67): the fill of the frame before it, and its own
blocks. Where no frame was sent in the frame time before, the stream starts anew at `t`. -/
def TxSt.frame (t : Nat) (l : List (BitVec 257)) (x : TxSt) : TxSt :=
  let x := { x with out := [] }
  let y := TxSt.fill frameMarkers t 256 x
  (if y.before t || x.bits = 0 then { x with blocks := [], bits := 0, origin := t } else y).pushAll frameMarkers l

/-- What the last command put on the lanes: groups and markers (R64, R65). The sequence of QPRBS13 is not in the spec. -/
def TxSt.line (x : TxSt) : List LineItem :=
  x.out.filterMap fun o => match o with
    | .group l => some (.group (encodeGroup l))
    | .marker => some (.marker markerBits)
    | .qprbs => none

/-! ### The receiver -/

/-- What a receiver counts over the groups taken: symbols corrected, and groups with an uncorrectable codeword. -/
structure RxTally where
  corrected : Nat
  uncorrectable : Nat
deriving DecidableEq, Repr

/-- The blocks of a received codeword: those of the message as corrected, or as received and marked bad where it is
uncorrectable (R64, R75); and its corrected symbols. -/
def rxCodeword (r : List Nat) : List (Bool × BitVec 257) × Nat × Bool :=
  match rsDecode r with
  | some (c, n) => ((messageBlocks (c.take 514)).map fun b => (false, b), n, false)
  | none => ((messageBlocks (r.take 514)).map fun b => (true, b), 0, true)

/-- A block is descrambled and joins those received (R64). -/
def RxSt.push (x : RxSt) (e : Bool × BitVec 257) : RxSt :=
  let r := scrambleBlock true e.2 x.descr
  { x with descr := r.2, items := x.items ++ [.block e.1 r.1] }

/-- What the lanes brought is taken: a group's three codewords are decoded and their blocks descrambled (R64). -/
def rxItem (s : RxSt × RxTally) (i : LineItem) : RxSt × RxTally :=
  match i with
  | .marker _ => ({ s.1 with items := s.1.items ++ [.marker] }, s.2)
  | .group v =>
    let sym := groupSymbols v
    let a := rxCodeword (codewordOf 0 sym)
    let b := rxCodeword (codewordOf 1 sym)
    let c := rxCodeword (codewordOf 2 sym)
    ((a.1 ++ b.1 ++ c.1).foldl RxSt.push s.1,
      ⟨s.2.corrected + a.2.1 + b.2.1 + c.2.1, s.2.uncorrectable + flagNat (a.2.2 || b.2.2 || c.2.2)⟩)

/-- Everything the lanes brought since the last command is taken. -/
def RxSt.take (l : List LineItem) (x : RxSt) : RxSt × RxTally := l.foldl rxItem (x, ⟨0, 0⟩)

/-- An item is a frame start block, its codeword correctable (R66, R68). -/
def RxItem.isFsb (i : RxItem) : Bool :=
  match i with
  | .block bad b => !bad && blockType b == some typeFsb
  | .marker => false

/-- The items up to the end of a frame, `n` blocks of which have been passed, and the rest (R67): a frame ends before the
next frame start block, or, where that is lost in an uncorrectable codeword, before the first block of such a codeword
that stands 248 blocks or more after the start, 7 fewer for a marker (DESIGN CHOICE, log entry 128). None while the end
has not been received. -/
def splitFrame (n : Nat) : List RxItem → Option (List RxItem × List RxItem)
  | [] => none
  | .marker :: l => (splitFrame (n + 7) l).map fun r => (.marker :: r.1, r.2)
  | .block bad b :: l =>
    if (RxItem.block bad b).isFsb || (bad && decide (248 ≤ n)) then some ([], .block bad b :: l)
    else (splitFrame (n + 1) l).map fun r => (.block bad b :: r.1, r.2)

/-- The blocks among items. -/
def rxBlocks (l : List RxItem) : List (Bool × BitVec 257) :=
  l.filterMap fun i => match i with | .block bad b => some (bad, b) | .marker => none

/-- The frame that items make, the first of them in the place of its frame start block (R66 to R68, R75): broken where a
codeword that carries its blocks was uncorrectable, a control block of no type of R66 stood in it, or a data block of its
fixed area was missing. -/
def frameOf (l : List RxItem) (late : Nat) : UpFrame :=
  let bs := rxBlocks l
  let fsb := match bs with | (false, b) :: _ => if isData b then 0 else blockBits b | _ => 0
  let area := (bs.drop 1).take 229
  let rest := bs.drop 230
  { fsb := BitVec.ofNat 256 fsb
    area := BitVec.ofNat 58624 (join 256 (area.map fun e => blockBits e.2))
    broken := bs.any (fun e => e.1 || (match blockType e.2 with
        | none => false
        | some t => t != typeFsb && t != typeFill && t != typeTraining))
      || area.length != 229 || !area.all (fun e => isData e.2)
    fill := (rest.filter fun e => blockType e.2 == some typeFill).length
    marker := l.contains .marker
    late := late }

/-- The first frame that the receiver holds whole, and the receiver without it (R67). A receiver that has not found its
frames yet waits for the first frame start block. -/
def RxSt.frame (late : Nat) (x : RxSt) : Option (UpFrame × RxSt) :=
  let l := if x.synced then x.items else x.items.dropWhile fun i => !i.isFsb
  match l with
  | [] => none
  | a :: m => match splitFrame 1 m with
    | none => none
    | some (p, r) => some (frameOf (a :: p) late, { x with items := r, synced := true })

/-- The last training block that the receiver holds (R66, R78). -/
def RxSt.training (x : RxSt) : Option (BitVec 256) :=
  ((rxBlocks x.items).filter fun e => !e.1 && blockType e.2 == some typeTraining).getLast?.map
    fun e => BitVec.ofNat 256 (blockBits e.2)

end Sys2Proof.Machine
end

