-- ==== Sys2Proof/Machine/Riser.lean ====
section
/-! DEFINITION. The device end of a Riser link (03_riser_link.md): training, link loss, downstream frames and their
commands, acknowledgements, and what a received upstream frame does in the head. -/

namespace Sys2Proof.Machine

/-! ### Training -/

/-- A link state begins (R79). -/
def Head.linkTo (c : Ctx) (st : Nat) (x : Head) : Head :=
  { x.w RiserReg.STATE st with riser := { x.riser with stateSince := c.cyc } }

/-- What the lanes carry from now on (R64, R79). -/
def Head.laneSend (l : List TxItem) (x : Head) : Head :=
  { x with riser := { x.riser with tx := { x.riser.tx with out := l } } }

/-- Training fails with a code (R79); the transmitter is idle. -/
def Head.trainFail (c : Ctx) (code : Nat) (x : Head) : Head := ((x.w RiserReg.FAIL_CODE code).linkTo c 7).laneSend []

/-- The link leaves UP (R80, R87, R174): queued commands and the strategy map are gone, and a strategy load in progress
fails, since its commands will not be acknowledged. -/
def Head.linkDown (c : Ctx) (auto : Bool) (x : Head) : Head :=
  let x : Head := ((x.flag RiserReg.LINK_DOWN).linkTo c 0).writeAbort c 10
  let x : Head := { x with riser := { x.riser with
    lossAt := if auto then some c.cyc else none, queue := [], badRun := 0, noLockRun := 0, goodRun := 0 } }
  (x.put RiserReg.FW_GO false).stratLost.stratFails

/-- A link loss (R80): SAFE cause 4 is ordered and the Landing goes to SAFE. -/
def State.linkLoss (h : Fin 32) (auto : Bool) (s : State) : State :=
  let s := s.onHead h (Head.linkDown (s.ctx h) auto)
  (s.safeHead h 4).onHead h (Head.refresh (s.ctx h))

/-- TRAIN is written with 1 (R79); it has no effect while the tile's restart waits for RESUME (R464). -/
def State.train (h : Fin 32) (s : State) : State :=
  let t := s.tile (tileOf h)
  if t.heat.heavyOff || (t.b HeatReg.TRIPPED && t.heat.tripAt.isNone) then s
  else
  let s := if (s.head h).up then s.linkLoss h false else s
  s.onHead h fun x =>
    let x : Head := (x.linkTo (s.ctx h) 1).laneSend []
    { x with riser := { x.riser with
      lossAt := none, aligned := false, skewed := false, train := none, request := none
      rx := { x.riser.rx with items := [], synced := false }
      echoes := 0, dMax := 0, goodRun := 0, latMax := 0, latFrames := 0 } }

/-- The present state has lasted `n` CORE cycles. -/
def Head.linkSince (c : Ctx) (n : Nat) (x : Head) : Bool := decide (x.riser.stateSince + n ≤ c.cyc)

/-- AUTO_RETRAIN (R79): 1 ms after a link loss, training starts. -/
def execAutoRetrain (wait : Nat) (h : Fin 32) (s : State) : Out :=
  s.after wait (fun s =>
    let x := s.head h
    s.live h && x.b RiserReg.AUTO_RETRAIN && x.r RiserReg.STATE == 0
      && (match x.riser.lossAt with | none => false | some c => s.since c (cyclesOfMs 1)))
    (State.train h)

/-- SILENT_ELAPSED (R79): LOCK begins, and every lane carries QPRBS13. -/
def execSilentElapsed (wait : Nat) (h : Fin 32) (s : State) : Out :=
  s.liveAfter wait h (fun c x => x.r RiserReg.STATE == 1 && x.linkSince c (cyclesOfUs 10)) fun c x =>
    (x.linkTo c 2).laneSend [.qprbs]

/-- TRAIN_LOCK_T as it acts, in CORE cycles (R94). -/
def Head.lockTime (x : Head) : Nat := cyclesOfUs (100 * atLeast1 (x.r RiserReg.TRAIN_LOCK_T))

/-! ### Training blocks -/

/-- TSTATE of a training block (R78). -/
def trainState (b : BitVec 256) : Nat := bitsOf b.toNat 11 8
/-- LOCK_MASK of a training block (R78). -/
def trainLocks (b : BitVec 256) : Nat := bitsOf b.toNat 27 16
/-- T1 of a training block (R78). -/
def trainT1 (b : BitVec 256) : Nat := bitsOf b.toNat 95 32
/-- TURN of a training block (R78). -/
def trainTurn (b : BitVec 256) : Nat := bitsOf b.toNat 111 96

/-- A training block of the device (R78): its state and locked lanes, the departure of an echo request, and the two
latencies once they are known. Times are in 1/16 ns. -/
def Head.trainBlock (t1 arrive lat : Nat) (x : Head) : BitVec 256 :=
  BitVec.ofNat 256 (typeTraining + x.r RiserReg.STATE * 2 ^ 8 + x.r RiserReg.LANE_LOCK * 2 ^ 16 + t1 % 2 ^ 64 * 2 ^ 32
    + arrive % 2 ^ 16 * 2 ^ 176 + lat % 2 ^ 16 * 2 ^ 192)

/-- The device sends a training block from now on (R78, R79): 32 groups of it and the marker after them, which stand on the
line for all that are sent until the block changes (DESIGN CHOICE, log entry 128). -/
def Head.sendTrain (t1 arrive lat : Nat) (x : Head) : Head :=
  let b := x.trainBlock t1 arrive lat
  let tx : TxSt := { x.riser.tx with out := [], blocks := [], groups := 0 }
  { x with riser := { x.riser with
    train := some b, tx := tx.pushAll trainMarkers (List.replicate (60 * trainMarkers) (controlBlock b.toNat)) } }

/-- An echo request leaves (R79): one at a time (DESIGN CHOICE, log entry 128). -/
def Head.echoRequest (c : Ctx) (x : Head) : Head :=
  let x : Head := x.sendTrain c.now 0 0
  { x with riser := { x.riser with request := some c.now } }

/-- LOCK_ELAPSED (R79): TRAIN_LOCK_T is over with the receive lanes of `lanes` locked; training blocks follow. -/
def execLockElapsed (wait : Nat) (h : Fin 32) (lanes : Nat) (s : State) : Out :=
  s.liveAfter wait h (fun c x => x.r RiserReg.STATE == 2 && x.linkSince c x.lockTime) fun c x =>
    let x : Head := x.w RiserReg.LANE_LOCK lanes
    if lanes % 4096 = 4095 then (x.linkTo c 3).sendTrain 0 0 0 else x.trainFail c 1

end Sys2Proof.Machine

namespace Sys2Proof

/-- The markers that came in. -/
def LineRx.markers (l : LineRx) : List (BitVec 1920) :=
  l.items.filterMap fun i => match i with | .marker b => some b | .group _ => none

/-- The skew between lanes, in 1/16 ns: the last marker to arrive after the first (R65). -/
def LineRx.skew (l : LineRx) : Nat := l.lanes.foldl max 0 - l.lanes.foldl min (l.lanes.headD 0)

/-- A marker's lane number is not that of the lane it arrived on (R65). -/
def LineRx.laneOrder (l : LineRx) : Bool :=
  l.markers.any fun b => (Machine.markerLanes b).zipIdx.any fun e => match e.1 with | none => false | some k => k != e.2

/-- A marker was found on every lane (R65, R79). -/
def LineRx.allMarked (l : LineRx) : Bool := l.markers.any fun b => (Machine.markerLanes b).all Option.isSome

end Sys2Proof

namespace Sys2Proof.Machine

/-- What the lanes brought in ALIGN (R65, R79): markers, their skew and their lane numbers; a marker on a lane of another
number fails training. -/
def Head.alignMarkers (c : Ctx) (l : LineRx) (x : Head) : Head :=
  let x : Head := if l.allMarked then
      { x with riser := { x.riser with aligned := true, skewed := decide (512 < l.skew) } }
    else x
  if l.laneOrder then x.trainFail c 8 else x

/-- A training block in ALIGN (R79): a far end without lane lock fails training; with the markers found, the skew in range,
every codeword correctable and the far end in ALIGN, MEASURE begins with the first echo request. -/
def Head.alignBlock (c : Ctx) (fec : Bool) (b : BitVec 256) (x : Head) : Head :=
  if trainLocks b ≠ 4095 then x.trainFail c 1
  else if x.riser.aligned && !x.riser.skewed && fec && decide (3 ≤ trainState b) then (x.linkTo c 4).echoRequest c
  else x

/-- A training block in MEASURE that echoes the request answers an exchange, and the next request leaves (R79). -/
def Head.measureBlock (c : Ctx) (b : BitVec 256) (x : Head) : Head :=
  if x.riser.request.map (· % 2 ^ 64) ≠ some (trainT1 b) then x
  else
    let w := b.toNat
    let d := (c.now + 2 ^ 64 - trainT1 b) % 2 ^ 64 - trainTurn b
    let x : Head := (x.w RiserReg.HE_TYPE (bitsOf w 127 112)).w RiserReg.HE_VERSION (bitsOf w 143 128)
    let x : Head := { x with riser := { x.riser with
      heRxProc := bitsOf w 159 144, echoes := x.riser.echoes + 1, dMax := max x.riser.dMax d, request := none } }
    if x.riser.echoes < 64 then x.echoRequest c else x

/-- What the lanes brought is taken (R64, R94). -/
def Head.lineIn (l : LineRx) (x : Head) : Head :=
  let r := x.riser.rx.take l.items
  let x : Head := { x with riser := { x.riser with rx := r.1 } }
  (x.bump RiserReg.FEC_CORR r.2.corrected).bump RiserReg.FEC_UNCORR r.2.uncorrectable

/-- The lanes bring training blocks (R78, R79); the last of them counts. -/
def Head.trainIn (c : Ctx) (l : LineRx) (x : Head) : Head :=
  let fec := (x.riser.rx.take l.items).2.uncorrectable == 0
  let x : Head := x.lineIn l
  let b := x.riser.rx.training
  let x : Head := { x with riser := { x.riser with rx := { x.riser.rx with items := [] } } }
  let x : Head := if x.r RiserReg.STATE = 3 then x.alignMarkers c l else x
  match b with
  | none => x
  | some b =>
    if x.r RiserReg.STATE = 3 then x.alignBlock c fec b
    else if x.r RiserReg.STATE = 4 then x.measureBlock c b
    else x

/-- TRAINING_BLOCK (R78): training blocks arrive while the link is in ALIGN or MEASURE. -/
def execTrainingBlock (wait : Nat) (h : Fin 32) (l : LineRx) (s : State) : Out :=
  s.liveAfter wait h (fun _ x => x.r RiserReg.STATE == 3 || x.r RiserReg.STATE == 4) fun c x => x.trainIn c l

/-- ALIGN_TIMEOUT (R79): SKEW where markers were found too far apart. -/
def execAlignTimeout (wait : Nat) (h : Fin 32) (s : State) : Out :=
  s.liveAfter wait h (fun c x => x.r RiserReg.STATE == 3 && x.linkSince c (cyclesOfMs 1)) fun c x =>
    x.trainFail c (if x.riser.skewed then 3 else 2)

/-- LAT_DN in 0.1 ns, from D in 1/32 ns: DN_ARRIVE + HE_RX_PROC + 8 ns, rounded up (R79). -/
def latDown (d32 rxProc : Nat) : Nat := ((2 * Config.devTx.val + d32 + 2 * rxProc + 256) * 10 + 31) / 32

/-- The exchanges are over (R79): a wrong HE_VERSION is found before a LAT_DN above its limit. D is a half of 1/16 ns at the
most; RTT_D and DN_ARRIVE drop the half, LAT_DN is formed with it (DESIGN CHOICE, log entry 128). The last training
block carries DN_ARRIVE and LAT_DN to the head-end (R78), and frames follow. -/
def Head.measured (c : Ctx) (x : Head) : Head :=
  let lat := latDown x.riser.dMax x.riser.heRxProc
  if x.r RiserReg.HE_VERSION ≠ 1 then x.trainFail c 7
  else if 4000 < lat then x.trainFail c 5
  else
    let x : Head := (x.w RiserReg.RTT_D (x.riser.dMax / 2)).w RiserReg.LAT_DN lat
    let x : Head := { x with riser := { x.riser with
      dnArrive := Config.devTx.val + x.riser.dMax / 2, goodRun := 0, latMax := 0, latFrames := 0, nextNum := none } }
    let x : Head := x.sendTrain 0 x.riser.dnArrive ((16 * lat + 9) / 10)
    let x : Head := { x with riser := { x.riser with rx := { x.riser.rx with items := [], synced := false } } }
    x.linkTo c 5

/-- MEASURE_DONE (R79): 64 echo exchanges have been made. -/
def execMeasureDone (wait : Nat) (h : Fin 32) (s : State) : Out :=
  s.liveAfter wait h (fun _ x => x.r RiserReg.STATE == 4 && decide (64 ≤ x.riser.echoes)) Head.measured

/-- MEASURE_TIMEOUT (R79). -/
def execMeasureTimeout (wait : Nat) (h : Fin 32) (s : State) : Out :=
  s.liveAfter wait h (fun c x => x.r RiserReg.STATE == 4 && decide (x.riser.echoes < 64)
      && x.linkSince c (cyclesOfUs 500)) fun c x => x.trainFail c 4

/-- LAT_UP in 0.1 ns from a sample latency in 1/16 ns: plus 8 ns, rounded up to 1.6 ns (R79). -/
def latUp (l16 : Nat) : Nat := 16 * (((l16 + 128) * 10 + 255) / 256)

/-- The link goes UP, its samples begin to be delivered, and a head that was OFF goes to SAFE (R76, R79, R217). -/
def Head.linkUp (c : Ctx) (x : Head) : Head :=
  let lat := latUp x.riser.latMax
  if 4000 < lat then x.trainFail c 5
  else
    let x : Head := ((x.w RiserReg.LAT_UP lat).linkTo c 6).safeEnds 4
    let first := (10 * c.now + 63 - 16 * lat) / 64
    let x : Head := { x with riser := { x.riser with
      badRun := 0, noLockRun := 0
      delivered := if x.riser.delivered.isEmpty then (List.range 33).map (·, first) else x.riser.delivered } }
    if x.r LandReg.HSTATE = 0 then (x.setHstate 10).refresh c else x.refresh c

/-- FRAMED_LOCK (R79): 64 consecutive good frames each way with DN_LOCK = 1, and LAT_UP measured over 256 frames. -/
def execFramedLock (wait : Nat) (h : Fin 32) (s : State) : Out :=
  s.liveAfter wait h (fun _ x => x.r RiserReg.STATE == 5 && decide (64 ≤ x.riser.goodRun ∧ 256 ≤ x.riser.latFrames))
    Head.linkUp

/-- FRAME_TIMEOUT (R79). -/
def execFrameTimeout (wait : Nat) (h : Fin 32) (s : State) : Out :=
  s.liveAfter wait h (fun c x => x.r RiserReg.STATE == 5 && x.linkSince c (cyclesOfMs 1)) fun c x => x.trainFail c 6

/-- LINK_LOSS (R80): a lane has lost lock for 1 µs (`lanes` names those locked), or four bad frames or four frame starts
with DN_LOCK = 0 have followed one another. -/
def execLinkLoss (wait : Nat) (h : Fin 32) (lanes : Nat) (s : State) : Out :=
  s.afterIn 2 wait (fun s =>
    let x := s.head h
    s.live h && x.up && (lanes % 4096 != 4095 || decide (4 ≤ x.riser.badRun) || decide (4 ≤ x.riser.noLockRun))) fun s =>
    (s.onHead h (·.w RiserReg.LANE_LOCK lanes)).linkLoss h true

/-! ### Downstream frames -/

/-- The class of a command in the order of R87. -/
def RCmd.rank (m : RCmd) : Nat := if m.op = 1 ∨ m.op = 2 then 0 else if m.timed then 1 else if m.op = 6 then 2 else 3

/-- Command `a` is placed before `b`, which was issued later (R87). -/
def RCmd.before (a b : RCmd) : Bool :=
  if a.rank ≠ b.rank then decide (a.rank < b.rank)
  else if a.rank = 1 then decide (a.te ≤ b.te)
  else if a.rank = 2 then decide (a.sampleTime < b.sampleTime ∨ (a.sampleTime = b.sampleTime ∧ a.loopNo ≤ b.loopNo))
  else true

/-- A command joins a list in the order of R87, after those issued before it that do not follow it. -/
def placeCmd (m : RCmd) : List RCmd → List RCmd
  | [] => [m]
  | a :: l => if a.before m then a :: placeCmd m l else m :: a :: l

/-- Commands in the order of R87. -/
def orderCmds (l : List RCmd) : List RCmd := l.foldl (fun r m => placeCmd m r) []

/-- The command may ride the frame that starts at `f` (1/16 ns): queued at least 20 ns before (R87). -/
def RCmd.ready (f : Nat) (m : RCmd) : Bool := decide (m.issued + 320 ≤ f)

/-- The commands of the frame that starts at `f` (1/16 ns), four at most (R87). -/
def Head.frameCmds (f : Nat) (x : Head) : List RCmd := (orderCmds (x.riser.queue.filter (RCmd.ready f))).take 4

/-- Bits of a gate that the head-end holds for a position when the frame at `f` (1/16 ns) leaves (R88, R171): those sent, less
those emitted since its t_e, and none once it has closed. -/
def WGate.held (g : WGate) (f : Nat) : Nat :=
  if g.closeTe.any (· ≤ f) then 0
  else g.sent - min g.sent (if g.period = 0 then 0 else (f - g.te) * 2 ^ 20 / g.period)

/-- The open command of a gate has been sent (R88). -/
def Head.gateSent (x : Head) (g : WGate) : Bool := !x.riser.queue.any fun m => m.op == 4 && m.te == g.te

/-- Bits that the frame at `f` carries for each position (R88, R171): those left of the gates whose open has been sent,
within the model of the head-end's buffer. -/
def Head.frameBits (f : Nat) (x : Head) : Nat :=
  let left := (x.write.gates.filter x.gateSent).foldl (fun n g => n + (g.left.headD []).length) 0
  let level := x.write.gates.foldl (fun n g => n + g.held f) 0
  min 100 (min left (min 8192 (x.r WriteReg.BUF_HIGH) - level))

/-- The next `n` bits of position `b` from the gates in order, and the gates without them (R88). -/
def takeBits : Nat → List WGate → List (List Bool) × List WGate
  | _, [] => (List.replicate 32 [], [])
  | n, g :: l =>
    let k := min n (g.left.headD []).length
    let (out, l) := takeBits (n - k) l
    ((g.left.zip out).map fun p => p.1.take k ++ p.2, { g with left := g.left.map (·.drop k), sent := g.sent + k } :: l)

/-- The number that a list of bits spells, the first the lowest. -/
def bitsNat : List Bool → Nat
  | [] => 0
  | b :: l => flagNat b + 2 * bitsNat l

/-- The word of a command slot (R82). -/
def commandWord (m : RCmd) (seq : Nat) : Nat :=
  m.op % 2 ^ 8 + seq % 128 * 2 ^ 8 + (if m.timed then 2 ^ 15 + m.te % 2 ^ 36 * 2 ^ 16 else 0) + m.arg % 2 ^ 48 * 2 ^ 52

/-- Bits of a frame below its own CRC-32C with that CRC above them (R69). -/
def withCrc (n v : Nat) : Nat := v % 2 ^ n + crc32cBits n (v % 2 ^ n) * 2 ^ n

/-- The frame start block of a downstream frame (R68). -/
def DownFrame.fsb (d : DownFrame) : Nat :=
  withCrc 224 (typeFsb + d.num % 2 ^ 48 * 2 ^ 8 + flagNat d.safe * 2 ^ 56)

/-- The fixed area of a downstream frame (R74): write bits, their counts and the command slots; an unused slot is 0. -/
def DownFrame.area (d : DownFrame) : Nat :=
  withCrc 4064 (join 100 (d.writeBits.map (·.2)) + join 7 (d.writeBits.map (·.1)) * 2 ^ 3200
    + join 100 (d.slots.map fun e => commandWord e.1 e.2) * 2 ^ 3424)

/-- The blocks of a downstream frame before its fill (R67). -/
def DownFrame.blocks (d : DownFrame) : List (BitVec 257) :=
  controlBlock d.fsb :: (pieces 256 16 d.area).map dataBlock

/-- The write bits of a frame leave the channel (R88): of each gate in turn, and none after the frame that carries its
close, one of `closes`. -/
def Head.sendBits (f : Nat) (closes : List Nat) (x : Head) : List (Nat × Nat) × Head :=
  let (now, later) := x.write.gates.partition x.gateSent
  let n := x.frameBits f
  let (out, now) := takeBits n now
  let gates := (now ++ later).map fun g => if g.closeTe.any closes.contains then { g with left := g.left.map fun _ => [] } else g
  (if n = 0 then List.replicate 32 (0, 0) else out.map fun l => (n, bitsNat l), x.onWrite fun w => { w with
    gates := gates.filter fun g => g.closeTe.all (f < ·) })

/-- A spindle BRIDGE rides the frame that starts at `f` ns (R252): its settle, short or sample begins to be timed. -/
def Head.bridgeSent (c : Ctx) (v f : Nat) (x : Head) : Head :=
  let s := x.r SpinReg.SSTATE
  if s = 3 ∧ v = 0 then
    if x.spin.settleAt.isNone then { x with spin := { x.spin with settleAt := some (10 * f + x.r RiserReg.LAT_DN) } } else x
  else if s = 4 ∧ v = 2 ∧ x.spin.fOn = none then
    let x : Head := { x with spin := { x.spin with fOn := some f } }
    x.bridge { c with now := 16 * (f + 100 * atLeast1 (x.r SpinReg.PROBE_FR)) - 320 } 0
  else if s = 4 ∧ v = 0 ∧ x.spin.fOn.isSome ∧ x.spin.fOff = none then
    { x with spin := { x.spin with fOff := some f } }
  else x

/-- The first ACT of a generator's pair rides the frame at `f` ns: its arrival is kept for the origin latch (R274). -/
def Head.actSent (out f : Nat) (x : Head) : Head :=
  let first (g : Fin 2) (x : Head) : Head := x.onGen g fun s =>
    if s.firstAct.isNone then { s with firstAct := some (10 * f + x.r RiserReg.LAT_DN) } else s
  if out = 9 then first 0 x else if out = 11 then first 1 x else x

/-- What placing a command in a frame does at the device: its record is kept, and firmware's command is gone (R85,
R94). -/
def Head.placed (c : Ctx) (num : Nat) (x : Head) (m : RCmd) : Head :=
  let seq := x.riser.seq
  let x : Head := { x with riser := { x.riser with
    seq := (seq + 1) % 128
    sent := x.riser.sent ++ [{ seq := seq, op := m.op, arg := m.arg, src := m.src, frame := num, issued := m.issued }] } }
  let x : Head := if m.src = .firmware then x.put RiserReg.FW_GO false else x
  if m.op = 7 ∧ m.src = .spindle then x.bridgeSent c (m.arg % 4) (100 * num)
  else if m.op = 6 then x.actSent (m.arg % 32) (100 * num)
  else x

/-- SAFE is ordered in the frame that starts at `f` (1/16 ns): FRAMED orders it always, and in UP a cause recognised at
least 20 ns before (R79, R91). -/
def Head.safeBit (f : Nat) (x : Head) : Bool :=
  x.r RiserReg.STATE == 5 || (!x.riser.causes.isEmpty && decide (x.riser.safeSince + 320 ≤ f))

/-- The downstream frame `num` is built and sent (R67, R68, R74, R87). -/
def Head.sendFrame (c : Ctx) (num : Nat) (x : Head) : Head :=
  let f := 1600 * num
  let x := x.writeSettle c
  let cmds := if x.up then x.frameCmds f else []
  let x : Head := { x with riser := { x.riser with queue := cmds.foldl (fun q m => q.erase m) x.riser.queue } }
  let seq := x.riser.seq
  let (bits, x) := if x.up then x.sendBits f ((cmds.filter (·.op == 5)).map (·.te)) else (List.replicate 32 (0, 0), x)
  let frame : DownFrame := {
    num := num % 2 ^ 48, safe := x.safeBit f, writeBits := bits
    slots := (cmds.zip (List.range 4)).map fun p => (p.1, (seq + p.2) % 128) }
  let x : Head := cmds.foldl (Head.placed c num) x
  { x with riser := { x.riser with
    lastDown := some frame, tx := x.riser.tx.frame (f + Config.devTx.val) frame.blocks } }

/-- The device sends frames: in FRAMED and UP, and, with SAFE, after a link loss until training starts or a reset (R79, R80;
DESIGN CHOICE, log entry 131). -/
def Head.sendsFrames (x : Head) : Bool :=
  x.r RiserReg.STATE == 5 || x.r RiserReg.STATE == 6 || (x.r RiserReg.STATE == 0 && x.riser.lossAt.isSome)

/-- A frame time has begun in which no downstream frame has been sent; SYSCLK makes the frame clock (R41, R67, R496). -/
def Head.frameDue (c : Ctx) (x : Head) : Bool :=
  x.sendsFrames && (match x.riser.lastDown with
    | none => true
    | some d => d.num != c.now / 1600 % 2 ^ 48)

/-- DOWNSTREAM_FRAME (R87). -/
def execDownstreamFrame (wait : Nat) (h : Fin 32) (s : State) : Out :=
  s.after wait (fun s => s.pkg.sysclk && s.live h && (s.head h).frameDue (s.ctx h)) fun s =>
    s.onHead h fun x => x.sendFrame (s.ctx h) (s.h16 h / 1600)

/-! ### Acknowledgements -/

/-- What a command's source does when it is acknowledged, or lost (`ok` false) (R85, R174, R227, R253, R287). -/
def Head.ackSource (c : Ctx) (ok : Bool) (m : SentCmd) (x : Head) : Head :=
  match m.src with
  | .landing => if m.op = 8 ∧ bitsOf m.arg 7 6 = 1 then x.laserAck c ok m.issued else x
  | .spindle => if m.op = 7 then x.probeAck c ok (100 * m.frame) else x
  | .cal => if m.op = 0x0A then (if ok then { x with cal := { x.cal with stimSent := false } } else x.calStimBad c) else x
  | .write => if m.op = 0x0B then x.stratAck ok m.issued else x
  | .loop =>
    if m.op = 6 ∧ m.arg % 32 = 7 ∧ ok ∧ 2 ^ 30 ≤ signedOf 32 (bitsOf m.arg 39 8) then
      { x with spin := { x.spin with chopAcked := true } }
    else x
  | _ => x

/-- An ACK entry (R72, R85): SEQ, STATUS, VALID. -/
def Head.takeAck (c : Ctx) (x : Head) (e : Nat) : Head :=
  if !bitOf e 11 then x
  else
    match x.riser.sent.find? fun m => m.seq == e % 128 with
    | none => x
    | some m =>
      let ok := bitsOf e 10 7 == 0
      let x : Head := { x with riser := { x.riser with sent := x.riser.sent.erase m } }
      let x : Head := if ok then x else (x.flag RiserReg.CMD_REFUSED).bump RiserReg.CMD_REFUSED_COUNT 1
      x.ackSource c ok m

/-- The oldest command without an acknowledgement for 16 frames, counted from the start of the frame that carried it (R85;
DESIGN CHOICE, log entry 131). -/
def Head.lostCmd (c : Ctx) (x : Head) : Option SentCmd :=
  x.riser.sent.find? fun m => decide ((m.frame + 16) * 1600 ≤ c.now)

/-- CMD_LOST (R85). -/
def execCmdLost (wait : Nat) (h : Fin 32) (s : State) : Out :=
  s.liveAfter wait h (fun c x => (x.lostCmd c).isSome) fun c x =>
    match x.lostCmd c with
    | none => x
    | some m =>
      let x : Head := { x with riser := { x.riser with sent := x.riser.sent.erase m } }
      ((x.flag RiserReg.CMD_LOST).bump RiserReg.CMD_LOST_COUNT 1).ackSource c false m

/-! ### Upstream frames -/

end Sys2Proof.Machine

namespace Sys2Proof

/-- The frame start block is good: its type and its CRC (R68, R69). -/
def UpFrame.fsbGood (f : UpFrame) : Bool :=
  f.fsb.toNat % 256 == 0xD2 && Machine.crc32cBits 224 (f.fsb.toNat % 2 ^ 224) == f.fsb.toNat / 2 ^ 224

/-- The frame is good (R75). -/
def UpFrame.good (f : UpFrame) : Bool :=
  f.fsbGood && !f.broken && Machine.crc32cBits 58592 (f.area.toNat % 2 ^ 58592) == f.area.toNat / 2 ^ 58592

/-- FRAME_NUM (R68). -/
def UpFrame.num (f : UpFrame) : Nat := bitsOf f.fsb.toNat 55 8
/-- SAFE (R68). -/
def UpFrame.safe (f : UpFrame) : Bool := f.fsb.toNat.testBit 56
/-- DN_LOCK (R68). -/
def UpFrame.dnLock (f : UpFrame) : Bool := f.fsb.toNat.testBit 57
/-- DN_BAD (R68). -/
def UpFrame.dnBad (f : UpFrame) : Bool := f.fsb.toNat.testBit 58
/-- The samples (R70). -/
def UpFrame.samples (f : UpFrame) : BitVec 57750 := f.area.extractLsb' 0 57750
/-- The servo and telemetry area (R70). -/
def UpFrame.servo (f : UpFrame) : BitVec 800 := f.area.extractLsb' 57750 800

/-- The fill count lies more than 2 away from both nominal values of its row (R67): the row of a frame with a marker where a
marker came in with its blocks (DESIGN CHOICE, log entry 131). -/
def UpFrame.fillBad (f : UpFrame) : Bool :=
  if f.marker then decide (f.fill < 9 ∨ 14 < f.fill) else decide (f.fill < 16 ∨ 21 < f.fill)

end Sys2Proof

namespace Sys2Proof.Machine

/-- A frame joins the de-jitter buffer, which holds the frames of its last 64 numbers (R77). -/
def Head.bufferFrame (num : Nat) (v : Option (BitVec 57750)) (x : Head) : Head :=
  { x with riser := { x.riser with buffer := (x.riser.buffer ++ [(num, v)]).drop (x.riser.buffer.length - 63) } }

/-- The servo history takes the record of a frame (R199). -/
def Head.pushServo (r : ServoRec) (x : Head) : Head :=
  { x with loops := { x.loops with servo := (r :: x.loops.servo).take 48 } }

/-- A bad frame, or one missing from the sequence, with number `num` (R48, R75, R222). -/
def Head.badFrame (c : Ctx) (num : Nat) (x : Head) : Head :=
  let x : Head := (x.flag RiserReg.BAD_FRAME).bump RiserReg.BAD_FRAMES 1
  let x : Head := { x with riser := { x.riser with
    badRun := x.riser.badRun + 1, goodRun := 0, latFrames := x.riser.latFrames } }
  let x : Head := x.bufferFrame num none
  let x : Head := x.pushServo { ServoRec.reset with num := num, good := false }
  let x : Head := ((x.motorMissing).updateBand.sampleBanks c).frameWindows num true false
  if x.r SpinReg.SSTATE = 4 ∧ x.spin.fOff = some (100 * num) then x.probeFails c else x

/-- The head-end's SAFE bit (R92, R217): its rise sends the head to SAFE, its fall with the link UP to PARKED. -/
def Head.headEndSafe (c : Ctx) (v : Bool) (bus : Nat) (x : Head) : Head :=
  let was := x.b RiserReg.HE_SAFE
  let x : Head := x.put RiserReg.HE_SAFE v
  if v ∧ ¬ was then
    let x : Head := (x.flag RiserReg.HE_SAFE_ENTERED).enterSafe c false
    { x with spin := { x.spin with ovSince := if x.r SpinReg.VB_OV ≤ bus then some c.cyc else none } }
  else if was ∧ ¬ v ∧ x.up ∧ x.r LandReg.HSTATE = 10 then (x.setHstate 1).refresh c
  else x

/-- The motor angle of a good frame (R44, R72, R239, R240): the motor tracker runs on every one with ANGLE_VALID = 1, also
while an angle fault lasts, and starts again with the sample that clears the fault. -/
def Head.frameMotor (c : Ctx) (a : BitVec 800) (num : Nat) (x : Head) : Head :=
  let bad := bitOf (srvInputs a) 10
  let tk := (1600 * num + srvStamp a) / 16 * 16
  let x : Head := if srvAngleValid a then x.motorSample c (srvMotor a) tk else x.motorMissing
  let x : Head := if bad then x.angleFault c else x
  if srvAngleValid a then
    let x : Head := if bad then x
      else { x with spin := { x.spin with
        fault := false, seen := true, lastGood := c.ns, samples := if x.spin.fault then 0 else x.spin.samples } }
    (x.trackMotor (srvMotor a) tk).afterMotor c
  else x

/-- SPARE_STATE is compared with the position that sampler 32 should cover (R90, R287). -/
def Head.frameSpare (c : Ctx) (a : BitVec 800) (num : Nat) (x : Head) : Head :=
  let want := (x.coveredAt (1600 * num : Nat)).getD 32
  if srvSpare a = want then x else (x.flag RiserReg.SPARE_MISMATCH).calMismatch c

/-- WRITE_ABORT of a good frame (R188). -/
def Head.frameAbort (c : Ctx) (a : BitVec 800) (x : Head) : Head :=
  let v := srvAbort a
  if v = 0 then x else (x.flag RiserReg.WRITE_ABORTED).writeAbort c v

/-- The inputs of a good frame that report faults of the head-end (R72, R237). -/
def Head.frameInputs (a : BitVec 800) (x : Head) : Head :=
  let inp := srvInputs a
  let old := x.land.lastInputs
  let rose := (List.range 13).any fun k => bitOf inp k && !bitOf old k && (k == 5 || k == 8 || k == 9 || k == 10 || k == 11)
  { x.flagIf rose LandReg.INPUT_FAULT with land := { x.land with lastInputs := inp } }

/-- Everything a good frame's servo area does in the head, the happenings of one instant in the order of R218 and R262: the
inputs and what the interlocks judge by them, the tracker and an angle fault, and then acknowledgements and the probe. -/
def Head.goodFrame (c : Ctx) (a : BitVec 800) (num : Nat) (x : Head) : Head :=
  let old := x.land.lastInputs
  let x : Head := { x with riser := { x.riser with servo := a, servoFrame := num, servoSeen := true } }
  let x : Head := (((x.frameInputs a).busFrame a old).frameMotor c a num).refreshInhibit c
  let x : Head := ((x.updateKv a).updateBand).sampleBanks c
  let x : Head := x.stepFrame a (100 * num) old
  let x : Head := x.takeTemp a
  let x : Head := (x.frameWindows num false (bitOf (srvInputs a) 12)).frameEdges a num
  let x : Head := x.pushServo { num := num, good := true, area := a, wm := x.wm
                                dev := x.ri (StepReg.DEV 0), devSa := x.ri (StepReg.DEV 1) }
  let x : Head := (x.frameSpare c a num).frameAbort c a
  let x : Head := (List.range 4).foldl (fun x i => x.takeAck c (srvAck a i)) x
  if x.r SpinReg.SSTATE = 4 ∧ x.spin.fOff = some (100 * num) then x.probeGood c a (100 * num) else x

/-- The numbers missing before frame `num` where `next` was due: none where the sequence runs on or runs back. -/
def missingNums (next : Option Nat) (num : Nat) : List Nat :=
  match next with
  | none => []
  | some n => if n < num then (List.range (num - n)).map (n + ·) else []

/-- A frame start or a bad frame in the sequence of frame numbers, and what every received frame counts (R67, R75,
R79, R80). -/
def Head.receive (c : Ctx) (f : UpFrame) (x : Head) : Head :=
  let good := f.good
  let num := if f.fsbGood then f.num else x.riser.nextNum.getD 0
  let gap := if f.fsbGood then missingNums x.riser.nextNum num else []
  let slip := f.fsbGood && (match x.riser.nextNum with | none => false | some n => n != num)
  let x : Head := (x.flagIf f.fillBad RiserReg.FILL_RANGE).flagIf slip RiserReg.FRAME_SLIP
  let x : Head := gap.foldl (fun x n => x.badFrame c n) x
  let x : Head := { x with riser := { x.riser with
    nextNum := some ((num + 1) % 2 ^ 48)
    noLockRun := if !f.fsbGood then x.riser.noLockRun
      else if f.dnLock then (if 4 ≤ x.riser.noLockRun then x.riser.noLockRun else 0)
      else x.riser.noLockRun + 1 } }
  if !good then x.badFrame c num
  else
    let x : Head := { x with riser := { x.riser with
      badRun := if 4 ≤ x.riser.badRun then x.riser.badRun else 0
      goodRun := if f.dnLock ∧ ¬ f.dnBad then x.riser.goodRun + 1 else 0
      latMax := if x.r RiserReg.STATE = 5 then max x.riser.latMax f.late else x.riser.latMax
      latFrames := if x.r RiserReg.STATE = 5 then x.riser.latFrames + 1 else x.riser.latFrames } }
    (x.bufferFrame num (some f.samples)).goodFrame c f.servo num

/-- What a good frame says of FAULT and SAFE, which come before everything else in it (R217, R218, R262): INPUTS[4] routes
the head to FAULT, and the head-end's SAFE bit is followed; an entry into SAFE that the head-end made on its own is logged
(R454). -/
def State.frameSafe (h : Fin 32) (f : UpFrame) (s : State) : State :=
  let a := f.servo
  let s := if bitOf (srvInputs a) 4 then s.faultHead h 1 else s
  let before := (s.head h).r LandReg.HSTATE
  let s := s.onHead h (Head.headEndSafe (s.ctx h) f.safe (srvBus a))
  let x := s.head h
  if x.r LandReg.HSTATE = 10 ∧ before ≠ 10 then s.log (tileOf h) 0x20 h (x.r RiserReg.SAFE_CAUSE) 0 else s

/-- A whole frame is taken (R75, R217). -/
def State.upstream (h : Fin 32) (f : UpFrame) (s : State) : State :=
  (if f.good then s.frameSafe h f else s).onHead h (Head.receive (s.ctx h) f)

/-- What the lanes brought is taken, and with it the first frame that is there whole (R64, R67). -/
def State.lineFrame (h : Fin 32) (l : LineRx) (s : State) : State :=
  let s := s.onHead h (Head.lineIn l)
  match (s.head h).riser.rx.frame l.late with
  | none => s
  | some (f, rx) => (s.onHead h fun x => { x with riser := { x.riser with rx := rx } }).upstream h f

/-- UPSTREAM_FRAME (R75): a frame reaches the device while the link carries frames. -/
def execUpstreamFrame (wait : Nat) (h : Fin 32) (l : LineRx) (s : State) : Out :=
  s.after wait (fun s => s.live h && ((s.head h).r RiserReg.STATE == 5 || (s.head h).up)) (State.lineFrame h l)

/-! ### Register writes -/

/-- SAFE_CMD is written (R91): 1 is a SAFE cause of the head, 0 withdraws it, unless the Landing orders SAFE. -/
def State.safeCmd (h : Fin 32) (v : Bool) (s : State) : State :=
  let s := s.onHead h (·.put RiserReg.SAFE_CMD v)
  if v then s.safeHead h 1
  else s.onHead h fun x => if x.land.safeOrdered then x else x.safeEnds 1

/-- SAFE_RELEASE is written with 1 (R93). -/
def Head.safeRelease (c : Ctx) (x : Head) : Head :=
  if x.riser.causes.isEmpty then x.issue c { RCmd.reset with op := 2, src := .endpoint } else x.flag RiserReg.SAFE_HELD

/-- FW_GO is written with 1 (R94, R174): ignored while it reads 1, refused for a timed opcode, ACT and a reserved one,
discarded while the link is not UP. -/
def Head.fwGo (c : Ctx) (x : Head) : Head :=
  let op := x.r RiserReg.FW_OPCODE
  if x.b RiserReg.FW_GO then x
  else if (3 ≤ op ∧ op ≤ 6) ∨ 0x0C < op then x.flag RiserReg.FW_CMD_BAD
  else if !x.up then x
  else
    let arg := x.r RiserReg.FW_ARG_LO + x.r RiserReg.FW_ARG_HI * 2 ^ 32
    let x : Head := (x.issue c { RCmd.reset with op := op, arg := arg, src := .firmware }).put RiserReg.FW_GO true
    if op = 0x0B then x.stratMark (arg % 2 ^ 16 / 16) false else x

end Sys2Proof.Machine
end

