-- ==== Sys2Proof/Machine/Read.lean ====
section
/-! DEFINITION. The read channels of a head at work (05_read_channel.md): samples delivered to the beam channels,
gates, retention, defect hold, decoding and delivery, and the replay engine of a tile. -/

namespace Sys2Proof.Machine

/-! ### Samples -/

/-- Sample `n` (250 times the frame number, plus its place) of sampler `i` as the de-jitter buffer gives it: its value, or
an erasure, and whether the frame has not been received (R71, R75, R77, R80). -/
def Head.sampleOf (i n : Nat) (x : Head) : Option Int × Bool :=
  if !x.up then (none, false)
  else match x.riser.buffer.find? (·.1 == n / 250) with
    | none => (none, true)
    | some (_, none) => (none, false)
    | some (_, some v) => (some (signedOf 7 ((v.toNat >>> (231 * (n % 250) + 7 * i)) % 128)), false)

/-- The sampling time of sample `n` of sampler `i` in 1/16 ns, corrected by the skew that channel `k` has in force (R60). -/
def Head.sampleTime (k i n : Nat) (x : Head) : Int := (4096 * (n : Int) + x.sSkew k i) / 640

/-- The table position of channel `k` at sampling time `t` (R118, R119): its own, and for channel 32 the position that the
spare covers then, or SHADOW_POS. -/
def Head.tablePos (k : Nat) (t : Int) (x : Head) : Nat :=
  if k < 32 then k
  else match x.coveredAt t with
    | some b => b
    | none => x.r (BeamReg.SHADOW_POS 32) % 32

/-- The code strength of a layer and zone under a REGION (R119, R121). -/
def Head.gateStrength (region layer zone : Nat) (x : Head) : Nat :=
  if region = 1 ∨ region = 2 then 3 else x.strengthOf layer zone

/-- The statistics record of a channel is changed. -/
def Head.onStats (k : Fin 33) (f : Mem → Mem) (x : Head) : Head := x.onBeam k fun b => { b with stats := f b.stats }

/-! ### Decoding a position -/

/-- The four tracks of a group's record, in order. -/
def GroupRec.tracks (r : GroupRec) : List TrackEnd :=
  (List.range 4).map fun q => (r.ends.find? fun e => e.track == 4 * r.group + q).getD .reset

/-- RESULT of a group that is not decoded (R144, R148): ABORTED, BLANK or NO_FRAME. -/
def undecoded (l : List TrackEnd) : Option Nat :=
  if l.any (·.aborted) then some 7
  else if l.all (·.code == 4) then some 6
  else if l.any fun e => decide (3 ≤ e.code) then some 5
  else none

/-- The result of codeword `a` of four tracks (R143, R144): decoded, or why it is not. -/
def Head.decodeOf (a : Nat) (l : List TrackEnd) (x : Head) : CwResult :=
  match undecoded l with
  | some code => plainResult code a l (l.map (·.llrs))
  | none => decodeTracks (x.r (WeftReg.ITER_MAX) / 2 ^ (8 * (l.headD .reset).strength) % 256) a l (l.map (·.llrs))

/-- The frame of beam channel 32 is that of its table position: their gates were open together (R118). -/
def TrackEnd.beside (e home : TrackEnd) : Bool :=
  e.track == home.track && e.sector == home.sector && decide (e.tOpen < home.tClose) && decide (home.tOpen < e.tClose)

/-- The decoder of beam channel 32 (R118): the codeword whose home track is its table position, with its own stream in the
place of that track's. No field of R160 shows it (log entry 39). -/
def Head.ownDecode (i : Nat) (r : GroupRec) (x : Head) : Head :=
  match x.weft.shadow with
  | none => x
  | some e =>
    if e.beside (r.tracks.getD (i % 4) .reset) then
      { x with weft := { x.weft with
        own := some (x.decodeOf (i % 4) (r.tracks.set (i % 4) e)), shadow := none } }
    else x

/-- A frame of beam channel 32 that ends after the decoder of its table position is decoded then (R118). -/
def Head.lateOwn (x : Head) : Head :=
  match x.weft.shadow with
  | none => x
  | some e =>
    match (x.weft.groups ++ x.weft.recent).find? fun r =>
        r.ends.length == 4 && r.results.any (·.index == e.track % 4) && e.beside (r.tracks.getD (e.track % 4) .reset) with
    | some r => x.ownDecode e.track r
    | none => x

/-! ### Gates -/

/-- The slot a gate open claims (R151): a FREE one, otherwise the DONE one with the older frame. -/
def claimSlot (l : List RetSlot) : Option Nat :=
  match l.findIdx? (·.state == 0) with
  | some k => some k
  | none =>
    let done := (l.zip (List.range l.length)).filter (·.1.state == 2)
    (done.foldl (fun (b : Option (RetSlot × Nat)) e => match b with
      | none => some e
      | some c => if e.1.te < c.1.te then some e else some c) none).map (·.2)

/-- A SECTOR_GATE_OPEN takes effect in channel `k` at a sample of sampler `i` of sampling time `t` (R134, R151, R157). -/
def Head.gateOpens (k : Fin 33) (i : Nat) (t : Int) (ev : GateEv) (bad : Bool) (x : Head) : Head :=
  let open' := (x.beam k).gate.isSome
  let x : Head := if open' then
      ((x.endFrame k .cut ev.te).flag (BeamReg.GATE_ORDER k)).onStats k fun m => statAdd m 30 2 1
    else x
  let x : Head := x.onBeam k fun b => { b with retain := b.retainPend.getD b.retain, retainPend := none }
  let x : Head := (x.w (BeamReg.SECTOR k) (ev.arg % 64)).scorrTake k i
  let b := x.beam k
  let region := if x.r WeftReg.REGION = 3 then 0 else x.r WeftReg.REGION
  let wants := decide (k.val < 32) && x.b WeftReg.RET_EN && b.retain
  let slot := if wants then claimSlot b.slots else none
  let x : Head := if wants ∧ slot.isNone then (x.flag WeftReg.RET_DROP).bump WeftReg.RET_DROP_COUNT 1 else x
  let g := Gate.start (ev.arg % 64) b.layer b.zone region (x.tablePos k t) (x.gateStrength region b.layer b.zone) ev.te ev.w
  let g : Gate := { g with
    band := x.r WeftReg.BAND_EXP, setTag := x.r WeftReg.SET_TAG_EXP, sampler := i, source := i, slot := slot
    spareSeen := i == 32 && k.val != 32
    erase := bad || !x.b (BeamReg.ENABLE k) || x.b (BeamReg.FORCE_ERASE k) }
  let slots := match slot with
    | none => b.slots
    | some n => b.slots.set n { RetSlot.reset with
      state := 1, te := ev.te, w := ev.w, live := { TrackEnd.reset with track := k, sector := ev.arg % 64 } }
  x.onBeam k fun b => { b with gate := some g, slots := slots, holding := false }

/-- The frame of channel `k` ends by gate close (R134): statistics, a PCA unit's measurements (R179), a calibration
frame (R290), and the gate of a verify revolution (R184). -/
def Head.frameCloses (k : Fin 33) (te : Int) (x : Head) : Head :=
  match (x.beam k).gate with
  | none => x
  | some g =>
    let env := x.gateEnv k g
    let done := g.finish env
    if g.region = 2 then
      let x : Head := x.unitRead k g.units.reverse (g.wins.reverse.map (·.2)) (done.softs.toList.map (·.hard))
        (entryEref env.entry)
      x.endFrame k .close te
    else
      let x : Head := x.onStats k (done.stat env)
      let x : Head := x.endFrame k .close te
      if k.val < 32 then
        let x : Head := x.calFrame k te ((x.beam k).stats.readLE 44 4)
        if x.verifying then x.onWrite fun w => { w with readGates := w.readGates + 1 } else x
      else x.lateOwn

/-- The frame bit at the instant `te` (R137, R138): the frame bits formed, and those of the bit periods up to it, of which
a gap has none. -/
def Gate.bitsAt (g : Gate) (te : Int) : Nat :=
  let ahead := ((te * 10 * 2 ^ 18 - g.tau + (g.incNom + g.freq - 1)) / max 1 (g.incNom + g.freq)).toNat
  g.formed + ((List.range ahead).filter fun p => match periodAt g.region g.k g.strength g.sector (g.periods + p) with
    | .data _ => true
    | _ => false).length

/-- A RESYNC_EXPECT takes effect in an open frame (R137, R138): it names a centre to a search of an unframed track, live or in
a retry, and in the framed state its distance from the mark's place goes to RES_DRIFT. -/
def Head.resyncExpect (k : Fin 33) (j : Nat) (te : Int) (x : Head) : Head :=
  match (x.beam k).gate with
  | none => x
  | some g =>
    let x : Head := if g.framing.phase = 1 ∧ 1 ≤ j ∧ j ≤ resyncs g.strength then
        x.onStats k fun m => m.writeLE 52 2 (unsignedOf 16 ((g.bitsAt te : Int) - markPlace g.framing.d0 j))
      else x
    x.onBeam k fun b => { b with gate := some { g with expects := (j, g.bitsAt te) :: g.expects } }

/-- An event takes effect in channel `k` at a sample of sampling time `t` (R54, R60, R134, R157). -/
def Head.gateEvents (k : Fin 33) (i : Nat) (t : Int) (bad : Bool) (ev : GateEv) (x : Head) : Head :=
  match ev.kind with
  | 1 => x.gateOpens k i t ev bad
  | 2 =>
    if (x.beam k).gate.any fun g => g.region == 2 || g.sector == ev.arg % 64 then x.frameCloses k ev.te
    else (x.flag (BeamReg.GATE_ORDER k)).onStats k fun m => statAdd m 30 2 1
  | 7 => x.resyncExpect k (ev.arg % 256) ev.te
  | 0xC => x.onBeam k fun b =>
      if b.gate.isSome then { b with retainPend := some (bitOf ev.arg 0) } else { b with retain := bitOf ev.arg 0 }
  | 0xD => x.onBeam k fun b =>
      if b.gate.isSome then { b with zonePend := some (ev.arg % 16, ev.arg / 16 % 16) }
      else { b with layer := ev.arg % 16, zone := ev.arg / 16 % 16 }
  | _ => x

/-! ### Retention -/

/-- First byte of slot `n` of position `k`, and its size in samples (R150). -/
def Head.slotBase (k n : Nat) (x : Head) : Nat × Nat :=
  let half := max 2 (min 16 (x.r WeftReg.RET_STRIDE)) * 2 ^ 19
  (x.r WeftReg.RET_BASE * 4096 + 2 * k * half + n * half, 8 * half / 7)

/-- Seven bits of a retained sample (R150): an erased one is -64, and a received -64 is -63. -/
def retained (v : Option Int) : Nat := unsignedOf 7 (match v with | none => -64 | some v => max (-63) v)

/-- A sample joins the slot that channel `k` fills (R150): the line that it lies in goes to the stack as far as it is
filled, and a sample beyond the slot's size makes the slot PARTIAL. -/
def State.retain (h : Fin 32) (k : Fin 33) (v : Option Int) (s : State) : State :=
  let x := s.head h
  match (x.beam k).gate.bind (·.slot) with
  | none => s
  | some n =>
    let r := ((x.beam k).slots[n]?).getD .reset
    let (base, size) := x.slotBase k n
    if size ≤ r.count then
      s.onHead h fun x => (x.onBeam k fun b => b.onSlot n fun r => { r with partialSlot := true }).flag WeftReg.RET_PARTIAL
    else
      let bits := 7 * r.count % 512
      let tail := r.tail + retained v * 2 ^ bits
      let full := 512 ≤ bits + 7
      let s := s.stackWrite (tileOf h) (base + 64 * (7 * r.count / 512)) (bytesOf ((bits + 14) / 8) tail)
      s.onHead h fun x => x.onBeam k fun b => b.onSlot n fun r => { r with
        count := r.count + 1, tail := if full then tail / 2 ^ 512 else tail }

/-! ### Delivery -/

/-- Byte numbers of a channel table entry in error are counted and captured, and an uncorrectable one erases the
frame (R378, R380). -/
def State.noteEntry (h : Fin 32) (k : Fin 33) (t : Int) (s : State) : State × Bool :=
  let x := s.head h
  let b := x.beam k
  let region := if x.r WeftReg.REGION = 3 then 0 else x.r WeftReg.REGION
  let a := entryAt b.layer (regionIndex region b.zone) (x.tablePos k t)
  let ad (w : Nat) : Nat := sramAddr (headArray (localOf h) 1) w
  (s.noteSram (tileOf h) x.chanMem a 32 ad .channelTable, x.chanMem.bad a 32)

/-- The events of channel `k` that sample `n` of sampler `i` reaches are taken (R60). -/
def State.channelEvents (h : Fin 32) (k : Fin 33) (i n : Nat) (s : State) : State :=
  let x := s.head h
  let reached (e : GateEv) : Bool := decide (e.te * 640 ≤ 4096 * (n : Int) + x.sSkew k i)
  let due := (x.beam k).events.filter reached
  let s := s.onHead h fun x => x.onBeam k fun b => { b with events := b.events.filter fun e => !reached e }
  due.foldl (fun (s : State) ev =>
    let t := (s.head h).sampleTime k i n
    let (s, bad) := if ev.kind = 1 then s.noteEntry h k t else (s, false)
    s.onHead h (Head.gateEvents k i t bad ev)) s

/-- The signal path of channel `k` takes sample `n` of sampler `i` (R118 to R133). -/
def Head.signalPath (k : Fin 33) (i n : Nat) (v : Option Int) (x : Head) : Head :=
    let b := x.beam k
    let region := if x.r WeftReg.REGION = 3 then 0 else x.r WeftReg.REGION
    let entry := match b.gate with
      | some g => (x.gateEnv k g).entry
      | none => x.tableEntry b.layer (regionIndex region b.zone) (x.tablePos k (x.sampleTime k i n))
    let (w, sats) := match v with
      | some v => correctSample entry (x.sGain k i) (x.sOff k i) v
      | none => (Config.erasedSample 0, 0)
    let ws := ((w, v.isNone) :: b.ws).take 16
    let x : Head := x.onBeam k fun b => { b with ws := ws }
    let sat (n : Nat) (x : Head) : Head :=
      if n = 0 then x else (x.flag (BeamReg.EQ_SAT k)).onStats k fun m => statAdd m 28 2 n
    let x := sat sats x
    match b.gate with
    | none => x
    | some g =>
      let x : Head := x.flagIf (g.source != i) (BeamReg.SPARE_IN_GATE k)
      let g' := ({ g with spareSeen := g.spareSeen || (i == 32 && k.val != 32), source := i } : Gate).sample
        { x.gateEnv k g with skew := x.sSkew k i } ws n
      let new := (g'.bits.take (g'.bits.length - g.bits.length)).filter (·.frame)
      let holes := g'.erased - g.erased
      let flags := (new.filter (·.flagged)).length
      let x : Head := sat (g'.sats - g.sats) x
      let x : Head := x.flagIf (g'.defects && !g.defects) (BeamReg.DEFECT k)
      let x : Head := x.flagIf (0 < holes) (BeamReg.ERASED_INPUT k)
      let x : Head := x.flagIf (decide (g.limits < g'.limits)) (BeamReg.FREQ_LIMIT k)
      let x : Head := x.tellFound k g.framing g'.framing
      let x : Head := x.onStats k fun m => statAdd (statAdd m 20 4 flags) 24 4 holes
      x.onBeam k fun b => { b with gate := some g', holding := decide (max 1 (x.r WeftReg.HOLD_MIN) ≤ g'.flagRun) }

/-- Channel `k` meets sample `n` of sampler `i`: its events first, then retention and the signal path of an enabled
channel (R118, R158). -/
def State.channelSample (h : Fin 32) (k : Fin 33) (i n : Nat) (v : Option Int) (s : State) : State :=
  let s := s.channelEvents h k i n
  if (s.head h).b (BeamReg.ENABLE k) then (s.retain h k v).onHead h (Head.signalPath k i n v) else s

/-- The Weft unit's hold request (R132): it rises with the count of channels in a long run, and its fall is timed;
DH_BEAMS = 0 disables it. -/
def Head.holdCount (c : Ctx) (x : Head) : Head :=
  let n := ((List.range 32).filter fun k => (x.beam (toSampler k)).holding).length
  let lim := x.r WeftReg.DH_BEAMS
  if lim = 0 then
    if x.weft.holdReq then ({ x with weft := { x.weft with holdReq := false, fellAt := none } }).refresh c else x
  else if lim ≤ n then
    let x : Head := x.flagIf (!x.weft.holdReq) WeftReg.HOLD_REQ
    ({ x with weft := { x.weft with holdReq := true, fellAt := none } }).refresh c
  else if x.weft.holdReq ∧ x.weft.fellAt = none then { x with weft := { x.weft with fellAt := some c.cyc } }
  else x

/-- The channels that consume sample `n` of sampler `i` (R62, R118): a switch applies from its t_e by the sampling time of
R60, as a gate does. -/
def Head.consumers (i : Fin 33) (n : Nat) (x : Head) : List (Fin 33) :=
  let cov := x.coveredAt (x.sampleTime i i n)
  if i.val = 32 then (match cov with | some k => [toSampler k, 32] | none => [32])
  else if cov = some i.val then [] else [i]

/-- A sample of sampler `i` falls due (R76): at its instant plus LAT_UP. -/
def Head.sampleDue (i : Fin 33) (c : Ctx) (x : Head) : Bool :=
  match lookupKey i x.riser.delivered with
  | none => false
  | some n => decide (64 * n + 16 * x.r RiserReg.LAT_UP ≤ 10 * c.now)

/-- The next sample of sampler `i` is delivered (R76, R77). -/
def State.deliver (h : Fin 32) (i : Fin 33) (s : State) : State :=
  match lookupKey i.val (s.head h).riser.delivered with
  | none => s
  | some n =>
    let x := s.head h
    let (v, late) := x.sampleOf i n
    let s := s.onHead h fun x =>
      let x : Head := x.flagIf late RiserReg.LATE_DATA
      let x : Head := { x with riser := { x.riser with delivered := insertKey i.val (n + 1) x.riser.delivered } }
      x.spareReached i (x.sampleTime i i n)
    let s := (x.consumers i n).foldl (fun s k => s.channelSample h k i n v) s
    s.onHead h fun x =>
      let c := s.ctx h
      ((x.calTone c i (64 * n) v).holdCount c).calSettle c

/-- BEAM_SAMPLE_DELIVERY (R77). -/
def execBeamSampleDelivery (wait : Nat) (h : Fin 32) (i : Fin 33) (s : State) : Out :=
  s.after wait (fun s => s.live h && (s.head h).sampleDue i (s.ctx h)) (State.deliver h i)

/-- DEFECT_HOLD_RELEASE (R132): DH_EXT ns after the count fell, the request is withdrawn. -/
def execDefectHoldRelease (wait : Nat) (h : Fin 32) (s : State) : Out :=
  s.liveAfter wait h
    (fun c x => x.weft.holdReq && (match x.weft.fellAt with
      | none => false
      | some f => decide (f + cyclesOfNs (x.r WeftReg.DH_EXT) ≤ c.cyc)))
    fun c x => ({ x with weft := { x.weft with holdReq := false, fellAt := none } }).refresh c

/-! ### Results -/

/-- The slot of a track still holds the frame it was claimed for (R151, R152). -/
def Head.slotOfEnd (e : TrackEnd) (x : Head) : Option RetSlot :=
  match e.slot with
  | none => none
  | some n => ((x.beam (toSampler e.track)).slots[n]?).filter fun r =>
      (r.state == 2 || r.state == 3) && r.live.sector == e.sector && r.live.tClose == e.tClose && !r.ue

/-- All four tracks have a whole slot (R152). -/
def Head.slotsWhole (l : List TrackEnd) (x : Head) : Bool :=
  l.all fun e => match x.slotOfEnd e with | some r => !r.partialSlot | none => false

/-- The slots of the tracks take a state (R152, R156). -/
def Head.slotsTo (l : List TrackEnd) (st : Nat) (x : Head) : Head :=
  l.foldl (fun (x : Head) e => match e.slot with
    | none => x
    | some n => if (x.slotOfEnd e).isSome then x.onBeam (toSampler e.track) fun b => b.onSlot n fun r => { r with state := st }
      else x) x

/-- Bit q for each track whose slot is held (R147). -/
def Head.heldMask (l : List TrackEnd) (x : Head) : Nat :=
  (l.zip (List.range l.length)).foldl (fun a e =>
    if (x.slotOfEnd e.1).any (·.state == 3) then a + 2 ^ e.2 else a) 0

/-- The status record of a result (R147). -/
def statusRecord (l : List TrackEnd) (r : CwResult) (pass hyp held : Nat) : List Byte :=
  let framing (e : TrackEnd) : Nat := e.code + 8 * flagNat (!e.slips.isEmpty) + 16 * flagNat (!e.misses.isEmpty)
    + 32 * flagNat e.spare
  let pos (e : TrackEnd) : Nat := if e.code ≤ 1 then unsignedOf 8 e.syncPos else 0x80
  let tc := l.foldl (fun (a : Int) e => max a e.tClose) 0
  bytesOf 5 ((l.getD r.index .reset).psa r.index) ++ bytesOf 3 0 ++ bytesOf 1 r.result ++ bytesOf 1 pass ++ bytesOf 1 r.iter
    ++ bytesOf 1 r.hdrFlags ++ l.flatMap (fun e => bytesOf 1 (framing e)) ++ l.flatMap (fun e => bytesOf 1 (pos e))
    ++ l.flatMap (fun e => bytesOf 1 (if e.code = 2 then e.framedAt else 0)) ++ bytesOf 4 r.erased ++ bytesOf 4 r.corrected
    ++ bytesOf 2 hyp ++ bytesOf 1 held ++ bytesOf 1 0 ++ bytesOf 8 (tc / 16).toNat
    ++ l.flatMap (fun e => bytesOf 1 e.sampler) ++ bytesOf 16 0

/-- RING_SLOTS as it acts (R159). -/
def Head.ringSlots (x : Head) : Nat := atLeast1 (x.r WeftReg.RING_SLOTS)

/-- The delivery ring is full (R146). -/
def Head.ringFull (x : Head) : Bool :=
  (x.r WeftReg.RING_WR + 1) % x.ringSlots == x.r WeftReg.RING_RD % x.ringSlots

/-- What a result counts (R148, R159). -/
def Head.countResult (code : Nat) (x : Head) : Head :=
  match code with
  | 0 => x.bump WeftReg.CW_FIRST_OK 1
  | 1 => x.bump WeftReg.CW_RETRY_OK 1
  | 2 => x.bump WeftReg.CW_UNCORR 1
  | 3 => x.bump WeftReg.CW_UNCORR 1
  | 4 => x.bump WeftReg.CW_UNCORR 1
  | 5 => x.bump WeftReg.CW_NO_FRAME 1
  | 6 => x.bump WeftReg.CW_BLANK 1
  | _ => x

/-- RING_THR_REACHED where at least RING_THR slots are pending (R159). -/
def Head.ringPending (x : Head) : Head :=
  let pending := (x.r WeftReg.RING_WR + x.ringSlots - x.r WeftReg.RING_RD % x.ringSlots) % x.ringSlots
  x.flagIf (x.r WeftReg.RING_THR ≤ pending) WeftReg.RING_THR_REACHED

/-- A result reaches the Landing with its PSA (R148), and it is counted; a header check that failed is flagged (R145). -/
def Head.takeResult (l : List TrackEnd) (r : CwResult) (x : Head) : Head :=
  let psa := (l.getD r.index .reset).psa r.index
  let x : Head := { x with weft := { x.weft with status := (r.result, psa) :: x.weft.status.take 255 } }
  (x.countResult r.result).flagIf (r.hdrFlags != 0) WeftReg.HDR_MISMATCH

/-- A result goes to the delivery ring (R146) and to the Landing (R148); a full ring drops it. True where it was
dropped. -/
def State.putResult (h : Fin 32) (l : List TrackEnd) (r : CwResult) (pass hyp held : Nat) (s : State) : State × Bool :=
  let t := tileOf h
  let s := s.onHead h (Head.takeResult l r)
  let x := s.head h
  if !x.b WeftReg.DELIVER_EN then (s, false)
  else if x.ringFull then (s.onHead h fun x => (x.flag WeftReg.RING_FULL).bump WeftReg.RING_DROP 1, true)
  else
    let a := x.r WeftReg.RING_BASE * 4096 + x.r WeftReg.RING_WR % x.ringSlots * 32896
    let data := (r.data ++ List.replicate (32832 - r.data.length) 0).take 32832
    let s := s.stackWrite t a (data ++ statusRecord l r pass hyp held)
    let s := s.onHead h fun x =>
      let x : Head := x.w WeftReg.RING_WR ((x.r WeftReg.RING_WR + 1) % x.ringSlots)
      (x.flagIf (2 ≤ r.result ∧ r.result ≤ 4) WeftReg.UNCORR).ringPending
    (s, false)

/-- All four codewords of a frame position have completed: in a verify revolution they go to the write channel in place of
the ring, and no slot is held (R184); otherwise the slots are held where they must be and the results are written in order (R146, R149, R152). -/
def State.writeGroup (h : Fin 32) (r : GroupRec) (s : State) : State :=
  let l := r.tracks
  let rs := (List.range 4).map fun a => (r.results.find? (·.index == a)).getD .reset
  if (s.head h).verifying then
    rs.foldl (fun (s : State) c => (s.onHead h (Head.takeResult l c)).verifyResult h r.sector (4 * r.group + c.index)
      c.result c.iter c.hdrFlags c.corrected c.data) s
  else
    let x := s.head h
    let whole := x.slotsWhole l
    let bad := rs.any fun c => c.result == 2 || c.result == 5
    let rs := if whole then rs else rs.map fun c => if c.result = 2 ∨ c.result = 5 then { c with result := 3 } else c
    let hold (s : State) : State := s.onHead h fun x =>
      let x : Head := x.slotsTo l 3
      { x with weft := { x.weft with held := x.weft.held.filter (fun e => !(e.group == r.group && e.sector == r.sector)) } }
    let s := if bad && whole then hold s else s
    let (s, sent) := rs.foldl (fun (p : State × Nat) c =>
      let room := (p.1.head h).b WeftReg.DELIVER_EN && (p.1.head h).ringFull
      let s := if room && whole && !l.any (·.stopped) then hold p.1 else p.1
      let (s, lost) := s.putResult h l c 0 0 ((s.head h).heldMask l)
      (s, if c.result = 0 ∧ ¬ lost then p.2 + 2 ^ c.index else p.2)) (s, 0)
    s.onHead h fun x =>
      if x.heldMask l = 15 then
        { x with weft := { x.weft with held := ⟨r.group, r.sector, sent, rs⟩ :: x.weft.held } }
      else x

/-- The record of a group that waits for the decoder of channel `i`: all four frames have ended (R140). -/
def Head.decodeReady (i : Fin 32) (x : Head) : Option GroupRec :=
  x.weft.groups.find? fun r => r.group == i.val / 4 && r.ends.length == 4 && !r.results.any (·.index == i.val % 4)

/-- The decoder of channel `i` ends (R143, R144). -/
def State.decodeDone (h : Fin 32) (i : Fin 32) (s : State) : State :=
  let x := s.head h
  match x.decodeReady i with
  | none => s
  | some r =>
    let c := x.decodeOf (i.val % 4) r.tracks
    let r' : GroupRec := { r with results := r.results ++ [c] }
    let done := r'.results.length == 4
    let s := s.onHead h fun x =>
      let x := x.ownDecode i r
      { x with weft := { x.weft with
        groups := if done then x.weft.groups.erase r else x.weft.groups.map fun q => if q = r then r' else q
        recent := if done then r' :: x.weft.recent.filter (·.group != r.group) else x.weft.recent } }
    if done then s.writeGroup h r' else s

/-- DECODE_COMPLETE (R143). -/
def execDecodeComplete (wait : Nat) (h : Fin 32) (i : Fin 32) (s : State) : Out :=
  s.after wait (fun s => s.live h && ((s.head h).decodeReady i).isSome) (State.decodeDone h i)

/-! ### Retry orders -/

/-- The slots that hold frame position `sector` of a group, track by track (R153). -/
def Head.heldEnds (group sector : Nat) (x : Head) : Option (List TrackEnd) :=
  let l := (List.range 4).map fun q =>
    ((x.beam (toSampler (4 * group + q))).slots.find? fun r => r.state == 3 && r.live.sector == sector && !r.ue).map (·.live)
  if l.all (·.isSome) then some (l.filterMap id) else none

/-- RELEASE is written with 1 (R153): the held slots of the named frame position are freed. -/
def Head.releaseSlots (x : Head) : Head :=
  let g := x.r WeftReg.GROUP
  let p := x.r WeftReg.SECTOR
  (List.range 4).foldl (fun (x : Head) q => x.onBeam (toSampler (4 * g + q)) fun b => { b with
    slots := b.slots.map fun r => if r.state = 3 ∧ r.live.sector = p then { r with state := 0 } else r }) x

/-- CLR_STATS of a channel is written with 1 (R160). -/
def Head.clearStats (k : Fin 33) (x : Head) : Head := x.onStats k fun _ => .empty

/-- A track shows a slip or a miss at mark `j`, or at any. -/
def TrackEnd.slipAt (e : TrackEnd) (j : Nat) : Bool := e.slips.contains j || e.misses.contains j

/-- The hypotheses of an order, in order: family, track, shift (R154). -/
def hypotheses (families : Nat) (l : List TrackEnd) : List (Nat × Nat × Int) :=
  let q := List.range l.length
  let at' (i : Nat) : TrackEnd := l.getD i .reset
  let slip (i : Nat) : Bool := !(at' i).slips.isEmpty || !(at' i).misses.isEmpty
  let synced := q.filter fun i => decide ((at' i).code ≤ 1)
  let order := synced.filter (fun i => (at' i).slipAt 1) ++ synced.filter (fun i => !(at' i).slipAt 1)
  let on (f : Nat) (v : List (Nat × Nat × Int)) : List (Nat × Nat × Int) := if bitOf families f then v else []
  let defect := l.any (·.defects)
  on 0 [(0, 0, 0)]
    ++ on 1 (match q.find? slip with | some i => [(1, i, 0)] | none => [])
    ++ on 2 (order.flatMap fun i => [1, 2, 3, -1, -2, -3].map fun (d : Int) => (2, i, d))
    ++ on 3 (order.map fun i => (3, i, 0))
    ++ on 4 (if defect then [(4, 0, 0)] else [])
    ++ on 5 (if defect then [(5, 0, 0)] else [])

/-- HYP of a status record (R147). -/
def hypCode (hyp : Nat × Nat × Int) (run : Nat) : Nat :=
  hyp.1 % 8 + hyp.2.1 % 4 * 8 + unsignedOf 3 hyp.2.2 * 32 + run % 256 * 256

/-- A head with a pending order, round robin after the last one served (R153). -/
def State.nextOrder (t : Fin 8) (s : State) : Option (Fin 4) :=
  let last := (s.tile t).replay.last
  ((List.range 4).map fun i => (⟨(last + 1 + i) % 4, by omega⟩ : Fin 4)).find? fun l =>
    s.live (headOf t l) && (s.head (headOf t l)).weft.order.any fun o => !o.started

/-- An order ends (R153, R156): ORDER_RESULT, ORDER_DONE, and the slots are freed unless KEEP. -/
def Head.orderEnd (status failed : Nat) (x : Head) : Head :=
  match x.weft.order with
  | none => x
  | some o =>
    let x : Head := if status = 0 ∧ ¬ o.keep then x.slotsTo o.ends 0 else x
    let x : Head := ((x.w WeftReg.STATUS status).w WeftReg.HYP_RUN o.hyp).w WeftReg.DECODED o.now
    let x : Head := ((x.w WeftReg.FAILED failed).flag WeftReg.ORDER_DONE).put WeftReg.BUSY false
    { x with weft := { x.weft with order := none } }

/-- GO is written with 1 (R153): the order is queued, or refused while one is pending or runs; one whose four slots are
not all held completes at once. -/
def Head.retryGo (x : Head) : Head :=
  if x.b WeftReg.BUSY then x.flag WeftReg.ORDER_REJ
  else
    let o : Order := { Order.reset with
      group := x.r WeftReg.GROUP, sector := x.r WeftReg.SECTOR, keep := x.b WeftReg.KEEP, families := x.r WeftReg.FAMILIES }
    let x : Head := { x.put WeftReg.BUSY true with weft := { x.weft with order := some o } }
    if (x.heldEnds o.group o.sector).isNone then x.orderEnd 1 0 else x

/-- The search is over (R156): what is not decoded is written UNCORR_FINAL, with what its last decode left. -/
def State.orderOver (h : Fin 32) (last : Nat × Nat × Int) (s : State) : State :=
  match (s.head h).weft.order with
  | none => s
  | some o =>
    let left := (List.range 4).filter fun a => !bitOf o.decoded a
    let held := if o.keep then 15 else 0
    let s := left.foldl (fun (s : State) a =>
      let c := (o.last.find? (·.index == a)).getD (plainResult 4 a o.ends (o.ends.map (·.llrs)))
      (s.putResult h o.ends { c with result := 4, hdrFlags := 0, corrected := 0 } 1 (hypCode last o.hyp) held).1) s
    let s := s.onHead h fun x => x.orderEnd 0 (left.foldl (fun m a => m + 2 ^ a) 0)
    s.onTile (tileOf h) fun x => { x with replay := { x.replay with running := none } }

/-- The replay engine takes an order (R153, R154). -/
def State.replayStart (t : Fin 8) (s : State) : State :=
  match s.nextOrder t with
  | none => s
  | some l =>
    let h := headOf t l
    let s := s.onTile t fun x => { x with replay := { x.replay with last := l.val } }
    let x := s.head h
    match x.weft.order with
    | none => s
    | some o =>
      match x.heldEnds o.group o.sector with
      | none => s.onHead h fun x => x.orderEnd 1 0
      | some ends =>
        let pos := (x.weft.held.find? fun e => e.group == o.group && e.sector == o.sector).getD .reset
        let done := pos.sent
        let o : Order := { o with
          ends := ends, todo := hypotheses o.families ends, decoded := done, par := x.chanPar, started := true
          last := pos.results }
        let s := s.onHead h fun x => { x with weft := { x.weft with order := some o } }
        let s := s.onTile t fun x => { x with replay := { x.replay with running := some l.val } }
        if o.todo.isEmpty ∨ done = 15 then s.orderOver h (0, 0, 0) else s

/-- REPLAY_START (R153). -/
def execReplayStart (wait : Nat) (t : Fin 8) (s : State) : Out :=
  s.after wait (fun s => (s.tile t).replay.running == none && (s.nextOrder t).isSome) (State.replayStart t)

/-- The samples of a held slot (R150, R380): -64, and what lies in an uncorrectable line, is erased. -/
def State.slotSamples (h : Fin 32) (k : Fin 33) (n : Nat) (s : State) : List (Option Int) :=
  let x := s.head h
  let r := ((x.beam k).slots[n]?).getD .reset
  let base := (x.slotBase k n).1
  (List.range r.count).map fun j =>
    let a := base + 7 * j / 8
    if s.stackUe (tileOf h) a 2 then none
    else
      let v := signedOf 7 ((s.stackLE (tileOf h) a 2) >>> (7 * j % 8))
      if v = -64 then none else some v

/-- The framing of a track under a hypothesis (R154): that of the live frame, but for the track that SYNC_SHIFT or
RESYNC_ONLY names, which is framed anew with the parameters of the order; so is a live NO_FRAME (log entry 42). -/
def Order.framing (o : Order) (q : Nat) (hyp : Nat × Nat × Int) (a : Array Soft) : Framing :=
  let e := o.ends.getD q .reset
  let go (f : Framing) : Framing := f.run a a.size true o.par e.strength e.expects searchesMax
  if hyp.1 = 2 ∧ hyp.2.1 = q then go (.synced e.code (384 + e.syncPos + hyp.2.2).toNat)
  else if hyp.1 = 3 ∧ hyp.2.1 = q then go .unsynced
  else if e.code = 3 then go .reset
  else { Framing.reset with
    code := e.code, syncPos := e.syncPos, framedAt := e.framedAt, d0s := e.d0s, slips := e.slips, misses := e.misses }

/-- The frame bits of a track that defects erase under a hypothesis (R154): those of the live frame, its runs extended by
EXT_ALT, or none. -/
def Order.deadBits (o : Order) (q : Nat) (hyp : Nat × Nat × Int) : List (Nat × Nat) :=
  let e := o.ends.getD q .reset
  if hyp.1 = 5 then []
  else if hyp.1 = 4 then e.runs.map fun r => (r.1 - o.par.extAlt, r.2 + o.par.extAlt)
  else e.dead

/-- The replay of one track under a hypothesis (R153 to R155): the LLRs of its data bits; none where the track has no
framing to decode by (R144). -/
def State.replayTrack (h : Fin 32) (o : Order) (q : Nat) (hyp : Nat × Nat × Int) (s : State) : Option (List Int) :=
  let x := s.head h
  let e := o.ends.getD q .reset
  let k := toSampler e.track
  match e.slot with
  | none => none
  | some n =>
    let r := ((x.beam k).slots[n]?).getD .reset
    let entry := x.tableEntry e.layer (regionIndex e.region e.zone) e.track
    let env : ChanEnv := { entry := entry, par := o.par, skew := x.sSkew k e.sampler, noDefect := hyp.1 == 5 }
    let g := Gate.start e.sector e.layer e.zone e.region e.track e.strength r.te r.w
    let n0 := firstSample r.te env.skew
    let run := (s.slotSamples h k n).foldl (fun (p : Gate × List (Int × Bool) × Int) v =>
      let w := match v with
        | some v => (correctSample entry (x.sGain k e.sampler) (x.sOff k e.sampler) v).1
        | none => Config.erasedSample 0
      let ws := ((w, v.isNone) :: p.2.1).take 16
      (p.1.sample env ws p.2.2, ws, p.2.2 + 1)) (g, [], n0)
    let g := run.1.flush entry
    let dead := o.deadBits q hyp
    let bits := (g.bits.filter (·.frame)).reverse
    let a := ((bits.zip (List.range bits.length)).map fun b =>
      if b.1.hole ∨ dead.any (fun r => decide (r.1 ≤ b.2 ∧ b.2 ≤ r.2)) then .reset else b.1.soft.getD .reset).toArray
    let f := o.framing q hyp a
    if 3 ≤ f.code then none
    else some (dataLlrs a e.strength f (if hyp.1 = 1 then e.slips ++ e.misses else []))

/-- The next hypothesis of the running order completes (R155, R156): newly decoded codewords are written, and the
search ends when all are decoded or the list is exhausted. -/
def State.hypothesis (t : Fin 8) (s : State) : State :=
  match (s.tile t).replay.running with
  | none => s
  | some l =>
    let h := headOf t ⟨l % 4, by omega⟩
    match (s.head h).weft.order with
    | none => s.onTile t fun x => { x with replay := { x.replay with running := none } }
    | some o =>
      match o.todo with
      | [] => s.orderOver h (0, 0, 0)
      | hyp :: todo =>
        let s := o.ends.foldl (fun (s : State) e => match e.slot with
          | none => s
          | some n =>
            let k := toSampler e.track
            let r := (((s.head h).beam k).slots[n]?).getD .reset
            s.stackTouch t (((s.head h).slotBase k n).1) ((7 * r.count + 7) / 8) .replay) s
        let tracks := (List.range 4).map fun q => s.replayTrack h o q hyp
        let x := s.head h
        let run := o.hyp + 1
        let tried := ((List.range 4).filter fun a => !bitOf o.decoded a && tracks.all (·.isSome)).map fun a =>
          decodeTracks (x.r WeftReg.ITER_MAX / 2 ^ (8 * (o.ends.headD .reset).strength) % 256) a o.ends
            (tracks.map (·.getD []))
        let last := tried ++ o.last.filter fun c => !tried.any (·.index == c.index)
        let good := tried.filter (·.result == 0)
        let mask := good.foldl (fun m c => m + 2 ^ c.index) 0
        let fin := o.decoded + mask == 15 || todo.isEmpty
        let held := if fin && !o.keep then 0 else 15
        let s := s.onHead h fun x => { x with weft := { x.weft with
          order := some { o with hyp := run, todo := todo, decoded := o.decoded + mask, now := o.now + mask, last := last } } }
        let s := good.foldl (fun (s : State) c =>
          (s.putResult h o.ends { c with result := 1 } 1 (hypCode hyp run) held).1) s
        if fin then s.orderOver h hyp else s

/-- HYPOTHESIS_DONE (R155). -/
def execHypothesisDone (wait : Nat) (t : Fin 8) (s : State) : Out :=
  s.after wait (fun s => (s.tile t).replay.running.isSome && !(s.tile t).heat.heavyOff) (State.hypothesis t)

end Sys2Proof.Machine
end

