-- ==== Sys2Proof/Machine/Reset.lean ====
section
/-! DEFINITION. The five reset classes (R7 to R11, R501, R505, R506), power-on reset, the control inputs and clocks
(R483, R484, R496), and the power-failure episode (R432, R471, R472). -/

namespace Sys2Proof.Machine

/-! ### Parts -/

/-- The SAFE frame that a reset sends first to a head whose link is up (R9). -/
def Head.safeFrame (c : Ctx) (x : Head) : Option DownFrame :=
  if x.up then some { DownFrame.reset with num := (c.now / 1600 + 1) % 2 ^ 48, safe := true } else none

/-- The transmitter after a reset, with the SAFE frame on the lanes (R9, R64). -/
def Head.safeTx (c : Ctx) (x : Head) : TxSt :=
  match x.safeFrame c with
  | none => .reset
  | some d => x.riser.tx.frame (1600 * d.num + Config.devTx.val) d.blocks

/-- SAFE causes that outlast a reset of class `cls`: the thermal trip until the tile restarts or the package resets, and a
power failure until the pin returns (R91, R464, R472). -/
def lastingCause (cls : RClass) (cause : Nat) : Bool :=
  cause == 3 || (cause == 2 && (cls == .tile || cls == .head))

/-- A head after a reset of class `cls` (R6, R7, R506): registers restored, engines as after reset, the tables that came
with the bit-stream kept and the position table back at its defaults, and SAFE sent (R9). The result buffer, which only its two
load commands write (R297), and the last job's result (R292, R299) stand, but for a loss of power. -/
def Head.cleared (c : Ctx) (cls : RClass) (x : Head) : Head :=
  { Head.reset with
    regs := x.regs.resetBy cls headFields
    inReset := x.inReset
    riser := { RiserSt.reset with
      lastDown := x.safeFrame c, tx := x.safeTx c
      causes := x.riser.causes.filter (lastingCause cls), safeSince := x.riser.safeSince }
    loops := { LoopSt.reset with topoMem := x.loops.topoMem, setMem := x.loops.setMem, bankMem := x.loops.bankMem
                                 regionMem := x.loops.regionMem }
    cal := { CalSt.reset with
      jobMem := x.cal.jobMem, posMem := x.cal.posDefault, posDefault := x.cal.posDefault
      bufferMem := if cls = .cold then .empty else x.cal.bufferMem
      resultMem := if cls = .cold then .empty else x.cal.resultMem }
    schedMem := x.schedMem, chanMem := x.chanMem, stratMem := x.stratMem }

/-- A head comes out of reset: the bank in force is that of the region map (R206), the drive is IDLE with CHOP_LOOP on
(R241), and in COAST at once while STOPPED = 0 (R248); with the head OFF, the step generators are HELD (R281). -/
def Head.wake (x : Head) : Head :=
  let x : Head := { x with inReset := false }
  let x : Head := (x.w LoopReg.BANK x.bankNow).chopOn
  (if x.b SpinReg.STOPPED then x else x.spinTo 1).refreshHeld

/-- A head reset (R7, R94): SAFE is sent, an order ends ABORTED (R156), and the head returns to OFF. -/
def State.headReset (h : Fin 32) (s : State) : State :=
  let t := tileOf h
  let x := s.head h
  let y : Head := x.cleared (s.ctx h) .head
  let y : Head := if x.weft.order.isSome then y.w WeftReg.STATUS 2 else y
  let s := s.setHead h y.wake
  let s := s.onTile t fun x =>
    if x.replay.running = some (localOf h).val then { x with replay := { x.replay with running := none } } else x
  s.log t 0x31 h 3 0

/-- A port reset by command (R7, R364). -/
def State.portResetCmd (p : Fin 16) (s : State) : State :=
  (s.portReset p).log (portTile p) 0x31 0xFF 4 p

/-- A core after a reset of its tile (R406): stopped, its caches disabled, invalid and unlocked. -/
def CoreSt.cleared (x : CoreSt) : CoreSt := { CoreSt.reset with tcm := x.tcm }

/-- A tile's blocks after a reset of class `cls`; its heads, ports and archive sets are reset apart. -/
def Tile.cleared (cycle : Nat) (cls : RClass) (x : Tile) : Tile :=
  { x with
    regs := x.regs.resetBy cls tileFields
    bolt := { BoltSt.reset with winStart := cycle, hostMark := cycle, lastAccrual := cycle }
    dma := Vector.replicate 8 .reset, dmaLast := 7
    cores := #v[x.cores[0].cleared, x.cores[1].cleared]
    replay := .reset, lockMem := .empty, journalBuf := .empty, journalUe := false, dmaFree := 0
    links := Vector.replicate 3 .reset, flitsHeld := []
    heat := { x.heat with outRun := HeatSt.reset.outRun, inRun := HeatSt.reset.inRun, checked := 63, lastEval := cycle } }

/-- The stack of a tile and the cores' RAM hold open values after a reset of the tile or a loss of its power (R372; the
cores' RAM: no rule says what it holds, log entry 81). -/
def Tile.loseRam (gen : Nat) (x : Tile) : Tile :=
  { x with
    stack := x.stack.lose gen shadowBase
    cores := #v[{ x.cores[0] with tcm := x.cores[0].tcm.lose (gen + 1) 524288 },
      { x.cores[1] with tcm := x.cores[1].tcm.lose (gen + 2) 524288 }] }

/-- The memories of a tile lose what they hold. -/
def State.loseRam (t : Fin 8) (s : State) : State :=
  { (s.onTile t (Tile.loseRam s.freeCount)) with freeCount := s.freeCount + 3 }

/-- An archive set whose home tile is in reset: nothing of its working state is left until replay (R317). -/
def State.clearSet (n : Fin 8) (s : State) : State := s.onSet n fun a => { ASet.reset with cfg := a.cfg }

/-- The Atrium copy of a tile goes out with it, as standby (R442, R458). -/
def State.copyOut (t : Fin 8) (s : State) : State :=
  if t.val % 4 ≠ 0 then s
  else
    let w := wingOf t
    let held := s.holds w
    let s := s.onAtrium w fun a => { a.put AuthReg.HOLDER_WING (w.val == 0) with
      held := true, leaseSeen := false, sent := none, sentMs := none, handover := none }
    if held && s.rejoining then
      (s.onAtrium 0 fun a => { a with rejoin := none }).onAtrium 1 fun a => { a with rejoin := none }
    else s

/-- The flash from which the configuration in use was read (R412, R438). -/
def State.flashUsed (s : State) : Fin 2 := if s.pr s.mainWing BootReg.FLASH_USED = 1 then 1 else 0

/-- A tile reset begins (R7, R9, R414, R505). -/
def State.tileReset (t : Fin 8) (s : State) : State :=
  let s := localHeads.foldl (fun s l => s.onHead (headOf t l) fun x =>
    { x.cleared (s.ctx (headOf t l)) .tile with inReset := true }) s
  let s := s.hostTileReset t
  let s := s.onTile t fun x => { x.cleared s.cycle .tile with inReset := true }
  let s := s.loseRam t
  let s := allSets.foldl (fun s n => if (s.aset n).cfg.n ≠ 0 ∧ (s.aset n).cfg.homeTile = t then s.clearSet n else s) s
  let s := s.copyOut t
  let s := { s with boot := { s.boot with tileLoad := s.boot.tileLoad.filter (· ≠ t.val) ++ [t.val] } }
  let s := s.onFlash s.flashUsed fun f => { f with bootRead := true }
  (s.log t 0x31 0xFF 2 0).refreshSets.refreshPorts

/-- A tile reset by command or restart (R10, R501): one that already runs absorbs it. -/
def State.tileResetCmd (t : Fin 8) (s : State) : State :=
  if s.tileEnabled t && !s.boot.tileLoad.contains t.val && s.boot.phase = .running then s.tileReset t else s

/-- The heads in a reset of the whole package. -/
def State.clearHeads (cls : RClass) (s : State) : State :=
  s.eachHead fun h s => s.onHead h fun x => { x.cleared (s.ctx h) cls with inReset := true }

/-- A tile in a reset of the whole package: its time stands, and its links, locks, logger and repairs are as at power-on. -/
def Tile.clearedAll (cycle : Nat) (cls : RClass) (x : Tile) : Tile :=
  { x.cleared cycle cls with
    inReset := true, time16 := 0, timeOn := false, slew := 0, holdLeft := 0, paces := [], syncIn := [], lastSync := none
    flitCount := 0, locks := [], nextHandle := 1, hcrWait := [], lockStop := false, leakMs := 0
    logger := Logger.reset, repairs := []
    heat := { HeatSt.reset with lastEval := cycle } }

/-- The tiles in a reset of the whole package. -/
def State.clearTiles (cls : RClass) (s : State) : State := s.eachTile fun t s => s.onTile t (Tile.clearedAll s.cycle cls)

/-- Every tile's memories lose what they hold. -/
def State.loseRams (s : State) : State := s.eachTile State.loseRam

/-- An Atrium copy in a reset of the whole package. -/
def Atrium.cleared (cls : RClass) (x : Atrium) : Atrium := { Atrium.reset with regs := x.regs.resetBy cls pkgFields }

/-- A boot flash in a reset of the package: an operation under way is gone. -/
def FlashSt.cleared (x : FlashSt) : FlashSt := { x with started := none, op := 0, bootRead := false }

/-- The blocks of the package that have no head and no tile: ports, sets, Atrium copies, flashes, boot and SMBus. -/
def State.clearRest (cls : RClass) (s : State) : State :=
  { s with
    ports := Vector.replicate 16 { PortSt.reset with rateAt := s.cycle }
    sets := Vector.replicate 8 .reset
    atria := #v[s.atria[0].cleared cls, s.atria[1].cleared cls]
    flashes := #v[s.flashes[0].cleared, s.flashes[1].cleared]
    boot := { BootSt.reset with straps := s.boot.straps, warm := cls == .warm }
    smb := .reset, shadows := [], pkg := { s.pkg with alertN := true } }

/-- A reset of the whole package. -/
def State.clearAll (cls : RClass) (s : State) : State := (((s.clearHeads cls).clearTiles cls).loseRams).clearRest cls

/-- A warm reset of the package begins (R7, R10). -/
def State.warmReset (s : State) : State := s.clearAll .warm

/-- A cold reset of the package begins (R7): the heads' table memories lose what they hold. -/
def State.coldReset (s : State) : State :=
  (s.clearAll .cold).eachHead fun h s => s.onHead h fun x => { Head.reset with regs := x.regs, riser := x.riser }

/-- The boot sequence begins with the PLLs (R411). -/
def State.bootBegins (s : State) : State := { s with boot := { s.boot with phase := .pll } }

/-! ### Power, RST_N and clocks -/

/-- POWER_ON_RESET_RELEASE (R483): the rails are in tolerance, RST_N and PWRFAIL_N high; `straps` are the levels of the
strap pins. -/
def execPowerOnResetRelease (wait : Nat) (straps : Word) (s : State) : Out :=
  s.after wait (fun s => s.pkg.porHeld && s.pkg.rstN && s.pkg.pwrfailN && s.pkg.sysclk) fun s =>
    { s with pkg := { s.pkg with porHeld := false, warmHeld := false }, boot := { s.boot with straps := straps.toNat } }
      |>.bootBegins

/-- RST_N_RISE (R484). -/
def execRstNRise (wait : Nat) (s : State) : Out :=
  s.afterIn 2 wait (fun s => !s.pkg.rstN) fun s =>
    let s := { s with pkg := { s.pkg with rstN := true } }
    if s.pkg.warmHeld then { s with pkg := { s.pkg with warmHeld := false } } |>.bootBegins else s

/-- SYSCLK_RETURN (R496): a cold boot follows, unless another cause still holds the reset. -/
def execSysclkReturn (wait : Nat) (s : State) : Out :=
  s.after wait (fun s => !s.pkg.sysclk) fun s =>
    let s := { s with pkg := { s.pkg with sysclk := true } }
    if s.pkg.porHeld then s else if s.pkg.rstN then s.bootBegins else { s with pkg := { s.pkg with warmHeld := true } }

/-- REFCLK_STOP (R496): every lane loses lock, Riser links are lost (R80), and fabric links fall. -/
def execRefclkStop (wait : Nat) (s : State) : Out :=
  s.after wait (fun _ => true) fun s =>
    let s := s.eachHead fun h s =>
      let s := s.onHead h fun x => x.w RiserReg.LANE_LOCK 0
      if (s.head h).up then s.linkLoss h true else s
    allPorts.foldl (fun s p => s.linkFalls p) s

/-! ### The power-failure episode -/

/-- PWRFAIL of every enabled tile is recorded, once its store has power (R453, R471). -/
def State.logPwrfail (s : State) : State :=
  let on := s.boot.phase != .held && s.boot.phase != .pll
  s.eachTile fun t s => if on && s.tileEnabled t then s.log t 0x30 0xFF 0 0 else s

/-- PWRFAIL (R471): the pin has been low for `low` CORE cycles without a break, 40 ns or more. A fall recognised while an
episode runs neither restarts nor lengthens it (R432). -/
def execPwrfail (wait low : Nat) (s : State) : Out :=
  s.afterIn 2 wait (fun s => s.pkg.pwrfailN && decide (64 ≤ low)) fun s =>
    let edge := match s.pkg.failEdge with | some e => e | none => s.cycle - low
    let s := { s with pkg := { s.pkg with pwrfailN := false, highSince := none, failEdge := some edge } }
    (s.eachHead fun h s => s.safeHead h 3).logPwrfail

/-- PWRFAIL_N_RISE (R472): SAFE cause 3 ends while the heads stay in SAFE, and the episode goes on. -/
def execPwrfailNRise (wait : Nat) (s : State) : Out :=
  s.afterIn 2 wait (fun s => !s.pkg.pwrfailN) fun s =>
    let now := s.cycle
    let s := { s with pkg := { s.pkg with pwrfailN := true, highSince := some now } }
    s.eachHead fun h s => s.onHead h (·.safeEnds 3)

/-- The records that a tile's logger held back are written (R471, R472). -/
def State.flushDeferred (t : Fin 8) (s : State) : State :=
  let l := (s.tile t).logger.deferred
  let s := s.onTile t fun x => { x with logger := { x.logger with deferred := [] } }
  l.foldl (fun s r => s.writeRecord t r) s

/-- PWRFAIL_EPISODE_END (R472): PWRFAIL_N has been high for 1 ms. -/
def execPwrfailEpisodeEnd (wait : Nat) (s : State) : Out :=
  s.after wait (fun s => s.pkg.pwrfailN && s.pkg.failEdge.isSome && (match s.pkg.highSince with
    | none => false
    | some c => s.since c (cyclesOfMs 1))) fun s =>
    let s := { s with pkg := { s.pkg with failEdge := none, highSince := none, refusing := false } }
    (s.eachTile State.flushDeferred).refreshSets

end Sys2Proof.Machine
end

