-- ==== Sys2Proof/Machine/Thermal.lean ====
section
/-! DEFINITION. Temperature and power of a tile (18_thermal_and_power.md): the six junction sensors and their cross-check,
the thermal trip and restart, throttling and the tile power cap. -/

namespace Sys2Proof.Machine

/-! ### Sensors -/

/-- Neighbours of a sensor (R461). -/
def sensorNeighbours (i : Nat) : List Nat :=
  match i with
  | 0 => [1, 3, 4]
  | 1 => [0, 2, 3, 4, 5]
  | 2 => [1, 4, 5]
  | 3 => [0, 1, 4]
  | 4 => [0, 1, 2, 3, 5]
  | _ => [1, 2, 4]

/-- Median of readings; of an even count the mean of the middle two, rounded towards minus infinity (R462). -/
def medianOf (l : List Int) : Option Int :=
  let s := l.insertionSort (· ≤ ·)
  let n := s.length
  if n = 0 then none
  else if n % 2 = 1 then s[n / 2]?
  else some ((s.getD (n / 2 - 1) 0 + s.getD (n / 2) 0) / 2)

/-- The readings of the sensors of a list that are included. -/
def includedOf (mask : Nat) (v : List Int) (l : List Nat) : List Int :=
  (l.filter fun i => bitOf mask i).map fun i => v.getD i 0

/-- The six sensors. -/
def allSensors : List Nat := [0, 1, 2, 3, 4, 5]

/-- How far a reading lies from the median of its included neighbours; none where it is not checked (R462). -/
def deviation (mask : Nat) (v : List Int) (i : Nat) : Option Nat :=
  (medianOf (includedOf mask v (sensorNeighbours i))).map fun m => (v.getD i 0 - m).natAbs

/-- A sample of the six sensors is taken; the inclusion of the sample before it applies (R461 to R464). -/
def Tile.sample (cycle : Nat) (v : List Int) (x : Tile) : Tile :=
  let mask := x.r HeatReg.INCLUDED
  let margin := x.ri HeatReg.XMARGIN
  let v := (v.take 6).map fun r => signedOf 16 (unsignedOf 16 r)
  let included := includedOf mask v allSensors
  let run (old : List Nat) (c : Nat → Bool) : List Nat := allSensors.map fun i => if c i then old.getD i 0 + 1 else 0
  let out (i : Nat) : Bool := match deviation mask v i with | none => false | some d => decide (margin < d)
  let within (i : Nat) : Bool := match deviation mask v i with | none => false | some d => decide ((2 * d : Nat) ≤ margin)
  let h := x.heat
  let x := allSensors.foldl (fun (x : Tile) i => x.wi (HeatReg.SENSOR_T i) (v.getD i 0)) x
  let x := match included with
    | [] => x
    | a :: l => (x.wi HeatReg.T_MAX (l.foldl max a)).wi HeatReg.T_MED ((medianOf included).getD 0)
  { x with heat := { h with
    lastSample := some cycle
    outRun := run h.outRun out
    inRun := run h.inRun within
    tripRun := run h.tripRun fun i => bitOf mask i && decide (29440 ≤ v.getD i 0)
    coolRun := if included.all fun r => decide (r < 24320) then h.coolRun + 1 else 0 } }

/-- Sensors that a mask includes. -/
def countSensors (mask : Nat) : Nat := (allSensors.filter fun i => bitOf mask i).length

/-- The cross-check's inclusion becomes `mask`; where fewer than three sensors would remain, all are included (R462). -/
def Tile.include (mask : Nat) (x : Tile) : Tile :=
  let x := { x with heat := { x.heat with checked := mask } }
  if countSensors mask < 3 then (x.w HeatReg.INCLUDED 63).flag HeatReg.XCHK_SUSP else x.w HeatReg.INCLUDED mask

/-- The thermal block of a tile is powered (R461, R463). -/
def State.heatOn (s : State) (t : Fin 8) : Bool :=
  s.tileEnabled t && s.boot.phase != .held && s.boot.phase != .pll

/-- Controllers that warn of the composite temperature (R336). -/
def State.warned (s : State) : List (Fin 16 × Nat) :=
  allPorts.flatMap fun p => ((s.port p).ctrls.filter s.tempWarning).map fun c => (p, c.idx)

/-- A change that may move the composite temperature: a controller whose warning begins reports it (R336, R358). -/
def State.withWarnings (f : State → State) (s : State) : State :=
  let old := s.warned
  let s := f s
  (s.warned.filter fun e => !old.contains e).foldl (fun s e => s.event e.1 e.2 0 0) s

/-- SENSOR_SAMPLE (R461, R462): every 100 µs; `v` holds the six readings in 1/256 °C. -/
def execSensorSample (wait : Nat) (t : Fin 8) (v : List Int) (s : State) : Out :=
  s.after wait (fun s => s.heatOn t && (match (s.tile t).heat.lastSample with
    | none => true
    | some c => s.since c (cyclesOfUs 100)))
    (State.withWarnings fun s => s.onTile t fun x =>
      let x := x.sample s.cycle v
      x.flagIf (decide (countSensors x.heat.checked < 3)) HeatReg.XCHK_SUSP)

/-- Sensors of `mask` whose run has reached XCHK_N. -/
def Tile.runsDue (x : Tile) (runs : List Nat) (mask : Nat) : List Nat :=
  allSensors.filter fun i => bitOf mask i && decide (atLeast1 (x.r HeatReg.XCHK_N) ≤ runs.getD i 0)

/-- Sensors that are due to be excluded (R462). -/
def Tile.excludeDue (x : Tile) : List Nat := x.runsDue x.heat.outRun x.heat.checked
/-- Sensors that are due to be readmitted (R462). -/
def Tile.readmitDue (x : Tile) : List Nat := x.runsDue x.heat.inRun (63 - x.heat.checked)

/-- SENSOR_EXCLUDE (R462). -/
def execSensorExclude (wait : Nat) (t : Fin 8) (s : State) : Out :=
  s.after wait (fun s => !(s.tile t).excludeDue.isEmpty) fun s => s.onTile t fun x =>
    (x.include (x.excludeDue.foldl (fun m i => putBit m i false) x.heat.checked)).flag HeatReg.SENSOR_EXCL

/-- SENSOR_READMIT (R462). -/
def execSensorReadmit (wait : Nat) (t : Fin 8) (s : State) : Out :=
  s.after wait (fun s => !(s.tile t).readmitDue.isEmpty) fun s => s.onTile t fun x =>
    (x.include (x.readmitDue.foldl (fun m i => putBit m i true) x.heat.checked)).flag HeatReg.SENSOR_READMIT

/-- STACK_TEMP_READ (R461): every 1 ms; a stack without power is not read (R463). -/
def execStackTempRead (wait : Nat) (t : Fin 8) (v : Int) (s : State) : Out :=
  s.after wait (fun s => s.heatOn t && !(s.tile t).heat.heavyOff && (match (s.tile t).heat.lastStack with
    | none => true
    | some c => s.since c (cyclesOfMs 1))) fun s => s.onTile t fun x =>
      let x := (x.wi HeatReg.STACK_TEMP v)
      { x.flagIf (decide (26880 ≤ x.ri HeatReg.STACK_TEMP)) HeatReg.STACK_HOT with
        heat := { x.heat with lastStack := some s.cycle } }

/-! ### The thermal trip -/

/-- The sensor whose readings trip the tile: the lowest numbered (R463). -/
def Tile.tripSensor (x : Tile) : Option Nat := allSensors.find? fun i => decide (2 ≤ x.heat.tripRun.getD i 0)

/-- ARG0 and ARG1 of THERMAL_TRIP (R465). -/
def Tile.tripArgs (x : Tile) (i : Nat) : Nat × Nat :=
  (x.r (HeatReg.SENSOR_T i) |> fun r => unsignedOf 32 (signedOf 16 r) + i * 2 ^ 32,
    (63 - x.r HeatReg.INCLUDED) + x.r HeatReg.THROT_LEVEL * 2 ^ 8 + x.r HeatReg.CAP_STEP * 2 ^ 12)

/-- Persistent words of the thermal block are written, or refused (R432, R507). -/
def State.keepTrip (t : Fin 8) (off : Nat) (f : Tile → Tile) (s : State) : State :=
  if s.storeRefuses then s.pset (wingOf t) BootReg.SELV_REFUSED
  else (s.onTile t f).keep t (tileBase t + off)

/-- The trip is declared (R463, R465, R473). -/
def State.trip (t : Fin 8) (i : Nat) (s : State) : State :=
  let args := (s.tile t).tripArgs i
  let s := s.keepTrip t 0x600040 fun x =>
    (x.w HeatReg.TRIP_TEMP (x.r (HeatReg.SENSOR_T i))).w HeatReg.TRIP_SENSOR i
  let s := s.onTile t fun x => { x.flag HeatReg.TRIPPED with
    heat := { x.heat with tripAt := some s.cycle, coolRun := 0 } }
  let s := localHeads.foldl (fun s l => s.safeHead (headOf t l) 2) s
  let r : LogRec := { code := 0x10, tile := t, unit := 0xFF, arg0 := args.1, arg1 := args.2, time := s.ns t }
  let s := if s.logTile t = t then s.onTile t fun x => { x with heat := { x.heat with tripOwed := some r } }
    else s.logIn (s.logTile t) r
  let s := s.copyOut t
  let s := if s.boot.phase = .load ∨ s.boot.tileLoad.contains t.val then
      { s.pset (wingOf t) BootReg.TILE_LOAD_FAIL with
        boot := { s.boot with tileLoad := s.boot.tileLoad.filter (· ≠ t.val) } }
    else s
  s.refreshSets.refreshPorts

/-- THERMAL_TRIP (R463). -/
def execThermalTrip (wait : Nat) (t : Fin 8) (s : State) : Out :=
  s.afterIn 2 wait (fun s => s.heatOn t && (s.tile t).heat.tripAt.isNone && (s.tile t).tripSensor.isSome)
    fun s => match (s.tile t).tripSensor with
      | none => s
      | some i => s.trip t i

/-- The heavy blocks lose their power (R463): links fall, the stack and the cores' memories lose what they hold, and the
DMA channels and the Bolt engine stop where they are. -/
def State.powerOff (t : Fin 8) (s : State) : State :=
  let s := localHeads.foldl (fun s l =>
    let h := headOf t l
    if (s.head h).up then s.linkLoss h false else s.onHead h fun x => x.linkTo (s.ctx h) 0) s
  let s := (State.linkFalls (portOf t 0) s) |> State.linkFalls (portOf t 1)
  (s.onTile t fun x => { x with
    cores := #v[x.cores[0].cleared, x.cores[1].cleared]
    heat := { x.heat with heavyOff := true } }).loseRam t

/-- HEAVY_POWER_OFF (R463): 5 µs after the declaration. -/
def execHeavyPowerOff (wait : Nat) (t : Fin 8) (s : State) : Out :=
  s.after wait (fun s => !(s.tile t).heat.heavyOff && (match (s.tile t).heat.tripAt with
    | none => false
    | some c => s.since c (cyclesOfUs 5))) (fun s => (s.powerOff t).refreshSets.refreshPorts)

/-- The tile restarts after a trip (R464), which it logs itself where no Atrium could (R465): by a tile reset, which a reset
of the tile or of the package that still runs takes in (R10). -/
def State.thermalRestart (t : Fin 8) (s : State) : State :=
  let x := s.tile t
  let ms := (s.cycle - x.heat.tripAt.getD s.cycle) / cyclesOfMs 1
  let hot := unsignedOf 32 (x.ri HeatReg.T_MAX)
  let lost := s.lostWord t (tileBase t + 0x60003C)
  let s := s.keepTrip t 0x60003C fun x => (if lost then x.w HeatReg.TRIP_COUNT 0 else x).bump HeatReg.TRIP_COUNT 1
  let s := localHeads.foldl (fun s l => s.onHead (headOf t l) (·.safeEnds 2)) s
  let s := s.onTile t fun x => { x.flag HeatReg.TRIP_DONE with
    heat := { x.heat with tripAt := none, heavyOff := false, tripOwed := none, coolRun := 0, tripRun := HeatSt.reset.tripRun } }
  let s := match x.heat.tripOwed with
    | none => s
    | some r => s.logIn t r
  let s := if s.boot.tileLoad.contains t.val || s.boot.phase != .running then s else s.tileReset t
  s.log t 0x11 0xFF ms hot

/-- THERMAL_RESTART (R464). -/
def execThermalRestart (wait : Nat) (t : Fin 8) (s : State) : Out :=
  s.after wait (fun s => (s.tile t).heat.heavyOff && decide (1000 ≤ (s.tile t).heat.coolRun)) (State.thermalRestart t)

/-- RESUME is written with 1 (R464): TRIPPED is cleared after a restart; a trip in progress stands (R473). -/
def State.tripResume (t : Fin 8) (s : State) : State :=
  if (s.tile t).b HeatReg.TRIPPED && (s.tile t).heat.tripAt.isNone then
    (s.onTile t (·.w HeatReg.TRIPPED 0)).refreshPorts
  else s

/-! ### Throttling and the power cap -/

/-- The hot condition (R466). -/
def Tile.hot (x : Tile) : Bool :=
  decide (x.ri HeatReg.THR_ON ≤ x.ri HeatReg.T_MAX) || decide (x.ri HeatReg.STACK_THR ≤ x.ri HeatReg.STACK_TEMP)

/-- The cool condition (R466). -/
def Tile.cool (x : Tile) : Bool :=
  decide (x.ri HeatReg.T_MAX < x.ri HeatReg.THR_OFF)
    && decide (x.ri HeatReg.STACK_TEMP < x.ri HeatReg.STACK_THR - (x.ri HeatReg.THR_ON - x.ri HeatReg.THR_OFF))

/-- The next THROT_LEVEL and TSTEP (R466). -/
def Tile.nextThrottle (x : Tile) : Nat × Nat :=
  let l := x.r HeatReg.THROT_LEVEL
  let k := x.r HeatReg.TSTEP
  if !x.b HeatReg.THROT_EN then (0, 0)
  else if x.hot then (if l < 7 then (l + 1, k) else if k < 7 then (l, k + 1) else (l, k))
  else if x.cool then (if 0 < k then (l, k - 1) else (l - 1, k))
  else (l, k)

/-- CEIL of a step, in 0.1 W (R468). -/
def capCeil (step : Nat) : Nat := [392, 357, 322, 297, 272, 237, 211, 176].getD step 176

/-- Heads of a tile whose Riser link STATE is 1 to 6 (R468). -/
def State.litHeads (s : State) (t : Fin 8) : Nat :=
  (localHeads.filter fun l => let st := (s.head (headOf t l)).r RiserReg.STATE; decide (1 ≤ st ∧ st ≤ 6)).length

/-- Estimated ceiling of a step, in 0.1 W (R468). -/
def State.ceiling (s : State) (t : Fin 8) (step : Nat) : Nat := capCeil step + 27 * s.litHeads t

/-- The lowest step whose estimated ceiling is at or below CAP_W, if one is (R468). -/
def State.fittingStep (s : State) (t : Fin 8) : Option Nat :=
  (List.range 8).find? fun k => decide (s.ceiling t k ≤ (s.tile t).r HeatReg.CAP_W)

/-- CAP_STEP follows from TSTEP and PSTEP; a port whose lanes change retrains, and one that goes to 0 lanes takes a port
reset (R468, R469). -/
def State.applyCap (t : Fin 8) (s : State) : State :=
  let x := s.tile t
  let old := x.r HeatReg.CAP_STEP
  let step := if x.b HeatReg.CAP_EN then max (x.r HeatReg.TSTEP) (x.r HeatReg.PSTEP) else 0
  let s := s.onTile t fun x => (x.w HeatReg.CAP_STEP step).w HeatReg.EST_W (s.ceiling t step)
  if step = old then s
  else
    let s := s.onTile t (·.flag HeatReg.CAP_CHANGE)
    ([0, 1] : List (Fin 2)).foldl (fun (s : State) (l : Fin 2) =>
      if capLanes step l.val = capLanes old l.val then s
      else if capLanes step l.val = 0 then State.portResetCmd (portOf t l) s
      else State.linkFalls (portOf t l) s) s

/-- THROT_LEVEL and TSTEP take new values, CAP_STEP follows, and a change of TSTEP is logged (R466, R454). -/
def State.setThrottle (t : Fin 8) (l k : Nat) (s : State) : State :=
  let x := s.tile t
  let up := x.r HeatReg.THROT_LEVEL == 0 && decide (0 < l)
  let moved := x.r HeatReg.TSTEP != k
  let s := s.onTile t fun x => ((x.w HeatReg.THROT_LEVEL l).w HeatReg.TSTEP k).flagIf up HeatReg.THROTTLE_ON
  let s := s.applyCap t
  if moved then s.log t 0x12 0xFF k ((s.tile t).r HeatReg.CAP_STEP) else s

/-- PSTEP is found anew from CAP_W (R468). -/
def State.findPstep (t : Fin 8) (s : State) : State :=
  let k := s.fittingStep t
  s.onTile t fun x =>
    ((x.w HeatReg.PSTEP (k.getD 7)).put HeatReg.CAP_SHORT k.isNone).flagIf k.isNone HeatReg.CAP_UNMET

/-- An evaluation (R466, R468, R473). -/
def State.evaluateHeat (t : Fin 8) (s : State) : State :=
  let s := s.onTile t fun x => { x with heat := { x.heat with lastEval := s.cycle } }
  let s := s.findPstep t
  let (l, k) := (s.tile t).nextThrottle
  s.setThrottle t l k

/-- THROTTLE_EVALUATION (R466): every STEP_T ms. -/
def execThrottleEvaluation (wait : Nat) (t : Fin 8) (s : State) : Out :=
  s.after wait (fun s => s.heatOn t && !(s.tile t).inReset
    && s.since (s.tile t).heat.lastEval (cyclesOfMs (atLeast1 ((s.tile t).r HeatReg.STEP_T)))) (State.evaluateHeat t)

/-- THROT_EN or CAP_EN has been written (R466, R468). -/
def State.capWritten (t : Fin 8) (s : State) : State :=
  let x := s.tile t
  if x.b HeatReg.THROT_EN then s.applyCap t else s.setThrottle t 0 0

end Sys2Proof.Machine
end

