-- ==== Sys2Proof/Machine/Views.lean ====
section
/-! DEFINITION. What a register word reads (R4, R5, R31, R397, R498): the stored fields, and those whose value the block
forms at the moment of the read. -/

namespace Sys2Proof.Machine

/-- POS of a step generator (R283). -/
def Head.genPosReg (x : Head) (g : Fin 2) : Int :=
  let k := x.gen g
  clampInt (-(2 ^ 31)) (2 ^ 31 - 1)
    (if x.b (StepReg.ORG_VALID g) then (k.x - k.xOrg) / 2 ^ 32 else k.x / 2 ^ 32)

/-- A calibration operation waits or runs (R4, R299). -/
def Head.calPending (x : Head) (op : Nat) : Bool := x.cal.running == some op || x.cal.queue.contains op

/-- A field of a head as it reads: an SC field whose action runs reads 1 (R4), and the write channel shows 6 while a
descriptor that is over awaits its completion record (R191). -/
def Head.view (c : Ctx) (x : Head) (f : Fld) : Nat :=
  if f.key = AngleReg.ANGLE.key then x.angleAt c.now
  else if 0x40000 ≤ f.off ∧ f.off < 0x58000 ∧ f.lsb = 16 ∧ f.off % 0x800 = 0 then
    let b := x.beam (toSampler ((f.off - 0x40000) / 0x800))
    match b.gate with
    | none => 0
    | some g => if x.b (BeamReg.ENABLE (toSampler ((f.off - 0x40000) / 0x800))) then g.stateCode (x.gateEnv ((f.off - 0x40000) / 0x800) g) else 0
  else if 0x10140 ≤ f.off ∧ f.off < 0x101A0 ∧ f.lsb = 4 then flagNat (x.loopActive ((f.off - 0x10140) / 4))
  else if f.key = RiserReg.TRAIN.key then flagNat (decide (1 ≤ x.r RiserReg.STATE ∧ x.r RiserReg.STATE ≤ 5))
  else if f.key = RiserReg.SAFE_RELEASE.key then flagNat (x.riser.queue.any fun m => m.op == 2 && m.src == .endpoint)
  else if f.key = WeftReg.GO.key then x.r WeftReg.BUSY
  else if f.key = WriteReg.STATE.key then (if x.descOver c then 6 else x.r f)
  else if f.key = WriteReg.STRAT_GO.key then flagNat (x.write.stratPend || x.write.stratBusy)
  else if f.key = CalReg.INTERP.key then flagNat (x.calPending 0)
  else if f.key = CalReg.COMMIT.key then flagNat (x.calPending 1)
  else if f.key = CalReg.ERASE.key then flagNat (x.calPending 2)
  else if f.key = CalReg.LOAD_INTERP.key then flagNat (x.calPending 3)
  else if f.key = CalReg.LOAD_SLOT.key then flagNat (x.calPending 4)
  else if f.off = (StepReg.POS 0).off then unsignedOf 32 (x.genPosReg 0)
  else if f.off = (StepReg.POS 1).off then unsignedOf 32 (x.genPosReg 1)
  else x.r f

/-- An operation of the kind waits or runs in the cache with registers `j` (R4, R407). -/
def State.cachePending (s : State) (t : Fin 8) (j kind : Nat) : Bool :=
  let x := s.cache t (if j < 2 then 0 else 1) (if j % 2 = 0 then 0 else 1)
  x.ops.any (·.1 == kind) || (kind == 1 && x.ll.isSome)

/-- A field of a tile as it reads. -/
def State.tileView (s : State) (t : Fin 8) (f : Fld) : Nat :=
  let x := s.tile t
  if f.off = TimeReg.NS_LO.off then s.ns t
  else if f.off = TimeReg.NS_HI.off then s.ns t / 2 ^ 32
  else if f.off = GalReg.IRQ_PEND.off then s.irqPend t
  else if f.key = BoltReg.BUSY.key then flagNat x.bolt.active.isSome
  else if f.key = BoltReg.BG_WAIT.key then flagNat (s.bgWaits t)
  else if 0x110 ≤ f.off ∧ f.off < 0x300 ∧ f.off % 0x80 = 0x10 ∧ f.lsb < 2 then
    flagNat (s.cachePending t ((f.off - 0x100) / 0x80) f.lsb)
  else if 0x101004 ≤ f.off ∧ f.off < 0x101204 ∧ f.off % 0x40 = 4 ∧ f.lsb < 2 then
    let d := x.dma[toTile ((f.off - 0x101000) / 0x40)]
    flagNat (if f.lsb = 0 then d.active else d.stop.isSome)
  else x.r f

/-- A field of the package block as copy `w` shows it (R440, R445, R459). -/
def State.pkgView (s : State) (w : Fin 2) (f : Fld) : Nat :=
  if f.key = AuthReg.MY_WING.key then w.val
  else if f.key = AuthReg.LEASE_VALID.key then flagNat (s.leaseValid w)
  else if f.key = AuthReg.BRIDGES_UP.key then s.bridges
  else if f.key = AuthReg.LEASE_AGE.key then (if s.holds w then 0 else min 65535 (s.leaseAge w / 1000))
  else if f.key = BootReg.BR_OLDEST.key then
    ((s.tile (atriumTile w)).selv.heldEntries.head?.map entryCount).getD 0
  else if 0x4000 ≤ f.off ∧ f.off < 0x4800 ∧ f.off % 0x100 = 4 ∧ 3 ≤ f.lsb then
    let d := (s.aset (toTile ((f.off - 0x4000) / 0x100))).cfg
    if f.lsb = 3 then flagNat (d.n != 0 && d.local) else if f.lsb = 4 then d.home else if f.lsb = 7 then d.n else s.pr w f
  else s.pr w f

/-- A word from the fields that stand in it, each as it reads: a WO field reads 0 (R4), reserved bits 0 (R5). -/
def wordOf (view : Fld → Nat) (fs : List Fld) : Nat :=
  fs.foldl (fun a f => if f.acc = .wo then a else a + (view f % 2 ^ f.width) <<< f.lsb) 0

/-- The word at a place, as copy `w` of the package block serves it (R498). -/
def State.readAt (s : State) (w : Fin 2) (p : Place) : Nat :=
  match p with
  | .pkg off =>
    if off = 0x100 then s.ns (s.masterOf w) % 2 ^ 32
    else if off = 0x104 then s.ns (s.masterOf w) / 2 ^ 32 % 2 ^ 32
    else wordOf (s.pkgView w) (fieldsIn pkgFields off)
  | .tile t off => if s.lostWord t (tileBase t + off) then 0 else wordOf (s.tileView t) (fieldsIn tileFields off)
  | .head h off =>
    if s.lostWord (tileOf h) (headBase h + off) then 0 else wordOf ((s.head h).view (s.ctx h)) (fieldsIn headFields off)
  | .none => 0

/-- The tile whose store keeps the word at a place, for copy `w` of the package block, and the address of that word. -/
def keptPlace (w : Fin 2) (p : Place) : Option (Fin 8 × Nat) :=
  match p with
  | .pkg off => some (atriumTile w, off)
  | .tile t off => some (t, tileBase t + off)
  | .head h off => some (tileOf h, headBase h + off)
  | .none => none

/-- What reading the word at a place moves in the Selvedge registers (R433, R435): its kept word is read, and for BR_OLDEST the
boot record. -/
def State.notePlace (w : Fin 2) (p : Place) (s : State) : State :=
  match keptPlace w p with
  | none => s
  | some (t, a) => if p = .pkg BootReg.BR_OLDEST.off then s.noteRecordRead t else s.noteKept t a

/-! ### Who reaches what -/

/-- The tile from which a request comes: the core's own, or the Atrium tile of the copy that serves SMBus (R444, R498). -/
def State.reqTile (s : State) (q : Req) : Fin 8 :=
  match q with
  | .core t _ => t
  | .smbus => atriumTile (s.copyOf .smbus)

/-- What becomes of a register access before its block acts on it: it reaches a register, no register stands there (R5,
R14), the block is held in reset (R505), or the path to it fails (R27). -/
inductive Reach where
  | ok | unmapped | inReset | noRoute
deriving DecidableEq, Repr

/-- The package block is held in reset until the strap word is latched (R505). -/
def State.pkgAsleep (s : State) : Bool := s.boot.phase = .held || s.boot.phase = .pll

/-- How an access by `q` to the package block fares. -/
def State.pkgAccess (s : State) (q : Req) : Reach :=
  if s.pkgAsleep then .inReset else if s.reaches (s.reqTile q) (atriumTile (s.copyOf q)) then .ok else .noRoute

/-- How an access by `q` to a register of tile `t` fares. -/
def State.tileAccess (s : State) (q : Req) (t : Fin 8) : Reach :=
  if !s.tileEnabled t then .unmapped
  else if (s.tile t).inReset then .inReset
  else if !s.reaches (s.reqTile q) t then .noRoute
  else .ok

/-- How an access by `q` to a register of head `h` fares. -/
def State.headAccess (s : State) (q : Req) (h : Fin 32) : Reach :=
  match s.tileAccess q (tileOf h) with
  | .ok => if (s.head h).inReset then .inReset else .ok
  | a => a

/-- An address in the block of a tile that holds no register: the tile itself tells, once the access has reached it. -/
def State.gapAccess (s : State) (q : Req) (t : Fin 8) : Reach :=
  match s.tileAccess q t with
  | .noRoute => .noRoute
  | _ => .unmapped

/-- How an access by `q` to a place fares (R5, R27, R497, R505). -/
def State.accessOf (s : State) (q : Req) (p : Place) : Reach :=
  match p with
  | .pkg _ => if p.isReg then s.pkgAccess q else .unmapped
  | .tile t _ => if p.isReg then s.tileAccess q t else s.gapAccess q t
  | .head h _ => if p.isReg then s.headAccess q h else s.gapAccess q (tileOf h)
  | .none => .unmapped

/-- The tile to which an access to a place travels. -/
def State.accessTile (s : State) (q : Req) (p : Place) : Fin 8 := p.tile?.getD (atriumTile (s.copyOf q))

/-- What an access leaves behind whatever it does: its packet on the Warp, and the flag and address of one that met no
register or a block in reset (R5, R27, R505). -/
def State.noteAccess (q : Req) (p : Place) (a : Nat) (s : State) : State :=
  let w := s.copyOf q
  match s.accessOf q p with
  | .ok => s.sendPacket (s.reqTile q) (s.accessTile q p) vcCommand 1
  | .noRoute => s.sendPacket (s.reqTile q) (s.accessTile q p) vcCommand 1
  | .unmapped => s.onPkg w fun rf => (rf.set IdReg.UNMAPPED).wr IdReg.ACCESS_ADDR a
  | .inReset => s.onPkg w fun rf => (rf.set IdReg.RESET_ACCESS).wr IdReg.ACCESS_ADDR a

/-! ### Values held in two words -/

/-- A requester's number among the shadows of R31. -/
def reqNumber (q : Req) : Nat :=
  match q with
  | .core t c => 2 * t.val + c.val
  | .smbus => 16

/-- The lower word of a value that is held in two words and has a shadow (R31); FW_ARG and the WSEQ words of the lock unit,
whose upper words hold other fields too, have none (DESIGN CHOICE, log entry 91). -/
def isLower (p : Place) : Bool :=
  match p with
  | .pkg off =>
    [0x100, 0x210, 0x218, 0x304, 0x604, 0x60C].contains off
      || (decide (0x4000 ≤ off ∧ off < 0x4800) && (off % 0x100 == 0x10 || off % 0x100 == 0x18))
      || (decide (0x5100 ≤ off ∧ off < 0x5180) && off % 0x10 == 0)
  | .tile _ off =>
    [0x20, 0x28, 0x60, 0x104, 0x184, 0x204, 0x284, 0x10002C, 0x100200, 0x700100].contains off
      || (decide (0x100100 ≤ off ∧ off < 0x100200) && off % 0x10 == 0)
  | _ => false

/-- A shadow of a requester is dropped. -/
def State.dropShadow (q : Req) (a : Nat) (s : State) : State :=
  { s with shadows := s.shadows.filter fun k => !(k.req == reqNumber q && k.addr == a) }

/-- A read of the lower word captures the upper one (R31). -/
def State.capture (q : Req) (a : Nat) (s : State) : State :=
  let v := s.readAt (s.copyOf q) (placeOf (a + 4))
  let s := s.dropShadow q (a + 4)
  { s with shadows := s.shadows ++ [{ req := reqNumber q, addr := a + 4, value := BitVec.ofNat 32 v }] }

/-- The shadow that the next read of an upper word returns (R31). -/
def State.shadowOf (s : State) (q : Req) (a : Nat) : Option Word :=
  (s.shadows.find? fun k => k.req == reqNumber q && k.addr == a).map (·.value)

end Sys2Proof.Machine
end

