-- ==== Sys2Proof/Machine/TableWindow.lean ====
section
/-! DEFINITION. The table-access window (R508 to R511): its spaces, and what a read and a write of DATA do. -/

namespace Sys2Proof.Machine

/-- Bytes of a space, and whether a write is allowed; none for a reserved space (R509). -/
def spaceOf (sp : Nat) : Option (Nat × Bool) :=
  match sp with
  | 0x01 => some (131584, true)
  | 0x02 => some (313344, true)
  | 0x03 => some (262144, true)
  | 0x04 => some (512, false)
  | 0x05 => some (4352, true)
  | 0x06 => some (8192, true)
  | 0x07 => some (512, false)
  | 0x08 => some (8192, true)
  | 0x09 => some (2112, false)
  | 0x0A => some (384, true)
  | 0x0B => some (147456, true)
  | 0x0C => some (3072, true)
  | 0x0D => some (4116, true)
  | 0x0E => some (3072, true)
  | 0x0F => some (768, false)
  | 0x20 => some (65536, false)
  | 0x21 => some (4096, false)
  | 0x22 => some (512, false)
  | 0x23 => some (262144, false)
  | 0x24 => some (655360, false)
  | 0x25 => some (4194304, false)
  | 0x26 => some (11534336, false)
  | 0x27 => some (16777216, false)
  | _ => none

/-- A space that takes HEAD (R509). -/
def headSpace (sp : Nat) : Bool := decide (1 ≤ sp ∧ sp ≤ 0x0F)

/-- A space that only the Atrium tiles have (R509). -/
def atriumSpace (sp : Nat) : Bool := sp == 0x21 || sp == 0x25

/-- First Selvedge word of a space (R430, R509). -/
def spaceWord (sp : Nat) : Nat :=
  match sp with
  | 0x21 => 0x10000 / 8
  | 0x22 => 0x11000 / 8
  | 0x23 => 0x20000 / 8
  | 0x24 => 0x60000 / 8
  | 0x25 => 0x100000 / 8
  | 0x26 => 0x500000 / 8
  | _ => 0

/-- The bits of a persistent word as its Selvedge word keeps them: its persistent fields, and of EPOCH and WSEQ_AT the
whole value (R433). -/
def State.keptValue (s : State) (t : Fin 8) (a : Nat) : Nat :=
  let w := wingOf t
  match placeOf a with
  | .pkg off =>
    let lo := wordOf (s.pr w) ((fieldsIn pkgFields off).filter (·.persist))
    if off = 0x604 ∨ (0x4000 ≤ off ∧ off < 0x4800 ∧ off % 0x100 = 0x18) then
      lo + 2 ^ 32 * wordOf (s.pr w) (fieldsIn pkgFields (off + 4))
    else lo
  | .tile x off => wordOf (s.tile x).r ((fieldsIn tileFields off).filter (·.persist))
  | .head h off => wordOf (s.head h).r ((fieldsIn headFields off).filter (·.persist))
  | .none => 0

/-- The Selvedge word behind offset `a` of a 64-bit space. -/
def selvIndex (sp a : Nat) : Nat := if sp = 0x27 then a / 8 else spaceWord sp + a / 8

/-- The 64-bit word at offset `a` of a 64-bit space (R434, R507, R509). -/
def State.wideWord (s : State) (t : Fin 8) (sp a : Nat) : Nat :=
  let x := (s.tile t).selv
  let w := selvIndex sp a
  if sp = 0x27 then (lookupKey w x.wear).getD 0
  else if sp = 0x20 then
    if x.ue.contains w then 0 else match (keptWords t)[w]? with
      | some k => s.keptValue t k
      | none => (x.read w).toNat
  else (x.read w).toNat

/-- The table memory of a head space (R509). -/
def Head.table (x : Head) (sp : Nat) : Mem :=
  match sp with
  | 0x01 => x.schedMem
  | 0x02 => x.chanMem
  | 0x03 => x.stratMem
  | 0x04 => x.stratMap
  | 0x05 => x.cal.posMem
  | 0x06 => x.cal.jobMem
  | 0x07 => x.cal.resultMem
  | 0x08 => x.cal.bufferMem
  | 0x0A => x.loops.topoMem
  | 0x0B => x.loops.setMem
  | 0x0C => x.loops.bankMem
  | 0x0D => x.loops.regionMem
  | 0x0E => x.loops.stateMem
  | 0x0F => x.loops.statMem
  | _ => .empty

/-- Word 14 of a statistics record (R160): states, frame positions and PARTIAL of the two slots. -/
def BeamSt.slotWord (b : BeamSt) : Nat :=
  let one (n : Nat) : Nat := let r := (b.slots[n]?).getD .reset; r.state % 4 + r.live.sector % 64 * 4
  let part (n : Nat) : Nat := flagNat (((b.slots[n]?).getD .reset).partialSlot)
  one 0 + one 1 * 2 ^ 8 + part 0 * 2 ^ 16 + part 1 * 2 ^ 17

/-- The table memory and the place in it of offset `a` of a head space; the beam statistics lie channel by channel, and
their word 14 is formed from the slots. -/
def Head.tableAt (x : Head) (sp a : Nat) : Mem × Nat :=
  if sp = 0x09 then
    let b := x.beam (toSampler (a / 64))
    (if a % 64 / 4 = 14 then b.stats.writeLE 56 4 b.slotWord else b.stats, a % 64)
  else (x.table sp, a)

/-- The table memory of a space that may be written is replaced. -/
def Head.withTable (sp : Nat) (m : Mem) (x : Head) : Head :=
  match sp with
  | 0x01 => { x with schedMem := m }
  | 0x02 => { x with chanMem := m }
  | 0x03 => { x with stratMem := m }
  | 0x05 => { x with cal := { x.cal with posMem := m } }
  | 0x06 => { x with cal := { x.cal with jobMem := m } }
  | 0x08 => { x with cal := { x.cal with bufferMem := m } }
  | 0x0A => { x with loops := { x.loops with topoMem := m } }
  | 0x0B => { x with loops := { x.loops with setMem := m } }
  | 0x0C => { x with loops := { x.loops with bankMem := m } }
  | 0x0D => ({ x with loops := { x.loops with regionMem := m } }).refreshBank
  | 0x0E => { x with loops := { x.loops with stateMem := m } }
  | _ => x

/-! ### DATA -/

/-- ADDR of a window: a multiple of 4 (R508). -/
def Tile.tawAddr (x : Tile) (i : Nat) : Nat := x.r (TawReg.ADDR i) / 4 * 4

/-- The head that a window names. -/
def State.tawHead (s : State) (t : Fin 8) (i : Nat) : Fin 32 := headOf t ⟨(s.tile t).r (TawReg.HEAD i) % 4, by omega⟩

/-- A DATA access of window `i` meets a head in reset (R505, R511). -/
def State.tawAsleep (s : State) (t : Fin 8) (i : Nat) : Bool :=
  headSpace ((s.tile t).r (TawReg.SPACE i)) && (s.head (s.tawHead t i)).inReset

/-- The offset of a DATA access lies in a space of this tile (R509, R510). -/
def State.tawIn (s : State) (t : Fin 8) (i : Nat) : Bool :=
  let sp := (s.tile t).r (TawReg.SPACE i)
  match spaceOf sp with
  | none => false
  | some (n, _) => decide ((s.tile t).tawAddr i < n) && (!atriumSpace sp || t.val % 4 == 0)

/-- ADDR advances after a DATA access (R508, R510). -/
def Tile.tawStep (i : Nat) (x : Tile) : Tile :=
  if x.b (TawReg.AUTOINC i) then x.w (TawReg.ADDR i) (x.r (TawReg.ADDR i) + 4) else x

/-- A read from a head space (R510). -/
def State.tawReadTable (t : Fin 8) (i sp : Nat) (s : State) : Nat × State :=
  let h := s.tawHead t i
  let a := (s.tile t).tawAddr i
  let (m, k) := (s.head h).tableAt sp a
  let at_ (w : Nat) : Nat := spaceAddr (localOf h) sp (a + (w - k))
  let s := s.noteSram t m k 4 at_ .other
  if m.bad k 4 then (0, s.onTile t (·.flag (TawReg.TAW_UE i))) else (m.readLE k 4, s)

/-- A read from a 64-bit space (R509, R510). -/
def State.tawReadWide (t : Fin 8) (i sp : Nat) (s : State) : Nat × State :=
  let a := (s.tile t).tawAddr i
  let v := s.wideWord t sp a
  let w := selvIndex sp a
  let bad := sp != 0x27 && (s.tile t).selv.ue.contains w
  let s := if sp = 0x27 then s else s.noteSelvRead t w
  let s := s.onTile t (·.flagIf bad (TawReg.TAW_UE i))
  if a % 8 = 0 then (v % 2 ^ 32, s.onTile t (·.w (TawReg.DATA_HI i) (v / 2 ^ 32))) else (v / 2 ^ 32, s)

/-- A read of DATA of window `i` (R510). -/
def State.tawRead (t : Fin 8) (i : Nat) (s : State) : Nat × State :=
  let sp := (s.tile t).r (TawReg.SPACE i)
  let r := if !s.tawIn t i then (0, s.onTile t (·.flag (TawReg.TAW_ERR i)))
    else if headSpace sp then s.tawReadTable t i sp else s.tawReadWide t i sp
  (r.1, r.2.onTile t (·.tawStep i))

/-- A write into a head space (R196, R377, R510, R511). -/
def State.tawStore (t : Fin 8) (i sp v : Nat) (s : State) : State :=
  let h := s.tawHead t i
  let a := (s.tile t).tawAddr i
  let x := s.head h
  if sp = 0x0E ∧ x.loopActive (a / 128) then
    (s.onHead h (·.flag LoopReg.STATE_WR_REFUSED)).onTile t (·.flag (TawReg.TAW_REFUSED i))
  else s.setHead h (x.withTable sp ((x.table sp).writeLE a 4 v))

/-- A write of DATA of window `i` (R510). -/
def State.tawWrite (t : Fin 8) (i v : Nat) (s : State) : State :=
  let sp := (s.tile t).r (TawReg.SPACE i)
  let rw := match spaceOf sp with | some (_, w) => w | none => false
  let s := if s.tawIn t i && rw then s.tawStore t i sp v else s.onTile t (·.flag (TawReg.TAW_ERR i))
  s.onTile t (·.tawStep i)

/-- The window instance that serves a requester on tile `t` (R508). -/
def tawOf (q : Req) (t : Fin 8) : Nat :=
  match q with
  | .core t' c => if t' = t then c.val else 2
  | .smbus => 2

/-! ### Register reads -/

/-- The window whose DATA word stands at a place (R508). -/
def dataWindow (p : Place) : Option (Fin 8 × Nat) :=
  match p with
  | .tile t off => if off = 0x1008 then some (t, 0) else if off = 0x1028 then some (t, 1)
    else if off = 0x1048 then some (t, 2) else none
  | _ => none

/-- A DATA access that meets a head in reset: completed at once, its address captured (R505, R511). -/
def State.tawReset (q : Req) (a : Nat) (s : State) : State :=
  s.onPkg (s.copyOf q) fun rf => (rf.set IdReg.RESET_ACCESS).wr IdReg.ACCESS_ADDR a

/-- A register read of requester `q` at address `a`: the value, and what it leaves behind (R5, R31, R498, R505, R510). -/
def State.regRead (q : Req) (a : Nat) (s : State) : Nat × State :=
  let p := placeOf a
  let how := s.accessOf q p
  let s := s.noteAccess q p a
  if how ≠ .ok then (0, s)
  else
    match dataWindow p with
    | some (t, i) => if s.tawAsleep t i then (0, s.tawReset q a) else s.tawRead t i
    | none =>
      match s.shadowOf q a with
      | some v => (v.toNat, s.dropShadow q a)
      | none =>
        let v := s.readAt (s.copyOf q) p
        let s := s.notePlace (s.copyOf q) p
        (v, if isLower p then s.capture q a else s)

end Sys2Proof.Machine
end

