-- ==== Sys2Proof/Machine/RegWrite.lean ====
section
/-! DEFINITION. What a register write does (R4, R5, R31, R420, R444, R498, R501, R505): the fields it stores and clears,
and the actions it starts. -/

namespace Sys2Proof.Machine

/-! ### Storing fields -/

/-- The LIMITS entry of a head field (R420); only the fields that R420 lists have one. -/
def State.limitOf (s : State) (f : Fld) : Option Limit :=
  if limitFields.any (fun e => e.1.key == f.key) then
    s.boot.limits.find? fun l => l.addr == 0x10400000 + f.off && l.lsb == f.lsb
  else none

/-- The bits of a word that a field takes. -/
def Fld.bits (f : Fld) (v : Nat) : Nat := bitsOf v (f.lsb + f.width - 1) f.lsb

/-- What a write stores in one field: an RW field takes the value, held within its limits, a W1C field loses the bits
written as 1, every other field is left alone (R4, R420). The flag says that a bound was stored instead. -/
def storeField (lim : Fld → Option Limit) (v : Nat) (r : RegFile × Bool) (f : Fld) : RegFile × Bool :=
  match f.acc with
  | .rw =>
    match lim f with
    | none => (r.1.wr f (f.bits v), r.2)
    | some l =>
      let k := max l.min (min l.max (f.bits v))
      (r.1.wr f k, r.2 || k != f.bits v)
  | .w1c => (r.1.wr f (r.1.rd f - (r.1.rd f &&& f.bits v)), r.2)
  | _ => r

/-- A write into a word's fields. -/
def storeWord (lim : Fld → Option Limit) (fs : List Fld) (v : Nat) (rf : RegFile) : RegFile × Bool :=
  fs.foldl (storeField lim v) (rf, false)

/-! ### Head registers -/

/-- Fields of a head that a write changes through an action of its own. -/
def headOwn (f : Fld) : Bool :=
  f.key == AngleReg.DISC_OFFSET.key || f.key == AngleReg.SLOT0_SCHED.key || f.key == RiserReg.SAFE_CMD.key
    || decide (0x101A0 ≤ f.off ∧ f.off < 0x10200)
    || (decide (0x40000 ≤ f.off ∧ f.off < 0x58000 ∧ f.lsb = 8) && f.off != 0x40000 + 0x800 * 32)

/-- The value of SCORR in force stays while its channel's gate is open (R296). -/
def Head.beforeWrite (off : Nat) (x : Head) : Head :=
  if 0x70100 ≤ off ∧ off < 0x70208 then x.scorrHold ((off - 0x70100) / 8) else x

/-- The RW and W1C fields of a head's word take a write. -/
def State.headStore (h : Fin 32) (off v : Nat) (s : State) : State :=
  let s := s.onHead h (Head.beforeWrite off)
  let r := storeWord s.limitOf ((fieldsIn headFields off).filter fun f => !headOwn f) v (s.head h).regs
  let s := s.onHead h fun x => { x with regs := r.1 }
  if r.2 then s.pset (wingOf (tileOf h)) BootReg.LIMIT_CLAMP else s

/-- A write of the Riser control word (R79, R91, R93, R94). -/
def State.riserControl (h : Fin 32) (v : Nat) (s : State) : State :=
  if bitOf v 4 then s.headReset h
  else
    let s := s.safeCmd h (bitOf v 2)
    let s := if bitOf v 3 then s.onHead h (Head.safeRelease (s.ctx h)) else s
    if bitOf v 0 then s.train h else s

/-- TEMP follows its source at once: the firmware's value, or the latest good frame (R294). -/
def Head.temperature (x : Head) : Head :=
  if x.b CalReg.TSRC || x.riser.servoSeen then x.takeTemp x.riser.servo else x

/-- The calibration operations of +0x7001C, in the order of their bits (R297, R298). -/
def State.calCommands (h : Fin 32) (v : Nat) (s : State) : State :=
  let s := if bitOf v 6 then s.calRequest h 1 else s
  let s := if bitOf v 7 then s.calRequest h 3 else s
  let s := if bitOf v 8 then s.calRequest h 4 else s
  if bitOf v 9 then s.calRequest h 2 else s

/-- What a write of a word starts in a head of which nothing outside the head takes part. A write of the angle flags
quiets a MARK (DESIGN CHOICE, log entry 126). -/
def Head.writeAct (c : Ctx) (off v : Nat) (x : Head) : Head :=
  if off = 0x28 then (if bitOf v 24 then x.fwGo c else x)
  else if off = 0x10004 then (if bitOf v 2 then x.alignWrite else x)
  else if off = 0x10008 then x.discOffsetWrite c (v % 2 ^ 24)
  else if off = 0x10028 then
    let x := x.slot0Write (bitsOf v 21 16)
    let x := if bitOf v 6 then x.startWrite else x
    if bitOf v 7 then x.stopWrite c else x
  else if off = 0x1001C then { x with angle := { x.angle with markPend := false } }
  else if off = 0x1002C then (if bitOf v 6 then x.spareArm c else x)
  else if off = 0x10104 then x.refreshBank
  else if 0x10140 ≤ off ∧ off < 0x101A0 then
    let n := (off - 0x10140) / 4
    let x := if bitOf v 2 then x.loopZero n else x
    if bitOf v 3 then x.loopClrStats n else x
  else if 0x101A0 ≤ off ∧ off < 0x10200 then x.selectRef c ((off - 0x101A0) / 4) (signedOf 32 v)
  else if off = 0x10200 then x.hcmd c (v % 16)
  else if 0x10204 ≤ off ∧ off < 0x10300 then x.refresh c
  else if off = 0x20000 then x.scmd c (v % 8)
  else if off = 0x20008 then (if bitOf v 15 then x.chopSilentClear else x)
  else if off = 0x30000 then x.mcmd c 0 (v % 16)
  else if off = 0x30100 then x.mcmd c 1 (v % 16)
  else if 0x40000 ≤ off ∧ off < 0x58000 then
    (if bitOf v 2 && off % 0x800 == 0 then x.clearStats (toSampler ((off - 0x40000) / 0x800)) else x)
  else if off = 0x5800C then x.ringPending
  else if off = 0x58010 then (x.w WeftReg.RING_RD (x.r WeftReg.RING_RD % x.ringSlots)).ringPending
  else if off = 0x58020 then x.holdCount c
  else if off = 0x58034 then
    let x := if bitOf v 24 then x.retryGo else x
    if bitOf v 25 then x.releaseSlots else x
  else if off = 0x60000 then (if bitOf v 3 then x.writeAbortCmd c else x)
  else if off = 0x60028 then (if bitOf v 24 then x.stratGo else x)
  else if off = 0x70000 then
    let x := if bitOf v 9 then x.calCancel c else x
    if bitOf v 8 then x.calArm else x
  else if off = 0x70010 then x.temperature
  else x

/-- A write of a head register. -/
def State.headWrite (h : Fin 32) (off v : Nat) (s : State) : State :=
  let s := s.headStore h off v
  if off = 0 then s.riserControl h v
  else if off = 0x7000C then
    let s := s.onHead h Head.temperature
    if bitOf v 0 then s.calRequest h 0 else s
  else if off = 0x7001C then s.calCommands h v
  else s.onHead h (Head.writeAct (s.ctx h) off v)

/-! ### Tile registers -/

/-- The RW and W1C fields of a tile's word take a write; DATA of a window is no field that stores. -/
def State.tileStore (t : Fin 8) (off v : Nat) (s : State) : State :=
  let s := if 0x200000 ≤ off ∧ off < 0x300000 then s.boltCount t else s
  s.onTile t fun x => { x with
    regs := (storeWord (fun _ => none) ((fieldsIn tileFields off).filter fun f => f.off != 0x1008 && f.off != 0x1028
      && f.off != 0x1048) v x.regs).1 }

/-- A write of a cache's control word or of its operations (R404 to R406). -/
def State.cacheWritten (t : Fin 8) (c k : Fin 2) (r v : Nat) (s : State) : State :=
  if r = 0 then (if bitOf v 0 then s else s.cacheOff t c k)
  else if r = 0x10 then s.cacheGo t c k (bitOf v 0) (bitOf v 1)
  else s

/-- A write of a DMA channel's control word or flags (R387, R391). -/
def State.dmaWritten (t c : Fin 8) (r v : Nat) (s : State) : State :=
  if r = 4 then
    let s := if bitOf v 0 then s.dmaGo t c else s
    if bitOf v 1 then s.dmaStop t c else s
  else if r = 0x14 ∧ bitOf v 1 ∧ (s.tile t).r (DmaReg.STATE c) = 2 then s.onTile t (·.w (DmaReg.STATE c) 0)
  else s

/-- A write of a port's control word (R361, R364). -/
def State.portWritten (p : Fin 16) (v : Nat) (s : State) : State :=
  if bitOf v 1 then s.portResetCmd p else if bitOf v 0 then s.refreshPorts else (s.linkFalls p).refreshPorts

/-- What a write of a tile register starts; `q` made it. -/
def State.tileAct (q : Req) (t : Fin 8) (off v : Nat) (s : State) : State :=
  if off = 0x40 then s.onTile t fun x => { x with regs := x.regs.orIn (GalReg.DB 0) v }
  else if off = 0x48 then s.onTile t fun x => { x with regs := x.regs.orIn (GalReg.DB 1) v }
  else if 0x100 ≤ off ∧ off < 0x300 then
    let j := (off - 0x100) / 0x80
    s.cacheWritten t (if j < 2 then 0 else 1) (if j % 2 = 0 then 0 else 1) (off % 0x80) v
  else if off = 0x1008 then s.tawWrite t 0 v
  else if off = 0x1028 then s.tawWrite t 1 v
  else if off = 0x1048 then s.tawWrite t 2 v
  else if off = 0x100004 then s.onTile t (Tile.clearOvf (v % 8))
  else if off = 0x100034 then s.onTile t (Tile.clearLog (v / 2 ^ 16))
  else if off = 0x100208 then s.repairGo t (bitOf v 6) (bitOf v 7)
  else if 0x101000 ≤ off ∧ off < 0x101200 then s.dmaWritten t (toTile ((off - 0x101000) / 0x40)) (off % 0x40) v
  else if off = 0x200018 then s.boltFlush t
  else if off = 0x300000 then s.portWritten (portOf t 0) v
  else if off = 0x310000 then s.portWritten (portOf t 1) v
  else if 0x300000 ≤ off ∧ off < 0x320000 then s.refreshPorts
  else if off = 0x320010 then s.hcrFlush t
  else if off = 0x32001C then (if bitOf v 19 then s.hcrGo t else s)
  else if off = 0x600000 then
    let s := s.capWritten t
    if bitOf v 2 then s.tripResume t else s
  else s

/-- A write of a tile register. Only firmware of the lease-holding wing writes the repair list (R384). -/
def State.tileWrite (q : Req) (t : Fin 8) (off v : Nat) (s : State) : State :=
  if 0x100200 ≤ off ∧ off ≤ 0x100208 ∧ !s.allowed q then s.onTile t (·.flag ProtReg.REPAIR_REFUSED)
  else (s.tileStore t off v).tileAct q t off v

/-! ### Package registers -/

/-- Fields of the package block that a write changes through an action of its own. -/
def pkgOwn (f : Fld) : Bool := f.key == HostReg.PS_CURRENT.key || f.key == AuthReg.SMB_WING.key

/-- The RW and W1C fields of a word of the package block take a write, served by copy `w`. -/
def State.pkgStore (w : Fin 2) (off v : Nat) (s : State) : State :=
  s.onPkg w fun rf => (storeWord (fun _ => none) ((fieldsIn pkgFields off).filter fun f => !pkgOwn f) v rf).1

/-- The stacks of enabled tiles with ECS_EN report their scrub errors after self-refresh (R376): counts that the spec
does not state. -/
def State.scrubReports (s : State) : State :=
  s.eachTile fun t s =>
    if s.tileEnabled t && (s.tile t).b ProtReg.ECS_EN then
      let n := Config.freeValue s.freeCount
      (s.onTile t (·.w ProtReg.ECS_COUNT (min n 65535))).takeFree
    else s

/-- PS_CURRENT is written (R359, R363, R444): from the wing that does not hold the lease it has no effect. -/
def State.psWrite (q : Req) (v : Nat) (s : State) : State :=
  if !s.allowed q then s
  else
    let w := s.copyOf q
    let old := s.pr w HostReg.PS_CURRENT
    let new := HostReg.PS_CURRENT.bits v
    let s := (s.pw w HostReg.PS_CURRENT new).powerWritten
    (if old = 4 ∧ new ≠ 4 then s.scrubReports else s).refreshPorts

/-- A reset of the whole package is in progress: the boot that ends it has not come to its end, nor to one of the states in
which the package waits (R10, R413, R427). -/
def State.packageResets (s : State) : Bool :=
  s.boot.phase != .running && s.boot.phase != .mgmtOnly && s.boot.phase != .recordHeld

/-- RESET_CMD is written (R501): a reset of the package that runs takes in a further one (R10). -/
def State.resetCmd (q : Req) (v : Nat) (s : State) : State :=
  if v / 2 ^ 16 % 2 ^ 16 = 0x8512 ∧ s.allowed q then
    if bitOf v 8 then (if s.packageResets then s else s.warmReset.bootBegins)
    else s.eachTile fun t s => if bitOf v t then s.tileResetCmd t else s
  else s.pset (s.copyOf q) IdReg.RESET_REFUSED

/-- SMB_WING is written: it selects the copy that serves SMBus, so both copies keep it (R444, R459). -/
def State.smbWing (v : Nat) (s : State) : State :=
  (s.onAtrium 0 (·.w AuthReg.SMB_WING v)).onAtrium 1 (·.w AuthReg.SMB_WING v)

/-- Words of the package block that persist and that a register write changes (R422, R427, R438). -/
def persistOffs : List Nat := [0x218, 0x21C, 0x220, 0x284]

/-- A write of such a word. -/
def State.persistPut (q : Req) (off v : Nat) (s : State) : State :=
  if off = 0x218 then s.writeMinSeq q false v
  else if off = 0x21C then s.writeMinSeq q true v
  else if off = 0x220 then s.writeSlots q v
  else s.writeBrAck q v

/-- The persistent fields of a package word, as copy `w` keeps them. -/
def State.persistWord (s : State) (w : Fin 2) (off : Nat) : Nat := wordOf (s.pr w) ((fieldsIn pkgFields off).filter (·.persist))

/-- The wear counter of the word that keeps a package word in copy `w` (R434). -/
def State.persistWear (s : State) (w : Fin 2) (off : Nat) : Nat :=
  ((keptAt (atriumTile w) off).bind fun i => lookupKey i (s.tile (atriumTile w)).selv.wear).getD 0

/-- A persistent word and its wear counter in copy `w` are as they were. -/
def State.persistBack (w : Fin 2) (off old wear : Nat) (s : State) : State :=
  let s := s.onAtrium w fun a => { a with
    regs := ((fieldsIn pkgFields off).filter (·.persist)).foldl (fun rf f => rf.wr f (f.bits old)) a.regs }
  match keptAt (atriumTile w) off with
  | none => s
  | some i => s.onTile (atriumTile w) fun x => { x with selv := { x.selv with
      wear := if wear = 0 then x.selv.wear.filter (fun e => e.1 ≠ i) else insertKey i wear x.selv.wear } }

/-- A write is carried out, and remembered for the rest of its cycle. -/
def State.persistTake (q : Req) (off v : Nat) (s : State) : State :=
  let e : PersistWrite := { cycle := s.cycle, req := q, off := off, value := v, old0 := s.persistWord 0 off
                            old1 := s.persistWord 1 off, wear0 := s.persistWear 0 off, wear1 := s.persistWear 1 off }
  let r := s.persistPut q off v
  { r with pkg := { r.pkg with persistNow := (s.pkg.persistNow.filter fun e => e.cycle == s.cycle) ++ [e] } }

/-- A write of a persistent package word (R432): of writes that arrive in one cycle, that of the lower tile goes first, and the
last stands. -/
def State.persistWrite (q : Req) (off v : Nat) (s : State) : State :=
  let now := s.pkg.persistNow.filter fun e => e.cycle == s.cycle
  let after := now.filter fun e => decide (s.reqTile q < s.reqTile e.req)
  if after.isEmpty then s.persistTake q off v
  else
    let s := after.reverse.foldl (fun s e => (s.persistBack 0 e.off e.old0 e.wear0).persistBack 1 e.off e.old1 e.wear1) s
    let s := { s with pkg := { s.pkg with persistNow := now.filter fun e => decide (s.reqTile e.req ≤ s.reqTile q) } }
    after.foldl (fun s e => s.persistTake e.req e.off e.value) (s.persistTake q off v)

/-- A register write that its block accepts and the Selvedge store turns away, which is reported to its requester as not done
(R432). -/
def State.turnedAway (q : Req) (p : Place) (v : Nat) (s : State) : Bool :=
  s.storeRefuses && s.accessOf q p == .ok && (match p with
    | .pkg off =>
      if off = 0x218 then s.minSeqOk q false v
      else if off = 0x21C then s.minSeqOk q true v
      else if off = 0x220 then s.allowed q
      else off == 0x284 && s.brAckOk q v
    | .tile t off => off == 0x100208 && s.allowed q && (bitOf v 6 != bitOf v 7)
        && (bitOf v 7 || repairValid ((s.tile t).r ProtReg.REPAIR_LO + (s.tile t).r ProtReg.REPAIR_HI * 2 ^ 32))
    | _ => false)

/-- What a write of a package register starts; `q` made it. -/
def State.pkgAct (q : Req) (off v : Nat) (s : State) : State :=
  if off = 0x24 then s.resetCmd q v
  else if persistOffs.contains off then s.persistWrite q off v
  else if off = 0x228 then (if bitOf v 30 then s.keyGo q else s)
  else if off = 0x40C then (if bitOf v 2 then s.flGo q 0 else s)
  else if off = 0x44C then (if bitOf v 2 then s.flGo q 1 else s)
  else if off = 0x614 then
    let s := s.smbWing (bitsOf v 9 8)
    s.authCmd (s.copyOf q) (v % 8)
  else if 0x4000 ≤ off ∧ off < 0x4800 ∧ off % 0x100 = 0 then
    let n := toTile ((off - 0x4000) / 0x100)
    s.setCmd n (s.allowedSet q n) (v % 16) (bitsOf v 8 4) (bitOf v 9)
  else if off = 0x5000 then s.psWrite q v
  else if off = 0x5008 then s.refreshPorts
  else if off = 0x300 then s.refreshWear (s.copyOf q)
  else s

/-- A write of a package register. -/
def State.pkgWrite (q : Req) (off v : Nat) (s : State) : State := (s.pkgStore (s.copyOf q) off v).pkgAct q off v

/-! ### Any address -/

/-- A write that has reached its register. -/
def State.writePlace (q : Req) (p : Place) (v : Nat) (s : State) : State :=
  match p with
  | .pkg off => s.pkgWrite q off v
  | .tile t off => s.tileWrite q t off v
  | .head h off => s.headWrite h off v
  | .none => s

/-- A DATA access through a window meets a head in reset (R511). -/
def State.windowAsleep (s : State) (p : Place) : Bool :=
  match dataWindow p with
  | some (t, i) => s.tawAsleep t i
  | none => false

/-- What a write by `q` that reaches its register at address `a` leaves behind on its way: the packet, and no shadow of that
word (R31). -/
def State.arrived (q : Req) (p : Place) (a : Nat) (s : State) : State := (s.noteAccess q p a).dropShadow q a

/-- A write by `q` of the 32-bit word at address `a`, which is place `p` (R5, R31, R498, R505). -/
def State.writeAt (q : Req) (p : Place) (a v : Nat) (s : State) : State :=
  if s.accessOf q p ≠ .ok then s.noteAccess q p a
  else if s.windowAsleep p then (s.noteAccess q p a).tawReset q a
  else (s.arrived q p a).writePlace q p v

/-- A register write at any address. -/
def State.regWrite (q : Req) (a v : Nat) (s : State) : State := s.writeAt q (placeOf a) a v

end Sys2Proof.Machine
end

