-- ==== Sys2Proof/Machine/Boot.lean ====
section
/-! DEFINITION. The boot sequence (R409 to R414), the boot record's append (R424 to R427), and the reload of a tile after a
tile reset (R414). -/

namespace Sys2Proof.Machine

/-! ### Steps 1 to 3 -/

/-- WING of the strap word (R409). -/
def strapWing (strap : Nat) : Fin 2 := if bitOf strap 7 then 1 else 0

/-- BOOT of the strap word (R409). -/
def strapBoot (strap : Nat) : Nat := bitsOf strap 3 2

/-- A field of the package block takes a value in both copies. -/
def State.bothPut (f : Fld) (v : Nat) (s : State) : State := (s.onAtrium 0 (·.w f v)).onAtrium 1 (·.w f v)

/-- The 4 096-byte fuse array (R424). -/
def fuseBytes (f : Fuses) : List Byte := (List.range 4096).map fun i => Config.fuseByte f.revoked i

/-- BOOT_PLL_LOCK (R409, R411, R496): the PLLs of tiles 0 and 4 lock; the straps are sampled, at their levels `pins` where
they have changed since the power-on reset or the boot before, and the fuse array is read. -/
def execBootPllLock (lock : PllLock) (s : State) : Out :=
  s.after lock.wait (fun s => s.boot.phase = .pll && !s.pkg.porHeld && s.pkg.sysclk && (s.boot.warm || s.pkg.pwrfailN)) fun s =>
    let straps := match lock.pins with | none => s.boot.straps | some v => v.toNat
    let s := { s with boot := { s.boot with straps := straps } }
    let w := straps % 1024
    let digest := sha384 (fuseBytes s.fuses)
    let s := { s with boot := { s.boot with
      phase := .tiles, strapWord := w, strapDigest := sha384 (bytesOf 8 w), fuseDigest := digest } }
    (s.bothPut BootReg.STRAP_WORD w).bothPut BootReg.WARM (flagNat s.boot.warm)

/-- LSTATE of link `k` of tile `t` at a boot (R22, R504): absent where the far tile is not enabled, otherwise
training. -/
def State.startLink (t : Fin 8) (k : Fin 3) (s : State) : State :=
  s.onTile t fun x => (x.w (LinkReg.LSTATE k) (if s.tileEnabled (warpFar t k) then 1 else 3))

/-- One more than the highest SEQ of a valid record in an event log; 0 for an empty log (R453). -/
def Selvedge.nextSeq (x : Selvedge) : Nat :=
  x.words.foldl (fun m c =>
    if logWord 0 ≤ c.1 ∧ c.1 < logWord 0 + 4 * 20480 ∧ c.1 % 4 = 0 ∧ bitsOf (x.read c.1).toNat 15 0 ≠ 0 then
      max m (bitsOf (x.read (c.1 + 3)).toNat 63 32 + 1)
    else m) 0

/-- The logger of a tile resumes (R453). -/
def State.resumeLog (t : Fin 8) (s : State) : State :=
  let next := (s.tile t).selv.nextSeq
  (s.noteWords t (logWord 0) (4 * 20480)).bothPut (EvReg.EV_SEQ t) next

/-- Package time starts at the master (R40). -/
def State.startTime (m : Fin 8) (s : State) : State :=
  s.onTile m fun x => { x.put TimeReg.TIME_VALID true with time16 := 0, timeOn := true, paces := [] }

/-- The Atrium of wing `w` takes the lease at a boot, and both copies name it (R440). -/
def State.bootLease (w : Fin 2) (s : State) : State :=
  let e := max (s.epoch 0) (s.epoch 1) + 1
  let o := otherWing w
  let s := (s.setEpoch o e).onAtrium o fun a => { a.put AuthReg.HOLDER_WING (w.val == 1) with
    leaseSeen := true, lastRenewal := s.ns (atriumTile o) }
  s.takeLease w e 0

/-- TILES_POWERED (R40, R410, R411, R440, R453): the strapped tiles have power and time starts; the step waits while the
stores refuse the lease's EPOCH. -/
def execTilesPowered (wait : Nat) (s : State) : Out :=
  s.after wait (fun s => s.boot.phase = .tiles && !s.storeRefuses) fun s =>
    let strap := s.boot.strapWord
    let w := strapWing strap
    let s := { s with boot := { s.boot with phase := .scan } }
    let s := s.bothPut IdReg.TILE_STRAPPED (tileSet (strapTiles strap))
    let s := s.eachTile fun t s =>
      if s.tileEnabled t then
        ((((s.startLink t 0).startLink t 1).startLink t 2).resumeLog t).onTile t fun x => { x with syncFrom := s.cycle }
      else s
    let s := (s.startTime (atriumTile w)).bootLease w
    s.logPkg 0x31 0xFF (flagNat s.boot.warm) 0

/-! ### Step 4 -/

/-- A persistent value whose two copies differ at a boot takes one value in both (R433): `put` writes it, and each copy's
word is written where it changes. -/
def State.bootResolve (addr : Nat) (val : RegFile → Nat) (put : Nat → RegFile → RegFile) (higher : Bool) (s : State) :
    State :=
  let read (w : Fin 2) : Nat := if s.lostWord (atriumTile w) addr then 0 else val (s.atrium w).regs
  let a := read 0
  let b := read 1
  if a = b then s
  else if s.storeRefuses then s.pset s.mainWing BootReg.SELV_REFUSED
  else
    let v := if higher then max a b else if strapWing s.boot.strapWord = 0 then a else b
    bothWings.foldl (fun (s : State) (w : Fin 2) =>
      if read w = v then s
      else (s.onAtrium w fun x => { x with regs := put v x.regs }).keep (atriumTile w) addr) s

/-- One field of the persistent state of the package. -/
def State.bootField (f : Fld) (higher : Bool) (s : State) : State := s.bootResolve f.off (·.rd f) (fun v rf => rf.wr f v) higher

/-- One value of two words. -/
def State.bootPair (lo hi : Fld) (s : State) : State :=
  s.bootResolve lo.off (fun rf => rf.rd lo + 2 ^ 32 * rf.rd hi) (fun v rf => (rf.wr lo v).wr hi (v / 2 ^ 32)) true

/-- The record of a key slot that differs between tiles 0 and 4 at a boot takes the primary's value in both (R423, R433). -/
def State.bootKey (s : State) (k : Nat) : State :=
  let p := atriumTile (strapWing s.boot.strapWord)
  let o := atriumTile (otherWing (strapWing s.boot.strapWord))
  let l := s.keyRecord p k
  if l = s.keyRecord o k then s else s.selvWrites o (keyWord k) l

/-- The words that the boot compares are read in both copies (R433, R435). -/
def State.noteReconcile (s : State) : State :=
  bothWings.foldl (fun (s : State) (w : Fin 2) =>
    (s.noteWords (atriumTile w) 0 pkgPersist.length).noteKeys (atriumTile w)) s

/-- Differences between the two copies of package persistent state are resolved (R433): counters, MIN_SEQ and BR_ACK
toward the higher value, every other field and the key slot records toward the primary's. -/
def State.bootReconcile (s : State) : State :=
  let s := s.noteReconcile
  let s := [BootReg.BOOT_COUNT, BootReg.BR_ACK, BootReg.KEY_SEQ].foldl (fun s f => s.bootField f true) s
  let s := s.bootPair BootReg.MIN_SEQ_LO BootReg.MIN_SEQ_HI
  let s := [BootReg.ACTIVE_SLOT_0, BootReg.ACTIVE_SLOT_1, BootReg.RECORD_POLICY, IdReg.DEVICE_ID 0, IdReg.DEVICE_ID 1,
    IdReg.DEVICE_ID 2, IdReg.DEVICE_ID 3].foldl (fun s f => s.bootField f false) s
  let s := ([4, 5, 6, 7, 8, 9, 10, 11] : List Nat).foldl State.bootKey s
  allSets.foldl (fun (s : State) (n : Fin 8) =>
    let s := [SetReg.ONLINE_DONE n, SetReg.PRESENT n, SetReg.REPLACING n, SetReg.JSTART n].foldl
      (fun s f => s.bootField f false) s
    (s.bootField (SetReg.CKPT_SEQ n) true).bootPair (SetReg.WSEQ_AT_LO n) (SetReg.WSEQ_AT_HI n)) s

/-- The words listed in the boot record region of a store. -/
def Selvedge.recordKeys (x : Selvedge) : List Nat :=
  (x.words.map (·.1)).filter fun k => decide (recordWord 0 ≤ k ∧ k < recordWord 0 + 128 * 4096)

/-- The entries of the winning copy are copied over the other copy, word by word where they differ (R426). -/
def State.copyRecords (from_ into : Fin 8) (s : State) : State :=
  let a := (s.tile from_).selv
  let b := (s.tile into).selv
  (a.recordKeys ++ b.recordKeys.filter fun k => !a.recordKeys.contains k).foldl (fun (s : State) (k : Nat) =>
    if a.read k = (s.tile into).selv.read k then s else s.selvWrite into k (a.read k)) s

/-- The copy whose newest valid entry is higher; the primary, that of wing `w`, wins a tie (R426). -/
def winningCopy (w : Fin 2) (a b : Option (List Byte)) : Option (Fin 2 × List Byte) :=
  match a, b with
  | none, none => none
  | some x, none => some (0, x)
  | none, some y => some (1, y)
  | some x, some y =>
    if entryCount x < entryCount y then some (1, y)
    else if entryCount y < entryCount x then some (0, x)
    else if w = 0 then some (0, x) else some (1, y)

/-- BOOT_RECORD_SCAN (R426, R433): the chain head and the new BOOT_COUNT; then the candidates are read, or the boot is held
by the strap BOOT = 2 (R413). -/
def execBootRecordScan (wait : Nat) (s : State) : Out :=
  s.after wait (fun s => s.boot.phase = .scan) fun s =>
    let strap := s.boot.strapWord
    let w := strapWing strap
    let s := (s.noteRecordRead 0).noteRecordRead 4
    let head := winningCopy w (s.tile 0).selv.newestEntry (s.tile 4).selv.newestEntry
    let s := match head with
      | none => s
      | some (c, _) => s.copyRecords (atriumTile c) (atriumTile (otherWing c))
    let count := max (max (s.pr 0 BootReg.BOOT_COUNT) (s.pr 1 BootReg.BOOT_COUNT)) ((head.map fun (e : Fin 2 × List Byte) => entryCount e.2).getD 0)
    let s := s.bootReconcile.refreshWear w
    let s := { s with boot := { s.boot with
      prevEntry := (head.map fun (e : Fin 2 × List Byte) => e.2).getD [], restart := head.isNone, nextCount := count + 1 } }
    if strapBoot strap = 2 then
      { (s.bothPut BootReg.BOOT_CODE 11).bothPut BootReg.MGMT_ONLY 1 with boot := { s.boot with phase := .sparing } }
    else
      let s := { s with boot := { s.boot with phase := .candidate } }
      let s := s.onFlash 0 fun f => { f with bootRead := true }
      if strapBoot strap = 1 then s else s.onFlash 1 fun f => { f with bootRead := true }

/-! ### Step 5 -/

/-- The candidates in the order of R412: flash and slot. -/
def State.candidates (s : State) : List (Fin 2 × Nat) :=
  let strap := s.boot.strapWord
  let w := strapWing strap
  let o := otherWing w
  let act (f : Fin 2) : Nat := s.activeSlot w f
  if strapBoot strap = 1 then [(0, act 0), (0, 1 - act 0)]
  else [(w, act w), (o, act o), (w, 1 - act w), (o, 1 - act o)]

/-- FW_DIGEST[0-7] of a container (R419). -/
def FlashSt.imageDigests (f : FlashSt) (b : Nat) : List (List Byte) :=
  (List.range 8).map fun i => match (sectionsOf (f.table b) 0x30 i).head? with
    | some x => sha384 (f.body b x)
    | none => List.replicate 48 0

/-- The boot stays management-only with a code (R413). -/
def State.bootFails (code : Nat) (s : State) : State :=
  let s := s.onFlash 0 fun f => { f with bootRead := false }
  let s := s.onFlash 1 fun f => { f with bootRead := false }
  { (s.bothPut BootReg.BOOT_CODE code).bothPut BootReg.MGMT_ONLY 1 with boot := { s.boot with phase := .sparing } }

/-- The other flash of a dual-flash boot does not hold the bit-stream in use in the same slot (R412). -/
def State.flashMismatch (s : State) (fl : Fin 2) (slot : Nat) : Bool :=
  let o := otherWing fl
  let b := slotByte slot
  strapBoot s.boot.strapWord != 1 && (s.checkImage (strapWing s.boot.strapWord) o slot s.boot.strapWord != 0
    || (s.flash o).signedDigest b != (s.flash fl).signedDigest b)

/-- A candidate is used (R412, R438). -/
def State.useCandidate (i : Nat) (fl : Fin 2) (slot : Nat) (s : State) : State :=
  let f := s.flash fl
  let b := slotByte slot
  let apart := s.flashMismatch fl slot
  let tiles := tileSet (f.tileCount b)
  let live := (f.table b).filter fun x => !x.ignored tiles
  let lim := f.bodyOf b live 3 0
  let fields := [(BootReg.BOOT_CODE, 0), (BootReg.MGMT_ONLY, 0), (BootReg.FALLBACK, if i = 0 then 0 else 1),
    (BootReg.FLASH_MISMATCH, flagNat apart), (BootReg.FLASH_USED, fl.val), (BootReg.SLOT_USED, slot),
    (BootReg.KEY_SLOT_USED, f.keySlot b), (BootReg.SEQ_LO, f.sequence b), (BootReg.SEQ_HI, f.sequence b / 2 ^ 32)]
  let s := fields.foldl (fun s e => s.bothPut e.1 e.2) s
  let s := if apart then s.onFlash (otherWing fl) fun f => { f with bootRead := false } else s
  { s with boot := { s.boot with
    phase := .load, sections := live, slotBase := b, limits := limitsOf (lim.length / 16) lim
    bsDigest := f.signedDigest b, images := f.imageDigests b } }

/-- CANDIDATE_VERIFY (R412, R413): the next candidate is checked, and used or recorded in BOOT_TRY. -/
def execCandidateVerify (reads : FlashReads) (s : State) : Out :=
  let ok := reads.ok
  s.after reads.wait (fun s => s.boot.phase = .candidate) fun s =>
    let i := s.boot.tries.length
    match s.candidates[i]? with
    | none => s.bootFails (s.boot.tries.getLastD 1)
    | some (fl, slot) =>
      let code := if ok then s.checkImage (strapWing s.boot.strapWord) fl slot s.boot.strapWord else 12
      let s := if ok then s.noteCheck (strapWing s.boot.strapWord) fl slot else s
      let try_ := s.pr s.mainWing BootReg.BOOT_TRY
      let s := s.bothPut BootReg.BOOT_TRY (try_ + code * 2 ^ (8 * i))
      let s := { s with boot := { s.boot with tries := s.boot.tries ++ [code] } }
      if code = 0 then s.useCandidate i fl slot
      else if i + 1 = s.candidates.length then s.bootFails code
      else s

/-! ### Steps 6 and 7 -/

/-- A table memory that holds the given bytes and no error. -/
def memOf (l : List Byte) : Mem :=
  { Mem.empty with cells := l.zipIdx.filterMap fun e => if e.1 = 0 then none else some (e.2, e.1) }

/-- Part of a list of bytes. -/
def sliceOf (l : List Byte) (a n : Nat) : List Byte := (l.drop a).take n

/-- The requester in whose name a bit-stream's register lists are written: the Atrium of the wing that boots. -/
def State.loader (s : State) : Req := .core (atriumTile s.mainWing) 0

/-- The entries of a register list are applied in order as register writes (R417). -/
def State.applyList (l : List Byte) (s : State) : State :=
  (regList l).foldl (fun s e => s.writePlace s.loader (placeOf e.1) e.2) s

/-- The image of a section enters the table memories of its head (R417). -/
def Head.loadImage (id : Nat) (l : List Byte) (x : Head) : Head :=
  match id with
  | 0x20 => { x with schedMem := memOf l }
  | 0x21 => { x with chanMem := memOf l }
  | 0x22 => { x with stratMem := memOf l }
  | 0x23 => ({ x with loops := { x.loops with
      topoMem := memOf (sliceOf l 0 384), setMem := memOf (sliceOf l 384 147456)
      bankMem := memOf (sliceOf l 147840 3072), regionMem := memOf (sliceOf l 150912 4116) } }).refreshBank
  | 0x24 => { x with cal := { x.cal with
      posMem := memOf (sliceOf l 0 4352), posDefault := memOf (sliceOf l 0 4352), jobMem := memOf (sliceOf l 4352 8192) } }
  | _ => x

/-- An image is written into the RAM of the cores of tile `t` that it names, whose program counters take its ENTRY (R419). -/
def State.loadFirmware (t : Fin 8) (l : List Byte) (s : State) : State :=
  if bitOf (infoField l 0 1) t then
    s.onTile t fun x =>
      let put (c : CoreSt) (k : Nat) : CoreSt :=
        if bitOf (infoField l 1 1) k then
          { c with tcm := c.tcm.writeBytes (infoField l 4 4) (l.drop 64), pc := infoField l 8 4 }
        else c
      { x with cores := #v[put x.cores[0] 0, put x.cores[1] 1] }
  else s

/-- One section is loaded into tile `t`, where it concerns that tile (R417). -/
def State.loadSection (t : Fin 8) (x : Section) (s : State) : State :=
  let l := (s.flash s.flashUsed).body s.boot.slotBase x
  if x.id = 0x30 then s.loadFirmware t l
  else if x.tile? ≠ some t.val then s
  else if x.id = 0x10 then s.applyList l
  else
    let s := s.onHead (toHead x.index) (Head.loadImage x.id l)
    if x.id = 0x24 then s.applyList (l.drop (imageBytes 0x24)) else s

/-- All sections of a tile are loaded. -/
def State.loadTile (t : Fin 8) (s : State) : State := s.boot.sections.foldl (fun s x => s.loadSection t x) s

/-- The SETS body in use. -/
def State.setsBody (s : State) : List Byte := (s.flash s.flashUsed).bodyOf s.boot.slotBase s.boot.sections 2 0

/-- TILE_EN of the bit-stream in use (R13). -/
def State.bitTiles (s : State) : Nat :=
  tileSet (((s.flash s.flashUsed).bodyOf s.boot.slotBase s.boot.sections 1 0).headD 0).toNat

/-- A tile that the bit-stream leaves out is gated off with its Warp router (R14, R410): what it did is over, and its links
are no links. -/
def State.gateOff (t : Fin 8) (s : State) : State :=
  let s := localHeads.foldl (fun (s : State) (l : Fin 4) => s.onHead (headOf t l) fun x =>
    { x.cleared (s.ctx (headOf t l)) .tile with inReset := true }) s
  (s.onTile t fun x => Tile.clearedAll s.cycle .tile x).loseRam t

/-- SECTION_LOAD (R410, R418, R437): tiles above TILE_COUNT are gated off, every enabled tile is loaded, but a tile that
tripped stays in reset. -/
def execSectionLoad (wait : Nat) (s : State) : Out :=
  s.after wait (fun s => s.boot.phase = .load) fun s =>
    let s := s.bothPut IdReg.TILE_EN s.bitTiles
    let s := allSets.foldl (fun (s : State) (n : Fin 8) =>
      let d := setDefOf s.setsBody n
      s.onSet n fun a => { a with cfg := d }) s
    let s := s.eachTile fun t s =>
      if s.tileEnabled t then
        let s := ([0, 1, 2] : List (Fin 3)).foldl (fun (s : State) (k : Fin 3) =>
          if s.tileEnabled (warpFar t k) then s else s.onTile t (·.w (LinkReg.LSTATE k) 3)) s
        if (s.tile t).heat.tripAt.isSome then s else s.loadTile t
      else s.gateOff t
    let s := s.onFlash 0 fun f => { f with bootRead := false }
    let s := s.onFlash 1 fun f => { f with bootRead := false }
    { s with boot := { s.boot with phase := .sparing, tileLoad := [] } }

/-- Step 7 at one tile (R372, R382). -/
def State.spareTile (t : Fin 8) (s : State) : State :=
  (s.applyRepairs t).onTile t fun x => { x with stack := x.stack.zeroShadow }

/-- SPARING_APPLY (R372, R382). -/
def execSparingApply (wait : Nat) (s : State) : Out :=
  s.after wait (fun s => s.boot.phase = .sparing) fun s =>
    let s := s.eachTile fun t s => if s.tileEnabled t then s.spareTile t else s
    { s with boot := { s.boot with phase := .append } }

/-! ### Step 8 -/

/-- A bit-stream is in use. -/
def State.booted (s : State) : Bool := s.boot.tries.getLast? == some 0

/-- BOOT_CODE of the boot, whether or not its record is held (R413). -/
def State.finalCode (s : State) : Nat := s.boot.tries.getLastD 11

/-- The slot that the append needs holds a valid entry that is not acknowledged (R427). -/
def State.recordBlocked (s : State) : Bool :=
  let w := strapWing s.boot.strapWord
  let e := (s.tile (atriumTile w)).selv.entry (recordSlot s.boot.nextCount)
  entryValid e && decide (s.pr w BootReg.BR_ACK < entryCount e)

/-- KEY_DIGEST: SHA-384 of the eight Selvedge key slot records (R424). -/
def State.keySlotDigest (s : State) (w : Fin 2) : List Byte :=
  sha384 (([4, 5, 6, 7, 8, 9, 10, 11] : List Nat).flatMap fun k =>
    (s.keyRecord (atriumTile w) k).flatMap fun x => bytesOf 8 x.toNat)

/-- The signed part of the new entry (R424); `lost` is UNACKED_LOST. -/
def State.entryBody (s : State) (lost : Bool) : List Byte :=
  let w := strapWing s.boot.strapWord
  let b := s.boot
  let f (g : Fld) : Nat := s.pr w g
  let ok := s.booted
  let zero (n : Nat) : List Byte := List.replicate n 0
  let flags := flagNat b.warm + 2 * f BootReg.FALLBACK + 4 * f BootReg.FLASH_MISMATCH + 8 * flagNat (!ok)
    + 16 * flagNat lost + 32 * flagNat b.restart
  let place := w.val + (if ok then 2 * f BootReg.FLASH_USED + 4 * f BootReg.SLOT_USED else 0)
  bytesOf 4 0x52424C50 ++ bytesOf 2 1 ++ bytesOf 2 flags ++ bytesOf 4 b.nextCount ++ bytesOf 1 s.finalCode
    ++ bytesOf 1 (if ok then f BootReg.KEY_SLOT_USED else 0xFF) ++ bytesOf 1 (f IdReg.TILE_EN) ++ bytesOf 1 place
    ++ bytesOf 8 b.strapWord ++ bytesOf 8 (f BootReg.SEQ_LO + 2 ^ 32 * f BootReg.SEQ_HI)
    ++ ([0, 1, 2, 3] : List Nat).flatMap (fun i => bytesOf 4 (f (IdReg.DEVICE_ID i)))
    ++ (if b.restart then zero 48 else sha384 b.prevEntry) ++ b.strapDigest ++ b.fuseDigest
    ++ (if ok then b.bsDigest else zero 48) ++ s.keySlotDigest w ++ (if ok then b.images.flatten else zero 384) ++ zero 256

/-- The new entry, signed (R424). -/
def State.newEntry (s : State) (lost : Bool) : List Byte :=
  let l := s.entryBody lost
  l ++ entrySignature l

/-- The words of an entry of BOOT_COUNT `count` in the order in which the append writes them in one copy: words 1 to 127,
then word 0 (R425). -/
def entryWrites (e : List Byte) (count : Nat) : List (Nat × DWord) :=
  let at_ := recordWord (recordSlot count)
  ((List.range 127).map (· + 1) ++ [0]).map fun k => (at_ + k, BitVec.ofNat 64 (infoField e (8 * k) 8))

/-- BOOT_COUNT is written in the copy of wing `w` (R425, R433). -/
def State.writeCount (w : Fin 2) (n : Nat) (s : State) : State :=
  (s.onAtrium w (·.w BootReg.BOOT_COUNT n)).keep (atriumTile w) 0x280

/-- What stands before the writes of the append: BOOT_CODE, MGMT_ONLY, UNACKED_LOST and the digest of the key slots, whose
records are read (R413, R424, R427, R435). -/
def State.appendBegins (lost : Bool) (s : State) : State :=
  let w := strapWing s.boot.strapWord
  let s := ((s.bothPut BootReg.BOOT_CODE s.finalCode).bothPut BootReg.MGMT_ONLY (flagNat (!s.booted)))
  (if lost then s.pset w BootReg.UNACKED_LOST else s).noteKeys (atriumTile w)

/-- The first `j` of the 258 writes of an append (R425): BOOT_COUNT in both tiles, the primary first, then the entry in the
copy of the WING tile, then in the other. -/
def State.appendWrites (lost : Bool) (j : Nat) (s : State) : State :=
  let w := strapWing s.boot.strapWord
  let n := s.boot.nextCount
  let ws := entryWrites (s.newEntry lost) n
  let s := if 1 ≤ j then s.writeCount w n else s
  let s := if 2 ≤ j then s.writeCount (otherWing w) n else s
  let s := (ws.take (j - 2)).foldl (fun s e => s.selvWrite (atriumTile w) e.1 e.2) s
  (ws.take (j - 130)).foldl (fun s e => s.selvWrite (atriumTile (otherWing w)) e.1 e.2) s

/-- The append runs, and the boot goes on: to journal replay, or to the management-only state (R413, R425). -/
def State.appendEntry (lost : Bool) (s : State) : State :=
  let w := strapWing s.boot.strapWord
  let ok := s.booted
  let s := (s.appendBegins lost).appendWrites lost 258
  { s with boot := { s.boot with phase := if ok then .replay else .mgmtOnly, keyDigest := s.keySlotDigest w } }

/-- The entry that stands in the slot of the append is read (R427, R435). -/
def State.noteOldEntry (s : State) : State :=
  s.noteWords (atriumTile (strapWing s.boot.strapWord)) (recordWord (recordSlot s.boot.nextCount)) 128

/-- A reset of the package, or the stores as they begin to refuse writes, meets an append that may have begun (R437): of its
writes some first ones, a free number, are done (log entry 142). Nothing is done where the append cannot have begun: before
step 8, while the boot is held, or while the stores refuse writes. -/
def State.interruptAppend (s : State) : State :=
  let waits := s.boot.phase = .append || (s.boot.phase = .recordHeld && !s.recordBlocked)
  let holds := s.recordBlocked && s.pr (strapWing s.boot.strapWord) BootReg.RECORD_POLICY != 0
  if waits && !holds && !s.storeRefuses then
    let j := Config.freeValue s.freeCount % 258
    let lost := s.recordBlocked
    let s := s.takeFree.noteOldEntry
    if j = 0 then s else (s.appendBegins lost).appendWrites lost j
  else s

/-- RECORD_APPEND (R425, R427): the entry is appended, or held until the entry in its slot is acknowledged; while the
stores refuse writes the append waits. -/
def execRecordAppend (wait : Nat) (s : State) : Out :=
  s.after wait (fun s => (s.boot.phase = .append || (s.boot.phase = .recordHeld && !s.recordBlocked)) && !s.storeRefuses)
    fun s =>
      let w := strapWing s.boot.strapWord
      let s := s.noteOldEntry
      if !s.recordBlocked then s.appendEntry false
      else if s.pr w BootReg.RECORD_POLICY = 0 then s.appendEntry true
      else
        let s := ((s.bothPut BootReg.BOOT_CODE 10).bothPut BootReg.MGMT_ONLY 1).pset w BootReg.RECORD_HELD
        { s with boot := { s.boot with phase := .recordHeld } }

/-! ### Steps 9 and 10, and the reload of a tile -/

/-- The journals of the sets homed on tiles that `on` holds of are replayed (R317). -/
def State.replaySets (on : Fin 8 → Bool) (s : State) : State :=
  allSets.foldl (fun (s : State) (n : Fin 8) => if on (s.aset n).cfg.homeTile then s.replaySet n else s) s

/-- A tile that the boot brings up: one that tripped, or was reset since the load, comes up by its reload (R414, R437). -/
def State.bootsNow (s : State) (t : Fin 8) : Bool := (s.tile t).heat.tripAt.isNone && !s.boot.tileLoad.contains t.val

/-- JOURNAL_REPLAY (R317, R411); a set homed on a tile that tripped waits for that tile. -/
def execJournalReplay (wait : Nat) (s : State) : Out :=
  s.after wait (fun s => s.boot.phase = .replay) fun s =>
    let s := s.replaySets s.bootsNow
    { s with boot := { s.boot with phase := .release } }

/-- A core starts in M mode at the ENTRY of its image, with a0 = mhartid and a1 = BOOT_COUNT (R392, R419). -/
def CoreSt.start (hart count : Nat) (x : CoreSt) : CoreSt :=
  { x with running := true, mode := 3, xregs := (x.xregs.set 10 (BitVec.ofNat 64 hart)).set 11 (BitVec.ofNat 64 count) }

/-- A tile leaves reset: its heads wake and its cores are released (R419, R505). -/
def State.releaseTile (t : Fin 8) (s : State) : State :=
  let n := s.pr (wingOf t) BootReg.BOOT_COUNT
  let s := s.onTile t fun x => { x with
    inReset := false
    cores := #v[x.cores[0].start (2 * t.val) n, x.cores[1].start (2 * t.val + 1) n] }
  localHeads.foldl (fun (s : State) (l : Fin 4) => s.onHead (headOf t l) Head.wake) s

/-- CORE_RELEASE (R411, R419). -/
def execCoreRelease (wait : Nat) (s : State) : Out :=
  s.after wait (fun s => s.boot.phase = .release) fun s =>
    let s := s.eachTile fun t s => if s.tileEnabled t && s.bootsNow t then s.releaseTile t else s
    { s with boot := { s.boot with phase := .running } }.refreshSets.refreshPorts

/-- A section concerns tile `t`. -/
def State.concerns (s : State) (t : Fin 8) (x : Section) : Bool :=
  x.tile? == some t.val || (x.id == 0x30 && bitOf ((s.flash s.flashUsed).le (s.boot.slotBase + x.offset) 1) t)

/-- The sections that the tile needs still match the digests verified at the last boot (R414). -/
def State.reloadOk (s : State) (t : Fin 8) : Bool :=
  (s.flash s.flashUsed).present
    && (s.boot.sections.filter (s.concerns t)).all ((s.flash s.flashUsed).bodyOk s.boot.slotBase)

/-- The tile leaves the list of those that are to reload, and the flash is free once none is left. -/
def State.reloadEnds (t : Fin 8) (s : State) : State :=
  let l := s.boot.tileLoad.filter (· ≠ t.val)
  let s := { s with boot := { s.boot with tileLoad := l } }
  if l.isEmpty then s.onFlash s.flashUsed fun f => { f with bootRead := false } else s

/-- Steps 6, 7, 9 and 10 for one tile (R40, R414, R442). -/
def State.reload (t : Fin 8) (s : State) : State :=
  let s := (s.loadTile t).spareTile t
  let s := (s.releaseTile t).onTile t fun x => { x with syncFrom := s.cycle }
  let s := if t.val % 4 = 0 then s.onAtrium (wingOf t) fun a => { a with held := false } else s
  let s := if s.masterOf (wingOf t) = t then s.onTile t (·.put TimeReg.TIME_VALID true) else s
  let on (x : Fin 8) : Bool := x = t
  ((s.reloadEnds t).replaySets on).refreshSets.refreshPorts

/-- TILE_RELOAD (R414): a failure leaves the tile in reset with TILE_LOAD_FAIL. -/
def execTileReload (wait : Nat) (t : Fin 8) (s : State) : Out :=
  s.after wait (fun s => s.boot.phase = .running && s.boot.tileLoad.contains t.val && !(s.tile t).heat.heavyOff
    && (s.tile t).heat.tripAt.isNone) fun s =>
    if s.reloadOk t then s.reload t else (s.reloadEnds t).pset (wingOf t) BootReg.TILE_LOAD_FAIL

/-! ### What ends an append (R432, R437, R483, R484, R496) -/

/-- RAIL_UNDERVOLTAGE (R483): a rail has been below 94 % for `low` CORE cycles without a break. -/
def execRailUndervoltage (wait low : Nat) (s : State) : Out :=
  s.afterIn 1 wait (fun _ => decide (cyclesOfUs 2 ≤ low)) fun s =>
    let s := s.interruptAppend.coldReset
    { s with pkg := { s.pkg with porHeld := true, warmHeld := false } }

/-- RST_N (R484): the pin has been low for `low` CORE cycles without a break. -/
def execRstN (wait low : Nat) (s : State) : Out :=
  s.afterIn 2 wait (fun s => s.pkg.rstN && decide (cyclesPerUs ≤ low)) fun s =>
    if s.pkg.porHeld || !s.pkg.sysclk then { s with pkg := { s.pkg with rstN := false } }
    else
      let s := s.interruptAppend.warmReset
      { s with pkg := { s.pkg with rstN := false, warmHeld := true } }

/-- SYSCLK_STOP (R496): the package is held in reset. -/
def execSysclkStop (wait : Nat) (s : State) : Out :=
  s.afterIn 1 wait (fun s => s.pkg.sysclk) fun s =>
    let s := s.interruptAppend.coldReset
    { s with pkg := { s.pkg with sysclk := false, warmHeld := false } }

/-- The stores begin to refuse writes while an append may be under way (R432, R437): its writes up to here were accepted. -/
def State.appendCut (s : State) : State :=
  if s.pkg.refusing then s
  else
    let p := s.pkg
    let r := { s with pkg := { p with failEdge := none } }.interruptAppend
    { r with pkg := { r.pkg with failEdge := p.failEdge } }

/-- SELVEDGE_WRITE_REFUSAL (R432): 10 µs after the edge that began the episode. -/
def execSelvedgeWriteRefusal (wait : Nat) (s : State) : Out :=
  s.after wait (fun s => match s.pkg.failEdge with | none => false | some e => decide (e + cyclesOfUs 10 ≤ s.cycle))
    fun s =>
      let s := s.appendCut
      { s with pkg := { s.pkg with refusing := true } }.refreshSets

end Sys2Proof.Machine
end

