-- ==== Sys2Proof/Machine/CoreCsr.lean ====
section
/-! DEFINITION. What a Gallery core keeps in itself (R392, R395 to R397): its integer registers, its control and status
registers, physical memory protection, traps and their return, and the delivery of interrupts. R392 names the privileged
architecture and does not repeat it: what that architecture says here is PRESUMED (log entry 87). -/

namespace Sys2Proof.Machine

/-! ### Integer registers -/

/-- An integer register; x0 reads 0 (R392). -/
def CoreSt.x (k : CoreSt) (r : Fin 32) : DWord := if r = 0 then 0 else k.xregs[r]

/-- An integer register takes a value; a write of x0 has no effect. -/
def CoreSt.setX (r : Fin 32) (v : DWord) (k : CoreSt) : CoreSt := if r = 0 then k else { k with xregs := k.xregs.set r v }

/-- The register that a load or an atomic instruction names takes the `n` bytes that it read, extended to 64 bits. -/
def CoreSt.takes (e : CoreAccess) (n v : Nat) (k : CoreSt) : CoreSt :=
  { k with loaded := v }.setX e.rd (if e.zext then BitVec.ofNat 64 v else BitVec.ofInt 64 (signedOf (8 * n) v))

/-! ### Traps -/

/-- `x` with the `w` bits from bit `lo` up replaced by those of `v`. -/
def setBits (x lo w v : Nat) : Nat := x - bitsOf x (lo + w - 1) lo * 2 ^ lo + v % 2 ^ w * 2 ^ lo

/-- Where a trap goes: the base of the vector, and for an interrupt of a vectored one the entry of its cause. -/
def vectorOf (tvec code : Nat) (irq : Bool) : Nat := tvec / 4 * 4 + (if irq && tvec % 4 == 1 then 4 * code else 0)

/-- The core takes a trap (R395, R397): to S mode where it runs below M mode and the cause is delegated, and otherwise to M
mode. The pc, the cause, the value, the interrupt enable and the mode are saved, and the pc goes to the vector. -/
def CoreSt.trapTo (irq : Bool) (code tval : Nat) (k : CoreSt) : CoreSt :=
  let c := k.csr
  let st := c.mstatus
  let cause := code + (if irq then 2 ^ 63 else 0)
  if k.mode < 3 ∧ bitOf (if irq then c.mideleg else c.medeleg) code then
    { k with
      mode := 1, pc := vectorOf c.stvec code irq, half := none
      csr := { c with
        scause := cause, sepc := k.pc, stval := tval
        mstatus := setBits (setBits (setBits st 5 1 (bitsOf st 1 1)) 1 1 0) 8 1 k.mode } }
  else
    { k with
      mode := 3, pc := vectorOf c.mtvec code irq, half := none, mcause := cause, mtval := tval
      csr := { c with
        mepc := k.pc
        mstatus := setBits (setBits (setBits st 7 1 (bitsOf st 3 3)) 3 1 0) 11 2 k.mode } }

/-- An exception that is no access fault (R393, R395). -/
def State.coreTrap (t : Fin 8) (c : Fin 2) (cause tval : Nat) (s : State) : State :=
  s.onCore t c (CoreSt.trapTo false cause tval)

/-- An access fault (R395): whichever mode takes it, the address goes to mtval and the detail to GDETAIL, whose bit 4 tells a
fetch. -/
def CoreSt.fault (cause detail addr : Nat) (k : CoreSt) : CoreSt :=
  { k.trapTo false cause addr with mtval := addr, gdetail := detail + (if cause = 1 then 16 else 0) }

/-- A core takes an access fault. -/
def State.coreFault (t : Fin 8) (c : Fin 2) (cause detail addr : Nat) (s : State) : State :=
  s.onCore t c (CoreSt.fault cause detail addr)

/-- MRET: the pc, the mode and the interrupt enable come back. -/
def CoreSt.mret (k : CoreSt) : CoreSt :=
  let st := k.csr.mstatus
  let m := bitsOf st 12 11
  let st := setBits (setBits (setBits st 3 1 (bitsOf st 7 7)) 7 1 1) 11 2 0
  { k with pc := k.csr.mepc, mode := m, csr := { k.csr with mstatus := if m = 3 then st else setBits st 17 1 0 } }

/-- SRET. -/
def CoreSt.sret (k : CoreSt) : CoreSt :=
  let st := k.csr.mstatus
  let st' := setBits (setBits (setBits (setBits st 1 1 (bitsOf st 5 5)) 5 1 1) 8 1 0) 17 1 0
  { k with pc := k.csr.sepc, mode := bitsOf st 8 8, csr := { k.csr with mstatus := st' } }

/-! ### Physical memory protection -/

/-- The address field of entry `i`. -/
def CoreCsr.entryAddr (c : CoreCsr) (i : Nat) : Nat := (c.pmpaddr[i]?).getD 0

/-- The configuration byte of entry `i`. -/
def CoreCsr.entryCfg (c : CoreCsr) (i : Nat) : Nat := (c.pmpcfg[i]?).getD 0

/-- Entry `i` matches byte `a`: A = 1 from the entry below up to its own address, A = 3 a naturally aligned power of two, in
both of 64 bytes at least (R392). -/
def CoreCsr.covers (c : CoreCsr) (a i : Nat) : Bool :=
  let cfg := c.entryCfg i
  let top (j : Nat) : Nat := c.entryAddr j / 16 * 64
  let v := c.entryAddr i ||| 7
  let size := 4 * ((v ^^^ (v + 1)) + 1)
  if bitsOf cfg 4 3 = 1 then decide ((if i = 0 then 0 else top (i - 1)) ≤ a ∧ a < top i)
  else if bitsOf cfg 4 3 = 3 then a / size == 4 * v / size
  else false

/-- Physical memory protection lets mode `m` make an access: `bit` is 0 to read, 1 to write, 2 to execute. The lowest entry
that matches a byte decides, and must match every byte; without one M mode alone passes (R392). -/
def CoreCsr.allows (c : CoreCsr) (m bit a n : Nat) : Bool :=
  match (List.range 16).find? fun i => (List.range n).any fun k => c.covers (a + k) i with
  | none => m == 3
  | some i => (List.range n).all (fun k => c.covers (a + k) i)
      && ((m == 3 && !bitOf (c.entryCfg i) 7) || bitOf (c.entryCfg i) bit)

/-- The mode in which a core loads and stores: MPP where MPRV is set. -/
def CoreSt.dataMode (k : CoreSt) : Nat :=
  if k.mode = 3 ∧ bitOf k.csr.mstatus 17 then bitsOf k.csr.mstatus 12 11 else k.mode

/-- A load passes physical memory protection. -/
def CoreSt.mayRead (k : CoreSt) (a n : Nat) : Bool := k.csr.allows k.dataMode 0 a n
/-- A store passes it. -/
def CoreSt.mayWrite (k : CoreSt) (a n : Nat) : Bool := k.csr.allows k.dataMode 1 a n
/-- A fetch passes it. -/
def CoreSt.mayFetch (k : CoreSt) (a n : Nat) : Bool := k.csr.allows k.mode 2 a n

/-- A configuration byte is written: not a locked one, nor with a reserved combination, nor with A = 2, which the granularity
of 64 bytes leaves out. -/
def CoreCsr.setCfg (i v : Nat) (c : CoreCsr) : CoreCsr :=
  if bitOf (c.entryCfg i) 7 ∨ (bitOf v 1 ∧ !bitOf v 0) ∨ bitsOf v 4 3 = 2 then c
  else { c with pmpcfg := c.pmpcfg.setIfInBounds i (v % 32 + bitsOf v 7 7 * 128) }

/-- An address field is written, unless its entry is locked, or the one above is with A = 1. -/
def CoreCsr.setAddr (i v : Nat) (c : CoreCsr) : CoreCsr :=
  let above := c.entryCfg (i + 1)
  if bitOf (c.entryCfg i) 7 ∨ (bitOf above 7 ∧ bitsOf above 4 3 = 1) then c
  else { c with pmpaddr := c.pmpaddr.setIfInBounds i (v % 2 ^ 54) }

/-- An address field as it reads under the granularity of 64 bytes. -/
def CoreCsr.shownAddr (c : CoreCsr) (i : Nat) : Nat :=
  if 2 ≤ bitsOf (c.entryCfg i) 4 3 then c.entryAddr i ||| 7 else c.entryAddr i / 16 * 16

/-! ### Interrupts -/

/-- A core's machine timer interrupt is due (R396). -/
def State.timerDue (s : State) (t : Fin 8) (c : Fin 2) : Bool :=
  decide ((s.tile t).r (GalReg.MTIMECMP_LO c) + (s.tile t).r (GalReg.MTIMECMP_HI c) * 2 ^ 32 ≤ s.ns t)

/-- mip of a core (R396, R397): what software has set, the software interrupt of MSIP, the timer interrupt, and source n of
the tile at bit 16 + n while it is asserted and enabled for the core. -/
def State.mip (s : State) (t : Fin 8) (c : Fin 2) : Nat :=
  let x := s.tile t
  ((x.core c).csr.sip ||| (8 * x.r (GalReg.MSIP c))) ||| ((128 * flagNat (s.timerDue t c))
    ||| ((s.irqPend t &&& x.r (GalReg.IRQ_EN c)) * 2 ^ 16))

/-- Interrupt causes in the order in which a core takes them: those of the privileged architecture in its order, then the
local ones from the lowest up (DESIGN CHOICE, log entry 140). -/
def irqOrder : List Nat := [11, 3, 7, 9, 1, 5] ++ (List.range 32).map (16 + ·)

/-- The interrupt that a core takes now: pending, enabled in mie, and allowed by its mode and its status (R397). -/
def State.interruptFor (s : State) (t : Fin 8) (c : Fin 2) : Option Nat :=
  let k := (s.tile t).core c
  let p := s.mip t c &&& k.csr.mie
  let m := decide (k.mode < 3) || bitOf k.csr.mstatus 3
  let d := k.mode == 0 || (k.mode == 1 && bitOf k.csr.mstatus 1)
  match irqOrder.find? fun n => m && bitOf p n && !bitOf k.csr.mideleg n with
  | some n => some n
  | none => irqOrder.find? fun n => d && bitOf p n && bitOf k.csr.mideleg n

/-- TIMER_INTERRUPT (R396, R397): time has reached MTIMECMP, so that the timer interrupt stands in mip; the core takes it where
no other goes before it and it is enabled. -/
def execTimerInterrupt (wait : Nat) (t : Fin 8) (c : Fin 2) (s : State) : Out :=
  s.after wait (fun s => s.coreRuns t c && s.timerDue t c) fun s =>
    if s.interruptFor t c = some 7 then s.onCore t c (CoreSt.trapTo true 7 0) else s

/-! ### CSR accesses -/

/-- The bits of mstatus that are kept: SIE, MIE, SPIE, MPIE, SPP, MPP, MPRV, SUM, MXR, TVM, TW, TSR. -/
def mstatusMask : Nat := 0x7E19AA
/-- Those that sstatus shows. -/
def sstatusMask : Nat := 0xC0122
/-- Interrupts that can be enabled: the six of the privileged architecture, and the 32 local ones (R397). -/
def mieMask : Nat := 0xFFFFFFFF0AAA
/-- Interrupts that can be delegated: those of S mode, and the local ones. -/
def midelegMask : Nat := 0xFFFFFFFF0222
/-- Exceptions that can be delegated. -/
def medelegMask : Nat := 0xB3FF

/-- Eight configuration bytes as one number. -/
def CoreCsr.cfgWord (c : CoreCsr) (first : Nat) : Nat :=
  (List.range 8).foldl (fun v k => v + c.entryCfg (first + k) * 2 ^ (8 * k)) 0

/-- The value of a CSR (R392, R395, R396); none where the core has none of that number. -/
def State.csrRead (s : State) (t : Fin 8) (c : Fin 2) (n : Nat) : Option Nat :=
  let k := (s.tile t).core c
  let r := k.csr
  let hart := 2 * t.val + c.val
  if 0x3B0 ≤ n ∧ n < 0x3C0 then some (r.shownAddr (n - 0x3B0))
  else
    match n with
    | 0x100 => some ((r.mstatus &&& sstatusMask) + 2 ^ 33)
    | 0x104 => some (r.mie &&& r.mideleg)
    | 0x105 => some r.stvec
    | 0x106 => some r.scounteren
    | 0x140 => some r.sscratch
    | 0x141 => some r.sepc
    | 0x142 => some r.scause
    | 0x143 => some r.stval
    | 0x144 => some (s.mip t c &&& r.mideleg)
    | 0x180 => some r.satp
    | 0x300 => some (r.mstatus + 2 ^ 33 + 2 ^ 35)
    | 0x301 => some (0x141105 + 2 ^ 63)
    | 0x302 => some r.medeleg
    | 0x303 => some r.mideleg
    | 0x304 => some r.mie
    | 0x305 => some r.mtvec
    | 0x306 => some r.mcounteren
    | 0x340 => some r.mscratch
    | 0x341 => some r.mepc
    | 0x342 => some k.mcause
    | 0x343 => some k.mtval
    | 0x344 => some (s.mip t c)
    | 0x3A0 => some (r.cfgWord 0)
    | 0x3A2 => some (r.cfgWord 8)
    | 0xC01 => some (s.ns t)
    | 0xF14 => some hart
    | 0xFC0 => some k.gdetail
    | 0xB00 | 0xB02 | 0xC00 | 0xC02 | 0xF11 | 0xF12 | 0xF13 => some (Config.coreCsr hart n s.freeCount).toNat
    | _ => none

/-- A CSR is written (R392): the bits that it keeps; satp accepts MODE = Bare alone. -/
def CoreSt.csrWrite (n v : Nat) (k : CoreSt) : CoreSt :=
  let r := k.csr
  let part (old mask : Nat) : Nat := (old ^^^ (old &&& mask)) ||| (v &&& mask)
  let put (r : CoreCsr) : CoreSt := { k with csr := r }
  let status (mask : Nat) : Nat :=
    let w := part r.mstatus mask
    if bitsOf w 12 11 = 2 then setBits w 11 2 (bitsOf r.mstatus 12 11) else w
  let vec (old : Nat) : Nat := if v % 4 < 2 then v else old
  if 0x3B0 ≤ n ∧ n < 0x3C0 then put (r.setAddr (n - 0x3B0) v)
  else
    match n with
    | 0x100 => put { r with mstatus := status sstatusMask }
    | 0x104 => put { r with mie := part r.mie r.mideleg &&& mieMask }
    | 0x105 => put { r with stvec := vec r.stvec }
    | 0x106 => put { r with scounteren := v % 8 }
    | 0x140 => put { r with sscratch := v }
    | 0x141 => put { r with sepc := v / 2 * 2 }
    | 0x142 => put { r with scause := v }
    | 0x143 => put { r with stval := v }
    | 0x144 => put { r with sip := part r.sip (2 &&& r.mideleg) }
    | 0x180 => put { r with satp := if bitsOf v 63 60 = 0 then 0 else r.satp }
    | 0x300 => put { r with mstatus := status mstatusMask }
    | 0x302 => put { r with medeleg := v &&& medelegMask }
    | 0x303 => put { r with mideleg := v &&& midelegMask }
    | 0x304 => put { r with mie := v &&& mieMask }
    | 0x305 => put { r with mtvec := vec r.mtvec }
    | 0x306 => put { r with mcounteren := v % 8 }
    | 0x340 => put { r with mscratch := v }
    | 0x341 => put { r with mepc := v / 2 * 2 }
    | 0x342 => { k with mcause := v }
    | 0x343 => { k with mtval := v }
    | 0x344 => put { r with sip := part r.sip 0x222 }
    | 0x3A0 => put ((List.range 8).foldl (fun r i => r.setCfg i (v / 2 ^ (8 * i) % 256)) r)
    | 0x3A2 => put ((List.range 8).foldl (fun r i => r.setCfg (8 + i) (v / 2 ^ (8 * i) % 256)) r)
    | _ => k

/-- A CSR access is an illegal instruction: no such CSR, too low a mode, a write of a read-only one, a counter that is not
enabled, or satp under TVM. -/
def State.csrIllegal (s : State) (t : Fin 8) (c : Fin 2) (n : Nat) (write : Bool) : Bool :=
  let k := (s.tile t).core c
  let counter := decide (0xC00 ≤ n ∧ n < 0xC03)
  (s.csrRead t c n).isNone || decide (k.mode < bitsOf n 9 8) || (bitsOf n 11 10 == 3 && write)
    || (counter && decide (k.mode < 3) && !bitOf k.csr.mcounteren (n - 0xC00))
    || (counter && k.mode == 0 && !bitOf k.csr.scounteren (n - 0xC00))
    || (n == 0x180 && k.mode == 1 && bitOf k.csr.mstatus 20)

/-- What the instruction that the core fetched last did in the core alone (R392): whether the core goes on to the next one,
and the state. -/
def State.coreRan (t : Fin 8) (c : Fin 2) (op : CoreOp) (s : State) : Bool × State :=
  let k := (s.tile t).core c
  let illegal : Bool × State := (false, s.coreTrap t c 2 0)
  match op with
  | .none => (true, s)
  | .reg rd v => (true, s.onCore t c (·.setX rd v))
  | .csr rd n w =>
    if s.csrIllegal t c n.val w.isSome then illegal
    else
      let v := BitVec.ofNat 64 ((s.csrRead t c n.val).getD 0)
      let s := s.onCore t c fun k => (match w with | none => k | some w => k.csrWrite n.val w.toNat).setX rd v
      (true, s.takeFree)
  | .mret => if k.mode = 3 then (true, s.onCore t c CoreSt.mret) else illegal
  | .sret => if k.mode = 3 ∨ (k.mode = 1 ∧ !bitOf k.csr.mstatus 22) then (true, s.onCore t c CoreSt.sret) else illegal
  | .ecall => (false, s.coreTrap t c (8 + k.mode) 0)
  | .ebreak => (false, s.coreTrap t c 3 k.pc)
  | .illegal => illegal

end Sys2Proof.Machine
end

