-- ==== Sys2Proof/Machine/CoreRows.lean ====
section
/-! DEFINITION. The memory accesses of the Gallery cores (R393 to R395, R399, R402, R403): fetches, loads, stores, atomic
instructions and fences, the write buffer's drain, and the fills of the caches. What the other instructions of a core
compute is no matter of the spec. -/

namespace Sys2Proof.Machine

/-- Standard exception codes (R395): 1 and 5 for the access fault of a fetch and of a load. -/
def faultCause (k : Fin 2) : Nat := if k = 0 then 1 else 5

/-- The value of a fetch or a load reaches the core. The second half of a fetch joins the first. -/
def State.coreTakes (t : Fin 8) (c k : Fin 2) (e : CoreAccess) (v : Nat) (s : State) : State :=
  s.onCore t c fun x =>
    if k ≠ 0 then x.takes e e.size v
    else if x.half = some e.addr then { x with fetched := x.fetched % 2 ^ 16 + v * 2 ^ 16, half := none }
    else { x with fetched := v }

/-! ### The write buffer -/

/-- Every other core's reservation of a granule is lost (R393). -/
def State.breakReservations (t : Fin 8) (c : Fin 2) (key : Nat) (s : State) : State :=
  s.eachTile fun u s => ([0, 1] : List (Fin 2)).foldl (fun (s : State) (d : Fin 2) =>
    if (u = t ∧ d = c) ∨ ((s.tile u).core d).reserved ≠ some key then s
    else s.onCore u d fun x => { x with reserved := none }) s

/-- The granule of a place: 8 bytes of a stack window or of a core's RAM. -/
def granule (t : Fin 8) (r : Region) : Nat :=
  match r with
  | .tcm c off => (2 * t.val + c.val) * 65536 + off / 8
  | .stack x off => (0x4000000000 + x.val * 0x800000000 + off) / 8
  | _ => 0

/-- A posted store fails (R394): BUS_ERR, and the address and core of the first failure are captured. -/
def State.busError (t : Fin 8) (c : Fin 2) (addr : Nat) (s : State) : State :=
  s.onTile t fun x =>
    if x.b GalReg.BUS_ERR then x
    else (((x.flag GalReg.BUS_ERR).w GalReg.BUS_ERR_LO addr).w GalReg.BUS_ERR_HI (addr / 2 ^ 32)).w GalReg.BUS_ERR_CORE c

/-- A store leaves the buffer for memory or for a register (R394, R399). -/
def State.storeOut (t : Fin 8) (c : Fin 2) (b : BufStore) (s : State) : State :=
  match s.region c b.addr with
  | .regs a =>
    if s.accessOf (.core t c) (placeOf a) = .noRoute then (s.sendPacket t ((placeOf a).tile?.getD (atriumTile (wingOf t))) vcCommand 1).busError t c b.addr
    else
      let away := s.turnedAway (.core t c) (placeOf a) b.value
      let s := (s.turnTo 3).regWrite (.core t c) a b.value
      if away then s.busError t c b.addr else s
  | .stack x off =>
    if s.stackReached t x then
      ((s.sendPacket t x vcData 1).stackWrite x off (bytesOf b.size b.value)).breakReservations t c (granule t (.stack x off))
    else (s.sendPacket t x vcData 1).busError t c b.addr
  | _ => s.busError t c b.addr

/-- The oldest buffered store drains (R399); an operation that waits for an empty buffer may then run (R406). -/
def State.drainOne (t : Fin 8) (c : Fin 2) (s : State) : State :=
  match ((s.tile t).core c).buffer with
  | [] => s
  | b :: l =>
    let s := s.onCore t c fun x => { x with buffer := l }
    ((s.storeOut t c b).cacheOps t c 0).cacheOps t c 1

/-- The oldest `n` buffered stores drain. -/
def State.drainN (t : Fin 8) (c : Fin 2) : Nat → State → State
  | 0, s => s
  | n + 1, s => (s.drainOne t c).drainN t c n

/-- Buffered stores up to the last that overlaps `n` bytes at `a`. -/
def overlapDepth (l : List BufStore) (a n : Nat) : Nat :=
  l.zipIdx.foldl (fun m e => if overlaps a n e.1.addr e.1.size then e.2 + 1 else m) 0

/-- An access waits until every buffered store that it overlaps has drained (R399). -/
def State.drainFor (t : Fin 8) (c : Fin 2) (a n : Nat) (s : State) : State :=
  s.drainN t c (overlapDepth ((s.tile t).core c).buffer a n)

/-- A store enters the buffer; a full one drains its oldest entry first (R399). -/
def State.bufferStore (t : Fin 8) (c : Fin 2) (b : BufStore) (s : State) : State :=
  let s := if 8 ≤ ((s.tile t).core c).buffer.length then s.drainOne t c else s
  s.onCore t c fun x => { x with buffer := x.buffer ++ [b] }

/-! ### Reads -/

/-- A read of a core's RAM (R380): the value, or the fault of an uncorrectable byte. -/
def State.readTcm (t : Fin 8) (d k : Fin 2) (off n : Nat) (s : State) : Option Nat × State :=
  let m := ((s.tile t).core d).tcm
  let at_ (w : Nat) : Nat := sramAddr d.val w
  let s := s.noteSram t m off n at_ (if k = 0 then .fetch else .load)
  match m.badAt off n with
  | some _ => (none, s)
  | none => (some (m.readLE off n), s)

/-- A line can be served while a miss is outstanding: it stands good in a way or in the side buffer (R401, R402). -/
def CacheSt.holds (x : CacheSt) (line : Nat) : Bool :=
  match x.find line with
  | some e => e.2.2.crcOk
  | none => x.side.any fun l => l.tag == line && l.crcOk

/-- A read of a stack through a cache (R398 to R402): a hit is served; a miss starts a fill, or waits for the one
outstanding. The second half of a fetch stays behind the first. -/
def State.readCached (t : Fin 8) (c k : Fin 2) (e : CoreAccess) (s : State) : State :=
  let x := s.cache t c k
  let line := e.addr / 64
  let behind := k == 0 && ((s.tile t).core c).half == some e.addr && !x.waiting.isEmpty
  let wait (s : State) : State := s.onCache t c k fun x => { x with waiting := x.waiting ++ [e] }
  if (x.fill.isSome && (x.fill == some line || !x.holds line)) || behind then wait s
  else
    match s.lookup t c k e.addr e.size with
    | (.hit v, s) => s.coreTakes t c k e v
    | (.miss way, s) => wait (s.onCache t c k fun x => { x with fill := some line, fillWay := way, fillInv := false })

/-- A read of a stack: through the cache, or with the cache off straight from memory (R406). Whether it took no fault. -/
def State.readStack (t : Fin 8) (c k : Fin 2) (e : CoreAccess) (x : Fin 8) (off : Nat) (s : State) : Bool × State :=
  if (s.tile t).cacheOn c k then (true, s.readCached t c k e)
  else
    match s.coreRead t x off e.size (if k = 0 then .fetch else .load) with
    | (.inl l, s) => (true, s.coreTakes t c k e (infoField l 0 e.size))
    | (.inr d, s) => (false, s.coreFault t c (faultCause k) d e.addr)

/-- A read that physical memory protection lets through (R394): `k` is 0 for a fetch. Whether it took no fault. -/
def State.readRegion (t : Fin 8) (c k : Fin 2) (e : CoreAccess) (s : State) : Bool × State :=
  let fault (d : Nat) (s : State) : Bool × State := (false, s.coreFault t c (faultCause k) d e.addr)
  match s.region c e.addr with
  | .tcm d off =>
    match s.readTcm t d k off e.size with
    | (some v, s) => (true, s.coreTakes t c k e v)
    | (none, s) => fault 1 s
  | .regs r =>
    if e.size ≠ 4 ∨ e.addr % 4 ≠ 0 then fault 5 s
    else
      let q : Req := .core t c
      let lost := s.accessOf q (placeOf r) = .noRoute
      let v := s.regRead q r
      if lost then fault 3 v.2 else (true, v.2.coreTakes t c k e v.1)
  | .stack x off => s.readStack t c k e x off
  | .hole => fault 6 s

/-- A fetch (R394, R402); one that crosses a line reads its two halves in order. -/
def State.fetchFrom (t : Fin 8) (c : Fin 2) (e : CoreAccess) (s : State) : State :=
  if e.addr % 64 + e.size ≤ 64 then ((s.onCore t c fun k => { k with half := none }).readRegion t c 0 e).2
  else
    let (ok, s) := (s.onCore t c fun k => { k with half := some (e.addr + 2) }).readRegion t c 0 { e with size := 2 }
    if ok then (s.readRegion t c 0 { e with addr := e.addr + 2, size := 2 }).2 else s

/-- INSTRUCTION_FETCH (R392, R394, R395, R397): the instruction fetched last has done what it does in the core; an interrupt
that is due is taken before the next one, and otherwise that is fetched. With compressed instructions its address need only
be even. -/
def execInstructionFetch (wait : Nat) (t : Fin 8) (c : Fin 2) (f : Fetch) (s : State) : Out :=
  let a := f.access
  s.after wait (fun s => s.coreRuns t c) fun s =>
    match s.coreRan t c f.ran with
    | (false, s) => s
    | (true, s) =>
      let s := s.onCore t c fun k => { k with pc := a.addr }
      match s.interruptFor t c with
      | some n => s.onCore t c (CoreSt.trapTo true n 0)
      | none =>
        if a.addr % 2 ≠ 0 then s.coreTrap t c 0 a.addr
        else if !((s.tile t).core c).mayFetch a.addr a.size then s.coreFault t c 1 0 a.addr
        else s.fetchFrom t c a

/-- CORE_LOAD (R393 to R395, R399). -/
def execCoreLoad (wait : Nat) (t : Fin 8) (c : Fin 2) (a : CoreAccess) (s : State) : Out :=
  s.after wait (fun s => s.coreRuns t c) fun s =>
    if a.addr % max 1 a.size ≠ 0 then s.coreTrap t c 4 a.addr
    else if !((s.tile t).core c).mayRead a.addr a.size then s.coreFault t c 5 0 a.addr
    else ((s.drainFor t c a.addr a.size).readRegion t c 1 a).2

/-! ### Fills -/

/-- A line fetched from memory is installed, unless an invalidation met the miss or the line stands in a way again (R398, R400,
R407); a locked way takes back its own line (R374). -/
def CacheSt.takeFill (x : CacheSt) (locked line : Nat) (data : List Byte) : CacheSt :=
  let l : CLine := .filled line data
  let y :=
    if x.fillInv || (x.find line).isSome then x
    else match x.fillWay with
      | some w => let p := x.place w l; p.1.evict p.2
      | none => x.install locked l
  let y : CacheSt := { y with fill := none, fillWay := none, fillInv := false, waiting := [] }
  if y.lacks (line + 1) && !y.prefetch.contains (line + 1) then { y with prefetch := y.prefetch ++ [line + 1] } else y

/-- Accesses that waited are taken up again, oldest first, until one takes a fault (R402). Whether none did. -/
def State.resumeWaiting (t : Fin 8) (c k : Fin 2) (l : List CoreAccess) (s : State) : Bool × State :=
  l.foldl (fun (r : Bool × State) e => if r.1 then r.2.readRegion t c k e else r) (true, s)

/-- The outstanding miss ends (R402): its line, with the stores that the core still buffers over it, is installed and the
accesses that wait go on; where it cannot be fetched the access takes its fault, and the younger accesses that wait behind it
are dropped with it. Whether no fault was taken. -/
def State.fillOnce (t : Fin 8) (c k : Fin 2) (s : State) : Bool × State :=
  let x := s.cache t c k
  match x.fill, x.waiting with
  | some line, e :: l =>
    match s.fetchLine t c line (if k = 0 then .fetch else .load) with
    | (.inr d, s) =>
      (false, (s.onCache t c k fun x => { x with fill := none, fillWay := none, fillInv := false, waiting := [] }).coreFault t c
        (faultCause k) d e.addr)
    | (.inl data, s) =>
      let data := ((s.tile t).core c).overlay k line data
      let locked := (s.tile t).r (CacheReg.LOCK_WAYS (cacheNo c k))
      let s := s.onCache t c k (·.takeFill locked line data)
      (s.coreTakes t c k e (infoField data (e.addr % 64) e.size)).resumeWaiting t c k l
  | _, _ => (true, s.onCache t c k fun x => { x with fill := none, waiting := [] })

/-- CACHE_FILL (R402). -/
def execCacheFill (wait : Nat) (t : Fin 8) (c k : Fin 2) (s : State) : Out :=
  s.after wait (fun s => s.coreRuns t c && (s.cache t c k).fill.isSome) fun s => (s.fillOnce t c k).2

/-- A store waits until the line that it meets is filled (R402): whether it goes on, as it does unless an older access takes a
fault. -/
def State.afterFill (t : Fin 8) (c : Fin 2) (line : Nat) : Nat → State → Bool × State
  | 0, s => (true, s)
  | n + 1, s =>
    if (s.tile t).cacheOn c 1 && (s.cache t c 1).fill == some line then
      match s.fillOnce t c 1 with
      | (false, s) => (false, s)
      | (true, s) => State.afterFill t c line n s
    else (true, s)

/-- Accesses that wait in a core's data cache, and one more. -/
def State.waiters (s : State) (t : Fin 8) (c : Fin 2) : Nat := (s.cache t c 1).waiting.length + 1

/-! ### Stores -/

/-- A write of a core's RAM. -/
def State.writeTcm (t : Fin 8) (c d : Fin 2) (off n v : Nat) (s : State) : State :=
  (s.onCore t d fun x => { x with tcm := x.tcm.writeLE off n v }).breakReservations t c (granule t (.tcm d off))

/-- CORE_STORE (R393 to R395, R399, R402). -/
def execCoreStore (wait : Nat) (t : Fin 8) (c : Fin 2) (a : CoreAccess) (s : State) : Out :=
  s.after wait (fun s => s.coreRuns t c) fun s =>
    let b : BufStore := { addr := a.addr, size := a.size, value := a.value }
    if a.addr % max 1 a.size ≠ 0 then s.coreTrap t c 6 a.addr
    else if !((s.tile t).core c).mayWrite a.addr a.size then s.coreFault t c 7 0 a.addr
    else
      match s.region c a.addr with
      | .tcm d off => s.writeTcm t c d off a.size a.value
      | .regs _ => if a.size ≠ 4 then s.coreFault t c 7 5 a.addr else s.bufferStore t c b
      | .stack _ _ =>
        match s.afterFill t c (a.addr / 64) (s.waiters t c) with
        | (false, s) => s
        | (true, s) => (s.bufferStore t c b).storeHit t c a.addr a.size a.value
      | .hole => s.coreFault t c 7 6 a.addr

/-- STORE_DRAIN (R399). -/
def execStoreDrain (wait : Nat) (t : Fin 8) (c : Fin 2) (s : State) : Out :=
  s.afterIn 3 wait (fun s => s.coreRuns t c && !((s.tile t).core c).buffer.isEmpty) (State.drainOne t c)

/-- The whole buffer drains. -/
def State.drainAll (t : Fin 8) (c : Fin 2) (s : State) : State := s.drainN t c ((s.tile t).core c).buffer.length

/-- FENCE (R399). -/
def execFence (wait : Nat) (t : Fin 8) (c : Fin 2) (s : State) : Out :=
  s.after wait (fun s => s.coreRuns t c) (State.drainAll t c)

/-- FENCE_I (R403). -/
def execFenceI (wait : Nat) (t : Fin 8) (c : Fin 2) (s : State) : Out :=
  s.after wait (fun s => s.coreRuns t c) fun s =>
    let s := s.drainAll t c
    let locked := (s.tile t).r (CacheReg.LOCK_WAYS (cacheNo c 0))
    s.onCache t c 0 (·.fenceI locked)

/-! ### Atomic instructions -/

/-- The value that an AMO of `n` bytes writes, from the old value and its operand. -/
def amoValue (op : AmoOp) (n old v : Nat) : Nat :=
  let w := 8 * n
  let lt (x y : Nat) : Bool := decide (signedOf w (x % 2 ^ w) < signedOf w (y % 2 ^ w))
  match op with
  | .lr | .sc | .swap => v
  | .add => (old + v) % 2 ^ w
  | .xor => old ^^^ v
  | .and => old &&& v
  | .or => old ||| v
  | .min => if lt old v then old else v
  | .max => if lt old v then v else old
  | .minu => min old (v % 2 ^ w)
  | .maxu => max old (v % 2 ^ w)

/-- The write of an atomic instruction. -/
def State.amoWrite (t : Fin 8) (c : Fin 2) (r : Region) (a n v : Nat) (s : State) : State :=
  match r with
  | .tcm d off => s.writeTcm t c d off n v
  | .stack x off =>
    (((s.sendPacket t x vcData 1).stackWrite x off (bytesOf n v)).breakReservations t c (granule t r)).storeHit t c a n v
  | _ => s

/-- An atomic instruction after its read gave `old` (R393). -/
def State.amoDone (t : Fin 8) (c : Fin 2) (op : AmoOp) (r : Region) (e : CoreAccess) (n old : Nat) (s : State) : State :=
  let key := granule t r
  match op with
  | .lr => s.onCore t c fun x => { x.takes e n old with reserved := some key }
  | .sc =>
    let held := ((s.tile t).core c).reserved = some key
    let s := s.onCore t c fun x => { x with reserved := none }.takes e n (if held then 0 else 1)
    if held then s.amoWrite t c r e.addr n e.value else s
  | _ => (s.amoWrite t c r e.addr n (amoValue op n old e.value)).onCore t c (CoreSt.takes e n old)

/-- Physical memory protection lets an atomic instruction through: LR reads, SC writes, and the others do both. -/
def CoreSt.mayAmo (k : CoreSt) (op : AmoOp) (a n : Nat) : Bool :=
  (op == .sc || k.mayRead a n) && (op == .lr || k.mayWrite a n)

/-- AMO (R393, R395): LR, SC and the atomic operations, on words of 4 or 8 bytes in the RAM of the tile's cores and in the
stack windows. The faults of LR have the codes of a load, but for an instruction outside those regions. -/
def execAmo (wait : Nat) (t : Fin 8) (c : Fin 2) (op : AmoOp) (a : CoreAccess) (s : State) : Out :=
  s.after wait (fun s => s.coreRuns t c) fun s =>
    let n := if a.size = 8 then 8 else 4
    let cause := if op = .lr then 5 else 7
    if a.addr % n ≠ 0 then s.coreTrap t c (cause - 1) a.addr
    else if !((s.tile t).core c).mayAmo op a.addr n then s.coreFault t c cause 0 a.addr
    else
      let r := s.region c a.addr
      match r with
      | .tcm d off =>
        match s.readTcm t d 1 off n with
        | (some old, s) => s.amoDone t c op r a n old
        | (none, s) => s.coreFault t c cause 1 a.addr
      | .stack x off =>
        match s.afterFill t c (a.addr / 64) (s.waiters t c) with
        | (false, s) => s
        | (true, s) =>
          match (s.drainFor t c a.addr n).coreRead t x off n .load with
          | (.inl l, s) => s.amoDone t c op r a n (infoField l 0 n)
          | (.inr d, s) => s.coreFault t c cause d a.addr
      | .regs _ => s.coreFault t c 7 4 a.addr
      | .hole => s.coreFault t c cause 6 a.addr

end Sys2Proof.Machine
end

