-- ==== Sys2Proof/Machine/RegRows.lean ====
section
/-! DEFINITION. The commands that are register accesses: each writes or reads one word, with the field that gives the
command its name at the command's own value. -/

namespace Sys2Proof.Machine

/-- A word with one field at a given value. -/
def forced (f : Fld) (k : Nat) (v : Word) : Nat := v.toNat - f.bits v.toNat * 2 ^ f.lsb + k % 2 ^ f.width * 2 ^ f.lsb

/-- A reserved code of a field: the word's own where that is one of `lo` to `hi`, and otherwise `hi`. -/
def reservedCode (f : Fld) (lo hi : Nat) (v : Word) : Nat :=
  let k := f.bits v.toNat
  if lo ≤ k ∧ k ≤ hi then k else hi

/-- A write of a word of a head. -/
def headWord (req : Req) (h : Fin 32) (off : Nat) (v : Word) (s : State) : Out :=
  .next ((s.turnTo 3).writeAt req (.head h off) (headBase h + off) v.toNat)

/-- A write of a word of a head with a field at a value. -/
def headRow (req : Req) (h : Fin 32) (f : Fld) (k : Nat) (v : Word) (s : State) : Out :=
  .next ((s.turnTo 3).writeAt req (.head h f.off) (headBase h + f.off) (forced f k v))

/-- A write of a word of a tile. -/
def tileWord (req : Req) (t : Fin 8) (off : Nat) (v : Word) (s : State) : Out :=
  .next ((s.turnTo 3).writeAt req (.tile t off) (tileBase t + off) v.toNat)

/-- A write of a word of a tile with a field at a value. -/
def tileRow (req : Req) (t : Fin 8) (f : Fld) (k : Nat) (v : Word) (s : State) : Out :=
  .next ((s.turnTo 3).writeAt req (.tile t f.off) (tileBase t + f.off) (forced f k v))

/-- A write of a word of the package block. -/
def pkgWord (req : Req) (off : Nat) (v : Word) (s : State) : Out := .next ((s.turnTo 3).writeAt req (.pkg off) off v.toNat)

/-- A write of a word of the package block with a field at a value. -/
def pkgRow (req : Req) (f : Fld) (k : Nat) (v : Word) (s : State) : Out :=
  .next ((s.turnTo 3).writeAt req (.pkg f.off) f.off (forced f k v))

/-- OP of the key update at the place that a written KEY_ADDR and KEY_STACK name (R423). -/
def State.updateOp (s : State) (v : Nat) : Nat :=
  s.stackLE (bufferTile (if bitOf v 29 then 1 else 0)) (64 * (v % 2 ^ 29) + 4) 1

/-- KEY_GO is written, and the update has this OP. -/
def keyRow (req : Req) (op : Nat) (v : Word) (s : State) : Out :=
  if s.updateOp v.toNat = op then pkgRow req BootReg.KEY_GO 1 v s else .next s

/-- A value read goes to the requester: to the core as the value of its load, over SMBus into the response. -/
def State.handOver (q : Req) (v : Nat) (s : State) : State :=
  match q with
  | .core t c => s.onCore t c fun x => { x with loaded := v }
  | .smbus => { s with smb := { s.smb with response := [0, 1] ++ bytesOf 4 v } }

/-- HEAD_RESET is written with 1 (R94). -/
def execHeadReset (req : Req) (h : Fin 32) (v : Word) (s : State) : Out := headRow req h RiserReg.HEAD_RESET 1 v s

/-- PORT_RESET is written with 1 (R364). -/
def execPortReset (req : Req) (p : Fin 16) (v : Word) (s : State) : Out := tileRow req (portTile p) (PortReg.PORT_RESET (p.val % 2)) 1 v s

/-- RESET_CMD is written with WARM_RST set (R501). -/
def execWarmRst (req : Req) (v : Word) (s : State) : Out := pkgRow req IdReg.WARM_RST 1 v s

/-- RESET_CMD is written without WARM_RST (R501). -/
def execTileRst (req : Req) (v : Word) (s : State) : Out := pkgRow req IdReg.WARM_RST 0 v s

/-- ALIGN is written with 1 (R46). -/
def execAlign (req : Req) (h : Fin 32) (v : Word) (s : State) : Out := headRow req h AngleReg.ALIGN 1 v s

/-- DISC_OFFSET is written (R49). -/
def execDiscOffsetWrite (req : Req) (h : Fin 32) (v : Word) (s : State) : Out := headWord req h AngleReg.DISC_OFFSET.off v s

/-- VRATE is written (R50). -/
def execVrateWrite (req : Req) (h : Fin 32) (v : Word) (s : State) : Out := headWord req h AngleReg.VRATE.off v s

/-- ASRC is written (R50). -/
def execAsrcWrite (req : Req) (h : Fin 32) (v : Word) (s : State) : Out := headWord req h AngleReg.ASRC.off v s

/-- START is written with 1 (R52). -/
def execStart (req : Req) (h : Fin 32) (v : Word) (s : State) : Out := headRow req h AngleReg.START 1 v s

/-- STOP is written with 1 (R52). -/
def execStop (req : Req) (h : Fin 32) (v : Word) (s : State) : Out := headRow req h AngleReg.STOP 1 v s

/-- SLOT0_SCHED is written (R56). -/
def execSlot0SchedWrite (req : Req) (h : Fin 32) (v : Word) (s : State) : Out := headWord req h AngleReg.SLOT0_SCHED.off v s

/-- SPARE_ARM is written with 1 (R62). -/
def execSpareArm (req : Req) (h : Fin 32) (v : Word) (s : State) : Out := headRow req h AngleReg.SPARE_ARM 1 v s

/-- TRAIN is written with 1 (R79). -/
def execTrain (req : Req) (h : Fin 32) (v : Word) (s : State) : Out := headRow req h RiserReg.TRAIN 1 v s

/-- FW_GO is written with 1 (R94). -/
def execFwGo (req : Req) (h : Fin 32) (v : Word) (s : State) : Out := headRow req h RiserReg.FW_GO 1 v s

/-- SAFE_CMD is written (R91). -/
def execSafeCmd (req : Req) (h : Fin 32) (v : Word) (s : State) : Out := headWord req h RiserReg.SAFE_CMD.off v s

/-- SAFE_RELEASE is written with 1 (R93). -/
def execSafeRelease (req : Req) (h : Fin 32) (v : Word) (s : State) : Out := headRow req h RiserReg.SAFE_RELEASE 1 v s

/-- CLR_STATS of a beam channel is written with 1 (R160). -/
def execClrStats (req : Req) (h : Fin 32) (i : Fin 33) (v : Word) (s : State) : Out := headRow req h (BeamReg.CLR_STATS i.val) 1 v s

/-- GO is written with 1 (R153). -/
def execRetryGo (req : Req) (h : Fin 32) (v : Word) (s : State) : Out := headRow req h WeftReg.GO 1 v s

/-- RELEASE is written with 1 (R153). -/
def execRelease (req : Req) (h : Fin 32) (v : Word) (s : State) : Out := headRow req h WeftReg.RELEASE 1 v s

/-- ABORT is written with 1 (R188). -/
def execAbort (req : Req) (h : Fin 32) (v : Word) (s : State) : Out := headRow req h WriteReg.ABORT 1 v s

/-- STRAT_GO is written with 1 (R174). -/
def execStratGo (req : Req) (h : Fin 32) (v : Word) (s : State) : Out := headRow req h WriteReg.STRAT_GO 1 v s

/-- CLEAR of a loop is written with 1 (R196). -/
def execLoopClear (req : Req) (h : Fin 32) (n : Fin 24) (v : Word) (s : State) : Out := headRow req h (LoopReg.CLEAR n.val) 1 v s

/-- CLR_STATS of a loop is written with 1 (R213). -/
def execLoopClrStats (req : Req) (h : Fin 32) (n : Fin 24) (v : Word) (s : State) : Out := headRow req h (LoopReg.CLR_STATS n.val) 1 v s

/-- HCMD 0 is written (R219). -/
def execHcmdNop (req : Req) (h : Fin 32) (v : Word) (s : State) : Out := headRow req h LandReg.HCMD 0 v s

/-- HCMD 1 is written (R219). -/
def execPark (req : Req) (h : Fin 32) (v : Word) (s : State) : Out := headRow req h LandReg.HCMD 1 v s

/-- HCMD 2 is written (R219). -/
def execSpin (req : Req) (h : Fin 32) (v : Word) (s : State) : Out := headRow req h LandReg.HCMD 2 v s

/-- HCMD 3 is written (R227). -/
def execFocusOn (req : Req) (h : Fin 32) (v : Word) (s : State) : Out := headRow req h LandReg.HCMD 3 v s

/-- HCMD 4 is written (R219). -/
def execFocusOff (req : Req) (h : Fin 32) (v : Word) (s : State) : Out := headRow req h LandReg.HCMD 4 v s

/-- HCMD 5 is written (R232). -/
def execTrackOn (req : Req) (h : Fin 32) (v : Word) (s : State) : Out := headRow req h LandReg.HCMD 5 v s

/-- HCMD 6 is written (R219). -/
def execTrackOff (req : Req) (h : Fin 32) (v : Word) (s : State) : Out := headRow req h LandReg.HCMD 6 v s

/-- HCMD 7 is written (R232). -/
def execSeek (req : Req) (h : Fin 32) (v : Word) (s : State) : Out := headRow req h LandReg.HCMD 7 v s

/-- HCMD 8 is written (R219). -/
def execClearFault (req : Req) (h : Fin 32) (v : Word) (s : State) : Out := headRow req h LandReg.HCMD 8 v s

/-- A reserved HCMD code is written (R219). -/
def execHcmdReserved (req : Req) (h : Fin 32) (v : Word) (s : State) : Out := headRow req h LandReg.HCMD (reservedCode LandReg.HCMD 9 15 v) v s

/-- SCMD 1 is written (R261). -/
def execAlignRun (req : Req) (h : Fin 32) (v : Word) (s : State) : Out := headRow req h SpinReg.SCMD 1 v s

/-- SCMD 0 is written (R263). -/
def execScmdNop (req : Req) (h : Fin 32) (v : Word) (s : State) : Out := headRow req h SpinReg.SCMD 0 v s

/-- A reserved SCMD code is written (R263). -/
def execScmdReserved (req : Req) (h : Fin 32) (v : Word) (s : State) : Out := headRow req h SpinReg.SCMD (reservedCode SpinReg.SCMD 2 7 v) v s

/-- CHOP_SILENT is written with 1 (R258). -/
def execChopSilent (req : Req) (h : Fin 32) (v : Word) (s : State) : Out := headRow req h SpinReg.CHOP_SILENT 1 v s

/-- MCMD 1 is written (R268). -/
def execMove (req : Req) (h : Fin 32) (g : Fin 2) (v : Word) (s : State) : Out := headRow req h (StepReg.MCMD g.val) 1 v s

/-- MCMD 2 is written (R271). -/
def execMcmdStop (req : Req) (h : Fin 32) (g : Fin 2) (v : Word) (s : State) : Out := headRow req h (StepReg.MCMD g.val) 2 v s

/-- MCMD 3 is written (R271). -/
def execHalt (req : Req) (h : Fin 32) (g : Fin 2) (v : Word) (s : State) : Out := headRow req h (StepReg.MCMD g.val) 3 v s

/-- MCMD 4 is written (R279). -/
def execHome (req : Req) (h : Fin 32) (g : Fin 2) (v : Word) (s : State) : Out := headRow req h (StepReg.MCMD g.val) 4 v s

/-- MCMD 5 is written (R274). -/
def execRebase (req : Req) (h : Fin 32) (g : Fin 2) (v : Word) (s : State) : Out := headRow req h (StepReg.MCMD g.val) 5 v s

/-- MCMD 0 is written (R272). -/
def execMcmdNop (req : Req) (h : Fin 32) (g : Fin 2) (v : Word) (s : State) : Out := headRow req h (StepReg.MCMD g.val) 0 v s

/-- A reserved MCMD code is written (R272). -/
def execMcmdReserved (req : Req) (h : Fin 32) (g : Fin 2) (v : Word) (s : State) : Out := headRow req h (StepReg.MCMD g.val) (reservedCode (StepReg.MCMD g.val) 6 15 v) v s

/-- ARM is written with 1 (R285). -/
def execArm (req : Req) (h : Fin 32) (v : Word) (s : State) : Out := headRow req h CalReg.ARM 1 v s

/-- CANCEL is written with 1 (R285). -/
def execCancel (req : Req) (h : Fin 32) (v : Word) (s : State) : Out := headRow req h CalReg.CANCEL 1 v s

/-- INTERP is written with 1 (R295). -/
def execInterp (req : Req) (h : Fin 32) (v : Word) (s : State) : Out := headRow req h CalReg.INTERP 1 v s

/-- COMMIT is written with 1 (R298). -/
def execCommit (req : Req) (h : Fin 32) (v : Word) (s : State) : Out := headRow req h CalReg.COMMIT 1 v s

/-- ERASE is written with 1 (R298). -/
def execErase (req : Req) (h : Fin 32) (v : Word) (s : State) : Out := headRow req h CalReg.ERASE 1 v s

/-- LOAD_INTERP is written with 1 (R297). -/
def execLoadInterp (req : Req) (h : Fin 32) (v : Word) (s : State) : Out := headRow req h CalReg.LOAD_INTERP 1 v s

/-- LOAD_SLOT is written with 1 (R297). -/
def execLoadSlot (req : Req) (h : Fin 32) (v : Word) (s : State) : Out := headRow req h CalReg.LOAD_SLOT 1 v s

/-- Set command 1 is written (R305). -/
def execOnline (req : Req) (n : Fin 8) (v : Word) (s : State) : Out := pkgRow req (SetReg.CMD n.val) 1 v s

/-- Set command 2 is written (R305). -/
def execAbsent (req : Req) (n : Fin 8) (v : Word) (s : State) : Out := pkgRow req (SetReg.CMD n.val) 2 v s

/-- Set command 3 is written (R305). -/
def execPresent (req : Req) (n : Fin 8) (v : Word) (s : State) : Out := pkgRow req (SetReg.CMD n.val) 3 v s

/-- Set command 4 is written (R322). -/
def execRebuildStart (req : Req) (n : Fin 8) (v : Word) (s : State) : Out := pkgRow req (SetReg.CMD n.val) 4 v s

/-- Set command 5 is written (R305). -/
def execRebuildEnd (req : Req) (n : Fin 8) (v : Word) (s : State) : Out := pkgRow req (SetReg.CMD n.val) 5 v s

/-- Set command 6 is written (R305). -/
def execSuspend (req : Req) (n : Fin 8) (v : Word) (s : State) : Out := pkgRow req (SetReg.CMD n.val) 6 v s

/-- Set command 7 is written (R305). -/
def execResume (req : Req) (n : Fin 8) (v : Word) (s : State) : Out := pkgRow req (SetReg.CMD n.val) 7 v s

/-- A reserved set command is written (R305). -/
def execSetCmdReserved (req : Req) (n : Fin 8) (v : Word) (s : State) : Out := pkgRow req (SetReg.CMD n.val) (reservedCode (SetReg.CMD n.val) 8 15 v) v s

/-- FW_GO is written with ACTION 1, BIND (R346). -/
def execBind (req : Req) (t : Fin 8) (v : Word) (s : State) : Out := tileRow req t LockReg.FW_GO 1 (BitVec.ofNat 32 (forced LockReg.ACTION 1 v)) s

/-- FW_GO is written with ACTION 2, DATA_READY (R346). -/
def execDataReady (req : Req) (t : Fin 8) (v : Word) (s : State) : Out := tileRow req t LockReg.FW_GO 1 (BitVec.ofNat 32 (forced LockReg.ACTION 2 v)) s

/-- FW_GO is written with ACTION 3, FAIL (R346). -/
def execFailEntry (req : Req) (t : Fin 8) (v : Word) (s : State) : Out := tileRow req t LockReg.FW_GO 1 (BitVec.ofNat 32 (forced LockReg.ACTION 3 v)) s

/-- FW_GO is written with ACTION 4, DONE (R346). -/
def execDoneEntry (req : Req) (t : Fin 8) (v : Word) (s : State) : Out := tileRow req t LockReg.FW_GO 1 (BitVec.ofNat 32 (forced LockReg.ACTION 4 v)) s

/-- PS_CURRENT is written (R359). -/
def execPsCurrentWrite (req : Req) (v : Word) (s : State) : Out := pkgWord req HostReg.PS_CURRENT.off v s

/-- CE_OVF is written (R379). -/
def execCeOvfClear (req : Req) (t : Fin 8) (v : Word) (s : State) : Out := tileWord req t ProtReg.CE_OVF_CACHE.off v s

/-- LOG_CLR is written (R378). -/
def execLogClr (req : Req) (t : Fin 8) (v : Word) (s : State) : Out := tileWord req t ProtReg.LOG_CLR.off v s

/-- GO of a DMA channel is written with 1 (R387). -/
def execDmaGo (req : Req) (t : Fin 8) (c : Fin 8) (v : Word) (s : State) : Out := tileRow req t (DmaReg.GO c.val) 1 v s

/-- STOP of a DMA channel is written with 1 (R391). -/
def execDmaStop (req : Req) (t : Fin 8) (c : Fin 8) (v : Word) (s : State) : Out := tileRow req t (DmaReg.STOP c.val) 1 v s

/-- REPAIR_ADD is written with 1 (R384). -/
def execRepairAdd (req : Req) (t : Fin 8) (v : Word) (s : State) : Out := tileRow req t ProtReg.REPAIR_ADD 1 v s

/-- REPAIR_DEL is written with 1 (R384). -/
def execRepairDel (req : Req) (t : Fin 8) (v : Word) (s : State) : Out := tileRow req t ProtReg.REPAIR_DEL 1 v s

/-- DB_SET of a core is written (R397). -/
def execDbSet (req : Req) (t : Fin 8) (c : Fin 2) (v : Word) (s : State) : Out := tileWord req t (GalReg.DB_SET c.val).off v s

/-- INV_GO is written with 1 (R405). -/
def execInvGo (req : Req) (t : Fin 8) (c k : Fin 2) (v : Word) (s : State) : Out := tileRow req t (CacheReg.INV_GO (cacheNo c k)) 1 v s

/-- LL_GO is written with 1 (R404). -/
def execLlGo (req : Req) (t : Fin 8) (c k : Fin 2) (v : Word) (s : State) : Out := tileRow req t (CacheReg.LL_GO (cacheNo c k)) 1 v s

/-- CACHE_EN is written with 0 (R406). -/
def execCacheEnWrite (req : Req) (t : Fin 8) (c k : Fin 2) (v : Word) (s : State) : Out := tileRow req t (CacheReg.CACHE_EN (cacheNo c k)) 0 v s

/-- FL_GO is written with FL_OP 0 (R436). -/
def execFlashRead (req : Req) (f : Fin 2) (v : Word) (s : State) : Out := pkgRow req (FlashReg.FL_GO f.val) 1 (BitVec.ofNat 32 (forced (FlashReg.FL_OP f.val) 0 v)) s

/-- FL_GO is written with FL_OP 1 (R436). -/
def execFlashProgram (req : Req) (f : Fin 2) (v : Word) (s : State) : Out := pkgRow req (FlashReg.FL_GO f.val) 1 (BitVec.ofNat 32 (forced (FlashReg.FL_OP f.val) 1 v)) s

/-- FL_GO is written with FL_OP 2 (R436). -/
def execFlashErase (req : Req) (f : Fin 2) (v : Word) (s : State) : Out := pkgRow req (FlashReg.FL_GO f.val) 1 (BitVec.ofNat 32 (forced (FlashReg.FL_OP f.val) 2 v)) s

/-- FL_GO is written with FL_OP 3 (R436). -/
def execFlashVerify (req : Req) (f : Fin 2) (v : Word) (s : State) : Out := pkgRow req (FlashReg.FL_GO f.val) 1 (BitVec.ofNat 32 (forced (FlashReg.FL_OP f.val) 3 v)) s

/-- KEY_GO is written, and the key update that KEY_ADDR names has OP 1 (R423). -/
def execAdd (req : Req) (v : Word) (s : State) : Out := keyRow req 1 v s

/-- KEY_GO is written, and the key update that KEY_ADDR names has OP 2 (R423). -/
def execRemove (req : Req) (v : Word) (s : State) : Out := keyRow req 2 v s

/-- KEY_GO is written, and the key update that KEY_ADDR names has OP 3 (R423). -/
def execRevokeFuse (req : Req) (v : Word) (s : State) : Out := keyRow req 3 v s

/-- BR_ACK is written (R427). -/
def execBrAckWrite (req : Req) (v : Word) (s : State) : Out := pkgWord req BootReg.BR_ACK.off v s

/-- A word of MIN_SEQ is written (R422). -/
def execMinSeqWrite (req : Req) (hi : Bool) (v : Word) (s : State) : Out := pkgWord req (if hi then BootReg.MIN_SEQ_HI.off else BootReg.MIN_SEQ_LO.off) v s

/-- ACTIVE_SLOT_0, ACTIVE_SLOT_1 and RECORD_POLICY are written (R436, R438). -/
def execActiveSlotWrite (req : Req) (v : Word) (s : State) : Out := pkgWord req BootReg.ACTIVE_SLOT_0.off v s

/-- AUTH_CMD 1 is written (R443). -/
def execHandover (req : Req) (v : Word) (s : State) : Out := pkgRow req AuthReg.AUTH_CMD 1 v s

/-- AUTH_CMD 2 is written (R446). -/
def execClaim (req : Req) (v : Word) (s : State) : Out := pkgRow req AuthReg.AUTH_CMD 2 v s

/-- AUTH_CMD 3 is written (R450). -/
def execUnfreeze (req : Req) (v : Word) (s : State) : Out := pkgRow req AuthReg.AUTH_CMD 3 v s

/-- AUTH_CMD 0 is written (R459). -/
def execAuthNop (req : Req) (v : Word) (s : State) : Out := pkgRow req AuthReg.AUTH_CMD 0 v s

/-- A reserved AUTH_CMD code is written (R459). -/
def execAuthReserved (req : Req) (v : Word) (s : State) : Out := pkgRow req AuthReg.AUTH_CMD (reservedCode AuthReg.AUTH_CMD 4 7 v) v s

/-- RESUME is written with 1 (R464). -/
def execTripResume (req : Req) (t : Fin 8) (v : Word) (s : State) : Out := tileRow req t HeatReg.RESUME 1 v s

/-- A register is written: REGISTER_WRITE (R498). -/
def execRegisterWrite (req : Req) (a : Nat) (v : Word) (s : State) : Out := .next ((s.turnTo 3).regWrite req a v.toNat)

/-- An access that reads where `v` is none, and otherwise writes: it is made where the address fares as `how`. -/
def strayAccess (how : Reach) (req : Req) (a : Nat) (v : Option Word) (s : State) : Out :=
  .next (if s.accessOf req (placeOf a) = how then
    match v with
    | none => let r := s.regRead req a; r.2.handOver req r.1
    | some v => (s.turnTo 3).regWrite req a v.toNat
  else s)

/-- An access to an address that holds no register (R5). -/
def execUnmappedAccess (req : Req) (a : Nat) (v : Option Word) (s : State) : Out := strayAccess .unmapped req a v s

/-- An access to a block held in reset (R505). -/
def execResetAccess (req : Req) (a : Nat) (v : Option Word) (s : State) : Out := strayAccess .inReset req a v s

/-- DATA of the window that serves the requester is read (R510). -/
def execTawDataRead (req : Req) (t : Fin 8) (s : State) : Out := .next (let r := s.regRead req (tileBase t + 0x1008 + 0x20 * tawOf req t); r.2.handOver req r.1)

/-- DATA of the window that serves the requester is written (R510). -/
def execTawDataWrite (req : Req) (t : Fin 8) (v : Word) (s : State) : Out := tileWord req t (0x1008 + 0x20 * tawOf req t) v s

/-- The lower word of a value held in two words is read (R31). -/
def execLowerWordRead (req : Req) (a : Nat) (s : State) : Out := .next (if isLower (placeOf a) then let r := s.regRead req a; r.2.handOver req r.1 else s)

end Sys2Proof.Machine
end

