-- ==== Sys2Proof/Machine/Schedule.lean ====
section
/-! DEFINITION. Holdover and the loss of the angle (R48), changes of the angle source (R50, R51), index crossings
(R59), and what each event type of a schedule does when it fires (R54). -/

namespace Sys2Proof.Machine

/-! ### The angle source -/

/-- Eight consecutive motor samples of the real source are missing (R48): eight frames without one, or the time of
eight frames without any. -/
def Head.holdoverDue (c : Ctx) (x : Head) : Bool :=
  !x.b AngleReg.VIRTUAL && !x.angle.lost && !x.b AngleReg.HOLDOVER
    && (decide (8 ≤ x.angle.missing) || decide (x.angle.arrived + 8 * 1600 ≤ c.now))

/-- Holdover begins (R48, R188): open write gates close at once and none opens. -/
def Head.holdover (c : Ctx) (x : Head) : Head :=
  let x := (x.put AngleReg.HOLDOVER true).flag AngleReg.HOLDOVER_ENTERED
  let x := { x with angle := { x.angle with holdSince := c.cyc } }
  (x.writeAbort c 4).refreshInhibit c

/-- HOLDOVER (R48). -/
def execHoldover (wait : Nat) (h : Fin 32) (s : State) : Out := s.headAfter wait h Head.holdoverDue Head.holdover

/-- The angle becomes invalid (R48, R217): both slots stop, and a head that tracks falls back to FOCUS. P and W are left
as they are, so that ANGLE reads on by the last W, and a START that waits for its index crossing is cancelled as by STOP
(DEDUCED, log entry 125). -/
def Head.angleLost (c : Ctx) (x : Head) : Head :=
  let x := ((x.put AngleReg.VALID false).put AngleReg.HOLDOVER false).flag AngleReg.ANGLE_LOST
  let x := x.onSlotOf 0 fun s => { s with running := false }
  let x := { x with angle := { x.angle with lost := true, slot0Wait := true, srcSamples := 0, tail := false } }
  let x := (x.slot1Stopped c).abortFrames c
  if x.tracking then x.toFocus c 10 else x.refresh c

/-- ANGLE_LOST (R48): HOLD_LIMIT µs have passed in holdover. -/
def execAngleLost (wait : Nat) (h : Fin 32) (s : State) : Out :=
  s.headAfter wait h
    (fun c x => x.b AngleReg.HOLDOVER
      && decide (x.angle.holdSince + cyclesOfUs (atLeast1 (x.r AngleReg.HOLD_LIMIT)) ≤ c.cyc))
    Head.angleLost

/-- A Riser frame boundary falls in this CORE cycle (R67). -/
def Ctx.atBoundary (c : Ctx) : Bool := decide (c.now % 1600 < 10)

/-- ANGLE_SOURCE_CHANGE (R51): the source chosen is not the one in use, at a frame boundary; a rate written to VRATE
takes effect there too (R50), and the speed band follows VRATE (R207). -/
def execAngleSourceChange (wait : Nat) (h : Fin 32) (s : State) : Out :=
  s.after wait (fun s => !(s.head h).inReset && (s.ctx h).atBoundary) fun s =>
    s.onHead h fun x => ((x.frameBoundary (s.ctx h) (s.timeValid (tileOf h))).refreshInhibit (s.ctx h)).updateBand.sampleBanks (s.ctx h)

/-! ### Index crossings -/

/-- A START is paused by the throttle level (R467). -/
def State.startPaused (s : State) (h : Fin 32) : Bool :=
  let t := s.tile (tileOf h)
  match (s.head h).angle.slot1Ended with
  | none => false
  | some c => decide (s.cycle < c + cyclesOfUs (t.r HeatReg.THROT_LEVEL * t.r HeatReg.PAUSE_UNIT))

/-- Heads of a tile that may run a slot 1 schedule at once at each cap step (R468). -/
def capHeads (step : Nat) : Nat := [4, 3, 2, 2, 2, 1, 1].getD step 0

/-- A START is within the permitted count (R469): the running schedules of the tile, and the pending starts of its
heads with lower numbers, leave room. -/
def State.startAdmitted (s : State) (h : Fin 32) : Bool :=
  let t := tileOf h
  let busy := localHeads.filter fun l => (s.head (headOf t l)).b AngleReg.RUNNING
    || (decide (headOf t l < h) && (s.head (headOf t l)).b AngleReg.START)
  decide (busy.length < capHeads ((s.tile t).r HeatReg.CAP_STEP))

/-- P has passed a multiple of 2^24 that it had not passed (R59). -/
def Head.crossed (c : Ctx) (x : Head) : Bool :=
  decide (0 < x.omega) && decide (x.angle.turn < x.posAt c.now / rev48) && !x.angle.lost

/-- A head reads `n` bytes of its schedule memory from `a` up (R378, R380). -/
def State.noteSched (h : Fin 32) (a n : Nat) (s : State) : State :=
  s.noteSram (tileOf h) (s.head h).schedMem a n (sramAddr (headArray (localOf h) 0)) .schedule

/-- Schedule `n` is read for its checks (R56): its directory entry, and the entries it names. -/
def State.readSched (h : Fin 32) (n : Nat) (s : State) : State :=
  let x := s.head h
  let (first, len) := x.schedDir n
  let s := s.noteSched h (8 * n) 8
  if x.schedMem.bad (8 * n) 8 then s else s.noteSched h (entryByte first) (8 * len)

/-- What an index crossing serves (R59): slot 0, an END with ARG 1, and a pending START, while VALID and TIME_VALID
are 1. -/
def State.crossing (h : Fin 32) (s : State) : State :=
  let c := s.ctx h
  let s := s.onHead h fun x => { x with angle := { x.angle with turn := x.posAt c.now / rev48 } }
  let x := s.head h
  if x.b AngleReg.VALID && s.timeValid (tileOf h) then
    let s := if x.angle.slot0Wait then s.readSched h (x.r AngleReg.SLOT0_SCHED) else s
    let s := s.onHead h (Head.slot0Restart c)
    let s := if x.angle.restart1 then s.onHead h fun x =>
        let x := (x.dropOwed 1).onSlotOf 1 fun sl => { sl with startTurn := x.angle.turn, done := [] }
        { x with angle := { x.angle with restart1 := false } }
      else s
    if x.b AngleReg.START && !s.startPaused h && s.startAdmitted h then
      (s.readSched h (x.r AngleReg.SCHED)).onHead h fun x => if x.startOk then x.slot1Start c else x.startRefused
    else s
  else s

/-- INDEX_CROSSING (R59). -/
def execIndexCrossing (wait : Nat) (h : Fin 32) (s : State) : Out :=
  s.after wait (fun s => !(s.head h).inReset && (s.head h).crossed (s.ctx h)) (State.crossing h)

/-! ### Events -/

/-- Where the entry of an event stands in the schedule memory. -/
def Head.firePlace (x : Head) (f : Fire) : Nat := entryByte ((x.schedDir (x.slotOf f.slot).sched).1 + f.index)

/-- The uncorrectable bytes of entries that are due are counted and captured when the entries are read again (R56,
R380). -/
def State.noteEntries (h : Fin 32) (s : State) : State :=
  let x := s.head h
  let c := s.ctx h
  let l := (x.waiting c 0 ++ x.waiting c 1).filter fun f => f.bad && x.reached c f && decide (0 ≤ f.rel)
  l.foldl (fun (s : State) f =>
    s.noteSched h (x.firePlace f) 8) s

/-- An event of type `ty` fires if it is the first that is due (R57), with its effect. The read of its entry corrects, counts
and logs the correctable errors in it (R378). -/
def State.fires (s : State) (wait : Nat) (h : Fin 32) (ty : Nat) (act : Fire → State → State) : Out :=
  let s := s.pass wait
  let c := s.ctx h
  if (s.head h).inReset then .next s
  else
    let s := s.noteEntries h
    match (s.head h).takeEvent c ty with
    | none => .next (s.onHead h (Head.dropBad c))
    | some (f, x) => .next (act f ((s.noteSched h (x.firePlace f) 8).setHead h x))

/-- An event whose receiver is in the head. -/
def State.firesIn (s : State) (wait : Nat) (h : Fin 32) (ty : Nat) (act : Ctx → Fire → Head → Head) : Out :=
  s.fires wait h ty fun f s => s.onHead h (act (s.ctx h) f)

/-- An event is queued in beam channel `i` (R60); one beyond 64 is dropped, and ends an open frame with ABORTED
(R157). -/
def Head.gateEvent (c : Ctx) (i : Fin 33) (f : Fire) (x : Head) : Head :=
  if (x.beam i).events.length < 64 then
    x.onBeam i fun b => { b with events := b.events ++ [{ kind := f.type, arg := f.arg, te := f.te, w := x.omega }] }
  else (x.flag (BeamReg.EVENT_OVF i)).endFrame i .cut c.now

/-- An event goes to the beam channel of its TARGET (R55). One with TARGET 34, the head, goes to positions 0 to 31: R55
gives it no beam position, and R231 has a ZONE_SELECT with TARGET 34 reach the beam-channel tables (DEDUCED, log
entry 125). -/
def Head.beamEvent (c : Ctx) (f : Fire) (x : Head) : Head :=
  if f.target ≤ 32 then x.gateEvent c (toSampler f.target) f
  else (List.range 32).foldl (fun x i => x.gateEvent c (toSampler i) f) x

/-- NOP (R54). -/
def execNop (wait : Nat) (h : Fin 32) (s : State) : Out := s.firesIn wait h 0 fun _ _ x => x

/-- SECTOR_GATE_OPEN (R54, R60): the event goes to its beam channel, which opens the frame at the first sample at or
after t_e (R134). -/
def execSectorGateOpen (wait : Nat) (h : Fin 32) (s : State) : Out := s.firesIn wait h 1 Head.beamEvent

/-- SECTOR_GATE_CLOSE (R54, R60): the event goes to its beam channel, which ends the frame at t_e (R134). -/
def execSectorGateClose (wait : Nat) (h : Fin 32) (s : State) : Out := s.firesIn wait h 2 Head.beamEvent

/-- WRITE_GATE_OPEN (R54, R169). -/
def execWriteGateOpen (wait : Nat) (h : Fin 32) (s : State) : Out :=
  s.fires wait h 3 fun f s => s.writeGateOpen h f.arg f.te

/-- WRITE_GATE_CLOSE (R54, R169). -/
def execWriteGateClose (wait : Nat) (h : Fin 32) (s : State) : Out :=
  s.firesIn wait h 4 fun c f x => x.writeClose c f.te

/-- WEDGE_WINDOW_OPEN (R54, R221). -/
def execWedgeWindowOpen (wait : Nat) (h : Fin 32) (s : State) : Out :=
  s.firesIn wait h 5 fun _ f x => x.wedgeOpen f.te (f.arg % 256)

/-- WEDGE_WINDOW_CLOSE (R54, R222). -/
def execWedgeWindowClose (wait : Nat) (h : Fin 32) (s : State) : Out :=
  s.firesIn wait h 6 fun _ f x => x.wedgeClose f.te

/-- RESYNC_EXPECT (R54, R60, R137, R138). -/
def execResyncExpect (wait : Nat) (h : Fin 32) (s : State) : Out := s.firesIn wait h 7 Head.beamEvent

/-- LOOP_SAMPLE (R54, R198). -/
def execLoopSample (wait : Nat) (h : Fin 32) (s : State) : Out :=
  s.firesIn wait h 8 fun c f x => x.loopEvent c (f.arg % 32) f.te

/-- CAL_WINDOW_OPEN (R54, R286). -/
def execCalWindowOpen (wait : Nat) (h : Fin 32) (s : State) : Out :=
  s.firesIn wait h 9 fun c f x => x.calOpen c (f.arg % 65536) f.te

/-- CAL_WINDOW_CLOSE (R54, R286). -/
def execCalWindowClose (wait : Nat) (h : Fin 32) (s : State) : Out :=
  s.firesIn wait h 0x0A fun c f x => x.calClose c (f.arg % 65536) f.te

/-- SPARE_POINT (R54, R62). -/
def execSparePoint (wait : Nat) (h : Fin 32) (s : State) : Out :=
  s.firesIn wait h 0x0B fun c f x => x.sparePoint c f.target f.te.toNat

/-- RETAIN (R54, R151): it acts at the first sample at or after t_e. -/
def execRetain (wait : Nat) (h : Fin 32) (s : State) : Out := s.firesIn wait h 0x0C Head.beamEvent

/-- A ZONE_SELECT reaches the beam channels of its TARGET and, whatever its TARGET, the spot offsets of the events that
fall due after it (R61); the loop region follows one of the head, or of the first of all positions (R206). -/
def Head.zoneEvent (c : Ctx) (f : Fire) (x : Head) : Head :=
  let x := x.beamEvent c f
  let x := { x with angle := { x.angle with
    layer := f.arg % 16, zone := f.arg / 16 % 16, owed := x.angle.owed.filter fun o => decide (32 < o.target) } }
  if f.target = 34 ∨ (f.whole ∧ f.target = 0) then
    ({ x with loops := { x.loops with layer := f.arg % 16, zone := f.arg / 16 % 16 } }).refreshBank.sampleBanks c
  else x

/-- ZONE_SELECT (R54, R61, R206). -/
def execZoneSelect (wait : Nat) (h : Fin 32) (s : State) : Out := s.firesIn wait h 0x0D Head.zoneEvent

/-- A MARK (R54, R397): the head's interrupt source is asserted, with the tag and the crossing time. -/
def Head.mark (f : Fire) (x : Head) : Head :=
  { x with angle := { x.angle with markTag := f.arg, markTime := f.te, markPend := true } }

/-- MARK (R54, R397). -/
def execMark (wait : Nat) (h : Fin 32) (s : State) : Out := s.firesIn wait h 0x0E fun _ f x => x.mark f

/-- The revolutions since a slot's start, against REV of the entry (R54). -/
def Head.revCheck (f : Fire) (x : Head) : Head :=
  let s := x.slotOf f.slot
  let first := (x.schedDir s.sched).1
  let rev := bitsOf (x.entry (first + f.index)) 27 24
  if x.angle.turn - s.startTurn = (rev : Int) then x else x.skip 1

/-- REV_CHECK (R54). -/
def execRevCheck (wait : Nat) (h : Fin 32) (s : State) : Out := s.firesIn wait h 0x0F fun _ f x => x.revCheck f

/-- An END (R54): slot 1 stops, or restarts at the next index crossing; slot 0 fires nothing more until its restart there,
which comes in any case (R57). -/
def Head.endEntry (c : Ctx) (f : Fire) (x : Head) : Head :=
  if f.slot = 0 then x.onSlotOf 0 fun s => { s with ended := true }
  else if f.arg % 2 = 1 then { x with angle := { x.angle with restart1 := true } }
  else x.slot1Stopped c

/-- END (R54). -/
def execEndEvent (wait : Nat) (h : Fin 32) (s : State) : Out := s.firesIn wait h 0x10 Head.endEntry

end Sys2Proof.Machine
end

