-- ==== Sys2Proof/Machine/Smbus.lean ====
section
/-! DEFINITION. The SMBus target (R491, R492) and the SPDM responder behind it (R428). -/

namespace Sys2Proof.Machine

/-! ### The target -/

/-- The target answers: the Atrium has latched its address, and from then on in every boot state (R491). -/
def State.smbOn (s : State) : Bool := !s.pkgAsleep

/-- The state of the target changes. -/
def State.onSmb (s : State) (f : SmbSt → SmbSt) : State := { s with smb := f s.smb }

/-- A response of R492: completion code, word count and words. -/
def State.smbAnswer (code : Nat) (ws : List Nat) (s : State) : State :=
  s.onSmb fun x => { x with response := bytesOf 1 code ++ bytesOf 1 ws.length ++ ws.flatMap (bytesOf 4) }

/-- Completion code of a request that is not well formed (R492): 4 for a word count outside 1 to 12, 2 for an address that
is no multiple of 4 or words that run past the address space; 0 for a good one. -/
def smbForm (a n : Nat) : Nat :=
  if n = 0 ∨ 12 < n then 4 else if a % 4 ≠ 0 ∨ 2 ^ 32 < a + 4 * n then 2 else 0

/-- Consecutive words are read, each with the effects of a register read (R492). -/
def State.smbReadWords (a : Nat) : Nat → State → List Nat × State
  | 0, s => ([], s)
  | n + 1, s =>
    let r := s.regRead .smbus a
    let l := r.2.smbReadWords (a + 4) n
    (r.1 :: l.1, l.2)

/-- A message is a request of R492 to the copy that serves the bus: its packets are right and no longer than 64 bytes (R491),
and it is of type 0x7F under the vendor ID of the identity registers. -/
def State.smbOurs (s : State) (m : SmbHead) : Bool :=
  s.smbOn && m.pec && decide (m.unit ≤ 64) && m.type == 0x7F && m.vendor == s.pr (s.copyOf .smbus) IdReg.MCTP_VENDOR_ID

/-- A request of the bus runs for a while (R492). -/
def State.smbRuns (s : State) : State :=
  let n := Config.smbTime s.freeCount
  (s.takeFree).onSmb fun x => { x with busyTill := s.cycle + n }

/-- A request with completion code `k` for its form is answered, or carried out: while an earlier one runs it is answered BUSY
(R492). -/
def State.smbServe (k : Nat) (act : State → State) (s : State) : State :=
  if s.cycle < s.smb.busyTill then s.smbAnswer 3 []
  else if k ≠ 0 then s.smbAnswer k []
  else act s.smbRuns

/-- SMBUS_READ (R492): `n` words from the request's address on; a message with an OP that is neither READ nor WRITE is answered
BAD_OP. -/
def execSmbusRead (wait : Nat) (m : SmbHead) (n : Nat) (s : State) : Out :=
  s.after wait (fun s => s.smbOurs m && m.op != 2) (State.smbServe (if m.op ≠ 1 then 4 else smbForm m.addr n) fun s =>
    let r := s.smbReadWords m.addr n
    r.2.smbAnswer 0 r.1)

/-- The write of `v` at `a` carries out something that R444 reserves to the holder. -/
def reservedWrite (a v : Nat) : Bool :=
  match placeOf a with
  | .pkg off =>
    ([0x24, 0x218, 0x21C, 0x220, 0x284, 0x5000] : List Nat).contains off || (off == 0x228 && bitOf v 30)
      || ((off == 0x40C || off == 0x44C) && bitOf v 2)
      || (decide (0x4000 ≤ off ∧ off < 0x4800) && off % 0x100 == 0 && v % 16 != 0)
  | .tile _ off => off == 0x100208 && (bitOf v 6 || bitOf v 7)
  | _ => false

/-- The words of a request with their addresses. -/
def smbWords (a : Nat) (v : List Word) : List (Nat × Nat) := v.zipIdx.map fun e => (a + 4 * e.2, e.1.toNat)

/-- Words are written one after the other; the flag says that the Selvedge store turned one away (R432). -/
def State.smbWriteWords : List (Nat × Nat) → State → Bool × State
  | [], s => (false, s)
  | e :: l, s =>
    let r := (s.regWrite .smbus e.1 e.2).smbWriteWords l
    (s.turnedAway .smbus (placeOf e.1) e.2 || r.1, r.2)

/-- SMBUS_WRITE (R444, R492): a request that writes what is reserved to the holder, served by the other copy, writes
nothing; one of which the store turned a word away is answered with an error, whose code no rule names (R432, log entry
112). -/
def execSmbusWrite (wait : Nat) (m : SmbHead) (v : List Word) (s : State) : Out :=
  s.afterIn 3 wait (fun s => s.smbOurs m && m.op == 2) (State.smbServe (smbForm m.addr v.length) fun s =>
    let ws := smbWords m.addr v
    if !s.holds (s.copyOf .smbus) && ws.any (fun e => reservedWrite e.1 e.2) then s.smbAnswer 1 []
    else
      let r := s.smbWriteWords ws
      if r.1 then (r.2.smbAnswer (1 + Config.freeValue r.2.freeCount % 4) []).takeFree else r.2.smbAnswer 0 [])

/-- ALERT_RESPONSE (R491): the device, while it holds SMB_ALERT_N low, answers with its own address, 0x70 + ADDR, which the
bus carries in bits 7 to 1 of the byte. -/
def execAlertResponse (wait : Nat) (s : State) : Out :=
  s.after wait (fun s => s.smbOn && !s.pkg.alertN) fun s =>
    let addr := 0x70 + bitsOf s.boot.strapWord 6 4
    s.onSmb fun x => { x with alertByte := some (2 * addr) }

/-- SMBUS_CLOCK_TIMEOUT (R491): SMB_SCL has been low for `low` CORE cycles; after 35 ms the device releases the bus, and the
response in transit is dropped. -/
def execSmbusClockTimeout (wait low : Nat) (s : State) : Out :=
  s.after wait (fun s => s.smbOn && decide (cyclesOfMs 35 ≤ low)) fun s =>
    s.onSmb fun x => { x with response := [], spdm := none, alertByte := none }

/-! ### SPDM -/

/-- An SPDM request is answered. -/
def State.spdmAnswer (a : SpdmAnswer) (s : State) : State := s.onSmb fun x => { x with spdm := some a }

/-- The answer to a request that needs the algorithms to be settled; an error before. -/
def State.spdmAfter (s : State) (act : State → State) : State := if s.smb.spdmAlgs then act s else s.spdmAnswer .error

/-- The certificate chain of slot 0. -/
def certChain : List Byte := (List.range Config.certLength.toNat).map Config.certByte

/-- GET_VERSION (R428): SPDM 1.2; the negotiation starts anew. -/
def execGetVersion (wait : Nat) (s : State) : Out :=
  s.after wait State.smbOn fun s =>
    (s.onSmb fun x => { x with spdmVersion := true, spdmCaps := false, spdmAlgs := false }).spdmAnswer .version

/-- GET_CAPABILITIES (R428). -/
def execGetCapabilities (wait : Nat) (s : State) : Out :=
  s.after wait State.smbOn fun s =>
    if s.smb.spdmVersion then (s.onSmb fun x => { x with spdmCaps := true, spdmAlgs := false }).spdmAnswer .capabilities
    else s.spdmAnswer .error

/-- NEGOTIATE_ALGORITHMS (R428): only ECDSA P-384 and SHA-384 are offered; the operands say what the requester has. -/
def execNegotiateAlgorithms (wait : Nat) (p384 sha384 : Bool) (s : State) : Out :=
  s.after wait State.smbOn fun s =>
    if s.smb.spdmCaps then (s.onSmb fun x => { x with spdmAlgs := p384 && sha384 }).spdmAnswer (.algorithms p384 sha384)
    else s.spdmAnswer .error

/-- GET_DIGESTS (R428): slot 0's chain. -/
def execGetDigests (wait : Nat) (s : State) : Out :=
  s.after wait State.smbOn fun s => s.spdmAfter (State.spdmAnswer (.digests (sha384 certChain)))

/-- GET_CERTIFICATE (R428): slot 0 only. -/
def execGetCertificate (wait slot offset length : Nat) (s : State) : Out :=
  s.after wait State.smbOn fun s => s.spdmAfter fun s =>
    if slot ≠ 0 ∨ certChain.length ≤ offset then s.spdmAnswer .error
    else
      let l := sliceOf certChain offset length
      s.spdmAnswer (.certificate l (certChain.length - offset - l.length))

/-- CHALLENGE (R428): a signed response. -/
def execChallenge (wait slot : Nat) (nonce : BitVec 256) (s : State) : Out :=
  s.after wait State.smbOn fun s => s.spdmAfter fun s =>
    if slot ≠ 0 then s.spdmAnswer .error
    else
      let own := beBytes 32 (Config.spdmNonce s.freeCount).toNat
      let digest := sha384 certChain
      let sig := beBytes 96 (Config.spdmSignature 1 nonce (digest ++ own)).toNat
      s.takeFree.spdmAnswer (.challengeAuth digest own sig)

/-- The newest entry of the copy that serves the bus, as SHA-384; zeros where it holds none (R428). -/
def State.newestDigest (s : State) : List Byte :=
  match (s.tile (atriumTile (s.copyOf .smbus))).selv.newestEntry with
  | some e => sha384 e
  | none => List.replicate 48 0

/-- KEY_DIGEST of the current boot. -/
def State.bootKeyDigest (s : State) : List Byte :=
  if s.boot.keyDigest.isEmpty then s.keySlotDigest (strapWing s.boot.strapWord) else s.boot.keyDigest

/-- The measurement blocks 1 to 13 (R428). -/
def State.measurementBlocks (s : State) : List (Nat × List Byte) :=
  let zero : List Byte := List.replicate 48 0
  [(1, s.boot.strapDigest), (2, s.boot.fuseDigest), (3, if s.booted then s.boot.bsDigest else zero), (4, s.bootKeyDigest)]
    ++ (List.range 8).map (fun i => (5 + i, if s.booted then s.boot.images.getD i zero else zero))
    ++ [(13, s.newestDigest)]

/-- GET_MEASUREMENTS (R428): index 0 asks how many blocks there are, 255 for all of them. -/
def execGetMeasurements (wait index : Nat) (signed : Bool) (nonce : BitVec 256) (s : State) : Out :=
  s.after wait State.smbOn fun s => s.spdmAfter fun s =>
    let all := s.measurementBlocks
    let l := if index = 255 then all else all.filter fun b => b.1 == index
    if index ≠ 0 ∧ l.isEmpty then s.spdmAnswer .error
    else
      let sig := beBytes 96 (Config.spdmSignature 2 nonce (l.flatMap (·.2))).toNat
      let s := if l.any (·.1 == 13) then s.noteRecordRead (atriumTile (s.copyOf .smbus)) else s
      let s := if s.boot.keyDigest.isEmpty && l.any (·.1 == 4) then s.noteKeys (atriumTile (strapWing s.boot.strapWord)) else s
      s.spdmAnswer (.measurements all.length l (if signed then some sig else none))

/-- VENDOR_DEFINED_REQUEST (R428): request type 1 and a BOOT_COUNT; the entry, or status 1 NOT_HELD. -/
def execVendorDefinedRequest (wait registry vendor : Nat) (payload : List Byte) (s : State) : Out :=
  s.after wait State.smbOn fun s => s.spdmAfter fun s =>
    let w := s.copyOf .smbus
    if registry ≠ s.pr w IdReg.MCTP_REGISTRY ∨ vendor ≠ s.pr w IdReg.MCTP_VENDOR_ID ∨ payload.length ≠ 5
      ∨ infoField payload 0 1 ≠ 1 then s.spdmAnswer .error
    else
      let t := atriumTile w
      match (s.tile t).selv.entryOf (infoField payload 1 4) with
      | some e => (s.noteRecordRead t).spdmAnswer (.vendor 0 e)
      | none => (s.noteRecordRead t).spdmAnswer (.vendor 1 [])

end Sys2Proof.Machine
end

