-- ==== Sys2Proof/Machine/TimeBase.lean ====
section
/-! DEFINITION. Package time: sync flits and what a tile does on one (R36 to R43). -/

namespace Sys2Proof.Machine

/-- The tiles that master tile `m` of wing `w` sends a sync flit to: every other enabled tile out of reset that it
reaches, and during a split those of its wing alone (R37). -/
def State.syncTiles (s : State) (w : Fin 2) (m : Fin 8) : List (Fin 8) :=
  allTiles.filter fun t => t ≠ m && s.tileEnabled t && !s.asleep t && (!s.split || s.rejoining || wingOf t = w) && s.reaches m t

/-- The master of wing `w` may send: it is the Atrium tile of that wing, its counter runs, it is not in reset, and 1 µs
has passed since its last sync flits (R37). -/
def State.syncDue (w : Fin 2) (s : State) : Bool :=
  let m := atriumTile w
  s.masterOf w = m && (s.tile m).timeOn && !s.asleep m
    && (match (s.atrium w).lastSync with | none => true | some c => s.since c cyclesPerUs)

/-- The master's sync flits leave, each with the counter value and the hops of its path (R37); what the master itself
counts towards SYNC_LOST starts anew, so that it counts from the end of its time as master (R40, R43). -/
def State.syncSend (w : Fin 2) (s : State) : State :=
  let m := atriumTile w
  let sent := s.t16 m
  let s := (s.syncTiles w m).foldl (fun s t =>
    match s.route m t with
    | none => s
    | some (p, _) =>
      let hp := hops m p
      (s.sendPacket m t vcTime 1).onTile t fun x => { x with syncIn := x.syncIn ++ [(sent, hp.1, hp.2)] }) s
  (s.onTile m fun x => { x with syncFrom := s.cycle }).onAtrium w fun a => { a with lastSync := some s.cycle }

/-- SYNC_FLIT_SEND (R37). -/
def execSyncFlitSend (wait : Nat) (w : Fin 2) (s : State) : Out := s.after wait (State.syncDue w) (State.syncSend w)

/-- Path latency L in 1/16 ns (R38). -/
def syncLatency (ring bridge : Nat) : Nat := (8 * ring + 12 * bridge + 6) * 16

/-- A sync flit is applied at a tile (R38, R40): `at16` is T_sent + L. A tile whose counter is held at 0 takes the
value without a step; any other acts by the size of the offset. A hold in progress lasts until the offset is within
1 ns: a flit that finds it between -64 ns and -1 ns then holds on and sets TIME_HOLD again, and does not end the hold by
a slew (DEDUCED, log entry 5). -/
def Tile.takeSync (cyc at16 : Nat) (x : Tile) : Tile :=
  let e : Int := (at16 : Int) - x.time16
  let x := (x.wi TimeReg.LAST_E (clampInt (-32768) 32767 e)).put TimeReg.TIME_VALID true
  let x := { x with lastSync := some cyc }
  if !x.timeOn then { x with time16 := at16, timeOn := true }
  else if 1024 < e then { x.flag TimeReg.TIME_STEP with time16 := at16, slew := 0, holdLeft := 0 }
  else if e < -1024 ∨ (x.holdLeft ≠ 0 ∧ e < -16) then
    { x.flag TimeReg.TIME_HOLD with slew := 0, holdLeft := ((-16 - e + 9) / 10).toNat }
  else if -16 ≤ e ∧ e ≤ 16 then { x with holdLeft := 0 }
  else { x with slew := e, holdLeft := 0 }

/-- A sync flit is applied, and what it changes in the way package time runs is kept (R38). -/
def Tile.applySync (cyc at16 : Nat) (x : Tile) : Tile :=
  let y := x.takeSync cyc at16
  if y.time16 = x.time16 ∧ y.slew = x.slew ∧ y.holdLeft = x.holdLeft then y
  else { y with paces := ⟨cyc, x.time16, y.time16, y.slew, y.holdLeft⟩ :: x.paces }

/-- The oldest sync flit on its way to tile `t` arrives; the master, and a tile in reset, apply none (R40). -/
def State.syncReceive (t : Fin 8) (s : State) : State :=
  match (s.tile t).syncIn with
  | [] => s
  | (sent, ring, bridge) :: l =>
    let s := s.onTile t fun x => { x with syncIn := l }
    if s.masterOf (wingOf t) = t ∨ s.asleep t then s
    else s.onTile t fun x => x.applySync s.cycle (sent + syncLatency ring bridge)

/-- SYNC_FLIT_RECEIVE (R38). -/
def execSyncFlitReceive (wait : Nat) (t : Fin 8) (s : State) : Out :=
  s.after wait (fun s => !(s.tile t).syncIn.isEmpty) (State.syncReceive t)

/-- CORE cycle from which a tile has had no sync flit: the last one, or its coming up (R43). -/
def Tile.syncSince (x : Tile) : Nat :=
  match x.lastSync with | none => x.syncFrom | some c => max c x.syncFrom

/-- The boot has not yet brought the tiles up (R410, R411). -/
def BootSt.beforeTiles (b : BootSt) : Bool := b.phase = .held || b.phase = .pll || b.phase = .tiles

/-- No sync flit has reached tile `t`, which is enabled, out of reset and not the master, for 8 µs (R43). A tile that has
received none counts from its coming up (DEDUCED, log entry 125). -/
def State.syncLate (t : Fin 8) (s : State) : Bool :=
  s.masterOf (wingOf t) ≠ t && s.tileEnabled t && !s.asleep t && !s.boot.beforeTiles
    && s.since (s.tile t).syncSince (8 * cyclesPerUs)

/-- SYNC_LOST (R43): the flag is set, and the counter runs on. -/
def execSyncLost (wait : Nat) (t : Fin 8) (s : State) : Out :=
  s.after wait (State.syncLate t) fun s => s.onTile t (·.flag TimeReg.SYNC_LOST)

/-- SLEW_END (R38): the CORE cycles of the slew that remain pass, after which the counter adds 10/16 ns again. -/
def execSlewEnd (t : Fin 8) (s : State) : Out := .next (s.advance (s.tile t).slew.natAbs)

/-- TIME_HOLD_END (R38): the CORE cycles for which the counter is still held pass, after which it counts again. -/
def execTimeHoldEnd (t : Fin 8) (s : State) : Out := .next (s.advance (s.tile t).holdLeft)

end Sys2Proof.Machine
end

