-- ==== Sys2Proof/Machine/Dispatch.lean ====
section
/-! DEFINITION. Which command has which meaning: one arm for each constructor of Instr. -/

namespace Sys2Proof.Machine

/-- The effect of a command on everything but the queue. -/
def exec (i : Instr) (s : State) : Host.Outcome State Fault Refusal :=
  match i with
  | .powerOnResetRelease wait straps => Sys2Proof.Machine.execPowerOnResetRelease wait straps s
  | .railUndervoltage wait low => Sys2Proof.Machine.execRailUndervoltage wait low s
  | .rstN wait low => Sys2Proof.Machine.execRstN wait low s
  | .rstNRise wait => Sys2Proof.Machine.execRstNRise wait s
  | .warmRst req v => Sys2Proof.Machine.execWarmRst req v s
  | .tileRst req v => Sys2Proof.Machine.execTileRst req v s
  | .headReset req h v => Sys2Proof.Machine.execHeadReset req h v s
  | .portReset req p v => Sys2Proof.Machine.execPortReset req p v s
  | .pwrfail wait low => Sys2Proof.Machine.execPwrfail wait low s
  | .selvedgeWriteRefusal wait => Sys2Proof.Machine.execSelvedgeWriteRefusal wait s
  | .pwrfailEpisodeEnd wait => Sys2Proof.Machine.execPwrfailEpisodeEnd wait s
  | .sysclkStop wait => Sys2Proof.Machine.execSysclkStop wait s
  | .refclkStop wait => Sys2Proof.Machine.execRefclkStop wait s
  | .bootPllLock lock => Sys2Proof.Machine.execBootPllLock lock s
  | .tilesPowered wait => Sys2Proof.Machine.execTilesPowered wait s
  | .bootRecordScan wait => Sys2Proof.Machine.execBootRecordScan wait s
  | .candidateVerify reads => Sys2Proof.Machine.execCandidateVerify reads s
  | .sectionLoad wait => Sys2Proof.Machine.execSectionLoad wait s
  | .sparingApply wait => Sys2Proof.Machine.execSparingApply wait s
  | .recordAppend wait => Sys2Proof.Machine.execRecordAppend wait s
  | .journalReplay wait => Sys2Proof.Machine.execJournalReplay wait s
  | .coreRelease wait => Sys2Proof.Machine.execCoreRelease wait s
  | .tileReload wait t => Sys2Proof.Machine.execTileReload wait t s
  | .syncFlitSend wait w => Sys2Proof.Machine.execSyncFlitSend wait w s
  | .syncFlitReceive wait t => Sys2Proof.Machine.execSyncFlitReceive wait t s
  | .syncLost wait t => Sys2Proof.Machine.execSyncLost wait t s
  | .upstreamFrame wait h f => Sys2Proof.Machine.execUpstreamFrame wait h f s
  | .holdover wait h => Sys2Proof.Machine.execHoldover wait h s
  | .angleLost wait h => Sys2Proof.Machine.execAngleLost wait h s
  | .align req h v => Sys2Proof.Machine.execAlign req h v s
  | .discOffsetWrite req h v => Sys2Proof.Machine.execDiscOffsetWrite req h v s
  | .vrateWrite req h v => Sys2Proof.Machine.execVrateWrite req h v s
  | .asrcWrite req h v => Sys2Proof.Machine.execAsrcWrite req h v s
  | .angleSourceChange wait h => Sys2Proof.Machine.execAngleSourceChange wait h s
  | .indexCrossing wait h => Sys2Proof.Machine.execIndexCrossing wait h s
  | .start req h v => Sys2Proof.Machine.execStart req h v s
  | .stop req h v => Sys2Proof.Machine.execStop req h v s
  | .slot0SchedWrite req h v => Sys2Proof.Machine.execSlot0SchedWrite req h v s
  | .spareArm req h v => Sys2Proof.Machine.execSpareArm req h v s
  | .nop wait h => Sys2Proof.Machine.execNop wait h s
  | .sectorGateOpen wait h => Sys2Proof.Machine.execSectorGateOpen wait h s
  | .sectorGateClose wait h => Sys2Proof.Machine.execSectorGateClose wait h s
  | .writeGateOpen wait h => Sys2Proof.Machine.execWriteGateOpen wait h s
  | .writeGateClose wait h => Sys2Proof.Machine.execWriteGateClose wait h s
  | .wedgeWindowOpen wait h => Sys2Proof.Machine.execWedgeWindowOpen wait h s
  | .wedgeWindowClose wait h => Sys2Proof.Machine.execWedgeWindowClose wait h s
  | .resyncExpect wait h => Sys2Proof.Machine.execResyncExpect wait h s
  | .loopSample wait h => Sys2Proof.Machine.execLoopSample wait h s
  | .calWindowOpen wait h => Sys2Proof.Machine.execCalWindowOpen wait h s
  | .calWindowClose wait h => Sys2Proof.Machine.execCalWindowClose wait h s
  | .sparePoint wait h => Sys2Proof.Machine.execSparePoint wait h s
  | .retain wait h => Sys2Proof.Machine.execRetain wait h s
  | .zoneSelect wait h => Sys2Proof.Machine.execZoneSelect wait h s
  | .mark wait h => Sys2Proof.Machine.execMark wait h s
  | .revCheck wait h => Sys2Proof.Machine.execRevCheck wait h s
  | .endEvent wait h => Sys2Proof.Machine.execEndEvent wait h s
  | .train req h v => Sys2Proof.Machine.execTrain req h v s
  | .autoRetrain wait h => Sys2Proof.Machine.execAutoRetrain wait h s
  | .silentElapsed wait h => Sys2Proof.Machine.execSilentElapsed wait h s
  | .lockElapsed wait h lanes => Sys2Proof.Machine.execLockElapsed wait h lanes s
  | .trainingBlock wait h b => Sys2Proof.Machine.execTrainingBlock wait h b s
  | .alignTimeout wait h => Sys2Proof.Machine.execAlignTimeout wait h s
  | .measureDone wait h => Sys2Proof.Machine.execMeasureDone wait h s
  | .measureTimeout wait h => Sys2Proof.Machine.execMeasureTimeout wait h s
  | .framedLock wait h => Sys2Proof.Machine.execFramedLock wait h s
  | .frameTimeout wait h => Sys2Proof.Machine.execFrameTimeout wait h s
  | .linkLoss wait h lanes => Sys2Proof.Machine.execLinkLoss wait h lanes s
  | .downstreamFrame wait h => Sys2Proof.Machine.execDownstreamFrame wait h s
  | .cmdLost wait h => Sys2Proof.Machine.execCmdLost wait h s
  | .beamSampleDelivery wait h k => Sys2Proof.Machine.execBeamSampleDelivery wait h k s
  | .defectHoldRelease wait h => Sys2Proof.Machine.execDefectHoldRelease wait h s
  | .fwGo req h v => Sys2Proof.Machine.execFwGo req h v s
  | .safeCmd req h v => Sys2Proof.Machine.execSafeCmd req h v s
  | .safeRelease req h v => Sys2Proof.Machine.execSafeRelease req h v s
  | .decodeComplete wait h k => Sys2Proof.Machine.execDecodeComplete wait h k s
  | .clrStats req h k v => Sys2Proof.Machine.execClrStats req h k v s
  | .retryGo req h v => Sys2Proof.Machine.execRetryGo req h v s
  | .release req h v => Sys2Proof.Machine.execRelease req h v s
  | .replayStart wait t => Sys2Proof.Machine.execReplayStart wait t s
  | .hypothesisDone wait t => Sys2Proof.Machine.execHypothesisDone wait t s
  | .write wait h => Sys2Proof.Machine.execWrite wait h s
  | .verify wait h => Sys2Proof.Machine.execVerify wait h s
  | .opc wait h => Sys2Proof.Machine.execOpc wait h s
  | .pcaScan wait h => Sys2Proof.Machine.execPcaScan wait h s
  | .armed wait h => Sys2Proof.Machine.execArmed wait h s
  | .descriptorComplete wait h => Sys2Proof.Machine.execDescriptorComplete wait h s
  | .abort req h v => Sys2Proof.Machine.execAbort req h v s
  | .stratGo req h v => Sys2Proof.Machine.execStratGo req h v s
  | .stratLoadStart wait h => Sys2Proof.Machine.execStratLoadStart wait h s
  | .loopSampleDue wait h n => Sys2Proof.Machine.execLoopSampleDue wait h n s
  | .loopEvaluation wait h n => Sys2Proof.Machine.execLoopEvaluation wait h n s
  | .loopClear req h n v => Sys2Proof.Machine.execLoopClear req h n v s
  | .loopClrStats req h n v => Sys2Proof.Machine.execLoopClrStats req h n v s
  | .hcmdNop req h v => Sys2Proof.Machine.execHcmdNop req h v s
  | .park req h v => Sys2Proof.Machine.execPark req h v s
  | .spin req h v => Sys2Proof.Machine.execSpin req h v s
  | .focusOn req h v => Sys2Proof.Machine.execFocusOn req h v s
  | .focusOff req h v => Sys2Proof.Machine.execFocusOff req h v s
  | .trackOn req h v => Sys2Proof.Machine.execTrackOn req h v s
  | .trackOff req h v => Sys2Proof.Machine.execTrackOff req h v s
  | .seek req h v => Sys2Proof.Machine.execSeek req h v s
  | .clearFault req h v => Sys2Proof.Machine.execClearFault req h v s
  | .hcmdReserved req h v => Sys2Proof.Machine.execHcmdReserved req h v s
  | .focusLock wait h => Sys2Proof.Machine.execFocusLock wait h s
  | .flockTimeout wait h => Sys2Proof.Machine.execFlockTimeout wait h s
  | .focusLost wait h => Sys2Proof.Machine.execFocusLost wait h s
  | .saSettled wait h => Sys2Proof.Machine.execSaSettled wait h s
  | .saTimeout wait h => Sys2Proof.Machine.execSaTimeout wait h s
  | .kickEnd wait h => Sys2Proof.Machine.execKickEnd wait h s
  | .brakeEnd wait h => Sys2Proof.Machine.execBrakeEnd wait h s
  | .jumpTimeout wait h => Sys2Proof.Machine.execJumpTimeout wait h s
  | .wedgeComplete wait h => Sys2Proof.Machine.execWedgeComplete wait h s
  | .trackingLock wait h => Sys2Proof.Machine.execTrackingLock wait h s
  | .trackLost wait h => Sys2Proof.Machine.execTrackLost wait h s
  | .settleEnd wait h => Sys2Proof.Machine.execSettleEnd wait h s
  | .idTimeout wait h => Sys2Proof.Machine.execIdTimeout wait h s
  | .tlockTimeout wait h => Sys2Proof.Machine.execTlockTimeout wait h s
  | .holdTimeout wait h => Sys2Proof.Machine.execHoldTimeout wait h s
  | .angleFault wait h => Sys2Proof.Machine.execAngleFault wait h s
  | .stoppedConfirm wait h => Sys2Proof.Machine.execStoppedConfirm wait h s
  | .atSpeed wait h => Sys2Proof.Machine.execAtSpeed wait h s
  | .spinTimeout wait h => Sys2Proof.Machine.execSpinTimeout wait h s
  | .voltLimited wait h => Sys2Proof.Machine.execVoltLimited wait h s
  | .probeSettleEnd wait h => Sys2Proof.Machine.execProbeSettleEnd wait h s
  | .catchTimeout wait h => Sys2Proof.Machine.execCatchTimeout wait h s
  | .alignRun req h v => Sys2Proof.Machine.execAlignRun req h v s
  | .alignDone wait h => Sys2Proof.Machine.execAlignDone wait h s
  | .scmdNop req h v => Sys2Proof.Machine.execScmdNop req h v s
  | .scmdReserved req h v => Sys2Proof.Machine.execScmdReserved req h v s
  | .ovTrip wait h => Sys2Proof.Machine.execOvTrip wait h s
  | .ocTrip wait h => Sys2Proof.Machine.execOcTrip wait h s
  | .ovPersist wait h => Sys2Proof.Machine.execOvPersist wait h s
  | .chopSilentLatch wait h => Sys2Proof.Machine.execChopSilentLatch wait h s
  | .chopSilent req h v => Sys2Proof.Machine.execChopSilent req h v s
  | .stepTick wait h => Sys2Proof.Machine.execStepTick wait h s
  | .move req h g v => Sys2Proof.Machine.execMove req h g v s
  | .mcmdStop req h g v => Sys2Proof.Machine.execMcmdStop req h g v s
  | .halt req h g v => Sys2Proof.Machine.execHalt req h g v s
  | .home req h g v => Sys2Proof.Machine.execHome req h g v s
  | .rebase req h g v => Sys2Proof.Machine.execRebase req h g v s
  | .mcmdNop req h g v => Sys2Proof.Machine.execMcmdNop req h g v s
  | .mcmdReserved req h g v => Sys2Proof.Machine.execMcmdReserved req h g v s
  | .stall wait h g => Sys2Proof.Machine.execStall wait h g s
  | .lostStep wait h g => Sys2Proof.Machine.execLostStep wait h g s
  | .limitDebounce wait h g hi => Sys2Proof.Machine.execLimitDebounce wait h g hi s
  | .chatter wait h g hi => Sys2Proof.Machine.execChatter wait h g hi s
  | .holdCurrent wait h g => Sys2Proof.Machine.execHoldCurrent wait h g s
  | .arm req h v => Sys2Proof.Machine.execArm req h v s
  | .cancel req h v => Sys2Proof.Machine.execCancel req h v s
  | .spanStart wait h => Sys2Proof.Machine.execSpanStart wait h s
  | .interp req h v => Sys2Proof.Machine.execInterp req h v s
  | .autoInterp wait h => Sys2Proof.Machine.execAutoInterp wait h s
  | .interpDone wait h => Sys2Proof.Machine.execInterpDone wait h s
  | .commit req h v => Sys2Proof.Machine.execCommit req h v s
  | .commitDone wait h => Sys2Proof.Machine.execCommitDone wait h s
  | .erase req h v => Sys2Proof.Machine.execErase req h v s
  | .loadInterp req h v => Sys2Proof.Machine.execLoadInterp req h v s
  | .loadSlot req h v => Sys2Proof.Machine.execLoadSlot req h v s
  | .online req n v => Sys2Proof.Machine.execOnline req n v s
  | .absent req n v => Sys2Proof.Machine.execAbsent req n v s
  | .present req n v => Sys2Proof.Machine.execPresent req n v s
  | .rebuildStart req n v => Sys2Proof.Machine.execRebuildStart req n v s
  | .rebuildEnd req n v => Sys2Proof.Machine.execRebuildEnd req n v s
  | .suspend req n v => Sys2Proof.Machine.execSuspend req n v s
  | .resume req n v => Sys2Proof.Machine.execResume req n v s
  | .setCmdReserved req n v => Sys2Proof.Machine.execSetCmdReserved req n v s
  | .compute wait t => Sys2Proof.Machine.execCompute wait t s
  | .patrol wait t => Sys2Proof.Machine.execPatrol wait t s
  | .openBand wait t => Sys2Proof.Machine.execOpenBand wait t s
  | .delta wait t => Sys2Proof.Machine.execDelta wait t s
  | .land wait t => Sys2Proof.Machine.execLand wait t s
  | .void wait t => Sys2Proof.Machine.execVoid wait t s
  | .remap wait t => Sys2Proof.Machine.execRemap wait t s
  | .ckptSnap wait t => Sys2Proof.Machine.execCkptSnap wait t s
  | .checkpoint wait t => Sys2Proof.Machine.execCheckpoint wait t s
  | .mapReplay wait t => Sys2Proof.Machine.execMapReplay wait t s
  | .boltTypeReserved wait t => Sys2Proof.Machine.execBoltTypeReserved wait t s
  | .stripeCommit wait n => Sys2Proof.Machine.execStripeCommit wait n s
  | .journalRecordDurable wait n => Sys2Proof.Machine.execJournalRecordDurable wait n s
  | .paceWindowEnd wait t => Sys2Proof.Machine.execPaceWindowEnd wait t s
  | .creditAccrual wait t => Sys2Proof.Machine.execCreditAccrual wait t s
  | .fabricFrameReceive wait p f => Sys2Proof.Machine.execFabricFrameReceive wait p f s
  | .fabricLinkUp wait p => Sys2Proof.Machine.execFabricLinkUp wait p s
  | .fabricLinkDown wait p => Sys2Proof.Machine.execFabricLinkDown wait p s
  | .pfcStorm wait p => Sys2Proof.Machine.execPfcStorm wait p s
  | .rateRecovery wait p => Sys2Proof.Machine.execRateRecovery wait p s
  | .connect wait p q => Sys2Proof.Machine.execConnect wait p q s
  | .propertyGet wait p q => Sys2Proof.Machine.execPropertyGet wait p q s
  | .propertySet wait p q => Sys2Proof.Machine.execPropertySet wait p q s
  | .disconnect wait p q => Sys2Proof.Machine.execDisconnect wait p q s
  | .getLogPage wait p q => Sys2Proof.Machine.execGetLogPage wait p q s
  | .identify wait p q => Sys2Proof.Machine.execIdentify wait p q s
  | .nvmeAbort wait p q => Sys2Proof.Machine.execNvmeAbort wait p q s
  | .setFeatures wait p q => Sys2Proof.Machine.execSetFeatures wait p q s
  | .getFeatures wait p q => Sys2Proof.Machine.execGetFeatures wait p q s
  | .asynchronousEventRequest wait p q => Sys2Proof.Machine.execAsynchronousEventRequest wait p q s
  | .firmwareCommit wait p q => Sys2Proof.Machine.execFirmwareCommit wait p q s
  | .firmwareImageDownload wait p q => Sys2Proof.Machine.execFirmwareImageDownload wait p q s
  | .keepAlive wait p q => Sys2Proof.Machine.execKeepAlive wait p q s
  | .flush wait p q => Sys2Proof.Machine.execFlush wait p q s
  | .nvmeWrite wait p q => Sys2Proof.Machine.execNvmeWrite wait p q s
  | .nvmeRead wait p q => Sys2Proof.Machine.execNvmeRead wait p q s
  | .writeZeroes wait p q => Sys2Proof.Machine.execWriteZeroes wait p q s
  | .nvmeVerify wait p q => Sys2Proof.Machine.execNvmeVerify wait p q s
  | .readVersion wait p q => Sys2Proof.Machine.execReadVersion wait p q s
  | .invalidOpcode wait p q => Sys2Proof.Machine.execInvalidOpcode wait p q s
  | .lockGrant wait p => Sys2Proof.Machine.execLockGrant wait p s
  | .writeDataStaged wait p => Sys2Proof.Machine.execWriteDataStaged wait p s
  | .bind req t v => Sys2Proof.Machine.execBind req t v s
  | .dataReady req t v => Sys2Proof.Machine.execDataReady req t v s
  | .failEntry req t v => Sys2Proof.Machine.execFailEntry req t v s
  | .doneEntry req t v => Sys2Proof.Machine.execDoneEntry req t v s
  | .writeResolved wait p => Sys2Proof.Machine.execWriteResolved wait p s
  | .readTransferDone wait p => Sys2Proof.Machine.execReadTransferDone wait p s
  | .katoExpired wait p => Sys2Proof.Machine.execKatoExpired wait p s
  | .apstTransition wait p => Sys2Proof.Machine.execApstTransition wait p s
  | .psCurrentWrite req v => Sys2Proof.Machine.execPsCurrentWrite req v s
  | .ceLeak wait t => Sys2Proof.Machine.execCeLeak wait t s
  | .ceOvfClear req t v => Sys2Proof.Machine.execCeOvfClear req t v s
  | .logClr req t v => Sys2Proof.Machine.execLogClr req t v s
  | .dmaGo req t c v => Sys2Proof.Machine.execDmaGo req t c v s
  | .dmaStop req t c v => Sys2Proof.Machine.execDmaStop req t c v s
  | .dmaTransfer wait t => Sys2Proof.Machine.execDmaTransfer wait t s
  | .repairAdd req t v => Sys2Proof.Machine.execRepairAdd req t v s
  | .repairDel req t v => Sys2Proof.Machine.execRepairDel req t v s
  | .instructionFetch wait t c a => Sys2Proof.Machine.execInstructionFetch wait t c a s
  | .coreLoad wait t c a => Sys2Proof.Machine.execCoreLoad wait t c a s
  | .coreStore wait t c a => Sys2Proof.Machine.execCoreStore wait t c a s
  | .amo wait t c op a => Sys2Proof.Machine.execAmo wait t c op a s
  | .fence wait t c => Sys2Proof.Machine.execFence wait t c s
  | .fenceI wait t c => Sys2Proof.Machine.execFenceI wait t c s
  | .cacheFill wait t c k => Sys2Proof.Machine.execCacheFill wait t c k s
  | .prefetchFill wait t c k => Sys2Proof.Machine.execPrefetchFill wait t c k s
  | .storeDrain wait t c => Sys2Proof.Machine.execStoreDrain wait t c s
  | .timerInterrupt wait t c => Sys2Proof.Machine.execTimerInterrupt wait t c s
  | .dbSet req t c v => Sys2Proof.Machine.execDbSet req t c v s
  | .invGo req t c k v => Sys2Proof.Machine.execInvGo req t c k v s
  | .llGo req t c k v => Sys2Proof.Machine.execLlGo req t c k v s
  | .llDone wait t c k => Sys2Proof.Machine.execLlDone wait t c k s
  | .cacheEnWrite req t c k v => Sys2Proof.Machine.execCacheEnWrite req t c k v s
  | .flashRead req f v => Sys2Proof.Machine.execFlashRead req f v s
  | .flashProgram req f v => Sys2Proof.Machine.execFlashProgram req f v s
  | .flashErase req f v => Sys2Proof.Machine.execFlashErase req f v s
  | .flashVerify req f v => Sys2Proof.Machine.execFlashVerify req f v s
  | .flashOpComplete wait f ok => Sys2Proof.Machine.execFlashOpComplete wait f ok s
  | .flashTimeout wait f => Sys2Proof.Machine.execFlashTimeout wait f s
  | .add req v => Sys2Proof.Machine.execAdd req v s
  | .remove req v => Sys2Proof.Machine.execRemove req v s
  | .revokeFuse req v => Sys2Proof.Machine.execRevokeFuse req v s
  | .brAckWrite req v => Sys2Proof.Machine.execBrAckWrite req v s
  | .minSeqWrite req hi v => Sys2Proof.Machine.execMinSeqWrite req hi v s
  | .activeSlotWrite req v => Sys2Proof.Machine.execActiveSlotWrite req v s
  | .getVersion wait => Sys2Proof.Machine.execGetVersion wait s
  | .getCapabilities wait => Sys2Proof.Machine.execGetCapabilities wait s
  | .negotiateAlgorithms wait p384 sha384 => Sys2Proof.Machine.execNegotiateAlgorithms wait p384 sha384 s
  | .getDigests wait => Sys2Proof.Machine.execGetDigests wait s
  | .getCertificate wait slot offset length => Sys2Proof.Machine.execGetCertificate wait slot offset length s
  | .challenge wait slot nonce => Sys2Proof.Machine.execChallenge wait slot nonce s
  | .getMeasurements wait index signed nonce => Sys2Proof.Machine.execGetMeasurements wait index signed nonce s
  | .vendorDefinedRequest wait registry vendor payload => Sys2Proof.Machine.execVendorDefinedRequest wait registry vendor payload s
  | .smbusRead wait m n => Sys2Proof.Machine.execSmbusRead wait m n s
  | .smbusWrite wait m v => Sys2Proof.Machine.execSmbusWrite wait m v s
  | .alertResponse wait => Sys2Proof.Machine.execAlertResponse wait s
  | .smbusClockTimeout wait low => Sys2Proof.Machine.execSmbusClockTimeout wait low s
  | .leaseRenewal wait w => Sys2Proof.Machine.execLeaseRenewal wait w s
  | .leaseFlit wait w => Sys2Proof.Machine.execLeaseFlit wait w s
  | .renewLate wait w => Sys2Proof.Machine.execRenewLate wait w s
  | .leaseExpiry wait w => Sys2Proof.Machine.execLeaseExpiry wait w s
  | .handover req v => Sys2Proof.Machine.execHandover req v s
  | .handoverFlit wait w => Sys2Proof.Machine.execHandoverFlit wait w s
  | .claim req v => Sys2Proof.Machine.execClaim req v s
  | .unfreeze req v => Sys2Proof.Machine.execUnfreeze req v s
  | .authNop req v => Sys2Proof.Machine.execAuthNop req v s
  | .authReserved req v => Sys2Proof.Machine.execAuthReserved req v s
  | .warpFlitReceive wait t k rx => Sys2Proof.Machine.execWarpFlitReceive wait t k rx s
  | .warpLinkDown wait t k lost => Sys2Proof.Machine.execWarpLinkDown wait t k lost s
  | .warpLinkUp wait t k => Sys2Proof.Machine.execWarpLinkUp wait t k s
  | .rejoinComplete wait => Sys2Proof.Machine.execRejoinComplete wait s
  | .sensorSample wait t v => Sys2Proof.Machine.execSensorSample wait t v s
  | .sensorExclude wait t => Sys2Proof.Machine.execSensorExclude wait t s
  | .sensorReadmit wait t => Sys2Proof.Machine.execSensorReadmit wait t s
  | .stackTempRead wait t v => Sys2Proof.Machine.execStackTempRead wait t v s
  | .thermalTrip wait t => Sys2Proof.Machine.execThermalTrip wait t s
  | .heavyPowerOff wait t => Sys2Proof.Machine.execHeavyPowerOff wait t s
  | .thermalRestart wait t => Sys2Proof.Machine.execThermalRestart wait t s
  | .tripResume req t v => Sys2Proof.Machine.execTripResume req t v s
  | .throttleEvaluation wait t => Sys2Proof.Machine.execThrottleEvaluation wait t s
  | .registerWrite req a v => Sys2Proof.Machine.execRegisterWrite req a v s
  | .unmappedAccess req a v => Sys2Proof.Machine.execUnmappedAccess req a v s
  | .resetAccess req a v => Sys2Proof.Machine.execResetAccess req a v s
  | .tawDataRead req t => Sys2Proof.Machine.execTawDataRead req t s
  | .tawDataWrite req t v => Sys2Proof.Machine.execTawDataWrite req t v s
  | .pwrfailNRise wait => Sys2Proof.Machine.execPwrfailNRise wait s
  | .sysclkReturn wait => Sys2Proof.Machine.execSysclkReturn wait s
  | .slewEnd t => Sys2Proof.Machine.execSlewEnd t s
  | .timeHoldEnd t => Sys2Proof.Machine.execTimeHoldEnd t s
  | .boltDescriptorComplete wait t => Sys2Proof.Machine.execBoltDescriptorComplete wait t s
  | .lowerWordRead req a => Sys2Proof.Machine.execLowerWordRead req a s

end Sys2Proof.Machine
end

