-- ==== Sys2Proof/Safety.lean ====
section
/-! DEFINITION. The terms in which claims about runs are stated: what a command may never undo, what completing a
command means, and the parts of the state that a command leaves alone. -/

namespace Sys2Proof.Machine

/-- The fuses `b` are the fuses `a` with, at most, further revocation fuses blown (R382, R421, R423). -/
structure Fuses.Later (a b : Fuses) : Prop where
  keyDigests : b.keyDigests = a.keyDigests
  sparing : b.sparing = a.sparing
  revoked : ∀ k, a.revoked.testBit k = true → b.revoked.testBit k = true

/-- What the package keeps of its control inputs and clocks: all of its record but the alert line, the idle clock of
power management, and the writes of persistent fields in the present cycle. -/
def PkgSt.pins (x : PkgSt) : PkgSt := { x with alertN := true, idleSince := 0, persistNow := [] }

/-- The parts of the state, for saying which ones a command may change. -/
inductive Part where
  | time | free | heads | tiles | ports | sets | atria | flashes | boot | pkg | pins | fuses | smb | shadows
deriving DecidableEq, Repr

/-- Nothing changes from `s` to `t` but the parts of the list (pkg names the whole
record of the package, pins its control inputs alone); whatever the list, the queue stays, fuses stay blown and time
does not run back. -/
structure State.ChangesOnly (ps : List Part) (s t : State) : Prop where
  pending : t.pending = s.pending
  later : Fuses.Later s.fuses t.fuses
  notBack : s.cycle ≤ t.cycle
  time : Part.time ∉ ps → t.cycle = s.cycle ∧ t.turn = s.turn
  free : Part.free ∉ ps → t.freeCount = s.freeCount
  heads : Part.heads ∉ ps → t.heads = s.heads
  tiles : Part.tiles ∉ ps → t.tiles = s.tiles
  ports : Part.ports ∉ ps → t.ports = s.ports
  sets : Part.sets ∉ ps → t.sets = s.sets
  atria : Part.atria ∉ ps → t.atria = s.atria
  flashes : Part.flashes ∉ ps → t.flashes = s.flashes
  boot : Part.boot ∉ ps → t.boot = s.boot
  pkg : Part.pkg ∉ ps → t.pkg = s.pkg
  pins : Part.pins ∉ ps → t.pkg.pins = s.pkg.pins
  fuses : Part.fuses ∉ ps → t.fuses = s.fuses
  smb : Part.smb ∉ ps → t.smb = s.smb
  shadows : Part.shadows ∉ ps → t.shadows = s.shadows

/-- The command answers a next state, and `P` holds of it. -/
def Completes (i : Instr) (s : State) (P : State → Prop) : Prop := ∃ t, exec i s = .next t ∧ P t

/-- The command completes at head `h`: it leaves `u` with that head alone changed, and `P` holds of the head. -/
def CompletesHead (i : Instr) (s u : State) (h : Fin 32) (P : Head → Prop) : Prop :=
  ∃ y, exec i s = .next (u.setHead h y) ∧ P y

/-- The command completes at tile `t`: it leaves `u` with that tile's own part alone changed, and `P` holds of it. -/
def CompletesTile (i : Instr) (s u : State) (t : Fin 8) (P : Tile → Prop) : Prop :=
  ∃ y, exec i s = .next (u.setTile t y) ∧ P y

/-- The write by `q` of the word at offset `off` of head `h` has its turn in its CORE cycle (R512) and has reached the head:
the state with the packet sent (R23, R25) and no shadow of that word (R31), and otherwise as `s`. -/
def State.atHead (s : State) (q : Req) (h : Fin 32) (off : Nat) : State :=
  (s.turnTo 3).arrived q (.head h off) (headBase h + off)

/-- The same of a word of a tile. -/
def State.atTile (s : State) (q : Req) (t : Fin 8) (off : Nat) : State :=
  (s.turnTo 3).arrived q (.tile t off) (tileBase t + off)

/-- The same of a word of the package block. -/
def State.atPkg (s : State) (q : Req) (off : Nat) : State := (s.turnTo 3).arrived q (.pkg off) off

/-- Every register field of a head but the listed ones reads as before. -/
def Head.KeepsFields (x y : Head) (fs : List Fld) : Prop :=
  ∀ f ∈ headFields, (∀ g ∈ fs, f.key ≠ g.key) → y.r f = x.r f

/-- The RW fields of the word at offset `off` hold the written value (R4), but for those that an action of their own
changes. -/
def Head.Took (y : Head) (off : Nat) (v : Word) : Prop :=
  ∀ f ∈ fieldsIn headFields off, f.acc = .rw → headOwn f = false → y.r f = f.bits v.toNat

/-- Every register field of a tile but the listed ones reads as before. -/
def Tile.KeepsFields (x y : Tile) (fs : List Fld) : Prop :=
  ∀ f ∈ tileFields, (∀ g ∈ fs, f.key ≠ g.key) → y.r f = x.r f

/-- Every register field of a copy of the package block but the listed ones reads as before. -/
def Atrium.KeepsFields (x y : Atrium) (fs : List Fld) : Prop :=
  ∀ f ∈ pkgFields, (∀ g ∈ fs, f.key ≠ g.key) → y.r f = x.r f

/-- Every staging byte of a tile's stack but the `n` bytes from `a` up reads as before (R367). -/
def Tile.StackKept (x y : Tile) (a n : Nat) : Prop :=
  ∀ k, k < shadowBase → (k < a ∨ a + n ≤ k) → y.stack.read8 k = x.stack.read8 k

/-! ### Fields of a head that follow others

A change of the Landing's state leads the blocks of a head along (R206, R217, R234, R235, R280, R285): the parameter
bank, hold and write inhibit, the write channel, the calibration job, the trims, the loops and the drive. -/

/-- What follows any change of a head's requests. -/
def followFields : List Fld :=
  [LoopReg.BANK, LoopReg.HEAD_MODE, LoopReg.LAYER, LoopReg.ZONE, LoopReg.HOLD_ACTIVE, LoopReg.BANK_SWITCH,
   LoopReg.SWITCH_COUNT, LoopReg.INJ_EN, LandReg.HSTATE, LandReg.WRITE_INHIBIT, LandReg.STATE_CHANGE,
   LandReg.WRITE_INHIBITED, LandReg.HOLD_COUNT, LandReg.INHIBIT_COUNT, WriteReg.STATE, WriteReg.ABORTED, CalReg.BUSY,
   CalReg.RUNNING, CalReg.JSTATUS, CalReg.JOB_DONE, CalReg.JOB_FAIL] ++
  [0, 1].flatMap fun g =>
    [StepReg.GSTATE g, StepReg.HPHASE g, StepReg.TRIM_ACTIVE g, StepReg.END_CODE g, StepReg.MOVE_DONE g, StepReg.HOME_DONE g,
     StepReg.HOME_FAIL g, StepReg.A_FF g, StepReg.TRIM g]

/-- What switches the loops on and off and sets their references. -/
def loopFields : List Fld := (List.range 24).flatMap fun n => [LoopReg.ENABLE n, LoopReg.LOOP_REF n]

/-- What the drive's state changes. -/
def driveFields : List Fld :=
  [SpinReg.SSTATE, SpinReg.AT_SPEED, SpinReg.CATCH_RUN, SpinReg.SCODE, SpinReg.STATE_CHANGE, SpinReg.CATCH_FAILED]

/-- What follows a change of the Landing's state. -/
def stateFields : List Fld := followFields ++ loopFields ++ driveFields

/-- What follows where slot 1 stops as well. -/
def stopFields : List Fld := stateFields ++ [AngleReg.START, AngleReg.RUNNING]

/-- What follows where focus or tracking ends as well, and with it a head command. -/
def trackFields : List Fld :=
  stopFields ++ [LandReg.FSTAT, LandReg.TSTAT, LandReg.BAND_KNOWN, LandReg.LAST_CODE, LandReg.CMD_BUSY, LandReg.CMD_DONE,
    LandReg.CMD_FAIL]

/-- What the end of a write phase changes. -/
def modeFields : List Fld :=
  [LoopReg.BANK, LoopReg.HEAD_MODE, LoopReg.LAYER, LoopReg.ZONE, LoopReg.BANK_SWITCH, LoopReg.SWITCH_COUNT, LandReg.HSTATE,
   LandReg.STATE_CHANGE]

/-- What the end of a calibration job changes (R287, R291). -/
def calEndFields : List Fld :=
  [LoopReg.INJ_EN, CalReg.BUSY, CalReg.RUNNING, CalReg.JSTATUS, CalReg.JOB_FAIL, CalReg.JOB_DONE]

/-- What a Riser frame changes, good or bad: the speed band and what follows from a sample that it judges (R207). -/
def frameFields : List Fld :=
  stateFields ++ [LoopReg.SPEED_BAND, LandReg.LAST_CODE, LandReg.CMD_BUSY, LandReg.CMD_DONE, LandReg.CMD_FAIL, SpinReg.KE_VALID,
    SpinReg.PROBE_BAD, SpinReg.W_CMD]

/-- What the servo area of a good frame changes (R72, R203, R218, R262). -/
def servoFields : List Fld :=
  frameFields ++ trackFields ++
  [AngleReg.VALID, AngleReg.HOLDOVER, AngleReg.W, AngleReg.SKIP, AngleReg.SKIP_COUNT, RiserReg.CMD_REFUSED,
   RiserReg.SPARE_MISMATCH, RiserReg.WRITE_ABORTED, RiserReg.CMD_REFUSED_COUNT, WriteReg.STRAT_FAIL, LoopReg.K_V,
   LoopReg.KV_LIMIT, LandReg.INPUT_FAULT, SpinReg.STOPPED, SpinReg.MVALID, SpinReg.CHOP_BAD, SpinReg.KE_SIGN_OK,
   SpinReg.CATCH_DONE, SpinReg.KE_DONE, SpinReg.KE_OUT, SpinReg.KE_SIGN, SpinReg.ANGLE_FAULT, SpinReg.CHOP_FAULT,
   SpinReg.BRIDGE_FAULT, SpinReg.W_M, SpinReg.MOTOR_ANG, SpinReg.KE_RATIO, SpinReg.CATCH_COUNT, CalReg.TEMP_INVALID,
   CalReg.TEMP] ++
  [0, 1].flatMap fun g => [StepReg.ORG_VALID g, StepReg.ENC_VALID g, StepReg.ENC_FAULT g, StepReg.ORG_LATCHED g,
    StepReg.DEV g]

/-- The wait is over and a head's due entries have been read again: the state in which an event of a schedule is looked
for (R56, R57). -/
def State.atEvent (s : State) (wait : Nat) (h : Fin 32) : State := (s.pass wait).noteEntries h

/-- The next event of head `h` is `f`, of type `ty`, and `x` is the head with it taken (R57). -/
def State.Takes (u : State) (h : Fin 32) (ty : Nat) (f : Fire) (x : Head) : Prop :=
  (u.head h).inReset = false ∧ (u.head h).takeEvent (u.ctx h) ty = some (f, x)

/-- The entry of the event `f`, which head `h` takes, has been read: its correctable errors are counted and logged
(R378). -/
def State.entryRead (u : State) (h : Fin 32) (f : Fire) (x : Head) : State := u.noteSched h (x.firePlace f) 8

/-! ### Resets -/

/-- A reset of class `cls` leaves a field as it is (R6, R506): a persistent field, a ROS field except under a cold reset,
and a field of a broader class. -/
def Fld.keptBy (cls : RClass) (f : Fld) : Bool := f.persist || (f.acc = .ros && cls ≠ .cold) || !(cls.restores f.cls)

/-- What a field reads after a reset of class `cls`, where it read `v` before. -/
def Fld.after (cls : RClass) (f : Fld) (v : Nat) : Nat := if f.keptBy cls then v else f.reset

/-- A head of which a reset of class `cls` has restored the registers. -/
def Head.ResetBy (cls : RClass) (x y : Head) : Prop := ∀ f ∈ headFields, y.r f = f.after cls (x.r f)

/-- The same of a tile's own registers. -/
def Tile.ResetBy (cls : RClass) (x y : Tile) : Prop := ∀ f ∈ tileFields, y.r f = f.after cls (x.r f)

/-- The same of a copy of the package block. -/
def Atrium.ResetBy (cls : RClass) (x y : Atrium) : Prop := ∀ f ∈ pkgFields, y.r f = f.after cls (x.r f)

/-- A reset of class `cls` of the whole package leads from `u` to `t` (R7, R505, R506): every head and tile is held in
reset, every register is restored as its class says, package time stands and the boot has not begun. -/
structure State.ResetTo (cls : RClass) (u t : State) : Prop where
  heads : ∀ h, (t.head h).inReset = true ∧ (u.head h).ResetBy cls (t.head h)
  tiles : ∀ j, (t.tile j).inReset = true ∧ (t.tile j).timeOn = false ∧ (u.tile j).ResetBy cls (t.tile j)
  copies : ∀ w, (u.atrium w).ResetBy cls (t.atrium w)
  sets : ∀ n, t.aset n = ASet.reset
  frame : u.ChangesOnly [.free, .heads, .tiles, .ports, .sets, .atria, .flashes, .boot, .pkg, .pins, .smb, .shadows] t

/-! ### Hosts -/

/-- What a port shows of its state (R361, R364). -/
def pinFields : List Fld :=
  [0, 1].flatMap fun l => [PortReg.AEN_HELD l, PortReg.CONTROLLERS l, PortReg.READY l, PortReg.PRDY l]

/-- READY and PRDY_N of every port, and SMB_ALERT_N, stand as the state says (R361). -/
abbrev State.PinsShown (s : State) : Prop :=
  (∀ p : Fin 16, s.pb p PortReg.READY = s.portReady p ∧ s.pb p PortReg.PRDY = (s.portReady p && !s.attention p)) ∧
    s.pkg.alertN = decide (s.pr s.mainWing HostReg.ALERT_SRC &&& s.pr s.mainWing HostReg.ALERT_MASK = 0)

/-- From `u` to `y`, what every port shows may change, and beyond that the port `p` alone and the fields `fs` of its
tile. -/
abbrev State.PortKeeps (u y : State) (p : Fin 16) (fs : List Fld) : Prop :=
  (∀ j, (u.tile j).KeepsFields (y.tile j) (pinFields ++ if j = portTile p then fs else [])) ∧
    ∀ i, i ≠ p → y.port i = { u.port i with prdyRose := (y.port i).prdyRose }

/-- No command of a host waits for an event that the port brings about by itself: none waits in a queue or for room in a
lock unit, and none is a Flush. -/
abbrev State.HostQuiet (s : State) : Prop := ∀ p : Fin 16, (s.port p).held = 0 ∧ ∀ c ∈ (s.port p).cmds, c.isFlush = false

/-- Port `p` takes the capsule and fetches it at once (R332, R333, R348): its queue is connected, nothing else waits, a
command entry is free, and controllers and queues have numbers of their own. -/
abbrev State.Fetches (s : State) (p : Fin 16) (q : Capsule) : Prop :=
  s.accepts p q = true ∧ s.HostQuiet ∧ (s.port p).outstanding < 4096 ∧ ((s.port p).ctrls.map (·.idx)).Nodup ∧
    ∀ c ∈ (s.port p).ctrls, (c.queues.map (·.qid)).Nodup ∧ ∀ k ∈ c.queues, k.cls < 4

/-- The completion of a capsule: status code type, status code and DNR, DW0, DW1 and data. -/
def Capsule.completion (q : Capsule) (st : Nat × Nat × Bool) (dw0 dw1 : Nat) (data : List Byte) : HostCpl where
  ctrl := q.ctrl
  qid := q.qid
  cid := q.cid
  sct := st.1
  sc := st.2.1
  dnr := st.2.2
  dw0 := dw0
  dw1 := dw1
  data := data

/-- A controller with an error of a command in its log (R335). -/
def Ctrl.withError (c : Ctrl) (qid cid nsid lbn : Nat) (st : Nat × Nat × Bool) : Ctrl := { c with
  errCount := c.errCount + 1
  errors := (⟨c.errCount + 1, qid, cid, st.2.1 + st.1 * 256 + (if st.2.2 then 16384 else 0), nsid, lbn⟩ :: c.errors).take 64 }

/-- A fetch counts in CMD_COUNT (R364); beyond that and the fields `fs` the tiles stay, and of the port the commands with
it: `c` is its controller of the capsule afterwards, and its others stay. -/
abbrev State.FetchKeeps (u y : State) (p : Fin 16) (q : Capsule) (fs : List Fld) (c : Ctrl) : Prop :=
  y.pv p PortReg.CMD_COUNT = min (2 ^ 32 - 1) (u.pv p PortReg.CMD_COUNT + 1) ∧
    u.PortKeeps y p (PortReg.CMD_COUNT (p.val % 2) :: fs) ∧
    (y.port p).ctrls = (u.port p).ctrls.map (fun k => if k.idx = q.ctrl then c else k) ∧
    (y.port p).rx = (u.port p).rx ∧ (y.port p).rxLossy = (u.port p).rxLossy ∧ (y.port p).paused = (u.port p).paused

end Sys2Proof.Machine
end

