-- ==== Sys2Proof/Certificates/Slice0/Obligations.lean ====
section
/-! DEFINITION. The statements of the block's model for the provers: the queue, reset and invariants; and for every family of
commands what each one does where it completes, and what it leaves alone. -/

set_option linter.unusedVariables false

open Sys2Proof Sys2Proof.Machine

/-- The command at the front of the queue takes effect on the state with the queue's rest. -/
def Obligations.StepRunsFront : Prop :=
  ∀ (c : Instr) (rest : List Instr) (s : State),
    step { s with pending := c :: rest } = exec c { s with pending := rest }

/-- On an empty queue one CORE cycle passes and no other thing changes than time (the model's choice, log entry 1). -/
def Obligations.StepIdles : Prop :=
  ∀ s : State, s.pending = [] → ∃ t, step s = .next t ∧ t.cycle = s.cycle + 1 ∧ s.ChangesOnly [.time, .tiles] t ∧
    ∀ j : Fin 8, (t.tile j).regs = (s.tile j).regs ∧ (t.tile j).stack = (s.tile j).stack

/-- After reset no command waits, the power-on reset is held, every block is in reset, every register field reads its
reset value (R6), and no byte of a memory is listed. -/
def Obligations.ResetValues : Prop :=
  State.reset.pending = [] ∧ State.reset.pkg.porHeld = true ∧ State.reset.boot.phase = .held ∧
    (∀ (h : Fin 32) (f : Fld), (State.reset.head h).inReset = true ∧ (State.reset.head h).r f = f.reset) ∧
    (∀ (t : Fin 8) (f : Fld), (State.reset.tile t).inReset = true ∧ (State.reset.tile t).r f = f.reset ∧
      (State.reset.tile t).stack.cells = [] ∧ (State.reset.tile t).selv.words = []) ∧
    (∀ (w : Fin 2) (f : Fld), (State.reset.atrium w).r f = f.reset)

/-- Every command of the table completes, whatever the state. -/
def Obligations.EveryCommandCompletes : Prop := ∀ (i : Instr) (s : State), ∃ t, exec i s = .next t

/-- No step restores a revoked key or changes what else the fuses hold, none turns time back, and each takes from the
queue its front command alone (R382, R421, R423). -/
def Obligations.StepKeepsFusesQueueAndTime : Prop :=
  ∀ s t : State, step s = .next t →
    Fuses.Later s.fuses t.fuses ∧ s.cycle ≤ t.cycle ∧ t.pending = s.pending.tail

/-- The invariant that the last statement keeps, from reset on: the fuses are those of the part, with at most further
revocations. -/
def Obligations.FuseInvariantHolds : Prop :=
  (∀ s t : State, Fuses.Later State.reset.fuses s.fuses → step s = .next t → Fuses.Later State.reset.fuses t.fuses) ∧
    Fuses.Later State.reset.fuses State.reset.fuses

/-- The address of a head's register leads to that head, and the beam channel of a sampler lies 0x800 apart (R3). -/
def Obligations.HeadAddress : Prop :=
  (∀ (h : Fin 32) (sub off : Nat), sub + off < 0x80000 →
    placeOf (0x10000000 + h.val / 4 * 0x01000000 + 0x00400000 + h.val % 4 * 0x00080000 + sub + off) = .head h (sub + off)) ∧
  (∀ (h : Fin 32) (i : Fin 33) (off : Nat), off < 0x800 →
    placeOf (headBase h + 0x40000 + i.val * 0x800 + off) = .head h (0x40000 + 0x800 * i.val + off)) ∧
  (∀ h : Fin 32, headBase h = 0x10000000 + h.val / 4 * 0x01000000 + 0x00400000 + h.val % 4 * 0x00080000)

/-- The master of a wing's time (R37): tile 0 or 4 of the wing that holds the lease, of the wing itself during a split, and
of the holder again once a bridge has returned. -/
def Obligations.TimeMaster : Prop :=
  ∀ (s : State) (w holder : Fin 2), s.holds holder = true → s.holds (otherWing holder) = false →
    (s.split = false → s.masterOf w = atriumTile holder) ∧
    (s.split = true → s.rejoining = false → s.masterOf w = atriumTile w) ∧
    (s.split = true → s.rejoining = true → s.masterOf w = atriumTile holder)

/-- The modulation code of rate 32/33 (R107): the order of a word's channel bits, and no run longer than 33. -/
def Obligations.Modulation : Prop :=
  ∀ e : List Bool, 32 ∣ e.length → let z := (wordsOf (e.length / 32) e).flatMap modulate
    z.length = 33 * (e.length / 32) ∧
    (∀ j, 32 * j + 32 ≤ e.length →
      (∀ k, k < 16 → z[33 * j + k]? = e[32 * j + k]?) ∧
      z[33 * j + 16]? = e[32 * j + 15]?.map (!·) ∧
      (∀ k, k < 16 → z[33 * j + 17 + k]? = e[32 * j + 16 + k]?)) ∧
    (∀ i, i + 34 ≤ z.length → ∃ k, k < 33 ∧ z[i + k]? ≠ z[i + k + 1]?)

/-- The parity of a codeword (R142): block 0 is λ_0 and block j is λ_j XOR block j - 1, where bit x of λ_r sums the
information bits that the circulants of row r place on check row 512 r + x. -/
def Obligations.Parity : Prop :=
  ∀ t w : Nat, (parityOf t w).length = blockRows t ∧
    (parityOf t w)[0]? = some (lambda t w 0) ∧
    (∀ j, 0 < j → j < blockRows t → ∃ p, (parityOf t w)[j - 1]? = some p ∧
      (parityOf t w)[j]? = some (lambda t w j ^^^ p)) ∧
    (∀ r x, r < blockRows t → x < 512 → (lambda t w r).getLsbD x =
      ((List.range 513).flatMap fun c => [0, 1, 2].map fun i => decide (circRow (blockRows t) c i = r) &&
        w.testBit (512 * c + (x + circShift (blockRows t) c i) % 512)).foldl xor false)

/-- What holds the whole package in reset, and for which class; a further reset command is taken in by one that runs (R7, R10,
R483, R484, R496, R501). A reset that meets an append may find some of its writes done (R437; how many is the model's free
value, log entry 142). -/
def Obligations.PackageResets : Prop :=
  let begun : List BootPhase := [.append, .recordHeld]
  (∀ (s : State) (wait low : Nat), cyclesOfUs 2 ≤ low →
    Completes (.railUndervoltage wait low) s fun t => let u := (s.advance wait).turnTo 1
      State.ResetTo .cold u.interruptAppend t ∧ (u.boot.phase ∉ begun → State.ResetTo .cold u t) ∧ t.boot.phase = .held ∧
        t.pkg = { u.pkg with porHeld := true, warmHeld := false, alertN := true }) ∧
  (∀ (s : State) (wait : Nat), s.pkg.sysclk = true →
    Completes (.sysclkStop wait) s fun t => let u := (s.advance wait).turnTo 1
      State.ResetTo .cold u.interruptAppend t ∧ (u.boot.phase ∉ begun → State.ResetTo .cold u t) ∧ t.boot.phase = .held ∧
        t.pkg = { u.pkg with sysclk := false, warmHeld := false, alertN := true }) ∧
  (∀ (s : State) (wait low : Nat), s.pkg.rstN = true → s.pkg.porHeld = false → s.pkg.sysclk = true → cyclesPerUs ≤ low →
    Completes (.rstN wait low) s fun t => let u := (s.advance wait).turnTo 2
      State.ResetTo .warm u.interruptAppend t ∧ (u.boot.phase ∉ begun → State.ResetTo .warm u t) ∧ t.boot.phase = .held ∧
        t.pkg = { u.pkg with rstN := false, warmHeld := true, alertN := true }) ∧
  (∀ (s : State) (q : Req) (v : Word), s.accessOf q (.pkg 0x24) = .ok → v.toNat / 2 ^ 16 = 0x8512 →
    (s.atPkg q 0x24).allowed q = true →
    (s.boot.phase ∉ [.running, .mgmtOnly, .recordHeld] → exec (.warmRst q v) s = .next (s.atPkg q 0x24)) ∧
    (s.boot.phase ∈ [.running, .mgmtOnly, .recordHeld] → Completes (.warmRst q v) s fun t => t.boot.phase = .pll ∧ t.boot.warm = true ∧
      (∀ h, (t.head h).inReset = true ∧ (s.head h).ResetBy .warm (t.head h)) ∧
      (∀ j, (t.tile j).inReset = true ∧ (t.tile j).timeOn = false) ∧ ∀ n, t.aset n = ASet.reset))

/-- The control inputs and the clock: what leaves a reset of the package and begins its boot (R411, R483, R484, R496). -/
def Obligations.PinsAndClocks : Prop :=
  ∀ (s : State) (wait : Nat), let u := s.pass wait
    (∀ straps : Word, u.pkg.porHeld = true → u.pkg.rstN = true → u.pkg.pwrfailN = true → u.pkg.sysclk = true →
      exec (.powerOnResetRelease wait straps) s = .next { u with
        pkg := { u.pkg with porHeld := false, warmHeld := false }
        boot := { u.boot with straps := straps.toNat, phase := .pll } }) ∧
    (let v := (s.advance wait).turnTo 2;
      v.pkg.rstN = false → exec (.rstNRise wait) s = .next { v with
        pkg := { v.pkg with rstN := true, warmHeld := false }
        boot := if v.pkg.warmHeld then { v.boot with phase := .pll } else v.boot }) ∧
    (u.pkg.sysclk = false → u.pkg.porHeld = false → u.pkg.rstN = true →
      exec (.sysclkReturn wait) s = .next { u with
        pkg := { u.pkg with sysclk := true }, boot := { u.boot with phase := .pll } }) ∧
    (u.pkg.sysclk = false → u.pkg.porHeld = true →
      exec (.sysclkReturn wait) s = .next { u with pkg := { u.pkg with sysclk := true } }) ∧
    (u.pkg.sysclk = false → u.pkg.porHeld = false → u.pkg.rstN = false →
      exec (.sysclkReturn wait) s = .next { u with pkg := { u.pkg with sysclk := true, warmHeld := true } }) ∧
    (∀ h : Fin 32, (u.head h).inReset = false → (u.head h).up = true → Completes (.refclkStop wait) s fun t =>
      (t.head h).r RiserReg.STATE = 0 ∧ (t.head h).b RiserReg.LINK_DOWN = true ∧ (t.head h).r RiserReg.SAFE_CAUSE = 4 ∧
        (∀ k, (t.head k).r RiserReg.LANE_LOCK = 0) ∧ s.ChangesOnly [.time, .heads, .tiles, .ports, .atria, .pkg] t)

/-- The power-failure episode: its start, the stores' refusal, the pin's return and its end (R432, R471, R472). -/
def Obligations.PowerFailure : Prop :=
  ∀ (s : State) (wait : Nat), let u := s.pass wait
    (∀ low, let u := (s.advance wait).turnTo 2
      u.pkg.pwrfailN = true → 64 ≤ low → Completes (.pwrfail wait low) s fun t =>
      t.pkg = { u.pkg with
        pwrfailN := false, highSince := none
        failEdge := some (match u.pkg.failEdge with | some e => e | none => u.cycle - low) } ∧
      (∀ h : Fin 32, 3 ∈ (t.head h).riser.causes ∧ ((u.head h).inReset = false →
        (t.head h).r RiserReg.SAFE_CAUSE = 3 ∧ (t.head h).r LandReg.HSTATE ∈ [0, 10, 11])) ∧
      s.ChangesOnly [.time, .heads, .tiles, .atria, .pkg, .pins] t) ∧
    (∀ e, u.pkg.failEdge = some e → e + cyclesOfUs 10 ≤ u.cycle →
      Completes (.selvedgeWriteRefusal wait) s fun t => t.pkg.pins = { u.pkg with refusing := true }.pins ∧
        t.storeRefuses = true ∧ (u.boot.phase ∉ [.append, .recordHeld] → ∀ j, (t.tile j).selv = (u.tile j).selv) ∧
        s.ChangesOnly [.time, .free, .tiles, .ports, .atria, .pkg, .pins] t) ∧
    (let u := (s.advance wait).turnTo 2;
      u.pkg.pwrfailN = false → Completes (.pwrfailNRise wait) s fun t =>
      t.pkg = { u.pkg with pwrfailN := true, highSince := some u.cycle } ∧
      (∀ h : Fin 32, 3 ∉ (t.head h).riser.causes) ∧ s.ChangesOnly [.time, .heads, .tiles, .pkg, .pins] t) ∧
    (∀ e c, u.pkg.pwrfailN = true → u.pkg.failEdge = some e → u.pkg.highSince = some c → c + cyclesOfMs 1 ≤ u.cycle →
      Completes (.pwrfailEpisodeEnd wait) s fun t =>
        t.pkg.failEdge = none ∧ t.pkg.refusing = false ∧ t.storeRefuses = false ∧
          s.ChangesOnly [.time, .tiles, .ports, .sets, .atria, .pkg, .pins] t)

/-- Package time adds up: the wait of two commands is one wait, at every tile, whether its counter runs, slews or is held
(R36, R38). -/
def Obligations.TimeAddsUp : Prop :=
  ∀ (s : State) (m n : Nat), (s.advance m).advance n = s.advance (m + n)

/-- What a tile's counter does as `n` CORE cycles pass (R36, R38): a running one adds 10/16 ns a cycle, a slewing one 11/16
or 9/16 ns, a held one nothing; before the first sync flit none counts (R40). -/
def Obligations.CounterRates : Prop :=
  ∀ (s : State) (n : Nat) (j : Fin 8), let x := s.tile j; let y := (s.advance n).tile j
    y.regs = x.regs ∧ (x.timeOn = false → y = x) ∧
    (x.timeOn = true → x.holdLeft = 0 → x.slew = 0 → y.time16 = x.time16 + 10 * n ∧ y.slew = 0) ∧
    (x.timeOn = true → x.holdLeft = 0 → (n : Int) ≤ x.slew → y.time16 = x.time16 + 11 * n ∧ y.slew = x.slew - n) ∧
    (x.timeOn = true → x.holdLeft = 0 → x.slew ≤ -(n : Int) → y.time16 = x.time16 + 9 * n ∧ y.slew = x.slew + n) ∧
    (x.timeOn = true → n ≤ x.holdLeft → y.time16 = x.time16 ∧ y.holdLeft = x.holdLeft - n)

/-- A sync flit at a tile that applies it (R38, R40), with `e` the offset of the counter from T_sent + L. -/
def Obligations.SyncFlitArrives : Prop :=
  ∀ (s : State) (wait : Nat) (t : Fin 8) (sent ring bridge : Nat) (l : List (Nat × Nat × Nat)),
    let u := s.pass wait; let x := u.tile t; let at16 := sent + (8 * ring + 12 * bridge + 6) * 16
    let e : Int := (at16 : Int) - x.time16
    x.syncIn = (sent, ring, bridge) :: l →
      ((u.masterOf (wingOf t) = t ∨ u.asleep t = true) →
        exec (.syncFlitReceive wait t) s = .next (u.setTile t { x with syncIn := l })) ∧
      (u.masterOf (wingOf t) ≠ t → u.asleep t = false →
        CompletesTile (.syncFlitReceive wait t) s u t fun y =>
          y.syncIn = l ∧ y.lastSync = some u.cycle ∧ y.timeOn = true ∧ y.b TimeReg.TIME_VALID = true ∧
          y.ri TimeReg.LAST_E = max (-32768) (min 32767 e) ∧
          (x.timeOn = false → y.time16 = at16) ∧
          (x.timeOn = true → 1024 < e → y.time16 = at16 ∧ y.b TimeReg.TIME_STEP = true) ∧
          (x.timeOn = true → e < -1024 → y.time16 = x.time16 ∧ y.b TimeReg.TIME_HOLD = true ∧
            e + 16 + 10 * y.holdLeft ∈ List.map Int.ofNat (List.range 10)) ∧
          (x.timeOn = true → x.holdLeft = 0 → -1024 ≤ e → e ≤ 1024 → e < -16 ∨ 16 < e →
            y.time16 = x.time16 ∧ y.slew = e ∧ y.holdLeft = 0) ∧
          (x.timeOn = true → -16 ≤ e → e ≤ 16 → y.time16 = x.time16 ∧ y.slew = x.slew ∧ y.holdLeft = 0) ∧
          x.KeepsFields y [TimeReg.LAST_E, TimeReg.TIME_VALID, TimeReg.TIME_STEP, TimeReg.TIME_HOLD])

/-- The sending of sync flits, the loss of sync, and the end of a slew and of a hold (R37, R38, R43). -/
def Obligations.SyncFlitsLeave : Prop :=
  ∀ (s : State) (wait : Nat), let u := s.pass wait
    (∀ w : Fin 2, let m := atriumTile w
      u.masterOf w = m → (u.tile m).timeOn = true → u.asleep m = false →
      (∀ c, (u.atrium w).lastSync = some c → c + 1600 ≤ u.cycle) →
      Completes (.syncFlitSend wait w) s fun t =>
        (t.atrium w).lastSync = some u.cycle ∧
        (∀ j, (t.tile j).syncIn = (u.tile j).syncIn ++
          (match u.route m j with
            | none => []
            | some p => if j ∈ u.syncTiles w m then [(u.t16 m, (hops m p.1).1, (hops m p.1).2)] else [])) ∧
        (∀ j, j ≠ m → (t.tile j).regs = (u.tile j).regs) ∧
        (u.tile m).KeepsFields (t.tile m)
          ([0, 1, 2].flatMap fun k => [LinkReg.REROUTED k, LinkReg.ROUTE_FAIL k]) ∧
        s.ChangesOnly [.time, .tiles, .atria] t) ∧
    (∀ t : Fin 8, u.masterOf (wingOf t) ≠ t → u.tileEnabled t = true → u.asleep t = false →
      u.boot.phase ∉ [.held, .pll, .tiles] → (u.tile t).syncFrom + 12800 ≤ u.cycle →
      (∀ c, (u.tile t).lastSync = some c → c + 12800 ≤ u.cycle) → exec (.syncLost wait t) s = .next (u.setTile t ((u.tile t).flag TimeReg.SYNC_LOST))) ∧
    (∀ t : Fin 8, let n := (s.tile t).slew.natAbs
      (s.tile t).timeOn = true → (s.tile t).holdLeft = 0 →
      exec (.slewEnd t) s = .next (s.advance n) ∧ ((s.advance n).tile t).slew = 0 ∧
        (((s.advance n).tile t).time16 : Int) = (s.tile t).time16 + 10 * n + (s.tile t).slew) ∧
    (∀ t : Fin 8, let n := (s.tile t).holdLeft
      (s.tile t).timeOn = true →
      exec (.timeHoldEnd t) s = .next (s.advance n) ∧ ((s.advance n).tile t).holdLeft = 0 ∧
        ((s.advance n).tile t).time16 = (s.tile t).time16)

/-- Holdover, the loss of the angle, and a change of source at a frame boundary (R48, R50, R51). -/
def Obligations.AngleSourceEvents : Prop :=
  ∀ (s : State) (wait : Nat) (h : Fin 32), let u := s.pass wait; let x := u.head h; let c := u.ctx h
    x.inReset = false →
      (x.b AngleReg.VIRTUAL = false → x.angle.lost = false → x.b AngleReg.HOLDOVER = false →
        8 ≤ x.angle.missing ∨ x.angle.arrived + 12800 ≤ c.now →
        CompletesHead (.holdover wait h) s u h fun y =>
          y.b AngleReg.HOLDOVER = true ∧ y.b AngleReg.HOLDOVER_ENTERED = true ∧ y.angle.holdSince = c.cyc ∧
          y.b LandReg.WRITE_INHIBIT = true ∧
          (∀ d, x.write.desc = some d → x.write.aborted = false → x.write.refused = false →
            y.write.aborted = true ∧ y.write.cause = 4 ∧ y.write.gates = []) ∧
          x.KeepsFields y ([AngleReg.HOLDOVER, AngleReg.HOLDOVER_ENTERED] ++ followFields)) ∧
      (x.b AngleReg.HOLDOVER = true →
        x.angle.holdSince + cyclesOfUs (atLeast1 (x.r AngleReg.HOLD_LIMIT)) ≤ c.cyc →
        CompletesHead (.angleLost wait h) s u h fun y =>
          y.b AngleReg.VALID = false ∧ y.b AngleReg.HOLDOVER = false ∧ y.b AngleReg.ANGLE_LOST = true ∧
          y.b AngleReg.RUNNING = false ∧ y.b AngleReg.START = false ∧ y.angle.slot0.running = false ∧
          y.angle.slot1.running = false ∧ (x.tracking = true → y.r LandReg.HSTATE = 4) ∧
          x.KeepsFields y ([AngleReg.VALID, AngleReg.HOLDOVER, AngleReg.ANGLE_LOST] ++ trackFields)) ∧
      (c.now % 1600 < 10 → x.r AngleReg.ASRC = 1 ∨ (x.r AngleReg.ASRC ≠ 2 ∧ x.b SpinReg.STOPPED = true) →
        CompletesHead (.angleSourceChange wait h) s u h fun y =>
          y.b AngleReg.VIRTUAL = true ∧ y.ri AngleReg.W = x.ri AngleReg.VRATE ∧
          y.b AngleReg.VALID = u.timeValid (tileOf h) ∧ y.b AngleReg.HOLDOVER = false ∧
          y.angle.pos = x.posAt c.now ∧ y.angle.tPrev = c.now ∧
          x.KeepsFields y [AngleReg.VIRTUAL, AngleReg.W, AngleReg.VALID, AngleReg.HOLDOVER, LoopReg.SPEED_BAND, LoopReg.BANK,
            LoopReg.LAYER, LoopReg.ZONE, LoopReg.BANK_SWITCH, LoopReg.SWITCH_COUNT, LandReg.WRITE_INHIBIT,
            LandReg.WRITE_INHIBITED, LandReg.INHIBIT_COUNT]) ∧
      (c.now % 1600 < 10 → x.r AngleReg.ASRC = 2 ∨ (x.r AngleReg.ASRC ≠ 1 ∧ x.b SpinReg.STOPPED = false) →
        x.b AngleReg.VIRTUAL = true →
        CompletesHead (.angleSourceChange wait h) s u h fun y =>
          y.b AngleReg.VIRTUAL = false ∧ y.b AngleReg.VALID = false ∧ y.angle.pos = x.posAt c.now ∧
          y.angle.srcSamples = 0 ∧ x.KeepsFields y [AngleReg.VIRTUAL, AngleReg.VALID, LandReg.WRITE_INHIBIT, LandReg.WRITE_INHIBITED,
            LandReg.INHIBIT_COUNT])

/-- Index crossings (R52, R56, R57, R59): a START that nothing holds back is served, and slot 0 restarts. -/
def Obligations.IndexCrossings : Prop :=
  ∀ (s : State) (wait : Nat) (h : Fin 32), let u := s.pass wait; let x := u.head h; let c := u.ctx h
    let turn := x.posAt c.now / rev48
    x.inReset = false → 0 < x.omega → x.angle.turn < turn → x.angle.lost = false →
      (x.b AngleReg.VALID = false ∨ u.timeValid (tileOf h) = false →
        exec (.indexCrossing wait h) s = .next (u.setHead h { x with angle := { x.angle with turn := turn } })) ∧
      (x.b AngleReg.VALID = true → u.timeValid (tileOf h) = true → x.b AngleReg.START = false →
        x.angle.slot0Wait = false → x.angle.restart1 = false →
        CompletesHead (.indexCrossing wait h) s u h fun y =>
          y.angle.turn = turn ∧ y.angle.slot0 = { x.angle.slot0 with startTurn := turn, done := [], ended := false } ∧
          y.angle.slot1 = x.angle.slot1 ∧ x.KeepsFields y [AngleReg.SKIP, AngleReg.SKIP_COUNT]) ∧
      (x.b AngleReg.VALID = true → u.timeValid (tileOf h) = true → x.b AngleReg.START = true → x.startOk = true →
        u.startPaused h = false → u.startAdmitted h = true → x.schedOk (x.r AngleReg.SCHED) = true →
        Completes (.indexCrossing wait h) s fun t => let y := t.head h
          y.b AngleReg.START = false ∧ y.b AngleReg.RUNNING = true ∧
          y.r LandReg.HSTATE = (if x.b LandReg.S1_KIND then 9 else 7) ∧
          y.angle.slot1 = { running := true, sched := x.r AngleReg.SCHED, startTurn := turn, done := [], ended := false } ∧
          x.KeepsFields y ([AngleReg.SKIP, AngleReg.SKIP_COUNT, AngleReg.ORDER] ++ stopFields) ∧
          (∀ k, k ≠ h → t.head k = u.head k) ∧ s.ChangesOnly [.time, .heads, .tiles, .atria] t)

/-- The words that steer the angle base (R46, R49, R50, R62): alignment, DISC_OFFSET, VRATE, ASRC and the spare's switch. -/
def Obligations.AngleRegisters : Prop :=
  ∀ (s : State) (q : Req) (h : Fin 32) (v : Word), let x := s.head h
    (s.accessOf q (.head h 0x10004) = .ok →
      CompletesHead (.align q h v) s (s.atHead q h 0x10004) h (fun y =>
        y.Took 0x10004 v ∧ y.b AngleReg.ALIGN = (if x.b AngleReg.RUNNING then x.b AngleReg.ALIGN else true) ∧
        y.b AngleReg.ALIGN_REFUSED = (x.b AngleReg.RUNNING || x.b AngleReg.ALIGN_REFUSED) ∧
        x.KeepsFields y (fieldsIn headFields 0x10004 ++ [AngleReg.ALIGN_REFUSED])) ∧
      (v.toNat.testBit 2 = false → CompletesHead (.asrcWrite q h v) s (s.atHead q h 0x10004) h fun y =>
        y.Took 0x10004 v ∧ y.b AngleReg.ALIGN = x.b AngleReg.ALIGN ∧
        x.KeepsFields y (fieldsIn headFields 0x10004))) ∧
    (s.accessOf q (.head h 0x10008) = .ok →
      CompletesHead (.discOffsetWrite q h v) s (s.atHead q h 0x10008) h fun y =>
        y.r AngleReg.DISC_OFFSET = v.toNat % 2 ^ 24 ∧ y.angle.tPrev = x.angle.tPrev ∧
        y.angle.pos = (if x.b AngleReg.VIRTUAL then x.angle.pos
          else x.angle.pos + wrap24 ((v.toNat % 2 ^ 24 : Nat) - (x.r AngleReg.DISC_OFFSET : Int)) * 2 ^ 24) ∧
        x.KeepsFields y [AngleReg.DISC_OFFSET, AngleReg.SKIP, AngleReg.SKIP_COUNT]) ∧
    (s.accessOf q (.head h 0x1000C) = .ok →
      CompletesHead (.vrateWrite q h v) s (s.atHead q h 0x1000C) h fun y =>
        y.r AngleReg.VRATE = v.toNat ∧ y.angle = x.angle ∧ x.KeepsFields y [AngleReg.VRATE]) ∧
    (s.accessOf q (.head h 0x1002C) = .ok → let now := ((s.atHead q h 0x1002C).ctx h).now
      CompletesHead (.spareArm q h v) s (s.atHead q h 0x1002C) h fun y =>
        let want := if v.toNat % 64 < 32 then some (v.toNat % 64) else none
        y.r AngleReg.SPARE_K = v.toNat % 64 ∧
        (want = x.coveredNow → x.switchTe ≤ now → y.b AngleReg.SPARE_ARM = false ∧ y.b AngleReg.SPARE_DONE = true ∧
          y.angle.spare = none) ∧
        (want = x.coveredNow → now < x.switchTe → y.b AngleReg.SPARE_ARM = true ∧
          y.b AngleReg.SPARE_DONE = x.b AngleReg.SPARE_DONE ∧
          y.angle.spare = some { release := none, cover := none, notBefore := x.switchTe }) ∧
        (want ≠ x.coveredNow → y.b AngleReg.SPARE_ARM = true ∧
          y.angle.spare = some { release := x.coveredNow, cover := want, notBefore := x.switchTe }) ∧
        x.KeepsFields y [AngleReg.SPARE_K, AngleReg.SPARE_ARM, AngleReg.SPARE_DONE])

/-- The words that steer the schedules (R52, R56, R217, R236): START, STOP and SLOT0_SCHED. -/
def Obligations.SlotRegisters : Prop :=
  ∀ (s : State) (q : Req) (h : Fin 32) (v : Word), let x := s.head h; let u := s.atHead q h 0x10028
    s.accessOf q (.head h 0x10028) = .ok →
      (v.toNat.testBit 7 = false → CompletesHead (.start q h v) s u h fun y =>
        y.Took 0x10028 v ∧ y.r AngleReg.SLOT0_SCHED = v.toNat / 2 ^ 16 % 64 ∧
        (x.r LandReg.HSTATE = 6 ∨ (x.r LandReg.HSTATE = 1 ∧ x.b LandReg.S1_KIND = true) → y.b AngleReg.START = true ∧
          y.b LandReg.START_REFUSED = x.b LandReg.START_REFUSED) ∧
        (¬ (x.r LandReg.HSTATE = 6 ∨ (x.r LandReg.HSTATE = 1 ∧ x.b LandReg.S1_KIND = true)) →
          y.b AngleReg.START = false ∧ y.b LandReg.START_REFUSED = true) ∧
        x.KeepsFields y [AngleReg.SCHED, AngleReg.SLOT0_SCHED, AngleReg.START, LandReg.START_REFUSED]) ∧
      (v.toNat.testBit 6 = false → CompletesHead (.stop q h v) s u h fun y =>
        y.b AngleReg.RUNNING = false ∧ y.b AngleReg.START = false ∧ y.angle.slot1.running = false ∧
        (x.r LandReg.HSTATE = 7 ∨ x.r LandReg.HSTATE = 8 → y.r LandReg.HSTATE = 6) ∧
        (x.r LandReg.HSTATE ∉ [7, 8, 9] → y.r LandReg.HSTATE = x.r LandReg.HSTATE) ∧
        (x.r LandReg.HSTATE = 9 → x.land.origin < 8 → y.r LandReg.HSTATE = x.land.origin) ∧
        x.KeepsFields y ([AngleReg.SCHED, AngleReg.SLOT0_SCHED] ++ stopFields)) ∧
      (v.toNat.testBit 6 = false → v.toNat.testBit 7 = false → CompletesHead (.slot0SchedWrite q h v) s u h fun y =>
        y.r AngleReg.SCHED = v.toNat % 64 ∧ y.r AngleReg.SLOT0_SCHED = v.toNat / 2 ^ 16 % 64 ∧
        y.angle.slot0Wait = (x.angle.slot0Wait || v.toNat / 2 ^ 16 % 64 != x.r AngleReg.SLOT0_SCHED) ∧
        y.angle.slot0 = x.angle.slot0 ∧ x.KeepsFields y [AngleReg.SCHED, AngleReg.SLOT0_SCHED])

/-- Which event of the schedules fires (R55 to R57): of those that the position has reached, the one due first, then slot
0's, then in table order, then in beam order; it is done with for the run, and counted where it is late. -/
def Obligations.FirstDueEventFires : Prop :=
  ∀ (u : State) (h : Fin 32) (ty : Nat) (f : Fire) (x : Head), u.Takes h ty f x →
    let c := u.ctx h; let z := (u.head h).dropBad c; let l := z.waiting c 0 ++ z.waiting c 1
    f.type = ty ∧ 0 < z.omega ∧ f ∈ l ∧ z.reached c f = true ∧
      (∀ g ∈ l, z.reached c g = true → f.due < g.due ∨ (f.due = g.due ∧ (f.slot < g.slot ∨
        (f.slot = g.slot ∧ (f.index < g.index ∨ (f.index = g.index ∧ f.target ≤ g.target)))))) ∧
      (f.index, f.target) ∈ (x.slotOf f.slot).done ∧
      (c.cyc ≤ f.due + 2 → x.regs = z.regs) ∧
      (f.due + 2 < c.cyc → x.b AngleReg.LATE = true ∧ x.r AngleReg.LATE_COUNT = min 65535 (z.r AngleReg.LATE_COUNT + 1) ∧
        z.KeepsFields x [AngleReg.LATE, AngleReg.LATE_COUNT, AngleReg.LATE_MAX])

/-- The events of a schedule that go to the beam channels (R54, R55, R60, R61): each waits in the channel of its target, or
of every beam position, with its crossing time; a ZONE_SELECT selects the spot offsets, and for all positions it reaches the
loops' region too. -/
def Obligations.BeamEvents : Prop :=
  ∀ (s : State) (wait : Nat) (h : Fin 32) (f : Fire) (x : Head), let u := s.atEvent wait h; let v := u.entryRead h f x
    let hit (i : Fin 33) : Prop := f.target = i.val ∨ (32 < f.target ∧ i.val < 32)
    let queued (y : Head) : Prop := ∀ i : Fin 33,
      (hit i → (y.beam i).events
        = (x.beam i).events ++ [{ kind := f.type, arg := f.arg, te := f.te, w := x.omega }]) ∧
      (¬ hit i → y.beam i = x.beam i)
    (∀ i, hit i → (x.beam i).events.length < 64) →
      (u.Takes h 1 f x → CompletesHead (.sectorGateOpen wait h) s v h fun y => queued y ∧ y.regs = x.regs) ∧
      (u.Takes h 2 f x → CompletesHead (.sectorGateClose wait h) s v h fun y => queued y ∧ y.regs = x.regs) ∧
      (u.Takes h 7 f x → CompletesHead (.resyncExpect wait h) s v h fun y => queued y ∧ y.regs = x.regs) ∧
      (u.Takes h 0x0C f x → CompletesHead (.retain wait h) s v h fun y => queued y ∧ y.regs = x.regs) ∧
      (u.Takes h 0x0D f x → CompletesHead (.zoneSelect wait h) s v h fun y => queued y ∧
        y.angle.layer = f.arg % 16 ∧ y.angle.zone = f.arg / 16 % 16 ∧
        (¬ (f.target = 34 ∨ (f.whole = true ∧ f.target = 0)) → y.regs = x.regs) ∧
        (f.target = 34 ∨ (f.whole = true ∧ f.target = 0) →
          (x.b LoopReg.LZ_OVR = false → y.r LoopReg.LAYER = f.arg % 16 ∧ y.r LoopReg.ZONE = f.arg / 16 % 16) ∧
          y.r LoopReg.BANK = y.bankNow ∧
          x.KeepsFields y [LoopReg.LAYER, LoopReg.ZONE, LoopReg.BANK, LoopReg.BANK_SWITCH, LoopReg.SWITCH_COUNT]))

/-- The events of a schedule that act in the head at once (R54, R57, R62, R221, R222). -/
def Obligations.ScheduleEvents : Prop :=
  ∀ (s : State) (wait : Nat) (h : Fin 32) (f : Fire) (x : Head), let u := s.atEvent wait h; let v := u.entryRead h f x
    (u.Takes h 0 f x → exec (.nop wait h) s = .next (v.setHead h x)) ∧
    (u.Takes h 0x0E f x → exec (.mark wait h) s = .next (v.setHead h { x with
      angle := { x.angle with markTag := f.arg, markTime := f.te, markPend := true } })) ∧
    (u.Takes h 5 f x → exec (.wedgeWindowOpen wait h) s = .next (v.setHead h { x with land := { x.land with
      winOpen := some { openTe := f.te, closeTe := 0, num := f.arg % 256, bad := false, ovf := false } } })) ∧
    (∀ w, u.Takes h 6 f x → x.land.winOpen = some w →
      exec (.wedgeWindowClose wait h) s = .next (v.setHead h { x with land := { x.land with
        winOpen := none, winClose := some { w with closeTe := f.te } } })) ∧
    (u.Takes h 0x0F f x →
      let rev := bitsOf (x.entry ((x.schedDir (x.slotOf f.slot).sched).1 + f.index)) 27 24
      CompletesHead (.revCheck wait h) s v h fun y =>
        (x.angle.turn - (x.slotOf f.slot).startTurn = (rev : Int) → y = x) ∧
        (x.angle.turn - (x.slotOf f.slot).startTurn ≠ (rev : Int) → y.b AngleReg.SKIP = true ∧
          y.r AngleReg.SKIP_COUNT = min 65535 (x.r AngleReg.SKIP_COUNT + 1) ∧
          x.KeepsFields y [AngleReg.SKIP, AngleReg.SKIP_COUNT])) ∧
    (u.Takes h 0x10 f x → CompletesHead (.endEvent wait h) s v h fun y =>
      (f.slot = 0 → y = { x with angle := { x.angle with slot0 := { x.angle.slot0 with ended := true } } }) ∧
      (f.slot ≠ 0 → f.arg % 2 = 1 → y = { x with angle := { x.angle with restart1 := true } }) ∧
      (f.slot ≠ 0 → f.arg % 2 = 0 → y.b AngleReg.RUNNING = false ∧ y.b AngleReg.START = false ∧
        y.angle.slot1.running = false ∧
        (x.r LandReg.HSTATE = 7 ∨ x.r LandReg.HSTATE = 8 → y.r LandReg.HSTATE = 6) ∧
        (x.r LandReg.HSTATE = 9 → x.land.origin < 8 → y.r LandReg.HSTATE = x.land.origin) ∧
        x.KeepsFields y stopFields)) ∧
    (∀ k n, u.Takes h 0x0B f x → x.angle.spare = some { release := some f.target, cover := k, notBefore := n } →
      CompletesHead (.sparePoint wait h) s v h fun y =>
        y.angle.spare = some { release := none, cover := k, notBefore := f.te.toNat } ∧
        y.angle.covers = (f.te.toNat, none) :: x.angle.covers ∧ y.regs = x.regs) ∧
    (∀ n, u.Takes h 0x0B f x → x.angle.spare = some { release := none, cover := some f.target, notBefore := n } →
      n ≤ (u.ctx h).now → CompletesHead (.sparePoint wait h) s v h fun y =>
        y.angle.spare = some { release := none, cover := none, notBefore := f.te.toNat } ∧
        y.angle.covers = (f.te.toNat, some f.target) :: x.angle.covers ∧ y.regs = x.regs)

/-- The states of training (R64, R65, R78, R79): what takes a link from SILENT to UP, what the device sends in it, and what
fails it. -/
def Obligations.LinkTraining : Prop :=
  ∀ (s : State) (wait : Nat) (h : Fin 32), let u := s.pass wait; let x := u.head h; let c := u.ctx h
    let goes (st : Nat) (y : Head) : Prop := y.r RiserReg.STATE = st ∧ y.riser.stateSince = c.cyc
    let fails (code : Nat) (y : Head) : Prop := goes 7 y ∧ y.r RiserReg.FAIL_CODE = code
    let sends (y : Head) (p : BitVec 256 → Prop) : Prop := ∃ b, y.riser.train = some b ∧ b.toNat % 256 = 0x87 ∧ p b
    let tallied (n : RxTally) (y : Head) : Prop :=
      y.r RiserReg.FEC_CORR = min (2 ^ 32 - 1) (x.r RiserReg.FEC_CORR + n.corrected) ∧
        y.r RiserReg.FEC_UNCORR = min 65535 (x.r RiserReg.FEC_UNCORR + n.uncorrectable)
    u.live h = true →
      (x.r RiserReg.STATE = 1 → x.riser.stateSince + cyclesOfUs 10 ≤ c.cyc →
        CompletesHead (.silentElapsed wait h) s u h fun y => goes 2 y ∧ x.KeepsFields y [RiserReg.STATE]) ∧
      (∀ lanes, x.r RiserReg.STATE = 2 → x.riser.stateSince + x.lockTime ≤ c.cyc →
        CompletesHead (.lockElapsed wait h lanes) s u h fun y => y.r RiserReg.LANE_LOCK = lanes % 4096 ∧
          (lanes % 4096 = 4095 → goes 3 y ∧ sends y fun b => trainState b = 3 ∧ trainLocks b = 4095) ∧
          (lanes % 4096 ≠ 4095 → fails 1 y) ∧
          x.KeepsFields y [RiserReg.STATE, RiserReg.LANE_LOCK, RiserReg.FAIL_CODE]) ∧
      (∀ l : LineRx, let r := x.riser.rx.take l.items
        let found := x.riser.aligned = true ∨ l.allMarked = true
        let near := if l.allMarked then l.skew ≤ 512 else x.riser.skewed = false
        x.r RiserReg.STATE = 3 → CompletesHead (.trainingBlock wait h l) s u h fun y =>
          let stays := y.r RiserReg.STATE = 3 ∧ y.riser.stateSince = x.riser.stateSince
          (l.laneOrder = true → fails 8 y) ∧
          (l.laneOrder = false → r.1.training = none → stays) ∧
          (∀ b, l.laneOrder = false → r.1.training = some b →
            (trainLocks b ≠ 4095 → fails 1 y) ∧
            (trainLocks b = 4095 → found → near → r.2.uncorrectable = 0 → 3 ≤ trainState b → goes 4 y ∧
              y.riser.request = some c.now ∧ sends y fun t => trainState t = 4 ∧ trainT1 t = c.now % 2 ^ 64) ∧
            (trainLocks b = 4095 → ¬ (found ∧ near ∧ r.2.uncorrectable = 0 ∧ 3 ≤ trainState b) → stays)) ∧
          tallied r.2 y ∧ x.KeepsFields y [RiserReg.STATE, RiserReg.FAIL_CODE, RiserReg.FEC_CORR, RiserReg.FEC_UNCORR]) ∧
      (∀ l : LineRx, let r := x.riser.rx.take l.items
        x.r RiserReg.STATE = 4 → CompletesHead (.trainingBlock wait h l) s u h fun y =>
          (∀ b, r.1.training = some b → x.riser.request.map (· % 2 ^ 64) = some (trainT1 b) →
            y.r RiserReg.HE_TYPE = bitsOf b.toNat 127 112 ∧ y.r RiserReg.HE_VERSION = bitsOf b.toNat 143 128 ∧
            y.riser.heRxProc = bitsOf b.toNat 159 144 ∧ y.riser.echoes = x.riser.echoes + 1 ∧
            y.riser.dMax = max x.riser.dMax ((c.now + 2 ^ 64 - trainT1 b) % 2 ^ 64 - trainTurn b) ∧
            y.riser.request = (if x.riser.echoes < 63 then some c.now else none)) ∧
          ((r.1.training.any fun b => x.riser.request.map (· % 2 ^ 64) == some (trainT1 b)) = false →
            y.riser.echoes = x.riser.echoes ∧ y.riser.dMax = x.riser.dMax ∧ y.riser.request = x.riser.request ∧
            x.KeepsFields y [RiserReg.FEC_CORR, RiserReg.FEC_UNCORR]) ∧
          tallied r.2 y ∧
          x.KeepsFields y [RiserReg.HE_TYPE, RiserReg.HE_VERSION, RiserReg.FEC_CORR, RiserReg.FEC_UNCORR]) ∧
      (x.r RiserReg.STATE = 3 → x.riser.stateSince + cyclesOfMs 1 ≤ c.cyc →
        CompletesHead (.alignTimeout wait h) s u h fun y => fails (if x.riser.skewed then 3 else 2) y ∧
          x.KeepsFields y [RiserReg.STATE, RiserReg.FAIL_CODE]) ∧
      (x.r RiserReg.STATE = 4 → 64 ≤ x.riser.echoes →
        CompletesHead (.measureDone wait h) s u h fun y => let lat := latDown x.riser.dMax x.riser.heRxProc
          (x.r RiserReg.HE_VERSION ≠ 1 → fails 7 y) ∧ (x.r RiserReg.HE_VERSION = 1 → 4000 < lat → fails 5 y) ∧
          (x.r RiserReg.HE_VERSION = 1 → lat ≤ 4000 → goes 5 y ∧ y.r RiserReg.LAT_DN = lat ∧
            y.r RiserReg.RTT_D = x.riser.dMax / 2 % 2 ^ 16 ∧ sends y fun b =>
              bitsOf b.toNat 191 176 = (Config.devTx.val + x.riser.dMax / 2) % 2 ^ 16 ∧
              bitsOf b.toNat 207 192 = (16 * lat + 9) / 10) ∧
          x.KeepsFields y [RiserReg.STATE, RiserReg.FAIL_CODE, RiserReg.LAT_DN, RiserReg.RTT_D]) ∧
      (x.r RiserReg.STATE = 4 → x.riser.echoes < 64 → x.riser.stateSince + cyclesOfUs 500 ≤ c.cyc →
        CompletesHead (.measureTimeout wait h) s u h fun y => fails 4 y ∧
          x.KeepsFields y [RiserReg.STATE, RiserReg.FAIL_CODE]) ∧
      (x.r RiserReg.STATE = 5 → 64 ≤ x.riser.goodRun → 256 ≤ x.riser.latFrames →
        CompletesHead (.framedLock wait h) s u h fun y => let lat := latUp x.riser.latMax
          (4000 < lat → fails 5 y) ∧
          (lat ≤ 4000 → y.r RiserReg.STATE = 6 ∧ y.r RiserReg.LAT_UP = lat ∧
            (x.r LandReg.HSTATE = 0 → y.r LandReg.HSTATE = 10) ∧
            (x.r LandReg.HSTATE ≠ 0 → x.r LandReg.HSTATE ≠ 8 → y.r LandReg.HSTATE = x.r LandReg.HSTATE)) ∧
          x.KeepsFields y ([RiserReg.STATE, RiserReg.FAIL_CODE, RiserReg.LAT_UP] ++ stateFields)) ∧
      (x.r RiserReg.STATE = 5 → x.riser.stateSince + cyclesOfMs 1 ≤ c.cyc →
        CompletesHead (.frameTimeout wait h) s u h fun y => fails 6 y ∧
          x.KeepsFields y [RiserReg.STATE, RiserReg.FAIL_CODE])

/-- How training starts and how a link is lost (R79, R80, R91, R217). -/
def Obligations.LinkStartsAndLoss : Prop :=
  (∀ (s : State) (wait : Nat) (h : Fin 32), let u := s.pass wait; let x := u.head h; let c := u.ctx h
    u.live h = true →
      (∀ a, x.b RiserReg.AUTO_RETRAIN = true → x.r RiserReg.STATE = 0 → x.riser.lossAt = some a →
        a + cyclesOfMs 1 ≤ u.cycle → (u.tile (tileOf h)).b HeatReg.TRIPPED = false →
        CompletesHead (.autoRetrain wait h) s u h fun y => y.r RiserReg.STATE = 1 ∧ y.riser.stateSince = c.cyc ∧
          y.riser.lossAt = none ∧ y.riser.echoes = 0 ∧ x.KeepsFields y [RiserReg.STATE]) ∧
      (∀ lanes, x.r RiserReg.STATE = 6 → lanes % 4096 ≠ 4095 ∨ 4 ≤ x.riser.badRun ∨ 4 ≤ x.riser.noLockRun →
        Completes (.linkLoss wait h lanes) s fun t => let y := t.head h
          y.r RiserReg.STATE = 0 ∧ y.b RiserReg.LINK_DOWN = true ∧ y.r RiserReg.LANE_LOCK = lanes % 4096 ∧
          y.r RiserReg.SAFE_CAUSE = 4 ∧ 4 ∈ y.riser.causes ∧ y.r LandReg.HSTATE ∈ [0, 10, 11] ∧
          y.b AngleReg.RUNNING = (x.b AngleReg.RUNNING && decide (x.r LandReg.HSTATE ∈ [0, 10, 11])) ∧
          (∀ k, k ≠ h → t.head k = u.head k) ∧ s.ChangesOnly [.time, .heads, .tiles, .atria] t)) ∧
  (∀ (s : State) (q : Req) (h : Fin 32) (v : Word), let x := s.head h; let u := s.atHead q h 0
    s.accessOf q (.head h 0) = .ok → v.toNat.testBit 2 = false → v.toNat.testBit 3 = false →
      v.toNat.testBit 4 = false → (s.tile (tileOf h)).heat.heavyOff = false →
      (s.tile (tileOf h)).b HeatReg.TRIPPED = false →
      (x.up = false → CompletesHead (.train q h v) s u h fun y =>
        y.Took 0 v ∧ y.r RiserReg.STATE = 1 ∧ y.b RiserReg.SAFE_CMD = false ∧ y.riser.goodRun = 0 ∧
        x.KeepsFields y [RiserReg.AUTO_RETRAIN, RiserReg.TRAIN_LOCK_T, RiserReg.SAFE_CMD, RiserReg.STATE]) ∧
      (x.up = true → Completes (.train q h v) s fun t => let y := t.head h
        y.r RiserReg.STATE = 1 ∧ y.b RiserReg.LINK_DOWN = true ∧ y.r RiserReg.SAFE_CAUSE = 4 ∧
        y.r LandReg.HSTATE ∈ [0, 10, 11] ∧ (∀ k, k ≠ h → t.head k = s.head k) ∧
        s.ChangesOnly [.time, .heads, .tiles, .atria, .shadows] t))

/-- Frames of a link (R64, R66, R67, R68, R69, R75, R79, R80, R82, R85, R87, R91): how one is laid out, what one sent
carries, what one received leaves behind, and the loss of a command. -/
def Obligations.RiserFrames : Prop :=
  (∀ d : DownFrame, d.fsb % 256 = 0xD2 ∧ bitsOf d.fsb 55 8 = d.num % 2 ^ 48 ∧ d.fsb.testBit 56 = d.safe ∧
    bitsOf d.fsb 223 57 = 0 ∧ d.fsb / 2 ^ 224 = crc32cBits 224 (d.fsb % 2 ^ 224) ∧
    d.area / 2 ^ 4064 = crc32cBits 4064 (d.area % 2 ^ 4064) ∧ d.blocks.length = 17 ∧
    d.blocks.map isData = false :: List.replicate 16 true ∧ d.blocks.head?.bind blockType = some typeFsb) ∧
  (∀ (m : RCmd) (seq : Nat), let w := commandWord m seq
    bitsOf w 7 0 = m.op % 256 ∧ bitsOf w 14 8 = seq % 128 ∧ w.testBit 15 = m.timed ∧
      bitsOf w 51 16 = (if m.timed then m.te % 2 ^ 36 else 0) ∧ bitsOf w 99 52 = m.arg % 2 ^ 48) ∧
  ∀ (s : State) (wait : Nat) (h : Fin 32), let u := s.pass wait; let x := u.head h; let c := u.ctx h
    let tallied (n : RxTally) (y : Head) : Prop :=
      y.r RiserReg.FEC_CORR = min (2 ^ 32 - 1) (x.r RiserReg.FEC_CORR + n.corrected) ∧
        y.r RiserReg.FEC_UNCORR = min 65535 (x.r RiserReg.FEC_UNCORR + n.uncorrectable)
    u.live h = true →
      (u.pkg.sysclk = true → x.frameDue c = true →
        CompletesHead (.downstreamFrame wait h) s u h fun y => ∃ d, y.riser.lastDown = some d ∧
          d.num = c.now / 1600 % 2 ^ 48 ∧ d.slots.length ≤ 4 ∧ (x.riser.seq < 128 → y.riser.seq = (x.riser.seq + d.slots.length) % 128) ∧
          (x.r RiserReg.STATE ≠ 6 → d.slots = []) ∧ (x.r RiserReg.STATE = 5 → d.safe = true) ∧
          (x.r RiserReg.STATE ≠ 5 → (d.safe = true ↔ x.riser.causes ≠ [] ∧
            x.riser.safeSince + 320 ≤ 1600 * (c.now / 1600))) ∧
          y.riser.tx = x.riser.tx.frame (1600 * (c.now / 1600) + Config.devTx.val) d.blocks ∧
          ((∀ t, x.write.endAt = some t → c.now < t) →
            (∀ p ∈ d.slots, p.1 ∈ x.riser.queue ∧ p.1.issued + 320 ≤ 1600 * (c.now / 1600)) ∧
            x.KeepsFields y [RiserReg.FW_GO]) ∧
          x.KeepsFields y ([RiserReg.FW_GO, WriteReg.STATE] ++ modeFields)) ∧
      (∀ m, x.lostCmd c = some m →
        CompletesHead (.cmdLost wait h) s u h fun y => y.b RiserReg.CMD_LOST = true ∧
          y.r RiserReg.CMD_LOST_COUNT = min 65535 (x.r RiserReg.CMD_LOST_COUNT + 1) ∧
          y.riser.sent = x.riser.sent.erase m ∧
          x.KeepsFields y ([RiserReg.CMD_LOST, RiserReg.CMD_LOST_COUNT, SpinReg.KE_VALID, SpinReg.PROBE_BAD, SpinReg.W_CMD,
            WriteReg.STRAT_FAIL] ++ trackFields)) ∧
      (∀ l : LineRx, let r := x.riser.rx.take l.items
        x.r RiserReg.STATE = 5 ∨ x.r RiserReg.STATE = 6 →
        (r.1.frame l.late = none → CompletesHead (.upstreamFrame wait h l) s u h fun y => tallied r.2 y ∧ y.riser.rx = r.1 ∧
          y.riser.nextNum = x.riser.nextNum ∧ x.KeepsFields y [RiserReg.FEC_CORR, RiserReg.FEC_UNCORR]) ∧
        (∀ f rx, r.1.frame l.late = some (f, rx) →
          let line := [RiserReg.FEC_CORR, RiserReg.FEC_UNCORR, RiserReg.FILL_RANGE]
          (f.good = true → x.riser.nextNum = some f.num → x.b RiserReg.HE_SAFE = f.safe →
            bitOf (srvInputs f.servo) 4 = false → CompletesHead (.upstreamFrame wait h l) s u h fun y =>
              tallied r.2 y ∧ y.riser.rx = rx ∧ y.b RiserReg.FILL_RANGE = (f.fillBad || x.b RiserReg.FILL_RANGE) ∧
              y.riser.goodRun = (if f.dnLock = true ∧ f.dnBad = false then x.riser.goodRun + 1 else 0) ∧
              (x.r RiserReg.STATE = 5 → y.riser.latFrames = x.riser.latFrames + 1 ∧
                y.riser.latMax = max x.riser.latMax f.late) ∧
              y.riser.nextNum = some ((f.num + 1) % 2 ^ 48) ∧ y.riser.servo = f.servo ∧ y.riser.servoFrame = f.num ∧
              (∃ e, y.loops.servo.head? = some e ∧ e.num = f.num ∧ e.good = true ∧ e.area = f.servo) ∧
              (∀ g, g = busGain (x.loops.regionMem.readLE 14 2) (x.loops.regionMem.readLE 16 2) (srvBus f.servo) →
                y.r LoopReg.K_V = g.1 ∧ y.b LoopReg.KV_LIMIT = (g.2 || x.b LoopReg.KV_LIMIT)) ∧
              x.KeepsFields y (line ++ servoFields)) ∧
          (f.fsbGood = false ∨ (f.good = false ∧ x.riser.nextNum = some f.num) →
            CompletesHead (.upstreamFrame wait h l) s u h fun y =>
              tallied r.2 y ∧ y.riser.rx = rx ∧ y.b RiserReg.BAD_FRAME = true ∧
              y.r RiserReg.BAD_FRAMES = min 65535 (x.r RiserReg.BAD_FRAMES + 1) ∧
              y.riser.badRun = x.riser.badRun + 1 ∧ y.riser.goodRun = 0 ∧
              (∃ e, y.loops.servo.head? = some e ∧ e.num = x.riser.nextNum.getD 0 ∧ e.good = false) ∧
              x.KeepsFields y (line ++ frameFields ++ [RiserReg.BAD_FRAME, RiserReg.BAD_FRAMES])) ∧
          (f.good = true → x.riser.nextNum = some f.num →
            Completes (.upstreamFrame wait h l) s fun t => let y := t.head h
              y.riser.servo = f.servo ∧ y.riser.servoFrame = f.num ∧ y.b RiserReg.HE_SAFE = f.safe ∧
              (bitOf (srvInputs f.servo) 4 = true → y.r LandReg.HSTATE = 11) ∧
              (f.safe = true → x.b RiserReg.HE_SAFE = false → y.r LandReg.HSTATE ∈ [0, 10, 11]) ∧
              (∀ k, k ≠ h → t.head k = u.head k) ∧ s.ChangesOnly [.time, .heads, .tiles, .atria] t)))

/-- Firmware's commands to a head-end (R91, R93, R94): FW_GO, SAFE_CMD and SAFE_RELEASE. -/
def Obligations.RiserRegisters : Prop :=
  ∀ (s : State) (q : Req) (h : Fin 32) (v : Word), let x := s.head h; let c := (s.atHead q h 0).ctx h
    (s.accessOf q (.head h 0x28) = .ok → let op := v.toNat / 2 ^ 16 % 256; let arg := x.r RiserReg.FW_ARG_LO + v.toNat % 2 ^ 16 * 2 ^ 32
      CompletesHead (.fwGo q h v) s (s.atHead q h 0x28) h fun y =>
        y.Took 0x28 v ∧
        (x.b RiserReg.FW_GO = true → y.riser = x.riser ∧ y.b RiserReg.FW_GO = true) ∧
        (x.b RiserReg.FW_GO = false → (3 ≤ op ∧ op ≤ 6) ∨ 0x0C < op →
          y.b RiserReg.FW_CMD_BAD = true ∧ y.b RiserReg.FW_GO = false ∧ y.riser = x.riser) ∧
        (x.b RiserReg.FW_GO = false → op < 3 ∨ (6 < op ∧ op ≤ 0x0C) → x.up = true →
          y.b RiserReg.FW_GO = true ∧ y.riser.queue = x.riser.queue ++
            [{ RCmd.reset with op := op, arg := arg, src := .firmware, issued := c.now }]) ∧
        (x.b RiserReg.FW_GO = false → op < 3 ∨ (6 < op ∧ op ≤ 0x0C) → x.up = false →
          y.b RiserReg.FW_GO = false ∧ y.riser = x.riser) ∧
        x.KeepsFields y [RiserReg.FW_ARG_HI, RiserReg.FW_OPCODE, RiserReg.FW_GO, RiserReg.FW_CMD_BAD]) ∧
    (s.accessOf q (.head h 0) = .ok → let u := s.atHead q h 0
      let left := if x.land.safeOrdered then x.riser.causes else x.riser.causes.filter (· ≠ 1)
      (v.toNat % 32 / 4 = 0 → v.toNat % 2 = 0 → CompletesHead (.safeCmd q h v) s u h fun y =>
        y.Took 0 v ∧ y.b RiserReg.SAFE_CMD = false ∧ y.riser.causes = left ∧
        x.KeepsFields y [RiserReg.AUTO_RETRAIN, RiserReg.TRAIN_LOCK_T, RiserReg.SAFE_CMD]) ∧
      (v.toNat % 32 / 4 = 1 → v.toNat % 2 = 0 → Completes (.safeCmd q h v) s fun t => let y := t.head h
        y.b RiserReg.SAFE_CMD = true ∧ y.r RiserReg.SAFE_CAUSE = 1 ∧ 1 ∈ y.riser.causes ∧
        (x.r LandReg.HSTATE ∈ [0, 10, 11] → y.r LandReg.HSTATE = x.r LandReg.HSTATE) ∧
        (x.r LandReg.HSTATE ∉ [0, 10, 11] → y.r LandReg.HSTATE = 10 ∧ y.b AngleReg.RUNNING = false) ∧
        x.KeepsFields y ([RiserReg.AUTO_RETRAIN, RiserReg.TRAIN_LOCK_T, RiserReg.SAFE_CMD, RiserReg.SAFE_CAUSE] ++
          trackFields) ∧
        (∀ k, k ≠ h → t.head k = s.head k) ∧ s.ChangesOnly [.time, .heads, .tiles, .atria, .shadows] t) ∧
      (v.toNat.testBit 4 = false → v.toNat.testBit 2 = false → v.toNat % 2 = 0 →
        CompletesHead (.safeRelease q h v) s u h fun y => y.Took 0 v ∧
          (left ≠ [] → y.b RiserReg.SAFE_HELD = true ∧ y.riser.queue = x.riser.queue) ∧
          (left = [] → y.b RiserReg.SAFE_HELD = x.b RiserReg.SAFE_HELD ∧ y.riser.queue =
            (if x.up then x.riser.queue ++ [{ RCmd.reset with op := 2, src := .endpoint, issued := c.now }]
              else x.riser.queue)) ∧
          x.KeepsFields y [RiserReg.AUTO_RETRAIN, RiserReg.TRAIN_LOCK_T, RiserReg.SAFE_CMD, RiserReg.SAFE_HELD]))

/-- Samples, the hold request and the decoders of the read channels (R77, R132, R140, R143, R146, R148). -/
def Obligations.ReadChannelEvents : Prop :=
  ∀ (s : State) (wait : Nat) (h : Fin 32), let u := s.pass wait; let x := u.head h; let c := u.ctx h
    u.live h = true →
      (∀ (i : Fin 33) (n : Nat), lookupKey i.val x.riser.delivered = some n →
        64 * n + 16 * x.r RiserReg.LAT_UP ≤ 10 * c.now →
        Completes (.beamSampleDelivery wait h i) s fun t => let y := t.head h
          lookupKey i.val y.riser.delivered = some (n + 1) ∧
          y.b RiserReg.LATE_DATA = (x.b RiserReg.LATE_DATA || (x.sampleOf i n).2) ∧
          y.r LandReg.HSTATE = x.r LandReg.HSTATE ∧
          (∀ k, k ≠ h → t.head k = u.head k) ∧ (∀ j, j ≠ tileOf h → (t.tile j).stack = (u.tile j).stack) ∧
          s.ChangesOnly [.time, .heads, .tiles, .atria] t) ∧
      (∀ f, x.weft.fellAt = some f → x.weft.holdReq = true → f + cyclesOfNs (x.r WeftReg.DH_EXT) ≤ c.cyc →
        CompletesHead (.defectHoldRelease wait h) s u h fun y =>
          y.weft = { x.weft with holdReq := false, fellAt := none } ∧
          x.KeepsFields y followFields) ∧
      (∀ (i : Fin 32) (r : GroupRec), x.decodeReady i = some r → r.results.length < 3 →
        CompletesHead (.decodeComplete wait h i) s u h fun y => y.regs = x.regs ∧
          ∃ r', y.weft = { x.weft with groups := x.weft.groups.map fun q => if q = r then r' else q } ∧
            r'.results.length = r.results.length + 1 ∧ (r'.results.map (·.index)).getLast? = some (i.val % 4) ∧
            r'.ends = r.ends) ∧
      (∀ (i : Fin 32) (r : GroupRec), x.decodeReady i = some r → r.results.length = 3 → x.verifying = false →
        (x.b WeftReg.DELIVER_EN = false → CompletesHead (.decodeComplete wait h i) s u h fun y =>
          y.weft.groups = x.weft.groups.erase r ∧ y.weft.status.length = min 256 (x.weft.status.length + 4) ∧
          x.KeepsFields y [WeftReg.CW_FIRST_OK, WeftReg.CW_UNCORR, WeftReg.CW_NO_FRAME, WeftReg.CW_BLANK,
            WeftReg.HDR_MISMATCH]) ∧
        (let n := x.ringSlots; let p := x.r WeftReg.RING_WR
          x.b WeftReg.DELIVER_EN = true → (∀ k, k < 4 → (p + k + 1) % n ≠ x.r WeftReg.RING_RD % n) →
          Completes (.decodeComplete wait h i) s fun t => let y := t.head h
            y.weft.groups = x.weft.groups.erase r ∧ y.weft.status.length = min 256 (x.weft.status.length + 4) ∧
            y.r WeftReg.RING_WR = (p + 4) % n ∧
            (∀ k, k < shadowBase → (∀ m, m < 4 →
              k < x.r WeftReg.RING_BASE * 4096 + (p + m) % n * 32896 ∨
              x.r WeftReg.RING_BASE * 4096 + (p + m) % n * 32896 + 32896 ≤ k) →
              (t.tile (tileOf h)).stack.read8 k = (u.tile (tileOf h)).stack.read8 k) ∧
            x.KeepsFields y [WeftReg.CW_FIRST_OK, WeftReg.CW_UNCORR, WeftReg.CW_NO_FRAME, WeftReg.CW_BLANK,
              WeftReg.HDR_MISMATCH, WeftReg.RING_WR, WeftReg.UNCORR, WeftReg.RING_THR_REACHED] ∧
            (∀ k, k ≠ h → t.head k = u.head k) ∧ s.ChangesOnly [.time, .heads, .tiles, .atria] t))

/-- The replay engine (R153 to R156): it takes an order, or finds no slots held, and each hypothesis leads to the next or
to the order's end. -/
def Obligations.ReplayEngine : Prop :=
  ∀ (s : State) (wait : Nat) (j : Fin 8), let u := s.pass wait
    let ended (h : Fin 32) (st : Nat) (t : State) : Prop := let y := t.head h
      y.weft.order = none ∧ y.b WeftReg.BUSY = false ∧ y.b WeftReg.ORDER_DONE = true ∧ y.r WeftReg.STATUS = st
    let rest (h : Fin 32) (t : State) : Prop :=
      (∀ k, k ≠ h → t.head k = u.head k) ∧ (∀ k, k ≠ j → (t.tile k).stack = (u.tile k).stack) ∧
        s.ChangesOnly [.time, .heads, .tiles, .atria] t
    (∀ l : Fin 4, (u.tile j).replay.running = none → u.nextOrder j = some l →
      ∀ o, (u.head (headOf j l)).weft.order = some o →
      ((u.head (headOf j l)).heldEnds o.group o.sector = none →
        Completes (.replayStart wait j) s fun t => ended (headOf j l) 1 t ∧
          (t.tile j).replay = { (u.tile j).replay with last := l.val } ∧
          (u.head (headOf j l)).KeepsFields (t.head (headOf j l)) [WeftReg.STATUS, WeftReg.HYP_RUN, WeftReg.DECODED,
            WeftReg.FAILED, WeftReg.ORDER_DONE, WeftReg.BUSY] ∧ rest (headOf j l) t) ∧
      (∀ ends, (u.head (headOf j l)).heldEnds o.group o.sector = some ends → hypotheses o.families ends ≠ [] →
        (u.head (headOf j l)).weft.held = [] →
        let p := (u.head (headOf j l)).chanPar; let todo := hypotheses o.families ends
        Completes (.replayStart wait j) s fun t =>
          (t.head (headOf j l)).weft.order =
            some { o with ends := ends, todo := todo, decoded := 0, par := p, started := true } ∧
          (t.head (headOf j l)).regs = (u.head (headOf j l)).regs ∧
          (t.tile j).replay = { (u.tile j).replay with last := l.val, running := some l.val } ∧ rest (headOf j l) t)) ∧
    (∀ l : Fin 4, (u.tile j).replay.running = some l.val → (u.tile j).heat.heavyOff = false →
      ∀ o, (u.head (headOf j l)).weft.order = some o →
      (o.todo = [] → Completes (.hypothesisDone wait j) s fun t => ended (headOf j l) 0 t ∧
        (t.tile j).replay.running = none ∧ rest (headOf j l) t) ∧
      (∀ hyp todo, o.todo = hyp :: todo → Completes (.hypothesisDone wait j) s fun t =>
        ((ended (headOf j l) 0 t ∧ (t.tile j).replay.running = none) ∨
          (todo ≠ [] ∧ (t.tile j).replay.running = some l.val ∧
            ∃ o', (t.head (headOf j l)).weft.order = some o' ∧ o'.hyp = o.hyp + 1 ∧ o'.todo = todo ∧
              o'.keep = o.keep ∧ o'.ends = o.ends)) ∧
        rest (headOf j l) t))

/-- The commands to the read channels (R153, R160): CLR_STATS, a retry order's GO, and RELEASE. -/
def Obligations.ReadRegisters : Prop :=
  ∀ (s : State) (q : Req) (h : Fin 32) (v : Word), let x := s.head h
    (∀ i : Fin 33, let off := 0x40000 + 0x800 * i.val; s.accessOf q (.head h off) = .ok →
      CompletesHead (.clrStats q h i v) s (s.atHead q h off) h fun y => y.Took off v ∧
        y.beam i = { x.beam i with stats := Mem.empty } ∧ (∀ k, k ≠ i → y.beam k = x.beam k) ∧
        x.KeepsFields y (fieldsIn headFields off)) ∧
    (s.accessOf q (.head h 0x58034) = .ok → let u := s.atHead q h 0x58034
      let freed (r : RetSlot) : RetSlot := if r.state = 3 ∧ r.live.sector = v.toNat / 8 % 64 then { r with state := 0 } else r
      (let p := v.toNat / 8 % 64; let m := v.toNat / 2 ^ 16 % 64
        let o : Order := { Order.reset with group := v.toNat % 8, sector := p, keep := v.toNat.testBit 9, families := m }
        v.toNat.testBit 25 = false → CompletesHead (.retryGo q h v) s u h fun y => y.Took 0x58034 v ∧
        (x.b WeftReg.BUSY = true → y.b WeftReg.ORDER_REJ = true ∧ y.b WeftReg.BUSY = true ∧ y.weft = x.weft) ∧
        (x.b WeftReg.BUSY = false → (∀ q < 4, ∃ r ∈ (x.beam (toSampler (4 * o.group + q))).slots,
            r.state = 3 ∧ r.live.sector = p ∧ r.ue = false) →
          y.b WeftReg.BUSY = true ∧ y.b WeftReg.ORDER_REJ = x.b WeftReg.ORDER_REJ ∧
          y.weft = { x.weft with order := some o } ∧ x.KeepsFields y (fieldsIn headFields 0x58034)) ∧
        (x.b WeftReg.BUSY = false → (∃ q < 4, ∀ r ∈ (x.beam (toSampler (4 * o.group + q))).slots,
            r.state ≠ 3 ∨ r.live.sector ≠ p ∨ r.ue = true) →
          y.b WeftReg.BUSY = false ∧ y.b WeftReg.ORDER_REJ = x.b WeftReg.ORDER_REJ ∧ y.b WeftReg.ORDER_DONE = true ∧
          y.r WeftReg.STATUS = 1 ∧ y.weft = { x.weft with order := none }) ∧
        y.beams = x.beams ∧ x.KeepsFields y (fieldsIn headFields 0x58034 ++
          [WeftReg.ORDER_REJ, WeftReg.ORDER_DONE, WeftReg.STATUS, WeftReg.HYP_RUN, WeftReg.DECODED, WeftReg.FAILED])) ∧
      (v.toNat.testBit 24 = false → CompletesHead (.release q h v) s u h fun y => y.Took 0x58034 v ∧
        (∀ i : Fin 33, (i.val < 32 ∧ i.val / 4 = v.toNat % 8 →
          y.beam i = { x.beam i with slots := (x.beam i).slots.map freed }) ∧
          (¬ (i.val < 32 ∧ i.val / 4 = v.toNat % 8) → y.beam i = x.beam i)) ∧
        y.weft = x.weft ∧ x.KeepsFields y [WeftReg.GROUP, WeftReg.SECTOR, WeftReg.KEEP, WeftReg.FAMILIES]))

/-- Descriptors of the write channel (R161, R164, R165, R176, R177, R182, R184, R190): one is taken from the ring and begins or is
refused, arms, and completes. -/
def Obligations.WriteDescriptors : Prop :=
  ∀ (s : State) (wait : Nat) (h : Fin 32), let u := s.pass wait; let x := u.head h; let c := u.ctx h
    let rest (t : State) : Prop := (∀ k, k ≠ h → t.head k = u.head k) ∧
      (∀ j, j ≠ tileOf h → (u.tile j).StackKept (t.tile j) 0 0) ∧ s.ChangesOnly [.time, .heads, .tiles, .atria] t
    (let d := descOf (u.stackLE (tileOf h) x.wqByte 64)
      ∀ p ∈ [(Instr.write wait h, 1, 1), (Instr.verify wait h, 2, 4), (Instr.opc wait h, 3, 1), (Instr.pcaScan wait h, 4, 5)],
        u.takesDesc h = true → u.nextType h = p.2.1 → d.type = p.2.1 →
        Completes p.1 s fun t => let y := t.head h
          y.r WriteReg.WQ_RD = (x.r WriteReg.WQ_RD + 1) % x.wqSlots ∧ y.b WriteReg.BUSY = true ∧ y.write.desc = some d ∧
          y.write.aborted = false ∧ y.write.opens = 0 ∧ y.write.gates = [] ∧
          (y.write.refused = false → y.r WriteReg.STATE = p.2.2 ∧ y.b WriteReg.DESC_BAD = x.b WriteReg.DESC_BAD) ∧
          (y.write.refused = true → y.r WriteReg.STATE = 6 ∧ y.b WriteReg.DESC_BAD = true) ∧
          (isUserBand d.band = false → isSystemBand d.band = false → d.type < 3 → y.write.refused = true) ∧
          x.KeepsFields y [WriteReg.WQ_RD, WriteReg.BUSY, WriteReg.DESC_BAD, WriteReg.STATE] ∧ y.beams = x.beams ∧
          y.riser = x.riser ∧ (u.tile (tileOf h)).StackKept (t.tile (tileOf h)) 0 0 ∧ rest t) ∧
    (∀ d, x.write.desc = some d → u.live h = true → x.r WriteReg.STATE = 1 →
      let goal := min 2 x.write.frames
      Completes (.armed wait h) s fun t => let y := t.head h
        y.r WriteReg.STATE = 2 ∧ y.write.laserDone = true ∧ y.write.encodedTo = max x.write.encodedTo goal ∧
        (x.up = true → y.riser.queue.length = x.riser.queue.length + 32) ∧
        x.KeepsFields y [WriteReg.STATE, WriteReg.RELOC_DEPTH, WriteReg.SRC_ERROR] ∧
        (u.tile (tileOf h)).StackKept (t.tile (tileOf h)) (d.vrefAddr * 4096) (1152 * goal) ∧ rest t) ∧
    (∀ d, x.write.desc = some d → u.live h = true → x.descOver c = true → x.cqFull = false →
      let a := x.r WriteReg.CQ_BASE * 4096 + 1536 * x.r WriteReg.CQ_WR
      Completes (.descriptorComplete wait h) s fun t => let y := t.head h
        y.r WriteReg.CQ_WR = (x.r WriteReg.CQ_WR + 1) % x.cqSlots ∧ y.b WriteReg.DESC_DONE = true ∧
        y.b WriteReg.BUSY = false ∧ y.r WriteReg.STATE = 0 ∧ y.write.desc = none ∧ y.write.doneAt = some u.cycle ∧
        (d.type = 1 → x.write.aborted = true →
          y.r WriteReg.BANDS_ABORTED = min 65535 (x.r WriteReg.BANDS_ABORTED + 1)) ∧
        x.KeepsFields y ([WriteReg.CQ_WR, WriteReg.DESC_DONE, WriteReg.BUSY, WriteReg.STATE, WriteReg.BANDS_WRITTEN,
          WriteReg.BANDS_ABORTED, WriteReg.CW_VFY_FAIL, WriteReg.CW_RELOCATED, WriteReg.RELOC_DEPTH, WriteReg.RELOC_OVF,
          WriteReg.RELOC_EXHAUSTED, WriteReg.VERIFY_FAIL] ++ modeFields) ∧
        (x.write.refused = true → (u.tile (tileOf h)).StackKept (t.tile (tileOf h)) a 1536) ∧ rest t)

/-- The gates of the write channel (R169, R170, R174, R176, R188, R235): an open is forwarded, or withheld with what withholds
it; a close is forwarded for the oldest gate without one; and the last one's instant ends the write phase, which the
next frame shows (the model's choice, log entry 129). -/
def Obligations.WriteGates : Prop :=
  ∀ (s : State) (wait : Nat) (h : Fin 32) (f : Fire) (x : Head), let u := s.atEvent wait h; let c := u.ctx h; let v := u.entryRead h f x
    let joins (y : Head) : Prop := y.write.opens = x.write.opens + 1 ∧ ∃ g, y.write.gates = x.write.gates ++ [g] ∧
      g.te = f.te.toNat ∧ g.closeTe = none ∧ g.sent = 0 ∧ g.left.length = 32 ∧
      g.period = (2 ^ 58 / (x.write.kz * x.omega)).toNat % 2 ^ 32
    (u.Takes h 3 f x →
      (x.write.desc = none → CompletesHead (.writeGateOpen wait h) s v h fun y => y.b WriteReg.GATE_EXTRA = true ∧
        y.write = x.write ∧ y.riser = x.riser ∧ x.KeepsFields y [WriteReg.GATE_EXTRA]) ∧
      (∀ d, x.write.desc = some d → d.type = 3 → x.writeExpects = false ∨ (x.write.aborted = false ∧ x.r WriteReg.STATE < 2) →
        CompletesHead (.writeGateOpen wait h) s v h fun y => y.b WriteReg.GATE_EXTRA = true ∧ y.write = x.write ∧
          y.riser = x.riser ∧ x.KeepsFields y [WriteReg.GATE_EXTRA]) ∧
      (∀ d, x.write.desc = some d → d.type = 3 → x.writeExpects = true → x.write.aborted = true →
        exec (.writeGateOpen wait h) s = .next (v.setHead h x)) ∧
      (∀ d, x.write.desc = some d → d.type = 3 → x.writeExpects = true → x.write.aborted = false →
        2 ≤ x.r WriteReg.STATE →
        (x.inhibitNow = true → CompletesHead (.writeGateOpen wait h) s v h fun y => y.b WriteReg.ABORTED = true ∧
          y.write.aborted = true ∧ y.write.cause = (if x.b AngleReg.HOLDOVER then 4 else 5) ∧ y.write.gates = [] ∧
          y.r WriteReg.STATE = 6 ∧ x.KeepsFields y ([WriteReg.STATE, WriteReg.ABORTED] ++ modeFields)) ∧
        (x.inhibitNow = false → x.speedOk = false → CompletesHead (.writeGateOpen wait h) s v h fun y => y.b WriteReg.SPEED = true ∧
          y.write.aborted = true ∧ y.write.cause = 6 ∧ y.write.gates = [] ∧ y.b WriteReg.ABORTED = true ∧
          y.r WriteReg.STATE = 6 ∧ x.KeepsFields y ([WriteReg.SPEED, WriteReg.STATE, WriteReg.ABORTED] ++ modeFields)) ∧
        (x.inhibitNow = false → x.speedOk = true → x.stratLoaded (f.arg % 4096) = false →
          CompletesHead (.writeGateOpen wait h) s v h fun y => y.b WriteReg.STRAT_INVALID = true ∧
            y.write.aborted = true ∧ y.write.cause = 7 ∧ y.r WriteReg.STATE = 6 ∧
            x.KeepsFields y ([WriteReg.STRAT_INVALID, WriteReg.STATE, WriteReg.ABORTED] ++ modeFields)) ∧
        (x.inhibitNow = false → x.speedOk = true → x.stratLoaded (f.arg % 4096) = true → x.r LandReg.HSTATE ≠ 7 →
          CompletesHead (.writeGateOpen wait h) s v h fun y => y.r WriteReg.STATE = 3 ∧ joins y ∧
            (x.up = true → ∃ m, y.riser.queue = x.riser.queue ++ [m] ∧ m.op = 4 ∧ m.timed = true ∧ m.te = f.te.toNat ∧
              m.arg % 4096 = f.arg % 4096) ∧
            x.KeepsFields y [WriteReg.STATE]) ∧
        (x.inhibitNow = false → x.speedOk = true → x.stratLoaded (f.arg % 4096) = true → x.r LandReg.HSTATE = 7 →
          x.weft.holdReq = false →
          CompletesHead (.writeGateOpen wait h) s v h fun y => y.r WriteReg.STATE = 3 ∧ joins y ∧ y.r LandReg.HSTATE = 8 ∧
            x.KeepsFields y ([WriteReg.STATE] ++ followFields))) ∧
      (∀ d, x.write.desc = some d → d.type = 1 → x.writeExpects = true → x.write.aborted = false →
        2 ≤ x.r WriteReg.STATE → x.inhibitNow = false → x.weft.holdReq = false → x.speedOk = true →
        x.stratLoaded (f.arg % 4096) = true → Completes (.writeGateOpen wait h) s fun t => let y := t.head h
          y.r WriteReg.STATE = 3 ∧ joins y ∧ y.write.encodedTo = max x.write.encodedTo (min x.encodeNeed x.write.frames) ∧
          y.r LandReg.HSTATE = (if x.r LandReg.HSTATE = 7 then 8 else x.r LandReg.HSTATE) ∧
          x.KeepsFields y ([WriteReg.STATE, WriteReg.RELOC_DEPTH, WriteReg.SRC_ERROR] ++ followFields) ∧
          (∀ k, k ≠ h → t.head k = u.head k) ∧ (∀ j, j ≠ tileOf h → (u.tile j).StackKept (t.tile j) 0 0) ∧
          s.ChangesOnly [.time, .heads, .tiles, .atria] t)) ∧
    (u.Takes h 4 f x →
      (x.write.desc = none ∨ (∀ g ∈ x.write.gates, g.closeTe ≠ none) →
        exec (.writeGateClose wait h) s = .next (v.setHead h x)) ∧
      (∀ d before g after, x.write.desc = some d → x.write.gates = before ++ g :: after →
        (∀ b ∈ before, b.closeTe ≠ none) → g.closeTe = none →
        CompletesHead (.writeGateClose wait h) s v h fun y => y.regs = x.regs ∧
          y.write = { x.write with
            gates := before ++ { g with closeTe := some f.te.toNat } :: after, closes := x.write.closes + 1
            closeTes := x.write.closeTes ++ [f.te.toNat]
            endAt := if d.writeGates ≤ x.write.closes + 1 then some f.te.toNat else x.write.endAt } ∧
          (x.up = true → ∃ m, y.riser.queue = x.riser.queue ++ [m] ∧ m.op = 5 ∧ m.timed = true ∧ m.te = f.te.toNat) ∧
          (x.up = false → y.riser = x.riser))) ∧
    (let w := s.pass wait; let z := w.head h
      ∀ d t, z.write.desc = some d → z.write.endAt = some t → t ≤ (w.ctx h).now → z.write.aborted = false →
        w.live h = true → w.pkg.sysclk = true → z.frameDue (w.ctx h) = true →
        CompletesHead (.downstreamFrame wait h) s w h fun y => y.write.writeDone = true ∧ y.write.endAt = none ∧
          y.write.gates = [] ∧ y.r WriteReg.STATE = (if d.type = 3 then 5 else if bitOf d.mode 0 then 6 else 4) ∧
          (z.r LandReg.HSTATE = 8 → y.r LandReg.HSTATE = 7) ∧
          (z.r LandReg.HSTATE ≠ 8 → y.r LandReg.HSTATE = z.r LandReg.HSTATE) ∧
          z.KeepsFields y ([RiserReg.FW_GO, WriteReg.STATE] ++ modeFields))

/-- Commands to the write channel (R174, R188, R191): ABORT, and the load of a strategy entry. -/
def Obligations.WriteCommands : Prop :=
  (∀ (s : State) (q : Req) (h : Fin 32) (v : Word), let x := s.head h; let c := (s.turnTo 3).ctx h
    (s.accessOf q (.head h 0x60000) = .ok → CompletesHead (.abort q h v) s (s.atHead q h 0x60000) h fun y =>
      y.Took 0x60000 v ∧
      (x.write.desc = none → y.write.desc = none ∧ (x.write.endAt = none → y.write = x.write) ∧
        x.KeepsFields y (fieldsIn headFields 0x60000)) ∧
      (∀ d, x.write.desc = some d → x.write.aborted = false → x.write.refused = false →
        y.write.aborted = true ∧ y.write.cause = 8 ∧ y.write.gates = [] ∧ y.b WriteReg.ABORTED = true ∧
        (x.write.endAt = none → let te := x.earliest c
          let still := x.write.gates.filter fun g => g.closeTe.all fun t => decide (c.now < t)
          (still = [] → y.write.endAt = none) ∧ (still ≠ [] → y.write.endAt = some te) ∧
          (x.up = true → (∃ g ∈ still, ∀ t, g.closeTe = some t → te < t) →
            ∃ m ∈ y.riser.queue, m.op = 5 ∧ m.timed = true ∧ m.te = te)) ∧
        y.r WriteReg.STATE = (if d.type = 1 ∧ ¬ bitOf d.mode 0 ∨ d.type = 2 then 4 else 6) ∧
        (x.r LandReg.HSTATE = 8 → y.r LandReg.HSTATE = 7) ∧
        (x.r LandReg.HSTATE ≠ 8 → y.r LandReg.HSTATE = x.r LandReg.HSTATE) ∧
        x.KeepsFields y (fieldsIn headFields 0x60000 ++ [WriteReg.STATE, WriteReg.ABORTED] ++ modeFields))) ∧
    (s.accessOf q (.head h 0x60028) = .ok → CompletesHead (.stratGo q h v) s (s.atHead q h 0x60028) h fun y =>
      y.Took 0x60028 v ∧ y.write = { x.write with stratPend := true } ∧ y.stratMap = x.stratMap ∧
      x.KeepsFields y (fieldsIn headFields 0x60028))) ∧
  (∀ (s : State) (wait : Nat) (h : Fin 32), let u := s.pass wait; let x := u.head h; let e := x.r WriteReg.STRAT_ENTRY
    u.live h = true → x.write.stratPend = true → x.write.stratBusy = false → x.b WriteReg.BUSY = false →
      CompletesHead (.stratLoadStart wait h) s u h fun y => y.write.stratPend = false ∧ y.write.stratBusy = x.up ∧
        y.stratLoaded e = false ∧ (∀ k, k ≠ e → y.stratLoaded k = x.stratLoaded k) ∧
        (x.up = true → y.write.stratAcks = 0 ∧ y.riser.queue.length = x.riser.queue.length + 16 ∧ y.regs = x.regs) ∧
        (x.up = false → y.riser = x.riser ∧ y.b WriteReg.STRAT_FAIL = true ∧ x.KeepsFields y [WriteReg.STRAT_FAIL]))

/-- Samples of the loops (R41, R197, R198, R199, R206): due on package time, the oldest due instant first, or by a LOOP_SAMPLE
event, a sample is queued with the bank and the input of its instant, or is counted as held. -/
def Obligations.LoopSamples : Prop :=
  ∀ (s : State) (wait : Nat) (h : Fin 32),
    let others := [LandReg.FOCUS_LOOP, LandReg.TRACK_LOOP, LandReg.SA_LOOP, SpinReg.SPD_LOOP, SpinReg.ID_LOOP, SpinReg.IQ_LOOP]
    let mode (x : Head) := [LoopReg.BANK, LoopReg.HEAD_MODE, LoopReg.LAYER, LoopReg.ZONE, LoopReg.BANK_SWITCH,
      LoopReg.SWITCH_COUNT] ++ (if x.cal.closeTe = none then [] else calEndFields)
    let queued (x y : Head) (n t cycle : Nat) (d : LoopDue) : Prop :=
      y.loops.due = x.loops.due ++ [d] ∧ d.loop = n ∧ d.time = t ∧ d.cycle = cycle ∧ d.bank = x.bankNow ∧
        d.ff = x.feedForward n ∧ d.inj = x.injectsAt n ∧ lookupKey n y.loops.lastIn = some d.input ∧
        (∀ r, x.servoRec (x.frameIn t) = some r → frameSource (x.inSrc n) = true →
          (r.good = true → d.input = x.sourceValue (x.inSrc n) r ∧ x.KeepsFields y (mode x)) ∧
          (r.good = false → d.input = (lookupKey n x.loops.lastIn).getD 0 ∧ y.b LoopReg.STALE = true ∧
            y.r LoopReg.STALE_COUNT = min 65535 (x.r LoopReg.STALE_COUNT + 1)))
    let sampled (x y : Head) (n t cycle : Nat) : Prop :=
      y.loops.stateMem = x.loops.stateMem ∧ y.loops.statMem = x.loops.statMem ∧
      x.KeepsFields y (trackFields ++ [LoopReg.STALE, LoopReg.AGE_SHORT, LoopReg.STALE_COUNT,
        LoopReg.HELD_COUNT, LandReg.LAYER, SpinReg.REGEN_LIMITED, SpinReg.REGEN_LIM, SpinReg.SPEED_DEV, SpinReg.W_CMD,
        SpinReg.I_D, SpinReg.I_Q]) ∧
      ((∀ f ∈ others, x.r f ≠ n) →
        (x.loopActive n = false → y.loops.due = x.loops.due ∧ y.loops.lastIn = x.loops.lastIn ∧
          y.r LoopReg.HELD_COUNT =
            (if x.b (LoopReg.ENABLE n) then min 65535 (x.r LoopReg.HELD_COUNT + 1) else x.r LoopReg.HELD_COUNT) ∧
          x.KeepsFields y (LoopReg.HELD_COUNT :: mode x)) ∧
        (x.loopActive n = true → x.KeepsFields y ([LoopReg.STALE, LoopReg.STALE_COUNT, LoopReg.AGE_SHORT] ++ mode x) ∧
          ∃ d, queued x y n t cycle d))
    (∀ n : Fin 24, let u := s.pass wait; let x := u.head h; let c := u.ctx h
      (∀ l t, lookupKey n.val x.loops.lastDue = some l → x.dueAt n.val c.ns = some t →
        x.phase n.val < x.period n.val → l < t ∧ t ≤ l + x.period n.val ∧ t ≤ c.ns ∧ t % x.period n.val = x.phase n.val) ∧
      (u.live h = true → x.nsec n.val ≠ 0 → x.trig n.val = false → ∀ t, x.dueAt n.val c.ns = some t →
        CompletesHead (.loopSampleDue wait h n) s u h fun y => lookupKey n.val y.loops.lastDue = some t ∧
          sampled x y n.val t (c.cycleAt (16 * t)))) ∧
    (∀ (f : Fire) (x : Head), let u := s.atEvent wait h; let n := f.arg % 32
      u.Takes h 8 f x →
        CompletesHead (.loopSample wait h) s (u.entryRead h f x) h fun y => y.loops.lastDue = x.loops.lastDue ∧
          (24 ≤ n ∨ x.nsec n = 0 ∨ x.trig n = false → y.b LoopReg.EVT_BAD = true ∧ y.loops = x.loops ∧
            x.KeepsFields y [LoopReg.EVT_BAD]) ∧
          (n < 24 → x.nsec n ≠ 0 → x.trig n = true → sampled x y n (f.te / 16).toNat (u.ctx h).cyc))

/-- One evaluation (R196, R200, R204, R210, R212, R213): the first sample of the engine's order leaves the queue, its value within the
output limits is delivered, and nothing else of the state memory changes; where the words it reads hold an uncorrectable
byte it is given up. -/
def Obligations.LoopEvaluation : Prop :=
  ∀ (s : State) (wait : Nat) (h : Fin 32) (n : Fin 24), let u := s.pass wait; let x := u.head h
    u.live h = true → ∀ d, u.firstDue h n.val = some d → Completes (.loopEvaluation wait h n) s fun t => let y := t.head h
      let set := x.setIndex d.bank n.val
      let ended := if x.cal.closeTe = none then [] else calEndFields
      d ∈ x.loops.due ∧ d.loop = n.val ∧ y.loops.due = x.loops.due.erase d ∧ y.loops.lastIn = x.loops.lastIn ∧
      y.loops.setMem = x.loops.setMem ∧ (∀ k, k ≠ h → t.head k = u.head k) ∧
      (∀ j, j ≠ tileOf h → j ≠ u.logTile (tileOf h) → t.tile j = u.tile j) ∧ s.ChangesOnly [.time, .heads, .tiles, .atria] t ∧
      (x.loopUe d (localOf h) = none →
        (∀ k, k < 128 * n.val ∨ 128 * n.val + 16 * x.nsec n.val ≤ k →
          y.loops.stateMem.read8 k = x.loops.stateMem.read8 k) ∧
        (∃ v, lookupKey n.val y.loops.lastOut = some v ∧ (x.setInt set 3 ≤ x.setInt set 4 →
          x.setInt set 3 ≤ v ∧ v ≤ x.setInt set 4) ∧
          (x.destKind n.val = 1 → x.destIndex n.val < 24 → x.r SpinReg.IQ_LOOP ≠ n.val →
            y.ri (LoopReg.LOOP_REF (x.destIndex n.val)) = v)) ∧
        (64 < (u.ctx h).cyc - d.cycle → y.b LoopReg.LOOP_LATE = true ∧
          y.r LoopReg.LATE_COUNT = min 65535 (x.r LoopReg.LATE_COUNT + 1)) ∧
        ((u.ctx h).cyc - d.cycle ≤ 64 → y.b LoopReg.LOOP_LATE = x.b LoopReg.LOOP_LATE ∧
          y.r LoopReg.LATE_COUNT = x.r LoopReg.LATE_COUNT ∧ y.r LoopReg.LATE_MAX = x.r LoopReg.LATE_MAX) ∧
        x.KeepsFields y ([LoopReg.LOOP_LATE, LoopReg.SEC_CLAMP, LoopReg.OUT_CLAMP, LoopReg.SAT, LoopReg.LATE_COUNT,
          LoopReg.LATE_MAX, LoopReg.SAT_COUNT, SpinReg.VOLT_LIMITED] ++ loopFields ++ ended)) ∧
      (x.loopUe d (localOf h) ≠ none → y.loops = { x.loops with due := x.loops.due.erase d } ∧
        y.b LoopReg.STATE_ERR = true ∧ y.r LoopReg.SKIP_ERR_COUNT = min 65535 (x.r LoopReg.SKIP_ERR_COUNT + 1) ∧
        x.KeepsFields y ([LoopReg.STATE_ERR, LoopReg.SKIP_ERR_COUNT] ++ ended) ∧
        (t.tile (tileOf h)).b ProtReg.UE_VALID = true)

/-- The commands to a loop (R196, R213): CLEAR and CLR_STATS of its word. -/
def Obligations.LoopRegisters : Prop :=
  ∀ (s : State) (q : Req) (h : Fin 32) (n : Fin 24) (v : Word), let x := s.head h; let off := 0x10140 + 4 * n.val
    s.accessOf q (.head h off) = .ok →
      (v.toNat.testBit 3 = false → CompletesHead (.loopClear q h n v) s (s.atHead q h off) h fun y =>
        (∀ k, 128 * n.val ≤ k → k < 128 * n.val + 128 → y.loops.stateMem.read8 k = 0) ∧
        (∀ k, k < 128 * n.val ∨ 128 * n.val + 128 ≤ k → y.loops.stateMem.read8 k = x.loops.stateMem.read8 k) ∧
        y.loops.statMem = x.loops.statMem ∧ x.KeepsFields y (fieldsIn headFields off)) ∧
      (v.toNat.testBit 2 = false → CompletesHead (.loopClrStats q h n v) s (s.atHead q h off) h fun y =>
        (∀ k, 32 * n.val ≤ k → k < 32 * n.val + 32 → y.loops.statMem.read8 k = 0) ∧
        (∀ k, k < 32 * n.val ∨ 32 * n.val + 32 ≤ k → y.loops.statMem.read8 k = x.loops.statMem.read8 k) ∧
        y.loops.stateMem = x.loops.stateMem ∧ x.KeepsFields y (fieldsIn headFields off))

/-- The windows of a calibration job (R286, R287, R290, R291): one that serves no armed job is counted; a window of a LOOP_GAIN job
sets the injection, and its close ends that, and the job once no evaluation of the window is owed; a window of a REF_SWEEP writes
its step's reference, and the last one's close restores the saved one. -/
def Obligations.CalWindows : Prop :=
  ∀ (s : State) (wait : Nat) (h : Fin 32) (f : Fire) (x : Head), let u := s.atEvent wait h; let c := u.ctx h; let v := u.entryRead h f x
    let j := x.cal.job; let arg := f.arg % 65536
    let ignored (i : Instr) : Prop := CompletesHead i s v h fun y => y.cal = x.cal ∧
      y.r CalReg.WIN_IGNORED = min 65535 (x.r CalReg.WIN_IGNORED + 1) ∧ x.KeepsFields y [CalReg.WIN_IGNORED]
    (u.Takes h 9 f x →
      (x.b CalReg.BUSY = false ∨ x.cal.window = true ∨ x.cal.closeTe ≠ none ∨ arg ≠ j → ignored (.calWindowOpen wait h)) ∧
      (x.b CalReg.BUSY = true → x.cal.window = false → arg = j → x.cal.closeTe = none → x.calStateOk = true →
        x.calLinkOk = true →
        (x.cal.kind = 3 → CompletesHead (.calWindowOpen wait h) s v h fun y => y.cal.window = true ∧ y.cal.openTe = f.te ∧
          y.b CalReg.RUNNING = true ∧ y.b LoopReg.INJ_EN = true ∧ y.r LoopReg.INJ_LOOP = x.jobLoop j % 32 ∧
          y.r LoopReg.INJ_POINT = 0 ∧ y.r CalReg.INJ_F = x.jobField j 0x14 4 ∧ y.r CalReg.INJ_AMP = x.jobField j 0x18 4 ∧
          y.loops = x.loops ∧ x.KeepsFields y [CalReg.RUNNING, LoopReg.INJ_EN, LoopReg.INJ_LOOP, LoopReg.INJ_POINT,
            CalReg.INJ_F, CalReg.INJ_AMP]) ∧
        (∀ b, x.cal.base = some b → x.cal.kind = 2 → x.jobLoop j < 24 →
          let ref := b + x.jobStart j + (x.r CalReg.STEPS_DONE : Int) * x.jobStep j
          sat32 ref = ref → CompletesHead (.calWindowOpen wait h) s v h fun y => y.cal.window = true ∧ y.cal.openTe = f.te ∧
            y.ri (LoopReg.LOOP_REF (x.jobLoop j)) = ref ∧ y.cal.steps = x.cal.steps ++
              [{ ref := ref, sum := 0, n := 0, lo := f.te + 16 * (x.jobSettle j : Int), hi := none }] ∧
            y.cal.base = some b ∧ x.KeepsFields y [CalReg.RUNNING, LoopReg.LOOP_REF (x.jobLoop j)]))) ∧
    (u.Takes h 10 f x →
      (x.b CalReg.BUSY = false ∨ x.cal.window = false ∨ arg ≠ j → ignored (.calWindowClose wait h)) ∧
      (x.b CalReg.BUSY = true → x.cal.window = true → arg = j →
        let steps := x.cal.steps.modify (x.cal.steps.length - 1) fun e => { e with hi := some f.te }
        let done := (x.r CalReg.STEPS_DONE + 1) % 256
        (x.cal.kind = 3 → x.cal.base = none → x.cal.injSet = true → CompletesHead (.calWindowClose wait h) s v h fun y =>
          y.b LoopReg.INJ_EN = false ∧ y.r CalReg.STEPS_DONE = done ∧ y.cal.window = false ∧
          (x.gainOwed f.te = true → y.cal = { x.cal with
              window := false, spanOn := false, steps := steps, injSet := false, closeTe := some f.te } ∧
            x.KeepsFields y [LoopReg.INJ_EN, CalReg.STEPS_DONE]) ∧
          (x.gainOwed f.te = false → y.b CalReg.BUSY = false ∧ y.b CalReg.RUNNING = false ∧ y.cal.closeTe = none ∧
            (x.cal.n = 0 → y.r CalReg.JSTATUS = 6 ∧ y.b CalReg.JOB_FAIL = true) ∧
            (x.cal.n ≠ 0 → y.r CalReg.JSTATUS = 0 ∧ y.b CalReg.JOB_DONE = true) ∧
            y.cal.resultMem.readLE 0 2 = j % 65536 ∧ (y.cal.resultMem.read8 3).toNat = y.r CalReg.JSTATUS ∧
            y.cal.resultMem.readLE 4 4 = x.cal.n % 2 ^ 32 ∧ x.KeepsFields y (CalReg.STEPS_DONE :: calEndFields))) ∧
        (x.cal.kind = 2 → done < x.jobSteps j → CompletesHead (.calWindowClose wait h) s v h fun y =>
          y.cal = { x.cal with window := false, spanOn := false, steps := steps } ∧ y.r CalReg.STEPS_DONE = done ∧
          x.KeepsFields y [CalReg.STEPS_DONE]) ∧
        (∀ b, x.cal.kind = 2 → x.jobSteps j ≤ done → x.cal.base = some b → x.jobLoop j < 24 → sat32 b = b →
          (x.calStreams f.te).all (x.deliveredTo f.te) = false → CompletesHead (.calWindowClose wait h) s v h fun y =>
            y.cal = { x.cal with
              window := false, spanOn := false, steps := steps, injSet := false, base := none, closeTe := some f.te } ∧
            y.r CalReg.STEPS_DONE = done ∧ y.ri (LoopReg.LOOP_REF (x.jobLoop j)) = b ∧
            x.KeepsFields y [CalReg.STEPS_DONE, LoopReg.INJ_EN, LoopReg.LOOP_REF (x.jobLoop j)])))

/-- Calibration jobs (R285, R286, R287): ARM takes a job whose entry is good and only while none runs, CANCEL ends it with its
reference restored, and the span of a window begins when its settling is over. -/
def Obligations.CalJobs : Prop :=
  (∀ (s : State) (wait : Nat) (h : Fin 32), let u := s.pass wait; let x := u.head h
    x.inReset = false → x.b CalReg.RUNNING = true → x.cal.window = true → x.cal.spanOn = false →
      x.cal.openTe + 16 * (x.jobSettle x.cal.job : Int) ≤ ((u.ctx h).now : Int) →
      exec (.spanStart wait h) s = .next (u.setHead h { x with cal := { x.cal with spanOn := true } })) ∧
  (∀ (s : State) (q : Req) (h : Fin 32) (v : Word), let x := s.head h; let j := v.toNat % 256
    s.accessOf q (.head h 0x70000) = .ok →
      (v.toNat.testBit 9 = false → CompletesHead (.arm q h v) s (s.atHead q h 0x70000) h fun y =>
        y.r CalReg.JOB = j ∧
        (x.b CalReg.BUSY = true → y.cal = x.cal ∧ x.KeepsFields y [CalReg.JOB]) ∧
        (x.b CalReg.BUSY = false → x.jobOk j = true → y.b CalReg.BUSY = true ∧ y.b CalReg.RUNNING = false ∧
          y.r CalReg.STEPS_DONE = 0 ∧ y.cal.job = j ∧ y.cal.kind = x.jobField j 0 1 ∧ y.cal.window = false ∧
          y.cal.n = 0 ∧ y.cal.jobMem = x.cal.jobMem ∧ y.cal.resultMem = x.cal.resultMem ∧
          x.KeepsFields y [CalReg.JOB, CalReg.BUSY, CalReg.RUNNING, CalReg.STEPS_DONE]) ∧
        (x.b CalReg.BUSY = false → x.jobOk j = false → y.b CalReg.BUSY = false ∧ y.r CalReg.JSTATUS = 7 ∧
          y.b CalReg.JOB_FAIL = true ∧ y.cal = x.cal ∧
          x.KeepsFields y [CalReg.JOB, CalReg.JSTATUS, CalReg.JOB_FAIL])) ∧
      (v.toNat.testBit 8 = false → CompletesHead (.cancel q h v) s (s.atHead q h 0x70000) h fun y =>
        y.r CalReg.JOB = j ∧ y.b CalReg.BUSY = false ∧
        (x.b CalReg.BUSY = false → y.cal = x.cal ∧ x.KeepsFields y [CalReg.JOB]) ∧
        (x.b CalReg.BUSY = true → y.b CalReg.RUNNING = false ∧ y.r CalReg.JSTATUS = 1 ∧ y.b CalReg.JOB_FAIL = true ∧
          y.cal.window = false ∧ y.cal.base = none ∧ (x.cal.injSet = true → y.b LoopReg.INJ_EN = false) ∧
          (∀ r, x.cal.base = some r → x.jobLoop x.cal.job < 24 → sat32 r = r →
            y.ri (LoopReg.LOOP_REF (x.jobLoop x.cal.job)) = r) ∧
          x.KeepsFields y ([CalReg.JOB, CalReg.BUSY, CalReg.RUNNING, CalReg.JSTATUS, CalReg.JOB_FAIL, LoopReg.INJ_EN] ++
            x.cal.base.toList.map fun _ => LoopReg.LOOP_REF (x.jobLoop x.cal.job)))))

/-- The temperature sets (R293, R295, R297, R298, R299): an interpolation reads the slots and applies its values when it is done; a
commit writes its slot with VALID = 0 first and its header last; an erase clears VALID; and a load fills the buffer. -/
def Obligations.TemperatureSets : Prop :=
  ∀ (s : State) (h : Fin 32), let t := tileOf h
    let rest (u v : State) : Prop := (∀ k, k ≠ h → v.head k = u.head k) ∧
      (∀ j, j ≠ t → (v.tile j).selv = (u.tile j).selv) ∧ (∀ j, (u.tile j).StackKept (v.tile j) 0 0)
    let reads := [CalReg.SET_CRC, CalReg.SET_DUP, CalReg.SLOT_VALID, CalReg.SLOT_CRC_BAD]
    (∀ (q : Req) (v : Word),
      (s.accessOf q (.head h 0x7000C) = .ok → let x := s.head h; let u := s.atHead q h 0x7000C
        let kept (y : Head) : Prop := y.Took 0x7000C v ∧
          x.KeepsFields y (fieldsIn headFields 0x7000C ++ CalReg.TEMP :: reads)
        (∀ r, x.cal.running = some r → CompletesHead (.interp q h v) s u h fun y => kept y ∧ y.cal.running = some r ∧
          y.cal.queue =
            (if 2 ≤ (x.cal.queue.filter (· == 0)).length + flagNat (r == 0) then x.cal.queue else x.cal.queue ++ [0])) ∧
        (x.cal.running = none → x.cal.queue = [] → Completes (.interp q h v) s fun w => let y := w.head h
          kept y ∧ y.cal.running = some 0 ∧ y.cal.queue = [] ∧ y.cal.interpTemp = y.ri CalReg.TEMP ∧
          y.cal.lastApplied = x.cal.lastApplied ∧ (w.tile t).selv.words = (u.tile t).selv.words ∧ rest u w)) ∧
      (s.accessOf q (.head h 0x7001C) = .ok → let x := s.head h; let u := s.atHead q h 0x7001C
        let base := slotWord (localOf h) (v.toNat % 8)
        let others (w : State) (lo hi : Nat) : Prop :=
          ∀ k, k < lo ∨ hi ≤ k → (w.tile t).selv.read k = (u.tile t).selv.read k
        v.toNat / 2 ^ 6 % 16 = 0 → x.cal.queue = [] →
          (∀ r, x.cal.running = some r → ∀ p ∈ [(Instr.commit q h v, 1), (Instr.erase q h v, 2), (Instr.loadInterp q h v, 3),
            (Instr.loadSlot q h v, 4)], CompletesHead p.1 s u h fun y => y.Took 0x7001C v ∧
              y.cal = { x.cal with queue := [p.2] } ∧ x.KeepsFields y (fieldsIn headFields 0x7001C)) ∧
          (x.cal.running = none →
            Completes (.commit q h v) s (fun w => let y := w.head h
              y.Took 0x7001C v ∧ y.cal = (if u.storeRefuses then x.cal
                else { x.cal with running := some 1, commitSlot := v.toNat % 8 }) ∧
              x.KeepsFields y (fieldsIn headFields 0x7001C) ∧ rest u w ∧ others w base (base + 1024) ∧
              (u.storeRefuses = false → ((w.tile t).selv.read base).toNat % 2 = 0 ∧
                ∀ k, k < 1016 → (w.tile t).selv.read (base + 8 + k) =
                  BitVec.ofNat 64 (x.cal.bufferMem.readLE (64 + 8 * k) 8)) ∧
              (u.storeRefuses = true → others w 0 0)) ∧
            Completes (.erase q h v) s (fun w => let y := w.head h
              y.Took 0x7001C v ∧ y.cal = x.cal ∧ x.KeepsFields y (fieldsIn headFields 0x7001C) ∧ rest u w ∧
              others w base (base + 1) ∧ (u.storeRefuses = false → ((w.tile t).selv.read base).toNat =
                ((u.tile t).selv.read base).toNat / 2 * 2)) ∧
            CompletesHead (.loadInterp q h v) s u h (fun y => y.Took 0x7001C v ∧
              y.cal = { x.cal with bufferMem := x.loadInterp } ∧ x.KeepsFields y (fieldsIn headFields 0x7001C)) ∧
            Completes (.loadSlot q h v) s (fun w => let y := w.head h
              y.Took 0x7001C v ∧ (∀ k, k < 1024 → y.cal.bufferMem.readLE (8 * k) 8 =
                ((u.tile t).selv.read (base + k)).toNat) ∧ y.cal.resultMem = x.cal.resultMem ∧
              x.KeepsFields y (fieldsIn headFields 0x7001C) ∧ rest u w ∧ others w 0 0)))) ∧
    (∀ wait, let u := s.pass wait; let x := u.head h; x.inReset = false →
      (x.cal.lastAuto < (u.ctx h).ns / 1000000 →
        (x.b CalReg.AUTO = false ∨ x.cal.tempOk = false ∨ (x.ri CalReg.TEMP - x.ri CalReg.TEMP_LAST).natAbs < max 1 (x.r CalReg.T_STEP) →
          exec (.autoInterp wait h) s =
            .next (u.setHead h { x with cal := { x.cal with lastAuto := (u.ctx h).ns / 1000000 } })) ∧
        (x.b CalReg.AUTO = true → x.cal.tempOk = true →
          max 1 (x.r CalReg.T_STEP) ≤ (x.ri CalReg.TEMP - x.ri CalReg.TEMP_LAST).natAbs → x.cal.running = none →
          x.cal.queue = [] → Completes (.autoInterp wait h) s fun w => let y := w.head h
            y.cal.running = some 0 ∧ y.cal.interpTemp = x.ri CalReg.TEMP ∧ y.cal.lastAuto = (u.ctx h).ns / 1000000 ∧
            x.KeepsFields y reads ∧ (w.tile t).selv.words = (u.tile t).selv.words ∧ rest u w)) ∧
      (x.cal.running = some 0 → x.cal.queue = [] →
        CompletesHead (.interpDone wait h) s u h fun y => y.cal.running = none ∧ y.b CalReg.INTERP_DONE = true ∧
          y.r CalReg.INTERP_USED = x.cal.interpUsed % 2 ^ 24 ∧
          y.ri CalReg.TEMP_LAST = x.ri CalReg.TEMP ∧
          (∀ i : Fin 33, x.cal.interpUsed.testBit 7 = false →
            y.r (CalReg.S_GAIN i.val) = x.cal.interpOut.readLE (0x40 + 8 * i.val) 4 % 65536) ∧
          (x.cal.interpUsed.testBit 7 = true → ∀ i : Fin 33, y.r (CalReg.S_GAIN i.val) = x.r (CalReg.S_GAIN i.val)) ∧
          (x.cal.interpUsed.testBit 15 = true → y.cal.posMem = x.cal.posMem)) ∧
      (x.cal.running = some 1 → x.cal.queue = [] → let base := slotWord (localOf h) x.cal.commitSlot
        Completes (.commitDone wait h) s fun w => let y := w.head h
          y.cal = { x.cal with running := none } ∧ rest u w ∧
          (u.storeRefuses = false → let seq :=
              ((if u.lostWord t (headBase h + 0x7002C) then 0 else x.r CalReg.COMMIT_SEQ) + 1) % 2 ^ 32
            y.r CalReg.COMMIT_SEQ = seq ∧ y.b CalReg.COMMIT_DONE = true ∧
            x.KeepsFields y [CalReg.COMMIT_SEQ, CalReg.COMMIT_DONE] ∧
            (w.tile t).selv.read base = BitVec.ofNat 64 (1 + x.r CalReg.KINDS * 2 + x.r CalReg.RB_TEMP * 2 ^ 32) ∧
            (w.tile t).selv.read (base + 1) =
              BitVec.ofNat 64 (seq + slotCrc ((u.tile t).selv.slotImage base) * 2 ^ 32) ∧
            (∀ k, 0x4000 ≤ k → k ≠ base → k ≠ base + 1 → (w.tile t).selv.read k = (u.tile t).selv.read k)) ∧
          (u.storeRefuses = true → y.regs = x.regs ∧ ∀ k, (w.tile t).selv.read k = (u.tile t).selv.read k)))

/-- The boot to the choice of a bit-stream (R40, R409, R411, R412, R413, R426, R440): the straps are latched, tiles are powered and
time and the lease begin, the boot record is scanned, and candidates are verified in order. -/
def Obligations.BootToCandidate : Prop :=
  ∀ (s : State) (wait : Nat), let u := s.pass wait; let b := u.boot
    let both (t : State) (f : Fld) (v : Nat) : Prop := t.pr 0 f = v ∧ t.pr 1 f = v
    let kept (t : State) (fs : List Fld) : Prop := ∀ w, (u.atrium w).KeepsFields (t.atrium w) fs
    let frame (t : State) : Prop := (∀ j, (t.tile j).stack = (u.tile j).stack) ∧
      s.ChangesOnly [.time, .tiles, .atria, .flashes, .boot] t
    (b.phase = .pll → u.pkg.porHeld = false → u.pkg.sysclk = true → b.warm = true ∨ u.pkg.pwrfailN = true →
      ∀ pins : Option Word, let straps := (pins.map (·.toNat)).getD b.straps
      Completes (.bootPllLock ⟨wait, pins⟩) s fun t => t.boot.phase = .tiles ∧ t.boot.straps = straps ∧
        t.boot.strapWord = straps % 1024 ∧ both t BootReg.STRAP_WORD (straps % 1024) ∧ both t BootReg.WARM (flagNat b.warm) ∧
        kept t [BootReg.STRAP_WORD, BootReg.WARM] ∧ s.ChangesOnly [.time, .tiles, .atria, .boot] t ∧ t.tiles = u.tiles) ∧
    (b.phase = .tiles → u.storeRefuses = false → let w := strapWing b.strapWord
      Completes (.tilesPowered wait) s fun t => t.boot = { b with phase := .scan } ∧
        both t IdReg.TILE_STRAPPED (tileSet (strapTiles b.strapWord) % 256) ∧
        (t.tile (atriumTile w)).b TimeReg.TIME_VALID = true ∧ (t.tile (atriumTile w)).timeOn = true ∧
        (t.tile (atriumTile w)).time16 = 0 ∧ t.holderSeen 0 = w ∧ t.holderSeen 1 = w ∧
        (∀ v, t.epoch v = (max (u.epoch 0) (u.epoch 1) + 1) % 2 ^ 64) ∧
        (∀ (j : Fin 8) (k : Fin 3), t.tileEnabled j = true →
          (t.tile j).r (LinkReg.LSTATE k) = (if t.tileEnabled (warpFar j k) then 1 else 3)) ∧ frame t) ∧
    (b.phase = .scan → Completes (.bootRecordScan wait) s fun t => frame t ∧
        u.pr 0 BootReg.BOOT_COUNT < t.boot.nextCount ∧ u.pr 1 BootReg.BOOT_COUNT < t.boot.nextCount ∧
        t.boot.tries = b.tries ∧
        (strapBoot b.strapWord = 2 → t.boot.phase = .sparing ∧ both t BootReg.BOOT_CODE 11 ∧ both t BootReg.MGMT_ONLY 1 ∧
          t.flashes = u.flashes) ∧
        (strapBoot b.strapWord ≠ 2 → t.boot.phase = .candidate ∧ (t.flash 0).bootRead = true ∧
          (strapBoot b.strapWord ≠ 1 → (t.flash 1).bootRead = true) ∧
          (strapBoot b.strapWord = 1 → t.flash 1 = u.flash 1))) ∧
    (∀ ok, b.phase = .candidate → Completes (.candidateVerify ⟨wait, ok⟩) s fun t => frame t ∧
        (∀ j, (t.tile j).selv.words = (u.tile j).selv.words) ∧
        (u.candidates.length ≤ b.tries.length → t.boot.phase = .sparing ∧ both t BootReg.MGMT_ONLY 1 ∧
          t.boot.tries = b.tries) ∧
        (∀ c, u.candidates[b.tries.length]? = some c →
          let code := if ok then u.checkImage (strapWing b.strapWord) c.1 c.2 b.strapWord else 12
          t.boot.tries = b.tries ++ [code] ∧
          both t BootReg.BOOT_TRY ((u.pr u.mainWing BootReg.BOOT_TRY + code * 2 ^ (8 * b.tries.length)) % 2 ^ 32) ∧
          (code = 0 → t.boot.phase = .load ∧ both t BootReg.BOOT_CODE 0 ∧ both t BootReg.MGMT_ONLY 0 ∧
            both t BootReg.FALLBACK (if b.tries.length = 0 then 0 else 1) ∧ both t BootReg.FLASH_USED c.1.val ∧
            both t BootReg.SLOT_USED (c.2 % 2) ∧ t.boot.slotBase = slotByte c.2) ∧
          (code ≠ 0 → b.tries.length + 1 = u.candidates.length → t.boot.phase = .sparing ∧
            both t BootReg.BOOT_CODE (code % 16) ∧ both t BootReg.MGMT_ONLY 1 ∧ (t.flash 0).bootRead = false ∧
            (t.flash 1).bootRead = false) ∧
          (code ≠ 0 → b.tries.length + 1 ≠ u.candidates.length → t.boot.phase = .candidate ∧
            kept t [BootReg.BOOT_TRY] ∧ t.flashes = u.flashes)))

/-- The boot from the load on (R13, R317, R372, R411, R413, R419, R425, R427): sections are loaded, repairs applied, the boot record
appended or held, journals replayed, and the tiles released. -/
def Obligations.BootToRelease : Prop :=
  ∀ (s : State) (wait : Nat), let u := s.pass wait; let b := u.boot; let w := strapWing b.strapWord
    let both (t : State) (f : Fld) (v : Nat) : Prop := t.pr 0 f = v ∧ t.pr 1 f = v
    let frame (t : State) : Prop := (∀ j, (t.tile j).stack = (u.tile j).stack) ∧
      s.ChangesOnly [.time, .tiles, .atria, .boot] t
    (b.phase = .load → Completes (.sectionLoad wait) s fun t => t.boot.phase = .sparing ∧ t.boot.tileLoad = [] ∧
      (t.flash 0).bootRead = false ∧ (t.flash 1).bootRead = false ∧
      ((∀ x ∈ b.sections, x.id ≠ 0x10 ∧ x.id ≠ 0x24) → both t IdReg.TILE_EN (u.bitTiles % 256) ∧
        (∀ n : Fin 8, (t.aset n).cfg = setDefOf u.setsBody n) ∧ t.freeCount = u.freeCount ∧ t.fuses = u.fuses) ∧
      (∀ x, b.sections = [x] → ∀ j : Fin 8, x.tile? = some j.val → t.tileEnabled j = true →
        (u.tile j).heat.tripAt = none → let l := (u.flash u.flashUsed).body b.slotBase x
        (x.id = 0x20 → (t.head (toHead x.index)).schedMem = memOf l) ∧
        (x.id = 0x21 → (t.head (toHead x.index)).chanMem = memOf l) ∧
        (x.id = 0x22 → (t.head (toHead x.index)).stratMem = memOf l))) ∧
    (b.phase = .sparing → Completes (.sparingApply wait) s fun t => t.boot = { b with phase := .append } ∧
      (∀ j, u.tileEnabled j = true → (∀ c ∈ (t.tile j).stack.cells, c.1 < shadowBase) ∧
        (u.tile j).StackKept (t.tile j) 0 0 ∧ (t.tile j).r ProtReg.REPAIR_APPLIED = (t.tile j).repairs.length) ∧
      (∀ j, u.tileEnabled j = false → t.tile j = u.tile j) ∧ s.ChangesOnly [.time, .tiles, .atria, .boot] t) ∧
    (b.phase = .append ∨ (b.phase = .recordHeld ∧ u.recordBlocked = false) → u.storeRefuses = false →
      Completes (.recordAppend wait) s fun t => frame t ∧
        (u.recordBlocked = true → u.pr w BootReg.RECORD_POLICY ≠ 0 → t.boot = { b with phase := .recordHeld } ∧
          both t BootReg.BOOT_CODE 10 ∧ both t BootReg.MGMT_ONLY 1 ∧ (t.atrium (w)).b BootReg.RECORD_HELD = true ∧
          t.tiles = u.tiles) ∧
        (u.recordBlocked = false ∨ u.pr w BootReg.RECORD_POLICY = 0 →
          t.boot.phase = (if u.booted then .replay else .mgmtOnly) ∧ both t BootReg.BOOT_CODE (u.finalCode % 16) ∧
          both t BootReg.MGMT_ONLY (flagNat (!u.booted)) ∧ t.pr w BootReg.BOOT_COUNT = b.nextCount % 2 ^ 32 ∧
          (u.recordBlocked = true → (t.atrium (w)).b BootReg.UNACKED_LOST = true) ∧
          (t.tile 0).selv.entry (recordSlot b.nextCount) = (t.tile 4).selv.entry (recordSlot b.nextCount))) ∧
    (b.phase = .replay → Completes (.journalReplay wait) s fun t => t.boot = { b with phase := .release } ∧
      (∀ n, u.bootsNow (u.aset n).cfg.homeTile = false → t.aset n = u.aset n) ∧
      s.ChangesOnly [.time, .tiles, .ports, .sets, .atria, .boot, .pkg] t) ∧
    (b.phase = .release → Completes (.coreRelease wait) s fun t => t.boot = { b with phase := .running } ∧
      (∀ j, u.tileEnabled j = true → u.bootsNow j = true → (t.tile j).inReset = false ∧
        (∀ c : Fin 2, let x := (t.tile j).cores[c]; x.running = true ∧ x.mode = 3 ∧
          x.xregs[10] = BitVec.ofNat 64 (2 * j.val + c.val) ∧ x.xregs[11] = BitVec.ofNat 64 (u.pr (wingOf j) BootReg.BOOT_COUNT)) ∧
        ∀ l, (t.head (headOf j l)).inReset = false) ∧
      (∀ j, u.tileEnabled j = false ∨ u.bootsNow j = false → (t.tile j).inReset = (u.tile j).inReset ∧
        (t.tile j).cores = (u.tile j).cores ∧ ∀ l, t.head (headOf j l) = u.head (headOf j l)) ∧
      s.ChangesOnly [.time, .heads, .tiles, .ports, .atria, .boot, .pkg] t)

/-- Resets of one part (R6, R7, R10, R94, R364, R414, R501): of tiles by RESET_CMD, of a head and of a port by their control words;
and the reload with which a tile comes back. -/
def Obligations.PartResets : Prop :=
  (∀ (s : State) (q : Req) (v : Word), s.accessOf q (.pkg 0x24) = .ok → let u := s.atPkg q 0x24
    let ordered (j : Fin 8) : Bool := v.toNat.testBit j.val && u.tileEnabled j && !u.boot.tileLoad.contains j.val
    let taken : Prop := v.toNat / 2 ^ 16 = 0x8512 ∧ u.allowed q = true
    Completes (.tileRst q v) s fun t =>
      (taken → u.boot.phase = .running → ∀ j, ordered j = true → (t.tile j).inReset = true ∧ j.val ∈ t.boot.tileLoad ∧
        (∀ c : Fin 2, ((t.tile j).cores[c]).running = false) ∧ (t.tile j).locks = [] ∧
        ∀ l, (t.head (headOf j l)).inReset = true ∧ (s.head (headOf j l)).ResetBy .tile (t.head (headOf j l))) ∧
      (taken → ∀ j, u.boot.phase ≠ .running ∨ ordered j = false → (t.tile j).inReset = (s.tile j).inReset ∧
        ∀ l, t.head (headOf j l) = s.head (headOf j l)) ∧
      (¬ taken → t.heads = s.heads ∧ t.tiles = u.tiles ∧ (t.atrium (u.copyOf q)).b IdReg.RESET_REFUSED = true)) ∧
  (∀ (s : State) (q : Req) (h : Fin 32) (v : Word), s.accessOf q (.head h 0) = .ok →
    let u := s.atHead q h 0; let x := s.head h
    Completes (.headReset q h v) s fun t => let y := t.head h
      y.inReset = false ∧ y.weft.order = none ∧ y.write.desc = none ∧ y.loops.due = [] ∧ y.loops.topoMem = x.loops.topoMem ∧
      y.schedMem = x.schedMem ∧ y.r LandReg.HSTATE = 0 ∧ y.r RiserReg.STATE = 0 ∧ y.b CalReg.BUSY = false ∧
      (x.weft.order.isSome = true → y.r WeftReg.STATUS = 2) ∧
      (∀ f ∈ headFields, f.off ≠ 0 → f.key ≠ WeftReg.STATUS.key → (∀ g ∈ driveFields, f.key ≠ g.key) →
        (∀ g ∈ loopFields, f.key ≠ g.key) → y.r f = f.after .head (x.r f)) ∧
      (x.up = true → ∃ d, y.riser.lastDown = some d ∧ d.safe = true) ∧
      (∀ k, k ≠ h → t.head k = s.head k) ∧ (∀ j, (t.tile j).stack = (s.tile j).stack) ∧
      s.ChangesOnly [.time, .heads, .tiles, .atria, .shadows] t) ∧
  (∀ (s : State) (q : Req) (p : Fin 16) (v : Word), let off := 0x300000 + 0x10000 * (p.val % 2)
    s.accessOf q (.tile (portTile p) off) = .ok → Completes (.portReset q p v) s fun t =>
      (t.port p).ctrls = [] ∧ (∀ j, (t.tile j).stack = (s.tile j).stack ∧ (t.tile j).inReset = (s.tile j).inReset) ∧
      s.ChangesOnly [.time, .free, .tiles, .ports, .sets, .atria, .pkg, .shadows] t) ∧
  (∀ (s : State) (wait : Nat) (j : Fin 8), let u := s.pass wait
    u.boot.phase = .running → j.val ∈ u.boot.tileLoad → (u.tile j).heat.heavyOff = false →
      (u.tile j).heat.tripAt = none → Completes (.tileReload wait j) s fun t =>
        (u.reloadOk j = true → (t.tile j).inReset = false ∧ (∀ l, (t.head (headOf j l)).inReset = false) ∧
          (∀ c : Fin 2, ((t.tile j).cores[c]).running = true ∧ ((t.tile j).cores[c]).mode = 3)) ∧
        (u.reloadOk j = false → t.boot = { u.boot with tileLoad := u.boot.tileLoad.filter (· ≠ j.val) } ∧
          (t.atrium (wingOf j)).b BootReg.TILE_LOAD_FAIL = true ∧ t.tiles = u.tiles ∧ t.heads = u.heads ∧
          s.ChangesOnly [.time, .tiles, .atria, .flashes, .boot] t))

/-- Which head commands are refused (R219, R220): each one outside its states, while another runs, or without the loop it needs, and
every reserved code; code 0 otherwise does nothing. -/
def Obligations.HeadCommandRefusals : Prop :=
  ∀ (s : State) (q : Req) (h : Fin 32) (v : Word), s.accessOf q (.head h 0x10200) = .ok →
    let u := s.atHead q h 0x10200; let x := s.head h; let st := x.r LandReg.HSTATE
    let idle := !x.b LandReg.CMD_BUSY
    let jumps := decide (x.r LandReg.TARGET_LAYER ≠ x.r LandReg.LAYER)
    (idle = true → exec (.hcmdNop q h v) s = .next u) ∧
    ∀ p ∈ [(Instr.hcmdNop q h v, idle), (Instr.park q h v, decide (2 ≤ st) && decide (st ≤ 9)), (Instr.spin q h v, st == 1 && idle),
      (Instr.focusOn q h v, st == 4 && x.r LandReg.FSTAT == 0 && idle && x.namesLoop (x.r LandReg.FOCUS_LOOP)),
      (Instr.focusOff q h v, st == 4 || x.tracking),
      (Instr.trackOn q h v, st == 4 && x.r LandReg.FSTAT == 3 && idle && x.namesLoop (x.r LandReg.TRACK_LOOP)),
      (Instr.trackOff q h v, x.tracking),
      (Instr.seek q h v, ((st == 4 && x.r LandReg.FSTAT == 3) || st == 6) && idle && x.namesLoop (x.r LandReg.TRACK_LOOP)
        && (!jumps || x.namesLoop (x.r LandReg.FOCUS_LOOP))),
      (Instr.clearFault q h v, st == 11), (Instr.hcmdReserved q h v, false)],
      p.2 = false → CompletesHead p.1 s u h fun y => y.b LandReg.CMD_REFUSED = true ∧ y.r LandReg.LAST_CODE = 1 ∧
        y.land = x.land ∧ y.riser = x.riser ∧ y.loops = x.loops ∧
        x.KeepsFields y [LandReg.CMD_REFUSED, LandReg.LAST_CODE]

/-- What head commands do (R217, R219, R220, R227, R229, R232): the state they lead to, the loops they move, and the report of those
that end at once. -/
def Obligations.HeadCommands : Prop :=
  ∀ (s : State) (q : Req) (h : Fin 32) (v : Word), s.accessOf q (.head h 0x10200) = .ok →
    let u := s.atHead q h 0x10200; let x := s.head h; let st := x.r LandReg.HSTATE
    let managed := [LandReg.FOCUS_LOOP, LandReg.TRACK_LOOP, LandReg.FOLLOW_LOOP, LandReg.TILT_R_LOOP, LandReg.TILT_T_LOOP]
    let done (y : Head) : Prop := y.r LandReg.LAST_CODE = 0 ∧ y.b LandReg.CMD_DONE = true ∧ y.b LandReg.CMD_BUSY = false
    let off (y : Head) (f : Fld) : Prop := x.r f < 24 → y.b (LoopReg.ENABLE (x.r f)) = false
    let plans := [0, 1].flatMap fun g =>
      [StepReg.OWNER g, StepReg.MCMD_REFUSED g, StepReg.PLAN_N1 g, StepReg.PLAN_N2 g, StepReg.PLAN_CREEP g]
    (2 ≤ st → st ≤ 9 → CompletesHead (.park q h v) s u h fun y => y.r LandReg.HSTATE = 1 ∧ done y ∧
      y.r LandReg.FSTAT = 0 ∧ y.r LandReg.TSTAT = 0 ∧ y.b LandReg.BAND_KNOWN = false ∧ y.b AngleReg.RUNNING = false ∧
      (∀ f ∈ managed, off y f) ∧ x.KeepsFields y trackFields) ∧
    (st = 1 → x.b LandReg.CMD_BUSY = false → CompletesHead (.spin q h v) s u h fun y =>
      y.r LandReg.HSTATE = (if x.b SpinReg.STOPPED = true ∨ (x.r SpinReg.SSTATE = 2 ∧ x.spin.stopReq = true) then 2 else 3) ∧
      y.b LandReg.CMD_BUSY = true ∧ y.land.cmd = some 2 ∧
      x.KeepsFields y (stateFields ++ [LandReg.CMD_BUSY, SpinReg.CATCH_DONE, SpinReg.W_CMD, SpinReg.CATCH_COUNT])) ∧
    (st = 4 → x.r LandReg.FSTAT = 0 → x.b LandReg.CMD_BUSY = false → x.namesLoop (x.r LandReg.FOCUS_LOOP) = true →
      CompletesHead (.focusOn q h v) s u h fun y => y.b LandReg.CMD_BUSY = true ∧ y.land.cmd = some 3 ∧
        y.land.laserAcks = 32 ∧ (x.up = true → y.riser.queue.length = x.riser.queue.length + 32) ∧
        x.KeepsFields y [LandReg.CMD_BUSY]) ∧
    (st = 4 ∨ x.tracking = true → CompletesHead (.focusOff q h v) s u h fun y => y.r LandReg.HSTATE = 4 ∧ done y ∧
      y.r LandReg.FSTAT = 0 ∧ y.r LandReg.TSTAT = 0 ∧ y.land.laserAcks = 0 ∧ (∀ f ∈ managed, off y f) ∧
      x.KeepsFields y trackFields) ∧
    (st = 4 → x.r LandReg.FSTAT = 3 → x.b LandReg.CMD_BUSY = false → x.namesLoop (x.r LandReg.TRACK_LOOP) = true →
      CompletesHead (.trackOn q h v) s u h fun y => y.r LandReg.HSTATE = 5 ∧ y.b LandReg.CMD_BUSY = true ∧
        y.land.cmd = some 5 ∧ y.r LandReg.TSTAT = (if x.b LandReg.BAND_KNOWN then 5 else 4) ∧
        y.b (LoopReg.ENABLE (x.r LandReg.TRACK_LOOP)) = true ∧ x.KeepsFields y (trackFields ++ [LandReg.TRACK_E])) ∧
    (x.tracking = true → CompletesHead (.trackOff q h v) s u h fun y => y.r LandReg.HSTATE = 4 ∧ done y ∧
      y.r LandReg.TSTAT = 0 ∧ y.b LandReg.BAND_KNOWN = false ∧ off y LandReg.TRACK_LOOP ∧ off y LandReg.FOLLOW_LOOP ∧
      y.r LandReg.FSTAT = (if x.r LandReg.FSTAT = 5 then 3 else x.r LandReg.FSTAT) ∧ x.KeepsFields y trackFields) ∧
    ((st = 4 ∧ x.r LandReg.FSTAT = 3) ∨ st = 6 → x.b LandReg.CMD_BUSY = false →
      x.namesLoop (x.r LandReg.TRACK_LOOP) = true → x.namesLoop (x.r LandReg.FOCUS_LOOP) = true →
      let e := extendedOf (x.r LandReg.TARGET_BAND)
      (x.targetOk = false → CompletesHead (.seek q h v) s u h fun y => y.r LandReg.LAST_CODE = 11 ∧
        y.b LandReg.CMD_FAIL = true ∧ x.KeepsFields y [LandReg.LAST_CODE, LandReg.CMD_FAIL]) ∧
      (x.targetOk = true → CompletesHead (.seek q h v) s u h fun y =>
        (x.r LandReg.TARGET_LAYER ≠ x.r LandReg.LAYER → y.r LandReg.HSTATE = 5 ∧ y.r LandReg.FSTAT = 5 ∧
          y.r LandReg.TSTAT = 0 ∧ y.land.jumpPhase = 1 ∧ y.b LandReg.CMD_BUSY = true ∧ y.b LandReg.BAND_KNOWN = false ∧
          off y LandReg.TRACK_LOOP) ∧
        (x.r LandReg.TARGET_LAYER = x.r LandReg.LAYER → x.b LandReg.BAND_KNOWN = true →
          (e - x.bandE).natAbs ≤ x.fineMax → y.r LandReg.HSTATE = 5 ∧ y.r LandReg.TSTAT = 5 ∧ y.b LandReg.CMD_BUSY = true ∧
          y.land.target = e ∧ y.b (LoopReg.ENABLE (x.r LandReg.TRACK_LOOP)) = true) ∧
        y.r LandReg.HSTATE ∈ [4, 5] ∧ y.land.seekTarget = e ∧ y.land.seekLayer = x.r LandReg.TARGET_LAYER ∧
        x.KeepsFields y (trackFields ++ LandReg.TRACK_E :: plans))) ∧
    (st = 11 → let stays := bitOf x.land.lastInputs 4 || x.routedFault
      CompletesHead (.clearFault q h v) s u h fun y =>
        (stays = true → y.r LandReg.LAST_CODE = 14 ∧ y.b LandReg.CMD_FAIL = true ∧
          x.KeepsFields y [LandReg.LAST_CODE, LandReg.CMD_FAIL]) ∧
        (stays = false → y.r LandReg.HSTATE = 10 ∧ y.r LandReg.LAST_CODE = 0 ∧ y.b LandReg.CMD_DONE = true ∧
          y.land.safeOrdered = false ∧ (x.b RiserReg.SAFE_CMD = false → 1 ∉ y.riser.causes) ∧
          x.KeepsFields y trackFields))

/-- Focus and layer jumps (R228, R229): lock, its timeouts and its loss, and the phases of a jump. -/
def Obligations.FocusEvents : Prop :=
  ∀ (s : State) (wait : Nat) (h : Fin 32), let u := s.pass wait; let x := u.head h; let c := u.ctx h
    let on (y : Head) (f : Fld) : Prop := x.namesLoop (x.r f) = true → y.b (LoopReg.ENABLE (x.r f)) = true
    let failed (y : Head) (code : Nat) : Prop := x.b LandReg.CMD_BUSY = true → y.r LandReg.LAST_CODE = code ∧
      y.b LandReg.CMD_FAIL = true ∧ y.b LandReg.CMD_BUSY = false
    let lost (y : Head) (code : Nat) : Prop := y.b LandReg.FOCUS_LOST = true ∧
      y.r LandReg.FOCUS_LOST_COUNT = min 65535 (x.r LandReg.FOCUS_LOST_COUNT + 1) ∧
      (x.r LandReg.HSTATE = 4 ∨ x.tracking = true → y.r LandReg.HSTATE = 4 ∧ y.r LandReg.FSTAT = 0 ∧ failed y code) ∧
      (¬ (x.r LandReg.HSTATE = 4 ∨ x.tracking = true) →
        x.KeepsFields y [LandReg.FOCUS_LOST, LandReg.FOCUS_LOST_COUNT]) ∧
      x.KeepsFields y ([LandReg.FOCUS_LOST, LandReg.FOCUS_LOST_COUNT] ++ trackFields)
    x.inReset = false →
      (x.r LandReg.FSTAT = 2 → atLeast1 (x.r LandReg.FLOCK_N) ≤ x.land.goodFocus → x.land.jumpPhase ≠ 5 →
        CompletesHead (.focusLock wait h) s u h fun y => y.r LandReg.FSTAT = 3 ∧ on y LandReg.TILT_R_LOOP ∧
          on y LandReg.TILT_T_LOOP ∧ y.angle.layer = x.r LandReg.LAYER ∧ y.angle.zone = zoneOrZero x.targetBand ∧
          (x.b LandReg.CMD_BUSY = true → y.r LandReg.LAST_CODE = 0 ∧ y.b LandReg.CMD_DONE = true ∧
            y.b LandReg.CMD_BUSY = false) ∧ y.r LandReg.HSTATE = x.r LandReg.HSTATE ∧
          x.KeepsFields y (trackFields ++ (List.range 32).flatMap fun b => [WriteReg.RPOWER b, WriteReg.WPOWER b])) ∧
      (x.r LandReg.FSTAT = 2 → x.land.captureAt + cyclesOfUs (atLeast1 (x.r LandReg.FLOCK_TO)) ≤ c.cyc →
        CompletesHead (.flockTimeout wait h) s u h fun y => y.r LandReg.HSTATE = 4 ∧ y.r LandReg.FSTAT = 0 ∧
          failed y 3 ∧ (x.r LandReg.FOCUS_LOOP < 24 → y.b (LoopReg.ENABLE (x.r LandReg.FOCUS_LOOP)) = false) ∧
          x.KeepsFields y trackFields) ∧
      (x.r LandReg.FSTAT = 2 ∨ x.r LandReg.FSTAT = 3 → atLeast1 (x.r LandReg.FLOSS_N) ≤ x.land.lossFocus →
        CompletesHead (.focusLost wait h) s u h fun y => lost y 10 ∧ y.land.lossFocus = 0) ∧
      (x.land.jumpPhase = 1 → x.land.saRun = 3 → CompletesHead (.saSettled wait h) s u h fun y =>
        y.r LandReg.FSTAT = 4 ∧ y.land.jumpPhase = 2 ∧ y.land.jumpAt = c.cyc ∧ y.land.jumpKick = c.cyc ∧
        y.land.jumpU0 = (lookupKey (x.r LandReg.FOCUS_LOOP) x.loops.lastOut).getD 0 ∧
        (x.r LandReg.FOCUS_LOOP < 24 → y.b (LoopReg.ENABLE (x.r LandReg.FOCUS_LOOP)) = false) ∧
        y.r LandReg.HSTATE = x.r LandReg.HSTATE ∧ x.KeepsFields y trackFields) ∧
      (x.land.jumpPhase = 1 → x.land.jumpAt + cyclesOfMs (atLeast1 (x.r LandReg.SA_TO)) ≤ c.cyc →
        CompletesHead (.saTimeout wait h) s u h fun y => y.r LandReg.HSTATE = 4 ∧ y.r LandReg.TSTAT = 0 ∧ failed y 5 ∧
          (x.r LandReg.FSTAT = 5 → y.r LandReg.FSTAT = 3 ∧ y.land.jumpPhase = 0) ∧ x.KeepsFields y trackFields) ∧
      (x.land.jumpPhase = 2 → x.land.jumpAt + pulseCycles (x.r LandReg.KICK_T) ≤ c.cyc →
        CompletesHead (.kickEnd wait h) s u h fun y => y.land.jumpPhase = 3 ∧ y.land.jumpU0 = x.land.jumpU0 ∧
          y.regs = x.regs) ∧
      (x.land.jumpPhase = 4 → x.land.jumpAt + pulseCycles (x.r LandReg.BRAKE_T) ≤ c.cyc →
        CompletesHead (.brakeEnd wait h) s u h fun y => y.r LandReg.FSTAT = 2 ∧ y.land.jumpPhase = 5 ∧
          y.r LandReg.LAYER = ((x.r LandReg.LAYER : Int) - x.land.jumpDir).toNat % 16 ∧ on y LandReg.FOCUS_LOOP ∧
          y.land.captureAt = c.cyc ∧ y.land.goodFocus = 0 ∧ y.r LandReg.HSTATE = x.r LandReg.HSTATE ∧
          x.KeepsFields y (LandReg.LAYER :: trackFields)) ∧
      (x.land.jumpPhase = 2 ∨ x.land.jumpPhase = 3 →
        x.land.jumpKick + cyclesOfUs (atLeast1 (x.r LandReg.JUMP_TO)) ≤ c.cyc →
        CompletesHead (.jumpTimeout wait h) s u h fun y => lost y 4 ∧ y.land.jumpPhase = 0)

/-- Wedges, tracking and seeks (R132, R159, R222, R223, R232, R233, R234): the completion of a wedge, tracking lock and its loss, and the
timeouts of a seek and of hold. -/
def Obligations.TrackingEvents : Prop :=
  ∀ (s : State) (wait : Nat) (h : Fin 32), let u := s.pass wait; let x := u.head h; let c := u.ctx h
    let failed (y : Head) (code : Nat) : Prop := y.r LandReg.HSTATE = 4 ∧ y.r LandReg.TSTAT = 0 ∧
      y.b LandReg.BAND_KNOWN = false ∧ y.land.seekOn = false ∧ (x.b LandReg.CMD_BUSY = true →
        y.r LandReg.LAST_CODE = code ∧ y.b LandReg.CMD_FAIL = true ∧ y.b LandReg.CMD_BUSY = false) ∧
      x.KeepsFields y trackFields
    let on (y : Head) (f : Fld) : Prop := x.namesLoop (x.r f) = true → y.b (LoopReg.ENABLE (x.r f)) = true
    x.inReset = false →
      (∀ w, x.land.winClose = some w → x.framesIn w = true → CompletesHead (.wedgeComplete wait h) s u h fun y =>
        let r := wedgeCode w (x.land.edges.filter fun e => decide (w.openTe ≤ e.at16 ∧ e.at16 < w.closeTe))
        y.land.winClose = none ∧ y.r LandReg.WEDGE_CODE = r.1 ∧ y.r LandReg.WEDGE_NUM = w.num % 256 ∧
        (r.1 = 0 → y.r LandReg.RHO = (clampInt 0 (2 ^ 28 - 1) r.2).toNat ∧ y.land.wedges = x.land.wedges + 1 ∧
          y.land.teLast = y.ri LandReg.TE ∧ y.r LandReg.WEDGE_INV_COUNT = x.r LandReg.WEDGE_INV_COUNT) ∧
        (r.1 ≠ 0 → y.b LandReg.WEDGE_INVALID = true ∧ y.r LandReg.RHO = x.r LandReg.RHO ∧ y.r LandReg.TE = x.r LandReg.TE ∧
          y.r LandReg.WEDGE_INV_COUNT = min 65535 (x.r LandReg.WEDGE_INV_COUNT + 1)) ∧
        x.KeepsFields y (trackFields ++ [AngleReg.ALIGN, AngleReg.DISC_OFFSET, AngleReg.INDEX_RESID, AngleReg.INDEX_SLIP,
          AngleReg.SKIP, AngleReg.SKIP_COUNT, LandReg.OFF_TRACK, LandReg.WEDGE_INVALID, LandReg.BAND_SLIP, LandReg.ID_BAD,
          LandReg.LAYER_MISMATCH, LandReg.TRACK_E, LandReg.RHO, LandReg.BAND_E, LandReg.TE, LandReg.ID_EVEN, LandReg.ID_ODD,
          LandReg.WEDGE_CODE, LandReg.WEDGE_NUM, LandReg.WEDGE_INV_COUNT, LandReg.OFF_TRACK_COUNT] ++
          [0, 1].flatMap fun g => [StepReg.OWNER g, StepReg.MCMD_REFUSED g, StepReg.PLAN_N1 g, StepReg.PLAN_N2 g,
            StepReg.PLAN_CREEP g])) ∧
      (x.r LandReg.HSTATE = 5 → x.land.seekOn = true → x.r LandReg.TSTAT = 1 ∨ x.r LandReg.TSTAT = 5 →
        (atLeast1 (x.r LandReg.TLOCK_N) ≤ x.land.lockRun → CompletesHead (.trackingLock wait h) s u h fun y =>
          y.r LandReg.HSTATE = 6 ∧ y.r LandReg.TSTAT = 6 ∧ y.r WeftReg.BAND_EXP = x.targetBand % 8192 ∧
          y.land.seekOn = false ∧ y.land.lockRun = 0 ∧ (x.b LandReg.CMD_BUSY = true → y.r LandReg.LAST_CODE = 0 ∧
            y.b LandReg.CMD_DONE = true ∧ y.b LandReg.CMD_BUSY = false) ∧
          x.KeepsFields y (WeftReg.BAND_EXP :: trackFields ++
            (List.range 32).flatMap fun b => [WriteReg.RPOWER b, WriteReg.WPOWER b]))) ∧
      (x.r LandReg.TSTAT = 6 → 2 ≤ x.land.lossRun ∨ atLeast1 (x.r LandReg.INV_N) ≤ x.land.invRun →
        CompletesHead (.trackLost wait h) s u h fun y => y.b LandReg.TRACK_LOST = true ∧
          y.r LandReg.TRACK_LOST_COUNT = min 65535 (x.r LandReg.TRACK_LOST_COUNT + 1) ∧ y.land.lossRun = 0 ∧
          (x.tracking = true → y.r LandReg.HSTATE = 4 ∧ y.r LandReg.TSTAT = 0 ∧ y.b LandReg.BAND_KNOWN = false) ∧
          (x.tracking = false → x.KeepsFields y [LandReg.TRACK_LOST, LandReg.TRACK_LOST_COUNT]) ∧
          x.KeepsFields y ([LandReg.TRACK_LOST, LandReg.TRACK_LOST_COUNT] ++ trackFields)) ∧
      (x.land.seekOn = true → x.r LandReg.TSTAT = 3 → x.land.seekAt + cyclesOfUs (x.r LandReg.SETTLE_T) ≤ c.cyc →
        CompletesHead (.settleEnd wait h) s u h fun y =>
          (x.b LandReg.BAND_KNOWN = false → y.r LandReg.TSTAT = 4 ∧ on y LandReg.TRACK_LOOP ∧ on y LandReg.FOLLOW_LOOP ∧
            y.land.seekAt = c.cyc ∧ y.r LandReg.HSTATE = x.r LandReg.HSTATE ∧ x.KeepsFields y trackFields) ∧
          (x.b LandReg.BAND_KNOWN = true → x.land.seekTrackOn = true ∨ x.nearTarget = true → on y LandReg.TRACK_LOOP ∧
            y.r LandReg.TSTAT = (if x.land.seekTrackOn then 1 else 5) ∧ y.land.seekAt = c.cyc ∧
            y.land.target = (if x.land.seekTrackOn then x.bandE else x.land.seekTarget) ∧
            y.r LandReg.HSTATE = x.r LandReg.HSTATE ∧ x.KeepsFields y (LandReg.TRACK_E :: trackFields)) ∧
          (x.b LandReg.BAND_KNOWN = true → x.land.seekTrackOn = false → x.nearTarget = false →
            atLeast1 (x.r LandReg.SEEK_TRIES) ≤ x.land.seekTries → failed y 8)) ∧
      (x.land.seekOn = true → x.r LandReg.TSTAT = 4 → x.b LandReg.BAND_KNOWN = false →
        x.land.seekAt + cyclesOfUs (atLeast1 (x.r LandReg.ID_TO)) ≤ c.cyc →
        CompletesHead (.idTimeout wait h) s u h fun y => failed y 6) ∧
      (x.land.seekOn = true → x.r LandReg.TSTAT = 1 ∨ x.r LandReg.TSTAT = 5 →
        x.land.seekAt + cyclesOfUs (atLeast1 (x.r LandReg.TLOCK_TO)) ≤ c.cyc →
        CompletesHead (.tlockTimeout wait h) s u h fun y => failed y 7) ∧
      (x.b LoopReg.HOLD_ACTIVE = true → x.land.holdAt + cyclesOfUs (atLeast1 (x.r LandReg.HOLD_MAX)) ≤ c.cyc →
        CompletesHead (.holdTimeout wait h) s u h fun y => y.b LoopReg.HOLD_ACTIVE = false ∧
          y.b LandReg.HOLD_TIMEOUT = true ∧ y.land.holdBlocked = x.weft.holdReq ∧
          y.r LandReg.HSTATE = x.r LandReg.HSTATE ∧ x.KeepsFields y (LandReg.HOLD_TIMEOUT :: followFields))

/-- The spindle drive (R240, R243, R246, R247, R248, R252, R258, R259, R260, R261): its faults, reports and interlocks, the settle of a
probe, and the commands of SCMD and CHOP_SILENT. -/
def Obligations.SpindleDrive : Prop :=
  let ends := stateFields ++ [LandReg.LAST_CODE, LandReg.CMD_BUSY, LandReg.CMD_DONE, LandReg.CMD_FAIL]
  (∀ (s : State) (wait : Nat) (h : Fin 32), let u := s.pass wait; let x := u.head h; let c := u.ctx h
    let st := x.r SpinReg.SSTATE
    let off (y : Head) : Prop := ∀ f ∈ [SpinReg.SPD_LOOP, SpinReg.ID_LOOP, SpinReg.IQ_LOOP], x.r f < 24 →
      y.b (LoopReg.ENABLE (x.r f)) = false
    let failed (y : Head) (code : Nat) : Prop := x.b SpinReg.CATCH_RUN = true → y.b SpinReg.CATCH_RUN = false ∧
      y.b SpinReg.CATCH_FAILED = true ∧ y.r SpinReg.SCODE = code ∧ (x.r LandReg.HSTATE = 3 → y.r LandReg.HSTATE = 1)
    x.inReset = false →
      (x.spin.seen = true → x.spin.fault = false → x.spin.lastGood + 1000 * atLeast1 (x.r SpinReg.MHOLD) ≤ c.ns →
        CompletesHead (.angleFault wait h) s u h fun y => y.b SpinReg.ANGLE_FAULT = true ∧ y.b SpinReg.MVALID = false ∧
          y.b SpinReg.STOPPED = false ∧ y.spin.fault = true ∧
          (x.tripDue = true → y.r SpinReg.SSTATE = st) ∧
          (x.tripDue = false → st ∈ [2, 3, 4, 6] → y.r SpinReg.SSTATE = 1 ∧ off y ∧ failed y 3 ∧
            (x.b SpinReg.CATCH_RUN = false → y.r SpinReg.SCODE = 5)) ∧
          (x.tripDue = false → st = 5 → y.r SpinReg.SSTATE = 5 ∧ failed y 3) ∧
          (x.tripDue = false → st = 0 → y.r SpinReg.SSTATE = 1) ∧
          (st ∉ [0, 2, 3, 4, 5, 6] → y.r SpinReg.SSTATE = st) ∧
          x.KeepsFields y (ends ++ [SpinReg.ANGLE_FAULT, SpinReg.MVALID, SpinReg.STOPPED])) ∧
      (∀ t, x.b SpinReg.STOPPED = false → x.slow = true → x.spin.below = some t →
        t + cyclesOfMs (atLeast1 (x.r SpinReg.STOP_CONF)) ≤ c.cyc →
        CompletesHead (.stoppedConfirm wait h) s u h fun y => y.b SpinReg.STOPPED = true ∧
          (st = 1 ∨ (st = 5 ∧ x.b SpinReg.CATCH_RUN = false) → y.r SpinReg.SSTATE = 0) ∧
          (st = 2 → x.spin.stopReq = true → x.r SpinReg.W_CMD = 0 → y.r SpinReg.SSTATE = 0 ∧ off y) ∧
          (st = 2 → x.spin.stopReq = false ∨ x.r SpinReg.W_CMD ≠ 0 → y.r SpinReg.SSTATE = 2) ∧
          (st = 5 → x.b SpinReg.CATCH_RUN = true → y.r SpinReg.SSTATE = 5) ∧
          x.KeepsFields y (SpinReg.STOPPED :: loopFields ++ driveFields)) ∧
      (st = 2 → x.b SpinReg.AT_SPEED = false → atLeast1 (x.r SpinReg.AT_N) ≤ x.spin.atRun →
        CompletesHead (.atSpeed wait h) s u h fun y => y.b SpinReg.AT_SPEED = true ∧
          (x.r LandReg.HSTATE = 2 → y.r LandReg.HSTATE = 4 ∧ (x.b LandReg.CMD_BUSY = true → y.r LandReg.LAST_CODE = 0 ∧
            y.b LandReg.CMD_DONE = true ∧ y.b LandReg.CMD_BUSY = false)) ∧
          (x.r LandReg.HSTATE ≠ 2 → x.KeepsFields y [SpinReg.AT_SPEED]) ∧ x.KeepsFields y ends) ∧
      (st = 2 → x.b SpinReg.AT_SPEED = false → x.spin.atTimeout = false →
        x.spin.driveAt + cyclesOfMs (atLeast1 (x.r SpinReg.SPIN_TO)) ≤ c.cyc →
        CompletesHead (.spinTimeout wait h) s u h fun y => y.b SpinReg.SPIN_TIMEOUT = true ∧ y.r SpinReg.SCODE = 6 ∧
          y.spin = { x.spin with atTimeout := true } ∧ x.KeepsFields y [SpinReg.SPIN_TIMEOUT, SpinReg.SCODE]) ∧
      (x.b SpinReg.VOLT_LIMITED = false → x.spin.limRun = 8 →
        CompletesHead (.voltLimited wait h) s u h fun y => y.b SpinReg.VOLT_LIMITED = true ∧ y.b SpinReg.VLIM = true ∧
          y.r SpinReg.VLIM_COUNT = min 65535 (x.r SpinReg.VLIM_COUNT + 1) ∧
          x.KeepsFields y [SpinReg.VOLT_LIMITED, SpinReg.VLIM, SpinReg.VLIM_COUNT]) ∧
      (∀ t, st = 3 → x.settleEnd = some t → t ≤ c.ns →
        CompletesHead (.probeSettleEnd wait h) s u h fun y => y.spin.settleAt = none ∧
          (x.b SpinReg.MVALID = false → y.r SpinReg.SSTATE = 1 ∧ failed y 3) ∧
          (x.b SpinReg.MVALID = true → x.spin.probeCatch = true → x.b SpinReg.STOPPED = true → y.r SpinReg.SSTATE = 2 ∧
            y.b SpinReg.CATCH_RUN = false ∧ y.b SpinReg.CATCH_DONE = true ∧ y.r SpinReg.W_CMD = 0 ∧
            y.r SpinReg.CATCH_COUNT = min 65535 (x.r SpinReg.CATCH_COUNT + 1) ∧
            (x.r LandReg.HSTATE = 3 → y.r LandReg.HSTATE = 2)) ∧
          (x.b SpinReg.MVALID = true → x.spin.probeCatch = false ∨ x.b SpinReg.STOPPED = false →
            y.r SpinReg.SSTATE = 4 ∧ (x.up = true → y.riser.queue = x.riser.queue ++
              [{ RCmd.reset with op := 7, arg := 2, src := .spindle, issued := 16 * t - 320 }]) ∧
            x.KeepsFields y driveFields) ∧
          x.KeepsFields y (ends ++ [SpinReg.CATCH_DONE, SpinReg.CATCH_COUNT, SpinReg.W_CMD])) ∧
      (st = 5 → x.b SpinReg.CATCH_RUN = true → x.spin.catchAt + cyclesOfMs (atLeast1 (x.r SpinReg.CATCH_TO)) ≤ c.cyc →
        CompletesHead (.catchTimeout wait h) s u h fun y => failed y 2 ∧ y.r SpinReg.SSTATE = 5 ∧ x.KeepsFields y ends) ∧
      (st = 6 → x.spin.alignAt + cyclesOfMs (atLeast1 (x.r SpinReg.ALIGN_T)) ≤ c.cyc →
        CompletesHead (.alignDone wait h) s u h fun y => y.b SpinReg.ALIGN_DONE = true ∧ y.r SpinReg.SSTATE = 0 ∧
          (y.r SpinReg.ELEC_OFS_MEAS + x.polePairs * x.thetaM c.now) % 2 ^ 24 = 0 ∧
          (x.up = true → y.riser.queue = x.riser.queue ++
            [{ RCmd.reset with op := 7, arg := 0, src := .spindle, issued := c.now }]) ∧
          x.KeepsFields y (SpinReg.ALIGN_DONE :: SpinReg.ELEC_OFS_MEAS :: driveFields)) ∧
      (x.spin.silentRun = 64 → CompletesHead (.chopSilentLatch wait h) s u h fun y => y.b SpinReg.CHOP_SILENT = true ∧
        y.b SpinReg.CHOP_BAD = true ∧ y.spin = { x.spin with silentRun := 0, silentLatch := true } ∧
        x.KeepsFields y [SpinReg.CHOP_SILENT, SpinReg.CHOP_BAD]) ∧
      (let fault (t : State) : Prop := (x.r LandReg.HSTATE ∉ [0, 11] → (t.head h).r LandReg.HSTATE = 11 ∧
          (t.head h).b LandReg.FAULT_ENTERED = true ∧ (t.head h).r RiserReg.SAFE_CAUSE = 1) ∧
          (x.r LandReg.HSTATE ∈ [0, 11] → (t.head h).r LandReg.HSTATE = x.r LandReg.HSTATE) ∧
          (∀ k, k ≠ h → t.head k = u.head k) ∧ s.ChangesOnly [.time, .heads, .tiles, .atria] t;
        (atLeast1 (x.r SpinReg.OV_N) ≤ x.spin.ovRun → Completes (.ovTrip wait h) s fun t =>
          (t.head h).b SpinReg.OV_TRIP = true ∧ (x.b SpinReg.CATCH_RUN = false → st ≠ 6 → (t.head h).r SpinReg.SCODE = 8) ∧
          (t.head h).r SpinReg.OV_COUNT = min 65535 (x.r SpinReg.OV_COUNT + 1) ∧ fault t) ∧
        (atLeast1 (x.r SpinReg.OC_N) ≤ x.spin.ocRun → Completes (.ocTrip wait h) s fun t =>
          (t.head h).b SpinReg.OC_TRIP = true ∧ (t.head h).r SpinReg.OC_COUNT = min 65535 (x.r SpinReg.OC_COUNT + 1) ∧
          fault t)) ∧
      (∀ t₀, x.spin.ovSince = some t₀ → t₀ + cyclesOfMs 1 ≤ u.cycle → Completes (.ovPersist wait h) s fun t =>
        (t.head h).b SpinReg.OV_PERSIST = true ∧ (t.head h).spin = { x.spin with ovSince := none } ∧
        x.KeepsFields (t.head h) [SpinReg.OV_PERSIST] ∧ (∀ k, k ≠ h → t.head k = u.head k) ∧
        s.ChangesOnly [.time, .heads, .tiles, .atria] t)) ∧
  (∀ (s : State) (q : Req) (h : Fin 32) (v : Word), let x := s.head h
    (s.accessOf q (.head h 0x20000) = .ok → let u := s.atHead q h 0x20000
      let word := fieldsIn headFields 0x20000
      (x.r SpinReg.SSTATE = 0 → x.r LandReg.HSTATE = 1 → CompletesHead (.alignRun q h v) s u h fun y =>
        y.Took 0x20000 v ∧ y.r SpinReg.SSTATE = 6 ∧ y.spin.alignAt = (u.ctx h).cyc ∧
        (x.up = true → y.riser.queue.length = x.riser.queue.length + 4) ∧ x.KeepsFields y (word ++ driveFields)) ∧
      (¬ (x.r SpinReg.SSTATE = 0 ∧ x.r LandReg.HSTATE = 1) → CompletesHead (.alignRun q h v) s u h fun y =>
        y.Took 0x20000 v ∧ y.b SpinReg.SCMD_REFUSED = true ∧ y.r SpinReg.SCODE = 9 ∧ y.spin = x.spin ∧
        y.riser = x.riser ∧ x.KeepsFields y (word ++ [SpinReg.SCMD_REFUSED, SpinReg.SCODE])) ∧
      CompletesHead (.scmdNop q h v) s u h (fun y => y.Took 0x20000 v ∧ y.spin = x.spin ∧ x.KeepsFields y word) ∧
      CompletesHead (.scmdReserved q h v) s u h (fun y => y.Took 0x20000 v ∧ y.b SpinReg.SCMD_REFUSED = true ∧
        y.spin = x.spin ∧ x.KeepsFields y (word ++ [SpinReg.SCMD_REFUSED]))) ∧
    (s.accessOf q (.head h 0x20008) = .ok → CompletesHead (.chopSilent q h v) s (s.atHead q h 0x20008) h fun y =>
      y.b SpinReg.CHOP_SILENT = false ∧ y.spin = { x.spin with silentLatch := false } ∧
      y.b SpinReg.CHOP_BAD = bitOf x.land.lastInputs 7 ∧ x.KeepsFields y (SpinReg.CHOP_BAD :: fieldsIn headFields 0x20008)))

/-- The step generators (R265, R266, R268, R271, R272, R274, R276, R278, R279): one tick of both, the commands of MCMD, the deviation
checks, the limit switches and the reduced current. -/
def Obligations.StepGenerators : Prop :=
  let endFields (g : Fin 2) := [StepReg.GSTATE g, StepReg.HPHASE g, StepReg.OWNER g, StepReg.END_CODE g, StepReg.MOVE_DONE g,
    StepReg.HOME_DONE g, StepReg.HOME_FAIL g]
  let asked (a : StepSt) (code : Nat) : Option Nat := match a.hardReq with
    | none => some code
    | some k => if stopRank code < stopRank k then some code else some k
  (∀ (s : State) (wait : Nat) (h : Fin 32), let u := s.pass wait; let x := u.head h; let c := u.ctx h
    x.inReset = false → x.tickDue c = true →
      (∀ g : Fin 2, ((x.gen g).stopReq = none ∨ (x.gen g).hardReq ≠ none) ∧ (x.gen g).phaseNext = 0 ∧ x.r (StepReg.HPHASE g) = 0 ∧
        x.b (StepReg.OWNER g) = false) →
      let n := x.nextTick c
      CompletesHead (.stepTick wait h) s u h fun y =>
        (∀ g : Fin 2, let a := x.gen g; let b := y.gen g; let st := x.r (StepReg.GSTATE g)
          let ended (code : Nat) : Prop := y.r (StepReg.GSTATE g) = 0 ∧ y.r (StepReg.END_CODE g) = code % 16 ∧
            y.b (StepReg.MOVE_DONE g) = true ∧ b.plan = none
          let tr := if x.trimOf g n ≠ 0 ∧ st ≠ 3 ∧ x.blocked g (signOf (x.trimOf g n)) = true then 0 else x.trimOf g n
          (∀ code, a.hardReq = some code → ended (if code = 4 ∧ a.stopReq = some 3 then 3 else code)) ∧
          (a.hardReq = none → let va := match a.plan with
                | some p => if st = 4 then (0, 0) else p.at (p.j + 1)
                | none => (0, 0)
            b.x = signedOf 64 (unsignedOf 64 (a.x + va.1 + tr * 2 ^ 8)) ∧ b.hist = ((n, b.x) :: a.hist).take 64 ∧
            y.ri (StepReg.VEL g) = sat32 ((va.1 + tr * 2 ^ 8) / 2 ^ 8) ∧
            (a.plan = none → b.plan = none ∧ y.r (StepReg.GSTATE g) = st) ∧
            (∀ p, a.plan = some p → p.kind ≠ 1 ∧ p.ticks ≤ p.j + 1 → ended p.endCode) ∧
            (∀ p, a.plan = some p → p.kind = 1 ∨ p.j + 1 < p.ticks →
              b.plan = some { p with j := p.j + 1 } ∧ y.r (StepReg.GSTATE g) = st))) ∧
        x.KeepsFields y ([0, 1].flatMap fun g => endFields g ++ [StepReg.VEL g, StepReg.A_FF g, StepReg.TRIM g,
          StepReg.TRIM_ACTIVE g, StepReg.TRIM_BLOCKED g])) ∧
  (∀ (s : State) (q : Req) (h : Fin 32) (g : Fin 2) (v : Word), let off := 0x30000 + 0x100 * g.val
    s.accessOf q (.head h off) = .ok → let u := s.atHead q h off; let x := s.head h; let a := x.gen g
      let st := x.r (StepReg.GSTATE g); let d := x.ri (StepReg.MOVE_DIST g)
      let amax := x.r (StepReg.AMAX g); let vmax := x.r (StepReg.VMAX g) * 2 ^ 8
      let refused (i : Instr) : Prop := CompletesHead i s u h fun y => y.b (StepReg.MCMD_REFUSED g) = true ∧
        y.gens = x.gens ∧ y.riser = x.riser ∧ x.KeepsFields y [StepReg.MCMD_REFUSED g]
      let refusedAs (code : Nat) (i : Instr) : Prop := CompletesHead i s u h fun y =>
        y.b (StepReg.MCMD_REFUSED g) = true ∧ y.r (StepReg.END_CODE g) = code ∧ y.gens = x.gens ∧
        x.KeepsFields y [StepReg.MCMD_REFUSED g, StepReg.END_CODE g]
      let asks (i : Instr) (b : StepSt) : Prop := CompletesHead i s u h fun y => y.gen g = b ∧
        (∀ k, k ≠ g → y.gen k = x.gen k) ∧ y.regs = x.regs
      exec (.mcmdNop q h g v) s = .next u ∧ refused (.mcmdReserved q h g v) ∧
      (st ≠ 0 → refusedAs 6 (.move q h g v) ∧ refusedAs 6 (.home q h g v)) ∧
      (st = 0 → x.blocked g (signOf d) = true → refusedAs 7 (.move q h g v)) ∧
      (st = 0 → x.blocked g (signOf d) = false → d = 0 → CompletesHead (.move q h g v) s u h fun y =>
        y.r (StepReg.END_CODE g) = 0 ∧ y.b (StepReg.MOVE_DONE g) = true ∧ y.r (StepReg.GSTATE g) = 0 ∧
        x.KeepsFields y (endFields g)) ∧
      (st = 0 → x.blocked g (signOf d) = false → d ≠ 0 → amax = 0 ∨ vmax < amax → refusedAs 8 (.move q h g v)) ∧
      (st = 0 → x.blocked g (signOf d) = false → d ≠ 0 → amax ≠ 0 → amax < 2 ^ 32 → amax ≤ vmax →
        CompletesHead (.move q h g v) s u h fun y => ∃ p, (y.gen g).plan = some p ∧ p.kind = 0 ∧ p.j = 0 ∧ p.a = amax ∧
          p.s = signOf d ∧ p.n1 = min (vmax / amax) (Nat.sqrt (d.natAbs * 2 ^ 32 / amax)) ∧ p.r < amax * p.n1 ∧
          amax * p.n1 * (p.n1 + p.n2) + p.r = d.natAbs * 2 ^ 32 ∧ p.c = (if 0 < p.r then 1 else 0) ∧
          y.r (StepReg.GSTATE g) = 1 ∧ y.b (StepReg.OWNER g) = false ∧ y.r (StepReg.PLAN_N1 g) = p.n1 % 2 ^ 32 ∧
          y.r (StepReg.PLAN_N2 g) = p.n2 % 2 ^ 32 ∧ y.r (StepReg.PLAN_CREEP g) = p.c ∧ (y.gen g).x = a.x ∧
          x.KeepsFields y [StepReg.GSTATE g, StepReg.OWNER g, StepReg.PLAN_N1 g, StepReg.PLAN_N2 g,
            StepReg.PLAN_CREEP g]) ∧
      (st = 1 → asks (.mcmdStop q h g v) { a with stopReq := a.stopReq.orElse fun _ => some 1 }) ∧
      (st = 3 → asks (.mcmdStop q h g v) { a with hardReq := asked a 1 }) ∧
      (st ≠ 1 → st ≠ 3 → refused (.mcmdStop q h g v)) ∧
      (st ∈ [1, 2, 3] → asks (.halt q h g v) { a with hardReq := asked a 2 }) ∧
      (st ∉ [1, 2, 3] → refused (.halt q h g v)) ∧
      (st = 0 → CompletesHead (.home q h g v) s u h fun y => y.r (StepReg.GSTATE g) = 3 ∧
        y.b (StepReg.HOMED g) = false ∧ y.gen g = { a with
          plan := none, stopReq := none, hardReq := none, phaseNext := if x.b (StepReg.LIM_LO g) then 1 else 2 } ∧
        x.KeepsFields y [StepReg.GSTATE g, StepReg.OWNER g, StepReg.HOMED g]) ∧
      (st = 0 → x.b (StepReg.TRIM_ACTIVE g) = false → asks (.rebase q h g v) { a with rebase := true }) ∧
      (st ≠ 0 ∨ x.b (StepReg.TRIM_ACTIVE g) = true → refused (.rebase q h g v))) ∧
  (∀ (s : State) (wait : Nat) (h : Fin 32) (g : Fin 2), let u := s.pass wait; let x := u.head h; let c := u.ctx h
    let a := x.gen g; let st := x.r (StepReg.GSTATE g)
    let rest (t : State) : Prop := (∀ k, k ≠ h → t.head k = u.head k) ∧ (∀ k, k ≠ g → (t.head h).gen k = x.gen k) ∧
      s.ChangesOnly [.time, .heads, .tiles, .atria] t
    x.inReset = false →
      (a.stallArmed = true → atLeast1 (x.r (StepReg.STALL_N g)) ≤ a.stallRun → Completes (.stall wait h g) s fun t =>
        let y := t.head h
        y.b (StepReg.STALL g) = true ∧ y.r (StepReg.STALL_COUNT g) = min 65535 (x.r (StepReg.STALL_COUNT g) + 1) ∧
        y.gen g = { a with
          stallArmed := false, stallRun := 0
          hardReq := if x.b (StepReg.STALL_STOP g) = true ∧ st ∈ [1, 2, 3] then asked a 4 else a.hardReq } ∧
        x.KeepsFields y [StepReg.STALL g, StepReg.STALL_COUNT g] ∧ rest t) ∧
      (a.lostArmed = true → atLeast1 (x.r (StepReg.STALL_N g)) ≤ a.lostRun → CompletesHead (.lostStep wait h g) s u h fun y =>
        y.b (StepReg.LOST_STEP g) = true ∧ y.r (StepReg.LOST_COUNT g) = min 65535 (x.r (StepReg.LOST_COUNT g) + 1) ∧
        y.gen g = { a with lostArmed := false, lostRun := 0 } ∧ x.KeepsFields y [StepReg.LOST_STEP g, StepReg.LOST_COUNT g]) ∧
      (∀ hi : Bool, let lim := if hi then StepReg.LIM_HI g else StepReg.LIM_LO g; let ph := x.r (StepReg.HPHASE g)
        let flag := if hi then StepReg.LIMIT_HI g else StepReg.LIMIT_LO g
        let toward := if hi then 0 < x.motionSign g else x.motionSign g < 0
        atLeast1 (x.r (StepReg.DB_N g)) ≤ (if hi then a.runHi else a.runLo) →
          Completes (.limitDebounce wait h g hi) s fun t => let y := t.head h; let b := y.gen g
            (y.b lim ↔ x.b lim = false) ∧ (if hi then b.runHi else b.runLo) = 0 ∧ b.plan = a.plan ∧ b.x = a.x ∧
            (st ≠ 3 → x.b lim = false → toward → y.b flag = true ∧
              y.r (StepReg.LIMIT_COUNT g) = min 65535 (x.r (StepReg.LIMIT_COUNT g) + 1) ∧
              (x.b (StepReg.LIM_MODE g) = true → b.stopReq = some 3 ∧ b.hardReq = a.hardReq) ∧
              (x.b (StepReg.LIM_MODE g) = false → b.stopReq = a.stopReq ∧ b.hardReq = asked a 3)) ∧
            (st ≠ 3 → x.b lim = true ∨ ¬ toward → b.stopReq = a.stopReq ∧ b.hardReq = a.hardReq ∧
              x.KeepsFields y [lim]) ∧
            (st = 3 → b.stopReq = a.stopReq ∧
              (hi = true → b.phaseNext = a.phaseNext ∧
                b.hardReq = if x.b lim then a.hardReq else asked a 10) ∧
              (hi = false → ph = 1 → x.b lim = true → b.phaseNext = 2 ∧ b.hardReq = a.hardReq) ∧
              (hi = false → ph = 2 → x.b lim = false → b.phaseNext = 3 ∧ b.hardReq = a.hardReq) ∧
              (hi = false → ph = 3 → x.b lim = true → b.phaseNext = a.phaseNext ∧
                (∀ p, a.runLoPos = some p → b.encOrg = p.1 ∧ b.xOrg = p.2 ∧ y.b (StepReg.HOMED g) = true ∧
                  y.b (StepReg.ORG_VALID g) = true ∧ b.hardReq = asked a 0) ∧
                (a.runLoPos = none → b.hardReq = asked a 11))) ∧
            x.KeepsFields y [lim, flag, StepReg.LIMIT_COUNT g, StepReg.HOMED g, StepReg.ORG_VALID g, StepReg.ORG_LATCHED g] ∧
            rest t) ∧
      (∀ hi : Bool, (if hi then a.chatSaidHi else a.chatSaidLo) = false →
        atLeast1 (x.r (StepReg.CHAT_MAX g)) ≤ (if hi then a.chatHi else a.chatLo) →
          CompletesHead (.chatter wait h g hi) s u h fun y => y.b (StepReg.CHATTER g) = true ∧
            y.r (StepReg.CHATTER_COUNT g) = min 65535 (x.r (StepReg.CHATTER_COUNT g) + 1) ∧
            y.gen g = (if hi then { a with chatSaidHi := true } else { a with chatSaidLo := true }) ∧
            x.KeepsFields y [StepReg.CHATTER g, StepReg.CHATTER_COUNT g]) ∧
      (a.reduced = false → st ∉ [1, 2, 3] → x.b (StepReg.TRIM_ACTIVE g) = false →
        a.mChanged + atLeast1 (x.r (StepReg.HOLD_DELAY g)) ≤ c.tick →
        CompletesHead (.holdCurrent wait h g) s u h fun y => y.gen g = { a with reduced := true } ∧
          (∀ k, k ≠ g → y.gen k = x.gen k) ∧ y.regs = x.regs))

/-- Archive sets (R303, R304, R305, R312, R313, R314, R316, R324, R331): the set commands with their refusals, the records of
the journal, the commit of stripes, and the pacing of background work. -/
def Obligations.SetCommands : Prop :=
  let wear := [BootReg.WEAR_WARN, BootReg.WEAR_MAX_LO, BootReg.WEAR_MAX_HI, BootReg.WEAR_TILE]
  let logs := (List.range 8).flatMap fun l => [EvReg.EV_SEQ l, EvReg.EV_DROP l, EvReg.EV_NEW l]
  (∀ (s : State) (q : Req) (n : Fin 8) (v : Word), let off := 0x4000 + 0x100 * n.val
    s.accessOf q (.pkg off) = .ok → let u := s.atPkg q off
      let d := (u.aset n).cfg; let m := v.toNat / 16 % 32; let drop := v.toNat / 512 % 2
      let broken := (u.tile d.homeTile).journalBuf.bad 0 (2 ^ 32)
      let p := (u.memberMasks n).1; let r := (u.memberMasks n).2
      let members := [(Instr.absent q n v, bitOf p m || bitOf r m, putBit p m false, putBit r m false, drop),
        (Instr.present q n v, !bitOf p m && !bitOf r m, putBit p m true, r, 0),
        (Instr.rebuildStart q n v, !bitOf p m && !bitOf r m && r &&& d.mask == 0, p, putBit r m true, 0),
        (Instr.rebuildEnd q n v, bitOf r m, putBit p m true, putBit r m false, 0)]
      let all := [Instr.online q n v, Instr.suspend q n v, Instr.resume q n v, Instr.setCmdReserved q n v] ++ members.map (·.1)
      let refused (i : Instr) (code : Nat) : Prop :=
        exec i s = .next ((u.sw n SetReg.CMD_STATUS code).sset n SetReg.CMD_REFUSED)
      let done (i : Instr) (f : Nat → Fld) (x : Nat) : Prop := Completes i s fun t =>
        t.sr n f = x ∧ t.sr n SetReg.CMD_STATUS = 0 ∧ t.sr n SetReg.CMD_DONE = 1 ∧ t.sr n SetReg.SSTATE = t.sstate n ∧
        (t.sstate n ≠ u.sr n SetReg.SSTATE → t.sr n SetReg.STATE_CHANGE = 1) ∧
        (∀ w, (u.atrium w).KeepsFields (t.atrium w) ([f n, SetReg.CMD_STATUS n, SetReg.CMD_DONE n, SetReg.SUSP_CAUSE n,
          SetReg.SSTATE n, SetReg.STATE_CHANGE n, HostReg.ALERT_SRC, BootReg.SELV_REFUSED] ++ wear ++ logs)) ∧
        s.ChangesOnly [.time, .tiles, .ports, .atria, .pkg, .shadows] t
      (u.allowedSet q n = false → ∀ i ∈ all, refused i 2) ∧
      (u.allowedSet q n = true → refused (.setCmdReserved q n v) 3 ∧
        (d.n = 0 → ∀ i ∈ all, refused i 3) ∧ (d.n ≤ m → ∀ e ∈ members, refused e.1 3) ∧
        (d.n ≠ 0 →
          (u.sr n SetReg.ONLINE_DONE ≠ 0 → refused (.online q n v) 1) ∧
          (u.sr n SetReg.ONLINE_DONE = 0 → u.storeRefuses = false → done (.online q n v) SetReg.ONLINE_DONE 1) ∧
          (u.sr n SetReg.ONLINE_DONE = 0 → u.storeRefuses = true → Completes (.online q n v) s fun t =>
            t.sr n SetReg.ONLINE_DONE = 0 ∧ t.sr n (fun _ => BootReg.SELV_REFUSED) = 1 ∧ 1 ≤ t.sr n SetReg.CMD_STATUS ∧
            t.sr n SetReg.CMD_REFUSED = 1 ∧ (∀ w, (u.atrium w).KeepsFields (t.atrium w) [SetReg.CMD_STATUS n, SetReg.CMD_REFUSED n,
              BootReg.SELV_REFUSED]) ∧ t.tiles = u.tiles ∧ s.ChangesOnly [.time, .tiles, .atria, .free, .shadows] t) ∧
          done (.suspend q n v) SetReg.SUSP_CAUSE (u.suspCause n ||| 2) ∧
          done (.resume q n v) SetReg.SUSP_CAUSE (u.suspCause n &&& 13) ∧
          (m < d.n → ∀ e ∈ members, (e.2.1 = false → refused e.1 1) ∧
            (e.2.1 = true → u.primaryUp n = false ∨ (u.tile d.homeTile).journalUe = true → refused e.1 4) ∧
            (e.2.1 = true → u.primaryUp n = true → (u.tile d.homeTile).journalUe = false → (u.aset n).owed = [] →
              (u.journalFits n [4] false = false → exec e.1 s = .next
                (((u.sset n SetReg.JOURNAL_FULL).sw n SetReg.CMD_STATUS 4).sset n SetReg.CMD_REFUSED)) ∧
              (u.journalFits n [4] false = true → broken = true → Completes e.1 s fun t => t.aset n = u.aset n ∧
                t.sr n SetReg.CMD_STATUS = 4 ∧ t.sr n SetReg.CMD_REFUSED = 1 ∧ (t.tile d.homeTile).journalUe = true ∧
                s.ChangesOnly [.time, .tiles, .ports, .atria, .pkg, .shadows] t) ∧
              (u.journalFits n [4] false = true → broken = false → Completes e.1 s fun t => ∃ x, (t.aset n).queue.getLast? = some x ∧
                x.type = 8 ∧ x.body = [BitVec.ofNat 64 (e.2.2.1 + e.2.2.2.1 * 2 ^ 32), BitVec.ofNat 64 (u.wseqNext n),
                  BitVec.ofNat 64 (m + e.2.2.2.2 * 32)] ∧ x.half = false ∧
                (u.aset n).queue.isPrefixOf (t.aset n).queue = true ∧
                t.aset n = { u.aset n with
                  queue := (t.aset n).queue, wpos := (t.aset n).wpos, recPos := (t.aset n).recPos } ∧
                (∀ k, k ≠ n → t.aset k = u.aset k) ∧
                (∀ w, (u.atrium w).KeepsFields (t.atrium w) [SetReg.JFREE n, SetReg.JSEQ_NEXT n]) ∧
                s.ChangesOnly [.time, .tiles, .sets, .atria, .shadows] t)))))) ∧
  (∀ (s : State) (wait : Nat) (n : Fin 8), let u := s.pass wait; let a := u.aset n; let d := a.cfg; let home := d.homeTile
    let marked (b : OpenBand) : List Nat := (List.range b.count).filter fun i => bitOf b.committed i
    let broken := (u.tile home).journalBuf.bad 0 (2 ^ 32)
    (let want := a.readyWseqs;
      want ≠ [] → a.replayed = true → u.suspCause n &&& 13 = 0 →
      (∀ w ∈ want, w < 2 ^ 40) → (a.pickCommits [] want).2 = want → a.owed = [] → 
      (u.journalFits n ((piecesOf 255 (want.length + 1) (rangeWords (runsOf want))).map fun b => 1 + b.length) true = true →
        (broken = true → Completes (.stripeCommit wait n) s fun t => t.sets = u.sets ∧ (t.tile home).journalUe = true ∧
          s.ChangesOnly [.time, .tiles, .ports, .atria, .pkg] t) ∧
        (broken = false → Completes (.stripeCommit wait n) s fun t =>
          (((t.aset n).queue.drop a.queue.length).filter (·.type == 4)).flatMap (fun r => wseqsOf (rangesOf r.body)) = want ∧
          (t.aset n).bands = a.bands ∧ (t.aset n).readyWseqs = [] ∧ (∀ k, k ≠ n → t.aset k = u.aset k) ∧
          (∀ w, (u.atrium w).KeepsFields (t.atrium w) [SetReg.JFREE n, SetReg.JSEQ_NEXT n]) ∧
          s.ChangesOnly [.time, .tiles, .sets, .atria] t)) ∧
      (u.journalFits n ((piecesOf 255 (want.length + 1) (rangeWords (runsOf want))).map fun b => 1 + b.length) true = false →
        exec (.stripeCommit wait n) s = .next (u.sset n SetReg.JOURNAL_FULL))) ∧
    (∀ x, a.queue.head? = some x → (x.type = 7 → broken = false) → u.primaryUp n = true → d.local = true ∨ u.split = false → u.journalInTime x.words = true →
      let l := a.queue.drop 1; let w0 := (x.body.headD 0).toNat; let w1 := (x.body.getD 1 0).toNat
      (u.mirrorUp n = false → u.split = false → Completes (.journalRecordDurable wait n) s fun t =>
        t.aset n = { a with queue := { x with half := true } :: l } ∧ t.sr n SetReg.MIRROR_LAG = 1 ∧
        (x.half = false → (t.tile home).selv.read (d.jword x.pos) = x.header) ∧
        (∀ w, (u.atrium w).KeepsFields (t.atrium w) (SetReg.MIRROR_LAG n :: wear)) ∧
        s.ChangesOnly [.time, .tiles, .sets, .atria] t) ∧
      (u.mirrorUp n = true ∨ u.split = true → Completes (.journalRecordDurable wait n) s fun t => let b := t.aset n
        (x.half = false → (t.tile home).selv.read (d.jword x.pos) = x.header) ∧
        (u.mirrorUp n = true → (t.tile d.mirrorTile).selv.read (d.jword x.pos) = x.header ∧ b.lag = []) ∧
        (u.mirrorUp n = false → b.lag = a.lag ++ [{ x with desc := none }] ∧ t.sr n SetReg.MIRROR_LAG = 1) ∧
        (x.type ≠ 7 → b.queue = l) ∧
        (x.type = 1 → ∃ o, b.bands.find? (·.wseqFirst == w0 % 2 ^ 40) = some o ∧ openOf x.body ∈ b.bands) ∧
        (x.type = 2 → b.bands = a.bands.map fun o => if o.wseqFirst = w0 % 2 ^ 40 then { o with
          deltas := o.deltas ++ pairsOf (x.body.drop 1) } else o) ∧
        (x.type = 4 → b.bands.map marked = a.bands.map fun o => (List.range o.count).filter fun i =>
          bitOf o.committed i || decide (o.wseqFirst + i ∈ wseqsOf (rangesOf x.body))) ∧
        (x.type = 8 → t.sr n SetReg.PRESENT = w0 % 2 ^ 32 ∧ t.sr n SetReg.REPLACING = w0 / 2 ^ 32 ∧
          t.sr n SetReg.CMD_STATUS = 0 ∧ t.sr n SetReg.CMD_DONE = 1 ∧ (d.n ≠ 0 → t.sr n SetReg.SSTATE = t.sstate n)) ∧
        (x.type = 7 → t.sr n SetReg.CKPT_SEQ = w0 % 2 ^ 32 ∧ t.sr n SetReg.WSEQ_AT_LO = w1 % 2 ^ 32 ∧
          t.sr n SetReg.WSEQ_AT_HI = w1 / 2 ^ 32 % 2 ^ 8 ∧ t.sr n SetReg.JSTART = (x.body.getD 2 0).toNat % 2 ^ 32) ∧
        (∀ k, k ≠ n → t.aset k = u.aset k) ∧
        (∀ w, (u.atrium w).KeepsFields (t.atrium w) (HostReg.ALERT_SRC :: SetReg.one n ++ wear ++ logs)) ∧
        s.ChangesOnly [.time, .tiles, .ports, .sets, .atria, .pkg] t))) ∧
  (∀ (s : State) (wait : Nat) (t : Fin 8), let u := s.pass wait; let x := u.tile t; let b := x.bolt
    u.tileUp t = true →
      (b.lastAccrual + 1600 ≤ u.cycle → let us := (u.cycle - b.lastAccrual) / 1600
        CompletesTile (.creditAccrual wait t) s u t fun y => y.regs = x.regs ∧ y.bolt = { b with
          credit := min (atLeast1 (x.r BoltReg.CREDIT_MAX) * 2 ^ 20) (b.credit + x.r BoltReg.RATE_NOW * us)
          lastAccrual := b.lastAccrual + 1600 * us }) ∧
      (b.winStart + cyclesOfUs (atLeast1 (x.r BoltReg.PACE_WIN)) ≤ u.cycle →
        let busy := b.hostBusy + (if x.hostWork then u.cycle - b.hostMark else 0)
        let share := 65536 * busy / (u.cycle - b.winStart)
        CompletesTile (.paceWindowEnd wait t) s u t fun y =>
          y.r BoltReg.U_LAST = min 65535 share ∧ y.r BoltReg.RATE_NOW = (x.r BoltReg.REB_FLOOR +
            (x.r BoltReg.REB_CEIL - x.r BoltReg.REB_FLOOR) * (65536 - share) / 65536) % 2 ^ BoltReg.RATE_NOW.width ∧
          y.bolt = { b with hostBusy := 0, hostMark := u.cycle, winStart := u.cycle } ∧
          x.KeepsFields y [BoltReg.U_LAST, BoltReg.RATE_NOW]))

/-- The Bolt engine (R161, R306, R310, R312, R316, R318, R321, R324, R327, R328): a descriptor leaves its ring and is
refused with its reason, begins, or writes its records; COMPUTE and PATROL complete. -/
def Obligations.BoltDescriptors : Prop :=
  ∀ (s : State) (wait : Nat) (t : Fin 8), let u := s.pass wait; let x := u.tile t
    let rows := [(Instr.compute wait t, 1), (Instr.patrol wait t, 2), (Instr.openBand wait t, 3), (Instr.delta wait t, 4),
      (Instr.land wait t, 5), (Instr.void wait t, 6), (Instr.remap wait t, 7), (Instr.ckptSnap wait t, 8),
      (Instr.checkpoint wait t, 9), (Instr.mapReplay wait t, 10)]
    let slots := atLeast1 (x.r BoltReg.CQ_SLOTS); let wr := x.r BoltReg.CQ_WR % slots
    let full := (wr + 1) % slots = x.r BoltReg.CQ_RD % slots; let cq := x.r BoltReg.CQ_BASE * 4096 + 64 * wr
    let posted (y : State) (c : BoltCpl) : Prop := let z := y.tile t
      z.bolt.active = none ∧
      (full → z.b BoltReg.CQ_FULL = true ∧ z.bolt.waiting = x.bolt.waiting ++ [c.bytes] ∧
        z.r BoltReg.CQ_WR = x.r BoltReg.CQ_WR) ∧
      (¬ full → x.bolt.waiting = [] → z.r BoltReg.CQ_WR = (wr + 1) % slots % 2 ^ 8 ∧ z.b BoltReg.DESC_DONE = true ∧
        (c.status = 1 → z.b BoltReg.DESC_REFUSED = true) ∧ z.bolt.waiting = [] ∧
        (inStaging cq 64 = true → y.stackBytes t cq 64 = c.bytes))
    (∀ bg : Bool, u.boltRing t = some bg →
      let d := u.ringDesc t bg; let n := toTile d.set; let a := u.aset n; let key := (psaLayer d.psa, psaBand d.psa)
      let named := a.named d; let bad := u.stackUe t (x.ringByte bg) 64
      let strength (layer band : Nat) : Nat := u.setStrength a.cfg layer band
      let taken (y : State) : Prop := let z := y.tile t
        (if bg then z.r BoltReg.BGQ_RD = (x.r BoltReg.BGQ_RD + 1) % atLeast1 (x.r BoltReg.BGQ_SLOTS) % 2 ^ 8 ∧
            z.r BoltReg.HQ_RD = x.r BoltReg.HQ_RD
          else z.r BoltReg.HQ_RD = (x.r BoltReg.HQ_RD + 1) % atLeast1 (x.r BoltReg.HQ_SLOTS) % 2 ^ 8 ∧
            z.r BoltReg.BGQ_RD = x.r BoltReg.BGQ_RD) ∧
        (∀ k, k ≠ n → y.aset k = u.aset k) ∧ (∀ k, k ≠ t → (u.tile k).StackKept (y.tile k) 0 0)
      let ends (i : Instr) (c : BoltCpl) : Prop := Completes i s fun y => taken y ∧
        posted y { c with tag := d.tag, type := d.type, wseqFirst := d.wseqFirst } ∧ y.aset n = a ∧
        (x.stack.ce = [] → x.stack.ue = [] → x.KeepsFields (y.tile t) [BoltReg.HQ_RD, BoltReg.BGQ_RD, BoltReg.CQ_WR,
          BoltReg.CQ_FULL, BoltReg.DESC_DONE, BoltReg.DESC_REFUSED, ProtReg.MEM_RANGE]) ∧
        s.ChangesOnly [.time, .tiles, .atria] y
      let records (i : Instr) (rs : List (Nat × List DWord)) (reserved : Bool) (d' : BoltDesc) (next : Nat) : Prop :=
        let broken := x.journalUe || x.journalBuf.bad 0 (2 ^ 32)
        a.owed = [] →
        (u.journalFits n (rs.map fun r => 1 + r.2.length) reserved = true → broken = true → Completes i s fun y => taken y ∧
          posted y { plainCpl 1 2 with tag := d.tag, type := d.type, wseqFirst := d.wseqFirst } ∧ y.aset n = a ∧
          (y.tile t).journalUe = true ∧ s.ChangesOnly [.time, .tiles, .ports, .atria, .pkg] y) ∧
        (u.journalFits n (rs.map fun r => 1 + r.2.length) reserved = true → broken = false → Completes i s fun y =>
          taken y ∧ (y.tile t).bolt.active = some d ∧ (y.tile t).bolt.background = bg ∧
          (((y.aset n).queue.drop a.queue.length).filter (·.type != 0)).map (fun r => (r.type, r.body)) = rs ∧
          ((y.aset n).queue.getLast?).map (·.desc) = some (some d') ∧ y.wseqNext n = next % 2 ^ 40 ∧
          y.aset n = { a with queue := (y.aset n).queue, wpos := (y.aset n).wpos, recPos := (y.aset n).recPos } ∧
          (x.stack.ue = [] → ∀ w, (u.atrium w).KeepsFields (y.atrium w) [SetReg.JFREE n, SetReg.JSEQ_NEXT n,
            SetReg.WSEQ_NEXT_LO n, SetReg.WSEQ_NEXT_HI n]) ∧ s.ChangesOnly [.time, .tiles, .sets, .atria] y) ∧
        (u.journalFits n (rs.map fun r => 1 + r.2.length) reserved = false → Completes i s fun y => taken y ∧
          posted y { plainCpl 1 (if x.journalUe then 2 else 3) with
            tag := d.tag, type := d.type, wseqFirst := d.wseqFirst } ∧ y.aset n = a ∧
          y.sr n SetReg.JOURNAL_FULL = 1 ∧ s.ChangesOnly [.time, .tiles, .atria] y)
      let same := u.wseqNext n
      (bad = true → ∀ i ∈ Instr.boltTypeReserved wait t :: rows.map (·.1), Completes i s fun y => taken y ∧
        posted y { plainCpl 1 11 with wseqFirst := d.wseqFirst } ∧ y.aset n = a ∧ s.ChangesOnly [.time, .tiles, .atria] y) ∧
      (bad = false → d.type = 0 ∨ 10 < d.type → ends (.boltTypeReserved wait t) (plainCpl 1 7)) ∧
      (bad = false → ∀ e ∈ rows, d.type = e.2 → ∀ r, u.boltCheck t d = some r → ends e.1 (plainCpl 1 r)) ∧
      (bad = false → u.boltCheck t d = none →
        (∀ e ∈ rows.take 2, d.type = e.2 → Completes e.1 s fun y => let z := (y.tile t).bolt
          let load := u.boltLoad t a.cfg d
          taken y ∧ z.active = some d ∧ z.background = bg ∧ z.startedAt = u.cycle ∧ z.work = max load.1 load.2 ∧
          z.credit = (if bg then x.bolt.credit - 32768 * load.1 else x.bolt.credit) ∧ y.aset n = a ∧
          s.ChangesOnly [.time, .tiles, .atria] y) ∧
        (d.type = 3 →
          let sound := psaValid (u.head (a.cfg.headAt 0)).layerCount (fun layer _ => strength layer (psaBand d.psa))
            d.psa = true ∧
            psaTrack d.psa = 0 ∧ psaSector d.psa = 0 ∧ key ∉ a.opened ∧ key ∉ a.targets
          let k := if isUserBand (psaBand d.psa) then zoneK (psaZone d.psa) else 216
          let count := 32 * framesPerTrack k (strength (psaLayer d.psa) (psaBand d.psa))
          let mask := (u.sr n SetReg.PRESENT ||| u.sr n SetReg.REPLACING) &&& a.cfg.mask
          (¬ sound → ends (.openBand wait t) (plainCpl 1 4)) ∧
          (sound → records (.openBand wait t) [(1, [BitVec.ofNat 64 (same + count * 2 ^ 40), BitVec.ofNat 64 d.psa,
            BitVec.ofNat 64 mask])] false { d with wseqFirst := same } (same + count))) ∧
        (d.type = 4 → (named = none → ends (.delta wait t) (plainCpl 1 5)) ∧
          (named ≠ none → records (.delta wait t) ((piecesOf 254 (d.ns + 1) (u.stackWords t (d.addr * 4096) (2 * d.ns))).map
            fun l => (2, BitVec.ofNat 64 d.wseqFirst :: l)) false d same)) ∧
        (d.type = 5 → (named = none → ends (.land wait t) (plainCpl 1 5)) ∧
          (∀ b, named = some b → let v := a.cfg.tileAt d.member
            let cw := if u.reaches t v && u.tileUp v then u.stackBytes v (64 * d.landAddr) 1536 else List.replicate 1536 0
            let l := landedOf a.cfg.vba b.count cw fun i => (u.boltEntry t a.cfg d.addr d.member i).map (·.1) == some 1
            records (.land wait t) [(3, BitVec.ofNat 64 (d.wseqFirst + d.member % 32 * 2 ^ 40) ::
              (List.range ((b.count + 63) / 64)).map (fun k => BitVec.ofNat 64 (l.1 / 2 ^ (64 * k))) ++
              l.2.flatMap fun p => [BitVec.ofNat 64 p.1, BitVec.ofNat 64 p.2])] false d same)) ∧
        (d.type = 6 → let ws := wseqsOf (rangesOf (u.stackWords t (d.addr * 4096) d.ns))
          (named = none → ends (.void wait t) (plainCpl 1 5)) ∧
          (∀ b, named = some b → let done (w : Nat) : Bool := bitOf b.committed (w - b.wseqFirst) || a.decided 4 w
            let fresh := ((List.range b.count).filter fun i => decide (b.wseqFirst + i ∈ ws) && !bitOf b.voided i &&
              !a.decided 5 (b.wseqFirst + i)).map (b.wseqFirst + ·)
            ((∃ w ∈ ws, b.has w = false) → ends (.void wait t) (plainCpl 1 5)) ∧
            ((∀ w ∈ ws, b.has w = true) → (∃ w ∈ ws, done w = true) → ends (.void wait t) (plainCpl 1 6)) ∧
            ((∀ w ∈ ws, b.has w = true ∧ done w = false) → (fresh = [] → ends (.void wait t) (plainCpl 0 0)) ∧
              (fresh ≠ [] → records (.void wait t)
                ((piecesOf 255 (b.count + 1) (rangeWords (runsOf fresh))).map fun l => (5, l)) true d same)))) ∧
        (d.type = 7 → (named = none → ends (.remap wait t) (plainCpl 1 5)) ∧
          (∀ b, named = some b → let layer := psaLayer b.psa; let from_ := psaBand b.psa
            let sound := (isUserBand d.target = true ∨ isSystemBand d.target = true) ∧
              isUserBand d.target = isUserBand from_ ∧ zoneOrZero d.target = psaZone b.psa ∧
              strength layer d.target = strength layer from_ ∧
              (layer, d.target) ∉ a.opened ∧ (layer, d.target) ∉ a.targets
            (¬ sound → ends (.remap wait t) (plainCpl 1 4)) ∧
            (sound → records (.remap wait t) [(6, [BitVec.ofNat 64 (d.wseqFirst + d.member % 32 * 2 ^ 40 +
              d.target % 2 ^ 13 * 2 ^ 45)])] false d same))) ∧
        (d.type = 8 → let rs := a.snapshot (u.resolvedTo n); let dst := d.resAddr * 4096
          Completes (.ckptSnap wait t) s fun y => taken y ∧ y.aset n = a ∧
            posted y { plainCpl 0 0 with tag := d.tag, type := 8, wseqFirst := d.wseqFirst, count := rs.length } ∧
            (inStaging dst (16 * rs.length) = true → full ∨ cq + 64 ≤ dst ∨ dst + 16 * rs.length ≤ cq →
              y.stackBytes t dst (16 * rs.length) = rs.flatMap (bytesOf 16)) ∧ s.ChangesOnly [.time, .tiles, .atria] y) ∧
        (d.type = 9 → records (.checkpoint wait t) [(7, [BitVec.ofNat 64 d.ckptSeq, BitVec.ofNat 64 d.wseqAt,
          BitVec.ofNat 64 (a.newStart d.wseqAt)])] false d same) ∧
        (d.type = 10 →
          let rs := beforeEnd ((List.range d.ns).map fun k => u.stackLE t (d.addr * 4096 + 16 * k) 16)
          (recordsOk rs = false → ends (.mapReplay wait t) (plainCpl 1 8)) ∧
          (recordsOk rs = true → a.cfg.mapRecords < rs.length → Completes (.mapReplay wait t) s fun y => taken y ∧
            posted y { plainCpl 1 9 with tag := d.tag, type := 10, wseqFirst := d.wseqFirst } ∧ y.aset n = a ∧
            y.sr n SetReg.MAP_FULL = 1) ∧
          (recordsOk rs = true → rs.length ≤ a.cfg.mapRecords → a.bands = [] → a.pairs = [] → a.waits = [] → a.loading = [] →
            Completes (.mapReplay wait t) s fun y => taken y ∧ y.aset n = { a.load rs with mapReady := true } ∧
              posted y { plainCpl 0 0 with tag := d.tag, type := 10, wseqFirst := d.wseqFirst } ∧
              y.sr n SetReg.SSTATE = y.sstate n ∧ s.ChangesOnly [.time, .tiles, .ports, .sets, .atria, .pkg] y)))) ∧
    (∀ b, x.bolt.active = some b → b.type = 1 ∨ b.type = 2 → u.tileUp t = true → u.boltTimeUp t = true →
      Completes (.boltDescriptorComplete wait t) s fun y =>
        let es (k : Nat) := u.stripeEntries t (u.aset (toTile b.set)).cfg b (b.s0 + k)
        let unread (k : Nat) : Bool := (es k).any fun e => match e with
          | none => true
          | some p => p.1 == 3 || (b.type == 2 && p.1 == 2)
        (y.tile t).bolt.active = none ∧
        ((∀ k, k < b.ns → unread k = true) → posted y { plainCpl (if b.ns = 0 then 0 else 2) 0 with
          tag := b.tag, type := b.type, wseqFirst := b.wseqFirst, done := b.ns, badEntry := b.ns }) ∧
        (∀ k, k ≠ t → (y.tile k).bolt = (u.tile k).bolt) ∧ y.sets = u.sets ∧
        s.ChangesOnly [.time, .tiles, .ports, .atria, .pkg] y)

/-- The thermal block of a tile (R91, R372, R454, R461, R462, R463, R464, R465, R466, R468, R473, R506): its samples and
their cross-check, the trip, the power-off, the restart and RESUME, throttling and the power cap. -/
def Obligations.ThermalBlock : Prop :=
  let stores := [BootReg.SELV_REFUSED, BootReg.WEAR_WARN, BootReg.WEAR_MAX_LO, BootReg.WEAR_MAX_HI, BootReg.WEAR_TILE]
  let logs := (List.range 8).flatMap fun l => [EvReg.EV_SEQ l, EvReg.EV_DROP l, EvReg.EV_NEW l]
  let setOwn := (List.range 8).flatMap fun n => [SetReg.SSTATE n, SetReg.STATE_CHANGE n, SetReg.SUSP_CAUSE n]
  let capFields := [HeatReg.THROT_LEVEL, HeatReg.TSTEP, HeatReg.CAP_STEP, HeatReg.EST_W, HeatReg.THROTTLE_ON, HeatReg.CAP_CHANGE]
  let steps (x z : Tile) (l k : Nat) : Prop :=
    z.r HeatReg.THROT_LEVEL = l ∧ z.r HeatReg.TSTEP = k ∧
    z.r HeatReg.CAP_STEP = (if x.b HeatReg.CAP_EN then max k (z.r HeatReg.PSTEP) else 0) ∧
    (x.r HeatReg.THROT_LEVEL = 0 → 0 < l → z.b HeatReg.THROTTLE_ON = true) ∧
    (z.r HeatReg.CAP_STEP ≠ x.r HeatReg.CAP_STEP → z.b HeatReg.CAP_CHANGE = true)
  (∀ (s : State) (wait : Nat) (t : Fin 8), let u := s.pass wait; let x := u.tile t; let h := x.heat
    let mask := x.r HeatReg.INCLUDED
    (∀ v : List Int, u.heatOn t = true → (∀ c, h.lastSample = some c → c + cyclesOfUs 100 ≤ u.cycle) →
      let r (i : Nat) : Int := signedOf 16 (unsignedOf 16 (v.getD i 0))
      let off (i : Nat) : Option Nat := (medianOf (((sensorNeighbours i).filter (bitOf mask)).map r)).map fun m => (r i - m).natAbs
      let used := ((List.range 6).filter (bitOf mask)).map r
      v.length = 6 → Completes (.sensorSample wait t v) s fun y => let z := y.tile t; let g := z.heat
        g.lastSample = some u.cycle ∧ g.checked = h.checked ∧ g.tripAt = h.tripAt ∧ g.heavyOff = h.heavyOff ∧
        (∀ i ∈ List.range 6, z.ri (HeatReg.SENSOR_T i) = r i ∧
          g.outRun[i]? = some (if (off i).any fun d => decide (x.ri HeatReg.XMARGIN < d) then h.outRun.getD i 0 + 1 else 0) ∧
          g.inRun[i]? = some (if (off i).any fun d => decide ((2 * d : Nat) ≤ x.ri HeatReg.XMARGIN) then h.inRun.getD i 0 + 1
            else 0) ∧
          g.tripRun[i]? = some (if bitOf mask i = true ∧ 29440 ≤ r i then h.tripRun.getD i 0 + 1 else 0)) ∧
        g.coolRun = (if ∀ c ∈ used, c < 24320 then h.coolRun + 1 else 0) ∧
        (used ≠ [] → z.ri HeatReg.T_MAX ∈ used ∧ (∀ c ∈ used, c ≤ z.ri HeatReg.T_MAX) ∧
          some (z.ri HeatReg.T_MED) = medianOf used) ∧
        (countSensors h.checked < 3 → z.b HeatReg.XCHK_SUSP = true) ∧
        x.KeepsFields z ([HeatReg.T_MAX, HeatReg.T_MED, HeatReg.XCHK_SUSP] ++ (List.range 6).map HeatReg.SENSOR_T ++
          PortReg.all) ∧ s.ChangesOnly [.time, .tiles, .ports, .atria, .pkg] y) ∧
    (let n := atLeast1 (x.r HeatReg.XCHK_N)
      let out := (List.range 6).filter fun i => bitOf h.checked i && decide (n ≤ h.outRun.getD i 0)
      let back := (List.range 6).filter fun i => !bitOf h.checked i && decide (n ≤ h.inRun.getD i 0)
      let decided (y : Tile) (m : Nat) (f : Fld) : Prop := y.heat.checked = m ∧ y.b f = true ∧
        (countSensors m < 3 → y.r HeatReg.INCLUDED = 63 ∧ y.b HeatReg.XCHK_SUSP = true) ∧
        (3 ≤ countSensors m → y.r HeatReg.INCLUDED = m % 64) ∧ x.KeepsFields y [HeatReg.INCLUDED, HeatReg.XCHK_SUSP, f]
      (out ≠ [] → CompletesTile (.sensorExclude wait t) s u t fun y => decided y y.heat.checked HeatReg.SENSOR_EXCL ∧
        ∀ i ∈ List.range 6, bitOf y.heat.checked i = (bitOf h.checked i && decide (i ∉ out))) ∧
      (back ≠ [] → CompletesTile (.sensorReadmit wait t) s u t fun y => decided y y.heat.checked HeatReg.SENSOR_READMIT ∧
        ∀ i ∈ List.range 6, bitOf y.heat.checked i = (bitOf h.checked i || decide (i ∈ back)))) ∧
    (∀ v : Int, u.heatOn t = true → h.heavyOff = false → (∀ c, h.lastStack = some c → c + cyclesOfMs 1 ≤ u.cycle) →
      CompletesTile (.stackTempRead wait t v) s u t fun y => y.r HeatReg.STACK_TEMP = unsignedOf 16 v ∧
        y.heat = { h with lastStack := some u.cycle } ∧
        (26880 ≤ y.ri HeatReg.STACK_TEMP → y.b HeatReg.STACK_HOT = true) ∧
        x.KeepsFields y [HeatReg.STACK_TEMP, HeatReg.STACK_HOT]) ∧
    (∀ i ∈ List.range 6, u.heatOn t = true → h.tripAt = none → 2 ≤ h.tripRun.getD i 0 →
      (∀ j ∈ List.range i, h.tripRun.getD j 0 < 2) → Completes (.thermalTrip wait t) s fun y => let z := y.tile t
        let a := atriumTile (wingOf t)
        z.b HeatReg.TRIPPED = true ∧ z.heat.tripAt = some u.cycle ∧ z.heat.coolRun = 0 ∧
        (u.storeRefuses = false → z.r HeatReg.TRIP_TEMP = x.r (HeatReg.SENSOR_T i) ∧ z.r HeatReg.TRIP_SENSOR = i) ∧
        (u.storeRefuses = true → (y.atrium (wingOf t)).b BootReg.SELV_REFUSED = true ∨ u.split = true ∧
          z.r HeatReg.TRIP_TEMP = x.r HeatReg.TRIP_TEMP) ∧
        (∀ l : Fin 4, let b := y.head (headOf t l); b.r RiserReg.SAFE_CAUSE = 2 ∧ 2 ∈ b.riser.causes ∧
          b.r LandReg.HSTATE ∈ [0, 10, 11]) ∧
        (∀ k : Fin 32, tileOf k ≠ t → y.head k = u.head k) ∧
        (a ≠ t → u.asleep a = false → (u.tile a).heat.heavyOff = false → (u.tile a).b HeatReg.TRIPPED = false →
          u.storeRefuses = false → u.recordFits = true → ∃ r, (y.tile a).logger.newest = some r ∧ r.code = 0x10 ∧ r.tile = t ∧
            r.unit = 0xFF ∧ (u.pr (wingOf t) (EvReg.EV_MERGE a) = 0 → r.time = u.ns t ∧
              r.arg0 = unsignedOf 32 (x.ri (HeatReg.SENSOR_T i)) + i * 2 ^ 32 ∧
              r.arg1 = (63 - mask) + x.r HeatReg.THROT_LEVEL * 2 ^ 8 + x.r HeatReg.CAP_STEP * 2 ^ 12)) ∧
        (t.val % 4 = 0 → (y.atrium (wingOf t)).held = true) ∧
        (u.boot.phase = .load ∨ t.val ∈ u.boot.tileLoad → t.val ∉ y.boot.tileLoad ∧
          (y.atrium (wingOf t)).b BootReg.TILE_LOAD_FAIL = true) ∧
        (u.boot.phase ≠ .load → t.val ∉ u.boot.tileLoad → y.boot = u.boot) ∧
        x.KeepsFields z ([HeatReg.TRIPPED, HeatReg.TRIP_TEMP, HeatReg.TRIP_SENSOR] ++ PortReg.all) ∧
        (∀ w, (u.atrium w).KeepsFields (y.atrium w)
          ([HostReg.ALERT_SRC, BootReg.TILE_LOAD_FAIL, AuthReg.HOLDER_WING] ++ stores ++ logs ++ setOwn)) ∧
        s.ChangesOnly [.time, .heads, .tiles, .ports, .atria, .boot, .pkg] y) ∧
    (∀ c, h.tripAt = some c → c + cyclesOfUs 5 ≤ u.cycle → h.heavyOff = false →
      Completes (.heavyPowerOff wait t) s fun y => let z := y.tile t
        z.heat = { h with heavyOff := true } ∧ z.stack = x.stack.lose u.freeCount shadowBase ∧
        (∀ k : Fin 2, z.b (PortReg.LINK_UP k) = false ∧ z.cores[k].running = false) ∧
        (∀ l : Fin 4, (y.head (headOf t l)).r RiserReg.STATE = 0) ∧
        (∀ k : Fin 32, tileOf k ≠ t → y.head k = u.head k) ∧
        x.KeepsFields z PortReg.all ∧ s.ChangesOnly [.time, .free, .heads, .tiles, .ports, .atria, .pkg] y) ∧
    (∀ c, h.tripAt = some c → h.heavyOff = true → 1000 ≤ h.coolRun → Completes (.thermalRestart wait t) s fun y =>
      let z := y.tile t; let again := u.boot.tileLoad.contains t.val;
        z.heat.tripAt = none ∧ z.heat.heavyOff = false ∧ z.heat.coolRun = 0 ∧
        z.b HeatReg.TRIP_DONE = true ∧ z.b HeatReg.TRIPPED = x.b HeatReg.TRIPPED ∧
        z.r HeatReg.TRIP_COUNT = (if u.storeRefuses then x.r HeatReg.TRIP_COUNT else min 65535 (x.r HeatReg.TRIP_COUNT + 1)) ∧
        y.boot.tileLoad.contains t.val = true ∧
        (∀ l : Fin 4, let b := y.head (headOf t l); 2 ∉ b.riser.causes ∧
          (again = false → b.inReset = true ∧ (u.head (headOf t l)).ResetBy .tile b)) ∧
        (∀ k : Fin 32, tileOf k ≠ t → y.head k = u.head k) ∧
        (again = false → z.inReset = true ∧
          (∀ f ∈ tileFields, f ∉ [HeatReg.TRIP_DONE, HeatReg.TRIP_COUNT] → f ∉ PortReg.all → z.r f = f.after .tile (x.r f)) ∧
          (∀ k : Fin 3, z.r (LinkReg.LSTATE k) = 0) ∧
          (∀ n, (u.aset n).cfg.n ≠ 0 → (u.aset n).cfg.homeTile = t → y.aset n = { ASet.reset with cfg := (u.aset n).cfg }) ∧
          s.ChangesOnly [.time, .free, .heads, .tiles, .ports, .sets, .atria, .flashes, .boot, .pkg] y) ∧
        (again = true → z.inReset = x.inReset ∧ y.boot = u.boot ∧ z.stack = x.stack ∧
          x.KeepsFields z [HeatReg.TRIP_DONE, HeatReg.TRIP_COUNT] ∧
          s.ChangesOnly [.time, .heads, .tiles, .atria, .pkg] y)) ∧
    (u.heatOn t = true → x.inReset = false → h.lastEval + cyclesOfMs (atLeast1 (x.r HeatReg.STEP_T)) ≤ u.cycle →
      let l := x.r HeatReg.THROT_LEVEL; let k := x.r HeatReg.TSTEP
      let on := x.ri HeatReg.THR_ON; let off := x.ri HeatReg.THR_OFF; let thr := x.ri HeatReg.STACK_THR
      let hot := on ≤ x.ri HeatReg.T_MAX ∨ thr ≤ x.ri HeatReg.STACK_TEMP
      let cool := x.ri HeatReg.T_MAX < off ∧ x.ri HeatReg.STACK_TEMP < thr - (on - off)
      let lit := (localHeads.filter fun i => let st := (u.head (headOf t i)).r RiserReg.STATE; decide (1 ≤ st ∧ st ≤ 6)).length
      Completes (.throttleEvaluation wait t) s fun y => let z := y.tile t; let p := z.r HeatReg.PSTEP
        let fits (i : Nat) : Bool := decide ([392, 357, 322, 297, 272, 237, 211, 176].getD i 0 + 27 * lit ≤ x.r HeatReg.CAP_W)
        z.heat = { h with lastEval := u.cycle } ∧
        (if ∃ i ∈ List.range 8, fits i = true then fits p = true ∧ (∀ i ∈ List.range p, fits i = false) ∧
            z.b HeatReg.CAP_SHORT = false
          else p = 7 ∧ z.b HeatReg.CAP_SHORT = true ∧ z.b HeatReg.CAP_UNMET = true) ∧
        (x.b HeatReg.THROT_EN = false → steps x z 0 0) ∧
        (x.b HeatReg.THROT_EN = true →
          (hot → l < 7 → steps x z (l + 1) k) ∧ (hot → l = 7 → k < 7 → steps x z l (k + 1)) ∧
          (hot → l = 7 → k = 7 → steps x z l k) ∧ (¬ hot → cool → 0 < k → steps x z l (k - 1)) ∧
          (¬ hot → cool → k = 0 → steps x z (l - 1) k) ∧ (¬ hot → ¬ cool → steps x z l k)) ∧
        (∀ i : Fin 2, capLanes (z.r HeatReg.CAP_STEP) i ≠ capLanes (x.r HeatReg.CAP_STEP) i → z.b (PortReg.LINK_UP i) = false) ∧
        x.KeepsFields z (capFields ++ [HeatReg.PSTEP, HeatReg.CAP_SHORT, HeatReg.CAP_UNMET] ++ PortReg.all ++ LockReg.all) ∧
        (∀ w, (u.atrium w).KeepsFields (y.atrium w) ([HostReg.ALERT_SRC, HostReg.PS_REQ, HostReg.APST_ACTIVE, HostReg.PS_CHANGE] ++ stores ++ logs)) ∧
        s.ChangesOnly [.time, .free, .tiles, .ports, .atria, .pkg] y)) ∧
  (∀ (s : State) (q : Req) (t : Fin 8) (v : Word), s.accessOf q (.tile t 0x600000) = .ok →
    let u := s.atTile q t 0x600000; let x := u.tile t
    Completes (.tripResume q t v) s fun y => let z := y.tile t
      z.b HeatReg.TRIPPED = (x.b HeatReg.TRIPPED && x.heat.tripAt.isSome) ∧ z.heat = x.heat ∧
      z.b HeatReg.THROT_EN = bitOf v.toNat 0 ∧ z.b HeatReg.CAP_EN = bitOf v.toNat 1 ∧
      (bitOf v.toNat 0 = false → z.r HeatReg.THROT_LEVEL = 0 ∧ z.r HeatReg.TSTEP = 0) ∧
      (bitOf v.toNat 0 = true → z.r HeatReg.THROT_LEVEL = x.r HeatReg.THROT_LEVEL ∧ z.r HeatReg.TSTEP = x.r HeatReg.TSTEP) ∧
      z.r HeatReg.CAP_STEP = (if bitOf v.toNat 1 then max (z.r HeatReg.TSTEP) (x.r HeatReg.PSTEP) else 0) ∧
      x.KeepsFields z (capFields ++ [HeatReg.THROT_EN, HeatReg.CAP_EN, HeatReg.TRIPPED] ++ PortReg.all ++ LockReg.all) ∧
      s.ChangesOnly [.time, .tiles, .ports, .atria, .pkg, .shadows, .free] y)

/-- The lease of the Atrium role, its commands, the Warp links, splits and rejoins (R21, R24, R440, R441, R442, R443, R444, R445,
R446, R447, R449, R459). -/
def Obligations.AuthorityWarp : Prop :=
  let logs := BootReg.SELV_REFUSED :: BootReg.WEAR_WARN :: BootReg.WEAR_MAX_LO :: BootReg.WEAR_MAX_HI :: BootReg.WEAR_TILE ::
    (List.range 8).flatMap fun l => [EvReg.EV_SEQ l, EvReg.EV_DROP l, EvReg.EV_NEW l]
  let epochs := [AuthReg.EPOCH_LO, AuthReg.EPOCH_HI]
  let derived := HostReg.ALERT_SRC :: (List.range 8).flatMap fun n =>
    [SetReg.SUSP_CAUSE n, SetReg.SSTATE n, SetReg.STATE_CHANGE n]
  let takes (i : Instr) (s u : State) (w : Fin 2) (e : Nat) (told : Bool) (fs : List Fld) (P : State → Prop) : Prop :=
    Completes i s fun y => P y ∧ (∀ k, k ≠ w → (u.atrium k).KeepsFields (y.atrium k) logs) ∧
      (u.storeRefuses = false → y.holds w = true ∧ y.epoch w = e % 2 ^ 64 ∧
        (y.atrium w).b AuthReg.LEASE_TAKEN = (told || (u.atrium w).b AuthReg.LEASE_TAKEN) ∧
        (y.atrium w).sentMs = none ∧ (y.atrium w).handover = none) ∧
      (u.storeRefuses = true → u.epoch w ≠ e % 2 ^ 64 → u.holds w = false → y.holds w = false ∧ y.epoch w = u.epoch w) ∧
      ((u.atrium w).KeepsFields (y.atrium w) (fs ++ logs ++ epochs ++ [AuthReg.HOLDER_WING, AuthReg.LEASE_TAKEN])) ∧
      s.ChangesOnly [.time, .tiles, .atria, .shadows] y
  let conflict (u y : State) : Prop := let win : Fin 2 := if u.epoch 1 ≤ u.epoch 0 then 0 else 1; let lose := otherWing win
    let a := y.atrium lose; let b := y.atrium win
    a.b AuthReg.FROZEN = true ∧ b.b AuthReg.FROZEN = true ∧ a.b AuthReg.CONFLICT = true ∧ b.b AuthReg.CONFLICT = true ∧
    a.r AuthReg.PEER_EPOCH_LO + 2 ^ 32 * a.r AuthReg.PEER_EPOCH_HI = u.epoch win ∧
    b.r AuthReg.PEER_EPOCH_LO + 2 ^ 32 * b.r AuthReg.PEER_EPOCH_HI = u.epoch lose ∧
    y.holds lose = false ∧ (u.holds win = true → y.holds win = true) ∧ a.b AuthReg.LEASE_LOST = true ∧ a.sent = none ∧
    (u.storeRefuses = false → y.epoch lose = max (u.epoch 0) (u.epoch 1)) ∧ y.epoch win = u.epoch win ∧
    (∀ w, (u.atrium w).KeepsFields (y.atrium w) (logs ++ epochs ++ [AuthReg.FROZEN, AuthReg.CONFLICT, AuthReg.PEER_EPOCH_LO,
      AuthReg.PEER_EPOCH_HI, AuthReg.LEASE_LOST, AuthReg.HOLDER_WING]))
  let accepts (u y : State) (w : Fin 2) (f : LeaseFlit) : Prop := let a := u.atrium w; let b := y.atrium w
    b.epochSeen = max a.epochSeen f.epoch ∧
    (f.epoch < u.epoch w → b.regs = a.regs ∧ b.lastRenewal = a.lastRenewal ∧ b.leaseSeen = a.leaseSeen ∧
      (y.atrium (otherWing w)).ack = (u.atrium (otherWing w)).ack) ∧
    (u.epoch w ≤ f.epoch → f.epoch < 2 ^ 64 → b.b AuthReg.HOLDER_WING = (f.holder != 0) ∧ b.leaseSeen = true ∧
      b.lastRenewal = u.ns (atriumTile w) ∧ (u.storeRefuses = false → y.epoch w = f.epoch) ∧
      (y.atrium (otherWing w)).ack = some (y.view w) ∧ a.KeepsFields b (logs ++ epochs ++ [AuthReg.HOLDER_WING]))
  (∀ (s : State) (q : Req) (v : Word), s.accessOf q (.pkg 0x614) = .ok →
    let u := (s.atPkg q 0x614).smbWing (bitsOf v.toNat 9 8); let w := u.copyOf q; let a := u.atrium w
    let refused (i : Instr) (code : Nat) : Prop :=
      exec i s = .next (u.onAtrium w fun a => (a.w AuthReg.AUTH_STATUS code).flag AuthReg.AUTH_REFUSED)
    let done (y : State) : Prop := (y.atrium w).r AuthReg.AUTH_STATUS = 0 ∧ (y.atrium w).b AuthReg.AUTH_DONE = true
    exec (.authNop q v) s = .next u ∧ refused (.authReserved q v) 5 ∧
    (u.holds w = false → refused (.handover q v) 1 ∧ refused (.unfreeze q v) 1) ∧
    (u.holds w = true → refused (.claim q v) 2 ∧
      (u.split = true ∨ u.bridges = 0 → refused (.handover q v) 3) ∧
      (u.split = false → u.bridges ≠ 0 → a.b AuthReg.FROZEN = true → refused (.handover q v) 6) ∧
      (u.split = false → u.bridges ≠ 0 → a.b AuthReg.FROZEN = false → Completes (.handover q v) s fun y => let b := y.atrium w
        done y ∧ y.holds w = false ∧ b.b AuthReg.LEASE_LOST = true ∧ b.sent = none ∧ b.leaseSeen = true ∧
        b.lastRenewal = u.ns (atriumTile w) ∧ (y.atrium (otherWing w)).handover = some (u.epoch w + 1) ∧
        y.epoch w = u.epoch w ∧ (∀ k, (u.atrium k).KeepsFields (y.atrium k) (logs ++
          [AuthReg.AUTH_STATUS, AuthReg.AUTH_DONE, AuthReg.LEASE_LOST, AuthReg.HOLDER_WING])) ∧
        s.ChangesOnly [.time, .tiles, .atria, .shadows] y) ∧
      (a.b AuthReg.FROZEN = false → refused (.unfreeze q v) 4) ∧
      (a.b AuthReg.FROZEN = true → Completes (.unfreeze q v) s fun y => done y ∧
        (y.atrium w).b AuthReg.FROZEN = false ∧
        (u.split = false ∨ u.rejoining = true → ∀ k : Fin 2, (y.atrium k).b AuthReg.FROZEN = false) ∧
        (u.split = true → u.rejoining = false → let o := otherWing w
          (y.atrium o).b AuthReg.FROZEN = (u.atrium o).b AuthReg.FROZEN) ∧
        (∀ k, (u.atrium k).KeepsFields (y.atrium k) (logs ++ [AuthReg.AUTH_STATUS, AuthReg.AUTH_DONE, AuthReg.FROZEN])) ∧
        s.ChangesOnly [.time, .tiles, .atria, .shadows] y)) ∧
    (u.holds w = false → u.leaseValid w = true → u.bridges ≠ 0 → refused (.claim q v) 2) ∧
    (u.holds w = false → u.leaseValid w = false ∨ u.bridges = 0 →
      let e := max (u.epoch w) a.epochSeen + 1
      takes (.claim q v) s u w e true [AuthReg.AUTH_STATUS, AuthReg.AUTH_DONE, AuthReg.AUTH_REFUSED] fun y =>
        (u.storeRefuses = false → done y) ∧ (u.storeRefuses = true → u.epoch w ≠ e % 2 ^ 64 →
          (y.atrium w).b AuthReg.AUTH_REFUSED = true ∧ (y.atrium w).b AuthReg.AUTH_DONE = a.b AuthReg.AUTH_DONE))) ∧
  (∀ (s : State) (wait : Nat) (w : Fin 2), let u := s.pass wait; let a := u.atrium w; let o := otherWing w
    let age := u.ns (atriumTile w) - a.lastRenewal; let ms := u.ns (atriumTile w) / 1000000
    (u.holds w = true → a.held = false → a.sentMs ≠ some ms → Completes (.leaseRenewal wait w) s fun y =>
      y.atrium w = { a with
        renewals := a.renewals + 1, sentMs := some ms
        sent := if u.reaches (atriumTile w) (atriumTile o) then some
          ⟨u.epoch w, w.val, a.renewals + 1, u.ns (atriumTile w)⟩ else a.sent } ∧
      y.atrium o = u.atrium o ∧ s.ChangesOnly [.time, .tiles, .atria] y) ∧
    (∀ f, (u.atrium o).sent = some f →
      (a.held = true → exec (.leaseFlit wait w) s = .next (u.onAtrium o fun b => { b with sent := none })) ∧
      (a.held = false → Completes (.leaseFlit wait w) s fun y => ((y.atrium o).sent = none ∨ conflict u y) ∧
        (u.holds w = true → f.holder = o.val → conflict u y ∧ (y.atrium w).epochSeen = max a.epochSeen f.epoch) ∧
        (u.holds w = true → f.holder ≠ o.val → y.atrium w = { a with epochSeen := max a.epochSeen f.epoch }) ∧
        (u.holds w = false → accepts u y w f ∧ (u.atrium o).KeepsFields (y.atrium o) logs) ∧
        s.ChangesOnly [.time, .tiles, .atria] y)) ∧
    (u.holds w = false → a.held = false → a.leaseSeen = true → 2000000 < age →
      exec (.renewLate wait w) s = .next (u.onAtrium w (·.flag AuthReg.RENEW_LATE))) ∧
    (u.holds w = false → a.held = false → a.leaseSeen = true → 20000000 ≤ age → u.bridges ≠ 0 →
      takes (.leaseExpiry wait w) s u w (max (u.epoch w) a.epochSeen + 1) true [] fun _ => True) ∧
    (∀ e, a.handover = some e →
      (a.held = true → exec (.handoverFlit wait w) s = .next (u.onAtrium w fun b => { b with handover := none })) ∧
      (a.held = false → takes (.handoverFlit wait w) s u w e false [] fun y => (y.atrium w).handover = none))) ∧
  (∀ (s : State) (wait : Nat) (t : Fin 8) (k : Fin 3) (lost : Nat), let u := s.pass wait; let x := u.tile t
    let f := warpFar t k; let j := warpBack k; let fails := [0, 1, 2].map LinkReg.ROUTE_FAIL
    let others (y : State) : Prop := ∀ i, i ≠ t → i ≠ f → (u.tile i).links = (y.tile i).links
    (u.linkUp t k = true →
      ∀ rx : RxFlit, let l := (u.tile f).links[j]
        (rx.crc = Config.flitCrc rx.flit →
          (l.replay = [] → u.nextFlit f j = none →
            CompletesTile (.warpFlitReceive wait t k rx) s u t fun y => y.regs = x.regs ∧ y.flitsHeld = x.flitsHeld ∧
              y.links[k] = { x.links[k] with failed := 0, rxCount := x.links[k].rxCount + 1 } ∧
              ∀ i : Fin 3, i ≠ k → y.links[i] = x.links[i]) ∧
          (∀ g left, l.replay = g :: left ∨ (l.replay = [] ∧ left = [] ∧ u.nextFlit f j = some g) →
            Completes (.warpFlitReceive wait t k rx) s fun y => let z := y.tile t
              z.links[k].failed = 0 ∧ z.links[k].rxCount = x.links[k].rxCount + 1 ∧ (y.tile f).links[j].replay = left ∧
              (l.replay = [] → (y.tile f).links[j].queue = l.queue.erase g) ∧
              (g.dst = t → z.links[k].queue = x.links[k].queue ∧ z.regs = x.regs ∧
                (y.earlierOut g = true → g ∈ z.flitsHeld) ∧ (y.earlierOut g = false → g ∉ z.flitsHeld)) ∧
              (g.dst ≠ t → z.flitsHeld = x.flitsHeld ∧ ∀ b p i, warpLinkTo t b = some i →
                (g.path.tail = b :: p ∧ u.linkUp t i = true) ∨
                  (u.pathUp t (g.path.tail.take 1) = false ∧ (u.route t g.dst).map (·.1) = some (b :: p)) →
                z.links[i].queue = x.links[i].queue ++ [{ g with came := some k, path := b :: p }] ∧ z.regs = x.regs) ∧
              s.ChangesOnly [.time, .tiles] y)) ∧
        (rx.crc ≠ Config.flitCrc rx.flit → Completes (.warpFlitReceive wait t k rx) s fun y => let z := y.tile t
          z.b (LinkReg.CRC_ERR k) = true ∧ z.r (LinkReg.CRC_COUNT k) = min 65535 (x.r (LinkReg.CRC_COUNT k) + 1) ∧
          z.links[k] = { x.links[k] with failed := x.links[k].failed + 1 } ∧
          (y.tile f).r (LinkReg.REPLAYS j) = min 65535 ((u.tile f).r (LinkReg.REPLAYS j) + 1) ∧
          (l.replay ≠ [] → (y.tile f).links[j] = l) ∧
          x.KeepsFields z [LinkReg.CRC_ERR k, LinkReg.CRC_COUNT k] ∧ (u.tile f).KeepsFields (y.tile f) [LinkReg.REPLAYS j] ∧
          (∀ i, i ≠ t → i ≠ f → y.tile i = u.tile i) ∧ s.ChangesOnly [.time, .tiles] y)) ∧
    (x.r (LinkReg.LSTATE k) = 2 → cyclesOfUs 1 ≤ lost ∨ 9 ≤ x.links[k].failed →
      let last := (u.split = false) ∧ k = 2 ∧ (∀ i ∈ [0, 1, 2, (3 : Fin 8)], i ≠ t → i ≠ f → u.linkUp i 2 = false)
      Completes (.warpLinkDown wait t k lost) s fun y => let z := y.tile t
        z.r (LinkReg.LSTATE k) = 0 ∧ (y.tile f).r (LinkReg.LSTATE j) = 0 ∧ z.links[k] = WarpLink.reset ∧
        (y.tile f).links[j] = WarpLink.reset ∧ (u.asleep t = false → z.b (LinkReg.LINK_DOWN k) = true) ∧
        (u.asleep f = false → (y.tile f).b (LinkReg.LINK_DOWN j) = true) ∧ others y ∧
        (∀ g ∈ x.links[k].replay ++ x.links[k].queue, ∀ b p i, warpLinkTo t b = some i → y.flitPath t g = some (b :: p) →
          { g with path := b :: p } ∈ z.links[i].queue) ∧
        x.KeepsFields z (fails ++ [LinkReg.LSTATE k, LinkReg.LINK_DOWN k] ++ PortReg.all) ∧
        (u.tile f).KeepsFields (y.tile f) (fails ++ [LinkReg.LSTATE j, LinkReg.LINK_DOWN j] ++ PortReg.all) ∧
        (last → ∀ w : Fin 2, let a := u.atrium w; let b := y.atrium w
          b.b AuthReg.SPLIT = true ∧ b.b AuthReg.SPLIT_BEGAN = true ∧
          b.r AuthReg.SPLIT_COUNT = min 65535 (a.r AuthReg.SPLIT_COUNT + 1) ∧ b.sent = none ∧ b.handover = none ∧
          b.splitAt = u.ns (atriumTile w) ∧ b.rejoin = none ∧
          a.KeepsFields b (logs ++ derived ++ [AuthReg.SPLIT, AuthReg.SPLIT_BEGAN, AuthReg.SPLIT_COUNT])) ∧
        (k = 2 → u.split = true → y.rejoining = false) ∧
        (¬ last → ∀ w, (u.atrium w).KeepsFields (y.atrium w) (logs ++ derived)) ∧
        s.ChangesOnly [.time, .tiles, .ports, .atria, .pkg] y) ∧
    (u.linkExists t k = true → u.linkUp t k = false → u.boot.phase ∉ [.held, .pll] →
      Completes (.warpLinkUp wait t k) s fun y => let z := y.tile t
        z.r (LinkReg.LSTATE k) = 2 ∧ (y.tile f).r (LinkReg.LSTATE j) = 2 ∧
        z.links[k] = { x.links[k] with failed := 0, rxCount := 0 } ∧
        (y.tile f).links[j] = { (u.tile f).links[j] with failed := 0, rxCount := 0 } ∧ others y ∧ x.KeepsFields z (LinkReg.LSTATE k :: PortReg.all) ∧
        (k = 2 → u.split = true → u.rejoining = false →
          (∀ w : Fin 2, (y.atrium w).rejoin = some (t.val % 4) ∧ (y.atrium w).rejoinAt = u.cycle) ∧
          (u.holds 0 = true → u.holds 1 = true → conflict u y) ∧
          (u.holds 0 = true → u.holds 1 = false → accepts u y 1 (u.view 0)) ∧
          (u.holds 0 = false → u.holds 1 = true → accepts u y 0 (u.view 1))) ∧
        (k ≠ 2 ∨ u.split = false → ∀ w, (u.atrium w).KeepsFields (y.atrium w) (logs ++ derived)) ∧
        s.ChangesOnly [.time, .tiles, .ports, .atria, .pkg] y)) ∧
  (∀ (s : State) (wait : Nat), let u := s.pass wait
    let o := atriumTile (otherWing u.mainWing)
    u.rejoining = true → u.bridges ≠ 0 → (∀ w : Fin 2, u.masterOf w = atriumTile u.mainWing) →
    (∀ c, (u.tile o).lastSync = some c → (u.atrium 0).rejoinAt ≤ c) → (u.tile o).lastSync ≠ none →
      Completes (.rejoinComplete wait) s fun y =>
        (∀ w : Fin 2, let b := y.atrium w; b.b AuthReg.SPLIT = false ∧ b.b AuthReg.REJOINED = true ∧ b.rejoin = none ∧
          y.epoch w = (if u.storeRefuses then u.epoch w else max (u.epoch 0) (u.epoch 1)) ∧
          (u.atrium w).KeepsFields b (logs ++ derived ++ epochs ++ sharedFields ++
            [AuthReg.SPLIT, AuthReg.REJOINED, AuthReg.DIVERGED])) ∧
        (u.storeRefuses = false → ∀ f ∈ sharedFields, f.persist = true → (y.atrium 0).r f = (y.atrium 1).r f) ∧
        (u.storeRefuses = false → u.epoch 0 ≠ u.epoch 1 → ∀ w : Fin 2, (y.atrium w).b AuthReg.DIVERGED = true) ∧
        (∀ n, u.mirrorUp n = true → (y.aset n).lag = []) ∧
        s.ChangesOnly [.time, .tiles, .ports, .sets, .atria, .pkg] y)

/-- The SMBus target and its SPDM responder (R428, R444, R491, R492), once the strap word is latched: register access, the
alert response, the release of the bus, and the requests of SPDM. -/
def Obligations.SpdmAndSmbus : Prop :=
  ∀ (s : State) (wait : Nat), let u := s.pass wait; let b := u.smb
    let answers (i : Instr) (a : SpdmAnswer) : Prop := exec i s = .next { u with smb := { b with spdm := some a } }
    u.boot.phase ∉ [.held, .pll] →
      (∀ (m : SmbHead) (n : Nat), let a := m.addr
        let ours := m.pec = true ∧ m.unit ≤ 64 ∧ m.type = 0x7F ∧ m.vendor = u.pr (u.copyOf .smbus) IdReg.MCTP_VENDOR_ID
        let refused (code : Nat) : Prop :=
          exec (.smbusRead wait m n) s = .next { u with smb := { b with response := bytesOf 1 code ++ bytesOf 1 0 } }
        let u' : State := { u with
          freeCount := u.freeCount + 1, smb := { b with busyTill := u.cycle + Config.smbTime u.freeCount } }
        (¬ ours ∨ m.op = 2 → exec (.smbusRead wait m n) s = .next u) ∧
        (ours → m.op ≠ 2 → (u.cycle < b.busyTill → refused 3) ∧ (b.busyTill ≤ u.cycle →
          (m.op ≠ 1 → refused 4) ∧ (m.op = 1 →
            (n = 0 ∨ 12 < n → refused 4) ∧ (0 < n → n ≤ 12 → a % 4 ≠ 0 ∨ 2 ^ 32 < a + 4 * n → refused 2) ∧
            (0 < n → n ≤ 12 → a % 4 = 0 → a + 4 * n ≤ 2 ^ 32 →
              let r := (List.range n).foldl (fun l i => let k := l.2.regRead .smbus (a + 4 * i); (l.1 ++ bytesOf 4 k.1, k.2))
                (([], u') : List Byte × State)
              exec (.smbusRead wait m n) s = .next { r.2 with smb := { r.2.smb with
                response := bytesOf 1 0 ++ bytesOf 1 n ++ r.1 } }))))) ∧
      (∀ (m : SmbHead) (v : List Word), let a := m.addr; let n := v.length; let u := (s.advance wait).turnTo 3; let b := u.smb
        let ours := m.pec = true ∧ m.unit ≤ 64 ∧ m.type = 0x7F ∧ m.vendor = u.pr (u.copyOf .smbus) IdReg.MCTP_VENDOR_ID
        let failed (code : Nat) (u : State) : Prop := exec (.smbusWrite wait m v) s =
          .next { u with smb := { u.smb with response := bytesOf 1 code ++ bytesOf 1 0 } }
        let u' : State := { u with
          freeCount := u.freeCount + 1, smb := { b with busyTill := u.cycle + Config.smbTime u.freeCount } }
        let held := v.zipIdx.any fun e => reservedWrite (a + 4 * e.2) e.1.toNat
        (¬ ours ∨ m.op ≠ 2 → exec (.smbusWrite wait m v) s = .next u) ∧
        (ours → m.op = 2 → (u.cycle < b.busyTill → failed 3 u) ∧ (b.busyTill ≤ u.cycle →
          (n = 0 ∨ 12 < n → failed 4 u) ∧ (0 < n → n ≤ 12 → a % 4 ≠ 0 ∨ 2 ^ 32 < a + 4 * n → failed 2 u) ∧
          (0 < n → n ≤ 12 → a % 4 = 0 → a + 4 * n ≤ 2 ^ 32 →
            (u.holds (u.copyOf .smbus) = false → held = true → failed 1 u') ∧
            (u.holds (u.copyOf .smbus) = true ∨ held = false →
              let t := v.zipIdx.foldl (fun t e => t.regWrite .smbus (a + 4 * e.2) e.1.toNat) u'
              let away := (u'.smbWriteWords (smbWords a v)).1
              (away = false → failed 0 t) ∧
              (away = true → ∃ code, code ≠ 0 ∧ failed code { t with freeCount := t.freeCount + 1 })))))) ∧
      (u.pkg.alertN = false → exec (.alertResponse wait) s = .next { u with smb := { b with
        alertByte := some (2 * (0x70 + bitsOf u.boot.strapWord 6 4)) } }) ∧
      (∀ low, cyclesOfMs 35 ≤ low → exec (.smbusClockTimeout wait low) s =
        .next { u with smb := { b with response := [], spdm := none, alertByte := none } }) ∧
      exec (.getVersion wait) s = .next { u with smb := { b with
        spdm := some .version, spdmVersion := true, spdmCaps := false, spdmAlgs := false } } ∧
      (b.spdmVersion = true → exec (.getCapabilities wait) s = .next { u with smb := { b with
        spdm := some .capabilities, spdmCaps := true, spdmAlgs := false } }) ∧
      (b.spdmVersion = false → answers (.getCapabilities wait) .error) ∧
      (∀ p384 sha384 : Bool, (b.spdmCaps = false → answers (.negotiateAlgorithms wait p384 sha384) .error) ∧
        (b.spdmCaps = true → exec (.negotiateAlgorithms wait p384 sha384) s = .next { u with smb := { b with
          spdm := some (.algorithms p384 sha384), spdmAlgs := p384 && sha384 } })) ∧
      (∀ (slot offset length : Nat) (nonce : BitVec 256) (signed : Bool) (registry vendor : Nat) (payload : List Byte),
        let chain := (List.range Config.certLength.toNat).map Config.certByte
        let part := (chain.drop offset).take length
        let w := u.copyOf .smbus; let store := (u.tile (atriumTile w)).selv
        let zero : List Byte := List.replicate 48 0
        let blocks := [(1, u.boot.strapDigest), (2, u.boot.fuseDigest), (3, if u.booted then u.boot.bsDigest else zero),
            (4, u.bootKeyDigest)] ++
          (List.range 8).map (fun i => (5 + i, if u.booted then u.boot.images.getD i zero else zero)) ++
          [(13, match store.newestEntry with | some e => sha384 e | none => zero)]
        let asked := blocks.filter fun k => slot == 255 || k.1 == slot
        let sign (k : Nat) (l : List Byte) : List Byte := beBytes 96 (Config.spdmSignature k nonce l).toNat
        let formed := registry = u.pr w IdReg.MCTP_REGISTRY ∧ vendor = u.pr w IdReg.MCTP_VENDOR_ID ∧ payload.length = 5 ∧
          payload.headD 0 = 1
        let reads (i : Instr) (a : SpdmAnswer) : Prop := Completes i s fun y => y.smb = { b with spdm := some a } ∧
          ((∀ t : Fin 8, (u.tile t).selv.ce = [] ∧ (u.tile t).selv.ue = []) → y.atria = u.atria) ∧ s.ChangesOnly [.time, .tiles, .atria, .smb] y ∧ y.tiles = u.tiles
        (b.spdmAlgs = false → answers (.getDigests wait) .error ∧ answers (.getCertificate wait slot offset length) .error ∧
          answers (.challenge wait slot nonce) .error ∧ answers (.getMeasurements wait slot signed nonce) .error ∧
          answers (.vendorDefinedRequest wait registry vendor payload) .error) ∧
        (b.spdmAlgs = true →
          answers (.getDigests wait) (.digests (sha384 chain)) ∧
          (slot ≠ 0 ∨ chain.length ≤ offset → answers (.getCertificate wait slot offset length) .error) ∧
          (slot = 0 → offset < chain.length → answers (.getCertificate wait slot offset length)
            (.certificate part (chain.length - offset - part.length))) ∧
          (slot ≠ 0 → answers (.challenge wait slot nonce) .error) ∧
          (slot = 0 → let own := beBytes 32 (Config.spdmNonce u.freeCount).toNat
            exec (.challenge wait slot nonce) s = .next { u with
              freeCount := u.freeCount + 1
              smb := { b with spdm := some (.challengeAuth (sha384 chain) own (sign 1 (sha384 chain ++ own))) } }) ∧
          (slot ≠ 0 → asked = [] → answers (.getMeasurements wait slot signed nonce) .error) ∧
          (slot = 0 ∨ asked ≠ [] → reads (.getMeasurements wait slot signed nonce)
            (.measurements 13 asked (if signed then some (sign 2 (asked.flatMap (·.2))) else none))) ∧
          (¬ formed → answers (.vendorDefinedRequest wait registry vendor payload) .error) ∧
          (formed → reads (.vendorDefinedRequest wait registry vendor payload)
            (match store.entryOf (ofBytes (payload.drop 1)) with | some e => .vendor 0 e | none => .vendor 1 []))))

/-- Key updates, the flash controllers and the persistent registers that firmware writes (R412, R422, R423, R427, R432,
R436, R438, R439, R444, R448, R493). -/
def Obligations.FlashAndKeys : Prop :=
  let wear := [BootReg.WEAR_WARN, BootReg.WEAR_MAX_LO, BootReg.WEAR_MAX_HI, BootReg.WEAR_TILE]
  let reads := [BootReg.SELV_UE, BootReg.SELV_UE_COUNT, BootReg.SELV_UE_WORD, BootReg.SELV_UE_TILE, BootReg.SELV_CE_COUNT]
  let wrote (i : Instr) (s u : State) (w : Fin 2) (fs : List Fld) (P : Atrium → Prop) : Prop := Completes i s fun y =>
    (∀ k : Fin 2, k = w ∨ u.split = false → P (y.atrium k)) ∧
    (∀ k, (u.atrium k).KeepsFields (y.atrium k) (if k = w ∨ u.split = false then fs ++ wear else wear)) ∧
    (∀ t, (y.tile t).regs = (u.tile t).regs ∧ (y.tile t).stack = (u.tile t).stack) ∧
    y.pkg = { u.pkg with persistNow := y.pkg.persistNow } ∧ s.ChangesOnly [.time, .tiles, .atria, .shadows, .fuses, .pkg, .free] y
  let last (u : State) (q : Req) : Prop := ∀ e ∈ u.pkg.persistNow, e.cycle = u.cycle → u.reqTile e.req ≤ u.reqTile q
  (∀ (s : State) (q : Req) (v : Word), s.accessOf q (.pkg 0x284) = .ok → let u := s.atPkg q 0x284; let w := u.copyOf q
    let held := match (u.tile (atriumTile w)).selv.newestEntry with | some e => entryCount e | none => 0
    let good := u.allowed q = true ∧ u.pr w BootReg.BR_ACK ≤ v.toNat ∧ v.toNat ≤ held
    let now (fs : List Fld) (P : Atrium → Prop) : Prop := wrote (.brAckWrite q v) s u w (fs ++ reads) P
    last u q →
      (¬ good → now [BootReg.PERSIST_REFUSED] fun a => a.b BootReg.PERSIST_REFUSED = true) ∧
      (good → u.storeRefuses = true → now [BootReg.SELV_REFUSED] fun a => a.b BootReg.SELV_REFUSED = true) ∧
      (good → u.storeRefuses = false → now [BootReg.BR_ACK] fun a => a.r BootReg.BR_ACK = v.toNat)) ∧
  (∀ (s : State) (q : Req) (hi : Bool) (v : Word), let f := if hi then BootReg.MIN_SEQ_HI else BootReg.MIN_SEQ_LO
    s.accessOf q (.pkg f.off) = .ok → let u := s.atPkg q f.off; let w := u.copyOf q
      let pair (lo up : Nat) : Nat := lo + 2 ^ 32 * up
      let lo := u.pr w BootReg.MIN_SEQ_LO; let up := u.pr w BootReg.MIN_SEQ_HI
      let new := if hi then pair lo v.toNat else pair v.toNat up
      let good := u.allowed q = true ∧ pair lo up ≤ new ∧ new ≤ pair (u.pr w BootReg.SEQ_LO) (u.pr w BootReg.SEQ_HI)
      let now := wrote (.minSeqWrite q hi v) s u w
      last u q →
        (¬ good → now [BootReg.PERSIST_REFUSED] fun a => a.b BootReg.PERSIST_REFUSED = true) ∧
        (good → u.storeRefuses = true → now [BootReg.SELV_REFUSED] fun a => a.b BootReg.SELV_REFUSED = true) ∧
        (good → u.storeRefuses = false → now [f] fun a => a.r f = v.toNat)) ∧
  (∀ (s : State) (q : Req) (v : Word), s.accessOf q (.pkg 0x220) = .ok → let u := s.atPkg q 0x220; let w := u.copyOf q
    let now := wrote (.activeSlotWrite q v) s u w; let slots := [BootReg.ACTIVE_SLOT_0, BootReg.ACTIVE_SLOT_1, BootReg.RECORD_POLICY]
    let shows (a : Atrium) (n : Nat) : Prop := a.b BootReg.ACTIVE_SLOT_0 = bitOf n 0 ∧ a.b BootReg.ACTIVE_SLOT_1 = bitOf n 1 ∧
      a.b BootReg.RECORD_POLICY = bitOf n 2
    (last u q →
      (u.allowed q = false → now [BootReg.PERSIST_REFUSED] fun a => a.b BootReg.PERSIST_REFUSED = true) ∧
      (u.allowed q = true → u.storeRefuses = true → now [BootReg.SELV_REFUSED] fun a => a.b BootReg.SELV_REFUSED = true) ∧
      (u.allowed q = true → u.storeRefuses = false → now slots fun a => shows a v.toNat)) ∧
    (∀ e, u.pkg.persistNow = [e] → e.cycle = u.cycle → e.off = 0x220 → u.reqTile q < u.reqTile e.req → u.split = false →
      u.allowed q = true → u.allowed e.req = true → u.storeRefuses = false → now slots fun a => shows a e.value)) ∧
  (∀ (s : State) (q : Req) (v : Word), s.accessOf q (.pkg 0x228) = .ok → let u := s.atPkg q 0x228; let w := u.copyOf q
    let t : Fin 8 := if bitOf v.toNat 29 then 4 else 0; let at_ := 64 * (v.toNat % 2 ^ 29); let l := u.stackBytes t at_ 288
    let num (i n : Nat) : Nat := ofBytes ((l.drop i).take n)
    let slot := num 5 1; let signer := num 6 1; let seq := num 8 4; let key := (l.drop 0x50).take 97
    let clean := (u.tile t).stack.ue = [] ∧ (u.tile t).stack.ce = [] ∧ inStaging at_ 288 = true ∧ u.stackUp t = true
    let device := (List.range 4).flatMap fun i => bytesOf 4 (u.pr w (IdReg.DEVICE_ID i))
    let took (a : Atrium) : Prop := a.r BootReg.KEY_ADDR = v.toNat % 2 ^ 29 ∧ a.b BootReg.KEY_STACK = bitOf v.toNat 29
    let place := [BootReg.KEY_ADDR, BootReg.KEY_STACK]
    ∀ e ∈ [(Instr.add q v, 1), (Instr.remove q v, 2), (Instr.revokeFuse q v, 3)], u.updateOp v.toNat = e.2 →
      let formed := num 0 4 = 0x554B4C50 ∧ (if e.2 = 3 then slot ≤ 3 else 4 ≤ slot ∧ slot ≤ 11) ∧ signer ≤ 3 ∧ num 7 1 = 0 ∧
        num 0x0C 4 = 0 ∧ num 0xB1 15 = 0 ∧ (e.2 ≠ 1 → num 0x20 48 = 0)
      let trusted := u.keyTrusted w signer key = true ∧ (e.2 = 3 → slot ≠ signer)
      let code := if ¬ formed then 1 else if (l.drop 0x10).take 16 ≠ device then 2
        else if seq ≤ u.pr w BootReg.KEY_SEQ then 3 else if ¬ trusted then 4
        else if keyVerifies key (sha384 (l.take 0xC0)) ((l.drop 0xC0).take 96) = false then 5 else 0
      let refused (k : Nat) : Prop := wrote e.1 s u w (place ++ [BootReg.KEY_STATUS, BootReg.KEY_REFUSED]) fun a =>
        took a ∧ a.r BootReg.KEY_STATUS = k ∧ a.b BootReg.KEY_REFUSED = true
      (u.allowed q = false → refused 6) ∧
      (u.allowed q = true → clean → code ≠ 0 → refused code) ∧
      (u.allowed q = true → clean → code = 0 → u.storeRefuses = true →
        wrote e.1 s u w (place ++ [BootReg.SELV_REFUSED, BootReg.KEY_STATUS, BootReg.KEY_REFUSED]) fun a => took a ∧
          a.b BootReg.SELV_REFUSED = true ∧ a.b BootReg.KEY_REFUSED = true ∧ 1 ≤ a.r BootReg.KEY_STATUS ∧
          a.r BootReg.KEY_STATUS ≤ 6) ∧
      (u.allowed q = true → clean → code = 0 → u.storeRefuses = false →
        wrote e.1 s u w (place ++ [BootReg.KEY_SEQ, BootReg.KEY_STATUS, BootReg.KEY_DONE]) (fun a => took a ∧
          a.r BootReg.KEY_SEQ = seq ∧ a.r BootReg.KEY_STATUS = 0 ∧ a.b BootReg.KEY_DONE = true) ∧
        Completes e.1 s fun y =>
          (e.2 = 3 → y.fuses = { u.fuses with revoked := u.fuses.revoked ||| 2 ^ slot } ∧
            ∀ k, (y.tile k).selv.words = (u.tile k).selv.words) ∧
          (e.2 ≠ 3 → y.fuses = u.fuses ∧ ∀ k ∈ [(0 : Fin 8), 4], k = atriumTile w ∨ u.split = false →
            let at_ (i : Nat) : DWord := (y.tile k).selv.read (0x10000 / 8 + 8 * (slot - 4) + i)
            at_ 0 = BitVec.ofNat 64 ((if e.2 = 1 then 1 else 0) + slot * 2 ^ 8) ∧ at_ 1 = BitVec.ofNat 64 seq ∧
            ∀ i ∈ List.range 6, at_ (2 + i) = BitVec.ofNat 64 (num (0x20 + 8 * i) 8)))) ∧
  (∀ (s : State) (q : Req) (f : Fin 2) (v : Word), let off := 0x40C + 0x40 * f.val
    s.accessOf q (.pkg off) = .ok → let u := s.atPkg q off; let w := u.copyOf q
      let a := u.pr w (FlashReg.FL_ADDR f); let n := u.pr w (FlashReg.FL_LEN f); let buf := 64 * u.pr w (FlashReg.FL_BUF f)
      let active := 0x4000000 * u.pr w (if f = 0 then BootReg.ACTIVE_SLOT_0 else BootReg.ACTIVE_SLOT_1)
      ∀ e ∈ [(Instr.flashRead q f v, 0), (Instr.flashProgram q f v, 1), (Instr.flashErase q f v, 2), (Instr.flashVerify q f v, 3)],
        let z := u.onPkg w (·.wr (FlashReg.FL_OP f) e.2)
        let unit := if e.2 = 1 then 256 else if e.2 = 2 then 65536 else 1
        let code := if u.allowed q = false then 5 else if (u.flash f).bootRead then 2
          else if e.2 = 3 then (if a = 0 ∨ a = 0x4000000 then 0 else 3)
          else if 0x8000000 < a + n ∨ (e.2 ≠ 2 ∧ inStaging buf n = false) ∨ n % unit ≠ 0 ∨ a % unit ≠ 0 then 3
          else if e.2 ≠ 0 ∧ a < active + 0x4000000 ∧ active < a + n then 4 else 0
        ((u.flash f).started ≠ none → exec e.1 s = .next z) ∧
        let z' := if code = 3 ∧ e.2 ≤ 1 ∧ inStaging buf n = false ∧ u.stackUp (atriumTile f) = true then
            z.onTile (atriumTile f) (·.flag ProtReg.MEM_RANGE) else z
        ((u.flash f).started = none → code ≠ 0 → exec e.1 s = .next (z'.onPkg w (·.wr (FlashReg.FL_STATUS f) code))) ∧
        ((u.flash f).started = none → code = 0 → exec e.1 s = .next ((z.onPkg w fun rf =>
            (rf.wr (FlashReg.FL_BUSY f) 1).wr (FlashReg.FL_GO f) 1).onFlash f fun x =>
              { x with started := some u.cycle, op := e.2, wing := w, addr := a, len := n, buf := buf }))) ∧
  (∀ (s : State) (wait : Nat) (f : Fin 2) (c : Nat), let u := s.pass wait; let t : Fin 8 := atriumTile f
    let x := u.flash f; let a := x.addr; let n := x.len; let buf := x.buf
    let shown (k : Fin 2) : Prop := u.pr k (FlashReg.FL_BUSY f) = 1
    let closed (y : State) (status : Nat) : Prop := ∀ k, shown k → y.pr k (FlashReg.FL_BUSY f) = 0 ∧ y.pr k (FlashReg.FL_GO f) = 0 ∧
      y.pr k (FlashReg.FL_STATUS f) = status
    let ends (i : Instr) (status : Nat) (P : State → Prop) : Prop := Completes i s fun y => P y ∧
      (y.flash f).started = none ∧ closed y status ∧ (∀ k, k ≠ f → y.flash k = u.flash k) ∧
      (∀ k, (u.atrium k).KeepsFields (y.atrium k) ((if shown k then [FlashReg.FL_BUSY f, FlashReg.FL_GO f, FlashReg.FL_STATUS f,
        FlashReg.VERIFY_CODE f] else []) ++ if x.op = 3 then reads else [])) ∧
      (∀ k, k ≠ t → y.tile k = u.tile k) ∧ s.ChangesOnly [.time, .tiles, .atria, .flashes] y
    let done := Instr.flashOpComplete wait f true
    x.started = some c →
      ends (.flashOpComplete wait f false) 1 (fun y => y.tiles = u.tiles ∧ y.flash f = { x with started := none }) ∧
      (c + 5000 * cyclesOfMs 1 ≤ u.cycle →
        ends (.flashTimeout wait f) 1 fun y => y.tiles = u.tiles ∧ y.flash f = { x with started := none }) ∧
      (x.op ≤ 1 → u.stackUp t = false ∨ (x.op = 1 ∧ u.stackUe t buf n = true) →
        Completes done s fun y => y.flash f = { x with started := none } ∧ closed y 1) ∧
      (x.op = 0 → u.stackUp t = true → inStaging buf n = true → (u.tile t).stack.ue = [] → (u.tile t).stack.ce = [] →
        ends done 0 fun y => y.stackBytes t buf n = x.bytes a n ∧ (u.tile t).StackKept (y.tile t) buf n ∧
          (u.tile t).KeepsFields (y.tile t) [] ∧ y.flash f = { x with started := none }) ∧
      (x.op = 1 → u.stackUp t = true → inStaging buf n = true → (u.tile t).stack.ue = [] → (u.tile t).stack.ce = [] →
        ends done 0 fun y => y.tiles = u.tiles ∧ (∀ i ∈ List.range n, (y.flash f).read8 (a + i) =
            x.read8 (a + i) &&& (u.stackBytes t buf n).getD i 0) ∧
          ∀ k, (k < a ∨ a + n ≤ k) → (y.flash f).read8 k = x.read8 k) ∧
      (x.op = 2 → ends done 0 fun y => y.tiles = u.tiles ∧ (∀ i ∈ List.range n, (y.flash f).read8 (a + i) = 0xFF) ∧
          ∀ k, (k < a ∨ a + n ≤ k) → (y.flash f).read8 k = x.read8 k) ∧
      (x.op = 3 → ends done 0 fun y => y.tiles = u.tiles ∧ y.flash f = { x with started := none } ∧
        ∀ k, shown k → y.pr k (FlashReg.VERIFY_CODE f) = u.checkImage x.wing f (a / 0x4000000) 3 % 16))

/-- The Gallery cores and their caches (R393, R394, R395, R396, R397, R398, R399, R401, R403, R404, R405, R406): the physical map,
memory accesses and their faults, the write buffer, fences, atomic instructions, fills, and the registers of a cache. -/
def Obligations.Cores : Prop :=
  (∀ (u : State) (c : Fin 2) (a : Nat),
    (a < 0x80000 → u.region c a = .tcm c a) ∧
    (0x80000 ≤ a → a < 0x100000 → u.region c a = .tcm (1 - c) (a - 0x80000)) ∧
    (0x100000000 ≤ a → a < 0x200000000 → u.region c a = .regs (a - 0x100000000)) ∧
    (∀ x : Fin 8, 0x4000000000 + x.val * 0x800000000 ≤ a → a < 0x4000000000 + x.val * 0x800000000 + 0x600000000 →
      u.region c a = if u.tileEnabled x then .stack x (a - 0x4000000000 - x.val * 0x800000000) else .hole) ∧
    (0x100000 ≤ a → a < 0x100000000 ∨ (0x200000000 ≤ a ∧ a < 0x4000000000) ∨ 0x8000000000 ≤ a → u.region c a = .hole)) ∧
  (∀ (k : CoreSt) (irq : Bool) (code v : Nat), let y := k.trapTo irq code v; let cause := code + (if irq then 2 ^ 63 else 0)
    let low := k.mode < 3 ∧ bitOf (if irq then k.csr.mideleg else k.csr.medeleg) code = true
    let entry (tvec : Nat) : Nat := tvec / 4 * 4 + (if irq = true ∧ tvec % 4 = 1 then 4 * code else 0)
    (low → y = { k with mode := 1, pc := entry k.csr.stvec, half := none, csr := { k.csr with
      scause := cause, sepc := k.pc, stval := v, mstatus := y.csr.mstatus } } ∧ bitOf y.csr.mstatus 1 = false ∧
      bitOf y.csr.mstatus 5 = bitOf k.csr.mstatus 1 ∧ bitOf y.csr.mstatus 8 = bitOf k.mode 0) ∧
    (¬ low → y = { k with mode := 3, pc := entry k.csr.mtvec, half := none, mcause := cause, mtval := v, csr := { k.csr with
      mepc := k.pc, mstatus := y.csr.mstatus } } ∧ bitOf y.csr.mstatus 3 = false ∧
      bitOf y.csr.mstatus 7 = bitOf k.csr.mstatus 3 ∧ bitsOf y.csr.mstatus 12 11 = k.mode % 4) ∧
    ∀ detail, k.fault code detail v = { k.trapTo false code v with
      mtval := v, gdetail := detail + (if code = 1 then 16 else 0) }) ∧
  (∀ (s : State) (t : Fin 8) (c : Fin 2), let x := s.tile t; let k := x.core c
    s.csrRead t c 0xF14 = some (2 * t.val + c.val) ∧ s.csrRead t c 0xC01 = some (s.ns t) ∧
    s.csrRead t c 0xFC0 = some k.gdetail ∧ s.csrRead t c 0x342 = some k.mcause ∧ s.csrRead t c 0x343 = some k.mtval ∧
    s.csrRead t c 0x344 = some (s.mip t c) ∧ (k.csr.sip < 2 ^ 12 → bitOf k.csr.sip 3 = false → bitOf k.csr.sip 7 = false →
      bitOf (s.mip t c) 3 = x.b (GalReg.MSIP c) ∧ bitOf (s.mip t c) 7 = s.timerDue t c ∧
      ∀ n, n < 32 → bitOf (s.mip t c) (16 + n) = (bitOf (s.irqPend t) n && bitOf (x.r (GalReg.IRQ_EN c)) n))) ∧
  (∀ (s : State) (wait : Nat) (t : Fin 8) (c : Fin 2) (ran : CoreOp) (e : CoreAccess), let u := s.pass wait
    let o := (u.tile t).core c; let set (y : CoreSt) : Prop := exec (.instructionFetch wait t c ⟨ran, e⟩) s = .next (u.onCore t c fun _ => y)
    u.coreRuns t c = true →
      (ran = .none → ∀ n, u.interruptFor t c = some n → set ({ o with pc := e.addr }.trapTo true n 0)) ∧
      (ran = .ecall → set (o.trapTo false (8 + o.mode) 0)) ∧ (ran = .ebreak → set (o.trapTo false 3 o.pc)) ∧
      (ran = .illegal ∨ (ran = .mret ∧ o.mode ≠ 3) ∨ (ran = .sret ∧ o.mode = 0) → set (o.trapTo false 2 0)) ∧
      (∀ rd n v, ran = .csr rd n v → u.csrRead t c n.val = none ∨ o.mode < bitsOf n.val 9 8 ∨
        (bitsOf n.val 11 10 = 3 ∧ v ≠ none) → set (o.trapTo false 2 0))) ∧
  (∀ (s : State) (wait : Nat) (t : Fin 8) (c : Fin 2) (e : CoreAccess), let u := s.pass wait; let x := u.tile t
    let o := x.core c; let a := e.addr; let n := e.size; let w := if n = 8 then 8 else 4
    let quiet := ∀ b ∈ o.buffer, overlaps a (max n w) b.addr b.size = false
    let fetch := Instr.instructionFetch wait t c ⟨.none, e⟩; let at_ : CoreSt := { o with pc := a, half := none }
    let rows := [(fetch, at_, 0, a % 2 == 0, o.mayFetch a n), (.coreLoad wait t c e, o, 4, a % max 1 n == 0, o.mayRead a n),
      (.coreStore wait t c e, o, 6, a % max 1 n == 0, o.mayWrite a n)]
    let reads := [(fetch, (0 : Fin 2), at_, a % 2 == 0 && o.mayFetch a n && decide (a % 64 + n ≤ 64)),
      (.coreLoad wait t c e, 1, o, a % max 1 n == 0 && o.mayRead a n)]
    let took (k : CoreSt) (n v : Nat) : CoreSt :=
      { k with loaded := v }.setX e.rd (if e.zext then BitVec.ofNat 64 v else BitVec.ofInt 64 (signedOf (8 * n) v))
    let gave (k : Fin 2) (old : CoreSt) (v : Nat) : CoreSt := if k = 0 then { old with fetched := v } else took old n v
    let cause (k : Fin 2) : Nat := if k = 0 then 1 else 5
    let same (y : State) : Prop := (∀ k : Fin 8, k ≠ t → (y.tile k).stack = (u.tile k).stack ∧ (y.tile k).cores = (u.tile k).cores) ∧
      s.ChangesOnly [.time, .tiles] y
    u.coreRuns t c = true → quiet → u.interruptFor t c = none →
      (∀ r ∈ rows, let set (y : CoreSt) : Prop := exec r.1 s = .next (u.onCore t c fun _ => y); let k := r.2.1; let fair := r.2.2.2.1
        let may := r.2.2.2.2; let code := r.2.2.1
        (fair = false → set (k.trapTo false code a)) ∧ (fair = true → may = false → set (k.fault (code + 1) 0 a)) ∧
        (fair = true → may = true → a % 64 + n ≤ 64 → (u.region c a = .hole → set (k.fault (code + 1) 6 a)) ∧
          (∀ p, u.region c a = .regs p → n ≠ 4 → set (k.fault (code + 1) 5 a)))) ∧
      (∀ r ∈ reads, let k := r.2.1; let old := r.2.2.1; r.2.2.2 = true →
        (∀ d off, u.region c a = .tcm d off → (x.core d).tcm.flips = [] →
          exec r.1 s = .next (u.onCore t c fun _ => gave k old ((x.core d).tcm.readLE off n))) ∧
        (∀ d off b, u.region c a = .tcm d off → (x.core d).tcm.badAt off n = some b → Completes r.1 s fun y =>
          (y.tile t).core c = old.fault (cause k) 1 a) ∧
        (∀ z off, u.region c a = .stack z off → x.cacheOn c k = false →
          (u.stackReached t z = false → Completes r.1 s fun y => (y.tile t).core c = old.fault (cause k) 3 a ∧ same y) ∧
          (u.stackReached t z = true → (u.tile z).stack.ue = [] → (u.tile z).stack.ce = [] → inStaging off n = true →
            Completes r.1 s fun y => (y.tile t).core c = gave k old (ofBytes (u.stackBytes z off n)) ∧ same y) ∧
          (u.stackReached t z = true → u.stackUe z off n = true → inStaging off n = true → Completes r.1 s fun y =>
            (y.tile t).core c = old.fault (cause k) 2 a)) ∧
        (∀ z off, u.region c a = .stack z off → x.cacheOn c k = true → (u.cache t c k).fill = none →
          let h := u.cache t c k; let line := a / 64; let j := cacheNo c k
          (∀ l, h.find line = some l → l.2.2.crc = crc16 l.2.2.data → Completes r.1 s fun y =>
            let z := gave k old (ofBytes ((l.2.2.data.drop (a % 64)).take n)); let v := (y.tile t).core c
            v = { z with icache := v.icache, dcache := v.dcache } ∧
            (y.cache t c k).waiting = h.waiting ∧ (y.tile t).r (CacheReg.HITS j) = min (2 ^ 32 - 1) (x.r (CacheReg.HITS j) + 1) ∧
            x.KeepsFields (y.tile t) [CacheReg.HITS j] ∧ same y) ∧
          (h.lacks line = true → Completes r.1 s fun y => let v := (y.tile t).core c; (y.cache t c k).fill = some line ∧
            (y.cache t c k).waiting = h.waiting ++ [e] ∧
            (y.tile t).r (CacheReg.MISSES j) = min (2 ^ 32 - 1) (x.r (CacheReg.MISSES j) + 1) ∧
            v = { old with icache := v.icache, dcache := v.dcache } ∧
            x.KeepsFields (y.tile t) [CacheReg.MISSES j] ∧ same y))) ∧
      (a % max 1 n = 0 → o.mayWrite a n = true → let h := u.cache t c 1
        (∀ d off, u.region c a = .tcm d off → Completes (.coreStore wait t c e) s fun y =>
          ((y.tile t).core d).tcm = (x.core d).tcm.writeLE off n e.value ∧ (y.tile t).regs = x.regs ∧
          (y.tile t).stack = x.stack ∧ s.ChangesOnly [.time, .tiles] y) ∧
        ((∃ p, u.region c a = .regs p ∧ n = 4) ∨ ((∃ z off, u.region c a = .stack z off) ∧ h.fill = none ∧
            ∀ l, h.find (a / 64) = some l → l.2.2.crc = crc16 l.2.2.data) → o.buffer.length < 8 →
          Completes (.coreStore wait t c e) s fun y => ((y.tile t).core c).buffer = o.buffer ++ [⟨a, n, e.value⟩] ∧
            ((y.tile t).core c).xregs = o.xregs ∧ (y.tile t).stack = x.stack ∧ same y)) ∧
      (∀ op : AmoOp, let i := Instr.amo wait t c op e; let code := if op = .lr then 5 else 7
        let set (y : CoreSt) : Prop := exec i s = .next (u.onCore t c fun _ => y)
        let may := (op = .sc ∨ o.mayRead a w = true) ∧ (op = .lr ∨ o.mayWrite a w = true)
        (a % w ≠ 0 → set (o.trapTo false (code - 1) a)) ∧ (a % w = 0 → ¬ may → set (o.fault code 0 a)) ∧
        (a % w = 0 → may →
          (u.region c a = .hole → set (o.fault code 6 a)) ∧ (∀ p, u.region c a = .regs p → set (o.fault 7 4 a)) ∧
          (∀ d off, u.region c a = .tcm d off → (x.core d).tcm.flips = [] → let old := (x.core d).tcm.readLE off w
            let new := (x.core d).tcm.writeLE off w; let held := o.reserved = some (granule t (.tcm d off))
            let sold : Int := signedOf (8 * w) old; let sv : Int := signedOf (8 * w) (e.value % 2 ^ (8 * w))
            Completes i s fun y => let k := (y.tile t).core c; let m := ((y.tile t).core d).tcm
              (op = .lr → k.reserved = some (granule t (.tcm d off)) ∧ m = (x.core d).tcm) ∧
              (op = .sc → held → k.xregs = (took o w 0).xregs ∧ k.reserved = none ∧ m = new e.value) ∧
              (op = .sc → ¬ held → k.xregs = (took o w 1).xregs ∧ k.reserved = none ∧ m = (x.core d).tcm) ∧
              (op ≠ .sc → k.loaded = old ∧ k.xregs = (took o w old).xregs) ∧
              (op = .swap → m = new e.value) ∧ (op = .add → m = new (old + e.value)) ∧
              (op = .xor → m = new (old ^^^ e.value)) ∧ (op = .and → m = new (old &&& e.value)) ∧
              (op = .or → m = new (old ||| e.value)) ∧ (op = .min → m = new (if sold < sv then old else e.value)) ∧
              (op = .max → m = new (if sold < sv then e.value else old)) ∧
              (op = .minu → m = new (min old (e.value % 2 ^ (8 * w)))) ∧
              (op = .maxu → m = new (max old (e.value % 2 ^ (8 * w)))) ∧
              (y.tile t).regs = x.regs ∧ s.ChangesOnly [.time, .tiles] y)))) ∧
  (∀ (s : State) (wait : Nat) (t : Fin 8) (c k : Fin 2), let u := s.pass wait; let x := u.tile t; let o := x.core c
    let h := u.cache t c k; let j := cacheNo c k; let q : Req := .core t c
    (let u := (s.advance wait).turnTo 3; let x := u.tile t; let o := x.core c; let h := u.cache t c k
      u.coreRuns t c = true → ∀ b l, o.buffer = b :: l → h.ops = [] → (u.cache t c (1 - k)).ops = [] →
        (∀ z off, u.region c b.addr = .stack z off → u.stackReached t z = true → inStaging off b.size = true →
          (u.tile z).stack.ue = [] → (u.tile z).stack.ce = [] → Completes (.storeDrain wait t c) s fun y =>
            ((y.tile t).core c).buffer = l ∧ y.stackBytes z off b.size = bytesOf b.size b.value ∧
            (u.tile z).StackKept (y.tile z) off b.size ∧ (∀ i, i ≠ z → (y.tile i).stack = (u.tile i).stack) ∧
            s.ChangesOnly [.time, .tiles] y) ∧
        (∀ z off, u.region c b.addr = .stack z off → u.stackReached t z = false → Completes (.storeDrain wait t c) s fun y =>
            let v := y.tile t
            (v.core c).buffer = l ∧ v.b GalReg.BUS_ERR = true ∧ (x.b GalReg.BUS_ERR = false →
              v.r GalReg.BUS_ERR_LO = b.addr % 2 ^ 32 ∧ v.r GalReg.BUS_ERR_HI = b.addr / 2 ^ 32 % 2 ^ 16 ∧
              v.r GalReg.BUS_ERR_CORE = c) ∧ (∀ i, (y.tile i).stack = (u.tile i).stack) ∧ s.ChangesOnly [.time, .tiles] y) ∧
        (∀ p, u.region c b.addr = .regs p → u.accessOf q (placeOf p) ≠ .noRoute → exec (.storeDrain wait t c) s = .next
          (let v := u.onCore t c fun k => { k with buffer := l }; let y := v.regWrite q p b.value
            ((if v.turnedAway q (placeOf p) b.value then y.busError t c b.addr else y).cacheOps t c 0).cacheOps t c 1))) ∧
    (u.coreRuns t c = true →
      Completes (.fence wait t c) s (fun y => ((y.tile t).core c).buffer = [] ∧ (o.buffer = [] → y = u)) ∧
      Completes (.fenceI wait t c) s (fun y => ((y.tile t).core c).buffer = [] ∧ (o.buffer = [] →
        let locked := x.r (CacheReg.LOCK_WAYS (cacheNo c 0))
        y = u.onCore t c fun k => { k with icache := { k.icache with
          ways := k.icache.ways.filter fun l => bitOf locked l.2.1
          victims := [], side := [], prefetch := [], fillInv := k.icache.fillInv || k.icache.fill.isSome } })) ∧
      (x.r (GalReg.MTIMECMP_LO c) + x.r (GalReg.MTIMECMP_HI c) * 2 ^ 32 ≤ u.ns t →
        exec (.timerInterrupt wait t c) s = .next (if u.interruptFor t c = some 7 then
          u.onCore t c fun k => k.trapTo true 7 0 else u)) ∧
      (∀ line e, h.fill = some line → h.waiting = [e] → h.fillWay = none → line = e.addr / 64 → h.find line = none →
        o.half = none → (∀ b ∈ o.buffer, b.addr / 64 ≠ line) → let a := e.addr; let n := e.size
        ∀ z off, u.region c (64 * line) = .stack z off → u.stackReached t z = true → inStaging off 64 = true →
          (u.tile z).stack.ue = [] → (u.tile z).stack.ce = [] → Completes (.cacheFill wait t c k) s fun y =>
            let v := (y.tile t).core c; let g := y.cache t c k
            let data := u.stackBytes z off 64; let locked := x.r (CacheReg.LOCK_WAYS j)
            (if k = 0 then v.fetched else v.loaded) = ofBytes ((data.drop (a % 64)).take n) ∧ g.fill = none ∧ g.waiting = [] ∧
            (h.fillInv = true → g.ways = h.ways ∧ g.victims = h.victims) ∧
            (h.fillInv = false → (∃ l, g.find line = some l ∧ l.2.2.data = data ∧ l.2.2.crc = crc16 data ∧
                (locked < 8 → bitOf locked l.2.1 = false)) ∧ g.victims.length ≤ max 8 h.victims.length) ∧
            (h.lacks (line + 1) = true → h.prefetch = [] → g.prefetch = [line + 1]) ∧ s.ChangesOnly [.time, .tiles] y) ∧
      (∀ line l, h.prefetch = line :: l → ∀ z off, u.region c (64 * line) = .stack z off →
        (u.stackReached t z = false → Completes (.prefetchFill wait t c k) s fun y =>
          y.cache t c k = { h with prefetch := l } ∧ s.ChangesOnly [.time, .tiles] y) ∧
        (u.stackReached t z = true → inStaging off 64 = true → (u.tile z).stack.ue = [] → (u.tile z).stack.ce = [] →
          Completes (.prefetchFill wait t c k) s fun y => let g := y.cache t c k
            g.prefetch = l ∧ g.ways = h.ways ∧ g.victims = h.victims ∧ (h.lacks line = false → g.side = h.side) ∧
            (h.lacks line = true → h.side.length ≤ 4 → (g.side.getLast?.map fun i => (i.tag, i.data)) =
              some (line, u.stackBytes z off 64) ∧ g.side.length = min 4 (h.side.length + 1)) ∧
            s.ChangesOnly [.time, .tiles] y)) ∧
      (∀ way first last, h.ll = some (way, first, last) → h.ops = [] → (∀ b ∈ o.buffer, 64 * last + 64 ≤ b.addr ∨
        b.addr + b.size ≤ 64 * first) → Completes (.llDone wait t c k) s fun y => let g := y.cache t c k; let v := y.tile t
          g.ll = none ∧ v.b (CacheReg.LL_DONE j) = true ∧
          (last + 1 - first < 256 → v.r (CacheReg.LL_LINES j) + v.r (CacheReg.LL_FAIL j) = last + 1 - first) ∧
          (v.r (CacheReg.LL_FAIL j) = 0 → first ≤ last → (g.ways.any fun i => i.2.1 == way && i.2.2.tag == last) = true)))) ∧
  (∀ (s : State) (q : Req) (t : Fin 8) (c k : Fin 2) (v : Word), let j := cacheNo c k; let off := 0x100 + 0x80 * j
    (s.accessOf q (.tile t (0x40 + 8 * c.val)) = .ok → let u := s.atTile q t (0x40 + 8 * c.val)
      CompletesTile (.dbSet q t c v) s u t fun y =>
        y.r (GalReg.DB c) = (u.tile t).r (GalReg.DB c) ||| v.toNat ∧ (u.tile t).KeepsFields y [GalReg.DB c] ∧
        y = { u.tile t with regs := y.regs }) ∧
    (s.accessOf q (.tile t (off + 0x10)) = .ok → let u := s.atTile q t (off + 0x10); let x := u.tile t
      let h := u.cache t c k; let way := bitsOf v.toNat 3 2
      let a := x.r (CacheReg.RANGE_LO j) + x.r (CacheReg.RANGE_HI j) * 2 ^ 32; let n := x.r (CacheReg.RANGE_LEN j)
      let in_ (l : Nat) : Bool := decide (n ≠ 0 ∧ a < 64 * l + 64 ∧ 64 * l < a + n)
      let refused (i : Instr) : Prop := CompletesTile i s u t fun y => y.b (CacheReg.LL_REFUSED j) = true ∧
        y.r (CacheReg.LL_WAY j) = way ∧ x.KeepsFields y [CacheReg.LL_WAY j, CacheReg.LL_REFUSED j] ∧ y.cores = x.cores
      (bitOf v.toNat 1 = true → refused (.invGo q t c k v)) ∧ (bitOf v.toNat 0 = true → refused (.llGo q t c k v)) ∧
      (bitOf v.toNat 0 = false → way = 3 ∨ bitOf (x.r (CacheReg.LOCK_WAYS j)) way = false ∨ n = 0 →
        refused (.llGo q t c k v)) ∧
      (bitOf v.toNat 0 = false → way ≠ 3 → bitOf (x.r (CacheReg.LOCK_WAYS j)) way = true → n ≠ 0 → h.ops = [] → h.ll = none →
        CompletesTile (.llGo q t c k v) s u t fun y => (if k = 0 then (y.core c).icache else (y.core c).dcache) =
            { h with ll := some (way, a / 64, (a + n - 1) / 64) } ∧ x.KeepsFields y [CacheReg.LL_WAY j]) ∧
      (bitOf v.toNat 1 = false → h.ops = [] → h.ll = none → CompletesTile (.invGo q t c k v) s u t fun y =>
        let g := if k = 0 then (y.core c).icache else (y.core c).dcache
        g.ways = (h.ways.filter fun i => !in_ i.2.2.tag) ∧ g.victims = (h.victims.filter fun i => !in_ i.tag) ∧
        g.side = (h.side.filter fun i => !in_ i.tag) ∧ y.b (CacheReg.INV_DONE j) = true ∧
        (y.core c).buffer = (x.core c).buffer ∧ x.KeepsFields y [CacheReg.LL_WAY j, CacheReg.INV_DONE j])) ∧
    (s.accessOf q (.tile t off) = .ok → let u := s.atTile q t off; let x := u.tile t; let h := u.cache t c k
      h.ops = [] → h.ll = none → CompletesTile (.cacheEnWrite q t c k v) s u t fun y =>
        let g := if k = 0 then (y.core c).icache else (y.core c).dcache
        y.b (CacheReg.CACHE_EN j) = false ∧ y.r (CacheReg.LOCK_WAYS j) = bitsOf v.toNat 6 4 ∧
        x.KeepsFields y [CacheReg.CACHE_EN j, CacheReg.LOCK_WAYS j, CacheReg.DRAINING j] ∧
        ((x.core c).buffer = [] → y.b (CacheReg.DRAINING j) = false ∧ g.ways = [] ∧ g.victims = [] ∧ g.side = []) ∧
        ((x.core c).buffer ≠ [] → y.b (CacheReg.DRAINING j) = true ∧ g.ways = h.ways ∧ g.victims = h.victims ∧
          g.side = h.side ∧ (y.core c).buffer = (x.core c).buffer)))

/-- The Ethernet side and the power states of the ports (R359, R360, R361, R362, R363, R364): the link, frames under
priority flow control, the rates of queue pairs, keep-alive expiry, autonomous transitions, and PS_CURRENT. -/
def Obligations.Fabric : Prop :=
  (∀ (s : State) (wait : Nat) (p : Fin 16), let u := s.pass wait; let t := portTile p; let l := p.val % 2
    let x := u.tile t; let o := u.port p; let parts : List Part := [.time, .tiles, .ports, .atria, .pkg]
    (u.tileUp t = true → u.tileEnabled t = true → u.pb p PortReg.ENABLE = true → u.pb p PortReg.LINK_UP = false →
      u.portLanes p ≠ 0 → Completes (.fabricLinkUp wait p) s fun y => y.pb p PortReg.LINK_UP = true ∧ y.PinsShown ∧
        y.port p = { o with prdyRose := (y.port p).prdyRose } ∧ u.PortKeeps y p [PortReg.LINK_UP l] ∧ s.ChangesOnly parts y) ∧
    (u.pb p PortReg.LINK_UP = true → Completes (.fabricLinkDown wait p) s fun y =>
      y.pb p PortReg.LINK_UP = false ∧ y.pb p PortReg.LINK_DOWN = true ∧ y.pb p PortReg.PRDY = false ∧ y.PinsShown ∧
      y.port p = { o with paused := [none, none], prdyRose := (y.port p).prdyRose } ∧
      u.PortKeeps y p [PortReg.LINK_UP l, PortReg.LINK_DOWN l] ∧ s.ChangesOnly parts y) ∧
    (u.tileUp t = true → (∃ c ∈ o.paused, ∃ n, c = some n ∧ n + cyclesOfMs 100 ≤ u.cycle) →
      Completes (.pfcStorm wait p) s fun y => y.pb p PortReg.PFC_STORM = true ∧ y.PinsShown ∧
        y.port p = { o with prdyRose := (y.port p).prdyRose } ∧ u.PortKeeps y p [PortReg.PFC_STORM l] ∧
        s.ChangesOnly parts y) ∧
    (u.portRuns p = true → o.rateAt + cyclesOfUs 50 ≤ u.cycle → exec (.rateRecovery wait p) s = .next (u.onPort p fun o => { o with
      rateAt := u.cycle
      ctrls := o.ctrls.map fun c => { c with queues := c.queues.map fun k => { k with
        rate := min (u.portLanes p * 50000) (k.rate + x.r (PortReg.RATE_STEP l)) } } })) ∧
    (∀ c, u.expiredCtrl p = some c → u.tileUp t = true → u.HostQuiet → c.kato ≠ 0 ∧ c.kaAt + cyclesOfMs c.kato ≤ u.cycle ∧
      Completes (.katoExpired wait p) s fun y => y.pb p PortReg.KATO_EXPIRED = true ∧
        (y.port p).ctrls = (o.ctrls.filter fun k => k.idx != c.idx) ∧ (y.port p).cpls = o.cpls ∧
        (y.port p).cmds = ((o.cmds.filter fun k => k.ctrl != c.idx || k.stage == .bound).map fun k =>
          if k.ctrl = c.idx then { k with orphan := true } else k) ∧
        (∀ i, i ≠ p → y.port i = { u.port i with prdyRose := (y.port i).prdyRose }) ∧
        (∀ j, ∀ e ∈ (y.tile j).locks, e ∈ (u.tile j).locks) ∧ s.ChangesOnly parts y) ∧
    ((∃ c ∈ o.ctrls, (u.apstDue c).isSome = true) → u.tileUp t = true → (o.ctrls.map (·.idx)).Nodup →
      Completes (.apstTransition wait p) s fun y => (y.port p).ctrls = (o.ctrls.map fun c => match u.apstDue c with
          | some ps => { c with ps := ps }
          | none => c) ∧
        (∀ c ∈ o.ctrls, ∀ ps, u.apstDue c = some ps → c.feature 0x0C = 1 ∧ u.hostIdle = true ∧
          ∃ e, c.apst[c.ps]? = some e ∧ e.1 = ps ∧ e.2 ≠ 0 ∧ u.pkg.idleSince + cyclesOfMs e.2 ≤ u.cycle) ∧
        (∀ v, y.packageState = some v → v ≠ u.pr u.mainWing HostReg.PS_REQ → y.pr u.mainWing HostReg.PS_REQ = v % 8 ∧
          y.pr u.mainWing HostReg.APST_ACTIVE = 1 ∧
          (v ≠ u.pr u.mainWing HostReg.PS_CURRENT → y.pr u.mainWing HostReg.PS_CHANGE = 1)) ∧
        y.pr u.mainWing HostReg.PS_CURRENT = u.pr u.mainWing HostReg.PS_CURRENT ∧
        u.PortKeeps y p [] ∧ s.ChangesOnly parts y)) ∧
  (∀ (s : State) (wait : Nat) (p : Fin 16) (f : FabricFrame), let u := s.pass wait; let t := portTile p
    let l := p.val % 2; let x := u.tile t; let o := u.port p
    let a := o.rx.getD 0 0 - f.taken.getD 0 0; let b := o.rx.getD 1 0 - f.taken.getD 1 0
    let c := o.rxLossy - f.taken.getD 2 0; let ll (k : Nat) : Nat := u.pv p (if k = 0 then PortReg.LL_PRI0 else PortReg.LL_PRI1)
    let got (P : State → Prop) : Prop := Completes (.fabricFrameReceive wait p f) s fun y => P y ∧ y.PinsShown ∧
      (∀ i, i ≠ p → y.port i = { u.port i with prdyRose := (y.port i).prdyRose }) ∧
      (y.port p).cmds = o.cmds ∧ (y.port p).cpls = o.cpls ∧ s.ChangesOnly [.time, .tiles, .ports, .atria, .pkg] y
    let bumped (f : Nat → Fld) (y : State) : Prop := y.pv p f = min (2 ^ (f l).width - 1) (u.pv p f + 1)
    let counts := [PortReg.XOFF_SENT l, PortReg.XOFF_RCVD l, PortReg.RX_DROP_COUNT l, PortReg.RX_DROP l, PortReg.CNP_SENT l]
    u.portRuns p = true → o.rx.length = 2 → o.pauseSent.length = 2 → o.paused.length = 2 → ll 0 ≠ ll 1 →
      (f.pause = none → f.bad = false → got fun y => let v := y.port p
        (f.pri = ll 0 → a + f.len ≤ 131072 → v.rx = [a + f.len, b] ∧ v.rxLossy = c ∧
          y.pv p PortReg.RX_DROP_COUNT = u.pv p PortReg.RX_DROP_COUNT) ∧
        (f.pri = ll 1 → b + f.len ≤ 131072 → v.rx = [a, b + f.len] ∧ v.rxLossy = c ∧
          y.pv p PortReg.RX_DROP_COUNT = u.pv p PortReg.RX_DROP_COUNT) ∧
        (f.pri = ll 0 → 131072 < a + f.len → v.rx = [a, b] ∧ v.rxLossy = c ∧ bumped PortReg.RX_DROP_COUNT y) ∧
        (f.pri = ll 1 → 131072 < b + f.len → v.rx = [a, b] ∧ v.rxLossy = c ∧ bumped PortReg.RX_DROP_COUNT y) ∧
        (f.pri ≠ ll 0 → f.pri ≠ ll 1 → c + f.len ≤ 65536 → v.rx = [a, b] ∧ v.rxLossy = c + f.len ∧
          y.pv p PortReg.RX_DROP_COUNT = u.pv p PortReg.RX_DROP_COUNT) ∧
        (f.pri ≠ ll 0 → f.pri ≠ ll 1 → 65536 < c + f.len → v.rx = [a, b] ∧ v.rxLossy = c ∧
          bumped PortReg.RX_DROP_COUNT y ∧ y.pb p PortReg.RX_DROP = true) ∧
        (∀ k : Fin 2, let free := 131072 - v.rx.getD k 0; let off := u.pv p PortReg.XOFF_THR * 1024
          let on_ := (max (u.pv p PortReg.XON_THR) (u.pv p PortReg.XOFF_THR + 1)) * 1024
          (u.pb p PortReg.PFC_EN = true → free < off → v.pauseSent.getD k false = true) ∧
          (on_ < free → v.pauseSent.getD k false = false) ∧
          (off ≤ free → free ≤ on_ → off ≤ 131072 - (if k = 0 then a else b) → 131072 - (if k = 0 then a else b) ≤ on_ →
            v.pauseSent.getD k false = o.pauseSent.getD k false) ∧
          (o.pauseSent.getD k false = false → v.pauseSent.getD k false = true → u.pb p PortReg.PFC_EN = true ∧
            min 65535 (u.pv p PortReg.XOFF_SENT + 1) ≤ y.pv p PortReg.XOFF_SENT)) ∧
        (f.ecn = true → bumped PortReg.CNP_SENT y) ∧
        (f.ecn = false → y.pv p PortReg.CNP_SENT = u.pv p PortReg.CNP_SENT) ∧
        (∀ e, f.cnp = some e → v.ctrls = o.ctrls.map fun c => if c.idx = e.1 then { c with
          queues := c.queues.map fun k => if k.qid = e.2 then { k with rate := k.rate / 2 } else k } else c) ∧
        (f.cnp = none → v.ctrls = o.ctrls) ∧ v.paused = o.paused ∧ u.PortKeeps y p counts) ∧
      (f.pause = none → f.bad = true → got fun y => let v := y.port p
        v.rx = [a, b] ∧ v.rxLossy = c ∧ v.ctrls = o.ctrls ∧ v.paused = o.paused ∧ bumped PortReg.RX_DROP_COUNT y ∧
        (y.tile t).r ProtReg.UE_COUNT = min (2 ^ ProtReg.UE_COUNT.width - 1) (x.r ProtReg.UE_COUNT + 1)) ∧
      (∀ k on, f.pause = some [(k, on)] → got fun y => let v := y.port p
        v.rx = [a, b] ∧ v.rxLossy = c ∧ v.ctrls = o.ctrls ∧ u.PortKeeps y p counts ∧
        (u.pb p PortReg.PFC_EN = false → v.paused = o.paused) ∧
        (k ≠ ll 0 → k ≠ ll 1 → v.paused = o.paused) ∧
        (∀ i : Fin 2, u.pb p PortReg.PFC_EN = true → k = ll i → v.paused.getD (1 - i).val none = o.paused.getD (1 - i).val none ∧
          (on = false → v.paused.getD i none = none) ∧
          (on = true → v.paused.getD i none = some ((o.paused.getD i none).getD u.cycle) ∧ bumped PortReg.XOFF_RCVD y)))) ∧
  (∀ (s : State) (q : Req) (v : Word), s.accessOf q (.pkg 0x5000) = .ok → let u := s.atPkg q 0x5000
    let w := u.copyOf q; let old := u.pr w HostReg.PS_CURRENT; let new := v.toNat / 16 % 8
    (u.allowed q = false → Completes (.psCurrentWrite q v) s fun y => y = u) ∧
    (u.allowed q = true → Completes (.psCurrentWrite q v) s fun y => y.pr w HostReg.PS_CURRENT = new ∧
      (u.split = false → ∀ k : Fin 2, y.pr k HostReg.PS_CURRENT = new) ∧ y.PinsShown ∧
      (∀ k, (u.atrium k).KeepsFields (y.atrium k) [HostReg.PS_CURRENT, HostReg.ALERT_SRC]) ∧
      (∀ j, (u.tile j).KeepsFields (y.tile j) (pinFields ++ if old = 4 ∧ new ≠ 4 then [ProtReg.ECS_COUNT] else [])) ∧
      (∀ p, y.port p = { u.port p with prdyRose := (y.port p).prdyRose }) ∧
      (old ≠ 4 → u.ChangesOnly [.tiles, .ports, .atria, .pkg] y) ∧
      u.ChangesOnly [.free, .tiles, .ports, .atria, .pkg] y))

/-- Fabrics and admin commands (R332, R333, R334, R335, R336, R337, R341, R353, R358, R359, R360, R363): what each answers with
its status, the controller it changes, and what firmware is asked. -/
def Obligations.NvmeAdmin : Prop :=
  (∀ (s : State) (wait : Nat) (p : Fin 16) (q : Capsule), let u := s.pass wait; let o := u.port p; let t := portTile p
    let x := u.tile t; let ok : Nat × Nat × Bool := (0, 0, false); let bad : Nat × Nat × Bool := (0, 2, true)
    let parts : List Part := [.time, .tiles, .ports, .atria, .pkg]
    ∀ c, u.ctrl p q.ctrl = some c → u.Fetches p q →
      let done (i : Instr) (dw0 dw1 : Nat) (data : List Byte) (c' : Ctrl) : Prop := Completes i s fun y =>
        (y.port p).cpls = Capsule.completion q ok dw0 dw1 data :: o.cpls ∧ u.FetchKeeps y p q [] c' ∧
        (y.port p).cmds = o.cmds ∧ s.ChangesOnly parts y
      let fails (i : Instr) (st : Nat × Nat × Bool) : Prop := Completes i s fun y =>
        (y.port p).cpls = Capsule.completion q st 0 0 [] :: o.cpls ∧
        u.FetchKeeps y p q [] (c.withError q.qid q.cid q.nsid q.slba st) ∧ (y.port p).cmds = o.cmds ∧
        (∀ j, (y.tile j).stack = (u.tile j).stack) ∧ s.ChangesOnly [.time, .tiles, .ports] y
      let asks (i : Instr) : Prop := (∀ k ∈ o.cmds, k.tag < o.nextTag) → Completes i s fun y =>
        (y.port p).cpls = o.cpls ∧ (y.port p).nextTag = o.nextTag + 1 ∧
        (y.port p).cmds = o.cmds ++ [{ HostCmd.reset with
          tag := o.nextTag, ctrl := q.ctrl, qid := 0, cid := q.cid, sqe := q.sqe.toNat, opcode := q.opcode, nsid := q.nsid
          addr := q.stage, stage := .admin, handle := x.nextHandle }] ∧
        u.FetchKeeps y p q [LockReg.HCR_WR, LockReg.HCR_POSTED] c ∧ (y.tile t).nextHandle = (x.nextHandle + 1) % 2 ^ 32 ∧
        (x.hcrWait = [] → let n := max 1 (x.r LockReg.HCR_SLOTS); let w := x.r LockReg.HCR_WR % n
          let a := x.r LockReg.HCR_BASE * 4096 + 128 * w
          let e := hcrEntry p (Capsule.toCmd q o.nextTag 0 0) x.nextHandle 3 0 0
          ((w + 1) % n = x.r LockReg.HCR_RD % n → (y.tile t).hcrWait = [e] ∧ (y.tile t).stack = x.stack) ∧
          ((w + 1) % n ≠ x.r LockReg.HCR_RD % n → (y.tile t).hcrWait = [] ∧ (y.tile t).r LockReg.HCR_WR = (w + 1) % n ∧
            (y.tile t).b LockReg.HCR_POSTED = true ∧ x.StackKept (y.tile t) a 128 ∧
            (inStaging a 128 = true → x.stack.ue = [] → x.stack.ce = [] →
              y.stackBytes t a 128 = e))) ∧
        (∀ j, j ≠ t → (y.tile j).stack = (u.tile j).stack) ∧ s.ChangesOnly [.time, .tiles, .ports] y
      (q.opcode = 0x7F → q.qid = 0 →
        (q.fctype = 4 → let i := Instr.propertyGet wait p q; let eight := q.bits 322 320 = 1; let four := q.bits 322 320 = 0
          (q.cdw 11 = 0 → eight → done i (propCap % 2 ^ 32) (propCap / 2 ^ 32) [] c) ∧
          (q.cdw 11 = 8 → four → done i 0x20000 0 [] c) ∧
          (q.cdw 11 = 0x14 → four → c.cc < 2 ^ 32 → done i c.cc 0 [] c) ∧
          (q.cdw 11 = 0x1C → four → done i (c.cc % 2 + if bitsOf c.cc 15 14 = 0 then 0 else 8) 0 [] c) ∧
          (q.cdw 11 ∉ [0, 8, 0x14, 0x1C] → fails i bad)) ∧
        (q.fctype = 0 → let i := Instr.propertySet wait p q
          (q.cdw 11 = 0x14 → q.bits 322 320 = 0 → done i 0 0 [] { c with cc := q.cdw 12 }) ∧
          (q.cdw 11 ≠ 0x14 → fails i bad)) ∧
        (q.fctype = 8 → fails (.disconnect wait p q) (1, 0x85, true))) ∧
      (q.opcode = 0x7F → q.qid ≠ 0 → (q.fctype = 4 → fails (.propertyGet wait p q) (1, 0x85, true)) ∧
        (q.fctype = 0 → fails (.propertySet wait p q) (1, 0x85, true)) ∧
        (q.fctype = 8 → Completes (.disconnect wait p q) s fun y =>
          (y.port p).cpls = Capsule.completion q ok 0 0 [] :: o.cpls ∧
          ((∀ k ∈ o.cmds, k.ctrl = q.ctrl → k.qid = q.qid → k.stage = .bound ∨ u.cmdTile p k = t) →
            u.FetchKeeps y p q [LockReg.LOCK_USED, LockReg.LOCK_PEAK] { c with
              queues := c.queues.filter fun k => k.qid != q.qid }) ∧ s.ChangesOnly parts y ∧
          (y.port p).cmds = (o.cmds.filter fun k => !(k.ctrl == q.ctrl && k.qid == q.qid) || k.stage == .bound).map (fun k =>
            if k.ctrl = q.ctrl ∧ k.qid = q.qid then { k with orphan := true } else k))) ∧
      (q.opcode = 0x7F → q.fctype ∉ [0, 1, 4, 8] → fails (.invalidOpcode wait p q) (0, 1, true)) ∧
      (q.qid ≠ 0 → q.opcode ∉ [0, 1, 2, 8, 0xC, 0x86, 0x7F] → fails (.invalidOpcode wait p q) (0, 1, true)) ∧
      (q.qid = 0 → q.opcode ∉ [2, 6, 8, 9, 0xA, 0xC, 0x10, 0x11, 0x18, 0x7F] →
        fails (.invalidOpcode wait p q) (0, 1, true)) ∧
      (q.qid = 0 → q.fuse ≠ 0 → (q.opcode = 2 → fails (.getLogPage wait p q) bad) ∧
        (q.opcode = 6 → fails (.identify wait p q) bad) ∧
        (q.opcode = 8 → fails (.nvmeAbort wait p q) bad) ∧ (q.opcode = 9 → fails (.setFeatures wait p q) bad) ∧
        (q.opcode = 0xA → fails (.getFeatures wait p q) bad) ∧ (q.opcode = 0x18 → fails (.keepAlive wait p q) bad)) ∧
      (q.bits 319 316 = 4 → q.sglOk = true) ∧
      (q.qid = 0 → q.fuse = 0 → q.sglOk = false → let st := (0, 0x11, true)
        (q.opcode = 2 → fails (.getLogPage wait p q) st) ∧ (q.opcode = 6 → fails (.identify wait p q) st) ∧
        (q.opcode = 9 → fails (.setFeatures wait p q) st) ∧ (q.opcode = 0xA → fails (.getFeatures wait p q) st) ∧
        (q.opcode = 0x11 → fails (.firmwareImageDownload wait p q) st)) ∧
      (q.qid = 0 → q.fuse = 0 → q.sglOk = true →
        (q.opcode = 0x18 → done (.keepAlive wait p q) 0 0 [] { c with kaAt := u.cycle }) ∧
        (q.opcode = 0x10 → asks (.firmwareCommit wait p q)) ∧ (q.opcode = 0x11 → asks (.firmwareImageDownload wait p q)) ∧
        (q.opcode = 0xC → let i := Instr.asynchronousEventRequest wait p q
          (∀ ev nsid l, c.held = (ev, nsid) :: l → done i (match ev with
            | 0 => 0x020101
            | 1 => 0x0C0302
            | n => 7 + (n - 1) * 256 + 0xC20000) nsid [] { c with held := l }) ∧
          (c.held = [] → c.aers.length < 8 → Completes i s fun y => (y.port p).cpls = o.cpls ∧ (y.port p).cmds = o.cmds ∧
            u.FetchKeeps y p q [] { c with aers := c.aers ++ [q.cid] } ∧ s.ChangesOnly parts y) ∧
          (c.held = [] → 8 ≤ c.aers.length → fails i (1, 5, true))) ∧
        (q.opcode = 8 → let i := Instr.nvmeAbort wait p q; let sqid := q.bits 335 320; let cid := q.bits 351 336
          let l := p.val % 2
          let mine (k : HostCmd) : Bool := k.ctrl == q.ctrl && k.qid == sqid && k.cid == cid && !k.orphan
          let gone (n m : Nat) : HostCpl := { Capsule.completion q (0, 7, false) 0 0 [] with qid := sqid, cid := cid }
          let missed : Prop := Completes i s fun y => (y.port p).cpls = Capsule.completion q ok 1 0 [] :: o.cpls ∧
            y.pv p PortReg.ABORT_MISSED = min 65535 (u.pv p PortReg.ABORT_MISSED + 1) ∧ (y.port p).cmds = o.cmds ∧
            u.FetchKeeps y p q [PortReg.ABORT_MISSED l] c ∧ s.ChangesOnly (.free :: parts) y
          (sqid = 0 → c.aers.contains cid = true → Completes i s fun y =>
            (y.port p).cpls = Capsule.completion q ok 0 0 [] :: gone 0 0 :: o.cpls ∧
            y.pv p PortReg.ABORT_DONE = min 65535 (u.pv p PortReg.ABORT_DONE + 1) ∧
            u.FetchKeeps y p q [PortReg.ABORT_DONE l]
              ({ c with aers := c.aers.filter (· != cid) }.withError sqid cid 0 0 (0, 7, false)) ∧
            s.ChangesOnly parts y) ∧
          (∀ k, (sqid ≠ 0 ∨ c.aers.contains cid = false) → o.cmds.find? mine = some k →
            let ended : Prop := Completes i s fun y =>
              (y.port p).cpls = Capsule.completion q ok 0 0 [] :: gone k.nsid k.lbn :: o.cpls ∧
              y.pv p PortReg.ABORT_DONE = min 65535 (u.pv p PortReg.ABORT_DONE + 1) ∧
              (y.port p).cmds = (o.cmds.filter fun m => m.tag != k.tag) ∧
              (∀ j, ∀ e ∈ (y.tile j).locks, e ∈ (u.tile j).locks ∧
                ¬ (j = u.cmdTile p k ∧ e.port = p.val ∧ e.tag = k.tag)) ∧
              (u.cmdTile p k = t → u.FetchKeeps y p q [PortReg.ABORT_DONE l, LockReg.LOCK_USED, LockReg.LOCK_PEAK]
                (c.withError sqid cid k.nsid k.lbn (0, 7, false))) ∧ s.ChangesOnly (.free :: parts) y
            (k.stage ∉ [.bound, .missing, .transferring] → ended) ∧
            (k.stage ∈ [.bound, .missing] ∨ (k.stage = .transferring ∧ k.missing ≠ []) → missed) ∧
            (k.stage = .transferring → k.missing = [] → ended ∨ missed)) ∧
          ((sqid ≠ 0 ∨ c.aers.contains cid = false) → o.cmds.find? mine = none → missed)) ∧
        (q.opcode = 9 → let i := Instr.setFeatures wait p q; let fid := q.bits 327 320; let v := q.cdw 11
          let put (k v : Nat) : Ctrl := { c with features := insertKey k v c.features }
          let known := fid ∈ [1, 2, 4, 5, 7, 0xB, 0xC, 0xF, 0x84, 0xC0]
          (¬ known → fails i bad) ∧ (known → bitOf (q.cdw 10) 31 = true → fails i (1, 0x0D, true)) ∧
          (bitOf (q.cdw 10) 31 = false →
            (fid ∈ [7, 0x84] → fails i (1, 0x0E, true)) ∧
            (fid = 1 → done i 0 0 [] c ∧ Completes i s fun y => (y.port p).ab = v % 8 ∧
              (y.port p).weights = [v / 2 ^ 24 % 256, v / 2 ^ 16 % 256, v / 2 ^ 8 % 256]) ∧
            (fid = 2 → 4 < v % 32 → fails i bad) ∧
            (fid = 2 → v % 32 ≤ 4 → let m := v % 32
              done i 0 0 [] { c with ps := m, psOper := if m ≤ 2 then m else c.psOper } ∧ Completes i s fun y =>
                ∀ k, y.packageState = some k → k < 8 → y.pr y.mainWing HostReg.PS_REQ = k) ∧
            (fid = 4 → (v / 2 ^ 16 % 16 ≠ 0 ∨ 1 < v / 2 ^ 20 % 4) → fails i bad) ∧
            (fid = 4 → v / 2 ^ 16 % 16 = 0 → v / 2 ^ 20 % 4 ≤ 1 →
              done i 0 0 [] (put (4 + 256 * (v / 2 ^ 20 % 4)) (v % 65536))) ∧
            (fid = 5 → v % 65536 ≠ 0 → fails i bad) ∧ (fid = 5 → v % 65536 = 0 → done i 0 0 [] (put 5 v)) ∧
            (fid = 0xB → done i 0 0 [] (put 0xB v)) ∧
            (fid = 0xF → done i 0 0 [] { c with kato := (v + 99) / 100 * 100, kaAt := u.cycle }) ∧
            (fid = 0xC →
              let tab := (List.range 32).map fun k => (infoField q.data (8 * k) 1 / 8, infoField q.data (8 * k + 1) 3)
              ((tab.any fun e => e.2 != 0 && e.1 != 3 && e.1 != 4) = true → fails i bad) ∧
              ((tab.any fun e => e.2 != 0 && e.1 != 3 && e.1 != 4) = false →
                done i 0 0 [] { put 0xC (v % 2) with apst := tab })) ∧
            (fid = 0xC0 → let id := v % 65536
              ((id = 0 ∨ (c.queue id).isNone) → fails i bad) ∧
              (id ≠ 0 → (c.queue id).isSome → done i 0 0 [] { c with
                queues := c.queues.map fun k => if k.qid = id then { k with cls := v / 65536 % 4 } else k })))) ∧
        (q.opcode = 0xA → let i := Instr.getFeatures wait p q; let fid := q.bits 327 320; let v := q.cdw 11
          let give (d : Nat) : Prop := done i d 0 [] c
          (fid ∉ [1, 2, 4, 5, 7, 0xB, 0xC, 0xF, 0x84, 0xC0] → fails i bad) ∧
          (fid = 1 → give (o.ab + o.weights.getD 2 0 * 2 ^ 8 + o.weights.getD 1 0 * 2 ^ 16 + o.weights.getD 0 0 * 2 ^ 24)) ∧
          (fid = 2 → give c.ps) ∧ (fid = 5 → give (c.feature 5)) ∧ (fid = 0xB → give (c.feature 0xB)) ∧
          (fid = 0xF → give c.kato) ∧
          (fid = 7 → give (31 + 31 * 65536)) ∧
          (fid = 4 → v / 2 ^ 16 % 16 = 0 → v / 2 ^ 20 % 4 = 1 → give (c.feature 0x104)) ∧
          (fid = 4 → (v / 2 ^ 16 % 16 ≠ 0 ∨ 1 < v / 2 ^ 20 % 4) → fails i bad) ∧
          (fid = 0xC → done i (c.feature 0xC) 0
            (padTo 256 (c.apst.flatMap fun e => bytesOf 1 (e.1 * 8) ++ bytesOf 3 e.2 ++ bytesOf 4 0)) c) ∧
          (fid = 0x84 → u.nsValid q.nsid = true → give (if u.protectedAt p (nsSet q.nsid) then 1 else 0)) ∧
          (fid = 0x84 → u.nsValid q.nsid = false → fails i (0, 0xB, true)) ∧
          (∀ k, fid = 0xC0 → c.queue (v % 65536) = some k → give k.cls) ∧
          (fid = 0xC0 → c.queue (v % 65536) = none → fails i bad)) ∧
        (q.opcode = 6 → let i := Instr.identify wait p q; let cns := q.bits 327 320
          (cns ∈ [1, 0x1C] → asks i) ∧ (cns ∉ [0, 1, 2, 3, 0x1C] → fails i bad) ∧
          (cns = 2 → done i 0 0 (padTo 4096 (((List.range 8).filter fun n =>
            decide (q.nsid < n + 1) && u.nsValid (n + 1)).flatMap fun n => bytesOf 4 (n + 1))) c) ∧
          (cns = 0 → (q.nsid = 0 ∨ 8 < q.nsid) → fails i (0, 0xB, true)) ∧
          (cns = 0 → u.nsValid q.nsid = true → asks i) ∧
          (cns = 0 → u.nsValid q.nsid = false → 1 ≤ q.nsid → q.nsid ≤ 8 → done i 0 0 (List.replicate 4096 0) c) ∧
          (cns = 3 → u.nsValid q.nsid = true → asks i) ∧ (cns = 3 → u.nsValid q.nsid = false → fails i (0, 0xB, true))) ∧
        (q.opcode = 2 → let i := Instr.getLogPage wait p q; let lid := q.bits 327 320
          let len := (q.bits 351 336 + q.bits 367 352 * 65536 + 1) * 4; let off := q.bits 447 384
          let give (page : List Byte) : Prop := done i 0 0 ((page.drop off).take len) c
          let known := lid ∈ [1, 2, 3, 5, 0xC, 0x70, 0xC0, 0xC1, 0xC2]; let whole := q.nsid ∈ [0, 0xFFFFFFFF]
          (¬ known → fails i (1, 9, true)) ∧ (known → 2 ^ 21 < len → fails i bad) ∧
          (known → len ≤ 2 ^ 21 →
            (lid = 1 → give c.errorPage) ∧ (lid = 2 → whole → give (u.smartPage c 0)) ∧
            (lid = 2 → ¬ whole → u.nsValid q.nsid = true → give (u.smartPage c q.nsid)) ∧
            (lid = 2 → ¬ whole → u.nsValid q.nsid = false → fails i (0, 0xB, true)) ∧ (lid = 3 → asks i) ∧
            (lid = 5 → give effectsPage) ∧
            (lid = 0xC → give (c.anaPage (bitOf (q.cdw 10) 8))) ∧ (lid = 0x70 → c.idx = 16 → give u.discoveryPage) ∧
            (lid = 0x70 → c.idx ≠ 16 → fails i (1, 9, true)) ∧
            (lid = 0xC2 → u.nsValid q.nsid = true → give (u.setPage (nsSet q.nsid))) ∧
            (lid ∈ [0xC0, 0xC2] → u.nsValid q.nsid = false → fails i (0, 0xB, true)) ∧
            (lid = 0xC0 → u.nsValid q.nsid = true → bitOf (q.cdw 14) 23 = false → fails i bad) ∧
            (lid = 0xC0 → u.nsValid q.nsid = true → bitOf (q.cdw 14) 23 = true →
              done i 0 0 (u.historyPage (nsSet q.nsid) off len) c))))) ∧
  (∀ (s : State) (wait : Nat) (p : Fin 16) (q : Capsule), let u := s.pass wait; let o := u.port p
    let i := Instr.connect wait p q
    let r : Capsule := { q with qid := q.bits 351 336 }; let size := q.bits 367 352
    let fails (st : Nat × Nat × Bool) : Prop := Completes i s fun y => (y.port p).cpls = Capsule.completion r st 0 0 [] :: o.cpls ∧
      y = u.onPort p fun _ => { o with cpls := (y.port p).cpls }
    q.opcode = 0x7F → q.fctype = 1 → u.portRuns p = true →
      (u.pb p PortReg.PRDY = false → fails (1, 0x81, false)) ∧
      (u.pb p PortReg.PRDY = true →
        (q.bits 335 320 ≠ 0 → fails (1, 0x80, true)) ∧
        (q.bits 335 320 = 0 → 1023 < size → fails (1, 0x82, true)) ∧
        (q.bits 335 320 = 0 → size ≤ 1023 → r.qid = 0 → infoField q.data 16 2 ≠ 0xFFFF → fails (1, 0x82, true)) ∧
        (q.bits 335 320 = 0 → size ≤ 1023 → r.qid = 0 → infoField q.data 16 2 = 0xFFFF →
          let disc := (q.data.drop 256).take 37 = discoveryNqn
          let made (n : Nat) : Prop := Completes i s fun y =>
            let id := if n < 16 then 16 * p.val + n else 256 + p.val
            (y.port p).cpls = { Capsule.completion r (0, 0, false) id 0 [] with ctrl := n } :: o.cpls ∧
            (y.ctrl p n).map (·.queues) = some [{ Queue.reset with qid := 0, size := size + 1, cls := 0 }] ∧
            (y.ctrl p n).map (·.kato) = some ((q.bits 415 384 + 99) / 100 * 100) ∧
            (y.port p).ctrls.filter (·.idx != n) = o.ctrls.filter (·.idx != n) ∧ y.PinsShown ∧
            u.PortKeeps y p [PortReg.CMD_COUNT (p.val % 2)] ∧ s.ChangesOnly [.time, .tiles, .ports, .atria, .pkg] y
          (disc → u.ctrl p 16 = none → made 16) ∧
          (¬ disc → ∀ n : Fin 16, u.ctrl p n = none → (∀ k : Fin 16, k < n → u.ctrl p k ≠ none) → made n) ∧
          (disc → u.ctrl p 16 ≠ none → fails (1, 0x81, false)) ∧
          (¬ disc → (∀ n : Fin 16, u.ctrl p n ≠ none) → fails (1, 0x81, false))) ∧
        (q.bits 335 320 = 0 → size ≤ 1023 → r.qid ≠ 0 → let id := infoField q.data 16 2; let n := id - 16 * p.val
          (∀ c, 16 * p.val ≤ id → n < 16 → u.ctrl p n = some c → r.qid ≤ 32 → c.queue r.qid = none → size ≠ 0 →
            Completes i s fun y => (y.port p).cpls = { Capsule.completion r (0, 0, false) id 0 [] with ctrl := n } :: o.cpls ∧
              (∃ d, y.ctrl p n = some d ∧ d.queue r.qid = some { Queue.reset with qid := r.qid, size := size + 1 } ∧
                d.queues.filter (·.qid != r.qid) = c.queues.filter (·.qid != r.qid) ∧ d = { c with queues := d.queues }) ∧
              (y.port p).ctrls.filter (·.idx != n) = o.ctrls.filter (·.idx != n) ∧ s.ChangesOnly [.time, .tiles, .ports] y) ∧
          ((id < 16 * p.val ∨ 16 ≤ n ∨ u.ctrl p n = none ∨ 32 < r.qid ∨ size = 0) → fails (1, 0x82, true)))))

/-- I/O commands of the hosts (R337, R339, R340, R342, R343, R344, R345, R346, R349, R350, R352, R355): checks at fetch and range
locks, grants, reads and writes, the answers of firmware, and completions. -/
def Obligations.NvmeIo : Prop :=
  (∀ (s : State) (wait : Nat) (p : Fin 16) (q : Capsule), let u := s.pass wait; let o := u.port p; let t := portTile p
    let n := nsSet q.nsid; let home := (u.aset n).cfg.homeTile; let x := u.tile home; let ok : Nat × Nat × Bool := (0, 0, false)
    let parts : List Part := [.time, .tiles, .ports, .atria, .pkg]
    let rows := [(Instr.flush wait p q, 0), (Instr.nvmeWrite wait p q, 1), (Instr.nvmeRead wait p q, 2),
      (Instr.writeZeroes wait p q, 8), (Instr.nvmeVerify wait p q, 0xC), (Instr.readVersion wait p q, 0x86)]
    let known := u.nsValid q.nsid = true; let ana := u.anaState p n; let read := q.opcode = 2 ∨ q.opcode = 0xC
    let inside := q.slba + q.blocks ≤ u.nsSize n; let checked (st : Nat × Nat × Bool) : Prop := u.ioCheck p q = some st
    (¬ known → checked (0, 0xB, true)) ∧ (known → ana = 3 → checked (3, 2, false)) ∧ (known → ana = 15 → checked (3, 3, false)) ∧
    (known → ana ∉ [3, 15] → (q.fuse ≠ 0 → checked (0, 2, true)) ∧
      (q.opcode ∈ [1, 2, 0x86] → 512 < q.blocks → checked (0, 2, true)) ∧
      (q.fuse = 0 → q.opcode = 1 ∨ read → q.blocks ≤ 512 → q.sglOk = false → checked (0, 0x11, true)) ∧
      (q.fuse = 0 → q.opcode = 1 ∨ read → q.blocks ≤ 512 → q.sglOk = true →
        (¬ inside → checked (0, 0x80, true)) ∧
        (inside → q.opcode = 1 → u.protectedAt p n = true → checked (0, 0x20, true)) ∧
        (inside → read ∨ u.protectedAt p n = false →
          u.ioCheck p q = if u.reaches t home then none else some (0, 0x82, false)))) ∧
    (∀ c, u.ctrl p q.ctrl = some c → u.Fetches p q → q.qid ≠ 0 → let woken := if 3 ≤ c.ps then { c with ps := c.psOper } else c
      let count := if q.opcode = 0 then 0 else q.blocks; let lbn := if q.opcode = 0 then 0 else q.slba
      let cmd : HostCmd := { HostCmd.reset with
        tag := o.nextTag, ctrl := q.ctrl, qid := q.qid, cid := q.cid, sqe := q.sqe.toNat, opcode := q.opcode, nsid := q.nsid
        lbn := lbn, count := count, addr := q.stage }
      let entry : LockEntry := ⟨p.val, o.nextTag, q.nsid, lbn, count, false, q.opcode = 1 || q.opcode = 8⟩
      let fs := if home = t then [LockReg.LOCK_USED, LockReg.LOCK_PEAK, LockReg.LOCK_FULL] else []
      ∀ r ∈ rows, q.opcode = r.2 →
        (∀ st, u.ioCheck p q = some st → Completes r.1 s fun y =>
          (y.port p).cpls = Capsule.completion q st 0 0 [] :: o.cpls ∧ y.pkg.idleSince = u.cycle ∧
          u.FetchKeeps y p q [] (woken.withError q.qid q.cid q.nsid q.slba st) ∧ (y.port p).cmds = o.cmds ∧
          (∀ j, (y.tile j).stack = (u.tile j).stack ∧ (y.tile j).locks = (u.tile j).locks) ∧ s.ChangesOnly parts y) ∧
        (u.ioCheck p q = none → x.lockMem.flips = [] → x.lockStop = false → (∀ k ∈ o.cmds, k.tag < o.nextTag) →
          (∀ e ∈ x.locks, e.port = p.val → e.tag < o.nextTag) → Completes r.1 s fun y => let z := y.tile home
            let writes := x.locks.any fun e => e.write && e.nsid == q.nsid
            (x.locks.length < 4096 → (q.opcode ≠ 0 ∨ writes = true) → z.locks = x.locks ++ [entry] ∧ (y.port p).cpls = o.cpls ∧
              (y.port p).cmds = o.cmds ++ [{ cmd with stage := .locked }] ∧ z.r LockReg.LOCK_USED = x.locks.length + 1 ∧
              (x.locks.length = 4095 → z.b LockReg.LOCK_FULL = true)) ∧
            (x.locks.length < 4096 → q.opcode = 0 → writes = false → z.locks = x.locks ∧ (y.port p).cmds = o.cmds ∧
              (y.port p).cpls = Capsule.completion q ok 0 0 [] :: o.cpls) ∧
            (4096 ≤ x.locks.length → z.locks = x.locks ∧ z.b LockReg.LOCK_FULL = true ∧ (y.port p).cpls = o.cpls ∧
              (y.port p).cmds = o.cmds ++ [{ cmd with stage := .fetched }]) ∧
            y.pkg.idleSince = u.cycle ∧ (y.port p).nextTag = o.nextTag + 1 ∧
            (home = t → q.opcode ∉ [1, 8] → u.FetchKeeps y p q fs woken) ∧
            (q.opcode ∉ [1, 8] → ∀ j, (y.tile j).stack = (u.tile j).stack) ∧ (∀ j, j ≠ home → (y.tile j).locks = (u.tile j).locks) ∧
            (q.opcode ∈ [1, 8] → (u.tile t).stack.ue = [] → (u.tile t).stack.ce = [] → inStaging (q.stage * 4096) (4096 * count) = true →
              y.stackBytes t (q.stage * 4096) (4096 * count) =
                (if q.opcode = 1 then padTo (4096 * count) q.data else List.replicate (4096 * count) 0) ∧
              (u.tile t).StackKept (y.tile t) (q.stage * 4096) (4096 * count)) ∧
            (∀ j, j ≠ t → (y.tile j).stack = (u.tile j).stack) ∧ s.ChangesOnly parts y))) ∧
  (∀ (s : State) (wait : Nat) (p : Fin 16), let u := s.pass wait; let o := u.port p; let t := portTile p
    let parts : List Part := [.time, .tiles, .ports, .atria, .pkg]
    u.tileUp t = true → u.HostQuiet → (o.cmds.map (·.tag)).Nodup →
      let routes := (List.range 3).flatMap fun k => [LinkReg.REROUTED k, LinkReg.ROUTE_FAIL k]
      let ended (i : Instr) (c : HostCmd) (st : Nat × Nat × Bool) (data : List Byte) : Prop := Completes i s fun y =>
        (y.port p).cmds = (o.cmds.filter fun k => k.tag != c.tag) ∧
        (y.port p).cpls = (if c.orphan then [] else [⟨c.ctrl, c.qid, c.cid, st.1, st.2.1, st.2.2, 0, 0, data⟩]) ++ o.cpls ∧
        (y.tile (u.cmdTile p c)).locks = ((u.tile (u.cmdTile p c)).locks.filter fun e => !(e.port == p.val && e.tag == c.tag)) ∧
        (∀ j, j ≠ u.cmdTile p c → (y.tile j).locks = (u.tile j).locks) ∧ (∀ j, (y.tile j).stack = (u.tile j).stack) ∧
        (∀ j, (u.tile j).KeepsFields (y.tile j) (LockReg.LOCK_USED :: LockReg.LOCK_PEAK :: routes)) ∧
        (c.qid ≠ 0 → y.pkg.idleSince = u.cycle) ∧ (∀ i, i ≠ p → y.port i = u.port i) ∧ s.ChangesOnly [.time, .tiles, .ports, .pkg] y
      let moved (y : State) (c : HostCmd) (c' : HostCmd) : Prop := (y.port p).cpls = o.cpls ∧
        (y.port p).cmds = o.cmds.map (fun k => if k.tag = c.tag then c' else k) ∧ (∀ i, i ≠ p → y.port i = u.port i) ∧
        s.ChangesOnly [.time, .tiles, .ports] y
      let posts (y : State) (c : HostCmd) (kind : Nat) : Prop := let j := u.cmdTile p c; let x := u.tile j
        (y.tile j).nextHandle = (x.nextHandle + 1) % 2 ^ 32 ∧ (x.hcrWait = [] →
          let m := max 1 (x.r LockReg.HCR_SLOTS); let w := x.r LockReg.HCR_WR % m; let a := x.r LockReg.HCR_BASE * 4096 + 128 * w
          let e := bytesOf 64 c.sqe ++ bytesOf 2 p.val ++ bytesOf 2 (ctrlId p c.ctrl) ++ bytesOf 4 x.nextHandle ++ [BitVec.ofNat 8 kind] ++
            List.replicate 3 0 ++ bytesOf 4 c.addr ++ bytesOf 4 c.count ++ List.replicate 44 0
          ((w + 1) % m = x.r LockReg.HCR_RD % m → (y.tile j).hcrWait = [e] ∧ (y.tile j).r LockReg.HCR_WR = x.r LockReg.HCR_WR) ∧
          ((w + 1) % m ≠ x.r LockReg.HCR_RD % m → (y.tile j).hcrWait = [] ∧ (y.tile j).r LockReg.HCR_WR = (w + 1) % m ∧
            (y.tile j).b LockReg.HCR_POSTED = true ∧ (kind = 1 → inStaging a 128 = true → x.stack.ue = [] → x.stack.ce = [] →
              y.stackBytes j a 128 = e))) ∧ (y.tile j).KeepsFields x (LockReg.HCR_WR :: LockReg.HCR_POSTED :: routes)
      (∀ c, u.firstCmd p (u.canGrant p) = some c → let i := Instr.lockGrant wait p; let j := u.cmdTile p c
        (u.reaches t j = false → ended i c (0, 0x82, false) []) ∧
        (u.reaches t j = true → let a := u.aset (nsSet c.nsid); let k := u.ctrl p c.ctrl
          let limit := if c.opcode = 0x86 then some (bitsOf c.sqe 487 448) else none
          let dulbe := (k.map fun k => bitOf (k.feature 5) 16) = some true
          Completes i s (fun y => (y.tile j).locks = ((u.tile j).locks.map fun e =>
            if e.port = p.val ∧ e.tag = c.tag then { e with granted := true } else e)) ∧
          (c.opcode ∈ [1, 8] → Completes i s fun y => moved y c { c with stage := .granted } ∧
            (∀ i, (y.tile i).stack = (u.tile i).stack ∧ (u.tile i).KeepsFields (y.tile i) routes) ∧
            ∀ i, i ≠ j → (y.tile i).locks = (u.tile i).locks) ∧
          (c.opcode ∉ [1, 8] → (∀ k ∈ List.range c.count, a.look limit (c.lbn + k) = .unwritten) → ¬ dulbe →
            Completes i s fun y => moved y c { c with
              stage := .transferring, got := List.replicate c.count (List.replicate 4096 0), missing := [], fail := none }) ∧
          (c.opcode ∉ [1, 8] → c.count = 1 → a.look limit c.lbn = .unwritten → dulbe → Completes i s fun y => moved y c
            { c with stage := .transferring, got := [], missing := [], fail := some (2, 0x87, false) }) ∧
          (c.opcode ∉ [1, 8] → c.count = 1 → a.look limit c.lbn = .dropped → Completes i s fun y => moved y c
            { c with stage := .transferring, got := [], missing := [], fail := some (0, 0xC0, true) }) ∧
          (∀ w m n, c.opcode ∉ [1, 8] → c.count = 1 → a.look limit c.lbn = .at w m n →
            let lost := Config.lostMark (nsSet c.nsid).val c.lbn w u.cycle
            (lost = true → Completes i s fun y => moved y c
              { c with stage := .transferring, got := [], missing := [], fail := some (2, 0x81, true) }) ∧
            (lost = false → (u.indexed (nsSet c.nsid) w m n).1 = none → (u.tile j).stack.ue = [] →
                (u.tile j).stack.ce = [] → Completes i s fun y => moved y c { c with
                stage := .missing, got := [[]], missing := [0], fail := none, handle := (u.tile j).nextHandle } ∧ posts y c 2) ∧
            (∀ g b, lost = false → (u.indexed (nsSet c.nsid) w m n).1 = some (g, b) → let z := toTile g
              ((u.tileUp z = false ∨ u.reaches t z = false) → Completes i s fun y => moved y c
                { c with stage := .transferring, got := [], missing := [], fail := some (0, 0x82, false) }) ∧
              (u.tileUp z = true → u.reaches t z = true → (u.tile z).stack.ue = [] → (u.tile z).stack.ce = [] →
                (u.tile j).stack.ce = [] → b < stagingBlocks → let e := (u.tile z).stack.shadow b
                let good := e.poison = false ∧ e.stamped = true ∧ crc32c ((u.tile z).stack.readBytes (4096 * b) 4096) = e.crc
                (good → Completes i s fun y => moved y c { c with
                  stage := .transferring, got := [u.stackBytes z (b * 4096) 4096], missing := [], fail := none }) ∧
                (¬ good → Completes i s fun y => moved y c
                  { c with stage := .transferring, got := [], missing := [], fail := some (2, 0x81, true) })))))) ∧
      (∀ c, u.firstCmd p (fun c => (c.opcode == 1 || c.opcode == 8) && c.stage == .granted) = some c →
        let i := Instr.writeDataStaged wait p; let j := u.cmdTile p c
        (u.reaches t j = false → ended i c (0, 0x82, false) []) ∧
        (u.reaches t j = true → Completes i s fun y =>
          moved y c { c with stage := .posted, handle := (u.tile j).nextHandle } ∧ posts y c 1)) ∧
      (∀ c, u.firstCmd p (u.writeResolved p) = some c → let n := nsSet c.nsid; let i := Instr.writeResolved wait p
        let lots := (List.range (c.wseqHi + 1 - c.wseqLo)).map fun k => u.resolution n (c.wseqLo + k)
        c.stage = .bound ∧ none ∉ lots ∧ (some false ∉ lots → ended i c (0, 0, false) []) ∧
        (some false ∈ lots → ended i c (2, 0x80, false) [])) ∧
      (∀ c, u.firstCmd p (fun c => c.stage == .transferring) = some c → let i := Instr.readTransferDone wait p
        (∀ st, c.fail = some st → ended i c st []) ∧
        (c.fail = none → ended i c (0, 0, false) (if c.opcode = 0xC then [] else c.got.flatten)))) ∧
  (∀ (s : State) (q : Req) (t : Fin 8) (v : Word), s.accessOf q (.tile t 0x32001C) = .ok → let u := s.atTile q t 0x32001C
    let x := u.tile t; let h := x.r LockReg.RESP_HANDLE
    let lo := x.r LockReg.WSEQ_LO_L + v.toNat % 256 * 2 ^ 32; let hi := x.r LockReg.WSEQ_HI_L + v.toNat / 256 % 256 * 2 ^ 32
    let word := [LockReg.WSEQ_LO_H, LockReg.WSEQ_HI_H, LockReg.ACTION]
    let routes := (List.range 3).flatMap fun k => [LinkReg.REROUTED k, LinkReg.ROUTE_FAIL k]
    let bad (i : Instr) : Prop := Completes i s fun y => (y.tile t).b LockReg.FW_RESP_BAD = true ∧ y.ports = u.ports ∧
      x.KeepsFields (y.tile t) (word ++ LockReg.FW_RESP_BAD :: routes) ∧ (∀ j, j ≠ t → y.tile j = u.tile j) ∧ u.ChangesOnly [.tiles] y
    u.HostQuiet → (u.byHandle t h = none → ∀ i ∈ [Instr.bind q t v, .dataReady q t v, .failEntry q t v, .doneEntry q t v], bad i) ∧
      (∀ p c, u.byHandle t h = some (p, c) → ((u.port p).cmds.map (·.tag)).Nodup → let o := u.port p
        let moved (i : Instr) (c' : HostCmd) : Prop := Completes i s fun y => (y.port p).cpls = o.cpls ∧
          (y.port p).cmds = o.cmds.map (fun k => if k.tag = c.tag then c' else k) ∧ (∀ i, i ≠ p → y.port i = u.port i) ∧
          (y.tile t).b LockReg.FW_RESP_BAD = x.b LockReg.FW_RESP_BAD ∧ u.ChangesOnly [.tiles, .ports] y
        let ended (i : Instr) (st : Nat × Nat × Bool) (dw0 : Nat) (data : List Byte) : Prop := Completes i s fun y =>
          (y.port p).cmds = (o.cmds.filter fun k => k.tag != c.tag) ∧
          (y.port p).cpls = (if c.orphan then [] else [⟨c.ctrl, c.qid, c.cid, st.1, st.2.1, st.2.2, dw0, 0, data⟩]) ++ o.cpls ∧
          (∀ j, (y.tile j).locks = ((u.tile j).locks.filter fun e => !(e.port == p.val && e.tag == c.tag)) ∨ j ≠ t) ∧
          (∀ i, i ≠ p → y.port i = u.port i) ∧ (y.tile t).b LockReg.FW_RESP_BAD = x.b LockReg.FW_RESP_BAD ∧
          u.ChangesOnly [.tiles, .ports, .pkg] y
        (u.reaches t (portTile p) = false → ∀ i ∈ [Instr.bind q t v, .dataReady q t v, .failEntry q t v, .doneEntry q t v], bad i) ∧
        (u.reaches t (portTile p) = true →
        (c.stage = .posted → lo ≠ 0 → lo ≤ hi → hi < u.wseqNext (nsSet c.nsid) →
          moved (.bind q t v) { c with stage := .bound, wseqLo := lo, wseqHi := hi }) ∧
        ((c.stage ≠ .posted ∨ lo = 0 ∨ hi < lo ∨ u.wseqNext (nsSet c.nsid) ≤ hi) → bad (.bind q t v)) ∧
        (c.stage ≠ .missing → bad (.dataReady q t v)) ∧ (c.stage = .posted → bad (.failEntry q t v)) ∧
        (c.stage ≠ .admin → bad (.doneEntry q t v)) ∧
        (∀ k, c.stage = .missing → c.missing = [k] → let b := x.r LockReg.RESP_ADDR; let e := x.stack.shadow b
          (u.tileUp t = false ∨ u.reaches (portTile p) t = false →
            moved (.dataReady q t v) { c with stage := .transferring, fail := some (0, 0x82, false) }) ∧
          (u.tileUp t = true → u.reaches (portTile p) t = true → b < stagingBlocks → x.stack.ue = [] → x.stack.ce = [] →
            (e.poison = false → e.stamped = true → crc32c (x.stack.readBytes (4096 * b) 4096) = e.crc →
              moved (.dataReady q t v) { c with
                stage := .transferring, got := c.got.set k (u.stackBytes t (b * 4096) 4096), fail := none }) ∧
            (e.poison = true ∨ e.stamped = false → moved (.dataReady q t v) { c with
              stage := .transferring, fail := some (2, 0x81, true) }))) ∧
        (c.stage ≠ .posted → let r := x.r LockReg.RESP_STATUS
          ended (.failEntry q t v) (bitsOf r 10 8, r % 256, bitOf r 15) 0 []) ∧
        (c.stage = .admin → ended (.doneEntry q t v) (0, 0, false) (x.r LockReg.FW_DW0) (u.firmwareData p c)))))

/-- Memory protection, DMA and register accesses (R4, R5, R31, R378, R379, R383, R384, R385, R386, R387, R505, R510): the buckets and
the log, repairs, the DMA channels, plain registers, stray accesses, the table-access window and values in two words. -/
def Obligations.MemoryAndRegisters : Prop :=
  (∀ (s : State) (wait : Nat) (t : Fin 8), let u := s.pass wait; let x := u.tile t
    x.inReset = false → x.timeOn = true → x.leakMs < u.ns t / 1000000 → CompletesTile (.ceLeak wait t) s u t fun y =>
      let n := u.ns t / 1000000 - x.leakMs
      y.r ProtReg.B_CACHE = x.r ProtReg.B_CACHE - n * x.r (ProtReg.CE_LEAK 0) ∧
      y.r ProtReg.B_SRAM = x.r ProtReg.B_SRAM - n * x.r (ProtReg.CE_LEAK 1) ∧
      y.r ProtReg.B_HBM = x.r ProtReg.B_HBM - n * x.r (ProtReg.CE_LEAK 2) ∧
      x.KeepsFields y [ProtReg.B_CACHE, ProtReg.B_SRAM, ProtReg.B_HBM] ∧
      y = { x with regs := y.regs, leakMs := u.ns t / 1000000 }) ∧
  (∀ (s : State) (q : Req) (t c : Fin 8) (v : Word), let at_ (off : Nat) : State := s.atTile q t off; let n := v.toNat
    let ok (off : Nat) : Prop := s.accessOf q (.tile t off) = .ok
    (ok 0x100004 → let u := at_ 0x100004; let x := u.tile t; CompletesTile (.ceOvfClear q t v) s u t fun y =>
      (∀ e ∈ [(0, ProtReg.CE_OVF_CACHE, ProtReg.B_CACHE), (1, ProtReg.CE_OVF_SRAM, ProtReg.B_SRAM),
        (2, ProtReg.CE_OVF_HBM, ProtReg.B_HBM)], y.b e.2.1 = (x.b e.2.1 && !bitOf n e.1) ∧
          y.r e.2.2 = if bitOf n e.1 then 0 else x.r e.2.2) ∧
      (∀ e ∈ [(3, ProtReg.MEM_RANGE), (4, ProtReg.POISONED), (5, ProtReg.REPAIR_REFUSED), (6, ProtReg.REPAIR_CONFLICT)],
        y.b e.2 = (x.b e.2 && !bitOf n e.1)) ∧
      x.KeepsFields y [ProtReg.CE_OVF_CACHE, ProtReg.CE_OVF_SRAM, ProtReg.CE_OVF_HBM, ProtReg.B_CACHE, ProtReg.B_SRAM,
        ProtReg.B_HBM, ProtReg.MEM_RANGE, ProtReg.POISONED, ProtReg.REPAIR_REFUSED, ProtReg.REPAIR_CONFLICT] ∧
      y = { x with regs := y.regs }) ∧
    (ok 0x100034 → let u := at_ 0x100034; let x := u.tile t; CompletesTile (.logClr q t v) s u t fun y =>
      (∀ i : Fin 16, bitOf (y.r ProtReg.LOG_VALID) i = (bitOf (x.r ProtReg.LOG_VALID) i && !bitOf n (16 + i))) ∧
      x.KeepsFields y [ProtReg.LOG_VALID] ∧ y = { x with regs := y.regs }) ∧
    (ok (0x101004 + 0x40 * c) → let u := at_ (0x101004 + 0x40 * c); let x := u.tile t; let o := x.dma[c]
      let busy := x.b (DmaReg.HALTED c) = true ∨ o.active = true; let irq := if bitOf n 2 then 1 else 0
      (bitOf n 1 = false → busy → CompletesTile (.dmaGo q t c v) s u t fun y => y.r (DmaReg.IRQ_EN c) = irq ∧
        x.KeepsFields y [DmaReg.IRQ_EN c] ∧ y = { x with regs := y.regs }) ∧
      (bitOf n 1 = false → ¬ busy → CompletesTile (.dmaGo q t c v) s u t fun y =>
        y.r (DmaReg.STATE c) = 1 ∧ y.r (DmaReg.STATUS c) = 0 ∧ y.r (DmaReg.CUR_DESC c) = x.r (DmaReg.HEAD c) ∧
        y.r (DmaReg.BYTES_DONE c) = 0 ∧ y.dma[c] = { DmaSt.reset with desc := x.r (DmaReg.HEAD c) * 64, active := true } ∧
        (∀ k : Fin 8, k ≠ c → y.dma[k] = x.dma[k]) ∧ y = { x with regs := y.regs, dma := y.dma } ∧
        x.KeepsFields y [DmaReg.IRQ_EN c, DmaReg.STATE c, DmaReg.STATUS c, DmaReg.CUR_DESC c, DmaReg.BYTES_DONE c]) ∧
      (bitOf n 0 = false → CompletesTile (.dmaStop q t c v) s u t fun y => y.r (DmaReg.IRQ_EN c) = irq ∧
        (o.active = true → y.dma[c] = { o with stop := some (o.stop.getD u.cycle) }) ∧ (o.active = false → y.dma[c] = o) ∧
        (∀ k : Fin 8, k ≠ c → y.dma[k] = x.dma[k]) ∧ y = { x with regs := y.regs, dma := y.dma } ∧
        x.KeepsFields y [DmaReg.IRQ_EN c])) ∧
    (ok 0x100208 → let u := at_ 0x100208; let x := u.tile t; let e := x.r ProtReg.REPAIR_LO + x.r ProtReg.REPAIR_HI * 2 ^ 32
      let formed := e = 0 ∨ (e % 8 = 1 ∧ e < 2 ^ 27) ∨ (e % 8 = 2 ∧ e < 2 ^ 30); let w := 0x11000 / 8 + n % 64
      let word := [ProtReg.REPAIR_IDX]
      let refused (i : Instr) : Prop := CompletesTile i s u t fun y => y.b ProtReg.REPAIR_REFUSED = true ∧
        y.r ProtReg.REPAIR_IDX = (if u.allowed q then n % 64 else x.r ProtReg.REPAIR_IDX) ∧
        x.KeepsFields y [ProtReg.REPAIR_IDX, ProtReg.REPAIR_REFUSED] ∧ y = { x with regs := y.regs }
      let kept (i : Instr) (z : DWord) : Prop := Completes i s fun y => let v := y.tile t
        v.selv.read w = z ∧ (∀ k : Fin 64, 0x11000 / 8 + k.val ≠ w → v.selv.read (0x11000 / 8 + k.val) =
          x.selv.read (0x11000 / 8 + k.val)) ∧ v.r ProtReg.REPAIR_IDX = n % 64 ∧ x.KeepsFields v [ProtReg.REPAIR_IDX] ∧
        v.repairs = x.repairs ∧ (∀ j, j ≠ t → y.tile j = u.tile j) ∧ u.ChangesOnly [.tiles, .atria] y
      (bitOf n 7 = true → refused (.repairAdd q t v)) ∧ (bitOf n 6 = true → refused (.repairDel q t v)) ∧
      (u.allowed q = false → refused (.repairAdd q t v) ∧ refused (.repairDel q t v)) ∧
      (¬ formed → refused (.repairAdd q t v)) ∧
      (u.allowed q = true → u.storeRefuses = false →
        (bitOf n 7 = false → formed → kept (.repairAdd q t v) (BitVec.ofNat 64 e)) ∧
        (bitOf n 6 = false → kept (.repairDel q t v) 0)))) ∧
  (∀ (s : State) (wait : Nat) (t : Fin 8), let u := s.pass wait; let x := u.tile t
    let rank (c : Fin 8) : Nat := (c.val + 15 - x.dmaLast % 8) % 8
    x.inReset = false → x.heat.heavyOff = false → x.dmaFree ≤ u.cycle → ∀ c, x.dmaTurn = some c → let o := x.dma[c]; let i := Instr.dmaTransfer wait t
      let d := if o.taken then o.raw else u.stackLE t o.desc 32; let done := if o.taken then o.done else 0
      let m := d % 4; let src := dmaSrc d; let dst := dmaDst d; let unit := if m = 1 ∨ m = 2 then 4096 else 64
      let clean := (∀ j, (u.tile j).stack.ue = [] ∧ (u.tile j).stack.ce = []) ∧ ∀ k, (x.core k).tcm.flips = []
      let halts (st at_ : Nat) : Prop := Completes i s fun y => let v := y.tile t
        v.r (DmaReg.STATE c) = 2 ∧ v.r (DmaReg.STATUS c) = st ∧ v.r (DmaReg.FAIL_OFFSET c) = at_ % 2 ^ 32 ∧
        v.b (DmaReg.HALTED c) = true ∧ v.dma[c].active = false ∧ v.dmaLast = c ∧
        v.r (DmaReg.CUR_DESC c) = x.r (DmaReg.CUR_DESC c) ∧ v.r (DmaReg.BYTES_DONE c) = x.r (DmaReg.BYTES_DONE c) ∧
        (∀ k : Fin 8, k ≠ c → v.dma[k] = x.dma[k]) ∧ (∀ j, ∀ b ∈ (y.tile j).stack.cells, b.1 < shadowBase → b ∈ (u.tile j).stack.cells) ∧
        (∀ k, (v.core k).tcm = (x.core k).tcm) ∧ s.ChangesOnly [.time, .tiles, .atria] y
      let moves (l : List Byte) : Prop := Completes i s fun y => let v := y.tile t; let to_ := dmaOffset dst + done
        let j := dmaStack dst; let end_ := done + unit
        (dmaSpace dst = 0 → y.stackBytes j to_ unit = l ∧ (u.tile j).StackKept (y.tile j) to_ unit ∧
          (∀ k, k ≠ j → (y.tile k).stack = (u.tile k).stack) ∧ (m ∈ [1, 2] → let e := (y.tile j).stack.shadow (to_ / 4096)
            e.stamped = true ∧ e.poison = false ∧ e.crc = crc32c l)) ∧
        (dmaSpace dst = 1 → (v.core (dmaCore dst)).tcm.readBytes to_ unit = l ∧ ∀ k, (y.tile k).stack = (u.tile k).stack) ∧
        v.r (DmaReg.BYTES_DONE c) = min (2 ^ 32 - 1) (x.r (DmaReg.BYTES_DONE c) + unit) ∧ v.dmaLast = c ∧
        (end_ < dmaLength d → v.dma[c] = { o with taken := true, raw := d, done := end_ }) ∧
        (dmaLength d ≤ end_ → (bitOf d 2 = true → v.b (DmaReg.DESC_IRQ c) = true) ∧
          (bitOf d 3 = true → v.dma[c].active = false ∧ v.r (DmaReg.STATE c) = 0 ∧ v.b (DmaReg.DONE c) = true) ∧
          (bitOf d 3 = false → v.dma[c].desc = o.desc + 32 ∧ v.dma[c].taken = false ∧ v.dma[c].active = true ∧
            v.r (DmaReg.CUR_DESC c) = (o.desc + 32) / 64 % 2 ^ 29)) ∧
        (∀ k : Fin 8, k ≠ c → v.dma[k] = x.dma[k]) ∧ s.ChangesOnly [.time, .tiles, .atria] y
      x.dmaDue c = true ∧ (∀ k, x.dmaDue k = true → rank c ≤ rank k) ∧
      let last := o.stop = some u.cycle ∧ o.taken = true ∧ dmaLength d ≤ done + unit
      (o.stop ≠ none → ¬ last → halts 8 done) ∧
      (last → m = 3 → dmaSpace dst = 1 → dmaOffset dst + done + 64 ≤ 524288 → Completes i s fun y => let v := y.tile t
        (v.core (dmaCore dst)).tcm.readBytes (dmaOffset dst + done) 64 = (List.replicate 16 (bytesOf 4 (dmaFill d))).flatten ∧
        v.dma[c].active = false ∧ (bitOf d 3 = true → v.b (DmaReg.DONE c) = true ∧ v.r (DmaReg.STATE c) = 0) ∧
        (bitOf d 3 = false → v.r (DmaReg.STATUS c) = 8 ∧ v.b (DmaReg.HALTED c) = true ∧
          v.r (DmaReg.CUR_DESC c) = (o.desc + 32) / 64 % 2 ^ 29) ∧ s.ChangesOnly [.time, .tiles] y) ∧
      (o.stop = none → o.taken = false → inStaging o.desc 32 = true → u.stackUe t o.desc 32 = true → halts 6 0) ∧
      (o.stop = none → o.taken = false → inStaging o.desc 32 = true → u.stackUe t o.desc 32 = false →
        (d / 16 % 2 ^ 28 ≠ 0 ∨ d / 2 ^ 224 ≠ 0 → halts 6 0) ∧ (dmaLength d = 0 ∨ dmaLength d % unit ≠ 0 → halts 5 0 ∨ halts 6 0) ∧
        (∀ st, dmaCheck d = some st → st ∈ [5, 6] ∧ halts st 0)) ∧
      (o.stop = none → (o.taken = true ∨ dmaCheck d = none) → clean → dmaSpace dst ≤ 1 →
        (dmaSpace dst = 1 → dmaOffset dst + done + unit ≤ 524288) → (dmaSpace dst = 0 → inStaging (dmaOffset dst + done) unit = true) →
        (m ∈ [1, 2] → (dmaOffset dst + done) % 4096 = 0) → (dmaSpace dst = 0 → u.dmaReaches t (dmaStack dst) = true) →
        (m = 3 → moves ((List.replicate 16 (bytesOf 4 (dmaFill d))).flatten)) ∧
        (m ≠ 3 → dmaSpace src = 1 → moves ((x.core (dmaCore src)).tcm.readBytes (dmaOffset src + done) unit)) ∧
        (m ∈ [0, 1] → dmaSpace src = 0 → u.dmaReaches t (dmaStack src) = true → inStaging (dmaOffset src + done) unit = true →
          moves (u.stackBytes (dmaStack src) (dmaOffset src + done) unit)) ∧
        (m ≠ 3 → dmaSpace src = 0 → u.dmaReaches t (dmaStack src) = false → halts 7 done) ∧
        (m = 2 → dmaSpace src = 0 → u.dmaReaches t (dmaStack src) = true → let b := (dmaOffset src + done) / 4096
          let e := (u.tile (dmaStack src)).stack.shadow b; let bytes := u.stackBytes (dmaStack src) (4096 * b) 4096
          b < stagingBlocks → (dmaOffset src + done) % 4096 = 0 →
            (e.poison = true → halts 4 done) ∧ (e.poison = false → e.stamped = false → halts 3 done) ∧
            (e.poison = false → e.stamped = true → crc32c bytes ≠ e.crc → halts 2 done) ∧
            (e.poison = false → e.stamped = true → crc32c bytes = e.crc → moves bytes)))) ∧
  (∀ (s : State) (q : Req) (t : Fin 8) (v : Word), let n := v.toNat
    (∀ off ∈ [0x100200, 0x100204], s.accessOf q (.tile t off) = .ok → let u := s.atTile q t off; u.allowed q = false →
      exec (.registerWrite q (tileBase t + off) v) s = .next (u.onTile t fun x => { x with
        regs := x.regs.wr ProtReg.REPAIR_REFUSED 1 })) ∧
    (∀ off ∈ [0x100000, 0x100008, 0x10000C, 0x100010, 0x100200, 0x100204, 0x101000, 0x1000, 0x1004, 0x320014, 0x320018, 0x320020,
        0x320024, 0x320028, 0x32002C], s.accessOf q (.tile t off) = .ok → let u := s.atTile q t off; let x := u.tile t
      (off ∈ [0x100200, 0x100204] → u.allowed q = true) → CompletesTile (.registerWrite q (tileBase t + off) v) s u t fun y =>
        (∀ f ∈ fieldsIn tileFields off, y.r f = if f.acc = .rw then n / 2 ^ f.lsb % 2 ^ f.width else x.r f) ∧
        x.KeepsFields y (fieldsIn tileFields off) ∧ y = { x with regs := y.regs }) ∧
    (∀ a : Nat, let p := placeOf a; let k := s.copyOf q
      let noted (f : Fld) (y : State) : Prop := y.pr k f = 1 ∧ y.pr k IdReg.ACCESS_ADDR = a % 2 ^ 32 ∧
        (∀ j, (s.atrium j).KeepsFields (y.atrium j) [f, IdReg.ACCESS_ADDR])
      let stray (how : Reach) (f : Fld) (i : Option Word → Instr) : Prop :=
        (s.accessOf q p = how →
          Completes (.registerWrite q a v) s (fun y => noted f y ∧ s.ChangesOnly [.time, .tiles, .atria] y) ∧
          Completes (i (some v)) s (fun y => noted f y ∧ s.ChangesOnly [.time, .tiles, .atria] y) ∧
          Completes (i none) s fun y => noted f y ∧ (match q with
            | .core t c => ((y.tile t).core c) = { (s.tile t).core c with loaded := 0 } ∧ s.ChangesOnly [.atria, .tiles] y
            | .smbus => y.smb.response = [0, 1, 0, 0, 0, 0] ∧ s.ChangesOnly [.atria, .smb] y)) ∧
        (s.accessOf q p ≠ how → exec (i (some v)) s = .next s ∧ exec (i none) s = .next s)
      stray .unmapped IdReg.UNMAPPED (.unmappedAccess q a) ∧ stray .inReset IdReg.RESET_ACCESS (.resetAccess q a) ∧
      (s.accessOf q p = .noRoute → exec (.registerWrite q a v) s = .next (let z := s.turnTo 3; z.sendPacket (s.reqTile q) (s.accessTile q p) vcCommand 1)) ∧
      (isLower p = false → exec (.lowerWordRead q a) s = .next s) ∧
      (isLower p = true → s.accessOf q p = .ok → s.shadowOf q a = none → let u := s.noteAccess q p a
        Completes (.lowerWordRead q a) s fun y => (match q with
            | .core t c => ((y.tile t).core c).loaded = u.readAt k p
            | .smbus => y.smb.response = [0, 1] ++ bytesOf 4 (u.readAt k p)) ∧
          y.shadowOf q (a + 4) = some (BitVec.ofNat 32 (u.readAt k (placeOf (a + 4)))) ∧
          (∀ e ∈ s.shadows, (e.req ≠ reqNumber q ∨ e.addr ≠ a + 4) → e ∈ y.shadows) ∧
          (∀ j, (u.tile j).KeepsFields (y.tile j) []) ∧ s.ChangesOnly [.tiles, .smb, .shadows] y))) ∧
  (∀ (s : State) (q : Req) (t : Fin 8) (v : Word), let i := tawOf q t; let off := 0x1008 + 0x20 * i; let a := tileBase t + off
    s.accessOf q (.tile t off) = .ok → let sp := (s.tile t).r (TawReg.SPACE i); let h := s.tawHead t i; let k := s.copyOf q
      let sizes : List (Nat × Nat) := [(1, 131584), (2, 313344), (3, 262144), (4, 512), (5, 4352), (6, 8192), (7, 512), (8, 8192),
        (9, 2112), (0xA, 384), (0xB, 147456), (0xC, 3072), (0xD, 4116), (0xE, 3072), (0xF, 768), (0x20, 65536), (0x21, 4096),
        (0x22, 512), (0x23, 262144), (0x24, 655360), (0x25, 4194304), (0x26, 11534336), (0x27, 16777216)]
      let ad := (s.tile t).r (TawReg.ADDR i) / 4 * 4; let ofHead := 1 ≤ sp ∧ sp ≤ 0xF; let asleep := ofHead ∧ (s.head h).inReset = true
      let inside := (sizes.any fun e => e.1 == sp && decide (ad < e.2)) = true ∧ (sp ∈ [0x21, 0x25] → t.val % 4 = 0)
      let takes := sp ∈ [1, 2, 3, 5, 6, 8, 0xA, 0xB, 0xC, 0xD, 0xE]
      let step (x y : Tile) : Prop := y.r (TawReg.ADDR i) = if x.b (TawReg.AUTOINC i) = true then
        (x.r (TawReg.ADDR i) + 4) % 2 ^ 24 else x.r (TawReg.ADDR i)
      let met (y : State) : Prop := y.pr k IdReg.RESET_ACCESS = 1 ∧ y.pr k IdReg.ACCESS_ADDR = a ∧ y.heads = s.heads ∧
        (y.tile t).r (TawReg.TAW_ERR i) = (s.tile t).r (TawReg.TAW_ERR i) ∧ (y.tile t).r (TawReg.ADDR i) = (s.tile t).r (TawReg.ADDR i)
      let got (y : State) (n : Nat) : Prop := match q with
        | .core t c => ((y.tile t).core c).loaded = n
        | .smbus => y.smb.response = [0, 1] ++ bytesOf 4 n
      (asleep → Completes (.tawDataWrite q t v) s met ∧ Completes (.tawDataRead q t) s fun y => met y ∧ got y 0) ∧
      (¬ asleep → (let u := s.atTile q t off; let x := u.tile t
        (¬ inside ∨ ¬ takes → CompletesTile (.tawDataWrite q t v) s u t fun y => y.b (TawReg.TAW_ERR i) = true ∧ step x y ∧
          x.KeepsFields y [TawReg.TAW_ERR i, TawReg.ADDR i] ∧ y = { x with regs := y.regs }) ∧
        (inside → takes → let kept := sp = 0xE ∧ (s.head h).loopActive (ad / 128) = true
          Completes (.tawDataWrite q t v) s fun y => let z := y.head h
            (kept → y.heads = (u.setHead h z).heads ∧ z.b LoopReg.STATE_WR_REFUSED = true ∧ z.loops = (u.head h).loops ∧
              (u.head h).KeepsFields z [LoopReg.STATE_WR_REFUSED] ∧ (y.tile t).b (TawReg.TAW_REFUSED i) = true) ∧
            (¬ kept → z.table sp = ((u.head h).table sp).writeLE ad 4 v.toNat ∧
              (∀ n : Fin 16, n.val ≠ sp → z.table n = (u.head h).table n) ∧ (sp ≠ 0xD → (u.head h).KeepsFields z []) ∧
              x.KeepsFields (y.tile t) [TawReg.ADDR i]) ∧
            step x (y.tile t) ∧ (∀ m, m ≠ h → y.head m = u.head m) ∧ u.ChangesOnly [.heads, .tiles] y)) ∧
        (let u := s.noteAccess q (.tile t off) a; let x := u.tile t; let i' := Instr.tawDataRead q t
          (¬ inside → Completes i' s fun y => got y 0 ∧ (y.tile t).b (TawReg.TAW_ERR i) = true ∧ step x (y.tile t) ∧
            x.KeepsFields (y.tile t) [TawReg.TAW_ERR i, TawReg.ADDR i] ∧ y.heads = s.heads) ∧
          (inside → ofHead → sp ≠ 9 → let m := (s.head h).table sp
            (m.flips = [] → Completes i' s fun y => got y (m.readLE ad 4) ∧ step x (y.tile t) ∧ y.heads = s.heads ∧
              x.KeepsFields (y.tile t) [TawReg.ADDR i]) ∧
            (m.badAt ad 4 ≠ none → Completes i' s fun y => got y 0 ∧ (y.tile t).b (TawReg.TAW_UE i) = true ∧ step x (y.tile t) ∧
              x.r ProtReg.UE_COUNT ≤ (y.tile t).r ProtReg.UE_COUNT ∧ y.heads = s.heads)) ∧
          (∀ e ∈ [(0x21, 0x10000), (0x22, 0x11000), (0x23, 0x20000), (0x24, 0x60000), (0x25, 0x100000), (0x26, 0x500000)],
            e.1 = sp → inside → let w := e.2 / 8 + ad / 8; let n := (x.selv.read w).toNat; let low := ad % 8 = 0
            Completes i' s fun y => got y (if low then n % 2 ^ 32 else n / 2 ^ 32) ∧ step x (y.tile t) ∧ y.heads = s.heads ∧
              (y.tile t).selv.read w = x.selv.read w ∧
              (y.tile t).r (TawReg.DATA_HI i) = (if low then n / 2 ^ 32 else x.r (TawReg.DATA_HI i)) ∧
              (y.tile t).b (TawReg.TAW_UE i) = (x.b (TawReg.TAW_UE i) || x.selv.ue.contains w)))))
end

