-- ==== Sys2Proof/Laws/Regs.lean ====
section
/-! SUPPORT. Laws of the sparse lists: a read after a write gives the value written, a write leaves every other place alone,
and the canonical form is kept, for register files and for memories. -/

namespace Sys2Proof.Machine

/-! ### Lists by key -/

theorem lookupKey_insert_self {α : Type} (k : Nat) (v : α) (l : List (Nat × α)) :
    lookupKey k (insertKey k v l) = some v := by
  induction l with
  | nil => simp [insertKey, lookupKey]
  | cons c l ih =>
    obtain ⟨a, w⟩ := c
    by_cases h : a = k
    · simp [insertKey, lookupKey, h]
    · by_cases h2 : k < a <;> simp [insertKey, lookupKey, h, h2, ih]

theorem lookupKey_insert_ne {α : Type} {j k : Nat} (v : α) (l : List (Nat × α)) (h : j ≠ k) :
    lookupKey j (insertKey k v l) = lookupKey j l := by
  have hk : ¬k = j := fun e => h e.symm
  induction l with
  | nil => simp [insertKey, lookupKey, hk]
  | cons c l ih =>
    obtain ⟨a, w⟩ := c
    by_cases h1 : a = k
    · subst h1; simp [insertKey, lookupKey, hk]
    · by_cases h2 : k < a
      · simp [insertKey, lookupKey, h1, h2, hk]
      · simp only [insertKey, h1, h2, if_false, lookupKey, ih]

theorem lookupKey_erase_self {α : Type} (k : Nat) (l : List (Nat × α)) : lookupKey k (eraseKey k l) = none := by
  induction l with
  | nil => rfl
  | cons c l ih =>
    obtain ⟨a, w⟩ := c
    by_cases h : a = k <;> simp [eraseKey, lookupKey, h, ih]

theorem lookupKey_erase_ne {α : Type} {j k : Nat} (l : List (Nat × α)) (h : j ≠ k) :
    lookupKey j (eraseKey k l) = lookupKey j l := by
  have hk : ¬k = j := fun e => h e.symm
  induction l with
  | nil => rfl
  | cons c l ih =>
    obtain ⟨a, w⟩ := c
    by_cases h1 : a = k
    · subst h1; simp [eraseKey, lookupKey, hk, ih]
    · simp only [eraseKey, h1, if_false, lookupKey, ih]

/-- The keys of a list rise strictly and its first key is above `m`. -/
def risesFrom {α : Type} (m : Nat) : List (Nat × α) → Prop
  | [] => True
  | a :: l => m ≤ a.1 ∧ risesFrom (a.1 + 1) l

theorem risesFrom_mono {α : Type} {m n : Nat} (h : m ≤ n) : ∀ {l : List (Nat × α)}, risesFrom n l → risesFrom m l
  | [], _ => trivial
  | _ :: _, h' => ⟨le_trans h h'.1, h'.2⟩

theorem risingKeys_iff {α : Type} (l : List (Nat × α)) : risingKeys l = true ↔ risesFrom 0 l := by
  suffices h : ∀ (m : Nat) (a : Nat × α) (l : List (Nat × α)), m ≤ a.1 → (risingKeys (a :: l) = true ↔ risesFrom m (a :: l)) by
    cases l with
    | nil => simp [risingKeys, risesFrom]
    | cons a l => exact h 0 a l (Nat.zero_le _)
  intro m a l
  induction l generalizing m a with
  | nil => intro h; simp [risingKeys, risesFrom, h]
  | cons b l ih =>
    intro h
    rw [risingKeys, Bool.and_eq_true, decide_eq_true_eq]
    constructor
    · intro ⟨h1, h2⟩
      exact ⟨h, (ih (a.1 + 1) b h1).1 h2⟩
    · intro ⟨_, h2⟩
      exact ⟨h2.1, (ih (a.1 + 1) b h2.1).2 h2⟩

theorem risesFrom_insert {α : Type} (k : Nat) (v : α) :
    ∀ {m : Nat} {l : List (Nat × α)}, m ≤ k → risesFrom m l → risesFrom m (insertKey k v l)
  | _, [], hk, _ => ⟨hk, trivial⟩
  | m, (a, w) :: l, hk, h => by
    by_cases h1 : a = k
    · subst h1; simpa [insertKey, risesFrom] using h
    · by_cases h2 : k < a
      · simp only [insertKey, h1, h2, if_true, if_false]
        exact ⟨hk, h2, h.2⟩
      · simp only [insertKey, h1, h2, if_false]
        exact ⟨h.1, risesFrom_insert k v (by simp only; omega) h.2⟩

theorem risesFrom_erase {α : Type} (k : Nat) :
    ∀ {m : Nat} {l : List (Nat × α)}, risesFrom m l → risesFrom m (eraseKey k l)
  | _, [], _ => trivial
  | m, (a, w) :: l, h => by
    by_cases h1 : a = k
    · simp only [eraseKey, h1, if_true]
      exact risesFrom_mono (Nat.le_succ_of_le (h1 ▸ h.1)) (risesFrom_erase k (h1 ▸ h.2))
    · simp only [eraseKey, h1, if_false]
      exact ⟨h.1, risesFrom_erase k h.2⟩

theorem risesFrom_filter {α : Type} (p : Nat × α → Bool) :
    ∀ {m : Nat} {l : List (Nat × α)}, risesFrom m l → risesFrom m (l.filter p)
  | _, [], _ => trivial
  | m, a :: l, h => by
    by_cases h1 : p a = true
    · simp only [List.filter_cons_of_pos h1]
      exact ⟨h.1, risesFrom_filter p h.2⟩
    · simp only [List.filter_cons_of_neg h1]
      exact risesFrom_mono (Nat.le_succ_of_le h.1) (risesFrom_filter p h.2)

theorem mem_insertKey {α : Type} (k : Nat) (v : α) (c : Nat × α) :
    ∀ {l : List (Nat × α)}, c ∈ insertKey k v l → c = (k, v) ∨ c ∈ l
  | [], h => by simpa [insertKey] using h
  | (a, w) :: l, h => by
    by_cases h1 : a = k
    · simp only [insertKey, h1, if_true, List.mem_cons] at h ⊢
      tauto
    · by_cases h2 : k < a
      · simp only [insertKey, h1, h2, if_true, if_false, List.mem_cons] at h ⊢
        tauto
      · simp only [insertKey, h1, h2, if_false, List.mem_cons] at h ⊢
        rcases h with h | h
        · tauto
        · have := mem_insertKey k v c h
          tauto

theorem mem_eraseKey {α : Type} (k : Nat) (c : Nat × α) : ∀ {l : List (Nat × α)}, c ∈ eraseKey k l → c ∈ l
  | [], h => h
  | (a, w) :: l, h => by
    by_cases h1 : a = k
    · simp only [eraseKey, h1, if_true] at h
      exact List.mem_cons_of_mem _ (mem_eraseKey k c h)
    · simp only [eraseKey, h1, if_false, List.mem_cons] at h ⊢
      exact h.imp id (mem_eraseKey k c)

/-! ### Register files -/

/-- A field reads the low bits of what was written to it. -/
@[simp] theorem RegFile.rd_wr_self (rf : RegFile) (f : Fld) (v : Nat) : (rf.wr f v).rd f = v % 2 ^ f.width := by
  unfold RegFile.wr RegFile.rd
  split
  · rename_i h; simp [lookupKey_erase_self, h]
  · simp [lookupKey_insert_self]

/-- A write of one field leaves every other field alone. -/
theorem RegFile.rd_wr_ne (rf : RegFile) {f g : Fld} (v : Nat) (h : g.key ≠ f.key) : (rf.wr f v).rd g = rf.rd g := by
  unfold RegFile.wr RegFile.rd
  split
  · simp [lookupKey_erase_ne _ h]
  · simp [lookupKey_insert_ne _ _ h]

@[simp] theorem RegFile.rd_restore_self (rf : RegFile) (f : Fld) : (rf.restore f).rd f = f.reset := by
  simp [RegFile.restore, RegFile.rd, lookupKey_erase_self]

theorem RegFile.rd_restore_ne (rf : RegFile) {f g : Fld} (h : g.key ≠ f.key) : (rf.restore f).rd g = rf.rd g := by
  simp [RegFile.restore, RegFile.rd, lookupKey_erase_ne _ h]

/-- Two fields of one key and reset value are read alike. -/
theorem RegFile.rd_congr (rf : RegFile) {f g : Fld} (h : g.key = f.key) (hr : g.reset = f.reset) : rf.rd g = rf.rd f := by
  simp [RegFile.rd, h, hr]

@[simp] theorem RegFile.rd_empty (f : Fld) : RegFile.rd ⟨[]⟩ f = f.reset := rfl

@[simp] theorem RegFile.set_def (rf : RegFile) (f : Fld) : rf.set f = rf.wr f 1 := rfl
@[simp] theorem RegFile.clr_def (rf : RegFile) (f : Fld) : rf.clr f = rf.wr f 0 := rfl
@[simp] theorem RegFile.put_def (rf : RegFile) (f : Fld) (b : Bool) : rf.put f b = rf.wr f (flagNat b) := rfl
@[simp] theorem RegFile.wrS_def (rf : RegFile) (f : Fld) (v : Int) : rf.wrS f v = rf.wr f (unsignedOf f.width v) := rfl
@[simp] theorem RegFile.bump_def (rf : RegFile) (f : Fld) (n : Nat) : rf.bump f n = rf.wr f (satAdd f.width (rf.rd f) n) := rfl
@[simp] theorem RegFile.orIn_def (rf : RegFile) (f : Fld) (v : Nat) : rf.orIn f v = rf.wr f (rf.rd f ||| v) := rfl
@[simp] theorem RegFile.flag_def (rf : RegFile) (f : Fld) : rf.flag f = (rf.rd f != 0) := rfl

/-- Every operation on a register file keeps its canonical form. -/
theorem RegFile.wf_wr {rf : RegFile} (f : Fld) (v : Nat) (h : rf.wf = true) : (rf.wr f v).wf = true := by
  unfold RegFile.wf at *
  rw [risingKeys_iff] at *
  unfold RegFile.wr
  split
  · exact risesFrom_erase _ h
  · exact risesFrom_insert _ _ (Nat.zero_le _) h

theorem RegFile.wf_restore {rf : RegFile} (f : Fld) (h : rf.wf = true) : (rf.restore f).wf = true := by
  unfold RegFile.wf at *
  rw [risingKeys_iff] at *
  exact risesFrom_erase _ h

theorem RegFile.wf_resetBy {rf : RegFile} (c : RClass) (fs : List Fld) (h : rf.wf = true) : (rf.resetBy c fs).wf = true := by
  unfold RegFile.resetBy
  induction fs generalizing rf with
  | nil => exact h
  | cons f fs ih =>
    rw [List.foldl_cons]
    refine ih ?_
    unfold RegFile.resetField
    split
    · exact h
    · exact RegFile.wf_restore f h

/-- What a reset does to a field of its scope: a reset that keeps it leaves it as it is (R506). -/
theorem RegFile.rd_resetField_keeps (c : RClass) (rf : RegFile) (f g : Fld)
    (h : (g.persist || (g.acc = .ros && c ≠ .cold) || !(c.restores g.cls)) = true) (hk : f.key = g.key → f = g) :
    (rf.resetField c f).rd g = rf.rd g := by
  unfold RegFile.resetField
  by_cases e : f = g
  · subst e; simp only [h, if_true]
  · split
    · rfl
    · exact RegFile.rd_restore_ne _ fun k => e (hk k.symm)

theorem RegFile.rd_resetBy_keeps (c : RClass) (fs : List Fld) (rf : RegFile) (g : Fld)
    (h : (g.persist || (g.acc = .ros && c ≠ .cold) || !(c.restores g.cls)) = true)
    (hk : ∀ f ∈ fs, f.key = g.key → f = g) : (rf.resetBy c fs).rd g = rf.rd g := by
  unfold RegFile.resetBy
  induction fs generalizing rf with
  | nil => rfl
  | cons f fs ih =>
    rw [List.foldl_cons, ih _ fun x hx => hk x (List.mem_cons_of_mem _ hx)]
    exact RegFile.rd_resetField_keeps c rf f g h (hk f List.mem_cons_self)

/-- A field at its reset value stays so under resets. -/
theorem RegFile.rd_resetBy_stays (c : RClass) (fs : List Fld) (rf : RegFile) (g : Fld) (h0 : rf.rd g = g.reset)
    (hk : ∀ f ∈ fs, f.key = g.key → f = g) : (rf.resetBy c fs).rd g = g.reset := by
  unfold RegFile.resetBy
  induction fs generalizing rf with
  | nil => exact h0
  | cons f fs ih =>
    rw [List.foldl_cons]
    refine ih _ ?_ fun x hx => hk x (List.mem_cons_of_mem _ hx)
    unfold RegFile.resetField
    split
    · exact h0
    · by_cases e : f.key = g.key
      · have := hk f List.mem_cons_self e
        subst this
        exact RegFile.rd_restore_self rf f
      · rw [RegFile.rd_restore_ne _ fun k => e k.symm]
        exact h0

/-- A reset restores every field of its scope that it does not keep (R506). -/
theorem RegFile.rd_resetBy_restores (c : RClass) (fs : List Fld) (rf : RegFile) (g : Fld) (hm : g ∈ fs)
    (h : (g.persist || (g.acc = .ros && c ≠ .cold) || !(c.restores g.cls)) = false)
    (hk : ∀ f ∈ fs, f.key = g.key → f = g) : (rf.resetBy c fs).rd g = g.reset := by
  induction fs generalizing rf with
  | nil => cases hm
  | cons f fs ih =>
    have hk' : ∀ x ∈ fs, x.key = g.key → x = g := fun x hx => hk x (List.mem_cons_of_mem _ hx)
    have e0 : RegFile.resetBy c (f :: fs) rf = RegFile.resetBy c fs (rf.resetField c f) := by
      unfold RegFile.resetBy; rfl
    rw [e0]
    by_cases e : g ∈ fs
    · exact ih _ e hk'
    · have : g = f := (List.mem_cons.1 hm).resolve_right e
      subst this
      refine RegFile.rd_resetBy_stays c fs _ _ ?_ hk'
      unfold RegFile.resetField
      simp only [h, Bool.false_eq_true, if_false]
      exact RegFile.rd_restore_self rf g

/-! ### Memories -/

@[simp] theorem Mem.raw8_unlisted (m : Mem) (a b : Nat) (v : Byte) : (m.raw8 a v).unlisted b = m.unlisted b := rfl
@[simp] theorem Mem.mend_unlisted (m : Mem) (a b : Nat) : (m.mend a).unlisted b = m.unlisted b := rfl
@[simp] theorem Mem.put8_unlisted (m : Mem) (a b : Nat) (v : Byte) : (m.put8 a v).unlisted b = m.unlisted b := rfl
@[simp] theorem Mem.mend_written (m : Mem) (a b : Nat) : (m.mend a).written b = m.written b := rfl
@[simp] theorem Mem.mend_cells (m : Mem) (a : Nat) : (m.mend a).cells = m.cells := rfl
@[simp] theorem Mem.raw8_flips (m : Mem) (a : Nat) (v : Byte) : (m.raw8 a v).flips = m.flips := rfl

/-- A memory without upset cells reads as it was written (R375). -/
theorem Mem.read8_of_clean {m : Mem} {a : Nat} (h : lookupKey a m.flips = none) : m.read8 a = m.written a := by
  simp [Mem.read8, h]

/-- A byte holds what was written to it. -/
@[simp] theorem Mem.written_raw8_self (m : Mem) (a : Nat) (v : Byte) : (m.raw8 a v).written a = v := by
  unfold Mem.written
  rw [Mem.raw8_unlisted]
  unfold Mem.raw8
  by_cases h : v = m.unlisted a
  · simp [h, lookupKey_erase_self]
  · simp [h, lookupKey_insert_self]

/-- A write of one byte leaves what was written to every other byte. -/
theorem Mem.written_raw8_ne (m : Mem) {a b : Nat} (v : Byte) (h : b ≠ a) : (m.raw8 a v).written b = m.written b := by
  unfold Mem.written
  rw [Mem.raw8_unlisted]
  unfold Mem.raw8
  by_cases h1 : v = m.unlisted a
  · simp [h1, lookupKey_erase_ne _ h]
  · simp [h1, lookupKey_insert_ne _ _ h]

/-- A write of one byte leaves every other byte alone. -/
theorem Mem.read8_raw8_ne (m : Mem) {a b : Nat} (v : Byte) (h : b ≠ a) : (m.raw8 a v).read8 b = m.read8 b := by
  simp only [Mem.read8, Mem.raw8_flips, Mem.written_raw8_ne m v h]

/-- A byte whose cells carry no upset reads what was written to it. -/
theorem Mem.read8_raw8_self {m : Mem} {a : Nat} (v : Byte) (h : lookupKey a m.flips = none) :
    (m.raw8 a v).read8 a = v := by
  rw [Mem.read8_of_clean (by simpa using h), Mem.written_raw8_self]

/-- The end of an upset changes no other byte. -/
theorem Mem.read8_mend_ne (m : Mem) {a b : Nat} (h : b ≠ a) : (m.mend a).read8 b = m.read8 b := by
  unfold Mem.read8
  rw [Mem.mend_written]
  unfold Mem.mend
  simp [lookupKey_erase_ne _ h]

/-- A byte of an SRAM reads what was written to it, whatever upset was there (R377). -/
@[simp] theorem Mem.read8_put8_self (m : Mem) (a : Nat) (v : Byte) : (m.put8 a v).read8 a = v := by
  rw [Mem.read8_of_clean (by simp [Mem.put8, Mem.mend, lookupKey_erase_self])]
  simp [Mem.put8]

theorem Mem.read8_put8_ne (m : Mem) {a b : Nat} (v : Byte) (h : b ≠ a) : (m.put8 a v).read8 b = m.read8 b := by
  rw [Mem.put8, Mem.read8_mend_ne _ h, Mem.read8_raw8_ne m v h]

/-- A write of `n` bytes at `a` leaves every byte outside them alone. -/
theorem Mem.read8_writeLE_ne (n : Nat) : ∀ (m : Mem) (a v b : Nat), b < a ∨ a + n ≤ b →
    (m.writeLE a n v).read8 b = m.read8 b := by
  induction n with
  | zero => intro m a v b _; rfl
  | succ n ih =>
    intro m a v b h
    rw [Mem.writeLE, ih _ _ _ _ (by omega), Mem.read8_put8_ne _ _ (by omega)]

/-- A number of `n` bytes reads as the low bits of what was written there. -/
theorem Mem.readLE_writeLE (n : Nat) : ∀ (m : Mem) (a v : Nat), (m.writeLE a n v).readLE a n = v % 256 ^ n := by
  have keep : ∀ (n : Nat) (m m' : Mem) (a : Nat), (∀ b, a ≤ b → b < a + n → m.read8 b = m'.read8 b) →
      m.readLE a n = m'.readLE a n := by
    intro n
    induction n with
    | zero => intro m m' a _; rfl
    | succ n ih =>
      intro m m' a h
      rw [Mem.readLE, Mem.readLE, h a (le_refl a) (by omega), ih m m' (a + 1) fun b h1 h2 => h b (by omega) (by omega)]
  induction n with
  | zero => intro m a v; simp [Mem.readLE, Nat.mod_one]
  | succ n ih =>
    intro m a v
    rw [Mem.writeLE, Mem.readLE, ih, Mem.read8_writeLE_ne n _ _ _ _ (by omega), Mem.read8_put8_self]
    simp only [BitVec.toNat_ofNat]
    have e : (256 : Nat) ^ (n + 1) = 256 * 256 ^ n := by rw [pow_succ, mul_comm]
    rw [show (2 : Nat) ^ 8 = 256 from rfl, e, Nat.mod_mul]

/-- Every operation on a memory keeps its canonical form. -/
theorem Mem.wf_iff (m : Mem) : m.wf = true ↔ risesFrom 0 m.cells ∧ ∀ c ∈ m.cells, c.2 ≠ m.unlisted c.1 := by
  simp [Mem.wf, risingKeys_iff]

theorem Mem.wf_empty : Mem.empty.wf = true := rfl

theorem Mem.wf_raw8 {m : Mem} (a : Nat) (v : Byte) (h : m.wf = true) : (m.raw8 a v).wf = true := by
  rw [Mem.wf_iff] at *
  simp only [Mem.raw8_unlisted]
  unfold Mem.raw8
  by_cases h1 : v = m.unlisted a
  · simp only [h1, if_true]
    exact ⟨risesFrom_erase _ h.1, fun c hc => h.2 c (mem_eraseKey a c hc)⟩
  · simp only [h1, if_false]
    refine ⟨risesFrom_insert _ _ (Nat.zero_le _) h.1, fun c hc => ?_⟩
    rcases mem_insertKey a v c hc with rfl | hc
    · exact h1
    · exact h.2 c hc

theorem Mem.wf_mend {m : Mem} (a : Nat) (h : m.wf = true) : (m.mend a).wf = true := h

theorem Mem.wf_put8 {m : Mem} (a : Nat) (v : Byte) (h : m.wf = true) : (m.put8 a v).wf = true :=
  Mem.wf_mend a (Mem.wf_raw8 a v h)

theorem Mem.wf_writeLE (n : Nat) : ∀ {m : Mem} (a v : Nat), m.wf = true → (m.writeLE a n v).wf = true := by
  induction n with
  | zero => intro m a v h; exact h
  | succ n ih => intro m a v h; exact ih _ _ (Mem.wf_put8 _ _ h)

theorem Mem.wf_writeBytes (l : List Byte) : ∀ {m : Mem} (a : Nat), m.wf = true → (m.writeBytes a l).wf = true := by
  induction l with
  | nil => intro m a h; exact h
  | cons b l ih => intro m a h; exact ih _ (Mem.wf_put8 _ _ h)

/-- After a loss of the contents nothing is listed. -/
theorem Mem.wf_lose (gen stop : Nat) (m : Mem) : (m.lose gen stop).wf = true := rfl

end Sys2Proof.Machine
end

