-- ==== Sys2Proof/Laws/State.lean ====
section
/-! SUPPORT. What every update of a part of the state leaves alone and what it sets, one lemma for each field. -/

namespace Sys2Proof.Machine

/-! ### setHead -/

@[simp] theorem State.setHead_cycle (s : State) (h : Fin 32) (x : Head) : (s.setHead h x).cycle = s.cycle := rfl
@[simp] theorem State.setHead_turn (s : State) (h : Fin 32) (x : Head) : (s.setHead h x).turn = s.turn := rfl
@[simp] theorem State.setHead_freeCount (s : State) (h : Fin 32) (x : Head) : (s.setHead h x).freeCount = s.freeCount := rfl
@[simp] theorem State.setHead_tiles (s : State) (h : Fin 32) (x : Head) : (s.setHead h x).tiles = s.tiles := rfl
@[simp] theorem State.setHead_ports (s : State) (h : Fin 32) (x : Head) : (s.setHead h x).ports = s.ports := rfl
@[simp] theorem State.setHead_sets (s : State) (h : Fin 32) (x : Head) : (s.setHead h x).sets = s.sets := rfl
@[simp] theorem State.setHead_atria (s : State) (h : Fin 32) (x : Head) : (s.setHead h x).atria = s.atria := rfl
@[simp] theorem State.setHead_flashes (s : State) (h : Fin 32) (x : Head) : (s.setHead h x).flashes = s.flashes := rfl
@[simp] theorem State.setHead_boot (s : State) (h : Fin 32) (x : Head) : (s.setHead h x).boot = s.boot := rfl
@[simp] theorem State.setHead_pkg (s : State) (h : Fin 32) (x : Head) : (s.setHead h x).pkg = s.pkg := rfl
@[simp] theorem State.setHead_fuses (s : State) (h : Fin 32) (x : Head) : (s.setHead h x).fuses = s.fuses := rfl
@[simp] theorem State.setHead_smb (s : State) (h : Fin 32) (x : Head) : (s.setHead h x).smb = s.smb := rfl
@[simp] theorem State.setHead_shadows (s : State) (h : Fin 32) (x : Head) : (s.setHead h x).shadows = s.shadows := rfl
@[simp] theorem State.setHead_pending (s : State) (h : Fin 32) (x : Head) : (s.setHead h x).pending = s.pending := rfl
@[simp] theorem State.setHead_tile (s : State) (h : Fin 32) (x : Head) (j : Fin 8) : (s.setHead h x).tile j = s.tile j := rfl
@[simp] theorem State.setHead_port (s : State) (h : Fin 32) (x : Head) (j : Fin 16) : (s.setHead h x).port j = s.port j := rfl
@[simp] theorem State.setHead_aset (s : State) (h : Fin 32) (x : Head) (j : Fin 8) : (s.setHead h x).aset j = s.aset j := rfl
@[simp] theorem State.setHead_atrium (s : State) (h : Fin 32) (x : Head) (j : Fin 2) : (s.setHead h x).atrium j = s.atrium j := rfl
@[simp] theorem State.setHead_flash (s : State) (h : Fin 32) (x : Head) (j : Fin 2) : (s.setHead h x).flash j = s.flash j := rfl
@[simp] theorem State.setHead_head (s : State) (h : Fin 32) (x : Head) : (s.setHead h x).head h = x := by simp [State.setHead, State.head]
@[simp] theorem State.setHead_head_ne (s : State) (h : Fin 32) (x : Head) (j : Fin 32) (hj : j ≠ h) : (s.setHead h x).head j = s.head j := by
  have := Fin.val_ne_of_ne hj.symm
  simp [State.setHead, State.head, this]

/-! ### setTile -/

@[simp] theorem State.setTile_cycle (s : State) (t : Fin 8) (x : Tile) : (s.setTile t x).cycle = s.cycle := rfl
@[simp] theorem State.setTile_turn (s : State) (t : Fin 8) (x : Tile) : (s.setTile t x).turn = s.turn := rfl
@[simp] theorem State.setTile_freeCount (s : State) (t : Fin 8) (x : Tile) : (s.setTile t x).freeCount = s.freeCount := rfl
@[simp] theorem State.setTile_heads (s : State) (t : Fin 8) (x : Tile) : (s.setTile t x).heads = s.heads := rfl
@[simp] theorem State.setTile_ports (s : State) (t : Fin 8) (x : Tile) : (s.setTile t x).ports = s.ports := rfl
@[simp] theorem State.setTile_sets (s : State) (t : Fin 8) (x : Tile) : (s.setTile t x).sets = s.sets := rfl
@[simp] theorem State.setTile_atria (s : State) (t : Fin 8) (x : Tile) : (s.setTile t x).atria = s.atria := rfl
@[simp] theorem State.setTile_flashes (s : State) (t : Fin 8) (x : Tile) : (s.setTile t x).flashes = s.flashes := rfl
@[simp] theorem State.setTile_boot (s : State) (t : Fin 8) (x : Tile) : (s.setTile t x).boot = s.boot := rfl
@[simp] theorem State.setTile_pkg (s : State) (t : Fin 8) (x : Tile) : (s.setTile t x).pkg = s.pkg := rfl
@[simp] theorem State.setTile_fuses (s : State) (t : Fin 8) (x : Tile) : (s.setTile t x).fuses = s.fuses := rfl
@[simp] theorem State.setTile_smb (s : State) (t : Fin 8) (x : Tile) : (s.setTile t x).smb = s.smb := rfl
@[simp] theorem State.setTile_shadows (s : State) (t : Fin 8) (x : Tile) : (s.setTile t x).shadows = s.shadows := rfl
@[simp] theorem State.setTile_pending (s : State) (t : Fin 8) (x : Tile) : (s.setTile t x).pending = s.pending := rfl
@[simp] theorem State.setTile_head (s : State) (t : Fin 8) (x : Tile) (j : Fin 32) : (s.setTile t x).head j = s.head j := rfl
@[simp] theorem State.setTile_port (s : State) (t : Fin 8) (x : Tile) (j : Fin 16) : (s.setTile t x).port j = s.port j := rfl
@[simp] theorem State.setTile_aset (s : State) (t : Fin 8) (x : Tile) (j : Fin 8) : (s.setTile t x).aset j = s.aset j := rfl
@[simp] theorem State.setTile_atrium (s : State) (t : Fin 8) (x : Tile) (j : Fin 2) : (s.setTile t x).atrium j = s.atrium j := rfl
@[simp] theorem State.setTile_flash (s : State) (t : Fin 8) (x : Tile) (j : Fin 2) : (s.setTile t x).flash j = s.flash j := rfl
@[simp] theorem State.setTile_tile (s : State) (t : Fin 8) (x : Tile) : (s.setTile t x).tile t = x := by simp [State.setTile, State.tile]
@[simp] theorem State.setTile_tile_ne (s : State) (t : Fin 8) (x : Tile) (j : Fin 8) (hj : j ≠ t) : (s.setTile t x).tile j = s.tile j := by
  have := Fin.val_ne_of_ne hj.symm
  simp [State.setTile, State.tile, this]

/-! ### onPort -/

@[simp] theorem State.onPort_cycle (s : State) (p : Fin 16) (f : PortSt → PortSt) : (s.onPort p f).cycle = s.cycle := rfl
@[simp] theorem State.onPort_turn (s : State) (p : Fin 16) (f : PortSt → PortSt) : (s.onPort p f).turn = s.turn := rfl
@[simp] theorem State.onPort_freeCount (s : State) (p : Fin 16) (f : PortSt → PortSt) : (s.onPort p f).freeCount = s.freeCount := rfl
@[simp] theorem State.onPort_heads (s : State) (p : Fin 16) (f : PortSt → PortSt) : (s.onPort p f).heads = s.heads := rfl
@[simp] theorem State.onPort_tiles (s : State) (p : Fin 16) (f : PortSt → PortSt) : (s.onPort p f).tiles = s.tiles := rfl
@[simp] theorem State.onPort_sets (s : State) (p : Fin 16) (f : PortSt → PortSt) : (s.onPort p f).sets = s.sets := rfl
@[simp] theorem State.onPort_atria (s : State) (p : Fin 16) (f : PortSt → PortSt) : (s.onPort p f).atria = s.atria := rfl
@[simp] theorem State.onPort_flashes (s : State) (p : Fin 16) (f : PortSt → PortSt) : (s.onPort p f).flashes = s.flashes := rfl
@[simp] theorem State.onPort_boot (s : State) (p : Fin 16) (f : PortSt → PortSt) : (s.onPort p f).boot = s.boot := rfl
@[simp] theorem State.onPort_pkg (s : State) (p : Fin 16) (f : PortSt → PortSt) : (s.onPort p f).pkg = s.pkg := rfl
@[simp] theorem State.onPort_fuses (s : State) (p : Fin 16) (f : PortSt → PortSt) : (s.onPort p f).fuses = s.fuses := rfl
@[simp] theorem State.onPort_smb (s : State) (p : Fin 16) (f : PortSt → PortSt) : (s.onPort p f).smb = s.smb := rfl
@[simp] theorem State.onPort_shadows (s : State) (p : Fin 16) (f : PortSt → PortSt) : (s.onPort p f).shadows = s.shadows := rfl
@[simp] theorem State.onPort_pending (s : State) (p : Fin 16) (f : PortSt → PortSt) : (s.onPort p f).pending = s.pending := rfl
@[simp] theorem State.onPort_head (s : State) (p : Fin 16) (f : PortSt → PortSt) (j : Fin 32) : (s.onPort p f).head j = s.head j := rfl
@[simp] theorem State.onPort_tile (s : State) (p : Fin 16) (f : PortSt → PortSt) (j : Fin 8) : (s.onPort p f).tile j = s.tile j := rfl
@[simp] theorem State.onPort_aset (s : State) (p : Fin 16) (f : PortSt → PortSt) (j : Fin 8) : (s.onPort p f).aset j = s.aset j := rfl
@[simp] theorem State.onPort_atrium (s : State) (p : Fin 16) (f : PortSt → PortSt) (j : Fin 2) : (s.onPort p f).atrium j = s.atrium j := rfl
@[simp] theorem State.onPort_flash (s : State) (p : Fin 16) (f : PortSt → PortSt) (j : Fin 2) : (s.onPort p f).flash j = s.flash j := rfl
@[simp] theorem State.onPort_port (s : State) (p : Fin 16) (f : PortSt → PortSt) : (s.onPort p f).port p = f (s.port p) := by simp [State.onPort, State.port]
@[simp] theorem State.onPort_port_ne (s : State) (p : Fin 16) (f : PortSt → PortSt) (j : Fin 16) (hj : j ≠ p) : (s.onPort p f).port j = s.port j := by
  have := Fin.val_ne_of_ne hj.symm
  simp [State.onPort, State.port, this]

/-! ### onSet -/

@[simp] theorem State.onSet_cycle (s : State) (n : Fin 8) (f : ASet → ASet) : (s.onSet n f).cycle = s.cycle := rfl
@[simp] theorem State.onSet_turn (s : State) (n : Fin 8) (f : ASet → ASet) : (s.onSet n f).turn = s.turn := rfl
@[simp] theorem State.onSet_freeCount (s : State) (n : Fin 8) (f : ASet → ASet) : (s.onSet n f).freeCount = s.freeCount := rfl
@[simp] theorem State.onSet_heads (s : State) (n : Fin 8) (f : ASet → ASet) : (s.onSet n f).heads = s.heads := rfl
@[simp] theorem State.onSet_tiles (s : State) (n : Fin 8) (f : ASet → ASet) : (s.onSet n f).tiles = s.tiles := rfl
@[simp] theorem State.onSet_ports (s : State) (n : Fin 8) (f : ASet → ASet) : (s.onSet n f).ports = s.ports := rfl
@[simp] theorem State.onSet_atria (s : State) (n : Fin 8) (f : ASet → ASet) : (s.onSet n f).atria = s.atria := rfl
@[simp] theorem State.onSet_flashes (s : State) (n : Fin 8) (f : ASet → ASet) : (s.onSet n f).flashes = s.flashes := rfl
@[simp] theorem State.onSet_boot (s : State) (n : Fin 8) (f : ASet → ASet) : (s.onSet n f).boot = s.boot := rfl
@[simp] theorem State.onSet_pkg (s : State) (n : Fin 8) (f : ASet → ASet) : (s.onSet n f).pkg = s.pkg := rfl
@[simp] theorem State.onSet_fuses (s : State) (n : Fin 8) (f : ASet → ASet) : (s.onSet n f).fuses = s.fuses := rfl
@[simp] theorem State.onSet_smb (s : State) (n : Fin 8) (f : ASet → ASet) : (s.onSet n f).smb = s.smb := rfl
@[simp] theorem State.onSet_shadows (s : State) (n : Fin 8) (f : ASet → ASet) : (s.onSet n f).shadows = s.shadows := rfl
@[simp] theorem State.onSet_pending (s : State) (n : Fin 8) (f : ASet → ASet) : (s.onSet n f).pending = s.pending := rfl
@[simp] theorem State.onSet_head (s : State) (n : Fin 8) (f : ASet → ASet) (j : Fin 32) : (s.onSet n f).head j = s.head j := rfl
@[simp] theorem State.onSet_tile (s : State) (n : Fin 8) (f : ASet → ASet) (j : Fin 8) : (s.onSet n f).tile j = s.tile j := rfl
@[simp] theorem State.onSet_port (s : State) (n : Fin 8) (f : ASet → ASet) (j : Fin 16) : (s.onSet n f).port j = s.port j := rfl
@[simp] theorem State.onSet_atrium (s : State) (n : Fin 8) (f : ASet → ASet) (j : Fin 2) : (s.onSet n f).atrium j = s.atrium j := rfl
@[simp] theorem State.onSet_flash (s : State) (n : Fin 8) (f : ASet → ASet) (j : Fin 2) : (s.onSet n f).flash j = s.flash j := rfl
@[simp] theorem State.onSet_aset (s : State) (n : Fin 8) (f : ASet → ASet) : (s.onSet n f).aset n = f (s.aset n) := by simp [State.onSet, State.aset]
@[simp] theorem State.onSet_aset_ne (s : State) (n : Fin 8) (f : ASet → ASet) (j : Fin 8) (hj : j ≠ n) : (s.onSet n f).aset j = s.aset j := by
  have := Fin.val_ne_of_ne hj.symm
  simp [State.onSet, State.aset, this]

/-! ### onAtrium -/

@[simp] theorem State.onAtrium_cycle (s : State) (w : Fin 2) (f : Atrium → Atrium) : (s.onAtrium w f).cycle = s.cycle := rfl
@[simp] theorem State.onAtrium_turn (s : State) (w : Fin 2) (f : Atrium → Atrium) : (s.onAtrium w f).turn = s.turn := rfl
@[simp] theorem State.onAtrium_freeCount (s : State) (w : Fin 2) (f : Atrium → Atrium) : (s.onAtrium w f).freeCount = s.freeCount := rfl
@[simp] theorem State.onAtrium_heads (s : State) (w : Fin 2) (f : Atrium → Atrium) : (s.onAtrium w f).heads = s.heads := rfl
@[simp] theorem State.onAtrium_tiles (s : State) (w : Fin 2) (f : Atrium → Atrium) : (s.onAtrium w f).tiles = s.tiles := rfl
@[simp] theorem State.onAtrium_ports (s : State) (w : Fin 2) (f : Atrium → Atrium) : (s.onAtrium w f).ports = s.ports := rfl
@[simp] theorem State.onAtrium_sets (s : State) (w : Fin 2) (f : Atrium → Atrium) : (s.onAtrium w f).sets = s.sets := rfl
@[simp] theorem State.onAtrium_flashes (s : State) (w : Fin 2) (f : Atrium → Atrium) : (s.onAtrium w f).flashes = s.flashes := rfl
@[simp] theorem State.onAtrium_boot (s : State) (w : Fin 2) (f : Atrium → Atrium) : (s.onAtrium w f).boot = s.boot := rfl
@[simp] theorem State.onAtrium_pkg (s : State) (w : Fin 2) (f : Atrium → Atrium) : (s.onAtrium w f).pkg = s.pkg := rfl
@[simp] theorem State.onAtrium_fuses (s : State) (w : Fin 2) (f : Atrium → Atrium) : (s.onAtrium w f).fuses = s.fuses := rfl
@[simp] theorem State.onAtrium_smb (s : State) (w : Fin 2) (f : Atrium → Atrium) : (s.onAtrium w f).smb = s.smb := rfl
@[simp] theorem State.onAtrium_shadows (s : State) (w : Fin 2) (f : Atrium → Atrium) : (s.onAtrium w f).shadows = s.shadows := rfl
@[simp] theorem State.onAtrium_pending (s : State) (w : Fin 2) (f : Atrium → Atrium) : (s.onAtrium w f).pending = s.pending := rfl
@[simp] theorem State.onAtrium_head (s : State) (w : Fin 2) (f : Atrium → Atrium) (j : Fin 32) : (s.onAtrium w f).head j = s.head j := rfl
@[simp] theorem State.onAtrium_tile (s : State) (w : Fin 2) (f : Atrium → Atrium) (j : Fin 8) : (s.onAtrium w f).tile j = s.tile j := rfl
@[simp] theorem State.onAtrium_port (s : State) (w : Fin 2) (f : Atrium → Atrium) (j : Fin 16) : (s.onAtrium w f).port j = s.port j := rfl
@[simp] theorem State.onAtrium_aset (s : State) (w : Fin 2) (f : Atrium → Atrium) (j : Fin 8) : (s.onAtrium w f).aset j = s.aset j := rfl
@[simp] theorem State.onAtrium_flash (s : State) (w : Fin 2) (f : Atrium → Atrium) (j : Fin 2) : (s.onAtrium w f).flash j = s.flash j := rfl
@[simp] theorem State.onAtrium_atrium (s : State) (w : Fin 2) (f : Atrium → Atrium) : (s.onAtrium w f).atrium w = f (s.atrium w) := by simp [State.onAtrium, State.atrium]
@[simp] theorem State.onAtrium_atrium_ne (s : State) (w : Fin 2) (f : Atrium → Atrium) (j : Fin 2) (hj : j ≠ w) : (s.onAtrium w f).atrium j = s.atrium j := by
  have := Fin.val_ne_of_ne hj.symm
  simp [State.onAtrium, State.atrium, this]

/-! ### onFlash -/

@[simp] theorem State.onFlash_cycle (s : State) (g : Fin 2) (f : FlashSt → FlashSt) : (s.onFlash g f).cycle = s.cycle := rfl
@[simp] theorem State.onFlash_turn (s : State) (g : Fin 2) (f : FlashSt → FlashSt) : (s.onFlash g f).turn = s.turn := rfl
@[simp] theorem State.onFlash_freeCount (s : State) (g : Fin 2) (f : FlashSt → FlashSt) : (s.onFlash g f).freeCount = s.freeCount := rfl
@[simp] theorem State.onFlash_heads (s : State) (g : Fin 2) (f : FlashSt → FlashSt) : (s.onFlash g f).heads = s.heads := rfl
@[simp] theorem State.onFlash_tiles (s : State) (g : Fin 2) (f : FlashSt → FlashSt) : (s.onFlash g f).tiles = s.tiles := rfl
@[simp] theorem State.onFlash_ports (s : State) (g : Fin 2) (f : FlashSt → FlashSt) : (s.onFlash g f).ports = s.ports := rfl
@[simp] theorem State.onFlash_sets (s : State) (g : Fin 2) (f : FlashSt → FlashSt) : (s.onFlash g f).sets = s.sets := rfl
@[simp] theorem State.onFlash_atria (s : State) (g : Fin 2) (f : FlashSt → FlashSt) : (s.onFlash g f).atria = s.atria := rfl
@[simp] theorem State.onFlash_boot (s : State) (g : Fin 2) (f : FlashSt → FlashSt) : (s.onFlash g f).boot = s.boot := rfl
@[simp] theorem State.onFlash_pkg (s : State) (g : Fin 2) (f : FlashSt → FlashSt) : (s.onFlash g f).pkg = s.pkg := rfl
@[simp] theorem State.onFlash_fuses (s : State) (g : Fin 2) (f : FlashSt → FlashSt) : (s.onFlash g f).fuses = s.fuses := rfl
@[simp] theorem State.onFlash_smb (s : State) (g : Fin 2) (f : FlashSt → FlashSt) : (s.onFlash g f).smb = s.smb := rfl
@[simp] theorem State.onFlash_shadows (s : State) (g : Fin 2) (f : FlashSt → FlashSt) : (s.onFlash g f).shadows = s.shadows := rfl
@[simp] theorem State.onFlash_pending (s : State) (g : Fin 2) (f : FlashSt → FlashSt) : (s.onFlash g f).pending = s.pending := rfl
@[simp] theorem State.onFlash_head (s : State) (g : Fin 2) (f : FlashSt → FlashSt) (j : Fin 32) : (s.onFlash g f).head j = s.head j := rfl
@[simp] theorem State.onFlash_tile (s : State) (g : Fin 2) (f : FlashSt → FlashSt) (j : Fin 8) : (s.onFlash g f).tile j = s.tile j := rfl
@[simp] theorem State.onFlash_port (s : State) (g : Fin 2) (f : FlashSt → FlashSt) (j : Fin 16) : (s.onFlash g f).port j = s.port j := rfl
@[simp] theorem State.onFlash_aset (s : State) (g : Fin 2) (f : FlashSt → FlashSt) (j : Fin 8) : (s.onFlash g f).aset j = s.aset j := rfl
@[simp] theorem State.onFlash_atrium (s : State) (g : Fin 2) (f : FlashSt → FlashSt) (j : Fin 2) : (s.onFlash g f).atrium j = s.atrium j := rfl
@[simp] theorem State.onFlash_flash (s : State) (g : Fin 2) (f : FlashSt → FlashSt) : (s.onFlash g f).flash g = f (s.flash g) := by simp [State.onFlash, State.flash]
@[simp] theorem State.onFlash_flash_ne (s : State) (g : Fin 2) (f : FlashSt → FlashSt) (j : Fin 2) (hj : j ≠ g) : (s.onFlash g f).flash j = s.flash j := by
  have := Fin.val_ne_of_ne hj.symm
  simp [State.onFlash, State.flash, this]

/-! ### takeFree -/

@[simp] theorem State.takeFree_cycle (s : State)  : (s.takeFree).cycle = s.cycle := rfl
@[simp] theorem State.takeFree_turn (s : State)  : (s.takeFree).turn = s.turn := rfl
@[simp] theorem State.takeFree_heads (s : State)  : (s.takeFree).heads = s.heads := rfl
@[simp] theorem State.takeFree_tiles (s : State)  : (s.takeFree).tiles = s.tiles := rfl
@[simp] theorem State.takeFree_ports (s : State)  : (s.takeFree).ports = s.ports := rfl
@[simp] theorem State.takeFree_sets (s : State)  : (s.takeFree).sets = s.sets := rfl
@[simp] theorem State.takeFree_atria (s : State)  : (s.takeFree).atria = s.atria := rfl
@[simp] theorem State.takeFree_flashes (s : State)  : (s.takeFree).flashes = s.flashes := rfl
@[simp] theorem State.takeFree_boot (s : State)  : (s.takeFree).boot = s.boot := rfl
@[simp] theorem State.takeFree_pkg (s : State)  : (s.takeFree).pkg = s.pkg := rfl
@[simp] theorem State.takeFree_fuses (s : State)  : (s.takeFree).fuses = s.fuses := rfl
@[simp] theorem State.takeFree_smb (s : State)  : (s.takeFree).smb = s.smb := rfl
@[simp] theorem State.takeFree_shadows (s : State)  : (s.takeFree).shadows = s.shadows := rfl
@[simp] theorem State.takeFree_pending (s : State)  : (s.takeFree).pending = s.pending := rfl
@[simp] theorem State.takeFree_head (s : State)  (j : Fin 32) : (s.takeFree).head j = s.head j := rfl
@[simp] theorem State.takeFree_tile (s : State)  (j : Fin 8) : (s.takeFree).tile j = s.tile j := rfl
@[simp] theorem State.takeFree_port (s : State)  (j : Fin 16) : (s.takeFree).port j = s.port j := rfl
@[simp] theorem State.takeFree_aset (s : State)  (j : Fin 8) : (s.takeFree).aset j = s.aset j := rfl
@[simp] theorem State.takeFree_atrium (s : State)  (j : Fin 2) : (s.takeFree).atrium j = s.atrium j := rfl
@[simp] theorem State.takeFree_flash (s : State)  (j : Fin 2) : (s.takeFree).flash j = s.flash j := rfl

/-! ### onHead and onTile are setHead and setTile -/

@[simp] theorem State.onHead_def (s : State) (h : Fin 32) (f : Head → Head) : s.onHead h f = s.setHead h (f (s.head h)) := rfl
@[simp] theorem State.onTile_def (s : State) (t : Fin 8) (f : Tile → Tile) : s.onTile t f = s.setTile t (f (s.tile t)) := rfl
@[simp] theorem State.setHead_setHead (s : State) (h : Fin 32) (x y : Head) : (s.setHead h x).setHead h y = s.setHead h y := by simp [State.setHead]
@[simp] theorem State.setTile_setTile (s : State) (t : Fin 8) (x y : Tile) : (s.setTile t x).setTile t y = s.setTile t y := by simp [State.setTile]

/-! ### The passing of time -/

@[simp] theorem State.advance_freeCount (n : Nat) (s : State) : (s.advance n).freeCount = s.freeCount := rfl
@[simp] theorem State.advance_heads (n : Nat) (s : State) : (s.advance n).heads = s.heads := rfl
@[simp] theorem State.advance_ports (n : Nat) (s : State) : (s.advance n).ports = s.ports := rfl
@[simp] theorem State.advance_sets (n : Nat) (s : State) : (s.advance n).sets = s.sets := rfl
@[simp] theorem State.advance_atria (n : Nat) (s : State) : (s.advance n).atria = s.atria := rfl
@[simp] theorem State.advance_flashes (n : Nat) (s : State) : (s.advance n).flashes = s.flashes := rfl
@[simp] theorem State.advance_boot (n : Nat) (s : State) : (s.advance n).boot = s.boot := rfl
@[simp] theorem State.advance_pkg (n : Nat) (s : State) : (s.advance n).pkg = s.pkg := rfl
@[simp] theorem State.advance_fuses (n : Nat) (s : State) : (s.advance n).fuses = s.fuses := rfl
@[simp] theorem State.advance_smb (n : Nat) (s : State) : (s.advance n).smb = s.smb := rfl
@[simp] theorem State.advance_shadows (n : Nat) (s : State) : (s.advance n).shadows = s.shadows := rfl
@[simp] theorem State.advance_pending (n : Nat) (s : State) : (s.advance n).pending = s.pending := rfl
@[simp] theorem State.advance_cycle (n : Nat) (s : State) : (s.advance n).cycle = s.cycle + n := rfl
@[simp] theorem State.advance_turn (n : Nat) (s : State) : (s.advance n).turn = if n = 0 then s.turn else 0 := rfl
@[simp] theorem State.advance_head (n : Nat) (s : State) (j : Fin 32) : (s.advance n).head j = s.head j := rfl
@[simp] theorem State.advance_port (n : Nat) (s : State) (j : Fin 16) : (s.advance n).port j = s.port j := rfl
@[simp] theorem State.advance_aset (n : Nat) (s : State) (j : Fin 8) : (s.advance n).aset j = s.aset j := rfl
@[simp] theorem State.advance_atrium (n : Nat) (s : State) (j : Fin 2) : (s.advance n).atrium j = s.atrium j := rfl
@[simp] theorem State.advance_flash (n : Nat) (s : State) (j : Fin 2) : (s.advance n).flash j = s.flash j := rfl
@[simp] theorem State.advance_tile (n : Nat) (s : State) (j : Fin 8) : (s.advance n).tile j = Tile.advance n (s.tile j) := by
  fin_cases j <;> rfl
@[simp] theorem Tile.advance_regs (n : Nat) (x : Tile) : (x.advance n).regs = x.regs := by unfold Tile.advance; split <;> rfl
@[simp] theorem Tile.advance_inReset (n : Nat) (x : Tile) : (x.advance n).inReset = x.inReset := by unfold Tile.advance; split <;> rfl
@[simp] theorem Tile.advance_timeOn (n : Nat) (x : Tile) : (x.advance n).timeOn = x.timeOn := by unfold Tile.advance; split <;> rfl
@[simp] theorem Tile.advance_syncIn (n : Nat) (x : Tile) : (x.advance n).syncIn = x.syncIn := by unfold Tile.advance; split <;> rfl
@[simp] theorem Tile.advance_lastSync (n : Nat) (x : Tile) : (x.advance n).lastSync = x.lastSync := by unfold Tile.advance; split <;> rfl
@[simp] theorem Tile.advance_links (n : Nat) (x : Tile) : (x.advance n).links = x.links := by unfold Tile.advance; split <;> rfl
@[simp] theorem Tile.advance_stack (n : Nat) (x : Tile) : (x.advance n).stack = x.stack := by unfold Tile.advance; split <;> rfl
@[simp] theorem Tile.advance_selv (n : Nat) (x : Tile) : (x.advance n).selv = x.selv := by unfold Tile.advance; split <;> rfl
@[simp] theorem Tile.advance_bolt (n : Nat) (x : Tile) : (x.advance n).bolt = x.bolt := by unfold Tile.advance; split <;> rfl
@[simp] theorem Tile.advance_locks (n : Nat) (x : Tile) : (x.advance n).locks = x.locks := by unfold Tile.advance; split <;> rfl
@[simp] theorem Tile.advance_nextHandle (n : Nat) (x : Tile) : (x.advance n).nextHandle = x.nextHandle := by unfold Tile.advance; split <;> rfl
@[simp] theorem Tile.advance_paces (n : Nat) (x : Tile) : (x.advance n).paces = x.paces := by unfold Tile.advance; split <;> rfl
@[simp] theorem Tile.advance_syncFrom (n : Nat) (x : Tile) : (x.advance n).syncFrom = x.syncFrom := by unfold Tile.advance; split <;> rfl
@[simp] theorem Tile.advance_flitCount (n : Nat) (x : Tile) : (x.advance n).flitCount = x.flitCount := by unfold Tile.advance; split <;> rfl
@[simp] theorem Tile.advance_flitsHeld (n : Nat) (x : Tile) : (x.advance n).flitsHeld = x.flitsHeld := by unfold Tile.advance; split <;> rfl
@[simp] theorem Tile.advance_hcrWait (n : Nat) (x : Tile) : (x.advance n).hcrWait = x.hcrWait := by unfold Tile.advance; split <;> rfl
@[simp] theorem Tile.advance_lockMem (n : Nat) (x : Tile) : (x.advance n).lockMem = x.lockMem := by unfold Tile.advance; split <;> rfl
@[simp] theorem Tile.advance_journalBuf (n : Nat) (x : Tile) : (x.advance n).journalBuf = x.journalBuf := by unfold Tile.advance; split <;> rfl
@[simp] theorem Tile.advance_dmaFree (n : Nat) (x : Tile) : (x.advance n).dmaFree = x.dmaFree := by unfold Tile.advance; split <;> rfl
@[simp] theorem Tile.advance_lockStop (n : Nat) (x : Tile) : (x.advance n).lockStop = x.lockStop := by unfold Tile.advance; split <;> rfl
@[simp] theorem Tile.advance_dma (n : Nat) (x : Tile) : (x.advance n).dma = x.dma := by unfold Tile.advance; split <;> rfl
@[simp] theorem Tile.advance_dmaLast (n : Nat) (x : Tile) : (x.advance n).dmaLast = x.dmaLast := by unfold Tile.advance; split <;> rfl
@[simp] theorem Tile.advance_leakMs (n : Nat) (x : Tile) : (x.advance n).leakMs = x.leakMs := by unfold Tile.advance; split <;> rfl
@[simp] theorem Tile.advance_cores (n : Nat) (x : Tile) : (x.advance n).cores = x.cores := by unfold Tile.advance; split <;> rfl
@[simp] theorem Tile.advance_replay (n : Nat) (x : Tile) : (x.advance n).replay = x.replay := by unfold Tile.advance; split <;> rfl
@[simp] theorem Tile.advance_heat (n : Nat) (x : Tile) : (x.advance n).heat = x.heat := by unfold Tile.advance; split <;> rfl
@[simp] theorem Tile.advance_logger (n : Nat) (x : Tile) : (x.advance n).logger = x.logger := by unfold Tile.advance; split <;> rfl
@[simp] theorem Tile.advance_repairs (n : Nat) (x : Tile) : (x.advance n).repairs = x.repairs := by unfold Tile.advance; split <;> rfl
@[simp] theorem Tile.advance_journalUe (n : Nat) (x : Tile) : (x.advance n).journalUe = x.journalUe := by unfold Tile.advance; split <;> rfl

/-! ### One register field of a head, a tile or an Atrium copy -/

@[simp] theorem Head.w_inReset (x : Head) (f : Fld) (v : Nat) : (x.w f v).inReset = x.inReset := rfl
@[simp] theorem Head.w_angle (x : Head) (f : Fld) (v : Nat) : (x.w f v).angle = x.angle := rfl
@[simp] theorem Head.w_riser (x : Head) (f : Fld) (v : Nat) : (x.w f v).riser = x.riser := rfl
@[simp] theorem Head.w_beams (x : Head) (f : Fld) (v : Nat) : (x.w f v).beams = x.beams := rfl
@[simp] theorem Head.w_weft (x : Head) (f : Fld) (v : Nat) : (x.w f v).weft = x.weft := rfl
@[simp] theorem Head.w_write (x : Head) (f : Fld) (v : Nat) : (x.w f v).write = x.write := rfl
@[simp] theorem Head.w_loops (x : Head) (f : Fld) (v : Nat) : (x.w f v).loops = x.loops := rfl
@[simp] theorem Head.w_land (x : Head) (f : Fld) (v : Nat) : (x.w f v).land = x.land := rfl
@[simp] theorem Head.w_spin (x : Head) (f : Fld) (v : Nat) : (x.w f v).spin = x.spin := rfl
@[simp] theorem Head.w_gens (x : Head) (f : Fld) (v : Nat) : (x.w f v).gens = x.gens := rfl
@[simp] theorem Head.w_cal (x : Head) (f : Fld) (v : Nat) : (x.w f v).cal = x.cal := rfl
@[simp] theorem Head.w_schedMem (x : Head) (f : Fld) (v : Nat) : (x.w f v).schedMem = x.schedMem := rfl
@[simp] theorem Head.w_chanMem (x : Head) (f : Fld) (v : Nat) : (x.w f v).chanMem = x.chanMem := rfl
@[simp] theorem Head.w_stratMem (x : Head) (f : Fld) (v : Nat) : (x.w f v).stratMem = x.stratMem := rfl
@[simp] theorem Head.w_stratMap (x : Head) (f : Fld) (v : Nat) : (x.w f v).stratMap = x.stratMap := rfl
@[simp] theorem Head.w_regs (x : Head) (f : Fld) (v : Nat) : (x.w f v).regs = x.regs.wr f v := rfl
@[simp] theorem Head.r_def (x : Head) (f : Fld) : x.r f = x.regs.rd f := rfl
@[simp] theorem Head.b_def (x : Head) (f : Fld) : x.b f = (x.regs.rd f != 0) := rfl
@[simp] theorem Head.put_def (x : Head) (f : Fld) (v : Bool) : x.put f v = x.w f (flagNat v) := rfl
@[simp] theorem Head.flag_def (x : Head) (f : Fld) : x.flag f = x.w f 1 := rfl
@[simp] theorem Head.wi_def (x : Head) (f : Fld) (v : Int) : x.wi f v = x.w f (unsignedOf f.width v) := rfl
@[simp] theorem Head.bump_def (x : Head) (f : Fld) (n : Nat) : x.bump f n = x.w f (satAdd f.width (x.regs.rd f) n) := rfl
@[simp] theorem Head.flagIf_inReset (x : Head) (c : Bool) (f : Fld) : (x.flagIf c f).inReset = x.inReset := rfl
@[simp] theorem Head.flagIf_angle (x : Head) (c : Bool) (f : Fld) : (x.flagIf c f).angle = x.angle := rfl
@[simp] theorem Head.flagIf_riser (x : Head) (c : Bool) (f : Fld) : (x.flagIf c f).riser = x.riser := rfl
@[simp] theorem Head.flagIf_beams (x : Head) (c : Bool) (f : Fld) : (x.flagIf c f).beams = x.beams := rfl
@[simp] theorem Head.flagIf_weft (x : Head) (c : Bool) (f : Fld) : (x.flagIf c f).weft = x.weft := rfl
@[simp] theorem Head.flagIf_write (x : Head) (c : Bool) (f : Fld) : (x.flagIf c f).write = x.write := rfl
@[simp] theorem Head.flagIf_loops (x : Head) (c : Bool) (f : Fld) : (x.flagIf c f).loops = x.loops := rfl
@[simp] theorem Head.flagIf_land (x : Head) (c : Bool) (f : Fld) : (x.flagIf c f).land = x.land := rfl
@[simp] theorem Head.flagIf_spin (x : Head) (c : Bool) (f : Fld) : (x.flagIf c f).spin = x.spin := rfl
@[simp] theorem Head.flagIf_gens (x : Head) (c : Bool) (f : Fld) : (x.flagIf c f).gens = x.gens := rfl
@[simp] theorem Head.flagIf_cal (x : Head) (c : Bool) (f : Fld) : (x.flagIf c f).cal = x.cal := rfl
@[simp] theorem Head.flagIf_schedMem (x : Head) (c : Bool) (f : Fld) : (x.flagIf c f).schedMem = x.schedMem := rfl
@[simp] theorem Head.flagIf_chanMem (x : Head) (c : Bool) (f : Fld) : (x.flagIf c f).chanMem = x.chanMem := rfl
@[simp] theorem Head.flagIf_stratMem (x : Head) (c : Bool) (f : Fld) : (x.flagIf c f).stratMem = x.stratMem := rfl
@[simp] theorem Head.flagIf_stratMap (x : Head) (c : Bool) (f : Fld) : (x.flagIf c f).stratMap = x.stratMap := rfl
@[simp] theorem Head.flagIf_true (x : Head) (f : Fld) : x.flagIf true f = x.w f 1 := rfl
@[simp] theorem Head.flagIf_false (x : Head) (f : Fld) : x.flagIf false f = x := rfl
@[simp] theorem Tile.w_inReset (x : Tile) (f : Fld) (v : Nat) : (x.w f v).inReset = x.inReset := rfl
@[simp] theorem Tile.w_time16 (x : Tile) (f : Fld) (v : Nat) : (x.w f v).time16 = x.time16 := rfl
@[simp] theorem Tile.w_timeOn (x : Tile) (f : Fld) (v : Nat) : (x.w f v).timeOn = x.timeOn := rfl
@[simp] theorem Tile.w_slew (x : Tile) (f : Fld) (v : Nat) : (x.w f v).slew = x.slew := rfl
@[simp] theorem Tile.w_holdLeft (x : Tile) (f : Fld) (v : Nat) : (x.w f v).holdLeft = x.holdLeft := rfl
@[simp] theorem Tile.w_syncIn (x : Tile) (f : Fld) (v : Nat) : (x.w f v).syncIn = x.syncIn := rfl
@[simp] theorem Tile.w_lastSync (x : Tile) (f : Fld) (v : Nat) : (x.w f v).lastSync = x.lastSync := rfl
@[simp] theorem Tile.w_links (x : Tile) (f : Fld) (v : Nat) : (x.w f v).links = x.links := rfl
@[simp] theorem Tile.w_stack (x : Tile) (f : Fld) (v : Nat) : (x.w f v).stack = x.stack := rfl
@[simp] theorem Tile.w_selv (x : Tile) (f : Fld) (v : Nat) : (x.w f v).selv = x.selv := rfl
@[simp] theorem Tile.w_bolt (x : Tile) (f : Fld) (v : Nat) : (x.w f v).bolt = x.bolt := rfl
@[simp] theorem Tile.w_locks (x : Tile) (f : Fld) (v : Nat) : (x.w f v).locks = x.locks := rfl
@[simp] theorem Tile.w_nextHandle (x : Tile) (f : Fld) (v : Nat) : (x.w f v).nextHandle = x.nextHandle := rfl
@[simp] theorem Tile.w_paces (x : Tile) (f : Fld) (v : Nat) : (x.w f v).paces = x.paces := rfl
@[simp] theorem Tile.w_syncFrom (x : Tile) (f : Fld) (v : Nat) : (x.w f v).syncFrom = x.syncFrom := rfl
@[simp] theorem Tile.w_flitCount (x : Tile) (f : Fld) (v : Nat) : (x.w f v).flitCount = x.flitCount := rfl
@[simp] theorem Tile.w_flitsHeld (x : Tile) (f : Fld) (v : Nat) : (x.w f v).flitsHeld = x.flitsHeld := rfl
@[simp] theorem Tile.w_hcrWait (x : Tile) (f : Fld) (v : Nat) : (x.w f v).hcrWait = x.hcrWait := rfl
@[simp] theorem Tile.w_lockMem (x : Tile) (f : Fld) (v : Nat) : (x.w f v).lockMem = x.lockMem := rfl
@[simp] theorem Tile.w_journalBuf (x : Tile) (f : Fld) (v : Nat) : (x.w f v).journalBuf = x.journalBuf := rfl
@[simp] theorem Tile.w_dmaFree (x : Tile) (f : Fld) (v : Nat) : (x.w f v).dmaFree = x.dmaFree := rfl
@[simp] theorem Tile.w_lockStop (x : Tile) (f : Fld) (v : Nat) : (x.w f v).lockStop = x.lockStop := rfl
@[simp] theorem Tile.w_dma (x : Tile) (f : Fld) (v : Nat) : (x.w f v).dma = x.dma := rfl
@[simp] theorem Tile.w_dmaLast (x : Tile) (f : Fld) (v : Nat) : (x.w f v).dmaLast = x.dmaLast := rfl
@[simp] theorem Tile.w_leakMs (x : Tile) (f : Fld) (v : Nat) : (x.w f v).leakMs = x.leakMs := rfl
@[simp] theorem Tile.w_cores (x : Tile) (f : Fld) (v : Nat) : (x.w f v).cores = x.cores := rfl
@[simp] theorem Tile.w_replay (x : Tile) (f : Fld) (v : Nat) : (x.w f v).replay = x.replay := rfl
@[simp] theorem Tile.w_heat (x : Tile) (f : Fld) (v : Nat) : (x.w f v).heat = x.heat := rfl
@[simp] theorem Tile.w_logger (x : Tile) (f : Fld) (v : Nat) : (x.w f v).logger = x.logger := rfl
@[simp] theorem Tile.w_repairs (x : Tile) (f : Fld) (v : Nat) : (x.w f v).repairs = x.repairs := rfl
@[simp] theorem Tile.w_journalUe (x : Tile) (f : Fld) (v : Nat) : (x.w f v).journalUe = x.journalUe := rfl
@[simp] theorem Tile.w_regs (x : Tile) (f : Fld) (v : Nat) : (x.w f v).regs = x.regs.wr f v := rfl
@[simp] theorem Tile.r_def (x : Tile) (f : Fld) : x.r f = x.regs.rd f := rfl
@[simp] theorem Tile.b_def (x : Tile) (f : Fld) : x.b f = (x.regs.rd f != 0) := rfl
@[simp] theorem Tile.put_def (x : Tile) (f : Fld) (v : Bool) : x.put f v = x.w f (flagNat v) := rfl
@[simp] theorem Tile.flag_def (x : Tile) (f : Fld) : x.flag f = x.w f 1 := rfl
@[simp] theorem Tile.wi_def (x : Tile) (f : Fld) (v : Int) : x.wi f v = x.w f (unsignedOf f.width v) := rfl
@[simp] theorem Tile.bump_def (x : Tile) (f : Fld) (n : Nat) : x.bump f n = x.w f (satAdd f.width (x.regs.rd f) n) := rfl
@[simp] theorem Tile.flagIf_inReset (x : Tile) (c : Bool) (f : Fld) : (x.flagIf c f).inReset = x.inReset := rfl
@[simp] theorem Tile.flagIf_time16 (x : Tile) (c : Bool) (f : Fld) : (x.flagIf c f).time16 = x.time16 := rfl
@[simp] theorem Tile.flagIf_timeOn (x : Tile) (c : Bool) (f : Fld) : (x.flagIf c f).timeOn = x.timeOn := rfl
@[simp] theorem Tile.flagIf_slew (x : Tile) (c : Bool) (f : Fld) : (x.flagIf c f).slew = x.slew := rfl
@[simp] theorem Tile.flagIf_holdLeft (x : Tile) (c : Bool) (f : Fld) : (x.flagIf c f).holdLeft = x.holdLeft := rfl
@[simp] theorem Tile.flagIf_syncIn (x : Tile) (c : Bool) (f : Fld) : (x.flagIf c f).syncIn = x.syncIn := rfl
@[simp] theorem Tile.flagIf_lastSync (x : Tile) (c : Bool) (f : Fld) : (x.flagIf c f).lastSync = x.lastSync := rfl
@[simp] theorem Tile.flagIf_links (x : Tile) (c : Bool) (f : Fld) : (x.flagIf c f).links = x.links := rfl
@[simp] theorem Tile.flagIf_stack (x : Tile) (c : Bool) (f : Fld) : (x.flagIf c f).stack = x.stack := rfl
@[simp] theorem Tile.flagIf_selv (x : Tile) (c : Bool) (f : Fld) : (x.flagIf c f).selv = x.selv := rfl
@[simp] theorem Tile.flagIf_bolt (x : Tile) (c : Bool) (f : Fld) : (x.flagIf c f).bolt = x.bolt := rfl
@[simp] theorem Tile.flagIf_locks (x : Tile) (c : Bool) (f : Fld) : (x.flagIf c f).locks = x.locks := rfl
@[simp] theorem Tile.flagIf_nextHandle (x : Tile) (c : Bool) (f : Fld) : (x.flagIf c f).nextHandle = x.nextHandle := rfl
@[simp] theorem Tile.flagIf_paces (x : Tile) (c : Bool) (f : Fld) : (x.flagIf c f).paces = x.paces := rfl
@[simp] theorem Tile.flagIf_syncFrom (x : Tile) (c : Bool) (f : Fld) : (x.flagIf c f).syncFrom = x.syncFrom := rfl
@[simp] theorem Tile.flagIf_flitCount (x : Tile) (c : Bool) (f : Fld) : (x.flagIf c f).flitCount = x.flitCount := rfl
@[simp] theorem Tile.flagIf_flitsHeld (x : Tile) (c : Bool) (f : Fld) : (x.flagIf c f).flitsHeld = x.flitsHeld := rfl
@[simp] theorem Tile.flagIf_hcrWait (x : Tile) (c : Bool) (f : Fld) : (x.flagIf c f).hcrWait = x.hcrWait := rfl
@[simp] theorem Tile.flagIf_lockMem (x : Tile) (c : Bool) (f : Fld) : (x.flagIf c f).lockMem = x.lockMem := rfl
@[simp] theorem Tile.flagIf_journalBuf (x : Tile) (c : Bool) (f : Fld) : (x.flagIf c f).journalBuf = x.journalBuf := rfl
@[simp] theorem Tile.flagIf_dmaFree (x : Tile) (c : Bool) (f : Fld) : (x.flagIf c f).dmaFree = x.dmaFree := rfl
@[simp] theorem Tile.flagIf_lockStop (x : Tile) (c : Bool) (f : Fld) : (x.flagIf c f).lockStop = x.lockStop := rfl
@[simp] theorem Tile.flagIf_dma (x : Tile) (c : Bool) (f : Fld) : (x.flagIf c f).dma = x.dma := rfl
@[simp] theorem Tile.flagIf_dmaLast (x : Tile) (c : Bool) (f : Fld) : (x.flagIf c f).dmaLast = x.dmaLast := rfl
@[simp] theorem Tile.flagIf_leakMs (x : Tile) (c : Bool) (f : Fld) : (x.flagIf c f).leakMs = x.leakMs := rfl
@[simp] theorem Tile.flagIf_cores (x : Tile) (c : Bool) (f : Fld) : (x.flagIf c f).cores = x.cores := rfl
@[simp] theorem Tile.flagIf_replay (x : Tile) (c : Bool) (f : Fld) : (x.flagIf c f).replay = x.replay := rfl
@[simp] theorem Tile.flagIf_heat (x : Tile) (c : Bool) (f : Fld) : (x.flagIf c f).heat = x.heat := rfl
@[simp] theorem Tile.flagIf_logger (x : Tile) (c : Bool) (f : Fld) : (x.flagIf c f).logger = x.logger := rfl
@[simp] theorem Tile.flagIf_repairs (x : Tile) (c : Bool) (f : Fld) : (x.flagIf c f).repairs = x.repairs := rfl
@[simp] theorem Tile.flagIf_journalUe (x : Tile) (c : Bool) (f : Fld) : (x.flagIf c f).journalUe = x.journalUe := rfl
@[simp] theorem Tile.flagIf_true (x : Tile) (f : Fld) : x.flagIf true f = x.w f 1 := rfl
@[simp] theorem Tile.flagIf_false (x : Tile) (f : Fld) : x.flagIf false f = x := rfl
@[simp] theorem Atrium.w_lastRenewal (x : Atrium) (f : Fld) (v : Nat) : (x.w f v).lastRenewal = x.lastRenewal := rfl
@[simp] theorem Atrium.w_leaseSeen (x : Atrium) (f : Fld) (v : Nat) : (x.w f v).leaseSeen = x.leaseSeen := rfl
@[simp] theorem Atrium.w_renewals (x : Atrium) (f : Fld) (v : Nat) : (x.w f v).renewals = x.renewals := rfl
@[simp] theorem Atrium.w_epochSeen (x : Atrium) (f : Fld) (v : Nat) : (x.w f v).epochSeen = x.epochSeen := rfl
@[simp] theorem Atrium.w_sent (x : Atrium) (f : Fld) (v : Nat) : (x.w f v).sent = x.sent := rfl
@[simp] theorem Atrium.w_sentMs (x : Atrium) (f : Fld) (v : Nat) : (x.w f v).sentMs = x.sentMs := rfl
@[simp] theorem Atrium.w_ack (x : Atrium) (f : Fld) (v : Nat) : (x.w f v).ack = x.ack := rfl
@[simp] theorem Atrium.w_handover (x : Atrium) (f : Fld) (v : Nat) : (x.w f v).handover = x.handover := rfl
@[simp] theorem Atrium.w_splitAt (x : Atrium) (f : Fld) (v : Nat) : (x.w f v).splitAt = x.splitAt := rfl
@[simp] theorem Atrium.w_bridgesBefore (x : Atrium) (f : Fld) (v : Nat) : (x.w f v).bridgesBefore = x.bridgesBefore := rfl
@[simp] theorem Atrium.w_rejoin (x : Atrium) (f : Fld) (v : Nat) : (x.w f v).rejoin = x.rejoin := rfl
@[simp] theorem Atrium.w_rejoinAt (x : Atrium) (f : Fld) (v : Nat) : (x.w f v).rejoinAt = x.rejoinAt := rfl
@[simp] theorem Atrium.w_lastSync (x : Atrium) (f : Fld) (v : Nat) : (x.w f v).lastSync = x.lastSync := rfl
@[simp] theorem Atrium.w_held (x : Atrium) (f : Fld) (v : Nat) : (x.w f v).held = x.held := rfl
@[simp] theorem Atrium.w_regs (x : Atrium) (f : Fld) (v : Nat) : (x.w f v).regs = x.regs.wr f v := rfl
@[simp] theorem Atrium.r_def (x : Atrium) (f : Fld) : x.r f = x.regs.rd f := rfl
@[simp] theorem Atrium.b_def (x : Atrium) (f : Fld) : x.b f = (x.regs.rd f != 0) := rfl
@[simp] theorem Atrium.put_def (x : Atrium) (f : Fld) (v : Bool) : x.put f v = x.w f (flagNat v) := rfl
@[simp] theorem Atrium.flag_def (x : Atrium) (f : Fld) : x.flag f = x.w f 1 := rfl

/-! ### Beam channels and step generators -/

@[simp] theorem Head.onBeam_regs (x : Head) (i : Fin 33) (f : BeamSt → BeamSt) : (x.onBeam i f).regs = x.regs := rfl
@[simp] theorem Head.onGen_regs (x : Head) (g : Fin 2) (f : StepSt → StepSt) : (x.onGen g f).regs = x.regs := rfl
@[simp] theorem Head.onBeam_inReset (x : Head) (i : Fin 33) (f : BeamSt → BeamSt) : (x.onBeam i f).inReset = x.inReset := rfl
@[simp] theorem Head.onGen_inReset (x : Head) (g : Fin 2) (f : StepSt → StepSt) : (x.onGen g f).inReset = x.inReset := rfl
@[simp] theorem Head.onBeam_angle (x : Head) (i : Fin 33) (f : BeamSt → BeamSt) : (x.onBeam i f).angle = x.angle := rfl
@[simp] theorem Head.onGen_angle (x : Head) (g : Fin 2) (f : StepSt → StepSt) : (x.onGen g f).angle = x.angle := rfl
@[simp] theorem Head.onBeam_riser (x : Head) (i : Fin 33) (f : BeamSt → BeamSt) : (x.onBeam i f).riser = x.riser := rfl
@[simp] theorem Head.onGen_riser (x : Head) (g : Fin 2) (f : StepSt → StepSt) : (x.onGen g f).riser = x.riser := rfl
@[simp] theorem Head.onGen_beams (x : Head) (g : Fin 2) (f : StepSt → StepSt) : (x.onGen g f).beams = x.beams := rfl
@[simp] theorem Head.onBeam_weft (x : Head) (i : Fin 33) (f : BeamSt → BeamSt) : (x.onBeam i f).weft = x.weft := rfl
@[simp] theorem Head.onGen_weft (x : Head) (g : Fin 2) (f : StepSt → StepSt) : (x.onGen g f).weft = x.weft := rfl
@[simp] theorem Head.onBeam_write (x : Head) (i : Fin 33) (f : BeamSt → BeamSt) : (x.onBeam i f).write = x.write := rfl
@[simp] theorem Head.onGen_write (x : Head) (g : Fin 2) (f : StepSt → StepSt) : (x.onGen g f).write = x.write := rfl
@[simp] theorem Head.onBeam_loops (x : Head) (i : Fin 33) (f : BeamSt → BeamSt) : (x.onBeam i f).loops = x.loops := rfl
@[simp] theorem Head.onGen_loops (x : Head) (g : Fin 2) (f : StepSt → StepSt) : (x.onGen g f).loops = x.loops := rfl
@[simp] theorem Head.onBeam_land (x : Head) (i : Fin 33) (f : BeamSt → BeamSt) : (x.onBeam i f).land = x.land := rfl
@[simp] theorem Head.onGen_land (x : Head) (g : Fin 2) (f : StepSt → StepSt) : (x.onGen g f).land = x.land := rfl
@[simp] theorem Head.onBeam_spin (x : Head) (i : Fin 33) (f : BeamSt → BeamSt) : (x.onBeam i f).spin = x.spin := rfl
@[simp] theorem Head.onGen_spin (x : Head) (g : Fin 2) (f : StepSt → StepSt) : (x.onGen g f).spin = x.spin := rfl
@[simp] theorem Head.onBeam_gens (x : Head) (i : Fin 33) (f : BeamSt → BeamSt) : (x.onBeam i f).gens = x.gens := rfl
@[simp] theorem Head.onBeam_cal (x : Head) (i : Fin 33) (f : BeamSt → BeamSt) : (x.onBeam i f).cal = x.cal := rfl
@[simp] theorem Head.onGen_cal (x : Head) (g : Fin 2) (f : StepSt → StepSt) : (x.onGen g f).cal = x.cal := rfl
@[simp] theorem Head.onBeam_schedMem (x : Head) (i : Fin 33) (f : BeamSt → BeamSt) : (x.onBeam i f).schedMem = x.schedMem := rfl
@[simp] theorem Head.onGen_schedMem (x : Head) (g : Fin 2) (f : StepSt → StepSt) : (x.onGen g f).schedMem = x.schedMem := rfl
@[simp] theorem Head.onBeam_chanMem (x : Head) (i : Fin 33) (f : BeamSt → BeamSt) : (x.onBeam i f).chanMem = x.chanMem := rfl
@[simp] theorem Head.onGen_chanMem (x : Head) (g : Fin 2) (f : StepSt → StepSt) : (x.onGen g f).chanMem = x.chanMem := rfl
@[simp] theorem Head.onBeam_stratMem (x : Head) (i : Fin 33) (f : BeamSt → BeamSt) : (x.onBeam i f).stratMem = x.stratMem := rfl
@[simp] theorem Head.onGen_stratMem (x : Head) (g : Fin 2) (f : StepSt → StepSt) : (x.onGen g f).stratMem = x.stratMem := rfl
@[simp] theorem Head.onBeam_stratMap (x : Head) (i : Fin 33) (f : BeamSt → BeamSt) : (x.onBeam i f).stratMap = x.stratMap := rfl
@[simp] theorem Head.onGen_stratMap (x : Head) (g : Fin 2) (f : StepSt → StepSt) : (x.onGen g f).stratMap = x.stratMap := rfl
@[simp] theorem Head.onBeam_beam (x : Head) (i : Fin 33) (f : BeamSt → BeamSt) : (x.onBeam i f).beam i = f (x.beam i) := by simp [Head.onBeam, Head.beam]
@[simp] theorem Head.onGen_gen (x : Head) (g : Fin 2) (f : StepSt → StepSt) : (x.onGen g f).gen g = f (x.gen g) := by simp [Head.onGen, Head.gen]
@[simp] theorem Head.w_beam (x : Head) (f : Fld) (v : Nat) (i : Fin 33) : (x.w f v).beam i = x.beam i := rfl
@[simp] theorem Head.w_gen (x : Head) (f : Fld) (v : Nat) (g : Fin 2) : (x.w f v).gen g = x.gen g := rfl

end Sys2Proof.Machine
end

