-- ==== Sys2Proof/Laws/Changes.lean ====
section
/-! SUPPORT. For each operation over the state, the parts of it that the operation may change: every other part, the queue
among them, is left as it was, no fuse is restored and time is not turned back. -/

namespace Sys2Proof.Machine

theorem Fuses.Later.refl (a : Fuses) : Fuses.Later a a := ⟨rfl, rfl, fun _ h => h⟩

theorem Fuses.Later.trans {a b c : Fuses} (h : Fuses.Later a b) (k : Fuses.Later b c) : Fuses.Later a c :=
  ⟨k.1.trans h.1, k.2.trans h.2, fun i hi => k.3 i (h.3 i hi)⟩

theorem State.ChangesOnly.refl {ps : List Part} (s : State) : s.ChangesOnly ps s :=
  ⟨rfl, .refl _, Nat.le_refl _, fun _ => ⟨rfl, rfl⟩, fun _ => rfl, fun _ => rfl, fun _ => rfl, fun _ => rfl, fun _ => rfl, fun _ => rfl, fun _ => rfl, fun _ => rfl, fun _ => rfl, fun _ => rfl, fun _ => rfl, fun _ => rfl, fun _ => rfl⟩

theorem State.ChangesOnly.trans {ps : List Part} {s t u : State} (h : s.ChangesOnly ps t) (k : t.ChangesOnly ps u) :
    s.ChangesOnly ps u :=
  ⟨k.pending.trans h.pending, h.later.trans k.later, Nat.le_trans h.notBack k.notBack,
    fun e => ⟨(k.time e).1.trans (h.time e).1, (k.time e).2.trans (h.time e).2⟩,
    fun e => (k.free e).trans (h.free e),
    fun e => (k.heads e).trans (h.heads e),
    fun e => (k.tiles e).trans (h.tiles e),
    fun e => (k.ports e).trans (h.ports e),
    fun e => (k.sets e).trans (h.sets e),
    fun e => (k.atria e).trans (h.atria e),
    fun e => (k.flashes e).trans (h.flashes e),
    fun e => (k.boot e).trans (h.boot e),
    fun e => (k.pkg e).trans (h.pkg e),
    fun e => (k.pins e).trans (h.pins e),
    fun e => (k.fuses e).trans (h.fuses e),
    fun e => (k.smb e).trans (h.smb e),
    fun e => (k.shadows e).trans (h.shadows e)⟩

/-- The list of parts may be taken longer. -/
theorem State.ChangesOnly.mono {ps qs : List Part} {s t : State} (h : s.ChangesOnly ps t) (k : ps ⊆ qs) :
    s.ChangesOnly qs t :=
  ⟨h.pending, h.later, h.notBack, fun e => h.time fun m => e (k m), fun e => h.free fun m => e (k m), fun e => h.heads fun m => e (k m), fun e => h.tiles fun m => e (k m), fun e => h.ports fun m => e (k m), fun e => h.sets fun m => e (k m), fun e => h.atria fun m => e (k m), fun e => h.flashes fun m => e (k m), fun e => h.boot fun m => e (k m), fun e => h.pkg fun m => e (k m), fun e => h.pins fun m => e (k m), fun e => h.fuses fun m => e (k m), fun e => h.smb fun m => e (k m), fun e => h.shadows fun m => e (k m)⟩

theorem State.ChangesOnly.same_head {ps : List Part} {s t : State} (k : s.ChangesOnly ps t) (hp : Part.heads ∉ ps)
    (j : Fin 32) : t.head j = s.head j := congrArg (fun v => v[j]) (k.heads hp)

theorem State.ChangesOnly.same_tile {ps : List Part} {s t : State} (k : s.ChangesOnly ps t) (hp : Part.tiles ∉ ps)
    (j : Fin 8) : t.tile j = s.tile j := congrArg (fun v => v[j]) (k.tiles hp)

theorem State.ChangesOnly.same_port {ps : List Part} {s t : State} (k : s.ChangesOnly ps t) (hp : Part.ports ∉ ps)
    (j : Fin 16) : t.port j = s.port j := congrArg (fun v => v[j]) (k.ports hp)

theorem State.ChangesOnly.same_aset {ps : List Part} {s t : State} (k : s.ChangesOnly ps t) (hp : Part.sets ∉ ps)
    (j : Fin 8) : t.aset j = s.aset j := congrArg (fun v => v[j]) (k.sets hp)

theorem State.ChangesOnly.same_atrium {ps : List Part} {s t : State} (k : s.ChangesOnly ps t) (hp : Part.atria ∉ ps)
    (j : Fin 2) : t.atrium j = s.atrium j := congrArg (fun v => v[j]) (k.atria hp)

theorem State.ChangesOnly.same_flash {ps : List Part} {s t : State} (k : s.ChangesOnly ps t) (hp : Part.flashes ∉ ps)
    (j : Fin 2) : t.flash j = s.flash j := congrArg (fun v => v[j]) (k.flashes hp)

/-- A change of some parts by an update of the record. -/
theorem State.ChangesOnly.record {ps : List Part} {s a : State} {x_heads : Vector Head 32} {x_tiles : Vector Tile 8} {x_ports : Vector PortSt 16} {x_sets : Vector ASet 8} {x_atria : Vector Atrium 2} {x_flashes : Vector FlashSt 2} {x_boot : BootSt} {x_pkg : PkgSt} {x_smb : SmbSt} {x_shadows : List Shadow} {x_free : Nat}
    (h : s.ChangesOnly ps a)
    (k_heads : x_heads = a.heads ∨ Part.heads ∈ ps)
    (k_tiles : x_tiles = a.tiles ∨ Part.tiles ∈ ps)
    (k_ports : x_ports = a.ports ∨ Part.ports ∈ ps)
    (k_sets : x_sets = a.sets ∨ Part.sets ∈ ps)
    (k_atria : x_atria = a.atria ∨ Part.atria ∈ ps)
    (k_flashes : x_flashes = a.flashes ∨ Part.flashes ∈ ps)
    (k_boot : x_boot = a.boot ∨ Part.boot ∈ ps)
    (k_pkg : x_pkg = a.pkg ∨ Part.pkg ∈ ps)
    (k_smb : x_smb = a.smb ∨ Part.smb ∈ ps)
    (k_shadows : x_shadows = a.shadows ∨ Part.shadows ∈ ps)
    (k_free : x_free = a.freeCount ∨ Part.free ∈ ps) (k_pins : x_pkg.pins = a.pkg.pins ∨ Part.pins ∈ ps) :
    s.ChangesOnly ps
      { cycle := a.cycle
        turn := a.turn
        freeCount := x_free
        heads := x_heads
        tiles := x_tiles
        ports := x_ports
        sets := x_sets
        atria := x_atria
        flashes := x_flashes
        boot := x_boot
        pkg := x_pkg
        fuses := a.fuses
        smb := x_smb
        shadows := x_shadows
        pending := a.pending } :=
  ⟨h.pending, h.later, h.notBack, h.time, fun e => (k_free.resolve_right e).trans (h.free e),
    fun e => (k_heads.resolve_right e).trans (h.heads e),
    fun e => (k_tiles.resolve_right e).trans (h.tiles e),
    fun e => (k_ports.resolve_right e).trans (h.ports e),
    fun e => (k_sets.resolve_right e).trans (h.sets e),
    fun e => (k_atria.resolve_right e).trans (h.atria e),
    fun e => (k_flashes.resolve_right e).trans (h.flashes e),
    fun e => (k_boot.resolve_right e).trans (h.boot e),
    fun e => (k_pkg.resolve_right e).trans (h.pkg e),
    fun e => (k_pins.resolve_right e).trans (h.pins e), h.fuses,
    fun e => (k_smb.resolve_right e).trans (h.smb e),
    fun e => (k_shadows.resolve_right e).trans (h.shadows e)⟩

theorem PkgSt.pins_alert (x : PkgSt) (b : Bool) : PkgSt.pins { x with alertN := b } = x.pins := rfl

theorem State.ChangesOnly.ite {ps : List Part} {s t u : State} {c : Prop} [Decidable c] (h : s.ChangesOnly ps t)
    (k : s.ChangesOnly ps u) : s.ChangesOnly ps (if c then t else u) := by split <;> assumption

theorem State.ChangesOnly.foldl {ps : List Part} {α : Type} {s t : State} {f : State → α → State} {l : List α}
    (h : s.ChangesOnly ps t) (k : ∀ u a, s.ChangesOnly ps u → s.ChangesOnly ps (f u a)) :
    s.ChangesOnly ps (l.foldl f t) := by
  induction l generalizing t with
  | nil => exact h
  | cons a l ih => exact ih (k t a h)

theorem State.ChangesOnly.ite₂ {ps : List Part} {α : Type} {s : State} {t u : α × State} {c : Prop} [Decidable c]
    (h : s.ChangesOnly ps t.2) (k : s.ChangesOnly ps u.2) : s.ChangesOnly ps (if c then t else u).2 := by
  split <;> assumption

theorem State.ChangesOnly.pair {ps : List Part} {α : Type} {s t : State} {a : α} (h : s.ChangesOnly ps t) :
    s.ChangesOnly ps (a, t).2 := h

theorem State.ChangesOnly.ofEq {ps : List Part} {α : Type} {s t : State} {a : α} {p : α × State} (e : p = (a, t))
    (h : s.ChangesOnly ps p.2) : s.ChangesOnly ps t := by rw [e] at h; exact h

theorem State.ChangesOnly.foldl₂ {ps : List Part} {α β : Type} {s : State} {t : β × State} {f : β × State → α → β × State}
    {l : List α} (h : s.ChangesOnly ps t.2) (k : ∀ u a, s.ChangesOnly ps u.2 → s.ChangesOnly ps (f u a).2) :
    s.ChangesOnly ps (l.foldl f t).2 := by
  induction l generalizing t with
  | nil => exact h
  | cons a l ih => exact ih (k t a h)

theorem State.ChangesOnly.fst {ps : List Part} {α : Type} {s t : State} {a : α} (h : s.ChangesOnly ps t) :
    s.ChangesOnly ps (t, a).1 := h

theorem State.ChangesOnly.ofEq₁ {ps : List Part} {α : Type} {s t : State} {a : α} {p : State × α} (e : p = (t, a))
    (h : s.ChangesOnly ps p.1) : s.ChangesOnly ps t := by rw [e] at h; exact h

theorem State.ChangesOnly.ite₁ {ps : List Part} {α : Type} {s : State} {t u : State × α} {c : Prop} [Decidable c]
    (h : s.ChangesOnly ps t.1) (k : s.ChangesOnly ps u.1) : s.ChangesOnly ps (if c then t else u).1 := by
  split <;> assumption

theorem State.ChangesOnly.foldl₁ {ps : List Part} {α β : Type} {s : State} {t : State × β} {f : State × β → α → State × β}
    {l : List α} (h : s.ChangesOnly ps t.1) (k : ∀ u a, s.ChangesOnly ps u.1 → s.ChangesOnly ps (f u a).1) :
    s.ChangesOnly ps (l.foldl f t).1 := by
  induction l generalizing t with
  | nil => exact h
  | cons a l ih => exact ih (k t a h)

theorem State.setHead_changes {ps : List Part} (hm : ([.heads] : List Part) ⊆ ps)
    {s₀ : State}  (h : Fin 32) (x : Head) {s : State} (hs : s₀.ChangesOnly ps s) :
    s₀.ChangesOnly ps (State.setHead s h x) := by
  unfold State.setHead
  refine State.ChangesOnly.record ?_
          (.inr (hm (by decide))) (.inl rfl) (.inl rfl) (.inl rfl) (.inl rfl) (.inl rfl) (.inl rfl) (.inl rfl) (.inl rfl) (.inl rfl) (.inl rfl) (.inl rfl)
  exact hs

theorem State.onHead_changes {ps : List Part} (hm : ([.heads] : List Part) ⊆ ps)
    {s₀ : State}  (h : Fin 32) (f : Head → Head) {s : State} (hs : s₀.ChangesOnly ps s) :
    s₀.ChangesOnly ps (State.onHead s h f) := by
  unfold State.onHead
  apply State.setHead_changes (List.Subset.trans (by decide) hm)
  exact hs

theorem State.setTile_changes {ps : List Part} (hm : ([.tiles] : List Part) ⊆ ps)
    {s₀ : State}  (t : Fin 8) (x : Tile) {s : State} (hs : s₀.ChangesOnly ps s) :
    s₀.ChangesOnly ps (State.setTile s t x) := by
  unfold State.setTile
  refine State.ChangesOnly.record ?_
          (.inl rfl) (.inr (hm (by decide))) (.inl rfl) (.inl rfl) (.inl rfl) (.inl rfl) (.inl rfl) (.inl rfl) (.inl rfl) (.inl rfl) (.inl rfl) (.inl rfl)
  exact hs

theorem State.onTile_changes {ps : List Part} (hm : ([.tiles] : List Part) ⊆ ps)
    {s₀ : State}  (t : Fin 8) (f : Tile → Tile) {s : State} (hs : s₀.ChangesOnly ps s) :
    s₀.ChangesOnly ps (State.onTile s t f) := by
  unfold State.onTile
  apply State.setTile_changes (List.Subset.trans (by decide) hm)
  exact hs

theorem State.onPort_changes {ps : List Part} (hm : ([.ports] : List Part) ⊆ ps)
    {s₀ : State}  (p : Fin 16) (f : PortSt → PortSt) {s : State} (hs : s₀.ChangesOnly ps s) :
    s₀.ChangesOnly ps (State.onPort s p f) := by
  unfold State.onPort
  refine State.ChangesOnly.record ?_
          (.inl rfl) (.inl rfl) (.inr (hm (by decide))) (.inl rfl) (.inl rfl) (.inl rfl) (.inl rfl) (.inl rfl) (.inl rfl) (.inl rfl) (.inl rfl) (.inl rfl)
  exact hs

theorem State.onSet_changes {ps : List Part} (hm : ([.sets] : List Part) ⊆ ps)
    {s₀ : State}  (n : Fin 8) (f : ASet → ASet) {s : State} (hs : s₀.ChangesOnly ps s) :
    s₀.ChangesOnly ps (State.onSet s n f) := by
  unfold State.onSet
  refine State.ChangesOnly.record ?_
          (.inl rfl) (.inl rfl) (.inl rfl) (.inr (hm (by decide))) (.inl rfl) (.inl rfl) (.inl rfl) (.inl rfl) (.inl rfl) (.inl rfl) (.inl rfl) (.inl rfl)
  exact hs

theorem State.onAtrium_changes {ps : List Part} (hm : ([.atria] : List Part) ⊆ ps)
    {s₀ : State}  (w : Fin 2) (f : Atrium → Atrium) {s : State} (hs : s₀.ChangesOnly ps s) :
    s₀.ChangesOnly ps (State.onAtrium s w f) := by
  unfold State.onAtrium
  refine State.ChangesOnly.record ?_
          (.inl rfl) (.inl rfl) (.inl rfl) (.inl rfl) (.inr (hm (by decide))) (.inl rfl) (.inl rfl) (.inl rfl) (.inl rfl) (.inl rfl) (.inl rfl) (.inl rfl)
  exact hs

theorem State.onFlash_changes {ps : List Part} (hm : ([.flashes] : List Part) ⊆ ps)
    {s₀ : State}  (f : Fin 2) (g : FlashSt → FlashSt) {s : State} (hs : s₀.ChangesOnly ps s) :
    s₀.ChangesOnly ps (State.onFlash s f g) := by
  unfold State.onFlash
  refine State.ChangesOnly.record ?_
          (.inl rfl) (.inl rfl) (.inl rfl) (.inl rfl) (.inl rfl) (.inr (hm (by decide))) (.inl rfl) (.inl rfl) (.inl rfl) (.inl rfl) (.inl rfl) (.inl rfl)
  exact hs

theorem State.eachHead_changes {ps : List Part}
    {s₀ : State} {f : Fin 32 → State → State} {s : State} (hs : s₀.ChangesOnly ps s)
    (hf : ∀ h u, s₀.ChangesOnly ps u → s₀.ChangesOnly ps (f h u)) : s₀.ChangesOnly ps (s.eachHead f) :=
  State.ChangesOnly.foldl hs fun u h hu => hf h u hu

theorem State.eachTile_changes {ps : List Part}
    {s₀ : State} {f : Fin 8 → State → State} {s : State} (hs : s₀.ChangesOnly ps s)
    (hf : ∀ t u, s₀.ChangesOnly ps u → s₀.ChangesOnly ps (f t u)) : s₀.ChangesOnly ps (s.eachTile f) :=
  State.ChangesOnly.foldl hs fun u t hu => hf t u hu

theorem State.onPkg_changes {ps : List Part} (hm : ([.atria] : List Part) ⊆ ps)
    {s₀ : State}  (w : Fin 2) (f : RegFile → RegFile) {s : State} (hs : s₀.ChangesOnly ps s) :
    s₀.ChangesOnly ps (State.onPkg s w f) := by
  unfold State.onPkg
  apply State.ChangesOnly.ite
  · apply State.onAtrium_changes (List.Subset.trans (by decide) hm)
    exact hs
  · apply State.onAtrium_changes (List.Subset.trans (by decide) hm)
    apply State.onAtrium_changes (List.Subset.trans (by decide) hm)
    exact hs

theorem State.pset_changes {ps : List Part} (hm : ([.atria] : List Part) ⊆ ps)
    {s₀ : State}  (w : Fin 2) (f : Fld) {s : State} (hs : s₀.ChangesOnly ps s) :
    s₀.ChangesOnly ps (State.pset s w f) := by
  unfold State.pset
  apply State.onPkg_changes (List.Subset.trans (by decide) hm)
  exact hs

theorem State.advance_changes {ps : List Part} (hm : ([.time, .tiles] : List Part) ⊆ ps)
    {s₀ : State} (n : ℕ)  {s : State} (hs : s₀.ChangesOnly ps s) :
    s₀.ChangesOnly ps (State.advance n s) := by
  exact ⟨hs.pending, hs.later, Nat.le_trans hs.notBack (Nat.le_add_right _ _), fun e => absurd (hm (by decide)) e,
    hs.free, hs.heads, fun e => absurd (hm (by decide)) e, hs.ports, hs.sets, hs.atria, hs.flashes, hs.boot, hs.pkg, hs.pins, hs.fuses,
    hs.smb, hs.shadows⟩

theorem State.turn_changes {ps : List Part} (hm : ([.time, .tiles] : List Part) ⊆ ps)
    {s₀ : State} (k : ℕ) {s : State} (hs : s₀.ChangesOnly ps s) : s₀.ChangesOnly ps { s with turn := k } :=
  ⟨hs.pending, hs.later, hs.notBack, fun e => absurd (hm (by decide)) e, hs.free, hs.heads, hs.tiles, hs.ports, hs.sets,
    hs.atria, hs.flashes, hs.boot, hs.pkg, hs.pins, hs.fuses, hs.smb, hs.shadows⟩

theorem State.turnTo_changes {ps : List Part} (hm : ([.time, .tiles] : List Part) ⊆ ps)
    {s₀ : State} (k : ℕ) {s : State} (hs : s₀.ChangesOnly ps s) : s₀.ChangesOnly ps (State.turnTo k s) := by
  unfold State.turnTo
  apply State.ChangesOnly.ite
  · exact State.turn_changes hm k (State.advance_changes hm 1 hs)
  · exact State.turn_changes hm k hs

theorem State.pass_changes {ps : List Part} (hm : ([.time, .tiles] : List Part) ⊆ ps)
    {s₀ : State} (wait : ℕ) {s : State} (hs : s₀.ChangesOnly ps s) : s₀.ChangesOnly ps (State.pass wait s) :=
  State.turn_changes hm 4 (State.advance_changes hm wait hs)

theorem State.refreshWear_changes {ps : List Part} (hm : ([.atria] : List Part) ⊆ ps)
    {s₀ : State} (w : Fin 2) {s : State} (hs : s₀.ChangesOnly ps s) :
    s₀.ChangesOnly ps (State.refreshWear w s) := by
  unfold State.refreshWear
  extract_lets +onlyGivenNames -merge -useContext -lift x1
  apply State.ChangesOnly.ite
  · apply State.onPkg_changes (List.Subset.trans (by decide) hm)
    apply State.pset_changes (List.Subset.trans (by decide) hm)
    exact hs
  · exact hs

theorem State.noteWear_changes {ps : List Part} (hm : ([.atria] : List Part) ⊆ ps)
    {s₀ : State} (t : Fin 8) (w : ℕ) {s : State} (hs : s₀.ChangesOnly ps s) :
    s₀.ChangesOnly ps (State.noteWear s t w) := by
  unfold State.noteWear
  extract_lets +onlyGivenNames -merge -useContext -lift x1
  apply State.ChangesOnly.ite
  · apply State.refreshWear_changes (List.Subset.trans (by decide) hm)
    exact hs
  · exact hs

theorem State.selvWrite_changes {ps : List Part} (hm : ([.tiles, .atria] : List Part) ⊆ ps)
    {s₀ : State}  (t : Fin 8) (w : ℕ) (v : Sys2Proof.DWord) {s : State} (hs : s₀.ChangesOnly ps s) :
    s₀.ChangesOnly ps (State.selvWrite s t w v) := by
  unfold State.selvWrite
  apply State.ChangesOnly.ite
  · apply State.pset_changes (List.Subset.trans (by decide) hm)
    exact hs
  · apply State.noteWear_changes (List.Subset.trans (by decide) hm)
    apply State.onTile_changes (List.Subset.trans (by decide) hm)
    exact hs

theorem State.selvWrites_changes {ps : List Part} (hm : ([.tiles, .atria] : List Part) ⊆ ps)
    {s₀ : State}  (t : Fin 8) (w : ℕ) (x3 : List Sys2Proof.DWord) {s : State} (hs : s₀.ChangesOnly ps s) :
    s₀.ChangesOnly ps (State.selvWrites s t w x3) := by
  induction x3 generalizing s w with
  | nil => exact hs
  | cons v l ih => exact ih _ (State.selvWrite_changes (List.Subset.trans (by decide) hm) _ _ _ hs)

theorem State.keep_changes {ps : List Part} (hm : ([.tiles, .atria] : List Part) ⊆ ps)
    {s₀ : State}  (t : Fin 8) (a : ℕ) {s : State} (hs : s₀.ChangesOnly ps s) :
    s₀.ChangesOnly ps (State.keep s t a) := by
  unfold State.keep
  split
  · exact hs
  · apply State.noteWear_changes (List.Subset.trans (by decide) hm)
    apply State.onTile_changes (List.Subset.trans (by decide) hm)
    exact hs

theorem State.keepPkg_changes {ps : List Part} (hm : ([.tiles, .atria] : List Part) ⊆ ps)
    {s₀ : State}  (w : Fin 2) (a : ℕ) {s : State} (hs : s₀.ChangesOnly ps s) :
    s₀.ChangesOnly ps (State.keepPkg s w a) := by
  unfold State.keepPkg
  apply State.ChangesOnly.ite
  · apply State.keep_changes (List.Subset.trans (by decide) hm)
    exact hs
  · apply State.keep_changes (List.Subset.trans (by decide) hm)
    apply State.keep_changes (List.Subset.trans (by decide) hm)
    exact hs

theorem State.pw_changes {ps : List Part} (hm : ([.tiles, .atria] : List Part) ⊆ ps)
    {s₀ : State}  (w : Fin 2) (f : Fld) (v : ℕ) {s : State} (hs : s₀.ChangesOnly ps s) :
    s₀.ChangesOnly ps (State.pw s w f v) := by
  unfold State.pw
  apply State.ChangesOnly.ite
  · apply State.ChangesOnly.ite
    · apply State.pset_changes (List.Subset.trans (by decide) hm)
      exact hs
    · apply State.keepPkg_changes (List.Subset.trans (by decide) hm)
      apply State.onPkg_changes (List.Subset.trans (by decide) hm)
      exact hs
  · apply State.onPkg_changes (List.Subset.trans (by decide) hm)
    exact hs

theorem State.noteSelvRead_changes {ps : List Part} (hm : ([.atria] : List Part) ⊆ ps)
    {s₀ : State}  (t : Fin 8) (w : ℕ) {s : State} (hs : s₀.ChangesOnly ps s) :
    s₀.ChangesOnly ps (State.noteSelvRead s t w) := by
  unfold State.noteSelvRead
  extract_lets +onlyGivenNames -merge -useContext -lift x1
  extract_lets +onlyGivenNames -merge -useContext -lift x2
  apply State.ChangesOnly.ite
  · apply State.onPkg_changes (List.Subset.trans (by decide) hm)
    exact hs
  · apply State.ChangesOnly.ite
    · apply State.onPkg_changes (List.Subset.trans (by decide) hm)
      exact hs
    · exact hs

theorem State.writeRecord_changes {ps : List Part} (hm : ([.tiles, .atria] : List Part) ⊆ ps)
    {s₀ : State}  (l : Fin 8) (r : LogRec) {s : State} (hs : s₀.ChangesOnly ps s) :
    s₀.ChangesOnly ps (State.writeRecord s l r) := by
  unfold State.writeRecord
  extract_lets +onlyGivenNames -merge -useContext -lift x1
  extract_lets +onlyGivenNames -merge -useContext -lift x2
  extract_lets +onlyGivenNames -merge -useContext -lift x3
  extract_lets +onlyGivenNames -merge -useContext -lift x4
  extract_lets +onlyGivenNames -merge -useContext -lift x5
  apply State.ChangesOnly.ite
  · apply State.onPkg_changes (List.Subset.trans (by decide) hm)
    apply State.pset_changes (List.Subset.trans (by decide) hm)
    exact hs
  · apply State.ChangesOnly.ite
    · extract_lets +onlyGivenNames -merge -useContext -lift x6
      split
      · exact hs
      · apply State.onTile_changes (List.Subset.trans (by decide) hm)
        apply State.selvWrite_changes (List.Subset.trans (by decide) hm)
        exact hs
    · extract_lets +onlyGivenNames -merge -useContext -lift x7
      extract_lets +onlyGivenNames -merge -useContext -lift x8
      extract_lets +onlyGivenNames -merge -useContext -lift x9
      have hx9 : s₀.ChangesOnly ps x9 := by
        unfold x9
        apply State.selvWrites_changes (List.Subset.trans (by decide) hm)
        apply State.selvWrite_changes (List.Subset.trans (by decide) hm)
        exact hs
      extract_lets +onlyGivenNames -merge -useContext -lift x10
      have hx10 : s₀.ChangesOnly ps x10 := by
        unfold x10
        apply State.selvWrite_changes (List.Subset.trans (by decide) hm)
        exact hx9
      extract_lets +onlyGivenNames -merge -useContext -lift x11
      have hx11 : s₀.ChangesOnly ps x11 := by
        unfold x11
        apply State.onTile_changes (List.Subset.trans (by decide) hm)
        exact hx10
      apply State.onPkg_changes (List.Subset.trans (by decide) hm)
      exact hx11

theorem State.logIn_changes {ps : List Part} (hm : ([.tiles, .atria] : List Part) ⊆ ps)
    {s₀ : State} (l : Fin 8) (r : LogRec) {s : State} (hs : s₀.ChangesOnly ps s) :
    s₀.ChangesOnly ps (State.logIn s l r) := by
  unfold State.logIn
  apply State.ChangesOnly.ite
  · apply State.writeRecord_changes (List.Subset.trans (by decide) hm)
    exact hs
  · apply State.onTile_changes (List.Subset.trans (by decide) hm)
    exact hs

theorem State.log_changes {ps : List Part} (hm : ([.tiles, .atria] : List Part) ⊆ ps)
    {s₀ : State} (t : Fin 8) (code : ℕ) (unit : ℕ) (arg0 : ℕ) (arg1 : ℕ) {s : State} (hs : s₀.ChangesOnly ps s) :
    s₀.ChangesOnly ps (State.log s t code unit arg0 arg1) := by
  unfold State.log
  apply State.logIn_changes (List.Subset.trans (by decide) hm)
  exact hs

theorem State.takeFree_changes {ps : List Part} (hm : ([.free] : List Part) ⊆ ps)
    {s₀ : State}  {s : State} (hs : s₀.ChangesOnly ps s) :
    s₀.ChangesOnly ps (State.takeFree s) := by
  unfold State.takeFree
  refine State.ChangesOnly.record ?_
          (.inl rfl) (.inl rfl) (.inl rfl) (.inl rfl) (.inl rfl) (.inl rfl) (.inl rfl) (.inl rfl) (.inl rfl) (.inl rfl) (.inr (hm (by decide))) (.inl rfl)
  exact hs

theorem State.routeFails_changes {ps : List Part} (hm : ([.tiles] : List Part) ⊆ ps)
    {s₀ : State} (a : Fin 8) (b : Fin 8) {s : State} (hs : s₀.ChangesOnly ps s) :
    s₀.ChangesOnly ps (State.routeFails a b s) := by
  unfold State.routeFails
  split
  · apply State.onTile_changes (List.Subset.trans (by decide) hm)
    exact hs
  · exact hs

theorem State.onLink_changes {ps : List Part} (hm : ([.tiles] : List Part) ⊆ ps)
    {s₀ : State} (t : Fin 8) (k : Fin 3) (f : WarpLink → WarpLink) {s : State} (hs : s₀.ChangesOnly ps s) :
    s₀.ChangesOnly ps (State.onLink s t k f) := by
  unfold State.onLink
  apply State.onTile_changes (List.Subset.trans (by decide) hm)
  exact hs

theorem State.queueFlits_changes {ps : List Part} (hm : ([.tiles] : List Part) ⊆ ps)
    {s₀ : State} (a : Fin 8) (b : Fin 8) (v : Fin 4) (k : Fin 3) (p : List (Fin 8)) (n : ℕ) {s : State} (hs : s₀.ChangesOnly ps s) :
    s₀.ChangesOnly ps (State.queueFlits a b v k p n s) := by
  unfold State.queueFlits
  extract_lets +onlyGivenNames -merge -useContext -lift x1
  apply State.onTile_changes (List.Subset.trans (by decide) hm)
  apply State.onLink_changes (List.Subset.trans (by decide) hm)
  exact hs

theorem State.sendPacket_changes {ps : List Part} (hm : ([.tiles] : List Part) ⊆ ps)
    {s₀ : State} (a : Fin 8) (b : Fin 8) (v : Fin 4) (n : ℕ) {s : State} (hs : s₀.ChangesOnly ps s) :
    s₀.ChangesOnly ps (State.sendPacket s a b v n) := by
  unfold State.sendPacket
  apply State.ChangesOnly.ite
  · exact hs
  · split
    · apply State.routeFails_changes (List.Subset.trans (by decide) hm)
      exact hs
    · split
      · exact hs
      · extract_lets +onlyGivenNames -merge -useContext -lift x1
        have hx1 : s₀.ChangesOnly ps x1 := by
          unfold x1
          apply State.ChangesOnly.ite
          · apply State.onTile_changes (List.Subset.trans (by decide) hm)
            exact hs
          · exact hs
        apply State.queueFlits_changes (List.Subset.trans (by decide) hm)
        exact hx1

theorem State.noteUe_changes {ps : List Part} (hm : ([.tiles, .atria] : List Part) ⊆ ps)
    {s₀ : State} (t : Fin 8) (k : MemKind) (addr : ℕ) (src : UeSrc)  {s : State} (hs : s₀.ChangesOnly ps s) :
    s₀.ChangesOnly ps (State.noteUe t k addr src s) := by
  unfold State.noteUe
  extract_lets +onlyGivenNames -merge -useContext -lift x1
  extract_lets +onlyGivenNames -merge -useContext -lift x2
  have hx2 : s₀.ChangesOnly ps x2 := by
    unfold x2
    apply State.onTile_changes (List.Subset.trans (by decide) hm)
    exact hs
  extract_lets +onlyGivenNames -merge -useContext -lift x3
  have hx3 : s₀.ChangesOnly ps x3 := by
    unfold x3
    apply State.ChangesOnly.ite
    · exact hx2
    · apply State.onTile_changes (List.Subset.trans (by decide) hm)
      exact hx2
  apply State.log_changes (List.Subset.trans (by decide) hm)
  exact hx3

theorem State.poison_changes {ps : List Part} (hm : ([.tiles] : List Part) ⊆ ps)
    {s₀ : State} (t : Fin 8) (b : ℕ)  {s : State} (hs : s₀.ChangesOnly ps s) :
    s₀.ChangesOnly ps (State.poison t b s) := by
  unfold State.poison
  extract_lets +onlyGivenNames -merge -useContext -lift x1
  apply State.ChangesOnly.ite
  · exact hs
  · apply State.onTile_changes (List.Subset.trans (by decide) hm)
    exact hs

theorem State.noteStack_changes {ps : List Part} (hm : ([.tiles, .atria] : List Part) ⊆ ps)
    {s₀ : State} (t : Fin 8) (a : ℕ) (n : ℕ) (src : UeSrc)  {s : State} (hs : s₀.ChangesOnly ps s) :
    s₀.ChangesOnly ps (State.noteStack t a n src s) := by
  unfold State.noteStack
  extract_lets +onlyGivenNames -merge -useContext -lift x1
  extract_lets +onlyGivenNames -merge -useContext -lift x2
  extract_lets +onlyGivenNames -merge -useContext -lift x3
  have hx3 : s₀.ChangesOnly ps x3 := by
    unfold x3
    apply State.ChangesOnly.foldl
    · exact hs
    · intro _ _ hu4
      apply State.poison_changes (List.Subset.trans (by decide) hm)
      apply State.noteUe_changes (List.Subset.trans (by decide) hm)
      exact hu4
  apply State.ChangesOnly.foldl
  · exact hx3
  · intro _ _ hu5
    apply State.onTile_changes (List.Subset.trans (by decide) hm)
    exact hu5

theorem State.stackTouch_changes {ps : List Part} (hm : ([.tiles, .atria] : List Part) ⊆ ps)
    {s₀ : State} (t : Fin 8) (a : ℕ) (n : ℕ) (src : UeSrc)  {s : State} (hs : s₀.ChangesOnly ps s) :
    s₀.ChangesOnly ps (State.stackTouch t a n src s) := by
  unfold State.stackTouch
  apply State.ChangesOnly.ite
  · apply State.noteStack_changes (List.Subset.trans (by decide) hm)
    exact hs
  · apply State.onTile_changes (List.Subset.trans (by decide) hm)
    exact hs

theorem State.stackMerge_changes {ps : List Part} (hm : ([.tiles, .atria] : List Part) ⊆ ps)
    {s₀ : State} (t : Fin 8) (a : ℕ) (l : List Sys2Proof.Byte)  {s : State} (hs : s₀.ChangesOnly ps s) :
    s₀.ChangesOnly ps (State.stackMerge t a l s) := by
  unfold State.stackMerge
  extract_lets +onlyGivenNames -merge -useContext -lift x1
  extract_lets +onlyGivenNames -merge -useContext -lift x2
  have hx2 : s₀.ChangesOnly ps x2 := by
    unfold x2
    apply State.ChangesOnly.foldl
    · exact hs
    · intro _ _ hu3
      apply State.noteStack_changes (List.Subset.trans (by decide) hm)
      exact hu3
  apply State.onTile_changes (List.Subset.trans (by decide) hm)
  exact hx2

theorem State.unstamp_changes {ps : List Part} (hm : ([.tiles] : List Part) ⊆ ps)
    {s₀ : State} (t : Fin 8) (a : ℕ) (n : ℕ)  {s : State} (hs : s₀.ChangesOnly ps s) :
    s₀.ChangesOnly ps (State.unstamp t a n s) := by
  unfold State.unstamp
  apply State.ChangesOnly.foldl
  · exact hs
  · intro _ _ hu1
    apply State.onTile_changes (List.Subset.trans (by decide) hm)
    exact hu1

theorem State.stackWrite_changes {ps : List Part} (hm : ([.tiles, .atria] : List Part) ⊆ ps)
    {s₀ : State} (t : Fin 8) (a : ℕ) (l : List Sys2Proof.Byte)  {s : State} (hs : s₀.ChangesOnly ps s) :
    s₀.ChangesOnly ps (State.stackWrite t a l s) := by
  unfold State.stackWrite
  apply State.ChangesOnly.ite
  · apply State.unstamp_changes (List.Subset.trans (by decide) hm)
    apply State.stackMerge_changes (List.Subset.trans (by decide) hm)
    exact hs
  · apply State.onTile_changes (List.Subset.trans (by decide) hm)
    exact hs

theorem State.stamp_changes {ps : List Part} (hm : ([.tiles] : List Part) ⊆ ps)
    {s₀ : State} (t : Fin 8) (b : ℕ)  {s : State} (hs : s₀.ChangesOnly ps s) :
    s₀.ChangesOnly ps (State.stamp t b s) := by
  unfold State.stamp
  apply State.onTile_changes (List.Subset.trans (by decide) hm)
  exact hs

theorem State.stackStamp_changes {ps : List Part} (hm : ([.tiles, .atria] : List Part) ⊆ ps)
    {s₀ : State} (t : Fin 8) (a : ℕ) (l : List Sys2Proof.Byte)  {s : State} (hs : s₀.ChangesOnly ps s) :
    s₀.ChangesOnly ps (State.stackStamp t a l s) := by
  unfold State.stackStamp
  apply State.ChangesOnly.ite
  · extract_lets +onlyGivenNames -merge -useContext -lift x1
    have hx1 : s₀.ChangesOnly ps x1 := by
      unfold x1
      apply State.unstamp_changes (List.Subset.trans (by decide) hm)
      apply State.stackMerge_changes (List.Subset.trans (by decide) hm)
      exact hs
    apply State.ChangesOnly.foldl
    · exact hx1
    · intro _ _ hu2
      apply State.ChangesOnly.ite
      · apply State.stamp_changes (List.Subset.trans (by decide) hm)
        exact hu2
      · exact hu2
  · apply State.onTile_changes (List.Subset.trans (by decide) hm)
    exact hs

theorem State.checkBlock_changes {ps : List Part} (hm : ([.tiles, .atria] : List Part) ⊆ ps)
    {s₀ : State} (t : Fin 8) (b : ℕ) (src : UeSrc)  {s : State} (hs : s₀.ChangesOnly ps s) :
    s₀.ChangesOnly ps (State.checkBlock t b src s).2 := by
  unfold State.checkBlock
  apply State.ChangesOnly.ite₂
  · apply State.ChangesOnly.pair
    apply State.onTile_changes (List.Subset.trans (by decide) hm)
    exact hs
  · extract_lets +onlyGivenNames -merge -useContext -lift x1
    extract_lets +onlyGivenNames -merge -useContext -lift x2
    extract_lets +onlyGivenNames -merge -useContext -lift x3
    have hx3 : s₀.ChangesOnly ps x3 := by
      unfold x3
      apply State.noteStack_changes (List.Subset.trans (by decide) hm)
      exact hs
    apply State.ChangesOnly.ite₂
    · apply State.ChangesOnly.pair
      exact hx3
    · apply State.ChangesOnly.ite₂
      · apply State.ChangesOnly.pair
        exact hx3
      · apply State.ChangesOnly.ite₂
        · apply State.ChangesOnly.pair
          exact hx3
        · apply State.ChangesOnly.ite₂
          · apply State.ChangesOnly.pair
            exact hx3
          · apply State.ChangesOnly.pair
            apply State.poison_changes (List.Subset.trans (by decide) hm)
            exact hx3

theorem State.checkInfo_changes {ps : List Part} (hm : ([.tiles, .atria] : List Part) ⊆ ps)
    {s₀ : State} (t : Fin 8) (addr : ℕ) (src : UeSrc)  {s : State} (hs : s₀.ChangesOnly ps s) :
    s₀.ChangesOnly ps (State.checkInfo t addr src s).2 := by
  unfold State.checkInfo
  apply State.ChangesOnly.ite₂
  · apply State.ChangesOnly.pair
    exact hs
  · extract_lets +onlyGivenNames -merge -useContext -lift x1
    extract_lets +onlyGivenNames -merge -useContext -lift x2
    have hx2 : s₀.ChangesOnly ps x2 := by
      unfold x2
      apply State.stackTouch_changes (List.Subset.trans (by decide) hm)
      exact hs
    apply State.ChangesOnly.foldl₂
    · apply State.ChangesOnly.pair
      exact hx2
    · intro _ _ hu3
      extract_lets +onlyGivenNames -merge -useContext -lift x4
      have hx4 : s₀.ChangesOnly ps x4.2 := by
        unfold x4
        apply State.checkBlock_changes (List.Subset.trans (by decide) hm)
        exact hu3
      apply State.ChangesOnly.pair
      exact hx4

theorem State.pput_changes {ps : List Part} (hm : ([.tiles] : List Part) ⊆ ps)
    {s₀ : State}  (p : Fin 16) (f : ℕ → Fld) (v : ℕ) {s : State} (hs : s₀.ChangesOnly ps s) :
    s₀.ChangesOnly ps (State.pput s p f v) := by
  unfold State.pput
  apply State.onTile_changes (List.Subset.trans (by decide) hm)
  exact hs

theorem State.pflag_changes {ps : List Part} (hm : ([.tiles] : List Part) ⊆ ps)
    {s₀ : State}  (p : Fin 16) (f : ℕ → Fld) {s : State} (hs : s₀.ChangesOnly ps s) :
    s₀.ChangesOnly ps (State.pflag s p f) := by
  unfold State.pflag
  apply State.onTile_changes (List.Subset.trans (by decide) hm)
  exact hs

theorem State.pbump_changes {ps : List Part} (hm : ([.tiles] : List Part) ⊆ ps)
    {s₀ : State}  (p : Fin 16) (f : ℕ → Fld) {s : State} (hs : s₀.ChangesOnly ps s) :
    s₀.ChangesOnly ps (State.pbump s p f) := by
  unfold State.pbump
  apply State.onTile_changes (List.Subset.trans (by decide) hm)
  exact hs

theorem State.pkgPut_changes {ps : List Part} (hm : ([.tiles, .atria] : List Part) ⊆ ps)
    {s₀ : State}  (f : Fld) (v : ℕ) {s : State} (hs : s₀.ChangesOnly ps s) :
    s₀.ChangesOnly ps (State.pkgPut s f v) := by
  unfold State.pkgPut
  apply State.pw_changes (List.Subset.trans (by decide) hm)
  apply State.pw_changes (List.Subset.trans (by decide) hm)
  exact hs

theorem State.onCtrl_changes {ps : List Part} (hm : ([.ports] : List Part) ⊆ ps)
    {s₀ : State}  (p : Fin 16) (c : ℕ) (f : Ctrl → Ctrl) {s : State} (hs : s₀.ChangesOnly ps s) :
    s₀.ChangesOnly ps (State.onCtrl s p c f) := by
  unfold State.onCtrl
  apply State.onPort_changes (List.Subset.trans (by decide) hm)
  exact hs

theorem State.refreshPort_changes {ps : List Part} (hm : ([.tiles, .ports] : List Part) ⊆ ps)
    {s₀ : State} (p : Fin 16)  {s : State} (hs : s₀.ChangesOnly ps s) :
    s₀.ChangesOnly ps (State.refreshPort p s) := by
  unfold State.refreshPort
  extract_lets +onlyGivenNames -merge -useContext -lift x1
  extract_lets +onlyGivenNames -merge -useContext -lift x2
  extract_lets +onlyGivenNames -merge -useContext -lift x3
  have hx3 : s₀.ChangesOnly ps x3 := by
    unfold x3
    apply State.pput_changes (List.Subset.trans (by decide) hm)
    apply State.pput_changes (List.Subset.trans (by decide) hm)
    exact hs
  extract_lets +onlyGivenNames -merge -useContext -lift x4
  extract_lets +onlyGivenNames -merge -useContext -lift x5
  extract_lets +onlyGivenNames -merge -useContext -lift x6
  have hx6 : s₀.ChangesOnly ps x6 := by
    unfold x6
    apply State.pput_changes (List.Subset.trans (by decide) hm)
    apply State.pput_changes (List.Subset.trans (by decide) hm)
    exact hx3
  apply State.ChangesOnly.ite
  · apply State.onPort_changes (List.Subset.trans (by decide) hm)
    exact hx6
  · exact hx6

theorem State.refreshPorts_changes {ps : List Part} (hm : ([.tiles, .ports, .atria, .pkg] : List Part) ⊆ ps)
    {s₀ : State}  {s : State} (hs : s₀.ChangesOnly ps s) :
    s₀.ChangesOnly ps (State.refreshPorts s) := by
  unfold State.refreshPorts
  extract_lets +onlyGivenNames -merge -useContext -lift x1
  have hx1 : s₀.ChangesOnly ps x1 := by
    unfold x1
    apply State.ChangesOnly.foldl
    · exact hs
    · intro _ _ hu2
      apply State.refreshPort_changes (List.Subset.trans (by decide) hm)
      exact hu2
  extract_lets +onlyGivenNames -merge -useContext -lift x3
  extract_lets +onlyGivenNames -merge -useContext -lift x4
  have hx4 : s₀.ChangesOnly ps x4 := by
    unfold x4
    apply State.pkgPut_changes (List.Subset.trans (by decide) hm)
    exact hx1
  extract_lets +onlyGivenNames -merge -useContext -lift x5
  refine State.ChangesOnly.record ?_
          (.inl rfl) (.inl rfl) (.inl rfl) (.inl rfl) (.inl rfl) (.inl rfl) (.inl rfl) (.inr (hm (by decide))) (.inl rfl) (.inl rfl) (.inl rfl) (.inl (PkgSt.pins_alert _ _))
  exact hx4

theorem State.post_changes {ps : List Part} (hm : ([.ports] : List Part) ⊆ ps)
    {s₀ : State}  (p : Fin 16) (k : HostCpl) (nsid : ℕ) (lbn : ℕ) {s : State} (hs : s₀.ChangesOnly ps s) :
    s₀.ChangesOnly ps (State.post s p k nsid lbn) := by
  unfold State.post
  extract_lets +onlyGivenNames -merge -useContext -lift x1
  have hx1 : s₀.ChangesOnly ps x1 := by
    unfold x1
    apply State.onPort_changes (List.Subset.trans (by decide) hm)
    exact hs
  apply State.ChangesOnly.ite
  · exact hx1
  · apply State.onCtrl_changes (List.Subset.trans (by decide) hm)
    exact hx1

theorem State.event_changes {ps : List Part} (hm : ([.tiles, .ports, .atria, .pkg] : List Part) ⊆ ps)
    {s₀ : State} (p : Fin 16) (c : ℕ) (ev : ℕ) (nsid : ℕ)  {s : State} (hs : s₀.ChangesOnly ps s) :
    s₀.ChangesOnly ps (State.event p c ev nsid s) := by
  unfold State.event
  split
  · exact hs
  · apply State.ChangesOnly.ite
    · exact hs
    · split
      · apply State.post_changes (List.Subset.trans (by decide) hm)
        apply State.onCtrl_changes (List.Subset.trans (by decide) hm)
        exact hs
      · apply State.refreshPorts_changes (List.Subset.trans (by decide) hm)
        apply State.onCtrl_changes (List.Subset.trans (by decide) hm)
        exact hs

theorem State.eventAll_changes {ps : List Part} (hm : ([.tiles, .ports, .atria, .pkg] : List Part) ⊆ ps)
    {s₀ : State} (ev : ℕ) (nsid : ℕ)  {s : State} (hs : s₀.ChangesOnly ps s) :
    s₀.ChangesOnly ps (State.eventAll ev nsid s) := by
  unfold State.eventAll
  apply State.ChangesOnly.foldl
  · exact hs
  · intro _ _ hu1
    apply State.ChangesOnly.foldl
    · exact hu1
    · intro _ _ hu2
      apply State.event_changes (List.Subset.trans (by decide) hm)
      exact hu2

theorem State.refreshPower_changes {ps : List Part} (hm : ([.tiles, .ports, .atria, .pkg] : List Part) ⊆ ps)
    {s₀ : State} (auto : Bool)  {s : State} (hs : s₀.ChangesOnly ps s) :
    s₀.ChangesOnly ps (State.refreshPower auto s) := by
  unfold State.refreshPower
  split
  · exact hs
  · extract_lets +onlyGivenNames -merge -useContext -lift x1
    apply State.ChangesOnly.ite
    · exact hs
    · extract_lets +onlyGivenNames -merge -useContext -lift x2
      have hx2 : s₀.ChangesOnly ps x2 := by
        unfold x2
        apply State.pkgPut_changes (List.Subset.trans (by decide) hm)
        apply State.pkgPut_changes (List.Subset.trans (by decide) hm)
        exact hs
      apply State.refreshPorts_changes (List.Subset.trans (by decide) hm)
      apply State.ChangesOnly.ite
      · exact hx2
      · apply State.pkgPut_changes (List.Subset.trans (by decide) hm)
        exact hx2

theorem State.safeHead_changes {ps : List Part} (hm : ([.heads, .tiles, .atria] : List Part) ⊆ ps)
    {s₀ : State} (h : Fin 32) (cause : ℕ) {s : State} (hs : s₀.ChangesOnly ps s) :
    s₀.ChangesOnly ps (State.safeHead h cause s) := by
  unfold State.safeHead
  extract_lets +onlyGivenNames -merge -useContext -lift x1
  apply State.ChangesOnly.ite
  · apply State.onHead_changes (List.Subset.trans (by decide) hm)
    exact hs
  · extract_lets +onlyGivenNames -merge -useContext -lift x2
    have hx2 : s₀.ChangesOnly ps x2 := by
      unfold x2
      apply State.onHead_changes (List.Subset.trans (by decide) hm)
      exact hs
    apply State.ChangesOnly.ite
    · exact hx2
    · apply State.log_changes (List.Subset.trans (by decide) hm)
      exact hx2

theorem State.faultHead_changes {ps : List Part} (hm : ([.heads, .tiles, .atria] : List Part) ⊆ ps)
    {s₀ : State} (h : Fin 32) (what : ℕ)  {s : State} (hs : s₀.ChangesOnly ps s) :
    s₀.ChangesOnly ps (State.faultHead h what s) := by
  unfold State.faultHead
  extract_lets +onlyGivenNames -merge -useContext -lift x1
  apply State.ChangesOnly.ite
  · exact hs
  · extract_lets +onlyGivenNames -merge -useContext -lift x2
    have hx2 : s₀.ChangesOnly ps x2 := by
      unfold x2
      apply State.onHead_changes (List.Subset.trans (by decide) hm)
      exact hs
    apply State.log_changes (List.Subset.trans (by decide) hm)
    exact hx2

theorem State.declareStall_changes {ps : List Part} (hm : ([.heads, .tiles, .atria] : List Part) ⊆ ps)
    {s₀ : State} (h : Fin 32) (g : Fin 2)  {s : State} (hs : s₀.ChangesOnly ps s) :
    s₀.ChangesOnly ps (State.declareStall h g s) := by
  unfold State.declareStall
  extract_lets +onlyGivenNames -merge -useContext -lift x1
  extract_lets +onlyGivenNames -merge -useContext -lift x2
  extract_lets +onlyGivenNames -merge -useContext -lift x3
  have hx3 : s₀.ChangesOnly ps x3 := by
    unfold x3
    apply State.onHead_changes (List.Subset.trans (by decide) hm)
    exact hs
  apply State.ChangesOnly.ite
  · apply State.log_changes (List.Subset.trans (by decide) hm)
    exact hx3
  · exact hx3

theorem State.debounce_changes {ps : List Part} (hm : ([.heads, .tiles, .atria] : List Part) ⊆ ps)
    {s₀ : State} (h : Fin 32) (g : Fin 2) (hi : Bool) {s : State} (hs : s₀.ChangesOnly ps s) :
    s₀.ChangesOnly ps (State.debounce h g hi s) := by
  unfold State.debounce
  extract_lets +onlyGivenNames -merge -useContext -lift x1
  extract_lets +onlyGivenNames -merge -useContext -lift x2
  extract_lets +onlyGivenNames -merge -useContext -lift x3
  extract_lets +onlyGivenNames -merge -useContext -lift x4
  have hx4 : s₀.ChangesOnly ps x4 := by
    unfold x4
    apply State.onHead_changes (List.Subset.trans (by decide) hm)
    exact hs
  extract_lets +onlyGivenNames -merge -useContext -lift x5
  extract_lets +onlyGivenNames -merge -useContext -lift x6
  apply State.ChangesOnly.ite
  · apply State.ChangesOnly.ite
    · apply State.ChangesOnly.ite
      · apply State.onHead_changes (List.Subset.trans (by decide) hm)
        exact hx4
      · exact hx4
    · apply State.ChangesOnly.ite
      · apply State.onHead_changes (List.Subset.trans (by decide) hm)
        exact hx4
      · exact hx4
  · apply State.ChangesOnly.ite
    · apply State.log_changes (List.Subset.trans (by decide) hm)
      apply State.onHead_changes (List.Subset.trans (by decide) hm)
      exact hx4
    · exact hx4

theorem State.noteSelvReads_changes {ps : List Part} (hm : ([.atria] : List Part) ⊆ ps)
    {s₀ : State} (t : Fin 8) (base : ℕ) (n : ℕ)  {s : State} (hs : s₀.ChangesOnly ps s) :
    s₀.ChangesOnly ps (State.noteSelvReads t base n s) := by
  unfold State.noteSelvReads
  extract_lets +onlyGivenNames -merge -useContext -lift x1
  apply State.ChangesOnly.foldl
  · exact hs
  · intro _ _ hu2
    apply State.noteSelvRead_changes (List.Subset.trans (by decide) hm)
    exact hu2

theorem State.interpStart_changes {ps : List Part} (hm : ([.heads, .atria] : List Part) ⊆ ps)
    {s₀ : State} (h : Fin 32)  {s : State} (hs : s₀.ChangesOnly ps s) :
    s₀.ChangesOnly ps (State.interpStart h s) := by
  unfold State.interpStart
  extract_lets +onlyGivenNames -merge -useContext -lift x1
  extract_lets +onlyGivenNames -merge -useContext -lift x2
  extract_lets +onlyGivenNames -merge -useContext -lift x3
  extract_lets +onlyGivenNames -merge -useContext -lift x4
  extract_lets +onlyGivenNames -merge -useContext -lift x5
  have hx5 : s₀.ChangesOnly ps x5 := by
    unfold x5
    apply State.noteSelvReads_changes (List.Subset.trans (by decide) hm)
    exact hs
  extract_lets +onlyGivenNames -merge -useContext -lift x6
  extract_lets +onlyGivenNames -merge -useContext -lift x7
  extract_lets +onlyGivenNames -merge -useContext -lift x8
  extract_lets +onlyGivenNames -merge -useContext -lift x9
  extract_lets +onlyGivenNames -merge -useContext -lift x10
  extract_lets +onlyGivenNames -merge -useContext -lift x11
  extract_lets +onlyGivenNames -merge -useContext -lift x12
  extract_lets +onlyGivenNames -merge -useContext -lift x13
  extract_lets +onlyGivenNames -merge -useContext -lift x14
  apply State.onHead_changes (List.Subset.trans (by decide) hm)
  exact hx5

theorem State.calOp_changes {ps : List Part} (hm : ([.heads, .tiles, .atria] : List Part) ⊆ ps)
    {s₀ : State} (h : Fin 32) (op : ℕ) {s : State} (hs : s₀.ChangesOnly ps s) :
    s₀.ChangesOnly ps (State.calOp h op s) := by
  unfold State.calOp
  extract_lets +onlyGivenNames -merge -useContext -lift x1
  extract_lets +onlyGivenNames -merge -useContext -lift x2
  extract_lets +onlyGivenNames -merge -useContext -lift x3
  split
  · apply State.interpStart_changes (List.Subset.trans (by decide) hm)
    exact hs
  · apply State.ChangesOnly.ite
    · apply State.pset_changes (List.Subset.trans (by decide) hm)
      exact hs
    · extract_lets +onlyGivenNames -merge -useContext -lift x4
      extract_lets +onlyGivenNames -merge -useContext -lift x5
      have hx5 : s₀.ChangesOnly ps x5 := by
        unfold x5
        apply State.selvWrite_changes (List.Subset.trans (by decide) hm)
        exact hs
      extract_lets +onlyGivenNames -merge -useContext -lift x6
      extract_lets +onlyGivenNames -merge -useContext -lift x7
      have hx7 : s₀.ChangesOnly ps x7 := by
        unfold x7
        apply State.selvWrites_changes (List.Subset.trans (by decide) hm)
        exact hx5
      apply State.onHead_changes (List.Subset.trans (by decide) hm)
      exact hx7
  · extract_lets +onlyGivenNames -merge -useContext -lift x8
    apply State.selvWrite_changes (List.Subset.trans (by decide) hm)
    exact hs
  · apply State.onHead_changes (List.Subset.trans (by decide) hm)
    exact hs
  · extract_lets +onlyGivenNames -merge -useContext -lift x9
    apply State.onHead_changes (List.Subset.trans (by decide) hm)
    apply State.noteSelvReads_changes (List.Subset.trans (by decide) hm)
    exact hs

theorem State.calRun_changes {ps : List Part} (hm : ([.heads, .tiles, .atria] : List Part) ⊆ ps)
    {s₀ : State} (h : Fin 32) (x1 : ℕ)  {x2 : State} (hs : s₀.ChangesOnly ps x2) :
    s₀.ChangesOnly ps (State.calRun h x1 x2) := by
  induction x1 generalizing x2 with
  | zero => exact hs
  | succ n ih =>
    unfold State.calRun
    dsimp only
    split
    · exact ih (State.calOp_changes (List.Subset.trans (by decide) hm) _ _ (State.onHead_changes (List.Subset.trans (by decide) hm) _ _ hs))
    · exact hs

theorem State.calRequest_changes {ps : List Part} (hm : ([.heads, .tiles, .atria] : List Part) ⊆ ps)
    {s₀ : State} (h : Fin 32) (op : ℕ)  {s : State} (hs : s₀.ChangesOnly ps s) :
    s₀.ChangesOnly ps (State.calRequest h op s) := by
  unfold State.calRequest
  extract_lets +onlyGivenNames -merge -useContext -lift x1
  apply State.ChangesOnly.ite
  · exact hs
  · extract_lets +onlyGivenNames -merge -useContext -lift x2
    have hx2 : s₀.ChangesOnly ps x2 := by
      unfold x2
      apply State.onHead_changes (List.Subset.trans (by decide) hm)
      exact hs
    apply State.calRun_changes (List.Subset.trans (by decide) hm)
    exact hx2

theorem State.calNext_changes {ps : List Part} (hm : ([.heads, .tiles, .atria] : List Part) ⊆ ps)
    {s₀ : State} (h : Fin 32)  {s : State} (hs : s₀.ChangesOnly ps s) :
    s₀.ChangesOnly ps (State.calNext h s) := by
  unfold State.calNext
  extract_lets +onlyGivenNames -merge -useContext -lift x1
  apply State.calRun_changes (List.Subset.trans (by decide) hm)
  apply State.onHead_changes (List.Subset.trans (by decide) hm)
  exact hs

theorem State.commitEnd_changes {ps : List Part} (hm : ([.heads, .tiles, .atria] : List Part) ⊆ ps)
    {s₀ : State} (h : Fin 32)  {s : State} (hs : s₀.ChangesOnly ps s) :
    s₀.ChangesOnly ps (State.commitEnd h s) := by
  unfold State.commitEnd
  apply State.ChangesOnly.ite
  · apply State.calNext_changes (List.Subset.trans (by decide) hm)
    apply State.pset_changes (List.Subset.trans (by decide) hm)
    exact hs
  · extract_lets +onlyGivenNames -merge -useContext -lift x1
    extract_lets +onlyGivenNames -merge -useContext -lift x2
    extract_lets +onlyGivenNames -merge -useContext -lift x3
    extract_lets +onlyGivenNames -merge -useContext -lift x4
    extract_lets +onlyGivenNames -merge -useContext -lift x5
    extract_lets +onlyGivenNames -merge -useContext -lift x6
    have hx6 : s₀.ChangesOnly ps x6 := by
      unfold x6
      apply State.selvWrite_changes (List.Subset.trans (by decide) hm)
      exact hs
    extract_lets +onlyGivenNames -merge -useContext -lift x7
    have hx7 : s₀.ChangesOnly ps x7 := by
      unfold x7
      apply State.selvWrite_changes (List.Subset.trans (by decide) hm)
      exact hx6
    extract_lets +onlyGivenNames -merge -useContext -lift x8
    have hx8 : s₀.ChangesOnly ps x8 := by
      unfold x8
      apply State.keep_changes (List.Subset.trans (by decide) hm)
      exact hx7
    apply State.calNext_changes (List.Subset.trans (by decide) hm)
    apply State.onHead_changes (List.Subset.trans (by decide) hm)
    exact hx8

theorem State.takeDesc_changes {ps : List Part} (hm : ([.heads, .tiles, .atria] : List Part) ⊆ ps)
    {s₀ : State} (h : Fin 32)  {s : State} (hs : s₀.ChangesOnly ps s) :
    s₀.ChangesOnly ps (State.takeDesc h s) := by
  unfold State.takeDesc
  extract_lets +onlyGivenNames -merge -useContext -lift x1
  extract_lets +onlyGivenNames -merge -useContext -lift x2
  extract_lets +onlyGivenNames -merge -useContext -lift x3
  extract_lets +onlyGivenNames -merge -useContext -lift x4
  extract_lets +onlyGivenNames -merge -useContext -lift x5
  have hx5 : s₀.ChangesOnly ps x5 := by
    unfold x5
    apply State.stackTouch_changes (List.Subset.trans (by decide) hm)
    exact hs
  extract_lets +onlyGivenNames -merge -useContext -lift x6
  extract_lets +onlyGivenNames -merge -useContext -lift x7
  extract_lets +onlyGivenNames -merge -useContext -lift x8
  extract_lets +onlyGivenNames -merge -useContext -lift x9
  extract_lets +onlyGivenNames -merge -useContext -lift x10
  have hx10 : s₀.ChangesOnly ps x10 := by
    unfold x10
    apply State.ChangesOnly.ite
    · apply State.stackTouch_changes (List.Subset.trans (by decide) hm)
      exact hx5
    · exact hx5
  split
  · extract_lets +onlyGivenNames -merge -useContext -lift x11
    extract_lets +onlyGivenNames -merge -useContext -lift x12
    extract_lets +onlyGivenNames -merge -useContext -lift x13
    apply State.onHead_changes (List.Subset.trans (by decide) hm)
    exact hx10

theorem State.encodeOne_changes {ps : List Part} (hm : ([.heads, .tiles, .atria] : List Part) ⊆ ps)
    {s₀ : State} (h : Fin 32) (d : Desc) (i : ℕ)  {s : State} (hs : s₀.ChangesOnly ps s) :
    s₀.ChangesOnly ps (State.encodeOne h d i s) := by
  unfold State.encodeOne
  extract_lets +onlyGivenNames -merge -useContext -lift x1
  split
  · exact hs
  · split
    · extract_lets +onlyGivenNames -merge -useContext -lift x2
      have hx2 : s₀.ChangesOnly ps x2 := by
        unfold x2
        apply State.setHead_changes (List.Subset.trans (by decide) hm)
        exact hs
      extract_lets +onlyGivenNames -merge -useContext -lift x3
      extract_lets +onlyGivenNames -merge -useContext -lift x4
      split
      rename_i _ p5 ep5
      have hp5 : s₀.ChangesOnly ps p5 := State.ChangesOnly.ofEq ep5 (by
          apply State.ChangesOnly.ite₂
          · apply State.checkInfo_changes (List.Subset.trans (by decide) hm)
            exact hx2
          · apply State.ChangesOnly.pair
            exact hx2)
      extract_lets +onlyGivenNames -merge -useContext -lift x6
      extract_lets +onlyGivenNames -merge -useContext -lift x7
      extract_lets +onlyGivenNames -merge -useContext -lift x8
      extract_lets +onlyGivenNames -merge -useContext -lift x9
      extract_lets +onlyGivenNames -merge -useContext -lift x10
      have hx10 : s₀.ChangesOnly ps x10 := by
        unfold x10
        apply State.onHead_changes (List.Subset.trans (by decide) hm)
        exact hp5
      apply State.stackWrite_changes (List.Subset.trans (by decide) hm)
      exact hx10

theorem State.encodeTo_changes {ps : List Part} (hm : ([.heads, .tiles, .atria] : List Part) ⊆ ps)
    {s₀ : State} (h : Fin 32) (goal : ℕ)  {s : State} (hs : s₀.ChangesOnly ps s) :
    s₀.ChangesOnly ps (State.encodeTo h goal s) := by
  unfold State.encodeTo
  split
  · exact hs
  · extract_lets +onlyGivenNames -merge -useContext -lift x1
    extract_lets +onlyGivenNames -merge -useContext -lift x2
    extract_lets +onlyGivenNames -merge -useContext -lift x3
    have hx3 : s₀.ChangesOnly ps x3 := by
      unfold x3
      apply State.ChangesOnly.foldl
      · exact hs
      · intro _ _ hu4
        apply State.encodeOne_changes (List.Subset.trans (by decide) hm)
        exact hu4
    apply State.onHead_changes (List.Subset.trans (by decide) hm)
    exact hx3

theorem State.writeGateOpen_changes {ps : List Part} (hm : ([.heads, .tiles, .atria] : List Part) ⊆ ps)
    {s₀ : State} (h : Fin 32) (arg : ℕ) (te : ℤ)  {s : State} (hs : s₀.ChangesOnly ps s) :
    s₀.ChangesOnly ps (State.writeGateOpen h arg te s) := by
  unfold State.writeGateOpen
  extract_lets +onlyGivenNames -merge -useContext -lift x1
  extract_lets +onlyGivenNames -merge -useContext -lift x2
  apply State.onHead_changes (List.Subset.trans (by decide) hm)
  apply State.ChangesOnly.ite
  · apply State.encodeTo_changes (List.Subset.trans (by decide) hm)
    exact hs
  · exact hs

theorem State.verifyResult_changes {ps : List Part} (hm : ([.heads, .tiles, .atria] : List Part) ⊆ ps)
    {s₀ : State} (h : Fin 32) (p : ℕ) (t : ℕ) (result : ℕ) (iter : ℕ) (flags : ℕ) (corrected : ℕ) (data : List Sys2Proof.Byte)  {s : State} (hs : s₀.ChangesOnly ps s) :
    s₀.ChangesOnly ps (State.verifyResult h p t result iter flags corrected data s) := by
  unfold State.verifyResult
  extract_lets +onlyGivenNames -merge -useContext -lift x1
  split
  · exact hs
  · extract_lets +onlyGivenNames -merge -useContext -lift x2
    extract_lets +onlyGivenNames -merge -useContext -lift x3
    extract_lets +onlyGivenNames -merge -useContext -lift x4
    apply State.onHead_changes (List.Subset.trans (by decide) hm)
    apply State.stackTouch_changes (List.Subset.trans (by decide) hm)
    exact hs

theorem State.writeResults_changes {ps : List Part} (hm : ([.tiles, .atria] : List Part) ⊆ ps)
    {s₀ : State} (h : Fin 32) (d : Desc)  {s : State} (hs : s₀.ChangesOnly ps s) :
    s₀.ChangesOnly ps (State.writeResults h d s) := by
  unfold State.writeResults
  extract_lets +onlyGivenNames -merge -useContext -lift x1
  extract_lets +onlyGivenNames -merge -useContext -lift x2
  extract_lets +onlyGivenNames -merge -useContext -lift x3
  apply State.ChangesOnly.ite
  · exact hs
  · apply State.ChangesOnly.ite
    · apply State.stackWrite_changes (List.Subset.trans (by decide) hm)
      exact hs
    · apply State.ChangesOnly.ite
      · apply State.stackWrite_changes (List.Subset.trans (by decide) hm)
        exact hs
      · exact hs

theorem State.completeDesc_changes {ps : List Part} (hm : ([.heads, .tiles, .atria] : List Part) ⊆ ps)
    {s₀ : State} (h : Fin 32) {s : State} (hs : s₀.ChangesOnly ps s) :
    s₀.ChangesOnly ps (State.completeDesc h s) := by
  unfold State.completeDesc
  extract_lets +onlyGivenNames -merge -useContext -lift x1
  have hx1 : s₀.ChangesOnly ps x1 := by
    unfold x1
    apply State.onHead_changes (List.Subset.trans (by decide) hm)
    exact hs
  split
  · exact hx1
  · extract_lets +onlyGivenNames -merge -useContext -lift x2
    extract_lets +onlyGivenNames -merge -useContext -lift x3
    have hx3 : s₀.ChangesOnly ps x3 := by
      unfold x3
      apply State.onHead_changes (List.Subset.trans (by decide) hm)
      exact hx1
    extract_lets +onlyGivenNames -merge -useContext -lift x4
    have hx4 : s₀.ChangesOnly ps x4 := by
      unfold x4
      apply State.writeResults_changes (List.Subset.trans (by decide) hm)
      exact hx3
    extract_lets +onlyGivenNames -merge -useContext -lift x5
    extract_lets +onlyGivenNames -merge -useContext -lift x6
    extract_lets +onlyGivenNames -merge -useContext -lift x7
    have hx7 : s₀.ChangesOnly ps x7 := by
      unfold x7
      apply State.stackWrite_changes (List.Subset.trans (by decide) hm)
      exact hx4
    extract_lets +onlyGivenNames -merge -useContext -lift x8
    apply State.onHead_changes (List.Subset.trans (by decide) hm)
    exact hx7

theorem State.sw_changes {ps : List Part} (hm : ([.tiles, .atria] : List Part) ⊆ ps)
    {s₀ : State}  (n : Fin 8) (f : ℕ → Fld) (v : ℕ) {s : State} (hs : s₀.ChangesOnly ps s) :
    s₀.ChangesOnly ps (State.sw s n f v) := by
  unfold State.sw
  apply State.pw_changes (List.Subset.trans (by decide) hm)
  exact hs

theorem State.sset_changes {ps : List Part} (hm : ([.atria] : List Part) ⊆ ps)
    {s₀ : State}  (n : Fin 8) (f : ℕ → Fld) {s : State} (hs : s₀.ChangesOnly ps s) :
    s₀.ChangesOnly ps (State.sset s n f) := by
  unfold State.sset
  apply State.pset_changes (List.Subset.trans (by decide) hm)
  exact hs

theorem State.refreshAna_changes {ps : List Part} (hm : ([.tiles, .ports, .atria, .pkg] : List Part) ⊆ ps)
    {s₀ : State} (n : Fin 8)  {s : State} (hs : s₀.ChangesOnly ps s) :
    s₀.ChangesOnly ps (State.refreshAna n s) := by
  unfold State.refreshAna
  apply State.ChangesOnly.foldl
  · exact hs
  · intro _ _ hu1
    apply State.ChangesOnly.foldl
    · exact hu1
    · intro _ _ hu2
      extract_lets +onlyGivenNames -merge -useContext -lift x3
      apply State.ChangesOnly.ite
      · exact hu2
      · apply State.event_changes (List.Subset.trans (by decide) hm)
        apply State.onCtrl_changes (List.Subset.trans (by decide) hm)
        exact hu2

theorem State.refreshSet_changes {ps : List Part} (hm : ([.tiles, .ports, .atria, .pkg] : List Part) ⊆ ps)
    {s₀ : State} (n : Fin 8) {s : State} (hs : s₀.ChangesOnly ps s) :
    s₀.ChangesOnly ps (State.refreshSet n s) := by
  unfold State.refreshSet
  apply State.ChangesOnly.ite
  · exact hs
  · extract_lets +onlyGivenNames -merge -useContext -lift x1
    extract_lets +onlyGivenNames -merge -useContext -lift x2
    extract_lets +onlyGivenNames -merge -useContext -lift x3
    extract_lets +onlyGivenNames -merge -useContext -lift x4
    have hx4 : s₀.ChangesOnly ps x4 := by
      unfold x4
      apply State.ChangesOnly.ite
      · apply State.log_changes (List.Subset.trans (by decide) hm)
        exact hs
      · exact hs
    extract_lets +onlyGivenNames -merge -useContext -lift x5
    have hx5 : s₀.ChangesOnly ps x5 := by
      unfold x5
      apply State.sw_changes (List.Subset.trans (by decide) hm)
      apply State.sw_changes (List.Subset.trans (by decide) hm)
      exact hx4
    apply State.refreshAna_changes (List.Subset.trans (by decide) hm)
    apply State.ChangesOnly.ite
    · exact hx5
    · apply State.eventAll_changes (List.Subset.trans (by decide) hm)
      apply State.sset_changes (List.Subset.trans (by decide) hm)
      exact hx5

theorem State.refreshSets_changes {ps : List Part} (hm : ([.tiles, .ports, .atria, .pkg] : List Part) ⊆ ps)
    {s₀ : State}  {s : State} (hs : s₀.ChangesOnly ps s) :
    s₀.ChangesOnly ps (State.refreshSets s) := by
  unfold State.refreshSets
  apply State.ChangesOnly.foldl
  · exact hs
  · intro _ _ hu1
    apply State.refreshSet_changes (List.Subset.trans (by decide) hm)
    exact hu1

theorem State.putRecord_changes {ps : List Part} (hm : ([.tiles, .atria] : List Part) ⊆ ps)
    {s₀ : State} (d : SetDef) (t : Fin 8) (r : JRec) {s : State} (hs : s₀.ChangesOnly ps s) :
    s₀.ChangesOnly ps (State.putRecord d t r s) := by
  unfold State.putRecord
  extract_lets +onlyGivenNames -merge -useContext -lift x1
  have hx1 : s₀.ChangesOnly ps x1 := by
    unfold x1
    apply State.sendPacket_changes (List.Subset.trans (by decide) hm)
    exact hs
  extract_lets +onlyGivenNames -merge -useContext -lift x2
  have hx2 : s₀.ChangesOnly ps x2 := by
    unfold x2
    apply State.ChangesOnly.foldl
    · exact hx1
    · intro _ _ hu3
      apply State.selvWrite_changes (List.Subset.trans (by decide) hm)
      exact hu3
  apply State.selvWrite_changes (List.Subset.trans (by decide) hm)
  exact hx2

theorem State.showJournal_changes {ps : List Part} (hm : ([.tiles, .atria] : List Part) ⊆ ps)
    {s₀ : State} (n : Fin 8)  {s : State} (hs : s₀.ChangesOnly ps s) :
    s₀.ChangesOnly ps (State.showJournal n s) := by
  unfold State.showJournal
  apply State.sw_changes (List.Subset.trans (by decide) hm)
  exact hs

theorem State.queueRecord_changes {ps : List Part} (hm : ([.tiles, .sets, .atria] : List Part) ⊆ ps)
    {s₀ : State} (n : Fin 8) (type : ℕ) (body : List Sys2Proof.DWord) (desc : Option BoltDesc)  {s : State} (hs : s₀.ChangesOnly ps s) :
    s₀.ChangesOnly ps (State.queueRecord n type body desc s) := by
  unfold State.queueRecord
  extract_lets +onlyGivenNames -merge -useContext -lift x1
  extract_lets +onlyGivenNames -merge -useContext -lift x2
  extract_lets +onlyGivenNames -merge -useContext -lift x3
  extract_lets +onlyGivenNames -merge -useContext -lift x4
  extract_lets +onlyGivenNames -merge -useContext -lift x5
  have hx5 : s₀.ChangesOnly ps x5 := by
    unfold x5
    apply State.onSet_changes (List.Subset.trans (by decide) hm)
    exact hs
  apply State.showJournal_changes (List.Subset.trans (by decide) hm)
  apply State.sw_changes (List.Subset.trans (by decide) hm)
  exact hx5

theorem State.formRecord_changes {ps : List Part} (hm : ([.tiles, .sets, .atria] : List Part) ⊆ ps)
    {s₀ : State} (n : Fin 8) (type : ℕ) (body : List Sys2Proof.DWord) (desc : Option BoltDesc)  {s : State} (hs : s₀.ChangesOnly ps s) :
    s₀.ChangesOnly ps (State.formRecord n type body desc s) := by
  unfold State.formRecord
  extract_lets +onlyGivenNames -merge -useContext -lift x1
  extract_lets +onlyGivenNames -merge -useContext -lift x2
  extract_lets +onlyGivenNames -merge -useContext -lift x3
  have hx3 : s₀.ChangesOnly ps x3 := by
    unfold x3
    apply State.ChangesOnly.ite
    · exact hs
    · apply State.queueRecord_changes (List.Subset.trans (by decide) hm)
      exact hs
  apply State.queueRecord_changes (List.Subset.trans (by decide) hm)
  exact hx3

theorem State.noteSram_changes {ps : List Part} (hm : ([.tiles, .atria] : List Part) ⊆ ps)
    {s₀ : State} (t : Fin 8) (m : Mem) (a : ℕ) (n : ℕ) (addr : ℕ → ℕ) (src : UeSrc) {s : State} (hs : s₀.ChangesOnly ps s) :
    s₀.ChangesOnly ps (State.noteSram t m a n addr src s) := by
  unfold State.noteSram
  split
  · apply State.noteUe_changes (List.Subset.trans (by decide) hm)
    exact hs
  · apply State.ChangesOnly.foldl
    · exact hs
    · intro _ _ hu1
      apply State.onTile_changes (List.Subset.trans (by decide) hm)
      exact hu1

theorem State.noteBuffer_changes {ps : List Part} (hm : ([.tiles, .atria] : List Part) ⊆ ps)
    {s₀ : State} (t : Fin 8) (m : Mem) (array : ℕ) (src : UeSrc) {s : State} (hs : s₀.ChangesOnly ps s) :
    s₀.ChangesOnly ps (State.noteBuffer t m array src s) := by
  unfold State.noteBuffer
  apply State.noteSram_changes (List.Subset.trans (by decide) hm)
  exact hs

theorem State.readBuffer_changes {ps : List Part} (hm : ([.tiles, .ports, .atria, .pkg] : List Part) ⊆ ps)
    {s₀ : State} (n : Fin 8) {s : State} (hs : s₀.ChangesOnly ps s) :
    s₀.ChangesOnly ps (State.readBuffer n s).2 := by
  unfold State.readBuffer
  extract_lets +onlyGivenNames -merge -useContext -lift x1
  extract_lets +onlyGivenNames -merge -useContext -lift x2
  apply State.ChangesOnly.ite₂
  · apply State.ChangesOnly.pair
    exact hs
  · extract_lets +onlyGivenNames -merge -useContext -lift x3
    have hx3 : s₀.ChangesOnly ps x3 := by
      unfold x3
      apply State.noteBuffer_changes (List.Subset.trans (by decide) hm)
      exact hs
    apply State.ChangesOnly.ite₂
    · apply State.ChangesOnly.pair
      apply State.refreshSets_changes (List.Subset.trans (by decide) hm)
      apply State.onTile_changes (List.Subset.trans (by decide) hm)
      exact hx3
    · apply State.ChangesOnly.pair
      apply State.onTile_changes (List.Subset.trans (by decide) hm)
      exact hx3

theorem State.flushOwed_changes {ps : List Part} (hm : ([.tiles, .ports, .sets, .atria, .pkg] : List Part) ⊆ ps)
    {s₀ : State} (n : Fin 8) {s : State} (hs : s₀.ChangesOnly ps s) :
    s₀.ChangesOnly ps (State.flushOwed n s) := by
  unfold State.flushOwed
  apply State.ChangesOnly.foldl
  · exact hs
  · intro _ _ hu1
    apply State.ChangesOnly.ite
    · split
      apply State.ChangesOnly.ite
      · apply State.formRecord_changes (List.Subset.trans (by decide) hm)
        apply State.onSet_changes (List.Subset.trans (by decide) hm)
        rename_i p2 ep2
        have hp2 : s₀.ChangesOnly ps p2 := State.ChangesOnly.ofEq ep2 (by
            apply State.readBuffer_changes (List.Subset.trans (by decide) hm)
            exact hu1)
        exact hp2
      · rename_i p3 ep3
        have hp3 : s₀.ChangesOnly ps p3 := State.ChangesOnly.ofEq ep3 (by
            apply State.readBuffer_changes (List.Subset.trans (by decide) hm)
            exact hu1)
        exact hp3
    · exact hu1

theorem State.formRecords_changes {ps : List Part} (hm : ([.tiles, .ports, .sets, .atria, .pkg] : List Part) ⊆ ps)
    {s₀ : State} (n : Fin 8) (rs : List (ℕ × List DWord)) (reserved : Bool) (desc : Option BoltDesc) {s : State} (hs : s₀.ChangesOnly ps s) :
    s₀.ChangesOnly ps (State.formRecords n rs reserved desc s).2 := by
  unfold State.formRecords
  extract_lets +onlyGivenNames -merge -useContext -lift x1
  have hx1 : s₀.ChangesOnly ps x1 := by
    unfold x1
    apply State.flushOwed_changes (List.Subset.trans (by decide) hm)
    exact hs
  apply State.ChangesOnly.ite₂
  · split
    apply State.ChangesOnly.ite₂
    · apply State.ChangesOnly.pair
      apply State.ChangesOnly.foldl
      · rename_i p2 ep2
        have hp2 : s₀.ChangesOnly ps p2 := State.ChangesOnly.ofEq ep2 (by
            apply State.readBuffer_changes (List.Subset.trans (by decide) hm)
            exact hx1)
        exact hp2
      · intro _ _ hu3
        apply State.formRecord_changes (List.Subset.trans (by decide) hm)
        exact hu3
    · apply State.ChangesOnly.pair
      rename_i p4 ep4
      have hp4 : s₀.ChangesOnly ps p4 := State.ChangesOnly.ofEq ep4 (by
          apply State.readBuffer_changes (List.Subset.trans (by decide) hm)
          exact hx1)
      exact hp4
  · apply State.ChangesOnly.pair
    apply State.sset_changes (List.Subset.trans (by decide) hm)
    exact hx1

theorem State.askData_changes {ps : List Part} (hm : ([.tiles] : List Part) ⊆ ps)
    {s₀ : State} (a : Fin 8) (b : Fin 8) (n : ℕ) {s : State} (hs : s₀.ChangesOnly ps s) :
    s₀.ChangesOnly ps (State.askData s a b n) := by
  unfold State.askData
  extract_lets +onlyGivenNames -merge -useContext -lift x1
  have hx1 : s₀.ChangesOnly ps x1 := by
    unfold x1
    apply State.sendPacket_changes (List.Subset.trans (by decide) hm)
    exact hs
  apply State.ChangesOnly.ite
  · apply State.sendPacket_changes (List.Subset.trans (by decide) hm)
    exact hx1
  · exact hx1

theorem State.noteJournalRead_changes {ps : List Part} (hm : ([.tiles, .atria] : List Part) ⊆ ps)
    {s₀ : State} (d : SetDef) (t : Fin 8) (p : ℕ) (n : ℕ) {s : State} (hs : s₀.ChangesOnly ps s) :
    s₀.ChangesOnly ps (State.noteJournalRead d t p n s) := by
  unfold State.noteJournalRead
  extract_lets +onlyGivenNames -merge -useContext -lift x1
  have hx1 : s₀.ChangesOnly ps x1 := by
    unfold x1
    apply State.askData_changes (List.Subset.trans (by decide) hm)
    exact hs
  extract_lets +onlyGivenNames -merge -useContext -lift x2
  extract_lets +onlyGivenNames -merge -useContext -lift x3
  apply State.ChangesOnly.foldl
  · exact hx1
  · intro _ _ hu4
    apply State.noteSelvRead_changes (List.Subset.trans (by decide) hm)
    exact hu4

theorem State.boltPush_changes {ps : List Part} (hm : ([.tiles, .atria] : List Part) ⊆ ps)
    {s₀ : State} (t : Fin 8)  {s : State} (hs : s₀.ChangesOnly ps s) :
    s₀.ChangesOnly ps (State.boltPush t s) := by
  unfold State.boltPush
  split
  · exact hs
  · extract_lets +onlyGivenNames -merge -useContext -lift x1
    extract_lets +onlyGivenNames -merge -useContext -lift x2
    extract_lets +onlyGivenNames -merge -useContext -lift x3
    apply State.ChangesOnly.ite
    · apply State.onTile_changes (List.Subset.trans (by decide) hm)
      exact hs
    · extract_lets +onlyGivenNames -merge -useContext -lift x4
      have hx4 : s₀.ChangesOnly ps x4 := by
        unfold x4
        apply State.stackWrite_changes (List.Subset.trans (by decide) hm)
        exact hs
      apply State.onTile_changes (List.Subset.trans (by decide) hm)
      exact hx4

theorem State.boltFlush_changes {ps : List Part} (hm : ([.tiles, .atria] : List Part) ⊆ ps)
    {s₀ : State} (t : Fin 8)  {s : State} (hs : s₀.ChangesOnly ps s) :
    s₀.ChangesOnly ps (State.boltFlush t s) := by
  unfold State.boltFlush
  apply State.ChangesOnly.foldl
  · exact hs
  · intro _ _ hu1
    apply State.boltPush_changes (List.Subset.trans (by decide) hm)
    exact hu1

theorem State.boltPost_changes {ps : List Part} (hm : ([.tiles, .atria] : List Part) ⊆ ps)
    {s₀ : State} (t : Fin 8) (c : BoltCpl)  {s : State} (hs : s₀.ChangesOnly ps s) :
    s₀.ChangesOnly ps (State.boltPost t c s) := by
  unfold State.boltPost
  apply State.boltFlush_changes (List.Subset.trans (by decide) hm)
  apply State.onTile_changes (List.Subset.trans (by decide) hm)
  exact hs

theorem State.boltCount_changes {ps : List Part} (hm : ([.tiles] : List Part) ⊆ ps)
    {s₀ : State} (t : Fin 8)  {s : State} (hs : s₀.ChangesOnly ps s) :
    s₀.ChangesOnly ps (State.boltCount t s) := by
  unfold State.boltCount
  apply State.onTile_changes (List.Subset.trans (by decide) hm)
  exact hs

theorem State.boltDone_changes {ps : List Part} (hm : ([.tiles, .atria] : List Part) ⊆ ps)
    {s₀ : State} (t : Fin 8) (d : BoltDesc) (c : BoltCpl)  {s : State} (hs : s₀.ChangesOnly ps s) :
    s₀.ChangesOnly ps (State.boltDone t d c s) := by
  unfold State.boltDone
  extract_lets +onlyGivenNames -merge -useContext -lift x1
  have hx1 : s₀.ChangesOnly ps x1 := by
    unfold x1
    apply State.onTile_changes (List.Subset.trans (by decide) hm)
    apply State.boltCount_changes (List.Subset.trans (by decide) hm)
    exact hs
  apply State.boltPost_changes (List.Subset.trans (by decide) hm)
  exact hx1

theorem State.boltRefuse_changes {ps : List Part} (hm : ([.tiles, .atria] : List Part) ⊆ ps)
    {s₀ : State} (t : Fin 8) (d : BoltDesc) (reason : ℕ)  {s : State} (hs : s₀.ChangesOnly ps s) :
    s₀.ChangesOnly ps (State.boltRefuse t d reason s) := by
  unfold State.boltRefuse
  apply State.boltDone_changes (List.Subset.trans (by decide) hm)
  exact hs

theorem State.boltOk_changes {ps : List Part} (hm : ([.tiles, .atria] : List Part) ⊆ ps)
    {s₀ : State} (t : Fin 8) (d : BoltDesc)  {s : State} (hs : s₀.ChangesOnly ps s) :
    s₀.ChangesOnly ps (State.boltOk t d s) := by
  unfold State.boltOk
  apply State.boltDone_changes (List.Subset.trans (by decide) hm)
  exact hs

theorem State.showPending_changes {ps : List Part} (hm : ([.tiles, .atria] : List Part) ⊆ ps)
    {s₀ : State} (n : Fin 8)  {s : State} (hs : s₀.ChangesOnly ps s) :
    s₀.ChangesOnly ps (State.showPending n s) := by
  unfold State.showPending
  apply State.sw_changes (List.Subset.trans (by decide) hm)
  exact hs

theorem State.countDrops_changes {ps : List Part} (hm : ([.tiles] : List Part) ⊆ ps)
    {s₀ : State} (n : Fin 8) (old : ASet)  {s : State} (hs : s₀.ChangesOnly ps s) :
    s₀.ChangesOnly ps (State.countDrops n old s) := by
  unfold State.countDrops
  apply State.onTile_changes (List.Subset.trans (by decide) hm)
  exact hs

theorem State.mapChange_changes {ps : List Part} (hm : ([.tiles, .sets, .atria] : List Part) ⊆ ps)
    {s₀ : State} (n : Fin 8) (m : MapWait)  {s : State} (hs : s₀.ChangesOnly ps s) :
    s₀.ChangesOnly ps (State.mapChange n m s) := by
  unfold State.mapChange
  extract_lets +onlyGivenNames -merge -useContext -lift x1
  extract_lets +onlyGivenNames -merge -useContext -lift x2
  split
  · extract_lets +onlyGivenNames -merge -useContext -lift x3
    have hx3 : s₀.ChangesOnly ps x3 := by
      unfold x3
      apply State.countDrops_changes (List.Subset.trans (by decide) hm)
      apply State.onSet_changes (List.Subset.trans (by decide) hm)
      exact hs
    split
    · apply State.boltOk_changes (List.Subset.trans (by decide) hm)
      exact hx3
    · exact hx3
  · extract_lets +onlyGivenNames -merge -useContext -lift x4
    have hx4 : s₀.ChangesOnly ps x4 := by
      unfold x4
      apply State.boltCount_changes (List.Subset.trans (by decide) hm)
      apply State.sset_changes (List.Subset.trans (by decide) hm)
      exact hs
    extract_lets +onlyGivenNames -merge -useContext -lift x5
    extract_lets +onlyGivenNames -merge -useContext -lift x6
    have hx6 : s₀.ChangesOnly ps x6 := by
      unfold x6
      apply State.onSet_changes (List.Subset.trans (by decide) hm)
      exact hx4
    apply State.ChangesOnly.ite
    · apply State.onTile_changes (List.Subset.trans (by decide) hm)
      exact hx6
    · exact hx6

theorem State.unpark_changes {ps : List Part} (hm : ([.tiles, .atria] : List Part) ⊆ ps)
    {s₀ : State} (t : Fin 8) (e : BoltDesc × Bool) {s : State} (hs : s₀.ChangesOnly ps s) :
    s₀.ChangesOnly ps (State.unpark t e s) := by
  unfold State.unpark
  apply State.boltPost_changes (List.Subset.trans (by decide) hm)
  apply State.onTile_changes (List.Subset.trans (by decide) hm)
  apply State.boltCount_changes (List.Subset.trans (by decide) hm)
  exact hs

theorem State.loadDone_changes {ps : List Part} (hm : ([.tiles, .ports, .sets, .atria, .pkg] : List Part) ⊆ ps)
    {s₀ : State} (n : Fin 8) {s : State} (hs : s₀.ChangesOnly ps s) :
    s₀.ChangesOnly ps (State.loadDone n s) := by
  unfold State.loadDone
  extract_lets +onlyGivenNames -merge -useContext -lift x1
  apply State.ChangesOnly.ite
  · exact hs
  · extract_lets +onlyGivenNames -merge -useContext -lift x2
    have hx2 : s₀.ChangesOnly ps x2 := by
      unfold x2
      apply State.onSet_changes (List.Subset.trans (by decide) hm)
      exact hs
    apply State.refreshSet_changes (List.Subset.trans (by decide) hm)
    apply State.ChangesOnly.foldl
    · exact hx2
    · intro _ _ hu3
      apply State.unpark_changes (List.Subset.trans (by decide) hm)
      exact hu3

theorem State.retryWaits_changes {ps : List Part} (hm : ([.tiles, .ports, .sets, .atria, .pkg] : List Part) ⊆ ps)
    {s₀ : State} (n : Fin 8) {s : State} (hs : s₀.ChangesOnly ps s) :
    s₀.ChangesOnly ps (State.retryWaits n s) := by
  unfold State.retryWaits
  apply State.loadDone_changes (List.Subset.trans (by decide) hm)
  apply State.ChangesOnly.foldl
  · exact hs
  · intro _ _ hu1
    extract_lets +onlyGivenNames -merge -useContext -lift x2
    split
    · exact hu1
    · extract_lets +onlyGivenNames -merge -useContext -lift x3
      have hx3 : s₀.ChangesOnly ps x3 := by
        unfold x3
        apply State.countDrops_changes (List.Subset.trans (by decide) hm)
        apply State.onSet_changes (List.Subset.trans (by decide) hm)
        exact hu1
      split
      · exact hx3
      · apply State.unpark_changes (List.Subset.trans (by decide) hm)
        exact hx3

theorem State.commitDone_changes {ps : List Part} (hm : ([.tiles, .ports, .sets, .atria, .pkg] : List Part) ⊆ ps)
    {s₀ : State} (n : Fin 8) (body : List DWord) {s : State} (hs : s₀.ChangesOnly ps s) :
    s₀.ChangesOnly ps (State.commitDone n body s) := by
  unfold State.commitDone
  extract_lets +onlyGivenNames -merge -useContext -lift x1
  extract_lets +onlyGivenNames -merge -useContext -lift x2
  extract_lets +onlyGivenNames -merge -useContext -lift x3
  extract_lets +onlyGivenNames -merge -useContext -lift x4
  have hx4 : s₀.ChangesOnly ps x4 := by
    unfold x4
    apply State.onSet_changes (List.Subset.trans (by decide) hm)
    exact hs
  extract_lets +onlyGivenNames -merge -useContext -lift x5
  extract_lets +onlyGivenNames -merge -useContext -lift x6
  have hx6 : s₀.ChangesOnly ps x6 := by
    unfold x6
    apply State.ChangesOnly.foldl
    · exact hx4
    · intro _ _ hu7
      apply State.boltPost_changes (List.Subset.trans (by decide) hm)
      apply State.onTile_changes (List.Subset.trans (by decide) hm)
      exact hu7
  apply State.showPending_changes (List.Subset.trans (by decide) hm)
  apply State.retryWaits_changes (List.Subset.trans (by decide) hm)
  exact hx6

theorem State.voidDone_changes {ps : List Part} (hm : ([.tiles, .sets, .atria] : List Part) ⊆ ps)
    {s₀ : State} (n : Fin 8) (body : List Sys2Proof.DWord) (desc : Option BoltDesc)  {s : State} (hs : s₀.ChangesOnly ps s) :
    s₀.ChangesOnly ps (State.voidDone n body desc s) := by
  unfold State.voidDone
  extract_lets +onlyGivenNames -merge -useContext -lift x1
  extract_lets +onlyGivenNames -merge -useContext -lift x2
  have hx2 : s₀.ChangesOnly ps x2 := by
    unfold x2
    apply State.onTile_changes (List.Subset.trans (by decide) hm)
    apply State.onSet_changes (List.Subset.trans (by decide) hm)
    exact hs
  apply State.mapChange_changes (List.Subset.trans (by decide) hm)
  apply State.showPending_changes (List.Subset.trans (by decide) hm)
  exact hx2

theorem State.checkpointTo_changes {ps : List Part} (hm : ([.tiles, .sets, .atria] : List Part) ⊆ ps)
    {s₀ : State} (n : Fin 8) (body : List Sys2Proof.DWord)  {s : State} (hs : s₀.ChangesOnly ps s) :
    s₀.ChangesOnly ps (State.checkpointTo n body s) := by
  unfold State.checkpointTo
  extract_lets +onlyGivenNames -merge -useContext -lift x1
  extract_lets +onlyGivenNames -merge -useContext -lift x2
  extract_lets +onlyGivenNames -merge -useContext -lift x3
  extract_lets +onlyGivenNames -merge -useContext -lift x4
  have hx4 : s₀.ChangesOnly ps x4 := by
    unfold x4
    apply State.sw_changes (List.Subset.trans (by decide) hm)
    apply State.sw_changes (List.Subset.trans (by decide) hm)
    apply State.sw_changes (List.Subset.trans (by decide) hm)
    exact hs
  apply State.onSet_changes (List.Subset.trans (by decide) hm)
  apply State.sw_changes (List.Subset.trans (by decide) hm)
  exact hx4

theorem State.recordDone_changes {ps : List Part} (hm : ([.tiles, .ports, .sets, .atria, .pkg] : List Part) ⊆ ps)
    {s₀ : State} (n : Fin 8) (r : JRec)  {s : State} (hs : s₀.ChangesOnly ps s) :
    s₀.ChangesOnly ps (State.recordDone n r s) := by
  unfold State.recordDone
  extract_lets +onlyGivenNames -merge -useContext -lift x1
  extract_lets +onlyGivenNames -merge -useContext -lift x2
  extract_lets +onlyGivenNames -merge -useContext -lift x3
  extract_lets +onlyGivenNames -merge -useContext -lift x4
  extract_lets +onlyGivenNames -merge -useContext -lift x5
  extract_lets +onlyGivenNames -merge -useContext -lift x6
  split
  · extract_lets +onlyGivenNames -merge -useContext -lift x7
    try unfold x6
    apply State.mapChange_changes (List.Subset.trans (by decide) hm)
    apply State.onSet_changes (List.Subset.trans (by decide) hm)
    exact hs
  · try unfold x5
    split
    · apply State.boltOk_changes (List.Subset.trans (by decide) hm)
      apply State.onSet_changes (List.Subset.trans (by decide) hm)
      exact hs
    · apply State.onSet_changes (List.Subset.trans (by decide) hm)
      exact hs
  · extract_lets +onlyGivenNames -merge -useContext -lift x8
    try unfold x6
    apply State.mapChange_changes (List.Subset.trans (by decide) hm)
    apply State.onSet_changes (List.Subset.trans (by decide) hm)
    exact hs
  · apply State.commitDone_changes (List.Subset.trans (by decide) hm)
    exact hs
  · apply State.voidDone_changes (List.Subset.trans (by decide) hm)
    exact hs
  · try unfold x6
    apply State.mapChange_changes (List.Subset.trans (by decide) hm)
    apply State.onSet_changes (List.Subset.trans (by decide) hm)
    exact hs
  · try unfold x5
    split
    · apply State.boltOk_changes (List.Subset.trans (by decide) hm)
      apply State.showJournal_changes (List.Subset.trans (by decide) hm)
      apply State.flushOwed_changes (List.Subset.trans (by decide) hm)
      apply State.checkpointTo_changes (List.Subset.trans (by decide) hm)
      exact hs
    · apply State.showJournal_changes (List.Subset.trans (by decide) hm)
      apply State.flushOwed_changes (List.Subset.trans (by decide) hm)
      apply State.checkpointTo_changes (List.Subset.trans (by decide) hm)
      exact hs
  · extract_lets +onlyGivenNames -merge -useContext -lift x9
    have hx9 : s₀.ChangesOnly ps x9 := by
      unfold x9
      apply State.sw_changes (List.Subset.trans (by decide) hm)
      apply State.sw_changes (List.Subset.trans (by decide) hm)
      exact hs
    apply State.refreshSet_changes (List.Subset.trans (by decide) hm)
    apply State.sset_changes (List.Subset.trans (by decide) hm)
    apply State.sw_changes (List.Subset.trans (by decide) hm)
    apply State.onSet_changes (List.Subset.trans (by decide) hm)
    exact hx9
  · exact hs

theorem State.copyLag_changes {ps : List Part} (hm : ([.tiles, .sets, .atria] : List Part) ⊆ ps)
    {s₀ : State} (n : Fin 8)  {s : State} (hs : s₀.ChangesOnly ps s) :
    s₀.ChangesOnly ps (State.copyLag n s) := by
  unfold State.copyLag
  extract_lets +onlyGivenNames -merge -useContext -lift x1
  extract_lets +onlyGivenNames -merge -useContext -lift x2
  have hx2 : s₀.ChangesOnly ps x2 := by
    unfold x2
    apply State.ChangesOnly.foldl
    · exact hs
    · intro _ _ hu3
      apply State.putRecord_changes (List.Subset.trans (by decide) hm)
      exact hu3
  apply State.onSet_changes (List.Subset.trans (by decide) hm)
  exact hx2

theorem State.writeJournal_changes {ps : List Part} (hm : ([.tiles, .ports, .sets, .atria, .pkg] : List Part) ⊆ ps)
    {s₀ : State} (n : Fin 8)  {s : State} (hs : s₀.ChangesOnly ps s) :
    s₀.ChangesOnly ps (State.writeJournal n s) := by
  unfold State.writeJournal
  extract_lets +onlyGivenNames -merge -useContext -lift x1
  extract_lets +onlyGivenNames -merge -useContext -lift x2
  split
  · exact hs
  · extract_lets +onlyGivenNames -merge -useContext -lift x3
    have hx3 : s₀.ChangesOnly ps x3 := by
      unfold x3
      apply State.ChangesOnly.ite
      · exact hs
      · apply State.putRecord_changes (List.Subset.trans (by decide) hm)
        exact hs
    apply State.ChangesOnly.ite
    · apply State.recordDone_changes (List.Subset.trans (by decide) hm)
      apply State.onSet_changes (List.Subset.trans (by decide) hm)
      apply State.putRecord_changes (List.Subset.trans (by decide) hm)
      apply State.copyLag_changes (List.Subset.trans (by decide) hm)
      exact hx3
    · apply State.ChangesOnly.ite
      · apply State.recordDone_changes (List.Subset.trans (by decide) hm)
        apply State.onSet_changes (List.Subset.trans (by decide) hm)
        apply State.sset_changes (List.Subset.trans (by decide) hm)
        exact hx3
      · apply State.onSet_changes (List.Subset.trans (by decide) hm)
        apply State.sset_changes (List.Subset.trans (by decide) hm)
        exact hx3

theorem State.commitStripes_changes {ps : List Part} (hm : ([.tiles, .ports, .sets, .atria, .pkg] : List Part) ⊆ ps)
    {s₀ : State} (n : Fin 8) {s : State} (hs : s₀.ChangesOnly ps s) :
    s₀.ChangesOnly ps (State.commitStripes n s) := by
  unfold State.commitStripes
  extract_lets +onlyGivenNames -merge -useContext -lift x1
  extract_lets +onlyGivenNames -merge -useContext -lift x2
  split
  extract_lets +onlyGivenNames -merge -useContext -lift x3
  extract_lets +onlyGivenNames -merge -useContext -lift x4
  have hx4 : s₀.ChangesOnly ps x4 := by
    unfold x4
    apply State.ChangesOnly.ite
    · exact hs
    · apply State.sset_changes (List.Subset.trans (by decide) hm)
      exact hs
  apply State.ChangesOnly.ite
  · exact hx4
  · split
    apply State.ChangesOnly.ite
    · apply State.countDrops_changes (List.Subset.trans (by decide) hm)
      apply State.onSet_changes (List.Subset.trans (by decide) hm)
      rename_i p5 ep5
      have hp5 : s₀.ChangesOnly ps p5 := State.ChangesOnly.ofEq ep5 (by
          apply State.formRecords_changes (List.Subset.trans (by decide) hm)
          exact hx4)
      exact hp5
    · rename_i p6 ep6
      have hp6 : s₀.ChangesOnly ps p6 := State.ChangesOnly.ofEq ep6 (by
          apply State.formRecords_changes (List.Subset.trans (by decide) hm)
          exact hx4)
      exact hp6

theorem State.setWseqNext_changes {ps : List Part} (hm : ([.tiles, .atria] : List Part) ⊆ ps)
    {s₀ : State} (n : Fin 8) (v : ℕ)  {s : State} (hs : s₀.ChangesOnly ps s) :
    s₀.ChangesOnly ps (State.setWseqNext n v s) := by
  unfold State.setWseqNext
  apply State.sw_changes (List.Subset.trans (by decide) hm)
  apply State.sw_changes (List.Subset.trans (by decide) hm)
  exact hs

theorem State.setRefuse_changes {ps : List Part} (hm : ([.tiles, .atria] : List Part) ⊆ ps)
    {s₀ : State} (n : Fin 8) (status : ℕ)  {s : State} (hs : s₀.ChangesOnly ps s) :
    s₀.ChangesOnly ps (State.setRefuse n status s) := by
  unfold State.setRefuse
  apply State.sset_changes (List.Subset.trans (by decide) hm)
  apply State.sw_changes (List.Subset.trans (by decide) hm)
  exact hs

theorem State.setOk_changes {ps : List Part} (hm : ([.tiles, .ports, .atria, .pkg] : List Part) ⊆ ps)
    {s₀ : State} (n : Fin 8)  {s : State} (hs : s₀.ChangesOnly ps s) :
    s₀.ChangesOnly ps (State.setOk n s) := by
  unfold State.setOk
  apply State.refreshSet_changes (List.Subset.trans (by decide) hm)
  apply State.sset_changes (List.Subset.trans (by decide) hm)
  apply State.sw_changes (List.Subset.trans (by decide) hm)
  exact hs

theorem State.memberCmd_changes {ps : List Part} (hm : ([.tiles, .ports, .sets, .atria, .pkg] : List Part) ⊆ ps)
    {s₀ : State} (n : Fin 8) (m : ℕ) (drop : Bool) (present : ℕ) (replacing : ℕ) {s : State} (hs : s₀.ChangesOnly ps s) :
    s₀.ChangesOnly ps (State.memberCmd n m drop present replacing s) := by
  unfold State.memberCmd
  apply State.ChangesOnly.ite
  · extract_lets +onlyGivenNames -merge -useContext -lift x1
    split
    apply State.ChangesOnly.ite
    · rename_i p2 ep2
      have hp2 : s₀.ChangesOnly ps p2 := State.ChangesOnly.ofEq ep2 (by
          apply State.formRecords_changes (List.Subset.trans (by decide) hm)
          exact hs)
      exact hp2
    · apply State.setRefuse_changes (List.Subset.trans (by decide) hm)
      rename_i p3 ep3
      have hp3 : s₀.ChangesOnly ps p3 := State.ChangesOnly.ofEq ep3 (by
          apply State.formRecords_changes (List.Subset.trans (by decide) hm)
          exact hs)
      exact hp3
  · apply State.setRefuse_changes (List.Subset.trans (by decide) hm)
    exact hs

theorem State.setCmd_changes {ps : List Part} (hm : ([.free, .tiles, .ports, .sets, .atria, .pkg] : List Part) ⊆ ps)
    {s₀ : State} (n : Fin 8) (auth : Bool) (cmd : ℕ) (m : ℕ) (drop : Bool) {s : State} (hs : s₀.ChangesOnly ps s) :
    s₀.ChangesOnly ps (State.setCmd n auth cmd m drop s) := by
  unfold State.setCmd
  extract_lets +onlyGivenNames -merge -useContext -lift x1
  split
  extract_lets +onlyGivenNames -merge -useContext -lift x2
  extract_lets +onlyGivenNames -merge -useContext -lift x3
  apply State.ChangesOnly.ite
  · apply State.setRefuse_changes (List.Subset.trans (by decide) hm)
    exact hs
  · apply State.ChangesOnly.ite
    · apply State.setRefuse_changes (List.Subset.trans (by decide) hm)
      exact hs
    · split
      · apply State.ChangesOnly.ite
        · apply State.setRefuse_changes (List.Subset.trans (by decide) hm)
          exact hs
        · apply State.ChangesOnly.ite
          · apply State.takeFree_changes (List.Subset.trans (by decide) hm)
            apply State.setRefuse_changes (List.Subset.trans (by decide) hm)
            apply State.sw_changes (List.Subset.trans (by decide) hm)
            exact hs
          · apply State.setOk_changes (List.Subset.trans (by decide) hm)
            apply State.sw_changes (List.Subset.trans (by decide) hm)
            exact hs
      · apply State.ChangesOnly.ite
        · apply State.memberCmd_changes (List.Subset.trans (by decide) hm)
          exact hs
        · apply State.setRefuse_changes (List.Subset.trans (by decide) hm)
          exact hs
      · apply State.ChangesOnly.ite
        · apply State.setRefuse_changes (List.Subset.trans (by decide) hm)
          exact hs
        · apply State.memberCmd_changes (List.Subset.trans (by decide) hm)
          exact hs
      · apply State.ChangesOnly.ite
        · apply State.setRefuse_changes (List.Subset.trans (by decide) hm)
          exact hs
        · apply State.memberCmd_changes (List.Subset.trans (by decide) hm)
          exact hs
      · apply State.ChangesOnly.ite
        · apply State.memberCmd_changes (List.Subset.trans (by decide) hm)
          exact hs
        · apply State.setRefuse_changes (List.Subset.trans (by decide) hm)
          exact hs
      · apply State.setOk_changes (List.Subset.trans (by decide) hm)
        apply State.sw_changes (List.Subset.trans (by decide) hm)
        exact hs
      · apply State.setOk_changes (List.Subset.trans (by decide) hm)
        apply State.sw_changes (List.Subset.trans (by decide) hm)
        exact hs

theorem State.replayRecord_changes {ps : List Part} (hm : ([.tiles, .ports, .sets, .atria, .pkg] : List Part) ⊆ ps)
    {s₀ : State} (n : Fin 8) (type : ℕ) (body : List DWord) {s : State} (hs : s₀.ChangesOnly ps s) :
    s₀.ChangesOnly ps (State.replayRecord n type body s) := by
  unfold State.replayRecord
  extract_lets +onlyGivenNames -merge -useContext -lift x1
  extract_lets +onlyGivenNames -merge -useContext -lift x2
  split
  apply State.ChangesOnly.ite
  · extract_lets +onlyGivenNames -merge -useContext -lift x3
    have hx3 : s₀.ChangesOnly ps x3 := by
      unfold x3
      apply State.formRecord_changes (List.Subset.trans (by decide) hm)
      rename_i p4 ep4
      have hp4 : s₀.ChangesOnly ps p4 := State.ChangesOnly.ofEq ep4 (by
          apply State.ChangesOnly.ite₂
          · apply State.readBuffer_changes (List.Subset.trans (by decide) hm)
            exact hs
          · apply State.ChangesOnly.pair
            exact hs)
      exact hp4
    extract_lets +onlyGivenNames -merge -useContext -lift x5
    extract_lets +onlyGivenNames -merge -useContext -lift x6
    have hx6 : s₀.ChangesOnly ps x6 := by
      unfold x6
      apply State.ChangesOnly.foldl
      · exact hx3
      · intro _ _ hu7
        extract_lets +onlyGivenNames -merge -useContext -lift x8
        have hx8 : s₀.ChangesOnly ps x8 := by
          unfold x8
          apply State.putRecord_changes (List.Subset.trans (by decide) hm)
          exact hu7
        apply State.ChangesOnly.ite
        · apply State.putRecord_changes (List.Subset.trans (by decide) hm)
          exact hx8
        · apply State.onSet_changes (List.Subset.trans (by decide) hm)
          apply State.sset_changes (List.Subset.trans (by decide) hm)
          exact hx8
    extract_lets +onlyGivenNames -merge -useContext -lift x9
    have hx9 : s₀.ChangesOnly ps x9 := by
      unfold x9
      apply State.onSet_changes (List.Subset.trans (by decide) hm)
      exact hx6
    extract_lets +onlyGivenNames -merge -useContext -lift x10
    apply State.onTile_changes (List.Subset.trans (by decide) hm)
    apply State.onSet_changes (List.Subset.trans (by decide) hm)
    exact hx9
  · extract_lets +onlyGivenNames -merge -useContext -lift x11
    apply State.onSet_changes (List.Subset.trans (by decide) hm)
    apply State.ChangesOnly.ite
    · rename_i p12 ep12
      have hp12 : s₀.ChangesOnly ps p12 := State.ChangesOnly.ofEq ep12 (by
          apply State.ChangesOnly.ite₂
          · apply State.readBuffer_changes (List.Subset.trans (by decide) hm)
            exact hs
          · apply State.ChangesOnly.pair
            exact hs)
      exact hp12
    · apply State.sset_changes (List.Subset.trans (by decide) hm)
      rename_i p13 ep13
      have hp13 : s₀.ChangesOnly ps p13 := State.ChangesOnly.ofEq ep13 (by
          apply State.ChangesOnly.ite₂
          · apply State.readBuffer_changes (List.Subset.trans (by decide) hm)
            exact hs
          · apply State.ChangesOnly.pair
            exact hs)
      exact hp13

theorem State.rebuildSet_changes {ps : List Part} (hm : ([.tiles, .sets, .atria] : List Part) ⊆ ps)
    {s₀ : State} (n : Fin 8)  {s : State} (hs : s₀.ChangesOnly ps s) :
    s₀.ChangesOnly ps (State.rebuildSet n s) := by
  have h1 : ∀ (u : State) (d : SetDef) (js a1 a2 : Nat) (both : Bool), s₀.ChangesOnly ps u → s₀.ChangesOnly ps
      (if both then (u.noteJournalRead d d.homeTile js a1).noteJournalRead d d.mirrorTile js a2
        else u.noteJournalRead d d.homeTile js a1) := by
    intro u d js a1 a2 both hu
    have h := State.noteJournalRead_changes (List.Subset.trans (by decide) hm) d d.homeTile js a1 hu
    exact State.ChangesOnly.ite (State.noteJournalRead_changes (List.Subset.trans (by decide) hm) _ _ _ _ h) h
  have h2 : ∀ (u : State) (d : SetDef) (t : Fin 8) (l : List Found) (f : Found → JRec) (both : Bool), s₀.ChangesOnly ps u →
      s₀.ChangesOnly ps (if both then l.foldl (fun (s : State) r => s.putRecord d t (f r)) u else u) := by
    intro u d t l f both hu
    refine State.ChangesOnly.ite (State.ChangesOnly.foldl hu fun v r hv => ?_) hu
    exact State.putRecord_changes (List.Subset.trans (by decide) hm) _ _ _ hv
  have h3 : ∀ (u : State) (o : Option Found), s₀.ChangesOnly ps u →
      s₀.ChangesOnly ps (match o with | none => u | some r => u.checkpointTo n r.body) := by
    intro u o hu
    cases o
    · exact hu
    · exact State.checkpointTo_changes (List.Subset.trans (by decide) hm) _ _ hu
  have h4 : ∀ (u : State) (c : Bool) (f : ASet → ASet), s₀.ChangesOnly ps u →
      s₀.ChangesOnly ps (if c then u else (u.sset n SetReg.MIRROR_LAG).onSet n f) := by
    intro u c f hu
    refine State.ChangesOnly.ite hu (State.onSet_changes (List.Subset.trans (by decide) hm) _ _ ?_)
    exact State.sset_changes (List.Subset.trans (by decide) hm) _ _ hu
  unfold State.rebuildSet
  apply State.showJournal_changes (List.Subset.trans (by decide) hm)
  apply State.setWseqNext_changes (List.Subset.trans (by decide) hm)
  apply h3
  apply State.sw_changes (List.Subset.trans (by decide) hm)
  apply State.onSet_changes (List.Subset.trans (by decide) hm)
  apply h4
  apply State.onSet_changes (List.Subset.trans (by decide) hm)
  apply h2
  apply h1
  exact hs

theorem State.replaySet_changes {ps : List Part} (hm : ([.tiles, .ports, .sets, .atria, .pkg] : List Part) ⊆ ps)
    {s₀ : State} (n : Fin 8) {s : State} (hs : s₀.ChangesOnly ps s) :
    s₀.ChangesOnly ps (State.replaySet n s) := by
  unfold State.replaySet
  apply State.ChangesOnly.ite
  · exact hs
  · extract_lets +onlyGivenNames -merge -useContext -lift x1
    have hx1 : s₀.ChangesOnly ps x1 := by
      unfold x1
      apply State.rebuildSet_changes (List.Subset.trans (by decide) hm)
      exact hs
    split
    extract_lets +onlyGivenNames -merge -useContext -lift x2
    extract_lets +onlyGivenNames -merge -useContext -lift x3
    have hx3 : s₀.ChangesOnly ps x3 := by
      unfold x3
      unfold x2
      apply State.ChangesOnly.foldl
      · apply State.ChangesOnly.foldl
        · exact hx1
        · intro _ _ hu4
          apply State.ChangesOnly.ite
          · exact hu4
          · apply State.replayRecord_changes (List.Subset.trans (by decide) hm)
            exact hu4
      · intro _ _ hu5
        apply State.ChangesOnly.ite
        · exact hu5
        · apply State.replayRecord_changes (List.Subset.trans (by decide) hm)
          exact hu5
    extract_lets +onlyGivenNames -merge -useContext -lift x6
    have hx6 : s₀.ChangesOnly ps x6 := by
      unfold x6
      apply State.onSet_changes (List.Subset.trans (by decide) hm)
      exact hx3
    extract_lets +onlyGivenNames -merge -useContext -lift x7
    have hx7 : s₀.ChangesOnly ps x7 := by
      unfold x7
      apply State.ChangesOnly.ite
      · exact hx6
      · apply State.sset_changes (List.Subset.trans (by decide) hm)
        exact hx6
    extract_lets +onlyGivenNames -merge -useContext -lift x8
    have hx8 : s₀.ChangesOnly ps x8 := by
      unfold x8
      apply State.ChangesOnly.ite
      · exact hx7
      · apply State.sset_changes (List.Subset.trans (by decide) hm)
        exact hx7
    extract_lets +onlyGivenNames -merge -useContext -lift x9
    have hx9 : s₀.ChangesOnly ps x9 := by
      unfold x9
      apply State.log_changes (List.Subset.trans (by decide) hm)
      exact hx8
    apply State.refreshSet_changes (List.Subset.trans (by decide) hm)
    apply State.showJournal_changes (List.Subset.trans (by decide) hm)
    apply State.showPending_changes (List.Subset.trans (by decide) hm)
    apply State.sset_changes (List.Subset.trans (by decide) hm)
    exact hx9

theorem State.setEpoch_changes {ps : List Part} (hm : ([.tiles, .atria] : List Part) ⊆ ps)
    {s₀ : State} (w : Fin 2) (v : ℕ)  {s : State} (hs : s₀.ChangesOnly ps s) :
    s₀.ChangesOnly ps (State.setEpoch w v s) := by
  unfold State.setEpoch
  apply State.ChangesOnly.ite
  · exact hs
  · apply State.ChangesOnly.ite
    · apply State.pset_changes (List.Subset.trans (by decide) hm)
      exact hs
    · apply State.keep_changes (List.Subset.trans (by decide) hm)
      apply State.onAtrium_changes (List.Subset.trans (by decide) hm)
      exact hs

theorem State.stepDown_changes {ps : List Part} (hm : ([.atria] : List Part) ⊆ ps)
    {s₀ : State} (w : Fin 2)  {s : State} (hs : s₀.ChangesOnly ps s) :
    s₀.ChangesOnly ps (State.stepDown w s) := by
  unfold State.stepDown
  extract_lets +onlyGivenNames -merge -useContext -lift x1
  apply State.onAtrium_changes (List.Subset.trans (by decide) hm)
  exact hs

theorem State.takeLease_changes {ps : List Part} (hm : ([.tiles, .atria] : List Part) ⊆ ps)
    {s₀ : State} (w : Fin 2) (e : ℕ) (why : ℕ) {s : State} (hs : s₀.ChangesOnly ps s) :
    s₀.ChangesOnly ps (State.takeLease w e why s) := by
  unfold State.takeLease
  extract_lets +onlyGivenNames -merge -useContext -lift x1
  have hx1 : s₀.ChangesOnly ps x1 := by
    unfold x1
    apply State.setEpoch_changes (List.Subset.trans (by decide) hm)
    exact hs
  apply State.ChangesOnly.ite
  · extract_lets +onlyGivenNames -merge -useContext -lift x2
    have hx2 : s₀.ChangesOnly ps x2 := by
      unfold x2
      apply State.onAtrium_changes (List.Subset.trans (by decide) hm)
      exact hx1
    extract_lets +onlyGivenNames -merge -useContext -lift x3
    have hx3 : s₀.ChangesOnly ps x3 := by
      unfold x3
      apply State.ChangesOnly.ite
      · apply State.onAtrium_changes (List.Subset.trans (by decide) hm)
        exact hx2
      · exact hx2
    apply State.log_changes (List.Subset.trans (by decide) hm)
    exact hx3
  · exact hx1

theorem State.logPkg_changes {ps : List Part} (hm : ([.tiles, .atria] : List Part) ⊆ ps)
    {s₀ : State}  (code : ℕ) (unit : ℕ) (arg0 : ℕ) (arg1 : ℕ) {s : State} (hs : s₀.ChangesOnly ps s) :
    s₀.ChangesOnly ps (State.logPkg s code unit arg0 arg1) := by
  unfold State.logPkg
  apply State.log_changes (List.Subset.trans (by decide) hm)
  apply State.log_changes (List.Subset.trans (by decide) hm)
  exact hs

theorem State.conflict_changes {ps : List Part} (hm : ([.tiles, .atria] : List Part) ⊆ ps)
    {s₀ : State}  {s : State} (hs : s₀.ChangesOnly ps s) :
    s₀.ChangesOnly ps (State.conflict s) := by
  unfold State.conflict
  extract_lets +onlyGivenNames -merge -useContext -lift x1
  extract_lets +onlyGivenNames -merge -useContext -lift x2
  extract_lets +onlyGivenNames -merge -useContext -lift x3
  extract_lets +onlyGivenNames -merge -useContext -lift x4
  extract_lets +onlyGivenNames -merge -useContext -lift x5
  extract_lets +onlyGivenNames -merge -useContext -lift x6
  have hx6 : s₀.ChangesOnly ps x6 := by
    unfold x6
    try unfold x5
    apply State.onAtrium_changes (List.Subset.trans (by decide) hm)
    try unfold x5
    apply State.onAtrium_changes (List.Subset.trans (by decide) hm)
    exact hs
  extract_lets +onlyGivenNames -merge -useContext -lift x7
  have hx7 : s₀.ChangesOnly ps x7 := by
    unfold x7
    apply State.stepDown_changes (List.Subset.trans (by decide) hm)
    apply State.setEpoch_changes (List.Subset.trans (by decide) hm)
    exact hx6
  extract_lets +onlyGivenNames -merge -useContext -lift x8
  have hx8 : s₀.ChangesOnly ps x8 := by
    unfold x8
    apply State.onAtrium_changes (List.Subset.trans (by decide) hm)
    exact hx7
  extract_lets +onlyGivenNames -merge -useContext -lift x9
  have hx9 : s₀.ChangesOnly ps x9 := by
    unfold x9
    apply State.log_changes (List.Subset.trans (by decide) hm)
    exact hx8
  apply State.log_changes (List.Subset.trans (by decide) hm)
  exact hx9

theorem State.takeFlit_changes {ps : List Part} (hm : ([.tiles, .atria] : List Part) ⊆ ps)
    {s₀ : State} (w : Fin 2) (f : LeaseFlit)  {s : State} (hs : s₀.ChangesOnly ps s) :
    s₀.ChangesOnly ps (State.takeFlit w f s) := by
  unfold State.takeFlit
  extract_lets +onlyGivenNames -merge -useContext -lift x1
  extract_lets +onlyGivenNames -merge -useContext -lift x2
  have hx2 : s₀.ChangesOnly ps x2 := by
    unfold x2
    apply State.onAtrium_changes (List.Subset.trans (by decide) hm)
    exact hs
  apply State.ChangesOnly.ite
  · apply State.ChangesOnly.ite
    · apply State.conflict_changes (List.Subset.trans (by decide) hm)
      exact hx2
    · exact hx2
  · apply State.ChangesOnly.ite
    · exact hx2
    · extract_lets +onlyGivenNames -merge -useContext -lift x3
      extract_lets +onlyGivenNames -merge -useContext -lift x4
      have hx4 : s₀.ChangesOnly ps x4 := by
        unfold x4
        apply State.setEpoch_changes (List.Subset.trans (by decide) hm)
        exact hx2
      extract_lets +onlyGivenNames -merge -useContext -lift x5
      have hx5 : s₀.ChangesOnly ps x5 := by
        unfold x5
        apply State.onAtrium_changes (List.Subset.trans (by decide) hm)
        exact hx4
      extract_lets +onlyGivenNames -merge -useContext -lift x6
      apply State.onAtrium_changes (List.Subset.trans (by decide) hm)
      exact hx5

theorem State.authDone_changes {ps : List Part} (hm : ([.atria] : List Part) ⊆ ps)
    {s₀ : State} (w : Fin 2)  {s : State} (hs : s₀.ChangesOnly ps s) :
    s₀.ChangesOnly ps (State.authDone w s) := by
  unfold State.authDone
  apply State.onAtrium_changes (List.Subset.trans (by decide) hm)
  exact hs

theorem State.authRefuse_changes {ps : List Part} (hm : ([.atria] : List Part) ⊆ ps)
    {s₀ : State} (w : Fin 2) (status : ℕ)  {s : State} (hs : s₀.ChangesOnly ps s) :
    s₀.ChangesOnly ps (State.authRefuse w status s) := by
  unfold State.authRefuse
  apply State.onAtrium_changes (List.Subset.trans (by decide) hm)
  exact hs

theorem State.authHandover_changes {ps : List Part} (hm : ([.tiles, .atria] : List Part) ⊆ ps)
    {s₀ : State} (w : Fin 2) {s : State} (hs : s₀.ChangesOnly ps s) :
    s₀.ChangesOnly ps (State.authHandover w s) := by
  unfold State.authHandover
  apply State.ChangesOnly.ite
  · apply State.authRefuse_changes (List.Subset.trans (by decide) hm)
    exact hs
  · apply State.ChangesOnly.ite
    · apply State.authRefuse_changes (List.Subset.trans (by decide) hm)
      exact hs
    · apply State.ChangesOnly.ite
      · apply State.authRefuse_changes (List.Subset.trans (by decide) hm)
        exact hs
      · extract_lets +onlyGivenNames -merge -useContext -lift x1
        extract_lets +onlyGivenNames -merge -useContext -lift x2
        have hx2 : s₀.ChangesOnly ps x2 := by
          unfold x2
          apply State.onAtrium_changes (List.Subset.trans (by decide) hm)
          exact hs
        extract_lets +onlyGivenNames -merge -useContext -lift x3
        have hx3 : s₀.ChangesOnly ps x3 := by
          unfold x3
          apply State.onAtrium_changes (List.Subset.trans (by decide) hm)
          apply State.stepDown_changes (List.Subset.trans (by decide) hm)
          exact hx2
        extract_lets +onlyGivenNames -merge -useContext -lift x4
        have hx4 : s₀.ChangesOnly ps x4 := by
          unfold x4
          apply State.sendPacket_changes (List.Subset.trans (by decide) hm)
          exact hx3
        apply State.authDone_changes (List.Subset.trans (by decide) hm)
        apply State.log_changes (List.Subset.trans (by decide) hm)
        exact hx4

theorem State.authClaim_changes {ps : List Part} (hm : ([.tiles, .atria] : List Part) ⊆ ps)
    {s₀ : State} (w : Fin 2) {s : State} (hs : s₀.ChangesOnly ps s) :
    s₀.ChangesOnly ps (State.authClaim w s) := by
  unfold State.authClaim
  apply State.ChangesOnly.ite
  · apply State.authRefuse_changes (List.Subset.trans (by decide) hm)
    exact hs
  · extract_lets +onlyGivenNames -merge -useContext -lift x1
    have hx1 : s₀.ChangesOnly ps x1 := by
      unfold x1
      apply State.takeLease_changes (List.Subset.trans (by decide) hm)
      exact hs
    apply State.ChangesOnly.ite
    · apply State.authDone_changes (List.Subset.trans (by decide) hm)
      exact hx1
    · apply State.authRefuse_changes (List.Subset.trans (by decide) hm)
      exact hx1

theorem State.authUnfreeze_changes {ps : List Part} (hm : ([.tiles, .atria] : List Part) ⊆ ps)
    {s₀ : State} (w : Fin 2) {s : State} (hs : s₀.ChangesOnly ps s) :
    s₀.ChangesOnly ps (State.authUnfreeze w s) := by
  unfold State.authUnfreeze
  apply State.ChangesOnly.ite
  · apply State.authRefuse_changes (List.Subset.trans (by decide) hm)
    exact hs
  · apply State.ChangesOnly.ite
    · apply State.authRefuse_changes (List.Subset.trans (by decide) hm)
      exact hs
    · extract_lets +onlyGivenNames -merge -useContext -lift x1
      extract_lets +onlyGivenNames -merge -useContext -lift x2
      have hx2 : s₀.ChangesOnly ps x2 := by
        unfold x2
        apply State.ChangesOnly.ite
        · apply State.log_changes (List.Subset.trans (by decide) hm)
          unfold x1
          apply State.onAtrium_changes (List.Subset.trans (by decide) hm)
          exact hs
        · apply State.logPkg_changes (List.Subset.trans (by decide) hm)
          unfold x1
          apply State.onAtrium_changes (List.Subset.trans (by decide) hm)
          apply State.onAtrium_changes (List.Subset.trans (by decide) hm)
          exact hs
      apply State.authDone_changes (List.Subset.trans (by decide) hm)
      exact hx2

theorem State.authCmd_changes {ps : List Part} (hm : ([.tiles, .atria] : List Part) ⊆ ps)
    {s₀ : State} (w : Fin 2) (cmd : ℕ)  {s : State} (hs : s₀.ChangesOnly ps s) :
    s₀.ChangesOnly ps (State.authCmd w cmd s) := by
  unfold State.authCmd
  split
  · exact hs
  · apply State.authHandover_changes (List.Subset.trans (by decide) hm)
    exact hs
  · apply State.authClaim_changes (List.Subset.trans (by decide) hm)
    exact hs
  · apply State.authUnfreeze_changes (List.Subset.trans (by decide) hm)
    exact hs
  · apply State.authRefuse_changes (List.Subset.trans (by decide) hm)
    exact hs

theorem State.splitBegins_changes {ps : List Part} (hm : ([.tiles, .ports, .atria, .pkg] : List Part) ⊆ ps)
    {s₀ : State} (before : ℕ)  {s : State} (hs : s₀.ChangesOnly ps s) :
    s₀.ChangesOnly ps (State.splitBegins before s) := by
  unfold State.splitBegins
  extract_lets +onlyGivenNames -merge -useContext -lift x1
  extract_lets +onlyGivenNames -merge -useContext -lift x2
  apply State.refreshSets_changes (List.Subset.trans (by decide) hm)
  apply State.logPkg_changes (List.Subset.trans (by decide) hm)
  try unfold x2
  extract_lets +onlyGivenNames -merge -useContext -lift x3
  apply State.onAtrium_changes (List.Subset.trans (by decide) hm)
  try unfold x2
  extract_lets +onlyGivenNames -merge -useContext -lift x4
  apply State.onAtrium_changes (List.Subset.trans (by decide) hm)
  exact hs

theorem State.endDown_changes {ps : List Part} (hm : ([.tiles] : List Part) ⊆ ps)
    {s₀ : State} (t : Fin 8) (k : Fin 3)  {s : State} (hs : s₀.ChangesOnly ps s) :
    s₀.ChangesOnly ps (State.endDown t k s) := by
  unfold State.endDown
  apply State.onTile_changes (List.Subset.trans (by decide) hm)
  exact hs

theorem State.forward_changes {ps : List Part} (hm : ([.tiles] : List Part) ⊆ ps)
    {s₀ : State} (t : Fin 8) (first : Bool) (f : Flit) {s : State} (hs : s₀.ChangesOnly ps s) :
    s₀.ChangesOnly ps (State.forward t first f s) := by
  unfold State.forward
  split
  · split
    · apply State.onLink_changes (List.Subset.trans (by decide) hm)
      exact hs
    · apply State.routeFails_changes (List.Subset.trans (by decide) hm)
      exact hs
  · apply State.routeFails_changes (List.Subset.trans (by decide) hm)
    exact hs

theorem State.reroute_changes {ps : List Part} (hm : ([.tiles] : List Part) ⊆ ps)
    {s₀ : State} (t : Fin 8) (l : WarpLink) {s : State} (hs : s₀.ChangesOnly ps s) :
    s₀.ChangesOnly ps (State.reroute t l s) := by
  unfold State.reroute
  extract_lets +onlyGivenNames -merge -useContext -lift x1
  have hx1 : s₀.ChangesOnly ps x1 := by
    unfold x1
    apply State.ChangesOnly.foldl
    · exact hs
    · intro _ _ hu2
      apply State.forward_changes (List.Subset.trans (by decide) hm)
      exact hu2
  apply State.ChangesOnly.foldl
  · exact hx1
  · intro _ _ hu3
    apply State.forward_changes (List.Subset.trans (by decide) hm)
    exact hu3

theorem State.linkDown_changes {ps : List Part} (hm : ([.tiles, .ports, .atria, .pkg] : List Part) ⊆ ps)
    {s₀ : State} (t : Fin 8) (k : Fin 3) {s : State} (hs : s₀.ChangesOnly ps s) :
    s₀.ChangesOnly ps (State.linkDown t k s) := by
  unfold State.linkDown
  extract_lets +onlyGivenNames -merge -useContext -lift x1
  extract_lets +onlyGivenNames -merge -useContext -lift x2
  extract_lets +onlyGivenNames -merge -useContext -lift x3
  extract_lets +onlyGivenNames -merge -useContext -lift x4
  extract_lets +onlyGivenNames -merge -useContext -lift x5
  extract_lets +onlyGivenNames -merge -useContext -lift x6
  have hx6 : s₀.ChangesOnly ps x6 := by
    unfold x6
    unfold x5
    extract_lets +onlyGivenNames -merge -useContext -lift x7
    have hx7 : s₀.ChangesOnly ps x7 := by
      unfold x7
      apply State.endDown_changes (List.Subset.trans (by decide) hm)
      exact hs
    extract_lets +onlyGivenNames -merge -useContext -lift x8
    have hx8 : s₀.ChangesOnly ps x8 := by
      unfold x8
      apply State.endDown_changes (List.Subset.trans (by decide) hm)
      apply State.ChangesOnly.ite
      · exact hx7
      · apply State.onTile_changes (List.Subset.trans (by decide) hm)
        exact hx7
    apply State.ChangesOnly.ite
    · exact hx8
    · apply State.onTile_changes (List.Subset.trans (by decide) hm)
      exact hx8
  extract_lets +onlyGivenNames -merge -useContext -lift x9
  have hx9 : s₀.ChangesOnly ps x9 := by
    unfold x9
    apply State.reroute_changes (List.Subset.trans (by decide) hm)
    apply State.reroute_changes (List.Subset.trans (by decide) hm)
    exact hx6
  apply State.ChangesOnly.ite
  · apply State.ChangesOnly.ite
    · apply State.ChangesOnly.ite
      · apply State.onAtrium_changes (List.Subset.trans (by decide) hm)
        apply State.onAtrium_changes (List.Subset.trans (by decide) hm)
        exact hx9
      · exact hx9
    · apply State.ChangesOnly.ite
      · apply State.splitBegins_changes (List.Subset.trans (by decide) hm)
        exact hx9
      · apply State.refreshSets_changes (List.Subset.trans (by decide) hm)
        exact hx9
  · apply State.refreshSets_changes (List.Subset.trans (by decide) hm)
    exact hx9

theorem State.rejoinBegins_changes {ps : List Part} (hm : ([.tiles, .atria] : List Part) ⊆ ps)
    {s₀ : State} (bridge : ℕ)  {s : State} (hs : s₀.ChangesOnly ps s) :
    s₀.ChangesOnly ps (State.rejoinBegins bridge s) := by
  unfold State.rejoinBegins
  extract_lets +onlyGivenNames -merge -useContext -lift x1
  extract_lets +onlyGivenNames -merge -useContext -lift x2
  extract_lets +onlyGivenNames -merge -useContext -lift x3
  have hx3 : s₀.ChangesOnly ps x3 := by
    unfold x3
    try unfold x2
    apply State.onAtrium_changes (List.Subset.trans (by decide) hm)
    try unfold x2
    apply State.onAtrium_changes (List.Subset.trans (by decide) hm)
    exact hs
  apply State.ChangesOnly.ite
  · apply State.conflict_changes (List.Subset.trans (by decide) hm)
    exact hx3
  · extract_lets +onlyGivenNames -merge -useContext -lift x4
    extract_lets +onlyGivenNames -merge -useContext -lift x5
    apply State.ChangesOnly.ite
    · apply State.takeFlit_changes (List.Subset.trans (by decide) hm)
      exact hx3
    · apply State.ChangesOnly.ite
      · apply State.takeFlit_changes (List.Subset.trans (by decide) hm)
        exact hx3
      · exact hx3

theorem State.linkComesUp_changes {ps : List Part} (hm : ([.tiles, .ports, .atria, .pkg] : List Part) ⊆ ps)
    {s₀ : State} (t : Fin 8) (k : Fin 3) {s : State} (hs : s₀.ChangesOnly ps s) :
    s₀.ChangesOnly ps (State.linkComesUp t k s) := by
  unfold State.linkComesUp
  extract_lets +onlyGivenNames -merge -useContext -lift x1
  extract_lets +onlyGivenNames -merge -useContext -lift x2
  have hx2 : s₀.ChangesOnly ps x2 := by
    unfold x2
    unfold x1
    apply State.onLink_changes (List.Subset.trans (by decide) hm)
    apply State.onTile_changes (List.Subset.trans (by decide) hm)
    apply State.onLink_changes (List.Subset.trans (by decide) hm)
    apply State.onTile_changes (List.Subset.trans (by decide) hm)
    exact hs
  apply State.ChangesOnly.ite
  · apply State.rejoinBegins_changes (List.Subset.trans (by decide) hm)
    exact hx2
  · apply State.refreshSets_changes (List.Subset.trans (by decide) hm)
    exact hx2

theorem State.resolve_changes {ps : List Part} (hm : ([.tiles, .atria] : List Part) ⊆ ps)
    {s₀ : State} (w : Fin 2) (addr : ℕ) (value : ℕ) (put : RegFile → RegFile)  {s : State} (hs : s₀.ChangesOnly ps s) :
    s₀.ChangesOnly ps (State.resolve w addr value put s) := by
  unfold State.resolve
  apply State.ChangesOnly.ite
  · apply State.pset_changes (List.Subset.trans (by decide) hm)
    exact hs
  · extract_lets +onlyGivenNames -merge -useContext -lift x1
    apply State.logPkg_changes (List.Subset.trans (by decide) hm)
    try unfold x1
    apply State.keep_changes (List.Subset.trans (by decide) hm)
    apply State.onAtrium_changes (List.Subset.trans (by decide) hm)
    try unfold x1
    apply State.keep_changes (List.Subset.trans (by decide) hm)
    apply State.onAtrium_changes (List.Subset.trans (by decide) hm)
    exact hs

theorem State.reconcileField_changes {ps : List Part} (hm : ([.tiles, .atria] : List Part) ⊆ ps)
    {s₀ : State}  (f : Fld) {s : State} (hs : s₀.ChangesOnly ps s) :
    s₀.ChangesOnly ps (State.reconcileField s f) := by
  unfold State.reconcileField
  extract_lets +onlyGivenNames -merge -useContext -lift x1
  extract_lets +onlyGivenNames -merge -useContext -lift x2
  apply State.ChangesOnly.ite
  · exact hs
  · extract_lets +onlyGivenNames -merge -useContext -lift x3
    apply State.resolve_changes (List.Subset.trans (by decide) hm)
    exact hs

theorem State.reconcilePair_changes {ps : List Part} (hm : ([.tiles, .atria] : List Part) ⊆ ps)
    {s₀ : State}  (lo : Fld) (hi : Fld) (keep : ℕ → ℕ → ℕ) {s : State} (hs : s₀.ChangesOnly ps s) :
    s₀.ChangesOnly ps (State.reconcilePair s lo hi keep) := by
  unfold State.reconcilePair
  extract_lets +onlyGivenNames -merge -useContext -lift x1
  apply State.ChangesOnly.ite
  · exact hs
  · extract_lets +onlyGivenNames -merge -useContext -lift x2
    apply State.resolve_changes (List.Subset.trans (by decide) hm)
    exact hs

theorem State.reconcileKey_changes {ps : List Part} (hm : ([.tiles, .atria] : List Part) ⊆ ps)
    {s₀ : State}  (k : ℕ) {s : State} (hs : s₀.ChangesOnly ps s) :
    s₀.ChangesOnly ps (State.reconcileKey s k) := by
  unfold State.reconcileKey
  extract_lets +onlyGivenNames -merge -useContext -lift x1
  extract_lets +onlyGivenNames -merge -useContext -lift x2
  apply State.ChangesOnly.ite
  · exact hs
  · apply State.ChangesOnly.ite
    · apply State.pset_changes (List.Subset.trans (by decide) hm)
      exact hs
    · extract_lets +onlyGivenNames -merge -useContext -lift x3
      extract_lets +onlyGivenNames -merge -useContext -lift x4
      have hx4 : s₀.ChangesOnly ps x4 := by
        unfold x4
        apply State.selvWrites_changes (List.Subset.trans (by decide) hm)
        apply State.selvWrites_changes (List.Subset.trans (by decide) hm)
        exact hs
      extract_lets +onlyGivenNames -merge -useContext -lift x5
      have hx5 : s₀.ChangesOnly ps x5 := by
        unfold x5
        apply State.onAtrium_changes (List.Subset.trans (by decide) hm)
        apply State.onAtrium_changes (List.Subset.trans (by decide) hm)
        exact hx4
      apply State.logPkg_changes (List.Subset.trans (by decide) hm)
      exact hx5

theorem State.reconcile_changes {ps : List Part} (hm : ([.tiles, .atria] : List Part) ⊆ ps)
    {s₀ : State}  {s : State} (hs : s₀.ChangesOnly ps s) :
    s₀.ChangesOnly ps (State.reconcile s) := by
  unfold State.reconcile
  extract_lets +onlyGivenNames -merge -useContext -lift x1
  have hx1 : s₀.ChangesOnly ps x1 := by
    unfold x1
    apply State.reconcilePair_changes (List.Subset.trans (by decide) hm)
    exact hs
  extract_lets +onlyGivenNames -merge -useContext -lift x2
  have hx2 : s₀.ChangesOnly ps x2 := by
    unfold x2
    apply State.reconcilePair_changes (List.Subset.trans (by decide) hm)
    exact hx1
  extract_lets +onlyGivenNames -merge -useContext -lift x3
  have hx3 : s₀.ChangesOnly ps x3 := by
    unfold x3
    apply State.ChangesOnly.foldl
    · exact hx2
    · intro _ _ hu4
      apply State.reconcileField_changes (List.Subset.trans (by decide) hm)
      exact hu4
  extract_lets +onlyGivenNames -merge -useContext -lift x5
  have hx5 : s₀.ChangesOnly ps x5 := by
    unfold x5
    apply State.ChangesOnly.foldl
    · exact hx3
    · intro _ _ hu6
      apply State.reconcileKey_changes (List.Subset.trans (by decide) hm)
      exact hu6
  apply State.ChangesOnly.foldl
  · exact hx5
  · intro _ _ hu7
    extract_lets +onlyGivenNames -merge -useContext -lift x8
    extract_lets +onlyGivenNames -merge -useContext -lift x9
    have hx9 : s₀.ChangesOnly ps x9 := by
      unfold x9
      apply State.ChangesOnly.foldl
      · exact hu7
      · intro _ _ hu10
        apply State.reconcileField_changes (List.Subset.trans (by decide) hm)
        exact hu10
    apply State.reconcilePair_changes (List.Subset.trans (by decide) hm)
    exact hx9

theorem State.unify_changes {ps : List Part} (hm : ([.atria] : List Part) ⊆ ps)
    {s₀ : State}  {s : State} (hs : s₀.ChangesOnly ps s) :
    s₀.ChangesOnly ps (State.unify s) := by
  unfold State.unify
  apply State.ChangesOnly.foldl
  · exact hs
  · intro _ _ hu1
    apply State.ChangesOnly.ite
    · exact hu1
    · extract_lets +onlyGivenNames -merge -useContext -lift x2
      apply State.onAtrium_changes (List.Subset.trans (by decide) hm)
      apply State.onAtrium_changes (List.Subset.trans (by decide) hm)
      exact hu1

theorem State.rejoinDone_changes {ps : List Part} (hm : ([.tiles, .ports, .sets, .atria, .pkg] : List Part) ⊆ ps)
    {s₀ : State}  {s : State} (hs : s₀.ChangesOnly ps s) :
    s₀.ChangesOnly ps (State.rejoinDone s) := by
  unfold State.rejoinDone
  extract_lets +onlyGivenNames -merge -useContext -lift x1
  have hx1 : s₀.ChangesOnly ps x1 := by
    unfold x1
    apply State.ChangesOnly.foldl
    · exact hs
    · intro _ _ hu2
      apply State.ChangesOnly.ite
      · apply State.copyLag_changes (List.Subset.trans (by decide) hm)
        exact hu2
      · exact hu2
  extract_lets +onlyGivenNames -merge -useContext -lift x3
  have hx3 : s₀.ChangesOnly ps x3 := by
    unfold x3
    apply State.reconcile_changes (List.Subset.trans (by decide) hm)
    exact hx1
  extract_lets +onlyGivenNames -merge -useContext -lift x4
  extract_lets +onlyGivenNames -merge -useContext -lift x5
  extract_lets +onlyGivenNames -merge -useContext -lift x6
  apply State.refreshSets_changes (List.Subset.trans (by decide) hm)
  apply State.logPkg_changes (List.Subset.trans (by decide) hm)
  try unfold x6
  apply State.onAtrium_changes (List.Subset.trans (by decide) hm)
  try unfold x6
  apply State.onAtrium_changes (List.Subset.trans (by decide) hm)
  apply State.unify_changes (List.Subset.trans (by decide) hm)
  exact hx3

theorem State.touchTables_changes {ps : List Part} (hm : ([.tiles, .atria] : List Part) ⊆ ps)
    {s₀ : State} (t : Fin 8) (d : SetDef) (addr : ℕ) (s0 : ℕ) (ns : ℕ) {s : State} (hs : s₀.ChangesOnly ps s) :
    s₀.ChangesOnly ps (State.touchTables t d addr s0 ns s) := by
  unfold State.touchTables
  extract_lets +onlyGivenNames -merge -useContext -lift x1
  have hx1 : s₀.ChangesOnly ps x1 := by
    unfold x1
    apply State.stackTouch_changes (List.Subset.trans (by decide) hm)
    exact hs
  apply State.ChangesOnly.foldl
  · exact hx1
  · intro _ _ hu2
    apply State.ChangesOnly.ite
    · extract_lets +onlyGivenNames -merge -useContext -lift x3
      apply State.stackTouch_changes (List.Subset.trans (by decide) hm)
      apply State.askData_changes (List.Subset.trans (by decide) hm)
      exact hu2
    · apply State.sendPacket_changes (List.Subset.trans (by decide) hm)
      exact hu2

theorem State.readPart_changes {ps : List Part} (hm : ([.tiles, .atria] : List Part) ⊆ ps)
    {s₀ : State} (t : Fin 8) (u : Fin 8) (a : ℕ) {s : State} (hs : s₀.ChangesOnly ps s) :
    s₀.ChangesOnly ps (State.readPart t u a s).2 := by
  unfold State.readPart
  apply State.ChangesOnly.ite₂
  · apply State.ChangesOnly.pair
    apply State.sendPacket_changes (List.Subset.trans (by decide) hm)
    exact hs
  · extract_lets +onlyGivenNames -merge -useContext -lift x1
    have hx1 : s₀.ChangesOnly ps x1 := by
      unfold x1
      apply State.askData_changes (List.Subset.trans (by decide) hm)
      exact hs
    extract_lets +onlyGivenNames -merge -useContext -lift x2
    have hx2 : s₀.ChangesOnly ps x2.2 := by
      unfold x2
      apply State.ChangesOnly.foldl₂
      · apply State.ChangesOnly.pair
        exact hx1
      · intro _ _ hu3
        extract_lets +onlyGivenNames -merge -useContext -lift x4
        have hx4 : s₀.ChangesOnly ps x4.2 := by
          unfold x4
          apply State.checkBlock_changes (List.Subset.trans (by decide) hm)
          exact hu3
        apply State.ChangesOnly.pair
        exact hx4
    apply State.ChangesOnly.pair
    exact hx2

theorem State.readStripe_changes {ps : List Part} (hm : ([.tiles, .atria] : List Part) ⊆ ps)
    {s₀ : State} (t : Fin 8) (d : SetDef) (es : List (Option (ℕ × ℕ)))  {s : State} (hs : s₀.ChangesOnly ps s) :
    s₀.ChangesOnly ps (State.readStripe t d es s).2 := by
  unfold State.readStripe
  apply State.ChangesOnly.foldl₂
  · apply State.ChangesOnly.pair
    exact hs
  · intro _ _ hu1
    split
    · extract_lets +onlyGivenNames -merge -useContext -lift x2
      have hx2 : s₀.ChangesOnly ps x2.2 := by
        unfold x2
        apply State.readPart_changes (List.Subset.trans (by decide) hm)
        exact hu1
      apply State.ChangesOnly.pair
      exact hx2
    · exact hu1

theorem State.writePart_changes {ps : List Part} (hm : ([.tiles, .atria] : List Part) ⊆ ps)
    {s₀ : State} (d : SetDef) (m : ℕ) (a : ℕ) (wseq : ℕ) (part : List Byte) {s : State} (hs : s₀.ChangesOnly ps s) :
    s₀.ChangesOnly ps (State.writePart d m a wseq part s) := by
  unfold State.writePart
  extract_lets +onlyGivenNames -merge -useContext -lift x1
  extract_lets +onlyGivenNames -merge -useContext -lift x2
  have hx2 : s₀.ChangesOnly ps x2 := by
    unfold x2
    apply State.sendPacket_changes (List.Subset.trans (by decide) hm)
    exact hs
  extract_lets +onlyGivenNames -merge -useContext -lift x3
  have hx3 : s₀.ChangesOnly ps x3 := by
    unfold x3
    apply State.stackStamp_changes (List.Subset.trans (by decide) hm)
    exact hx2
  apply State.ChangesOnly.ite
  · exact hx3
  · extract_lets +onlyGivenNames -merge -useContext -lift x4
    have hx4 : s₀.ChangesOnly ps x4 := by
      unfold x4
      apply State.stackStamp_changes (List.Subset.trans (by decide) hm)
      exact hx3
    apply State.stackStamp_changes (List.Subset.trans (by decide) hm)
    exact hx4

theorem State.stripeStatus_changes {ps : List Part} (hm : ([.tiles, .atria] : List Part) ⊆ ps)
    {s₀ : State} (t : Fin 8) (b : BoltDesc) (k : ℕ) (status : ℕ) (r : BoltRun)  {s : State} (hs : s₀.ChangesOnly ps s) :
    s₀.ChangesOnly ps (State.stripeStatus t b k status r s).2 := by
  unfold State.stripeStatus
  extract_lets +onlyGivenNames -merge -useContext -lift x1
  have hx1 : s₀.ChangesOnly ps x1 := by
    unfold x1
    apply State.stackWrite_changes (List.Subset.trans (by decide) hm)
    exact hs
  split
  · apply State.ChangesOnly.pair
    apply State.onTile_changes (List.Subset.trans (by decide) hm)
    exact hx1
  · apply State.ChangesOnly.pair
    apply State.onTile_changes (List.Subset.trans (by decide) hm)
    exact hx1
  · apply State.ChangesOnly.pair
    exact hx1
  · apply State.ChangesOnly.pair
    exact hx1

theorem State.computeStripe_changes {ps : List Part} (hm : ([.tiles, .atria] : List Part) ⊆ ps)
    {s₀ : State} (t : Fin 8) (d : SetDef) (b : BoltDesc) (k : ℕ) (r : BoltRun)  {s : State} (hs : s₀.ChangesOnly ps s) :
    s₀.ChangesOnly ps (State.computeStripe t d b k r s).2 := by
  unfold State.computeStripe
  extract_lets +onlyGivenNames -merge -useContext -lift x1
  extract_lets +onlyGivenNames -merge -useContext -lift x2
  apply State.ChangesOnly.ite₂
  · apply State.stripeStatus_changes (List.Subset.trans (by decide) hm)
    exact hs
  · split
    rename_i _ _ p3 ep3
    have hp3 : s₀.ChangesOnly ps p3 := State.ChangesOnly.ofEq ep3 (by
        apply State.readStripe_changes (List.Subset.trans (by decide) hm)
        exact hs)
    extract_lets +onlyGivenNames -merge -useContext -lift x4
    split
    · apply State.stripeStatus_changes (List.Subset.trans (by decide) hm)
      exact hp3
    · apply State.ChangesOnly.ite₂
      · apply State.stripeStatus_changes (List.Subset.trans (by decide) hm)
        exact hp3
      · extract_lets +onlyGivenNames -merge -useContext -lift x5
        have hx5 : s₀.ChangesOnly ps x5 := by
          unfold x5
          apply State.ChangesOnly.foldl
          · exact hp3
          · intro _ _ hu6
            split
            · apply State.writePart_changes (List.Subset.trans (by decide) hm)
              exact hu6
            · exact hu6
        apply State.stripeStatus_changes (List.Subset.trans (by decide) hm)
        exact hx5

theorem State.patrolStripe_changes {ps : List Part} (hm : ([.tiles, .ports, .atria, .pkg] : List Part) ⊆ ps)
    {s₀ : State} (t : Fin 8) (d : SetDef) (b : BoltDesc) (k : ℕ) (r : BoltRun)  {s : State} (hs : s₀.ChangesOnly ps s) :
    s₀.ChangesOnly ps (State.patrolStripe t d b k r s).2 := by
  unfold State.patrolStripe
  extract_lets +onlyGivenNames -merge -useContext -lift x1
  extract_lets +onlyGivenNames -merge -useContext -lift x2
  apply State.ChangesOnly.ite₂
  · apply State.stripeStatus_changes (List.Subset.trans (by decide) hm)
    exact hs
  · split
    rename_i _ _ p3 ep3
    have hp3 : s₀.ChangesOnly ps p3 := State.ChangesOnly.ofEq ep3 (by
        apply State.readStripe_changes (List.Subset.trans (by decide) hm)
        exact hs)
    apply State.ChangesOnly.ite₂
    · apply State.stripeStatus_changes (List.Subset.trans (by decide) hm)
      exact hp3
    · split
      · split
        · apply State.ChangesOnly.ite₂
          · apply State.stripeStatus_changes (List.Subset.trans (by decide) hm)
            exact hp3
          · extract_lets +onlyGivenNames -merge -useContext -lift x4
            extract_lets +onlyGivenNames -merge -useContext -lift x5
            extract_lets +onlyGivenNames -merge -useContext -lift x6
            have hx6 : s₀.ChangesOnly ps x6 := by
              unfold x6
              apply State.stackWrite_changes (List.Subset.trans (by decide) hm)
              exact hp3
            extract_lets +onlyGivenNames -merge -useContext -lift x7
            have hx7 : s₀.ChangesOnly ps x7 := by
              unfold x7
              apply State.eventAll_changes (List.Subset.trans (by decide) hm)
              apply State.onTile_changes (List.Subset.trans (by decide) hm)
              exact hx6
            apply State.stripeStatus_changes (List.Subset.trans (by decide) hm)
            exact hx7

theorem State.finishBolt_changes {ps : List Part} (hm : ([.tiles, .ports, .atria, .pkg] : List Part) ⊆ ps)
    {s₀ : State} (t : Fin 8)  {s : State} (hs : s₀.ChangesOnly ps s) :
    s₀.ChangesOnly ps (State.finishBolt t s) := by
  unfold State.finishBolt
  split
  · exact hs
  · extract_lets +onlyGivenNames -merge -useContext -lift x1
    split
    rename_i _ p3 ep3
    have hp3 : s₀.ChangesOnly ps p3 := State.ChangesOnly.ofEq ep3 (by
        apply State.ChangesOnly.foldl₂
        · apply State.ChangesOnly.pair
          exact hs
        · intro _ _ hu2
          apply State.ChangesOnly.ite₂
          · apply State.computeStripe_changes (List.Subset.trans (by decide) hm)
            exact hu2
          · apply State.patrolStripe_changes (List.Subset.trans (by decide) hm)
            exact hu2)
    extract_lets +onlyGivenNames -merge -useContext -lift x4
    apply State.boltDone_changes (List.Subset.trans (by decide) hm)
    exact hp3

theorem State.boltUnformed_changes {ps : List Part} (hm : ([.tiles, .atria] : List Part) ⊆ ps)
    {s₀ : State} (t : Fin 8) (d : BoltDesc) {s : State} (hs : s₀.ChangesOnly ps s) :
    s₀.ChangesOnly ps (State.boltUnformed t d s) := by
  unfold State.boltUnformed
  apply State.boltRefuse_changes (List.Subset.trans (by decide) hm)
  exact hs

theorem State.boltOpen_changes {ps : List Part} (hm : ([.tiles, .ports, .sets, .atria, .pkg] : List Part) ⊆ ps)
    {s₀ : State} (t : Fin 8) (n : Fin 8) (d : BoltDesc) {s : State} (hs : s₀.ChangesOnly ps s) :
    s₀.ChangesOnly ps (State.boltOpen t n d s) := by
  unfold State.boltOpen
  extract_lets +onlyGivenNames -merge -useContext -lift x1
  extract_lets +onlyGivenNames -merge -useContext -lift x2
  extract_lets +onlyGivenNames -merge -useContext -lift x3
  extract_lets +onlyGivenNames -merge -useContext -lift x4
  apply State.ChangesOnly.ite
  · apply State.boltRefuse_changes (List.Subset.trans (by decide) hm)
    exact hs
  · extract_lets +onlyGivenNames -merge -useContext -lift x5
    extract_lets +onlyGivenNames -merge -useContext -lift x6
    extract_lets +onlyGivenNames -merge -useContext -lift x7
    extract_lets +onlyGivenNames -merge -useContext -lift x8
    extract_lets +onlyGivenNames -merge -useContext -lift x9
    split
    apply State.ChangesOnly.ite
    · apply State.setWseqNext_changes (List.Subset.trans (by decide) hm)
      rename_i p10 ep10
      have hp10 : s₀.ChangesOnly ps p10 := State.ChangesOnly.ofEq ep10 (by
          apply State.formRecords_changes (List.Subset.trans (by decide) hm)
          exact hs)
      exact hp10
    · apply State.boltUnformed_changes (List.Subset.trans (by decide) hm)
      rename_i p11 ep11
      have hp11 : s₀.ChangesOnly ps p11 := State.ChangesOnly.ofEq ep11 (by
          apply State.formRecords_changes (List.Subset.trans (by decide) hm)
          exact hs)
      exact hp11

theorem State.boltDelta_changes {ps : List Part} (hm : ([.tiles, .ports, .sets, .atria, .pkg] : List Part) ⊆ ps)
    {s₀ : State} (t : Fin 8) (n : Fin 8) (d : BoltDesc) {s : State} (hs : s₀.ChangesOnly ps s) :
    s₀.ChangesOnly ps (State.boltDelta t n d s) := by
  unfold State.boltDelta
  split
  · apply State.boltRefuse_changes (List.Subset.trans (by decide) hm)
    exact hs
  · extract_lets +onlyGivenNames -merge -useContext -lift x1
    extract_lets +onlyGivenNames -merge -useContext -lift x2
    have hx2 : s₀.ChangesOnly ps x2 := by
      unfold x2
      apply State.stackTouch_changes (List.Subset.trans (by decide) hm)
      exact hs
    extract_lets +onlyGivenNames -merge -useContext -lift x3
    split
    apply State.ChangesOnly.ite
    · rename_i p4 ep4
      have hp4 : s₀.ChangesOnly ps p4 := State.ChangesOnly.ofEq ep4 (by
          apply State.formRecords_changes (List.Subset.trans (by decide) hm)
          exact hx2)
      exact hp4
    · apply State.boltUnformed_changes (List.Subset.trans (by decide) hm)
      rename_i p5 ep5
      have hp5 : s₀.ChangesOnly ps p5 := State.ChangesOnly.ofEq ep5 (by
          apply State.formRecords_changes (List.Subset.trans (by decide) hm)
          exact hx2)
      exact hp5

theorem State.boltLand_changes {ps : List Part} (hm : ([.tiles, .ports, .sets, .atria, .pkg] : List Part) ⊆ ps)
    {s₀ : State} (t : Fin 8) (n : Fin 8) (d : BoltDesc) {s : State} (hs : s₀.ChangesOnly ps s) :
    s₀.ChangesOnly ps (State.boltLand t n d s) := by
  unfold State.boltLand
  extract_lets +onlyGivenNames -merge -useContext -lift x1
  split
  · apply State.boltRefuse_changes (List.Subset.trans (by decide) hm)
    exact hs
  · extract_lets +onlyGivenNames -merge -useContext -lift x2
    extract_lets +onlyGivenNames -merge -useContext -lift x3
    extract_lets +onlyGivenNames -merge -useContext -lift x4
    extract_lets +onlyGivenNames -merge -useContext -lift x5
    extract_lets +onlyGivenNames -merge -useContext -lift x6
    extract_lets +onlyGivenNames -merge -useContext -lift x7
    have hx7 : s₀.ChangesOnly ps x7 := by
      unfold x7
      apply State.stackTouch_changes (List.Subset.trans (by decide) hm)
      exact hs
    extract_lets +onlyGivenNames -merge -useContext -lift x8
    extract_lets +onlyGivenNames -merge -useContext -lift x9
    have hx9 : s₀.ChangesOnly ps x9 := by
      unfold x9
      apply State.ChangesOnly.ite
      · apply State.stackTouch_changes (List.Subset.trans (by decide) hm)
        apply State.stackTouch_changes (List.Subset.trans (by decide) hm)
        apply State.askData_changes (List.Subset.trans (by decide) hm)
        exact hx7
      · apply State.sendPacket_changes (List.Subset.trans (by decide) hm)
        exact hx7
    extract_lets +onlyGivenNames -merge -useContext -lift x10
    split
    apply State.ChangesOnly.ite
    · rename_i p11 ep11
      have hp11 : s₀.ChangesOnly ps p11 := State.ChangesOnly.ofEq ep11 (by
          apply State.formRecords_changes (List.Subset.trans (by decide) hm)
          exact hx9)
      exact hp11
    · apply State.boltUnformed_changes (List.Subset.trans (by decide) hm)
      rename_i p12 ep12
      have hp12 : s₀.ChangesOnly ps p12 := State.ChangesOnly.ofEq ep12 (by
          apply State.formRecords_changes (List.Subset.trans (by decide) hm)
          exact hx9)
      exact hp12

theorem State.boltVoid_changes {ps : List Part} (hm : ([.tiles, .ports, .sets, .atria, .pkg] : List Part) ⊆ ps)
    {s₀ : State} (t : Fin 8) (n : Fin 8) (d : BoltDesc) {s : State} (hs : s₀.ChangesOnly ps s) :
    s₀.ChangesOnly ps (State.boltVoid t n d s) := by
  unfold State.boltVoid
  extract_lets +onlyGivenNames -merge -useContext -lift x1
  extract_lets +onlyGivenNames -merge -useContext -lift x2
  extract_lets +onlyGivenNames -merge -useContext -lift x3
  have hx3 : s₀.ChangesOnly ps x3 := by
    unfold x3
    apply State.stackTouch_changes (List.Subset.trans (by decide) hm)
    exact hs
  split
  · apply State.boltRefuse_changes (List.Subset.trans (by decide) hm)
    exact hx3
  · apply State.ChangesOnly.ite
    · apply State.boltRefuse_changes (List.Subset.trans (by decide) hm)
      exact hx3
    · apply State.ChangesOnly.ite
      · apply State.boltRefuse_changes (List.Subset.trans (by decide) hm)
        exact hx3
      · extract_lets +onlyGivenNames -merge -useContext -lift x4
        extract_lets +onlyGivenNames -merge -useContext -lift x5
        apply State.ChangesOnly.ite
        · apply State.boltOk_changes (List.Subset.trans (by decide) hm)
          exact hx3
        · split
          apply State.ChangesOnly.ite
          · rename_i p6 ep6
            have hp6 : s₀.ChangesOnly ps p6 := State.ChangesOnly.ofEq ep6 (by
                apply State.formRecords_changes (List.Subset.trans (by decide) hm)
                exact hx3)
            exact hp6
          · apply State.boltUnformed_changes (List.Subset.trans (by decide) hm)
            rename_i p7 ep7
            have hp7 : s₀.ChangesOnly ps p7 := State.ChangesOnly.ofEq ep7 (by
                apply State.formRecords_changes (List.Subset.trans (by decide) hm)
                exact hx3)
            exact hp7

theorem State.boltRemap_changes {ps : List Part} (hm : ([.tiles, .ports, .sets, .atria, .pkg] : List Part) ⊆ ps)
    {s₀ : State} (t : Fin 8) (n : Fin 8) (d : BoltDesc) {s : State} (hs : s₀.ChangesOnly ps s) :
    s₀.ChangesOnly ps (State.boltRemap t n d s) := by
  unfold State.boltRemap
  extract_lets +onlyGivenNames -merge -useContext -lift x1
  split
  · apply State.boltRefuse_changes (List.Subset.trans (by decide) hm)
    exact hs
  · extract_lets +onlyGivenNames -merge -useContext -lift x2
    extract_lets +onlyGivenNames -merge -useContext -lift x3
    extract_lets +onlyGivenNames -merge -useContext -lift x4
    apply State.ChangesOnly.ite
    · apply State.boltRefuse_changes (List.Subset.trans (by decide) hm)
      exact hs
    · extract_lets +onlyGivenNames -merge -useContext -lift x5
      split
      apply State.ChangesOnly.ite
      · rename_i p6 ep6
        have hp6 : s₀.ChangesOnly ps p6 := State.ChangesOnly.ofEq ep6 (by
            apply State.formRecords_changes (List.Subset.trans (by decide) hm)
            exact hs)
        exact hp6
      · apply State.boltUnformed_changes (List.Subset.trans (by decide) hm)
        rename_i p7 ep7
        have hp7 : s₀.ChangesOnly ps p7 := State.ChangesOnly.ofEq ep7 (by
            apply State.formRecords_changes (List.Subset.trans (by decide) hm)
            exact hs)
        exact hp7

theorem State.boltSnap_changes {ps : List Part} (hm : ([.tiles, .atria] : List Part) ⊆ ps)
    {s₀ : State} (t : Fin 8) (n : Fin 8) (d : BoltDesc)  {s : State} (hs : s₀.ChangesOnly ps s) :
    s₀.ChangesOnly ps (State.boltSnap t n d s) := by
  unfold State.boltSnap
  extract_lets +onlyGivenNames -merge -useContext -lift x1
  extract_lets +onlyGivenNames -merge -useContext -lift x2
  have hx2 : s₀.ChangesOnly ps x2 := by
    unfold x2
    apply State.stackWrite_changes (List.Subset.trans (by decide) hm)
    exact hs
  apply State.boltDone_changes (List.Subset.trans (by decide) hm)
  exact hx2

theorem State.boltCheckpoint_changes {ps : List Part} (hm : ([.tiles, .ports, .sets, .atria, .pkg] : List Part) ⊆ ps)
    {s₀ : State} (t : Fin 8) (n : Fin 8) (d : BoltDesc) {s : State} (hs : s₀.ChangesOnly ps s) :
    s₀.ChangesOnly ps (State.boltCheckpoint t n d s) := by
  unfold State.boltCheckpoint
  extract_lets +onlyGivenNames -merge -useContext -lift x1
  have hx1 : s₀.ChangesOnly ps x1 := by
    unfold x1
    apply State.flushOwed_changes (List.Subset.trans (by decide) hm)
    exact hs
  extract_lets +onlyGivenNames -merge -useContext -lift x2
  split
  apply State.ChangesOnly.ite
  · rename_i p3 ep3
    have hp3 : s₀.ChangesOnly ps p3 := State.ChangesOnly.ofEq ep3 (by
        apply State.formRecords_changes (List.Subset.trans (by decide) hm)
        exact hx1)
    exact hp3
  · apply State.boltUnformed_changes (List.Subset.trans (by decide) hm)
    rename_i p4 ep4
    have hp4 : s₀.ChangesOnly ps p4 := State.ChangesOnly.ofEq ep4 (by
        apply State.formRecords_changes (List.Subset.trans (by decide) hm)
        exact hx1)
    exact hp4

theorem State.boltReplay_changes {ps : List Part} (hm : ([.tiles, .ports, .sets, .atria, .pkg] : List Part) ⊆ ps)
    {s₀ : State} (t : Fin 8) (n : Fin 8) (d : BoltDesc) {s : State} (hs : s₀.ChangesOnly ps s) :
    s₀.ChangesOnly ps (State.boltReplay t n d s) := by
  unfold State.boltReplay
  extract_lets +onlyGivenNames -merge -useContext -lift x1
  extract_lets +onlyGivenNames -merge -useContext -lift x2
  have hx2 : s₀.ChangesOnly ps x2 := by
    unfold x2
    apply State.stackTouch_changes (List.Subset.trans (by decide) hm)
    exact hs
  extract_lets +onlyGivenNames -merge -useContext -lift x3
  extract_lets +onlyGivenNames -merge -useContext -lift x4
  apply State.ChangesOnly.ite
  · apply State.boltRefuse_changes (List.Subset.trans (by decide) hm)
    exact hx2
  · apply State.ChangesOnly.ite
    · apply State.boltRefuse_changes (List.Subset.trans (by decide) hm)
      apply State.sset_changes (List.Subset.trans (by decide) hm)
      exact hx2
    · extract_lets +onlyGivenNames -merge -useContext -lift x5
      extract_lets +onlyGivenNames -merge -useContext -lift x6
      have hx6 : s₀.ChangesOnly ps x6 := by
        unfold x6
        apply State.onSet_changes (List.Subset.trans (by decide) hm)
        exact hx2
      extract_lets +onlyGivenNames -merge -useContext -lift x7
      extract_lets +onlyGivenNames -merge -useContext -lift x8
      extract_lets +onlyGivenNames -merge -useContext -lift x9
      have hx9 : s₀.ChangesOnly ps x9 := by
        unfold x9
        apply State.ChangesOnly.ite
        · exact hx6
        · apply State.mapChange_changes (List.Subset.trans (by decide) hm)
          exact hx6
      extract_lets +onlyGivenNames -merge -useContext -lift x10
      extract_lets +onlyGivenNames -merge -useContext -lift x11
      have hx11 : s₀.ChangesOnly ps x11 := by
        unfold x11
        apply State.ChangesOnly.foldl
        · exact hx9
        · intro _ _ hu12
          apply State.mapChange_changes (List.Subset.trans (by decide) hm)
          exact hu12
      apply State.ChangesOnly.ite
      · extract_lets +onlyGivenNames -merge -useContext -lift x13
        extract_lets +onlyGivenNames -merge -useContext -lift x14
        have hx14 : s₀.ChangesOnly ps x14 := by
          unfold x14
          apply State.onSet_changes (List.Subset.trans (by decide) hm)
          exact hx11
        apply State.onTile_changes (List.Subset.trans (by decide) hm)
        apply State.boltCount_changes (List.Subset.trans (by decide) hm)
        exact hx14
      · extract_lets +onlyGivenNames -merge -useContext -lift x15
        have hx15 : s₀.ChangesOnly ps x15 := by
          unfold x15
          apply State.onSet_changes (List.Subset.trans (by decide) hm)
          exact hx11
        apply State.refreshSet_changes (List.Subset.trans (by decide) hm)
        apply State.retryWaits_changes (List.Subset.trans (by decide) hm)
        apply State.boltOk_changes (List.Subset.trans (by decide) hm)
        exact hx15

theorem State.boltBegin_changes {ps : List Part} (hm : ([.tiles, .atria] : List Part) ⊆ ps)
    {s₀ : State} (t : Fin 8) (bg : Bool) (d : BoltDesc)  {s : State} (hs : s₀.ChangesOnly ps s) :
    s₀.ChangesOnly ps (State.boltBegin t bg d s) := by
  unfold State.boltBegin
  extract_lets +onlyGivenNames -merge -useContext -lift x1
  split
  · extract_lets +onlyGivenNames -merge -useContext -lift x2
    have hx2 : s₀.ChangesOnly ps x2 := by
      unfold x2
      apply State.touchTables_changes (List.Subset.trans (by decide) hm)
      exact hs
    apply State.onTile_changes (List.Subset.trans (by decide) hm)
    exact hx2

theorem State.takeBolt_changes {ps : List Part} (hm : ([.tiles, .ports, .sets, .atria, .pkg] : List Part) ⊆ ps)
    {s₀ : State} (t : Fin 8)  {s : State} (hs : s₀.ChangesOnly ps s) :
    s₀.ChangesOnly ps (State.takeBolt t s) := by
  unfold State.takeBolt
  split
  · exact hs
  · extract_lets +onlyGivenNames -merge -useContext -lift x1
    extract_lets +onlyGivenNames -merge -useContext -lift x2
    extract_lets +onlyGivenNames -merge -useContext -lift x3
    extract_lets +onlyGivenNames -merge -useContext -lift x4
    extract_lets +onlyGivenNames -merge -useContext -lift x5
    have hx5 : s₀.ChangesOnly ps x5 := by
      unfold x5
      apply State.stackTouch_changes (List.Subset.trans (by decide) hm)
      apply State.boltCount_changes (List.Subset.trans (by decide) hm)
      exact hs
    extract_lets +onlyGivenNames -merge -useContext -lift x6
    have hx6 : s₀.ChangesOnly ps x6 := by
      unfold x6
      apply State.onTile_changes (List.Subset.trans (by decide) hm)
      exact hx5
    extract_lets +onlyGivenNames -merge -useContext -lift x7
    apply State.ChangesOnly.ite
    · apply State.boltRefuse_changes (List.Subset.trans (by decide) hm)
      exact hx6
    · split
      · apply State.boltRefuse_changes (List.Subset.trans (by decide) hm)
        exact hx6
      · split
        · apply State.boltOpen_changes (List.Subset.trans (by decide) hm)
          exact hx6
        · apply State.boltDelta_changes (List.Subset.trans (by decide) hm)
          exact hx6
        · apply State.boltLand_changes (List.Subset.trans (by decide) hm)
          exact hx6
        · apply State.boltVoid_changes (List.Subset.trans (by decide) hm)
          exact hx6
        · apply State.boltRemap_changes (List.Subset.trans (by decide) hm)
          exact hx6
        · apply State.boltSnap_changes (List.Subset.trans (by decide) hm)
          exact hx6
        · apply State.boltCheckpoint_changes (List.Subset.trans (by decide) hm)
          exact hx6
        · apply State.boltReplay_changes (List.Subset.trans (by decide) hm)
          exact hx6
        · apply State.boltBegin_changes (List.Subset.trans (by decide) hm)
          exact hx6

theorem State.noteRecordRead_changes {ps : List Part} (hm : ([.atria] : List Part) ⊆ ps)
    {s₀ : State} (t : Fin 8)  {s : State} (hs : s₀.ChangesOnly ps s) :
    s₀.ChangesOnly ps (State.noteRecordRead t s) := by
  unfold State.noteRecordRead
  extract_lets +onlyGivenNames -merge -useContext -lift x1
  extract_lets +onlyGivenNames -merge -useContext -lift x2
  apply State.ChangesOnly.foldl
  · exact hs
  · intro _ _ hu3
    apply State.noteSelvRead_changes (List.Subset.trans (by decide) hm)
    exact hu3

theorem State.putKey_changes {ps : List Part} (hm : ([.tiles, .atria] : List Part) ⊆ ps)
    {s₀ : State} (w : Fin 2) (slot : ℕ) (ws : List Sys2Proof.DWord)  {s : State} (hs : s₀.ChangesOnly ps s) :
    s₀.ChangesOnly ps (State.putKey w slot ws s) := by
  unfold State.putKey
  apply State.ChangesOnly.ite
  · apply State.selvWrites_changes (List.Subset.trans (by decide) hm)
    exact hs
  · apply State.selvWrites_changes (List.Subset.trans (by decide) hm)
    apply State.selvWrites_changes (List.Subset.trans (by decide) hm)
    exact hs

theorem State.applyUpdate_changes {ps : List Part} (hm : ([.tiles, .atria, .fuses] : List Part) ⊆ ps)
    {s₀ : State} (w : Fin 2) (l : List Sys2Proof.Byte)  {s : State} (hs : s₀.ChangesOnly ps s) :
    s₀.ChangesOnly ps (State.applyUpdate w l s) := by
  unfold State.applyUpdate
  apply State.pw_changes (List.Subset.trans (by decide) hm)
  apply State.ChangesOnly.ite
  · exact State.putKey_changes (List.Subset.trans (by decide) hm) _ _ _ hs
  · apply State.ChangesOnly.ite
    · exact State.putKey_changes (List.Subset.trans (by decide) hm) _ _ _ hs
    · refine ⟨hs.pending, ⟨hs.later.1, hs.later.2, fun k hk => ?_⟩, hs.notBack, hs.time, hs.free, hs.heads, hs.tiles, hs.ports,
        hs.sets, hs.atria, hs.flashes, hs.boot, hs.pkg, hs.pins, fun e => absurd (hm (by decide)) e, hs.smb, hs.shadows⟩
      simp only [Nat.testBit_or, hs.later.3 k hk, Bool.true_or]

theorem State.keyGo_changes {ps : List Part} (hm : ([.free, .tiles, .atria, .fuses] : List Part) ⊆ ps)
    {s₀ : State} (q : Req) {s : State} (hs : s₀.ChangesOnly ps s) :
    s₀.ChangesOnly ps (State.keyGo q s) := by
  unfold State.keyGo
  extract_lets +onlyGivenNames -merge -useContext -lift x1
  extract_lets +onlyGivenNames -merge -useContext -lift x2
  apply State.ChangesOnly.ite
  · unfold x2
    apply State.pset_changes (List.Subset.trans (by decide) hm)
    apply State.pw_changes (List.Subset.trans (by decide) hm)
    exact hs
  · extract_lets +onlyGivenNames -merge -useContext -lift x3
    extract_lets +onlyGivenNames -merge -useContext -lift x4
    apply State.ChangesOnly.ite
    · unfold x2
      apply State.pset_changes (List.Subset.trans (by decide) hm)
      apply State.pw_changes (List.Subset.trans (by decide) hm)
      apply State.stackTouch_changes (List.Subset.trans (by decide) hm)
      exact hs
    · extract_lets +onlyGivenNames -merge -useContext -lift x5
      extract_lets +onlyGivenNames -merge -useContext -lift x6
      have hx6 : s₀.ChangesOnly ps x6 := by
        unfold x6
        apply State.stackTouch_changes (List.Subset.trans (by decide) hm)
        exact hs
      extract_lets +onlyGivenNames -merge -useContext -lift x7
      apply State.ChangesOnly.ite
      · unfold x2
        apply State.pset_changes (List.Subset.trans (by decide) hm)
        apply State.pw_changes (List.Subset.trans (by decide) hm)
        exact hx6
      · apply State.ChangesOnly.ite
        · apply State.takeFree_changes (List.Subset.trans (by decide) hm)
          unfold x2
          apply State.pset_changes (List.Subset.trans (by decide) hm)
          apply State.pw_changes (List.Subset.trans (by decide) hm)
          apply State.pset_changes (List.Subset.trans (by decide) hm)
          exact hx6
        · apply State.pset_changes (List.Subset.trans (by decide) hm)
          apply State.pw_changes (List.Subset.trans (by decide) hm)
          apply State.applyUpdate_changes (List.Subset.trans (by decide) hm)
          exact hx6

theorem State.flashRange_changes {ps : List Part} (hm : ([.tiles] : List Part) ⊆ ps)
    {s₀ : State} (w : Fin 2) (f : Fin 2) {s : State} (hs : s₀.ChangesOnly ps s) :
    s₀.ChangesOnly ps (State.flashRange w f s) := by
  unfold State.flashRange
  extract_lets +onlyGivenNames -merge -useContext -lift x1
  extract_lets +onlyGivenNames -merge -useContext -lift x2
  apply State.ChangesOnly.ite
  · apply State.onTile_changes (List.Subset.trans (by decide) hm)
    exact hs
  · exact hs

theorem State.flGo_changes {ps : List Part} (hm : ([.tiles, .atria, .flashes] : List Part) ⊆ ps)
    {s₀ : State} (q : Req) (f : Fin 2) {s : State} (hs : s₀.ChangesOnly ps s) :
    s₀.ChangesOnly ps (State.flGo q f s) := by
  unfold State.flGo
  extract_lets +onlyGivenNames -merge -useContext -lift x1
  apply State.ChangesOnly.ite
  · exact hs
  · extract_lets +onlyGivenNames -merge -useContext -lift x2
    apply State.ChangesOnly.ite
    · apply State.pw_changes (List.Subset.trans (by decide) hm)
      apply State.ChangesOnly.ite
      · apply State.flashRange_changes (List.Subset.trans (by decide) hm)
        exact hs
      · exact hs
    · extract_lets +onlyGivenNames -merge -useContext -lift x3
      extract_lets +onlyGivenNames -merge -useContext -lift x4
      extract_lets +onlyGivenNames -merge -useContext -lift x5
      extract_lets +onlyGivenNames -merge -useContext -lift x6
      extract_lets +onlyGivenNames -merge -useContext -lift x7
      apply State.onFlash_changes (List.Subset.trans (by decide) hm)
      apply State.pw_changes (List.Subset.trans (by decide) hm)
      apply State.pw_changes (List.Subset.trans (by decide) hm)
      exact hs

theorem State.flShow_changes {ps : List Part} (hm : ([.atria] : List Part) ⊆ ps)
    {s₀ : State} (f : Fin 2) (g : ℕ → Fld) (v : ℕ) {s : State} (hs : s₀.ChangesOnly ps s) :
    s₀.ChangesOnly ps (State.flShow f g v s) := by
  unfold State.flShow
  apply State.ChangesOnly.foldl
  · exact hs
  · intro _ _ hu1
    apply State.ChangesOnly.ite
    · apply State.onAtrium_changes (List.Subset.trans (by decide) hm)
      exact hu1
    · exact hu1

theorem State.flEnd_changes {ps : List Part} (hm : ([.atria, .flashes] : List Part) ⊆ ps)
    {s₀ : State} (f : Fin 2) (status : ℕ) {s : State} (hs : s₀.ChangesOnly ps s) :
    s₀.ChangesOnly ps (State.flEnd f status s) := by
  unfold State.flEnd
  extract_lets +onlyGivenNames -merge -useContext -lift x1
  have hx1 : s₀.ChangesOnly ps x1 := by
    unfold x1
    apply State.flShow_changes (List.Subset.trans (by decide) hm)
    apply State.flShow_changes (List.Subset.trans (by decide) hm)
    exact hs
  apply State.flShow_changes (List.Subset.trans (by decide) hm)
  apply State.onFlash_changes (List.Subset.trans (by decide) hm)
  exact hx1

theorem State.noteWords_changes {ps : List Part} (hm : ([.atria] : List Part) ⊆ ps)
    {s₀ : State} (t : Fin 8) (lo : ℕ) (n : ℕ) {s : State} (hs : s₀.ChangesOnly ps s) :
    s₀.ChangesOnly ps (State.noteWords t lo n s) := by
  unfold State.noteWords
  extract_lets +onlyGivenNames -merge -useContext -lift x1
  extract_lets +onlyGivenNames -merge -useContext -lift x2
  apply State.ChangesOnly.foldl
  · exact hs
  · intro _ _ hu3
    apply State.noteSelvRead_changes (List.Subset.trans (by decide) hm)
    exact hu3

theorem State.noteCheck_changes {ps : List Part} (hm : ([.atria] : List Part) ⊆ ps)
    {s₀ : State} (w : Fin 2) (fl : Fin 2) (slot : ℕ) {s : State} (hs : s₀.ChangesOnly ps s) :
    s₀.ChangesOnly ps (State.noteCheck w fl slot s) := by
  unfold State.noteCheck
  extract_lets +onlyGivenNames -merge -useContext -lift x1
  extract_lets +onlyGivenNames -merge -useContext -lift x2
  extract_lets +onlyGivenNames -merge -useContext -lift x3
  apply State.ChangesOnly.ite
  · apply State.noteWords_changes (List.Subset.trans (by decide) hm)
    exact hs
  · exact hs

theorem State.flDone_changes {ps : List Part} (hm : ([.tiles, .atria, .flashes] : List Part) ⊆ ps)
    {s₀ : State} (f : Fin 2) {s : State} (hs : s₀.ChangesOnly ps s) :
    s₀.ChangesOnly ps (State.flDone f s) := by
  unfold State.flDone
  extract_lets +onlyGivenNames -merge -useContext -lift x1
  extract_lets +onlyGivenNames -merge -useContext -lift x2
  extract_lets +onlyGivenNames -merge -useContext -lift x3
  extract_lets +onlyGivenNames -merge -useContext -lift x4
  extract_lets +onlyGivenNames -merge -useContext -lift x5
  apply State.ChangesOnly.ite
  · apply State.flEnd_changes (List.Subset.trans (by decide) hm)
    apply State.ChangesOnly.ite
    · apply State.stackTouch_changes (List.Subset.trans (by decide) hm)
      exact hs
    · exact hs
  · split
    · apply State.flEnd_changes (List.Subset.trans (by decide) hm)
      apply State.stackWrite_changes (List.Subset.trans (by decide) hm)
      exact hs
    · extract_lets +onlyGivenNames -merge -useContext -lift x6
      apply State.flEnd_changes (List.Subset.trans (by decide) hm)
      apply State.onFlash_changes (List.Subset.trans (by decide) hm)
      apply State.stackTouch_changes (List.Subset.trans (by decide) hm)
      exact hs
    · apply State.flEnd_changes (List.Subset.trans (by decide) hm)
      apply State.onFlash_changes (List.Subset.trans (by decide) hm)
      exact hs
    · extract_lets +onlyGivenNames -merge -useContext -lift x7
      extract_lets +onlyGivenNames -merge -useContext -lift x8
      apply State.flEnd_changes (List.Subset.trans (by decide) hm)
      apply State.flShow_changes (List.Subset.trans (by decide) hm)
      apply State.noteCheck_changes (List.Subset.trans (by decide) hm)
      exact hs

theorem State.persistRefuse_changes {ps : List Part} (hm : ([.atria] : List Part) ⊆ ps)
    {s₀ : State} (w : Fin 2)  {s : State} (hs : s₀.ChangesOnly ps s) :
    s₀.ChangesOnly ps (State.persistRefuse w s) := by
  unfold State.persistRefuse
  apply State.pset_changes (List.Subset.trans (by decide) hm)
  exact hs

theorem State.writeBrAck_changes {ps : List Part} (hm : ([.tiles, .atria] : List Part) ⊆ ps)
    {s₀ : State} (q : Req) (v : ℕ) {s : State} (hs : s₀.ChangesOnly ps s) :
    s₀.ChangesOnly ps (State.writeBrAck q v s) := by
  unfold State.writeBrAck
  extract_lets +onlyGivenNames -merge -useContext -lift x1
  extract_lets +onlyGivenNames -merge -useContext -lift x2
  extract_lets +onlyGivenNames -merge -useContext -lift x3
  have hx3 : s₀.ChangesOnly ps x3 := by
    unfold x3
    apply State.ChangesOnly.ite
    · apply State.noteRecordRead_changes (List.Subset.trans (by decide) hm)
      exact hs
    · exact hs
  apply State.ChangesOnly.ite
  · apply State.pw_changes (List.Subset.trans (by decide) hm)
    exact hx3
  · apply State.persistRefuse_changes (List.Subset.trans (by decide) hm)
    exact hx3

theorem State.writeMinSeq_changes {ps : List Part} (hm : ([.tiles, .atria] : List Part) ⊆ ps)
    {s₀ : State} (q : Req) (hi : Bool) (v : ℕ) {s : State} (hs : s₀.ChangesOnly ps s) :
    s₀.ChangesOnly ps (State.writeMinSeq q hi v s) := by
  unfold State.writeMinSeq
  extract_lets +onlyGivenNames -merge -useContext -lift x1
  apply State.ChangesOnly.ite
  · apply State.pw_changes (List.Subset.trans (by decide) hm)
    exact hs
  · apply State.persistRefuse_changes (List.Subset.trans (by decide) hm)
    exact hs

theorem State.writeSlots_changes {ps : List Part} (hm : ([.tiles, .atria] : List Part) ⊆ ps)
    {s₀ : State} (q : Sys2Proof.Req) (v : ℕ)  {s : State} (hs : s₀.ChangesOnly ps s) :
    s₀.ChangesOnly ps (State.writeSlots q v s) := by
  unfold State.writeSlots
  extract_lets +onlyGivenNames -merge -useContext -lift x1
  apply State.ChangesOnly.ite
  · apply State.ChangesOnly.ite
    · apply State.pset_changes (List.Subset.trans (by decide) hm)
      exact hs
    · apply State.keepPkg_changes (List.Subset.trans (by decide) hm)
      apply State.onPkg_changes (List.Subset.trans (by decide) hm)
      exact hs
  · apply State.persistRefuse_changes (List.Subset.trans (by decide) hm)
    exact hs

theorem State.evaluateFirst_changes {ps : List Part} (hm : ([.heads, .tiles, .atria] : List Part) ⊆ ps)
    {s₀ : State} (h : Fin 32) (n : ℕ) {s : State} (hs : s₀.ChangesOnly ps s) :
    s₀.ChangesOnly ps (State.evaluateFirst h n s) := by
  unfold State.evaluateFirst
  split
  · exact hs
  · extract_lets +onlyGivenNames -merge -useContext -lift x1
    extract_lets +onlyGivenNames -merge -useContext -lift x2
    extract_lets +onlyGivenNames -merge -useContext -lift x3
    extract_lets +onlyGivenNames -merge -useContext -lift x4
    have hx4 : s₀.ChangesOnly ps x4 := by
      unfold x4
      apply State.onHead_changes (List.Subset.trans (by decide) hm)
      exact hs
    split
    · apply State.noteUe_changes (List.Subset.trans (by decide) hm)
      apply State.onHead_changes (List.Subset.trans (by decide) hm)
      exact hx4
    · extract_lets +onlyGivenNames -merge -useContext -lift x5
      have hx5 : s₀.ChangesOnly ps x5 := by
        unfold x5
        apply State.noteSram_changes (List.Subset.trans (by decide) hm)
        exact hx4
      extract_lets +onlyGivenNames -merge -useContext -lift x6
      have hx6 : s₀.ChangesOnly ps x6 := by
        unfold x6
        apply State.noteSram_changes (List.Subset.trans (by decide) hm)
        exact hx5
      apply State.onHead_changes (List.Subset.trans (by decide) hm)
      exact hx6

theorem State.linkLoss_changes {ps : List Part} (hm : ([.heads, .tiles, .atria] : List Part) ⊆ ps)
    {s₀ : State} (h : Fin 32) (auto : Bool)  {s : State} (hs : s₀.ChangesOnly ps s) :
    s₀.ChangesOnly ps (State.linkLoss h auto s) := by
  unfold State.linkLoss
  extract_lets +onlyGivenNames -merge -useContext -lift x1
  have hx1 : s₀.ChangesOnly ps x1 := by
    unfold x1
    apply State.onHead_changes (List.Subset.trans (by decide) hm)
    exact hs
  apply State.onHead_changes (List.Subset.trans (by decide) hm)
  apply State.safeHead_changes (List.Subset.trans (by decide) hm)
  exact hx1

theorem State.train_changes {ps : List Part} (hm : ([.heads, .tiles, .atria] : List Part) ⊆ ps)
    {s₀ : State} (h : Fin 32)  {s : State} (hs : s₀.ChangesOnly ps s) :
    s₀.ChangesOnly ps (State.train h s) := by
  unfold State.train
  extract_lets +onlyGivenNames -merge -useContext -lift x1
  apply State.ChangesOnly.ite
  · exact hs
  · extract_lets +onlyGivenNames -merge -useContext -lift x2
    have hx2 : s₀.ChangesOnly ps x2 := by
      unfold x2
      apply State.ChangesOnly.ite
      · apply State.linkLoss_changes (List.Subset.trans (by decide) hm)
        exact hs
      · exact hs
    apply State.onHead_changes (List.Subset.trans (by decide) hm)
    exact hx2

theorem State.frameSafe_changes {ps : List Part} (hm : ([.heads, .tiles, .atria] : List Part) ⊆ ps)
    {s₀ : State} (h : Fin 32) (f : UpFrame) {s : State} (hs : s₀.ChangesOnly ps s) :
    s₀.ChangesOnly ps (State.frameSafe h f s) := by
  unfold State.frameSafe
  extract_lets +onlyGivenNames -merge -useContext -lift x1
  extract_lets +onlyGivenNames -merge -useContext -lift x2
  have hx2 : s₀.ChangesOnly ps x2 := by
    unfold x2
    apply State.ChangesOnly.ite
    · apply State.faultHead_changes (List.Subset.trans (by decide) hm)
      exact hs
    · exact hs
  extract_lets +onlyGivenNames -merge -useContext -lift x3
  extract_lets +onlyGivenNames -merge -useContext -lift x4
  have hx4 : s₀.ChangesOnly ps x4 := by
    unfold x4
    apply State.onHead_changes (List.Subset.trans (by decide) hm)
    exact hx2
  extract_lets +onlyGivenNames -merge -useContext -lift x5
  apply State.ChangesOnly.ite
  · apply State.log_changes (List.Subset.trans (by decide) hm)
    exact hx4
  · exact hx4

theorem State.upstream_changes {ps : List Part} (hm : ([.heads, .tiles, .atria] : List Part) ⊆ ps)
    {s₀ : State} (h : Fin 32) (f : UpFrame) {s : State} (hs : s₀.ChangesOnly ps s) :
    s₀.ChangesOnly ps (State.upstream h f s) := by
  unfold State.upstream
  apply State.onHead_changes (List.Subset.trans (by decide) hm)
  apply State.ChangesOnly.ite
  · apply State.frameSafe_changes (List.Subset.trans (by decide) hm)
    exact hs
  · exact hs

theorem State.safeCmd_changes {ps : List Part} (hm : ([.heads, .tiles, .atria] : List Part) ⊆ ps)
    {s₀ : State} (h : Fin 32) (v : Bool)  {s : State} (hs : s₀.ChangesOnly ps s) :
    s₀.ChangesOnly ps (State.safeCmd h v s) := by
  unfold State.safeCmd
  extract_lets +onlyGivenNames -merge -useContext -lift x1
  have hx1 : s₀.ChangesOnly ps x1 := by
    unfold x1
    apply State.onHead_changes (List.Subset.trans (by decide) hm)
    exact hs
  apply State.ChangesOnly.ite
  · apply State.safeHead_changes (List.Subset.trans (by decide) hm)
    exact hx1
  · apply State.onHead_changes (List.Subset.trans (by decide) hm)
    exact hx1

theorem State.retain_changes {ps : List Part} (hm : ([.heads, .tiles, .atria] : List Part) ⊆ ps)
    {s₀ : State} (h : Fin 32) (k : Fin 33) (v : Option ℤ) {s : State} (hs : s₀.ChangesOnly ps s) :
    s₀.ChangesOnly ps (State.retain h k v s) := by
  unfold State.retain
  extract_lets +onlyGivenNames -merge -useContext -lift x1
  split
  · exact hs
  · extract_lets +onlyGivenNames -merge -useContext -lift x2
    split
    apply State.ChangesOnly.ite
    · apply State.onHead_changes (List.Subset.trans (by decide) hm)
      exact hs
    · extract_lets +onlyGivenNames -merge -useContext -lift x3
      extract_lets +onlyGivenNames -merge -useContext -lift x4
      extract_lets +onlyGivenNames -merge -useContext -lift x5
      extract_lets +onlyGivenNames -merge -useContext -lift x6
      have hx6 : s₀.ChangesOnly ps x6 := by
        unfold x6
        apply State.stackWrite_changes (List.Subset.trans (by decide) hm)
        exact hs
      apply State.onHead_changes (List.Subset.trans (by decide) hm)
      exact hx6

theorem State.noteEntry_changes {ps : List Part} (hm : ([.tiles, .atria] : List Part) ⊆ ps)
    {s₀ : State} (h : Fin 32) (k : Fin 33) (t : ℤ) {s : State} (hs : s₀.ChangesOnly ps s) :
    s₀.ChangesOnly ps (State.noteEntry h k t s).1 := by
  unfold State.noteEntry
  extract_lets +onlyGivenNames -merge -useContext -lift x1
  extract_lets +onlyGivenNames -merge -useContext -lift x2
  extract_lets +onlyGivenNames -merge -useContext -lift x3
  extract_lets +onlyGivenNames -merge -useContext -lift x4
  extract_lets +onlyGivenNames -merge -useContext -lift x5
  apply State.ChangesOnly.fst
  apply State.noteSram_changes (List.Subset.trans (by decide) hm)
  exact hs

theorem State.channelEvents_changes {ps : List Part} (hm : ([.heads, .tiles, .atria] : List Part) ⊆ ps)
    {s₀ : State} (h : Fin 32) (k : Fin 33) (i : ℕ) (n : ℕ) {s : State} (hs : s₀.ChangesOnly ps s) :
    s₀.ChangesOnly ps (State.channelEvents h k i n s) := by
  unfold State.channelEvents
  extract_lets +onlyGivenNames -merge -useContext -lift x1
  extract_lets +onlyGivenNames -merge -useContext -lift x2
  extract_lets +onlyGivenNames -merge -useContext -lift x3
  extract_lets +onlyGivenNames -merge -useContext -lift x4
  have hx4 : s₀.ChangesOnly ps x4 := by
    unfold x4
    apply State.onHead_changes (List.Subset.trans (by decide) hm)
    exact hs
  apply State.ChangesOnly.foldl
  · exact hx4
  · intro _ _ hu5
    extract_lets +onlyGivenNames -merge -useContext -lift x6
    split
    apply State.onHead_changes (List.Subset.trans (by decide) hm)
    rename_i p7 _ ep7
    have hp7 : s₀.ChangesOnly ps p7 := State.ChangesOnly.ofEq₁ ep7 (by
        apply State.ChangesOnly.ite₁
        · apply State.noteEntry_changes (List.Subset.trans (by decide) hm)
          exact hu5
        · apply State.ChangesOnly.fst
          exact hu5)
    exact hp7

theorem State.putResult_changes {ps : List Part} (hm : ([.heads, .tiles, .atria] : List Part) ⊆ ps)
    {s₀ : State} (h : Fin 32) (l : List TrackEnd) (r : CwResult) (pass hyp held : Nat)
    {s : State} (hs : s₀.ChangesOnly ps s) : s₀.ChangesOnly ps (s.putResult h l r pass hyp held).1 := by
  unfold State.putResult
  dsimp only
  split
  · exact State.ChangesOnly.fst (State.onHead_changes (List.Subset.trans (by decide) hm) _ _ hs)
  · split
    · exact State.ChangesOnly.fst (State.onHead_changes (List.Subset.trans (by decide) hm) _ _ (State.onHead_changes (List.Subset.trans (by decide) hm) _ _ hs))
    · exact State.ChangesOnly.fst (State.onHead_changes (List.Subset.trans (by decide) hm) _ _ (State.stackWrite_changes (List.Subset.trans (by decide) hm) _ _ _ (State.onHead_changes (List.Subset.trans (by decide) hm) _ _ hs)))

theorem State.channelSample_changes {ps : List Part} (hm : ([.heads, .tiles, .atria] : List Part) ⊆ ps)
    {s₀ : State} (h : Fin 32) (k : Fin 33) (i : ℕ) (n : ℕ) (v : Option ℤ) {s : State} (hs : s₀.ChangesOnly ps s) :
    s₀.ChangesOnly ps (State.channelSample h k i n v s) := by
  unfold State.channelSample
  extract_lets +onlyGivenNames -merge -useContext -lift x1
  have hx1 : s₀.ChangesOnly ps x1 := by
    unfold x1
    apply State.channelEvents_changes (List.Subset.trans (by decide) hm)
    exact hs
  apply State.ChangesOnly.ite
  · apply State.onHead_changes (List.Subset.trans (by decide) hm)
    apply State.retain_changes (List.Subset.trans (by decide) hm)
    exact hx1
  · exact hx1

theorem State.deliver_changes {ps : List Part} (hm : ([.heads, .tiles, .atria] : List Part) ⊆ ps)
    {s₀ : State} (h : Fin 32) (i : Fin 33)  {s : State} (hs : s₀.ChangesOnly ps s) :
    s₀.ChangesOnly ps (State.deliver h i s) := by
  unfold State.deliver
  split
  · exact hs
  · extract_lets +onlyGivenNames -merge -useContext -lift x1
    split
    · extract_lets +onlyGivenNames -merge -useContext -lift x2
      have hx2 : s₀.ChangesOnly ps x2 := by
        unfold x2
        apply State.onHead_changes (List.Subset.trans (by decide) hm)
        exact hs
      extract_lets +onlyGivenNames -merge -useContext -lift x3
      have hx3 : s₀.ChangesOnly ps x3 := by
        unfold x3
        apply State.ChangesOnly.foldl
        · exact hx2
        · intro _ _ hu4
          apply State.channelSample_changes (List.Subset.trans (by decide) hm)
          exact hu4
      apply State.onHead_changes (List.Subset.trans (by decide) hm)
      exact hx3

theorem State.writeGroup_changes {ps : List Part} (hm : ([.heads, .tiles, .atria] : List Part) ⊆ ps)
    {s₀ : State} (h : Fin 32) (r : GroupRec) {s : State} (hs : s₀.ChangesOnly ps s) :
    s₀.ChangesOnly ps (State.writeGroup h r s) := by
  unfold State.writeGroup
  extract_lets +onlyGivenNames -merge -useContext -lift x1
  extract_lets +onlyGivenNames -merge -useContext -lift x2
  apply State.ChangesOnly.ite
  · apply State.ChangesOnly.foldl
    · exact hs
    · intro _ _ hu3
      apply State.verifyResult_changes (List.Subset.trans (by decide) hm)
      apply State.onHead_changes (List.Subset.trans (by decide) hm)
      exact hu3
  · extract_lets +onlyGivenNames -merge -useContext -lift x4
    extract_lets +onlyGivenNames -merge -useContext -lift x5
    extract_lets +onlyGivenNames -merge -useContext -lift x6
    extract_lets +onlyGivenNames -merge -useContext -lift x7
    extract_lets +onlyGivenNames -merge -useContext -lift x8
    extract_lets +onlyGivenNames -merge -useContext -lift x9
    have hx9 : s₀.ChangesOnly ps x9 := by
      unfold x9
      apply State.ChangesOnly.ite
      · unfold x8
        apply State.onHead_changes (List.Subset.trans (by decide) hm)
        exact hs
      · exact hs
    split
    apply State.onHead_changes (List.Subset.trans (by decide) hm)
    rename_i p10 _ ep10
    have hp10 : s₀.ChangesOnly ps p10 := State.ChangesOnly.ofEq₁ ep10 (by
        apply State.ChangesOnly.foldl₁
        · apply State.ChangesOnly.fst
          exact hx9
        · intro _ _ hu11
          extract_lets +onlyGivenNames -merge -useContext -lift x12
          extract_lets +onlyGivenNames -merge -useContext -lift x13
          have hx13 : s₀.ChangesOnly ps x13 := by
            unfold x13
            apply State.ChangesOnly.ite
            · unfold x8
              apply State.onHead_changes (List.Subset.trans (by decide) hm)
              exact hu11
            · exact hu11
          split
          apply State.ChangesOnly.fst
          rename_i p14 _ ep14
          have hp14 : s₀.ChangesOnly ps p14 := State.ChangesOnly.ofEq₁ ep14 (by
              apply State.putResult_changes (List.Subset.trans (by decide) hm)
              exact hx13)
          exact hp14)
    exact hp10

theorem State.decodeDone_changes {ps : List Part} (hm : ([.heads, .tiles, .atria] : List Part) ⊆ ps)
    {s₀ : State} (h : Fin 32) (i : Fin 32)  {s : State} (hs : s₀.ChangesOnly ps s) :
    s₀.ChangesOnly ps (State.decodeDone h i s) := by
  unfold State.decodeDone
  dsimp only
  split
  · exact hs
  · exact State.ChangesOnly.ite (State.writeGroup_changes (List.Subset.trans (by decide) hm) _ _ (State.onHead_changes (List.Subset.trans (by decide) hm) _ _ hs)) (State.onHead_changes (List.Subset.trans (by decide) hm) _ _ hs)

theorem State.orderOver_changes {ps : List Part} (hm : ([.heads, .tiles, .atria] : List Part) ⊆ ps)
    {s₀ : State} (h : Fin 32) (last : ℕ × ℕ × ℤ)  {s : State} (hs : s₀.ChangesOnly ps s) :
    s₀.ChangesOnly ps (State.orderOver h last s) := by
  unfold State.orderOver
  split
  · exact hs
  · apply State.onTile_changes (List.Subset.trans (by decide) hm)
    apply State.onHead_changes (List.Subset.trans (by decide) hm)
    apply State.ChangesOnly.foldl hs
    intro u a hu
    exact State.putResult_changes (List.Subset.trans (by decide) hm) _ _ _ _ _ _ hu

theorem State.replayStart_changes {ps : List Part} (hm : ([.heads, .tiles, .atria] : List Part) ⊆ ps)
    {s₀ : State} (t : Fin 8) {s : State} (hs : s₀.ChangesOnly ps s) :
    s₀.ChangesOnly ps (State.replayStart t s) := by
  unfold State.replayStart
  split
  · exact hs
  · extract_lets +onlyGivenNames -merge -useContext -lift x1
    extract_lets +onlyGivenNames -merge -useContext -lift x2
    have hx2 : s₀.ChangesOnly ps x2 := by
      unfold x2
      apply State.onTile_changes (List.Subset.trans (by decide) hm)
      exact hs
    extract_lets +onlyGivenNames -merge -useContext -lift x3
    split
    · exact hx2
    · split
      · apply State.onHead_changes (List.Subset.trans (by decide) hm)
        exact hx2
      · extract_lets +onlyGivenNames -merge -useContext -lift x4
        extract_lets +onlyGivenNames -merge -useContext -lift x5
        extract_lets +onlyGivenNames -merge -useContext -lift x6
        extract_lets +onlyGivenNames -merge -useContext -lift x7
        have hx7 : s₀.ChangesOnly ps x7 := by
          unfold x7
          apply State.onHead_changes (List.Subset.trans (by decide) hm)
          exact hx2
        extract_lets +onlyGivenNames -merge -useContext -lift x8
        have hx8 : s₀.ChangesOnly ps x8 := by
          unfold x8
          apply State.onTile_changes (List.Subset.trans (by decide) hm)
          exact hx7
        apply State.ChangesOnly.ite
        · apply State.orderOver_changes (List.Subset.trans (by decide) hm)
          exact hx8
        · exact hx8

theorem State.hypothesis_changes {ps : List Part} (hm : ([.heads, .tiles, .atria] : List Part) ⊆ ps)
    {s₀ : State} (t : Fin 8)  {s : State} (hs : s₀.ChangesOnly ps s) :
    s₀.ChangesOnly ps (State.hypothesis t s) := by
  unfold State.hypothesis
  split
  · exact hs
  · dsimp only
    split
    · exact State.onTile_changes (List.Subset.trans (by decide) hm) _ _ hs
    · split
      · exact State.orderOver_changes (List.Subset.trans (by decide) hm) _ _ hs
      · apply State.ChangesOnly.ite
        · apply State.orderOver_changes (List.Subset.trans (by decide) hm)
          apply State.ChangesOnly.foldl
          · apply State.onHead_changes (List.Subset.trans (by decide) hm)
            apply State.ChangesOnly.foldl hs
            intro u e hu
            split
            · exact hu
            · exact State.stackTouch_changes (List.Subset.trans (by decide) hm) _ _ _ _ hu
          · intro _ _ hv
            exact State.putResult_changes (List.Subset.trans (by decide) hm) _ _ _ _ _ _ hv
        · apply State.ChangesOnly.foldl
          · apply State.onHead_changes (List.Subset.trans (by decide) hm)
            apply State.ChangesOnly.foldl hs
            intro u e hu
            split
            · exact hu
            · exact State.stackTouch_changes (List.Subset.trans (by decide) hm) _ _ _ _ hu
          · intro _ _ hv
            exact State.putResult_changes (List.Subset.trans (by decide) hm) _ _ _ _ _ _ hv

theorem State.onQueue_changes {ps : List Part} (hm : ([.ports] : List Part) ⊆ ps)
    {s₀ : State}  (p : Fin 16) (c : ℕ) (qid : ℕ) (f : Queue → Queue) {s : State} (hs : s₀.ChangesOnly ps s) :
    s₀.ChangesOnly ps (State.onQueue s p c qid f) := by
  unfold State.onQueue
  apply State.onCtrl_changes (List.Subset.trans (by decide) hm)
  exact hs

theorem State.answer_changes {ps : List Part} (hm : ([.ports] : List Part) ⊆ ps)
    {s₀ : State} (p : Fin 16) (q : Sys2Proof.Capsule) (st : Status) (dw0 : ℕ) (data : List Sys2Proof.Byte)  {s : State} (hs : s₀.ChangesOnly ps s) :
    s₀.ChangesOnly ps (State.answer p q st dw0 data s) := by
  unfold State.answer
  apply State.post_changes (List.Subset.trans (by decide) hm)
  exact hs

theorem State.refuse_changes {ps : List Part} (hm : ([.ports] : List Part) ⊆ ps)
    {s₀ : State} (p : Fin 16) (q : Sys2Proof.Capsule) (st : Status)  {s : State} (hs : s₀.ChangesOnly ps s) :
    s₀.ChangesOnly ps (State.refuse p q st s) := by
  unfold State.refuse
  apply State.answer_changes (List.Subset.trans (by decide) hm)
  exact hs

theorem State.onCmd_changes {ps : List Part} (hm : ([.ports] : List Part) ⊆ ps)
    {s₀ : State} (p : Fin 16) (tag : ℕ) (f : HostCmd → HostCmd)  {s : State} (hs : s₀.ChangesOnly ps s) :
    s₀.ChangesOnly ps (State.onCmd p tag f s) := by
  unfold State.onCmd
  apply State.onPort_changes (List.Subset.trans (by decide) hm)
  exact hs

theorem State.dropCmd_changes {ps : List Part} (hm : ([.tiles, .ports, .pkg] : List Part) ⊆ ps)
    {s₀ : State} (p : Fin 16) (c : HostCmd)  {s : State} (hs : s₀.ChangesOnly ps s) :
    s₀.ChangesOnly ps (State.dropCmd p c s) := by
  unfold State.dropCmd
  extract_lets +onlyGivenNames -merge -useContext -lift x1
  extract_lets +onlyGivenNames -merge -useContext -lift x2
  have hx2 : s₀.ChangesOnly ps x2 := by
    unfold x2
    apply State.onPort_changes (List.Subset.trans (by decide) hm)
    exact hs
  extract_lets +onlyGivenNames -merge -useContext -lift x3
  have hx3 : s₀.ChangesOnly ps x3 := by
    unfold x3
    apply State.onTile_changes (List.Subset.trans (by decide) hm)
    exact hx2
  apply State.ChangesOnly.ite
  · exact hx3
  · refine State.ChangesOnly.record ?_
          (.inl rfl) (.inl rfl) (.inl rfl) (.inl rfl) (.inl rfl) (.inl rfl) (.inl rfl) (.inr (hm (by decide))) (.inl rfl) (.inl rfl) (.inl rfl) (.inl rfl)
    exact hx3

theorem State.finish_changes {ps : List Part} (hm : ([.tiles, .ports, .pkg] : List Part) ⊆ ps)
    {s₀ : State} (p : Fin 16) (c : HostCmd) (st : Status) (dw0 : ℕ) (data : List Sys2Proof.Byte)  {s : State} (hs : s₀.ChangesOnly ps s) :
    s₀.ChangesOnly ps (State.finish p c st dw0 data s) := by
  unfold State.finish
  extract_lets +onlyGivenNames -merge -useContext -lift x1
  have hx1 : s₀.ChangesOnly ps x1 := by
    unfold x1
    apply State.dropCmd_changes (List.Subset.trans (by decide) hm)
    exact hs
  apply State.ChangesOnly.ite
  · exact hx1
  · apply State.post_changes (List.Subset.trans (by decide) hm)
    exact hx1

theorem State.closeCmds_changes {ps : List Part} (hm : ([.tiles, .ports, .pkg] : List Part) ⊆ ps)
    {s₀ : State} (p : Fin 16) (sel : HostCmd → Bool)  {s : State} (hs : s₀.ChangesOnly ps s) :
    s₀.ChangesOnly ps (State.closeCmds p sel s) := by
  unfold State.closeCmds
  apply State.ChangesOnly.foldl
  · exact hs
  · intro _ _ hu1
    apply State.ChangesOnly.ite
    · exact hu1
    · apply State.ChangesOnly.ite
      · apply State.onCmd_changes (List.Subset.trans (by decide) hm)
        exact hu1
      · apply State.dropCmd_changes (List.Subset.trans (by decide) hm)
        exact hu1

theorem State.hcrPush_changes {ps : List Part} (hm : ([.tiles, .atria] : List Part) ⊆ ps)
    {s₀ : State} (t : Fin 8)  {s : State} (hs : s₀.ChangesOnly ps s) :
    s₀.ChangesOnly ps (State.hcrPush t s) := by
  unfold State.hcrPush
  extract_lets +onlyGivenNames -merge -useContext -lift x1
  split
  · exact hs
  · extract_lets +onlyGivenNames -merge -useContext -lift x2
    extract_lets +onlyGivenNames -merge -useContext -lift x3
    apply State.ChangesOnly.ite
    · exact hs
    · apply State.onTile_changes (List.Subset.trans (by decide) hm)
      apply State.stackWrite_changes (List.Subset.trans (by decide) hm)
      exact hs

theorem State.hcrFlush_changes {ps : List Part} (hm : ([.tiles, .atria] : List Part) ⊆ ps)
    {s₀ : State} (t : Fin 8)  {s : State} (hs : s₀.ChangesOnly ps s) :
    s₀.ChangesOnly ps (State.hcrFlush t s) := by
  unfold State.hcrFlush
  apply State.ChangesOnly.foldl
  · exact hs
  · intro _ _ hu1
    apply State.hcrPush_changes (List.Subset.trans (by decide) hm)
    exact hu1

theorem State.toFirmware_changes {ps : List Part} (hm : ([.tiles, .ports, .atria] : List Part) ⊆ ps)
    {s₀ : State} (p : Fin 16) (c : HostCmd) (kind : ℕ) (addr : ℕ) (count : ℕ) (stage : CmdStage)  {s : State} (hs : s₀.ChangesOnly ps s) :
    s₀.ChangesOnly ps (State.toFirmware p c kind addr count stage s) := by
  unfold State.toFirmware
  extract_lets +onlyGivenNames -merge -useContext -lift x1
  extract_lets +onlyGivenNames -merge -useContext -lift x2
  extract_lets +onlyGivenNames -merge -useContext -lift x3
  have hx3 : s₀.ChangesOnly ps x3 := by
    unfold x3
    apply State.onTile_changes (List.Subset.trans (by decide) hm)
    exact hs
  apply State.hcrFlush_changes (List.Subset.trans (by decide) hm)
  apply State.onCmd_changes (List.Subset.trans (by decide) hm)
  exact hx3

theorem State.addCmd_changes {ps : List Part} (hm : ([.ports] : List Part) ⊆ ps)
    {s₀ : State} (p : Fin 16) (q : Sys2Proof.Capsule) (lbn : ℕ) (count : ℕ)  {s : State} (hs : s₀.ChangesOnly ps s) :
    s₀.ChangesOnly ps (State.addCmd p q lbn count s) := by
  unfold State.addCmd
  apply State.onPort_changes (List.Subset.trans (by decide) hm)
  exact hs

theorem State.adminToFirmware_changes {ps : List Part} (hm : ([.tiles, .ports, .atria] : List Part) ⊆ ps)
    {s₀ : State} (p : Fin 16) (q : Sys2Proof.Capsule)  {s : State} (hs : s₀.ChangesOnly ps s) :
    s₀.ChangesOnly ps (State.adminToFirmware p q s) := by
  unfold State.adminToFirmware
  extract_lets +onlyGivenNames -merge -useContext -lift x1
  extract_lets +onlyGivenNames -merge -useContext -lift x2
  have hx2 : s₀.ChangesOnly ps x2 := by
    unfold x2
    apply State.addCmd_changes (List.Subset.trans (by decide) hm)
    exact hs
  split
  · exact hx2
  · apply State.toFirmware_changes (List.Subset.trans (by decide) hm)
    exact hx2

theorem State.rejectConnect_changes {ps : List Part} (hm : ([.ports] : List Part) ⊆ ps)
    {s₀ : State} (p : Fin 16) (q : Sys2Proof.Capsule) (st : Status)  {s : State} (hs : s₀.ChangesOnly ps s) :
    s₀.ChangesOnly ps (State.rejectConnect p q st s) := by
  unfold State.rejectConnect
  exact State.onPort_changes (List.Subset.trans (by decide) hm) _ _ hs

theorem State.connectAdmin_changes {ps : List Part} (hm : ([.tiles, .ports, .atria, .pkg] : List Part) ⊆ ps)
    {s₀ : State} (p : Fin 16) (q : Sys2Proof.Capsule)  {s : State} (hs : s₀.ChangesOnly ps s) :
    s₀.ChangesOnly ps (State.connectAdmin p q s) := by
  unfold State.connectAdmin
  dsimp only
  split
  · exact State.rejectConnect_changes (List.Subset.trans (by decide) hm) _ _ _ hs
  · apply State.refreshPorts_changes (List.Subset.trans (by decide) hm)
    apply State.refreshPower_changes (List.Subset.trans (by decide) hm)
    apply State.answer_changes (List.Subset.trans (by decide) hm)
    apply State.pbump_changes (List.Subset.trans (by decide) hm)
    apply State.onPort_changes (List.Subset.trans (by decide) hm)
    exact hs

theorem State.connectIo_changes {ps : List Part} (hm : ([.tiles, .ports] : List Part) ⊆ ps)
    {s₀ : State} (p : Fin 16) (q : Sys2Proof.Capsule)  {s : State} (hs : s₀.ChangesOnly ps s) :
    s₀.ChangesOnly ps (State.connectIo p q s) := by
  unfold State.connectIo
  dsimp only
  split
  · exact State.rejectConnect_changes (List.Subset.trans (by decide) hm) _ _ _ hs
  · apply State.ChangesOnly.ite
    · exact State.rejectConnect_changes (List.Subset.trans (by decide) hm) _ _ _ hs
    · apply State.answer_changes (List.Subset.trans (by decide) hm)
      apply State.pbump_changes (List.Subset.trans (by decide) hm)
      apply State.onCtrl_changes (List.Subset.trans (by decide) hm)
      exact hs

theorem State.connect_changes {ps : List Part} (hm : ([.tiles, .ports, .atria, .pkg] : List Part) ⊆ ps)
    {s₀ : State} (p : Fin 16) (q : Sys2Proof.Capsule)  {s : State} (hs : s₀.ChangesOnly ps s) :
    s₀.ChangesOnly ps (State.connect p q s) := by
  unfold State.connect
  extract_lets +onlyGivenNames -merge -useContext -lift x1
  apply State.ChangesOnly.ite
  · apply State.rejectConnect_changes (List.Subset.trans (by decide) hm)
    exact hs
  · apply State.ChangesOnly.ite
    · apply State.rejectConnect_changes (List.Subset.trans (by decide) hm)
      exact hs
    · apply State.ChangesOnly.ite
      · apply State.rejectConnect_changes (List.Subset.trans (by decide) hm)
        exact hs
      · apply State.ChangesOnly.ite
        · apply State.ChangesOnly.ite
          · apply State.connectAdmin_changes (List.Subset.trans (by decide) hm)
            exact hs
          · apply State.rejectConnect_changes (List.Subset.trans (by decide) hm)
            exact hs
        · apply State.connectIo_changes (List.Subset.trans (by decide) hm)
          exact hs

theorem State.dropCtrl_changes {ps : List Part} (hm : ([.tiles, .ports, .atria, .pkg] : List Part) ⊆ ps)
    {s₀ : State} (p : Fin 16) (c : ℕ)  {s : State} (hs : s₀.ChangesOnly ps s) :
    s₀.ChangesOnly ps (State.dropCtrl p c s) := by
  unfold State.dropCtrl
  extract_lets +onlyGivenNames -merge -useContext -lift x1
  have hx1 : s₀.ChangesOnly ps x1 := by
    unfold x1
    apply State.closeCmds_changes (List.Subset.trans (by decide) hm)
    exact hs
  apply State.refreshPorts_changes (List.Subset.trans (by decide) hm)
  apply State.refreshPower_changes (List.Subset.trans (by decide) hm)
  apply State.onPort_changes (List.Subset.trans (by decide) hm)
  exact hx1

theorem State.disconnect_changes {ps : List Part} (hm : ([.tiles, .ports, .pkg] : List Part) ⊆ ps)
    {s₀ : State} (p : Fin 16) (q : Sys2Proof.Capsule)  {s : State} (hs : s₀.ChangesOnly ps s) :
    s₀.ChangesOnly ps (State.disconnect p q s) := by
  unfold State.disconnect
  apply State.ChangesOnly.ite
  · apply State.refuse_changes (List.Subset.trans (by decide) hm)
    exact hs
  · extract_lets +onlyGivenNames -merge -useContext -lift x1
    have hx1 : s₀.ChangesOnly ps x1 := by
      unfold x1
      apply State.closeCmds_changes (List.Subset.trans (by decide) hm)
      apply State.answer_changes (List.Subset.trans (by decide) hm)
      exact hs
    apply State.onCtrl_changes (List.Subset.trans (by decide) hm)
    exact hx1

theorem State.propertyGet_changes {ps : List Part} (hm : ([.ports] : List Part) ⊆ ps)
    {s₀ : State} (p : Fin 16) (q : Sys2Proof.Capsule) (c : Ctrl)  {s : State} (hs : s₀.ChangesOnly ps s) :
    s₀.ChangesOnly ps (State.propertyGet p q c s) := by
  unfold State.propertyGet
  extract_lets +onlyGivenNames -merge -useContext -lift x1
  apply State.ChangesOnly.ite
  · apply State.refuse_changes (List.Subset.trans (by decide) hm)
    exact hs
  · split
    · try unfold x1
      apply State.post_changes (List.Subset.trans (by decide) hm)
      exact hs
    · try unfold x1
      apply State.post_changes (List.Subset.trans (by decide) hm)
      exact hs
    · try unfold x1
      apply State.post_changes (List.Subset.trans (by decide) hm)
      exact hs
    · try unfold x1
      apply State.post_changes (List.Subset.trans (by decide) hm)
      exact hs
    · apply State.refuse_changes (List.Subset.trans (by decide) hm)
      exact hs

theorem State.propertySet_changes {ps : List Part} (hm : ([.ports] : List Part) ⊆ ps)
    {s₀ : State} (p : Fin 16) (q : Sys2Proof.Capsule)  {s : State} (hs : s₀.ChangesOnly ps s) :
    s₀.ChangesOnly ps (State.propertySet p q s) := by
  unfold State.propertySet
  apply State.ChangesOnly.ite
  · apply State.refuse_changes (List.Subset.trans (by decide) hm)
    exact hs
  · apply State.ChangesOnly.ite
    · apply State.answer_changes (List.Subset.trans (by decide) hm)
      apply State.onCtrl_changes (List.Subset.trans (by decide) hm)
      exact hs
    · apply State.refuse_changes (List.Subset.trans (by decide) hm)
      exact hs

theorem State.getLogPage_changes {ps : List Part} (hm : ([.tiles, .ports, .atria] : List Part) ⊆ ps)
    {s₀ : State} (p : Fin 16) (q : Sys2Proof.Capsule) (c : Ctrl)  {s : State} (hs : s₀.ChangesOnly ps s) :
    s₀.ChangesOnly ps (State.getLogPage p q c s) := by
  have ha : ∀ {u : State} (st : Status) (d : Nat) (l : List Byte), s₀.ChangesOnly ps u →
      s₀.ChangesOnly ps (u.answer p q st d l) :=
    fun _ _ _ h => State.answer_changes (List.Subset.trans (by decide) hm) _ _ _ _ _ h
  have hr : ∀ (st : Status), s₀.ChangesOnly ps (s.refuse p q st) :=
    fun _ => State.refuse_changes (List.Subset.trans (by decide) hm) _ _ _ hs
  unfold State.getLogPage
  dsimp only
  refine State.ChangesOnly.ite (hr _) ?_
  split
  · exact ha _ _ _ hs
  · exact State.ChangesOnly.ite (ha _ _ _ hs) (State.ChangesOnly.ite (ha _ _ _ hs) (hr _))
  · exact State.adminToFirmware_changes (List.Subset.trans (by decide) hm) _ _ hs
  · exact ha _ _ _ hs
  · exact ha _ _ _ hs
  · exact State.ChangesOnly.ite (ha _ _ _ hs) (hr _)
  · exact State.ChangesOnly.ite (hr _) (State.ChangesOnly.ite (hr _) (ha _ _ _ hs))
  · exact ha _ _ _ (State.noteRecordRead_changes (List.Subset.trans (by decide) hm) _ hs)
  · exact State.ChangesOnly.ite (ha _ _ _ hs) (hr _)
  · exact hr _

theorem State.putFeature_changes {ps : List Part} (hm : ([.ports] : List Part) ⊆ ps)
    {s₀ : State} (p : Fin 16) (c : ℕ) (fid : ℕ) (v : ℕ)  {s : State} (hs : s₀.ChangesOnly ps s) :
    s₀.ChangesOnly ps (State.putFeature p c fid v s) := by
  unfold State.putFeature
  apply State.onCtrl_changes (List.Subset.trans (by decide) hm)
  exact hs

theorem State.setFeatures_changes {ps : List Part} (hm : ([.tiles, .ports, .atria, .pkg] : List Part) ⊆ ps)
    {s₀ : State} (p : Fin 16) (q : Sys2Proof.Capsule)  {s : State} (hs : s₀.ChangesOnly ps s) :
    s₀.ChangesOnly ps (State.setFeatures p q s) := by
  unfold State.setFeatures
  have bad := State.refuse_changes (List.Subset.trans (by decide) hm) p q stField hs
  have done : ∀ u, s₀.ChangesOnly ps u → s₀.ChangesOnly ps (u.answer p q stOk 0 []) := fun u hu => State.answer_changes (List.Subset.trans (by decide) hm) _ _ _ _ _ hu
  dsimp only
  apply State.ChangesOnly.ite
  · exact State.refuse_changes (List.Subset.trans (by decide) hm) _ _ _ hs
  · split
    · exact done _ (State.onPort_changes (List.Subset.trans (by decide) hm) _ _ hs)
    · exact State.ChangesOnly.ite bad (done _ (State.refreshPower_changes (List.Subset.trans (by decide) hm) _ (State.onCtrl_changes (List.Subset.trans (by decide) hm) _ _ _ hs)))
    · exact State.ChangesOnly.ite bad (done _ (State.putFeature_changes (List.Subset.trans (by decide) hm) _ _ _ _ hs))
    · exact State.ChangesOnly.ite bad (done _ (State.putFeature_changes (List.Subset.trans (by decide) hm) _ _ _ _ hs))
    · exact State.refuse_changes (List.Subset.trans (by decide) hm) _ _ _ hs
    · exact done _ (State.putFeature_changes (List.Subset.trans (by decide) hm) _ _ _ _ hs)
    · exact State.ChangesOnly.ite bad (done _ (State.onCtrl_changes (List.Subset.trans (by decide) hm) _ _ _ (State.putFeature_changes (List.Subset.trans (by decide) hm) _ _ _ _ hs)))
    · exact done _ (State.onCtrl_changes (List.Subset.trans (by decide) hm) _ _ _ hs)
    · exact State.refuse_changes (List.Subset.trans (by decide) hm) _ _ _ hs
    · split
      · exact bad
      · exact State.ChangesOnly.ite bad (done _ (State.onQueue_changes (List.Subset.trans (by decide) hm) _ _ _ _ hs))
    · exact bad

theorem State.getFeatures_changes {ps : List Part} (hm : ([.ports] : List Part) ⊆ ps)
    {s₀ : State} (p : Fin 16) (q : Sys2Proof.Capsule) (c : Ctrl)  {s : State} (hs : s₀.ChangesOnly ps s) :
    s₀.ChangesOnly ps (State.getFeatures p q c s) := by
  unfold State.getFeatures
  extract_lets +onlyGivenNames -merge -useContext -lift x1
  extract_lets +onlyGivenNames -merge -useContext -lift x2
  extract_lets +onlyGivenNames -merge -useContext -lift x3
  have hx3 : s₀.ChangesOnly ps x3 := by
    unfold x3
    apply State.refuse_changes (List.Subset.trans (by decide) hm)
    exact hs
  extract_lets +onlyGivenNames -merge -useContext -lift x4
  split
  · try unfold x2
    apply State.answer_changes (List.Subset.trans (by decide) hm)
    exact hs
  · try unfold x2
    apply State.answer_changes (List.Subset.trans (by decide) hm)
    exact hs
  · apply State.ChangesOnly.ite
    · exact hx3
    · apply State.ChangesOnly.ite
      · try unfold x2
        apply State.answer_changes (List.Subset.trans (by decide) hm)
        exact hs
      · try unfold x2
        apply State.answer_changes (List.Subset.trans (by decide) hm)
        exact hs
  · try unfold x2
    apply State.answer_changes (List.Subset.trans (by decide) hm)
    exact hs
  · try unfold x2
    apply State.answer_changes (List.Subset.trans (by decide) hm)
    exact hs
  · try unfold x2
    apply State.answer_changes (List.Subset.trans (by decide) hm)
    exact hs
  · apply State.answer_changes (List.Subset.trans (by decide) hm)
    exact hs
  · try unfold x2
    apply State.answer_changes (List.Subset.trans (by decide) hm)
    exact hs
  · apply State.ChangesOnly.ite
    · try unfold x2
      apply State.answer_changes (List.Subset.trans (by decide) hm)
      exact hs
    · apply State.refuse_changes (List.Subset.trans (by decide) hm)
      exact hs
  · split
    · exact hx3
    · try unfold x2
      apply State.answer_changes (List.Subset.trans (by decide) hm)
      exact hs
  · exact hx3

theorem State.identify_changes {ps : List Part} (hm : ([.tiles, .ports, .atria] : List Part) ⊆ ps)
    {s₀ : State} (p : Fin 16) (q : Sys2Proof.Capsule)  {s : State} (hs : s₀.ChangesOnly ps s) :
    s₀.ChangesOnly ps (State.identify p q s) := by
  unfold State.identify
  split
  · apply State.ChangesOnly.ite
    · apply State.refuse_changes (List.Subset.trans (by decide) hm)
      exact hs
    · apply State.ChangesOnly.ite
      · apply State.adminToFirmware_changes (List.Subset.trans (by decide) hm)
        exact hs
      · apply State.answer_changes (List.Subset.trans (by decide) hm)
        exact hs
  · apply State.adminToFirmware_changes (List.Subset.trans (by decide) hm)
    exact hs
  · apply State.answer_changes (List.Subset.trans (by decide) hm)
    exact hs
  · apply State.ChangesOnly.ite
    · apply State.adminToFirmware_changes (List.Subset.trans (by decide) hm)
      exact hs
    · apply State.refuse_changes (List.Subset.trans (by decide) hm)
      exact hs
  · apply State.adminToFirmware_changes (List.Subset.trans (by decide) hm)
    exact hs
  · apply State.refuse_changes (List.Subset.trans (by decide) hm)
    exact hs

theorem State.tryFlush_changes {ps : List Part} (hm : ([.tiles, .ports, .pkg] : List Part) ⊆ ps)
    {s₀ : State} (p : Fin 16) (tag : ℕ)  {s : State} (hs : s₀.ChangesOnly ps s) :
    s₀.ChangesOnly ps (State.tryFlush p tag s) := by
  unfold State.tryFlush
  split
  · exact hs
  · apply State.ChangesOnly.ite
    · apply State.finish_changes (List.Subset.trans (by decide) hm)
      exact hs
    · exact hs

theorem State.lockRequest_changes {ps : List Part} (hm : ([.tiles, .ports, .atria, .pkg] : List Part) ⊆ ps)
    {s₀ : State} (p : Fin 16) (tag : ℕ) {s : State} (hs : s₀.ChangesOnly ps s) :
    s₀.ChangesOnly ps (State.lockRequest p tag s) := by
  unfold State.lockRequest
  split
  · exact hs
  · extract_lets +onlyGivenNames -merge -useContext -lift x1
    extract_lets +onlyGivenNames -merge -useContext -lift x2
    extract_lets +onlyGivenNames -merge -useContext -lift x3
    extract_lets +onlyGivenNames -merge -useContext -lift x4
    have hx4 : s₀.ChangesOnly ps x4 := by
      unfold x4
      apply State.ChangesOnly.ite
      · exact hs
      · apply State.noteBuffer_changes (List.Subset.trans (by decide) hm)
        exact hs
    extract_lets +onlyGivenNames -merge -useContext -lift x5
    have hx5 : s₀.ChangesOnly ps x5 := by
      unfold x5
      apply State.ChangesOnly.ite
      · apply State.ChangesOnly.foldl
        · apply State.log_changes (List.Subset.trans (by decide) hm)
          apply State.onTile_changes (List.Subset.trans (by decide) hm)
          exact hx4
        · intro _ _ hu6
          apply State.refreshAna_changes (List.Subset.trans (by decide) hm)
          exact hu6
      · exact hx4
    extract_lets +onlyGivenNames -merge -useContext -lift x7
    apply State.ChangesOnly.ite
    · apply State.finish_changes (List.Subset.trans (by decide) hm)
      exact hx5
    · apply State.ChangesOnly.ite
      · exact hx5
      · apply State.ChangesOnly.ite
        · extract_lets +onlyGivenNames -merge -useContext -lift x8
          extract_lets +onlyGivenNames -merge -useContext -lift x9
          extract_lets +onlyGivenNames -merge -useContext -lift x10
          have hx10 : s₀.ChangesOnly ps x10 := by
            unfold x10
            apply State.onTile_changes (List.Subset.trans (by decide) hm)
            exact hx5
          apply State.tryFlush_changes (List.Subset.trans (by decide) hm)
          apply State.onCmd_changes (List.Subset.trans (by decide) hm)
          exact hx10
        · apply State.onTile_changes (List.Subset.trans (by decide) hm)
          exact hx5

theorem State.ioWakes_changes {ps : List Part} (hm : ([.tiles, .ports, .atria, .pkg] : List Part) ⊆ ps)
    {s₀ : State} (p : Fin 16) (c : ℕ)  {s : State} (hs : s₀.ChangesOnly ps s) :
    s₀.ChangesOnly ps (State.ioWakes p c s) := by
  unfold State.ioWakes
  have h : s₀.ChangesOnly ps { s with pkg := { s.pkg with idleSince := s.cycle } } :=
    State.ChangesOnly.record hs (.inl rfl) (.inl rfl) (.inl rfl) (.inl rfl) (.inl rfl) (.inl rfl) (.inl rfl) (.inr (hm (by decide))) (.inl rfl) (.inl rfl) (.inl rfl) (.inl rfl)
  dsimp only
  split
  · exact h
  · apply State.ChangesOnly.ite
    · apply State.refreshPower_changes (List.Subset.trans (by decide) hm)
      apply State.onCtrl_changes (List.Subset.trans (by decide) hm)
      exact h
    · exact h

theorem State.fetchIo_changes {ps : List Part} (hm : ([.tiles, .ports, .atria, .pkg] : List Part) ⊆ ps)
    {s₀ : State} (p : Fin 16) (q : Sys2Proof.Capsule)  {s : State} (hs : s₀.ChangesOnly ps s) :
    s₀.ChangesOnly ps (State.fetchIo p q s) := by
  unfold State.fetchIo
  extract_lets +onlyGivenNames -merge -useContext -lift x1
  have hx1 : s₀.ChangesOnly ps x1 := by
    unfold x1
    apply State.ioWakes_changes (List.Subset.trans (by decide) hm)
    exact hs
  split
  · apply State.refuse_changes (List.Subset.trans (by decide) hm)
    exact hx1
  · extract_lets +onlyGivenNames -merge -useContext -lift x2
    extract_lets +onlyGivenNames -merge -useContext -lift x3
    have hx3 : s₀.ChangesOnly ps x3 := by
      unfold x3
      apply State.ChangesOnly.ite
      · apply State.stackStamp_changes (List.Subset.trans (by decide) hm)
        exact hx1
      · apply State.ChangesOnly.ite
        · apply State.stackStamp_changes (List.Subset.trans (by decide) hm)
          exact hx1
        · exact hx1
    extract_lets +onlyGivenNames -merge -useContext -lift x4
    apply State.lockRequest_changes (List.Subset.trans (by decide) hm)
    apply State.sendPacket_changes (List.Subset.trans (by decide) hm)
    apply State.addCmd_changes (List.Subset.trans (by decide) hm)
    exact hx3

theorem State.abortOne_changes {ps : List Part} (hm : ([.free, .tiles, .ports, .pkg] : List Part) ⊆ ps)
    {s₀ : State} {p : Fin 16} {ctrl sqid cid : Nat} {s t : State} (hs : s₀.ChangesOnly ps s)
    (e : s.abortOne p ctrl sqid cid = some t) : s₀.ChangesOnly ps t := by
  unfold State.abortOne at e
  dsimp only at e
  split at e
  · cases e
  · split at e
    · cases e
      exact State.post_changes (List.Subset.trans (by decide) hm) _ _ _ _ (State.onQueue_changes (List.Subset.trans (by decide) hm) _ _ _ _ hs)
    · split at e
      · cases e
        exact State.post_changes (List.Subset.trans (by decide) hm) _ _ _ _ (State.onCtrl_changes (List.Subset.trans (by decide) hm) _ _ _ hs)
      · split at e
        · cases e
        · split at e
          · cases e
            exact State.finish_changes (List.Subset.trans (by decide) hm) _ _ _ _ _
              (State.takeFree_changes (List.Subset.trans (by decide) hm) hs)
          · cases e

theorem State.abortCmd_changes {ps : List Part} (hm : ([.free, .tiles, .ports, .pkg] : List Part) ⊆ ps)
    {s₀ : State} (p : Fin 16) (q : Capsule) {s : State} (hs : s₀.ChangesOnly ps s) :
    s₀.ChangesOnly ps (s.abortCmd p q) := by
  unfold State.abortCmd
  split
  · rename_i u e
    exact State.answer_changes (List.Subset.trans (by decide) hm) _ _ _ _ _ (State.pbump_changes (List.Subset.trans (by decide) hm) _ _ (State.abortOne_changes (List.Subset.trans (by decide) hm) hs e))
  · exact State.answer_changes (List.Subset.trans (by decide) hm) _ _ _ _ _ (State.pbump_changes (List.Subset.trans (by decide) hm) _ _
      (State.takeFree_changes (List.Subset.trans (by decide) hm) hs))

theorem State.eventRequest_changes {ps : List Part} (hm : ([.tiles, .ports, .atria, .pkg] : List Part) ⊆ ps)
    {s₀ : State} (p : Fin 16) (q : Sys2Proof.Capsule) (c : Ctrl)  {s : State} (hs : s₀.ChangesOnly ps s) :
    s₀.ChangesOnly ps (State.eventRequest p q c s) := by
  unfold State.eventRequest
  split
  · apply State.refreshPorts_changes (List.Subset.trans (by decide) hm)
    apply State.post_changes (List.Subset.trans (by decide) hm)
    apply State.onCtrl_changes (List.Subset.trans (by decide) hm)
    exact hs
  · apply State.ChangesOnly.ite
    · apply State.refuse_changes (List.Subset.trans (by decide) hm)
      exact hs
    · apply State.onCtrl_changes (List.Subset.trans (by decide) hm)
      exact hs

theorem State.takeAdmin_changes {ps : List Part} (hm : ([.free, .tiles, .ports, .atria, .pkg] : List Part) ⊆ ps)
    {s₀ : State} (p : Fin 16) (q : Capsule) (c : Ctrl) {s : State} (hs : s₀.ChangesOnly ps s) :
    s₀.ChangesOnly ps (State.takeAdmin p q c s) := by
  unfold State.takeAdmin
  apply State.ChangesOnly.ite
  · apply State.refuse_changes (List.Subset.trans (by decide) hm)
    exact hs
  · apply State.ChangesOnly.ite
    · apply State.refuse_changes (List.Subset.trans (by decide) hm)
      exact hs
    · apply State.ChangesOnly.ite
      · apply State.refuse_changes (List.Subset.trans (by decide) hm)
        exact hs
      · split
        · apply State.getLogPage_changes (List.Subset.trans (by decide) hm)
          exact hs
        · apply State.identify_changes (List.Subset.trans (by decide) hm)
          exact hs
        · apply State.abortCmd_changes (List.Subset.trans (by decide) hm)
          exact hs
        · apply State.setFeatures_changes (List.Subset.trans (by decide) hm)
          exact hs
        · apply State.getFeatures_changes (List.Subset.trans (by decide) hm)
          exact hs
        · apply State.eventRequest_changes (List.Subset.trans (by decide) hm)
          exact hs
        · apply State.adminToFirmware_changes (List.Subset.trans (by decide) hm)
          exact hs
        · apply State.adminToFirmware_changes (List.Subset.trans (by decide) hm)
          exact hs
        · apply State.answer_changes (List.Subset.trans (by decide) hm)
          apply State.onCtrl_changes (List.Subset.trans (by decide) hm)
          exact hs
        · apply State.refuse_changes (List.Subset.trans (by decide) hm)
          exact hs

theorem State.takeCapsule_changes {ps : List Part} (hm : ([.free, .tiles, .ports, .atria, .pkg] : List Part) ⊆ ps)
    {s₀ : State} (p : Fin 16) (q : Capsule) {s : State} (hs : s₀.ChangesOnly ps s) :
    s₀.ChangesOnly ps (State.takeCapsule p q s) := by
  unfold State.takeCapsule
  split
  · exact hs
  · apply State.ChangesOnly.ite
    · split
      · apply State.propertySet_changes (List.Subset.trans (by decide) hm)
        exact hs
      · apply State.refuse_changes (List.Subset.trans (by decide) hm)
        exact hs
      · apply State.propertyGet_changes (List.Subset.trans (by decide) hm)
        exact hs
      · apply State.disconnect_changes (List.Subset.trans (by decide) hm)
        exact hs
      · apply State.refuse_changes (List.Subset.trans (by decide) hm)
        exact hs
    · apply State.ChangesOnly.ite
      · apply State.takeAdmin_changes (List.Subset.trans (by decide) hm)
        exact hs
      · apply State.ChangesOnly.ite
        · apply State.fetchIo_changes (List.Subset.trans (by decide) hm)
          exact hs
        · apply State.refuse_changes (List.Subset.trans (by decide) hm)
          exact hs

theorem State.fetchOne_changes {ps : List Part} (hm : ([.free, .tiles, .ports, .atria, .pkg] : List Part) ⊆ ps)
    {s₀ : State} (p : Fin 16) {s : State} (hs : s₀.ChangesOnly ps s) :
    s₀.ChangesOnly ps (State.fetchOne p s) := by
  unfold State.fetchOne
  extract_lets +onlyGivenNames -merge -useContext -lift x1
  apply State.ChangesOnly.ite
  · exact hs
  · split
    · exact hs
    · split
      · exact hs
      · split
        · exact hs
        · extract_lets +onlyGivenNames -merge -useContext -lift x2
          extract_lets +onlyGivenNames -merge -useContext -lift x3
          have hx3 : s₀.ChangesOnly ps x3 := by
            unfold x3
            apply State.onPort_changes (List.Subset.trans (by decide) hm)
            exact hs
          extract_lets +onlyGivenNames -merge -useContext -lift x4
          have hx4 : s₀.ChangesOnly ps x4 := by
            unfold x4
            apply State.onQueue_changes (List.Subset.trans (by decide) hm)
            exact hx3
          apply State.takeCapsule_changes (List.Subset.trans (by decide) hm)
          apply State.pbump_changes (List.Subset.trans (by decide) hm)
          exact hx4

theorem State.portPass_changes {ps : List Part} (hm : ([.free, .tiles, .ports, .atria, .pkg] : List Part) ⊆ ps)
    {s₀ : State} (p : Fin 16) {s : State} (hs : s₀.ChangesOnly ps s) :
    s₀.ChangesOnly ps (State.portPass p s) := by
  unfold State.portPass
  extract_lets +onlyGivenNames -merge -useContext -lift x1
  have hx1 : s₀.ChangesOnly ps x1 := by
    unfold x1
    apply State.ChangesOnly.foldl
    · exact hs
    · intro _ _ hu2
      apply State.tryFlush_changes (List.Subset.trans (by decide) hm)
      exact hu2
  extract_lets +onlyGivenNames -merge -useContext -lift x3
  have hx3 : s₀.ChangesOnly ps x3 := by
    unfold x3
    apply State.ChangesOnly.foldl
    · exact hx1
    · intro _ _ hu4
      apply State.ChangesOnly.ite
      · apply State.lockRequest_changes (List.Subset.trans (by decide) hm)
        exact hu4
      · exact hu4
  apply State.ChangesOnly.foldl
  · exact hx3
  · intro _ _ hu5
    apply State.ChangesOnly.foldl
    · exact hu5
    · intro _ _ hu6
      apply State.fetchOne_changes (List.Subset.trans (by decide) hm)
      exact hu6

theorem State.hostSettle_changes {ps : List Part} (hm : ([.free, .tiles, .ports, .atria, .pkg] : List Part) ⊆ ps)
    {s₀ : State} {s : State} (hs : s₀.ChangesOnly ps s) :
    s₀.ChangesOnly ps (State.hostSettle s) := by
  unfold State.hostSettle
  extract_lets +onlyGivenNames -merge -useContext -lift x1
  apply State.ChangesOnly.foldl
  · exact hs
  · intro _ _ hu2
    apply State.ChangesOnly.foldl
    · exact hu2
    · intro _ _ hu3
      apply State.portPass_changes (List.Subset.trans (by decide) hm)
      exact hu3

theorem State.submit_changes {ps : List Part} (hm : ([.free, .tiles, .ports, .atria, .pkg] : List Part) ⊆ ps)
    {s₀ : State} (p : Fin 16) (q : Capsule) {s : State} (hs : s₀.ChangesOnly ps s) :
    s₀.ChangesOnly ps (State.submit p q s) := by
  unfold State.submit
  apply State.hostSettle_changes (List.Subset.trans (by decide) hm)
  apply State.onQueue_changes (List.Subset.trans (by decide) hm)
  exact hs

theorem State.probe_changes {ps : List Part} (hm : ([.tiles, .atria] : List Part) ⊆ ps)
    {s₀ : State} (n : Fin 8) (key : List Sys2Proof.Byte) (slots : ℕ) (x3 : ℕ) (x4 : ℕ)  {x5 : State} (hs : s₀.ChangesOnly ps x5) :
    s₀.ChangesOnly ps (State.probe n key slots x3 x4 x5).2 := by
  induction x3 generalizing x5 x4 with
  | zero => exact hs
  | succ f ih =>
    unfold State.probe
    have h := State.stackTouch_changes (List.Subset.trans (by decide) hm) (x5.aset n).cfg.homeTile
      (x5.sr n (fun j => HostReg.CI_BASE j) * 4096 + 16 * x4) 16 .other hs
    apply State.ChangesOnly.ite₂
    · exact h
    · apply State.ChangesOnly.ite₂
      · exact h
      · exact ih _ h

theorem State.indexed_changes {ps : List Part} (hm : ([.tiles, .atria] : List Part) ⊆ ps)
    {s₀ : State} (n : Fin 8) (w : ℕ) (m : ℕ) (k : ℕ)  {s : State} (hs : s₀.ChangesOnly ps s) :
    s₀.ChangesOnly ps (State.indexed n w m k s).2 := by
  unfold State.indexed
  extract_lets +onlyGivenNames -merge -useContext -lift x1
  extract_lets +onlyGivenNames -merge -useContext -lift x2
  apply State.probe_changes (List.Subset.trans (by decide) hm)
  exact hs



theorem State.hostBlock_changes {ps : List Part} (hm : ([.tiles, .atria] : List Part) ⊆ ps)
    {s₀ : State} (p : Fin 16) (stack : ℕ) (addr : ℕ) {s : State} (hs : s₀.ChangesOnly ps s) :
    s₀.ChangesOnly ps (State.hostBlock p stack addr s).2 := by
  unfold State.hostBlock
  extract_lets +onlyGivenNames -merge -useContext -lift x1
  apply State.ChangesOnly.ite₂
  · apply State.ChangesOnly.pair
    apply State.sendPacket_changes (List.Subset.trans (by decide) hm)
    exact hs
  · split
    split
    · apply State.ChangesOnly.pair
      rename_i p2 _ _ ep2
      have hp2 : s₀.ChangesOnly ps p2 := State.ChangesOnly.ofEq ep2 (by
          apply State.checkBlock_changes (List.Subset.trans (by decide) hm)
          apply State.askData_changes (List.Subset.trans (by decide) hm)
          exact hs)
      exact hp2
    · apply State.ChangesOnly.pair
      rename_i p3 _ ep3
      have hp3 : s₀.ChangesOnly ps p3 := State.ChangesOnly.ofEq ep3 (by
          apply State.checkBlock_changes (List.Subset.trans (by decide) hm)
          apply State.askData_changes (List.Subset.trans (by decide) hm)
          exact hs)
      exact hp3

theorem State.readBlock_changes {ps : List Part} (hm : ([.tiles, .atria] : List Part) ⊆ ps)
    {s₀ : State} (p : Fin 16) (c : HostCmd) (dulbe : Bool) (k : Nat) {r : ReadRun × State}
    (hr : s₀.ChangesOnly ps r.2) : s₀.ChangesOnly ps (State.readBlock p c dulbe k r).2 := by
  unfold State.readBlock
  dsimp only
  split
  · exact hr
  · split
    · exact hr
    · split <;> exact hr
    · split
      · exact hr
      · have h := fun w m j => State.indexed_changes (List.Subset.trans (by decide) hm) (nsSet c.nsid) w m j hr
        split
        · rename_i e; exact State.ChangesOnly.ofEq e (h _ _ _)
        · rename_i e
          have h2 := fun a b => State.hostBlock_changes (List.Subset.trans (by decide) hm) p a b (State.ChangesOnly.ofEq e (h _ _ _))
          split
          · rename_i e2; exact State.ChangesOnly.ofEq e2 (h2 _ _)
          · rename_i e2; exact State.ChangesOnly.ofEq e2 (h2 _ _)

theorem State.startRead_changes {ps : List Part} (hm : ([.tiles, .ports, .atria] : List Part) ⊆ ps)
    {s₀ : State} (p : Fin 16) (c : HostCmd) {s : State} (hs : s₀.ChangesOnly ps s) :
    s₀.ChangesOnly ps (s.startRead p c) := by
  unfold State.startRead
  have h : ∀ (b : Bool) (l : List Nat) (x : ReadRun),
      s₀.ChangesOnly ps (l.foldl (fun r k => State.readBlock p c b k r) (x, s)).2 := fun b l x =>
    State.ChangesOnly.foldl₂ hs fun _ _ hu => State.readBlock_changes (List.Subset.trans (by decide) hm) _ _ _ _ hu
  dsimp only
  apply State.ChangesOnly.ite
  · apply State.onCmd_changes (List.Subset.trans (by decide) hm)
    apply State.onCmd_changes (List.Subset.trans (by decide) hm)
    exact h _ _ _
  · apply State.toFirmware_changes (List.Subset.trans (by decide) hm)
    apply State.stackWrite_changes (List.Subset.trans (by decide) hm)
    apply State.onCmd_changes (List.Subset.trans (by decide) hm)
    exact h _ _ _

theorem State.onFirst_changes {ps : List Part} (hm : ([.free, .tiles, .ports, .atria, .pkg] : List Part) ⊆ ps)
    {s₀ : State} (p : Fin 16) (ok : State → HostCmd → Bool) {act : HostCmd → State → State}
    {s : State} (hs : s₀.ChangesOnly ps s) (ha : ∀ c u, s₀.ChangesOnly ps u → s₀.ChangesOnly ps (act c u)) :
    s₀.ChangesOnly ps (s.onFirst p ok act) := by
  unfold State.onFirst
  split
  · exact hs
  · exact State.hostSettle_changes (List.Subset.trans (by decide) hm) (ha _ _ hs)

theorem State.grant_changes {ps : List Part} (hm : ([.tiles, .ports, .atria, .pkg] : List Part) ⊆ ps)
    {s₀ : State} (p : Fin 16) (c : HostCmd) {s : State} (hs : s₀.ChangesOnly ps s) :
    s₀.ChangesOnly ps (State.grant p c s) := by
  unfold State.grant
  extract_lets +onlyGivenNames -merge -useContext -lift x1
  apply State.ChangesOnly.ite
  · apply State.finish_changes (List.Subset.trans (by decide) hm)
    apply State.sendPacket_changes (List.Subset.trans (by decide) hm)
    exact hs
  · extract_lets +onlyGivenNames -merge -useContext -lift x2
    have hx2 : s₀.ChangesOnly ps x2 := by
      unfold x2
      apply State.onTile_changes (List.Subset.trans (by decide) hm)
      apply State.sendPacket_changes (List.Subset.trans (by decide) hm)
      exact hs
    extract_lets +onlyGivenNames -merge -useContext -lift x3
    have hx3 : s₀.ChangesOnly ps x3 := by
      unfold x3
      apply State.onCmd_changes (List.Subset.trans (by decide) hm)
      exact hx2
    apply State.ChangesOnly.ite
    · exact hx3
    · apply State.startRead_changes (List.Subset.trans (by decide) hm)
      exact hx3

theorem State.postWrite_changes {ps : List Part} (hm : ([.tiles, .ports, .atria, .pkg] : List Part) ⊆ ps)
    {s₀ : State} (p : Fin 16) (c : HostCmd) {s : State} (hs : s₀.ChangesOnly ps s) :
    s₀.ChangesOnly ps (State.postWrite p c s) := by
  unfold State.postWrite
  extract_lets +onlyGivenNames -merge -useContext -lift x1
  have hx1 : s₀.ChangesOnly ps x1 := by
    unfold x1
    apply State.sendPacket_changes (List.Subset.trans (by decide) hm)
    exact hs
  apply State.ChangesOnly.ite
  · apply State.finish_changes (List.Subset.trans (by decide) hm)
    exact hx1
  · apply State.toFirmware_changes (List.Subset.trans (by decide) hm)
    exact hx1

theorem State.resolveWrite_changes {ps : List Part} (hm : ([.tiles, .ports, .pkg] : List Part) ⊆ ps)
    {s₀ : State} (p : Fin 16) (c : HostCmd) {s : State} (hs : s₀.ChangesOnly ps s) :
    s₀.ChangesOnly ps (State.resolveWrite p c s) := by
  unfold State.resolveWrite
  extract_lets +onlyGivenNames -merge -useContext -lift x1
  apply State.finish_changes (List.Subset.trans (by decide) hm)
  apply State.sendPacket_changes (List.Subset.trans (by decide) hm)
  exact hs

theorem State.endRead_changes {ps : List Part} (hm : ([.tiles, .ports, .pkg] : List Part) ⊆ ps)
    {s₀ : State} (p : Fin 16) (c : HostCmd)  {s : State} (hs : s₀.ChangesOnly ps s) :
    s₀.ChangesOnly ps (State.endRead p c s) := by
  unfold State.endRead
  split
  · apply State.finish_changes (List.Subset.trans (by decide) hm)
    exact hs
  · apply State.finish_changes (List.Subset.trans (by decide) hm)
    exact hs

theorem State.respBad_changes {ps : List Part} (hm : ([.tiles] : List Part) ⊆ ps)
    {s₀ : State} (t : Fin 8)  {s : State} (hs : s₀.ChangesOnly ps s) :
    s₀.ChangesOnly ps (State.respBad t s) := by
  unfold State.respBad
  apply State.onTile_changes (List.Subset.trans (by decide) hm)
  exact hs

theorem State.bindWrite_changes {ps : List Part} (hm : ([.tiles, .ports] : List Part) ⊆ ps)
    {s₀ : State} (t : Fin 8) (p : Fin 16) (c : HostCmd)  {s : State} (hs : s₀.ChangesOnly ps s) :
    s₀.ChangesOnly ps (State.bindWrite t p c s) := by
  unfold State.bindWrite
  extract_lets +onlyGivenNames -merge -useContext -lift x1
  extract_lets +onlyGivenNames -merge -useContext -lift x2
  extract_lets +onlyGivenNames -merge -useContext -lift x3
  apply State.ChangesOnly.ite
  · apply State.respBad_changes (List.Subset.trans (by decide) hm)
    exact hs
  · apply State.onCmd_changes (List.Subset.trans (by decide) hm)
    exact hs

theorem State.dataReady_changes {ps : List Part} (hm : ([.tiles, .ports, .atria] : List Part) ⊆ ps)
    {s₀ : State} (t : Fin 8) (p : Fin 16) (c : HostCmd)  {s : State} (hs : s₀.ChangesOnly ps s) :
    s₀.ChangesOnly ps (State.dataReady t p c s) := by
  unfold State.dataReady
  apply State.ChangesOnly.ite
  · exact State.respBad_changes (List.Subset.trans (by decide) hm) _ hs
  · apply State.onCmd_changes (List.Subset.trans (by decide) hm)
    apply State.ChangesOnly.foldl₂ hs
    intro u e hu
    apply State.ChangesOnly.ite₂
    · exact hu
    · have h := State.hostBlock_changes (List.Subset.trans (by decide) hm) p t.val ((s.tile t).r LockReg.RESP_ADDR + e.2) hu
      split
      · rename_i e2; exact State.ChangesOnly.ofEq e2 h
      · rename_i e2; exact State.ChangesOnly.ofEq e2 h

theorem State.failCmd_changes {ps : List Part} (hm : ([.tiles, .ports, .pkg] : List Part) ⊆ ps)
    {s₀ : State} (t : Fin 8) (p : Fin 16) (c : HostCmd)  {s : State} (hs : s₀.ChangesOnly ps s) :
    s₀.ChangesOnly ps (State.failCmd t p c s) := by
  unfold State.failCmd
  extract_lets +onlyGivenNames -merge -useContext -lift x1
  apply State.ChangesOnly.ite
  · apply State.respBad_changes (List.Subset.trans (by decide) hm)
    exact hs
  · apply State.finish_changes (List.Subset.trans (by decide) hm)
    exact hs

theorem State.doneCmd_changes {ps : List Part} (hm : ([.tiles, .ports, .pkg] : List Part) ⊆ ps)
    {s₀ : State} (t : Fin 8) (p : Fin 16) (c : HostCmd)  {s : State} (hs : s₀.ChangesOnly ps s) :
    s₀.ChangesOnly ps (State.doneCmd t p c s) := by
  unfold State.doneCmd
  apply State.ChangesOnly.ite
  · apply State.respBad_changes (List.Subset.trans (by decide) hm)
    exact hs
  · apply State.finish_changes (List.Subset.trans (by decide) hm)
    exact hs

theorem State.hcrGo_changes {ps : List Part} (hm : ([.free, .tiles, .ports, .atria, .pkg] : List Part) ⊆ ps)
    {s₀ : State} (t : Fin 8) {s : State} (hs : s₀.ChangesOnly ps s) :
    s₀.ChangesOnly ps (State.hcrGo t s) := by
  unfold State.hcrGo
  extract_lets +onlyGivenNames -merge -useContext -lift x1
  split
  · apply State.respBad_changes (List.Subset.trans (by decide) hm)
    exact hs
  · extract_lets +onlyGivenNames -merge -useContext -lift x2
    have hx2 : s₀.ChangesOnly ps x2 := by
      unfold x2
      apply State.sendPacket_changes (List.Subset.trans (by decide) hm)
      exact hs
    apply State.ChangesOnly.ite
    · apply State.respBad_changes (List.Subset.trans (by decide) hm)
      exact hx2
    · apply State.hostSettle_changes (List.Subset.trans (by decide) hm)
      split
      · apply State.bindWrite_changes (List.Subset.trans (by decide) hm)
        exact hx2
      · apply State.dataReady_changes (List.Subset.trans (by decide) hm)
        exact hx2
      · apply State.failCmd_changes (List.Subset.trans (by decide) hm)
        exact hx2
      · apply State.doneCmd_changes (List.Subset.trans (by decide) hm)
        exact hx2
      · apply State.respBad_changes (List.Subset.trans (by decide) hm)
        exact hx2

theorem State.katoExpire_changes {ps : List Part} (hm : ([.free, .tiles, .ports, .atria, .pkg] : List Part) ⊆ ps)
    {s₀ : State} (p : Fin 16) {s : State} (hs : s₀.ChangesOnly ps s) :
    s₀.ChangesOnly ps (State.katoExpire p s) := by
  unfold State.katoExpire
  split
  · exact hs
  · apply State.hostSettle_changes (List.Subset.trans (by decide) hm)
    apply State.refreshPorts_changes (List.Subset.trans (by decide) hm)
    apply State.dropCtrl_changes (List.Subset.trans (by decide) hm)
    apply State.pflag_changes (List.Subset.trans (by decide) hm)
    exact hs

theorem State.apst_changes {ps : List Part} (hm : ([.tiles, .ports, .atria, .pkg] : List Part) ⊆ ps)
    {s₀ : State} (p : Fin 16)  {s : State} (hs : s₀.ChangesOnly ps s) :
    s₀.ChangesOnly ps (State.apst p s) := by
  unfold State.apst
  apply State.refreshPower_changes (List.Subset.trans (by decide) hm)
  apply State.ChangesOnly.foldl
  · exact hs
  · intro _ _ hu1
    split
    · apply State.onCtrl_changes (List.Subset.trans (by decide) hm)
      exact hu1
    · exact hu1

theorem State.portReset_changes {ps : List Part} (hm : ([.free, .tiles, .ports, .atria, .pkg] : List Part) ⊆ ps)
    {s₀ : State} (p : Fin 16) {s : State} (hs : s₀.ChangesOnly ps s) :
    s₀.ChangesOnly ps (State.portReset p s) := by
  unfold State.portReset
  extract_lets +onlyGivenNames -merge -useContext -lift x1
  have hx1 : s₀.ChangesOnly ps x1 := by
    unfold x1
    apply State.closeCmds_changes (List.Subset.trans (by decide) hm)
    exact hs
  extract_lets +onlyGivenNames -merge -useContext -lift x2
  extract_lets +onlyGivenNames -merge -useContext -lift x3
  have hx3 : s₀.ChangesOnly ps x3 := by
    unfold x3
    apply State.onPort_changes (List.Subset.trans (by decide) hm)
    exact hx1
  extract_lets +onlyGivenNames -merge -useContext -lift x4
  have hx4 : s₀.ChangesOnly ps x4 := by
    unfold x4
    apply State.onTile_changes (List.Subset.trans (by decide) hm)
    exact hx3
  apply State.hostSettle_changes (List.Subset.trans (by decide) hm)
  apply State.refreshPorts_changes (List.Subset.trans (by decide) hm)
  apply State.refreshPower_changes (List.Subset.trans (by decide) hm)
  exact hx4

theorem State.hostTileReset_changes {ps : List Part} (hm : ([.free, .tiles, .ports, .atria, .pkg] : List Part) ⊆ ps)
    {s₀ : State} (t : Fin 8) {s : State} (hs : s₀.ChangesOnly ps s) :
    s₀.ChangesOnly ps (State.hostTileReset t s) := by
  unfold State.hostTileReset
  extract_lets +onlyGivenNames -merge -useContext -lift x1
  have hx1 : s₀.ChangesOnly ps x1 := by
    unfold x1
    apply State.portReset_changes (List.Subset.trans (by decide) hm)
    apply State.portReset_changes (List.Subset.trans (by decide) hm)
    exact hs
  extract_lets +onlyGivenNames -merge -useContext -lift x2
  have hx2 : s₀.ChangesOnly ps x2 := by
    unfold x2
    apply State.ChangesOnly.foldl
    · exact hx1
    · intro _ _ hu3
      apply State.ChangesOnly.foldl
      · exact hu3
      · intro _ _ hu4
        apply State.ChangesOnly.ite
        · apply State.finish_changes (List.Subset.trans (by decide) hm)
          exact hu4
        · exact hu4
  apply State.onTile_changes (List.Subset.trans (by decide) hm)
  exact hx2

theorem State.linkFalls_changes {ps : List Part} (hm : ([.tiles, .ports, .atria, .pkg] : List Part) ⊆ ps)
    {s₀ : State} (p : Fin 16)  {s : State} (hs : s₀.ChangesOnly ps s) :
    s₀.ChangesOnly ps (State.linkFalls p s) := by
  unfold State.linkFalls
  apply State.ChangesOnly.ite
  · apply State.refreshPorts_changes (List.Subset.trans (by decide) hm)
    apply State.onPort_changes (List.Subset.trans (by decide) hm)
    apply State.pflag_changes (List.Subset.trans (by decide) hm)
    apply State.pput_changes (List.Subset.trans (by decide) hm)
    exact hs
  · exact hs

theorem State.flowControl_changes {ps : List Part} (hm : ([.tiles, .ports] : List Part) ⊆ ps)
    {s₀ : State} (p : Fin 16) (i : ℕ)  {s : State} (hs : s₀.ChangesOnly ps s) :
    s₀.ChangesOnly ps (State.flowControl p i s) := by
  unfold State.flowControl
  extract_lets +onlyGivenNames -merge -useContext -lift x1
  extract_lets +onlyGivenNames -merge -useContext -lift x2
  extract_lets +onlyGivenNames -merge -useContext -lift x3
  extract_lets +onlyGivenNames -merge -useContext -lift x4
  extract_lets +onlyGivenNames -merge -useContext -lift x5
  apply State.ChangesOnly.ite
  · apply State.pbump_changes (List.Subset.trans (by decide) hm)
    apply State.onPort_changes (List.Subset.trans (by decide) hm)
    exact hs
  · apply State.ChangesOnly.ite
    · apply State.onPort_changes (List.Subset.trans (by decide) hm)
      exact hs
    · exact hs

theorem State.drain_changes {ps : List Part} (hm : ([.tiles, .ports] : List Part) ⊆ ps)
    {s₀ : State} (p : Fin 16) (taken : List ℕ)  {s : State} (hs : s₀.ChangesOnly ps s) :
    s₀.ChangesOnly ps (State.drain p taken s) := by
  unfold State.drain
  extract_lets +onlyGivenNames -merge -useContext -lift x1
  have hx1 : s₀.ChangesOnly ps x1 := by
    unfold x1
    apply State.onPort_changes (List.Subset.trans (by decide) hm)
    exact hs
  apply State.flowControl_changes (List.Subset.trans (by decide) hm)
  apply State.flowControl_changes (List.Subset.trans (by decide) hm)
  exact hx1

theorem State.takePause_changes {ps : List Part} (hm : ([.tiles, .ports] : List Part) ⊆ ps)
    {s₀ : State} (p : Fin 16) (l : List (ℕ × Bool))  {s : State} (hs : s₀.ChangesOnly ps s) :
    s₀.ChangesOnly ps (State.takePause p l s) := by
  unfold State.takePause
  apply State.ChangesOnly.foldl
  · exact hs
  · intro _ _ hu1
    split
    · exact hu1
    · apply State.ChangesOnly.ite
      · apply State.pbump_changes (List.Subset.trans (by decide) hm)
        apply State.onPort_changes (List.Subset.trans (by decide) hm)
        exact hu1
      · apply State.onPort_changes (List.Subset.trans (by decide) hm)
        exact hu1

theorem State.dropFrame_changes {ps : List Part} (hm : ([.tiles] : List Part) ⊆ ps)
    {s₀ : State} (p : Fin 16)  {s : State} (hs : s₀.ChangesOnly ps s) :
    s₀.ChangesOnly ps (State.dropFrame p s) := by
  unfold State.dropFrame
  apply State.pbump_changes (List.Subset.trans (by decide) hm)
  exact hs

theorem State.bufferFrame_changes {ps : List Part} (hm : ([.tiles, .ports] : List Part) ⊆ ps)
    {s₀ : State} (p : Fin 16) (pri : ℕ) (len : ℕ) {s : State} (hs : s₀.ChangesOnly ps s) :
    s₀.ChangesOnly ps (State.bufferFrame p pri len s) := by
  unfold State.bufferFrame
  split
  · apply State.flowControl_changes (List.Subset.trans (by decide) hm)
    apply State.onPort_changes (List.Subset.trans (by decide) hm)
    exact hs
  · apply State.onPort_changes (List.Subset.trans (by decide) hm)
    exact hs

theorem State.receiveFrame_changes {ps : List Part} (hm : ([.tiles, .ports, .atria, .pkg] : List Part) ⊆ ps)
    {s₀ : State} (p : Fin 16) (f : FabricFrame) {s : State} (hs : s₀.ChangesOnly ps s) :
    s₀.ChangesOnly ps (State.receiveFrame p f s) := by
  unfold State.receiveFrame
  extract_lets +onlyGivenNames -merge -useContext -lift x1
  extract_lets +onlyGivenNames -merge -useContext -lift x2
  have hx2 : s₀.ChangesOnly ps x2 := by
    unfold x2
    apply State.drain_changes (List.Subset.trans (by decide) hm)
    exact hs
  extract_lets +onlyGivenNames -merge -useContext -lift x3
  have hx3 : s₀.ChangesOnly ps x3 := by
    unfold x3
    apply State.dropFrame_changes (List.Subset.trans (by decide) hm)
    exact hx2
  extract_lets +onlyGivenNames -merge -useContext -lift x4
  have hx4 : s₀.ChangesOnly ps x4 := by
    unfold x4
    apply State.bufferFrame_changes (List.Subset.trans (by decide) hm)
    exact hx2
  extract_lets +onlyGivenNames -merge -useContext -lift x5
  have hx5 : s₀.ChangesOnly ps x5 := by
    unfold x5
    apply State.ChangesOnly.ite
    · apply State.pbump_changes (List.Subset.trans (by decide) hm)
      exact hx4
    · exact hx4
  extract_lets +onlyGivenNames -merge -useContext -lift x6
  have hx6 : s₀.ChangesOnly ps x6 := by
    unfold x6
    split
    · apply State.ChangesOnly.ite
      · apply State.takePause_changes (List.Subset.trans (by decide) hm)
        exact hx2
      · exact hx2
    · apply State.ChangesOnly.ite
      · apply State.dropFrame_changes (List.Subset.trans (by decide) hm)
        apply State.noteUe_changes (List.Subset.trans (by decide) hm)
        exact hx2
      · apply State.ChangesOnly.ite
        · apply State.ChangesOnly.ite
          · exact hx3
          · apply State.pflag_changes (List.Subset.trans (by decide) hm)
            exact hx3
        · split
          · apply State.onQueue_changes (List.Subset.trans (by decide) hm)
            exact hx5
          · exact hx5
  apply State.refreshPorts_changes (List.Subset.trans (by decide) hm)
  exact hx6

theorem State.recoverRates_changes {ps : List Part} (hm : ([.ports] : List Part) ⊆ ps)
    {s₀ : State} (p : Fin 16)  {s : State} (hs : s₀.ChangesOnly ps s) :
    s₀.ChangesOnly ps (State.recoverRates p s) := by
  unfold State.recoverRates
  extract_lets +onlyGivenNames -merge -useContext -lift x1
  extract_lets +onlyGivenNames -merge -useContext -lift x2
  apply State.onPort_changes (List.Subset.trans (by decide) hm)
  exact hs

theorem State.spareRows_changes {ps : List Part} (hm : ([.heads, .tiles] : List Part) ⊆ ps)
    {s₀ : State} (t : Fin 8) (l : List DWord) {s : State} (hs : s₀.ChangesOnly ps s) :
    s₀.ChangesOnly ps (State.spareRows t l s) := by
  unfold State.spareRows
  apply State.ChangesOnly.ite
  · exact hs
  · extract_lets +onlyGivenNames -merge -useContext -lift x1
    have hx1 : s₀.ChangesOnly ps x1 := by
      unfold x1
      apply State.ChangesOnly.foldl
      · exact hs
      · intro _ _ hu2
        apply State.onHead_changes (List.Subset.trans (by decide) hm)
        exact hu2
    apply State.onTile_changes (List.Subset.trans (by decide) hm)
    exact hx1

theorem State.applyRepairs_changes {ps : List Part} (hm : ([.heads, .tiles, .atria] : List Part) ⊆ ps)
    {s₀ : State} (t : Fin 8) {s : State} (hs : s₀.ChangesOnly ps s) :
    s₀.ChangesOnly ps (State.applyRepairs t s) := by
  unfold State.applyRepairs
  extract_lets +onlyGivenNames -merge -useContext -lift x1
  have hx1 : s₀.ChangesOnly ps x1 := by
    unfold x1
    apply State.ChangesOnly.foldl
    · exact hs
    · intro _ _ hu2
      apply State.noteSelvRead_changes (List.Subset.trans (by decide) hm)
      exact hu2
  extract_lets +onlyGivenNames -merge -useContext -lift x3
  split
  apply State.onTile_changes (List.Subset.trans (by decide) hm)
  apply State.spareRows_changes (List.Subset.trans (by decide) hm)
  apply State.spareRows_changes (List.Subset.trans (by decide) hm)
  exact hx1

theorem State.repairGo_changes {ps : List Part} (hm : ([.tiles, .atria] : List Part) ⊆ ps)
    {s₀ : State} (t : Fin 8) (add : Bool) (del : Bool) {s : State} (hs : s₀.ChangesOnly ps s) :
    s₀.ChangesOnly ps (State.repairGo t add del s) := by
  unfold State.repairGo
  extract_lets +onlyGivenNames -merge -useContext -lift x1
  extract_lets +onlyGivenNames -merge -useContext -lift x2
  extract_lets +onlyGivenNames -merge -useContext -lift x3
  apply State.ChangesOnly.ite
  · exact hs
  · apply State.ChangesOnly.ite
    · apply State.onTile_changes (List.Subset.trans (by decide) hm)
      exact hs
    · apply State.selvWrite_changes (List.Subset.trans (by decide) hm)
      exact hs

theorem State.onDma_changes {ps : List Part} (hm : ([.tiles] : List Part) ⊆ ps)
    {s₀ : State}  (t : Fin 8) (c : Fin 8) (f : DmaSt → DmaSt) {s : State} (hs : s₀.ChangesOnly ps s) :
    s₀.ChangesOnly ps (State.onDma s t c f) := by
  unfold State.onDma
  apply State.onTile_changes (List.Subset.trans (by decide) hm)
  exact hs

theorem State.dmaGo_changes {ps : List Part} (hm : ([.tiles] : List Part) ⊆ ps)
    {s₀ : State} (t : Fin 8) (c : Fin 8)  {s : State} (hs : s₀.ChangesOnly ps s) :
    s₀.ChangesOnly ps (State.dmaGo t c s) := by
  unfold State.dmaGo
  extract_lets +onlyGivenNames -merge -useContext -lift x1
  apply State.ChangesOnly.ite
  · exact hs
  · extract_lets +onlyGivenNames -merge -useContext -lift x2
    apply State.onDma_changes (List.Subset.trans (by decide) hm)
    apply State.onTile_changes (List.Subset.trans (by decide) hm)
    exact hs

theorem State.dmaStop_changes {ps : List Part} (hm : ([.tiles] : List Part) ⊆ ps)
    {s₀ : State} (t : Fin 8) (c : Fin 8)  {s : State} (hs : s₀.ChangesOnly ps s) :
    s₀.ChangesOnly ps (State.dmaStop t c s) := by
  unfold State.dmaStop
  apply State.ChangesOnly.ite
  · apply State.onDma_changes (List.Subset.trans (by decide) hm)
    exact hs
  · exact hs

theorem State.dmaHalt_changes {ps : List Part} (hm : ([.tiles] : List Part) ⊆ ps)
    {s₀ : State} (t : Fin 8) (c : Fin 8) (status : ℕ) (offset : ℕ)  {s : State} (hs : s₀.ChangesOnly ps s) :
    s₀.ChangesOnly ps (State.dmaHalt t c status offset s) := by
  unfold State.dmaHalt
  apply State.onDma_changes (List.Subset.trans (by decide) hm)
  apply State.onTile_changes (List.Subset.trans (by decide) hm)
  exact hs

theorem State.dmaLine_changes {ps : List Part} (hm : ([.tiles, .atria] : List Part) ⊆ ps)
    {s₀ : State} (t : Fin 8) (a : ℕ) (off : ℕ) {s : State} (hs : s₀.ChangesOnly ps s) :
    s₀.ChangesOnly ps (State.dmaLine t a off s).2 := by
  unfold State.dmaLine
  extract_lets +onlyGivenNames -merge -useContext -lift x1
  apply State.ChangesOnly.ite₂
  · extract_lets +onlyGivenNames -merge -useContext -lift x2
    extract_lets +onlyGivenNames -merge -useContext -lift x3
    apply State.ChangesOnly.pair
    apply State.noteSram_changes (List.Subset.trans (by decide) hm)
    exact hs
  · extract_lets +onlyGivenNames -merge -useContext -lift x4
    apply State.ChangesOnly.ite₂
    · apply State.ChangesOnly.pair
      apply State.sendPacket_changes (List.Subset.trans (by decide) hm)
      exact hs
    · extract_lets +onlyGivenNames -merge -useContext -lift x5
      extract_lets +onlyGivenNames -merge -useContext -lift x6
      extract_lets +onlyGivenNames -merge -useContext -lift x7
      have hx7 : s₀.ChangesOnly ps x7 := by
        unfold x7
        apply State.stackTouch_changes (List.Subset.trans (by decide) hm)
        apply State.askData_changes (List.Subset.trans (by decide) hm)
        exact hs
      apply State.ChangesOnly.pair
      exact hx7

theorem State.dmaLines_changes {ps : List Part} (hm : ([.tiles, .atria] : List Part) ⊆ ps)
    {s₀ : State} (t : Fin 8) (a : ℕ) (off : ℕ) (x3 : ℕ)  {x4 : State} (hs : s₀.ChangesOnly ps x4) :
    s₀.ChangesOnly ps (State.dmaLines t a off x3 x4).2 := by
  induction x3 generalizing x4 off with
  | zero => exact hs
  | succ n ih =>
    unfold State.dmaLines
    have h := State.dmaLine_changes (List.Subset.trans (by decide) hm) t a off hs
    split
    · rename_i e; exact State.ChangesOnly.ofEq e h
    · rename_i e; exact ih _ (State.ChangesOnly.ofEq e h)

theorem State.dmaWrite_changes {ps : List Part} (hm : ([.tiles, .atria] : List Part) ⊆ ps)
    {s₀ : State} (t : Fin 8) (a : ℕ) (off : ℕ) (l : List Sys2Proof.Byte) (stamp : Bool)  {s : State} (hs : s₀.ChangesOnly ps s) :
    s₀.ChangesOnly ps (State.dmaWrite t a off l stamp s).2 := by
  unfold State.dmaWrite
  extract_lets +onlyGivenNames -merge -useContext -lift x1
  apply State.ChangesOnly.ite₂
  · extract_lets +onlyGivenNames -merge -useContext -lift x2
    apply State.ChangesOnly.pair
    apply State.onTile_changes (List.Subset.trans (by decide) hm)
    exact hs
  · extract_lets +onlyGivenNames -merge -useContext -lift x3
    apply State.ChangesOnly.ite₂
    · apply State.ChangesOnly.pair
      apply State.sendPacket_changes (List.Subset.trans (by decide) hm)
      exact hs
    · extract_lets +onlyGivenNames -merge -useContext -lift x4
      have hx4 : s₀.ChangesOnly ps x4 := by
        unfold x4
        apply State.sendPacket_changes (List.Subset.trans (by decide) hm)
        exact hs
      apply State.ChangesOnly.pair
      apply State.ChangesOnly.ite
      · apply State.stackStamp_changes (List.Subset.trans (by decide) hm)
        exact hx4
      · apply State.stackWrite_changes (List.Subset.trans (by decide) hm)
        exact hx4

theorem State.dmaSource_changes {ps : List Part} (hm : ([.tiles, .atria] : List Part) ⊆ ps)
    {s₀ : State} (t : Fin 8) (d : ℕ) (off : ℕ) {s : State} (hs : s₀.ChangesOnly ps s) :
    s₀.ChangesOnly ps (State.dmaSource t d off s).2 := by
  unfold State.dmaSource
  extract_lets +onlyGivenNames -merge -useContext -lift x1
  apply State.ChangesOnly.ite₂
  · apply State.ChangesOnly.pair
    exact hs
  · apply State.ChangesOnly.ite₂
    · extract_lets +onlyGivenNames -merge -useContext -lift x2
      apply State.ChangesOnly.ite₂
      · apply State.ChangesOnly.pair
        apply State.sendPacket_changes (List.Subset.trans (by decide) hm)
        exact hs
      · split
        split
        · apply State.ChangesOnly.pair
          rename_i p3 _ _ ep3
          have hp3 : s₀.ChangesOnly ps p3 := State.ChangesOnly.ofEq ep3 (by
              apply State.checkBlock_changes (List.Subset.trans (by decide) hm)
              apply State.askData_changes (List.Subset.trans (by decide) hm)
              exact hs)
          exact hp3
        · apply State.ChangesOnly.pair
          rename_i p4 _ ep4
          have hp4 : s₀.ChangesOnly ps p4 := State.ChangesOnly.ofEq ep4 (by
              apply State.checkBlock_changes (List.Subset.trans (by decide) hm)
              apply State.askData_changes (List.Subset.trans (by decide) hm)
              exact hs)
          exact hp4
    · apply State.dmaLines_changes (List.Subset.trans (by decide) hm)
      exact hs

theorem State.dmaNext_changes {ps : List Part} (hm : ([.tiles] : List Part) ⊆ ps)
    {s₀ : State} (t : Fin 8) (c : Fin 8) (d : ℕ)  {s : State} (hs : s₀.ChangesOnly ps s) :
    s₀.ChangesOnly ps (State.dmaNext t c d s) := by
  unfold State.dmaNext
  extract_lets +onlyGivenNames -merge -useContext -lift x1
  have hx1 : s₀.ChangesOnly ps x1 := by
    unfold x1
    apply State.onTile_changes (List.Subset.trans (by decide) hm)
    exact hs
  apply State.ChangesOnly.ite
  · apply State.onDma_changes (List.Subset.trans (by decide) hm)
    apply State.onTile_changes (List.Subset.trans (by decide) hm)
    exact hx1
  · extract_lets +onlyGivenNames -merge -useContext -lift x2
    apply State.onDma_changes (List.Subset.trans (by decide) hm)
    apply State.onTile_changes (List.Subset.trans (by decide) hm)
    exact hx1

theorem State.dmaRange_changes {ps : List Part} (hm : ([.tiles] : List Part) ⊆ ps)
    {s₀ : State} (t : Fin 8) (a : ℕ) (n : ℕ) {s : State} (hs : s₀.ChangesOnly ps s) :
    s₀.ChangesOnly ps (State.dmaRange t a n s) := by
  unfold State.dmaRange
  apply State.ChangesOnly.ite
  · apply State.onTile_changes (List.Subset.trans (by decide) hm)
    exact hs
  · exact hs

theorem State.dmaTake_changes {ps : List Part} (hm : ([.tiles, .atria] : List Part) ⊆ ps)
    {s₀ : State} (t : Fin 8) (c : Fin 8) {s : State} (hs : s₀.ChangesOnly ps s) :
    s₀.ChangesOnly ps (State.dmaTake t c s) := by
  unfold State.dmaTake
  extract_lets +onlyGivenNames -merge -useContext -lift x1
  extract_lets +onlyGivenNames -merge -useContext -lift x2
  extract_lets +onlyGivenNames -merge -useContext -lift x3
  extract_lets +onlyGivenNames -merge -useContext -lift x4
  have hx4 : s₀.ChangesOnly ps x4 := by
    unfold x4
    apply State.stackTouch_changes (List.Subset.trans (by decide) hm)
    exact hs
  apply State.ChangesOnly.ite
  · apply State.dmaHalt_changes (List.Subset.trans (by decide) hm)
    exact hx4
  · split
    · extract_lets +onlyGivenNames -merge -useContext -lift x5
      have hx5 : s₀.ChangesOnly ps x5 := by
        unfold x5
        apply State.ChangesOnly.ite
        · apply State.dmaRange_changes (List.Subset.trans (by decide) hm)
          apply State.ChangesOnly.ite
          · exact hx4
          · apply State.dmaRange_changes (List.Subset.trans (by decide) hm)
            exact hx4
        · exact hx4
      apply State.dmaHalt_changes (List.Subset.trans (by decide) hm)
      exact hx5
    · apply State.onDma_changes (List.Subset.trans (by decide) hm)
      exact hx4

theorem State.dmaMove_changes {ps : List Part} (hm : ([.tiles, .atria] : List Part) ⊆ ps)
    {s₀ : State} (t : Fin 8) (c : Fin 8)  {s : State} (hs : s₀.ChangesOnly ps s) :
    s₀.ChangesOnly ps (State.dmaMove t c s) := by
  unfold State.dmaMove
  extract_lets +onlyGivenNames -merge -useContext -lift x1
  extract_lets +onlyGivenNames -merge -useContext -lift x2
  split
  rename_i _ _ p3 ep3
  have hp3 : s₀.ChangesOnly ps p3 := State.ChangesOnly.ofEq ep3 (by
      apply State.dmaSource_changes (List.Subset.trans (by decide) hm)
      exact hs)
  split
  rename_i _ p4 ep4
  have hp4 : s₀.ChangesOnly ps p4 := State.ChangesOnly.ofEq ep4 (by
      apply State.ChangesOnly.ite₂
      · apply State.ChangesOnly.pair
        exact hp3
      · apply State.dmaWrite_changes (List.Subset.trans (by decide) hm)
        exact hp3)
  split
  · apply State.dmaHalt_changes (List.Subset.trans (by decide) hm)
    exact hp4
  · apply State.dmaHalt_changes (List.Subset.trans (by decide) hm)
    apply State.onTile_changes (List.Subset.trans (by decide) hm)
    exact hp4
  · extract_lets +onlyGivenNames -merge -useContext -lift x5
    extract_lets +onlyGivenNames -merge -useContext -lift x6
    have hx6 : s₀.ChangesOnly ps x6 := by
      unfold x6
      apply State.onDma_changes (List.Subset.trans (by decide) hm)
      apply State.onTile_changes (List.Subset.trans (by decide) hm)
      exact hp4
    apply State.ChangesOnly.ite
    · apply State.dmaNext_changes (List.Subset.trans (by decide) hm)
      exact hx6
    · exact hx6

theorem State.dmaPaced_changes {ps : List Part} (hm : ([.tiles, .atria] : List Part) ⊆ ps)
    {s₀ : State} (t : Fin 8) (c : Fin 8) {s : State} (hs : s₀.ChangesOnly ps s) :
    s₀.ChangesOnly ps (State.dmaPaced t c s) := by
  unfold State.dmaPaced
  extract_lets +onlyGivenNames -merge -useContext -lift x1
  apply State.onTile_changes (List.Subset.trans (by decide) hm)
  apply State.dmaMove_changes (List.Subset.trans (by decide) hm)
  exact hs

theorem State.dmaStep_changes {ps : List Part} (hm : ([.tiles, .atria] : List Part) ⊆ ps)
    {s₀ : State} (t : Fin 8) {s : State} (hs : s₀.ChangesOnly ps s) :
    s₀.ChangesOnly ps (State.dmaStep t s) := by
  unfold State.dmaStep
  split
  · exact hs
  · extract_lets +onlyGivenNames -merge -useContext -lift x1
    have hx1 : s₀.ChangesOnly ps x1 := by
      unfold x1
      apply State.onTile_changes (List.Subset.trans (by decide) hm)
      exact hs
    extract_lets +onlyGivenNames -merge -useContext -lift x2
    apply State.ChangesOnly.ite
    · extract_lets +onlyGivenNames -merge -useContext -lift x3
      have hx3 : s₀.ChangesOnly ps x3 := by
        unfold x3
        apply State.dmaPaced_changes (List.Subset.trans (by decide) hm)
        exact hx1
      apply State.ChangesOnly.ite
      · apply State.dmaHalt_changes (List.Subset.trans (by decide) hm)
        exact hx3
      · exact hx3
    · apply State.ChangesOnly.ite
      · apply State.dmaHalt_changes (List.Subset.trans (by decide) hm)
        exact hx1
      · extract_lets +onlyGivenNames -merge -useContext -lift x4
        have hx4 : s₀.ChangesOnly ps x4 := by
          unfold x4
          apply State.ChangesOnly.ite
          · exact hx1
          · apply State.dmaTake_changes (List.Subset.trans (by decide) hm)
            exact hx1
        apply State.ChangesOnly.ite
        · apply State.dmaPaced_changes (List.Subset.trans (by decide) hm)
          exact hx4
        · exact hx4

theorem State.onCore_changes {ps : List Part} (hm : ([.tiles] : List Part) ⊆ ps)
    {s₀ : State}  (t : Fin 8) (c : Fin 2) (f : CoreSt → CoreSt) {s : State} (hs : s₀.ChangesOnly ps s) :
    s₀.ChangesOnly ps (State.onCore s t c f) := by
  unfold State.onCore
  apply State.onTile_changes (List.Subset.trans (by decide) hm)
  exact hs

theorem State.onCache_changes {ps : List Part} (hm : ([.tiles] : List Part) ⊆ ps)
    {s₀ : State}  (t : Fin 8) (c : Fin 2) (k : Fin 2) (f : CacheSt → CacheSt) {s : State} (hs : s₀.ChangesOnly ps s) :
    s₀.ChangesOnly ps (State.onCache s t c k f) := by
  unfold State.onCache
  apply State.onCore_changes (List.Subset.trans (by decide) hm)
  exact hs

theorem State.coreRead_changes {ps : List Part} (hm : ([.tiles, .atria] : List Part) ⊆ ps)
    {s₀ : State} (t : Fin 8) (a1 : Fin 8) (off : ℕ) (n : ℕ) (src : UeSrc) {s : State} (hs : s₀.ChangesOnly ps s) :
    s₀.ChangesOnly ps (State.coreRead t a1 off n src s).2 := by
  unfold State.coreRead
  apply State.ChangesOnly.ite₂
  · apply State.ChangesOnly.pair
    apply State.sendPacket_changes (List.Subset.trans (by decide) hm)
    exact hs
  · extract_lets +onlyGivenNames -merge -useContext -lift x1
    extract_lets +onlyGivenNames -merge -useContext -lift x2
    extract_lets +onlyGivenNames -merge -useContext -lift x3
    have hx3 : s₀.ChangesOnly ps x3 := by
      unfold x3
      apply State.stackTouch_changes (List.Subset.trans (by decide) hm)
      apply State.askData_changes (List.Subset.trans (by decide) hm)
      exact hs
    apply State.ChangesOnly.pair
    exact hx3

theorem State.fetchLine_changes {ps : List Part} (hm : ([.tiles, .atria] : List Part) ⊆ ps)
    {s₀ : State} (t : Fin 8) (c : Fin 2) (line : ℕ) (src : UeSrc)  {s : State} (hs : s₀.ChangesOnly ps s) :
    s₀.ChangesOnly ps (State.fetchLine t c line src s).2 := by
  unfold State.fetchLine
  split
  · apply State.coreRead_changes (List.Subset.trans (by decide) hm)
    exact hs
  · apply State.ChangesOnly.pair
    exact hs

theorem State.badLine_changes {ps : List Part} (hm : ([.tiles] : List Part) ⊆ ps)
    {s₀ : State} (t : Fin 8) (c : Fin 2) (k : Fin 2) (line : ℕ)  {s : State} (hs : s₀.ChangesOnly ps s) :
    s₀.ChangesOnly ps (State.badLine t c k line s) := by
  unfold State.badLine
  apply State.onTile_changes (List.Subset.trans (by decide) hm)
  exact hs

theorem State.lookup_changes {ps : List Part} (hm : ([.tiles] : List Part) ⊆ ps)
    {s₀ : State} (t : Fin 8) (c : Fin 2) (k : Fin 2) (a : ℕ) (n : ℕ)  {s : State} (hs : s₀.ChangesOnly ps s) :
    s₀.ChangesOnly ps (State.lookup t c k a n s).2 := by
  unfold State.lookup
  extract_lets +onlyGivenNames -merge -useContext -lift x1
  extract_lets +onlyGivenNames -merge -useContext -lift x2
  extract_lets +onlyGivenNames -merge -useContext -lift x3
  extract_lets +onlyGivenNames -merge -useContext -lift x4
  have hx4 : s₀.ChangesOnly ps x4 := by
    unfold x4
    apply State.onCache_changes (List.Subset.trans (by decide) hm)
    exact hs
  extract_lets +onlyGivenNames -merge -useContext -lift x5
  extract_lets +onlyGivenNames -merge -useContext -lift x6
  split
  · apply State.ChangesOnly.ite₂
    · apply State.ChangesOnly.pair
      try unfold x5
      apply State.onTile_changes (List.Subset.trans (by decide) hm)
      apply State.onCache_changes (List.Subset.trans (by decide) hm)
      exact hx4
    · apply State.ChangesOnly.pair
      try unfold x5
      apply State.onTile_changes (List.Subset.trans (by decide) hm)
      apply State.badLine_changes (List.Subset.trans (by decide) hm)
      apply State.onCache_changes (List.Subset.trans (by decide) hm)
      exact hx4
  · split
    · extract_lets +onlyGivenNames -merge -useContext -lift x7
      have hx7 : s₀.ChangesOnly ps x7 := by
        unfold x7
        apply State.onCache_changes (List.Subset.trans (by decide) hm)
        exact hx4
      apply State.ChangesOnly.ite₂
      · apply State.ChangesOnly.pair
        try unfold x5
        apply State.onTile_changes (List.Subset.trans (by decide) hm)
        try unfold x5
        apply State.onTile_changes (List.Subset.trans (by decide) hm)
        apply State.onCache_changes (List.Subset.trans (by decide) hm)
        exact hx7
      · apply State.ChangesOnly.pair
        try unfold x5
        apply State.onTile_changes (List.Subset.trans (by decide) hm)
        apply State.badLine_changes (List.Subset.trans (by decide) hm)
        exact hx7
    · split
      · extract_lets +onlyGivenNames -merge -useContext -lift x8
        have hx8 : s₀.ChangesOnly ps x8 := by
          unfold x8
          try unfold x5
          apply State.onTile_changes (List.Subset.trans (by decide) hm)
          exact hx4
        apply State.ChangesOnly.ite₂
        · apply State.ChangesOnly.pair
          try unfold x5
          apply State.onTile_changes (List.Subset.trans (by decide) hm)
          apply State.onCache_changes (List.Subset.trans (by decide) hm)
          exact hx8
        · apply State.ChangesOnly.pair
          apply State.badLine_changes (List.Subset.trans (by decide) hm)
          apply State.onCache_changes (List.Subset.trans (by decide) hm)
          exact hx8
      · apply State.ChangesOnly.pair
        try unfold x5
        apply State.onTile_changes (List.Subset.trans (by decide) hm)
        exact hx4

theorem State.refetch_changes {ps : List Part} (hm : ([.tiles, .atria] : List Part) ⊆ ps)
    {s₀ : State} (t : Fin 8) (c : Fin 2) (k : Fin 2) (w : ℕ) (line : ℕ) {s : State} (hs : s₀.ChangesOnly ps s) :
    s₀.ChangesOnly ps (State.refetch t c k w line s) := by
  unfold State.refetch
  split
  · apply State.onCache_changes (List.Subset.trans (by decide) hm)
    rename_i p1 ep1
    have hp1 : s₀.ChangesOnly ps p1 := State.ChangesOnly.ofEq ep1 (by
        apply State.fetchLine_changes (List.Subset.trans (by decide) hm)
        exact hs)
    exact hp1
  · rename_i p2 ep2
    have hp2 : s₀.ChangesOnly ps p2 := State.ChangesOnly.ofEq ep2 (by
        apply State.fetchLine_changes (List.Subset.trans (by decide) hm)
        exact hs)
    exact hp2

theorem State.storeHit_changes {ps : List Part} (hm : ([.tiles, .atria] : List Part) ⊆ ps)
    {s₀ : State} (t : Fin 8) (c : Fin 2) (a : ℕ) (n : ℕ) (v : ℕ) {s : State} (hs : s₀.ChangesOnly ps s) :
    s₀.ChangesOnly ps (State.storeHit t c a n v s) := by
  unfold State.storeHit
  extract_lets +onlyGivenNames -merge -useContext -lift x1
  apply State.ChangesOnly.ite
  · exact hs
  · extract_lets +onlyGivenNames -merge -useContext -lift x2
    split
    · apply State.ChangesOnly.ite
      · apply State.onCache_changes (List.Subset.trans (by decide) hm)
        exact hs
      · extract_lets +onlyGivenNames -merge -useContext -lift x3
        have hx3 : s₀.ChangesOnly ps x3 := by
          unfold x3
          apply State.badLine_changes (List.Subset.trans (by decide) hm)
          apply State.onCache_changes (List.Subset.trans (by decide) hm)
          exact hs
        apply State.ChangesOnly.ite
        · apply State.refetch_changes (List.Subset.trans (by decide) hm)
          exact hx3
        · exact hx3
    · extract_lets +onlyGivenNames -merge -useContext -lift x4
      extract_lets +onlyGivenNames -merge -useContext -lift x5
      extract_lets +onlyGivenNames -merge -useContext -lift x6
      have hx6 : s₀.ChangesOnly ps x6 := by
        unfold x6
        apply State.onCache_changes (List.Subset.trans (by decide) hm)
        exact hs
      apply State.ChangesOnly.foldl
      · exact hx6
      · intro _ _ hu7
        apply State.badLine_changes (List.Subset.trans (by decide) hm)
        exact hu7

theorem State.cacheOp_changes {ps : List Part} (hm : ([.tiles] : List Part) ⊆ ps)
    {s₀ : State} (t : Fin 8) (c : Fin 2) (k : Fin 2)  {s : State} (hs : s₀.ChangesOnly ps s) :
    s₀.ChangesOnly ps (State.cacheOp t c k s) := by
  unfold State.cacheOp
  extract_lets +onlyGivenNames -merge -useContext -lift x1
  extract_lets +onlyGivenNames -merge -useContext -lift x2
  apply State.ChangesOnly.ite
  · exact hs
  · split
    · exact hs
    · extract_lets +onlyGivenNames -merge -useContext -lift x3
      apply State.ChangesOnly.ite
      · apply State.onTile_changes (List.Subset.trans (by decide) hm)
        apply State.onCache_changes (List.Subset.trans (by decide) hm)
        try unfold x3
        apply State.onCache_changes (List.Subset.trans (by decide) hm)
        exact hs
      · apply State.ChangesOnly.ite
        · apply State.onCache_changes (List.Subset.trans (by decide) hm)
          try unfold x3
          apply State.onCache_changes (List.Subset.trans (by decide) hm)
          exact hs
        · apply State.ChangesOnly.ite
          · apply State.onTile_changes (List.Subset.trans (by decide) hm)
            apply State.onCache_changes (List.Subset.trans (by decide) hm)
            try unfold x3
            apply State.onCache_changes (List.Subset.trans (by decide) hm)
            exact hs
          · exact hs

theorem State.cacheOps_changes {ps : List Part} (hm : ([.tiles] : List Part) ⊆ ps)
    {s₀ : State} (t : Fin 8) (c : Fin 2) (k : Fin 2)  {s : State} (hs : s₀.ChangesOnly ps s) :
    s₀.ChangesOnly ps (State.cacheOps t c k s) := by
  unfold State.cacheOps
  apply State.ChangesOnly.foldl
  · exact hs
  · intro _ _ hu1
    apply State.cacheOp_changes (List.Subset.trans (by decide) hm)
    exact hu1

theorem State.cacheQueue_changes {ps : List Part} (hm : ([.tiles] : List Part) ⊆ ps)
    {s₀ : State} (t : Fin 8) (c : Fin 2) (k : Fin 2) (kind : ℕ) (way : ℕ)  {s : State} (hs : s₀.ChangesOnly ps s) :
    s₀.ChangesOnly ps (State.cacheQueue t c k kind way s) := by
  unfold State.cacheQueue
  extract_lets +onlyGivenNames -merge -useContext -lift x1
  extract_lets +onlyGivenNames -merge -useContext -lift x2
  extract_lets +onlyGivenNames -merge -useContext -lift x3
  extract_lets +onlyGivenNames -merge -useContext -lift x4
  have hx4 : s₀.ChangesOnly ps x4 := by
    unfold x4
    apply State.onCache_changes (List.Subset.trans (by decide) hm)
    exact hs
  apply State.cacheOps_changes (List.Subset.trans (by decide) hm)
  apply State.ChangesOnly.ite
  · apply State.onTile_changes (List.Subset.trans (by decide) hm)
    exact hx4
  · exact hx4

theorem State.cacheGo_changes {ps : List Part} (hm : ([.tiles] : List Part) ⊆ ps)
    {s₀ : State} (t : Fin 8) (c : Fin 2) (k : Fin 2) (inv : Bool) (ll : Bool)  {s : State} (hs : s₀.ChangesOnly ps s) :
    s₀.ChangesOnly ps (State.cacheGo t c k inv ll s) := by
  unfold State.cacheGo
  extract_lets +onlyGivenNames -merge -useContext -lift x1
  extract_lets +onlyGivenNames -merge -useContext -lift x2
  extract_lets +onlyGivenNames -merge -useContext -lift x3
  apply State.ChangesOnly.ite
  · apply State.onTile_changes (List.Subset.trans (by decide) hm)
    exact hs
  · apply State.ChangesOnly.ite
    · apply State.cacheQueue_changes (List.Subset.trans (by decide) hm)
      exact hs
    · apply State.ChangesOnly.ite
      · apply State.ChangesOnly.ite
        · apply State.onTile_changes (List.Subset.trans (by decide) hm)
          exact hs
        · apply State.cacheQueue_changes (List.Subset.trans (by decide) hm)
          exact hs
      · exact hs

theorem State.cacheOff_changes {ps : List Part} (hm : ([.tiles] : List Part) ⊆ ps)
    {s₀ : State} (t : Fin 8) (c : Fin 2) (k : Fin 2)  {s : State} (hs : s₀.ChangesOnly ps s) :
    s₀.ChangesOnly ps (State.cacheOff t c k s) := by
  unfold State.cacheOff
  apply State.cacheQueue_changes (List.Subset.trans (by decide) hm)
  exact hs

theorem State.lockLine_changes {ps : List Part} (hm : ([.tiles, .atria] : List Part) ⊆ ps)
    {s₀ : State} (t : Fin 8) (c k : Fin 2) (w line : Nat) {r : List Nat × State}
    (hr : s₀.ChangesOnly ps r.2) : s₀.ChangesOnly ps (State.lockLine t c k w line r).2 := by
  unfold State.lockLine
  dsimp only
  have h1 : s₀.ChangesOnly ps (if r.1.contains (lineSet line) = true
      then r.2.onTile t fun x => x.flag (CacheReg.LL_CONFLICT (cacheNo c k)) else r.2) :=
    State.ChangesOnly.ite (State.onTile_changes (List.Subset.trans (by decide) hm) _ _ hr) hr
  have h2 := State.fetchLine_changes (List.Subset.trans (by decide) hm) t c line (if k = 0 then .fetch else .load) h1
  split
  · rename_i e
    exact State.ChangesOnly.pair (State.onTile_changes (List.Subset.trans (by decide) hm) _ _ (State.onCache_changes (List.Subset.trans (by decide) hm) _ _ _ _ (State.ChangesOnly.ofEq e h2)))
  · rename_i e
    exact State.ChangesOnly.pair (State.onTile_changes (List.Subset.trans (by decide) hm) _ _ (State.onCache_changes (List.Subset.trans (by decide) hm) _ _ _ _ (State.ChangesOnly.ofEq e h2)))

theorem State.lockLoad_changes {ps : List Part} (hm : ([.tiles, .atria] : List Part) ⊆ ps)
    {s₀ : State} (t : Fin 8) (c k : Fin 2) {s : State} (hs : s₀.ChangesOnly ps s) :
    s₀.ChangesOnly ps (s.lockLoad t c k) := by
  unfold State.lockLoad
  split
  · exact hs
  · apply State.cacheOps_changes (List.Subset.trans (by decide) hm)
    apply State.onTile_changes (List.Subset.trans (by decide) hm)
    apply State.onCache_changes (List.Subset.trans (by decide) hm)
    apply State.ChangesOnly.foldl₂
    · exact State.ChangesOnly.pair (State.onTile_changes (List.Subset.trans (by decide) hm) _ _ hs)
    · intro _ _ hu
      exact State.lockLine_changes (List.Subset.trans (by decide) hm) _ _ _ _ _ hu

theorem State.headReset_changes {ps : List Part} (hm : ([.heads, .tiles, .atria] : List Part) ⊆ ps)
    {s₀ : State} (h : Fin 32)  {s : State} (hs : s₀.ChangesOnly ps s) :
    s₀.ChangesOnly ps (State.headReset h s) := by
  unfold State.headReset
  extract_lets +onlyGivenNames -merge -useContext -lift x1
  extract_lets +onlyGivenNames -merge -useContext -lift x2
  extract_lets +onlyGivenNames -merge -useContext -lift x3
  extract_lets +onlyGivenNames -merge -useContext -lift x4
  extract_lets +onlyGivenNames -merge -useContext -lift x5
  have hx5 : s₀.ChangesOnly ps x5 := by
    unfold x5
    apply State.setHead_changes (List.Subset.trans (by decide) hm)
    exact hs
  extract_lets +onlyGivenNames -merge -useContext -lift x6
  have hx6 : s₀.ChangesOnly ps x6 := by
    unfold x6
    apply State.onTile_changes (List.Subset.trans (by decide) hm)
    exact hx5
  apply State.log_changes (List.Subset.trans (by decide) hm)
  exact hx6

theorem State.portResetCmd_changes {ps : List Part} (hm : ([.free, .tiles, .ports, .atria, .pkg] : List Part) ⊆ ps)
    {s₀ : State} (p : Fin 16) {s : State} (hs : s₀.ChangesOnly ps s) :
    s₀.ChangesOnly ps (State.portResetCmd p s) := by
  unfold State.portResetCmd
  apply State.log_changes (List.Subset.trans (by decide) hm)
  apply State.portReset_changes (List.Subset.trans (by decide) hm)
  exact hs

theorem State.loseRam_changes {ps : List Part} (hm : ([.free, .tiles] : List Part) ⊆ ps)
    {s₀ : State} (t : Fin 8)  {s : State} (hs : s₀.ChangesOnly ps s) :
    s₀.ChangesOnly ps (State.loseRam t s) := by
  unfold State.loseRam
  extract_lets +onlyGivenNames -merge -useContext -lift x1
  have hx1 : s₀.ChangesOnly ps x1 := by
    unfold x1
    apply State.onTile_changes (List.Subset.trans (by decide) hm)
    exact hs
  refine State.ChangesOnly.record ?_
          (.inl rfl) (.inl rfl) (.inl rfl) (.inl rfl) (.inl rfl) (.inl rfl) (.inl rfl) (.inl rfl) (.inl rfl) (.inl rfl) (.inr (hm (by decide))) (.inl rfl)
  exact hx1

theorem State.clearSet_changes {ps : List Part} (hm : ([.sets] : List Part) ⊆ ps)
    {s₀ : State} (n : Fin 8)  {s : State} (hs : s₀.ChangesOnly ps s) :
    s₀.ChangesOnly ps (State.clearSet n s) := by
  unfold State.clearSet
  apply State.onSet_changes (List.Subset.trans (by decide) hm)
  exact hs

theorem State.copyOut_changes {ps : List Part} (hm : ([.atria] : List Part) ⊆ ps)
    {s₀ : State} (t : Fin 8)  {s : State} (hs : s₀.ChangesOnly ps s) :
    s₀.ChangesOnly ps (State.copyOut t s) := by
  unfold State.copyOut
  apply State.ChangesOnly.ite
  · exact hs
  · extract_lets +onlyGivenNames -merge -useContext -lift x1
    extract_lets +onlyGivenNames -merge -useContext -lift x2
    extract_lets +onlyGivenNames -merge -useContext -lift x3
    have hx3 : s₀.ChangesOnly ps x3 := by
      unfold x3
      apply State.onAtrium_changes (List.Subset.trans (by decide) hm)
      exact hs
    apply State.ChangesOnly.ite
    · apply State.onAtrium_changes (List.Subset.trans (by decide) hm)
      apply State.onAtrium_changes (List.Subset.trans (by decide) hm)
      exact hx3
    · exact hx3

theorem State.tileReset_changes {ps : List Part} (hm : ([.free, .heads, .tiles, .ports, .sets, .atria, .flashes, .boot, .pkg] : List Part) ⊆ ps)
    {s₀ : State} (t : Fin 8)  {s : State} (hs : s₀.ChangesOnly ps s) :
    s₀.ChangesOnly ps (State.tileReset t s) := by
  unfold State.tileReset
  apply State.refreshPorts_changes (List.Subset.trans (by decide) hm)
  apply State.refreshSets_changes (List.Subset.trans (by decide) hm)
  apply State.log_changes (List.Subset.trans (by decide) hm)
  apply State.onFlash_changes (List.Subset.trans (by decide) hm)
  refine State.ChangesOnly.record ?_
          (.inl rfl) (.inl rfl) (.inl rfl) (.inl rfl) (.inl rfl) (.inl rfl) (.inr (hm (by decide))) (.inl rfl) (.inl rfl) (.inl rfl) (.inl rfl) (.inl rfl)
  apply State.copyOut_changes (List.Subset.trans (by decide) hm)
  apply State.ChangesOnly.foldl
  · apply State.loseRam_changes (List.Subset.trans (by decide) hm)
    apply State.onTile_changes (List.Subset.trans (by decide) hm)
    apply State.hostTileReset_changes (List.Subset.trans (by decide) hm)
    apply State.ChangesOnly.foldl hs
    intro _ _ hu
    exact State.onHead_changes (List.Subset.trans (by decide) hm) _ _ hu
  · intro _ _ hu
    exact State.ChangesOnly.ite (State.clearSet_changes (List.Subset.trans (by decide) hm) _ hu) hu

theorem State.tileResetCmd_changes {ps : List Part} (hm : ([.free, .heads, .tiles, .ports, .sets, .atria, .flashes, .boot, .pkg] : List Part) ⊆ ps)
    {s₀ : State} (t : Fin 8)  {s : State} (hs : s₀.ChangesOnly ps s) :
    s₀.ChangesOnly ps (State.tileResetCmd t s) := by
  unfold State.tileResetCmd
  apply State.ChangesOnly.ite
  · apply State.tileReset_changes (List.Subset.trans (by decide) hm)
    exact hs
  · exact hs

theorem State.clearHeads_changes {ps : List Part} (hm : ([.heads] : List Part) ⊆ ps)
    {s₀ : State} (cls : RClass)  {s : State} (hs : s₀.ChangesOnly ps s) :
    s₀.ChangesOnly ps (State.clearHeads cls s) := by
  unfold State.clearHeads
  apply State.eachHead_changes hs
  intro _ _ hu
  exact State.onHead_changes (List.Subset.trans (by decide) hm) _ _ hu

theorem State.clearTiles_changes {ps : List Part} (hm : ([.tiles] : List Part) ⊆ ps)
    {s₀ : State} (cls : RClass)  {s : State} (hs : s₀.ChangesOnly ps s) :
    s₀.ChangesOnly ps (State.clearTiles cls s) := by
  unfold State.clearTiles
  apply State.eachTile_changes hs
  intro _ _ hu
  exact State.onTile_changes (List.Subset.trans (by decide) hm) _ _ hu

theorem State.loseRams_changes {ps : List Part} (hm : ([.free, .tiles] : List Part) ⊆ ps)
    {s₀ : State}  {s : State} (hs : s₀.ChangesOnly ps s) :
    s₀.ChangesOnly ps (State.loseRams s) := by
  unfold State.loseRams
  apply State.eachTile_changes hs
  intro _ _ hu
  exact State.loseRam_changes (List.Subset.trans (by decide) hm) _ hu

theorem State.clearRest_changes {ps : List Part} (hm : ([.ports, .sets, .atria, .flashes, .boot, .pkg, .smb, .shadows] : List Part) ⊆ ps)
    {s₀ : State} (cls : RClass) {s : State} (hs : s₀.ChangesOnly ps s) :
    s₀.ChangesOnly ps (State.clearRest cls s) := by
  unfold State.clearRest
  refine State.ChangesOnly.record ?_
    (.inl rfl) (.inl rfl) (.inr (hm (by decide))) (.inr (hm (by decide))) (.inr (hm (by decide))) (.inr (hm (by decide))) (.inr (hm (by decide))) (.inr (hm (by decide))) (.inr (hm (by decide))) (.inr (hm (by decide))) (.inl rfl) (.inl rfl)
  exact hs

theorem State.clearAll_changes {ps : List Part} (hm : ([.free, .heads, .tiles, .ports, .sets, .atria, .flashes, .boot, .pkg, .smb, .shadows] : List Part) ⊆ ps)
    {s₀ : State} (cls : RClass) {s : State} (hs : s₀.ChangesOnly ps s) :
    s₀.ChangesOnly ps (State.clearAll cls s) := by
  unfold State.clearAll
  apply State.clearRest_changes (List.Subset.trans (by decide) hm)
  apply State.loseRams_changes (List.Subset.trans (by decide) hm)
  apply State.clearTiles_changes (List.Subset.trans (by decide) hm)
  apply State.clearHeads_changes (List.Subset.trans (by decide) hm)
  exact hs

theorem State.warmReset_changes {ps : List Part} (hm : ([.free, .heads, .tiles, .ports, .sets, .atria, .flashes, .boot, .pkg, .smb, .shadows] : List Part) ⊆ ps)
    {s₀ : State} {s : State} (hs : s₀.ChangesOnly ps s) :
    s₀.ChangesOnly ps (State.warmReset s) := by
  unfold State.warmReset
  apply State.clearAll_changes (List.Subset.trans (by decide) hm)
  exact hs

theorem State.coldReset_changes {ps : List Part} (hm : ([.free, .heads, .tiles, .ports, .sets, .atria, .flashes, .boot, .pkg, .smb, .shadows] : List Part) ⊆ ps)
    {s₀ : State} {s : State} (hs : s₀.ChangesOnly ps s) :
    s₀.ChangesOnly ps (State.coldReset s) := by
  unfold State.coldReset
  apply State.eachHead_changes
  · apply State.clearAll_changes (List.Subset.trans (by decide) hm)
    exact hs
  · intro _ _ hu1
    apply State.onHead_changes (List.Subset.trans (by decide) hm)
    exact hu1

theorem State.bootBegins_changes {ps : List Part} (hm : ([.boot] : List Part) ⊆ ps)
    {s₀ : State}  {s : State} (hs : s₀.ChangesOnly ps s) :
    s₀.ChangesOnly ps (State.bootBegins s) := by
  unfold State.bootBegins
  refine State.ChangesOnly.record ?_
          (.inl rfl) (.inl rfl) (.inl rfl) (.inl rfl) (.inl rfl) (.inl rfl) (.inr (hm (by decide))) (.inl rfl) (.inl rfl) (.inl rfl) (.inl rfl) (.inl rfl)
  exact hs

theorem State.flushDeferred_changes {ps : List Part} (hm : ([.tiles, .atria] : List Part) ⊆ ps)
    {s₀ : State} (t : Fin 8)  {s : State} (hs : s₀.ChangesOnly ps s) :
    s₀.ChangesOnly ps (State.flushDeferred t s) := by
  unfold State.flushDeferred
  extract_lets +onlyGivenNames -merge -useContext -lift x1
  extract_lets +onlyGivenNames -merge -useContext -lift x2
  have hx2 : s₀.ChangesOnly ps x2 := by
    unfold x2
    apply State.onTile_changes (List.Subset.trans (by decide) hm)
    exact hs
  apply State.ChangesOnly.foldl
  · exact hx2
  · intro _ _ hu3
    apply State.writeRecord_changes (List.Subset.trans (by decide) hm)
    exact hu3

theorem State.withWarnings_changes {ps : List Part} (hm : ([.tiles, .ports, .atria, .pkg] : List Part) ⊆ ps)
    {s₀ : State} {f : State → State} {s : State} (hs : s₀.ChangesOnly ps (f s)) :
    s₀.ChangesOnly ps (s.withWarnings f) :=
  State.ChangesOnly.foldl hs fun _ _ hu => State.event_changes (List.Subset.trans (by decide) hm) _ _ _ _ hu

theorem State.keepTrip_changes {ps : List Part} (hm : ([.tiles, .atria] : List Part) ⊆ ps)
    {s₀ : State} (t : Fin 8) (off : ℕ) (f : Tile → Tile)  {s : State} (hs : s₀.ChangesOnly ps s) :
    s₀.ChangesOnly ps (State.keepTrip t off f s) := by
  unfold State.keepTrip
  apply State.ChangesOnly.ite
  · apply State.pset_changes (List.Subset.trans (by decide) hm)
    exact hs
  · apply State.keep_changes (List.Subset.trans (by decide) hm)
    apply State.onTile_changes (List.Subset.trans (by decide) hm)
    exact hs

theorem State.trip_changes {ps : List Part} (hm : ([.heads, .tiles, .ports, .atria, .boot, .pkg] : List Part) ⊆ ps)
    {s₀ : State} (t : Fin 8) (i : ℕ)  {s : State} (hs : s₀.ChangesOnly ps s) :
    s₀.ChangesOnly ps (State.trip t i s) := by
  unfold State.trip
  apply State.refreshPorts_changes (List.Subset.trans (by decide) hm)
  apply State.refreshSets_changes (List.Subset.trans (by decide) hm)
  have h1 : ∀ (f : Tile → Tile), s₀.ChangesOnly ps
      ((s.keepTrip t 0x600040 fun x => (x.w HeatReg.TRIP_TEMP (x.r (HeatReg.SENSOR_T i))).w HeatReg.TRIP_SENSOR i).onTile t f) :=
    fun _ => State.onTile_changes (List.Subset.trans (by decide) hm) _ _ (State.keepTrip_changes (List.Subset.trans (by decide) hm) _ _ _ hs)
  have h2 : ∀ u : State, s₀.ChangesOnly ps u →
      s₀.ChangesOnly ps (localHeads.foldl (fun (s : State) l => s.safeHead (headOf t l) 2) u) := fun u hu =>
    State.ChangesOnly.foldl hu fun _ _ hv => State.safeHead_changes (List.Subset.trans (by decide) hm) _ _ hv
  have h3 : ∀ (u : State) (f : Tile → Tile) (a b : Nat), s₀.ChangesOnly ps u →
      s₀.ChangesOnly ps (if u.logTile t = t then u.onTile t f else u.log t 0x10 0xFF a b) := fun u f a b hu =>
    State.ChangesOnly.ite (State.onTile_changes (List.Subset.trans (by decide) hm) _ _ hu) (State.log_changes (List.Subset.trans (by decide) hm) _ _ _ _ _ hu)
  have h4 : ∀ u : State, s₀.ChangesOnly ps u → s₀.ChangesOnly ps (if u.boot.phase = .load ∨ u.boot.tileLoad.contains t.val then
      { u.pset (wingOf t) BootReg.TILE_LOAD_FAIL with
        boot := { u.boot with tileLoad := u.boot.tileLoad.filter (· ≠ t.val) } } else u) := fun u hu =>
    State.ChangesOnly.ite (State.ChangesOnly.record (State.pset_changes (List.Subset.trans (by decide) hm) _ _ hu)
      (.inl rfl) (.inl rfl) (.inl rfl) (.inl rfl) (.inl rfl) (.inl rfl) (.inr (hm (by decide))) (.inl rfl) (.inl rfl) (.inl rfl) (.inl rfl) (.inl rfl)) hu
  exact h4 _ (State.copyOut_changes (List.Subset.trans (by decide) hm) _ (h3 _ _ _ _ (h2 _ (h1 _))))

theorem State.powerOff_changes {ps : List Part} (hm : ([.free, .heads, .tiles, .ports, .atria, .pkg] : List Part) ⊆ ps)
    {s₀ : State} (t : Fin 8)  {s : State} (hs : s₀.ChangesOnly ps s) :
    s₀.ChangesOnly ps (State.powerOff t s) := by
  unfold State.powerOff
  extract_lets +onlyGivenNames -merge -useContext -lift x1
  have hx1 : s₀.ChangesOnly ps x1 := by
    unfold x1
    apply State.ChangesOnly.foldl
    · exact hs
    · intro _ _ hu2
      extract_lets +onlyGivenNames -merge -useContext -lift x3
      apply State.ChangesOnly.ite
      · apply State.linkLoss_changes (List.Subset.trans (by decide) hm)
        exact hu2
      · apply State.onHead_changes (List.Subset.trans (by decide) hm)
        exact hu2
  extract_lets +onlyGivenNames -merge -useContext -lift x4
  have hx4 : s₀.ChangesOnly ps x4 := by
    unfold x4
    apply State.linkFalls_changes (List.Subset.trans (by decide) hm)
    apply State.linkFalls_changes (List.Subset.trans (by decide) hm)
    exact hx1
  apply State.loseRam_changes (List.Subset.trans (by decide) hm)
  apply State.onTile_changes (List.Subset.trans (by decide) hm)
  exact hx4

theorem State.thermalRestart_changes {ps : List Part} (hm : ([.free, .heads, .tiles, .ports, .sets, .atria, .flashes, .boot, .pkg] : List Part) ⊆ ps)
    {s₀ : State} (t : Fin 8) {s : State} (hs : s₀.ChangesOnly ps s) :
    s₀.ChangesOnly ps (State.thermalRestart t s) := by
  unfold State.thermalRestart
  extract_lets +onlyGivenNames -merge -useContext -lift x1
  extract_lets +onlyGivenNames -merge -useContext -lift x2
  extract_lets +onlyGivenNames -merge -useContext -lift x3
  extract_lets +onlyGivenNames -merge -useContext -lift x4
  extract_lets +onlyGivenNames -merge -useContext -lift x5
  have hx5 : s₀.ChangesOnly ps x5 := by
    unfold x5
    apply State.keepTrip_changes (List.Subset.trans (by decide) hm)
    exact hs
  extract_lets +onlyGivenNames -merge -useContext -lift x6
  have hx6 : s₀.ChangesOnly ps x6 := by
    unfold x6
    apply State.ChangesOnly.foldl
    · exact hx5
    · intro _ _ hu7
      apply State.onHead_changes (List.Subset.trans (by decide) hm)
      exact hu7
  extract_lets +onlyGivenNames -merge -useContext -lift x8
  have hx8 : s₀.ChangesOnly ps x8 := by
    unfold x8
    apply State.onTile_changes (List.Subset.trans (by decide) hm)
    exact hx6
  extract_lets +onlyGivenNames -merge -useContext -lift x9
  have hx9 : s₀.ChangesOnly ps x9 := by
    unfold x9
    split
    · exact hx8
    · apply State.logIn_changes (List.Subset.trans (by decide) hm)
      exact hx8
  extract_lets +onlyGivenNames -merge -useContext -lift x10
  have hx10 : s₀.ChangesOnly ps x10 := by
    unfold x10
    apply State.ChangesOnly.ite
    · exact hx9
    · apply State.tileReset_changes (List.Subset.trans (by decide) hm)
      exact hx9
  apply State.log_changes (List.Subset.trans (by decide) hm)
  exact hx10

theorem State.tripResume_changes {ps : List Part} (hm : ([.tiles, .ports, .atria, .pkg] : List Part) ⊆ ps)
    {s₀ : State} (t : Fin 8)  {s : State} (hs : s₀.ChangesOnly ps s) :
    s₀.ChangesOnly ps (State.tripResume t s) := by
  unfold State.tripResume
  apply State.ChangesOnly.ite
  · apply State.refreshPorts_changes (List.Subset.trans (by decide) hm)
    apply State.onTile_changes (List.Subset.trans (by decide) hm)
    exact hs
  · exact hs

theorem State.applyCap_changes {ps : List Part} (hm : ([.free, .tiles, .ports, .atria, .pkg] : List Part) ⊆ ps)
    {s₀ : State} (t : Fin 8) {s : State} (hs : s₀.ChangesOnly ps s) :
    s₀.ChangesOnly ps (State.applyCap t s) := by
  unfold State.applyCap
  extract_lets +onlyGivenNames -merge -useContext -lift x1
  extract_lets +onlyGivenNames -merge -useContext -lift x2
  extract_lets +onlyGivenNames -merge -useContext -lift x3
  extract_lets +onlyGivenNames -merge -useContext -lift x4
  have hx4 : s₀.ChangesOnly ps x4 := by
    unfold x4
    apply State.onTile_changes (List.Subset.trans (by decide) hm)
    exact hs
  apply State.ChangesOnly.ite
  · exact hx4
  · extract_lets +onlyGivenNames -merge -useContext -lift x5
    have hx5 : s₀.ChangesOnly ps x5 := by
      unfold x5
      apply State.onTile_changes (List.Subset.trans (by decide) hm)
      exact hx4
    apply State.ChangesOnly.foldl
    · exact hx5
    · intro _ _ hu6
      apply State.ChangesOnly.ite
      · exact hu6
      · apply State.ChangesOnly.ite
        · apply State.portResetCmd_changes (List.Subset.trans (by decide) hm)
          exact hu6
        · apply State.linkFalls_changes (List.Subset.trans (by decide) hm)
          exact hu6

theorem State.setThrottle_changes {ps : List Part} (hm : ([.free, .tiles, .ports, .atria, .pkg] : List Part) ⊆ ps)
    {s₀ : State} (t : Fin 8) (l : ℕ) (k : ℕ) {s : State} (hs : s₀.ChangesOnly ps s) :
    s₀.ChangesOnly ps (State.setThrottle t l k s) := by
  unfold State.setThrottle
  extract_lets +onlyGivenNames -merge -useContext -lift x1
  extract_lets +onlyGivenNames -merge -useContext -lift x2
  extract_lets +onlyGivenNames -merge -useContext -lift x3
  extract_lets +onlyGivenNames -merge -useContext -lift x4
  have hx4 : s₀.ChangesOnly ps x4 := by
    unfold x4
    apply State.onTile_changes (List.Subset.trans (by decide) hm)
    exact hs
  extract_lets +onlyGivenNames -merge -useContext -lift x5
  have hx5 : s₀.ChangesOnly ps x5 := by
    unfold x5
    apply State.applyCap_changes (List.Subset.trans (by decide) hm)
    exact hx4
  apply State.ChangesOnly.ite
  · apply State.log_changes (List.Subset.trans (by decide) hm)
    exact hx5
  · exact hx5

theorem State.findPstep_changes {ps : List Part} (hm : ([.tiles] : List Part) ⊆ ps)
    {s₀ : State} (t : Fin 8)  {s : State} (hs : s₀.ChangesOnly ps s) :
    s₀.ChangesOnly ps (State.findPstep t s) := by
  unfold State.findPstep
  extract_lets +onlyGivenNames -merge -useContext -lift x1
  apply State.onTile_changes (List.Subset.trans (by decide) hm)
  exact hs

theorem State.evaluateHeat_changes {ps : List Part} (hm : ([.free, .tiles, .ports, .atria, .pkg] : List Part) ⊆ ps)
    {s₀ : State} (t : Fin 8) {s : State} (hs : s₀.ChangesOnly ps s) :
    s₀.ChangesOnly ps (State.evaluateHeat t s) := by
  unfold State.evaluateHeat
  extract_lets +onlyGivenNames -merge -useContext -lift x1
  have hx1 : s₀.ChangesOnly ps x1 := by
    unfold x1
    apply State.onTile_changes (List.Subset.trans (by decide) hm)
    exact hs
  extract_lets +onlyGivenNames -merge -useContext -lift x2
  have hx2 : s₀.ChangesOnly ps x2 := by
    unfold x2
    apply State.findPstep_changes (List.Subset.trans (by decide) hm)
    exact hx1
  split
  apply State.setThrottle_changes (List.Subset.trans (by decide) hm)
  exact hx2

theorem State.capWritten_changes {ps : List Part} (hm : ([.free, .tiles, .ports, .atria, .pkg] : List Part) ⊆ ps)
    {s₀ : State} (t : Fin 8) {s : State} (hs : s₀.ChangesOnly ps s) :
    s₀.ChangesOnly ps (State.capWritten t s) := by
  unfold State.capWritten
  extract_lets +onlyGivenNames -merge -useContext -lift x1
  apply State.ChangesOnly.ite
  · apply State.applyCap_changes (List.Subset.trans (by decide) hm)
    exact hs
  · apply State.setThrottle_changes (List.Subset.trans (by decide) hm)
    exact hs

theorem State.noteAccess_changes {ps : List Part} (hm : ([.tiles, .atria] : List Part) ⊆ ps)
    {s₀ : State} (q : Sys2Proof.Req) (p : Place) (a : ℕ)  {s : State} (hs : s₀.ChangesOnly ps s) :
    s₀.ChangesOnly ps (State.noteAccess q p a s) := by
  unfold State.noteAccess
  extract_lets +onlyGivenNames -merge -useContext -lift x1
  split
  · apply State.sendPacket_changes (List.Subset.trans (by decide) hm)
    exact hs
  · apply State.sendPacket_changes (List.Subset.trans (by decide) hm)
    exact hs
  · apply State.onPkg_changes (List.Subset.trans (by decide) hm)
    exact hs
  · apply State.onPkg_changes (List.Subset.trans (by decide) hm)
    exact hs

theorem State.dropShadow_changes {ps : List Part} (hm : ([.shadows] : List Part) ⊆ ps)
    {s₀ : State} (q : Sys2Proof.Req) (a : ℕ)  {s : State} (hs : s₀.ChangesOnly ps s) :
    s₀.ChangesOnly ps (State.dropShadow q a s) := by
  unfold State.dropShadow
  refine State.ChangesOnly.record ?_
          (.inl rfl) (.inl rfl) (.inl rfl) (.inl rfl) (.inl rfl) (.inl rfl) (.inl rfl) (.inl rfl) (.inl rfl) (.inr (hm (by decide))) (.inl rfl) (.inl rfl)
  exact hs

theorem State.capture_changes {ps : List Part} (hm : ([.shadows] : List Part) ⊆ ps)
    {s₀ : State} (q : Sys2Proof.Req) (a : ℕ)  {s : State} (hs : s₀.ChangesOnly ps s) :
    s₀.ChangesOnly ps (State.capture q a s) := by
  unfold State.capture
  extract_lets +onlyGivenNames -merge -useContext -lift x1
  extract_lets +onlyGivenNames -merge -useContext -lift x2
  have hx2 : s₀.ChangesOnly ps x2 := by
    unfold x2
    apply State.dropShadow_changes (List.Subset.trans (by decide) hm)
    exact hs
  refine State.ChangesOnly.record ?_
          (.inl rfl) (.inl rfl) (.inl rfl) (.inl rfl) (.inl rfl) (.inl rfl) (.inl rfl) (.inl rfl) (.inl rfl) (.inr (hm (by decide))) (.inl rfl) (.inl rfl)
  exact hx2

theorem State.tawReadTable_changes {ps : List Part} (hm : ([.tiles, .atria] : List Part) ⊆ ps)
    {s₀ : State} (t : Fin 8) (i : ℕ) (sp : ℕ) {s : State} (hs : s₀.ChangesOnly ps s) :
    s₀.ChangesOnly ps (State.tawReadTable t i sp s).2 := by
  unfold State.tawReadTable
  extract_lets +onlyGivenNames -merge -useContext -lift x1
  extract_lets +onlyGivenNames -merge -useContext -lift x2
  split
  extract_lets +onlyGivenNames -merge -useContext -lift x3
  extract_lets +onlyGivenNames -merge -useContext -lift x4
  have hx4 : s₀.ChangesOnly ps x4 := by
    unfold x4
    apply State.noteSram_changes (List.Subset.trans (by decide) hm)
    exact hs
  apply State.ChangesOnly.ite₂
  · apply State.ChangesOnly.pair
    apply State.onTile_changes (List.Subset.trans (by decide) hm)
    exact hx4
  · apply State.ChangesOnly.pair
    exact hx4

theorem State.tawReadWide_changes {ps : List Part} (hm : ([.tiles, .atria] : List Part) ⊆ ps)
    {s₀ : State} (t : Fin 8) (i : ℕ) (sp : ℕ)  {s : State} (hs : s₀.ChangesOnly ps s) :
    s₀.ChangesOnly ps (State.tawReadWide t i sp s).2 := by
  unfold State.tawReadWide
  extract_lets +onlyGivenNames -merge -useContext -lift x1
  extract_lets +onlyGivenNames -merge -useContext -lift x2
  extract_lets +onlyGivenNames -merge -useContext -lift x3
  extract_lets +onlyGivenNames -merge -useContext -lift x4
  extract_lets +onlyGivenNames -merge -useContext -lift x5
  have hx5 : s₀.ChangesOnly ps x5 := by
    unfold x5
    apply State.ChangesOnly.ite
    · exact hs
    · apply State.noteSelvRead_changes (List.Subset.trans (by decide) hm)
      exact hs
  extract_lets +onlyGivenNames -merge -useContext -lift x6
  have hx6 : s₀.ChangesOnly ps x6 := by
    unfold x6
    apply State.onTile_changes (List.Subset.trans (by decide) hm)
    exact hx5
  apply State.ChangesOnly.ite₂
  · apply State.ChangesOnly.pair
    apply State.onTile_changes (List.Subset.trans (by decide) hm)
    exact hx6
  · apply State.ChangesOnly.pair
    exact hx6

theorem State.tawRead_changes {ps : List Part} (hm : ([.tiles, .atria] : List Part) ⊆ ps)
    {s₀ : State} (t : Fin 8) (i : ℕ)  {s : State} (hs : s₀.ChangesOnly ps s) :
    s₀.ChangesOnly ps (State.tawRead t i s).2 := by
  unfold State.tawRead
  extract_lets +onlyGivenNames -merge -useContext -lift x1
  extract_lets +onlyGivenNames -merge -useContext -lift x2
  have hx2 : s₀.ChangesOnly ps x2.2 := by
    unfold x2
    apply State.ChangesOnly.ite₂
    · apply State.ChangesOnly.pair
      apply State.onTile_changes (List.Subset.trans (by decide) hm)
      exact hs
    · apply State.ChangesOnly.ite₂
      · apply State.tawReadTable_changes (List.Subset.trans (by decide) hm)
        exact hs
      · apply State.tawReadWide_changes (List.Subset.trans (by decide) hm)
        exact hs
  apply State.ChangesOnly.pair
  apply State.onTile_changes (List.Subset.trans (by decide) hm)
  exact hx2

theorem State.tawStore_changes {ps : List Part} (hm : ([.heads, .tiles] : List Part) ⊆ ps)
    {s₀ : State} (t : Fin 8) (i : ℕ) (sp : ℕ) (v : ℕ)  {s : State} (hs : s₀.ChangesOnly ps s) :
    s₀.ChangesOnly ps (State.tawStore t i sp v s) := by
  unfold State.tawStore
  extract_lets +onlyGivenNames -merge -useContext -lift x1
  extract_lets +onlyGivenNames -merge -useContext -lift x2
  extract_lets +onlyGivenNames -merge -useContext -lift x3
  apply State.ChangesOnly.ite
  · apply State.onTile_changes (List.Subset.trans (by decide) hm)
    apply State.onHead_changes (List.Subset.trans (by decide) hm)
    exact hs
  · apply State.setHead_changes (List.Subset.trans (by decide) hm)
    exact hs

theorem State.tawWrite_changes {ps : List Part} (hm : ([.heads, .tiles] : List Part) ⊆ ps)
    {s₀ : State} (t : Fin 8) (i : ℕ) (v : ℕ)  {s : State} (hs : s₀.ChangesOnly ps s) :
    s₀.ChangesOnly ps (State.tawWrite t i v s) := by
  unfold State.tawWrite
  extract_lets +onlyGivenNames -merge -useContext -lift x1
  extract_lets +onlyGivenNames -merge -useContext -lift x2
  extract_lets +onlyGivenNames -merge -useContext -lift x3
  have hx3 : s₀.ChangesOnly ps x3 := by
    unfold x3
    apply State.ChangesOnly.ite
    · apply State.tawStore_changes (List.Subset.trans (by decide) hm)
      exact hs
    · apply State.onTile_changes (List.Subset.trans (by decide) hm)
      exact hs
  apply State.onTile_changes (List.Subset.trans (by decide) hm)
  exact hx3

theorem State.tawReset_changes {ps : List Part} (hm : ([.atria] : List Part) ⊆ ps)
    {s₀ : State} (q : Sys2Proof.Req) (a : ℕ)  {s : State} (hs : s₀.ChangesOnly ps s) :
    s₀.ChangesOnly ps (State.tawReset q a s) := by
  unfold State.tawReset
  apply State.onPkg_changes (List.Subset.trans (by decide) hm)
  exact hs

theorem State.noteKept_changes {ps : List Part} (hm : ([.atria] : List Part) ⊆ ps)
    {s₀ : State} (t : Fin 8) (a : ℕ) {s : State} (hs : s₀.ChangesOnly ps s) :
    s₀.ChangesOnly ps (State.noteKept t a s) := by
  unfold State.noteKept
  split
  · exact hs
  · apply State.noteSelvRead_changes (List.Subset.trans (by decide) hm)
    exact hs

theorem State.notePlace_changes {ps : List Part} (hm : ([.atria] : List Part) ⊆ ps)
    {s₀ : State} (w : Fin 2) (p : Place) {s : State} (hs : s₀.ChangesOnly ps s) :
    s₀.ChangesOnly ps (State.notePlace w p s) := by
  unfold State.notePlace
  split
  · exact hs
  · apply State.ChangesOnly.ite
    · apply State.noteRecordRead_changes (List.Subset.trans (by decide) hm)
      exact hs
    · apply State.noteKept_changes (List.Subset.trans (by decide) hm)
      exact hs

theorem State.regRead_changes {ps : List Part} (hm : ([.tiles, .atria, .shadows] : List Part) ⊆ ps)
    {s₀ : State} (q : Req) (a : ℕ) {s : State} (hs : s₀.ChangesOnly ps s) :
    s₀.ChangesOnly ps (State.regRead q a s).2 := by
  unfold State.regRead
  extract_lets +onlyGivenNames -merge -useContext -lift x1
  extract_lets +onlyGivenNames -merge -useContext -lift x2
  extract_lets +onlyGivenNames -merge -useContext -lift x3
  have hx3 : s₀.ChangesOnly ps x3 := by
    unfold x3
    apply State.noteAccess_changes (List.Subset.trans (by decide) hm)
    exact hs
  apply State.ChangesOnly.ite₂
  · apply State.ChangesOnly.pair
    exact hx3
  · split
    · apply State.ChangesOnly.ite₂
      · apply State.ChangesOnly.pair
        apply State.tawReset_changes (List.Subset.trans (by decide) hm)
        exact hx3
      · apply State.tawRead_changes (List.Subset.trans (by decide) hm)
        exact hx3
    · split
      · apply State.ChangesOnly.pair
        apply State.dropShadow_changes (List.Subset.trans (by decide) hm)
        exact hx3
      · extract_lets +onlyGivenNames -merge -useContext -lift x4
        extract_lets +onlyGivenNames -merge -useContext -lift x5
        have hx5 : s₀.ChangesOnly ps x5 := by
          unfold x5
          apply State.notePlace_changes (List.Subset.trans (by decide) hm)
          exact hx3
        apply State.ChangesOnly.pair
        apply State.ChangesOnly.ite
        · apply State.capture_changes (List.Subset.trans (by decide) hm)
          exact hx5
        · exact hx5

theorem State.headStore_changes {ps : List Part} (hm : ([.heads, .atria] : List Part) ⊆ ps)
    {s₀ : State} (h : Fin 32) (off : ℕ) (v : ℕ)  {s : State} (hs : s₀.ChangesOnly ps s) :
    s₀.ChangesOnly ps (State.headStore h off v s) := by
  unfold State.headStore
  extract_lets +onlyGivenNames -merge -useContext -lift x1
  have hx1 : s₀.ChangesOnly ps x1 := by
    unfold x1
    apply State.onHead_changes (List.Subset.trans (by decide) hm)
    exact hs
  extract_lets +onlyGivenNames -merge -useContext -lift x2
  extract_lets +onlyGivenNames -merge -useContext -lift x3
  have hx3 : s₀.ChangesOnly ps x3 := by
    unfold x3
    apply State.onHead_changes (List.Subset.trans (by decide) hm)
    exact hx1
  apply State.ChangesOnly.ite
  · apply State.pset_changes (List.Subset.trans (by decide) hm)
    exact hx3
  · exact hx3

theorem State.riserControl_changes {ps : List Part} (hm : ([.heads, .tiles, .atria] : List Part) ⊆ ps)
    {s₀ : State} (h : Fin 32) (v : ℕ)  {s : State} (hs : s₀.ChangesOnly ps s) :
    s₀.ChangesOnly ps (State.riserControl h v s) := by
  unfold State.riserControl
  apply State.ChangesOnly.ite
  · apply State.headReset_changes (List.Subset.trans (by decide) hm)
    exact hs
  · extract_lets +onlyGivenNames -merge -useContext -lift x1
    have hx1 : s₀.ChangesOnly ps x1 := by
      unfold x1
      apply State.safeCmd_changes (List.Subset.trans (by decide) hm)
      exact hs
    extract_lets +onlyGivenNames -merge -useContext -lift x2
    have hx2 : s₀.ChangesOnly ps x2 := by
      unfold x2
      apply State.ChangesOnly.ite
      · apply State.onHead_changes (List.Subset.trans (by decide) hm)
        exact hx1
      · exact hx1
    apply State.ChangesOnly.ite
    · apply State.train_changes (List.Subset.trans (by decide) hm)
      exact hx2
    · exact hx2

theorem State.calCommands_changes {ps : List Part} (hm : ([.heads, .tiles, .atria] : List Part) ⊆ ps)
    {s₀ : State} (h : Fin 32) (v : ℕ)  {s : State} (hs : s₀.ChangesOnly ps s) :
    s₀.ChangesOnly ps (State.calCommands h v s) := by
  unfold State.calCommands
  extract_lets +onlyGivenNames -merge -useContext -lift x1
  have hx1 : s₀.ChangesOnly ps x1 := by
    unfold x1
    apply State.ChangesOnly.ite
    · apply State.calRequest_changes (List.Subset.trans (by decide) hm)
      exact hs
    · exact hs
  extract_lets +onlyGivenNames -merge -useContext -lift x2
  have hx2 : s₀.ChangesOnly ps x2 := by
    unfold x2
    apply State.ChangesOnly.ite
    · apply State.calRequest_changes (List.Subset.trans (by decide) hm)
      exact hx1
    · exact hx1
  extract_lets +onlyGivenNames -merge -useContext -lift x3
  have hx3 : s₀.ChangesOnly ps x3 := by
    unfold x3
    apply State.ChangesOnly.ite
    · apply State.calRequest_changes (List.Subset.trans (by decide) hm)
      exact hx2
    · exact hx2
  apply State.ChangesOnly.ite
  · apply State.calRequest_changes (List.Subset.trans (by decide) hm)
    exact hx3
  · exact hx3

theorem State.headWrite_changes {ps : List Part} (hm : ([.heads, .tiles, .atria] : List Part) ⊆ ps)
    {s₀ : State} (h : Fin 32) (off : ℕ) (v : ℕ)  {s : State} (hs : s₀.ChangesOnly ps s) :
    s₀.ChangesOnly ps (State.headWrite h off v s) := by
  unfold State.headWrite
  extract_lets +onlyGivenNames -merge -useContext -lift x1
  have hx1 : s₀.ChangesOnly ps x1 := by
    unfold x1
    apply State.headStore_changes (List.Subset.trans (by decide) hm)
    exact hs
  apply State.ChangesOnly.ite
  · apply State.riserControl_changes (List.Subset.trans (by decide) hm)
    exact hx1
  · apply State.ChangesOnly.ite
    · extract_lets +onlyGivenNames -merge -useContext -lift x2
      have hx2 : s₀.ChangesOnly ps x2 := by
        unfold x2
        apply State.onHead_changes (List.Subset.trans (by decide) hm)
        exact hx1
      apply State.ChangesOnly.ite
      · apply State.calRequest_changes (List.Subset.trans (by decide) hm)
        exact hx2
      · exact hx2
    · apply State.ChangesOnly.ite
      · apply State.calCommands_changes (List.Subset.trans (by decide) hm)
        exact hx1
      · apply State.onHead_changes (List.Subset.trans (by decide) hm)
        exact hx1

theorem State.tileStore_changes {ps : List Part} (hm : ([.tiles] : List Part) ⊆ ps)
    {s₀ : State} (t : Fin 8) (off : ℕ) (v : ℕ)  {s : State} (hs : s₀.ChangesOnly ps s) :
    s₀.ChangesOnly ps (State.tileStore t off v s) := by
  unfold State.tileStore
  extract_lets +onlyGivenNames -merge -useContext -lift x1
  have hx1 : s₀.ChangesOnly ps x1 := by
    unfold x1
    apply State.ChangesOnly.ite
    · apply State.boltCount_changes (List.Subset.trans (by decide) hm)
      exact hs
    · exact hs
  apply State.onTile_changes (List.Subset.trans (by decide) hm)
  exact hx1

theorem State.cacheWritten_changes {ps : List Part} (hm : ([.tiles] : List Part) ⊆ ps)
    {s₀ : State} (t : Fin 8) (c : Fin 2) (k : Fin 2) (r : ℕ) (v : ℕ)  {s : State} (hs : s₀.ChangesOnly ps s) :
    s₀.ChangesOnly ps (State.cacheWritten t c k r v s) := by
  unfold State.cacheWritten
  apply State.ChangesOnly.ite
  · apply State.ChangesOnly.ite
    · exact hs
    · apply State.cacheOff_changes (List.Subset.trans (by decide) hm)
      exact hs
  · apply State.ChangesOnly.ite
    · apply State.cacheGo_changes (List.Subset.trans (by decide) hm)
      exact hs
    · exact hs

theorem State.dmaWritten_changes {ps : List Part} (hm : ([.tiles] : List Part) ⊆ ps)
    {s₀ : State} (t : Fin 8) (c : Fin 8) (r : ℕ) (v : ℕ)  {s : State} (hs : s₀.ChangesOnly ps s) :
    s₀.ChangesOnly ps (State.dmaWritten t c r v s) := by
  unfold State.dmaWritten
  apply State.ChangesOnly.ite
  · extract_lets +onlyGivenNames -merge -useContext -lift x1
    have hx1 : s₀.ChangesOnly ps x1 := by
      unfold x1
      apply State.ChangesOnly.ite
      · apply State.dmaGo_changes (List.Subset.trans (by decide) hm)
        exact hs
      · exact hs
    apply State.ChangesOnly.ite
    · apply State.dmaStop_changes (List.Subset.trans (by decide) hm)
      exact hx1
    · exact hx1
  · apply State.ChangesOnly.ite
    · apply State.onTile_changes (List.Subset.trans (by decide) hm)
      exact hs
    · exact hs

theorem State.portWritten_changes {ps : List Part} (hm : ([.free, .tiles, .ports, .atria, .pkg] : List Part) ⊆ ps)
    {s₀ : State} (p : Fin 16) (v : ℕ) {s : State} (hs : s₀.ChangesOnly ps s) :
    s₀.ChangesOnly ps (State.portWritten p v s) := by
  unfold State.portWritten
  apply State.ChangesOnly.ite
  · apply State.portResetCmd_changes (List.Subset.trans (by decide) hm)
    exact hs
  · apply State.ChangesOnly.ite
    · apply State.refreshPorts_changes (List.Subset.trans (by decide) hm)
      exact hs
    · apply State.refreshPorts_changes (List.Subset.trans (by decide) hm)
      apply State.linkFalls_changes (List.Subset.trans (by decide) hm)
      exact hs

theorem State.tileAct_changes {ps : List Part} (hm : ([.free, .heads, .tiles, .ports, .atria, .pkg] : List Part) ⊆ ps)
    {s₀ : State} (q : Req) (t : Fin 8) (off : ℕ) (v : ℕ) {s : State} (hs : s₀.ChangesOnly ps s) :
    s₀.ChangesOnly ps (State.tileAct q t off v s) := by
  unfold State.tileAct
  apply State.ChangesOnly.ite
  · apply State.onTile_changes (List.Subset.trans (by decide) hm)
    exact hs
  · apply State.ChangesOnly.ite
    · apply State.onTile_changes (List.Subset.trans (by decide) hm)
      exact hs
    · apply State.ChangesOnly.ite
      · extract_lets +onlyGivenNames -merge -useContext -lift x1
        apply State.cacheWritten_changes (List.Subset.trans (by decide) hm)
        exact hs
      · apply State.ChangesOnly.ite
        · apply State.tawWrite_changes (List.Subset.trans (by decide) hm)
          exact hs
        · apply State.ChangesOnly.ite
          · apply State.tawWrite_changes (List.Subset.trans (by decide) hm)
            exact hs
          · apply State.ChangesOnly.ite
            · apply State.tawWrite_changes (List.Subset.trans (by decide) hm)
              exact hs
            · apply State.ChangesOnly.ite
              · apply State.onTile_changes (List.Subset.trans (by decide) hm)
                exact hs
              · apply State.ChangesOnly.ite
                · apply State.onTile_changes (List.Subset.trans (by decide) hm)
                  exact hs
                · apply State.ChangesOnly.ite
                  · apply State.repairGo_changes (List.Subset.trans (by decide) hm)
                    exact hs
                  · apply State.ChangesOnly.ite
                    · apply State.dmaWritten_changes (List.Subset.trans (by decide) hm)
                      exact hs
                    · apply State.ChangesOnly.ite
                      · apply State.boltFlush_changes (List.Subset.trans (by decide) hm)
                        exact hs
                      · apply State.ChangesOnly.ite
                        · apply State.portWritten_changes (List.Subset.trans (by decide) hm)
                          exact hs
                        · apply State.ChangesOnly.ite
                          · apply State.portWritten_changes (List.Subset.trans (by decide) hm)
                            exact hs
                          · apply State.ChangesOnly.ite
                            · apply State.refreshPorts_changes (List.Subset.trans (by decide) hm)
                              exact hs
                            · apply State.ChangesOnly.ite
                              · apply State.hcrFlush_changes (List.Subset.trans (by decide) hm)
                                exact hs
                              · apply State.ChangesOnly.ite
                                · apply State.ChangesOnly.ite
                                  · apply State.hcrGo_changes (List.Subset.trans (by decide) hm)
                                    exact hs
                                  · exact hs
                                · apply State.ChangesOnly.ite
                                  · extract_lets +onlyGivenNames -merge -useContext -lift x2
                                    have hx2 : s₀.ChangesOnly ps x2 := by
                                      unfold x2
                                      apply State.capWritten_changes (List.Subset.trans (by decide) hm)
                                      exact hs
                                    apply State.ChangesOnly.ite
                                    · apply State.tripResume_changes (List.Subset.trans (by decide) hm)
                                      exact hx2
                                    · exact hx2
                                  · exact hs

theorem State.tileWrite_changes {ps : List Part} (hm : ([.free, .heads, .tiles, .ports, .atria, .pkg] : List Part) ⊆ ps)
    {s₀ : State} (q : Req) (t : Fin 8) (off : ℕ) (v : ℕ) {s : State} (hs : s₀.ChangesOnly ps s) :
    s₀.ChangesOnly ps (State.tileWrite q t off v s) := by
  unfold State.tileWrite
  apply State.ChangesOnly.ite
  · apply State.onTile_changes (List.Subset.trans (by decide) hm)
    exact hs
  · apply State.tileAct_changes (List.Subset.trans (by decide) hm)
    apply State.tileStore_changes (List.Subset.trans (by decide) hm)
    exact hs

theorem State.pkgStore_changes {ps : List Part} (hm : ([.atria] : List Part) ⊆ ps)
    {s₀ : State} (w : Fin 2) (off : ℕ) (v : ℕ)  {s : State} (hs : s₀.ChangesOnly ps s) :
    s₀.ChangesOnly ps (State.pkgStore w off v s) := by
  unfold State.pkgStore
  apply State.onPkg_changes (List.Subset.trans (by decide) hm)
  exact hs

theorem State.scrubReports_changes {ps : List Part} (hm : ([.free, .tiles] : List Part) ⊆ ps)
    {s₀ : State}  {s : State} (hs : s₀.ChangesOnly ps s) :
    s₀.ChangesOnly ps (State.scrubReports s) := by
  unfold State.scrubReports
  apply State.eachTile_changes hs
  intro _ _ hu
  exact State.ChangesOnly.ite (State.takeFree_changes (List.Subset.trans (by decide) hm) (State.onTile_changes (List.Subset.trans (by decide) hm) _ _ hu)) hu

theorem State.powerWritten_changes {ps : List Part} (hm : ([.tiles, .atria] : List Part) ⊆ ps)
    {s₀ : State} {s : State} (hs : s₀.ChangesOnly ps s) :
    s₀.ChangesOnly ps (State.powerWritten s) := by
  unfold State.powerWritten
  extract_lets +onlyGivenNames -merge -useContext -lift x1
  extract_lets +onlyGivenNames -merge -useContext -lift x2
  apply State.ChangesOnly.ite
  · exact hs
  · apply State.pkgPut_changes (List.Subset.trans (by decide) hm)
    apply State.pkgPut_changes (List.Subset.trans (by decide) hm)
    exact hs

theorem State.psWrite_changes {ps : List Part} (hm : ([.free, .tiles, .ports, .atria, .pkg] : List Part) ⊆ ps)
    {s₀ : State} (q : Req) (v : ℕ) {s : State} (hs : s₀.ChangesOnly ps s) :
    s₀.ChangesOnly ps (State.psWrite q v s) := by
  unfold State.psWrite
  apply State.ChangesOnly.ite
  · exact hs
  · extract_lets +onlyGivenNames -merge -useContext -lift x1
    extract_lets +onlyGivenNames -merge -useContext -lift x2
    extract_lets +onlyGivenNames -merge -useContext -lift x3
    extract_lets +onlyGivenNames -merge -useContext -lift x4
    have hx4 : s₀.ChangesOnly ps x4 := by
      unfold x4
      apply State.powerWritten_changes (List.Subset.trans (by decide) hm)
      apply State.pw_changes (List.Subset.trans (by decide) hm)
      exact hs
    apply State.refreshPorts_changes (List.Subset.trans (by decide) hm)
    apply State.ChangesOnly.ite
    · apply State.scrubReports_changes (List.Subset.trans (by decide) hm)
      exact hx4
    · exact hx4

theorem State.resetCmd_changes {ps : List Part} (hm : ([.free, .heads, .tiles, .ports, .sets, .atria, .flashes, .boot, .pkg, .smb, .shadows] : List Part) ⊆ ps)
    {s₀ : State} (q : Req) (v : ℕ) {s : State} (hs : s₀.ChangesOnly ps s) :
    s₀.ChangesOnly ps (State.resetCmd q v s) := by
  unfold State.resetCmd
  apply State.ChangesOnly.ite
  · apply State.ChangesOnly.ite
    · apply State.ChangesOnly.ite
      · exact hs
      · apply State.bootBegins_changes (List.Subset.trans (by decide) hm)
        apply State.warmReset_changes (List.Subset.trans (by decide) hm)
        exact hs
    · apply State.eachTile_changes
      · exact hs
      · intro _ _ hu1
        apply State.ChangesOnly.ite
        · apply State.tileResetCmd_changes (List.Subset.trans (by decide) hm)
          exact hu1
        · exact hu1
  · apply State.pset_changes (List.Subset.trans (by decide) hm)
    exact hs

theorem State.smbWing_changes {ps : List Part} (hm : ([.atria] : List Part) ⊆ ps)
    {s₀ : State} (v : ℕ)  {s : State} (hs : s₀.ChangesOnly ps s) :
    s₀.ChangesOnly ps (State.smbWing v s) := by
  unfold State.smbWing
  apply State.onAtrium_changes (List.Subset.trans (by decide) hm)
  apply State.onAtrium_changes (List.Subset.trans (by decide) hm)
  exact hs

theorem State.persistPut_changes {ps : List Part} (hm : ([.tiles, .atria] : List Part) ⊆ ps)
    {s₀ : State} (q : Req) (off : ℕ) (v : ℕ) {s : State} (hs : s₀.ChangesOnly ps s) :
    s₀.ChangesOnly ps (State.persistPut q off v s) := by
  unfold State.persistPut
  apply State.ChangesOnly.ite
  · apply State.writeMinSeq_changes (List.Subset.trans (by decide) hm)
    exact hs
  · apply State.ChangesOnly.ite
    · apply State.writeMinSeq_changes (List.Subset.trans (by decide) hm)
      exact hs
    · apply State.ChangesOnly.ite
      · apply State.writeSlots_changes (List.Subset.trans (by decide) hm)
        exact hs
      · apply State.writeBrAck_changes (List.Subset.trans (by decide) hm)
        exact hs

theorem State.persistTake_changes {ps : List Part} (hm : ([.tiles, .atria, .pkg] : List Part) ⊆ ps)
    {s₀ : State} (q : Req) (off : ℕ) (v : ℕ) {s : State} (hs : s₀.ChangesOnly ps s) :
    s₀.ChangesOnly ps (State.persistTake q off v s) := by
  unfold State.persistTake
  extract_lets +onlyGivenNames -merge -useContext -lift x1
  extract_lets +onlyGivenNames -merge -useContext -lift x2
  have hx2 : s₀.ChangesOnly ps x2 := by
    unfold x2
    apply State.persistPut_changes (List.Subset.trans (by decide) hm)
    exact hs
  refine State.ChangesOnly.record ?_
    (.inl rfl) (.inl rfl) (.inl rfl) (.inl rfl) (.inl rfl) (.inl rfl) (.inl rfl) (.inr (hm (by decide))) (.inl rfl) (.inl rfl) (.inl rfl) (.inl rfl)
  exact hx2

theorem State.persistBack_changes {ps : List Part} (hm : ([.tiles, .atria] : List Part) ⊆ ps)
    {s₀ : State} (w : Fin 2) (off : ℕ) (old : ℕ) (wear : ℕ) {s : State} (hs : s₀.ChangesOnly ps s) :
    s₀.ChangesOnly ps (State.persistBack w off old wear s) := by
  unfold State.persistBack
  extract_lets +onlyGivenNames -merge -useContext -lift x1
  have hx1 : s₀.ChangesOnly ps x1 := by
    unfold x1
    apply State.onAtrium_changes (List.Subset.trans (by decide) hm)
    exact hs
  split
  · exact hx1
  · apply State.onTile_changes (List.Subset.trans (by decide) hm)
    exact hx1

theorem State.persistWrite_changes {ps : List Part} (hm : ([.tiles, .atria, .pkg] : List Part) ⊆ ps)
    {s₀ : State} (q : Req) (off : ℕ) (v : ℕ) {s : State} (hs : s₀.ChangesOnly ps s) :
    s₀.ChangesOnly ps (State.persistWrite q off v s) := by
  unfold State.persistWrite
  extract_lets +onlyGivenNames -merge -useContext -lift x1
  extract_lets +onlyGivenNames -merge -useContext -lift x2
  apply State.ChangesOnly.ite
  · apply State.persistTake_changes (List.Subset.trans (by decide) hm)
    exact hs
  · extract_lets +onlyGivenNames -merge -useContext -lift x3
    have hx3 : s₀.ChangesOnly ps x3 := by
      unfold x3
      apply State.ChangesOnly.foldl
      · exact hs
      · intro _ _ hu4
        apply State.persistBack_changes (List.Subset.trans (by decide) hm)
        apply State.persistBack_changes (List.Subset.trans (by decide) hm)
        exact hu4
    extract_lets +onlyGivenNames -merge -useContext -lift x5
    extract_lets +onlyGivenNames -merge -useContext -lift x6
    have hx6 : s₀.ChangesOnly ps x6 := by
      unfold x6
      refine State.ChangesOnly.record ?_
        (.inl rfl) (.inl rfl) (.inl rfl) (.inl rfl) (.inl rfl) (.inl rfl) (.inl rfl) (.inr (hm (by decide))) (.inl rfl) (.inl rfl) (.inl rfl) (.inl rfl)
      exact hx3
    apply State.ChangesOnly.foldl
    · apply State.persistTake_changes (List.Subset.trans (by decide) hm)
      exact hx6
    · intro _ _ hu7
      apply State.persistTake_changes (List.Subset.trans (by decide) hm)
      exact hu7

theorem State.pkgAct_changes {ps : List Part} (hm : ([.free, .heads, .tiles, .ports, .sets, .atria, .flashes, .boot, .pkg, .fuses, .smb, .shadows] : List Part) ⊆ ps)
    {s₀ : State} (q : Req) (off : ℕ) (v : ℕ) {s : State} (hs : s₀.ChangesOnly ps s) :
    s₀.ChangesOnly ps (State.pkgAct q off v s) := by
  unfold State.pkgAct
  apply State.ChangesOnly.ite
  · apply State.resetCmd_changes (List.Subset.trans (by decide) hm)
    exact hs
  · apply State.ChangesOnly.ite
    · apply State.persistWrite_changes (List.Subset.trans (by decide) hm)
      exact hs
    · apply State.ChangesOnly.ite
      · apply State.ChangesOnly.ite
        · apply State.keyGo_changes (List.Subset.trans (by decide) hm)
          exact hs
        · exact hs
      · apply State.ChangesOnly.ite
        · apply State.ChangesOnly.ite
          · apply State.flGo_changes (List.Subset.trans (by decide) hm)
            exact hs
          · exact hs
        · apply State.ChangesOnly.ite
          · apply State.ChangesOnly.ite
            · apply State.flGo_changes (List.Subset.trans (by decide) hm)
              exact hs
            · exact hs
          · apply State.ChangesOnly.ite
            · extract_lets +onlyGivenNames -merge -useContext -lift x1
              have hx1 : s₀.ChangesOnly ps x1 := by
                unfold x1
                apply State.smbWing_changes (List.Subset.trans (by decide) hm)
                exact hs
              apply State.authCmd_changes (List.Subset.trans (by decide) hm)
              exact hx1
            · apply State.ChangesOnly.ite
              · extract_lets +onlyGivenNames -merge -useContext -lift x2
                apply State.setCmd_changes (List.Subset.trans (by decide) hm)
                exact hs
              · apply State.ChangesOnly.ite
                · apply State.psWrite_changes (List.Subset.trans (by decide) hm)
                  exact hs
                · apply State.ChangesOnly.ite
                  · apply State.refreshPorts_changes (List.Subset.trans (by decide) hm)
                    exact hs
                  · apply State.ChangesOnly.ite
                    · apply State.refreshWear_changes (List.Subset.trans (by decide) hm)
                      exact hs
                    · exact hs

theorem State.pkgWrite_changes {ps : List Part} (hm : ([.free, .heads, .tiles, .ports, .sets, .atria, .flashes, .boot, .pkg, .fuses, .smb, .shadows] : List Part) ⊆ ps)
    {s₀ : State} (q : Req) (off : ℕ) (v : ℕ) {s : State} (hs : s₀.ChangesOnly ps s) :
    s₀.ChangesOnly ps (State.pkgWrite q off v s) := by
  unfold State.pkgWrite
  apply State.pkgAct_changes (List.Subset.trans (by decide) hm)
  apply State.pkgStore_changes (List.Subset.trans (by decide) hm)
  exact hs

theorem State.writePlace_changes {ps : List Part} (hm : ([.free, .heads, .tiles, .ports, .sets, .atria, .flashes, .boot, .pkg, .fuses, .smb, .shadows] : List Part) ⊆ ps)
    {s₀ : State} (q : Req) (p : Place) (v : ℕ) {s : State} (hs : s₀.ChangesOnly ps s) :
    s₀.ChangesOnly ps (State.writePlace q p v s) := by
  unfold State.writePlace
  split
  · apply State.pkgWrite_changes (List.Subset.trans (by decide) hm)
    exact hs
  · apply State.tileWrite_changes (List.Subset.trans (by decide) hm)
    exact hs
  · apply State.headWrite_changes (List.Subset.trans (by decide) hm)
    exact hs
  · exact hs

theorem State.arrived_changes {ps : List Part} (hm : ([.tiles, .atria, .shadows] : List Part) ⊆ ps)
    {s₀ : State} (q : Sys2Proof.Req) (p : Place) (a : ℕ)  {s : State} (hs : s₀.ChangesOnly ps s) :
    s₀.ChangesOnly ps (State.arrived q p a s) := by
  unfold State.arrived
  apply State.dropShadow_changes (List.Subset.trans (by decide) hm)
  apply State.noteAccess_changes (List.Subset.trans (by decide) hm)
  exact hs

theorem State.writeAt_changes {ps : List Part} (hm : ([.free, .heads, .tiles, .ports, .sets, .atria, .flashes, .boot, .pkg, .fuses, .smb, .shadows] : List Part) ⊆ ps)
    {s₀ : State} (q : Req) (p : Place) (a : ℕ) (v : ℕ) {s : State} (hs : s₀.ChangesOnly ps s) :
    s₀.ChangesOnly ps (State.writeAt q p a v s) := by
  unfold State.writeAt
  apply State.ChangesOnly.ite
  · apply State.noteAccess_changes (List.Subset.trans (by decide) hm)
    exact hs
  · apply State.ChangesOnly.ite
    · apply State.tawReset_changes (List.Subset.trans (by decide) hm)
      apply State.noteAccess_changes (List.Subset.trans (by decide) hm)
      exact hs
    · apply State.writePlace_changes (List.Subset.trans (by decide) hm)
      apply State.arrived_changes (List.Subset.trans (by decide) hm)
      exact hs

theorem State.regWrite_changes {ps : List Part} (hm : ([.free, .heads, .tiles, .ports, .sets, .atria, .flashes, .boot, .pkg, .fuses, .smb, .shadows] : List Part) ⊆ ps)
    {s₀ : State} (q : Req) (a : ℕ) (v : ℕ) {s : State} (hs : s₀.ChangesOnly ps s) :
    s₀.ChangesOnly ps (State.regWrite q a v s) := by
  unfold State.regWrite
  apply State.writeAt_changes (List.Subset.trans (by decide) hm)
  exact hs

theorem State.bothPut_changes {ps : List Part} (hm : ([.atria] : List Part) ⊆ ps)
    {s₀ : State} (f : Fld) (v : ℕ)  {s : State} (hs : s₀.ChangesOnly ps s) :
    s₀.ChangesOnly ps (State.bothPut f v s) := by
  unfold State.bothPut
  apply State.onAtrium_changes (List.Subset.trans (by decide) hm)
  apply State.onAtrium_changes (List.Subset.trans (by decide) hm)
  exact hs

theorem State.startLink_changes {ps : List Part} (hm : ([.tiles] : List Part) ⊆ ps)
    {s₀ : State} (t : Fin 8) (k : Fin 3)  {s : State} (hs : s₀.ChangesOnly ps s) :
    s₀.ChangesOnly ps (State.startLink t k s) := by
  unfold State.startLink
  apply State.onTile_changes (List.Subset.trans (by decide) hm)
  exact hs



theorem State.resumeLog_changes {ps : List Part} (hm : ([.atria] : List Part) ⊆ ps)
    {s₀ : State} (t : Fin 8)  {s : State} (hs : s₀.ChangesOnly ps s) :
    s₀.ChangesOnly ps (State.resumeLog t s) := by
  unfold State.resumeLog
  extract_lets +onlyGivenNames -merge -useContext -lift x1
  apply State.bothPut_changes (List.Subset.trans (by decide) hm)
  apply State.noteWords_changes (List.Subset.trans (by decide) hm)
  exact hs

theorem State.startTime_changes {ps : List Part} (hm : ([.tiles] : List Part) ⊆ ps)
    {s₀ : State} (m : Fin 8)  {s : State} (hs : s₀.ChangesOnly ps s) :
    s₀.ChangesOnly ps (State.startTime m s) := by
  unfold State.startTime
  apply State.onTile_changes (List.Subset.trans (by decide) hm)
  exact hs

theorem State.bootLease_changes {ps : List Part} (hm : ([.tiles, .atria] : List Part) ⊆ ps)
    {s₀ : State} (w : Fin 2)  {s : State} (hs : s₀.ChangesOnly ps s) :
    s₀.ChangesOnly ps (State.bootLease w s) := by
  unfold State.bootLease
  extract_lets +onlyGivenNames -merge -useContext -lift x1
  extract_lets +onlyGivenNames -merge -useContext -lift x2
  extract_lets +onlyGivenNames -merge -useContext -lift x3
  have hx3 : s₀.ChangesOnly ps x3 := by
    unfold x3
    apply State.onAtrium_changes (List.Subset.trans (by decide) hm)
    apply State.setEpoch_changes (List.Subset.trans (by decide) hm)
    exact hs
  apply State.takeLease_changes (List.Subset.trans (by decide) hm)
  exact hx3

theorem State.bootResolve_changes {ps : List Part} (hm : ([.tiles, .atria] : List Part) ⊆ ps)
    {s₀ : State} (addr : ℕ) (val : RegFile → ℕ) (put : ℕ → RegFile → RegFile) (higher : Bool)  {s : State} (hs : s₀.ChangesOnly ps s) :
    s₀.ChangesOnly ps (State.bootResolve addr val put higher s) := by
  unfold State.bootResolve
  extract_lets +onlyGivenNames -merge -useContext -lift x1
  extract_lets +onlyGivenNames -merge -useContext -lift x2
  apply State.ChangesOnly.ite
  · exact hs
  · apply State.ChangesOnly.ite
    · apply State.pset_changes (List.Subset.trans (by decide) hm)
      exact hs
    · extract_lets +onlyGivenNames -merge -useContext -lift x3
      apply State.ChangesOnly.foldl
      · exact hs
      · intro _ _ hu4
        apply State.ChangesOnly.ite
        · exact hu4
        · apply State.keep_changes (List.Subset.trans (by decide) hm)
          apply State.onAtrium_changes (List.Subset.trans (by decide) hm)
          exact hu4

theorem State.bootField_changes {ps : List Part} (hm : ([.tiles, .atria] : List Part) ⊆ ps)
    {s₀ : State} (f : Fld) (higher : Bool)  {s : State} (hs : s₀.ChangesOnly ps s) :
    s₀.ChangesOnly ps (State.bootField f higher s) := by
  unfold State.bootField
  apply State.bootResolve_changes (List.Subset.trans (by decide) hm)
  exact hs

theorem State.bootPair_changes {ps : List Part} (hm : ([.tiles, .atria] : List Part) ⊆ ps)
    {s₀ : State} (lo : Fld) (hi : Fld)  {s : State} (hs : s₀.ChangesOnly ps s) :
    s₀.ChangesOnly ps (State.bootPair lo hi s) := by
  unfold State.bootPair
  apply State.bootResolve_changes (List.Subset.trans (by decide) hm)
  exact hs

theorem State.noteKeys_changes {ps : List Part} (hm : ([.atria] : List Part) ⊆ ps)
    {s₀ : State} (t : Fin 8) {s : State} (hs : s₀.ChangesOnly ps s) :
    s₀.ChangesOnly ps (State.noteKeys t s) := by
  unfold State.noteKeys
  apply State.noteWords_changes (List.Subset.trans (by decide) hm)
  exact hs

theorem State.noteReconcile_changes {ps : List Part} (hm : ([.atria] : List Part) ⊆ ps)
    {s₀ : State} {s : State} (hs : s₀.ChangesOnly ps s) :
    s₀.ChangesOnly ps (State.noteReconcile s) := by
  unfold State.noteReconcile
  apply State.ChangesOnly.foldl
  · exact hs
  · intro _ _ hu1
    apply State.noteKeys_changes (List.Subset.trans (by decide) hm)
    apply State.noteWords_changes (List.Subset.trans (by decide) hm)
    exact hu1

theorem State.bootKey_changes {ps : List Part} (hm : ([.tiles, .atria] : List Part) ⊆ ps)
    {s₀ : State} (k : ℕ) {s : State} (hs : s₀.ChangesOnly ps s) :
    s₀.ChangesOnly ps (State.bootKey s k) := by
  unfold State.bootKey
  extract_lets +onlyGivenNames -merge -useContext -lift x1
  extract_lets +onlyGivenNames -merge -useContext -lift x2
  extract_lets +onlyGivenNames -merge -useContext -lift x3
  apply State.ChangesOnly.ite
  · exact hs
  · apply State.selvWrites_changes (List.Subset.trans (by decide) hm)
    exact hs

theorem State.bootReconcile_changes {ps : List Part} (hm : ([.tiles, .atria] : List Part) ⊆ ps)
    {s₀ : State} {s : State} (hs : s₀.ChangesOnly ps s) :
    s₀.ChangesOnly ps (State.bootReconcile s) := by
  unfold State.bootReconcile
  extract_lets +onlyGivenNames -merge -useContext -lift x1
  have hx1 : s₀.ChangesOnly ps x1 := by
    unfold x1
    apply State.noteReconcile_changes (List.Subset.trans (by decide) hm)
    exact hs
  extract_lets +onlyGivenNames -merge -useContext -lift x2
  have hx2 : s₀.ChangesOnly ps x2 := by
    unfold x2
    apply State.ChangesOnly.foldl
    · exact hx1
    · intro _ _ hu3
      apply State.bootField_changes (List.Subset.trans (by decide) hm)
      exact hu3
  extract_lets +onlyGivenNames -merge -useContext -lift x4
  have hx4 : s₀.ChangesOnly ps x4 := by
    unfold x4
    apply State.bootPair_changes (List.Subset.trans (by decide) hm)
    exact hx2
  extract_lets +onlyGivenNames -merge -useContext -lift x5
  have hx5 : s₀.ChangesOnly ps x5 := by
    unfold x5
    apply State.ChangesOnly.foldl
    · exact hx4
    · intro _ _ hu6
      apply State.bootField_changes (List.Subset.trans (by decide) hm)
      exact hu6
  extract_lets +onlyGivenNames -merge -useContext -lift x7
  have hx7 : s₀.ChangesOnly ps x7 := by
    unfold x7
    apply State.ChangesOnly.foldl
    · exact hx5
    · intro _ _ hu8
      apply State.bootKey_changes (List.Subset.trans (by decide) hm)
      exact hu8
  apply State.ChangesOnly.foldl
  · exact hx7
  · intro _ _ hu9
    extract_lets +onlyGivenNames -merge -useContext -lift x10
    have hx10 : s₀.ChangesOnly ps x10 := by
      unfold x10
      apply State.ChangesOnly.foldl
      · exact hu9
      · intro _ _ hu11
        apply State.bootField_changes (List.Subset.trans (by decide) hm)
        exact hu11
    apply State.bootPair_changes (List.Subset.trans (by decide) hm)
    apply State.bootField_changes (List.Subset.trans (by decide) hm)
    exact hx10

theorem State.copyRecords_changes {ps : List Part} (hm : ([.tiles, .atria] : List Part) ⊆ ps)
    {s₀ : State} (from_ : Fin 8) (into : Fin 8)  {s : State} (hs : s₀.ChangesOnly ps s) :
    s₀.ChangesOnly ps (State.copyRecords from_ into s) := by
  unfold State.copyRecords
  extract_lets +onlyGivenNames -merge -useContext -lift x1
  extract_lets +onlyGivenNames -merge -useContext -lift x2
  apply State.ChangesOnly.foldl
  · exact hs
  · intro _ _ hu3
    apply State.ChangesOnly.ite
    · exact hu3
    · apply State.selvWrite_changes (List.Subset.trans (by decide) hm)
      exact hu3

theorem State.bootFails_changes {ps : List Part} (hm : ([.atria, .flashes, .boot] : List Part) ⊆ ps)
    {s₀ : State} (code : ℕ)  {s : State} (hs : s₀.ChangesOnly ps s) :
    s₀.ChangesOnly ps (State.bootFails code s) := by
  unfold State.bootFails
  extract_lets +onlyGivenNames -merge -useContext -lift x1
  have hx1 : s₀.ChangesOnly ps x1 := by
    unfold x1
    apply State.onFlash_changes (List.Subset.trans (by decide) hm)
    exact hs
  extract_lets +onlyGivenNames -merge -useContext -lift x2
  have hx2 : s₀.ChangesOnly ps x2 := by
    unfold x2
    apply State.onFlash_changes (List.Subset.trans (by decide) hm)
    exact hx1
  extract_lets +onlyGivenNames -merge -useContext -lift x3
  have hx3 : s₀.ChangesOnly ps x3 := by
    unfold x3
    apply State.bothPut_changes (List.Subset.trans (by decide) hm)
    apply State.bothPut_changes (List.Subset.trans (by decide) hm)
    exact hx2
  refine State.ChangesOnly.record ?_
          (.inl rfl) (.inl rfl) (.inl rfl) (.inl rfl) (.inl rfl) (.inl rfl) (.inr (hm (by decide))) (.inl rfl) (.inl rfl) (.inl rfl) (.inl rfl) (.inl rfl)
  exact hx3

theorem State.useCandidate_changes {ps : List Part} (hm : ([.atria, .flashes, .boot] : List Part) ⊆ ps)
    {s₀ : State} (i : ℕ) (fl : Fin 2) (slot : ℕ)  {s : State} (hs : s₀.ChangesOnly ps s) :
    s₀.ChangesOnly ps (State.useCandidate i fl slot s) := by
  unfold State.useCandidate
  extract_lets +onlyGivenNames -merge -useContext -lift x1
  extract_lets +onlyGivenNames -merge -useContext -lift x2
  extract_lets +onlyGivenNames -merge -useContext -lift x3
  extract_lets +onlyGivenNames -merge -useContext -lift x4
  extract_lets +onlyGivenNames -merge -useContext -lift x5
  extract_lets +onlyGivenNames -merge -useContext -lift x6
  extract_lets +onlyGivenNames -merge -useContext -lift x7
  extract_lets +onlyGivenNames -merge -useContext -lift x8
  have hx8 : s₀.ChangesOnly ps x8 := by
    unfold x8
    apply State.ChangesOnly.foldl
    · exact hs
    · intro _ _ hu9
      apply State.bothPut_changes (List.Subset.trans (by decide) hm)
      exact hu9
  extract_lets +onlyGivenNames -merge -useContext -lift x10
  have hx10 : s₀.ChangesOnly ps x10 := by
    unfold x10
    apply State.ChangesOnly.ite
    · apply State.onFlash_changes (List.Subset.trans (by decide) hm)
      exact hx8
    · exact hx8
  refine State.ChangesOnly.record ?_
          (.inl rfl) (.inl rfl) (.inl rfl) (.inl rfl) (.inl rfl) (.inl rfl) (.inr (hm (by decide))) (.inl rfl) (.inl rfl) (.inl rfl) (.inl rfl) (.inl rfl)
  exact hx10

theorem State.applyList_changes {ps : List Part} (hm : ([.free, .heads, .tiles, .ports, .sets, .atria, .flashes, .boot, .pkg, .fuses, .smb, .shadows] : List Part) ⊆ ps)
    {s₀ : State} (l : List Byte) {s : State} (hs : s₀.ChangesOnly ps s) :
    s₀.ChangesOnly ps (State.applyList l s) := by
  unfold State.applyList
  apply State.ChangesOnly.foldl
  · exact hs
  · intro _ _ hu1
    apply State.writePlace_changes (List.Subset.trans (by decide) hm)
    exact hu1

theorem State.loadFirmware_changes {ps : List Part} (hm : ([.tiles] : List Part) ⊆ ps)
    {s₀ : State} (t : Fin 8) (l : List Sys2Proof.Byte)  {s : State} (hs : s₀.ChangesOnly ps s) :
    s₀.ChangesOnly ps (State.loadFirmware t l s) := by
  unfold State.loadFirmware
  apply State.ChangesOnly.ite
  · apply State.onTile_changes (List.Subset.trans (by decide) hm)
    exact hs
  · exact hs

theorem State.loadSection_changes {ps : List Part} (hm : ([.free, .heads, .tiles, .ports, .sets, .atria, .flashes, .boot, .pkg, .fuses, .smb, .shadows] : List Part) ⊆ ps)
    {s₀ : State} (t : Fin 8) (a1 : Section) {s : State} (hs : s₀.ChangesOnly ps s) :
    s₀.ChangesOnly ps (State.loadSection t a1 s) := by
  unfold State.loadSection
  extract_lets +onlyGivenNames -merge -useContext -lift x1
  apply State.ChangesOnly.ite
  · apply State.loadFirmware_changes (List.Subset.trans (by decide) hm)
    exact hs
  · apply State.ChangesOnly.ite
    · exact hs
    · apply State.ChangesOnly.ite
      · apply State.applyList_changes (List.Subset.trans (by decide) hm)
        exact hs
      · extract_lets +onlyGivenNames -merge -useContext -lift x2
        have hx2 : s₀.ChangesOnly ps x2 := by
          unfold x2
          apply State.onHead_changes (List.Subset.trans (by decide) hm)
          exact hs
        apply State.ChangesOnly.ite
        · apply State.applyList_changes (List.Subset.trans (by decide) hm)
          exact hx2
        · exact hx2

theorem State.loadTile_changes {ps : List Part} (hm : ([.free, .heads, .tiles, .ports, .sets, .atria, .flashes, .boot, .pkg, .fuses, .smb, .shadows] : List Part) ⊆ ps)
    {s₀ : State} (t : Fin 8) {s : State} (hs : s₀.ChangesOnly ps s) :
    s₀.ChangesOnly ps (State.loadTile t s) := by
  unfold State.loadTile
  apply State.ChangesOnly.foldl
  · exact hs
  · intro _ _ hu1
    apply State.loadSection_changes (List.Subset.trans (by decide) hm)
    exact hu1

theorem State.spareTile_changes {ps : List Part} (hm : ([.heads, .tiles, .atria] : List Part) ⊆ ps)
    {s₀ : State} (t : Fin 8) {s : State} (hs : s₀.ChangesOnly ps s) :
    s₀.ChangesOnly ps (State.spareTile t s) := by
  unfold State.spareTile
  apply State.onTile_changes (List.Subset.trans (by decide) hm)
  apply State.applyRepairs_changes (List.Subset.trans (by decide) hm)
  exact hs

theorem State.writeCount_changes {ps : List Part} (hm : ([.tiles, .atria] : List Part) ⊆ ps)
    {s₀ : State} (w : Fin 2) (n : ℕ) {s : State} (hs : s₀.ChangesOnly ps s) :
    s₀.ChangesOnly ps (State.writeCount w n s) := by
  unfold State.writeCount
  apply State.keep_changes (List.Subset.trans (by decide) hm)
  apply State.onAtrium_changes (List.Subset.trans (by decide) hm)
  exact hs

theorem State.appendWrites_changes {ps : List Part} (hm : ([.tiles, .atria] : List Part) ⊆ ps)
    {s₀ : State} (lost : Bool) (j : ℕ) {s : State} (hs : s₀.ChangesOnly ps s) :
    s₀.ChangesOnly ps (State.appendWrites lost j s) := by
  unfold State.appendWrites
  extract_lets +onlyGivenNames -merge -useContext -lift x1
  extract_lets +onlyGivenNames -merge -useContext -lift x2
  extract_lets +onlyGivenNames -merge -useContext -lift x3
  extract_lets +onlyGivenNames -merge -useContext -lift x4
  have hx4 : s₀.ChangesOnly ps x4 := by
    unfold x4
    apply State.ChangesOnly.ite
    · apply State.writeCount_changes (List.Subset.trans (by decide) hm)
      exact hs
    · exact hs
  extract_lets +onlyGivenNames -merge -useContext -lift x5
  have hx5 : s₀.ChangesOnly ps x5 := by
    unfold x5
    apply State.ChangesOnly.ite
    · apply State.writeCount_changes (List.Subset.trans (by decide) hm)
      exact hx4
    · exact hx4
  extract_lets +onlyGivenNames -merge -useContext -lift x6
  have hx6 : s₀.ChangesOnly ps x6 := by
    unfold x6
    apply State.ChangesOnly.foldl
    · exact hx5
    · intro _ _ hu7
      apply State.selvWrite_changes (List.Subset.trans (by decide) hm)
      exact hu7
  apply State.ChangesOnly.foldl
  · exact hx6
  · intro _ _ hu8
    apply State.selvWrite_changes (List.Subset.trans (by decide) hm)
    exact hu8

theorem State.appendBegins_changes {ps : List Part} (hm : ([.atria] : List Part) ⊆ ps)
    {s₀ : State} (lost : Bool) {s : State} (hs : s₀.ChangesOnly ps s) :
    s₀.ChangesOnly ps (State.appendBegins lost s) := by
  unfold State.appendBegins
  extract_lets +onlyGivenNames -merge -useContext -lift x1
  extract_lets +onlyGivenNames -merge -useContext -lift x2
  have hx2 : s₀.ChangesOnly ps x2 := by
    unfold x2
    apply State.bothPut_changes (List.Subset.trans (by decide) hm)
    apply State.bothPut_changes (List.Subset.trans (by decide) hm)
    exact hs
  apply State.noteKeys_changes (List.Subset.trans (by decide) hm)
  apply State.ChangesOnly.ite
  · apply State.pset_changes (List.Subset.trans (by decide) hm)
    exact hx2
  · exact hx2

theorem State.appendEntry_changes {ps : List Part} (hm : ([.tiles, .atria, .boot] : List Part) ⊆ ps)
    {s₀ : State} (lost : Bool) {s : State} (hs : s₀.ChangesOnly ps s) :
    s₀.ChangesOnly ps (State.appendEntry lost s) := by
  unfold State.appendEntry
  extract_lets +onlyGivenNames -merge -useContext -lift x1
  extract_lets +onlyGivenNames -merge -useContext -lift x2
  extract_lets +onlyGivenNames -merge -useContext -lift x3
  have hx3 : s₀.ChangesOnly ps x3 := by
    unfold x3
    apply State.appendWrites_changes (List.Subset.trans (by decide) hm)
    apply State.appendBegins_changes (List.Subset.trans (by decide) hm)
    exact hs
  refine State.ChangesOnly.record ?_
    (.inl rfl) (.inl rfl) (.inl rfl) (.inl rfl) (.inl rfl) (.inl rfl) (.inr (hm (by decide))) (.inl rfl) (.inl rfl) (.inl rfl) (.inl rfl) (.inl rfl)
  exact hx3

theorem State.replaySets_changes {ps : List Part} (hm : ([.tiles, .ports, .sets, .atria, .pkg] : List Part) ⊆ ps)
    {s₀ : State} (on : Fin 8 → Bool)  {s : State} (hs : s₀.ChangesOnly ps s) :
    s₀.ChangesOnly ps (State.replaySets on s) := by
  unfold State.replaySets
  apply State.ChangesOnly.foldl
  · exact hs
  · intro _ _ hu1
    apply State.ChangesOnly.ite
    · apply State.replaySet_changes (List.Subset.trans (by decide) hm)
      exact hu1
    · exact hu1

theorem State.releaseTile_changes {ps : List Part} (hm : ([.heads, .tiles] : List Part) ⊆ ps)
    {s₀ : State} (t : Fin 8)  {s : State} (hs : s₀.ChangesOnly ps s) :
    s₀.ChangesOnly ps (State.releaseTile t s) := by
  unfold State.releaseTile
  extract_lets +onlyGivenNames -merge -useContext -lift x1
  extract_lets +onlyGivenNames -merge -useContext -lift x2
  have hx2 : s₀.ChangesOnly ps x2 := by
    unfold x2
    apply State.onTile_changes (List.Subset.trans (by decide) hm)
    exact hs
  apply State.ChangesOnly.foldl
  · exact hx2
  · intro _ _ hu3
    apply State.onHead_changes (List.Subset.trans (by decide) hm)
    exact hu3

theorem State.reloadEnds_changes {ps : List Part} (hm : ([.flashes, .boot] : List Part) ⊆ ps)
    {s₀ : State} (t : Fin 8)  {s : State} (hs : s₀.ChangesOnly ps s) :
    s₀.ChangesOnly ps (State.reloadEnds t s) := by
  unfold State.reloadEnds
  apply State.ChangesOnly.ite
  · apply State.onFlash_changes (List.Subset.trans (by decide) hm)
    exact State.ChangesOnly.record hs (.inl rfl) (.inl rfl) (.inl rfl) (.inl rfl) (.inl rfl) (.inl rfl) (.inr (hm (by decide))) (.inl rfl) (.inl rfl) (.inl rfl) (.inl rfl) (.inl rfl)
  · exact State.ChangesOnly.record hs (.inl rfl) (.inl rfl) (.inl rfl) (.inl rfl) (.inl rfl) (.inl rfl) (.inr (hm (by decide))) (.inl rfl) (.inl rfl) (.inl rfl) (.inl rfl) (.inl rfl)

theorem State.reload_changes {ps : List Part} (hm : ([.free, .heads, .tiles, .ports, .sets, .atria, .flashes, .boot, .pkg, .fuses, .smb, .shadows] : List Part) ⊆ ps)
    {s₀ : State} (t : Fin 8) {s : State} (hs : s₀.ChangesOnly ps s) :
    s₀.ChangesOnly ps (State.reload t s) := by
  unfold State.reload
  extract_lets +onlyGivenNames -merge -useContext -lift x1
  have hx1 : s₀.ChangesOnly ps x1 := by
    unfold x1
    apply State.spareTile_changes (List.Subset.trans (by decide) hm)
    apply State.loadTile_changes (List.Subset.trans (by decide) hm)
    exact hs
  extract_lets +onlyGivenNames -merge -useContext -lift x2
  have hx2 : s₀.ChangesOnly ps x2 := by
    unfold x2
    apply State.onTile_changes (List.Subset.trans (by decide) hm)
    apply State.releaseTile_changes (List.Subset.trans (by decide) hm)
    exact hx1
  extract_lets +onlyGivenNames -merge -useContext -lift x3
  have hx3 : s₀.ChangesOnly ps x3 := by
    unfold x3
    apply State.ChangesOnly.ite
    · apply State.onAtrium_changes (List.Subset.trans (by decide) hm)
      exact hx2
    · exact hx2
  extract_lets +onlyGivenNames -merge -useContext -lift x4
  have hx4 : s₀.ChangesOnly ps x4 := by
    unfold x4
    apply State.ChangesOnly.ite
    · apply State.onTile_changes (List.Subset.trans (by decide) hm)
      exact hx3
    · exact hx3
  extract_lets +onlyGivenNames -merge -useContext -lift x5
  apply State.refreshPorts_changes (List.Subset.trans (by decide) hm)
  apply State.refreshSets_changes (List.Subset.trans (by decide) hm)
  apply State.replaySets_changes (List.Subset.trans (by decide) hm)
  apply State.reloadEnds_changes (List.Subset.trans (by decide) hm)
  exact hx4

theorem State.coreTrap_changes {ps : List Part} (hm : ([.tiles] : List Part) ⊆ ps)
    {s₀ : State} (t : Fin 8) (c : Fin 2) (cause : ℕ) (tval : ℕ) {s : State} (hs : s₀.ChangesOnly ps s) :
    s₀.ChangesOnly ps (State.coreTrap t c cause tval s) := by
  unfold State.coreTrap
  apply State.onCore_changes (List.Subset.trans (by decide) hm)
  exact hs

theorem State.coreFault_changes {ps : List Part} (hm : ([.tiles] : List Part) ⊆ ps)
    {s₀ : State} (t : Fin 8) (c : Fin 2) (cause : ℕ) (detail : ℕ) (addr : ℕ)  {s : State} (hs : s₀.ChangesOnly ps s) :
    s₀.ChangesOnly ps (State.coreFault t c cause detail addr s) := by
  unfold State.coreFault
  apply State.onCore_changes (List.Subset.trans (by decide) hm)
  exact hs

theorem State.coreTakes_changes {ps : List Part} (hm : ([.tiles] : List Part) ⊆ ps)
    {s₀ : State} (t : Fin 8) (c : Fin 2) (k : Fin 2) (e : CoreAccess) (v : ℕ) {s : State} (hs : s₀.ChangesOnly ps s) :
    s₀.ChangesOnly ps (State.coreTakes t c k e v s) := by
  unfold State.coreTakes
  apply State.onCore_changes (List.Subset.trans (by decide) hm)
  exact hs

theorem State.breakReservations_changes {ps : List Part} (hm : ([.tiles] : List Part) ⊆ ps)
    {s₀ : State} (t : Fin 8) (c : Fin 2) (key : ℕ)  {s : State} (hs : s₀.ChangesOnly ps s) :
    s₀.ChangesOnly ps (State.breakReservations t c key s) := by
  unfold State.breakReservations
  apply State.eachTile_changes hs
  intro _ _ hu
  apply State.ChangesOnly.foldl hu
  intro _ _ hv
  exact State.ChangesOnly.ite hv (State.onCore_changes (List.Subset.trans (by decide) hm) _ _ _ hv)

theorem State.busError_changes {ps : List Part} (hm : ([.tiles] : List Part) ⊆ ps)
    {s₀ : State} (t : Fin 8) (c : Fin 2) (addr : ℕ)  {s : State} (hs : s₀.ChangesOnly ps s) :
    s₀.ChangesOnly ps (State.busError t c addr s) := by
  unfold State.busError
  apply State.onTile_changes (List.Subset.trans (by decide) hm)
  exact hs

theorem State.storeOut_changes {ps : List Part} (hm : ([.time, .free, .heads, .tiles, .ports, .sets, .atria, .flashes, .boot, .pkg, .fuses, .smb, .shadows] : List Part) ⊆ ps)
    {s₀ : State} (t : Fin 8) (c : Fin 2) (b : BufStore) {s : State} (hs : s₀.ChangesOnly ps s) :
    s₀.ChangesOnly ps (State.storeOut t c b s) := by
  unfold State.storeOut
  split
  · apply State.ChangesOnly.ite
    · apply State.busError_changes (List.Subset.trans (by decide) hm)
      apply State.sendPacket_changes (List.Subset.trans (by decide) hm)
      exact hs
    · extract_lets +onlyGivenNames -merge -useContext -lift x1
      extract_lets +onlyGivenNames -merge -useContext -lift x2
      have hx2 : s₀.ChangesOnly ps x2 := by
        unfold x2
        apply State.regWrite_changes (List.Subset.trans (by decide) hm)
        apply State.turnTo_changes (List.Subset.trans (by decide) hm)
        exact hs
      apply State.ChangesOnly.ite
      · apply State.busError_changes (List.Subset.trans (by decide) hm)
        exact hx2
      · exact hx2
  · apply State.ChangesOnly.ite
    · apply State.breakReservations_changes (List.Subset.trans (by decide) hm)
      apply State.stackWrite_changes (List.Subset.trans (by decide) hm)
      apply State.sendPacket_changes (List.Subset.trans (by decide) hm)
      exact hs
    · apply State.busError_changes (List.Subset.trans (by decide) hm)
      apply State.sendPacket_changes (List.Subset.trans (by decide) hm)
      exact hs
  · apply State.busError_changes (List.Subset.trans (by decide) hm)
    exact hs

theorem State.drainOne_changes {ps : List Part} (hm : ([.time, .free, .heads, .tiles, .ports, .sets, .atria, .flashes, .boot, .pkg, .fuses, .smb, .shadows] : List Part) ⊆ ps)
    {s₀ : State} (t : Fin 8) (c : Fin 2) {s : State} (hs : s₀.ChangesOnly ps s) :
    s₀.ChangesOnly ps (State.drainOne t c s) := by
  unfold State.drainOne
  split
  · exact hs
  · extract_lets +onlyGivenNames -merge -useContext -lift x1
    have hx1 : s₀.ChangesOnly ps x1 := by
      unfold x1
      apply State.onCore_changes (List.Subset.trans (by decide) hm)
      exact hs
    apply State.cacheOps_changes (List.Subset.trans (by decide) hm)
    apply State.cacheOps_changes (List.Subset.trans (by decide) hm)
    apply State.storeOut_changes (List.Subset.trans (by decide) hm)
    exact hx1

theorem State.drainN_changes {ps : List Part} (hm : ([.time, .free, .heads, .tiles, .ports, .sets, .atria, .flashes, .boot, .pkg, .fuses, .smb, .shadows] : List Part) ⊆ ps)
    {s₀ : State} (t : Fin 8) (c : Fin 2) (x2 : ℕ)  {x3 : State} (hs : s₀.ChangesOnly ps x3) :
    s₀.ChangesOnly ps (State.drainN t c x2 x3) := by
  induction x2 generalizing x3 with
  | zero => exact hs
  | succ n ih => exact ih (State.drainOne_changes (List.Subset.trans (by decide) hm) _ _ hs)

theorem State.drainFor_changes {ps : List Part} (hm : ([.time, .free, .heads, .tiles, .ports, .sets, .atria, .flashes, .boot, .pkg, .fuses, .smb, .shadows] : List Part) ⊆ ps)
    {s₀ : State} (t : Fin 8) (c : Fin 2) (a : ℕ) (n : ℕ) {s : State} (hs : s₀.ChangesOnly ps s) :
    s₀.ChangesOnly ps (State.drainFor t c a n s) := by
  unfold State.drainFor
  apply State.drainN_changes (List.Subset.trans (by decide) hm)
  exact hs

theorem State.bufferStore_changes {ps : List Part} (hm : ([.time, .free, .heads, .tiles, .ports, .sets, .atria, .flashes, .boot, .pkg, .fuses, .smb, .shadows] : List Part) ⊆ ps)
    {s₀ : State} (t : Fin 8) (c : Fin 2) (b : BufStore) {s : State} (hs : s₀.ChangesOnly ps s) :
    s₀.ChangesOnly ps (State.bufferStore t c b s) := by
  unfold State.bufferStore
  extract_lets +onlyGivenNames -merge -useContext -lift x1
  have hx1 : s₀.ChangesOnly ps x1 := by
    unfold x1
    apply State.ChangesOnly.ite
    · apply State.drainOne_changes (List.Subset.trans (by decide) hm)
      exact hs
    · exact hs
  apply State.onCore_changes (List.Subset.trans (by decide) hm)
  exact hx1

theorem State.readTcm_changes {ps : List Part} (hm : ([.tiles, .atria] : List Part) ⊆ ps)
    {s₀ : State} (t : Fin 8) (d : Fin 2) (k : Fin 2) (off : ℕ) (n : ℕ) {s : State} (hs : s₀.ChangesOnly ps s) :
    s₀.ChangesOnly ps (State.readTcm t d k off n s).2 := by
  unfold State.readTcm
  extract_lets +onlyGivenNames -merge -useContext -lift x1
  extract_lets +onlyGivenNames -merge -useContext -lift x2
  extract_lets +onlyGivenNames -merge -useContext -lift x3
  have hx3 : s₀.ChangesOnly ps x3 := by
    unfold x3
    apply State.noteSram_changes (List.Subset.trans (by decide) hm)
    exact hs
  split
  · apply State.ChangesOnly.pair
    exact hx3
  · apply State.ChangesOnly.pair
    exact hx3

theorem State.readCached_changes {ps : List Part} (hm : ([.tiles] : List Part) ⊆ ps)
    {s₀ : State} (t : Fin 8) (c : Fin 2) (k : Fin 2) (e : CoreAccess) {s : State} (hs : s₀.ChangesOnly ps s) :
    s₀.ChangesOnly ps (State.readCached t c k e s) := by
  unfold State.readCached
  extract_lets +onlyGivenNames -merge -useContext -lift x1
  extract_lets +onlyGivenNames -merge -useContext -lift x2
  extract_lets +onlyGivenNames -merge -useContext -lift x3
  extract_lets +onlyGivenNames -merge -useContext -lift x4
  apply State.ChangesOnly.ite
  · unfold x4
    apply State.onCache_changes (List.Subset.trans (by decide) hm)
    exact hs
  · split
    · apply State.coreTakes_changes (List.Subset.trans (by decide) hm)
      rename_i p5 ep5
      have hp5 : s₀.ChangesOnly ps p5 := State.ChangesOnly.ofEq ep5 (by
          apply State.lookup_changes (List.Subset.trans (by decide) hm)
          exact hs)
      exact hp5
    · unfold x4
      apply State.onCache_changes (List.Subset.trans (by decide) hm)
      apply State.onCache_changes (List.Subset.trans (by decide) hm)
      rename_i p6 ep6
      have hp6 : s₀.ChangesOnly ps p6 := State.ChangesOnly.ofEq ep6 (by
          apply State.lookup_changes (List.Subset.trans (by decide) hm)
          exact hs)
      exact hp6

theorem State.readStack_changes {ps : List Part} (hm : ([.tiles, .atria] : List Part) ⊆ ps)
    {s₀ : State} (t : Fin 8) (c : Fin 2) (k : Fin 2) (e : CoreAccess) (a4 : Fin 8) (off : ℕ) {s : State} (hs : s₀.ChangesOnly ps s) :
    s₀.ChangesOnly ps (State.readStack t c k e a4 off s).2 := by
  unfold State.readStack
  apply State.ChangesOnly.ite₂
  · apply State.ChangesOnly.pair
    apply State.readCached_changes (List.Subset.trans (by decide) hm)
    exact hs
  · split
    · apply State.ChangesOnly.pair
      apply State.coreTakes_changes (List.Subset.trans (by decide) hm)
      rename_i p1 ep1
      have hp1 : s₀.ChangesOnly ps p1 := State.ChangesOnly.ofEq ep1 (by
          apply State.coreRead_changes (List.Subset.trans (by decide) hm)
          exact hs)
      exact hp1
    · apply State.ChangesOnly.pair
      apply State.coreFault_changes (List.Subset.trans (by decide) hm)
      rename_i p2 ep2
      have hp2 : s₀.ChangesOnly ps p2 := State.ChangesOnly.ofEq ep2 (by
          apply State.coreRead_changes (List.Subset.trans (by decide) hm)
          exact hs)
      exact hp2

theorem State.readRegion_changes {ps : List Part} (hm : ([.tiles, .atria, .shadows] : List Part) ⊆ ps)
    {s₀ : State} (t : Fin 8) (c : Fin 2) (k : Fin 2) (e : CoreAccess) {s : State} (hs : s₀.ChangesOnly ps s) :
    s₀.ChangesOnly ps (State.readRegion t c k e s).2 := by
  unfold State.readRegion
  extract_lets +onlyGivenNames -merge -useContext -lift x1
  split
  · split
    · apply State.ChangesOnly.pair
      apply State.coreTakes_changes (List.Subset.trans (by decide) hm)
      rename_i p2 ep2
      have hp2 : s₀.ChangesOnly ps p2 := State.ChangesOnly.ofEq ep2 (by
          apply State.readTcm_changes (List.Subset.trans (by decide) hm)
          exact hs)
      exact hp2
    · unfold x1
      apply State.ChangesOnly.pair
      apply State.coreFault_changes (List.Subset.trans (by decide) hm)
      rename_i p3 ep3
      have hp3 : s₀.ChangesOnly ps p3 := State.ChangesOnly.ofEq ep3 (by
          apply State.readTcm_changes (List.Subset.trans (by decide) hm)
          exact hs)
      exact hp3
  · apply State.ChangesOnly.ite₂
    · unfold x1
      apply State.ChangesOnly.pair
      apply State.coreFault_changes (List.Subset.trans (by decide) hm)
      exact hs
    · extract_lets +onlyGivenNames -merge -useContext -lift x4
      extract_lets +onlyGivenNames -merge -useContext -lift x5
      extract_lets +onlyGivenNames -merge -useContext -lift x6
      have hx6 : s₀.ChangesOnly ps x6.2 := by
        unfold x6
        apply State.regRead_changes (List.Subset.trans (by decide) hm)
        exact hs
      apply State.ChangesOnly.ite₂
      · unfold x1
        apply State.ChangesOnly.pair
        apply State.coreFault_changes (List.Subset.trans (by decide) hm)
        exact hx6
      · apply State.ChangesOnly.pair
        apply State.coreTakes_changes (List.Subset.trans (by decide) hm)
        exact hx6
  · apply State.readStack_changes (List.Subset.trans (by decide) hm)
    exact hs
  · unfold x1
    apply State.ChangesOnly.pair
    apply State.coreFault_changes (List.Subset.trans (by decide) hm)
    exact hs

theorem State.writeTcm_changes {ps : List Part} (hm : ([.tiles] : List Part) ⊆ ps)
    {s₀ : State} (t : Fin 8) (c : Fin 2) (d : Fin 2) (off : ℕ) (n : ℕ) (v : ℕ)  {s : State} (hs : s₀.ChangesOnly ps s) :
    s₀.ChangesOnly ps (State.writeTcm t c d off n v s) := by
  unfold State.writeTcm
  apply State.breakReservations_changes (List.Subset.trans (by decide) hm)
  apply State.onCore_changes (List.Subset.trans (by decide) hm)
  exact hs

theorem State.drainAll_changes {ps : List Part} (hm : ([.time, .free, .heads, .tiles, .ports, .sets, .atria, .flashes, .boot, .pkg, .fuses, .smb, .shadows] : List Part) ⊆ ps)
    {s₀ : State} (t : Fin 8) (c : Fin 2) {s : State} (hs : s₀.ChangesOnly ps s) :
    s₀.ChangesOnly ps (State.drainAll t c s) := by
  unfold State.drainAll
  apply State.drainN_changes (List.Subset.trans (by decide) hm)
  exact hs

theorem State.amoWrite_changes {ps : List Part} (hm : ([.tiles, .atria] : List Part) ⊆ ps)
    {s₀ : State} (t : Fin 8) (c : Fin 2) (r : Region) (a : ℕ) (n : ℕ) (v : ℕ) {s : State} (hs : s₀.ChangesOnly ps s) :
    s₀.ChangesOnly ps (State.amoWrite t c r a n v s) := by
  unfold State.amoWrite
  split
  · apply State.writeTcm_changes (List.Subset.trans (by decide) hm)
    exact hs
  · apply State.storeHit_changes (List.Subset.trans (by decide) hm)
    apply State.breakReservations_changes (List.Subset.trans (by decide) hm)
    apply State.stackWrite_changes (List.Subset.trans (by decide) hm)
    apply State.sendPacket_changes (List.Subset.trans (by decide) hm)
    exact hs
  · exact hs

theorem State.amoDone_changes {ps : List Part} (hm : ([.tiles, .atria] : List Part) ⊆ ps)
    {s₀ : State} (t : Fin 8) (c : Fin 2) (op : AmoOp) (r : Region) (e : CoreAccess) (n : ℕ) (old : ℕ) {s : State} (hs : s₀.ChangesOnly ps s) :
    s₀.ChangesOnly ps (State.amoDone t c op r e n old s) := by
  unfold State.amoDone
  extract_lets +onlyGivenNames -merge -useContext -lift x1
  split
  · apply State.onCore_changes (List.Subset.trans (by decide) hm)
    exact hs
  · extract_lets +onlyGivenNames -merge -useContext -lift x2
    extract_lets +onlyGivenNames -merge -useContext -lift x3
    have hx3 : s₀.ChangesOnly ps x3 := by
      unfold x3
      apply State.onCore_changes (List.Subset.trans (by decide) hm)
      exact hs
    apply State.ChangesOnly.ite
    · apply State.amoWrite_changes (List.Subset.trans (by decide) hm)
      exact hx3
    · exact hx3
  · apply State.onCore_changes (List.Subset.trans (by decide) hm)
    apply State.amoWrite_changes (List.Subset.trans (by decide) hm)
    exact hs

theorem State.resumeWaiting_changes {ps : List Part} (hm : ([.tiles, .atria, .shadows] : List Part) ⊆ ps)
    {s₀ : State} (t : Fin 8) (c : Fin 2) (k : Fin 2) (l : List CoreAccess) {s : State} (hs : s₀.ChangesOnly ps s) :
    s₀.ChangesOnly ps (State.resumeWaiting t c k l s).2 := by
  unfold State.resumeWaiting
  apply State.ChangesOnly.foldl₂
  · apply State.ChangesOnly.pair
    exact hs
  · intro _ _ hu1
    apply State.ChangesOnly.ite₂
    · apply State.readRegion_changes (List.Subset.trans (by decide) hm)
      exact hu1
    · exact hu1

theorem State.handOver_changes {ps : List Part} (hm : ([.tiles, .smb] : List Part) ⊆ ps)
    {s₀ : State} (q : Sys2Proof.Req) (v : ℕ)  {s : State} (hs : s₀.ChangesOnly ps s) :
    s₀.ChangesOnly ps (State.handOver q v s) := by
  unfold State.handOver
  split
  · apply State.onCore_changes (List.Subset.trans (by decide) hm)
    exact hs
  · refine State.ChangesOnly.record ?_
          (.inl rfl) (.inl rfl) (.inl rfl) (.inl rfl) (.inl rfl) (.inl rfl) (.inl rfl) (.inl rfl) (.inr (hm (by decide))) (.inl rfl) (.inl rfl) (.inl rfl)
    exact hs

theorem State.noteSched_changes {ps : List Part} (hm : ([.tiles, .atria] : List Part) ⊆ ps)
    {s₀ : State} (h : Fin 32) (a : ℕ) (n : ℕ) {s : State} (hs : s₀.ChangesOnly ps s) :
    s₀.ChangesOnly ps (State.noteSched h a n s) := by
  unfold State.noteSched
  apply State.noteSram_changes (List.Subset.trans (by decide) hm)
  exact hs

theorem State.readSched_changes {ps : List Part} (hm : ([.tiles, .atria] : List Part) ⊆ ps)
    {s₀ : State} (h : Fin 32) (n : ℕ) {s : State} (hs : s₀.ChangesOnly ps s) :
    s₀.ChangesOnly ps (State.readSched h n s) := by
  unfold State.readSched
  extract_lets +onlyGivenNames -merge -useContext -lift x1
  split
  extract_lets +onlyGivenNames -merge -useContext -lift x2
  have hx2 : s₀.ChangesOnly ps x2 := by
    unfold x2
    apply State.noteSched_changes (List.Subset.trans (by decide) hm)
    exact hs
  apply State.ChangesOnly.ite
  · exact hx2
  · apply State.noteSched_changes (List.Subset.trans (by decide) hm)
    exact hx2

theorem State.crossing_changes {ps : List Part} (hm : ([.heads, .tiles, .atria] : List Part) ⊆ ps)
    {s₀ : State} (h : Fin 32) {s : State} (hs : s₀.ChangesOnly ps s) :
    s₀.ChangesOnly ps (State.crossing h s) := by
  unfold State.crossing
  extract_lets +onlyGivenNames -merge -useContext -lift x1
  extract_lets +onlyGivenNames -merge -useContext -lift x2
  have hx2 : s₀.ChangesOnly ps x2 := by
    unfold x2
    apply State.onHead_changes (List.Subset.trans (by decide) hm)
    exact hs
  extract_lets +onlyGivenNames -merge -useContext -lift x3
  apply State.ChangesOnly.ite
  · extract_lets +onlyGivenNames -merge -useContext -lift x4
    have hx4 : s₀.ChangesOnly ps x4 := by
      unfold x4
      apply State.ChangesOnly.ite
      · apply State.readSched_changes (List.Subset.trans (by decide) hm)
        exact hx2
      · exact hx2
    extract_lets +onlyGivenNames -merge -useContext -lift x5
    have hx5 : s₀.ChangesOnly ps x5 := by
      unfold x5
      apply State.onHead_changes (List.Subset.trans (by decide) hm)
      exact hx4
    extract_lets +onlyGivenNames -merge -useContext -lift x6
    have hx6 : s₀.ChangesOnly ps x6 := by
      unfold x6
      apply State.ChangesOnly.ite
      · apply State.onHead_changes (List.Subset.trans (by decide) hm)
        exact hx5
      · exact hx5
    apply State.ChangesOnly.ite
    · apply State.onHead_changes (List.Subset.trans (by decide) hm)
      apply State.readSched_changes (List.Subset.trans (by decide) hm)
      exact hx6
    · exact hx6
  · exact hx2

theorem State.noteEntries_changes {ps : List Part} (hm : ([.tiles, .atria] : List Part) ⊆ ps)
    {s₀ : State} (h : Fin 32) {s : State} (hs : s₀.ChangesOnly ps s) :
    s₀.ChangesOnly ps (State.noteEntries h s) := by
  unfold State.noteEntries
  extract_lets +onlyGivenNames -merge -useContext -lift x1
  extract_lets +onlyGivenNames -merge -useContext -lift x2
  extract_lets +onlyGivenNames -merge -useContext -lift x3
  apply State.ChangesOnly.foldl
  · exact hs
  · intro _ _ hu4
    apply State.noteSched_changes (List.Subset.trans (by decide) hm)
    exact hu4

theorem State.onSmb_changes {ps : List Part} (hm : ([.smb] : List Part) ⊆ ps)
    {s₀ : State}  (f : SmbSt → SmbSt) {s : State} (hs : s₀.ChangesOnly ps s) :
    s₀.ChangesOnly ps (State.onSmb s f) := by
  unfold State.onSmb
  refine State.ChangesOnly.record ?_
          (.inl rfl) (.inl rfl) (.inl rfl) (.inl rfl) (.inl rfl) (.inl rfl) (.inl rfl) (.inl rfl) (.inr (hm (by decide))) (.inl rfl) (.inl rfl) (.inl rfl)
  exact hs

theorem State.smbAnswer_changes {ps : List Part} (hm : ([.smb] : List Part) ⊆ ps)
    {s₀ : State} (code : ℕ) (ws : List ℕ)  {s : State} (hs : s₀.ChangesOnly ps s) :
    s₀.ChangesOnly ps (State.smbAnswer code ws s) := by
  unfold State.smbAnswer
  apply State.onSmb_changes (List.Subset.trans (by decide) hm)
  exact hs

theorem State.smbReadWords_changes {ps : List Part} (hm : ([.tiles, .atria, .shadows] : List Part) ⊆ ps)
    {s₀ : State} (a : ℕ) (x1 : ℕ)  {x2 : State} (hs : s₀.ChangesOnly ps x2) :
    s₀.ChangesOnly ps (State.smbReadWords a x1 x2).2 := by
  induction x1 generalizing x2 a with
  | zero => exact hs
  | succ n ih => exact ih _ (State.regRead_changes (List.Subset.trans (by decide) hm) _ _ hs)

theorem State.spdmAnswer_changes {ps : List Part} (hm : ([.smb] : List Part) ⊆ ps)
    {s₀ : State} (a : SpdmAnswer)  {s : State} (hs : s₀.ChangesOnly ps s) :
    s₀.ChangesOnly ps (State.spdmAnswer a s) := by
  unfold State.spdmAnswer
  apply State.onSmb_changes (List.Subset.trans (by decide) hm)
  exact hs

theorem State.spdmAfter_changes {ps : List Part} (hm : ([.smb] : List Part) ⊆ ps)
    {s₀ : State} {act : State → State} {s : State} (hs : s₀.ChangesOnly ps s)
    (ha : ∀ u, s₀.ChangesOnly ps u → s₀.ChangesOnly ps (act u)) : s₀.ChangesOnly ps (s.spdmAfter act) := by
  unfold State.spdmAfter
  exact State.ChangesOnly.ite (ha _ hs) (State.spdmAnswer_changes (List.Subset.trans (by decide) hm) _ hs)

theorem State.syncSend_changes {ps : List Part} (hm : ([.tiles, .atria] : List Part) ⊆ ps)
    {s₀ : State} (w : Fin 2) {s : State} (hs : s₀.ChangesOnly ps s) :
    s₀.ChangesOnly ps (State.syncSend w s) := by
  unfold State.syncSend
  extract_lets +onlyGivenNames -merge -useContext -lift x1
  extract_lets +onlyGivenNames -merge -useContext -lift x2
  extract_lets +onlyGivenNames -merge -useContext -lift x3
  have hx3 : s₀.ChangesOnly ps x3 := by
    unfold x3
    apply State.ChangesOnly.foldl
    · exact hs
    · intro _ _ hu4
      split
      · exact hu4
      · extract_lets +onlyGivenNames -merge -useContext -lift x5
        apply State.onTile_changes (List.Subset.trans (by decide) hm)
        apply State.sendPacket_changes (List.Subset.trans (by decide) hm)
        exact hu4
  apply State.onAtrium_changes (List.Subset.trans (by decide) hm)
  apply State.onTile_changes (List.Subset.trans (by decide) hm)
  exact hx3

theorem State.syncReceive_changes {ps : List Part} (hm : ([.tiles] : List Part) ⊆ ps)
    {s₀ : State} (t : Fin 8)  {s : State} (hs : s₀.ChangesOnly ps s) :
    s₀.ChangesOnly ps (State.syncReceive t s) := by
  unfold State.syncReceive
  split
  · exact hs
  · extract_lets +onlyGivenNames -merge -useContext -lift x1
    have hx1 : s₀.ChangesOnly ps x1 := by
      unfold x1
      apply State.onTile_changes (List.Subset.trans (by decide) hm)
      exact hs
    apply State.ChangesOnly.ite
    · exact hx1
    · apply State.onTile_changes (List.Subset.trans (by decide) hm)
      exact hx1

theorem State.gateOff_changes {ps : List Part} (hm : ([.free, .heads, .tiles] : List Part) ⊆ ps)
    {s₀ : State} (t : Fin 8) {s : State} (hs : s₀.ChangesOnly ps s) :
    s₀.ChangesOnly ps (State.gateOff t s) := by
  unfold State.gateOff
  extract_lets +onlyGivenNames -merge -useContext -lift x1
  have hx1 : s₀.ChangesOnly ps x1 := by
    unfold x1
    apply State.ChangesOnly.foldl
    · exact hs
    · intro _ _ hu2
      apply State.onHead_changes (List.Subset.trans (by decide) hm)
      exact hu2
  apply State.loseRam_changes (List.Subset.trans (by decide) hm)
  apply State.onTile_changes (List.Subset.trans (by decide) hm)
  exact hx1

theorem State.lineFrame_changes {ps : List Part} (hm : ([.heads, .tiles, .atria] : List Part) ⊆ ps)
    {s₀ : State} (h : Fin 32) (l : LineRx) {s : State} (hs : s₀.ChangesOnly ps s) :
    s₀.ChangesOnly ps (State.lineFrame h l s) := by
  unfold State.lineFrame
  extract_lets +onlyGivenNames -merge -useContext -lift x1
  have hx1 : s₀.ChangesOnly ps x1 := by
    unfold x1
    apply State.onHead_changes (List.Subset.trans (by decide) hm)
    exact hs
  split
  · exact hx1
  · apply State.upstream_changes (List.Subset.trans (by decide) hm)
    apply State.onHead_changes (List.Subset.trans (by decide) hm)
    exact hx1

theorem State.launch_changes {ps : List Part} (hm : ([.tiles] : List Part) ⊆ ps)
    {s₀ : State} (t : Fin 8) (k : Fin 3) {s : State} (hs : s₀.ChangesOnly ps s) :
    s₀.ChangesOnly ps (State.launch t k s) := by
  unfold State.launch
  split
  · exact hs
  · apply State.onLink_changes (List.Subset.trans (by decide) hm)
    exact hs

theorem State.deliverFlits_changes {ps : List Part} (hm : ([.tiles] : List Part) ⊆ ps)
    {s₀ : State} (t : Fin 8) {s : State} (hs : s₀.ChangesOnly ps s) :
    s₀.ChangesOnly ps (State.deliverFlits t s) := by
  unfold State.deliverFlits
  apply State.onTile_changes (List.Subset.trans (by decide) hm)
  exact hs

theorem State.takeIn_changes {ps : List Part} (hm : ([.tiles] : List Part) ⊆ ps)
    {s₀ : State} (t : Fin 8) (k : Fin 3) (f : Flit) {s : State} (hs : s₀.ChangesOnly ps s) :
    s₀.ChangesOnly ps (State.takeIn t k f s) := by
  unfold State.takeIn
  extract_lets +onlyGivenNames -merge -useContext -lift x1
  have hx1 : s₀.ChangesOnly ps x1 := by
    unfold x1
    apply State.onLink_changes (List.Subset.trans (by decide) hm)
    exact hs
  apply State.ChangesOnly.ite
  · apply State.deliverFlits_changes (List.Subset.trans (by decide) hm)
    apply State.onTile_changes (List.Subset.trans (by decide) hm)
    exact hx1
  · apply State.forward_changes (List.Subset.trans (by decide) hm)
    exact hx1

theorem State.flitIn_changes {ps : List Part} (hm : ([.tiles] : List Part) ⊆ ps) {s₀ : State} (t : Fin 8) (k : Fin 3)
    (good : Bool) {s : State} (hs : s₀.ChangesOnly ps s) : s₀.ChangesOnly ps (s.flitIn t k good) := by
  unfold State.flitIn
  dsimp only
  have h : s₀.ChangesOnly ps
      (if (s.tile (warpFar t k)).links[warpBack k].replay.isEmpty then s.launch (warpFar t k) (warpBack k) else s) :=
    State.ChangesOnly.ite (State.launch_changes (List.Subset.trans (by decide) hm) _ _ hs) hs
  split
  · have hl := State.onLink_changes (List.Subset.trans (by decide) hm) t k (fun l => { l with failed := 0, rxCount := l.rxCount + 1 }) h
    split
    · exact hl
    · exact State.takeIn_changes (List.Subset.trans (by decide) hm) _ _ _ hl
  · exact State.onTile_changes (List.Subset.trans (by decide) hm) _ _
      (State.onLink_changes (List.Subset.trans (by decide) hm) _ _ _ (State.onTile_changes (List.Subset.trans (by decide) hm) _ _ h))

theorem State.noteOldEntry_changes {ps : List Part} (hm : ([.atria] : List Part) ⊆ ps)
    {s₀ : State} {s : State} (hs : s₀.ChangesOnly ps s) :
    s₀.ChangesOnly ps (State.noteOldEntry s) := by
  unfold State.noteOldEntry
  apply State.noteWords_changes (List.Subset.trans (by decide) hm)
  exact hs

theorem State.interruptAppend_changes {ps : List Part} (hm : ([.free, .tiles, .atria] : List Part) ⊆ ps)
    {s₀ : State} {s : State} (hs : s₀.ChangesOnly ps s) :
    s₀.ChangesOnly ps (State.interruptAppend s) := by
  unfold State.interruptAppend
  extract_lets +onlyGivenNames -merge -useContext -lift x1
  extract_lets +onlyGivenNames -merge -useContext -lift x2
  apply State.ChangesOnly.ite
  · extract_lets +onlyGivenNames -merge -useContext -lift x3
    extract_lets +onlyGivenNames -merge -useContext -lift x4
    extract_lets +onlyGivenNames -merge -useContext -lift x5
    have hx5 : s₀.ChangesOnly ps x5 := by
      unfold x5
      apply State.noteOldEntry_changes (List.Subset.trans (by decide) hm)
      apply State.takeFree_changes (List.Subset.trans (by decide) hm)
      exact hs
    apply State.ChangesOnly.ite
    · exact hx5
    · apply State.appendWrites_changes (List.Subset.trans (by decide) hm)
      apply State.appendBegins_changes (List.Subset.trans (by decide) hm)
      exact hx5
  · exact hs

theorem State.appendCut_changes {ps : List Part} (hm : ([.free, .tiles, .atria, .pkg, .pins] : List Part) ⊆ ps)
    {s₀ : State} {s : State} (hs : s₀.ChangesOnly ps s) :
    s₀.ChangesOnly ps (State.appendCut s) := by
  unfold State.appendCut
  apply State.ChangesOnly.ite
  · exact hs
  · extract_lets +onlyGivenNames -merge -useContext -lift x1
    extract_lets +onlyGivenNames -merge -useContext -lift x2
    have hx2 : s₀.ChangesOnly ps x2 := by
      unfold x2
      apply State.interruptAppend_changes (List.Subset.trans (by decide) hm)
      refine State.ChangesOnly.record ?_
        (.inl rfl) (.inl rfl) (.inl rfl) (.inl rfl) (.inl rfl) (.inl rfl) (.inl rfl) (.inr (hm (by decide))) (.inl rfl) (.inl rfl) (.inl rfl) (.inr (hm (by decide)))
      exact hs
    refine State.ChangesOnly.record ?_
      (.inl rfl) (.inl rfl) (.inl rfl) (.inl rfl) (.inl rfl) (.inl rfl) (.inl rfl) (.inr (hm (by decide))) (.inl rfl) (.inl rfl) (.inl rfl) (.inr (hm (by decide)))
    exact hx2

theorem State.smbRuns_changes {ps : List Part} (hm : ([.free, .smb] : List Part) ⊆ ps)
    {s₀ : State} {s : State} (hs : s₀.ChangesOnly ps s) :
    s₀.ChangesOnly ps (State.smbRuns s) := by
  unfold State.smbRuns
  extract_lets +onlyGivenNames -merge -useContext -lift x1
  apply State.onSmb_changes (List.Subset.trans (by decide) hm)
  apply State.takeFree_changes (List.Subset.trans (by decide) hm)
  exact hs

theorem State.smbWriteWords_changes {ps : List Part} (hm : ([.free, .heads, .tiles, .ports, .sets, .atria, .flashes, .boot, .pkg, .fuses, .smb, .shadows] : List Part) ⊆ ps)
    {s₀ : State} (l : List (ℕ × ℕ)) {s : State} (hs : s₀.ChangesOnly ps s) :
    s₀.ChangesOnly ps (State.smbWriteWords l s).2 := by
  induction l generalizing s with
  | nil => exact hs
  | cons e l ih => exact ih (State.regWrite_changes (List.Subset.trans (by decide) hm) _ _ _ hs)

theorem State.smbServe_changes {ps : List Part} (hm : ([.free, .smb] : List Part) ⊆ ps)
    {s₀ : State} (k : ℕ) (act : State → State) {s : State} (hs : s₀.ChangesOnly ps s)
    (ha : ∀ u, s₀.ChangesOnly ps u → s₀.ChangesOnly ps (act u)) :
    s₀.ChangesOnly ps (State.smbServe k act s) := by
  unfold State.smbServe
  refine State.ChangesOnly.ite ?_ (State.ChangesOnly.ite ?_ (ha _ ?_))
  · exact State.smbAnswer_changes (List.Subset.trans (by decide) hm) _ _ hs
  · exact State.smbAnswer_changes (List.Subset.trans (by decide) hm) _ _ hs
  · exact State.smbRuns_changes (List.Subset.trans (by decide) hm) hs

theorem State.fillOnce_changes {ps : List Part} (hm : ([.tiles, .atria, .shadows] : List Part) ⊆ ps)
    {s₀ : State} (t : Fin 8) (c : Fin 2) (k : Fin 2) {s : State} (hs : s₀.ChangesOnly ps s) :
    s₀.ChangesOnly ps (State.fillOnce t c k s).2 := by
  unfold State.fillOnce
  extract_lets +onlyGivenNames -merge -useContext -lift x1
  split
  · split
    · apply State.ChangesOnly.pair
      apply State.coreFault_changes (List.Subset.trans (by decide) hm)
      apply State.onCache_changes (List.Subset.trans (by decide) hm)
      rename_i p2 ep2
      have hp2 : s₀.ChangesOnly ps p2 := State.ChangesOnly.ofEq ep2 (by
          apply State.fetchLine_changes (List.Subset.trans (by decide) hm)
          exact hs)
      exact hp2
    · extract_lets +onlyGivenNames -merge -useContext -lift x3
      extract_lets +onlyGivenNames -merge -useContext -lift x4
      extract_lets +onlyGivenNames -merge -useContext -lift x5
      have hx5 : s₀.ChangesOnly ps x5 := by
        unfold x5
        apply State.onCache_changes (List.Subset.trans (by decide) hm)
        rename_i p6 ep6
        have hp6 : s₀.ChangesOnly ps p6 := State.ChangesOnly.ofEq ep6 (by
            apply State.fetchLine_changes (List.Subset.trans (by decide) hm)
            exact hs)
        exact hp6
      apply State.resumeWaiting_changes (List.Subset.trans (by decide) hm)
      apply State.coreTakes_changes (List.Subset.trans (by decide) hm)
      exact hx5
  · apply State.ChangesOnly.pair
    apply State.onCache_changes (List.Subset.trans (by decide) hm)
    exact hs

theorem State.afterFill_changes {ps : List Part} (hm : ([.tiles, .atria, .shadows] : List Part) ⊆ ps)
    {s₀ : State} (t : Fin 8) (c : Fin 2) (line n : ℕ) {s : State} (hs : s₀.ChangesOnly ps s) :
    s₀.ChangesOnly ps (State.afterFill t c line n s).2 := by
  induction n generalizing s with
  | zero => exact hs
  | succ n ih =>
    unfold State.afterFill
    apply State.ChangesOnly.ite₂
    · have h := State.fillOnce_changes (List.Subset.trans (by decide) hm) t c 1 hs
      split
      · exact State.ChangesOnly.ofEq ‹_› h
      · exact ih (State.ChangesOnly.ofEq ‹_› h)
    · exact hs

theorem State.fetchFrom_changes {ps : List Part} (hm : ([.tiles, .atria, .shadows] : List Part) ⊆ ps)
    {s₀ : State} (t : Fin 8) (c : Fin 2) (e : CoreAccess) {s : State} (hs : s₀.ChangesOnly ps s) :
    s₀.ChangesOnly ps (State.fetchFrom t c e s) := by
  unfold State.fetchFrom
  apply State.ChangesOnly.ite
  · apply State.readRegion_changes (List.Subset.trans (by decide) hm)
    apply State.onCore_changes (List.Subset.trans (by decide) hm)
    exact hs
  · split
    apply State.ChangesOnly.ite
    · apply State.readRegion_changes (List.Subset.trans (by decide) hm)
      rename_i p1 ep1
      have hp1 : s₀.ChangesOnly ps p1 := State.ChangesOnly.ofEq ep1 (by
          apply State.readRegion_changes (List.Subset.trans (by decide) hm)
          apply State.onCore_changes (List.Subset.trans (by decide) hm)
          exact hs)
      exact hp1
    · rename_i p2 ep2
      have hp2 : s₀.ChangesOnly ps p2 := State.ChangesOnly.ofEq ep2 (by
          apply State.readRegion_changes (List.Subset.trans (by decide) hm)
          apply State.onCore_changes (List.Subset.trans (by decide) hm)
          exact hs)
      exact hp2

theorem State.coreRan_changes {ps : List Part} (hm : ([.free, .tiles] : List Part) ⊆ ps)
    {s₀ : State} (t : Fin 8) (c : Fin 2) (op : CoreOp) {s : State} (hs : s₀.ChangesOnly ps s) :
    s₀.ChangesOnly ps (State.coreRan t c op s).2 := by
  unfold State.coreRan
  extract_lets +onlyGivenNames -merge -useContext -lift x1
  extract_lets +onlyGivenNames -merge -useContext -lift x2
  have hx2 : s₀.ChangesOnly ps x2.2 := by
    unfold x2
    apply State.ChangesOnly.pair
    apply State.coreTrap_changes (List.Subset.trans (by decide) hm)
    exact hs
  split
  · apply State.ChangesOnly.pair
    exact hs
  · apply State.ChangesOnly.pair
    apply State.onCore_changes (List.Subset.trans (by decide) hm)
    exact hs
  · apply State.ChangesOnly.ite₂
    · exact hx2
    · extract_lets +onlyGivenNames -merge -useContext -lift x3
      extract_lets +onlyGivenNames -merge -useContext -lift x4
      have hx4 : s₀.ChangesOnly ps x4 := by
        unfold x4
        apply State.onCore_changes (List.Subset.trans (by decide) hm)
        exact hs
      apply State.ChangesOnly.pair
      apply State.takeFree_changes (List.Subset.trans (by decide) hm)
      exact hx4
  · apply State.ChangesOnly.ite₂
    · apply State.ChangesOnly.pair
      apply State.onCore_changes (List.Subset.trans (by decide) hm)
      exact hs
    · exact hx2
  · apply State.ChangesOnly.ite₂
    · apply State.ChangesOnly.pair
      apply State.onCore_changes (List.Subset.trans (by decide) hm)
      exact hs
    · exact hx2
  · apply State.ChangesOnly.pair
    apply State.coreTrap_changes (List.Subset.trans (by decide) hm)
    exact hs
  · apply State.ChangesOnly.pair
    apply State.coreTrap_changes (List.Subset.trans (by decide) hm)
    exact hs
  · exact hx2

end Sys2Proof.Machine
end

