-- ==== Sys2Proof/Laws/Folds.lean ====
section
/-! SUPPORT. A part of the state that every round of a fold leaves alone is left alone by the fold. -/

namespace Sys2Proof.Machine

@[simp] theorem State.foldl_cycle {α : Type} (g : State → α → State) (h : ∀ s a, (g s a).cycle = s.cycle) (l : List α)
    (s : State) : (l.foldl g s).cycle = s.cycle := by
  induction l generalizing s with
  | nil => rfl
  | cons a l ih => rw [List.foldl_cons, ih, h]

theorem State.ite_cycle (c : Prop) [Decidable c] (s t : State) :
    (if c then s else t).cycle = if c then s.cycle else t.cycle := by split <;> rfl

@[simp] theorem State.foldl_freeCount {α : Type} (g : State → α → State) (h : ∀ s a, (g s a).freeCount = s.freeCount) (l : List α)
    (s : State) : (l.foldl g s).freeCount = s.freeCount := by
  induction l generalizing s with
  | nil => rfl
  | cons a l ih => rw [List.foldl_cons, ih, h]

theorem State.ite_freeCount (c : Prop) [Decidable c] (s t : State) :
    (if c then s else t).freeCount = if c then s.freeCount else t.freeCount := by split <;> rfl

@[simp] theorem State.foldl_heads {α : Type} (g : State → α → State) (h : ∀ s a, (g s a).heads = s.heads) (l : List α)
    (s : State) : (l.foldl g s).heads = s.heads := by
  induction l generalizing s with
  | nil => rfl
  | cons a l ih => rw [List.foldl_cons, ih, h]

theorem State.ite_heads (c : Prop) [Decidable c] (s t : State) :
    (if c then s else t).heads = if c then s.heads else t.heads := by split <;> rfl

@[simp] theorem State.foldl_tiles {α : Type} (g : State → α → State) (h : ∀ s a, (g s a).tiles = s.tiles) (l : List α)
    (s : State) : (l.foldl g s).tiles = s.tiles := by
  induction l generalizing s with
  | nil => rfl
  | cons a l ih => rw [List.foldl_cons, ih, h]

theorem State.ite_tiles (c : Prop) [Decidable c] (s t : State) :
    (if c then s else t).tiles = if c then s.tiles else t.tiles := by split <;> rfl

@[simp] theorem State.foldl_ports {α : Type} (g : State → α → State) (h : ∀ s a, (g s a).ports = s.ports) (l : List α)
    (s : State) : (l.foldl g s).ports = s.ports := by
  induction l generalizing s with
  | nil => rfl
  | cons a l ih => rw [List.foldl_cons, ih, h]

theorem State.ite_ports (c : Prop) [Decidable c] (s t : State) :
    (if c then s else t).ports = if c then s.ports else t.ports := by split <;> rfl

@[simp] theorem State.foldl_sets {α : Type} (g : State → α → State) (h : ∀ s a, (g s a).sets = s.sets) (l : List α)
    (s : State) : (l.foldl g s).sets = s.sets := by
  induction l generalizing s with
  | nil => rfl
  | cons a l ih => rw [List.foldl_cons, ih, h]

theorem State.ite_sets (c : Prop) [Decidable c] (s t : State) :
    (if c then s else t).sets = if c then s.sets else t.sets := by split <;> rfl

@[simp] theorem State.foldl_atria {α : Type} (g : State → α → State) (h : ∀ s a, (g s a).atria = s.atria) (l : List α)
    (s : State) : (l.foldl g s).atria = s.atria := by
  induction l generalizing s with
  | nil => rfl
  | cons a l ih => rw [List.foldl_cons, ih, h]

theorem State.ite_atria (c : Prop) [Decidable c] (s t : State) :
    (if c then s else t).atria = if c then s.atria else t.atria := by split <;> rfl

@[simp] theorem State.foldl_flashes {α : Type} (g : State → α → State) (h : ∀ s a, (g s a).flashes = s.flashes) (l : List α)
    (s : State) : (l.foldl g s).flashes = s.flashes := by
  induction l generalizing s with
  | nil => rfl
  | cons a l ih => rw [List.foldl_cons, ih, h]

theorem State.ite_flashes (c : Prop) [Decidable c] (s t : State) :
    (if c then s else t).flashes = if c then s.flashes else t.flashes := by split <;> rfl

@[simp] theorem State.foldl_boot {α : Type} (g : State → α → State) (h : ∀ s a, (g s a).boot = s.boot) (l : List α)
    (s : State) : (l.foldl g s).boot = s.boot := by
  induction l generalizing s with
  | nil => rfl
  | cons a l ih => rw [List.foldl_cons, ih, h]

theorem State.ite_boot (c : Prop) [Decidable c] (s t : State) :
    (if c then s else t).boot = if c then s.boot else t.boot := by split <;> rfl

@[simp] theorem State.foldl_pkg {α : Type} (g : State → α → State) (h : ∀ s a, (g s a).pkg = s.pkg) (l : List α)
    (s : State) : (l.foldl g s).pkg = s.pkg := by
  induction l generalizing s with
  | nil => rfl
  | cons a l ih => rw [List.foldl_cons, ih, h]

theorem State.ite_pkg (c : Prop) [Decidable c] (s t : State) :
    (if c then s else t).pkg = if c then s.pkg else t.pkg := by split <;> rfl

@[simp] theorem State.foldl_fuses {α : Type} (g : State → α → State) (h : ∀ s a, (g s a).fuses = s.fuses) (l : List α)
    (s : State) : (l.foldl g s).fuses = s.fuses := by
  induction l generalizing s with
  | nil => rfl
  | cons a l ih => rw [List.foldl_cons, ih, h]

theorem State.ite_fuses (c : Prop) [Decidable c] (s t : State) :
    (if c then s else t).fuses = if c then s.fuses else t.fuses := by split <;> rfl

@[simp] theorem State.foldl_smb {α : Type} (g : State → α → State) (h : ∀ s a, (g s a).smb = s.smb) (l : List α)
    (s : State) : (l.foldl g s).smb = s.smb := by
  induction l generalizing s with
  | nil => rfl
  | cons a l ih => rw [List.foldl_cons, ih, h]

theorem State.ite_smb (c : Prop) [Decidable c] (s t : State) :
    (if c then s else t).smb = if c then s.smb else t.smb := by split <;> rfl

@[simp] theorem State.foldl_shadows {α : Type} (g : State → α → State) (h : ∀ s a, (g s a).shadows = s.shadows) (l : List α)
    (s : State) : (l.foldl g s).shadows = s.shadows := by
  induction l generalizing s with
  | nil => rfl
  | cons a l ih => rw [List.foldl_cons, ih, h]

theorem State.ite_shadows (c : Prop) [Decidable c] (s t : State) :
    (if c then s else t).shadows = if c then s.shadows else t.shadows := by split <;> rfl

@[simp] theorem State.foldl_pending {α : Type} (g : State → α → State) (h : ∀ s a, (g s a).pending = s.pending) (l : List α)
    (s : State) : (l.foldl g s).pending = s.pending := by
  induction l generalizing s with
  | nil => rfl
  | cons a l ih => rw [List.foldl_cons, ih, h]

theorem State.ite_pending (c : Prop) [Decidable c] (s t : State) :
    (if c then s else t).pending = if c then s.pending else t.pending := by split <;> rfl

/-! ### One round of a fold -/

/-- What round `a` of a fold does to its own part of the state stands at the end, where no other round touches that part. -/
theorem State.foldl_round {α : Type} {f : State → α → State} {a : α} {R Q : State → Prop}
    (h1 : ∀ s, R s → Q (f s a)) (h2 : ∀ b, b ≠ a → ∀ s, R s → R (f s b)) (h3 : ∀ b, b ≠ a → ∀ s, Q s → Q (f s b)) :
    ∀ {l : List α} {s : State}, a ∈ l → l.Nodup → R s → Q (l.foldl f s) := by
  have keep : ∀ (l : List α) (s : State), a ∉ l → Q s → Q (l.foldl f s) := by
    intro l
    induction l with
    | nil => exact fun _ _ h => h
    | cons b l ih =>
      intro s hb hq
      exact ih _ (fun m => hb (List.mem_cons_of_mem _ m)) (h3 b (fun e => hb (e ▸ List.mem_cons_self)) s hq)
  intro l
  induction l with
  | nil => intro _ h; cases h
  | cons b l ih =>
    intro s hm hn hr
    have hn' := List.nodup_cons.mp hn
    by_cases e : b = a
    · rw [List.foldl_cons]
      exact keep l _ (e ▸ hn'.1) (e ▸ h1 s hr)
    · exact ih ((List.mem_cons.mp hm).resolve_left (Ne.symm e)) hn'.2 (h2 b e s hr)

/-- A fold over the heads each of whose rounds changes its own head alone, by what that head and its instant give. -/
theorem State.eachHead_head {f : Fin 32 → State → State} {g : Fin 32 → Ctx → Head → Head}
    (h1 : ∀ h s, (f h s).head h = g h (s.ctx h) (s.head h)) (h2 : ∀ h s j, j ≠ h → (f h s).head j = s.head j)
    (h3 : ∀ h s j, (f h s).ctx j = s.ctx j) (s : State) (h : Fin 32) :
    (s.eachHead f).head h = g h (s.ctx h) (s.head h) := by
  unfold State.eachHead
  refine State.foldl_round (a := h) (R := fun u => u.ctx h = s.ctx h ∧ u.head h = s.head h)
    (Q := fun u => u.head h = g h (s.ctx h) (s.head h)) ?_ ?_ ?_ (by revert h; decide) (by decide) ⟨rfl, rfl⟩
  · rintro u ⟨e1, e2⟩
    rw [h1, e1, e2]
  · rintro b hb u ⟨e1, e2⟩
    exact ⟨(h3 b u h).trans e1, (h2 b u h (Ne.symm hb)).trans e2⟩
  · intro b hb u e
    exact (h2 b u h (Ne.symm hb)).trans e

/-- A fold over the tiles each of whose rounds changes its own tile alone. -/
theorem State.eachTile_tile {f : Fin 8 → State → State} {R : Tile → Tile → Prop} {G : State → Prop}
    (h1 : ∀ t s, G s → R (s.tile t) ((f t s).tile t)) (h2 : ∀ t s j, j ≠ t → (f t s).tile j = s.tile j)
    (h3 : ∀ t s, G s → G (f t s)) (s : State) (hg : G s) (t : Fin 8) : R (s.tile t) ((s.eachTile f).tile t) := by
  unfold State.eachTile
  refine State.foldl_round (a := t) (R := fun u => G u ∧ u.tile t = s.tile t) (Q := fun u => R (s.tile t) (u.tile t))
    ?_ ?_ ?_ (by revert t; decide) (by decide) ⟨hg, rfl⟩
  · rintro u ⟨e1, e2⟩
    rw [← e2]
    exact h1 t u e1
  · rintro b hb u ⟨e1, e2⟩
    exact ⟨h3 b u e1, (h2 b u t (Ne.symm hb)).trans e2⟩
  · intro b hb u e
    rw [h2 b u t (Ne.symm hb)]
    exact e

end Sys2Proof.Machine
end

