-- ==== Sys2Proof/Laws/Keep.lean ====
section
/-! SUPPORT. Which register fields of a head each operation on a head can write: every field whose key lies outside the
listed ranges reads as before. -/

namespace Sys2Proof.Machine

/-- A key lies outside every range of the list. -/
def outKeys (ws : List (Nat × Nat)) (k : Nat) : Bool := ws.all fun p => decide (k < p.1 ∨ p.2 ≤ k)

/-- A key lies inside a range of the list. -/
def inKeys (ws : List (Nat × Nat)) (k : Nat) : Bool := ws.any fun p => decide (p.1 ≤ k ∧ k < p.2)

/-- The ranges of the first list cover those of the second. -/
def covers (a b : List (Nat × Nat)) : Bool := b.all fun p => a.any fun q => decide (q.1 ≤ p.1 ∧ p.2 ≤ q.2)

theorem out_mono {a b : List (Nat × Nat)} {k : Nat} (o : outKeys a k = true) (h : covers a b = true) : outKeys b k = true := by
  simp only [covers, outKeys, List.all_eq_true, List.any_eq_true, decide_eq_true_eq] at *
  intro p hp
  obtain ⟨q, hq, h1, h2⟩ := h p hp
  have := o q hq
  omega

theorem out_ne {ws : List (Nat × Nat)} {k j : Nat} (o : outKeys ws k = true) (i : inKeys ws j = true) : k ≠ j := by
  simp only [inKeys, outKeys, List.all_eq_true, List.any_eq_true, decide_eq_true_eq] at *
  obtain ⟨q, hq, h⟩ := i
  have := o q hq
  omega

theorem out_fin {ws : List (Nat × Nat)} {k n : Nat} (o : outKeys ws k = true) (F : Nat → Fld) (g : Fin n)
    (i : ∀ g : Fin n, inKeys ws (F g).key = true) : k ≠ (F g).key := out_ne o (i g)

theorem out_lt {ws : List (Nat × Nat)} {k n m : Nat} (o : outKeys ws k = true) (F : Nat → Fld) (h : m < n)
    (i : ∀ g : Fin n, inKeys ws (F g).key = true) : k ≠ (F m).key := out_ne o (i ⟨m, h⟩)

theorem key_ne_ite {k : Nat} {c : Prop} [Decidable c] {f g : Fld} (a : k ≠ f.key) (b : k ≠ g.key) :
    k ≠ (if c then f else g).key := by split <;> assumption

theorem Head.keep_w {f g : Fld} {x : Head} {n v : Nat} (hg : f.key ≠ g.key) (h : x.r f = v) : (x.w g n).r f = v :=
  h ▸ RegFile.rd_wr_ne _ _ hg

theorem Head.keep_wi {f g : Fld} {x : Head} {n : Int} {v : Nat} (hg : f.key ≠ g.key) (h : x.r f = v) :
    (x.wi g n).r f = v := Head.keep_w hg h

theorem Head.keep_put {f g : Fld} {x : Head} {b : Bool} {v : Nat} (hg : f.key ≠ g.key) (h : x.r f = v) :
    (x.put g b).r f = v := Head.keep_w hg h

theorem Head.keep_flag {f g : Fld} {x : Head} {v : Nat} (hg : f.key ≠ g.key) (h : x.r f = v) : (x.flag g).r f = v :=
  Head.keep_w hg h

theorem Head.keep_bump {f g : Fld} {x : Head} {n v : Nat} (hg : f.key ≠ g.key) (h : x.r f = v) :
    (x.bump g n).r f = v := Head.keep_w hg h

theorem Head.keep_flagIf {f g : Fld} {x : Head} {c : Bool} {v : Nat} (hg : f.key ≠ g.key) (h : x.r f = v) :
    (x.flagIf c g).r f = v := by
  cases c
  · exact h
  · exact Head.keep_w hg h

theorem Head.keep_ite {f : Fld} {x y : Head} {v : Nat} {c : Prop} [Decidable c] (h : x.r f = v) (k : y.r f = v) :
    (if c then x else y).r f = v := by split <;> assumption

theorem Head.keep_ite₂ {α : Type} {f : Fld} {x y : α × Head} {v : Nat} {c : Prop} [Decidable c] (h : x.2.r f = v)
    (k : y.2.r f = v) : (if c then x else y).2.r f = v := by split <;> assumption

theorem Head.keep_ite₁ {α : Type} {f : Fld} {x y : Head × α} {v : Nat} {c : Prop} [Decidable c] (h : x.1.r f = v)
    (k : y.1.r f = v) : (if c then x else y).1.r f = v := by split <;> assumption

theorem Head.keep_pair {α : Type} {f : Fld} {x : Head} {a : α} {v : Nat} (h : x.r f = v) : (a, x).2.r f = v := h

theorem Head.keep_pair₁ {α : Type} {f : Fld} {x : Head} {a : α} {v : Nat} (h : x.r f = v) : (x, a).1.r f = v := h

theorem Head.keep_foldl {α : Type} {f : Fld} {x : Head} {v : Nat} {g : Head → α → Head} {l : List α} (h : x.r f = v)
    (k : ∀ y a, y.r f = v → (g y a).r f = v) : (l.foldl g x).r f = v := by
  induction l generalizing x with
  | nil => exact h
  | cons a l ih => exact ih (k x a h)

theorem Head.keep_foldl_mem {α : Type} {f : Fld} {x : Head} {v : Nat} {g : Head → α → Head} {l : List α} (h : x.r f = v)
    (k : ∀ y a, a ∈ l → y.r f = v → (g y a).r f = v) : (l.foldl g x).r f = v := by
  induction l generalizing x with
  | nil => exact h
  | cons a l ih => exact ih (k x a List.mem_cons_self h) fun y b hb => k y b (List.mem_cons_of_mem _ hb)

theorem Head.keep_ofEq {α : Type} {f : Fld} {a : α × Head} {b : α} {x : Head} {v : Nat} (e : a = (b, x))
    (h : a.2.r f = v) : x.r f = v := by rw [e] at h; exact h

theorem Head.keep_ofEq₁ {α : Type} {f : Fld} {a : Head × α} {b : α} {x : Head} {v : Nat} (e : a = (x, b))
    (h : a.1.r f = v) : x.r f = v := by rw [e] at h; exact h

theorem Head.keep_record {f : Fld} {a : Head} {v : Nat} {x_inReset : Bool} {x_angle : AngleSt} {x_riser : RiserSt} {x_beams : Vector BeamSt 33} {x_weft : WeftSt} {x_write : WriteSt} {x_loops : LoopSt} {x_land : LandSt} {x_spin : SpinSt} {x_gens : Vector StepSt 2} {x_cal : CalSt} {x_schedMem : Mem} {x_chanMem : Mem} {x_stratMem : Mem} {x_stratMap : Mem}
    (h : a.r f = v) : Head.r
      { regs := a.regs
        inReset := x_inReset
        angle := x_angle
        riser := x_riser
        beams := x_beams
        weft := x_weft
        write := x_write
        loops := x_loops
        land := x_land
        spin := x_spin
        gens := x_gens
        cal := x_cal
        schedMem := x_schedMem
        chanMem := x_chanMem
        stratMem := x_stratMem
        stratMap := x_stratMap } f = v := h

/-! ### Reading back, and the frame of a list of fields -/

theorem Head.r_w (x : Head) (f : Fld) (v : Nat) : (x.w f v).r f = v % 2 ^ f.width := RegFile.rd_wr_self ..

theorem Head.b_put (x : Head) {f : Fld} (c : Bool) (h : f.width = 1) : (x.put f c).b f = c := by
  have e : (x.put f c).r f = flagNat c % 2 ^ f.width := Head.r_w ..
  unfold Head.r at e
  rw [h] at e
  unfold Head.b RegFile.flag
  rw [e]
  cases c <;> rfl

theorem Head.b_flag (x : Head) {f : Fld} (h : f.width = 1) : (x.flag f).b f = true := by
  have e : (x.flag f).r f = 1 % 2 ^ f.width := Head.r_w ..
  unfold Head.r at e
  rw [h] at e
  unfold Head.b RegFile.flag
  rw [e]
  rfl

theorem Head.r_bump (x : Head) (f : Fld) (n : Nat) : (x.bump f n).r f = satAdd f.width (x.r f) n % 2 ^ f.width :=
  RegFile.rd_wr_self ..

theorem Head.b_of {x y : Head} {f : Fld} (h : y.r f = x.r f) : y.b f = x.b f := by
  unfold Head.b RegFile.flag
  exact congrArg (· != 0) h

theorem Head.ri_of {x y : Head} {f : Fld} (h : y.r f = x.r f) : y.ri f = x.ri f := congrArg (signedOf f.width) h

theorem Head.keepsFields_of {x y : Head} {fs : List Fld} (ws : List (Nat × Nat))
    (hc : headFields.all (fun f => fs.any (fun g => f.key == g.key) || outKeys ws f.key) = true)
    (h : ∀ f : Fld, outKeys ws f.key = true → y.r f = x.r f) : x.KeepsFields y fs := by
  intro f hf hn
  have h1 := List.all_eq_true.1 hc f hf
  rw [Bool.or_eq_true] at h1
  rcases h1 with h1 | h1
  · obtain ⟨g, hg, e⟩ := List.any_eq_true.1 h1
    exact absurd (beq_iff_eq.1 e) (hn g hg)
  · exact h f h1

variable {f₀ : Fld} {v₀ : Nat}

theorem Head.onBeam_keep (hf : outKeys [] f₀.key = true) {x : Head} (i : Fin 33) (f : BeamSt → BeamSt) (hs : x.r f₀ = v₀) : (Head.onBeam x i f).r f₀ = v₀ := by
  unfold Head.onBeam
  apply Head.keep_record
  exact hs

theorem Head.onGen_keep (hf : outKeys [] f₀.key = true) {x : Head} (g : Fin 2) (f : StepSt → StepSt) (hs : x.r f₀ = v₀) : (Head.onGen x g f).r f₀ = v₀ := by
  unfold Head.onGen
  apply Head.keep_record
  exact hs

theorem Head.issue_keep (hf : outKeys [] f₀.key = true) (c : Ctx) (m : RCmd) {x : Head} (hs : x.r f₀ = v₀) : (Head.issue c m x).r f₀ = v₀ := by
  unfold Head.issue
  apply Head.keep_ite
  · apply Head.keep_record
    exact hs
  · exact hs

theorem Head.act_keep (hf : outKeys [] f₀.key = true) (c : Ctx) (src : CmdSrc) (out : ℕ) (v : ℤ) (time : ℕ) (loopNo : ℕ) {x : Head} (hs : x.r f₀ = v₀) : (Head.act c src out v time loopNo x).r f₀ = v₀ := by
  unfold Head.act
  apply Head.issue_keep (out_mono hf (by decide))
  exact hs

theorem Head.bridge_keep (hf : outKeys [] f₀.key = true) (c : Ctx) (v : ℕ) {x : Head} (hs : x.r f₀ = v₀) : (Head.bridge c v x).r f₀ = v₀ := by
  unfold Head.bridge
  apply Head.issue_keep (out_mono hf (by decide))
  exact hs

theorem Head.laser_keep (hf : outKeys [] f₀.key = true) (c : Ctx) (src : CmdSrc) (b : ℕ) (mode : ℕ) (rp : ℕ) (wp : ℕ) {x : Head} (hs : x.r f₀ = v₀) : (Head.laser c src b mode rp wp x).r f₀ = v₀ := by
  unfold Head.laser
  apply Head.issue_keep (out_mono hf (by decide))
  exact hs

theorem Head.lasersOff_keep (hf : outKeys [] f₀.key = true) (c : Ctx) {x : Head} (hs : x.r f₀ = v₀) : (Head.lasersOff c x).r f₀ = v₀ := by
  unfold Head.lasersOff
  apply Head.laser_keep (out_mono hf (by decide))
  exact hs

/-- What Head.loopEnable may write. -/
def Head.loopEnable_keys : List (Nat × Nat) :=
  [(2107392, 2107393), (2107520, 2107521), (2107648, 2107649), (2107776, 2107777), (2107904, 2107905), (2108032, 2108033), (2108160, 2108161), (2108288, 2108289), (2108416, 2108417), (2108544, 2108545), (2108672, 2108673), (2108800, 2108801), (2108928, 2108929), (2109056, 2109057), (2109184, 2109185), (2109312, 2109313), (2109440, 2109441), (2109568, 2109569), (2109696, 2109697), (2109824, 2109825), (2109952, 2109953), (2110080, 2110081), (2110208, 2110209), (2110336, 2110337)]

theorem Head.loopEnable_keep (hf : outKeys Head.loopEnable_keys f₀.key = true) (n : ℕ) (v : Bool) {x : Head} (hs : x.r f₀ = v₀) : (Head.loopEnable n v x).r f₀ = v₀ := by
  unfold Head.loopEnable
  split
  · rename_i h
    simp only [Bool.and_eq_true, decide_eq_true_eq] at h
    exact Head.keep_put (out_lt hf LoopReg.ENABLE h.1 (by decide)) hs
  · exact hs

theorem Head.loopRef_keep (hf : outKeys [(2110464, 2113409)] f₀.key = true) (n : ℕ) (v : ℤ) {x : Head} (hs : x.r f₀ = v₀) : (Head.loopRef n v x).r f₀ = v₀ := by
  unfold Head.loopRef
  split
  · rename_i h
    exact Head.keep_wi (out_lt hf LoopReg.LOOP_REF h (by decide)) hs
  · exact hs

theorem Head.loopZero_keep (hf : outKeys [] f₀.key = true) (n : ℕ) {x : Head} (hs : x.r f₀ = v₀) : (Head.loopZero n x).r f₀ = v₀ := by
  unfold Head.loopZero
  apply Head.keep_record
  exact hs

theorem Head.loopPreload_keep (hf : outKeys [] f₀.key = true) (n : ℕ) (v : ℤ) {x : Head} (hs : x.r f₀ = v₀) : (Head.loopPreload n v x).r f₀ = v₀ := by
  unfold Head.loopPreload
  extract_lets +onlyGivenNames -merge -useContext -lift x1
  have hx1 : x1.r f₀ = v₀ := by
    unfold x1
    apply Head.loopZero_keep (out_mono hf (by decide))
    exact hs
  extract_lets +onlyGivenNames -merge -useContext -lift x2
  apply Head.keep_record
  exact hx1

/-- What Head.refreshBank may write. -/
def Head.refreshBank_keys : List (Nat × Nat) :=
  [(2105344, 2105345), (2105354, 2105359), (2105735, 2105736), (2105984, 2105985)]

theorem Head.refreshBank_keep (hf : outKeys Head.refreshBank_keys f₀.key = true) {x : Head} (hs : x.r f₀ = v₀) : (Head.refreshBank x).r f₀ = v₀ := by
  unfold Head.refreshBank
  extract_lets +onlyGivenNames -merge -useContext -lift x1
  extract_lets +onlyGivenNames -merge -useContext -lift x2
  have hx2 : x2.r f₀ = v₀ := by
    unfold x2
    apply Head.keep_w (out_ne hf (by decide))
    exact hs
  extract_lets +onlyGivenNames -merge -useContext -lift x3
  have hx3 : x3.r f₀ = v₀ := by
    unfold x3
    apply Head.keep_w (out_ne hf (by decide))
    exact hx2
  extract_lets +onlyGivenNames -merge -useContext -lift x4
  apply Head.keep_ite
  · exact hx3
  · apply Head.keep_bump (out_ne hf (by decide))
    apply Head.keep_flag (out_ne hf (by decide))
    apply Head.keep_w (out_ne hf (by decide))
    exact hx3

/-- What Head.refreshMode may write. -/
def Head.refreshMode_keys : List (Nat × Nat) :=
  [(2105344, 2105345), (2105352, 2105359), (2105735, 2105736), (2105984, 2105985)]

theorem Head.refreshMode_keep (hf : outKeys Head.refreshMode_keys f₀.key = true) {x : Head} (hs : x.r f₀ = v₀) : (Head.refreshMode x).r f₀ = v₀ := by
  unfold Head.refreshMode
  apply Head.refreshBank_keep (out_mono hf (by decide))
  apply Head.keep_w (out_ne hf (by decide))
  exact hs

theorem Head.scorrHold_keep (hf : outKeys [] f₀.key = true) (a0 : ℕ) {x : Head} (hs : x.r f₀ = v₀) : (Head.scorrHold a0 x).r f₀ = v₀ := by
  unfold Head.scorrHold
  extract_lets +onlyGivenNames -merge -useContext -lift x1
  apply Head.keep_record
  exact hs

theorem Head.scorrTake_keep (hf : outKeys [] f₀.key = true) (k : ℕ) (a1 : ℕ) {x : Head} (hs : x.r f₀ = v₀) : (Head.scorrTake k a1 x).r f₀ = v₀ := by
  unfold Head.scorrTake
  apply Head.keep_record
  exact hs

theorem Head.tellFound_keep (hf : outKeys [] f₀.key = true) (k : ℕ) (old : Framing) (new : Framing) {x : Head} (hs : x.r f₀ = v₀) : (Head.tellFound k old new x).r f₀ = v₀ := by
  unfold Head.tellFound
  split
  · apply Head.keep_ite
    · apply Head.keep_record
      exact hs
    · exact hs
  · exact hs

/-- What Head.endFrame may write. -/
def Head.endFrame_keys : List (Nat × Nat) :=
  [(8388742, 8388743), (8454278, 8454279), (8519814, 8519815), (8585350, 8585351), (8650886, 8650887), (8716422, 8716423), (8781958, 8781959), (8847494, 8847495), (8913030, 8913031), (8978566, 8978567), (9044102, 9044103), (9109638, 9109639), (9175174, 9175175), (9240710, 9240711), (9306246, 9306247), (9371782, 9371783), (9437318, 9437319), (9502854, 9502855), (9568390, 9568391), (9633926, 9633927), (9699462, 9699463), (9764998, 9764999), (9830534, 9830535), (9896070, 9896071), (9961606, 9961607), (10027142, 10027143), (10092678, 10092679), (10158214, 10158215), (10223750, 10223751), (10289286, 10289287), (10354822, 10354823), (10420358, 10420359), (10485894, 10485895)]

theorem Head.endFrame_keep (hf : outKeys Head.endFrame_keys f₀.key = true) (i : Fin 33) (how : FrameEnd) (tClose : ℤ) {x : Head} (hs : x.r f₀ = v₀) : (Head.endFrame i how tClose x).r f₀ = v₀ := by
  unfold Head.endFrame
  extract_lets +onlyGivenNames -merge -useContext -lift x1
  split
  · exact hs
  · extract_lets +onlyGivenNames -merge -useContext -lift x2
    extract_lets +onlyGivenNames -merge -useContext -lift x3
    extract_lets +onlyGivenNames -merge -useContext -lift x4
    extract_lets +onlyGivenNames -merge -useContext -lift x5
    extract_lets +onlyGivenNames -merge -useContext -lift x6
    extract_lets +onlyGivenNames -merge -useContext -lift x7
    extract_lets +onlyGivenNames -merge -useContext -lift x8
    extract_lets +onlyGivenNames -merge -useContext -lift x9
    have hx9 : x9.r f₀ = v₀ := by
      unfold x9
      apply Head.tellFound_keep (out_mono hf (by decide))
      apply Head.onBeam_keep (out_mono hf (by decide))
      exact hs
    extract_lets +onlyGivenNames -merge -useContext -lift x10
    have hx10 : x10.r f₀ = v₀ := by
      unfold x10
      apply Head.keep_flagIf (out_fin hf BeamReg.NO_FRAME _ (by decide))
      exact hx9
    apply Head.keep_ite
    · exact hx10
    · apply Head.keep_ite
      · apply Head.keep_record
        exact hx10
      · apply Head.keep_record
        exact hx10

/-- What Head.abortFrames may write. -/
def Head.abortFrames_keys : List (Nat × Nat) :=
  [(8388742, 8388743), (8454278, 8454279), (8519814, 8519815), (8585350, 8585351), (8650886, 8650887), (8716422, 8716423), (8781958, 8781959), (8847494, 8847495), (8913030, 8913031), (8978566, 8978567), (9044102, 9044103), (9109638, 9109639), (9175174, 9175175), (9240710, 9240711), (9306246, 9306247), (9371782, 9371783), (9437318, 9437319), (9502854, 9502855), (9568390, 9568391), (9633926, 9633927), (9699462, 9699463), (9764998, 9764999), (9830534, 9830535), (9896070, 9896071), (9961606, 9961607), (10027142, 10027143), (10092678, 10092679), (10158214, 10158215), (10223750, 10223751), (10289286, 10289287), (10354822, 10354823), (10420358, 10420359), (10485894, 10485895)]

theorem Head.abortFrames_keep (hf : outKeys Head.abortFrames_keys f₀.key = true) (c : Ctx) {x : Head} (hs : x.r f₀ = v₀) : (Head.abortFrames c x).r f₀ = v₀ := by
  unfold Head.abortFrames
  extract_lets +onlyGivenNames -merge -useContext -lift x1
  have hx1 : x1.r f₀ = v₀ := by
    unfold x1
    apply Head.keep_foldl
    · exact hs
    · intro _ _ hu2
      apply Head.endFrame_keep (out_mono hf (by decide))
      exact hu2
  apply Head.keep_record
  exact hx1

theorem Head.lasersRead_keep (hf : outKeys [] f₀.key = true) (c : Ctx) {x : Head} (hs : x.r f₀ = v₀) : (Head.lasersRead c x).r f₀ = v₀ := by
  unfold Head.lasersRead
  apply Head.keep_ite
  · extract_lets +onlyGivenNames -merge -useContext -lift x1
    extract_lets +onlyGivenNames -merge -useContext -lift x2
    have hx2 : x2.r f₀ = v₀ := by
      unfold x2
      apply Head.keep_foldl
      · exact hs
      · intro _ _ hu3
        apply Head.laser_keep (out_mono hf (by decide))
        exact hu3
    apply Head.keep_record
    exact hx2
  · exact hs

/-- What Head.leaveWrite may write. -/
def Head.leaveWrite_keys : List (Nat × Nat) :=
  [(2105344, 2105345), (2105352, 2105359), (2105735, 2105736), (2105984, 2105985), (2113792, 2113793), (2113920, 2113921)]

theorem Head.leaveWrite_keep (hf : outKeys Head.leaveWrite_keys f₀.key = true) {x : Head} (hs : x.r f₀ = v₀) : (Head.leaveWrite x).r f₀ = v₀ := by
  unfold Head.leaveWrite
  apply Head.keep_ite
  · apply Head.refreshMode_keep (out_mono hf (by decide))
    apply Head.keep_flag (out_ne hf (by decide))
    apply Head.keep_w (out_ne hf (by decide))
    exact hs
  · exact hs

/-- What Head.writeSettle may write. -/
def Head.writeSettle_keys : List (Nat × Nat) :=
  [(2105344, 2105345), (2105352, 2105359), (2105735, 2105736), (2105984, 2105985), (2113792, 2113793), (2113920, 2113921), (12583040, 12583041)]

theorem Head.writeSettle_keep (hf : outKeys Head.writeSettle_keys f₀.key = true) (c : Ctx) {x : Head} (hs : x.r f₀ = v₀) : (Head.writeSettle c x).r f₀ = v₀ := by
  unfold Head.writeSettle
  split
  · exact hs
  · apply Head.keep_ite
    · exact hs
    · extract_lets +onlyGivenNames -merge -useContext -lift x1
      extract_lets +onlyGivenNames -merge -useContext -lift x2
      have hx2 : x2.r f₀ = v₀ := by
        unfold x2
        apply Head.lasersRead_keep (out_mono hf (by decide))
        apply Head.keep_record
        exact hs
      split
      · exact hx2
      · apply Head.keep_ite
        · exact hx2
        · extract_lets +onlyGivenNames -merge -useContext -lift x3
          extract_lets +onlyGivenNames -merge -useContext -lift x4
          have hx4 : x4.r f₀ = v₀ := by
            unfold x4
            apply Head.leaveWrite_keep (out_mono hf (by decide))
            apply Head.keep_record
            exact hx2
          apply Head.keep_w (out_ne hf (by decide))
          exact hx4

/-- What Head.writeAbort may write. -/
def Head.writeAbort_keys : List (Nat × Nat) :=
  [(2105344, 2105345), (2105352, 2105359), (2105735, 2105736), (2105984, 2105985), (2113792, 2113793), (2113920, 2113921), (12583040, 12583041), (12583169, 12583170)]

theorem Head.writeAbort_keep (hf : outKeys Head.writeAbort_keys f₀.key = true) (c : Ctx) (cause : ℕ) {x : Head} (hs : x.r f₀ = v₀) : (Head.writeAbort c cause x).r f₀ = v₀ := by
  unfold Head.writeAbort
  extract_lets +onlyGivenNames -merge -useContext -lift x1
  have hx1 : x1.r f₀ = v₀ := by
    unfold x1
    apply Head.writeSettle_keep (out_mono hf (by decide))
    exact hs
  split
  · exact hx1
  · apply Head.keep_ite
    · apply Head.keep_record
      exact hx1
    · apply Head.keep_ite
      · exact hx1
      · extract_lets +onlyGivenNames -merge -useContext -lift x2
        extract_lets +onlyGivenNames -merge -useContext -lift x3
        extract_lets +onlyGivenNames -merge -useContext -lift x4
        extract_lets +onlyGivenNames -merge -useContext -lift x5
        have hx5 : x5.r f₀ = v₀ := by
          unfold x5
          apply Head.keep_ite
          · apply Head.issue_keep (out_mono hf (by decide))
            exact hx1
          · exact hx1
        extract_lets +onlyGivenNames -merge -useContext -lift x6
        extract_lets +onlyGivenNames -merge -useContext -lift x7
        have hx7 : x7.r f₀ = v₀ := by
          unfold x7
          apply Head.keep_record
          exact hx5
        extract_lets +onlyGivenNames -merge -useContext -lift x8
        have hx8 : x8.r f₀ = v₀ := by
          unfold x8
          apply Head.leaveWrite_keep (out_mono hf (by decide))
          apply Head.keep_flag (out_ne hf (by decide))
          exact hx7
        extract_lets +onlyGivenNames -merge -useContext -lift x9
        have hx9 : x9.r f₀ = v₀ := by
          unfold x9
          apply Head.keep_ite
          · apply Head.lasersRead_keep (out_mono hf (by decide))
            exact hx8
          · exact hx8
        apply Head.keep_w (out_ne hf (by decide))
        exact hx9

theorem Head.calEnd_keep (hf : outKeys [(2106246, 2106247), (14680074, 14680193), (14680320, 14680322)] f₀.key = true) (c : Ctx) (status : ℕ) (fit : List (ℕ × ℕ × ℕ)) {x : Head} (hs : x.r f₀ = v₀) : (Head.calEnd c status fit x).r f₀ = v₀ := by
  unfold Head.calEnd
  apply Head.keep_ite
  · extract_lets +onlyGivenNames -merge -useContext -lift x1
    extract_lets +onlyGivenNames -merge -useContext -lift x2
    have hx2 : x2.r f₀ = v₀ := by
      unfold x2
      apply Head.keep_ite
      · apply Head.keep_put (out_ne hf (by decide))
        exact hs
      · exact hs
    extract_lets +onlyGivenNames -merge -useContext -lift y3_0 x3
    have hx3 : x3.r f₀ = v₀ := by
      unfold x3
      apply Head.keep_record
      exact hx2
    extract_lets +onlyGivenNames -merge -useContext -lift x4
    have hx4 : x4.r f₀ = v₀ := by
      unfold x4
      apply Head.keep_w (out_ne hf (by decide))
      apply Head.keep_put (out_ne hf (by decide))
      apply Head.keep_put (out_ne hf (by decide))
      exact hx3
    apply Head.keep_flag (key_ne_ite (out_ne hf (by decide)) (out_ne hf (by decide)))
    exact hx4
  · exact hs

theorem Head.calRestore_keep (hf : outKeys [(2110464, 2113409)] f₀.key = true) {x : Head} (hs : x.r f₀ = v₀) : (Head.calRestore x).r f₀ = v₀ := by
  unfold Head.calRestore
  split
  · exact hs
  · apply Head.loopRef_keep (out_mono hf (by decide))
    exact hs

theorem Head.calRefWritten_keep (hf : outKeys [(2106246, 2106247), (14680074, 14680193), (14680320, 14680322)] f₀.key = true) (c : Ctx) (n : ℕ) {x : Head} (hs : x.r f₀ = v₀) : (Head.calRefWritten c n x).r f₀ = v₀ := by
  unfold Head.calRefWritten
  apply Head.keep_ite
  · apply Head.calEnd_keep (out_mono hf (by decide))
    exact hs
  · exact hs

theorem Head.calCheck_keep (hf : outKeys [(2106246, 2106247), (14680074, 14680193), (14680320, 14680322)] f₀.key = true) (c : Ctx) {x : Head} (hs : x.r f₀ = v₀) : (Head.calCheck c x).r f₀ = v₀ := by
  unfold Head.calCheck
  apply Head.keep_ite
  · extract_lets +onlyGivenNames -merge -useContext -lift x1
    extract_lets +onlyGivenNames -merge -useContext -lift x2
    have hx2 : x2.r f₀ = v₀ := by
      unfold x2
      apply Head.keep_record
      exact hs
    extract_lets +onlyGivenNames -merge -useContext -lift x3
    extract_lets +onlyGivenNames -merge -useContext -lift x4
    apply Head.keep_ite
    · apply Head.calEnd_keep (out_mono hf (by decide))
      exact hx2
    · exact hx2
  · exact hs

/-- What Head.genEnd may write. -/
def Head.genEnd_keys : List (Nat × Nat) :=
  [(6291968, 6291972), (6291980, 6292097), (6292103, 6292105), (6300160, 6300164), (6300172, 6300289), (6300295, 6300297)]

theorem Head.genEnd_keep (hf : outKeys Head.genEnd_keys f₀.key = true) (g : Fin 2) (code : ℕ) {x : Head} (hs : x.r f₀ = v₀) : (Head.genEnd g code x).r f₀ = v₀ := by
  unfold Head.genEnd
  extract_lets +onlyGivenNames -merge -useContext -lift x1
  extract_lets +onlyGivenNames -merge -useContext -lift x2
  have hx2 : x2.r f₀ = v₀ := by
    unfold x2
    apply Head.keep_flag (out_fin hf StepReg.MOVE_DONE _ (by decide))
    apply Head.keep_w (out_fin hf StepReg.END_CODE _ (by decide))
    exact hs
  extract_lets +onlyGivenNames -merge -useContext -lift x3
  have hx3 : x3.r f₀ = v₀ := by
    unfold x3
    apply Head.keep_ite
    · apply Head.keep_flag (key_ne_ite (out_fin hf StepReg.HOME_DONE _ (by decide)) (out_fin hf StepReg.HOME_FAIL _ (by decide)))
      apply Head.keep_w (out_fin hf StepReg.HPHASE _ (by decide))
      exact hx2
    · exact hx2
  apply Head.onGen_keep (out_mono hf (by decide))
  apply Head.keep_w (out_fin hf StepReg.GSTATE _ (by decide))
  exact hx3

/-- What Head.refreshHeld may write. -/
def Head.refreshHeld_keys : List (Nat × Nat) :=
  [(6291968, 6291972), (6291979, 6292097), (6292103, 6292105), (6294016, 6294145), (6300160, 6300164), (6300171, 6300289), (6300295, 6300297), (6302208, 6302337)]

theorem Head.refreshHeld_keep (hf : outKeys Head.refreshHeld_keys f₀.key = true) {x : Head} (hs : x.r f₀ = v₀) : (Head.refreshHeld x).r f₀ = v₀ := by
  unfold Head.refreshHeld
  apply Head.keep_foldl
  · exact hs
  · intro _ _ hu1
    extract_lets +onlyGivenNames -merge -useContext -lift x2
    apply Head.keep_ite
    · apply Head.keep_ite
      · exact hu1
      · extract_lets +onlyGivenNames -merge -useContext -lift x3
        have hx3 : x3.r f₀ = v₀ := by
          unfold x3
          apply Head.keep_ite
          · exact hu1
          · apply Head.genEnd_keep (out_mono hf (by decide))
            exact hu1
        apply Head.keep_put (out_fin hf StepReg.TRIM_ACTIVE _ (by decide))
        apply Head.keep_w (out_fin hf StepReg.TRIM _ (by decide))
        apply Head.keep_w (out_fin hf StepReg.A_FF _ (by decide))
        apply Head.keep_w (out_fin hf StepReg.GSTATE _ (by decide))
        exact hx3
    · apply Head.keep_ite
      · apply Head.keep_w (out_fin hf StepReg.GSTATE _ (by decide))
        exact hu1
      · exact hu1

theorem Head.spinTo_keep (hf : outKeys [(4194432, 4194433), (4194436, 4194437), (4194560, 4194561)] f₀.key = true) (st : ℕ) {x : Head} (hs : x.r f₀ = v₀) : (Head.spinTo st x).r f₀ = v₀ := by
  unfold Head.spinTo
  extract_lets +onlyGivenNames -merge -useContext -lift x1
  extract_lets +onlyGivenNames -merge -useContext -lift x2
  have hx2 : x2.r f₀ = v₀ := by
    unfold x2
    apply Head.keep_ite
    · apply Head.keep_flag (out_ne hf (by decide))
      exact hs
    · exact hs
  extract_lets +onlyGivenNames -merge -useContext -lift x3
  have hx3 : x3.r f₀ = v₀ := by
    unfold x3
    apply Head.keep_ite
    · apply Head.keep_put (out_ne hf (by decide))
      exact hx2
    · exact hx2
  extract_lets +onlyGivenNames -merge -useContext -lift y4_0 x4
  have hx4 : x4.r f₀ = v₀ := by
    unfold x4
    apply Head.keep_record
    exact hx3
  apply Head.keep_w (out_ne hf (by decide))
  exact hx4

/-- What Head.driveLoopsOff may write. -/
def Head.driveLoopsOff_keys : List (Nat × Nat) :=
  [(2107392, 2107393), (2107520, 2107521), (2107648, 2107649), (2107776, 2107777), (2107904, 2107905), (2108032, 2108033), (2108160, 2108161), (2108288, 2108289), (2108416, 2108417), (2108544, 2108545), (2108672, 2108673), (2108800, 2108801), (2108928, 2108929), (2109056, 2109057), (2109184, 2109185), (2109312, 2109313), (2109440, 2109441), (2109568, 2109569), (2109696, 2109697), (2109824, 2109825), (2109952, 2109953), (2110080, 2110081), (2110208, 2110209), (2110336, 2110337)]

theorem Head.driveLoopsOff_keep (hf : outKeys Head.driveLoopsOff_keys f₀.key = true) {x : Head} (hs : x.r f₀ = v₀) : (Head.driveLoopsOff x).r f₀ = v₀ := by
  unfold Head.driveLoopsOff
  apply Head.loopEnable_keep (out_mono hf (by decide))
  apply Head.loopEnable_keep (out_mono hf (by decide))
  apply Head.loopEnable_keep (out_mono hf (by decide))
  exact hs

/-- What Head.chopOn may write. -/
def Head.chopOn_keys : List (Nat × Nat) :=
  [(2107392, 2107393), (2107520, 2107521), (2107648, 2107649), (2107776, 2107777), (2107904, 2107905), (2108032, 2108033), (2108160, 2108161), (2108288, 2108289), (2108416, 2108417), (2108544, 2108545), (2108672, 2108673), (2108800, 2108801), (2108928, 2108929), (2109056, 2109057), (2109184, 2109185), (2109312, 2109313), (2109440, 2109441), (2109568, 2109569), (2109696, 2109697), (2109824, 2109825), (2109952, 2109953), (2110080, 2110081), (2110208, 2110209), (2110336, 2110337), (2110464, 2113409)]

theorem Head.chopOn_keep (hf : outKeys Head.chopOn_keys f₀.key = true) {x : Head} (hs : x.r f₀ = v₀) : (Head.chopOn x).r f₀ = v₀ := by
  unfold Head.chopOn
  extract_lets +onlyGivenNames -merge -useContext -lift x1
  apply Head.keep_ite
  · exact hs
  · apply Head.loopEnable_keep (out_mono hf (by decide))
    apply Head.loopRef_keep (out_mono hf (by decide))
    exact hs

theorem Head.catchFails_keep (hf : outKeys [(4194441, 4194442), (4194444, 4194445), (4194562, 4194563)] f₀.key = true) (code : ℕ) {x : Head} (hs : x.r f₀ = v₀) : (Head.catchFails code x).r f₀ = v₀ := by
  unfold Head.catchFails
  apply Head.keep_ite
  · apply Head.keep_w (out_ne hf (by decide))
    apply Head.keep_flag (out_ne hf (by decide))
    apply Head.keep_put (out_ne hf (by decide))
    exact hs
  · exact hs

theorem Head.probeDrop_keep (hf : outKeys [] f₀.key = true) {x : Head} (hs : x.r f₀ = v₀) : (Head.probeDrop x).r f₀ = v₀ := by
  unfold Head.probeDrop
  apply Head.keep_ite
  · apply Head.keep_record
    exact hs
  · exact hs

/-- What Head.driveSafe may write. -/
def Head.driveSafe_keys : List (Nat × Nat) :=
  [(2107392, 2107393), (2107520, 2107521), (2107648, 2107649), (2107776, 2107777), (2107904, 2107905), (2108032, 2108033), (2108160, 2108161), (2108288, 2108289), (2108416, 2108417), (2108544, 2108545), (2108672, 2108673), (2108800, 2108801), (2108928, 2108929), (2109056, 2109057), (2109184, 2109185), (2109312, 2109313), (2109440, 2109441), (2109568, 2109569), (2109696, 2109697), (2109824, 2109825), (2109952, 2109953), (2110080, 2110081), (2110208, 2110209), (2110336, 2110337), (4194432, 4194433), (4194436, 4194437), (4194441, 4194442), (4194444, 4194561), (4194562, 4194563)]

theorem Head.driveSafe_keep (hf : outKeys Head.driveSafe_keys f₀.key = true) {x : Head} (hs : x.r f₀ = v₀) : (Head.driveSafe x).r f₀ = v₀ := by
  unfold Head.driveSafe
  apply Head.keep_ite
  · exact hs
  · extract_lets +onlyGivenNames -merge -useContext -lift x1
    have hx1 : x1.r f₀ = v₀ := by
      unfold x1
      apply Head.probeDrop_keep (out_mono hf (by decide))
      apply Head.keep_ite
      · apply Head.keep_w (out_ne hf (by decide))
        exact hs
      · exact hs
    extract_lets +onlyGivenNames -merge -useContext -lift x2
    have hx2 : x2.r f₀ = v₀ := by
      unfold x2
      apply Head.catchFails_keep (out_mono hf (by decide))
      apply Head.loopEnable_keep (out_mono hf (by decide))
      apply Head.driveLoopsOff_keep (out_mono hf (by decide))
      exact hx1
    extract_lets +onlyGivenNames -merge -useContext -lift x3
    extract_lets +onlyGivenNames -merge -useContext -lift x4
    have hx4 : x4.r f₀ = v₀ := by
      unfold x4
      apply Head.keep_record
      exact hx2
    apply Head.spinTo_keep (out_mono hf (by decide))
    exact hx4

/-- What Head.driveRelease may write. -/
def Head.driveRelease_keys : List (Nat × Nat) :=
  [(2107392, 2107393), (2107520, 2107521), (2107648, 2107649), (2107776, 2107777), (2107904, 2107905), (2108032, 2108033), (2108160, 2108161), (2108288, 2108289), (2108416, 2108417), (2108544, 2108545), (2108672, 2108673), (2108800, 2108801), (2108928, 2108929), (2109056, 2109057), (2109184, 2109185), (2109312, 2109313), (2109440, 2109441), (2109568, 2109569), (2109696, 2109697), (2109824, 2109825), (2109952, 2109953), (2110080, 2110081), (2110208, 2110209), (2110336, 2110337), (2110464, 2113409), (4194432, 4194433), (4194436, 4194437), (4194560, 4194561)]

theorem Head.driveRelease_keep (hf : outKeys Head.driveRelease_keys f₀.key = true) {x : Head} (hs : x.r f₀ = v₀) : (Head.driveRelease x).r f₀ = v₀ := by
  unfold Head.driveRelease
  apply Head.keep_ite
  · apply Head.chopOn_keep (out_mono hf (by decide))
    apply Head.spinTo_keep (out_mono hf (by decide))
    exact hs
  · exact hs

theorem Head.cmdEnd_keep (hf : outKeys [(2113808, 2113814), (2113921, 2113923)] f₀.key = true) (code : ℕ) {x : Head} (hs : x.r f₀ = v₀) : (Head.cmdEnd code x).r f₀ = v₀ := by
  unfold Head.cmdEnd
  apply Head.keep_ite
  · extract_lets +onlyGivenNames -merge -useContext -lift x1
    have hx1 : x1.r f₀ = v₀ := by
      unfold x1
      apply Head.keep_flag (key_ne_ite (out_ne hf (by decide)) (out_ne hf (by decide)))
      apply Head.keep_w (out_ne hf (by decide))
      apply Head.keep_put (out_ne hf (by decide))
      exact hs
    apply Head.keep_record
    exact hx1
  · exact hs

/-- What Head.slot1Off may write. -/
def Head.slot1Off_keys : List (Nat × Nat) :=
  [(2098438, 2098439), (2098440, 2098441), (2105344, 2105345), (2105352, 2105359), (2105735, 2105736), (2105984, 2105985), (2113792, 2113793), (2113920, 2113921), (8388742, 8388743), (8454278, 8454279), (8519814, 8519815), (8585350, 8585351), (8650886, 8650887), (8716422, 8716423), (8781958, 8781959), (8847494, 8847495), (8913030, 8913031), (8978566, 8978567), (9044102, 9044103), (9109638, 9109639), (9175174, 9175175), (9240710, 9240711), (9306246, 9306247), (9371782, 9371783), (9437318, 9437319), (9502854, 9502855), (9568390, 9568391), (9633926, 9633927), (9699462, 9699463), (9764998, 9764999), (9830534, 9830535), (9896070, 9896071), (9961606, 9961607), (10027142, 10027143), (10092678, 10092679), (10158214, 10158215), (10223750, 10223751), (10289286, 10289287), (10354822, 10354823), (10420358, 10420359), (10485894, 10485895), (12583040, 12583041), (12583169, 12583170)]

theorem Head.slot1Off_keep (hf : outKeys Head.slot1Off_keys f₀.key = true) (c : Ctx) (keep : Bool) {x : Head} (hs : x.r f₀ = v₀) : (Head.slot1Off c keep x).r f₀ = v₀ := by
  unfold Head.slot1Off
  extract_lets +onlyGivenNames -merge -useContext -lift x1
  extract_lets +onlyGivenNames -merge -useContext -lift x2
  extract_lets +onlyGivenNames -merge -useContext -lift x3
  have hx3 : x3.r f₀ = v₀ := by
    unfold x3
    apply Head.keep_put (out_ne hf (by decide))
    apply Head.keep_put (out_ne hf (by decide))
    exact hs
  extract_lets +onlyGivenNames -merge -useContext -lift x4
  extract_lets +onlyGivenNames -merge -useContext -lift x5
  extract_lets +onlyGivenNames -merge -useContext -lift x6
  have hx6 : x6.r f₀ = v₀ := by
    unfold x6
    apply Head.keep_record
    exact hx3
  extract_lets +onlyGivenNames -merge -useContext -lift x7
  have hx7 : x7.r f₀ = v₀ := by
    unfold x7
    apply Head.keep_ite
    · apply Head.abortFrames_keep (out_mono hf (by decide))
      exact hx6
    · exact hx6
  apply Head.keep_ite
  · apply Head.writeAbort_keep (out_mono hf (by decide))
    exact hx7
  · exact hx7

/-- What Head.stopSlot1 may write. -/
def Head.stopSlot1_keys : List (Nat × Nat) :=
  [(2098438, 2098439), (2098440, 2098441), (2105344, 2105345), (2105352, 2105359), (2105735, 2105736), (2105984, 2105985), (2113792, 2113793), (2113920, 2113921), (8388742, 8388743), (8454278, 8454279), (8519814, 8519815), (8585350, 8585351), (8650886, 8650887), (8716422, 8716423), (8781958, 8781959), (8847494, 8847495), (8913030, 8913031), (8978566, 8978567), (9044102, 9044103), (9109638, 9109639), (9175174, 9175175), (9240710, 9240711), (9306246, 9306247), (9371782, 9371783), (9437318, 9437319), (9502854, 9502855), (9568390, 9568391), (9633926, 9633927), (9699462, 9699463), (9764998, 9764999), (9830534, 9830535), (9896070, 9896071), (9961606, 9961607), (10027142, 10027143), (10092678, 10092679), (10158214, 10158215), (10223750, 10223751), (10289286, 10289287), (10354822, 10354823), (10420358, 10420359), (10485894, 10485895), (12583040, 12583041), (12583169, 12583170)]

theorem Head.stopSlot1_keep (hf : outKeys Head.stopSlot1_keys f₀.key = true) (c : Ctx) {x : Head} (hs : x.r f₀ = v₀) : (Head.stopSlot1 c x).r f₀ = v₀ := by
  unfold Head.stopSlot1
  apply Head.slot1Off_keep (out_mono hf (by decide))
  exact hs

/-- What Head.refreshInhibit may write. -/
def Head.refreshInhibit_keys : List (Nat × Nat) :=
  [(2105344, 2105345), (2105352, 2105359), (2105735, 2105736), (2105984, 2105985), (2113792, 2113793), (2113803, 2113804), (2113920, 2113921), (2113932, 2113933), (2118544, 2118545), (12583040, 12583041), (12583169, 12583170)]

theorem Head.refreshInhibit_keep (hf : outKeys Head.refreshInhibit_keys f₀.key = true) (c : Ctx) {x : Head} (hs : x.r f₀ = v₀) : (Head.refreshInhibit c x).r f₀ = v₀ := by
  unfold Head.refreshInhibit
  extract_lets +onlyGivenNames -merge -useContext -lift x1
  extract_lets +onlyGivenNames -merge -useContext -lift x2
  extract_lets +onlyGivenNames -merge -useContext -lift x3
  have hx3 : x3.r f₀ = v₀ := by
    unfold x3
    apply Head.keep_put (out_ne hf (by decide))
    exact hs
  apply Head.keep_ite
  · extract_lets +onlyGivenNames -merge -useContext -lift x4
    have hx4 : x4.r f₀ = v₀ := by
      unfold x4
      apply Head.keep_bump (out_ne hf (by decide))
      apply Head.keep_flag (out_ne hf (by decide))
      exact hx3
    apply Head.writeAbort_keep (out_mono hf (by decide))
    exact hx4
  · exact hx3

theorem Head.refreshHold_keep (hf : outKeys [(2105362, 2105363), (2118528, 2118529)] f₀.key = true) (c : Ctx) {x : Head} (hs : x.r f₀ = v₀) : (Head.refreshHold c x).r f₀ = v₀ := by
  unfold Head.refreshHold
  extract_lets +onlyGivenNames -merge -useContext -lift x1
  extract_lets +onlyGivenNames -merge -useContext -lift y2_0 x2
  have hx2 : x2.r f₀ = v₀ := by
    unfold x2
    apply Head.keep_ite
    · exact hs
    · apply Head.keep_record
      exact hs
  extract_lets +onlyGivenNames -merge -useContext -lift x3
  apply Head.keep_ite
  · extract_lets +onlyGivenNames -merge -useContext -lift y4_0 x4
    have hx4 : x4.r f₀ = v₀ := by
      unfold x4
      apply Head.keep_record
      exact hx2
    apply Head.keep_bump (out_ne hf (by decide))
    apply Head.keep_put (out_ne hf (by decide))
    exact hx4
  · apply Head.keep_ite
    · apply Head.keep_put (out_ne hf (by decide))
      exact hx2
    · exact hx2

theorem Head.sampleBanks_keep (hf : outKeys [] f₀.key = true) (c : Ctx) {x : Head} (hs : x.r f₀ = v₀) : (Head.sampleBanks c x).r f₀ = v₀ := by
  unfold Head.sampleBanks
  apply Head.keep_record
  exact hs

theorem Head.actsLoose_keep (hf : outKeys [] f₀.key = true) (c : Ctx) {x : Head} (hs : x.r f₀ = v₀) : (Head.actsLoose c x).r f₀ = v₀ := by
  unfold Head.actsLoose
  extract_lets +onlyGivenNames -merge -useContext -lift x1
  extract_lets +onlyGivenNames -merge -useContext -lift x2
  apply Head.keep_foldl
  · apply Head.keep_record
    exact hs
  · intro _ _ hu3
    apply Head.act_keep (out_mono hf (by decide))
    exact hu3

/-- What Head.refresh may write. -/
def Head.refresh_keys : List (Nat × Nat) :=
  [(2105344, 2105345), (2105352, 2105363), (2105735, 2105736), (2105984, 2105985), (2106246, 2106247), (2113792, 2113793), (2113803, 2113804), (2113920, 2113921), (2113932, 2113933), (2118528, 2118545), (6291968, 6291972), (6291979, 6292097), (6292103, 6292105), (6294016, 6294145), (6300160, 6300164), (6300171, 6300289), (6300295, 6300297), (6302208, 6302337), (12583040, 12583041), (12583169, 12583170), (14680074, 14680193), (14680320, 14680322)]

theorem Head.refresh_keep (hf : outKeys Head.refresh_keys f₀.key = true) (c : Ctx) {x : Head} (hs : x.r f₀ = v₀) : (Head.refresh c x).r f₀ = v₀ := by
  unfold Head.refresh
  apply Head.calCheck_keep (out_mono hf (by decide))
  apply Head.refreshHeld_keep (out_mono hf (by decide))
  apply Head.refreshInhibit_keep (out_mono hf (by decide))
  apply Head.refreshHold_keep (out_mono hf (by decide))
  apply Head.sampleBanks_keep (out_mono hf (by decide))
  apply Head.refreshMode_keep (out_mono hf (by decide))
  apply Head.writeSettle_keep (out_mono hf (by decide))
  apply Head.actsLoose_keep (out_mono hf (by decide))
  exact hs

/-- What Head.setHstate may write. -/
def Head.setHstate_keys : List (Nat × Nat) :=
  [(2107392, 2107393), (2107520, 2107521), (2107648, 2107649), (2107776, 2107777), (2107904, 2107905), (2108032, 2108033), (2108160, 2108161), (2108288, 2108289), (2108416, 2108417), (2108544, 2108545), (2108672, 2108673), (2108800, 2108801), (2108928, 2108929), (2109056, 2109057), (2109184, 2109185), (2109312, 2109313), (2109440, 2109441), (2109568, 2109569), (2109696, 2109697), (2109824, 2109825), (2109952, 2109953), (2110080, 2110081), (2110208, 2110209), (2110336, 2110337), (2110464, 2113409), (2113792, 2113793), (2113920, 2113921), (4194432, 4194433), (4194436, 4194437), (4194441, 4194442), (4194444, 4194561), (4194562, 4194563)]

theorem Head.setHstate_keep (hf : outKeys Head.setHstate_keys f₀.key = true) (st : ℕ) {x : Head} (hs : x.r f₀ = v₀) : (Head.setHstate st x).r f₀ = v₀ := by
  unfold Head.setHstate
  extract_lets +onlyGivenNames -merge -useContext -lift x1
  extract_lets +onlyGivenNames -merge -useContext -lift x2
  have hx2 : x2.r f₀ = v₀ := by
    unfold x2
    apply Head.keep_ite
    · exact hs
    · apply Head.keep_flag (out_ne hf (by decide))
      apply Head.keep_w (out_ne hf (by decide))
      exact hs
  apply Head.keep_ite
  · apply Head.driveSafe_keep (out_mono hf (by decide))
    exact hx2
  · apply Head.keep_ite
    · apply Head.driveRelease_keep (out_mono hf (by decide))
      exact hx2
    · exact hx2

theorem Head.landAct_keep (hf : outKeys [] f₀.key = true) (c : Ctx) (out : ℕ) (v : ℤ) {x : Head} (hs : x.r f₀ = v₀) : (Head.landAct c out v x).r f₀ = v₀ := by
  unfold Head.landAct
  extract_lets +onlyGivenNames -merge -useContext -lift x1
  apply Head.keep_ite
  · apply Head.keep_record
    exact hs
  · apply Head.act_keep (out_mono hf (by decide))
    exact hs

/-- What Head.managedOff may write. -/
def Head.managedOff_keys : List (Nat × Nat) :=
  [(2107392, 2107393), (2107520, 2107521), (2107648, 2107649), (2107776, 2107777), (2107904, 2107905), (2108032, 2108033), (2108160, 2108161), (2108288, 2108289), (2108416, 2108417), (2108544, 2108545), (2108672, 2108673), (2108800, 2108801), (2108928, 2108929), (2109056, 2109057), (2109184, 2109185), (2109312, 2109313), (2109440, 2109441), (2109568, 2109569), (2109696, 2109697), (2109824, 2109825), (2109952, 2109953), (2110080, 2110081), (2110208, 2110209), (2110336, 2110337), (2113796, 2113803)]

theorem Head.managedOff_keep (hf : outKeys Head.managedOff_keys f₀.key = true) (c : Ctx) {x : Head} (hs : x.r f₀ = v₀) : (Head.managedOff c x).r f₀ = v₀ := by
  unfold Head.managedOff
  extract_lets +onlyGivenNames -merge -useContext -lift x1
  have hx1 : x1.r f₀ = v₀ := by
    unfold x1
    apply Head.keep_foldl
    · exact hs
    · intro _ _ hu2
      apply Head.loopEnable_keep (out_mono hf (by decide))
      exact hu2
  extract_lets +onlyGivenNames -merge -useContext -lift x3
  have hx3 : x3.r f₀ = v₀ := by
    unfold x3
    apply Head.landAct_keep (out_mono hf (by decide))
    apply Head.landAct_keep (out_mono hf (by decide))
    exact hx1
  extract_lets +onlyGivenNames -merge -useContext -lift x4
  have hx4 : x4.r f₀ = v₀ := by
    unfold x4
    apply Head.keep_w (out_ne hf (by decide))
    apply Head.keep_w (out_ne hf (by decide))
    apply Head.keep_put (out_ne hf (by decide))
    exact hx3
  apply Head.keep_record
  exact hx4

/-- What Head.enterSafe may write. -/
def Head.enterSafe_keys : List (Nat × Nat) :=
  [(2098438, 2098439), (2098440, 2098441), (2105344, 2105345), (2105352, 2105363), (2105735, 2105736), (2105984, 2105985), (2106246, 2106247), (2107392, 2107393), (2107520, 2107521), (2107648, 2107649), (2107776, 2107777), (2107904, 2107905), (2108032, 2108033), (2108160, 2108161), (2108288, 2108289), (2108416, 2108417), (2108544, 2108545), (2108672, 2108673), (2108800, 2108801), (2108928, 2108929), (2109056, 2109057), (2109184, 2109185), (2109312, 2109313), (2109440, 2109441), (2109568, 2109569), (2109696, 2109697), (2109824, 2109825), (2109952, 2109953), (2110080, 2110081), (2110208, 2110209), (2110336, 2110337), (2110464, 2113409), (2113792, 2113804), (2113808, 2113814), (2113920, 2113923), (2113932, 2113933), (2118528, 2118545), (4194432, 4194433), (4194436, 4194437), (4194441, 4194442), (4194444, 4194561), (4194562, 4194563), (6291968, 6291972), (6291979, 6292097), (6292103, 6292105), (6294016, 6294145), (6300160, 6300164), (6300171, 6300289), (6300295, 6300297), (6302208, 6302337), (8388742, 8388743), (8454278, 8454279), (8519814, 8519815), (8585350, 8585351), (8650886, 8650887), (8716422, 8716423), (8781958, 8781959), (8847494, 8847495), (8913030, 8913031), (8978566, 8978567), (9044102, 9044103), (9109638, 9109639), (9175174, 9175175), (9240710, 9240711), (9306246, 9306247), (9371782, 9371783), (9437318, 9437319), (9502854, 9502855), (9568390, 9568391), (9633926, 9633927), (9699462, 9699463), (9764998, 9764999), (9830534, 9830535), (9896070, 9896071), (9961606, 9961607), (10027142, 10027143), (10092678, 10092679), (10158214, 10158215), (10223750, 10223751), (10289286, 10289287), (10354822, 10354823), (10420358, 10420359), (10485894, 10485895), (12583040, 12583041), (12583169, 12583170), (14680074, 14680193), (14680320, 14680322)]

theorem Head.enterSafe_keep (hf : outKeys Head.enterSafe_keys f₀.key = true) (c : Ctx) (lost : Bool) {x : Head} (hs : x.r f₀ = v₀) : (Head.enterSafe c lost x).r f₀ = v₀ := by
  unfold Head.enterSafe
  extract_lets +onlyGivenNames -merge -useContext -lift x1
  apply Head.keep_ite
  · exact hs
  · apply Head.refresh_keep (out_mono hf (by decide))
    apply Head.setHstate_keep (out_mono hf (by decide))
    apply Head.cmdEnd_keep (out_mono hf (by decide))
    apply Head.managedOff_keep (out_mono hf (by decide))
    apply Head.slot1Off_keep (out_mono hf (by decide))
    exact hs

theorem Head.safeKept_keep (hf : outKeys [] f₀.key = true) (c : Ctx) (cause : ℕ) {x : Head} (hs : x.r f₀ = v₀) : (Head.safeKept c cause x).r f₀ = v₀ := by
  unfold Head.safeKept
  apply Head.keep_record
  exact hs

/-- What Head.safeCause may write. -/
def Head.safeCause_keys : List (Nat × Nat) :=
  [(148, 149), (2098438, 2098439), (2098440, 2098441), (2105344, 2105345), (2105352, 2105363), (2105735, 2105736), (2105984, 2105985), (2106246, 2106247), (2107392, 2107393), (2107520, 2107521), (2107648, 2107649), (2107776, 2107777), (2107904, 2107905), (2108032, 2108033), (2108160, 2108161), (2108288, 2108289), (2108416, 2108417), (2108544, 2108545), (2108672, 2108673), (2108800, 2108801), (2108928, 2108929), (2109056, 2109057), (2109184, 2109185), (2109312, 2109313), (2109440, 2109441), (2109568, 2109569), (2109696, 2109697), (2109824, 2109825), (2109952, 2109953), (2110080, 2110081), (2110208, 2110209), (2110336, 2110337), (2110464, 2113409), (2113792, 2113804), (2113808, 2113814), (2113920, 2113923), (2113932, 2113933), (2118528, 2118545), (4194432, 4194433), (4194436, 4194437), (4194441, 4194442), (4194444, 4194561), (4194562, 4194563), (6291968, 6291972), (6291979, 6292097), (6292103, 6292105), (6294016, 6294145), (6300160, 6300164), (6300171, 6300289), (6300295, 6300297), (6302208, 6302337), (8388742, 8388743), (8454278, 8454279), (8519814, 8519815), (8585350, 8585351), (8650886, 8650887), (8716422, 8716423), (8781958, 8781959), (8847494, 8847495), (8913030, 8913031), (8978566, 8978567), (9044102, 9044103), (9109638, 9109639), (9175174, 9175175), (9240710, 9240711), (9306246, 9306247), (9371782, 9371783), (9437318, 9437319), (9502854, 9502855), (9568390, 9568391), (9633926, 9633927), (9699462, 9699463), (9764998, 9764999), (9830534, 9830535), (9896070, 9896071), (9961606, 9961607), (10027142, 10027143), (10092678, 10092679), (10158214, 10158215), (10223750, 10223751), (10289286, 10289287), (10354822, 10354823), (10420358, 10420359), (10485894, 10485895), (12583040, 12583041), (12583169, 12583170), (14680074, 14680193), (14680320, 14680322)]

theorem Head.safeCause_keep (hf : outKeys Head.safeCause_keys f₀.key = true) (c : Ctx) (cause : ℕ) {x : Head} (hs : x.r f₀ = v₀) : (Head.safeCause c cause x).r f₀ = v₀ := by
  unfold Head.safeCause
  extract_lets +onlyGivenNames -merge -useContext -lift x1
  have hx1 : x1.r f₀ = v₀ := by
    unfold x1
    apply Head.safeKept_keep (out_mono hf (by decide))
    exact hs
  apply Head.enterSafe_keep (out_mono hf (by decide))
  apply Head.writeAbort_keep (out_mono hf (by decide))
  apply Head.keep_w (out_ne hf (by decide))
  exact hx1

theorem Head.safeEnds_keep (hf : outKeys [] f₀.key = true) (cause : ℕ) {x : Head} (hs : x.r f₀ = v₀) : (Head.safeEnds cause x).r f₀ = v₀ := by
  unfold Head.safeEnds
  apply Head.keep_record
  exact hs

/-- What Head.enterFault may write. -/
def Head.enterFault_keys : List (Nat × Nat) :=
  [(148, 149), (2098438, 2098439), (2098440, 2098441), (2105344, 2105345), (2105352, 2105363), (2105735, 2105736), (2105984, 2105985), (2106246, 2106247), (2107392, 2107393), (2107520, 2107521), (2107648, 2107649), (2107776, 2107777), (2107904, 2107905), (2108032, 2108033), (2108160, 2108161), (2108288, 2108289), (2108416, 2108417), (2108544, 2108545), (2108672, 2108673), (2108800, 2108801), (2108928, 2108929), (2109056, 2109057), (2109184, 2109185), (2109312, 2109313), (2109440, 2109441), (2109568, 2109569), (2109696, 2109697), (2109824, 2109825), (2109952, 2109953), (2110080, 2110081), (2110208, 2110209), (2110336, 2110337), (2110464, 2113409), (2113792, 2113804), (2113808, 2113814), (2113920, 2113923), (2113932, 2113933), (2113935, 2113936), (2118528, 2118545), (4194432, 4194433), (4194436, 4194437), (4194441, 4194442), (4194444, 4194561), (4194562, 4194563), (6291968, 6291972), (6291979, 6292097), (6292103, 6292105), (6294016, 6294145), (6300160, 6300164), (6300171, 6300289), (6300295, 6300297), (6302208, 6302337), (8388742, 8388743), (8454278, 8454279), (8519814, 8519815), (8585350, 8585351), (8650886, 8650887), (8716422, 8716423), (8781958, 8781959), (8847494, 8847495), (8913030, 8913031), (8978566, 8978567), (9044102, 9044103), (9109638, 9109639), (9175174, 9175175), (9240710, 9240711), (9306246, 9306247), (9371782, 9371783), (9437318, 9437319), (9502854, 9502855), (9568390, 9568391), (9633926, 9633927), (9699462, 9699463), (9764998, 9764999), (9830534, 9830535), (9896070, 9896071), (9961606, 9961607), (10027142, 10027143), (10092678, 10092679), (10158214, 10158215), (10223750, 10223751), (10289286, 10289287), (10354822, 10354823), (10420358, 10420359), (10485894, 10485895), (12583040, 12583041), (12583169, 12583170), (14680074, 14680193), (14680320, 14680322)]

theorem Head.enterFault_keep (hf : outKeys Head.enterFault_keys f₀.key = true) (c : Ctx) {x : Head} (hs : x.r f₀ = v₀) : (Head.enterFault c x).r f₀ = v₀ := by
  unfold Head.enterFault
  extract_lets +onlyGivenNames -merge -useContext -lift x1
  apply Head.keep_ite
  · exact hs
  · extract_lets +onlyGivenNames -merge -useContext -lift x2
    have hx2 : x2.r f₀ = v₀ := by
      unfold x2
      apply Head.cmdEnd_keep (out_mono hf (by decide))
      apply Head.managedOff_keep (out_mono hf (by decide))
      apply Head.stopSlot1_keep (out_mono hf (by decide))
      exact hs
    extract_lets +onlyGivenNames -merge -useContext -lift x3
    have hx3 : x3.r f₀ = v₀ := by
      unfold x3
      apply Head.keep_flag (out_ne hf (by decide))
      apply Head.setHstate_keep (out_mono hf (by decide))
      exact hx2
    extract_lets +onlyGivenNames -merge -useContext -lift x4
    extract_lets +onlyGivenNames -merge -useContext -lift x5
    have hx5 : x5.r f₀ = v₀ := by
      unfold x5
      apply Head.keep_record
      exact hx3
    apply Head.refresh_keep (out_mono hf (by decide))
    apply Head.safeCause_keep (out_mono hf (by decide))
    exact hx5

theorem Head.jumpOff_keep (hf : outKeys [] f₀.key = true) {x : Head} (hs : x.r f₀ = v₀) : (Head.jumpOff x).r f₀ = v₀ := by
  unfold Head.jumpOff
  apply Head.keep_record
  exact hs

/-- What Head.toFocus may write. -/
def Head.toFocus_keys : List (Nat × Nat) :=
  [(2098438, 2098439), (2098440, 2098441), (2105344, 2105345), (2105352, 2105363), (2105735, 2105736), (2105984, 2105985), (2106246, 2106247), (2107392, 2107393), (2107520, 2107521), (2107648, 2107649), (2107776, 2107777), (2107904, 2107905), (2108032, 2108033), (2108160, 2108161), (2108288, 2108289), (2108416, 2108417), (2108544, 2108545), (2108672, 2108673), (2108800, 2108801), (2108928, 2108929), (2109056, 2109057), (2109184, 2109185), (2109312, 2109313), (2109440, 2109441), (2109568, 2109569), (2109696, 2109697), (2109824, 2109825), (2109952, 2109953), (2110080, 2110081), (2110208, 2110209), (2110336, 2110337), (2110464, 2113409), (2113792, 2113804), (2113808, 2113814), (2113920, 2113923), (2113932, 2113933), (2118528, 2118545), (4194432, 4194433), (4194436, 4194437), (4194441, 4194442), (4194444, 4194561), (4194562, 4194563), (6291968, 6291972), (6291979, 6292097), (6292103, 6292105), (6294016, 6294145), (6300160, 6300164), (6300171, 6300289), (6300295, 6300297), (6302208, 6302337), (8388742, 8388743), (8454278, 8454279), (8519814, 8519815), (8585350, 8585351), (8650886, 8650887), (8716422, 8716423), (8781958, 8781959), (8847494, 8847495), (8913030, 8913031), (8978566, 8978567), (9044102, 9044103), (9109638, 9109639), (9175174, 9175175), (9240710, 9240711), (9306246, 9306247), (9371782, 9371783), (9437318, 9437319), (9502854, 9502855), (9568390, 9568391), (9633926, 9633927), (9699462, 9699463), (9764998, 9764999), (9830534, 9830535), (9896070, 9896071), (9961606, 9961607), (10027142, 10027143), (10092678, 10092679), (10158214, 10158215), (10223750, 10223751), (10289286, 10289287), (10354822, 10354823), (10420358, 10420359), (10485894, 10485895), (12583040, 12583041), (12583169, 12583170), (14680074, 14680193), (14680320, 14680322)]

theorem Head.toFocus_keep (hf : outKeys Head.toFocus_keys f₀.key = true) (c : Ctx) (code : ℕ) {x : Head} (hs : x.r f₀ = v₀) : (Head.toFocus c code x).r f₀ = v₀ := by
  unfold Head.toFocus
  extract_lets +onlyGivenNames -merge -useContext -lift x1
  have hx1 : x1.r f₀ = v₀ := by
    unfold x1
    apply Head.stopSlot1_keep (out_mono hf (by decide))
    exact hs
  extract_lets +onlyGivenNames -merge -useContext -lift x2
  have hx2 : x2.r f₀ = v₀ := by
    unfold x2
    apply Head.loopEnable_keep (out_mono hf (by decide))
    apply Head.loopEnable_keep (out_mono hf (by decide))
    exact hx1
  extract_lets +onlyGivenNames -merge -useContext -lift x3
  have hx3 : x3.r f₀ = v₀ := by
    unfold x3
    apply Head.keep_w (out_ne hf (by decide))
    apply Head.keep_put (out_ne hf (by decide))
    apply Head.landAct_keep (out_mono hf (by decide))
    exact hx2
  extract_lets +onlyGivenNames -merge -useContext -lift x4
  have hx4 : x4.r f₀ = v₀ := by
    unfold x4
    apply Head.keep_ite
    · apply Head.jumpOff_keep (out_mono hf (by decide))
      apply Head.keep_w (out_ne hf (by decide))
      exact hx3
    · exact hx3
  extract_lets +onlyGivenNames -merge -useContext -lift x5
  extract_lets +onlyGivenNames -merge -useContext -lift x6
  have hx6 : x6.r f₀ = v₀ := by
    unfold x6
    apply Head.keep_record
    exact hx4
  apply Head.refresh_keep (out_mono hf (by decide))
  apply Head.setHstate_keep (out_mono hf (by decide))
  apply Head.cmdEnd_keep (out_mono hf (by decide))
  exact hx6

/-- What Head.toFocus0 may write. -/
def Head.toFocus0_keys : List (Nat × Nat) :=
  [(2098438, 2098439), (2098440, 2098441), (2105344, 2105345), (2105352, 2105363), (2105735, 2105736), (2105984, 2105985), (2106246, 2106247), (2107392, 2107393), (2107520, 2107521), (2107648, 2107649), (2107776, 2107777), (2107904, 2107905), (2108032, 2108033), (2108160, 2108161), (2108288, 2108289), (2108416, 2108417), (2108544, 2108545), (2108672, 2108673), (2108800, 2108801), (2108928, 2108929), (2109056, 2109057), (2109184, 2109185), (2109312, 2109313), (2109440, 2109441), (2109568, 2109569), (2109696, 2109697), (2109824, 2109825), (2109952, 2109953), (2110080, 2110081), (2110208, 2110209), (2110336, 2110337), (2110464, 2113409), (2113792, 2113804), (2113808, 2113814), (2113920, 2113923), (2113932, 2113933), (2118528, 2118545), (4194432, 4194433), (4194436, 4194437), (4194441, 4194442), (4194444, 4194561), (4194562, 4194563), (6291968, 6291972), (6291979, 6292097), (6292103, 6292105), (6294016, 6294145), (6300160, 6300164), (6300171, 6300289), (6300295, 6300297), (6302208, 6302337), (8388742, 8388743), (8454278, 8454279), (8519814, 8519815), (8585350, 8585351), (8650886, 8650887), (8716422, 8716423), (8781958, 8781959), (8847494, 8847495), (8913030, 8913031), (8978566, 8978567), (9044102, 9044103), (9109638, 9109639), (9175174, 9175175), (9240710, 9240711), (9306246, 9306247), (9371782, 9371783), (9437318, 9437319), (9502854, 9502855), (9568390, 9568391), (9633926, 9633927), (9699462, 9699463), (9764998, 9764999), (9830534, 9830535), (9896070, 9896071), (9961606, 9961607), (10027142, 10027143), (10092678, 10092679), (10158214, 10158215), (10223750, 10223751), (10289286, 10289287), (10354822, 10354823), (10420358, 10420359), (10485894, 10485895), (12583040, 12583041), (12583169, 12583170), (14680074, 14680193), (14680320, 14680322)]

theorem Head.toFocus0_keep (hf : outKeys Head.toFocus0_keys f₀.key = true) (c : Ctx) (code : ℕ) {x : Head} (hs : x.r f₀ = v₀) : (Head.toFocus0 c code x).r f₀ = v₀ := by
  unfold Head.toFocus0
  extract_lets +onlyGivenNames -merge -useContext -lift x1
  have hx1 : x1.r f₀ = v₀ := by
    unfold x1
    apply Head.lasersOff_keep (out_mono hf (by decide))
    apply Head.managedOff_keep (out_mono hf (by decide))
    apply Head.stopSlot1_keep (out_mono hf (by decide))
    exact hs
  apply Head.refresh_keep (out_mono hf (by decide))
  apply Head.setHstate_keep (out_mono hf (by decide))
  apply Head.cmdEnd_keep (out_mono hf (by decide))
  exact hx1

/-- What Head.seekFail may write. -/
def Head.seekFail_keys : List (Nat × Nat) :=
  [(2098438, 2098439), (2098440, 2098441), (2105344, 2105345), (2105352, 2105363), (2105735, 2105736), (2105984, 2105985), (2106246, 2106247), (2107392, 2107393), (2107520, 2107521), (2107648, 2107649), (2107776, 2107777), (2107904, 2107905), (2108032, 2108033), (2108160, 2108161), (2108288, 2108289), (2108416, 2108417), (2108544, 2108545), (2108672, 2108673), (2108800, 2108801), (2108928, 2108929), (2109056, 2109057), (2109184, 2109185), (2109312, 2109313), (2109440, 2109441), (2109568, 2109569), (2109696, 2109697), (2109824, 2109825), (2109952, 2109953), (2110080, 2110081), (2110208, 2110209), (2110336, 2110337), (2110464, 2113409), (2113792, 2113804), (2113808, 2113814), (2113920, 2113923), (2113932, 2113933), (2118528, 2118545), (4194432, 4194433), (4194436, 4194437), (4194441, 4194442), (4194444, 4194561), (4194562, 4194563), (6291968, 6291972), (6291979, 6292097), (6292103, 6292105), (6294016, 6294145), (6300160, 6300164), (6300171, 6300289), (6300295, 6300297), (6302208, 6302337), (8388742, 8388743), (8454278, 8454279), (8519814, 8519815), (8585350, 8585351), (8650886, 8650887), (8716422, 8716423), (8781958, 8781959), (8847494, 8847495), (8913030, 8913031), (8978566, 8978567), (9044102, 9044103), (9109638, 9109639), (9175174, 9175175), (9240710, 9240711), (9306246, 9306247), (9371782, 9371783), (9437318, 9437319), (9502854, 9502855), (9568390, 9568391), (9633926, 9633927), (9699462, 9699463), (9764998, 9764999), (9830534, 9830535), (9896070, 9896071), (9961606, 9961607), (10027142, 10027143), (10092678, 10092679), (10158214, 10158215), (10223750, 10223751), (10289286, 10289287), (10354822, 10354823), (10420358, 10420359), (10485894, 10485895), (12583040, 12583041), (12583169, 12583170), (14680074, 14680193), (14680320, 14680322)]

theorem Head.seekFail_keep (hf : outKeys Head.seekFail_keys f₀.key = true) (c : Ctx) (code : ℕ) {x : Head} (hs : x.r f₀ = v₀) : (Head.seekFail c code x).r f₀ = v₀ := by
  unfold Head.seekFail
  apply Head.toFocus_keep (out_mono hf (by decide))
  exact hs

/-- What Head.focusLost may write. -/
def Head.focusLost_keys : List (Nat × Nat) :=
  [(2098438, 2098439), (2098440, 2098441), (2105344, 2105345), (2105352, 2105363), (2105735, 2105736), (2105984, 2105985), (2106246, 2106247), (2107392, 2107393), (2107520, 2107521), (2107648, 2107649), (2107776, 2107777), (2107904, 2107905), (2108032, 2108033), (2108160, 2108161), (2108288, 2108289), (2108416, 2108417), (2108544, 2108545), (2108672, 2108673), (2108800, 2108801), (2108928, 2108929), (2109056, 2109057), (2109184, 2109185), (2109312, 2109313), (2109440, 2109441), (2109568, 2109569), (2109696, 2109697), (2109824, 2109825), (2109952, 2109953), (2110080, 2110081), (2110208, 2110209), (2110336, 2110337), (2110464, 2113409), (2113792, 2113804), (2113808, 2113814), (2113920, 2113923), (2113924, 2113925), (2113932, 2113933), (2118400, 2118401), (2118528, 2118545), (4194432, 4194433), (4194436, 4194437), (4194441, 4194442), (4194444, 4194561), (4194562, 4194563), (6291968, 6291972), (6291979, 6292097), (6292103, 6292105), (6294016, 6294145), (6300160, 6300164), (6300171, 6300289), (6300295, 6300297), (6302208, 6302337), (8388742, 8388743), (8454278, 8454279), (8519814, 8519815), (8585350, 8585351), (8650886, 8650887), (8716422, 8716423), (8781958, 8781959), (8847494, 8847495), (8913030, 8913031), (8978566, 8978567), (9044102, 9044103), (9109638, 9109639), (9175174, 9175175), (9240710, 9240711), (9306246, 9306247), (9371782, 9371783), (9437318, 9437319), (9502854, 9502855), (9568390, 9568391), (9633926, 9633927), (9699462, 9699463), (9764998, 9764999), (9830534, 9830535), (9896070, 9896071), (9961606, 9961607), (10027142, 10027143), (10092678, 10092679), (10158214, 10158215), (10223750, 10223751), (10289286, 10289287), (10354822, 10354823), (10420358, 10420359), (10485894, 10485895), (12583040, 12583041), (12583169, 12583170), (14680074, 14680193), (14680320, 14680322)]

theorem Head.focusLost_keep (hf : outKeys Head.focusLost_keys f₀.key = true) (c : Ctx) (code : ℕ) {x : Head} (hs : x.r f₀ = v₀) : (Head.focusLost c code x).r f₀ = v₀ := by
  unfold Head.focusLost
  extract_lets +onlyGivenNames -merge -useContext -lift x1
  have hx1 : x1.r f₀ = v₀ := by
    unfold x1
    apply Head.keep_bump (out_ne hf (by decide))
    apply Head.keep_flag (out_ne hf (by decide))
    exact hs
  extract_lets +onlyGivenNames -merge -useContext -lift x2
  apply Head.keep_ite
  · apply Head.toFocus0_keep (out_mono hf (by decide))
    exact hx1
  · exact hx1

/-- What Head.sledReport may write. -/
def Head.sledReport_keys : List (Nat × Nat) :=
  [(2098438, 2098439), (2098440, 2098441), (2105344, 2105345), (2105352, 2105363), (2105735, 2105736), (2105984, 2105985), (2106246, 2106247), (2107392, 2107393), (2107520, 2107521), (2107648, 2107649), (2107776, 2107777), (2107904, 2107905), (2108032, 2108033), (2108160, 2108161), (2108288, 2108289), (2108416, 2108417), (2108544, 2108545), (2108672, 2108673), (2108800, 2108801), (2108928, 2108929), (2109056, 2109057), (2109184, 2109185), (2109312, 2109313), (2109440, 2109441), (2109568, 2109569), (2109696, 2109697), (2109824, 2109825), (2109952, 2109953), (2110080, 2110081), (2110208, 2110209), (2110336, 2110337), (2110464, 2113409), (2113792, 2113804), (2113808, 2113814), (2113920, 2113923), (2113932, 2113933), (2118528, 2118545), (4194432, 4194433), (4194436, 4194437), (4194441, 4194442), (4194444, 4194561), (4194562, 4194563), (6291968, 6291972), (6291979, 6292097), (6292103, 6292105), (6294016, 6294145), (6300160, 6300164), (6300171, 6300289), (6300295, 6300297), (6302208, 6302337), (8388742, 8388743), (8454278, 8454279), (8519814, 8519815), (8585350, 8585351), (8650886, 8650887), (8716422, 8716423), (8781958, 8781959), (8847494, 8847495), (8913030, 8913031), (8978566, 8978567), (9044102, 9044103), (9109638, 9109639), (9175174, 9175175), (9240710, 9240711), (9306246, 9306247), (9371782, 9371783), (9437318, 9437319), (9502854, 9502855), (9568390, 9568391), (9633926, 9633927), (9699462, 9699463), (9764998, 9764999), (9830534, 9830535), (9896070, 9896071), (9961606, 9961607), (10027142, 10027143), (10092678, 10092679), (10158214, 10158215), (10223750, 10223751), (10289286, 10289287), (10354822, 10354823), (10420358, 10420359), (10485894, 10485895), (12583040, 12583041), (12583169, 12583170), (14680074, 14680193), (14680320, 14680322)]

theorem Head.sledReport_keep (hf : outKeys Head.sledReport_keys f₀.key = true) (c : Ctx) (done : Bool) {x : Head} (hs : x.r f₀ = v₀) : (Head.sledReport c done x).r f₀ = v₀ := by
  unfold Head.sledReport
  apply Head.keep_ite
  · apply Head.keep_ite
    · apply Head.refresh_keep (out_mono hf (by decide))
      extract_lets +onlyGivenNames -merge -useContext -lift x1
      have hx1 : x1.r f₀ = v₀ := by
        unfold x1
        apply Head.keep_w (out_ne hf (by decide))
        exact hs
      apply Head.keep_record
      exact hx1
    · apply Head.seekFail_keep (out_mono hf (by decide))
      exact hs
  · exact hs

/-- What Head.genDone may write. -/
def Head.genDone_keys : List (Nat × Nat) :=
  [(2098438, 2098439), (2098440, 2098441), (2105344, 2105345), (2105352, 2105363), (2105735, 2105736), (2105984, 2105985), (2106246, 2106247), (2107392, 2107393), (2107520, 2107521), (2107648, 2107649), (2107776, 2107777), (2107904, 2107905), (2108032, 2108033), (2108160, 2108161), (2108288, 2108289), (2108416, 2108417), (2108544, 2108545), (2108672, 2108673), (2108800, 2108801), (2108928, 2108929), (2109056, 2109057), (2109184, 2109185), (2109312, 2109313), (2109440, 2109441), (2109568, 2109569), (2109696, 2109697), (2109824, 2109825), (2109952, 2109953), (2110080, 2110081), (2110208, 2110209), (2110336, 2110337), (2110464, 2113409), (2113792, 2113804), (2113808, 2113814), (2113920, 2113923), (2113932, 2113933), (2118528, 2118545), (4194432, 4194433), (4194436, 4194437), (4194441, 4194442), (4194444, 4194561), (4194562, 4194563), (6291968, 6291974), (6291979, 6292097), (6292103, 6292105), (6294016, 6294145), (6300160, 6300166), (6300171, 6300289), (6300295, 6300297), (6302208, 6302337), (8388742, 8388743), (8454278, 8454279), (8519814, 8519815), (8585350, 8585351), (8650886, 8650887), (8716422, 8716423), (8781958, 8781959), (8847494, 8847495), (8913030, 8913031), (8978566, 8978567), (9044102, 9044103), (9109638, 9109639), (9175174, 9175175), (9240710, 9240711), (9306246, 9306247), (9371782, 9371783), (9437318, 9437319), (9502854, 9502855), (9568390, 9568391), (9633926, 9633927), (9699462, 9699463), (9764998, 9764999), (9830534, 9830535), (9896070, 9896071), (9961606, 9961607), (10027142, 10027143), (10092678, 10092679), (10158214, 10158215), (10223750, 10223751), (10289286, 10289287), (10354822, 10354823), (10420358, 10420359), (10485894, 10485895), (12583040, 12583041), (12583169, 12583170), (14680074, 14680193), (14680320, 14680322)]

theorem Head.genDone_keep (hf : outKeys Head.genDone_keys f₀.key = true) (c : Ctx) (g : Fin 2) (code : ℕ) {x : Head} (hs : x.r f₀ = v₀) : (Head.genDone c g code x).r f₀ = v₀ := by
  unfold Head.genDone
  extract_lets +onlyGivenNames -merge -useContext -lift x1
  extract_lets +onlyGivenNames -merge -useContext -lift x2
  have hx2 : x2.r f₀ = v₀ := by
    unfold x2
    apply Head.keep_put (out_fin hf StepReg.OWNER _ (by decide))
    apply Head.genEnd_keep (out_mono hf (by decide))
    exact hs
  apply Head.keep_ite
  · apply Head.sledReport_keep (out_mono hf (by decide))
    exact hx2
  · exact hx2

theorem Head.syncTurn_keep (hf : outKeys [] f₀.key = true) {x : Head} (stepped : Bool) (p : ℤ) (hs : x.r f₀ = v₀) : (Head.syncTurn x stepped p).r f₀ = v₀ := by
  unfold Head.syncTurn
  extract_lets +onlyGivenNames -merge -useContext -lift x1
  apply Head.keep_ite
  · apply Head.keep_record
    exact hs
  · exact hs

theorem Head.onSlotOf_keep (hf : outKeys [] f₀.key = true) (n : ℕ) (f : Slot → Slot) {x : Head} (hs : x.r f₀ = v₀) : (Head.onSlotOf n f x).r f₀ = v₀ := by
  unfold Head.onSlotOf
  apply Head.keep_ite
  · apply Head.keep_record
    exact hs
  · apply Head.keep_record
    exact hs

theorem Head.markDone_keep (hf : outKeys [] f₀.key = true) (f : Fire) {x : Head} (hs : x.r f₀ = v₀) : (Head.markDone f x).r f₀ = v₀ := by
  unfold Head.markDone
  apply Head.onSlotOf_keep (out_mono hf (by decide))
  exact hs

theorem Head.skip_keep (hf : outKeys [(2098051, 2098052), (2098176, 2098177)] f₀.key = true) (n : ℕ) {x : Head} (hs : x.r f₀ = v₀) : (Head.skip n x).r f₀ = v₀ := by
  unfold Head.skip
  apply Head.keep_ite
  · exact hs
  · apply Head.keep_flag (out_ne hf (by decide))
    apply Head.keep_bump (out_ne hf (by decide))
    exact hs

theorem Head.dropBad_keep (hf : outKeys [(2098051, 2098052), (2098176, 2098177)] f₀.key = true) (c : Ctx) {x : Head} (hs : x.r f₀ = v₀) : (Head.dropBad c x).r f₀ = v₀ := by
  unfold Head.dropBad
  extract_lets +onlyGivenNames -merge -useContext -lift x1
  apply Head.skip_keep (out_mono hf (by decide))
  apply Head.keep_foldl
  · exact hs
  · intro _ _ hu2
    apply Head.markDone_keep (out_mono hf (by decide))
    exact hu2

theorem Head.trackChange_keep (hf : outKeys [] f₀.key = true) (c : Ctx) {x : Head} (hs : x.r f₀ = v₀) : (Head.trackChange c x).r f₀ = v₀ := by
  unfold Head.trackChange
  extract_lets +onlyGivenNames -merge -useContext -lift x1
  apply Head.keep_record
  exact hs

theorem Head.stepPos_keep (hf : outKeys [(2098051, 2098052), (2098176, 2098177)] f₀.key = true) (c : Ctx) (d : ℤ) {x : Head} (hs : x.r f₀ = v₀) : (Head.stepPos c d x).r f₀ = v₀ := by
  unfold Head.stepPos
  extract_lets +onlyGivenNames -merge -useContext -lift x1
  have hx1 : x1.r f₀ = v₀ := by
    unfold x1
    apply Head.trackChange_keep (out_mono hf (by decide))
    exact hs
  extract_lets +onlyGivenNames -merge -useContext -lift x2
  extract_lets +onlyGivenNames -merge -useContext -lift x3
  extract_lets +onlyGivenNames -merge -useContext -lift x4
  have hx4 : x4.r f₀ = v₀ := by
    unfold x4
    apply Head.skip_keep (out_mono hf (by decide))
    apply Head.keep_foldl
    · exact hx1
    · intro _ _ hu5
      apply Head.markDone_keep (out_mono hf (by decide))
      exact hu5
  extract_lets +onlyGivenNames -merge -useContext -lift x6
  extract_lets +onlyGivenNames -merge -useContext -lift x7
  have hx7 : x7.r f₀ = v₀ := by
    unfold x7
    apply Head.keep_record
    exact hx4
  apply Head.syncTurn_keep (out_mono hf (by decide))
  exact hx7

/-- What Head.motorSample may write. -/
def Head.motorSample_keys : List (Nat × Nat) :=
  [(2097176, 2097177), (2097178, 2097179), (2097664, 2097665), (2098051, 2098052), (2098176, 2098177)]

theorem Head.motorSample_keep (hf : outKeys Head.motorSample_keys f₀.key = true) (c : Ctx) (m : ℕ) (tk : ℕ) {x : Head} (hs : x.r f₀ = v₀) : (Head.motorSample c m tk x).r f₀ = v₀ := by
  unfold Head.motorSample
  apply Head.keep_ite
  · exact hs
  · extract_lets +onlyGivenNames -merge -useContext -lift x1
    extract_lets +onlyGivenNames -merge -useContext -lift x2
    extract_lets +onlyGivenNames -merge -useContext -lift x3
    have hx3 : x3.r f₀ = v₀ := by
      unfold x3
      apply Head.keep_record
      exact hs
    extract_lets +onlyGivenNames -merge -useContext -lift x4
    have hx4 : x4.r f₀ = v₀ := by
      unfold x4
      apply Head.keep_put (out_ne hf (by decide))
      exact hx3
    apply Head.keep_ite
    · extract_lets +onlyGivenNames -merge -useContext -lift x5
      extract_lets +onlyGivenNames -merge -useContext -lift x6
      have hx6 : x6.r f₀ = v₀ := by
        unfold x6
        apply Head.keep_record
        exact hx4
      extract_lets +onlyGivenNames -merge -useContext -lift x7
      extract_lets +onlyGivenNames -merge -useContext -lift x8
      have hx8 : x8.r f₀ = v₀ := by
        unfold x8
        apply Head.keep_record
        exact hx6
      apply Head.stepPos_keep (out_mono hf (by decide))
      exact hx8
    · extract_lets +onlyGivenNames -merge -useContext -lift x9
      apply Head.keep_ite
      · extract_lets +onlyGivenNames -merge -useContext -lift x10
        have hx10 : x10.r f₀ = v₀ := by
          unfold x10
          apply Head.trackChange_keep (out_mono hf (by decide))
          exact hx4
        extract_lets +onlyGivenNames -merge -useContext -lift x11
        extract_lets +onlyGivenNames -merge -useContext -lift x12
        have hx12 : x12.r f₀ = v₀ := by
          unfold x12
          apply Head.keep_wi (out_ne hf (by decide))
          exact hx10
        extract_lets +onlyGivenNames -merge -useContext -lift x13
        extract_lets +onlyGivenNames -merge -useContext -lift x14
        have hx14 : x14.r f₀ = v₀ := by
          unfold x14
          apply Head.keep_record
          exact hx12
        apply Head.syncTurn_keep (out_mono hf (by decide))
        apply Head.keep_put (out_ne hf (by decide))
        exact hx14
      · extract_lets +onlyGivenNames -merge -useContext -lift x15
        have hx15 : x15.r f₀ = v₀ := by
          unfold x15
          apply Head.trackChange_keep (out_mono hf (by decide))
          exact hx4
        extract_lets +onlyGivenNames -merge -useContext -lift x16
        extract_lets +onlyGivenNames -merge -useContext -lift x17
        extract_lets +onlyGivenNames -merge -useContext -lift x18
        extract_lets +onlyGivenNames -merge -useContext -lift x19
        extract_lets +onlyGivenNames -merge -useContext -lift x20
        have hx20 : x20.r f₀ = v₀ := by
          unfold x20
          apply Head.keep_wi (out_ne hf (by decide))
          exact hx15
        extract_lets +onlyGivenNames -merge -useContext -lift x21
        extract_lets +onlyGivenNames -merge -useContext -lift x22
        have hx22 : x22.r f₀ = v₀ := by
          unfold x22
          apply Head.keep_record
          exact hx20
        apply Head.syncTurn_keep (out_mono hf (by decide))
        exact hx22

theorem Head.motorMissing_keep (hf : outKeys [] f₀.key = true) {x : Head} (hs : x.r f₀ = v₀) : (Head.motorMissing x).r f₀ = v₀ := by
  unfold Head.motorMissing
  apply Head.keep_record
  exact hs

theorem Head.anchor_keep (hf : outKeys [] f₀.key = true) (c : Ctx) {x : Head} (hs : x.r f₀ = v₀) : (Head.anchor c x).r f₀ = v₀ := by
  unfold Head.anchor
  apply Head.keep_record
  exact hs

theorem Head.frameBoundary_keep (hf : outKeys [(2097176, 2097179), (2097664, 2097665)] f₀.key = true) (c : Ctx) (timeValid : Bool) {x : Head} (hs : x.r f₀ = v₀) : (Head.frameBoundary c timeValid x).r f₀ = v₀ := by
  unfold Head.frameBoundary
  apply Head.keep_ite
  · extract_lets +onlyGivenNames -merge -useContext -lift x1
    have hx1 : x1.r f₀ = v₀ := by
      unfold x1
      apply Head.keep_put (out_ne hf (by decide))
      apply Head.anchor_keep (out_mono hf (by decide))
      exact hs
    extract_lets +onlyGivenNames -merge -useContext -lift y2_0 x2
    have hx2 : x2.r f₀ = v₀ := by
      unfold x2
      apply Head.keep_record
      exact hx1
    extract_lets +onlyGivenNames -merge -useContext -lift x3
    have hx3 : x3.r f₀ = v₀ := by
      unfold x3
      apply Head.keep_put (out_ne hf (by decide))
      apply Head.keep_wi (out_ne hf (by decide))
      apply Head.keep_put (out_ne hf (by decide))
      exact hx2
    apply Head.syncTurn_keep (out_mono hf (by decide))
    exact hx3
  · apply Head.keep_ite
    · extract_lets +onlyGivenNames -merge -useContext -lift y4_0 x4
      have hx4 : x4.r f₀ = v₀ := by
        unfold x4
        apply Head.keep_record
        exact hs
      apply Head.keep_put (out_ne hf (by decide))
      apply Head.keep_put (out_ne hf (by decide))
      apply Head.anchor_keep (out_mono hf (by decide))
      exact hx4
    · exact hs

theorem Head.dropOwed_keep (hf : outKeys [] f₀.key = true) (n : ℕ) {x : Head} (hs : x.r f₀ = v₀) : (Head.dropOwed n x).r f₀ = v₀ := by
  unfold Head.dropOwed
  apply Head.keep_record
  exact hs

theorem Head.slot0Restart_keep (hf : outKeys [(2098051, 2098052), (2098053, 2098054), (2098176, 2098177)] f₀.key = true) (c : Ctx) {x : Head} (hs : x.r f₀ = v₀) : (Head.slot0Restart c x).r f₀ = v₀ := by
  unfold Head.slot0Restart
  extract_lets +onlyGivenNames -merge -useContext -lift x1
  have hx1 : x1.r f₀ = v₀ := by
    unfold x1
    apply Head.keep_ite
    · apply Head.skip_keep (out_mono hf (by decide))
      exact hs
    · exact hs
  extract_lets +onlyGivenNames -merge -useContext -lift x2
  have hx2 : x2.r f₀ = v₀ := by
    unfold x2
    apply Head.dropOwed_keep (out_mono hf (by decide))
    exact hx1
  extract_lets +onlyGivenNames -merge -useContext -lift x3
  apply Head.keep_ite
  · extract_lets +onlyGivenNames -merge -useContext -lift x4
    extract_lets +onlyGivenNames -merge -useContext -lift x5
    have hx5 : x5.r f₀ = v₀ := by
      unfold x5
      apply Head.keep_record
      exact hx2
    apply Head.keep_ite
    · apply Head.onSlotOf_keep (out_mono hf (by decide))
      exact hx5
    · apply Head.keep_flag (out_ne hf (by decide))
      apply Head.onSlotOf_keep (out_mono hf (by decide))
      exact hx5
  · apply Head.onSlotOf_keep (out_mono hf (by decide))
    exact hx2

theorem Head.startRefused_keep (hf : outKeys [(2098438, 2098439), (2113933, 2113934)] f₀.key = true) {x : Head} (hs : x.r f₀ = v₀) : (Head.startRefused x).r f₀ = v₀ := by
  unfold Head.startRefused
  apply Head.keep_flag (out_ne hf (by decide))
  apply Head.keep_put (out_ne hf (by decide))
  exact hs

/-- What Head.slot1Start may write. -/
def Head.slot1Start_keys : List (Nat × Nat) :=
  [(2098053, 2098054), (2098438, 2098439), (2098440, 2098441), (2105344, 2105345), (2105352, 2105363), (2105735, 2105736), (2105984, 2105985), (2106246, 2106247), (2107392, 2107393), (2107520, 2107521), (2107648, 2107649), (2107776, 2107777), (2107904, 2107905), (2108032, 2108033), (2108160, 2108161), (2108288, 2108289), (2108416, 2108417), (2108544, 2108545), (2108672, 2108673), (2108800, 2108801), (2108928, 2108929), (2109056, 2109057), (2109184, 2109185), (2109312, 2109313), (2109440, 2109441), (2109568, 2109569), (2109696, 2109697), (2109824, 2109825), (2109952, 2109953), (2110080, 2110081), (2110208, 2110209), (2110336, 2110337), (2110464, 2113409), (2113792, 2113793), (2113803, 2113804), (2113920, 2113921), (2113932, 2113933), (2118528, 2118545), (4194432, 4194433), (4194436, 4194437), (4194441, 4194442), (4194444, 4194561), (4194562, 4194563), (6291968, 6291972), (6291979, 6292097), (6292103, 6292105), (6294016, 6294145), (6300160, 6300164), (6300171, 6300289), (6300295, 6300297), (6302208, 6302337), (12583040, 12583041), (12583169, 12583170), (14680074, 14680193), (14680320, 14680322)]

theorem Head.slot1Start_keep (hf : outKeys Head.slot1Start_keys f₀.key = true) (c : Ctx) {x : Head} (hs : x.r f₀ = v₀) : (Head.slot1Start c x).r f₀ = v₀ := by
  unfold Head.slot1Start
  extract_lets +onlyGivenNames -merge -useContext -lift x1
  extract_lets +onlyGivenNames -merge -useContext -lift x2
  have hx2 : x2.r f₀ = v₀ := by
    unfold x2
    apply Head.keep_put (out_ne hf (by decide))
    exact hs
  apply Head.keep_ite
  · extract_lets +onlyGivenNames -merge -useContext -lift x3
    have hx3 : x3.r f₀ = v₀ := by
      unfold x3
      apply Head.onSlotOf_keep (out_mono hf (by decide))
      apply Head.dropOwed_keep (out_mono hf (by decide))
      exact hx2
    extract_lets +onlyGivenNames -merge -useContext -lift x4
    have hx4 : x4.r f₀ = v₀ := by
      unfold x4
      apply Head.keep_put (out_ne hf (by decide))
      exact hx3
    extract_lets +onlyGivenNames -merge -useContext -lift x5
    extract_lets +onlyGivenNames -merge -useContext -lift x6
    have hx6 : x6.r f₀ = v₀ := by
      unfold x6
      apply Head.keep_record
      exact hx4
    extract_lets +onlyGivenNames -merge -useContext -lift x7
    extract_lets +onlyGivenNames -merge -useContext -lift x8
    extract_lets +onlyGivenNames -merge -useContext -lift x9
    have hx9 : x9.r f₀ = v₀ := by
      unfold x9
      apply Head.keep_ite
      · apply Head.setHstate_keep (out_mono hf (by decide))
        apply Head.keep_record
        exact hx6
      · apply Head.setHstate_keep (out_mono hf (by decide))
        exact hx6
    apply Head.refresh_keep (out_mono hf (by decide))
    exact hx9
  · apply Head.keep_flag (out_ne hf (by decide))
    exact hx2

/-- What Head.slot1Stopped may write. -/
def Head.slot1Stopped_keys : List (Nat × Nat) :=
  [(2098438, 2098439), (2098440, 2098441), (2105344, 2105345), (2105352, 2105363), (2105735, 2105736), (2105984, 2105985), (2106246, 2106247), (2107392, 2107393), (2107520, 2107521), (2107648, 2107649), (2107776, 2107777), (2107904, 2107905), (2108032, 2108033), (2108160, 2108161), (2108288, 2108289), (2108416, 2108417), (2108544, 2108545), (2108672, 2108673), (2108800, 2108801), (2108928, 2108929), (2109056, 2109057), (2109184, 2109185), (2109312, 2109313), (2109440, 2109441), (2109568, 2109569), (2109696, 2109697), (2109824, 2109825), (2109952, 2109953), (2110080, 2110081), (2110208, 2110209), (2110336, 2110337), (2110464, 2113409), (2113792, 2113793), (2113803, 2113804), (2113920, 2113921), (2113932, 2113933), (2118528, 2118545), (4194432, 4194433), (4194436, 4194437), (4194441, 4194442), (4194444, 4194561), (4194562, 4194563), (6291968, 6291972), (6291979, 6292097), (6292103, 6292105), (6294016, 6294145), (6300160, 6300164), (6300171, 6300289), (6300295, 6300297), (6302208, 6302337), (8388742, 8388743), (8454278, 8454279), (8519814, 8519815), (8585350, 8585351), (8650886, 8650887), (8716422, 8716423), (8781958, 8781959), (8847494, 8847495), (8913030, 8913031), (8978566, 8978567), (9044102, 9044103), (9109638, 9109639), (9175174, 9175175), (9240710, 9240711), (9306246, 9306247), (9371782, 9371783), (9437318, 9437319), (9502854, 9502855), (9568390, 9568391), (9633926, 9633927), (9699462, 9699463), (9764998, 9764999), (9830534, 9830535), (9896070, 9896071), (9961606, 9961607), (10027142, 10027143), (10092678, 10092679), (10158214, 10158215), (10223750, 10223751), (10289286, 10289287), (10354822, 10354823), (10420358, 10420359), (10485894, 10485895), (12583040, 12583041), (12583169, 12583170), (14680074, 14680193), (14680320, 14680322)]

theorem Head.slot1Stopped_keep (hf : outKeys Head.slot1Stopped_keys f₀.key = true) (c : Ctx) {x : Head} (hs : x.r f₀ = v₀) : (Head.slot1Stopped c x).r f₀ = v₀ := by
  unfold Head.slot1Stopped
  extract_lets +onlyGivenNames -merge -useContext -lift x1
  have hx1 : x1.r f₀ = v₀ := by
    unfold x1
    apply Head.stopSlot1_keep (out_mono hf (by decide))
    exact hs
  extract_lets +onlyGivenNames -merge -useContext -lift x2
  extract_lets +onlyGivenNames -merge -useContext -lift x3
  have hx3 : x3.r f₀ = v₀ := by
    unfold x3
    apply Head.keep_ite
    · apply Head.setHstate_keep (out_mono hf (by decide))
      exact hx1
    · apply Head.keep_ite
      · apply Head.setHstate_keep (out_mono hf (by decide))
        exact hx1
      · exact hx1
  apply Head.refresh_keep (out_mono hf (by decide))
  exact hx3

theorem Head.alignWrite_keep (hf : outKeys [(2097282, 2097283), (2098054, 2098055)] f₀.key = true) {x : Head} (hs : x.r f₀ = v₀) : (Head.alignWrite x).r f₀ = v₀ := by
  unfold Head.alignWrite
  apply Head.keep_ite
  · apply Head.keep_flag (out_ne hf (by decide))
    exact hs
  · apply Head.keep_put (out_ne hf (by decide))
    exact hs

theorem Head.discOffsetWrite_keep (hf : outKeys [(2097408, 2097409), (2098051, 2098052), (2098176, 2098177)] f₀.key = true) (c : Ctx) (v : ℕ) {x : Head} (hs : x.r f₀ = v₀) : (Head.discOffsetWrite c v x).r f₀ = v₀ := by
  unfold Head.discOffsetWrite
  extract_lets +onlyGivenNames -merge -useContext -lift x1
  extract_lets +onlyGivenNames -merge -useContext -lift x2
  have hx2 : x2.r f₀ = v₀ := by
    unfold x2
    apply Head.keep_w (out_ne hf (by decide))
    exact hs
  apply Head.keep_ite
  · exact hx2
  · apply Head.stepPos_keep (out_mono hf (by decide))
    exact hx2

theorem Head.startWrite_keep (hf : outKeys [(2098438, 2098439), (2113933, 2113934)] f₀.key = true) {x : Head} (hs : x.r f₀ = v₀) : (Head.startWrite x).r f₀ = v₀ := by
  unfold Head.startWrite
  apply Head.keep_ite
  · apply Head.keep_put (out_ne hf (by decide))
    exact hs
  · apply Head.startRefused_keep (out_mono hf (by decide))
    exact hs

/-- What Head.stopWrite may write. -/
def Head.stopWrite_keys : List (Nat × Nat) :=
  [(2098438, 2098439), (2098440, 2098441), (2105344, 2105345), (2105352, 2105363), (2105735, 2105736), (2105984, 2105985), (2106246, 2106247), (2107392, 2107393), (2107520, 2107521), (2107648, 2107649), (2107776, 2107777), (2107904, 2107905), (2108032, 2108033), (2108160, 2108161), (2108288, 2108289), (2108416, 2108417), (2108544, 2108545), (2108672, 2108673), (2108800, 2108801), (2108928, 2108929), (2109056, 2109057), (2109184, 2109185), (2109312, 2109313), (2109440, 2109441), (2109568, 2109569), (2109696, 2109697), (2109824, 2109825), (2109952, 2109953), (2110080, 2110081), (2110208, 2110209), (2110336, 2110337), (2110464, 2113409), (2113792, 2113793), (2113803, 2113804), (2113920, 2113921), (2113932, 2113933), (2118528, 2118545), (4194432, 4194433), (4194436, 4194437), (4194441, 4194442), (4194444, 4194561), (4194562, 4194563), (6291968, 6291972), (6291979, 6292097), (6292103, 6292105), (6294016, 6294145), (6300160, 6300164), (6300171, 6300289), (6300295, 6300297), (6302208, 6302337), (8388742, 8388743), (8454278, 8454279), (8519814, 8519815), (8585350, 8585351), (8650886, 8650887), (8716422, 8716423), (8781958, 8781959), (8847494, 8847495), (8913030, 8913031), (8978566, 8978567), (9044102, 9044103), (9109638, 9109639), (9175174, 9175175), (9240710, 9240711), (9306246, 9306247), (9371782, 9371783), (9437318, 9437319), (9502854, 9502855), (9568390, 9568391), (9633926, 9633927), (9699462, 9699463), (9764998, 9764999), (9830534, 9830535), (9896070, 9896071), (9961606, 9961607), (10027142, 10027143), (10092678, 10092679), (10158214, 10158215), (10223750, 10223751), (10289286, 10289287), (10354822, 10354823), (10420358, 10420359), (10485894, 10485895), (12583040, 12583041), (12583169, 12583170), (14680074, 14680193), (14680320, 14680322)]

theorem Head.stopWrite_keep (hf : outKeys Head.stopWrite_keys f₀.key = true) (c : Ctx) {x : Head} (hs : x.r f₀ = v₀) : (Head.stopWrite c x).r f₀ = v₀ := by
  unfold Head.stopWrite
  apply Head.slot1Stopped_keep (out_mono hf (by decide))
  exact hs

theorem Head.slot0Write_keep (hf : outKeys [(2098448, 2098449)] f₀.key = true) (v : ℕ) {x : Head} (hs : x.r f₀ = v₀) : (Head.slot0Write v x).r f₀ = v₀ := by
  unfold Head.slot0Write
  apply Head.keep_ite
  · exact hs
  · extract_lets +onlyGivenNames -merge -useContext -lift x1
    have hx1 : x1.r f₀ = v₀ := by
      unfold x1
      apply Head.keep_w (out_ne hf (by decide))
      exact hs
    apply Head.keep_record
    exact hx1

theorem Head.spareArm_keep (hf : outKeys [(2098055, 2098056), (2098566, 2098567)] f₀.key = true) (c : Ctx) {x : Head} (hs : x.r f₀ = v₀) : (Head.spareArm c x).r f₀ = v₀ := by
  unfold Head.spareArm
  extract_lets +onlyGivenNames -merge -useContext -lift x1
  extract_lets +onlyGivenNames -merge -useContext -lift x2
  extract_lets +onlyGivenNames -merge -useContext -lift x3
  apply Head.keep_ite
  · extract_lets +onlyGivenNames -merge -useContext -lift x4
    extract_lets +onlyGivenNames -merge -useContext -lift x5
    have hx5 : x5.r f₀ = v₀ := by
      unfold x5
      apply Head.keep_record
      exact hs
    apply Head.keep_flag (out_ne hf (by decide))
    apply Head.keep_put (out_ne hf (by decide))
    exact hx5
  · extract_lets +onlyGivenNames -merge -useContext -lift x6
    extract_lets +onlyGivenNames -merge -useContext -lift x7
    have hx7 : x7.r f₀ = v₀ := by
      unfold x7
      apply Head.keep_put (out_ne hf (by decide))
      exact hs
    apply Head.keep_record
    exact hx7

theorem Head.spareSend_keep (hf : outKeys [] f₀.key = true) (c : Ctx) (te : ℕ) (k : Option ℕ) {x : Head} (hs : x.r f₀ = v₀) : (Head.spareSend c te k x).r f₀ = v₀ := by
  unfold Head.spareSend
  extract_lets +onlyGivenNames -merge -useContext -lift y1_0 x1
  have hx1 : x1.r f₀ = v₀ := by
    unfold x1
    apply Head.issue_keep (out_mono hf (by decide))
    exact hs
  apply Head.keep_record
  exact hx1

theorem Head.sparePoint_keep (hf : outKeys [] f₀.key = true) (c : Ctx) (p : ℕ) (te : ℕ) {x : Head} (hs : x.r f₀ = v₀) : (Head.sparePoint c p te x).r f₀ = v₀ := by
  unfold Head.sparePoint
  split
  · exact hs
  · split
    · apply Head.keep_ite
      · extract_lets +onlyGivenNames -merge -useContext -lift x1
        have hx1 : x1.r f₀ = v₀ := by
          unfold x1
          apply Head.spareSend_keep (out_mono hf (by decide))
          exact hs
        apply Head.keep_record
        exact hx1
      · exact hs
    · apply Head.keep_ite
      · extract_lets +onlyGivenNames -merge -useContext -lift x2
        have hx2 : x2.r f₀ = v₀ := by
          unfold x2
          apply Head.spareSend_keep (out_mono hf (by decide))
          exact hs
        apply Head.keep_record
        exact hx2
      · exact hs
    · exact hs

theorem Head.spareReached_keep (hf : outKeys [(2098055, 2098056), (2098566, 2098567)] f₀.key = true) (i : ℕ) (t : ℤ) {x : Head} (hs : x.r f₀ = v₀) : (Head.spareReached i t x).r f₀ = v₀ := by
  unfold Head.spareReached
  split
  · apply Head.keep_ite
    · extract_lets +onlyGivenNames -merge -useContext -lift x1
      extract_lets +onlyGivenNames -merge -useContext -lift x2
      have hx2 : x2.r f₀ = v₀ := by
        unfold x2
        apply Head.keep_record
        exact hs
      apply Head.keep_flag (out_ne hf (by decide))
      apply Head.keep_put (out_ne hf (by decide))
      exact hx2
    · exact hs
  · exact hs

theorem Head.trackMotor_keep (hf : outKeys [(4194437, 4194438), (4195072, 4195073), (4195328, 4195329)] f₀.key = true) (m : ℕ) (tk : ℕ) {x : Head} (hs : x.r f₀ = v₀) : (Head.trackMotor m tk x).r f₀ = v₀ := by
  unfold Head.trackMotor
  extract_lets +onlyGivenNames -merge -useContext -lift x1
  extract_lets +onlyGivenNames -merge -useContext -lift x2
  extract_lets +onlyGivenNames -merge -useContext -lift x3
  apply Head.keep_ite
  · unfold x3
    extract_lets +onlyGivenNames -merge -useContext -lift x4
    extract_lets +onlyGivenNames -merge -useContext -lift x5
    have hx5 : x5.r f₀ = v₀ := by
      unfold x5
      apply Head.keep_record
      exact hs
    apply Head.keep_w (out_ne hf (by decide))
    apply Head.keep_wi (out_ne hf (by decide))
    exact hx5
  · apply Head.keep_ite
    · extract_lets +onlyGivenNames -merge -useContext -lift x6
      apply Head.keep_put (out_ne hf (by decide))
      unfold x3
      extract_lets +onlyGivenNames -merge -useContext -lift x7
      extract_lets +onlyGivenNames -merge -useContext -lift x8
      have hx8 : x8.r f₀ = v₀ := by
        unfold x8
        apply Head.keep_record
        exact hs
      apply Head.keep_w (out_ne hf (by decide))
      apply Head.keep_wi (out_ne hf (by decide))
      exact hx8
    · extract_lets +onlyGivenNames -merge -useContext -lift x9
      extract_lets +onlyGivenNames -merge -useContext -lift x10
      unfold x3
      extract_lets +onlyGivenNames -merge -useContext -lift x11
      extract_lets +onlyGivenNames -merge -useContext -lift x12
      have hx12 : x12.r f₀ = v₀ := by
        unfold x12
        apply Head.keep_record
        exact hs
      apply Head.keep_w (out_ne hf (by decide))
      apply Head.keep_wi (out_ne hf (by decide))
      exact hx12

theorem Head.sendDuties_keep (hf : outKeys [] f₀.key = true) (c : Ctx) (d : ℤ × ℤ × ℤ) (time : ℕ) {x : Head} (hs : x.r f₀ = v₀) : (Head.sendDuties c d time x).r f₀ = v₀ := by
  unfold Head.sendDuties
  extract_lets +onlyGivenNames -merge -useContext -lift x1
  apply Head.act_keep (out_mono hf (by decide))
  apply Head.act_keep (out_mono hf (by decide))
  apply Head.act_keep (out_mono hf (by decide))
  exact hs

theorem Head.bridgeStart_keep (hf : outKeys [] f₀.key = true) (c : Ctx) (vd : ℤ) (vq : ℤ) {x : Head} (hs : x.r f₀ = v₀) : (Head.bridgeStart c vd vq x).r f₀ = v₀ := by
  unfold Head.bridgeStart
  extract_lets +onlyGivenNames -merge -useContext -lift x1
  apply Head.bridge_keep (out_mono hf (by decide))
  apply Head.sendDuties_keep (out_mono hf (by decide))
  exact hs

/-- What Head.driveLoopsOn may write. -/
def Head.driveLoopsOn_keys : List (Nat × Nat) :=
  [(2107392, 2107393), (2107520, 2107521), (2107648, 2107649), (2107776, 2107777), (2107904, 2107905), (2108032, 2108033), (2108160, 2108161), (2108288, 2108289), (2108416, 2108417), (2108544, 2108545), (2108672, 2108673), (2108800, 2108801), (2108928, 2108929), (2109056, 2109057), (2109184, 2109185), (2109312, 2109313), (2109440, 2109441), (2109568, 2109569), (2109696, 2109697), (2109824, 2109825), (2109952, 2109953), (2110080, 2110081), (2110208, 2110209), (2110336, 2110337), (2110464, 2113409)]

theorem Head.driveLoopsOn_keep (hf : outKeys Head.driveLoopsOn_keys f₀.key = true) {x : Head} (hs : x.r f₀ = v₀) : (Head.driveLoopsOn x).r f₀ = v₀ := by
  unfold Head.driveLoopsOn
  apply Head.loopEnable_keep (out_mono hf (by decide))
  apply Head.loopEnable_keep (out_mono hf (by decide))
  apply Head.loopEnable_keep (out_mono hf (by decide))
  apply Head.loopRef_keep (out_mono hf (by decide))
  exact hs

theorem Head.enterDrive_keep (hf : outKeys [(4194432, 4194433), (4194436, 4194437), (4194560, 4194561)] f₀.key = true) (c : Ctx) {x : Head} (hs : x.r f₀ = v₀) : (Head.enterDrive c x).r f₀ = v₀ := by
  unfold Head.enterDrive
  extract_lets +onlyGivenNames -merge -useContext -lift x1
  have hx1 : x1.r f₀ = v₀ := by
    unfold x1
    apply Head.spinTo_keep (out_mono hf (by decide))
    exact hs
  extract_lets +onlyGivenNames -merge -useContext -lift x2
  have hx2 : x2.r f₀ = v₀ := by
    unfold x2
    apply Head.keep_put (out_ne hf (by decide))
    exact hx1
  apply Head.keep_record
  exact hx2

/-- What Head.startFromRest may write. -/
def Head.startFromRest_keys : List (Nat × Nat) :=
  [(2107392, 2107393), (2107520, 2107521), (2107648, 2107649), (2107776, 2107777), (2107904, 2107905), (2108032, 2108033), (2108160, 2108161), (2108288, 2108289), (2108416, 2108417), (2108544, 2108545), (2108672, 2108673), (2108800, 2108801), (2108928, 2108929), (2109056, 2109057), (2109184, 2109185), (2109312, 2109313), (2109440, 2109441), (2109568, 2109569), (2109696, 2109697), (2109824, 2109825), (2109952, 2109953), (2110080, 2110081), (2110208, 2110209), (2110336, 2110337), (2110464, 2113409), (4194432, 4194433), (4194436, 4194437), (4194560, 4194561), (4195200, 4195201)]

theorem Head.startFromRest_keep (hf : outKeys Head.startFromRest_keys f₀.key = true) (c : Ctx) {x : Head} (hs : x.r f₀ = v₀) : (Head.startFromRest c x).r f₀ = v₀ := by
  unfold Head.startFromRest
  extract_lets +onlyGivenNames -merge -useContext -lift x1
  have hx1 : x1.r f₀ = v₀ := by
    unfold x1
    apply Head.loopZero_keep (out_mono hf (by decide))
    apply Head.loopZero_keep (out_mono hf (by decide))
    apply Head.loopZero_keep (out_mono hf (by decide))
    exact hs
  extract_lets +onlyGivenNames -merge -useContext -lift x2
  have hx2 : x2.r f₀ = v₀ := by
    unfold x2
    apply Head.bridgeStart_keep (out_mono hf (by decide))
    apply Head.keep_w (out_ne hf (by decide))
    exact hx1
  extract_lets +onlyGivenNames -merge -useContext -lift x3
  have hx3 : x3.r f₀ = v₀ := by
    unfold x3
    apply Head.enterDrive_keep (out_mono hf (by decide))
    apply Head.chopOn_keep (out_mono hf (by decide))
    apply Head.driveLoopsOn_keep (out_mono hf (by decide))
    exact hx2
  apply Head.keep_record
  exact hx3

/-- What Head.driveSync may write. -/
def Head.driveSync_keys : List (Nat × Nat) :=
  [(2107392, 2107393), (2107520, 2107521), (2107648, 2107649), (2107776, 2107777), (2107904, 2107905), (2108032, 2108033), (2108160, 2108161), (2108288, 2108289), (2108416, 2108417), (2108544, 2108545), (2108672, 2108673), (2108800, 2108801), (2108928, 2108929), (2109056, 2109057), (2109184, 2109185), (2109312, 2109313), (2109440, 2109441), (2109568, 2109569), (2109696, 2109697), (2109824, 2109825), (2109952, 2109953), (2110080, 2110081), (2110208, 2110209), (2110336, 2110337), (2110464, 2113409), (4194432, 4194433), (4194436, 4194437), (4194560, 4194561), (4195200, 4195201)]

theorem Head.driveSync_keep (hf : outKeys Head.driveSync_keys f₀.key = true) (c : Ctx) (forCatch : Bool) {x : Head} (hs : x.r f₀ = v₀) : (Head.driveSync c forCatch x).r f₀ = v₀ := by
  unfold Head.driveSync
  extract_lets +onlyGivenNames -merge -useContext -lift x1
  extract_lets +onlyGivenNames -merge -useContext -lift x2
  have hx2 : x2.r f₀ = v₀ := by
    unfold x2
    apply Head.loopPreload_keep (out_mono hf (by decide))
    apply Head.loopZero_keep (out_mono hf (by decide))
    exact hs
  extract_lets +onlyGivenNames -merge -useContext -lift x3
  have hx3 : x3.r f₀ = v₀ := by
    unfold x3
    apply Head.keep_ite
    · apply Head.keep_wi (out_ne hf (by decide))
      apply Head.loopZero_keep (out_mono hf (by decide))
      exact hx2
    · exact hx2
  extract_lets +onlyGivenNames -merge -useContext -lift x4
  have hx4 : x4.r f₀ = v₀ := by
    unfold x4
    apply Head.bridgeStart_keep (out_mono hf (by decide))
    exact hx3
  apply Head.enterDrive_keep (out_mono hf (by decide))
  apply Head.driveLoopsOn_keep (out_mono hf (by decide))
  exact hx4

/-- What Head.catchDone may write. -/
def Head.catchDone_keys : List (Nat × Nat) :=
  [(2105344, 2105345), (2105352, 2105363), (2105735, 2105736), (2105984, 2105985), (2106246, 2106247), (2107392, 2107393), (2107520, 2107521), (2107648, 2107649), (2107776, 2107777), (2107904, 2107905), (2108032, 2108033), (2108160, 2108161), (2108288, 2108289), (2108416, 2108417), (2108544, 2108545), (2108672, 2108673), (2108800, 2108801), (2108928, 2108929), (2109056, 2109057), (2109184, 2109185), (2109312, 2109313), (2109440, 2109441), (2109568, 2109569), (2109696, 2109697), (2109824, 2109825), (2109952, 2109953), (2110080, 2110081), (2110208, 2110209), (2110336, 2110337), (2110464, 2113409), (2113792, 2113793), (2113803, 2113804), (2113920, 2113921), (2113932, 2113933), (2118528, 2118545), (4194432, 4194433), (4194436, 4194437), (4194441, 4194442), (4194444, 4194563), (4198544, 4198545), (6291968, 6291972), (6291979, 6292097), (6292103, 6292105), (6294016, 6294145), (6300160, 6300164), (6300171, 6300289), (6300295, 6300297), (6302208, 6302337), (12583040, 12583041), (12583169, 12583170), (14680074, 14680193), (14680320, 14680322)]

theorem Head.catchDone_keep (hf : outKeys Head.catchDone_keys f₀.key = true) (c : Ctx) {x : Head} (hs : x.r f₀ = v₀) : (Head.catchDone c x).r f₀ = v₀ := by
  unfold Head.catchDone
  extract_lets +onlyGivenNames -merge -useContext -lift x1
  have hx1 : x1.r f₀ = v₀ := by
    unfold x1
    apply Head.keep_bump (out_ne hf (by decide))
    apply Head.keep_flag (out_ne hf (by decide))
    apply Head.keep_put (out_ne hf (by decide))
    exact hs
  apply Head.keep_ite
  · apply Head.refresh_keep (out_mono hf (by decide))
    apply Head.setHstate_keep (out_mono hf (by decide))
    exact hx1
  · exact hx1

/-- What Head.catchEnds may write. -/
def Head.catchEnds_keys : List (Nat × Nat) :=
  [(2105344, 2105345), (2105352, 2105363), (2105735, 2105736), (2105984, 2105985), (2106246, 2106247), (2107392, 2107393), (2107520, 2107521), (2107648, 2107649), (2107776, 2107777), (2107904, 2107905), (2108032, 2108033), (2108160, 2108161), (2108288, 2108289), (2108416, 2108417), (2108544, 2108545), (2108672, 2108673), (2108800, 2108801), (2108928, 2108929), (2109056, 2109057), (2109184, 2109185), (2109312, 2109313), (2109440, 2109441), (2109568, 2109569), (2109696, 2109697), (2109824, 2109825), (2109952, 2109953), (2110080, 2110081), (2110208, 2110209), (2110336, 2110337), (2110464, 2113409), (2113792, 2113793), (2113803, 2113804), (2113808, 2113814), (2113920, 2113923), (2113932, 2113933), (2118528, 2118545), (4194432, 4194433), (4194436, 4194437), (4194441, 4194442), (4194444, 4194561), (4194562, 4194563), (6291968, 6291972), (6291979, 6292097), (6292103, 6292105), (6294016, 6294145), (6300160, 6300164), (6300171, 6300289), (6300295, 6300297), (6302208, 6302337), (12583040, 12583041), (12583169, 12583170), (14680074, 14680193), (14680320, 14680322)]

theorem Head.catchEnds_keep (hf : outKeys Head.catchEnds_keys f₀.key = true) (c : Ctx) (code : ℕ) {x : Head} (hs : x.r f₀ = v₀) : (Head.catchEnds c code x).r f₀ = v₀ := by
  unfold Head.catchEnds
  apply Head.keep_ite
  · extract_lets +onlyGivenNames -merge -useContext -lift x1
    have hx1 : x1.r f₀ = v₀ := by
      unfold x1
      apply Head.catchFails_keep (out_mono hf (by decide))
      exact hs
    apply Head.keep_ite
    · apply Head.refresh_keep (out_mono hf (by decide))
      apply Head.cmdEnd_keep (out_mono hf (by decide))
      apply Head.setHstate_keep (out_mono hf (by decide))
      exact hx1
    · exact hx1
  · exact hs

/-- What Head.enterSettle may write. -/
def Head.enterSettle_keys : List (Nat × Nat) :=
  [(2107392, 2107393), (2107520, 2107521), (2107648, 2107649), (2107776, 2107777), (2107904, 2107905), (2108032, 2108033), (2108160, 2108161), (2108288, 2108289), (2108416, 2108417), (2108544, 2108545), (2108672, 2108673), (2108800, 2108801), (2108928, 2108929), (2109056, 2109057), (2109184, 2109185), (2109312, 2109313), (2109440, 2109441), (2109568, 2109569), (2109696, 2109697), (2109824, 2109825), (2109952, 2109953), (2110080, 2110081), (2110208, 2110209), (2110336, 2110337), (4194432, 4194433), (4194436, 4194437), (4194560, 4194561)]

theorem Head.enterSettle_keep (hf : outKeys Head.enterSettle_keys f₀.key = true) (c : Ctx) (forCatch : Bool) {x : Head} (hs : x.r f₀ = v₀) : (Head.enterSettle c forCatch x).r f₀ = v₀ := by
  unfold Head.enterSettle
  extract_lets +onlyGivenNames -merge -useContext -lift x1
  have hx1 : x1.r f₀ = v₀ := by
    unfold x1
    apply Head.spinTo_keep (out_mono hf (by decide))
    apply Head.bridge_keep (out_mono hf (by decide))
    apply Head.driveLoopsOff_keep (out_mono hf (by decide))
    apply Head.probeDrop_keep (out_mono hf (by decide))
    exact hs
  apply Head.keep_record
  exact hx1

/-- What Head.spinUp may write. -/
def Head.spinUp_keys : List (Nat × Nat) :=
  [(2107392, 2107393), (2107520, 2107521), (2107648, 2107649), (2107776, 2107777), (2107904, 2107905), (2108032, 2108033), (2108160, 2108161), (2108288, 2108289), (2108416, 2108417), (2108544, 2108545), (2108672, 2108673), (2108800, 2108801), (2108928, 2108929), (2109056, 2109057), (2109184, 2109185), (2109312, 2109313), (2109440, 2109441), (2109568, 2109569), (2109696, 2109697), (2109824, 2109825), (2109952, 2109953), (2110080, 2110081), (2110208, 2110209), (2110336, 2110337), (2110464, 2113409), (4194432, 4194433), (4194436, 4194437), (4194560, 4194561), (4195200, 4195201)]

theorem Head.spinUp_keep (hf : outKeys Head.spinUp_keys f₀.key = true) (c : Ctx) {x : Head} (hs : x.r f₀ = v₀) : (Head.spinUp c x).r f₀ = v₀ := by
  unfold Head.spinUp
  extract_lets +onlyGivenNames -merge -useContext -lift x1
  apply Head.keep_ite
  · apply Head.startFromRest_keep (out_mono hf (by decide))
    exact hs
  · exact hs

theorem Head.retarget_keep (hf : outKeys [(4194436, 4194437)] f₀.key = true) (c : Ctx) (t : ℕ) {x : Head} (hs : x.r f₀ = v₀) : (Head.retarget c t x).r f₀ = v₀ := by
  unfold Head.retarget
  apply Head.keep_ite
  · extract_lets +onlyGivenNames -merge -useContext -lift x1
    have hx1 : x1.r f₀ = v₀ := by
      unfold x1
      apply Head.keep_put (out_ne hf (by decide))
      exact hs
    apply Head.keep_record
    exact hx1
  · exact hs

theorem Head.stopping_keep (hf : outKeys [(4194436, 4194437)] f₀.key = true) (c : Ctx) (v : Bool) {x : Head} (hs : x.r f₀ = v₀) : (Head.stopping c v x).r f₀ = v₀ := by
  unfold Head.stopping
  extract_lets +onlyGivenNames -merge -useContext -lift x1
  extract_lets +onlyGivenNames -merge -useContext -lift x2
  have hx2 : x2.r f₀ = v₀ := by
    unfold x2
    apply Head.keep_record
    exact hs
  apply Head.retarget_keep (out_mono hf (by decide))
  exact hx2

/-- What Head.catchRequest may write. -/
def Head.catchRequest_keys : List (Nat × Nat) :=
  [(2105344, 2105345), (2105352, 2105363), (2105735, 2105736), (2105984, 2105985), (2106246, 2106247), (2107392, 2107393), (2107520, 2107521), (2107648, 2107649), (2107776, 2107777), (2107904, 2107905), (2108032, 2108033), (2108160, 2108161), (2108288, 2108289), (2108416, 2108417), (2108544, 2108545), (2108672, 2108673), (2108800, 2108801), (2108928, 2108929), (2109056, 2109057), (2109184, 2109185), (2109312, 2109313), (2109440, 2109441), (2109568, 2109569), (2109696, 2109697), (2109824, 2109825), (2109952, 2109953), (2110080, 2110081), (2110208, 2110209), (2110336, 2110337), (2110464, 2113409), (2113792, 2113793), (2113803, 2113804), (2113920, 2113921), (2113932, 2113933), (2118528, 2118545), (4194432, 4194433), (4194436, 4194437), (4194441, 4194442), (4194444, 4194563), (4198544, 4198545), (6291968, 6291972), (6291979, 6292097), (6292103, 6292105), (6294016, 6294145), (6300160, 6300164), (6300171, 6300289), (6300295, 6300297), (6302208, 6302337), (12583040, 12583041), (12583169, 12583170), (14680074, 14680193), (14680320, 14680322)]

theorem Head.catchRequest_keep (hf : outKeys Head.catchRequest_keys f₀.key = true) (c : Ctx) {x : Head} (hs : x.r f₀ = v₀) : (Head.catchRequest c x).r f₀ = v₀ := by
  unfold Head.catchRequest
  extract_lets +onlyGivenNames -merge -useContext -lift x1
  apply Head.keep_ite
  · extract_lets +onlyGivenNames -merge -useContext -lift x2
    have hx2 : x2.r f₀ = v₀ := by
      unfold x2
      apply Head.keep_put (out_ne hf (by decide))
      exact hs
    extract_lets +onlyGivenNames -merge -useContext -lift x3
    extract_lets +onlyGivenNames -merge -useContext -lift x4
    have hx4 : x4.r f₀ = v₀ := by
      unfold x4
      apply Head.keep_record
      exact hx2
    apply Head.enterSettle_keep (out_mono hf (by decide))
    exact hx4
  · apply Head.keep_ite
    · apply Head.catchDone_keep (out_mono hf (by decide))
      apply Head.stopping_keep (out_mono hf (by decide))
      exact hs
    · exact hs

/-- What Head.stopNow may write. -/
def Head.stopNow_keys : List (Nat × Nat) :=
  [(2107392, 2107393), (2107520, 2107521), (2107648, 2107649), (2107776, 2107777), (2107904, 2107905), (2108032, 2108033), (2108160, 2108161), (2108288, 2108289), (2108416, 2108417), (2108544, 2108545), (2108672, 2108673), (2108800, 2108801), (2108928, 2108929), (2109056, 2109057), (2109184, 2109185), (2109312, 2109313), (2109440, 2109441), (2109568, 2109569), (2109696, 2109697), (2109824, 2109825), (2109952, 2109953), (2110080, 2110081), (2110208, 2110209), (2110336, 2110337), (4194432, 4194433), (4194436, 4194437), (4194560, 4194561)]

theorem Head.stopNow_keep (hf : outKeys Head.stopNow_keys f₀.key = true) (c : Ctx) {x : Head} (hs : x.r f₀ = v₀) : (Head.stopNow c x).r f₀ = v₀ := by
  unfold Head.stopNow
  extract_lets +onlyGivenNames -merge -useContext -lift x1
  apply Head.keep_ite
  · apply Head.spinTo_keep (out_mono hf (by decide))
    apply Head.bridge_keep (out_mono hf (by decide))
    apply Head.driveLoopsOff_keep (out_mono hf (by decide))
    exact hs
  · apply Head.keep_ite
    · apply Head.spinTo_keep (out_mono hf (by decide))
      apply Head.bridge_keep (out_mono hf (by decide))
      apply Head.driveLoopsOff_keep (out_mono hf (by decide))
      exact hs
    · apply Head.stopping_keep (out_mono hf (by decide))
      exact hs

/-- What Head.stopRequest may write. -/
def Head.stopRequest_keys : List (Nat × Nat) :=
  [(2107392, 2107393), (2107520, 2107521), (2107648, 2107649), (2107776, 2107777), (2107904, 2107905), (2108032, 2108033), (2108160, 2108161), (2108288, 2108289), (2108416, 2108417), (2108544, 2108545), (2108672, 2108673), (2108800, 2108801), (2108928, 2108929), (2109056, 2109057), (2109184, 2109185), (2109312, 2109313), (2109440, 2109441), (2109568, 2109569), (2109696, 2109697), (2109824, 2109825), (2109952, 2109953), (2110080, 2110081), (2110208, 2110209), (2110336, 2110337), (4194432, 4194433), (4194436, 4194437), (4194560, 4194561)]

theorem Head.stopRequest_keep (hf : outKeys Head.stopRequest_keys f₀.key = true) (c : Ctx) {x : Head} (hs : x.r f₀ = v₀) : (Head.stopRequest c x).r f₀ = v₀ := by
  unfold Head.stopRequest
  extract_lets +onlyGivenNames -merge -useContext -lift x1
  apply Head.keep_ite
  · apply Head.stopNow_keep (out_mono hf (by decide))
    exact hs
  · apply Head.keep_ite
    · apply Head.keep_record
      exact hs
    · exact hs

/-- What Head.stopOver may write. -/
def Head.stopOver_keys : List (Nat × Nat) :=
  [(2107392, 2107393), (2107520, 2107521), (2107648, 2107649), (2107776, 2107777), (2107904, 2107905), (2108032, 2108033), (2108160, 2108161), (2108288, 2108289), (2108416, 2108417), (2108544, 2108545), (2108672, 2108673), (2108800, 2108801), (2108928, 2108929), (2109056, 2109057), (2109184, 2109185), (2109312, 2109313), (2109440, 2109441), (2109568, 2109569), (2109696, 2109697), (2109824, 2109825), (2109952, 2109953), (2110080, 2110081), (2110208, 2110209), (2110336, 2110337), (4194432, 4194433), (4194436, 4194437), (4194560, 4194561)]

theorem Head.stopOver_keep (hf : outKeys Head.stopOver_keys f₀.key = true) (c : Ctx) {x : Head} (hs : x.r f₀ = v₀) : (Head.stopOver c x).r f₀ = v₀ := by
  unfold Head.stopOver
  apply Head.keep_ite
  · extract_lets +onlyGivenNames -merge -useContext -lift x1
    have hx1 : x1.r f₀ = v₀ := by
      unfold x1
      apply Head.spinTo_keep (out_mono hf (by decide))
      apply Head.bridge_keep (out_mono hf (by decide))
      apply Head.driveLoopsOff_keep (out_mono hf (by decide))
      exact hs
    apply Head.keep_record
    exact hx1
  · exact hs

/-- What Head.checkEnds may write. -/
def Head.checkEnds_keys : List (Nat × Nat) :=
  [(2107392, 2107393), (2107520, 2107521), (2107648, 2107649), (2107776, 2107777), (2107904, 2107905), (2108032, 2108033), (2108160, 2108161), (2108288, 2108289), (2108416, 2108417), (2108544, 2108545), (2108672, 2108673), (2108800, 2108801), (2108928, 2108929), (2109056, 2109057), (2109184, 2109185), (2109312, 2109313), (2109440, 2109441), (2109568, 2109569), (2109696, 2109697), (2109824, 2109825), (2109952, 2109953), (2110080, 2110081), (2110208, 2110209), (2110336, 2110337), (2110464, 2113409), (4194432, 4194433), (4194436, 4194437), (4194560, 4194561), (4195200, 4195201)]

theorem Head.checkEnds_keep (hf : outKeys Head.checkEnds_keys f₀.key = true) (c : Ctx) {x : Head} (hs : x.r f₀ = v₀) : (Head.checkEnds c x).r f₀ = v₀ := by
  unfold Head.checkEnds
  extract_lets +onlyGivenNames -merge -useContext -lift x1
  extract_lets +onlyGivenNames -merge -useContext -lift x2
  have hx2 : x2.r f₀ = v₀ := by
    unfold x2
    apply Head.driveSync_keep (out_mono hf (by decide))
    exact hs
  extract_lets +onlyGivenNames -merge -useContext -lift y3_0 x3
  have hx3 : x3.r f₀ = v₀ := by
    unfold x3
    apply Head.keep_record
    exact hx2
  apply Head.keep_ite
  · apply Head.stopNow_keep (out_mono hf (by decide))
    exact hx3
  · exact hx3

theorem Head.toCoast_keep (hf : outKeys [(4194432, 4194433), (4194436, 4194437), (4194560, 4194561)] f₀.key = true) (c : Ctx) {x : Head} (hs : x.r f₀ = v₀) : (Head.toCoast c x).r f₀ = v₀ := by
  unfold Head.toCoast
  apply Head.spinTo_keep (out_mono hf (by decide))
  apply Head.bridge_keep (out_mono hf (by decide))
  apply Head.probeDrop_keep (out_mono hf (by decide))
  exact hs

/-- What Head.probeFails may write. -/
def Head.probeFails_keys : List (Nat × Nat) :=
  [(2105344, 2105345), (2105352, 2105363), (2105735, 2105736), (2105984, 2105985), (2106246, 2106247), (2107392, 2107393), (2107520, 2107521), (2107648, 2107649), (2107776, 2107777), (2107904, 2107905), (2108032, 2108033), (2108160, 2108161), (2108288, 2108289), (2108416, 2108417), (2108544, 2108545), (2108672, 2108673), (2108800, 2108801), (2108928, 2108929), (2109056, 2109057), (2109184, 2109185), (2109312, 2109313), (2109440, 2109441), (2109568, 2109569), (2109696, 2109697), (2109824, 2109825), (2109952, 2109953), (2110080, 2110081), (2110208, 2110209), (2110336, 2110337), (2110464, 2113409), (2113792, 2113793), (2113803, 2113804), (2113808, 2113814), (2113920, 2113923), (2113932, 2113933), (2118528, 2118545), (4194432, 4194433), (4194436, 4194437), (4194441, 4194443), (4194444, 4194561), (4194562, 4194563), (4194579, 4194580), (4195200, 4195201), (6291968, 6291972), (6291979, 6292097), (6292103, 6292105), (6294016, 6294145), (6300160, 6300164), (6300171, 6300289), (6300295, 6300297), (6302208, 6302337), (12583040, 12583041), (12583169, 12583170), (14680074, 14680193), (14680320, 14680322)]

theorem Head.probeFails_keep (hf : outKeys Head.probeFails_keys f₀.key = true) (c : Ctx) {x : Head} (hs : x.r f₀ = v₀) : (Head.probeFails c x).r f₀ = v₀ := by
  unfold Head.probeFails
  apply Head.keep_ite
  · exact hs
  · extract_lets +onlyGivenNames -merge -useContext -lift x1
    have hx1 : x1.r f₀ = v₀ := by
      unfold x1
      apply Head.keep_flag (out_ne hf (by decide))
      exact hs
    extract_lets +onlyGivenNames -merge -useContext -lift x2
    extract_lets +onlyGivenNames -merge -useContext -lift x3
    extract_lets +onlyGivenNames -merge -useContext -lift x4
    have hx4 : x4.r f₀ = v₀ := by
      unfold x4
      apply Head.keep_record
      exact hx1
    apply Head.keep_ite
    · apply Head.enterSettle_keep (out_mono hf (by decide))
      exact hx4
    · apply Head.keep_ite
      · apply Head.catchEnds_keep (out_mono hf (by decide))
        apply Head.toCoast_keep (out_mono hf (by decide))
        exact hx4
      · apply Head.checkEnds_keep (out_mono hf (by decide))
        apply Head.keep_put (out_ne hf (by decide))
        exact hx4

/-- What Head.probeEval may write. -/
def Head.probeEval_keys : List (Nat × Nat) :=
  [(2105344, 2105345), (2105352, 2105363), (2105735, 2105736), (2105984, 2105985), (2106246, 2106247), (2107392, 2107393), (2107520, 2107521), (2107648, 2107649), (2107776, 2107777), (2107904, 2107905), (2108032, 2108033), (2108160, 2108161), (2108288, 2108289), (2108416, 2108417), (2108544, 2108545), (2108672, 2108673), (2108800, 2108801), (2108928, 2108929), (2109056, 2109057), (2109184, 2109185), (2109312, 2109313), (2109440, 2109441), (2109568, 2109569), (2109696, 2109697), (2109824, 2109825), (2109952, 2109953), (2110080, 2110081), (2110208, 2110209), (2110336, 2110337), (2110464, 2113409), (2113792, 2113793), (2113803, 2113804), (2113808, 2113814), (2113920, 2113923), (2113932, 2113933), (2118528, 2118545), (4194432, 4194433), (4194436, 4194437), (4194441, 4194566), (4195200, 4195201), (4195968, 4195969), (4198544, 4198545), (6291968, 6291972), (6291979, 6292097), (6292103, 6292105), (6294016, 6294145), (6300160, 6300164), (6300171, 6300289), (6300295, 6300297), (6302208, 6302337), (12583040, 12583041), (12583169, 12583170), (14680074, 14680193), (14680320, 14680322)]

theorem Head.probeEval_keep (hf : outKeys Head.probeEval_keys f₀.key = true) (c : Ctx) (iq : ℤ) (wm : ℤ) {x : Head} (hs : x.r f₀ = v₀) : (Head.probeEval c iq wm x).r f₀ = v₀ := by
  unfold Head.probeEval
  extract_lets +onlyGivenNames -merge -useContext -lift x1
  extract_lets +onlyGivenNames -merge -useContext -lift x2
  extract_lets +onlyGivenNames -merge -useContext -lift x3
  extract_lets +onlyGivenNames -merge -useContext -lift x4
  extract_lets +onlyGivenNames -merge -useContext -lift x5
  have hx5 : x5.r f₀ = v₀ := by
    unfold x5
    apply Head.keep_ite
    · apply Head.keep_put (out_ne hf (by decide))
      exact hs
    · apply Head.keep_put (out_ne hf (by decide))
      apply Head.keep_put (out_ne hf (by decide))
      apply Head.keep_w (out_ne hf (by decide))
      exact hs
  extract_lets +onlyGivenNames -merge -useContext -lift x6
  extract_lets +onlyGivenNames -merge -useContext -lift x7
  extract_lets +onlyGivenNames -merge -useContext -lift x8
  have hx8 : x8.r f₀ = v₀ := by
    unfold x8
    apply Head.keep_flag (out_ne hf (by decide))
    exact hx5
  extract_lets +onlyGivenNames -merge -useContext -lift x9
  have hx9 : x9.r f₀ = v₀ := by
    unfold x9
    apply Head.keep_flagIf (out_ne hf (by decide))
    exact hx8
  extract_lets +onlyGivenNames -merge -useContext -lift x10
  have hx10 : x10.r f₀ = v₀ := by
    unfold x10
    apply Head.keep_flagIf (out_ne hf (by decide))
    exact hx9
  apply Head.keep_ite
  · apply Head.keep_ite
    · apply Head.catchEnds_keep (out_mono hf (by decide))
      apply Head.toCoast_keep (out_mono hf (by decide))
      exact hx10
    · apply Head.keep_ite
      · extract_lets +onlyGivenNames -merge -useContext -lift x11
        have hx11 : x11.r f₀ = v₀ := by
          unfold x11
          apply Head.driveSync_keep (out_mono hf (by decide))
          exact hx10
        apply Head.catchDone_keep (out_mono hf (by decide))
        apply Head.keep_record
        exact hx11
      · apply Head.spinTo_keep (out_mono hf (by decide))
        apply Head.bridge_keep (out_mono hf (by decide))
        exact hx10
  · apply Head.checkEnds_keep (out_mono hf (by decide))
    exact hx10

/-- What Head.probeReady may write. -/
def Head.probeReady_keys : List (Nat × Nat) :=
  [(2105344, 2105345), (2105352, 2105363), (2105735, 2105736), (2105984, 2105985), (2106246, 2106247), (2107392, 2107393), (2107520, 2107521), (2107648, 2107649), (2107776, 2107777), (2107904, 2107905), (2108032, 2108033), (2108160, 2108161), (2108288, 2108289), (2108416, 2108417), (2108544, 2108545), (2108672, 2108673), (2108800, 2108801), (2108928, 2108929), (2109056, 2109057), (2109184, 2109185), (2109312, 2109313), (2109440, 2109441), (2109568, 2109569), (2109696, 2109697), (2109824, 2109825), (2109952, 2109953), (2110080, 2110081), (2110208, 2110209), (2110336, 2110337), (2110464, 2113409), (2113792, 2113793), (2113803, 2113804), (2113808, 2113814), (2113920, 2113923), (2113932, 2113933), (2118528, 2118545), (4194432, 4194433), (4194436, 4194437), (4194441, 4194566), (4195200, 4195201), (4195968, 4195969), (4198544, 4198545), (6291968, 6291972), (6291979, 6292097), (6292103, 6292105), (6294016, 6294145), (6300160, 6300164), (6300171, 6300289), (6300295, 6300297), (6302208, 6302337), (12583040, 12583041), (12583169, 12583170), (14680074, 14680193), (14680320, 14680322)]

theorem Head.probeReady_keep (hf : outKeys Head.probeReady_keys f₀.key = true) (c : Ctx) {x : Head} (hs : x.r f₀ = v₀) : (Head.probeReady c x).r f₀ = v₀ := by
  unfold Head.probeReady
  split
  · exact hs
  · apply Head.keep_ite
    · apply Head.probeEval_keep (out_mono hf (by decide))
      exact hs
    · exact hs

/-- What Head.probeGood may write. -/
def Head.probeGood_keys : List (Nat × Nat) :=
  [(2105344, 2105345), (2105352, 2105363), (2105735, 2105736), (2105984, 2105985), (2106246, 2106247), (2107392, 2107393), (2107520, 2107521), (2107648, 2107649), (2107776, 2107777), (2107904, 2107905), (2108032, 2108033), (2108160, 2108161), (2108288, 2108289), (2108416, 2108417), (2108544, 2108545), (2108672, 2108673), (2108800, 2108801), (2108928, 2108929), (2109056, 2109057), (2109184, 2109185), (2109312, 2109313), (2109440, 2109441), (2109568, 2109569), (2109696, 2109697), (2109824, 2109825), (2109952, 2109953), (2110080, 2110081), (2110208, 2110209), (2110336, 2110337), (2110464, 2113409), (2113792, 2113793), (2113803, 2113804), (2113808, 2113814), (2113920, 2113923), (2113932, 2113933), (2118528, 2118545), (4194432, 4194433), (4194436, 4194437), (4194441, 4194566), (4195200, 4195201), (4195968, 4195969), (4198544, 4198545), (6291968, 6291972), (6291979, 6292097), (6292103, 6292105), (6294016, 6294145), (6300160, 6300164), (6300171, 6300289), (6300295, 6300297), (6302208, 6302337), (12583040, 12583041), (12583169, 12583170), (14680074, 14680193), (14680320, 14680322)]

theorem Head.probeGood_keep (hf : outKeys Head.probeGood_keys f₀.key = true) (c : Ctx) (a : BitVec 800) (f : ℕ) {x : Head} (hs : x.r f₀ = v₀) : (Head.probeGood c a f x).r f₀ = v₀ := by
  unfold Head.probeGood
  extract_lets +onlyGivenNames -merge -useContext -lift x1
  apply Head.probeReady_keep (out_mono hf (by decide))
  apply Head.keep_record
  exact hs

/-- What Head.angleFault may write. -/
def Head.angleFault_keys : List (Nat × Nat) :=
  [(2105344, 2105345), (2105352, 2105363), (2105735, 2105736), (2105984, 2105985), (2106246, 2106247), (2107392, 2107393), (2107520, 2107521), (2107648, 2107649), (2107776, 2107777), (2107904, 2107905), (2108032, 2108033), (2108160, 2108161), (2108288, 2108289), (2108416, 2108417), (2108544, 2108545), (2108672, 2108673), (2108800, 2108801), (2108928, 2108929), (2109056, 2109057), (2109184, 2109185), (2109312, 2109313), (2109440, 2109441), (2109568, 2109569), (2109696, 2109697), (2109824, 2109825), (2109952, 2109953), (2110080, 2110081), (2110208, 2110209), (2110336, 2110337), (2110464, 2113409), (2113792, 2113793), (2113803, 2113804), (2113808, 2113814), (2113920, 2113923), (2113932, 2113933), (2118528, 2118545), (4194432, 4194438), (4194441, 4194442), (4194444, 4194561), (4194562, 4194563), (4194570, 4194571), (6291968, 6291972), (6291979, 6292097), (6292103, 6292105), (6294016, 6294145), (6300160, 6300164), (6300171, 6300289), (6300295, 6300297), (6302208, 6302337), (12583040, 12583041), (12583169, 12583170), (14680074, 14680193), (14680320, 14680322)]

theorem Head.angleFault_keep (hf : outKeys Head.angleFault_keys f₀.key = true) (c : Ctx) {x : Head} (hs : x.r f₀ = v₀) : (Head.angleFault c x).r f₀ = v₀ := by
  unfold Head.angleFault
  apply Head.keep_ite
  · exact hs
  · extract_lets +onlyGivenNames -merge -useContext -lift x1
    have hx1 : x1.r f₀ = v₀ := by
      unfold x1
      apply Head.keep_flag (out_ne hf (by decide))
      exact hs
    extract_lets +onlyGivenNames -merge -useContext -lift x2
    extract_lets +onlyGivenNames -merge -useContext -lift x3
    have hx3 : x3.r f₀ = v₀ := by
      unfold x3
      apply Head.keep_record
      exact hx1
    extract_lets +onlyGivenNames -merge -useContext -lift x4
    have hx4 : x4.r f₀ = v₀ := by
      unfold x4
      apply Head.keep_put (out_ne hf (by decide))
      apply Head.keep_put (out_ne hf (by decide))
      exact hx3
    extract_lets +onlyGivenNames -merge -useContext -lift x5
    apply Head.keep_ite
    · exact hx4
    · apply Head.keep_ite
      · extract_lets +onlyGivenNames -merge -useContext -lift x6
        have hx6 : x6.r f₀ = v₀ := by
          unfold x6
          apply Head.catchEnds_keep (out_mono hf (by decide))
          apply Head.toCoast_keep (out_mono hf (by decide))
          apply Head.driveLoopsOff_keep (out_mono hf (by decide))
          apply Head.keep_w (out_ne hf (by decide))
          exact hx4
        apply Head.keep_record
        exact hx6
      · apply Head.keep_ite
        · apply Head.catchEnds_keep (out_mono hf (by decide))
          exact hx4
        · apply Head.keep_ite
          · apply Head.spinTo_keep (out_mono hf (by decide))
            exact hx4
          · exact hx4

theorem Head.turning_keep (hf : outKeys [(4194432, 4194437), (4194560, 4194561)] f₀.key = true) {x : Head} (hs : x.r f₀ = v₀) : (Head.turning x).r f₀ = v₀ := by
  unfold Head.turning
  extract_lets +onlyGivenNames -merge -useContext -lift y1_0 y1999_0 x1
  have hy1_0 : y1_0.r f₀ = v₀ := by
    unfold y1_0
    apply Head.keep_put (out_ne hf (by decide))
    exact hs
  have hx1 : x1.r f₀ = v₀ := by
    unfold x1
    apply Head.keep_record
    exact hy1_0
  apply Head.keep_ite
  · apply Head.spinTo_keep (out_mono hf (by decide))
    exact hx1
  · exact hx1

/-- What Head.standstill may write. -/
def Head.standstill_keys : List (Nat × Nat) :=
  [(2107392, 2107393), (2107520, 2107521), (2107648, 2107649), (2107776, 2107777), (2107904, 2107905), (2108032, 2108033), (2108160, 2108161), (2108288, 2108289), (2108416, 2108417), (2108544, 2108545), (2108672, 2108673), (2108800, 2108801), (2108928, 2108929), (2109056, 2109057), (2109184, 2109185), (2109312, 2109313), (2109440, 2109441), (2109568, 2109569), (2109696, 2109697), (2109824, 2109825), (2109952, 2109953), (2110080, 2110081), (2110208, 2110209), (2110336, 2110337), (4194432, 4194437), (4194560, 4194561)]

theorem Head.standstill_keep (hf : outKeys Head.standstill_keys f₀.key = true) (c : Ctx) {x : Head} (hs : x.r f₀ = v₀) : (Head.standstill c x).r f₀ = v₀ := by
  unfold Head.standstill
  extract_lets +onlyGivenNames -merge -useContext -lift x1
  have hx1 : x1.r f₀ = v₀ := by
    unfold x1
    apply Head.keep_put (out_ne hf (by decide))
    exact hs
  extract_lets +onlyGivenNames -merge -useContext -lift x2
  apply Head.keep_ite
  · apply Head.spinTo_keep (out_mono hf (by decide))
    exact hx1
  · apply Head.keep_ite
    · apply Head.spinTo_keep (out_mono hf (by decide))
      apply Head.bridge_keep (out_mono hf (by decide))
      exact hx1
    · apply Head.stopOver_keep (out_mono hf (by decide))
      exact hx1

/-- What Head.afterMotor may write. -/
def Head.afterMotor_keys : List (Nat × Nat) :=
  [(2105344, 2105345), (2105352, 2105363), (2105735, 2105736), (2105984, 2105985), (2106246, 2106247), (2107392, 2107393), (2107520, 2107521), (2107648, 2107649), (2107776, 2107777), (2107904, 2107905), (2108032, 2108033), (2108160, 2108161), (2108288, 2108289), (2108416, 2108417), (2108544, 2108545), (2108672, 2108673), (2108800, 2108801), (2108928, 2108929), (2109056, 2109057), (2109184, 2109185), (2109312, 2109313), (2109440, 2109441), (2109568, 2109569), (2109696, 2109697), (2109824, 2109825), (2109952, 2109953), (2110080, 2110081), (2110208, 2110209), (2110336, 2110337), (2110464, 2113409), (2113792, 2113793), (2113803, 2113804), (2113920, 2113921), (2113932, 2113933), (2118528, 2118545), (4194432, 4194437), (4194441, 4194442), (4194444, 4194563), (4195200, 4195201), (4198544, 4198545), (6291968, 6291972), (6291979, 6292097), (6292103, 6292105), (6294016, 6294145), (6300160, 6300164), (6300171, 6300289), (6300295, 6300297), (6302208, 6302337), (12583040, 12583041), (12583169, 12583170), (14680074, 14680193), (14680320, 14680322)]

theorem Head.afterMotor_keep (hf : outKeys Head.afterMotor_keys f₀.key = true) (c : Ctx) {x : Head} (hs : x.r f₀ = v₀) : (Head.afterMotor c x).r f₀ = v₀ := by
  unfold Head.afterMotor
  extract_lets +onlyGivenNames -merge -useContext -lift y1_0 x1
  have hx1 : x1.r f₀ = v₀ := by
    unfold x1
    apply Head.keep_ite
    · apply Head.keep_ite
      · apply Head.keep_record
        exact hs
      · exact hs
    · apply Head.turning_keep (out_mono hf (by decide))
      exact hs
  apply Head.keep_ite
  · apply Head.catchDone_keep (out_mono hf (by decide))
    apply Head.startFromRest_keep (out_mono hf (by decide))
    exact hx1
  · exact hx1

/-- What Head.profile may write. -/
def Head.profile_keys : List (Nat × Nat) :=
  [(2110464, 2113409), (4194439, 4194440), (4194567, 4194568), (4195200, 4195201)]

theorem Head.profile_keep (hf : outKeys Head.profile_keys f₀.key = true) {x : Head} (hs : x.r f₀ = v₀) : (Head.profile x).r f₀ = v₀ := by
  unfold Head.profile
  extract_lets +onlyGivenNames -merge -useContext -lift x1
  extract_lets +onlyGivenNames -merge -useContext -lift x2
  extract_lets +onlyGivenNames -merge -useContext -lift x3
  extract_lets +onlyGivenNames -merge -useContext -lift x4
  extract_lets +onlyGivenNames -merge -useContext -lift x5
  extract_lets +onlyGivenNames -merge -useContext -lift x6
  have hx6 : x6.r f₀ = v₀ := by
    unfold x6
    apply Head.keep_flagIf (out_ne hf (by decide))
    exact hs
  extract_lets +onlyGivenNames -merge -useContext -lift x7
  have hx7 : x7.r f₀ = v₀ := by
    unfold x7
    apply Head.keep_ite
    · apply Head.keep_put (out_ne hf (by decide))
      exact hx6
    · apply Head.keep_ite
      · apply Head.keep_put (out_ne hf (by decide))
        exact hx6
      · exact hx6
  extract_lets +onlyGivenNames -merge -useContext -lift x8
  have hx8 : x8.r f₀ = v₀ := by
    unfold x8
    apply Head.keep_w (out_ne hf (by decide))
    exact hx7
  extract_lets +onlyGivenNames -merge -useContext -lift y9_0 x9
  have hx9 : x9.r f₀ = v₀ := by
    unfold x9
    apply Head.keep_record
    exact hx8
  apply Head.loopRef_keep (out_mono hf (by decide))
  exact hx9

theorem Head.speedCheck_keep (hf : outKeys [(4194436, 4194437), (4194568, 4194569)] f₀.key = true) (c : Ctx) {x : Head} (hs : x.r f₀ = v₀) : (Head.speedCheck c x).r f₀ = v₀ := by
  unfold Head.speedCheck
  extract_lets +onlyGivenNames -merge -useContext -lift x1
  extract_lets +onlyGivenNames -merge -useContext -lift x2
  have hx2 : x2.r f₀ = v₀ := by
    unfold x2
    apply Head.retarget_keep (out_mono hf (by decide))
    exact hs
  extract_lets +onlyGivenNames -merge -useContext -lift x3
  have hx3 : x3.r f₀ = v₀ := by
    unfold x3
    apply Head.keep_flag (out_ne hf (by decide))
    apply Head.keep_put (out_ne hf (by decide))
    exact hx2
  extract_lets +onlyGivenNames -merge -useContext -lift x4
  extract_lets +onlyGivenNames -merge -useContext -lift x5
  have hx5 : x5.r f₀ = v₀ := by
    unfold x5
    apply Head.keep_ite
    · apply Head.keep_record
      exact hx3
    · exact hx2
  extract_lets +onlyGivenNames -merge -useContext -lift x6
  apply Head.keep_ite
  · apply Head.keep_record
    exact hx5
  · apply Head.keep_ite
    · exact hx5
    · apply Head.keep_record
      exact hx5

/-- What Head.speedSample may write. -/
def Head.speedSample_keys : List (Nat × Nat) :=
  [(2107392, 2107393), (2107520, 2107521), (2107648, 2107649), (2107776, 2107777), (2107904, 2107905), (2108032, 2108033), (2108160, 2108161), (2108288, 2108289), (2108416, 2108417), (2108544, 2108545), (2108672, 2108673), (2108800, 2108801), (2108928, 2108929), (2109056, 2109057), (2109184, 2109185), (2109312, 2109313), (2109440, 2109441), (2109568, 2109569), (2109696, 2109697), (2109824, 2109825), (2109952, 2109953), (2110080, 2110081), (2110208, 2110209), (2110336, 2110337), (2110464, 2113409), (4194432, 4194433), (4194436, 4194437), (4194439, 4194440), (4194560, 4194561), (4194567, 4194569), (4195200, 4195201)]

theorem Head.speedSample_keep (hf : outKeys Head.speedSample_keys f₀.key = true) (c : Ctx) {x : Head} (hs : x.r f₀ = v₀) : (Head.speedSample c x).r f₀ = v₀ := by
  unfold Head.speedSample
  apply Head.keep_ite
  · extract_lets +onlyGivenNames -merge -useContext -lift x1
    have hx1 : x1.r f₀ = v₀ := by
      unfold x1
      apply Head.speedCheck_keep (out_mono hf (by decide))
      apply Head.profile_keep (out_mono hf (by decide))
      exact hs
    apply Head.keep_ite
    · extract_lets +onlyGivenNames -merge -useContext -lift y2_0 x2
      have hx2 : x2.r f₀ = v₀ := by
        unfold x2
        apply Head.keep_record
        exact hx1
      apply Head.enterSettle_keep (out_mono hf (by decide))
      exact hx2
    · apply Head.stopOver_keep (out_mono hf (by decide))
      exact hx1
  · apply Head.keep_record
    exact hs

theorem Head.alignSample_keep (hf : outKeys [] f₀.key = true) (c : Ctx) (t : ℕ) {x : Head} (hs : x.r f₀ = v₀) : (Head.alignSample c t x).r f₀ = v₀ := by
  unfold Head.alignSample
  apply Head.keep_ite
  · apply Head.sendDuties_keep (out_mono hf (by decide))
    exact hs
  · exact hs

theorem Head.formCurrents_keep (hf : outKeys [(4198144, 4198273)] f₀.key = true) (a : BitVec 800) (f : ℕ) {x : Head} (hs : x.r f₀ = v₀) : (Head.formCurrents a f x).r f₀ = v₀ := by
  unfold Head.formCurrents
  extract_lets +onlyGivenNames -merge -useContext -lift x1
  apply Head.keep_wi (out_ne hf (by decide))
  apply Head.keep_wi (out_ne hf (by decide))
  exact hs

theorem Head.commutate_keep (hf : outKeys [(4194438, 4194439)] f₀.key = true) (c : Ctx) (t : ℕ) (vd : ℤ) (vq : ℤ) {x : Head} (hs : x.r f₀ = v₀) : (Head.commutate c t vd vq x).r f₀ = v₀ := by
  unfold Head.commutate
  split
  · extract_lets +onlyGivenNames -merge -useContext -lift x1
    extract_lets +onlyGivenNames -merge -useContext -lift x2
    extract_lets +onlyGivenNames -merge -useContext -lift y3_0 y3_1 x3
    have hx3 : x3.r f₀ = v₀ := by
      unfold x3
      apply Head.keep_ite
      · apply Head.keep_record
        exact hs
      · apply Head.keep_record
        exact hs
    extract_lets +onlyGivenNames -merge -useContext -lift x4
    have hx4 : x4.r f₀ = v₀ := by
      unfold x4
      apply Head.keep_ite
      · apply Head.keep_put (out_ne hf (by decide))
        exact hx3
      · exact hx3
    apply Head.keep_ite
    · apply Head.sendDuties_keep (out_mono hf (by decide))
      exact hx4
    · exact hx4

theorem Head.refreshChop_keep (hf : outKeys [(4194440, 4194441)] f₀.key = true) {x : Head} (hs : x.r f₀ = v₀) : (Head.refreshChop x).r f₀ = v₀ := by
  unfold Head.refreshChop
  apply Head.keep_put (out_ne hf (by decide))
  exact hs

theorem Head.busFrame_keep (hf : outKeys [(4194440, 4194441), (4194574, 4194575), (4194576, 4194577)] f₀.key = true) (a : BitVec 800) (old : ℕ) {x : Head} (hs : x.r f₀ = v₀) : (Head.busFrame a old x).r f₀ = v₀ := by
  unfold Head.busFrame
  extract_lets +onlyGivenNames -merge -useContext -lift x1
  extract_lets +onlyGivenNames -merge -useContext -lift x2
  extract_lets +onlyGivenNames -merge -useContext -lift x3
  have hx3 : x3.r f₀ = v₀ := by
    unfold x3
    apply Head.keep_flagIf (out_ne hf (by decide))
    exact hs
  extract_lets +onlyGivenNames -merge -useContext -lift x4
  have hx4 : x4.r f₀ = v₀ := by
    unfold x4
    apply Head.refreshChop_keep (out_mono hf (by decide))
    apply Head.keep_flagIf (out_ne hf (by decide))
    exact hx3
  extract_lets +onlyGivenNames -merge -useContext -lift x5
  extract_lets +onlyGivenNames -merge -useContext -lift x6
  apply Head.keep_record
  exact hx4

/-- What Head.settleOver may write. -/
def Head.settleOver_keys : List (Nat × Nat) :=
  [(2105344, 2105345), (2105352, 2105363), (2105735, 2105736), (2105984, 2105985), (2106246, 2106247), (2107392, 2107393), (2107520, 2107521), (2107648, 2107649), (2107776, 2107777), (2107904, 2107905), (2108032, 2108033), (2108160, 2108161), (2108288, 2108289), (2108416, 2108417), (2108544, 2108545), (2108672, 2108673), (2108800, 2108801), (2108928, 2108929), (2109056, 2109057), (2109184, 2109185), (2109312, 2109313), (2109440, 2109441), (2109568, 2109569), (2109696, 2109697), (2109824, 2109825), (2109952, 2109953), (2110080, 2110081), (2110208, 2110209), (2110336, 2110337), (2110464, 2113409), (2113792, 2113793), (2113803, 2113804), (2113808, 2113814), (2113920, 2113923), (2113932, 2113933), (2118528, 2118545), (4194432, 4194433), (4194436, 4194437), (4194441, 4194442), (4194444, 4194563), (4195200, 4195201), (4198544, 4198545), (6291968, 6291972), (6291979, 6292097), (6292103, 6292105), (6294016, 6294145), (6300160, 6300164), (6300171, 6300289), (6300295, 6300297), (6302208, 6302337), (12583040, 12583041), (12583169, 12583170), (14680074, 14680193), (14680320, 14680322)]

theorem Head.settleOver_keep (hf : outKeys Head.settleOver_keys f₀.key = true) (c : Ctx) (t : ℕ) {x : Head} (hs : x.r f₀ = v₀) : (Head.settleOver c t x).r f₀ = v₀ := by
  unfold Head.settleOver
  extract_lets +onlyGivenNames -merge -useContext -lift y1_0 x1
  have hx1 : x1.r f₀ = v₀ := by
    unfold x1
    apply Head.keep_record
    exact hs
  apply Head.keep_ite
  · apply Head.catchEnds_keep (out_mono hf (by decide))
    apply Head.toCoast_keep (out_mono hf (by decide))
    exact hx1
  · apply Head.keep_ite
    · apply Head.catchDone_keep (out_mono hf (by decide))
      apply Head.startFromRest_keep (out_mono hf (by decide))
      exact hx1
    · apply Head.spinTo_keep (out_mono hf (by decide))
      apply Head.bridge_keep (out_mono hf (by decide))
      exact hx1

/-- What Head.scmd may write. -/
def Head.scmd_keys : List (Nat × Nat) :=
  [(4194432, 4194433), (4194436, 4194437), (4194444, 4194561), (4194578, 4194579)]

theorem Head.scmd_keep (hf : outKeys Head.scmd_keys f₀.key = true) (c : Ctx) (v : ℕ) {x : Head} (hs : x.r f₀ = v₀) : (Head.scmd c v x).r f₀ = v₀ := by
  unfold Head.scmd
  split
  · exact hs
  · apply Head.keep_ite
    · extract_lets +onlyGivenNames -merge -useContext -lift y1_0 x1
      have hx1 : x1.r f₀ = v₀ := by
        unfold x1
        apply Head.keep_record
        exact hs
      extract_lets +onlyGivenNames -merge -useContext -lift x2
      have hx2 : x2.r f₀ = v₀ := by
        unfold x2
        apply Head.spinTo_keep (out_mono hf (by decide))
        exact hx1
      apply Head.bridge_keep (out_mono hf (by decide))
      apply Head.sendDuties_keep (out_mono hf (by decide))
      exact hx2
    · apply Head.keep_w (out_ne hf (by decide))
      apply Head.keep_flag (out_ne hf (by decide))
      exact hs
  · apply Head.keep_flag (out_ne hf (by decide))
    exact hs

theorem Head.chopSilentClear_keep (hf : outKeys [(4194440, 4194441), (4194575, 4194576)] f₀.key = true) {x : Head} (hs : x.r f₀ = v₀) : (Head.chopSilentClear x).r f₀ = v₀ := by
  unfold Head.chopSilentClear
  apply Head.refreshChop_keep (out_mono hf (by decide))
  extract_lets +onlyGivenNames -merge -useContext -lift x1
  have hx1 : x1.r f₀ = v₀ := by
    unfold x1
    apply Head.keep_put (out_ne hf (by decide))
    exact hs
  apply Head.keep_record
  exact hx1

/-- What Head.motionEnd may write. -/
def Head.motionEnd_keys : List (Nat × Nat) :=
  [(2098438, 2098439), (2098440, 2098441), (2105344, 2105345), (2105352, 2105363), (2105735, 2105736), (2105984, 2105985), (2106246, 2106247), (2107392, 2107393), (2107520, 2107521), (2107648, 2107649), (2107776, 2107777), (2107904, 2107905), (2108032, 2108033), (2108160, 2108161), (2108288, 2108289), (2108416, 2108417), (2108544, 2108545), (2108672, 2108673), (2108800, 2108801), (2108928, 2108929), (2109056, 2109057), (2109184, 2109185), (2109312, 2109313), (2109440, 2109441), (2109568, 2109569), (2109696, 2109697), (2109824, 2109825), (2109952, 2109953), (2110080, 2110081), (2110208, 2110209), (2110336, 2110337), (2110464, 2113409), (2113792, 2113804), (2113808, 2113814), (2113920, 2113923), (2113932, 2113933), (2118528, 2118545), (4194432, 4194433), (4194436, 4194437), (4194441, 4194442), (4194444, 4194561), (4194562, 4194563), (6291968, 6291974), (6291979, 6292097), (6292103, 6292105), (6294016, 6294145), (6300160, 6300166), (6300171, 6300289), (6300295, 6300297), (6302208, 6302337), (8388742, 8388743), (8454278, 8454279), (8519814, 8519815), (8585350, 8585351), (8650886, 8650887), (8716422, 8716423), (8781958, 8781959), (8847494, 8847495), (8913030, 8913031), (8978566, 8978567), (9044102, 9044103), (9109638, 9109639), (9175174, 9175175), (9240710, 9240711), (9306246, 9306247), (9371782, 9371783), (9437318, 9437319), (9502854, 9502855), (9568390, 9568391), (9633926, 9633927), (9699462, 9699463), (9764998, 9764999), (9830534, 9830535), (9896070, 9896071), (9961606, 9961607), (10027142, 10027143), (10092678, 10092679), (10158214, 10158215), (10223750, 10223751), (10289286, 10289287), (10354822, 10354823), (10420358, 10420359), (10485894, 10485895), (12583040, 12583041), (12583169, 12583170), (14680074, 14680193), (14680320, 14680322)]

theorem Head.motionEnd_keep (hf : outKeys Head.motionEnd_keys f₀.key = true) (c : Ctx) (g : Fin 2) (code : ℕ) {x : Head} (hs : x.r f₀ = v₀) : (Head.motionEnd c g code x).r f₀ = v₀ := by
  unfold Head.motionEnd
  apply Head.genDone_keep (out_mono hf (by decide))
  exact hs

/-- What Head.runMove may write. -/
def Head.runMove_keys : List (Nat × Nat) :=
  [(2098438, 2098439), (2098440, 2098441), (2105344, 2105345), (2105352, 2105363), (2105735, 2105736), (2105984, 2105985), (2106246, 2106247), (2107392, 2107393), (2107520, 2107521), (2107648, 2107649), (2107776, 2107777), (2107904, 2107905), (2108032, 2108033), (2108160, 2108161), (2108288, 2108289), (2108416, 2108417), (2108544, 2108545), (2108672, 2108673), (2108800, 2108801), (2108928, 2108929), (2109056, 2109057), (2109184, 2109185), (2109312, 2109313), (2109440, 2109441), (2109568, 2109569), (2109696, 2109697), (2109824, 2109825), (2109952, 2109953), (2110080, 2110081), (2110208, 2110209), (2110336, 2110337), (2110464, 2113409), (2113792, 2113804), (2113808, 2113814), (2113920, 2113923), (2113932, 2113933), (2118528, 2118545), (4194432, 4194433), (4194436, 4194437), (4194441, 4194442), (4194444, 4194561), (4194562, 4194563), (6291968, 6291974), (6291979, 6292097), (6292103, 6292106), (6294016, 6294145), (6294528, 6294785), (6300160, 6300166), (6300171, 6300289), (6300295, 6300298), (6302208, 6302337), (6302720, 6302977), (8388742, 8388743), (8454278, 8454279), (8519814, 8519815), (8585350, 8585351), (8650886, 8650887), (8716422, 8716423), (8781958, 8781959), (8847494, 8847495), (8913030, 8913031), (8978566, 8978567), (9044102, 9044103), (9109638, 9109639), (9175174, 9175175), (9240710, 9240711), (9306246, 9306247), (9371782, 9371783), (9437318, 9437319), (9502854, 9502855), (9568390, 9568391), (9633926, 9633927), (9699462, 9699463), (9764998, 9764999), (9830534, 9830535), (9896070, 9896071), (9961606, 9961607), (10027142, 10027143), (10092678, 10092679), (10158214, 10158215), (10223750, 10223751), (10289286, 10289287), (10354822, 10354823), (10420358, 10420359), (10485894, 10485895), (12583040, 12583041), (12583169, 12583170), (14680074, 14680193), (14680320, 14680322)]

theorem Head.runMove_keep (hf : outKeys Head.runMove_keys f₀.key = true) (c : Ctx) (g : Fin 2) (d : ℤ) (owner : Bool) {x : Head} (hs : x.r f₀ = v₀) : (Head.runMove c g d owner x).r f₀ = v₀ := by
  unfold Head.runMove
  apply Head.keep_ite
  · apply Head.motionEnd_keep (out_mono hf (by decide))
    apply Head.keep_put (out_fin hf StepReg.OWNER _ (by decide))
    exact hs
  · split
    · extract_lets +onlyGivenNames -merge -useContext -lift x1
      have hx1 : x1.r f₀ = v₀ := by
        unfold x1
        apply Head.keep_flag (out_fin hf StepReg.MCMD_REFUSED _ (by decide))
        apply Head.keep_w (out_fin hf StepReg.END_CODE _ (by decide))
        exact hs
      apply Head.keep_ite
      · apply Head.sledReport_keep (out_mono hf (by decide))
        exact hx1
      · exact hx1
    · extract_lets +onlyGivenNames -merge -useContext -lift x2
      have hx2 : x2.r f₀ = v₀ := by
        unfold x2
        apply Head.keep_w (out_fin hf StepReg.PLAN_CREEP _ (by decide))
        apply Head.keep_w (out_fin hf StepReg.PLAN_N2 _ (by decide))
        apply Head.keep_w (out_fin hf StepReg.PLAN_N1 _ (by decide))
        exact hs
      extract_lets +onlyGivenNames -merge -useContext -lift x3
      have hx3 : x3.r f₀ = v₀ := by
        unfold x3
        apply Head.keep_put (out_fin hf StepReg.OWNER _ (by decide))
        apply Head.keep_w (out_fin hf StepReg.GSTATE _ (by decide))
        exact hx2
      apply Head.onGen_keep (out_mono hf (by decide))
      exact hx3

/-- What Head.moveRefused may write. -/
def Head.moveRefused_keys : List (Nat × Nat) :=
  [(6291980, 6291981), (6292105, 6292106), (6300172, 6300173), (6300297, 6300298)]

theorem Head.moveRefused_keep (hf : outKeys Head.moveRefused_keys f₀.key = true) (g : Fin 2) (code : ℕ) {x : Head} (hs : x.r f₀ = v₀) : (Head.moveRefused g code x).r f₀ = v₀ := by
  unfold Head.moveRefused
  apply Head.keep_flag (out_fin hf StepReg.MCMD_REFUSED _ (by decide))
  apply Head.keep_w (out_fin hf StepReg.END_CODE _ (by decide))
  exact hs

/-- What Head.askMove may write. -/
def Head.askMove_keys : List (Nat × Nat) :=
  [(2098438, 2098439), (2098440, 2098441), (2105344, 2105345), (2105352, 2105363), (2105735, 2105736), (2105984, 2105985), (2106246, 2106247), (2107392, 2107393), (2107520, 2107521), (2107648, 2107649), (2107776, 2107777), (2107904, 2107905), (2108032, 2108033), (2108160, 2108161), (2108288, 2108289), (2108416, 2108417), (2108544, 2108545), (2108672, 2108673), (2108800, 2108801), (2108928, 2108929), (2109056, 2109057), (2109184, 2109185), (2109312, 2109313), (2109440, 2109441), (2109568, 2109569), (2109696, 2109697), (2109824, 2109825), (2109952, 2109953), (2110080, 2110081), (2110208, 2110209), (2110336, 2110337), (2110464, 2113409), (2113792, 2113804), (2113808, 2113814), (2113920, 2113923), (2113932, 2113933), (2118528, 2118545), (4194432, 4194433), (4194436, 4194437), (4194441, 4194442), (4194444, 4194561), (4194562, 4194563), (6291968, 6291974), (6291979, 6292097), (6292103, 6292106), (6294016, 6294145), (6294528, 6294785), (6300160, 6300166), (6300171, 6300289), (6300295, 6300298), (6302208, 6302337), (6302720, 6302977), (8388742, 8388743), (8454278, 8454279), (8519814, 8519815), (8585350, 8585351), (8650886, 8650887), (8716422, 8716423), (8781958, 8781959), (8847494, 8847495), (8913030, 8913031), (8978566, 8978567), (9044102, 9044103), (9109638, 9109639), (9175174, 9175175), (9240710, 9240711), (9306246, 9306247), (9371782, 9371783), (9437318, 9437319), (9502854, 9502855), (9568390, 9568391), (9633926, 9633927), (9699462, 9699463), (9764998, 9764999), (9830534, 9830535), (9896070, 9896071), (9961606, 9961607), (10027142, 10027143), (10092678, 10092679), (10158214, 10158215), (10223750, 10223751), (10289286, 10289287), (10354822, 10354823), (10420358, 10420359), (10485894, 10485895), (12583040, 12583041), (12583169, 12583170), (14680074, 14680193), (14680320, 14680322)]

theorem Head.askMove_keep (hf : outKeys Head.askMove_keys f₀.key = true) (c : Ctx) (g : Fin 2) (d : ℤ) (owner : Bool) {x : Head} (hs : x.r f₀ = v₀) : (Head.askMove c g d owner x).r f₀ = v₀ := by
  unfold Head.askMove
  apply Head.keep_ite
  · extract_lets +onlyGivenNames -merge -useContext -lift x1
    have hx1 : x1.r f₀ = v₀ := by
      unfold x1
      apply Head.moveRefused_keep (out_mono hf (by decide))
      exact hs
    apply Head.keep_ite
    · apply Head.sledReport_keep (out_mono hf (by decide))
      exact hx1
    · exact hx1
  · apply Head.keep_ite
    · extract_lets +onlyGivenNames -merge -useContext -lift x2
      have hx2 : x2.r f₀ = v₀ := by
        unfold x2
        apply Head.moveRefused_keep (out_mono hf (by decide))
        exact hs
      apply Head.keep_ite
      · apply Head.sledReport_keep (out_mono hf (by decide))
        exact hx2
      · exact hx2
    · apply Head.runMove_keep (out_mono hf (by decide))
      exact hs

/-- What Head.landMove may write. -/
def Head.landMove_keys : List (Nat × Nat) :=
  [(2098438, 2098439), (2098440, 2098441), (2105344, 2105345), (2105352, 2105363), (2105735, 2105736), (2105984, 2105985), (2106246, 2106247), (2107392, 2107393), (2107520, 2107521), (2107648, 2107649), (2107776, 2107777), (2107904, 2107905), (2108032, 2108033), (2108160, 2108161), (2108288, 2108289), (2108416, 2108417), (2108544, 2108545), (2108672, 2108673), (2108800, 2108801), (2108928, 2108929), (2109056, 2109057), (2109184, 2109185), (2109312, 2109313), (2109440, 2109441), (2109568, 2109569), (2109696, 2109697), (2109824, 2109825), (2109952, 2109953), (2110080, 2110081), (2110208, 2110209), (2110336, 2110337), (2110464, 2113409), (2113792, 2113804), (2113808, 2113814), (2113920, 2113923), (2113932, 2113933), (2118528, 2118545), (4194432, 4194433), (4194436, 4194437), (4194441, 4194442), (4194444, 4194561), (4194562, 4194563), (6291968, 6291974), (6291979, 6292097), (6292103, 6292106), (6294016, 6294145), (6294528, 6294785), (6300160, 6300166), (6300171, 6300289), (6300295, 6300298), (6302208, 6302337), (6302720, 6302977), (8388742, 8388743), (8454278, 8454279), (8519814, 8519815), (8585350, 8585351), (8650886, 8650887), (8716422, 8716423), (8781958, 8781959), (8847494, 8847495), (8913030, 8913031), (8978566, 8978567), (9044102, 9044103), (9109638, 9109639), (9175174, 9175175), (9240710, 9240711), (9306246, 9306247), (9371782, 9371783), (9437318, 9437319), (9502854, 9502855), (9568390, 9568391), (9633926, 9633927), (9699462, 9699463), (9764998, 9764999), (9830534, 9830535), (9896070, 9896071), (9961606, 9961607), (10027142, 10027143), (10092678, 10092679), (10158214, 10158215), (10223750, 10223751), (10289286, 10289287), (10354822, 10354823), (10420358, 10420359), (10485894, 10485895), (12583040, 12583041), (12583169, 12583170), (14680074, 14680193), (14680320, 14680322)]

theorem Head.landMove_keep (hf : outKeys Head.landMove_keys f₀.key = true) (c : Ctx) (n : ℤ) {x : Head} (hs : x.r f₀ = v₀) : (Head.landMove c n x).r f₀ = v₀ := by
  unfold Head.landMove
  extract_lets +onlyGivenNames -merge -useContext -lift x1
  apply Head.keep_ite
  · apply Head.sledReport_keep (out_mono hf (by decide))
    apply Head.moveRefused_keep (out_mono hf (by decide))
    exact hs
  · extract_lets +onlyGivenNames -merge -useContext -lift x2
    apply Head.askMove_keep (out_mono hf (by decide))
    exact hs

/-- What Head.mcmd may write. -/
def Head.mcmd_keys : List (Nat × Nat) :=
  [(2098438, 2098439), (2098440, 2098441), (2105344, 2105345), (2105352, 2105363), (2105735, 2105736), (2105984, 2105985), (2106246, 2106247), (2107392, 2107393), (2107520, 2107521), (2107648, 2107649), (2107776, 2107777), (2107904, 2107905), (2108032, 2108033), (2108160, 2108161), (2108288, 2108289), (2108416, 2108417), (2108544, 2108545), (2108672, 2108673), (2108800, 2108801), (2108928, 2108929), (2109056, 2109057), (2109184, 2109185), (2109312, 2109313), (2109440, 2109441), (2109568, 2109569), (2109696, 2109697), (2109824, 2109825), (2109952, 2109953), (2110080, 2110081), (2110208, 2110209), (2110336, 2110337), (2110464, 2113409), (2113792, 2113804), (2113808, 2113814), (2113920, 2113923), (2113932, 2113933), (2118528, 2118545), (4194432, 4194433), (4194436, 4194437), (4194441, 4194442), (4194444, 4194561), (4194562, 4194563), (6291968, 6291975), (6291979, 6292097), (6292103, 6292106), (6294016, 6294145), (6294528, 6294785), (6300160, 6300167), (6300171, 6300289), (6300295, 6300298), (6302208, 6302337), (6302720, 6302977), (8388742, 8388743), (8454278, 8454279), (8519814, 8519815), (8585350, 8585351), (8650886, 8650887), (8716422, 8716423), (8781958, 8781959), (8847494, 8847495), (8913030, 8913031), (8978566, 8978567), (9044102, 9044103), (9109638, 9109639), (9175174, 9175175), (9240710, 9240711), (9306246, 9306247), (9371782, 9371783), (9437318, 9437319), (9502854, 9502855), (9568390, 9568391), (9633926, 9633927), (9699462, 9699463), (9764998, 9764999), (9830534, 9830535), (9896070, 9896071), (9961606, 9961607), (10027142, 10027143), (10092678, 10092679), (10158214, 10158215), (10223750, 10223751), (10289286, 10289287), (10354822, 10354823), (10420358, 10420359), (10485894, 10485895), (12583040, 12583041), (12583169, 12583170), (14680074, 14680193), (14680320, 14680322)]

theorem Head.mcmd_keep (hf : outKeys Head.mcmd_keys f₀.key = true) (c : Ctx) (g : Fin 2) (v : ℕ) {x : Head} (hs : x.r f₀ = v₀) : (Head.mcmd c g v x).r f₀ = v₀ := by
  unfold Head.mcmd
  extract_lets +onlyGivenNames -merge -useContext -lift x1
  extract_lets +onlyGivenNames -merge -useContext -lift x2
  have hx2 : x2.r f₀ = v₀ := by
    unfold x2
    apply Head.keep_flag (out_fin hf StepReg.MCMD_REFUSED _ (by decide))
    exact hs
  split
  · exact hs
  · apply Head.askMove_keep (out_mono hf (by decide))
    exact hs
  · apply Head.keep_ite
    · apply Head.onGen_keep (out_mono hf (by decide))
      exact hs
    · apply Head.keep_ite
      · apply Head.onGen_keep (out_mono hf (by decide))
        exact hs
      · exact hx2
  · apply Head.keep_ite
    · apply Head.onGen_keep (out_mono hf (by decide))
      exact hs
    · exact hx2
  · apply Head.keep_ite
    · extract_lets +onlyGivenNames -merge -useContext -lift x3
      have hx3 : x3.r f₀ = v₀ := by
        unfold x3
        apply Head.keep_put (out_fin hf StepReg.OWNER _ (by decide))
        apply Head.keep_w (out_fin hf StepReg.GSTATE _ (by decide))
        apply Head.keep_put (out_fin hf StepReg.HOMED _ (by decide))
        exact hs
      extract_lets +onlyGivenNames -merge -useContext -lift x4
      apply Head.onGen_keep (out_mono hf (by decide))
      exact hx3
    · apply Head.moveRefused_keep (out_mono hf (by decide))
      exact hs
  · apply Head.keep_ite
    · apply Head.onGen_keep (out_mono hf (by decide))
      exact hs
    · exact hx2
  · exact hx2

theorem Head.latchOrigin_keep (hf : outKeys [(6291975, 6291976), (6292107, 6292108), (6300167, 6300168), (6300299, 6300300)] f₀.key = true) (g : Fin 2) (enc : ℤ) (xv : ℤ) {x : Head} (hs : x.r f₀ = v₀) : (Head.latchOrigin g enc xv x).r f₀ = v₀ := by
  unfold Head.latchOrigin
  extract_lets +onlyGivenNames -merge -useContext -lift x1
  have hx1 : x1.r f₀ = v₀ := by
    unfold x1
    apply Head.onGen_keep (out_mono hf (by decide))
    exact hs
  apply Head.keep_flag (out_fin hf StepReg.ORG_LATCHED _ (by decide))
  apply Head.keep_put (out_fin hf StepReg.ORG_VALID _ (by decide))
  exact hx1

theorem Head.homeRelease_keep (hf : outKeys [(6291974, 6291976), (6292107, 6292108), (6300166, 6300168), (6300299, 6300300)] f₀.key = true) (g : Fin 2) {x : Head} (hs : x.r f₀ = v₀) : (Head.homeRelease g x).r f₀ = v₀ := by
  unfold Head.homeRelease
  split
  · apply Head.onGen_keep (out_mono hf (by decide))
    apply Head.keep_put (out_fin hf StepReg.HOMED _ (by decide))
    apply Head.latchOrigin_keep (out_mono hf (by decide))
    exact hs
  · apply Head.onGen_keep (out_mono hf (by decide))
    exact hs

theorem Head.endPhase_keep (hf : outKeys [(6291974, 6291976), (6292107, 6292108), (6300166, 6300168), (6300299, 6300300)] f₀.key = true) (g : Fin 2) (p : ℕ) {x : Head} (hs : x.r f₀ = v₀) : (Head.endPhase g p x).r f₀ = v₀ := by
  unfold Head.endPhase
  apply Head.keep_ite
  · apply Head.homeRelease_keep (out_mono hf (by decide))
    exact hs
  · apply Head.onGen_keep (out_mono hf (by decide))
    exact hs

/-- What Head.startPhase may write. -/
def Head.startPhase_keys : List (Nat × Nat) :=
  [(6291971, 6291972), (6291974, 6291976), (6292107, 6292108), (6300163, 6300164), (6300166, 6300168), (6300299, 6300300)]

theorem Head.startPhase_keep (hf : outKeys Head.startPhase_keys f₀.key = true) (g : Fin 2) {x : Head} (hs : x.r f₀ = v₀) : (Head.startPhase g x).r f₀ = v₀ := by
  unfold Head.startPhase
  extract_lets +onlyGivenNames -merge -useContext -lift x1
  extract_lets +onlyGivenNames -merge -useContext -lift x2
  have hx2 : x2.r f₀ = v₀ := by
    unfold x2
    apply Head.keep_w (out_fin hf StepReg.HPHASE _ (by decide))
    exact hs
  apply Head.keep_ite
  · apply Head.endPhase_keep (out_mono hf (by decide))
    apply Head.onGen_keep (out_mono hf (by decide))
    exact hx2
  · extract_lets +onlyGivenNames -merge -useContext -lift x3
    extract_lets +onlyGivenNames -merge -useContext -lift x4
    apply Head.onGen_keep (out_mono hf (by decide))
    exact hx2

/-- What Head.takeStop may write. -/
def Head.takeStop_keys : List (Nat × Nat) :=
  [(2098438, 2098439), (2098440, 2098441), (2105344, 2105345), (2105352, 2105363), (2105735, 2105736), (2105984, 2105985), (2106246, 2106247), (2107392, 2107393), (2107520, 2107521), (2107648, 2107649), (2107776, 2107777), (2107904, 2107905), (2108032, 2108033), (2108160, 2108161), (2108288, 2108289), (2108416, 2108417), (2108544, 2108545), (2108672, 2108673), (2108800, 2108801), (2108928, 2108929), (2109056, 2109057), (2109184, 2109185), (2109312, 2109313), (2109440, 2109441), (2109568, 2109569), (2109696, 2109697), (2109824, 2109825), (2109952, 2109953), (2110080, 2110081), (2110208, 2110209), (2110336, 2110337), (2110464, 2113409), (2113792, 2113804), (2113808, 2113814), (2113920, 2113923), (2113932, 2113933), (2118528, 2118545), (4194432, 4194433), (4194436, 4194437), (4194441, 4194442), (4194444, 4194561), (4194562, 4194563), (6291968, 6291974), (6291979, 6292097), (6292103, 6292105), (6294016, 6294145), (6300160, 6300166), (6300171, 6300289), (6300295, 6300297), (6302208, 6302337), (8388742, 8388743), (8454278, 8454279), (8519814, 8519815), (8585350, 8585351), (8650886, 8650887), (8716422, 8716423), (8781958, 8781959), (8847494, 8847495), (8913030, 8913031), (8978566, 8978567), (9044102, 9044103), (9109638, 9109639), (9175174, 9175175), (9240710, 9240711), (9306246, 9306247), (9371782, 9371783), (9437318, 9437319), (9502854, 9502855), (9568390, 9568391), (9633926, 9633927), (9699462, 9699463), (9764998, 9764999), (9830534, 9830535), (9896070, 9896071), (9961606, 9961607), (10027142, 10027143), (10092678, 10092679), (10158214, 10158215), (10223750, 10223751), (10289286, 10289287), (10354822, 10354823), (10420358, 10420359), (10485894, 10485895), (12583040, 12583041), (12583169, 12583170), (14680074, 14680193), (14680320, 14680322)]

theorem Head.takeStop_keep (hf : outKeys Head.takeStop_keys f₀.key = true) (c : Ctx) (g : Fin 2) (code : ℕ) {x : Head} (hs : x.r f₀ = v₀) : (Head.takeStop c g code x).r f₀ = v₀ := by
  unfold Head.takeStop
  extract_lets +onlyGivenNames -merge -useContext -lift x1
  split
  · apply Head.onGen_keep (out_mono hf (by decide))
    exact hs
  · apply Head.keep_ite
    · extract_lets +onlyGivenNames -merge -useContext -lift x2
      apply Head.keep_ite
      · apply Head.motionEnd_keep (out_mono hf (by decide))
        exact hs
      · extract_lets +onlyGivenNames -merge -useContext -lift x3
        apply Head.onGen_keep (out_mono hf (by decide))
        apply Head.keep_w (out_fin hf StepReg.GSTATE _ (by decide))
        exact hs
    · apply Head.onGen_keep (out_mono hf (by decide))
      exact hs

/-- What Head.tickRequests may write. -/
def Head.tickRequests_keys : List (Nat × Nat) :=
  [(2098438, 2098439), (2098440, 2098441), (2105344, 2105345), (2105352, 2105363), (2105735, 2105736), (2105984, 2105985), (2106246, 2106247), (2107392, 2107393), (2107520, 2107521), (2107648, 2107649), (2107776, 2107777), (2107904, 2107905), (2108032, 2108033), (2108160, 2108161), (2108288, 2108289), (2108416, 2108417), (2108544, 2108545), (2108672, 2108673), (2108800, 2108801), (2108928, 2108929), (2109056, 2109057), (2109184, 2109185), (2109312, 2109313), (2109440, 2109441), (2109568, 2109569), (2109696, 2109697), (2109824, 2109825), (2109952, 2109953), (2110080, 2110081), (2110208, 2110209), (2110336, 2110337), (2110464, 2113409), (2113792, 2113804), (2113808, 2113814), (2113920, 2113923), (2113932, 2113933), (2118528, 2118545), (4194432, 4194433), (4194436, 4194437), (4194441, 4194442), (4194444, 4194561), (4194562, 4194563), (6291968, 6291976), (6291979, 6292097), (6292103, 6292105), (6292107, 6292108), (6294016, 6294145), (6300160, 6300168), (6300171, 6300289), (6300295, 6300297), (6300299, 6300300), (6302208, 6302337), (8388742, 8388743), (8454278, 8454279), (8519814, 8519815), (8585350, 8585351), (8650886, 8650887), (8716422, 8716423), (8781958, 8781959), (8847494, 8847495), (8913030, 8913031), (8978566, 8978567), (9044102, 9044103), (9109638, 9109639), (9175174, 9175175), (9240710, 9240711), (9306246, 9306247), (9371782, 9371783), (9437318, 9437319), (9502854, 9502855), (9568390, 9568391), (9633926, 9633927), (9699462, 9699463), (9764998, 9764999), (9830534, 9830535), (9896070, 9896071), (9961606, 9961607), (10027142, 10027143), (10092678, 10092679), (10158214, 10158215), (10223750, 10223751), (10289286, 10289287), (10354822, 10354823), (10420358, 10420359), (10485894, 10485895), (12583040, 12583041), (12583169, 12583170), (14680074, 14680193), (14680320, 14680322)]

theorem Head.tickRequests_keep (hf : outKeys Head.tickRequests_keys f₀.key = true) (c : Ctx) (g : Fin 2) {x : Head} (hs : x.r f₀ = v₀) : (Head.tickRequests c g x).r f₀ = v₀ := by
  unfold Head.tickRequests
  extract_lets +onlyGivenNames -merge -useContext -lift x1
  split
  · apply Head.motionEnd_keep (out_mono hf (by decide))
    exact hs
  · apply Head.keep_ite
    · split
      · apply Head.onGen_keep (out_mono hf (by decide))
        exact hs
      · apply Head.startPhase_keep (out_mono hf (by decide))
        exact hs
    · split
      · apply Head.takeStop_keep (out_mono hf (by decide))
        exact hs
      · exact hs

/-- What Head.tickMove may write. -/
def Head.tickMove_keys : List (Nat × Nat) :=
  [(6291979, 6291980), (6292106, 6292107), (6293760, 6293761), (6294016, 6294145), (6300171, 6300172), (6300298, 6300299), (6301952, 6301953), (6302208, 6302337)]

theorem Head.tickMove_keep (hf : outKeys Head.tickMove_keys f₀.key = true) (g : Fin 2) (t : ℕ) {x : Head} (hs : x.r f₀ = v₀) : (Head.tickMove g t x).1.r f₀ = v₀ := by
  unfold Head.tickMove
  extract_lets +onlyGivenNames -merge -useContext -lift x1
  extract_lets +onlyGivenNames -merge -useContext -lift x2
  extract_lets +onlyGivenNames -merge -useContext -lift x3
  extract_lets +onlyGivenNames -merge -useContext -lift x4
  extract_lets +onlyGivenNames -merge -useContext -lift x5
  extract_lets +onlyGivenNames -merge -useContext -lift x6
  extract_lets +onlyGivenNames -merge -useContext -lift x7
  extract_lets +onlyGivenNames -merge -useContext -lift x8
  extract_lets +onlyGivenNames -merge -useContext -lift x9
  have hx9 : x9.r f₀ = v₀ := by
    unfold x9
    apply Head.keep_flagIf (out_fin hf StepReg.TRIM_BLOCKED _ (by decide))
    exact hs
  extract_lets +onlyGivenNames -merge -useContext -lift x10
  extract_lets +onlyGivenNames -merge -useContext -lift x11
  have hx11 : x11.r f₀ = v₀ := by
    unfold x11
    apply Head.keep_wi (out_fin hf StepReg.TRIM _ (by decide))
    apply Head.keep_wi (out_fin hf StepReg.A_FF _ (by decide))
    apply Head.keep_wi (out_fin hf StepReg.VEL _ (by decide))
    exact hx9
  extract_lets +onlyGivenNames -merge -useContext -lift x12
  have hx12 : x12.r f₀ = v₀ := by
    unfold x12
    apply Head.keep_put (out_fin hf StepReg.TRIM_ACTIVE _ (by decide))
    exact hx11
  extract_lets +onlyGivenNames -merge -useContext -lift x13
  extract_lets +onlyGivenNames -merge -useContext -lift x14
  extract_lets +onlyGivenNames -merge -useContext -lift x15
  have hx15 : x15.r f₀ = v₀ := by
    unfold x15
    apply Head.onGen_keep (out_mono hf (by decide))
    exact hx12
  apply Head.keep_pair₁
  exact hx15

theorem Head.tickOut_keep (hf : outKeys [] f₀.key = true) (c : Ctx) (g : Fin 2) (t : ℕ) {x : Head} (hs : x.r f₀ = v₀) : (Head.tickOut c g t x).r f₀ = v₀ := by
  unfold Head.tickOut
  apply Head.keep_ite
  · exact hs
  · extract_lets +onlyGivenNames -merge -useContext -lift x1
    extract_lets +onlyGivenNames -merge -useContext -lift x2
    extract_lets +onlyGivenNames -merge -useContext -lift x3
    apply Head.act_keep (out_mono hf (by decide))
    apply Head.act_keep (out_mono hf (by decide))
    exact hs

/-- What Head.genTick may write. -/
def Head.genTick_keys : List (Nat × Nat) :=
  [(2098438, 2098439), (2098440, 2098441), (2105344, 2105345), (2105352, 2105363), (2105735, 2105736), (2105984, 2105985), (2106246, 2106247), (2107392, 2107393), (2107520, 2107521), (2107648, 2107649), (2107776, 2107777), (2107904, 2107905), (2108032, 2108033), (2108160, 2108161), (2108288, 2108289), (2108416, 2108417), (2108544, 2108545), (2108672, 2108673), (2108800, 2108801), (2108928, 2108929), (2109056, 2109057), (2109184, 2109185), (2109312, 2109313), (2109440, 2109441), (2109568, 2109569), (2109696, 2109697), (2109824, 2109825), (2109952, 2109953), (2110080, 2110081), (2110208, 2110209), (2110336, 2110337), (2110464, 2113409), (2113792, 2113804), (2113808, 2113814), (2113920, 2113923), (2113932, 2113933), (2118528, 2118545), (4194432, 4194433), (4194436, 4194437), (4194441, 4194442), (4194444, 4194561), (4194562, 4194563), (6291968, 6291976), (6291979, 6292097), (6292103, 6292105), (6292106, 6292108), (6293760, 6293761), (6294016, 6294145), (6300160, 6300168), (6300171, 6300289), (6300295, 6300297), (6300298, 6300300), (6301952, 6301953), (6302208, 6302337), (8388742, 8388743), (8454278, 8454279), (8519814, 8519815), (8585350, 8585351), (8650886, 8650887), (8716422, 8716423), (8781958, 8781959), (8847494, 8847495), (8913030, 8913031), (8978566, 8978567), (9044102, 9044103), (9109638, 9109639), (9175174, 9175175), (9240710, 9240711), (9306246, 9306247), (9371782, 9371783), (9437318, 9437319), (9502854, 9502855), (9568390, 9568391), (9633926, 9633927), (9699462, 9699463), (9764998, 9764999), (9830534, 9830535), (9896070, 9896071), (9961606, 9961607), (10027142, 10027143), (10092678, 10092679), (10158214, 10158215), (10223750, 10223751), (10289286, 10289287), (10354822, 10354823), (10420358, 10420359), (10485894, 10485895), (12583040, 12583041), (12583169, 12583170), (14680074, 14680193), (14680320, 14680322)]

theorem Head.genTick_keep (hf : outKeys Head.genTick_keys f₀.key = true) (c : Ctx) (t : ℕ) (g : Fin 2) {x : Head} (hs : x.r f₀ = v₀) : (Head.genTick c t x g).r f₀ = v₀ := by
  unfold Head.genTick
  extract_lets +onlyGivenNames -merge -useContext -lift x1
  have hx1 : x1.r f₀ = v₀ := by
    unfold x1
    apply Head.tickRequests_keep (out_mono hf (by decide))
    exact hs
  split
  extract_lets +onlyGivenNames -merge -useContext -lift x2
  extract_lets +onlyGivenNames -merge -useContext -lift x3
  have hx3 : x3.r f₀ = v₀ := by
    unfold x3
    apply Head.onGen_keep (out_mono hf (by decide))
    rename_i p4 _ ep4
    have hp4 : p4.r f₀ = v₀ := Head.keep_ofEq₁ ep4 (by
        apply Head.tickMove_keep (out_mono hf (by decide))
        exact hx1)
    exact hp4
  extract_lets +onlyGivenNames -merge -useContext -lift x5
  have hx5 : x5.r f₀ = v₀ := by
    unfold x5
    apply Head.tickOut_keep (out_mono hf (by decide))
    exact hx3
  split
  · apply Head.motionEnd_keep (out_mono hf (by decide))
    exact hx5
  · split
    · apply Head.onGen_keep (out_mono hf (by decide))
      exact hx5
    · exact hx5

/-- What Head.frameOrigin may write. -/
def Head.frameOrigin_keys : List (Nat × Nat) :=
  [(6291975, 6291976), (6292107, 6292108), (6300167, 6300168), (6300299, 6300300)]

theorem Head.frameOrigin_keep (hf : outKeys Head.frameOrigin_keys f₀.key = true) (g : Fin 2) (a : BitVec 800) (f : ℕ) {x : Head} (hs : x.r f₀ = v₀) : (Head.frameOrigin g a f x).r f₀ = v₀ := by
  unfold Head.frameOrigin
  extract_lets +onlyGivenNames -merge -useContext -lift x1
  extract_lets +onlyGivenNames -merge -useContext -lift x2
  apply Head.keep_ite
  · extract_lets +onlyGivenNames -merge -useContext -lift x3
    have hx3 : x3.r f₀ = v₀ := by
      unfold x3
      apply Head.onGen_keep (out_mono hf (by decide))
      exact hs
    apply Head.latchOrigin_keep (out_mono hf (by decide))
    exact hx3
  · exact hs

theorem Head.frameDev_keep (hf : outKeys [(6293888, 6293889), (6302080, 6302081)] f₀.key = true) (g : Fin 2) (a : BitVec 800) (f : ℕ) {x : Head} (hs : x.r f₀ = v₀) : (Head.frameDev g a f x).r f₀ = v₀ := by
  unfold Head.frameDev
  apply Head.keep_ite
  · extract_lets +onlyGivenNames -merge -useContext -lift x1
    extract_lets +onlyGivenNames -merge -useContext -lift x2
    extract_lets +onlyGivenNames -merge -useContext -lift x3
    extract_lets +onlyGivenNames -merge -useContext -lift x4
    extract_lets +onlyGivenNames -merge -useContext -lift x5
    apply Head.onGen_keep (out_mono hf (by decide))
    apply Head.keep_wi (out_fin hf StepReg.DEV _ (by decide))
    exact hs
  · exact hs

theorem Head.frameSwitches_keep (hf : outKeys [] f₀.key = true) (g : Fin 2) (a : BitVec 800) (f : ℕ) {x : Head} (hs : x.r f₀ = v₀) : (Head.frameSwitches g a f x).r f₀ = v₀ := by
  unfold Head.frameSwitches
  extract_lets +onlyGivenNames -merge -useContext -lift x1
  extract_lets +onlyGivenNames -merge -useContext -lift x2
  extract_lets +onlyGivenNames -merge -useContext -lift x3
  extract_lets +onlyGivenNames -merge -useContext -lift x4
  extract_lets +onlyGivenNames -merge -useContext -lift x5
  extract_lets +onlyGivenNames -merge -useContext -lift x6
  extract_lets +onlyGivenNames -merge -useContext -lift x7
  extract_lets +onlyGivenNames -merge -useContext -lift x8
  extract_lets +onlyGivenNames -merge -useContext -lift x9
  extract_lets +onlyGivenNames -merge -useContext -lift x10
  apply Head.onGen_keep (out_mono hf (by decide))
  exact hs

/-- What Head.frameEncoder may write. -/
def Head.frameEncoder_keys : List (Nat × Nat) :=
  [(6291978, 6291979), (6292102, 6292103), (6300170, 6300171), (6300294, 6300295)]

theorem Head.frameEncoder_keep (hf : outKeys Head.frameEncoder_keys f₀.key = true) (g : Fin 2) (a : BitVec 800) (old : ℕ) {x : Head} (hs : x.r f₀ = v₀) : (Head.frameEncoder g a old x).r f₀ = v₀ := by
  unfold Head.frameEncoder
  apply Head.keep_ite
  · extract_lets +onlyGivenNames -merge -useContext -lift x1
    apply Head.keep_put (out_fin hf StepReg.ENC_VALID _ (by decide))
    apply Head.keep_flagIf (out_fin hf StepReg.ENC_FAULT _ (by decide))
    exact hs
  · apply Head.keep_put (out_fin hf StepReg.ENC_VALID _ (by decide))
    exact hs

/-- What Head.stepFrame may write. -/
def Head.stepFrame_keys : List (Nat × Nat) :=
  [(6291975, 6291976), (6291978, 6291979), (6292102, 6292103), (6292107, 6292108), (6293888, 6293889), (6300167, 6300168), (6300170, 6300171), (6300294, 6300295), (6300299, 6300300), (6302080, 6302081)]

theorem Head.stepFrame_keep (hf : outKeys Head.stepFrame_keys f₀.key = true) (a : BitVec 800) (f : ℕ) (old : ℕ) {x : Head} (hs : x.r f₀ = v₀) : (Head.stepFrame a f old x).r f₀ = v₀ := by
  unfold Head.stepFrame
  apply Head.keep_foldl
  · exact hs
  · intro _ _ hu1
    apply Head.frameSwitches_keep (out_mono hf (by decide))
    apply Head.frameDev_keep (out_mono hf (by decide))
    apply Head.frameOrigin_keep (out_mono hf (by decide))
    apply Head.frameEncoder_keep (out_mono hf (by decide))
    exact hu1

/-- What Head.limitStop may write. -/
def Head.limitStop_keys : List (Nat × Nat) :=
  [(6292097, 6292099), (6294400, 6294401), (6300289, 6300291), (6302592, 6302593)]

theorem Head.limitStop_keep (hf : outKeys Head.limitStop_keys f₀.key = true) (g : Fin 2) (hi : Bool) {x : Head} (hs : x.r f₀ = v₀) : (Head.limitStop g hi x).r f₀ = v₀ := by
  unfold Head.limitStop
  extract_lets +onlyGivenNames -merge -useContext -lift x1
  have hx1 : x1.r f₀ = v₀ := by
    unfold x1
    apply Head.keep_bump (out_fin hf StepReg.LIMIT_COUNT _ (by decide))
    apply Head.keep_flag (key_ne_ite (out_fin hf StepReg.LIMIT_HI _ (by decide)) (out_fin hf StepReg.LIMIT_LO _ (by decide)))
    exact hs
  apply Head.keep_ite
  · apply Head.onGen_keep (out_mono hf (by decide))
    exact hx1
  · apply Head.onGen_keep (out_mono hf (by decide))
    exact hx1

/-- What Head.selectZone may write. -/
def Head.selectZone_keys : List (Nat × Nat) :=
  [(2105344, 2105345), (2105354, 2105359), (2105735, 2105736), (2105984, 2105985)]

theorem Head.selectZone_keep (hf : outKeys Head.selectZone_keys f₀.key = true) (l : ℕ) (z : ℕ) {x : Head} (hs : x.r f₀ = v₀) : (Head.selectZone l z x).r f₀ = v₀ := by
  unfold Head.selectZone
  extract_lets +onlyGivenNames -merge -useContext -lift x1
  have hx1 : x1.r f₀ = v₀ := by
    unfold x1
    apply Head.keep_foldl
    · exact hs
    · intro _ _ hu2
      apply Head.onBeam_keep (out_mono hf (by decide))
      exact hu2
  apply Head.refreshBank_keep (out_mono hf (by decide))
  apply Head.keep_record
  exact hx1

/-- What Head.selectRef may write. -/
def Head.selectRef_keys : List (Nat × Nat) :=
  [(2106246, 2106247), (2110464, 2113409), (14680074, 14680193), (14680320, 14680322)]

theorem Head.selectRef_keep (hf : outKeys Head.selectRef_keys f₀.key = true) (c : Ctx) (n : ℕ) (v : ℤ) {x : Head} (hs : x.r f₀ = v₀) : (Head.selectRef c n v x).r f₀ = v₀ := by
  unfold Head.selectRef
  apply Head.loopRef_keep (out_mono hf (by decide))
  apply Head.calRefWritten_keep (out_mono hf (by decide))
  exact hs

theorem Head.applyPower_keep (hf : outKeys [(12584960, 12588945)] f₀.key = true) {x : Head} (hs : x.r f₀ = v₀) : (Head.applyPower x).r f₀ = v₀ := by
  unfold Head.applyPower
  split
  · refine Head.keep_foldl_mem hs fun y b hb hy => ?_
    have h := List.mem_range.1 hb
    exact Head.keep_w (out_lt hf WriteReg.WPOWER h (by decide))
      (Head.keep_w (out_lt hf WriteReg.RPOWER h (by decide)) hy)
  · exact hs

/-- What Head.applySelection may write. -/
def Head.applySelection_keys : List (Nat × Nat) :=
  [(2105344, 2105345), (2105354, 2105359), (2105735, 2105736), (2105984, 2105985), (2106246, 2106247), (2110464, 2113409), (12584960, 12588945), (14680074, 14680193), (14680320, 14680322)]

theorem Head.applySelection_keep (hf : outKeys Head.applySelection_keys f₀.key = true) (c : Ctx) {x : Head} (hs : x.r f₀ = v₀) : (Head.applySelection c x).r f₀ = v₀ := by
  unfold Head.applySelection
  extract_lets +onlyGivenNames -merge -useContext -lift x1
  extract_lets +onlyGivenNames -merge -useContext -lift x2
  extract_lets +onlyGivenNames -merge -useContext -lift x3
  extract_lets +onlyGivenNames -merge -useContext -lift x4
  have hx4 : x4.r f₀ = v₀ := by
    unfold x4
    apply Head.selectZone_keep (out_mono hf (by decide))
    exact hs
  extract_lets +onlyGivenNames -merge -useContext -lift x5
  have hx5 : x5.r f₀ = v₀ := by
    unfold x5
    apply Head.selectRef_keep (out_mono hf (by decide))
    exact hx4
  extract_lets +onlyGivenNames -merge -useContext -lift x6
  have hx6 : x6.r f₀ = v₀ := by
    unfold x6
    apply Head.selectRef_keep (out_mono hf (by decide))
    exact hx5
  extract_lets +onlyGivenNames -merge -useContext -lift x7
  have hx7 : x7.r f₀ = v₀ := by
    unfold x7
    apply Head.selectRef_keep (out_mono hf (by decide))
    exact hx6
  apply Head.applyPower_keep (out_mono hf (by decide))
  apply Head.selectRef_keep (out_mono hf (by decide))
  exact hx7

theorem Head.setTarget_keep (hf : outKeys [(2116864, 2116865)] f₀.key = true) (e : ℤ) {x : Head} (hs : x.r f₀ = v₀) : (Head.setTarget e x).r f₀ = v₀ := by
  unfold Head.setTarget
  extract_lets +onlyGivenNames -merge -useContext -lift x1
  have hx1 : x1.r f₀ = v₀ := by
    unfold x1
    apply Head.keep_wi (out_ne hf (by decide))
    exact hs
  apply Head.keep_record
  exact hx1

/-- What Head.seekFine may write. -/
def Head.seekFine_keys : List (Nat × Nat) :=
  [(2107392, 2107393), (2107520, 2107521), (2107648, 2107649), (2107776, 2107777), (2107904, 2107905), (2108032, 2108033), (2108160, 2108161), (2108288, 2108289), (2108416, 2108417), (2108544, 2108545), (2108672, 2108673), (2108800, 2108801), (2108928, 2108929), (2109056, 2109057), (2109184, 2109185), (2109312, 2109313), (2109440, 2109441), (2109568, 2109569), (2109696, 2109697), (2109824, 2109825), (2109952, 2109953), (2110080, 2110081), (2110208, 2110209), (2110336, 2110337), (2113799, 2113800), (2116864, 2116865)]

theorem Head.seekFine_keep (hf : outKeys Head.seekFine_keys f₀.key = true) (c : Ctx) {x : Head} (hs : x.r f₀ = v₀) : (Head.seekFine c x).r f₀ = v₀ := by
  unfold Head.seekFine
  extract_lets +onlyGivenNames -merge -useContext -lift x1
  have hx1 : x1.r f₀ = v₀ := by
    unfold x1
    apply Head.setTarget_keep (out_mono hf (by decide))
    apply Head.loopEnable_keep (out_mono hf (by decide))
    apply Head.keep_w (out_ne hf (by decide))
    exact hs
  apply Head.keep_record
  exact hx1

/-- What Head.seekCoarse may write. -/
def Head.seekCoarse_keys : List (Nat × Nat) :=
  [(2098438, 2098439), (2098440, 2098441), (2105344, 2105345), (2105352, 2105363), (2105735, 2105736), (2105984, 2105985), (2106246, 2106247), (2107392, 2107393), (2107520, 2107521), (2107648, 2107649), (2107776, 2107777), (2107904, 2107905), (2108032, 2108033), (2108160, 2108161), (2108288, 2108289), (2108416, 2108417), (2108544, 2108545), (2108672, 2108673), (2108800, 2108801), (2108928, 2108929), (2109056, 2109057), (2109184, 2109185), (2109312, 2109313), (2109440, 2109441), (2109568, 2109569), (2109696, 2109697), (2109824, 2109825), (2109952, 2109953), (2110080, 2110081), (2110208, 2110209), (2110336, 2110337), (2110464, 2113409), (2113792, 2113804), (2113808, 2113814), (2113920, 2113923), (2113932, 2113933), (2118528, 2118545), (4194432, 4194433), (4194436, 4194437), (4194441, 4194442), (4194444, 4194561), (4194562, 4194563), (6291968, 6291974), (6291979, 6292097), (6292103, 6292106), (6294016, 6294145), (6294528, 6294785), (6300160, 6300166), (6300171, 6300289), (6300295, 6300298), (6302208, 6302337), (6302720, 6302977), (8388742, 8388743), (8454278, 8454279), (8519814, 8519815), (8585350, 8585351), (8650886, 8650887), (8716422, 8716423), (8781958, 8781959), (8847494, 8847495), (8913030, 8913031), (8978566, 8978567), (9044102, 9044103), (9109638, 9109639), (9175174, 9175175), (9240710, 9240711), (9306246, 9306247), (9371782, 9371783), (9437318, 9437319), (9502854, 9502855), (9568390, 9568391), (9633926, 9633927), (9699462, 9699463), (9764998, 9764999), (9830534, 9830535), (9896070, 9896071), (9961606, 9961607), (10027142, 10027143), (10092678, 10092679), (10158214, 10158215), (10223750, 10223751), (10289286, 10289287), (10354822, 10354823), (10420358, 10420359), (10485894, 10485895), (12583040, 12583041), (12583169, 12583170), (14680074, 14680193), (14680320, 14680322)]

theorem Head.seekCoarse_keep (hf : outKeys Head.seekCoarse_keys f₀.key = true) (c : Ctx) {x : Head} (hs : x.r f₀ = v₀) : (Head.seekCoarse c x).r f₀ = v₀ := by
  unfold Head.seekCoarse
  extract_lets +onlyGivenNames -merge -useContext -lift x1
  have hx1 : x1.r f₀ = v₀ := by
    unfold x1
    apply Head.keep_w (out_ne hf (by decide))
    exact hs
  extract_lets +onlyGivenNames -merge -useContext -lift x2
  have hx2 : x2.r f₀ = v₀ := by
    unfold x2
    apply Head.loopEnable_keep (out_mono hf (by decide))
    apply Head.loopEnable_keep (out_mono hf (by decide))
    exact hx1
  extract_lets +onlyGivenNames -merge -useContext -lift x3
  have hx3 : x3.r f₀ = v₀ := by
    unfold x3
    apply Head.keep_put (out_ne hf (by decide))
    apply Head.landAct_keep (out_mono hf (by decide))
    exact hx2
  extract_lets +onlyGivenNames -merge -useContext -lift x4
  extract_lets +onlyGivenNames -merge -useContext -lift x5
  have hx5 : x5.r f₀ = v₀ := by
    unfold x5
    apply Head.keep_record
    exact hx3
  apply Head.landMove_keep (out_mono hf (by decide))
  exact hx5

/-- What Head.seekIdentify may write. -/
def Head.seekIdentify_keys : List (Nat × Nat) :=
  [(2107392, 2107393), (2107520, 2107521), (2107648, 2107649), (2107776, 2107777), (2107904, 2107905), (2108032, 2108033), (2108160, 2108161), (2108288, 2108289), (2108416, 2108417), (2108544, 2108545), (2108672, 2108673), (2108800, 2108801), (2108928, 2108929), (2109056, 2109057), (2109184, 2109185), (2109312, 2109313), (2109440, 2109441), (2109568, 2109569), (2109696, 2109697), (2109824, 2109825), (2109952, 2109953), (2110080, 2110081), (2110208, 2110209), (2110336, 2110337), (2113799, 2113800)]

theorem Head.seekIdentify_keep (hf : outKeys Head.seekIdentify_keys f₀.key = true) (c : Ctx) {x : Head} (hs : x.r f₀ = v₀) : (Head.seekIdentify c x).r f₀ = v₀ := by
  unfold Head.seekIdentify
  extract_lets +onlyGivenNames -merge -useContext -lift x1
  have hx1 : x1.r f₀ = v₀ := by
    unfold x1
    apply Head.loopEnable_keep (out_mono hf (by decide))
    apply Head.loopZero_keep (out_mono hf (by decide))
    exact hs
  extract_lets +onlyGivenNames -merge -useContext -lift x2
  have hx2 : x2.r f₀ = v₀ := by
    unfold x2
    apply Head.keep_w (out_ne hf (by decide))
    apply Head.loopEnable_keep (out_mono hf (by decide))
    exact hx1
  apply Head.keep_record
  exact hx2

/-- What Head.seekProceed may write. -/
def Head.seekProceed_keys : List (Nat × Nat) :=
  [(2098438, 2098439), (2098440, 2098441), (2105344, 2105345), (2105352, 2105363), (2105735, 2105736), (2105984, 2105985), (2106246, 2106247), (2107392, 2107393), (2107520, 2107521), (2107648, 2107649), (2107776, 2107777), (2107904, 2107905), (2108032, 2108033), (2108160, 2108161), (2108288, 2108289), (2108416, 2108417), (2108544, 2108545), (2108672, 2108673), (2108800, 2108801), (2108928, 2108929), (2109056, 2109057), (2109184, 2109185), (2109312, 2109313), (2109440, 2109441), (2109568, 2109569), (2109696, 2109697), (2109824, 2109825), (2109952, 2109953), (2110080, 2110081), (2110208, 2110209), (2110336, 2110337), (2110464, 2113409), (2113792, 2113804), (2113808, 2113814), (2113920, 2113923), (2113932, 2113933), (2116864, 2116865), (2118528, 2118545), (4194432, 4194433), (4194436, 4194437), (4194441, 4194442), (4194444, 4194561), (4194562, 4194563), (6291968, 6291974), (6291979, 6292097), (6292103, 6292106), (6294016, 6294145), (6294528, 6294785), (6300160, 6300166), (6300171, 6300289), (6300295, 6300298), (6302208, 6302337), (6302720, 6302977), (8388742, 8388743), (8454278, 8454279), (8519814, 8519815), (8585350, 8585351), (8650886, 8650887), (8716422, 8716423), (8781958, 8781959), (8847494, 8847495), (8913030, 8913031), (8978566, 8978567), (9044102, 9044103), (9109638, 9109639), (9175174, 9175175), (9240710, 9240711), (9306246, 9306247), (9371782, 9371783), (9437318, 9437319), (9502854, 9502855), (9568390, 9568391), (9633926, 9633927), (9699462, 9699463), (9764998, 9764999), (9830534, 9830535), (9896070, 9896071), (9961606, 9961607), (10027142, 10027143), (10092678, 10092679), (10158214, 10158215), (10223750, 10223751), (10289286, 10289287), (10354822, 10354823), (10420358, 10420359), (10485894, 10485895), (12583040, 12583041), (12583169, 12583170), (14680074, 14680193), (14680320, 14680322)]

theorem Head.seekProceed_keep (hf : outKeys Head.seekProceed_keys f₀.key = true) (c : Ctx) {x : Head} (hs : x.r f₀ = v₀) : (Head.seekProceed c x).r f₀ = v₀ := by
  unfold Head.seekProceed
  apply Head.keep_ite
  · apply Head.keep_ite
    · apply Head.seekFine_keep (out_mono hf (by decide))
      apply Head.keep_record
      exact hs
    · apply Head.seekIdentify_keep (out_mono hf (by decide))
      exact hs
  · apply Head.keep_ite
    · apply Head.seekFine_keep (out_mono hf (by decide))
      exact hs
    · apply Head.seekCoarse_keep (out_mono hf (by decide))
      exact hs

/-- What Head.seekIdentified may write. -/
def Head.seekIdentified_keys : List (Nat × Nat) :=
  [(2098438, 2098439), (2098440, 2098441), (2105344, 2105345), (2105352, 2105363), (2105735, 2105736), (2105984, 2105985), (2106246, 2106247), (2107392, 2107393), (2107520, 2107521), (2107648, 2107649), (2107776, 2107777), (2107904, 2107905), (2108032, 2108033), (2108160, 2108161), (2108288, 2108289), (2108416, 2108417), (2108544, 2108545), (2108672, 2108673), (2108800, 2108801), (2108928, 2108929), (2109056, 2109057), (2109184, 2109185), (2109312, 2109313), (2109440, 2109441), (2109568, 2109569), (2109696, 2109697), (2109824, 2109825), (2109952, 2109953), (2110080, 2110081), (2110208, 2110209), (2110336, 2110337), (2110464, 2113409), (2113792, 2113804), (2113808, 2113814), (2113920, 2113923), (2113932, 2113933), (2116864, 2116865), (2118528, 2118545), (4194432, 4194433), (4194436, 4194437), (4194441, 4194442), (4194444, 4194561), (4194562, 4194563), (6291968, 6291974), (6291979, 6292097), (6292103, 6292106), (6294016, 6294145), (6294528, 6294785), (6300160, 6300166), (6300171, 6300289), (6300295, 6300298), (6302208, 6302337), (6302720, 6302977), (8388742, 8388743), (8454278, 8454279), (8519814, 8519815), (8585350, 8585351), (8650886, 8650887), (8716422, 8716423), (8781958, 8781959), (8847494, 8847495), (8913030, 8913031), (8978566, 8978567), (9044102, 9044103), (9109638, 9109639), (9175174, 9175175), (9240710, 9240711), (9306246, 9306247), (9371782, 9371783), (9437318, 9437319), (9502854, 9502855), (9568390, 9568391), (9633926, 9633927), (9699462, 9699463), (9764998, 9764999), (9830534, 9830535), (9896070, 9896071), (9961606, 9961607), (10027142, 10027143), (10092678, 10092679), (10158214, 10158215), (10223750, 10223751), (10289286, 10289287), (10354822, 10354823), (10420358, 10420359), (10485894, 10485895), (12583040, 12583041), (12583169, 12583170), (14680074, 14680193), (14680320, 14680322)]

theorem Head.seekIdentified_keep (hf : outKeys Head.seekIdentified_keys f₀.key = true) (c : Ctx) {x : Head} (hs : x.r f₀ = v₀) : (Head.seekIdentified c x).r f₀ = v₀ := by
  unfold Head.seekIdentified
  apply Head.keep_ite
  · extract_lets +onlyGivenNames -merge -useContext -lift x1
    have hx1 : x1.r f₀ = v₀ := by
      unfold x1
      apply Head.keep_w (out_ne hf (by decide))
      apply Head.setTarget_keep (out_mono hf (by decide))
      exact hs
    apply Head.keep_record
    exact hx1
  · apply Head.keep_ite
    · apply Head.seekFine_keep (out_mono hf (by decide))
      exact hs
    · apply Head.keep_ite
      · apply Head.seekFail_keep (out_mono hf (by decide))
        exact hs
      · apply Head.seekCoarse_keep (out_mono hf (by decide))
        exact hs

/-- What Head.jumpStart may write. -/
def Head.jumpStart_keys : List (Nat × Nat) :=
  [(2107392, 2107393), (2107520, 2107521), (2107648, 2107649), (2107776, 2107777), (2107904, 2107905), (2108032, 2108033), (2108160, 2108161), (2108288, 2108289), (2108416, 2108417), (2108544, 2108545), (2108672, 2108673), (2108800, 2108801), (2108928, 2108929), (2109056, 2109057), (2109184, 2109185), (2109312, 2109313), (2109440, 2109441), (2109568, 2109569), (2109696, 2109697), (2109824, 2109825), (2109952, 2109953), (2110080, 2110081), (2110208, 2110209), (2110336, 2110337), (2110464, 2113409), (2113796, 2113803)]

theorem Head.jumpStart_keep (hf : outKeys Head.jumpStart_keys f₀.key = true) (c : Ctx) {x : Head} (hs : x.r f₀ = v₀) : (Head.jumpStart c x).r f₀ = v₀ := by
  unfold Head.jumpStart
  extract_lets +onlyGivenNames -merge -useContext -lift x1
  extract_lets +onlyGivenNames -merge -useContext -lift x2
  extract_lets +onlyGivenNames -merge -useContext -lift x3
  extract_lets +onlyGivenNames -merge -useContext -lift x4
  have hx4 : x4.r f₀ = v₀ := by
    unfold x4
    apply Head.loopEnable_keep (out_mono hf (by decide))
    apply Head.loopEnable_keep (out_mono hf (by decide))
    exact hs
  extract_lets +onlyGivenNames -merge -useContext -lift x5
  have hx5 : x5.r f₀ = v₀ := by
    unfold x5
    apply Head.keep_w (out_ne hf (by decide))
    apply Head.keep_put (out_ne hf (by decide))
    apply Head.landAct_keep (out_mono hf (by decide))
    exact hx4
  extract_lets +onlyGivenNames -merge -useContext -lift x6
  have hx6 : x6.r f₀ = v₀ := by
    unfold x6
    apply Head.loopRef_keep (out_mono hf (by decide))
    apply Head.keep_w (out_ne hf (by decide))
    exact hx5
  apply Head.keep_record
  exact hx6

/-- What Head.seekStart may write. -/
def Head.seekStart_keys : List (Nat × Nat) :=
  [(2098438, 2098439), (2098440, 2098441), (2105344, 2105345), (2105352, 2105363), (2105735, 2105736), (2105984, 2105985), (2106246, 2106247), (2107392, 2107393), (2107520, 2107521), (2107648, 2107649), (2107776, 2107777), (2107904, 2107905), (2108032, 2108033), (2108160, 2108161), (2108288, 2108289), (2108416, 2108417), (2108544, 2108545), (2108672, 2108673), (2108800, 2108801), (2108928, 2108929), (2109056, 2109057), (2109184, 2109185), (2109312, 2109313), (2109440, 2109441), (2109568, 2109569), (2109696, 2109697), (2109824, 2109825), (2109952, 2109953), (2110080, 2110081), (2110208, 2110209), (2110336, 2110337), (2110464, 2113409), (2113792, 2113804), (2113808, 2113814), (2113920, 2113923), (2113932, 2113933), (2116864, 2116865), (2118528, 2118545), (4194432, 4194433), (4194436, 4194437), (4194441, 4194442), (4194444, 4194561), (4194562, 4194563), (6291968, 6291974), (6291979, 6292097), (6292103, 6292106), (6294016, 6294145), (6294528, 6294785), (6300160, 6300166), (6300171, 6300289), (6300295, 6300298), (6302208, 6302337), (6302720, 6302977), (8388742, 8388743), (8454278, 8454279), (8519814, 8519815), (8585350, 8585351), (8650886, 8650887), (8716422, 8716423), (8781958, 8781959), (8847494, 8847495), (8913030, 8913031), (8978566, 8978567), (9044102, 9044103), (9109638, 9109639), (9175174, 9175175), (9240710, 9240711), (9306246, 9306247), (9371782, 9371783), (9437318, 9437319), (9502854, 9502855), (9568390, 9568391), (9633926, 9633927), (9699462, 9699463), (9764998, 9764999), (9830534, 9830535), (9896070, 9896071), (9961606, 9961607), (10027142, 10027143), (10092678, 10092679), (10158214, 10158215), (10223750, 10223751), (10289286, 10289287), (10354822, 10354823), (10420358, 10420359), (10485894, 10485895), (12583040, 12583041), (12583169, 12583170), (14680074, 14680193), (14680320, 14680322)]

theorem Head.seekStart_keep (hf : outKeys Head.seekStart_keys f₀.key = true) (c : Ctx) (code : ℕ) {x : Head} (hs : x.r f₀ = v₀) : (Head.seekStart c code x).r f₀ = v₀ := by
  unfold Head.seekStart
  extract_lets +onlyGivenNames -merge -useContext -lift x1
  extract_lets +onlyGivenNames -merge -useContext -lift x2
  have hx2 : x2.r f₀ = v₀ := by
    unfold x2
    apply Head.setHstate_keep (out_mono hf (by decide))
    apply Head.keep_put (out_ne hf (by decide))
    exact hs
  extract_lets +onlyGivenNames -merge -useContext -lift x3
  extract_lets +onlyGivenNames -merge -useContext -lift x4
  have hx4 : x4.r f₀ = v₀ := by
    unfold x4
    apply Head.keep_record
    exact hx2
  apply Head.refresh_keep (out_mono hf (by decide))
  apply Head.keep_ite
  · apply Head.jumpStart_keep (out_mono hf (by decide))
    exact hx4
  · apply Head.seekProceed_keep (out_mono hf (by decide))
    exact hx4

/-- What Head.capture may write. -/
def Head.capture_keys : List (Nat × Nat) :=
  [(2107392, 2107393), (2107520, 2107521), (2107648, 2107649), (2107776, 2107777), (2107904, 2107905), (2108032, 2108033), (2108160, 2108161), (2108288, 2108289), (2108416, 2108417), (2108544, 2108545), (2108672, 2108673), (2108800, 2108801), (2108928, 2108929), (2109056, 2109057), (2109184, 2109185), (2109312, 2109313), (2109440, 2109441), (2109568, 2109569), (2109696, 2109697), (2109824, 2109825), (2109952, 2109953), (2110080, 2110081), (2110208, 2110209), (2110336, 2110337), (2110464, 2113409), (2113796, 2113797), (2113804, 2113805)]

theorem Head.capture_keep (hf : outKeys Head.capture_keys f₀.key = true) (c : Ctx) (v : ℤ) (l : ℕ) {x : Head} (hs : x.r f₀ = v₀) : (Head.capture c v l x).r f₀ = v₀ := by
  unfold Head.capture
  extract_lets +onlyGivenNames -merge -useContext -lift x1
  extract_lets +onlyGivenNames -merge -useContext -lift x2
  have hx2 : x2.r f₀ = v₀ := by
    unfold x2
    apply Head.loopRef_keep (out_mono hf (by decide))
    apply Head.loopPreload_keep (out_mono hf (by decide))
    exact hs
  extract_lets +onlyGivenNames -merge -useContext -lift x3
  have hx3 : x3.r f₀ = v₀ := by
    unfold x3
    apply Head.keep_w (out_ne hf (by decide))
    apply Head.keep_w (out_ne hf (by decide))
    apply Head.loopEnable_keep (out_mono hf (by decide))
    exact hx2
  apply Head.keep_record
  exact hx3

/-- What Head.focusFails may write. -/
def Head.focusFails_keys : List (Nat × Nat) :=
  [(2098438, 2098439), (2098440, 2098441), (2105344, 2105345), (2105352, 2105363), (2105735, 2105736), (2105984, 2105985), (2106246, 2106247), (2107392, 2107393), (2107520, 2107521), (2107648, 2107649), (2107776, 2107777), (2107904, 2107905), (2108032, 2108033), (2108160, 2108161), (2108288, 2108289), (2108416, 2108417), (2108544, 2108545), (2108672, 2108673), (2108800, 2108801), (2108928, 2108929), (2109056, 2109057), (2109184, 2109185), (2109312, 2109313), (2109440, 2109441), (2109568, 2109569), (2109696, 2109697), (2109824, 2109825), (2109952, 2109953), (2110080, 2110081), (2110208, 2110209), (2110336, 2110337), (2110464, 2113409), (2113792, 2113804), (2113808, 2113814), (2113920, 2113923), (2113932, 2113933), (2118528, 2118545), (4194432, 4194433), (4194436, 4194437), (4194441, 4194442), (4194444, 4194561), (4194562, 4194563), (6291968, 6291972), (6291979, 6292097), (6292103, 6292105), (6294016, 6294145), (6300160, 6300164), (6300171, 6300289), (6300295, 6300297), (6302208, 6302337), (8388742, 8388743), (8454278, 8454279), (8519814, 8519815), (8585350, 8585351), (8650886, 8650887), (8716422, 8716423), (8781958, 8781959), (8847494, 8847495), (8913030, 8913031), (8978566, 8978567), (9044102, 9044103), (9109638, 9109639), (9175174, 9175175), (9240710, 9240711), (9306246, 9306247), (9371782, 9371783), (9437318, 9437319), (9502854, 9502855), (9568390, 9568391), (9633926, 9633927), (9699462, 9699463), (9764998, 9764999), (9830534, 9830535), (9896070, 9896071), (9961606, 9961607), (10027142, 10027143), (10092678, 10092679), (10158214, 10158215), (10223750, 10223751), (10289286, 10289287), (10354822, 10354823), (10420358, 10420359), (10485894, 10485895), (12583040, 12583041), (12583169, 12583170), (14680074, 14680193), (14680320, 14680322)]

theorem Head.focusFails_keep (hf : outKeys Head.focusFails_keys f₀.key = true) (c : Ctx) (code : ℕ) {x : Head} (hs : x.r f₀ = v₀) : (Head.focusFails c code x).r f₀ = v₀ := by
  unfold Head.focusFails
  apply Head.keep_ite
  · extract_lets +onlyGivenNames -merge -useContext -lift x1
    have hx1 : x1.r f₀ = v₀ := by
      unfold x1
      apply Head.loopEnable_keep (out_mono hf (by decide))
      exact hs
    extract_lets +onlyGivenNames -merge -useContext -lift x2
    have hx2 : x2.r f₀ = v₀ := by
      unfold x2
      apply Head.keep_w (out_ne hf (by decide))
      apply Head.lasersOff_keep (out_mono hf (by decide))
      apply Head.landAct_keep (out_mono hf (by decide))
      exact hx1
    extract_lets +onlyGivenNames -merge -useContext -lift x3
    extract_lets +onlyGivenNames -merge -useContext -lift x4
    have hx4 : x4.r f₀ = v₀ := by
      unfold x4
      apply Head.keep_record
      exact hx2
    apply Head.refresh_keep (out_mono hf (by decide))
    apply Head.cmdEnd_keep (out_mono hf (by decide))
    exact hx4
  · apply Head.toFocus0_keep (out_mono hf (by decide))
    apply Head.jumpOff_keep (out_mono hf (by decide))
    exact hs

/-- What Head.sweepStep may write. -/
def Head.sweepStep_keys : List (Nat × Nat) :=
  [(2098438, 2098439), (2098440, 2098441), (2105344, 2105345), (2105352, 2105363), (2105735, 2105736), (2105984, 2105985), (2106246, 2106247), (2107392, 2107393), (2107520, 2107521), (2107648, 2107649), (2107776, 2107777), (2107904, 2107905), (2108032, 2108033), (2108160, 2108161), (2108288, 2108289), (2108416, 2108417), (2108544, 2108545), (2108672, 2108673), (2108800, 2108801), (2108928, 2108929), (2109056, 2109057), (2109184, 2109185), (2109312, 2109313), (2109440, 2109441), (2109568, 2109569), (2109696, 2109697), (2109824, 2109825), (2109952, 2109953), (2110080, 2110081), (2110208, 2110209), (2110336, 2110337), (2110464, 2113409), (2113792, 2113814), (2113920, 2113923), (2113932, 2113933), (2118528, 2118545), (4194432, 4194433), (4194436, 4194437), (4194441, 4194442), (4194444, 4194561), (4194562, 4194563), (6291968, 6291972), (6291979, 6292097), (6292103, 6292105), (6294016, 6294145), (6300160, 6300164), (6300171, 6300289), (6300295, 6300297), (6302208, 6302337), (8388742, 8388743), (8454278, 8454279), (8519814, 8519815), (8585350, 8585351), (8650886, 8650887), (8716422, 8716423), (8781958, 8781959), (8847494, 8847495), (8913030, 8913031), (8978566, 8978567), (9044102, 9044103), (9109638, 9109639), (9175174, 9175175), (9240710, 9240711), (9306246, 9306247), (9371782, 9371783), (9437318, 9437319), (9502854, 9502855), (9568390, 9568391), (9633926, 9633927), (9699462, 9699463), (9764998, 9764999), (9830534, 9830535), (9896070, 9896071), (9961606, 9961607), (10027142, 10027143), (10092678, 10092679), (10158214, 10158215), (10223750, 10223751), (10289286, 10289287), (10354822, 10354823), (10420358, 10420359), (10485894, 10485895), (12583040, 12583041), (12583169, 12583170), (14680074, 14680193), (14680320, 14680322)]

theorem Head.sweepStep_keep (hf : outKeys Head.sweepStep_keys f₀.key = true) (c : Ctx) (t : ℕ) (a : BitVec 800) {x : Head} (hs : x.r f₀ = v₀) : (Head.sweepStep c t a x).r f₀ = v₀ := by
  unfold Head.sweepStep
  extract_lets +onlyGivenNames -merge -useContext -lift x1
  extract_lets +onlyGivenNames -merge -useContext -lift x2
  extract_lets +onlyGivenNames -merge -useContext -lift x3
  have hx3 : x3.r f₀ = v₀ := by
    unfold x3
    apply Head.keep_ite
    · exact hs
    · apply Head.act_keep (out_mono hf (by decide))
      exact hs
  extract_lets +onlyGivenNames -merge -useContext -lift x4
  extract_lets +onlyGivenNames -merge -useContext -lift x5
  extract_lets +onlyGivenNames -merge -useContext -lift x6
  extract_lets +onlyGivenNames -merge -useContext -lift x7
  extract_lets +onlyGivenNames -merge -useContext -lift x8
  extract_lets +onlyGivenNames -merge -useContext -lift x9
  extract_lets +onlyGivenNames -merge -useContext -lift x10
  extract_lets +onlyGivenNames -merge -useContext -lift x11
  have hx11 : x11.r f₀ = v₀ := by
    unfold x11
    apply Head.keep_record
    exact hx3
  apply Head.keep_ite
  · apply Head.refresh_keep (out_mono hf (by decide))
    apply Head.capture_keep (out_mono hf (by decide))
    exact hx11
  · apply Head.keep_ite
    · apply Head.focusFails_keep (out_mono hf (by decide))
      exact hx11
    · exact hx11

theorem Head.focusCounts_keep (hf : outKeys [] f₀.key = true) (a : BitVec 800) {x : Head} (hs : x.r f₀ = v₀) : (Head.focusCounts a x).r f₀ = v₀ := by
  unfold Head.focusCounts
  extract_lets +onlyGivenNames -merge -useContext -lift x1
  extract_lets +onlyGivenNames -merge -useContext -lift x2
  extract_lets +onlyGivenNames -merge -useContext -lift x3
  extract_lets +onlyGivenNames -merge -useContext -lift y4_0 x4
  have hx4 : x4.r f₀ = v₀ := by
    unfold x4
    apply Head.keep_ite
    · apply Head.keep_record
      exact hs
    · exact hs
  apply Head.keep_ite
  · apply Head.keep_record
    exact hx4
  · exact hx4

theorem Head.jumpBrake_keep (hf : outKeys [] f₀.key = true) (c : Ctx) {x : Head} (hs : x.r f₀ = v₀) : (Head.jumpBrake c x).r f₀ = v₀ := by
  unfold Head.jumpBrake
  extract_lets +onlyGivenNames -merge -useContext -lift x1
  have hx1 : x1.r f₀ = v₀ := by
    unfold x1
    apply Head.landAct_keep (out_mono hf (by decide))
    exact hs
  apply Head.keep_record
  exact hx1

theorem Head.jumpSample_keep (hf : outKeys [] f₀.key = true) (c : Ctx) (a : BitVec 800) {x : Head} (hs : x.r f₀ = v₀) : (Head.jumpSample c a x).r f₀ = v₀ := by
  unfold Head.jumpSample
  extract_lets +onlyGivenNames -merge -useContext -lift x1
  extract_lets +onlyGivenNames -merge -useContext -lift x2
  extract_lets +onlyGivenNames -merge -useContext -lift x3
  apply Head.keep_ite
  · apply Head.keep_ite
    · apply Head.keep_record
      exact hs
    · exact hs
  · apply Head.keep_ite
    · apply Head.keep_ite
      · extract_lets +onlyGivenNames -merge -useContext -lift y4_0 x4
        have hx4 : x4.r f₀ = v₀ := by
          unfold x4
          apply Head.keep_record
          exact hs
        apply Head.keep_ite
        · apply Head.jumpBrake_keep (out_mono hf (by decide))
          exact hx4
        · exact hx4
      · exact hs
    · apply Head.keep_ite
      · apply Head.jumpBrake_keep (out_mono hf (by decide))
        exact hs
      · exact hs

/-- What Head.focusSample may write. -/
def Head.focusSample_keys : List (Nat × Nat) :=
  [(2098438, 2098439), (2098440, 2098441), (2105344, 2105345), (2105352, 2105363), (2105735, 2105736), (2105984, 2105985), (2106246, 2106247), (2107392, 2107393), (2107520, 2107521), (2107648, 2107649), (2107776, 2107777), (2107904, 2107905), (2108032, 2108033), (2108160, 2108161), (2108288, 2108289), (2108416, 2108417), (2108544, 2108545), (2108672, 2108673), (2108800, 2108801), (2108928, 2108929), (2109056, 2109057), (2109184, 2109185), (2109312, 2109313), (2109440, 2109441), (2109568, 2109569), (2109696, 2109697), (2109824, 2109825), (2109952, 2109953), (2110080, 2110081), (2110208, 2110209), (2110336, 2110337), (2110464, 2113409), (2113792, 2113814), (2113920, 2113923), (2113932, 2113933), (2118528, 2118545), (4194432, 4194433), (4194436, 4194437), (4194441, 4194442), (4194444, 4194561), (4194562, 4194563), (6291968, 6291972), (6291979, 6292097), (6292103, 6292105), (6294016, 6294145), (6300160, 6300164), (6300171, 6300289), (6300295, 6300297), (6302208, 6302337), (8388742, 8388743), (8454278, 8454279), (8519814, 8519815), (8585350, 8585351), (8650886, 8650887), (8716422, 8716423), (8781958, 8781959), (8847494, 8847495), (8913030, 8913031), (8978566, 8978567), (9044102, 9044103), (9109638, 9109639), (9175174, 9175175), (9240710, 9240711), (9306246, 9306247), (9371782, 9371783), (9437318, 9437319), (9502854, 9502855), (9568390, 9568391), (9633926, 9633927), (9699462, 9699463), (9764998, 9764999), (9830534, 9830535), (9896070, 9896071), (9961606, 9961607), (10027142, 10027143), (10092678, 10092679), (10158214, 10158215), (10223750, 10223751), (10289286, 10289287), (10354822, 10354823), (10420358, 10420359), (10485894, 10485895), (12583040, 12583041), (12583169, 12583170), (14680074, 14680193), (14680320, 14680322)]

theorem Head.focusSample_keep (hf : outKeys Head.focusSample_keys f₀.key = true) (c : Ctx) (t : ℕ) (a : BitVec 800) {x : Head} (hs : x.r f₀ = v₀) : (Head.focusSample c t a x).r f₀ = v₀ := by
  unfold Head.focusSample
  apply Head.keep_ite
  · apply Head.sweepStep_keep (out_mono hf (by decide))
    exact hs
  · apply Head.keep_ite
    · apply Head.jumpSample_keep (out_mono hf (by decide))
      exact hs
    · apply Head.focusCounts_keep (out_mono hf (by decide))
      exact hs

theorem Head.saSample_keep (hf : outKeys [] f₀.key = true) (m : ℤ) {x : Head} (hs : x.r f₀ = v₀) : (Head.saSample m x).r f₀ = v₀ := by
  unfold Head.saSample
  apply Head.keep_ite
  · extract_lets +onlyGivenNames -merge -useContext -lift x1
    extract_lets +onlyGivenNames -merge -useContext -lift x2
    apply Head.keep_record
    exact hs
  · exact hs

/-- What Head.laserAck may write. -/
def Head.laserAck_keys : List (Nat × Nat) :=
  [(2098438, 2098439), (2098440, 2098441), (2105344, 2105345), (2105352, 2105363), (2105735, 2105736), (2105984, 2105985), (2106246, 2106247), (2107392, 2107393), (2107520, 2107521), (2107648, 2107649), (2107776, 2107777), (2107904, 2107905), (2108032, 2108033), (2108160, 2108161), (2108288, 2108289), (2108416, 2108417), (2108544, 2108545), (2108672, 2108673), (2108800, 2108801), (2108928, 2108929), (2109056, 2109057), (2109184, 2109185), (2109312, 2109313), (2109440, 2109441), (2109568, 2109569), (2109696, 2109697), (2109824, 2109825), (2109952, 2109953), (2110080, 2110081), (2110208, 2110209), (2110336, 2110337), (2110464, 2113409), (2113792, 2113804), (2113808, 2113814), (2113920, 2113923), (2113932, 2113933), (2118528, 2118545), (4194432, 4194433), (4194436, 4194437), (4194441, 4194442), (4194444, 4194561), (4194562, 4194563), (6291968, 6291972), (6291979, 6292097), (6292103, 6292105), (6294016, 6294145), (6300160, 6300164), (6300171, 6300289), (6300295, 6300297), (6302208, 6302337), (8388742, 8388743), (8454278, 8454279), (8519814, 8519815), (8585350, 8585351), (8650886, 8650887), (8716422, 8716423), (8781958, 8781959), (8847494, 8847495), (8913030, 8913031), (8978566, 8978567), (9044102, 9044103), (9109638, 9109639), (9175174, 9175175), (9240710, 9240711), (9306246, 9306247), (9371782, 9371783), (9437318, 9437319), (9502854, 9502855), (9568390, 9568391), (9633926, 9633927), (9699462, 9699463), (9764998, 9764999), (9830534, 9830535), (9896070, 9896071), (9961606, 9961607), (10027142, 10027143), (10092678, 10092679), (10158214, 10158215), (10223750, 10223751), (10289286, 10289287), (10354822, 10354823), (10420358, 10420359), (10485894, 10485895), (12583040, 12583041), (12583169, 12583170), (14680074, 14680193), (14680320, 14680322)]

theorem Head.laserAck_keep (hf : outKeys Head.laserAck_keys f₀.key = true) (c : Ctx) (ok : Bool) (issued : ℕ) {x : Head} (hs : x.r f₀ = v₀) : (Head.laserAck c ok issued x).r f₀ = v₀ := by
  unfold Head.laserAck
  apply Head.keep_ite
  · exact hs
  · apply Head.keep_ite
    · extract_lets +onlyGivenNames -merge -useContext -lift x1
      extract_lets +onlyGivenNames -merge -useContext -lift x2
      extract_lets +onlyGivenNames -merge -useContext -lift x3
      have hx3 : x3.r f₀ = v₀ := by
        unfold x3
        apply Head.keep_record
        exact hs
      apply Head.keep_ite
      · apply Head.refresh_keep (out_mono hf (by decide))
        extract_lets +onlyGivenNames -merge -useContext -lift x4
        have hx4 : x4.r f₀ = v₀ := by
          unfold x4
          apply Head.keep_w (out_ne hf (by decide))
          exact hx3
        apply Head.keep_record
        exact hx4
      · exact hx3
    · apply Head.focusFails_keep (out_mono hf (by decide))
      exact hs

theorem Head.report_keep (hf : outKeys [(2113808, 2113809), (2113921, 2113923)] f₀.key = true) (code : ℕ) {x : Head} (hs : x.r f₀ = v₀) : (Head.report code x).r f₀ = v₀ := by
  unfold Head.report
  apply Head.keep_flag (key_ne_ite (out_ne hf (by decide)) (out_ne hf (by decide)))
  apply Head.keep_w (out_ne hf (by decide))
  exact hs

theorem Head.cmdRefused_keep (hf : outKeys [(2113808, 2113809), (2113923, 2113924)] f₀.key = true) {x : Head} (hs : x.r f₀ = v₀) : (Head.cmdRefused x).r f₀ = v₀ := by
  unfold Head.cmdRefused
  apply Head.keep_w (out_ne hf (by decide))
  apply Head.keep_flag (out_ne hf (by decide))
  exact hs

/-- What Head.hcmdPark may write. -/
def Head.hcmdPark_keys : List (Nat × Nat) :=
  [(2098438, 2098439), (2098440, 2098441), (2105344, 2105345), (2105352, 2105363), (2105735, 2105736), (2105984, 2105985), (2106246, 2106247), (2107392, 2107393), (2107520, 2107521), (2107648, 2107649), (2107776, 2107777), (2107904, 2107905), (2108032, 2108033), (2108160, 2108161), (2108288, 2108289), (2108416, 2108417), (2108544, 2108545), (2108672, 2108673), (2108800, 2108801), (2108928, 2108929), (2109056, 2109057), (2109184, 2109185), (2109312, 2109313), (2109440, 2109441), (2109568, 2109569), (2109696, 2109697), (2109824, 2109825), (2109952, 2109953), (2110080, 2110081), (2110208, 2110209), (2110336, 2110337), (2110464, 2113409), (2113792, 2113804), (2113808, 2113814), (2113920, 2113924), (2113932, 2113933), (2118528, 2118545), (4194432, 4194433), (4194436, 4194437), (4194441, 4194442), (4194444, 4194561), (4194562, 4194563), (6291968, 6291972), (6291979, 6292097), (6292103, 6292105), (6294016, 6294145), (6300160, 6300164), (6300171, 6300289), (6300295, 6300297), (6302208, 6302337), (8388742, 8388743), (8454278, 8454279), (8519814, 8519815), (8585350, 8585351), (8650886, 8650887), (8716422, 8716423), (8781958, 8781959), (8847494, 8847495), (8913030, 8913031), (8978566, 8978567), (9044102, 9044103), (9109638, 9109639), (9175174, 9175175), (9240710, 9240711), (9306246, 9306247), (9371782, 9371783), (9437318, 9437319), (9502854, 9502855), (9568390, 9568391), (9633926, 9633927), (9699462, 9699463), (9764998, 9764999), (9830534, 9830535), (9896070, 9896071), (9961606, 9961607), (10027142, 10027143), (10092678, 10092679), (10158214, 10158215), (10223750, 10223751), (10289286, 10289287), (10354822, 10354823), (10420358, 10420359), (10485894, 10485895), (12583040, 12583041), (12583169, 12583170), (14680074, 14680193), (14680320, 14680322)]

theorem Head.hcmdPark_keep (hf : outKeys Head.hcmdPark_keys f₀.key = true) (c : Ctx) {x : Head} (hs : x.r f₀ = v₀) : (Head.hcmdPark c x).r f₀ = v₀ := by
  unfold Head.hcmdPark
  extract_lets +onlyGivenNames -merge -useContext -lift x1
  apply Head.keep_ite
  · extract_lets +onlyGivenNames -merge -useContext -lift x2
    have hx2 : x2.r f₀ = v₀ := by
      unfold x2
      apply Head.jumpOff_keep (out_mono hf (by decide))
      apply Head.cmdEnd_keep (out_mono hf (by decide))
      apply Head.lasersOff_keep (out_mono hf (by decide))
      apply Head.managedOff_keep (out_mono hf (by decide))
      apply Head.stopSlot1_keep (out_mono hf (by decide))
      exact hs
    apply Head.report_keep (out_mono hf (by decide))
    apply Head.refresh_keep (out_mono hf (by decide))
    apply Head.stopRequest_keep (out_mono hf (by decide))
    apply Head.setHstate_keep (out_mono hf (by decide))
    exact hx2
  · apply Head.cmdRefused_keep (out_mono hf (by decide))
    exact hs

/-- What Head.hcmdSpin may write. -/
def Head.hcmdSpin_keys : List (Nat × Nat) :=
  [(2105344, 2105345), (2105352, 2105363), (2105735, 2105736), (2105984, 2105985), (2106246, 2106247), (2107392, 2107393), (2107520, 2107521), (2107648, 2107649), (2107776, 2107777), (2107904, 2107905), (2108032, 2108033), (2108160, 2108161), (2108288, 2108289), (2108416, 2108417), (2108544, 2108545), (2108672, 2108673), (2108800, 2108801), (2108928, 2108929), (2109056, 2109057), (2109184, 2109185), (2109312, 2109313), (2109440, 2109441), (2109568, 2109569), (2109696, 2109697), (2109824, 2109825), (2109952, 2109953), (2110080, 2110081), (2110208, 2110209), (2110336, 2110337), (2110464, 2113409), (2113792, 2113793), (2113803, 2113804), (2113808, 2113814), (2113920, 2113921), (2113923, 2113924), (2113932, 2113933), (2118528, 2118545), (4194432, 4194433), (4194436, 4194437), (4194441, 4194442), (4194444, 4194563), (4195200, 4195201), (4198544, 4198545), (6291968, 6291972), (6291979, 6292097), (6292103, 6292105), (6294016, 6294145), (6300160, 6300164), (6300171, 6300289), (6300295, 6300297), (6302208, 6302337), (12583040, 12583041), (12583169, 12583170), (14680074, 14680193), (14680320, 14680322)]

theorem Head.hcmdSpin_keep (hf : outKeys Head.hcmdSpin_keys f₀.key = true) (c : Ctx) {x : Head} (hs : x.r f₀ = v₀) : (Head.hcmdSpin c x).r f₀ = v₀ := by
  unfold Head.hcmdSpin
  apply Head.keep_ite
  · extract_lets +onlyGivenNames -merge -useContext -lift y1_0 y1999_0 x1
    have hy1_0 : y1_0.r f₀ = v₀ := by
      unfold y1_0
      apply Head.keep_put (out_ne hf (by decide))
      exact hs
    have hx1 : x1.r f₀ = v₀ := by
      unfold x1
      apply Head.keep_record
      exact hy1_0
    apply Head.keep_ite
    · apply Head.refresh_keep (out_mono hf (by decide))
      apply Head.spinUp_keep (out_mono hf (by decide))
      apply Head.setHstate_keep (out_mono hf (by decide))
      exact hx1
    · apply Head.refresh_keep (out_mono hf (by decide))
      apply Head.catchRequest_keep (out_mono hf (by decide))
      apply Head.setHstate_keep (out_mono hf (by decide))
      exact hx1
  · apply Head.cmdRefused_keep (out_mono hf (by decide))
    exact hs

theorem Head.hcmdFocusOn_keep (hf : outKeys [(2113808, 2113814), (2113923, 2113924)] f₀.key = true) (c : Ctx) {x : Head} (hs : x.r f₀ = v₀) : (Head.hcmdFocusOn c x).r f₀ = v₀ := by
  unfold Head.hcmdFocusOn
  apply Head.keep_ite
  · extract_lets +onlyGivenNames -merge -useContext -lift y1_0 y1999_0 x1
    have hy1_0 : y1_0.r f₀ = v₀ := by
      unfold y1_0
      apply Head.keep_put (out_ne hf (by decide))
      exact hs
    have hx1 : x1.r f₀ = v₀ := by
      unfold x1
      apply Head.keep_record
      exact hy1_0
    apply Head.keep_foldl
    · exact hx1
    · intro _ _ hu2
      apply Head.laser_keep (out_mono hf (by decide))
      exact hu2
  · apply Head.cmdRefused_keep (out_mono hf (by decide))
    exact hs

/-- What Head.hcmdFocusOff may write. -/
def Head.hcmdFocusOff_keys : List (Nat × Nat) :=
  [(2098438, 2098439), (2098440, 2098441), (2105344, 2105345), (2105352, 2105363), (2105735, 2105736), (2105984, 2105985), (2106246, 2106247), (2107392, 2107393), (2107520, 2107521), (2107648, 2107649), (2107776, 2107777), (2107904, 2107905), (2108032, 2108033), (2108160, 2108161), (2108288, 2108289), (2108416, 2108417), (2108544, 2108545), (2108672, 2108673), (2108800, 2108801), (2108928, 2108929), (2109056, 2109057), (2109184, 2109185), (2109312, 2109313), (2109440, 2109441), (2109568, 2109569), (2109696, 2109697), (2109824, 2109825), (2109952, 2109953), (2110080, 2110081), (2110208, 2110209), (2110336, 2110337), (2110464, 2113409), (2113792, 2113804), (2113808, 2113814), (2113920, 2113924), (2113932, 2113933), (2118528, 2118545), (4194432, 4194433), (4194436, 4194437), (4194441, 4194442), (4194444, 4194561), (4194562, 4194563), (6291968, 6291972), (6291979, 6292097), (6292103, 6292105), (6294016, 6294145), (6300160, 6300164), (6300171, 6300289), (6300295, 6300297), (6302208, 6302337), (8388742, 8388743), (8454278, 8454279), (8519814, 8519815), (8585350, 8585351), (8650886, 8650887), (8716422, 8716423), (8781958, 8781959), (8847494, 8847495), (8913030, 8913031), (8978566, 8978567), (9044102, 9044103), (9109638, 9109639), (9175174, 9175175), (9240710, 9240711), (9306246, 9306247), (9371782, 9371783), (9437318, 9437319), (9502854, 9502855), (9568390, 9568391), (9633926, 9633927), (9699462, 9699463), (9764998, 9764999), (9830534, 9830535), (9896070, 9896071), (9961606, 9961607), (10027142, 10027143), (10092678, 10092679), (10158214, 10158215), (10223750, 10223751), (10289286, 10289287), (10354822, 10354823), (10420358, 10420359), (10485894, 10485895), (12583040, 12583041), (12583169, 12583170), (14680074, 14680193), (14680320, 14680322)]

theorem Head.hcmdFocusOff_keep (hf : outKeys Head.hcmdFocusOff_keys f₀.key = true) (c : Ctx) {x : Head} (hs : x.r f₀ = v₀) : (Head.hcmdFocusOff c x).r f₀ = v₀ := by
  unfold Head.hcmdFocusOff
  apply Head.keep_ite
  · extract_lets +onlyGivenNames -merge -useContext -lift x1
    extract_lets +onlyGivenNames -merge -useContext -lift x2
    have hx2 : x2.r f₀ = v₀ := by
      unfold x2
      apply Head.keep_record
      exact hs
    apply Head.report_keep (out_mono hf (by decide))
    apply Head.toFocus0_keep (out_mono hf (by decide))
    apply Head.jumpOff_keep (out_mono hf (by decide))
    exact hx2
  · apply Head.cmdRefused_keep (out_mono hf (by decide))
    exact hs

/-- What Head.hcmdTrackOn may write. -/
def Head.hcmdTrackOn_keys : List (Nat × Nat) :=
  [(2098438, 2098439), (2098440, 2098441), (2105344, 2105345), (2105352, 2105363), (2105735, 2105736), (2105984, 2105985), (2106246, 2106247), (2107392, 2107393), (2107520, 2107521), (2107648, 2107649), (2107776, 2107777), (2107904, 2107905), (2108032, 2108033), (2108160, 2108161), (2108288, 2108289), (2108416, 2108417), (2108544, 2108545), (2108672, 2108673), (2108800, 2108801), (2108928, 2108929), (2109056, 2109057), (2109184, 2109185), (2109312, 2109313), (2109440, 2109441), (2109568, 2109569), (2109696, 2109697), (2109824, 2109825), (2109952, 2109953), (2110080, 2110081), (2110208, 2110209), (2110336, 2110337), (2110464, 2113409), (2113792, 2113804), (2113808, 2113814), (2113920, 2113924), (2113932, 2113933), (2116864, 2116865), (2118528, 2118545), (4194432, 4194433), (4194436, 4194437), (4194441, 4194442), (4194444, 4194561), (4194562, 4194563), (6291968, 6291974), (6291979, 6292097), (6292103, 6292106), (6294016, 6294145), (6294528, 6294785), (6300160, 6300166), (6300171, 6300289), (6300295, 6300298), (6302208, 6302337), (6302720, 6302977), (8388742, 8388743), (8454278, 8454279), (8519814, 8519815), (8585350, 8585351), (8650886, 8650887), (8716422, 8716423), (8781958, 8781959), (8847494, 8847495), (8913030, 8913031), (8978566, 8978567), (9044102, 9044103), (9109638, 9109639), (9175174, 9175175), (9240710, 9240711), (9306246, 9306247), (9371782, 9371783), (9437318, 9437319), (9502854, 9502855), (9568390, 9568391), (9633926, 9633927), (9699462, 9699463), (9764998, 9764999), (9830534, 9830535), (9896070, 9896071), (9961606, 9961607), (10027142, 10027143), (10092678, 10092679), (10158214, 10158215), (10223750, 10223751), (10289286, 10289287), (10354822, 10354823), (10420358, 10420359), (10485894, 10485895), (12583040, 12583041), (12583169, 12583170), (14680074, 14680193), (14680320, 14680322)]

theorem Head.hcmdTrackOn_keep (hf : outKeys Head.hcmdTrackOn_keys f₀.key = true) (c : Ctx) {x : Head} (hs : x.r f₀ = v₀) : (Head.hcmdTrackOn c x).r f₀ = v₀ := by
  unfold Head.hcmdTrackOn
  apply Head.keep_ite
  · apply Head.seekStart_keep (out_mono hf (by decide))
    exact hs
  · apply Head.cmdRefused_keep (out_mono hf (by decide))
    exact hs

/-- What Head.hcmdTrackOff may write. -/
def Head.hcmdTrackOff_keys : List (Nat × Nat) :=
  [(2098438, 2098439), (2098440, 2098441), (2105344, 2105345), (2105352, 2105363), (2105735, 2105736), (2105984, 2105985), (2106246, 2106247), (2107392, 2107393), (2107520, 2107521), (2107648, 2107649), (2107776, 2107777), (2107904, 2107905), (2108032, 2108033), (2108160, 2108161), (2108288, 2108289), (2108416, 2108417), (2108544, 2108545), (2108672, 2108673), (2108800, 2108801), (2108928, 2108929), (2109056, 2109057), (2109184, 2109185), (2109312, 2109313), (2109440, 2109441), (2109568, 2109569), (2109696, 2109697), (2109824, 2109825), (2109952, 2109953), (2110080, 2110081), (2110208, 2110209), (2110336, 2110337), (2110464, 2113409), (2113792, 2113804), (2113808, 2113814), (2113920, 2113924), (2113932, 2113933), (2118528, 2118545), (4194432, 4194433), (4194436, 4194437), (4194441, 4194442), (4194444, 4194561), (4194562, 4194563), (6291968, 6291972), (6291979, 6292097), (6292103, 6292105), (6294016, 6294145), (6300160, 6300164), (6300171, 6300289), (6300295, 6300297), (6302208, 6302337), (8388742, 8388743), (8454278, 8454279), (8519814, 8519815), (8585350, 8585351), (8650886, 8650887), (8716422, 8716423), (8781958, 8781959), (8847494, 8847495), (8913030, 8913031), (8978566, 8978567), (9044102, 9044103), (9109638, 9109639), (9175174, 9175175), (9240710, 9240711), (9306246, 9306247), (9371782, 9371783), (9437318, 9437319), (9502854, 9502855), (9568390, 9568391), (9633926, 9633927), (9699462, 9699463), (9764998, 9764999), (9830534, 9830535), (9896070, 9896071), (9961606, 9961607), (10027142, 10027143), (10092678, 10092679), (10158214, 10158215), (10223750, 10223751), (10289286, 10289287), (10354822, 10354823), (10420358, 10420359), (10485894, 10485895), (12583040, 12583041), (12583169, 12583170), (14680074, 14680193), (14680320, 14680322)]

theorem Head.hcmdTrackOff_keep (hf : outKeys Head.hcmdTrackOff_keys f₀.key = true) (c : Ctx) {x : Head} (hs : x.r f₀ = v₀) : (Head.hcmdTrackOff c x).r f₀ = v₀ := by
  unfold Head.hcmdTrackOff
  apply Head.keep_ite
  · apply Head.report_keep (out_mono hf (by decide))
    apply Head.toFocus_keep (out_mono hf (by decide))
    exact hs
  · apply Head.cmdRefused_keep (out_mono hf (by decide))
    exact hs

/-- What Head.hcmdSeek may write. -/
def Head.hcmdSeek_keys : List (Nat × Nat) :=
  [(2098438, 2098439), (2098440, 2098441), (2105344, 2105345), (2105352, 2105363), (2105735, 2105736), (2105984, 2105985), (2106246, 2106247), (2107392, 2107393), (2107520, 2107521), (2107648, 2107649), (2107776, 2107777), (2107904, 2107905), (2108032, 2108033), (2108160, 2108161), (2108288, 2108289), (2108416, 2108417), (2108544, 2108545), (2108672, 2108673), (2108800, 2108801), (2108928, 2108929), (2109056, 2109057), (2109184, 2109185), (2109312, 2109313), (2109440, 2109441), (2109568, 2109569), (2109696, 2109697), (2109824, 2109825), (2109952, 2109953), (2110080, 2110081), (2110208, 2110209), (2110336, 2110337), (2110464, 2113409), (2113792, 2113804), (2113808, 2113814), (2113920, 2113924), (2113932, 2113933), (2116864, 2116865), (2118528, 2118545), (4194432, 4194433), (4194436, 4194437), (4194441, 4194442), (4194444, 4194561), (4194562, 4194563), (6291968, 6291974), (6291979, 6292097), (6292103, 6292106), (6294016, 6294145), (6294528, 6294785), (6300160, 6300166), (6300171, 6300289), (6300295, 6300298), (6302208, 6302337), (6302720, 6302977), (8388742, 8388743), (8454278, 8454279), (8519814, 8519815), (8585350, 8585351), (8650886, 8650887), (8716422, 8716423), (8781958, 8781959), (8847494, 8847495), (8913030, 8913031), (8978566, 8978567), (9044102, 9044103), (9109638, 9109639), (9175174, 9175175), (9240710, 9240711), (9306246, 9306247), (9371782, 9371783), (9437318, 9437319), (9502854, 9502855), (9568390, 9568391), (9633926, 9633927), (9699462, 9699463), (9764998, 9764999), (9830534, 9830535), (9896070, 9896071), (9961606, 9961607), (10027142, 10027143), (10092678, 10092679), (10158214, 10158215), (10223750, 10223751), (10289286, 10289287), (10354822, 10354823), (10420358, 10420359), (10485894, 10485895), (12583040, 12583041), (12583169, 12583170), (14680074, 14680193), (14680320, 14680322)]

theorem Head.hcmdSeek_keep (hf : outKeys Head.hcmdSeek_keys f₀.key = true) (c : Ctx) {x : Head} (hs : x.r f₀ = v₀) : (Head.hcmdSeek c x).r f₀ = v₀ := by
  unfold Head.hcmdSeek
  extract_lets +onlyGivenNames -merge -useContext -lift x1
  extract_lets +onlyGivenNames -merge -useContext -lift x2
  apply Head.keep_ite
  · apply Head.keep_ite
    · apply Head.seekStart_keep (out_mono hf (by decide))
      exact hs
    · apply Head.report_keep (out_mono hf (by decide))
      exact hs
  · apply Head.cmdRefused_keep (out_mono hf (by decide))
    exact hs

/-- What Head.hcmdClearFault may write. -/
def Head.hcmdClearFault_keys : List (Nat × Nat) :=
  [(2105344, 2105345), (2105352, 2105363), (2105735, 2105736), (2105984, 2105985), (2106246, 2106247), (2107392, 2107393), (2107520, 2107521), (2107648, 2107649), (2107776, 2107777), (2107904, 2107905), (2108032, 2108033), (2108160, 2108161), (2108288, 2108289), (2108416, 2108417), (2108544, 2108545), (2108672, 2108673), (2108800, 2108801), (2108928, 2108929), (2109056, 2109057), (2109184, 2109185), (2109312, 2109313), (2109440, 2109441), (2109568, 2109569), (2109696, 2109697), (2109824, 2109825), (2109952, 2109953), (2110080, 2110081), (2110208, 2110209), (2110336, 2110337), (2110464, 2113409), (2113792, 2113793), (2113803, 2113804), (2113808, 2113809), (2113920, 2113924), (2113932, 2113933), (2118528, 2118545), (4194432, 4194433), (4194436, 4194437), (4194441, 4194442), (4194444, 4194561), (4194562, 4194563), (6291968, 6291972), (6291979, 6292097), (6292103, 6292105), (6294016, 6294145), (6300160, 6300164), (6300171, 6300289), (6300295, 6300297), (6302208, 6302337), (12583040, 12583041), (12583169, 12583170), (14680074, 14680193), (14680320, 14680322)]

theorem Head.hcmdClearFault_keep (hf : outKeys Head.hcmdClearFault_keys f₀.key = true) (c : Ctx) {x : Head} (hs : x.r f₀ = v₀) : (Head.hcmdClearFault c x).r f₀ = v₀ := by
  unfold Head.hcmdClearFault
  apply Head.keep_ite
  · apply Head.keep_ite
    · apply Head.report_keep (out_mono hf (by decide))
      exact hs
    · extract_lets +onlyGivenNames -merge -useContext -lift y1_0 x1
      have hx1 : x1.r f₀ = v₀ := by
        unfold x1
        apply Head.keep_record
        exact hs
      extract_lets +onlyGivenNames -merge -useContext -lift x2
      have hx2 : x2.r f₀ = v₀ := by
        unfold x2
        apply Head.keep_ite
        · exact hx1
        · apply Head.safeEnds_keep (out_mono hf (by decide))
          exact hx1
      apply Head.report_keep (out_mono hf (by decide))
      apply Head.refresh_keep (out_mono hf (by decide))
      apply Head.setHstate_keep (out_mono hf (by decide))
      exact hx2
  · apply Head.cmdRefused_keep (out_mono hf (by decide))
    exact hs

/-- What Head.hcmd may write. -/
def Head.hcmd_keys : List (Nat × Nat) :=
  [(2098438, 2098439), (2098440, 2098441), (2105344, 2105345), (2105352, 2105363), (2105735, 2105736), (2105984, 2105985), (2106246, 2106247), (2107392, 2107393), (2107520, 2107521), (2107648, 2107649), (2107776, 2107777), (2107904, 2107905), (2108032, 2108033), (2108160, 2108161), (2108288, 2108289), (2108416, 2108417), (2108544, 2108545), (2108672, 2108673), (2108800, 2108801), (2108928, 2108929), (2109056, 2109057), (2109184, 2109185), (2109312, 2109313), (2109440, 2109441), (2109568, 2109569), (2109696, 2109697), (2109824, 2109825), (2109952, 2109953), (2110080, 2110081), (2110208, 2110209), (2110336, 2110337), (2110464, 2113409), (2113792, 2113804), (2113808, 2113814), (2113920, 2113924), (2113932, 2113933), (2116864, 2116865), (2118528, 2118545), (4194432, 4194433), (4194436, 4194437), (4194441, 4194442), (4194444, 4194563), (4195200, 4195201), (4198544, 4198545), (6291968, 6291974), (6291979, 6292097), (6292103, 6292106), (6294016, 6294145), (6294528, 6294785), (6300160, 6300166), (6300171, 6300289), (6300295, 6300298), (6302208, 6302337), (6302720, 6302977), (8388742, 8388743), (8454278, 8454279), (8519814, 8519815), (8585350, 8585351), (8650886, 8650887), (8716422, 8716423), (8781958, 8781959), (8847494, 8847495), (8913030, 8913031), (8978566, 8978567), (9044102, 9044103), (9109638, 9109639), (9175174, 9175175), (9240710, 9240711), (9306246, 9306247), (9371782, 9371783), (9437318, 9437319), (9502854, 9502855), (9568390, 9568391), (9633926, 9633927), (9699462, 9699463), (9764998, 9764999), (9830534, 9830535), (9896070, 9896071), (9961606, 9961607), (10027142, 10027143), (10092678, 10092679), (10158214, 10158215), (10223750, 10223751), (10289286, 10289287), (10354822, 10354823), (10420358, 10420359), (10485894, 10485895), (12583040, 12583041), (12583169, 12583170), (14680074, 14680193), (14680320, 14680322)]

theorem Head.hcmd_keep (hf : outKeys Head.hcmd_keys f₀.key = true) (c : Ctx) (v : ℕ) {x : Head} (hs : x.r f₀ = v₀) : (Head.hcmd c v x).r f₀ = v₀ := by
  unfold Head.hcmd
  split
  · apply Head.keep_ite
    · apply Head.cmdRefused_keep (out_mono hf (by decide))
      exact hs
    · exact hs
  · apply Head.hcmdPark_keep (out_mono hf (by decide))
    exact hs
  · apply Head.hcmdSpin_keep (out_mono hf (by decide))
    exact hs
  · apply Head.hcmdFocusOn_keep (out_mono hf (by decide))
    exact hs
  · apply Head.hcmdFocusOff_keep (out_mono hf (by decide))
    exact hs
  · apply Head.hcmdTrackOn_keep (out_mono hf (by decide))
    exact hs
  · apply Head.hcmdTrackOff_keep (out_mono hf (by decide))
    exact hs
  · apply Head.hcmdSeek_keep (out_mono hf (by decide))
    exact hs
  · apply Head.hcmdClearFault_keep (out_mono hf (by decide))
    exact hs
  · apply Head.cmdRefused_keep (out_mono hf (by decide))
    exact hs

theorem Head.wedgeOpen_keep (hf : outKeys [] f₀.key = true) (te : ℤ) (num : ℕ) {x : Head} (hs : x.r f₀ = v₀) : (Head.wedgeOpen te num x).r f₀ = v₀ := by
  unfold Head.wedgeOpen
  apply Head.keep_record
  exact hs

theorem Head.wedgeClose_keep (hf : outKeys [] f₀.key = true) (te : ℤ) {x : Head} (hs : x.r f₀ = v₀) : (Head.wedgeClose te x).r f₀ = v₀ := by
  unfold Head.wedgeClose
  split
  · exact hs
  · apply Head.keep_record
    exact hs

theorem Head.frameEdges_keep (hf : outKeys [] f₀.key = true) (a : BitVec 800) (num : ℕ) {x : Head} (hs : x.r f₀ = v₀) : (Head.frameEdges a num x).r f₀ = v₀ := by
  unfold Head.frameEdges
  apply Head.keep_foldl
  · exact hs
  · intro _ _ hu1
    extract_lets +onlyGivenNames -merge -useContext -lift x2
    apply Head.keep_ite
    · extract_lets +onlyGivenNames -merge -useContext -lift x3
      split
      · exact hu1
      · extract_lets +onlyGivenNames -merge -useContext -lift x4
        apply Head.keep_ite
        · apply Head.keep_record
          exact hu1
        · exact hu1
    · exact hu1

theorem Head.frameWindows_keep (hf : outKeys [] f₀.key = true) (num : ℕ) (bad : Bool) (ovf : Bool) {x : Head} (hs : x.r f₀ = v₀) : (Head.frameWindows num bad ovf x).r f₀ = v₀ := by
  unfold Head.frameWindows
  apply Head.keep_record
  exact hs

/-- What Head.indexDetected may write. -/
def Head.indexDetected_keys : List (Nat × Nat) :=
  [(2097282, 2097283), (2097408, 2097409), (2097792, 2097793), (2098048, 2098049), (2098051, 2098052), (2098176, 2098177)]

theorem Head.indexDetected_keep (hf : outKeys Head.indexDetected_keys f₀.key = true) (c : Ctx) (at16 : ℤ) {x : Head} (hs : x.r f₀ = v₀) : (Head.indexDetected c at16 x).r f₀ = v₀ := by
  unfold Head.indexDetected
  extract_lets +onlyGivenNames -merge -useContext -lift x1
  extract_lets +onlyGivenNames -merge -useContext -lift x2
  have hx2 : x2.r f₀ = v₀ := by
    unfold x2
    apply Head.keep_flagIf (out_ne hf (by decide))
    apply Head.keep_wi (out_ne hf (by decide))
    exact hs
  apply Head.keep_ite
  · apply Head.keep_put (out_ne hf (by decide))
    apply Head.discOffsetWrite_keep (out_mono hf (by decide))
    exact hx2
  · exact hx2

/-- What Head.idWord may write. -/
def Head.idWord_keys : List (Nat × Nat) :=
  [(2113802, 2113803), (2113928, 2113929), (2113930, 2113931), (2117760, 2117761), (2118016, 2118033)]

theorem Head.idWord_keep (hf : outKeys Head.idWord_keys f₀.key = true) (word : ℕ) (v : ℕ) {x : Head} (hs : x.r f₀ = v₀) : (Head.idWord word v x).r f₀ = v₀ := by
  unfold Head.idWord
  apply Head.keep_ite
  · extract_lets +onlyGivenNames -merge -useContext -lift x1
    extract_lets +onlyGivenNames -merge -useContext -lift x2
    have hx2 : x2.r f₀ = v₀ := by
      unfold x2
      apply Head.keep_w (out_ne hf (by decide))
      exact hs
    apply Head.keep_ite
    · apply Head.keep_put (out_ne hf (by decide))
      apply Head.keep_wi (out_ne hf (by decide))
      exact hx2
    · apply Head.keep_ite
      · apply Head.keep_flag (out_ne hf (by decide))
        apply Head.keep_wi (out_ne hf (by decide))
        exact hx2
      · exact hx2
  · extract_lets +onlyGivenNames -merge -useContext -lift x3
    have hx3 : x3.r f₀ = v₀ := by
      unfold x3
      apply Head.keep_w (out_ne hf (by decide))
      exact hs
    apply Head.keep_flagIf (out_ne hf (by decide))
    exact hx3

theorem Head.idBit_keep (hf : outKeys [(2113802, 2113803), (2113928, 2113931), (2117760, 2117761), (2118016, 2118033)] f₀.key = true) (num : ℕ) (openTe : ℤ) (valid : Bool) (d : Bool) {x : Head} (hs : x.r f₀ = v₀) : (Head.idBit num openTe valid d x).r f₀ = v₀ := by
  unfold Head.idBit
  extract_lets +onlyGivenNames -merge -useContext -lift x1
  extract_lets +onlyGivenNames -merge -useContext -lift x2
  apply Head.keep_ite
  · apply Head.keep_record
    exact hs
  · apply Head.keep_ite
    · apply Head.keep_record
      exact hs
    · apply Head.keep_ite
      · extract_lets +onlyGivenNames -merge -useContext -lift x3
        extract_lets +onlyGivenNames -merge -useContext -lift x4
        extract_lets +onlyGivenNames -merge -useContext -lift x5
        have hx5 : x5.r f₀ = v₀ := by
          unfold x5
          apply Head.keep_record
          exact hs
        apply Head.keep_ite
        · apply Head.keep_ite
          · apply Head.idWord_keep (out_mono hf (by decide))
            exact hx5
          · apply Head.keep_flag (out_ne hf (by decide))
            exact hx5
        · exact hx5
      · apply Head.keep_record
        exact hs

theorem Head.unwrap_keep (hf : outKeys [(2117760, 2117761)] f₀.key = true) (rho : ℕ) {x : Head} (hs : x.r f₀ = v₀) : (Head.unwrap rho x).r f₀ = v₀ := by
  unfold Head.unwrap
  split
  · exact hs
  · extract_lets +onlyGivenNames -merge -useContext -lift x1
    apply Head.keep_ite
    · apply Head.keep_wi (out_ne hf (by decide))
      exact hs
    · apply Head.keep_ite
      · apply Head.keep_wi (out_ne hf (by decide))
        exact hs
      · exact hs

theorem Head.wedgeChecks_keep (hf : outKeys [(2113926, 2113927), (2118288, 2118289)] f₀.key = true) (valid : Bool) (te : ℤ) {x : Head} (hs : x.r f₀ = v₀) : (Head.wedgeChecks valid te x).r f₀ = v₀ := by
  unfold Head.wedgeChecks
  extract_lets +onlyGivenNames -merge -useContext -lift x1
  extract_lets +onlyGivenNames -merge -useContext -lift x2
  extract_lets +onlyGivenNames -merge -useContext -lift x3
  extract_lets +onlyGivenNames -merge -useContext -lift x4
  extract_lets +onlyGivenNames -merge -useContext -lift x5
  extract_lets +onlyGivenNames -merge -useContext -lift x6
  extract_lets +onlyGivenNames -merge -useContext -lift x7
  have hx7 : x7.r f₀ = v₀ := by
    unfold x7
    apply Head.keep_ite
    · apply Head.keep_bump (out_ne hf (by decide))
      apply Head.keep_flag (out_ne hf (by decide))
      exact hs
    · exact hs
  extract_lets +onlyGivenNames -merge -useContext -lift x8
  extract_lets +onlyGivenNames -merge -useContext -lift x9
  have hx9 : x9.r f₀ = v₀ := by
    unfold x9
    apply Head.keep_ite
    · apply Head.keep_record
      exact hx7
    · exact hx7
  apply Head.keep_record
  exact hx9

theorem Head.wedgeValid_keep (hf : outKeys [(2117632, 2117761)] f₀.key = true) (raw : ℤ) {x : Head} (hs : x.r f₀ = v₀) : (Head.wedgeValid raw x).r f₀ = v₀ := by
  unfold Head.wedgeValid
  extract_lets +onlyGivenNames -merge -useContext -lift x1
  extract_lets +onlyGivenNames -merge -useContext -lift x2
  have hx2 : x2.r f₀ = v₀ := by
    unfold x2
    apply Head.unwrap_keep (out_mono hf (by decide))
    exact hs
  extract_lets +onlyGivenNames -merge -useContext -lift x3
  have hx3 : x3.r f₀ = v₀ := by
    unfold x3
    apply Head.keep_w (out_ne hf (by decide))
    exact hx2
  apply Head.keep_record
  exact hx3

/-- What Head.wedgeDone may write. -/
def Head.wedgeDone_keys : List (Nat × Nat) :=
  [(2097282, 2097283), (2097408, 2097409), (2097792, 2097793), (2098048, 2098049), (2098051, 2098052), (2098176, 2098177), (2098438, 2098439), (2098440, 2098441), (2105344, 2105345), (2105352, 2105363), (2105735, 2105736), (2105984, 2105985), (2106246, 2106247), (2107392, 2107393), (2107520, 2107521), (2107648, 2107649), (2107776, 2107777), (2107904, 2107905), (2108032, 2108033), (2108160, 2108161), (2108288, 2108289), (2108416, 2108417), (2108544, 2108545), (2108672, 2108673), (2108800, 2108801), (2108928, 2108929), (2109056, 2109057), (2109184, 2109185), (2109312, 2109313), (2109440, 2109441), (2109568, 2109569), (2109696, 2109697), (2109824, 2109825), (2109952, 2109953), (2110080, 2110081), (2110208, 2110209), (2110336, 2110337), (2110464, 2113409), (2113792, 2113804), (2113808, 2113814), (2113920, 2113923), (2113926, 2113931), (2113932, 2113933), (2116864, 2118289), (2118528, 2118545), (4194432, 4194433), (4194436, 4194437), (4194441, 4194442), (4194444, 4194561), (4194562, 4194563), (6291968, 6291974), (6291979, 6292097), (6292103, 6292106), (6294016, 6294145), (6294528, 6294785), (6300160, 6300166), (6300171, 6300289), (6300295, 6300298), (6302208, 6302337), (6302720, 6302977), (8388742, 8388743), (8454278, 8454279), (8519814, 8519815), (8585350, 8585351), (8650886, 8650887), (8716422, 8716423), (8781958, 8781959), (8847494, 8847495), (8913030, 8913031), (8978566, 8978567), (9044102, 9044103), (9109638, 9109639), (9175174, 9175175), (9240710, 9240711), (9306246, 9306247), (9371782, 9371783), (9437318, 9437319), (9502854, 9502855), (9568390, 9568391), (9633926, 9633927), (9699462, 9699463), (9764998, 9764999), (9830534, 9830535), (9896070, 9896071), (9961606, 9961607), (10027142, 10027143), (10092678, 10092679), (10158214, 10158215), (10223750, 10223751), (10289286, 10289287), (10354822, 10354823), (10420358, 10420359), (10485894, 10485895), (12583040, 12583041), (12583169, 12583170), (14680074, 14680193), (14680320, 14680322)]

theorem Head.wedgeDone_keep (hf : outKeys Head.wedgeDone_keys f₀.key = true) (c : Ctx) (w : Window) {x : Head} (hs : x.r f₀ = v₀) : (Head.wedgeDone c w x).r f₀ = v₀ := by
  unfold Head.wedgeDone
  extract_lets +onlyGivenNames -merge -useContext -lift x1
  extract_lets +onlyGivenNames -merge -useContext -lift x2
  extract_lets +onlyGivenNames -merge -useContext -lift x3
  have hx3 : x3.r f₀ = v₀ := by
    unfold x3
    apply Head.keep_record
    exact hs
  split
  extract_lets +onlyGivenNames -merge -useContext -lift x4
  extract_lets +onlyGivenNames -merge -useContext -lift x5
  have hx5 : x5.r f₀ = v₀ := by
    unfold x5
    apply Head.keep_w (out_ne hf (by decide))
    apply Head.keep_w (out_ne hf (by decide))
    exact hx3
  extract_lets +onlyGivenNames -merge -useContext -lift x6
  have hx6 : x6.r f₀ = v₀ := by
    unfold x6
    split
    · apply Head.indexDetected_keep (out_mono hf (by decide))
      exact hx5
    · exact hx5
  extract_lets +onlyGivenNames -merge -useContext -lift x7
  have hx7 : x7.r f₀ = v₀ := by
    unfold x7
    apply Head.keep_ite
    · apply Head.wedgeValid_keep (out_mono hf (by decide))
      exact hx6
    · apply Head.keep_bump (out_ne hf (by decide))
      apply Head.keep_flag (out_ne hf (by decide))
      exact hx6
  extract_lets +onlyGivenNames -merge -useContext -lift x8
  have hx8 : x8.r f₀ = v₀ := by
    unfold x8
    apply Head.idBit_keep (out_mono hf (by decide))
    exact hx7
  extract_lets +onlyGivenNames -merge -useContext -lift x9
  extract_lets +onlyGivenNames -merge -useContext -lift x10
  have hx10 : x10.r f₀ = v₀ := by
    unfold x10
    apply Head.keep_wi (out_ne hf (by decide))
    exact hx8
  extract_lets +onlyGivenNames -merge -useContext -lift x11
  extract_lets +onlyGivenNames -merge -useContext -lift x12
  have hx12 : x12.r f₀ = v₀ := by
    unfold x12
    apply Head.keep_ite
    · apply Head.keep_record
      exact hx10
    · exact hx8
  extract_lets +onlyGivenNames -merge -useContext -lift x13
  have hx13 : x13.r f₀ = v₀ := by
    unfold x13
    apply Head.wedgeChecks_keep (out_mono hf (by decide))
    exact hx12
  extract_lets +onlyGivenNames -merge -useContext -lift x14
  have hx14 : x14.r f₀ = v₀ := by
    unfold x14
    apply Head.keep_ite
    · apply Head.seekIdentified_keep (out_mono hf (by decide))
      exact hx13
    · exact hx13
  apply Head.refresh_keep (out_mono hf (by decide))
  exact hx14

/-- What Head.focusLocked may write. -/
def Head.focusLocked_keys : List (Nat × Nat) :=
  [(2098438, 2098439), (2098440, 2098441), (2105344, 2105345), (2105352, 2105363), (2105735, 2105736), (2105984, 2105985), (2106246, 2106247), (2107392, 2107393), (2107520, 2107521), (2107648, 2107649), (2107776, 2107777), (2107904, 2107905), (2108032, 2108033), (2108160, 2108161), (2108288, 2108289), (2108416, 2108417), (2108544, 2108545), (2108672, 2108673), (2108800, 2108801), (2108928, 2108929), (2109056, 2109057), (2109184, 2109185), (2109312, 2109313), (2109440, 2109441), (2109568, 2109569), (2109696, 2109697), (2109824, 2109825), (2109952, 2109953), (2110080, 2110081), (2110208, 2110209), (2110336, 2110337), (2110464, 2113409), (2113792, 2113804), (2113808, 2113814), (2113920, 2113923), (2113932, 2113933), (2116864, 2116865), (2118528, 2118545), (4194432, 4194433), (4194436, 4194437), (4194441, 4194442), (4194444, 4194561), (4194562, 4194563), (6291968, 6291974), (6291979, 6292097), (6292103, 6292106), (6294016, 6294145), (6294528, 6294785), (6300160, 6300166), (6300171, 6300289), (6300295, 6300298), (6302208, 6302337), (6302720, 6302977), (8388742, 8388743), (8454278, 8454279), (8519814, 8519815), (8585350, 8585351), (8650886, 8650887), (8716422, 8716423), (8781958, 8781959), (8847494, 8847495), (8913030, 8913031), (8978566, 8978567), (9044102, 9044103), (9109638, 9109639), (9175174, 9175175), (9240710, 9240711), (9306246, 9306247), (9371782, 9371783), (9437318, 9437319), (9502854, 9502855), (9568390, 9568391), (9633926, 9633927), (9699462, 9699463), (9764998, 9764999), (9830534, 9830535), (9896070, 9896071), (9961606, 9961607), (10027142, 10027143), (10092678, 10092679), (10158214, 10158215), (10223750, 10223751), (10289286, 10289287), (10354822, 10354823), (10420358, 10420359), (10485894, 10485895), (12583040, 12583041), (12583169, 12583170), (12584960, 12588945), (14680074, 14680193), (14680320, 14680322)]

theorem Head.focusLocked_keep (hf : outKeys Head.focusLocked_keys f₀.key = true) (c : Ctx) {x : Head} (hs : x.r f₀ = v₀) : (Head.focusLocked c x).r f₀ = v₀ := by
  unfold Head.focusLocked
  extract_lets +onlyGivenNames -merge -useContext -lift x1
  have hx1 : x1.r f₀ = v₀ := by
    unfold x1
    apply Head.loopEnable_keep (out_mono hf (by decide))
    apply Head.keep_w (out_ne hf (by decide))
    exact hs
  extract_lets +onlyGivenNames -merge -useContext -lift x2
  have hx2 : x2.r f₀ = v₀ := by
    unfold x2
    apply Head.applySelection_keep (out_mono hf (by decide))
    apply Head.loopEnable_keep (out_mono hf (by decide))
    exact hx1
  extract_lets +onlyGivenNames -merge -useContext -lift x3
  extract_lets +onlyGivenNames -merge -useContext -lift x4
  have hx4 : x4.r f₀ = v₀ := by
    unfold x4
    apply Head.keep_record
    exact hx2
  apply Head.keep_ite
  · extract_lets +onlyGivenNames -merge -useContext -lift x5
    have hx5 : x5.r f₀ = v₀ := by
      unfold x5
      apply Head.jumpOff_keep (out_mono hf (by decide))
      exact hx4
    extract_lets +onlyGivenNames -merge -useContext -lift x6
    have hx6 : x6.r f₀ = v₀ := by
      unfold x6
      apply Head.keep_ite
      · apply Head.keep_ite
        · apply Head.seekProceed_keep (out_mono hf (by decide))
          exact hx5
        · apply Head.jumpStart_keep (out_mono hf (by decide))
          exact hx5
      · exact hx5
    apply Head.refresh_keep (out_mono hf (by decide))
    exact hx6
  · apply Head.refresh_keep (out_mono hf (by decide))
    apply Head.cmdEnd_keep (out_mono hf (by decide))
    exact hx4

theorem Head.calArm_keep (hf : outKeys [(14680074, 14680201), (14680321, 14680322)] f₀.key = true) {x : Head} (hs : x.r f₀ = v₀) : (Head.calArm x).r f₀ = v₀ := by
  unfold Head.calArm
  apply Head.keep_ite
  · exact hs
  · extract_lets +onlyGivenNames -merge -useContext -lift x1
    apply Head.keep_ite
    · extract_lets +onlyGivenNames -merge -useContext -lift y2_0 x2
      have hx2 : x2.r f₀ = v₀ := by
        unfold x2
        apply Head.keep_record
        exact hs
      apply Head.keep_w (out_ne hf (by decide))
      apply Head.keep_put (out_ne hf (by decide))
      apply Head.keep_put (out_ne hf (by decide))
      exact hx2
    · apply Head.keep_flag (out_ne hf (by decide))
      apply Head.keep_w (out_ne hf (by decide))
      exact hs

/-- What Head.calCancel may write. -/
def Head.calCancel_keys : List (Nat × Nat) :=
  [(2106246, 2106247), (2110464, 2113409), (14680074, 14680193), (14680320, 14680322)]

theorem Head.calCancel_keep (hf : outKeys Head.calCancel_keys f₀.key = true) (c : Ctx) {x : Head} (hs : x.r f₀ = v₀) : (Head.calCancel c x).r f₀ = v₀ := by
  unfold Head.calCancel
  apply Head.keep_ite
  · apply Head.calEnd_keep (out_mono hf (by decide))
    apply Head.calRestore_keep (out_mono hf (by decide))
    exact hs
  · exact hs

theorem Head.calFinish_keep (hf : outKeys [(2106246, 2106247), (14680074, 14680193), (14680320, 14680322)] f₀.key = true) (c : Ctx) {x : Head} (hs : x.r f₀ = v₀) : (Head.calFinish c x).r f₀ = v₀ := by
  unfold Head.calFinish
  extract_lets +onlyGivenNames -merge -useContext -lift x1
  extract_lets +onlyGivenNames -merge -useContext -lift x2
  apply Head.keep_ite
  · apply Head.calEnd_keep (out_mono hf (by decide))
    exact hs
  · apply Head.keep_ite
    · apply Head.calEnd_keep (out_mono hf (by decide))
      exact hs
    · apply Head.keep_ite
      · apply Head.calEnd_keep (out_mono hf (by decide))
        exact hs
      · apply Head.calEnd_keep (out_mono hf (by decide))
        exact hs

theorem Head.calSettle_keep (hf : outKeys [(2106246, 2106247), (14680074, 14680193), (14680320, 14680322)] f₀.key = true) (c : Ctx) {x : Head} (hs : x.r f₀ = v₀) : (Head.calSettle c x).r f₀ = v₀ := by
  unfold Head.calSettle
  split
  · exact hs
  · apply Head.keep_ite
    · apply Head.calFinish_keep (out_mono hf (by decide))
      exact hs
    · exact hs

/-- What Head.calWindow may write. -/
def Head.calWindow_keys : List (Nat × Nat) :=
  [(2106240, 2106247), (2110464, 2113409), (14680074, 14680193), (14680320, 14680322), (14681600, 14681729)]

theorem Head.calWindow_keep (hf : outKeys Head.calWindow_keys f₀.key = true) (c : Ctx) (te : ℤ) {x : Head} (hs : x.r f₀ = v₀) : (Head.calWindow c te x).r f₀ = v₀ := by
  unfold Head.calWindow
  extract_lets +onlyGivenNames -merge -useContext -lift x1
  extract_lets +onlyGivenNames -merge -useContext -lift x2
  extract_lets +onlyGivenNames -merge -useContext -lift x3
  have hx3 : x3.r f₀ = v₀ := by
    unfold x3
    apply Head.keep_put (out_ne hf (by decide))
    exact hs
  extract_lets +onlyGivenNames -merge -useContext -lift y4_0 x4
  have hx4 : x4.r f₀ = v₀ := by
    unfold x4
    apply Head.keep_record
    exact hx3
  extract_lets +onlyGivenNames -merge -useContext -lift y5_0 x5
  have hx5 : x5.r f₀ = v₀ := by
    unfold x5
    apply Head.keep_ite
    · apply Head.keep_record
      exact hx4
    · exact hx4
  refine Head.calCheck_keep (out_mono hf (by decide)) c ?_
  · split
    · extract_lets +onlyGivenNames -merge -useContext -lift x7
      extract_lets +onlyGivenNames -merge -useContext -lift x8
      apply Head.keep_ite
      · extract_lets +onlyGivenNames -merge -useContext -lift y9_0 x9
        have hx9 : x9.r f₀ = v₀ := by
          unfold x9
          apply Head.issue_keep (out_mono hf (by decide))
          exact hx5
        apply Head.keep_record
        exact hx9
      · apply Head.calEnd_keep (out_mono hf (by decide))
        exact hx5
    · extract_lets +onlyGivenNames -merge -useContext -lift x10
      extract_lets +onlyGivenNames -merge -useContext -lift y11_0 x11
      have hx11 : x11.r f₀ = v₀ := by
        unfold x11
        apply Head.keep_ite
        · exact hx5
        · apply Head.keep_record
          exact hx5
      extract_lets +onlyGivenNames -merge -useContext -lift x12
      extract_lets +onlyGivenNames -merge -useContext -lift x13
      have hx13 : x13.r f₀ = v₀ := by
        unfold x13
        apply Head.loopRef_keep (out_mono hf (by decide))
        exact hx11
      apply Head.keep_record
      exact hx13
    · extract_lets +onlyGivenNames -merge -useContext -lift x14
      have hx14 : x14.r f₀ = v₀ := by
        unfold x14
        apply Head.keep_w (out_ne hf (by decide))
        apply Head.keep_w (out_ne hf (by decide))
        exact hx5
      extract_lets +onlyGivenNames -merge -useContext -lift x15
      have hx15 : x15.r f₀ = v₀ := by
        unfold x15
        apply Head.keep_put (out_ne hf (by decide))
        apply Head.keep_w (out_ne hf (by decide))
        apply Head.keep_w (out_ne hf (by decide))
        exact hx14
      apply Head.keep_record
      exact hx15

/-- What Head.calOpen may write. -/
def Head.calOpen_keys : List (Nat × Nat) :=
  [(2106240, 2106247), (2110464, 2113409), (14680074, 14680193), (14680208, 14680322), (14681600, 14681729)]

theorem Head.calOpen_keep (hf : outKeys Head.calOpen_keys f₀.key = true) (c : Ctx) (arg : ℕ) (te : ℤ) {x : Head} (hs : x.r f₀ = v₀) : (Head.calOpen c arg te x).r f₀ = v₀ := by
  unfold Head.calOpen
  apply Head.keep_ite
  · apply Head.calWindow_keep (out_mono hf (by decide))
    exact hs
  · apply Head.keep_bump (out_ne hf (by decide))
    exact hs

theorem Head.calLast_keep (hf : outKeys [(2106246, 2106247), (2110464, 2113409), (14680074, 14680201), (14680320, 14680322)] f₀.key = true) (c : Ctx) (te : ℤ) {x : Head} (hs : x.r f₀ = v₀) : (Head.calLast c te x).r f₀ = v₀ := by
  unfold Head.calLast
  extract_lets +onlyGivenNames -merge -useContext -lift x1
  have hx1 : x1.r f₀ = v₀ := by
    unfold x1
    apply Head.calRestore_keep (out_mono hf (by decide))
    exact hs
  extract_lets +onlyGivenNames -merge -useContext -lift x2
  have hx2 : x2.r f₀ = v₀ := by
    unfold x2
    apply Head.keep_ite
    · apply Head.keep_put (out_ne hf (by decide))
      exact hx1
    · exact hx1
  extract_lets +onlyGivenNames -merge -useContext -lift x3
  extract_lets +onlyGivenNames -merge -useContext -lift x4
  have hx4 : x4.r f₀ = v₀ := by
    unfold x4
    apply Head.keep_record
    exact hx2
  apply Head.calSettle_keep (out_mono hf (by decide))
  exact hx4

theorem Head.calClose_keep (hf : outKeys [(2106246, 2106247), (2110464, 2113409), (14680074, 14680322)] f₀.key = true) (c : Ctx) (arg : ℕ) (te : ℤ) {x : Head} (hs : x.r f₀ = v₀) : (Head.calClose c arg te x).r f₀ = v₀ := by
  unfold Head.calClose
  apply Head.keep_ite
  · extract_lets +onlyGivenNames -merge -useContext -lift x1
    extract_lets +onlyGivenNames -merge -useContext -lift x2
    have hx2 : x2.r f₀ = v₀ := by
      unfold x2
      apply Head.keep_record
      exact hs
    extract_lets +onlyGivenNames -merge -useContext -lift x3
    have hx3 : x3.r f₀ = v₀ := by
      unfold x3
      apply Head.keep_w (out_ne hf (by decide))
      exact hx2
    apply Head.keep_ite
    · exact hx3
    · apply Head.calLast_keep (out_mono hf (by decide))
      exact hx3
  · apply Head.keep_bump (out_ne hf (by decide))
    exact hs

theorem Head.calTone_keep (hf : outKeys [(2106246, 2106247), (14680074, 14680193), (14680320, 14680322)] f₀.key = true) (c : Ctx) (i : ℕ) (t10 : ℤ) (v : Option ℤ) {x : Head} (hs : x.r f₀ = v₀) : (Head.calTone c i t10 v x).r f₀ = v₀ := by
  unfold Head.calTone
  apply Head.keep_ite
  · apply Head.keep_ite
    · apply Head.calEnd_keep (out_mono hf (by decide))
      exact hs
    · split
      · apply Head.keep_record
        exact hs
      · apply Head.keep_record
        exact hs
  · exact hs

theorem Head.calFrame_keep (hf : outKeys [] f₀.key = true) (b : ℕ) (te : ℤ) (v : ℕ) {x : Head} (hs : x.r f₀ = v₀) : (Head.calFrame b te v x).r f₀ = v₀ := by
  unfold Head.calFrame
  apply Head.keep_ite
  · split
    · exact hs
    · apply Head.keep_record
      exact hs
  · exact hs

theorem Head.calMismatch_keep (hf : outKeys [(2106246, 2106247), (14680074, 14680193), (14680320, 14680322)] f₀.key = true) (c : Ctx) {x : Head} (hs : x.r f₀ = v₀) : (Head.calMismatch c x).r f₀ = v₀ := by
  unfold Head.calMismatch
  apply Head.keep_ite
  · apply Head.calEnd_keep (out_mono hf (by decide))
    exact hs
  · exact hs

theorem Head.calStimBad_keep (hf : outKeys [(2106246, 2106247), (14680074, 14680193), (14680320, 14680322)] f₀.key = true) (c : Ctx) {x : Head} (hs : x.r f₀ = v₀) : (Head.calStimBad c x).r f₀ = v₀ := by
  unfold Head.calStimBad
  apply Head.keep_ite
  · apply Head.calEnd_keep (out_mono hf (by decide))
    exact hs
  · exact hs

theorem Head.takeTemp_keep (hf : outKeys [(14680323, 14680324), (14680704, 14680705)] f₀.key = true) (a : BitVec 800) {x : Head} (hs : x.r f₀ = v₀) : (Head.takeTemp a x).r f₀ = v₀ := by
  unfold Head.takeTemp
  apply Head.keep_ite
  · extract_lets +onlyGivenNames -merge -useContext -lift x1
    have hx1 : x1.r f₀ = v₀ := by
      unfold x1
      apply Head.keep_w (out_ne hf (by decide))
      exact hs
    apply Head.keep_record
    exact hx1
  · extract_lets +onlyGivenNames -merge -useContext -lift x2
    apply Head.keep_ite
    · extract_lets +onlyGivenNames -merge -useContext -lift x3
      have hx3 : x3.r f₀ = v₀ := by
        unfold x3
        apply Head.keep_wi (out_ne hf (by decide))
        exact hs
      apply Head.keep_record
      exact hx3
    · extract_lets +onlyGivenNames -merge -useContext -lift x4
      have hx4 : x4.r f₀ = v₀ := by
        unfold x4
        apply Head.keep_flag (out_ne hf (by decide))
        exact hs
      apply Head.keep_record
      exact hx4

theorem Head.applyScorr_keep (hf : outKeys [(14688256, 14696577)] f₀.key = true) (m : Mem) {x : Head} (hs : x.r f₀ = v₀) : (Head.applyScorr m x).r f₀ = v₀ := by
  unfold Head.applyScorr
  refine Head.keep_foldl_mem hs fun y b hb hy => ?_
  have h := List.mem_range.1 hb
  exact Head.keep_w (out_lt hf CalReg.S_SKEW h (by decide)) (Head.keep_w (out_lt hf CalReg.S_OFF h (by decide))
    (Head.keep_w (out_lt hf CalReg.S_GAIN h (by decide)) (Head.scorrHold_keep (out_mono hf (by decide)) _ hy)))

/-- What Head.interpApply may write. -/
def Head.interpApply_keys : List (Nat × Nat) :=
  [(12584960, 12588945), (14680322, 14680323), (14680326, 14680328), (14680832, 14680833), (14681216, 14681217), (14688256, 14696577)]

theorem Head.interpApply_keep (hf : outKeys Head.interpApply_keys f₀.key = true) {x : Head} (hs : x.r f₀ = v₀) : (Head.interpApply x).r f₀ = v₀ := by
  unfold Head.interpApply
  extract_lets +onlyGivenNames -merge -useContext -lift x1
  extract_lets +onlyGivenNames -merge -useContext -lift x2
  extract_lets +onlyGivenNames -merge -useContext -lift x3
  extract_lets +onlyGivenNames -merge -useContext -lift x4
  extract_lets +onlyGivenNames -merge -useContext -lift x5
  extract_lets +onlyGivenNames -merge -useContext -lift x6
  extract_lets +onlyGivenNames -merge -useContext -lift x7
  extract_lets +onlyGivenNames -merge -useContext -lift x8
  extract_lets +onlyGivenNames -merge -useContext -lift x9
  extract_lets +onlyGivenNames -merge -useContext -lift x10
  have hx10 : x10.r f₀ = v₀ := by
    unfold x10
    apply Head.keep_ite
    · exact hs
    · apply Head.applyScorr_keep (out_mono hf (by decide))
      exact hs
  extract_lets +onlyGivenNames -merge -useContext -lift x11
  extract_lets +onlyGivenNames -merge -useContext -lift x12
  have hx12 : x12.r f₀ = v₀ := by
    unfold x12
    apply Head.keep_record
    exact hx10
  extract_lets +onlyGivenNames -merge -useContext -lift x13
  have hx13 : x13.r f₀ = v₀ := by
    unfold x13
    apply Head.keep_ite
    · exact hx12
    · apply Head.applyPower_keep (out_mono hf (by decide))
      exact hx12
  extract_lets +onlyGivenNames -merge -useContext -lift x14
  have hx14 : x14.r f₀ = v₀ := by
    unfold x14
    apply Head.keep_flag (out_ne hf (by decide))
    apply Head.keep_w (out_ne hf (by decide))
    apply Head.keep_w (out_ne hf (by decide))
    exact hx13
  apply Head.keep_flagIf (out_ne hf (by decide))
  apply Head.keep_flagIf (out_ne hf (by decide))
  exact hx14

theorem Head.onWrite_keep (hf : outKeys [] f₀.key = true) (f : WriteSt → WriteSt) {x : Head} (hs : x.r f₀ = v₀) : (Head.onWrite f x).r f₀ = v₀ := by
  unfold Head.onWrite
  apply Head.keep_record
  exact hs

theorem Head.showDepth_keep (hf : outKeys [(12583044, 12583045)] f₀.key = true) {x : Head} (hs : x.r f₀ = v₀) : (Head.showDepth x).r f₀ = v₀ := by
  unfold Head.showDepth
  apply Head.keep_w (out_ne hf (by decide))
  exact hs

theorem Head.takeReloc_keep (hf : outKeys [(12583044, 12583045)] f₀.key = true) (c : CwState) {x : Head} (hs : x.r f₀ = v₀) : (Head.takeReloc c x).2.r f₀ = v₀ := by
  unfold Head.takeReloc
  split
  · apply Head.keep_pair
    apply Head.showDepth_keep (out_mono hf (by decide))
    apply Head.onWrite_keep (out_mono hf (by decide))
    exact hs
  · apply Head.keep_pair
    exact hs

theorem Head.lasersArm_keep (hf : outKeys [] f₀.key = true) (c : Ctx) {x : Head} (hs : x.r f₀ = v₀) : (Head.lasersArm c x).r f₀ = v₀ := by
  unfold Head.lasersArm
  extract_lets +onlyGivenNames -merge -useContext -lift x1
  extract_lets +onlyGivenNames -merge -useContext -lift x2
  have hx2 : x2.r f₀ = v₀ := by
    unfold x2
    apply Head.keep_foldl
    · exact hs
    · intro _ _ hu3
      apply Head.laser_keep (out_mono hf (by decide))
      exact hu3
  apply Head.onWrite_keep (out_mono hf (by decide))
  exact hx2

theorem Head.stratMark_keep (hf : outKeys [] f₀.key = true) (e : ℕ) (v : Bool) {x : Head} (hs : x.r f₀ = v₀) : (Head.stratMark e v x).r f₀ = v₀ := by
  unfold Head.stratMark
  extract_lets +onlyGivenNames -merge -useContext -lift x1
  apply Head.keep_record
  exact hs

theorem Head.stratLost_keep (hf : outKeys [(12583179, 12583180)] f₀.key = true) {x : Head} (hs : x.r f₀ = v₀) : (Head.stratLost x).r f₀ = v₀ := by
  unfold Head.stratLost
  apply Head.keep_flag (out_ne hf (by decide))
  apply Head.keep_record
  exact hs

/-- What Head.writeOpen may write. -/
def Head.writeOpen_keys : List (Nat × Nat) :=
  [(2105344, 2105345), (2105352, 2105363), (2105735, 2105736), (2105984, 2105985), (2106246, 2106247), (2113792, 2113793), (2113803, 2113804), (2113920, 2113921), (2113932, 2113933), (2118528, 2118545), (6291968, 6291972), (6291979, 6292097), (6292103, 6292105), (6294016, 6294145), (6300160, 6300164), (6300171, 6300289), (6300295, 6300297), (6302208, 6302337), (12583040, 12583041), (12583169, 12583170), (12583174, 12583177), (14680074, 14680193), (14680320, 14680322)]

theorem Head.writeOpen_keep (hf : outKeys Head.writeOpen_keys f₀.key = true) (c : Ctx) (arg : ℕ) (te : ℤ) {x : Head} (hs : x.r f₀ = v₀) : (Head.writeOpen c arg te x).r f₀ = v₀ := by
  unfold Head.writeOpen
  split
  · apply Head.keep_flag (out_ne hf (by decide))
    exact hs
  · apply Head.keep_ite
    · apply Head.keep_flag (out_ne hf (by decide))
      exact hs
    · apply Head.keep_ite
      · exact hs
      · apply Head.keep_ite
        · apply Head.keep_flag (out_ne hf (by decide))
          exact hs
        · apply Head.keep_ite
          · apply Head.writeAbort_keep (out_mono hf (by decide))
            exact hs
          · apply Head.keep_ite
            · apply Head.writeAbort_keep (out_mono hf (by decide))
              apply Head.keep_flag (out_ne hf (by decide))
              exact hs
            · apply Head.keep_ite
              · apply Head.writeAbort_keep (out_mono hf (by decide))
                apply Head.keep_flag (out_ne hf (by decide))
                exact hs
              · extract_lets +onlyGivenNames -merge -useContext -lift x1
                extract_lets +onlyGivenNames -merge -useContext -lift x2
                extract_lets +onlyGivenNames -merge -useContext -lift x3
                extract_lets +onlyGivenNames -merge -useContext -lift x4
                have hx4 : x4.r f₀ = v₀ := by
                  unfold x4
                  apply Head.issue_keep (out_mono hf (by decide))
                  exact hs
                extract_lets +onlyGivenNames -merge -useContext -lift x5
                extract_lets +onlyGivenNames -merge -useContext -lift x6
                have hx6 : x6.r f₀ = v₀ := by
                  unfold x6
                  apply Head.onWrite_keep (out_mono hf (by decide))
                  exact hx4
                extract_lets +onlyGivenNames -merge -useContext -lift x7
                have hx7 : x7.r f₀ = v₀ := by
                  unfold x7
                  apply Head.keep_w (out_ne hf (by decide))
                  exact hx6
                apply Head.keep_ite
                · apply Head.refresh_keep (out_mono hf (by decide))
                  apply Head.keep_flag (out_ne hf (by decide))
                  apply Head.keep_w (out_ne hf (by decide))
                  exact hx7
                · exact hx7

theorem Head.writeClose_keep (hf : outKeys [] f₀.key = true) (c : Ctx) (te : ℤ) {x : Head} (hs : x.r f₀ = v₀) : (Head.writeClose c te x).r f₀ = v₀ := by
  unfold Head.writeClose
  split
  · exact hs
  · apply Head.keep_ite
    · exact hs
    · extract_lets +onlyGivenNames -merge -useContext -lift x1
      extract_lets +onlyGivenNames -merge -useContext -lift x2
      have hx2 : x2.r f₀ = v₀ := by
        unfold x2
        apply Head.issue_keep (out_mono hf (by decide))
        exact hs
      apply Head.onWrite_keep (out_mono hf (by decide))
      exact hx2

theorem Head.unitRead_keep (hf : outKeys [] f₀.key = true) (b : ℕ) (es : List ℤ) (ws : List (ℤ × ℤ)) (got : List (Option Bool)) (eref : ℕ) {x : Head} (hs : x.r f₀ = v₀) : (Head.unitRead b es ws got eref x).r f₀ = v₀ := by
  unfold Head.unitRead
  split
  · exact hs
  · apply Head.keep_ite
    · extract_lets +onlyGivenNames -merge -useContext -lift x1
      extract_lets +onlyGivenNames -merge -useContext -lift x2
      extract_lets +onlyGivenNames -merge -useContext -lift x3
      extract_lets +onlyGivenNames -merge -useContext -lift x4
      have hx4 : x4.r f₀ = v₀ := by
        unfold x4
        apply Head.onWrite_keep (out_mono hf (by decide))
        exact hs
      apply Head.keep_ite
      · extract_lets +onlyGivenNames -merge -useContext -lift x5
        apply Head.keep_ite
        · apply Head.onWrite_keep (out_mono hf (by decide))
          exact hx4
        · exact hx4
      · apply Head.keep_ite
        · exact hx4
        · apply Head.onWrite_keep (out_mono hf (by decide))
          exact hx4
    · exact hs

theorem Head.closeCw_keep (hf : outKeys [(12583170, 12583173)] f₀.key = true) (d : Desc) {x : Head} (i : ℕ) (hs : x.r f₀ = v₀) : (Head.closeCw d x i).r f₀ = v₀ := by
  unfold Head.closeCw
  split
  · exact hs
  · extract_lets +onlyGivenNames -merge -useContext -lift x1
    extract_lets +onlyGivenNames -merge -useContext -lift x2
    extract_lets +onlyGivenNames -merge -useContext -lift x3
    have hx3 : x3.r f₀ = v₀ := by
      unfold x3
      apply Head.keep_flagIf (out_ne hf (by decide))
      exact hs
    extract_lets +onlyGivenNames -merge -useContext -lift x4
    extract_lets +onlyGivenNames -merge -useContext -lift x5
    extract_lets +onlyGivenNames -merge -useContext -lift x6
    extract_lets +onlyGivenNames -merge -useContext -lift x7
    have hx7 : x7.r f₀ = v₀ := by
      unfold x7
      apply Head.keep_flagIf (out_ne hf (by decide))
      apply Head.keep_flagIf (out_ne hf (by decide))
      exact hx3
    extract_lets +onlyGivenNames -merge -useContext -lift x8
    extract_lets +onlyGivenNames -merge -useContext -lift x9
    apply Head.onWrite_keep (out_mono hf (by decide))
    exact hx7

theorem Head.stratGo_keep (hf : outKeys [] f₀.key = true) {x : Head} (hs : x.r f₀ = v₀) : (Head.stratGo x).r f₀ = v₀ := by
  unfold Head.stratGo
  apply Head.onWrite_keep (out_mono hf (by decide))
  exact hs

theorem Head.stratFails_keep (hf : outKeys [(12583178, 12583179)] f₀.key = true) {x : Head} (hs : x.r f₀ = v₀) : (Head.stratFails x).r f₀ = v₀ := by
  unfold Head.stratFails
  apply Head.keep_ite
  · apply Head.keep_flag (out_ne hf (by decide))
    apply Head.onWrite_keep (out_mono hf (by decide))
    exact hs
  · exact hs

theorem Head.stratLoad_keep (hf : outKeys [(12583178, 12583179)] f₀.key = true) (c : Ctx) {x : Head} (hs : x.r f₀ = v₀) : (Head.stratLoad c x).r f₀ = v₀ := by
  unfold Head.stratLoad
  extract_lets +onlyGivenNames -merge -useContext -lift x1
  extract_lets +onlyGivenNames -merge -useContext -lift x2
  extract_lets +onlyGivenNames -merge -useContext -lift x3
  have hx3 : x3.r f₀ = v₀ := by
    unfold x3
    apply Head.onWrite_keep (out_mono hf (by decide))
    apply Head.stratMark_keep (out_mono hf (by decide))
    exact hs
  extract_lets +onlyGivenNames -merge -useContext -lift x4
  extract_lets +onlyGivenNames -merge -useContext -lift x5
  have hx5 : x5.r f₀ = v₀ := by
    unfold x5
    apply Head.keep_foldl
    · exact hx3
    · intro _ _ hu6
      apply Head.issue_keep (out_mono hf (by decide))
      exact hu6
  apply Head.keep_ite
  · exact hx5
  · apply Head.stratFails_keep (out_mono hf (by decide))
    exact hx5

theorem Head.stratAck_keep (hf : outKeys [(12583178, 12583179)] f₀.key = true) (ok : Bool) (issued : ℕ) {x : Head} (hs : x.r f₀ = v₀) : (Head.stratAck ok issued x).r f₀ = v₀ := by
  unfold Head.stratAck
  apply Head.keep_ite
  · exact hs
  · apply Head.keep_ite
    · apply Head.stratFails_keep (out_mono hf (by decide))
      exact hs
    · extract_lets +onlyGivenNames -merge -useContext -lift x1
      apply Head.keep_ite
      · apply Head.onWrite_keep (out_mono hf (by decide))
        exact hs
      · apply Head.stratMark_keep (out_mono hf (by decide))
        apply Head.onWrite_keep (out_mono hf (by decide))
        exact hs

/-- What Head.writeAbortCmd may write. -/
def Head.writeAbortCmd_keys : List (Nat × Nat) :=
  [(2105344, 2105345), (2105352, 2105359), (2105735, 2105736), (2105984, 2105985), (2113792, 2113793), (2113920, 2113921), (12583040, 12583041), (12583169, 12583170)]

theorem Head.writeAbortCmd_keep (hf : outKeys Head.writeAbortCmd_keys f₀.key = true) (c : Ctx) {x : Head} (hs : x.r f₀ = v₀) : (Head.writeAbortCmd c x).r f₀ = v₀ := by
  unfold Head.writeAbortCmd
  apply Head.writeAbort_keep (out_mono hf (by decide))
  exact hs

theorem Head.takeInput_keep (hf : outKeys [(2105729, 2105730), (2105736, 2105737), (2105872, 2105873)] f₀.key = true) (n : ℕ) (t : ℕ) {x : Head} (hs : x.r f₀ = v₀) : (Head.takeInput n t x).2.r f₀ = v₀ := by
  unfold Head.takeInput
  extract_lets +onlyGivenNames -merge -useContext -lift x1
  extract_lets +onlyGivenNames -merge -useContext -lift x2
  extract_lets +onlyGivenNames -merge -useContext -lift x3
  apply Head.keep_ite₂
  · extract_lets +onlyGivenNames -merge -useContext -lift x4
    extract_lets +onlyGivenNames -merge -useContext -lift y5_0 x5
    have hx5 : x5.r f₀ = v₀ := by
      unfold x5
      apply Head.keep_record
      exact hs
    apply Head.keep_ite₂
    · apply Head.keep_pair
      try unfold x3
      apply Head.keep_flag (out_ne hf (by decide))
      apply Head.keep_bump (out_ne hf (by decide))
      exact hs
    · apply Head.keep_pair
      exact hx5
  · apply Head.keep_ite₂
    · split
      · apply Head.keep_pair
        apply Head.keep_flag (out_ne hf (by decide))
        try unfold x3
        apply Head.keep_flag (out_ne hf (by decide))
        apply Head.keep_bump (out_ne hf (by decide))
        exact hs
      · apply Head.keep_ite₂
        · apply Head.keep_pair
          exact hs
        · apply Head.keep_pair
          try unfold x3
          apply Head.keep_flag (out_ne hf (by decide))
          apply Head.keep_bump (out_ne hf (by decide))
          exact hs
    · apply Head.keep_pair
      exact hs

/-- What Head.queueSample may write. -/
def Head.queueSample_keys : List (Nat × Nat) :=
  [(2105729, 2105730), (2105736, 2105737), (2105872, 2105873), (2106128, 2106129)]

theorem Head.queueSample_keep (hf : outKeys Head.queueSample_keys f₀.key = true) (n : ℕ) (t : ℕ) (cycle : ℕ) {x : Head} (hs : x.r f₀ = v₀) : (Head.queueSample n t cycle x).r f₀ = v₀ := by
  unfold Head.queueSample
  apply Head.keep_ite
  · extract_lets +onlyGivenNames -merge -useContext -lift x1
    extract_lets +onlyGivenNames -merge -useContext -lift x2
    split
    rename_i _ p3 ep3
    have hp3 : p3.r f₀ = v₀ := Head.keep_ofEq ep3 (by
        apply Head.takeInput_keep (out_mono hf (by decide))
        exact hs)
    apply Head.keep_record
    exact hp3
  · extract_lets +onlyGivenNames -merge -useContext -lift y4_0 x4
    have hx4 : x4.r f₀ = v₀ := by
      unfold x4
      apply Head.keep_ite
      · apply Head.keep_record
        exact hs
      · exact hs
    apply Head.keep_ite
    · apply Head.keep_bump (out_ne hf (by decide))
      exact hx4
    · exact hx4

theorem Head.sendWaiting_keep (hf : outKeys [] f₀.key = true) (c : Ctx) (n : ℕ) (t : ℕ) {x : Head} (hs : x.r f₀ = v₀) : (Head.sendWaiting c n t x).r f₀ = v₀ := by
  unfold Head.sendWaiting
  extract_lets +onlyGivenNames -merge -useContext -lift x1
  extract_lets +onlyGivenNames -merge -useContext -lift x2
  have hx2 : x2.r f₀ = v₀ := by
    unfold x2
    apply Head.keep_foldl
    · exact hs
    · intro _ _ hu3
      apply Head.keep_ite
      · exact hu3
      · apply Head.act_keep (out_mono hf (by decide))
        exact hu3
  apply Head.keep_record
  exact hx2

theorem Head.servoTake_keep (hf : outKeys [] f₀.key = true) (t : ℕ) {x : Head} (hs : x.r f₀ = v₀) : (Head.servoTake t x).r f₀ = v₀ := by
  unfold Head.servoTake
  split
  · apply Head.keep_ite
    · apply Head.keep_record
      exact hs
    · exact hs
  · exact hs

/-- What Head.loopDue may write. -/
def Head.loopDue_keys : List (Nat × Nat) :=
  [(2098438, 2098439), (2098440, 2098441), (2105344, 2105345), (2105352, 2105363), (2105729, 2105730), (2105735, 2105737), (2105872, 2105985), (2106128, 2106129), (2106246, 2106247), (2107392, 2107393), (2107520, 2107521), (2107648, 2107649), (2107776, 2107777), (2107904, 2107905), (2108032, 2108033), (2108160, 2108161), (2108288, 2108289), (2108416, 2108417), (2108544, 2108545), (2108672, 2108673), (2108800, 2108801), (2108928, 2108929), (2109056, 2109057), (2109184, 2109185), (2109312, 2109313), (2109440, 2109441), (2109568, 2109569), (2109696, 2109697), (2109824, 2109825), (2109952, 2109953), (2110080, 2110081), (2110208, 2110209), (2110336, 2110337), (2110464, 2113409), (2113792, 2113814), (2113920, 2113923), (2113932, 2113933), (2118528, 2118545), (4194432, 4194433), (4194436, 4194437), (4194439, 4194440), (4194441, 4194442), (4194444, 4194561), (4194562, 4194563), (4194567, 4194569), (4195200, 4195201), (4198144, 4198273), (6291968, 6291972), (6291979, 6292097), (6292103, 6292105), (6294016, 6294145), (6300160, 6300164), (6300171, 6300289), (6300295, 6300297), (6302208, 6302337), (8388742, 8388743), (8454278, 8454279), (8519814, 8519815), (8585350, 8585351), (8650886, 8650887), (8716422, 8716423), (8781958, 8781959), (8847494, 8847495), (8913030, 8913031), (8978566, 8978567), (9044102, 9044103), (9109638, 9109639), (9175174, 9175175), (9240710, 9240711), (9306246, 9306247), (9371782, 9371783), (9437318, 9437319), (9502854, 9502855), (9568390, 9568391), (9633926, 9633927), (9699462, 9699463), (9764998, 9764999), (9830534, 9830535), (9896070, 9896071), (9961606, 9961607), (10027142, 10027143), (10092678, 10092679), (10158214, 10158215), (10223750, 10223751), (10289286, 10289287), (10354822, 10354823), (10420358, 10420359), (10485894, 10485895), (12583040, 12583041), (12583169, 12583170), (14680074, 14680193), (14680320, 14680322)]

theorem Head.loopDue_keep (hf : outKeys Head.loopDue_keys f₀.key = true) (c : Ctx) (n : ℕ) (t : ℕ) (cycle : ℕ) {x : Head} (hs : x.r f₀ = v₀) : (Head.loopDue c n t cycle x).r f₀ = v₀ := by
  unfold Head.loopDue
  extract_lets +onlyGivenNames -merge -useContext -lift x1
  have hx1 : x1.r f₀ = v₀ := by
    unfold x1
    apply Head.sendWaiting_keep (out_mono hf (by decide))
    exact hs
  extract_lets +onlyGivenNames -merge -useContext -lift x2
  have hx2 : x2.r f₀ = v₀ := by
    unfold x2
    apply Head.servoTake_keep (out_mono hf (by decide))
    exact hx1
  extract_lets +onlyGivenNames -merge -useContext -lift x3
  have hx3 : x3.r f₀ = v₀ := by
    unfold x3
    apply Head.keep_ite
    · apply Head.focusSample_keep (out_mono hf (by decide))
      exact hx2
    · exact hx1
  extract_lets +onlyGivenNames -merge -useContext -lift x4
  have hx4 : x4.r f₀ = v₀ := by
    unfold x4
    apply Head.keep_ite
    · apply Head.speedSample_keep (out_mono hf (by decide))
      exact hx3
    · exact hx3
  extract_lets +onlyGivenNames -merge -useContext -lift x5
  have hx5 : x5.r f₀ = v₀ := by
    unfold x5
    apply Head.keep_ite
    · split
      · apply Head.keep_ite
        · apply Head.formCurrents_keep (out_mono hf (by decide))
          exact hx4
        · exact hx4
      · exact hx4
    · exact hx4
  extract_lets +onlyGivenNames -merge -useContext -lift x6
  have hx6 : x6.r f₀ = v₀ := by
    unfold x6
    apply Head.keep_ite
    · apply Head.alignSample_keep (out_mono hf (by decide))
      exact hx5
    · exact hx5
  extract_lets +onlyGivenNames -merge -useContext -lift x7
  have hx7 : x7.r f₀ = v₀ := by
    unfold x7
    apply Head.queueSample_keep (out_mono hf (by decide))
    exact hx6
  apply Head.keep_ite
  · apply Head.saSample_keep (out_mono hf (by decide))
    exact hx7
  · exact hx7

/-- What Head.takeDue may write. -/
def Head.takeDue_keys : List (Nat × Nat) :=
  [(2098438, 2098439), (2098440, 2098441), (2105344, 2105345), (2105352, 2105363), (2105729, 2105730), (2105735, 2105737), (2105872, 2105985), (2106128, 2106129), (2106246, 2106247), (2107392, 2107393), (2107520, 2107521), (2107648, 2107649), (2107776, 2107777), (2107904, 2107905), (2108032, 2108033), (2108160, 2108161), (2108288, 2108289), (2108416, 2108417), (2108544, 2108545), (2108672, 2108673), (2108800, 2108801), (2108928, 2108929), (2109056, 2109057), (2109184, 2109185), (2109312, 2109313), (2109440, 2109441), (2109568, 2109569), (2109696, 2109697), (2109824, 2109825), (2109952, 2109953), (2110080, 2110081), (2110208, 2110209), (2110336, 2110337), (2110464, 2113409), (2113792, 2113814), (2113920, 2113923), (2113932, 2113933), (2118528, 2118545), (4194432, 4194433), (4194436, 4194437), (4194439, 4194440), (4194441, 4194442), (4194444, 4194561), (4194562, 4194563), (4194567, 4194569), (4195200, 4195201), (4198144, 4198273), (6291968, 6291972), (6291979, 6292097), (6292103, 6292105), (6294016, 6294145), (6300160, 6300164), (6300171, 6300289), (6300295, 6300297), (6302208, 6302337), (8388742, 8388743), (8454278, 8454279), (8519814, 8519815), (8585350, 8585351), (8650886, 8650887), (8716422, 8716423), (8781958, 8781959), (8847494, 8847495), (8913030, 8913031), (8978566, 8978567), (9044102, 9044103), (9109638, 9109639), (9175174, 9175175), (9240710, 9240711), (9306246, 9306247), (9371782, 9371783), (9437318, 9437319), (9502854, 9502855), (9568390, 9568391), (9633926, 9633927), (9699462, 9699463), (9764998, 9764999), (9830534, 9830535), (9896070, 9896071), (9961606, 9961607), (10027142, 10027143), (10092678, 10092679), (10158214, 10158215), (10223750, 10223751), (10289286, 10289287), (10354822, 10354823), (10420358, 10420359), (10485894, 10485895), (12583040, 12583041), (12583169, 12583170), (14680074, 14680193), (14680320, 14680322)]

theorem Head.takeDue_keep (hf : outKeys Head.takeDue_keys f₀.key = true) (n : ℕ) (c : Ctx) {x : Head} (hs : x.r f₀ = v₀) : (Head.takeDue n c x).r f₀ = v₀ := by
  unfold Head.takeDue
  split
  · exact hs
  · extract_lets +onlyGivenNames -merge -useContext -lift x1
    extract_lets +onlyGivenNames -merge -useContext -lift x2
    have hx2 : x2.r f₀ = v₀ := by
      unfold x2
      apply Head.keep_record
      exact hs
    apply Head.calSettle_keep (out_mono hf (by decide))
    apply Head.sampleBanks_keep (out_mono hf (by decide))
    apply Head.refreshMode_keep (out_mono hf (by decide))
    apply Head.loopDue_keep (out_mono hf (by decide))
    exact hx2

/-- What Head.loopEvent may write. -/
def Head.loopEvent_keys : List (Nat × Nat) :=
  [(2098438, 2098439), (2098440, 2098441), (2105344, 2105345), (2105352, 2105363), (2105729, 2105730), (2105733, 2105734), (2105735, 2105737), (2105872, 2105985), (2106128, 2106129), (2106246, 2106247), (2107392, 2107393), (2107520, 2107521), (2107648, 2107649), (2107776, 2107777), (2107904, 2107905), (2108032, 2108033), (2108160, 2108161), (2108288, 2108289), (2108416, 2108417), (2108544, 2108545), (2108672, 2108673), (2108800, 2108801), (2108928, 2108929), (2109056, 2109057), (2109184, 2109185), (2109312, 2109313), (2109440, 2109441), (2109568, 2109569), (2109696, 2109697), (2109824, 2109825), (2109952, 2109953), (2110080, 2110081), (2110208, 2110209), (2110336, 2110337), (2110464, 2113409), (2113792, 2113814), (2113920, 2113923), (2113932, 2113933), (2118528, 2118545), (4194432, 4194433), (4194436, 4194437), (4194439, 4194440), (4194441, 4194442), (4194444, 4194561), (4194562, 4194563), (4194567, 4194569), (4195200, 4195201), (4198144, 4198273), (6291968, 6291972), (6291979, 6292097), (6292103, 6292105), (6294016, 6294145), (6300160, 6300164), (6300171, 6300289), (6300295, 6300297), (6302208, 6302337), (8388742, 8388743), (8454278, 8454279), (8519814, 8519815), (8585350, 8585351), (8650886, 8650887), (8716422, 8716423), (8781958, 8781959), (8847494, 8847495), (8913030, 8913031), (8978566, 8978567), (9044102, 9044103), (9109638, 9109639), (9175174, 9175175), (9240710, 9240711), (9306246, 9306247), (9371782, 9371783), (9437318, 9437319), (9502854, 9502855), (9568390, 9568391), (9633926, 9633927), (9699462, 9699463), (9764998, 9764999), (9830534, 9830535), (9896070, 9896071), (9961606, 9961607), (10027142, 10027143), (10092678, 10092679), (10158214, 10158215), (10223750, 10223751), (10289286, 10289287), (10354822, 10354823), (10420358, 10420359), (10485894, 10485895), (12583040, 12583041), (12583169, 12583170), (14680074, 14680193), (14680320, 14680322)]

theorem Head.loopEvent_keep (hf : outKeys Head.loopEvent_keys f₀.key = true) (c : Ctx) (n : ℕ) (te : ℤ) {x : Head} (hs : x.r f₀ = v₀) : (Head.loopEvent c n te x).r f₀ = v₀ := by
  unfold Head.loopEvent
  apply Head.keep_ite
  · apply Head.keep_flag (out_ne hf (by decide))
    exact hs
  · apply Head.sampleBanks_keep (out_mono hf (by decide))
    apply Head.refreshMode_keep (out_mono hf (by decide))
    apply Head.loopDue_keep (out_mono hf (by decide))
    exact hs

theorem Head.keepTrim_keep (hf : outKeys [] f₀.key = true) (c : Ctx) (key : ℕ) (u : ℤ) {x : Head} (hs : x.r f₀ = v₀) : (Head.keepTrim c key u x).r f₀ = v₀ := by
  unfold Head.keepTrim
  extract_lets +onlyGivenNames -merge -useContext -lift x1
  apply Head.keep_record
  exact hs

theorem Head.deliver_keep (hf : outKeys [(2110464, 2113409)] f₀.key = true) (c : Ctx) (d : LoopDue) (u : ℤ) {x : Head} (hs : x.r f₀ = v₀) : (Head.deliver c d u x).r f₀ = v₀ := by
  unfold Head.deliver
  extract_lets +onlyGivenNames -merge -useContext -lift x1
  extract_lets +onlyGivenNames -merge -useContext -lift x2
  extract_lets +onlyGivenNames -merge -useContext -lift x3
  extract_lets +onlyGivenNames -merge -useContext -lift x4
  have hx4 : x4.r f₀ = v₀ := by
    unfold x4
    apply Head.keep_record
    exact hs
  split
  · apply Head.act_keep (out_mono hf (by decide))
    exact hx4
  · apply Head.loopRef_keep (out_mono hf (by decide))
    exact hx4
  · apply Head.keep_ite
    · apply Head.keep_record
      exact hx4
    · apply Head.keep_ite
      · apply Head.keepTrim_keep (out_mono hf (by decide))
        exact hx4
      · exact hx4
  · exact hx4

theorem Head.gainSample_keep (hf : outKeys [] f₀.key = true) (d : LoopDue) (o : EvalOut) {x : Head} (hs : x.r f₀ = v₀) : (Head.gainSample d o x).r f₀ = v₀ := by
  unfold Head.gainSample
  apply Head.keep_ite
  · apply Head.keep_ite
    · apply Head.keep_record
      exact hs
    · apply Head.keep_record
      exact hs
  · exact hs

/-- What Head.evaluate may write. -/
def Head.evaluate_keys : List (Nat × Nat) :=
  [(2105728, 2105729), (2105730, 2105733), (2105856, 2105857), (2106000, 2106001), (2106256, 2106257), (2110464, 2113409), (4194438, 4194439)]

theorem Head.evaluate_keep (hf : outKeys Head.evaluate_keys f₀.key = true) (c : Ctx) (d : LoopDue) {x : Head} (hs : x.r f₀ = v₀) : (Head.evaluate c d x).r f₀ = v₀ := by
  unfold Head.evaluate
  extract_lets +onlyGivenNames -merge -useContext -lift x1
  extract_lets +onlyGivenNames -merge -useContext -lift x2
  extract_lets +onlyGivenNames -merge -useContext -lift x3
  extract_lets +onlyGivenNames -merge -useContext -lift x4
  have hx4 : x4.r f₀ = v₀ := by
    unfold x4
    apply Head.keep_ite
    · apply Head.keep_w (out_ne hf (by decide))
      apply Head.keep_flag (out_ne hf (by decide))
      apply Head.keep_bump (out_ne hf (by decide))
      exact hs
    · exact hs
  extract_lets +onlyGivenNames -merge -useContext -lift x5
  have hx5 : x5.r f₀ = v₀ := by
    unfold x5
    apply Head.keep_bump (out_ne hf (by decide))
    apply Head.keep_flagIf (out_ne hf (by decide))
    exact hx4
  extract_lets +onlyGivenNames -merge -useContext -lift x6
  have hx6 : x6.r f₀ = v₀ := by
    unfold x6
    apply Head.keep_flagIf (out_ne hf (by decide))
    apply Head.keep_flagIf (out_ne hf (by decide))
    exact hx5
  extract_lets +onlyGivenNames -merge -useContext -lift y7_0 x7
  have hx7 : x7.r f₀ = v₀ := by
    unfold x7
    apply Head.keep_record
    exact hx6
  extract_lets +onlyGivenNames -merge -useContext -lift x8
  have hx8 : x8.r f₀ = v₀ := by
    unfold x8
    apply Head.deliver_keep (out_mono hf (by decide))
    apply Head.gainSample_keep (out_mono hf (by decide))
    exact hx7
  apply Head.keep_ite
  · apply Head.commutate_keep (out_mono hf (by decide))
    exact hx8
  · exact hx8

theorem Head.dropDue_keep (hf : outKeys [] f₀.key = true) (d : LoopDue) {x : Head} (hs : x.r f₀ = v₀) : (Head.dropDue d x).r f₀ = v₀ := by
  unfold Head.dropDue
  apply Head.keep_record
  exact hs

theorem Head.updateKv_keep (hf : outKeys [(2105600, 2105601), (2105737, 2105738)] f₀.key = true) (a : BitVec 800) {x : Head} (hs : x.r f₀ = v₀) : (Head.updateKv a x).r f₀ = v₀ := by
  unfold Head.updateKv
  extract_lets +onlyGivenNames -merge -useContext -lift x1
  extract_lets +onlyGivenNames -merge -useContext -lift x2
  apply Head.keep_flagIf (out_ne hf (by decide))
  apply Head.keep_w (out_ne hf (by decide))
  exact hs

/-- What Head.updateBand may write. -/
def Head.updateBand_keys : List (Nat × Nat) :=
  [(2105344, 2105351), (2105354, 2105359), (2105735, 2105736), (2105984, 2105985)]

theorem Head.updateBand_keep (hf : outKeys Head.updateBand_keys f₀.key = true) {x : Head} (hs : x.r f₀ = v₀) : (Head.updateBand x).r f₀ = v₀ := by
  unfold Head.updateBand
  apply Head.keep_ite
  · extract_lets +onlyGivenNames -merge -useContext -lift x1
    extract_lets +onlyGivenNames -merge -useContext -lift x2
    extract_lets +onlyGivenNames -merge -useContext -lift x3
    extract_lets +onlyGivenNames -merge -useContext -lift x4
    apply Head.refreshBank_keep (out_mono hf (by decide))
    apply Head.keep_w (out_ne hf (by decide))
    exact hs
  · exact hs

theorem Head.loopClrStats_keep (hf : outKeys [] f₀.key = true) (n : ℕ) {x : Head} (hs : x.r f₀ = v₀) : (Head.loopClrStats n x).r f₀ = v₀ := by
  unfold Head.loopClrStats
  apply Head.keep_record
  exact hs

theorem Head.linkTo_keep (hf : outKeys [(128, 129)] f₀.key = true) (c : Ctx) (st : ℕ) {x : Head} (hs : x.r f₀ = v₀) : (Head.linkTo c st x).r f₀ = v₀ := by
  unfold Head.linkTo
  extract_lets +onlyGivenNames -merge -useContext -lift x1
  have hx1 : x1.r f₀ = v₀ := by
    unfold x1
    apply Head.keep_w (out_ne hf (by decide))
    exact hs
  apply Head.keep_record
  exact hx1

theorem Head.laneSend_keep (hf : outKeys [] f₀.key = true) (l : List TxItem) {x : Head} (hs : x.r f₀ = v₀) : (Head.laneSend l x).r f₀ = v₀ := by
  unfold Head.laneSend
  apply Head.keep_record
  exact hs

theorem Head.trainFail_keep (hf : outKeys [(128, 129), (144, 145)] f₀.key = true) (c : Ctx) (code : ℕ) {x : Head} (hs : x.r f₀ = v₀) : (Head.trainFail c code x).r f₀ = v₀ := by
  unfold Head.trainFail
  apply Head.laneSend_keep (out_mono hf (by decide))
  apply Head.linkTo_keep (out_mono hf (by decide))
  apply Head.keep_w (out_ne hf (by decide))
  exact hs

/-- What Head.linkDown may write. -/
def Head.linkDown_keys : List (Nat × Nat) :=
  [(128, 129), (256, 257), (1304, 1305), (2105344, 2105345), (2105352, 2105359), (2105735, 2105736), (2105984, 2105985), (2113792, 2113793), (2113920, 2113921), (12583040, 12583041), (12583169, 12583170), (12583178, 12583180)]

theorem Head.linkDown_keep (hf : outKeys Head.linkDown_keys f₀.key = true) (c : Ctx) (auto : Bool) {x : Head} (hs : x.r f₀ = v₀) : (Head.linkDown c auto x).r f₀ = v₀ := by
  unfold Head.linkDown
  extract_lets +onlyGivenNames -merge -useContext -lift x1
  have hx1 : x1.r f₀ = v₀ := by
    unfold x1
    apply Head.writeAbort_keep (out_mono hf (by decide))
    apply Head.linkTo_keep (out_mono hf (by decide))
    apply Head.keep_flag (out_ne hf (by decide))
    exact hs
  extract_lets +onlyGivenNames -merge -useContext -lift x2
  extract_lets +onlyGivenNames -merge -useContext -lift x3
  have hx3 : x3.r f₀ = v₀ := by
    unfold x3
    apply Head.keep_record
    exact hx1
  apply Head.stratFails_keep (out_mono hf (by decide))
  apply Head.stratLost_keep (out_mono hf (by decide))
  apply Head.keep_put (out_ne hf (by decide))
  exact hx3

theorem Head.sendTrain_keep (hf : outKeys [] f₀.key = true) (t1 : ℕ) (arrive : ℕ) (lat : ℕ) {x : Head} (hs : x.r f₀ = v₀) : (Head.sendTrain t1 arrive lat x).r f₀ = v₀ := by
  unfold Head.sendTrain
  extract_lets +onlyGivenNames -merge -useContext -lift x1
  apply Head.keep_record
  exact hs

theorem Head.echoRequest_keep (hf : outKeys [] f₀.key = true) (c : Ctx) {x : Head} (hs : x.r f₀ = v₀) : (Head.echoRequest c x).r f₀ = v₀ := by
  unfold Head.echoRequest
  extract_lets +onlyGivenNames -merge -useContext -lift x1
  have hx1 : x1.r f₀ = v₀ := by
    unfold x1
    apply Head.sendTrain_keep (out_mono hf (by decide))
    exact hs
  apply Head.keep_record
  exact hx1

theorem Head.alignBlock_keep (hf : outKeys [(128, 129), (144, 145)] f₀.key = true) (c : Ctx) (fec : Bool) (b : BitVec 256) {x : Head} (hs : x.r f₀ = v₀) : (Head.alignBlock c fec b x).r f₀ = v₀ := by
  unfold Head.alignBlock
  apply Head.keep_ite
  · apply Head.trainFail_keep (out_mono hf (by decide))
    exact hs
  · apply Head.keep_ite
    · apply Head.echoRequest_keep (out_mono hf (by decide))
      apply Head.linkTo_keep (out_mono hf (by decide))
      exact hs
    · exact hs

theorem Head.measureBlock_keep (hf : outKeys [(1024, 1041)] f₀.key = true) (c : Ctx) (b : BitVec 256) {x : Head} (hs : x.r f₀ = v₀) : (Head.measureBlock c b x).r f₀ = v₀ := by
  unfold Head.measureBlock
  apply Head.keep_ite
  · exact hs
  · extract_lets +onlyGivenNames -merge -useContext -lift x1
    extract_lets +onlyGivenNames -merge -useContext -lift x2
    extract_lets +onlyGivenNames -merge -useContext -lift x3
    have hx3 : x3.r f₀ = v₀ := by
      unfold x3
      apply Head.keep_w (out_ne hf (by decide))
      apply Head.keep_w (out_ne hf (by decide))
      exact hs
    extract_lets +onlyGivenNames -merge -useContext -lift x4
    extract_lets +onlyGivenNames -merge -useContext -lift x5
    have hx5 : x5.r f₀ = v₀ := by
      unfold x5
      apply Head.keep_record
      exact hx3
    apply Head.keep_ite
    · apply Head.echoRequest_keep (out_mono hf (by decide))
      exact hx5
    · exact hx5

theorem Head.measured_keep (hf : outKeys [(128, 129), (144, 145), (400, 513)] f₀.key = true) (c : Ctx) {x : Head} (hs : x.r f₀ = v₀) : (Head.measured c x).r f₀ = v₀ := by
  unfold Head.measured
  extract_lets +onlyGivenNames -merge -useContext -lift x1
  apply Head.keep_ite
  · apply Head.trainFail_keep (out_mono hf (by decide))
    exact hs
  · apply Head.keep_ite
    · apply Head.trainFail_keep (out_mono hf (by decide))
      exact hs
    · extract_lets +onlyGivenNames -merge -useContext -lift x2
      have hx2 : x2.r f₀ = v₀ := by
        unfold x2
        apply Head.keep_w (out_ne hf (by decide))
        apply Head.keep_w (out_ne hf (by decide))
        exact hs
      extract_lets +onlyGivenNames -merge -useContext -lift y3_0 x3
      have hx3 : x3.r f₀ = v₀ := by
        unfold x3
        apply Head.keep_record
        exact hx2
      apply Head.linkTo_keep (out_mono hf (by decide))
      exact hx3

/-- What Head.linkUp may write. -/
def Head.linkUp_keys : List (Nat × Nat) :=
  [(128, 129), (144, 145), (384, 385), (2105344, 2105345), (2105352, 2105363), (2105735, 2105736), (2105984, 2105985), (2106246, 2106247), (2107392, 2107393), (2107520, 2107521), (2107648, 2107649), (2107776, 2107777), (2107904, 2107905), (2108032, 2108033), (2108160, 2108161), (2108288, 2108289), (2108416, 2108417), (2108544, 2108545), (2108672, 2108673), (2108800, 2108801), (2108928, 2108929), (2109056, 2109057), (2109184, 2109185), (2109312, 2109313), (2109440, 2109441), (2109568, 2109569), (2109696, 2109697), (2109824, 2109825), (2109952, 2109953), (2110080, 2110081), (2110208, 2110209), (2110336, 2110337), (2110464, 2113409), (2113792, 2113793), (2113803, 2113804), (2113920, 2113921), (2113932, 2113933), (2118528, 2118545), (4194432, 4194433), (4194436, 4194437), (4194441, 4194442), (4194444, 4194561), (4194562, 4194563), (6291968, 6291972), (6291979, 6292097), (6292103, 6292105), (6294016, 6294145), (6300160, 6300164), (6300171, 6300289), (6300295, 6300297), (6302208, 6302337), (12583040, 12583041), (12583169, 12583170), (14680074, 14680193), (14680320, 14680322)]

theorem Head.linkUp_keep (hf : outKeys Head.linkUp_keys f₀.key = true) (c : Ctx) {x : Head} (hs : x.r f₀ = v₀) : (Head.linkUp c x).r f₀ = v₀ := by
  unfold Head.linkUp
  extract_lets +onlyGivenNames -merge -useContext -lift x1
  apply Head.keep_ite
  · apply Head.trainFail_keep (out_mono hf (by decide))
    exact hs
  · extract_lets +onlyGivenNames -merge -useContext -lift x2
    have hx2 : x2.r f₀ = v₀ := by
      unfold x2
      apply Head.safeEnds_keep (out_mono hf (by decide))
      apply Head.linkTo_keep (out_mono hf (by decide))
      apply Head.keep_w (out_ne hf (by decide))
      exact hs
    extract_lets +onlyGivenNames -merge -useContext -lift x3
    extract_lets +onlyGivenNames -merge -useContext -lift y4_0 x4
    have hx4 : x4.r f₀ = v₀ := by
      unfold x4
      apply Head.keep_record
      exact hx2
    apply Head.keep_ite
    · apply Head.refresh_keep (out_mono hf (by decide))
      apply Head.setHstate_keep (out_mono hf (by decide))
      exact hx4
    · apply Head.refresh_keep (out_mono hf (by decide))
      exact hx4

theorem Head.sendBits_keep (hf : outKeys [] f₀.key = true) (f : ℕ) (closes : List ℕ) {x : Head} (hs : x.r f₀ = v₀) : (Head.sendBits f closes x).2.r f₀ = v₀ := by
  unfold Head.sendBits
  split
  extract_lets +onlyGivenNames -merge -useContext -lift x1
  split
  extract_lets +onlyGivenNames -merge -useContext -lift x2
  apply Head.keep_pair
  apply Head.onWrite_keep (out_mono hf (by decide))
  exact hs

theorem Head.bridgeSent_keep (hf : outKeys [] f₀.key = true) (c : Ctx) (v : ℕ) (f : ℕ) {x : Head} (hs : x.r f₀ = v₀) : (Head.bridgeSent c v f x).r f₀ = v₀ := by
  unfold Head.bridgeSent
  extract_lets +onlyGivenNames -merge -useContext -lift x1
  apply Head.keep_ite
  · apply Head.keep_ite
    · apply Head.keep_record
      exact hs
    · exact hs
  · apply Head.keep_ite
    · extract_lets +onlyGivenNames -merge -useContext -lift x2
      extract_lets +onlyGivenNames -merge -useContext -lift x3
      have hx3 : x3.r f₀ = v₀ := by
        unfold x3
        apply Head.keep_record
        exact hs
      apply Head.bridge_keep (out_mono hf (by decide))
      exact hx3
    · apply Head.keep_ite
      · apply Head.keep_record
        exact hs
      · exact hs

theorem Head.actSent_keep (hf : outKeys [] f₀.key = true) (out : ℕ) (f : ℕ) {x : Head} (hs : x.r f₀ = v₀) : (Head.actSent out f x).r f₀ = v₀ := by
  unfold Head.actSent
  extract_lets +onlyGivenNames -merge -useContext -lift x1
  apply Head.keep_ite
  · try unfold x1
    apply Head.onGen_keep (out_mono hf (by decide))
    exact hs
  · apply Head.keep_ite
    · try unfold x1
      apply Head.onGen_keep (out_mono hf (by decide))
      exact hs
    · exact hs

theorem Head.placed_keep (hf : outKeys [(1304, 1305)] f₀.key = true) (c : Ctx) (num : ℕ) {x : Head} (m : RCmd) (hs : x.r f₀ = v₀) : (Head.placed c num x m).r f₀ = v₀ := by
  unfold Head.placed
  extract_lets +onlyGivenNames -merge -useContext -lift x1
  extract_lets +onlyGivenNames -merge -useContext -lift y2_0 x2
  have hx2 : x2.r f₀ = v₀ := by
    unfold x2
    apply Head.keep_record
    exact hs
  extract_lets +onlyGivenNames -merge -useContext -lift x3
  have hx3 : x3.r f₀ = v₀ := by
    unfold x3
    apply Head.keep_ite
    · apply Head.keep_put (out_ne hf (by decide))
      exact hx2
    · exact hx2
  apply Head.keep_ite
  · apply Head.bridgeSent_keep (out_mono hf (by decide))
    exact hx3
  · apply Head.keep_ite
    · apply Head.actSent_keep (out_mono hf (by decide))
      exact hx3
    · exact hx3

/-- What Head.sendFrame may write. -/
def Head.sendFrame_keys : List (Nat × Nat) :=
  [(1304, 1305), (2105344, 2105345), (2105352, 2105359), (2105735, 2105736), (2105984, 2105985), (2113792, 2113793), (2113920, 2113921), (12583040, 12583041)]

theorem Head.sendFrame_keep (hf : outKeys Head.sendFrame_keys f₀.key = true) (c : Ctx) (num : ℕ) {x : Head} (hs : x.r f₀ = v₀) : (Head.sendFrame c num x).r f₀ = v₀ := by
  unfold Head.sendFrame
  extract_lets +onlyGivenNames -merge -useContext -lift x1
  extract_lets +onlyGivenNames -merge -useContext -lift x2
  have hx2 : x2.r f₀ = v₀ := by
    unfold x2
    apply Head.writeSettle_keep (out_mono hf (by decide))
    exact hs
  extract_lets +onlyGivenNames -merge -useContext -lift x3
  extract_lets +onlyGivenNames -merge -useContext -lift x4
  extract_lets +onlyGivenNames -merge -useContext -lift x5
  have hx5 : x5.r f₀ = v₀ := by
    unfold x5
    apply Head.keep_record
    exact hx2
  extract_lets +onlyGivenNames -merge -useContext -lift x6
  split
  extract_lets +onlyGivenNames -merge -useContext -lift x7
  extract_lets +onlyGivenNames -merge -useContext -lift x8
  have hx8 : x8.r f₀ = v₀ := by
    unfold x8
    apply Head.keep_foldl
    · rename_i p9 ep9
      have hp9 : p9.r f₀ = v₀ := Head.keep_ofEq ep9 (by
          apply Head.keep_ite₂
          · apply Head.sendBits_keep (out_mono hf (by decide))
            exact hx5
          · apply Head.keep_pair
            exact hx5)
      exact hp9
    · intro _ _ hu10
      apply Head.placed_keep (out_mono hf (by decide))
      exact hu10
  apply Head.keep_record
  exact hx8

/-- What Head.probeAck may write. -/
def Head.probeAck_keys : List (Nat × Nat) :=
  [(2105344, 2105345), (2105352, 2105363), (2105735, 2105736), (2105984, 2105985), (2106246, 2106247), (2107392, 2107393), (2107520, 2107521), (2107648, 2107649), (2107776, 2107777), (2107904, 2107905), (2108032, 2108033), (2108160, 2108161), (2108288, 2108289), (2108416, 2108417), (2108544, 2108545), (2108672, 2108673), (2108800, 2108801), (2108928, 2108929), (2109056, 2109057), (2109184, 2109185), (2109312, 2109313), (2109440, 2109441), (2109568, 2109569), (2109696, 2109697), (2109824, 2109825), (2109952, 2109953), (2110080, 2110081), (2110208, 2110209), (2110336, 2110337), (2110464, 2113409), (2113792, 2113793), (2113803, 2113804), (2113808, 2113814), (2113920, 2113923), (2113932, 2113933), (2118528, 2118545), (4194432, 4194433), (4194436, 4194437), (4194441, 4194566), (4194579, 4194580), (4195200, 4195201), (4195968, 4195969), (4198544, 4198545), (6291968, 6291972), (6291979, 6292097), (6292103, 6292105), (6294016, 6294145), (6300160, 6300164), (6300171, 6300289), (6300295, 6300297), (6302208, 6302337), (12583040, 12583041), (12583169, 12583170), (14680074, 14680193), (14680320, 14680322)]

theorem Head.probeAck_keep (hf : outKeys Head.probeAck_keys f₀.key = true) (c : Ctx) (ok : Bool) (f : ℕ) {x : Head} (hs : x.r f₀ = v₀) : (Head.probeAck c ok f x).r f₀ = v₀ := by
  unfold Head.probeAck
  apply Head.keep_ite
  · apply Head.keep_ite
    · apply Head.probeReady_keep (out_mono hf (by decide))
      apply Head.keep_record
      exact hs
    · apply Head.probeFails_keep (out_mono hf (by decide))
      exact hs
  · exact hs

/-- What Head.ackSource may write. -/
def Head.ackSource_keys : List (Nat × Nat) :=
  [(2098438, 2098439), (2098440, 2098441), (2105344, 2105345), (2105352, 2105363), (2105735, 2105736), (2105984, 2105985), (2106246, 2106247), (2107392, 2107393), (2107520, 2107521), (2107648, 2107649), (2107776, 2107777), (2107904, 2107905), (2108032, 2108033), (2108160, 2108161), (2108288, 2108289), (2108416, 2108417), (2108544, 2108545), (2108672, 2108673), (2108800, 2108801), (2108928, 2108929), (2109056, 2109057), (2109184, 2109185), (2109312, 2109313), (2109440, 2109441), (2109568, 2109569), (2109696, 2109697), (2109824, 2109825), (2109952, 2109953), (2110080, 2110081), (2110208, 2110209), (2110336, 2110337), (2110464, 2113409), (2113792, 2113804), (2113808, 2113814), (2113920, 2113923), (2113932, 2113933), (2118528, 2118545), (4194432, 4194433), (4194436, 4194437), (4194441, 4194566), (4194579, 4194580), (4195200, 4195201), (4195968, 4195969), (4198544, 4198545), (6291968, 6291972), (6291979, 6292097), (6292103, 6292105), (6294016, 6294145), (6300160, 6300164), (6300171, 6300289), (6300295, 6300297), (6302208, 6302337), (8388742, 8388743), (8454278, 8454279), (8519814, 8519815), (8585350, 8585351), (8650886, 8650887), (8716422, 8716423), (8781958, 8781959), (8847494, 8847495), (8913030, 8913031), (8978566, 8978567), (9044102, 9044103), (9109638, 9109639), (9175174, 9175175), (9240710, 9240711), (9306246, 9306247), (9371782, 9371783), (9437318, 9437319), (9502854, 9502855), (9568390, 9568391), (9633926, 9633927), (9699462, 9699463), (9764998, 9764999), (9830534, 9830535), (9896070, 9896071), (9961606, 9961607), (10027142, 10027143), (10092678, 10092679), (10158214, 10158215), (10223750, 10223751), (10289286, 10289287), (10354822, 10354823), (10420358, 10420359), (10485894, 10485895), (12583040, 12583041), (12583169, 12583170), (12583178, 12583179), (14680074, 14680193), (14680320, 14680322)]

theorem Head.ackSource_keep (hf : outKeys Head.ackSource_keys f₀.key = true) (c : Ctx) (ok : Bool) (m : SentCmd) {x : Head} (hs : x.r f₀ = v₀) : (Head.ackSource c ok m x).r f₀ = v₀ := by
  unfold Head.ackSource
  split
  · apply Head.keep_ite
    · apply Head.laserAck_keep (out_mono hf (by decide))
      exact hs
    · exact hs
  · apply Head.keep_ite
    · apply Head.probeAck_keep (out_mono hf (by decide))
      exact hs
    · exact hs
  · apply Head.keep_ite
    · apply Head.keep_ite
      · apply Head.keep_record
        exact hs
      · apply Head.calStimBad_keep (out_mono hf (by decide))
        exact hs
    · exact hs
  · apply Head.keep_ite
    · apply Head.stratAck_keep (out_mono hf (by decide))
      exact hs
    · exact hs
  · apply Head.keep_ite
    · apply Head.keep_record
      exact hs
    · exact hs
  · exact hs

/-- What Head.takeAck may write. -/
def Head.takeAck_keys : List (Nat × Nat) :=
  [(261, 262), (912, 913), (2098438, 2098439), (2098440, 2098441), (2105344, 2105345), (2105352, 2105363), (2105735, 2105736), (2105984, 2105985), (2106246, 2106247), (2107392, 2107393), (2107520, 2107521), (2107648, 2107649), (2107776, 2107777), (2107904, 2107905), (2108032, 2108033), (2108160, 2108161), (2108288, 2108289), (2108416, 2108417), (2108544, 2108545), (2108672, 2108673), (2108800, 2108801), (2108928, 2108929), (2109056, 2109057), (2109184, 2109185), (2109312, 2109313), (2109440, 2109441), (2109568, 2109569), (2109696, 2109697), (2109824, 2109825), (2109952, 2109953), (2110080, 2110081), (2110208, 2110209), (2110336, 2110337), (2110464, 2113409), (2113792, 2113804), (2113808, 2113814), (2113920, 2113923), (2113932, 2113933), (2118528, 2118545), (4194432, 4194433), (4194436, 4194437), (4194441, 4194566), (4194579, 4194580), (4195200, 4195201), (4195968, 4195969), (4198544, 4198545), (6291968, 6291972), (6291979, 6292097), (6292103, 6292105), (6294016, 6294145), (6300160, 6300164), (6300171, 6300289), (6300295, 6300297), (6302208, 6302337), (8388742, 8388743), (8454278, 8454279), (8519814, 8519815), (8585350, 8585351), (8650886, 8650887), (8716422, 8716423), (8781958, 8781959), (8847494, 8847495), (8913030, 8913031), (8978566, 8978567), (9044102, 9044103), (9109638, 9109639), (9175174, 9175175), (9240710, 9240711), (9306246, 9306247), (9371782, 9371783), (9437318, 9437319), (9502854, 9502855), (9568390, 9568391), (9633926, 9633927), (9699462, 9699463), (9764998, 9764999), (9830534, 9830535), (9896070, 9896071), (9961606, 9961607), (10027142, 10027143), (10092678, 10092679), (10158214, 10158215), (10223750, 10223751), (10289286, 10289287), (10354822, 10354823), (10420358, 10420359), (10485894, 10485895), (12583040, 12583041), (12583169, 12583170), (12583178, 12583179), (14680074, 14680193), (14680320, 14680322)]

theorem Head.takeAck_keep (hf : outKeys Head.takeAck_keys f₀.key = true) (c : Ctx) (e : ℕ) {x : Head} (hs : x.r f₀ = v₀) : (Head.takeAck c x e).r f₀ = v₀ := by
  unfold Head.takeAck
  apply Head.keep_ite
  · exact hs
  · split
    · exact hs
    · extract_lets +onlyGivenNames -merge -useContext -lift x1
      extract_lets +onlyGivenNames -merge -useContext -lift x2
      extract_lets +onlyGivenNames -merge -useContext -lift x3
      have hx3 : x3.r f₀ = v₀ := by
        unfold x3
        apply Head.keep_record
        exact hs
      extract_lets +onlyGivenNames -merge -useContext -lift x4
      have hx4 : x4.r f₀ = v₀ := by
        unfold x4
        apply Head.keep_ite
        · exact hx3
        · apply Head.keep_bump (out_ne hf (by decide))
          apply Head.keep_flag (out_ne hf (by decide))
          exact hx3
      apply Head.ackSource_keep (out_mono hf (by decide))
      exact hx4

theorem Head.bufferFrame_keep (hf : outKeys [] f₀.key = true) (num : ℕ) (v : Option (BitVec 57750)) {x : Head} (hs : x.r f₀ = v₀) : (Head.bufferFrame num v x).r f₀ = v₀ := by
  unfold Head.bufferFrame
  apply Head.keep_record
  exact hs

theorem Head.pushServo_keep (hf : outKeys [] f₀.key = true) (r : ServoRec) {x : Head} (hs : x.r f₀ = v₀) : (Head.pushServo r x).r f₀ = v₀ := by
  unfold Head.pushServo
  apply Head.keep_record
  exact hs

/-- What Head.badFrame may write. -/
def Head.badFrame_keys : List (Nat × Nat) :=
  [(257, 258), (784, 785), (2105344, 2105363), (2105735, 2105736), (2105984, 2105985), (2106246, 2106247), (2107392, 2107393), (2107520, 2107521), (2107648, 2107649), (2107776, 2107777), (2107904, 2107905), (2108032, 2108033), (2108160, 2108161), (2108288, 2108289), (2108416, 2108417), (2108544, 2108545), (2108672, 2108673), (2108800, 2108801), (2108928, 2108929), (2109056, 2109057), (2109184, 2109185), (2109312, 2109313), (2109440, 2109441), (2109568, 2109569), (2109696, 2109697), (2109824, 2109825), (2109952, 2109953), (2110080, 2110081), (2110208, 2110209), (2110336, 2110337), (2110464, 2113409), (2113792, 2113793), (2113803, 2113804), (2113808, 2113814), (2113920, 2113923), (2113932, 2113933), (2118528, 2118545), (4194432, 4194433), (4194436, 4194437), (4194441, 4194443), (4194444, 4194561), (4194562, 4194563), (4194579, 4194580), (4195200, 4195201), (6291968, 6291972), (6291979, 6292097), (6292103, 6292105), (6294016, 6294145), (6300160, 6300164), (6300171, 6300289), (6300295, 6300297), (6302208, 6302337), (12583040, 12583041), (12583169, 12583170), (14680074, 14680193), (14680320, 14680322)]

theorem Head.badFrame_keep (hf : outKeys Head.badFrame_keys f₀.key = true) (c : Ctx) (num : ℕ) {x : Head} (hs : x.r f₀ = v₀) : (Head.badFrame c num x).r f₀ = v₀ := by
  unfold Head.badFrame
  extract_lets +onlyGivenNames -merge -useContext -lift x1
  have hx1 : x1.r f₀ = v₀ := by
    unfold x1
    apply Head.keep_bump (out_ne hf (by decide))
    apply Head.keep_flag (out_ne hf (by decide))
    exact hs
  extract_lets +onlyGivenNames -merge -useContext -lift x2
  extract_lets +onlyGivenNames -merge -useContext -lift x3
  have hx3 : x3.r f₀ = v₀ := by
    unfold x3
    apply Head.keep_record
    exact hx1
  extract_lets +onlyGivenNames -merge -useContext -lift x4
  have hx4 : x4.r f₀ = v₀ := by
    unfold x4
    apply Head.bufferFrame_keep (out_mono hf (by decide))
    exact hx3
  extract_lets +onlyGivenNames -merge -useContext -lift x5
  extract_lets +onlyGivenNames -merge -useContext -lift x6
  have hx6 : x6.r f₀ = v₀ := by
    unfold x6
    apply Head.pushServo_keep (out_mono hf (by decide))
    exact hx4
  extract_lets +onlyGivenNames -merge -useContext -lift x7
  have hx7 : x7.r f₀ = v₀ := by
    unfold x7
    apply Head.frameWindows_keep (out_mono hf (by decide))
    apply Head.sampleBanks_keep (out_mono hf (by decide))
    apply Head.updateBand_keep (out_mono hf (by decide))
    apply Head.motorMissing_keep (out_mono hf (by decide))
    exact hx6
  apply Head.keep_ite
  · apply Head.probeFails_keep (out_mono hf (by decide))
    exact hx7
  · exact hx7

/-- What Head.headEndSafe may write. -/
def Head.headEndSafe_keys : List (Nat × Nat) :=
  [(131, 132), (264, 265), (2098438, 2098439), (2098440, 2098441), (2105344, 2105345), (2105352, 2105363), (2105735, 2105736), (2105984, 2105985), (2106246, 2106247), (2107392, 2107393), (2107520, 2107521), (2107648, 2107649), (2107776, 2107777), (2107904, 2107905), (2108032, 2108033), (2108160, 2108161), (2108288, 2108289), (2108416, 2108417), (2108544, 2108545), (2108672, 2108673), (2108800, 2108801), (2108928, 2108929), (2109056, 2109057), (2109184, 2109185), (2109312, 2109313), (2109440, 2109441), (2109568, 2109569), (2109696, 2109697), (2109824, 2109825), (2109952, 2109953), (2110080, 2110081), (2110208, 2110209), (2110336, 2110337), (2110464, 2113409), (2113792, 2113804), (2113808, 2113814), (2113920, 2113923), (2113932, 2113933), (2118528, 2118545), (4194432, 4194433), (4194436, 4194437), (4194441, 4194442), (4194444, 4194561), (4194562, 4194563), (6291968, 6291972), (6291979, 6292097), (6292103, 6292105), (6294016, 6294145), (6300160, 6300164), (6300171, 6300289), (6300295, 6300297), (6302208, 6302337), (8388742, 8388743), (8454278, 8454279), (8519814, 8519815), (8585350, 8585351), (8650886, 8650887), (8716422, 8716423), (8781958, 8781959), (8847494, 8847495), (8913030, 8913031), (8978566, 8978567), (9044102, 9044103), (9109638, 9109639), (9175174, 9175175), (9240710, 9240711), (9306246, 9306247), (9371782, 9371783), (9437318, 9437319), (9502854, 9502855), (9568390, 9568391), (9633926, 9633927), (9699462, 9699463), (9764998, 9764999), (9830534, 9830535), (9896070, 9896071), (9961606, 9961607), (10027142, 10027143), (10092678, 10092679), (10158214, 10158215), (10223750, 10223751), (10289286, 10289287), (10354822, 10354823), (10420358, 10420359), (10485894, 10485895), (12583040, 12583041), (12583169, 12583170), (14680074, 14680193), (14680320, 14680322)]

theorem Head.headEndSafe_keep (hf : outKeys Head.headEndSafe_keys f₀.key = true) (c : Ctx) (v : Bool) (bus : ℕ) {x : Head} (hs : x.r f₀ = v₀) : (Head.headEndSafe c v bus x).r f₀ = v₀ := by
  unfold Head.headEndSafe
  extract_lets +onlyGivenNames -merge -useContext -lift x1
  extract_lets +onlyGivenNames -merge -useContext -lift x2
  have hx2 : x2.r f₀ = v₀ := by
    unfold x2
    apply Head.keep_put (out_ne hf (by decide))
    exact hs
  apply Head.keep_ite
  · extract_lets +onlyGivenNames -merge -useContext -lift x3
    have hx3 : x3.r f₀ = v₀ := by
      unfold x3
      apply Head.enterSafe_keep (out_mono hf (by decide))
      apply Head.keep_flag (out_ne hf (by decide))
      exact hx2
    apply Head.keep_record
    exact hx3
  · apply Head.keep_ite
    · apply Head.refresh_keep (out_mono hf (by decide))
      apply Head.setHstate_keep (out_mono hf (by decide))
      exact hx2
    · exact hx2

/-- What Head.frameMotor may write. -/
def Head.frameMotor_keys : List (Nat × Nat) :=
  [(2097176, 2097177), (2097178, 2097179), (2097664, 2097665), (2098051, 2098052), (2098176, 2098177), (2105344, 2105345), (2105352, 2105363), (2105735, 2105736), (2105984, 2105985), (2106246, 2106247), (2107392, 2107393), (2107520, 2107521), (2107648, 2107649), (2107776, 2107777), (2107904, 2107905), (2108032, 2108033), (2108160, 2108161), (2108288, 2108289), (2108416, 2108417), (2108544, 2108545), (2108672, 2108673), (2108800, 2108801), (2108928, 2108929), (2109056, 2109057), (2109184, 2109185), (2109312, 2109313), (2109440, 2109441), (2109568, 2109569), (2109696, 2109697), (2109824, 2109825), (2109952, 2109953), (2110080, 2110081), (2110208, 2110209), (2110336, 2110337), (2110464, 2113409), (2113792, 2113793), (2113803, 2113804), (2113808, 2113814), (2113920, 2113923), (2113932, 2113933), (2118528, 2118545), (4194432, 4194438), (4194441, 4194442), (4194444, 4194563), (4194570, 4194571), (4195072, 4195329), (4198544, 4198545), (6291968, 6291972), (6291979, 6292097), (6292103, 6292105), (6294016, 6294145), (6300160, 6300164), (6300171, 6300289), (6300295, 6300297), (6302208, 6302337), (12583040, 12583041), (12583169, 12583170), (14680074, 14680193), (14680320, 14680322)]

theorem Head.frameMotor_keep (hf : outKeys Head.frameMotor_keys f₀.key = true) (c : Ctx) (a : BitVec 800) (num : ℕ) {x : Head} (hs : x.r f₀ = v₀) : (Head.frameMotor c a num x).r f₀ = v₀ := by
  unfold Head.frameMotor
  extract_lets +onlyGivenNames -merge -useContext -lift x1
  extract_lets +onlyGivenNames -merge -useContext -lift x2
  extract_lets +onlyGivenNames -merge -useContext -lift x3
  have hx3 : x3.r f₀ = v₀ := by
    unfold x3
    apply Head.keep_ite
    · apply Head.motorSample_keep (out_mono hf (by decide))
      exact hs
    · apply Head.motorMissing_keep (out_mono hf (by decide))
      exact hs
  extract_lets +onlyGivenNames -merge -useContext -lift x4
  have hx4 : x4.r f₀ = v₀ := by
    unfold x4
    apply Head.keep_ite
    · apply Head.angleFault_keep (out_mono hf (by decide))
      exact hx3
    · exact hx3
  apply Head.keep_ite
  · extract_lets +onlyGivenNames -merge -useContext -lift x5
    extract_lets +onlyGivenNames -merge -useContext -lift x6
    have hx6 : x6.r f₀ = v₀ := by
      unfold x6
      apply Head.keep_ite
      · exact hx4
      · apply Head.keep_record
        exact hx4
    apply Head.afterMotor_keep (out_mono hf (by decide))
    apply Head.trackMotor_keep (out_mono hf (by decide))
    exact hx6
  · exact hx4

/-- What Head.frameSpare may write. -/
def Head.frameSpare_keys : List (Nat × Nat) :=
  [(263, 264), (2106246, 2106247), (14680074, 14680193), (14680320, 14680322)]

theorem Head.frameSpare_keep (hf : outKeys Head.frameSpare_keys f₀.key = true) (c : Ctx) (a : BitVec 800) (num : ℕ) {x : Head} (hs : x.r f₀ = v₀) : (Head.frameSpare c a num x).r f₀ = v₀ := by
  unfold Head.frameSpare
  extract_lets +onlyGivenNames -merge -useContext -lift x1
  apply Head.keep_ite
  · exact hs
  · apply Head.calMismatch_keep (out_mono hf (by decide))
    apply Head.keep_flag (out_ne hf (by decide))
    exact hs

/-- What Head.frameAbort may write. -/
def Head.frameAbort_keys : List (Nat × Nat) :=
  [(265, 266), (2105344, 2105345), (2105352, 2105359), (2105735, 2105736), (2105984, 2105985), (2113792, 2113793), (2113920, 2113921), (12583040, 12583041), (12583169, 12583170)]

theorem Head.frameAbort_keep (hf : outKeys Head.frameAbort_keys f₀.key = true) (c : Ctx) (a : BitVec 800) {x : Head} (hs : x.r f₀ = v₀) : (Head.frameAbort c a x).r f₀ = v₀ := by
  unfold Head.frameAbort
  extract_lets +onlyGivenNames -merge -useContext -lift x1
  apply Head.keep_ite
  · exact hs
  · apply Head.writeAbort_keep (out_mono hf (by decide))
    apply Head.keep_flag (out_ne hf (by decide))
    exact hs

theorem Head.frameInputs_keep (hf : outKeys [(2113934, 2113935)] f₀.key = true) (a : BitVec 800) {x : Head} (hs : x.r f₀ = v₀) : (Head.frameInputs a x).r f₀ = v₀ := by
  unfold Head.frameInputs
  extract_lets +onlyGivenNames -merge -useContext -lift x1
  extract_lets +onlyGivenNames -merge -useContext -lift x2
  extract_lets +onlyGivenNames -merge -useContext -lift x3
  extract_lets +onlyGivenNames -merge -useContext -lift x4
  have hx4 : x4.r f₀ = v₀ := by
    unfold x4
    apply Head.keep_flagIf (out_ne hf (by decide))
    exact hs
  apply Head.keep_record
  exact hx4

/-- What Head.goodFrame may write. -/
def Head.goodFrame_keys : List (Nat × Nat) :=
  [(261, 262), (263, 264), (265, 266), (912, 913), (2097176, 2097177), (2097178, 2097179), (2097664, 2097665), (2098051, 2098052), (2098176, 2098177), (2098438, 2098439), (2098440, 2098441), (2105344, 2105363), (2105600, 2105601), (2105735, 2105736), (2105737, 2105738), (2105984, 2105985), (2106246, 2106247), (2107392, 2107393), (2107520, 2107521), (2107648, 2107649), (2107776, 2107777), (2107904, 2107905), (2108032, 2108033), (2108160, 2108161), (2108288, 2108289), (2108416, 2108417), (2108544, 2108545), (2108672, 2108673), (2108800, 2108801), (2108928, 2108929), (2109056, 2109057), (2109184, 2109185), (2109312, 2109313), (2109440, 2109441), (2109568, 2109569), (2109696, 2109697), (2109824, 2109825), (2109952, 2109953), (2110080, 2110081), (2110208, 2110209), (2110336, 2110337), (2110464, 2113409), (2113792, 2113804), (2113808, 2113814), (2113920, 2113923), (2113932, 2113933), (2113934, 2113935), (2118528, 2118545), (4194432, 4194438), (4194440, 4194566), (4194570, 4194571), (4194574, 4194575), (4194576, 4194577), (4194579, 4194580), (4195072, 4195329), (4195968, 4195969), (4198544, 4198545), (6291968, 6291972), (6291975, 6291976), (6291978, 6292097), (6292102, 6292105), (6292107, 6292108), (6293888, 6294145), (6300160, 6300164), (6300167, 6300168), (6300170, 6300289), (6300294, 6300297), (6300299, 6300300), (6302080, 6302337), (8388742, 8388743), (8454278, 8454279), (8519814, 8519815), (8585350, 8585351), (8650886, 8650887), (8716422, 8716423), (8781958, 8781959), (8847494, 8847495), (8913030, 8913031), (8978566, 8978567), (9044102, 9044103), (9109638, 9109639), (9175174, 9175175), (9240710, 9240711), (9306246, 9306247), (9371782, 9371783), (9437318, 9437319), (9502854, 9502855), (9568390, 9568391), (9633926, 9633927), (9699462, 9699463), (9764998, 9764999), (9830534, 9830535), (9896070, 9896071), (9961606, 9961607), (10027142, 10027143), (10092678, 10092679), (10158214, 10158215), (10223750, 10223751), (10289286, 10289287), (10354822, 10354823), (10420358, 10420359), (10485894, 10485895), (12583040, 12583041), (12583169, 12583170), (12583178, 12583179), (14680074, 14680193), (14680320, 14680322), (14680323, 14680324), (14680704, 14680705)]

theorem Head.goodFrame_keep (hf : outKeys Head.goodFrame_keys f₀.key = true) (c : Ctx) (a : BitVec 800) (num : ℕ) {x : Head} (hs : x.r f₀ = v₀) : (Head.goodFrame c a num x).r f₀ = v₀ := by
  unfold Head.goodFrame
  extract_lets +onlyGivenNames -merge -useContext -lift x1
  extract_lets +onlyGivenNames -merge -useContext -lift x2
  extract_lets +onlyGivenNames -merge -useContext -lift x3
  have hx3 : x3.r f₀ = v₀ := by
    unfold x3
    apply Head.keep_record
    exact hs
  extract_lets +onlyGivenNames -merge -useContext -lift x4
  have hx4 : x4.r f₀ = v₀ := by
    unfold x4
    apply Head.refreshInhibit_keep (out_mono hf (by decide))
    apply Head.frameMotor_keep (out_mono hf (by decide))
    apply Head.busFrame_keep (out_mono hf (by decide))
    apply Head.frameInputs_keep (out_mono hf (by decide))
    exact hx3
  extract_lets +onlyGivenNames -merge -useContext -lift x5
  have hx5 : x5.r f₀ = v₀ := by
    unfold x5
    apply Head.sampleBanks_keep (out_mono hf (by decide))
    apply Head.updateBand_keep (out_mono hf (by decide))
    apply Head.updateKv_keep (out_mono hf (by decide))
    exact hx4
  extract_lets +onlyGivenNames -merge -useContext -lift x6
  have hx6 : x6.r f₀ = v₀ := by
    unfold x6
    apply Head.stepFrame_keep (out_mono hf (by decide))
    exact hx5
  extract_lets +onlyGivenNames -merge -useContext -lift x7
  have hx7 : x7.r f₀ = v₀ := by
    unfold x7
    apply Head.takeTemp_keep (out_mono hf (by decide))
    exact hx6
  extract_lets +onlyGivenNames -merge -useContext -lift x8
  have hx8 : x8.r f₀ = v₀ := by
    unfold x8
    apply Head.frameEdges_keep (out_mono hf (by decide))
    apply Head.frameWindows_keep (out_mono hf (by decide))
    exact hx7
  extract_lets +onlyGivenNames -merge -useContext -lift x9
  have hx9 : x9.r f₀ = v₀ := by
    unfold x9
    apply Head.pushServo_keep (out_mono hf (by decide))
    exact hx8
  extract_lets +onlyGivenNames -merge -useContext -lift x10
  have hx10 : x10.r f₀ = v₀ := by
    unfold x10
    apply Head.frameAbort_keep (out_mono hf (by decide))
    apply Head.frameSpare_keep (out_mono hf (by decide))
    exact hx9
  extract_lets +onlyGivenNames -merge -useContext -lift x11
  have hx11 : x11.r f₀ = v₀ := by
    unfold x11
    apply Head.keep_foldl
    · exact hx10
    · intro _ _ hu12
      apply Head.takeAck_keep (out_mono hf (by decide))
      exact hu12
  apply Head.keep_ite
  · apply Head.probeGood_keep (out_mono hf (by decide))
    exact hx11
  · exact hx11

/-- What Head.receive may write. -/
def Head.receive_keys : List (Nat × Nat) :=
  [(257, 260), (261, 262), (263, 264), (265, 266), (784, 785), (912, 913), (2097176, 2097177), (2097178, 2097179), (2097664, 2097665), (2098051, 2098052), (2098176, 2098177), (2098438, 2098439), (2098440, 2098441), (2105344, 2105363), (2105600, 2105601), (2105735, 2105736), (2105737, 2105738), (2105984, 2105985), (2106246, 2106247), (2107392, 2107393), (2107520, 2107521), (2107648, 2107649), (2107776, 2107777), (2107904, 2107905), (2108032, 2108033), (2108160, 2108161), (2108288, 2108289), (2108416, 2108417), (2108544, 2108545), (2108672, 2108673), (2108800, 2108801), (2108928, 2108929), (2109056, 2109057), (2109184, 2109185), (2109312, 2109313), (2109440, 2109441), (2109568, 2109569), (2109696, 2109697), (2109824, 2109825), (2109952, 2109953), (2110080, 2110081), (2110208, 2110209), (2110336, 2110337), (2110464, 2113409), (2113792, 2113804), (2113808, 2113814), (2113920, 2113923), (2113932, 2113933), (2113934, 2113935), (2118528, 2118545), (4194432, 4194438), (4194440, 4194566), (4194570, 4194571), (4194574, 4194575), (4194576, 4194577), (4194579, 4194580), (4195072, 4195329), (4195968, 4195969), (4198544, 4198545), (6291968, 6291972), (6291975, 6291976), (6291978, 6292097), (6292102, 6292105), (6292107, 6292108), (6293888, 6294145), (6300160, 6300164), (6300167, 6300168), (6300170, 6300289), (6300294, 6300297), (6300299, 6300300), (6302080, 6302337), (8388742, 8388743), (8454278, 8454279), (8519814, 8519815), (8585350, 8585351), (8650886, 8650887), (8716422, 8716423), (8781958, 8781959), (8847494, 8847495), (8913030, 8913031), (8978566, 8978567), (9044102, 9044103), (9109638, 9109639), (9175174, 9175175), (9240710, 9240711), (9306246, 9306247), (9371782, 9371783), (9437318, 9437319), (9502854, 9502855), (9568390, 9568391), (9633926, 9633927), (9699462, 9699463), (9764998, 9764999), (9830534, 9830535), (9896070, 9896071), (9961606, 9961607), (10027142, 10027143), (10092678, 10092679), (10158214, 10158215), (10223750, 10223751), (10289286, 10289287), (10354822, 10354823), (10420358, 10420359), (10485894, 10485895), (12583040, 12583041), (12583169, 12583170), (12583178, 12583179), (14680074, 14680193), (14680320, 14680322), (14680323, 14680324), (14680704, 14680705)]

theorem Head.receive_keep (hf : outKeys Head.receive_keys f₀.key = true) (c : Ctx) (f : UpFrame) {x : Head} (hs : x.r f₀ = v₀) : (Head.receive c f x).r f₀ = v₀ := by
  unfold Head.receive
  extract_lets +onlyGivenNames -merge -useContext -lift x1
  extract_lets +onlyGivenNames -merge -useContext -lift x2
  extract_lets +onlyGivenNames -merge -useContext -lift x3
  extract_lets +onlyGivenNames -merge -useContext -lift x4
  extract_lets +onlyGivenNames -merge -useContext -lift x5
  have hx5 : x5.r f₀ = v₀ := by
    unfold x5
    apply Head.keep_flagIf (out_ne hf (by decide))
    apply Head.keep_flagIf (out_ne hf (by decide))
    exact hs
  extract_lets +onlyGivenNames -merge -useContext -lift x6
  have hx6 : x6.r f₀ = v₀ := by
    unfold x6
    apply Head.keep_foldl
    · exact hx5
    · intro _ _ hu7
      apply Head.badFrame_keep (out_mono hf (by decide))
      exact hu7
  extract_lets +onlyGivenNames -merge -useContext -lift x8
  extract_lets +onlyGivenNames -merge -useContext -lift x9
  have hx9 : x9.r f₀ = v₀ := by
    unfold x9
    apply Head.keep_record
    exact hx6
  apply Head.keep_ite
  · apply Head.badFrame_keep (out_mono hf (by decide))
    exact hx9
  · extract_lets +onlyGivenNames -merge -useContext -lift x10
    extract_lets +onlyGivenNames -merge -useContext -lift x11
    have hx11 : x11.r f₀ = v₀ := by
      unfold x11
      apply Head.keep_record
      exact hx9
    apply Head.goodFrame_keep (out_mono hf (by decide))
    apply Head.bufferFrame_keep (out_mono hf (by decide))
    exact hx11

theorem Head.safeRelease_keep (hf : outKeys [(266, 267)] f₀.key = true) (c : Ctx) {x : Head} (hs : x.r f₀ = v₀) : (Head.safeRelease c x).r f₀ = v₀ := by
  unfold Head.safeRelease
  apply Head.keep_ite
  · apply Head.issue_keep (out_mono hf (by decide))
    exact hs
  · apply Head.keep_flag (out_ne hf (by decide))
    exact hs

theorem Head.fwGo_keep (hf : outKeys [(267, 268), (1304, 1305)] f₀.key = true) (c : Ctx) {x : Head} (hs : x.r f₀ = v₀) : (Head.fwGo c x).r f₀ = v₀ := by
  unfold Head.fwGo
  extract_lets +onlyGivenNames -merge -useContext -lift x1
  apply Head.keep_ite
  · exact hs
  · apply Head.keep_ite
    · apply Head.keep_flag (out_ne hf (by decide))
      exact hs
    · apply Head.keep_ite
      · exact hs
      · extract_lets +onlyGivenNames -merge -useContext -lift x2
        extract_lets +onlyGivenNames -merge -useContext -lift y3_0 x3
        have hx3 : x3.r f₀ = v₀ := by
          unfold x3
          apply Head.keep_put (out_ne hf (by decide))
          apply Head.issue_keep (out_mono hf (by decide))
          exact hs
        apply Head.keep_ite
        · apply Head.stratMark_keep (out_mono hf (by decide))
          exact hx3
        · exact hx3

theorem Head.onStats_keep (hf : outKeys [] f₀.key = true) (k : Fin 33) (f : Mem → Mem) {x : Head} (hs : x.r f₀ = v₀) : (Head.onStats k f x).r f₀ = v₀ := by
  unfold Head.onStats
  apply Head.onBeam_keep (out_mono hf (by decide))
  exact hs

/-- What Head.gateOpens may write. -/
def Head.gateOpens_keys : List (Nat × Nat) :=
  [(8388632, 8388737), (8388742, 8388743), (8454168, 8454273), (8454278, 8454279), (8519704, 8519809), (8519814, 8519815), (8585240, 8585345), (8585350, 8585351), (8650776, 8650881), (8650886, 8650887), (8716312, 8716417), (8716422, 8716423), (8781848, 8781953), (8781958, 8781959), (8847384, 8847489), (8847494, 8847495), (8912920, 8913025), (8913030, 8913031), (8978456, 8978561), (8978566, 8978567), (9043992, 9044097), (9044102, 9044103), (9109528, 9109633), (9109638, 9109639), (9175064, 9175169), (9175174, 9175175), (9240600, 9240705), (9240710, 9240711), (9306136, 9306241), (9306246, 9306247), (9371672, 9371777), (9371782, 9371783), (9437208, 9437313), (9437318, 9437319), (9502744, 9502849), (9502854, 9502855), (9568280, 9568385), (9568390, 9568391), (9633816, 9633921), (9633926, 9633927), (9699352, 9699457), (9699462, 9699463), (9764888, 9764993), (9764998, 9764999), (9830424, 9830529), (9830534, 9830535), (9895960, 9896065), (9896070, 9896071), (9961496, 9961601), (9961606, 9961607), (10027032, 10027137), (10027142, 10027143), (10092568, 10092673), (10092678, 10092679), (10158104, 10158209), (10158214, 10158215), (10223640, 10223745), (10223750, 10223751), (10289176, 10289281), (10289286, 10289287), (10354712, 10354817), (10354822, 10354823), (10420248, 10420353), (10420358, 10420359), (10485784, 10485889), (10485894, 10485895), (11536257, 11536258), (11536656, 11536657)]

theorem Head.gateOpens_keep (hf : outKeys Head.gateOpens_keys f₀.key = true) (k : Fin 33) (i : ℕ) (t : ℤ) (ev : GateEv) (bad : Bool) {x : Head} (hs : x.r f₀ = v₀) : (Head.gateOpens k i t ev bad x).r f₀ = v₀ := by
  unfold Head.gateOpens
  extract_lets +onlyGivenNames -merge -useContext -lift x1
  extract_lets +onlyGivenNames -merge -useContext -lift x2
  have hx2 : x2.r f₀ = v₀ := by
    unfold x2
    apply Head.keep_ite
    · apply Head.onStats_keep (out_mono hf (by decide))
      apply Head.keep_flag (out_fin hf BeamReg.GATE_ORDER _ (by decide))
      apply Head.endFrame_keep (out_mono hf (by decide))
      exact hs
    · exact hs
  extract_lets +onlyGivenNames -merge -useContext -lift x3
  have hx3 : x3.r f₀ = v₀ := by
    unfold x3
    apply Head.onBeam_keep (out_mono hf (by decide))
    exact hx2
  extract_lets +onlyGivenNames -merge -useContext -lift x4
  have hx4 : x4.r f₀ = v₀ := by
    unfold x4
    apply Head.scorrTake_keep (out_mono hf (by decide))
    apply Head.keep_w (out_fin hf BeamReg.SECTOR _ (by decide))
    exact hx3
  extract_lets +onlyGivenNames -merge -useContext -lift x5
  extract_lets +onlyGivenNames -merge -useContext -lift x6
  extract_lets +onlyGivenNames -merge -useContext -lift x7
  extract_lets +onlyGivenNames -merge -useContext -lift x8
  extract_lets +onlyGivenNames -merge -useContext -lift x9
  have hx9 : x9.r f₀ = v₀ := by
    unfold x9
    apply Head.keep_ite
    · apply Head.keep_bump (out_ne hf (by decide))
      apply Head.keep_flag (out_ne hf (by decide))
      exact hx4
    · exact hx4
  extract_lets +onlyGivenNames -merge -useContext -lift x10
  extract_lets +onlyGivenNames -merge -useContext -lift x11
  extract_lets +onlyGivenNames -merge -useContext -lift x12
  extract_lets +onlyGivenNames -merge -useContext -lift x13
  extract_lets +onlyGivenNames -merge -useContext -lift x14
  apply Head.onBeam_keep (out_mono hf (by decide))
  exact hx9

theorem Head.ownDecode_keep (hf : outKeys [] f₀.key = true) (i : ℕ) (r : GroupRec) {x : Head} (hs : x.r f₀ = v₀) : (Head.ownDecode i r x).r f₀ = v₀ := by
  unfold Head.ownDecode
  split
  · exact hs
  · apply Head.keep_ite
    · apply Head.keep_record
      exact hs
    · exact hs

theorem Head.lateOwn_keep (hf : outKeys [] f₀.key = true) {x : Head} (hs : x.r f₀ = v₀) : (Head.lateOwn x).r f₀ = v₀ := by
  unfold Head.lateOwn
  split
  · exact hs
  · split
    · apply Head.ownDecode_keep (out_mono hf (by decide))
      exact hs
    · exact hs

/-- What Head.frameCloses may write. -/
def Head.frameCloses_keys : List (Nat × Nat) :=
  [(8388742, 8388743), (8454278, 8454279), (8519814, 8519815), (8585350, 8585351), (8650886, 8650887), (8716422, 8716423), (8781958, 8781959), (8847494, 8847495), (8913030, 8913031), (8978566, 8978567), (9044102, 9044103), (9109638, 9109639), (9175174, 9175175), (9240710, 9240711), (9306246, 9306247), (9371782, 9371783), (9437318, 9437319), (9502854, 9502855), (9568390, 9568391), (9633926, 9633927), (9699462, 9699463), (9764998, 9764999), (9830534, 9830535), (9896070, 9896071), (9961606, 9961607), (10027142, 10027143), (10092678, 10092679), (10158214, 10158215), (10223750, 10223751), (10289286, 10289287), (10354822, 10354823), (10420358, 10420359), (10485894, 10485895)]

theorem Head.frameCloses_keep (hf : outKeys Head.frameCloses_keys f₀.key = true) (k : Fin 33) (te : ℤ) {x : Head} (hs : x.r f₀ = v₀) : (Head.frameCloses k te x).r f₀ = v₀ := by
  unfold Head.frameCloses
  split
  · exact hs
  · extract_lets +onlyGivenNames -merge -useContext -lift x1
    extract_lets +onlyGivenNames -merge -useContext -lift x2
    apply Head.keep_ite
    · extract_lets +onlyGivenNames -merge -useContext -lift x3
      have hx3 : x3.r f₀ = v₀ := by
        unfold x3
        apply Head.unitRead_keep (out_mono hf (by decide))
        exact hs
      apply Head.endFrame_keep (out_mono hf (by decide))
      exact hx3
    · extract_lets +onlyGivenNames -merge -useContext -lift x4
      have hx4 : x4.r f₀ = v₀ := by
        unfold x4
        apply Head.onStats_keep (out_mono hf (by decide))
        exact hs
      extract_lets +onlyGivenNames -merge -useContext -lift x5
      have hx5 : x5.r f₀ = v₀ := by
        unfold x5
        apply Head.endFrame_keep (out_mono hf (by decide))
        exact hx4
      apply Head.keep_ite
      · extract_lets +onlyGivenNames -merge -useContext -lift x6
        have hx6 : x6.r f₀ = v₀ := by
          unfold x6
          apply Head.calFrame_keep (out_mono hf (by decide))
          exact hx5
        apply Head.keep_ite
        · apply Head.onWrite_keep (out_mono hf (by decide))
          exact hx6
        · exact hx6
      · apply Head.lateOwn_keep (out_mono hf (by decide))
        exact hx5

theorem Head.resyncExpect_keep (hf : outKeys [] f₀.key = true) (k : Fin 33) (j : ℕ) (te : ℤ) {x : Head} (hs : x.r f₀ = v₀) : (Head.resyncExpect k j te x).r f₀ = v₀ := by
  unfold Head.resyncExpect
  split
  · exact hs
  · extract_lets +onlyGivenNames -merge -useContext -lift x1
    have hx1 : x1.r f₀ = v₀ := by
      unfold x1
      apply Head.keep_ite
      · apply Head.onStats_keep (out_mono hf (by decide))
        exact hs
      · exact hs
    apply Head.onBeam_keep (out_mono hf (by decide))
    exact hx1

/-- What Head.gateEvents may write. -/
def Head.gateEvents_keys : List (Nat × Nat) :=
  [(8388632, 8388737), (8388742, 8388743), (8454168, 8454273), (8454278, 8454279), (8519704, 8519809), (8519814, 8519815), (8585240, 8585345), (8585350, 8585351), (8650776, 8650881), (8650886, 8650887), (8716312, 8716417), (8716422, 8716423), (8781848, 8781953), (8781958, 8781959), (8847384, 8847489), (8847494, 8847495), (8912920, 8913025), (8913030, 8913031), (8978456, 8978561), (8978566, 8978567), (9043992, 9044097), (9044102, 9044103), (9109528, 9109633), (9109638, 9109639), (9175064, 9175169), (9175174, 9175175), (9240600, 9240705), (9240710, 9240711), (9306136, 9306241), (9306246, 9306247), (9371672, 9371777), (9371782, 9371783), (9437208, 9437313), (9437318, 9437319), (9502744, 9502849), (9502854, 9502855), (9568280, 9568385), (9568390, 9568391), (9633816, 9633921), (9633926, 9633927), (9699352, 9699457), (9699462, 9699463), (9764888, 9764993), (9764998, 9764999), (9830424, 9830529), (9830534, 9830535), (9895960, 9896065), (9896070, 9896071), (9961496, 9961601), (9961606, 9961607), (10027032, 10027137), (10027142, 10027143), (10092568, 10092673), (10092678, 10092679), (10158104, 10158209), (10158214, 10158215), (10223640, 10223745), (10223750, 10223751), (10289176, 10289281), (10289286, 10289287), (10354712, 10354817), (10354822, 10354823), (10420248, 10420353), (10420358, 10420359), (10485784, 10485889), (10485894, 10485895), (11536257, 11536258), (11536656, 11536657)]

theorem Head.gateEvents_keep (hf : outKeys Head.gateEvents_keys f₀.key = true) (k : Fin 33) (i : ℕ) (t : ℤ) (bad : Bool) (ev : GateEv) {x : Head} (hs : x.r f₀ = v₀) : (Head.gateEvents k i t bad ev x).r f₀ = v₀ := by
  unfold Head.gateEvents
  split
  · apply Head.gateOpens_keep (out_mono hf (by decide))
    exact hs
  · apply Head.keep_ite
    · apply Head.frameCloses_keep (out_mono hf (by decide))
      exact hs
    · apply Head.onStats_keep (out_mono hf (by decide))
      apply Head.keep_flag (out_fin hf BeamReg.GATE_ORDER _ (by decide))
      exact hs
  · apply Head.resyncExpect_keep (out_mono hf (by decide))
    exact hs
  · apply Head.onBeam_keep (out_mono hf (by decide))
    exact hs
  · apply Head.onBeam_keep (out_mono hf (by decide))
    exact hs
  · exact hs

/-- What Head.holdCount may write. -/
def Head.holdCount_keys : List (Nat × Nat) :=
  [(2105344, 2105345), (2105352, 2105363), (2105735, 2105736), (2105984, 2105985), (2106246, 2106247), (2113792, 2113793), (2113803, 2113804), (2113920, 2113921), (2113932, 2113933), (2118528, 2118545), (6291968, 6291972), (6291979, 6292097), (6292103, 6292105), (6294016, 6294145), (6300160, 6300164), (6300171, 6300289), (6300295, 6300297), (6302208, 6302337), (11536264, 11536265), (12583040, 12583041), (12583169, 12583170), (14680074, 14680193), (14680320, 14680322)]

theorem Head.holdCount_keep (hf : outKeys Head.holdCount_keys f₀.key = true) (c : Ctx) {x : Head} (hs : x.r f₀ = v₀) : (Head.holdCount c x).r f₀ = v₀ := by
  unfold Head.holdCount
  extract_lets +onlyGivenNames -merge -useContext -lift x1
  extract_lets +onlyGivenNames -merge -useContext -lift x2
  apply Head.keep_ite
  · apply Head.keep_ite
    · apply Head.refresh_keep (out_mono hf (by decide))
      apply Head.keep_record
      exact hs
    · exact hs
  · apply Head.keep_ite
    · extract_lets +onlyGivenNames -merge -useContext -lift x3
      have hx3 : x3.r f₀ = v₀ := by
        unfold x3
        apply Head.keep_flagIf (out_ne hf (by decide))
        exact hs
      apply Head.refresh_keep (out_mono hf (by decide))
      apply Head.keep_record
      exact hx3
    · apply Head.keep_ite
      · apply Head.keep_record
        exact hs
      · exact hs

theorem Head.slotsTo_keep (hf : outKeys [] f₀.key = true) (l : List TrackEnd) (st : ℕ) {x : Head} (hs : x.r f₀ = v₀) : (Head.slotsTo l st x).r f₀ = v₀ := by
  unfold Head.slotsTo
  apply Head.keep_foldl
  · exact hs
  · intro _ _ hu1
    split
    · exact hu1
    · apply Head.keep_ite
      · apply Head.onBeam_keep (out_mono hf (by decide))
        exact hu1
      · exact hu1

theorem Head.countResult_keep (hf : outKeys [(11536384, 11536529), (11536768, 11536785)] f₀.key = true) (code : ℕ) {x : Head} (hs : x.r f₀ = v₀) : (Head.countResult code x).r f₀ = v₀ := by
  unfold Head.countResult
  split
  · apply Head.keep_bump (out_ne hf (by decide))
    exact hs
  · apply Head.keep_bump (out_ne hf (by decide))
    exact hs
  · apply Head.keep_bump (out_ne hf (by decide))
    exact hs
  · apply Head.keep_bump (out_ne hf (by decide))
    exact hs
  · apply Head.keep_bump (out_ne hf (by decide))
    exact hs
  · apply Head.keep_bump (out_ne hf (by decide))
    exact hs
  · apply Head.keep_bump (out_ne hf (by decide))
    exact hs
  · exact hs

theorem Head.orderEnd_keep (hf : outKeys [(11536026, 11536145), (11536261, 11536262)] f₀.key = true) (status : ℕ) (failed : ℕ) {x : Head} (hs : x.r f₀ = v₀) : (Head.orderEnd status failed x).r f₀ = v₀ := by
  unfold Head.orderEnd
  split
  · exact hs
  · extract_lets +onlyGivenNames -merge -useContext -lift x1
    have hx1 : x1.r f₀ = v₀ := by
      unfold x1
      apply Head.keep_ite
      · apply Head.slotsTo_keep (out_mono hf (by decide))
        exact hs
      · exact hs
    extract_lets +onlyGivenNames -merge -useContext -lift x2
    have hx2 : x2.r f₀ = v₀ := by
      unfold x2
      apply Head.keep_w (out_ne hf (by decide))
      apply Head.keep_w (out_ne hf (by decide))
      apply Head.keep_w (out_ne hf (by decide))
      exact hx1
    extract_lets +onlyGivenNames -merge -useContext -lift x3
    have hx3 : x3.r f₀ = v₀ := by
      unfold x3
      apply Head.keep_put (out_ne hf (by decide))
      apply Head.keep_flag (out_ne hf (by decide))
      apply Head.keep_w (out_ne hf (by decide))
      exact hx2
    apply Head.keep_record
    exact hx3

theorem Head.retryGo_keep (hf : outKeys [(11536026, 11536145), (11536261, 11536263)] f₀.key = true) {x : Head} (hs : x.r f₀ = v₀) : (Head.retryGo x).r f₀ = v₀ := by
  unfold Head.retryGo
  apply Head.keep_ite
  · apply Head.keep_flag (out_ne hf (by decide))
    exact hs
  · extract_lets +onlyGivenNames -merge -useContext -lift x1
    extract_lets +onlyGivenNames -merge -useContext -lift x2
    extract_lets +onlyGivenNames -merge -useContext -lift x3
    have hx3 : x3.r f₀ = v₀ := by
      unfold x3
      apply Head.keep_put (out_ne hf (by decide))
      exact hs
    extract_lets +onlyGivenNames -merge -useContext -lift x4
    extract_lets +onlyGivenNames -merge -useContext -lift x5
    have hx5 : x5.r f₀ = v₀ := by
      unfold x5
      apply Head.keep_record
      exact hx3
    apply Head.keep_ite
    · apply Head.orderEnd_keep (out_mono hf (by decide))
      exact hx5
    · exact hx5

theorem Head.releaseSlots_keep (hf : outKeys [] f₀.key = true) {x : Head} (hs : x.r f₀ = v₀) : (Head.releaseSlots x).r f₀ = v₀ := by
  unfold Head.releaseSlots
  extract_lets +onlyGivenNames -merge -useContext -lift x1
  extract_lets +onlyGivenNames -merge -useContext -lift x2
  apply Head.keep_foldl
  · exact hs
  · intro _ _ hu3
    apply Head.onBeam_keep (out_mono hf (by decide))
    exact hu3

theorem Head.clearStats_keep (hf : outKeys [] f₀.key = true) (k : Fin 33) {x : Head} (hs : x.r f₀ = v₀) : (Head.clearStats k x).r f₀ = v₀ := by
  unfold Head.clearStats
  apply Head.onStats_keep (out_mono hf (by decide))
  exact hs



/-- What Head.wake may write. -/
def Head.wake_keys : List (Nat × Nat) :=
  [(2105344, 2105345), (2107392, 2107393), (2107520, 2107521), (2107648, 2107649), (2107776, 2107777), (2107904, 2107905), (2108032, 2108033), (2108160, 2108161), (2108288, 2108289), (2108416, 2108417), (2108544, 2108545), (2108672, 2108673), (2108800, 2108801), (2108928, 2108929), (2109056, 2109057), (2109184, 2109185), (2109312, 2109313), (2109440, 2109441), (2109568, 2109569), (2109696, 2109697), (2109824, 2109825), (2109952, 2109953), (2110080, 2110081), (2110208, 2110209), (2110336, 2110337), (2110464, 2113409), (4194432, 4194433), (4194436, 4194437), (4194560, 4194561), (6291968, 6291972), (6291979, 6292097), (6292103, 6292105), (6294016, 6294145), (6300160, 6300164), (6300171, 6300289), (6300295, 6300297), (6302208, 6302337)]

theorem Head.wake_keep (hf : outKeys Head.wake_keys f₀.key = true) {x : Head} (hs : x.r f₀ = v₀) : (Head.wake x).r f₀ = v₀ := by
  unfold Head.wake
  extract_lets +onlyGivenNames -merge -useContext -lift x1
  have hx1 : x1.r f₀ = v₀ := by
    unfold x1
    apply Head.keep_record
    exact hs
  extract_lets +onlyGivenNames -merge -useContext -lift x2
  have hx2 : x2.r f₀ = v₀ := by
    unfold x2
    apply Head.chopOn_keep (out_mono hf (by decide))
    apply Head.keep_w (out_ne hf (by decide))
    exact hx1
  apply Head.refreshHeld_keep (out_mono hf (by decide))
  apply Head.keep_ite
  · exact hx2
  · apply Head.spinTo_keep (out_mono hf (by decide))
    exact hx2

/-- What Head.withTable may write. -/
def Head.withTable_keys : List (Nat × Nat) :=
  [(2105344, 2105345), (2105354, 2105359), (2105735, 2105736), (2105984, 2105985)]

theorem Head.withTable_keep (hf : outKeys Head.withTable_keys f₀.key = true) (sp : ℕ) (m : Mem) {x : Head} (hs : x.r f₀ = v₀) : (Head.withTable sp m x).r f₀ = v₀ := by
  unfold Head.withTable
  split
  · apply Head.keep_record
    exact hs
  · apply Head.keep_record
    exact hs
  · apply Head.keep_record
    exact hs
  · apply Head.keep_record
    exact hs
  · apply Head.keep_record
    exact hs
  · apply Head.keep_record
    exact hs
  · apply Head.keep_record
    exact hs
  · apply Head.keep_record
    exact hs
  · apply Head.keep_record
    exact hs
  · apply Head.refreshBank_keep (out_mono hf (by decide))
    apply Head.keep_record
    exact hs
  · apply Head.keep_record
    exact hs
  · exact hs

theorem Head.beforeWrite_keep (hf : outKeys [] f₀.key = true) (off : ℕ) {x : Head} (hs : x.r f₀ = v₀) : (Head.beforeWrite off x).r f₀ = v₀ := by
  unfold Head.beforeWrite
  apply Head.keep_ite
  · apply Head.scorrHold_keep (out_mono hf (by decide))
    exact hs
  · exact hs

theorem Head.ringPending_keep (hf : outKeys [(11536263, 11536264)] f₀.key = true) {x : Head} (hs : x.r f₀ = v₀) : (Head.ringPending x).r f₀ = v₀ := by
  unfold Head.ringPending
  extract_lets +onlyGivenNames -merge -useContext -lift x1
  apply Head.keep_flagIf (out_ne hf (by decide))
  exact hs

theorem Head.temperature_keep (hf : outKeys [(14680323, 14680324), (14680704, 14680705)] f₀.key = true) {x : Head} (hs : x.r f₀ = v₀) : (Head.temperature x).r f₀ = v₀ := by
  unfold Head.temperature
  apply Head.keep_ite
  · apply Head.takeTemp_keep (out_mono hf (by decide))
    exact hs
  · exact hs

/-- What Head.writeAct may write. -/
def Head.writeAct_keys : List (Nat × Nat) :=
  [(267, 268), (1304, 1305), (2097282, 2097283), (2097408, 2097409), (2098051, 2098052), (2098054, 2098177), (2098438, 2098439), (2098440, 2098449), (2098566, 2105345), (2105352, 2105363), (2105735, 2105736), (2105984, 2105985), (2106246, 2106247), (2107392, 2107393), (2107520, 2107521), (2107648, 2107649), (2107776, 2107777), (2107904, 2107905), (2108032, 2108033), (2108160, 2108161), (2108288, 2108289), (2108416, 2108417), (2108544, 2108545), (2108672, 2108673), (2108800, 2108801), (2108928, 2108929), (2109056, 2109057), (2109184, 2109185), (2109312, 2109313), (2109440, 2109441), (2109568, 2109569), (2109696, 2109697), (2109824, 2109825), (2109952, 2109953), (2110080, 2110081), (2110208, 2110209), (2110336, 2110337), (2110464, 2113409), (2113792, 2113804), (2113808, 2113814), (2113920, 2113924), (2113932, 2113934), (2116864, 2116865), (2118528, 2118545), (4194432, 4194433), (4194436, 4194437), (4194440, 4194442), (4194444, 4194563), (4194575, 4194576), (4194578, 4194579), (4195200, 4195201), (4198544, 4198545), (6291968, 6291975), (6291979, 6292097), (6292103, 6292106), (6294016, 6294145), (6294528, 6294785), (6300160, 6300167), (6300171, 6300289), (6300295, 6300298), (6302208, 6302337), (6302720, 6302977), (8388742, 8388743), (8454278, 8454279), (8519814, 8519815), (8585350, 8585351), (8650886, 8650887), (8716422, 8716423), (8781958, 8781959), (8847494, 8847495), (8913030, 8913031), (8978566, 8978567), (9044102, 9044103), (9109638, 9109639), (9175174, 9175175), (9240710, 9240711), (9306246, 9306247), (9371782, 9371783), (9437318, 9437319), (9502854, 9502855), (9568390, 9568391), (9633926, 9633927), (9699462, 9699463), (9764998, 9764999), (9830534, 9830535), (9896070, 9896071), (9961606, 9961607), (10027142, 10027143), (10092678, 10092679), (10158214, 10158215), (10223750, 10223751), (10289286, 10289287), (10354822, 10354823), (10420358, 10420359), (10485894, 10485895), (11534864, 11534865), (11536026, 11536145), (11536261, 11536265), (12583040, 12583041), (12583169, 12583170), (14680074, 14680201), (14680320, 14680322), (14680323, 14680324), (14680704, 14680705)]

theorem Head.writeAct_keep (hf : outKeys Head.writeAct_keys f₀.key = true) (c : Ctx) (off : ℕ) (v : ℕ) {x : Head} (hs : x.r f₀ = v₀) : (Head.writeAct c off v x).r f₀ = v₀ := by
  unfold Head.writeAct
  apply Head.keep_ite
  · apply Head.keep_ite
    · apply Head.fwGo_keep (out_mono hf (by decide))
      exact hs
    · exact hs
  · apply Head.keep_ite
    · apply Head.keep_ite
      · apply Head.alignWrite_keep (out_mono hf (by decide))
        exact hs
      · exact hs
    · apply Head.keep_ite
      · apply Head.discOffsetWrite_keep (out_mono hf (by decide))
        exact hs
      · apply Head.keep_ite
        · extract_lets +onlyGivenNames -merge -useContext -lift x1
          have hx1 : x1.r f₀ = v₀ := by
            unfold x1
            apply Head.slot0Write_keep (out_mono hf (by decide))
            exact hs
          extract_lets +onlyGivenNames -merge -useContext -lift x2
          have hx2 : x2.r f₀ = v₀ := by
            unfold x2
            apply Head.keep_ite
            · apply Head.startWrite_keep (out_mono hf (by decide))
              exact hx1
            · exact hx1
          apply Head.keep_ite
          · apply Head.stopWrite_keep (out_mono hf (by decide))
            exact hx2
          · exact hx2
        · apply Head.keep_ite
          · apply Head.keep_record
            exact hs
          · apply Head.keep_ite
            · apply Head.keep_ite
              · apply Head.spareArm_keep (out_mono hf (by decide))
                exact hs
              · exact hs
            · apply Head.keep_ite
              · apply Head.refreshBank_keep (out_mono hf (by decide))
                exact hs
              · apply Head.keep_ite
                · extract_lets +onlyGivenNames -merge -useContext -lift x3
                  extract_lets +onlyGivenNames -merge -useContext -lift x4
                  have hx4 : x4.r f₀ = v₀ := by
                    unfold x4
                    apply Head.keep_ite
                    · apply Head.loopZero_keep (out_mono hf (by decide))
                      exact hs
                    · exact hs
                  apply Head.keep_ite
                  · apply Head.loopClrStats_keep (out_mono hf (by decide))
                    exact hx4
                  · exact hx4
                · apply Head.keep_ite
                  · apply Head.selectRef_keep (out_mono hf (by decide))
                    exact hs
                  · apply Head.keep_ite
                    · apply Head.hcmd_keep (out_mono hf (by decide))
                      exact hs
                    · apply Head.keep_ite
                      · apply Head.refresh_keep (out_mono hf (by decide))
                        exact hs
                      · apply Head.keep_ite
                        · apply Head.scmd_keep (out_mono hf (by decide))
                          exact hs
                        · apply Head.keep_ite
                          · apply Head.keep_ite
                            · apply Head.chopSilentClear_keep (out_mono hf (by decide))
                              exact hs
                            · exact hs
                          · apply Head.keep_ite
                            · apply Head.mcmd_keep (out_mono hf (by decide))
                              exact hs
                            · apply Head.keep_ite
                              · apply Head.mcmd_keep (out_mono hf (by decide))
                                exact hs
                              · apply Head.keep_ite
                                · apply Head.keep_ite
                                  · apply Head.clearStats_keep (out_mono hf (by decide))
                                    exact hs
                                  · exact hs
                                · apply Head.keep_ite
                                  · apply Head.ringPending_keep (out_mono hf (by decide))
                                    exact hs
                                  · apply Head.keep_ite
                                    · apply Head.ringPending_keep (out_mono hf (by decide))
                                      apply Head.keep_w (out_ne hf (by decide))
                                      exact hs
                                    · apply Head.keep_ite
                                      · apply Head.holdCount_keep (out_mono hf (by decide))
                                        exact hs
                                      · apply Head.keep_ite
                                        · extract_lets +onlyGivenNames -merge -useContext -lift x5
                                          have hx5 : x5.r f₀ = v₀ := by
                                            unfold x5
                                            apply Head.keep_ite
                                            · apply Head.retryGo_keep (out_mono hf (by decide))
                                              exact hs
                                            · exact hs
                                          apply Head.keep_ite
                                          · apply Head.releaseSlots_keep (out_mono hf (by decide))
                                            exact hx5
                                          · exact hx5
                                        · apply Head.keep_ite
                                          · apply Head.keep_ite
                                            · apply Head.writeAbortCmd_keep (out_mono hf (by decide))
                                              exact hs
                                            · exact hs
                                          · apply Head.keep_ite
                                            · apply Head.keep_ite
                                              · apply Head.stratGo_keep (out_mono hf (by decide))
                                                exact hs
                                              · exact hs
                                            · apply Head.keep_ite
                                              · extract_lets +onlyGivenNames -merge -useContext -lift x6
                                                have hx6 : x6.r f₀ = v₀ := by
                                                  unfold x6
                                                  apply Head.keep_ite
                                                  · apply Head.calCancel_keep (out_mono hf (by decide))
                                                    exact hs
                                                  · exact hs
                                                apply Head.keep_ite
                                                · apply Head.calArm_keep (out_mono hf (by decide))
                                                  exact hx6
                                                · exact hx6
                                              · apply Head.keep_ite
                                                · apply Head.temperature_keep (out_mono hf (by decide))
                                                  exact hs
                                                · exact hs

/-- What Head.loadImage may write. -/
def Head.loadImage_keys : List (Nat × Nat) :=
  [(2105344, 2105345), (2105354, 2105359), (2105735, 2105736), (2105984, 2105985)]

theorem Head.loadImage_keep (hf : outKeys Head.loadImage_keys f₀.key = true) (id : ℕ) (l : List Sys2Proof.Byte) {x : Head} (hs : x.r f₀ = v₀) : (Head.loadImage id l x).r f₀ = v₀ := by
  unfold Head.loadImage
  split
  · apply Head.keep_record
    exact hs
  · apply Head.keep_record
    exact hs
  · apply Head.keep_record
    exact hs
  · apply Head.refreshBank_keep (out_mono hf (by decide))
    apply Head.keep_record
    exact hs
  · apply Head.keep_record
    exact hs
  · exact hs

/-- What Head.holdover may write. -/
def Head.holdover_keys : List (Nat × Nat) :=
  [(2097178, 2097179), (2098049, 2098050), (2105344, 2105345), (2105352, 2105359), (2105735, 2105736), (2105984, 2105985), (2113792, 2113793), (2113803, 2113804), (2113920, 2113921), (2113932, 2113933), (2118544, 2118545), (12583040, 12583041), (12583169, 12583170)]

theorem Head.holdover_keep (hf : outKeys Head.holdover_keys f₀.key = true) (c : Ctx) {x : Head} (hs : x.r f₀ = v₀) : (Head.holdover c x).r f₀ = v₀ := by
  unfold Head.holdover
  extract_lets +onlyGivenNames -merge -useContext -lift x1
  have hx1 : x1.r f₀ = v₀ := by
    unfold x1
    apply Head.keep_flag (out_ne hf (by decide))
    apply Head.keep_put (out_ne hf (by decide))
    exact hs
  extract_lets +onlyGivenNames -merge -useContext -lift y2_0 x2
  have hx2 : x2.r f₀ = v₀ := by
    unfold x2
    apply Head.keep_record
    exact hx1
  apply Head.refreshInhibit_keep (out_mono hf (by decide))
  apply Head.writeAbort_keep (out_mono hf (by decide))
  exact hx2

/-- What Head.angleLost may write. -/
def Head.angleLost_keys : List (Nat × Nat) :=
  [(2097176, 2097177), (2097178, 2097179), (2098050, 2098051), (2098438, 2098439), (2098440, 2098441), (2105344, 2105345), (2105352, 2105363), (2105735, 2105736), (2105984, 2105985), (2106246, 2106247), (2107392, 2107393), (2107520, 2107521), (2107648, 2107649), (2107776, 2107777), (2107904, 2107905), (2108032, 2108033), (2108160, 2108161), (2108288, 2108289), (2108416, 2108417), (2108544, 2108545), (2108672, 2108673), (2108800, 2108801), (2108928, 2108929), (2109056, 2109057), (2109184, 2109185), (2109312, 2109313), (2109440, 2109441), (2109568, 2109569), (2109696, 2109697), (2109824, 2109825), (2109952, 2109953), (2110080, 2110081), (2110208, 2110209), (2110336, 2110337), (2110464, 2113409), (2113792, 2113804), (2113808, 2113814), (2113920, 2113923), (2113932, 2113933), (2118528, 2118545), (4194432, 4194433), (4194436, 4194437), (4194441, 4194442), (4194444, 4194561), (4194562, 4194563), (6291968, 6291972), (6291979, 6292097), (6292103, 6292105), (6294016, 6294145), (6300160, 6300164), (6300171, 6300289), (6300295, 6300297), (6302208, 6302337), (8388742, 8388743), (8454278, 8454279), (8519814, 8519815), (8585350, 8585351), (8650886, 8650887), (8716422, 8716423), (8781958, 8781959), (8847494, 8847495), (8913030, 8913031), (8978566, 8978567), (9044102, 9044103), (9109638, 9109639), (9175174, 9175175), (9240710, 9240711), (9306246, 9306247), (9371782, 9371783), (9437318, 9437319), (9502854, 9502855), (9568390, 9568391), (9633926, 9633927), (9699462, 9699463), (9764998, 9764999), (9830534, 9830535), (9896070, 9896071), (9961606, 9961607), (10027142, 10027143), (10092678, 10092679), (10158214, 10158215), (10223750, 10223751), (10289286, 10289287), (10354822, 10354823), (10420358, 10420359), (10485894, 10485895), (12583040, 12583041), (12583169, 12583170), (14680074, 14680193), (14680320, 14680322)]

theorem Head.angleLost_keep (hf : outKeys Head.angleLost_keys f₀.key = true) (c : Ctx) {x : Head} (hs : x.r f₀ = v₀) : (Head.angleLost c x).r f₀ = v₀ := by
  unfold Head.angleLost
  extract_lets +onlyGivenNames -merge -useContext -lift x1
  have hx1 : x1.r f₀ = v₀ := by
    unfold x1
    apply Head.keep_flag (out_ne hf (by decide))
    apply Head.keep_put (out_ne hf (by decide))
    apply Head.keep_put (out_ne hf (by decide))
    exact hs
  extract_lets +onlyGivenNames -merge -useContext -lift x2
  have hx2 : x2.r f₀ = v₀ := by
    unfold x2
    apply Head.onSlotOf_keep (out_mono hf (by decide))
    exact hx1
  extract_lets +onlyGivenNames -merge -useContext -lift x3
  extract_lets +onlyGivenNames -merge -useContext -lift x4
  have hx4 : x4.r f₀ = v₀ := by
    unfold x4
    apply Head.keep_record
    exact hx2
  extract_lets +onlyGivenNames -merge -useContext -lift x5
  have hx5 : x5.r f₀ = v₀ := by
    unfold x5
    apply Head.abortFrames_keep (out_mono hf (by decide))
    apply Head.slot1Stopped_keep (out_mono hf (by decide))
    exact hx4
  apply Head.keep_ite
  · apply Head.toFocus_keep (out_mono hf (by decide))
    exact hx5
  · apply Head.refresh_keep (out_mono hf (by decide))
    exact hx5

/-- What Head.gateEvent may write. -/
def Head.gateEvent_keys : List (Nat × Nat) :=
  [(8388737, 8388738), (8388742, 8388743), (8454273, 8454274), (8454278, 8454279), (8519809, 8519810), (8519814, 8519815), (8585345, 8585346), (8585350, 8585351), (8650881, 8650882), (8650886, 8650887), (8716417, 8716418), (8716422, 8716423), (8781953, 8781954), (8781958, 8781959), (8847489, 8847490), (8847494, 8847495), (8913025, 8913026), (8913030, 8913031), (8978561, 8978562), (8978566, 8978567), (9044097, 9044098), (9044102, 9044103), (9109633, 9109634), (9109638, 9109639), (9175169, 9175170), (9175174, 9175175), (9240705, 9240706), (9240710, 9240711), (9306241, 9306242), (9306246, 9306247), (9371777, 9371778), (9371782, 9371783), (9437313, 9437314), (9437318, 9437319), (9502849, 9502850), (9502854, 9502855), (9568385, 9568386), (9568390, 9568391), (9633921, 9633922), (9633926, 9633927), (9699457, 9699458), (9699462, 9699463), (9764993, 9764994), (9764998, 9764999), (9830529, 9830530), (9830534, 9830535), (9896065, 9896066), (9896070, 9896071), (9961601, 9961602), (9961606, 9961607), (10027137, 10027138), (10027142, 10027143), (10092673, 10092674), (10092678, 10092679), (10158209, 10158210), (10158214, 10158215), (10223745, 10223746), (10223750, 10223751), (10289281, 10289282), (10289286, 10289287), (10354817, 10354818), (10354822, 10354823), (10420353, 10420354), (10420358, 10420359), (10485889, 10485890), (10485894, 10485895)]

theorem Head.gateEvent_keep (hf : outKeys Head.gateEvent_keys f₀.key = true) (c : Ctx) (i : Fin 33) (f : Fire) {x : Head} (hs : x.r f₀ = v₀) : (Head.gateEvent c i f x).r f₀ = v₀ := by
  unfold Head.gateEvent
  apply Head.keep_ite
  · apply Head.onBeam_keep (out_mono hf (by decide))
    exact hs
  · apply Head.endFrame_keep (out_mono hf (by decide))
    apply Head.keep_flag (out_fin hf BeamReg.EVENT_OVF _ (by decide))
    exact hs

/-- What Head.beamEvent may write. -/
def Head.beamEvent_keys : List (Nat × Nat) :=
  [(8388737, 8388738), (8388742, 8388743), (8454273, 8454274), (8454278, 8454279), (8519809, 8519810), (8519814, 8519815), (8585345, 8585346), (8585350, 8585351), (8650881, 8650882), (8650886, 8650887), (8716417, 8716418), (8716422, 8716423), (8781953, 8781954), (8781958, 8781959), (8847489, 8847490), (8847494, 8847495), (8913025, 8913026), (8913030, 8913031), (8978561, 8978562), (8978566, 8978567), (9044097, 9044098), (9044102, 9044103), (9109633, 9109634), (9109638, 9109639), (9175169, 9175170), (9175174, 9175175), (9240705, 9240706), (9240710, 9240711), (9306241, 9306242), (9306246, 9306247), (9371777, 9371778), (9371782, 9371783), (9437313, 9437314), (9437318, 9437319), (9502849, 9502850), (9502854, 9502855), (9568385, 9568386), (9568390, 9568391), (9633921, 9633922), (9633926, 9633927), (9699457, 9699458), (9699462, 9699463), (9764993, 9764994), (9764998, 9764999), (9830529, 9830530), (9830534, 9830535), (9896065, 9896066), (9896070, 9896071), (9961601, 9961602), (9961606, 9961607), (10027137, 10027138), (10027142, 10027143), (10092673, 10092674), (10092678, 10092679), (10158209, 10158210), (10158214, 10158215), (10223745, 10223746), (10223750, 10223751), (10289281, 10289282), (10289286, 10289287), (10354817, 10354818), (10354822, 10354823), (10420353, 10420354), (10420358, 10420359), (10485889, 10485890), (10485894, 10485895)]

theorem Head.beamEvent_keep (hf : outKeys Head.beamEvent_keys f₀.key = true) (c : Ctx) (f : Fire) {x : Head} (hs : x.r f₀ = v₀) : (Head.beamEvent c f x).r f₀ = v₀ := by
  unfold Head.beamEvent
  apply Head.keep_ite
  · apply Head.gateEvent_keep (out_mono hf (by decide))
    exact hs
  · apply Head.keep_foldl
    · exact hs
    · intro _ _ hu1
      apply Head.gateEvent_keep (out_mono hf (by decide))
      exact hu1

/-- What Head.zoneEvent may write. -/
def Head.zoneEvent_keys : List (Nat × Nat) :=
  [(2105344, 2105345), (2105354, 2105359), (2105735, 2105736), (2105984, 2105985), (8388737, 8388738), (8388742, 8388743), (8454273, 8454274), (8454278, 8454279), (8519809, 8519810), (8519814, 8519815), (8585345, 8585346), (8585350, 8585351), (8650881, 8650882), (8650886, 8650887), (8716417, 8716418), (8716422, 8716423), (8781953, 8781954), (8781958, 8781959), (8847489, 8847490), (8847494, 8847495), (8913025, 8913026), (8913030, 8913031), (8978561, 8978562), (8978566, 8978567), (9044097, 9044098), (9044102, 9044103), (9109633, 9109634), (9109638, 9109639), (9175169, 9175170), (9175174, 9175175), (9240705, 9240706), (9240710, 9240711), (9306241, 9306242), (9306246, 9306247), (9371777, 9371778), (9371782, 9371783), (9437313, 9437314), (9437318, 9437319), (9502849, 9502850), (9502854, 9502855), (9568385, 9568386), (9568390, 9568391), (9633921, 9633922), (9633926, 9633927), (9699457, 9699458), (9699462, 9699463), (9764993, 9764994), (9764998, 9764999), (9830529, 9830530), (9830534, 9830535), (9896065, 9896066), (9896070, 9896071), (9961601, 9961602), (9961606, 9961607), (10027137, 10027138), (10027142, 10027143), (10092673, 10092674), (10092678, 10092679), (10158209, 10158210), (10158214, 10158215), (10223745, 10223746), (10223750, 10223751), (10289281, 10289282), (10289286, 10289287), (10354817, 10354818), (10354822, 10354823), (10420353, 10420354), (10420358, 10420359), (10485889, 10485890), (10485894, 10485895)]

theorem Head.zoneEvent_keep (hf : outKeys Head.zoneEvent_keys f₀.key = true) (c : Ctx) (f : Fire) {x : Head} (hs : x.r f₀ = v₀) : (Head.zoneEvent c f x).r f₀ = v₀ := by
  unfold Head.zoneEvent
  extract_lets +onlyGivenNames -merge -useContext -lift x1
  have hx1 : x1.r f₀ = v₀ := by
    unfold x1
    apply Head.beamEvent_keep (out_mono hf (by decide))
    exact hs
  extract_lets +onlyGivenNames -merge -useContext -lift x2
  extract_lets +onlyGivenNames -merge -useContext -lift x3
  have hx3 : x3.r f₀ = v₀ := by
    unfold x3
    apply Head.keep_record
    exact hx1
  apply Head.keep_ite
  · apply Head.sampleBanks_keep (out_mono hf (by decide))
    apply Head.refreshBank_keep (out_mono hf (by decide))
    apply Head.keep_record
    exact hx3
  · exact hx3

theorem Head.revCheck_keep (hf : outKeys [(2098051, 2098052), (2098176, 2098177)] f₀.key = true) (f : Fire) {x : Head} (hs : x.r f₀ = v₀) : (Head.revCheck f x).r f₀ = v₀ := by
  unfold Head.revCheck
  extract_lets +onlyGivenNames -merge -useContext -lift x1
  extract_lets +onlyGivenNames -merge -useContext -lift x2
  extract_lets +onlyGivenNames -merge -useContext -lift x3
  apply Head.keep_ite
  · exact hs
  · apply Head.skip_keep (out_mono hf (by decide))
    exact hs

/-- What Head.endEntry may write. -/
def Head.endEntry_keys : List (Nat × Nat) :=
  [(2098438, 2098439), (2098440, 2098441), (2105344, 2105345), (2105352, 2105363), (2105735, 2105736), (2105984, 2105985), (2106246, 2106247), (2107392, 2107393), (2107520, 2107521), (2107648, 2107649), (2107776, 2107777), (2107904, 2107905), (2108032, 2108033), (2108160, 2108161), (2108288, 2108289), (2108416, 2108417), (2108544, 2108545), (2108672, 2108673), (2108800, 2108801), (2108928, 2108929), (2109056, 2109057), (2109184, 2109185), (2109312, 2109313), (2109440, 2109441), (2109568, 2109569), (2109696, 2109697), (2109824, 2109825), (2109952, 2109953), (2110080, 2110081), (2110208, 2110209), (2110336, 2110337), (2110464, 2113409), (2113792, 2113793), (2113803, 2113804), (2113920, 2113921), (2113932, 2113933), (2118528, 2118545), (4194432, 4194433), (4194436, 4194437), (4194441, 4194442), (4194444, 4194561), (4194562, 4194563), (6291968, 6291972), (6291979, 6292097), (6292103, 6292105), (6294016, 6294145), (6300160, 6300164), (6300171, 6300289), (6300295, 6300297), (6302208, 6302337), (8388742, 8388743), (8454278, 8454279), (8519814, 8519815), (8585350, 8585351), (8650886, 8650887), (8716422, 8716423), (8781958, 8781959), (8847494, 8847495), (8913030, 8913031), (8978566, 8978567), (9044102, 9044103), (9109638, 9109639), (9175174, 9175175), (9240710, 9240711), (9306246, 9306247), (9371782, 9371783), (9437318, 9437319), (9502854, 9502855), (9568390, 9568391), (9633926, 9633927), (9699462, 9699463), (9764998, 9764999), (9830534, 9830535), (9896070, 9896071), (9961606, 9961607), (10027142, 10027143), (10092678, 10092679), (10158214, 10158215), (10223750, 10223751), (10289286, 10289287), (10354822, 10354823), (10420358, 10420359), (10485894, 10485895), (12583040, 12583041), (12583169, 12583170), (14680074, 14680193), (14680320, 14680322)]

theorem Head.endEntry_keep (hf : outKeys Head.endEntry_keys f₀.key = true) (c : Ctx) (f : Fire) {x : Head} (hs : x.r f₀ = v₀) : (Head.endEntry c f x).r f₀ = v₀ := by
  unfold Head.endEntry
  apply Head.keep_ite
  · apply Head.onSlotOf_keep (out_mono hf (by decide))
    exact hs
  · apply Head.keep_ite
    · apply Head.keep_record
      exact hs
    · apply Head.slot1Stopped_keep (out_mono hf (by decide))
      exact hs

end Sys2Proof.Machine
end

