-- ==== Sys2Proof/Laws/Hstate.lean ====
section
/-! SUPPORT. The operations that follow a change of a head leave HSTATE as it is, unless it is WRITE (R217): what ends a
write phase takes a head in WRITE back to READ. -/

namespace Sys2Proof.Machine

variable {v₀ : Nat} {x : Head}

theorem Head.leaveWrite_hstate (hv : v₀ ≠ 8) (hs : x.r LandReg.HSTATE = v₀) : x.leaveWrite.r LandReg.HSTATE = v₀ := by
  unfold Head.leaveWrite
  rw [if_neg (by rw [hs]; exact hv)]
  exact hs

theorem Head.writeSettle_hstate (hv : v₀ ≠ 8) (c : Ctx) (hs : x.r LandReg.HSTATE = v₀) :
    (x.writeSettle c).r LandReg.HSTATE = v₀ := by
  unfold Head.writeSettle
  split
  · exact hs
  · refine Head.keep_ite hs ?_
    extract_lets +onlyGivenNames -merge -useContext -lift y z
    have hz : z.r LandReg.HSTATE = v₀ := Head.lasersRead_keep (by decide) c (Head.keep_record hs)
    split
    · exact hz
    · exact Head.keep_ite hz (Head.keep_w (by decide) (Head.leaveWrite_hstate hv (Head.keep_record hz)))

theorem Head.writeAbort_hstate (hv : v₀ ≠ 8) (c : Ctx) (cause : Nat) (hs : x.r LandReg.HSTATE = v₀) :
    (x.writeAbort c cause).r LandReg.HSTATE = v₀ := by
  unfold Head.writeAbort
  have h1 := Head.writeSettle_hstate hv c hs
  extract_lets +onlyGivenNames -merge -useContext -lift a
  split
  · exact h1
  · apply Head.keep_ite
    · exact Head.keep_record h1
    · apply Head.keep_ite
      · exact h1
      · extract_lets +onlyGivenNames -merge -useContext -lift te opened m a₁ w a₂ a₃ a₄
        have h2 : a₁.r LandReg.HSTATE = v₀ := Head.keep_ite (Head.issue_keep (by decide) c _ h1) h1
        have h3 : a₃.r LandReg.HSTATE = v₀ := Head.leaveWrite_hstate hv (Head.keep_flag (by decide) (Head.keep_record h2))
        exact Head.keep_w (by decide) (Head.keep_ite (Head.lasersRead_keep (by decide) c h3) h3)

theorem Head.refreshInhibit_hstate (hv : v₀ ≠ 8) (c : Ctx) (hs : x.r LandReg.HSTATE = v₀) :
    (x.refreshInhibit c).r LandReg.HSTATE = v₀ := by
  unfold Head.refreshInhibit
  have hp : (x.put LandReg.WRITE_INHIBIT x.inhibitNow).r LandReg.HSTATE = v₀ := Head.keep_put (by decide) hs
  exact Head.keep_ite (Head.writeAbort_hstate hv c _ (Head.keep_bump (by decide) (Head.keep_flag (by decide) hp))) hp

theorem Head.slot1Off_hstate (hv : v₀ ≠ 8) (c : Ctx) (keep : Bool) (hs : x.r LandReg.HSTATE = v₀) :
    (x.slot1Off c keep).r LandReg.HSTATE = v₀ := by
  unfold Head.slot1Off
  extract_lets +onlyGivenNames -merge -useContext -lift ran open' a w t b d
  have ha : a.r LandReg.HSTATE = v₀ :=
    Head.keep_put (g := AngleReg.START) (by decide) (Head.keep_put (g := AngleReg.RUNNING) (by decide) hs)
  have hb : b.r LandReg.HSTATE = v₀ := Head.keep_record ha
  have hd : d.r LandReg.HSTATE = v₀ := Head.keep_ite (Head.abortFrames_keep (by decide) c hb) hb
  exact Head.keep_ite (Head.writeAbort_hstate hv c 9 hd) hd

theorem Head.stopSlot1_hstate (hv : v₀ ≠ 8) (c : Ctx) (hs : x.r LandReg.HSTATE = v₀) :
    (x.stopSlot1 c).r LandReg.HSTATE = v₀ := Head.slot1Off_hstate hv c false hs

theorem Head.refresh_hstate (hv : v₀ ≠ 8) (c : Ctx) (hs : x.r LandReg.HSTATE = v₀) :
    (x.refresh c).r LandReg.HSTATE = v₀ :=
  Head.calCheck_keep (by decide) c (Head.refreshHeld_keep (by decide) (Head.refreshInhibit_hstate hv c
    (Head.refreshHold_keep (by decide) c (Head.sampleBanks_keep (by decide) c
      (Head.refreshMode_keep (by decide) (Head.writeSettle_hstate hv c (Head.actsLoose_keep (by decide) c hs)))))))

end Sys2Proof.Machine
end

