-- ==== Sys2Proof/Laws/Ops.lean ====
section
/-! SUPPORT. What the shared forms of a command's meaning answer: an event whose guard holds, an event of one head, and a
register write that reaches its register. -/

namespace Sys2Proof.Machine

/-! ### Events -/

theorem State.after_next (s : State) (wait : Nat) (due : State → Bool) (act : State → State) :
    s.after wait due act = .next (if due (s.pass wait) then act (s.pass wait) else s.pass wait) := rfl

theorem State.afterIn_next (s : State) (k wait : Nat) (due : State → Bool) (act : State → State) :
    s.afterIn k wait due act = .next (if due ((s.advance wait).turnTo k) then act ((s.advance wait).turnTo k)
      else (s.advance wait).turnTo k) := rfl

/-- An event whose guard holds after the wait has its effect. -/
theorem State.after_due {s : State} {wait : Nat} {due : State → Bool} (act : State → State)
    (h : due (s.pass wait) = true) : s.after wait due act = .next (act (s.pass wait)) := by
  rw [State.after_next, if_pos h]

/-- An event whose guard does not hold only lets the time pass. -/
theorem State.after_idle {s : State} {wait : Nat} {due : State → Bool} (act : State → State)
    (h : due (s.pass wait) = false) : s.after wait due act = .next (s.pass wait) := by
  rw [State.after_next, h]; rfl

/-- The same of an event with a turn of its own among the happenings of its cycle. -/
theorem State.afterIn_due {s : State} {k wait : Nat} {due : State → Bool} (act : State → State)
    (h : due ((s.advance wait).turnTo k) = true) : s.afterIn k wait due act = .next (act ((s.advance wait).turnTo k)) := by
  rw [State.afterIn_next, if_pos h]

theorem State.afterIn_idle {s : State} {k wait : Nat} {due : State → Bool} (act : State → State)
    (h : due ((s.advance wait).turnTo k) = false) : s.afterIn k wait due act = .next ((s.advance wait).turnTo k) := by
  rw [State.afterIn_next, h]; rfl

/-- An event of one head changes that head alone. -/
theorem State.headAfter_due {s : State} {wait : Nat} {h : Fin 32} {due : Ctx → Head → Bool} (act : Ctx → Head → Head)
    (h0 : ((s.pass wait).head h).inReset = false)
    (h1 : due ((s.pass wait).ctx h) ((s.pass wait).head h) = true) :
    s.headAfter wait h due act
      = .next ((s.pass wait).setHead h (act ((s.pass wait).ctx h) ((s.pass wait).head h))) := by
  rw [State.headAfter, State.after_due]
  · rfl
  · simp only [h0, h1, Bool.not_false, Bool.and_self]

/-- The same where the head's heavy blocks must have power. -/
theorem State.liveAfter_due {s : State} {wait : Nat} {h : Fin 32} {due : Ctx → Head → Bool} (act : Ctx → Head → Head)
    (h0 : (s.pass wait).live h = true)
    (h1 : due ((s.pass wait).ctx h) ((s.pass wait).head h) = true) :
    s.liveAfter wait h due act
      = .next ((s.pass wait).setHead h (act ((s.pass wait).ctx h) ((s.pass wait).head h))) := by
  rw [State.liveAfter, State.after_due]
  · rfl
  · simp only [h0, h1, Bool.and_self]

/-- What any event may change: time, and what its effect may. -/
theorem State.after_changes {ps : List Part} {s t : State} {wait : Nat} {due : State → Bool} {act : State → State}
    (hm : ([.time, .tiles] : List Part) ⊆ ps) (h : s.after wait due act = .next t)
    (ha : ∀ u, s.ChangesOnly ps u → s.ChangesOnly ps (act u)) : s.ChangesOnly ps t := by
  have hu : s.ChangesOnly ps (s.pass wait) := State.pass_changes hm wait (.refl s)
  rw [State.after_next] at h
  cases h
  split
  · exact ha _ hu
  · exact hu

theorem State.afterIn_changes {ps : List Part} {s t : State} {k wait : Nat} {due : State → Bool} {act : State → State}
    (hm : ([.time, .tiles] : List Part) ⊆ ps) (h : s.afterIn k wait due act = .next t)
    (ha : ∀ u, s.ChangesOnly ps u → s.ChangesOnly ps (act u)) : s.ChangesOnly ps t := by
  have hu : s.ChangesOnly ps ((s.advance wait).turnTo k) := State.turnTo_changes hm k (State.advance_changes hm wait (.refl s))
  rw [State.afterIn_next] at h
  cases h
  split
  · exact ha _ hu
  · exact hu

theorem State.headAfter_changes {ps : List Part} {s t : State} {wait : Nat} {h : Fin 32} {due : Ctx → Head → Bool}
    {act : Ctx → Head → Head} (hm : ([.time, .heads, .tiles] : List Part) ⊆ ps) (e : s.headAfter wait h due act = .next t) :
    s.ChangesOnly ps t :=
  State.after_changes (List.Subset.trans (by decide) hm) e fun _ hu =>
    State.onHead_changes (List.Subset.trans (by decide) hm) _ _ hu

theorem State.liveAfter_changes {ps : List Part} {s t : State} {wait : Nat} {h : Fin 32} {due : Ctx → Head → Bool}
    {act : Ctx → Head → Head} (hm : ([.time, .heads, .tiles] : List Part) ⊆ ps) (e : s.liveAfter wait h due act = .next t) :
    s.ChangesOnly ps t :=
  State.after_changes (List.Subset.trans (by decide) hm) e fun _ hu =>
    State.onHead_changes (List.Subset.trans (by decide) hm) _ _ hu

/-! ### Register writes -/

/-- A write that reaches a register of a head or of the package block has that register's effect. -/
theorem State.writeAt_ok {s : State} {q : Req} {p : Place} {a v : Nat} (h : s.accessOf q p = .ok)
    (hw : dataWindow p = none) : s.writeAt q p a v = (s.arrived q p a).writePlace q p v := by
  have h2 : s.windowAsleep p = false := by rw [State.windowAsleep, hw]
  rw [State.writeAt, if_neg (by simp only [h, ne_eq, not_true_eq_false, not_false_eq_true]), h2]
  rfl

/-- A write that does not reach a register leaves its traces and changes nothing else. -/
theorem State.writeAt_stray {s : State} {q : Req} {p : Place} {a v : Nat} (h : s.accessOf q p ≠ .ok) :
    s.writeAt q p a v = s.noteAccess q p a := if_pos h

theorem State.writeAt_head {s : State} {q : Req} {h : Fin 32} {off a v : Nat} (ok : s.accessOf q (.head h off) = .ok) :
    s.writeAt q (.head h off) a v = (s.arrived q (.head h off) a).headWrite h off v := State.writeAt_ok ok rfl

theorem State.writeAt_pkg {s : State} {q : Req} {off a v : Nat} (ok : s.accessOf q (.pkg off) = .ok) :
    s.writeAt q (.pkg off) a v = (s.arrived q (.pkg off) a).pkgWrite q off v := State.writeAt_ok ok rfl

/-! ### What reaching a register changes -/

@[simp] theorem State.setHead_self (s : State) (h : Fin 32) : s.setHead h (s.head h) = s := by
  simp [State.setHead, State.head]

@[simp] theorem State.setTile_self (s : State) (t : Fin 8) : s.setTile t (s.tile t) = s := by
  simp [State.setTile, State.tile]

theorem State.onTile_tile (s : State) (t : Fin 8) (f : Tile → Tile) : (s.onTile t f).tile t = f (s.tile t) := State.setTile_tile ..

theorem State.onTile_onTile (s : State) (t : Fin 8) (f g : Tile → Tile) : (s.onTile t f).onTile t g = s.onTile t (g ∘ f) := by
  simp [State.onTile]

theorem State.queueFlits_eq (a b : Fin 8) (v : Fin 4) (k : Fin 3) (p : List (Fin 8)) (n : Nat) (s : State) :
    s.queueFlits a b v k p n = s.onTile a fun x => { x with
      regs := x.regs
      links := (s.tile a).links.set k { (s.tile a).links[k] with
        queue := (s.tile a).links[k].queue ++ (List.range n).map fun i =>
          { src := a, dst := b, vc := v, num := (s.tile a).flitCount + i, came := none, path := p } }
      flitCount := (s.tile a).flitCount + n } := by
  simp [State.queueFlits, State.onLink, State.onTile]

/-- Sending a packet changes at most the sender's tile: the route counters of its links, their queues of flits and its
count of flits sent. -/
theorem State.sendPacket_cases (s : State) (a b : Fin 8) (v : Fin 4) (n : Nat) :
    ∃ rf ls m, s.sendPacket a b v n = s.onTile a (fun x => { x with regs := rf, links := ls, flitCount := m }) ∧
      ∀ f : Fld, (∀ k : Fin 3, f.key ≠ (LinkReg.ROUTE_FAIL k).key ∧ f.key ≠ (LinkReg.REROUTED k).key) →
        rf.rd f = (s.tile a).regs.rd f := by
  have e : s = s.onTile a (fun x => { x with
      regs := (s.tile a).regs, links := (s.tile a).links, flitCount := (s.tile a).flitCount }) :=
    (State.setTile_self s a).symm
  have same : ∃ rf ls m, s = s.onTile a (fun x => { x with regs := rf, links := ls, flitCount := m }) ∧
      ∀ f : Fld, (∀ k : Fin 3, f.key ≠ (LinkReg.ROUTE_FAIL k).key ∧ f.key ≠ (LinkReg.REROUTED k).key) →
        rf.rd f = (s.tile a).regs.rd f := ⟨_, _, _, e, fun _ _ => rfl⟩
  have fails : ∃ rf ls m, s.routeFails a b = s.onTile a (fun x => { x with regs := rf, links := ls, flitCount := m }) ∧
      ∀ f : Fld, (∀ k : Fin 3, f.key ≠ (LinkReg.ROUTE_FAIL k).key ∧ f.key ≠ (LinkReg.REROUTED k).key) →
        rf.rd f = (s.tile a).regs.rd f := by
    unfold State.routeFails
    split
    · exact ⟨((s.tile a).bump _ 1).regs, (s.tile a).links, (s.tile a).flitCount, rfl,
        fun f hf => RegFile.rd_wr_ne _ _ (hf _).1⟩
    · exact same
  unfold State.sendPacket
  split
  · exact same
  · split
    · exact fails
    · split
      · exact same
      · rename_i k _
        dsimp only
        split
        · exact ⟨((s.tile a).bump (LinkReg.REROUTED k) 1).regs, _, _, by
            rw [State.queueFlits_eq, State.onTile_tile, State.onTile_onTile]; rfl, fun f hf => RegFile.rd_wr_ne _ _ (hf k).2⟩
        · exact ⟨(s.tile a).regs, _, _, State.queueFlits_eq .., fun _ _ => rfl⟩

theorem State.sendPacket_only (s : State) (a b : Fin 8) (v : Fin 4) (n : Nat) :
    s.ChangesOnly [.tiles] (s.sendPacket a b v n) := State.sendPacket_changes (by decide) a b v n (.refl s)

/-- An access that fares well leaves its packet, and drops the requester's shadow of the word. -/
theorem State.arrived_ok {s : State} {q : Req} {p : Place} {a : Nat} (h : s.accessOf q p = .ok) :
    s.arrived q p a = (s.sendPacket (s.reqTile q) (s.accessTile q p) vcCommand 1).dropShadow q a := by
  simp only [State.arrived, State.noteAccess, h]

theorem State.arrived_only {s : State} {q : Req} {p : Place} {a : Nat} (h : s.accessOf q p = .ok) :
    s.ChangesOnly [.tiles, .shadows] (s.arrived q p a) := by
  rw [State.arrived_ok h]
  exact State.dropShadow_changes (by decide) _ _ ((State.sendPacket_only s _ _ _ _).mono (by decide))

theorem State.arrived_cycle {s : State} {q : Req} {p : Place} {a : Nat} (h : s.accessOf q p = .ok) :
    (s.arrived q p a).cycle = s.cycle := ((State.arrived_only h).time (by decide)).1

theorem State.arrived_freeCount {s : State} {q : Req} {p : Place} {a : Nat} (h : s.accessOf q p = .ok) :
    (s.arrived q p a).freeCount = s.freeCount := (State.arrived_only h).free (by decide)

theorem State.arrived_heads {s : State} {q : Req} {p : Place} {a : Nat} (h : s.accessOf q p = .ok) :
    (s.arrived q p a).heads = s.heads := (State.arrived_only h).heads (by decide)

theorem State.arrived_ports {s : State} {q : Req} {p : Place} {a : Nat} (h : s.accessOf q p = .ok) :
    (s.arrived q p a).ports = s.ports := (State.arrived_only h).ports (by decide)

theorem State.arrived_sets {s : State} {q : Req} {p : Place} {a : Nat} (h : s.accessOf q p = .ok) :
    (s.arrived q p a).sets = s.sets := (State.arrived_only h).sets (by decide)

theorem State.arrived_atria {s : State} {q : Req} {p : Place} {a : Nat} (h : s.accessOf q p = .ok) :
    (s.arrived q p a).atria = s.atria := (State.arrived_only h).atria (by decide)

theorem State.arrived_flashes {s : State} {q : Req} {p : Place} {a : Nat} (h : s.accessOf q p = .ok) :
    (s.arrived q p a).flashes = s.flashes := (State.arrived_only h).flashes (by decide)

theorem State.arrived_boot {s : State} {q : Req} {p : Place} {a : Nat} (h : s.accessOf q p = .ok) :
    (s.arrived q p a).boot = s.boot := (State.arrived_only h).boot (by decide)

theorem State.arrived_pkg {s : State} {q : Req} {p : Place} {a : Nat} (h : s.accessOf q p = .ok) :
    (s.arrived q p a).pkg = s.pkg := (State.arrived_only h).pkg (by decide)

theorem State.arrived_fuses {s : State} {q : Req} {p : Place} {a : Nat} (h : s.accessOf q p = .ok) :
    (s.arrived q p a).fuses = s.fuses := (State.arrived_only h).fuses (by decide)

theorem State.arrived_smb {s : State} {q : Req} {p : Place} {a : Nat} (h : s.accessOf q p = .ok) :
    (s.arrived q p a).smb = s.smb := (State.arrived_only h).smb (by decide)

theorem State.arrived_pending {s : State} {q : Req} {p : Place} {a : Nat} (h : s.accessOf q p = .ok) :
    (s.arrived q p a).pending = s.pending := (State.arrived_only h).pending

theorem State.arrived_head {s : State} {q : Req} {p : Place} {a : Nat} (h : s.accessOf q p = .ok) (j : Fin 32) :
    (s.arrived q p a).head j = s.head j := by
  unfold State.head
  rw [State.arrived_heads h]

theorem State.arrived_atrium {s : State} {q : Req} {p : Place} {a : Nat} (h : s.accessOf q p = .ok) (j : Fin 2) :
    (s.arrived q p a).atrium j = s.atrium j := by
  unfold State.atrium
  rw [State.arrived_atria h]

theorem State.arrived_aset {s : State} {q : Req} {p : Place} {a : Nat} (h : s.accessOf q p = .ok) (j : Fin 8) :
    (s.arrived q p a).aset j = s.aset j := by
  unfold State.aset
  rw [State.arrived_sets h]

theorem State.arrived_flash {s : State} {q : Req} {p : Place} {a : Nat} (h : s.accessOf q p = .ok) (j : Fin 2) :
    (s.arrived q p a).flash j = s.flash j := by
  unfold State.flash
  rw [State.arrived_flashes h]

theorem State.arrived_port {s : State} {q : Req} {p : Place} {a : Nat} (h : s.accessOf q p = .ok) (j : Fin 16) :
    (s.arrived q p a).port j = s.port j := by
  unfold State.port
  rw [State.arrived_ports h]

/-- Of a tile, an access changes at most the two route counters of its links, their queues of flits and the count of flits
sent. -/
theorem State.arrived_tile {s : State} {q : Req} {p : Place} {a : Nat} (h : s.accessOf q p = .ok) (j : Fin 8) :
    ∃ rf ls m, (s.arrived q p a).tile j = { s.tile j with regs := rf, links := ls, flitCount := m } ∧
      ∀ f : Fld, (∀ k : Fin 3, f.key ≠ (LinkReg.ROUTE_FAIL k).key ∧ f.key ≠ (LinkReg.REROUTED k).key) →
        rf.rd f = (s.tile j).regs.rd f := by
  have d (u : State) : (u.dropShadow q a).tile j = u.tile j := rfl
  obtain ⟨rf, ls, m, e, hf⟩ := s.sendPacket_cases (s.reqTile q) (s.accessTile q p) vcCommand 1
  rw [State.arrived_ok h, d, e]
  by_cases hj : j = s.reqTile q
  · subst hj
    exact ⟨rf, ls, m, by rw [State.onTile, State.setTile_tile], hf⟩
  · exact ⟨(s.tile j).regs, (s.tile j).links, (s.tile j).flitCount, by rw [State.onTile, State.setTile_tile_ne _ _ _ _ hj],
      fun _ _ => rfl⟩

/-- The instant of a head is as before an access. -/
theorem State.arrived_ctx {s : State} {q : Req} {p : Place} {a : Nat} (h : s.accessOf q p = .ok) (j : Fin 32) :
    (s.arrived q p a).ctx j = s.ctx j := by
  obtain ⟨rf, ls, m, e, -⟩ := State.arrived_tile (a := a) h (tileOf j)
  rw [State.ctx, State.ctx, State.h16, State.h16, State.t16, State.t16, e, State.arrived_cycle h]

/-! ### Words of a head -/

@[simp] theorem State.setHead_ctx (s : State) (h : Fin 32) (x : Head) (j : Fin 32) : (s.setHead h x).ctx j = s.ctx j := rfl

/-- The fields of a head's word that a write stores into. -/
def headStored (off : Nat) : List Fld := (fieldsIn headFields off).filter fun f => !headOwn f

/-- A head after the stores of a write to one of its words, where no limit binds. -/
def Head.stored (off v : Nat) (x : Head) : Head :=
  { x.beforeWrite off with regs := (storeWord (fun _ => none) (headStored off) v (x.beforeWrite off).regs).1 }

theorem storeField_none {lim : Fld → Option Limit} {v : Nat} {r : RegFile × Bool} {f : Fld} (h : lim f = none) :
    storeField lim v r f = storeField (fun _ => none) v r f := by
  unfold storeField
  rw [h]

theorem storeWord_none {lim : Fld → Option Limit} {v : Nat} {fs : List Fld} {rf : RegFile} (h : ∀ f ∈ fs, lim f = none) :
    storeWord lim fs v rf = storeWord (fun _ => none) fs v rf := by
  unfold storeWord
  generalize (rf, false) = r
  induction fs generalizing r with
  | nil => rfl
  | cons f l ih =>
    rw [List.foldl_cons, List.foldl_cons, storeField_none (h f (List.mem_cons_self ..)),
      ih fun g hg => h g (List.mem_cons_of_mem _ hg)]

theorem storeWord_flag (v : Nat) (fs : List Fld) (rf : RegFile) : (storeWord (fun _ => none) fs v rf).2 = false := by
  unfold storeWord
  have : ∀ r : RegFile × Bool, r.2 = false → (fs.foldl (storeField (fun _ => none) v) r).2 = false := by
    induction fs with
    | nil => exact fun _ h => h
    | cons f l ih =>
      intro r hr
      refine ih _ ?_
      unfold storeField
      split <;> exact hr
  exact this _ rfl

/-- A word none of whose fields has a limit: its stores change its head alone. -/
theorem State.headStore_plain (h : Fin 32) (off v : Nat) (s : State)
    (hl : (headStored off).all (fun f => !limitFields.any fun e => e.1.key == f.key) = true) :
    s.headStore h off v = s.onHead h (Head.stored off v) := by
  have hn : ∀ (u : State), ∀ f ∈ headStored off, u.limitOf f = none := by
    intro u f hf
    have := List.all_eq_true.mp hl f hf
    unfold State.limitOf
    rw [if_neg]
    simpa using this
  unfold State.headStore
  simp only [← headStored.eq_def, storeWord_none (hn _), storeWord_flag, Bool.false_eq_true, if_false]
  simp only [State.onHead, State.setHead_head, State.setHead_setHead, Head.stored]

/-- A write of a word of a head whose effect is that head's alone. -/
theorem State.headWrite_plain (h : Fin 32) (off v : Nat) (s : State)
    (hl : (headStored off).all (fun f => !limitFields.any fun e => e.1.key == f.key) = true)
    (h0 : off ≠ 0) (h1 : off ≠ 0x7000C) (h2 : off ≠ 0x7001C) :
    s.headWrite h off v = s.setHead h (((s.head h).stored off v).writeAct (s.ctx h) off v) := by
  unfold State.headWrite
  simp only [State.headStore_plain h off v s hl, if_neg h0, if_neg h1, if_neg h2, State.onHead, State.setHead_head,
    State.setHead_setHead, State.setHead_ctx]

/-- A row that writes a word of a head, where the write reaches it and its effect is that head's alone. -/
theorem headRow_plain {q : Req} {h : Fin 32} {f : Fld} {k : Nat} {v : Word} {s : State}
    (ok : (s.turnTo 3).accessOf q (.head h f.off) = .ok)
    (hl : (headStored f.off).all (fun g => !limitFields.any fun e => e.1.key == g.key) = true)
    (h0 : f.off ≠ 0) (h1 : f.off ≠ 0x7000C) (h2 : f.off ≠ 0x7001C) :
    headRow q h f k v s = .next ((s.atHead q h f.off).setHead h
      ((((s.turnTo 3).head h).stored f.off (forced f k v)).writeAct ((s.turnTo 3).ctx h) f.off (forced f k v))) := by
  rw [headRow, State.writeAt_head ok, State.headWrite_plain h _ _ _ hl h0 h1 h2, State.arrived_head ok, State.arrived_ctx ok]
  rfl

theorem headWord_plain {q : Req} {h : Fin 32} {off : Nat} {v : Word} {s : State}
    (ok : (s.turnTo 3).accessOf q (.head h off) = .ok)
    (hl : (headStored off).all (fun g => !limitFields.any fun e => e.1.key == g.key) = true)
    (h0 : off ≠ 0) (h1 : off ≠ 0x7000C) (h2 : off ≠ 0x7001C) :
    headWord q h off v s = .next ((s.atHead q h off).setHead h
      ((((s.turnTo 3).head h).stored off v.toNat).writeAct ((s.turnTo 3).ctx h) off v.toNat)) := by
  rw [headWord, State.writeAt_head ok, State.headWrite_plain h _ _ _ hl h0 h1 h2, State.arrived_head ok, State.arrived_ctx ok]
  rfl

/-! ### Words that store nothing -/

/-- A word of actions and read-only fields alone stores nothing (R4). -/
theorem storeWord_skip {lim : Fld → Option Limit} {v : Nat} {fs : List Fld} {rf : RegFile}
    (h : fs.all (fun f => f.acc ≠ .rw && f.acc ≠ .w1c) = true) : storeWord lim fs v rf = (rf, false) := by
  unfold storeWord
  induction fs with
  | nil => rfl
  | cons f l ih =>
    rw [List.all_cons, Bool.and_eq_true] at h
    have hf : storeField lim v (rf, false) f = (rf, false) := by
      have := h.1
      simp only [ne_eq, Bool.and_eq_true, decide_eq_true_eq] at this
      unfold storeField
      split
      · rename_i e; exact absurd e this.1
      · rename_i e; exact absurd e this.2
      · rfl
    rw [List.foldl_cons, hf]
    exact ih h.2

theorem Head.stored_skip {off v : Nat} {x : Head} (h : (headStored off).all (fun f => f.acc ≠ .rw && f.acc ≠ .w1c) = true)
    (hb : ¬(0x70100 ≤ off ∧ off < 0x70208)) : x.stored off v = x := by
  unfold Head.stored Head.beforeWrite
  rw [storeWord_skip h, if_neg hb]

theorem State.onAtrium_self (s : State) (w : Fin 2) : s.onAtrium w (fun a => { a with regs := a.regs }) = s := by
  simp [State.onAtrium, State.atrium]

theorem State.pkgStore_skip {w : Fin 2} {off v : Nat} {s : State}
    (h : ((fieldsIn pkgFields off).filter fun f => !pkgOwn f).all (fun f => f.acc ≠ .rw && f.acc ≠ .w1c) = true) :
    s.pkgStore w off v = s := by
  unfold State.pkgStore
  simp only [storeWord_skip h]
  unfold State.onPkg
  simp only [State.onAtrium_self, ite_self]

theorem State.tileStore_skip {t : Fin 8} {off v : Nat} {s : State} (hb : ¬(0x200000 ≤ off ∧ off < 0x300000))
    (h : ((fieldsIn tileFields off).filter fun f => f.off != 0x1008 && f.off != 0x1028 && f.off != 0x1048).all
      (fun f => f.acc ≠ .rw && f.acc ≠ .w1c) = true) : s.tileStore t off v = s := by
  unfold State.tileStore
  simp only [storeWord_skip h, if_neg hb, State.onTile]
  exact State.setTile_self s t

end Sys2Proof.Machine
end

