-- ==== Sys2Proof/Laws/Completes.lean ====
section
/-! SUPPORT. How a command of each shared form is shown to complete: an event whose guard holds, an event of a schedule that
is due, a register write that reaches its register. -/

namespace Sys2Proof.Machine

theorem State.after_completes {s : State} {P : State → Prop} {wait : Nat} {due : State → Bool} {act : State → State}
    (hd : due (s.pass wait) = true) (hp : P (act (s.pass wait))) : ∃ t, s.after wait due act = .next t ∧ P t :=
  ⟨_, State.after_due act hd, hp⟩

theorem State.headAfter_completes {s : State} {h : Fin 32} {P : Head → Prop} {wait : Nat} {due : Ctx → Head → Bool}
    {act : Ctx → Head → Head} (h0 : ((s.pass wait).head h).inReset = false)
    (hd : due ((s.pass wait).ctx h) ((s.pass wait).head h) = true)
    (hp : P (act ((s.pass wait).ctx h) ((s.pass wait).head h))) :
    ∃ y, s.headAfter wait h due act = .next ((s.pass wait).setHead h y) ∧ P y :=
  ⟨_, State.headAfter_due act h0 hd, hp⟩

theorem State.liveAfter_completes {s : State} {h : Fin 32} {P : Head → Prop} {wait : Nat} {due : Ctx → Head → Bool}
    {act : Ctx → Head → Head} (h0 : (s.pass wait).live h = true)
    (hd : due ((s.pass wait).ctx h) ((s.pass wait).head h) = true)
    (hp : P (act ((s.pass wait).ctx h) ((s.pass wait).head h))) :
    ∃ y, s.liveAfter wait h due act = .next ((s.pass wait).setHead h y) ∧ P y :=
  ⟨_, State.liveAfter_due act h0 hd, hp⟩

/-- A register row of a head whose effect is that head's alone. -/
theorem headRow_completes {s : State} {q : Req} {h : Fin 32} {f : Fld} {k : Nat} {v : Word} {P : Head → Prop}
    (ok : (s.turnTo 3).accessOf q (.head h f.off) = .ok)
    (hl : (headStored f.off).all (fun g => !limitFields.any fun e => e.1.key == g.key) = true)
    (h0 : f.off ≠ 0) (h1 : f.off ≠ 0x7000C) (h2 : f.off ≠ 0x7001C)
    (hp : P ((((s.turnTo 3).head h).stored f.off (forced f k v)).writeAct ((s.turnTo 3).ctx h) f.off (forced f k v))) :
    ∃ y, headRow q h f k v s = .next ((s.atHead q h f.off).setHead h y) ∧ P y :=
  ⟨_, headRow_plain ok hl h0 h1 h2, hp⟩

theorem headWord_completes {s : State} {q : Req} {h : Fin 32} {off : Nat} {v : Word} {P : Head → Prop}
    (ok : (s.turnTo 3).accessOf q (.head h off) = .ok)
    (hl : (headStored off).all (fun g => !limitFields.any fun e => e.1.key == g.key) = true)
    (h0 : off ≠ 0) (h1 : off ≠ 0x7000C) (h2 : off ≠ 0x7001C)
    (hp : P ((((s.turnTo 3).head h).stored off v.toNat).writeAct ((s.turnTo 3).ctx h) off v.toNat)) :
    ∃ y, headWord q h off v s = .next ((s.atHead q h off).setHead h y) ∧ P y :=
  ⟨_, headWord_plain ok hl h0 h1 h2, hp⟩

/-- A register row of the package block. -/
theorem pkgRow_completes {s : State} {q : Req} {f : Fld} {k : Nat} {v : Word} {P : State → Prop}
    (ok : (s.turnTo 3).accessOf q (.pkg f.off) = .ok) (hp : P ((s.atPkg q f.off).pkgWrite q f.off (forced f k v))) :
    ∃ t, pkgRow q f k v s = .next t ∧ P t :=
  ⟨_, by rw [pkgRow, State.writeAt_pkg ok]; rfl, hp⟩

theorem pkgWord_completes {s : State} {q : Req} {off : Nat} {v : Word} {P : State → Prop}
    (ok : (s.turnTo 3).accessOf q (.pkg off) = .ok) (hp : P ((s.atPkg q off).pkgWrite q off v.toNat)) :
    ∃ t, pkgWord q off v s = .next t ∧ P t :=
  ⟨_, by rw [pkgWord, State.writeAt_pkg ok]; rfl, hp⟩

/-- A register row of a head, whatever takes part in its effect. -/
theorem headRow_completes' {s : State} {q : Req} {h : Fin 32} {f : Fld} {k : Nat} {v : Word} {P : State → Prop}
    (ok : (s.turnTo 3).accessOf q (.head h f.off) = .ok) (hp : P ((s.atHead q h f.off).headWrite h f.off (forced f k v))) :
    ∃ t, headRow q h f k v s = .next t ∧ P t :=
  ⟨_, by rw [headRow, State.writeAt_head ok]; rfl, hp⟩

/-- A register row of a tile, at a word that is no DATA of a window. -/
theorem tileRow_completes {s : State} {q : Req} {t : Fin 8} {f : Fld} {k : Nat} {v : Word} {P : State → Prop}
    (ok : (s.turnTo 3).accessOf q (.tile t f.off) = .ok) (hw : dataWindow (.tile t f.off) = none)
    (hp : P ((s.atTile q t f.off).tileWrite q t f.off (forced f k v))) : ∃ u, tileRow q t f k v s = .next u ∧ P u :=
  ⟨_, by rw [tileRow, State.writeAt_ok ok hw]; rfl, hp⟩

theorem tileWord_completes {s : State} {q : Req} {t : Fin 8} {off : Nat} {v : Word} {P : State → Prop}
    (ok : (s.turnTo 3).accessOf q (.tile t off) = .ok) (hw : dataWindow (.tile t off) = none)
    (hp : P ((s.atTile q t off).tileWrite q t off v.toNat)) : ∃ u, tileWord q t off v s = .next u ∧ P u :=
  ⟨_, by rw [tileWord, State.writeAt_ok ok hw]; rfl, hp⟩

end Sys2Proof.Machine
end

