-- ==== Sys2Proof/Laws/Exec.lean ====
section
/-! SUPPORT. For each command, the parts of the state that it may change: whatever it does, every other part is as it was. -/

namespace Sys2Proof.Machine

theorem State.writeAt_head_changes {ps : List Part} (hm : ([.heads, .tiles, .atria, .shadows] : List Part) ⊆ ps) {s₀ s : State}
    (q : Req) (h : Fin 32) (off a v : Nat) (hs : s₀.ChangesOnly ps s) : s₀.ChangesOnly ps (s.writeAt q (.head h off) a v) := by
  unfold State.writeAt
  apply State.ChangesOnly.ite
  · exact State.noteAccess_changes (List.Subset.trans (by decide) hm) q _ a hs
  · apply State.ChangesOnly.ite
    · exact State.tawReset_changes (List.Subset.trans (by decide) hm) _ _
        (State.noteAccess_changes (List.Subset.trans (by decide) hm) q _ a hs)
    · exact State.headWrite_changes (List.Subset.trans (by decide) hm) h off v
        (State.arrived_changes (List.Subset.trans (by decide) hm) q _ a hs)

theorem State.writeAt_tile_changes {ps : List Part} (hm : ([.free, .heads, .tiles, .ports, .atria, .pkg, .shadows] : List Part) ⊆ ps)
    {s₀ s : State} (q : Req) (t : Fin 8) (off a v : Nat) (hs : s₀.ChangesOnly ps s) :
    s₀.ChangesOnly ps (s.writeAt q (.tile t off) a v) := by
  unfold State.writeAt
  apply State.ChangesOnly.ite
  · exact State.noteAccess_changes (List.Subset.trans (by decide) hm) q _ a hs
  · apply State.ChangesOnly.ite
    · exact State.tawReset_changes (List.Subset.trans (by decide) hm) _ _
        (State.noteAccess_changes (List.Subset.trans (by decide) hm) q _ a hs)
    · exact State.tileWrite_changes (List.Subset.trans (by decide) hm) q t off v
        (State.arrived_changes (List.Subset.trans (by decide) hm) q _ a hs)

/-- A write takes its turn in the cycle before it acts. -/
theorem State.turned_changes {ps : List Part} (hm : ([.time, .tiles] : List Part) ⊆ ps) (k : Nat) (s : State) :
    s.ChangesOnly ps (s.turnTo k) :=
  State.turnTo_changes hm k (.refl s)

/-- A register row changes the parts that the write of its word may. -/
theorem headRow_changes {ps : List Part} (hm : ([.time, .heads, .tiles, .atria, .shadows] : List Part) ⊆ ps) {q : Req} {h : Fin 32} {f : Fld} {k : Nat} {v : Word}
    {s t : State} (e : headRow q h f k v s = .next t) : s.ChangesOnly ps t := by
  cases e
  exact State.writeAt_head_changes (List.Subset.trans (by decide) hm) q h _ _ _
    (State.turned_changes (List.Subset.trans (by decide) hm) 3 _)

theorem headWord_changes {ps : List Part} (hm : ([.time, .heads, .tiles, .atria, .shadows] : List Part) ⊆ ps) {q : Req} {h : Fin 32} {off : Nat} {v : Word}
    {s t : State} (e : headWord q h off v s = .next t) : s.ChangesOnly ps t := by
  cases e
  exact State.writeAt_head_changes (List.Subset.trans (by decide) hm) q h _ _ _
    (State.turned_changes (List.Subset.trans (by decide) hm) 3 _)

theorem tileRow_changes {ps : List Part} (hm : ([.time, .free, .heads, .tiles, .ports, .atria, .pkg, .shadows] : List Part) ⊆ ps) {q : Req} {j : Fin 8} {f : Fld} {k : Nat} {v : Word}
    {s t : State} (e : tileRow q j f k v s = .next t) : s.ChangesOnly ps t := by
  cases e
  exact State.writeAt_tile_changes (List.Subset.trans (by decide) hm) q j _ _ _
    (State.turned_changes (List.Subset.trans (by decide) hm) 3 _)

theorem tileWord_changes {ps : List Part} (hm : ([.time, .free, .heads, .tiles, .ports, .atria, .pkg, .shadows] : List Part) ⊆ ps) {q : Req} {j : Fin 8} {off : Nat} {v : Word}
    {s t : State} (e : tileWord q j off v s = .next t) : s.ChangesOnly ps t := by
  cases e
  exact State.writeAt_tile_changes (List.Subset.trans (by decide) hm) q j _ _ _
    (State.turned_changes (List.Subset.trans (by decide) hm) 3 _)

theorem pkgRow_changes {ps : List Part} (hm : ([.time, .free, .heads, .tiles, .ports, .sets, .atria, .flashes, .boot, .pkg, .fuses, .smb, .shadows] : List Part) ⊆ ps) {q : Req} {f : Fld} {k : Nat} {v : Word}
    {s t : State} (e : pkgRow q f k v s = .next t) : s.ChangesOnly ps t := by
  cases e
  exact State.writeAt_changes (List.Subset.trans (by decide) hm) _ _ _ _
    (State.turned_changes (List.Subset.trans (by decide) hm) 3 _)

theorem pkgWord_changes {ps : List Part} (hm : ([.time, .free, .heads, .tiles, .ports, .sets, .atria, .flashes, .boot, .pkg, .fuses, .smb, .shadows] : List Part) ⊆ ps) {q : Req} {off : Nat} {v : Word}
    {s t : State} (e : pkgWord q off v s = .next t) : s.ChangesOnly ps t := by
  cases e
  exact State.writeAt_changes (List.Subset.trans (by decide) hm) _ _ _ _
    (State.turned_changes (List.Subset.trans (by decide) hm) 3 _)

theorem keyRow_changes {ps : List Part} (hm : ([.time, .free, .heads, .tiles, .ports, .sets, .atria, .flashes, .boot, .pkg, .fuses, .smb, .shadows] : List Part) ⊆ ps) {q : Req} {op : Nat} {v : Word}
    {s t : State} (e : keyRow q op v s = .next t) : s.ChangesOnly ps t := by
  unfold keyRow at e
  split at e
  · exact pkgRow_changes (List.Subset.trans (by decide) hm) e
  · cases e; exact .refl s

theorem strayAccess_changes {ps : List Part} (hm : ([.time, .free, .heads, .tiles, .ports, .sets, .atria, .flashes, .boot, .pkg, .fuses, .smb, .shadows] : List Part) ⊆ ps) {how : Reach} {q : Req} {a : Nat}
    {v : Option Word} {s t : State} (e : strayAccess how q a v s = .next t) : s.ChangesOnly ps t := by
  unfold strayAccess at e
  cases e
  apply State.ChangesOnly.ite
  · split
    · exact State.handOver_changes (List.Subset.trans (by decide) hm) _ _
        (State.regRead_changes (List.Subset.trans (by decide) hm) q a (.refl s))
    · exact State.regWrite_changes (List.Subset.trans (by decide) hm) _ _ _
        (State.turned_changes (List.Subset.trans (by decide) hm) 3 _)
  · exact .refl s

/-- An event of the schedule. -/
theorem State.fires_changes {ps : List Part} (hm : ([.time, .heads, .tiles, .atria] : List Part) ⊆ ps) {wait : Nat} {h : Fin 32} {ty : Nat}
    {act : Fire → State → State} {s t : State} (e : s.fires wait h ty act = .next t)
    (ha : ∀ f u, s.ChangesOnly ps u → s.ChangesOnly ps (act f u)) : s.ChangesOnly ps t := by
  have hs : s.ChangesOnly ps (s.pass wait) := State.pass_changes (List.Subset.trans (by decide) hm) wait (.refl s)
  unfold State.fires at e
  dsimp only at e
  split at e
  · cases e; exact hs
  · have h2 := State.noteEntries_changes (List.Subset.trans (by decide) hm) h hs
    split at e
    · cases e; exact State.onHead_changes (List.Subset.trans (by decide) hm) _ _ h2
    · cases e; exact ha _ _ (State.setHead_changes (List.Subset.trans (by decide) hm) _ _ (State.noteSched_changes (List.Subset.trans (by decide) hm) _ _ _ h2))

theorem State.firesIn_changes {ps : List Part} (hm : ([.time, .heads, .tiles, .atria] : List Part) ⊆ ps) {wait : Nat} {h : Fin 32} {ty : Nat}
    {act : Ctx → Fire → Head → Head} {s t : State} (e : s.firesIn wait h ty act = .next t) : s.ChangesOnly ps t :=
  State.fires_changes (List.Subset.trans (by decide) hm) e fun _ _ hu => State.onHead_changes (List.Subset.trans (by decide) hm) _ _ hu

theorem State.boltRow_changes {ps : List Part} (hm : ([.time, .tiles, .ports, .sets, .atria, .pkg] : List Part) ⊆ ps) {wait : Nat} {j : Fin 8} {ty : Nat}
    {s t : State} (e : s.boltRow wait j ty = .next t) : s.ChangesOnly ps t :=
  State.after_changes (List.Subset.trans (by decide) hm) e fun _ hu =>
    State.takeBolt_changes (List.Subset.trans (by decide) hm) _ hu

theorem capsuleRow_changes {ps : List Part} (hm : ([.time, .free, .tiles, .ports, .atria, .pkg] : List Part) ⊆ ps) {ok : Capsule → Bool} {wait : Nat} {p : Fin 16}
    {q : Capsule} {s t : State} (e : capsuleRow ok wait p q s = .next t) : s.ChangesOnly ps t :=
  State.after_changes (List.Subset.trans (by decide) hm) e fun _ hu =>
    State.submit_changes (List.Subset.trans (by decide) hm) _ _ hu

theorem cmdEvent_changes {ps : List Part} (hm : ([.time, .free, .tiles, .ports, .atria, .pkg] : List Part) ⊆ ps) {wait : Nat} {p : Fin 16}
    {ok : State → HostCmd → Bool} {act : HostCmd → State → State} {s t : State} (e : cmdEvent wait p ok act s = .next t)
    (ha : ∀ c u, s.ChangesOnly ps u → s.ChangesOnly ps (act c u)) : s.ChangesOnly ps t :=
  State.after_changes (List.Subset.trans (by decide) hm) e fun _ hu =>
    State.onFirst_changes (List.Subset.trans (by decide) hm) _ _ hu ha

theorem execPowerOnResetRelease_changes {ps : List Part} (hm : ([.time, .tiles, .boot, .pkg, .pins] : List Part) ⊆ ps)
    (wait : ℕ) (straps : Word) {s t_ : State}
    (e : execPowerOnResetRelease wait straps s = .next t_) : s.ChangesOnly ps t_ := by
  unfold execPowerOnResetRelease at e
  refine State.after_changes (List.Subset.trans (by decide) hm) e ?_
  intro _ hu
  apply State.bootBegins_changes (List.Subset.trans (by decide) hm)
  refine State.ChangesOnly.record ?_ (.inl rfl) (.inl rfl) (.inl rfl) (.inl rfl) (.inl rfl) (.inl rfl) (.inr (hm (by decide))) (.inr (hm (by decide))) (.inl rfl) (.inl rfl) (.inl rfl) (.inr (hm (by decide)))
  exact hu

theorem execRailUndervoltage_changes {ps : List Part} (hm : ([.time, .free, .heads, .tiles, .ports, .sets, .atria, .flashes, .boot, .pkg, .pins, .smb, .shadows] : List Part) ⊆ ps)
    (wait : ℕ) (low : ℕ) {s t_ : State}
    (e : execRailUndervoltage wait low s = .next t_) : s.ChangesOnly ps t_ := by
  unfold execRailUndervoltage at e
  refine State.afterIn_changes (List.Subset.trans (by decide) hm) e ?_
  intro _ hu
  extract_lets +onlyGivenNames -merge -useContext -lift x1
  have hx1 : s.ChangesOnly ps x1 := by
    unfold x1
    apply State.coldReset_changes (List.Subset.trans (by decide) hm)
    apply State.interruptAppend_changes (List.Subset.trans (by decide) hm)
    exact hu
  refine State.ChangesOnly.record ?_ (.inl rfl) (.inl rfl) (.inl rfl) (.inl rfl) (.inl rfl) (.inl rfl) (.inl rfl) (.inr (hm (by decide))) (.inl rfl) (.inl rfl) (.inl rfl) (.inr (hm (by decide)))
  exact hx1

theorem execRstN_changes {ps : List Part} (hm : ([.time, .free, .heads, .tiles, .ports, .sets, .atria, .flashes, .boot, .pkg, .pins, .smb, .shadows] : List Part) ⊆ ps)
    (wait : ℕ) (low : ℕ) {s t_ : State}
    (e : execRstN wait low s = .next t_) : s.ChangesOnly ps t_ := by
  unfold execRstN at e
  refine State.afterIn_changes (List.Subset.trans (by decide) hm) e ?_
  intro _ hu
  apply State.ChangesOnly.ite
  · refine State.ChangesOnly.record ?_ (.inl rfl) (.inl rfl) (.inl rfl) (.inl rfl) (.inl rfl) (.inl rfl) (.inl rfl) (.inr (hm (by decide))) (.inl rfl) (.inl rfl) (.inl rfl) (.inr (hm (by decide)))
    exact hu
  · extract_lets +onlyGivenNames -merge -useContext -lift x1
    have hx1 : s.ChangesOnly ps x1 := by
      unfold x1
      apply State.warmReset_changes (List.Subset.trans (by decide) hm)
      apply State.interruptAppend_changes (List.Subset.trans (by decide) hm)
      exact hu
    refine State.ChangesOnly.record ?_ (.inl rfl) (.inl rfl) (.inl rfl) (.inl rfl) (.inl rfl) (.inl rfl) (.inl rfl) (.inr (hm (by decide))) (.inl rfl) (.inl rfl) (.inl rfl) (.inr (hm (by decide)))
    exact hx1

theorem execRstNRise_changes {ps : List Part} (hm : ([.time, .tiles, .boot, .pkg, .pins] : List Part) ⊆ ps)
    (wait : ℕ) {s t_ : State}
    (e : execRstNRise wait s = .next t_) : s.ChangesOnly ps t_ := by
  unfold execRstNRise at e
  refine State.afterIn_changes (List.Subset.trans (by decide) hm) e ?_
  intro _ hu
  dsimp only
  refine State.ChangesOnly.ite ?_ ?_
  · apply State.bootBegins_changes (List.Subset.trans (by decide) hm)
    exact State.ChangesOnly.record hu
      (.inl rfl) (.inl rfl) (.inl rfl) (.inl rfl) (.inl rfl) (.inl rfl) (.inl rfl) (.inr (hm (by decide))) (.inl rfl) (.inl rfl) (.inl rfl) (.inr (hm (by decide)))
  · exact State.ChangesOnly.record hu
      (.inl rfl) (.inl rfl) (.inl rfl) (.inl rfl) (.inl rfl) (.inl rfl) (.inl rfl) (.inr (hm (by decide))) (.inl rfl) (.inl rfl) (.inl rfl) (.inr (hm (by decide)))

theorem execWarmRst_changes {ps : List Part} (hm : ([.time, .free, .heads, .tiles, .ports, .sets, .atria, .flashes, .boot, .pkg, .fuses, .smb, .shadows] : List Part) ⊆ ps)
    (req : Req) (v : Word) {s t_ : State}
    (e : execWarmRst req v s = .next t_) : s.ChangesOnly ps t_ := by
  unfold execWarmRst at e
  exact pkgRow_changes (List.Subset.trans (by decide) hm) e

theorem execTileRst_changes {ps : List Part} (hm : ([.time, .free, .heads, .tiles, .ports, .sets, .atria, .flashes, .boot, .pkg, .fuses, .smb, .shadows] : List Part) ⊆ ps)
    (req : Req) (v : Word) {s t_ : State}
    (e : execTileRst req v s = .next t_) : s.ChangesOnly ps t_ := by
  unfold execTileRst at e
  exact pkgRow_changes (List.Subset.trans (by decide) hm) e

theorem execHeadReset_changes {ps : List Part} (hm : ([.time, .heads, .tiles, .atria, .shadows] : List Part) ⊆ ps)
    (req : Req) (h : Fin 32) (v : Word) {s t_ : State}
    (e : execHeadReset req h v s = .next t_) : s.ChangesOnly ps t_ := by
  unfold execHeadReset at e
  exact headRow_changes (List.Subset.trans (by decide) hm) e

theorem execPortReset_changes {ps : List Part} (hm : ([.time, .free, .heads, .tiles, .ports, .atria, .pkg, .shadows] : List Part) ⊆ ps)
    (req : Req) (p : Fin 16) (v : Word) {s t_ : State}
    (e : execPortReset req p v s = .next t_) : s.ChangesOnly ps t_ := by
  unfold execPortReset at e
  exact tileRow_changes (List.Subset.trans (by decide) hm) e

theorem execPwrfail_changes {ps : List Part} (hm : ([.time, .heads, .tiles, .atria, .pkg, .pins] : List Part) ⊆ ps)
    (wait : ℕ) (low : ℕ) {s t_ : State}
    (e : execPwrfail wait low s = .next t_) : s.ChangesOnly ps t_ := by
  unfold execPwrfail at e
  refine State.afterIn_changes (List.Subset.trans (by decide) hm) e ?_
  intro _ hu
  dsimp only
  refine State.eachTile_changes (State.eachHead_changes (State.ChangesOnly.record hu
    (.inl rfl) (.inl rfl) (.inl rfl) (.inl rfl) (.inl rfl) (.inl rfl) (.inl rfl) (.inr (hm (by decide))) (.inl rfl) (.inl rfl) (.inl rfl) (.inr (hm (by decide)))) ?_) ?_
  · exact fun _ _ h => State.safeHead_changes (List.Subset.trans (by decide) hm) _ _ h
  · exact fun _ _ h => State.ChangesOnly.ite (State.log_changes (List.Subset.trans (by decide) hm) _ _ _ _ _ h) h

theorem execSelvedgeWriteRefusal_changes {ps : List Part} (hm : ([.time, .free, .tiles, .ports, .atria, .pkg, .pins] : List Part) ⊆ ps)
    (wait : ℕ) {s t_ : State}
    (e : execSelvedgeWriteRefusal wait s = .next t_) : s.ChangesOnly ps t_ := by
  unfold execSelvedgeWriteRefusal at e
  refine State.after_changes (List.Subset.trans (by decide) hm) e ?_
  intro _ hu
  dsimp only
  apply State.refreshSets_changes (List.Subset.trans (by decide) hm)
  exact State.ChangesOnly.record (State.appendCut_changes (List.Subset.trans (by decide) hm) hu)
    (.inl rfl) (.inl rfl) (.inl rfl) (.inl rfl) (.inl rfl) (.inl rfl) (.inl rfl) (.inr (hm (by decide))) (.inl rfl) (.inl rfl) (.inl rfl) (.inr (hm (by decide)))

theorem execPwrfailEpisodeEnd_changes {ps : List Part} (hm : ([.time, .tiles, .ports, .atria, .pkg, .pins] : List Part) ⊆ ps)
    (wait : ℕ) {s t_ : State}
    (e : execPwrfailEpisodeEnd wait s = .next t_) : s.ChangesOnly ps t_ := by
  unfold execPwrfailEpisodeEnd at e
  refine State.after_changes (List.Subset.trans (by decide) hm) e ?_
  intro _ hu
  dsimp only
  apply State.refreshSets_changes (List.Subset.trans (by decide) hm)
  exact State.eachTile_changes (State.ChangesOnly.record hu
    (.inl rfl) (.inl rfl) (.inl rfl) (.inl rfl) (.inl rfl) (.inl rfl) (.inl rfl) (.inr (hm (by decide))) (.inl rfl) (.inl rfl) (.inl rfl) (.inr (hm (by decide)))) fun _ _ h => State.flushDeferred_changes (List.Subset.trans (by decide) hm) _ h

theorem execSysclkStop_changes {ps : List Part} (hm : ([.time, .free, .heads, .tiles, .ports, .sets, .atria, .flashes, .boot, .pkg, .pins, .smb, .shadows] : List Part) ⊆ ps)
    (wait : ℕ) {s t_ : State}
    (e : execSysclkStop wait s = .next t_) : s.ChangesOnly ps t_ := by
  unfold execSysclkStop at e
  refine State.afterIn_changes (List.Subset.trans (by decide) hm) e ?_
  intro _ hu
  extract_lets +onlyGivenNames -merge -useContext -lift x1
  have hx1 : s.ChangesOnly ps x1 := by
    unfold x1
    apply State.coldReset_changes (List.Subset.trans (by decide) hm)
    apply State.interruptAppend_changes (List.Subset.trans (by decide) hm)
    exact hu
  refine State.ChangesOnly.record ?_ (.inl rfl) (.inl rfl) (.inl rfl) (.inl rfl) (.inl rfl) (.inl rfl) (.inl rfl) (.inr (hm (by decide))) (.inl rfl) (.inl rfl) (.inl rfl) (.inr (hm (by decide)))
  exact hx1

theorem execRefclkStop_changes {ps : List Part} (hm : ([.time, .heads, .tiles, .ports, .atria, .pkg] : List Part) ⊆ ps)
    (wait : ℕ) {s t_ : State}
    (e : execRefclkStop wait s = .next t_) : s.ChangesOnly ps t_ := by
  unfold execRefclkStop at e
  refine State.after_changes (List.Subset.trans (by decide) hm) e ?_
  intro _ hu
  dsimp only
  apply State.ChangesOnly.foldl
  · refine State.eachHead_changes hu fun _ _ h => ?_
    have h2 := fun x => State.onHead_changes (ps := ps) (List.Subset.trans (by decide) hm) x (·.w RiserReg.LANE_LOCK 0) h
    exact State.ChangesOnly.ite (State.linkLoss_changes (List.Subset.trans (by decide) hm) _ _ (h2 _)) (h2 _)
  · exact fun _ _ h => State.linkFalls_changes (List.Subset.trans (by decide) hm) _ h

theorem execBootPllLock_changes {ps : List Part} (hm : ([.time, .tiles, .atria, .boot] : List Part) ⊆ ps)
    (lock : PllLock) {s t_ : State}
    (e : execBootPllLock lock s = .next t_) : s.ChangesOnly ps t_ := by
  unfold execBootPllLock at e
  refine State.after_changes (List.Subset.trans (by decide) hm) e ?_
  intro _ hu
  dsimp only
  apply State.bothPut_changes (List.Subset.trans (by decide) hm)
  apply State.bothPut_changes (List.Subset.trans (by decide) hm)
  exact State.ChangesOnly.record hu
    (.inl rfl) (.inl rfl) (.inl rfl) (.inl rfl) (.inl rfl) (.inl rfl) (.inr (hm (by decide))) (.inl rfl) (.inl rfl) (.inl rfl) (.inl rfl) (.inl rfl)

theorem execTilesPowered_changes {ps : List Part} (hm : ([.time, .tiles, .atria, .boot] : List Part) ⊆ ps)
    (wait : ℕ) {s t_ : State}
    (e : execTilesPowered wait s = .next t_) : s.ChangesOnly ps t_ := by
  unfold execTilesPowered at e
  refine State.after_changes (List.Subset.trans (by decide) hm) e ?_
  intro _ hu
  dsimp only
  apply State.logPkg_changes (List.Subset.trans (by decide) hm)
  apply State.bootLease_changes (List.Subset.trans (by decide) hm)
  apply State.startTime_changes (List.Subset.trans (by decide) hm)
  refine State.eachTile_changes ?_ fun _ _ h => State.ChangesOnly.ite ?_ h
  · apply State.bothPut_changes (List.Subset.trans (by decide) hm)
    exact State.ChangesOnly.record hu
      (.inl rfl) (.inl rfl) (.inl rfl) (.inl rfl) (.inl rfl) (.inl rfl) (.inr (hm (by decide))) (.inl rfl) (.inl rfl) (.inl rfl) (.inl rfl) (.inl rfl)
  · apply State.onTile_changes (List.Subset.trans (by decide) hm)
    apply State.resumeLog_changes (List.Subset.trans (by decide) hm)
    apply State.startLink_changes (List.Subset.trans (by decide) hm)
    apply State.startLink_changes (List.Subset.trans (by decide) hm)
    exact State.startLink_changes (List.Subset.trans (by decide) hm) _ _ h

theorem execBootRecordScan_changes {ps : List Part} (hm : ([.time, .tiles, .atria, .flashes, .boot] : List Part) ⊆ ps)
    (wait : ℕ) {s t_ : State}
    (e : execBootRecordScan wait s = .next t_) : s.ChangesOnly ps t_ := by
  unfold execBootRecordScan at e
  refine State.after_changes (List.Subset.trans (by decide) hm) e ?_
  intro _ hu
  extract_lets +onlyGivenNames -merge -useContext -lift strap w s1 head
  clear_value head
  extract_lets +onlyGivenNames -merge -useContext -lift s2 count s3
  clear_value count
  have h1 : s.ChangesOnly ps s1 := State.noteRecordRead_changes (List.Subset.trans (by decide) hm) _
          (State.noteRecordRead_changes (List.Subset.trans (by decide) hm) _ hu)
  have h2 : s.ChangesOnly ps s2 := by
    unfold s2
    cases head
    · exact h1
    · exact State.copyRecords_changes (List.Subset.trans (by decide) hm) _ _ h1
  have h3 : s.ChangesOnly ps s3 := State.refreshWear_changes (List.Subset.trans (by decide) hm) _
    (State.bootReconcile_changes (List.Subset.trans (by decide) hm) h2)
  clear_value s3
  extract_lets +onlyGivenNames -merge -useContext -lift b4 s4
  have h4 : s.ChangesOnly ps s4 := by
    unfold s4
    refine State.ChangesOnly.record ?_
      (.inl rfl) (.inl rfl) (.inl rfl) (.inl rfl) (.inl rfl) (.inl rfl) (.inr (hm (by decide))) (.inl rfl) (.inl rfl) (.inl rfl) (.inl rfl) (.inl rfl)
    exact h3
  clear_value s4
  refine State.ChangesOnly.ite ?_ ?_
  · refine State.ChangesOnly.record (State.bothPut_changes (List.Subset.trans (by decide) hm) _ _ (State.bothPut_changes (List.Subset.trans (by decide) hm) _ _ h4))
      (.inl rfl) (.inl rfl) (.inl rfl) (.inl rfl) (.inl rfl) (.inl rfl) (.inr (hm (by decide))) (.inl rfl) (.inl rfl) (.inl rfl) (.inl rfl) (.inl rfl)
  · extract_lets +onlyGivenNames -merge -useContext -lift b5 s5
    have h5 : s.ChangesOnly ps s5 := by
      unfold s5
      refine State.ChangesOnly.record ?_
        (.inl rfl) (.inl rfl) (.inl rfl) (.inl rfl) (.inl rfl) (.inl rfl) (.inr (hm (by decide))) (.inl rfl) (.inl rfl) (.inl rfl) (.inl rfl) (.inl rfl)
      exact h4
    clear_value s5
    exact State.ChangesOnly.ite (State.onFlash_changes (List.Subset.trans (by decide) hm) _ _ h5)
            (State.onFlash_changes (List.Subset.trans (by decide) hm) _ _ (State.onFlash_changes (List.Subset.trans (by decide) hm) _ _ h5))

theorem execCandidateVerify_changes {ps : List Part} (hm : ([.time, .tiles, .atria, .flashes, .boot] : List Part) ⊆ ps)
    (reads : FlashReads) {s t_ : State}
    (e : execCandidateVerify reads s = .next t_) : s.ChangesOnly ps t_ := by
  unfold execCandidateVerify at e
  refine State.after_changes (List.Subset.trans (by decide) hm) e ?_
  intro _ hu
  dsimp only
  split
  · exact State.bootFails_changes (List.Subset.trans (by decide) hm) _ hu
  · have h0 := fun w fl slot => State.ChangesOnly.ite (c := reads.ok = true)
      (State.noteCheck_changes (ps := ps) (List.Subset.trans (by decide) hm) w fl slot hu) hu
    have h := fun w fl slot v => State.bothPut_changes (ps := ps) (List.Subset.trans (by decide) hm) BootReg.BOOT_TRY v (h0 w fl slot)
    have h2 := fun w fl slot v b => State.ChangesOnly.record (h w fl slot v) (x_boot := b)
      (.inl rfl) (.inl rfl) (.inl rfl) (.inl rfl) (.inl rfl) (.inl rfl) (.inr (hm (by decide))) (.inl rfl) (.inl rfl) (.inl rfl) (.inl rfl) (.inl rfl)
    refine State.ChangesOnly.ite ?_ (State.ChangesOnly.ite ?_ ?_)
    · exact State.useCandidate_changes (List.Subset.trans (by decide) hm) _ _ _ (h2 _ _ _ _ _)
    · exact State.bootFails_changes (List.Subset.trans (by decide) hm) _ (h2 _ _ _ _ _)
    · exact h2 _ _ _ _ _

theorem execSectionLoad_changes {ps : List Part} (hm : ([.time, .free, .heads, .tiles, .ports, .sets, .atria, .flashes, .boot, .pkg, .fuses, .smb, .shadows] : List Part) ⊆ ps)
    (wait : ℕ) {s t_ : State}
    (e : execSectionLoad wait s = .next t_) : s.ChangesOnly ps t_ := by
  unfold execSectionLoad at e
  refine State.after_changes (List.Subset.trans (by decide) hm) e ?_
  intro _ hu
  extract_lets s1 s2 s3 s4 s5
  have h1 : s.ChangesOnly ps s1 := State.bothPut_changes (List.Subset.trans (by decide) hm) _ _ hu
  have h2 : s.ChangesOnly ps s2 := State.ChangesOnly.foldl h1 fun _ _ h => State.onSet_changes (List.Subset.trans (by decide) hm) _ _ h
  have h3 : s.ChangesOnly ps s3 := by
    refine State.eachTile_changes h2 fun t u h => State.ChangesOnly.ite ?_ (State.gateOff_changes (List.Subset.trans (by decide) hm) _ h)
    have hl : s.ChangesOnly ps (([0, 1, 2] : List (Fin 3)).foldl (fun (s : State) (k : Fin 3) =>
        if s.tileEnabled (warpFar t k) then s else s.onTile t (·.w (LinkReg.LSTATE k) 3)) u) :=
      State.ChangesOnly.foldl h fun _ _ g => State.ChangesOnly.ite g
              (State.onTile_changes (List.Subset.trans (by decide) hm) _ _ g)
    exact State.ChangesOnly.ite hl (State.loadTile_changes (List.Subset.trans (by decide) hm) _ hl)
  have h4 : s.ChangesOnly ps s4 := State.onFlash_changes (List.Subset.trans (by decide) hm) _ _ h3
  have h5 : s.ChangesOnly ps s5 := State.onFlash_changes (List.Subset.trans (by decide) hm) _ _ h4
  exact State.ChangesOnly.record h5
    (.inl rfl) (.inl rfl) (.inl rfl) (.inl rfl) (.inl rfl) (.inl rfl) (.inr (hm (by decide))) (.inl rfl) (.inl rfl) (.inl rfl) (.inl rfl) (.inl rfl)

theorem execSparingApply_changes {ps : List Part} (hm : ([.time, .heads, .tiles, .atria, .boot] : List Part) ⊆ ps)
    (wait : ℕ) {s t_ : State}
    (e : execSparingApply wait s = .next t_) : s.ChangesOnly ps t_ := by
  unfold execSparingApply at e
  refine State.after_changes (List.Subset.trans (by decide) hm) e ?_
  intro _ hu
  dsimp only
  refine State.ChangesOnly.record (State.eachTile_changes hu fun _ _ h =>
    State.ChangesOnly.ite (State.spareTile_changes (List.Subset.trans (by decide) hm) _ h) h)
    (.inl rfl) (.inl rfl) (.inl rfl) (.inl rfl) (.inl rfl) (.inl rfl) (.inr (hm (by decide))) (.inl rfl) (.inl rfl) (.inl rfl) (.inl rfl) (.inl rfl)

theorem execRecordAppend_changes {ps : List Part} (hm : ([.time, .tiles, .atria, .boot] : List Part) ⊆ ps)
    (wait : ℕ) {s t_ : State}
    (e : execRecordAppend wait s = .next t_) : s.ChangesOnly ps t_ := by
  unfold execRecordAppend at e
  refine State.after_changes (List.Subset.trans (by decide) hm) e ?_
  intro _ hu
  dsimp only
  have h := State.noteOldEntry_changes (ps := ps) (List.Subset.trans (by decide) hm) hu
  refine State.ChangesOnly.ite (State.appendEntry_changes (List.Subset.trans (by decide) hm) _ h)
    (State.ChangesOnly.ite (State.appendEntry_changes (List.Subset.trans (by decide) hm) _ h) ?_)
  refine State.ChangesOnly.record (State.pset_changes (List.Subset.trans (by decide) hm) _ _
      (State.bothPut_changes (List.Subset.trans (by decide) hm) _ _ (State.bothPut_changes (List.Subset.trans (by decide) hm) _ _ h)))
    (.inl rfl) (.inl rfl) (.inl rfl) (.inl rfl) (.inl rfl) (.inl rfl) (.inr (hm (by decide))) (.inl rfl) (.inl rfl) (.inl rfl) (.inl rfl) (.inl rfl)

theorem execJournalReplay_changes {ps : List Part} (hm : ([.time, .tiles, .ports, .sets, .atria, .boot, .pkg] : List Part) ⊆ ps)
    (wait : ℕ) {s t_ : State}
    (e : execJournalReplay wait s = .next t_) : s.ChangesOnly ps t_ := by
  unfold execJournalReplay at e
  refine State.after_changes (List.Subset.trans (by decide) hm) e ?_
  intro _ hu
  extract_lets +onlyGivenNames -merge -useContext -lift x1
  have hx1 : s.ChangesOnly ps x1 := by
    unfold x1
    apply State.replaySets_changes (List.Subset.trans (by decide) hm)
    exact hu
  refine State.ChangesOnly.record ?_ (.inl rfl) (.inl rfl) (.inl rfl) (.inl rfl) (.inl rfl) (.inl rfl) (.inr (hm (by decide))) (.inl rfl) (.inl rfl) (.inl rfl) (.inl rfl) (.inl rfl)
  exact hx1

theorem execCoreRelease_changes {ps : List Part} (hm : ([.time, .heads, .tiles, .ports, .atria, .boot, .pkg] : List Part) ⊆ ps)
    (wait : ℕ) {s t_ : State}
    (e : execCoreRelease wait s = .next t_) : s.ChangesOnly ps t_ := by
  unfold execCoreRelease at e
  refine State.after_changes (List.Subset.trans (by decide) hm) e ?_
  intro _ hu
  dsimp only
  apply State.refreshPorts_changes (List.Subset.trans (by decide) hm)
  apply State.refreshSets_changes (List.Subset.trans (by decide) hm)
  refine State.ChangesOnly.record (State.eachTile_changes hu fun _ _ h =>
    State.ChangesOnly.ite (State.releaseTile_changes (List.Subset.trans (by decide) hm) _ h) h)
    (.inl rfl) (.inl rfl) (.inl rfl) (.inl rfl) (.inl rfl) (.inl rfl) (.inr (hm (by decide))) (.inl rfl) (.inl rfl) (.inl rfl) (.inl rfl) (.inl rfl)

theorem execTileReload_changes {ps : List Part} (hm : ([.time, .free, .heads, .tiles, .ports, .sets, .atria, .flashes, .boot, .pkg, .fuses, .smb, .shadows] : List Part) ⊆ ps)
    (wait : ℕ) (t : Fin 8) {s t_ : State}
    (e : execTileReload wait t s = .next t_) : s.ChangesOnly ps t_ := by
  unfold execTileReload at e
  refine State.after_changes (List.Subset.trans (by decide) hm) e ?_
  intro _ hu
  apply State.ChangesOnly.ite
  · apply State.reload_changes (List.Subset.trans (by decide) hm)
    exact hu
  · apply State.pset_changes (List.Subset.trans (by decide) hm)
    apply State.reloadEnds_changes (List.Subset.trans (by decide) hm)
    exact hu

theorem execSyncFlitSend_changes {ps : List Part} (hm : ([.time, .tiles, .atria] : List Part) ⊆ ps)
    (wait : ℕ) (w : Fin 2) {s t_ : State}
    (e : execSyncFlitSend wait w s = .next t_) : s.ChangesOnly ps t_ := by
  unfold execSyncFlitSend at e
  refine State.after_changes (List.Subset.trans (by decide) hm) e ?_
  intro _ hu
  apply State.syncSend_changes (List.Subset.trans (by decide) hm)
  exact hu

theorem execSyncFlitReceive_changes {ps : List Part} (hm : ([.time, .tiles] : List Part) ⊆ ps)
    (wait : ℕ) (t : Fin 8) {s t_ : State}
    (e : execSyncFlitReceive wait t s = .next t_) : s.ChangesOnly ps t_ := by
  unfold execSyncFlitReceive at e
  refine State.after_changes (List.Subset.trans (by decide) hm) e ?_
  intro _ hu
  apply State.syncReceive_changes (List.Subset.trans (by decide) hm)
  exact hu

theorem execSyncLost_changes {ps : List Part} (hm : ([.time, .tiles] : List Part) ⊆ ps)
    (wait : ℕ) (t : Fin 8) {s t_ : State}
    (e : execSyncLost wait t s = .next t_) : s.ChangesOnly ps t_ := by
  unfold execSyncLost at e
  refine State.after_changes (List.Subset.trans (by decide) hm) e ?_
  intro _ hu
  apply State.onTile_changes (List.Subset.trans (by decide) hm)
  exact hu

theorem execUpstreamFrame_changes {ps : List Part} (hm : ([.time, .heads, .tiles, .atria] : List Part) ⊆ ps)
    (wait : ℕ) (h : Fin 32) (l : LineRx) {s t_ : State}
    (e : execUpstreamFrame wait h l s = .next t_) : s.ChangesOnly ps t_ := by
  unfold execUpstreamFrame at e
  refine State.after_changes (List.Subset.trans (by decide) hm) e ?_
  intro _ hu
  exact State.lineFrame_changes (List.Subset.trans (by decide) hm) _ _ hu

theorem execHoldover_changes {ps : List Part} (hm : ([.time, .heads, .tiles] : List Part) ⊆ ps)
    (wait : ℕ) (h : Fin 32) {s t_ : State}
    (e : execHoldover wait h s = .next t_) : s.ChangesOnly ps t_ := by
  unfold execHoldover at e
  exact State.headAfter_changes (List.Subset.trans (by decide) hm) e

theorem execAngleLost_changes {ps : List Part} (hm : ([.time, .heads, .tiles] : List Part) ⊆ ps)
    (wait : ℕ) (h : Fin 32) {s t_ : State}
    (e : execAngleLost wait h s = .next t_) : s.ChangesOnly ps t_ := by
  unfold execAngleLost at e
  exact State.headAfter_changes (List.Subset.trans (by decide) hm) e

theorem execAlign_changes {ps : List Part} (hm : ([.time, .heads, .tiles, .atria, .shadows] : List Part) ⊆ ps)
    (req : Req) (h : Fin 32) (v : Word) {s t_ : State}
    (e : execAlign req h v s = .next t_) : s.ChangesOnly ps t_ := by
  unfold execAlign at e
  exact headRow_changes (List.Subset.trans (by decide) hm) e

theorem execDiscOffsetWrite_changes {ps : List Part} (hm : ([.time, .heads, .tiles, .atria, .shadows] : List Part) ⊆ ps)
    (req : Req) (h : Fin 32) (v : Word) {s t_ : State}
    (e : execDiscOffsetWrite req h v s = .next t_) : s.ChangesOnly ps t_ := by
  unfold execDiscOffsetWrite at e
  exact headWord_changes (List.Subset.trans (by decide) hm) e

theorem execVrateWrite_changes {ps : List Part} (hm : ([.time, .heads, .tiles, .atria, .shadows] : List Part) ⊆ ps)
    (req : Req) (h : Fin 32) (v : Word) {s t_ : State}
    (e : execVrateWrite req h v s = .next t_) : s.ChangesOnly ps t_ := by
  unfold execVrateWrite at e
  exact headWord_changes (List.Subset.trans (by decide) hm) e

theorem execAsrcWrite_changes {ps : List Part} (hm : ([.time, .heads, .tiles, .atria, .shadows] : List Part) ⊆ ps)
    (req : Req) (h : Fin 32) (v : Word) {s t_ : State}
    (e : execAsrcWrite req h v s = .next t_) : s.ChangesOnly ps t_ := by
  unfold execAsrcWrite at e
  exact headWord_changes (List.Subset.trans (by decide) hm) e

theorem execAngleSourceChange_changes {ps : List Part} (hm : ([.time, .heads, .tiles] : List Part) ⊆ ps)
    (wait : ℕ) (h : Fin 32) {s t_ : State}
    (e : execAngleSourceChange wait h s = .next t_) : s.ChangesOnly ps t_ := by
  unfold execAngleSourceChange at e
  refine State.after_changes (List.Subset.trans (by decide) hm) e ?_
  intro _ hu
  apply State.onHead_changes (List.Subset.trans (by decide) hm)
  exact hu

theorem execIndexCrossing_changes {ps : List Part} (hm : ([.time, .heads, .tiles, .atria] : List Part) ⊆ ps)
    (wait : ℕ) (h : Fin 32) {s t_ : State}
    (e : execIndexCrossing wait h s = .next t_) : s.ChangesOnly ps t_ := by
  unfold execIndexCrossing at e
  refine State.after_changes (List.Subset.trans (by decide) hm) e ?_
  intro _ hu
  apply State.crossing_changes (List.Subset.trans (by decide) hm)
  exact hu

theorem execStart_changes {ps : List Part} (hm : ([.time, .heads, .tiles, .atria, .shadows] : List Part) ⊆ ps)
    (req : Req) (h : Fin 32) (v : Word) {s t_ : State}
    (e : execStart req h v s = .next t_) : s.ChangesOnly ps t_ := by
  unfold execStart at e
  exact headRow_changes (List.Subset.trans (by decide) hm) e

theorem execStop_changes {ps : List Part} (hm : ([.time, .heads, .tiles, .atria, .shadows] : List Part) ⊆ ps)
    (req : Req) (h : Fin 32) (v : Word) {s t_ : State}
    (e : execStop req h v s = .next t_) : s.ChangesOnly ps t_ := by
  unfold execStop at e
  exact headRow_changes (List.Subset.trans (by decide) hm) e

theorem execSlot0SchedWrite_changes {ps : List Part} (hm : ([.time, .heads, .tiles, .atria, .shadows] : List Part) ⊆ ps)
    (req : Req) (h : Fin 32) (v : Word) {s t_ : State}
    (e : execSlot0SchedWrite req h v s = .next t_) : s.ChangesOnly ps t_ := by
  unfold execSlot0SchedWrite at e
  exact headWord_changes (List.Subset.trans (by decide) hm) e

theorem execSpareArm_changes {ps : List Part} (hm : ([.time, .heads, .tiles, .atria, .shadows] : List Part) ⊆ ps)
    (req : Req) (h : Fin 32) (v : Word) {s t_ : State}
    (e : execSpareArm req h v s = .next t_) : s.ChangesOnly ps t_ := by
  unfold execSpareArm at e
  exact headRow_changes (List.Subset.trans (by decide) hm) e

theorem execNop_changes {ps : List Part} (hm : ([.time, .heads, .tiles, .atria] : List Part) ⊆ ps)
    (wait : ℕ) (h : Fin 32) {s t_ : State}
    (e : execNop wait h s = .next t_) : s.ChangesOnly ps t_ := by
  unfold execNop at e
  exact State.firesIn_changes (List.Subset.trans (by decide) hm) e

theorem execSectorGateOpen_changes {ps : List Part} (hm : ([.time, .heads, .tiles, .atria] : List Part) ⊆ ps)
    (wait : ℕ) (h : Fin 32) {s t_ : State}
    (e : execSectorGateOpen wait h s = .next t_) : s.ChangesOnly ps t_ := by
  unfold execSectorGateOpen at e
  exact State.firesIn_changes (List.Subset.trans (by decide) hm) e

theorem execSectorGateClose_changes {ps : List Part} (hm : ([.time, .heads, .tiles, .atria] : List Part) ⊆ ps)
    (wait : ℕ) (h : Fin 32) {s t_ : State}
    (e : execSectorGateClose wait h s = .next t_) : s.ChangesOnly ps t_ := by
  unfold execSectorGateClose at e
  exact State.firesIn_changes (List.Subset.trans (by decide) hm) e

theorem execWriteGateOpen_changes {ps : List Part} (hm : ([.time, .heads, .tiles, .atria] : List Part) ⊆ ps)
    (wait : ℕ) (h : Fin 32) {s t_ : State}
    (e : execWriteGateOpen wait h s = .next t_) : s.ChangesOnly ps t_ := by
  unfold execWriteGateOpen at e
  exact State.fires_changes (List.Subset.trans (by decide) hm) e fun _ _ h => State.writeGateOpen_changes (List.Subset.trans (by decide) hm) _ _ _ h

theorem execWriteGateClose_changes {ps : List Part} (hm : ([.time, .heads, .tiles, .atria] : List Part) ⊆ ps)
    (wait : ℕ) (h : Fin 32) {s t_ : State}
    (e : execWriteGateClose wait h s = .next t_) : s.ChangesOnly ps t_ := by
  unfold execWriteGateClose at e
  exact State.firesIn_changes (List.Subset.trans (by decide) hm) e

theorem execWedgeWindowOpen_changes {ps : List Part} (hm : ([.time, .heads, .tiles, .atria] : List Part) ⊆ ps)
    (wait : ℕ) (h : Fin 32) {s t_ : State}
    (e : execWedgeWindowOpen wait h s = .next t_) : s.ChangesOnly ps t_ := by
  unfold execWedgeWindowOpen at e
  exact State.firesIn_changes (List.Subset.trans (by decide) hm) e

theorem execWedgeWindowClose_changes {ps : List Part} (hm : ([.time, .heads, .tiles, .atria] : List Part) ⊆ ps)
    (wait : ℕ) (h : Fin 32) {s t_ : State}
    (e : execWedgeWindowClose wait h s = .next t_) : s.ChangesOnly ps t_ := by
  unfold execWedgeWindowClose at e
  exact State.firesIn_changes (List.Subset.trans (by decide) hm) e

theorem execResyncExpect_changes {ps : List Part} (hm : ([.time, .heads, .tiles, .atria] : List Part) ⊆ ps)
    (wait : ℕ) (h : Fin 32) {s t_ : State}
    (e : execResyncExpect wait h s = .next t_) : s.ChangesOnly ps t_ := by
  unfold execResyncExpect at e
  exact State.firesIn_changes (List.Subset.trans (by decide) hm) e

theorem execLoopSample_changes {ps : List Part} (hm : ([.time, .heads, .tiles, .atria] : List Part) ⊆ ps)
    (wait : ℕ) (h : Fin 32) {s t_ : State}
    (e : execLoopSample wait h s = .next t_) : s.ChangesOnly ps t_ := by
  unfold execLoopSample at e
  exact State.firesIn_changes (List.Subset.trans (by decide) hm) e

theorem execCalWindowOpen_changes {ps : List Part} (hm : ([.time, .heads, .tiles, .atria] : List Part) ⊆ ps)
    (wait : ℕ) (h : Fin 32) {s t_ : State}
    (e : execCalWindowOpen wait h s = .next t_) : s.ChangesOnly ps t_ := by
  unfold execCalWindowOpen at e
  exact State.firesIn_changes (List.Subset.trans (by decide) hm) e

theorem execCalWindowClose_changes {ps : List Part} (hm : ([.time, .heads, .tiles, .atria] : List Part) ⊆ ps)
    (wait : ℕ) (h : Fin 32) {s t_ : State}
    (e : execCalWindowClose wait h s = .next t_) : s.ChangesOnly ps t_ := by
  unfold execCalWindowClose at e
  exact State.firesIn_changes (List.Subset.trans (by decide) hm) e

theorem execSparePoint_changes {ps : List Part} (hm : ([.time, .heads, .tiles, .atria] : List Part) ⊆ ps)
    (wait : ℕ) (h : Fin 32) {s t_ : State}
    (e : execSparePoint wait h s = .next t_) : s.ChangesOnly ps t_ := by
  unfold execSparePoint at e
  exact State.firesIn_changes (List.Subset.trans (by decide) hm) e

theorem execRetain_changes {ps : List Part} (hm : ([.time, .heads, .tiles, .atria] : List Part) ⊆ ps)
    (wait : ℕ) (h : Fin 32) {s t_ : State}
    (e : execRetain wait h s = .next t_) : s.ChangesOnly ps t_ := by
  unfold execRetain at e
  exact State.firesIn_changes (List.Subset.trans (by decide) hm) e

theorem execZoneSelect_changes {ps : List Part} (hm : ([.time, .heads, .tiles, .atria] : List Part) ⊆ ps)
    (wait : ℕ) (h : Fin 32) {s t_ : State}
    (e : execZoneSelect wait h s = .next t_) : s.ChangesOnly ps t_ := by
  unfold execZoneSelect at e
  exact State.firesIn_changes (List.Subset.trans (by decide) hm) e

theorem execMark_changes {ps : List Part} (hm : ([.time, .heads, .tiles, .atria] : List Part) ⊆ ps)
    (wait : ℕ) (h : Fin 32) {s t_ : State}
    (e : execMark wait h s = .next t_) : s.ChangesOnly ps t_ := by
  unfold execMark at e
  exact State.firesIn_changes (List.Subset.trans (by decide) hm) e

theorem execRevCheck_changes {ps : List Part} (hm : ([.time, .heads, .tiles, .atria] : List Part) ⊆ ps)
    (wait : ℕ) (h : Fin 32) {s t_ : State}
    (e : execRevCheck wait h s = .next t_) : s.ChangesOnly ps t_ := by
  unfold execRevCheck at e
  exact State.firesIn_changes (List.Subset.trans (by decide) hm) e

theorem execEndEvent_changes {ps : List Part} (hm : ([.time, .heads, .tiles, .atria] : List Part) ⊆ ps)
    (wait : ℕ) (h : Fin 32) {s t_ : State}
    (e : execEndEvent wait h s = .next t_) : s.ChangesOnly ps t_ := by
  unfold execEndEvent at e
  exact State.firesIn_changes (List.Subset.trans (by decide) hm) e

theorem execTrain_changes {ps : List Part} (hm : ([.time, .heads, .tiles, .atria, .shadows] : List Part) ⊆ ps)
    (req : Req) (h : Fin 32) (v : Word) {s t_ : State}
    (e : execTrain req h v s = .next t_) : s.ChangesOnly ps t_ := by
  unfold execTrain at e
  exact headRow_changes (List.Subset.trans (by decide) hm) e

theorem execAutoRetrain_changes {ps : List Part} (hm : ([.time, .heads, .tiles, .atria] : List Part) ⊆ ps)
    (wait : ℕ) (h : Fin 32) {s t_ : State}
    (e : execAutoRetrain wait h s = .next t_) : s.ChangesOnly ps t_ := by
  unfold execAutoRetrain at e
  refine State.after_changes (List.Subset.trans (by decide) hm) e ?_
  intro _ hu
  apply State.train_changes (List.Subset.trans (by decide) hm)
  exact hu

theorem execSilentElapsed_changes {ps : List Part} (hm : ([.time, .heads, .tiles] : List Part) ⊆ ps)
    (wait : ℕ) (h : Fin 32) {s t_ : State}
    (e : execSilentElapsed wait h s = .next t_) : s.ChangesOnly ps t_ := by
  unfold execSilentElapsed at e
  exact State.liveAfter_changes (List.Subset.trans (by decide) hm) e

theorem execLockElapsed_changes {ps : List Part} (hm : ([.time, .heads, .tiles] : List Part) ⊆ ps)
    (wait : ℕ) (h : Fin 32) (lanes : ℕ) {s t_ : State}
    (e : execLockElapsed wait h lanes s = .next t_) : s.ChangesOnly ps t_ := by
  unfold execLockElapsed at e
  exact State.liveAfter_changes (List.Subset.trans (by decide) hm) e

theorem execTrainingBlock_changes {ps : List Part} (hm : ([.time, .heads, .tiles] : List Part) ⊆ ps)
    (wait : ℕ) (h : Fin 32) (l : LineRx) {s t_ : State}
    (e : execTrainingBlock wait h l s = .next t_) : s.ChangesOnly ps t_ := by
  unfold execTrainingBlock at e
  exact State.liveAfter_changes (List.Subset.trans (by decide) hm) e

theorem execAlignTimeout_changes {ps : List Part} (hm : ([.time, .heads, .tiles] : List Part) ⊆ ps)
    (wait : ℕ) (h : Fin 32) {s t_ : State}
    (e : execAlignTimeout wait h s = .next t_) : s.ChangesOnly ps t_ := by
  unfold execAlignTimeout at e
  exact State.liveAfter_changes (List.Subset.trans (by decide) hm) e

theorem execMeasureDone_changes {ps : List Part} (hm : ([.time, .heads, .tiles] : List Part) ⊆ ps)
    (wait : ℕ) (h : Fin 32) {s t_ : State}
    (e : execMeasureDone wait h s = .next t_) : s.ChangesOnly ps t_ := by
  unfold execMeasureDone at e
  exact State.liveAfter_changes (List.Subset.trans (by decide) hm) e

theorem execMeasureTimeout_changes {ps : List Part} (hm : ([.time, .heads, .tiles] : List Part) ⊆ ps)
    (wait : ℕ) (h : Fin 32) {s t_ : State}
    (e : execMeasureTimeout wait h s = .next t_) : s.ChangesOnly ps t_ := by
  unfold execMeasureTimeout at e
  exact State.liveAfter_changes (List.Subset.trans (by decide) hm) e

theorem execFramedLock_changes {ps : List Part} (hm : ([.time, .heads, .tiles] : List Part) ⊆ ps)
    (wait : ℕ) (h : Fin 32) {s t_ : State}
    (e : execFramedLock wait h s = .next t_) : s.ChangesOnly ps t_ := by
  unfold execFramedLock at e
  exact State.liveAfter_changes (List.Subset.trans (by decide) hm) e

theorem execFrameTimeout_changes {ps : List Part} (hm : ([.time, .heads, .tiles] : List Part) ⊆ ps)
    (wait : ℕ) (h : Fin 32) {s t_ : State}
    (e : execFrameTimeout wait h s = .next t_) : s.ChangesOnly ps t_ := by
  unfold execFrameTimeout at e
  exact State.liveAfter_changes (List.Subset.trans (by decide) hm) e

theorem execLinkLoss_changes {ps : List Part} (hm : ([.time, .heads, .tiles, .atria] : List Part) ⊆ ps)
    (wait : ℕ) (h : Fin 32) (lanes : ℕ) {s t_ : State}
    (e : execLinkLoss wait h lanes s = .next t_) : s.ChangesOnly ps t_ := by
  unfold execLinkLoss at e
  refine State.afterIn_changes (List.Subset.trans (by decide) hm) e ?_
  intro _ hu
  apply State.linkLoss_changes (List.Subset.trans (by decide) hm)
  apply State.onHead_changes (List.Subset.trans (by decide) hm)
  exact hu

theorem execDownstreamFrame_changes {ps : List Part} (hm : ([.time, .heads, .tiles] : List Part) ⊆ ps)
    (wait : ℕ) (h : Fin 32) {s t_ : State}
    (e : execDownstreamFrame wait h s = .next t_) : s.ChangesOnly ps t_ := by
  unfold execDownstreamFrame at e
  refine State.after_changes (List.Subset.trans (by decide) hm) e ?_
  intro _ hu
  apply State.onHead_changes (List.Subset.trans (by decide) hm)
  exact hu

theorem execCmdLost_changes {ps : List Part} (hm : ([.time, .heads, .tiles] : List Part) ⊆ ps)
    (wait : ℕ) (h : Fin 32) {s t_ : State}
    (e : execCmdLost wait h s = .next t_) : s.ChangesOnly ps t_ := by
  unfold execCmdLost at e
  exact State.liveAfter_changes (List.Subset.trans (by decide) hm) e

theorem execBeamSampleDelivery_changes {ps : List Part} (hm : ([.time, .heads, .tiles, .atria] : List Part) ⊆ ps)
    (wait : ℕ) (h : Fin 32) (i : Fin 33) {s t_ : State}
    (e : execBeamSampleDelivery wait h i s = .next t_) : s.ChangesOnly ps t_ := by
  unfold execBeamSampleDelivery at e
  refine State.after_changes (List.Subset.trans (by decide) hm) e ?_
  intro _ hu
  apply State.deliver_changes (List.Subset.trans (by decide) hm)
  exact hu

theorem execDefectHoldRelease_changes {ps : List Part} (hm : ([.time, .heads, .tiles] : List Part) ⊆ ps)
    (wait : ℕ) (h : Fin 32) {s t_ : State}
    (e : execDefectHoldRelease wait h s = .next t_) : s.ChangesOnly ps t_ := by
  unfold execDefectHoldRelease at e
  exact State.liveAfter_changes (List.Subset.trans (by decide) hm) e

theorem execFwGo_changes {ps : List Part} (hm : ([.time, .heads, .tiles, .atria, .shadows] : List Part) ⊆ ps)
    (req : Req) (h : Fin 32) (v : Word) {s t_ : State}
    (e : execFwGo req h v s = .next t_) : s.ChangesOnly ps t_ := by
  unfold execFwGo at e
  exact headRow_changes (List.Subset.trans (by decide) hm) e

theorem execSafeCmd_changes {ps : List Part} (hm : ([.time, .heads, .tiles, .atria, .shadows] : List Part) ⊆ ps)
    (req : Req) (h : Fin 32) (v : Word) {s t_ : State}
    (e : execSafeCmd req h v s = .next t_) : s.ChangesOnly ps t_ := by
  unfold execSafeCmd at e
  exact headWord_changes (List.Subset.trans (by decide) hm) e

theorem execSafeRelease_changes {ps : List Part} (hm : ([.time, .heads, .tiles, .atria, .shadows] : List Part) ⊆ ps)
    (req : Req) (h : Fin 32) (v : Word) {s t_ : State}
    (e : execSafeRelease req h v s = .next t_) : s.ChangesOnly ps t_ := by
  unfold execSafeRelease at e
  exact headRow_changes (List.Subset.trans (by decide) hm) e

theorem execDecodeComplete_changes {ps : List Part} (hm : ([.time, .heads, .tiles, .atria] : List Part) ⊆ ps)
    (wait : ℕ) (h : Fin 32) (i : Fin 32) {s t_ : State}
    (e : execDecodeComplete wait h i s = .next t_) : s.ChangesOnly ps t_ := by
  unfold execDecodeComplete at e
  refine State.after_changes (List.Subset.trans (by decide) hm) e ?_
  intro _ hu
  apply State.decodeDone_changes (List.Subset.trans (by decide) hm)
  exact hu

theorem execClrStats_changes {ps : List Part} (hm : ([.time, .heads, .tiles, .atria, .shadows] : List Part) ⊆ ps)
    (req : Req) (h : Fin 32) (i : Fin 33) (v : Word) {s t_ : State}
    (e : execClrStats req h i v s = .next t_) : s.ChangesOnly ps t_ := by
  unfold execClrStats at e
  exact headRow_changes (List.Subset.trans (by decide) hm) e

theorem execRetryGo_changes {ps : List Part} (hm : ([.time, .heads, .tiles, .atria, .shadows] : List Part) ⊆ ps)
    (req : Req) (h : Fin 32) (v : Word) {s t_ : State}
    (e : execRetryGo req h v s = .next t_) : s.ChangesOnly ps t_ := by
  unfold execRetryGo at e
  exact headRow_changes (List.Subset.trans (by decide) hm) e

theorem execRelease_changes {ps : List Part} (hm : ([.time, .heads, .tiles, .atria, .shadows] : List Part) ⊆ ps)
    (req : Req) (h : Fin 32) (v : Word) {s t_ : State}
    (e : execRelease req h v s = .next t_) : s.ChangesOnly ps t_ := by
  unfold execRelease at e
  exact headRow_changes (List.Subset.trans (by decide) hm) e

theorem execReplayStart_changes {ps : List Part} (hm : ([.time, .heads, .tiles, .atria] : List Part) ⊆ ps)
    (wait : ℕ) (t : Fin 8) {s t_ : State}
    (e : execReplayStart wait t s = .next t_) : s.ChangesOnly ps t_ := by
  unfold execReplayStart at e
  refine State.after_changes (List.Subset.trans (by decide) hm) e ?_
  intro _ hu
  apply State.replayStart_changes (List.Subset.trans (by decide) hm)
  exact hu

theorem execHypothesisDone_changes {ps : List Part} (hm : ([.time, .heads, .tiles, .atria] : List Part) ⊆ ps)
    (wait : ℕ) (t : Fin 8) {s t_ : State}
    (e : execHypothesisDone wait t s = .next t_) : s.ChangesOnly ps t_ := by
  unfold execHypothesisDone at e
  refine State.after_changes (List.Subset.trans (by decide) hm) e ?_
  intro _ hu
  apply State.hypothesis_changes (List.Subset.trans (by decide) hm)
  exact hu

theorem execWrite_changes {ps : List Part} (hm : ([.time, .heads, .tiles, .atria] : List Part) ⊆ ps)
    (wait : ℕ) (h : Fin 32) {s t_ : State}
    (e : execWrite wait h s = .next t_) : s.ChangesOnly ps t_ := by
  unfold execWrite at e
  refine State.after_changes (List.Subset.trans (by decide) hm) e ?_
  intro _ hu
  apply State.takeDesc_changes (List.Subset.trans (by decide) hm)
  exact hu

theorem execVerify_changes {ps : List Part} (hm : ([.time, .heads, .tiles, .atria] : List Part) ⊆ ps)
    (wait : ℕ) (h : Fin 32) {s t_ : State}
    (e : execVerify wait h s = .next t_) : s.ChangesOnly ps t_ := by
  unfold execVerify at e
  refine State.after_changes (List.Subset.trans (by decide) hm) e ?_
  intro _ hu
  apply State.takeDesc_changes (List.Subset.trans (by decide) hm)
  exact hu

theorem execOpc_changes {ps : List Part} (hm : ([.time, .heads, .tiles, .atria] : List Part) ⊆ ps)
    (wait : ℕ) (h : Fin 32) {s t_ : State}
    (e : execOpc wait h s = .next t_) : s.ChangesOnly ps t_ := by
  unfold execOpc at e
  refine State.after_changes (List.Subset.trans (by decide) hm) e ?_
  intro _ hu
  apply State.takeDesc_changes (List.Subset.trans (by decide) hm)
  exact hu

theorem execPcaScan_changes {ps : List Part} (hm : ([.time, .heads, .tiles, .atria] : List Part) ⊆ ps)
    (wait : ℕ) (h : Fin 32) {s t_ : State}
    (e : execPcaScan wait h s = .next t_) : s.ChangesOnly ps t_ := by
  unfold execPcaScan at e
  refine State.after_changes (List.Subset.trans (by decide) hm) e ?_
  intro _ hu
  apply State.takeDesc_changes (List.Subset.trans (by decide) hm)
  exact hu

theorem execArmed_changes {ps : List Part} (hm : ([.time, .heads, .tiles, .atria] : List Part) ⊆ ps)
    (wait : ℕ) (h : Fin 32) {s t_ : State}
    (e : execArmed wait h s = .next t_) : s.ChangesOnly ps t_ := by
  unfold execArmed at e
  refine State.after_changes (List.Subset.trans (by decide) hm) e ?_
  intro _ hu
  apply State.onHead_changes (List.Subset.trans (by decide) hm)
  apply State.encodeTo_changes (List.Subset.trans (by decide) hm)
  exact hu

theorem execDescriptorComplete_changes {ps : List Part} (hm : ([.time, .heads, .tiles, .atria] : List Part) ⊆ ps)
    (wait : ℕ) (h : Fin 32) {s t_ : State}
    (e : execDescriptorComplete wait h s = .next t_) : s.ChangesOnly ps t_ := by
  unfold execDescriptorComplete at e
  refine State.after_changes (List.Subset.trans (by decide) hm) e ?_
  intro _ hu
  apply State.completeDesc_changes (List.Subset.trans (by decide) hm)
  exact hu

theorem execAbort_changes {ps : List Part} (hm : ([.time, .heads, .tiles, .atria, .shadows] : List Part) ⊆ ps)
    (req : Req) (h : Fin 32) (v : Word) {s t_ : State}
    (e : execAbort req h v s = .next t_) : s.ChangesOnly ps t_ := by
  unfold execAbort at e
  exact headRow_changes (List.Subset.trans (by decide) hm) e

theorem execStratGo_changes {ps : List Part} (hm : ([.time, .heads, .tiles, .atria, .shadows] : List Part) ⊆ ps)
    (req : Req) (h : Fin 32) (v : Word) {s t_ : State}
    (e : execStratGo req h v s = .next t_) : s.ChangesOnly ps t_ := by
  unfold execStratGo at e
  exact headRow_changes (List.Subset.trans (by decide) hm) e

theorem execStratLoadStart_changes {ps : List Part} (hm : ([.time, .heads, .tiles] : List Part) ⊆ ps)
    (wait : ℕ) (h : Fin 32) {s t_ : State}
    (e : execStratLoadStart wait h s = .next t_) : s.ChangesOnly ps t_ := by
  unfold execStratLoadStart at e
  exact State.liveAfter_changes (List.Subset.trans (by decide) hm) e

theorem execLoopSampleDue_changes {ps : List Part} (hm : ([.time, .heads, .tiles] : List Part) ⊆ ps)
    (wait : ℕ) (h : Fin 32) (n : Fin 24) {s t_ : State}
    (e : execLoopSampleDue wait h n s = .next t_) : s.ChangesOnly ps t_ := by
  unfold execLoopSampleDue at e
  exact State.liveAfter_changes (List.Subset.trans (by decide) hm) e

theorem execLoopEvaluation_changes {ps : List Part} (hm : ([.time, .heads, .tiles, .atria] : List Part) ⊆ ps)
    (wait : ℕ) (h : Fin 32) (n : Fin 24) {s t_ : State}
    (e : execLoopEvaluation wait h n s = .next t_) : s.ChangesOnly ps t_ := by
  unfold execLoopEvaluation at e
  refine State.after_changes (List.Subset.trans (by decide) hm) e ?_
  intro _ hu
  apply State.evaluateFirst_changes (List.Subset.trans (by decide) hm)
  exact hu

theorem execLoopClear_changes {ps : List Part} (hm : ([.time, .heads, .tiles, .atria, .shadows] : List Part) ⊆ ps)
    (req : Req) (h : Fin 32) (n : Fin 24) (v : Word) {s t_ : State}
    (e : execLoopClear req h n v s = .next t_) : s.ChangesOnly ps t_ := by
  unfold execLoopClear at e
  exact headRow_changes (List.Subset.trans (by decide) hm) e

theorem execLoopClrStats_changes {ps : List Part} (hm : ([.time, .heads, .tiles, .atria, .shadows] : List Part) ⊆ ps)
    (req : Req) (h : Fin 32) (n : Fin 24) (v : Word) {s t_ : State}
    (e : execLoopClrStats req h n v s = .next t_) : s.ChangesOnly ps t_ := by
  unfold execLoopClrStats at e
  exact headRow_changes (List.Subset.trans (by decide) hm) e

theorem execHcmdNop_changes {ps : List Part} (hm : ([.time, .heads, .tiles, .atria, .shadows] : List Part) ⊆ ps)
    (req : Req) (h : Fin 32) (v : Word) {s t_ : State}
    (e : execHcmdNop req h v s = .next t_) : s.ChangesOnly ps t_ := by
  unfold execHcmdNop at e
  exact headRow_changes (List.Subset.trans (by decide) hm) e

theorem execPark_changes {ps : List Part} (hm : ([.time, .heads, .tiles, .atria, .shadows] : List Part) ⊆ ps)
    (req : Req) (h : Fin 32) (v : Word) {s t_ : State}
    (e : execPark req h v s = .next t_) : s.ChangesOnly ps t_ := by
  unfold execPark at e
  exact headRow_changes (List.Subset.trans (by decide) hm) e

theorem execSpin_changes {ps : List Part} (hm : ([.time, .heads, .tiles, .atria, .shadows] : List Part) ⊆ ps)
    (req : Req) (h : Fin 32) (v : Word) {s t_ : State}
    (e : execSpin req h v s = .next t_) : s.ChangesOnly ps t_ := by
  unfold execSpin at e
  exact headRow_changes (List.Subset.trans (by decide) hm) e

theorem execFocusOn_changes {ps : List Part} (hm : ([.time, .heads, .tiles, .atria, .shadows] : List Part) ⊆ ps)
    (req : Req) (h : Fin 32) (v : Word) {s t_ : State}
    (e : execFocusOn req h v s = .next t_) : s.ChangesOnly ps t_ := by
  unfold execFocusOn at e
  exact headRow_changes (List.Subset.trans (by decide) hm) e

theorem execFocusOff_changes {ps : List Part} (hm : ([.time, .heads, .tiles, .atria, .shadows] : List Part) ⊆ ps)
    (req : Req) (h : Fin 32) (v : Word) {s t_ : State}
    (e : execFocusOff req h v s = .next t_) : s.ChangesOnly ps t_ := by
  unfold execFocusOff at e
  exact headRow_changes (List.Subset.trans (by decide) hm) e

theorem execTrackOn_changes {ps : List Part} (hm : ([.time, .heads, .tiles, .atria, .shadows] : List Part) ⊆ ps)
    (req : Req) (h : Fin 32) (v : Word) {s t_ : State}
    (e : execTrackOn req h v s = .next t_) : s.ChangesOnly ps t_ := by
  unfold execTrackOn at e
  exact headRow_changes (List.Subset.trans (by decide) hm) e

theorem execTrackOff_changes {ps : List Part} (hm : ([.time, .heads, .tiles, .atria, .shadows] : List Part) ⊆ ps)
    (req : Req) (h : Fin 32) (v : Word) {s t_ : State}
    (e : execTrackOff req h v s = .next t_) : s.ChangesOnly ps t_ := by
  unfold execTrackOff at e
  exact headRow_changes (List.Subset.trans (by decide) hm) e

theorem execSeek_changes {ps : List Part} (hm : ([.time, .heads, .tiles, .atria, .shadows] : List Part) ⊆ ps)
    (req : Req) (h : Fin 32) (v : Word) {s t_ : State}
    (e : execSeek req h v s = .next t_) : s.ChangesOnly ps t_ := by
  unfold execSeek at e
  exact headRow_changes (List.Subset.trans (by decide) hm) e

theorem execClearFault_changes {ps : List Part} (hm : ([.time, .heads, .tiles, .atria, .shadows] : List Part) ⊆ ps)
    (req : Req) (h : Fin 32) (v : Word) {s t_ : State}
    (e : execClearFault req h v s = .next t_) : s.ChangesOnly ps t_ := by
  unfold execClearFault at e
  exact headRow_changes (List.Subset.trans (by decide) hm) e

theorem execHcmdReserved_changes {ps : List Part} (hm : ([.time, .heads, .tiles, .atria, .shadows] : List Part) ⊆ ps)
    (req : Req) (h : Fin 32) (v : Word) {s t_ : State}
    (e : execHcmdReserved req h v s = .next t_) : s.ChangesOnly ps t_ := by
  unfold execHcmdReserved at e
  exact headRow_changes (List.Subset.trans (by decide) hm) e

theorem execFocusLock_changes {ps : List Part} (hm : ([.time, .heads, .tiles] : List Part) ⊆ ps)
    (wait : ℕ) (h : Fin 32) {s t_ : State}
    (e : execFocusLock wait h s = .next t_) : s.ChangesOnly ps t_ := by
  unfold execFocusLock at e
  exact State.headAfter_changes (List.Subset.trans (by decide) hm) e

theorem execFlockTimeout_changes {ps : List Part} (hm : ([.time, .heads, .tiles] : List Part) ⊆ ps)
    (wait : ℕ) (h : Fin 32) {s t_ : State}
    (e : execFlockTimeout wait h s = .next t_) : s.ChangesOnly ps t_ := by
  unfold execFlockTimeout at e
  exact State.headAfter_changes (List.Subset.trans (by decide) hm) e

theorem execFocusLost_changes {ps : List Part} (hm : ([.time, .heads, .tiles] : List Part) ⊆ ps)
    (wait : ℕ) (h : Fin 32) {s t_ : State}
    (e : execFocusLost wait h s = .next t_) : s.ChangesOnly ps t_ := by
  unfold execFocusLost at e
  exact State.headAfter_changes (List.Subset.trans (by decide) hm) e

theorem execSaSettled_changes {ps : List Part} (hm : ([.time, .heads, .tiles] : List Part) ⊆ ps)
    (wait : ℕ) (h : Fin 32) {s t_ : State}
    (e : execSaSettled wait h s = .next t_) : s.ChangesOnly ps t_ := by
  unfold execSaSettled at e
  exact State.headAfter_changes (List.Subset.trans (by decide) hm) e

theorem execSaTimeout_changes {ps : List Part} (hm : ([.time, .heads, .tiles] : List Part) ⊆ ps)
    (wait : ℕ) (h : Fin 32) {s t_ : State}
    (e : execSaTimeout wait h s = .next t_) : s.ChangesOnly ps t_ := by
  unfold execSaTimeout at e
  exact State.headAfter_changes (List.Subset.trans (by decide) hm) e

theorem execKickEnd_changes {ps : List Part} (hm : ([.time, .heads, .tiles] : List Part) ⊆ ps)
    (wait : ℕ) (h : Fin 32) {s t_ : State}
    (e : execKickEnd wait h s = .next t_) : s.ChangesOnly ps t_ := by
  unfold execKickEnd at e
  exact State.headAfter_changes (List.Subset.trans (by decide) hm) e

theorem execBrakeEnd_changes {ps : List Part} (hm : ([.time, .heads, .tiles] : List Part) ⊆ ps)
    (wait : ℕ) (h : Fin 32) {s t_ : State}
    (e : execBrakeEnd wait h s = .next t_) : s.ChangesOnly ps t_ := by
  unfold execBrakeEnd at e
  exact State.headAfter_changes (List.Subset.trans (by decide) hm) e

theorem execJumpTimeout_changes {ps : List Part} (hm : ([.time, .heads, .tiles] : List Part) ⊆ ps)
    (wait : ℕ) (h : Fin 32) {s t_ : State}
    (e : execJumpTimeout wait h s = .next t_) : s.ChangesOnly ps t_ := by
  unfold execJumpTimeout at e
  exact State.headAfter_changes (List.Subset.trans (by decide) hm) e

theorem execWedgeComplete_changes {ps : List Part} (hm : ([.time, .heads, .tiles] : List Part) ⊆ ps)
    (wait : ℕ) (h : Fin 32) {s t_ : State}
    (e : execWedgeComplete wait h s = .next t_) : s.ChangesOnly ps t_ := by
  unfold execWedgeComplete at e
  exact State.headAfter_changes (List.Subset.trans (by decide) hm) e

theorem execTrackingLock_changes {ps : List Part} (hm : ([.time, .heads, .tiles] : List Part) ⊆ ps)
    (wait : ℕ) (h : Fin 32) {s t_ : State}
    (e : execTrackingLock wait h s = .next t_) : s.ChangesOnly ps t_ := by
  unfold execTrackingLock at e
  exact State.headAfter_changes (List.Subset.trans (by decide) hm) e

theorem execTrackLost_changes {ps : List Part} (hm : ([.time, .heads, .tiles] : List Part) ⊆ ps)
    (wait : ℕ) (h : Fin 32) {s t_ : State}
    (e : execTrackLost wait h s = .next t_) : s.ChangesOnly ps t_ := by
  unfold execTrackLost at e
  exact State.headAfter_changes (List.Subset.trans (by decide) hm) e

theorem execSettleEnd_changes {ps : List Part} (hm : ([.time, .heads, .tiles] : List Part) ⊆ ps)
    (wait : ℕ) (h : Fin 32) {s t_ : State}
    (e : execSettleEnd wait h s = .next t_) : s.ChangesOnly ps t_ := by
  unfold execSettleEnd at e
  exact State.headAfter_changes (List.Subset.trans (by decide) hm) e

theorem execIdTimeout_changes {ps : List Part} (hm : ([.time, .heads, .tiles] : List Part) ⊆ ps)
    (wait : ℕ) (h : Fin 32) {s t_ : State}
    (e : execIdTimeout wait h s = .next t_) : s.ChangesOnly ps t_ := by
  unfold execIdTimeout at e
  exact State.headAfter_changes (List.Subset.trans (by decide) hm) e

theorem execTlockTimeout_changes {ps : List Part} (hm : ([.time, .heads, .tiles] : List Part) ⊆ ps)
    (wait : ℕ) (h : Fin 32) {s t_ : State}
    (e : execTlockTimeout wait h s = .next t_) : s.ChangesOnly ps t_ := by
  unfold execTlockTimeout at e
  exact State.headAfter_changes (List.Subset.trans (by decide) hm) e

theorem execHoldTimeout_changes {ps : List Part} (hm : ([.time, .heads, .tiles] : List Part) ⊆ ps)
    (wait : ℕ) (h : Fin 32) {s t_ : State}
    (e : execHoldTimeout wait h s = .next t_) : s.ChangesOnly ps t_ := by
  unfold execHoldTimeout at e
  exact State.headAfter_changes (List.Subset.trans (by decide) hm) e

theorem execAngleFault_changes {ps : List Part} (hm : ([.time, .heads, .tiles] : List Part) ⊆ ps)
    (wait : ℕ) (h : Fin 32) {s t_ : State}
    (e : execAngleFault wait h s = .next t_) : s.ChangesOnly ps t_ := by
  unfold execAngleFault at e
  exact State.headAfter_changes (List.Subset.trans (by decide) hm) e

theorem execStoppedConfirm_changes {ps : List Part} (hm : ([.time, .heads, .tiles] : List Part) ⊆ ps)
    (wait : ℕ) (h : Fin 32) {s t_ : State}
    (e : execStoppedConfirm wait h s = .next t_) : s.ChangesOnly ps t_ := by
  unfold execStoppedConfirm at e
  exact State.headAfter_changes (List.Subset.trans (by decide) hm) e

theorem execAtSpeed_changes {ps : List Part} (hm : ([.time, .heads, .tiles] : List Part) ⊆ ps)
    (wait : ℕ) (h : Fin 32) {s t_ : State}
    (e : execAtSpeed wait h s = .next t_) : s.ChangesOnly ps t_ := by
  unfold execAtSpeed at e
  exact State.headAfter_changes (List.Subset.trans (by decide) hm) e

theorem execSpinTimeout_changes {ps : List Part} (hm : ([.time, .heads, .tiles] : List Part) ⊆ ps)
    (wait : ℕ) (h : Fin 32) {s t_ : State}
    (e : execSpinTimeout wait h s = .next t_) : s.ChangesOnly ps t_ := by
  unfold execSpinTimeout at e
  exact State.headAfter_changes (List.Subset.trans (by decide) hm) e

theorem execVoltLimited_changes {ps : List Part} (hm : ([.time, .heads, .tiles] : List Part) ⊆ ps)
    (wait : ℕ) (h : Fin 32) {s t_ : State}
    (e : execVoltLimited wait h s = .next t_) : s.ChangesOnly ps t_ := by
  unfold execVoltLimited at e
  exact State.headAfter_changes (List.Subset.trans (by decide) hm) e

theorem execProbeSettleEnd_changes {ps : List Part} (hm : ([.time, .heads, .tiles] : List Part) ⊆ ps)
    (wait : ℕ) (h : Fin 32) {s t_ : State}
    (e : execProbeSettleEnd wait h s = .next t_) : s.ChangesOnly ps t_ := by
  unfold execProbeSettleEnd at e
  exact State.headAfter_changes (List.Subset.trans (by decide) hm) e

theorem execCatchTimeout_changes {ps : List Part} (hm : ([.time, .heads, .tiles] : List Part) ⊆ ps)
    (wait : ℕ) (h : Fin 32) {s t_ : State}
    (e : execCatchTimeout wait h s = .next t_) : s.ChangesOnly ps t_ := by
  unfold execCatchTimeout at e
  exact State.headAfter_changes (List.Subset.trans (by decide) hm) e

theorem execAlignRun_changes {ps : List Part} (hm : ([.time, .heads, .tiles, .atria, .shadows] : List Part) ⊆ ps)
    (req : Req) (h : Fin 32) (v : Word) {s t_ : State}
    (e : execAlignRun req h v s = .next t_) : s.ChangesOnly ps t_ := by
  unfold execAlignRun at e
  exact headRow_changes (List.Subset.trans (by decide) hm) e

theorem execAlignDone_changes {ps : List Part} (hm : ([.time, .heads, .tiles] : List Part) ⊆ ps)
    (wait : ℕ) (h : Fin 32) {s t_ : State}
    (e : execAlignDone wait h s = .next t_) : s.ChangesOnly ps t_ := by
  unfold execAlignDone at e
  exact State.headAfter_changes (List.Subset.trans (by decide) hm) e

theorem execScmdNop_changes {ps : List Part} (hm : ([.time, .heads, .tiles, .atria, .shadows] : List Part) ⊆ ps)
    (req : Req) (h : Fin 32) (v : Word) {s t_ : State}
    (e : execScmdNop req h v s = .next t_) : s.ChangesOnly ps t_ := by
  unfold execScmdNop at e
  exact headRow_changes (List.Subset.trans (by decide) hm) e

theorem execScmdReserved_changes {ps : List Part} (hm : ([.time, .heads, .tiles, .atria, .shadows] : List Part) ⊆ ps)
    (req : Req) (h : Fin 32) (v : Word) {s t_ : State}
    (e : execScmdReserved req h v s = .next t_) : s.ChangesOnly ps t_ := by
  unfold execScmdReserved at e
  exact headRow_changes (List.Subset.trans (by decide) hm) e

theorem execOvTrip_changes {ps : List Part} (hm : ([.time, .heads, .tiles, .atria] : List Part) ⊆ ps)
    (wait : ℕ) (h : Fin 32) {s t_ : State}
    (e : execOvTrip wait h s = .next t_) : s.ChangesOnly ps t_ := by
  unfold execOvTrip at e
  refine State.afterIn_changes (List.Subset.trans (by decide) hm) e ?_
  intro _ hu
  extract_lets +onlyGivenNames -merge -useContext -lift x1
  have hx1 : s.ChangesOnly ps x1 := by
    unfold x1
    apply State.onHead_changes (List.Subset.trans (by decide) hm)
    exact hu
  apply State.faultHead_changes (List.Subset.trans (by decide) hm)
  exact hx1

theorem execOcTrip_changes {ps : List Part} (hm : ([.time, .heads, .tiles, .atria] : List Part) ⊆ ps)
    (wait : ℕ) (h : Fin 32) {s t_ : State}
    (e : execOcTrip wait h s = .next t_) : s.ChangesOnly ps t_ := by
  unfold execOcTrip at e
  refine State.afterIn_changes (List.Subset.trans (by decide) hm) e ?_
  intro _ hu
  extract_lets +onlyGivenNames -merge -useContext -lift x1
  have hx1 : s.ChangesOnly ps x1 := by
    unfold x1
    apply State.onHead_changes (List.Subset.trans (by decide) hm)
    exact hu
  apply State.faultHead_changes (List.Subset.trans (by decide) hm)
  exact hx1

theorem execOvPersist_changes {ps : List Part} (hm : ([.time, .heads, .tiles, .atria] : List Part) ⊆ ps)
    (wait : ℕ) (h : Fin 32) {s t_ : State}
    (e : execOvPersist wait h s = .next t_) : s.ChangesOnly ps t_ := by
  unfold execOvPersist at e
  refine State.after_changes (List.Subset.trans (by decide) hm) e ?_
  intro _ hu
  extract_lets +onlyGivenNames -merge -useContext -lift x1
  have hx1 : s.ChangesOnly ps x1 := by
    unfold x1
    apply State.onHead_changes (List.Subset.trans (by decide) hm)
    exact hu
  apply State.log_changes (List.Subset.trans (by decide) hm)
  exact hx1

theorem execChopSilentLatch_changes {ps : List Part} (hm : ([.time, .heads, .tiles] : List Part) ⊆ ps)
    (wait : ℕ) (h : Fin 32) {s t_ : State}
    (e : execChopSilentLatch wait h s = .next t_) : s.ChangesOnly ps t_ := by
  unfold execChopSilentLatch at e
  exact State.headAfter_changes (List.Subset.trans (by decide) hm) e

theorem execChopSilent_changes {ps : List Part} (hm : ([.time, .heads, .tiles, .atria, .shadows] : List Part) ⊆ ps)
    (req : Req) (h : Fin 32) (v : Word) {s t_ : State}
    (e : execChopSilent req h v s = .next t_) : s.ChangesOnly ps t_ := by
  unfold execChopSilent at e
  exact headRow_changes (List.Subset.trans (by decide) hm) e

theorem execStepTick_changes {ps : List Part} (hm : ([.time, .heads, .tiles] : List Part) ⊆ ps)
    (wait : ℕ) (h : Fin 32) {s t_ : State}
    (e : execStepTick wait h s = .next t_) : s.ChangesOnly ps t_ := by
  unfold execStepTick at e
  exact State.headAfter_changes (List.Subset.trans (by decide) hm) e

theorem execMove_changes {ps : List Part} (hm : ([.time, .heads, .tiles, .atria, .shadows] : List Part) ⊆ ps)
    (req : Req) (h : Fin 32) (g : Fin 2) (v : Word) {s t_ : State}
    (e : execMove req h g v s = .next t_) : s.ChangesOnly ps t_ := by
  unfold execMove at e
  exact headRow_changes (List.Subset.trans (by decide) hm) e

theorem execMcmdStop_changes {ps : List Part} (hm : ([.time, .heads, .tiles, .atria, .shadows] : List Part) ⊆ ps)
    (req : Req) (h : Fin 32) (g : Fin 2) (v : Word) {s t_ : State}
    (e : execMcmdStop req h g v s = .next t_) : s.ChangesOnly ps t_ := by
  unfold execMcmdStop at e
  exact headRow_changes (List.Subset.trans (by decide) hm) e

theorem execHalt_changes {ps : List Part} (hm : ([.time, .heads, .tiles, .atria, .shadows] : List Part) ⊆ ps)
    (req : Req) (h : Fin 32) (g : Fin 2) (v : Word) {s t_ : State}
    (e : execHalt req h g v s = .next t_) : s.ChangesOnly ps t_ := by
  unfold execHalt at e
  exact headRow_changes (List.Subset.trans (by decide) hm) e

theorem execHome_changes {ps : List Part} (hm : ([.time, .heads, .tiles, .atria, .shadows] : List Part) ⊆ ps)
    (req : Req) (h : Fin 32) (g : Fin 2) (v : Word) {s t_ : State}
    (e : execHome req h g v s = .next t_) : s.ChangesOnly ps t_ := by
  unfold execHome at e
  exact headRow_changes (List.Subset.trans (by decide) hm) e

theorem execRebase_changes {ps : List Part} (hm : ([.time, .heads, .tiles, .atria, .shadows] : List Part) ⊆ ps)
    (req : Req) (h : Fin 32) (g : Fin 2) (v : Word) {s t_ : State}
    (e : execRebase req h g v s = .next t_) : s.ChangesOnly ps t_ := by
  unfold execRebase at e
  exact headRow_changes (List.Subset.trans (by decide) hm) e

theorem execMcmdNop_changes {ps : List Part} (hm : ([.time, .heads, .tiles, .atria, .shadows] : List Part) ⊆ ps)
    (req : Req) (h : Fin 32) (g : Fin 2) (v : Word) {s t_ : State}
    (e : execMcmdNop req h g v s = .next t_) : s.ChangesOnly ps t_ := by
  unfold execMcmdNop at e
  exact headRow_changes (List.Subset.trans (by decide) hm) e

theorem execMcmdReserved_changes {ps : List Part} (hm : ([.time, .heads, .tiles, .atria, .shadows] : List Part) ⊆ ps)
    (req : Req) (h : Fin 32) (g : Fin 2) (v : Word) {s t_ : State}
    (e : execMcmdReserved req h g v s = .next t_) : s.ChangesOnly ps t_ := by
  unfold execMcmdReserved at e
  exact headRow_changes (List.Subset.trans (by decide) hm) e

theorem execStall_changes {ps : List Part} (hm : ([.time, .heads, .tiles, .atria] : List Part) ⊆ ps)
    (wait : ℕ) (h : Fin 32) (g : Fin 2) {s t_ : State}
    (e : execStall wait h g s = .next t_) : s.ChangesOnly ps t_ := by
  unfold execStall at e
  refine State.afterIn_changes (List.Subset.trans (by decide) hm) e ?_
  intro _ hu
  apply State.declareStall_changes (List.Subset.trans (by decide) hm)
  exact hu

theorem execLostStep_changes {ps : List Part} (hm : ([.time, .heads, .tiles] : List Part) ⊆ ps)
    (wait : ℕ) (h : Fin 32) (g : Fin 2) {s t_ : State}
    (e : execLostStep wait h g s = .next t_) : s.ChangesOnly ps t_ := by
  unfold execLostStep at e
  exact State.headAfter_changes (List.Subset.trans (by decide) hm) e

theorem execLimitDebounce_changes {ps : List Part} (hm : ([.time, .heads, .tiles, .atria] : List Part) ⊆ ps)
    (wait : ℕ) (h : Fin 32) (g : Fin 2) (hi : Bool) {s t_ : State}
    (e : execLimitDebounce wait h g hi s = .next t_) : s.ChangesOnly ps t_ := by
  unfold execLimitDebounce at e
  refine State.afterIn_changes (List.Subset.trans (by decide) hm) e ?_
  intro _ hu
  apply State.debounce_changes (List.Subset.trans (by decide) hm)
  exact hu

theorem execChatter_changes {ps : List Part} (hm : ([.time, .heads, .tiles] : List Part) ⊆ ps)
    (wait : ℕ) (h : Fin 32) (g : Fin 2) (hi : Bool) {s t_ : State}
    (e : execChatter wait h g hi s = .next t_) : s.ChangesOnly ps t_ := by
  unfold execChatter at e
  exact State.headAfter_changes (List.Subset.trans (by decide) hm) e

theorem execHoldCurrent_changes {ps : List Part} (hm : ([.time, .heads, .tiles] : List Part) ⊆ ps)
    (wait : ℕ) (h : Fin 32) (g : Fin 2) {s t_ : State}
    (e : execHoldCurrent wait h g s = .next t_) : s.ChangesOnly ps t_ := by
  unfold execHoldCurrent at e
  exact State.headAfter_changes (List.Subset.trans (by decide) hm) e

theorem execArm_changes {ps : List Part} (hm : ([.time, .heads, .tiles, .atria, .shadows] : List Part) ⊆ ps)
    (req : Req) (h : Fin 32) (v : Word) {s t_ : State}
    (e : execArm req h v s = .next t_) : s.ChangesOnly ps t_ := by
  unfold execArm at e
  exact headRow_changes (List.Subset.trans (by decide) hm) e

theorem execCancel_changes {ps : List Part} (hm : ([.time, .heads, .tiles, .atria, .shadows] : List Part) ⊆ ps)
    (req : Req) (h : Fin 32) (v : Word) {s t_ : State}
    (e : execCancel req h v s = .next t_) : s.ChangesOnly ps t_ := by
  unfold execCancel at e
  exact headRow_changes (List.Subset.trans (by decide) hm) e

theorem execSpanStart_changes {ps : List Part} (hm : ([.time, .heads, .tiles] : List Part) ⊆ ps)
    (wait : ℕ) (h : Fin 32) {s t_ : State}
    (e : execSpanStart wait h s = .next t_) : s.ChangesOnly ps t_ := by
  unfold execSpanStart at e
  exact State.headAfter_changes (List.Subset.trans (by decide) hm) e

theorem execInterp_changes {ps : List Part} (hm : ([.time, .heads, .tiles, .atria, .shadows] : List Part) ⊆ ps)
    (req : Req) (h : Fin 32) (v : Word) {s t_ : State}
    (e : execInterp req h v s = .next t_) : s.ChangesOnly ps t_ := by
  unfold execInterp at e
  exact headRow_changes (List.Subset.trans (by decide) hm) e

theorem execAutoInterp_changes {ps : List Part} (hm : ([.time, .heads, .tiles, .atria] : List Part) ⊆ ps)
    (wait : ℕ) (h : Fin 32) {s t_ : State}
    (e : execAutoInterp wait h s = .next t_) : s.ChangesOnly ps t_ := by
  unfold execAutoInterp at e
  refine State.after_changes (List.Subset.trans (by decide) hm) e ?_
  intro _ hu
  extract_lets +onlyGivenNames -merge -useContext -lift x1
  extract_lets +onlyGivenNames -merge -useContext -lift x2
  have hx2 : s.ChangesOnly ps x2 := by
    unfold x2
    apply State.onHead_changes (List.Subset.trans (by decide) hm)
    exact hu
  apply State.ChangesOnly.ite
  · apply State.calRequest_changes (List.Subset.trans (by decide) hm)
    exact hx2
  · exact hx2

theorem execInterpDone_changes {ps : List Part} (hm : ([.time, .heads, .tiles, .atria] : List Part) ⊆ ps)
    (wait : ℕ) (h : Fin 32) {s t_ : State}
    (e : execInterpDone wait h s = .next t_) : s.ChangesOnly ps t_ := by
  unfold execInterpDone at e
  refine State.after_changes (List.Subset.trans (by decide) hm) e ?_
  intro _ hu
  apply State.calNext_changes (List.Subset.trans (by decide) hm)
  apply State.onHead_changes (List.Subset.trans (by decide) hm)
  exact hu

theorem execCommit_changes {ps : List Part} (hm : ([.time, .heads, .tiles, .atria, .shadows] : List Part) ⊆ ps)
    (req : Req) (h : Fin 32) (v : Word) {s t_ : State}
    (e : execCommit req h v s = .next t_) : s.ChangesOnly ps t_ := by
  unfold execCommit at e
  exact headRow_changes (List.Subset.trans (by decide) hm) e

theorem execCommitDone_changes {ps : List Part} (hm : ([.time, .heads, .tiles, .atria] : List Part) ⊆ ps)
    (wait : ℕ) (h : Fin 32) {s t_ : State}
    (e : execCommitDone wait h s = .next t_) : s.ChangesOnly ps t_ := by
  unfold execCommitDone at e
  refine State.after_changes (List.Subset.trans (by decide) hm) e ?_
  intro _ hu
  apply State.commitEnd_changes (List.Subset.trans (by decide) hm)
  exact hu

theorem execErase_changes {ps : List Part} (hm : ([.time, .heads, .tiles, .atria, .shadows] : List Part) ⊆ ps)
    (req : Req) (h : Fin 32) (v : Word) {s t_ : State}
    (e : execErase req h v s = .next t_) : s.ChangesOnly ps t_ := by
  unfold execErase at e
  exact headRow_changes (List.Subset.trans (by decide) hm) e

theorem execLoadInterp_changes {ps : List Part} (hm : ([.time, .heads, .tiles, .atria, .shadows] : List Part) ⊆ ps)
    (req : Req) (h : Fin 32) (v : Word) {s t_ : State}
    (e : execLoadInterp req h v s = .next t_) : s.ChangesOnly ps t_ := by
  unfold execLoadInterp at e
  exact headRow_changes (List.Subset.trans (by decide) hm) e

theorem execLoadSlot_changes {ps : List Part} (hm : ([.time, .heads, .tiles, .atria, .shadows] : List Part) ⊆ ps)
    (req : Req) (h : Fin 32) (v : Word) {s t_ : State}
    (e : execLoadSlot req h v s = .next t_) : s.ChangesOnly ps t_ := by
  unfold execLoadSlot at e
  exact headRow_changes (List.Subset.trans (by decide) hm) e

theorem execOnline_changes {ps : List Part} (hm : ([.time, .free, .heads, .tiles, .ports, .sets, .atria, .flashes, .boot, .pkg, .fuses, .smb, .shadows] : List Part) ⊆ ps)
    (req : Req) (n : Fin 8) (v : Word) {s t_ : State}
    (e : execOnline req n v s = .next t_) : s.ChangesOnly ps t_ := by
  unfold execOnline at e
  exact pkgRow_changes (List.Subset.trans (by decide) hm) e

theorem execAbsent_changes {ps : List Part} (hm : ([.time, .free, .heads, .tiles, .ports, .sets, .atria, .flashes, .boot, .pkg, .fuses, .smb, .shadows] : List Part) ⊆ ps)
    (req : Req) (n : Fin 8) (v : Word) {s t_ : State}
    (e : execAbsent req n v s = .next t_) : s.ChangesOnly ps t_ := by
  unfold execAbsent at e
  exact pkgRow_changes (List.Subset.trans (by decide) hm) e

theorem execPresent_changes {ps : List Part} (hm : ([.time, .free, .heads, .tiles, .ports, .sets, .atria, .flashes, .boot, .pkg, .fuses, .smb, .shadows] : List Part) ⊆ ps)
    (req : Req) (n : Fin 8) (v : Word) {s t_ : State}
    (e : execPresent req n v s = .next t_) : s.ChangesOnly ps t_ := by
  unfold execPresent at e
  exact pkgRow_changes (List.Subset.trans (by decide) hm) e

theorem execRebuildStart_changes {ps : List Part} (hm : ([.time, .free, .heads, .tiles, .ports, .sets, .atria, .flashes, .boot, .pkg, .fuses, .smb, .shadows] : List Part) ⊆ ps)
    (req : Req) (n : Fin 8) (v : Word) {s t_ : State}
    (e : execRebuildStart req n v s = .next t_) : s.ChangesOnly ps t_ := by
  unfold execRebuildStart at e
  exact pkgRow_changes (List.Subset.trans (by decide) hm) e

theorem execRebuildEnd_changes {ps : List Part} (hm : ([.time, .free, .heads, .tiles, .ports, .sets, .atria, .flashes, .boot, .pkg, .fuses, .smb, .shadows] : List Part) ⊆ ps)
    (req : Req) (n : Fin 8) (v : Word) {s t_ : State}
    (e : execRebuildEnd req n v s = .next t_) : s.ChangesOnly ps t_ := by
  unfold execRebuildEnd at e
  exact pkgRow_changes (List.Subset.trans (by decide) hm) e

theorem execSuspend_changes {ps : List Part} (hm : ([.time, .free, .heads, .tiles, .ports, .sets, .atria, .flashes, .boot, .pkg, .fuses, .smb, .shadows] : List Part) ⊆ ps)
    (req : Req) (n : Fin 8) (v : Word) {s t_ : State}
    (e : execSuspend req n v s = .next t_) : s.ChangesOnly ps t_ := by
  unfold execSuspend at e
  exact pkgRow_changes (List.Subset.trans (by decide) hm) e

theorem execResume_changes {ps : List Part} (hm : ([.time, .free, .heads, .tiles, .ports, .sets, .atria, .flashes, .boot, .pkg, .fuses, .smb, .shadows] : List Part) ⊆ ps)
    (req : Req) (n : Fin 8) (v : Word) {s t_ : State}
    (e : execResume req n v s = .next t_) : s.ChangesOnly ps t_ := by
  unfold execResume at e
  exact pkgRow_changes (List.Subset.trans (by decide) hm) e

theorem execSetCmdReserved_changes {ps : List Part} (hm : ([.time, .free, .heads, .tiles, .ports, .sets, .atria, .flashes, .boot, .pkg, .fuses, .smb, .shadows] : List Part) ⊆ ps)
    (req : Req) (n : Fin 8) (v : Word) {s t_ : State}
    (e : execSetCmdReserved req n v s = .next t_) : s.ChangesOnly ps t_ := by
  unfold execSetCmdReserved at e
  exact pkgRow_changes (List.Subset.trans (by decide) hm) e

theorem execCompute_changes {ps : List Part} (hm : ([.time, .tiles, .ports, .sets, .atria, .pkg] : List Part) ⊆ ps)
    (wait : ℕ) (t : Fin 8) {s t_ : State}
    (e : execCompute wait t s = .next t_) : s.ChangesOnly ps t_ := by
  unfold execCompute at e
  exact State.boltRow_changes (List.Subset.trans (by decide) hm) e

theorem execPatrol_changes {ps : List Part} (hm : ([.time, .tiles, .ports, .sets, .atria, .pkg] : List Part) ⊆ ps)
    (wait : ℕ) (t : Fin 8) {s t_ : State}
    (e : execPatrol wait t s = .next t_) : s.ChangesOnly ps t_ := by
  unfold execPatrol at e
  exact State.boltRow_changes (List.Subset.trans (by decide) hm) e

theorem execOpenBand_changes {ps : List Part} (hm : ([.time, .tiles, .ports, .sets, .atria, .pkg] : List Part) ⊆ ps)
    (wait : ℕ) (t : Fin 8) {s t_ : State}
    (e : execOpenBand wait t s = .next t_) : s.ChangesOnly ps t_ := by
  unfold execOpenBand at e
  exact State.boltRow_changes (List.Subset.trans (by decide) hm) e

theorem execDelta_changes {ps : List Part} (hm : ([.time, .tiles, .ports, .sets, .atria, .pkg] : List Part) ⊆ ps)
    (wait : ℕ) (t : Fin 8) {s t_ : State}
    (e : execDelta wait t s = .next t_) : s.ChangesOnly ps t_ := by
  unfold execDelta at e
  exact State.boltRow_changes (List.Subset.trans (by decide) hm) e

theorem execLand_changes {ps : List Part} (hm : ([.time, .tiles, .ports, .sets, .atria, .pkg] : List Part) ⊆ ps)
    (wait : ℕ) (t : Fin 8) {s t_ : State}
    (e : execLand wait t s = .next t_) : s.ChangesOnly ps t_ := by
  unfold execLand at e
  exact State.boltRow_changes (List.Subset.trans (by decide) hm) e

theorem execVoid_changes {ps : List Part} (hm : ([.time, .tiles, .ports, .sets, .atria, .pkg] : List Part) ⊆ ps)
    (wait : ℕ) (t : Fin 8) {s t_ : State}
    (e : execVoid wait t s = .next t_) : s.ChangesOnly ps t_ := by
  unfold execVoid at e
  exact State.boltRow_changes (List.Subset.trans (by decide) hm) e

theorem execRemap_changes {ps : List Part} (hm : ([.time, .tiles, .ports, .sets, .atria, .pkg] : List Part) ⊆ ps)
    (wait : ℕ) (t : Fin 8) {s t_ : State}
    (e : execRemap wait t s = .next t_) : s.ChangesOnly ps t_ := by
  unfold execRemap at e
  exact State.boltRow_changes (List.Subset.trans (by decide) hm) e

theorem execCkptSnap_changes {ps : List Part} (hm : ([.time, .tiles, .ports, .sets, .atria, .pkg] : List Part) ⊆ ps)
    (wait : ℕ) (t : Fin 8) {s t_ : State}
    (e : execCkptSnap wait t s = .next t_) : s.ChangesOnly ps t_ := by
  unfold execCkptSnap at e
  exact State.boltRow_changes (List.Subset.trans (by decide) hm) e

theorem execCheckpoint_changes {ps : List Part} (hm : ([.time, .tiles, .ports, .sets, .atria, .pkg] : List Part) ⊆ ps)
    (wait : ℕ) (t : Fin 8) {s t_ : State}
    (e : execCheckpoint wait t s = .next t_) : s.ChangesOnly ps t_ := by
  unfold execCheckpoint at e
  exact State.boltRow_changes (List.Subset.trans (by decide) hm) e

theorem execMapReplay_changes {ps : List Part} (hm : ([.time, .tiles, .ports, .sets, .atria, .pkg] : List Part) ⊆ ps)
    (wait : ℕ) (t : Fin 8) {s t_ : State}
    (e : execMapReplay wait t s = .next t_) : s.ChangesOnly ps t_ := by
  unfold execMapReplay at e
  exact State.boltRow_changes (List.Subset.trans (by decide) hm) e

theorem execBoltTypeReserved_changes {ps : List Part} (hm : ([.time, .tiles, .ports, .sets, .atria, .pkg] : List Part) ⊆ ps)
    (wait : ℕ) (t : Fin 8) {s t_ : State}
    (e : execBoltTypeReserved wait t s = .next t_) : s.ChangesOnly ps t_ := by
  unfold execBoltTypeReserved at e
  refine State.after_changes (List.Subset.trans (by decide) hm) e ?_
  intro _ hu
  apply State.takeBolt_changes (List.Subset.trans (by decide) hm)
  exact hu

theorem execStripeCommit_changes {ps : List Part} (hm : ([.time, .tiles, .ports, .sets, .atria, .pkg] : List Part) ⊆ ps)
    (wait : ℕ) (n : Fin 8) {s t_ : State}
    (e : execStripeCommit wait n s = .next t_) : s.ChangesOnly ps t_ := by
  unfold execStripeCommit at e
  refine State.after_changes (List.Subset.trans (by decide) hm) e ?_
  intro _ hu
  apply State.commitStripes_changes (List.Subset.trans (by decide) hm)
  exact hu

theorem execJournalRecordDurable_changes {ps : List Part} (hm : ([.time, .tiles, .ports, .sets, .atria, .pkg] : List Part) ⊆ ps)
    (wait : ℕ) (n : Fin 8) {s t_ : State}
    (e : execJournalRecordDurable wait n s = .next t_) : s.ChangesOnly ps t_ := by
  unfold execJournalRecordDurable at e
  refine State.after_changes (List.Subset.trans (by decide) hm) e ?_
  intro _ hu
  apply State.writeJournal_changes (List.Subset.trans (by decide) hm)
  exact hu

theorem execPaceWindowEnd_changes {ps : List Part} (hm : ([.time, .tiles] : List Part) ⊆ ps)
    (wait : ℕ) (t : Fin 8) {s t_ : State}
    (e : execPaceWindowEnd wait t s = .next t_) : s.ChangesOnly ps t_ := by
  unfold execPaceWindowEnd at e
  refine State.after_changes (List.Subset.trans (by decide) hm) e ?_
  intro _ hu
  apply State.onTile_changes (List.Subset.trans (by decide) hm)
  apply State.boltCount_changes (List.Subset.trans (by decide) hm)
  exact hu

theorem execCreditAccrual_changes {ps : List Part} (hm : ([.time, .tiles] : List Part) ⊆ ps)
    (wait : ℕ) (t : Fin 8) {s t_ : State}
    (e : execCreditAccrual wait t s = .next t_) : s.ChangesOnly ps t_ := by
  unfold execCreditAccrual at e
  refine State.after_changes (List.Subset.trans (by decide) hm) e ?_
  intro _ hu
  apply State.onTile_changes (List.Subset.trans (by decide) hm)
  exact hu

theorem execFabricFrameReceive_changes {ps : List Part} (hm : ([.time, .tiles, .ports, .atria, .pkg] : List Part) ⊆ ps)
    (wait : ℕ) (p : Fin 16) (f : FabricFrame) {s t_ : State}
    (e : execFabricFrameReceive wait p f s = .next t_) : s.ChangesOnly ps t_ := by
  unfold execFabricFrameReceive at e
  refine State.after_changes (List.Subset.trans (by decide) hm) e ?_
  intro _ hu
  apply State.receiveFrame_changes (List.Subset.trans (by decide) hm)
  exact hu

theorem execFabricLinkUp_changes {ps : List Part} (hm : ([.time, .tiles, .ports, .atria, .pkg] : List Part) ⊆ ps)
    (wait : ℕ) (p : Fin 16) {s t_ : State}
    (e : execFabricLinkUp wait p s = .next t_) : s.ChangesOnly ps t_ := by
  unfold execFabricLinkUp at e
  refine State.after_changes (List.Subset.trans (by decide) hm) e ?_
  intro _ hu
  apply State.refreshPorts_changes (List.Subset.trans (by decide) hm)
  apply State.pput_changes (List.Subset.trans (by decide) hm)
  exact hu

theorem execFabricLinkDown_changes {ps : List Part} (hm : ([.time, .tiles, .ports, .atria, .pkg] : List Part) ⊆ ps)
    (wait : ℕ) (p : Fin 16) {s t_ : State}
    (e : execFabricLinkDown wait p s = .next t_) : s.ChangesOnly ps t_ := by
  unfold execFabricLinkDown at e
  refine State.after_changes (List.Subset.trans (by decide) hm) e ?_
  intro _ hu
  apply State.linkFalls_changes (List.Subset.trans (by decide) hm)
  exact hu

theorem execPfcStorm_changes {ps : List Part} (hm : ([.time, .tiles, .ports, .atria, .pkg] : List Part) ⊆ ps)
    (wait : ℕ) (p : Fin 16) {s t_ : State}
    (e : execPfcStorm wait p s = .next t_) : s.ChangesOnly ps t_ := by
  unfold execPfcStorm at e
  refine State.after_changes (List.Subset.trans (by decide) hm) e ?_
  intro _ hu
  apply State.refreshPorts_changes (List.Subset.trans (by decide) hm)
  apply State.pflag_changes (List.Subset.trans (by decide) hm)
  exact hu

theorem execRateRecovery_changes {ps : List Part} (hm : ([.time, .tiles, .ports] : List Part) ⊆ ps)
    (wait : ℕ) (p : Fin 16) {s t_ : State}
    (e : execRateRecovery wait p s = .next t_) : s.ChangesOnly ps t_ := by
  unfold execRateRecovery at e
  refine State.after_changes (List.Subset.trans (by decide) hm) e ?_
  intro _ hu
  apply State.recoverRates_changes (List.Subset.trans (by decide) hm)
  exact hu

theorem execConnect_changes {ps : List Part} (hm : ([.time, .tiles, .ports, .atria, .pkg] : List Part) ⊆ ps)
    (wait : ℕ) (p : Fin 16) (q : Capsule) {s t_ : State}
    (e : execConnect wait p q s = .next t_) : s.ChangesOnly ps t_ := by
  unfold execConnect at e
  refine State.after_changes (List.Subset.trans (by decide) hm) e ?_
  intro _ hu
  apply State.connect_changes (List.Subset.trans (by decide) hm)
  exact hu

theorem execPropertyGet_changes {ps : List Part} (hm : ([.time, .free, .tiles, .ports, .atria, .pkg] : List Part) ⊆ ps)
    (wait : ℕ) (p : Fin 16) (q : Capsule) {s t_ : State}
    (e : execPropertyGet wait p q s = .next t_) : s.ChangesOnly ps t_ := by
  unfold execPropertyGet at e
  exact capsuleRow_changes (List.Subset.trans (by decide) hm) e

theorem execPropertySet_changes {ps : List Part} (hm : ([.time, .free, .tiles, .ports, .atria, .pkg] : List Part) ⊆ ps)
    (wait : ℕ) (p : Fin 16) (q : Capsule) {s t_ : State}
    (e : execPropertySet wait p q s = .next t_) : s.ChangesOnly ps t_ := by
  unfold execPropertySet at e
  exact capsuleRow_changes (List.Subset.trans (by decide) hm) e

theorem execDisconnect_changes {ps : List Part} (hm : ([.time, .free, .tiles, .ports, .atria, .pkg] : List Part) ⊆ ps)
    (wait : ℕ) (p : Fin 16) (q : Capsule) {s t_ : State}
    (e : execDisconnect wait p q s = .next t_) : s.ChangesOnly ps t_ := by
  unfold execDisconnect at e
  exact capsuleRow_changes (List.Subset.trans (by decide) hm) e

theorem execGetLogPage_changes {ps : List Part} (hm : ([.time, .free, .tiles, .ports, .atria, .pkg] : List Part) ⊆ ps)
    (wait : ℕ) (p : Fin 16) (q : Capsule) {s t_ : State}
    (e : execGetLogPage wait p q s = .next t_) : s.ChangesOnly ps t_ := by
  unfold execGetLogPage at e
  exact capsuleRow_changes (List.Subset.trans (by decide) hm) e

theorem execIdentify_changes {ps : List Part} (hm : ([.time, .free, .tiles, .ports, .atria, .pkg] : List Part) ⊆ ps)
    (wait : ℕ) (p : Fin 16) (q : Capsule) {s t_ : State}
    (e : execIdentify wait p q s = .next t_) : s.ChangesOnly ps t_ := by
  unfold execIdentify at e
  exact capsuleRow_changes (List.Subset.trans (by decide) hm) e

theorem execNvmeAbort_changes {ps : List Part} (hm : ([.time, .free, .tiles, .ports, .atria, .pkg] : List Part) ⊆ ps)
    (wait : ℕ) (p : Fin 16) (q : Capsule) {s t_ : State}
    (e : execNvmeAbort wait p q s = .next t_) : s.ChangesOnly ps t_ := by
  unfold execNvmeAbort at e
  exact capsuleRow_changes (List.Subset.trans (by decide) hm) e

theorem execSetFeatures_changes {ps : List Part} (hm : ([.time, .free, .tiles, .ports, .atria, .pkg] : List Part) ⊆ ps)
    (wait : ℕ) (p : Fin 16) (q : Capsule) {s t_ : State}
    (e : execSetFeatures wait p q s = .next t_) : s.ChangesOnly ps t_ := by
  unfold execSetFeatures at e
  exact capsuleRow_changes (List.Subset.trans (by decide) hm) e

theorem execGetFeatures_changes {ps : List Part} (hm : ([.time, .free, .tiles, .ports, .atria, .pkg] : List Part) ⊆ ps)
    (wait : ℕ) (p : Fin 16) (q : Capsule) {s t_ : State}
    (e : execGetFeatures wait p q s = .next t_) : s.ChangesOnly ps t_ := by
  unfold execGetFeatures at e
  exact capsuleRow_changes (List.Subset.trans (by decide) hm) e

theorem execAsynchronousEventRequest_changes {ps : List Part} (hm : ([.time, .free, .tiles, .ports, .atria, .pkg] : List Part) ⊆ ps)
    (wait : ℕ) (p : Fin 16) (q : Capsule) {s t_ : State}
    (e : execAsynchronousEventRequest wait p q s = .next t_) : s.ChangesOnly ps t_ := by
  unfold execAsynchronousEventRequest at e
  exact capsuleRow_changes (List.Subset.trans (by decide) hm) e

theorem execFirmwareCommit_changes {ps : List Part} (hm : ([.time, .free, .tiles, .ports, .atria, .pkg] : List Part) ⊆ ps)
    (wait : ℕ) (p : Fin 16) (q : Capsule) {s t_ : State}
    (e : execFirmwareCommit wait p q s = .next t_) : s.ChangesOnly ps t_ := by
  unfold execFirmwareCommit at e
  exact capsuleRow_changes (List.Subset.trans (by decide) hm) e

theorem execFirmwareImageDownload_changes {ps : List Part} (hm : ([.time, .free, .tiles, .ports, .atria, .pkg] : List Part) ⊆ ps)
    (wait : ℕ) (p : Fin 16) (q : Capsule) {s t_ : State}
    (e : execFirmwareImageDownload wait p q s = .next t_) : s.ChangesOnly ps t_ := by
  unfold execFirmwareImageDownload at e
  exact capsuleRow_changes (List.Subset.trans (by decide) hm) e

theorem execKeepAlive_changes {ps : List Part} (hm : ([.time, .free, .tiles, .ports, .atria, .pkg] : List Part) ⊆ ps)
    (wait : ℕ) (p : Fin 16) (q : Capsule) {s t_ : State}
    (e : execKeepAlive wait p q s = .next t_) : s.ChangesOnly ps t_ := by
  unfold execKeepAlive at e
  exact capsuleRow_changes (List.Subset.trans (by decide) hm) e

theorem execFlush_changes {ps : List Part} (hm : ([.time, .free, .tiles, .ports, .atria, .pkg] : List Part) ⊆ ps)
    (wait : ℕ) (p : Fin 16) (q : Capsule) {s t_ : State}
    (e : execFlush wait p q s = .next t_) : s.ChangesOnly ps t_ := by
  unfold execFlush at e
  exact capsuleRow_changes (List.Subset.trans (by decide) hm) e

theorem execNvmeWrite_changes {ps : List Part} (hm : ([.time, .free, .tiles, .ports, .atria, .pkg] : List Part) ⊆ ps)
    (wait : ℕ) (p : Fin 16) (q : Capsule) {s t_ : State}
    (e : execNvmeWrite wait p q s = .next t_) : s.ChangesOnly ps t_ := by
  unfold execNvmeWrite at e
  exact capsuleRow_changes (List.Subset.trans (by decide) hm) e

theorem execNvmeRead_changes {ps : List Part} (hm : ([.time, .free, .tiles, .ports, .atria, .pkg] : List Part) ⊆ ps)
    (wait : ℕ) (p : Fin 16) (q : Capsule) {s t_ : State}
    (e : execNvmeRead wait p q s = .next t_) : s.ChangesOnly ps t_ := by
  unfold execNvmeRead at e
  exact capsuleRow_changes (List.Subset.trans (by decide) hm) e

theorem execWriteZeroes_changes {ps : List Part} (hm : ([.time, .free, .tiles, .ports, .atria, .pkg] : List Part) ⊆ ps)
    (wait : ℕ) (p : Fin 16) (q : Capsule) {s t_ : State}
    (e : execWriteZeroes wait p q s = .next t_) : s.ChangesOnly ps t_ := by
  unfold execWriteZeroes at e
  exact capsuleRow_changes (List.Subset.trans (by decide) hm) e

theorem execNvmeVerify_changes {ps : List Part} (hm : ([.time, .free, .tiles, .ports, .atria, .pkg] : List Part) ⊆ ps)
    (wait : ℕ) (p : Fin 16) (q : Capsule) {s t_ : State}
    (e : execNvmeVerify wait p q s = .next t_) : s.ChangesOnly ps t_ := by
  unfold execNvmeVerify at e
  exact capsuleRow_changes (List.Subset.trans (by decide) hm) e

theorem execReadVersion_changes {ps : List Part} (hm : ([.time, .free, .tiles, .ports, .atria, .pkg] : List Part) ⊆ ps)
    (wait : ℕ) (p : Fin 16) (q : Capsule) {s t_ : State}
    (e : execReadVersion wait p q s = .next t_) : s.ChangesOnly ps t_ := by
  unfold execReadVersion at e
  exact capsuleRow_changes (List.Subset.trans (by decide) hm) e

theorem execInvalidOpcode_changes {ps : List Part} (hm : ([.time, .free, .tiles, .ports, .atria, .pkg] : List Part) ⊆ ps)
    (wait : ℕ) (p : Fin 16) (q : Capsule) {s t_ : State}
    (e : execInvalidOpcode wait p q s = .next t_) : s.ChangesOnly ps t_ := by
  unfold execInvalidOpcode at e
  exact capsuleRow_changes (List.Subset.trans (by decide) hm) e

theorem execLockGrant_changes {ps : List Part} (hm : ([.time, .free, .tiles, .ports, .atria, .pkg] : List Part) ⊆ ps)
    (wait : ℕ) (p : Fin 16) {s t_ : State}
    (e : execLockGrant wait p s = .next t_) : s.ChangesOnly ps t_ := by
  unfold execLockGrant at e
  exact cmdEvent_changes (List.Subset.trans (by decide) hm) e fun _ _ h => State.grant_changes (List.Subset.trans (by decide) hm) _ _ h

theorem execWriteDataStaged_changes {ps : List Part} (hm : ([.time, .free, .tiles, .ports, .atria, .pkg] : List Part) ⊆ ps)
    (wait : ℕ) (p : Fin 16) {s t_ : State}
    (e : execWriteDataStaged wait p s = .next t_) : s.ChangesOnly ps t_ := by
  unfold execWriteDataStaged at e
  exact cmdEvent_changes (List.Subset.trans (by decide) hm) e fun _ _ h => State.postWrite_changes (List.Subset.trans (by decide) hm) _ _ h

theorem execBind_changes {ps : List Part} (hm : ([.time, .free, .heads, .tiles, .ports, .atria, .pkg, .shadows] : List Part) ⊆ ps)
    (req : Req) (t : Fin 8) (v : Word) {s t_ : State}
    (e : execBind req t v s = .next t_) : s.ChangesOnly ps t_ := by
  unfold execBind at e
  exact tileRow_changes (List.Subset.trans (by decide) hm) e

theorem execDataReady_changes {ps : List Part} (hm : ([.time, .free, .heads, .tiles, .ports, .atria, .pkg, .shadows] : List Part) ⊆ ps)
    (req : Req) (t : Fin 8) (v : Word) {s t_ : State}
    (e : execDataReady req t v s = .next t_) : s.ChangesOnly ps t_ := by
  unfold execDataReady at e
  exact tileRow_changes (List.Subset.trans (by decide) hm) e

theorem execFailEntry_changes {ps : List Part} (hm : ([.time, .free, .heads, .tiles, .ports, .atria, .pkg, .shadows] : List Part) ⊆ ps)
    (req : Req) (t : Fin 8) (v : Word) {s t_ : State}
    (e : execFailEntry req t v s = .next t_) : s.ChangesOnly ps t_ := by
  unfold execFailEntry at e
  exact tileRow_changes (List.Subset.trans (by decide) hm) e

theorem execDoneEntry_changes {ps : List Part} (hm : ([.time, .free, .heads, .tiles, .ports, .atria, .pkg, .shadows] : List Part) ⊆ ps)
    (req : Req) (t : Fin 8) (v : Word) {s t_ : State}
    (e : execDoneEntry req t v s = .next t_) : s.ChangesOnly ps t_ := by
  unfold execDoneEntry at e
  exact tileRow_changes (List.Subset.trans (by decide) hm) e

theorem execWriteResolved_changes {ps : List Part} (hm : ([.time, .free, .tiles, .ports, .atria, .pkg] : List Part) ⊆ ps)
    (wait : ℕ) (p : Fin 16) {s t_ : State}
    (e : execWriteResolved wait p s = .next t_) : s.ChangesOnly ps t_ := by
  unfold execWriteResolved at e
  exact cmdEvent_changes (List.Subset.trans (by decide) hm) e fun _ _ h => State.resolveWrite_changes (List.Subset.trans (by decide) hm) _ _ h

theorem execReadTransferDone_changes {ps : List Part} (hm : ([.time, .free, .tiles, .ports, .atria, .pkg] : List Part) ⊆ ps)
    (wait : ℕ) (p : Fin 16) {s t_ : State}
    (e : execReadTransferDone wait p s = .next t_) : s.ChangesOnly ps t_ := by
  unfold execReadTransferDone at e
  exact cmdEvent_changes (List.Subset.trans (by decide) hm) e fun _ _ h => State.endRead_changes (List.Subset.trans (by decide) hm) _ _ h

theorem execKatoExpired_changes {ps : List Part} (hm : ([.time, .free, .tiles, .ports, .atria, .pkg] : List Part) ⊆ ps)
    (wait : ℕ) (p : Fin 16) {s t_ : State}
    (e : execKatoExpired wait p s = .next t_) : s.ChangesOnly ps t_ := by
  unfold execKatoExpired at e
  refine State.after_changes (List.Subset.trans (by decide) hm) e ?_
  intro _ hu
  apply State.katoExpire_changes (List.Subset.trans (by decide) hm)
  exact hu

theorem execApstTransition_changes {ps : List Part} (hm : ([.time, .tiles, .ports, .atria, .pkg] : List Part) ⊆ ps)
    (wait : ℕ) (p : Fin 16) {s t_ : State}
    (e : execApstTransition wait p s = .next t_) : s.ChangesOnly ps t_ := by
  unfold execApstTransition at e
  refine State.after_changes (List.Subset.trans (by decide) hm) e ?_
  intro _ hu
  apply State.apst_changes (List.Subset.trans (by decide) hm)
  exact hu

theorem execPsCurrentWrite_changes {ps : List Part} (hm : ([.time, .free, .heads, .tiles, .ports, .sets, .atria, .flashes, .boot, .pkg, .fuses, .smb, .shadows] : List Part) ⊆ ps)
    (req : Req) (v : Word) {s t_ : State}
    (e : execPsCurrentWrite req v s = .next t_) : s.ChangesOnly ps t_ := by
  unfold execPsCurrentWrite at e
  exact pkgWord_changes (List.Subset.trans (by decide) hm) e

theorem execCeLeak_changes {ps : List Part} (hm : ([.time, .tiles] : List Part) ⊆ ps)
    (wait : ℕ) (t : Fin 8) {s t_ : State}
    (e : execCeLeak wait t s = .next t_) : s.ChangesOnly ps t_ := by
  unfold execCeLeak at e
  refine State.after_changes (List.Subset.trans (by decide) hm) e ?_
  intro _ hu
  apply State.onTile_changes (List.Subset.trans (by decide) hm)
  exact hu

theorem execCeOvfClear_changes {ps : List Part} (hm : ([.time, .free, .heads, .tiles, .ports, .atria, .pkg, .shadows] : List Part) ⊆ ps)
    (req : Req) (t : Fin 8) (v : Word) {s t_ : State}
    (e : execCeOvfClear req t v s = .next t_) : s.ChangesOnly ps t_ := by
  unfold execCeOvfClear at e
  exact tileWord_changes (List.Subset.trans (by decide) hm) e

theorem execLogClr_changes {ps : List Part} (hm : ([.time, .free, .heads, .tiles, .ports, .atria, .pkg, .shadows] : List Part) ⊆ ps)
    (req : Req) (t : Fin 8) (v : Word) {s t_ : State}
    (e : execLogClr req t v s = .next t_) : s.ChangesOnly ps t_ := by
  unfold execLogClr at e
  exact tileWord_changes (List.Subset.trans (by decide) hm) e

theorem execDmaGo_changes {ps : List Part} (hm : ([.time, .free, .heads, .tiles, .ports, .atria, .pkg, .shadows] : List Part) ⊆ ps)
    (req : Req) (t : Fin 8) (c : Fin 8) (v : Word) {s t_ : State}
    (e : execDmaGo req t c v s = .next t_) : s.ChangesOnly ps t_ := by
  unfold execDmaGo at e
  exact tileRow_changes (List.Subset.trans (by decide) hm) e

theorem execDmaStop_changes {ps : List Part} (hm : ([.time, .free, .heads, .tiles, .ports, .atria, .pkg, .shadows] : List Part) ⊆ ps)
    (req : Req) (t : Fin 8) (c : Fin 8) (v : Word) {s t_ : State}
    (e : execDmaStop req t c v s = .next t_) : s.ChangesOnly ps t_ := by
  unfold execDmaStop at e
  exact tileRow_changes (List.Subset.trans (by decide) hm) e

theorem execDmaTransfer_changes {ps : List Part} (hm : ([.time, .tiles, .atria] : List Part) ⊆ ps)
    (wait : ℕ) (t : Fin 8) {s t_ : State}
    (e : execDmaTransfer wait t s = .next t_) : s.ChangesOnly ps t_ := by
  unfold execDmaTransfer at e
  refine State.after_changes (List.Subset.trans (by decide) hm) e ?_
  intro _ hu
  apply State.dmaStep_changes (List.Subset.trans (by decide) hm)
  exact hu

theorem execRepairAdd_changes {ps : List Part} (hm : ([.time, .free, .heads, .tiles, .ports, .atria, .pkg, .shadows] : List Part) ⊆ ps)
    (req : Req) (t : Fin 8) (v : Word) {s t_ : State}
    (e : execRepairAdd req t v s = .next t_) : s.ChangesOnly ps t_ := by
  unfold execRepairAdd at e
  exact tileRow_changes (List.Subset.trans (by decide) hm) e

theorem execRepairDel_changes {ps : List Part} (hm : ([.time, .free, .heads, .tiles, .ports, .atria, .pkg, .shadows] : List Part) ⊆ ps)
    (req : Req) (t : Fin 8) (v : Word) {s t_ : State}
    (e : execRepairDel req t v s = .next t_) : s.ChangesOnly ps t_ := by
  unfold execRepairDel at e
  exact tileRow_changes (List.Subset.trans (by decide) hm) e

theorem execInstructionFetch_changes {ps : List Part} (hm : ([.time, .free, .tiles, .atria, .shadows] : List Part) ⊆ ps)
    (wait : ℕ) (t : Fin 8) (c : Fin 2) (a : Fetch) {s t_ : State}
    (e : execInstructionFetch wait t c a s = .next t_) : s.ChangesOnly ps t_ := by
  unfold execInstructionFetch at e
  refine State.after_changes (List.Subset.trans (by decide) hm) e ?_
  intro _ hu
  have hr := State.coreRan_changes (ps := ps) (List.Subset.trans (by decide) hm) t c a.ran hu
  split
  · exact State.ChangesOnly.ofEq ‹_› hr
  · have h := fun f => State.onCore_changes (ps := ps) (List.Subset.trans (by decide) hm) t c f (State.ChangesOnly.ofEq ‹_› hr)
    dsimp only
    split
    · exact State.onCore_changes (List.Subset.trans (by decide) hm) _ _ _ (h _)
    · refine State.ChangesOnly.ite (State.coreTrap_changes (List.Subset.trans (by decide) hm) _ _ _ _ (h _))
        (State.ChangesOnly.ite (State.coreFault_changes (List.Subset.trans (by decide) hm) _ _ _ _ _ (h _)) ?_)
      exact State.fetchFrom_changes (List.Subset.trans (by decide) hm) _ _ _ (h _)

theorem execCoreLoad_changes {ps : List Part} (hm : ([.time, .free, .heads, .tiles, .ports, .sets, .atria, .flashes, .boot, .pkg, .fuses, .smb, .shadows] : List Part) ⊆ ps)
    (wait : ℕ) (t : Fin 8) (c : Fin 2) (a : CoreAccess) {s t_ : State}
    (e : execCoreLoad wait t c a s = .next t_) : s.ChangesOnly ps t_ := by
  unfold execCoreLoad at e
  refine State.after_changes (List.Subset.trans (by decide) hm) e ?_
  intro _ hu
  apply State.ChangesOnly.ite
  · apply State.coreTrap_changes (List.Subset.trans (by decide) hm)
    exact hu
  · apply State.ChangesOnly.ite
    · apply State.coreFault_changes (List.Subset.trans (by decide) hm)
      exact hu
    · apply State.readRegion_changes (List.Subset.trans (by decide) hm)
      apply State.drainFor_changes (List.Subset.trans (by decide) hm)
      exact hu

theorem execCoreStore_changes {ps : List Part} (hm : ([.time, .free, .heads, .tiles, .ports, .sets, .atria, .flashes, .boot, .pkg, .fuses, .smb, .shadows] : List Part) ⊆ ps)
    (wait : ℕ) (t : Fin 8) (c : Fin 2) (a : CoreAccess) {s t_ : State}
    (e : execCoreStore wait t c a s = .next t_) : s.ChangesOnly ps t_ := by
  unfold execCoreStore at e
  refine State.after_changes (List.Subset.trans (by decide) hm) e ?_
  intro _ hu
  extract_lets +onlyGivenNames -merge -useContext -lift x1
  apply State.ChangesOnly.ite
  · apply State.coreTrap_changes (List.Subset.trans (by decide) hm)
    exact hu
  · apply State.ChangesOnly.ite
    · apply State.coreFault_changes (List.Subset.trans (by decide) hm)
      exact hu
    · split
      · apply State.writeTcm_changes (List.Subset.trans (by decide) hm)
        exact hu
      · apply State.ChangesOnly.ite
        · apply State.coreFault_changes (List.Subset.trans (by decide) hm)
          exact hu
        · apply State.bufferStore_changes (List.Subset.trans (by decide) hm)
          exact hu
      · have h := fun l n => State.afterFill_changes (ps := ps) (List.Subset.trans (by decide) hm) t c l n hu
        split
        · exact State.ChangesOnly.ofEq ‹_› (h _ _)
        · apply State.storeHit_changes (List.Subset.trans (by decide) hm)
          apply State.bufferStore_changes (List.Subset.trans (by decide) hm)
          exact State.ChangesOnly.ofEq ‹_› (h _ _)
      · apply State.coreFault_changes (List.Subset.trans (by decide) hm)
        exact hu

theorem execAmo_changes {ps : List Part} (hm : ([.time, .free, .heads, .tiles, .ports, .sets, .atria, .flashes, .boot, .pkg, .fuses, .smb, .shadows] : List Part) ⊆ ps)
    (wait : ℕ) (t : Fin 8) (c : Fin 2) (op : AmoOp) (a : CoreAccess) {s t_ : State}
    (e : execAmo wait t c op a s = .next t_) : s.ChangesOnly ps t_ := by
  unfold execAmo at e
  refine State.after_changes (List.Subset.trans (by decide) hm) e ?_
  intro _ hu
  dsimp only
  have hf := fun (u : State) (h : s.ChangesOnly ps u) d a b => State.coreFault_changes (ps := ps) (List.Subset.trans (by decide) hm) t c d a b h
  have ha := fun (u : State) (h : s.ChangesOnly ps u) r n old =>
    State.amoDone_changes (ps := ps) (List.Subset.trans (by decide) hm) t c op r a n old h
  refine State.ChangesOnly.ite (State.coreTrap_changes (List.Subset.trans (by decide) hm) _ _ _ _ hu)
    (State.ChangesOnly.ite (hf _ hu _ _ _) ?_)
  split
  · rename_i d off _
    have h := fun n => State.readTcm_changes (ps := ps) (List.Subset.trans (by decide) hm) t d 1 off n hu
    split
    · exact ha _ (State.ChangesOnly.ofEq ‹_› (h _)) _ _ _
    · exact hf _ (State.ChangesOnly.ofEq ‹_› (h _)) _ _ _
  · have h := fun l n => State.afterFill_changes (ps := ps) (List.Subset.trans (by decide) hm) t c l n hu
    split
    · exact State.ChangesOnly.ofEq ‹_› (h _ _)
    · have h2 := fun x off n m => State.coreRead_changes (ps := ps) (List.Subset.trans (by decide) hm) t x off n .load
        (State.drainFor_changes (ps := ps) (List.Subset.trans (by decide) hm) t c a.addr m (State.ChangesOnly.ofEq ‹_› (h _ _)))
      split
      · exact ha _ (State.ChangesOnly.ofEq ‹_› (h2 _ _ _ _)) _ _ _
      · exact hf _ (State.ChangesOnly.ofEq ‹_› (h2 _ _ _ _)) _ _ _
  · exact hf _ hu _ _ _
  · exact hf _ hu _ _ _

theorem execFence_changes {ps : List Part} (hm : ([.time, .free, .heads, .tiles, .ports, .sets, .atria, .flashes, .boot, .pkg, .fuses, .smb, .shadows] : List Part) ⊆ ps)
    (wait : ℕ) (t : Fin 8) (c : Fin 2) {s t_ : State}
    (e : execFence wait t c s = .next t_) : s.ChangesOnly ps t_ := by
  unfold execFence at e
  refine State.after_changes (List.Subset.trans (by decide) hm) e ?_
  intro _ hu
  apply State.drainAll_changes (List.Subset.trans (by decide) hm)
  exact hu

theorem execFenceI_changes {ps : List Part} (hm : ([.time, .free, .heads, .tiles, .ports, .sets, .atria, .flashes, .boot, .pkg, .fuses, .smb, .shadows] : List Part) ⊆ ps)
    (wait : ℕ) (t : Fin 8) (c : Fin 2) {s t_ : State}
    (e : execFenceI wait t c s = .next t_) : s.ChangesOnly ps t_ := by
  unfold execFenceI at e
  refine State.after_changes (List.Subset.trans (by decide) hm) e ?_
  intro _ hu
  extract_lets +onlyGivenNames -merge -useContext -lift x1
  have hx1 : s.ChangesOnly ps x1 := by
    unfold x1
    apply State.drainAll_changes (List.Subset.trans (by decide) hm)
    exact hu
  extract_lets +onlyGivenNames -merge -useContext -lift x2
  apply State.onCache_changes (List.Subset.trans (by decide) hm)
  exact hx1

theorem execCacheFill_changes {ps : List Part} (hm : ([.time, .tiles, .atria, .shadows] : List Part) ⊆ ps)
    (wait : ℕ) (t : Fin 8) (c : Fin 2) (k : Fin 2) {s t_ : State}
    (e : execCacheFill wait t c k s = .next t_) : s.ChangesOnly ps t_ := by
  unfold execCacheFill at e
  refine State.after_changes (List.Subset.trans (by decide) hm) e ?_
  exact fun _ hu => State.fillOnce_changes (List.Subset.trans (by decide) hm) _ _ _ hu

theorem execPrefetchFill_changes {ps : List Part} (hm : ([.time, .tiles, .atria] : List Part) ⊆ ps)
    (wait : ℕ) (t : Fin 8) (c : Fin 2) (k : Fin 2) {s t_ : State}
    (e : execPrefetchFill wait t c k s = .next t_) : s.ChangesOnly ps t_ := by
  unfold execPrefetchFill at e
  refine State.after_changes (List.Subset.trans (by decide) hm) e ?_
  intro _ hu
  dsimp only
  split
  · exact hu
  · rename_i line l _
    have h := State.fetchLine_changes (ps := ps) (List.Subset.trans (by decide) hm) t c line .sideBuffer
      (State.onCache_changes (ps := ps) (List.Subset.trans (by decide) hm) t c k (fun x => { x with prefetch := l }) hu)
    split
    · rename_i e2; exact State.ChangesOnly.ofEq e2 h
    · rename_i e2
      have h2 := State.ChangesOnly.ofEq e2 h
      exact State.ChangesOnly.ite (State.onCache_changes (List.Subset.trans (by decide) hm) _ _ _ _ h2) h2

theorem execStoreDrain_changes {ps : List Part} (hm : ([.time, .free, .heads, .tiles, .ports, .sets, .atria, .flashes, .boot, .pkg, .fuses, .smb, .shadows] : List Part) ⊆ ps)
    (wait : ℕ) (t : Fin 8) (c : Fin 2) {s t_ : State}
    (e : execStoreDrain wait t c s = .next t_) : s.ChangesOnly ps t_ := by
  unfold execStoreDrain at e
  refine State.afterIn_changes (List.Subset.trans (by decide) hm) e ?_
  intro _ hu
  apply State.drainOne_changes (List.Subset.trans (by decide) hm)
  exact hu

theorem execTimerInterrupt_changes {ps : List Part} (hm : ([.time, .tiles] : List Part) ⊆ ps)
    (wait : ℕ) (t : Fin 8) (c : Fin 2) {s t_ : State}
    (e : execTimerInterrupt wait t c s = .next t_) : s.ChangesOnly ps t_ := by
  unfold execTimerInterrupt at e
  refine State.after_changes (List.Subset.trans (by decide) hm) e ?_
  intro _ hu
  exact State.ChangesOnly.ite (State.onCore_changes (List.Subset.trans (by decide) hm) _ _ _ hu) hu

theorem execDbSet_changes {ps : List Part} (hm : ([.time, .free, .heads, .tiles, .ports, .atria, .pkg, .shadows] : List Part) ⊆ ps)
    (req : Req) (t : Fin 8) (c : Fin 2) (v : Word) {s t_ : State}
    (e : execDbSet req t c v s = .next t_) : s.ChangesOnly ps t_ := by
  unfold execDbSet at e
  exact tileWord_changes (List.Subset.trans (by decide) hm) e

theorem execInvGo_changes {ps : List Part} (hm : ([.time, .free, .heads, .tiles, .ports, .atria, .pkg, .shadows] : List Part) ⊆ ps)
    (req : Req) (t : Fin 8) (c : Fin 2) (k : Fin 2) (v : Word) {s t_ : State}
    (e : execInvGo req t c k v s = .next t_) : s.ChangesOnly ps t_ := by
  unfold execInvGo at e
  exact tileRow_changes (List.Subset.trans (by decide) hm) e

theorem execLlGo_changes {ps : List Part} (hm : ([.time, .free, .heads, .tiles, .ports, .atria, .pkg, .shadows] : List Part) ⊆ ps)
    (req : Req) (t : Fin 8) (c : Fin 2) (k : Fin 2) (v : Word) {s t_ : State}
    (e : execLlGo req t c k v s = .next t_) : s.ChangesOnly ps t_ := by
  unfold execLlGo at e
  exact tileRow_changes (List.Subset.trans (by decide) hm) e

theorem execLlDone_changes {ps : List Part} (hm : ([.time, .tiles, .atria] : List Part) ⊆ ps)
    (wait : ℕ) (t : Fin 8) (c : Fin 2) (k : Fin 2) {s t_ : State}
    (e : execLlDone wait t c k s = .next t_) : s.ChangesOnly ps t_ := by
  unfold execLlDone at e
  refine State.after_changes (List.Subset.trans (by decide) hm) e ?_
  intro _ hu
  apply State.lockLoad_changes (List.Subset.trans (by decide) hm)
  exact hu

theorem execCacheEnWrite_changes {ps : List Part} (hm : ([.time, .free, .heads, .tiles, .ports, .atria, .pkg, .shadows] : List Part) ⊆ ps)
    (req : Req) (t : Fin 8) (c : Fin 2) (k : Fin 2) (v : Word) {s t_ : State}
    (e : execCacheEnWrite req t c k v s = .next t_) : s.ChangesOnly ps t_ := by
  unfold execCacheEnWrite at e
  exact tileRow_changes (List.Subset.trans (by decide) hm) e

theorem execFlashRead_changes {ps : List Part} (hm : ([.time, .free, .heads, .tiles, .ports, .sets, .atria, .flashes, .boot, .pkg, .fuses, .smb, .shadows] : List Part) ⊆ ps)
    (req : Req) (f : Fin 2) (v : Word) {s t_ : State}
    (e : execFlashRead req f v s = .next t_) : s.ChangesOnly ps t_ := by
  unfold execFlashRead at e
  exact pkgRow_changes (List.Subset.trans (by decide) hm) e

theorem execFlashProgram_changes {ps : List Part} (hm : ([.time, .free, .heads, .tiles, .ports, .sets, .atria, .flashes, .boot, .pkg, .fuses, .smb, .shadows] : List Part) ⊆ ps)
    (req : Req) (f : Fin 2) (v : Word) {s t_ : State}
    (e : execFlashProgram req f v s = .next t_) : s.ChangesOnly ps t_ := by
  unfold execFlashProgram at e
  exact pkgRow_changes (List.Subset.trans (by decide) hm) e

theorem execFlashErase_changes {ps : List Part} (hm : ([.time, .free, .heads, .tiles, .ports, .sets, .atria, .flashes, .boot, .pkg, .fuses, .smb, .shadows] : List Part) ⊆ ps)
    (req : Req) (f : Fin 2) (v : Word) {s t_ : State}
    (e : execFlashErase req f v s = .next t_) : s.ChangesOnly ps t_ := by
  unfold execFlashErase at e
  exact pkgRow_changes (List.Subset.trans (by decide) hm) e

theorem execFlashVerify_changes {ps : List Part} (hm : ([.time, .free, .heads, .tiles, .ports, .sets, .atria, .flashes, .boot, .pkg, .fuses, .smb, .shadows] : List Part) ⊆ ps)
    (req : Req) (f : Fin 2) (v : Word) {s t_ : State}
    (e : execFlashVerify req f v s = .next t_) : s.ChangesOnly ps t_ := by
  unfold execFlashVerify at e
  exact pkgRow_changes (List.Subset.trans (by decide) hm) e

theorem execFlashOpComplete_changes {ps : List Part} (hm : ([.time, .tiles, .atria, .flashes] : List Part) ⊆ ps)
    (wait : ℕ) (f : Fin 2) (ok : Bool) {s t_ : State}
    (e : execFlashOpComplete wait f ok s = .next t_) : s.ChangesOnly ps t_ := by
  unfold execFlashOpComplete at e
  refine State.after_changes (List.Subset.trans (by decide) hm) e ?_
  intro _ hu
  apply State.ChangesOnly.ite
  · apply State.flDone_changes (List.Subset.trans (by decide) hm)
    exact hu
  · apply State.flEnd_changes (List.Subset.trans (by decide) hm)
    exact hu

theorem execFlashTimeout_changes {ps : List Part} (hm : ([.time, .tiles, .atria, .flashes] : List Part) ⊆ ps)
    (wait : ℕ) (f : Fin 2) {s t_ : State}
    (e : execFlashTimeout wait f s = .next t_) : s.ChangesOnly ps t_ := by
  unfold execFlashTimeout at e
  refine State.after_changes (List.Subset.trans (by decide) hm) e ?_
  intro _ hu
  apply State.flEnd_changes (List.Subset.trans (by decide) hm)
  exact hu

theorem execAdd_changes {ps : List Part} (hm : ([.time, .free, .heads, .tiles, .ports, .sets, .atria, .flashes, .boot, .pkg, .fuses, .smb, .shadows] : List Part) ⊆ ps)
    (req : Req) (v : Word) {s t_ : State}
    (e : execAdd req v s = .next t_) : s.ChangesOnly ps t_ := by
  unfold execAdd at e
  exact keyRow_changes (List.Subset.trans (by decide) hm) e

theorem execRemove_changes {ps : List Part} (hm : ([.time, .free, .heads, .tiles, .ports, .sets, .atria, .flashes, .boot, .pkg, .fuses, .smb, .shadows] : List Part) ⊆ ps)
    (req : Req) (v : Word) {s t_ : State}
    (e : execRemove req v s = .next t_) : s.ChangesOnly ps t_ := by
  unfold execRemove at e
  exact keyRow_changes (List.Subset.trans (by decide) hm) e

theorem execRevokeFuse_changes {ps : List Part} (hm : ([.time, .free, .heads, .tiles, .ports, .sets, .atria, .flashes, .boot, .pkg, .fuses, .smb, .shadows] : List Part) ⊆ ps)
    (req : Req) (v : Word) {s t_ : State}
    (e : execRevokeFuse req v s = .next t_) : s.ChangesOnly ps t_ := by
  unfold execRevokeFuse at e
  exact keyRow_changes (List.Subset.trans (by decide) hm) e

theorem execBrAckWrite_changes {ps : List Part} (hm : ([.time, .free, .heads, .tiles, .ports, .sets, .atria, .flashes, .boot, .pkg, .fuses, .smb, .shadows] : List Part) ⊆ ps)
    (req : Req) (v : Word) {s t_ : State}
    (e : execBrAckWrite req v s = .next t_) : s.ChangesOnly ps t_ := by
  unfold execBrAckWrite at e
  exact pkgWord_changes (List.Subset.trans (by decide) hm) e

theorem execMinSeqWrite_changes {ps : List Part} (hm : ([.time, .free, .heads, .tiles, .ports, .sets, .atria, .flashes, .boot, .pkg, .fuses, .smb, .shadows] : List Part) ⊆ ps)
    (req : Req) (hi : Bool) (v : Word) {s t_ : State}
    (e : execMinSeqWrite req hi v s = .next t_) : s.ChangesOnly ps t_ := by
  unfold execMinSeqWrite at e
  exact pkgWord_changes (List.Subset.trans (by decide) hm) e

theorem execActiveSlotWrite_changes {ps : List Part} (hm : ([.time, .free, .heads, .tiles, .ports, .sets, .atria, .flashes, .boot, .pkg, .fuses, .smb, .shadows] : List Part) ⊆ ps)
    (req : Req) (v : Word) {s t_ : State}
    (e : execActiveSlotWrite req v s = .next t_) : s.ChangesOnly ps t_ := by
  unfold execActiveSlotWrite at e
  exact pkgWord_changes (List.Subset.trans (by decide) hm) e

theorem execGetVersion_changes {ps : List Part} (hm : ([.time, .tiles, .smb] : List Part) ⊆ ps)
    (wait : ℕ) {s t_ : State}
    (e : execGetVersion wait s = .next t_) : s.ChangesOnly ps t_ := by
  unfold execGetVersion at e
  refine State.after_changes (List.Subset.trans (by decide) hm) e ?_
  intro _ hu
  apply State.spdmAnswer_changes (List.Subset.trans (by decide) hm)
  apply State.onSmb_changes (List.Subset.trans (by decide) hm)
  exact hu

theorem execGetCapabilities_changes {ps : List Part} (hm : ([.time, .tiles, .smb] : List Part) ⊆ ps)
    (wait : ℕ) {s t_ : State}
    (e : execGetCapabilities wait s = .next t_) : s.ChangesOnly ps t_ := by
  unfold execGetCapabilities at e
  refine State.after_changes (List.Subset.trans (by decide) hm) e ?_
  intro _ hu
  apply State.ChangesOnly.ite
  · apply State.spdmAnswer_changes (List.Subset.trans (by decide) hm)
    apply State.onSmb_changes (List.Subset.trans (by decide) hm)
    exact hu
  · apply State.spdmAnswer_changes (List.Subset.trans (by decide) hm)
    exact hu

theorem execNegotiateAlgorithms_changes {ps : List Part} (hm : ([.time, .tiles, .smb] : List Part) ⊆ ps)
    (wait : ℕ) (p384 : Bool) (sha384 : Bool) {s t_ : State}
    (e : execNegotiateAlgorithms wait p384 sha384 s = .next t_) : s.ChangesOnly ps t_ := by
  unfold execNegotiateAlgorithms at e
  refine State.after_changes (List.Subset.trans (by decide) hm) e ?_
  intro _ hu
  apply State.ChangesOnly.ite
  · apply State.spdmAnswer_changes (List.Subset.trans (by decide) hm)
    apply State.onSmb_changes (List.Subset.trans (by decide) hm)
    exact hu
  · apply State.spdmAnswer_changes (List.Subset.trans (by decide) hm)
    exact hu

theorem execGetDigests_changes {ps : List Part} (hm : ([.time, .tiles, .smb] : List Part) ⊆ ps)
    (wait : ℕ) {s t_ : State}
    (e : execGetDigests wait s = .next t_) : s.ChangesOnly ps t_ := by
  unfold execGetDigests at e
  refine State.after_changes (List.Subset.trans (by decide) hm) e fun _ hu => State.spdmAfter_changes (List.Subset.trans (by decide) hm) hu fun _ h => ?_
  exact State.spdmAnswer_changes (List.Subset.trans (by decide) hm) _ h

theorem execGetCertificate_changes {ps : List Part} (hm : ([.time, .tiles, .smb] : List Part) ⊆ ps)
    (wait : ℕ) (slot : ℕ) (offset : ℕ) (length : ℕ) {s t_ : State}
    (e : execGetCertificate wait slot offset length s = .next t_) : s.ChangesOnly ps t_ := by
  unfold execGetCertificate at e
  refine State.after_changes (List.Subset.trans (by decide) hm) e fun _ hu => State.spdmAfter_changes (List.Subset.trans (by decide) hm) hu fun _ h => ?_
  exact State.ChangesOnly.ite (State.spdmAnswer_changes (List.Subset.trans (by decide) hm) _ h)
          (State.spdmAnswer_changes (List.Subset.trans (by decide) hm) _ h)

theorem execChallenge_changes {ps : List Part} (hm : ([.time, .free, .tiles, .smb] : List Part) ⊆ ps)
    (wait : ℕ) (slot : ℕ) (nonce : BitVec 256) {s t_ : State}
    (e : execChallenge wait slot nonce s = .next t_) : s.ChangesOnly ps t_ := by
  unfold execChallenge at e
  refine State.after_changes (List.Subset.trans (by decide) hm) e fun _ hu => State.spdmAfter_changes (List.Subset.trans (by decide) hm) hu fun _ h => ?_
  exact State.ChangesOnly.ite (State.spdmAnswer_changes (List.Subset.trans (by decide) hm) _ h)
    (State.spdmAnswer_changes (List.Subset.trans (by decide) hm) _
            (State.takeFree_changes (List.Subset.trans (by decide) hm) h))

theorem execGetMeasurements_changes {ps : List Part} (hm : ([.time, .tiles, .atria, .smb] : List Part) ⊆ ps)
    (wait : ℕ) (index : ℕ) (signed : Bool) (nonce : BitVec 256) {s t_ : State}
    (e : execGetMeasurements wait index signed nonce s = .next t_) : s.ChangesOnly ps t_ := by
  unfold execGetMeasurements at e
  refine State.after_changes (List.Subset.trans (by decide) hm) e fun _ hu => State.spdmAfter_changes (List.Subset.trans (by decide) hm) hu fun _ h => ?_
  dsimp only
  refine State.ChangesOnly.ite (State.spdmAnswer_changes (List.Subset.trans (by decide) hm) _ h)
          (State.spdmAnswer_changes (List.Subset.trans (by decide) hm) _ ?_)
  have h2 := fun (c : Bool) t => State.ChangesOnly.ite (c := c = true)
    (State.noteRecordRead_changes (ps := ps) (List.Subset.trans (by decide) hm) t h) h
  exact State.ChangesOnly.ite (State.noteKeys_changes (List.Subset.trans (by decide) hm) _ (h2 _ _)) (h2 _ _)

theorem execVendorDefinedRequest_changes {ps : List Part} (hm : ([.time, .tiles, .atria, .smb] : List Part) ⊆ ps)
    (wait : ℕ) (registry : ℕ) (vendor : ℕ) (payload : List Byte) {s t_ : State}
    (e : execVendorDefinedRequest wait registry vendor payload s = .next t_) : s.ChangesOnly ps t_ := by
  unfold execVendorDefinedRequest at e
  refine State.after_changes (List.Subset.trans (by decide) hm) e fun _ hu => State.spdmAfter_changes (List.Subset.trans (by decide) hm) hu fun _ h => ?_
  dsimp only
  refine State.ChangesOnly.ite (State.spdmAnswer_changes (List.Subset.trans (by decide) hm) _ h) ?_
  split
  · exact State.spdmAnswer_changes (List.Subset.trans (by decide) hm) _
          (State.noteRecordRead_changes (List.Subset.trans (by decide) hm) _ h)
  · exact State.spdmAnswer_changes (List.Subset.trans (by decide) hm) _
          (State.noteRecordRead_changes (List.Subset.trans (by decide) hm) _ h)

theorem execSmbusRead_changes {ps : List Part} (hm : ([.time, .free, .tiles, .atria, .smb, .shadows] : List Part) ⊆ ps)
    (wait : ℕ) (m : SmbHead) (n : ℕ) {s t_ : State}
    (e : execSmbusRead wait m n s = .next t_) : s.ChangesOnly ps t_ := by
  unfold execSmbusRead at e
  refine State.after_changes (List.Subset.trans (by decide) hm) e ?_
  intro _ hu
  refine State.smbServe_changes (List.Subset.trans (by decide) hm) _ _ hu fun _ h => ?_
  exact State.smbAnswer_changes (List.Subset.trans (by decide) hm) _ _
    (State.smbReadWords_changes (List.Subset.trans (by decide) hm) _ _ h)

theorem execSmbusWrite_changes {ps : List Part} (hm : ([.time, .free, .heads, .tiles, .ports, .sets, .atria, .flashes, .boot, .pkg, .fuses, .smb, .shadows] : List Part) ⊆ ps)
    (wait : ℕ) (m : SmbHead) (v : List Word) {s t_ : State}
    (e : execSmbusWrite wait m v s = .next t_) : s.ChangesOnly ps t_ := by
  unfold execSmbusWrite at e
  refine State.afterIn_changes (List.Subset.trans (by decide) hm) e ?_
  intro _ hu
  refine State.smbServe_changes (List.Subset.trans (by decide) hm) _ _ hu fun _ h => ?_
  dsimp only
  refine State.ChangesOnly.ite (State.smbAnswer_changes (List.Subset.trans (by decide) hm) _ _ h) ?_
  have hw := State.smbWriteWords_changes (ps := ps) (List.Subset.trans (by decide) hm) (smbWords m.addr v) h
  exact State.ChangesOnly.ite
    (State.takeFree_changes (List.Subset.trans (by decide) hm) (State.smbAnswer_changes (List.Subset.trans (by decide) hm) _ _ hw))
    (State.smbAnswer_changes (List.Subset.trans (by decide) hm) _ _ hw)

theorem execAlertResponse_changes {ps : List Part} (hm : ([.time, .tiles, .smb] : List Part) ⊆ ps)
    (wait : ℕ) {s t_ : State}
    (e : execAlertResponse wait s = .next t_) : s.ChangesOnly ps t_ := by
  unfold execAlertResponse at e
  refine State.after_changes (List.Subset.trans (by decide) hm) e ?_
  intro _ hu
  extract_lets +onlyGivenNames -merge -useContext -lift x1
  apply State.onSmb_changes (List.Subset.trans (by decide) hm)
  exact hu

theorem execSmbusClockTimeout_changes {ps : List Part} (hm : ([.time, .tiles, .smb] : List Part) ⊆ ps)
    (wait : ℕ) (low : ℕ) {s t_ : State}
    (e : execSmbusClockTimeout wait low s = .next t_) : s.ChangesOnly ps t_ := by
  unfold execSmbusClockTimeout at e
  refine State.after_changes (List.Subset.trans (by decide) hm) e ?_
  intro _ hu
  apply State.onSmb_changes (List.Subset.trans (by decide) hm)
  exact hu

theorem execLeaseRenewal_changes {ps : List Part} (hm : ([.time, .tiles, .atria] : List Part) ⊆ ps)
    (wait : ℕ) (w : Fin 2) {s t_ : State}
    (e : execLeaseRenewal wait w s = .next t_) : s.ChangesOnly ps t_ := by
  unfold execLeaseRenewal at e
  refine State.after_changes (List.Subset.trans (by decide) hm) e ?_
  intro _ hu
  dsimp only
  have h : ∀ u b, s.ChangesOnly ps u → s.ChangesOnly ps (if b = true then u.sendPacket (atriumTile w) (atriumTile (otherWing w)) vcTime 1 else u) :=
    fun _ _ g => State.ChangesOnly.ite (State.sendPacket_changes (List.Subset.trans (by decide) hm) _ _ _ _ g) g
  refine State.ChangesOnly.ite ?_ ?_
  · exact State.onAtrium_changes (List.Subset.trans (by decide) hm) _ _
          (State.onAtrium_changes (List.Subset.trans (by decide) hm) _ _ (h _ _ hu))
  · exact State.onAtrium_changes (List.Subset.trans (by decide) hm) _ _ (h _ _ hu)

theorem execLeaseFlit_changes {ps : List Part} (hm : ([.time, .tiles, .atria] : List Part) ⊆ ps)
    (wait : ℕ) (w : Fin 2) {s t_ : State}
    (e : execLeaseFlit wait w s = .next t_) : s.ChangesOnly ps t_ := by
  unfold execLeaseFlit at e
  refine State.after_changes (List.Subset.trans (by decide) hm) e ?_
  intro _ hu
  split
  · exact hu
  · extract_lets +onlyGivenNames -merge -useContext -lift x1
    have hx1 : s.ChangesOnly ps x1 := by
      unfold x1
      apply State.onAtrium_changes (List.Subset.trans (by decide) hm)
      exact hu
    apply State.ChangesOnly.ite
    · exact hx1
    · apply State.takeFlit_changes (List.Subset.trans (by decide) hm)
      exact hx1

theorem execRenewLate_changes {ps : List Part} (hm : ([.time, .tiles, .atria] : List Part) ⊆ ps)
    (wait : ℕ) (w : Fin 2) {s t_ : State}
    (e : execRenewLate wait w s = .next t_) : s.ChangesOnly ps t_ := by
  unfold execRenewLate at e
  refine State.after_changes (List.Subset.trans (by decide) hm) e ?_
  intro _ hu
  apply State.onAtrium_changes (List.Subset.trans (by decide) hm)
  exact hu

theorem execLeaseExpiry_changes {ps : List Part} (hm : ([.time, .tiles, .atria] : List Part) ⊆ ps)
    (wait : ℕ) (w : Fin 2) {s t_ : State}
    (e : execLeaseExpiry wait w s = .next t_) : s.ChangesOnly ps t_ := by
  unfold execLeaseExpiry at e
  refine State.after_changes (List.Subset.trans (by decide) hm) e ?_
  intro _ hu
  apply State.takeLease_changes (List.Subset.trans (by decide) hm)
  exact hu

theorem execHandover_changes {ps : List Part} (hm : ([.time, .free, .heads, .tiles, .ports, .sets, .atria, .flashes, .boot, .pkg, .fuses, .smb, .shadows] : List Part) ⊆ ps)
    (req : Req) (v : Word) {s t_ : State}
    (e : execHandover req v s = .next t_) : s.ChangesOnly ps t_ := by
  unfold execHandover at e
  exact pkgRow_changes (List.Subset.trans (by decide) hm) e

theorem execHandoverFlit_changes {ps : List Part} (hm : ([.time, .tiles, .atria] : List Part) ⊆ ps)
    (wait : ℕ) (w : Fin 2) {s t_ : State}
    (e : execHandoverFlit wait w s = .next t_) : s.ChangesOnly ps t_ := by
  unfold execHandoverFlit at e
  refine State.after_changes (List.Subset.trans (by decide) hm) e ?_
  intro _ hu
  split
  · exact hu
  · extract_lets +onlyGivenNames -merge -useContext -lift x1
    have hx1 : s.ChangesOnly ps x1 := by
      unfold x1
      apply State.onAtrium_changes (List.Subset.trans (by decide) hm)
      exact hu
    apply State.ChangesOnly.ite
    · exact hx1
    · apply State.takeLease_changes (List.Subset.trans (by decide) hm)
      exact hx1

theorem execClaim_changes {ps : List Part} (hm : ([.time, .free, .heads, .tiles, .ports, .sets, .atria, .flashes, .boot, .pkg, .fuses, .smb, .shadows] : List Part) ⊆ ps)
    (req : Req) (v : Word) {s t_ : State}
    (e : execClaim req v s = .next t_) : s.ChangesOnly ps t_ := by
  unfold execClaim at e
  exact pkgRow_changes (List.Subset.trans (by decide) hm) e

theorem execUnfreeze_changes {ps : List Part} (hm : ([.time, .free, .heads, .tiles, .ports, .sets, .atria, .flashes, .boot, .pkg, .fuses, .smb, .shadows] : List Part) ⊆ ps)
    (req : Req) (v : Word) {s t_ : State}
    (e : execUnfreeze req v s = .next t_) : s.ChangesOnly ps t_ := by
  unfold execUnfreeze at e
  exact pkgRow_changes (List.Subset.trans (by decide) hm) e

theorem execAuthNop_changes {ps : List Part} (hm : ([.time, .free, .heads, .tiles, .ports, .sets, .atria, .flashes, .boot, .pkg, .fuses, .smb, .shadows] : List Part) ⊆ ps)
    (req : Req) (v : Word) {s t_ : State}
    (e : execAuthNop req v s = .next t_) : s.ChangesOnly ps t_ := by
  unfold execAuthNop at e
  exact pkgRow_changes (List.Subset.trans (by decide) hm) e

theorem execAuthReserved_changes {ps : List Part} (hm : ([.time, .free, .heads, .tiles, .ports, .sets, .atria, .flashes, .boot, .pkg, .fuses, .smb, .shadows] : List Part) ⊆ ps)
    (req : Req) (v : Word) {s t_ : State}
    (e : execAuthReserved req v s = .next t_) : s.ChangesOnly ps t_ := by
  unfold execAuthReserved at e
  exact pkgRow_changes (List.Subset.trans (by decide) hm) e

theorem execWarpFlitReceive_changes {ps : List Part} (hm : ([.time, .tiles] : List Part) ⊆ ps)
    (wait : ℕ) (t : Fin 8) (k : Fin 3) (rx : RxFlit) {s t_ : State}
    (e : execWarpFlitReceive wait t k rx s = .next t_) : s.ChangesOnly ps t_ := by
  unfold execWarpFlitReceive at e
  refine State.after_changes (List.Subset.trans (by decide) hm) e ?_
  intro _ hu
  exact State.flitIn_changes (List.Subset.trans (by decide) hm) _ _ _ hu

theorem execWarpLinkDown_changes {ps : List Part} (hm : ([.time, .tiles, .ports, .atria, .pkg] : List Part) ⊆ ps)
    (wait : ℕ) (t : Fin 8) (k : Fin 3) (lost : ℕ) {s t_ : State}
    (e : execWarpLinkDown wait t k lost s = .next t_) : s.ChangesOnly ps t_ := by
  unfold execWarpLinkDown at e
  refine State.after_changes (List.Subset.trans (by decide) hm) e ?_
  intro _ hu
  apply State.linkDown_changes (List.Subset.trans (by decide) hm)
  exact hu

theorem execWarpLinkUp_changes {ps : List Part} (hm : ([.time, .tiles, .ports, .atria, .pkg] : List Part) ⊆ ps)
    (wait : ℕ) (t : Fin 8) (k : Fin 3) {s t_ : State}
    (e : execWarpLinkUp wait t k s = .next t_) : s.ChangesOnly ps t_ := by
  unfold execWarpLinkUp at e
  refine State.after_changes (List.Subset.trans (by decide) hm) e ?_
  intro _ hu
  apply State.linkComesUp_changes (List.Subset.trans (by decide) hm)
  exact hu

theorem execRejoinComplete_changes {ps : List Part} (hm : ([.time, .tiles, .ports, .sets, .atria, .pkg] : List Part) ⊆ ps)
    (wait : ℕ) {s t_ : State}
    (e : execRejoinComplete wait s = .next t_) : s.ChangesOnly ps t_ := by
  unfold execRejoinComplete at e
  refine State.after_changes (List.Subset.trans (by decide) hm) e ?_
  intro _ hu
  apply State.rejoinDone_changes (List.Subset.trans (by decide) hm)
  exact hu

theorem execSensorSample_changes {ps : List Part} (hm : ([.time, .tiles, .ports, .atria, .pkg] : List Part) ⊆ ps)
    (wait : ℕ) (t : Fin 8) (v : List ℤ) {s t_ : State}
    (e : execSensorSample wait t v s = .next t_) : s.ChangesOnly ps t_ := by
  unfold execSensorSample at e
  refine State.after_changes (List.Subset.trans (by decide) hm) e ?_
  intro _ hu
  apply State.withWarnings_changes (List.Subset.trans (by decide) hm)
  exact State.onTile_changes (List.Subset.trans (by decide) hm) _ _ hu

theorem execSensorExclude_changes {ps : List Part} (hm : ([.time, .tiles] : List Part) ⊆ ps)
    (wait : ℕ) (t : Fin 8) {s t_ : State}
    (e : execSensorExclude wait t s = .next t_) : s.ChangesOnly ps t_ := by
  unfold execSensorExclude at e
  refine State.after_changes (List.Subset.trans (by decide) hm) e ?_
  intro _ hu
  apply State.onTile_changes (List.Subset.trans (by decide) hm)
  exact hu

theorem execSensorReadmit_changes {ps : List Part} (hm : ([.time, .tiles] : List Part) ⊆ ps)
    (wait : ℕ) (t : Fin 8) {s t_ : State}
    (e : execSensorReadmit wait t s = .next t_) : s.ChangesOnly ps t_ := by
  unfold execSensorReadmit at e
  refine State.after_changes (List.Subset.trans (by decide) hm) e ?_
  intro _ hu
  apply State.onTile_changes (List.Subset.trans (by decide) hm)
  exact hu

theorem execStackTempRead_changes {ps : List Part} (hm : ([.time, .tiles] : List Part) ⊆ ps)
    (wait : ℕ) (t : Fin 8) (v : ℤ) {s t_ : State}
    (e : execStackTempRead wait t v s = .next t_) : s.ChangesOnly ps t_ := by
  unfold execStackTempRead at e
  refine State.after_changes (List.Subset.trans (by decide) hm) e ?_
  intro _ hu
  apply State.onTile_changes (List.Subset.trans (by decide) hm)
  exact hu

theorem execThermalTrip_changes {ps : List Part} (hm : ([.time, .heads, .tiles, .ports, .atria, .boot, .pkg] : List Part) ⊆ ps)
    (wait : ℕ) (t : Fin 8) {s t_ : State}
    (e : execThermalTrip wait t s = .next t_) : s.ChangesOnly ps t_ := by
  unfold execThermalTrip at e
  refine State.afterIn_changes (List.Subset.trans (by decide) hm) e ?_
  intro _ hu
  split
  · exact hu
  · apply State.trip_changes (List.Subset.trans (by decide) hm)
    exact hu

theorem execHeavyPowerOff_changes {ps : List Part} (hm : ([.time, .free, .heads, .tiles, .ports, .atria, .pkg] : List Part) ⊆ ps)
    (wait : ℕ) (t : Fin 8) {s t_ : State}
    (e : execHeavyPowerOff wait t s = .next t_) : s.ChangesOnly ps t_ := by
  unfold execHeavyPowerOff at e
  refine State.after_changes (List.Subset.trans (by decide) hm) e ?_
  intro _ hu
  apply State.refreshPorts_changes (List.Subset.trans (by decide) hm)
  apply State.refreshSets_changes (List.Subset.trans (by decide) hm)
  apply State.powerOff_changes (List.Subset.trans (by decide) hm)
  exact hu

theorem execThermalRestart_changes {ps : List Part} (hm : ([.time, .free, .heads, .tiles, .ports, .sets, .atria, .flashes, .boot, .pkg] : List Part) ⊆ ps)
    (wait : ℕ) (t : Fin 8) {s t_ : State}
    (e : execThermalRestart wait t s = .next t_) : s.ChangesOnly ps t_ := by
  unfold execThermalRestart at e
  refine State.after_changes (List.Subset.trans (by decide) hm) e ?_
  intro _ hu
  apply State.thermalRestart_changes (List.Subset.trans (by decide) hm)
  exact hu

theorem execTripResume_changes {ps : List Part} (hm : ([.time, .free, .heads, .tiles, .ports, .atria, .pkg, .shadows] : List Part) ⊆ ps)
    (req : Req) (t : Fin 8) (v : Word) {s t_ : State}
    (e : execTripResume req t v s = .next t_) : s.ChangesOnly ps t_ := by
  unfold execTripResume at e
  exact tileRow_changes (List.Subset.trans (by decide) hm) e

theorem execThrottleEvaluation_changes {ps : List Part} (hm : ([.time, .free, .tiles, .ports, .atria, .pkg] : List Part) ⊆ ps)
    (wait : ℕ) (t : Fin 8) {s t_ : State}
    (e : execThrottleEvaluation wait t s = .next t_) : s.ChangesOnly ps t_ := by
  unfold execThrottleEvaluation at e
  refine State.after_changes (List.Subset.trans (by decide) hm) e ?_
  intro _ hu
  apply State.evaluateHeat_changes (List.Subset.trans (by decide) hm)
  exact hu

theorem execRegisterWrite_changes {ps : List Part} (hm : ([.time, .free, .heads, .tiles, .ports, .sets, .atria, .flashes, .boot, .pkg, .fuses, .smb, .shadows] : List Part) ⊆ ps)
    (req : Req) (a : ℕ) (v : Word) {s t_ : State}
    (e : execRegisterWrite req a v s = .next t_) : s.ChangesOnly ps t_ := by
  unfold execRegisterWrite at e
  cases e
  exact State.regWrite_changes (List.Subset.trans (by decide) hm) _ _ _
    (State.turned_changes (List.Subset.trans (by decide) hm) 3 s)

theorem execUnmappedAccess_changes {ps : List Part} (hm : ([.time, .free, .heads, .tiles, .ports, .sets, .atria, .flashes, .boot, .pkg, .fuses, .smb, .shadows] : List Part) ⊆ ps)
    (req : Req) (a : ℕ) (v : Option Word) {s t_ : State}
    (e : execUnmappedAccess req a v s = .next t_) : s.ChangesOnly ps t_ := by
  unfold execUnmappedAccess at e
  exact strayAccess_changes (List.Subset.trans (by decide) hm) e

theorem execResetAccess_changes {ps : List Part} (hm : ([.time, .free, .heads, .tiles, .ports, .sets, .atria, .flashes, .boot, .pkg, .fuses, .smb, .shadows] : List Part) ⊆ ps)
    (req : Req) (a : ℕ) (v : Option Word) {s t_ : State}
    (e : execResetAccess req a v s = .next t_) : s.ChangesOnly ps t_ := by
  unfold execResetAccess at e
  exact strayAccess_changes (List.Subset.trans (by decide) hm) e

theorem execTawDataRead_changes {ps : List Part} (hm : ([.time, .tiles, .atria, .smb, .shadows] : List Part) ⊆ ps)
    (req : Req) (t : Fin 8) {s t_ : State}
    (e : execTawDataRead req t s = .next t_) : s.ChangesOnly ps t_ := by
  unfold execTawDataRead at e
  cases e
  have hs := State.ChangesOnly.refl (ps := ps) s
  extract_lets +onlyGivenNames -merge -useContext -lift x1
  have hx1 : s.ChangesOnly ps x1.2 := by
    unfold x1
    apply State.regRead_changes (List.Subset.trans (by decide) hm)
    exact hs
  apply State.handOver_changes (List.Subset.trans (by decide) hm)
  exact hx1

theorem execTawDataWrite_changes {ps : List Part} (hm : ([.time, .free, .heads, .tiles, .ports, .atria, .pkg, .shadows] : List Part) ⊆ ps)
    (req : Req) (t : Fin 8) (v : Word) {s t_ : State}
    (e : execTawDataWrite req t v s = .next t_) : s.ChangesOnly ps t_ := by
  unfold execTawDataWrite at e
  exact tileWord_changes (List.Subset.trans (by decide) hm) e

theorem execPwrfailNRise_changes {ps : List Part} (hm : ([.time, .heads, .tiles, .pkg, .pins] : List Part) ⊆ ps)
    (wait : ℕ) {s t_ : State}
    (e : execPwrfailNRise wait s = .next t_) : s.ChangesOnly ps t_ := by
  unfold execPwrfailNRise at e
  refine State.afterIn_changes (List.Subset.trans (by decide) hm) e ?_
  intro _ hu
  dsimp only
  exact State.eachHead_changes (State.ChangesOnly.record hu
    (.inl rfl) (.inl rfl) (.inl rfl) (.inl rfl) (.inl rfl) (.inl rfl) (.inl rfl) (.inr (hm (by decide))) (.inl rfl) (.inl rfl) (.inl rfl) (.inr (hm (by decide)))) fun _ _ h => State.onHead_changes (List.Subset.trans (by decide) hm) _ _ h

theorem execSysclkReturn_changes {ps : List Part} (hm : ([.time, .tiles, .boot, .pkg, .pins] : List Part) ⊆ ps)
    (wait : ℕ) {s t_ : State}
    (e : execSysclkReturn wait s = .next t_) : s.ChangesOnly ps t_ := by
  unfold execSysclkReturn at e
  refine State.after_changes (List.Subset.trans (by decide) hm) e ?_
  intro _ hu
  dsimp only
  refine State.ChangesOnly.ite ?_ (State.ChangesOnly.ite ?_ ?_)
  · exact State.ChangesOnly.record hu
      (.inl rfl) (.inl rfl) (.inl rfl) (.inl rfl) (.inl rfl) (.inl rfl) (.inl rfl) (.inr (hm (by decide))) (.inl rfl) (.inl rfl) (.inl rfl) (.inr (hm (by decide)))
  · apply State.bootBegins_changes (List.Subset.trans (by decide) hm)
    exact State.ChangesOnly.record hu
      (.inl rfl) (.inl rfl) (.inl rfl) (.inl rfl) (.inl rfl) (.inl rfl) (.inl rfl) (.inr (hm (by decide))) (.inl rfl) (.inl rfl) (.inl rfl) (.inr (hm (by decide)))
  · exact State.ChangesOnly.record hu
      (.inl rfl) (.inl rfl) (.inl rfl) (.inl rfl) (.inl rfl) (.inl rfl) (.inl rfl) (.inr (hm (by decide))) (.inl rfl) (.inl rfl) (.inl rfl) (.inr (hm (by decide)))

theorem execSlewEnd_changes {ps : List Part} (hm : ([.time, .tiles] : List Part) ⊆ ps)
    (t : Fin 8) {s t_ : State}
    (e : execSlewEnd t s = .next t_) : s.ChangesOnly ps t_ := by
  unfold execSlewEnd at e
  cases e
  have hs := State.ChangesOnly.refl (ps := ps) s
  apply State.advance_changes (List.Subset.trans (by decide) hm)
  exact hs

theorem execTimeHoldEnd_changes {ps : List Part} (hm : ([.time, .tiles] : List Part) ⊆ ps)
    (t : Fin 8) {s t_ : State}
    (e : execTimeHoldEnd t s = .next t_) : s.ChangesOnly ps t_ := by
  unfold execTimeHoldEnd at e
  cases e
  have hs := State.ChangesOnly.refl (ps := ps) s
  apply State.advance_changes (List.Subset.trans (by decide) hm)
  exact hs

theorem execBoltDescriptorComplete_changes {ps : List Part} (hm : ([.time, .tiles, .ports, .atria, .pkg] : List Part) ⊆ ps)
    (wait : ℕ) (t : Fin 8) {s t_ : State}
    (e : execBoltDescriptorComplete wait t s = .next t_) : s.ChangesOnly ps t_ := by
  unfold execBoltDescriptorComplete at e
  refine State.after_changes (List.Subset.trans (by decide) hm) e ?_
  intro _ hu
  apply State.finishBolt_changes (List.Subset.trans (by decide) hm)
  exact hu

theorem execLowerWordRead_changes {ps : List Part} (hm : ([.time, .tiles, .atria, .smb, .shadows] : List Part) ⊆ ps)
    (req : Req) (a : ℕ) {s t_ : State}
    (e : execLowerWordRead req a s = .next t_) : s.ChangesOnly ps t_ := by
  unfold execLowerWordRead at e
  cases e
  have hs := State.ChangesOnly.refl (ps := ps) s
  apply State.ChangesOnly.ite
  · extract_lets +onlyGivenNames -merge -useContext -lift x1
    have hx1 : s.ChangesOnly ps x1.2 := by
      unfold x1
      apply State.regRead_changes (List.Subset.trans (by decide) hm)
      exact hs
    apply State.handOver_changes (List.Subset.trans (by decide) hm)
    exact hx1
  · exact hs

end Sys2Proof.Machine
end

