-- ==== Sys2Proof/Laws/Fields.lean ====
section
/-! SUPPORT. No two fields of a scope share a key. -/

namespace Sys2Proof.Machine

/-- The keys of a list stand in rising order. -/
def rises : List Nat → Bool
  | a :: b :: l => Nat.blt a b && rises (b :: l)
  | _ => true

theorem rises_pairwise : ∀ {l : List Nat}, rises l = true → l.Pairwise (· < ·)
  | [], _ => .nil
  | [_], _ => List.pairwise_singleton ..
  | a :: b :: l, h => by
    simp only [rises, Bool.and_eq_true, Nat.blt_eq] at h
    have hp := rises_pairwise h.2
    refine List.pairwise_cons.2 ⟨?_, hp⟩
    intro c hc
    obtain rfl | hc := List.mem_cons.1 hc
    · exact h.1
    · exact Nat.lt_trans h.1 ((List.pairwise_cons.1 hp).1 c hc)

/-- Fields whose keys, sorted, rise are told apart by their keys. -/
theorem key_injective {fs : List Fld} (h : rises ((fs.map Fld.key).insertionSort (· ≤ ·)) = true) {f g : Fld} (hf : f ∈ fs)
    (hg : g ∈ fs) (e : f.key = g.key) : f = g := by
  have hn : (fs.map Fld.key).Nodup :=
    (List.perm_insertionSort (· ≤ ·) _).nodup_iff.1 ((rises_pairwise h).imp Nat.ne_of_lt)
  exact List.inj_on_of_nodup_map hn hf hg e

/-- The fields of a head in the order of their offsets. -/
def headSorted : List Fld :=
  RiserReg.all ++ (AngleReg.all ++ (LoopReg.all ++ (LandReg.all ++ (SpinReg.all ++ (StepReg.all ++ (BeamReg.all
    ++ (WeftReg.all ++ (WriteReg.all ++ CalReg.all))))))))

theorem mem_headSorted {f : Fld} (h : f ∈ headFields) : f ∈ headSorted := by
  simp only [headFields, headSorted, List.mem_append] at h ⊢
  tauto

theorem headFields_key {f g : Fld} (hf : f ∈ headFields) (hg : g ∈ headFields) (e : f.key = g.key) : f = g :=
  key_injective (fs := headSorted) (by decide +kernel) (mem_headSorted hf) (mem_headSorted hg) e

/-- The fields of a tile in the order of their offsets. -/
def tileSorted : List Fld :=
  GalReg.all ++ (CacheReg.all ++ (TawReg.all ++ (ProtReg.all ++ (DmaReg.all ++ (BoltReg.all ++ (PortReg.all
    ++ (LockReg.all ++ (HeatReg.all ++ (LinkReg.all ++ TimeReg.all)))))))))

theorem mem_tileSorted {f : Fld} (h : f ∈ tileFields) : f ∈ tileSorted := by
  simp only [tileFields, tileSorted, List.mem_append] at h ⊢
  tauto

theorem tileFields_key {f g : Fld} (hf : f ∈ tileFields) (hg : g ∈ tileFields) (e : f.key = g.key) : f = g :=
  key_injective (fs := tileSorted) (by decide +kernel) (mem_tileSorted hf) (mem_tileSorted hg) e

/-- The fields of the package block in the order of their offsets. -/
def pkgSorted : List Fld :=
  IdReg.all ++ (BootReg.all ++ (FlashReg.all ++ (AuthReg.all ++ (EvReg.all ++ (SetReg.all ++ HostReg.all)))))

theorem mem_pkgSorted {f : Fld} (h : f ∈ pkgFields) : f ∈ pkgSorted := by
  simp only [pkgFields, pkgSorted, List.mem_append] at h ⊢
  tauto

theorem pkgFields_key {f g : Fld} (hf : f ∈ pkgFields) (hg : g ∈ pkgFields) (e : f.key = g.key) : f = g :=
  key_injective (fs := pkgSorted) (by decide +kernel) (mem_pkgSorted hf) (mem_pkgSorted hg) e

end Sys2Proof.Machine
end

