-- ==== Sys2Proof/Machine/Jtag.lean ====
section
/-! DEFINITION. The test access port (R494): its states under TCK and TMS, its reset, and the pins that its boundary scan
reaches. No row of the opcode table is an event of the JTAG pins, so no command clocks the port (log entry 123). -/

namespace Sys2Proof.Machine

/-- The next state of the port at a rise of TCK, with the level of TMS (IEEE 1149.1, which R494 names). -/
def TapState.next (x : TapState) (tms : Bool) : TapState :=
  match x with
  | .testLogicReset => if tms then .testLogicReset else .runTestIdle
  | .runTestIdle => if tms then .selectDrScan else .runTestIdle
  | .selectDrScan => if tms then .selectIrScan else .captureDr
  | .captureDr => if tms then .exit1Dr else .shiftDr
  | .shiftDr => if tms then .exit1Dr else .shiftDr
  | .exit1Dr => if tms then .updateDr else .pauseDr
  | .pauseDr => if tms then .exit2Dr else .pauseDr
  | .exit2Dr => if tms then .updateDr else .shiftDr
  | .updateDr => if tms then .selectDrScan else .runTestIdle
  | .selectIrScan => if tms then .testLogicReset else .captureIr
  | .captureIr => if tms then .exit1Ir else .shiftIr
  | .shiftIr => if tms then .exit1Ir else .shiftIr
  | .exit1Ir => if tms then .updateIr else .pauseIr
  | .pauseIr => if tms then .exit2Ir else .pauseIr
  | .exit2Ir => if tms then .updateIr else .shiftIr
  | .updateIr => if tms then .selectDrScan else .runTestIdle

/-- One cycle of TCK: JTAG_TRST_N low resets the port whatever TMS is (R494). It reaches no core, table, staging memory or
Selvedge word. -/
def State.tapClock (trstN tms : Bool) (s : State) : State :=
  { s with pkg := { s.pkg with tap := if trstN then s.pkg.tap.next tms else .testLogicReset } }

/-- The pins that the boundary scan of IEEE 1149.1 reaches, every 1.8 V CMOS and open-drain pin, each with its width
(R477, R494). -/
def scannedPins : List (String × Nat) :=
  [("PRDY_N", 16), ("SYSCLK", 1), ("RST_N", 1), ("PWRFAIL_N", 1), ("SPI0_SCLK", 1), ("SPI0_CS_N", 1), ("SPI0_IO", 4),
   ("SPI1_SCLK", 1), ("SPI1_CS_N", 1), ("SPI1_IO", 4), ("SMB_SCL", 1), ("SMB_SDA", 1), ("SMB_ALERT_N", 1), ("JTAG_TCK", 1),
   ("JTAG_TMS", 1), ("JTAG_TDI", 1), ("JTAG_TRST_N", 1), ("JTAG_TDO", 1), ("STRAP_TILES", 2), ("STRAP_BOOT", 2),
   ("STRAP_ADDR", 3), ("STRAP_WING", 1), ("STRAP_PORT", 2), ("TEST_EN", 1)]

/-- The lanes that the AC-coupled test of IEEE 1149.6 reaches, each both ways: those of every head and of every port
(R477, R494). -/
def acTestedLanes : List (String × Nat) := [("HL", 32 * 12), ("FP", 16 * 8)]

end Sys2Proof.Machine
end

