-- ==== Sys2Proof/Laws/Jtag.lean ====
section
/-! SUPPORT. What clocking the test access port can do (R494). -/

namespace Sys2Proof.Machine

/-- Five cycles of TCK with TMS high reset the port from any state. -/
theorem TapState.five_high (x : TapState) : ((((x.next true).next true).next true).next true).next true = .testLogicReset := by
  cases x <;> rfl

@[simp] theorem State.tapClock_trst (tms : Bool) (s : State) : (s.tapClock false tms).pkg.tap = .testLogicReset := rfl
@[simp] theorem State.tapClock_tap (tms : Bool) (s : State) : (s.tapClock true tms).pkg.tap = s.pkg.tap.next tms := rfl
@[simp] theorem State.tapClock_heads (n m : Bool) (s : State) : (s.tapClock n m).heads = s.heads := rfl
@[simp] theorem State.tapClock_tiles (n m : Bool) (s : State) : (s.tapClock n m).tiles = s.tiles := rfl
@[simp] theorem State.tapClock_atria (n m : Bool) (s : State) : (s.tapClock n m).atria = s.atria := rfl
@[simp] theorem State.tapClock_boot (n m : Bool) (s : State) : (s.tapClock n m).boot = s.boot := rfl
@[simp] theorem State.tapClock_ports (n m : Bool) (s : State) : (s.tapClock n m).ports = s.ports := rfl

end Sys2Proof.Machine
end

