-- ==== Sys2Proof/Laws/Reset.lean ====
section
/-! SUPPORT. What a reset of the whole package leaves in each head, tile and Atrium copy (R7, R506). -/

set_option linter.unusedVariables false

namespace Sys2Proof.Machine

/-- What a reset does to each field of a scope (R506). -/
theorem RegFile.rd_resetBy {fs : List Fld} (hk : ∀ f ∈ fs, ∀ g ∈ fs, f.key = g.key → f = g) (c : RClass) (rf : RegFile) :
    ∀ f ∈ fs, (rf.resetBy c fs).rd f = f.after c (rf.rd f) := by
  intro f hf
  unfold Fld.after Fld.keptBy
  cases h : (f.persist || (f.acc = .ros && c ≠ .cold) || !(c.restores f.cls))
  · exact RegFile.rd_resetBy_restores c fs rf f hf h fun g hg e => hk g hg f hf e
  · exact RegFile.rd_resetBy_keeps c fs rf f h fun g hg e => hk g hg f hf e


theorem Head.resetBy_of {cls : RClass} {x y : Head} (h : y.regs = x.regs.resetBy cls headFields) : x.ResetBy cls y := by
  intro f hf
  unfold Head.r
  rw [h]
  exact RegFile.rd_resetBy (fun f hf g hg => headFields_key hf hg) cls _ f hf

theorem Tile.resetBy_of {cls : RClass} {x y : Tile} (h : y.regs = x.regs.resetBy cls tileFields) : x.ResetBy cls y := by
  intro f hf
  unfold Tile.r
  rw [h]
  exact RegFile.rd_resetBy (fun f hf g hg => tileFields_key hf hg) cls _ f hf

theorem Atrium.resetBy_of {cls : RClass} {x y : Atrium} (h : y.regs = x.regs.resetBy cls pkgFields) : x.ResetBy cls y := by
  intro f hf
  unfold Atrium.r
  rw [h]
  exact RegFile.rd_resetBy (fun f hf g hg => pkgFields_key hf hg) cls _ f hf

theorem Head.cleared_regs (c : Ctx) (cls : RClass) (x : Head) : (x.cleared c cls).regs = x.regs.resetBy cls headFields := by
  unfold Head.cleared; rfl

theorem Tile.clearedAll_regs (n : Nat) (cls : RClass) (x : Tile) : (x.clearedAll n cls).regs = x.regs.resetBy cls tileFields := by
  unfold Tile.clearedAll Tile.cleared; rfl

theorem Tile.loseRam_regs (n : Nat) (x : Tile) : (x.loseRam n).regs = x.regs ∧ (x.loseRam n).inReset = x.inReset ∧ (x.loseRam n).timeOn = x.timeOn := ⟨rfl, rfl, rfl⟩

theorem Atrium.cleared_regs (cls : RClass) (x : Atrium) : (x.cleared cls).regs = x.regs.resetBy cls pkgFields := by
  unfold Atrium.cleared; rfl

theorem State.clearHeads_head (cls : RClass) (s : State) (h : Fin 32) :
    (s.clearHeads cls).head h = { (s.head h).cleared (s.ctx h) cls with inReset := true } := by
  unfold State.clearHeads
  exact State.eachHead_head (g := fun _ c x => { x.cleared c cls with inReset := true }) (fun h s => State.setHead_head ..)
      (fun h s j hj => State.setHead_head_ne _ _ _ _ hj) (fun _ _ _ => rfl) s h

theorem State.clearTiles_tile (cls : RClass) (s : State) (j : Fin 8) :
    (s.clearTiles cls).tile j = (s.tile j).clearedAll s.cycle cls := by
  unfold State.clearTiles
  exact
  State.eachTile_tile (R := fun x y => y = x.clearedAll s.cycle cls) (G := fun u => u.cycle = s.cycle)
        (fun t u e => by rw [← e]; exact State.setTile_tile ..) (fun t s j hj => State.setTile_tile_ne _ _ _ _ hj) (fun _ _ h => h) s rfl j

theorem State.loseRams_tile (s : State) (j : Fin 8) : ∃ n, (s.loseRams).tile j = (s.tile j).loseRam n := by
  unfold State.loseRams
  exact
  State.eachTile_tile (R := fun x y => ∃ n, y = x.loseRam n) (G := fun _ => True)
        (fun t u _ => ⟨u.freeCount, by
        have : (u.loseRam t).tile t = (u.setTile t ((u.tile t).loseRam u.freeCount)).tile t := rfl
        rw [this, State.setTile_tile]⟩) (fun t u j hj => by
        have : (u.loseRam t).tile j = (u.setTile t ((u.tile t).loseRam u.freeCount)).tile j := rfl
        rw [this, State.setTile_tile_ne _ _ _ _ hj]) (fun _ _ _ => trivial) s trivial j

theorem State.clearAll_head (cls : RClass) (s : State) (h : Fin 32) :
    (s.clearAll cls).head h = { (s.head h).cleared (s.ctx h) cls with inReset := true } := by
  rw [← State.clearHeads_head]
  unfold State.clearAll
  generalize s.clearHeads cls = u
  have h1 := State.clearTiles_changes (ps := [.tiles]) (by decide) cls (.refl u)
  generalize u.clearTiles cls = v at h1
  have h2 := State.loseRams_changes (ps := [.free, .tiles]) (by decide) (.refl v)
  generalize v.loseRams = w at h2
  have h3 := State.clearRest_changes (ps := [.ports, .sets, .atria, .flashes, .boot, .pkg, .smb, .shadows]) (by decide) cls (.refl w)
  unfold State.head
  rw [h3.heads (by decide), h2.heads (by decide), h1.heads (by decide)]

theorem State.clearAll_tile (cls : RClass) (s : State) (j : Fin 8) :
    ∃ n, (s.clearAll cls).tile j = ((s.tile j).clearedAll s.cycle cls).loseRam n := by
  unfold State.clearAll
  have h0 := State.clearHeads_changes (ps := [.heads]) (by decide) cls (.refl s)
  generalize s.clearHeads cls = u at h0
  have e1 := State.clearTiles_tile cls u j
  generalize u.clearTiles cls = v at e1
  obtain ⟨n, e2⟩ := State.loseRams_tile v j
  generalize v.loseRams = w at e2
  have h3 := State.clearRest_changes (ps := [.ports, .sets, .atria, .flashes, .boot, .pkg, .smb, .shadows]) (by decide) cls (.refl w)
  have e0 : u.tile j = s.tile j := congrArg (fun v => v[j]) (h0.tiles (by decide))
  have e3 : (w.clearRest cls).tile j = w.tile j := congrArg (fun v => v[j]) (h3.tiles (by decide))
  exact ⟨n, by rw [e3, e2, e1, e0, (h0.time (by decide)).1]⟩

theorem State.clearAll_atrium (cls : RClass) (s : State) (w : Fin 2) : (s.clearAll cls).atrium w = (s.atrium w).cleared cls := by
  have h0 := State.clearHeads_changes (ps := [.heads]) (by decide) cls (.refl s)
  have h1 := State.clearTiles_changes (ps := [.tiles]) (by decide) cls (.refl (s.clearHeads cls))
  have h2 := State.loseRams_changes (ps := [.free, .tiles]) (by decide) (.refl ((s.clearHeads cls).clearTiles cls))
  have e : (((s.clearHeads cls).clearTiles cls).loseRams).atria = s.atria := by
    rw [h2.atria (by decide), h1.atria (by decide), h0.atria (by decide)]
  show (State.atria (State.clearRest _ _))[w] = _
  unfold State.clearRest State.atrium
  rw [← e]
  generalize State.loseRams _ = u
  revert w
  exact Fin.forall_fin_two.2 ⟨rfl, rfl⟩

theorem State.clearAll_resetTo (cls : RClass) (s : State) : State.ResetTo cls s (s.clearAll cls) := by
  have hf := State.clearAll_changes (ps := [.free, .heads, .tiles, .ports, .sets, .atria, .flashes, .boot, .pkg, .smb, .shadows]) (by decide) cls (.refl s)
  have e1 := State.clearAll_head cls s
  have e2 := State.clearAll_tile cls s
  have e3 := State.clearAll_atrium cls s
  have e4 : (s.clearAll cls).sets = Vector.replicate 8 ASet.reset := by unfold State.clearAll State.clearRest; rfl
  generalize s.clearAll cls = v at *
  refine ⟨fun h => ?_, fun j => ?_, fun w => ?_, fun n => ?_, hf.mono (by decide)⟩
  · rw [e1]
    exact ⟨rfl, Head.resetBy_of (Head.cleared_regs (s.ctx h) cls (s.head h))⟩
  · obtain ⟨n, e⟩ := e2 j
    rw [e]
    exact ⟨rfl, rfl, Tile.resetBy_of ((Tile.loseRam_regs ..).1.trans (Tile.clearedAll_regs ..))⟩
  · rw [e3]
    exact Atrium.resetBy_of (Atrium.cleared_regs ..)
  · unfold State.aset
    rw [e4]
    simp

theorem State.coldReset_head (s : State) (h : Fin 32) :
    s.coldReset.head h = { Head.reset with regs := ((s.clearAll .cold).head h).regs, riser := ((s.clearAll .cold).head h).riser } := by
  unfold State.coldReset
  generalize s.clearAll .cold = u
  exact State.eachHead_head (g := fun _ _ x => { Head.reset with regs := x.regs, riser := x.riser }) (fun h s => State.setHead_head ..)
      (fun h s j hj => State.setHead_head_ne _ _ _ _ hj) (fun _ _ _ => rfl) u h

theorem State.coldReset_same (s : State) : (s.clearAll .cold).ChangesOnly [.heads] s.coldReset := by
  unfold State.coldReset
  generalize s.clearAll .cold = u
  exact State.eachHead_changes (.refl _) fun _ _ hu => State.onHead_changes (by decide) _ _ hu

theorem State.coldReset_resetTo (s : State) : State.ResetTo .cold s s.coldReset := by
  have h1 := State.clearAll_resetTo .cold s
  have hc := State.coldReset_same s
  have eh := State.coldReset_head s
  generalize s.clearAll .cold = u at h1 hc eh
  generalize s.coldReset = v at hc eh
  refine ⟨fun h => ?_, fun j => ?_, fun w => ?_, fun n => ?_, h1.frame.trans (hc.mono (by decide))⟩
  · refine ⟨by rw [eh]; rfl, fun f hf => ?_⟩
    have := (h1.heads h).2 f hf
    unfold Head.r at this ⊢
    rw [eh, ← this]
  · have : v.tile j = u.tile j := congrArg (fun v => v[j]) (hc.tiles (by decide))
    rw [this]; exact h1.tiles j
  · have : v.atrium w = u.atrium w := congrArg (fun v => v[w]) (hc.atria (by decide))
    rw [this]; exact h1.copies w
  · have : v.aset n = u.aset n := congrArg (fun v => v[n]) (hc.sets (by decide))
    rw [this]; exact h1.sets n

end Sys2Proof.Machine
end

