-- ==== Sys2Proof/WellFormed.lean ====
section
/-! DEFINITION. Which commands are well-formed: the operands fit what they stand for. The machine runs an ill-formed
command all the same, on the operand as its width takes it. -/

namespace Sys2Proof

/-- An address that a register access can have: of a 32-bit word in the 32-bit management space (R497). -/
def wordAddress (a : Nat) : Bool := decide (a < 2 ^ 32) && a % 4 == 0

/-- A core's access has 1, 2, 4 or 8 bytes, a value that fits them, and a 64-bit address (R393). -/
def CoreAccess.wf (a : CoreAccess) : Bool :=
  [1, 2, 4, 8].contains a.size && decide (a.value < 2 ^ (8 * a.size)) && decide (a.addr < 2 ^ 64)

/-- A capsule names one of the sixteen controllers of a port or the discovery controller, and a 16-bit queue (R332). -/
def Capsule.wf (q : Capsule) : Bool := decide (q.ctrl ≤ 16) && decide (q.qid < 65536)

/-- A fabric frame has one of eight priorities, pauses each priority at most once, and tells of the three buffers
(R362). -/
def FabricFrame.wf (f : FabricFrame) : Bool :=
  decide (f.pri < 8) && f.taken.length == 3
    && (match f.pause with
      | none => true
      | some l => decide (l.length ≤ 8) && l.all fun e => decide (e.1 < 8))

/-- The MCTP message type and the OP byte are bytes, the vendor ID is a 16-bit number, the address a 32-bit one (R491, R492). -/
def SmbHead.fits (m : SmbHead) : Bool := decide (m.type < 256 ∧ m.vendor < 65536 ∧ m.op < 256 ∧ m.addr < 2 ^ 32)

/-- A command is well-formed. -/
def Instr.wf : Instr → Bool
  | .powerOnResetRelease _ _ => true
  | .railUndervoltage _ _ => true
  | .rstN _ _ => true
  | .rstNRise _ => true
  | .warmRst _ _ => true
  | .tileRst _ _ => true
  | .headReset _ _ _ => true
  | .portReset _ _ _ => true
  | .pwrfail _ _ => true
  | .selvedgeWriteRefusal _ => true
  | .pwrfailEpisodeEnd _ => true
  | .sysclkStop _ => true
  | .refclkStop _ => true
  | .bootPllLock _ => true
  | .tilesPowered _ => true
  | .bootRecordScan _ => true
  | .candidateVerify _ => true
  | .sectionLoad _ => true
  | .sparingApply _ => true
  | .recordAppend _ => true
  | .journalReplay _ => true
  | .coreRelease _ => true
  | .tileReload _ _ => true
  | .syncFlitSend _ _ => true
  | .syncFlitReceive _ _ => true
  | .syncLost _ _ => true
  | .upstreamFrame _ _ _ => true
  | .holdover _ _ => true
  | .angleLost _ _ => true
  | .align _ _ _ => true
  | .discOffsetWrite _ _ _ => true
  | .vrateWrite _ _ _ => true
  | .asrcWrite _ _ _ => true
  | .angleSourceChange _ _ => true
  | .indexCrossing _ _ => true
  | .start _ _ _ => true
  | .stop _ _ _ => true
  | .slot0SchedWrite _ _ _ => true
  | .spareArm _ _ _ => true
  | .nop _ _ => true
  | .sectorGateOpen _ _ => true
  | .sectorGateClose _ _ => true
  | .writeGateOpen _ _ => true
  | .writeGateClose _ _ => true
  | .wedgeWindowOpen _ _ => true
  | .wedgeWindowClose _ _ => true
  | .resyncExpect _ _ => true
  | .loopSample _ _ => true
  | .calWindowOpen _ _ => true
  | .calWindowClose _ _ => true
  | .sparePoint _ _ => true
  | .retain _ _ => true
  | .zoneSelect _ _ => true
  | .mark _ _ => true
  | .revCheck _ _ => true
  | .endEvent _ _ => true
  | .train _ _ _ => true
  | .autoRetrain _ _ => true
  | .silentElapsed _ _ => true
  | .lockElapsed _ _ lanes => decide (lanes < 4096)
  | .trainingBlock _ _ _ => true
  | .alignTimeout _ _ => true
  | .measureDone _ _ => true
  | .measureTimeout _ _ => true
  | .framedLock _ _ => true
  | .frameTimeout _ _ => true
  | .linkLoss _ _ lanes => decide (lanes < 4096)
  | .downstreamFrame _ _ => true
  | .cmdLost _ _ => true
  | .beamSampleDelivery _ _ _ => true
  | .defectHoldRelease _ _ => true
  | .fwGo _ _ _ => true
  | .safeCmd _ _ _ => true
  | .safeRelease _ _ _ => true
  | .decodeComplete _ _ _ => true
  | .clrStats _ _ _ _ => true
  | .retryGo _ _ _ => true
  | .release _ _ _ => true
  | .replayStart _ _ => true
  | .hypothesisDone _ _ => true
  | .write _ _ => true
  | .verify _ _ => true
  | .opc _ _ => true
  | .pcaScan _ _ => true
  | .armed _ _ => true
  | .descriptorComplete _ _ => true
  | .abort _ _ _ => true
  | .stratGo _ _ _ => true
  | .stratLoadStart _ _ => true
  | .loopSampleDue _ _ _ => true
  | .loopEvaluation _ _ _ => true
  | .loopClear _ _ _ _ => true
  | .loopClrStats _ _ _ _ => true
  | .hcmdNop _ _ _ => true
  | .park _ _ _ => true
  | .spin _ _ _ => true
  | .focusOn _ _ _ => true
  | .focusOff _ _ _ => true
  | .trackOn _ _ _ => true
  | .trackOff _ _ _ => true
  | .seek _ _ _ => true
  | .clearFault _ _ _ => true
  | .hcmdReserved _ _ _ => true
  | .focusLock _ _ => true
  | .flockTimeout _ _ => true
  | .focusLost _ _ => true
  | .saSettled _ _ => true
  | .saTimeout _ _ => true
  | .kickEnd _ _ => true
  | .brakeEnd _ _ => true
  | .jumpTimeout _ _ => true
  | .wedgeComplete _ _ => true
  | .trackingLock _ _ => true
  | .trackLost _ _ => true
  | .settleEnd _ _ => true
  | .idTimeout _ _ => true
  | .tlockTimeout _ _ => true
  | .holdTimeout _ _ => true
  | .angleFault _ _ => true
  | .stoppedConfirm _ _ => true
  | .atSpeed _ _ => true
  | .spinTimeout _ _ => true
  | .voltLimited _ _ => true
  | .probeSettleEnd _ _ => true
  | .catchTimeout _ _ => true
  | .alignRun _ _ _ => true
  | .alignDone _ _ => true
  | .scmdNop _ _ _ => true
  | .scmdReserved _ _ _ => true
  | .ovTrip _ _ => true
  | .ocTrip _ _ => true
  | .ovPersist _ _ => true
  | .chopSilentLatch _ _ => true
  | .chopSilent _ _ _ => true
  | .stepTick _ _ => true
  | .move _ _ _ _ => true
  | .mcmdStop _ _ _ _ => true
  | .halt _ _ _ _ => true
  | .home _ _ _ _ => true
  | .rebase _ _ _ _ => true
  | .mcmdNop _ _ _ _ => true
  | .mcmdReserved _ _ _ _ => true
  | .stall _ _ _ => true
  | .lostStep _ _ _ => true
  | .limitDebounce _ _ _ _ => true
  | .chatter _ _ _ _ => true
  | .holdCurrent _ _ _ => true
  | .arm _ _ _ => true
  | .cancel _ _ _ => true
  | .spanStart _ _ => true
  | .interp _ _ _ => true
  | .autoInterp _ _ => true
  | .interpDone _ _ => true
  | .commit _ _ _ => true
  | .commitDone _ _ => true
  | .erase _ _ _ => true
  | .loadInterp _ _ _ => true
  | .loadSlot _ _ _ => true
  | .online _ _ _ => true
  | .absent _ _ _ => true
  | .present _ _ _ => true
  | .rebuildStart _ _ _ => true
  | .rebuildEnd _ _ _ => true
  | .suspend _ _ _ => true
  | .resume _ _ _ => true
  | .setCmdReserved _ _ _ => true
  | .compute _ _ => true
  | .patrol _ _ => true
  | .openBand _ _ => true
  | .delta _ _ => true
  | .land _ _ => true
  | .void _ _ => true
  | .remap _ _ => true
  | .ckptSnap _ _ => true
  | .checkpoint _ _ => true
  | .mapReplay _ _ => true
  | .boltTypeReserved _ _ => true
  | .stripeCommit _ _ => true
  | .journalRecordDurable _ _ => true
  | .paceWindowEnd _ _ => true
  | .creditAccrual _ _ => true
  | .fabricFrameReceive _ _ f => f.wf
  | .fabricLinkUp _ _ => true
  | .fabricLinkDown _ _ => true
  | .pfcStorm _ _ => true
  | .rateRecovery _ _ => true
  | .connect _ _ q => q.wf
  | .propertyGet _ _ q => q.wf
  | .propertySet _ _ q => q.wf
  | .disconnect _ _ q => q.wf
  | .getLogPage _ _ q => q.wf
  | .identify _ _ q => q.wf
  | .nvmeAbort _ _ q => q.wf
  | .setFeatures _ _ q => q.wf
  | .getFeatures _ _ q => q.wf
  | .asynchronousEventRequest _ _ q => q.wf
  | .firmwareCommit _ _ q => q.wf
  | .firmwareImageDownload _ _ q => q.wf
  | .keepAlive _ _ q => q.wf
  | .flush _ _ q => q.wf
  | .nvmeWrite _ _ q => q.wf
  | .nvmeRead _ _ q => q.wf
  | .writeZeroes _ _ q => q.wf
  | .nvmeVerify _ _ q => q.wf
  | .readVersion _ _ q => q.wf
  | .invalidOpcode _ _ q => q.wf
  | .lockGrant _ _ => true
  | .writeDataStaged _ _ => true
  | .bind _ _ _ => true
  | .dataReady _ _ _ => true
  | .failEntry _ _ _ => true
  | .doneEntry _ _ _ => true
  | .writeResolved _ _ => true
  | .readTransferDone _ _ => true
  | .katoExpired _ _ => true
  | .apstTransition _ _ => true
  | .psCurrentWrite _ _ => true
  | .ceLeak _ _ => true
  | .ceOvfClear _ _ _ => true
  | .logClr _ _ _ => true
  | .dmaGo _ _ _ _ => true
  | .dmaStop _ _ _ _ => true
  | .dmaTransfer _ _ => true
  | .repairAdd _ _ _ => true
  | .repairDel _ _ _ => true
  | .instructionFetch _ _ _ a => a.access.wf && (a.access.size == 2 || a.access.size == 4)
  | .coreLoad _ _ _ a => a.wf
  | .coreStore _ _ _ a => a.wf
  | .amo _ _ _ _ a => a.wf
  | .fence _ _ _ => true
  | .fenceI _ _ _ => true
  | .cacheFill _ _ _ _ => true
  | .prefetchFill _ _ _ _ => true
  | .storeDrain _ _ _ => true
  | .timerInterrupt _ _ _ => true
  | .dbSet _ _ _ _ => true
  | .invGo _ _ _ _ _ => true
  | .llGo _ _ _ _ _ => true
  | .llDone _ _ _ _ => true
  | .cacheEnWrite _ _ _ _ _ => true
  | .flashRead _ _ _ => true
  | .flashProgram _ _ _ => true
  | .flashErase _ _ _ => true
  | .flashVerify _ _ _ => true
  | .flashOpComplete _ _ _ => true
  | .flashTimeout _ _ => true
  | .add _ _ => true
  | .remove _ _ => true
  | .revokeFuse _ _ => true
  | .brAckWrite _ _ => true
  | .minSeqWrite _ _ _ => true
  | .activeSlotWrite _ _ => true
  | .getVersion _ => true
  | .getCapabilities _ => true
  | .negotiateAlgorithms _ _ _ => true
  | .getDigests _ => true
  | .getCertificate _ slot offset length => decide (slot < 256) && decide (offset < 65536) && decide (length < 65536)
  | .challenge _ slot _ => decide (slot < 256)
  | .getMeasurements _ index _ _ => decide (index < 256)
  | .vendorDefinedRequest _ registry vendor _ => decide (registry < 65536) && decide (vendor < 65536)
  | .smbusRead _ m n => m.fits && decide (n < 256)
  | .smbusWrite _ m v => m.fits && decide (v.length < 256)
  | .alertResponse _ => true
  | .smbusClockTimeout _ _ => true
  | .leaseRenewal _ _ => true
  | .leaseFlit _ _ => true
  | .renewLate _ _ => true
  | .leaseExpiry _ _ => true
  | .handover _ _ => true
  | .handoverFlit _ _ => true
  | .claim _ _ => true
  | .unfreeze _ _ => true
  | .authNop _ _ => true
  | .authReserved _ _ => true
  | .warpFlitReceive _ _ _ _ => true
  | .warpLinkDown _ _ _ _ => true
  | .warpLinkUp _ _ _ => true
  | .rejoinComplete _ => true
  | .sensorSample _ _ v => v.length == 6
  | .sensorExclude _ _ => true
  | .sensorReadmit _ _ => true
  | .stackTempRead _ _ _ => true
  | .thermalTrip _ _ => true
  | .heavyPowerOff _ _ => true
  | .thermalRestart _ _ => true
  | .tripResume _ _ _ => true
  | .throttleEvaluation _ _ => true
  | .registerWrite _ a _ => wordAddress a
  | .unmappedAccess _ a _ => wordAddress a
  | .resetAccess _ a _ => wordAddress a
  | .tawDataRead _ _ => true
  | .tawDataWrite _ _ _ => true
  | .pwrfailNRise _ => true
  | .sysclkReturn _ => true
  | .slewEnd _ => true
  | .timeHoldEnd _ => true
  | .boltDescriptorComplete _ _ => true
  | .lowerWordRead _ a => wordAddress a

end Sys2Proof
end

