-- ==== Sys2Proof/Tests/Slice0.lean ====
section
/-! SUPPORT. Tests of the model: well-formedness refuses ill-formed commands, worked examples of the spec, and for every
statement that has hypotheses states that meet them. -/

set_option linter.unusedVariables false
set_option maxRecDepth 20000

open Sys2Proof Sys2Proof.Machine

namespace Sys2Proof.Tests

/-- A package that runs, with every tile and head out of reset and nothing else done. -/
def awake : State := { State.reset with
  heads := Vector.replicate 32 { Head.reset with inReset := false }
  tiles := Vector.replicate 8 { Tile.reset with inReset := false, timeOn := true }
  atria := Vector.replicate 2 ((Atrium.reset.w IdReg.TILE_STRAPPED 255).w IdReg.TILE_EN 255)
  boot := { BootSt.reset with phase := .running } }

/-- The same with head 0 changed. -/
def atHead0 (f : Head → Head) : State := awake.onHead 0 f

/-- A core of tile 0. -/
def core0 : Req := .core 0 0

/-! ### Well-formedness -/

/-- A capsule of no meaning. -/
def capsule0 : Capsule := { ctrl := 0, qid := 0, sqe := 0, data := [], stage := 0 }

theorem test_wf_lanes : (Instr.lockElapsed 0 0 4095).wf = true ∧ (Instr.lockElapsed 0 0 4096).wf = false ∧
    (Instr.linkLoss 0 0 4096).wf = false := by decide
theorem test_wf_address : (Instr.registerWrite .smbus 0x24 0).wf = true ∧ (Instr.registerWrite .smbus 0x26 0).wf = false ∧
    (Instr.lowerWordRead .smbus (2 ^ 32)).wf = false := by decide
theorem test_wf_capsule : (Instr.connect 0 0 { capsule0 with ctrl := 16 }).wf = true ∧
    (Instr.connect 0 0 { capsule0 with ctrl := 17 }).wf = false ∧
    (Instr.flush 0 0 { capsule0 with qid := 65536 }).wf = false := by decide
theorem test_wf_access : (Instr.coreLoad 0 0 0 { addr := 0, size := 8, value := 0, rd := 5, zext := false }).wf = true ∧
    (Instr.coreLoad 0 0 0 { addr := 0, size := 3, value := 0, rd := 5, zext := false }).wf = false ∧
    (Instr.coreStore 0 0 0 { addr := 0, size := 1, value := 256, rd := 5, zext := false }).wf = false ∧
    (Instr.coreStore 0 0 0 { addr := 2 ^ 64, size := 1, value := 0, rd := 5, zext := false }).wf = false := by decide
theorem test_wf_frame :
    (FabricFrame.wf { pri := 7, len := 64, pause := none, ecn := false, cnp := none, taken := [0, 0, 0], bad := false }) = true ∧
    (FabricFrame.wf { pri := 8, len := 64, pause := none, ecn := false, cnp := none, taken := [0, 0, 0], bad := false }) = false ∧
    (FabricFrame.wf { pri := 0, len := 64, pause := none, ecn := false, cnp := none, taken := [], bad := false }) = false ∧
    (FabricFrame.wf { pri := 0, len := 64, pause := some [(8, true)], ecn := false, cnp := none, taken := [0, 0, 0], bad := false })
      = false := by decide
theorem test_wf_sensors : (Instr.sensorSample 0 0 [0, 0, 0, 0, 0, 0]).wf = true ∧ (Instr.sensorSample 0 0 []).wf = false := by
  decide
/-- A request over SMBus with operation `op`. -/
def smbHead (op : Nat) : SmbHead := { pec := true, unit := 64, type := 0x7F, vendor := 0, op := op, addr := 0 }

theorem test_wf_smbus : (Instr.smbusRead 0 (smbHead 1) 1).wf = true ∧ (Instr.smbusRead 0 { smbHead 1 with addr := 2 ^ 32 } 1).wf = false ∧
    (Instr.smbusRead 0 (smbHead 1) 256).wf = false ∧ (Instr.smbusRead 0 (smbHead 256) 1).wf = false ∧
    (Instr.smbusWrite 0 { smbHead 2 with addr := 2 ^ 32 } []).wf = false := by decide
theorem test_wf_spdm : (Instr.getCertificate 0 0 0 0).wf = true ∧ (Instr.getCertificate 0 256 0 0).wf = false ∧
    (Instr.getCertificate 0 0 65536 0).wf = false ∧ (Instr.getCertificate 0 0 0 65536).wf = false ∧
    (Instr.challenge 0 256 0).wf = false ∧ (Instr.getMeasurements 0 256 true 0).wf = false ∧
    (Instr.vendorDefinedRequest 0 65536 0 []).wf = false ∧ (Instr.vendorDefinedRequest 0 0 65536 []).wf = false := by decide

/-! ### Worked examples of the spec -/

/-- 00_scope.md: head 21. -/
theorem test_head21 : tileOf 21 = 5 ∧ wingOf 5 = 1 ∧ localOf 21 = 1 ∧ headBase 21 = 0x15480000 ∧
    placeOf 0x154C3800 = .head 21 (0x40000 + 7 * 0x800) := by decide
/-- R375's own example: 0x3C has q = 0b1_0010, and read back as 0x2C it has syndrome 9 and is corrected to 0x3C. -/
theorem test_ecc : (eccWord 0x3C).toNat = 0x123C ∧ eccSyndrome 0x122C = 9 ∧ eccRead 0x122C = .corrected 0x3C := by
  decide

/-- 12_archive_sets.md, below R308: both data members of four lost. -/
theorem test_solve : (0x5A ^^^ gfMul 2 0x3C) = 0x22 ∧ gfInv 3 = 0xF4 ∧ gfMul 0xEE 0xF4 = 0x5A ∧ (0x66 ^^^ 0x5A) = 0x3C := by
  decide
/-- 12_archive_sets.md, R325: g to the 13. -/
theorem test_gf_power : gfPow 8 = 0x1D ∧ gfPow 12 = 0xCD ∧ gfPow 13 = 0x87 := by decide
/-- 05_read_channel.md, below R142: strength 1, information column 100. -/
theorem test_circulants : [0, 1, 2].map (circRow (blockRows 1) 100) = [36, 49, 62] ∧
    [0, 1, 2].map (circShift (blockRows 1) 100) = [361, 182, 3] := by decide
/-- 04_damask_format.md, the worked example. -/
theorem test_damask : psaOf 3 9 2900 22 7 = 0x395AA587 ∧ zoneOfBand 2900 = 9 ∧ frameLength 1 = 306320 ∧
    framesPerTrack 460 1 = 24 := by decide

/-- Witnesses of the statements of addresses, the time master and formats. -/
theorem witness_TimeMaster :
    (awake.holds 0 = true ∧ awake.holds (otherWing 0) = false ∧ awake.split = false) ∧
    (let s := awake.onAtrium 0 (·.flag AuthReg.SPLIT); s.holds 0 = true ∧ s.holds (otherWing 0) = false ∧ s.split = true ∧
      s.rejoining = false) ∧
    (let s := awake.onAtrium 0 fun a => { a.flag AuthReg.SPLIT with rejoin := some 2 }; s.holds 0 = true ∧
      s.holds (otherWing 0) = false ∧ s.split = true ∧ s.rejoining = true) := by decide
theorem witness_Modulation : 32 ∣ (List.replicate 32 true).length ∧
    32 * 0 + 32 ≤ (List.replicate 32 true).length := by decide
theorem witness_Parity : 0 < blockRows 0 ∧ 1 < blockRows 0 := by decide

/-- Head 0 with one entry due in slot 1 or slot 0, of a type, a target and an argument, at a crawling virtual angle. -/
def evHead (slot ty target arg : Nat) (f : Head → Head) : State := atHead0 fun x =>
  let run : Slot := { Slot.reset with running := true }
  let m := (x.schedMem.writeLE 0 8 (2 ^ 16)).writeLE 0x200 8 (target * 2 ^ 28 + ty * 2 ^ 34 + arg * 2 ^ 40)
  let a := if slot = 0 then { x.angle with slot0 := run } else { x.angle with slot1 := run }
  f ({ x with schedMem := m, angle := a }.wi AngleReg.W 1)

/-- An event of type `ty` of head 0 fires in a state, with `p` of it and of the head. -/
def fires1 (s : State) (ty : Nat) (p : Fire → Head → Bool) : Bool :=
  let u := s.atEvent 0 0
  !(u.head 0).inReset && (match (u.head 0).takeEvent (u.ctx 0) ty with | none => false | some (f, x) => p f x)

/-- What `fires1` shows. -/
theorem fires1_spec {s : State} {ty : Nat} {p : Fire → Head → Bool} (h : fires1 s ty p = true) :
    ∃ f x, (s.atEvent 0 0).Takes 0 ty f x ∧ p f x = true := by
  simp only [fires1, Bool.and_eq_true, Bool.not_eq_true'] at h
  obtain ⟨h1, h2⟩ := h
  split at h2
  · cases h2
  · next f x e => exact ⟨f, x, ⟨h1, e⟩, h2⟩

def wEnds : List TrackEnd := [0, 1, 2, 3].map fun i => { TrackEnd.reset with track := i, slot := some 0 }
def wGroup (n : Nat) : GroupRec :=
  { GroupRec.reset with ends := wEnds, results := (List.range n).map fun i => { CwResult.reset with index := i + 1 } }
def wSample : State := atHead0 fun x => { x with riser := { x.riser with delivered := [(5, 0)] } }
def wHold : State := atHead0 fun x =>
  let x : Head := x.w WeftReg.DH_EXT 0
  { x with weft := { x.weft with holdReq := true, fellAt := some 0 } }
def wDecode (n : Nat) (f : Head → Head) : State :=
  atHead0 fun x => f { x with weft := { x.weft with groups := [wGroup n] } }
def wSlots (x : Head) : Head := [0, 1, 2, 3].foldl (fun (x : Head) i => x.onBeam i fun b => { b with
  slots := [{ RetSlot.reset with state := 3, live := (wEnds.getD i.val .reset) }] }) x
def wOrder (f : Head → Head) (o : Order) (running : Option Nat) : State :=
  (atHead0 fun x => f { x with weft := { x.weft with order := some o } }).onTile 0 fun x =>
    { x with replay := { x.replay with running := running } }
def wNew : Order := { Order.reset with families := 1 }
def wRun (todo : List (Nat × Nat × Int)) : Order := { Order.reset with ends := wEnds, todo := todo }

/-- Witnesses of ReadChannelEvents. -/
theorem witness_ReadChannelEvents :
    (let u := wSample.pass 0; u.live 0 = true ∧ lookupKey (5 : Fin 33).val (u.head 0).riser.delivered = some 0 ∧
      64 * 0 + 16 * (u.head 0).r RiserReg.LAT_UP ≤ 10 * (u.ctx 0).now) ∧
    (let u := wHold.pass 0; u.live 0 = true ∧ (u.head 0).weft.holdReq = true ∧ (u.head 0).weft.fellAt = some 0 ∧
      0 + cyclesOfNs ((u.head 0).r WeftReg.DH_EXT) ≤ (u.ctx 0).cyc) ∧
    (let u := (wDecode 0 id).pass 0; u.live 0 = true ∧ (u.head 0).decodeReady 0 = some (wGroup 0) ∧
      (wGroup 0).results.length < 3) ∧
    (let u := (wDecode 3 id).pass 0; u.live 0 = true ∧ (u.head 0).decodeReady 0 = some (wGroup 3) ∧
      (wGroup 3).results.length = 3 ∧ (u.head 0).verifying = false ∧ (u.head 0).b WeftReg.DELIVER_EN = false) ∧
    (let u := (wDecode 3 fun x => x.flag WeftReg.DELIVER_EN).pass 0; u.live 0 = true ∧
      (u.head 0).decodeReady 0 = some (wGroup 3) ∧ (wGroup 3).results.length = 3 ∧ (u.head 0).verifying = false ∧
      (u.head 0).b WeftReg.DELIVER_EN = true ∧ ∀ k, k < 4 →
        ((u.head 0).r WeftReg.RING_WR + k + 1) % (u.head 0).ringSlots
          ≠ (u.head 0).r WeftReg.RING_RD % (u.head 0).ringSlots) := by decide

/-- Witnesses of ReplayEngine. -/
theorem witness_ReplayEngine :
    (let u := (wOrder id wNew none).pass 0; (u.tile 0).replay.running = none ∧ u.nextOrder 0 = some 0 ∧
      (u.head 0).weft.order = some wNew ∧ (u.head 0).heldEnds wNew.group wNew.sector = none) ∧
    (let u := (wOrder wSlots wNew none).pass 0; (u.tile 0).replay.running = none ∧ u.nextOrder 0 = some 0 ∧
      (u.head 0).weft.order = some wNew ∧ (u.head 0).heldEnds wNew.group wNew.sector = some wEnds ∧
      hypotheses wNew.families wEnds ≠ [] ∧ (u.head 0).weft.held = []) ∧
    (let u := (wOrder wSlots (wRun []) (some 0)).pass 0; (u.tile 0).replay.running = some 0 ∧
      (u.tile 0).heat.heavyOff = false ∧ (u.head 0).weft.order = some (wRun [])) ∧
    (let u := (wOrder wSlots (wRun [(0, 0, 0)]) (some 0)).pass 0; (u.tile 0).replay.running = some 0 ∧
      (u.tile 0).heat.heavyOff = false ∧ (u.head 0).weft.order = some (wRun [(0, 0, 0)])) := by decide

/-- Witnesses of ReadRegisters. -/
theorem witness_ReadRegisters :
    (∀ i : Fin 33, awake.accessOf core0 (.head 0 (0x40000 + 0x800 * i.val)) = .ok) ∧
    awake.accessOf core0 (.head 0 0x58034) = .ok ∧ (0 : Word).toNat.testBit 25 = false ∧
    (0 : Word).toNat.testBit 24 = false ∧ (awake.head 0).b WeftReg.BUSY = false ∧
    ((atHead0 (·.put WeftReg.BUSY true)).head 0).b WeftReg.BUSY = true := by decide

def wDesc (ty : Nat) : State := (atHead0 fun x => ((x.flag WriteReg.ENABLE).w WriteReg.WQ_WR 1)).onTile 0 fun x =>
  { x with stack := x.stack.writeLE 0 1 ty }
def wBusy (d : Desc) (f : Head → Head) : State := atHead0 fun x => f { x with write := { x.write with desc := some d } }
def opcDesc : Desc := { Desc.reset with type := 3, steps := 2 }
def wGate (slot ty : Nat) (f : Head → Head) : State := evHead slot ty 0 0 fun x =>
  let x : Head := (x.wi AngleReg.W 28147498).w WriteReg.STATE 2
  f { x with write := { x.write with desc := some opcDesc, kz := 460 }, stratMap := x.stratMap.put8 0 1 }
def wExpects (x : Head) : Bool :=
  x.write.desc == some opcDesc && x.writeExpects && !x.write.aborted && decide (2 ≤ x.r WriteReg.STATE)

/-- Witnesses of WriteDescriptors. -/
theorem witness_WriteDescriptors :
    (∀ ty ∈ [1, 2, 3, 4], let u := (wDesc ty).pass 0; u.takesDesc 0 = true ∧ u.nextType 0 = ty ∧
      (descOf (u.stackLE (tileOf 0) (u.head 0).wqByte 64)).type = ty) ∧
    (let u := (wBusy .reset fun x => x.w WriteReg.STATE 1).pass 0; (u.head 0).write.desc = some .reset ∧
      u.live 0 = true ∧ (u.head 0).r WriteReg.STATE = 1) ∧
    (let u := (wBusy .reset fun x => { x with write := { x.write with refused := true } }).pass 0;
      (u.head 0).write.desc = some .reset ∧ u.live 0 = true ∧ (u.head 0).descOver (u.ctx 0) = true ∧ (u.head 0).cqFull = false) := by
  decide

/-- A head that tracks, in state `st` of the Landing. -/
def wTracks (st : Nat) (x : Head) : Head := ((x.w LandReg.HSTATE st).w LandReg.FSTAT 3).w LandReg.TSTAT 6
def wMayOpen (x : Head) : Bool := wExpects x && !x.inhibitNow && !x.weft.holdReq

/-- Witnesses of WriteGates. -/
theorem witness_WriteGates :
    fires1 (evHead 1 3 0 0 id) 3 (fun _ x => x.write.desc.isNone) = true ∧
    fires1 (wGate 1 3 fun x => { x with write := { x.write with opens := 2 ^ 20 } }) 3
      (fun _ x => x.write.desc == some opcDesc && !x.writeExpects) = true ∧
    fires1 (wGate 1 3 fun x => { x with write := { x.write with aborted := true } }) 3
      (fun _ x => x.write.desc == some opcDesc && x.writeExpects && x.write.aborted) = true ∧
    fires1 (wGate 1 3 id) 3 (fun _ x => wExpects x && x.inhibitNow) = true ∧
    fires1 (wGate 1 3 fun x => (wTracks 7 x).wi AngleReg.W 1) 3 (fun _ x => wMayOpen x && !x.speedOk) = true ∧
    fires1 (wGate 1 3 fun x => { wTracks 7 x with stratMap := .empty }) 3
      (fun f x => wMayOpen x && x.speedOk && !x.stratLoaded (f.arg % 4096)) = true ∧
    fires1 (wGate 1 3 (wTracks 8)) 3
      (fun f x => wMayOpen x && x.speedOk && x.stratLoaded (f.arg % 4096) && x.r LandReg.HSTATE != 7) = true ∧
    fires1 (wGate 1 3 (wTracks 7)) 3
      (fun f x => wMayOpen x && x.speedOk && x.stratLoaded (f.arg % 4096) && x.r LandReg.HSTATE == 7) = true := by decide

/-- A WRITE descriptor that is being written. -/
def wWrite : Desc := { Desc.reset with type := 1 }

/-- More witnesses of WriteGates: a WRITE descriptor, the closes, and the end of a write phase. -/
theorem witness_WriteGates_ends :
    fires1 (wGate 1 3 fun x => { wTracks 7 x with write := { x.write with desc := some wWrite, kz := 460 } }) 3
      (fun f x => x.write.desc == some wWrite && x.writeExpects && !x.write.aborted && decide (2 ≤ x.r WriteReg.STATE)
        && !x.inhibitNow && !x.weft.holdReq && x.speedOk && x.stratLoaded (f.arg % 4096)) = true ∧
    fires1 (evHead 0 4 0 0 id) 4 (fun _ x => x.write.desc.isNone) = true ∧
    fires1 (wGate 0 4 fun x => { x with write := { x.write with gates := [.reset] } }) 4
      (fun _ x => x.write.desc == some opcDesc && x.write.gates == [] ++ WGate.reset :: []
        && WGate.reset.closeTe.isNone) = true ∧
    (let v := (atHead0 fun x => { x.w RiserReg.STATE 6 with write := { x.write with
        desc := some opcDesc, endAt := some 0 } }).pass 16;
      (v.head 0).write.desc = some opcDesc ∧ (v.head 0).write.endAt = some 0 ∧ 0 ≤ (v.ctx 0).now ∧
      (v.head 0).write.aborted = false ∧ v.live 0 = true ∧ v.pkg.sysclk = true ∧
      (v.head 0).frameDue (v.ctx 0) = true) := by decide

/-- Witnesses of WriteCommands. -/
theorem witness_WriteCommands :
    awake.accessOf core0 (.head 0 0x60000) = .ok ∧ awake.accessOf core0 (.head 0 0x60028) = .ok ∧
    (let x := (wBusy opcDesc id).head 0; x.write.desc = some opcDesc ∧ x.write.aborted = false ∧ x.write.refused = false) ∧
    (let u := (atHead0 fun x => { x with write := { x.write with stratPend := true } }).pass 0; u.live 0 = true ∧
      (u.head 0).write.stratPend = true ∧ (u.head 0).write.stratBusy = false ∧ (u.head 0).b WriteReg.BUSY = false) := by
  decide

/-- A head of which the spindle drive has this state, advanced by 2^24 cycles. -/
def wDrive (f : Head → Head) : State := (atHead0 f).pass (2 ^ 24)

/-- Witnesses of SpindleDrive. -/
theorem witness_SpindleDrive :
    (let u := wDrive fun x => { x with spin := { x.spin with seen := true } }; let x := u.head 0; x.inReset = false ∧
      x.spin.seen = true ∧ x.spin.fault = false ∧
      x.spin.lastGood + 1000 * atLeast1 (x.r SpinReg.MHOLD) ≤ (u.ctx 0).ns ∧ x.tripDue = false) ∧
    ((wDrive fun x => { x with spin := { x.spin with ovRun := 255 } }).head 0).tripDue = true ∧
    (let u := wDrive fun x => { ((x.w SpinReg.MVALID 1).w SpinReg.STOPPED 0).w SpinReg.STOP_W 1 with spin := { x.spin with below := some 0 } }; let x := u.head 0;
      x.b SpinReg.STOPPED = false ∧ x.slow = true ∧ x.spin.below = some 0 ∧
      0 + cyclesOfMs (atLeast1 (x.r SpinReg.STOP_CONF)) ≤ (u.ctx 0).cyc) ∧
    (let x := (wDrive fun x => { x.w SpinReg.SSTATE 2 with spin := { x.spin with atRun := 255 } }).head 0;
      x.r SpinReg.SSTATE = 2 ∧ x.b SpinReg.AT_SPEED = false ∧ atLeast1 (x.r SpinReg.AT_N) ≤ x.spin.atRun) ∧
    (let u := wDrive fun x => (x.w SpinReg.SSTATE 2).w SpinReg.SPIN_TO 1; let x := u.head 0;
      x.r SpinReg.SSTATE = 2 ∧ x.b SpinReg.AT_SPEED = false ∧ x.spin.atTimeout = false ∧
      x.spin.driveAt + cyclesOfMs (atLeast1 (x.r SpinReg.SPIN_TO)) ≤ (u.ctx 0).cyc) ∧
    (let x := (wDrive fun x => { x with spin := { x.spin with limRun := 8 } }).head 0;
      x.b SpinReg.VOLT_LIMITED = false ∧ x.spin.limRun = 8) ∧
    (let u := wDrive fun x => { x.w SpinReg.SSTATE 3 with spin := { x.spin with settleAt := some 0 } }; let x := u.head 0;
      x.r SpinReg.SSTATE = 3 ∧ ∃ t, x.settleEnd = some t ∧ t ≤ (u.ctx 0).ns) ∧
    (let u := wDrive fun x => ((x.w SpinReg.SSTATE 5).w SpinReg.CATCH_RUN 1).w SpinReg.CATCH_TO 1; let x := u.head 0;
      x.r SpinReg.SSTATE = 5 ∧ x.b SpinReg.CATCH_RUN = true ∧
      x.spin.catchAt + cyclesOfMs (atLeast1 (x.r SpinReg.CATCH_TO)) ≤ (u.ctx 0).cyc) ∧
    (let u := wDrive fun x => (x.w SpinReg.SSTATE 6).w SpinReg.ALIGN_T 1; let x := u.head 0;
      x.r SpinReg.SSTATE = 6 ∧ x.spin.alignAt + cyclesOfMs (atLeast1 (x.r SpinReg.ALIGN_T)) ≤ (u.ctx 0).cyc) ∧
    ((wDrive fun x => { x with spin := { x.spin with silentRun := 64 } }).head 0).spin.silentRun = 64 ∧
    (let x := (wDrive fun x => { x with spin := { x.spin with ovRun := 255, ocRun := 255, ovSince := some 0 } }).head 0;
      atLeast1 (x.r SpinReg.OV_N) ≤ x.spin.ovRun ∧ atLeast1 (x.r SpinReg.OC_N) ≤ x.spin.ocRun ∧
      x.spin.ovSince = some 0 ∧ 0 + cyclesOfMs 1 ≤ (wDrive id).cycle) ∧
    awake.accessOf core0 (.head 0 0x20000) = .ok ∧ awake.accessOf core0 (.head 0 0x20008) = .ok ∧
    (awake.head 0).r SpinReg.SSTATE = 0 ∧ (awake.head 0).r LandReg.HSTATE ≠ 1 ∧
    ((atHead0 (·.w LandReg.HSTATE 1)).head 0).r LandReg.HSTATE = 1 := by
  refine ⟨?_, ?_, ?_, ?_, ?_, ?_, ?_, ?_, ?_, ?_, ?_, ?_, ?_, ?_, ?_, ?_⟩ <;> decide

/-- A plan with some ticks left. -/
def wPlan (j : Nat) : Plan := { Plan.reset with n1 := 2, a := 1, s := 1, j := j }

/-- Witnesses of StepGenerators. -/
theorem witness_StepGenerators :
    (∀ hard ∈ [none, some 3], ∀ plan ∈ [none, some (wPlan 0), some (wPlan 3)],
      let u := wDrive fun x => x.onGen 0 fun a => { a with hardReq := hard, plan := plan }; let x := u.head 0;
      x.inReset = false ∧ x.tickDue (u.ctx 0) = true ∧ (x.gen 0).hardReq = hard ∧ (x.gen 0).plan = plan ∧
      ∀ g : Fin 2, (x.gen g).stopReq = none ∧ (x.gen g).phaseNext = 0 ∧ x.r (StepReg.HPHASE g) = 0 ∧
        x.b (StepReg.OWNER g) = false) ∧
    (let x := (wDrive fun x => x.onGen 0 fun a => { a with stopReq := some 3, hardReq := some 4 }).head 0;
      (x.gen 0).stopReq = some 3 ∧ (x.gen 0).hardReq = some 4) ∧
    (wPlan 0).j + 1 < (wPlan 0).ticks ∧ (wPlan 3).kind ≠ 1 ∧ (wPlan 3).ticks ≤ (wPlan 3).j + 1 ∧
    (∀ g : Fin 2, awake.accessOf core0 (.head 0 (0x30000 + 0x100 * g.val)) = .ok) ∧
    (∀ st ∈ [0, 1, 2, 3], ((atHead0 (·.w (StepReg.GSTATE 0) st)).head 0).r (StepReg.GSTATE 0) = st) ∧
    (let x := awake.head 0; x.r (StepReg.GSTATE 0) = 0 ∧ x.blocked 0 (signOf 0) = false ∧ x.ri (StepReg.MOVE_DIST 0) = 0 ∧
      x.b (StepReg.TRIM_ACTIVE 0) = false) ∧
    (let x := (atHead0 fun x => (x.w (StepReg.MOVE_DIST 0) 5).flag (StepReg.LIM_HI 0)).head 0;
      x.blocked 0 (signOf (x.ri (StepReg.MOVE_DIST 0))) = true) ∧
    (let x := (atHead0 fun x => x.w (StepReg.MOVE_DIST 0) 5).head 0; x.ri (StepReg.MOVE_DIST 0) ≠ 0 ∧
      x.blocked 0 (signOf (x.ri (StepReg.MOVE_DIST 0))) = false ∧ x.r (StepReg.AMAX 0) ≠ 0 ∧
      x.r (StepReg.AMAX 0) < 2 ^ 32 ∧ x.r (StepReg.AMAX 0) ≤ x.r (StepReg.VMAX 0) * 2 ^ 8) ∧
    ((atHead0 fun x => x.w (StepReg.AMAX 0) 0).head 0).r (StepReg.AMAX 0) = 0 ∧
    ((atHead0 fun x => x.flag (StepReg.TRIM_ACTIVE 0)).head 0).b (StepReg.TRIM_ACTIVE 0) = true ∧
    (let x := (wDrive fun x => x.onGen 0 fun a => { a with
        stallRun := 255, lostRun := 255, runLo := 255, runHi := 255, chatLo := 255, chatHi := 255 }).head 0;
      let a := x.gen 0;
      a.stallArmed = true ∧ a.lostArmed = true ∧ atLeast1 (x.r (StepReg.STALL_N 0)) ≤ a.stallRun ∧
      atLeast1 (x.r (StepReg.STALL_N 0)) ≤ a.lostRun ∧ atLeast1 (x.r (StepReg.DB_N 0)) ≤ min a.runLo a.runHi ∧
      a.chatSaidLo = false ∧ a.chatSaidHi = false ∧ atLeast1 (x.r (StepReg.CHAT_MAX 0)) ≤ min a.chatLo a.chatHi) ∧
    (let x := (wDrive fun x => { (x.w (StepReg.GSTATE 0) 1) with gens := x.gens.set 0 { x.gen 0 with
        plan := some (wPlan 0) } }).head 0;
      x.r (StepReg.GSTATE 0) ≠ 3 ∧ x.b (StepReg.LIM_HI 0) = false ∧ 0 < x.motionSign 0) ∧
    (let u := wDrive fun x => x.w (StepReg.HOLD_DELAY 0) 1; let x := u.head 0; let a := x.gen 0;
      a.reduced = false ∧ x.r (StepReg.GSTATE 0) ∉ [1, 2, 3] ∧ x.b (StepReg.TRIM_ACTIVE 0) = false ∧
      a.mChanged + atLeast1 (x.r (StepReg.HOLD_DELAY 0)) ≤ (u.ctx 0).tick) := by
  refine ⟨?_, ?_, ?_, ?_, ?_, ?_, ?_, ?_, ?_, ?_, ?_, ?_, ?_, ?_, ?_⟩ <;> decide

/-- A set of three members, online, at home in tile 0. -/
def wSet (f : ASet → ASet) : State :=
  (awake.onAtrium 0 (·.w (SetReg.ONLINE_DONE 0) 1)).onSet 0 fun a =>
    f { a with cfg := { SetDef.reset with n := 3, jwords := 300, mapSize := 1, heads := [0, 4, 8] }, replayed := true }

/-- A band with one stripe, which nothing is required for. -/
def wBand : OpenBand := { OpenBand.reset with wseqFirst := 5, count := 1 }

/-- A MEMBER record. -/
def wMember : JRec := { JRec.reset with type := 8, body := [7, 1, 0] }

/-- Witnesses of SetCommands. -/
theorem witness_SetCommands :
    (let u := wSet id; u.accessOf core0 (.pkg 0x4000) = .ok ∧ (u.atPkg core0 0x4000).allowedSet core0 0 = true ∧
      ((u.atPkg core0 0x4000).aset 0).cfg.n = 3) ∧
    (let u := (wSet id).onAtrium 0 (·.flag AuthReg.FROZEN); u.accessOf core0 (.pkg 0x4000) = .ok ∧
      (u.atPkg core0 0x4000).allowedSet core0 0 = false) ∧
    (awake.atPkg core0 0x4000).allowedSet core0 0 = true ∧ (awake.aset 0).cfg.n = 0 ∧
    (wSet id).sr 0 SetReg.ONLINE_DONE ≠ 0 ∧ awake.sr 0 SetReg.ONLINE_DONE = 0 ∧ awake.storeRefuses = false ∧
    ({ awake with pkg := { awake.pkg with refusing := true } }).storeRefuses = true ∧
    (∀ m : Fin 3, bitOf ((wSet id).memberMasks 0).1 m.val = true ∧ bitOf ((wSet id).memberMasks 0).2 m.val = false) ∧
    (let u := wSet fun a => { a with queue := [{ wMember with body := [0, 1, 0] }] }; bitOf (u.memberMasks 0).1 0 = false ∧
      bitOf (u.memberMasks 0).2 0 = false ∧ (u.memberMasks 0).2 &&& (u.aset 0).cfg.mask = 0) ∧
    (let u := wSet fun a => { a with queue := [{ wMember with body := [2 ^ 32, 1, 0] }] };
      bitOf (u.memberMasks 0).2 0 = true) ∧
    (let u := wSet id; u.primaryUp 0 = true ∧ (u.tile (u.aset 0).cfg.homeTile).journalUe = false ∧ (u.aset 0).owed = [] ∧
      u.journalFits 0 [4] false = true) ∧
    (wSet fun a => { a with cfg := { a.cfg with jwords := 5 } }).journalFits 0 [4] false = false ∧
    ((wSet id).storeRefuses = false ∧ ((awake.atPkg core0 0x4000).sr 0 SetReg.ONLINE_DONE = 0) ∧
      ({ awake with pkg := { awake.pkg with refusing := true } }).storeRefuses = true) ∧
    (let u := (wSet fun a => { a with bands := [wBand] }).pass 0; let a := u.aset 0;
      a.readyWseqs = [5] ∧ a.replayed = true ∧ u.suspCause 0 &&& 13 = 0 ∧ (a.pickCommits [] [5]).2 = [5] ∧ a.owed = [] ∧
      u.journalFits 0 ((piecesOf 255 2 (rangeWords (runsOf [5]))).map fun b => 1 + b.length) true = true) ∧
    (let u := (wSet fun a => { a with bands := [wBand], cfg := { a.cfg with jwords := 2 } }).pass 0;
      u.journalFits 0 ((piecesOf 255 2 (rangeWords (runsOf [5]))).map fun b => 1 + b.length) true = false) ∧
    (∀ ty ∈ [1, 2, 4, 7, 8], let u := (((wSet fun a => { a with queue := [{ wMember with type := ty }] }).onTile 0 (·.w (LinkReg.LSTATE 2) 2)).onTile 4
        (·.w (LinkReg.LSTATE 2) 2)).pass 0;
      (u.aset 0).queue.head? = some { wMember with type := ty } ∧ u.primaryUp 0 = true ∧ u.split = false ∧
      u.journalInTime wMember.words = true ∧ u.mirrorUp 0 = true) ∧
    (let u := ((wSet fun a => { a with queue := [wMember] }).onTile 4 fun x => { x with inReset := true }).pass 0;
      u.mirrorUp 0 = false ∧ u.primaryUp 0 = true ∧ u.split = false) ∧
    (let u := ((wSet fun a => { a with queue := [wMember] }).onAtrium 0 (·.flag AuthReg.SPLIT)).pass 0;
      u.split = true ∧ (u.aset 0).cfg.local = true ∧ u.primaryUp 0 = true) ∧
    (let u := awake.pass (2 ^ 24); u.tileUp 0 = true ∧ (u.tile 0).bolt.lastAccrual + 1600 ≤ u.cycle ∧
      (u.tile 0).bolt.winStart + cyclesOfUs (atLeast1 ((u.tile 0).r BoltReg.PACE_WIN)) ≤ u.cycle) := by
  refine ⟨?_, ?_, ?_, ?_, ?_, ?_, ?_, ?_, ?_, ?_, ?_, ?_, ?_, ?_, ?_, ?_, ?_, ?_, ?_, ?_⟩ <;> decide

/-- A descriptor in the host ring of tile 0's Bolt engine; with `r` the ring that completions go to has this many slots. -/
def wBolt (r d : Nat) (f : ASet → ASet) : State := (wSet f).onTile 0 fun x =>
  { (x.w BoltReg.HQ_WR 1).w BoltReg.CQ_SLOTS r with stack := x.stack.writeLE 0 64 d }

/-- A descriptor of the background ring. -/
def wBack : State := (wSet id).onTile 0 fun x => { x.w BoltReg.BGQ_WR 1 with
  stack := x.stack.writeLE 0 1 8 }

/-- The band that descriptors name. -/
def wNamed (a : ASet) : ASet := { a with bands := [wBand] }

/-- The PSA of a band. -/
def wPsa : Nat := psaOf 3 9 2900 0 0

/-- Witnesses of BoltDescriptors: the ring and the checks. -/
theorem witness_BoltDescriptors :
    (∀ ty ∈ [1, 2, 3, 4, 5, 6, 7, 8, 9, 10], let u := (wBolt 64 ty id).pass 0; u.boltRing 0 = some false ∧
      (u.ringDesc 0 false).type = ty ∧ u.stackUe 0 ((u.tile 0).ringByte false) 64 = false ∧
      u.boltCheck 0 (u.ringDesc 0 false) = none ∧ (u.aset (toTile (u.ringDesc 0 false).set)).named (u.ringDesc 0 false) = none) ∧
    (wBack.pass 0).boltRing 0 = some true ∧
    (let u := (wBolt 64 11 id).pass 0; u.boltRing 0 = some false ∧ (u.ringDesc 0 false).type = 11) ∧
    (let u := ((wBolt 64 1 id).onTile 0 fun x => { x with stack := { x.stack with ue := [0] } }).pass 0;
      u.boltRing 0 = some false ∧ u.stackUe 0 ((u.tile 0).ringByte false) 64 = true) ∧
    (∀ ty ∈ [1, 2, 3, 4, 5, 6, 7, 8, 9, 10], let u := (wBolt 1 (ty + 256) id).pass 0;
      u.boltCheck 0 (u.ringDesc 0 false) = some 1) ∧
    (let x := ((wBolt 1 3 id).pass 0).tile 0; let n := atLeast1 (x.r BoltReg.CQ_SLOTS);
      (x.r BoltReg.CQ_WR % n + 1) % n = x.r BoltReg.CQ_RD % n) ∧
    (let x := ((wBolt 64 3 id).pass 0).tile 0; let n := atLeast1 (x.r BoltReg.CQ_SLOTS);
      ¬ (x.r BoltReg.CQ_WR % n + 1) % n = x.r BoltReg.CQ_RD % n ∧ x.bolt.waiting = []) := by
  refine ⟨?_, ?_, ?_, ?_, ?_, ?_, ?_⟩ <;> decide

/-- Witnesses of BoltDescriptors: descriptors of each type, and the end of one that runs. -/
theorem witness_BoltDescriptors_types :
    (let u := ((wBolt 64 (3 + wPsa * 2 ^ 256) id).onHead 0 (·.w LandReg.LAYER_COUNT 4)).pass 0; let d := u.ringDesc 0 false;
      let a := u.aset 0; d.psa = wPsa ∧ psaValid (u.head (a.cfg.headAt 0)).layerCount
        (fun layer _ => u.setStrength a.cfg layer (psaBand d.psa)) d.psa = true ∧
      psaTrack d.psa = 0 ∧ psaSector d.psa = 0 ∧ (psaLayer d.psa, psaBand d.psa) ∉ a.opened ∧
      (psaLayer d.psa, psaBand d.psa) ∉ a.targets ∧ a.owed = [] ∧ u.journalFits 0 [4] false = true) ∧
    (wBolt 64 3 fun a => { a with cfg := { a.cfg with jwords := 5 } }).journalFits 0 [4] false = false ∧
    (∀ ty ∈ [4, 5, 6, 7], let u := (wBolt 64 (ty + 5 * 2 ^ 64) wNamed).pass 0;
      (u.aset 0).named (u.ringDesc 0 false) = some wBand) ∧
    (let u := (wBolt 64 (6 + 5 * 2 ^ 64) wNamed).pass 0; u.stackWords 0 0 0 = [] ∧ wBand.has 5 = true ∧
      wBand.has 6 = false ∧ bitOf wBand.committed 0 = false) ∧
    (isUserBand 2900 = true ∧ ((wBolt 64 7 wNamed).aset 0).targets = []) ∧
    (((wBolt 64 10 id).aset 0).waits = [] ∧ ((wBolt 64 10 id).aset 0).loading = []) ∧ recordsOk [2] = true ∧ recordsOk [6] = false ∧
    ((wSet fun a => { a with cfg := { a.cfg with mapSize := 0 } }).aset 0).cfg.mapRecords = 0 ∧
    (let u := ((wSet id).onTile 0 fun x => { x with bolt := { x.bolt with
        active := some { BoltDesc.reset with type := 1 } } }).pass 0;
      (u.tile 0).bolt.active = some { BoltDesc.reset with type := 1 } ∧ u.tileUp 0 = true ∧ u.boltTimeUp 0 = true) := by
  refine ⟨?_, ?_, ?_, ?_, ?_, ?_, ?_, ?_, ?_, ?_⟩ <;> decide

/-- Witnesses of SetCommands and BoltDescriptors: a journal buffer of the home tile that is sound, corrected, uncorrectable,
and one that suspended the set. -/
theorem witness_journalBuffer :
    (∀ p ∈ [([], false), ([(0, 1)], false), ([(0, 3)], true)], let u := (wBolt 64 (5 + 5 * 2 ^ 64) wNamed).onTile 0 fun x =>
        { x with journalBuf := { x.journalBuf with flips := p.1 } };
      (u.tile (u.aset 0).cfg.homeTile).journalUe = false ∧ (u.tile (u.aset 0).cfg.homeTile).journalBuf.bad 0 (2 ^ 32) = p.2) ∧
    (((wSet id).onTile 0 fun x => { x with journalUe := true }).tile 0).journalUe = true := by
  refine ⟨?_, ?_⟩ <;> decide

/-- Tile 0 with its thermal block changed, once `n` CORE cycles have passed. -/
def wHeat (n : Nat) (f : HeatSt → HeatSt) : State := { awake.onTile 0 fun x => { x with heat := f x.heat } with cycle := n }

/-- Tile 1 with registers changed. -/
def wTileReg (fs : List (Fld × Nat)) : State := awake.onTile 1 fun x => fs.foldl (fun x e => x.w e.1 e.2) x

/-- Witnesses of ThermalBlock: the sensors, the trip and the restart. -/
theorem witness_ThermalBlock :
    (let u := (wHeat 160000 fun h => { h with lastSample := some 0 }).pass 0; u.heatOn 0 = true ∧
      ((u.tile 0).heat.lastSample = some 0 ∧ 0 + cyclesOfUs 100 ≤ u.cycle) ∧ [1, 2, 3, 4, 5, (6 : Int)].length = 6) ∧
    (let u := (wHeat 0 fun h => { h with outRun := [16, 16, 0, 0, 0, 0] }).pass 0; let h := (u.tile 0).heat
      ((List.range 6).filter fun i => bitOf h.checked i && decide (atLeast1 ((u.tile 0).r HeatReg.XCHK_N) ≤ h.outRun.getD i 0))
        = [0, 1]) ∧
    (let u := (wHeat 0 fun h => { h with checked := 3, inRun := [0, 0, 16, 0, 0, 0] }).pass 0; let h := (u.tile 0).heat
      ((List.range 6).filter fun i => !bitOf h.checked i && decide (atLeast1 ((u.tile 0).r HeatReg.XCHK_N) ≤ h.inRun.getD i 0))
        = [2]) ∧ countSensors 3 < 3 ∧ 3 ≤ countSensors 7 ∧
    (let u := (wHeat 1600000 fun h => { h with lastStack := some 0 }).pass 0; u.heatOn 0 = true ∧
      (u.tile 0).heat.heavyOff = false ∧ 0 + cyclesOfMs 1 ≤ u.cycle) ∧
    (let u := (wHeat 0 fun h => { h with tripRun := [1, 2, 2, 0, 0, 0] }).pass 0; let h := (u.tile 0).heat
      u.heatOn 0 = true ∧ h.tripAt = none ∧ 2 ≤ h.tripRun.getD 1 0 ∧ (∀ j ∈ List.range 1, h.tripRun.getD j 0 < 2) ∧
      u.storeRefuses = false ∧ (0 : Fin 8).val % 4 = 0) ∧
    (let u := ((wHeat 0 id).onTile 1 fun x => { x with heat := { x.heat with tripRun := [2, 0, 0, 0, 0, 0] } }).pass 0
      let a := atriumTile (wingOf 1)
      u.heatOn 1 = true ∧ a ≠ 1 ∧ u.asleep a = false ∧ (u.tile a).heat.heavyOff = false ∧
        (u.tile a).b HeatReg.TRIPPED = false ∧ u.recordFits = true ∧
        (u.onAtrium 0 (·.w (EvReg.EV_MERGE 0) 0)).pr 0 (EvReg.EV_MERGE 0) = 0) ∧
    (let u := { wHeat 0 id with pkg := { awake.pkg with refusing := true } }; u.storeRefuses = true) ∧
    (let u := { wHeat 0 id with boot := { awake.boot with phase := .load, tileLoad := [0] } }; u.heatOn 0 = true ∧
      u.boot.phase = .load) ∧
    (let u := (wHeat 8000 fun h => { h with tripAt := some 0 }).pass 0; let h := (u.tile 0).heat
      h.tripAt = some 0 ∧ 0 + cyclesOfUs 5 ≤ u.cycle ∧ h.heavyOff = false) ∧
    (let u := (wHeat 8000 fun h => { h with tripAt := some 0, heavyOff := true, coolRun := 1000 }).pass 0
      let h := (u.tile 0).heat; h.tripAt = some 0 ∧ h.heavyOff = true ∧ 1000 ≤ h.coolRun ∧
      u.boot.tileLoad.contains (0 : Fin 8).val = false ∧
      ({ u with boot := { u.boot with tileLoad := [0] } }).boot.tileLoad.contains (0 : Fin 8).val = true) ∧
    (let a := (awake.onSet 0 fun a => { a with cfg := { a.cfg with n := 3 } }).aset 0; a.cfg.n ≠ 0 ∧ a.cfg.homeTile = 0) ∧
    (let u := awake.atTile core0 0 0x600000; awake.accessOf core0 (.tile 0 0x600000) = .ok) := by
  refine ⟨?_, ?_, ?_, ?_, ?_, ?_, ?_, ?_, ?_, ?_, ?_, ?_, ?_, ?_⟩ <;> decide

/-- Witnesses of ThermalBlock: throttling. -/
theorem witness_ThermalBlock_throttle :
    (let u := { wTileReg [] with cycle := 16000000 }.pass 0; let x := u.tile 1; u.heatOn 1 = true ∧ x.inReset = false ∧
      x.heat.lastEval + cyclesOfMs (atLeast1 (x.r HeatReg.STEP_T)) ≤ u.cycle ∧ x.b HeatReg.THROT_EN = true ∧
      x.r HeatReg.THROT_LEVEL = 0 ∧ x.r HeatReg.TSTEP = 0 ∧ x.ri HeatReg.T_MAX < x.ri HeatReg.THR_OFF ∧
      x.ri HeatReg.STACK_TEMP < x.ri HeatReg.STACK_THR - (x.ri HeatReg.THR_ON - x.ri HeatReg.THR_OFF) ∧
      392 + 27 * 0 ≤ x.r HeatReg.CAP_W) ∧
    (let x := (wTileReg [(HeatReg.T_MAX, 25600), (HeatReg.THROT_LEVEL, 7), (HeatReg.CAP_W, 100)]).tile 1;
      x.ri HeatReg.THR_ON ≤ x.ri HeatReg.T_MAX ∧ x.r HeatReg.THROT_LEVEL = 7 ∧ x.r HeatReg.TSTEP < 7 ∧
      x.r HeatReg.CAP_W < 176) ∧
    (let x := (wTileReg [(HeatReg.STACK_TEMP, 24320)]).tile 1;
      x.ri HeatReg.STACK_THR ≤ x.ri HeatReg.STACK_TEMP ∧ x.r HeatReg.THROT_LEVEL < 7) ∧
    (let x := (wTileReg [(HeatReg.T_MAX, 25600), (HeatReg.THROT_LEVEL, 7), (HeatReg.TSTEP, 7)]).tile 1;
      x.ri HeatReg.THR_ON ≤ x.ri HeatReg.T_MAX ∧ x.r HeatReg.THROT_LEVEL = 7 ∧ x.r HeatReg.TSTEP = 7) ∧
    (let x := (wTileReg [(HeatReg.T_MAX, 24832), (HeatReg.TSTEP, 2)]).tile 1;
      ¬ x.ri HeatReg.T_MAX < x.ri HeatReg.THR_OFF ∧ ¬ x.ri HeatReg.THR_ON ≤ x.ri HeatReg.T_MAX ∧ 0 < x.r HeatReg.TSTEP) ∧
    ((wTileReg [(HeatReg.THROT_EN, 0)]).tile 1).b HeatReg.THROT_EN = false ∧ capLanes 3 1 ≠ capLanes 2 1 := by
  refine ⟨?_, ?_, ?_, ?_, ?_, ?_, ?_⟩ <;> decide

/-- The package, its wings split or not, with every bridge of the tiles listed up, and the two Atrium copies changed. -/
def wWings (split : Bool) (up : List (Fin 8)) (f g : Atrium → Atrium) : State :=
  let s := up.foldl (fun s t => s.onTile t (·.w (LinkReg.LSTATE 2) 2)) awake
  (s.onAtrium 0 fun a => f (a.put AuthReg.SPLIT split)).onAtrium 1 fun a => g (a.put AuthReg.SPLIT split)

/-- HOLDER_WING names the east wing. -/
def wEast (a : Atrium) : Atrium := a.w AuthReg.HOLDER_WING 1

/-- Ten milliseconds of package time, twice over, at every tile. -/
def wLate (s : State) : State := { s with tiles := Vector.replicate 8 ((s.tile 0).w (LinkReg.LSTATE 2) 2 |> fun x =>
  { x with time16 := 20000000 * 16 }) }

/-- Witnesses of AuthorityWarp: the commands of AUTH_CMD. -/
theorem witness_AuthorityWarp :
    awake.accessOf core0 (.pkg 0x614) = .ok ∧
    (let u := (awake.atPkg core0 0x614).smbWing 0; u.copyOf core0 = 0 ∧ u.holds 0 = true ∧ u.bridges = 0) ∧
    (let u := ((wWings false [] wEast wEast).atPkg core0 0x614).smbWing 0; u.copyOf core0 = 0 ∧ u.holds 0 = false ∧
      u.leaseValid 0 = false ∧ u.storeRefuses = false) ∧
    (let s := wWings false [] wEast wEast; let u := (({ s with pkg := { s.pkg with refusing := true } }).atPkg core0 0x614).smbWing 0;
      u.holds 0 = false ∧ u.leaseValid 0 = false ∧ u.storeRefuses = true ∧
      u.epoch 0 ≠ (max (u.epoch 0) (u.atrium 0).epochSeen + 1) % 2 ^ 64) ∧
    (let u := ((wWings true [] (·.flag AuthReg.FROZEN) id).atPkg core0 0x614).smbWing 0;
      u.holds 0 = true ∧ u.split = true ∧ u.rejoining = false ∧ (u.atrium 0).b AuthReg.FROZEN = true) ∧
    (let s := wWings false [0, 4] wEast wEast; let u := (s.atPkg core0 0x614).smbWing 0;
      s.accessOf core0 (.pkg 0x614) = .ok ∧ u.bridges ≠ 0) ∧
    (let u := ((wWings false [0, 4] (fun a => { wEast a with leaseSeen := true }) wEast).atPkg core0 0x614).smbWing 0;
      u.holds 0 = false ∧ u.leaseValid 0 = true ∧ u.bridges ≠ 0) ∧
    (let u := ((wWings false [0, 4] id id).atPkg core0 0x614).smbWing 0;
      u.holds 0 = true ∧ u.split = false ∧ u.bridges ≠ 0 ∧ (u.atrium 0).b AuthReg.FROZEN = false) ∧
    (let u := ((wWings false [0, 4] (·.flag AuthReg.FROZEN) id).atPkg core0 0x614).smbWing 0;
      u.holds 0 = true ∧ u.split = false ∧ u.bridges ≠ 0 ∧ (u.atrium 0).b AuthReg.FROZEN = true) := by
  refine ⟨?_, ?_, ?_, ?_, ?_, ?_, ?_, ?_, ?_⟩ <;> decide

/-- Witnesses of AuthorityWarp: the lease's own events. -/
theorem witness_AuthorityWarp_lease :
    (let u := (wWings false [0, 4] id id).pass 0; u.holds 0 = true ∧ (u.atrium 0).held = false ∧
      (u.atrium 0).sentMs ≠ some (u.ns (atriumTile 0) / 1000000) ∧ u.reaches 0 4 = true) ∧
    (let f : LeaseFlit := ⟨3, 0, 1, 5⟩; let u := (wWings false [] (fun a => { a with sent := some f }) id).pass 0;
      (u.atrium (otherWing 1)).sent = some f ∧ (u.atrium 1).held = false ∧ u.holds 1 = false ∧ u.epoch 1 ≤ f.epoch) ∧
    (let f : LeaseFlit := ⟨3, 0, 1, 5⟩; let u := (wWings false [] (fun a => { a with sent := some f })
        fun a => { (wEast a).w AuthReg.EPOCH_LO 4 with held := true }).pass 0
      (u.atrium (otherWing 1)).sent = some f ∧ (u.atrium 1).held = true ∧ u.holds 1 = true ∧ f.epoch < u.epoch 1 ∧
        f.holder = (otherWing 1).val) ∧
    (let u := (wLate (wWings false [] wEast fun a => { wEast a with handover := some 3 })).pass 0;
      u.holds 0 = false ∧ (u.atrium 0).held = false ∧ 2000000 < u.ns (atriumTile 0) - (u.atrium 0).lastRenewal ∧
      20000000 ≤ u.ns (atriumTile 0) - (u.atrium 0).lastRenewal ∧ u.bridges ≠ 0 ∧ u.storeRefuses = false ∧
      (u.atrium 1).handover = some 3) ∧
    ((wWings false [] (fun a => { a with leaseSeen := true }) id).atrium 0).leaseSeen = true ∧
    ({ awake with pkg := { awake.pkg with refusing := true } }).storeRefuses = true := by
  refine ⟨?_, ?_, ?_, ?_, ?_, ?_⟩ <;> decide

/-- Tile 0 of the package with every link up, a flit for tile 6 at the end of tile 1's link to it. -/
def wRouted (path : List (Fin 8)) : State :=
  let s := allTiles.foldl (fun s t => [(0 : Fin 3), 1, 2].foldl (fun s k => s.onTile t (·.w (LinkReg.LSTATE k) 2)) s) awake
  let g : Flit := { src := 1, dst := 6, vc := 1, num := 0, came := none, path := path }
  s.onTile (warpFar 0 0) fun x => { x with links := x.links.set (warpBack 0) { x.links[warpBack 0] with queue := [g] } }

/-- Witnesses of AuthorityWarp: flits on their path. -/
theorem witness_AuthorityWarp_flits :
    (let u := (wRouted [0, 4, 6]).pass 0; u.linkUp 0 0 = true ∧ (u.tile (warpFar 0 0)).links[warpBack 0].replay = [] ∧
      (u.nextFlit (warpFar 0 0) (warpBack 0)).map (·.path) = some [0, 4, 6] ∧ warpLinkTo 0 4 = some 2 ∧ u.linkUp 0 2 = true) ∧
    (let u := ((wRouted [0, 4, 6]).onTile 0 (·.w (LinkReg.LSTATE 2) 0)).pass 0; u.linkUp 0 2 = false ∧
      u.pathUp 0 [4] = false ∧ ((u.route 0 6).map (·.1.headD 0)).isSome = true) := by
  refine ⟨?_, ?_⟩ <;> decide

/-- Witnesses of AuthorityWarp: links, a split and a rejoin. -/
theorem witness_AuthorityWarp_links :
    (let u := (wWings false [0, 4] id id).pass 0; u.linkUp 0 2 = true ∧ (u.tile 0).r (LinkReg.LSTATE 2) = 2 ∧
      cyclesOfUs 1 ≤ 1600 ∧ u.split = false ∧
      (∀ i ∈ [0, 1, 2, (3 : Fin 8)], i ≠ 0 → i ≠ warpFar 0 2 → u.linkUp i 2 = false)) ∧
    (let u := (wWings true [0, 4] id id).pass 0; u.split = true ∧ u.linkUp 0 2 = true) ∧
    (let u := (wWings true [] id wEast).pass 0; u.linkExists 0 2 = true ∧ u.linkUp 0 2 = false ∧
      u.boot.phase ∉ [.held, .pll] ∧ u.split = true ∧ u.rejoining = false ∧ u.holds 0 = true ∧ u.holds 1 = true) ∧
    (let u := (wWings true [] id id).pass 0; u.holds 0 = true ∧ u.holds 1 = false ∧ u.rejoining = false) ∧
    (let u := (wWings true [] wEast wEast).pass 0; u.holds 0 = false ∧ u.holds 1 = true ∧ u.rejoining = false) ∧
    (let u := ((wWings true [0, 4] (fun a => { a with rejoin := some 0, rejoinAt := 5 }) fun a =>
        a.w AuthReg.EPOCH_LO 2).onTile 4 fun x => { x with lastSync := some 7 }).pass 0
      let o := atriumTile (otherWing u.mainWing);
      u.rejoining = true ∧ u.bridges ≠ 0 ∧ (∀ w : Fin 2, u.masterOf w = atriumTile u.mainWing) ∧
      (u.tile o).lastSync = some 7 ∧ (u.atrium 0).rejoinAt ≤ 7 ∧ u.epoch 0 ≠ u.epoch 1 ∧ u.storeRefuses = false) := by
  refine ⟨?_, ?_, ?_, ?_, ?_, ?_⟩ <;> decide

/-- The package with the stores refusing writes. -/
def wRefusing : State := { awake with pkg := { awake.pkg with refusing := true } }

/-- The package with register fields of both Atrium copies changed. -/
def wPkg (fs : List (Fld × Nat)) : State :=
  let f (a : Atrium) : Atrium := fs.foldl (fun a e => a.w e.1 e.2) a
  (awake.onAtrium 0 f).onAtrium 1 f

/-- A key update of an OP, badly formed, at byte 0 of stack 0. -/
def wUpdate (op : Nat) : State := awake.onTile 0 fun x => { x with stack := x.stack.writeLE 0 8 (op * 2 ^ 32) }

/-- The package with other pins and the like. -/
def wPins' (f : PkgSt → PkgSt) : State := { awake with pkg := f awake.pkg }

/-- A running operation of flash 0, which both copies show. -/
def wFlash (op : Nat) : State :=
  { (wPkg [(FlashReg.FL_BUSY 0, 1)]).onFlash 0 fun x => { x with started := some 0, op := op } with cycle := 8000000000 }

/-- Witnesses of FlashAndKeys: the persistent registers and key updates. -/
theorem witness_FlashAndKeys :
    (∀ off ∈ [0x218, 0x21C, 0x220, 0x228, 0x284, 0x40C, 0x44C], awake.accessOf core0 (.pkg off) = .ok ∧
      let u := awake.atPkg core0 off; u.copyOf core0 = 0 ∧ u.allowed core0 = true ∧ u.storeRefuses = false ∧
      u.split = false ∧ u.pr 0 BootReg.BR_ACK = 0 ∧ u.pr 0 BootReg.SEQ_LO = 0 ∧ u.pkg.persistNow = []) ∧
    (let e : PersistWrite := ⟨0, .core 1 0, 0x220, 3, 0, 0, 0, 0⟩
      let u := (wPins' fun p => { p with persistNow := [e] }).atPkg core0 0x220
      u.pkg.persistNow = [e] ∧ e.cycle = u.cycle ∧ u.reqTile core0 < u.reqTile e.req ∧ u.allowed e.req = true) ∧
    (let u := wRefusing.atPkg core0 0x284; u.allowed core0 = true ∧ u.storeRefuses = true) ∧
    (let u := (wPkg [(AuthReg.FROZEN, 1)]).atPkg core0 0x284; u.allowed core0 = false) ∧
    (∀ op ∈ [1, 2, 3], let u := (wUpdate op).atPkg core0 0x228; let x := u.tile 0
      u.updateOp 0 = op ∧ u.allowed core0 = true ∧ x.stack.ue = [] ∧ x.stack.ce = [] ∧ inStaging 0 288 = true ∧
      u.stackUp 0 = true ∧ ofBytes ((u.stackBytes 0 0 288).take 4) ≠ 0x554B4C50) := by
  refine ⟨?_, ?_, ?_, ?_, ?_⟩ <;> decide

/-- Witnesses of FlashAndKeys: the flash controllers. -/
theorem witness_FlashAndKeys_flash :
    (let u := awake.atPkg core0 0x40C; (u.flash 0).started = none ∧ (u.flash 0).bootRead = false ∧
      u.pr 0 (FlashReg.FL_ADDR 0) = 0 ∧ u.pr 0 (FlashReg.FL_LEN 0) = 0 ∧ inStaging 0 0 = true ∧
      u.pr 0 BootReg.ACTIVE_SLOT_0 = 0) ∧
    ((wPkg [(BootReg.ACTIVE_SLOT_0, 1), (BootReg.ACTIVE_SLOT_1, 1)]).pr 0 BootReg.ACTIVE_SLOT_0 = 1) ∧
    ((wPkg [(FlashReg.FL_ADDR 0, 1)]).pr 0 (FlashReg.FL_ADDR 0) = 1) ∧
    (let u := (wPkg [(FlashReg.FL_BUF 0, 2 ^ 29 - 1), (FlashReg.FL_LEN 0, 1)]).atPkg core0 0x40C;
      inStaging (64 * u.pr 0 (FlashReg.FL_BUF 0)) (u.pr 0 (FlashReg.FL_LEN 0)) = false ∧ u.stackUp (atriumTile 0) = true) ∧
    (∀ op ∈ [0, 1, 2, 3], let u := (wFlash op).pass 0; (u.flash 0).started = some 0 ∧ (u.flash 0).op = op ∧
      (∀ k, u.pr k (FlashReg.FL_BUSY 0) = 1) ∧ inStaging (u.flash 0).buf (u.flash 0).len = true ∧
      0 + 5000 * cyclesOfMs 1 ≤ u.cycle ∧ u.stackUp 0 = true ∧ (u.tile 0).stack.ue = [] ∧ (u.tile 0).stack.ce = []) ∧
    (let u := ((wFlash 1).onTile 0 fun x => { x with inReset := true }).pass 0;
      u.stackUp (atriumTile 0) = false) := by
  refine ⟨?_, ?_, ?_, ?_, ?_, ?_⟩ <;> decide

/-- Witnesses of SpdmAndSmbus. -/
theorem witness_SpdmAndSmbus :
    awake.boot.phase ∉ [.held, .pll] ∧ ({ awake with pkg := { awake.pkg with alertN := false } }).pkg.alertN = false ∧
    (4 % 4 = 0 ∧ 4 + 4 * 12 ≤ 2 ^ 32 ∧ 2 ^ 32 < 2 ^ 32 - 4 + 4 * 2) ∧ cyclesOfMs 35 ≤ 56000000 ∧
    (let u := (wPkg [(AuthReg.SMB_WING, 2)]).pass 0; u.holds (u.copyOf .smbus) = false ∧
      reservedWrite 0x24 0 = true ∧ reservedWrite 0x10 0 = false) ∧
    awake.holds (awake.copyOf .smbus) = true ∧
    (let m := { smbHead 1 with vendor := awake.pr (awake.copyOf .smbus) IdReg.MCTP_VENDOR_ID }; m.pec = true ∧ m.unit ≤ 64 ∧
      m.type = 0x7F ∧ m.vendor = awake.pr (awake.copyOf .smbus) IdReg.MCTP_VENDOR_ID ∧ m.op = 1 ∧ (smbHead 2).op = 2 ∧
      awake.smb.busyTill ≤ awake.cycle ∧ awake.cycle < ({ SmbSt.reset with busyTill := 5 }).busyTill) ∧
    (let u := wRefusing; (u.smbWriteWords (smbWords 0x220 [7])).1 = true ∧ (awake.smbWriteWords (smbWords 0x220 [7])).1 = false) ∧
    (∀ p : Fin 8, let b : SmbSt := { SmbSt.reset with
        spdmVersion := bitOf p.val 0, spdmCaps := bitOf p.val 1, spdmAlgs := bitOf p.val 2 }
      ({ awake with smb := b }).smb = b) ∧
    (awake.copyOf .smbus = 0 ∧ ([1, 5, 0, 0, 0] : List Byte).length = 5) := by
  refine ⟨?_, ?_, ?_, ?_, ?_, ?_, ⟨?_, ?_, ?_, rfl, ?_⟩, ?_, ?_, ?_⟩ <;> decide

/-- Core 0 of tile 0 runs. -/
def wCore (f : CoreSt → CoreSt) : State := awake.onCore 0 0 fun x => f { x with running := true }

/-- An access of 4 bytes. -/
def wAcc (a : Nat) : CoreAccess := { addr := a, size := 4, value := 7, rd := 5, zext := false }

/-- Tile 0 with fields of its registers changed, and its core 0 running. -/
def wCoreReg (fs : List (Fld × Nat)) : State := (wCore id).onTile 0 fun x => fs.foldl (fun x e => x.w e.1 e.2) x

/-- Witnesses of Cores: regions, accesses and atomic instructions. -/
theorem witness_Cores :
    (let u := (wCore id).pass 0; u.coreRuns 0 0 = true ∧ ((u.tile 0).core 0).buffer = [] ∧
      (wAcc 2).addr % 4 ≠ 0 ∧ (wAcc 0x4000000000).addr % 4 = 0 ∧
      u.region 0 0x100000 = .hole ∧ u.region 0 0x100000000 = .regs 0 ∧ u.region 0 0x7FFFC = .tcm 0 0x7FFFC ∧
      u.region 0 0x80000 = .tcm 1 0 ∧ ((u.tile 0).core 0).tcm.flips = [] ∧ u.interruptFor 0 0 = none ∧
      ((u.tile 0).core 0).mayRead 0 4 = true ∧ ((u.tile 0).core 0).mayWrite 0 4 = true ∧ ((u.tile 0).core 0).mayFetch 0 4 = true ∧
      0x4000000000 % 64 + 4 ≤ 64 ∧ ¬ 0x400000003E % 64 + 4 ≤ 64 ∧
      u.region 0 0x4000000000 = .stack 0 0 ∧ u.region 0 (0x4000000000 + 7 * 0x800000000) = .stack 7 0 ∧
      (u.cache 0 0 1).fill = none ∧ (u.cache 0 0 1).lacks (0x4000000000 / 64) = true ∧
      u.stackReached 0 0 = true ∧ (u.tile 0).stack.ue = [] ∧ (u.tile 0).stack.ce = [] ∧ inStaging 0 4 = true) ∧
    (let u := (wCoreReg [(CacheReg.CACHE_EN 1, 0)]).pass 0; (u.tile 0).cacheOn 0 1 = false) ∧
    (let u := (wCoreReg [(CacheReg.CACHE_EN 1, 1)]).pass 0; (u.tile 0).cacheOn 0 1 = true) ∧
    (let u := ((wCore id).onTile 7 fun x => { x with inReset := true }).pass 0; u.stackReached 0 7 = false) ∧
    (let u := (wCore fun c => { c with tcm := { c.tcm with flips := [(0, 3)] } }).pass 0;
      ((u.tile 0).core 0).tcm.badAt 0 4 = some 0) ∧
    (∀ m ∈ [0, 1], let k := ((wCore fun c => { c with mode := m, csr := { c.csr with medeleg := 2 ^ 8, mideleg := 2 ^ 7, stvec := 1 } }).tile 0).core 0;
      k.mode < 3 ∧ bitOf k.csr.medeleg 8 = true ∧ bitOf k.csr.mideleg 7 = true ∧ k.csr.stvec % 4 = 1 ∧
      k.mayRead 0 4 = false ∧ k.mayWrite 0 4 = false ∧ k.mayFetch 0 4 = false) ∧
    (let u := ((wCore fun c => { c with csr := { c.csr with mie := 8, mstatus := 8 } }).onTile 0 (·.w (GalReg.MSIP 0) 1)).pass 0;
      u.coreRuns 0 0 = true ∧ u.interruptFor 0 0 = some 3 ∧ u.csrRead 0 0 0x7C0 = none ∧ u.csrRead 0 0 0x300 ≠ none ∧
      bitsOf 0xF14 11 10 = 3) ∧
    (CoreSt.reset.csr.sip < 2 ^ 12 ∧ bitOf CoreSt.reset.csr.sip 3 = false ∧ bitOf CoreSt.reset.csr.sip 7 = false) ∧
    (let u := ((wCore id).onTile 0 fun x => { x with stack := { x.stack with ue := [0] } }).pass 0;
      u.stackUe 0 0 4 = true) ∧
    (let l : CLine := { CLine.reset with tag := 0x4000000000 / 64, data := List.replicate 64 1, crc := crc16 (List.replicate 64 1) }
      let u := (wCore fun c => { c with dcache := { c.dcache with ways := [(lineSet l.tag, 0, l)] } }).pass 0;
      ((u.cache 0 0 1).find l.tag).map (fun e => e.2.2.crc == crc16 e.2.2.data) = some true) ∧
    (let u := (wCore fun c => { c with reserved := some (granule 0 (.tcm 0 0)) }).pass 0;
      ((u.tile 0).core 0).reserved = some (granule 0 (.tcm 0 0))) := by
  refine ⟨?_, ?_, ?_, ?_, ?_, ?_, ?_, ?_, ?_, ?_, ?_⟩ <;> decide

/-- Witnesses of Cores: the buffer, the timer, fills and the registers of a cache. -/
theorem witness_Cores_caches :
    (let u := (wCore fun c => { c with buffer := [⟨0x4000000000, 4, 7⟩] }).pass 0; u.coreRuns 0 0 = true ∧
      ((u.tile 0).core 0).buffer = [⟨0x4000000000, 4, 7⟩] ∧ (u.cache 0 0 0).ops = [] ∧ (u.cache 0 0 1).ops = [] ∧
      u.region 0 0x4000000000 = .stack 0 0 ∧ u.stackReached 0 0 = true) ∧
    (let u := ((wCore id).onTile 7 fun x => { x with inReset := true }).pass 0;
      u.region 0 (0x4000000000 + 7 * 0x800000000) = .stack 7 0 ∧ u.stackReached 0 7 = false) ∧
    ((wCore id).accessOf core0 (placeOf 0) ≠ .noRoute) ∧
    (let u := (wCoreReg [(GalReg.MTIMECMP_LO 0, 0), (GalReg.MTIMECMP_HI 0, 0)]).pass 0; let x := u.tile 0;
      x.r (GalReg.MTIMECMP_LO 0) + x.r (GalReg.MTIMECMP_HI 0) * 2 ^ 32 ≤ u.ns 0) ∧
    (∀ inv : Bool, let f (c : CacheSt) : CacheSt := { c with
        fill := some (0x4000000000 / 64), waiting := [wAcc 0x4000000004], fillInv := inv, prefetch := [0x4000000000 / 64] }
      let u := (wCore fun c => { c with icache := f c.icache }).pass 0; let h := u.cache 0 0 0;
      h.fill = some (0x4000000000 / 64) ∧ h.waiting = [wAcc 0x4000000004] ∧ h.fillWay = none ∧ h.fillInv = inv ∧
      0x4000000000 / 64 = 0x4000000004 / 64 ∧ h.find (0x4000000000 / 64) = none ∧ ((u.tile 0).core 0).half = none ∧
      ((u.tile 0).core 0).buffer = [] ∧ u.region 0 (64 * (0x4000000000 / 64)) = .stack 0 0 ∧
      inStaging 0 64 = true ∧ h.prefetch = [0x4000000000 / 64]) ∧
    (let u := (wCore fun c => { c with dcache := { c.dcache with ll := some (1, 0, 3) } }).pass 0;
      (u.cache 0 0 1).ll = some (1, 0, 3) ∧ (u.cache 0 0 1).ops = []) ∧
    ((wCore id).accessOf core0 (.tile 0 0x40) = .ok) ∧
    (∀ k : Fin 2, let s := wCoreReg [(CacheReg.LOCK_WAYS (cacheNo 0 k), 1), (CacheReg.RANGE_LEN (cacheNo 0 k), 64)];
      let j := cacheNo 0 k; let off := 0x100 + 0x80 * j;
      s.accessOf core0 (.tile 0 (off + 0x10)) = .ok ∧ s.accessOf core0 (.tile 0 off) = .ok ∧
      let u := s.atTile core0 0 (off + 0x10); let x := u.tile 0
      bitOf (x.r (CacheReg.LOCK_WAYS j)) 0 = true ∧ x.r (CacheReg.RANGE_LEN j) = 64 ∧ (u.cache 0 0 k).ops = [] ∧
      (u.cache 0 0 k).ll = none ∧ ((s.atTile core0 0 off).cache 0 0 k).ll = none) := by
  refine ⟨?_, ?_, ?_, ?_, ?_, ?_, ?_, ?_⟩ <;> decide

/-- Port 0 ready, with one controller whose queue pairs are 0 and 1. -/
def wPort (fs : List (Fld × Nat)) (f : PortSt → PortSt) : State :=
  let up : List (Fld × Nat) := [(PortReg.ENABLE 0, 1), (PortReg.LINK_UP 0, 1), (PortReg.ACCEPT 0, 1), (PortReg.READY 0, 1),
    (PortReg.PRDY 0, 1), (PortReg.CONTROLLERS 0, 1)]
  let s := awake.onTile 0 fun x => List.foldl (fun (x : Tile) (e : Fld × Nat) => x.w e.1 e.2) x (up ++ fs)
  s.onPort 0 fun x => f { x with prdyRose := true, ctrls :=
    [{ Ctrl.reset with idx := 0, queues := [{ Queue.reset with qid := 0 }, { Queue.reset with qid := 1 }] }] }

/-- The same later, its controller changed. -/
def wLater (f : Ctrl → Ctrl) : State :=
  { wPort [] (fun x => { x with ctrls := x.ctrls.map f }) with cycle := 160000000 }

/-- Witnesses of Fabric. -/
theorem witness_Fabric :
    (let u := (wPort [(PortReg.LINK_UP 0, 0)] id).pass 0; u.tileUp 0 = true ∧ u.tileEnabled 0 = true ∧
      u.pb 0 PortReg.ENABLE = true ∧ u.pb 0 PortReg.LINK_UP = false ∧ u.portLanes 0 ≠ 0) ∧
    (let u := (wPort [] id).pass 0; u.pb 0 PortReg.LINK_UP = true ∧ u.portRuns 0 = true ∧ u.HostQuiet ∧
      (u.port 0).rx.length = 2 ∧ (u.port 0).pauseSent.length = 2 ∧ (u.port 0).paused.length = 2 ∧
      u.pv 0 PortReg.LL_PRI0 ≠ u.pv 0 PortReg.LL_PRI1 ∧ u.pb 0 PortReg.PFC_EN = true ∧
      ((u.port 0).ctrls.map (·.idx)).Nodup ∧ 131072 < 0 + 131073 ∧ 65536 < 0 + 131073) ∧
    (let u := ({ wPort [] (fun x => { x with paused := [some 0, none] }) with cycle := 160000000 } : State).pass 0;
      u.tileUp 0 = true ∧ (u.port 0).paused = [some 0, none] ∧ 0 + cyclesOfMs 100 ≤ u.cycle ∧
      (u.port 0).rateAt + cyclesOfUs 50 ≤ u.cycle) ∧
    (let u := (wLater fun c => { c with kato := 100 }).pass 0;
      (u.expiredCtrl 0).map (·.kato) = some 100 ∧ u.tileUp 0 = true ∧ u.HostQuiet) ∧
    (let u := (wLater fun c => { c with features := [(0x0C, 1)], apst := [(3, 5)] }).pass 0;
      (u.port 0).ctrls.map (fun c => u.apstDue c) = [some 3]) ∧
    (let u := (wPort [(PortReg.PFC_EN 0, 0)] id).pass 0; u.pb 0 PortReg.PFC_EN = false ∧ u.portRuns 0 = true) ∧
    (awake.accessOf core0 (.pkg 0x5000) = .ok ∧ (awake.atPkg core0 0x5000).allowed core0 = true ∧
      (awake.atPkg core0 0x5000).split = false ∧
      (awake.atPkg core0 0x5000).pr 0 HostReg.PS_CURRENT ≠ 4 ∧
      ((wPkg [(AuthReg.FROZEN, 1)]).atPkg core0 0x5000).allowed core0 = false) := by
  unfold State.HostQuiet
  refine ⟨?_, ?_, ?_, ?_, ?_, ?_, ?_⟩ <;> decide

/-- A capsule of controller 0 on a queue, with fields of its entry, by their lowest bit. -/
def wCap (qid : Nat) (fs : List (Nat × Nat)) : Capsule :=
  { ctrl := 0, qid := qid, sqe := BitVec.ofNat 512 (fs.foldl (fun n e => n + e.2 * 2 ^ e.1) 0), data := [], stage := 0 }

/-- The controller of `wPort` changed. -/
def wCtrl (f : Ctrl → Ctrl) : State := wPort [] fun x => { x with ctrls := x.ctrls.map f }

/-- A command of the first tag, of controller 0 and queue 1. -/
def wCmd (f : HostCmd → HostCmd) : HostCmd := f { HostCmd.reset with ctrl := 0, qid := 1, cid := 5, nsid := 1, opcode := 1, stage := .locked }

/-- Witnesses of NvmeAdmin: capsules that are fetched, and their fields. -/
theorem witness_NvmeAdmin :
    (let u := (wPort [] id).pass 0; u.Fetches 0 (wCap 0 []) ∧ u.Fetches 0 (wCap 1 []) ∧
      (u.ctrl 0 0).map (fun c => (c.held, c.aers.length, decide (c.cc < 2 ^ 32))) = some ([], 0, true) ∧
      (u.tile 0).hcrWait = [] ∧ (∀ k ∈ (u.port 0).cmds, k.tag < (u.port 0).nextTag) ∧
      ((u.tile 0).r LockReg.HCR_WR % 256 + 1) % 256 ≠ (u.tile 0).r LockReg.HCR_RD % 256 ∧
      inStaging ((u.tile 0).r LockReg.HCR_BASE * 4096) 128 = true) ∧
    (let u := (wPort [(LockReg.HCR_RD, 1)] id).pass 0; (u.tile 0).r LockReg.HCR_RD = 1 ∧ (u.tile 0).r LockReg.HCR_SLOTS = 256) ∧
    (∀ ty ∈ [0, 4, 8, 5], (wCap 0 [(0, 0x7F), (32, ty)]).opcode = 0x7F ∧ (wCap 0 [(0, 0x7F), (32, ty)]).fctype = ty) ∧
    (∀ o ∈ [0, 8, 0x14, 0x1C, 0x20], (wCap 0 [(0, 0x7F), (32, 4), (320, 1), (352, o)]).cdw 11 = o ∧
      (wCap 0 [(0, 0x7F), (32, 4), (320, 1), (352, o)]).bits 322 320 = 1 ∧
      (wCap 0 [(0, 0x7F), (32, 4), (352, o)]).bits 322 320 = 0) ∧
    (∀ o ∈ [2, 6, 8, 9, 0xA, 0xC, 0x10, 0x11, 0x18, 3], (wCap 0 [(0, o)]).opcode = o ∧ (wCap 0 [(0, o)]).fuse = 0 ∧
      (wCap 0 [(0, o), (8, 1)]).fuse = 1) ∧
    (∀ f ∈ [0, 1, 2, 3, 4, 5, 7, 0xB, 0xC, 0xF, 0x1C, 0x70, 0x84, 0xC0, 0xC2, 0x33],
      (wCap 0 [(320, f)]).bits 327 320 = f ∧ bitOf ((wCap 0 [(320, f)]).cdw 10) 31 = false) ∧
    ((∀ o ∈ [2, 6, 9, 0xA, 0x11], (wCap 0 [(0, o), (316, 4), (320, 0xC)]).sglOk = true ∧
      (wCap 0 [(0, o), (320, 0xC)]).sglOk = false) ∧ ∀ o ∈ [8, 0xC, 0x10, 0x18], (wCap 0 [(0, o)]).sglOk = true) ∧
    (bitOf ((wCap 0 [(351, 1)]).cdw 10) 31 = true ∧ bitOf ((wCap 0 [(471, 1)]).cdw 14) 23 = true ∧
      (wCap 0 [(352, 1)]).cdw 11 = 1 ∧ (wCap 0 [(352, 2 ^ 20)]).cdw 11 / 2 ^ 20 % 4 = 1 ∧ (wCap 0 [(32, 9)]).nsid = 9) ∧
    (∀ ev ∈ [0, 1, 2], let u := (wCtrl fun c => { c with held := [(ev, 1)] }).pass 0; u.Fetches 0 (wCap 0 []) ∧
      (u.ctrl 0 0).map (·.held) = some [(ev, 1)]) ∧
    (let u := (wCtrl fun c => { c with aers := [0, 1, 2, 3, 4, 5, 6, 7] }).pass 0; u.Fetches 0 (wCap 0 []) ∧
      (u.ctrl 0 0).map (·.aers.length) = some 8 ∧ (u.ctrl 0 0).map (·.aers.contains 5) = some true) ∧
    (∀ st ∈ [CmdStage.locked, .bound, .transferring], let u := (wPort [] fun x => { x with cmds := [wCmd fun c => { c with stage := st }] }).pass 0
      u.Fetches 0 (wCap 0 []) ∧ ((u.port 0).cmds.find? fun k => k.ctrl == 0 && k.qid == 1 && k.cid == 5 && !k.orphan).map
        (·.stage) = some st) ∧
    (let u := wSet id; u.nsValid 1 = true ∧ u.nsValid 2 = false) ∧
    (let u := (wCtrl fun c => { c with idx := 16 }).pass 0; (u.ctrl 0 16).map (·.idx) = some 16 ∧
      u.Fetches 0 { wCap 0 [] with ctrl := 16 }) := by
  refine ⟨?_, ?_, ?_, ?_, ?_, ?_, ?_, ?_, ?_, ?_, ?_, ?_, ?_⟩ <;> decide

/-- Witnesses of NvmeAdmin: Connect. -/
theorem witness_NvmeAdmin_connect :
    (let u := (wPort [(PortReg.PRDY 0, 0)] id).pass 0; u.portRuns 0 = true ∧ u.pb 0 PortReg.PRDY = false) ∧
    (let u := (wPort [] id).pass 0; u.portRuns 0 = true ∧ u.pb 0 PortReg.PRDY = true ∧ u.ctrl 0 16 = none ∧
      u.ctrl 0 (1 : Fin 16).val = none ∧ (∀ k : Fin 16, k < 1 → u.ctrl 0 k ≠ none) ∧
      (u.ctrl 0 0).map (fun c => c.queue 2) = some none) ∧
    (let u := (wCtrl fun c => { c with idx := 16 }).pass 0; u.ctrl 0 16 ≠ none ∧ u.ctrl 0 0 = none) ∧
    (let u := (wPort [] fun x => { x with ctrls := (List.range 16).map fun k => { Ctrl.reset with idx := k } }).pass 0;
      ∀ n : Fin 16, u.ctrl 0 n ≠ none) ∧
    (wCap 0 [(0, 0x7F), (32, 1)]).fctype = 1 ∧ (wCap 0 [(320, 1)]).bits 335 320 = 1 ∧ (wCap 0 [(320, 0)]).bits 335 320 = 0 ∧
    (wCap 0 [(336, 2), (352, 1024)]).bits 351 336 = 2 ∧ (wCap 0 [(352, 1024)]).bits 367 352 = 1024 ∧
    infoField (List.replicate 16 0 ++ bytesOf 2 0xFFFF) 16 2 = 0xFFFF ∧ infoField (List.replicate 18 0) 16 2 = 0 ∧
    ((List.replicate 256 0 ++ discoveryNqn).drop 256).take 37 = discoveryNqn := by
  refine ⟨?_, ?_, ?_, ?_, ?_, ?_, ?_, ?_, ?_, ?_, ?_, ?_⟩ <;> decide

/-- Port 0 and set 0, online at home in tile 0, with 100 blocks. -/
def wHost (f : PortSt → PortSt) (g : ASet → ASet) : State :=
  ((wPort [] f).onAtrium 0 fun a => (a.w (SetReg.ONLINE_DONE 0) 1).w (HostReg.NS_SIZE_L 0) 100).onSet 0 fun a =>
    g { a with cfg := { SetDef.reset with n := 3, jwords := 300, mapSize := 1, heads := [0, 4, 8] }, replayed := true, mapReady := true }

/-- The same with one command whose lock stands in the unit. -/
def wOne (c : HostCmd) : State :=
  (wHost (fun x => { x with cmds := [c] }) id).onTile 0 fun x => { x with locks := [⟨0, c.tag, c.nsid, c.lbn, c.count, false, c.isWrite⟩] }

/-- A command of a stage. -/
def wStage (op : Nat) (st : CmdStage) : HostCmd := wCmd fun c => { c with opcode := op, stage := st, count := 1 }

/-- Witnesses of NvmeIo: fetches and range locks. -/
theorem witness_NvmeIo :
    (∀ o ∈ [0, 1, 2, 8, 0xC, 0x86], (wCap 1 [(0, o)]).opcode = o ∧ (wCap 1 [(0, o)]).fuse = 0 ∧ (wCap 1 [(0, o)]).blocks = 1) ∧
    (let u := (wHost id id).pass 0; let q := wCap 1 [(0, 1), (32, 1), (316, 4)]; u.Fetches 0 q ∧ q.sglOk = true ∧ (wCap 1 [(0, 1), (32, 1)]).sglOk = false ∧ u.nsValid q.nsid = true ∧
      u.anaState 0 0 = 1 ∧ q.slba + q.blocks ≤ u.nsSize 0 ∧ u.protectedAt 0 0 = false ∧ u.ioCheck 0 q = none ∧
      u.reaches 0 0 = true ∧ (u.tile 0).lockMem.flips = [] ∧ (u.tile 0).lockStop = false ∧ (u.tile 0).locks = [] ∧
      inStaging (q.stage * 4096) 4096 = true ∧ (u.tile 0).stack.ue = [] ∧ (u.tile 0).stack.ce = []) ∧
    (let u := (wHost id id).pass 0; u.nsSize 0 < (wCap 1 [(320, 100)]).slba + 1 ∧ u.nsValid 9 = false) ∧
    (let u := (wHost id fun a => { a with cfg := { a.cfg with n := 0 } }).pass 0;
      u.ioCheck 0 (wCap 1 [(0, 1), (32, 1)]) = some (0, 0xB, true)) ∧ 512 < (wCap 1 [(384, 512)]).blocks ∧
    (let u := ((wHost id id).onTile 0 fun x => { x with locks := List.replicate 4095 { LockEntry.reset with nsid := 9 } }).pass 0;
      (u.tile 0).locks.length = 4095) ∧
    ((wHost id fun a => { a with mapReady := false }).anaState 0 0 = 15) ∧
    (((wHost id id).onAtrium 0 (·.w (SetReg.ONLINE_DONE 0) 0)).anaState 0 0 = 3) ∧
    (let u := ((wHost id id).onAtrium 0 (·.w (SetReg.PRESENT 0) 0)).pass 0; u.protectedAt 0 0 = true ∧ u.anaState 0 0 = 1) ∧
    (let u := (wHost (fun x => { x with ctrls := x.ctrls.map fun c => { c with ps := 3 } }) id).pass 0;
      (u.ctrl 0 0).map (·.ps) = some 3) ∧
    ((wOne (wStage 1 .locked)).tile 0).locks.any (fun e => e.write && e.nsid == 1) = true := by
  refine ⟨?_, ?_, ?_, ?_, ?_, ?_, ?_, ?_, ?_, ?_, ?_⟩ <;> decide

/-- Witnesses of NvmeIo: grants, posts, resolutions and transfers. -/
theorem witness_NvmeIo_events :
    (∀ o ∈ [1, 2], let u := (wOne (wStage o .locked)).pass 0; u.tileUp 0 = true ∧ u.HostQuiet ∧
      ((u.port 0).cmds.map (·.tag)).Nodup ∧ (u.firstCmd 0 (u.canGrant 0)).map (·.opcode) = some o ∧ u.reaches 0 0 = true) ∧
    (let u := (wOne { wStage 2 .locked with lbn := 7 }).pass 0; (u.aset 0).look none 7 = .unwritten) ∧
    (let a : ASet := { ASet.reset with cfg := { SetDef.reset with n := 3 }
                                       extents := [{ lbn := 7, count := 1, wseq := 9, member := 0, slot := 0, superseded := false }] };
      (∃ w m j, a.look none 7 = .at w m j)) ∧
    (let u := (wOne (wStage 1 .granted)).pass 0; (u.firstCmd 0 fun c =>
      (c.opcode == 1 || c.opcode == 8) && c.stage == .granted).isSome = true) ∧
    (∀ lo ∈ [0, 1], let b : OpenBand := { wBand with wseqFirst := 0, count := 2, committed := 1, voided := 2 }
      let c := { wStage 1 .bound with wseqLo := lo, wseqHi := lo }
      let u := (wHost (fun x => { x with cmds := [c] }) fun a => { a with bands := [b] }).pass 0;
      (u.firstCmd 0 (u.writeResolved 0)).isSome = true ∧ u.resolution 0 lo = some (lo == 0)) ∧
    (∀ f ∈ [none, some (2, 0x81, true)], let u := (wOne { wStage 2 .transferring with fail := f }).pass 0;
      (u.firstCmd 0 fun c => c.stage == .transferring).map (·.fail) = some f) := by
  refine ⟨?_, ?_, ⟨9, 0, 0, ?_⟩, ?_, ?_, ?_⟩ <;> decide

/-- Witnesses of NvmeIo: the answers of firmware. -/
theorem witness_NvmeIo_firmware :
    awake.accessOf core0 (.tile 0 0x32001C) = .ok ∧
    ((awake.atTile core0 0 0x32001C).byHandle 0 5 = none) ∧
    (∀ st ∈ [CmdStage.posted, .missing], let s := wOne { wStage 1 st with handle := 5, missing := [0], got := [[]] };
      s.accessOf core0 (.tile 0 0x32001C) = .ok ∧ let u := s.atTile core0 0 0x32001C; u.HostQuiet ∧
      (u.byHandle 0 5).map (fun e => (e.1, e.2.stage)) = some (0, st)) ∧
    (let s := wOne { wStage 1 .admin with handle := 5, qid := 0 };
      ((s.atTile core0 0 0x32001C).byHandle 0 5).map (·.2.stage) = some .admin) ∧
    (let s := (wHost id id).onAtrium 0 (·.w (SetReg.WSEQ_NEXT_LO 0) 9); s.wseqNext 0 = 9) ∧ 0 < stagingBlocks := by
  refine ⟨?_, ?_, ?_, ?_, ?_, ?_⟩ <;> decide

/-- Channel 3 of tile 0 runs; its descriptor `d` stands in the stack, or has been taken with `done` bytes moved. -/
def wDma (d : Nat) (taken : Bool) (done : Nat) (f : Tile → Tile) : State := awake.onTile 0 fun x => f
  { x with stack := x.stack.writeLE 0 32 d, dma := x.dma.set 3 { DmaSt.reset with active := true, taken, raw := d, done } }

/-- A descriptor (R385). -/
def wDescOf (mode len src dst : Nat) : Nat := mode + 8 + len * 2 ^ 32 + src * 2 ^ 64 + dst * 2 ^ 128

/-- Witnesses of MemoryAndRegisters: the buckets, the repair list and the channels' registers. -/
theorem witness_MemoryAndRegisters :
    (let u := { awake.onTile 0 (fun x => { x with time16 := 2000000 * 16 }) with cycle := 0 }.pass 0; let x := u.tile 0
      x.inReset = false ∧ x.timeOn = true ∧ x.leakMs < u.ns 0 / 1000000) ∧
    (∀ off ∈ [0x100004, 0x100034, 0x101004, 0x1011C4, 0x100208, 0x100000, 0x1000, 0x320014, 0x1008, 0x1028],
      awake.accessOf core0 (.tile 0 off) = .ok) ∧
    (let x := (awake.atTile core0 0 0x1011C4).tile 0; x.b (DmaReg.HALTED 7) = false ∧ x.dma[(7 : Fin 8)].active = false) ∧
    ((wDma 0 false 0 id).tile 0).dma[(3 : Fin 8)].active = true ∧
    (let u := awake.atTile core0 0 0x100208; u.allowed core0 = true ∧ u.storeRefuses = false) ∧
    ((wPkg [(AuthReg.FROZEN, 1)]).atTile core0 0 0x100208).allowed core0 = false ∧
    (∀ e ∈ [(0, true), (1, true), (2 ^ 27 - 7, true), (2 ^ 27 + 1, false), (2 ^ 30 - 6, true), (2 ^ 30 + 2, false), (3, false)],
      let s := awake.onTile 0 fun x => (x.w ProtReg.REPAIR_LO (e.1 % 2 ^ 32)).w ProtReg.REPAIR_HI (e.1 / 2 ^ 32)
      let x := (s.atTile core0 0 0x100208).tile 0; let n := x.r ProtReg.REPAIR_LO + x.r ProtReg.REPAIR_HI * 2 ^ 32
      (n = 0 ∨ (n % 8 = 1 ∧ n < 2 ^ 27) ∨ (n % 8 = 2 ∧ n < 2 ^ 30)) ↔ e.2 = true) ∧
    (bitOf (0x80#32).toNat 7 = true ∧ bitOf (0x40#32).toNat 7 = false ∧ bitOf (0x40#32).toNat 6 = true ∧ bitOf (1#32).toNat 1 = false ∧
      bitOf (2#32).toNat 0 = false) := by
  refine ⟨?_, ?_, ?_, ?_, ?_, ?_, ?_, ?_⟩ <;> decide

/-- Witnesses of MemoryAndRegisters: transfers. -/
theorem witness_MemoryAndRegisters_transfers :
    (∀ m ∈ [0, 1, 2, 3], let d := wDescOf m 8192 (2 ^ 44) 0; dmaCheck d = none ∧ d % 4 = m ∧ dmaSpace (dmaSrc d) = 1 ∧
      dmaSpace (dmaDst d) = 0 ∧ (∀ off ∈ [0, 4096], let u := (wDma d true off id).pass 0; let x := u.tile 0
        x.inReset = false ∧ x.heat.heavyOff = false ∧ x.dmaFree ≤ u.cycle ∧ x.dmaTurn = some 3 ∧ x.dma[(3 : Fin 8)].stop = none ∧
        inStaging (dmaOffset (dmaDst d) + off) (if m = 1 ∨ m = 2 then 4096 else 64) = true ∧ (dmaOffset (dmaDst d) + off) % 4096 = 0 ∧
        u.dmaReaches 0 (dmaStack (dmaDst d)) = true)) ∧
    (let u := (wDma 0 true 0 id).pass 0; (∀ j, (u.tile j).stack.ue = [] ∧ (u.tile j).stack.ce = []) ∧
      (∀ k, ((u.tile 0).core k).tcm.flips = [])) ∧
    (∀ e ∈ [(0, some 5), (8 + 2 ^ 20, some 6), (wDescOf 0 32 0 0, some 5), (wDescOf 0 64 1 0, some 6), (2 ^ 224, some 6)],
      dmaCheck e.1 = e.2 ∧ let u := (wDma e.1 false 0 id).pass 0; (u.tile 0).dmaTurn = some 3 ∧
        inStaging 0 32 = true ∧ u.stackUe 0 0 32 = false ∧ u.stackLE 0 0 32 = e.1) ∧
    (let u := (wDma 8 false 0 fun x => { x with stack := { x.stack with ue := [0] } }).pass 0; (u.tile 0).dmaTurn = some 3 ∧
      u.stackUe 0 0 32 = true) ∧
    (∀ st ∈ [some 0, none], let u := (wDma 8 false 0 fun x => { x with dma := x.dma.set 3 { x.dma[(3 : Fin 8)] with stop := st } }).pass 0
      (u.tile 0).dmaTurn = some 3 ∧ (u.tile 0).dma[(3 : Fin 8)].stop = st) ∧
    (let d := wDescOf 3 64 0 (2 ^ 44); let u := (wDma d true 0 fun x => { x with dma := x.dma.set 3 { x.dma[(3 : Fin 8)] with stop := some 0 } }).pass 0
      let o := (u.tile 0).dma[(3 : Fin 8)]; (u.tile 0).dmaTurn = some 3 ∧ o.stop = some u.cycle ∧ o.taken = true ∧
      dmaLength d ≤ 0 + 64 ∧ d % 4 = 3 ∧ dmaSpace (dmaDst d) = 1 ∧ dmaOffset (dmaDst d) + 0 + 64 ≤ 524288) ∧
    (let d := wDescOf 2 4096 0 0; (wDma d true 0 id).dmaReaches 0 (dmaStack (dmaSrc d)) = true ∧
      ((wDma d true 0 id).onTile 1 fun x => { x with inReset := true }).dmaReaches 0 1 = false ∧ dmaStack (2 ^ 41) = 1) ∧
    (∀ e ∈ [(0, false, false), (2 ^ 33, true, false), (2 ^ 32, false, true)],
      let v := (wDma 0 true 0 fun x => { x with stack := x.stack.writeLE shadowBase 5 e.1 }).tile 0
      0 < stagingBlocks ∧ (v.stack.shadow 0).poison = e.2.1 ∧ (v.stack.shadow 0).stamped = e.2.2) := by
  refine ⟨?_, ?_, ?_, ?_, ?_, ?_, ?_, ?_⟩ <;> decide

/-- A window's registers. -/
def wTaw (sp ad : Nat) (f : Head → Head) : State :=
  (awake.onTile 0 fun x => (x.w (TawReg.SPACE 0) sp).w (TawReg.ADDR 0) ad).onHead 0 f

/-- Witnesses of MemoryAndRegisters: accesses and the window. -/
theorem witness_MemoryAndRegisters_accesses :
    (awake.accessOf core0 (placeOf 0x20000000) = .unmapped ∧ awake.accessOf .smbus (placeOf 0x20000000) = .unmapped ∧
      (awake.onHead 0 fun x => { x with inReset := true }).accessOf core0 (placeOf 0x10400000) = .inReset ∧
      awake.accessOf core0 (placeOf 0x11100000) = .noRoute ∧ isLower (placeOf 0x24) = false ∧ isLower (placeOf 0x100) = true ∧
      awake.accessOf core0 (placeOf 0x100) = .ok ∧ awake.shadowOf core0 0x100 = none) ∧
    tawOf core0 0 = 0 ∧ awake.accessOf core0 (.tile 0 (0x1008 + 0x20 * 0)) = .ok ∧
    (∀ sp ∈ [1, 2, 3, 5, 6, 8, 0xA, 0xB, 0xC, 0xD, 0xE, 4, 7, 9, 0xF, 0x20, 0x21, 0x22, 0x23, 0x24, 0x25, 0x26, 0x27],
      let s := wTaw sp 380 id; (s.tile 0).r (TawReg.SPACE 0) = sp ∧ (s.tile 0).r (TawReg.ADDR 0) = 380 ∧
        (s.head (s.tawHead 0 0)).inReset = false) ∧
    (let s := wTaw 1 0 fun x => { x with inReset := true }; (s.head (s.tawHead 0 0)).inReset = true) ∧
    (let s := wTaw 0xE 0 fun x => { x with schedMem := { x.schedMem with flips := [(3, 3)] } }; let m := (s.head (s.tawHead 0 0)).table 1
      m.badAt 0 4 ≠ none ∧ ((s.head 0).table 2).flips = []) ∧
    (∀ off ∈ [0x100200, 0x100204], awake.accessOf core0 (.tile 0 off) = .ok ∧ (awake.atTile core0 0 off).allowed core0 = true ∧
      ((wPkg [(AuthReg.FROZEN, 1)]).atTile core0 0 off).allowed core0 = false) := by
  refine ⟨?_, ?_, ?_, ?_, ?_, ?_, ?_⟩ <;> decide

/-- The package with other pins and the like. -/
def wPins (f : PkgSt → PkgSt) : State := { awake with pkg := f awake.pkg }

/-- The package in a phase of its boot. -/
def wPhase (p : BootPhase) : State := { awake with boot := { awake.boot with phase := p } }

/-- Witnesses of PackageResets: nothing holds the package, and a core may command a warm reset of one that runs or boots. -/
theorem witness_PackageResets :
    (awake.turnTo 1).boot.phase ∉ [BootPhase.append, .recordHeld] ∧ cyclesOfUs 2 ≤ 12800 ∧ awake.pkg.sysclk = true ∧ awake.pkg.rstN = true ∧
    (wPins fun p => { p with porHeld := false }).pkg.porHeld = false ∧ cyclesPerUs ≤ 12800 ∧
    (0x85120001 : Word).toNat / 2 ^ 16 = 0x8512 ∧
    (∀ p ∈ [BootPhase.running, BootPhase.mgmtOnly, BootPhase.recordHeld, BootPhase.load], let s := wPhase p;
      s.accessOf core0 (.pkg 0x24) = .ok ∧ (s.atPkg core0 0x24).allowed core0 = true ∧ s.boot.phase = p) := by
  refine ⟨?_, ?_, ?_, ?_, ?_, ?_, ?_, ?_⟩ <;> decide

/-- Witnesses of PinsAndClocks. -/
theorem witness_PinsAndClocks :
    (let u := (wPins fun p => { p with porHeld := true }).pass 0;
      u.pkg.porHeld = true ∧ u.pkg.rstN = true ∧ u.pkg.pwrfailN = true ∧ u.pkg.sysclk = true) ∧
    (∀ w ∈ [true, false], let v := ((wPins fun p => { p with rstN := false, warmHeld := w }).advance 0).turnTo 2;
      v.pkg.rstN = false ∧ v.pkg.warmHeld = w) ∧
    (∀ por ∈ [true, false], ∀ rst ∈ [true, false],
      let u := (wPins fun p => { p with sysclk := false, porHeld := por, rstN := rst }).pass 0;
      u.pkg.sysclk = false ∧ u.pkg.porHeld = por ∧ u.pkg.rstN = rst) ∧
    (let u := (atHead0 (·.w RiserReg.STATE 6)).pass 0; (u.head 0).inReset = false ∧ (u.head 0).up = true) := by
  refine ⟨?_, ?_, ?_, ?_⟩ <;> decide

/-- Witnesses of PowerFailure. -/
theorem witness_PowerFailure :
    (let u := (awake.advance 0).turnTo 2; u.pkg.pwrfailN = true ∧ 64 ≤ 64 ∧ (u.head 0).inReset = false) ∧
    (let u := (wPins fun p => { p with pwrfailN := false, failEdge := some 0 }).pass 16000;
      u.pkg.failEdge = some 0 ∧ 0 + cyclesOfUs 10 ≤ u.cycle) ∧
    (let u := ((wPins fun p => { p with pwrfailN := false }).advance 0).turnTo 2; u.pkg.pwrfailN = false) ∧
    (let u := (wPins fun p => { p with failEdge := some 0, highSince := some 0 }).pass 1600000;
      u.pkg.pwrfailN = true ∧ u.pkg.failEdge = some 0 ∧ u.pkg.highSince = some 0 ∧ 0 + cyclesOfMs 1 ≤ u.cycle) := by
  refine ⟨?_, ?_, ?_, ?_⟩ <;> decide

/-- Tile 1 with its time changed. -/
def wTime (f : Tile → Tile) : State := awake.onTile 1 f

/-- Witnesses of CounterRates: a counter that runs, slews either way, is held, or does not count yet. -/
theorem witness_CounterRates :
    (let x := (wTime id).tile 1; x.timeOn = true ∧ x.holdLeft = 0 ∧ x.slew = 0 ∧ 0 ≤ x.holdLeft) ∧
    (let x := (wTime fun x => { x with slew := 5 }).tile 1; x.timeOn = true ∧ x.holdLeft = 0 ∧ ((5 : Nat) : Int) ≤ x.slew) ∧
    (let x := (wTime fun x => { x with slew := -5 }).tile 1; x.timeOn = true ∧ x.holdLeft = 0 ∧ x.slew ≤ -((5 : Nat) : Int)) ∧
    (let x := (wTime fun x => { x with holdLeft := 5 }).tile 1; x.timeOn = true ∧ 5 ≤ x.holdLeft) ∧
    (let x := (wTime fun x => { x with timeOn := false }).tile 1; x.timeOn = false) := by decide

/-- A flit from the master stands before tile 1, whose counter reads `t`. -/
def wFlit (t : Nat) (f : Tile → Tile) : State := (wTime fun x => f { x with time16 := t, syncIn := [(3200, 1, 0)] }).pass 0

/-- Witnesses of SyncFlitArrives: T_sent + L is 3424, and the offset stands at and beside each limit. -/
theorem witness_SyncFlitArrives : 3200 + (8 * 1 + 12 * 0 + 6) * 16 = 3424 ∧
    (∀ t ∈ [3424 - 1025, 3424 - 1024, 3424 - 17, 3424 - 16, 3424 + 16, 3424 + 17, 3424 + 1024, 3424 + 1025],
      let u := wFlit t id; let x := u.tile 1; x.time16 = t ∧ x.syncIn = [(3200, 1, 0)] ∧
        u.masterOf (wingOf 1) ≠ 1 ∧ u.asleep 1 = false ∧ x.timeOn = true ∧ x.holdLeft = 0) ∧
    ((wFlit 0 fun x => { x with timeOn := false }).tile 1).timeOn = false ∧
    (let u := (awake.onTile 0 fun x => { x with syncIn := [(3200, 1, 0)] }).pass 0; u.masterOf (wingOf 0) = 0) ∧
    (wFlit 0 fun x => { x with inReset := true }).asleep 1 = true := by
  refine ⟨?_, ?_, ?_, ?_, ?_⟩ <;> decide

/-- Witnesses of SyncFlitsLeave. -/
theorem witness_SyncFlitsLeave :
    (let u := awake.pass 0; u.masterOf 0 = atriumTile 0 ∧ (u.tile (atriumTile 0)).timeOn = true ∧
      u.asleep (atriumTile 0) = false ∧ (u.atrium 0).lastSync = none) ∧
    (let u := (awake.onAtrium 0 fun a => { a with lastSync := some 0 }).pass 1600;
      (u.atrium 0).lastSync = some 0 ∧ 0 + 1600 ≤ u.cycle) ∧
    (let u := (awake.onTile 1 fun x => { x with lastSync := some 0 }).pass 12800; u.masterOf (wingOf 1) ≠ 1 ∧
      u.tileEnabled 1 = true ∧ u.asleep 1 = false ∧ u.boot.phase ∉ [.held, .pll, .tiles] ∧
      (u.tile 1).syncFrom + 12800 ≤ u.cycle ∧ (u.tile 1).lastSync = some 0 ∧ 0 + 12800 ≤ u.cycle) ∧
    (let x := (wTime fun x => { x with slew := -5 }).tile 1; x.timeOn = true ∧ x.holdLeft = 0) ∧
    ((wTime fun x => { x with holdLeft := 5 }).tile 1).timeOn = true := by
  refine ⟨?_, ?_, ?_, ?_, ?_⟩ <;> decide

/-- Head 0 once `n` CORE cycles have passed. -/
def wAngle (n : Nat) (f : Head → Head) : State := (atHead0 f).pass n

/-- Witnesses of AngleSourceEvents: no frame for 0.8 µs or eight missing, the hold over, and a frame boundary. -/
theorem witness_AngleSourceEvents :
    (∀ m ∈ [0, 8], let u := wAngle (if m = 0 then 1280 else 0) fun x => { ((x.w AngleReg.VALID 1).w AngleReg.VIRTUAL 0) with
        angle := { x.angle with missing := m }, write := { x.write with desc := some opcDesc } };
      let x := u.head 0; x.inReset = false ∧ x.b AngleReg.VIRTUAL = false ∧ x.b AngleReg.VALID = true ∧
      x.b AngleReg.HOLDOVER = false ∧ (8 ≤ x.angle.missing ∨ x.angle.arrived + 12800 ≤ (u.ctx 0).now) ∧
      x.write.desc = some opcDesc ∧ x.write.aborted = false ∧ x.write.refused = false) ∧
    (let u := wAngle 16777216 fun x => ((x.w AngleReg.HOLDOVER 1).w AngleReg.HOLD_LIMIT 1).w LandReg.HSTATE 6;
      let x := u.head 0; x.b AngleReg.HOLDOVER = true ∧
      x.angle.holdSince + cyclesOfUs (atLeast1 (x.r AngleReg.HOLD_LIMIT)) ≤ (u.ctx 0).cyc ∧ x.tracking = true) ∧
    (∀ p ∈ [(1, 0), (0, 1), (0, 0), (2, 1)], let u := wAngle 160 fun x =>
        ((x.w AngleReg.ASRC p.1).w SpinReg.STOPPED p.2).w AngleReg.VIRTUAL 1;
      let x := u.head 0; (u.ctx 0).now % 1600 < 10 ∧ x.r AngleReg.ASRC = p.1 ∧ x.b SpinReg.STOPPED = (p.2 == 1) ∧
      x.b AngleReg.VIRTUAL = true) := by
  refine ⟨?_, ?_, ?_⟩ <;> decide

/-- Head 0 has just crossed its index, with its angle and its tile's time valid or not. -/
def wIndex (valid : Nat) (f : Head → Head) : State := ((atHead0 fun x =>
  f { ((x.wi AngleReg.W 1).w AngleReg.VALID valid) with angle := { x.angle with pos := rev48 } }).onTile 0
    (·.w TimeReg.TIME_VALID 1)).pass 0

/-- The START of a schedule of one entry waits. -/
def wStart (kind : Nat) (x : Head) : Head := { (((x.w AngleReg.START 1).w LandReg.S1_KIND kind).w LandReg.HSTATE 6) with
  schedMem := x.schedMem.writeLE 0 8 (2 ^ 16) }

/-- Witnesses of IndexCrossings. -/
theorem witness_IndexCrossings :
    (let u := wIndex 0 id; let x := u.head 0; x.inReset = false ∧ 0 < x.omega ∧
      x.angle.turn < x.posAt (u.ctx 0).now / rev48 ∧ x.angle.lost = false ∧ x.b AngleReg.VALID = false) ∧
    (let u := wIndex 1 fun x => { x with angle := { x.angle with slot0Wait := false } }; let x := u.head 0; 0 < x.omega ∧ x.angle.turn < x.posAt (u.ctx 0).now / rev48 ∧
      x.b AngleReg.VALID = true ∧ u.timeValid (tileOf 0) = true ∧ x.b AngleReg.START = false ∧
      x.angle.slot0Wait = false ∧ x.angle.restart1 = false) ∧
    (∀ k ∈ [0, 1], let u := wIndex 1 (wStart k); let x := u.head 0; 0 < x.omega ∧
      x.angle.turn < x.posAt (u.ctx 0).now / rev48 ∧ x.b AngleReg.VALID = true ∧ u.timeValid (tileOf 0) = true ∧
      x.b AngleReg.START = true ∧ x.startOk = true ∧ u.startPaused 0 = false ∧ u.startAdmitted 0 = true ∧
      x.schedOk (x.r AngleReg.SCHED) = true ∧ x.b LandReg.S1_KIND = (k == 1)) := by
  refine ⟨?_, ?_, ?_⟩ <;> decide

/-- Witnesses of AngleRegisters: the words answer, the slot may run, and the spare's wish is met or not. -/
theorem witness_AngleRegisters :
    (∀ a ∈ [0x10004, 0x10008, 0x1000C, 0x1002C], awake.accessOf core0 (.head 0 a) = .ok) ∧
    (∀ r ∈ [0, 1], ((atHead0 (·.w AngleReg.RUNNING r)).head 0).b AngleReg.RUNNING = (r == 1)) ∧
    (0 : Word).toNat.testBit 2 = false ∧ (awake.head 0).coveredNow = none ∧
    ((if (32 : Word).toNat % 64 < 32 then some ((32 : Word).toNat % 64) else none) = (awake.head 0).coveredNow) ∧
    ((if (5 : Word).toNat % 64 < 32 then some ((5 : Word).toNat % 64) else none) ≠ (awake.head 0).coveredNow) ∧
    (∀ te ∈ [0, 1], let s := atHead0 fun x => { x with angle := { x.angle with covers := [(te, none)] } };
      ((s.head 0).switchTe ≤ ((s.atHead core0 0 0x1002C).ctx 0).now) = (te = 0)) := by
  refine ⟨?_, ?_, ?_, ?_, ?_, ?_, ?_⟩ <;> decide

/-- Witnesses of SlotRegisters. -/
theorem witness_SlotRegisters :
    awake.accessOf core0 (.head 0 0x10028) = .ok ∧
    (0x40 : Word).toNat.testBit 7 = false ∧ (0x80 : Word).toNat.testBit 6 = false ∧ (0 : Word).toNat.testBit 6 = false ∧
    (∀ st ∈ [1, 6, 7, 8, 9, 0], let x := (atHead0 fun x => (x.w LandReg.HSTATE st).w LandReg.S1_KIND 1).head 0;
      x.r LandReg.HSTATE = st ∧ x.b LandReg.S1_KIND = true ∧ x.land.origin < 8) := by
  refine ⟨?_, ?_, ?_, ?_, ?_⟩ <;> decide

/-- Witnesses of FirstDueEventFires: an event fires in its cycle, and one that is owed fires late. -/
theorem witness_FirstDueEventFires :
    fires1 (evHead 1 1 0 0 id) 1 (fun f _ => decide (0 ≤ f.due + 2)) = true ∧
    fires1 ((evHead 1 1 0 0 id).pass 100) 1 (fun f _ => decide (f.due + 2 < 100)) = true := by
  refine ⟨?_, ?_⟩ <;> decide

/-- Witnesses of BeamEvents: one beam position, all of them, and the spare, with room in the channels. -/
theorem witness_BeamEvents :
    (∀ ty ∈ [1, 2, 7, 0x0C, 0x0D], ∀ target ∈ [0, 34], fires1 (evHead 1 ty target 0x21 id) ty (fun f x =>
      f.target == target && ([0, 31].all fun i => (x.beam i).events.length < 64)) = true) ∧
    fires1 (evHead 0 0x0D 33 0x21 id) 0x0D (fun f x => f.whole && f.target == 0 && !x.b LoopReg.LZ_OVR) = true ∧
    fires1 (evHead 0 0x0D 32 0x21 id) 0x0D (fun f x => !f.whole && f.target == 32 && (x.beam 32).events.length < 64) = true := by
  refine ⟨?_, ?_, ?_⟩ <;> decide

/-- A window of the wedges is open. -/
def wWin (x : Head) : Head := { x with land := { x.land with winOpen := some ⟨0, 0, 0, false, false⟩ } }

/-- The spare's switch is armed. -/
def wSwitch (r c : Option Nat) (x : Head) : Head := { x with angle := { x.angle with spare := some ⟨r, c, 0⟩ } }

/-- Witnesses of ScheduleEvents. -/
theorem witness_ScheduleEvents :
    (∀ ty ∈ [0, 5, 0x0E], fires1 (evHead 1 ty 34 0 id) ty (fun _ _ => true) = true) ∧
    fires1 (evHead 1 6 34 0 wWin) 6 (fun _ x => x.land.winOpen.isSome) = true ∧
    (∀ t ∈ [(0 : Int), 1], fires1 (evHead 1 0x0F 34 0 fun x => { x with angle := { x.angle with turn := t } }) 0x0F (fun f x =>
      (x.angle.turn - (x.slotOf f.slot).startTurn ==
        (bitsOf (x.entry ((x.schedDir (x.slotOf f.slot).sched).1 + f.index)) 27 24 : Int)) == (t == 0)) = true) ∧
    fires1 (evHead 0 0x10 34 0 id) 0x10 (fun f _ => f.slot == 0) = true ∧
    (∀ arg ∈ [0, 1], ∀ st ∈ [7, 8, 9], fires1 (evHead 1 0x10 34 arg (·.w LandReg.HSTATE st)) 0x10 (fun f x =>
      f.slot != 0 && f.arg % 2 == arg && x.r LandReg.HSTATE == st && decide (x.land.origin < 8)) = true) ∧
    fires1 (evHead 1 0x0B 5 0 (wSwitch (some 5) (some 7))) 0x0B (fun f x => x.angle.spare == some ⟨some f.target, some 7, 0⟩) = true ∧
    fires1 (evHead 1 0x0B 7 0 (wSwitch none (some 7))) 0x0B (fun f x => x.angle.spare == some ⟨none, some f.target, 0⟩) = true := by
  refine ⟨?_, ?_, ?_, ?_, ?_, ?_, ?_⟩ <;> decide

/-- Head 0 in a state of its link, once `n` CORE cycles have passed. -/
def wLink (st n : Nat) (f : Head → Head) : State := (atHead0 fun x => f (x.w RiserReg.STATE st)).pass n

/-- A receiver that holds a training block with a state, the lanes in lock, and T1. -/
def wTraining (st lanes t1 : Nat) (x : Head) : Head := { x with riser := { x.riser with aligned := true, rx := { x.riser.rx with
  items := [.block false (controlBlock (0x87 + st * 2 ^ 8 + lanes * 2 ^ 16 + t1 * 2 ^ 32))] } } }

/-- Nothing has come in since the command before, or a marker on every lane, its lanes numbered rightly or not. -/
def wLine (l : List LineItem) (lanes : List Nat) : LineRx := ⟨l, lanes, 0⟩
def wOtherLanes : BitVec 1920 := BitVec.ofNat 1920
  (join 160 ((List.range 12).map fun l => join 10 (markerSymbols ((l + 1) % 12))))

/-- Witnesses of LinkTraining: the states, their ends and what a receiver holds. -/
theorem witness_LinkTraining :
    (let u := wLink 1 16777216 id; u.live 0 = true ∧ (u.head 0).r RiserReg.STATE = 1 ∧
      (u.head 0).riser.stateSince + cyclesOfUs 10 ≤ (u.ctx 0).cyc) ∧
    (let u := wLink 2 16777216 (·.w RiserReg.TRAIN_LOCK_T 1); let x := u.head 0; u.live 0 = true ∧ x.r RiserReg.STATE = 2 ∧
      x.riser.stateSince + x.lockTime ≤ (u.ctx 0).cyc) ∧
    (∀ st ∈ [3, 4], let u := wLink st 16777216 (fun x => { x with riser := { x.riser with skewed := true } });
      let x := u.head 0; x.r RiserReg.STATE = st ∧ x.riser.stateSince + cyclesOfMs 1 ≤ (u.ctx 0).cyc ∧ x.riser.echoes < 64 ∧
      x.riser.stateSince + cyclesOfUs 500 ≤ (u.ctx 0).cyc ∧ (x.riser.rx.take []).1.training = none) ∧
    (wLine [.marker wOtherLanes] []).laneOrder = true ∧ (wLine [.marker markerBits] []).laneOrder = false ∧
    (wLine [.marker markerBits] [0, 512]).allMarked = true ∧ (wLine [.marker markerBits] [0, 512]).skew = 512 ∧
    (wLine [.marker markerBits] [0, 513]).skew = 513 ∧ (wLine [] []).allMarked = false ∧ (wLine [] []).laneOrder = false ∧
    (∀ p ∈ [(3, 4095), (2, 4095), (3, 7)], let x := (wLink 3 0 (wTraining p.1 p.2 0)).head 0; let r := x.riser.rx.take [];
      r.1.training.map (fun b => (trainState b, trainLocks b)) = some p ∧ x.riser.aligned = true ∧ x.riser.skewed = false ∧
      r.2.uncorrectable = 0) := by
  refine ⟨?_, ?_, ?_, ?_, ?_, ?_, ?_, ?_, ?_, ?_, ?_⟩ <;> decide +kernel

/-- LAT_DN is within its limit for a D of 0, and not for one of 400 ns. -/
theorem latDown_bounds (d : Nat) (h : 12800 ≤ d) : latDown 0 0 ≤ 4000 ∧ 4000 < latDown d 0 := by
  have hd := Config.devTx.isLt
  unfold latDown
  generalize Config.devTx.val = n at hd ⊢
  omega

/-- More witnesses of LinkTraining: the exchanges of MEASURE, and FRAMED. -/
theorem witness_LinkTraining_measure :
    (∀ t ∈ [5, 6], let x := (wLink 4 0 fun x => let x := wTraining 4 4095 5 x;
        { x with riser := { x.riser with request := some t } }).head 0;
      (x.riser.rx.take []).1.training.map trainT1 = some 5 ∧ x.riser.request = some t) ∧
    (∀ v ∈ [0, 1], ∀ d ∈ [0, 65536], let x := (wLink 4 0 fun x => { x.w RiserReg.HE_VERSION v with
        riser := { x.riser with echoes := 64, dMax := d } }).head 0;
      x.r RiserReg.STATE = 4 ∧ 64 ≤ x.riser.echoes ∧ x.r RiserReg.HE_VERSION = v ∧ x.riser.dMax = d ∧ x.riser.heRxProc = 0) ∧
    (latDown 0 0 ≤ 4000 ∧ 4000 < latDown 65536 0) ∧
    (∀ d ∈ [0, 65536], let x := (wLink 5 0 fun x => { x with riser := { x.riser with
        goodRun := 64, latFrames := 256, latMax := d } }).head 0;
      x.r RiserReg.STATE = 5 ∧ 64 ≤ x.riser.goodRun ∧ 256 ≤ x.riser.latFrames ∧ (latUp x.riser.latMax ≤ 4000 ↔ d = 0) ∧
      x.r LandReg.HSTATE = 0) ∧
    ((wLink 5 0 (·.w LandReg.HSTATE 10)).head 0).r LandReg.HSTATE = 10 ∧
    (let u := wLink 5 16777216 id; u.live 0 = true ∧ (u.head 0).r RiserReg.STATE = 5 ∧
      (u.head 0).riser.stateSince + cyclesOfMs 1 ≤ (u.ctx 0).cyc) := by
  exact ⟨by decide +kernel, by decide, latDown_bounds _ (by decide), by decide, by decide, by decide⟩

/-- Witnesses of LinkStartsAndLoss. -/
theorem witness_LinkStartsAndLoss :
    (let u := wLink 0 1600000 fun x => { x.w RiserReg.AUTO_RETRAIN 1 with riser := { x.riser with lossAt := some 0 } };
      let x := u.head 0; u.live 0 = true ∧ x.b RiserReg.AUTO_RETRAIN = true ∧ x.r RiserReg.STATE = 0 ∧
      x.riser.lossAt = some 0 ∧ 0 + cyclesOfMs 1 ≤ u.cycle ∧ (u.tile (tileOf 0)).b HeatReg.TRIPPED = false) ∧
    (∀ p ∈ [(4, 0), (0, 4), (0, 0)], let u := wLink 6 0 fun x =>
        { x with riser := { x.riser with badRun := p.1, noLockRun := p.2 } };
      let x := u.head 0; u.live 0 = true ∧ x.r RiserReg.STATE = 6 ∧ (x.riser.badRun, x.riser.noLockRun) = p) ∧
    4094 % 4096 ≠ 4095 ∧ awake.accessOf core0 (.head 0 0) = .ok ∧
    (1 : Word).toNat.testBit 2 = false ∧ (1 : Word).toNat.testBit 3 = false ∧ (1 : Word).toNat.testBit 4 = false ∧
    (awake.tile (tileOf 0)).heat.heavyOff = false ∧ (awake.tile (tileOf 0)).b HeatReg.TRIPPED = false ∧
    (awake.head 0).up = false ∧ ((wLink 6 0 id).head 0).up = true := by
  refine ⟨?_, ?_, ?_, ?_, ?_, ?_, ?_, ?_, ?_, ?_, ?_⟩ <;> decide

/-- The lowest 32 bits of an area are 1 and its other bits are 0: their CRC leaves no state behind. -/
theorem crcFeed_zero (n : Nat) : crcFeed n 0 0 = 0 := by
  induction n with
  | zero => rfl
  | succ n ih => exact ih
/-- Bits fed in two parts. -/
theorem crcFeed_add (m n w c : Nat) : crcFeed (m + n) w c = crcFeed n (w / 2 ^ m) (crcFeed m w c) := by
  induction m generalizing w c with
  | zero => simp [crcFeed]
  | succ m ih => rw [Nat.succ_add]; simp only [crcFeed]; rw [ih, Nat.div_div_eq_div_mul, Nat.pow_succ']

/-- A frame's start block of FRAME_NUM 3, SAFE 1 where `s` is 1, its CRC right. -/
def wFsb (s : Nat) : Nat :=
  let v := 0xD2 + 3 * 2 ^ 8 + s * 2 ^ 56 + 2 ^ 57
  v + crc32cBits 224 v * 2 ^ 224

/-- An area of which the CRC is right, where `e` is 0. -/
def wArea (e : Nat) : Nat := 2 ^ 32 - 1 + (2 ^ 32 - 1 - e) * 2 ^ 58592

/-- A receiver in FRAMED or UP that holds a frame whole. -/
def wRx (st s e : Nat) : State := wLink st 0 fun x => { x with riser := { x.riser with nextNum := some 3, rx := { x.riser.rx with
  synced := true, items := (controlBlock (wFsb s) :: (pieces 256 229 (wArea e)).map dataBlock ++ [fillBlock, controlBlock 0xD2]).map
    (RxItem.block false) } } }

/-- The frame that it holds. -/
def wFrame (s e : Nat) : UpFrame :=
  { fsb := BitVec.ofNat 256 (wFsb s), area := BitVec.ofNat 58624 (wArea e), broken := false, fill := 1, marker := false, late := 0 }

/-- The CRC of an area that begins with 32 bits 1 and has no others. -/
theorem wArea_crc (n : Nat) : crc32cBits (32 + n) (2 ^ 32 - 1) = 2 ^ 32 - 1 := by
  have a : crcFeed 32 (2 ^ 32 - 1) 0xFFFFFFFF = 0 := by decide
  rw [crc32cBits, crcFeed_add, a]
  simp [crcFeed_zero]

theorem wFrame_good : (wFrame 0 0).good = true ∧ (wFrame 1 0).good = true ∧ (wFrame 0 1).good = false := by
  have v : ∀ e ∈ [0, 1], (BitVec.ofNat 58624 (wArea e)).toNat % 2 ^ 58592 = 2 ^ 32 - 1 ∧
      (BitVec.ofNat 58624 (wArea e)).toNat / 2 ^ 58592 = 2 ^ 32 - 1 - e := by decide +kernel
  have f : ∀ s ∈ [0, 1], (wFrame s 0).fsbGood = true ∧ (wFrame s 1).fsbGood = true := by decide +kernel
  have g (s e : Nat) (hs : s ∈ [0, 1]) (he : e ∈ [0, 1]) : (wFrame s e).good = (2 ^ 32 - 1 == 2 ^ 32 - 1 - e) := by
    have h1 := v e he
    have h2 : (wFrame s e).fsbGood = true := by
      simp only [List.mem_cons, List.not_mem_nil, or_false] at he
      obtain rfl | rfl := he
      · exact (f s hs).1
      · exact (f s hs).2
    rw [UpFrame.good, h2, show (wFrame s e).broken = false from rfl, show (wFrame s e).area = BitVec.ofNat 58624 (wArea e) from rfl,
      h1.1, h1.2, show 58592 = 32 + 58560 from rfl, wArea_crc]
    rfl
  exact ⟨g 0 0 (by decide) (by decide), g 1 0 (by decide) (by decide), g 0 1 (by decide) (by decide)⟩

/-- Witnesses of RiserFrames. -/
theorem witness_RiserFrames :
    (let u := wLink 6 0 id; u.live 0 = true ∧ u.pkg.sysclk = true ∧ (u.head 0).frameDue (u.ctx 0) = true ∧
      (u.head 0).riser.seq < 128 ∧ (u.head 0).write.endAt = none) ∧
    (let u := wLink 6 2560 fun x => { x with riser := { x.riser with sent := [.reset] } };
      (u.head 0).lostCmd (u.ctx 0) = some .reset) ∧
    (∀ st ∈ [5, 6], ((wLink st 0 id).head 0).r RiserReg.STATE = st) ∧
    ((((wLink 6 0 id).head 0).riser.rx.take []).1.frame 0).isNone = true ∧
    (∀ p ∈ [(0, 0), (1, 0), (0, 1)], let x := (wRx 6 p.1 p.2).head 0; x.r RiserReg.STATE = 6 ∧
      ((x.riser.rx.take []).1.frame 0).map (·.1) = some (wFrame p.1 p.2) ∧ x.riser.nextNum = some (wFrame p.1 p.2).num ∧
      (x.b RiserReg.HE_SAFE = (wFrame p.1 p.2).safe ↔ p.1 = 0) ∧ bitOf (srvInputs (wFrame p.1 p.2).servo) 4 = false ∧
      (wFrame p.1 p.2).fsbGood = true) ∧
    ({ wFrame 0 0 with fsb := 0 } : UpFrame).fsbGood = false := by
  refine ⟨?_, ?_, ?_, ?_, ?_, ?_⟩ <;> decide +kernel

/-- Witnesses of RiserRegisters. -/
theorem witness_RiserRegisters :
    awake.accessOf core0 (.head 0 0x28) = .ok ∧ awake.accessOf core0 (.head 0 0) = .ok ∧
    (∀ g ∈ [0, 1], ((wLink 6 0 (·.w RiserReg.FW_GO g)).head 0).b RiserReg.FW_GO = (g == 1)) ∧
    (0x60000 : Word).toNat / 2 ^ 16 % 256 = 6 ∧ (0x70000 : Word).toNat / 2 ^ 16 % 256 = 7 ∧
    (0xC0000 : Word).toNat / 2 ^ 16 % 256 = 0x0C ∧ (0xD0000 : Word).toNat / 2 ^ 16 % 256 = 0x0D ∧
    (0 : Word).toNat % 32 / 4 = 0 ∧ (4 : Word).toNat % 32 / 4 = 1 ∧ (4 : Word).toNat % 2 = 0 ∧
    (∀ st ∈ [0, 6], ((wLink 6 0 (·.w LandReg.HSTATE st)).head 0).r LandReg.HSTATE = st) ∧
    (8 : Word).toNat.testBit 4 = false ∧ (8 : Word).toNat.testBit 2 = false ∧
    (let x := (wLink 6 0 fun x => { x with riser := { x.riser with causes := [1, 4] } }).head 0;
      x.land.safeOrdered = false ∧ x.riser.causes.filter (· ≠ 1) = [4]) := by
  refine ⟨?_, ?_, ?_, ?_, ?_, ?_, ?_, ?_, ?_, ?_, ?_, ?_, ?_, ?_⟩ <;> decide

/-- Head 0 with loop 20 enabled: its topology word, its PERIOD of 100 ns and its PHASE of 0. -/
def wLoop (topo : Nat) (f : Head → Head) (x : Head) : Head := f { x.w (LoopReg.ENABLE 20) 1 with
  loops := { x.loops with topoMem := x.loops.topoMem.writeLE (16 * 20) 8 (topo + 100 * 2 ^ 32) } }

/-- A record of the frame that a sample due at 4 µs uses. -/
def wServo (good : Bool) (x : Head) : Head := { x with loops := { x.loops with
  lastDue := [(20, 3900)], servo := [{ ServoRec.reset with num := x.frameIn 4000, good := good }] } }

/-- The last window of the head's job is closed. -/
def wClosed (x : Head) : Head := { x with cal := { x.cal with closeTe := some 0 } }

/-- Witnesses of LoopSamples: the due instant, and what the sample finds. -/
theorem witness_LoopSamples :
    (∀ p ∈ [(1, true), (1, false), (0, true)], let u := (atHead0 (wLoop 0x20 fun x =>
        (wServo p.2 x).w (LoopReg.ENABLE 20) p.1)).pass 6400;
      let x := u.head 0; let c := u.ctx 0; u.live 0 = true ∧ lookupKey 20 x.loops.lastDue = some 3900 ∧
      x.dueAt 20 c.ns = some 4000 ∧ x.phase 20 < x.period 20 ∧ x.nsec 20 ≠ 0 ∧ x.trig 20 = false ∧
      x.loopActive 20 = (p.1 == 1) ∧ (x.servoRec (x.frameIn 4000)).map (·.good) = some p.2 ∧ frameSource (x.inSrc 20) = true ∧
      (∀ f ∈ [LandReg.FOCUS_LOOP, LandReg.TRACK_LOOP, LandReg.SA_LOOP, SpinReg.SPD_LOOP, SpinReg.ID_LOOP, SpinReg.IQ_LOOP],
        x.r f ≠ 20)) ∧
    (∀ t ∈ [0x220, 0x20, 0x200], fires1 (evHead 1 8 34 20 (wLoop t id)) 8 (fun f x => f.arg % 32 == 20 &&
      (x.nsec 20 == 0) == (t == 0x200) && x.trig 20 == (t != 0x20)) = true) ∧
    fires1 (evHead 1 8 34 24 id) 8 (fun f x => f.arg % 32 == 24) = true := by
  refine ⟨?_, ?_, ?_⟩ <;> decide

/-- A sample of loop 20 that waits for its evaluation. -/
def wDue : LoopDue := { LoopDue.reset with loop := 20 }

/-- Witnesses of LoopEvaluation: within 64 cycles, later, and with an uncorrectable byte. -/
theorem witness_LoopEvaluation :
    (∀ n ∈ [64, 65], let u := (atHead0 (wLoop 0x420 fun x => { x with loops := { x.loops with due := [wDue] } })).pass n;
      let x := u.head 0; u.live 0 = true ∧ u.firstDue 0 20 = some wDue ∧ (u.ctx 0).cyc - wDue.cycle = n ∧
      (x.loopUe wDue (localOf 0)).isNone = true ∧ x.setInt (x.setIndex 0 20) 3 ≤ x.setInt (x.setIndex 0 20) 4 ∧
      x.destKind 20 = 1 ∧ x.destIndex 20 < 24 ∧ x.r SpinReg.IQ_LOOP ≠ 20) ∧
    (let x := ((atHead0 (wLoop 0x420 fun x => wClosed { x with loops := { x.loops with due := [wDue] } })).pass 64).head 0;
      x.cal.closeTe ≠ none ∧ x.loopUe wDue (localOf 0) = none) ∧
    (let u := (atHead0 (wLoop 0x420 fun x => { x with loops := { x.loops with
        due := [wDue], stateMem := { x.loops.stateMem with flips := [(128 * 20, 3)] } } })).pass 0;
      u.live 0 = true ∧ u.firstDue 0 20 = some wDue ∧ ((u.head 0).loopUe wDue (localOf 0)).isSome = true) := by
  refine ⟨?_, ?_, ?_⟩ <;> decide

/-- Witnesses of LoopRegisters. -/
theorem witness_LoopRegisters :
    (∀ n : Fin 24, awake.accessOf core0 (.head 0 (0x10140 + 4 * n.val)) = .ok) ∧
    (4 : Word).toNat.testBit 3 = false ∧ (8 : Word).toNat.testBit 2 = false := by
  refine ⟨?_, ?_, ?_⟩ <;> decide

/-- A job of a kind, armed for the windows numbered 3, in a state of the head. -/
def wJob (kind st : Nat) (f : Head → Head) (x : Head) : Head := f { (x.w CalReg.BUSY 1).w LandReg.HSTATE st with
  cal := { x.cal with job := 3, kind := kind, jobMem := x.cal.jobMem.writeLE 99 1 3 } }

/-- Its window is open, or its base is known. -/
def wOpenWin (x : Head) : Head := { x with cal := { x.cal with window := true } }
def wBase (x : Head) : Head := { x with cal := { x.cal with base := some 7 } }

/-- The injection of its job is set, and a sample of its loop is due or none is. -/
def wInj (owed : Bool) (n : Nat) (x : Head) : Head := wOpenWin { x with
  cal := { x.cal with injSet := true, n := n }
  loops := { x.loops with due := if owed then [{ LoopDue.reset with loop := x.jobLoop 3 }] else [] } }

/-- A job of REF_SWEEP with its window open and its base known: of how many steps, and with samples still to come or not. -/
def wSweep (steps : Nat) (delivered : Bool) (x : Head) : Head := wOpenWin { x with
  angle := { x.angle with pos := -1 }, riser := { x.riser with delivered := if delivered then [] else [(0, 0)] }
  cal := { x.cal with base := some 7, jobMem := (x.cal.jobMem.writeLE 120 1 1).writeLE 99 1 steps } }

/-- Witnesses of CalWindows: windows that serve no job, those that open, and those that close for each kind. -/
theorem witness_CalWindows :
    (fires1 (evHead 1 9 34 3 id) 9 (fun _ x => !x.b CalReg.BUSY) &&
      fires1 (evHead 1 9 34 3 (wJob 3 6 wOpenWin)) 9 (fun _ x => x.b CalReg.BUSY && x.cal.window) &&
      fires1 (evHead 1 9 34 3 (wJob 3 6 wClosed)) 9 (fun _ x => x.b CalReg.BUSY && x.cal.closeTe.isSome) &&
      fires1 (evHead 1 9 34 4 (wJob 3 6 id)) 9 (fun f x => x.b CalReg.BUSY && f.arg % 65536 != x.cal.job)) = true ∧
    (∀ k ∈ [2, 3], fires1 (evHead 1 9 34 3 (wJob k 6 fun x => wBase (x.w RiserReg.STATE 6))) 9 (fun f x => x.b CalReg.BUSY &&
      !x.cal.window && f.arg % 65536 == x.cal.job && x.cal.closeTe.isNone && x.calStateOk && x.calLinkOk && x.cal.kind == k &&
      x.cal.base == some 7 && decide (x.jobLoop x.cal.job < 24) &&
      sat32 (7 + x.jobStart x.cal.job + (x.r CalReg.STEPS_DONE : Int) * x.jobStep x.cal.job)
        == 7 + x.jobStart x.cal.job + (x.r CalReg.STEPS_DONE : Int) * x.jobStep x.cal.job) = true) ∧
    fires1 (evHead 1 10 34 3 (wJob 3 6 id)) 10 (fun _ x => x.b CalReg.BUSY && !x.cal.window) = true ∧
    (∀ owed ∈ [true, false], ∀ n ∈ [0, 1], fires1 ((evHead 1 10 34 3 (wJob 3 6 (wInj owed n))).pass 100) 10 (fun f x =>
      x.b CalReg.BUSY && x.cal.window && f.arg % 65536 == x.cal.job && x.cal.kind == 3 && x.cal.base.isNone && x.cal.injSet &&
      x.cal.n == n && x.gainOwed f.te == owed) = true) ∧
    (∀ k ∈ [0, 1], fires1 ((evHead 1 10 34 3 (wJob 2 6 (wSweep k false))).pass 100) 10 (fun f x =>
      x.b CalReg.BUSY && x.cal.window && f.arg % 65536 == x.cal.job && x.cal.kind == 2 && x.cal.base == some 7 &&
      decide (x.jobLoop x.cal.job < 24) && !(x.calStreams f.te).all (x.deliveredTo f.te)) = true) ∧
    (∀ k ∈ [0, 1, 2], fires1 ((evHead 1 10 34 3 (wJob 2 6 (wSweep k true))).pass 100) 10 (fun _ x =>
      decide ((x.r CalReg.STEPS_DONE + 1) % 256 < x.jobSteps x.cal.job) == (k == 2)) = true) := by
  refine ⟨?_, ?_, ?_, ?_, ?_, ?_⟩ <;> decide

/-- Witnesses of CalJobs. -/
theorem witness_CalJobs :
    (let u := (atHead0 fun x => { x.w CalReg.RUNNING 1 with cal := { x.cal with window := true } }).pass 0; let x := u.head 0;
      x.inReset = false ∧ x.b CalReg.RUNNING = true ∧ x.cal.window = true ∧ x.cal.spanOn = false ∧
      x.cal.openTe + 16 * (x.jobSettle x.cal.job : Int) ≤ ((u.ctx 0).now : Int)) ∧
    awake.accessOf core0 (.head 0 0x70000) = .ok ∧ (0x103 : Word).toNat.testBit 9 = false ∧ (0x203 : Word).toNat.testBit 8 = false ∧
    (∀ k ∈ [0, 3], let x := (atHead0 fun x => { x with cal := { x.cal with jobMem := x.cal.jobMem.writeLE 96 1 k } }).head 0;
      x.b CalReg.BUSY = false ∧ x.jobOk ((0x103 : Word).toNat % 256) = (k == 3)) ∧
    (let x := (atHead0 fun x => wJob 2 6 wBase { x with cal := { x.cal with injSet := true } }).head 0;
      x.b CalReg.BUSY = true ∧ x.cal.base = some 7 ∧ x.jobLoop x.cal.job < 24 ∧ sat32 7 = 7) ∧
    ((atHead0 fun x => { x with cal := { x.cal with injSet := true } }).head 0).cal.injSet = true := by
  refine ⟨?_, ?_, ?_, ?_, ?_, ?_, ?_⟩ <;> decide

/-- What runs in the temperature sets of head 0, and what waits. -/
def wSets (running : Option Nat) (queue : List Nat) (f : Head → Head) : State :=
  atHead0 fun x => f { x with cal := { x.cal with running := running, queue := queue } }

/-- Witnesses of TemperatureSets. -/
theorem witness_TemperatureSets :
    (∀ r ∈ [none, some 0], let s := wSets r [] id; s.accessOf core0 (.head 0 0x7000C) = .ok ∧
      s.accessOf core0 (.head 0 0x7001C) = .ok ∧ (s.head 0).cal.running = r ∧ (s.head 0).cal.queue = []) ∧
    (∀ p ∈ [(0, []), (1, [0]), (0, [0]), (1, [0, 0])], let x := (wSets (some p.1) p.2 id).head 0;
      2 ≤ (x.cal.queue.filter (· == 0)).length + flagNat (p.1 == 0) ↔ p = (0, [0]) ∨ p = (1, [0, 0])) ∧
    (3 : Word).toNat / 2 ^ 6 % 16 = 0 ∧ awake.storeRefuses = false ∧
    ({ awake with pkg := { awake.pkg with refusing := true } }).storeRefuses = true ∧
    (∀ p ∈ [(0, true, 0), (1, false, 0), (1, true, 0), (1, true, 1000)], let u := (wSets none [] fun x =>
        { ((x.w CalReg.AUTO p.1).w CalReg.T_STEP 10).w CalReg.TEMP p.2.2 with
          cal := { x.cal with running := none, queue := [], tempOk := p.2.1 } }).pass (2 ^ 24);
      let x := u.head 0; x.inReset = false ∧ x.cal.lastAuto < (u.ctx 0).ns / 1000000 ∧ x.b CalReg.AUTO = (p.1 == 1) ∧
      x.cal.tempOk = p.2.1 ∧ x.cal.running = none ∧ x.cal.queue = [] ∧
      (max 1 (x.r CalReg.T_STEP) ≤ (x.ri CalReg.TEMP - x.ri CalReg.TEMP_LAST).natAbs ↔ p.2.2 = 1000)) ∧
    (∀ r ∈ [0, 1], ∀ m ∈ [0, 2 ^ 7, 2 ^ 15],
      let u := (wSets (some r) [] fun x => { x with cal := { x.cal with interpUsed := m } }).pass 0; let x := u.head 0;
      x.cal.running = some r ∧ x.cal.queue = [] ∧ x.cal.interpUsed.testBit 7 = (m == 2 ^ 7) ∧
      x.cal.interpUsed.testBit 15 = (m == 2 ^ 15) ∧ sat32 x.cal.interpTemp = x.cal.interpTemp) := by
  refine ⟨?_, ?_, ?_, ?_, ?_, ?_, ?_⟩ <;> decide

/-- A boot in a phase, with its strap word. -/
def wBoot (p : BootPhase) (f : BootSt → BootSt) : State :=
  ({ awake with boot := f { BootSt.reset with phase := p }, pkg := { awake.pkg with porHeld := false } }).pass 0

/-- Witnesses of BootToCandidate. An image whose signature is right has no witness: the check is open. -/
theorem witness_BootToCandidate :
    (let u := wBoot .pll id; u.boot.phase = .pll ∧ u.pkg.porHeld = false ∧ u.pkg.sysclk = true ∧ u.pkg.pwrfailN = true) ∧
    (let u := wBoot .tiles id; u.boot.phase = .tiles ∧ u.storeRefuses = false) ∧
    (∀ k ∈ [0, 1, 2], let u := wBoot .scan fun b => { b with strapWord := k * 4 };
      u.boot.phase = .scan ∧ strapBoot u.boot.strapWord = k) ∧
    (∀ n ∈ [0, 3, 4], let u := wBoot .candidate fun b => { b with tries := List.replicate n 1 };
      u.boot.phase = .candidate ∧ u.boot.tries.length = n ∧ u.candidates.length = 4 ∧ (∀ ok ∈ [true, false], ∀ c ∈ u.candidates,
        (if ok then u.checkImage (strapWing u.boot.strapWord) c.1 c.2 u.boot.strapWord else 12) ≠ 0)) := by
  refine ⟨?_, ?_, ?_, ?_⟩ <;> decide +kernel

/-- A section for a tile. -/
def wSection (id index : Nat) : Section := { Section.reset with id := id, scope := 2, index := index }

/-- Witnesses of BootToRelease. A valid entry that is not acknowledged has none: its signature is open. -/
theorem witness_BootToRelease :
    (let u := wBoot .load id; u.boot.phase = .load ∧ u.boot.sections = []) ∧
    (∀ i ∈ [0x20, 0x21, 0x22], let u := wBoot .load fun b => { b with sections := [wSection i 5] };
      u.boot.sections = [wSection i 5] ∧ (wSection i 5).tile? = some 1 ∧ (u.tile 1).heat.tripAt = none) ∧
    (wBoot .sparing id).boot.phase = .sparing ∧
    (∀ p ∈ [BootPhase.append, .recordHeld], let u := wBoot p id; u.boot.phase = p ∧ u.recordBlocked = false ∧
      u.storeRefuses = false) ∧
    (let u := wBoot .replay id; u.boot.phase = .replay) ∧
    (let u := wBoot .release fun b => { b with tileLoad := [2] }; u.boot.phase = .release ∧ u.tileEnabled 1 = true ∧
      u.bootsNow 1 = true ∧ u.bootsNow 2 = false) := by
  refine ⟨?_, ?_, ?_, ?_, ?_, ?_⟩ <;> decide +kernel

/-- Witnesses of PartResets. -/
theorem witness_PartResets :
    (let u := awake.atPkg core0 0x24; awake.accessOf core0 (.pkg 0x24) = .ok ∧ (0x85120002 : Word).toNat / 2 ^ 16 = 0x8512 ∧
      u.allowed core0 = true ∧ u.boot.phase = .running ∧ (0x85120002 : Word).toNat.testBit 1 = true ∧ u.tileEnabled 1 = true ∧
      u.boot.tileLoad.contains (1 : Fin 8).val = false ∧ (0x85120002 : Word).toNat.testBit 2 = false) ∧
    ¬ (0x85110002 : Word).toNat / 2 ^ 16 = 0x8512 ∧
    (let s := awake.onAtrium 0 (·.flag AuthReg.FROZEN); (s.atPkg core0 0x24).allowed core0 = false) ∧
    awake.accessOf core0 (.head 0 0) = .ok ∧
    (let x := (wOrder (·.w RiserReg.STATE 6) wNew none).head 0; x.weft.order.isSome = true ∧ x.up = true) ∧
    (∀ p : Fin 16, awake.accessOf (.core (portTile p) 0) (.tile (portTile p) (0x300000 + 0x10000 * (p.val % 2))) = .ok) ∧
    (∀ fit ∈ [true, false], let u := ({ awake with
        boot := { awake.boot with tileLoad := [1] }, flashes := awake.flashes.map fun (f : FlashSt) => { f with present := fit } }).pass 0;
      u.boot.phase = .running ∧ (1 : Fin 8).val ∈ u.boot.tileLoad ∧ (u.tile 1).heat.heavyOff = false ∧
      (u.tile 1).heat.tripAt = none ∧ u.reloadOk 1 = fit) := by
  refine ⟨?_, ?_, ?_, ?_, ?_, ?_, ?_⟩ <;> decide +kernel

/-- Head 0 with registers written, and loop 0 used. -/
def wRegs (fs : List (Fld × Nat)) (x : Head) : Head :=
  fs.foldl (fun x e => x.w e.1 e.2) { (x.w LandReg.FOCUS_LOOP 0).w LandReg.TRACK_LOOP 0 |>.w LandReg.TILT_R_LOOP 0 with loops := { x.loops with topoMem := x.loops.topoMem.writeLE 0 4 0x20 } }

/-- Witnesses of HeadCommandRefusals: each command outside its states. -/
theorem witness_HeadCommandRefusals :
    awake.accessOf core0 (.head 0 0x10200) = .ok ∧
    (∀ st ∈ [0, 1, 10, 11], let x := (atHead0 (wRegs [(LandReg.HSTATE, st)])).head 0; x.r LandReg.HSTATE = st ∧
      x.tracking = false) ∧
    (let x := (atHead0 (wRegs [(LandReg.HSTATE, 4), (LandReg.CMD_BUSY, 1)])).head 0; x.r LandReg.HSTATE = 4 ∧
      x.b LandReg.CMD_BUSY = true) ∧
    (let x := (atHead0 (·.w LandReg.HSTATE 4)).head 0; x.r LandReg.HSTATE = 4 ∧
      x.namesLoop (x.r LandReg.FOCUS_LOOP) = false ∧ x.namesLoop (x.r LandReg.TRACK_LOOP) = false) := by
  refine ⟨?_, ?_, ?_, ?_⟩ <;> decide

/-- Witnesses of HeadCommands. -/
theorem witness_HeadCommands :
    (∀ st ∈ [2, 9], 2 ≤ st ∧ st ≤ 9 ∧ ((atHead0 (wRegs [(LandReg.HSTATE, st)])).head 0).r LandReg.HSTATE = st) ∧
    (∀ p ∈ [(0, 0), (0, 2), (1, 0)], let x := (atHead0 fun x => { wRegs [(LandReg.HSTATE, 1), (SpinReg.STOPPED, p.1),
        (SpinReg.SSTATE, p.2)] x with spin := { x.spin with stopReq := true } }).head 0;
      x.r LandReg.HSTATE = 1 ∧ x.b LandReg.CMD_BUSY = false ∧ x.b SpinReg.STOPPED = (p.1 == 1) ∧ x.r SpinReg.SSTATE = p.2 ∧
      x.spin.stopReq = true) ∧
    (∀ f ∈ [0, 3], let x := (atHead0 (wRegs [(LandReg.HSTATE, 4), (LandReg.FSTAT, f), (RiserReg.STATE, 6)])).head 0;
      x.r LandReg.HSTATE = 4 ∧ x.r LandReg.FSTAT = f ∧ x.b LandReg.CMD_BUSY = false ∧ x.up = true ∧
      x.namesLoop (x.r LandReg.FOCUS_LOOP) = true ∧ x.namesLoop (x.r LandReg.TRACK_LOOP) = true) ∧
    (∀ f ∈ [3, 5], let x := (atHead0 (wRegs [(LandReg.HSTATE, 5), (LandReg.FSTAT, f)])).head 0; x.tracking = true ∧
      x.r LandReg.FSTAT = f) ∧
    (∀ p ∈ [(0, 2900), (1, 2900), (0, 5000), (15, 2900)], let x := (atHead0 fun x => (wRegs [(LandReg.HSTATE, 6),
        (LandReg.LAYER_COUNT, 2), (LandReg.TARGET_LAYER, p.1), (LandReg.TARGET_BAND, p.2), (LandReg.BAND_KNOWN, 1),
        (LandReg.FINE_MAX, 4)] x).wi LandReg.BAND_E (extendedOf 2900)).head 0;
      x.r LandReg.HSTATE = 6 ∧ x.b LandReg.CMD_BUSY = false ∧ x.namesLoop (x.r LandReg.TRACK_LOOP) = true ∧
      x.namesLoop (x.r LandReg.FOCUS_LOOP) = true ∧ x.r LandReg.TARGET_LAYER = p.1 ∧ x.r LandReg.LAYER = 0 ∧
      x.b LandReg.BAND_KNOWN = true ∧ x.targetOk = (p.2 == 2900 && p.1 != 15) ∧
      (p.2 = 2900 → (extendedOf (x.r LandReg.TARGET_BAND) - x.bandE).natAbs ≤ x.fineMax)) ∧
    (∀ i ∈ [0, 2 ^ 4], ∀ c ∈ [0, 1], let x := (atHead0 fun x => { wRegs [(LandReg.HSTATE, 11), (RiserReg.SAFE_CMD, c)] x with
        land := { x.land with lastInputs := i } }).head 0;
      x.r LandReg.HSTATE = 11 ∧ (bitOf x.land.lastInputs 4 || x.routedFault) = (i != 0) ∧ x.b RiserReg.SAFE_CMD = (c == 1)) := by
  refine ⟨?_, ?_, ?_, ?_, ?_, ?_⟩ <;> decide

/-- Head 0 with registers written and the Landing's state, after 2^24 cycles. -/
def wLand (fs : List (Fld × Nat)) (f : LandSt → LandSt) : State :=
  (atHead0 fun x => { wRegs fs x with land := f x.land }).pass (2 ^ 24)

/-- Witnesses of FocusEvents. -/
theorem witness_FocusEvents :
    (∀ b ∈ [0, 1],
      let u := wLand [(LandReg.FSTAT, 2), (LandReg.HSTATE, 4), (LandReg.CMD_BUSY, b), (LandReg.FLOCK_TO, 1)] fun l => { l with goodFocus := 255, lossFocus := 255 };
      let x := u.head 0; x.inReset = false ∧ x.r LandReg.FSTAT = 2 ∧ atLeast1 (x.r LandReg.FLOCK_N) ≤ x.land.goodFocus ∧
      x.land.jumpPhase ≠ 5 ∧ x.b LandReg.CMD_BUSY = (b == 1) ∧ x.namesLoop (x.r LandReg.TILT_R_LOOP) = true ∧
      x.land.captureAt + cyclesOfUs (atLeast1 (x.r LandReg.FLOCK_TO)) ≤ (u.ctx 0).cyc ∧
      atLeast1 (x.r LandReg.FLOSS_N) ≤ x.land.lossFocus ∧ x.r LandReg.HSTATE = 4) ∧
    (let x := (wLand [(LandReg.FSTAT, 3), (LandReg.HSTATE, 9)] fun l => { l with lossFocus := 255 }).head 0;
      x.r LandReg.FSTAT = 3 ∧ ¬ (x.r LandReg.HSTATE = 4 ∨ x.tracking = true) ∧
      atLeast1 (x.r LandReg.FLOSS_N) ≤ x.land.lossFocus) ∧
    (∀ p ∈ [1, 2, 3, 4],
      let u := wLand [(LandReg.FSTAT, 5), (LandReg.SA_TO, 1), (LandReg.JUMP_TO, 1)] fun l => { l with jumpPhase := p, saRun := 3 };
      let x := u.head 0; x.land.jumpPhase = p ∧ x.land.saRun = 3 ∧ x.r LandReg.FSTAT = 5 ∧
      x.land.jumpAt + cyclesOfMs (atLeast1 (x.r LandReg.SA_TO)) ≤ (u.ctx 0).cyc ∧
      x.land.jumpAt + pulseCycles (x.r LandReg.KICK_T) ≤ (u.ctx 0).cyc ∧
      x.land.jumpAt + pulseCycles (x.r LandReg.BRAKE_T) ≤ (u.ctx 0).cyc ∧
      x.land.jumpKick + cyclesOfUs (atLeast1 (x.r LandReg.JUMP_TO)) ≤ (u.ctx 0).cyc) := by
  refine ⟨?_, ?_, ?_⟩ <;> decide

/-- A window that frames in have reached, with the five edges of a wedge or none. -/
def wWedge (edges : List Edge) (x : Head) : Head := { x with
  loops := { x.loops with servo := [.reset] }
  land := { x.land with winClose := some { Window.reset with closeTe := 1000 }, edges := edges } }
def wEdges : List Edge := [⟨100, 0⟩, ⟨200, 340⟩, ⟨300, 400⟩, ⟨700, 660⟩, ⟨800, 700⟩]

/-- Witnesses of TrackingEvents. -/
theorem witness_TrackingEvents :
    (∀ e ∈ [wEdges, []], let x := ((atHead0 (wWedge e)).pass 0).head 0; let w := { Window.reset with closeTe := 1000 };
      x.inReset = false ∧ x.land.winClose = some w ∧ x.framesIn w = true ∧
      ((wedgeCode w (x.land.edges.filter fun e => decide (w.openTe ≤ e.at16 ∧ e.at16 < w.closeTe))).1 = 0 ↔ e = wEdges)) ∧
    (∀ t ∈ [1, 5],
      let u := wLand [(LandReg.HSTATE, 5), (LandReg.TSTAT, t), (LandReg.TLOCK_TO, 1)] fun l => { l with seekOn := true, lockRun := 255 };
      let x := u.head 0; x.r LandReg.HSTATE = 5 ∧ x.land.seekOn = true ∧ x.r LandReg.TSTAT = t ∧
      atLeast1 (x.r LandReg.TLOCK_N) ≤ x.land.lockRun ∧
      x.land.seekAt + cyclesOfUs (atLeast1 (x.r LandReg.TLOCK_TO)) ≤ (u.ctx 0).cyc) ∧
    (∀ p ∈ [(2, 0, 6), (0, 255, 6), (2, 0, 1)],
      let x := (wLand [(LandReg.HSTATE, p.2.2), (LandReg.TSTAT, 6)] fun l => { l with lossRun := p.1, invRun := p.2.1 }).head 0;
      x.r LandReg.TSTAT = 6 ∧ (2 ≤ x.land.lossRun ∨ atLeast1 (x.r LandReg.INV_N) ≤ x.land.invRun) ∧
      x.tracking = (p.2.2 == 6)) ∧
    (∀ t ∈ [3, 4],
      let u := wLand [(LandReg.HSTATE, 5), (LandReg.TSTAT, t), (LandReg.SETTLE_T, 1), (LandReg.ID_TO, 1)] fun l => { l with seekOn := true };
      let x := u.head 0; x.land.seekOn = true ∧ x.r LandReg.TSTAT = t ∧ x.b LandReg.BAND_KNOWN = false ∧
      x.land.seekAt + cyclesOfUs (x.r LandReg.SETTLE_T) ≤ (u.ctx 0).cyc ∧
      x.land.seekAt + cyclesOfUs (atLeast1 (x.r LandReg.ID_TO)) ≤ (u.ctx 0).cyc) ∧
    (∀ p ∈ [(true, 0), (false, 0), (false, 90000)],
      let u := wLand [(LandReg.TSTAT, 3), (LandReg.SETTLE_T, 1), (LandReg.BAND_KNOWN, 1), (LandReg.SEEK_TRIES, 1)] fun l =>
        { l with seekOn := true, seekTrackOn := p.1, seekTarget := p.2, seekTries := 1 };
      let x := u.head 0; x.land.seekOn = true ∧ x.r LandReg.TSTAT = 3 ∧ x.b LandReg.BAND_KNOWN = true ∧
      x.land.seekTrackOn = p.1 ∧ x.nearTarget = (p.2 == 0) ∧ atLeast1 (x.r LandReg.SEEK_TRIES) ≤ x.land.seekTries ∧
      x.land.seekAt + cyclesOfUs (x.r LandReg.SETTLE_T) ≤ (u.ctx 0).cyc) ∧
    (let u := wLand [(LoopReg.HOLD_ACTIVE, 1), (LandReg.HOLD_MAX, 1)] id; let x := u.head 0; x.b LoopReg.HOLD_ACTIVE = true ∧
      x.land.holdAt + cyclesOfUs (atLeast1 (x.r LandReg.HOLD_MAX)) ≤ (u.ctx 0).cyc) := by
  refine ⟨?_, ?_, ?_, ?_, ?_, ?_⟩ <;> decide

/-- More witnesses of ReadRegisters: a retry order's GO with its slots held, or not. -/
theorem witness_ReadRegisters_held :
    (let x := (atHead0 wSlots).head 0; x.b WeftReg.BUSY = false ∧ ∀ q < 4, ∃ r ∈ (x.beam (toSampler (4 * 0 + q))).slots,
      r.state = 3 ∧ r.live.sector = (0 : Word).toNat / 8 % 64 ∧ r.ue = false) ∧
    (let x := awake.head 0; x.b WeftReg.BUSY = false ∧ ∃ q < 4, ∀ r ∈ (x.beam (toSampler (4 * 0 + q))).slots,
      r.state ≠ 3 ∨ r.live.sector ≠ (0 : Word).toNat / 8 % 64 ∨ r.ue = true) := by
  refine ⟨?_, ?_⟩ <;> decide

end Sys2Proof.Tests
end

section

namespace Sys2Proof.Machine

/-! ### Addresses and reset values -/

/-- The place of an address inside the head window of a tile (R3, R497). -/
theorem placeOf_head (h : Fin 32) {k : Nat} (hk : k < 0x80000) :
    placeOf (0x10000000 + h.val / 4 * 0x01000000 + 0x00400000 + h.val % 4 * 0x00080000 + k) = .head h k := by
  have htile : toTile ((0x10000000 + h.val / 4 * 0x01000000 + 0x00400000 + h.val % 4 * 0x00080000 + k - 0x10000000) / 0x1000000) =
      tileOf h := Fin.ext (by simp only [toTile, tileOf]; omega)
  have hoff : (0x10000000 + h.val / 4 * 0x01000000 + 0x00400000 + h.val % 4 * 0x00080000 + k) % 0x1000000 =
      0x400000 + h.val % 4 * 0x80000 + k := by omega
  unfold placeOf
  rw [if_neg (by omega), if_pos (by omega)]
  simp only [htile, hoff]
  rw [if_pos (by omega)]
  congr 1
  · exact Fin.ext (by simp only [headOf, tileOf]; omega)
  · omega

theorem headBase_eq (h : Fin 32) :
    headBase h = 0x10000000 + h.val / 4 * 0x01000000 + 0x00400000 + h.val % 4 * 0x00080000 := by
  simp only [headBase, tileBase, tileOf, localOf]
  omega

@[simp] theorem State.reset_head (h : Fin 32) : State.reset.head h = Head.reset := by simp [State.head, State.reset]
@[simp] theorem State.reset_tile (t : Fin 8) : State.reset.tile t = Tile.reset := by simp [State.tile, State.reset]
@[simp] theorem State.reset_atrium (w : Fin 2) : State.reset.atrium w = Atrium.reset := by simp [State.atrium, State.reset]


/-- Settles O7, from the place of an address in a head's window. -/
theorem headAddress : Obligations.HeadAddress := by
  unfold Obligations.HeadAddress
  refine ⟨fun h sub off hb => ?_, fun h i off hoff => ?_, headBase_eq⟩
  · rw [Nat.add_assoc _ sub off]
    exact placeOf_head h hb
  · have hi : 0x40000 + 0x800 * i.val + off < 0x80000 := by omega
    rw [headBase_eq, ← placeOf_head h hi]
    congr 1
    omega

/-- Settles O3: every block stands at its own reset value, whose register file lists nothing. -/
theorem resetValues : Obligations.ResetValues := by
  unfold Obligations.ResetValues
  refine ⟨rfl, rfl, rfl, fun h f => ?_, fun t f => ?_, fun w f => ?_⟩
  · rw [State.reset_head]; exact ⟨rfl, rfl⟩
  · rw [State.reset_tile]; exact ⟨rfl, rfl, rfl, rfl⟩
  · rw [State.reset_atrium]; rfl

end Sys2Proof.Machine

end

section

namespace Sys2Proof.Machine

/-! ### States alike in what an access asks of them

An access asks for the Atrium copies, the heads, the boot, and of each tile its reset, its Selvedge store and the states of
its links. -/

/-- `u` is `s` but for what no access asks. -/
structure State.Alike (s u : State) : Prop where
  atria : u.atria = s.atria
  heads : u.heads = s.heads
  boot : u.boot = s.boot
  inReset : ∀ j, (u.tile j).inReset = (s.tile j).inReset
  selv : ∀ j, (u.tile j).selv = (s.tile j).selv
  lstate : ∀ j k, (u.tile j).r (LinkReg.LSTATE k) = (s.tile j).r (LinkReg.LSTATE k)

theorem State.alike_turnTo (k : Nat) (s : State) : s.Alike (s.turnTo k) := by
  unfold State.turnTo
  split
  · exact ⟨rfl, rfl, rfl, fun j => by show ((s.advance 1).tile j).inReset = _; simp,
      fun j => by show ((s.advance 1).tile j).selv = _; simp,
      fun j k => by show ((s.advance 1).tile j).r _ = _; simp⟩
  · exact ⟨rfl, rfl, rfl, fun _ => rfl, fun _ => rfl, fun _ _ => rfl⟩

namespace State.Alike

variable {s u : State} (a : s.Alike u)
include a

theorem head (h : Fin 32) : u.head h = s.head h := by unfold State.head; rw [a.heads]

theorem atrium (w : Fin 2) : u.atrium w = s.atrium w := by unfold State.atrium; rw [a.atria]

theorem holds (w : Fin 2) : u.holds w = s.holds w := by
  unfold State.holds State.holderSeen
  rw [a.atrium]

theorem mainWing : u.mainWing = s.mainWing := by
  unfold State.mainWing
  rw [a.holds, a.holds]

theorem split : u.split = s.split := by
  unfold State.split
  rw [a.atrium, a.atrium]

theorem pr (w : Fin 2) (f : Fld) : u.pr w f = s.pr w f := by
  unfold State.pr State.lostWord
  rw [a.atrium, a.selv]

theorem copyOf (q : Req) : u.copyOf q = s.copyOf q := by
  unfold State.copyOf
  simp only [a.atrium, a.split, a.pr, a.mainWing]

theorem reqTile (q : Req) : u.reqTile q = s.reqTile q := by
  unfold State.reqTile
  rw [a.copyOf]

theorem tileEnabled (t : Fin 8) : u.tileEnabled t = s.tileEnabled t := by
  unfold State.tileEnabled
  rw [a.pr, a.pr]

theorem linkUp (t : Fin 8) (k : Fin 3) : u.linkUp t k = s.linkUp t k := by
  unfold State.linkUp
  rw [a.lstate, a.lstate]

theorem pathUp (p : List (Fin 8)) : ∀ t, u.pathUp t p = s.pathUp t p := by
  induction p with
  | nil => intro t; rfl
  | cons b l ih =>
    intro t
    simp only [State.pathUp, a.linkUp, ih]

theorem paths (b : Fin 8) (n : Nat) : ∀ t seen, u.paths b n t seen = s.paths b n t seen := by
  induction n with
  | zero => intro t seen; rfl
  | succ n ih =>
    intro t seen
    simp only [State.paths, a.linkUp, ih]

theorem route (t b : Fin 8) : u.route t b = s.route t b := by
  unfold State.route
  simp only [a.pathUp, a.paths]

theorem reaches (t b : Fin 8) : u.reaches t b = s.reaches t b := by
  unfold State.reaches
  rw [a.route]

theorem tileAccess (q : Req) (t : Fin 8) : u.tileAccess q t = s.tileAccess q t := by
  unfold State.tileAccess
  rw [a.tileEnabled, a.inReset, a.reqTile, a.reaches]

theorem accessOf (q : Req) (p : Place) : u.accessOf q p = s.accessOf q p := by
  cases p with
  | pkg off =>
    unfold State.accessOf State.pkgAccess State.pkgAsleep
    rw [a.boot, a.reqTile, a.copyOf, a.reaches]
  | tile t off => simp only [State.accessOf, State.gapAccess, a.tileAccess]
  | head h off => simp only [State.accessOf, State.headAccess, State.gapAccess, a.tileAccess, a.head]
  | none => rfl

end State.Alike

/-- How an access fares does not change while the write waits for its turn. -/
theorem State.turnTo_accessOf {s : State} {q : Req} {p : Place} {r : Reach} (h : s.accessOf q p = r) (k : Nat) :
    (s.turnTo k).accessOf q p = r := by
  rw [(s.alike_turnTo k).accessOf, h]

end Sys2Proof.Machine

end

section

namespace Sys2Proof.Machine

/-! ### A word with one field at a given value -/

theorem Fld.bits_eq (f : Fld) (n : Nat) (hw : 0 < f.width) : f.bits n = n / 2 ^ f.lsb % 2 ^ f.width := by
  unfold Fld.bits bitsOf
  rw [Nat.shiftRight_eq_div_pow, show f.lsb + f.width - 1 + 1 - f.lsb = f.width by omega]

/-- The word in its three parts: the bits above the field, the field's new value, and the bits below it. -/
theorem forced_parts (f : Fld) (k : Nat) (v : Word) (hw : 0 < f.width) :
    forced f k v = 2 ^ (f.lsb + f.width) * (v.toNat / 2 ^ (f.lsb + f.width)) +
      (2 ^ f.lsb * (k % 2 ^ f.width) + v.toNat % 2 ^ f.lsb) := by
  unfold forced
  rw [Fld.bits_eq f _ hw, Nat.pow_add, ← Nat.div_div_eq_div_mul]
  have hv : 2 ^ f.lsb * (2 ^ f.width * (v.toNat / 2 ^ f.lsb / 2 ^ f.width) + v.toNat / 2 ^ f.lsb % 2 ^ f.width) +
      v.toNat % 2 ^ f.lsb = v.toNat := by
    rw [Nat.div_add_mod, Nat.div_add_mod]
  generalize v.toNat / 2 ^ f.lsb / 2 ^ f.width = hi at hv ⊢
  generalize v.toNat / 2 ^ f.lsb % 2 ^ f.width = mid at hv ⊢
  generalize v.toNat % 2 ^ f.lsb = lo at hv ⊢
  rw [← hv, Nat.mul_add, ← Nat.mul_assoc, Nat.mul_comm mid, Nat.mul_comm (k % _)]
  omega

/-- Inside the field a bit is the given value's, outside it is the word's. -/
theorem forced_testBit (f : Fld) (k : Nat) (v : Word) (hw : 0 < f.width) (i : Nat) :
    (forced f k v).testBit i =
      if f.lsb ≤ i ∧ i < f.lsb + f.width then k.testBit (i - f.lsb) else v.toNat.testBit i := by
  have hlow : 2 ^ f.lsb * (k % 2 ^ f.width) + v.toNat % 2 ^ f.lsb < 2 ^ (f.lsb + f.width) := by
    rw [Nat.pow_add]
    calc _ < 2 ^ f.lsb * (k % 2 ^ f.width) + 2 ^ f.lsb := by have := Nat.mod_lt v.toNat (Nat.two_pow_pos f.lsb); omega
      _ = 2 ^ f.lsb * (k % 2 ^ f.width + 1) := by ring
      _ ≤ _ := Nat.mul_le_mul_left _ (Nat.mod_lt _ (Nat.two_pow_pos _))
  rw [forced_parts f k v hw, Nat.testBit_two_pow_mul_add _ hlow, Nat.testBit_two_pow_mul_add _ (Nat.mod_lt _ (Nat.two_pow_pos _))]
  by_cases h1 : i < f.lsb
  · rw [if_pos (by omega), if_pos h1, if_neg (by omega), Nat.testBit_mod_two_pow]
    simp [h1]
  · by_cases h2 : i < f.lsb + f.width
    · rw [if_pos h2, if_neg h1, if_pos ⟨by omega, h2⟩, Nat.testBit_mod_two_pow]
      simp; omega
    · rw [if_neg h2, if_neg (by omega), Nat.testBit_div_two_pow]
      congr 1; omega

/-- The bits above the field, as a number, are the word's. -/
theorem forced_above (f : Fld) (k : Nat) (v : Word) (hw : 0 < f.width) {n : Nat} (hn : f.lsb + f.width ≤ n) :
    forced f k v / 2 ^ n = v.toNat / 2 ^ n := by
  apply Nat.eq_of_testBit_eq
  intro i
  rw [Nat.testBit_div_two_pow, Nat.testBit_div_two_pow, forced_testBit f k v hw, if_neg (by omega)]

end Sys2Proof.Machine

end

section

namespace Sys2Proof.Machine

/-! ### Resets of the whole package -/

/-- What a reset of the package leaves of its pins, and where it leaves the boot. -/
theorem State.clearAll_rest (cls : RClass) (s : State) :
    (s.clearAll cls).pkg = { s.pkg with alertN := true } ∧ (s.clearAll cls).boot.phase = .held ∧
      (s.clearAll cls).boot.warm = (cls == .warm) := by
  unfold State.clearAll
  have h0 := State.clearHeads_changes (ps := [.heads]) (by decide) cls (.refl s)
  have h1 := State.clearTiles_changes (ps := [.tiles]) (by decide) cls (.refl (s.clearHeads cls))
  have h2 := State.loseRams_changes (ps := [.free, .tiles]) (by decide) (.refl ((s.clearHeads cls).clearTiles cls))
  have hp : (((s.clearHeads cls).clearTiles cls).loseRams).pkg = s.pkg := by
    rw [h2.pkg (by decide), h1.pkg (by decide), h0.pkg (by decide)]
  unfold State.clearRest
  exact ⟨by rw [hp], rfl, rfl⟩

theorem State.coldReset_rest (s : State) :
    s.coldReset.pkg = { s.pkg with alertN := true } ∧ s.coldReset.boot.phase = .held := by
  have h := State.coldReset_same s
  rw [h.pkg (by decide), h.boot (by decide)]
  exact ⟨(State.clearAll_rest .cold s).1, (State.clearAll_rest .cold s).2.1⟩

theorem State.warmReset_resetTo (s : State) : State.ResetTo .warm s s.warmReset := State.clearAll_resetTo .warm s

theorem State.warmReset_rest (s : State) :
    s.warmReset.pkg = { s.pkg with alertN := true } ∧ s.warmReset.boot.phase = .held ∧ s.warmReset.boot.warm = true :=
  State.clearAll_rest .warm s

/-- The pins may change with a reset of the package, and what it does to its parts stands. -/
theorem State.ResetTo.withPkg {cls : RClass} {s u : State} (h : State.ResetTo cls s u) (p : PkgSt) :
    State.ResetTo cls s { u with pkg := p } :=
  ⟨h.heads, h.tiles, h.copies, h.sets,
    h.frame.record (.inl rfl) (.inl rfl) (.inl rfl) (.inl rfl) (.inl rfl) (.inl rfl) (.inl rfl) (.inr (by decide))
      (.inl rfl) (.inl rfl) (.inl rfl) (.inr (by decide))⟩

/-- Where no append can have begun, a reset of the package interrupts none. -/
theorem State.interruptAppend_of_not_begun {s : State} (h : s.boot.phase ∉ [BootPhase.append, .recordHeld]) :
    s.interruptAppend = s := by
  simp only [List.mem_cons, List.not_mem_nil, or_false, not_or] at h
  unfold State.interruptAppend
  simp [h.1, h.2]

theorem State.interruptAppend_pkg (s : State) : s.interruptAppend.pkg = s.pkg :=
  (State.interruptAppend_changes (ps := [.free, .tiles, .atria]) (by decide) (.refl s)).pkg (by decide)

/-- A reset that may meet an append, read from the state before it. -/
theorem State.ResetTo.met {cls : RClass} {u t : State} (h : State.ResetTo cls u.interruptAppend t) :
    State.ResetTo cls u.interruptAppend t ∧ (u.boot.phase ∉ [BootPhase.append, .recordHeld] → State.ResetTo cls u t) :=
  ⟨h, fun hb => by rwa [State.interruptAppend_of_not_begun hb] at h⟩

theorem State.coldReset_pins (u : State) : u.interruptAppend.coldReset.pkg = { u.pkg with alertN := true } := by
  rw [(State.coldReset_rest _).1, State.interruptAppend_pkg]

theorem State.warmReset_pins (u : State) : u.interruptAppend.warmReset.pkg = { u.pkg with alertN := true } := by
  rw [(State.warmReset_rest _).1, State.interruptAppend_pkg]

@[simp] theorem State.turnTo_pkg (k : Nat) (s : State) : (s.turnTo k).pkg = s.pkg := by
  unfold State.turnTo
  split <;> rfl

/-- What the end of a reset's row leaves, whose pins alone say which cause it was. -/
theorem State.ResetTo.holds {cls : RClass} {u r : State} {x : PkgSt} (h : State.ResetTo cls u.interruptAppend r)
    (hb : r.boot.phase = .held) (hx : r.pkg = x) (f : PkgSt → PkgSt) :
    let t := { r with pkg := f r.pkg }
    State.ResetTo cls u.interruptAppend t ∧ (u.boot.phase ∉ [BootPhase.append, .recordHeld] → State.ResetTo cls u t) ∧
      t.boot.phase = .held ∧ t.pkg = f x :=
  have h := (h.withPkg (f r.pkg)).met
  ⟨h.1, h.2, hb, congrArg f hx⟩

/-- RAIL_UNDERVOLTAGE (R483). -/
theorem execRailUndervoltage_due {low : Nat} (hl : cyclesOfUs 2 ≤ low) (wait : Nat) (s : State) :
    exec (.railUndervoltage wait low) s = .next (let r := ((s.advance wait).turnTo 1).interruptAppend.coldReset
      { r with pkg := { r.pkg with porHeld := true, warmHeld := false } }) := by
  show execRailUndervoltage wait low s = _
  unfold execRailUndervoltage
  rw [State.afterIn_due _ (decide_eq_true hl)]

/-- SYSCLK_STOP (R496). -/
theorem execSysclkStop_due {s : State} (hc : s.pkg.sysclk = true) (wait : Nat) :
    exec (.sysclkStop wait) s = .next (let r := ((s.advance wait).turnTo 1).interruptAppend.coldReset
      { r with pkg := { r.pkg with sysclk := false, warmHeld := false } }) := by
  show execSysclkStop wait s = _
  unfold execSysclkStop
  rw [State.afterIn_due _ (by simpa using hc)]

/-- RST_N (R484) where no other cause holds the package. -/
theorem execRstN_due {s : State} {low : Nat} (hr : s.pkg.rstN = true) (hp : s.pkg.porHeld = false)
    (hc : s.pkg.sysclk = true) (hl : cyclesPerUs ≤ low) (wait : Nat) :
    exec (.rstN wait low) s = .next (let r := ((s.advance wait).turnTo 2).interruptAppend.warmReset
      { r with pkg := { r.pkg with rstN := false, warmHeld := true } }) := by
  show execRstN wait low s = _
  unfold execRstN
  rw [State.afterIn_due _ (by simp [hr, hl]), if_neg (by simp [hp, hc])]

/-! ### RESET_CMD -/

/-- RESET_CMD keeps no field: a write of it is the command alone (R501). -/
theorem State.pkgWrite_resetCmd (q : Req) (v : Nat) (s : State) : s.pkgWrite q 0x24 v = s.resetCmd q v := by
  unfold State.pkgWrite
  rw [State.pkgStore_skip (by decide)]
  unfold State.pkgAct
  exact if_pos rfl

/-- The row of RESET_CMD with WARM_RST at `k`. -/
theorem resetRow_eq {q : Req} {s : State} (ok : s.accessOf q (.pkg 0x24) = .ok) (k : Nat) (v : Word) :
    pkgRow q IdReg.WARM_RST k v s = .next ((s.atPkg q 0x24).resetCmd q (forced IdReg.WARM_RST k v)) := by
  have ok3 := State.turnTo_accessOf ok 3
  rw [pkgRow, show IdReg.WARM_RST.off = 0x24 from rfl, State.writeAt_pkg ok3, State.pkgWrite_resetCmd]
  rfl

/-- The key of RESET_CMD stands above WARM_RST. -/
theorem forced_resetKey (k : Nat) (v : Word) : forced IdReg.WARM_RST k v / 2 ^ 16 % 2 ^ 16 = v.toNat / 2 ^ 16 := by
  rw [forced_above _ _ _ (by decide) (by decide)]
  exact Nat.mod_eq_of_lt (by omega)

theorem forced_warmRst (k : Nat) (v : Word) : bitOf (forced IdReg.WARM_RST k v) 8 = Nat.testBit k 0 :=
  (forced_testBit IdReg.WARM_RST k v (by decide) 8).trans (if_pos (by decide))

/-- The state that a write of RESET_CMD finds is the one before it, but for its packet and the shadow. -/
theorem State.atPkg_only {s : State} {q : Req} {off : Nat} (ok : s.accessOf q (.pkg off) = .ok) :
    s.ChangesOnly [.time, .tiles, .shadows] (s.atPkg q off) :=
  ((State.turned_changes (ps := [.time, .tiles]) (by decide) 3 s).mono (by decide)).trans
    ((State.arrived_only (State.turnTo_accessOf ok 3)).mono (by decide))

/-- A warm reset by command is the reset and the start of the boot (R10, R501). -/
theorem State.ResetTo.bootBegins {u r : State} (h : State.ResetTo .warm u r) (hw : r.boot.warm = true) :
    let t := r.bootBegins
    t.boot.phase = .pll ∧ t.boot.warm = true ∧ (∀ h, (t.head h).inReset = true ∧ (u.head h).ResetBy .warm (t.head h)) ∧
      (∀ j, (t.tile j).inReset = true ∧ (t.tile j).timeOn = false) ∧ ∀ n, t.aset n = ASet.reset :=
  ⟨rfl, hw, h.heads, fun j => ⟨(h.tiles j).1, (h.tiles j).2.1⟩, h.sets⟩

/-- WARM_RST is set and its key right: the command is taken in by a reset of the package that runs, and begins one otherwise
(R10, R501). -/
theorem execWarmRst_ordered {s : State} {q : Req} {v : Word} (ok : s.accessOf q (.pkg 0x24) = .ok)
    (hv : v.toNat / 2 ^ 16 = 0x8512) (ha : (s.atPkg q 0x24).allowed q = true) :
    exec (.warmRst q v) s = .next (let u := s.atPkg q 0x24
      if u.packageResets then u else u.warmReset.bootBegins) := by
  have hbit : bitOf (forced IdReg.WARM_RST 1 v) 8 = true := forced_warmRst 1 v
  show pkgRow q IdReg.WARM_RST 1 v s = _
  rw [resetRow_eq ok]
  unfold State.resetCmd
  rw [if_pos ⟨(forced_resetKey 1 v).trans hv, ha⟩, if_pos hbit]

theorem State.packageResets_iff (s : State) :
    s.packageResets = true ↔ s.boot.phase ∉ [BootPhase.running, .mgmtOnly, .recordHeld] := by
  unfold State.packageResets
  simp [and_assoc]

/-- Settles O11: each cause is one reset of the package, met by an append that has begun; and by command the package is
reset only where no reset of it runs. -/
theorem packageResets : Obligations.PackageResets := by
  unfold Obligations.PackageResets
  refine ⟨fun s wait low hl => ⟨_, execRailUndervoltage_due hl wait s, ?_⟩,
    fun s wait hc => ⟨_, execSysclkStop_due hc wait, ?_⟩,
    fun s wait low hr hp hc hl => ⟨_, execRstN_due hr hp hc hl wait, ?_⟩, fun s q v ok hv ha => ?_⟩
  · exact (State.coldReset_resetTo _).holds (State.coldReset_rest _).2 (State.coldReset_pins _)
      fun p => { p with porHeld := true, warmHeld := false }
  · exact (State.coldReset_resetTo _).holds (State.coldReset_rest _).2 (State.coldReset_pins _)
      fun p => { p with sysclk := false, warmHeld := false }
  · exact (State.warmReset_resetTo _).holds (State.warmReset_rest _).2.1 (State.warmReset_pins _)
      fun p => { p with rstN := false, warmHeld := true }
  · have he := execWarmRst_ordered ok hv ha
    have hh := (State.atPkg_only ok).same_head (by decide)
    have hb : (s.atPkg q 0x24).packageResets = true ↔ s.boot.phase ∉ [BootPhase.running, .mgmtOnly, .recordHeld] := by
      rw [State.packageResets_iff, (State.atPkg_only ok).boot (by decide)]
    refine ⟨fun h => by rw [he]; exact congrArg _ (if_pos (hb.2 h)), fun h => ⟨_, he, ?_⟩⟩
    dsimp only
    rw [if_neg (fun k => hb.1 k h)]
    obtain ⟨h1, h2, h3, h4, h5⟩ := (State.warmReset_resetTo (s.atPkg q 0x24)).bootBegins (State.warmReset_rest _).2.2
    exact ⟨h1, h2, fun h => by rw [← hh h]; exact h3 h, h4, h5⟩

end Sys2Proof.Machine

end

section

namespace Sys2Proof.Machine

/-! ### A head reset under a region map

BANK shows the bank that the region map gives the head's layer, zone, speed band and mode (R206), and the map outlasts a head
reset. So BANK reads its reset value afterwards only where the map gives the reset region bank 0. -/

/-- A head out of reset whose region map gives the region of layer 0, zone 0, speed band 0 and mode 0 bank 1. -/
def bankedHead : Head := { Head.reset with
  inReset := false, loops := { LoopSt.reset with regionMem := Mem.empty.writeLE 20 1 1 } }

/-- A package that runs with every tile enabled, its heads so. -/
def bankedState : State := { State.reset with
  heads := Vector.replicate 32 bankedHead
  tiles := Vector.replicate 8 { Tile.reset with inReset := false, timeOn := true }
  atria := Vector.replicate 2 (Atrium.reset.w IdReg.TILE_EN 255)
  boot := { BootSt.reset with phase := .running } }

theorem bankedState_access : bankedState.accessOf (.core 0 0) (.head 0 0) = .ok := by decide

/-- The head reset leaves BANK at the map's bank. -/
theorem bankedState_headReset :
    ∃ t, exec (.headReset (.core 0 0) 0 1) bankedState = .next t ∧ (t.head 0).r LoopReg.BANK = 1 := by
  refine ⟨_, rfl, ?_⟩
  decide +kernel

/-- Refutes O43: after HEAD_RESET the field BANK reads the bank in force, here 1, and not its reset value 0. -/
theorem not_partResets : ¬ Obligations.PartResets := by
  unfold Obligations.PartResets
  intro ⟨_, hhead, _⟩
  obtain ⟨t, he, -, -, -, -, -, -, -, -, -, -, hfields, -⟩ := hhead bankedState (.core 0 0) 0 1 bankedState_access
  obtain ⟨t', he', hbank⟩ := bankedState_headReset
  obtain rfl : t = t' := Host.Outcome.next.inj (he.symm.trans he')
  have hzero : (t.head 0).r LoopReg.BANK = LoopReg.BANK.after .head ((bankedState.head 0).r LoopReg.BANK) :=
    hfields LoopReg.BANK (by decide +kernel) (by decide) (by decide) (by decide) (by decide)
  rw [hbank] at hzero
  exact absurd hzero (by decide)

end Sys2Proof.Machine

end

section

namespace Sys2Proof.Machine

/-! ### A lower word that the Selvedge store keeps

EPOCH_LO at 0x604 is the lower word of a value held in two words (R31), and it is kept in a word of the Selvedge store. A read
of it reads that word too, and a correctable upset there counts in SELV_CE_COUNT of the package block (R433, R435). -/

/-- A package that runs, with a correctable upset in the Selvedge word that keeps EPOCH on tile 0. -/
def upsetEpochState : State := { State.reset with
  tiles := (Vector.replicate 8 { Tile.reset with inReset := false, timeOn := true }).set 0
    { Tile.reset with inReset := false, timeOn := true, selv := { Tile.reset.selv with ce := (keptAt 0 0x604).toList } }
  atria := Vector.replicate 2 (Atrium.reset.w IdReg.TILE_EN 255)
  boot := { BootSt.reset with phase := .running } }

theorem upsetEpochState_reads :
    isLower (placeOf 0x604) = true ∧ upsetEpochState.accessOf (.core 0 0) (placeOf 0x604) = .ok ∧
      upsetEpochState.shadowOf (.core 0 0) 0x604 = none := by decide

/-- The read of EPOCH_LO counts the upset. -/
theorem upsetEpochState_counts :
    ∃ y, exec (.lowerWordRead (.core 0 0) 0x604) upsetEpochState = .next y ∧ (y.atrium 0).r BootReg.SELV_CE_COUNT = 1 := by
  refine ⟨_, rfl, ?_⟩
  decide +kernel

/-- Refutes O60: a read of EPOCH_LO counts a correctable upset of its Selvedge word in the package block, which the frame of
LOWER_WORD_READ leaves out. -/
theorem not_memoryAndRegisters : ¬ Obligations.MemoryAndRegisters := by
  unfold Obligations.MemoryAndRegisters
  intro ⟨_, _, _, haccess, _⟩
  obtain ⟨_, _, hword⟩ := haccess upsetEpochState (.core 0 0) 0 0
  obtain ⟨_, _, _, _, hread⟩ := hword 0x604
  obtain ⟨hlower, hok, hshadow⟩ := upsetEpochState_reads
  obtain ⟨y, he, -, -, -, -, hframe⟩ := hread hlower hok hshadow
  obtain ⟨y', he', hcount⟩ := upsetEpochState_counts
  obtain rfl : y = y' := Host.Outcome.next.inj (he.symm.trans he')
  rw [hframe.same_atrium (by decide) 0] at hcount
  exact absurd hcount (by decide)

end Sys2Proof.Machine

end

section

namespace Sys2Proof.Machine

/-! ### A bit-stream that leaves strapped tiles out

Tiles that are strapped but not enabled by the bit-stream are gated off once loading ends (R410), and their memories lose what
they held. What a lost memory reads is a free value of the model, so the load of such a bit-stream takes free values. -/

/-- The STRUCTURE section of a bit-stream in slot A. -/
def structureSection : Section := { Section.reset with id := 1, offset := 512, length := 1 }

/-- A flash whose STRUCTURE section gives TILE_COUNT as 2. -/
def twoTileFlash : FlashSt := { FlashSt.reset with mem := Mem.empty.writeLE 512 1 (2 ^^^ 0xFF) }

/-- The boot of a package of eight strapped tiles, at the load of that bit-stream. -/
def twoTileLoad : State := { State.reset with
  flashes := Vector.replicate 2 twoTileFlash
  atria := Vector.replicate 2 (Atrium.reset.w IdReg.TILE_STRAPPED 255)
  boot := { BootSt.reset with phase := .load, strapWord := 3, sections := [structureSection] } }

/-- The six tiles that are gated off take three free values each. -/
theorem twoTileLoad_takesFree :
    ∃ t, exec (.sectionLoad 0) twoTileLoad = .next t ∧ t.freeCount = (twoTileLoad.pass 0).freeCount + 18 := by
  refine ⟨_, rfl, ?_⟩
  decide +kernel

/-- Refutes O42: the load of a two-tile bit-stream, which writes no register, gates six tiles off, and the contents that their
memories lose are free values. -/
theorem not_bootToRelease : ¬ Obligations.BootToRelease := by
  unfold Obligations.BootToRelease
  intro h
  obtain ⟨hload, -⟩ := h twoTileLoad 0
  obtain ⟨t, he, -, -, -, -, hplain, -⟩ := hload rfl
  obtain ⟨-, -, hfree, -⟩ := hplain (by decide)
  obtain ⟨t', he', htaken⟩ := twoTileLoad_takesFree
  obtain rfl : t = t' := Host.Outcome.next.inj (he.symm.trans he')
  rw [htaken] at hfree
  omega

end Sys2Proof.Machine

end

section

namespace Sys2Proof.Machine

/-! ### Fields of the package block that the event log leaves alone -/

/-- Field `f` of both copies of the package block reads in `t` as in `s`. -/
def State.FieldKept (f : Fld) (s t : State) : Prop := ∀ w, (t.atrium w).r f = (s.atrium w).r f

/-- What a record of any tile's log changes in the package block (R432, R434, R452, R453). -/
def logFields : List Fld :=
  [BootReg.SELV_REFUSED, BootReg.WEAR_WARN, BootReg.WEAR_MAX_LO, BootReg.WEAR_MAX_HI, BootReg.WEAR_TILE] ++
    allTiles.flatMap fun (l : Fin 8) => [EvReg.EV_SEQ l.val, EvReg.EV_DROP l.val, EvReg.EV_NEW l.val]

/-- A change to one Atrium copy keeps the fields that it keeps there. -/
theorem State.onAtrium_kept {f : Fld} (s : State) (w : Fin 2) {g : Atrium → Atrium} (hg : ∀ a, (g a).r f = a.r f) :
    s.FieldKept f (s.onAtrium w g) := by
  intro k
  by_cases hk : k = w
  · subst hk
    rw [State.onAtrium_atrium, hg]
  · rw [State.onAtrium_atrium_ne _ _ _ _ hk]

section

variable {f : Fld} {s t : State}

theorem State.FieldKept.trans {u : State} (h : State.FieldKept f s t) (k : State.FieldKept f t u) :
    State.FieldKept f s u := fun w => (k w).trans (h w)

theorem State.onTile_kept (s : State) (t : Fin 8) (g : Tile → Tile) : s.FieldKept f (s.onTile t g) := fun _ => rfl

theorem State.onPkg_kept (s : State) (w : Fin 2) {g : RegFile → RegFile} (hg : ∀ rf, (g rf).rd f = rf.rd f) :
    s.FieldKept f (s.onPkg w g) := by
  unfold State.onPkg
  split
  · exact State.onAtrium_kept s w (g := fun a => { a with regs := g a.regs }) fun a => hg a.regs
  · exact (State.onAtrium_kept s 0 (g := fun a => { a with regs := g a.regs }) fun a => hg a.regs).trans
      (State.onAtrium_kept _ 1 fun a => hg a.regs)

theorem State.pset_kept (s : State) (w : Fin 2) {g : Fld} (h : f.key ≠ g.key) : s.FieldKept f (s.pset w g) :=
  State.onPkg_kept s w fun rf => rf.rd_wr_ne 1 h

theorem State.FieldKept.foldl {α : Type} {g : State → α → State} (l : List α)
    (hg : ∀ s, ∀ a ∈ l, State.FieldKept f s (g s a)) : s.FieldKept f (l.foldl g s) := by
  induction l generalizing s with
  | nil => exact fun _ => rfl
  | cons a l ih => exact (hg s a (by simp)).trans (ih fun s b hb => hg s b (by simp [hb]))

/-! What follows is of a field that no record of a log changes. -/

variable (hf : ∀ g ∈ logFields, f.key ≠ g.key)
include hf

theorem State.noteWear_kept (s : State) (t : Fin 8) (w : Nat) : s.FieldKept f (s.noteWear t w) := by
  have hlo : f.key ≠ BootReg.WEAR_MAX_LO.key := hf _ (by simp [logFields])
  have hhi : f.key ≠ BootReg.WEAR_MAX_HI.key := hf _ (by simp [logFields])
  have htile : f.key ≠ BootReg.WEAR_TILE.key := hf _ (by simp [logFields])
  unfold State.noteWear State.refreshWear
  dsimp only
  split
  · split
    · exact (State.pset_kept _ _ (hf _ (by simp [logFields]))).trans (State.onPkg_kept _ _ fun rf => by
        rw [RegFile.rd_wr_ne _ _ htile, RegFile.rd_wr_ne _ _ hhi, RegFile.rd_wr_ne _ _ hlo])
    · exact fun _ => rfl
  · exact fun _ => rfl

theorem State.selvWrite_kept (s : State) (t : Fin 8) (w : Nat) (v : DWord) : s.FieldKept f (s.selvWrite t w v) := by
  unfold State.selvWrite
  split
  · exact State.pset_kept _ _ (hf _ (by simp [logFields]))
  · exact (State.onTile_kept _ _ _).trans (State.noteWear_kept hf _ t w)

theorem State.selvWrites_kept (t : Fin 8) (l : List DWord) (s : State) (w : Nat) :
    s.FieldKept f (s.selvWrites t w l) := by
  induction l generalizing s w with
  | nil => exact fun _ => rfl
  | cons v l ih => exact (State.selvWrite_kept hf s t w v).trans (ih _ _)

theorem State.writeRecord_kept (s : State) (l : Fin 8) (r : LogRec) : s.FieldKept f (s.writeRecord l r) := by
  have hl : ∀ g ∈ [EvReg.EV_SEQ l, EvReg.EV_DROP l, EvReg.EV_NEW l], f.key ≠ g.key := fun g hg =>
    hf g (List.mem_append_right _ (List.mem_flatMap.2 ⟨l, by fin_cases l <;> decide, hg⟩))
  have hseq : f.key ≠ (EvReg.EV_SEQ l).key := hl _ (by simp)
  have hdrop : f.key ≠ (EvReg.EV_DROP l).key := hl _ (by simp)
  have hnew : f.key ≠ (EvReg.EV_NEW l).key := hl _ (by simp)
  unfold State.writeRecord
  extract_lets wing seq lg window merges rep w ws s1 s2 s3
  split
  · exact (State.pset_kept _ _ (hf _ (by simp [logFields]))).trans
      (State.onPkg_kept _ _ fun rf => rf.rd_wr_ne _ hdrop)
  split
  · split
    · exact fun _ => rfl
    · exact (State.selvWrite_kept hf _ _ _ _).trans (State.onTile_kept _ _ _)
  · have hwords : s.FieldKept f s1 := (State.selvWrite_kept hf s l w 0).trans (State.selvWrites_kept hf l _ _ _)
    have hheader : s1.FieldKept f s2 := State.selvWrite_kept hf s1 l w _
    have hlogger : s2.FieldKept f s3 := State.onTile_kept s2 l _
    exact ((hwords.trans hheader).trans hlogger).trans (State.onPkg_kept s3 wing fun rf => by
      rw [RegFile.set, RegFile.rd_wr_ne _ _ hnew, RegFile.rd_wr_ne _ _ hseq])

theorem State.log_kept (s : State) (t : Fin 8) (code unit arg0 arg1 : Nat) :
    s.FieldKept f (s.log t code unit arg0 arg1) := by
  unfold State.log State.logIn
  split
  · exact State.writeRecord_kept hf _ _ _
  · exact State.onTile_kept _ _ _

theorem State.logPkg_kept (s : State) (code unit arg0 arg1 : Nat) : s.FieldKept f (s.logPkg code unit arg0 arg1) :=
  (State.log_kept hf s _ _ _ _ _).trans (State.log_kept hf _ _ _ _ _ _)

end

end Sys2Proof.Machine

end

section

namespace Sys2Proof.Machine

/-! ### A rejoin of copies that read alike

A persistent register whose Selvedge word is uncorrectable reads 0 (R433, R435). The reconciliation of a rejoin compares what
the two copies read (R448): where the other copy reads 0 too, it finds no difference and writes neither copy, so the register
behind the lost word keeps the value that it took before the upset. -/

/-- The fields of a set that the reconciliation of a rejoin compares (R448). -/
def reconciledOfSet (n : Nat) : List Fld :=
  [SetReg.ONLINE_DONE n, SetReg.PRESENT n, SetReg.REPLACING n, SetReg.JSTART n, SetReg.CKPT_SEQ n, SetReg.WSEQ_AT_LO n,
    SetReg.WSEQ_AT_HI n]

/-- Those of the device's identity. -/
def identityFields : List Fld := [IdReg.DEVICE_ID 0, IdReg.DEVICE_ID 1, IdReg.DEVICE_ID 2, IdReg.DEVICE_ID 3]

/-- All the others. -/
def reconciledFields : List Fld :=
  [AuthReg.EPOCH_LO, AuthReg.EPOCH_HI, BootReg.MIN_SEQ_LO, BootReg.MIN_SEQ_HI, BootReg.BOOT_COUNT, BootReg.BR_ACK,
    BootReg.KEY_SEQ, BootReg.ACTIVE_SLOT_0, BootReg.ACTIVE_SLOT_1, BootReg.RECORD_POLICY] ++
  allSets.flatMap fun (n : Fin 8) => reconciledOfSet n.val

/-- A field at its reset value reads so where its word is not lost. -/
theorem State.pr_of_unlisted {s : State} {w : Fin 2} {f : Fld}
    (h : s.lostWord (atriumTile w) f.off = false ∧ lookupKey f.key (s.atrium w).regs.cells = none) : s.pr w f = f.reset := by
  unfold State.pr RegFile.rd
  simp [h]

theorem State.reconcileField_of_alike {s : State} {f : Fld} (h : s.pr 0 f = s.pr 1 f) : s.reconcileField f = s := if_pos h

theorem State.reconcilePair_of_alike {s : State} {lo hi : Fld} (hlo : s.pr 0 lo = s.pr 1 lo)
    (hhi : s.pr 0 hi = s.pr 1 hi) (keep : Nat → Nat → Nat) : s.reconcilePair lo hi keep = s :=
  if_pos (by dsimp only; rw [hlo, hhi])

/-- Steps that each leave `s` as it is leave it so together. -/
theorem State.foldl_idle {α : Type} {g : State → α → State} {s : State} (l : List α) (hg : ∀ a ∈ l, g s a = s) :
    l.foldl g s = s := by
  induction l with
  | nil => rfl
  | cons a l ih => rw [List.foldl_cons, hg a (by simp), ih fun b hb => hg b (by simp [hb])]

/-- Copies that read alike are left as they are, whatever stands behind a word that is lost. -/
theorem State.reconcile_of_alike {s : State} (hid : ∀ f ∈ identityFields, s.pr 0 f = s.pr 1 f)
    (hf : ∀ f ∈ reconciledFields, s.pr 0 f = s.pr 1 f)
    (hk : ∀ k ∈ [4, 5, 6, 7, 8, 9, 10, 11], s.keyRecord 0 k = s.keyRecord 4 k) : s.reconcile = s := by
  have hset (n : Fin 8) (f : Fld) (h : f ∈ reconciledOfSet n.val) : s.pr 0 f = s.pr 1 f :=
    hf f (List.mem_append_right _ (List.mem_flatMap.2 ⟨n, by fin_cases n <;> decide, h⟩))
  have hpkg : ∀ l : List Fld, (∀ f ∈ l, f ∈ identityFields ∨ f ∈ reconciledFields) → l.foldl State.reconcileField s = s := fun l hl =>
    State.foldl_idle l fun f h => State.reconcileField_of_alike ((hl f h).elim (hid f) (hf f))
  unfold State.reconcile
  dsimp only
  rw [State.reconcilePair_of_alike (hf _ (by simp [reconciledFields])) (hf _ (by simp [reconciledFields])),
    State.reconcilePair_of_alike (hf _ (by simp [reconciledFields])) (hf _ (by simp [reconciledFields])),
    hpkg _ (by simp [identityFields, reconciledFields]), State.foldl_idle _ fun k h => if_pos (hk k h)]
  refine State.foldl_idle _ fun n _ => ?_
  rw [State.foldl_idle [SetReg.ONLINE_DONE n, SetReg.PRESENT n, SetReg.REPLACING n, SetReg.JSTART n, SetReg.CKPT_SEQ n]
    fun f h => State.reconcileField_of_alike (hset n f (List.mem_append_left [SetReg.WSEQ_AT_LO n, SetReg.WSEQ_AT_HI n] h))]
  exact State.reconcilePair_of_alike (hset n _ (by simp [reconciledOfSet])) (hset n _ (by simp [reconciledOfSet])) _

/-- The unification of the shared fields leaves a persistent one to the reconciliation. -/
theorem State.unify_kept {f : Fld} (hf : ∀ g ∈ sharedFields, g.persist = false → f.key ≠ g.key) (s : State) :
    s.FieldKept f s.unify := by
  refine State.FieldKept.foldl _ fun s g hg => ?_
  split
  · exact fun _ => rfl
  next hp =>
    have hne : f.key ≠ g.key := hf g hg (by simpa using hp)
    have hw (v : Nat) (a : Atrium) : (a.w g v).r f = a.r f := a.regs.rd_wr_ne v hne
    exact (State.onAtrium_kept s 0 (hw _)).trans (State.onAtrium_kept _ 1 (hw _))

/-- Where no set is configured, none has a state. -/
theorem State.refreshSets_of_none {s : State} (h : ∀ n, (s.aset n).cfg.n = 0) : s.refreshSets = s :=
  State.foldl_idle _ fun n _ => if_pos (h n)

/-- Step 3 of a rejoin: the mirrors that can be reached catch up (R447). -/
def State.lagsCopied (s : State) : State :=
  allSets.foldl (fun s (n : Fin 8) => if s.mirrorUp n then s.copyLag n else s) s

/-- A rejoin whose reconciliation finds no difference keeps a persistent field of both copies, where no set is configured. -/
theorem State.rejoinDone_kept {f : Fld} {s : State} (hsets : ∀ n, (s.lagsCopied.aset n).cfg.n = 0)
    (hrec : s.lagsCopied.reconcile = s.lagsCopied)
    (hshared : ∀ g ∈ sharedFields, g.persist = false → f.key ≠ g.key) (hlog : ∀ g ∈ logFields, f.key ≠ g.key)
    (hsplit : f.key ≠ AuthReg.SPLIT.key) (hrejoined : f.key ≠ AuthReg.REJOINED.key) :
    s.lagsCopied.FieldKept f s.rejoinDone := by
  unfold State.rejoinDone
  extract_lets s1 s2 bridge len end_
  have hs2 : s2 = s.lagsCopied := hrec
  have hend (w : Fin 2) (u : State) : u.FieldKept f (end_ w u) := State.onAtrium_kept u w fun a =>
    (RegFile.rd_wr_ne _ 1 hrejoined).trans (RegFile.rd_wr_ne _ 0 hsplit)
  have hlog_aset (u : State) (n : Fin 8) : (u.logPkg 0x0004 bridge len 0).aset n = u.aset n :=
    (State.logPkg_changes (ps := [.tiles, .atria]) (by decide) 4 bridge len 0 (.refl u)).same_aset (by decide) n
  have hend_aset (w : Fin 2) (u : State) (n : Fin 8) : (end_ w u).aset n = u.aset n := rfl
  have hunify_aset (n : Fin 8) : s2.unify.aset n = s2.aset n :=
    (State.unify_changes (ps := [.atria]) (by decide) (.refl s2)).same_aset (by decide) n
  rw [State.refreshSets_of_none fun n => by rw [hlog_aset, hend_aset, hend_aset, hunify_aset, hs2, hsets], ← hs2]
  exact ((State.unify_kept hshared s2).trans ((hend 0 _).trans (hend 1 _))).trans (State.logPkg_kept hlog _ _ _ _ _)

/-- An Atrium copy in a rejoin over bridge 0, with BR_ACK as given. -/
def rejoiningCopy (ack : Nat) : Atrium :=
  { ((Atrium.reset.w IdReg.TILE_EN 255).put AuthReg.SPLIT true).w BootReg.BR_ACK ack with rejoin := some 0 }

/-- A tile out of reset with its bridge up, which has taken a sync flit of the holder. -/
def bridgedTile : Tile :=
  { Tile.reset.w (LinkReg.LSTATE 2) 2 with inReset := false, timeOn := true, lastSync := some 0 }

/-- The wings of a running package rejoin. The west wing alone acknowledged boot records during the split, up to entry 3, and
its word of BR_ACK is uncorrectable. -/
def lostAckState : State := { State.reset with
  tiles := (Vector.replicate 8 bridgedTile).set 0
    { bridgedTile with selv := { bridgedTile.selv with ue := (keptAt 0 0x284).toList } }
  atria := #v[rejoiningCopy 3, rejoiningCopy 0]
  boot := { BootSt.reset with phase := .running } }

/-- The rejoin can finish. -/
theorem lostAckState_rejoins : let u := lostAckState.pass 0
    u.rejoining = true ∧ u.bridges ≠ 0 ∧ (∀ w : Fin 2, u.masterOf w = atriumTile u.mainWing) ∧
      (u.tile (atriumTile (otherWing u.mainWing))).lastSync = some 0 ∧ (u.atrium 0).rejoinAt = 0 ∧
      u.storeRefuses = false ∧ u.rejoinDue = true := by decide +kernel

/-- The device's identity stands at its reset value in both copies. -/
theorem lostAckState_identity : let u := (lostAckState.pass 0).lagsCopied; ∀ f ∈ identityFields, ∀ w : Fin 2,
    u.lostWord (atriumTile w) f.off = false ∧ lookupKey f.key (u.atrium w).regs.cells = none := by decide +kernel

/-- Its copies read alike, BR_ACK among the rest. -/
theorem lostAckState_alike : let u := (lostAckState.pass 0).lagsCopied; u.reconcile = u :=
  State.reconcile_of_alike (fun f hf => (State.pr_of_unlisted (lostAckState_identity f hf 0)).trans
    (State.pr_of_unlisted (lostAckState_identity f hf 1)).symm) (by decide +kernel) (by decide +kernel)

/-- The registers of BR_ACK differ behind what the copies read, and the rejoin keeps them. -/
theorem lostAckState_rejoined : ∃ t, exec (.rejoinComplete 0) lostAckState = .next t ∧
    (t.atrium 0).r BootReg.BR_ACK = 3 ∧ (t.atrium 1).r BootReg.BR_ACK = 0 := by
  obtain ⟨-, -, -, -, -, -, hdue⟩ := lostAckState_rejoins
  have hkept : (lostAckState.pass 0).lagsCopied.FieldKept BootReg.BR_ACK (lostAckState.pass 0).rejoinDone :=
    State.rejoinDone_kept (by decide +kernel) lostAckState_alike (by decide +kernel) (by decide) (by decide) (by decide)
  refine ⟨_, congrArg Host.Outcome.next (if_pos hdue), ?_⟩
  rw [hkept 0, hkept 1]
  decide +kernel

/-- Refutes O53: a rejoin leaves BR_ACK, a shared field that persists, at 3 in the west copy and at 0 in the east one, where the
west copy's word is uncorrectable and both read 0. -/
theorem not_authorityWarp : ¬ Obligations.AuthorityWarp := by
  unfold Obligations.AuthorityWarp
  intro ⟨_, _, _, hrejoin⟩
  obtain ⟨hre, hbridge, hmaster, hsync, hat, hstore, -⟩ := lostAckState_rejoins
  obtain ⟨t, he, -, hsame, -⟩ := hrejoin lostAckState 0 hre hbridge hmaster
    (fun c _ => by rw [hat]; exact Nat.zero_le c) (by rw [hsync]; exact Option.some_ne_none 0)
  obtain ⟨t', he', hwest, heast⟩ := lostAckState_rejoined
  obtain rfl : t = t' := Host.Outcome.next.inj (he.symm.trans he')
  have hack := hsame hstore BootReg.BR_ACK (by decide +kernel) rfl
  rw [hwest, heast] at hack
  exact absurd hack (by decide)

end Sys2Proof.Machine

end

section

namespace Sys2Proof.Machine

/-! ### The counters of package time -/

/-- What `n` cycles of counting make of a counter value and of the slew that is left of it (R36, R38). -/
def counted (n : Nat) (c : Nat × Int) : Nat × Int :=
  (if 0 < c.2 then c.1 + 10 * n + min n c.2.natAbs else c.1 + 10 * n - min n c.2.natAbs,
    if 0 < c.2 then c.2 - min n c.2.natAbs else c.2 + min n c.2.natAbs)

theorem counted_zero (c : Nat × Int) : counted 0 c = c := by
  simp [counted]

theorem counted_up {n : Nat} {c : Nat × Int} (h : (n : Int) ≤ c.2) : counted n c = (c.1 + 11 * n, c.2 - n) := by
  simp only [counted, Nat.min_eq_left (show n ≤ c.2.natAbs by omega)]
  split <;> (congr 1 <;> omega)

theorem counted_down {n : Nat} {c : Nat × Int} (h : c.2 ≤ -(n : Int)) : counted n c = (c.1 + 9 * n, c.2 + n) := by
  simp only [counted, Nat.min_eq_left (show n ≤ c.2.natAbs by omega)]
  split <;> (congr 1 <;> omega)

theorem counted_past {n : Nat} {c : Nat × Int} (h : c.2.natAbs ≤ n) :
    counted n c = ((c.1 + 10 * n + c.2 : Int).toNat, 0) := by
  simp only [counted, Nat.min_eq_right h]
  split <;> (congr 1 <;> omega)

theorem counted_counted (m n : Nat) (c : Nat × Int) : counted n (counted m c) = counted (m + n) c := by
  rcases le_total (m + n) c.2.natAbs with h | h
  · rcases le_total 0 c.2 with hc | hc
    · rw [counted_up (n := m) (by omega), counted_up (n := n) (by simp only; omega), counted_up (by omega)]
      congr 1 <;> simp only <;> omega
    · rw [counted_down (n := m) (by omega), counted_down (n := n) (by simp only; omega), counted_down (by omega)]
      congr 1 <;> simp only <;> omega
  · rw [counted_past h]
    rcases le_total m c.2.natAbs with hm | hm
    · rcases le_total 0 c.2 with hc | hc
      · rw [counted_up (n := m) (by omega), counted_past (by simp only; omega)]
        congr 1; simp only; omega
      · rw [counted_down (n := m) (by omega), counted_past (by simp only; omega)]
        congr 1; simp only; omega
    · rw [counted_past hm, counted_past (by simp)]
      congr 1; simp only; omega

theorem Tile.advance_off {x : Tile} (h : x.timeOn = false) (n : Nat) : x.advance n = x := if_neg (by simp [h])

/-- A tile's counter counts in the cycles that its hold leaves of a wait. -/
theorem Tile.advance_on {x : Tile} (h : x.timeOn = true) (n : Nat) : x.advance n =
    let c := counted (n - x.holdLeft) (x.time16, x.slew)
    { x with time16 := c.1, slew := c.2, holdLeft := x.holdLeft - n } := by
  have hrun : n - min n x.holdLeft = n - x.holdLeft := by omega
  have hhold : x.holdLeft - min n x.holdLeft = x.holdLeft - n := by omega
  unfold Tile.advance counted
  simp only [h, hrun, hhold, if_true]

theorem Tile.advance_advance (m n : Nat) (x : Tile) : (x.advance m).advance n = x.advance (m + n) := by
  cases h : x.timeOn
  case false => simp only [Tile.advance_off h]
  case true =>
    have hhold : x.holdLeft - m - n = x.holdLeft - (m + n) := by omega
    have hrun : m - x.holdLeft + (n - (x.holdLeft - m)) = m + n - x.holdLeft := by omega
    rw [Tile.advance_on (x := x.advance m) (by simpa using h), Tile.advance_on h, Tile.advance_on h]
    simp only [Prod.mk.eta, counted_counted, hhold, hrun]

theorem State.advance_advance (m n : Nat) (s : State) : (s.advance m).advance n = s.advance (m + n) := by
  have ht : ((s.advance m).advance n).tiles = (s.advance (m + n)).tiles := Vector.ext fun i hi => by
    have h : ((s.advance m).advance n).tile ⟨i, hi⟩ = (s.advance (m + n)).tile ⟨i, hi⟩ := by
      simp only [State.advance_tile, Tile.advance_advance]
    exact h
  have hc : s.cycle + m + n = s.cycle + (m + n) := Nat.add_assoc ..
  have hturn : (if n = 0 then (if m = 0 then s.turn else 0) else 0) = if m + n = 0 then s.turn else 0 := by
    by_cases hn : n = 0 <;> by_cases hm : m = 0 <;> simp [hn, hm]
  unfold State.advance at ht ⊢
  rw [State.mk.injEq]
  exact ⟨hc, hturn, rfl, rfl, ht, rfl, rfl, rfl, rfl, rfl, rfl, rfl, rfl, rfl, rfl⟩

/-- Settles O14: the tiles' counters add up, whether they run, slew or are held. -/
theorem timeAddsUp : Obligations.TimeAddsUp := fun s m n => State.advance_advance m n s

/-- Settles O15, from what a wait does to one tile's counter. -/
theorem counterRates : Obligations.CounterRates := by
  unfold Obligations.CounterRates
  intro s n j
  simp only [State.advance_tile, Tile.advance_regs, true_and]
  generalize s.tile j = x
  refine ⟨fun h => Tile.advance_off h n, fun h hh hs => ?_, fun h hh hs => ?_, fun h hh hs => ?_, fun h hn => ?_⟩ <;>
    rw [Tile.advance_on h]
  · simp [hh, hs, counted]
  · simp [hh, counted_up (c := (x.time16, x.slew)) hs]
  · simp [hh, counted_down (c := (x.time16, x.slew)) hs]
  · simp [Nat.sub_eq_zero_of_le hn, counted_zero]

theorem State.holds_mainWing {s : State} {w : Fin 2} (h : s.holds w = true) (ho : s.holds (otherWing w) = false) :
    s.mainWing = w := by
  unfold State.mainWing
  fin_cases w
  · exact if_pos h
  · exact (if_neg (by rw [show s.holds 0 = false from ho]; decide)).trans (if_pos h)

/-- Settles O8. -/
theorem timeMaster : Obligations.TimeMaster := by
  unfold Obligations.TimeMaster
  intro s w holder hh ho
  unfold State.masterOf
  rw [State.holds_mainWing hh ho]
  exact ⟨fun h => by simp [h], fun h hr => by simp [h, hr], fun h hr => by simp [hr]⟩

end Sys2Proof.Machine
end

section

namespace Sys2Proof.Machine

/-! ### Signed numbers in a field -/

/-- A number that fits in `w` bits reads back from its two's complement. -/
theorem signedOf_unsignedOf {w : Nat} {v : Int} (hw : 0 < w) (hlo : -(2 ^ w : Nat) ≤ 2 * v) (hhi : 2 * v < (2 ^ w : Nat)) :
    signedOf w (unsignedOf w v) = v := by
  have hhalf : 2 ^ w = 2 * 2 ^ (w - 1) := by
    rw [← pow_succ', Nat.sub_add_cancel hw]
  unfold signedOf unsignedOf
  generalize 2 ^ w = m at *
  generalize 2 ^ (w - 1) = k at *
  have hm : (m : Int) ≠ 0 := by omega
  rw [Nat.mod_eq_of_lt ((Int.toNat_lt (Int.emod_nonneg _ hm)).2 (Int.emod_lt_of_pos _ (by omega)))]
  dsimp only
  rw [Int.toNat_of_nonneg (Int.emod_nonneg _ hm)]
  rcases le_or_gt 0 v with hv | hv
  · rw [Int.emod_eq_of_lt hv (by omega), if_pos (by omega)]
  · rw [← Int.add_emod_right, Int.emod_eq_of_lt (by omega) (by omega), if_neg (by omega)]
    omega

/-- What a field of `w` bits holds as a signed number fits in it. -/
theorem signedOf_fits {w : Nat} (hw : 0 < w) (n : Nat) :
    -(2 ^ w : Nat) ≤ 2 * signedOf w n ∧ 2 * signedOf w n < (2 ^ w : Nat) := by
  have hhalf : 2 ^ w = 2 * 2 ^ (w - 1) := by
    rw [← pow_succ', Nat.sub_add_cancel hw]
  have hlt : n % 2 ^ w < 2 ^ w := Nat.mod_lt _ (Nat.two_pow_pos w)
  unfold signedOf
  dsimp only
  generalize n % 2 ^ w = r at *
  split <;> omega

/-- A number that fits in a field reads as it was written. -/
theorem RegFile.rdS_wrS_of_fits (rf : RegFile) {f : Fld} {v : Int} (hw : 0 < f.width) (hlo : -(2 ^ f.width : Nat) ≤ 2 * v)
    (hhi : 2 * v < (2 ^ f.width : Nat)) : (rf.wrS f v).rdS f = v := by
  have hlt : unsignedOf f.width v < 2 ^ f.width :=
    (Int.toNat_lt (Int.emod_nonneg _ (by have := Nat.two_pow_pos f.width; omega))).2
      (Int.emod_lt_of_pos _ (by have := Nat.two_pow_pos f.width; omega))
  rw [RegFile.rdS, RegFile.wrS_def, RegFile.rd_wr_self, Nat.mod_eq_of_lt hlt, signedOf_unsignedOf hw hlo hhi]

/-! ### A tile's fields under writes -/

theorem Tile.b_put (x : Tile) {f : Fld} (c : Bool) (h : f.width = 1) : (x.put f c).b f = c := by
  rw [Tile.b_def, Tile.put_def, Tile.w_regs, RegFile.rd_wr_self, h]
  cases c <;> rfl

theorem Tile.b_flag (x : Tile) {f : Fld} (h : f.width = 1) : (x.flag f).b f = true := Tile.b_put x true h

theorem Tile.b_of {x y : Tile} {f : Fld} (h : y.r f = x.r f) : y.b f = x.b f := congrArg (· != 0) h

theorem Tile.ri_of {x y : Tile} {f : Fld} (h : y.r f = x.r f) : y.ri f = x.ri f := congrArg (signedOf f.width) h

theorem Tile.r_w_ne (x : Tile) {f g : Fld} (v : Nat) (h : f.key ≠ g.key) : (x.w g v).r f = x.r f := RegFile.rd_wr_ne _ _ h

/-! ### A sync flit -/

/-- A tile in which a sync flit with offset `e` is noted (R38, R40, R43). -/
def Tile.syncNoted (cyc : Nat) (e : Int) (x : Tile) : Tile :=
  { (x.wi TimeReg.LAST_E (clampInt (-32768) 32767 e)).put TimeReg.TIME_VALID true with lastSync := some cyc }

section

variable {cyc at16 : Nat} {e : Int} {x : Tile} (he : e = (at16 : Int) - x.time16)
include he

theorem Tile.takeSync_first (h : x.timeOn = false) :
    x.takeSync cyc at16 = { x.syncNoted cyc e with time16 := at16, timeOn := true } := by
  unfold Tile.takeSync
  simp [Tile.syncNoted, he, h]

theorem Tile.takeSync_step (h : x.timeOn = true) (h1 : 1024 < e) :
    x.takeSync cyc at16 = { (x.syncNoted cyc e).flag TimeReg.TIME_STEP with time16 := at16, slew := 0, holdLeft := 0 } := by
  unfold Tile.takeSync
  simp only [← he, Tile.syncNoted]
  rw [if_neg (by simp [h]), if_pos h1]

theorem Tile.takeSync_hold (h : x.timeOn = true) (h1 : e ≤ 1024) (h2 : e < -1024 ∨ (x.holdLeft ≠ 0 ∧ e < -16)) :
    x.takeSync cyc at16 =
      { (x.syncNoted cyc e).flag TimeReg.TIME_HOLD with slew := 0, holdLeft := ((-16 - e + 9) / 10).toNat } := by
  unfold Tile.takeSync
  simp only [← he, Tile.syncNoted]
  rw [if_neg (by simp [h]), if_neg (by omega), if_pos (by simpa using h2)]

theorem Tile.takeSync_near (h : x.timeOn = true) (h1 : -16 ≤ e) (h2 : e ≤ 16) :
    x.takeSync cyc at16 = { x.syncNoted cyc e with holdLeft := 0 } := by
  unfold Tile.takeSync
  simp only [← he, Tile.syncNoted]
  rw [if_neg (by simp [h]), if_neg (by omega), if_neg (by simp; omega), if_pos ⟨h1, h2⟩]

theorem Tile.takeSync_slew (h : x.timeOn = true) (h1 : e ≤ 1024) (h2 : ¬ (e < -1024 ∨ (x.holdLeft ≠ 0 ∧ e < -16)))
    (h3 : e < -16 ∨ 16 < e) : x.takeSync cyc at16 = { x.syncNoted cyc e with slew := e, holdLeft := 0 } := by
  unfold Tile.takeSync
  simp only [← he, Tile.syncNoted]
  rw [if_neg (by simp [h]), if_neg (by omega), if_neg (by simpa using h2), if_neg (by omega)]

/-- Whatever its offset, a sync flit is noted in the tile, and its counter counts. -/
theorem Tile.takeSync_noted : ∃ g ∈ [[], [TimeReg.TIME_STEP], [TimeReg.TIME_HOLD]], ∃ t sl hl,
    x.takeSync cyc at16 = { g.foldl Tile.flag (x.syncNoted cyc e) with
      time16 := t, timeOn := true, slew := sl, holdLeft := hl } := by
  cases h : x.timeOn
  case false => exact ⟨[], by simp, _, _, _, Tile.takeSync_first he h⟩
  case true =>
    by_cases h1 : 1024 < e
    · exact ⟨[TimeReg.TIME_STEP], by simp, _, _, _, (Tile.takeSync_step he h h1).trans (by rw [← h]; rfl)⟩
    by_cases h2 : e < -1024 ∨ (x.holdLeft ≠ 0 ∧ e < -16)
    · exact ⟨[TimeReg.TIME_HOLD], by simp, _, _, _, (Tile.takeSync_hold he h (by omega) h2).trans (by rw [← h]; rfl)⟩
    by_cases h3 : e < -16 ∨ 16 < e
    · exact ⟨[], by simp, _, _, _, (Tile.takeSync_slew he h (by omega) h2 h3).trans (by rw [← h]; rfl)⟩
    · exact ⟨[], by simp, _, _, _, (Tile.takeSync_near he h (by omega) (by omega)).trans (by rw [← h]; rfl)⟩

end

theorem Tile.applySync_eq (cyc at16 : Nat) (x : Tile) :
    ∃ p, x.applySync cyc at16 = { x.takeSync cyc at16 with paces := p } := by
  unfold Tile.applySync
  dsimp only
  split
  · exact ⟨_, rfl⟩
  · exact ⟨_, rfl⟩

/-- What a sync flit may write of a tile's fields. -/
def syncFields : List Fld := [TimeReg.LAST_E, TimeReg.TIME_VALID, TimeReg.TIME_STEP, TimeReg.TIME_HOLD]

theorem Tile.takeSync_keeps {cyc at16 : Nat} {x : Tile} : x.KeepsFields (x.takeSync cyc at16) syncFields := by
  intro f _ hn
  obtain ⟨g, hg, t, sl, hl, h⟩ := Tile.takeSync_noted (cyc := cyc) (x := x) (at16 := at16) rfl
  have hnoted (c : Int) : (x.syncNoted cyc c).r f = x.r f :=
    (Tile.r_w_ne _ 1 (hn _ (by simp [syncFields]))).trans (Tile.r_w_ne _ _ (hn _ (by simp [syncFields])))
  rw [h]
  show (g.foldl Tile.flag _).r f = _
  simp only [List.mem_cons, List.not_mem_nil, or_false] at hg
  rcases hg with rfl | rfl | rfl
  · exact hnoted _
  · exact (Tile.r_w_ne _ 1 (hn _ (by simp [syncFields]))).trans (hnoted _)
  · exact (Tile.r_w_ne _ 1 (hn _ (by simp [syncFields]))).trans (hnoted _)

theorem Tile.takeSync_valid {cyc at16 : Nat} {x : Tile} : let y := x.takeSync cyc at16
    y.timeOn = true ∧ y.lastSync = some cyc ∧ y.syncIn = x.syncIn ∧ y.b TimeReg.TIME_VALID = true ∧
      y.ri TimeReg.LAST_E = max (-32768) (min 32767 ((at16 : Int) - x.time16)) := by
  obtain ⟨g, hg, t, sl, hl, h⟩ := Tile.takeSync_noted (cyc := cyc) (x := x) (at16 := at16) rfl
  have hv (c : Int) : (x.syncNoted cyc c).b TimeReg.TIME_VALID = true := Tile.b_put _ true rfl
  have he (c : Int) : (x.syncNoted cyc c).ri TimeReg.LAST_E = clampInt (-32768) 32767 c :=
    (Tile.ri_of (Tile.r_w_ne _ 1 (by decide))).trans (RegFile.rdS_wrS_of_fits _ (by decide)
      (by simp only [clampInt, TimeReg.LAST_E]; omega) (by simp only [clampInt, TimeReg.LAST_E]; omega))
  have hflag (c : Int) {f k : Fld} (hf : k.key ≠ f.key) : ((x.syncNoted cyc c).flag f).r k = (x.syncNoted cyc c).r k :=
    Tile.r_w_ne _ 1 hf
  simp only [List.mem_cons, List.not_mem_nil, or_false] at hg
  rw [h]
  rcases hg with rfl | rfl | rfl
  · exact ⟨rfl, rfl, rfl, hv _, he _⟩
  · exact ⟨rfl, rfl, rfl, (Tile.b_of (hflag _ (by decide))).trans (hv _), (Tile.ri_of (hflag _ (by decide))).trans (he _)⟩
  · exact ⟨rfl, rfl, rfl, (Tile.b_of (hflag _ (by decide))).trans (hv _), (Tile.ri_of (hflag _ (by decide))).trans (he _)⟩

theorem State.syncReceive_cons {s : State} {t : Fin 8} {sent ring bridge : Nat} {l : List (Nat × Nat × Nat)}
    (h : (s.tile t).syncIn = (sent, ring, bridge) :: l) : s.syncReceive t =
      if s.masterOf (wingOf t) = t ∨ s.asleep t = true then s.setTile t { s.tile t with syncIn := l }
      else s.setTile t (({ s.tile t with syncIn := l } : Tile).applySync s.cycle (sent + syncLatency ring bridge)) := by
  have hm : (s.setTile t { s.tile t with syncIn := l }).masterOf (wingOf t) = s.masterOf (wingOf t) := rfl
  have ha : (s.setTile t { s.tile t with syncIn := l }).asleep t = s.asleep t := by
    unfold State.asleep
    rw [State.setTile_tile, State.setTile_boot]
  unfold State.syncReceive
  rw [h]
  simp only [State.onTile_def, hm, ha, State.setTile_tile, State.setTile_setTile, State.setTile_cycle]

/-- Settles O16, by the size of the flit's offset. -/
theorem syncFlitArrives : Obligations.SyncFlitArrives := by
  unfold Obligations.SyncFlitArrives
  intro s wait t sent ring bridge l
  extract_lets u x at16 e
  intro hin
  have hrun : exec (.syncFlitReceive wait t) s = .next (u.syncReceive t) := by
    show execSyncFlitReceive wait t s = _
    unfold execSyncFlitReceive
    exact State.after_due _ (by rw [show ((s.pass wait).tile t).syncIn = _ from hin]; rfl)
  rw [State.syncReceive_cons hin] at hrun
  refine ⟨fun h => by rw [hrun, if_pos h], fun hm ha => ⟨_, by rw [hrun, if_neg (by simp [hm, ha])], ?_⟩⟩
  set x' : Tile := { u.tile t with syncIn := l } with hx'
  obtain ⟨p, hp⟩ := Tile.applySync_eq u.cycle at16 x'
  obtain ⟨hon, hlast, hsyn, hval, hle⟩ := Tile.takeSync_valid (cyc := u.cycle) (at16 := at16) (x := x')
  have he : e = (at16 : Int) - x'.time16 := rfl
  rw [show sent + syncLatency ring bridge = at16 from rfl, hp]
  refine ⟨hsyn, hlast, hon, hval, hle, fun h => ?_, fun h h1 => ?_, fun h h1 => ?_, fun h h0 h1 h2 h3 => ?_,
    fun h h1 h2 => ?_, fun f hf hn => Tile.takeSync_keeps f hf hn⟩
  · rw [Tile.takeSync_first he h]
  · rw [Tile.takeSync_step he h h1]
    exact ⟨rfl, Tile.b_flag _ rfl⟩
  · rw [Tile.takeSync_hold he h (by omega) (.inl h1)]
    refine ⟨rfl, Tile.b_flag _ rfl, List.mem_map.2 ⟨(e + 16 + 10 * ((-16 - e + 9) / 10).toNat).toNat, ?_, ?_⟩⟩
    · simp only [List.mem_range]; omega
    · simp only [Int.ofNat_eq_natCast]; omega
  · have h0' : x'.holdLeft = 0 := h0
    rw [Tile.takeSync_slew he h h2 (by omega) h3]
    exact ⟨rfl, rfl, rfl⟩
  · rw [Tile.takeSync_near he h h1 h2]
    exact ⟨rfl, rfl, rfl⟩

end Sys2Proof.Machine

end

section

namespace Sys2Proof.Machine

/-! ### Sync flits leave -/

/-- A packet leaves every tile's own part but the sender's, and of the sender's the counters of its routes, its links and
its count of flits alone. -/
theorem State.sendPacket_tile (s : State) (a b : Fin 8) (v : Fin 4) (n : Nat) (j : Fin 8) :
    ∃ rf ls m, (s.sendPacket a b v n).tile j = { s.tile j with regs := rf, links := ls, flitCount := m } ∧
      (j ≠ a → rf = (s.tile j).regs) ∧
      ∀ f : Fld, (∀ k : Fin 3, f.key ≠ (LinkReg.ROUTE_FAIL k).key ∧ f.key ≠ (LinkReg.REROUTED k).key) →
        rf.rd f = (s.tile j).regs.rd f := by
  obtain ⟨rf, ls, m, h, hf⟩ := s.sendPacket_cases a b v n
  rw [h]
  by_cases hj : j = a
  · subst hj
    exact ⟨rf, ls, m, State.onTile_tile .., fun hne => absurd rfl hne, hf⟩
  · exact ⟨_, _, _, State.setTile_tile_ne _ _ _ _ hj, fun _ => rfl, fun _ _ => rfl⟩

/-- One sync flit of master `m` leaves for tile `t` (R37). -/
def State.syncFlitTo (m : Fin 8) (sent : Nat) (s : State) (t : Fin 8) : State :=
  match s.route m t with
  | none => s
  | some (p, _) =>
    let hp := hops m p
    (s.sendPacket m t vcTime 1).onTile t fun x => { x with syncIn := x.syncIn ++ [(sent, hp.1, hp.2)] }

/-- What is on its way to tile `t` with it. -/
def State.flitTo (s : State) (m : Fin 8) (sent : Nat) (t : Fin 8) : List (Nat × Nat × Nat) :=
  match s.route m t with
  | none => []
  | some p => [(sent, (hops m p.1).1, (hops m p.1).2)]

section

variable {m t : Fin 8} {sent : Nat} {s : State}

/-- Of a tile, a sync flit changes its list of those on their way, and of the master's the counters of its routes, its links
and its count of flits. -/
theorem State.syncFlitTo_tile (ht : t ≠ m) (j : Fin 8) :
    ∃ rf ls n, (s.syncFlitTo m sent t).tile j = { s.tile j with
        regs := rf, links := ls, flitCount := n
        syncIn := (s.tile j).syncIn ++ if j = t then s.flitTo m sent t else [] } ∧
      (j ≠ m → rf = (s.tile j).regs) ∧
      ∀ f : Fld, (∀ k : Fin 3, f.key ≠ (LinkReg.ROUTE_FAIL k).key ∧ f.key ≠ (LinkReg.REROUTED k).key) →
        rf.rd f = (s.tile j).regs.rd f := by
  unfold State.syncFlitTo State.flitTo
  cases s.route m t with
  | none => exact ⟨(s.tile j).regs, (s.tile j).links, (s.tile j).flitCount, by simp, fun _ => rfl, fun _ _ => rfl⟩
  | some q =>
    obtain ⟨rf, ls, n, h, hr, hf⟩ := s.sendPacket_tile m t vcTime 1 j
    refine ⟨rf, ls, n, ?_, hr, hf⟩
    by_cases hj : j = t
    · subst hj
      simp only [State.onTile_tile, h, if_true]
    · simp only [State.onTile_def, State.setTile_tile_ne _ _ _ _ hj, h, hj, if_false, List.append_nil]

theorem State.syncFlitTo_changes : s.ChangesOnly [.tiles] (s.syncFlitTo m sent t) := by
  unfold State.syncFlitTo
  split
  · exact .refl s
  · exact State.onTile_changes (by decide) _ _ (State.sendPacket_changes (by decide) _ _ _ _ (.refl s))

/-- No route is asked anew after a sync flit. -/
theorem State.alike_syncFlitTo (ht : t ≠ m) : s.Alike (s.syncFlitTo m sent t) := by
  have hc := State.syncFlitTo_changes (s := s) (m := m) (sent := sent) (t := t)
  refine ⟨hc.atria (by decide), hc.heads (by decide), hc.boot (by decide), fun j => ?_, fun j => ?_, fun j k => ?_⟩ <;>
    obtain ⟨rf, ls, n, h, -, hf⟩ := State.syncFlitTo_tile (s := s) (sent := sent) ht j <;> rw [h]
  exact hf _ fun i => by simp only [Fld.key, LinkReg.LSTATE, LinkReg.ROUTE_FAIL, LinkReg.REROUTED]; omega

end

/-- The flits that leave together: one for each tile of the list. -/
theorem State.syncFlits_tile {m : Fin 8} {sent : Nat} (l : List (Fin 8)) (hm : m ∉ l) (hl : l.Nodup) (s : State) (j : Fin 8) :
    let t := l.foldl (State.syncFlitTo m sent) s
    (t.tile j).syncIn = (s.tile j).syncIn ++ (if j ∈ l then s.flitTo m sent j else []) ∧
      (j ≠ m → (t.tile j).regs = (s.tile j).regs) ∧
      ∀ f : Fld, (∀ k : Fin 3, f.key ≠ (LinkReg.ROUTE_FAIL k).key ∧ f.key ≠ (LinkReg.REROUTED k).key) →
        (t.tile j).r f = (s.tile j).r f := by
  induction l generalizing s with
  | nil => simp
  | cons a l ih =>
    simp only [List.mem_cons, not_or] at hm
    obtain ⟨hal, hl⟩ := List.nodup_cons.1 hl
    obtain ⟨hin, hregs, hrd⟩ := ih hm.2 hl (s.syncFlitTo m sent a)
    obtain ⟨rf, ls, n, h, hr, hf⟩ := State.syncFlitTo_tile (s := s) (sent := sent) (Ne.symm hm.1) j
    have hroute : (s.syncFlitTo m sent a).flitTo m sent j = s.flitTo m sent j := by
      unfold State.flitTo
      rw [(State.alike_syncFlitTo (Ne.symm hm.1)).route]
    rw [h] at hin hregs hrd
    refine ⟨?_, fun hj => (hregs hj).trans (hr hj), fun f hk => (hrd f hk).trans (hf f hk)⟩
    rw [List.foldl_cons, hin, hroute]
    by_cases hj : j = a
    · subst hj
      simp [hal]
    · simp [hj]

theorem State.syncFlits_changes {m : Fin 8} {sent : Nat} (l : List (Fin 8)) (s : State) :
    s.ChangesOnly [.tiles] (l.foldl (State.syncFlitTo m sent) s) :=
  State.ChangesOnly.foldl (.refl s) fun _ _ h => h.trans State.syncFlitTo_changes

theorem State.syncSend_eq (w : Fin 2) (s : State) : s.syncSend w =
    let m := atriumTile w
    let u := (s.syncTiles w m).foldl (State.syncFlitTo m (s.t16 m)) s
    (u.onTile m fun x => { x with syncFrom := u.cycle }).onAtrium w fun a => { a with lastSync := some u.cycle } := rfl

/-- What SYNC_FLIT_SEND leaves (R37). -/
theorem State.syncSend_leaves (w : Fin 2) (u : State) : let m := atriumTile w; let t := u.syncSend w
    (t.atrium w).lastSync = some u.cycle ∧
      (∀ j, (t.tile j).syncIn = (u.tile j).syncIn ++ if j ∈ u.syncTiles w m then u.flitTo m (u.t16 m) j else []) ∧
      (∀ j, j ≠ m → (t.tile j).regs = (u.tile j).regs) ∧
      (u.tile m).KeepsFields (t.tile m) ([0, 1, 2].flatMap fun k => [LinkReg.REROUTED k, LinkReg.ROUTE_FAIL k]) := by
  extract_lets m t
  have hm : m ∉ u.syncTiles w m := by simp [State.syncTiles]
  have hl : (u.syncTiles w m).Nodup := List.Nodup.filter _ (by decide)
  set v := (u.syncTiles w m).foldl (State.syncFlitTo m (u.t16 m)) u with hv
  have hcyc : v.cycle = u.cycle := ((State.syncFlits_changes _ u).time (by decide)).1
  have ht : t = (v.onTile m fun x => { x with syncFrom := v.cycle }).onAtrium w fun a =>
      { a with lastSync := some v.cycle } := rfl
  have htile (j : Fin 8) : (t.tile j).syncIn = (v.tile j).syncIn ∧ (t.tile j).regs = (v.tile j).regs := by
    rw [ht, State.onAtrium_tile]
    by_cases hj : j = m
    · rw [hj, State.onTile_tile]
      exact ⟨rfl, rfl⟩
    · rw [State.onTile_def, State.setTile_tile_ne _ _ _ _ hj]
      exact ⟨rfl, rfl⟩
  have h (j : Fin 8) := State.syncFlits_tile (sent := u.t16 m) _ hm hl u j
  refine ⟨?_, fun j => (htile j).1.trans (h j).1, fun j hj => (htile j).2.trans ((h j).2.1 hj), fun f _ hn => ?_⟩
  · rw [ht, State.onAtrium_atrium]
    exact congrArg some hcyc
  · have hk : ∀ k : Fin 3, f.key ≠ (LinkReg.ROUTE_FAIL k).key ∧ f.key ≠ (LinkReg.REROUTED k).key := fun k =>
      ⟨hn _ (by revert k; decide), hn _ (by revert k; decide)⟩
    exact (congrArg (RegFile.rd · f) (htile m).2).trans ((h m).2.2 f hk)

/-- Settles O17: each command by the state that its wait leaves. -/
theorem syncFlitsLeave : Obligations.SyncFlitsLeave := by
  unfold Obligations.SyncFlitsLeave
  intro s wait u
  refine ⟨fun w => ?_, fun t hm hen hsl hb hfrom hlast => ?_, fun t => ?_, fun t => ?_⟩
  · extract_lets m
    intro hmaster hon hawake hlast
    have hdue : u.syncDue w = true := by
      simp only [State.syncDue, hmaster, m, hon, hawake]
      cases h : (u.atrium w).lastSync with
      | none => simp
      | some c =>
        have hc : c + cyclesPerUs ≤ u.cycle := hlast c h
        simp [State.since, hc]
    obtain ⟨h1, h2, h3, h4⟩ := State.syncSend_leaves w u
    refine State.after_completes (act := State.syncSend w) hdue ⟨h1, fun j => (h2 j).trans ?_, h3, h4, ?_⟩
    · unfold State.flitTo
      congr 1
      cases u.route m j with
      | none => exact ite_self _
      | some p => rfl
    · exact State.syncSend_changes (by decide) w (State.pass_changes (by decide) wait (.refl s))
  · have hsince : (u.tile t).syncSince + 8 * cyclesPerUs ≤ u.cycle := by
      unfold Tile.syncSince
      cases h : (u.tile t).lastSync with
      | none => exact hfrom
      | some c => exact (Nat.add_max_add_right c _ _).symm.trans_le (max_le (hlast c h) hfrom)
    have hlate : u.syncLate t = true := by
      simp only [List.mem_cons, List.not_mem_nil, or_false, not_or] at hb
      unfold State.syncLate State.since BootSt.beforeTiles
      simp [hm, hen, hsl, hb, hsince]
    show execSyncLost wait t s = _
    unfold execSyncLost
    exact State.after_due _ hlate
  · intro n hon hhold
    have hc : counted n ((s.tile t).time16, (s.tile t).slew) = (_, 0) := counted_past (Nat.le_refl _)
    simp only [State.advance_tile, Tile.advance_on hon, hhold, Nat.sub_zero, hc]
    exact ⟨rfl, trivial, by omega⟩
  · intro n hon
    have hn : n - (s.tile t).holdLeft = 0 := Nat.sub_self _
    simp only [State.advance_tile, Tile.advance_on hon, hn, counted_zero]
    exact ⟨rfl, Nat.sub_self _, trivial⟩

end Sys2Proof.Machine

end

section

namespace Sys2Proof.Machine

/-! ### What a read of a memory with errors leaves of the tiles

Its errors are counted and captured in the protection registers of the memory's tile, and logged in the Selvedge store of some
tile (R378, R380, R452). -/

/-- The keys of the protection registers (R382). -/
def protKeys : List (Nat × Nat) := [(0x100000 * 32, 0x100300 * 32)]

/-- `y` is `x` but for what a memory's errors and the event log change. -/
structure Tile.Noted (x y : Tile) : Prop where
  time16 : y.time16 = x.time16
  paces : y.paces = x.paces
  field : ∀ f : Fld, outKeys protKeys f.key = true → y.r f = x.r f

/-- Every tile is as before but for that. -/
def State.TilesNoted (s t : State) : Prop := ∀ j, (s.tile j).Noted (t.tile j)

theorem Tile.Noted.refl (x : Tile) : x.Noted x := ⟨rfl, rfl, fun _ _ => rfl⟩

theorem Tile.Noted.trans {x y z : Tile} (h : x.Noted y) (k : y.Noted z) : x.Noted z :=
  ⟨k.time16.trans h.time16, k.paces.trans h.paces, fun f hf => (k.field f hf).trans (h.field f hf)⟩

theorem State.TilesNoted.refl (s : State) : s.TilesNoted s := fun _ => .refl _

theorem State.TilesNoted.trans {s t u : State} (h : s.TilesNoted t) (k : t.TilesNoted u) : s.TilesNoted u :=
  fun j => (h j).trans (k j)

theorem State.TilesNoted.foldl {α : Type} {f : State → α → State} (l : List α) (hf : ∀ (s : State) a, s.TilesNoted (f s a))
    (s : State) :
    s.TilesNoted (l.foldl f s) := by
  induction l generalizing s with
  | nil => exact .refl s
  | cons a l ih => exact (hf s a).trans (ih _)

theorem State.onTile_noted (s : State) (t : Fin 8) {f : Tile → Tile} (hf : ∀ x : Tile, x.Noted (f x)) :
    s.TilesNoted (s.onTile t f) := by
  intro j
  by_cases hj : j = t
  · subst hj
    rw [State.onTile_tile]
    exact hf _
  · rw [State.onTile_def, State.setTile_tile_ne _ _ _ _ hj]
    exact .refl _

theorem State.onPkg_noted (s : State) (w : Fin 2) (f : RegFile → RegFile) : s.TilesNoted (s.onPkg w f) := by
  unfold State.onPkg
  split
  · exact fun _ => .refl _
  · exact fun _ => .refl _

/-! ### The event log -/

theorem State.noteWear_noted (s : State) (t : Fin 8) (w : Nat) : s.TilesNoted (s.noteWear t w) := by
  unfold State.noteWear State.refreshWear State.pset
  dsimp only
  split
  · split
    · exact (State.onPkg_noted _ _ _).trans (State.onPkg_noted _ _ _)
    · exact .refl s
  · exact .refl s

theorem State.selvWrite_noted (s : State) (t : Fin 8) (w : Nat) (v : DWord) : s.TilesNoted (s.selvWrite t w v) := by
  unfold State.selvWrite
  split
  · exact State.onPkg_noted _ _ _
  · have hwrite : s.TilesNoted (s.onTile t fun x => { x with selv := x.selv.write w v }) :=
      State.onTile_noted s t fun x => ⟨rfl, rfl, fun _ _ => rfl⟩
    exact hwrite.trans (State.noteWear_noted _ _ _)

theorem State.selvWrites_noted (t : Fin 8) (l : List DWord) (s : State) (w : Nat) : s.TilesNoted (s.selvWrites t w l) := by
  induction l generalizing s w with
  | nil => exact .refl s
  | cons v l ih => exact (State.selvWrite_noted s t w v).trans (ih _ _)

theorem State.writeRecord_noted (s : State) (l : Fin 8) (r : LogRec) : s.TilesNoted (s.writeRecord l r) := by
  unfold State.writeRecord
  extract_lets wing seq lg window merges rep w ws s1 s2 s3
  split
  · exact (State.onPkg_noted _ _ _).trans (State.onPkg_noted _ _ _)
  split
  · split
    · exact .refl s
    · exact (State.selvWrite_noted _ _ _ _).trans (State.onTile_noted _ l fun x => ⟨rfl, rfl, fun _ _ => rfl⟩)
  · have hwords : s.TilesNoted s1 := (State.selvWrite_noted s l w 0).trans (State.selvWrites_noted l _ _ _)
    have hheader : s1.TilesNoted s2 := State.selvWrite_noted s1 l w _
    have hlogger : s2.TilesNoted s3 := State.onTile_noted s2 l fun x => ⟨rfl, rfl, fun _ _ => rfl⟩
    exact ((hwords.trans hheader).trans hlogger).trans (State.onPkg_noted _ _ _)

theorem State.log_noted (s : State) (t : Fin 8) (code unit arg0 arg1 : Nat) : s.TilesNoted (s.log t code unit arg0 arg1) := by
  unfold State.log State.logIn
  split
  · exact State.writeRecord_noted _ _ _
  · exact State.onTile_noted _ _ fun x => ⟨rfl, rfl, fun _ _ => rfl⟩

/-! ### Errors of a memory -/

theorem Tile.noted_w (x : Tile) {g : Fld} (v : Nat) (hg : inKeys protKeys g.key = true) : x.Noted (x.w g v) :=
  ⟨rfl, rfl, fun _ hf => Tile.r_w_ne x v (out_ne hf hg)⟩

theorem Tile.noted_leak (n : Nat) (x : Tile) : x.Noted (x.leak n) :=
  ((Tile.noted_w x _ (by decide)).trans (Tile.noted_w _ _ (by decide))).trans (Tile.noted_w _ _ (by decide))

theorem Tile.noted_settleLeak (x : Tile) : x.Noted x.settleLeak := by
  unfold Tile.settleLeak
  split
  · have hms (y : Tile) : y.Noted { y with leakMs := x.leakNow } := ⟨rfl, rfl, fun _ _ => rfl⟩
    exact (Tile.noted_leak _ x).trans (hms _)
  · exact .refl x

/-- A correctable error is counted in its bucket, and in the entry of its address. -/
theorem Tile.noted_noteCe (k : MemKind) (addr : Nat) (x : Tile) : x.Noted (x.noteCe k addr) := by
  have hbucket : inKeys protKeys k.bucket.key = true := by cases k <;> decide
  have hovf : inKeys protKeys k.ovf.key = true := by cases k <;> decide
  have hcount : inKeys protKeys (ProtReg.CE_COUNT k.code).key = true := by cases k <;> decide
  have hentry (F : Nat → Fld) (hF : ∀ i : Fin 16, inKeys protKeys (F i).key = true) {p : Nat → Bool} {i : Nat}
      (hi : (List.range 16).find? p = some i) : inKeys protKeys (F i).key = true :=
    hF ⟨i, List.mem_range.1 (List.mem_of_find?_eq_some hi)⟩
  unfold Tile.noteCe
  extract_lets y b z
  have hy : x.Noted y := (Tile.noted_settleLeak x).trans (Tile.noted_w _ _ hcount)
  have hz : x.Noted z := by
    unfold z
    split
    · exact (hy.trans (Tile.noted_w _ 1 hovf)).trans (Tile.noted_w _ _ hbucket)
    · exact hy.trans (Tile.noted_w _ _ hbucket)
  split
  next i hi => exact hz.trans (Tile.noted_w _ _ (hentry ProtReg.COUNT (by decide) hi))
  · split
    · exact hz.trans (Tile.noted_w _ _ (by decide))
    next i hi =>
      exact (((((((hz.trans (Tile.noted_w _ _ (hentry ProtReg.ADDR_LO (by decide) hi))).trans
        (Tile.noted_w _ _ (hentry ProtReg.ADDR_HI (by decide) hi))).trans
        (Tile.noted_w _ _ (hentry ProtReg.KIND (by decide) hi))).trans
        (Tile.noted_w _ _ (hentry ProtReg.COUNT (by decide) hi))).trans
        (Tile.noted_w _ _ (hentry ProtReg.LOC (by decide) hi))).trans
        (Tile.noted_w _ _ (hentry ProtReg.T_FIRST (by decide) hi))).trans (Tile.noted_w _ _ (by decide)))

/-- An uncorrectable error is counted, captured and logged. -/
theorem State.noteUe_noted (t : Fin 8) (k : MemKind) (addr : Nat) (src : UeSrc) (s : State) :
    s.TilesNoted (s.noteUe t k addr src) := by
  unfold State.noteUe
  extract_lets x s1 s2
  have h1 : s.TilesNoted s1 := State.onTile_noted s t fun x => Tile.noted_w x _ (by decide)
  have h2 : s.TilesNoted s2 := by
    unfold s2
    split
    · exact h1
    · exact h1.trans (State.onTile_noted _ t fun x =>
        ((((Tile.noted_w x _ (by decide)).trans (Tile.noted_w _ _ (by decide))).trans (Tile.noted_w _ _ (by decide))).trans
          (Tile.noted_w _ _ (by decide))).trans (Tile.noted_w _ _ (by decide)))
  exact h2.trans (State.log_noted _ _ _ _ _ _)

theorem State.noteSram_noted (t : Fin 8) (m : Mem) (a n : Nat) (addr : Nat → Nat) (src : UeSrc) (s : State) :
    s.TilesNoted (s.noteSram t m a n addr src) := by
  unfold State.noteSram
  split
  · exact State.noteUe_noted _ _ _ _ _
  · exact .foldl _ (fun u w => State.onTile_noted u t fun x => Tile.noted_noteCe _ _ x) s

/-! ### A head's schedule is read -/

theorem State.noteSched_noted (h : Fin 32) (a n : Nat) (s : State) : s.TilesNoted (s.noteSched h a n) :=
  fun j => State.noteSram_noted _ _ _ _ _ _ s j

theorem State.readSched_noted (h : Fin 32) (n : Nat) (s : State) : s.TilesNoted (s.readSched h n) := by
  unfold State.readSched
  extract_lets x
  split
  split
  · exact State.noteSched_noted _ _ _ _
  · exact (State.noteSched_noted _ _ _ _).trans (State.noteSched_noted _ _ _ _)

theorem State.noteEntries_noted (h : Fin 32) (s : State) : s.TilesNoted (s.noteEntries h) :=
  .foldl _ (fun u _ => State.noteSched_noted h _ 8 u) s

/-- A head's instant is as before where its tile's counter and the cycle are. -/
theorem State.TilesNoted.ctx {s t : State} (h : s.TilesNoted t) (hc : t.cycle = s.cycle) (j : Fin 32) : t.ctx j = s.ctx j := by
  unfold State.ctx State.h16 State.t16
  rw [(h _).time16, (h _).paces, hc]

theorem State.noteSched_head (h j : Fin 32) (a n : Nat) (s : State) : (s.noteSched h a n).head j = s.head j :=
  congrArg (fun v => v[j]) ((State.noteSched_changes (ps := [.tiles, .atria]) (by decide) h a n (.refl s)).heads (by decide))

theorem State.noteSched_ctx (h j : Fin 32) (a n : Nat) (s : State) : (s.noteSched h a n).ctx j = s.ctx j :=
  (State.noteSched_noted h a n s).ctx
    ((State.noteSched_changes (ps := [.tiles, .atria]) (by decide) h a n (.refl s)).time (by decide)).1 j

theorem State.readSched_head (h j : Fin 32) (n : Nat) (s : State) : (s.readSched h n).head j = s.head j :=
  congrArg (fun v => v[j]) ((State.readSched_changes (ps := [.tiles, .atria]) (by decide) h n (.refl s)).heads (by decide))

theorem State.noteEntries_head (h j : Fin 32) (s : State) : (s.noteEntries h).head j = s.head j :=
  congrArg (fun v => v[j]) ((State.noteEntries_changes (ps := [.tiles, .atria]) (by decide) h (.refl s)).heads (by decide))

theorem State.noteEntries_ctx (h j : Fin 32) (s : State) : (s.noteEntries h).ctx j = s.ctx j :=
  (State.noteEntries_noted h s).ctx
    ((State.noteEntries_changes (ps := [.tiles, .atria]) (by decide) h (.refl s)).time (by decide)).1 j

end Sys2Proof.Machine

end

section

namespace Sys2Proof.Machine

/-! ### The event of the schedules that fires -/

/-- Event `f` fires no later than `g` (R57): earlier due, then slot 0 first, then in table order, then in beam order. -/
def Fire.upTo (f g : Fire) : Prop :=
  f.due < g.due ∨ (f.due = g.due ∧ (f.slot < g.slot ∨
    (f.slot = g.slot ∧ (f.index < g.index ∨ (f.index = g.index ∧ f.target ≤ g.target)))))

theorem Fire.upTo_refl (f : Fire) : f.upTo f := by unfold Fire.upTo; omega

theorem Fire.upTo_trans {f g k : Fire} (h1 : f.upTo g) (h2 : g.upTo k) : f.upTo k := by
  unfold Fire.upTo at *; omega

theorem Fire.upTo_of_before {f g : Fire} (h : f.before g = true) : f.upTo g := by
  unfold Fire.before at h
  unfold Fire.upTo
  split at h
  · simp at h; omega
  split at h
  · simp at h; omega
  split at h <;> (simp at h; omega)

theorem Fire.upTo_of_not_before {f g : Fire} (h : ¬ f.before g = true) : g.upTo f := by
  unfold Fire.before at h
  unfold Fire.upTo
  split at h
  · simp at h; omega
  split at h
  · simp at h; omega
  split at h <;> (simp at h; omega)

/-- The one of two events that fires first. -/
def Fire.first (b : Option Fire) (f : Fire) : Option Fire :=
  match b with
  | none => some f
  | some g => if f.before g then some f else some g

/-- What a fold for the first event finds, where `b` was the first so far. -/
theorem Fire.foldl_first {f : Fire} (l : List Fire) (b : Option Fire) (h : l.foldl Fire.first b = some f) :
    (b = some f ∨ f ∈ l) ∧ (∀ g, b = some g → f.upTo g) ∧ ∀ g ∈ l, f.upTo g := by
  induction l generalizing b with
  | nil =>
    refine ⟨.inl h, fun g hg => ?_, by simp⟩
    obtain rfl : f = g := Option.some.inj (h.symm.trans hg)
    exact f.upTo_refl
  | cons a l ih =>
    obtain ⟨hmem, hb, hl⟩ := ih _ h
    cases b with
    | none => exact ⟨.inr (List.mem_cons.2 (hmem.imp (fun e => (Option.some.inj e).symm) id)), by simp, List.forall_mem_cons.2 ⟨hb a rfl, hl⟩⟩
    | some g =>
      by_cases hag : a.before g = true
      · have e : Fire.first (some g) a = some a := if_pos hag
        rw [e] at hmem hb
        have hfa := hb a rfl
        refine ⟨.inr (List.mem_cons.2 (hmem.imp (fun e => (Option.some.inj e).symm) id)), fun k hk => ?_, List.forall_mem_cons.2 ⟨hfa, hl⟩⟩
        obtain rfl : g = k := Option.some.inj hk
        exact Fire.upTo_trans hfa (Fire.upTo_of_before hag)
      · have e : Fire.first (some g) a = some g := if_neg hag
        rw [e] at hmem hb
        exact ⟨hmem.imp id (List.mem_cons_of_mem a), hb,
          List.forall_mem_cons.2 ⟨Fire.upTo_trans (hb g rfl) (Fire.upTo_of_not_before hag), hl⟩⟩

/-- The first of the events that are due fires, and none unless W > 0 (R57). -/
theorem Head.nextFire_some {c : Ctx} {x : Head} {f : Fire} (h : x.nextFire c = some f) :
    0 < x.omega ∧ f ∈ x.waiting c 0 ++ x.waiting c 1 ∧ x.reached c f = true ∧
      ∀ g ∈ x.waiting c 0 ++ x.waiting c 1, x.reached c g = true → f.upTo g := by
  unfold Head.nextFire at h
  split at h
  next hw =>
    obtain ⟨hmem, -, hall⟩ := Fire.foldl_first _ none h
    obtain ⟨hf, hreached⟩ := List.mem_filter.1 (hmem.resolve_left (by simp))
    exact ⟨hw.1, hf, hreached, fun g hg hr => hall g (List.mem_filter.2 ⟨hg, hr⟩)⟩
  · cases h

/-- One more event has fired in the present cycle. -/
def Head.countFired (c : Ctx) (x : Head) : Head :=
  { x with angle := { x.angle with
    fireCycle := c.cyc, fireCount := if x.angle.fireCycle = c.cyc then x.angle.fireCount + 1 else 1 } }

/-- A counter of a head saturates. -/
theorem Head.r_bump_sat (x : Head) (f : Fld) (n : Nat) : (x.bump f n).r f = min (2 ^ f.width - 1) (x.r f + n) := by
  have := Nat.two_pow_pos f.width
  rw [Head.r_bump, satAdd, Nat.min_comm]
  exact Nat.mod_eq_of_lt (by omega)

/-- An event that has fired is counted where it is late (R57). -/
def Head.noteFired (c : Ctx) (f : Fire) (x : Head) : Head :=
  let x := x.countFired c
  if 2 < c.cyc - f.due then
    ((x.bump AngleReg.LATE_COUNT 1).flag AngleReg.LATE).w AngleReg.LATE_MAX
      (max (x.r AngleReg.LATE_MAX) (min (c.cyc - f.due) 65535))
  else x

/-- What TAKE_EVENT gives: the event that fires, of the type asked for, and the head with it taken. -/
theorem Head.takeEvent_some {c : Ctx} {ty : Nat} {x y : Head} {f : Fire} (h : x.takeEvent c ty = some (f, y)) :
    (x.dropBad c).nextFire c = some f ∧ f.type = ty ∧ y = ((x.dropBad c).markDone f).noteFired c f := by
  unfold Head.takeEvent at h
  dsimp only at h
  split at h
  · cases h
  next g hg =>
    split at h
    next hty =>
      obtain ⟨rfl, rfl⟩ := Prod.mk.inj (Option.some.inj h)
      exact ⟨hg, hty, rfl⟩
    · cases h

theorem Head.markDone_regs (f : Fire) (x : Head) : (x.markDone f).regs = x.regs := by
  unfold Head.markDone Head.onSlotOf
  split <;> rfl

theorem Head.noteFired_slotOf (c : Ctx) (f : Fire) (x : Head) (n : Nat) : (x.noteFired c f).slotOf n = x.slotOf n := by
  unfold Head.noteFired
  extract_lets y
  split <;> rfl

theorem Head.markDone_done (f : Fire) (x : Head) : (f.index, f.target) ∈ ((x.markDone f).slotOf f.slot).done := by
  unfold Head.markDone Head.onSlotOf Head.slotOf
  by_cases h : f.slot = 0 <;> simp [h]

theorem Head.noteFired_inTime {c : Ctx} {f : Fire} (h : c.cyc ≤ f.due + 2) (x : Head) : (x.noteFired c f).regs = x.regs := by
  unfold Head.noteFired
  extract_lets y
  rw [if_neg (by omega)]
  rfl

theorem Head.noteFired_late {c : Ctx} {f : Fire} (h : f.due + 2 < c.cyc) (x : Head) : let y := x.noteFired c f
    y.b AngleReg.LATE = true ∧ y.r AngleReg.LATE_COUNT = min 65535 (x.r AngleReg.LATE_COUNT + 1) ∧
      x.KeepsFields y [AngleReg.LATE, AngleReg.LATE_COUNT, AngleReg.LATE_MAX] := by
  have hlate : x.noteFired c f = ((((x.countFired c).bump AngleReg.LATE_COUNT 1).flag AngleReg.LATE).w AngleReg.LATE_MAX
      (max ((x.countFired c).r AngleReg.LATE_MAX) (min (c.cyc - f.due) 65535))) := if_pos (by omega)
  rw [hlate]
  refine ⟨?_, ?_, fun g _ hn => ?_⟩
  · exact (Head.b_of (Head.keep_w (by decide) rfl)).trans (Head.b_flag _ rfl)
  · exact Head.keep_w (by decide) (Head.keep_flag (by decide) (Head.r_bump_sat _ _ _))
  · exact Head.keep_w (hn _ (by simp)) (Head.keep_flag (hn _ (by simp)) (Head.keep_bump (hn _ (by simp)) rfl))

/-- Settles O22: what the fold over the due events leaves is the first of them. -/
theorem firstDueEventFires : Obligations.FirstDueEventFires := by
  unfold Obligations.FirstDueEventFires
  intro u h ty f x hx
  extract_lets c z l
  obtain ⟨-, htake⟩ := hx
  obtain ⟨hnext, hty, rfl⟩ := Head.takeEvent_some htake
  obtain ⟨hw, hf, hreached, hfirst⟩ := Head.nextFire_some hnext
  have hregs : (z.markDone f).regs = z.regs := Head.markDone_regs f z
  refine ⟨hty, hw, hf, hreached, hfirst, ?_, fun hin => (Head.noteFired_inTime hin _).trans hregs, fun hlate => ?_⟩
  · rw [Head.noteFired_slotOf]
    exact Head.markDone_done f z
  · obtain ⟨h1, h2, h3⟩ := Head.noteFired_late hlate (z.markDone f)
    have hr (g : Fld) : (z.markDone f).r g = z.r g := congrArg (RegFile.rd · g) hregs
    exact ⟨h1, by rw [h2, hr], fun g hg hn => (h3 g hg hn).trans (hr g)⟩

end Sys2Proof.Machine

end

section

namespace Sys2Proof.Machine

/-! ### Events of a schedule in a head -/

/-- An event whose receiver is in the head changes that head alone, besides the traces of the read of its entry. -/
theorem State.firesIn_takes {s : State} {wait : Nat} {h : Fin 32} {ty : Nat} {f : Fire} {x : Head}
    (ht : (s.atEvent wait h).Takes h ty f x) (act : Ctx → Fire → Head → Head) :
    s.firesIn wait h ty act = .next (((s.atEvent wait h).entryRead h f x).setHead h (act ((s.atEvent wait h).ctx h) f x)) := by
  obtain ⟨hawake, htake⟩ := ht
  have hhead : (s.pass wait).head h = (s.atEvent wait h).head h := (State.noteEntries_head h h _).symm
  have hctx : (s.pass wait).ctx h = (s.atEvent wait h).ctx h := (State.noteEntries_ctx h h _).symm
  have hread : (((s.atEvent wait h).entryRead h f x).setHead h x).ctx h = (s.atEvent wait h).ctx h := by
    rw [State.setHead_ctx, State.entryRead, State.noteSched_ctx]
  have hfires : s.fires wait h ty (fun f s => s.onHead h (act (s.ctx h) f)) =
      .next ((((s.atEvent wait h).entryRead h f x).setHead h x).onHead h
        (act ((((s.atEvent wait h).entryRead h f x).setHead h x).ctx h) f)) := by
    unfold State.fires
    extract_lets u c v
    rw [if_neg (by rw [show u.head h = v.head h from hhead, show (v.head h).inReset = false from hawake]; decide),
      show c = v.ctx h from hctx, show (v.head h).takeEvent (v.ctx h) ty = _ from htake]
    rfl
  rw [State.firesIn, hfires, hread, State.onHead, State.setHead_head, State.setHead_setHead]

theorem completesHead_of_takes {i : Instr} {s : State} {wait : Nat} {h : Fin 32} {ty : Nat} {f : Fire} {x : Head}
    {act : Ctx → Fire → Head → Head} {P : Head → Prop} (hi : exec i s = s.firesIn wait h ty act)
    (ht : (s.atEvent wait h).Takes h ty f x) (hp : P (act ((s.atEvent wait h).ctx h) f x)) :
    CompletesHead i s ((s.atEvent wait h).entryRead h f x) h P :=
  ⟨_, hi.trans (State.firesIn_takes ht act), hp⟩

/-! ### Events in the beam channels -/

/-- The event waits in a beam channel with its crossing time and W (R60). -/
def Fire.waitsIn (f : Fire) (w : Int) (b : BeamSt) : BeamSt :=
  { b with events := b.events ++ [{ kind := f.type, arg := f.arg, te := f.te, w := w }] }

theorem Head.gateEvent_room {x : Head} {i : Fin 33} (h : (x.beam i).events.length < 64) (c : Ctx) (f : Fire) :
    x.gateEvent c i f = x.onBeam i (f.waitsIn x.omega) := if_pos h

theorem Head.onBeam_beam_ne (x : Head) {i j : Fin 33} (h : j ≠ i) (g : BeamSt → BeamSt) : (x.onBeam i g).beam j = x.beam j := by
  have := Fin.val_ne_of_ne h.symm
  simp [Head.onBeam, Head.beam, this]

/-- An event goes to each beam channel of a list, all with room for it. -/
theorem Head.gateEvents_room (c : Ctx) (f : Fire) (l : List Nat) (hl : l.Nodup) (hl33 : ∀ i ∈ l, i < 33) (x : Head)
    (hroom : ∀ i ∈ l, (x.beam (toSampler i)).events.length < 64) :
    ∃ bs, l.foldl (fun x i => x.gateEvent c (toSampler i) f) x = { x with beams := bs } ∧
      ∀ j : Fin 33, bs[j] = if j.val ∈ l then f.waitsIn x.omega (x.beam j) else x.beam j := by
  induction l generalizing x with
  | nil => exact ⟨x.beams, rfl, fun j => rfl⟩
  | cons a l ih =>
    obtain ⟨hal, hl⟩ := List.nodup_cons.1 hl
    have ha : (toSampler a).val = a := Nat.mod_eq_of_lt (hl33 a (by simp))
    have hother (j : Fin 33) (hj : j.val ≠ a) : (x.onBeam (toSampler a) (f.waitsIn x.omega)).beam j = x.beam j :=
      Head.onBeam_beam_ne x (fun e => hj (by rw [e, ha])) _
    have hin : ∀ i ∈ l, (toSampler i).val ≠ a := fun i hi => by
      rw [show (toSampler i).val = i from Nat.mod_eq_of_lt (hl33 i (by simp [hi]))]
      exact fun e => hal (e ▸ hi)
    obtain ⟨bs, hbs, hb⟩ := ih hl (fun i hi => hl33 i (by simp [hi])) (x.onBeam (toSampler a) (f.waitsIn x.omega))
      fun i hi => by rw [hother _ (hin i hi)]; exact hroom i (by simp [hi])
    refine ⟨bs, ?_, fun j => ?_⟩
    · rw [List.foldl_cons, Head.gateEvent_room (hroom a (by simp)), hbs]
      rfl
    · rw [hb j]
      by_cases hj : j.val = a
      · have hja : j = toSampler a := Fin.ext (hj.trans ha.symm)
        rw [if_neg (by rw [hj]; exact hal), if_pos (by simp [hj]), hja]
        exact Head.onBeam_beam ..
      · rw [hother j hj]
        simp only [List.mem_cons, hj, false_or]
        rfl

/-- The channels that an event goes to (R55): the one of its target, or those of positions 0 to 31. -/
def Fire.hits (f : Fire) (i : Fin 33) : Prop := f.target = i.val ∨ (32 < f.target ∧ i.val < 32)

theorem Head.beamEvent_room {x : Head} {f : Fire} (hroom : ∀ i, f.hits i → (x.beam i).events.length < 64) (c : Ctx) :
    ∃ bs, x.beamEvent c f = { x with beams := bs } ∧
      ∀ i : Fin 33, (f.hits i → bs[i] = f.waitsIn x.omega (x.beam i)) ∧ (¬ f.hits i → bs[i] = x.beam i) := by
  unfold Head.beamEvent
  unfold Fire.hits at *
  by_cases ht : f.target ≤ 32
  · have hval : (toSampler f.target).val = f.target := Nat.mod_eq_of_lt (by omega)
    rw [if_pos ht, Head.gateEvent_room (hroom _ (.inl hval.symm))]
    refine ⟨_, rfl, fun i => ⟨fun hi => ?_, fun hi => ?_⟩⟩
    · obtain rfl : i = toSampler f.target := Fin.ext (by omega)
      exact Head.onBeam_beam ..
    · exact Head.onBeam_beam_ne x (fun e => hi (.inl (by rw [e, hval]))) _
  · have hin (i : Fin 33) : i.val ∈ List.range 32 ↔ f.target = i.val ∨ (32 < f.target ∧ i.val < 32) := by
      rw [List.mem_range]
      omega
    have hval (i : Nat) (hi : i ∈ List.range 32) : (toSampler i).val = i :=
      Nat.mod_eq_of_lt ((List.mem_range.1 hi).trans (by decide))
    rw [if_neg ht]
    obtain ⟨bs, hbs, hb⟩ := Head.gateEvents_room c f (List.range 32) List.nodup_range
      (fun i hi => (List.mem_range.1 hi).trans (by decide)) x
      fun i hi => hroom _ ((hin _).1 (by rw [hval i hi]; exact hi))
    exact ⟨bs, hbs, fun i => ⟨fun hi => by rw [hb, if_pos ((hin i).2 hi)], fun hi => by rw [hb, if_neg (mt (hin i).1 hi)]⟩⟩

/-! ### The parameter bank -/

theorem Head.refreshBank_beam (x : Head) (i : Fin 33) : x.refreshBank.beam i = x.beam i := by
  unfold Head.refreshBank
  extract_lets ovr y z b
  split <;> rfl

theorem Head.refreshBank_angle (x : Head) : x.refreshBank.angle = x.angle := by
  unfold Head.refreshBank
  extract_lets ovr y z b
  split <;> rfl

/-- The bank register names the bank in force (R206). -/
theorem Head.refreshBank_bank (x : Head) : x.refreshBank.r LoopReg.BANK = x.refreshBank.bankNow := by
  unfold Head.refreshBank
  extract_lets ovr y z b
  split
  next h => exact h.symm
  · have hb : b < 2 ^ 6 := Nat.mod_lt _ (by decide)
    have hnow : (((z.w LoopReg.BANK b).flag LoopReg.BANK_SWITCH).bump LoopReg.SWITCH_COUNT 1).bankNow = b := by
      have hz {f : Fld} (h1 : f.key ≠ LoopReg.BANK.key) (h2 : f.key ≠ LoopReg.BANK_SWITCH.key)
          (h3 : f.key ≠ LoopReg.SWITCH_COUNT.key) :
          (((z.w LoopReg.BANK b).flag LoopReg.BANK_SWITCH).bump LoopReg.SWITCH_COUNT 1).r f = z.r f :=
        Head.keep_bump h3 (Head.keep_flag h2 (Head.keep_w h1 rfl))
      unfold Head.bankNow
      rw [hz (by decide) (by decide) (by decide), hz (by decide) (by decide) (by decide), hz (by decide) (by decide) (by decide),
        hz (by decide) (by decide) (by decide)]
      rfl
    rw [hnow]
    exact Head.keep_bump (by decide) (Head.keep_flag (by decide) ((Head.r_w ..).trans (Nat.mod_eq_of_lt hb)))

/-- Without an override the loops' layer and zone are those of the last ZONE_SELECT (R206). -/
theorem Head.refreshBank_region {x : Head} (h : x.b LoopReg.LZ_OVR = false) :
    x.refreshBank.r LoopReg.LAYER = x.loops.layer % 16 ∧ x.refreshBank.r LoopReg.ZONE = x.loops.zone % 16 := by
  have hz : ((x.w LoopReg.LAYER x.loops.layer).w LoopReg.ZONE x.loops.zone).r LoopReg.LAYER = x.loops.layer % 16 ∧
      ((x.w LoopReg.LAYER x.loops.layer).w LoopReg.ZONE x.loops.zone).r LoopReg.ZONE = x.loops.zone % 16 :=
    ⟨Head.keep_w (by decide) (Head.r_w ..), Head.r_w ..⟩
  unfold Head.refreshBank
  simp only [h, Bool.false_eq_true, if_false]
  split
  · exact hz
  · exact ⟨Head.keep_bump (by decide) (Head.keep_flag (by decide) (Head.keep_w (by decide) hz.1)),
      Head.keep_bump (by decide) (Head.keep_flag (by decide) (Head.keep_w (by decide) hz.2))⟩

/-- What a ZONE_SELECT leaves in the head beside its channels' queues (R61, R206). -/
theorem Head.zoneEvent_room {x : Head} {f : Fire} (hroom : ∀ i, f.hits i → (x.beam i).events.length < 64) (c : Ctx) :
    let y := x.zoneEvent c f; let far := f.target = 34 ∨ (f.whole = true ∧ f.target = 0)
    (∀ i : Fin 33, (f.hits i → y.beam i = f.waitsIn x.omega (x.beam i)) ∧ (¬ f.hits i → y.beam i = x.beam i)) ∧
      y.angle.layer = f.arg % 16 ∧ y.angle.zone = f.arg / 16 % 16 ∧ (¬ far → y.regs = x.regs) ∧
      (far → (x.b LoopReg.LZ_OVR = false → y.r LoopReg.LAYER = f.arg % 16 ∧ y.r LoopReg.ZONE = f.arg / 16 % 16) ∧
        y.r LoopReg.BANK = y.bankNow ∧
        x.KeepsFields y [LoopReg.LAYER, LoopReg.ZONE, LoopReg.BANK, LoopReg.BANK_SWITCH, LoopReg.SWITCH_COUNT]) := by
  obtain ⟨bs, hbs, hb⟩ := Head.beamEvent_room hroom c
  let z : Head := { x with
    beams := bs
    angle := { x.angle with
      layer := f.arg % 16, zone := f.arg / 16 % 16, owed := x.angle.owed.filter fun o => decide (32 < o.target) } }
  let m : Head := { z with loops := { z.loops with layer := f.arg % 16, zone := f.arg / 16 % 16 } }
  have hy : x.zoneEvent c f =
      if f.target = 34 ∨ (f.whole = true ∧ f.target = 0) then m.refreshBank.sampleBanks c else z := by
    unfold Head.zoneEvent
    rw [hbs]
  by_cases hfar : f.target = 34 ∨ (f.whole = true ∧ f.target = 0)
  · rw [hy, if_pos hfar]
    have hbeam (i : Fin 33) : (m.refreshBank.sampleBanks c).beam i = bs[i] := m.refreshBank_beam i
    have hangle : (m.refreshBank.sampleBanks c).angle = m.angle := m.refreshBank_angle
    refine ⟨fun i => by rw [hbeam]; exact hb i, by rw [hangle], by rw [hangle], fun hn => absurd hfar hn, fun _ => ⟨fun hovr => ?_,
      m.refreshBank_bank, ?_⟩⟩
    · obtain ⟨hl, hz⟩ := Head.refreshBank_region (x := m) hovr
      exact ⟨hl.trans (Nat.mod_mod _ _), hz.trans (Nat.mod_mod _ _)⟩
    · exact Head.keepsFields_of Head.refreshBank_keys (by decide +kernel) fun g hg =>
        Head.sampleBanks_keep rfl c (Head.refreshBank_keep (x := m) hg rfl)
  · rw [hy, if_neg hfar]
    exact ⟨hb, rfl, rfl, fun _ => rfl, fun h => absurd h hfar⟩

/-- Settles O23: the four types that only queue alike, and ZONE_SELECT by whether it reaches the loops. -/
theorem beamEvents : Obligations.BeamEvents := by
  unfold Obligations.BeamEvents
  intro s wait h f x
  extract_lets u v hit queued
  intro hroom
  obtain ⟨bs, hbs, hb⟩ := Head.beamEvent_room (f := f) hroom (u.ctx h)
  have hqueued : queued (x.beamEvent (u.ctx h) f) ∧ (x.beamEvent (u.ctx h) f).regs = x.regs := by
    rw [hbs]
    exact ⟨fun i => ⟨fun hi => congrArg BeamSt.events ((hb i).1 hi), (hb i).2⟩, rfl⟩
  have queues {i : Instr} {ty : Nat} (hi : exec i s = s.firesIn wait h ty Head.beamEvent) (ht : u.Takes h ty f x) :
      CompletesHead i s v h fun y => queued y ∧ y.regs = x.regs := completesHead_of_takes hi ht hqueued
  refine ⟨queues rfl, queues rfl, queues rfl, queues rfl,
    fun ht => completesHead_of_takes (ty := 0x0D) (act := Head.zoneEvent) rfl ht ?_⟩
  obtain ⟨hbeam, hlayer, hzone, hnear, hfar⟩ := Head.zoneEvent_room (f := f) hroom (u.ctx h)
  exact ⟨fun i => ⟨fun hi => congrArg BeamSt.events ((hbeam i).1 hi), (hbeam i).2⟩, hlayer, hzone, hnear, hfar⟩

end Sys2Proof.Machine

end

section

namespace Sys2Proof.Machine

/-! ### A word of a head after the stores of a write -/

theorem Fld.bits_lt {f : Fld} (hw : 0 < f.width) (n : Nat) : f.bits n < 2 ^ f.width := by
  rw [Fld.bits_eq f n hw]
  exact Nat.mod_lt _ (Nat.two_pow_pos _)

/-- A field apart from the forced one keeps the word's bits. -/
theorem bits_forced_of_apart {f g : Fld} (hf : 0 < f.width) (hg : 0 < g.width)
    (hd : g.lsb + g.width ≤ f.lsb ∨ f.lsb + f.width ≤ g.lsb) (k : Nat) (v : Word) : g.bits (forced f k v) = g.bits v.toNat := by
  rw [Fld.bits_eq g _ hg, Fld.bits_eq g _ hg]
  refine Nat.eq_of_testBit_eq fun i => ?_
  simp only [Nat.testBit_mod_two_pow, Nat.testBit_div_two_pow, forced_testBit f k v hf]
  by_cases hi : i < g.width
  · rw [if_neg (by omega)]
  · simp [hi]

/-- A field that no store of the word reaches is as before the stores. -/
theorem storeWord_rd_ne {fs : List Fld} {g : Fld} (h : ∀ f ∈ fs, f.acc = .rw ∨ f.acc = .w1c → g.key ≠ f.key) (v : Nat)
    (rf : RegFile) :
    (storeWord (fun _ => none) fs v rf).1.rd g = rf.rd g := by
  unfold storeWord
  suffices hs : ∀ r : RegFile × Bool, (fs.foldl (storeField (fun _ => none) v) r).1.rd g = r.1.rd g from hs _
  induction fs with
  | nil => exact fun _ => rfl
  | cons f l ih =>
    intro r
    rw [List.foldl_cons, ih fun k hk => h k (List.mem_cons_of_mem _ hk)]
    have hne := h f List.mem_cons_self
    unfold storeField
    split
    · exact RegFile.rd_wr_ne _ _ (hne (.inl ‹_›))
    · exact RegFile.rd_wr_ne _ _ (hne (.inr ‹_›))
    · rfl

/-- A plain field holds its bits of the written word (R4). -/
theorem storeWord_rd_rw {fs : List Fld} {f : Fld} (hf : f ∈ fs) (hrw : f.acc = .rw) (hw : 0 < f.width)
    (hinj : ∀ g ∈ fs, g.key = f.key → g = f) (v : Nat) (rf : RegFile) :
    (storeWord (fun _ => none) fs v rf).1.rd f = f.bits v := by
  unfold storeWord
  suffices hs : ∀ r : RegFile × Bool, (f ∈ fs ∨ r.1.rd f = f.bits v) →
      (fs.foldl (storeField (fun _ => none) v) r).1.rd f = f.bits v from hs _ (.inl hf)
  clear hf
  have stored (r : RegFile × Bool) : (storeField (fun _ => none) v r f).1.rd f = f.bits v := by
    unfold storeField
    rw [hrw]
    exact (RegFile.rd_wr_self ..).trans (Nat.mod_eq_of_lt (Fld.bits_lt hw v))
  induction fs with
  | nil => exact fun r h => h.resolve_left (by simp)
  | cons g l ih =>
    intro r h
    rw [List.foldl_cons]
    refine ih (fun k hk => hinj k (List.mem_cons_of_mem _ hk)) _ ?_
    by_cases hg : g = f
    · subst hg
      exact .inr (stored r)
    · refine h.imp (fun hm => (List.mem_cons.1 hm).resolve_left (Ne.symm hg)) fun hr => ?_
      have hne : f.key ≠ g.key := fun e => hg (hinj g List.mem_cons_self e.symm)
      have hkeep : (storeField (fun _ => none) v r g).1.rd f = r.1.rd f := by
        unfold storeField
        split
        · exact RegFile.rd_wr_ne _ _ hne
        · exact RegFile.rd_wr_ne _ _ hne
        · rfl
      exact hkeep.trans hr

theorem headFields_width : ∀ f ∈ headFields, 0 < f.width := by decide +kernel

section

variable {off v : Nat} {x : Head}

theorem Head.stored_eq (hb : ¬(0x70100 ≤ off ∧ off < 0x70208)) :
    x.stored off v = { x with regs := (storeWord (fun _ => none) (headStored off) v x.regs).1 } := by
  unfold Head.stored Head.beforeWrite
  rw [if_neg hb]

theorem Head.stored_ne (hb : ¬(0x70100 ≤ off ∧ off < 0x70208)) {g : Fld}
    (h : ∀ f ∈ headStored off, f.acc = .rw ∨ f.acc = .w1c → g.key ≠ f.key) : (x.stored off v).r g = x.r g := by
  rw [Head.stored_eq hb]
  exact storeWord_rd_ne h v x.regs

theorem Head.stored_rw (hb : ¬(0x70100 ≤ off ∧ off < 0x70208)) {f : Fld} (hf : f ∈ headStored off) (hrw : f.acc = .rw) :
    (x.stored off v).r f = f.bits v := by
  have hmem {g : Fld} (hg : g ∈ headStored off) : g ∈ headFields := (List.mem_filter.1 (List.mem_filter.1 hg).1).1
  rw [Head.stored_eq hb]
  exact storeWord_rd_rw hf hrw (headFields_width f (hmem hf)) (fun g hg e => headFields_key (hmem hg) (hmem hf) e) v x.regs

end

theorem mem_headStored {off : Nat} {f : Fld} : f ∈ headStored off ↔ f ∈ fieldsIn headFields off ∧ headOwn f = false := by
  simp [headStored]

/-- A write of a word takes it where what follows its stores writes none of its plain fields. -/
theorem Head.took_of {off V : Nat} {v : Word} {x y : Head} (hb : ¬(0x70100 ≤ off ∧ off < 0x70208))
    (hy : ∀ f ∈ fieldsIn headFields off, f.acc = .rw → headOwn f = false → y.r f = (x.stored off V).r f)
    (hV : ∀ f ∈ fieldsIn headFields off, f.acc = .rw → headOwn f = false → f.bits V = f.bits v.toNat) : y.Took off v :=
  fun f hf hrw hown => (hy f hf hrw hown).trans
    ((Head.stored_rw hb (mem_headStored.2 ⟨hf, hown⟩) hrw).trans (hV f hf hrw hown))

@[simp] theorem State.turnTo_head (k : Nat) (s : State) (h : Fin 32) : (s.turnTo k).head h = s.head h := by
  unfold State.turnTo
  split <;> rfl

theorem State.atHead_ctx {s : State} {q : Req} {h : Fin 32} {off : Nat} (ok : s.accessOf q (.head h off) = .ok) :
    (s.atHead q h off).ctx h = (s.turnTo 3).ctx h := State.arrived_ctx (State.turnTo_accessOf ok 3) h

/-! ### What follows the stores of the angle's words -/

theorem Head.writeAct_asrc (c : Ctx) (v : Nat) (x : Head) :
    x.writeAct c 0x10004 v = if bitOf v 2 then x.alignWrite else x := by
  unfold Head.writeAct; simp

theorem Head.writeAct_discOffset (c : Ctx) (v : Nat) (x : Head) :
    x.writeAct c 0x10008 v = x.discOffsetWrite c (v % 2 ^ 24) := by
  unfold Head.writeAct; simp

theorem Head.writeAct_vrate (c : Ctx) (v : Nat) (x : Head) : x.writeAct c 0x1000C v = x := by
  unfold Head.writeAct; simp

theorem Head.writeAct_spare (c : Ctx) (v : Nat) (x : Head) :
    x.writeAct c 0x1002C v = if bitOf v 6 then x.spareArm c else x := by
  unfold Head.writeAct; simp

/-! ### ALIGN and ASRC -/

theorem Head.alignWrite_r {x : Head} {g : Fld} (h1 : g.key ≠ AngleReg.ALIGN.key) (h2 : g.key ≠ AngleReg.ALIGN_REFUSED.key) :
    x.alignWrite.r g = x.r g := by
  unfold Head.alignWrite
  exact Head.keep_ite (Head.keep_flag h2 rfl) (Head.keep_put h1 rfl)

theorem Head.alignWrite_align (x : Head) :
    x.alignWrite.b AngleReg.ALIGN = (if x.b AngleReg.RUNNING then x.b AngleReg.ALIGN else true) ∧
      x.alignWrite.b AngleReg.ALIGN_REFUSED = (x.b AngleReg.RUNNING || x.b AngleReg.ALIGN_REFUSED) := by
  unfold Head.alignWrite
  cases h : x.b AngleReg.RUNNING
  · exact ⟨Head.b_put x true rfl, Head.b_of (Head.keep_put (by decide) rfl)⟩
  · exact ⟨Head.b_of (Head.keep_flag (by decide) rfl), Head.b_flag x rfl⟩

/-! ### DISC_OFFSET -/

/-- What a step of P leaves in the tracker's origin (R49). -/
theorem Head.stepPos_angle (c : Ctx) (d : Int) (x : Head) :
    (x.stepPos c d).angle.pos = x.angle.pos + d ∧ (x.stepPos c d).angle.tPrev = x.angle.tPrev := by
  have hdone (l : List Fire) (y : Head) : (l.foldl (fun x f => x.markDone f) y).angle.pos = y.angle.pos ∧
      (l.foldl (fun x f => x.markDone f) y).angle.tPrev = y.angle.tPrev := by
    induction l generalizing y with
    | nil => exact ⟨rfl, rfl⟩
    | cons f l ih =>
      have hf : (y.markDone f).angle.pos = y.angle.pos ∧ (y.markDone f).angle.tPrev = y.angle.tPrev := by
        unfold Head.markDone Head.onSlotOf
        split <;> exact ⟨rfl, rfl⟩
      exact ⟨(ih _).1.trans hf.1, (ih _).2.trans hf.2⟩
  have hskip (n : Nat) (y : Head) : (y.skip n).angle = y.angle := by
    unfold Head.skip
    split <;> rfl
  have hsync (y : Head) (p : Int) : (y.syncTurn true p).angle.pos = y.angle.pos ∧ (y.syncTurn true p).angle.tPrev = y.angle.tPrev := by
    unfold Head.syncTurn
    dsimp only
    split <;> exact ⟨rfl, rfl⟩
  unfold Head.stepPos
  extract_lets y p l z a w
  have hz : z.angle.pos = x.angle.pos ∧ z.angle.tPrev = x.angle.tPrev := by
    unfold z
    rw [hskip]
    exact hdone l y
  exact ⟨(hsync w _).1.trans (congrArg (· + d) hz.1), (hsync w _).2.trans hz.2⟩

/-! ### The spare -/

/-- The switch that is armed towards a position (R62): its release and its cover, unless it is on its way already. -/
def Head.planFor (want : Option Nat) (x : Head) : SparePlan :=
  if want = x.coveredNow then { release := none, cover := none, notBefore := x.switchTe }
  else { release := x.coveredNow, cover := want, notBefore := x.switchTe }

/-- Arming a switch of the spare writes SPARE_ARM and SPARE_DONE alone. -/
theorem Head.spareArm_r (c : Ctx) {x : Head} {g : Fld} (h1 : g.key ≠ AngleReg.SPARE_ARM.key)
    (h2 : g.key ≠ AngleReg.SPARE_DONE.key) : (x.spareArm c).r g = x.r g := by
  have hput (y : Head) (b : Bool) (hy : y.r g = x.r g) : (y.put AngleReg.SPARE_ARM b).r g = x.r g := Head.keep_put h1 hy
  unfold Head.spareArm
  exact Head.keep_ite (Head.keep_flag h2 (hput _ _ rfl)) (hput _ _ rfl)

/-- What arming a switch of the spare leaves (R62). -/
theorem Head.spareArm_cases (c : Ctx) (x : Head) : let y := x.spareArm c
    let want := if x.r AngleReg.SPARE_K < 32 then some (x.r AngleReg.SPARE_K) else none
    (want = x.coveredNow → x.switchTe ≤ c.now → y.b AngleReg.SPARE_ARM = false ∧ y.b AngleReg.SPARE_DONE = true ∧
      y.angle.spare = none) ∧
    (want = x.coveredNow → c.now < x.switchTe → y.b AngleReg.SPARE_ARM = true ∧
      y.b AngleReg.SPARE_DONE = x.b AngleReg.SPARE_DONE ∧
      y.angle.spare = some { release := none, cover := none, notBefore := x.switchTe }) ∧
    (want ≠ x.coveredNow → y.b AngleReg.SPARE_ARM = true ∧
      y.angle.spare = some { release := x.coveredNow, cover := want, notBefore := x.switchTe }) := by
  intro y want
  have hy : y = if (decide (want = x.coveredNow) && decide (x.switchTe ≤ c.now)) = true then
      (Head.put { x with angle := { x.angle with spare := none } } AngleReg.SPARE_ARM false).flag AngleReg.SPARE_DONE
    else { x.put AngleReg.SPARE_ARM true with angle := { x.angle with spare := some (x.planFor want) } } := rfl
  have harm : (x.put AngleReg.SPARE_ARM true).b AngleReg.SPARE_ARM = true := Head.b_put x true rfl
  refine ⟨fun h hte => ?_, fun h hte => ?_, fun h => ?_⟩
  · rw [hy, if_pos (by simp only [h, hte, decide_true, Bool.and_self])]
    exact ⟨(Head.b_of (Head.keep_flag (by decide) rfl)).trans (Head.b_put _ false rfl), Head.b_flag _ rfl, rfl⟩
  · rw [hy, if_neg (by simp only [Nat.not_le.2 hte, decide_false, Bool.and_false]; decide), Head.planFor, if_pos h]
    exact ⟨harm, Head.b_of (Head.keep_put (x := x) (by decide) rfl), rfl⟩
  · rw [hy, if_neg (by simp only [h, decide_false, Bool.false_and]; decide), Head.planFor, if_neg h]
    exact ⟨harm, rfl⟩

/-! ### Writes of the angle's words -/

/-- The plain fields of the word of ASRC stand apart from ALIGN (R52). -/
theorem asrcWord_plain : ∀ f ∈ fieldsIn headFields 0x10004, f.acc = .rw → headOwn f = false →
    f.key ≠ AngleReg.ALIGN.key ∧ f.key ≠ AngleReg.ALIGN_REFUSED.key ∧ 0 < f.width ∧
      (f.lsb + f.width ≤ AngleReg.ALIGN.lsb ∨ AngleReg.ALIGN.lsb + AngleReg.ALIGN.width ≤ f.lsb) := by decide +kernel

/-- A field outside a word, or without a store of its own there, is as before the stores. -/
theorem Head.stored_keeps {off V : Nat} {x : Head} (hb : ¬(0x70100 ≤ off ∧ off < 0x70208)) :
    x.KeepsFields (x.stored off V) (fieldsIn headFields off) :=
  fun _ _ hn => Head.stored_ne hb fun f hf _ => hn f (mem_headStored.1 hf).1

/-- A write of ALIGN (R46). -/
theorem Head.align_written (x : Head) (v : Word) : let y := (x.stored 0x10004 (forced AngleReg.ALIGN 1 v)).alignWrite
    y.Took 0x10004 v ∧ y.b AngleReg.ALIGN = (if x.b AngleReg.RUNNING then x.b AngleReg.ALIGN else true) ∧
      y.b AngleReg.ALIGN_REFUSED = (x.b AngleReg.RUNNING || x.b AngleReg.ALIGN_REFUSED) ∧
      x.KeepsFields y (fieldsIn headFields 0x10004 ++ [AngleReg.ALIGN_REFUSED]) := by
  have hother {g : Fld} (hg : ∀ f ∈ headStored 0x10004, f.acc = .rw ∨ f.acc = .w1c → g.key ≠ f.key) :
      (x.stored 0x10004 (forced AngleReg.ALIGN 1 v)).r g = x.r g := Head.stored_ne (by decide) hg
  obtain ⟨halign, hrefused⟩ := Head.alignWrite_align (x.stored 0x10004 (forced AngleReg.ALIGN 1 v))
  have hrun := Head.b_of (hother (g := AngleReg.RUNNING) (by decide +kernel))
  refine ⟨Head.took_of (V := forced AngleReg.ALIGN 1 v) (x := x) (by decide) (fun f hf hrw hown => ?_)
    (fun f hf hrw hown => ?_), ?_, ?_, fun g _ hn => ?_⟩
  · obtain ⟨h1, h2, -, -⟩ := asrcWord_plain f hf hrw hown
    exact Head.alignWrite_r h1 h2
  · obtain ⟨-, -, hw, hd⟩ := asrcWord_plain f hf hrw hown
    exact bits_forced_of_apart (by decide) hw hd 1 v
  · rw [halign, hrun, Head.b_of (hother (g := AngleReg.ALIGN) (by decide +kernel))]
  · rw [hrefused, hrun, Head.b_of (hother (g := AngleReg.ALIGN_REFUSED) (by decide +kernel))]
  · rw [Head.alignWrite_r (hn _ (List.mem_append_left _ (by decide +kernel))) (hn _ (List.mem_append_right _ (by simp)))]
    exact hother fun f hf _ => hn f (List.mem_append_left _ (mem_headStored.1 hf).1)

/-- A write of DISC_OFFSET (R49). -/
theorem Head.discOffset_written (c : Ctx) (v : Nat) (x : Head) : let y := x.discOffsetWrite c (v % 2 ^ 24)
    y.r AngleReg.DISC_OFFSET = v % 2 ^ 24 ∧ y.angle.tPrev = x.angle.tPrev ∧
      y.angle.pos = (if x.b AngleReg.VIRTUAL then x.angle.pos
        else x.angle.pos + wrap24 ((v % 2 ^ 24 : Nat) - (x.r AngleReg.DISC_OFFSET : Int)) * 2 ^ 24) ∧
      x.KeepsFields y [AngleReg.DISC_OFFSET, AngleReg.SKIP, AngleReg.SKIP_COUNT] := by
  have hoff : (x.w AngleReg.DISC_OFFSET (v % 2 ^ 24)).r AngleReg.DISC_OFFSET = v % 2 ^ 24 :=
    (Head.r_w ..).trans (Nat.mod_mod _ _)
  have hvirt : (x.w AngleReg.DISC_OFFSET (v % 2 ^ 24)).b AngleReg.VIRTUAL = x.b AngleReg.VIRTUAL :=
    Head.b_of (Head.keep_w (by decide) rfl)
  have hkeeps : x.KeepsFields (x.discOffsetWrite c (v % 2 ^ 24)) [AngleReg.DISC_OFFSET, AngleReg.SKIP, AngleReg.SKIP_COUNT] :=
    Head.keepsFields_of [(2097408, 2097409), (2098051, 2098052), (2098176, 2098177)] (by decide +kernel) fun _ hg =>
      Head.discOffsetWrite_keep hg c _ rfl
  refine ⟨?_, ?_, ?_, hkeeps⟩ <;> unfold Head.discOffsetWrite <;> dsimp only <;> rw [hvirt]
  · exact Head.keep_ite hoff (Head.stepPos_keep (by decide) c _ hoff)
  · split
    · rfl
    · exact (Head.stepPos_angle c _ _).2
  · split
    · rfl
    · exact (Head.stepPos_angle c _ _).1

/-- A write of VRATE (R50). -/
theorem Head.vrate_written (x : Head) (v : Word) : let y := x.stored 0x1000C v.toNat
    y.r AngleReg.VRATE = v.toNat ∧ y.angle = x.angle ∧ x.KeepsFields y [AngleReg.VRATE] := by
  have hv : AngleReg.VRATE.bits v.toNat = v.toNat := by
    rw [Fld.bits_eq _ _ (by decide)]
    exact (Nat.mod_eq_of_lt (by simpa [AngleReg.VRATE] using v.isLt)).trans (Nat.div_one _)
  have hword : fieldsIn headFields 0x1000C = [AngleReg.VRATE] := by decide +kernel
  refine ⟨(Head.stored_rw (by decide) (by decide +kernel) rfl).trans hv, ?_, ?_⟩
  · rw [Head.stored_eq (by decide)]
  · rw [← hword]
    exact Head.stored_keeps (by decide)

/-- A write of SPARE_ARM (R62): SPARE_K is stored, and its switch armed. -/
theorem Head.spare_written (c : Ctx) (x : Head) (v : Word) :
    let y := (x.stored 0x1002C (forced AngleReg.SPARE_ARM 1 v)).spareArm c
    let want := if v.toNat % 64 < 32 then some (v.toNat % 64) else none
    y.r AngleReg.SPARE_K = v.toNat % 64 ∧
    (want = x.coveredNow → x.switchTe ≤ c.now → y.b AngleReg.SPARE_ARM = false ∧ y.b AngleReg.SPARE_DONE = true ∧
      y.angle.spare = none) ∧
    (want = x.coveredNow → c.now < x.switchTe → y.b AngleReg.SPARE_ARM = true ∧
      y.b AngleReg.SPARE_DONE = x.b AngleReg.SPARE_DONE ∧
      y.angle.spare = some { release := none, cover := none, notBefore := x.switchTe }) ∧
    (want ≠ x.coveredNow → y.b AngleReg.SPARE_ARM = true ∧
      y.angle.spare = some { release := x.coveredNow, cover := want, notBefore := x.switchTe }) ∧
    x.KeepsFields y [AngleReg.SPARE_K, AngleReg.SPARE_ARM, AngleReg.SPARE_DONE] := by
  intro y want
  obtain ⟨z, hz⟩ : ∃ z, z = x.stored 0x1002C (forced AngleReg.SPARE_ARM 1 v) := ⟨_, rfl⟩
  have hy : y = z.spareArm c := congrArg (Head.spareArm c) hz.symm
  have hk : z.r AngleReg.SPARE_K = v.toNat % 64 := by
    rw [hz, Head.stored_rw (by decide) (by decide +kernel) rfl, bits_forced_of_apart (by decide) (by decide) (by decide),
      Fld.bits_eq _ _ (by decide)]
    exact congrArg (· % 64) (Nat.div_one _)
  have hangle : z.angle = x.angle := by rw [hz, Head.stored_eq (by decide)]
  have hcov : z.coveredNow = x.coveredNow := by unfold Head.coveredNow; rw [hangle]
  have hte : z.switchTe = x.switchTe := by unfold Head.switchTe; rw [hangle]
  have hdone : z.b AngleReg.SPARE_DONE = x.b AngleReg.SPARE_DONE := by
    rw [hz]
    exact Head.b_of (Head.stored_ne (by decide) (by decide +kernel))
  obtain ⟨h1, h2, h3⟩ := Head.spareArm_cases c z
  rw [hk, hcov, hte] at h1 h2 h3
  rw [hdone] at h2
  have hword : fieldsIn headFields 0x1002C = [AngleReg.SPARE_K, AngleReg.SPARE_ARM] := by decide +kernel
  rw [hy]
  refine ⟨(Head.spareArm_r c (by decide) (by decide)).trans hk, h1, h2, h3, fun g hg hn => ?_⟩
  have hstored : z.r g = x.r g := hz ▸ Head.stored_keeps (by decide) g hg fun f hf => hn f (by
    rw [hword] at hf
    exact List.mem_append_left [AngleReg.SPARE_DONE] hf)
  exact (Head.spareArm_r c (hn _ (by simp)) (hn _ (by simp))).trans hstored

/-- Settles O20: each word by its stores and by what follows them. -/
theorem angleRegisters : Obligations.AngleRegisters := by
  unfold Obligations.AngleRegisters
  intro s q h v x
  have hx : (s.turnTo 3).head h = x := State.turnTo_head 3 s h
  refine ⟨fun ok => ⟨?_, fun hv => ?_⟩, fun ok => ?_, fun ok => ?_, fun ok => ?_⟩
  · have hbit : bitOf (forced AngleReg.ALIGN 1 v) 2 = true :=
      (forced_testBit AngleReg.ALIGN 1 v (by decide) 2).trans (if_pos (by decide))
    refine headRow_completes (f := AngleReg.ALIGN) (k := 1) (State.turnTo_accessOf ok 3) (by decide +kernel) (by decide)
      (by decide) (by decide) ?_
    rw [hx, show AngleReg.ALIGN.off = 0x10004 from rfl, Head.writeAct_asrc, if_pos hbit]
    exact Head.align_written x v
  · refine headWord_completes (off := 0x10004) (State.turnTo_accessOf ok 3) (by decide +kernel) (by decide)
      (by decide) (by decide) ?_
    rw [hx, Head.writeAct_asrc, if_neg (by rw [bitOf, hv]; decide)]
    exact ⟨Head.took_of (V := v.toNat) (x := x) (by decide) (fun _ _ _ _ => rfl) (fun _ _ _ _ => rfl),
      Head.b_of (Head.stored_ne (by decide) (by decide +kernel)), Head.stored_keeps (by decide)⟩
  · refine headWord_completes (off := 0x10008) (State.turnTo_accessOf ok 3) (by decide +kernel) (by decide)
      (by decide) (by decide) ?_
    rw [hx, Head.stored_skip (by decide +kernel) (by decide), Head.writeAct_discOffset]
    exact Head.discOffset_written _ _ x
  · refine headWord_completes (off := 0x1000C) (State.turnTo_accessOf ok 3) (by decide +kernel) (by decide)
      (by decide) (by decide) ?_
    rw [hx, Head.writeAct_vrate]
    exact Head.vrate_written x v
  · intro now
    have hbit : bitOf (forced AngleReg.SPARE_ARM 1 v) 6 = true :=
      (forced_testBit AngleReg.SPARE_ARM 1 v (by decide) 6).trans (if_pos (by decide))
    refine headRow_completes (f := AngleReg.SPARE_ARM) (k := 1) (State.turnTo_accessOf ok 3) (by decide +kernel) (by decide)
      (by decide) (by decide) ?_
    rw [hx, show AngleReg.SPARE_ARM.off = 0x1002C from rfl, Head.writeAct_spare, if_pos hbit]
    have hnow : now = ((s.turnTo 3).ctx h).now := congrArg Ctx.now (State.atHead_ctx ok)
    rw [hnow]
    exact Head.spare_written _ x v

end Sys2Proof.Machine

end

section

namespace Sys2Proof.Machine

/-! ### The refresh of a head leaves its angle base alone -/

theorem Head.issue_angle (c : Ctx) (m : RCmd) (x : Head) : (x.issue c m).angle = x.angle := by
  unfold Head.issue
  split <;> rfl

theorem Head.laser_angle (c : Ctx) (src : CmdSrc) (b mode rp wp : Nat) (x : Head) : (x.laser c src b mode rp wp).angle = x.angle :=
  Head.issue_angle c _ x

/-- A fold of steps that leave the angle base leaves it. -/
theorem Head.foldl_angle {α : Type} {f : Head → α → Head} (hf : ∀ x a, (f x a).angle = x.angle) (l : List α) (x : Head) :
    (l.foldl f x).angle = x.angle := by
  induction l generalizing x with
  | nil => rfl
  | cons a l ih => exact (ih _).trans (hf x a)

theorem Head.angle_ite {a b : Head} {v : AngleSt} {p : Prop} [Decidable p] (ha : a.angle = v) (hb : b.angle = v) :
    (if p then a else b).angle = v := by
  split
  · exact ha
  · exact hb

theorem Head.actsLoose_angle (c : Ctx) (x : Head) : (x.actsLoose c).angle = x.angle := by
  unfold Head.actsLoose
  extract_lets +onlyGivenNames -merge -useContext -lift loop l
  exact Head.foldl_angle (fun _ _ => Head.issue_angle c _ _) _ _

theorem Head.refreshMode_angle (x : Head) : x.refreshMode.angle = x.angle := Head.refreshBank_angle _

theorem Head.lasersRead_angle (c : Ctx) (x : Head) : (x.lasersRead c).angle = x.angle := by
  unfold Head.lasersRead
  refine Head.angle_ite ?_ rfl
  extract_lets +onlyGivenNames -merge -useContext -lift l y
  have hy : y.angle = x.angle := Head.foldl_angle (fun _ _ => Head.laser_angle ..) (List.range 32) x
  clear_value y
  exact hy

theorem Head.leaveWrite_angle (x : Head) : x.leaveWrite.angle = x.angle := by
  unfold Head.leaveWrite
  exact Head.angle_ite (Head.refreshMode_angle _) rfl

theorem Head.writeSettle_angle (c : Ctx) (x : Head) : (x.writeSettle c).angle = x.angle := by
  unfold Head.writeSettle
  split
  · rfl
  refine Head.angle_ite rfl ?_
  extract_lets +onlyGivenNames -merge -useContext -lift w y
  have hy : y.angle = x.angle := Head.lasersRead_angle c _
  split
  · exact hy
  · exact Head.angle_ite hy ((Head.leaveWrite_angle _).trans hy)

theorem Head.writeAbort_angle (c : Ctx) (cause : Nat) (x : Head) : (x.writeAbort c cause).angle = x.angle := by
  unfold Head.writeAbort
  extract_lets +onlyGivenNames -merge -useContext -lift y
  have hy : y.angle = x.angle := Head.writeSettle_angle c x
  split
  · exact hy
  refine Head.angle_ite hy (Head.angle_ite hy ?_)
  extract_lets +onlyGivenNames -merge -useContext -lift te opened m z w a₂ a b
  have hz : z.angle = x.angle := Head.angle_ite ((Head.issue_angle c _ y).trans hy) hy
  have ha : a.angle = x.angle := (Head.leaveWrite_angle _).trans hz
  exact Head.angle_ite (a := a.lasersRead c) (b := a) ((Head.lasersRead_angle c a).trans ha) ha

theorem Head.refreshHold_angle (c : Ctx) (x : Head) : (x.refreshHold c).angle = x.angle := by
  unfold Head.refreshHold
  extract_lets +onlyGivenNames -merge -useContext -lift req l y want
  have hy : y.angle = x.angle := Head.angle_ite rfl rfl
  exact Head.angle_ite hy (Head.angle_ite hy hy)

theorem Head.refreshInhibit_angle (c : Ctx) (x : Head) : (x.refreshInhibit c).angle = x.angle := by
  unfold Head.refreshInhibit
  exact Head.angle_ite (Head.writeAbort_angle ..) rfl

theorem Head.genEnd_angle (g : Fin 2) (code : Nat) (x : Head) : (x.genEnd g code).angle = x.angle := by
  unfold Head.genEnd
  extract_lets +onlyGivenNames -merge -useContext -lift homing y z
  have hz : z.angle = x.angle := Head.angle_ite (a := y.w .. |>.flag ..) (b := y) rfl rfl
  exact hz

theorem Head.refreshHeld_angle (x : Head) : x.refreshHeld.angle = x.angle := by
  refine Head.foldl_angle (fun x g => ?_) _ x
  extract_lets +onlyGivenNames -merge -useContext -lift st
  refine Head.angle_ite (Head.angle_ite rfl ?_) (Head.angle_ite rfl rfl)
  extract_lets +onlyGivenNames -merge -useContext -lift y
  have hy : y.angle = x.angle := Head.angle_ite rfl (Head.genEnd_angle g 5 x)
  exact hy

theorem Head.calEnd_angle (c : Ctx) (status : Nat) (fit : List (Nat × Nat × Nat)) (x : Head) :
    (x.calEnd c status fit).angle = x.angle := by
  unfold Head.calEnd
  refine Head.angle_ite ?_ rfl
  extract_lets +onlyGivenNames -merge -useContext -lift m y
  have hy : y.angle = x.angle := Head.angle_ite (a := x.put ..) rfl rfl
  exact hy

theorem Head.calCheck_angle (c : Ctx) (x : Head) : (x.calCheck c).angle = x.angle := by
  unfold Head.calCheck
  refine Head.angle_ite ?_ rfl
  extract_lets +onlyGivenNames -merge -useContext -lift m y
  exact Head.angle_ite (Head.calEnd_angle ..) rfl

theorem Head.refresh_angle (c : Ctx) (x : Head) : (x.refresh c).angle = x.angle :=
  (Head.calCheck_angle c _).trans <| (Head.refreshHeld_angle _).trans <| (Head.refreshInhibit_angle c _).trans <|
    (Head.refreshHold_angle c _).trans <| (Head.refreshMode_angle _).trans <|
      (Head.writeSettle_angle c _).trans (Head.actsLoose_angle c x)

/-! ### Slot 0 begins a new pass at the crossing -/

theorem Head.skip_angle (n : Nat) (x : Head) : (x.skip n).angle = x.angle := by
  unfold Head.skip
  exact Head.angle_ite rfl rfl

theorem Head.skip_schedMem (n : Nat) (x : Head) : (x.skip n).schedMem = x.schedMem := by
  unfold Head.skip
  split <;> rfl

/-- Slot 0 as it restarts: what has not fired is counted, and its owed events are dropped. -/
def Head.slot0Left (c : Ctx) (x : Head) : Head :=
  Head.dropOwed 0 (if x.angle.slot0.running then x.skip (x.unfired c 0).length else x)

theorem Head.slot0Left_eq (c : Ctx) (x : Head) :
    (x.slot0Left c).angle = { x.angle with owed := x.angle.owed.filter fun o => o.slot != 0 } ∧
      (x.slot0Left c).schedMem = x.schedMem := by
  unfold Head.slot0Left Head.dropOwed
  split
  · rw [Head.skip_angle, Head.skip_schedMem]
    exact ⟨rfl, rfl⟩
  · exact ⟨rfl, rfl⟩

/-- What a restart of slot 0 leaves: the turn, slot 1 and the schedules' memory. -/
structure Head.OnSlot0 (x y : Head) : Prop where
  turn : y.angle.turn = x.angle.turn
  slot1 : y.angle.slot1 = x.angle.slot1
  slot1Ended : y.angle.slot1Ended = x.angle.slot1Ended
  schedMem : y.schedMem = x.schedMem

theorem Head.OnSlot0.ite {x a b : Head} {p : Prop} [Decidable p] (ha : x.OnSlot0 a) (hb : x.OnSlot0 b) :
    x.OnSlot0 (if p then a else b) := by
  split
  · exact ha
  · exact hb

theorem Head.slot0Restart_onSlot0 (c : Ctx) (x : Head) : x.OnSlot0 (x.slot0Restart c) := by
  obtain ⟨ha, hm⟩ := x.slot0Left_eq c
  have hleft : x.OnSlot0 (x.slot0Left c) := ⟨by rw [ha], by rw [ha], by rw [ha], hm⟩
  have hslot (f : Slot → Slot) (y : Head) (hy : x.OnSlot0 y) : x.OnSlot0 (y.onSlotOf 0 f) :=
    ⟨hy.turn, hy.slot1, hy.slot1Ended, hy.schedMem⟩
  unfold Head.slot0Restart
  extract_lets +onlyGivenNames -merge -useContext -lift y z n
  have hz : x.OnSlot0 z := hleft
  clear_value z
  refine .ite ?_ (hslot _ _ hz)
  extract_lets +onlyGivenNames -merge -useContext -lift a w
  have hw : x.OnSlot0 w := ⟨hz.turn, hz.slot1, hz.slot1Ended, hz.schedMem⟩
  clear_value w
  refine .ite (hslot _ _ hw) ?_
  have hslot' := hslot (fun s => { s with running := false, done := [] }) w hw
  exact ⟨hslot'.turn, hslot'.slot1, hslot'.slot1Ended, hslot'.schedMem⟩

/-- Slot 0 without a pending SLOT0_SCHED keeps its schedule and starts a pass at the crossing (R56). -/
theorem Head.slot0Restart_same (c : Ctx) {x : Head} (h : x.angle.slot0Wait = false) :
    (x.slot0Restart c).angle.slot0 = { x.angle.slot0 with startTurn := x.angle.turn, done := [], ended := false } ∧
      x.KeepsFields (x.slot0Restart c) [AngleReg.SKIP, AngleReg.SKIP_COUNT] := by
  obtain ⟨ha, -⟩ := x.slot0Left_eq c
  have hw : (x.slot0Left c).angle.slot0Wait = false := by rw [ha]; exact h
  have hr : x.slot0Restart c = (x.slot0Left c).onSlotOf 0 fun s =>
      { s with startTurn := (x.slot0Left c).angle.turn, done := [], ended := false } := by
    unfold Head.slot0Restart
    exact if_neg (by rw [Bool.not_eq_true]; exact hw)
  rw [hr]
  constructor
  · show ({ (x.slot0Left c).angle.slot0 with startTurn := (x.slot0Left c).angle.turn, done := [], ended := false } : Slot) = _
    rw [ha]
  · refine Head.keepsFields_of [(2098051, 2098052), (2098176, 2098177)] (by decide +kernel) fun g hg => ?_
    exact Head.onSlotOf_keep rfl 0 _ (Head.dropOwed_keep rfl 0
      (Head.keep_ite (Head.skip_keep hg _ rfl) rfl))

/-! ### Slot 1 starts at the crossing -/

/-- The state a start leads to (R52). -/
theorem Head.setHstate_start (st : Nat) {x : Head} (hst : st < 10) (h : x.r LandReg.HSTATE ≠ 10) :
    (x.setHstate st).r LandReg.HSTATE = st ∧ (x.setHstate st).angle = x.angle ∧
      (x.setHstate st).b AngleReg.START = x.b AngleReg.START ∧ (x.setHstate st).b AngleReg.RUNNING = x.b AngleReg.RUNNING := by
  unfold Head.setHstate
  dsimp only
  rw [if_neg (by omega), if_neg h]
  split
  · exact ⟨‹_›, rfl, rfl, rfl⟩
  · have hw : (x.w LandReg.HSTATE st).r LandReg.HSTATE = st :=
      (Head.r_w ..).trans (Nat.mod_eq_of_lt (hst.trans (by decide)))
    exact ⟨Head.keep_flag (by decide) hw, rfl, Head.b_of (Head.keep_flag (by decide) (Head.keep_w (by decide) rfl)),
      Head.b_of (Head.keep_flag (by decide) (Head.keep_w (by decide) rfl))⟩

/-- Slot 1 with the schedule that START names, before the state of the head follows (R52, R56). -/
def Head.slot1Begun (x : Head) : Head :=
  let y := ((x.put AngleReg.START false).dropOwed 1).onSlotOf 1 fun _ =>
    { running := true, sched := x.r AngleReg.SCHED, startTurn := x.angle.turn, done := [], ended := false }
  { y.put AngleReg.RUNNING true with angle := { y.angle with tail := false } }

/-- The state of a head whose slot 1 starts. -/
def Head.startState (x : Head) : Head :=
  if x.b LandReg.S1_KIND then { x with land := { x.land with origin := x.r LandReg.HSTATE } }.setHstate 9
  else x.setHstate 7

theorem Head.slot1Start_eq (c : Ctx) {x : Head} (hs : x.schedOk (x.r AngleReg.SCHED) = true) :
    x.slot1Start c = x.slot1Begun.startState.refresh c := by
  unfold Head.slot1Start
  exact if_pos hs

theorem Head.slot1Begun_b (x : Head) : x.slot1Begun.b AngleReg.START = false ∧ x.slot1Begun.b AngleReg.RUNNING = true ∧
    x.slot1Begun.b LandReg.S1_KIND = x.b LandReg.S1_KIND ∧ x.slot1Begun.r LandReg.HSTATE = x.r LandReg.HSTATE :=
  ⟨(Head.b_of (Head.keep_put (x := x.put AngleReg.START false) (by decide) rfl)).trans (Head.b_put x false rfl),
    Head.b_put (x.put AngleReg.START false) true rfl,
    Head.b_of (Head.keep_put (by decide) (Head.keep_put (x := x) (by decide) rfl)),
    Head.keep_put (by decide) (Head.keep_put (x := x) (by decide) rfl)⟩

/-- A start leads to state 9 for a schedule of S1_KIND and to state 7 otherwise (R52). -/
theorem Head.startState_state {x : Head} (h : x.r LandReg.HSTATE ≠ 10) :
    x.startState.r LandReg.HSTATE = (if x.b LandReg.S1_KIND then 9 else 7) ∧ x.startState.angle = x.angle ∧
      x.startState.b AngleReg.START = x.b AngleReg.START ∧ x.startState.b AngleReg.RUNNING = x.b AngleReg.RUNNING := by
  unfold Head.startState
  split
  · exact Head.setHstate_start (x := { x with land := { x.land with origin := x.r LandReg.HSTATE } }) 9 (by decide) h
  · exact Head.setHstate_start 7 (by decide) h

/-- A schedule that starts in slot 1 (R52, R56). -/
theorem Head.slot1Start_ok (c : Ctx) {x : Head} (hok : x.startOk = true) (hs : x.schedOk (x.r AngleReg.SCHED) = true) :
    let y := x.slot1Start c
    y.b AngleReg.START = false ∧ y.b AngleReg.RUNNING = true ∧
      y.r LandReg.HSTATE = (if x.b LandReg.S1_KIND then 9 else 7) ∧
      y.angle.slot1 = { running := true, sched := x.r AngleReg.SCHED, startTurn := x.angle.turn, done := [], ended := false } := by
  obtain ⟨hstart, hrun, hkind, hstate⟩ := x.slot1Begun_b
  have h10 : x.slot1Begun.r LandReg.HSTATE ≠ 10 := by
    rw [hstate]
    intro h
    unfold Head.startOk at hok
    dsimp only at hok
    rw [h] at hok
    exact absurd hok (by simp)
  obtain ⟨hst, hangle, hstart', hrun'⟩ := Head.startState_state h10
  rw [hkind] at hst
  rw [Head.slot1Start_eq c hs]
  refine ⟨?_, ?_, Head.refresh_hstate (by split <;> decide) c hst, ?_⟩
  · exact (Head.b_of (Head.refresh_keep (by decide) c rfl)).trans (hstart'.trans hstart)
  · exact (Head.b_of (Head.refresh_keep (by decide) c rfl)).trans (hrun'.trans hrun)
  · rw [Head.refresh_angle, hangle]
    rfl

/-! ### The crossing -/

/-- Slot 1 begins another pass at the crossing (R59). -/
def Head.slot1Again (x : Head) : Head :=
  let y := (x.dropOwed 1).onSlotOf 1 fun sl => { sl with startTurn := x.angle.turn, done := [] }
  { y with angle := { y.angle with restart1 := false } }

/-- The head at its crossing. -/
def Head.turned (c : Ctx) (x : Head) : Head := { x with angle := { x.angle with turn := x.posAt c.now / rev48 } }

/-- The head after what the schedules that run already do at its crossing (R56, R59). -/
def Head.passed (c : Ctx) (x : Head) : Head :=
  if x.angle.restart1 then ((x.turned c).slot0Restart c).slot1Again else (x.turned c).slot0Restart c

/-- The crossing's reads of the schedule that slot 0 takes over. -/
def State.slot0Read (h : Fin 32) (s : State) : State :=
  let u := s.onHead h (Head.turned (s.ctx h))
  if (s.head h).angle.slot0Wait then u.readSched h ((s.head h).r AngleReg.SLOT0_SCHED) else u

/-- The crossing before a START is looked at (R56, R59). -/
def State.passed (h : Fin 32) (s : State) : State :=
  let u := (s.slot0Read h).onHead h (Head.slot0Restart (s.ctx h))
  if (s.head h).angle.restart1 then u.onHead h Head.slot1Again else u

theorem State.crossing_invalid {s : State} {h : Fin 32}
    (hv : (s.head h).b AngleReg.VALID = false ∨ s.timeValid (tileOf h) = false) :
    s.crossing h = s.setHead h ((s.head h).turned (s.ctx h)) := by
  have hhead : (s.onHead h (Head.turned (s.ctx h))).head h = (s.head h).turned (s.ctx h) := State.setHead_head ..
  unfold State.crossing
  refine if_neg ?_
  rw [Bool.and_eq_true, not_and_or, Bool.not_eq_true, Bool.not_eq_true]
  exact hv.imp_left (Head.b_of (congrArg (·.r AngleReg.VALID) hhead)).trans

theorem State.crossing_valid {s : State} {h : Fin 32} (hv : (s.head h).b AngleReg.VALID = true)
    (ht : s.timeValid (tileOf h) = true) : s.crossing h = let u := s.passed h
      if (s.head h).b AngleReg.START && !u.startPaused h && u.startAdmitted h then
        (u.readSched h ((s.head h).r AngleReg.SCHED)).onHead h fun x =>
          if x.startOk then x.slot1Start (s.ctx h) else x.startRefused
      else u := by
  have hhead : (s.onHead h (Head.turned (s.ctx h))).head h = (s.head h).turned (s.ctx h) := State.setHead_head ..
  unfold State.crossing
  extract_lets +onlyGivenNames -merge -useContext -lift c u x
  have hx : x = (s.head h).turned c := hhead
  clear_value x
  subst hx
  have hvalid : (((s.head h).turned c).b AngleReg.VALID && u.timeValid (tileOf h)) = true := by
    rw [Bool.and_eq_true]
    exact ⟨hv, ht⟩
  rw [if_pos hvalid]
  rfl

theorem State.slot0Read_head (h k : Fin 32) (s : State) :
    (s.slot0Read h).head k = if k = h then (s.head h).turned (s.ctx h) else s.head k := by
  have hu : (s.onHead h (Head.turned (s.ctx h))).head k = if k = h then (s.head h).turned (s.ctx h) else s.head k := by
    split
    · subst k
      exact State.setHead_head ..
    · exact State.setHead_head_ne _ _ _ _ ‹_›
  unfold State.slot0Read
  dsimp only
  split
  · exact (State.readSched_head ..).trans hu
  · exact hu

theorem State.passed_head (h k : Fin 32) (s : State) :
    (s.passed h).head k = if k = h then (s.head h).passed (s.ctx h) else s.head k := by
  have hread := State.slot0Read_head h h s
  rw [if_pos rfl] at hread
  unfold State.passed Head.passed
  by_cases hk : k = h
  · subst k
    rw [if_pos rfl]
    split
    · rw [State.onHead_def, State.setHead_head, State.onHead_def, State.setHead_head, hread]
    · rw [State.onHead_def, State.setHead_head, hread]
  · have hreadk := State.slot0Read_head h k s
    rw [if_neg hk] at hreadk ⊢
    split
    · rw [State.onHead_def, State.setHead_head_ne _ _ _ _ hk, State.onHead_def, State.setHead_head_ne _ _ _ _ hk, hreadk]
    · rw [State.onHead_def, State.setHead_head_ne _ _ _ _ hk, hreadk]

theorem State.onHead_noted (s : State) (h : Fin 32) (f : Head → Head) : s.TilesNoted (s.onHead h f) := fun _ => .refl _

theorem State.passed_noted (h : Fin 32) (s : State) : s.TilesNoted (s.passed h) := by
  have hread : s.TilesNoted (s.slot0Read h) := by
    unfold State.slot0Read
    dsimp only
    split
    · exact .trans (State.onHead_noted _ _ _) (State.readSched_noted _ _ _)
    · exact State.onHead_noted _ _ _
  unfold State.passed
  dsimp only
  split
  · exact hread.trans (.trans (State.onHead_noted _ _ _) (State.onHead_noted _ _ _))
  · exact hread.trans (State.onHead_noted _ _ _)

/-- Without a schedule to take over, the crossing changes its head alone. -/
theorem State.passed_eq {h : Fin 32} {s : State} (hw : (s.head h).angle.slot0Wait = false) :
    s.passed h = s.setHead h ((s.head h).passed (s.ctx h)) := by
  have hread : s.slot0Read h = s.setHead h ((s.head h).turned (s.ctx h)) := by
    unfold State.slot0Read
    rw [hw]
    rfl
  unfold State.passed Head.passed
  rw [hread]
  split
  · rw [State.onHead_def, State.onHead_def, State.setHead_head, State.setHead_head, State.setHead_setHead,
      State.setHead_setHead]
  · rw [State.onHead_def, State.setHead_head, State.setHead_setHead]

theorem State.passed_cycle (h : Fin 32) (s : State) : (s.passed h).cycle = s.cycle := by
  have hread : (s.slot0Read h).cycle = s.cycle := by
    unfold State.slot0Read
    dsimp only
    split
    · exact ((State.readSched_changes (ps := [.tiles, .atria]) (by decide) h _ (.refl _)).time (by decide)).1
    · rfl
  unfold State.passed
  dsimp only
  split <;> exact hread

/-- What the running schedules leave of the head: the turn is the crossing's, and slot 1's end and the schedules' memory stay. -/
theorem Head.passed_angle (c : Ctx) (x : Head) : (x.passed c).angle.turn = x.posAt c.now / rev48 ∧
    (x.passed c).angle.slot1Ended = x.angle.slot1Ended ∧ (x.passed c).schedMem = x.schedMem := by
  have h := (x.turned c).slot0Restart_onSlot0 c
  unfold Head.passed
  split
  · exact ⟨h.turn, h.slot1Ended, h.schedMem⟩
  · exact ⟨h.turn, h.slot1Ended, h.schedMem⟩

theorem Head.passed_keep {f : Fld} {v : Nat} (hf : outKeys [(2098051, 2098052), (2098053, 2098054), (2098176, 2098177)] f.key = true)
    (c : Ctx) {x : Head} (hs : x.r f = v) : (x.passed c).r f = v := by
  have h : ((x.turned c).slot0Restart c).r f = v := Head.slot0Restart_keep hf c hs
  unfold Head.passed
  split
  · exact h
  · exact h

theorem Head.schedOk_of {x y : Head} (h : y.schedMem = x.schedMem) (n : Nat) : y.schedOk n = x.schedOk n := by
  unfold Head.schedOk Head.schedDir Head.entry
  rw [h]

/-- What the running schedules do does not hold back a START (R52, R437). -/
theorem State.passed_startPaused (h : Fin 32) (s : State) : (s.passed h).startPaused h = s.startPaused h := by
  have ht := State.passed_noted h s (tileOf h)
  unfold State.startPaused
  rw [State.passed_head, if_pos rfl, (Head.passed_angle _ _).2.1, State.passed_cycle]
  dsimp only
  rw [ht.field HeatReg.THROT_LEVEL (by decide), ht.field HeatReg.PAUSE_UNIT (by decide)]

theorem State.passed_startAdmitted (h : Fin 32) (s : State) : (s.passed h).startAdmitted h = s.startAdmitted h := by
  have ht := State.passed_noted h s (tileOf h)
  have hb (k : Fin 32) {f : Fld} (hf : outKeys [(2098051, 2098052), (2098053, 2098054), (2098176, 2098177)] f.key = true) :
      ((s.passed h).head k).b f = (s.head k).b f := by
    rw [State.passed_head]
    split
    · subst k
      exact Head.b_of (Head.passed_keep hf _ rfl)
    · rfl
  unfold State.startAdmitted
  dsimp only
  rw [ht.field HeatReg.CAP_STEP (by decide)]
  simp only [hb _ (f := AngleReg.RUNNING) (by decide), hb _ (f := AngleReg.START) (by decide)]

/-- A START that nothing holds back is served at the crossing (R52, R56). -/
theorem State.crossing_start {s : State} {h : Fin 32} (hv : (s.head h).b AngleReg.VALID = true)
    (ht : s.timeValid (tileOf h) = true) (hs : (s.head h).b AngleReg.START = true) (hok : (s.head h).startOk = true)
    (hp : s.startPaused h = false) (ha : s.startAdmitted h = true) :
    s.crossing h = ((s.passed h).readSched h ((s.head h).r AngleReg.SCHED)).setHead h
      (((s.head h).passed (s.ctx h)).slot1Start (s.ctx h)) := by
  have hhead : ((s.passed h).readSched h ((s.head h).r AngleReg.SCHED)).head h = (s.head h).passed (s.ctx h) := by
    rw [State.readSched_head, State.passed_head, if_pos rfl]
  have hok' : ((s.head h).passed (s.ctx h)).startOk = true := by
    unfold Head.startOk at hok ⊢
    rw [Head.passed_keep (by decide) (s.ctx h) rfl, Head.b_of (Head.passed_keep (by decide) (s.ctx h) rfl)]
    exact hok
  rw [State.crossing_valid hv ht]
  dsimp only
  rw [State.passed_startPaused, State.passed_startAdmitted, hs, hp, ha, State.onHead_def, hhead, if_pos hok']
  rfl

/-- `outKeys` by comparisons that the kernel computes at once, for a list of many ranges. -/
def outRanges (ws : List (Nat × Nat)) (k : Nat) : Bool := ws.all fun p => Nat.blt k p.1 || Nat.ble p.2 k

theorem outRanges_eq (ws : List (Nat × Nat)) (k : Nat) : outRanges ws k = outKeys ws k := by
  unfold outRanges outKeys
  refine congrArg ws.all (funext fun p => ?_)
  rw [Bool.eq_iff_iff, Bool.or_eq_true, decide_eq_true_eq, Nat.blt_eq, Nat.ble_eq]

/-- What a step leaves, where its keys are many: the ranges are tried before the fields. -/
theorem Head.keepsFields_of_ranges {x y : Head} {fs : List Fld} (ws : List (Nat × Nat))
    (hc : (headFields.map Fld.key).all (fun k => outRanges ws k || fs.any fun g => k == g.key) = true)
    (h : ∀ f : Fld, outKeys ws f.key = true → y.r f = x.r f) : x.KeepsFields y fs := by
  intro f hf hn
  have hk := List.all_eq_true.1 hc f.key (List.mem_map_of_mem hf)
  rw [outRanges_eq, Bool.or_eq_true] at hk
  rcases hk with hk | hk
  · exact h f hk
  · obtain ⟨g, hg, e⟩ := List.any_eq_true.1 hk
    exact absurd (beq_iff_eq.1 e) (hn g hg)

/-- Settles O19: the crossing by what the running schedules do, and by the start of slot 1. -/
theorem indexCrossings : Obligations.IndexCrossings := by
  unfold Obligations.IndexCrossings
  intro s wait h u x c turn hreset homega hturn hlost
  have hdue : (!(u.head h).inReset && (u.head h).crossed (u.ctx h)) = true := by
    unfold Head.crossed
    simp only [Bool.and_eq_true, decide_eq_true_eq, Bool.not_eq_true']
    exact ⟨hreset, ⟨homega, hturn⟩, hlost⟩
  have hexec : exec (.indexCrossing wait h) s = .next (u.crossing h) :=
    State.after_due (due := fun s => !(s.head h).inReset && (s.head h).crossed (s.ctx h)) _ hdue
  refine ⟨fun hv => ?_, fun hv ht hs hw hr => ?_, fun hv ht hs hok hp ha hsched => ?_⟩
  · rw [hexec, State.crossing_invalid hv]
    rfl
  · obtain ⟨hslot0, hkeeps⟩ := Head.slot0Restart_same c (x := x.turned c) hw
    have hframe := (x.turned c).slot0Restart_onSlot0 c
    have hpassed : x.passed c = (x.turned c).slot0Restart c := by
      unfold Head.passed
      rw [hr]
      rfl
    refine ⟨x.passed c, ?_, ?_⟩
    · rw [hexec, State.crossing_valid hv ht, State.passed_eq hw, hs]
      rfl
    · rw [hpassed]
      exact ⟨hframe.turn, hslot0, hframe.slot1, hkeeps⟩
  · obtain ⟨hturned, -, hmem⟩ := Head.passed_angle c x
    have hr {f : Fld} (hf : outKeys [(2098051, 2098052), (2098053, 2098054), (2098176, 2098177)] f.key = true) :
        (x.passed c).r f = x.r f := Head.passed_keep hf c rfl
    have hok' : (x.passed c).startOk = true := by
      unfold Head.startOk at hok ⊢
      rw [hr (by decide), Head.b_of (hr (by decide))]
      exact hok
    have hs' : (x.passed c).schedOk ((x.passed c).r AngleReg.SCHED) = true := by
      rw [hr (by decide), Head.schedOk_of hmem]
      exact hsched
    obtain ⟨hstart, hrun, hstate, hslot1⟩ := Head.slot1Start_ok c hok' hs'
    rw [Head.b_of (hr (by decide))] at hstate
    rw [hr (by decide), hturned] at hslot1
    have hcross := State.crossing_start hv ht hs hok hp ha
    have hhead : (u.crossing h).head h = (x.passed c).slot1Start c := by
      rw [hcross, State.setHead_head]
    refine ⟨u.crossing h, hexec, ?_⟩
    dsimp only
    rw [hhead]
    refine ⟨hstart, hrun, hstate, hslot1, ?_, fun k hk => ?_, ?_⟩
    · refine Head.keepsFields_of_ranges ([(2098051, 2098052), (2098053, 2098054), (2098176, 2098177)] ++ Head.slot1Start_keys)
        (by decide +kernel) fun g hg => ?_
      rw [Head.slot1Start_keep (out_mono hg (by decide +kernel)) c rfl]
      exact hr (out_mono hg (by decide +kernel))
    · rw [hcross, State.setHead_head_ne _ _ _ _ hk, State.readSched_head, State.passed_head, if_neg hk]
    · exact State.crossing_changes (by decide) h (State.pass_changes (by decide) wait (.refl s))

end Sys2Proof.Machine

end

section

namespace Sys2Proof.Machine

/-! ### A stopped schedule ends the open frames

A frame that found no mark ends with code NO_FRAME, and sets its beam's flag (R137, R157, R158). -/

/-- The frame that is open in a channel has found no mark (R137). -/
def Head.frameless (x : Head) (i : Fin 33) : Bool :=
  match (x.beam i).gate with
  | none => false
  | some g => (g.finish (x.gateEnv i g)).region != 2 && (g.finish (x.gateEnv i g)).code (x.gateEnv i g) == 3

theorem Head.tellFound_regs (k : Nat) (old new : Framing) (x : Head) : (x.tellFound k old new).regs = x.regs := by
  unfold Head.tellFound
  split
  · split <;> rfl
  · rfl

theorem Head.endFrame_regs (i : Fin 33) (how : FrameEnd) (t : Int) (x : Head) :
    (x.endFrame i how t).regs = x.regs.setIf (x.frameless i) (BeamReg.NO_FRAME i) := by
  unfold Head.endFrame
  extract_lets +onlyGivenNames -merge -useContext -lift b
  split
  next hg =>
    have hg' : (x.beam i).gate = none := hg
    unfold Head.frameless
    rw [hg']
    rfl
  next g hg =>
    have hg' : (x.beam i).gate = some g := hg
    extract_lets +onlyGivenNames -merge -useContext -lift env old g' e b₁ b₂ b₃ y z
    have hy : y.regs = x.regs := Head.tellFound_regs ..
    have hz : z.regs = x.regs.setIf (x.frameless i) (BeamReg.NO_FRAME i) := by
      unfold Head.frameless
      rw [hg', ← hy]
      rfl
    clear_value z
    split
    · exact hz
    · split
      · exact hz
      · exact hz

theorem Head.endFrame_noFrame {x : Head} {i : Fin 33} (h : x.frameless i = true) (how : FrameEnd) (t : Int) :
    (x.endFrame i how t).b (BeamReg.NO_FRAME i) = true := by
  show (x.endFrame i how t).regs.flag (BeamReg.NO_FRAME i) = true
  rw [Head.endFrame_regs, h]
  exact Head.b_flag x rfl

/-- The flag of a beam stays set as other frames end. -/
theorem Head.endFrame_noFrame_keep {x : Head} {j : Nat} (h : x.b (BeamReg.NO_FRAME j) = true) (i : Fin 33) (how : FrameEnd)
    (t : Int) : (x.endFrame i how t).b (BeamReg.NO_FRAME j) = true := by
  have hb : (x.endFrame i how t).b (BeamReg.NO_FRAME j) =
      (x.flagIf (x.frameless i) (BeamReg.NO_FRAME i)).b (BeamReg.NO_FRAME j) :=
    congrArg (RegFile.flag · (BeamReg.NO_FRAME j)) (Head.endFrame_regs i how t x)
  rw [hb]
  by_cases hij : j = i.val
  · subst hij
    cases x.frameless i
    · exact h
    · exact Head.b_flag x rfl
  · have hk : (BeamReg.NO_FRAME j).key ≠ (BeamReg.NO_FRAME i).key := by
      simp only [Fld.key, BeamReg.NO_FRAME]
      omega
    exact (Head.b_of (Head.keep_flagIf hk rfl)).trans h

theorem Head.endFrames_noFrame_keep {x : Head} {j : Nat} (h : x.b (BeamReg.NO_FRAME j) = true) (how : FrameEnd) (t : Int)
    (l : List (Fin 33)) : (l.foldl (fun x i => x.endFrame i how t) x).b (BeamReg.NO_FRAME j) = true := by
  induction l generalizing x with
  | nil => exact h
  | cons i l ih => exact ih (Head.endFrame_noFrame_keep h ..)

theorem Head.abortFrames_noFrame_keep {x : Head} {j : Nat} (h : x.b (BeamReg.NO_FRAME j) = true) (c : Ctx) :
    (x.abortFrames c).b (BeamReg.NO_FRAME j) = true := by
  unfold Head.abortFrames
  extract_lets +onlyGivenNames -merge -useContext -lift y
  have hy : y.b (BeamReg.NO_FRAME j) = true := Head.endFrames_noFrame_keep h .stop c.now allSamplers
  clear_value y
  exact hy

theorem Head.abortFrames_noFrame {x : Head} (h : x.frameless 0 = true) (c : Ctx) :
    (x.abortFrames c).b (BeamReg.NO_FRAME 0) = true := by
  have hsamplers : allSamplers = 0 :: (List.range' 1 32).map toSampler := rfl
  unfold Head.abortFrames
  extract_lets +onlyGivenNames -merge -useContext -lift y
  have hy : y.b (BeamReg.NO_FRAME 0) = true := by
    unfold y
    rw [hsamplers, List.foldl_cons]
    exact Head.endFrames_noFrame_keep (Head.endFrame_noFrame (i := 0) h ..) ..
  clear_value y
  exact hy

/-! ### A frame that has looked for all its marks in vain -/

/-- An open frame without a mark, that has no mark left to look for (R135, R137). -/
def unframedGate : Gate :=
  { Gate.reset with anySample := true, blank := false, framing := { Framing.unsynced with mark := 42 } }

theorem unframedGate_alive (par : ChanPar) : unframedGate.deadCode par = none := by
  unfold Gate.deadCode
  rw [if_neg (by decide), if_neg (by simp [unframedGate])]

theorem unframedGate_finish (env : ChanEnv) : unframedGate.finish env = unframedGate := by
  have hflush : unframedGate.flush env.entry = unframedGate := rfl
  have hnext (a : Array Soft) (n : Nat) : unframedGate.framing.next a n true env.par unframedGate.strength [] = none := by
    unfold Framing.next
    rw [if_neg (by decide), if_pos (by decide)]
  have hrun : unframedGate.framing.run unframedGate.softs unframedGate.decided true env.par unframedGate.strength
      unframedGate.expects.reverse searchesMax = unframedGate.framing := by
    unfold searchesMax Framing.run
    rw [show unframedGate.expects.reverse = [] from rfl, hnext]
  unfold Gate.finish Gate.search
  rw [hflush, unframedGate_alive, hrun, if_neg (by decide)]

theorem unframedGate_code (env : ChanEnv) : unframedGate.code env = 3 := by
  unfold Gate.code
  rw [unframedGate_alive]
  rfl

theorem Head.frameless_of {x : Head} {i : Fin 33} (h : (x.beam i).gate = some unframedGate) : x.frameless i = true := by
  unfold Head.frameless
  rw [h]
  dsimp only
  rw [unframedGate_finish, unframedGate_code]
  rfl

/-! ### The stop of slot 1 -/

theorem Head.stopSlot1_noFrame {x : Head} (hrun : x.b AngleReg.RUNNING = true)
    (h : (x.beam 0).gate = some unframedGate) (c : Ctx) : (x.stopSlot1 c).b (BeamReg.NO_FRAME 0) = true := by
  unfold Head.stopSlot1 Head.slot1Off
  rw [hrun]
  extract_lets +onlyGivenNames -merge -useContext -lift ran opened y a sl z w
  have hz : (z.beam 0).gate = some unframedGate := h
  have hw : w.b (BeamReg.NO_FRAME 0) = true := by
    unfold w
    rw [if_pos (by rfl)]
    exact Head.abortFrames_noFrame (Head.frameless_of hz) c
  clear_value w
  exact (Head.b_of (Head.writeAbort_keep (by decide) c 9 rfl)).trans hw

theorem Head.slot1Stopped_noFrame {x : Head} (hrun : x.b AngleReg.RUNNING = true)
    (h : (x.beam 0).gate = some unframedGate) (c : Ctx) : (x.slot1Stopped c).b (BeamReg.NO_FRAME 0) = true := by
  have hstop := Head.stopSlot1_noFrame hrun h c
  unfold Head.slot1Stopped
  extract_lets +onlyGivenNames -merge -useContext -lift y st z
  have hz : z.r (BeamReg.NO_FRAME 0) = y.r (BeamReg.NO_FRAME 0) :=
    Head.keep_ite (Head.setHstate_keep (by decide) 6 rfl) (Head.keep_ite (Head.setHstate_keep (by decide) _ rfl) rfl)
  exact (Head.b_of (Head.refresh_keep (by decide) c hz)).trans hstop

theorem Head.stopSlot1_noFrame_keep {x : Head} (h : x.b (BeamReg.NO_FRAME 0) = true) (c : Ctx) :
    (x.stopSlot1 c).b (BeamReg.NO_FRAME 0) = true := by
  unfold Head.stopSlot1 Head.slot1Off
  extract_lets +onlyGivenNames -merge -useContext -lift ran opened y a sl z w
  have hy : y.b (BeamReg.NO_FRAME 0) = true :=
    (Head.b_of (Head.keep_put (by decide) (Head.keep_put (x := x) (by decide) rfl))).trans h
  have hw : w.b (BeamReg.NO_FRAME 0) = true := by
    unfold w
    split
    · exact Head.abortFrames_noFrame_keep (x := z) hy c
    · exact hy
  clear_value w
  exact (Head.b_of (Head.keep_ite (Head.writeAbort_keep (by decide) c 9 rfl) rfl)).trans hw

/-- A frame's flag stays set as the head falls back to the focus (R48). -/
theorem Head.toFocus_noFrame_keep {x : Head} (h : x.b (BeamReg.NO_FRAME 0) = true) (c : Ctx) (code : Nat) :
    (x.toFocus c code).b (BeamReg.NO_FRAME 0) = true := by
  have hstop := Head.stopSlot1_noFrame_keep h c
  unfold Head.toFocus
  extract_lets +onlyGivenNames -merge -useContext -lift y z w u l v
  have hz : z.r (BeamReg.NO_FRAME 0) = y.r (BeamReg.NO_FRAME 0) :=
    Head.loopEnable_keep (by decide) _ _ (Head.loopEnable_keep (by decide) _ _ rfl)
  have hw : w.r (BeamReg.NO_FRAME 0) = y.r (BeamReg.NO_FRAME 0) :=
    Head.keep_w (by decide) (Head.keep_put (by decide) (Head.landAct_keep (by decide) c 1 0 hz))
  have hu : u.r (BeamReg.NO_FRAME 0) = y.r (BeamReg.NO_FRAME 0) :=
    Head.keep_ite (Head.jumpOff_keep (by decide) (Head.keep_w (by decide) hw)) hw
  have hv : v.r (BeamReg.NO_FRAME 0) = y.r (BeamReg.NO_FRAME 0) := Head.keep_record hu
  exact (Head.b_of (Head.refresh_keep (by decide) c (Head.setHstate_keep (by decide) 4
    (Head.cmdEnd_keep (by decide) code hv)))).trans hstop

/-- The loss of the angle stops slot 1 (R48), and with it the open frames. -/
theorem Head.angleLost_noFrame {x : Head} (hrun : x.b AngleReg.RUNNING = true)
    (h : (x.beam 0).gate = some unframedGate) (c : Ctx) : (x.angleLost c).b (BeamReg.NO_FRAME 0) = true := by
  unfold Head.angleLost
  extract_lets +onlyGivenNames -merge -useContext -lift y z l w u
  have hrun' : w.b AngleReg.RUNNING = true :=
    (Head.b_of (Head.keep_flag (by decide) (Head.keep_put (by decide) (Head.keep_put (x := x) (by decide) rfl)))).trans hrun
  have hu : u.b (BeamReg.NO_FRAME 0) = true :=
    Head.abortFrames_noFrame_keep (Head.slot1Stopped_noFrame (x := w) hrun' h c) c
  clear_value u
  split
  · exact Head.toFocus_noFrame_keep hu c 10
  · exact (Head.b_of (Head.refresh_keep (by decide) c rfl)).trans hu

/-! ### A head whose schedule stops while such a frame is open -/

/-- A head that runs a schedule in slot 1, with that frame open in its beam 0. -/
def framingHead : Head :=
  let x := ({ Head.reset with inReset := false }.put AngleReg.RUNNING true).w LandReg.HSTATE 7
  (x.onBeam 0 fun b => { b with gate := some unframedGate }).onSlotOf 1 fun s => { s with running := true }

/-- A change of the beam's flag is outside any list of fields that does not name it. -/
theorem Head.not_keepsFields_noFrame {x y : Head} {fs : List Fld} (hx : x.r (BeamReg.NO_FRAME 0) = 0)
    (hy : y.b (BeamReg.NO_FRAME 0) = true) (hfs : (fs.all fun g => (BeamReg.NO_FRAME 0).key != g.key) = true) :
    ¬ x.KeepsFields y fs := by
  intro hk
  have h0 : y.r (BeamReg.NO_FRAME 0) = 0 :=
    (hk _ (by decide +kernel) fun g hg => bne_iff_ne.1 (List.all_eq_true.1 hfs g hg)).trans hx
  have hb : y.b (BeamReg.NO_FRAME 0) = false := congrArg (· != 0) h0
  rw [hb] at hy
  exact absurd hy (by decide)

theorem framingHead_gate : (framingHead.beam 0).gate = some unframedGate := rfl

/-- A package in which head 0 of tile 0 is `x`, 10 µs after its start. -/
def framingState (x : Head) : State := { State.reset with
  cycle := 16000
  heads := State.reset.heads.set 0 x
  tiles := Vector.replicate 8 { Tile.reset with inReset := false }
  atria := Vector.replicate 2 (Atrium.reset.w IdReg.TILE_EN 255) }

theorem framingState_head (x : Head) : (framingState x).head 0 = x := rfl

/-- An answer that sets one head determines it. -/
theorem State.setHead_next_inj {s : State} {h : Fin 32} {o : Out} {y z : Head} (hy : o = .next (s.setHead h y))
    (hz : o = .next (s.setHead h z)) : y = z := by
  have h := congrArg (fun t : State => t.head h) (Host.Outcome.next.inj (hy.symm.trans hz))
  simpa using h

/-- That head in holdover since the package's start (R48). -/
def heldOverHead : Head := framingHead.put AngleReg.HOLDOVER true

/-- Refutes O18: ANGLE_LOST stops slot 1, the open frame of beam 0 ends without a mark, and its NO_FRAME is set (R48, R158),
which the statement's list of fields leaves out. -/
theorem not_angleSourceEvents : ¬ Obligations.AngleSourceEvents := by
  unfold Obligations.AngleSourceEvents
  intro hall
  obtain ⟨-, hlost, -, -⟩ := hall (framingState heldOverHead) 0 0 rfl
  obtain ⟨y, hexec, -, -, -, -, -, -, -, -, hkeeps⟩ := hlost (by decide) (by decide)
  have hdue : exec (.angleLost 0 0) (framingState heldOverHead) = .next (((framingState heldOverHead).pass 0).setHead 0
      ((((framingState heldOverHead).pass 0).head 0).angleLost (((framingState heldOverHead).pass 0).ctx 0))) :=
    State.headAfter_due (due := fun c x => x.b AngleReg.HOLDOVER
      && decide (x.angle.holdSince + cyclesOfUs (atLeast1 (x.r AngleReg.HOLD_LIMIT)) ≤ c.cyc)) Head.angleLost rfl (by decide)
  have hy := State.setHead_next_inj hexec hdue
  have hflag : y.b (BeamReg.NO_FRAME 0) = true := by
    rw [hy]
    exact Head.angleLost_noFrame (by decide) framingHead_gate _
  exact Head.not_keepsFields_noFrame (by decide) hflag (by decide) hkeeps

/-! ### The STOP word -/

theorem Head.writeAct_slots (c : Ctx) (v : Nat) (x : Head) : x.writeAct c 0x10028 v =
    let y := x.slot0Write (bitsOf v 21 16)
    let y := if bitOf v 6 then y.startWrite else y
    if bitOf v 7 then y.stopWrite c else y := by
  unfold Head.writeAct; simp

/-- A STOP of a running schedule whose frame in beam 0 has found no mark (R56, R158). -/
theorem Head.stop_noFrame {x : Head} (hrun : x.b AngleReg.RUNNING = true) (h : (x.beam 0).gate = some unframedGate)
    (c : Ctx) : ((x.stored 0x10028 (forced AngleReg.STOP 1 0)).writeAct c 0x10028 (forced AngleReg.STOP 1 0)).b
      (BeamReg.NO_FRAME 0) = true := by
  have hstored : (x.stored 0x10028 (forced AngleReg.STOP 1 0)).b AngleReg.RUNNING = true :=
    (Head.b_of (Head.stored_ne (by decide) (by decide +kernel))).trans hrun
  have hgate : ((x.stored 0x10028 (forced AngleReg.STOP 1 0)).beam 0).gate = some unframedGate := by
    rw [Head.stored_eq (by decide)]
    unfold Head.beam
    exact h
  rw [Head.writeAct_slots]
  generalize x.stored 0x10028 (forced AngleReg.STOP 1 0) = z at hstored hgate
  have hslots : bitsOf (forced AngleReg.STOP 1 0) 21 16 = 0 := by decide
  dsimp only
  rw [hslots, if_pos (by decide), if_neg (by decide)]
  have hrun' : (z.slot0Write 0).b AngleReg.RUNNING = true :=
    (Head.b_of (Head.slot0Write_keep (by decide) 0 rfl)).trans hstored
  have hgate' : ((z.slot0Write 0).beam 0).gate = some unframedGate := by
    have hbeams : (z.slot0Write 0).beams = z.beams := by
      unfold Head.slot0Write
      split <;> rfl
    unfold Head.beam
    rw [hbeams]
    exact hgate
  exact Head.slot1Stopped_noFrame hrun' hgate' c

/-- Refutes O21: STOP ends the open frame of beam 0 without a mark and sets its NO_FRAME (R56, R158), which the statement's
list of fields leaves out. -/
theorem not_slotRegisters : ¬ Obligations.SlotRegisters := by
  unfold Obligations.SlotRegisters
  intro hall
  have ok : (framingState framingHead).accessOf (.core 0 0) (.head 0 0x10028) = .ok := by decide
  obtain ⟨-, hstop, -⟩ := hall (framingState framingHead) (.core 0 0) 0 0 ok
  obtain ⟨y, hexec, -, -, -, -, -, -, hkeeps⟩ := hstop (by decide)
  have hrow : exec (.stop (.core 0 0) 0 0) (framingState framingHead) =
      headRow (.core 0 0) 0 AngleReg.STOP 1 0 (framingState framingHead) := rfl
  rw [hrow, headRow_plain (State.turnTo_accessOf ok 3) (by decide +kernel) (by decide) (by decide) (by decide),
    State.turnTo_head, framingState_head] at hexec
  have hflag : y.b (BeamReg.NO_FRAME 0) = true := by
    rw [← State.setHead_next_inj rfl hexec]
    exact Head.stop_noFrame (by decide) framingHead_gate _
  exact Head.not_keepsFields_noFrame (by decide) hflag (by decide) hkeeps

/-! ### The END event -/

/-- That head at the END event of its schedule (R57): schedule 0 has one entry, END, at angle 0, and the disc turns. -/
def endingHead : Head :=
  { framingHead.wi AngleReg.W 1 with
    schedMem := (framingHead.schedMem.writeLE 0 8 (2 ^ 16)).writeLE 0x200 8 (0x10 * 2 ^ 34) }

/-- The END event of slot 1 stops the schedule of a head whose frame in beam 0 has found no mark. -/
def Fire.stopsFrame (f : Fire) (x : Head) : Bool :=
  f.slot == 1 && f.arg == 0 && x.b AngleReg.RUNNING && x.r (BeamReg.NO_FRAME 0) == 0 && (x.beam 0).gate == some unframedGate

theorem endingHead_takeEvent :
    ((endingHead.takeEvent (((framingState endingHead).pass 0).ctx 0) 0x10).any fun p => p.1.stopsFrame p.2) = true := by decide

theorem endingHead_takes : ∃ f x, ((framingState endingHead).atEvent 0 0).Takes 0 0x10 f x ∧ f.stopsFrame x = true := by
  obtain ⟨⟨f, x⟩, htake, hstops⟩ := (Option.any_eq_true ..).1 endingHead_takeEvent
  have hhead : ((framingState endingHead).atEvent 0 0).head 0 = endingHead :=
    (State.noteEntries_head 0 0 _).trans (framingState_head endingHead)
  have hctx : ((framingState endingHead).atEvent 0 0).ctx 0 = ((framingState endingHead).pass 0).ctx 0 := State.noteEntries_ctx 0 0 _
  refine ⟨f, x, ⟨?_, ?_⟩, hstops⟩
  · rw [hhead]
    rfl
  · rw [hhead, hctx]
    exact htake

/-- Refutes O24: END ends the open frame of beam 0 without a mark and sets its NO_FRAME (R57, R158), which the statement's list
of fields leaves out. -/
theorem not_scheduleEvents : ¬ Obligations.ScheduleEvents := by
  unfold Obligations.ScheduleEvents
  intro hall
  obtain ⟨f, x, htakes, hstops⟩ := endingHead_takes
  obtain ⟨-, -, -, -, -, hend, -, -⟩ := hall (framingState endingHead) 0 0 f x
  obtain ⟨y, hexec, -, -, hstopped⟩ := hend htakes
  unfold Fire.stopsFrame at hstops
  simp only [Bool.and_eq_true, beq_iff_eq] at hstops
  obtain ⟨⟨⟨⟨hslot, harg⟩, hrun⟩, hflag⟩, hgate⟩ := hstops
  obtain ⟨-, -, -, -, -, hkeeps⟩ := hstopped (by omega) (by omega)
  have hfires : exec (.endEvent 0 0) (framingState endingHead) = (framingState endingHead).firesIn 0 0 0x10 Head.endEntry := rfl
  rw [hfires, State.firesIn_takes htakes] at hexec
  have hy := State.setHead_next_inj rfl hexec
  unfold Head.endEntry at hy
  rw [if_neg (by omega), if_neg (by omega)] at hy
  refine Head.not_keepsFields_noFrame hflag ?_ (by decide) hkeeps
  rw [← hy]
  exact Head.slot1Stopped_noFrame hrun hgate _

end Sys2Proof.Machine

end

section

namespace Sys2Proof.Machine

/-! ### A candidate whose key record holds an upset

The key slots from 4 up lie in the Selvedge store (R418, R440). The verification of a candidate reads the record of its key
slot, and a correctable upset there counts in SELV_CE_COUNT of the package block (R433, R435). -/

/-- `n` bytes of a flash at `a`, which are stored inverted (R412). -/
def FlashSt.holding (a n v : Nat) (f : FlashSt) : FlashSt := { f with mem := f.mem.writeLE a n (v ^^^ (2 ^ (8 * n) - 1)) }

/-- A flash whose slot A holds a valid header of three sections, for the device and signed by key slot 4 (R415, R416). -/
def slot4Flash : FlashSt :=
  (FlashSt.reset.holding 0 8 0x313053424E4D4C50).holding 8 2 1 |>.holding 0x0A 2 0x8512 |>.holding 0x0C 4 128
    |>.holding 0x10 8 1024 |>.holding 0x20 2 3 |>.holding 0x24 4 128 |>.holding (128 + 80 * 3) 1 4

/-- A boot that verifies its first candidate, with a correctable upset in the record of key slot 4. -/
def upsetKeyState : State := { State.reset with
  tiles := (Vector.replicate 8 Tile.reset).set 0 { Tile.reset with selv := { Tile.reset.selv with ce := [keyWord 4] } }
  flashes := Vector.replicate 2 slot4Flash
  boot := { BootSt.reset with phase := .candidate } }

/-- Its first candidate of four is refused, since key slot 4 holds no key. -/
theorem upsetKeyState_refused : let u := upsetKeyState.pass 0
    u.candidates[0]? = some (0, 0) ∧ u.candidates.length = 4 ∧ u.checkImage (strapWing u.boot.strapWord) 0 0 u.boot.strapWord = 3 := by
  decide +kernel

/-- The verification counts the upset. -/
theorem upsetKeyState_counts :
    ∃ y, exec (.candidateVerify ⟨0, true⟩) upsetKeyState = .next y ∧ (y.atrium 0).r BootReg.SELV_CE_COUNT = 1 := by
  refine ⟨_, rfl, ?_⟩
  decide +kernel

/-- Refutes O41: the verification of a candidate counts a correctable upset of its key record in the package block, which the
statement leaves out where the boot goes on to the next candidate. -/
theorem not_bootToCandidate : ¬ Obligations.BootToCandidate := by
  unfold Obligations.BootToCandidate
  intro hall
  obtain ⟨-, -, -, hverify⟩ := hall upsetKeyState 0
  obtain ⟨hfirst, hfour, hcode⟩ := upsetKeyState_refused
  obtain ⟨y, he, -, -, -, hcandidate⟩ := hverify true rfl
  obtain ⟨-, -, -, -, hnext⟩ := hcandidate (0, 0) hfirst
  rw [if_pos rfl, hcode, hfour] at hnext
  obtain ⟨-, hkeeps, -⟩ := hnext (by decide) (by decide)
  obtain ⟨y', he', hcount⟩ := upsetKeyState_counts
  obtain rfl : y = y' := Host.Outcome.next.inj (he.symm.trans he')
  rw [hkeeps 0 BootReg.SELV_CE_COUNT (by decide +kernel) (by decide)] at hcount
  exact absurd hcount (by decide)

end Sys2Proof.Machine

end

section

namespace Sys2Proof.Machine

/-! ### The control word of a Riser link -/

/-- A write that reaches a head finds the heads as they were. -/
theorem State.atHead_head {s : State} {q : Req} {h : Fin 32} {off : Nat} (ok : s.accessOf q (.head h off) = .ok) (j : Fin 32) :
    (s.atHead q h off).head j = s.head j := by
  unfold State.atHead
  rw [State.arrived_head (State.turnTo_accessOf ok 3), State.turnTo_head]

/-- A write of the control word that reaches its head: the stores of its fields, and what follows from its bits (R94). -/
theorem State.headWrite_control (h : Fin 32) (V : Nat) (s : State) :
    s.headWrite h 0 V = (s.setHead h ((s.head h).stored 0 V)).riserControl h V := by
  unfold State.headWrite
  rw [State.headStore_plain h 0 V s (by decide +kernel)]
  rfl

section

variable {s : State} {q : Req} {h : Fin 32} (ok : s.accessOf q (.head h 0) = .ok)
include ok

theorem writeAt_control (V : Nat) : (s.turnTo 3).writeAt q (.head h 0) (headBase h + 0) V =
    ((s.atHead q h 0).setHead h ((s.head h).stored 0 V)).riserControl h V := by
  rw [State.writeAt_head (State.turnTo_accessOf ok 3), State.headWrite_control]
  exact congrArg (fun x => State.riserControl h V (State.setHead (s.atHead q h 0) h (Head.stored 0 V x))) (State.atHead_head ok h)

theorem headWord_control (v : Word) : headWord q h 0 v s =
    .next (((s.atHead q h 0).setHead h ((s.head h).stored 0 v.toNat)).riserControl h v.toNat) :=
  congrArg Host.Outcome.next (writeAt_control ok v.toNat)

end

/-- SAFE_CMD alone is written with 1 (R91). -/
theorem State.riserControl_safeCmd {V : Nat} (h4 : bitOf V 4 = false) (h3 : bitOf V 3 = false) (h2 : bitOf V 2 = true)
    (h0 : bitOf V 0 = false) (u : State) (h : Fin 32) (x : Head) :
    (u.setHead h x).riserControl h V = (u.setHead h (x.put RiserReg.SAFE_CMD true)).safeHead h 1 := by
  unfold State.riserControl State.safeCmd
  simp [h4, h3, h2, h0]

/-- A recognised cause acts in a head out of reset (R91). -/
theorem State.safeHead_head {s : State} {h : Fin 32} (hr : (s.head h).inReset = false) (cause : Nat) :
    (s.safeHead h cause).head h = (s.head h).safeCause (s.ctx h) cause := by
  unfold State.safeHead
  extract_lets old s'
  have hs' : s'.head h = (s.head h).safeCause (s.ctx h) cause := State.setHead_head ..
  rw [hr, if_neg (by decide)]
  split
  · exact hs'
  · rw [(State.log_changes (ps := [.tiles, .atria]) (by decide) _ _ _ _ _ (.refl s')).same_head (by decide), hs']

/-! ### A SAFE order while a frame is open -/

/-- The entry into SAFE stops slot 1, and with it the open frames (R157, R217). -/
theorem Head.enterSafe_noFrame {x : Head} (hs : x.r LandReg.HSTATE = 7) (hrun : x.b AngleReg.RUNNING = true)
    (h : (x.beam 0).gate = some unframedGate) (c : Ctx) : (x.enterSafe c false).b (BeamReg.NO_FRAME 0) = true := by
  have hstop : (x.slot1Off c false).b (BeamReg.NO_FRAME 0) = true := Head.stopSlot1_noFrame hrun h c
  unfold Head.enterSafe
  extract_lets st
  have hst : st = 7 := hs
  rw [if_neg (by omega)]
  exact (Head.b_of (Head.refresh_keep (by decide) c (Head.setHstate_keep (by decide) 10 (Head.cmdEnd_keep (by decide) 10
    (Head.managedOff_keep (by decide) c rfl))))).trans hstop

/-- With no descriptor and no write phase there is nothing to abort (R188). -/
theorem Head.writeAbort_idle {x : Head} (hd : x.write.desc = none) (he : x.write.endAt = none) (c : Ctx) (cause : Nat) :
    x.writeAbort c cause = x := by
  have hs : x.writeSettle c = x := by
    unfold Head.writeSettle
    rw [he]
  unfold Head.writeAbort
  rw [hs]
  dsimp only
  rw [hd]

/-- A SAFE cause but a link loss sends a head whose schedule runs into SAFE, and its open frame without a mark ends (R91,
R158). -/
theorem Head.safeCause_noFrame {x : Head} (hs : x.r LandReg.HSTATE = 7) (hrun : x.b AngleReg.RUNNING = true)
    (hd : x.write.desc = none) (he : x.write.endAt = none) (h : (x.beam 0).gate = some unframedGate) (c : Ctx) {cause : Nat}
    (hc : (cause == 4) = false) : (x.safeCause c cause).b (BeamReg.NO_FRAME 0) = true := by
  unfold Head.safeCause
  extract_lets y
  have hkeep {f : Fld} (hf : f.key ≠ RiserReg.SAFE_CAUSE.key) : (y.w RiserReg.SAFE_CAUSE cause).r f = x.r f :=
    Head.keep_w hf rfl
  have hdesc : (y.w RiserReg.SAFE_CAUSE cause).write.desc = none := hd
  have hend : (y.w RiserReg.SAFE_CAUSE cause).write.endAt = none := he
  have hgate : ((y.w RiserReg.SAFE_CAUSE cause).beam 0).gate = some unframedGate := h
  rw [Head.writeAbort_idle hdesc hend, hc]
  exact Head.enterSafe_noFrame ((hkeep (by decide)).trans hs) ((Head.b_of (hkeep (by decide))).trans hrun) hgate c

/-- Refutes O28: SAFE_CMD stops slot 1, the open frame of beam 0 ends without a mark and sets its NO_FRAME (R91, R158, R217),
which the statement's list of fields leaves out. -/
theorem not_riserRegisters : ¬ Obligations.RiserRegisters := by
  unfold Obligations.RiserRegisters
  intro hall
  have ok : (framingState framingHead).accessOf (.core 0 0) (.head 0 0) = .ok := by decide
  obtain ⟨-, hcontrol⟩ := hall (framingState framingHead) (.core 0 0) 0 4
  obtain ⟨-, hsafe, -⟩ := hcontrol ok
  obtain ⟨t, hexec, -, -, -, -, -, hkeeps, -⟩ := hsafe (by decide) (by decide)
  have hrow : exec (.safeCmd (.core 0 0) 0 4) (framingState framingHead) =
      headWord (.core 0 0) 0 0 4 (framingState framingHead) := rfl
  rw [hrow, headWord_control ok, State.riserControl_safeCmd (by decide) (by decide) (by decide) (by decide)] at hexec
  obtain rfl := Host.Outcome.next.inj hexec
  refine Head.not_keepsFields_noFrame (by decide) ?_ (by decide) hkeeps
  rw [framingState_head, State.safeHead_head (by rw [State.setHead_head, Head.stored_eq (by decide)]; rfl), State.setHead_head]
  have hkeep {f : Fld} (hf : ∀ g ∈ RiserReg.SAFE_CMD :: headStored 0, f.key ≠ g.key) :
      ((framingHead.stored 0 (4 : Word).toNat).put RiserReg.SAFE_CMD true).r f = framingHead.r f :=
    (Head.keep_put (hf _ (by simp)) rfl).trans (Head.stored_ne (by decide) fun g hg _ => hf g (by simp [hg]))
  refine Head.safeCause_noFrame ((hkeep (by decide +kernel)).trans (by decide))
    ((Head.b_of (hkeep (by decide +kernel))).trans (by decide)) ?_ ?_ ?_ _ (by decide) <;>
    rw [Head.stored_eq (by decide)] <;> rfl

end Sys2Proof.Machine

end

section

namespace Sys2Proof.Machine

/-! ### A lost LASER command while a frame is open -/

/-- The LASER command of read power of the Landing, sent in frame 0 (R83, R227). -/
def laserSent : SentCmd := { seq := 0, op := 8, arg := 2 ^ 6, src := .landing, frame := 0, issued := 0 }

/-- A head that runs a schedule and waits for a LASER command of the Landing, not acknowledged (R85,
R227). -/
def laserlessHead : Head := { framingHead with
  land := { framingHead.land with laserAcks := 1 }
  riser := { framingHead.riser with sent := [laserSent] } }

/-- That head 16 frames later (R85). -/
def laserlessState : State := { framingState laserlessHead with
  tiles := Vector.replicate 8 { Tile.reset with inReset := false, time16 := 16 * 1600 } }

/-- The head falls back to FOCUS with focus retracted, and its open frame without a mark ends (R158, R217). -/
theorem Head.toFocus0_noFrame {x : Head} (hrun : x.b AngleReg.RUNNING = true) (h : (x.beam 0).gate = some unframedGate)
    (c : Ctx) (code : Nat) : (x.toFocus0 c code).b (BeamReg.NO_FRAME 0) = true := by
  have hstop := Head.stopSlot1_noFrame hrun h c
  unfold Head.toFocus0
  exact (Head.b_of (Head.refresh_keep (by decide) c (Head.setHstate_keep (by decide) 4 (Head.cmdEnd_keep (by decide) code
    (Head.lasersOff_keep (by decide) c (Head.managedOff_keep (by decide) c rfl)))))).trans hstop

/-- Outside FOCUS that command, where the Landing waits for it and it is lost, retracts the focus (R227). -/
theorem Head.laserLost_noFrame {x : Head} (hw : x.land.laserAcks = 1) (hs : x.land.laserSince = 0)
    (hh : x.r LandReg.HSTATE = 7) (hrun : x.b AngleReg.RUNNING = true) (h : (x.beam 0).gate = some unframedGate) (c : Ctx) :
    (x.ackSource c false laserSent).b (BeamReg.NO_FRAME 0) = true := by
  have hfails : x.ackSource c false laserSent = x.jumpOff.toFocus0 c 12 := by
    unfold Head.ackSource
    show (if laserSent.op = 8 ∧ bitsOf laserSent.arg 7 6 = 1 then x.laserAck c false laserSent.issued else x) = _
    rw [if_pos (by decide)]
    unfold Head.laserAck Head.focusFails
    rw [if_neg (by rw [hw, hs]; decide), if_neg (by decide), if_neg (by rw [hh]; omega)]
  have hrun' : x.jumpOff.b AngleReg.RUNNING = true := hrun
  have hgate : (x.jumpOff.beam 0).gate = some unframedGate := h
  rw [hfails]
  exact Head.toFocus0_noFrame hrun' hgate c 12

/-- A head without the record of a sent command. -/
def Head.sentOff (m : SentCmd) (x : Head) : Head := { x with riser := { x.riser with sent := x.riser.sent.erase m } }

/-- The oldest command that waits too long for its acknowledgement is lost (R85). -/
theorem execCmdLost_due {s : State} {wait : Nat} {h : Fin 32} {m : SentCmd} (hl : (s.pass wait).live h = true)
    (hm : ((s.pass wait).head h).lostCmd ((s.pass wait).ctx h) = some m) :
    exec (.cmdLost wait h) s = .next ((s.pass wait).setHead h
      ((((((s.pass wait).head h).sentOff m).flag RiserReg.CMD_LOST).bump RiserReg.CMD_LOST_COUNT 1).ackSource
        ((s.pass wait).ctx h) false m)) := by
  show execCmdLost wait h s = _
  unfold execCmdLost
  rw [State.liveAfter_due _ hl (by rw [hm]; rfl)]
  simp only [hm]
  rfl

/-- Refutes O27: a LASER command of the Landing that is lost retracts the focus and stops slot 1, and the open frame of beam 0
ends without a mark and sets its NO_FRAME (R85, R158, R217, R227), which the statement's list of fields leaves out. -/
theorem not_riserFrames : ¬ Obligations.RiserFrames := by
  unfold Obligations.RiserFrames
  intro ⟨_, _, hall⟩
  have hm : (((laserlessState.pass 0).head 0).lostCmd ((laserlessState.pass 0).ctx 0)) = some laserSent := by decide
  obtain ⟨-, hlost, -⟩ := hall laserlessState 0 0 (by decide)
  obtain ⟨y, hexec, -, -, -, hkeeps⟩ := hlost _ hm
  have hy := State.setHead_next_inj hexec (execCmdLost_due (by decide) hm)
  refine Head.not_keepsFields_noFrame (by decide) ?_ (by decide) hkeeps
  rw [hy]
  have hkeep {f : Fld} (hf : ∀ g ∈ [RiserReg.CMD_LOST, RiserReg.CMD_LOST_COUNT], f.key ≠ g.key) :
      (((laserlessHead.sentOff laserSent).flag RiserReg.CMD_LOST).bump RiserReg.CMD_LOST_COUNT 1).r f = framingHead.r f :=
    Head.keep_bump (hf _ (by simp)) (Head.keep_flag (hf _ (by simp)) rfl)
  exact Head.laserLost_noFrame rfl rfl ((hkeep (by decide)).trans (by decide))
    ((Head.b_of (hkeep (by decide))).trans (by decide)) framingHead_gate _

end Sys2Proof.Machine

end

section

namespace Sys2Proof.Machine

/-! ### A sample at the end of a write phase

The end of a write phase shows with the next thing that happens in the Landing (R169, R217). A sample that drops the Weft
unit's hold request is such a thing. -/

/-- A head in WRITE, the t_e of whose last close is reached while the Weft unit still requests hold and DH_BEAMS has been
written with 0; sampler 0 has delivered no sample yet. -/
def settlingHead : Head :=
  let x := (({ Head.reset with inReset := false }.w LandReg.HSTATE 8).w WriteReg.STATE 3).w WeftReg.DH_BEAMS 0
  { x with
    weft := { x.weft with holdReq := true }
    write := { x.write with desc := some .reset, endAt := some 0 }
    riser := { x.riser with delivered := [(0, 0)] } }

/-- Its first sample drops the request, and the head leaves WRITE. -/
theorem settlingHead_delivers : ∃ t, exec (.beamSampleDelivery 0 0 0) (framingState settlingHead) = .next t ∧
    (t.head 0).r LandReg.HSTATE = 7 := by
  refine ⟨_, rfl, ?_⟩
  decide +kernel

/-- Refutes O29: a sample that drops the hold request of a head whose write phase is over takes it from WRITE to READ (R132,
R169, R217), where the statement keeps HSTATE. -/
theorem not_readChannelEvents : ¬ Obligations.ReadChannelEvents := by
  unfold Obligations.ReadChannelEvents
  intro hall
  obtain ⟨hsample, -⟩ := hall (framingState settlingHead) 0 0 (by decide)
  obtain ⟨t, hexec, -, -, hstate, -⟩ := hsample 0 0 (by decide) (by decide)
  obtain ⟨t', hexec', hread⟩ := settlingHead_delivers
  obtain rfl : t = t' := Host.Outcome.next.inj (hexec.symm.trans hexec')
  have hwrite : (((framingState settlingHead).pass 0).head 0).r LandReg.HSTATE = 8 := by decide
  rw [hread, hwrite] at hstate
  exact absurd hstate (by decide)

end Sys2Proof.Machine

end

section

namespace Sys2Proof.Machine

/-! ### A thermal trip while the heads are in reset

The junction sensors are sampled from the start of the boot's load, when the heads of a tile are still in reset (R461, R463). A
head in reset keeps the SAFE cause for its release, and shows no cause meanwhile (R91, R505). -/

/-- A package at the load of its bit-stream, whose tile 0 has had two samples of sensor 0 above the trip threshold. -/
def trippingState : State := { State.reset with
  tiles := State.reset.tiles.set 0 { Tile.reset with heat := { Tile.reset.heat with tripRun := [2, 0, 0, 0, 0, 0] } }
  atria := Vector.replicate 2 (Atrium.reset.w IdReg.TILE_EN 255)
  boot := { BootSt.reset with phase := .load } }

theorem trippingState_trips : ∃ t, exec (.thermalTrip 0 0) trippingState = .next t ∧
    (t.head 0).r RiserReg.SAFE_CAUSE = 0 := by
  refine ⟨_, rfl, ?_⟩
  decide +kernel

/-- Refutes O52: a trip during the boot's load leaves SAFE_CAUSE of a head in reset at 0, where the statement shows cause 2. -/
theorem not_thermalBlock : ¬ Obligations.ThermalBlock := by
  unfold Obligations.ThermalBlock
  intro ⟨hall, _⟩
  obtain ⟨-, -, -, htrip, -⟩ := hall trippingState 0 0
  obtain ⟨t, hexec, -, -, -, -, -, hheads, -⟩ := htrip 0 (by decide) (by decide) (by decide) (by decide) (by decide)
  obtain ⟨t', hexec', hcause⟩ := trippingState_trips
  obtain rfl : t = t' := Host.Outcome.next.inj (hexec.symm.trans hexec')
  obtain ⟨hsafe, -⟩ := hheads 0
  rw [show headOf 0 0 = 0 from rfl, hcause] at hsafe
  exact absurd hsafe (by decide)

end Sys2Proof.Machine

end

section

namespace Sys2Proof.Machine

/-! ### A training block under an over-wide LANE_LOCK

A register file lists any number under a field's key; that a field stays below 2 to its width holds of what a write leaves, and
is no part of a state. The device's training block adds LANE_LOCK in its place, below T1 (R78). -/

/-- A training block of the head-end in ALIGN with every lane locked (R78). -/
def alignedBlock : BitVec 257 := controlBlock (typeTraining + 3 * 2 ^ 8 + 4095 * 2 ^ 16)

/-- A head in ALIGN that has found the markers and holds such a block, with 2^16 in the 12 bits of LANE_LOCK. -/
def overlockedHead : Head := { Head.reset with
  inReset := false
  regs := ⟨[(RiserReg.STATE.key, 3), (RiserReg.LANE_LOCK.key, 2 ^ 16)]⟩
  riser := { RiserSt.reset with
    aligned := true
    rx := { RiserSt.reset.rx with items := [.block false alignedBlock] } } }

/-- No line input beyond what the head holds. -/
def quietLine : LineRx := ⟨[], [], 0⟩

/-- At package time 0 its first echo request shows the departure as 1. -/
theorem overlockedHead_requests : ∃ t, exec (.trainingBlock 0 0 quietLine) (framingState overlockedHead) = .next t ∧
    (t.head 0).riser.train.map trainT1 = some 1 := by
  refine ⟨_, rfl, ?_⟩
  decide +kernel

/-- Refutes O25: in a state whose LANE_LOCK reads more than its 12 bits, the echo request that begins MEASURE carries another T1
than the instant at which it leaves. The statement bounds no register's value. -/
theorem not_linkTraining : ¬ Obligations.LinkTraining := by
  unfold Obligations.LinkTraining
  intro hall
  obtain ⟨-, -, halign, -⟩ := hall (framingState overlockedHead) 0 0 (by decide)
  obtain ⟨y, hexec, -, -, hblock, -⟩ := halign quietLine (by decide)
  have hheld : (overlockedHead.riser.rx.take quietLine.items).1.training =
      some (BitVec.ofNat 256 (blockBits alignedBlock)) := by decide +kernel
  obtain ⟨-, hmeasure, -⟩ := hblock _ (by decide) hheld
  obtain ⟨-, -, b, htrain, -, -, hdeparts⟩ := hmeasure (by decide) (.inl rfl) (by decide) (by decide) (by decide)
  obtain ⟨t, hexec', hshows⟩ := overlockedHead_requests
  obtain rfl := Host.Outcome.next.inj (hexec'.symm.trans hexec)
  rw [State.setHead_head, htrain] at hshows
  have hnow : ((framingState overlockedHead).pass 0 |>.ctx 0).now = 0 := by decide
  rw [Option.map_some, hdeparts, hnow] at hshows
  exact absurd hshows (by decide)

end Sys2Proof.Machine

end

section

namespace Sys2Proof.Machine

/-! ### What only a SAFE cause's begin and end changes

A head's reset and the SAFE causes that persist (R91) are left alone by everything that follows a change of the head's state
(R217). -/

/-- Whether a head is in reset, and its SAFE causes. -/
def Head.safety (x : Head) : Bool × List Nat := (x.inReset, x.riser.causes)

theorem Head.inReset_of {x y : Head} (h : y.safety = x.safety) : y.inReset = x.inReset := congrArg Prod.fst h

theorem Head.causes_of {x y : Head} (h : y.safety = x.safety) : y.riser.causes = x.riser.causes := congrArg Prod.snd h

theorem Head.safety_ite {a b : Head} {v : Bool × List Nat} {p : Prop} [Decidable p] (ha : a.safety = v) (hb : b.safety = v) :
    (if p then a else b).safety = v := by
  split
  · exact ha
  · exact hb

theorem Head.safety_foldl {α : Type} {f : Head → α → Head} (hf : ∀ x a, (f x a).safety = x.safety) (l : List α)
    (x : Head) : (l.foldl f x).safety = x.safety := by
  induction l generalizing x with
  | nil => rfl
  | cons a l ih => exact (ih _).trans (hf x a)

theorem Head.safety_issue (c : Ctx) (m : RCmd) (x : Head) : (x.issue c m).safety = x.safety := Head.safety_ite rfl rfl

theorem Head.safety_laser (c : Ctx) (src : CmdSrc) (b mode rp wp : Nat) (x : Head) :
    (x.laser c src b mode rp wp).safety = x.safety := Head.safety_issue c _ x

theorem Head.safety_loopEnable (n : Nat) (v : Bool) (x : Head) : (x.loopEnable n v).safety = x.safety :=
  Head.safety_ite rfl rfl

theorem Head.safety_loopRef (n : Nat) (v : Int) (x : Head) : (x.loopRef n v).safety = x.safety := Head.safety_ite rfl rfl

theorem Head.safety_refreshBank (x : Head) : x.refreshBank.safety = x.safety := by
  unfold Head.refreshBank
  extract_lets +onlyGivenNames -merge -useContext -lift ovr y z b
  exact Head.safety_ite (b := Head.bump _ _ _) rfl rfl

theorem Head.safety_refreshMode (x : Head) : x.refreshMode.safety = x.safety := Head.safety_refreshBank _

/-! #### The write channel -/

theorem Head.safety_lasersRead (c : Ctx) (x : Head) : (x.lasersRead c).safety = x.safety := by
  unfold Head.lasersRead
  refine Head.safety_ite ?_ rfl
  extract_lets +onlyGivenNames -merge -useContext -lift l y
  have hy : y.safety = x.safety := Head.safety_foldl (fun _ _ => Head.safety_laser ..) (List.range 32) x
  clear_value y
  exact hy

theorem Head.safety_leaveWrite (x : Head) : x.leaveWrite.safety = x.safety :=
  Head.safety_ite (Head.safety_refreshMode _) rfl

theorem Head.safety_writeSettle (c : Ctx) (x : Head) : (x.writeSettle c).safety = x.safety := by
  unfold Head.writeSettle
  split
  · rfl
  refine Head.safety_ite rfl ?_
  extract_lets +onlyGivenNames -merge -useContext -lift w y
  have hy : y.safety = x.safety := Head.safety_lasersRead c _
  split
  · exact hy
  · exact Head.safety_ite hy ((Head.safety_leaveWrite _).trans hy)

theorem Head.safety_writeAbort (c : Ctx) (cause : Nat) (x : Head) : (x.writeAbort c cause).safety = x.safety := by
  unfold Head.writeAbort
  extract_lets +onlyGivenNames -merge -useContext -lift y
  have hy : y.safety = x.safety := Head.safety_writeSettle c x
  split
  · exact hy
  refine Head.safety_ite hy (Head.safety_ite hy ?_)
  extract_lets +onlyGivenNames -merge -useContext -lift te opened m z w a₂ a b
  have hz : z.safety = x.safety := Head.safety_ite ((Head.safety_issue c _ y).trans hy) hy
  have ha : a.safety = x.safety := (Head.safety_leaveWrite _).trans hz
  exact Head.safety_ite (a := a.lasersRead c) (b := a) ((Head.safety_lasersRead c a).trans ha) ha

/-! #### What follows the Landing's state -/

theorem Head.safety_actsLoose (c : Ctx) (x : Head) : (x.actsLoose c).safety = x.safety := by
  unfold Head.actsLoose
  extract_lets +onlyGivenNames -merge -useContext -lift loop l
  exact Head.safety_foldl (fun _ _ => Head.safety_issue c _ _) _ _

theorem Head.safety_refreshHold (c : Ctx) (x : Head) : (x.refreshHold c).safety = x.safety := by
  unfold Head.refreshHold
  extract_lets +onlyGivenNames -merge -useContext -lift req l y want
  have hy : y.safety = x.safety := Head.safety_ite rfl rfl
  exact Head.safety_ite hy (Head.safety_ite hy hy)

theorem Head.safety_refreshInhibit (c : Ctx) (x : Head) : (x.refreshInhibit c).safety = x.safety := by
  unfold Head.refreshInhibit
  exact Head.safety_ite (Head.safety_writeAbort ..) rfl

theorem Head.safety_genEnd (g : Fin 2) (code : Nat) (x : Head) : (x.genEnd g code).safety = x.safety := by
  unfold Head.genEnd
  extract_lets +onlyGivenNames -merge -useContext -lift homing y z
  have hz : z.safety = x.safety := Head.safety_ite (a := y.w .. |>.flag ..) (b := y) rfl rfl
  exact hz

theorem Head.safety_refreshHeld (x : Head) : x.refreshHeld.safety = x.safety := by
  refine Head.safety_foldl (fun x g => ?_) _ x
  extract_lets +onlyGivenNames -merge -useContext -lift st
  refine Head.safety_ite (Head.safety_ite rfl ?_) (Head.safety_ite rfl rfl)
  extract_lets +onlyGivenNames -merge -useContext -lift y
  have hy : y.safety = x.safety := Head.safety_ite rfl (Head.safety_genEnd g 5 x)
  exact hy

theorem Head.safety_calEnd (c : Ctx) (status : Nat) (fit : List (Nat × Nat × Nat)) (x : Head) :
    (x.calEnd c status fit).safety = x.safety := by
  unfold Head.calEnd
  refine Head.safety_ite ?_ rfl
  extract_lets +onlyGivenNames -merge -useContext -lift m y
  have hy : y.safety = x.safety := Head.safety_ite (a := x.put ..) rfl rfl
  exact hy

theorem Head.safety_calCheck (c : Ctx) (x : Head) : (x.calCheck c).safety = x.safety := by
  unfold Head.calCheck
  refine Head.safety_ite ?_ rfl
  extract_lets +onlyGivenNames -merge -useContext -lift m y
  exact Head.safety_ite (Head.safety_calEnd ..) rfl

theorem Head.safety_refresh (c : Ctx) (x : Head) : (x.refresh c).safety = x.safety :=
  (Head.safety_calCheck c _).trans <| (Head.safety_refreshHeld _).trans <| (Head.safety_refreshInhibit c _).trans <|
    (Head.safety_refreshHold c _).trans <| (Head.safety_refreshMode _).trans <|
      (Head.safety_writeSettle c _).trans (Head.safety_actsLoose c x)

/-! #### The entry into SAFE -/

theorem Head.safety_tellFound (k : Nat) (old new : Framing) (x : Head) : (x.tellFound k old new).safety = x.safety := by
  unfold Head.tellFound
  split
  · exact Head.safety_ite rfl rfl
  · rfl

theorem Head.safety_endFrame (i : Fin 33) (how : FrameEnd) (tClose : Int) (x : Head) :
    (x.endFrame i how tClose).safety = x.safety := by
  unfold Head.endFrame
  extract_lets +onlyGivenNames -merge -useContext -lift b
  split
  · rfl
  extract_lets +onlyGivenNames -merge -useContext -lift env old g e b₁ b₂ b₃ y z
  have hz : z.safety = x.safety := Head.safety_tellFound i old g.framing (x.onBeam i fun _ => b₃)
  clear_value z
  exact Head.safety_ite hz (Head.safety_ite hz hz)

theorem Head.safety_abortFrames (c : Ctx) (x : Head) : (x.abortFrames c).safety = x.safety := by
  unfold Head.abortFrames
  extract_lets +onlyGivenNames -merge -useContext -lift y
  have hy : y.safety = x.safety := Head.safety_foldl (fun x i => Head.safety_endFrame i .stop c.now x) _ x
  clear_value y
  exact hy

theorem Head.safety_slot1Off (c : Ctx) (keep : Bool) (x : Head) : (x.slot1Off c keep).safety = x.safety := by
  unfold Head.slot1Off
  extract_lets +onlyGivenNames -merge -useContext -lift ran opened y an sl z w
  have hw : w.safety = x.safety := Head.safety_ite (a := z.abortFrames c) (b := z) (Head.safety_abortFrames c z) rfl
  exact Head.safety_ite ((Head.safety_writeAbort c 9 w).trans hw) hw

theorem Head.safety_landAct (c : Ctx) (out : Nat) (v : Int) (x : Head) : (x.landAct c out v).safety = x.safety :=
  Head.safety_ite rfl (Head.safety_issue ..)

theorem Head.safety_managedOff (c : Ctx) (x : Head) : (x.managedOff c).safety = x.safety := by
  unfold Head.managedOff
  extract_lets +onlyGivenNames -merge -useContext -lift y z w
  have hy : y.safety = x.safety := Head.safety_foldl (fun x f => Head.safety_loopEnable (x.r f) false x) _ x
  have hz : z.safety = x.safety := (Head.safety_landAct c 1 0 _).trans ((Head.safety_landAct c 0 _ y).trans hy)
  clear_value z
  exact hz

theorem Head.safety_cmdEnd (code : Nat) (x : Head) : (x.cmdEnd code).safety = x.safety :=
  Head.safety_ite rfl rfl

theorem Head.safety_spinTo (st : Nat) (x : Head) : (x.spinTo st).safety = x.safety := by
  unfold Head.spinTo
  extract_lets +onlyGivenNames -merge -useContext -lift old y z
  have hy : y.safety = x.safety := Head.safety_ite (a := x.flag _) (b := x) rfl rfl
  have hz : z.safety = x.safety := Head.safety_ite (a := y.put _ _) (b := y) hy hy
  exact hz

theorem Head.safety_chopOn (x : Head) : x.chopOn.safety = x.safety :=
  Head.safety_ite rfl ((Head.safety_loopEnable ..).trans (Head.safety_loopRef ..))

theorem Head.safety_catchFails (code : Nat) (x : Head) : (x.catchFails code).safety = x.safety := Head.safety_ite rfl rfl

theorem Head.safety_probeDrop (x : Head) : x.probeDrop.safety = x.safety := Head.safety_ite rfl rfl

theorem Head.safety_driveSafe (x : Head) : x.driveSafe.safety = x.safety := by
  unfold Head.driveSafe
  refine Head.safety_ite rfl ?_
  extract_lets +onlyGivenNames -merge -useContext -lift y z sp w
  have hy : y.safety = x.safety := (Head.safety_probeDrop _).trans (Head.safety_ite (a := x.w _ _) (b := x) rfl rfl)
  have hz : z.safety = x.safety := calc
    z.safety = (y.driveLoopsOff.loopEnable (y.r SpinReg.CHOP_LOOP) false).safety := Head.safety_catchFails 10 _
    _ = y.driveLoopsOff.safety := Head.safety_loopEnable ..
    _ = y.safety := (Head.safety_loopEnable ..).trans ((Head.safety_loopEnable ..).trans (Head.safety_loopEnable ..))
    _ = x.safety := hy
  clear_value z
  exact (Head.safety_spinTo 7 w).trans hz

theorem Head.safety_driveRelease (x : Head) : x.driveRelease.safety = x.safety :=
  Head.safety_ite ((Head.safety_chopOn _).trans (Head.safety_spinTo 5 x)) rfl

theorem Head.safety_setHstate (st : Nat) (x : Head) : (x.setHstate st).safety = x.safety := by
  unfold Head.setHstate
  extract_lets +onlyGivenNames -merge -useContext -lift old y
  have hy : y.safety = x.safety := Head.safety_ite rfl rfl
  exact Head.safety_ite ((Head.safety_driveSafe y).trans hy)
    (Head.safety_ite (a := y.driveRelease) ((Head.safety_driveRelease y).trans hy) hy)

theorem Head.safety_enterSafe (c : Ctx) (lost : Bool) (x : Head) : (x.enterSafe c lost).safety = x.safety := by
  unfold Head.enterSafe
  refine Head.safety_ite rfl ?_
  exact (Head.safety_refresh c _).trans <| (Head.safety_setHstate 10 _).trans <| (Head.safety_cmdEnd 10 _).trans <|
    (Head.safety_managedOff c _).trans (Head.safety_slot1Off c lost x)

/-! #### A link loss and a SAFE cause -/

theorem Head.safety_linkDown (c : Ctx) (auto : Bool) (x : Head) : (x.linkDown c auto).safety = x.safety := by
  unfold Head.linkDown
  extract_lets +onlyGivenNames -merge -useContext -lift y la z
  have hy : y.safety = x.safety := Head.safety_writeAbort c 10 _
  have hz : z.safety = x.safety := hy
  clear_value z
  exact Head.safety_ite (a := Head.flag _ _) (b := Head.stratLost _) hz hz

/-- A recognised SAFE cause persists (R91). -/
theorem Head.safeCause_causes (c : Ctx) (cause : Nat) (x : Head) : cause ∈ (x.safeCause c cause).riser.causes := by
  have hkept : (x.safeCause c cause).safety = (x.safeKept c cause).safety := by
    unfold Head.safeCause
    exact (Head.safety_enterSafe ..).trans (Head.safety_writeAbort ..)
  rw [Head.causes_of hkept]
  show cause ∈ if x.riser.causes.contains cause then x.riser.causes else x.riser.causes ++ [cause]
  split
  · exact List.contains_iff_mem.1 ‹_›
  · exact List.mem_append_right _ (List.mem_singleton.2 rfl)

end Sys2Proof.Machine

end

section

namespace Sys2Proof.Machine

/-! ### The states that no SAFE order ends

A head in OFF, SAFE or FAULT is not moved by a SAFE cause (R217); a head in WRITE may go back to READ as its write phase ends, and
every other state stands until the entry into SAFE. -/

/-- A head in OFF, SAFE or FAULT. -/
def Head.safed (x : Head) : Bool := decide (x.r LandReg.HSTATE ∈ [0, 10, 11])

theorem Head.b_of_r {x : Head} {f : Fld} {v : Nat} (h : x.r f = v) : x.b f = (v != 0) := by
  subst h
  rfl

theorem Head.safed_of {x y : Head} (h : y.r LandReg.HSTATE = x.r LandReg.HSTATE) : y.safed = x.safed := by
  unfold Head.safed
  rw [h]

theorem Head.safed_ite {a b : Head} {v : Bool} {p : Prop} [Decidable p] (ha : a.safed = v) (hb : b.safed = v) :
    (if p then a else b).safed = v := by
  split
  · exact ha
  · exact hb

theorem Head.leaveWrite_safed (x : Head) : x.leaveWrite.safed = x.safed := by
  unfold Head.leaveWrite
  split
  next hs =>
    have hleft : ((x.w LandReg.HSTATE 7).flag LandReg.STATE_CHANGE).refreshMode.r LandReg.HSTATE = 7 :=
      Head.refreshMode_keep (by decide) (Head.keep_flag (by decide) (Head.r_w ..))
    unfold Head.safed
    rw [hleft, hs]
    decide
  next => rfl

theorem Head.writeSettle_safed (c : Ctx) (x : Head) : (x.writeSettle c).safed = x.safed := by
  unfold Head.writeSettle
  split
  · rfl
  refine Head.safed_ite rfl ?_
  extract_lets +onlyGivenNames -merge -useContext -lift w y
  have hy : y.safed = x.safed := Head.safed_of (Head.lasersRead_keep (by decide) c (Head.keep_record rfl))
  split
  · exact hy
  · exact Head.safed_ite hy ((Head.safed_of (Head.keep_w (by decide) rfl)).trans ((Head.leaveWrite_safed _).trans hy))

theorem Head.writeAbort_safed (c : Ctx) (cause : Nat) (x : Head) : (x.writeAbort c cause).safed = x.safed := by
  unfold Head.writeAbort
  extract_lets +onlyGivenNames -merge -useContext -lift y
  have hy : y.safed = x.safed := Head.writeSettle_safed c x
  split
  · exact hy
  refine Head.safed_ite hy (Head.safed_ite hy ?_)
  extract_lets +onlyGivenNames -merge -useContext -lift te opened m z w a₂ a b
  have hz : z.safed = x.safed := (Head.safed_of (Head.keep_ite (Head.issue_keep (by decide) c _ rfl) rfl)).trans hy
  have ha : a.safed = x.safed := calc
    a.safed = (a₂.flag WriteReg.ABORTED).safed := Head.leaveWrite_safed _
    _ = z.safed := Head.safed_of (Head.keep_flag (by decide) (Head.keep_record rfl))
    _ = x.safed := hz
  exact (Head.safed_of (Head.keep_w (by decide) (Head.keep_ite (Head.lasersRead_keep (by decide) c rfl) rfl))).trans ha

theorem Head.linkDown_safed (c : Ctx) (auto : Bool) (x : Head) : (x.linkDown c auto).safed = x.safed := by
  unfold Head.linkDown
  extract_lets +onlyGivenNames -merge -useContext -lift y la z
  have hy : y.safed = x.safed := (Head.writeAbort_safed c 10 _).trans
    (Head.safed_of (Head.linkTo_keep (by decide) c 0 (Head.keep_flag (by decide) rfl)))
  refine Eq.trans (Head.safed_of ?_) hy
  exact Head.stratFails_keep (by decide) (Head.stratLost_keep (by decide) (Head.keep_put (by decide) (Head.keep_record rfl)))

/-! ### The entry into SAFE -/

theorem Head.setHstate_safe (x : Head) : (x.setHstate 10).r LandReg.HSTATE = 10 := by
  unfold Head.setHstate
  extract_lets +onlyGivenNames -merge -useContext -lift old y
  have hy : y.r LandReg.HSTATE = 10 := by
    unfold y
    split
    next hold => exact hold
    next => exact Head.keep_flag (by decide) (Head.r_w ..)
  rw [if_pos (.inl rfl)]
  exact Head.driveSafe_keep (by decide) hy

/-- Slot 1 no longer runs (R52). -/
theorem Head.slot1Off_running (c : Ctx) (keep : Bool) (x : Head) : (x.slot1Off c keep).r AngleReg.RUNNING = 0 := by
  unfold Head.slot1Off
  extract_lets +onlyGivenNames -merge -useContext -lift ran opened y an sl z w
  have hy : y.r AngleReg.RUNNING = 0 := Head.keep_put (g := AngleReg.START) (by decide) (Head.r_w ..)
  have hz : z.r AngleReg.RUNNING = 0 := Head.keep_record hy
  have hw : w.r AngleReg.RUNNING = 0 := Head.keep_ite (Head.abortFrames_keep (by decide) c hz) hz
  exact Head.keep_ite (Head.writeAbort_keep (by decide) c 9 hw) hw

/-- The entry into SAFE acts in the states that a SAFE order ends (R217). -/
theorem Head.enterSafe_eq (c : Ctx) (lost : Bool) (x : Head) : x.enterSafe c lost =
    if x.safed then x else ((((x.slot1Off c lost).managedOff c).cmdEnd 10).setHstate 10).refresh c := by
  unfold Head.enterSafe Head.safed
  simp only [List.mem_cons, List.not_mem_nil, or_false, decide_eq_true_eq]

theorem Head.enterSafe_safed (c : Ctx) (lost : Bool) (x : Head) : (x.enterSafe c lost).safed = true := by
  rw [Head.enterSafe_eq]
  split
  next hs => exact hs
  next =>
    have hstate := Head.refresh_hstate (v₀ := 10) (by decide) c
      (Head.setHstate_safe (((x.slot1Off c lost).managedOff c).cmdEnd 10))
    unfold Head.safed
    rw [hstate]
    decide

/-- The schedule runs on only in a head that the order found in one of those states. -/
theorem Head.enterSafe_running (c : Ctx) (lost : Bool) (x : Head) :
    (x.enterSafe c lost).b AngleReg.RUNNING = (x.b AngleReg.RUNNING && x.safed) := by
  rw [Head.enterSafe_eq]
  split
  next hs => rw [hs, Bool.and_true]
  next hs =>
    have hstopped : (((((x.slot1Off c lost).managedOff c).cmdEnd 10).setHstate 10).refresh c).r AngleReg.RUNNING = 0 :=
      Head.refresh_keep (by decide) c (Head.setHstate_keep (by decide) 10 (Head.cmdEnd_keep (by decide) 10
        (Head.managedOff_keep (by decide) c (Head.slot1Off_running c lost x))))
    rw [Bool.eq_false_iff.2 hs, Bool.and_false]
    exact Head.b_of_r hstopped

/-- What a recognised SAFE cause leaves (R91, R217). -/
theorem Head.safeCause_leaves (c : Ctx) {cause : Nat} (hc : cause < 8) (x : Head) : let y := x.safeCause c cause
    y.r RiserReg.SAFE_CAUSE = cause ∧ y.safed = true ∧ y.b AngleReg.RUNNING = (x.b AngleReg.RUNNING && x.safed) := by
  unfold Head.safeCause
  extract_lets +onlyGivenNames -merge -useContext -lift z y
  have hcause : (z.w RiserReg.SAFE_CAUSE cause).r RiserReg.SAFE_CAUSE = cause := (Head.r_w ..).trans (Nat.mod_eq_of_lt hc)
  have hrun : ((z.w RiserReg.SAFE_CAUSE cause).writeAbort c 3).b AngleReg.RUNNING = x.b AngleReg.RUNNING :=
    Head.b_of (Head.writeAbort_keep (by decide) c 3 (Head.keep_w (by decide) rfl))
  have hsafed : ((z.w RiserReg.SAFE_CAUSE cause).writeAbort c 3).safed = x.safed :=
    (Head.writeAbort_safed c 3 _).trans (Head.safed_of (Head.keep_w (by decide) rfl))
  refine ⟨Head.enterSafe_keep (by decide) c _ (Head.writeAbort_keep (by decide) c 3 hcause), Head.enterSafe_safed .., ?_⟩
  exact (Head.enterSafe_running ..).trans (by rw [hrun, hsafed])

/-! ### What a link loss leaves in the head -/

/-- The link of a head leaves UP: the link itself, the SAFE order of cause 4, and what follows it (R80, R91). -/
def Head.linkLost (c : Ctx) (auto : Bool) (x : Head) : Head := ((x.linkDown c auto).safeCause c 4).refresh c

/-- What may be written after the link's own state as it leaves UP. -/
def Head.afterDown_keys : List (Nat × Nat) :=
  [(1304, 1305), (12583178, 12583180)] ++ Head.writeAbort_keys

theorem Head.linkDown_link (c : Ctx) (auto : Bool) (x : Head) :
    (x.linkDown c auto).r RiserReg.STATE = 0 ∧ (x.linkDown c auto).b RiserReg.LINK_DOWN = true := by
  have hkeep {f : Fld} {v : Nat} (hf : outKeys Head.afterDown_keys f.key = true)
      (h : ((x.flag RiserReg.LINK_DOWN).linkTo c 0).r f = v) : (x.linkDown c auto).r f = v := by
    unfold Head.linkDown
    exact Head.stratFails_keep (out_mono hf (by decide)) (Head.stratLost_keep (out_mono hf (by decide))
      (Head.keep_put (out_ne hf (by decide)) (Head.keep_record (Head.writeAbort_keep (out_mono hf (by decide)) c 10 h))))
  refine ⟨hkeep (by decide) (Head.r_w (x.flag RiserReg.LINK_DOWN) RiserReg.STATE 0), ?_⟩
  have hflag : ((x.flag RiserReg.LINK_DOWN).linkTo c 0).r RiserReg.LINK_DOWN = 1 :=
    Head.linkTo_keep (by decide) c 0 (Head.r_w x RiserReg.LINK_DOWN 1)
  exact Head.b_of_r (hkeep (by decide) hflag)

/-- A link loss (R80, R91, R217). -/
theorem Head.linkLost_leaves (c : Ctx) (auto : Bool) (x : Head) : let y := x.linkLost c auto
    y.r RiserReg.STATE = 0 ∧ y.b RiserReg.LINK_DOWN = true ∧ y.r RiserReg.LANE_LOCK = x.r RiserReg.LANE_LOCK ∧
      y.r RiserReg.SAFE_CAUSE = 4 ∧ 4 ∈ y.riser.causes ∧ y.r LandReg.HSTATE ∈ [0, 10, 11] ∧
      y.b AngleReg.RUNNING = (x.b AngleReg.RUNNING && x.safed) := by
  obtain ⟨hstate, hdown⟩ := Head.linkDown_link c auto x
  obtain ⟨hcause, hsafed, hrun⟩ := Head.safeCause_leaves c (cause := 4) (by decide) (x.linkDown c auto)
  have hcauses := Head.safeCause_causes c 4 (x.linkDown c auto)
  have hlinks {f : Fld} {v : Nat} (hf : outKeys Head.safeCause_keys f.key = true) (h : (x.linkDown c auto).r f = v) :
      ((x.linkDown c auto).safeCause c 4).r f = v := Head.safeCause_keep hf c 4 h
  have hlanes : (x.linkDown c auto).r RiserReg.LANE_LOCK = x.r RiserReg.LANE_LOCK := Head.linkDown_keep (by decide) c auto rfl
  have hrest : (x.linkDown c auto).b AngleReg.RUNNING = x.b AngleReg.RUNNING :=
    Head.b_of (Head.linkDown_keep (by decide) c auto rfl)
  rw [hrest, Head.linkDown_safed] at hrun
  have hin : ((x.linkDown c auto).safeCause c 4).r LandReg.HSTATE ∈ [0, 10, 11] := of_decide_eq_true hsafed
  have hdown' : ((x.linkDown c auto).safeCause c 4).b RiserReg.LINK_DOWN = true :=
    (Head.b_of (hlinks (by decide) rfl)).trans hdown
  have hstate' := hlinks (f := RiserReg.STATE) (by decide) hstate
  have hlanes' := hlinks (f := RiserReg.LANE_LOCK) (by decide) hlanes
  unfold Head.linkLost
  generalize (x.linkDown c auto).safeCause c 4 = z at *
  refine ⟨Head.refresh_keep (by decide) c hstate', (Head.b_of (Head.refresh_keep (by decide) c rfl)).trans hdown',
    Head.refresh_keep (by decide) c hlanes', Head.refresh_keep (by decide) c hcause, ?_, ?_,
    (Head.b_of (Head.refresh_keep (by decide) c rfl)).trans hrun⟩
  · rw [Head.causes_of (Head.safety_refresh c z)]
    exact hcauses
  · rw [Head.refresh_hstate (fun h8 => absurd (h8 ▸ hin) (by decide)) c rfl]
    exact hin

end Sys2Proof.Machine

end

section

namespace Sys2Proof.Machine

/-! ### The state in which a link is lost or trained -/

@[simp] theorem State.onHead_head (s : State) (h : Fin 32) (f : Head → Head) : (s.onHead h f).head h = f (s.head h) :=
  State.setHead_head ..

theorem State.onHead_head_ne (s : State) {h k : Fin 32} (hk : k ≠ h) (f : Head → Head) : (s.onHead h f).head k = s.head k :=
  State.setHead_head_ne _ _ _ _ hk

theorem State.safeHead_head_ne (s : State) {h k : Fin 32} (hk : k ≠ h) (cause : Nat) :
    (s.safeHead h cause).head k = s.head k := by
  unfold State.safeHead
  extract_lets old u
  have hu : u.head k = s.head k := State.onHead_head_ne s hk _
  split
  · exact State.onHead_head_ne s hk _
  · split
    · exact hu
    · exact ((State.log_changes (ps := [.tiles, .atria]) (by decide) _ _ _ _ _ (.refl u)).same_head (by decide) k).trans hu

theorem State.linkLoss_head {s : State} {h : Fin 32} (hr : (s.head h).inReset = false) (auto : Bool) :
    (s.linkLoss h auto).head h = (s.head h).linkLost (s.ctx h) auto := by
  unfold State.linkLoss
  extract_lets u
  have hu : u.head h = (s.head h).linkDown (s.ctx h) auto := State.onHead_head ..
  have hawake : (u.head h).inReset = false :=
    (congrArg Head.inReset hu).trans ((Head.inReset_of (Head.safety_linkDown ..)).trans hr)
  rw [State.onHead_head, State.safeHead_head hawake, hu]
  rfl

theorem State.linkLoss_head_ne (s : State) {h k : Fin 32} (hk : k ≠ h) (auto : Bool) :
    (s.linkLoss h auto).head k = s.head k := by
  unfold State.linkLoss
  rw [State.onHead_head_ne _ hk, State.safeHead_head_ne _ hk, State.onHead_head_ne _ hk]

/-- SILENT begins: nothing is sent, and nothing of an earlier training is left (R79). -/
def Head.trainBegun (c : Ctx) (x : Head) : Head :=
  let y : Head := (x.linkTo c 1).laneSend []
  { y with riser := { y.riser with
    lossAt := none, aligned := false, skewed := false, train := none, request := none
    rx := { y.riser.rx with items := [], synced := false }
    echoes := 0, dMax := 0, goodRun := 0, latMax := 0, latFrames := 0 } }

theorem Head.trainBegun_state (c : Ctx) (x : Head) : (x.trainBegun c).r RiserReg.STATE = 1 :=
  Head.keep_record (a := x.w RiserReg.STATE 1) (Head.r_w ..)

theorem Head.trainBegun_r (c : Ctx) (x : Head) {f : Fld} (hf : f.key ≠ RiserReg.STATE.key) : (x.trainBegun c).r f = x.r f :=
  Head.keep_record (a := x.w RiserReg.STATE 1) (Head.keep_w hf rfl)

/-- Training starts where the heavy blocks have power and no restart waits (R79, R464); a link that is UP is lost first
(R80). -/
theorem State.train_eq {s : State} {h : Fin 32} (hpower : (s.tile (tileOf h)).heat.heavyOff = false)
    (htrip : (s.tile (tileOf h)).b HeatReg.TRIPPED = false) : s.train h =
      let u := if (s.head h).up then s.linkLoss h false else s
      u.onHead h (Head.trainBegun (u.ctx h)) := by
  unfold State.train
  extract_lets +onlyGivenNames t
  rw [if_neg (by rw [hpower, htrip, Bool.false_and]; decide)]
  rfl

/-! ### An access finds its head out of reset -/

theorem State.awake_of_accessOf {s : State} {q : Req} {h : Fin 32} {off : Nat} (ok : s.accessOf q (.head h off) = .ok) :
    (s.head h).inReset = false := by
  unfold State.accessOf at ok
  dsimp only at ok
  split at ok
  · unfold State.headAccess at ok
    split at ok
    · split at ok
      · cases ok
      · exact Bool.eq_false_iff.2 ‹_›
    · exact absurd ok ‹_›
  · unfold State.gapAccess at ok
    split at ok <;> cases ok

end Sys2Proof.Machine

end

section

namespace Sys2Proof.Machine

/-! ### The control word with TRAIN -/

/-- SAFE_CMD is withdrawn (R91). -/
def Head.safeWithdrawn (x : Head) : Head :=
  let y := x.put RiserReg.SAFE_CMD false
  if y.land.safeOrdered then y else y.safeEnds 1

theorem Head.safeWithdrawn_r (x : Head) {f : Fld} (hf : f.key ≠ RiserReg.SAFE_CMD.key) : x.safeWithdrawn.r f = x.r f :=
  Head.keep_ite (Head.keep_put hf rfl) (Head.safeEnds_keep rfl 1 (Head.keep_put hf rfl))

theorem Head.safeWithdrawn_cmd (x : Head) : x.safeWithdrawn.b RiserReg.SAFE_CMD = false :=
  Head.b_of_r (Head.keep_ite (Head.r_w x RiserReg.SAFE_CMD 0) (Head.safeEnds_keep rfl 1 (Head.r_w x RiserReg.SAFE_CMD 0)))

theorem Head.safeWithdrawn_inReset (x : Head) : x.safeWithdrawn.inReset = x.inReset := by
  unfold Head.safeWithdrawn
  dsimp only
  split <;> rfl

theorem State.safeCmd_withdrawn (u : State) (h : Fin 32) (x : Head) :
    (u.setHead h x).safeCmd h false = u.setHead h x.safeWithdrawn := by
  unfold State.safeCmd State.onHead
  dsimp only
  rw [if_neg (by decide), State.setHead_head, State.setHead_setHead, State.setHead_head, State.setHead_setHead]
  rfl

/-- TRAIN alone of the control word's commands is written with 1 (R79, R91). -/
theorem State.riserControl_train {V : Nat} (h4 : bitOf V 4 = false) (h3 : bitOf V 3 = false) (h2 : bitOf V 2 = false)
    (h0 : bitOf V 0 = true) (u : State) (h : Fin 32) (x : Head) :
    (u.setHead h x).riserControl h V = (u.setHead h x.safeWithdrawn).train h := by
  unfold State.riserControl
  dsimp only
  rw [h4, h3, h2, h0, if_neg Bool.false_ne_true, if_pos rfl, if_neg Bool.false_ne_true, State.safeCmd_withdrawn]

/-- A write of TRAIN leaves the other commands of its word as written (R79). -/
theorem forced_train {v : Word} {i : Nat} (hi : i ≠ 0) : bitOf (forced RiserReg.TRAIN 1 v) i = v.toNat.testBit i :=
  (forced_testBit RiserReg.TRAIN 1 v (by decide) i).trans (if_neg (by
    rintro ⟨-, h⟩
    exact hi (Nat.lt_one_iff.1 h)))

theorem forced_train_set (v : Word) : bitOf (forced RiserReg.TRAIN 1 v) 0 = true :=
  (forced_testBit RiserReg.TRAIN 1 v (by decide) 0).trans (if_pos (by decide))

/-- The plain fields of the control word stand apart from TRAIN and from the fields that training writes. -/
theorem controlWord_plain : ∀ f ∈ fieldsIn headFields 0, f.acc = .rw → headOwn f = false →
    f.key ≠ RiserReg.STATE.key ∧ f.key ≠ RiserReg.SAFE_CMD.key ∧ 0 < f.width ∧
      (f.lsb + f.width ≤ RiserReg.TRAIN.lsb ∨ RiserReg.TRAIN.lsb + RiserReg.TRAIN.width ≤ f.lsb) := by decide +kernel

/-- The stores of the control word are those of AUTO_RETRAIN and TRAIN_LOCK_T. -/
theorem controlWord_stores : ∀ f ∈ headStored 0, f.acc = .rw ∨ f.acc = .w1c →
    f.key = RiserReg.AUTO_RETRAIN.key ∨ f.key = RiserReg.TRAIN_LOCK_T.key := by decide +kernel

theorem Head.control_stored (x : Head) (V : Nat) {g : Fld} (h1 : g.key ≠ RiserReg.AUTO_RETRAIN.key)
    (h2 : g.key ≠ RiserReg.TRAIN_LOCK_T.key) : (x.stored 0 V).r g = x.r g :=
  Head.stored_ne (by decide) fun f hf hacc heq => (controlWord_stores f hf hacc).elim (fun e => h1 (heq.trans e))
    fun e => h2 (heq.trans e)

/-- The head as a write of TRAIN finds it once its word is stored. -/
def Head.trainWritten (v : Word) (x : Head) : Head := (x.stored 0 (forced RiserReg.TRAIN 1 v)).safeWithdrawn

theorem Head.trainWritten_r (v : Word) (x : Head) {g : Fld} (h0 : g.key ≠ RiserReg.SAFE_CMD.key)
    (h1 : g.key ≠ RiserReg.AUTO_RETRAIN.key) (h2 : g.key ≠ RiserReg.TRAIN_LOCK_T.key) : (x.trainWritten v).r g = x.r g :=
  (Head.safeWithdrawn_r _ h0).trans (Head.control_stored x _ h1 h2)

theorem Head.trainWritten_up (v : Word) (x : Head) : (x.trainWritten v).up = x.up := by
  unfold Head.up
  rw [Head.trainWritten_r v x (by decide) (by decide) (by decide)]

theorem Head.trainWritten_inReset (v : Word) (x : Head) : (x.trainWritten v).inReset = x.inReset := by
  unfold Head.trainWritten
  rw [Head.safeWithdrawn_inReset, Head.stored_eq (by decide)]

/-- A write of TRAIN to a link that is not UP (R79). -/
theorem Head.train_written (c : Ctx) (v : Word) (x : Head) : let y := (x.trainWritten v).trainBegun c
    y.Took 0 v ∧ y.r RiserReg.STATE = 1 ∧ y.b RiserReg.SAFE_CMD = false ∧ y.riser.goodRun = 0 ∧
      x.KeepsFields y [RiserReg.AUTO_RETRAIN, RiserReg.TRAIN_LOCK_T, RiserReg.SAFE_CMD, RiserReg.STATE] := by
  refine ⟨Head.took_of (V := forced RiserReg.TRAIN 1 v) (x := x) (by decide) (fun f hf hrw hown => ?_)
    (fun f hf hrw hown => ?_), Head.trainBegun_state .., ?_, rfl, fun g _ hn => ?_⟩
  · obtain ⟨hstate, hcmd, -, -⟩ := controlWord_plain f hf hrw hown
    exact (Head.trainBegun_r c _ hstate).trans (Head.safeWithdrawn_r _ hcmd)
  · obtain ⟨-, -, hw, hd⟩ := controlWord_plain f hf hrw hown
    exact bits_forced_of_apart (by decide) hw hd 1 v
  · exact (Head.b_of (Head.trainBegun_r c _ (by decide))).trans (Head.safeWithdrawn_cmd _)
  · exact (Head.trainBegun_r c _ (hn _ (by simp))).trans
      (Head.trainWritten_r v x (hn _ (by simp)) (hn _ (by simp)) (hn _ (by simp)))

/-! ### The tile as a write finds it -/

theorem State.turnTo_tile (k : Nat) (s : State) (j : Fin 8) :
    ((s.turnTo k).tile j).heat = (s.tile j).heat ∧ ((s.turnTo k).tile j).regs = (s.tile j).regs := by
  unfold State.turnTo
  split
  · show ((s.advance 1).tile j).heat = _ ∧ ((s.advance 1).tile j).regs = _
    rw [State.advance_tile]
    exact ⟨Tile.advance_heat .., Tile.advance_regs ..⟩
  · exact ⟨rfl, rfl⟩

/-- A write that reaches a head finds its tile's thermal block as it was. -/
theorem State.atHead_heat {s : State} {q : Req} {h : Fin 32} {off : Nat} (ok : s.accessOf q (.head h off) = .ok) (j : Fin 8) :
    ((s.atHead q h off).tile j).heat = (s.tile j).heat ∧
      ((s.atHead q h off).tile j).b HeatReg.TRIPPED = (s.tile j).b HeatReg.TRIPPED := by
  obtain ⟨hheat, hregs⟩ := State.turnTo_tile 3 s j
  obtain ⟨rf, ls, m, htile, hkept⟩ := State.arrived_tile (a := headBase h + off) (State.turnTo_accessOf ok 3) j
  have hrd : rf.rd HeatReg.TRIPPED = (s.tile j).regs.rd HeatReg.TRIPPED := (hkept _ (by decide)).trans (by rw [hregs])
  unfold State.atHead
  rw [htile]
  exact ⟨hheat, congrArg (· != 0) hrd⟩

/-- A write of TRAIN that reaches a head whose heavy blocks have power: its stores, and then the start of training (R79). -/
theorem exec_train {s : State} {q : Req} {h : Fin 32} {v : Word} (ok : s.accessOf q (.head h 0) = .ok)
    (h2 : v.toNat.testBit 2 = false) (h3 : v.toNat.testBit 3 = false) (h4 : v.toNat.testBit 4 = false)
    (hpower : (s.tile (tileOf h)).heat.heavyOff = false) (htrip : (s.tile (tileOf h)).b HeatReg.TRIPPED = false) :
    exec (.train q h v) s = .next (
      let w := (s.atHead q h 0).setHead h ((s.head h).trainWritten v)
      let u := if (s.head h).up then w.linkLoss h false else w
      u.onHead h (Head.trainBegun (u.ctx h))) := by
  obtain ⟨hheat, hflag⟩ := State.atHead_heat ok (tileOf h)
  have hstored := (writeAt_control ok (forced RiserReg.TRAIN 1 v)).trans
    (State.riserControl_train ((forced_train (by decide)).trans h4) ((forced_train (by decide)).trans h3)
      ((forced_train (by decide)).trans h2) (forced_train_set v) (s.atHead q h 0) h _)
  have htrain := State.train_eq (s := (s.atHead q h 0).setHead h ((s.head h).trainWritten v)) (h := h)
    (by rw [State.setHead_tile, hheat]; exact hpower) (hflag.trans htrip)
  rw [State.setHead_head, Head.trainWritten_up] at htrain
  exact congrArg Host.Outcome.next (hstored.trans htrain)

/-! ### Training starts, and a link is lost -/

section

variable {s : State} {h : Fin 32}

/-- AUTO_RETRAIN (R79). -/
theorem autoRetrain_trains {wait : Nat} (hlive : (s.pass wait).live h = true) {a : Nat}
    (hauto : ((s.pass wait).head h).b RiserReg.AUTO_RETRAIN = true) (hstate : ((s.pass wait).head h).r RiserReg.STATE = 0)
    (hloss : ((s.pass wait).head h).riser.lossAt = some a) (hsince : a + cyclesOfMs 1 ≤ (s.pass wait).cycle)
    (htrip : ((s.pass wait).tile (tileOf h)).b HeatReg.TRIPPED = false) :
    exec (.autoRetrain wait h) s = .next ((s.pass wait).onHead h (Head.trainBegun ((s.pass wait).ctx h))) := by
  have hpower : ((s.pass wait).tile (tileOf h)).heat.heavyOff = false := by
    unfold State.live at hlive
    simpa using (Bool.and_eq_true_iff.1 hlive).2
  have hdown : ((s.pass wait).head h).up = false := by
    unfold Head.up
    rw [hstate]
    decide
  have hdue : (s.pass wait).since a (cyclesOfMs 1) = true := decide_eq_true hsince
  show execAutoRetrain wait h s = _
  refine (State.after_due (State.train h) ?_).trans ?_
  · simp only [hlive, hauto, hstate, hloss, hdue, beq_self_eq_true, Bool.and_self]
  · rw [State.train_eq hpower htrip, hdown]
    rfl

/-- LINK_LOSS (R80). -/
theorem linkLoss_loses {wait lanes : Nat} (hlive : (s.pass wait).live h = true)
    (hup : ((s.pass wait).head h).r RiserReg.STATE = 6)
    (hlost : lanes % 4096 ≠ 4095 ∨ 4 ≤ ((s.pass wait).head h).riser.badRun ∨
      4 ≤ ((s.pass wait).head h).riser.noLockRun) :
    execLinkLoss wait h lanes s =
      .next ((((s.advance wait).turnTo 2).onHead h (·.w RiserReg.LANE_LOCK lanes)).linkLoss h true) := by
  have hhead : ((s.advance wait).turnTo 2).head h = (s.pass wait).head h := State.turnTo_head ..
  have hlive' : ((s.advance wait).turnTo 2).live h = true := by
    unfold State.live at hlive ⊢
    rw [hhead, (State.turnTo_tile 2 (s.advance wait) (tileOf h)).1]
    exact hlive
  refine State.afterIn_due _ ?_
  dsimp only
  rw [hlive', hhead, show ((s.pass wait).head h).up = true from beq_iff_eq.2 hup]
  simpa [or_assoc] using hlost

/-- What a link loss leaves (R80, R91, R217). -/
theorem linkLoss_completes {wait lanes : Nat} (hlive : (s.pass wait).live h = true)
    (hup : ((s.pass wait).head h).r RiserReg.STATE = 6)
    (hlost : lanes % 4096 ≠ 4095 ∨ 4 ≤ ((s.pass wait).head h).riser.badRun ∨
      4 ≤ ((s.pass wait).head h).riser.noLockRun) :
    Completes (.linkLoss wait h lanes) s fun t => let x := (s.pass wait).head h; let y := t.head h
      y.r RiserReg.STATE = 0 ∧ y.b RiserReg.LINK_DOWN = true ∧ y.r RiserReg.LANE_LOCK = lanes % 4096 ∧
      y.r RiserReg.SAFE_CAUSE = 4 ∧ 4 ∈ y.riser.causes ∧ y.r LandReg.HSTATE ∈ [0, 10, 11] ∧
      y.b AngleReg.RUNNING = (x.b AngleReg.RUNNING && decide (x.r LandReg.HSTATE ∈ [0, 10, 11])) ∧
      (∀ k, k ≠ h → t.head k = (s.pass wait).head k) ∧ s.ChangesOnly [.time, .heads, .tiles, .atria] t := by
  obtain ⟨w, hw⟩ : ∃ w, w = ((s.advance wait).turnTo 2).onHead h (·.w RiserReg.LANE_LOCK lanes) := ⟨_, rfl⟩
  have hexec := linkLoss_loses hlive hup hlost
  rw [← hw] at hexec
  have hchanges := execLinkLoss_changes (List.Subset.refl _) wait h lanes hexec
  have hpass (k : Fin 32) : ((s.advance wait).turnTo 2).head k = (s.pass wait).head k := State.turnTo_head ..
  have hhead : w.head h = ((s.pass wait).head h).w RiserReg.LANE_LOCK lanes := by rw [hw, State.onHead_head, hpass]
  have hawake : (w.head h).inReset = false := by
    unfold State.live at hlive
    rw [hhead]
    simpa using (Bool.and_eq_true_iff.1 hlive).1
  obtain ⟨hstate, hdown, hlanes, hcause, hcauses, hin, hrun⟩ := Head.linkLost_leaves (w.ctx h) true (w.head h)
  rw [← State.linkLoss_head hawake true] at hstate hdown hlanes hcause hcauses hin hrun
  refine ⟨_, hexec, hstate, hdown, ?_, hcause, hcauses, hin, ?_, fun k hk => ?_, hchanges⟩
  · rw [hlanes, hhead]
    exact Head.r_w ..
  · rw [hrun, hhead, Head.b_of (Head.keep_w (by decide) rfl), Head.safed_of (Head.keep_w (by decide) rfl)]
    rfl
  · rw [State.linkLoss_head_ne _ hk, hw, State.onHead_head_ne _ hk, hpass]

/-- What a write of TRAIN leaves of a link that was UP (R79, R80). -/
theorem train_loses_first {q : Req} {v : Word} {u : State} (hup : (s.head h).up = true)
    (hexec : exec (.train q h v) s = .next (
      let w := u.setHead h ((s.head h).trainWritten v)
      let u' := if (s.head h).up then w.linkLoss h false else w
      u'.onHead h (Head.trainBegun (u'.ctx h))))
    (hawake : (s.head h).inReset = false) (hhead : ∀ k, u.head k = s.head k) :
    Completes (.train q h v) s fun t => let y := t.head h
      y.r RiserReg.STATE = 1 ∧ y.b RiserReg.LINK_DOWN = true ∧ y.r RiserReg.SAFE_CAUSE = 4 ∧
      y.r LandReg.HSTATE ∈ [0, 10, 11] ∧ (∀ k, k ≠ h → t.head k = s.head k) ∧
      s.ChangesOnly [.time, .heads, .tiles, .atria, .shadows] t := by
  dsimp only at hexec
  rw [if_pos hup] at hexec
  have hchanges := execTrain_changes (List.Subset.refl _) q h v hexec
  have hloss := State.linkLoss_head (s := u.setHead h ((s.head h).trainWritten v)) (h := h)
    (by rw [State.setHead_head, Head.trainWritten_inReset]; exact hawake) false
  rw [State.setHead_head, State.setHead_ctx] at hloss
  obtain ⟨-, hdown, -, hcause, -, hin, -⟩ := Head.linkLost_leaves (u.ctx h) false ((s.head h).trainWritten v)
  rw [← hloss] at hdown hcause hin
  refine ⟨_, hexec, ?_, ?_, ?_, ?_, fun k hk => ?_, hchanges⟩
  · rw [State.onHead_head]
    exact Head.trainBegun_state ..
  · rw [State.onHead_head]
    exact (Head.b_of (Head.trainBegun_r _ _ (by decide))).trans hdown
  · rw [State.onHead_head]
    exact (Head.trainBegun_r _ _ (by decide)).trans hcause
  · rw [State.onHead_head, Head.trainBegun_r _ _ (by decide)]
    exact hin
  · rw [State.onHead_head_ne _ hk, State.linkLoss_head_ne _ hk, State.setHead_head_ne _ _ _ _ hk, hhead]

end

/-- Settles O26: training starts from a link that is down, or from one that a loss takes down first; and a loss is the link's own
fall, the SAFE order of cause 4 and what follows it. -/
theorem linkStartsAndLoss : Obligations.LinkStartsAndLoss := by
  unfold Obligations.LinkStartsAndLoss
  refine ⟨?_, ?_⟩
  · intro s wait h u x c hlive
    refine ⟨fun a hauto hstate hloss hsince htrip => ?_, fun lanes hup hlost => ?_⟩
    · exact ⟨_, autoRetrain_trains hlive hauto hstate hloss hsince htrip, Head.trainBegun_state .., rfl, rfl, rfl,
        fun f _ hn => Head.trainBegun_r c x (hn _ (by simp))⟩
    · exact linkLoss_completes hlive hup hlost
  · intro s q h v x u ok h2 h3 h4 hpower htrip
    have hexec := exec_train ok h2 h3 h4 hpower htrip
    refine ⟨fun hdown => ?_, fun hup => ?_⟩
    · rw [show (s.head h).up = false from hdown] at hexec
      refine ⟨_, hexec.trans ?_, Head.train_written (u.ctx h) v x⟩
      dsimp only
      rw [if_neg (by decide), State.onHead, State.setHead_head, State.setHead_setHead, State.setHead_ctx]
    · exact train_loses_first hup hexec (State.awake_of_accessOf ok) (State.atHead_head ok)

end Sys2Proof.Machine

end

section

namespace Sys2Proof.Machine

/-! ### The modulation code: one word (R107) -/

/-- The code's rate: 32 bits become 33. -/
theorem modulate_length {w : List Bool} (hw : w.length = 32) : (modulate w).length = 33 := by
  simp [modulate, hw]

/-- Channel bits 0 to 15 are the word's first half. -/
theorem modulate_getElem?_first {w : List Bool} (hw : w.length = 32) {k : Nat} (hk : k < 16) :
    (modulate w)[k]? = w[k]? := by
  rw [modulate, List.append_assoc, List.getElem?_append_left (by simp [hw, hk]), List.getElem?_take_of_lt hk]

/-- Channel bit 16 is the inserted one. -/
theorem modulate_getElem?_inserted {w : List Bool} (hw : w.length = 32) :
    (modulate w)[16]? = w[15]?.map (!·) := by
  simp [modulate, hw]

/-- Channel bits 17 to 32 are the word's second half. -/
theorem modulate_getElem?_second {w : List Bool} (hw : w.length = 32) (k : Nat) :
    (modulate w)[17 + k]? = w[16 + k]? := by
  rw [modulate, List.getElem?_append_right (by simp [hw]), List.getElem?_drop]
  congr 1
  simp [hw]

/-! ### The modulation code: the stream of words -/

/-- Word `j` of a stream that is long enough. -/
theorem word_length {e : List Bool} {j : Nat} (hj : 32 * j + 32 ≤ e.length) : ((e.drop (32 * j)).take 32).length = 32 := by
  rw [List.length_take, List.length_drop]
  omega

/-- Bit `k` of word `j` is bit `32 j + k` of the stream. -/
theorem word_getElem? (e : List Bool) (j : Nat) {k : Nat} (hk : k < 32) :
    ((e.drop (32 * j)).take 32)[k]? = e[32 * j + k]? := by
  rw [List.getElem?_take_of_lt hk, List.getElem?_drop]

/-- The modulated stream has 33 bits for each of its words. -/
theorem modulated_length {n : Nat} {e : List Bool} (he : 32 * n ≤ e.length) :
    ((wordsOf n e).flatMap modulate).length = 33 * n := by
  induction n generalizing e with
  | zero => rfl
  | succ n ih =>
    have hword : (e.take 32).length = 32 := word_length (j := 0) (by omega)
    rw [wordsOf, List.flatMap_cons, List.length_append, modulate_length hword, ih (by rw [List.length_drop]; omega)]
    ring

/-- Channel bit `k` of word `j` stands at place `33 j + k` of the modulated stream. -/
theorem modulated_getElem? {n j k : Nat} {e : List Bool} (he : 32 * n ≤ e.length) (hj : j < n) (hk : k < 33) :
    ((wordsOf n e).flatMap modulate)[33 * j + k]? = (modulate ((e.drop (32 * j)).take 32))[k]? := by
  induction n generalizing e j with
  | zero => omega
  | succ n ih =>
    have hword : (modulate (e.take 32)).length = 33 := modulate_length (word_length (j := 0) (by omega))
    rw [wordsOf, List.flatMap_cons]
    cases j with
    | zero => rw [List.getElem?_append_left (by omega), Nat.mul_zero, Nat.zero_add, List.drop_zero]
    | succ j =>
      rw [List.getElem?_append_right (by omega), hword, show 33 * (j + 1) + k - 33 = 33 * j + k by omega,
        ih (by rw [List.length_drop]; omega) (by omega), List.drop_drop, show 32 + 32 * j = 32 * (j + 1) by ring]

/-- R107's time order: the first half of word `j`, the inverse of its bit 15, the second half. -/
theorem modulated_order {n j : Nat} {e : List Bool} (he : 32 * n ≤ e.length) (hj : j < n) :
    (∀ k, k < 16 → ((wordsOf n e).flatMap modulate)[33 * j + k]? = e[32 * j + k]?) ∧
    ((wordsOf n e).flatMap modulate)[33 * j + 16]? = e[32 * j + 15]?.map (!·) ∧
    (∀ k, k < 16 → ((wordsOf n e).flatMap modulate)[33 * j + 17 + k]? = e[32 * j + 16 + k]?) := by
  have hword := word_length (e := e) (j := j) (by omega)
  refine ⟨fun k hk => ?_, ?_, fun k hk => ?_⟩
  · rw [modulated_getElem? he hj (by omega), modulate_getElem?_first hword hk, word_getElem? e j (by omega)]
  · rw [modulated_getElem? he hj (by omega), modulate_getElem?_inserted hword, word_getElem? e j (by omega)]
  · rw [Nat.add_assoc, modulated_getElem? he hj (by omega), modulate_getElem?_second hword, word_getElem? e j (by omega),
      Nat.add_assoc]

/-! ### The modulation code: runs of channel bits -/

/-- The inserted bit always differs from the bit before it. -/
theorem modulated_inserted_ne {n j : Nat} {e : List Bool} (he : 32 * n ≤ e.length) (hj : j < n) :
    ((wordsOf n e).flatMap modulate)[33 * j + 15]? ≠ ((wordsOf n e).flatMap modulate)[33 * j + 16]? := by
  obtain ⟨hfirst, hinserted, -⟩ := modulated_order he hj
  rw [hfirst 15 (by omega), hinserted, List.getElem?_eq_getElem (by omega)]
  simp

/-- Any 33 successive places hold a place 15 of a word. -/
theorem exists_place_before_inserted (i : Nat) : ∃ k j, k < 33 ∧ i + k = 33 * j + 15 :=
  ⟨(48 - i % 33) % 33, (i + (48 - i % 33) % 33) / 33, by omega, by omega⟩

/-- The k constraint of R107: among 34 successive channel bits two neighbours differ. -/
theorem modulated_run_bound {n i : Nat} {e : List Bool} (he : 32 * n ≤ e.length) (hi : i + 34 ≤ 33 * n) :
    ∃ k, k < 33 ∧ ((wordsOf n e).flatMap modulate)[i + k]? ≠ ((wordsOf n e).flatMap modulate)[i + k + 1]? := by
  obtain ⟨k, j, hk, hplace⟩ := exists_place_before_inserted i
  refine ⟨k, hk, ?_⟩
  rw [hplace]
  exact modulated_inserted_ne he (by omega)

/-- Settles O9: every stream of whole words is the channel bits of its words one after the other, and the inserted bit of each
word ends every run. -/
theorem modulation : Obligations.Modulation := by
  unfold Obligations.Modulation
  intro e hwhole z
  have he : 32 * (e.length / 32) ≤ e.length := Nat.mul_div_le ..
  have hz : z.length = 33 * (e.length / 32) := modulated_length he
  exact ⟨hz, fun j hj => modulated_order he (by omega), fun i hi => modulated_run_bound he (hz ▸ hi)⟩

end Sys2Proof.Machine

end

section

namespace Sys2Proof.Machine

/-! ### The parity blocks (R142) -/

theorem parityFrom_length (t w n j : Nat) (prev : BitVec 512) : (parityFrom t w n j prev).length = n := by
  induction n generalizing j prev with
  | zero => rfl
  | succ n ih => rw [parityFrom, List.length_cons, ih]

/-- Each block is λ of its row, added to the block before it. -/
theorem parityFrom_succ (t w : Nat) {n i : Nat} (hi : i + 1 < n) (j : Nat) (prev : BitVec 512) :
    ∃ p, (parityFrom t w n j prev)[i]? = some p ∧
      (parityFrom t w n j prev)[i + 1]? = some (lambda t w (j + i + 1) ^^^ p) := by
  induction i generalizing n j prev with
  | zero =>
    obtain ⟨m, rfl⟩ : ∃ m, n = m + 2 := ⟨n - 2, by omega⟩
    exact ⟨_, rfl, rfl⟩
  | succ i ih =>
    obtain ⟨m, rfl⟩ : ∃ m, n = m + 1 := ⟨n - 1, by omega⟩
    obtain ⟨p, hp, hnext⟩ := ih (n := m) (by omega) (j + 1) (lambda t w j ^^^ prev)
    refine ⟨p, hp, ?_⟩
    rw [show j + (i + 1) + 1 = j + 1 + i + 1 by omega]
    exact hnext

/-! ### The bits of λ (R142) -/

/-- A circulant's shift turns the block column: bit `x` comes from the column's bit `x` plus the shift. -/
theorem blockColumn_rotateRight (w c : Nat) {k x : Nat} (hk : k < 512) (hx : x < 512) :
    ((blockColumn w c).rotateRight k).getLsbD x = w.testBit (512 * c + (x + k) % 512) := by
  have hbit {i : Nat} (hi : i < 512) : (blockColumn w c).getLsbD i = w.testBit (512 * c + i) := by
    rw [blockColumn, BitVec.getLsbD_ofNat, decide_eq_true hi, Bool.true_and, Nat.testBit_shiftRight]
  rw [BitVec.getLsbD_rotateRight, Nat.mod_eq_of_lt hk, Bool.cond_decide]
  by_cases hlow : x < 512 - k
  · rw [if_pos hlow, hbit (by omega), Nat.mod_eq_of_lt (by omega), Nat.add_comm k x]
  · rw [if_neg hlow, hbit (by omega), decide_eq_true hx, Bool.true_and, show (x + k) % 512 = x - (512 - k) by omega]

/-- One circulant adds its bit where it lies in the row. -/
theorem circulant_getLsbD (mb w c r i : Nat) {x : Nat} (hx : x < 512) (v : BitVec 512) :
    (if circRow mb c i = r then v ^^^ (blockColumn w c).rotateRight (circShift mb c i) else v).getLsbD x =
      (v.getLsbD x).xor (decide (circRow mb c i = r) && w.testBit (512 * c + (x + circShift mb c i) % 512)) := by
  have hk : circShift mb c i < 512 := Nat.mod_lt _ (by decide)
  split
  next h => rw [BitVec.getLsbD_xor, blockColumn_rotateRight w c hk hx, decide_eq_true h, Bool.true_and]
  next h => rw [decide_eq_false h, Bool.false_and, Bool.xor_false]

/-- A bit of a sum is followed through the sum's steps. -/
theorem foldl_getLsbD {α : Type} {n x : Nat} {f : BitVec n → α → BitVec n} {g : Bool → α → Bool}
    (h : ∀ v a, (f v a).getLsbD x = g (v.getLsbD x) a) (l : List α) (v : BitVec n) :
    (l.foldl f v).getLsbD x = l.foldl g (v.getLsbD x) :=
  (List.foldl_hom (BitVec.getLsbD · x) fun v a => (h v a).symm).symm

/-- An information column adds the bits of its three circulants. -/
theorem column_getLsbD (mb w c r : Nat) {x : Nat} (hx : x < 512) (v : BitVec 512) :
    ([0, 1, 2].foldl (fun v i =>
      if circRow mb c i = r then v ^^^ (blockColumn w c).rotateRight (circShift mb c i) else v) v).getLsbD x =
    ([0, 1, 2].map fun i => decide (circRow mb c i = r) &&
      w.testBit (512 * c + (x + circShift mb c i) % 512)).foldl xor (v.getLsbD x) := by
  rw [List.foldl_map]
  exact foldl_getLsbD (fun v i => circulant_getLsbD mb w c r i hx v) _ v

/-- Bit `x` of λ_r sums the information bits of check row `512 r + x`. -/
theorem lambda_getLsbD (t w r : Nat) {x : Nat} (hx : x < 512) : (lambda t w r).getLsbD x =
    ((List.range 513).flatMap fun c => [0, 1, 2].map fun i => decide (circRow (blockRows t) c i = r) &&
      w.testBit (512 * c + (x + circShift (blockRows t) c i) % 512)).foldl xor false := by
  have hzero : (0 : BitVec 512).getLsbD x = false := BitVec.getLsbD_zero
  rw [List.foldl_flatMap, ← hzero]
  exact foldl_getLsbD (fun v c => column_getLsbD (blockRows t) w c r hx v) _ 0

/-- Settles O10: the blocks by their recursion, and the bits of λ circulant by circulant. -/
theorem parity : Obligations.Parity := by
  unfold Obligations.Parity
  intro t w
  have hrows : blockRows t = 32 * t + 31 + 1 := by unfold blockRows; ring
  refine ⟨parityFrom_length .., ?_, fun j hj hjlt => ?_, fun r x _ hx => lambda_getLsbD t w r hx⟩
  · unfold parityOf
    rw [hrows, parityFrom, List.getElem?_cons_zero]
    exact congrArg some BitVec.xor_zero
  · obtain ⟨p, hp, hnext⟩ := parityFrom_succ t w (n := blockRows t) (i := j - 1) (by omega) 0 0
    rw [show j - 1 + 1 = j by omega, show 0 + (j - 1) + 1 = j by omega] at hnext
    exact ⟨p, hp, hnext⟩

end Sys2Proof.Machine

end

section

namespace Sys2Proof.Machine

/-! ### The words of the three commands (R158, R159) -/

/-- The operands of a retry order (R153). -/
def orderOperands : List Fld := [WeftReg.GROUP, WeftReg.SECTOR, WeftReg.KEEP, WeftReg.FAMILIES]

/-- The plain fields of a channel's control word stand apart from CLR_STATS, and no limit binds them; the retry order's word
holds its operands, its two commands and BUSY. The two facts share one evaluation of the head's field table. -/
theorem readWords_fields :
    (∀ i : Fin 33,
      (headStored (BeamReg.CLR_STATS i.val).off).all (fun g => !limitFields.any fun e => e.1.key == g.key) = true ∧
      ∀ f ∈ fieldsIn headFields (BeamReg.CLR_STATS i.val).off, f.acc = .rw → headOwn f = false →
        0 < f.width ∧ (f.lsb + f.width ≤ 2 ∨ 3 ≤ f.lsb)) ∧
    fieldsIn headFields 0x58034 = orderOperands ++ [WeftReg.GO, WeftReg.RELEASE, WeftReg.BUSY] := by decide +kernel

theorem orderWord_fields : fieldsIn headFields 0x58034 = orderOperands ++ [WeftReg.GO, WeftReg.RELEASE, WeftReg.BUSY] :=
  readWords_fields.2

/-! ### CLR_STATS of a beam channel (R158, R160) -/

theorem Head.writeAct_clrStats (c : Ctx) (i : Fin 33) (v : Word) (x : Head) :
    x.writeAct c (BeamReg.CLR_STATS i.val).off (forced (BeamReg.CLR_STATS i.val) 1 v) = x.clearStats i := by
  have hi := i.isLt
  have hoff : (BeamReg.CLR_STATS i.val).off = 0x40000 + 0x800 * i.val := rfl
  have hsampler : toSampler ((0x40000 + 0x800 * i.val - 0x40000) / 0x800) = i := Fin.ext (by simp only [toSampler]; omega)
  have hword : (0x40000 + 0x800 * i.val) % 0x800 = 0 := by omega
  have hin : (BeamReg.CLR_STATS i.val).lsb ≤ 2 ∧ 2 < (BeamReg.CLR_STATS i.val).lsb + (BeamReg.CLR_STATS i.val).width :=
    ⟨Nat.le_refl 2, Nat.lt_succ_self 2⟩
  have hbit : bitOf (forced (BeamReg.CLR_STATS i.val) 1 v) 2 = true :=
    (forced_testBit (BeamReg.CLR_STATS i.val) 1 v (by decide : 0 < 1) 2).trans
      ((if_pos hin).trans (by decide : Nat.testBit 1 (2 - 2) = true))
  unfold Head.writeAct
  rw [hoff]
  iterate 15 rw [if_neg (by omega)]
  rw [if_pos (by omega), hsampler, hbit, hword]
  rfl

/-- A write of CLR_STATS (R160). -/
theorem Head.clrStats_written (i : Fin 33) (v : Word) (x : Head) :
    let off := 0x40000 + 0x800 * i.val
    let y := (x.stored off (forced (BeamReg.CLR_STATS i.val) 1 v)).clearStats i
    y.Took off v ∧ y.beam i = { x.beam i with stats := Mem.empty } ∧ (∀ k, k ≠ i → y.beam k = x.beam k) ∧
      x.KeepsFields y (fieldsIn headFields off) := by
  intro off y
  have hi := i.isLt
  have hb : ¬(0x70100 ≤ off ∧ off < 0x70208) := by omega
  have hbeam (k : Fin 33) : (x.stored off (forced (BeamReg.CLR_STATS i.val) 1 v)).beam k = x.beam k := by
    rw [Head.stored_eq hb]
    rfl
  refine ⟨Head.took_of (V := forced (BeamReg.CLR_STATS i.val) 1 v) (x := x) hb (fun f _ _ _ => rfl)
    (fun f hf hrw hown => ?_), ?_, fun k hk => ?_, Head.stored_keeps hb⟩
  · obtain ⟨hw, hapart⟩ := (readWords_fields.1 i).2 f hf hrw hown
    exact bits_forced_of_apart (by decide : 0 < 1) hw hapart 1 v
  · exact (Head.onBeam_beam ..).trans (by rw [hbeam])
  · exact (Head.onBeam_beam_ne _ hk _).trans (hbeam k)

/-! ### The retry order's word (R153, R159) -/

theorem Head.writeAct_order (c : Ctx) (v : Nat) (x : Head) : x.writeAct c 0x58034 v =
    let y := if bitOf v 24 then x.retryGo else x
    if bitOf v 25 then y.releaseSlots else y := by
  unfold Head.writeAct; simp

/-- No field of the word has its bits kept by an action, and no limit binds any. -/
theorem orderWord_stored : headStored 0x58034 = fieldsIn headFields 0x58034 ∧
    (headStored 0x58034).all (fun g => !limitFields.any fun e => e.1.key == g.key) = true := by
  have hword : headStored 0x58034 = fieldsIn headFields 0x58034 := by
    unfold headStored
    rw [orderWord_fields]
    decide
  refine ⟨hword, ?_⟩
  rw [hword, orderWord_fields]
  decide

/-- The operands of a retry order are plain fields of the word, apart from its commands. -/
theorem orderWord_plain : ∀ f ∈ fieldsIn headFields 0x58034, f.acc = .rw →
    0 < f.width ∧ f.lsb + f.width ≤ WeftReg.GO.lsb ∧ f.lsb + f.width ≤ WeftReg.RELEASE.lsb := by
  rw [orderWord_fields]
  decide

/-- `V` gives the word's operands the bits of `v`. -/
def OperandsOf (v : Word) (V : Nat) : Prop := ∀ f ∈ fieldsIn headFields 0x58034, f.acc = .rw → f.bits V = f.bits v.toNat

theorem operandsOf_go (v : Word) : OperandsOf v (forced WeftReg.GO 1 v) := fun f hf hrw =>
  have ⟨hw, hgo, _⟩ := orderWord_plain f hf hrw
  bits_forced_of_apart (by decide) hw (.inl hgo) 1 v

theorem operandsOf_release (v : Word) : OperandsOf v (forced WeftReg.RELEASE 1 v) := fun f hf hrw =>
  have ⟨hw, _, hrelease⟩ := orderWord_plain f hf hrw
  bits_forced_of_apart (by decide) hw (.inl hrelease) 1 v

/-- What the stores of that word leave: its operands alone take the write. -/
theorem Head.order_stored {v : Word} {V : Nat} (hV : OperandsOf v V) (x : Head) : let y := x.stored 0x58034 V
    (y.r WeftReg.GROUP = v.toNat % 8 ∧ y.r WeftReg.SECTOR = v.toNat / 8 % 64 ∧ y.b WeftReg.KEEP = v.toNat.testBit 9 ∧
      y.r WeftReg.FAMILIES = v.toNat / 2 ^ 16 % 64) ∧
      y.weft = x.weft ∧ y.beams = x.beams ∧
      ∀ g : Fld, (∀ f ∈ orderOperands, g.key ≠ f.key) → y.r g = x.r g := by
  have hstored {f : Fld} (hf : f ∈ headStored 0x58034) (hrw : f.acc = .rw) :
      (x.stored 0x58034 V).r f = v.toNat / 2 ^ f.lsb % 2 ^ f.width := by
    have hword := (mem_headStored.1 hf).1
    rw [Head.stored_rw (by decide) hf hrw, hV f hword hrw, Fld.bits_eq _ _ (orderWord_plain f hword hrw).1]
  rw [orderWord_stored.1, orderWord_fields] at hstored
  have hacc : ∀ f ∈ orderOperands ++ [WeftReg.GO, WeftReg.RELEASE, WeftReg.BUSY], f.acc = .rw ∨ f.acc = .w1c →
      f ∈ orderOperands := by decide
  have hgroup := hstored (f := WeftReg.GROUP) (by decide) rfl
  have hkeep := hstored (f := WeftReg.KEEP) (by decide) rfl
  refine ⟨⟨hgroup.trans (congrArg (· % 8) (Nat.div_one _)), hstored (by decide) rfl, ?_, hstored (by decide) rfl⟩, ?_, ?_,
    fun g hg => Head.stored_ne (by decide) fun f hf hrw =>
      hg f (hacc f (by rwa [orderWord_stored.1, orderWord_fields] at hf) hrw)⟩
  · rw [Head.b_of_r hkeep, Nat.testBit_eq_decide_div_mod_eq]
    show (v.toNat / 2 ^ 9 % 2 != 0) = decide (v.toNat / 2 ^ 9 % 2 = 1)
    rcases Nat.mod_two_eq_zero_or_one (v.toNat / 2 ^ 9) with hbit | hbit <;> rw [hbit] <;> rfl
  · rw [Head.stored_eq (by decide)]
  · rw [Head.stored_eq (by decide)]

/-! ### An order's slots (R153) -/

theorem Head.heldEnds_isSome_iff {x : Head} {g p : Nat} : (x.heldEnds g p).isSome = true ↔
    ∀ q < 4, ∃ r ∈ (x.beam (toSampler (4 * g + q))).slots, r.state = 3 ∧ r.live.sector = p ∧ r.ue = false := by
  unfold Head.heldEnds
  dsimp only
  split
  next h => simpa [List.find?_isSome, and_assoc] using h
  next h => simpa [List.find?_isSome, and_assoc] using h

/-- What the end of an order writes (R153, R159). -/
def orderEndFields : List Fld :=
  [WeftReg.BUSY, WeftReg.ORDER_DONE, WeftReg.STATUS, WeftReg.HYP_RUN, WeftReg.DECODED, WeftReg.FAILED]

/-- An order that finds no slots held ends with NOT_HELD (R153). -/
theorem Head.orderEnd_notHeld {x : Head} {o : Order} (h : x.weft.order = some o) : let y := x.orderEnd 1 0
    y.weft = { x.weft with order := none } ∧ y.beams = x.beams ∧ y.b WeftReg.BUSY = false ∧
      y.b WeftReg.ORDER_DONE = true ∧ y.r WeftReg.STATUS = 1 ∧
      ∀ g : Fld, (∀ f ∈ orderEndFields, g.key ≠ f.key) → y.r g = x.r g := by
  unfold Head.orderEnd
  rw [h]
  dsimp only
  rw [if_neg (by simp)]
  refine ⟨rfl, rfl, ?_, ?_, ?_, fun g hg => ?_⟩
  · exact Head.b_put _ false rfl
  · exact (Head.b_of (Head.keep_put (by decide) rfl)).trans (Head.b_flag _ rfl)
  · exact Head.keep_put (by decide) (Head.keep_flag (by decide) (Head.keep_w (by decide) (Head.keep_w (by decide)
      (Head.keep_w (by decide) (Head.r_w ..)))))
  · exact Head.keep_put (hg _ (by decide)) (Head.keep_flag (hg _ (by decide)) (Head.keep_w (hg _ (by decide))
      (Head.keep_w (hg _ (by decide)) (Head.keep_w (hg _ (by decide)) (Head.keep_w (hg _ (by decide)) rfl)))))

/-- The order that the operands name (R153). -/
def Head.namedOrder (x : Head) : Order := { Order.reset with
  group := x.r WeftReg.GROUP, sector := x.r WeftReg.SECTOR, keep := x.b WeftReg.KEEP, families := x.r WeftReg.FAMILIES }

/-- The head with that order pending. -/
def Head.ordered (x : Head) : Head := { x.put WeftReg.BUSY true with weft := { x.weft with order := some x.namedOrder } }

theorem Head.retryGo_eq (x : Head) : x.retryGo =
    if x.b WeftReg.BUSY then x.flag WeftReg.ORDER_REJ
    else if (x.heldEnds (x.r WeftReg.GROUP) (x.r WeftReg.SECTOR)).isSome then x.ordered else x.ordered.orderEnd 1 0 := by
  have hends : x.ordered.heldEnds (x.r WeftReg.GROUP) (x.r WeftReg.SECTOR) =
    x.heldEnds (x.r WeftReg.GROUP) (x.r WeftReg.SECTOR) := rfl
  have hgo : x.retryGo = if x.b WeftReg.BUSY then x.flag WeftReg.ORDER_REJ
      else if (x.ordered.heldEnds (x.r WeftReg.GROUP) (x.r WeftReg.SECTOR)).isNone then x.ordered.orderEnd 1 0
      else x.ordered := rfl
  rw [hgo, hends]
  cases x.heldEnds (x.r WeftReg.GROUP) (x.r WeftReg.SECTOR) <;> rfl

/-! ### Slots of several channels -/

/-- A change of the beam channels of a list reaches each of them once. -/
theorem Head.foldl_onBeam (f : BeamSt → BeamSt) (l : List (Fin 33)) (hl : l.Nodup) (x : Head) :
    ∃ bs, l.foldl (fun x i => x.onBeam i f) x = { x with beams := bs } ∧
      ∀ i : Fin 33, bs[i] = if i ∈ l then f (x.beam i) else x.beam i := by
  induction l generalizing x with
  | nil => exact ⟨x.beams, rfl, fun i => rfl⟩
  | cons a l ih =>
    obtain ⟨hal, hl⟩ := List.nodup_cons.1 hl
    obtain ⟨bs, hbs, hb⟩ := ih hl (x.onBeam a f)
    refine ⟨bs, hbs, fun i => ?_⟩
    rw [hb i]
    by_cases hi : i = a
    · subst hi
      rw [if_neg hal, if_pos List.mem_cons_self, Head.onBeam_beam]
    · simp only [Head.onBeam_beam_ne x hi, List.mem_cons, hi, false_or]

/-- The channels of a twill group (R140). -/
def groupChannels (g : Nat) : List (Fin 33) := (List.range 4).map fun q => toSampler (4 * g + q)

theorem groupChannels_spec : ∀ g < 8, (groupChannels g).Nodup ∧
    ∀ i : Fin 33, i ∈ groupChannels g ↔ i.val < 32 ∧ i.val / 4 = g := by decide

/-- A held slot of frame position `p` is freed (R153). -/
def RetSlot.freed (p : Nat) (r : RetSlot) : RetSlot := if r.state = 3 ∧ r.live.sector = p then { r with state := 0 } else r

/-- RELEASE frees the slots of the group's four channels alone. -/
theorem Head.releaseSlots_spec {x : Head} (hg : x.r WeftReg.GROUP < 8) : ∃ bs, x.releaseSlots = { x with beams := bs } ∧
    ∀ i : Fin 33, bs[i] = if i.val < 32 ∧ i.val / 4 = x.r WeftReg.GROUP
      then { x.beam i with slots := (x.beam i).slots.map (RetSlot.freed (x.r WeftReg.SECTOR)) } else x.beam i := by
  obtain ⟨hnodup, hmem⟩ := groupChannels_spec _ hg
  obtain ⟨bs, hbs, hb⟩ := Head.foldl_onBeam (fun b => { b with slots := b.slots.map (RetSlot.freed (x.r WeftReg.SECTOR)) })
    _ hnodup x
  refine ⟨bs, ?_, fun i => (hb i).trans (if_congr (hmem i) rfl rfl)⟩
  rw [← hbs, groupChannels, List.foldl_map]
  rfl

/-! ### GO (R153) -/

/-- What GO may write (R153). -/
theorem Head.retryGo_same (x : Head) {g : Fld} (hrej : g.key ≠ WeftReg.ORDER_REJ.key)
    (hend : ∀ f ∈ orderEndFields, g.key ≠ f.key) : x.retryGo.r g = x.r g := by
  have hordered : x.ordered.r g = x.r g := Head.keep_record (Head.keep_put (hend _ (by decide)) rfl)
  obtain ⟨-, -, -, -, -, hended⟩ := Head.orderEnd_notHeld (x := x.ordered) rfl
  rw [Head.retryGo_eq]
  exact Head.keep_ite (Head.keep_flag hrej rfl) (Head.keep_ite hordered ((hended g hend).trans hordered))

section

variable {v : Word} {x z : Head} (hz : x.stored 0x58034 (forced WeftReg.GO 1 v) = z)
include hz

theorem Head.go_keeps : z.retryGo.Took 0x58034 v ∧ x.KeepsFields z.retryGo (fieldsIn headFields 0x58034 ++
    [WeftReg.ORDER_REJ, WeftReg.ORDER_DONE, WeftReg.STATUS, WeftReg.HYP_RUN, WeftReg.DECODED, WeftReg.FAILED]) := by
  subst hz
  obtain ⟨-, -, -, hkeep⟩ := Head.order_stored (operandsOf_go v) x
  have hplain : ∀ f ∈ orderOperands ++ [WeftReg.GO, WeftReg.RELEASE, WeftReg.BUSY], f.acc = .rw →
      f.key ≠ WeftReg.ORDER_REJ.key ∧ ∀ g ∈ orderEndFields, f.key ≠ g.key := by decide
  refine ⟨Head.took_of (V := forced WeftReg.GO 1 v) (x := x) (by decide) (fun f hf hrw _ => ?_)
    (fun f hf hrw _ => operandsOf_go v f hf hrw), fun g _ hn => ?_⟩
  · rw [orderWord_fields] at hf
    obtain ⟨hrej, hend⟩ := hplain f hf hrw
    exact Head.retryGo_same _ hrej hend
  · rw [orderWord_fields] at hn
    have hlisted : ∀ f ∈ orderEndFields, f ∈ orderOperands ++ [WeftReg.GO, WeftReg.RELEASE, WeftReg.BUSY] ++
        [WeftReg.ORDER_REJ, WeftReg.ORDER_DONE, WeftReg.STATUS, WeftReg.HYP_RUN, WeftReg.DECODED, WeftReg.FAILED] := by decide
    exact (Head.retryGo_same _ (hn _ (by decide)) fun f hf => hn f (hlisted f hf)).trans
      (hkeep g fun f hf => hn f (List.mem_append_left _ (List.mem_append_left _ hf)))

theorem Head.go_same {f : Fld} (hf : ∀ g ∈ orderOperands, f.key ≠ g.key) : z.r f = x.r f := by
  subst hz
  obtain ⟨-, -, -, hkeep⟩ := Head.order_stored (operandsOf_go v) x
  exact hkeep f hf

/-- The slots that the order names, in the head before the write. -/
theorem Head.go_heldEnds : (z.heldEnds (z.r WeftReg.GROUP) (z.r WeftReg.SECTOR)).isSome = true ↔
    ∀ q < 4, ∃ r ∈ (x.beam (toSampler (4 * (v.toNat % 8) + q))).slots,
      r.state = 3 ∧ r.live.sector = v.toNat / 8 % 64 ∧ r.ue = false := by
  subst hz
  obtain ⟨⟨hgroup, hsector, -, -⟩, -, hbeams, -⟩ := Head.order_stored (operandsOf_go v) x
  rw [Head.heldEnds_isSome_iff, hgroup, hsector]
  unfold Head.beam
  rw [hbeams]

theorem Head.go_namedOrder : z.namedOrder = { Order.reset with
    group := v.toNat % 8, sector := v.toNat / 8 % 64, keep := v.toNat.testBit 9, families := v.toNat / 2 ^ 16 % 64 } := by
  subst hz
  obtain ⟨⟨hgroup, hsector, hkeep, hfamilies⟩, -⟩ := Head.order_stored (operandsOf_go v) x
  unfold Head.namedOrder
  rw [hgroup, hsector, hkeep, hfamilies]

/-- While an order is pending or runs, another is refused. -/
theorem Head.go_busy (hbusy : x.b WeftReg.BUSY = true) : let y := z.retryGo
    y.b WeftReg.ORDER_REJ = true ∧ y.b WeftReg.BUSY = true ∧ y.weft = z.weft ∧ y.beams = z.beams := by
  have hb : z.b WeftReg.BUSY = true := (Head.b_of (Head.go_same hz (by decide))).trans hbusy
  rw [Head.retryGo_eq, if_pos hb]
  exact ⟨Head.b_flag _ rfl, (Head.b_of (Head.keep_flag (by decide) rfl)).trans hb, rfl, rfl⟩

/-- An order whose four slots are held is pending. -/
theorem Head.go_held (hbusy : x.b WeftReg.BUSY = false)
    (hheld : (z.heldEnds (z.r WeftReg.GROUP) (z.r WeftReg.SECTOR)).isSome = true) : let y := z.retryGo
    y.b WeftReg.BUSY = true ∧ y.b WeftReg.ORDER_REJ = x.b WeftReg.ORDER_REJ ∧
      y.weft = { z.weft with order := some z.namedOrder } ∧ y.beams = z.beams ∧
      x.KeepsFields y (fieldsIn headFields 0x58034) := by
  have hb : z.b WeftReg.BUSY = false := (Head.b_of (Head.go_same hz (by decide))).trans hbusy
  have hother {f : Fld} (hf : f.key ≠ WeftReg.BUSY.key) : z.ordered.r f = z.r f := Head.keep_record (Head.keep_put hf rfl)
  rw [Head.retryGo_eq, if_neg (by rw [hb]; decide), if_pos hheld]
  refine ⟨Head.b_put z true rfl, Head.b_of ((hother (by decide)).trans (Head.go_same hz (by decide))), rfl, rfl,
    fun g _ hn => ?_⟩
  rw [orderWord_fields] at hn
  exact (hother (hn _ (by decide))).trans (Head.go_same hz fun f hf => hn f (List.mem_append_left _ hf))

/-- An order one of whose slots is not held ends at once (R153). -/
theorem Head.go_notHeld (hbusy : x.b WeftReg.BUSY = false)
    (hheld : ¬ (z.heldEnds (z.r WeftReg.GROUP) (z.r WeftReg.SECTOR)).isSome = true) : let y := z.retryGo
    (y.b WeftReg.BUSY = false ∧ y.b WeftReg.ORDER_REJ = x.b WeftReg.ORDER_REJ ∧ y.b WeftReg.ORDER_DONE = true ∧
      y.r WeftReg.STATUS = 1 ∧ y.weft = { z.weft with order := none }) ∧ y.beams = z.beams := by
  have hb : z.b WeftReg.BUSY = false := (Head.b_of (Head.go_same hz (by decide))).trans hbusy
  obtain ⟨hweft, hbeams, hdone, hflag, hstatus, hkeep⟩ := Head.orderEnd_notHeld (x := z.ordered) rfl
  have hrej : (z.ordered.orderEnd 1 0).b WeftReg.ORDER_REJ = z.b WeftReg.ORDER_REJ :=
    Head.b_of ((hkeep _ (by decide)).trans (Head.keep_record (Head.keep_put (by decide) rfl)))
  rw [Head.retryGo_eq, if_neg (by rw [hb]; decide), if_neg hheld]
  exact ⟨⟨hdone, hrej.trans (Head.b_of (Head.go_same hz (by decide))), hflag, hstatus, hweft⟩, hbeams⟩

end

/-- A write of GO. -/
theorem Head.go_written (v : Word) (x : Head) :
    let p := v.toNat / 8 % 64
    let o : Order := { Order.reset with
      group := v.toNat % 8, sector := p, keep := v.toNat.testBit 9, families := v.toNat / 2 ^ 16 % 64 }
    let y := (x.stored 0x58034 (forced WeftReg.GO 1 v)).retryGo
    y.Took 0x58034 v ∧
      (x.b WeftReg.BUSY = true → y.b WeftReg.ORDER_REJ = true ∧ y.b WeftReg.BUSY = true ∧ y.weft = x.weft) ∧
      (x.b WeftReg.BUSY = false → (∀ q < 4, ∃ r ∈ (x.beam (toSampler (4 * o.group + q))).slots,
          r.state = 3 ∧ r.live.sector = p ∧ r.ue = false) →
        y.b WeftReg.BUSY = true ∧ y.b WeftReg.ORDER_REJ = x.b WeftReg.ORDER_REJ ∧
        y.weft = { x.weft with order := some o } ∧ x.KeepsFields y (fieldsIn headFields 0x58034)) ∧
      (x.b WeftReg.BUSY = false → (∃ q < 4, ∀ r ∈ (x.beam (toSampler (4 * o.group + q))).slots,
          r.state ≠ 3 ∨ r.live.sector ≠ p ∨ r.ue = true) →
        y.b WeftReg.BUSY = false ∧ y.b WeftReg.ORDER_REJ = x.b WeftReg.ORDER_REJ ∧ y.b WeftReg.ORDER_DONE = true ∧
        y.r WeftReg.STATUS = 1 ∧ y.weft = { x.weft with order := none }) ∧
      y.beams = x.beams ∧ x.KeepsFields y (fieldsIn headFields 0x58034 ++
        [WeftReg.ORDER_REJ, WeftReg.ORDER_DONE, WeftReg.STATUS, WeftReg.HYP_RUN, WeftReg.DECODED, WeftReg.FAILED]) := by
  intro p o y
  obtain ⟨-, hweft, hbeams, -⟩ := Head.order_stored (operandsOf_go v) x
  obtain ⟨z, hz⟩ : ∃ z, x.stored 0x58034 (forced WeftReg.GO 1 v) = z := ⟨_, rfl⟩
  have hy : y = z.retryGo := congrArg Head.retryGo hz
  rw [hz] at hweft hbeams
  rw [hy, ← hweft, ← hbeams]
  obtain ⟨htook, hkeeps⟩ := Head.go_keeps hz
  have hends := Head.go_heldEnds hz
  refine ⟨htook, fun hbusy => ?_, fun hbusy hheld => ?_, fun hbusy hfree => ?_, ?_, hkeeps⟩
  · obtain ⟨hrej, hbusy', hw, -⟩ := Head.go_busy hz hbusy
    exact ⟨hrej, hbusy', hw⟩
  · obtain ⟨hbusy', hrej, hw, -, hk⟩ := Head.go_held hz hbusy (hends.2 hheld)
    rw [Head.go_namedOrder hz] at hw
    exact ⟨hbusy', hrej, hw, hk⟩
  · refine (Head.go_notHeld hz hbusy fun hall => ?_).1
    obtain ⟨q, hq, hnone⟩ := hfree
    obtain ⟨r, hr, h3, hp, hue⟩ := hends.1 hall q hq
    rcases hnone r hr with h | h | h
    · exact h h3
    · exact h hp
    · rw [hue] at h
      cases h
  · cases hbusy : x.b WeftReg.BUSY
    · by_cases hheld : (z.heldEnds (z.r WeftReg.GROUP) (z.r WeftReg.SECTOR)).isSome = true
      · obtain ⟨-, -, -, hb, -⟩ := Head.go_held hz hbusy hheld
        exact hb
      · exact (Head.go_notHeld hz hbusy hheld).2
    · obtain ⟨-, -, -, hb⟩ := Head.go_busy hz hbusy
      exact hb

/-! ### RELEASE (R153) -/

/-- A write of RELEASE. -/
theorem Head.release_written (v : Word) (x : Head) :
    let freed (r : RetSlot) : RetSlot := if r.state = 3 ∧ r.live.sector = v.toNat / 8 % 64 then { r with state := 0 } else r
    let y := (x.stored 0x58034 (forced WeftReg.RELEASE 1 v)).releaseSlots
    y.Took 0x58034 v ∧
      (∀ i : Fin 33, (i.val < 32 ∧ i.val / 4 = v.toNat % 8 →
          y.beam i = { x.beam i with slots := (x.beam i).slots.map freed }) ∧
        (¬ (i.val < 32 ∧ i.val / 4 = v.toNat % 8) → y.beam i = x.beam i)) ∧
      y.weft = x.weft ∧ x.KeepsFields y [WeftReg.GROUP, WeftReg.SECTOR, WeftReg.KEEP, WeftReg.FAMILIES] := by
  intro freed y
  obtain ⟨⟨hgroup, hsector, -, -⟩, hweft, hbeams, hkeep⟩ := Head.order_stored (operandsOf_release v) x
  obtain ⟨z, hz⟩ : ∃ z, x.stored 0x58034 (forced WeftReg.RELEASE 1 v) = z := ⟨_, rfl⟩
  have hy : y = z.releaseSlots := congrArg Head.releaseSlots hz
  rw [hz] at hgroup hsector hweft hbeams hkeep
  obtain ⟨bs, hbs, hb⟩ := Head.releaseSlots_spec (x := z) (by rw [hgroup]; exact Nat.mod_lt _ (by decide))
  rw [hy, hbs]
  have hbeam (i : Fin 33) : z.beam i = x.beam i := congrArg (fun v => v[i]) hbeams
  refine ⟨Head.took_of (V := forced WeftReg.RELEASE 1 v) (x := x) (by decide) (fun f _ _ _ => by rw [hz]; rfl)
    (fun f hf hrw _ => operandsOf_release v f hf hrw), fun i => ?_, hweft, fun g _ hn => hkeep g hn⟩
  have hi := hb i
  rw [hgroup, hsector, hbeam] at hi
  exact ⟨fun h => hi.trans (if_pos h), fun h => hi.trans (if_neg h)⟩

/-! ### The three commands -/

theorem Head.writeAct_go {v : Word} (h : v.toNat.testBit 25 = false) (c : Ctx) (x : Head) :
    x.writeAct c 0x58034 (forced WeftReg.GO 1 v) = x.retryGo := by
  have hgo : bitOf (forced WeftReg.GO 1 v) 24 = true := (forced_testBit WeftReg.GO 1 v (by decide) 24).trans (if_pos (by decide))
  have hrelease : bitOf (forced WeftReg.GO 1 v) 25 = false :=
    ((forced_testBit WeftReg.GO 1 v (by decide) 25).trans (if_neg (by decide))).trans h
  rw [Head.writeAct_order, hgo, hrelease]
  rfl

theorem Head.writeAct_release {v : Word} (h : v.toNat.testBit 24 = false) (c : Ctx) (x : Head) :
    x.writeAct c 0x58034 (forced WeftReg.RELEASE 1 v) = x.releaseSlots := by
  have hgo : bitOf (forced WeftReg.RELEASE 1 v) 24 = false :=
    ((forced_testBit WeftReg.RELEASE 1 v (by decide) 24).trans (if_neg (by decide))).trans h
  have hrelease : bitOf (forced WeftReg.RELEASE 1 v) 25 = true :=
    (forced_testBit WeftReg.RELEASE 1 v (by decide) 25).trans (if_pos (by decide))
  rw [Head.writeAct_order, hgo, hrelease]
  rfl

/-- Settles O31: each command by the stores of its word and by the action that follows them. -/
theorem readRegisters : Obligations.ReadRegisters := by
  unfold Obligations.ReadRegisters
  intro s q h v x
  have hx : (s.turnTo 3).head h = x := State.turnTo_head 3 s h
  refine ⟨fun i => ?_, fun ok => ?_⟩
  · intro off ok
    have hi := i.isLt
    refine headRow_completes (f := BeamReg.CLR_STATS i.val) (k := 1) (State.turnTo_accessOf ok 3) (readWords_fields.1 i).1
      (show off ≠ 0 by omega) (show off ≠ 0x7000C by omega) (show off ≠ 0x7001C by omega) ?_
    rw [hx, Head.writeAct_clrStats]
    exact Head.clrStats_written i v x
  intro u freed
  refine ⟨?_, fun h24 => ?_⟩
  · intro p m o h25
    refine headRow_completes (f := WeftReg.GO) (k := 1) (State.turnTo_accessOf ok 3) orderWord_stored.2 (by decide)
      (by decide) (by decide) ?_
    rw [hx, show WeftReg.GO.off = 0x58034 from rfl, Head.writeAct_go h25]
    exact Head.go_written v x
  · refine headRow_completes (f := WeftReg.RELEASE) (k := 1) (State.turnTo_accessOf ok 3) orderWord_stored.2 (by decide)
      (by decide) (by decide) ?_
    rw [hx, show WeftReg.RELEASE.off = 0x58034 from rfl, Head.writeAct_release h24]
    exact Head.release_written v x

end Sys2Proof.Machine

end

section

namespace Sys2Proof.Machine

/-! ### A pending order that already lists decodes

The replay engine starts an order from what the held position keeps of its first pass (R153, R156), so an order that starts
without such a record lists no decode, whatever it listed while it was pending. -/

/-- A pending order of family 0 that already lists a decode. -/
def listingOrder : Order := { Order.reset with families := 1, last := [.reset] }

/-- A track whose frame is kept in the first slot of its beam (R151). -/
def retainedTrack (q : Nat) : TrackEnd := { TrackEnd.reset with track := q, slot := some 0 }

/-- A head with that order, whose four slots of frame position 0 of group 0 are held (R152, R153). -/
def retainingHead : Head :=
  let x : Head := { Head.reset with inReset := false }
  let x := (List.range 4).foldl (fun (x : Head) q => x.onBeam (toSampler q) fun b => { b with
    slots := [{ RetSlot.reset with state := 3, live := retainedTrack q }] }) x
  { x with weft := { x.weft with order := some listingOrder } }

/-- The order is next in turn, its four slots are held, and nothing of their first pass is recorded. -/
theorem retainingHead_pends : let u := (framingState retainingHead).pass 0
    (u.tile 0).replay.running = none ∧ u.nextOrder 0 = some 0 ∧ (u.head 0).weft.order = some listingOrder ∧
      (u.head 0).heldEnds 0 0 = some ((List.range 4).map retainedTrack) ∧
      hypotheses 1 ((List.range 4).map retainedTrack) ≠ [] ∧ (u.head 0).weft.held = [] := by decide

/-- The order starts with an empty list. -/
theorem retainingHead_starts : ∃ t, exec (.replayStart 0 0) (framingState retainingHead) = .next t ∧
    (t.head 0).weft.order.map (·.last) = some [] := by
  refine ⟨_, rfl, ?_⟩
  decide

/-- Refutes O30: REPLAY_START empties the pending order's list of decodes where its position has no record of a first pass
(R153, R156), and the statement keeps the list. -/
theorem not_replayEngine : ¬ Obligations.ReplayEngine := by
  unfold Obligations.ReplayEngine
  intro hall
  obtain ⟨hidle, hnext, horder, hheld, hhyp, hrecord⟩ := retainingHead_pends
  obtain ⟨hstart, -⟩ := hall (framingState retainingHead) 0 0
  obtain ⟨-, htaken⟩ := hstart 0 hidle hnext _ horder
  obtain ⟨t, hexec, hkept, -⟩ := htaken _ hheld hhyp hrecord
  obtain ⟨t', hexec', hempty⟩ := retainingHead_starts
  obtain rfl : t = t' := Host.Outcome.next.inj (hexec.symm.trans hexec')
  rw [show headOf 0 0 = 0 from rfl] at hkept
  rw [hkept] at hempty
  exact absurd hempty (by decide)

end Sys2Proof.Machine

end

section

namespace Sys2Proof.Machine

/-! ### A loss of tracking while a frame is open

TRACK_LOST stops slot 1 in every state in which the head tracks (R217, R233), and the frames that are open end with it
(R157). -/

/-- A head that runs a schedule on a locked track, after two VALID wedges with a large TE (R233). -/
def strayingHead : Head :=
  { framingHead.w LandReg.TSTAT 6 with land := { framingHead.land with lossRun := 2 } }

/-- The head falls back to FOCUS with focus locked, and its open frame without a mark ends (R158, R217). -/
theorem Head.toFocus_noFrame {x : Head} (hrun : x.b AngleReg.RUNNING = true) (h : (x.beam 0).gate = some unframedGate)
    (c : Ctx) (code : Nat) : (x.toFocus c code).b (BeamReg.NO_FRAME 0) = true := by
  have hstop := Head.stopSlot1_noFrame hrun h c
  unfold Head.toFocus
  extract_lets +onlyGivenNames -merge -useContext -lift y z w u l v
  have hw : w.r (BeamReg.NO_FRAME 0) = y.r (BeamReg.NO_FRAME 0) :=
    Head.keep_w (by decide) (Head.keep_put (by decide) (Head.landAct_keep (by decide) c 1 0
      (Head.loopEnable_keep (by decide) _ _ (Head.loopEnable_keep (by decide) _ _ rfl))))
  have hv : v.r (BeamReg.NO_FRAME 0) = y.r (BeamReg.NO_FRAME 0) :=
    Head.keep_record (Head.keep_ite (Head.jumpOff_keep (by decide) (Head.keep_w (by decide) hw)) hw)
  exact (Head.b_of (Head.refresh_keep (by decide) c (Head.setHstate_keep (by decide) 4
    (Head.cmdEnd_keep (by decide) code hv)))).trans hstop

/-- That head as TRACK_LOST counts the loss (R233). -/
def Head.trackCounted (x : Head) : Head :=
  let y := (x.flag LandReg.TRACK_LOST).bump LandReg.TRACK_LOST_COUNT 1
  { y with land := { y.land with lossRun := 0, invRun := 0 } }

/-- TRACK_LOST of a head that tracks (R217, R233). -/
theorem execTrackLost_tracking {s : State} {wait : Nat} {h : Fin 32} (hawake : ((s.pass wait).head h).inReset = false)
    (hlocked : ((s.pass wait).head h).r LandReg.TSTAT = 6) (hloss : 2 ≤ ((s.pass wait).head h).land.lossRun)
    (htracks : ((s.pass wait).head h).trackCounted.tracking = true) :
    exec (.trackLost wait h) s = .next ((s.pass wait).setHead h
      (((s.pass wait).head h).trackCounted.toFocus ((s.pass wait).ctx h) 10)) := by
  show execTrackLost wait h s = _
  unfold execTrackLost
  rw [State.headAfter_due _ hawake (by rw [hlocked]; simp [hloss])]
  exact congrArg (fun y => Host.Outcome.next ((s.pass wait).setHead h y)) (if_pos htracks)

/-- Refutes O47: TRACK_LOST stops slot 1, the open frame of beam 0 ends without a mark and sets its NO_FRAME (R157, R158, R217,
R233), which the statement's list of fields leaves out. -/
theorem not_trackingEvents : ¬ Obligations.TrackingEvents := by
  unfold Obligations.TrackingEvents
  intro hall
  obtain ⟨-, -, hlost, -⟩ := hall (framingState strayingHead) 0 0 rfl
  obtain ⟨y, hexec, -, -, -, -, -, hkeeps⟩ := hlost (by decide) (.inl (by decide))
  have hy := State.setHead_next_inj hexec (execTrackLost_tracking rfl (by decide) (by decide) (by decide))
  refine Head.not_keepsFields_noFrame (by decide) ?_ (by decide) hkeeps
  rw [hy]
  exact Head.toFocus_noFrame (by decide) rfl _ 10

end Sys2Proof.Machine

end

section

namespace Sys2Proof.Machine

/-! ### Commands queued for the head-end (R87) -/

/-- Commands wait behind those already queued. -/
def Head.queued (l : List RCmd) (x : Head) : Head :=
  { x with riser := { x.riser with queue := x.riser.queue ++ l } }

theorem Head.queued_nil (x : Head) : x.queued [] = x := by
  unfold Head.queued
  rw [List.append_nil]

theorem Head.queued_queued (l m : List RCmd) (x : Head) : (x.queued l).queued m = x.queued (l ++ m) := by
  unfold Head.queued
  rw [List.append_assoc]

theorem Head.issue_up {x : Head} (h : x.up = true) (c : Ctx) (m : RCmd) : x.issue c m = x.queued [{ m with issued := c.now }] :=
  if_pos h

theorem Head.issue_down {x : Head} (h : x.up = false) (c : Ctx) (m : RCmd) : x.issue c m = x :=
  if_neg (by rw [h]; decide)

/-- Commands issued one after another are all queued, and none is where the link is not UP. -/
theorem Head.foldl_issue {α : Type} (c : Ctx) (f : Head → α → RCmd) (l : List α) (x : Head) :
    ∃ q, l.foldl (fun x a => x.issue c (f x a)) x = x.queued q ∧ q.length = if x.up then l.length else 0 := by
  induction l generalizing x with
  | nil => exact ⟨[], x.queued_nil.symm, by simp⟩
  | cons a l ih =>
    rw [List.foldl_cons]
    by_cases hup : x.up = true
    · rw [Head.issue_up hup]
      obtain ⟨q, hq, hlen⟩ := ih (x.queued [{ f x a with issued := c.now }])
      have hup' : (x.queued [{ f x a with issued := c.now }]).up = true := hup
      rw [hup', if_pos rfl] at hlen
      rw [hq, Head.queued_queued]
      exact ⟨_, rfl, by simp [hup, hlen]⟩
    · rw [Head.issue_down (Bool.eq_false_iff.2 hup)]
      obtain ⟨q, hq, hlen⟩ := ih x
      exact ⟨q, hq, by rw [hlen, if_neg hup, if_neg hup]⟩

/-! ### What an abort leaves of the head -/

/-- HSTATE once a write phase is over (R217). -/
def leftWrite (n : Nat) : Nat := if n = 8 then 7 else n

theorem leftWrite_leftWrite (n : Nat) : leftWrite (leftWrite n) = leftWrite n := by
  unfold leftWrite
  split <;> simp_all

theorem Head.leaveWrite_leftWrite (x : Head) :
    x.leaveWrite.r LandReg.HSTATE = leftWrite (x.r LandReg.HSTATE) := by
  unfold Head.leaveWrite leftWrite
  split
  · exact Head.refreshMode_keep (by decide) (Head.keep_flag (by decide) (Head.r_w ..))
  · rfl

/-- Leaving WRITE changes register fields alone. -/
theorem Head.leaveWrite_eq (x : Head) : ∃ rf, x.leaveWrite = { x with regs := rf } := by
  have hbank (y : Head) : ∃ rf, y.refreshBank = { y with regs := rf } := by
    unfold Head.refreshBank
    extract_lets +onlyGivenNames -merge -useContext -lift ovr a b n
    split <;> exact ⟨_, rfl⟩
  unfold Head.leaveWrite
  split
  · obtain ⟨rf, hrf⟩ := hbank ((((x.w LandReg.HSTATE 7).flag LandReg.STATE_CHANGE)).w LoopReg.HEAD_MODE
      ((x.w LandReg.HSTATE 7).flag LandReg.STATE_CHANGE).modeOf)
    exact ⟨rf, hrf⟩
  · exact ⟨_, rfl⟩

/-- The LASER command of a position (R83). -/
def laserCmd (src : CmdSrc) (b mode rp wp : Nat) : RCmd := { RCmd.reset with
  op := 8, arg := b % 64 + mode % 4 * 2 ^ 6 + rp % 2 ^ 16 * 2 ^ 8 + wp % 2 ^ 16 * 2 ^ 24, src := src }

theorem Head.laser_eq (c : Ctx) (src : CmdSrc) (b mode rp wp : Nat) (x : Head) :
    x.laser c src b mode rp wp = x.issue c (laserCmd src b mode rp wp) := rfl

/-- The lasers' way back to read (R176): commands, and the mark that they are armed. -/
theorem Head.lasersRead_eq (c : Ctx) (x : Head) : ∃ q,
    x.lasersRead c = { x.queued q with write := { x.write with laserDone := false } } := by
  unfold Head.lasersRead
  cases hdone : x.write.laserDone
  · refine ⟨[], ?_⟩
    rw [if_neg (by decide), Head.queued_nil, ← hdone]
  · obtain ⟨q, hq, -⟩ := Head.foldl_issue c
      (fun (_ : Head) b => laserCmd .write b 1 (x.write.powers.getD b (0, 0)).1 0) (List.range 32) x
    simp only [Head.laser_eq, hq, if_true]
    exact ⟨q, rfl⟩

/-! ### The end of a write phase -/

theorem Head.writeSettle_running {x : Head} (h : x.write.endAt = none) (c : Ctx) : x.writeSettle c = x := by
  unfold Head.writeSettle
  rw [h]

/-- The active descriptor, and whether it is aborted or refused. -/
def Head.job (x : Head) : Option Desc × Bool × Bool := (x.write.desc, x.write.aborted, x.write.refused)

theorem Head.lasersRead_job (c : Ctx) (x : Head) : (x.lasersRead c).job = x.job := by
  obtain ⟨q, hq⟩ := x.lasersRead_eq c
  rw [hq]
  rfl

theorem Head.leaveWrite_job (x : Head) : x.leaveWrite.job = x.job := by
  obtain ⟨rf, hrf⟩ := x.leaveWrite_eq
  rw [hrf]
  rfl

/-- The settling of a write phase leaves the descriptor as it is. -/
theorem Head.writeSettle_job (c : Ctx) (x : Head) : (x.writeSettle c).job = x.job := by
  unfold Head.writeSettle
  split
  · rfl
  split
  · rfl
  extract_lets +onlyGivenNames -merge -useContext -lift w z
  have hz : z.job = x.job := Head.lasersRead_job c _
  split
  · exact hz
  split
  · exact hz
  · exact (Head.leaveWrite_job _).trans hz

/-- It takes a head in WRITE back to READ, or leaves HSTATE alone. -/
theorem Head.writeSettle_left (c : Ctx) (x : Head) :
    leftWrite ((x.writeSettle c).r LandReg.HSTATE) = leftWrite (x.r LandReg.HSTATE) := by
  unfold Head.writeSettle
  split
  · rfl
  split
  · rfl
  extract_lets +onlyGivenNames -merge -useContext -lift w z
  have hz : z.r LandReg.HSTATE = x.r LandReg.HSTATE := Head.lasersRead_keep (by decide) c (Head.keep_record rfl)
  split
  · rw [hz]
  split
  · rw [hz]
  extract_lets +onlyGivenNames -merge -useContext -lift w' y
  have hy : y.r LandReg.HSTATE = leftWrite (x.r LandReg.HSTATE) := by
    rw [← hz]
    exact Head.leaveWrite_leftWrite _
  rw [Head.keep_w (by decide) hy, leftWrite_leftWrite]

/-- Without a descriptor it writes no register. -/
theorem Head.writeSettle_idle {x : Head} (h : x.write.desc = none) (c : Ctx) :
    (x.writeSettle c).regs = x.regs ∧ (x.writeSettle c).write.desc = none := by
  have hd : (x.writeSettle c).write.desc = none := (congrArg Prod.fst (x.writeSettle_job c)).trans h
  refine ⟨?_, hd⟩
  unfold Head.writeSettle
  split
  · rfl
  split
  · rfl
  extract_lets +onlyGivenNames -merge -useContext -lift w z
  have hz : z.regs = x.regs := by
    obtain ⟨q, hq⟩ := Head.lasersRead_eq c { x with write := { w with endAt := none, gates := [] } }
    exact (congrArg Head.regs hq).trans rfl
  have hnone : z.write.desc = none := (congrArg Prod.fst (Head.lasersRead_job c _)).trans h
  rw [hnone]
  exact hz

/-! ### The abort of a descriptor (R188, R189) -/

/-- The gates that are open or still to open. -/
def Head.openGates (c : Ctx) (x : Head) : List WGate :=
  x.write.gates.filter fun g => g.closeTe.all fun t => decide (c.now < t)

/-- A gate that would close after the earliest instant gets a close at it. -/
def Head.closeEarly (c : Ctx) (x : Head) : Head :=
  if (x.openGates c).any fun g => g.closeTe.all fun t => decide (x.earliest c < t) then
    x.issue c { RCmd.reset with op := 5, timed := true, te := x.earliest c, src := .write }
  else x

/-- The write phase is cut short, with its cause. -/
def Head.cutShort (c : Ctx) (cause : Nat) (x : Head) : Head :=
  let y := x.closeEarly c
  { y with write := { y.write with
      aborted := true, cause := cause, abortAt := c.cyc, cutPhase := y.r WriteReg.STATE == 3
      closedThen := (y.write.closeTes.filter (· ≤ c.now)).length, gates := []
      endAt := if (x.openGates c).isEmpty then none else some (x.earliest c) } }

/-- The abort of a descriptor that is neither aborted nor refused. -/
theorem Head.writeAbort_running {x : Head} {d : Desc} (h : x.job = (some d, false, false)) (c : Ctx) {cause : Nat}
    (hcause : cause ≠ 9) : let z := x.writeSettle c
    let y := ((z.cutShort c cause).flag WriteReg.ABORTED).leaveWrite
    x.writeAbort c cause = (if (z.openGates c).isEmpty then y.lasersRead c else y).w WriteReg.STATE
      (if d.type = 1 ∧ ¬ bitOf d.mode 0 ∨ d.type = 2 then 4 else 6) := by
  intro z y
  have hz : (x.writeSettle c).job = (some d, false, false) := (x.writeSettle_job c).trans h
  unfold Head.job at hz
  simp only [Prod.mk.injEq] at hz
  obtain ⟨hdesc, haborted, hrefused⟩ := hz
  unfold Head.writeAbort
  dsimp only
  rw [hdesc]
  dsimp only
  rw [if_neg (by simp [haborted]), if_neg (by simp [haborted, hrefused, hcause])]
  rfl

theorem Head.lasersRead_if (c : Ctx) (p : Bool) (x : Head) : ∃ q b,
    (if p then x.lasersRead c else x) = { x.queued q with write := { x.write with laserDone := b } } := by
  cases p
  · exact ⟨[], x.write.laserDone, x.queued_nil.symm⟩
  · obtain ⟨q, hq⟩ := x.lasersRead_eq c
    exact ⟨q, false, hq⟩

/-- What the abort of such a descriptor leaves. -/
theorem Head.writeAbort_spec {x : Head} {d : Desc} (h : x.job = (some d, false, false)) (c : Ctx) {cause : Nat}
    (hcause : cause ≠ 9) : let z := x.writeSettle c
    let y := x.writeAbort c cause
    (y.write.aborted = true ∧ y.write.cause = cause ∧ y.write.gates = []) ∧
      y.write.endAt = (if (z.openGates c).isEmpty then none else some (z.earliest c)) ∧
      (∃ q, y.riser.queue = (z.closeEarly c).riser.queue ++ q) ∧ y.b WriteReg.ABORTED = true ∧
      y.r WriteReg.STATE = (if d.type = 1 ∧ ¬ bitOf d.mode 0 ∨ d.type = 2 then 4 else 6) ∧
      y.r LandReg.HSTATE = leftWrite (x.r LandReg.HSTATE) := by
  intro z y
  have hy : y = _ := Head.writeAbort_running h c hcause
  obtain ⟨q, b, hlasers⟩ := Head.lasersRead_if c (z.openGates c).isEmpty ((z.cutShort c cause).flag WriteReg.ABORTED).leaveWrite
  obtain ⟨rf, hleave⟩ := ((z.cutShort c cause).flag WriteReg.ABORTED).leaveWrite_eq
  have hr {f : Fld} (hf : f.key ≠ WriteReg.STATE.key) :
      y.r f = (((z.cutShort c cause).flag WriteReg.ABORTED).leaveWrite).r f := by
    rw [hy, hlasers]
    exact Head.keep_w hf rfl
  have hstate : ((z.cutShort c cause).flag WriteReg.ABORTED).r LandReg.HSTATE = z.r LandReg.HSTATE :=
    Head.keep_flag (by decide) (Head.keep_record (a := z.closeEarly c)
      (Head.keep_ite (Head.issue_keep (by decide) c _ rfl) rfl))
  refine ⟨?_, ?_, ⟨q, ?_⟩, ?_, ?_, ?_⟩
  · rw [hy, hlasers, hleave]
    exact ⟨rfl, rfl, rfl⟩
  · rw [hy, hlasers, hleave]
    rfl
  · rw [hy, hlasers, hleave]
    rfl
  · exact (Head.b_of ((hr (by decide)).trans (Head.leaveWrite_keep (by decide) rfl))).trans (Head.b_flag _ rfl)
  · rw [hy, Head.r_w]
    split <;> rfl
  · rw [hr (by decide), Head.leaveWrite_leftWrite, hstate]
    exact x.writeSettle_left c

/-- The register fields that an abort may write. -/
theorem Head.writeAbort_keeps (c : Ctx) (cause : Nat) (x : Head) :
    x.KeepsFields (x.writeAbort c cause) ([WriteReg.STATE, WriteReg.ABORTED] ++ modeFields) :=
  Head.keepsFields_of_ranges Head.writeAbort_keys (by decide +kernel) fun _ hf => Head.writeAbort_keep hf c cause rfl

/-! ### A strategy entry's mark in the map (R174) -/

/-- A bit of a number's upper half is one of that half. -/
theorem putBit_succ (x n : Nat) (b : Bool) : putBit x (n + 1) b = 2 * putBit (x / 2) n b + x % 2 := by
  unfold putBit
  rw [Nat.testBit_succ]
  by_cases hbit : (x / 2).testBit n = b
  · rw [if_pos hbit, if_pos hbit]
    omega
  · rw [if_neg hbit, if_neg hbit, Nat.pow_succ]
    cases b
    · have := Nat.ge_two_pow_of_testBit (Bool.eq_true_of_not_eq_false hbit)
      simp only [Bool.false_eq_true, if_false]
      omega
    · simp only [if_true]
      omega

theorem putBit_testBit (x n : Nat) (b : Bool) (m : Nat) : (putBit x n b).testBit m = if m = n then b else x.testBit m := by
  induction n generalizing x m with
  | zero =>
    have hparts : putBit x 0 b / 2 = x / 2 ∧ putBit x 0 b % 2 = flagNat b := by
      unfold putBit flagNat
      rw [Nat.testBit_zero]
      cases b <;> simp <;> split <;> omega
    cases m with
    | zero =>
      rw [Nat.testBit_zero, hparts.2, if_pos rfl]
      cases b <;> rfl
    | succ m => rw [Nat.testBit_succ, hparts.1, if_neg (Nat.succ_ne_zero m), Nat.testBit_succ]
  | succ n ih =>
    rw [putBit_succ]
    cases m with
    | zero =>
      rw [if_neg (Nat.succ_ne_zero n).symm, Nat.testBit_zero, Nat.testBit_zero]
      congr 1
      simp
    | succ m =>
      rw [Nat.testBit_succ, show (2 * putBit (x / 2) n b + x % 2) / 2 = putBit (x / 2) n b by omega, ih, Nat.testBit_succ]
      simp only [Nat.succ_inj]

theorem Head.stratMark_stratLoaded (e : Nat) (v : Bool) (x : Head) (k : Nat) :
    (x.stratMark e v).stratLoaded k = if k = e then v else x.stratLoaded k := by
  unfold Head.stratMark Head.stratLoaded
  by_cases hbyte : k / 8 = e / 8
  · rw [hbyte, Mem.read8_put8_self, BitVec.toNat_ofNat, Nat.testBit_mod_two_pow, putBit_testBit]
    have hbit : k % 8 = e % 8 ↔ k = e := by omega
    simp only [hbit, Nat.mod_lt k (by decide : 0 < 8), decide_true, Bool.true_and]
  · rw [Mem.read8_put8_ne _ _ hbyte, if_neg (by rintro rfl; exact hbyte rfl)]

/-! ### A strategy load (R174) -/

/-- A load has begun: its entry's mark is cleared. -/
def Head.loadBegun (c : Ctx) (x : Head) : Head :=
  (x.stratMark (x.r WriteReg.STRAT_ENTRY) false).onWrite fun w => { w with
    stratPend := false, stratBusy := true, stratSince := c.now, stratAcks := 0, stratEntry := x.r WriteReg.STRAT_ENTRY
    stratScale := x.stratMem.readLE (64 * x.r WriteReg.STRAT_SRC + 22) 2 }

/-- A load queues 16 commands, and without the link it fails at once. -/
theorem Head.stratLoad_eq (c : Ctx) (x : Head) : ∃ q, q.length = (if x.up then 16 else 0) ∧
    x.stratLoad c = if x.up then (x.loadBegun c).queued q else ((x.loadBegun c).queued q).stratFails := by
  obtain ⟨q, hq, hlen⟩ := Head.foldl_issue c (fun (y : Head) i => { RCmd.reset with
    op := 0x0B, arg := 16 * x.r WriteReg.STRAT_ENTRY + i + y.stratMem.readLE (64 * x.r WriteReg.STRAT_SRC + 4 * i) 4 * 2 ^ 16
    src := .write }) (List.range 16) (x.loadBegun c)
  refine ⟨q, hlen, ?_⟩
  unfold Head.stratLoad
  simp only [← Head.loadBegun.eq_def]
  rw [hq]
  rfl

theorem Head.stratLoad_up {x : Head} (h : x.up = true) (c : Ctx) : ∃ q, q.length = 16 ∧
    x.stratLoad c = (x.loadBegun c).queued q := by
  obtain ⟨q, hlen, hq⟩ := x.stratLoad_eq c
  rw [if_pos h] at hlen hq
  exact ⟨q, hlen, hq⟩

theorem Head.stratLoad_down {x : Head} (h : x.up = false) (c : Ctx) : x.stratLoad c = (x.loadBegun c).stratFails := by
  obtain ⟨q, hlen, hq⟩ := x.stratLoad_eq c
  rw [if_neg (by rw [h]; decide)] at hlen hq
  rw [hq, List.eq_nil_of_length_eq_zero hlen, Head.queued_nil]

/-- What the load leaves of the head. -/
theorem Head.stratLoad_spec (c : Ctx) (x : Head) : let y := x.stratLoad c; let e := x.r WriteReg.STRAT_ENTRY
    y.write.stratPend = false ∧ y.write.stratBusy = x.up ∧
      y.stratLoaded e = false ∧ (∀ k, k ≠ e → y.stratLoaded k = x.stratLoaded k) ∧
      (x.up = true → y.write.stratAcks = 0 ∧ y.riser.queue.length = x.riser.queue.length + 16 ∧ y.regs = x.regs) ∧
      (x.up = false → y.riser = x.riser ∧ y.b WriteReg.STRAT_FAIL = true ∧ x.KeepsFields y [WriteReg.STRAT_FAIL]) := by
  intro y e
  have hbegun : y.write.stratPend = false ∧ y.write.stratBusy = x.up ∧
      ∀ k, y.stratLoaded k = (x.stratMark e false).stratLoaded k := by
    cases hup : x.up
    · rw [show y = _ from Head.stratLoad_down hup c]
      exact ⟨rfl, rfl, fun _ => rfl⟩
    · obtain ⟨q, -, hq⟩ := Head.stratLoad_up hup c
      rw [show y = _ from hq]
      exact ⟨rfl, rfl, fun _ => rfl⟩
  obtain ⟨hpend, hbusy, hmap⟩ := hbegun
  refine ⟨hpend, hbusy, ?_, fun k hk => ?_, fun hup => ?_, fun hdown => ?_⟩
  · rw [hmap, Head.stratMark_stratLoaded, if_pos rfl]
  · rw [hmap, Head.stratMark_stratLoaded, if_neg hk]
  · obtain ⟨q, hlen, hq⟩ := Head.stratLoad_up hup c
    rw [show y = _ from hq]
    exact ⟨rfl, (List.length_append ..).trans (congrArg _ hlen), rfl⟩
  · rw [show y = _ from Head.stratLoad_down hdown c]
    exact ⟨rfl, Head.b_flag _ rfl, fun g _ hn => Head.keep_flag (hn _ (by simp)) rfl⟩

/-! ### The words of the commands (R191) -/

/-- No limit binds a field of the words of ABORT and STRAT_GO, their plain fields stand apart from the command, and an abort
writes none of them. The facts share one evaluation of the head's field table. -/
theorem writeWords_fields :
    (∀ f ∈ [WriteReg.ABORT, WriteReg.STRAT_GO],
      (headStored f.off).all (fun g => !limitFields.any fun e => e.1.key == g.key) = true ∧
      ∀ g ∈ fieldsIn headFields f.off, g.acc = .rw → headOwn g = false →
        0 < g.width ∧ (g.lsb + g.width ≤ f.lsb ∨ f.lsb + f.width ≤ g.lsb)) ∧
    (∀ g ∈ fieldsIn headFields 0x60000, outKeys Head.writeAbort_keys g.key = true) ∧
    ∀ g ∈ [RiserReg.STATE, RiserReg.LAT_DN, LandReg.HSTATE], ∀ f ∈ headStored 0x60000, g.key ≠ f.key := by decide +kernel

/-- The plain fields of such a word take the written bits, where what follows the stores leaves them alone. -/
theorem Head.command_took {f : Fld} (hf : f ∈ [WriteReg.ABORT, WriteReg.STRAT_GO]) (hb : ¬(0x70100 ≤ f.off ∧ f.off < 0x70208))
    (hw : 0 < f.width) {v : Word} {x y : Head}
    (hy : ∀ g ∈ fieldsIn headFields f.off, y.r g = (x.stored f.off (forced f 1 v)).r g) : y.Took f.off v :=
  Head.took_of hb (fun g hg _ _ => hy g hg) fun g hg hrw hown =>
    have ⟨hwidth, hapart⟩ := (writeWords_fields.1 f hf).2 g hg hrw hown
    bits_forced_of_apart hw hwidth hapart 1 v

theorem Head.writeAct_abort (c : Ctx) (v : Word) (x : Head) :
    x.writeAct c 0x60000 (forced WriteReg.ABORT 1 v) = x.writeAbort c 8 := by
  have hbit : bitOf (forced WriteReg.ABORT 1 v) 3 = true :=
    (forced_testBit WriteReg.ABORT 1 v (by decide) 3).trans (if_pos (by decide))
  have hact (n : Nat) : x.writeAct c 0x60000 n = if bitOf n 3 then x.writeAbortCmd c else x := by
    unfold Head.writeAct; simp
  rw [hact, hbit]
  rfl

theorem Head.writeAct_stratGo (c : Ctx) (v : Word) (x : Head) :
    x.writeAct c 0x60028 (forced WriteReg.STRAT_GO 1 v) = x.stratGo := by
  have hbit : bitOf (forced WriteReg.STRAT_GO 1 v) 24 = true :=
    (forced_testBit WriteReg.STRAT_GO 1 v (by decide) 24).trans (if_pos (by decide))
  have hact (n : Nat) : x.writeAct c 0x60028 n = if bitOf n 24 then x.stratGo else x := by
    unfold Head.writeAct; simp
  rw [hact, hbit]
  rfl

/-! ### ABORT (R188) -/

section

variable {v : Word} {x z : Head} (hz : x.stored 0x60000 (forced WriteReg.ABORT 1 v) = z)
include hz

/-- The stores of the word leave the write channel and the link as they are. -/
theorem Head.abort_stored : z.write = x.write ∧ z.riser = x.riser ∧
    (∀ g ∈ [RiserReg.STATE, RiserReg.LAT_DN, LandReg.HSTATE], z.r g = x.r g) ∧
    x.KeepsFields z (fieldsIn headFields 0x60000) := by
  subst hz
  refine ⟨?_, ?_, fun g hg => Head.stored_ne (by decide) fun f hf _ => writeWords_fields.2.2 g hg f hf, Head.stored_keeps (by decide)⟩
  · rw [Head.stored_eq (by decide)]
  · rw [Head.stored_eq (by decide)]

theorem Head.abort_took (c : Ctx) : (z.writeAbort c 8).Took 0x60000 v := by
  subst hz
  exact Head.command_took (f := WriteReg.ABORT) (by decide) (by decide) (by decide) fun g hg =>
    Head.writeAbort_keep (writeWords_fields.2.1 g hg) c 8 rfl

/-- Without a descriptor, ABORT only settles what a write phase has left. -/
theorem Head.abort_none (c : Ctx) (hd : x.write.desc = none) : let y := z.writeAbort c 8
    y.write.desc = none ∧ (x.write.endAt = none → y.write = x.write) ∧
      x.KeepsFields y (fieldsIn headFields 0x60000) := by
  obtain ⟨hwrite, -, -, hkeeps⟩ := Head.abort_stored hz
  obtain ⟨hregs, hnone⟩ := Head.writeSettle_idle (x := z) (by rw [hwrite]; exact hd) c
  have habort : z.writeAbort c 8 = z.writeSettle c := by
    unfold Head.writeAbort
    dsimp only
    rw [hnone]
  rw [habort]
  refine ⟨hnone, fun hend => ?_, fun g hg hn => ?_⟩
  · rw [Head.writeSettle_running (by rw [hwrite]; exact hend), hwrite]
  · exact (congrArg (RegFile.rd · g) hregs).trans (hkeeps g hg hn)

/-- With a descriptor that is neither aborted nor refused, ABORT aborts it with cause 8. -/
theorem Head.abort_running (c : Ctx) {d : Desc} (hd : x.write.desc = some d) (ha : x.write.aborted = false)
    (hr : x.write.refused = false) : let y := z.writeAbort c 8
    y.write.aborted = true ∧ y.write.cause = 8 ∧ y.write.gates = [] ∧ y.b WriteReg.ABORTED = true ∧
      (x.write.endAt = none → let te := x.earliest c
        let still := x.write.gates.filter fun g => g.closeTe.all fun t => decide (c.now < t)
        (still = [] → y.write.endAt = none) ∧ (still ≠ [] → y.write.endAt = some te) ∧
        (x.up = true → (∃ g ∈ still, ∀ t, g.closeTe = some t → te < t) →
          ∃ m ∈ y.riser.queue, m.op = 5 ∧ m.timed = true ∧ m.te = te)) ∧
      y.r WriteReg.STATE = (if d.type = 1 ∧ ¬ bitOf d.mode 0 ∨ d.type = 2 then 4 else 6) ∧
      (x.r LandReg.HSTATE = 8 → y.r LandReg.HSTATE = 7) ∧
      (x.r LandReg.HSTATE ≠ 8 → y.r LandReg.HSTATE = x.r LandReg.HSTATE) ∧
      x.KeepsFields y (fieldsIn headFields 0x60000 ++ [WriteReg.STATE, WriteReg.ABORTED] ++ modeFields) := by
  obtain ⟨hwrite, hriser, hsame, hkeeps⟩ := Head.abort_stored hz
  have hjob : z.job = (some d, false, false) := by
    unfold Head.job
    rw [hwrite, hd, ha, hr]
  obtain ⟨⟨haborted, hcause, hgates⟩, hend, ⟨q, hqueue⟩, hflag, hstate, hhstate⟩ :=
    Head.writeAbort_spec hjob c (cause := 8) (by decide)
  rw [hsame _ (by decide)] at hhstate
  refine ⟨haborted, hcause, hgates, hflag, fun hrun => ?_, hstate, fun h8 => ?_, fun h8 => ?_, fun g hg hn => ?_⟩
  · have hte : z.earliest c = x.earliest c := by
      unfold Head.earliest
      rw [hsame _ (by decide)]
    have hup : z.up = x.up := by
      unfold Head.up
      rw [hsame _ (by decide)]
    have hstill : z.openGates c = x.write.gates.filter fun g => g.closeTe.all fun t => decide (c.now < t) := by
      unfold Head.openGates
      rw [hwrite]
    intro te still
    rw [Head.writeSettle_running (by rw [hwrite]; exact hrun), hstill, hte] at hend
    rw [Head.writeSettle_running (by rw [hwrite]; exact hrun)] at hqueue
    refine ⟨fun hnone => ?_, fun hsome => ?_, fun hxup hlate => ?_⟩
    · rw [hend, if_pos (List.isEmpty_iff.2 hnone)]
    · rw [hend, if_neg (mt List.isEmpty_iff.1 hsome)]
    · obtain ⟨g, hg, hlater⟩ := hlate
      have hany : ((z.openGates c).any fun g => g.closeTe.all fun t => decide (z.earliest c < t)) = true := by
        rw [hstill, hte]
        refine List.any_eq_true.2 ⟨g, hg, ?_⟩
        cases hclose : g.closeTe with
        | none => rfl
        | some t => exact decide_eq_true (hlater t hclose)
      unfold Head.closeEarly at hqueue
      rw [if_pos hany, Head.issue_up (hup.trans hxup)] at hqueue
      rw [hqueue]
      exact ⟨_, List.mem_append_left _ (List.mem_append_right _ List.mem_cons_self), rfl, rfl, hte⟩
  · rw [hhstate, leftWrite, if_pos h8]
  · rw [hhstate, leftWrite, if_neg h8]
  · rw [List.append_assoc] at hn
    exact (Head.writeAbort_keeps c 8 z g hg fun f hf => hn f (List.mem_append_right _ hf)).trans
      (hkeeps g hg fun f hf => hn f (List.mem_append_left _ hf))

end

/-! ### STRAT_GO (R174) -/

/-- STRAT_GO requests a load and changes nothing else of the channel. -/
theorem Head.stratGo_written (v : Word) (x : Head) : let y := (x.stored 0x60028 (forced WriteReg.STRAT_GO 1 v)).stratGo
    y.Took 0x60028 v ∧ y.write = { x.write with stratPend := true } ∧ y.stratMap = x.stratMap ∧
      x.KeepsFields y (fieldsIn headFields 0x60028) := by
  obtain ⟨z, hz⟩ : ∃ z, x.stored 0x60028 (forced WriteReg.STRAT_GO 1 v) = z := ⟨_, rfl⟩
  have htook : z.stratGo.Took 0x60028 v := by
    subst hz
    exact Head.command_took (f := WriteReg.STRAT_GO) (by decide) (by decide) (by decide) fun _ _ => Head.stratGo_keep rfl rfl
  have hkeeps : x.KeepsFields z (fieldsIn headFields 0x60028) := by
    subst hz
    exact Head.stored_keeps (by decide)
  have hother : z.write = x.write ∧ z.stratMap = x.stratMap := by
    rw [← hz, Head.stored_eq (by decide)]
    exact ⟨rfl, rfl⟩
  obtain ⟨hwrite, hmap⟩ := hother
  rw [hz]
  refine ⟨htook, ?_, hmap, hkeeps⟩
  rw [← hwrite]
  rfl

/-- Settles O34: ABORT and STRAT_GO by the stores of their words and the action that follows them, and the load of a strategy
entry by the commands that it queues. -/
theorem writeCommands : Obligations.WriteCommands := by
  unfold Obligations.WriteCommands
  refine ⟨fun s q h v => ?_, fun s wait h => ?_⟩
  · intro x c
    have hx : (s.turnTo 3).head h = x := State.turnTo_head 3 s h
    refine ⟨fun ok => ?_, fun ok => ?_⟩
    · refine headRow_completes (f := WriteReg.ABORT) (k := 1) (State.turnTo_accessOf ok 3) (writeWords_fields.1 _ (by decide)).1
        (by decide) (by decide) (by decide) ?_
      rw [hx, show WriteReg.ABORT.off = 0x60000 from rfl, Head.writeAct_abort]
      exact ⟨Head.abort_took rfl c, Head.abort_none rfl c, fun d => Head.abort_running rfl c⟩
    · refine headRow_completes (f := WriteReg.STRAT_GO) (k := 1) (State.turnTo_accessOf ok 3)
        (writeWords_fields.1 _ (by decide)).1 (by decide) (by decide) (by decide) ?_
      rw [hx, show WriteReg.STRAT_GO.off = 0x60028 from rfl, Head.writeAct_stratGo]
      exact Head.stratGo_written v x
  · intro u x e hlive hpend hbusy hidle
    have hdue : (x.write.stratPend && !x.write.stratBusy && !x.b WriteReg.BUSY) = true := by
      rw [hpend, hbusy, hidle]
      rfl
    refine ⟨x.stratLoad (u.ctx h), State.liveAfter_due
      (due := fun _ x => x.write.stratPend && !x.write.stratBusy && !x.b WriteReg.BUSY) Head.stratLoad hlive hdue, ?_⟩
    exact Head.stratLoad_spec (u.ctx h) x

end Sys2Proof.Machine

end

section

namespace Sys2Proof.Machine

/-! ### A gate that opens past the recorded end of its write phase

`endAt` holds the t_e of the close that ends the write phase, and what follows the Landing's state settles a phase whose end
has come (R169, R176). A state may hold such an end beside a descriptor that expects further opens. -/

/-- An OPC of two units, none of whose gates has opened. -/
def twoUnits : Desc := { Desc.reset with type := 3, steps := 2 }

/-- A head on a locked track in READ, in which that OPC is armed and its write phase ended at package time 0. Schedule 0 has one
entry, a write gate open at angle 0, and the disc turns at its rated speed. -/
def endedHead : Head :=
  let x : Head := ((({ Head.reset with inReset := false }.wi AngleReg.W 28147498).w WriteReg.STATE 2).w LandReg.HSTATE 7)
  let x : Head := ((x.w LandReg.FSTAT 3).w LandReg.TSTAT 6).onSlotOf 1 fun s => { s with running := true }
  { x with
    write := { x.write with desc := some twoUnits, kz := 460, endAt := some 0 }
    stratMap := x.stratMap.put8 0 1
    schedMem := (x.schedMem.writeLE 0 8 (2 ^ 16)).writeLE 0x200 8 (3 * 2 ^ 34) }

/-- Nothing withholds the open of that gate (R169, R170, R174, R188). -/
def Fire.opensGate (f : Fire) (x : Head) : Bool :=
  x.write.desc == some twoUnits && x.writeExpects && !x.write.aborted && decide (2 ≤ x.r WriteReg.STATE) && !x.inhibitNow &&
    x.speedOk && x.stratLoaded (f.arg % 4096) && decide (x.r LandReg.HSTATE = 7) && !x.weft.holdReq

theorem endedHead_takeEvent :
    ((endedHead.takeEvent (((framingState endedHead).pass 0).ctx 0) 3).any fun p => p.1.opensGate p.2) = true := by
  decide

theorem endedHead_takes : ∃ f x, ((framingState endedHead).atEvent 0 0).Takes 0 3 f x ∧ f.opensGate x = true := by
  obtain ⟨⟨f, x⟩, htake, hopens⟩ := (Option.any_eq_true ..).1 endedHead_takeEvent
  have hhead : ((framingState endedHead).atEvent 0 0).head 0 = endedHead :=
    (State.noteEntries_head 0 0 _).trans (framingState_head endedHead)
  have hctx : ((framingState endedHead).atEvent 0 0).ctx 0 = ((framingState endedHead).pass 0).ctx 0 := State.noteEntries_ctx 0 0 _
  refine ⟨f, x, ⟨?_, ?_⟩, hopens⟩
  · rw [hhead]
    rfl
  · rw [hhead, hctx]
    exact htake

/-- The open leaves no gate: the phase settles as the head enters WRITE. -/
theorem endedHead_opens : ∃ t, exec (.writeGateOpen 0 0) (framingState endedHead) = .next t ∧
    (t.head 0).write.gates = [] := by
  refine ⟨_, rfl, ?_⟩
  decide +kernel

/-- Refutes O33: in a state that records a past end of the write phase beside a descriptor that expects more opens, the gate
that opens is dropped by the settling of that phase, where the statement has it join the gates. R169 sets the end with the last
gate's close; the statement's hypotheses do not hold a state to that. -/
theorem not_writeGates : ¬ Obligations.WriteGates := by
  unfold Obligations.WriteGates
  intro hall
  obtain ⟨f, x, htakes, hopens⟩ := endedHead_takes
  obtain ⟨hopen, -⟩ := hall (framingState endedHead) 0 0 f x
  obtain ⟨-, -, -, hforward, -⟩ := hopen htakes
  unfold Fire.opensGate at hopens
  simp only [Bool.and_eq_true, beq_iff_eq, Bool.not_eq_true', decide_eq_true_eq] at hopens
  obtain ⟨⟨⟨⟨⟨⟨⟨⟨hdesc, hexpects⟩, habort⟩, hstate⟩, hinhibit⟩, hspeed⟩, hstrat⟩, hread⟩, hhold⟩ := hopens
  obtain ⟨-, -, -, -, hwrites⟩ := hforward _ hdesc rfl hexpects habort hstate
  obtain ⟨y, hexec, -, ⟨-, g, hgates, -⟩, -⟩ := hwrites hinhibit hspeed hstrat hread hhold
  obtain ⟨t, hexec', hnone⟩ := endedHead_opens
  obtain rfl := Host.Outcome.next.inj (hexec.symm.trans hexec')
  rw [State.setHead_head, hgates] at hnone
  exact List.append_ne_nil_of_right_ne_nil _ (List.cons_ne_nil g []) hnone

end Sys2Proof.Machine

end

section

namespace Sys2Proof.Machine

/-! ### A completion under an over-wide CQ_SLOTS

That a field stays below 2 to its width is no part of a state (a register file lists any number under a key). CQ_WR wraps at
CQ_SLOTS, and its 8 bits wrap at 256. -/

/-- A head whose write channel holds a refused descriptor, with 2^16 in the 8 bits of CQ_SLOTS and CQ_WR at 255. -/
def overslottedHead : Head := { Head.reset with
  inReset := false
  regs := ⟨[(WriteReg.CQ_SLOTS.key, 2 ^ 16), (WriteReg.CQ_WR.key, 255)]⟩
  write := { WriteSt.reset with desc := some .reset, refused := true } }

/-- The descriptor has nothing more to wait for, and the completion ring has room (R188, R190). -/
theorem overslottedHead_over : let u := (framingState overslottedHead).pass 0
    u.live 0 = true ∧ (u.head 0).descOver (u.ctx 0) = true ∧ (u.head 0).cqFull = false ∧
      ((u.head 0).r WriteReg.CQ_WR + 1) % (u.head 0).cqSlots = 256 := by decide

/-- Its completion leaves CQ_WR at 0. -/
theorem overslottedHead_completes : ∃ t, exec (.descriptorComplete 0 0) (framingState overslottedHead) = .next t ∧
    (t.head 0).r WriteReg.CQ_WR = 0 := by
  refine ⟨_, rfl, ?_⟩
  decide +kernel

/-- Refutes O32: in a state whose CQ_SLOTS reads more than its 8 bits hold, CQ_WR goes on from 255 to 0, where the statement
has it read 256. The statement bounds no register's value. -/
theorem not_writeDescriptors : ¬ Obligations.WriteDescriptors := by
  unfold Obligations.WriteDescriptors
  intro hall
  obtain ⟨hlive, hover, hroom, hnext⟩ := overslottedHead_over
  obtain ⟨-, -, hcomplete⟩ := hall (framingState overslottedHead) 0 0
  obtain ⟨t, hexec, hwr, -⟩ := hcomplete .reset rfl hlive hover hroom
  obtain ⟨t', hexec', hzero⟩ := overslottedHead_completes
  obtain rfl : t = t' := Host.Outcome.next.inj (hexec.symm.trans hexec')
  rw [hzero, hnext] at hwr
  exact absurd hwr (by decide)

end Sys2Proof.Machine

end

section

namespace Sys2Proof.Machine

/-! ### A Bolt descriptor of the reserved TYPE 0x80

A completion carries its descriptor's TYPE in byte 2, where 0x80 marks a COMMIT event (R313, R328). A refused descriptor of that
reserved TYPE posts a completion that raises COMMIT_EVT in place of DESC_DONE. -/

/-- A tile out of reset with one descriptor of TYPE 0x80 in the host ring of its Bolt engine. -/
def commitTypeTile : Tile :=
  let x : Tile := { Tile.reset with inReset := false }
  { x.w BoltReg.HQ_WR 1 with stack := x.stack.writeLE 0 1 0x80 }

/-- A package with that tile 0. -/
def commitTypeState : State :=
  let s := framingState Head.reset
  { s with tiles := s.tiles.set 0 commitTypeTile }

/-- The engine takes it from the host ring, and the completion ring has room. -/
theorem commitTypeState_next : let u := commitTypeState.pass 0
    u.boltRing 0 = some false ∧ u.stackUe 0 ((u.tile 0).ringByte false) 64 = false ∧ (u.ringDesc 0 false).type = 0x80 ∧
      (let x := u.tile 0; let slots := atLeast1 (x.r BoltReg.CQ_SLOTS)
        ¬ (x.r BoltReg.CQ_WR % slots + 1) % slots = x.r BoltReg.CQ_RD % slots) ∧ (u.tile 0).bolt.waiting = [] := by decide

/-- Its refusal leaves DESC_DONE clear. -/
theorem commitTypeState_refused : ∃ t, exec (.boltTypeReserved 0 0) commitTypeState = .next t ∧
    (t.tile 0).b BoltReg.DESC_DONE = false := by
  refine ⟨_, rfl, ?_⟩
  decide +kernel

/-- Refutes O51: the completion of a descriptor of the reserved TYPE 0x80 leaves DESC_DONE as it was, where the statement
sets it with every completion that is written. -/
theorem not_boltDescriptors : ¬ Obligations.BoltDescriptors := by
  unfold Obligations.BoltDescriptors
  intro hall
  obtain ⟨hring, hread, htype, hroom, hwaiting⟩ := commitTypeState_next
  obtain ⟨hnext, -⟩ := hall commitTypeState 0 0
  obtain ⟨-, hreserved, -⟩ := hnext false hring
  obtain ⟨t, hexec, -, ⟨-, -, hposted⟩, -⟩ := hreserved hread (.inr (by rw [htype]; decide))
  obtain ⟨-, hdone, -⟩ := hposted hroom hwaiting
  obtain ⟨t', hexec', hclear⟩ := commitTypeState_refused
  obtain rfl : t = t' := Host.Outcome.next.inj (hexec.symm.trans hexec')
  rw [hclear] at hdone
  exact absurd hdone (by decide)

end Sys2Proof.Machine

end

section

namespace Sys2Proof.Machine

/-! ### The word of HCMD (R237)

The fields of a word are looked for chapter by chapter, where one computation over all fields would not check by `rfl`. -/

theorem fieldsIn_append (a b : List Fld) (off : Nat) : fieldsIn (a ++ b) off = fieldsIn a off ++ fieldsIn b off :=
  List.filter_append ..

/-- The registers of the beam channels lie from 0x40000 up (R158). -/
theorem BeamReg.one_off (s : Nat) : ∀ f ∈ BeamReg.one s, 0x40000 ≤ f.off := by
  simp [BeamReg.one, BeamReg.ENABLE, BeamReg.FORCE_ERASE, BeamReg.CLR_STATS, BeamReg.SHADOW_POS, BeamReg.STATE,
    BeamReg.SECTOR, BeamReg.GATE_ORDER, BeamReg.EVENT_OVF, BeamReg.EQ_SAT, BeamReg.DEFECT, BeamReg.ERASED_INPUT,
    BeamReg.SPARE_IN_GATE, BeamReg.NO_FRAME, BeamReg.FREQ_LIMIT]
  omega

theorem fieldsIn_beamReg {off : Nat} (h : off < 0x40000) : fieldsIn BeamReg.all off = [] := by
  refine List.filter_eq_nil_iff.2 fun f hf => ?_
  obtain ⟨s, -, hone⟩ := List.mem_flatMap.1 hf
  have hoff := BeamReg.one_off s f hone
  rw [beq_iff_eq]
  omega

theorem fieldsIn_hcmd : fieldsIn headFields 0x10200 = [LandReg.HCMD] := by
  have hbeam : fieldsIn BeamReg.all 0x10200 = [] := fieldsIn_beamReg (by decide)
  unfold headFields
  simp only [fieldsIn_append, hbeam]
  rfl

theorem headStored_hcmd : headStored 0x10200 = [LandReg.HCMD] := by
  unfold headStored
  rw [fieldsIn_hcmd]
  rfl

/-- A write of HCMD fares as an access to its head's registers. -/
theorem State.accessOf_hcmd (s : State) (q : Req) (h : Fin 32) : s.accessOf q (.head h 0x10200) = s.headAccess q h := by
  have hreg : (Place.head h 0x10200).isReg = true := by
    unfold Place.isReg Place.fields
    dsimp only
    rw [fieldsIn_hcmd]
    rfl
  unfold State.accessOf
  dsimp only
  rw [hreg, if_pos rfl]

/-! ### Writes of HCMD (R219) -/

theorem Head.writeAct_hcmd (c : Ctx) (v : Nat) (x : Head) : x.writeAct c 0x10200 v = x.hcmd c (v % 16) := by
  unfold Head.writeAct
  simp

theorem forced_hcmd (k : Nat) (v : Word) : forced LandReg.HCMD k v % 16 = k % 16 := by
  rw [forced_parts _ k v (by decide)]
  show (2 ^ 4 * _ + (2 ^ 0 * (k % 2 ^ 4) + v.toNat % 2 ^ 0)) % 16 = k % 16
  omega

/-- A write of HCMD stores nothing, and its head carries out the code. -/
theorem headRow_hcmd {s : State} {q : Req} {h : Fin 32} (ok : s.accessOf q (.head h 0x10200) = .ok) (k : Nat) (v : Word) :
    headRow q h LandReg.HCMD k v s =
      .next ((s.atHead q h 0x10200).setHead h ((s.head h).hcmd ((s.turnTo 3).ctx h) (k % 16))) := by
  have hoff : LandReg.HCMD.off = 0x10200 := rfl
  refine (headRow_plain (f := LandReg.HCMD) (State.turnTo_accessOf ok 3) (by rw [hoff, headStored_hcmd]; decide) (by decide)
    (by decide) (by decide)).trans ?_
  rw [hoff, State.turnTo_head, Head.stored_skip (by rw [headStored_hcmd]; decide) (by decide), Head.writeAct_hcmd, forced_hcmd]

/-! ### Refused commands (R219, R220) -/

/-- What R219 and R220 ask of a head for it to take the code `k` of HCMD. -/
def Head.takesHcmd (x : Head) (k : Nat) : Bool :=
  let st := x.r LandReg.HSTATE
  let idle := !x.b LandReg.CMD_BUSY
  match k with
  | 0 => idle
  | 1 => decide (2 ≤ st) && decide (st ≤ 9)
  | 2 => st == 1 && idle
  | 3 => st == 4 && x.r LandReg.FSTAT == 0 && idle && x.namesLoop (x.r LandReg.FOCUS_LOOP)
  | 4 => st == 4 || x.tracking
  | 5 => st == 4 && x.r LandReg.FSTAT == 3 && idle && x.namesLoop (x.r LandReg.TRACK_LOOP)
  | 6 => x.tracking
  | 7 => ((st == 4 && x.r LandReg.FSTAT == 3) || st == 6) && idle && x.namesLoop (x.r LandReg.TRACK_LOOP)
      && (!decide (x.r LandReg.TARGET_LAYER ≠ x.r LandReg.LAYER) || x.namesLoop (x.r LandReg.FOCUS_LOOP))
  | 8 => st == 11
  | _ => false

/-- A code that the head does not take is refused. -/
theorem Head.hcmd_refused {x : Head} {k : Nat} (hk : k < 16) (h : x.takesHcmd k = false) (c : Ctx) :
    x.hcmd c k = x.cmdRefused := by
  unfold Head.takesHcmd at h
  unfold Head.hcmd
  rw [Nat.mod_eq_of_lt hk]
  match k with
  | 0 => exact if_pos (by simpa using h)
  | 1 => exact if_neg (by simpa [-Head.r_def] using h)
  | 2 => exact if_neg (by simpa using h)
  | 3 => exact if_neg (by simpa using h)
  | 4 => exact if_neg (by simpa [Head.focusToCalib] using h)
  | 5 => exact if_neg (by simpa using h)
  | 6 => exact if_neg (by simpa using h)
  | 7 => exact if_neg (by simpa [-Head.r_def] using h)
  | 8 => exact if_neg (by simpa using h)
  | _ + 9 => rfl

/-- `y` is the head `x` after a refusal, which changes CMD_REFUSED and LAST_CODE alone (R219). -/
def Head.RefusedAs (x y : Head) : Prop :=
  y.b LandReg.CMD_REFUSED = true ∧ y.r LandReg.LAST_CODE = 1 ∧ y.land = x.land ∧ y.riser = x.riser ∧ y.loops = x.loops ∧
    x.KeepsFields y [LandReg.CMD_REFUSED, LandReg.LAST_CODE]

theorem Head.cmdRefused_refusedAs (x : Head) : x.RefusedAs x.cmdRefused := by
  have hflag : x.cmdRefused.b LandReg.CMD_REFUSED = (x.flag LandReg.CMD_REFUSED).b LandReg.CMD_REFUSED :=
    Head.b_of (Head.keep_w (by decide) rfl)
  refine ⟨hflag.trans (Head.b_flag x rfl), Head.r_w .., rfl, rfl, rfl, fun f _ hn => ?_⟩
  exact Head.keep_w (hn _ (by simp)) (Head.keep_flag (hn _ (by simp)) rfl)

theorem reservedCode_hcmd (v : Word) : 9 ≤ reservedCode LandReg.HCMD 9 15 v ∧ reservedCode LandReg.HCMD 9 15 v < 16 := by
  unfold reservedCode
  dsimp only
  split <;> omega

theorem Head.takesHcmd_reserved (x : Head) {k : Nat} (hk : 9 ≤ k) : x.takesHcmd k = false := by
  obtain ⟨n, rfl⟩ := Nat.exists_eq_add_of_le' hk
  rfl

/-- Settles O44: every row writes its code to HCMD, and the head refuses a code that it does not take. -/
theorem headCommandRefusals : Obligations.HeadCommandRefusals := by
  unfold Obligations.HeadCommandRefusals
  intro s q h v ok u x st idle jumps
  have hrefuse (k : Nat) (hk : k < 16) (hno : x.takesHcmd k = false) :
      ∃ y, headRow q h LandReg.HCMD k v s = .next (u.setHead h y) ∧ x.RefusedAs y :=
    ⟨_, by rw [headRow_hcmd ok, Nat.mod_eq_of_lt hk, Head.hcmd_refused hk hno], x.cmdRefused_refusedAs⟩
  obtain ⟨h9, h16⟩ := reservedCode_hcmd v
  refine ⟨fun hidle => ?_, ?_⟩
  · have hnop : x.hcmd ((s.turnTo 3).ctx h) 0 = u.head h := by
      rw [State.atHead_head ok]
      exact if_neg (by simpa [idle] using hidle)
    have hexec := headRow_hcmd ok 0 v
    rwa [Nat.zero_mod, hnop, State.setHead_self] at hexec
  · simp only [List.forall_mem_cons]
    exact ⟨hrefuse 0 (by decide), hrefuse 1 (by decide), hrefuse 2 (by decide), hrefuse 3 (by decide), hrefuse 4 (by decide),
      hrefuse 5 (by decide), hrefuse 6 (by decide), hrefuse 7 (by decide), hrefuse 8 (by decide),
      fun _ => hrefuse _ h16 (x.takesHcmd_reserved h9), by simp⟩

end Sys2Proof.Machine

end

section

namespace Sys2Proof.Machine

/-! ### A TRACK_OFF while a frame is open

TRACK_OFF stops slot 1 in every state in which the head tracks (R217, R219), and the frames that are open end with it (R157). -/

/-- TRACK_OFF of a head whose schedule runs ends its open frame without a mark (R158). -/
theorem Head.hcmdTrackOff_noFrame {x : Head} (htracks : x.tracking = true) (hrun : x.b AngleReg.RUNNING = true)
    (h : (x.beam 0).gate = some unframedGate) (c : Ctx) : (x.hcmdTrackOff c).b (BeamReg.NO_FRAME 0) = true := by
  unfold Head.hcmdTrackOff
  rw [if_pos htracks]
  exact (Head.b_of (Head.report_keep (by decide) 0 rfl)).trans (Head.toFocus_noFrame hrun h c 10)

/-- Refutes O45: TRACK_OFF stops slot 1, the open frame of beam 0 ends without a mark and sets its NO_FRAME (R157, R158, R217,
R219), which the statement's list of fields leaves out. -/
theorem not_headCommands : ¬ Obligations.HeadCommands := by
  unfold Obligations.HeadCommands
  intro hall
  have ok : (framingState framingHead).accessOf (.core 0 0) (.head 0 0x10200) = .ok := by
    rw [State.accessOf_hcmd]
    decide
  obtain ⟨-, -, -, -, -, hoff, -⟩ := hall (framingState framingHead) (.core 0 0) 0 0 ok
  obtain ⟨y, hexec, -, -, -, -, -, -, -, hkeeps⟩ := hoff (by decide)
  have hy := State.setHead_next_inj hexec (headRow_hcmd ok 6 0)
  refine Head.not_keepsFields_noFrame (by decide) ?_ (by decide) hkeeps
  rw [hy]
  exact Head.hcmdTrackOff_noFrame (x := framingHead) (by decide) (by decide) framingHead_gate _

/-! ### A loss of focus while a frame is open -/

/-- A head that runs a schedule with focus locked, after FLOSS_N samples below FSUM_LOSS (R228). -/
def blurredHead : Head :=
  { framingHead.w LandReg.FSTAT 3 with land := { framingHead.land with lossFocus := 8 } }

/-- A head whose loss of focus is declared: no jump runs, and the count of bad samples starts again (R228). -/
def Head.focusLossTaken (x : Head) : Head :=
  { x.jumpOff with land := { x.jumpOff.land with lossFocus := 0 } }

/-- FOCUS_LOST of a head that tracks ends its open frame without a mark (R158, R217). -/
theorem Head.focusLost_noFrame {x : Head} (htracks : x.tracking = true) (hrun : x.b AngleReg.RUNNING = true)
    (h : (x.beam 0).gate = some unframedGate) (c : Ctx) (code : Nat) :
    (x.focusLost c code).b (BeamReg.NO_FRAME 0) = true := by
  unfold Head.focusLost
  extract_lets z st
  have hkeep {f : Fld} (hf : ∀ g ∈ [LandReg.FOCUS_LOST, LandReg.FOCUS_LOST_COUNT], f.key ≠ g.key) : z.r f = x.r f :=
    Head.keep_bump (hf _ (by simp)) (Head.keep_flag (hf _ (by simp)) rfl)
  have htracks' : z.tracking = true := by
    unfold Head.tracking
    rw [hkeep (by decide)]
    exact htracks
  rw [if_pos (.inr htracks')]
  exact Head.toFocus0_noFrame ((Head.b_of (hkeep (by decide))).trans hrun) h c code

/-- FOCUS_LOST of a head with focus locked (R228). -/
theorem execFocusLost_locked {s : State} {wait : Nat} {h : Fin 32} (hawake : ((s.pass wait).head h).inReset = false)
    (hlocked : ((s.pass wait).head h).r LandReg.FSTAT = 3)
    (hloss : atLeast1 (((s.pass wait).head h).r LandReg.FLOSS_N) ≤ ((s.pass wait).head h).land.lossFocus) :
    exec (.focusLost wait h) s = .next ((s.pass wait).setHead h
      (((s.pass wait).head h).focusLossTaken.focusLost ((s.pass wait).ctx h) 10)) := by
  show execFocusLost wait h s = _
  unfold execFocusLost
  rw [State.headAfter_due _ hawake (by rw [hlocked]; exact decide_eq_true hloss)]
  rfl

/-- Refutes O46: FOCUS_LOST stops slot 1, the open frame of beam 0 ends without a mark and sets its NO_FRAME (R157, R158, R217,
R228), which the statement's list of fields leaves out. -/
theorem not_focusEvents : ¬ Obligations.FocusEvents := by
  unfold Obligations.FocusEvents
  intro hall
  obtain ⟨-, -, hlost, -⟩ := hall (framingState blurredHead) 0 0 rfl
  obtain ⟨y, hexec, ⟨-, -, -, -, hkeeps⟩, -⟩ := hlost (.inr (by decide)) (by decide)
  have hy := State.setHead_next_inj hexec (execFocusLost_locked rfl (by decide) (by decide))
  refine Head.not_keepsFields_noFrame (by decide) ?_ (by decide) hkeeps
  rw [hy]
  exact Head.focusLost_noFrame (x := blurredHead.focusLossTaken) (by decide) (by decide) rfl _ 10

end Sys2Proof.Machine

end

section

namespace Sys2Proof.Machine

/-! ### A settle that ends in a probe

The settle runs from the arrival of the frame with BRIDGE 0, which `settleAt` and with it `settleEnd` count in 0.1 ns. BRIDGE 2 is
issued 20 ns before that instant, in the 1/16 ns of package time, so that it rides the first frame from there on (R87, R252). -/

/-- BRIDGE 2 of the probe whose settle ends at `t` (0.1 ns). -/
def probeShort (t : Nat) : RCmd :=
  { RCmd.reset with op := 7, arg := 2, src := .spindle, issued := (16 * t + 9) / 10 - 320 }

theorem Head.spinTo_riser (st : Nat) (x : Head) : (x.spinTo st).riser = x.riser := by
  unfold Head.spinTo
  extract_lets old y z spin
  have hy : y.riser = x.riser := by
    unfold y
    split <;> rfl
  have hz : z.riser = y.riser := by
    unfold z
    split <;> rfl
  exact hz.trans hy

/-- Once the settle is over the windings of a motor that is tracked, and that no catch finds at rest, are shorted (R248). -/
theorem Head.settleOver_queue {x : Head} (hvalid : x.b SpinReg.MVALID = true)
    (hprobe : x.spin.probeCatch = false ∨ x.b SpinReg.STOPPED = false) (hup : x.up = true) (c : Ctx) (t : Nat) :
    (x.settleOver c t).riser.queue = x.riser.queue ++ [probeShort t] := by
  unfold Head.settleOver
  extract_lets spin y
  have htracked : ¬ (!y.b SpinReg.MVALID) = true := by
    rw [show y.b SpinReg.MVALID = true from hvalid]
    decide
  have hturns : ¬ (y.spin.probeCatch = true ∧ y.b SpinReg.STOPPED = true) := by
    rintro ⟨hcatch, hstopped⟩
    exact hprobe.elim (Bool.eq_false_iff.1 · hcatch) (Bool.eq_false_iff.1 · hstopped)
  rw [if_neg htracked, if_neg hturns, Head.spinTo_riser]
  unfold Head.bridge
  rw [Head.issue_up (x := y) hup]
  rfl

/-- PROBE_SETTLE_END of a head in SETTLE (R252). -/
theorem execProbeSettleEnd_due {s : State} {wait : Nat} {h : Fin 32} {t : Nat} (hawake : ((s.pass wait).head h).inReset = false)
    (hsettles : ((s.pass wait).head h).r SpinReg.SSTATE = 3) (hend : ((s.pass wait).head h).settleEnd = some t)
    (hover : 16 * t ≤ 10 * ((s.pass wait).ctx h).now) :
    exec (.probeSettleEnd wait h) s = .next ((s.pass wait).setHead h
      (((s.pass wait).head h).settleOver ((s.pass wait).ctx h) t)) := by
  show execProbeSettleEnd wait h s = _
  unfold execProbeSettleEnd
  rw [State.headAfter_due _ hawake (by rw [hsettles, hend]; simp [hover])]
  rw [hend]
  rfl

/-- A head with its link UP and its motor tracked and turning, in the settle of a check probe: the frame with BRIDGE 0 started at
package time 0 and arrived after the LAT_DN of 288.0 ns, and PROBE_SETTLE is one frame. -/
def settlingDrive : Head :=
  let x : Head := ({ Head.reset with inReset := false }.w RiserReg.STATE 6).w SpinReg.SSTATE 3
  let x : Head := (x.put SpinReg.MVALID true).w SpinReg.PROBE_SETTLE 1
  { x with spin := { x.spin with settleAt := some 2880 } }

/-- That head 40 frames later. -/
def settlingDriveState : State := { framingState settlingDrive with
  tiles := Vector.replicate 8 { Tile.reset with inReset := false, timeOn := true, time16 := 40 * 1600 } }

/-- Its settle ends at 388.0 ns. -/
theorem settlingDrive_settleEnd : settlingDrive.settleEnd = some 3880 := by decide

/-- Refutes O48: BRIDGE 2 of a probe whose settle ends at 388.0 ns, which `settleEnd` gives as 3880 of 0.1 ns, is issued 20 ns
before 388.0 ns (R87, R252). The statement reads the number as ns, and has the command issued 20 ns before 3880 ns. -/
theorem not_spindleDrive : ¬ Obligations.SpindleDrive := by
  unfold Obligations.SpindleDrive
  intro hall
  obtain ⟨hevents, -⟩ := hall
  obtain ⟨-, -, -, -, -, hsettle, -⟩ := hevents settlingDriveState 0 0 rfl
  obtain ⟨y, hexec, -, -, -, hprobe, -⟩ := hsettle 3880 (by decide) settlingDrive_settleEnd (by decide)
  obtain ⟨-, hshort, -⟩ := hprobe (by decide) (.inl rfl)
  have hy := State.setHead_next_inj hexec
    (execProbeSettleEnd_due rfl (by decide) settlingDrive_settleEnd (by decide))
  have hqueue := Head.settleOver_queue (x := settlingDrive) (by decide) (.inl rfl) (by decide)
    ((settlingDriveState.pass 0).ctx 0) 3880
  have hboth := (hshort (by decide)).symm.trans ((congrArg (·.riser.queue) hy).trans hqueue)
  exact absurd hboth (by decide)

end Sys2Proof.Machine

end

section

namespace Sys2Proof.Machine

/-! ### A switch that turns while the next homing phase waits

A homing phase that ends leaves the number of the next one, which begins once the tick has stopped the jog (R279). Until then the
low switch ends no phase: the one that waits judges the switch as it begins. -/

/-- What the debounced low switch leaves of its generator, whatever follows from it: its run and its count of chatter begin again,
and a release keeps the position of its run (R278, R279). -/
def StepSt.lowTurned (act : Bool) (s : StepSt) : StepSt := { s with
  runLo := 0, chatLo := 0, chatSaidLo := false, runLoPos := none, released := if act then s.released else s.runLoPos }

/-- While the next phase of a homing waits to begin, a turn of the low switch only shows in LIM_LO and in its own counts. -/
theorem State.debounce_phaseWaits {s : State} {h : Fin 32} {g : Fin 2} (hhoming : (s.head h).r (StepReg.GSTATE g) = 3)
    (hwaits : ((s.head h).gen g).phaseNext ≠ 0) :
    s.debounce h g false = s.onHead h fun x =>
      (x.put (StepReg.LIM_LO g) !(s.head h).b (StepReg.LIM_LO g)).onGen g
        (StepSt.lowTurned !(s.head h).b (StepReg.LIM_LO g)) := by
  have hstate (b : Bool) : ((s.head h).put (StepReg.LIM_LO g) b).r (StepReg.GSTATE g) = 3 := by
    rw [← hhoming]
    exact RegFile.rd_wr_ne _ _ (by fin_cases g <;> decide)
  unfold State.debounce
  extract_lets f act keep u x ph
  have hu : u = s.onHead h fun x => (x.put f act).onGen g (StepSt.lowTurned act) := rfl
  have hx : x = ((s.head h).put f act).onGen g (StepSt.lowTurned act) := by
    unfold x
    rw [hu, State.onHead_head]
  have hnext : (x.gen g).phaseNext ≠ 0 := by
    rw [hx, Head.onGen_gen]
    exact hwaits
  rw [if_pos (by rw [hx]; exact hstate act), if_neg Bool.false_ne_true, if_neg fun hover => hnext hover.2.1, hu]
  rfl

/-- LIMIT_DEBOUNCE of the low switch once DB_N good frames have shown its new state (R278). -/
theorem execLimitDebounce_low {s : State} {wait : Nat} {h : Fin 32} {g : Fin 2}
    (hawake : (s.head h).inReset = false)
    (hrun : atLeast1 ((s.head h).r (StepReg.DB_N g)) ≤ ((s.head h).gen g).runLo) :
    exec (.limitDebounce wait h g false) s = .next (((s.advance wait).turnTo 2).debounce h g false) := by
  have hhead : ((s.advance wait).turnTo 2).head h = s.head h := State.turnTo_head 2 (s.advance wait) h
  show execLimitDebounce wait h g false s = _
  unfold execLimitDebounce
  refine State.afterIn_due _ ?_
  rw [hhead, hawake]
  exact decide_eq_true hrun

/-- A head whose sled homes in phase 1 with the low switch active, DB_N good frames having shown it released, while a phase
still waits to begin. -/
def waitingHead : Head :=
  let x : Head := { Head.reset with inReset := false }
  (((x.w (StepReg.GSTATE 0) 3).w (StepReg.HPHASE 0) 1).w (StepReg.LIM_LO 0) 1).onGen 0 fun s =>
    { s with runLo := 8, phaseNext := 1 }

/-- Refutes O49: a turn of the low switch while a homing phase waits to begin leaves the phase that waits, here 1 (R279). The
statement has phase 2 wait after any release in phase 1, and lacks the premise that no phase waits, or that the one that waits
follows HPHASE, which an arbitrary state need not meet. -/
theorem not_stepGenerators : ¬ Obligations.StepGenerators := by
  unfold Obligations.StepGenerators
  rintro ⟨-, -, hchecks⟩
  obtain ⟨-, -, hlimit, -⟩ := hchecks (framingState waitingHead) 0 0 0 rfl
  obtain ⟨t, hexec, -, -, -, -, -, -, hhoming, -⟩ := hlimit false (by decide)
  obtain ⟨-, -, hbackoff, -⟩ := hhoming (by decide)
  obtain ⟨hphase, -⟩ := hbackoff rfl (by decide) (by decide)
  obtain rfl := Host.Outcome.next.inj (hexec.symm.trans (execLimitDebounce_low rfl (by decide)))
  rw [State.debounce_phaseWaits (by decide) (by decide), State.onHead_head, Head.onGen_gen] at hphase
  exact absurd hphase (by decide)

end Sys2Proof.Machine

end


section


namespace Sys2Proof.Machine

/-! ### Every command completes, and keeps what no command may undo

No proof from here on evaluates in the kernel (`decide +kernel`): such a proof holds a thread until all the proofs before it are
checked. -/

/-- Every part of the state. -/
def allParts : List Part :=
  [.time, .free, .heads, .tiles, .ports, .sets, .atria, .flashes, .boot, .pkg, .pins, .fuses, .smb, .shadows]

theorem mem_allParts (p : Part) : p ∈ allParts := by cases p <;> decide

theorem subset_allParts (ps : List Part) : ps ⊆ allParts := fun p _ => mem_allParts p

/-- An event of a schedule completes whether or not one of its type is due (R56, R57). -/
theorem State.fires_completes (s : State) (wait : Nat) (h : Fin 32) (ty : Nat) (act : Fire → State → State) :
    ∃ t, s.fires wait h ty act = .next t := by
  unfold State.fires
  dsimp only
  split
  · exact ⟨_, rfl⟩
  · split <;> exact ⟨_, rfl⟩

/-- A key update completes whichever operation its record names (R422). -/
theorem keyRow_completes (q : Req) (op : Nat) (v : Word) (s : State) : ∃ t, keyRow q op v s = .next t := by
  unfold keyRow
  split <;> exact ⟨_, rfl⟩

theorem State.firesIn_completes (s : State) (wait : Nat) (h : Fin 32) (ty : Nat) (act : Ctx → Fire → Head → Head) :
    ∃ t, s.firesIn wait h ty act = .next t := State.fires_completes ..

/-- The other rows answer a next state by the form that they share. -/
theorem exec_completes (i : Instr) (s : State) : ∃ t, exec i s = .next t := by
  cases i
  case nop | sectorGateOpen | sectorGateClose | writeGateOpen | writeGateClose | wedgeWindowOpen | wedgeWindowClose |
      resyncExpect | loopSample | calWindowOpen | calWindowClose | sparePoint | retain | zoneSelect | mark | revCheck |
      endEvent =>
    delta exec
    simp only [execNop, execSectorGateOpen, execSectorGateClose, execWriteGateOpen, execWriteGateClose, execWedgeWindowOpen,
      execWedgeWindowClose, execResyncExpect, execLoopSample, execCalWindowOpen, execCalWindowClose, execSparePoint, execRetain,
      execZoneSelect, execMark, execRevCheck, execEndEvent, State.firesIn_completes, State.fires_completes]
  case add | remove | revokeFuse => exact keyRow_completes ..
  all_goals exact ⟨_, rfl⟩

/-- Settles O4. -/
theorem everyCommandCompletes : Obligations.EveryCommandCompletes := exec_completes

/-- Settles O1: it is the definition of a step on a queue with a front. -/
theorem stepRunsFront : Obligations.StepRunsFront := fun _ _ _ => rfl

/-- Whatever a command changes, the queue stays, fuses stay blown and time does not run back. -/
theorem exec_changes {i : Instr} {s t : State} (e : exec i s = .next t) : s.ChangesOnly allParts t := by
  cases i with
  | powerOnResetRelease => exact execPowerOnResetRelease_changes (subset_allParts _) _ _ e
  | railUndervoltage => exact execRailUndervoltage_changes (subset_allParts _) _ _ e
  | rstN => exact execRstN_changes (subset_allParts _) _ _ e
  | rstNRise => exact execRstNRise_changes (subset_allParts _) _ e
  | warmRst => exact execWarmRst_changes (subset_allParts _) _ _ e
  | tileRst => exact execTileRst_changes (subset_allParts _) _ _ e
  | headReset => exact execHeadReset_changes (subset_allParts _) _ _ _ e
  | portReset => exact execPortReset_changes (subset_allParts _) _ _ _ e
  | pwrfail => exact execPwrfail_changes (subset_allParts _) _ _ e
  | selvedgeWriteRefusal => exact execSelvedgeWriteRefusal_changes (subset_allParts _) _ e
  | pwrfailEpisodeEnd => exact execPwrfailEpisodeEnd_changes (subset_allParts _) _ e
  | sysclkStop => exact execSysclkStop_changes (subset_allParts _) _ e
  | refclkStop => exact execRefclkStop_changes (subset_allParts _) _ e
  | bootPllLock => exact execBootPllLock_changes (subset_allParts _) _ e
  | tilesPowered => exact execTilesPowered_changes (subset_allParts _) _ e
  | bootRecordScan => exact execBootRecordScan_changes (subset_allParts _) _ e
  | candidateVerify => exact execCandidateVerify_changes (subset_allParts _) _ e
  | sectionLoad => exact execSectionLoad_changes (subset_allParts _) _ e
  | sparingApply => exact execSparingApply_changes (subset_allParts _) _ e
  | recordAppend => exact execRecordAppend_changes (subset_allParts _) _ e
  | journalReplay => exact execJournalReplay_changes (subset_allParts _) _ e
  | coreRelease => exact execCoreRelease_changes (subset_allParts _) _ e
  | tileReload => exact execTileReload_changes (subset_allParts _) _ _ e
  | syncFlitSend => exact execSyncFlitSend_changes (subset_allParts _) _ _ e
  | syncFlitReceive => exact execSyncFlitReceive_changes (subset_allParts _) _ _ e
  | syncLost => exact execSyncLost_changes (subset_allParts _) _ _ e
  | upstreamFrame => exact execUpstreamFrame_changes (subset_allParts _) _ _ _ e
  | holdover => exact execHoldover_changes (subset_allParts _) _ _ e
  | angleLost => exact execAngleLost_changes (subset_allParts _) _ _ e
  | align => exact execAlign_changes (subset_allParts _) _ _ _ e
  | discOffsetWrite => exact execDiscOffsetWrite_changes (subset_allParts _) _ _ _ e
  | vrateWrite => exact execVrateWrite_changes (subset_allParts _) _ _ _ e
  | asrcWrite => exact execAsrcWrite_changes (subset_allParts _) _ _ _ e
  | angleSourceChange => exact execAngleSourceChange_changes (subset_allParts _) _ _ e
  | indexCrossing => exact execIndexCrossing_changes (subset_allParts _) _ _ e
  | start => exact execStart_changes (subset_allParts _) _ _ _ e
  | stop => exact execStop_changes (subset_allParts _) _ _ _ e
  | slot0SchedWrite => exact execSlot0SchedWrite_changes (subset_allParts _) _ _ _ e
  | spareArm => exact execSpareArm_changes (subset_allParts _) _ _ _ e
  | nop => exact execNop_changes (subset_allParts _) _ _ e
  | sectorGateOpen => exact execSectorGateOpen_changes (subset_allParts _) _ _ e
  | sectorGateClose => exact execSectorGateClose_changes (subset_allParts _) _ _ e
  | writeGateOpen => exact execWriteGateOpen_changes (subset_allParts _) _ _ e
  | writeGateClose => exact execWriteGateClose_changes (subset_allParts _) _ _ e
  | wedgeWindowOpen => exact execWedgeWindowOpen_changes (subset_allParts _) _ _ e
  | wedgeWindowClose => exact execWedgeWindowClose_changes (subset_allParts _) _ _ e
  | resyncExpect => exact execResyncExpect_changes (subset_allParts _) _ _ e
  | loopSample => exact execLoopSample_changes (subset_allParts _) _ _ e
  | calWindowOpen => exact execCalWindowOpen_changes (subset_allParts _) _ _ e
  | calWindowClose => exact execCalWindowClose_changes (subset_allParts _) _ _ e
  | sparePoint => exact execSparePoint_changes (subset_allParts _) _ _ e
  | retain => exact execRetain_changes (subset_allParts _) _ _ e
  | zoneSelect => exact execZoneSelect_changes (subset_allParts _) _ _ e
  | mark => exact execMark_changes (subset_allParts _) _ _ e
  | revCheck => exact execRevCheck_changes (subset_allParts _) _ _ e
  | endEvent => exact execEndEvent_changes (subset_allParts _) _ _ e
  | train => exact execTrain_changes (subset_allParts _) _ _ _ e
  | autoRetrain => exact execAutoRetrain_changes (subset_allParts _) _ _ e
  | silentElapsed => exact execSilentElapsed_changes (subset_allParts _) _ _ e
  | lockElapsed => exact execLockElapsed_changes (subset_allParts _) _ _ _ e
  | trainingBlock => exact execTrainingBlock_changes (subset_allParts _) _ _ _ e
  | alignTimeout => exact execAlignTimeout_changes (subset_allParts _) _ _ e
  | measureDone => exact execMeasureDone_changes (subset_allParts _) _ _ e
  | measureTimeout => exact execMeasureTimeout_changes (subset_allParts _) _ _ e
  | framedLock => exact execFramedLock_changes (subset_allParts _) _ _ e
  | frameTimeout => exact execFrameTimeout_changes (subset_allParts _) _ _ e
  | linkLoss => exact execLinkLoss_changes (subset_allParts _) _ _ _ e
  | downstreamFrame => exact execDownstreamFrame_changes (subset_allParts _) _ _ e
  | cmdLost => exact execCmdLost_changes (subset_allParts _) _ _ e
  | beamSampleDelivery => exact execBeamSampleDelivery_changes (subset_allParts _) _ _ _ e
  | defectHoldRelease => exact execDefectHoldRelease_changes (subset_allParts _) _ _ e
  | fwGo => exact execFwGo_changes (subset_allParts _) _ _ _ e
  | safeCmd => exact execSafeCmd_changes (subset_allParts _) _ _ _ e
  | safeRelease => exact execSafeRelease_changes (subset_allParts _) _ _ _ e
  | decodeComplete => exact execDecodeComplete_changes (subset_allParts _) _ _ _ e
  | clrStats => exact execClrStats_changes (subset_allParts _) _ _ _ _ e
  | retryGo => exact execRetryGo_changes (subset_allParts _) _ _ _ e
  | release => exact execRelease_changes (subset_allParts _) _ _ _ e
  | replayStart => exact execReplayStart_changes (subset_allParts _) _ _ e
  | hypothesisDone => exact execHypothesisDone_changes (subset_allParts _) _ _ e
  | write => exact execWrite_changes (subset_allParts _) _ _ e
  | verify => exact execVerify_changes (subset_allParts _) _ _ e
  | opc => exact execOpc_changes (subset_allParts _) _ _ e
  | pcaScan => exact execPcaScan_changes (subset_allParts _) _ _ e
  | armed => exact execArmed_changes (subset_allParts _) _ _ e
  | descriptorComplete => exact execDescriptorComplete_changes (subset_allParts _) _ _ e
  | abort => exact execAbort_changes (subset_allParts _) _ _ _ e
  | stratGo => exact execStratGo_changes (subset_allParts _) _ _ _ e
  | stratLoadStart => exact execStratLoadStart_changes (subset_allParts _) _ _ e
  | loopSampleDue => exact execLoopSampleDue_changes (subset_allParts _) _ _ _ e
  | loopEvaluation => exact execLoopEvaluation_changes (subset_allParts _) _ _ _ e
  | loopClear => exact execLoopClear_changes (subset_allParts _) _ _ _ _ e
  | loopClrStats => exact execLoopClrStats_changes (subset_allParts _) _ _ _ _ e
  | hcmdNop => exact execHcmdNop_changes (subset_allParts _) _ _ _ e
  | park => exact execPark_changes (subset_allParts _) _ _ _ e
  | spin => exact execSpin_changes (subset_allParts _) _ _ _ e
  | focusOn => exact execFocusOn_changes (subset_allParts _) _ _ _ e
  | focusOff => exact execFocusOff_changes (subset_allParts _) _ _ _ e
  | trackOn => exact execTrackOn_changes (subset_allParts _) _ _ _ e
  | trackOff => exact execTrackOff_changes (subset_allParts _) _ _ _ e
  | seek => exact execSeek_changes (subset_allParts _) _ _ _ e
  | clearFault => exact execClearFault_changes (subset_allParts _) _ _ _ e
  | hcmdReserved => exact execHcmdReserved_changes (subset_allParts _) _ _ _ e
  | focusLock => exact execFocusLock_changes (subset_allParts _) _ _ e
  | flockTimeout => exact execFlockTimeout_changes (subset_allParts _) _ _ e
  | focusLost => exact execFocusLost_changes (subset_allParts _) _ _ e
  | saSettled => exact execSaSettled_changes (subset_allParts _) _ _ e
  | saTimeout => exact execSaTimeout_changes (subset_allParts _) _ _ e
  | kickEnd => exact execKickEnd_changes (subset_allParts _) _ _ e
  | brakeEnd => exact execBrakeEnd_changes (subset_allParts _) _ _ e
  | jumpTimeout => exact execJumpTimeout_changes (subset_allParts _) _ _ e
  | wedgeComplete => exact execWedgeComplete_changes (subset_allParts _) _ _ e
  | trackingLock => exact execTrackingLock_changes (subset_allParts _) _ _ e
  | trackLost => exact execTrackLost_changes (subset_allParts _) _ _ e
  | settleEnd => exact execSettleEnd_changes (subset_allParts _) _ _ e
  | idTimeout => exact execIdTimeout_changes (subset_allParts _) _ _ e
  | tlockTimeout => exact execTlockTimeout_changes (subset_allParts _) _ _ e
  | holdTimeout => exact execHoldTimeout_changes (subset_allParts _) _ _ e
  | angleFault => exact execAngleFault_changes (subset_allParts _) _ _ e
  | stoppedConfirm => exact execStoppedConfirm_changes (subset_allParts _) _ _ e
  | atSpeed => exact execAtSpeed_changes (subset_allParts _) _ _ e
  | spinTimeout => exact execSpinTimeout_changes (subset_allParts _) _ _ e
  | voltLimited => exact execVoltLimited_changes (subset_allParts _) _ _ e
  | probeSettleEnd => exact execProbeSettleEnd_changes (subset_allParts _) _ _ e
  | catchTimeout => exact execCatchTimeout_changes (subset_allParts _) _ _ e
  | alignRun => exact execAlignRun_changes (subset_allParts _) _ _ _ e
  | alignDone => exact execAlignDone_changes (subset_allParts _) _ _ e
  | scmdNop => exact execScmdNop_changes (subset_allParts _) _ _ _ e
  | scmdReserved => exact execScmdReserved_changes (subset_allParts _) _ _ _ e
  | ovTrip => exact execOvTrip_changes (subset_allParts _) _ _ e
  | ocTrip => exact execOcTrip_changes (subset_allParts _) _ _ e
  | ovPersist => exact execOvPersist_changes (subset_allParts _) _ _ e
  | chopSilentLatch => exact execChopSilentLatch_changes (subset_allParts _) _ _ e
  | chopSilent => exact execChopSilent_changes (subset_allParts _) _ _ _ e
  | stepTick => exact execStepTick_changes (subset_allParts _) _ _ e
  | move => exact execMove_changes (subset_allParts _) _ _ _ _ e
  | mcmdStop => exact execMcmdStop_changes (subset_allParts _) _ _ _ _ e
  | halt => exact execHalt_changes (subset_allParts _) _ _ _ _ e
  | home => exact execHome_changes (subset_allParts _) _ _ _ _ e
  | rebase => exact execRebase_changes (subset_allParts _) _ _ _ _ e
  | mcmdNop => exact execMcmdNop_changes (subset_allParts _) _ _ _ _ e
  | mcmdReserved => exact execMcmdReserved_changes (subset_allParts _) _ _ _ _ e
  | stall => exact execStall_changes (subset_allParts _) _ _ _ e
  | lostStep => exact execLostStep_changes (subset_allParts _) _ _ _ e
  | limitDebounce => exact execLimitDebounce_changes (subset_allParts _) _ _ _ _ e
  | chatter => exact execChatter_changes (subset_allParts _) _ _ _ _ e
  | holdCurrent => exact execHoldCurrent_changes (subset_allParts _) _ _ _ e
  | arm => exact execArm_changes (subset_allParts _) _ _ _ e
  | cancel => exact execCancel_changes (subset_allParts _) _ _ _ e
  | spanStart => exact execSpanStart_changes (subset_allParts _) _ _ e
  | interp => exact execInterp_changes (subset_allParts _) _ _ _ e
  | autoInterp => exact execAutoInterp_changes (subset_allParts _) _ _ e
  | interpDone => exact execInterpDone_changes (subset_allParts _) _ _ e
  | commit => exact execCommit_changes (subset_allParts _) _ _ _ e
  | commitDone => exact execCommitDone_changes (subset_allParts _) _ _ e
  | erase => exact execErase_changes (subset_allParts _) _ _ _ e
  | loadInterp => exact execLoadInterp_changes (subset_allParts _) _ _ _ e
  | loadSlot => exact execLoadSlot_changes (subset_allParts _) _ _ _ e
  | online => exact execOnline_changes (subset_allParts _) _ _ _ e
  | absent => exact execAbsent_changes (subset_allParts _) _ _ _ e
  | present => exact execPresent_changes (subset_allParts _) _ _ _ e
  | rebuildStart => exact execRebuildStart_changes (subset_allParts _) _ _ _ e
  | rebuildEnd => exact execRebuildEnd_changes (subset_allParts _) _ _ _ e
  | suspend => exact execSuspend_changes (subset_allParts _) _ _ _ e
  | resume => exact execResume_changes (subset_allParts _) _ _ _ e
  | setCmdReserved => exact execSetCmdReserved_changes (subset_allParts _) _ _ _ e
  | compute => exact execCompute_changes (subset_allParts _) _ _ e
  | patrol => exact execPatrol_changes (subset_allParts _) _ _ e
  | openBand => exact execOpenBand_changes (subset_allParts _) _ _ e
  | delta => exact execDelta_changes (subset_allParts _) _ _ e
  | land => exact execLand_changes (subset_allParts _) _ _ e
  | void => exact execVoid_changes (subset_allParts _) _ _ e
  | remap => exact execRemap_changes (subset_allParts _) _ _ e
  | ckptSnap => exact execCkptSnap_changes (subset_allParts _) _ _ e
  | checkpoint => exact execCheckpoint_changes (subset_allParts _) _ _ e
  | mapReplay => exact execMapReplay_changes (subset_allParts _) _ _ e
  | boltTypeReserved => exact execBoltTypeReserved_changes (subset_allParts _) _ _ e
  | stripeCommit => exact execStripeCommit_changes (subset_allParts _) _ _ e
  | journalRecordDurable => exact execJournalRecordDurable_changes (subset_allParts _) _ _ e
  | paceWindowEnd => exact execPaceWindowEnd_changes (subset_allParts _) _ _ e
  | creditAccrual => exact execCreditAccrual_changes (subset_allParts _) _ _ e
  | fabricFrameReceive => exact execFabricFrameReceive_changes (subset_allParts _) _ _ _ e
  | fabricLinkUp => exact execFabricLinkUp_changes (subset_allParts _) _ _ e
  | fabricLinkDown => exact execFabricLinkDown_changes (subset_allParts _) _ _ e
  | pfcStorm => exact execPfcStorm_changes (subset_allParts _) _ _ e
  | rateRecovery => exact execRateRecovery_changes (subset_allParts _) _ _ e
  | connect => exact execConnect_changes (subset_allParts _) _ _ _ e
  | propertyGet => exact execPropertyGet_changes (subset_allParts _) _ _ _ e
  | propertySet => exact execPropertySet_changes (subset_allParts _) _ _ _ e
  | disconnect => exact execDisconnect_changes (subset_allParts _) _ _ _ e
  | getLogPage => exact execGetLogPage_changes (subset_allParts _) _ _ _ e
  | identify => exact execIdentify_changes (subset_allParts _) _ _ _ e
  | nvmeAbort => exact execNvmeAbort_changes (subset_allParts _) _ _ _ e
  | setFeatures => exact execSetFeatures_changes (subset_allParts _) _ _ _ e
  | getFeatures => exact execGetFeatures_changes (subset_allParts _) _ _ _ e
  | asynchronousEventRequest => exact execAsynchronousEventRequest_changes (subset_allParts _) _ _ _ e
  | firmwareCommit => exact execFirmwareCommit_changes (subset_allParts _) _ _ _ e
  | firmwareImageDownload => exact execFirmwareImageDownload_changes (subset_allParts _) _ _ _ e
  | keepAlive => exact execKeepAlive_changes (subset_allParts _) _ _ _ e
  | flush => exact execFlush_changes (subset_allParts _) _ _ _ e
  | nvmeWrite => exact execNvmeWrite_changes (subset_allParts _) _ _ _ e
  | nvmeRead => exact execNvmeRead_changes (subset_allParts _) _ _ _ e
  | writeZeroes => exact execWriteZeroes_changes (subset_allParts _) _ _ _ e
  | nvmeVerify => exact execNvmeVerify_changes (subset_allParts _) _ _ _ e
  | readVersion => exact execReadVersion_changes (subset_allParts _) _ _ _ e
  | invalidOpcode => exact execInvalidOpcode_changes (subset_allParts _) _ _ _ e
  | lockGrant => exact execLockGrant_changes (subset_allParts _) _ _ e
  | writeDataStaged => exact execWriteDataStaged_changes (subset_allParts _) _ _ e
  | bind => exact execBind_changes (subset_allParts _) _ _ _ e
  | dataReady => exact execDataReady_changes (subset_allParts _) _ _ _ e
  | failEntry => exact execFailEntry_changes (subset_allParts _) _ _ _ e
  | doneEntry => exact execDoneEntry_changes (subset_allParts _) _ _ _ e
  | writeResolved => exact execWriteResolved_changes (subset_allParts _) _ _ e
  | readTransferDone => exact execReadTransferDone_changes (subset_allParts _) _ _ e
  | katoExpired => exact execKatoExpired_changes (subset_allParts _) _ _ e
  | apstTransition => exact execApstTransition_changes (subset_allParts _) _ _ e
  | psCurrentWrite => exact execPsCurrentWrite_changes (subset_allParts _) _ _ e
  | ceLeak => exact execCeLeak_changes (subset_allParts _) _ _ e
  | ceOvfClear => exact execCeOvfClear_changes (subset_allParts _) _ _ _ e
  | logClr => exact execLogClr_changes (subset_allParts _) _ _ _ e
  | dmaGo => exact execDmaGo_changes (subset_allParts _) _ _ _ _ e
  | dmaStop => exact execDmaStop_changes (subset_allParts _) _ _ _ _ e
  | dmaTransfer => exact execDmaTransfer_changes (subset_allParts _) _ _ e
  | repairAdd => exact execRepairAdd_changes (subset_allParts _) _ _ _ e
  | repairDel => exact execRepairDel_changes (subset_allParts _) _ _ _ e
  | instructionFetch => exact execInstructionFetch_changes (subset_allParts _) _ _ _ _ e
  | coreLoad => exact execCoreLoad_changes (subset_allParts _) _ _ _ _ e
  | coreStore => exact execCoreStore_changes (subset_allParts _) _ _ _ _ e
  | amo => exact execAmo_changes (subset_allParts _) _ _ _ _ _ e
  | fence => exact execFence_changes (subset_allParts _) _ _ _ e
  | fenceI => exact execFenceI_changes (subset_allParts _) _ _ _ e
  | cacheFill => exact execCacheFill_changes (subset_allParts _) _ _ _ _ e
  | prefetchFill => exact execPrefetchFill_changes (subset_allParts _) _ _ _ _ e
  | storeDrain => exact execStoreDrain_changes (subset_allParts _) _ _ _ e
  | timerInterrupt => exact execTimerInterrupt_changes (subset_allParts _) _ _ _ e
  | dbSet => exact execDbSet_changes (subset_allParts _) _ _ _ _ e
  | invGo => exact execInvGo_changes (subset_allParts _) _ _ _ _ _ e
  | llGo => exact execLlGo_changes (subset_allParts _) _ _ _ _ _ e
  | llDone => exact execLlDone_changes (subset_allParts _) _ _ _ _ e
  | cacheEnWrite => exact execCacheEnWrite_changes (subset_allParts _) _ _ _ _ _ e
  | flashRead => exact execFlashRead_changes (subset_allParts _) _ _ _ e
  | flashProgram => exact execFlashProgram_changes (subset_allParts _) _ _ _ e
  | flashErase => exact execFlashErase_changes (subset_allParts _) _ _ _ e
  | flashVerify => exact execFlashVerify_changes (subset_allParts _) _ _ _ e
  | flashOpComplete => exact execFlashOpComplete_changes (subset_allParts _) _ _ _ e
  | flashTimeout => exact execFlashTimeout_changes (subset_allParts _) _ _ e
  | add => exact execAdd_changes (subset_allParts _) _ _ e
  | remove => exact execRemove_changes (subset_allParts _) _ _ e
  | revokeFuse => exact execRevokeFuse_changes (subset_allParts _) _ _ e
  | brAckWrite => exact execBrAckWrite_changes (subset_allParts _) _ _ e
  | minSeqWrite => exact execMinSeqWrite_changes (subset_allParts _) _ _ _ e
  | activeSlotWrite => exact execActiveSlotWrite_changes (subset_allParts _) _ _ e
  | getVersion => exact execGetVersion_changes (subset_allParts _) _ e
  | getCapabilities => exact execGetCapabilities_changes (subset_allParts _) _ e
  | negotiateAlgorithms => exact execNegotiateAlgorithms_changes (subset_allParts _) _ _ _ e
  | getDigests => exact execGetDigests_changes (subset_allParts _) _ e
  | getCertificate => exact execGetCertificate_changes (subset_allParts _) _ _ _ _ e
  | challenge => exact execChallenge_changes (subset_allParts _) _ _ _ e
  | getMeasurements => exact execGetMeasurements_changes (subset_allParts _) _ _ _ _ e
  | vendorDefinedRequest => exact execVendorDefinedRequest_changes (subset_allParts _) _ _ _ _ e
  | smbusRead => exact execSmbusRead_changes (subset_allParts _) _ _ _ e
  | smbusWrite => exact execSmbusWrite_changes (subset_allParts _) _ _ _ e
  | alertResponse => exact execAlertResponse_changes (subset_allParts _) _ e
  | smbusClockTimeout => exact execSmbusClockTimeout_changes (subset_allParts _) _ _ e
  | leaseRenewal => exact execLeaseRenewal_changes (subset_allParts _) _ _ e
  | leaseFlit => exact execLeaseFlit_changes (subset_allParts _) _ _ e
  | renewLate => exact execRenewLate_changes (subset_allParts _) _ _ e
  | leaseExpiry => exact execLeaseExpiry_changes (subset_allParts _) _ _ e
  | handover => exact execHandover_changes (subset_allParts _) _ _ e
  | handoverFlit => exact execHandoverFlit_changes (subset_allParts _) _ _ e
  | claim => exact execClaim_changes (subset_allParts _) _ _ e
  | unfreeze => exact execUnfreeze_changes (subset_allParts _) _ _ e
  | authNop => exact execAuthNop_changes (subset_allParts _) _ _ e
  | authReserved => exact execAuthReserved_changes (subset_allParts _) _ _ e
  | warpFlitReceive => exact execWarpFlitReceive_changes (subset_allParts _) _ _ _ _ e
  | warpLinkDown => exact execWarpLinkDown_changes (subset_allParts _) _ _ _ _ e
  | warpLinkUp => exact execWarpLinkUp_changes (subset_allParts _) _ _ _ e
  | rejoinComplete => exact execRejoinComplete_changes (subset_allParts _) _ e
  | sensorSample => exact execSensorSample_changes (subset_allParts _) _ _ _ e
  | sensorExclude => exact execSensorExclude_changes (subset_allParts _) _ _ e
  | sensorReadmit => exact execSensorReadmit_changes (subset_allParts _) _ _ e
  | stackTempRead => exact execStackTempRead_changes (subset_allParts _) _ _ _ e
  | thermalTrip => exact execThermalTrip_changes (subset_allParts _) _ _ e
  | heavyPowerOff => exact execHeavyPowerOff_changes (subset_allParts _) _ _ e
  | thermalRestart => exact execThermalRestart_changes (subset_allParts _) _ _ e
  | tripResume => exact execTripResume_changes (subset_allParts _) _ _ _ e
  | throttleEvaluation => exact execThrottleEvaluation_changes (subset_allParts _) _ _ e
  | registerWrite => exact execRegisterWrite_changes (subset_allParts _) _ _ _ e
  | unmappedAccess => exact execUnmappedAccess_changes (subset_allParts _) _ _ _ e
  | resetAccess => exact execResetAccess_changes (subset_allParts _) _ _ _ e
  | tawDataRead => exact execTawDataRead_changes (subset_allParts _) _ _ e
  | tawDataWrite => exact execTawDataWrite_changes (subset_allParts _) _ _ _ e
  | pwrfailNRise => exact execPwrfailNRise_changes (subset_allParts _) _ e
  | sysclkReturn => exact execSysclkReturn_changes (subset_allParts _) _ e
  | slewEnd => exact execSlewEnd_changes (subset_allParts _) _ e
  | timeHoldEnd => exact execTimeHoldEnd_changes (subset_allParts _) _ e
  | boltDescriptorComplete => exact execBoltDescriptorComplete_changes (subset_allParts _) _ _ e
  | lowerWordRead => exact execLowerWordRead_changes (subset_allParts _) _ _ e

/-- A step takes the front of the queue, if there is one, and changes the rest of the state as its command may. -/
theorem step_changes {s t : State} (e : step s = .next t) : { s with pending := s.pending.tail }.ChangesOnly allParts t := by
  unfold step at e
  split at e
  next hq =>
    cases e
    rw [show { s with pending := s.pending.tail } = s by rw [hq, List.tail_nil, ← hq]]
    exact State.advance_changes (subset_allParts _) 1 (.refl s)
  next c rest hq =>
    rw [hq]
    exact exec_changes e

/-- Settles O5: a step on an empty queue advances time alone, and every command keeps fuses, time and queue. -/
theorem stepKeepsFusesQueueAndTime : Obligations.StepKeepsFusesQueueAndTime := fun _ _ e =>
  have h := step_changes e
  ⟨h.later, h.notBack, h.pending⟩

/-- Settles O6. -/
theorem fuseInvariantHolds : Obligations.FuseInvariantHolds :=
  ⟨fun s t hs e => hs.trans (stepKeepsFusesQueueAndTime s t e).1, .refl _⟩

end Sys2Proof.Machine

end

section


namespace Sys2Proof.Machine

/-! ### A port in loopback whose line falls

With the PORT bits of its strap word at 1 an enabled port hears itself and nothing from its line, so that a fall of the line does
not reach it (R409). -/

/-- A package strapped for loopback, whose port 0 is enabled and has its link. -/
def loopedState : State := { State.reset with
  tiles := State.reset.tiles.set 0 ((Tile.reset.put (PortReg.ENABLE 0) true).put (PortReg.LINK_UP 0) true)
  boot := { BootSt.reset with strapWord := 2 ^ 8 } }

theorem loopedState_link : (loopedState.pass 0).pb 0 PortReg.LINK_UP = true := by decide

/-- The fall is not heard. -/
theorem loopedState_stands : exec (.fabricLinkDown 0 0) loopedState = .next (loopedState.pass 0) :=
  congrArg Host.Outcome.next (if_neg (by decide))

/-- Refutes O57: the fall of the line leaves LINK_UP of a port in loopback at 1. -/
theorem not_fabric : ¬ Obligations.Fabric := by
  unfold Obligations.Fabric
  intro ⟨hall, _⟩
  obtain ⟨-, hfall, -⟩ := hall loopedState 0 0
  obtain ⟨y, hexec, hlink, -⟩ := hfall loopedState_link
  obtain rfl : y = loopedState.pass 0 := Host.Outcome.next.inj (hexec.symm.trans loopedState_stands)
  rw [loopedState_link] at hlink
  exact absurd hlink (by decide)

end Sys2Proof.Machine

end

section

namespace Sys2Proof.Machine

/-! ### A new source of TEMP that brings another item

A write of the temperature control word reads TEMP at once from the latest good frame (R294). Where the frame's telemetry word
carries another item than TEMP_ITEM, TEMP_INVALID is set. -/

/-- A package whose head 0 has had a good frame without telemetry, and runs an interpolation. -/
def telemetryState : State := { State.reset with
  heads := State.reset.heads.set 0 { Head.reset with
    inReset := false
    riser := { RiserSt.reset with servoSeen := true }
    cal := { CalSt.reset with running := some 0 } }
  tiles := Vector.replicate 8 { Tile.reset with inReset := false, timeOn := true }
  atria := Vector.replicate 2 (Atrium.reset.w IdReg.TILE_EN 255)
  boot := { BootSt.reset with phase := .running } }

set_option maxRecDepth 20000 in
theorem telemetryState_invalid : ∃ t, exec (.interp (.core 0 0) 0 0x2000) telemetryState = .next t ∧
    (t.head 0).r CalReg.TEMP_INVALID = 1 := by
  refine ⟨_, rfl, ?_⟩
  decide

set_option maxRecDepth 20000 in
/-- Refutes O40: an INTERP with TEMP_ITEM 32, which the frame's telemetry does not carry, sets TEMP_INVALID, which stands in
another word than the one written and which the statement leaves as it was. -/
theorem not_temperatureSets : ¬ Obligations.TemperatureSets := by
  unfold Obligations.TemperatureSets
  intro hall
  obtain ⟨hwrites, -⟩ := hall telemetryState 0
  obtain ⟨hinterp, -⟩ := hwrites (.core 0 0) 0x2000
  obtain ⟨hrunning, -⟩ := hinterp (by decide)
  obtain ⟨y, hexec, ⟨-, hkeeps⟩, -⟩ := hrunning 0 (by decide)
  obtain ⟨t, hexec', hflag⟩ := telemetryState_invalid
  obtain rfl : t = _ := Host.Outcome.next.inj (hexec'.symm.trans hexec)
  rw [State.setHead_head, hkeeps CalReg.TEMP_INVALID (by decide) (by decide)] at hflag
  exact absurd hflag (by decide)

end Sys2Proof.Machine

end

section


namespace Sys2Proof.Machine

/-! ### Calibration jobs: the reference, ARM and the end of a job -/

theorem Head.jobField_byte (x : Head) (j k : Nat) : x.jobField j k 1 = (x.cal.jobMem.read8 (32 * j + k)).toNat := by
  unfold Head.jobField Mem.readLE Mem.readLE
  omega

/-- A number of 32 bits stands in a field of that width as it is. -/
theorem Head.ri_wi_of_sat32 (x : Head) {f : Fld} (hw : f.width = 32) {v : Int} (h : sat32 v = v) : (x.wi f v).ri f = v := by
  have hv : -2147483648 ≤ v ∧ v ≤ 2147483647 := by
    unfold sat32 clampInt at h
    omega
  exact RegFile.rdS_wrS_of_fits x.regs (by omega) (by rw [hw]; omega) (by rw [hw]; omega)

/-- A field that is no reference of a loop. -/
def Fld.noRef (g : Fld) : Bool := decide (g.key < (LoopReg.LOOP_REF 0).key ∨ (LoopReg.LOOP_REF 24).key ≤ g.key)

theorem Fld.key_ne_of_noRef {g : Fld} (hg : g.noRef = true) {n : Nat} (hn : n < 24) : g.key ≠ (LoopReg.LOOP_REF n).key := by
  have hg := of_decide_eq_true hg
  unfold Fld.key LoopReg.LOOP_REF at *
  dsimp only at *
  omega

/-- The reference of a loop is apart from the fields that the end of a job writes. -/
theorem ref_apart {n : Nat} (hn : n < 24) :
    ∀ e ∈ [LoopReg.INJ_EN, CalReg.BUSY, CalReg.RUNNING, CalReg.JSTATUS, CalReg.JOB_FAIL],
      (LoopReg.LOOP_REF n).key ≠ e.key := by
  have hapart : ∀ e ∈ [LoopReg.INJ_EN, CalReg.BUSY, CalReg.RUNNING, CalReg.JSTATUS, CalReg.JOB_FAIL], e.noRef = true := by
    decide
  exact fun e he => (Fld.key_ne_of_noRef (hapart e he) hn).symm

/-- The reference of the job's loop, as a field. -/
def Head.calRef (x : Head) : Fld := LoopReg.LOOP_REF (x.jobLoop x.cal.job)

/-- The saved reference is written back (R285, R290). -/
theorem Head.calRestore_some {x : Head} {v : Int} (hb : x.cal.base = some v) (hn : x.jobLoop x.cal.job < 24) :
    x.calRestore = x.wi x.calRef v := by
  unfold Head.calRef
  have hbyte := Head.jobField_byte x x.cal.job 2
  unfold Head.jobLoop at *
  rw [hbyte] at hn ⊢
  unfold Head.calRestore
  rw [hb]
  exact if_pos hn

theorem Head.calRestore_none {x : Head} (hb : x.cal.base = none) : x.calRestore = x := by
  unfold Head.calRestore
  rw [hb]

/-- Of a loop that is none, no reference is written back. -/
theorem Head.calRestore_beyond {x : Head} (hn : ¬ x.jobLoop x.cal.job < 24) : x.calRestore = x := by
  have hbyte := Head.jobField_byte x x.cal.job 2
  unfold Head.jobLoop at hn
  rw [hbyte] at hn
  unfold Head.calRestore
  split
  · rfl
  · exact if_neg hn

theorem Head.calRestore_cal (x : Head) : x.calRestore.cal = x.cal := by
  unfold Head.calRestore Head.loopRef
  split
  · rfl
  · split <;> rfl

theorem Head.calRestore_r {x : Head} {g : Fld} (hg : ∀ v, x.cal.base = some v → g.key ≠ x.calRef.key) :
    x.calRestore.r g = x.r g := by
  rcases hb : x.cal.base with _ | v
  · rw [Head.calRestore_none hb]
  · by_cases hn : x.jobLoop x.cal.job < 24
    · rw [Head.calRestore_some hb hn]
      exact Head.keep_wi (hg v hb) rfl
    · rw [Head.calRestore_beyond hn]

theorem Head.calRestore_r_noRef (x : Head) {g : Fld} (hg : g.noRef = true) : x.calRestore.r g = x.r g := by
  by_cases hn : x.jobLoop x.cal.job < 24
  · exact Head.calRestore_r fun _ _ => Fld.key_ne_of_noRef hg hn
  · rw [Head.calRestore_beyond hn]

/-- The flag that the end of a job sets (R287). -/
def calEndFlag (status : Nat) : Fld := if status = 0 then CalReg.JOB_DONE else CalReg.JOB_FAIL

/-- The calibration block after the end of a job, but for the result record. -/
def CalSt.ended (k : CalSt) : CalSt :=
  { k with window := false, closeTe := none, spanOn := false, injSet := false, stimSent := false, base := none }

/-- The end of an armed job (R287, R292). -/
theorem Head.calEnd_leaves {x : Head} (hb : x.b CalReg.BUSY = true) (c : Ctx) {status : Nat} (hs : status < 16)
    (fit : List (Nat × Nat × Nat)) : let y := x.calEnd c status fit
    y.b CalReg.BUSY = false ∧ y.b CalReg.RUNNING = false ∧ y.r CalReg.JSTATUS = status ∧ y.b (calEndFlag status) = true ∧
      y.cal = { x.cal.ended with
        resultMem := fit.foldl (fun m e => m.writeLE e.1 e.2.1 e.2.2) (x.calRecord c status) } ∧
      (x.cal.injSet = true → y.b LoopReg.INJ_EN = false) ∧
      ∀ g : Fld, (∀ e ∈ [LoopReg.INJ_EN, CalReg.BUSY, CalReg.RUNNING, CalReg.JSTATUS, calEndFlag status], g.key ≠ e.key) →
        y.r g = x.r g := by
  have hflag : ∀ e ∈ [LoopReg.INJ_EN, CalReg.BUSY, CalReg.RUNNING, CalReg.JSTATUS], e.key ≠ (calEndFlag status).key := by
    unfold calEndFlag
    split <;> decide
  have hwidth : (calEndFlag status).width = 1 := by
    unfold calEndFlag
    split <;> rfl
  unfold Head.calEnd
  rw [if_pos hb]
  extract_lets +onlyGivenNames -merge -useContext -lift m z u w
  have hz {g : Fld} (hg : g.key ≠ LoopReg.INJ_EN.key) : z.r g = x.r g := Head.keep_ite (Head.keep_put hg rfl) rfl
  have hcal : z.cal = x.cal := by
    unfold z
    split <;> rfl
  refine ⟨?_, ?_, ?_, Head.b_flag _ hwidth, ?_, fun hinj => ?_, fun g hg => ?_⟩
  · exact (Head.b_of (Head.keep_flag (hflag _ (by simp)) (Head.keep_w (by decide) (Head.keep_put (by decide) rfl)))).trans
      (Head.b_put w false rfl)
  · exact (Head.b_of (Head.keep_flag (hflag _ (by simp)) (Head.keep_w (by decide) rfl))).trans
      (Head.b_put (w.put CalReg.BUSY false) false rfl)
  · exact Head.keep_flag (hflag _ (by simp)) ((Head.r_w ..).trans (Nat.mod_eq_of_lt hs))
  · show { u with resultMem := m, window := false, closeTe := none, spanOn := false, injSet := false, stimSent := false, base := none } = _
    rw [show u = x.cal from hcal]
    rfl
  · have hoff : z.b LoopReg.INJ_EN = false := by
      unfold z
      rw [if_pos hinj]
      exact Head.b_put x false rfl
    exact (Head.b_of (Head.keep_flag (hflag _ (by simp))
      (Head.keep_w (by decide) (Head.keep_put (by decide) (Head.keep_put (by decide) rfl))))).trans hoff
  · obtain ⟨hinj, hbusy, hrun, hjst, hend⟩ : g.key ≠ LoopReg.INJ_EN.key ∧ g.key ≠ CalReg.BUSY.key ∧
        g.key ≠ CalReg.RUNNING.key ∧ g.key ≠ CalReg.JSTATUS.key ∧ g.key ≠ (calEndFlag status).key := by
      simpa only [List.forall_mem_cons, List.not_mem_nil, false_implies, implies_true, and_true] using hg
    exact Head.keep_flag hend (Head.keep_w hjst (Head.keep_put hrun (Head.keep_put hbusy (hz hinj))))

/-- The calibration block of a head whose job `j` is armed (R285). -/
def CalSt.armed (k : CalSt) (kind j : Nat) (stateOk linkOk : Bool) : CalSt :=
  { k with
    kind := kind, job := j, window := false, openTe := 0, closeTe := none, spanOn := false
    tOpen := 0, tempOpen := 0, n := 0, excluded := 0, clipped := 0, samples := [], evals := [], steps := []
    base := none, injSet := false, stimSent := false, baseRef := 0, stateSeen := stateOk, linkSeen := linkOk }

theorem Head.calArm_busy {x : Head} (hb : x.b CalReg.BUSY = true) : x.calArm = x := if_pos hb

/-- ARM with no job running and a good entry (R285). -/
theorem Head.calArm_good {x : Head} (hb : x.b CalReg.BUSY = false) (hj : x.jobOk (x.r CalReg.JOB) = true) :
    let y := x.calArm
    y.b CalReg.BUSY = true ∧ y.b CalReg.RUNNING = false ∧ y.r CalReg.STEPS_DONE = 0 ∧
      (∃ st l, y.cal = x.cal.armed (x.jobField (x.r CalReg.JOB) 0 1) (x.r CalReg.JOB) st l) ∧
      ∀ g : Fld, (∀ e ∈ [CalReg.BUSY, CalReg.RUNNING, CalReg.STEPS_DONE], g.key ≠ e.key) → y.r g = x.r g := by
  unfold Head.calArm
  rw [if_neg (by rw [hb]; decide)]
  extract_lets +onlyGivenNames -merge -useContext -lift j
  rw [if_pos hj]
  extract_lets +onlyGivenNames -merge -useContext -lift z u
  refine ⟨?_, ?_, Head.r_w .., ⟨_, _, rfl⟩, fun g hg => ?_⟩
  · exact (Head.b_of (Head.keep_w (by decide) (Head.keep_put (by decide) rfl))).trans (Head.b_put u true rfl)
  · exact (Head.b_of (Head.keep_w (by decide) rfl)).trans (Head.b_put (u.put CalReg.BUSY true) false rfl)
  · exact Head.keep_w (hg _ (by simp)) (Head.keep_put (hg _ (by simp)) (Head.keep_put (hg _ (by simp)) rfl))

/-- ARM with no job running and a bad entry (R285). -/
theorem Head.calArm_bad {x : Head} (hb : x.b CalReg.BUSY = false) (hj : x.jobOk (x.r CalReg.JOB) = false) :
    x.calArm = (x.w CalReg.JSTATUS 7).flag CalReg.JOB_FAIL := by
  unfold Head.calArm
  rw [if_neg (by rw [hb]; decide)]
  exact if_neg (by rw [hj]; decide)

/-! ### The control word of the calibration block -/

set_option maxRecDepth 20000 in
/-- The word's one store is JOB; `rf` is the register file after it. -/
theorem Head.stored_calWord (x : Head) (V : Nat) : ∃ rf, x.stored 0x70000 V = { x with regs := rf } ∧
    Head.r { x with regs := rf } CalReg.JOB = V % 256 ∧
    ∀ g : Fld, g.key ≠ CalReg.JOB.key → Head.r { x with regs := rf } g = x.r g := by
  have heq : x.stored 0x70000 V = _ := Head.stored_eq (by decide)
  refine ⟨_, heq, ?_, fun g hg => ?_⟩
  · rw [← heq, Head.stored_rw (by decide) (by decide) rfl, Fld.bits_eq _ _ (by decide)]
    exact congrArg (· % 256) (Nat.div_one V)
  · rw [← heq]
    have hstores : ∀ f ∈ headStored 0x70000, f.acc = .rw ∨ f.acc = .w1c → f.key = CalReg.JOB.key := by decide
    exact Head.stored_ne (by decide) fun f hf hacc => by rwa [hstores f hf hacc]

theorem Head.writeAct_calWord (c : Ctx) (v : Nat) (x : Head) : x.writeAct c 0x70000 v =
    let x := if bitOf v 9 then x.calCancel c else x
    if bitOf v 8 then x.calArm else x := by
  unfold Head.writeAct
  simp

theorem Head.writeAct_arm (c : Ctx) {v : Nat} (x : Head) (h9 : bitOf v 9 = false) (h8 : bitOf v 8 = true) :
    x.writeAct c 0x70000 v = x.calArm := by
  rw [Head.writeAct_calWord, h9, h8]
  rfl

theorem Head.writeAct_cancel (c : Ctx) {v : Nat} (x : Head) (h9 : bitOf v 9 = true) (h8 : bitOf v 8 = false) :
    x.writeAct c 0x70000 v = x.calCancel c := by
  rw [Head.writeAct_calWord, h9, h8]
  rfl

/-- JOB is the low byte of the word, which a forced bit above it leaves. -/
theorem forced_job {f : Fld} (hf : 8 ≤ f.lsb) (hw : 0 < f.width) (v : Word) : forced f 1 v % 256 = v.toNat % 256 := by
  have h := bits_forced_of_apart (g := CalReg.JOB) hw (by decide) (.inl hf) 1 v
  rw [Fld.bits_eq _ _ (by decide), Fld.bits_eq _ _ (by decide)] at h
  simpa [CalReg.JOB] using h

set_option maxRecDepth 20000 in
/-- ARM of the control word alone. -/
theorem exec_arm {s : State} {q : Req} {h : Fin 32} {v : Word} (ok : s.accessOf q (.head h 0x70000) = .ok)
    (h9 : v.toNat.testBit 9 = false) : exec (.arm q h v) s =
      .next ((s.atHead q h 0x70000).setHead h ((s.head h).stored 0x70000 (forced CalReg.ARM 1 v)).calArm) := by
  have hrow : exec (.arm q h v) s = headRow q h CalReg.ARM 1 v s := rfl
  have hoff : CalReg.ARM.off = 0x70000 := rfl
  rw [← hoff] at ok ⊢
  rw [hrow, headRow_plain (State.turnTo_accessOf ok 3) (by decide) (by decide) (by decide) (by decide)]
  have hcancel : bitOf (forced CalReg.ARM 1 v) 9 = false :=
    ((forced_testBit CalReg.ARM 1 v (by decide) 9).trans (if_neg (by decide))).trans h9
  have harm : bitOf (forced CalReg.ARM 1 v) 8 = true := (forced_testBit CalReg.ARM 1 v (by decide) 8).trans (if_pos (by decide))
  rw [State.turnTo_head, hoff, Head.writeAct_arm _ _ hcancel harm]

set_option maxRecDepth 20000 in
/-- CANCEL of the control word alone. -/
theorem exec_cancel {s : State} {q : Req} {h : Fin 32} {v : Word} (ok : s.accessOf q (.head h 0x70000) = .ok)
    (h8 : v.toNat.testBit 8 = false) : exec (.cancel q h v) s =
      .next ((s.atHead q h 0x70000).setHead h
        (((s.head h).stored 0x70000 (forced CalReg.CANCEL 1 v)).calCancel ((s.turnTo 3).ctx h))) := by
  have hrow : exec (.cancel q h v) s = headRow q h CalReg.CANCEL 1 v s := rfl
  have hoff : CalReg.CANCEL.off = 0x70000 := rfl
  rw [← hoff] at ok ⊢
  rw [hrow, headRow_plain (State.turnTo_accessOf ok 3) (by decide) (by decide) (by decide) (by decide)]
  have hcancel : bitOf (forced CalReg.CANCEL 1 v) 9 = true :=
    (forced_testBit CalReg.CANCEL 1 v (by decide) 9).trans (if_pos (by decide))
  have harm : bitOf (forced CalReg.CANCEL 1 v) 8 = false :=
    ((forced_testBit CalReg.CANCEL 1 v (by decide) 8).trans (if_neg (by decide))).trans h8
  rw [State.turnTo_head, hoff, Head.writeAct_cancel _ _ hcancel harm]

/-- SPAN_START (R286). -/
theorem exec_spanStart {s : State} {wait : Nat} {h : Fin 32} (hr : ((s.pass wait).head h).inReset = false)
    (hrun : ((s.pass wait).head h).b CalReg.RUNNING = true) (hw : ((s.pass wait).head h).cal.window = true)
    (hs : ((s.pass wait).head h).cal.spanOn = false)
    (hd : ((s.pass wait).head h).calSpan ≤ (((s.pass wait).ctx h).now : Int)) :
    exec (.spanStart wait h) s = .next ((s.pass wait).setHead h
      { (s.pass wait).head h with cal := { ((s.pass wait).head h).cal with spanOn := true } }) := by
  show execSpanStart wait h s = _
  unfold execSpanStart
  rw [State.headAfter_due _ hr]
  simp only [hrun, hw, hs, hd, decide_true, Bool.not_false, Bool.and_self]

/-- Settles O39: ARM by whether a job runs and the entry is good; CANCEL by whether a job runs. -/
theorem calJobs : Obligations.CalJobs := by
  unfold Obligations.CalJobs
  constructor
  · intro s wait h u x hr hrun hw hs hd
    exact exec_spanStart hr hrun hw hs hd
  intro s q h v x j ok
  refine ⟨fun h9 => ⟨_, exec_arm ok h9, ?_⟩, fun h8 => ⟨_, exec_cancel ok h8, ?_⟩⟩
  · obtain ⟨rf, hz, hjob, hkeep⟩ := x.stored_calWord (forced CalReg.ARM 1 v)
    rw [forced_job (by decide) (by decide)] at hjob
    rw [show s.head h = x from rfl, hz]
    obtain ⟨z, hzdef⟩ : ∃ z : Head, z = { x with regs := rf } := ⟨_, rfl⟩
    have hcal : z.cal = x.cal := by rw [hzdef]
    have hfield (i k n : Nat) : z.jobField i k n = x.jobField i k n := by rw [hzdef]; rfl
    have hok (i : Nat) : z.jobOk i = x.jobOk i := by rw [hzdef]; rfl
    rw [← hzdef] at hjob hkeep ⊢
    have hbusy : z.b CalReg.BUSY = x.b CalReg.BUSY := Head.b_of (hkeep _ (by decide))
    cases hb : x.b CalReg.BUSY with
    | true =>
      rw [Head.calArm_busy (hbusy.trans hb)]
      exact ⟨hjob, fun _ => ⟨hcal, fun g _ hg => hkeep g (hg _ (by simp))⟩, nofun, nofun⟩
    | false =>
      cases hj : x.jobOk j with
      | true =>
        obtain ⟨hon, hrun, hsteps, ⟨st, l, harmed⟩, hrest⟩ :=
          Head.calArm_good (hbusy.trans hb) ((hok _).trans ((congrArg x.jobOk hjob).trans hj))
        refine ⟨(hrest _ (by decide)).trans hjob, nofun, fun _ _ => ⟨hon, hrun, hsteps, ?_, ?_, ?_, ?_, ?_, ?_, ?_⟩, nofun⟩
        · rw [harmed]
          exact hjob
        · rw [harmed]
          exact (hfield ..).trans (congrArg (x.jobField · 0 1) hjob)
        · rw [harmed]
          rfl
        · rw [harmed]
          rfl
        · rw [harmed]
          exact congrArg CalSt.jobMem (a₁ := z.cal) hcal
        · rw [harmed]
          exact congrArg CalSt.resultMem (a₁ := z.cal) hcal
        · intro g _ hg
          obtain ⟨hg0, hg⟩ := List.forall_mem_cons.1 hg
          exact (hrest g hg).trans (hkeep g hg0)
      | false =>
        rw [Head.calArm_bad (hbusy.trans hb) ((hok _).trans ((congrArg x.jobOk hjob).trans hj))]
        refine ⟨Head.keep_flag (by decide) (Head.keep_w (by decide) hjob), nofun, nofun, fun _ _ => ⟨?_, ?_, ?_, hcal, ?_⟩⟩
        · exact (Head.b_of (Head.keep_flag (by decide) (Head.keep_w (by decide) rfl))).trans (hbusy.trans hb)
        · exact Head.keep_flag (by decide) (Head.r_w ..)
        · exact Head.b_flag _ rfl
        · intro g _ hg
          exact Head.keep_flag (hg _ (by simp)) (Head.keep_w (hg _ (by simp)) (hkeep g (hg _ (by simp))))
  · obtain ⟨rf, hz, hjob, hkeep⟩ := x.stored_calWord (forced CalReg.CANCEL 1 v)
    rw [forced_job (by decide) (by decide)] at hjob
    rw [show s.head h = x from rfl, hz]
    obtain ⟨z, hzdef⟩ : ∃ z : Head, z = { x with regs := rf } := ⟨_, rfl⟩
    have hcal : z.cal = x.cal := by rw [hzdef]
    have hloop : z.jobLoop z.cal.job = x.jobLoop x.cal.job := by rw [hzdef]; rfl
    rw [← hzdef] at hjob hkeep ⊢
    have hbusy : z.b CalReg.BUSY = x.b CalReg.BUSY := Head.b_of (hkeep _ (by decide))
    cases hb : x.b CalReg.BUSY with
    | false =>
      rw [show z.calCancel ((s.turnTo 3).ctx h) = z from if_neg (by rw [hbusy, hb]; decide)]
      exact ⟨hjob, hbusy.trans hb, fun _ => ⟨hcal, fun g _ hg => hkeep g (hg _ (by simp))⟩, nofun⟩
    | true =>
      rw [show z.calCancel ((s.turnTo 3).ctx h) = z.calRestore.calEnd ((s.turnTo 3).ctx h) 1 [] from
        if_pos (hbusy.trans hb)]
      have hrestored {g : Fld} (hg : g.noRef = true) : z.calRestore.r g = z.r g := z.calRestore_r_noRef hg
      obtain ⟨hoff, hrun, hjst, hfail, hended, hinj, hrest⟩ :=
        Head.calEnd_leaves ((Head.b_of (hrestored (by decide))).trans (hbusy.trans hb)) ((s.turnTo 3).ctx h)
          (status := 1) (by decide) []
      refine ⟨(hrest _ (by decide)).trans ((hrestored (by decide)).trans hjob), hoff, nofun,
        fun _ => ⟨hrun, hjst, hfail, ?_, ?_, ?_, ?_, ?_⟩⟩
      · rw [hended]
        rfl
      · rw [hended]
        rfl
      · rw [Head.calRestore_cal, hcal] at hinj
        exact hinj
      · intro r hbase hn hfit
        have hzbase : z.cal.base = some r := (congrArg CalSt.base hcal).trans hbase
        have hback : z.calRestore.ri z.calRef = r := by
          rw [Head.calRestore_some hzbase (by rw [hloop]; exact hn)]
          exact Head.ri_wi_of_sat32 _ rfl hfit
        rw [← hloop] at hn ⊢
        exact (Head.ri_of (hrest _ (ref_apart hn))).trans hback
      · intro g _ hg
        obtain ⟨hfix, href⟩ := List.forall_mem_append.1 hg
        have hback : z.calRestore.r g = z.r g := by
          refine Head.calRestore_r fun r hr => ?_
          rw [hcal] at hr
          unfold Head.calRef
          rw [hloop]
          exact href _ (by rw [hr]; simp)
        refine (hrest g fun e he => hfix e ?_).trans (hback.trans (hkeep g (hfix _ (by simp))))
        revert he e
        decide

end Sys2Proof.Machine

end

section


namespace Sys2Proof.Machine

/-! ### Calibration windows -/

theorem Mem.readLE_lt (n : Nat) : ∀ (m : Mem) (a : Nat), m.readLE a n < 256 ^ n := by
  induction n with
  | zero => exact fun _ _ => Nat.one_pos
  | succ n ih =>
    intro m a
    have hrest := ih m (a + 1)
    have hbyte := (m.read8 a).isLt
    show (m.read8 a).toNat + 256 * m.readLE (a + 1) n < 256 ^ (n + 1)
    rw [pow_succ]
    omega

theorem Head.r_w_of_lt {x : Head} {f : Fld} {v : Nat} (h : v < 2 ^ f.width) : (x.w f v).r f = v :=
  (Head.r_w ..).trans (Nat.mod_eq_of_lt h)

/-- Where the state and the link are those that the job's kind allows, the check only notes that it saw them (R287). -/
theorem Head.calCheck_ok {x : Head} (hs : x.calStateOk = true) (hl : x.calLinkOk = true) (c : Ctx) :
    ∃ st l, x.calCheck c = { x with cal := { x.cal with stateSeen := st, linkSeen := l } } := by
  by_cases hb : x.b CalReg.BUSY = true
  · refine ⟨x.cal.stateSeen || x.calStateOk, x.cal.linkSeen || x.calLinkOk, (if_pos hb).trans (if_neg ?_)⟩
    have hs' : Head.calStateOk { x with cal := { x.cal with
      stateSeen := x.cal.stateSeen || x.calStateOk, linkSeen := x.cal.linkSeen || x.calLinkOk } } = true := hs
    have hl' : Head.calLinkOk { x with cal := { x.cal with
      stateSeen := x.cal.stateSeen || x.calStateOk, linkSeen := x.cal.linkSeen || x.calLinkOk } } = true := hl
    rw [hs', hl']
    simp
  · exact ⟨x.cal.stateSeen, x.cal.linkSeen, if_neg hb⟩

/-- What a window's job may be measured in follows from the kind, the Landing's state and the link's. -/
theorem Head.calStateOk_of {x y : Head} (hk : y.cal.kind = x.cal.kind) (hh : y.r LandReg.HSTATE = x.r LandReg.HSTATE)
    (hr : y.r RiserReg.STATE = x.r RiserReg.STATE) : y.calStateOk = x.calStateOk := by
  unfold Head.calStateOk Head.up
  rw [hk, hh, hr]

theorem Head.calLinkOk_of {x y : Head} (hh : y.r LandReg.HSTATE = x.r LandReg.HSTATE)
    (hr : y.r RiserReg.STATE = x.r RiserReg.STATE) : y.calLinkOk = x.calLinkOk := by
  unfold Head.calLinkOk Head.up
  rw [hh, hr]

/-- The head with a window of its job open at `te`, before what the job's kind adds (R286). -/
def Head.calOpened (te : Int) (x : Head) : Head :=
  let first := !x.b CalReg.RUNNING
  let x : Head := x.put CalReg.RUNNING true
  let x : Head := { x with cal := { x.cal with window := true, openTe := te, closeTe := none, spanOn := false } }
  if first then { x with cal := { x.cal with tOpen := (te / 16).toNat, tempOpen := x.r CalReg.TEMP } } else x

theorem Head.calOpened_eq (te : Int) (x : Head) : ∃ t p, x.calOpened te = { x.put CalReg.RUNNING true with
    cal := { x.cal with window := true, openTe := te, closeTe := none, spanOn := false, tOpen := t, tempOpen := p } } := by
  unfold Head.calOpened
  extract_lets +onlyGivenNames -merge -useContext -lift first y k z
  cases first
  · exact ⟨x.cal.tOpen, x.cal.tempOpen, rfl⟩
  · exact ⟨_, _, rfl⟩

/-- What the window of a LOOP_GAIN job sets (R291). -/
def Head.calInject (j : Nat) (x : Head) : Head :=
  let x : Head := (x.w CalReg.INJ_F (x.jobField j 0x14 4)).w CalReg.INJ_AMP (x.jobField j 0x18 4)
  let x : Head := ((x.w LoopReg.INJ_LOOP (x.jobLoop j)).w LoopReg.INJ_POINT 0).put LoopReg.INJ_EN true
  { x with cal := { x.cal with injSet := true } }

theorem Head.calWindow_gain {x : Head} (hk : x.cal.kind = 3) (c : Ctx) (te : Int) :
    x.calWindow c te = ((x.calOpened te).calInject x.cal.job).calCheck c := by
  obtain ⟨t, p, hopen⟩ := x.calOpened_eq te
  have hkind : (x.calOpened te).cal.kind = 3 := by rw [hopen]; exact hk
  unfold Head.calWindow
  extract_lets +onlyGivenNames -merge -useContext -lift j first y k u w z
  have hz : z = x.calOpened te := rfl
  clear_value z
  rw [← hz] at hkind ⊢
  rw [hkind]
  rfl

/-- What the window of a REF_SWEEP does, with the base reference `b` saved (R290). -/
def Head.calSweep (j : Nat) (b : Int) (x : Head) : Head :=
  let v := refSum (b + x.jobStart j + (x.r CalReg.STEPS_DONE : Int) * x.jobStep j)
  let n := x.jobLoop j
  let x : Head := x.loopRef n v
  { x with cal := { x.cal with
    steps := x.cal.steps ++ [{ CalStep.reset with ref := x.ri (LoopReg.LOOP_REF n), lo := x.calSpan }] } }

theorem Head.calWindow_sweep {x : Head} (hk : x.cal.kind = 2) {b : Int} (hb : x.cal.base = some b) (c : Ctx) (te : Int) :
    x.calWindow c te = ((x.calOpened te).calSweep x.cal.job b).calCheck c := by
  obtain ⟨t, p, hopen⟩ := x.calOpened_eq te
  have hkind : (x.calOpened te).cal.kind = 2 := by rw [hopen]; exact hk
  have hbase : (x.calOpened te).cal.base = some b := by rw [hopen]; exact hb
  unfold Head.calWindow
  extract_lets +onlyGivenNames -merge -useContext -lift j first y k u w z
  have hz : z = x.calOpened te := rfl
  clear_value z
  have hj : j = x.cal.job := rfl
  clear_value j
  rw [← hz] at hkind hbase ⊢
  rw [hkind, ← hj]
  simp only [hbase, Option.isSome_some, if_true, Option.getD_some]
  unfold Head.calSweep
  rfl

/-- The injection that a window of a LOOP_GAIN job sets (R291). -/
theorem Head.calInject_leaves (x : Head) (j : Nat) : let y := x.calInject j
    y.b LoopReg.INJ_EN = true ∧ y.r LoopReg.INJ_LOOP = x.jobLoop j % 32 ∧ y.r LoopReg.INJ_POINT = 0 ∧
      y.r CalReg.INJ_F = x.jobField j 0x14 4 ∧ y.r CalReg.INJ_AMP = x.jobField j 0x18 4 ∧
      ∀ g : Fld, (∀ e ∈ [LoopReg.INJ_EN, LoopReg.INJ_LOOP, LoopReg.INJ_POINT, CalReg.INJ_F, CalReg.INJ_AMP], g.key ≠ e.key) →
        y.r g = x.r g := by
  have hword (k : Nat) : x.jobField j k 4 < 2 ^ 32 := Mem.readLE_lt 4 _ _
  unfold Head.calInject
  extract_lets +onlyGivenNames -merge -useContext -lift y z
  have hf : y.r CalReg.INJ_F = x.jobField j 0x14 4 := Head.keep_w (by decide) (Head.r_w_of_lt (hword _))
  have ha : y.r CalReg.INJ_AMP = x.jobField j 0x18 4 := Head.r_w_of_lt (hword _)
  have hy {g : Fld} (hf : g.key ≠ CalReg.INJ_F.key) (ha : g.key ≠ CalReg.INJ_AMP.key) : y.r g = x.r g :=
    Head.keep_w ha (Head.keep_w hf rfl)
  have hz {g : Fld} (he : g.key ≠ LoopReg.INJ_EN.key) (hl : g.key ≠ LoopReg.INJ_LOOP.key)
      (hp : g.key ≠ LoopReg.INJ_POINT.key) : z.r g = y.r g := Head.keep_put he (Head.keep_w hp (Head.keep_w hl rfl))
  have hloop : z.r LoopReg.INJ_LOOP = x.jobLoop j % 32 :=
    Head.keep_put (by decide) (Head.keep_w (by decide) (Head.r_w ..))
  have hpt : z.r LoopReg.INJ_POINT = 0 := Head.keep_put (by decide) (Head.r_w ..)
  have hen : z.b LoopReg.INJ_EN = true :=
    Head.b_put ((y.w LoopReg.INJ_LOOP (y.jobLoop j)).w LoopReg.INJ_POINT 0) true rfl
  have hf' := (hz (by decide) (by decide) (by decide)).trans hf
  have ha' := (hz (by decide) (by decide) (by decide)).trans ha
  have hrest (g : Fld) (hg : ∀ e ∈ [LoopReg.INJ_EN, LoopReg.INJ_LOOP, LoopReg.INJ_POINT, CalReg.INJ_F, CalReg.INJ_AMP],
      g.key ≠ e.key) : z.r g = x.r g := (hz (hg _ (by simp)) (hg _ (by simp)) (hg _ (by simp))).trans (hy (hg _ (by simp)) (hg _ (by simp)))
  clear_value z y
  exact ⟨hen, hloop, hpt, hf', ha', hrest⟩

/-- An event of a window that serves no armed job is counted (R286). -/
theorem Head.winIgnored_leaves (x : Head) : let y := x.bump CalReg.WIN_IGNORED 1
    y.cal = x.cal ∧ y.r CalReg.WIN_IGNORED = min 65535 (x.r CalReg.WIN_IGNORED + 1) ∧
      x.KeepsFields y [CalReg.WIN_IGNORED] :=
  ⟨rfl, Head.r_bump_sat .., fun _ _ hg => Head.keep_bump (hg _ (by simp)) rfl⟩

theorem Head.calOpen_ignored {x : Head} {arg : Nat}
    (hno : x.b CalReg.BUSY = false ∨ x.cal.window = true ∨ x.cal.closeTe ≠ none ∨ arg ≠ x.cal.job) (c : Ctx) (te : Int) :
    x.calOpen c arg te = x.bump CalReg.WIN_IGNORED 1 := by
  refine if_neg ?_
  simp only [Bool.and_eq_true, Bool.not_eq_true', beq_iff_eq, Option.isNone_iff_eq_none]
  rintro ⟨⟨⟨hb, hw⟩, hc⟩, ha⟩
  rcases hno with h | h | h | h
  · exact absurd (h.symm.trans hb) (by decide)
  · exact absurd (h.symm.trans hw) (by decide)
  · exact h hc
  · exact h ha

theorem Head.calOpen_serves {x : Head} {arg : Nat} (hb : x.b CalReg.BUSY = true) (hw : x.cal.window = false)
    (ha : arg = x.cal.job) (hc : x.cal.closeTe = none) (c : Ctx) (te : Int) :
    x.calOpen c arg te = x.calWindow c te := if_pos (by rw [hb, hw, hc, ha]; simp)

theorem Head.calClose_ignored {x : Head} {arg : Nat}
    (hno : x.b CalReg.BUSY = false ∨ x.cal.window = false ∨ arg ≠ x.cal.job) (c : Ctx) (te : Int) :
    x.calClose c arg te = x.bump CalReg.WIN_IGNORED 1 := by
  refine if_neg ?_
  simp only [Bool.and_eq_true, beq_iff_eq]
  rintro ⟨⟨hb, hw⟩, ha⟩
  rcases hno with h | h | h
  · exact absurd (h.symm.trans hb) (by decide)
  · exact absurd (h.symm.trans hw) (by decide)
  · exact h ha

/-- The head with its job's window closed at `te` and the step counted (R286). -/
def Head.calClosed (te : Int) (x : Head) : Head :=
  { x.w CalReg.STEPS_DONE (x.r CalReg.STEPS_DONE + 1) with cal := { x.cal with
    window := false, spanOn := false
    steps := x.cal.steps.modify (x.cal.steps.length - 1) fun s => { s with hi := some te } } }

theorem Head.calClose_serves {x : Head} {arg : Nat} (hb : x.b CalReg.BUSY = true) (hw : x.cal.window = true)
    (ha : arg = x.cal.job) (c : Ctx) (te : Int) : x.calClose c arg te =
      if x.cal.kind = 2 ∧ (x.calClosed te).r CalReg.STEPS_DONE < x.jobSteps x.cal.job then x.calClosed te
      else (x.calClosed te).calLast c te := if_pos (by rw [hb, hw, ha]; simp)

theorem Head.calClosed_steps (x : Head) (te : Int) :
    (x.calClosed te).r CalReg.STEPS_DONE = (x.r CalReg.STEPS_DONE + 1) % 256 := Head.r_w ..

theorem Head.calClosed_r (x : Head) (te : Int) {g : Fld} (hg : g.key ≠ CalReg.STEPS_DONE.key) :
    (x.calClosed te).r g = x.r g := Head.keep_w hg rfl

/-- The head with the injection off where it was set, the saved reference forgotten and the last close at `te` noted. -/
def Head.calAwaits (te : Int) (x : Head) : Head :=
  let x : Head := if x.cal.injSet then x.put LoopReg.INJ_EN false else x
  { x with cal := { x.cal with base := none, injSet := false, closeTe := some te } }

theorem Head.calLast_eq (x : Head) (c : Ctx) (te : Int) : x.calLast c te = (x.calRestore.calAwaits te).calSettle c := rfl

theorem Head.calAwaits_cal (x : Head) (te : Int) :
    (x.calAwaits te).cal = { x.cal with base := none, injSet := false, closeTe := some te } := by
  unfold Head.calAwaits
  extract_lets +onlyGivenNames -merge -useContext -lift y
  have hy : y.cal = x.cal := by
    unfold y
    split <;> rfl
  rw [hy]

theorem Head.calAwaits_r (x : Head) (te : Int) {g : Fld} (hg : g.key ≠ LoopReg.INJ_EN.key) :
    (x.calAwaits te).r g = x.r g := Head.keep_ite (Head.keep_put hg rfl) rfl

/-- A loop whose injection the window did not set keeps it at the end of the job. -/
theorem Head.calEnd_keeps_injection {x : Head} (hi : x.cal.injSet = false) (c : Ctx) (status : Nat)
    (fit : List (Nat × Nat × Nat)) : (x.calEnd c status fit).r LoopReg.INJ_EN = x.r LoopReg.INJ_EN := by
  have hflag : LoopReg.INJ_EN.key ≠ (calEndFlag status).key := by
    unfold calEndFlag
    split <;> decide
  unfold Head.calEnd
  refine Head.keep_ite (Head.keep_flag hflag (Head.keep_w (by decide) (Head.keep_put (by decide)
    (Head.keep_put (by decide) ?_)))) rfl
  rw [hi]
  rfl

theorem Mem.readLE_congr (n : Nat) : ∀ {m m' : Mem} {a : Nat}, (∀ b, a ≤ b → b < a + n → m.read8 b = m'.read8 b) →
    m.readLE a n = m'.readLE a n := by
  induction n with
  | zero => exact fun _ => rfl
  | succ n ih =>
    intro m m' a h
    rw [Mem.readLE, Mem.readLE, h a (le_refl a) (by omega), ih fun b h1 h2 => h b (by omega) (by omega)]

/-- The fitted fields of a result stand above its head, which they leave (R292). -/
theorem Mem.read8_fit {fit : List (Nat × Nat × Nat)} (hfit : ∀ e ∈ fit, 8 ≤ e.1) (m : Mem) {b : Nat} (hb : b < 8) :
    (fit.foldl (fun m e => m.writeLE e.1 e.2.1 e.2.2) m).read8 b = m.read8 b := by
  induction fit generalizing m with
  | nil => rfl
  | cons e l ih =>
    obtain ⟨he, hl⟩ := List.forall_mem_cons.1 hfit
    exact (ih hl _).trans (Mem.read8_writeLE_ne _ _ _ _ _ (by omega))

/-- The head of a result record (R292): its job, its status and its count. -/
theorem Head.calRecord_leaves {x : Head} (hk : x.cal.kind = 3) (c : Ctx) {status : Nat} (hs : status < 256)
    {fit : List (Nat × Nat × Nat)} (hfit : ∀ e ∈ fit, 8 ≤ e.1) :
    let m := fit.foldl (fun m e => m.writeLE e.1 e.2.1 e.2.2) (x.calRecord c status)
    m.readLE 0 2 = x.cal.job % 65536 ∧ (m.read8 3).toNat = status ∧ m.readLE 4 4 = x.cal.n % 2 ^ 32 := by
  have hbelow {b : Nat} (hb : b < 8) : (fit.foldl (fun m e => m.writeLE e.1 e.2.1 e.2.2) (x.calRecord c status)).read8 b =
      ((((Mem.empty.writeLE 0 2 x.cal.job).writeLE 2 1 x.cal.kind).writeLE 3 1 status).writeLE 4 4 x.cal.n).read8 b := by
    rw [Mem.read8_fit hfit _ hb]
    unfold Head.calRecord
    extract_lets +onlyGivenNames -merge -useContext -lift k m₀ m₁ m₂ m₃ m₄ m₅ m₆ m₇ m₈
    rw [if_neg (show ¬ k.kind = 1 by rw [hk]; decide), if_neg (show ¬ k.kind = 2 by rw [hk]; decide)]
    rw [Mem.read8_writeLE_ne _ _ _ _ _ (by omega), Mem.read8_writeLE_ne _ _ _ _ _ (by omega),
      Mem.read8_writeLE_ne _ _ _ _ _ (by omega), Mem.read8_writeLE_ne _ _ _ _ _ (by omega)]
  refine ⟨?_, ?_, ?_⟩
  · rw [Mem.readLE_congr 2 fun b _ hb => (hbelow (by omega)).trans ((Mem.read8_writeLE_ne _ _ _ _ _ (by omega)).trans
      ((Mem.read8_writeLE_ne _ _ _ _ _ (by omega)).trans (Mem.read8_writeLE_ne _ _ _ _ _ (by omega)))), Mem.readLE_writeLE,
      show (256 : Nat) ^ 2 = 65536 from rfl]
  · rw [hbelow (by decide), Mem.read8_writeLE_ne _ _ _ _ _ (by omega)]
    rw [Mem.writeLE, Mem.writeLE, Mem.read8_put8_self, BitVec.toNat_ofNat]
    exact Nat.mod_eq_of_lt hs
  · rw [Mem.readLE_congr 4 fun b _ hb => hbelow (by omega), Mem.readLE_writeLE, show (256 : Nat) ^ 4 = 2 ^ 32 from rfl]

/-- How a LOOP_GAIN job that has gathered everything ends (R287). -/
theorem Head.calFinish_gain {x : Head} (hk : x.cal.kind = 3) (c : Ctx) : ∃ status fit, x.calFinish c = x.calEnd c status fit ∧
    (∀ e ∈ fit, 8 ≤ e.1) ∧ (x.cal.n = 0 → status = 6) ∧ (x.cal.n ≠ 0 → status = 0) := by
  unfold Head.calFinish
  extract_lets +onlyGivenNames -merge -useContext -lift j k
  by_cases hn : x.cal.n = 0
  · exact ⟨6, [], if_pos hn, nofun, fun _ => rfl, fun h => absurd hn h⟩
  · refine ⟨0, gainFit (x.r CalReg.INJ_F) k.evals, ?_, ?_, fun h => absurd h hn, fun _ => rfl⟩
    · rw [if_neg hn, if_neg (by rw [hk]; decide), if_neg (by rw [hk]; decide)]
    · unfold gainFit
      extract_lets +onlyGivenNames -merge -useContext -lift ph sum xc xs yc ys re im nx ny n sq resid
      have hresid : 8 ≤ resid.1 := show 8 ≤ 0x26 by decide
      split <;> simp [hresid]

/-- The last close of a LOOP_GAIN job whose evaluations have all been made ends the job (R291). -/
theorem Head.calSettle_gain {x : Head} (hk : x.cal.kind = 3) {te : Int} (hc : x.cal.closeTe = some te) (c : Ctx) :
    x.calSettle c = if x.gainOwed te = true then x else x.calFinish c := by
  have hstreams : x.calStreams te = [] := by
    unfold Head.calStreams
    rw [hk]
    rfl
  unfold Head.calSettle
  rw [hc]
  dsimp only
  rw [hstreams]
  cases x.gainOwed te <;> rfl

/-- The check of a job whose state and link are as its kind allows leaves the registers, and of the calibration block all
but what it has seen. -/
theorem Head.calCheck_ok_leaves {x : Head} (hs : x.calStateOk = true) (hl : x.calLinkOk = true) (c : Ctx) :
    let y := x.calCheck c
    (∀ g, y.r g = x.r g) ∧ y.loops = x.loops ∧ y.cal.window = x.cal.window ∧ y.cal.openTe = x.cal.openTe ∧
      y.cal.steps = x.cal.steps ∧ y.cal.base = x.cal.base := by
  obtain ⟨st, l, hcheck⟩ := Head.calCheck_ok hs hl c
  rw [hcheck]
  exact ⟨fun _ => rfl, rfl, rfl, rfl, rfl, rfl⟩

/-- What an opened window leaves of its job, and the window (R286). -/
theorem Head.calOpened_leaves (x : Head) (te : Int) : let y := x.calOpened te
    y.b CalReg.RUNNING = true ∧ (∀ g : Fld, g.key ≠ CalReg.RUNNING.key → y.r g = x.r g) ∧ y.cal.window = true ∧
      y.cal.openTe = te ∧ y.cal.kind = x.cal.kind ∧ y.cal.job = x.cal.job ∧ y.cal.jobMem = x.cal.jobMem ∧
      y.cal.steps = x.cal.steps ∧ y.cal.base = x.cal.base ∧ y.loops = x.loops := by
  obtain ⟨t, p, hopen⟩ := x.calOpened_eq te
  rw [hopen]
  exact ⟨Head.b_put x true rfl, fun g hg => Head.keep_put hg rfl, rfl, rfl, rfl, rfl, rfl, rfl, rfl, rfl⟩

theorem Head.jobField_of {x y : Head} (h : y.cal.jobMem = x.cal.jobMem) (j k n : Nat) :
    y.jobField j k n = x.jobField j k n := congrArg (Mem.readLE · (32 * j + k) n) h

theorem Head.jobInt_of {x y : Head} (h : y.cal.jobMem = x.cal.jobMem) (j k : Nat) : y.jobInt j k = x.jobInt j k :=
  congrArg (Mem.readS · (32 * j + k) 4) h

theorem Head.calInject_cal (x : Head) (j : Nat) : (x.calInject j).cal = { x.cal with injSet := true } := rfl

theorem Head.calInject_loops (x : Head) (j : Nat) : (x.calInject j).loops = x.loops := rfl

/-- The window of a LOOP_GAIN job sets the injection (R286, R291). -/
theorem Head.calWindow_gain_leaves {x : Head} (hk : x.cal.kind = 3) (hs : x.calStateOk = true) (hl : x.calLinkOk = true)
    (c : Ctx) (te : Int) : let y := x.calWindow c te; let j := x.cal.job
    (y.cal.window = true ∧ y.cal.openTe = te ∧ y.loops = x.loops) ∧ y.b CalReg.RUNNING = true ∧
      y.b LoopReg.INJ_EN = true ∧ y.r LoopReg.INJ_LOOP = x.jobLoop j % 32 ∧ y.r LoopReg.INJ_POINT = 0 ∧
      y.r CalReg.INJ_F = x.jobField j 0x14 4 ∧ y.r CalReg.INJ_AMP = x.jobField j 0x18 4 ∧
      ∀ g : Fld, (∀ e ∈ [CalReg.RUNNING, LoopReg.INJ_EN, LoopReg.INJ_LOOP, LoopReg.INJ_POINT, CalReg.INJ_F, CalReg.INJ_AMP],
        g.key ≠ e.key) → y.r g = x.r g := by
  rw [Head.calWindow_gain hk]
  obtain ⟨hrun, hkeep, hwin, hte, hkind, -, hmem, -, -, hloops⟩ := x.calOpened_leaves te
  generalize x.calOpened te = z at *
  obtain ⟨hinj, hloop, hpoint, hfreq, hamp, hrest⟩ := z.calInject_leaves x.cal.job
  have hcal := z.calInject_cal x.cal.job
  have hloops' := z.calInject_loops x.cal.job
  generalize z.calInject x.cal.job = w at *
  have hkept (e : Fld) (he : ∀ d ∈ [CalReg.RUNNING, LoopReg.INJ_EN, LoopReg.INJ_LOOP, LoopReg.INJ_POINT, CalReg.INJ_F,
      CalReg.INJ_AMP], e.key ≠ d.key) : w.r e = x.r e :=
    (hrest e (List.forall_mem_cons.1 he).2).trans (hkeep e (List.forall_mem_cons.1 he).1)
  have hkind' : w.cal.kind = x.cal.kind := by rw [hcal, ← hkind]
  have hstate := Head.calStateOk_of hkind' (hkept LandReg.HSTATE (by decide)) (hkept RiserReg.STATE (by decide))
  have hlink := Head.calLinkOk_of (hkept LandReg.HSTATE (by decide)) (hkept RiserReg.STATE (by decide))
  obtain ⟨hr, hl, hw, ht, -, -⟩ := Head.calCheck_ok_leaves (hstate.trans hs) (hlink.trans hl) c
  generalize w.calCheck c = y at *
  refine ⟨⟨?_, ?_, hl.trans (hloops'.trans hloops)⟩, ?_, (Head.b_of (hr _)).trans hinj, (hr _).trans (hloop.trans ?_),
    (hr _).trans hpoint, (hr _).trans (hfreq.trans ?_), (hr _).trans (hamp.trans ?_), fun g hg => (hr g).trans (hkept g hg)⟩
  · rw [hw, hcal, hwin]
  · rw [ht, hcal, hte]
  · exact (Head.b_of ((hr _).trans (hrest _ (by decide)))).trans hrun
  · unfold Head.jobLoop
    rw [Head.jobField_of hmem]
  · exact Head.jobField_of hmem ..
  · exact Head.jobField_of hmem ..

/-- What the window of a REF_SWEEP does where its reference is a number of 32 bits. -/
theorem Head.calSweep_eq {x : Head} {j : Nat} {b ref : Int} (href : b + x.jobStart j + (x.r CalReg.STEPS_DONE : Int) * x.jobStep j = ref)
    (hfit : sat32 ref = ref) (hn : x.jobLoop j < 24) : x.calSweep j b = { x.wi (LoopReg.LOOP_REF (x.jobLoop j)) ref with
      cal := { x.cal with steps := x.cal.steps ++ [{ ref := ref, sum := 0, n := 0, lo := x.calSpan, hi := none }] } } := by
  have hsum : refSum (b + x.jobStart j + (x.r CalReg.STEPS_DONE : Int) * x.jobStep j) = ref := by
    rw [href]
    exact if_pos hfit
  have hset : x.loopRef (x.jobLoop j) ref = x.wi (LoopReg.LOOP_REF (x.jobLoop j)) ref := if_pos hn
  unfold Head.calSweep
  rw [hsum]
  dsimp only
  rw [hset, Head.ri_wi_of_sat32 x rfl hfit]
  rfl

/-- The window of a REF_SWEEP writes the reference of its step (R286, R290). -/
theorem Head.calWindow_sweep_leaves {x : Head} (hk : x.cal.kind = 2) {b ref : Int} (hb : x.cal.base = some b)
    (hn : x.jobLoop x.cal.job < 24)
    (href : b + x.jobStart x.cal.job + (x.r CalReg.STEPS_DONE : Int) * x.jobStep x.cal.job = ref) (hfit : sat32 ref = ref)
    (hs : x.calStateOk = true) (hl : x.calLinkOk = true) (c : Ctx) (te : Int) : let y := x.calWindow c te
    y.cal.window = true ∧ y.cal.openTe = te ∧ y.ri (LoopReg.LOOP_REF (x.jobLoop x.cal.job)) = ref ∧
      y.cal.steps = x.cal.steps ++
        [{ ref := ref, sum := 0, n := 0, lo := te + 16 * (x.jobSettle x.cal.job : Int), hi := none }] ∧
      y.cal.base = some b ∧
      ∀ g : Fld, (∀ e ∈ [CalReg.RUNNING, LoopReg.LOOP_REF (x.jobLoop x.cal.job)], g.key ≠ e.key) → y.r g = x.r g := by
  rw [Head.calWindow_sweep hk hb]
  obtain ⟨-, hkeep, hwin, hte, hkind, hjob, hmem, hsteps, hbase, -⟩ := x.calOpened_leaves te
  generalize x.calOpened te = z at *
  have hloop : z.jobLoop x.cal.job = x.jobLoop x.cal.job := Head.jobField_of hmem ..
  have hspan : z.calSpan = te + 16 * (x.jobSettle x.cal.job : Int) := by
    unfold Head.calSpan Head.jobSettle
    rw [hte, hjob, Head.jobField_of hmem]
  have hsweep : z.calSweep x.cal.job b = _ := Head.calSweep_eq (ref := ref) (by
    rw [show z.jobStart x.cal.job = x.jobStart x.cal.job from Head.jobInt_of hmem ..,
      show z.jobStep x.cal.job = x.jobStep x.cal.job from Head.jobInt_of hmem .., hkeep _ (by decide), href]) hfit
    (by rw [hloop]; exact hn)
  rw [hloop, hspan, hsteps] at hsweep
  have hval : (z.calSweep x.cal.job b).ri (LoopReg.LOOP_REF (x.jobLoop x.cal.job)) = ref := by
    rw [hsweep]
    exact Head.ri_wi_of_sat32 z rfl hfit
  have hkept {e : Fld} (hrun : e.key ≠ CalReg.RUNNING.key) (hr : e.key ≠ (LoopReg.LOOP_REF (x.jobLoop x.cal.job)).key) :
      (z.calSweep x.cal.job b).r e = x.r e := by
    rw [hsweep]
    exact Head.keep_wi hr (hkeep e hrun)
  have hfar {e : Fld} (he : e.noRef = true) : e.key ≠ (LoopReg.LOOP_REF (x.jobLoop x.cal.job)).key :=
    Fld.key_ne_of_noRef he hn
  have hcal : (z.calSweep x.cal.job b).cal = { z.cal with steps := x.cal.steps ++
      [{ ref := ref, sum := 0, n := 0, lo := te + 16 * (x.jobSettle x.cal.job : Int), hi := none }] } := by rw [hsweep]
  generalize z.calSweep x.cal.job b = w at *
  have hkind' : w.cal.kind = x.cal.kind := by rw [hcal, ← hkind]
  have hstate := Head.calStateOk_of hkind' (hkept (e := LandReg.HSTATE) (by decide) (hfar (by decide)))
    (hkept (e := RiserReg.STATE) (by decide) (hfar (by decide)))
  have hlink := Head.calLinkOk_of (hkept (e := LandReg.HSTATE) (by decide) (hfar (by decide)))
    (hkept (e := RiserReg.STATE) (by decide) (hfar (by decide)))
  obtain ⟨hr, -, hw, ht, hst, hba⟩ := Head.calCheck_ok_leaves (hstate.trans hs) (hlink.trans hl) c
  generalize w.calCheck c = y at *
  refine ⟨?_, ?_, (Head.ri_of (hr _)).trans hval, ?_, ?_, fun g hg => (hr g).trans (hkept (hg _ (by simp)) (hg _ (by simp)))⟩
  · rw [hw, hcal, hwin]
  · rw [ht, hcal, hte]
  · rw [hst, hcal]
  · rw [hba, hcal, hbase, hb]

/-- The last close of a LOOP_GAIN job (R291). -/
theorem Head.calLast_gain_leaves {x : Head} (hb : x.b CalReg.BUSY = true) (hk : x.cal.kind = 3) (hbase : x.cal.base = none)
    (hinj : x.cal.injSet = true) (c : Ctx) (te : Int) : let y := (x.calClosed te).calLast c te
    let done := (x.r CalReg.STEPS_DONE + 1) % 256
    y.b LoopReg.INJ_EN = false ∧ y.r CalReg.STEPS_DONE = done ∧ y.cal.window = false ∧
      (x.gainOwed te = true → y.cal = { x.cal with
          window := false, spanOn := false, injSet := false, closeTe := some te
          steps := x.cal.steps.modify (x.cal.steps.length - 1) fun e => { e with hi := some te } } ∧
        ∀ g : Fld, (∀ e ∈ [LoopReg.INJ_EN, CalReg.STEPS_DONE], g.key ≠ e.key) → y.r g = x.r g) ∧
      (x.gainOwed te = false → y.b CalReg.BUSY = false ∧ y.b CalReg.RUNNING = false ∧ y.cal.closeTe = none ∧
        (x.cal.n = 0 → y.r CalReg.JSTATUS = 6 ∧ y.b CalReg.JOB_FAIL = true) ∧
        (x.cal.n ≠ 0 → y.r CalReg.JSTATUS = 0 ∧ y.b CalReg.JOB_DONE = true) ∧
        y.cal.resultMem.readLE 0 2 = x.cal.job % 65536 ∧ (y.cal.resultMem.read8 3).toNat = y.r CalReg.JSTATUS ∧
        y.cal.resultMem.readLE 4 4 = x.cal.n % 2 ^ 32 ∧
        ∀ g : Fld, (∀ e ∈ CalReg.STEPS_DONE :: calEndFields, g.key ≠ e.key) → y.r g = x.r g) := by
  rw [Head.calLast_eq, Head.calRestore_none (x := x.calClosed te) hbase]
  have hz : (x.calClosed te).calAwaits te = { (x.calClosed te).put LoopReg.INJ_EN false with
      cal := { (x.calClosed te).cal with base := none, injSet := false, closeTe := some te } } := by
    unfold Head.calAwaits
    rw [show (x.calClosed te).cal.injSet = true from hinj]
    rfl
  have howed : ((x.calClosed te).calAwaits te).gainOwed te = x.gainOwed te := by rw [hz]; rfl
  have hcal : ((x.calClosed te).calAwaits te).cal = { x.cal with
      window := false, spanOn := false, injSet := false, closeTe := some te
      steps := x.cal.steps.modify (x.cal.steps.length - 1) fun e => { e with hi := some te } } := by
    rw [Head.calAwaits_cal, ← hbase]
    rfl
  have hoff : ((x.calClosed te).calAwaits te).b LoopReg.INJ_EN = false := by
    rw [hz]
    exact Head.b_put (x.calClosed te) false rfl
  have hrest {g : Fld} (hg : g.key ≠ LoopReg.INJ_EN.key) : ((x.calClosed te).calAwaits te).r g = (x.calClosed te).r g :=
    (x.calClosed te).calAwaits_r te hg
  have hdone := (hrest (g := CalReg.STEPS_DONE) (by decide)).trans (x.calClosed_steps te)
  have hkept {g : Fld} (hi : g.key ≠ LoopReg.INJ_EN.key) (hs : g.key ≠ CalReg.STEPS_DONE.key) :
      ((x.calClosed te).calAwaits te).r g = x.r g := (hrest hi).trans (x.calClosed_r te hs)
  clear hz hrest
  generalize (x.calClosed te).calAwaits te = z at *
  have hbusy : z.b CalReg.BUSY = true := (Head.b_of (hkept (by decide) (by decide))).trans hb
  have hkind : z.cal.kind = 3 := by rw [hcal]; exact hk
  rw [Head.calSettle_gain hkind (by rw [hcal]), howed]
  cases hto : x.gainOwed te with
  | true =>
    rw [if_pos rfl]
    exact ⟨hoff, hdone, by rw [hcal], fun _ => ⟨hcal, fun g hg => hkept (hg _ (by simp)) (hg _ (by simp))⟩, nofun⟩
  | false =>
    rw [if_neg (by decide)]
    obtain ⟨status, fit, hfin, hfit, hnone, hsome⟩ := Head.calFinish_gain hkind c
    rw [hfin]
    have hn : z.cal.n = x.cal.n := by rw [hcal]
    have hjob : z.cal.job = x.cal.job := by rw [hcal]
    rw [hn] at hnone hsome
    have hs : status < 16 := by
      by_cases h0 : x.cal.n = 0
      · rw [hnone h0]
        decide
      · rw [hsome h0]
        decide
    obtain ⟨hfree, hrun, hstatus, hflag, hended, -, hleft⟩ := Head.calEnd_leaves hbusy c hs fit
    obtain ⟨rjob, rstatus, rn⟩ := Head.calRecord_leaves hkind c (status := status) (by omega) hfit
    have hflags : ∀ e ∈ [LoopReg.INJ_EN, CalReg.BUSY, CalReg.RUNNING, CalReg.JSTATUS, calEndFlag status], e ∈ calEndFields := by
      unfold calEndFlag
      split <;> decide
    have hinjEn := Head.calEnd_keeps_injection (x := z) (by rw [hcal]) c status fit
    have hsteps : (z.calEnd c status fit).r CalReg.STEPS_DONE = z.r CalReg.STEPS_DONE := by
      have hapart : ∀ e ∈ calEndFields, CalReg.STEPS_DONE.key ≠ e.key := by decide
      exact hleft _ fun e he => hapart e (hflags e he)
    generalize z.calEnd c status fit = y at *
    refine ⟨(Head.b_of hinjEn).trans hoff, hsteps.trans hdone, by rw [hended]; rfl, nofun, fun _ =>
      ⟨hfree, hrun, by rw [hended]; rfl, fun h0 => ?_, fun h0 => ?_, ?_, ?_, ?_, fun g hg => ?_⟩⟩
    · obtain rfl := hnone h0
      exact ⟨hstatus, hflag⟩
    · obtain rfl := hsome h0
      exact ⟨hstatus, hflag⟩
    · rw [hended, ← hjob]
      exact rjob
    · rw [hended, hstatus]
      exact rstatus
    · rw [hended, ← hn]
      exact rn
    · obtain ⟨hgs, hge⟩ := List.forall_mem_cons.1 hg
      exact (hleft g fun e he => hge e (hflags e he)).trans (hkept (hge _ (by decide)) hgs)

theorem Head.calAwaits_head (x : Head) (te : Int) :
    (x.calAwaits te).riser = x.riser ∧ (x.calAwaits te).angle = x.angle := by
  unfold Head.calAwaits
  dsimp only
  split <;> exact ⟨rfl, rfl⟩

/-- The streams that a close waits for follow from the job and from what the spare covers. -/
theorem Head.calStreams_of {x y : Head} (hk : y.cal.kind = x.cal.kind) (hj : y.cal.job = x.cal.job)
    (hm : y.cal.jobMem = x.cal.jobMem) (ha : y.angle = x.angle) (te : Int) : y.calStreams te = x.calStreams te := by
  unfold Head.calStreams Head.coveredAt Head.jobSampler Head.jobMask
  rw [hk, hj, ha, Head.jobField_of hm, Head.jobField_of hm]

/-- What of a stream has been delivered follows from the link's receiver and the sampler's correction. -/
theorem Head.deliveredTo_of {x y : Head} (hr : y.riser = x.riser) {i : Nat}
    (hs : ∀ e ∈ [CalReg.S_GAIN i, CalReg.S_OFF i, CalReg.S_SKEW i], y.r e = x.r e) (te : Int) :
    y.deliveredTo te i = x.deliveredTo te i := by
  have hreg : y.scorrReg i = x.scorrReg i := by
    unfold Head.scorrReg
    rw [hs _ (by simp), hs _ (by simp), hs _ (by simp)]
  unfold Head.deliveredTo
  rw [hr, hreg]

/-- The correction of a sampler is apart from the fields that a close of a window writes. -/
theorem scorr_apart (i : Nat) : ∀ e ∈ [CalReg.S_GAIN i, CalReg.S_OFF i, CalReg.S_SKEW i],
    e.key ≠ LoopReg.INJ_EN.key ∧ e.key ≠ CalReg.STEPS_DONE.key ∧ e.noRef = true := by
  have hfar (a l : Nat) (ha : 0x70100 ≤ a) (hl : l < 32) (e : Fld) (he : e.off = a ∧ e.lsb = l) :
      e.key ≠ LoopReg.INJ_EN.key ∧ e.key ≠ CalReg.STEPS_DONE.key ∧ e.noRef = true := by
    have hkey : e.key = 32 * a + l := by
      unfold Fld.key
      omega
    unfold Fld.noRef
    rw [hkey]
    refine ⟨?_, ?_, decide_eq_true (.inr ?_)⟩
    · show _ ≠ 2106246
      omega
    · show _ ≠ 14680200
      omega
    · show 2113536 ≤ _
      omega
  exact List.forall_mem_cons.2 ⟨hfar _ 0 (Nat.le_add_right ..) (by decide) _ ⟨rfl, rfl⟩,
    List.forall_mem_cons.2 ⟨hfar _ 16 (Nat.le_add_right ..) (by decide) _ ⟨rfl, rfl⟩,
      List.forall_mem_cons.2 ⟨hfar (0x70104 + 8 * i) 0 (by omega) (by decide) _ ⟨rfl, rfl⟩, nofun⟩⟩⟩

/-- The last close of a REF_SWEEP whose samples are still to come restores the reference (R290). -/
theorem Head.calLast_sweep_leaves {x : Head} {b : Int} (hb : x.cal.base = some b)
    (hn : x.jobLoop x.cal.job < 24) (hfit : sat32 b = b) (c : Ctx) (te : Int)
    (hwait : (x.calStreams te).all (x.deliveredTo te) = false) : let y := (x.calClosed te).calLast c te
    let done := (x.r CalReg.STEPS_DONE + 1) % 256
    y.cal = { x.cal with
        window := false, spanOn := false, injSet := false, base := none, closeTe := some te
        steps := x.cal.steps.modify (x.cal.steps.length - 1) fun e => { e with hi := some te } } ∧
      y.r CalReg.STEPS_DONE = done ∧ y.ri (LoopReg.LOOP_REF (x.jobLoop x.cal.job)) = b ∧
      ∀ g : Fld, (∀ e ∈ [CalReg.STEPS_DONE, LoopReg.INJ_EN, LoopReg.LOOP_REF (x.jobLoop x.cal.job)], g.key ≠ e.key) →
        y.r g = x.r g := by
  rw [Head.calLast_eq]
  have hrestored : (x.calClosed te).calRestore = (x.calClosed te).wi (LoopReg.LOOP_REF (x.jobLoop x.cal.job)) b :=
    Head.calRestore_some (x := x.calClosed te) hb hn
  have hval : (x.calClosed te).calRestore.ri (LoopReg.LOOP_REF (x.jobLoop x.cal.job)) = b := by
    rw [hrestored]
    exact Head.ri_wi_of_sat32 _ rfl hfit
  have hkept {g : Fld} (hg : g.key ≠ (LoopReg.LOOP_REF (x.jobLoop x.cal.job)).key) :
      (x.calClosed te).calRestore.r g = (x.calClosed te).r g := by
    rw [hrestored]
    exact Head.keep_wi hg rfl
  have hcal : (x.calClosed te).calRestore.cal = (x.calClosed te).cal := Head.calRestore_cal _
  have hhead : (x.calClosed te).calRestore.riser = x.riser ∧ (x.calClosed te).calRestore.angle = x.angle := by
    rw [hrestored]
    exact ⟨rfl, rfl⟩
  generalize hw : (x.calClosed te).calRestore = w at *
  have hzcal := w.calAwaits_cal te
  have hzr {g : Fld} (hg : g.key ≠ LoopReg.INJ_EN.key) := w.calAwaits_r te hg
  have hzhead := w.calAwaits_head te
  generalize w.calAwaits te = z at *
  have hsame {g : Fld} (hi : g.key ≠ LoopReg.INJ_EN.key) (hr : g.key ≠ (LoopReg.LOOP_REF (x.jobLoop x.cal.job)).key)
      (hs : g.key ≠ CalReg.STEPS_DONE.key) : z.r g = x.r g := (hzr hi).trans ((hkept hr).trans (x.calClosed_r te hs))
  have hstreams : z.calStreams te = x.calStreams te := by
    refine Head.calStreams_of ?_ ?_ ?_ (hzhead.2.trans hhead.2) te <;> rw [hzcal, hcal] <;> rfl
  have hdelivered (i : Nat) : z.deliveredTo te i = x.deliveredTo te i := by
    refine Head.deliveredTo_of (hzhead.1.trans hhead.1) (fun e he => ?_) te
    have hfar := scorr_apart i e he
    exact hsame hfar.1 (Fld.key_ne_of_noRef hfar.2.2 hn) hfar.2.1
  have hstays : z.calSettle c = z := by
    unfold Head.calSettle
    rw [show z.cal.closeTe = some te by rw [hzcal]]
    dsimp only
    rw [hstreams, funext hdelivered, hwait]
    rfl
  rw [hstays]
  refine ⟨?_, ?_, ?_, fun g hg => hsame (hg _ (by simp)) (hg _ (by simp)) (hg _ (by simp))⟩
  · rw [hzcal, hcal]
    rfl
  · exact (hzr (by decide)).trans ((hkept (Fld.key_ne_of_noRef (by decide) hn)).trans (x.calClosed_steps te))
  · exact (Head.ri_of (hzr (Fld.key_ne_of_noRef (by decide) hn).symm)).trans hval

theorem completesHead_calOpen {s : State} {wait : Nat} {h : Fin 32} {f : Fire} {x : Head} {P : Head → Prop}
    (ht : (s.atEvent wait h).Takes h 9 f x) (hp : P (x.calOpen ((s.atEvent wait h).ctx h) (f.arg % 65536) f.te)) :
    CompletesHead (.calWindowOpen wait h) s ((s.atEvent wait h).entryRead h f x) h P :=
  completesHead_of_takes (act := fun c f x => x.calOpen c (f.arg % 65536) f.te) rfl ht hp

theorem completesHead_calClose {s : State} {wait : Nat} {h : Fin 32} {f : Fire} {x : Head} {P : Head → Prop}
    (ht : (s.atEvent wait h).Takes h 10 f x) (hp : P (x.calClose ((s.atEvent wait h).ctx h) (f.arg % 65536) f.te)) :
    CompletesHead (.calWindowClose wait h) s ((s.atEvent wait h).entryRead h f x) h P :=
  completesHead_of_takes (act := fun c f x => x.calClose c (f.arg % 65536) f.te) rfl ht hp

/-- Settles O38: each event by whether it serves the armed job, by the job's kind, and at a close by whether it is the last. -/
theorem calWindows : Obligations.CalWindows := by
  unfold Obligations.CalWindows
  intro s wait h f x u c v j arg ignored
  constructor
  · intro ht
    refine ⟨fun hno => ?_, fun hb hw ha hc hs hl => ⟨fun hk => ?_, fun b hbase hk hn => ?_⟩⟩
    · refine completesHead_calOpen ht ?_
      rw [Head.calOpen_ignored hno]
      exact x.winIgnored_leaves
    · refine completesHead_calOpen ht ?_
      rw [Head.calOpen_serves hb hw ha hc]
      obtain ⟨⟨hw, hte, hloops⟩, hrun, hinj, hloop, hpoint, hfreq, hamp, hrest⟩ :=
          Head.calWindow_gain_leaves hk hs hl ((s.atEvent wait h).ctx h) f.te
      exact ⟨hw, hte, hrun, hinj, hloop, hpoint, hfreq, hamp, hloops, fun g _ hg => hrest g hg⟩
    · intro ref hfit
      have href : ref = b + x.jobStart j + (x.r CalReg.STEPS_DONE : Int) * x.jobStep j := rfl
      clear_value ref
      refine completesHead_calOpen ht ?_
      rw [Head.calOpen_serves hb hw ha hc]
      obtain ⟨hw, hte, href, hsteps, hb, hrest⟩ :=
        Head.calWindow_sweep_leaves hk hbase hn href.symm hfit hs hl ((s.atEvent wait h).ctx h) f.te
      exact ⟨hw, hte, href, hsteps, hb, fun g _ hg => hrest g hg⟩
  · intro ht
    refine ⟨fun hno => ?_, fun hb hw ha => ?_⟩
    · refine completesHead_calClose ht ?_
      rw [Head.calClose_ignored hno]
      exact x.winIgnored_leaves
    · intro steps done
      refine ⟨fun hk hbase hinj => ?_, fun hk hlt => ?_, fun b hk hle hbase hn hfit hwait => ?_⟩
      · refine completesHead_calClose ht ?_
        rw [Head.calClose_serves hb hw ha, if_neg (by rw [hk]; omega)]
        obtain ⟨hoff, hdone, hshut, howed, hended⟩ := Head.calLast_gain_leaves hb hk hbase hinj ((s.atEvent wait h).ctx h) f.te
        refine ⟨hoff, hdone, hshut, fun ho => ⟨(howed ho).1, fun g _ hg => (howed ho).2 g hg⟩, fun ho => ?_⟩
        obtain ⟨hbusy, hrun, hclose, hnone, hsome, hjob, hstatus, hn, hrest⟩ := hended ho
        exact ⟨hbusy, hrun, hclose, hnone, hsome, hjob, hstatus, hn, fun g _ hg => hrest g hg⟩
      · refine completesHead_calClose ht ?_
        rw [Head.calClose_serves hb hw ha, if_pos ⟨hk, (Head.calClosed_steps ..).trans_lt hlt⟩]
        exact ⟨rfl, Head.calClosed_steps .., fun g _ hg => Head.calClosed_r _ _ (hg _ (by simp))⟩
      · refine completesHead_calClose ht ?_
        have hlast : ¬ (x.calClosed f.te).r CalReg.STEPS_DONE < x.jobSteps x.cal.job := by
          rw [Head.calClosed_steps]
          exact Nat.not_lt.2 hle
        rw [Head.calClose_serves hb hw ha, if_neg fun h => hlast h.2]
        obtain ⟨hcal, hdone, href, hrest⟩ := Head.calLast_sweep_leaves hbase hn hfit ((s.atEvent wait h).ctx h) f.te hwait
        exact ⟨hcal, hdone, href, fun g _ hg => hrest g hg⟩

end Sys2Proof.Machine

end

section


namespace Sys2Proof.Machine

/-! ### A stack byte whose check bits stay wrong

A write to a stack leaves the upsets listed for its bytes as they are, and names the lines with errors apart from them. -/

/-- A running package with all tiles up. -/
def upState : State := { State.reset with
  heads := Vector.replicate 32 { Head.reset with inReset := false }
  tiles := Vector.replicate 8 { Tile.reset with inReset := false, timeOn := true }
  atria := Vector.replicate 2 (Atrium.reset.w IdReg.TILE_EN 255)
  boot := { BootSt.reset with phase := .running } }

/-- The stack of tile 0 with two upset bits in each of its first bytes, in lines that read as good. -/
def upsetTile : Tile := { Tile.reset with
  inReset := false, timeOn := true, stack := { Mem.empty with flips := [(0, 3), (1, 3)] } }

/-- Flash 0 reads a byte into the upset byte 0 of the stack. -/
def upsetFlashState : State := { upState with
  tiles := upState.tiles.set 0 upsetTile
  flashes := upState.flashes.set 0 { FlashSt.reset with started := some 0, len := 1 } }

theorem upsetFlashState_reads : ∃ t, exec (.flashOpComplete 0 0 true) upsetFlashState = .next t ∧
    t.stackBytes 0 0 1 ≠ ((upsetFlashState.pass 0).flash 0).bytes 0 1 := by
  refine ⟨_, rfl, ?_⟩
  decide

/-- Refutes O55: the byte that the flash read puts into an upset byte of the stack reads as another. -/
theorem not_flashAndKeys : ¬ Obligations.FlashAndKeys := by
  unfold Obligations.FlashAndKeys
  intro ⟨_, _, _, _, _, hall⟩
  obtain ⟨-, -, -, hread, -⟩ := hall upsetFlashState 0 0 0 (by decide)
  obtain ⟨y, hexec, ⟨hbytes, -⟩, -⟩ := hread (by decide) (by decide) (by decide) (by decide)
    (by decide)
  obtain ⟨t, hexec', hdiffer⟩ := upsetFlashState_reads
  obtain rfl : t = y := Host.Outcome.next.inj (hexec'.symm.trans hexec)
  exact hdiffer hbytes

end Sys2Proof.Machine

end

section


namespace Sys2Proof.Machine

/-! ### A prefetch under a buffered store

A line that a data cache fetches carries the stores that the core still buffers over it (R399). -/

/-- Core 0 of tile 0 with a store of 1 buffered at the stack's first byte, and the prefetch of that line outstanding. -/
def prefetchCore : CoreSt := { CoreSt.reset with
  running := true
  buffer := [⟨0x4000000000, 1, 1⟩]
  dcache := { CacheSt.reset with prefetch := [0x100000000] } }

def prefetchState : State := { upState with
  tiles := upState.tiles.set 0 { Tile.reset with
    inReset := false, timeOn := true, cores := Tile.reset.cores.set 0 prefetchCore } }

theorem prefetchState_overlaid : ∃ t, exec (.prefetchFill 0 0 0 1) prefetchState = .next t ∧
    ((t.cache 0 0 1).side.getLast?.map fun i => (i.tag, i.data)) ≠
      some (0x100000000, (prefetchState.pass 0).stackBytes 0 0 64) := by
  refine ⟨_, rfl, ?_⟩
  decide

/-- Refutes O56: the line that a prefetch of the data cache brings is not the stack's alone, where a store is buffered over
it. -/
theorem not_cores : ¬ Obligations.Cores := by
  unfold Obligations.Cores
  intro ⟨_, _, _, _, _, hall, _⟩
  obtain ⟨-, hruns⟩ := hall prefetchState 0 0 0 1
  obtain ⟨-, -, -, -, hprefetch, -⟩ := hruns (by decide)
  obtain ⟨-, hreached⟩ := hprefetch 0x100000000 [] (by decide) 0 0 (by decide)
  obtain ⟨y, hexec, -, -, -, -, hside, -⟩ := hreached (by decide) (by decide) (by decide)
    (by decide)
  obtain ⟨hlast, -⟩ := hside (by decide) (by decide)
  obtain ⟨t, hexec', hdiffer⟩ := prefetchState_overlaid
  obtain rfl : t = y := Host.Outcome.next.inj (hexec'.symm.trans hexec)
  exact hdiffer hlast

end Sys2Proof.Machine

end

section


namespace Sys2Proof.Machine

/-! ### A host command ring beyond the staging area

HCR_BASE has 23 bits, and the last 4 KiB pages that it can name lie above the staging area: a write there sets MEM_RANGE (R367). -/

/-- Tile 0 with its port 0 up and its host command ring out of the staging area. -/
def farRingTile : Tile := Tile.w
  ((Tile.put { Tile.reset with inReset := false, timeOn := true } (PortReg.ENABLE 0) true).put (PortReg.LINK_UP 0) true)
  LockReg.HCR_BASE 0x7FFFFF

/-- A controller with its admin queue. -/
def adminCtrl : Ctrl := { Ctrl.reset with queues := [Queue.reset] }

/-- A running package with that tile, and with a controller connected at port 0. -/
def farRingState : State := { upState with
  tiles := upState.tiles.set 0 farRingTile
  ports := upState.ports.set 0 { PortSt.reset with
    prdyRose := true, ctrls := [adminCtrl] } }

/-- A Firmware Commit in the admin queue of that controller. -/
def commitCapsule : Capsule := ⟨0, 0, 0x10, [], 0⟩

set_option maxRecDepth 20000 in
theorem farRingState_flags : ∃ t, exec (.firmwareCommit 0 0 commitCapsule) farRingState = .next t ∧
    (t.tile 0).r ProtReg.MEM_RANGE = 1 := by
  refine ⟨_, rfl, ?_⟩
  decide

set_option maxRecDepth 20000 in
/-- Refutes O58: the entry of a Firmware Commit that falls out of the staging area sets MEM_RANGE, which the statement leaves
as it was. -/
theorem not_nvmeAdmin : ¬ Obligations.NvmeAdmin := by
  unfold Obligations.NvmeAdmin
  intro ⟨hall, _⟩
  have hcapsule := hall farRingState 0 0 commitCapsule adminCtrl (by decide)
    (by decide)
  obtain ⟨-, -, -, -, -, -, -, -, hadmin⟩ := hcapsule
  obtain ⟨-, hcommit, -⟩ := hadmin (by decide) (by decide) (by decide)
  obtain ⟨y, hexec, -, -, -, ⟨-, ⟨hkeeps, -⟩, -⟩, -⟩ := hcommit (by decide) (by decide)
  obtain ⟨t, hexec', hflag⟩ := farRingState_flags
  obtain rfl : t = y := Host.Outcome.next.inj (hexec'.symm.trans hexec)
  rw [hkeeps 0 ProtReg.MEM_RANGE (by decide) (by decide)] at hflag
  exact absurd hflag (by decide)

end Sys2Proof.Machine

end

section


namespace Sys2Proof.Machine

/-! ### A write posted out of the staging area -/

/-- A write of one block that has its lock. -/
def grantedWrite : HostCmd := { HostCmd.reset with qid := 1, opcode := 1, nsid := 1, count := 1, stage := .granted }

/-- The package with the far ring, whose port 0 holds that write. -/
def farWriteState : State := { farRingState with
  ports := upState.ports.set 0 { PortSt.reset with cmds := [grantedWrite] } }

set_option maxRecDepth 20000 in
theorem farWriteState_flags : ∃ t, exec (.writeDataStaged 0 0) farWriteState = .next t ∧
    (t.tile 0).r ProtReg.MEM_RANGE = 1 := by
  refine ⟨_, rfl, ?_⟩
  decide

/-- Refutes O59: the entry of a staged write that falls out of the staging area sets MEM_RANGE, which the statement leaves as
it was. -/
theorem not_nvmeIo : ¬ Obligations.NvmeIo := by
  unfold Obligations.NvmeIo
  intro ⟨_, hall, _⟩
  obtain ⟨-, hstaged, -⟩ := hall farWriteState 0 0 (by decide) (by decide) (by decide)
  obtain ⟨-, hposts⟩ := hstaged grantedWrite (by decide)
  obtain ⟨y, hexec, -, -, -, hkeeps⟩ := hposts (by decide)
  obtain ⟨t, hexec', hflag⟩ := farWriteState_flags
  obtain rfl : t = y := Host.Outcome.next.inj (hexec'.symm.trans hexec)
  have hkept := hkeeps ProtReg.MEM_RANGE (by decide) (by decide)
  exact absurd (hkept.trans hflag) (by decide)

end Sys2Proof.Machine

end

section


namespace Sys2Proof.Machine

/-! ### REFCLK stops -/

/-- What a stop of REFCLK does to one head: its lanes lose lock, and a link that is up is lost (R80, R496). -/
def State.lanesLost (h : Fin 32) (s : State) : State :=
  let u := s.onHead h fun x => x.w RiserReg.LANE_LOCK 0
  if (u.head h).up then u.linkLoss h true else u

theorem State.lanesLost_head_ne (s : State) {h k : Fin 32} (hk : k ≠ h) : (s.lanesLost h).head k = s.head k := by
  unfold State.lanesLost
  extract_lets u
  have hu : u.head k = s.head k := State.onHead_head_ne s hk _
  split
  · exact (State.linkLoss_head_ne u hk true).trans hu
  · exact hu

/-- A link loss, in reset or out of it, leaves the lanes' locks as they are. -/
theorem State.linkLoss_laneLock (s : State) (h : Fin 32) (auto : Bool) :
    ((s.linkLoss h auto).head h).r RiserReg.LANE_LOCK = (s.head h).r RiserReg.LANE_LOCK := by
  by_cases hr : (s.head h).inReset = false
  · rw [State.linkLoss_head hr]
    exact (Head.linkLost_leaves ..).2.2.1
  · have hsleep := Bool.not_eq_false _ ▸ hr
    unfold State.linkLoss State.safeHead
    extract_lets u old v
    have hu : u.head h = (s.head h).linkDown (s.ctx h) auto := State.onHead_head ..
    have hur : (u.head h).inReset = true :=
      (congrArg Head.inReset hu).trans ((Head.inReset_of (Head.safety_linkDown ..)).trans hsleep)
    rw [if_pos hur, State.onHead_head, State.onHead_head, hu]
    exact Head.refresh_keep (by decide) _ (Head.safeKept_keep (by decide) _ _ (Head.linkDown_keep (by decide) _ _ rfl))

theorem State.lanesLost_laneLock (s : State) (h : Fin 32) : ((s.lanesLost h).head h).r RiserReg.LANE_LOCK = 0 := by
  unfold State.lanesLost
  extract_lets u
  have hu : (u.head h).r RiserReg.LANE_LOCK = 0 := by
    rw [show u.head h = (s.head h).w RiserReg.LANE_LOCK 0 from State.onHead_head ..]
    exact Head.r_w ..
  split
  · exact (State.linkLoss_laneLock u h true).trans hu
  · exact hu

/-- A head out of reset whose link was up has lost it. -/
theorem State.lanesLost_up {s : State} {h : Fin 32} (hr : (s.head h).inReset = false) (hup : (s.head h).up = true) :
    let x := (s.lanesLost h).head h
    x.r RiserReg.STATE = 0 ∧ x.b RiserReg.LINK_DOWN = true ∧ x.r RiserReg.SAFE_CAUSE = 4 := by
  unfold State.lanesLost
  extract_lets u x
  have hu : u.head h = (s.head h).w RiserReg.LANE_LOCK 0 := State.onHead_head ..
  have hlink : (u.head h).r RiserReg.STATE = (s.head h).r RiserReg.STATE := by
    rw [hu]
    exact Head.keep_w (by decide) rfl
  have hup' : (u.head h).up = true := (congrArg (· == 6) hlink).trans hup
  have hx : x = (u.head h).linkLost (u.ctx h) true := by
    unfold x
    rw [if_pos hup', State.linkLoss_head (by rw [hu]; exact hr)]
  rw [hx]
  obtain ⟨hstate, hdown, -, hcause, -⟩ := (u.head h).linkLost_leaves (u.ctx h) true
  exact ⟨hstate, hdown, hcause⟩

theorem State.mem_allHeads (h : Fin 32) : h ∈ allHeads := by
  revert h
  decide

/-- What the round of head `h` leaves in it stands when all have had theirs. -/
theorem State.eachLanesLost {R : Head → Prop} {Q : Head → Prop} {h : Fin 32}
    (hround : ∀ u : State, R (u.head h) → Q ((u.lanesLost h).head h)) {s : State} (hs : R (s.head h)) :
    Q ((s.eachHead State.lanesLost).head h) := by
  refine State.foldl_round (f := fun s h => State.lanesLost h s) (a := h) (R := fun u => R (u.head h))
    (Q := fun u => Q (u.head h)) hround ?_ ?_ (State.mem_allHeads h) (by decide) hs
  · intro b hb u hu
    rw [State.lanesLost_head_ne u hb.symm]
    exact hu
  · intro b hb u hu
    rw [State.lanesLost_head_ne u hb.symm]
    exact hu

/-- The fall of the fabric links leaves every head. -/
theorem State.linkFalls_all_head (s : State) (h : Fin 32) :
    (allPorts.foldl (fun s p => s.linkFalls p) s).head h = s.head h := by
  have hfalls : s.ChangesOnly [.tiles, .ports, .atria, .pkg] (allPorts.foldl (fun s p => s.linkFalls p) s) :=
    State.ChangesOnly.foldl (.refl s) fun _ p hu => State.linkFalls_changes (List.Subset.refl _) p hu
  exact hfalls.same_head (by decide) h

theorem exec_refclkStop (wait : Nat) (s : State) : exec (.refclkStop wait) s =
    .next (allPorts.foldl (fun s p => s.linkFalls p) ((s.pass wait).eachHead State.lanesLost)) := rfl

/-- Settles O12: each event by its guard; a stop of REFCLK head by head. -/
theorem pinsAndClocks : Obligations.PinsAndClocks := by
  unfold Obligations.PinsAndClocks
  intro s wait u
  refine ⟨fun straps hpor hrst hfail hclk => ?_, fun hrst => ?_, fun hclk hpor hrst => ?_, fun hclk hpor => ?_,
    fun hclk hpor hrst => ?_, fun h hr hup => ?_⟩
  · show execPowerOnResetRelease wait straps s = _
    unfold execPowerOnResetRelease
    rw [State.after_due]
    · rfl
    · simp only [show (s.pass wait).pkg = u.pkg from rfl, hpor, hrst, hfail, hclk, Bool.and_self]
  · show execRstNRise wait s = _
    unfold execRstNRise
    rw [State.afterIn_due]
    · cases hheld : (State.turnTo 2 (State.advance wait s)).pkg.warmHeld <;> simp only [hheld] <;> rfl
    · simp only [hrst, Bool.not_false]
  · show execSysclkReturn wait s = _
    unfold execSysclkReturn
    rw [State.after_due]
    · simp only [show (s.pass wait).pkg = u.pkg from rfl, hpor, hrst]
      rfl
    · simp only [show (s.pass wait).pkg = u.pkg from rfl, hclk, Bool.not_false]
  · show execSysclkReturn wait s = _
    unfold execSysclkReturn
    rw [State.after_due]
    · simp only [show (s.pass wait).pkg = u.pkg from rfl, hpor]
      rfl
    · simp only [show (s.pass wait).pkg = u.pkg from rfl, hclk, Bool.not_false]
  · show execSysclkReturn wait s = _
    unfold execSysclkReturn
    rw [State.after_due]
    · simp only [show (s.pass wait).pkg = u.pkg from rfl, hpor, hrst]
      rfl
    · simp only [show (s.pass wait).pkg = u.pkg from rfl, hclk, Bool.not_false]
  · refine ⟨_, exec_refclkStop wait s, ?_⟩
    obtain ⟨hstate, hdown, hcause⟩ := State.eachLanesLost (R := fun x => x.inReset = false ∧ x.up = true)
      (Q := fun x => x.r RiserReg.STATE = 0 ∧ x.b RiserReg.LINK_DOWN = true ∧ x.r RiserReg.SAFE_CAUSE = 4)
      (fun _ hu => State.lanesLost_up hu.1 hu.2) (s := u) ⟨hr, hup⟩
    refine ⟨?_, ?_, ?_, fun k => ?_, execRefclkStop_changes (List.Subset.refl _) wait (exec_refclkStop wait s)⟩
    · rw [State.linkFalls_all_head]
      exact hstate
    · rw [State.linkFalls_all_head]
      exact hdown
    · rw [State.linkFalls_all_head]
      exact hcause
    · rw [State.linkFalls_all_head]
      exact State.eachLanesLost (R := fun _ => True) (Q := fun x => x.r RiserReg.LANE_LOCK = 0)
        (fun u _ => u.lanesLost_laneLock k) trivial

end Sys2Proof.Machine

end

section


namespace Sys2Proof.Machine

/-! ### PWRFAIL: every head to SAFE, and back -/

/-- What PWRFAIL leaves in a head (R91, R217, R471): the cause stands, and a head out of reset shows it and is safe. -/
def Head.PowerFails (x y : Head) : Prop :=
  3 ∈ y.riser.causes ∧ (x.inReset = false → y.r RiserReg.SAFE_CAUSE = 3 ∧ y.safed = true)

theorem Head.safeKept_causes (c : Ctx) (cause : Nat) (x : Head) : cause ∈ (x.safeKept c cause).riser.causes := by
  show cause ∈ if x.riser.causes.contains cause then x.riser.causes else x.riser.causes ++ [cause]
  split
  · exact List.contains_iff_mem.1 ‹_›
  · exact List.mem_append_right _ (List.mem_singleton.2 rfl)

theorem State.safeHead_powerFails (s : State) (h : Fin 32) : (s.head h).PowerFails ((s.safeHead h 3).head h) := by
  by_cases hr : (s.head h).inReset = false
  · rw [State.safeHead_head hr]
    obtain ⟨hcause, hsafed, -⟩ := Head.safeCause_leaves (s.ctx h) (cause := 3) (by decide) (s.head h)
    exact ⟨Head.safeCause_causes .., fun _ => ⟨hcause, hsafed⟩⟩
  · refine ⟨?_, fun hn => absurd hn hr⟩
    unfold State.safeHead
    dsimp only
    rw [if_pos (Bool.not_eq_false _ ▸ hr), State.onHead_head]
    exact Head.safeKept_causes ..

/-- Rounds that change their own head alone leave in head `h` what its round leaves there. -/
theorem State.eachHead_round {f : Fin 32 → State → State} {R : Head → Head → Prop}
    (hown : ∀ h s, R (s.head h) ((f h s).head h)) (hne : ∀ h s k, k ≠ h → (f h s).head k = s.head k) (s : State) (h : Fin 32) :
    R (s.head h) ((s.eachHead f).head h) := by
  refine State.foldl_round (f := fun s h => f h s) (a := h) (R := fun u => u.head h = s.head h)
    (Q := fun u => R (s.head h) (u.head h)) ?_ ?_ ?_ (State.mem_allHeads h) (by decide) rfl
  · intro u hu
    exact hu ▸ hown h u
  · intro k hk u hu
    exact (hne k u h hk.symm).trans hu
  · intro k hk u hu
    rw [hne k u h hk.symm]
    exact hu

theorem State.eachHead_powerFails (s : State) (h : Fin 32) :
    (s.head h).PowerFails ((s.eachHead fun h s => s.safeHead h 3).head h) :=
  State.eachHead_round (f := fun h s => s.safeHead h 3) (fun h s => s.safeHead_powerFails h)
    (fun _ s _ hk => s.safeHead_head_ne hk 3) s h

/-- Where cause 3 ends, no head has it (R472). -/
theorem State.eachHead_powerReturns (s : State) (h : Fin 32) :
    3 ∉ ((s.eachHead fun h s => s.onHead h (·.safeEnds 3)).head h).riser.causes := by
  refine State.eachHead_round (f := fun h s => s.onHead h (·.safeEnds 3)) (R := fun _ y => 3 ∉ y.riser.causes)
    (fun h s => ?_) (fun _ s _ hk => s.onHead_head_ne hk _) s h
  rw [State.onHead_head]
  exact fun hm => of_decide_eq_true (List.mem_filter.1 hm).2 rfl

/-- A head in SAFE, in FAULT or off. -/
theorem Head.hstate_of_safed {x : Head} (h : x.safed = true) : x.r LandReg.HSTATE ∈ [0, 10, 11] := by
  unfold Head.safed at h
  simpa using h

theorem State.logPwrfail_changes (s : State) : s.ChangesOnly [.tiles, .atria] s.logPwrfail :=
  State.eachTile_changes (.refl s) fun _ _ hu => State.ChangesOnly.ite (State.log_changes (by decide) _ _ _ _ _ hu) hu

/-! ### The stores refuse -/

theorem State.appendCut_pkg (s : State) : s.appendCut.pkg = s.pkg := by
  unfold State.appendCut
  split
  · rfl
  · dsimp only
    rw [State.interruptAppend_pkg]

/-- Where no append can have begun, none is cut. -/
theorem State.appendCut_of_not_begun {s : State} (h : s.boot.phase ∉ [BootPhase.append, .recordHeld]) : s.appendCut = s := by
  unfold State.appendCut
  split
  · rfl
  · extract_lets +onlyGivenNames p r
    have hr : r = { s with pkg := { p with failEdge := none } } := State.interruptAppend_of_not_begun h
    rw [hr]

/-- While a record no longer fits before the refusal, none fits later, and every Selvedge store stays as it is. -/
def State.SelvRests (s t : State) : Prop :=
  (s.recordFits = false → t.recordFits = false) ∧ (s.recordFits = false → ∀ j, (t.tile j).selv = (s.tile j).selv)

theorem State.SelvRests.refl (s : State) : s.SelvRests s := ⟨id, fun _ _ => rfl⟩

theorem State.SelvRests.trans {s t u : State} (h : s.SelvRests t) (k : t.SelvRests u) : s.SelvRests u :=
  have ⟨ht, hst⟩ := h
  have ⟨hu, htu⟩ := k
  ⟨fun hs => hu (ht hs), fun hs j => (htu (ht hs) j).trans (hst hs j)⟩

theorem State.SelvRests.foldl {α : Type} {f : State → α → State} (hf : ∀ s a, State.SelvRests s (f s a)) (l : List α)
    (s : State) : s.SelvRests (l.foldl f s) := by
  induction l generalizing s with
  | nil => exact .refl s
  | cons a l ih => exact (hf s a).trans (ih _)

theorem State.recordFits_of_pins {s t : State} (hc : t.cycle = s.cycle) (hp : t.pkg.pins = s.pkg.pins) :
    t.recordFits = s.recordFits := by
  have hedge : t.pkg.pins.failEdge = s.pkg.pins.failEdge := congrArg PkgSt.failEdge hp
  unfold State.recordFits
  rw [show t.pkg.failEdge = s.pkg.failEdge from hedge, hc]

/-- What changes neither time, the tiles nor the pins lets the stores rest. -/
theorem State.ChangesOnly.selvRests {s t : State} (h : s.ChangesOnly [.ports, .atria, .pkg] t) : s.SelvRests t :=
  ⟨(State.recordFits_of_pins (h.time (by decide)).1 (h.pins (by decide))).trans,
    fun _ j => congrArg Tile.selv (h.same_tile (by decide) j)⟩

theorem State.onTile_selvRests (s : State) (t : Fin 8) {f : Tile → Tile} (hf : ∀ x : Tile, (f x).selv = x.selv) :
    s.SelvRests (s.onTile t f) := by
  refine ⟨id, fun _ j => ?_⟩
  by_cases hj : j = t
  · subst hj
    rw [State.onTile_tile]
    exact hf _
  · rw [State.onTile_def, State.setTile_tile_ne _ _ _ _ hj]

/-- A record that does not fit is held back, outside the store (R471). -/
theorem State.log_of_late {s : State} (hs : s.recordFits = false) (t : Fin 8) (code unit arg0 arg1 : Nat) :
    ∃ r, s.log t code unit arg0 arg1 = s.onTile (s.logTile t) fun x =>
      { x with logger := { x.logger with deferred := x.logger.deferred ++ [r] } } := by
  unfold State.log State.logIn
  rw [hs]
  exact ⟨_, rfl⟩

theorem State.log_selvRests (s : State) (t : Fin 8) (code unit arg0 arg1 : Nat) :
    s.SelvRests (s.log t code unit arg0 arg1) := by
  cases hs : s.recordFits with
  | true => exact ⟨fun h => absurd (hs.symm.trans h) (by decide), fun h => absurd (hs.symm.trans h) (by decide)⟩
  | false =>
    obtain ⟨r, hr⟩ := State.log_of_late hs t code unit arg0 arg1
    rw [hr]
    exact State.onTile_selvRests s _ fun _ => rfl

/-- A field of the package block that no Selvedge word keeps. -/
theorem State.pw_selvRests (s : State) (w : Fin 2) {f : Fld} (hf : f.persist = false) (v : Nat) : s.SelvRests (s.pw w f v) := by
  unfold State.pw
  rw [hf, if_neg Bool.false_ne_true]
  exact (State.onPkg_changes (by decide) _ _ (.refl s)).selvRests

theorem State.pkgPut_selvRests (s : State) {f : Fld} (hf : f.persist = false) (v : Nat) : s.SelvRests (s.pkgPut f v) :=
  (State.pw_selvRests s 0 hf v).trans (State.pw_selvRests _ 1 hf v)

theorem State.alert_selvRests (s : State) (b : Bool) : s.SelvRests { s with pkg := { s.pkg with alertN := b } } :=
  ⟨id, fun _ _ => rfl⟩

theorem State.refreshPort_selvRests (s : State) (p : Fin 16) : s.SelvRests (s.refreshPort p) := by
  have hput (u : State) (f : Nat → Fld) (v : Nat) : u.SelvRests (u.pput p f v) := State.onTile_selvRests u _ fun _ => rfl
  unfold State.refreshPort
  extract_lets held io s1 ready high s2
  have h2 : s.SelvRests s2 := (((hput _ _ _).trans (hput _ _ _)).trans (hput _ _ _)).trans (hput _ _ _)
  split
  · exact h2.trans (State.onPort_changes (by decide) _ _ (.refl s2)).selvRests
  · exact h2

theorem State.refreshPorts_selvRests (s : State) : s.SelvRests s.refreshPorts := by
  unfold State.refreshPorts
  extract_lets s1 src s2 low
  have h1 : s.SelvRests s1 := by
    unfold s1
    exact .foldl State.refreshPort_selvRests allPorts s
  have h2 : s1.SelvRests s2 := State.pkgPut_selvRests s1 rfl src
  exact (h1.trans h2).trans (State.alert_selvRests s2 _)

theorem State.onCtrl_selvRests (s : State) (p : Fin 16) (c : Nat) (f : Ctrl → Ctrl) : s.SelvRests (s.onCtrl p c f) :=
  (State.onCtrl_changes (by decide) _ _ _ (.refl s)).selvRests

theorem State.event_selvRests (s : State) (p : Fin 16) (c ev nsid : Nat) : s.SelvRests (s.event p c ev nsid) := by
  unfold State.event
  split
  · exact .refl s
  · split
    · exact .refl s
    · split
      · exact (State.onCtrl_selvRests ..).trans (State.post_changes (by decide) _ _ _ _ (.refl _)).selvRests
      · exact (State.onCtrl_selvRests ..).trans (State.refreshPorts_selvRests _)

theorem State.eventAll_selvRests (s : State) (ev nsid : Nat) : s.SelvRests (s.eventAll ev nsid) := by
  unfold State.eventAll
  refine .foldl (fun u p => ?_) allPorts s
  exact .foldl (fun v (c : Ctrl) => State.event_selvRests v p c.idx ev nsid) _ u

theorem State.refreshAna_selvRests (s : State) (n : Fin 8) : s.SelvRests (s.refreshAna n) := by
  unfold State.refreshAna
  refine .foldl (fun u p => .foldl (fun v c => ?_) _ u) allPorts s
  dsimp only
  split
  · exact .refl v
  · exact (State.onCtrl_selvRests ..).trans (State.event_selvRests ..)

theorem State.refreshSet_selvRests (s : State) (n : Fin 8) : s.SelvRests (s.refreshSet n) := by
  unfold State.refreshSet
  split
  · exact .refl s
  · extract_lets v old cause s1 s2
    have h1 : s.SelvRests s1 := by
      unfold s1
      split
      · exact State.log_selvRests ..
      · exact .refl s
    have h2 : s1.SelvRests s2 := (State.pw_selvRests _ _ rfl _).trans (State.pw_selvRests _ _ rfl _)
    have h3 : s2.SelvRests (if v = old then s2 else (s2.sset n SetReg.STATE_CHANGE).eventAll 2 (n.val + 1)) := by
      split
      · exact .refl s2
      · exact (State.sset_changes (by decide) n _ (.refl s2)).selvRests.trans (State.eventAll_selvRests ..)
    exact ((h1.trans h2).trans h3).trans (State.refreshAna_selvRests ..)

theorem State.refreshSets_selvRests (s : State) : s.SelvRests s.refreshSets := by
  unfold State.refreshSets
  exact .foldl State.refreshSet_selvRests allSets s

theorem State.refreshSets_pins (s : State) : s.refreshSets.pkg.pins = s.pkg.pins :=
  (State.refreshSets_changes (ps := [.tiles, .ports, .atria, .pkg]) (List.Subset.refl _) (.refl s)).pins (by decide)

theorem State.storeRefuses_of_pins {s : State} {p : PkgSt} (h : s.pkg.pins = p.pins) (hp : p.refusing = true) :
    s.storeRefuses = true := by
  have hr : s.pkg.pins.refusing = p.pins.refusing := congrArg PkgSt.refusing h
  unfold State.storeRefuses
  rw [show s.pkg.refusing = p.refusing from hr, hp, Bool.true_or]

/-- The stores take writes where no episode runs. -/
theorem State.storeTakes_of_pins {s : State} {p : PkgSt} (h : s.pkg.pins = p.pins) (he : p.failEdge = none)
    (hp : p.refusing = false) : s.pkg.failEdge = none ∧ s.pkg.refusing = false ∧ s.storeRefuses = false := by
  have hedge : s.pkg.pins.failEdge = p.pins.failEdge := congrArg PkgSt.failEdge h
  have hrefuse : s.pkg.pins.refusing = p.pins.refusing := congrArg PkgSt.refusing h
  have hedge' : s.pkg.failEdge = none := hedge.trans he
  have hrefuse' : s.pkg.refusing = false := hrefuse.trans hp
  refine ⟨hedge', hrefuse', ?_⟩
  unfold State.storeRefuses
  rw [hedge', hrefuse', Bool.false_or]

/-- 10 µs after the edge no record of five words fits before the refusal (R432, R471). -/
theorem State.recordFits_of_late {s : State} {e : Nat} (he : s.pkg.failEdge = some e) (hl : e + cyclesOfUs 10 ≤ s.cycle) :
    s.recordFits = false := by
  have hus : cyclesOfUs 10 = 16000 := rfl
  unfold State.recordFits
  rw [he]
  exact decide_eq_false (by omega)

/-! ### The commands -/

theorem exec_pwrfail {s : State} {wait low : Nat} (hfail : ((s.advance wait).turnTo 2).pkg.pwrfailN = true) (hlow : 64 ≤ low) :
    let u := (s.advance wait).turnTo 2
    exec (.pwrfail wait low) s = .next (({ u with pkg := { u.pkg with
      pwrfailN := false, highSince := none
      failEdge := some (match u.pkg.failEdge with | some e => e | none => u.cycle - low) } }.eachHead
        fun h s => s.safeHead h 3).logPwrfail) := by
  show execPwrfail wait low s = _
  unfold execPwrfail
  exact State.afterIn_due _ (by simp only [hfail, hlow, decide_true, Bool.and_self])

theorem exec_selvedgeWriteRefusal {s : State} {wait e : Nat} (he : (s.pass wait).pkg.failEdge = some e)
    (hl : e + cyclesOfUs 10 ≤ (s.pass wait).cycle) :
    let u := (s.pass wait).appendCut
    exec (.selvedgeWriteRefusal wait) s = .next { u with pkg := { u.pkg with refusing := true } }.refreshSets := by
  show execSelvedgeWriteRefusal wait s = _
  unfold execSelvedgeWriteRefusal
  exact State.after_due _ (by simp only [he, hl, decide_true])

theorem exec_pwrfailNRise {s : State} {wait : Nat} (hfail : ((s.advance wait).turnTo 2).pkg.pwrfailN = false) :
    let u := (s.advance wait).turnTo 2
    exec (.pwrfailNRise wait) s = .next ({ u with pkg := { u.pkg with pwrfailN := true, highSince := some u.cycle } }.eachHead
      fun h s => s.onHead h (·.safeEnds 3)) := by
  show execPwrfailNRise wait s = _
  unfold execPwrfailNRise
  exact State.afterIn_due _ (by simp only [hfail, Bool.not_false])

/-- The episode is over (R472). -/
def State.episodeOver (s : State) : State :=
  { s with pkg := { s.pkg with failEdge := none, highSince := none, refusing := false } }

theorem exec_pwrfailEpisodeEnd {s : State} {wait e c : Nat} (hfail : (s.pass wait).pkg.pwrfailN = true)
    (he : (s.pass wait).pkg.failEdge = some e) (hc : (s.pass wait).pkg.highSince = some c)
    (hl : c + cyclesOfMs 1 ≤ (s.pass wait).cycle) :
    exec (.pwrfailEpisodeEnd wait) s = .next ((s.pass wait).episodeOver.eachTile State.flushDeferred).refreshSets := by
  show execPwrfailEpisodeEnd wait s = _
  unfold execPwrfailEpisodeEnd
  exact State.after_due _ (by simp only [hfail, he, hc, State.since, hl, decide_true, Option.isSome_some, Bool.and_self])

/-- The records held back, and what they move in the sets, leave the pins. -/
theorem State.recordsFlushed_pins (s : State) : (s.eachTile State.flushDeferred).refreshSets.pkg.pins = s.pkg.pins := by
  have hflush : (s.eachTile State.flushDeferred).pkg = s.pkg :=
    (State.eachTile_changes (ps := [.tiles, .atria]) (.refl s) fun _ _ hu =>
      State.flushDeferred_changes (List.Subset.refl _) _ hu).pkg (by decide)
  rw [State.refreshSets_pins, hflush]

theorem pwrfail_completes {s : State} {wait low : Nat} (hfail : ((s.advance wait).turnTo 2).pkg.pwrfailN = true)
    (hlow : 64 ≤ low) : let u := (s.advance wait).turnTo 2
    Completes (.pwrfail wait low) s fun t =>
      t.pkg = { u.pkg with
        pwrfailN := false, highSince := none
        failEdge := some (match u.pkg.failEdge with | some e => e | none => u.cycle - low) } ∧
      (∀ h : Fin 32, 3 ∈ (t.head h).riser.causes ∧ ((u.head h).inReset = false →
        (t.head h).r RiserReg.SAFE_CAUSE = 3 ∧ (t.head h).r LandReg.HSTATE ∈ [0, 10, 11])) ∧
      s.ChangesOnly [.time, .heads, .tiles, .atria, .pkg, .pins] t := by
  intro u
  have he := exec_pwrfail hfail hlow
  refine ⟨_, he, ?_, fun h => ?_, execPwrfail_changes (List.Subset.refl _) wait low he⟩
  · rw [(State.logPwrfail_changes _).pkg (by decide)]
    exact (State.eachHead_changes (ps := [.heads, .tiles, .atria]) (.refl _) fun _ _ hu =>
      State.safeHead_changes (List.Subset.refl _) _ _ hu).pkg (by decide)
  · rw [(State.logPwrfail_changes _).same_head (by decide)]
    obtain ⟨hcause, hsafe⟩ := State.eachHead_powerFails _ h
    exact ⟨hcause, fun hr => ⟨(hsafe hr).1, Head.hstate_of_safed (hsafe hr).2⟩⟩

theorem selvedgeWriteRefusal_completes {s : State} {wait e : Nat} (he : (s.pass wait).pkg.failEdge = some e)
    (hl : e + cyclesOfUs 10 ≤ (s.pass wait).cycle) : let u := s.pass wait
    Completes (.selvedgeWriteRefusal wait) s fun t => t.pkg.pins = { u.pkg with refusing := true }.pins ∧
      t.storeRefuses = true ∧ (u.boot.phase ∉ [.append, .recordHeld] → ∀ j, (t.tile j).selv = (u.tile j).selv) ∧
      s.ChangesOnly [.time, .free, .tiles, .ports, .atria, .pkg, .pins] t := by
  intro u
  have hx := exec_selvedgeWriteRefusal he hl
  have hpins : { u.appendCut with pkg := { u.appendCut.pkg with refusing := true } }.refreshSets.pkg.pins =
      { u.pkg with refusing := true }.pins := by
    rw [State.refreshSets_pins, u.appendCut_pkg]
  refine ⟨_, hx, hpins, State.storeRefuses_of_pins hpins rfl, fun hb => ?_,
    execSelvedgeWriteRefusal_changes (List.Subset.refl _) wait hx⟩
  show ∀ j, (State.tile (State.refreshSets _) j).selv = _
  rw [State.appendCut_of_not_begun hb]
  exact (State.refreshSets_selvRests _).2 (State.recordFits_of_late he hl)

theorem pwrfailNRise_completes {s : State} {wait : Nat} (hfail : ((s.advance wait).turnTo 2).pkg.pwrfailN = false) :
    let u := (s.advance wait).turnTo 2
    Completes (.pwrfailNRise wait) s fun t =>
      t.pkg = { u.pkg with pwrfailN := true, highSince := some u.cycle } ∧
      (∀ h : Fin 32, 3 ∉ (t.head h).riser.causes) ∧ s.ChangesOnly [.time, .heads, .tiles, .pkg, .pins] t := by
  intro u
  have hx := exec_pwrfailNRise hfail
  refine ⟨_, hx, ?_, fun h => ?_, execPwrfailNRise_changes (List.Subset.refl _) wait hx⟩
  · exact (State.eachHead_changes (ps := [.heads, .tiles]) (.refl _) fun _ _ hu =>
      State.onHead_changes (by decide) _ _ hu).pkg (by decide)
  · exact State.eachHead_powerReturns _ h

theorem pwrfailEpisodeEnd_completes {s : State} {wait e c : Nat} (hfail : (s.pass wait).pkg.pwrfailN = true)
    (he : (s.pass wait).pkg.failEdge = some e) (hc : (s.pass wait).pkg.highSince = some c)
    (hl : c + cyclesOfMs 1 ≤ (s.pass wait).cycle) :
    Completes (.pwrfailEpisodeEnd wait) s fun t =>
      t.pkg.failEdge = none ∧ t.pkg.refusing = false ∧ t.storeRefuses = false ∧
        s.ChangesOnly [.time, .tiles, .ports, .sets, .atria, .pkg, .pins] t := by
  have hx := exec_pwrfailEpisodeEnd hfail he hc hl
  obtain ⟨hedge, hrefuse, hstores⟩ := State.storeTakes_of_pins (State.recordsFlushed_pins (s.pass wait).episodeOver) rfl rfl
  exact ⟨_, hx, hedge, hrefuse, hstores, execPwrfailEpisodeEnd_changes (by decide) wait hx⟩

/-- Settles O13: the four events of an episode, each by its guard. -/
theorem powerFailure : Obligations.PowerFailure := fun _ _ =>
  ⟨fun _ => pwrfail_completes, fun _ => selvedgeWriteRefusal_completes, pwrfailNRise_completes,
    fun _ _ => pwrfailEpisodeEnd_completes⟩

end Sys2Proof.Machine

end

section

namespace Sys2Proof.Machine

/-! ### The SMBus target -/

/-- Once the strap word is latched the target answers (R491). -/
theorem State.smbOn_of_phase {s : State} (h : s.boot.phase ∉ [BootPhase.held, .pll]) : s.smbOn = true := by
  simp only [List.mem_cons, List.not_mem_nil, or_false, not_or] at h
  simp [State.smbOn, State.pkgAsleep, h]

/-- What makes a message one to the target (R491, R492). -/
theorem State.smbOurs_iff {s : State} (hon : s.smbOn = true) (m : SmbHead) : s.smbOurs m = true ↔
    m.pec = true ∧ m.unit ≤ 64 ∧ m.type = 0x7F ∧ m.vendor = s.pr (s.copyOf .smbus) IdReg.MCTP_VENDOR_ID := by
  simp [State.smbOurs, hon, and_assoc]

/-- An answer without words. -/
def State.smbRefusal (code : Nat) (s : State) : State :=
  { s with smb := { s.smb with response := bytesOf 1 code ++ bytesOf 1 0 } }

theorem State.smbAnswer_nil (s : State) (code : Nat) : s.smbAnswer code [] = s.smbRefusal code := by
  unfold State.smbAnswer
  rw [List.flatMap_nil, List.append_nil]
  rfl

section

variable {s : State} {act : State → State}

theorem State.smbServe_busy (h : s.cycle < s.smb.busyTill) (k : Nat) : s.smbServe k act = s.smbRefusal 3 :=
  (if_pos h).trans (s.smbAnswer_nil 3)

theorem State.smbServe_bad (h : s.smb.busyTill ≤ s.cycle) {k : Nat} (hk : k ≠ 0) : s.smbServe k act = s.smbRefusal k :=
  (if_neg (Nat.not_lt.2 h)).trans ((if_pos hk).trans (s.smbAnswer_nil k))

theorem State.smbServe_good (h : s.smb.busyTill ≤ s.cycle) : s.smbServe 0 act = act s.smbRuns :=
  (if_neg (Nat.not_lt.2 h)).trans (if_neg (by decide))

end

/-! The form of a request (R492). -/

theorem smbForm_count {n : Nat} (h : n = 0 ∨ 12 < n) (a : Nat) : smbForm a n = 4 := if_pos h

theorem smbForm_addr {a n : Nat} (h0 : 0 < n) (h12 : n ≤ 12) (ha : a % 4 ≠ 0 ∨ 2 ^ 32 < a + 4 * n) : smbForm a n = 2 :=
  (if_neg (by omega)).trans (if_pos ha)

theorem smbForm_good {a n : Nat} (h0 : 0 < n) (h12 : n ≤ 12) (ha : a % 4 = 0) (hn : a + 4 * n ≤ 2 ^ 32) : smbForm a n = 0 :=
  (if_neg (by omega)).trans (if_neg (by omega))

/-! The words of a request. -/

/-- Word `i` of a request is read, and its bytes come after those before it. -/
def smbReadNext (a : Nat) (l : List Byte × State) (i : Nat) : List Byte × State :=
  let k := l.2.regRead .smbus (a + 4 * i)
  (l.1 ++ bytesOf 4 k.1, k.2)

theorem foldl_smbReadNext (n a : Nat) (l : List Byte × State) : (List.range n).foldl (smbReadNext a) l =
    (l.1 ++ (l.2.smbReadWords a n).1.flatMap (bytesOf 4), (l.2.smbReadWords a n).2) := by
  induction n generalizing a l with
  | zero => simp [State.smbReadWords]
  | succ n ih =>
    have hshift : (fun l i => smbReadNext a l (Nat.succ i)) = smbReadNext (a + 4) := by
      funext l i
      unfold smbReadNext
      rw [show a + 4 * i.succ = a + 4 + 4 * i by omega]
    rw [List.range_succ_eq_map, List.foldl_cons, List.foldl_map, hshift, ih]
    simp [smbReadNext, State.smbReadWords]

theorem State.smbReadWords_length (n a : Nat) (s : State) : (s.smbReadWords a n).1.length = n := by
  induction n generalizing a s with
  | zero => rfl
  | succ n ih => exact congrArg (· + 1) (ih (a + 4) _)

/-- What the words read leave, and the answer with them. -/
theorem State.smbReadWords_answer (n a : Nat) (s : State) :
    let r := (List.range n).foldl (smbReadNext a) ([], s)
    (s.smbReadWords a n).2.smbAnswer 0 (s.smbReadWords a n).1 =
      { r.2 with smb := { r.2.smb with response := bytesOf 1 0 ++ bytesOf 1 n ++ r.1 } } := by
  rw [foldl_smbReadNext]
  dsimp only
  rw [List.nil_append]
  unfold State.smbAnswer
  rw [State.smbReadWords_length]
  rfl

theorem State.smbWriteWords_state (l : List (Nat × Nat)) (s : State) :
    (s.smbWriteWords l).2 = l.foldl (fun t e => t.regWrite .smbus e.1 e.2) s := by
  induction l generalizing s with
  | nil => rfl
  | cons e l ih => exact ih _

/-- A request's words written one after the other (R492). -/
def State.smbWritten (a : Nat) (v : List Word) (s : State) : State :=
  v.zipIdx.foldl (fun t e => t.regWrite .smbus (a + 4 * e.2) e.1.toNat) s

theorem State.smbWritten_eq (a : Nat) (v : List Word) (s : State) : (s.smbWriteWords (smbWords a v)).2 = s.smbWritten a v := by
  rw [State.smbWriteWords_state]
  unfold smbWords
  rw [List.foldl_map]
  rfl

theorem smbWords_any (a : Nat) (v : List Word) : ((smbWords a v).any fun e => reservedWrite e.1 e.2) =
    v.zipIdx.any fun e => reservedWrite (a + 4 * e.2) e.1.toNat := by
  unfold smbWords
  rw [List.any_map]
  rfl

/-! ### The commands of the bus -/

/-- The words of a request are read and answered (R492). -/
def State.smbReads (a n : Nat) (s : State) : State := (s.smbReadWords a n).2.smbAnswer 0 (s.smbReadWords a n).1

/-- The words of a request are written and answered (R444, R492). -/
def State.smbWrites (a : Nat) (v : List Word) (s : State) : State :=
  if !s.holds (s.copyOf .smbus) && (smbWords a v).any (fun e => reservedWrite e.1 e.2) then s.smbAnswer 1 []
  else
    let r := s.smbWriteWords (smbWords a v)
    if r.1 then (r.2.smbAnswer (1 + Config.freeValue r.2.freeCount % 4) []).takeFree else r.2.smbAnswer 0 []

section

variable {s : State} {wait : Nat} {m : SmbHead}

theorem exec_smbusRead {n : Nat} (ho : (s.pass wait).smbOurs m = true) (hop : m.op ≠ 2) : exec (.smbusRead wait m n) s =
    .next ((s.pass wait).smbServe (if m.op ≠ 1 then 4 else smbForm m.addr n) (State.smbReads m.addr n)) := by
  show execSmbusRead wait m n s = _
  unfold execSmbusRead
  exact State.after_due _ (by simp [ho, hop])

theorem exec_smbusRead_idle {n : Nat} (h : ¬ (s.pass wait).smbOurs m = true ∨ m.op = 2) :
    exec (.smbusRead wait m n) s = .next (s.pass wait) := by
  show execSmbusRead wait m n s = _
  unfold execSmbusRead
  exact State.after_idle _ (by rcases h with h | h <;> simp [h])

theorem exec_smbusWrite {v : List Word} (ho : ((s.advance wait).turnTo 3).smbOurs m = true) (hop : m.op = 2) :
    exec (.smbusWrite wait m v) s =
      .next (((s.advance wait).turnTo 3).smbServe (smbForm m.addr v.length) (State.smbWrites m.addr v)) := by
  show execSmbusWrite wait m v s = _
  unfold execSmbusWrite
  exact State.afterIn_due _ (by simp [ho, hop])

theorem exec_smbusWrite_idle {v : List Word} (h : ¬ ((s.advance wait).turnTo 3).smbOurs m = true ∨ m.op ≠ 2) :
    exec (.smbusWrite wait m v) s = .next ((s.advance wait).turnTo 3) := by
  show execSmbusWrite wait m v s = _
  unfold execSmbusWrite
  exact State.afterIn_idle _ (by rcases h with h | h <;> simp [h])

end

/-- A request with a reserved write, served by the other copy than the holder's, writes nothing (R444). -/
theorem State.smbWrites_reserved {s : State} {a : Nat} {v : List Word} (hh : s.holds (s.copyOf .smbus) = false)
    (hr : (v.zipIdx.any fun e => reservedWrite (a + 4 * e.2) e.1.toNat) = true) : s.smbWrites a v = s.smbRefusal 1 := by
  unfold State.smbWrites
  rw [if_pos (by rw [hh, smbWords_any, hr]; rfl), State.smbAnswer_nil]

/-- Any other writes its words, and its answer says whether the store took them all (R432). -/
theorem State.smbWrites_free {s : State} {a : Nat} {v : List Word} (h : s.holds (s.copyOf .smbus) = true ∨
      (v.zipIdx.any fun e => reservedWrite (a + 4 * e.2) e.1.toNat) = false) :
    ((s.smbWriteWords (smbWords a v)).1 = false → s.smbWrites a v = (s.smbWritten a v).smbRefusal 0) ∧
    ((s.smbWriteWords (smbWords a v)).1 = true → ∃ code, code ≠ 0 ∧
      s.smbWrites a v = ((s.smbWritten a v).smbRefusal code).takeFree) := by
  have hif : ¬ ((!s.holds (s.copyOf .smbus) && (smbWords a v).any fun e => reservedWrite e.1 e.2) = true) := by
    rw [smbWords_any]
    rcases h with h | h <;> simp [h]
  unfold State.smbWrites
  rw [if_neg hif]
  dsimp only
  rw [State.smbWritten_eq]
  refine ⟨fun haway => ?_, fun haway => ⟨1 + Config.freeValue (s.smbWritten a v).freeCount % 4, by omega, ?_⟩⟩
  · rw [haway, if_neg Bool.false_ne_true, State.smbAnswer_nil]
  · rw [haway, if_pos rfl, State.smbAnswer_nil]

end Sys2Proof.Machine

end

section

namespace Sys2Proof.Machine

/-! ### The SPDM responder -/

section

variable {s : State} {act : State → State}

theorem State.spdmAfter_off (h : s.smb.spdmAlgs = false) : s.spdmAfter act = s.spdmAnswer .error := by
  unfold State.spdmAfter
  rw [h, if_neg Bool.false_ne_true]

theorem State.spdmAfter_on (h : s.smb.spdmAlgs = true) : s.spdmAfter act = act s := if_pos h

end

/-! What a read of the Selvedge words moves where no word has an upset (R435). -/

section

variable {s : State} {t : Fin 8}

theorem State.noteRecordRead_clean (hce : (s.tile t).selv.ce = []) (hue : (s.tile t).selv.ue = []) :
    s.noteRecordRead t = s := by
  unfold State.noteRecordRead
  simp [hce, hue]

theorem State.noteKeys_clean (hce : (s.tile t).selv.ce = []) (hue : (s.tile t).selv.ue = []) : s.noteKeys t = s := by
  unfold State.noteKeys State.noteWords
  simp [hce, hue]

end

/-- No word of any Selvedge store has an upset. -/
def State.SelvClean (s : State) : Prop := ∀ t : Fin 8, (s.tile t).selv.ce = [] ∧ (s.tile t).selv.ue = []

/-- What reading the measured contents moves: block 13 is the newest entry, and block 4 a key slot where no boot has set the
digest (R428, R435). -/
def State.measured (l : List (Nat × List Byte)) (s : State) : State :=
  let t := if l.any (·.1 == 13) then s.noteRecordRead (atriumTile (s.copyOf .smbus)) else s
  if t.boot.keyDigest.isEmpty && l.any (·.1 == 4) then t.noteKeys (atriumTile (strapWing t.boot.strapWord)) else t

theorem State.measured_changes (l : List (Nat × List Byte)) (s : State) : s.ChangesOnly [.atria] (s.measured l) := by
  unfold State.measured
  extract_lets t
  have ht : s.ChangesOnly [.atria] t :=
    State.ChangesOnly.ite (State.noteRecordRead_changes (List.Subset.refl _) _ (.refl s)) (.refl s)
  exact State.ChangesOnly.ite (State.noteKeys_changes (List.Subset.refl _) _ ht) ht

theorem State.measured_clean (l : List (Nat × List Byte)) {s : State} (h : s.SelvClean) : s.measured l = s := by
  have hrecord (t : Fin 8) : s.noteRecordRead t = s := State.noteRecordRead_clean (h t).1 (h t).2
  have hkeys (t : Fin 8) : s.noteKeys t = s := State.noteKeys_clean (h t).1 (h t).2
  unfold State.measured
  simp only [hrecord, hkeys, ite_self]

/-- The measurement blocks that an index asks for (R428). -/
def State.askedBlocks (s : State) (index : Nat) : List (Nat × List Byte) :=
  s.measurementBlocks.filter fun k => index == 255 || k.1 == index

theorem State.askedBlocks_eq (s : State) (index : Nat) :
    (if index = 255 then s.measurementBlocks else s.measurementBlocks.filter fun b => b.1 == index) = s.askedBlocks index := by
  unfold State.askedBlocks
  by_cases h : index = 255
  · simp [h]
  · rw [if_neg h, beq_false_of_ne h]
    rfl

theorem State.measurementBlocks_length (s : State) : s.measurementBlocks.length = 13 := rfl

/-! The payload of a VENDOR_DEFINED_REQUEST (R428). -/

theorem ofBytes_eq (l : List Byte) : ofBytes l = l.foldr (fun b v => b.toNat + 256 * v) 0 := by
  induction l with
  | nil => rfl
  | cons b l ih => exact congrArg (b.toNat + 256 * ·) ih

theorem infoField_type (l : List Byte) : infoField l 0 1 = (l.headD 0).toNat := by
  cases l with
  | nil => rfl
  | cons b l => exact Nat.add_zero _

theorem infoField_count {l : List Byte} (h : l.length = 5) : infoField l 1 4 = ofBytes (l.drop 1) := by
  rw [ofBytes_eq]
  unfold infoField
  rw [List.take_of_length_le (by simp [h])]

/-- A request is well formed: it bears the identity of the copy that serves the bus, type 1 and a BOOT_COUNT (R428). -/
def State.VendorFormed (s : State) (registry vendor : Nat) (payload : List Byte) : Prop :=
  registry = s.pr (s.copyOf .smbus) IdReg.MCTP_REGISTRY ∧ vendor = s.pr (s.copyOf .smbus) IdReg.MCTP_VENDOR_ID ∧
    payload.length = 5 ∧ payload.headD 0 = 1

theorem State.vendorFormed_iff (s : State) (registry vendor : Nat) (payload : List Byte) :
    (registry ≠ s.pr (s.copyOf .smbus) IdReg.MCTP_REGISTRY ∨ vendor ≠ s.pr (s.copyOf .smbus) IdReg.MCTP_VENDOR_ID ∨
      payload.length ≠ 5 ∨ infoField payload 0 1 ≠ 1) ↔ ¬ s.VendorFormed registry vendor payload := by
  have hone : infoField payload 0 1 = 1 ↔ payload.headD 0 = 1 := by
    rw [infoField_type]
    exact BitVec.toNat_inj (y := (1 : Byte))
  unfold State.VendorFormed
  rw [ne_eq (infoField _ _ _), hone]
  tauto

/-- The answer to a well-formed VENDOR_DEFINED_REQUEST: the entry of its BOOT_COUNT, or NOT_HELD (R428). -/
def State.vendorAnswer (s : State) (payload : List Byte) : SpdmAnswer :=
  match (s.tile (atriumTile (s.copyOf .smbus))).selv.entryOf (ofBytes (payload.drop 1)) with
  | some e => .vendor 0 e
  | none => .vendor 1 []

/-! ### The requests -/

/-- An event whose guard holds (`State.after_due`), of a command that is one. -/
theorem exec_after {i : Instr} {s : State} (o : Out) {wait : Nat} {due : State → Bool} {act : State → State}
    (ho : exec i s = o) (he : o = s.after wait due act) (h : due (s.pass wait) = true) : exec i s = .next (act (s.pass wait)) :=
  ho.trans (he.trans (State.after_due act h))

section

variable {s : State} {wait : Nat} (hon : (s.pass wait).smbOn = true)
include hon

theorem exec_getMeasurements {index : Nat} {signed : Bool} {nonce : BitVec 256} (halg : (s.pass wait).smb.spdmAlgs = true) :
    let u := s.pass wait; let l := u.askedBlocks index
    exec (.getMeasurements wait index signed nonce) s =
      .next (if index ≠ 0 ∧ l.isEmpty then u.spdmAnswer .error
        else (u.measured l).spdmAnswer (.measurements 13 l
          (if signed then some (beBytes 96 (Config.spdmSignature 2 nonce (l.flatMap (·.2))).toNat) else none))) := by
  intro u l
  refine (exec_after (execGetMeasurements wait index signed nonce s) rfl rfl hon).trans (congrArg Host.Outcome.next ?_)
  rw [State.spdmAfter_on halg]
  dsimp only
  rw [State.askedBlocks_eq]
  rfl

theorem exec_vendorDefinedRequest {registry vendor : Nat} {payload : List Byte} (halg : (s.pass wait).smb.spdmAlgs = true)
    (hf : (s.pass wait).VendorFormed registry vendor payload) : exec (.vendorDefinedRequest wait registry vendor payload) s =
      .next (((s.pass wait).noteRecordRead (atriumTile ((s.pass wait).copyOf .smbus))).spdmAnswer
        ((s.pass wait).vendorAnswer payload)) := by
  refine (exec_after (execVendorDefinedRequest wait registry vendor payload s) rfl rfl hon).trans
    (congrArg Host.Outcome.next ?_)
  rw [State.spdmAfter_on halg]
  dsimp only
  rw [if_neg (fun h => ((s.pass wait).vendorFormed_iff ..).1 h hf), infoField_count hf.2.2.1]
  unfold State.vendorAnswer
  cases ((s.pass wait).tile (atriumTile ((s.pass wait).copyOf .smbus))).selv.entryOf (ofBytes (payload.drop 1)) <;> rfl

theorem exec_vendorDefinedRequest_bad {registry vendor : Nat} {payload : List Byte}
    (halg : (s.pass wait).smb.spdmAlgs = true) (hf : ¬ (s.pass wait).VendorFormed registry vendor payload) :
    exec (.vendorDefinedRequest wait registry vendor payload) s = .next ((s.pass wait).spdmAnswer .error) := by
  refine (exec_after (execVendorDefinedRequest wait registry vendor payload s) rfl rfl hon).trans (congrArg Host.Outcome.next ?_)
  rw [State.spdmAfter_on halg]
  exact if_pos (((s.pass wait).vendorFormed_iff ..).2 hf)

end

/-- A request that reads the Selvedge store: beside the answer, only what the read moves in the Atrium copies changes. -/
theorem completes_reads {i : Instr} {s u t : State} {a : SpdmAnswer} (he : exec i s = .next (t.spdmAnswer a))
    (hu : s.ChangesOnly [.time, .tiles, .atria, .smb] (t.spdmAnswer a)) (ht : u.ChangesOnly [.atria] t)
    (hclean : u.SelvClean → t = u) : Completes i s fun y => y.smb = { u.smb with spdm := some a } ∧
      (u.SelvClean → y.atria = u.atria) ∧ s.ChangesOnly [.time, .tiles, .atria, .smb] y ∧ y.tiles = u.tiles := by
  refine ⟨_, he, ?_, fun h => ?_, hu, ht.tiles (by decide)⟩
  · show { t.smb with spdm := some a } = _
    rw [ht.smb (by decide)]
  · show t.atria = u.atria
    rw [hclean h]

end Sys2Proof.Machine

end

section

namespace Sys2Proof.Machine

/-! ### The clauses of SpdmAndSmbus -/

section

variable {s : State} {wait : Nat}

/-- SMBUS_READ (R492). -/
theorem smbusRead_answers (hon : (s.pass wait).smbOn = true) (m : SmbHead) (n : Nat) : let u := s.pass wait; let b := u.smb
    let a := m.addr
    let ours := m.pec = true ∧ m.unit ≤ 64 ∧ m.type = 0x7F ∧ m.vendor = u.pr (u.copyOf .smbus) IdReg.MCTP_VENDOR_ID
    let refused (code : Nat) : Prop :=
      exec (.smbusRead wait m n) s = .next { u with smb := { b with response := bytesOf 1 code ++ bytesOf 1 0 } }
    let u' : State := { u with
      freeCount := u.freeCount + 1, smb := { b with busyTill := u.cycle + Config.smbTime u.freeCount } }
    (¬ ours ∨ m.op = 2 → exec (.smbusRead wait m n) s = .next u) ∧
    (ours → m.op ≠ 2 → (u.cycle < b.busyTill → refused 3) ∧ (b.busyTill ≤ u.cycle →
      (m.op ≠ 1 → refused 4) ∧ (m.op = 1 →
        (n = 0 ∨ 12 < n → refused 4) ∧ (0 < n → n ≤ 12 → a % 4 ≠ 0 ∨ 2 ^ 32 < a + 4 * n → refused 2) ∧
        (0 < n → n ≤ 12 → a % 4 = 0 → a + 4 * n ≤ 2 ^ 32 →
          let r := (List.range n).foldl (smbReadNext a) ([], u')
          exec (.smbusRead wait m n) s = .next { r.2 with smb := { r.2.smb with
            response := bytesOf 1 0 ++ bytesOf 1 n ++ r.1 } })))) := by
  intro u b a ours refused u'
  have hours : u.smbOurs m = true ↔ ours := State.smbOurs_iff hon m
  refine ⟨fun h => exec_smbusRead_idle (h.imp_left fun hn ho => hn (hours.1 ho)), fun ho hop => ?_⟩
  have hx := exec_smbusRead (n := n) (hours.2 ho) hop
  have hbad {k : Nat} (hb : b.busyTill ≤ u.cycle) (hk : k ≠ 0) (h : (if m.op ≠ 1 then 4 else smbForm a n) = k) : refused k :=
    hx.trans (congrArg Host.Outcome.next ((congrArg (State.smbServe · _ _) h).trans (State.smbServe_bad hb hk)))
  refine ⟨fun hb => hx.trans (congrArg Host.Outcome.next (State.smbServe_busy hb _)), fun hb =>
    ⟨fun h1 => hbad hb (by decide) (if_pos h1), fun h1 => ?_⟩⟩
  have hform : (if m.op ≠ 1 then 4 else smbForm a n) = smbForm a n := if_neg (not_not_intro h1)
  refine ⟨fun hn => hbad hb (by decide) (hform.trans (smbForm_count hn a)),
    fun h0 h12 ha => hbad hb (by decide) (hform.trans (smbForm_addr h0 h12 ha)), fun h0 h12 ha hend => ?_⟩
  rw [hform, smbForm_good h0 h12 ha hend, State.smbServe_good hb] at hx
  exact hx.trans (congrArg Host.Outcome.next (State.smbReadWords_answer n a u'))

/-- SMBUS_WRITE (R444, R492). -/
theorem smbusWrite_answers (hon : ((s.advance wait).turnTo 3).smbOn = true) (m : SmbHead) (v : List Word) :
    let a := m.addr; let n := v.length; let u := (s.advance wait).turnTo 3; let b := u.smb
    let ours := m.pec = true ∧ m.unit ≤ 64 ∧ m.type = 0x7F ∧ m.vendor = u.pr (u.copyOf .smbus) IdReg.MCTP_VENDOR_ID
    let failed (code : Nat) (u : State) : Prop := exec (.smbusWrite wait m v) s =
      .next { u with smb := { u.smb with response := bytesOf 1 code ++ bytesOf 1 0 } }
    let u' : State := { u with
      freeCount := u.freeCount + 1, smb := { b with busyTill := u.cycle + Config.smbTime u.freeCount } }
    let held := v.zipIdx.any fun e => reservedWrite (a + 4 * e.2) e.1.toNat
    (¬ ours ∨ m.op ≠ 2 → exec (.smbusWrite wait m v) s = .next u) ∧
    (ours → m.op = 2 → (u.cycle < b.busyTill → failed 3 u) ∧ (b.busyTill ≤ u.cycle →
      (n = 0 ∨ 12 < n → failed 4 u) ∧ (0 < n → n ≤ 12 → a % 4 ≠ 0 ∨ 2 ^ 32 < a + 4 * n → failed 2 u) ∧
      (0 < n → n ≤ 12 → a % 4 = 0 → a + 4 * n ≤ 2 ^ 32 →
        (u.holds (u.copyOf .smbus) = false → held = true → failed 1 u') ∧
        (u.holds (u.copyOf .smbus) = true ∨ held = false →
          let t := v.zipIdx.foldl (fun t e => t.regWrite .smbus (a + 4 * e.2) e.1.toNat) u'
          let away := (u'.smbWriteWords (smbWords a v)).1
          (away = false → failed 0 t) ∧
          (away = true → ∃ code, code ≠ 0 ∧ failed code { t with freeCount := t.freeCount + 1 }))))) := by
  intro a n u b ours failed u' held
  have hours : u.smbOurs m = true ↔ ours := State.smbOurs_iff hon m
  refine ⟨fun h => exec_smbusWrite_idle (h.imp_left fun hn ho => hn (hours.1 ho)), fun ho hop => ?_⟩
  have hx := exec_smbusWrite (v := v) (hours.2 ho) hop
  have hbad {k : Nat} (hb : b.busyTill ≤ u.cycle) (hk : k ≠ 0) (h : smbForm a n = k) : failed k u :=
    hx.trans (congrArg Host.Outcome.next ((congrArg (State.smbServe · _ _) h).trans (State.smbServe_bad hb hk)))
  refine ⟨fun hb => hx.trans (congrArg Host.Outcome.next (State.smbServe_busy hb _)), fun hb =>
    ⟨fun hn => hbad hb (by decide) (smbForm_count hn a), fun h0 h12 ha => hbad hb (by decide) (smbForm_addr h0 h12 ha),
      fun h0 h12 ha hend => ?_⟩⟩
  rw [smbForm_good h0 h12 ha hend, State.smbServe_good hb] at hx
  refine ⟨fun hh hr => hx.trans (congrArg Host.Outcome.next (State.smbWrites_reserved (s := u') hh hr)), fun hfree => ?_⟩
  obtain ⟨htaken, hturned⟩ := State.smbWrites_free (s := u') (a := a) (v := v) hfree
  refine ⟨fun haway => hx.trans (congrArg Host.Outcome.next (htaken haway)), fun haway => ?_⟩
  obtain ⟨code, hcode, hw⟩ := hturned haway
  exact ⟨code, hcode, hx.trans (congrArg Host.Outcome.next hw)⟩

/-- GET_MEASUREMENTS and VENDOR_DEFINED_REQUEST (R428). -/
theorem getMeasurements_reads (hon : (s.pass wait).smbOn = true) (halg : (s.pass wait).smb.spdmAlgs = true) {index : Nat}
    (hi : index = 0 ∨ (s.pass wait).askedBlocks index ≠ []) (signed : Bool) (nonce : BitVec 256) :
    let u := s.pass wait; let l := u.askedBlocks index
    let a : SpdmAnswer := .measurements 13 l
      (if signed then some (beBytes 96 (Config.spdmSignature 2 nonce (l.flatMap (·.2))).toNat) else none)
    Completes (.getMeasurements wait index signed nonce) s fun y => y.smb = { u.smb with spdm := some a } ∧
      (u.SelvClean → y.atria = u.atria) ∧ s.ChangesOnly [.time, .tiles, .atria, .smb] y ∧ y.tiles = u.tiles := by
  intro u l a
  have hl : ¬ (index ≠ 0 ∧ l.isEmpty = true) := fun ⟨h0, he⟩ => hi.elim h0 fun h => h (List.isEmpty_iff.1 he)
  have hx : exec (.getMeasurements wait index signed nonce) s = .next ((u.measured l).spdmAnswer a) :=
    (exec_getMeasurements hon halg).trans (congrArg Host.Outcome.next (if_neg hl))
  exact completes_reads hx (execGetMeasurements_changes (List.Subset.refl _) wait index signed nonce hx)
    (u.measured_changes l) (State.measured_clean l)

theorem vendorDefinedRequest_reads (hon : (s.pass wait).smbOn = true) (halg : (s.pass wait).smb.spdmAlgs = true)
    {registry vendor : Nat} {payload : List Byte} (hf : (s.pass wait).VendorFormed registry vendor payload) :
    let u := s.pass wait
    Completes (.vendorDefinedRequest wait registry vendor payload) s fun y =>
      y.smb = { u.smb with spdm := some (u.vendorAnswer payload) } ∧
      (u.SelvClean → y.atria = u.atria) ∧ s.ChangesOnly [.time, .tiles, .atria, .smb] y ∧ y.tiles = u.tiles := by
  intro u
  have hx := exec_vendorDefinedRequest hon halg hf
  have hframe := execVendorDefinedRequest_changes (List.Subset.refl _) wait registry vendor payload hx
  exact completes_reads hx hframe (State.noteRecordRead_changes (List.Subset.refl _) _ (.refl u))
    fun h => State.noteRecordRead_clean (h _).1 (h _).2

end

/-- Settles O54: each request by its guard, its form, and what it reads. -/
theorem spdmAndSmbus : Obligations.SpdmAndSmbus := by
  unfold Obligations.SpdmAndSmbus
  intro s wait u b answers hphase
  have hon : u.smbOn = true := State.smbOn_of_phase hphase
  have hboot : ((s.advance wait).turnTo 3).boot = (s.advance wait).boot :=
    (State.turnTo_changes (ps := [.time, .tiles]) (List.Subset.refl _) 3 (.refl _)).boot (by decide)
  have hon3 : ((s.advance wait).turnTo 3).smbOn = true := State.smbOn_of_phase (hboot ▸ hphase)
  have hanswer {i : Instr} {act : State → State} {t : State} (he : exec i s = .next (u.spdmAfter act))
      (halg : b.spdmAlgs = true) (ht : act u = t) : exec i s = .next t :=
    he.trans (congrArg Host.Outcome.next ((State.spdmAfter_on halg).trans ht))
  have herror {i : Instr} {act : State → State} (he : exec i s = .next (u.spdmAfter act)) (halg : b.spdmAlgs = false) :
      answers i .error := he.trans (congrArg Host.Outcome.next (State.spdmAfter_off halg))
  refine ⟨smbusRead_answers hon, smbusWrite_answers hon3,
    fun hlow => exec_after (execAlertResponse wait s) rfl rfl (by simp [hon, hlow, u]),
    fun low hlow => exec_after (execSmbusClockTimeout wait low s) rfl rfl (by simp [hon, hlow, u]), exec_after (execGetVersion wait s) rfl rfl hon, fun hv => ?_, fun hv => ?_,
    fun p384 sha384 => ⟨fun hc => ?_, fun hc => ?_⟩, ?_⟩
  · exact (exec_after (execGetCapabilities wait s) rfl rfl hon).trans (congrArg Host.Outcome.next (if_pos hv))
  · exact (exec_after (execGetCapabilities wait s) rfl rfl hon).trans (congrArg Host.Outcome.next (if_neg (ne_true_of_eq_false hv)))
  · exact (exec_after (execNegotiateAlgorithms wait p384 sha384 s) rfl rfl hon).trans (congrArg Host.Outcome.next (if_neg (ne_true_of_eq_false hc)))
  · exact (exec_after (execNegotiateAlgorithms wait p384 sha384 s) rfl rfl hon).trans (congrArg Host.Outcome.next (if_pos hc))
  intro slot offset length nonce signed registry vendor payload chain part w store zero blocks asked sign formed reads
  have hdigests : exec (.getDigests wait) s = .next (u.spdmAfter _) := exec_after (execGetDigests wait s) rfl rfl hon
  have hcert : exec (.getCertificate wait slot offset length) s = .next (u.spdmAfter _) :=
      exec_after (execGetCertificate wait slot offset length s) rfl rfl hon
  have hchallenge : exec (.challenge wait slot nonce) s = .next (u.spdmAfter _) := exec_after (execChallenge wait slot nonce s) rfl rfl hon
  have hmeas : exec (.getMeasurements wait slot signed nonce) s = .next (u.spdmAfter _) :=
      exec_after (execGetMeasurements wait slot signed nonce s) rfl rfl hon
  have hvendor : exec (.vendorDefinedRequest wait registry vendor payload) s = .next (u.spdmAfter _) :=
      exec_after (execVendorDefinedRequest wait registry vendor payload s) rfl rfl hon
  refine ⟨fun halg => ⟨herror hdigests halg, herror hcert halg, herror hchallenge halg, herror hmeas halg,
    herror hvendor halg⟩, fun halg => ⟨hanswer hdigests halg rfl, fun h => hanswer hcert halg (if_pos h),
    fun h0 hlen => hanswer hcert halg (if_neg (not_or_intro (not_not_intro h0) (Nat.not_le.2 hlen))),
      fun h => hanswer hchallenge halg (if_pos h),
    fun h => hanswer hchallenge halg (if_neg (not_not_intro h)), fun h0 he => ?_, fun hi => ?_, fun hf => ?_, fun hf => ?_⟩⟩
  · exact (exec_getMeasurements hon halg).trans (congrArg Host.Outcome.next (if_pos ⟨h0, List.isEmpty_iff.2 he⟩))
  · exact getMeasurements_reads hon halg hi signed nonce
  · exact exec_vendorDefinedRequest_bad hon halg hf
  · exact vendorDefinedRequest_reads hon halg hf

end Sys2Proof.Machine

end

section

namespace Sys2Proof.Machine

/-! ### What the commands and records of a set leave steady

A set's rules read the reset, the heat and the links of the tiles, and the words of their Selvedge stores (R304, R314). What
follows says once which of these an operation keeps, and outside which fields it keeps the package block. -/

/-- No field of the list lies in the place of `f`. -/
def Fld.Outside (fs : List Fld) (f : Fld) : Prop := ∀ g ∈ fs, f.key ≠ g.key

/-- What a record of wear changes (R434). -/
def wearFields : List Fld := [BootReg.WEAR_WARN, BootReg.WEAR_MAX_LO, BootReg.WEAR_MAX_HI, BootReg.WEAR_TILE]

/-- What the event log changes besides (R452, R453). -/
def eventFields : List Fld := (List.range 8).flatMap fun l => [EvReg.EV_SEQ l, EvReg.EV_DROP l, EvReg.EV_NEW l]

/-- `y` is `x` in what the rules of a set read of a tile, its Selvedge store apart. -/
def Tile.Steady (x y : Tile) : Prop :=
  y.inReset = x.inReset ∧ y.heat = x.heat ∧ y.journalUe = x.journalUe ∧
  (x.journalBuf.bad 0 (2 ^ 32) = false → y.journalBuf.bad 0 (2 ^ 32) = false) ∧
  ∀ k : Fin 3, y.r (LinkReg.LSTATE k) = x.r (LinkReg.LSTATE k)

/-- Steady, with the Selvedge store as it was. -/
def Tile.Plain (x y : Tile) : Prop := x.Steady y ∧ y.selv = x.selv

/-- `t` is `s` in what the rules of a set read: outside the fields `fs` of the package block, of which the persistent ones may
have been written anew, and, under `j`, in the journal regions of the Selvedge stores. -/
def State.Steady (j : Prop) (fs : List Fld) (s t : State) : Prop :=
  t.storeRefuses = s.storeRefuses ∧ t.boot.phase = s.boot.phase ∧ (∀ n, (t.aset n).cfg = (s.aset n).cfg) ∧
  (∀ w f, f.Outside fs → (f.key = BootReg.SELV_REFUSED.key → s.storeRefuses = false) → (t.atrium w).r f = (s.atrium w).r f) ∧
  (∀ k a, (∀ g ∈ fs, g.persist = true → keptAddr a ≠ g.off) → t.lostWord k a = s.lostWord k a) ∧
  (∀ k a, t.lostWord k a = true → s.lostWord k a = true) ∧
  (∀ k, (s.tile k).Steady (t.tile k)) ∧
  (j → ∀ k w, journalWord ≤ w → (t.tile k).selv.read w = (s.tile k).selv.read w)

theorem Tile.Steady.refl (x : Tile) : x.Steady x := ⟨rfl, rfl, rfl, id, fun _ => rfl⟩

theorem Tile.Steady.trans {x y z : Tile} (h : x.Steady y) (k : y.Steady z) : x.Steady z := by
  obtain ⟨hr, hh, hu, hb, hl⟩ := h
  obtain ⟨kr, kh, ku, kb, kl⟩ := k
  exact ⟨kr.trans hr, kh.trans hh, ku.trans hu, kb ∘ hb, fun i => (kl i).trans (hl i)⟩

theorem Tile.Plain.refl (x : Tile) : x.Plain x := ⟨.refl x, rfl⟩

theorem Tile.Plain.trans {x y z : Tile} (h : x.Plain y) (k : y.Plain z) : x.Plain z := ⟨h.1.trans k.1, k.2.trans h.2⟩

/-- A register that is none of LSTATE is written. -/
theorem Tile.plain_w (x : Tile) {g : Fld} (v : Nat) (hg : outKeys [(0x700000 * 32, 0x700002 * 32), (0x700010 * 32, 0x700012 * 32),
    (0x700020 * 32, 0x700022 * 32)] g.key = true) : x.Plain (x.w g v) := by
  refine ⟨⟨rfl, rfl, rfl, id, fun k => Tile.r_w_ne x v fun h => ?_⟩, rfl⟩
  rw [← h] at hg
  revert hg
  fin_cases k <;> decide

theorem State.Steady.refl (j : Prop) (fs : List Fld) (s : State) : s.Steady j fs s :=
  ⟨rfl, rfl, fun _ => rfl, fun _ _ _ _ => rfl, fun _ _ _ => rfl, fun _ _ h => h, fun _ => .refl _, fun _ _ _ _ => rfl⟩

section

variable {j : Prop} {fs : List Fld} {s t u : State}

theorem State.Steady.trans (h : State.Steady j fs s t) (k : State.Steady j fs t u) : State.Steady j fs s u := by
  obtain ⟨h1, h2, h3, h4, h5, h6, h7, h8⟩ := h
  obtain ⟨k1, k2, k3, k4, k5, k6, k7, k8⟩ := k
  exact ⟨k1.trans h1, k2.trans h2, fun n => (k3 n).trans (h3 n),
    fun w f hf hr => (k4 w f hf fun e => h1.trans (hr e)).trans (h4 w f hf hr), fun t a ha => (k5 t a ha).trans (h5 t a ha),
    fun t a e => h6 t a (k6 t a e), fun t => (h7 t).trans (k7 t), fun hj t w hw => (k8 hj t w hw).trans (h8 hj t w hw)⟩

theorem State.Steady.foldl {α : Type} {g : State → α → State} (l : List α) (hg : ∀ s, ∀ a ∈ l, State.Steady j fs s (g s a))
    (s : State) : s.Steady j fs (l.foldl g s) := by
  induction l generalizing s with
  | nil => exact .refl j fs s
  | cons a l ih => exact (hg s a (by simp)).trans (ih (fun s b hb => hg s b (by simp [hb])) _)

theorem State.Steady.ite {c : Prop} [Decidable c] (h : State.Steady j fs s t) (k : State.Steady j fs s u) :
    State.Steady j fs s (if c then t else u) := by split <;> assumption

theorem State.Steady.mono {gs : List Fld} (h : State.Steady j gs s t) (hm : gs ⊆ fs) : State.Steady j fs s t := by
  obtain ⟨h1, h2, h3, h4, h5, h6, h7, h8⟩ := h
  exact ⟨h1, h2, h3, fun w f hf => h4 w f fun g hg => hf g (hm hg), fun t a ha => h5 t a fun g hg => ha g (hm hg), h6, h7, h8⟩

theorem State.Steady.weak {i : Prop} (h : State.Steady j fs s t) (hi : i → j) : State.Steady i fs s t := by
  obtain ⟨h1, h2, h3, h4, h5, h6, h7, h8⟩ := h
  exact ⟨h1, h2, h3, h4, h5, h6, h7, fun e => h8 (hi e)⟩

/-! ### What a steady state reads -/

theorem State.Steady.storeRefuses (h : State.Steady j fs s t) : t.storeRefuses = s.storeRefuses := h.1

theorem State.Steady.cfg (h : State.Steady j fs s t) (n : Fin 8) : (t.aset n).cfg = (s.aset n).cfg := h.2.2.1 n

theorem State.Steady.wing (h : State.Steady j fs s t) (n : Fin 8) : (t.aset n).wing = (s.aset n).wing := by
  unfold ASet.wing
  rw [h.cfg]

theorem State.Steady.field (h : State.Steady j fs s t) {f : Fld} (hf : f.Outside fs) (hr : f.key ≠ BootReg.SELV_REFUSED.key)
    (w : Fin 2) : (t.atrium w).r f = (s.atrium w).r f := h.2.2.2.1 w f hf fun e => absurd e hr

theorem State.Steady.tile (h : State.Steady j fs s t) (k : Fin 8) : (s.tile k).Steady (t.tile k) := h.2.2.2.2.2.2.1 k

theorem State.Steady.lost (h : State.Steady j fs s t) {a : Nat} (ha : ∀ g ∈ fs, g.persist = true → keptAddr a ≠ g.off)
    (k : Fin 8) : t.lostWord k a = s.lostWord k a := h.2.2.2.2.1 k a ha

theorem State.Steady.found (h : State.Steady j fs s t) {k : Fin 8} {a : Nat} (hs : s.lostWord k a = false) :
    t.lostWord k a = false := by
  obtain ⟨-, -, -, -, -, h6, -⟩ := h
  cases e : t.lostWord k a with
  | false => rfl
  | true => rw [h6 k a e] at hs; cases hs

theorem State.Steady.journal (h : State.Steady j fs s t) (hj : j) (k : Fin 8) {w : Nat} (hw : journalWord ≤ w) :
    (t.tile k).selv.read w = (s.tile k).selv.read w := h.2.2.2.2.2.2.2 hj k w hw

theorem State.Steady.keepsFields (h : State.Steady j fs s t) (w : Fin 2) {l : List Fld} (hl : fs ⊆ l)
    (hr : s.storeRefuses = false ∨ BootReg.SELV_REFUSED ∈ l) : (s.atrium w).KeepsFields (t.atrium w) l := fun f _ hf =>
  h.2.2.2.1 w f (fun g hg => hf g (hl hg)) fun e => hr.resolve_right fun hm => hf _ hm e

theorem State.Steady.asleep (h : State.Steady j fs s t) (k : Fin 8) : t.asleep k = s.asleep k := by
  unfold State.asleep
  rw [(h.tile k).1, h.2.1]

theorem State.Steady.tileUp (h : State.Steady j fs s t) (k : Fin 8) : t.tileUp k = s.tileUp k := by
  unfold State.tileUp
  rw [h.asleep, (h.tile k).2.1]

theorem State.Steady.primaryUp (h : State.Steady j fs s t) (n : Fin 8) : t.primaryUp n = s.primaryUp n := by
  unfold State.primaryUp
  rw [h.cfg, h.tileUp, h.storeRefuses]

theorem State.Steady.linkUp (h : State.Steady j fs s t) (a : Fin 8) (k : Fin 3) : t.linkUp a k = s.linkUp a k := by
  unfold State.linkUp
  rw [(h.tile a).2.2.2.2, (h.tile _).2.2.2.2]

theorem State.Steady.pathUp (h : State.Steady j fs s t) (p : List (Fin 8)) : ∀ a, t.pathUp a p = s.pathUp a p := by
  induction p with
  | nil => intro a; rfl
  | cons b l ih =>
    intro a
    simp only [State.pathUp, h.linkUp, ih]

theorem State.Steady.paths (h : State.Steady j fs s t) (b : Fin 8) (n : Nat) : ∀ a seen, t.paths b n a seen = s.paths b n a seen := by
  induction n with
  | zero => intro a seen; rfl
  | succ n ih =>
    intro a seen
    simp only [State.paths, h.linkUp, ih]

theorem State.Steady.reaches (h : State.Steady j fs s t) (a b : Fin 8) : t.reaches a b = s.reaches a b := by
  unfold State.reaches State.route
  simp only [h.pathUp, h.paths]

theorem State.Steady.mirrorUp (h : State.Steady j fs s t) (n : Fin 8) : t.mirrorUp n = s.mirrorUp n := by
  unfold State.mirrorUp
  dsimp only
  rw [h.primaryUp, h.cfg, h.asleep, h.reaches]

theorem State.Steady.split (h : State.Steady j fs s t) (hs : AuthReg.SPLIT.Outside fs) : t.split = s.split := by
  have hf (w : Fin 2) : (t.atrium w).b AuthReg.SPLIT = (s.atrium w).b AuthReg.SPLIT :=
    congrArg (· != 0) (h.field hs (by decide) w)
  unfold State.split
  rw [hf, hf]

theorem State.Steady.pr (h : State.Steady j fs s t) {f : Fld} (hf : f.Outside fs) (hr : f.key ≠ BootReg.SELV_REFUSED.key)
    (hk : f.persist = true → ∀ g ∈ fs, g.persist = true → keptAddr f.off ≠ g.off) (w : Fin 2) : t.pr w f = s.pr w f := by
  have hreg : (t.atrium w).regs.rd f = (s.atrium w).regs.rd f := h.field hf hr w
  unfold State.pr
  rw [hreg]
  cases hp : f.persist with
  | false => rfl
  | true => rw [h.lost (hk hp)]

theorem State.Steady.sr (h : State.Steady j fs s t) {f : Nat → Fld} {n : Fin 8} (hf : (f n).Outside fs)
    (hr : (f n).key ≠ BootReg.SELV_REFUSED.key)
    (hk : (f n).persist = true → ∀ g ∈ fs, g.persist = true → keptAddr (f n).off ≠ g.off) : t.sr n f = s.sr n f := by
  unfold State.sr
  rw [h.wing, h.pr hf hr hk]

end

end Sys2Proof.Machine

end

section

namespace Sys2Proof.Machine

/-! ### The parts of the state one at a time -/

variable {j : Prop} {fs : List Fld}

/-- Neither the registers nor what else the rules of a set read differ. -/
theorem Tile.Plain.of {x y : Tile} (hr : y.regs = x.regs) (hreset : y.inReset = x.inReset) (hheat : y.heat = x.heat)
    (hue : y.journalUe = x.journalUe) (hbuf : y.journalBuf = x.journalBuf) (hselv : y.selv = x.selv) : x.Plain y :=
  ⟨⟨hreset, hheat, hue, fun h => hbuf ▸ h, fun _ => by unfold Tile.r; rw [hr]⟩, hselv⟩

/-- A flag that is none of LSTATE is set. -/
theorem Tile.plain_flag (x : Tile) {g : Fld} (hg : outKeys [(0x700000 * 32, 0x700002 * 32), (0x700010 * 32, 0x700012 * 32),
    (0x700020 * 32, 0x700022 * 32)] g.key = true) : x.Plain (x.flag g) := Tile.plain_w x 1 hg

/-- A counter that is none of LSTATE advances. -/
theorem Tile.plain_bump (x : Tile) {g : Fld} (n : Nat) (hg : outKeys [(0x700000 * 32, 0x700002 * 32), (0x700010 * 32, 0x700012 * 32),
    (0x700020 * 32, 0x700022 * 32)] g.key = true) : x.Plain (x.bump g n) := Tile.plain_w x _ hg

theorem State.onTile_steady (s : State) (t : Fin 8) {f : Tile → Tile} (hf : (s.tile t).Plain (f (s.tile t))) :
    s.Steady j fs (s.onTile t f) := by
  have htile (k : Fin 8) : (s.tile k).Plain ((s.onTile t f).tile k) := by
    by_cases hk : k = t
    · subst hk
      rw [State.onTile_tile]
      exact hf
    · rw [State.onTile_def, State.setTile_tile_ne _ _ _ _ hk]
      exact .refl _
  have hlost (k : Fin 8) (a : Nat) : (s.onTile t f).lostWord k a = s.lostWord k a := by
    unfold State.lostWord
    rw [(htile k).2]
  exact ⟨rfl, rfl, fun _ => rfl, fun _ _ _ _ => rfl, fun k a _ => hlost k a, fun k a h => (hlost k a).symm.trans h,
    fun k => (htile k).1, fun _ k w _ => by rw [(htile k).2]⟩

theorem State.onSet_steady (s : State) (n : Fin 8) {f : ASet → ASet} (hf : (f (s.aset n)).cfg = (s.aset n).cfg) :
    s.Steady j fs (s.onSet n f) := by
  refine ⟨rfl, rfl, fun k => ?_, fun _ _ _ _ => rfl, fun _ _ _ => rfl, fun _ _ h => h, fun _ => .refl _, fun _ _ _ _ => rfl⟩
  by_cases hk : k = n
  · subst hk
    rw [State.onSet_aset, hf]
  · rw [State.onSet_aset_ne _ _ _ _ hk]

theorem State.onPort_steady (s : State) (p : Fin 16) (f : PortSt → PortSt) : s.Steady j fs (s.onPort p f) :=
  ⟨rfl, rfl, fun _ => rfl, fun _ _ _ _ => rfl, fun _ _ _ => rfl, fun _ _ h => h, fun _ => .refl _, fun _ _ _ _ => rfl⟩

theorem State.onCtrl_steady (s : State) (p : Fin 16) (c : Nat) (f : Ctrl → Ctrl) : s.Steady j fs (s.onCtrl p c f) :=
  State.onPort_steady _ _ _

theorem State.alert_steady (s : State) (b : Bool) : s.Steady j fs { s with pkg := { s.pkg with alertN := b } } :=
  ⟨rfl, rfl, fun _ => rfl, fun _ _ _ _ => rfl, fun _ _ _ => rfl, fun _ _ h => h, fun _ => .refl _, fun _ _ _ _ => rfl⟩

theorem State.onAtrium_steady (s : State) (w : Fin 2) {g : Atrium → Atrium}
    (hg : ∀ a f, f.Outside fs → (f.key = BootReg.SELV_REFUSED.key → s.storeRefuses = false) → (g a).r f = a.r f) :
    s.Steady j fs (s.onAtrium w g) :=
  ⟨rfl, rfl, fun _ => rfl, fun k f hf hr => State.onAtrium_kept s w (fun a => hg a f hf hr) k, fun _ _ _ => rfl,
    fun _ _ h => h, fun _ => .refl _, fun _ _ _ _ => rfl⟩

theorem State.onPkg_steady (s : State) (w : Fin 2) {g : RegFile → RegFile}
    (hg : ∀ rf f, f.Outside fs → (f.key = BootReg.SELV_REFUSED.key → s.storeRefuses = false) → (g rf).rd f = rf.rd f) :
    s.Steady j fs (s.onPkg w g) := by
  unfold State.onPkg
  split
  · exact State.onAtrium_steady s w fun a => hg a.regs
  · exact (State.onAtrium_steady s 0 (g := fun a => { a with regs := g a.regs }) fun a => hg a.regs).trans
      (State.onAtrium_steady _ 1 (g := fun a => { a with regs := g a.regs }) fun a => hg a.regs)

/-- A field of the list takes a value. -/
theorem State.onPkg_wr_steady (s : State) (w : Fin 2) {g : Fld} (v : Nat) (hg : g ∈ fs) :
    s.Steady j fs (s.onPkg w (·.wr g v)) := State.onPkg_steady s w fun rf _ hf _ => rf.rd_wr_ne v (hf g hg)

theorem State.pset_steady (s : State) (w : Fin 2) {g : Fld} (hg : g ∈ fs) : s.Steady j fs (s.pset w g) :=
  State.onPkg_wr_steady s w 1 hg

/-- A refusal shows in SELV_REFUSED, which is not written where the stores take writes. -/
theorem State.refused_steady {s : State} (hs : s.storeRefuses = true) (w : Fin 2) :
    s.Steady j fs (s.pset w BootReg.SELV_REFUSED) :=
  State.onPkg_steady s w fun rf f _ hr => rf.rd_wr_ne 1 fun e => by rw [hs] at hr; cases hr e

/-! ### The Selvedge stores -/

/-- A field of the wear record is in every list that follows. -/
theorem State.noteWear_steady (hw : wearFields ⊆ fs) (s : State) (t : Fin 8) (w : Nat) : s.Steady j fs (s.noteWear t w) := by
  unfold State.noteWear State.refreshWear
  dsimp only
  split
  · split
    · refine (State.pset_steady s _ (hw (by decide))).trans (State.onPkg_steady _ _ fun rf f hf _ => ?_)
      rw [RegFile.rd_wr_ne _ _ (hf _ (hw (by decide))), RegFile.rd_wr_ne _ _ (hf _ (hw (by decide))),
        RegFile.rd_wr_ne _ _ (hf _ (hw (by decide)))]
    · exact .refl j fs s
  · exact .refl j fs s

/-- The kept words lie below the logs. -/
theorem keptAt_lt {t : Fin 8} {a i : Nat} (h : keptAt t a = some i) : i < 0x100 := by
  have hlen : ∀ t : Fin 8, (keptWords t).length ≤ 0x100 := by decide
  have hi : i < (keptWords t).length := by
    unfold keptAt at h
    rw [List.idxOf?_eq_some_iff] at h
    exact h.1
  exact hi.trans_le (hlen t)

theorem Selvedge.ue_write (x : Selvedge) (w : Nat) (v : DWord) {k : Nat} (hk : k ≠ w) :
    (x.write w v).ue.contains k = x.ue.contains k := by
  simp [Selvedge.write, hk]

theorem Selvedge.read_write_ne (x : Selvedge) {w k : Nat} (v : DWord) (hk : k ≠ w) : (x.write w v).read k = x.read k := by
  unfold Selvedge.read
  rw [Selvedge.ue_write x w v hk]
  unfold Selvedge.write readDW writeDW
  dsimp only
  split
  · rfl
  split
  · rw [lookupKey_erase_ne _ hk]
  · rw [lookupKey_insert_ne _ _ hk]

theorem Selvedge.read_write_self (x : Selvedge) (w : Nat) (v : DWord) : (x.write w v).read w = v := by
  unfold Selvedge.read
  have hue : (x.write w v).ue.contains w = false := by simp [Selvedge.write]
  rw [hue]
  unfold Selvedge.write readDW writeDW
  dsimp only
  split
  · contradiction
  split
  next h => rw [lookupKey_erase_self, h]; rfl
  · rw [lookupKey_insert_self]; rfl

/-- A word of a store is lost as its kept words' bits say. -/
theorem State.lostWord_eq (s : State) (t : Fin 8) (a : Nat) :
    s.lostWord t a = (keptAt t a).any fun w => (s.tile t).selv.ue.contains w := by
  unfold State.lostWord
  cases h : (s.tile t).selv.ue with
  | nil => cases keptAt t a <;> simp
  | cons x l => simp

/-- A change of one tile's store that keeps the bits of every kept word. -/
theorem State.onSelv_steady (s : State) (t : Fin 8) {f : Selvedge → Selvedge}
    (hk : ∀ a i, (∀ g ∈ fs, g.persist = true → keptAddr a ≠ g.off) → keptAt t a = some i →
      (f (s.tile t).selv).ue.contains i = (s.tile t).selv.ue.contains i)
    (hue : ∀ i, (f (s.tile t).selv).ue.contains i = true → (s.tile t).selv.ue.contains i = true)
    (hj : j → ∀ w, journalWord ≤ w → (f (s.tile t).selv).read w = (s.tile t).selv.read w) :
    s.Steady j fs (s.onTile t fun x => { x with selv := f x.selv }) := by
  have hother {k : Fin 8} (h : k ≠ t) : (s.onTile t fun x => { x with selv := f x.selv }).tile k = s.tile k := by
    rw [State.onTile_def, State.setTile_tile_ne _ _ _ _ h]
  refine ⟨rfl, rfl, fun _ => rfl, fun _ _ _ _ => rfl, fun k a ha => ?_, fun k a h => ?_, fun k => ?_, fun h k w hw => ?_⟩
  · rw [State.lostWord_eq, State.lostWord_eq]
    by_cases h : k = t
    · subst h
      rw [State.onTile_tile]
      cases e : keptAt k a with
      | none => rfl
      | some i => exact hk a i ha e
    · rw [hother h]
  · rw [State.lostWord_eq] at h ⊢
    by_cases h' : k = t
    · subst h'
      rw [State.onTile_tile] at h
      cases e : keptAt k a with
      | none => rw [e] at h; cases h
      | some i => rw [e] at h; exact hue i h
    · rw [hother h'] at h
      exact h
  · by_cases h : k = t
    · subst h
      rw [State.onTile_tile]
      exact .refl _
    · rw [hother h]
      exact .refl _
  · by_cases h' : k = t
    · subst h'
      rw [State.onTile_tile]
      exact hj h w hw
    · rw [hother h']

theorem State.selvWrite_steady (hw : wearFields ⊆ fs) (s : State) (t : Fin 8) {w : Nat} (v : DWord) (hlo : 0x100 ≤ w)
    (hj : j → w < journalWord) : s.Steady j fs (s.selvWrite t w v) := by
  unfold State.selvWrite
  split
  next h => exact State.refused_steady h _
  · refine State.Steady.trans (State.onSelv_steady s t (f := fun x => x.write w v) (fun a i _ hi => ?_) (fun i hi => ?_)
      fun h k hk => ?_) (State.noteWear_steady hw _ t w)
    · exact Selvedge.ue_write _ _ _ ((keptAt_lt hi).trans_le hlo).ne
    · simp only [Selvedge.write, List.contains_iff_mem, List.mem_filter] at hi ⊢
      exact hi.1
    · exact Selvedge.read_write_ne _ _ ((hj h).trans_le hk).ne'

theorem State.selvWrites_steady (hw : wearFields ⊆ fs) (t : Fin 8) (l : List DWord) : ∀ (s : State) {w : Nat}, 0x100 ≤ w →
    (j → w + l.length ≤ journalWord) → s.Steady j fs (s.selvWrites t w l) := by
  induction l with
  | nil => exact fun s _ _ _ => .refl j fs s
  | cons v l ih =>
    intro s w hlo hj
    simp only [List.length_cons] at hj
    exact (State.selvWrite_steady hw s t v hlo fun h => by have := hj h; omega).trans
      (ih _ (by omega) fun h => by have := hj h; omega)

/-- The word that keeps a persistent field of the list is written. -/
theorem State.keep_steady (hw : wearFields ⊆ fs) (s : State) (t : Fin 8) {g : Fld} (hg : g ∈ fs) (hp : g.persist = true) :
    s.Steady j fs (s.keep t g.off) := by
  unfold State.keep
  split
  · exact .refl j fs s
  next i hi =>
    rw [List.idxOf?_eq_some_iff] at hi
    obtain ⟨hlen, hat, -⟩ := hi
    refine State.Steady.trans (State.onSelv_steady s t (f := fun x => { x with
        wear := insertKey i (satAdd 48 ((lookupKey i x.wear).getD 0) 1) x.wear
        ce := x.ce.filter (· ≠ i), ue := x.ue.filter (· ≠ i) }) (fun a k ha hk => ?_) (fun k hk => ?_) fun _ w hlo => ?_)
      (State.noteWear_steady hw _ t i)
    · have hne : k ≠ i := by
        rintro rfl
        unfold keptAt at hk
        rw [List.idxOf?_eq_some_iff] at hk
        obtain ⟨hlen', hat', -⟩ := hk
        refine ha g hg hp ?_
        exact hat'.symm.trans hat
      simp [hne]
    · simp only [List.contains_iff_mem, List.mem_filter] at hk ⊢
      exact hk.1
    · have hne : w ≠ i := by
        have hmax : ∀ t : Fin 8, (keptWords t).length ≤ 0x100 := by decide
        have := hmax t
        have : journalWord = 655360 := by decide
        omega
      simp [Selvedge.read, hne]

theorem State.keepPkg_steady (hw : wearFields ⊆ fs) (s : State) (w : Fin 2) {g : Fld} (hg : g ∈ fs) (hp : g.persist = true) :
    s.Steady j fs (s.keepPkg w g.off) := by
  unfold State.keepPkg
  split
  · exact State.keep_steady hw s _ hg hp
  · exact (State.keep_steady hw s _ hg hp).trans (State.keep_steady hw _ _ hg hp)

theorem State.pw_steady (hw : wearFields ⊆ fs) (s : State) (w : Fin 2) {g : Fld} (v : Nat) (hg : g ∈ fs) :
    s.Steady j fs (s.pw w g v) := by
  unfold State.pw
  split
  next hp =>
    split
    next h => exact State.refused_steady h _
    · exact (State.onPkg_wr_steady s w v hg).trans (State.keepPkg_steady hw _ w hg hp)
  · exact State.onPkg_wr_steady s w v hg

/-- A field that does not persist. -/
theorem State.pw_volatile_steady (s : State) (w : Fin 2) {g : Fld} (v : Nat) (hg : g ∈ fs) (hp : g.persist = false) :
    s.Steady j fs (s.pw w g v) := by
  unfold State.pw
  rw [hp]
  exact State.onPkg_wr_steady s w v hg

end Sys2Proof.Machine

end

section

namespace Sys2Proof.Machine

variable {j : Prop} {fs : List Fld}

/-! ### The event log -/

theorem State.writeRecord_steady (hw : wearFields ⊆ fs) (he : eventFields ⊆ fs) (s : State) (l : Fin 8) (r : LogRec) :
    s.Steady j fs (s.writeRecord l r) := by
  have hl : ∀ g ∈ [EvReg.EV_SEQ l, EvReg.EV_DROP l, EvReg.EV_NEW l], g ∈ fs := fun g hg =>
    he (List.mem_flatMap.2 ⟨l, List.mem_range.2 l.isLt, hg⟩)
  have hlog (seq : Nat) : 0x100 ≤ logWord seq ∧ logWord seq + 4 ≤ journalWord := by
    have : journalWord = 655360 := by decide
    have := Nat.mod_lt seq (show 20480 > 0 by decide)
    unfold logWord
    omega
  unfold State.writeRecord
  extract_lets wing seq lg window merges rep w ws s1 s2 s3
  split
  next hr =>
    exact (State.refused_steady hr wing).trans
      (State.onPkg_steady _ wing fun rf f hf _ => rf.rd_wr_ne _ (hf (EvReg.EV_DROP l) (hl _ (by simp))))
  split
  · split
    · exact .refl j fs s
    next n _ =>
      have hn (q : Nat) (v : DWord) : s.Steady j fs (s.selvWrite l (logWord q) v) :=
        State.selvWrite_steady hw s l v (hlog q).1 fun _ => by have := (hlog q).2; omega
      refine (hn ((seq + 2 ^ 32 - 1) % 2 ^ 32) ((n.words rep 0).headD 0)).trans ?_
      exact State.onTile_steady _ l (.of rfl rfl rfl rfl rfl rfl)
  · obtain ⟨hlo, hhi⟩ : 0x100 ≤ w ∧ w + 4 ≤ journalWord := hlog seq
    have hlen : (ws.drop 1).length = 3 := rfl
    have hwords : s.Steady j fs s1 := (State.selvWrite_steady hw s l 0 hlo fun _ => by omega).trans
      (State.selvWrites_steady hw l (ws.drop 1) _ (by omega) fun _ => by omega)
    have hheader : s1.Steady j fs s2 := State.selvWrite_steady hw s1 l _ hlo fun _ => by omega
    have hlogger : s2.Steady j fs s3 := State.onTile_steady s2 l (.of rfl rfl rfl rfl rfl rfl)
    refine ((hwords.trans hheader).trans hlogger).trans (State.onPkg_steady s3 wing fun rf f hf _ => ?_)
    rw [RegFile.set, RegFile.rd_wr_ne _ _ (hf _ (hl _ (by simp))), RegFile.rd_wr_ne _ _ (hf _ (hl _ (by simp)))]

theorem State.log_steady (hw : wearFields ⊆ fs) (he : eventFields ⊆ fs) (s : State) (t : Fin 8) (code unit arg0 arg1 : Nat) :
    s.Steady j fs (s.log t code unit arg0 arg1) := by
  unfold State.log State.logIn
  split
  · exact State.writeRecord_steady hw he _ _ _
  · exact State.onTile_steady _ _ (.of rfl rfl rfl rfl rfl rfl)

/-! ### Errors of a memory -/

/-- Only the registers, and the leaks settled, differ. -/
def Tile.RegsOnly (x y : Tile) : Prop := ∃ rf ms, y = { x with regs := rf, leakMs := ms }

theorem Tile.RegsOnly.w {x y : Tile} (h : x.RegsOnly y) (f : Fld) (v : Nat) : x.RegsOnly (y.w f v) := by
  obtain ⟨rf, ms, rfl⟩ := h
  exact ⟨rf.wr f v, ms, rfl⟩

theorem Tile.RegsOnly.plain {x y : Tile} (h : x.RegsOnly y) (hl : ∀ k : Fin 3, y.r (LinkReg.LSTATE k) = x.r (LinkReg.LSTATE k)) :
    x.Plain y := by
  obtain ⟨rf, ms, rfl⟩ := h
  exact ⟨⟨rfl, rfl, rfl, id, hl⟩, rfl⟩

theorem Tile.RegsOnly.refl (x : Tile) : x.RegsOnly x := ⟨x.regs, x.leakMs, rfl⟩

theorem Tile.regsOnly_settleLeak (x : Tile) : x.RegsOnly x.settleLeak := by
  have hleak (n : Nat) : x.RegsOnly (x.leak n) := (((Tile.RegsOnly.refl x).w _ _).w _ _).w _ _
  unfold Tile.settleLeak
  split
  · obtain ⟨rf, ms, h⟩ := hleak (x.leakNow - x.leakMs)
    rw [h]
    exact ⟨rf, _, rfl⟩
  · exact .refl x

theorem Tile.regsOnly_noteCe (k : MemKind) (addr : Nat) (x : Tile) : x.RegsOnly (x.noteCe k addr) := by
  unfold Tile.noteCe
  extract_lets y b z
  have hy : x.RegsOnly y := (Tile.regsOnly_settleLeak x).w _ _
  have hz : x.RegsOnly z := by
    unfold z
    split
    · exact (hy.w k.ovf 1).w _ _
    · exact hy.w _ _
  split
  · exact hz.w _ _
  split
  · exact hz.w _ _
  · exact ((((((hz.w _ _).w _ _).w _ _).w _ _).w _ _).w _ _).w _ _

theorem Tile.plain_noteCe (k : MemKind) (addr : Nat) (x : Tile) : x.Plain (x.noteCe k addr) :=
  (Tile.regsOnly_noteCe k addr x).plain fun i => (Tile.noted_noteCe k addr x).field _ (by fin_cases i <;> decide)

theorem State.noteUe_steady (hw : wearFields ⊆ fs) (he : eventFields ⊆ fs) (t : Fin 8) (k : MemKind) (addr : Nat) (src : UeSrc)
    (s : State) : s.Steady j fs (s.noteUe t k addr src) := by
  unfold State.noteUe
  extract_lets x s1 s2
  have h1 : s.Steady j fs s1 := State.onTile_steady s t (Tile.plain_w _ _ (by decide))
  have h2 : s1.Steady j fs s2 := by
    unfold s2
    split
    · exact .refl j fs s1
    · exact State.onTile_steady _ t
        (((((Tile.plain_w _ _ (by decide)).trans (Tile.plain_w _ _ (by decide))).trans (Tile.plain_w _ _ (by decide))).trans
          (Tile.plain_w _ _ (by decide))).trans (Tile.plain_w _ _ (by decide)))
  exact (h1.trans h2).trans (State.log_steady hw he _ _ _ _ _ _)

/-- A read of an SRAM without an uncorrectable byte moves the registers of its tile alone. -/
theorem State.noteSram_weak_steady (t : Fin 8) (m : Mem) (a n : Nat) (addr : Nat → Nat) (src : UeSrc) (s : State)
    (hm : m.bad a n = false) : s.Steady j fs (s.noteSram t m a n addr src) := by
  have hnone : m.badAt a n = none := by
    unfold Mem.bad at hm
    exact Option.not_isSome_iff_eq_none.1 (by simp [hm])
  unfold State.noteSram
  rw [hnone]
  exact .foldl _ (fun u w _ => State.onTile_steady u t (Tile.plain_noteCe _ _ _)) s

theorem State.poison_steady (t : Fin 8) (b : Nat) (s : State) : s.Steady j fs (s.poison t b) := by
  have hflags (x : Tile) : x.Plain ((x.flag ProtReg.POISONED).bump ProtReg.POISON_COUNT 1) :=
    (Tile.plain_flag x (by decide)).trans (Tile.plain_bump _ 1 (by decide))
  unfold State.poison
  dsimp only
  refine .ite (.refl j fs s) (State.onTile_steady s t ?_)
  exact (hflags _).trans (.of rfl rfl rfl rfl rfl rfl)

theorem State.noteStack_steady (hw : wearFields ⊆ fs) (he : eventFields ⊆ fs) (t : Fin 8) (a n : Nat) (src : UeSrc) (s : State) :
    s.Steady j fs (s.noteStack t a n src) := by
  unfold State.noteStack
  dsimp only
  refine State.Steady.trans (.foldl _ (fun u w _ => ?_) s) (.foldl _ (fun u w _ => ?_) _)
  · exact (State.noteUe_steady hw he t .hbm (64 * w) src u).trans (State.poison_steady t _ _)
  · exact State.onTile_steady u t (Tile.plain_noteCe _ _ _)

theorem State.stackMerge_steady (hw : wearFields ⊆ fs) (he : eventFields ⊆ fs) (t : Fin 8) (a : Nat) (l : List Byte) (s : State) :
    s.Steady j fs (s.stackMerge t a l) := by
  unfold State.stackMerge
  dsimp only
  refine (State.Steady.foldl (partLines a l.length) (fun u w _ => State.noteStack_steady hw he t (64 * w) 64 .other u) s).trans ?_
  exact State.onTile_steady _ t (.of rfl rfl rfl rfl rfl rfl)

theorem State.unstamp_steady (t : Fin 8) (a n : Nat) (s : State) : s.Steady j fs (s.unstamp t a n) := by
  unfold State.unstamp
  exact .foldl _ (fun u b _ => State.onTile_steady u t (.of rfl rfl rfl rfl rfl rfl)) _

theorem State.stackWrite_steady (hw : wearFields ⊆ fs) (he : eventFields ⊆ fs) (t : Fin 8) (a : Nat) (l : List Byte) (s : State) :
    s.Steady j fs (s.stackWrite t a l) := by
  unfold State.stackWrite
  have hrange (x : Tile) : x.Plain (x.flag ProtReg.MEM_RANGE) := Tile.plain_flag x (by decide)
  exact .ite ((State.stackMerge_steady hw he t a l s).trans (State.unstamp_steady t _ _ _))
    (State.onTile_steady s t (hrange _))

/-! ### Packets and ports -/

theorem State.sendPacket_steady (s : State) (a b : Fin 8) (v : Fin 4) (n : Nat) : s.Steady j fs (s.sendPacket a b v n) := by
  have hre (k : Fin 3) (x : Tile) (v : Nat) : x.Plain (x.w (LinkReg.REROUTED k) v) :=
    Tile.plain_w x v (by fin_cases k <;> decide)
  have hfail (k : Fin 3) (x : Tile) (v : Nat) : x.Plain (x.w (LinkReg.ROUTE_FAIL k) v) :=
    Tile.plain_w x v (by fin_cases k <;> decide)
  unfold State.sendPacket
  split
  · exact .refl j fs s
  split
  · unfold State.routeFails
    split
    · exact State.onTile_steady s a (hfail _ _ _)
    · exact .refl j fs s
  split
  · exact .refl j fs s
  · dsimp only
    next p moved _ _ k _ =>
      have hcount : s.Steady j fs (s.onTile a (·.bump (LinkReg.REROUTED k) 1)) := State.onTile_steady s a (hre k _ _)
      refine State.Steady.trans (t := if moved && s.pathDown a (plainPath a b) then s.onTile a (·.bump (LinkReg.REROUTED k) 1)
        else s) (.ite hcount (.refl j fs s)) ?_
      unfold State.queueFlits State.onLink
      refine (State.onTile_steady _ a ?_).trans (State.onTile_steady _ a ?_)
      · exact (.of rfl rfl rfl rfl rfl rfl)
      · exact (.of rfl rfl rfl rfl rfl rfl)

theorem State.refreshPort_steady (p : Fin 16) (s : State) : s.Steady j fs (s.refreshPort p) := by
  have hput (F : Nat → Fld) (hF : ∀ i : Fin 2, outKeys [(0x700000 * 32, 0x700002 * 32), (0x700010 * 32, 0x700012 * 32),
      (0x700020 * 32, 0x700022 * 32)] (F i).key = true) (u : State) (v : Nat) : u.Steady j fs (u.pput p F v) :=
    State.onTile_steady u _ (Tile.plain_w _ _ (hF ⟨p.val % 2, Nat.mod_lt _ (by decide)⟩))
  unfold State.refreshPort
  extract_lets held io s1 ready high s2
  have h1 : s.Steady j fs s1 :=
    (hput PortReg.AEN_HELD (by decide) s _).trans (hput PortReg.CONTROLLERS (by decide) _ _)
  have h2 : s.Steady j fs s2 :=
    h1.trans ((hput PortReg.READY (by decide) s1 _).trans (hput PortReg.PRDY (by decide) _ _))
  exact .ite (h2.trans (State.onPort_steady _ _ _)) h2

theorem State.refreshPorts_steady (ha : HostReg.ALERT_SRC ∈ fs) (s : State) : s.Steady j fs s.refreshPorts := by
  unfold State.refreshPorts
  extract_lets s1 src s2 low
  have h1 : s.Steady j fs s1 := .foldl _ (fun u p _ => State.refreshPort_steady p u) s
  have h2 : s1.Steady j fs s2 :=
    (State.pw_volatile_steady s1 0 src ha rfl).trans (State.pw_volatile_steady _ 1 src ha rfl)
  exact (h1.trans h2).trans (State.alert_steady s2 _)

theorem State.event_steady (ha : HostReg.ALERT_SRC ∈ fs) (p : Fin 16) (c ev nsid : Nat) (s : State) :
    s.Steady j fs (s.event p c ev nsid) := by
  have hpost (u : State) (k : HostCpl) : u.Steady j fs (u.post p k 0 0) := by
    unfold State.post
    exact .ite (State.onPort_steady _ _ _) ((State.onPort_steady _ _ _).trans (State.onCtrl_steady _ _ _ _))
  unfold State.event
  split
  · exact .refl j fs s
  split
  · exact .refl j fs s
  split
  · exact (State.onCtrl_steady s _ _ _).trans (hpost _ _)
  · exact (State.onCtrl_steady s _ _ _).trans (State.refreshPorts_steady ha _)

theorem State.eventAll_steady (ha : HostReg.ALERT_SRC ∈ fs) (ev nsid : Nat) (s : State) : s.Steady j fs (s.eventAll ev nsid) :=
  .foldl _ (fun u _ _ => .foldl _ (fun _ _ _ => State.event_steady ha _ _ _ _ _) u) s

theorem State.refreshAna_steady (ha : HostReg.ALERT_SRC ∈ fs) (n : Fin 8) (s : State) : s.Steady j fs (s.refreshAna n) := by
  unfold State.refreshAna
  refine .foldl _ (fun u p _ => .foldl _ (fun u c _ => ?_) u) s
  dsimp only
  exact .ite (.refl j fs u) ((State.onCtrl_steady u _ _ _).trans (State.event_steady ha _ _ _ _ _))

/-! ### The state of a set -/

theorem State.sw_steady (hw : wearFields ⊆ fs) (s : State) (n : Fin 8) {f : Nat → Fld} (v : Nat) (hf : f n ∈ fs) :
    s.Steady j fs (s.sw n f v) := State.pw_steady hw s _ v hf

theorem State.sw_volatile_steady (s : State) (n : Fin 8) {f : Nat → Fld} (v : Nat) (hf : f n ∈ fs) (hp : (f n).persist = false) :
    s.Steady j fs (s.sw n f v) := State.pw_volatile_steady s _ v hf hp

theorem State.sset_steady (s : State) (n : Fin 8) {f : Nat → Fld} (hf : f n ∈ fs) : s.Steady j fs (s.sset n f) :=
  State.pset_steady s _ hf

/-- What an evaluation of a set's state changes (R304, R356, R361). -/
def setStateFields (n : Fin 8) : List Fld := [SetReg.SUSP_CAUSE n, SetReg.SSTATE n, SetReg.STATE_CHANGE n, HostReg.ALERT_SRC]

theorem State.refreshSet_steady (hw : wearFields ⊆ fs) (he : eventFields ⊆ fs) {n : Fin 8} (hs : setStateFields n ⊆ fs) (s : State) :
    s.Steady j fs (s.refreshSet n) := by
  have hm (g : Fld) (hg : g ∈ setStateFields n) : g ∈ fs := hs hg
  have ha : HostReg.ALERT_SRC ∈ fs := hm _ (by simp [setStateFields])
  unfold State.refreshSet
  split
  · exact .refl j fs s
  extract_lets v old cause s1 s2
  have h1 : s.Steady j fs s1 := .ite (State.log_steady hw he _ _ _ _ _ _) (.refl j fs s)
  have h2 : s1.Steady j fs s2 := (State.sw_volatile_steady s1 n _ (hm _ (by simp [setStateFields])) rfl).trans
    (State.sw_volatile_steady _ n _ (hm _ (by simp [setStateFields])) rfl)
  have h3 : s2.Steady j fs (if v = old then s2 else (s2.sset n SetReg.STATE_CHANGE).eventAll 2 (n.val + 1)) :=
    .ite (.refl j fs s2) ((State.sset_steady s2 n (hm _ (by simp [setStateFields]))).trans (State.eventAll_steady ha _ _ _))
  exact ((h1.trans h2).trans h3).trans (State.refreshAna_steady ha n _)

end Sys2Proof.Machine

end

section

namespace Sys2Proof.Machine

/-! ### What a field of a set reads after it is written -/

variable {j : Prop} {fs : List Fld}

theorem Fld.Outside.of {f : Fld} (h : fs.all (fun g => f.key != g.key) = true) : f.Outside fs := fun g hg => by
  rw [List.all_eq_true] at h
  simpa using h g hg

theorem Fld.Outside.append {gs : List Fld} {f : Fld} (h : f.Outside fs) (k : f.Outside gs) : f.Outside (fs ++ gs) := fun g hg =>
  (List.mem_append.1 hg).elim (h g) (k g)

/-- What a record of wear and one of the event log change. -/
def storeFields : List Fld := wearFields ++ eventFields

theorem wear_store : wearFields ⊆ storeFields := List.subset_append_left _ _

theorem event_store : eventFields ⊆ storeFields := List.subset_append_right _ _

theorem State.onPkg_r_self (s : State) (w : Fin 2) (g : RegFile → RegFile) (f : Fld) :
    ((s.onPkg w g).atrium w).r f = (g (s.atrium w).regs).rd f := by
  unfold State.onPkg
  split
  · rw [State.onAtrium_atrium]; rfl
  · obtain rfl | rfl : w = 0 ∨ w = 1 := by omega
    · rw [State.onAtrium_atrium_ne _ _ _ _ (by decide), State.onAtrium_atrium]; rfl
    · rw [State.onAtrium_atrium, State.onAtrium_atrium_ne _ _ _ _ (by decide)]; rfl

theorem State.onPkg_aset (s : State) (w : Fin 2) (g : RegFile → RegFile) (n : Fin 8) : (s.onPkg w g).aset n = s.aset n := by
  unfold State.onPkg
  split
  · rfl
  · rfl

theorem State.pr_volatile {f : Fld} (hp : f.persist = false) (s : State) (w : Fin 2) : s.pr w f = (s.atrium w).r f := by
  unfold State.pr
  rw [hp]
  rfl

theorem State.sr_sw_volatile {f : Nat → Fld} {n : Fin 8} (hp : (f n).persist = false) (s : State) (v : Nat) :
    (s.sw n f v).sr n f = v % 2 ^ (f n).width := by
  unfold State.sr State.sw State.pw
  rw [hp, if_neg Bool.false_ne_true, State.onPkg_aset, State.pr_volatile hp, State.onPkg_r_self, RegFile.rd_wr_self]

theorem State.sr_sset {f : Nat → Fld} {n : Fin 8} (hp : (f n).persist = false) (hw : (f n).width = 1) (s : State) :
    (s.sset n f).sr n f = 1 := by
  unfold State.sr State.sset State.pset
  rw [State.onPkg_aset, State.pr_volatile hp, State.onPkg_r_self, RegFile.set, RegFile.rd_wr_self, hw]
  rfl

/-- A word that has just been kept is not lost. -/
theorem State.keep_found (s : State) (t : Fin 8) {a b : Nat} (h : keptAddr b = a) : (s.keep t a).lostWord t b = false := by
  unfold State.keep
  rw [← h]
  split
  next hn =>
    rw [State.lostWord_eq, keptAt, hn]
    rfl
  next i hi =>
    refine State.Steady.found (j := False) (fs := wearFields) (State.noteWear_steady (List.Subset.refl _) _ t i) ?_
    rw [State.lostWord_eq, keptAt, hi, State.onTile_tile]
    simp

theorem State.keepPkg_found {s : State} {w : Fin 2} {a b : Nat} (h : keptAddr b = a) (hg : ∃ g : Fld, g.persist = true ∧ g.off = a) :
    (s.keepPkg w a).lostWord (atriumTile w) b = false := by
  obtain ⟨g, hp, rfl⟩ := hg
  unfold State.keepPkg
  split
  · exact State.keep_found s _ h
  · obtain rfl | rfl : w = 0 ∨ w = 1 := by omega
    · exact State.Steady.found (j := False) (fs := g :: wearFields)
        (State.keep_steady (List.subset_cons_self _ _) _ 4 (by simp) hp) (State.keep_found s 0 h)
    · exact State.keep_found _ 4 h

theorem State.keep_kept {f : Fld} (hf : ∀ g ∈ logFields, f.key ≠ g.key) (s : State) (t : Fin 8) (a : Nat) :
    s.FieldKept f (s.keep t a) := by
  unfold State.keep
  split
  · exact fun _ => rfl
  · exact (State.onTile_kept s t _).trans (State.noteWear_kept hf _ _ _)

theorem State.keepPkg_kept {f : Fld} (hf : ∀ g ∈ logFields, f.key ≠ g.key) (s : State) (w : Fin 2) (a : Nat) :
    s.FieldKept f (s.keepPkg w a) := by
  unfold State.keepPkg
  split
  · exact State.keep_kept hf _ _ _
  · exact (State.keep_kept hf _ _ _).trans (State.keep_kept hf _ _ _)

theorem State.sr_sw_kept {f : Nat → Fld} {n : Fin 8} (hp : (f n).persist = true) (hk : keptAddr (f n).off = (f n).off)
    (hf : ∀ g ∈ logFields, (f n).key ≠ g.key) {s : State} (hs : s.storeRefuses = false) (v : Nat) :
    (s.sw n f v).sr n f = v % 2 ^ (f n).width := by
  have hwing : ((s.sw n f v).aset n).wing = (s.aset n).wing :=
    (State.sw_steady (j := False) (fs := f n :: wearFields) (List.subset_cons_self _ _) s n v (by simp)).wing n
  unfold State.sr
  rw [hwing]
  unfold State.sw State.pw
  rw [hp, if_pos rfl, hs, if_neg Bool.false_ne_true]
  unfold State.pr
  rw [State.keepPkg_found hk ⟨f n, hp, rfl⟩]
  simp only [Bool.and_false, if_neg Bool.false_ne_true]
  refine (State.keepPkg_kept hf (s.onPkg (s.aset n).wing (·.wr (f n) v)) _ _ _).trans ?_
  rw [State.onPkg_r_self, RegFile.rd_wr_self]

/-! ### What an evaluation of a set's state leaves (R304) -/

/-- A field of a set's registers is none of those that stores, the log and an evaluation change. -/
def apart (f : Nat → Fld) (n : Fin 8) (l : List Fld) : Bool :=
  (BootReg.SELV_REFUSED :: storeFields ++ l).all fun g => (f n).key != g.key

theorem outside_of_apart {f : Nat → Fld} {n : Fin 8} {l : List Fld} (h : apart f n l = true) : (f n).Outside (storeFields ++ l) :=
  .of (by
    unfold apart at h
    rw [List.cons_append, List.all_cons, Bool.and_eq_true] at h
    exact h.2)

theorem refused_of_apart {f : Nat → Fld} {n : Fin 8} {l : List Fld} (h : apart f n l = true) :
    (f n).key ≠ BootReg.SELV_REFUSED.key := by
  unfold apart at h
  rw [List.cons_append, List.all_cons, Bool.and_eq_true] at h
  simpa using h.1

/-- Nothing that persists is in the list. -/
def volatile (l : List Fld) : Bool := l.all fun g => !g.persist

theorem store_volatile : volatile storeFields = true := by decide

/-- A register of a set reads as before, where an operation wrote others alone. -/
theorem State.Steady.keepsReg {l : List Fld} {s t : State} (h : s.Steady j (storeFields ++ l) t) {f : Nat → Fld} {n : Fin 8}
    (hf : apart f n l = true) (hl : (f n).persist = false ∨ volatile l = true) : t.sr n f = s.sr n f := by
  refine h.sr (outside_of_apart hf) (refused_of_apart hf) fun hp g hg hgp => ?_
  have hv : volatile l = true := hl.resolve_left (by simp [hp])
  have hall : volatile (storeFields ++ l) = true := by
    unfold volatile at hv ⊢
    rw [List.all_append, Bool.and_eq_true]
    exact ⟨store_volatile, hv⟩
  unfold volatile at hall
  rw [List.all_eq_true] at hall
  have := hall g hg
  simp [hgp] at this

theorem State.suspCause_bit (s : State) (n : Fin 8) : bitOf (s.suspCause n) 1 = bitOf (s.sr n SetReg.SUSP_CAUSE) 1 := by
  have hbits : ∀ a b c d : Bool, bitOf (flagNat a + (if b then 2 else 0) + (if c then 4 else 0) + (if d then 8 else 0)) 1 = b := by
    decide
  unfold State.suspCause
  exact hbits _ _ _ _

theorem State.suspCause_lt (s : State) (n : Fin 8) : s.suspCause n < 16 := by
  have hsum : ∀ a b c d : Bool, flagNat a + (if b then 2 else 0) + (if c then 4 else 0) + (if d then 8 else 0) < 16 := by decide
  unfold State.suspCause
  exact hsum _ _ _ _

theorem State.sstate_lt (s : State) (n : Fin 8) : s.sstate n < 8 := by
  unfold State.sstate
  dsimp only
  split
  · decide
  split
  · decide
  split
  · decide
  split
  · decide
  split
  · decide
  split <;> decide

/-- The cause of a suspension, where the software's own bit is as it was. -/
theorem State.Steady.suspCause {s t : State} (h : s.Steady j fs t) (hs : AuthReg.SPLIT.Outside fs) {n : Fin 8}
    (hb : bitOf (t.sr n SetReg.SUSP_CAUSE) 1 = bitOf (s.sr n SetReg.SUSP_CAUSE) 1) : t.suspCause n = s.suspCause n := by
  have htile (k : Fin 8) := h.tile k
  unfold State.suspCause
  dsimp only
  rw [h.cfg, h.split hs, hb, h.asleep, h.primaryUp, h.mirrorUp, (htile _).2.1, (htile _).2.2.1]

theorem split_outside {n : Fin 8} : AuthReg.SPLIT.Outside (storeFields ++ setStateFields n) := by
  have h : ∀ n : Fin 8, (storeFields ++ setStateFields n).all (fun g => AuthReg.SPLIT.key != g.key) = true := by decide
  exact .of (h n)

theorem apart_later (n : Fin 8) : apart SetReg.SUSP_CAUSE n [SetReg.SSTATE n] = true ∧
    apart SetReg.SUSP_CAUSE n [SetReg.STATE_CHANGE n, HostReg.ALERT_SRC] = true ∧
    apart SetReg.SSTATE n [SetReg.STATE_CHANGE n, HostReg.ALERT_SRC] = true ∧
    apart SetReg.STATE_CHANGE n [HostReg.ALERT_SRC] = true := by
  revert n; decide

/-- The fields from which a set's state is evaluated stay as they are in an evaluation. -/
theorem apart_state (n : Fin 8) : apart SetReg.ONLINE_DONE n (setStateFields n) = true ∧
    apart SetReg.PRESENT n (setStateFields n) = true ∧ apart SetReg.REPLACING n (setStateFields n) = true := by
  revert n; decide

theorem setState_volatile (n : Fin 8) : volatile (setStateFields n) = true := by
  revert n; decide

/-- What an evaluation leaves in a set's registers. -/
theorem State.refreshSet_shows (s : State) {n : Fin 8} (hn : (s.aset n).cfg.n ≠ 0) : let t := s.refreshSet n
    t.sr n SetReg.SSTATE = s.sstate n ∧ t.sr n SetReg.SUSP_CAUSE = s.suspCause n ∧
    (s.sstate n ≠ s.sr n SetReg.SSTATE → t.sr n SetReg.STATE_CHANGE = 1) := by
  obtain ⟨hcause2, hcause3, hstate3, hchange4⟩ := apart_later n
  unfold State.refreshSet
  rw [if_neg hn]
  extract_lets v old cause s1 s2 t
  let s3 : State := if v = old then s2 else (s2.sset n SetReg.STATE_CHANGE).eventAll 2 (n.val + 1)
  have hstate : s2.sr n SetReg.SSTATE = v :=
    (State.sr_sw_volatile rfl _ v).trans (Nat.mod_eq_of_lt (s.sstate_lt n))
  have hcause : s2.sr n SetReg.SUSP_CAUSE = cause := by
    have hkeep : (s1.sw n SetReg.SUSP_CAUSE cause).Steady False (storeFields ++ [SetReg.SSTATE n]) s2 :=
      State.sw_volatile_steady _ n v (by simp) rfl
    exact (hkeep.keepsReg hcause2 (.inl rfl)).trans
      ((State.sr_sw_volatile rfl _ cause).trans (Nat.mod_eq_of_lt (s.suspCause_lt n)))
  have hevent (l : List Fld) (ha : HostReg.ALERT_SRC ∈ l) (u : State) : u.Steady False (storeFields ++ l) (u.refreshAna n) ∧
      u.Steady False (storeFields ++ l) (u.eventAll 2 (n.val + 1)) :=
    ⟨State.refreshAna_steady (List.mem_append_right _ ha) n u, State.eventAll_steady (List.mem_append_right _ ha) _ _ u⟩
  have hlast : s2.Steady False (storeFields ++ [SetReg.STATE_CHANGE n, HostReg.ALERT_SRC]) t := by
    have h3 : s2.Steady False (storeFields ++ [SetReg.STATE_CHANGE n, HostReg.ALERT_SRC]) s3 :=
      .ite (.refl _ _ s2) ((State.sset_steady s2 n (by simp)).trans (hevent _ (by simp) _).2)
    exact h3.trans (hevent _ (by simp) s3).1
  refine ⟨(hlast.keepsReg hstate3 (.inl rfl)).trans hstate, (hlast.keepsReg hcause3 (.inl rfl)).trans hcause, fun hne => ?_⟩
  have h3 : s3 = (s2.sset n SetReg.STATE_CHANGE).eventAll 2 (n.val + 1) := if_neg hne
  have hset : (s2.sset n SetReg.STATE_CHANGE).Steady False (storeFields ++ [HostReg.ALERT_SRC]) t := by
    show State.Steady _ _ _ (s3.refreshAna n)
    rw [h3]
    exact (hevent _ (by simp) _).2.trans (hevent _ (by simp) _).1
  exact (hset.keepsReg hchange4 (.inl rfl)).trans (State.sr_sset rfl rfl s2)

/-- An evaluation leaves the state that it evaluated. -/
theorem State.refreshSet_sstate (s : State) {n : Fin 8} (hn : (s.aset n).cfg.n ≠ 0) : (s.refreshSet n).sstate n = s.sstate n := by
  obtain ⟨honline, hpresent, hreplacing⟩ := apart_state n
  obtain ⟨-, hcause, -⟩ := State.refreshSet_shows s hn
  have h : s.Steady False (storeFields ++ setStateFields n) (s.refreshSet n) :=
    State.refreshSet_steady (List.subset_append_of_subset_left _ wear_store) (List.subset_append_of_subset_left _ event_store)
      (List.subset_append_right _ _) s
  have hreg {f : Nat → Fld} (hf : apart f n (setStateFields n) = true) : (s.refreshSet n).sr n f = s.sr n f :=
    h.keepsReg hf (.inr (setState_volatile n))
  have hsusp : (s.refreshSet n).suspCause n = s.suspCause n :=
    h.suspCause split_outside (by rw [hcause, State.suspCause_bit])
  unfold State.sstate State.missingMembers
  rw [hreg honline, hreg hpresent, hreg hreplacing, hsusp, h.cfg]

end Sys2Proof.Machine

end

section

namespace Sys2Proof.Machine

/-! ### Set commands: which of them a state takes (R305) -/

theorem State.setCmd_unauth (s : State) (n : Fin 8) (k m : Nat) (drop : Bool) : s.setCmd n false k m drop = s.setRefuse n 2 := by
  unfold State.setCmd
  rfl

/-- A code that is no command, a set that is not in use, and a member that the set does not have. -/
theorem State.setCmd_invalid (s : State) {n : Fin 8} {k m : Nat} (drop : Bool)
    (h : k = 0 ∨ 7 < k ∨ (s.aset n).cfg.n = 0 ∨ (2 ≤ k ∧ k ≤ 5 ∧ (s.aset n).cfg.n ≤ m)) :
    s.setCmd n true k m drop = s.setRefuse n 3 := by
  unfold State.setCmd
  dsimp only
  rw [if_neg (by decide), if_pos h]

theorem State.setCmd_online (s : State) {n : Fin 8} (hn : (s.aset n).cfg.n ≠ 0) (m : Nat) (drop : Bool) :
    s.setCmd n true 1 m drop =
      if s.sr n SetReg.ONLINE_DONE ≠ 0 then s.setRefuse n 1
      else if s.storeRefuses then ((s.sw n SetReg.ONLINE_DONE 1).setRefuse n (1 + Config.freeValue s.freeCount % 4)).takeFree
      else (s.sw n SetReg.ONLINE_DONE 1).setOk n := by
  unfold State.setCmd
  dsimp only
  exact (if_neg (by decide)).trans (if_neg (by omega))

theorem State.setCmd_suspend (s : State) {n : Fin 8} (hn : (s.aset n).cfg.n ≠ 0) (m : Nat) (drop : Bool) :
    s.setCmd n true 6 m drop = (s.sw n SetReg.SUSP_CAUSE (s.sr n SetReg.SUSP_CAUSE ||| 2)).setOk n := by
  unfold State.setCmd
  dsimp only
  exact (if_neg (by decide)).trans (if_neg (by omega))

theorem State.setCmd_resume (s : State) {n : Fin 8} (hn : (s.aset n).cfg.n ≠ 0) (m : Nat) (drop : Bool) :
    s.setCmd n true 7 m drop = (s.sw n SetReg.SUSP_CAUSE (s.sr n SetReg.SUSP_CAUSE &&& 13)).setOk n := by
  unfold State.setCmd
  dsimp only
  exact (if_neg (by decide)).trans (if_neg (by omega))

/-- Command `k` for member `m` is refused with code 1 where `c` does not hold, and otherwise writes a MEMBER record with these
masks and this DROP. -/
def State.MemberRow (s : State) (n : Fin 8) (k m : Nat) (drop c : Bool) (present replacing : Nat) (dropped : Bool) : Prop :=
  (c = false → s.setCmd n true k m drop = s.setRefuse n 1) ∧
  (c = true → s.setCmd n true k m drop = s.memberCmd n m dropped present replacing)

section

variable (s : State) {n : Fin 8} {m : Nat} (hm : m < (s.aset n).cfg.n) (drop : Bool)
include hm

theorem State.setCmd_absent : let p := (s.memberMasks n).1; let r := (s.memberMasks n).2
    s.MemberRow n 2 m drop (bitOf p m || bitOf r m) (putBit p m false) (putBit r m false) drop := by
  intro p r
  have h : s.setCmd n true 2 m drop = if bitOf p m || bitOf r m then
      s.memberCmd n m drop (putBit p m false) (putBit r m false) else s.setRefuse n 1 := by
    unfold State.setCmd
    dsimp only
    exact (if_neg (by decide)).trans (if_neg (by omega))
  exact ⟨fun hc => by rw [h, hc, if_neg Bool.false_ne_true], fun hc => by rw [h, hc, if_pos rfl]⟩

theorem State.setCmd_present : let p := (s.memberMasks n).1; let r := (s.memberMasks n).2
    s.MemberRow n 3 m drop (!bitOf p m && !bitOf r m) (putBit p m true) r false := by
  intro p r
  have h : s.setCmd n true 3 m drop = if bitOf p m || bitOf r m then s.setRefuse n 1
      else s.memberCmd n m false (putBit p m true) r := by
    unfold State.setCmd
    dsimp only
    exact (if_neg (by decide)).trans (if_neg (by omega))
  constructor <;> intro hc <;> rw [h]
  · exact if_pos (by cases hp : bitOf p m <;> simp_all)
  · exact if_neg (by cases hp : bitOf p m <;> simp_all)

theorem State.setCmd_rebuildStart : let p := (s.memberMasks n).1; let r := (s.memberMasks n).2
    s.MemberRow n 4 m drop (!bitOf p m && !bitOf r m && r &&& (s.aset n).cfg.mask == 0) p (putBit r m true) false := by
  intro p r
  have h : s.setCmd n true 4 m drop = if bitOf p m || bitOf r m || r &&& (s.aset n).cfg.mask != 0 then s.setRefuse n 1
      else s.memberCmd n m false p (putBit r m true) := by
    unfold State.setCmd
    dsimp only
    exact (if_neg (by decide)).trans (if_neg (by omega))
  have hneg : (bitOf p m || bitOf r m || r &&& (s.aset n).cfg.mask != 0) =
      !(!bitOf p m && !bitOf r m && r &&& (s.aset n).cfg.mask == 0) := by
    cases bitOf p m <;> cases bitOf r m <;> simp [bne]
  exact ⟨fun hc => by rw [h, hneg, hc, Bool.not_false, if_pos rfl], fun hc => by rw [h, hneg, hc, Bool.not_true, if_neg Bool.false_ne_true]⟩

theorem State.setCmd_rebuildEnd : let p := (s.memberMasks n).1; let r := (s.memberMasks n).2
    s.MemberRow n 5 m drop (bitOf r m) (putBit p m true) (putBit r m false) false := by
  intro p r
  have h : s.setCmd n true 5 m drop = if bitOf r m then s.memberCmd n m false (putBit p m true) (putBit r m false)
      else s.setRefuse n 1 := by
    unfold State.setCmd
    dsimp only
    exact (if_neg (by decide)).trans (if_neg (by omega))
  exact ⟨fun hc => by rw [h, hc, if_neg Bool.false_ne_true], fun hc => by rw [h, hc, if_pos rfl]⟩

end

/-! ### A write of SET_CMD -/

theorem toTile_setCmd (n : Fin 8) : toTile ((0x4000 + 0x100 * n.val - 0x4000) / 0x100) = n := by
  fin_cases n <;> rfl

/-- SET_CMD keeps no field: a write of it is the command alone. -/
theorem State.pkgWrite_setCmd (q : Req) (n : Fin 8) (v : Nat) (s : State) : s.pkgWrite q (0x4000 + 0x100 * n.val) v =
    s.setCmd n (s.allowedSet q n) (v % 16) (bitsOf v 8 4) (bitOf v 9) := by
  have hskip : ∀ n : Fin 8, ((fieldsIn pkgFields (0x4000 + 0x100 * n.val)).filter fun f => !pkgOwn f).all
      (fun f => f.acc ≠ .rw && f.acc ≠ .w1c) = true := by decide
  have hpersist : ∀ n : Fin 8, persistOffs.contains (0x4000 + 0x100 * n.val) = false := by decide
  unfold State.pkgWrite
  rw [State.pkgStore_skip (hskip n)]
  unfold State.pkgAct
  rw [if_neg (by omega), hpersist, if_neg Bool.false_ne_true, if_neg (by omega), if_neg (by omega), if_neg (by omega),
    if_neg (by omega), if_pos (by omega)]
  dsimp only
  rw [toTile_setCmd]

/-- The row of a set command with code `k`. -/
theorem setRow_eq {q : Req} {n : Fin 8} {s : State} (ok : s.accessOf q (.pkg (0x4000 + 0x100 * n.val)) = .ok) {k : Nat} (hk : k < 16)
    (v : Word) : let u := s.atPkg q (0x4000 + 0x100 * n.val)
    pkgRow q (SetReg.CMD n.val) k v s =
      .next (u.setCmd n (u.allowedSet q n) k (v.toNat / 16 % 32) (v.toNat.testBit 9)) := by
  have ok3 := State.turnTo_accessOf ok 3
  have hforced : forced (SetReg.CMD n.val) k v = v.toNat - v.toNat % 16 + k := by
    show v.toNat - v.toNat % 16 * 1 + k % 16 * 1 = _
    rw [Nat.mul_one, Nat.mul_one, Nat.mod_eq_of_lt hk]
  intro u
  rw [pkgRow, show (SetReg.CMD n.val).off = 0x4000 + 0x100 * n.val from rfl, State.writeAt_pkg ok3, State.pkgWrite_setCmd, hforced]
  have hcode : (v.toNat - v.toNat % 16 + k) % 16 = k := by omega
  have hmember : bitsOf (v.toNat - v.toNat % 16 + k) 8 4 = v.toNat / 16 % 32 := by
    unfold bitsOf
    rw [Nat.shiftRight_eq_div_pow]
    omega
  have hdrop : bitOf (v.toNat - v.toNat % 16 + k) 9 = v.toNat.testBit 9 := by
    unfold bitOf
    rw [Nat.testBit_eq_decide_div_mod_eq, Nat.testBit_eq_decide_div_mod_eq]
    congr 2
    omega
  rw [hcode, hmember, hdrop]
  rfl

end Sys2Proof.Machine

end

section

namespace Sys2Proof.Machine

/-! ### A set command that is done (R305) -/

/-- The sum that SUSP_CAUSE shows. -/
def causeOf (split own down journal : Bool) : Nat :=
  flagNat split + (if own then 2 else 0) + (if down then 4 else 0) + (if journal then 8 else 0)

theorem causeOf_suspend : ∀ a b c d : Bool, causeOf a true c d = causeOf a b c d ||| 2 := by decide

theorem causeOf_resume : ∀ a b c d : Bool, causeOf a false c d = causeOf a b c d &&& 13 := by decide

/-- Between steady states the cause of a suspension differs in the software's own bit alone. -/
theorem State.Steady.causes {j : Prop} {fs : List Fld} {s t : State} (h : s.Steady j fs t) (hs : AuthReg.SPLIT.Outside fs) (n : Fin 8) :
    ∃ a c d, s.suspCause n = causeOf a (bitOf (s.sr n SetReg.SUSP_CAUSE) 1) c d ∧
      t.suspCause n = causeOf a (bitOf (t.sr n SetReg.SUSP_CAUSE) 1) c d := by
  refine ⟨_, _, _, rfl, ?_⟩
  unfold State.suspCause causeOf
  dsimp only
  rw [h.cfg, h.split hs, h.asleep, h.primaryUp, h.mirrorUp, (h.tile _).2.1, (h.tile _).2.2.1]

/-- What a command that is done writes besides its own field. -/
def doneFields (n : Fin 8) : List Fld := [SetReg.CMD_STATUS n, SetReg.CMD_DONE n] ++ setStateFields n

theorem done_apart (n : Fin 8) : apart SetReg.CMD_STATUS n [SetReg.CMD_DONE n] = true ∧
    apart SetReg.CMD_STATUS n (setStateFields n) = true ∧ apart SetReg.CMD_DONE n (setStateFields n) = true ∧
    apart SetReg.SSTATE n [SetReg.CMD_STATUS n, SetReg.CMD_DONE n] = true ∧
    apart SetReg.SUSP_CAUSE n [SetReg.CMD_STATUS n, SetReg.CMD_DONE n] = true := by
  revert n; decide

theorem done_split (n : Fin 8) : (storeFields ++ [SetReg.CMD_STATUS n, SetReg.CMD_DONE n]).all (fun g => AuthReg.SPLIT.key != g.key) = true ∧
    (storeFields ++ [SetReg.SUSP_CAUSE n]).all (fun g => AuthReg.SPLIT.key != g.key) = true := by
  revert n; decide

section

variable (s : State) {n : Fin 8}

theorem State.setOk_steady {j : Prop} : s.Steady j (storeFields ++ doneFields n) (s.setOk n) := by
  have hm {g : Fld} (hg : g ∈ doneFields n) : g ∈ storeFields ++ doneFields n := List.mem_append_right _ hg
  unfold State.setOk
  refine ((State.sw_volatile_steady s n 0 (hm (by simp [doneFields])) rfl).trans
    (State.sset_steady _ n (hm (by simp [doneFields])))).trans (State.refreshSet_steady ?_ ?_ ?_ _)
  · exact List.subset_append_of_subset_left _ wear_store
  · exact List.subset_append_of_subset_left _ event_store
  · exact List.subset_append_of_subset_right _ (List.subset_append_right _ _)

theorem State.setOk_shows (hn : (s.aset n).cfg.n ≠ 0) : let t := s.setOk n
    t.sr n SetReg.CMD_STATUS = 0 ∧ t.sr n SetReg.CMD_DONE = 1 ∧ t.sr n SetReg.SSTATE = t.sstate n ∧
    (t.sstate n ≠ s.sr n SetReg.SSTATE → t.sr n SetReg.STATE_CHANGE = 1) ∧ t.sr n SetReg.SUSP_CAUSE = s.suspCause n := by
  obtain ⟨hstatus1, hstatus2, hdone2, hstate, hcause⟩ := done_apart n
  intro t
  let s1 : State := s.sw n SetReg.CMD_STATUS 0
  let s2 : State := s1.sset n SetReg.CMD_DONE
  have h1 : s1.Steady False (storeFields ++ [SetReg.CMD_DONE n]) s2 := State.sset_steady s1 n (by simp)
  have h12 : s.Steady False (storeFields ++ [SetReg.CMD_STATUS n, SetReg.CMD_DONE n]) s2 :=
    (State.sw_volatile_steady s n 0 (by simp) rfl).trans (State.sset_steady s1 n (by simp))
  have h2 : s2.Steady False (storeFields ++ setStateFields n) t :=
    State.refreshSet_steady (List.subset_append_of_subset_left _ wear_store) (List.subset_append_of_subset_left _ event_store)
      (List.subset_append_right _ _) s2
  have hn2 : (s2.aset n).cfg.n ≠ 0 := by rw [h12.cfg]; exact hn
  obtain ⟨hshown, hsusp, hchange⟩ := State.refreshSet_shows s2 hn2
  have hsame : t.sstate n = s2.sstate n := State.refreshSet_sstate s2 hn2
  refine ⟨?_, ?_, hshown.trans hsame.symm, fun hne => hchange ?_, hsusp.trans ?_⟩
  · exact (h2.keepsReg hstatus2 (.inl rfl)).trans ((h1.keepsReg hstatus1 (.inl rfl)).trans (State.sr_sw_volatile rfl s 0))
  · exact (h2.keepsReg hdone2 (.inl rfl)).trans (State.sr_sset rfl rfl s1)
  · rw [← hsame, h12.keepsReg hstate (.inl rfl)]
    exact hne
  · exact h12.suspCause (.of (done_split n).1) (by rw [h12.keepsReg hcause (.inl rfl)])

/-- What R305 says of a command that is done: it wrote the field `f` with this value. -/
def State.SetDone (s u : State) (n : Fin 8) (f : Nat → Fld) (x : Nat) (t : State) : Prop :=
  t.sr n f = x ∧ t.sr n SetReg.CMD_STATUS = 0 ∧ t.sr n SetReg.CMD_DONE = 1 ∧ t.sr n SetReg.SSTATE = t.sstate n ∧
  (t.sstate n ≠ u.sr n SetReg.SSTATE → t.sr n SetReg.STATE_CHANGE = 1) ∧
  (∀ w, (u.atrium w).KeepsFields (t.atrium w) ([f n, SetReg.CMD_STATUS n, SetReg.CMD_DONE n, SetReg.SUSP_CAUSE n,
    SetReg.SSTATE n, SetReg.STATE_CHANGE n, HostReg.ALERT_SRC, BootReg.SELV_REFUSED] ++ wearFields ++ eventFields)) ∧
  s.ChangesOnly [.time, .tiles, .ports, .atria, .pkg, .shadows] t

end

/-- A command that is done changes no field but those. -/
theorem done_subset (f : Nat → Fld) (n : Fin 8) : storeFields ++ ([f n] ++ doneFields n) ⊆
    [f n, SetReg.CMD_STATUS n, SetReg.CMD_DONE n, SetReg.SUSP_CAUSE n, SetReg.SSTATE n, SetReg.STATE_CHANGE n, HostReg.ALERT_SRC,
      BootReg.SELV_REFUSED] ++ wearFields ++ eventFields := by
  have hown : [f n] ++ doneFields n ⊆ [f n, SetReg.CMD_STATUS n, SetReg.CMD_DONE n, SetReg.SUSP_CAUSE n, SetReg.SSTATE n,
      SetReg.STATE_CHANGE n, HostReg.ALERT_SRC, BootReg.SELV_REFUSED] := by
    intro g hg
    simp only [doneFields, setStateFields, List.cons_append, List.nil_append, List.mem_cons, List.not_mem_nil, or_false] at hg ⊢
    tauto
  intro g hg
  rw [List.append_assoc]
  exact (List.mem_append.1 hg).elim (fun h => List.mem_append_right _ h) fun h => List.mem_append_left _ (hown h)

/-- A field is written, and the command is done. -/
theorem State.setOk_done {s u : State} (hs : s.ChangesOnly [.time, .tiles, .shadows] u) {n : Fin 8} (hn : (u.aset n).cfg.n ≠ 0)
    {f : Nat → Fld} (hf : apart SetReg.SSTATE n [f n] = true) (y : Nat) {x : Nat} (hx : ((u.sw n f y).setOk n).sr n f = x) :
    s.SetDone u n f x ((u.sw n f y).setOk n) := by
  have h1 : u.Steady False (storeFields ++ [f n]) (u.sw n f y) :=
    State.sw_steady (List.subset_append_of_subset_left _ wear_store) u n y (by simp)
  obtain ⟨hstatus, hdone, hstate, hchange, -⟩ := State.setOk_shows (u.sw n f y) (n := n) (by rw [h1.cfg]; exact hn)
  refine ⟨hx, hstatus, hdone, hstate, fun hne => hchange ?_, fun w => ?_, ?_⟩
  · rw [h1.keepsReg hf (.inl rfl)]
    exact hne
  · have h : u.Steady False (storeFields ++ ([f n] ++ doneFields n)) ((u.sw n f y).setOk n) :=
      (h1.mono (List.append_subset.2 ⟨List.subset_append_left _ _, List.subset_append_of_subset_right _ (List.subset_append_left _ _)⟩)).trans
        ((State.setOk_steady (u.sw n f y)).mono
          (List.append_subset.2 ⟨List.subset_append_left _ _, List.subset_append_of_subset_right _ (List.subset_append_right _ _)⟩))
    exact h.keepsFields w (done_subset f n) (.inr (List.mem_append_left _ (List.mem_append_left _ (by simp))))
  · exact State.setOk_changes (List.Subset.trans (by decide) (List.Subset.refl _)) n
      (State.sw_changes (List.Subset.trans (by decide) (List.Subset.refl _)) n f y (hs.mono (by decide)))

theorem online_apart (n : Fin 8) : apart SetReg.ONLINE_DONE n (doneFields n) = true ∧ volatile (doneFields n) = true ∧
    apart SetReg.SSTATE n [SetReg.ONLINE_DONE n] = true ∧ apart SetReg.SSTATE n [SetReg.SUSP_CAUSE n] = true ∧
    keptAddr (SetReg.ONLINE_DONE n).off = (SetReg.ONLINE_DONE n).off ∧
    (logFields.all fun g => (SetReg.ONLINE_DONE n).key != g.key) = true := by
  revert n; decide

section

variable {s u : State} (hs : s.ChangesOnly [.time, .tiles, .shadows] u) {n : Fin 8} (hn : (u.aset n).cfg.n ≠ 0)
include hs hn

theorem State.online_done (hr : u.storeRefuses = false) :
    s.SetDone u n SetReg.ONLINE_DONE 1 ((u.sw n SetReg.ONLINE_DONE 1).setOk n) := by
  obtain ⟨hkeep, hvol, hstate, -, hkept, hlog⟩ := online_apart n
  refine State.setOk_done hs hn hstate 1 ?_
  refine ((State.setOk_steady (u.sw n SetReg.ONLINE_DONE 1) (j := False)).keepsReg hkeep (.inr hvol)).trans ?_
  refine (State.sr_sw_kept rfl hkept (fun g hg => ?_) hr 1).trans rfl
  simpa using List.all_eq_true.1 hlog g hg

/-- The software's own bit of SUSP_CAUSE is written. -/
theorem State.susp_done (y : Nat) {x : Nat} (hx : ∀ a c d, u.suspCause n = causeOf a (bitOf (u.sr n SetReg.SUSP_CAUSE) 1) c d →
    causeOf a (bitOf (y % 16) 1) c d = x) : s.SetDone u n SetReg.SUSP_CAUSE x ((u.sw n SetReg.SUSP_CAUSE y).setOk n) := by
  obtain ⟨-, -, -, hstate, -⟩ := online_apart n
  have h1 : u.Steady False (storeFields ++ [SetReg.SUSP_CAUSE n]) (u.sw n SetReg.SUSP_CAUSE y) :=
    State.sw_volatile_steady u n y (by simp) rfl
  obtain ⟨a, c, d, hu, ht⟩ := h1.causes (.of (done_split n).2) n
  obtain ⟨-, -, -, -, hcause⟩ := State.setOk_shows (u.sw n SetReg.SUSP_CAUSE y) (n := n) (by rw [h1.cfg]; exact hn)
  refine State.setOk_done hs hn hstate y (hcause.trans (ht.trans ?_))
  rw [State.sr_sw_volatile rfl]
  exact hx a c d hu

theorem State.suspend_done : s.SetDone u n SetReg.SUSP_CAUSE (u.suspCause n ||| 2)
    ((u.sw n SetReg.SUSP_CAUSE (u.sr n SetReg.SUSP_CAUSE ||| 2)).setOk n) := by
  refine State.susp_done hs hn _ fun a c d h => ?_
  have hbit : bitOf ((u.sr n SetReg.SUSP_CAUSE ||| 2) % 16) 1 = true := by
    unfold bitOf
    rw [show 16 = 2 ^ 4 from rfl, Nat.testBit_mod_two_pow, Nat.testBit_or, show Nat.testBit 2 1 = true from rfl]
    simp
  rw [hbit, h]
  exact causeOf_suspend _ _ _ _

theorem State.resume_done : s.SetDone u n SetReg.SUSP_CAUSE (u.suspCause n &&& 13)
    ((u.sw n SetReg.SUSP_CAUSE (u.sr n SetReg.SUSP_CAUSE &&& 13)).setOk n) := by
  refine State.susp_done hs hn _ fun a c d h => ?_
  have hbit : bitOf ((u.sr n SetReg.SUSP_CAUSE &&& 13) % 16) 1 = false := by
    unfold bitOf
    rw [show 16 = 2 ^ 4 from rfl, Nat.testBit_mod_two_pow, Nat.testBit_and, show Nat.testBit 13 1 = false from rfl]
    simp
  rw [hbit, h]
  exact causeOf_resume _ _ _ _

end

end Sys2Proof.Machine

end

section

namespace Sys2Proof.Machine

/-! ### A record takes its place in the queue (R315, R316) -/

variable {j : Prop} {fs : List Fld}

/-- Set `n` is as it was but for what forming records changes, and no other set differs. -/
def State.Queued (n : Fin 8) (rs : List JRec) (s t : State) : Prop :=
  (∃ wpos recPos, t.aset n = { s.aset n with queue := (s.aset n).queue ++ rs, wpos := wpos, recPos := recPos }) ∧
  ∀ k, k ≠ n → t.aset k = s.aset k

theorem State.Queued.trans {n : Fin 8} {rs qs : List JRec} {s t u : State} (h : State.Queued n rs s t) (k : State.Queued n qs t u) :
    State.Queued n (rs ++ qs) s u := by
  obtain ⟨⟨w, p, hn⟩, ho⟩ := h
  obtain ⟨⟨w', p', kn⟩, ko⟩ := k
  refine ⟨⟨w', p', ?_⟩, fun i hi => (ko i hi).trans (ho i hi)⟩
  rw [kn, hn, List.append_assoc]

theorem State.Queued.refl (n : Fin 8) (s : State) : State.Queued n [] s s :=
  ⟨⟨(s.aset n).wpos, (s.aset n).recPos, by rw [List.append_nil]⟩, fun _ _ => rfl⟩

/-- The sets of a state that differs in other parts alone. -/
theorem State.Queued.of_sets {n : Fin 8} {rs : List JRec} {s t u : State} (h : State.Queued n rs s t) (hs : u.sets = t.sets) :
    State.Queued n rs s u := by
  have ha (k : Fin 8) : u.aset k = t.aset k := by unfold State.aset; rw [hs]
  obtain ⟨⟨w, p, hn⟩, ho⟩ := h
  exact ⟨⟨w, p, (ha n).trans hn⟩, fun k hk => (ha k).trans (ho k hk)⟩

theorem State.sw_sets (s : State) (n : Fin 8) (f : Nat → Fld) (v : Nat) : (s.sw n f v).sets = s.sets :=
  (State.sw_changes (ps := [.tiles, .atria]) (by decide) n f v (.refl s)).sets (by decide)

/-- A new record of this type and body stands last in the queue. -/
def JRec.Formed (r : JRec) (type : Nat) (body : List DWord) : Prop := r.type = type ∧ r.body = body ∧ r.half = false

theorem State.queueRecord_queued (n : Fin 8) (type : Nat) (body : List DWord) (desc : Option BoltDesc) (s : State) :
    ∃ r, JRec.Formed r type body ∧ State.Queued n [r] s (s.queueRecord n type body desc) := by
  unfold State.queueRecord
  extract_lets a js blank r s1
  refine ⟨r, ⟨rfl, rfl, rfl⟩, State.Queued.of_sets (t := s1) ⟨⟨_, _, State.onSet_aset ..⟩, fun k hk => State.onSet_aset_ne _ _ _ _ hk⟩ ?_⟩
  unfold State.showJournal
  rw [State.sw_sets, State.sw_sets]

/-- A PAD goes before it where it would not fit. -/
theorem State.formRecord_queued (n : Fin 8) (type : Nat) (body : List DWord) (desc : Option BoltDesc) (s : State) :
    ∃ pads r, (∀ p ∈ pads, p.type = 0) ∧ JRec.Formed r type body ∧ State.Queued n (pads ++ [r]) s (s.formRecord n type body desc) := by
  unfold State.formRecord
  extract_lets a pad s1
  have hpad : ∃ pads, (∀ p ∈ pads, JRec.type p = 0) ∧ State.Queued n pads s s1 := by
    unfold s1
    split
    · exact ⟨[], by simp, .refl n s⟩
    · obtain ⟨p, hp, hq⟩ := State.queueRecord_queued n 0 (List.replicate (pad - 1) 0) none s
      exact ⟨[p], by simpa using hp.1, hq⟩
  obtain ⟨pads, h0, hs1⟩ := hpad
  obtain ⟨r, hr, hq⟩ := State.queueRecord_queued n type body desc s1
  exact ⟨pads, r, h0, hr, hs1.trans hq⟩

/-- What the forming of records shows of a set. -/
def journalFields (n : Fin 8) : List Fld := [SetReg.JFREE n, SetReg.JSEQ_NEXT n]

theorem State.queueRecord_steady {n : Fin 8} (hm : journalFields n ⊆ fs) (type : Nat) (body : List DWord) (desc : Option BoltDesc)
    (s : State) : s.Steady j fs (s.queueRecord n type body desc) := by
  unfold State.queueRecord
  dsimp only
  unfold State.showJournal
  exact ((State.onSet_steady s n rfl).trans (State.sw_volatile_steady _ n _ (hm (by simp [journalFields])) rfl)).trans
    (State.sw_volatile_steady _ n _ (hm (by simp [journalFields])) rfl)

theorem State.formRecord_steady {n : Fin 8} (hm : journalFields n ⊆ fs) (type : Nat) (body : List DWord) (desc : Option BoltDesc)
    (s : State) : s.Steady j fs (s.formRecord n type body desc) := by
  unfold State.formRecord
  dsimp only
  exact State.Steady.trans (.ite (.refl j fs s) (State.queueRecord_steady hm _ _ _ s)) (State.queueRecord_steady hm _ _ _ _)

/-! ### The journal buffer is read as a record is formed (R373, R380) -/

/-- The tile whose buffer holds the records of a set. -/
def State.home (s : State) (n : Fin 8) : Tile := s.tile (s.aset n).cfg.homeTile

/-- The buffer as a record that was formed leaves it. -/
def State.bufferTaken (n : Fin 8) (s : State) : State :=
  (s.noteBuffer (s.aset n).cfg.homeTile (s.home n).journalBuf 0x31 .journal).onTile (s.aset n).cfg.homeTile
    fun x => { x with journalBuf := .empty }

/-- The buffer as an uncorrectable error in it leaves it. -/
def State.bufferLost (n : Fin 8) (s : State) : State :=
  ((s.noteBuffer (s.aset n).cfg.homeTile (s.home n).journalBuf 0x31 .journal).onTile (s.aset n).cfg.homeTile
    fun x => { x with journalUe := true }).refreshSets

theorem State.readBuffer_taken {n : Fin 8} {s : State} (hue : (s.home n).journalUe = false)
    (hbad : (s.home n).journalBuf.bad 0 (2 ^ 32) = false) : s.readBuffer n = (true, s.bufferTaken n) := by
  unfold State.home at hue hbad
  unfold State.readBuffer
  dsimp only
  rw [hue, if_neg Bool.false_ne_true, hbad, if_neg Bool.false_ne_true]
  rfl

theorem State.readBuffer_lost {n : Fin 8} {s : State} (hue : (s.home n).journalUe = false)
    (hbad : (s.home n).journalBuf.bad 0 (2 ^ 32) = true) : s.readBuffer n = (false, s.bufferLost n) := by
  unfold State.home at hue hbad
  unfold State.readBuffer
  dsimp only
  rw [hue, if_neg Bool.false_ne_true, hbad, if_pos rfl]
  rfl

theorem State.readBuffer_stopped {n : Fin 8} {s : State} (hue : (s.home n).journalUe = true) : s.readBuffer n = (false, s) := by
  unfold State.home at hue
  unfold State.readBuffer
  dsimp only
  rw [hue, if_pos rfl]

theorem State.bufferTaken_steady {n : Fin 8} {s : State} (hbad : (s.home n).journalBuf.bad 0 (2 ^ 32) = false) :
    s.Steady j fs (s.bufferTaken n) := by
  have hempty (x : Tile) : x.Plain { x with journalBuf := .empty } := ⟨⟨rfl, rfl, rfl, fun _ => rfl, fun _ => rfl⟩, rfl⟩
  unfold State.bufferTaken State.noteBuffer
  exact (State.noteSram_weak_steady _ _ _ _ _ _ s hbad).trans (State.onTile_steady _ _ (hempty _))

theorem State.bufferTaken_changes {ps : List Part} (hm : ([.tiles, .atria] : List Part) ⊆ ps) (n : Fin 8) {s₀ s : State}
    (hs : s₀.ChangesOnly ps s) : s₀.ChangesOnly ps (s.bufferTaken n) :=
  State.onTile_changes (List.Subset.trans (by decide) hm) _ _ (State.noteBuffer_changes hm _ _ _ _ hs)

theorem State.bufferLost_changes {ps : List Part} (hm : ([.tiles, .ports, .atria, .pkg] : List Part) ⊆ ps) (n : Fin 8) {s₀ s : State}
    (hs : s₀.ChangesOnly ps s) : s₀.ChangesOnly ps (s.bufferLost n) :=
  State.refreshSets_changes hm (State.onTile_changes (List.Subset.trans (by decide) hm) _ _
    (State.noteBuffer_changes (List.Subset.trans (by decide) hm) _ _ _ _ hs))

/-- What an evaluation of every set's state changes. -/
def setStatesFields : List Fld := allSets.flatMap setStateFields

theorem State.refreshSets_steady (s : State) : s.Steady j (storeFields ++ setStatesFields) s.refreshSets :=
  .foldl _ (fun u n hn => State.refreshSet_steady (List.subset_append_of_subset_left _ wear_store)
    (List.subset_append_of_subset_left _ event_store)
    (fun _ hg => List.mem_append_right _ (List.mem_flatMap.2 ⟨n, hn, hg⟩)) u) s

/-- An uncorrectable error in the buffer stays until the tile is reset. -/
theorem State.bufferLost_ue (n : Fin 8) (s : State) : ((s.bufferLost n).tile (s.aset n).cfg.homeTile).journalUe = true := by
  unfold State.bufferLost
  rw [((State.refreshSets_steady (j := False) _).tile _).2.2.1, State.onTile_tile]

/-! ### Records are formed together (R315 to R317) -/

theorem State.flushOwed_none {n : Fin 8} {s : State} (h : (s.aset n).owed = []) : s.flushOwed n = s := by
  unfold State.flushOwed
  rw [h]
  rfl

/-- The records of a list that is written at once. -/
def State.formAll (n : Fin 8) (rs : List (Nat × List DWord)) (desc : Option BoltDesc) (s : State) : State :=
  rs.zipIdx.foldl (fun s r => s.formRecord n r.1.1 r.1.2 (if r.2 + 1 = rs.length then desc else none)) s

section

variable {n : Fin 8} {s : State} (ho : (s.aset n).owed = []) (rs : List (Nat × List DWord)) (reserved : Bool) (desc : Option BoltDesc)
include ho

theorem State.formRecords_full (hf : s.journalFits n (rs.map fun r => 1 + r.2.length) reserved = false) :
    s.formRecords n rs reserved desc = (false, s.sset n SetReg.JOURNAL_FULL) := by
  unfold State.formRecords
  dsimp only
  rw [State.flushOwed_none ho, hf, Bool.and_false, if_neg Bool.false_ne_true]

variable (hf : s.journalFits n (rs.map fun r => 1 + r.2.length) reserved = true)
include hf

theorem State.formRecords_fit : s.formRecords n rs reserved desc =
    (if (s.readBuffer n).1 then (true, (s.readBuffer n).2.formAll n rs desc) else (false, (s.readBuffer n).2)) := by
  unfold State.formRecords
  dsimp only
  rw [State.flushOwed_none ho, hf, ho, Bool.and_true, List.isEmpty_nil, Bool.true_or, if_pos rfl]
  rfl

theorem State.formRecords_formed (hue : (s.home n).journalUe = false) (hbad : (s.home n).journalBuf.bad 0 (2 ^ 32) = false) :
    s.formRecords n rs reserved desc = (true, (s.bufferTaken n).formAll n rs desc) := by
  rw [State.formRecords_fit ho rs reserved desc hf, State.readBuffer_taken hue hbad, if_pos rfl]

theorem State.formRecords_lost (hue : (s.home n).journalUe = false) (hbad : (s.home n).journalBuf.bad 0 (2 ^ 32) = true) :
    s.formRecords n rs reserved desc = (false, s.bufferLost n) := by
  rw [State.formRecords_fit ho rs reserved desc hf, State.readBuffer_lost hue hbad, if_neg Bool.false_ne_true]

end

end Sys2Proof.Machine

end

section

namespace Sys2Proof.Machine

/-! ### The rows of SET_CMD -/

/-- The state that a write of SET_CMD finds. -/
def State.atSetCmd (s : State) (q : Req) (n : Fin 8) : State := s.atPkg q (0x4000 + 0x100 * n.val)

/-- Every set command with its code. -/
def setCodes (q : Req) (n : Fin 8) (v : Word) : List (Instr × Nat) :=
  [(.online q n v, 1), (.suspend q n v, 6), (.resume q n v, 7), (.setCmdReserved q n v, reservedCode (SetReg.CMD n.val) 8 15 v),
    (.absent q n v, 2), (.present q n v, 3), (.rebuildStart q n v, 4), (.rebuildEnd q n v, 5)]

theorem reservedCode_setCmd (n : Fin 8) (v : Word) :
    8 ≤ reservedCode (SetReg.CMD n.val) 8 15 v ∧ reservedCode (SetReg.CMD n.val) 8 15 v < 16 := by
  unfold reservedCode
  dsimp only
  split
  · omega
  · decide

/-- A set command goes to its set with its code, its member and DROP. -/
theorem exec_setCommand {q : Req} {n : Fin 8} {s : State} (ok : s.accessOf q (.pkg (0x4000 + 0x100 * n.val)) = .ok) (v : Word)
    {e : Instr × Nat} (he : e ∈ setCodes q n v) : exec e.1 s = .next ((s.atSetCmd q n).setCmd n ((s.atSetCmd q n).allowedSet q n) e.2
      (v.toNat / 16 % 32) (v.toNat.testBit 9)) := by
  simp only [setCodes, List.mem_cons, List.not_mem_nil, or_false] at he
  rcases he with rfl | rfl | rfl | rfl | rfl | rfl | rfl | rfl
  · exact setRow_eq ok (k := 1) (by decide) v
  · exact setRow_eq ok (k := 6) (by decide) v
  · exact setRow_eq ok (k := 7) (by decide) v
  · exact setRow_eq ok (reservedCode_setCmd n v).2 v
  · exact setRow_eq ok (k := 2) (by decide) v
  · exact setRow_eq ok (k := 3) (by decide) v
  · exact setRow_eq ok (k := 4) (by decide) v
  · exact setRow_eq ok (k := 5) (by decide) v

/-- The membership commands: what each asks of its member, the masks that it leaves, and its DROP. -/
def State.memberRows (u : State) (q : Req) (n : Fin 8) (v : Word) : List (Instr × Bool × Nat × Nat × Nat) :=
  let m := v.toNat / 16 % 32
  let p := (u.memberMasks n).1
  let r := (u.memberMasks n).2
  [(.absent q n v, bitOf p m || bitOf r m, putBit p m false, putBit r m false, v.toNat / 512 % 2),
    (.present q n v, !bitOf p m && !bitOf r m, putBit p m true, r, 0),
    (.rebuildStart q n v, !bitOf p m && !bitOf r m && r &&& (u.aset n).cfg.mask == 0, p, putBit r m true, 0),
    (.rebuildEnd q n v, bitOf r m, putBit p m true, putBit r m false, 0)]

theorem flagNat_drop (v : Word) : flagNat (v.toNat.testBit 9) = v.toNat / 512 % 2 := by
  unfold flagNat
  rw [Nat.testBit_eq_decide_div_mod_eq]
  have := Nat.mod_two_eq_zero_or_one (v.toNat / 2 ^ 9)
  rcases this with h | h <;> simp_all

theorem memberRow_code {u : State} {q : Req} {n : Fin 8} {v : Word} {e : Instr × Bool × Nat × Nat × Nat} (he : e ∈ u.memberRows q n v) :
    ∃ k, 2 ≤ k ∧ k ≤ 5 ∧ (e.1, k) ∈ setCodes q n v := by
  simp only [State.memberRows, List.mem_cons, List.not_mem_nil, or_false] at he
  rcases he with rfl | rfl | rfl | rfl
  · exact ⟨2, by decide, by decide, by simp [setCodes]⟩
  · exact ⟨3, by decide, by decide, by simp [setCodes]⟩
  · exact ⟨4, by decide, by decide, by simp [setCodes]⟩
  · exact ⟨5, by decide, by decide, by simp [setCodes]⟩

theorem memberRow_does {u : State} {q : Req} {n : Fin 8} {v : Word} (hm : v.toNat / 16 % 32 < (u.aset n).cfg.n)
    {e : Instr × Bool × Nat × Nat × Nat} (he : e ∈ u.memberRows q n v) :
    ∃ k dropped, (e.1, k) ∈ setCodes q n v ∧ flagNat dropped = e.2.2.2.2 ∧
      u.MemberRow n k (v.toNat / 16 % 32) (v.toNat.testBit 9) e.2.1 e.2.2.1 e.2.2.2.1 dropped := by
  simp only [State.memberRows, List.mem_cons, List.not_mem_nil, or_false] at he
  rcases he with rfl | rfl | rfl | rfl
  · exact ⟨2, _, by simp [setCodes], flagNat_drop v, State.setCmd_absent u hm _⟩
  · exact ⟨3, false, by simp [setCodes], rfl, State.setCmd_present u hm _⟩
  · exact ⟨4, false, by simp [setCodes], rfl, State.setCmd_rebuildStart u hm _⟩
  · exact ⟨5, false, by simp [setCodes], rfl, State.setCmd_rebuildEnd u hm _⟩

/-! ### What a membership command does (R305, R316, R380) -/

theorem State.formAll_single (n : Fin 8) (type : Nat) (body : List DWord) (desc : Option BoltDesc) (s : State) :
    s.formAll n [(type, body)] desc = s.formRecord n type body desc := by
  unfold State.formAll
  rw [List.zipIdx_cons, List.zipIdx_nil, List.foldl_cons, List.foldl_nil]
  dsimp only
  rw [if_pos (by simp)]

/-- The body of a MEMBER record. -/
def memberBody (present replacing wseq m drop : Nat) : List DWord :=
  [BitVec.ofNat 64 (present + replacing * 2 ^ 32), BitVec.ofNat 64 wseq, BitVec.ofNat 64 (m + drop * 32)]

section

variable {u : State} {n : Fin 8} (m : Nat) (dropped : Bool) (present replacing : Nat)

theorem State.memberCmd_down (h : u.primaryUp n = false ∨ (u.home n).journalUe = true) :
    u.memberCmd n m dropped present replacing = u.setRefuse n 4 := by
  unfold State.memberCmd
  refine if_neg fun hc => ?_
  simp only [Bool.and_eq_true, Bool.not_eq_true'] at hc
  rcases h with h | h
  · rw [h] at hc
    exact absurd hc.1 (by decide)
  · unfold State.home at h
    rw [h] at hc
    exact absurd hc.2 (by decide)

variable (hp : u.primaryUp n = true) (hue : (u.home n).journalUe = false) (ho : (u.aset n).owed = [])
include hp hue

theorem State.memberCmd_up {ok : Bool} {t : State}
    (h : u.formRecords n [(8, memberBody present replacing (u.wseqNext n) m (flagNat dropped))] false none = (ok, t)) :
    u.memberCmd n m dropped present replacing = if ok then t else t.setRefuse n 4 := by
  unfold memberBody at h
  unfold State.home at hue
  unfold State.memberCmd
  rw [hp, hue, Bool.not_false, Bool.and_self, if_pos rfl]
  dsimp only
  rw [h]

include ho

theorem State.memberCmd_full (hf : u.journalFits n [4] false = false) :
    u.memberCmd n m dropped present replacing = (u.sset n SetReg.JOURNAL_FULL).setRefuse n 4 := by
  rw [State.memberCmd_up m dropped present replacing hp hue (State.formRecords_full ho
    [(8, memberBody present replacing (u.wseqNext n) m (flagNat dropped))] false none hf), if_neg Bool.false_ne_true]

variable (hf : u.journalFits n [4] false = true)
include hf

theorem State.memberCmd_lost (hbad : (u.home n).journalBuf.bad 0 (2 ^ 32) = true) :
    u.memberCmd n m dropped present replacing = (u.bufferLost n).setRefuse n 4 := by
  rw [State.memberCmd_up m dropped present replacing hp hue (State.formRecords_lost ho
    [(8, memberBody present replacing (u.wseqNext n) m (flagNat dropped))] false none hf hue hbad), if_neg Bool.false_ne_true]

theorem State.memberCmd_formed (hbad : (u.home n).journalBuf.bad 0 (2 ^ 32) = false) :
    u.memberCmd n m dropped present replacing =
      (u.bufferTaken n).formRecord n 8 (memberBody present replacing (u.wseqNext n) m (flagNat dropped)) none := by
  rw [State.memberCmd_up m dropped present replacing hp hue (State.formRecords_formed ho
    [(8, memberBody present replacing (u.wseqNext n) m (flagNat dropped))] false none hf hue hbad), if_pos rfl]
  exact State.formAll_single _ _ _ _ _

end

/-! ### What the refusals of a set command leave -/

theorem refuse_apart (n : Fin 8) : apart SetReg.CMD_STATUS n [SetReg.CMD_REFUSED n] = true ∧
    apart SetReg.ONLINE_DONE n [SetReg.CMD_STATUS n, SetReg.CMD_REFUSED n] = true ∧
    volatile [SetReg.CMD_STATUS n, SetReg.CMD_REFUSED n] = true := by
  revert n; decide

theorem State.setRefuse_shows (s : State) (n : Fin 8) {k : Nat} (hk : k < 16) :
    (s.setRefuse n k).sr n SetReg.CMD_STATUS = k ∧ (s.setRefuse n k).sr n SetReg.CMD_REFUSED = 1 := by
  have h : (s.sw n SetReg.CMD_STATUS k).Steady False (storeFields ++ [SetReg.CMD_REFUSED n]) (s.setRefuse n k) :=
    State.sset_steady _ n (by simp)
  exact ⟨(h.keepsReg (refuse_apart n).1 (.inl rfl)).trans ((State.sr_sw_volatile rfl s k).trans (Nat.mod_eq_of_lt hk)),
    State.sr_sset rfl rfl _⟩

theorem State.setRefuse_steady {j : Prop} {fs : List Fld} {n : Fin 8} (hm : [SetReg.CMD_STATUS n.val, SetReg.CMD_REFUSED n.val] ⊆ fs) (s : State)
    (k : Nat) : s.Steady j fs (s.setRefuse n k) :=
  (State.sw_volatile_steady s n k (hm (by simp)) rfl).trans (State.sset_steady _ n (hm (by simp)))

theorem State.setRefuse_kept {f : Fld} {n : Fin 8} (hstatus : f.key ≠ (SetReg.CMD_STATUS n).key)
    (hrefused : f.key ≠ (SetReg.CMD_REFUSED n).key) (s : State) (k : Nat) : s.FieldKept f (s.setRefuse n k) :=
  (State.onPkg_kept s _ fun rf => rf.rd_wr_ne k hstatus).trans (State.pset_kept _ _ hrefused)

theorem State.onPkg_tiles (s : State) (w : Fin 2) (g : RegFile → RegFile) : (s.onPkg w g).tiles = s.tiles := by
  unfold State.onPkg
  split
  · rfl
  · rfl

/-- A field that does not persist takes its value in the package block alone. -/
theorem State.sw_volatile {n : Fin 8} {f : Nat → Fld} (hp : (f n).persist = false) (s : State) (v : Nat) :
    s.sw n f v = s.onPkg (s.aset n).wing (·.wr (f n) v) := by
  unfold State.sw State.pw
  rw [hp, if_neg Bool.false_ne_true]

theorem State.setRefuse_tiles (s : State) (n : Fin 8) (k : Nat) : (s.setRefuse n k).tiles = s.tiles := by
  unfold State.setRefuse State.sset State.pset
  rw [State.onPkg_tiles, State.sw_volatile rfl, State.onPkg_tiles]

theorem State.takeFree_steady {j : Prop} {fs : List Fld} (s : State) : s.Steady j fs s.takeFree :=
  ⟨rfl, rfl, fun _ => rfl, fun _ _ _ _ => rfl, fun _ _ _ => rfl, fun _ _ h => h, fun _ => .refl _, fun _ _ _ _ => rfl⟩

theorem State.takeFree_sr (s : State) (n : Fin 8) (f : Nat → Fld) : s.takeFree.sr n f = s.sr n f := rfl

/-- A persistent field that the stores do not take shows the refusal instead (R432). -/
theorem State.sw_refused {s : State} (hs : s.storeRefuses = true) {n : Fin 8} {f : Nat → Fld} (hp : (f n).persist = true) (v : Nat) :
    s.sw n f v = s.sset n fun _ => BootReg.SELV_REFUSED := by
  unfold State.sw State.pw
  rw [hp, if_pos rfl, if_pos hs]
  unfold State.sset
  rfl

/-- What the store's refusal of an ONLINE leaves (R432). -/
theorem State.online_refused {s u : State} (hs : s.ChangesOnly [.time, .tiles, .shadows] u) {n : Fin 8}
    (hd : u.sr n SetReg.ONLINE_DONE = 0) (hr : u.storeRefuses = true) {k : Nat} (hk : k < 16) (hpos : 1 ≤ k) :
    let t := ((u.sw n SetReg.ONLINE_DONE 1).setRefuse n k).takeFree
    t.sr n SetReg.ONLINE_DONE = 0 ∧ t.sr n (fun _ => BootReg.SELV_REFUSED) = 1 ∧ 1 ≤ t.sr n SetReg.CMD_STATUS ∧
    t.sr n SetReg.CMD_REFUSED = 1 ∧ (∀ w, (u.atrium w).KeepsFields (t.atrium w) [SetReg.CMD_STATUS n, SetReg.CMD_REFUSED n,
      BootReg.SELV_REFUSED]) ∧ t.tiles = u.tiles ∧ s.ChangesOnly [.time, .tiles, .atria, .free, .shadows] t := by
  rw [State.sw_refused hr rfl]
  generalize hu1 : (u.sset n fun _ => BootReg.SELV_REFUSED) = u1
  intro t
  obtain ⟨hstatus, hrefused⟩ := State.setRefuse_shows u1 n hk
  have h1 : u.Steady False [] u1 := hu1 ▸ State.refused_steady hr _
  have h2 : u.Steady False [SetReg.CMD_STATUS n.val, SetReg.CMD_REFUSED n.val] (u1.setRefuse n k) :=
    (h1.mono (List.nil_subset _)).trans (State.setRefuse_steady (List.Subset.refl _) u1 k)
  have hne : ∀ n : Fin 8, BootReg.SELV_REFUSED.key ≠ (SetReg.CMD_STATUS n).key ∧
      BootReg.SELV_REFUSED.key ≠ (SetReg.CMD_REFUSED n).key := by decide
  refine ⟨?_, ?_, hpos.trans_eq (hstatus.symm.trans (State.takeFree_sr _ n _).symm), (State.takeFree_sr _ n _).trans hrefused,
    fun w => (h2.trans (State.takeFree_steady _)).keepsFields w (by simp) (.inr (by simp)), ?_, ?_⟩
  · exact (State.takeFree_sr _ n _).trans
      (((h2.mono (List.subset_append_right storeFields _)).keepsReg (refuse_apart n).2.1 (.inr (refuse_apart n).2.2)).trans hd)
  · have hone : u1.sr n (fun _ => BootReg.SELV_REFUSED) = 1 := hu1 ▸ State.sr_sset rfl rfl u
    refine (State.takeFree_sr _ n _).trans ?_
    unfold State.sr at hone ⊢
    rw [State.pr_volatile rfl] at hone ⊢
    rw [h2.wing, ← h1.wing]
    exact (State.setRefuse_kept (hne n).1 (hne n).2 u1 k _).trans hone
  · exact (State.takeFree_tiles _).trans ((State.setRefuse_tiles u1 n k).trans (hu1 ▸ State.onPkg_tiles u _ _))
  · exact State.takeFree_changes (List.Subset.trans (by decide) (List.Subset.refl _))
      (State.setRefuse_changes (List.Subset.trans (by decide) (List.Subset.refl _)) n k
        (hu1 ▸ State.sset_changes (List.Subset.trans (by decide) (List.Subset.refl _)) n _ (hs.mono (by decide))))

end Sys2Proof.Machine

end

section

namespace Sys2Proof.Machine

/-! ### The outcomes of a membership command (R305, R315, R380) -/

theorem State.Queued.from_sets {n : Fin 8} {rs : List JRec} {s t u : State} (h : State.Queued n rs s t) (hs : s.sets = u.sets) :
    State.Queued n rs u t := by
  have ha (k : Fin 8) : s.aset k = u.aset k := by unfold State.aset; rw [hs]
  obtain ⟨⟨w, p, hn⟩, ho⟩ := h
  exact ⟨⟨w, p, by rw [hn, ha]⟩, fun k hk => (ho k hk).trans (ha k)⟩

/-- The set itself, but for what forming records changes. -/
theorem State.Queued.aset {n : Fin 8} {rs : List JRec} {s t : State} (h : State.Queued n rs s t) : t.aset n = { s.aset n with
    queue := (t.aset n).queue, wpos := (t.aset n).wpos, recPos := (t.aset n).recPos } := by
  obtain ⟨⟨w, p, hn⟩, -⟩ := h
  rw [hn]

theorem State.Queued.queue {n : Fin 8} {rs : List JRec} {s t : State} (h : State.Queued n rs s t) :
    (t.aset n).queue = (s.aset n).queue ++ rs := by
  obtain ⟨⟨w, p, hn⟩, -⟩ := h
  rw [hn]

theorem State.bufferTaken_sets (n : Fin 8) (s : State) : (s.bufferTaken n).sets = s.sets :=
  (State.bufferTaken_changes (ps := [.tiles, .atria]) (by decide) n (.refl s)).sets (by decide)

/-- Where the primary copy can be written, the stores take writes. -/
theorem State.primaryUp_stores {s : State} {n : Fin 8} (h : s.primaryUp n = true) : s.storeRefuses = false := by
  unfold State.primaryUp at h
  rw [Bool.and_eq_true] at h
  simpa using h.2

section

variable {s u : State} (hs : s.ChangesOnly [.time, .tiles, .shadows] u) {n : Fin 8}
include hs

/-- A MEMBER record is formed: it stands last in the queue, and nothing shows of it yet but the journal's own registers. -/
theorem State.member_formed (hr : u.storeRefuses = false) (hbad : (u.home n).journalBuf.bad 0 (2 ^ 32) = false) (body : List DWord) :
    let t := (u.bufferTaken n).formRecord n 8 body none
    ∃ x, (t.aset n).queue.getLast? = some x ∧ x.type = 8 ∧ x.body = body ∧ x.half = false ∧
      (u.aset n).queue.isPrefixOf (t.aset n).queue = true ∧
      t.aset n = { u.aset n with queue := (t.aset n).queue, wpos := (t.aset n).wpos, recPos := (t.aset n).recPos } ∧
      (∀ k, k ≠ n → t.aset k = u.aset k) ∧
      (∀ w, (u.atrium w).KeepsFields (t.atrium w) [SetReg.JFREE n, SetReg.JSEQ_NEXT n]) ∧
      s.ChangesOnly [.time, .tiles, .sets, .atria, .shadows] t := by
  intro t
  obtain ⟨pads, x, -, ⟨htype, hbody, hhalf⟩, hq⟩ := State.formRecord_queued n 8 body none (u.bufferTaken n)
  have hq : State.Queued n (pads ++ [x]) u t := hq.from_sets (State.bufferTaken_sets n u)
  have hsteady : u.Steady False (journalFields n) t :=
    (State.bufferTaken_steady hbad).trans (State.formRecord_steady (List.Subset.refl _) 8 body none _)
  refine ⟨x, ?_, htype, hbody, hhalf, ?_, hq.aset, hq.2, fun w => hsteady.keepsFields w (List.Subset.refl _) (.inl hr), ?_⟩
  · rw [hq.queue, ← List.append_assoc, List.getLast?_concat]
  · rw [hq.queue]
    simp
  · exact State.formRecord_changes (List.Subset.trans (by decide) (List.Subset.refl _)) n 8 body none
      (State.bufferTaken_changes (by decide) n (hs.mono (by decide)))

/-- The journal buffer is lost: the command is refused, and the set's home tile stops. -/
theorem State.member_lost : let t := (u.bufferLost n).setRefuse n 4
    t.aset n = u.aset n ∧ t.sr n SetReg.CMD_STATUS = 4 ∧ t.sr n SetReg.CMD_REFUSED = 1 ∧
    (t.tile (u.aset n).cfg.homeTile).journalUe = true ∧ s.ChangesOnly [.time, .tiles, .ports, .atria, .pkg, .shadows] t := by
  intro t
  obtain ⟨hstatus, hrefused⟩ := State.setRefuse_shows (u.bufferLost n) n (k := 4) (by decide)
  have hchanges {s₀ : State} (h : s₀.ChangesOnly [.time, .tiles, .ports, .atria, .pkg, .shadows] u) :
      s₀.ChangesOnly [.time, .tiles, .ports, .atria, .pkg, .shadows] t :=
    State.setRefuse_changes (by decide) n 4 (State.bufferLost_changes (by decide) n h)
  refine ⟨?_, hstatus, hrefused, ?_, hchanges (hs.mono (by decide))⟩
  · exact congrArg (fun v => v[n]) ((hchanges (.refl u)).sets (by decide))
  · have htile : (t.tile (u.aset n).cfg.homeTile).journalUe = ((u.bufferLost n).tile (u.aset n).cfg.homeTile).journalUe :=
      ((State.setRefuse_steady (j := False) (List.Subset.refl _) (u.bufferLost n) 4).tile _).2.2.1
    rw [htile, State.bufferLost_ue]

end

/-! ### Set commands with their refusals (R303 to R305) -/

section

variable {s u : State} {q : Req} {n : Fin 8} (ok : s.accessOf q (.pkg (0x4000 + 0x100 * n.val)) = .ok)
  (hu : s.atSetCmd q n = u) (v : Word)
include ok hu

theorem State.atSetCmd_only : s.ChangesOnly [.time, .tiles, .shadows] u := by
  rw [← hu]
  exact State.atPkg_only ok

/-- A command that its set refuses with this code. -/
theorem setCommand_refused {e : Instr × Nat} (he : e ∈ setCodes q n v) {k : Nat}
    (h : u.setCmd n (u.allowedSet q n) e.2 (v.toNat / 16 % 32) (v.toNat.testBit 9) =
      u.setRefuse n k) : exec e.1 s = .next (u.setRefuse n k) := by
  rw [exec_setCommand ok v he, hu, h]

theorem setCommand_unauth (ha : u.allowedSet q n = false) {i : Instr} (hi : i ∈ (setCodes q n v).map (·.1)) :
    exec i s = .next (u.setRefuse n 2) := by
  obtain ⟨e, he, rfl⟩ := List.mem_map.1 hi
  exact setCommand_refused ok hu v he (by rw [ha, State.setCmd_unauth])

variable (ha : u.allowedSet q n = true)
include ha

theorem setCommand_reserved : exec (.setCmdReserved q n v) s = .next (u.setRefuse n 3) := by
  have he : (Instr.setCmdReserved q n v, reservedCode (SetReg.CMD n.val) 8 15 v) ∈ setCodes q n v := by simp [setCodes]
  refine setCommand_refused ok hu v he ?_
  rw [ha]
  have := (reservedCode_setCmd n v).1
  exact State.setCmd_invalid _ _ (by omega)

theorem setCommand_unused (hn : (u.aset n).cfg.n = 0) {i : Instr} (hi : i ∈ (setCodes q n v).map (·.1)) :
    exec i s = .next (u.setRefuse n 3) := by
  obtain ⟨e, he, rfl⟩ := List.mem_map.1 hi
  refine setCommand_refused ok hu v he ?_
  rw [ha]
  exact State.setCmd_invalid _ _ (.inr (.inr (.inl hn)))

theorem setCommand_noMember (hm : (u.aset n).cfg.n ≤ v.toNat / 16 % 32) {e : Instr × Bool × Nat × Nat × Nat}
    (he : e ∈ u.memberRows q n v) : exec e.1 s = .next (u.setRefuse n 3) := by
  obtain ⟨k, hlo, hhi, hk⟩ := memberRow_code he
  refine setCommand_refused ok hu v hk ?_
  rw [ha]
  exact State.setCmd_invalid _ _ (.inr (.inr (.inr ⟨hlo, hhi, hm⟩)))

theorem setCommand_online {t : State} (h : u.setCmd n true 1 (v.toNat / 16 % 32) (v.toNat.testBit 9) = t) :
    exec (.online q n v) s = .next t := by
  have hexec := exec_setCommand ok v (e := (.online q n v, 1)) (by simp [setCodes])
  rw [hu, ha, h] at hexec
  exact hexec

section

variable (hn : (u.aset n).cfg.n ≠ 0)
include hn

theorem setCommand_onlineAgain (h : u.sr n SetReg.ONLINE_DONE ≠ 0) :
    exec (.online q n v) s = .next (u.setRefuse n 1) :=
  setCommand_online ok hu v ha (by rw [State.setCmd_online _ hn, if_pos h])

section

variable (h : u.sr n SetReg.ONLINE_DONE = 0)
include h

theorem setCommand_onlineTaken (hr : u.storeRefuses = false) :
    exec (.online q n v) s = .next ((u.sw n SetReg.ONLINE_DONE 1).setOk n) :=
  setCommand_online ok hu v ha (by rw [State.setCmd_online _ hn, if_neg (not_not.2 h), hr, if_neg Bool.false_ne_true])

theorem setCommand_onlineRefused (hr : u.storeRefuses = true) : exec (.online q n v) s =
    .next ((u.sw n SetReg.ONLINE_DONE 1).setRefuse n (1 + Config.freeValue u.freeCount % 4)).takeFree :=
  setCommand_online ok hu v ha (by rw [State.setCmd_online _ hn, if_neg (not_not.2 h), if_pos hr])

end

theorem setCommand_suspend : exec (.suspend q n v) s = .next ((u.sw n SetReg.SUSP_CAUSE (u.sr n SetReg.SUSP_CAUSE ||| 2)).setOk n) := by
  have h := exec_setCommand ok v (e := (.suspend q n v, 6)) (by simp [setCodes])
  rw [hu, ha, State.setCmd_suspend _ hn] at h
  exact h

theorem setCommand_resume : exec (.resume q n v) s = .next ((u.sw n SetReg.SUSP_CAUSE (u.sr n SetReg.SUSP_CAUSE &&& 13)).setOk n) := by
  have h := exec_setCommand ok v (e := (.resume q n v, 7)) (by simp [setCodes])
  rw [hu, ha, State.setCmd_resume _ hn] at h
  exact h

end

section

variable (hm : v.toNat / 16 % 32 < (u.aset n).cfg.n) {e : Instr × Bool × Nat × Nat × Nat}
  (he : e ∈ u.memberRows q n v)
include hm he

theorem setCommand_notMember (hc : e.2.1 = false) : exec e.1 s = .next (u.setRefuse n 1) := by
  obtain ⟨k, dropped, hk, -, hrefused, -⟩ := memberRow_does hm he
  refine setCommand_refused ok hu v hk ?_
  rw [ha]
  exact hrefused hc

theorem setCommand_member (hc : e.2.1 = true) : ∃ dropped, flagNat dropped = e.2.2.2.2 ∧ exec e.1 s =
    .next (u.memberCmd n (v.toNat / 16 % 32) dropped e.2.2.1 e.2.2.2.1) := by
  obtain ⟨k, dropped, hk, hd, -, hdone⟩ := memberRow_does hm he
  refine ⟨dropped, hd, ?_⟩
  rw [exec_setCommand ok v hk, hu, ha, hdone hc]

end

end

end Sys2Proof.Machine

end

section

namespace Sys2Proof.Machine

/-! ### The pacing of background work (R324) -/

/-- Credit accrues for each whole microsecond that has passed. -/
theorem execCreditAccrual_accrues {s u : State} {wait : Nat} (hu : s.pass wait = u) {t : Fin 8} (ht : u.tileUp t = true) :
    let x := u.tile t; let b := x.bolt
    b.lastAccrual + 1600 ≤ u.cycle → let us := (u.cycle - b.lastAccrual) / 1600
      CompletesTile (.creditAccrual wait t) s u t fun y => y.regs = x.regs ∧ y.bolt = { b with
        credit := min (atLeast1 (x.r BoltReg.CREDIT_MAX) * 2 ^ 20) (b.credit + x.r BoltReg.RATE_NOW * us)
        lastAccrual := b.lastAccrual + 1600 * us } := by
  intro x b hd us
  have hdue : (u.tileUp t && u.since (u.tile t).bolt.lastAccrual cyclesPerUs) = true := by
    rw [ht]
    exact decide_eq_true hd
  subst hu
  refine ⟨_, (show execCreditAccrual wait t s = _ from State.after_due _ hdue), rfl, ?_⟩
  rw [Nat.mul_comm 1600 us]
  rfl

/-- A pacing window ends: the share of host work sets the rate. -/
theorem execPaceWindowEnd_ends {s u : State} {wait : Nat} (hu : s.pass wait = u) {t : Fin 8} (ht : u.tileUp t = true) :
    let x := u.tile t; let b := x.bolt
    b.winStart + cyclesOfUs (atLeast1 (x.r BoltReg.PACE_WIN)) ≤ u.cycle →
      let busy := b.hostBusy + (if x.hostWork then u.cycle - b.hostMark else 0)
      let share := 65536 * busy / (u.cycle - b.winStart)
      CompletesTile (.paceWindowEnd wait t) s u t fun y =>
        y.r BoltReg.U_LAST = min 65535 share ∧ y.r BoltReg.RATE_NOW = (x.r BoltReg.REB_FLOOR +
          (x.r BoltReg.REB_CEIL - x.r BoltReg.REB_FLOOR) * (65536 - share) / 65536) % 2 ^ BoltReg.RATE_NOW.width ∧
        y.bolt = { b with hostBusy := 0, hostMark := u.cycle, winStart := u.cycle } ∧
        x.KeepsFields y [BoltReg.U_LAST, BoltReg.RATE_NOW] := by
  intro x b hd busy share
  have hdue : (u.tileUp t && u.since (u.tile t).bolt.winStart (u.tile t).paceWindow) = true := by
    rw [ht]
    exact decide_eq_true hd
  let rate := x.r BoltReg.REB_FLOOR + (x.r BoltReg.REB_CEIL - x.r BoltReg.REB_FLOOR) * (65536 - share) / 65536
  let z : Tile := (x.w BoltReg.RATE_NOW rate).w BoltReg.U_LAST (min 65535 share)
  have hexec : exec (.paceWindowEnd wait t) s =
      .next (u.setTile t { z with bolt := { b with hostBusy := 0, hostMark := u.cycle, winStart := u.cycle } }) := by
    subst hu
    refine (show execPaceWindowEnd wait t s = _ from State.after_due _ hdue).trans ?_
    unfold State.boltCount
    rw [State.onTile_onTile]
    rfl
  refine ⟨_, hexec, ?_, ?_, rfl, fun f _ hf => ?_⟩
  · exact (RegFile.rd_wr_self _ _ _).trans (Nat.mod_eq_of_lt ((Nat.min_le_left _ _).trans_lt (by decide)))
  · exact (RegFile.rd_wr_ne _ _ (by decide)).trans (RegFile.rd_wr_self _ _ _)
  · exact (RegFile.rd_wr_ne _ _ (hf _ (by simp))).trans (RegFile.rd_wr_ne _ _ (hf _ (by simp)))

end Sys2Proof.Machine

end

section

namespace Sys2Proof.Machine

/-! ### The ranges of a COMMIT record (R316) -/

theorem wseqsOf_cons (r : Nat × Nat) (l : List (Nat × Nat)) : wseqsOf (r :: l) = (List.range r.2).map (r.1 + ·) ++ wseqsOf l := rfl

theorem mem_wseqsOf {l : List (Nat × Nat)} {w : Nat} : w ∈ wseqsOf l ↔ ∃ r ∈ l, r.1 ≤ w ∧ w < r.1 + r.2 := by
  unfold wseqsOf
  simp only [List.mem_flatMap, List.mem_map, List.mem_range]
  constructor
  · rintro ⟨r, hr, i, hi, rfl⟩
    exact ⟨r, hr, by omega, by omega⟩
  · rintro ⟨r, hr, hlo, hhi⟩
    exact ⟨r, hr, w - r.1, by omega, by omega⟩

/-- The runs of a list name its elements in their order. -/
theorem wseqsOf_runsOf (l : List Nat) : wseqsOf (runsOf l) = l := by
  induction l with
  | nil => rfl
  | cons w l ih =>
    unfold runsOf
    split
    next a n r h =>
      rw [h, wseqsOf_cons] at ih
      split
      next hc =>
        obtain ⟨rfl, -⟩ := hc
        rw [wseqsOf_cons, List.range_succ_eq_map, List.map_cons, List.map_map, List.cons_append, ← ih]
        congr 2
        refine List.map_congr_left fun i _ => ?_
        show w + (i + 1) = w + 1 + i
        omega
      · rw [wseqsOf_cons, wseqsOf_cons, ih]
        rfl
    next h =>
      rw [h] at ih
      rw [wseqsOf_cons, ← ih]
      rfl

/-- A run begins at an element, and its length fits its field. -/
theorem mem_runsOf {l : List Nat} {r : Nat × Nat} (hr : r ∈ runsOf l) : r.1 ∈ l ∧ 1 ≤ r.2 ∧ r.2 ≤ 1056 := by
  induction l generalizing r with
  | nil => cases hr
  | cons w l ih =>
    unfold runsOf at hr
    split at hr
    next a n k h =>
      have hlater {q : Nat × Nat} (hq : q ∈ (a, n) :: k) : q.1 ∈ w :: l ∧ 1 ≤ q.2 ∧ q.2 ≤ 1056 := by
        obtain ⟨hq1, hq2⟩ := ih (h ▸ hq)
        exact ⟨List.mem_cons_of_mem _ hq1, hq2⟩
      split at hr
      next hc =>
        rcases List.mem_cons.1 hr with rfl | hr
        · exact ⟨List.mem_cons_self, Nat.le_add_left 1 n, by omega⟩
        · exact hlater (List.mem_cons_of_mem _ hr)
      · rcases List.mem_cons.1 hr with rfl | hr
        · exact ⟨List.mem_cons_self, Nat.le_refl 1, (by decide : 1 ≤ 1056)⟩
        · exact hlater hr
    · rcases List.mem_singleton.1 hr with rfl
      exact ⟨List.mem_cons_self, Nat.le_refl 1, (by decide : 1 ≤ 1056)⟩

theorem length_runsOf_le (l : List Nat) : (runsOf l).length ≤ l.length := by
  induction l with
  | nil => exact Nat.le_refl 0
  | cons w l ih =>
    unfold runsOf
    split
    next a n r h =>
      rw [h] at ih
      split
      · exact ih.trans (Nat.le_succ _)
      · exact Nat.succ_le_succ ih
    · exact Nat.succ_le_succ (Nat.zero_le _)

/-- The words of ranges spell them. -/
theorem rangesOf_rangeWords {l : List (Nat × Nat)} (h : ∀ r ∈ l, r.1 < 2 ^ 40 ∧ r.2 < 2 ^ 16) : rangesOf (rangeWords l) = l := by
  unfold rangesOf rangeWords
  rw [List.map_map]
  refine (List.map_congr_left fun r hr => ?_).trans (List.map_id l)
  obtain ⟨h1, h2⟩ := h r hr
  have hword : (BitVec.ofNat 64 (r.1 % 2 ^ 40 + r.2 * 2 ^ 40)).toNat = r.1 + r.2 * 2 ^ 40 := by
    rw [BitVec.toNat_ofNat, Nat.mod_eq_of_lt h1]
    exact Nat.mod_eq_of_lt (by omega)
  have hlo : bitsOf (r.1 + r.2 * 2 ^ 40) 39 0 = r.1 := by
    unfold bitsOf
    rw [Nat.shiftRight_zero]
    omega
  have hhi : bitsOf (r.1 + r.2 * 2 ^ 40) 55 40 = r.2 := by
    unfold bitsOf
    rw [Nat.shiftRight_eq_div_pow]
    omega
  show (bitsOf (BitVec.ofNat 64 (r.1 % 2 ^ 40 + r.2 * 2 ^ 40)).toNat 39 0,
    bitsOf (BitVec.ofNat 64 (r.1 % 2 ^ 40 + r.2 * 2 ^ 40)).toNat 55 40) = r
  rw [hword, hlo, hhi]

/-- The pieces of a list are the whole of it. -/
theorem flatten_piecesOf {α : Type} {n : Nat} (hn : 1 ≤ n) (fuel : Nat) (l : List α) (h : l.length < fuel) :
    (piecesOf n fuel l).flatten = l := by
  induction fuel generalizing l with
  | zero => cases h
  | succ fuel ih =>
    unfold piecesOf
    split
    · exact List.append_nil l
    · rw [List.flatten_cons, ih (l.drop n) (by rw [List.length_drop]; omega), List.take_append_drop]

theorem rangesOf_flatten (bs : List (List DWord)) : rangesOf bs.flatten = bs.flatMap rangesOf := by
  unfold rangesOf
  rw [List.map_flatten, List.flatMap_def]

/-- The bodies of the COMMIT records for a list of stripes. -/
def commitBodies (want : List Nat) : List (List DWord) := piecesOf 255 (want.length + 1) (rangeWords (runsOf want))

/-- They name its stripes, in order. -/
theorem commitBodies_name {want : List Nat} (h : ∀ w ∈ want, w < 2 ^ 40) :
    (commitBodies want).flatMap (fun b => wseqsOf (rangesOf b)) = want := by
  have hlen : (rangeWords (runsOf want)).length < want.length + 1 := by
    unfold rangeWords
    rw [List.length_map]
    exact Nat.lt_succ_of_le (length_runsOf_le want)
  have hflat : (commitBodies want).flatten = rangeWords (runsOf want) := flatten_piecesOf (by decide) _ _ hlen
  have hranges : (commitBodies want).flatMap rangesOf = runsOf want := by
    rw [← rangesOf_flatten, hflat]
    refine rangesOf_rangeWords fun r hr => ?_
    obtain ⟨h1, -, h3⟩ := mem_runsOf hr
    exact ⟨h _ h1, h3.trans_lt (by decide)⟩
  calc (commitBodies want).flatMap (fun b => wseqsOf (rangesOf b))
      = wseqsOf ((commitBodies want).flatMap rangesOf) := by
        unfold wseqsOf
        rw [List.flatMap_assoc]
    _ = want := by rw [hranges, wseqsOf_runsOf]

/-! ### Stripes that no longer wait for a commit (R313) -/

theorem ASet.decided_iff (a : ASet) (ty w : Nat) : a.decided ty w = true ↔
    (∃ r ∈ a.queue, r.type = ty ∧ w ∈ wseqsOf (rangesOf r.body)) ∨ ∃ r ∈ a.owed, r.1 = ty ∧ w ∈ wseqsOf (rangesOf r.2) := by
  unfold ASet.decided
  simp [mem_wseqsOf]

/-- Where the queue has grown alone, and every stripe that was ready has its COMMIT record, none is ready. -/
theorem ASet.readyWseqs_settled {a b : ASet} (hbands : b.bands = a.bands) (hpairs : b.pairs = a.pairs) (hcfg : b.cfg = a.cfg)
    (howed : b.owed = a.owed) {rs : List JRec} (hq : b.queue = a.queue ++ rs)
    (hd : ∀ w ∈ a.readyWseqs, b.decided 4 w = true) : b.readyWseqs = [] := by
  have hgrows (ty w : Nat) (h : a.decided ty w = true) : b.decided ty w = true := by
    rw [ASet.decided_iff] at h ⊢
    rw [hq, howed]
    exact h.imp (fun ⟨r, hr, hw⟩ => ⟨r, List.mem_append_left _ hr, hw⟩) id
  have hdelta (o : OpenBand) (i : Nat) (h : a.deltaWaits o i = true) : b.deltaWaits o i = true := by
    unfold ASet.deltaWaits at h ⊢
    rw [hq, hcfg, List.any_append, h, Bool.true_or]
  have hlanded (o : OpenBand) (i k : Nat) : b.allLanded o i k = a.allLanded o i k := by
    unfold ASet.allLanded ASet.isLanded
    rw [hpairs]
  have hnone (o : OpenBand) (ho : o ∈ a.bands) (i : Nat) (hi : i < o.count) : b.ready o i = false := by
    cases hb : b.ready o i with
    | false => rfl
    | true =>
      have hold : a.ready o i = true := by
        unfold ASet.ready at hb ⊢
        simp only [Bool.and_eq_true, Bool.not_eq_true', hlanded, hcfg] at hb ⊢
        obtain ⟨⟨⟨⟨⟨h1, h2⟩, h3⟩, h4⟩, h5⟩, h6⟩ := hb
        refine ⟨⟨⟨⟨⟨h1, h2⟩, ?_⟩, ?_⟩, ?_⟩, h6⟩
        · exact Bool.eq_false_iff.2 fun h => by rw [hgrows _ _ h] at h3; cases h3
        · exact Bool.eq_false_iff.2 fun h => by rw [hgrows _ _ h] at h4; cases h4
        · exact Bool.eq_false_iff.2 fun h => by rw [hdelta _ _ h] at h5; cases h5
      have hmem : o.wseqFirst + i ∈ a.readyWseqs :=
        List.mem_flatMap.2 ⟨o, ho, List.mem_map.2 ⟨i, List.mem_filter.2 ⟨List.mem_range.2 hi, hold⟩, rfl⟩⟩
      have hdec := hd _ hmem
      unfold ASet.ready at hb
      simp [hdec] at hb
  unfold ASet.readyWseqs
  rw [hbands, List.flatMap_eq_nil_iff]
  intro o ho
  rw [List.map_eq_nil_iff, List.filter_eq_nil_iff]
  intro i hi
  rw [hnone o ho i (List.mem_range.1 hi)]
  exact Bool.false_ne_true

end Sys2Proof.Machine

end

section

namespace Sys2Proof.Machine

/-! ### Records of one type are formed together -/

/-- The records that forming a list of them queues: those of type 4 have the list's bodies, in order. -/
theorem State.formAll_commits (n : Fin 8) (desc : Nat → Option BoltDesc) (bs : List (List DWord)) : ∀ (k : Nat) (s : State),
    ∃ rs, State.Queued n rs s (((bs.map fun b => (4, b)).zipIdx k).foldl
        (fun s r => s.formRecord n r.1.1 r.1.2 (desc r.2)) s) ∧
      (rs.filter (·.type == 4)).map (·.body) = bs := by
  induction bs with
  | nil => exact fun _ s => ⟨[], .refl n s, rfl⟩
  | cons b bs ih =>
    intro k s
    obtain ⟨pads, r, h0, ⟨htype, hbody, -⟩, hq⟩ := State.formRecord_queued n 4 b (desc k) s
    obtain ⟨rs, hrs, hbodies⟩ := ih (k + 1) (s.formRecord n 4 b (desc k))
    refine ⟨(pads ++ [r]) ++ rs, hq.trans hrs, ?_⟩
    have hpads : pads.filter (·.type == 4) = [] := List.filter_eq_nil_iff.2 fun p hp => by simp [h0 p hp]
    have hr : [r].filter (·.type == 4) = [r] := by simp [htype]
    rw [List.filter_append, List.filter_append, hpads, hr, List.nil_append, List.map_append, List.map_singleton, hbody, hbodies]
    rfl

theorem State.formAll_queued (n : Fin 8) (desc : Option BoltDesc) (bs : List (List DWord)) (s : State) :
    ∃ rs, State.Queued n rs s (s.formAll n (bs.map fun b => (4, b)) desc) ∧ (rs.filter (·.type == 4)).map (·.body) = bs :=
  State.formAll_commits n (fun k => if k + 1 = (bs.map fun b => (4, b)).length then desc else none) bs 0 s

theorem State.formAll_steady {j : Prop} {fs : List Fld} {n : Fin 8} (hm : journalFields n ⊆ fs) (rs : List (Nat × List DWord))
    (desc : Option BoltDesc) (s : State) : s.Steady j fs (s.formAll n rs desc) :=
  .foldl _ (fun u _ _ => State.formRecord_steady hm _ _ _ u) s

theorem State.formAll_changes {ps : List Part} (hm : ([.tiles, .sets, .atria] : List Part) ⊆ ps) {s₀ : State} (n : Fin 8)
    (rs : List (Nat × List DWord)) (desc : Option BoltDesc) {s : State} (hs : s₀.ChangesOnly ps s) :
    s₀.ChangesOnly ps (s.formAll n rs desc) :=
  State.ChangesOnly.foldl hs fun _ _ hu => State.formRecord_changes hm n _ _ _ hu

/-! ### STRIPE_COMMIT (R313) -/

/-- The COMMIT records of every ready stripe of set `n` are queued, and its map is as the pick left it. -/
def State.committed (n : Fin 8) (old picked : ASet) (t : State) : State :=
  (t.onSet n fun x => { x with extents := picked.extents, dropped := picked.dropped }).countDrops n old

section

variable {u t : State} {n : Fin 8} {rs : List JRec} (hq : State.Queued n rs u t) (old picked : ASet)

theorem State.committed_aset : (t.committed n old picked).aset n = { t.aset n with
    extents := picked.extents, dropped := picked.dropped } := by
  unfold State.committed State.countDrops
  rw [State.onTile_def, State.setTile_aset, State.onSet_aset]

theorem State.committed_aset_ne {k : Fin 8} (hk : k ≠ n) : (t.committed n old picked).aset k = t.aset k := by
  unfold State.committed State.countDrops
  rw [State.onTile_def, State.setTile_aset, State.onSet_aset_ne _ _ _ _ hk]

theorem State.committed_steady {j : Prop} {fs : List Fld} : t.Steady j fs (t.committed n old picked) := by
  have hdrops (x : State) (m : Nat) (i : Fin 8) : x.Steady j fs (x.onTile i (·.bump BoltReg.HIST_DROP m)) :=
    State.onTile_steady x i (Tile.plain_bump _ m (by decide))
  exact (State.onSet_steady t n rfl).trans (hdrops _ _ _)

include hq

/-- The set with its records queued, but for the places of the journal and the map. -/
theorem State.committed_set : ∃ wpos recPos, (t.committed n old picked).aset n = { u.aset n with
    queue := (u.aset n).queue ++ rs, wpos := wpos, recPos := recPos, extents := picked.extents, dropped := picked.dropped } := by
  obtain ⟨⟨w, p, h⟩, -⟩ := hq
  exact ⟨w, p, by rw [State.committed_aset, h]⟩

/-- The records name the stripes that were ready, and none is ready any more. -/
theorem State.committed_ready (hname : ∀ w ∈ (u.aset n).readyWseqs, w < 2 ^ 40)
    (hbodies : (rs.filter (·.type == 4)).map (·.body) = commitBodies (u.aset n).readyWseqs) : let b := (t.committed n old picked).aset n
    ((b.queue.drop (u.aset n).queue.length).filter (·.type == 4)).flatMap (fun r => wseqsOf (rangesOf r.body)) =
      (u.aset n).readyWseqs ∧ b.bands = (u.aset n).bands ∧ b.readyWseqs = [] := by
  have hnamed : (rs.filter (·.type == 4)).flatMap (fun r => wseqsOf (rangesOf r.body)) = (u.aset n).readyWseqs := by
    rw [← commitBodies_name hname, ← hbodies, List.flatMap_map]
  obtain ⟨w, p, hset⟩ := State.committed_set hq old picked
  intro b
  have hb : b = _ := hset
  clear_value b
  subst hb
  refine ⟨?_, rfl, ASet.readyWseqs_settled (a := u.aset n) rfl rfl rfl rfl rfl fun w hw => ?_⟩
  · rw [List.drop_left]
    exact hnamed
  · rw [← hnamed, List.mem_flatMap] at hw
    obtain ⟨r, hr, hrw⟩ := hw
    rw [List.mem_filter] at hr
    rw [ASet.decided_iff]
    exact .inl ⟨r, List.mem_append_right _ hr.1, by simpa using hr.2, hrw⟩

end

/-- A set that is suspended by nothing but its software's own bit can write its journal. -/
theorem State.journalWritable {s : State} {n : Fin 8} (h : s.suspCause n &&& 13 = 0) :
    (s.home n).journalUe = false ∧ s.primaryUp n = true := by
  have hbits : ∀ a b c d : Bool, causeOf a b c d &&& 13 = 0 → c = false ∧ d = false := by decide
  obtain ⟨hdown, hjournal⟩ := hbits _ _ _ _ h
  rw [hdown] at hjournal
  simp only [Bool.or_eq_false_iff, Bool.not_false, Bool.true_and, Bool.and_eq_false_iff, Bool.not_eq_false'] at hjournal
  obtain ⟨hue, hp⟩ := hjournal
  refine ⟨hue, hp.elim id fun hm => ?_⟩
  unfold State.mirrorUp at hm
  simp only [Bool.and_eq_true] at hm
  exact hm.1.1

section

variable {s u : State} {wait : Nat} (hu : s.pass wait = u) {n : Fin 8} (hwant : (u.aset n).readyWseqs ≠ [])
  (hreplayed : (u.aset n).replayed = true) (hsusp : u.suspCause n &&& 13 = 0)
include hu hwant hreplayed hsusp

theorem execStripeCommit_due : exec (.stripeCommit wait n) s = .next (u.commitStripes n) := by
  subst hu
  refine (show execStripeCommit wait n s = _ from State.after_due _ ?_)
  rw [hreplayed, hsusp]
  simpa using hwant

variable (hpick : ((u.aset n).pickCommits [] (u.aset n).readyWseqs).2 = (u.aset n).readyWseqs)
include hpick

/-- The commit of every ready stripe, as the forming of its records turns out. -/
theorem execStripeCommit_forms {ok : Bool} {t : State}
    (h : u.formRecords n ((commitBodies (u.aset n).readyWseqs).map fun b => (4, b)) true none = (ok, t)) :
    exec (.stripeCommit wait n) s = .next (if ok then
      t.committed n (u.aset n) ((u.aset n).pickCommits [] (u.aset n).readyWseqs).1 else t) := by
  unfold commitBodies at h
  have hempty : (u.aset n).readyWseqs.isEmpty = false := by simpa using hwant
  rw [execStripeCommit_due hu hwant hreplayed hsusp]
  unfold State.commitStripes
  dsimp only
  rw [hpick, if_pos rfl, hempty, if_neg Bool.false_ne_true, h]
  rfl

variable (ho : (u.aset n).owed = [])
include ho

theorem execStripeCommit_full
    (hf : u.journalFits n ((commitBodies (u.aset n).readyWseqs).map fun b => 1 + b.length) true = false) :
    exec (.stripeCommit wait n) s = .next (u.sset n SetReg.JOURNAL_FULL) := by
  rw [execStripeCommit_forms hu hwant hreplayed hsusp hpick
    (State.formRecords_full ho _ true none (by rw [List.map_map]; exact hf)), if_neg Bool.false_ne_true]

variable (hf : u.journalFits n ((commitBodies (u.aset n).readyWseqs).map fun b => 1 + b.length) true = true)
include hf

theorem execStripeCommit_lost (hbad : (u.home n).journalBuf.bad 0 (2 ^ 32) = true) :
    Completes (.stripeCommit wait n) s fun t => t.sets = u.sets ∧ (t.tile (u.aset n).cfg.homeTile).journalUe = true ∧
      s.ChangesOnly [.time, .tiles, .ports, .atria, .pkg] t := by
  have hchanges {s₀ : State} (h : s₀.ChangesOnly [.time, .tiles, .ports, .atria, .pkg] u) :
      s₀.ChangesOnly [.time, .tiles, .ports, .atria, .pkg] (u.bufferLost n) := State.bufferLost_changes (by decide) n h
  refine ⟨u.bufferLost n, ?_, (hchanges (.refl u)).sets (by decide), State.bufferLost_ue n u,
    hchanges (hu ▸ State.pass_changes (by decide) wait (.refl s))⟩
  rw [execStripeCommit_forms hu hwant hreplayed hsusp hpick (State.formRecords_lost ho _ true none
    (by rw [List.map_map]; exact hf) (State.journalWritable hsusp).1 hbad), if_neg Bool.false_ne_true]

theorem execStripeCommit_formed (hname : ∀ w ∈ (u.aset n).readyWseqs, w < 2 ^ 40)
    (hbad : (u.home n).journalBuf.bad 0 (2 ^ 32) = false) :
    Completes (.stripeCommit wait n) s fun t =>
      (((t.aset n).queue.drop (u.aset n).queue.length).filter (·.type == 4)).flatMap (fun r => wseqsOf (rangesOf r.body)) =
        (u.aset n).readyWseqs ∧
      (t.aset n).bands = (u.aset n).bands ∧ (t.aset n).readyWseqs = [] ∧ (∀ k, k ≠ n → t.aset k = u.aset k) ∧
      (∀ w, (u.atrium w).KeepsFields (t.atrium w) [SetReg.JFREE n, SetReg.JSEQ_NEXT n]) ∧
      s.ChangesOnly [.time, .tiles, .sets, .atria] t := by
  obtain ⟨hue, hup⟩ := State.journalWritable hsusp
  have hexec := execStripeCommit_forms hu hwant hreplayed hsusp hpick
    (State.formRecords_formed ho _ true none (by rw [List.map_map]; exact hf) hue hbad)
  rw [if_pos rfl] at hexec
  obtain ⟨rs, hq, hbodies⟩ := State.formAll_queued n none (commitBodies (u.aset n).readyWseqs) (u.bufferTaken n)
  have hq := hq.from_sets (State.bufferTaken_sets n u)
  have hsteady : u.Steady False (journalFields n) ((u.bufferTaken n).formAll n
      ((commitBodies (u.aset n).readyWseqs).map fun b => (4, b)) none) :=
    (State.bufferTaken_steady hbad).trans (State.formAll_steady (List.Subset.refl _) _ none _)
  have hchanges : s.ChangesOnly [.time, .tiles, .sets, .atria] ((u.bufferTaken n).formAll n
      ((commitBodies (u.aset n).readyWseqs).map fun b => (4, b)) none) :=
    State.formAll_changes (by decide) n _ none
      (State.bufferTaken_changes (by decide) n (hu ▸ State.pass_changes (by decide) wait (.refl s)))
  generalize (u.bufferTaken n).formAll n ((commitBodies (u.aset n).readyWseqs).map fun b => (4, b)) none = t at *
  obtain ⟨hnames, hbands, hnone⟩ := State.committed_ready hq (u.aset n) ((u.aset n).pickCommits [] (u.aset n).readyWseqs).1 hname hbodies
  refine ⟨_, hexec, hnames, hbands, hnone, fun k hk => (State.committed_aset_ne _ _ hk).trans (hq.2 k hk), fun w =>
    (hsteady.trans (State.committed_steady _ _)).keepsFields w (List.Subset.refl _) (.inl (State.primaryUp_stores hup)), ?_⟩
  exact State.countDrops_changes (by decide) n _ (State.onSet_changes (by decide) n _ hchanges)

end

end Sys2Proof.Machine

end

section

namespace Sys2Proof.Machine

/-! ### Completions of the Bolt engine (R328) leave the sets steady -/

variable {j : Prop} {fs : List Fld}

/-- What the engine itself changes of a tile. -/
theorem Tile.plain_bolt (x : Tile) (b : BoltSt) : x.Plain { x with bolt := b } := .of rfl rfl rfl rfl rfl rfl

theorem Tile.plain_flagIf (x : Tile) {g : Fld} (c : Bool) (hg : outKeys [(0x700000 * 32, 0x700002 * 32), (0x700010 * 32, 0x700012 * 32),
    (0x700020 * 32, 0x700022 * 32)] g.key = true) : x.Plain (x.flagIf c g) := by
  cases c
  · exact .refl x
  · exact Tile.plain_flag x hg

theorem State.boltCount_steady (t : Fin 8) (s : State) : s.Steady j fs (s.boltCount t) :=
  State.onTile_steady s t (Tile.plain_bolt _ _)

/-- A completion is in the ring. -/
theorem Tile.plain_posted (x : Tile) (v : Nat) (event refused : Bool) : x.Plain
    (((x.w BoltReg.CQ_WR v).flag (if event then BoltReg.COMMIT_EVT else BoltReg.DESC_DONE)).flagIf refused BoltReg.DESC_REFUSED) := by
  refine ((Tile.plain_w x v (by decide)).trans (Tile.plain_flag _ ?_)).trans (Tile.plain_flagIf _ _ (by decide))
  cases event <;> decide

section

variable (hw : wearFields ⊆ fs) (he : eventFields ⊆ fs)
include hw he

theorem State.boltPush_steady (t : Fin 8) (s : State) : s.Steady j fs (s.boltPush t) := by
  have hflag (x : Tile) : x.Plain (x.flag BoltReg.CQ_FULL) := Tile.plain_flag x (by decide)
  unfold State.boltPush
  split
  · exact .refl j fs s
  next c l hl =>
    dsimp only
    split
    · exact State.onTile_steady s t (hflag _)
    · refine (State.stackWrite_steady hw he t _ c s).trans (State.onTile_steady _ t ?_)
      exact (Tile.plain_posted _ _ _ _).trans (Tile.plain_bolt _ _)

theorem State.boltPost_steady (t : Fin 8) (c : BoltCpl) (s : State) : s.Steady j fs (s.boltPost t c) := by
  unfold State.boltPost State.boltFlush
  exact (State.onTile_steady s t (Tile.plain_bolt _ _)).trans (.foldl _ (fun u _ _ => State.boltPush_steady hw he t u) _)

theorem State.boltOk_steady (t : Fin 8) (d : BoltDesc) (s : State) : s.Steady j fs (s.boltOk t d) := by
  unfold State.boltOk State.boltDone
  exact ((State.boltCount_steady t s).trans (State.onTile_steady _ t (Tile.plain_bolt _ _))).trans (State.boltPost_steady hw he t _ _)

theorem State.unpark_steady (t : Fin 8) (e : BoltDesc × Bool) (s : State) : s.Steady j fs (s.unpark t e) := by
  unfold State.unpark
  exact ((State.boltCount_steady t s).trans (State.onTile_steady _ t (Tile.plain_bolt _ _))).trans (State.boltPost_steady hw he t _ _)

end

/-! ### Changes to the map (R319) -/

/-- The parts of a set that a change to its map leaves alone. -/
def ASet.Rows (a b : ASet) : Prop := b.cfg = a.cfg ∧ b.bands = a.bands ∧ b.queue = a.queue ∧ b.lag = a.lag

theorem ASet.Rows.refl (a : ASet) : a.Rows a := ⟨rfl, rfl, rfl, rfl⟩

theorem ASet.Rows.trans {a b c : ASet} (h : a.Rows b) (k : b.Rows c) : a.Rows c := by
  obtain ⟨h1, h2, h3, h4⟩ := h
  obtain ⟨k1, k2, k3, k4⟩ := k
  exact ⟨k1.trans h1, k2.trans h2, k3.trans h3, k4.trans h4⟩

theorem ASet.makeRoom_rows {a b : ASet} {want : Nat} (h : a.makeRoom want = some b) : a.Rows b := by
  unfold ASet.makeRoom at h
  dsimp only at h
  split at h
  · cases h
    exact .refl a
  split at h
  · cases h
  · cases h
    exact ⟨rfl, rfl, rfl, rfl⟩

theorem ASet.change_rows {a b : ASet} {m : MapWait} (h : a.change m = some b) : a.Rows b := by
  unfold ASet.change at h
  rw [Option.map_eq_some_iff] at h
  obtain ⟨c, hc, rfl⟩ := h
  exact (ASet.makeRoom_rows hc).trans ⟨rfl, rfl, rfl, rfl⟩

/-- Set `n` keeps those parts, and every other set is as it was. -/
def State.RowsKept (n : Fin 8) (s t : State) : Prop := (s.aset n).Rows (t.aset n) ∧ ∀ k, k ≠ n → t.aset k = s.aset k

section

variable {n : Fin 8} {s t u : State}

theorem State.RowsKept.refl (n : Fin 8) (s : State) : s.RowsKept n s := ⟨.refl _, fun _ _ => rfl⟩

theorem State.RowsKept.trans (h : State.RowsKept n s t) (k : State.RowsKept n t u) : State.RowsKept n s u :=
  ⟨h.1.trans k.1, fun i hi => (k.2 i hi).trans (h.2 i hi)⟩

theorem State.RowsKept.of_sets (h : t.sets = s.sets) : State.RowsKept n s t := by
  have ha (k : Fin 8) : t.aset k = s.aset k := by unfold State.aset; rw [h]
  exact ⟨by rw [ha]; exact .refl _, fun k _ => ha k⟩

theorem State.RowsKept.foldl {α : Type} {g : State → α → State} (l : List α) (hg : ∀ s a, State.RowsKept n s (g s a)) (s : State) :
    s.RowsKept n (l.foldl g s) := by
  induction l generalizing s with
  | nil => exact .refl n s
  | cons a l ih => exact (hg s a).trans (ih _)

theorem State.onSet_rows (s : State) {f : ASet → ASet} (hf : (s.aset n).Rows (f (s.aset n))) : s.RowsKept n (s.onSet n f) :=
  ⟨by rw [State.onSet_aset]; exact hf, fun k hk => State.onSet_aset_ne _ _ _ _ hk⟩

theorem State.countDrops_rows (old : ASet) (s : State) : s.RowsKept n (s.countDrops n old) := .of_sets rfl

theorem State.unpark_sets (t : Fin 8) (e : BoltDesc × Bool) (s : State) : (s.unpark t e).sets = s.sets :=
  (State.unpark_changes (ps := [.tiles, .atria]) (by decide) t e (.refl s)).sets (by decide)

theorem State.boltOk_sets (t : Fin 8) (d : BoltDesc) (s : State) : (s.boltOk t d).sets = s.sets :=
  (State.boltOk_changes (ps := [.tiles, .atria]) (by decide) t d (.refl s)).sets (by decide)

theorem State.refreshSet_sets (n : Fin 8) (s : State) : (s.refreshSet n).sets = s.sets :=
  (State.refreshSet_changes (ps := [.tiles, .ports, .atria, .pkg]) (by decide) n (.refl s)).sets (by decide)

end

theorem State.countDrops_steady {n : Fin 8} (old : ASet) (s : State) : s.Steady j fs (s.countDrops n old) := by
  have hdrops (x : State) (m : Nat) (i : Fin 8) : x.Steady j fs (x.onTile i (·.bump BoltReg.HIST_DROP m)) :=
    State.onTile_steady x i (Tile.plain_bump _ m (by decide))
  exact hdrops _ _ _

/-- A set whose map was changed. -/
theorem State.changed_steady {n : Fin 8} {a' : ASet} (s : State) (h : (s.aset n).Rows a') (old : ASet) :
    s.Steady j fs ((s.onSet n fun _ => a').countDrops n old) ∧ s.RowsKept n ((s.onSet n fun _ => a').countDrops n old) :=
  ⟨(State.onSet_steady s n h.1).trans (State.countDrops_steady _ _), (State.onSet_rows s h).trans (State.countDrops_rows _ _)⟩

section

variable (hw : wearFields ⊆ fs) (he : eventFields ⊆ fs) {n : Fin 8}
include hw he

theorem State.mapChange_steady (hm : SetReg.MAP_FULL n ∈ fs) (m : MapWait) (s : State) :
    s.Steady j fs (s.mapChange n m) ∧ s.RowsKept n (s.mapChange n m) := by
  unfold State.mapChange
  extract_lets a t
  split
  next a' ha =>
    extract_lets s1
    obtain ⟨h1, k1⟩ : s.Steady j fs s1 ∧ s.RowsKept n s1 := State.changed_steady s (ASet.change_rows ha) a
    split
    next d _ => exact ⟨h1.trans (State.boltOk_steady hw he t d s1), k1.trans (.of_sets (State.boltOk_sets t d s1))⟩
    · exact ⟨h1, k1⟩
  next s1 bg s2 _ _ =>
    have h1 : s.Steady j fs s1 := (State.sset_steady s n hm).trans (State.boltCount_steady t _)
    have k1 : s.RowsKept n s1 := .of_sets ((State.boltCount_changes (ps := [.tiles, .atria]) (by decide) t
      (State.sset_changes (by decide) n _ (.refl s))).sets (by decide))
    have h2 : s.Steady j fs s2 := h1.trans (State.onSet_steady s1 n rfl)
    have k2 : s.RowsKept n s2 := k1.trans (State.onSet_rows s1 ⟨rfl, rfl, rfl, rfl⟩)
    split
    · exact ⟨h2.trans (State.onTile_steady s2 t (Tile.plain_bolt _ _)), k2.trans (.of_sets rfl)⟩
    · exact ⟨h2, k2⟩

theorem State.loadDone_steady (hs : setStateFields n ⊆ fs) (s : State) : s.Steady j fs (s.loadDone n) ∧ s.RowsKept n (s.loadDone n) := by
  unfold State.loadDone
  extract_lets a
  split
  · exact ⟨.refl j fs s, .refl n s⟩
  next s1 _ =>
    have h1 : s.Steady j fs s1 := State.onSet_steady s n rfl
    have k1 : s.RowsKept n s1 := State.onSet_rows s ⟨rfl, rfl, rfl, rfl⟩
    exact ⟨(h1.trans (.foldl _ (fun u e _ => State.unpark_steady hw he _ e u) s1)).trans (State.refreshSet_steady hw he hs _),
      (k1.trans (.foldl _ (fun u e => .of_sets (State.unpark_sets _ e u)) s1)).trans (.of_sets (State.refreshSet_sets n _))⟩

theorem State.retryWaits_steady (hs : setStateFields n ⊆ fs) (s : State) :
    s.Steady j fs (s.retryWaits n) ∧ s.RowsKept n (s.retryWaits n) := by
  have hone (m : MapWait) (u : State) : let v : State := (let a := u.aset n
      match a.change m with
      | none => u
      | some a' =>
        let s := (u.onSet n fun _ => { a' with waits := a'.waits.erase m }).countDrops n a
        match m.desc with
        | none => s
        | some d => s.unpark a.cfg.homeTile (d, m.background))
      u.Steady j fs v ∧ u.RowsKept n v := by
    dsimp only
    split
    · exact ⟨.refl j fs u, .refl n u⟩
    next a' ha =>
      have hr : (u.aset n).Rows { a' with waits := a'.waits.erase m } := (ASet.change_rows ha).trans ⟨rfl, rfl, rfl, rfl⟩
      obtain ⟨h1, k1⟩ := State.changed_steady (j := j) (fs := fs) u hr (u.aset n)
      split
      · exact ⟨h1, k1⟩
      next d _ => exact ⟨h1.trans (State.unpark_steady hw he _ _ _), k1.trans (.of_sets (State.unpark_sets _ _ _))⟩
  unfold State.retryWaits
  obtain ⟨h, k⟩ := State.loadDone_steady (j := j) hw he hs (List.foldl _ s _)
  exact ⟨(State.Steady.foldl _ (fun u m _ => (hone m u).1) s).trans h, (State.RowsKept.foldl _ (fun u m => (hone m u).2) s).trans k⟩

end

end Sys2Proof.Machine

end

section

namespace Sys2Proof.Machine

/-! ### What a durable record leaves (R313, R314, R316, R319) -/

variable {j : Prop} {fs : List Fld} {n : Fin 8}

/-- What the record of a set changes of its registers and of what follows its state. -/
def recordFields (n : Fin 8) : List Fld :=
  [SetReg.PENDING n, SetReg.MAP_FULL n, SetReg.PRESENT n, SetReg.REPLACING n, SetReg.CKPT_SEQ n, SetReg.WSEQ_AT_LO n,
    SetReg.WSEQ_AT_HI n, SetReg.JSTART n] ++ journalFields n ++ doneFields n

theorem recordFields_setState (hm : recordFields n ⊆ fs) : setStateFields n ⊆ fs := fun _ hg =>
  hm (List.mem_append_right _ (List.mem_append_right _ hg))

theorem recordFields_journal (hm : recordFields n ⊆ fs) : journalFields n ⊆ fs := fun _ hg =>
  hm (List.mem_append_left _ (List.mem_append_right _ hg))

/-- The bands of set `n` are as a record leaves them; the map and what waits for it are as they were. -/
def State.taken (n : Fin 8) (type : Nat) (body : List DWord) (s : State) : State := s.onSet n (·.takeRecord type body)

/-- A record that is taken concerns the bands and their landed pairs alone. -/
theorem ASet.takeRecord_line (a : ASet) (type : Nat) (body : List DWord) : (a.takeRecord type body).cfg = a.cfg ∧
    (a.takeRecord type body).queue = a.queue ∧ (a.takeRecord type body).lag = a.lag := by
  unfold ASet.takeRecord
  dsimp only
  split
  · exact ⟨rfl, rfl, rfl⟩
  · exact ⟨rfl, rfl, rfl⟩
  · split <;> exact ⟨rfl, rfl, rfl⟩
  · exact ⟨rfl, rfl, rfl⟩
  · exact ⟨rfl, rfl, rfl⟩
  · exact ⟨rfl, rfl, rfl⟩
  · split <;> exact ⟨rfl, rfl, rfl⟩
  · exact ⟨rfl, rfl, rfl⟩

theorem State.taken_steady (n : Fin 8) (type : Nat) (body : List DWord) (s : State) : s.Steady j fs (s.taken n type body) :=
  State.onSet_steady s n (ASet.takeRecord_line _ _ _).1

/-- A change of the set that leaves its rows as the record does. -/
theorem State.taken_rows {type : Nat} {body : List DWord} {s : State} {f : ASet → ASet}
    (hf : ((s.aset n).takeRecord type body).Rows (f (s.aset n))) : (s.taken n type body).RowsKept n (s.onSet n f) := by
  refine ⟨?_, fun k hk => ?_⟩
  · rw [State.taken, State.onSet_aset, State.onSet_aset]
    exact hf
  · rw [State.taken, State.onSet_aset_ne _ _ _ _ hk, State.onSet_aset_ne _ _ _ _ hk]

/-- The descriptor that waits for a record completes. -/
def State.finished (t : Fin 8) (desc : Option BoltDesc) (s : State) : State := match desc with | some d => s.boltOk t d | none => s

theorem State.finished_rows (t : Fin 8) (desc : Option BoltDesc) (s : State) : s.RowsKept n (s.finished t desc) := by
  cases desc with
  | none => exact .refl n s
  | some d => exact .of_sets (State.boltOk_sets t d s)

theorem State.sw_rows (s : State) {k : Fin 8} (f : Nat → Fld) (v : Nat) : s.RowsKept n (s.sw k f v) := .of_sets (State.sw_sets s k f v)

/-- Stripes are settled alike in sets of the same rows. -/
theorem ASet.settle_rows {a b : ASet} (h : a.Rows b) (commit : Bool) (rs : List (Nat × Nat)) :
    (a.settle commit rs).Rows (b.settle commit rs) := by
  obtain ⟨hcfg, hbands, hqueue, hlag⟩ := h
  refine ⟨hcfg, ?_, hqueue, hlag⟩
  unfold ASet.settle
  rw [hbands]

theorem State.showPending_steady (hm : recordFields n ⊆ fs) (s : State) : s.Steady j fs (s.showPending n) :=
  State.sw_volatile_steady s n _ (hm (by simp [recordFields])) rfl

section

variable (hw : wearFields ⊆ fs) (he : eventFields ⊆ fs)
include hw he

theorem State.finished_steady (t : Fin 8) (desc : Option BoltDesc) (s : State) : s.Steady j fs (s.finished t desc) := by
  cases desc with
  | none => exact .refl j fs s
  | some d => exact State.boltOk_steady hw he t d s

/-- One COMMIT event is posted for a run of stripes. -/
theorem State.commitEvent_steady (t : Fin 8) (m : Nat) (c : BoltCpl) (s : State) :
    let u := (s.onTile t (·.bump BoltReg.STRIPES_COMMITTED m)).boltPost t c
    s.Steady j fs u ∧ s.RowsKept n u := by
  have hbump (x : Tile) : x.Plain (x.bump BoltReg.STRIPES_COMMITTED m) := Tile.plain_bump x _ (by decide)
  exact ⟨(State.onTile_steady s t (hbump _)).trans (State.boltPost_steady hw he t c _), .of_sets
    ((State.boltPost_changes (ps := [.tiles, .atria]) (by decide) t c (State.onTile_changes (by decide) t _ (.refl s))).sets (by decide))⟩

variable (hm : recordFields n ⊆ fs)
include hm

theorem State.commitDone_steady (body : List DWord) (s : State) : s.Steady j fs (s.commitDone n body) ∧
    (s.taken n 4 body).RowsKept n (s.commitDone n body) := by
  unfold State.commitDone
  extract_lets rs t first s1 blank s2
  have h1 : s.Steady j fs s1 := State.onSet_steady s n rfl
  have k1 : (s.taken n 4 body).RowsKept n s1 :=
    State.taken_rows (ASet.settle_rows (a := s.aset n) ⟨rfl, rfl, rfl, rfl⟩ true rs)
  clear_value s1
  have h2 : s1.Steady j fs s2 := .foldl _ (fun u r _ => (State.commitEvent_steady (n := n) hw he t r.2 _ u).1) s1
  have k2 : s1.RowsKept n s2 := by
    refine State.RowsKept.foldl rs (fun u r => ?_) s1
    exact (State.commitEvent_steady (j := j) hw he t r.2 _ u).2
  obtain ⟨h3, k3⟩ := State.retryWaits_steady (j := j) hw he (recordFields_setState hm) s2
  exact ⟨((h1.trans h2).trans h3).trans (State.showPending_steady hm _),
    ((k1.trans k2).trans k3).trans (State.sw_rows _ _ _)⟩

theorem State.voidDone_steady (body : List DWord) (desc : Option BoltDesc) (s : State) : s.Steady j fs (s.voidDone n body desc) ∧
    (s.taken n 5 body).RowsKept n (s.voidDone n body desc) := by
  have hbump (x : Tile) (m : Nat) : x.Plain (x.bump BoltReg.STRIPES_VOIDED m) := Tile.plain_bump x _ (by decide)
  unfold State.voidDone
  extract_lets rs s1 blank
  have h1 : s.Steady j fs s1 := (State.onSet_steady s n rfl).trans (State.onTile_steady _ _ (hbump _ _))
  have k1 : (s.taken n 5 body).RowsKept n s1 := (State.taken_rows (f := (·.settle false rs)) (.refl _)).trans (.of_sets rfl)
  obtain ⟨h2, k2⟩ := State.mapChange_steady (j := j) hw he (n := n) (hm (by simp [recordFields]))
    { blank with wseq := (rs.headD (0, 0)).1, voids := rs.map fun r => ⟨r.1, r.2⟩, desc := desc } (s1.showPending n)
  exact ⟨(h1.trans (State.showPending_steady hm s1)).trans h2, (k1.trans (State.sw_rows _ _ _)).trans k2⟩

end

/-! ### A durable CHECKPOINT (R317, R321) -/

/-- Set `n` keeps what its mirror lacks, and every other set is as it was. -/
def State.LagKept (n : Fin 8) (s t : State) : Prop := (t.aset n).lag = (s.aset n).lag ∧ ∀ k, k ≠ n → t.aset k = s.aset k

theorem State.LagKept.refl (n : Fin 8) (s : State) : s.LagKept n s := ⟨rfl, fun _ _ => rfl⟩

theorem State.LagKept.trans {s t u : State} (h : s.LagKept n t) (k : t.LagKept n u) : s.LagKept n u :=
  ⟨k.1.trans h.1, fun i hi => (k.2 i hi).trans (h.2 i hi)⟩

theorem State.RowsKept.lag {s t : State} (h : s.RowsKept n t) : s.LagKept n t := by
  obtain ⟨⟨-, -, -, hlag⟩, hother⟩ := h
  exact ⟨hlag, hother⟩

theorem State.Queued.lag {rs : List JRec} {s t : State} (h : State.Queued n rs s t) : s.LagKept n t := by
  obtain ⟨⟨w, p, hn⟩, hother⟩ := h
  exact ⟨by rw [hn], hother⟩

theorem State.onSet_lag (s : State) {f : ASet → ASet} (hf : (f (s.aset n)).lag = (s.aset n).lag) : s.LagKept n (s.onSet n f) :=
  ⟨by rw [State.onSet_aset]; exact hf, fun k hk => State.onSet_aset_ne _ _ _ _ hk⟩

theorem State.taken_lag (type : Nat) (body : List DWord) (s : State) : s.LagKept n (s.taken n type body) :=
  State.onSet_lag s (ASet.takeRecord_line _ _ _).2.2

/-- The journal buffer of the set's home tile holds no uncorrectable byte. -/
def State.BufferGood (n : Fin 8) (s : State) : Prop := (s.home n).journalBuf.bad 0 (2 ^ 32) = false

theorem State.Steady.bufferGood {s t : State} (h : s.Steady j fs t) (hs : s.BufferGood n) : t.BufferGood n := by
  unfold State.BufferGood State.home at hs ⊢
  rw [h.cfg]
  exact (h.tile _).2.2.2.1 hs

/-- A record that replay owes is written, or waits on. -/
def State.flushOne (n : Fin 8) (r : Nat × List DWord) (s : State) : State :=
  if (s.aset n).owed.head? = some r ∧ s.journalFits n [1 + r.2.length] true then
    if (s.readBuffer n).1 then
      ((s.readBuffer n).2.onSet n fun a => { a with owed := a.owed.drop 1 }).formRecord n r.1 r.2 none
    else (s.readBuffer n).2
  else s

theorem State.flushOwed_eq (n : Fin 8) (s : State) : s.flushOwed n = (s.aset n).owed.foldl (fun s r => s.flushOne n r) s := rfl

section

variable (hm : journalFields n ⊆ fs)
include hm

theorem State.flushOne_steady {s : State} (hb : s.BufferGood n) (r : Nat × List DWord) :
    s.Steady j fs (s.flushOne n r) ∧ s.LagKept n (s.flushOne n r) := by
  unfold State.flushOne
  split
  swap
  · exact ⟨.refl j fs s, .refl n s⟩
  cases hue : (s.home n).journalUe with
  | true =>
    rw [State.readBuffer_stopped hue]
    exact ⟨.refl j fs s, .refl n s⟩
  | false =>
    rw [State.readBuffer_taken hue hb, if_pos rfl]
    obtain ⟨pads, x, -, -, hq⟩ := State.formRecord_queued n r.1 r.2 none
      ((s.bufferTaken n).onSet n fun a => { a with owed := a.owed.drop 1 })
    have htaken : s.RowsKept n (s.bufferTaken n) := .of_sets (State.bufferTaken_sets n s)
    exact ⟨((State.bufferTaken_steady hb).trans (State.onSet_steady _ n rfl)).trans
        (State.formRecord_steady hm _ _ _ _),
      (htaken.lag.trans (State.onSet_lag _ rfl)).trans hq.lag⟩

theorem State.flushOwed_steady {s : State} (hb : s.BufferGood n) : s.Steady j fs (s.flushOwed n) ∧ s.LagKept n (s.flushOwed n) := by
  rw [State.flushOwed_eq]
  generalize (s.aset n).owed = l
  induction l generalizing s with
  | nil => exact ⟨.refl j fs s, .refl n s⟩
  | cons r l ih =>
    obtain ⟨h1, k1⟩ := State.flushOne_steady (j := j) hm hb r
    obtain ⟨h2, k2⟩ := ih (h1.bufferGood hb)
    exact ⟨h1.trans h2, k1.trans k2⟩

end

theorem State.checkpointTo_steady (hm : recordFields n ⊆ fs) (hw : wearFields ⊆ fs) (body : List DWord) (s : State) : s.Steady j fs (s.checkpointTo n body) ∧
    s.LagKept n (s.checkpointTo n body) := by
  unfold State.checkpointTo
  extract_lets w at_ js s1
  have hsw (u : State) {f : Nat → Fld} (v : Nat) (hf : f n ∈ recordFields n) : u.Steady j fs (u.sw n f v) :=
    State.sw_steady hw u n v (hm hf)
  have h1 : s.Steady j fs s1 := ((hsw s _ (by simp [recordFields])).trans (hsw _ _ (by simp [recordFields]))).trans
    (hsw _ _ (by simp [recordFields]))
  have k1 : s.RowsKept n s1 := ((State.sw_rows _ _ _).trans (State.sw_rows _ _ _)).trans (State.sw_rows _ _ _)
  exact ⟨(h1.trans (hsw s1 _ (by simp [recordFields]))).trans (State.onSet_steady _ n rfl),
    (k1.trans (State.sw_rows _ _ _)).lag.trans (State.onSet_lag _ rfl)⟩

end Sys2Proof.Machine

end

section

namespace Sys2Proof.Machine

/-! ### The effect of a durable record (R313, R316, R319) -/

variable {j : Prop} {fs : List Fld} {n : Fin 8}

/-- What every durable record keeps; one that is no CHECKPOINT leaves the set's rows as it was taken. -/
def State.Recorded (j : Prop) (fs : List Fld) (n : Fin 8) (type : Nat) (body : List DWord) (s t : State) : Prop :=
  s.Steady j fs t ∧ s.LagKept n t ∧ (type ≠ 7 → (s.taken n type body).RowsKept n t)

theorem State.Recorded.of_taken {type : Nat} {body : List DWord} {s t : State}
    (h : (s.taken n type body).Steady j fs t ∧ (s.taken n type body).RowsKept n t) : s.Recorded j fs n type body t :=
  ⟨(State.taken_steady n type body s).trans h.1, (State.taken_lag type body s).trans h.2.lag, fun _ => h.2⟩

theorem State.Recorded.of_rows {type : Nat} {body : List DWord} {s t : State}
    (h : s.Steady j fs t ∧ (s.taken n type body).RowsKept n t) : s.Recorded j fs n type body t :=
  ⟨h.1, (State.taken_lag type body s).trans h.2.lag, fun _ => h.2⟩

/-- A record takes effect alike in states of the same sets. -/
theorem State.taken_sets (type : Nat) (body : List DWord) {s t : State} (h : t.sets = s.sets) :
    (s.taken n type body).RowsKept n (t.taken n type body) := by
  have ha (k : Fin 8) : t.aset k = s.aset k := by unfold State.aset; rw [h]
  refine ⟨?_, fun k hk => ?_⟩
  · unfold State.taken
    rw [State.onSet_aset, State.onSet_aset, ha]
    exact .refl _
  · unfold State.taken
    rw [State.onSet_aset_ne _ _ _ _ hk, State.onSet_aset_ne _ _ _ _ hk, ha]

/-- The state that a durable MEMBER record leaves. -/
def State.memberDone (n : Fin 8) (body : List DWord) (s : State) : State :=
  (((s.sw n SetReg.PRESENT (bitsOf (body.getD 0 0).toNat 31 0)).sw n SetReg.REPLACING
    (bitsOf (body.getD 0 0).toNat 63 32)).taken n 8 body).setOk n

theorem State.recordDone_member {r : JRec} (h : r.type = 8) (s : State) : s.recordDone n r = s.memberDone n r.body := by
  unfold State.recordDone
  rw [h]
  rfl

/-- The state that a durable CHECKPOINT leaves. -/
def State.checkpointDone (n : Fin 8) (r : JRec) (s : State) : State :=
  (((s.checkpointTo n r.body).flushOwed n).showJournal n).finished (s.aset n).cfg.homeTile r.desc

theorem State.recordDone_checkpoint {r : JRec} (h : r.type = 7) (s : State) : s.recordDone n r = s.checkpointDone n r := by
  unfold State.recordDone
  rw [h]
  rfl

section

variable (hw : wearFields ⊆ fs) (he : eventFields ⊆ fs) (hm : recordFields n ⊆ fs)
include hw he hm

theorem State.memberDone_recorded (body : List DWord) (s : State) : s.Recorded j fs n 8 body (s.memberDone n body) := by
  have hsw (u : State) {f : Nat → Fld} (v : Nat) (hf : f n ∈ recordFields n) : u.Steady j fs (u.sw n f v) :=
    State.sw_steady hw u n v (hm hf)
  have hok (u : State) : u.Steady j fs (u.setOk n) := (State.setOk_steady u).mono
    (List.append_subset.2 ⟨List.append_subset.2 ⟨hw, he⟩, fun _ hg => hm (List.mem_append_right _ hg)⟩)
  have hsets (u : State) : (u.setOk n).sets = u.sets :=
    (State.setOk_changes (ps := [.tiles, .ports, .atria, .pkg]) (by decide) n (.refl u)).sets (by decide)
  refine .of_rows ⟨?_, ?_⟩
  · unfold State.memberDone
    exact (((hsw s _ (by simp [recordFields])).trans (hsw _ _ (by simp [recordFields]))).trans (State.taken_steady n 8 body _)).trans (hok _)
  · unfold State.memberDone
    exact (State.taken_sets 8 body (by rw [State.sw_sets, State.sw_sets])).trans (.of_sets (hsets _))

theorem State.checkpointDone_recorded {r : JRec} {s : State} (hb : s.BufferGood n) :
    s.Recorded j fs n 7 r.body (s.checkpointDone n r) := by
  obtain ⟨h1, k1⟩ := State.checkpointTo_steady (j := j) hm hw r.body s
  obtain ⟨h2, k2⟩ := State.flushOwed_steady (j := j) (recordFields_journal hm) (h1.bufferGood hb)
  have h3 (u : State) : u.Steady j fs (u.showJournal n) :=
    State.sw_volatile_steady u n _ (recordFields_journal hm (by simp [journalFields])) rfl
  have k3 (u : State) : u.RowsKept n (u.showJournal n) := State.sw_rows u _ _
  exact ⟨((h1.trans h2).trans (h3 _)).trans (State.finished_steady hw he _ _ _),
    ((k1.trans k2).trans (k3 _).lag).trans (State.finished_rows _ _ _).lag, fun h => absurd rfl h⟩

theorem State.recordDone_recorded (r : JRec) {s : State} (hb : r.type = 7 → s.BufferGood n) :
    s.Recorded j fs n r.type r.body (s.recordDone n r) := by
  have hmap (type : Nat) (m : MapWait) : s.Recorded j fs n type r.body ((s.taken n type r.body).mapChange n m) :=
    .of_taken (State.mapChange_steady hw he (hm (by simp [recordFields])) m _)
  by_cases h7 : r.type = 7
  · rw [State.recordDone_checkpoint h7, h7]
    exact State.checkpointDone_recorded hw he hm (hb h7)
  by_cases h8 : r.type = 8
  · rw [State.recordDone_member h8, h8]
    exact State.memberDone_recorded hw he hm r.body s
  unfold State.recordDone
  dsimp only
  split
  next h => rw [h]; exact hmap 1 _
  next h => rw [h]; exact .of_taken ⟨State.finished_steady hw he _ _ _, State.finished_rows _ _ _⟩
  next h => rw [h]; exact hmap 3 _
  next h => rw [h]; exact .of_rows (State.commitDone_steady hw he hm r.body s)
  next h => rw [h]; exact .of_rows (State.voidDone_steady hw he hm r.body r.desc s)
  next h => rw [h]; exact hmap 6 _
  next h => exact absurd h h7
  next h => exact absurd h h8
  next h1 h2 h3 h4 h5 h6 _ _ =>
    have hsame : (s.aset n).takeRecord r.type r.body = s.aset n := by
      unfold ASet.takeRecord
      dsimp only
      split
      · contradiction
      · contradiction
      · contradiction
      · contradiction
      · contradiction
      · contradiction
      · contradiction
      · rfl
    refine .of_rows ⟨.refl j fs s, ?_, fun k hk => ?_⟩
    · rw [State.taken, State.onSet_aset, hsame]
      exact .refl _
    · exact (State.onSet_aset_ne _ _ _ _ hk).symm

end

end Sys2Proof.Machine

end

section

namespace Sys2Proof.Machine

/-! ### The registers that a durable record writes (R305, R321) -/

variable {j : Prop} {fs : List Fld}

/-- No persistent field of the list is kept in the word of `f`. -/
def keptApart (f : Nat → Fld) (n : Fin 8) (l : List Fld) : Bool := l.all fun g => !g.persist || keptAddr (f n).off != g.off

/-- A register that persists reads as before, where an operation wrote others alone. -/
theorem State.Steady.keepsKept {l : List Fld} {s t : State} (h : s.Steady j (storeFields ++ l) t) {f : Nat → Fld} {n : Fin 8}
    (hf : apart f n l = true) (hl : keptApart f n l = true) : t.sr n f = s.sr n f := by
  refine h.sr (outside_of_apart hf) (refused_of_apart hf) fun _ g hg hgp => ?_
  rcases List.mem_append.1 hg with hg | hg
  · have := List.all_eq_true.1 store_volatile g hg
    simp [hgp] at this
  · have := List.all_eq_true.1 hl g hg
    simpa [hgp] using this

/-- A register that persists shows what was written, where its word is not lost. -/
theorem State.sr_sw_found {f : Nat → Fld} {n : Fin 8} (hp : (f n).persist = true) (hf : ∀ g ∈ logFields, (f n).key ≠ g.key) {s : State}
    (hs : s.storeRefuses = false) (v : Nat) (hfound : (s.sw n f v).lostWord (atriumTile (s.aset n).wing) (f n).off = false) :
    (s.sw n f v).sr n f = v % 2 ^ (f n).width := by
  have hwing : ((s.sw n f v).aset n).wing = (s.aset n).wing := by
    unfold State.aset
    rw [State.sw_sets]
  unfold State.sr
  rw [hwing]
  unfold State.pr
  rw [hfound]
  simp only [Bool.and_false, if_neg Bool.false_ne_true]
  unfold State.sw State.pw
  rw [hp, if_pos rfl, hs, if_neg Bool.false_ne_true]
  refine (State.keepPkg_kept hf (s.onPkg (s.aset n).wing (·.wr (f n) v)) _ _ _).trans ?_
  rw [State.onPkg_r_self, RegFile.rd_wr_self]

/-- The word of a register that was written with its set's stores taking writes is found. -/
theorem State.sw_found {f : Nat → Fld} {n : Fin 8} (hp : (f n).persist = true) {s : State} (hs : s.storeRefuses = false) (v : Nat) {b : Nat}
    (hb : keptAddr b = (f n).off) : (s.sw n f v).lostWord (atriumTile (s.aset n).wing) b = false := by
  unfold State.sw State.pw
  rw [hp, if_pos rfl, hs, if_neg Bool.false_ne_true]
  exact State.keepPkg_found hb ⟨f n, hp, rfl⟩

/-- None of the fields of the event log is `f`. -/
def logApart (f : Nat → Fld) (n : Fin 8) : Bool := logFields.all fun g => (f n).key != g.key

theorem key_of_logApart {f : Nat → Fld} {n : Fin 8} (h : logApart f n = true) : ∀ g ∈ logFields, (f n).key ≠ g.key := fun g hg => by
  simpa using List.all_eq_true.1 h g hg

theorem member_apart (n : Fin 8) : (apart SetReg.PRESENT n [SetReg.REPLACING n] = true ∧ keptApart SetReg.PRESENT n [SetReg.REPLACING n] = true) ∧
    (apart SetReg.PRESENT n (doneFields n) = true ∧ apart SetReg.REPLACING n (doneFields n) = true) ∧
    (keptAddr (SetReg.PRESENT n).off = (SetReg.PRESENT n).off ∧ keptAddr (SetReg.REPLACING n).off = (SetReg.REPLACING n).off) ∧
    logApart SetReg.PRESENT n = true ∧ logApart SetReg.REPLACING n = true := by
  revert n; decide

/-- CMD_STATUS and CMD_DONE of a command that is done, whether its set is in use or not. -/
theorem State.setOk_reports (n : Fin 8) (s : State) : (s.setOk n).sr n SetReg.CMD_STATUS = 0 ∧ (s.setOk n).sr n SetReg.CMD_DONE = 1 := by
  by_cases hn : (s.aset n).cfg.n = 0
  · obtain ⟨hstatus, -⟩ := done_apart n
    let s1 : State := s.sw n SetReg.CMD_STATUS 0
    have h1 : s1.Steady False (storeFields ++ [SetReg.CMD_DONE n]) (s1.sset n SetReg.CMD_DONE) := State.sset_steady s1 n (by simp)
    have hsame : s.setOk n = s1.sset n SetReg.CMD_DONE := by
      have hn' : ((s1.sset n SetReg.CMD_DONE).aset n).cfg.n = 0 := by
        rw [h1.cfg]
        unfold s1 State.aset
        rw [State.sw_sets]
        exact hn
      show (s1.sset n SetReg.CMD_DONE).refreshSet n = _
      unfold State.refreshSet
      rw [if_pos hn']
    rw [hsame]
    exact ⟨(h1.keepsReg hstatus (.inl rfl)).trans (State.sr_sw_volatile rfl s 0), State.sr_sset rfl rfl s1⟩
  · obtain ⟨hstatus, hdone, -⟩ := State.setOk_shows s hn
    exact ⟨hstatus, hdone⟩

theorem State.memberDone_shows {n : Fin 8} {s : State} (hs : s.storeRefuses = false) (body : List DWord) : let t := s.memberDone n body
    t.sr n SetReg.PRESENT = (body.headD 0).toNat % 2 ^ 32 ∧ t.sr n SetReg.REPLACING = (body.headD 0).toNat / 2 ^ 32 ∧
    t.sr n SetReg.CMD_STATUS = 0 ∧ t.sr n SetReg.CMD_DONE = 1 ∧ ((s.aset n).cfg.n ≠ 0 → t.sr n SetReg.SSTATE = t.sstate n) := by
  obtain ⟨⟨hpr, hprk⟩, ⟨hpd, hrd⟩, ⟨hpk, hrk⟩, hpl, hrl⟩ := member_apart n
  intro t
  have hw : (body.getD 0 0).toNat = (body.headD 0).toNat := by cases body <;> rfl
  generalize hx : (body.headD 0).toNat = x at hw ⊢
  have hx64 : x < 2 ^ 64 := hx ▸ (body.headD 0).isLt
  let s1 : State := s.sw n SetReg.PRESENT (bitsOf x 31 0)
  let s2 : State := s1.sw n SetReg.REPLACING (bitsOf x 63 32)
  let s3 : State := s2.taken n 8 body
  have ht : t = s3.setOk n := by
    show s.memberDone n body = _
    unfold State.memberDone
    rw [hw]
  have h1 : s.Steady False (storeFields ++ [SetReg.PRESENT n]) s1 :=
    State.sw_steady (List.subset_append_of_subset_left _ wear_store) s n _ (by simp)
  have h2 : s1.Steady False (storeFields ++ [SetReg.REPLACING n]) s2 :=
    State.sw_steady (List.subset_append_of_subset_left _ wear_store) s1 n _ (by simp)
  have h3 {l : List Fld} : s2.Steady False l s3 := State.taken_steady n 8 body s2
  have h4 : s3.Steady False (storeFields ++ doneFields n) t := ht ▸ State.setOk_steady s3
  obtain ⟨-, hvol, -⟩ := online_apart n
  have hpresent : s1.sr n SetReg.PRESENT = x % 2 ^ 32 := by
    refine (State.sr_sw_kept rfl hpk (key_of_logApart hpl) hs _).trans ?_
    show bitsOf x 31 0 % 2 ^ 32 = _
    unfold bitsOf
    rw [Nat.shiftRight_zero]
    omega
  have hreplacing : s2.sr n SetReg.REPLACING = x / 2 ^ 32 := by
    refine (State.sr_sw_kept rfl hrk (key_of_logApart hrl) (h1.storeRefuses.trans hs) _).trans ?_
    show bitsOf x 63 32 % 2 ^ 32 = _
    unfold bitsOf
    rw [Nat.shiftRight_eq_div_pow]
    omega
  obtain ⟨hstatus, hdone⟩ := State.setOk_reports n s3
  refine ⟨?_, ?_, ht ▸ hstatus, ht ▸ hdone, fun hn => ?_⟩
  · exact (h4.keepsReg hpd (.inr hvol)).trans (((h2.trans h3).keepsKept hpr hprk).trans hpresent)
  · exact ((h3.trans h4).keepsReg hrd (.inr hvol)).trans hreplacing
  · have hn3 : (s3.aset n).cfg.n ≠ 0 := by rw [(h3 (l := [])).cfg, h2.cfg, h1.cfg]; exact hn
    obtain ⟨-, -, hstate, -⟩ := State.setOk_shows s3 hn3
    rw [ht]
    exact hstate

theorem checkpoint_apart (n : Fin 8) : let later := journalFields n
    (apart SetReg.CKPT_SEQ n ([SetReg.WSEQ_AT_LO n, SetReg.WSEQ_AT_HI n, SetReg.JSTART n] ++ later) = true ∧
      keptApart SetReg.CKPT_SEQ n ([SetReg.WSEQ_AT_LO n, SetReg.WSEQ_AT_HI n, SetReg.JSTART n] ++ later) = true) ∧
    (apart SetReg.WSEQ_AT_LO n ([SetReg.WSEQ_AT_HI n, SetReg.JSTART n] ++ later) = true ∧
      keptApart SetReg.WSEQ_AT_LO n ([SetReg.WSEQ_AT_HI n, SetReg.JSTART n] ++ later) = true) ∧
    (apart SetReg.WSEQ_AT_HI n ([SetReg.JSTART n] ++ later) = true ∧
      keptApart SetReg.WSEQ_AT_HI n ([SetReg.JSTART n] ++ later) = true) ∧
    (apart SetReg.JSTART n later = true ∧ keptApart SetReg.JSTART n later = true) := by
  revert n; decide

theorem checkpoint_kept (n : Fin 8) : keptAddr (SetReg.CKPT_SEQ n).off = (SetReg.CKPT_SEQ n).off ∧
    keptAddr (SetReg.WSEQ_AT_LO n).off = (SetReg.WSEQ_AT_LO n).off ∧
    keptAddr (SetReg.WSEQ_AT_HI n).off = (SetReg.WSEQ_AT_LO n).off ∧ keptAddr (SetReg.JSTART n).off = (SetReg.JSTART n).off ∧
    logApart SetReg.CKPT_SEQ n = true ∧ logApart SetReg.WSEQ_AT_LO n = true ∧ logApart SetReg.WSEQ_AT_HI n = true ∧
    logApart SetReg.JSTART n = true := by
  revert n; decide

theorem State.checkpointDone_shows {n : Fin 8} {s : State} (hs : s.storeRefuses = false) (hb : s.BufferGood n) (r : JRec) :
    let t := s.checkpointDone n r
    t.sr n SetReg.CKPT_SEQ = (r.body.headD 0).toNat % 2 ^ 32 ∧ t.sr n SetReg.WSEQ_AT_LO = (r.body.getD 1 0).toNat % 2 ^ 32 ∧
    t.sr n SetReg.WSEQ_AT_HI = (r.body.getD 1 0).toNat / 2 ^ 32 % 2 ^ 8 ∧ t.sr n SetReg.JSTART = (r.body.getD 2 0).toNat % 2 ^ 32 := by
  obtain ⟨⟨hseq, hseqk⟩, ⟨hlo, hlok⟩, ⟨hhi, hhik⟩, hjs, hjsk⟩ := checkpoint_apart n
  obtain ⟨kseq, klo, khi, kjs, lseq, llo, lhi, ljs⟩ := checkpoint_kept n
  intro t
  have hw0 : r.body.getD 0 0 = r.body.headD 0 := by cases r.body <;> rfl
  let a : Nat := bitsOf (r.body.getD 1 0).toNat 39 0
  let b : Nat := bitsOf (r.body.getD 2 0).toNat 31 0
  let s1 : State := s.sw n SetReg.CKPT_SEQ (r.body.getD 0 0).toNat
  let s2 : State := s1.sw n SetReg.WSEQ_AT_LO a
  let s3 : State := s2.sw n SetReg.WSEQ_AT_HI (a / 2 ^ 32)
  let s4 : State := s3.sw n SetReg.JSTART b
  have hsw (u : State) {f : Nat → Fld} (v : Nat) {l : List Fld} (hf : f n ∈ l) : u.Steady False (storeFields ++ l) (u.sw n f v) :=
    State.sw_steady (List.subset_append_of_subset_left _ wear_store) u n v (List.mem_append_right _ hf)
  have hlast {l : List Fld} (hl : journalFields n ⊆ l) : s4.Steady False (storeFields ++ l) t := by
    let s5 : State := s4.onSet n fun a => { a with recPos := a.recPos.dropWhile fun r => r.1 != b }
    have h5 : s4.Steady False (storeFields ++ l) s5 := State.onSet_steady s4 n rfl
    have hb5 : s5.BufferGood n := by
      have h4 : s.Steady False (storeFields ++ recordFields n) s4 :=
        (((hsw s _ (by simp [recordFields])).trans (hsw s1 _ (by simp [recordFields]))).trans
          (hsw s2 _ (by simp [recordFields]))).trans (hsw s3 _ (by simp [recordFields]))
      exact h5.bufferGood (h4.bufferGood hb)
    have h6 : s5.Steady False (storeFields ++ l) (s5.flushOwed n) :=
      (State.flushOwed_steady (List.subset_append_of_subset_right _ hl) hb5).1
    have h7 : (s5.flushOwed n).Steady False (storeFields ++ l) ((s5.flushOwed n).showJournal n) :=
      State.sw_volatile_steady _ n _ (List.mem_append_right _ (hl (by simp [journalFields]))) rfl
    exact ((h5.trans h6).trans h7).trans (State.finished_steady (List.subset_append_of_subset_left _ wear_store)
      (List.subset_append_of_subset_left _ event_store) _ _ _)
  have hs1 : s1.storeRefuses = false := (hsw s _ (List.mem_singleton_self _)).storeRefuses.trans hs
  have hs2 : s2.storeRefuses = false := (hsw s1 _ (List.mem_singleton_self _)).storeRefuses.trans hs1
  have hs3 : s3.storeRefuses = false := (hsw s2 _ (List.mem_singleton_self _)).storeRefuses.trans hs2
  have hfound : s3.lostWord (atriumTile (s2.aset n).wing) (SetReg.WSEQ_AT_HI n).off = false := by
    have hwing : (s2.aset n).wing = (s1.aset n).wing := by unfold s2 State.aset; rw [State.sw_sets]
    rw [hwing]
    exact (hsw s2 _ (List.mem_singleton_self _)).found (State.sw_found rfl hs1 a khi)
  refine ⟨?_, ?_, ?_, ?_⟩
  · have h : s1.Steady False (storeFields ++ ([SetReg.WSEQ_AT_LO n, SetReg.WSEQ_AT_HI n, SetReg.JSTART n] ++ journalFields n)) t :=
      (((hsw s1 _ (by simp)).trans (hsw s2 _ (by simp))).trans (hsw s3 _ (by simp))).trans (hlast (List.subset_append_right _ _))
    rw [h.keepsKept hseq hseqk, ← hw0]
    exact State.sr_sw_kept rfl kseq (key_of_logApart lseq) hs _
  · have h : s2.Steady False (storeFields ++ ([SetReg.WSEQ_AT_HI n, SetReg.JSTART n] ++ journalFields n)) t :=
      ((hsw s2 _ (by simp)).trans (hsw s3 _ (by simp))).trans (hlast (List.subset_append_right _ _))
    rw [h.keepsKept hlo hlok]
    refine (State.sr_sw_kept rfl klo (key_of_logApart llo) hs1 _).trans ?_
    show bitsOf _ 39 0 % 2 ^ 32 = _
    unfold bitsOf
    rw [Nat.shiftRight_zero]
    omega
  · have h : s3.Steady False (storeFields ++ ([SetReg.JSTART n] ++ journalFields n)) t :=
      (hsw s3 _ (by simp)).trans (hlast (List.subset_append_right _ _))
    rw [h.keepsKept hhi hhik]
    refine (State.sr_sw_found rfl (key_of_logApart lhi) hs2 _ hfound).trans ?_
    show bitsOf _ 39 0 / 2 ^ 32 % 2 ^ 8 = _
    unfold bitsOf
    rw [Nat.shiftRight_zero]
    omega
  · rw [(hlast (List.Subset.refl _)).keepsKept hjs hjsk]
    refine (State.sr_sw_kept rfl kjs (key_of_logApart ljs) hs3 _).trans ?_
    show bitsOf _ 31 0 % 2 ^ 32 = _
    unfold bitsOf
    rw [Nat.shiftRight_zero]
    omega

end Sys2Proof.Machine

end

section

namespace Sys2Proof.Machine

/-! ### The bands as a durable record leaves them (R312, R313, R316) -/

theorem mem_insertBy {α : Type} (le : α → α → Bool) (x : α) (l : List α) : x ∈ insertBy le x l := by
  induction l with
  | nil => exact List.mem_singleton_self x
  | cons a l ih =>
    unfold insertBy
    split
    · exact List.mem_cons_self
    · exact List.mem_cons_of_mem _ ih

theorem bits40 (x : Nat) : bitsOf x 39 0 = x % 2 ^ 40 := by
  unfold bitsOf
  rw [Nat.shiftRight_zero]

/-- An OPEN record brings its band. -/
theorem ASet.takeRecord_opens (a : ASet) (body : List DWord) : let b := a.takeRecord 1 body
    ∃ o, b.bands.find? (·.wseqFirst == (body.headD 0).toNat % 2 ^ 40) = some o ∧ openOf body ∈ b.bands := by
  intro b
  have hmem : openOf body ∈ b.bands := mem_insertBy _ _ _
  have hfirst : (openOf body).wseqFirst = (body.headD 0).toNat % 2 ^ 40 := by
    refine Eq.trans ?_ (bits40 _)
    cases body <;> rfl
  have hsome : (b.bands.find? (·.wseqFirst == (body.headD 0).toNat % 2 ^ 40)).isSome = true :=
    List.find?_isSome.2 ⟨_, hmem, by simpa using hfirst⟩
  obtain ⟨o, ho⟩ := Option.isSome_iff_exists.1 hsome
  exact ⟨o, ho, hmem⟩

/-- A DELTA record adds its pairs to its band. -/
theorem ASet.takeRecord_deltas (a : ASet) (body : List DWord) : (a.takeRecord 2 body).bands = a.bands.map fun o =>
    if o.wseqFirst = (body.headD 0).toNat % 2 ^ 40 then { o with deltas := o.deltas ++ pairsOf (body.drop 1) } else o := by
  have hw : (body.getD 0 0).toNat = (body.headD 0).toNat := by cases body <;> rfl
  rw [← bits40, ← hw]
  rfl

/-- A mask has the bits of its list. -/
theorem bitOf_maskOf (l : List Nat) (i : Nat) : bitOf (maskOf l) i = decide (i ∈ l) := by
  have hfold (m : Nat) : bitOf (l.foldl (fun m i => m ||| 2 ^ i) m) i = (bitOf m i || decide (i ∈ l)) := by
    induction l generalizing m with
    | nil => simp
    | cons k l ih =>
      rw [List.foldl_cons, ih]
      unfold bitOf
      rw [Nat.testBit_or, Nat.testBit_two_pow, Bool.or_assoc, ← Bool.decide_or]
      simp only [List.mem_cons, eq_comm]
  unfold maskOf
  rw [hfold]
  simp [bitOf]

/-- The stripes of a band that are committed. -/
def OpenBand.marked (b : OpenBand) : List Nat := (List.range b.count).filter fun i => bitOf b.committed i

/-- A COMMIT record marks the stripes that it names. -/
theorem ASet.takeRecord_commits (a : ASet) (body : List DWord) : (a.takeRecord 4 body).bands.map OpenBand.marked =
    a.bands.map fun o => (List.range o.count).filter fun i =>
      bitOf o.committed i || decide (o.wseqFirst + i ∈ wseqsOf (rangesOf body)) := by
  have hmine (o : OpenBand) (l : List Nat) (i : Nat) (hi : i < o.count) :
      (i ∈ (l.filter o.has).map (· - o.wseqFirst)) ↔ o.wseqFirst + i ∈ l := by
    simp only [List.mem_map, List.mem_filter, OpenBand.has, decide_eq_true_eq]
    constructor
    · rintro ⟨w, ⟨hw, hlo, -⟩, rfl⟩
      rwa [Nat.add_sub_cancel' hlo]
    · exact fun h => ⟨_, ⟨h, by omega, by omega⟩, by omega⟩
  show List.map _ (List.map _ a.bands) = _
  rw [List.map_map]
  refine List.map_congr_left fun o _ => List.filter_congr fun i hi => ?_
  show bitOf (o.committed ||| maskOf _) i = _
  unfold bitOf
  rw [Nat.testBit_or]
  congr 1
  exact (bitOf_maskOf _ i).trans (decide_eq_decide.2 (hmine o _ i (List.mem_range.1 hi)))

/-! ### A record in its copies (R314, R315) -/

variable {j : Prop} {fs : List Fld}

/-- A Selvedge word that a store takes is what was written. -/
theorem State.selvWrite_read {s : State} (hs : s.storeRefuses = false) (t : Fin 8) (w : Nat) (v : DWord) :
    ((s.selvWrite t w v).tile t).selv.read w = v := by
  unfold State.selvWrite
  rw [hs, if_neg Bool.false_ne_true]
  have htiles {u : State} : (u.noteWear t w).tile t = u.tile t :=
    congrArg (fun v => v[t]) ((State.noteWear_changes (ps := [.atria]) (by decide) t w (.refl u)).tiles (by decide))
  rw [htiles, State.onTile_tile]
  exact Selvedge.read_write_self _ _ _

/-- Every journal word of the tiles but `t` is as it was. -/
def State.OthersKept (t : Fin 8) (s u : State) : Prop :=
  ∀ k, k ≠ t → ∀ w, journalWord ≤ w → (u.tile k).selv.read w = (s.tile k).selv.read w

theorem State.OthersKept.trans {t : Fin 8} {s u v : State} (h : s.OthersKept t u) (k : u.OthersKept t v) : s.OthersKept t v :=
  fun i hi w hw => (k i hi w hw).trans (h i hi w hw)

theorem State.Steady.othersKept {t : Fin 8} {s u : State} (h : s.Steady True fs u) : s.OthersKept t u := fun k _ _ hw =>
  h.journal trivial k hw

theorem State.OthersKept.foldl {α : Type} {t : Fin 8} {g : State → α → State} (l : List α) (hg : ∀ s a, State.OthersKept t s (g s a))
    (s : State) : s.OthersKept t (l.foldl g s) := by
  induction l generalizing s with
  | nil => exact fun _ _ _ _ => rfl
  | cons a l ih => exact (hg s a).trans (ih _)

theorem State.selvWrite_others (s : State) (t : Fin 8) (w : Nat) (v : DWord) : s.OthersKept t (s.selvWrite t w v) := by
  intro k hk i _
  have htiles {u : State} : (u.noteWear t w).tile k = u.tile k :=
    congrArg (fun v => v[k]) ((State.noteWear_changes (ps := [.atria]) (by decide) t w (.refl u)).tiles (by decide))
  unfold State.selvWrite
  split
  · exact congrArg (fun v => (v[k]).selv.read i)
      ((State.pset_changes (ps := [.atria]) (by decide) _ _ (.refl s)).tiles (by decide))
  · rw [htiles, State.onTile_def, State.setTile_tile_ne _ _ _ _ hk]

theorem SetDef.jword_ge (d : SetDef) (p : Nat) : journalWord ≤ d.jword p := by
  unfold SetDef.jword
  omega

/-- The words of a journal lie above those that keep registers. -/
theorem SetDef.jword_above (d : SetDef) (p : Nat) : 0x100 ≤ d.jword p := le_trans (by decide) (d.jword_ge p)

theorem State.putRecord_steady (hw : wearFields ⊆ fs) (d : SetDef) (t : Fin 8) (r : JRec) (s : State) :
    s.Steady False fs (s.putRecord d t r) := by
  have hword (u : State) (p : Nat) (v : DWord) : u.Steady False fs (u.selvWrite t (d.jword p) v) :=
    State.selvWrite_steady hw u t v (d.jword_above p) False.elim
  unfold State.putRecord
  exact ((State.sendPacket_steady _ _ _ _ _).trans (.foldl _ (fun u e _ => hword u _ _) _)).trans (hword _ _ _)

theorem State.putRecord_read {s : State} (hs : s.storeRefuses = false) (d : SetDef) (t : Fin 8) (r : JRec) :
    ((s.putRecord d t r).tile t).selv.read (d.jword r.pos) = r.header := by
  unfold State.putRecord
  extract_lets s1 s2
  have h1 : s.Steady False wearFields s1 := State.sendPacket_steady _ _ _ _ _
  have h2 : s1.Steady False wearFields s2 := .foldl _ (fun u e _ =>
    State.selvWrite_steady (List.Subset.refl _) u t _ (d.jword_above _) False.elim) _
  exact State.selvWrite_read ((h1.trans h2).storeRefuses.trans hs) t _ _

theorem State.putRecord_others (d : SetDef) (t : Fin 8) (r : JRec) (s : State) : s.OthersKept t (s.putRecord d t r) := by
  have hsent : s.Steady True [] (s.sendPacket d.homeTile t vcCommand ((8 * r.words + 63) / 64)) := State.sendPacket_steady _ _ _ _ _
  unfold State.putRecord
  exact (hsent.othersKept.trans (.foldl _ (fun u e => State.selvWrite_others u t _ _) _)).trans (State.selvWrite_others _ t _ _)

theorem State.putRecord_sets (d : SetDef) (t : Fin 8) (r : JRec) (s : State) : (s.putRecord d t r).sets = s.sets :=
  (State.putRecord_changes (ps := [.tiles, .atria]) (by decide) d t r (.refl s)).sets (by decide)

end Sys2Proof.Machine

end

section

namespace Sys2Proof.Machine

/-! ### JOURNAL_RECORD_DURABLE (R314) -/

/-- The oldest record is written in the copy of its set's home tile, where it is not there yet. -/
def State.homeWritten (n : Fin 8) (x : JRec) (s : State) : State :=
  if x.half then s else s.putRecord (s.aset n).cfg (s.aset n).cfg.homeTile x

/-- It is written in the mirror, after what the mirror lacked, and leaves the queue. -/
def State.mirrored (n : Fin 8) (d : SetDef) (x : JRec) (l : List JRec) (s : State) : State :=
  ((s.copyLag n).putRecord d d.mirrorTile x).onSet n fun a => { a with queue := l }

/-- It leaves the queue for what the mirror lacks. -/
def State.lagging (n : Fin 8) (x : JRec) (l : List JRec) (s : State) : State :=
  (s.sset n SetReg.MIRROR_LAG).onSet n fun a => { a with queue := l, lag := a.lag ++ [{ x with desc := none }] }

/-- It waits for its mirror at the front of the queue. -/
def State.halfWritten (n : Fin 8) (x : JRec) (l : List JRec) (s : State) : State :=
  (s.sset n SetReg.MIRROR_LAG).onSet n fun a => { a with queue := { x with half := true } :: l }

theorem split_apart : AuthReg.SPLIT.Outside wearFields := .of (by decide)

theorem State.homeWritten_sets (n : Fin 8) (x : JRec) (s : State) : (s.homeWritten n x).sets = s.sets := by
  unfold State.homeWritten
  split
  · rfl
  · exact State.putRecord_sets _ _ _ _

theorem State.homeWritten_steady (n : Fin 8) (x : JRec) (s : State) : s.Steady False wearFields (s.homeWritten n x) :=
  .ite (.refl _ _ s) (State.putRecord_steady (List.Subset.refl _) _ _ x s)

theorem State.homeWritten_read {n : Fin 8} {x : JRec} {s : State} (hs : s.storeRefuses = false) (hx : x.half = false) :
    ((s.homeWritten n x).tile (s.aset n).cfg.homeTile).selv.read ((s.aset n).cfg.jword x.pos) = x.header := by
  unfold State.homeWritten
  rw [hx, if_neg Bool.false_ne_true]
  exact State.putRecord_read hs _ _ x

theorem State.copyLag_steady (n : Fin 8) (s : State) : s.Steady False wearFields (s.copyLag n) := by
  unfold State.copyLag
  exact (State.Steady.foldl _ (fun u r _ => State.putRecord_steady (List.Subset.refl _) _ _ r u) s).trans (State.onSet_steady _ n rfl)

theorem State.copyLag_others (n : Fin 8) (s : State) : s.OthersKept (s.aset n).cfg.mirrorTile (s.copyLag n) := by
  unfold State.copyLag
  exact (State.OthersKept.foldl _ (fun u r => State.putRecord_others _ _ r u) s).trans fun _ _ _ _ => rfl

theorem State.copyLag_aset (n : Fin 8) (s : State) : (s.copyLag n).aset n = { s.aset n with lag := [] } ∧
    ∀ k, k ≠ n → (s.copyLag n).aset k = s.aset k := by
  have hsets : ((s.aset n).lag.foldl (fun s' r => s'.putRecord (s.aset n).cfg (s.aset n).cfg.mirrorTile r) s).sets = s.sets :=
    (State.ChangesOnly.foldl (ps := [.tiles, .atria]) (.refl s) fun _ r hu =>
      State.putRecord_changes (by decide) _ _ r hu).sets (by decide)
  have ha (k : Fin 8) := congrArg (fun v => v[k]) hsets
  unfold State.copyLag
  refine ⟨?_, fun k hk => ?_⟩
  · rw [State.onSet_aset]
    exact congrArg (fun a : ASet => { a with lag := [] }) (ha n)
  · rw [State.onSet_aset_ne _ _ _ _ hk]
    exact ha k

theorem State.writeJournal_eq {n : Fin 8} {x : JRec} {l : List JRec} {u : State} (hq : (u.aset n).queue = x :: l) :
    u.writeJournal n = (if u.mirrorUp n then ((u.homeWritten n x).mirrored n (u.aset n).cfg x l).recordDone n x
      else if u.split then ((u.homeWritten n x).lagging n x l).recordDone n x
      else (u.homeWritten n x).halfWritten n x l) := by
  have h := State.homeWritten_steady n x u
  unfold State.writeJournal
  dsimp only
  rw [hq, ← h.mirrorUp n, ← h.split split_apart]
  rfl

/-- The record has left the queue; `L` is what the mirror lacks then. -/
def State.Placed (n : Fin 8) (x : JRec) (l L : List JRec) (u w : State) : Prop :=
  u.Steady False (storeFields ++ [SetReg.MIRROR_LAG n]) w ∧ w.aset n = { u.aset n with queue := l, lag := L } ∧
  (∀ k, k ≠ n → w.aset k = u.aset k) ∧
  (x.half = false → (w.tile (u.aset n).cfg.homeTile).selv.read ((u.aset n).cfg.jword x.pos) = x.header)

section

variable {n : Fin 8} {x : JRec} {l : List JRec} {u : State} (hs : u.storeRefuses = false)
include hs

theorem State.mirrored_placed : let w := (u.homeWritten n x).mirrored n (u.aset n).cfg x l
    State.Placed n x l [] u w ∧ (w.tile (u.aset n).cfg.mirrorTile).selv.read ((u.aset n).cfg.jword x.pos) = x.header := by
  intro w
  let v : State := u.homeWritten n x
  have h1 : u.Steady False wearFields v := State.homeWritten_steady n x u
  have h2 : v.Steady False wearFields (v.copyLag n) := State.copyLag_steady n v
  have h3 : (v.copyLag n).Steady False wearFields ((v.copyLag n).putRecord (u.aset n).cfg (u.aset n).cfg.mirrorTile x) :=
    State.putRecord_steady (List.Subset.refl _) _ _ x _
  have hv (k : Fin 8) : v.aset k = u.aset k := congrArg (fun s => s[k]) (State.homeWritten_sets n x u)
  have hput (k : Fin 8) : ((v.copyLag n).putRecord (u.aset n).cfg (u.aset n).cfg.mirrorTile x).aset k = (v.copyLag n).aset k :=
    congrArg (fun s => s[k]) (State.putRecord_sets _ _ x _)
  obtain ⟨hlag, hother⟩ := State.copyLag_aset n v
  have hmirror : (w.tile (u.aset n).cfg.mirrorTile).selv.read ((u.aset n).cfg.jword x.pos) = x.header :=
    State.putRecord_read ((h1.trans h2).storeRefuses.trans hs) _ _ x
  refine ⟨⟨?_, ?_, fun k hk => ?_, fun hx => ?_⟩, hmirror⟩
  · exact (((h1.trans h2).trans h3).mono (List.subset_append_of_subset_left _ wear_store)).trans (State.onSet_steady _ n rfl)
  · refine (State.onSet_aset ..).trans ?_
    rw [hput, hlag, hv]
  · exact (State.onSet_aset_ne _ _ _ _ hk).trans ((hput k).trans ((hother k hk).trans (hv k)))
  · by_cases ht : (u.aset n).cfg.homeTile = (u.aset n).cfg.mirrorTile
    · rw [ht]
      exact hmirror
    · have hkeep : v.OthersKept (u.aset n).cfg.mirrorTile ((v.copyLag n).putRecord (u.aset n).cfg (u.aset n).cfg.mirrorTile x) :=
        State.OthersKept.trans (by rw [← hv n]; exact State.copyLag_others n v) (State.putRecord_others _ _ x _)
      exact (hkeep _ ht _ (SetDef.jword_ge _ _)).trans (State.homeWritten_read hs hx)

/-- The mirror lags, and the set changes in no part but what is queued. -/
theorem State.flagged_shows {f : ASet → ASet} (hf : (f (u.aset n)).cfg = (u.aset n).cfg) :
    let w := ((u.homeWritten n x).sset n SetReg.MIRROR_LAG).onSet n f
    u.Steady False (SetReg.MIRROR_LAG n :: wearFields) w ∧ w.aset n = f (u.aset n) ∧ (∀ k, k ≠ n → w.aset k = u.aset k) ∧
    (x.half = false → (w.tile (u.aset n).cfg.homeTile).selv.read ((u.aset n).cfg.jword x.pos) = x.header) ∧
    w.sr n SetReg.MIRROR_LAG = 1 := by
  intro w
  let v : State := u.homeWritten n x
  let v' : State := v.sset n SetReg.MIRROR_LAG
  have h1 : u.Steady False wearFields v := State.homeWritten_steady n x u
  have h2 : v.Steady True [SetReg.MIRROR_LAG n] v' := State.sset_steady v n (List.mem_singleton_self _)
  have hv (k : Fin 8) : v'.aset k = u.aset k := congrArg (fun s => s[k])
    (((State.sset_changes (ps :=
        [.atria]) (by decide) n SetReg.MIRROR_LAG (.refl v)).sets (by decide)).trans (State.homeWritten_sets n x u))
  have h3 {l : List Fld} : v'.Steady False l w := State.onSet_steady v' n (by rw [hv]; exact hf)
  refine ⟨?_, ?_, fun k hk => ?_, fun hx => ?_, ?_⟩
  · exact ((h1.mono (List.subset_cons_self _ _)).trans ((h2.weak False.elim).mono (by simp))).trans h3
  · exact (State.onSet_aset ..).trans (congrArg f (hv n))
  · exact (State.onSet_aset_ne _ _ _ _ hk).trans (hv k)
  · exact (h2.journal trivial _ (SetDef.jword_ge _ _)).trans (State.homeWritten_read hs hx)
  · have hapart : ∀ n : Fin 8, apart SetReg.MIRROR_LAG n [] = true := by decide
    exact ((h3 (l := storeFields ++ [])).keepsReg (hapart n) (.inl rfl)).trans (State.sr_sset rfl rfl v)

theorem State.lagging_placed : let w := (u.homeWritten n x).lagging n x l
    State.Placed n x l ((u.aset n).lag ++ [{ x with desc := none }]) u w ∧ w.sr n SetReg.MIRROR_LAG = 1 := by
  obtain ⟨h, haset, hother, hhome, hlag⟩ := State.flagged_shows (x := x) hs
    (f := fun a => { a with queue := l, lag := a.lag ++ [{ x with desc := none }] }) rfl
  refine ⟨⟨h.mono ?_, haset, hother, hhome⟩, hlag⟩
  exact List.cons_subset.2 ⟨List.mem_append_right _ (List.mem_singleton_self _), List.subset_append_of_subset_left _ wear_store⟩

end

/-- What every record that has left the queue shows when it is durable. -/
def State.DurableShows (n : Fin 8) (x : JRec) (u t : State) : Prop :=
  let a := u.aset n; let b := t.aset n; let w0 := (x.body.headD 0).toNat; let w1 := (x.body.getD 1 0).toNat
  (x.type = 1 → ∃ o, b.bands.find? (·.wseqFirst == w0 % 2 ^ 40) = some o ∧ openOf x.body ∈ b.bands) ∧
  (x.type = 2 → b.bands = a.bands.map fun o => if o.wseqFirst = w0 % 2 ^ 40 then { o with
    deltas := o.deltas ++ pairsOf (x.body.drop 1) } else o) ∧
  (x.type = 4 → b.bands.map OpenBand.marked = a.bands.map fun o => (List.range o.count).filter fun i =>
    bitOf o.committed i || decide (o.wseqFirst + i ∈ wseqsOf (rangesOf x.body))) ∧
  (x.type = 8 → t.sr n SetReg.PRESENT = w0 % 2 ^ 32 ∧ t.sr n SetReg.REPLACING = w0 / 2 ^ 32 ∧
    t.sr n SetReg.CMD_STATUS = 0 ∧ t.sr n SetReg.CMD_DONE = 1 ∧ (a.cfg.n ≠ 0 → t.sr n SetReg.SSTATE = t.sstate n)) ∧
  (x.type = 7 → t.sr n SetReg.CKPT_SEQ = w0 % 2 ^ 32 ∧ t.sr n SetReg.WSEQ_AT_LO = w1 % 2 ^ 32 ∧
    t.sr n SetReg.WSEQ_AT_HI = w1 / 2 ^ 32 % 2 ^ 8 ∧ t.sr n SetReg.JSTART = (x.body.getD 2 0).toNat % 2 ^ 32)

/-- The fields of a set's registers and its alert hold all that its records change. -/
theorem record_subset (n : Fin 8) : storeFields ++ ([SetReg.MIRROR_LAG n] ++ recordFields n) ⊆
    HostReg.ALERT_SRC :: SetReg.one n ++ wearFields ++ eventFields := by
  have hset : ∀ n : Fin 8, ([SetReg.MIRROR_LAG n] ++ recordFields n).all
      (fun g => (HostReg.ALERT_SRC :: SetReg.one n).contains g) = true := by decide
  intro g hg
  rw [List.append_assoc]
  refine (List.mem_append.1 hg).elim (fun h => List.mem_append_right _ h) fun h => List.mem_append_left _ ?_
  simpa using List.all_eq_true.1 (hset n) g h

section

variable {n : Fin 8} {x : JRec} {l L : List JRec} {u w : State} (hs : u.storeRefuses = false) (hb : x.type = 7 → u.BufferGood n)
  (hw : State.Placed n x l L u w)
include hb hw

theorem State.Placed.recorded {j : Prop} : w.Recorded j (storeFields ++ recordFields n) n x.type x.body (w.recordDone n x) := by
  obtain ⟨h, -⟩ := hw
  exact State.recordDone_recorded (List.subset_append_of_subset_left _ wear_store) (List.subset_append_of_subset_left _ event_store)
    (List.subset_append_right _ _) x fun h7 => h.bufferGood (hb h7)

theorem State.Placed.kept : let t := w.recordDone n x
    (t.aset n).lag = L ∧ (∀ k, k ≠ n → t.aset k = u.aset k) ∧ (x.type ≠ 7 → (t.aset n).queue = l) ∧
    (∀ k i, journalWord ≤ i → (t.tile k).selv.read i = (w.tile k).selv.read i) ∧ t.sr n SetReg.MIRROR_LAG = w.sr n SetReg.MIRROR_LAG := by
  intro t
  obtain ⟨hsteady, ⟨hlag, hother⟩, hrows⟩ := hw.recorded (j := True) hb
  obtain ⟨-, haset, hpast, -⟩ := hw
  have hapart : ∀ n : Fin 8, apart SetReg.MIRROR_LAG n (recordFields n) = true := by decide
  refine ⟨by rw [hlag, haset], fun k hk => (hother k hk).trans (hpast k hk), fun h7 => ?_, fun k i hi => hsteady.journal trivial k hi,
    hsteady.keepsReg (hapart n) (.inl rfl)⟩
  obtain ⟨⟨-, -, hqueue, -⟩, -⟩ := hrows h7
  rw [hqueue, State.taken, State.onSet_aset, (ASet.takeRecord_line _ _ _).2.1, haset]

include hs

theorem State.Placed.fields (k : Fin 2) : (u.atrium k).KeepsFields ((w.recordDone n x).atrium k)
    (HostReg.ALERT_SRC :: SetReg.one n ++ wearFields ++ eventFields) := by
  obtain ⟨hsteady, -⟩ := hw.recorded (j := False) hb
  obtain ⟨h, -⟩ := hw
  have hall : u.Steady False (storeFields ++ ([SetReg.MIRROR_LAG n] ++ recordFields n)) (w.recordDone n x) :=
    (h.mono (List.append_subset.2 ⟨List.subset_append_left _ _, List.subset_append_of_subset_right _ (List.subset_append_left _ _)⟩)).trans
      (hsteady.mono (List.append_subset.2 ⟨List.subset_append_left _ _,
        List.subset_append_of_subset_right _ (List.subset_append_right _ _)⟩))
  exact hall.keepsFields k (record_subset n) (.inl hs)

theorem State.Placed.shows : State.DurableShows n x u (w.recordDone n x) := by
  obtain ⟨-, -, hrows⟩ := hw.recorded (j := False) hb
  obtain ⟨h, haset, -⟩ := hw
  have hsw : w.storeRefuses = false := h.storeRefuses.trans hs
  have hbands (h7 : x.type ≠ 7) : ((w.recordDone n x).aset n).bands = ((w.aset n).takeRecord x.type x.body).bands := by
    obtain ⟨⟨-, hbands, -⟩, -⟩ := hrows h7
    rw [hbands, State.taken, State.onSet_aset]
  have hold : (w.aset n).bands = (u.aset n).bands := by rw [haset]
  refine ⟨fun h1 => ?_, fun h2 => ?_, fun h4 => ?_, fun h8 => ?_, fun h7 => ?_⟩
  · rw [hbands (by omega), h1]
    exact ASet.takeRecord_opens _ _
  · rw [hbands (by omega), h2, ASet.takeRecord_deltas, hold]
  · rw [hbands (by omega), h4, ASet.takeRecord_commits, hold]
  · rw [State.recordDone_member h8, ← h.cfg n]
    exact State.memberDone_shows hsw x.body
  · rw [State.recordDone_checkpoint h7]
    exact State.checkpointDone_shows hsw (h.bufferGood (hb h7)) x

end

end Sys2Proof.Machine

end

section

namespace Sys2Proof.Machine

/-! ### JOURNAL_RECORD_DURABLE and the outcomes of a write -/

section

variable {s u : State} {wait : Nat} (hu : s.pass wait = u) {n : Fin 8} {x : JRec} (hx : (u.aset n).queue.head? = some x)
  (hb : x.type = 7 → u.BufferGood n) (hup : u.primaryUp n = true) (hin : u.journalInTime x.words = true)
include hu hx hup hin

theorem execJournalRecordDurable_writes : exec (.journalRecordDurable wait n) s = .next (u.writeJournal n) ∧
    s.ChangesOnly [.time, .tiles, .ports, .sets, .atria, .pkg] (u.writeJournal n) := by
  subst hu
  refine ⟨show execJournalRecordDurable wait n s = _ from State.after_due _ ?_,
    State.writeJournal_changes (by decide) n (State.pass_changes (by decide) wait (.refl s))⟩
  cases hq : ((s.pass wait).aset n).queue with
  | nil => rw [hq] at hx; cases hx
  | cons r l =>
    rw [hq] at hx
    cases hx
    rw [hup]
    exact hin

/-- The mirror cannot be written, and the wings are not split: the record waits. -/
theorem execJournalRecordDurable_waits (hm : u.mirrorUp n = false) (hsplit : u.split = false) :
    Completes (.journalRecordDurable wait n) s fun t =>
      t.aset n = { u.aset n with queue := { x with half := true } :: (u.aset n).queue.drop 1 } ∧ t.sr n SetReg.MIRROR_LAG = 1 ∧
      (x.half = false → (t.tile (u.aset n).cfg.homeTile).selv.read ((u.aset n).cfg.jword x.pos) = x.header) ∧
      (∀ w, (u.atrium w).KeepsFields (t.atrium w) (SetReg.MIRROR_LAG n :: wearFields)) ∧
      s.ChangesOnly [.time, .tiles, .sets, .atria] t := by
  have hq := List.cons_head?_tail hx
  obtain ⟨hexec, -⟩ := execJournalRecordDurable_writes hu hx hup hin
  rw [State.writeJournal_eq hq.symm, hm, hsplit, if_neg Bool.false_ne_true, if_neg Bool.false_ne_true] at hexec
  obtain ⟨h, haset, -, hhome, hlag⟩ := State.flagged_shows (n := n) (x := x) (State.primaryUp_stores hup)
    (f := fun a => { a with queue := { x with half := true } :: (u.aset n).queue.tail }) rfl
  refine ⟨_, hexec, ?_, hlag, hhome, fun w => h.keepsFields w (List.Subset.refl _) (.inl (State.primaryUp_stores hup)), ?_⟩
  · rw [List.drop_one]
    exact haset
  · have hpass : s.ChangesOnly [.time, .tiles, .sets, .atria] u := hu ▸ State.pass_changes (by decide) wait (.refl s)
    have hhome : s.ChangesOnly [.time, .tiles, .sets, .atria] (u.homeWritten n x) := by
      unfold State.homeWritten
      split
      · exact hpass
      · exact State.putRecord_changes (by decide) _ _ x hpass
    exact State.onSet_changes (by decide) n _ (State.sset_changes (by decide) n _ hhome)

/-- What the statement says of a record that leaves the queue. -/
def State.RecordDurable (s u : State) (n : Fin 8) (x : JRec) (t : State) : Prop :=
  let a := u.aset n; let d := a.cfg; let b := t.aset n; let l := a.queue.drop 1
  (x.half = false → (t.tile d.homeTile).selv.read (d.jword x.pos) = x.header) ∧
  (u.mirrorUp n = true → (t.tile d.mirrorTile).selv.read (d.jword x.pos) = x.header ∧ b.lag = []) ∧
  (u.mirrorUp n = false → b.lag = a.lag ++ [{ x with desc := none }] ∧ t.sr n SetReg.MIRROR_LAG = 1) ∧
  (x.type ≠ 7 → b.queue = l) ∧ State.DurableShows n x u t ∧ (∀ k, k ≠ n → t.aset k = u.aset k) ∧
  (∀ w, (u.atrium w).KeepsFields (t.atrium w) (HostReg.ALERT_SRC :: SetReg.one n ++ wearFields ++ eventFields)) ∧
  s.ChangesOnly [.time, .tiles, .ports, .sets, .atria, .pkg] t

include hb

/-- The mirror is written, or the wings are split: the record takes effect. -/
theorem execJournalRecordDurable_done (hc : u.mirrorUp n = true ∨ u.split = true) :
    Completes (.journalRecordDurable wait n) s (State.RecordDurable s u n x) := by
  have hq := List.cons_head?_tail hx
  have hs := State.primaryUp_stores hup
  obtain ⟨hexec, hchanges⟩ := execJournalRecordDurable_writes hu hx hup hin
  cases hm : u.mirrorUp n with
  | true =>
    rw [State.writeJournal_eq hq.symm, hm, if_pos rfl] at hexec hchanges
    obtain ⟨hplaced, hmirror⟩ := State.mirrored_placed (n := n) (x := x) (l := (u.aset n).queue.tail) hs
    obtain ⟨hlag, hother, hqueue, hread, -⟩ := hplaced.kept hb
    obtain ⟨-, -, -, hhome⟩ := id hplaced
    refine ⟨_, hexec, fun hx => (hread _ _ (SetDef.jword_ge _ _)).trans (hhome hx), fun _ =>
      ⟨(hread _ _ (SetDef.jword_ge _ _)).trans hmirror, hlag⟩, fun h => absurd (hm.symm.trans h) (by decide),
        fun h7 => ?_, hplaced.shows hs hb,
      hother, hplaced.fields hs hb, hchanges⟩
    rw [List.drop_one]
    exact hqueue h7
  | false =>
    have hsplit : u.split = true := hc.resolve_left (by rw [hm]; exact Bool.false_ne_true)
    rw [State.writeJournal_eq hq.symm, hm, if_neg Bool.false_ne_true, hsplit, if_pos rfl] at hexec hchanges
    obtain ⟨hplaced, hflag⟩ := State.lagging_placed (n := n) (x := x) (l := (u.aset n).queue.tail) hs
    obtain ⟨hlag, hother, hqueue, hread, hshown⟩ := hplaced.kept hb
    obtain ⟨-, -, -, hhome⟩ := id hplaced
    refine ⟨_, hexec, fun hx => (hread _ _ (SetDef.jword_ge _ _)).trans (hhome hx), fun h => absurd (hm.symm.trans h) (by decide),
      fun _ => ⟨hlag, hshown.trans hflag⟩, fun h7 => ?_, hplaced.shows hs hb, hother, hplaced.fields hs hb, hchanges⟩
    rw [List.drop_one]
    exact hqueue h7

end

/-- Settles O50: a record is formed and becomes durable in states whose copies, links and registers are otherwise steady. -/
theorem setCommands : Obligations.SetCommands := by
  unfold Obligations.SetCommands
  intro wear logs
  have hwear : wear = wearFields := rfl
  have hlogs : logs = eventFields := rfl
  clear_value wear logs
  subst hwear hlogs
  refine ⟨?_, ?_, ?_⟩
  · intro s q n v off ok u d m drop broken p r members all refused done
    have hu : s.atSetCmd q n = u := rfl
    clear_value u
    have hs : s.ChangesOnly [.time, .tiles, .shadows] u := State.atSetCmd_only ok hu
    have hrow {e} (he : e ∈ members) : e ∈ u.memberRows q n v := he
    refine ⟨fun ha i hi => setCommand_unauth ok hu v ha hi, fun ha => ⟨setCommand_reserved ok hu v ha,
      fun hn i hi => setCommand_unused ok hu v ha hn hi, fun hm e he => setCommand_noMember ok hu v ha hm (hrow he),
        fun hn => ⟨?_, ?_, ?_, ?_, ?_, ?_⟩⟩⟩
    · exact fun h => setCommand_onlineAgain ok hu v ha hn h
    · exact fun h hr => ⟨_, setCommand_onlineTaken ok hu v ha hn h hr, State.online_done hs hn hr⟩
    · intro h hr
      have ht := State.online_refused hs h hr (k := 1 + Config.freeValue u.freeCount % 4) (by omega) (by omega)
      exact ⟨_, setCommand_onlineRefused ok hu v ha hn h hr, ht⟩
    · exact ⟨_, setCommand_suspend ok hu v ha hn, State.suspend_done hs hn⟩
    · exact ⟨_, setCommand_resume ok hu v ha hn, State.resume_done hs hn⟩
    · intro hm e he
      refine ⟨fun hc => setCommand_notMember ok hu v ha hm (hrow he) hc, fun hc hdown => ?_, fun hc hup hue ho => ?_⟩
      · obtain ⟨dropped, -, hexec⟩ := setCommand_member ok hu v ha hm (hrow he) hc
        rw [State.memberCmd_down _ _ _ _ hdown] at hexec
        exact hexec
      · obtain ⟨dropped, hd, hexec⟩ := setCommand_member ok hu v ha hm (hrow he) hc
        have hr : u.storeRefuses = false := State.primaryUp_stores hup
        refine ⟨fun hf => ?_, fun hf hbad => ?_, fun hf hbad => ?_⟩
        · rw [State.memberCmd_full _ _ _ _ hup hue ho hf] at hexec
          exact hexec
        · rw [State.memberCmd_lost _ _ _ _ hup hue ho hf hbad] at hexec
          exact ⟨_, hexec, State.member_lost hs⟩
        · rw [State.memberCmd_formed _ _ _ _ hup hue ho hf hbad, hd] at hexec
          exact ⟨_, hexec, State.member_formed hs hr hbad _⟩
  · intro s wait n u a d home marked broken
    have hu : s.pass wait = u := rfl
    clear_value u
    refine ⟨?_, fun x hx hb hup _ hin => ⟨fun hm hsplit => ?_, fun hc => ?_⟩⟩
    · intro want hwant hreplayed hsusp hname hpick ho
      refine ⟨fun hf => ⟨fun hbad => ?_, fun hbad => ?_⟩, fun hf => ?_⟩
      · exact execStripeCommit_lost hu hwant hreplayed hsusp hpick ho hf hbad
      · exact execStripeCommit_formed hu hwant hreplayed hsusp hpick ho hf hname hbad
      · exact execStripeCommit_full hu hwant hreplayed hsusp hpick ho hf
    · exact execJournalRecordDurable_waits hu hx hup hin hm hsplit
    · obtain ⟨t, hexec, hhome, hmirror, hlag, hqueue, ⟨h1, h2, h4, h8, h7⟩, hother, hfields, hchanges⟩ :=
        execJournalRecordDurable_done hu hx hb hup hin hc
      exact ⟨t, hexec, hhome, hmirror, hlag, hqueue, h1, h2, h4, h8, h7, hother, hfields, hchanges⟩
  · intro s wait t u x b ht
    have hu : s.pass wait = u := rfl
    clear_value u
    exact ⟨execCreditAccrual_accrues hu ht, execPaceWindowEnd_ends hu ht⟩

end Sys2Proof.Machine

end
